-- ==== Sys2Proof/Word.lean ====
section
/-!
DEFINITION. Sys2Proof/Word.lean: the word types of the GX-512 and their plainest arithmetic.
A register is a 32-bit word (R5); a byte is eight bits; a port number is one of 52 (R10).
-/
namespace Sys2Proof

/-- A byte of a buffer, a frame or a memory. -/
abbrev Byte := BitVec 8

/-- A 32-bit register word (R5). -/
abbrev Word := BitVec 32

/-- A line port: LV00–LV47 are 0–47, MV0–MV3 are 48–51 (R10). -/
abbrev Port := Fin 52

/-- A phase group: feeder f is group f, MV port m is group 16 + m (R12). -/
abbrev Group := Fin 20

/-- An engine cluster (R268). -/
abbrev Cluster := Fin 32

/-- A commons bank (R302). -/
abbrev Bank := Fin 128

/-- A backhaul lane BH0–BH3 (R366). -/
abbrev Lane := Fin 4

/-- A mirror lane PM0–PM1 (R10). -/
abbrev MLane := Fin 2

/-- A serial port SER0–SER3 (R10). -/
abbrev Serial := Fin 4

/-- A TRU reference 0–7 (R348). -/
abbrev Ref := Fin 8

/-- A sensor channel: SX0–SX7 are 0–7, SI0–SI3 are 8–11 (R10, R427). -/
abbrev Chan := Fin 12

/-- A burst ID, 13 bits (R274). -/
abbrev BurstId := Fin 8192

/-- A hardware context index, 20 bits (R213). -/
abbrev CtxIndex := BitVec 20

/-- One of the two waveforms of the line (R11). -/
inductive Wave where
  | nb
  | bb
deriving DecidableEq, Repr

end Sys2Proof
end

