-- ==== Sys2Proof/Pages.lean ====
section
/-!
DEFINITION. Sys2Proof/Pages.lean: the register pages of BAR0, by kind and by instance (R25).
-/
namespace Sys2Proof

/-- The block types of R25 that share one page layout. -/
inductive PageKind where
  | mod | pwr | boot | saf | tkt | mgt | sen | ser
  | tru | pair | sto | pci | lan | lanm
  | bcn | asc | rpt | ncal | cip | bq | nbw | bbw | mem
  | lpt | eng | memb
deriving DecidableEq, Repr

/-- A register page of R25: a kind and, where R25 gives several, its instance. -/
inductive Page where
  | mod | pwr | boot | saf | tkt | mgt | sen
  | ser (s : Serial)
  | tru | pair | sto | pci
  | lan (l : Lane)
  | lanm (m : MLane)
  | bcn | asc | rpt | ncal | cip | bq | nbw | bbw | mem
  | lpt (n : Port)
  | eng (c : Cluster)
  | memb (b : Bank)
deriving DecidableEq, Repr

end Sys2Proof
end

