-- ==== Sys2Proof/Events.lean ====
section
/-!
DEFINITION. Sys2Proof/Events.lean: the types of the operands of commands. An operand says what comes from outside: what a host
writes, what the line, a pin or a sensor delivers, or what a decoder, a measurement or a check outside the modelled state has found.
-/
namespace Sys2Proof

/-- The form of a host access (R26): the byte enables of a 32-bit access, or another size. -/
inductive AccessForm where
  | dword (enables : BitVec 4)
  | other (bytes : Nat)
deriving DecidableEq, Repr

/-- A host address: an offset in BAR0 (R24) or in BAR2 (R377). -/
inductive HostAddr where
  | bar0 (a : BitVec 26)
  | bar2 (a : BitVec 16)
deriving DecidableEq, Repr

/-- Where a command comes from: a host write to CMD, whose arguments stand in CMD_ARG0–CMD_ARG2 (R38), or a descriptor of command ring
24–27 (R384). -/
inductive CmdSrc where
  | host (tag : BitVec 8)
  | ring (ring : Fin 4) (cookie : BitVec 64) (tag : BitVec 8) (a0 a1 a2 : Word)
deriving DecidableEq, Repr

/-- What a read of stored bits finds (R311): nothing wrong, a single-bit error at a bit position of a word, or an uncorrectable error. -/
inductive ReadErr where
  | clean
  | single (word : Nat) (bit : Fin 72)
  | uncorrectable (word : Nat)
deriving DecidableEq, Repr

/-- What a queue POP finds in the ring word (R294): a sound word, an uncorrectable data error, or a parity error of the tag. -/
inductive PopErr where
  | sound | data | tag
deriving DecidableEq, Repr

/-- What a cluster fault is (R282): a parity error of the instruction store, an uncorrectable error in engine scratch, or an LDPC
decoder fault. -/
inductive ClusterCause where
  | parity | scratch | ldpc
deriving DecidableEq, Repr

/-- A host access through the commons window (R305): a read of `n` bytes, a write of bytes, or one whose bytes are not contiguous. -/
inductive WinAccess where
  | read (n : Nat)
  | write (data : List Byte)
  | gappedRead (n : Nat)
  | gappedWrite
deriving DecidableEq, Repr

/-- A port B access that reaches the first word of a port A access in the same cycle (R309): its master (R306), and the word it writes, or
none for a read. -/
structure Collision where
  master : Fin 56
  write : Option (BitVec 64)
deriving DecidableEq, Repr

/-- What the Badger finds at a word of the stripe it walks (R312, R314): a corrected bit, an uncorrectable error, or a failed comparison
at a bit position. -/
inductive BadgerFind where
  | corrected (word : Fin 64) (bit : Fin 72)
  | uncorrectable (word : Fin 64)
  | failed (word : Fin 64) (bit : Fin 72)
deriving DecidableEq, Repr

/-- A beacon key as the mirror carries it (R404): key, salt, generation, and the last nonce counter used under it. -/
structure MirrorKey where
  key : List Byte
  salt : Word
  gen : BitVec 3
  last : Option (BitVec 40)
deriving DecidableEq, Repr

/-- The values of NB_MAP, RU_MAP, BW − 1 and BB_CPER (R190, R192). -/
structure MapPlan where
  nb : BitVec 61
  ru : BitVec 27
  bw : BitVec 2
  cper : BitVec 2
deriving DecidableEq, Repr

/-- The content of a BEACON_STATE mirror message (R404): SFN, DOMAIN_ID, maps and plan fields in force and pending, epoch, the beacon ports of
each round, and the beacon keys in force and pending with APPLY_SFN. -/
structure BeaconState where
  sfn : Word
  domain : BitVec 14
  cur : MapPlan
  next : MapPlan
  epoch : Option Word
  rounds : List (List Port)
  key : Option MirrorKey
  keyNext : Option (MirrorKey × Word)
deriving DecidableEq, Repr

/-- The body of a mirror message (R404). An AUX_DELTA carries a relay table entry, a tone map entry, a tree route entry, the module's own
parent association (whether ACTIVE, index, record), or a group's counter. -/
inductive MirrorBody where
  | heartbeat (role sync : BitVec 2) (tq : BitVec 4) (mt lastMt arrival : BitVec 64)
  | ctxDelta (index : CtxIndex) (offset : BitVec 16) (data : List Byte)
  | relayDelta (addr : CtxIndex) (entry : List Byte)
  | tmapDelta (addr : CtxIndex) (down : Bool) (port : Port) (map : List Byte)
  | routeDelta (session : CtxIndex) (entry : Word)
  | parentDelta (active : Bool) (index : CtxIndex) (record : List Byte)
  | groupDelta (g : Fin 16) (counter : BitVec 40)
  | reserve (group : Bool) (index : CtxIndex) (kgen : BitVec 3) (blockEnd : BitVec 64)
  | beaconState (b : BeaconState)
  | truState (e : BitVec 64) (state : BitVec 4) (teEst : Word) (aligned : Bool)
  | ack (seq : BitVec 64)
  | syncDone (count : Word)
  | handover (sfn : Word)
deriving DecidableEq, Repr

/-- A mirror message with the fields of its header (R402): UNIT and start count of ORIGIN, SEQ, SFN, EPOCH. -/
structure MirrorMsg where
  unit : Bool
  start : BitVec 31
  seq : BitVec 64
  sfn : Word
  epoch : Word
  body : MirrorBody
deriving DecidableEq, Repr

/-- A DL descriptor as read (R381): index, LEN, WAVE, COOKIE, and the bytes of its buffer, or none when the read failed. -/
structure DlDesc where
  index : Word
  len : BitVec 16
  wave : BitVec 8
  cookie : BitVec 64
  data : Option (List Byte)
deriving DecidableEq, Repr

/-- A lane of R366 or a mirror lane of R402. -/
inductive LaneId where
  | bh (l : Lane)
  | pm (m : MLane)
deriving DecidableEq, Repr

/-- An entry of a command ring that no page takes (R384): it names an unlisted page or sets ABORT, or its opcode is undefined on a listed page. -/
inductive BadEntry where
  | unlisted (cookie : BitVec 64) (page : Word)
  | undefined (page : Page) (cookie : BitVec 64) (tag : BitVec 8)
deriving DecidableEq, Repr

/-- A frame received on a lane (R368): destination, the tag if it has one, EtherType, whether its FCS holds, the bytes after the EtherType, and the
time stamp of its SFD in TRU nanoseconds (R374). -/
structure LaneRx where
  dst : BitVec 48
  vlan : Option (BitVec 16)
  etype : BitVec 16
  fcsOk : Bool
  data : List Byte
  stamp : BitVec 64
deriving DecidableEq, Repr

/-- An extra grant that the scheduler's own policy asks for in a plan (R197, R198): the association, the waveform, the period of a periodic
grant (0 for a single occurrence), and LEN_MAX. -/
structure GrantWish where
  index : CtxIndex
  narrow : Bool
  period : BitVec 16
  lenMax : BitVec 16
deriving DecidableEq, Repr

/-- What the decoding of a received burst finds (R122, R155, R158, R279): whether its CRC holds, symbols received and erased, the qualities of phases
1–3, codewords unsatisfied, first-path offset in samples, whether ports were combined and a gain step was seen, the payload, and the
signal-to-noise ratio of each carrier in tenths of a dB. -/
structure RxResult where
  crcOk : Bool
  symbols : Nat
  erased : Nat
  quality : BitVec 24
  cwFail : Nat
  offset : Int
  multi : Bool
  gainStep : Bool
  payload : List Byte
  snr : List Nat
deriving DecidableEq, Repr

/-- What the timing unit has measured when a selection may end (R355, R356): the LOCKED seconds in the holdover window, the mean of STEER over them, the
mean of REF_PHASE over the last 60 s in nanoseconds, and Θ in tenths of a nanosecond. -/
structure TruHold where
  locked : BitVec 13
  mean : Word
  phase : Word
  theta : Word
deriving DecidableEq, Repr

/-- One output of a sensor channel's decimation filter (R417–R423): the ratio in units of 2^−31, the excitation current in µA, the bridge excitation in
units of 0.1 mV, and whether the bridge is found open or short. -/
structure SensorOut where
  rho : Word
  current : BitVec 16
  excitation : BitVec 16
  bridgeOpen : Bool
  bridgeShort : Bool
deriving DecidableEq, Repr

/-- A character that a serial receiver has completed (R453, R454): its bits, a low stop bit, wrong parity, and whether its start bit was detected before the
last write to SER_CFG or SER_DIV (R456). -/
structure SerChar where
  data : BitVec 8
  fe : Bool
  pe : Bool
  old : Bool
deriving DecidableEq, Repr

/-- What a start-up stage has found: the baseplate temperature (stage 0x02), whether the key store passes its check (0x05), the failing columns of the commons
(0x09), and the cipher pipelines that fail their known-answer tests (0x0B). -/
structure StageFind where
  temp : BitVec 16
  keyStore : Bool
  columns : List (Bank × Fin 72)
  pipes : List (Fin 2)
deriving DecidableEq, Repr

/-- What a port's receive chain has measured outside bursts in the superframe that ends: the noise floors of broadband and narrowband in 0.1 dBm/Hz
(LPT_NOISE). -/
structure NoiseReading where
  port : Port
  bb : BitVec 16
  nb : BitVec 16
deriving DecidableEq, Repr

/-- What ends a command whose work lies outside the modelled signals (R40): the errors of CAL_PORT in 0.05 dB (R107), the pipeline that failed SELF_TEST
(R343), the failing columns of TEST_BANK (R317), the first block of READ_BLOCKS that cannot be read, with the reads recovered by retry (R392), the first port
that KILL_TEST found slow (R482), and the offset and gain of SELF_CAL, or none within the bound (R424). A command reads only its own. -/
structure CmdResult where
  tx : BitVec 8
  rx : BitVec 8
  pipe : Option (Fin 2)
  columns : List (Fin 72)
  bad : Option (Fin 256)
  retries : Nat
  slow : Option Port
  cal : Option (Word × Word)
deriving DecidableEq, Repr

/-- What a host write may need beside its value, where the register it writes has a command of its own with further operands: the sample of the slot at which it
arrives (R344), the TRU's measurements, the conditions that monitors hold (R482), the entries of a command ring that name no command (R384), and the blocks that
a stopped block command has done (R398). A write reads only what its register needs. -/
structure WriteEnv where
  sample : Fin 204800
  hold : TruHold
  holds : BitVec 5
  bad : List BadEntry
  blocks : Nat
deriving DecidableEq, Repr

end Sys2Proof
end

