-- ==== Sys2Proof/Syntax.lean ====
section
/-!
DEFINITION. Sys2Proof/Syntax.lean: the commands of the block, one constructor per row of the table of operations and events, with
the operands each carries.
-/
namespace Sys2Proof

/-- The commands of the block: one constructor for each row of the table of operations and events. -/
inductive Instr where
  /-- REGISTER_WRITE: A host write to a register that has no row of its own sets its RW fields, ignores reserved fields and handles reserved encodings and RWP fields. (R8) -/
  | registerWrite (a : HostAddr) (form : AccessForm) (value : Word) (env : WriteEnv)
  /-- INT_STAT_CLEAR: A W1C write to INT_STAT clears the bits written as 1 and may resend the vector's MSI-X message. (R29) -/
  | intStatClear (page : Page) (value : Word)
  /-- INT_EN_WRITE: A write to INT_EN changes which bits request an interrupt and sends the message if the vector's condition stays true. (R34) -/
  | intEnWrite (page : Page) (value : Word)
  /-- INT_FORCE: A write to INT_FORCE sets the matching INT_STAT bits and nothing else. (R29) -/
  | intForce (page : Page) (value : Word)
  /-- CMD_STAT_CLEAR: A W1C write to CMD_STAT clears DONE, ABORT_LATE or DROPPED. (R9) -/
  | cmdStatClear (page : Page) (value : Word)
  /-- COUNTER_READ_CLEAR: A read of an RC register such as ERR_CNT or a counter returns the value and then clears it. (R9) -/
  | counterReadClear (a : HostAddr) (form : AccessForm)
  /-- NOP: Opcode 0x0000 on any page completes with OK within 1 µs. (R40) -/
  | nop (page : Page) (src : CmdSrc)
  /-- CMD_ABORT: A CMD write with ABORT=1 stops the matching command at its next safe point, marks ABORT_LATE, or is dropped. (R41) -/
  | cmdAbort (page : Page) (tag : BitVec 8) (blocks : Nat)
  /-- CMD_COMPLETION: A command's completion latches CODE and DETAIL, clears BUSY, sets DONE and CMD_DONE, and writes any ring completion. (R40) -/
  | cmdCompletion (page : Page) (r : CmdResult)
  /-- LPT_BLK_RESET: CTRL.BLK_RESET on an LPT page disables the driver, kills the port's transmit bursts, erases its samples and resets its registers. (R111) -/
  | lptBlkReset (n : Port)
  /-- NBW_BLK_RESET: CTRL.BLK_RESET on NBW aborts narrowband bursts and resets NBW_CFG and the counters. (R133) -/
  | nbwBlkReset
  /-- BBW_BLK_RESET: CTRL.BLK_RESET on BBW aborts broadband bursts and resets BBW_CFG, PERIOD and the counters. (R165) -/
  | bbwBlkReset
  /-- NCAL_BLK_RESET: CTRL.BLK_RESET on NCAL empties every calendar, ends SETTLE and resets the counters. (R180) -/
  | ncalBlkReset
  /-- BCN_BLK_RESET: CTRL.BLK_RESET on BCN resets the counters and BCN_DWELL_SEL. (R210) -/
  | bcnBlkReset
  /-- ASC_BLK_RESET: CTRL.BLK_RESET on ASC resets the counters and ASC_RESULT. (R241) -/
  | ascBlkReset
  /-- RPT_BLK_RESET: CTRL.BLK_RESET on RPT resets the counters and RPT_ROUTE_SEL. (R265) -/
  | rptBlkReset
  /-- ENG_BLK_RESET: CTRL.BLK_RESET on ENG c completes the cluster's bursts with RESET, gates its engines and reassigns them from the next superframe. (R283) -/
  | engBlkReset (c : Cluster)
  /-- BQ_BLK_RESET: CTRL.BLK_RESET on BQ resets the counters and BQ_SEL and keeps every queue. (R299) -/
  | bqBlkReset
  /-- MEM_GLOBAL_BLK_RESET: CTRL.BLK_RESET on MEM (global) resets the counters and restarts the Badger at FIRST_BANK. (R317) -/
  | memGlobalBlkReset
  /-- MEMB_BLK_RESET: CTRL.BLK_RESET on MEM b resets the bank's counters and keeps power state, repairs and content. (R310) -/
  | membBlkReset (b : Bank)
  /-- CIP_BLK_RESET: CTRL.BLK_RESET on CIP completes jobs with RESET, flushes the key cache and zeroes the test key. (R342) -/
  | cipBlkReset
  /-- TRU_BLK_RESET: CTRL.BLK_RESET on TRU stops a slew and completes an outstanding command with RESET. (R363) -/
  | truBlkReset
  /-- LAN_BLK_RESET: CTRL.BLK_RESET on a LAN or LANM page retrains the PCS and resets the counters. (R367) -/
  | lanBlkReset (l : LaneId)
  /-- PCI_BLK_RESET: CTRL.BLK_RESET on PCI acts as RING_RESET on every ring and resets the counters. (R389) -/
  | pciBlkReset
  /-- STO_BLK_RESET: CTRL.BLK_RESET on STO completes the outstanding command after its current block and resets the counters. (R398) -/
  | stoBlkReset (n : Nat)
  /-- PAIR_BLK_RESET: CTRL.BLK_RESET on PAIR resets the counters and completes an outstanding command with RESET. (R413) -/
  | pairBlkReset
  /-- SEN_BLK_RESET: CTRL.BLK_RESET on SEN restarts the cycle of every SX channel and leaves SI channels running. (R426) -/
  | senBlkReset
  /-- MGT_BLK_RESET: CTRL.BLK_RESET on MGT resets the counters and keeps the log, slots and campaign. (R450) -/
  | mgtBlkReset
  /-- SER_BLK_RESET: CTRL.BLK_RESET on a SER page empties its registers and shifters, clears a stop state and restarts break measurement. (R468) -/
  | serBlkReset (n : Serial)
  /-- KILLN_FALL: KILL# falling below its low threshold makes a kill decision with cause KILLN and reports diagnostic row 3. (R475) -/
  | killnFall
  /-- KILLN_RISE: KILL# returns high; with KILLN_AUTO=1 the 100 ms release count starts. (R475) -/
  | killnRise
  /-- KILLN_AUTO_RELEASE: 100 ms after KILL# returned high with KILLN_AUTO=1, the KILLN cause ends. (R475) -/
  | killnAutoRelease
  /-- PERST_ASSERT: PERST# low resets the PCIe endpoint and every ring, and line service continues. (R386) -/
  | perstAssert
  /-- PERST_RELEASE: PERST# released; the endpoint answers configuration within 1 s of the later of release and stage 0x07. (R85) -/
  | perstRelease
  /-- MRST_ASSERT: MRST# low for 10 µs outside DORMOUSE asserts a module reset, held while low; in DORMOUSE it is a wake. (R81) -/
  | mrstAssert
  /-- MRST_RELEASE: Release of MRST# restarts the start-up sequence at stage 0x01, or begins the wake sequence. (R85) -/
  | mrstRelease
  /-- PLUG_REMOVED: Removal of an LV plug leaves the declaration unchanged while bursts on its ports run into open terminals or fail. (R64) -/
  | plugRemoved (connector : Fin 4)
  /-- BASEPLATE_OVER_TEMP: The baseplate above +73 °C logs an event and raises PWR OVER_TEMP. (R46) -/
  | baseplateOverTemp (temp : BitVec 16)
  /-- TEMP_KILL: The baseplate above +80 °C disables every driver through the kill path with cause TEMP. (R46) -/
  | tempKill (temp : BitVec 16)
  /-- TEMP_KILL_RELEASE: After 60 s below +75 °C, the TEMP kill cause ends. (R46) -/
  | tempKillRelease
  /-- COLD_HOLD_END: The baseplate reaching −40 °C ends the cold hold at stage 0x02, and start-up continues with PWR_WAKE_CAUSE.TEMP. (R46) -/
  | coldHoldEnd
  /-- POWER_ON: A supply declared OK while in OFF starts the module from reset. (R81) -/
  | powerOn (main : Bool) (volts : BitVec 16) (spent : Bool)
  /-- MAIN_OK: MAIN in range with the storage bus ≥ 370 V for the restore delay is declared MAIN_OK; the module returns to MAIN or leaves OUTAGE. (R65) -/
  | mainOk (volts : BitVec 16)
  /-- MAIN_FAILED: MAIN failed starts the BACKUP converter, sets SOURCE to BACKUP and raises MAIN_LOST. (R66) -/
  | mainFailed (volts : BitVec 16)
  /-- BACKUP_STANDBY_RETURN: 100 ms after MAIN carries the load, the BACKUP converter returns to standby. (R66) -/
  | backupStandbyReturn
  /-- BACKUP_OK: BACKUP in range with correct polarity for 1 s is declared BACKUP_OK. (R65) -/
  | backupOk (volts : BitVec 16)
  /-- BACKUP_FAILED: BACKUP out of range for 1 ms, or reversed, is declared failed. (R65) -/
  | backupFailed (volts : BitVec 16) (reversed : Bool)
  /-- BACKUP_LOW: BACKUP falls below PWR_THRESH.BACKUP_LOW and raises INT_STAT.BACKUP_LOW. (R80) -/
  | backupLow (volts : BitVec 16)
  /-- DORM_ON_LOW_EXPIRY: 10 s below BACKUP_LOW on BACKUP with DORM_ON_LOW=1 enters DORMOUSE. (R67) -/
  | dormOnLowExpiry
  /-- OUTAGE_DELAY_EXPIRY: OUTAGE_DELAY seconds on BACKUP with OUTAGE_EN=1 requests automatic entry to OUTAGE at the next plan fixing. (R68) -/
  | outageDelayExpiry
  /-- BOTH_FAILED: Both supplies failed: drivers are disabled, the load is shed, last-gasp is sent, store operations complete and the domains go off. (R73) -/
  | bothFailed (main backup : BitVec 16) (together : Bool) (blocks : Nat)
  /-- SHUTDOWN_COMPLETE: At +10 ms all domains except the real-time counter go off and the module is in OFF. (R73) -/
  | shutdownComplete
  /-- ENTER_DORMOUSE: Command 0x0001 on PWR disables drivers, completes store operations, logs the entry, puts DRAM in self-refresh and switches off the other domains. (R71) -/
  | enterDormouse (src : CmdSrc)
  /-- ENTER_OUTAGE: Command 0x0002 on PWR requests OUTAGE while on BACKUP, completing at the superframe boundary or with REFUSED or BAD_ARG. (R70) -/
  | enterOutage (src : CmdSrc)
  /-- LEAVE_OUTAGE: Command 0x0003 on PWR leaves OUTAGE at the superframe boundary. (R68) -/
  | leaveOutage (src : CmdSrc)
  /-- TEST_LAST_GASP: Command 0x0004 on PWR sends a last-gasp frame with CAUSE 0x80 and shuts nothing down. (R73) -/
  | testLastGasp (src : CmdSrc)
  /-- WAKE: An enabled wake source in DORMOUSE latches PWR_WAKE_CAUSE and starts the wake sequence with DRAM contexts kept. (R72) -/
  | wake (source : Fin 5)
  /-- RTC_ALARM: The real-time counter equal to PWR_RTC_ALARM raises RTC_ALARM and wakes the module if enabled. (R496) -/
  | rtcAlarm
  /-- PWR_RTC_LO_READ: A read of PWR_RTC_LO latches the counter's upper bits into PWR_RTC_HI. (R76) -/
  | pwrRtcLoRead
  /-- PWR_RTC_ALARM_LO_WRITE: A write to PWR_RTC_ALARM_LO sets the 48-bit alarm together with the value held in PWR_RTC_ALARM_HI. (R496) -/
  | pwrRtcAlarmLoWrite (value : Word)
  /-- STARTUP_STAGE_COMPLETE: The completion of a start-up stage starts the next stage and updates BOOT_STATUS.STAGE. (R84) -/
  | startupStageComplete (f : StageFind)
  /-- LISTEN_END: The end of the two listening superframes of stage 0x0E sends the first beacon in the configured role. (R84) -/
  | listenEnd
  /-- WATCHDOG_EXPIRY: Expiry of the 1 s Tarlum watchdog orders a module reset, or a start in RECOVERY at the third in 3,600 s. (R81) -/
  | watchdogExpiry
  /-- LOCKSTEP_DISAGREE: Disagreement between the two Tarlum cores orders a lockstep reset. (R429) -/
  | lockstepDisagree
  /-- RECOVERY_COUNT_CLEAR: 3,600 s without a watchdog or lockstep reset clears the count held in the Dormouse domain. (R83) -/
  | recoveryCountClear
  /-- TRIAL_EXPIRY: BOOT_TRIAL.TIMEOUT without CONFIRM marks the slot REVERTED, selects the other slot and performs a trial-revert reset. (R88) -/
  | trialExpiry
  /-- RESET_MODULE: BOOT command 0x0001 completes OK and asserts a soft reset 10 µs later, optionally into RECOVERY. (R81) -/
  | resetModule (src : CmdSrc)
  /-- VERIFY_SLOT: BOOT command 0x0002 verifies a slot and leaves it VALID, PENDING or INVALID. (R87) -/
  | verifySlot (src : CmdSrc)
  /-- CONFIRM: BOOT command 0x0003 makes the TRIAL slot VALID and raises BOOT_MIN_SVN. (R88) -/
  | confirm (src : CmdSrc)
  /-- ENTER_TEST: BOOT command 0x0004 enters TEST from RECOVERY. (R90) -/
  | enterTest (src : CmdSrc)
  /-- SURGE: Conduction of the surge stage raises SURGE and increments LPT_SURGE_CNT. (R94) -/
  | surge (n : Port)
  /-- DRIVER_ENABLE_REQUEST: At t0 − 10 µs the driver enable is requested, and the Hedgehog grants it and blanking begins, or refuses it. (R96) -/
  | driverEnableRequest (id : BurstId)
  /-- DRIVER_DISABLE: At t1 + 2 µs the driver is disabled and the terminals go to high impedance. (R96) -/
  | driverDisable (id : BurstId) (z : List (Fin 4 × BitVec 16 × BitVec 16))
  /-- BLANKING_END: 20 µs after driver disable, the port's receive blanking ends. (R11) -/
  | blankingEnd (n : Port)
  /-- CURRENT_CLAMP: The driver reaching its current limit clamps the output and marks the burst LEVEL-CLAMPED. (R97) -/
  | currentClamp (n : Port)
  /-- DRIVER_HOT: Driver junction above 140 °C disables the port's driver, sets FAULT and completes the burst DRIVER_FAULT. (R98) -/
  | driverHot (n : Port)
  /-- DRIVER_COOLED: Driver junction below 120 °C clears FAULT, and the port accepts enables again. (R98) -/
  | driverCooled (n : Port)
  /-- AGC_CLIPPED_SAMPLE: A clipped sample requests a range reduction by 2 and erases its symbol. (R100) -/
  | agcClippedSample (n : Port)
  /-- AGC_BLOCK_MEASURED: A 20.48 µs block peak above −2 dBFS, or a slot below −14 dBFS, requests a range change. (R100) -/
  | agcBlockMeasured (n : Port) (low : Bool)
  /-- RANGE_CHANGE: At a change instant the PGA switches range and the next symbol carries GAIN_STEP. (R101) -/
  | rangeChange (n : Port)
  /-- RANGE_CHANGE_FORCED: With no common instant within 1,152 µs, the change is made at the next guard of the oldest burst and spanning symbols are erased. (R101) -/
  | rangeChangeForced (n : Port)
  /-- RECEIVE_STEP: Four blocks differing from the prior 16-block mean by THRESH declare a receive step, which flags symbols and passes an onset. (R105) -/
  | receiveStep (n : Port) (up : Bool) (sample : Fin 209715200)
  /-- DRIVE_STEP: A change of more than 6 dB in drive V/I within 100 µs declares a drive step. (R105) -/
  | driveStep (n : Port) (sample : Fin 209715200)
  /-- CAL_PORT: LPT command 0x0001 runs a loopback calibration in the next superframe and keeps or rejects the result. (R107) -/
  | calPort (n : Port) (src : CmdSrc)
  /-- MEASURE_Z: LPT command 0x0002 measures line impedance at four frequencies during the port's own bursts. (R108) -/
  | measureZ (n : Port) (src : CmdSrc)
  /-- MEASURE_Z_TIMEOUT: After 64 superframes with frequencies unmeasured, MEASURE_Z completes with TIMEOUT. (R108) -/
  | measureZTimeout (n : Port)
  /-- LPT_DECL_WRITE: A write to LPT_DECL becomes pending and takes effect at the next superframe boundary. (R63) -/
  | lptDeclWrite (n : Port) (value : Word)
  /-- SUPERFRAME_START: Slot 0 of a superframe begins: the SFN advances, pending changes apply, supervision is tested and the round's beacons start. (R183) -/
  | superframeStart (noise : List NoiseReading) (h : TruHold)
  /-- SLOT_START: The start of a slot on module time. (R183) -/
  | slotStart (n : Fin 1024)
  /-- PLAN_FIX: At slot 512 the plan of the next superframe is fixed: beacon content, grants, broadband placements, noise windows and TQ. (R184) -/
  | planFix (wishes : List GrantWish)
  /-- DWELL_BARRED: A channel's C or O reaching its limit bars it: the permit is withdrawn and the burst completes DWELL_STOP. (R205) -/
  | dwellBarred (n : Port) (w : Wave) (ch : Fin 61)
  /-- DWELL_CLEAR: A BARRED channel with C at 0 and O below the limit becomes clear. (R205) -/
  | dwellClear (n : Port) (w : Wave) (ch : Fin 61)
  /-- BCN_DWELL_SEL_WRITE: A write to BCN_DWELL_SEL latches the Hedgehog's accounting for the channel into BCN_DWELL_STATE. (R211) -/
  | bcnDwellSelWrite (value : Word)
  /-- NB_SYNC_DETECT: A preamble-to-sync transition above DET_THRESH opens a narrowband receive burst context and its queue. (R129) -/
  | nbSyncDetect (p : Port) (set : Fin 64) (level : BitVec 8) (m : Fin 3) (syncP : Bool) (prev : Bool) (start : Fin 209715200)
  /-- NB_HEADER_DECODED: The decoded narrowband header is checked; a lost header aborts the burst HEADER_LOST and a valid one is pushed as HEAD. (R131) -/
  | nbHeaderDecoded (id : BurstId) (h : BitVec 64)
  /-- NB_EARLY_DECODE: After the first payload copy, the engine decodes it alone and pushes early DATA words. (R297) -/
  | nbEarlyDecode (id : BurstId) (payload : List Byte)
  /-- ENCODE_FRAME: NBW command 0x0001 encodes a narrowband frame into commons symbol bytes. (R134) -/
  | encodeFrame (src : CmdSrc)
  /-- BB_DETECT: SYNCP correlation above DET_THRESH on a run of RUs opens a broadband receive context, or is ignored. (R159) -/
  | bbDetect (p : Port) (first last : Fin 27) (level : BitVec 8) (start : Fin 209715200)
  /-- BB_HEADER_DECODED: The decoded broadband header is checked: HEADER_LOST, TMAP_UNKNOWN or payload decoding follows. (R162) -/
  | bbHeaderDecoded (id : BurstId) (h : BitVec 96)
  /-- TMAP_RECEIVED: A tone map received from a link's receiver is checked against R151 and acknowledged, or discarded. (R153) -/
  | tmapReceived (id : BurstId)
  /-- TMAP_PERIOD_EXPIRY: Every BBW_TMAP.PERIOD superframes, or on a rate change above 10 %, the module sends a new uplink map. (R154) -/
  | tmapPeriodExpiry (a : CtxIndex) (snr : List Nat)
  /-- TMAP_PREVIOUS_EXPIRY: 2 superframes after the ACK of a new map, the previous TMID is no longer accepted. (R153) -/
  | tmapPreviousExpiry (a : CtxIndex)
  /-- DYN_NOTCH_DETECT: A DMASK carrier above the floor by DYN_THRESH in two superframes is notched on that port. (R141) -/
  | dynNotchDetect (p : Port) (k : Fin 1725) (before now : BitVec 8)
  /-- DYN_NOTCH_LIFT: After DYN_HOLD superframes without a detection, a dynamic notch is lifted. (R141) -/
  | dynNotchLift (p : Port) (k : Fin 1725)
  /-- ENCODE_BURST: BBW command 0x0001 encodes a broadband burst into commons carrier words. (R166) -/
  | encodeBurst (src : CmdSrc)
  /-- READ_DYN: BBW command 0x0002 writes a port's dynamic notches to the commons. (R166) -/
  | readDyn (src : CmdSrc)
  /-- IMPULSE_DETECTED: A run of impulse blocks ends and is measured, explained against entries, or seeds candidates. (R167) -/
  | impulseDetected (p : Port) (onset : Fin 209715200) (prev : Bool) (width : Fin 4096) (level : BitVec 8) (nb : BitVec 11) (ru : BitVec 27)
  /-- PREDICTION_DUE: The end of an entry's prediction interval records a hit, miss or unobserved outcome and updates the entry. (R170) -/
  | predictionDue (p : Port) (cand : Bool) (k : Fin 16) (observed : Bool)
  /-- SETTLE_END: SETTLE ends after NCAL_CFG.SETTLE superframes without a further onset. (R173) -/
  | settleEnd (p : Port)
  /-- NCAL_SEL_WRITE: A write to NCAL_SEL latches a copy of the selected entry and port status. (R181) -/
  | ncalSelWrite (value : Word)
  /-- CLEAR_PORT: NCAL command 0x0001 empties a port's calendar. (R182) -/
  | clearPort (src : CmdSrc)
  /-- SNAPSHOT: NCAL command 0x0002 writes a port's windows of the last fixed plan to the commons. (R182) -/
  | snapshot (src : CmdSrc)
  /-- UPLINK_FRAME: An uplink frame passes lookup, replay check, decryption, tunnelling and release after its burst completes. (R13) -/
  | uplinkFrame (id : BurstId)
  /-- ACK_RECEIVED: An ACK frame or element stops retransmission of the acknowledged FSEQ. (R222) -/
  | ackReceived (id : BurstId)
  /-- RETRANSMIT_TIMEOUT: A frame unacknowledged for 4 superframes is resent, or its descriptor completes NO_ACK after 3 resends. (R222) -/
  | retransmitTimeout (n : Nat)
  /-- DL_DESCRIPTOR_TAKEN: A DL descriptor is taken when the downlink store has room, its buffer is read, checked and encrypted. (R381) -/
  | dlDescriptorTaken (r : Fin 16) (d : DlDesc)
  /-- SF2_RECHECK: Within 1 ms before its cipher job, Tarlum re-reads and re-checks CRC2 of the SF2 plaintext. (R477) -/
  | sf2Recheck (n : Nat) (good : Bool)
  /-- DL_COMPLETION: A downlink frame completes exactly once with its status in the DL completion entry or DOWN_STATUS. (R382) -/
  | dlCompletion
  /-- JOIN_SOLICIT: A received JOIN_SOLICIT reserves a FREE slot as JOINING and answers JOIN_OFFER, or JOIN_DEFER when full. (R226) -/
  | joinSolicit (id : BurstId)
  /-- JOIN_REQ: A received JOIN_REQ is checked and accepted with key derivation and JOIN_ACCEPT, rejected, or forwarded to the parent. (R228) -/
  | joinReq (id : BurstId)
  /-- JOINING_EXPIRY: A JOINING slot with no verified JOIN_REQ by the end of its bound returns to FREE. (R226) -/
  | joiningExpiry (a : CtxIndex)
  /-- ACCEPTED_EXPIRY: A record still ACCEPTED 16 superframes after JOIN_ACCEPT returns to its parked state. (R230) -/
  | acceptedExpiry (a : CtxIndex)
  /-- SUPERVISION_TIMEOUT: SFN − LAST_RX_SFN reaching SUP ends the association with reason TIMEOUT. (R232) -/
  | supervisionTimeout (a : CtxIndex)
  /-- LEAVE: A LEAVE element received ends the association and writes the record to the parked store. (R234) -/
  | leave
  /-- LEAVING_EXPIRY: A LEAVING record unacknowledged for 4 superframes is written back and its slot freed. (R234) -/
  | leavingExpiry (a : CtxIndex)
  /-- RECORD_ECC_FAULT: An uncorrectable DRAM error in a record sets it FAULTED and ends its association with FAULT. (R217) -/
  | recordEccFault (a : CtxIndex)
  /-- REKEY_TRIGGER: A counter threshold, rekey period or REKEY_REQ starts a rekey with a REKEY element. (R235) -/
  | rekeyTrigger (a : CtxIndex)
  /-- REKEY_RETRY_EXPIRY: No answer within 8 superframes resends REKEY, or ends the association REKEY_FAIL after 4 sendings. (R236) -/
  | rekeyRetryExpiry (a : CtxIndex)
  /-- PREV_KEY_EXPIRY: PREV_VALID clears REKEY_HOLD superframes after a rekey completes. (R236) -/
  | prevKeyExpiry (a : CtxIndex)
  /-- PROVISION: ASC command 0x0001 creates a PROVISIONED parked record. (R242) -/
  | provision (src : CmdSrc)
  /-- READ_CTX: ASC command 0x0002 writes a record to the commons with keys read as zero. (R242) -/
  | readCtx (src : CmdSrc)
  /-- FIND: ASC command 0x0003 finds a record by EP_ID. (R242) -/
  | find (src : CmdSrc)
  /-- RELEASE: ASC command 0x0004 ends an association with reason HOST and frees the slot. (R242) -/
  | release (src : CmdSrc)
  /-- PARK: ASC command 0x0005 ends an association and keeps the record PARKED. (R242) -/
  | park (src : CmdSrc)
  /-- REKEY: ASC command 0x0006 starts a rekey of an ACTIVE record. (R242) -/
  | rekey (src : CmdSrc)
  /-- DELETE_PARKED: ASC command 0x0007 deletes a parked record. (R242) -/
  | deleteParked (src : CmdSrc)
  /-- SET_RECORD: ASC command 0x0008 sets FLAGS and SUP of a record. (R242) -/
  | setRecord (src : CmdSrc)
  /-- ROTATE_BKEY: ASC command 0x0009 draws a new beacon key and sets APPLY_SFN. (R237) -/
  | rotateBkey (src : CmdSrc)
  /-- FLOOD_COPY_RECEIVED: A decoded flood copy is delivered and its key kept, or discarded as a duplicate. (R248) -/
  | floodCopyReceived (id : BurstId)
  /-- FLOOD_KEY_EXPIRY: A flood key is dropped at the start slot of hop HMAX + 1. (R248) -/
  | floodKeyExpiry
  /-- RELAY_ELEMENT: A received RELAY element is handled by KIND, forwarded with HOPS incremented, or discarded at the hop limit. (R252) -/
  | relayElement
  /-- KEY_INSTALL: A received KEY_INSTALL installs the link key or rejection and writes tree route entries along the path. (R262) -/
  | keyInstall
  /-- JOIN_UP_HOLD_EXPIRY: An intermediate module's record of a forwarded join lapses after 8 + 4 × DEPTH superframes. (R262) -/
  | joinUpHoldExpiry
  /-- PARENT_JOINED: The parent association becomes ACTIVE; the subordinate aligns superframes and begins beaconing. (R259) -/
  | parentJoined
  /-- PARENT_LOST: The parent association ends; the domain continues and the subordinate solicits again. (R259) -/
  | parentLost
  /-- TREE_WAIT_EXPIRY: RPT_TREE.WAIT seconds in stage 0x0E without a parent makes the subordinate beacon on its own. (R259) -/
  | treeWaitExpiry
  /-- SET_ROUTE: RPT command 0x0001 sets a broadband route and sends ROUTE elements. (R267) -/
  | setRoute (src : CmdSrc)
  /-- CLEAR_ROUTE: RPT command 0x0002 clears a broadband route. (R267) -/
  | clearRoute (src : CmdSrc)
  /-- APPOINT: RPT command 0x0003 appoints repeater roles by a REPEAT element. (R267) -/
  | appoint (src : CmdSrc)
  /-- RPT_ROUTE_SEL_WRITE: A write to RPT_ROUTE_SEL latches the relay table entry. (R266) -/
  | rptRouteSelWrite (value : Word)
  /-- ENGINE_WAKE: An engine is woken before a slot whose plan needs it, on a detection, or for TX or ENCODE. (R272) -/
  | engineWake (c : Cluster) (k : Fin 16) (wave : Wave)
  /-- ENGINE_IDLE_GATE: An engine idle for IDLE_HOLD µs and holding no burst is gated. (R272) -/
  | engineIdleGate (c : Cluster) (k : Fin 16)
  /-- TX_ENGINE_TAKE: 40 µs before a burst's first sample the TX engine takes it into TX_SET, or a transmit allocation fails. (R275) -/
  | txEngineTake (p : Port) (w : Wave)
  /-- BURST_COMPLETION: A burst context's completion latches once with its status and record, and the trailer is pushed. (R277) -/
  | burstCompletion (id : BurstId) (r : RxResult)
  /-- CLUSTER_FAULT: A cluster fault completes its bursts ENGINE_FAULT and Tarlum reloads its store, or a second fault takes it out of service. (R282) -/
  | clusterFault (c : Cluster) (cause : ClusterCause) (sample : Fin 204800)
  /-- ABORT_BURST: ENG command 0x0001 aborts the named burst context. (R280) -/
  | abortBurst (c : Cluster) (src : CmdSrc)
  /-- RELOAD_CLUSTER: ENG command 0x0002 drains the cluster and reloads its instruction store. (R286) -/
  | reloadCluster (c : Cluster) (src : CmdSrc)
  /-- ENG_CTX_SEL_WRITE: A write to ENG_CTX_SEL latches the selected context into ENG_CTX_STATE. (R285) -/
  | engCtxSelWrite (value : Word)
  /-- QUEUE_NARROW_WRITE: An engine's 4-byte write enters the packing register and pushes the word when it closes, or overruns. (R291) -/
  | queueNarrowWrite (id : BurstId) (data : List Byte) (last : Bool)
  /-- POP: A queue POP returns word RP and its tag and advances RP, or returns EMPTY or FAULT. (R294) -/
  | pop (id : BurstId) (gen : BitVec 8) (err : PopErr)
  /-- MARK: A queue MARK sets MK to RP. (R294) -/
  | mark (id : BurstId) (gen : BitVec 8)
  /-- REWIND: A queue REWIND sets RP to MK, or fails with NO_MARK or MARK-LOST. (R294) -/
  | rewind (id : BurstId) (gen : BitVec 8)
  /-- QUEUE_RELEASE: A queue RELEASE n frees words below n and closes the queue once the trailer is released. (R294) -/
  | queueRelease (id : BurstId) (gen : BitVec 8) (n : Nat)
  /-- FORCE_RELEASE: BQ command 0x0001 closes a held queue and frees its context. (R301) -/
  | forceRelease (src : CmdSrc)
  /-- READ_WORDS: BQ command 0x0002 copies a queue's unreleased words to the commons. (R301) -/
  | readWords (src : CmdSrc)
  /-- BQ_SEL_WRITE: A write to BQ_SEL latches a copy of the selected queue. (R300) -/
  | bqSelWrite (value : Word)
  /-- WINDOW_ACCESS: A host access through the commons window is performed if contiguous and within 256 bytes, else refused. (R305) -/
  | windowAccess (off : BitVec 24) (acc : WinAccess) (err : ReadErr) (c : Option Collision) (wait : Nat)
  /-- WINDOW_GRANT_TIMEOUT: A window access not granted within 10 µs is not performed and raises ACCESS. (R307) -/
  | windowGrantTimeout (acc : WinAccess)
  /-- BADGER_STRIPE: Every INTERVAL µs the Badger borrows a stripe and tests and restores each word. (R312) -/
  | badgerStripe (finds : List BadgerFind) (busy : Nat)
  /-- BADGER_YIELD: A foreground access to a borrowed stripe makes the Badger finish its word and release, or skip after 16 yields. (R313) -/
  | badgerYield (upto : Fin 64) (finds : List BadgerFind)
  /-- SOFT_REPAIR_WALK_END: The end of a soft-repair walk makes reads take the column from the spare and raises REPAIRED. (R315) -/
  | softRepairWalkEnd (b : Bank)
  /-- FUSE_BURN_DONE: The burn ends; MEM_FUSE_STAT is set, ARM clears and FUSE_DONE is raised. (R316) -/
  | fuseBurnDone
  /-- MEMB_POWER_WRITE: A write to MEMB_POWER changes the bank's power state after granted accesses, or is refused. (R310) -/
  | membPowerWrite (b : Bank) (value : Word)
  /-- BANK_RETENTION_RETURN: A bank in RETENTION mode idle for 10 µs returns to RETENTION. (R310) -/
  | bankRetentionReturn (b : Bank)
  /-- BANK_ZEROED: A bank leaving OFF finishes being written with zero and valid check bits and serves accesses. (R310) -/
  | bankZeroed (b : Bank)
  /-- MEM_CNT_SEL_WRITE: A write to MEM_CNT_SEL latches the selected master's conflict counters. (R318) -/
  | memCntSelWrite (value : Word)
  /-- CLEAR_CONFLICTS: MEM command 0x0001 sets every conflict counter to 0. (R308) -/
  | clearConflicts (src : CmdSrc)
  /-- TEST_BANK: MEM command 0x0002 runs a destructive March C− on a bank in TEST. (R317) -/
  | testBank (src : CmdSrc)
  /-- SOFT_REPAIR: MEM b command 0x0001 soft-repairs a column onto a spare. (R315) -/
  | softRepair (b : Bank) (src : CmdSrc)
  /-- CIPHER_JOB_TAKEN: The engine takes a job from a job ring into a free hold slot, reading key and issuing a counter. (R321) -/
  | cipherJobTaken (ring : Fin 18)
  /-- CIPHER_JOB_COMPLETE: A job completes once: output released from the hold slot on tag success and the completion record written. (R336) -/
  | cipherJobComplete (pipe : Fin 2) (slot : Fin 8) (ecc : Bool)
  /-- CIPHER_JOB_ABANDON: A frame core abandons a job, which completes ABANDONED or ABORT-LATE. (R336) -/
  | cipherJobAbandon (ring : Fin 18) (seq : Word)
  /-- RESERVE_WAIT_TIMEOUT: An ENCRYPT waiting 2 ms for a mirrored reservation completes NO_RESERVE. (R333) -/
  | reserveWaitTimeout (pipe : Fin 2) (slot : Fin 8)
  /-- CIPHER_PARITY_ERROR: A parity error fails the job FAULT, and a third in 1 s takes the pipeline out of service. (R338) -/
  | cipherParityError (pipe : Fin 2) (slot : Fin 8)
  /-- DRBG_HEALTH_FAIL: The noise source failing its health test sets FAULT and fails KEYGEN and DERIVE until reseed. (R328) -/
  | drbgHealthFail
  /-- TEST_JOB: CIP command 0x0001 runs a test job under the test key. (R343) -/
  | testJob (src : CmdSrc)
  /-- SELF_TEST: CIP command 0x0002 runs known-answer tests on both pipelines. (R343) -/
  | selfTest (src : CmdSrc)
  /-- ZERO_TEST_KEY: CIP command 0x0003 zeroes the test key. (R343) -/
  | zeroTestKey (src : CmdSrc)
  /-- CIP_TEST_CTL_WRITE: A write changing KEY256 zeroes the test key and clears LOADED. (R343) -/
  | cipTestCtlWrite (value : Word)
  /-- CIP_TEST_KEY_WRITE: A write to a test key word stores it and sets LOADED at the last word. (R343) -/
  | cipTestKeyWrite (k : Fin 8) (value : Word)
  /-- REF_QUALIFIED: A reference present and within FREQ_TOL for QUAL_TIME qualifies and enters WTR or AVAILABLE. (R350) -/
  | refQualified (r : Ref) (freq phase : Word) (h : TruHold)
  /-- REF_DISQUALIFIED: A reference out of tolerance for QUAL_TIME, with a phase jump, or losing signal is disqualified. (R349) -/
  | refDisqualified (r : Ref) (freq phase : Word) (h : TruHold)
  /-- REF_LOSS_OF_SIGNAL: A reference's input disappears per its loss criterion. (R348) -/
  | refLossOfSignal (r : Ref) (h : TruHold)
  /-- WTR_EXPIRY: The wait-to-restore ends and the reference becomes AVAILABLE. (R350) -/
  | wtrExpiry (r : Ref) (h : TruHold)
  /-- SWITCH_COMPLETE: 1 s after a switch decision, ABSORBED is set or E aligned and the TRU enters ACQUIRING. (R358) -/
  | switchComplete (phase : Word) (h : TruHold)
  /-- TRU_LOCKED: Lock criteria held for the required time move the TRU to LOCKED. (R353) -/
  | truLocked (phase : Word)
  /-- TRU_LOST: TE_EST above TE_BUDGET in HOLDOVER or FREE-RUN with ALIGNED moves the TRU to LOST. (R354) -/
  | truLost (theta : Word)
  /-- SLEW_DONE: ABSORBED reaching 0 under a slew sets ALIGNED and raises ALIGN_DONE. (R360) -/
  | slewDone
  /-- TRU_MODE_WRITE: A write of TRU_CFG.MODE or MANUAL_REF reruns selection or forces HOLDOVER or FREE-RUN. (R354) -/
  | truModeWrite (value : Word) (h : TruHold)
  /-- REF_CFG_WRITE: A write of REF_CFG.EN disables or starts a reference. (R350) -/
  | refCfgWrite (r : Ref) (value : Word) (h : TruHold)
  /-- REALIGN: TRU command 0x0001 removes ABSORBED by step or slew. (R360) -/
  | realign (src : CmdSrc)
  /-- SET_TIME: TRU command 0x0002 sets TRU time and applies E at the next slot 512. (R365) -/
  | setTime (src : CmdSrc) (at_ : Fin 204800)
  /-- CAPTURE: TRU command 0x0003 latches TRU time and MT into the capture registers. (R365) -/
  | capture (src : CmdSrc) (at_ : Fin 204800)
  /-- END_WTR: TRU command 0x0004 ends a reference's WTR at once. (R365) -/
  | endWtr (src : CmdSrc) (h : TruHold)
  /-- LANE_UP: 10 ms of block lock without hi_ber brings a lane up. (R367) -/
  | laneUp (l : LaneId)
  /-- LANE_DOWN: Loss of block lock or hi_ber takes a lane down and diverts its frames to store-and-forward. (R367) -/
  | laneDown (l : LaneId) (hiBer : Bool) (busy : Bool)
  /-- TUNNEL_FRAME_RECEIVED: A received lane frame is accepted as a tunnel frame, passed to PTP, or dropped. (R368) -/
  | tunnelFrameReceived (l : Lane) (f : LaneRx)
  /-- PTP_MESSAGE: A PTP message on the PTP lane updates offsetFromMaster and delay measurement. (R375) -/
  | ptpMessage (l : Lane) (data : List Byte) (stamp sent : BitVec 64)
  /-- PAUSE_RECEIVED: A PAUSE frame pauses lane transmission when PAUSE_EN=1, except LAST_GASP. (R366) -/
  | pauseReceived (l : Lane) (quanta : BitVec 16)
  /-- SQ_PROD_DOORBELL: A write of SQ_PROD posts descriptors, or sets the ring ERROR if too many. (R380) -/
  | sqProdDoorbell (r : Fin 32) (value : Word) (bad : List BadEntry)
  /-- CQ_CONS_DOORBELL: A write of CQ_CONS frees completion entries for the module. (R380) -/
  | cqConsDoorbell (r : Fin 32) (value : Word)
  /-- RING_DMA_ERROR: A failed DMA of a ring sets it ERROR and raises RING_ERROR. (R385) -/
  | ringDmaError (r : Fin 29)
  /-- UL_DELIVERY: A verified DATA element is written to a UL ring buffer with a completion, or held when no buffer is posted. (R383) -/
  | ulDelivery (r : Fin 8) (cookie : BitVec 64)
  /-- EVENT_RECORD_DELIVERY: An event is written to the EVENT ring, or lost and counted when it is full. (R383) -/
  | eventRecordDelivery
  /-- RING_COALESCE_EXPIRY: COAL_US after the first pending completion, the ring's MSI-X message is sent. (R378) -/
  | ringCoalesceExpiry (r : Fin 29)
  /-- MSIX_UNMASK: Unmasking a vector with its PBA bit set sends its message. (R378) -/
  | msixUnmask (v : Fin 64)
  /-- RING_RESET: PCI command 0x0001 disables a ring, flushes its frames and zeroes its indices. (R389) -/
  | ringReset (src : CmdSrc)
  /-- SNF_WRITE: A frame with no path is written as an SNF record, or a record is lost when SNF is full. (R395) -/
  | snfWrite
  /-- SNF_REPLAY: When the path returns, SNF records leave in arrival order and STORE_EMPTY follows the last. (R371) -/
  | snfReplay (cookie : BitVec 64)
  /-- READ_BLOCKS: STO command 0x0001 reads blocks into the host area. (R398) -/
  | readBlocks (src : CmdSrc)
  /-- WRITE_BLOCKS: STO command 0x0002 writes and programs blocks. (R398) -/
  | writeBlocks (src : CmdSrc)
  /-- TRIM: STO command 0x0003 trims a range of HOST blocks. (R398) -/
  | trim (src : CmdSrc)
  /-- STORE_WORN: Spares falling below the reserve set READ_ONLY, or WEAR reaching 90 % raises WEAR_WARN. (R393) -/
  | storeWorn (readOnly : Bool) (wear spare : BitVec 16) (n : Nat)
  /-- HEARTBEAT_SEND: Every 1 ms a HEARTBEAT is sent on each mirror lane that is up. (R404) -/
  | heartbeatSend
  /-- MIRROR_FRAME_RECEIVED: A mirror frame is verified and applied in SEQ order, or discarded. (R403) -/
  | mirrorFrameReceived (l : MLane) (fcsOk tagOk : Bool) (m : MirrorMsg) (stamp : BitVec 64)
  /-- MIRROR_SEQ_GAP_EXPIRY: A SEQ gap unfilled for 100 µs sets SYNC to SYNCING and starts a full resynchronisation. (R403) -/
  | mirrorSeqGapExpiry
  /-- HEARTBEAT_LOSS: No valid heartbeat for 5 ms marks the peer lost. (R408) -/
  | heartbeatLoss
  /-- TAKEOVER: At the close of a check window meeting the conditions, the STANDBY becomes ACTIVE, steps counters and rotates the beacon key. (R409) -/
  | takeover (h : TruHold)
  /-- HANDOVER: PAIR command 0x0001 drains the downlink store and swaps roles at a superframe. (R411) -/
  | handover (src : CmdSrc)
  /-- HANDOVER_DRAIN_TIMEOUT: A store not drained within 64 superframes completes HANDOVER with TIMEOUT. (R411) -/
  | handoverDrainTimeout
  /-- RESYNC: PAIR command 0x0002 begins a full resynchronisation. (R414) -/
  | resync (src : CmdSrc)
  /-- SENSOR_OUTPUT_BOUNDARY: At an output boundary a channel discards, averages or switches phase, and may complete a result. (R420) -/
  | sensorOutputBoundary (n : Chan) (o : SensorOut)
  /-- SENSOR_STALE: A held result older than two result periods, or no SI result for 8 ms, sets STALE. (R421) -/
  | sensorStale (n : Chan)
  /-- SEN_TEMP_READ: A read of TEMP latches RATIO, STAT and LEAD of the same result. (R427) -/
  | senTempRead (n : Chan)
  /-- SELF_CAL: SEN command 0x0001 re-measures an SX channel's offset and gain. (R428) -/
  | selfCal (src : CmdSrc)
  /-- LOG_FLUSH: Within 1 s, Tarlum writes buffered event records to the LOG region. (R434) -/
  | logFlush
  /-- LOAD_SLOT: MGT command 0x0001 copies an image into a slot and verifies it. (R436) -/
  | loadSlot (src : CmdSrc)
  /-- EPFW_IMPORT: MGT command 0x0002 copies an endpoint image into an EPFW slot and checks it. (R437) -/
  | epfwImport (src : CmdSrc)
  /-- EPFW_DELETE: MGT command 0x0003 empties an EPFW slot. (R451) -/
  | epfwDelete (src : CmdSrc)
  /-- CAMPAIGN_START: MGT command 0x0004 starts a broadcast firmware campaign. (R440) -/
  | campaignStart (src : CmdSrc)
  /-- CAMPAIGN_STOP: MGT command 0x0005 stops the running campaign. (R451) -/
  | campaignStop (src : CmdSrc)
  /-- CAMPAIGN_BLOCK_DUE: The next campaign block's hop 0 is placed on every port of the set, pausing or ending the pass as needed. (R440) -/
  | campaignBlockDue
  /-- LOG_MARK: MGT command 0x0006 writes a HOST_MARK record. (R451) -/
  | logMark (src : CmdSrc)
  /-- CHALLENGE: TKT command 0x0001 draws and holds a 64-bit challenge for 900 s. (R445) -/
  | challenge (src : CmdSrc)
  /-- CHALLENGE_EXPIRY: A held challenge expires unused after 900 s and raises CHAL_EXPIRED. (R445) -/
  | challengeExpiry
  /-- APPLY: TKT command 0x0002 checks a ticket and applies its items whole, or refuses it. (R446) -/
  | apply (src : CmdSrc)
  /-- CARD_SIGN: TKT command 0x0003 has a card sign a ticket and appends the signature block. (R449) -/
  | cardSign (src : CmdSrc)
  /-- READ_AUTH: TKT command 0x0004 writes the authority list to the commons. (R452) -/
  | readAuth (src : CmdSrc)
  /-- READ_DEV_PUB: TKT command 0x0005 writes the device public key to the commons. (R452) -/
  | readDevPub (src : CmdSrc)
  /-- SER_CHARACTER_RECEIVED: A completed character enters the receive holding register with its tags, or is lost with OVR. (R454) -/
  | serCharacterReceived (n : Serial) (c : SerChar)
  /-- SER_RX_READ: A read of SER_RX returns the held character and empties the register. (R454) -/
  | serRxRead (n : Serial) (tarlum : Bool)
  /-- SER_TX_WRITE: A write to SER_TX fills the holding register, or is dropped when it is full. (R455) -/
  | serTxWrite (n : Serial) (value : Word) (tarlum : Bool)
  /-- SER_TX_SHIFT_LOAD: The idle shifter takes the held character and TX_EMPTY is raised. (R455) -/
  | serTxShiftLoad (n : Serial) (refused : Bool)
  /-- SER_DIV_WRITE: A write to SER_DIV or SER_CFG takes effect at the next start bit. (R456) -/
  | serDivWrite (n : Serial) (cfg : Bool) (value : Word)
  /-- BREAK_START: A line low through the last stop sample declares a break and raises BREAK_START. (R458) -/
  | breakStart (n : Serial)
  /-- BREAK_END: The line returning high stores a break character and writes SER_BRK_LEN. (R458) -/
  | breakEnd (n : Serial) (ms : BitVec 16)
  /-- LINE_STUCK: The break counter saturating at 65,535 ms disables the receiver and reports LINE_STUCK. (R459) -/
  | lineStuck (n : Serial)
  /-- LINE_FREE: The line high for 2 character times re-enables the receiver and raises LINE_FREE. (R459) -/
  | lineFree (n : Serial)
  /-- SEND_BREAK: SER command 0x0001 holds the line low for ARG0 ms. (R469) -/
  | sendBreak (n : Serial) (src : CmdSrc)
  /-- SLEEP_ADDRESS_MATCH: In DORMOUSE a 0x7E followed by SER_SLEEP.ADDR is an address match that may wake the module. (R463) -/
  | sleepAddressMatch (n : Serial)
  /-- CARD_PRESENCE_CHANGE: A change of a card presence switch raises CARD_CHANGE and a removal during a transaction ends it. (R465) -/
  | cardPresenceChange (n : Serial) (present : Bool)
  /-- CARD_ATR: The card's ATR is received and checked, or its absence ends the transaction. (R465) -/
  | cardAtr (n : Serial) (ts : Option Byte)
  /-- CARD_WWT_EXPIRY: WWT expiry between card characters ends the transaction with CARD_ERR. (R465) -/
  | cardWwtExpiry (n : Serial)
  /-- CARD_STATUS_WORD: The card's reply and status word to READ_PUB, SIGN or GET RESPONSE drives the next card command or ends the transaction. (R466) -/
  | cardStatusWord (n : Serial) (data : List Byte) (sw : BitVec 16)
  /-- BAND_EDGE_KILL: Out-of-band energy above the margin for 8 blocks makes a kill decision with cause BAND_EDGE. (R473) -/
  | bandEdgeKill (n : Port)
  /-- LEVEL_KILL: Output above L_eff + LEVEL_MARGIN for 5 blocks makes a kill decision with cause LEVEL. (R473) -/
  | levelKill (n : Port)
  /-- STUCK_KILL: Energy outside the enabled interval for 2 blocks makes a kill decision with cause STUCK. (R473) -/
  | stuckKill (n : Port)
  /-- TAP_KILL: A monitor converter stuck or implausible for 1 ms makes a kill decision with cause TAP. (R473) -/
  | tapKill (n : Port)
  /-- SELF_KILL: Hedgehog channels disagreeing for 100 µs make a kill decision with cause SELF. (R472) -/
  | selfKill
  /-- HOT_SPOT_TRIP: An SI temperature at TRIP or an SI fault trips the 12 ports of that bank. (R473) -/
  | hotSpotTrip (k : Fin 4) (fault : Bool)
  /-- SI_WARN: An SI temperature at WARN raises SI_WARN. (R473) -/
  | siWarn (k : Fin 4)
  /-- TRIP_LIFT: 10 s at 10 °C below TRIP, or 1 s clear of the fault, lifts the bank trip. (R473) -/
  | tripLift (k : Fin 4) (fault : Bool)
  /-- CLEAR_KILL: SAF command 0x0001 clears the latched kill causes, or is refused while a condition holds. (R482) -/
  | clearKill (src : CmdSrc) (holds : BitVec 5)
  /-- KILL_TEST: SAF command 0x0002 tests every driver's supply switch in TEST. (R482) -/
  | killTest (src : CmdSrc)
  /-- OVEN_READY: The OCXO oven reaches temperature, ending the frequency offset and setting TRU STATUS.OVEN_READY. (R77) -/
  | ovenReady
  /-- TE_BUDGET_EXCEEDED: In ACQUIRING or LOCKED, TE_EST rising above TE_BUDGET sets STATUS.TE_OVER and raises INT_STAT.TE_OVER without any change of state. (R355) -/
  | teBudgetExceeded (h : TruHold)
  /-- OSCILLATOR_MODEL_SAVE: Each hour Tarlum writes the last steering value and the oscillator model to the bulk store. (R345) -/
  | oscillatorModelSave (steer : Word)
  /-- TRU_STATE_SEND: Every 1 s the ACTIVE sends a TRU_STATE mirror message carrying E, the TRU state, TE_EST and ALIGNED. (R404) -/
  | truStateSend
  /-- SIGN_TIMEOUT: A card SIGN running longer than 120 s from its command header ends the transaction with CARD_ERR. (R465) -/
  | signTimeout (n : Serial)
  /-- PCIE_LINK_CHANGE: The PCIe data link layer comes up or goes down, changing STATUS.LINK_UP and raising INT_STAT.LINK_CHANGE. (R377) -/
  | pcieLinkChange (up : Bool) (width speed : BitVec 4) (master : Bool)
  /-- TIN_PPS_EDGE: A rising TIN_PPS edge is time-stamped, and for a SET_TIME with AT_PPS it fixes the E to be applied at the next slot 512. (R365) -/
  | tinPpsEdge (at_ : Fin 204800)
  /-- SET_TIME_PPS_TIMEOUT: A SET_TIME with AT_PPS that sees no TIN_PPS edge within 2 s completes with TIMEOUT. (R365) -/
  | setTimePpsTimeout
  /-- RESERVE_CHARGE_FAIL: The bulk store's power-loss reserve fails its charge test, clearing STATUS.RESERVE_OK and raising INT_STAT.RESERVE_FAIL. (R394) -/
  | reserveChargeFail
  /-- GRANT_REQ: An ASSOC frame with code GRANT_REQ from an ACTIVE endpoint is received in contention. (R224) -/
  | grantReq (id : BurstId)
  /-- PARENT_JOIN_ANSWER: A subordinate receives its parent's JOIN_OFFER, JOIN_DEFER, JOIN_REJECT or JOIN_ACCEPT and proceeds with its join or starts a hold-off. (R225) -/
  | parentJoinAnswer (id : BurstId)
  /-- SOLICIT_WAIT_EXPIRY: A subordinate's listen, back-off or hold-off wait ends, and it sends its next JOIN_SOLICIT to its parent. (R225) -/
  | solicitWaitExpiry
deriving DecidableEq, Repr

end Sys2Proof
end

