-- ==== Sys2Proof/Machine/Map.lean ====
section
/-!
DEFINITION. Sys2Proof/Machine/Map.lean: sparse tables in one canonical form.
A table is a list of (key, value) pairs with strictly rising keys in which no value equals the value an unlisted key has;
equal tables are therefore equal lists.
-/
namespace Sys2Proof.Machine.Map

variable {α : Type} [DecidableEq α]

/-- The value at key `k`; an unlisted key has value `d k`. -/
def get (d : Nat → α) : List (Nat × α) → Nat → α
  | [], k => d k
  | (j, v) :: m, k => if j = k then v else get d m k

/-- The table without key `k`. -/
def erase (m : List (Nat × α)) (k : Nat) : List (Nat × α) :=
  m.filter (fun e => decide (e.1 ≠ k))

/-- The table with the pair `(k, v)` placed before the first larger key. -/
def ins (k : Nat) (v : α) : List (Nat × α) → List (Nat × α)
  | [] => [(k, v)]
  | e :: m => if k < e.1 then (k, v) :: e :: m else e :: ins k v m

/-- The table with key `k` at value `v`; a value equal to the unlisted one removes the key. -/
def set (d : Nat → α) (m : List (Nat × α)) (k : Nat) (v : α) : List (Nat × α) :=
  if v = d k then erase m k else ins k v (erase m k)

/-- The table with every listed value changed; a value that becomes the unlisted one is removed. -/
def mapVals (d : Nat → α) (f : α → α) (m : List (Nat × α)) : List (Nat × α) :=
  (m.map (fun e => (e.1, f e.2))).filter (fun e => decide (e.2 ≠ d e.1))

/-- Keys strictly rising from `lo` on, and no value equal to the unlisted one. -/
def wfFrom (d : Nat → α) : Nat → List (Nat × α) → Bool
  | _, [] => true
  | lo, (k, v) :: m => decide (lo ≤ k) && decide (v ≠ d k) && wfFrom d (k + 1) m

/-- The canonical form. -/
def wf (d : Nat → α) (m : List (Nat × α)) : Bool := wfFrom d 0 m

/-- The keys listed. -/
def keys (m : List (Nat × α)) : List Nat := m.map (·.1)

end Sys2Proof.Machine.Map
end

