-- ==== Sys2Proof/Config.lean ====
section
/-!
DEFINITION. Sys2Proof/Config.lean: what an individual module fixes, and the values the spec leaves open.
Each constant is opaque: no proof can see what it is, so a statement holds whatever it is.
-/
namespace Sys2Proof.Config

/-- MODULE_ID, written at manufacture and unique to each module (R37). -/
opaque moduleId : BitVec 64

/-- The join key JK of this module as an endpoint of its parent (R257): no rule says how the module holds it. -/
opaque parentJoinKey : BitVec 128

/-- The factory address of backhaul lane `l` (LAN_MAC of spec/18_backhaul_and_host.md). -/
opaque laneMac : Nat → BitVec 48

/-- The value that the random source gives at its `n`th draw (R328): nothing in the spec fixes it. -/
opaque random : Nat → BitVec 256

/-- The value the spec leaves open on the `n`th occasion, as a byte at position `i`: no rule fixes it. -/
opaque freeByte : Nat → Nat → BitVec 8

/-- The value the spec leaves open on the `n`th occasion, as a word. -/
opaque freeWord : Nat → BitVec 32

/-- The parity bits of an LDPC codeword of the 1,944-bit codes of IEEE Std 802.11, by RATE code and information bits (R147): the spec
refers to that standard and does not give its matrices. -/
opaque ldpcParity : Nat → List Bool → List Bool

/-- The word of a carrier value (R166): levels on the two axes, the number of bits per axis and the squared index of its rotation by
exp(jπ m² / 1,725). The spec gives the value as a real number and does not state its rounding. -/
opaque carrierWord : Int → Int → Nat → Nat → BitVec 32

/-- R_REF of sensor channel SX`n` in mΩ as factory calibration stores it: 4 kΩ within 0.01 % (R417, R424). -/
opaque senRref : Nat → Nat

/-- The factory polynomial of bridge SI`k`: the temperature in 0.001 °C that a bridge ratio in units of 2^−31 converts to (R423, R424). -/
opaque bridgeTemp : Nat → Int → Int

/-- The SHA-256 hash of root key `i` that the fuses hold (R431). -/
opaque rootHash : Nat → List (BitVec 8)

/-- The public key of root 0, as the key store holds it when the module leaves the factory (R430, R431). -/
opaque factoryRoot : List (BitVec 8)

end Sys2Proof.Config
end

