-- ==== Sys2Proof/Machine/RegMap.lean ====
section
/-!
DEFINITION. Sys2Proof/Machine/RegMap.lean: the register map of BAR0: pages, their bases and vectors (R25, R35), the common
header (R28, R29), and every field the owning chapters define, with its access code (R9), reset value and legal range (R8).
-/
namespace Sys2Proof.Machine

/-- The access codes of R9. -/
inductive Access where
  | rw | ro | w1c | wo | rc | rwp
deriving DecidableEq, Repr

/-- The encodings of a field that are not reserved (R8). -/
inductive Legal where
  | any
  | range (lo hi : Nat)
  | signed (lo hi : Int)
deriving DecidableEq, Repr

/-- One field of a register, or of each register of an array of `count` registers `stride` bytes apart. -/
structure Field where
  kind : PageKind
  off : Nat
  hi : Nat
  lo : Nat
  acc : Access
  rst : Nat
  legal : Legal
  count : Nat
  stride : Nat
deriving DecidableEq, Repr

/-- The width of a field in bits. -/
def Field.width (f : Field) : Nat := f.hi + 1 - f.lo

/-- The register offset of element `i` of a field's array. -/
def Field.offAt (f : Field) (i : Nat) : Nat := f.off + i * f.stride

/-- Whether the register at page offset `o` is one of the field's registers. -/
def Field.atOff (f : Field) (o : Nat) : Bool :=
  decide (f.off ≤ o) && decide ((o - f.off) % f.stride = 0) && decide ((o - f.off) / f.stride < f.count)

/-- The value of bits `hi` to `lo` of a word. -/
def getBits (w : Word) (hi lo : Nat) : Nat := (w.toNat >>> lo) % 2 ^ (hi + 1 - lo)

/-- The word with bits `hi` to `lo` replaced by `v`, taken modulo the field's size. -/
def setBits (w : Word) (hi lo v : Nat) : Word :=
  BitVec.ofNat 32 (w.toNat - getBits w hi lo * 2 ^ lo + v % 2 ^ (hi + 1 - lo) * 2 ^ lo)

/-- A number of `n` bits read as two's complement. -/
def signedOf (n v : Nat) : Int := if v < 2 ^ (n - 1) then (v : Int) else (v : Int) - 2 ^ n

/-- The two's complement of an integer in `n` bits. -/
def ofSigned (n : Nat) (v : Int) : Nat := (v % (2 ^ n : Int)).toNat

/-- Whether a value is a legal encoding of a field of `n` bits (R8). -/
def Legal.ok (l : Legal) (n v : Nat) : Bool :=
  match l with
  | .any => true
  | .range lo hi => decide (lo ≤ v) && decide (v ≤ hi)
  | .signed lo hi => decide (lo ≤ signedOf n v) && decide (signedOf n v ≤ hi)

/-! Pages (R25, R35). -/

/-- The kind of a page. -/
def pageKind : Page → PageKind
  | .mod => .mod | .pwr => .pwr | .boot => .boot | .saf => .saf | .tkt => .tkt | .mgt => .mgt | .sen => .sen
  | .ser _ => .ser | .tru => .tru | .pair => .pair | .sto => .sto | .pci => .pci | .lan _ => .lan | .lanm _ => .lanm
  | .bcn => .bcn | .asc => .asc | .rpt => .rpt | .ncal => .ncal | .cip => .cip | .bq => .bq | .nbw => .nbw
  | .bbw => .bbw | .mem => .mem | .lpt _ => .lpt | .eng _ => .eng | .memb _ => .memb

/-- The instance of a page among those of its kind. -/
def pageIndex : Page → Nat
  | .ser s => s.val | .lan l => l.val | .lanm m => m.val | .lpt n => n.val | .eng c => c.val | .memb b => b.val
  | _ => 0

/-- The base address of a page in BAR0 (R25). -/
def pageBase : Page → Nat
  | .mod => 0x0000000 | .pwr => 0x0001000 | .boot => 0x0002000 | .saf => 0x0003000 | .tkt => 0x0004000
  | .mgt => 0x0005000 | .sen => 0x0006000
  | .ser s => 0x0008000 + s.val * 0x1000
  | .tru => 0x0010000 | .pair => 0x0011000 | .sto => 0x0012000 | .pci => 0x0013000
  | .lan l => 0x0014000 + l.val * 0x1000
  | .lanm m => 0x0018000 + m.val * 0x1000
  | .bcn => 0x0020000 | .asc => 0x0021000 | .rpt => 0x0022000 | .ncal => 0x0023000 | .cip => 0x0024000
  | .bq => 0x0025000 | .nbw => 0x0026000 | .bbw => 0x0027000 | .mem => 0x0028000
  | .lpt n => 0x0100000 + n.val * 0x1000
  | .eng c => 0x0200000 + c.val * 0x1000
  | .memb b => 0x0300000 + b.val * 0x1000

/-- The page whose base has page number `q` (address divided by 4 KiB); none for a reserved page (R25). -/
def pageOfNumber (q : Nat) : Option Page :=
  if q < 7 then
    match q with
    | 0 => some .mod | 1 => some .pwr | 2 => some .boot | 3 => some .saf | 4 => some .tkt | 5 => some .mgt
    | _ => some .sen
  else if h : 8 ≤ q ∧ q < 12 then some (.ser ⟨q - 8, by omega⟩)
  else if q = 0x10 then some .tru else if q = 0x11 then some .pair else if q = 0x12 then some .sto
  else if q = 0x13 then some .pci
  else if h : 0x14 ≤ q ∧ q < 0x18 then some (.lan ⟨q - 0x14, by omega⟩)
  else if h : 0x18 ≤ q ∧ q < 0x1A then some (.lanm ⟨q - 0x18, by omega⟩)
  else if q = 0x20 then some .bcn else if q = 0x21 then some .asc else if q = 0x22 then some .rpt
  else if q = 0x23 then some .ncal else if q = 0x24 then some .cip else if q = 0x25 then some .bq
  else if q = 0x26 then some .nbw else if q = 0x27 then some .bbw else if q = 0x28 then some .mem
  else if h : 0x100 ≤ q ∧ q < 0x134 then some (.lpt ⟨q - 0x100, by omega⟩)
  else if h : 0x200 ≤ q ∧ q < 0x220 then some (.eng ⟨q - 0x200, by omega⟩)
  else if h : 0x300 ≤ q ∧ q < 0x380 then some (.memb ⟨q - 0x300, by omega⟩)
  else none

/-- The page that contains a BAR0 address, where there is one (R25). -/
def pageOfAddr (a : Nat) : Option Page := pageOfNumber (a / 0x1000)

/-- PAGE_ID.TYPE of a page (R25). -/
def pageType : PageKind → Nat
  | .mod => 0x0001 | .pwr => 0x0002 | .boot => 0x0003 | .saf => 0x0004 | .tkt => 0x0005 | .mgt => 0x0006
  | .sen => 0x0007 | .ser => 0x0008 | .tru => 0x0010 | .pair => 0x0011 | .sto => 0x0012 | .pci => 0x0013
  | .lan => 0x0014 | .lanm => 0x0015 | .bcn => 0x0020 | .asc => 0x0021 | .rpt => 0x0022 | .ncal => 0x0023
  | .cip => 0x0024 | .bq => 0x0025 | .nbw => 0x0026 | .bbw => 0x0027 | .mem => 0x0028 | .lpt => 0x0030
  | .eng => 0x0031 | .memb => 0x0028

/-- PAGE_ID.INSTANCE of a page; the MEM (global) page has 0xFFFF (R25). -/
def pageInstance : Page → Nat
  | .mem => 0xFFFF
  | p => pageIndex p

/-- The MSI-X vector of a page (R35). -/
def pageVector : Page → Nat
  | .mod => 0 | .pwr => 0 | .boot => 0 | .mgt => 0
  | .saf => 1 | .tkt => 2 | .sen => 3 | .ser _ => 3 | .tru => 4 | .pair => 5 | .lanm _ => 5 | .sto => 6 | .pci => 7
  | .lan l => 8 + l.val
  | .bcn => 12 | .asc => 13 | .rpt => 14 | .ncal => 15 | .cip => 16 | .bq => 17 | .nbw => 18 | .bbw => 18
  | .mem => 19 | .memb _ => 19
  | .lpt n => if n.val < 12 then 20 else if n.val < 24 then 21 else if n.val < 36 then 22 else 23
  | .eng c => 24 + c.val / 4

/-- The pages assigned to vector `v`, 0–31 (R35). -/
def vectorPages (v : Nat) : List Page :=
  if v = 0 then [.mod, .pwr, .boot, .mgt]
  else if v = 1 then [.saf] else if v = 2 then [.tkt]
  else if v = 3 then [.sen, .ser 0, .ser 1, .ser 2, .ser 3]
  else if v = 4 then [.tru] else if v = 5 then [.pair, .lanm 0, .lanm 1] else if v = 6 then [.sto]
  else if v = 7 then [.pci]
  else if h : 8 ≤ v ∧ v < 12 then [.lan ⟨v - 8, by omega⟩]
  else if v = 12 then [.bcn] else if v = 13 then [.asc] else if v = 14 then [.rpt] else if v = 15 then [.ncal]
  else if v = 16 then [.cip] else if v = 17 then [.bq] else if v = 18 then [.nbw, .bbw]
  else if v = 19 then .mem :: (List.finRange 128).map .memb
  else if 20 ≤ v ∧ v < 24 then
    ((List.finRange 52).filter (fun n => decide (pageVector (.lpt n) = v))).map .lpt
  else if 24 ≤ v ∧ v < 32 then
    ((List.finRange 32).filter (fun c => decide (24 + c.val / 4 = v))).map .eng
  else []

/-- LOCK.PROT of a page: the protected groups that exist on it (R29, R442). -/
def lockProt : PageKind → Nat
  | .nbw => 1 | .bbw => 1 | .bcn => 1 | .mem => 1 | .pair => 1 | .saf => 3
  | _ => 0

/-- Whether CTRL.BLK_RESET has an effect on the page (the table of CTRL in spec/02_register_pages.md). -/
def hasBlkReset : PageKind → Bool
  | .mod => false | .pwr => false | .boot => false | .saf => false | .tkt => false
  | _ => true

/-! Offsets of the common header (R28). -/

/-- Offset of CTRL. -/
def offCtrl : Nat := 0x008
/-- Offset of STATUS. -/
def offStatus : Nat := 0x00C
/-- Offset of INT_STAT. -/
def offIntStat : Nat := 0x010
/-- Offset of INT_EN. -/
def offIntEn : Nat := 0x014
/-- Offset of INT_FORCE. -/
def offIntForce : Nat := 0x018
/-- Offset of ERR_CNT. -/
def offErrCnt : Nat := 0x01C
/-- Offset of LOCK. -/
def offLock : Nat := 0x020
/-- Offset of CMD. -/
def offCmd : Nat := 0x040
/-- Offset of CMD_ARG0; CMD_ARG1 and CMD_ARG2 follow. -/
def offArg : Nat := 0x044
/-- Offset of CMD_STAT. -/
def offCmdStat : Nat := 0x050

/-- INT_STAT bit 31: a command of the page completed (R29). -/
def INT.CMD_DONE : Nat := 31
/-- INT_STAT bit 30: an error that ERR_CNT counts (R29). -/
def INT.ERR : Nat := 30
/-- INT_STAT bit 29: a write to an RWP field was refused (R29). -/
def INT.PROT_REFUSED : Nat := 29
/-- INT_STAT bit 28: an access was not performed (R29). -/
def INT.ACCESS : Nat := 28

/-! Completion codes of R42. -/

/-- Completed as requested. -/
def CODE.OK : Nat := 0x00
/-- Stopped by an abort. -/
def CODE.ABORTED : Nat := 0x01
/-- Opcode not defined on the page. -/
def CODE.BAD_OPCODE : Nat := 0x02
/-- An argument out of range or inconsistent. -/
def CODE.BAD_ARG : Nat := 0x03
/-- Not allowed in the block's present state. -/
def CODE.REFUSED : Nat := 0x04
/-- Only a ticket can carry the operation out. -/
def CODE.PROTECTED : Nat := 0x05
/-- The block was reset with the command outstanding. -/
def CODE.RESET : Nat := 0x06
/-- The block's own time limit expired. -/
def CODE.TIMEOUT : Nat := 0x07
/-- A hardware fault stopped the command. -/
def CODE.FAULT : Nat := 0x08
/-- A needed slot, buffer or context was not free. -/
def CODE.NO_RESOURCE : Nat := 0x09

/-! The fields of the owning chapters. -/

/-- PWR_SUPPLY (0x100) [7:5] STATE (spec/04_supplies_and_sleep.md). -/
def PWR_SUPPLY.STATE : Field := ⟨.pwr, 0x100, 7, 5, .ro, 1, .any, 1, 4⟩
/-- PWR_SUPPLY (0x100) [4] REVERSED (spec/04_supplies_and_sleep.md). -/
def PWR_SUPPLY.REVERSED : Field := ⟨.pwr, 0x100, 4, 4, .ro, 0, .any, 1, 4⟩
/-- PWR_SUPPLY (0x100) [3] BACKUP_OK (spec/04_supplies_and_sleep.md). -/
def PWR_SUPPLY.BACKUP_OK : Field := ⟨.pwr, 0x100, 3, 3, .ro, 0, .any, 1, 4⟩
/-- PWR_SUPPLY (0x100) [2] MAIN_OK (spec/04_supplies_and_sleep.md). -/
def PWR_SUPPLY.MAIN_OK : Field := ⟨.pwr, 0x100, 2, 2, .ro, 0, .any, 1, 4⟩
/-- PWR_SUPPLY (0x100) [1:0] SOURCE (spec/04_supplies_and_sleep.md). -/
def PWR_SUPPLY.SOURCE : Field := ⟨.pwr, 0x100, 1, 0, .ro, 1, .any, 1, 4⟩

/-- PWR_MAIN_V (0x104) [15:0] VALUE (spec/04_supplies_and_sleep.md). -/
def PWR_MAIN_V.VALUE : Field := ⟨.pwr, 0x104, 15, 0, .ro, 0, .any, 1, 4⟩

/-- PWR_BACKUP_V (0x108) [15:0] VALUE (spec/04_supplies_and_sleep.md). -/
def PWR_BACKUP_V.VALUE : Field := ⟨.pwr, 0x108, 15, 0, .ro, 0, .any, 1, 4⟩

/-- PWR_INPUT_P (0x10C) [15:0] VALUE (spec/04_supplies_and_sleep.md). -/
def PWR_INPUT_P.VALUE : Field := ⟨.pwr, 0x10C, 15, 0, .ro, 0, .any, 1, 4⟩

/-- PWR_BASE_TEMP (0x110) [15:0] VALUE (spec/04_supplies_and_sleep.md). -/
def PWR_BASE_TEMP.VALUE : Field := ⟨.pwr, 0x110, 15, 0, .ro, 0, .any, 1, 4⟩

/-- PWR_POLICY (0x114) [29:28] OUTAGE_LANE (spec/04_supplies_and_sleep.md). -/
def PWR_POLICY.OUTAGE_LANE : Field := ⟨.pwr, 0x114, 29, 28, .rw, 0, .any, 1, 4⟩
/-- PWR_POLICY (0x114) [25] DORM_ON_LOW (spec/04_supplies_and_sleep.md). -/
def PWR_POLICY.DORM_ON_LOW : Field := ⟨.pwr, 0x114, 25, 25, .rw, 0, .any, 1, 4⟩
/-- PWR_POLICY (0x114) [24] OUTAGE_EN (spec/04_supplies_and_sleep.md). -/
def PWR_POLICY.OUTAGE_EN : Field := ⟨.pwr, 0x114, 24, 24, .rw, 0, .any, 1, 4⟩
/-- PWR_POLICY (0x114) [23:10] MAIN_RESTORE (spec/04_supplies_and_sleep.md). -/
def PWR_POLICY.MAIN_RESTORE : Field := ⟨.pwr, 0x114, 23, 10, .rw, 0x14, (.range 5 600), 1, 4⟩
/-- PWR_POLICY (0x114) [9:0] OUTAGE_DELAY (spec/04_supplies_and_sleep.md). -/
def PWR_POLICY.OUTAGE_DELAY : Field := ⟨.pwr, 0x114, 9, 0, .rw, 0x1E, (.range 0 600), 1, 4⟩

/-- PWR_THRESH (0x118) [15:0] BACKUP_LOW (spec/04_supplies_and_sleep.md). -/
def PWR_THRESH.BACKUP_LOW : Field := ⟨.pwr, 0x118, 15, 0, .rw, 0x190, (.range 360 1500), 1, 4⟩

/-- PWR_OUTAGE_PORTS_LO (0x11C) [31:0] PORTS (spec/04_supplies_and_sleep.md). -/
def PWR_OUTAGE_PORTS_LO.PORTS : Field := ⟨.pwr, 0x11C, 31, 0, .rw, 0, .any, 1, 4⟩

/-- PWR_OUTAGE_PORTS_HI (0x120) [19:0] PORTS (spec/04_supplies_and_sleep.md). -/
def PWR_OUTAGE_PORTS_HI.PORTS : Field := ⟨.pwr, 0x120, 19, 0, .rw, 0, .any, 1, 4⟩

/-- PWR_WAKE_EN (0x124) [5] TEMP (spec/04_supplies_and_sleep.md). -/
def PWR_WAKE_EN.TEMP : Field := ⟨.pwr, 0x124, 5, 5, .ro, 1, .any, 1, 4⟩
/-- PWR_WAKE_EN (0x124) [4] MRST (spec/04_supplies_and_sleep.md). -/
def PWR_WAKE_EN.MRST : Field := ⟨.pwr, 0x124, 4, 4, .ro, 1, .any, 1, 4⟩
/-- PWR_WAKE_EN (0x124) [3] SERIAL (spec/04_supplies_and_sleep.md). -/
def PWR_WAKE_EN.SERIAL : Field := ⟨.pwr, 0x124, 3, 3, .rw, 0, .any, 1, 4⟩
/-- PWR_WAKE_EN (0x124) [2] ALARM (spec/04_supplies_and_sleep.md). -/
def PWR_WAKE_EN.ALARM : Field := ⟨.pwr, 0x124, 2, 2, .rw, 0, .any, 1, 4⟩
/-- PWR_WAKE_EN (0x124) [1] BACKUP (spec/04_supplies_and_sleep.md). -/
def PWR_WAKE_EN.BACKUP : Field := ⟨.pwr, 0x124, 1, 1, .rw, 1, .any, 1, 4⟩
/-- PWR_WAKE_EN (0x124) [0] MAIN (spec/04_supplies_and_sleep.md). -/
def PWR_WAKE_EN.MAIN : Field := ⟨.pwr, 0x124, 0, 0, .rw, 1, .any, 1, 4⟩

/-- PWR_WAKE_CAUSE (0x128) [5:0] CAUSE (spec/04_supplies_and_sleep.md). -/
def PWR_WAKE_CAUSE.CAUSE : Field := ⟨.pwr, 0x128, 5, 0, .ro, 0, .any, 1, 4⟩

/-- PWR_RTC_LO (0x12C) [31:0] COUNT_LO (spec/04_supplies_and_sleep.md). -/
def PWR_RTC_LO.COUNT_LO : Field := ⟨.pwr, 0x12C, 31, 0, .ro, 0, .any, 1, 4⟩

/-- PWR_RTC_HI (0x130) [31] VALID (spec/04_supplies_and_sleep.md). -/
def PWR_RTC_HI.VALID : Field := ⟨.pwr, 0x130, 31, 31, .ro, 0, .any, 1, 4⟩
/-- PWR_RTC_HI (0x130) [15:0] COUNT_HI (spec/04_supplies_and_sleep.md). -/
def PWR_RTC_HI.COUNT_HI : Field := ⟨.pwr, 0x130, 15, 0, .ro, 0, .any, 1, 4⟩

/-- PWR_RTC_ALARM_LO (0x134) [31:0] COUNT_LO (spec/04_supplies_and_sleep.md). -/
def PWR_RTC_ALARM_LO.COUNT_LO : Field := ⟨.pwr, 0x134, 31, 0, .rw, 0, .any, 1, 4⟩

/-- PWR_RTC_ALARM_HI (0x138) [15:0] COUNT_HI (spec/04_supplies_and_sleep.md). -/
def PWR_RTC_ALARM_HI.COUNT_HI : Field := ⟨.pwr, 0x138, 15, 0, .rw, 0, .any, 1, 4⟩

/-- BOOT_STATUS (0x100) [23:20] LAST_FAIL (spec/05_startup_and_images.md). -/
def BOOT_STATUS.LAST_FAIL : Field := ⟨.boot, 0x100, 23, 20, .ro, 0, .any, 1, 4⟩
/-- BOOT_STATUS (0x100) [17] UCODE_SLOT (spec/05_startup_and_images.md). -/
def BOOT_STATUS.UCODE_SLOT : Field := ⟨.boot, 0x100, 17, 17, .ro, 0, .any, 1, 4⟩
/-- BOOT_STATUS (0x100) [16] MOD_SLOT (spec/05_startup_and_images.md). -/
def BOOT_STATUS.MOD_SLOT : Field := ⟨.boot, 0x100, 16, 16, .ro, 0, .any, 1, 4⟩
/-- BOOT_STATUS (0x100) [15:8] STAGE (spec/05_startup_and_images.md). -/
def BOOT_STATUS.STAGE : Field := ⟨.boot, 0x100, 15, 8, .ro, 1, .any, 1, 4⟩
/-- BOOT_STATUS (0x100) [2:0] MODE (spec/05_startup_and_images.md). -/
def BOOT_STATUS.MODE : Field := ⟨.boot, 0x100, 2, 0, .ro, 1, .any, 1, 4⟩

/-- BOOT_CAUSE (0x104) [7] BREAK (spec/05_startup_and_images.md). -/
def BOOT_CAUSE.BREAK : Field := ⟨.boot, 0x104, 7, 7, .ro, 0, .any, 1, 4⟩
/-- BOOT_CAUSE (0x104) [6] REVERT (spec/05_startup_and_images.md). -/
def BOOT_CAUSE.REVERT : Field := ⟨.boot, 0x104, 6, 6, .ro, 0, .any, 1, 4⟩
/-- BOOT_CAUSE (0x104) [5] LOCKSTEP (spec/05_startup_and_images.md). -/
def BOOT_CAUSE.LOCKSTEP : Field := ⟨.boot, 0x104, 5, 5, .ro, 0, .any, 1, 4⟩
/-- BOOT_CAUSE (0x104) [4] WATCHDOG (spec/05_startup_and_images.md). -/
def BOOT_CAUSE.WATCHDOG : Field := ⟨.boot, 0x104, 4, 4, .ro, 0, .any, 1, 4⟩
/-- BOOT_CAUSE (0x104) [3] SOFT (spec/05_startup_and_images.md). -/
def BOOT_CAUSE.SOFT : Field := ⟨.boot, 0x104, 3, 3, .ro, 0, .any, 1, 4⟩
/-- BOOT_CAUSE (0x104) [2] WAKE (spec/05_startup_and_images.md). -/
def BOOT_CAUSE.WAKE : Field := ⟨.boot, 0x104, 2, 2, .ro, 0, .any, 1, 4⟩
/-- BOOT_CAUSE (0x104) [1] MRST (spec/05_startup_and_images.md). -/
def BOOT_CAUSE.MRST : Field := ⟨.boot, 0x104, 1, 1, .ro, 0, .any, 1, 4⟩
/-- BOOT_CAUSE (0x104) [0] POWER_ON (spec/05_startup_and_images.md). -/
def BOOT_CAUSE.POWER_ON : Field := ⟨.boot, 0x104, 0, 0, .ro, 1, .any, 1, 4⟩

/-- BOOT_SEL (0x108) [1] UCODE_PREFER (spec/05_startup_and_images.md). -/
def BOOT_SEL.UCODE_PREFER : Field := ⟨.boot, 0x108, 1, 1, .rw, 0, .any, 1, 4⟩
/-- BOOT_SEL (0x108) [0] MOD_PREFER (spec/05_startup_and_images.md). -/
def BOOT_SEL.MOD_PREFER : Field := ⟨.boot, 0x108, 0, 0, .rw, 0, .any, 1, 4⟩

/-- BOOT_TRIAL (0x10C) [11:0] TIMEOUT (spec/05_startup_and_images.md). -/
def BOOT_TRIAL.TIMEOUT : Field := ⟨.boot, 0x10C, 11, 0, .rw, 0x258, (.range 60 3600), 1, 4⟩

/-- BOOT_IMG (0x110) [31:24] MAJOR (spec/05_startup_and_images.md). -/
def BOOT_IMG.MAJOR : Field := ⟨.boot, 0x110, 31, 24, .ro, 0, .any, 4, 4⟩
/-- BOOT_IMG (0x110) [23:16] MINOR (spec/05_startup_and_images.md). -/
def BOOT_IMG.MINOR : Field := ⟨.boot, 0x110, 23, 16, .ro, 0, .any, 4, 4⟩
/-- BOOT_IMG (0x110) [15:4] SVN (spec/05_startup_and_images.md). -/
def BOOT_IMG.SVN : Field := ⟨.boot, 0x110, 15, 4, .ro, 0, .any, 4, 4⟩
/-- BOOT_IMG (0x110) [3:0] STATE (spec/05_startup_and_images.md). -/
def BOOT_IMG.STATE : Field := ⟨.boot, 0x110, 3, 0, .ro, 0, .any, 4, 4⟩

/-- BOOT_MIN_SVN (0x120) [27:16] UCODE (spec/05_startup_and_images.md). -/
def BOOT_MIN_SVN.UCODE : Field := ⟨.boot, 0x120, 27, 16, .ro, 0, .any, 1, 4⟩
/-- BOOT_MIN_SVN (0x120) [11:0] MOD (spec/05_startup_and_images.md). -/
def BOOT_MIN_SVN.MOD : Field := ⟨.boot, 0x120, 11, 0, .ro, 0, .any, 1, 4⟩

/-- BOOT_MEMTEST (0x124) [23:16] FAILED (spec/05_startup_and_images.md). -/
def BOOT_MEMTEST.FAILED : Field := ⟨.boot, 0x124, 23, 16, .ro, 0, .any, 1, 4⟩
/-- BOOT_MEMTEST (0x124) [15:0] REPAIRED (spec/05_startup_and_images.md). -/
def BOOT_MEMTEST.REPAIRED : Field := ⟨.boot, 0x124, 15, 0, .ro, 0, .any, 1, 4⟩

/-- LPT_STATUS (0xC) [28] DRV_EN (spec/06_line_ports.md). -/
def LPT_STATUS.DRV_EN : Field := ⟨.lpt, 0xC, 28, 28, .ro, 0, .any, 1, 4⟩
/-- LPT_STATUS (0xC) [27] RX_ON (spec/06_line_ports.md). -/
def LPT_STATUS.RX_ON : Field := ⟨.lpt, 0xC, 27, 27, .ro, 0, .any, 1, 4⟩
/-- LPT_STATUS (0xC) [26] DECL_ACTIVE (spec/06_line_ports.md). -/
def LPT_STATUS.DECL_ACTIVE : Field := ⟨.lpt, 0xC, 26, 26, .ro, 0, .any, 1, 4⟩
/-- LPT_STATUS (0xC) [25] NB_MODE (spec/06_line_ports.md). -/
def LPT_STATUS.NB_MODE : Field := ⟨.lpt, 0xC, 25, 25, .ro, 0, .any, 1, 4⟩
/-- LPT_STATUS (0xC) [24] CLAMPING (spec/06_line_ports.md). -/
def LPT_STATUS.CLAMPING : Field := ⟨.lpt, 0xC, 24, 24, .ro, 0, .any, 1, 4⟩
/-- LPT_STATUS (0xC) [23] PERMIT (spec/06_line_ports.md). -/
def LPT_STATUS.PERMIT : Field := ⟨.lpt, 0xC, 23, 23, .ro, 0, .any, 1, 4⟩
/-- LPT_STATUS (0xC) [22] AGC_FROZEN (spec/06_line_ports.md). -/
def LPT_STATUS.AGC_FROZEN : Field := ⟨.lpt, 0xC, 22, 22, .ro, 0, .any, 1, 4⟩
/-- LPT_STATUS (0xC) [21:19] RANGE (spec/06_line_ports.md). -/
def LPT_STATUS.RANGE : Field := ⟨.lpt, 0xC, 21, 19, .ro, 3, .any, 1, 4⟩
/-- LPT_STATUS (0xC) [18:16] FAULT_CAUSE (spec/06_line_ports.md). -/
def LPT_STATUS.FAULT_CAUSE : Field := ⟨.lpt, 0xC, 18, 16, .ro, 0, .any, 1, 4⟩

/-- LPT_DECL (0x100) [31] DECLARED (spec/06_line_ports.md). -/
def LPT_DECL.DECLARED : Field := ⟨.lpt, 0x100, 31, 31, .rw, 0, .any, 1, 4⟩
/-- LPT_DECL (0x100) [30] PENDING (spec/06_line_ports.md). -/
def LPT_DECL.PENDING : Field := ⟨.lpt, 0x100, 30, 30, .ro, 0, .any, 1, 4⟩
/-- LPT_DECL (0x100) [17] BB_EN (spec/06_line_ports.md). -/
def LPT_DECL.BB_EN : Field := ⟨.lpt, 0x100, 17, 17, .rw, 1, .any, 1, 4⟩
/-- LPT_DECL (0x100) [16] NB_EN (spec/06_line_ports.md). -/
def LPT_DECL.NB_EN : Field := ⟨.lpt, 0x100, 16, 16, .rw, 1, .any, 1, 4⟩
/-- LPT_DECL (0x100) [5:0] COUPLER_LOSS (spec/06_line_ports.md). -/
def LPT_DECL.COUPLER_LOSS : Field := ⟨.lpt, 0x100, 5, 0, .rw, 0, (.range 0 40), 1, 4⟩

/-- LPT_TX_LEVEL (0x104) [31] CAPPED (spec/06_line_ports.md). -/
def LPT_TX_LEVEL.CAPPED : Field := ⟨.lpt, 0x104, 31, 31, .ro, 0, .any, 1, 4⟩
/-- LPT_TX_LEVEL (0x104) [15:8] BB_ATTEN (spec/06_line_ports.md). -/
def LPT_TX_LEVEL.BB_ATTEN : Field := ⟨.lpt, 0x104, 15, 8, .rw, 0, (.range 0 80), 1, 4⟩
/-- LPT_TX_LEVEL (0x104) [7:0] NB_ATTEN (spec/06_line_ports.md). -/
def LPT_TX_LEVEL.NB_ATTEN : Field := ⟨.lpt, 0x104, 7, 0, .rw, 0, (.range 0 80), 1, 4⟩

/-- LPT_AGC (0x108) [9:8] MODE (spec/06_line_ports.md). -/
def LPT_AGC.MODE : Field := ⟨.lpt, 0x108, 9, 8, .rw, 0, (.range 0 1), 1, 4⟩
/-- LPT_AGC (0x108) [6:4] FIXED_RANGE (spec/06_line_ports.md). -/
def LPT_AGC.FIXED_RANGE : Field := ⟨.lpt, 0x108, 6, 4, .rw, 3, .any, 1, 4⟩

/-- LPT_STEP (0x10C) [7:0] THRESH (spec/06_line_ports.md). -/
def LPT_STEP.THRESH : Field := ⟨.lpt, 0x10C, 7, 0, .rw, 0x14, (.range 6 60), 1, 4⟩

/-- LPT_CLIP_CNT (0x110) [15:0] COUNT (spec/06_line_ports.md). -/
def LPT_CLIP_CNT.COUNT : Field := ⟨.lpt, 0x110, 15, 0, .rc, 0, .any, 1, 4⟩

/-- LPT_STEP_CNT (0x114) [15:0] COUNT (spec/06_line_ports.md). -/
def LPT_STEP_CNT.COUNT : Field := ⟨.lpt, 0x114, 15, 0, .rc, 0, .any, 1, 4⟩

/-- LPT_CLAMP_CNT (0x118) [15:0] COUNT (spec/06_line_ports.md). -/
def LPT_CLAMP_CNT.COUNT : Field := ⟨.lpt, 0x118, 15, 0, .rc, 0, .any, 1, 4⟩

/-- LPT_SURGE_CNT (0x11C) [15:0] COUNT (spec/06_line_ports.md). -/
def LPT_SURGE_CNT.COUNT : Field := ⟨.lpt, 0x11C, 15, 0, .rc, 0, .any, 1, 4⟩

/-- LPT_NOISE (0x120) [31:16] BB_PSD (spec/06_line_ports.md). -/
def LPT_NOISE.BB_PSD : Field := ⟨.lpt, 0x120, 31, 16, .ro, 0, .any, 1, 4⟩
/-- LPT_NOISE (0x120) [15:0] NB_PSD (spec/06_line_ports.md). -/
def LPT_NOISE.NB_PSD : Field := ⟨.lpt, 0x120, 15, 0, .ro, 0, .any, 1, 4⟩

/-- LPT_CAL (0x124) [23:16] TX_ERR (spec/06_line_ports.md). -/
def LPT_CAL.TX_ERR : Field := ⟨.lpt, 0x124, 23, 16, .ro, 0, .any, 1, 4⟩
/-- LPT_CAL (0x124) [15:8] RX_ERR (spec/06_line_ports.md). -/
def LPT_CAL.RX_ERR : Field := ⟨.lpt, 0x124, 15, 8, .ro, 0, .any, 1, 4⟩
/-- LPT_CAL (0x124) [1:0] STATE (spec/06_line_ports.md). -/
def LPT_CAL.STATE : Field := ⟨.lpt, 0x124, 1, 0, .ro, 0, .any, 1, 4⟩

/-- LPT_LINE_Z (0x128) [31:16] MAG (spec/06_line_ports.md). -/
def LPT_LINE_Z.MAG : Field := ⟨.lpt, 0x128, 31, 16, .ro, 0xFFFF, .any, 4, 4⟩
/-- LPT_LINE_Z (0x128) [15:0] ANGLE (spec/06_line_ports.md). -/
def LPT_LINE_Z.ANGLE : Field := ⟨.lpt, 0x128, 15, 0, .ro, 0, .any, 4, 4⟩

/-- NBW_STATUS (0xC) [28] BAND_VALID (spec/07_narrowband_tone_keying.md). -/
def NBW_STATUS.BAND_VALID : Field := ⟨.nbw, 0xC, 28, 28, .ro, 0, .any, 1, 4⟩
/-- NBW_STATUS (0xC) [27] PENDING (spec/07_narrowband_tone_keying.md). -/
def NBW_STATUS.PENDING : Field := ⟨.nbw, 0xC, 27, 27, .ro, 0, .any, 1, 4⟩

/-- NBW_BAND (0x100) [23:16] BAND_CODE (spec/07_narrowband_tone_keying.md). -/
def NBW_BAND.BAND_CODE : Field := ⟨.nbw, 0x100, 23, 16, .rwp, 0, .any, 1, 4⟩
/-- NBW_BAND (0x100) [15:8] BASE (spec/07_narrowband_tone_keying.md). -/
def NBW_BAND.BASE : Field := ⟨.nbw, 0x100, 15, 8, .rwp, 0, .any, 1, 4⟩
/-- NBW_BAND (0x100) [7:0] NSETS (spec/07_narrowband_tone_keying.md). -/
def NBW_BAND.NSETS : Field := ⟨.nbw, 0x100, 7, 0, .rwp, 0, (.range 0 61), 1, 4⟩

/-- NBW_CFG (0x104) [15:8] DET_THRESH (spec/07_narrowband_tone_keying.md). -/
def NBW_CFG.DET_THRESH : Field := ⟨.nbw, 0x104, 15, 8, .rw, 0x14, (.range 12 60), 1, 4⟩
/-- NBW_CFG (0x104) [7:0] WIN_OFFSET (spec/07_narrowband_tone_keying.md). -/
def NBW_CFG.WIN_OFFSET : Field := ⟨.nbw, 0x104, 7, 0, .rw, 0x28, (.range 8 56), 1, 4⟩

/-- NBW_SYNC_CNT (0x108) [31:0] COUNT (spec/07_narrowband_tone_keying.md). -/
def NBW_SYNC_CNT.COUNT : Field := ⟨.nbw, 0x108, 31, 0, .rc, 0, .any, 1, 4⟩

/-- NBW_HDR_LOST_CNT (0x10C) [31:0] COUNT (spec/07_narrowband_tone_keying.md). -/
def NBW_HDR_LOST_CNT.COUNT : Field := ⟨.nbw, 0x10C, 31, 0, .rc, 0, .any, 1, 4⟩

/-- NBW_CRC_FAIL_CNT (0x110) [31:0] COUNT (spec/07_narrowband_tone_keying.md). -/
def NBW_CRC_FAIL_CNT.COUNT : Field := ⟨.nbw, 0x110, 31, 0, .rc, 0, .any, 1, 4⟩

/-- NBW_OK_CNT (0x114) [31:0] COUNT (spec/07_narrowband_tone_keying.md). -/
def NBW_OK_CNT.COUNT : Field := ⟨.nbw, 0x114, 31, 0, .rc, 0, .any, 1, 4⟩

/-- NBW_ENC_LEN (0x118) [15:0] SYMBOLS (spec/07_narrowband_tone_keying.md). -/
def NBW_ENC_LEN.SYMBOLS : Field := ⟨.nbw, 0x118, 15, 0, .ro, 0, .any, 1, 4⟩

/-- NBW_LEVEL (0x11C) [31:16] MV_LIMIT (spec/07_narrowband_tone_keying.md). -/
def NBW_LEVEL.MV_LIMIT : Field := ⟨.nbw, 0x11C, 31, 16, .rwp, 0, (.range 0 1600), 1, 4⟩
/-- NBW_LEVEL (0x11C) [15:0] LV_LIMIT (spec/07_narrowband_tone_keying.md). -/
def NBW_LEVEL.LV_LIMIT : Field := ⟨.nbw, 0x11C, 15, 0, .rwp, 0, (.range 0 1600), 1, 4⟩

/-- BBW_STATUS (0xC) [28] MASK_VALID (spec/08_broadband_ofdm.md). -/
def BBW_STATUS.MASK_VALID : Field := ⟨.bbw, 0xC, 28, 28, .ro, 0, .any, 1, 4⟩
/-- BBW_STATUS (0xC) [27] PENDING (spec/08_broadband_ofdm.md). -/
def BBW_STATUS.PENDING : Field := ⟨.bbw, 0xC, 27, 27, .ro, 0, .any, 1, 4⟩
/-- BBW_STATUS (0xC) [26] DYN_ACTIVE (spec/08_broadband_ofdm.md). -/
def BBW_STATUS.DYN_ACTIVE : Field := ⟨.bbw, 0xC, 26, 26, .ro, 0, .any, 1, 4⟩

/-- BBW_PROFILE (0x100) [24] DYN_EN (spec/08_broadband_ofdm.md). -/
def BBW_PROFILE.DYN_EN : Field := ⟨.bbw, 0x100, 24, 24, .rwp, 0, .any, 1, 4⟩
/-- BBW_PROFILE (0x100) [23:16] PROFILE_CODE (spec/08_broadband_ofdm.md). -/
def BBW_PROFILE.PROFILE_CODE : Field := ⟨.bbw, 0x100, 23, 16, .rwp, 0, .any, 1, 4⟩
/-- BBW_PROFILE (0x100) [15:8] DYN_THRESH (spec/08_broadband_ofdm.md). -/
def BBW_PROFILE.DYN_THRESH : Field := ⟨.bbw, 0x100, 15, 8, .rwp, 0xE, (.range 6 40), 1, 4⟩
/-- BBW_PROFILE (0x100) [7:0] DYN_HOLD (spec/08_broadband_ofdm.md). -/
def BBW_PROFILE.DYN_HOLD : Field := ⟨.bbw, 0x100, 7, 0, .rwp, 0xB4, (.range 16 255), 1, 4⟩

/-- BBW_CFG (0x104) [23:16] DET_THRESH (spec/08_broadband_ofdm.md). -/
def BBW_CFG.DET_THRESH : Field := ⟨.bbw, 0x104, 23, 16, .rw, 0x18, (.range 12 60), 1, 4⟩
/-- BBW_CFG (0x104) [15:8] MAX_ITER (spec/08_broadband_ofdm.md). -/
def BBW_CFG.MAX_ITER : Field := ⟨.bbw, 0x104, 15, 8, .rw, 0x10, (.range 4 32), 1, 4⟩
/-- BBW_CFG (0x104) [7:4] LOAD_MARGIN (spec/08_broadband_ofdm.md). -/
def BBW_CFG.LOAD_MARGIN : Field := ⟨.bbw, 0x104, 7, 4, .rw, 3, .any, 1, 4⟩
/-- BBW_CFG (0x104) [3:2] PI_DEFAULT (spec/08_broadband_ofdm.md). -/
def BBW_CFG.PI_DEFAULT : Field := ⟨.bbw, 0x104, 3, 2, .rw, 1, .any, 1, 4⟩
/-- BBW_CFG (0x104) [1:0] GI_DEFAULT (spec/08_broadband_ofdm.md). -/
def BBW_CFG.GI_DEFAULT : Field := ⟨.bbw, 0x104, 1, 0, .rw, 1, (.range 0 2), 1, 4⟩

/-- BBW_TMAP (0x108) [31] FULL (spec/08_broadband_ofdm.md). -/
def BBW_TMAP.FULL : Field := ⟨.bbw, 0x108, 31, 31, .ro, 0, .any, 1, 4⟩
/-- BBW_TMAP (0x108) [30:24] PERIOD (spec/08_broadband_ofdm.md). -/
def BBW_TMAP.PERIOD : Field := ⟨.bbw, 0x108, 30, 24, .rw, 0x20, (.range 1 127), 1, 4⟩
/-- BBW_TMAP (0x108) [18:0] USED (spec/08_broadband_ofdm.md). -/
def BBW_TMAP.USED : Field := ⟨.bbw, 0x108, 18, 0, .ro, 0, .any, 1, 4⟩

/-- BBW_DET_CNT (0x10C) [31:0] COUNT (spec/08_broadband_ofdm.md). -/
def BBW_DET_CNT.COUNT : Field := ⟨.bbw, 0x10C, 31, 0, .rc, 0, .any, 1, 4⟩

/-- BBW_HDR_LOST_CNT (0x110) [31:0] COUNT (spec/08_broadband_ofdm.md). -/
def BBW_HDR_LOST_CNT.COUNT : Field := ⟨.bbw, 0x110, 31, 0, .rc, 0, .any, 1, 4⟩

/-- BBW_CRC_FAIL_CNT (0x114) [31:0] COUNT (spec/08_broadband_ofdm.md). -/
def BBW_CRC_FAIL_CNT.COUNT : Field := ⟨.bbw, 0x114, 31, 0, .rc, 0, .any, 1, 4⟩

/-- BBW_OK_CNT (0x118) [31:0] COUNT (spec/08_broadband_ofdm.md). -/
def BBW_OK_CNT.COUNT : Field := ⟨.bbw, 0x118, 31, 0, .rc, 0, .any, 1, 4⟩

/-- BBW_CW_FAIL_CNT (0x11C) [31:0] COUNT (spec/08_broadband_ofdm.md). -/
def BBW_CW_FAIL_CNT.COUNT : Field := ⟨.bbw, 0x11C, 31, 0, .rc, 0, .any, 1, 4⟩

/-- BBW_TADJ_CNT (0x120) [31:0] COUNT (spec/08_broadband_ofdm.md). -/
def BBW_TADJ_CNT.COUNT : Field := ⟨.bbw, 0x120, 31, 0, .rc, 0, .any, 1, 4⟩

/-- BBW_ENC_LEN (0x124) [15:0] SYMBOLS (spec/08_broadband_ofdm.md). -/
def BBW_ENC_LEN.SYMBOLS : Field := ⟨.bbw, 0x124, 15, 0, .ro, 0, .any, 1, 4⟩

/-- BBW_LEVEL (0x128) [31:16] MV_LIMIT (spec/08_broadband_ofdm.md). -/
def BBW_LEVEL.MV_LIMIT : Field := ⟨.bbw, 0x128, 31, 16, .rwp, 0x8000, .any, 1, 4⟩
/-- BBW_LEVEL (0x128) [15:0] LV_LIMIT (spec/08_broadband_ofdm.md). -/
def BBW_LEVEL.LV_LIMIT : Field := ⟨.bbw, 0x128, 15, 0, .rwp, 0x8000, .any, 1, 4⟩

/-- BBW_PMASK (0x200) [31:0] CARRIERS (spec/08_broadband_ofdm.md). -/
def BBW_PMASK.CARRIERS : Field := ⟨.bbw, 0x200, 31, 0, .rwp, 0xFFFFFFFF, .any, 54, 4⟩

/-- BBW_DMASK (0x300) [31:0] CARRIERS (spec/08_broadband_ofdm.md). -/
def BBW_DMASK.CARRIERS : Field := ⟨.bbw, 0x300, 31, 0, .rwp, 0, .any, 54, 4⟩

/-- NCAL_STATUS (0xC) [28] USE (spec/09_noise_calendar.md). -/
def NCAL_STATUS.USE : Field := ⟨.ncal, 0xC, 28, 28, .ro, 1, .any, 1, 4⟩
/-- NCAL_STATUS (0xC) [27] PENDING (spec/09_noise_calendar.md). -/
def NCAL_STATUS.PENDING : Field := ⟨.ncal, 0xC, 27, 27, .ro, 0, .any, 1, 4⟩
/-- NCAL_STATUS (0xC) [26] ANY_SETTLE (spec/09_noise_calendar.md). -/
def NCAL_STATUS.ANY_SETTLE : Field := ⟨.ncal, 0xC, 26, 26, .ro, 0, .any, 1, 4⟩

/-- NCAL_CFG (0x100) [31:24] DET_THRESH (spec/09_noise_calendar.md). -/
def NCAL_CFG.DET_THRESH : Field := ⟨.ncal, 0x100, 31, 24, .rw, 0x18, (.range 12 80), 1, 4⟩
/-- NCAL_CFG (0x100) [23:16] MARGIN (spec/09_noise_calendar.md). -/
def NCAL_CFG.MARGIN : Field := ⟨.ncal, 0x100, 23, 16, .rw, 0x10, (.range 4 200), 1, 4⟩
/-- NCAL_CFG (0x100) [15:12] ACQ (spec/09_noise_calendar.md). -/
def NCAL_CFG.ACQ : Field := ⟨.ncal, 0x100, 15, 12, .rw, 8, (.range 4 15), 1, 4⟩
/-- NCAL_CFG (0x100) [11:8] SETTLE (spec/09_noise_calendar.md). -/
def NCAL_CFG.SETTLE : Field := ⟨.ncal, 0x100, 11, 8, .rw, 2, (.range 1 15), 1, 4⟩
/-- NCAL_CFG (0x100) [7:0] MISS (spec/09_noise_calendar.md). -/
def NCAL_CFG.MISS : Field := ⟨.ncal, 0x100, 7, 0, .rw, 0x10, (.range 4 255), 1, 4⟩

/-- NCAL_SCHED (0x104) [31] USE (spec/09_noise_calendar.md). -/
def NCAL_SCHED.USE : Field := ⟨.ncal, 0x104, 31, 31, .rw, 1, .any, 1, 4⟩
/-- NCAL_SCHED (0x104) [23:16] AGE_MAX (spec/09_noise_calendar.md). -/
def NCAL_SCHED.AGE_MAX : Field := ⟨.ncal, 0x104, 23, 16, .rw, 0x40, (.range 8 255), 1, 4⟩
/-- NCAL_SCHED (0x104) [15:8] NB_HIT_MAX (spec/09_noise_calendar.md). -/
def NCAL_SCHED.NB_HIT_MAX : Field := ⟨.ncal, 0x104, 15, 8, .rw, 0x14, (.range 0 100), 1, 4⟩
/-- NCAL_SCHED (0x104) [7:0] BB_HIT_MAX (spec/09_noise_calendar.md). -/
def NCAL_SCHED.BB_HIT_MAX : Field := ⟨.ncal, 0x104, 7, 0, .rw, 0xA, (.range 0 100), 1, 4⟩

/-- NCAL_SEL (0x108) [10:8] ENTRY (spec/09_noise_calendar.md). -/
def NCAL_SEL.ENTRY : Field := ⟨.ncal, 0x108, 10, 8, .rw, 0, .any, 1, 4⟩
/-- NCAL_SEL (0x108) [5:0] PORT (spec/09_noise_calendar.md). -/
def NCAL_SEL.PORT : Field := ⟨.ncal, 0x108, 5, 0, .rw, 0, (.range 0 51), 1, 4⟩

/-- NCAL_ENT_STATE (0x10C) [31] VALID (spec/09_noise_calendar.md). -/
def NCAL_ENT_STATE.VALID : Field := ⟨.ncal, 0x10C, 31, 31, .ro, 0, .any, 1, 4⟩
/-- NCAL_ENT_STATE (0x10C) [30:20] NB_BINS (spec/09_noise_calendar.md). -/
def NCAL_ENT_STATE.NB_BINS : Field := ⟨.ncal, 0x10C, 30, 20, .ro, 0, .any, 1, 4⟩
/-- NCAL_ENT_STATE (0x10C) [19:12] MISS_RUN (spec/09_noise_calendar.md). -/
def NCAL_ENT_STATE.MISS_RUN : Field := ⟨.ncal, 0x10C, 19, 12, .ro, 0, .any, 1, 4⟩
/-- NCAL_ENT_STATE (0x10C) [11:0] HITS (spec/09_noise_calendar.md). -/
def NCAL_ENT_STATE.HITS : Field := ⟨.ncal, 0x10C, 11, 0, .ro, 0, .any, 1, 4⟩

/-- NCAL_ENT_PERIOD (0x110) [24:0] PERIOD (spec/09_noise_calendar.md). -/
def NCAL_ENT_PERIOD.PERIOD : Field := ⟨.ncal, 0x110, 24, 0, .ro, 0, .any, 1, 4⟩

/-- NCAL_ENT_NEXT (0x114) [27:0] NEXT (spec/09_noise_calendar.md). -/
def NCAL_ENT_NEXT.NEXT : Field := ⟨.ncal, 0x114, 27, 0, .ro, 0, .any, 1, 4⟩

/-- NCAL_ENT_SHAPE (0x118) [31:20] WIDTH (spec/09_noise_calendar.md). -/
def NCAL_ENT_SHAPE.WIDTH : Field := ⟨.ncal, 0x118, 31, 20, .ro, 0, .any, 1, 4⟩
/-- NCAL_ENT_SHAPE (0x118) [19:12] LEVEL (spec/09_noise_calendar.md). -/
def NCAL_ENT_SHAPE.LEVEL : Field := ⟨.ncal, 0x118, 19, 12, .ro, 0, .any, 1, 4⟩
/-- NCAL_ENT_SHAPE (0x118) [7:0] JITTER (spec/09_noise_calendar.md). -/
def NCAL_ENT_SHAPE.JITTER : Field := ⟨.ncal, 0x118, 7, 0, .ro, 0, .any, 1, 4⟩

/-- NCAL_ENT_RU (0x11C) [26:0] RU (spec/09_noise_calendar.md). -/
def NCAL_ENT_RU.RU : Field := ⟨.ncal, 0x11C, 26, 0, .ro, 0, .any, 1, 4⟩

/-- NCAL_PORT_STAT (0x120) [31:28] SETTLE_LEFT (spec/09_noise_calendar.md). -/
def NCAL_PORT_STAT.SETTLE_LEFT : Field := ⟨.ncal, 0x120, 31, 28, .ro, 0, .any, 1, 4⟩
/-- NCAL_PORT_STAT (0x120) [27:24] TRACKED (spec/09_noise_calendar.md). -/
def NCAL_PORT_STAT.TRACKED : Field := ⟨.ncal, 0x120, 27, 24, .ro, 0, .any, 1, 4⟩
/-- NCAL_PORT_STAT (0x120) [15:0] APER (spec/09_noise_calendar.md). -/
def NCAL_PORT_STAT.APER : Field := ⟨.ncal, 0x120, 15, 0, .ro, 0, .any, 1, 4⟩

/-- NCAL_ONSET_LAST (0x124) [31:30] KIND (spec/09_noise_calendar.md). -/
def NCAL_ONSET_LAST.KIND : Field := ⟨.ncal, 0x124, 31, 30, .ro, 0, .any, 1, 4⟩
/-- NCAL_ONSET_LAST (0x124) [29:24] PORT (spec/09_noise_calendar.md). -/
def NCAL_ONSET_LAST.PORT : Field := ⟨.ncal, 0x124, 29, 24, .ro, 0, .any, 1, 4⟩
/-- NCAL_ONSET_LAST (0x124) [9:0] SLOT (spec/09_noise_calendar.md). -/
def NCAL_ONSET_LAST.SLOT : Field := ⟨.ncal, 0x124, 9, 0, .ro, 0, .any, 1, 4⟩

/-- NCAL_ONSET_CNT (0x128) [31:0] COUNT (spec/09_noise_calendar.md). -/
def NCAL_ONSET_CNT.COUNT : Field := ⟨.ncal, 0x128, 31, 0, .rc, 0, .any, 1, 4⟩

/-- NCAL_DEFER_CNT (0x12C) [31:0] COUNT (spec/09_noise_calendar.md). -/
def NCAL_DEFER_CNT.COUNT : Field := ⟨.ncal, 0x12C, 31, 0, .rc, 0, .any, 1, 4⟩

/-- NCAL_FULL_CNT (0x130) [31:0] COUNT (spec/09_noise_calendar.md). -/
def NCAL_FULL_CNT.COUNT : Field := ⟨.ncal, 0x130, 31, 0, .rc, 0, .any, 1, 4⟩

/-- BCN_STATUS (0xC) [28] BEACONING (spec/10_beacons_and_superframe.md). -/
def BCN_STATUS.BEACONING : Field := ⟨.bcn, 0xC, 28, 28, .ro, 0, .any, 1, 4⟩
/-- BCN_STATUS (0xC) [27] NEXT_PENDING (spec/10_beacons_and_superframe.md). -/
def BCN_STATUS.NEXT_PENDING : Field := ⟨.bcn, 0xC, 27, 27, .ro, 0, .any, 1, 4⟩
/-- BCN_STATUS (0xC) [26:25] ROUND (spec/10_beacons_and_superframe.md). -/
def BCN_STATUS.ROUND : Field := ⟨.bcn, 0xC, 26, 25, .ro, 0, .any, 1, 4⟩

/-- BCN_CFG (0x100) [31] BEACON_EN (spec/10_beacons_and_superframe.md). -/
def BCN_CFG.BEACON_EN : Field := ⟨.bcn, 0x100, 31, 31, .rw, 0, .any, 1, 4⟩
/-- BCN_CFG (0x100) [27:26] BB_CPER (spec/10_beacons_and_superframe.md). -/
def BCN_CFG.BB_CPER : Field := ⟨.bcn, 0x100, 27, 26, .rw, 2, .any, 1, 4⟩
/-- BCN_CFG (0x100) [25:24] BW (spec/10_beacons_and_superframe.md). -/
def BCN_CFG.BW : Field := ⟨.bcn, 0x100, 25, 24, .rw, 1, .any, 1, 4⟩
/-- BCN_CFG (0x100) [13:0] DOMAIN_ID (spec/10_beacons_and_superframe.md). -/
def BCN_CFG.DOMAIN_ID : Field := ⟨.bcn, 0x100, 13, 0, .rw, 0, .any, 1, 4⟩

/-- BCN_NB_MAP_LO (0x104) [31:0] SETS (spec/10_beacons_and_superframe.md). -/
def BCN_NB_MAP_LO.SETS : Field := ⟨.bcn, 0x104, 31, 0, .rw, 0, .any, 1, 4⟩

/-- BCN_NB_MAP_HI (0x108) [28:0] SETS (spec/10_beacons_and_superframe.md). -/
def BCN_NB_MAP_HI.SETS : Field := ⟨.bcn, 0x108, 28, 0, .rw, 0, .any, 1, 4⟩

/-- BCN_NB_MAP_CUR_LO (0x10C) [31:0] SETS (spec/10_beacons_and_superframe.md). -/
def BCN_NB_MAP_CUR_LO.SETS : Field := ⟨.bcn, 0x10C, 31, 0, .ro, 0, .any, 1, 4⟩

/-- BCN_NB_MAP_CUR_HI (0x110) [28:0] SETS (spec/10_beacons_and_superframe.md). -/
def BCN_NB_MAP_CUR_HI.SETS : Field := ⟨.bcn, 0x110, 28, 0, .ro, 0, .any, 1, 4⟩

/-- BCN_RU_MAP (0x114) [26:0] RUS (spec/10_beacons_and_superframe.md). -/
def BCN_RU_MAP.RUS : Field := ⟨.bcn, 0x114, 26, 0, .rw, 0x7FFFFFF, .any, 1, 4⟩

/-- BCN_RU_MAP_CUR (0x118) [26:0] RUS (spec/10_beacons_and_superframe.md). -/
def BCN_RU_MAP_CUR.RUS : Field := ⟨.bcn, 0x118, 26, 0, .ro, 0x7FFFFFF, .any, 1, 4⟩

/-- BCN_SFN (0x11C) [31:0] SFN (spec/10_beacons_and_superframe.md). -/
def BCN_SFN.SFN : Field := ⟨.bcn, 0x11C, 31, 0, .ro, 0, .any, 1, 4⟩

/-- BCN_DWELL_CONT (0x120) [15:0] T_CONT (spec/10_beacons_and_superframe.md). -/
def BCN_DWELL_CONT.T_CONT : Field := ⟨.bcn, 0x120, 15, 0, .rwp, 0x190, (.range 1 65535), 1, 4⟩

/-- BCN_DWELL_OCC (0x124) [25:16] OCC (spec/10_beacons_and_superframe.md). -/
def BCN_DWELL_OCC.OCC : Field := ⟨.bcn, 0x124, 25, 16, .rwp, 0x64, (.range 1 1000), 1, 4⟩
/-- BCN_DWELL_OCC (0x124) [15:0] WINDOW (spec/10_beacons_and_superframe.md). -/
def BCN_DWELL_OCC.WINDOW : Field := ⟨.bcn, 0x124, 15, 0, .rwp, 0x24, (.range 10 3600), 1, 4⟩

/-- BCN_DWELL_SEL (0x128) [29:24] PORT (spec/10_beacons_and_superframe.md). -/
def BCN_DWELL_SEL.PORT : Field := ⟨.bcn, 0x128, 29, 24, .rw, 0, (.range 0 51), 1, 4⟩
/-- BCN_DWELL_SEL (0x128) [23] WAVE (spec/10_beacons_and_superframe.md). -/
def BCN_DWELL_SEL.WAVE : Field := ⟨.bcn, 0x128, 23, 23, .rw, 0, .any, 1, 4⟩
/-- BCN_DWELL_SEL (0x128) [5:0] CHANNEL (spec/10_beacons_and_superframe.md). -/
def BCN_DWELL_SEL.CHANNEL : Field := ⟨.bcn, 0x128, 5, 0, .rw, 0, (.range 0 60), 1, 4⟩

/-- BCN_DWELL_STATE (0x12C) [31] BARRED (spec/10_beacons_and_superframe.md). -/
def BCN_DWELL_STATE.BARRED : Field := ⟨.bcn, 0x12C, 31, 31, .ro, 0, .any, 1, 4⟩
/-- BCN_DWELL_STATE (0x12C) [30:16] CONT (spec/10_beacons_and_superframe.md). -/
def BCN_DWELL_STATE.CONT : Field := ⟨.bcn, 0x12C, 30, 16, .ro, 0, .any, 1, 4⟩
/-- BCN_DWELL_STATE (0x12C) [15:0] OCC (spec/10_beacons_and_superframe.md). -/
def BCN_DWELL_STATE.OCC : Field := ⟨.bcn, 0x12C, 15, 0, .ro, 0, .any, 1, 4⟩

/-- BCN_BEACON_CNT (0x130) [31:0] COUNT (spec/10_beacons_and_superframe.md). -/
def BCN_BEACON_CNT.COUNT : Field := ⟨.bcn, 0x130, 31, 0, .rc, 0, .any, 1, 4⟩

/-- BCN_BEACON_REFUSED_CNT (0x134) [31:0] COUNT (spec/10_beacons_and_superframe.md). -/
def BCN_BEACON_REFUSED_CNT.COUNT : Field := ⟨.bcn, 0x134, 31, 0, .rc, 0, .any, 1, 4⟩

/-- BCN_DWELL_STOP_CNT (0x138) [31:0] COUNT (spec/10_beacons_and_superframe.md). -/
def BCN_DWELL_STOP_CNT.COUNT : Field := ⟨.bcn, 0x138, 31, 0, .rc, 0, .any, 1, 4⟩

/-- BCN_PLACE_REFUSED_CNT (0x13C) [31:0] COUNT (spec/10_beacons_and_superframe.md). -/
def BCN_PLACE_REFUSED_CNT.COUNT : Field := ⟨.bcn, 0x13C, 31, 0, .rc, 0, .any, 1, 4⟩

/-- ASC_STATUS (0xC) [28] FULL (spec/11_associations_and_contexts.md). -/
def ASC_STATUS.FULL : Field := ⟨.asc, 0xC, 28, 28, .ro, 0, .any, 1, 4⟩
/-- ASC_STATUS (0xC) [27] JOIN_OPEN (spec/11_associations_and_contexts.md). -/
def ASC_STATUS.JOIN_OPEN : Field := ⟨.asc, 0xC, 27, 27, .ro, 0, .any, 1, 4⟩
/-- ASC_STATUS (0xC) [26] BKEY_PENDING (spec/11_associations_and_contexts.md). -/
def ASC_STATUS.BKEY_PENDING : Field := ⟨.asc, 0xC, 26, 26, .ro, 0, .any, 1, 4⟩
/-- ASC_STATUS (0xC) [25] PARKED_FULL (spec/11_associations_and_contexts.md). -/
def ASC_STATUS.PARKED_FULL : Field := ⟨.asc, 0xC, 25, 25, .ro, 0, .any, 1, 4⟩

/-- ASC_CFG (0x100) [31] JOIN_EN (spec/11_associations_and_contexts.md). -/
def ASC_CFG.JOIN_EN : Field := ⟨.asc, 0x100, 31, 31, .rw, 0, .any, 1, 4⟩
/-- ASC_CFG (0x100) [30] PARK_ON_TIMEOUT (spec/11_associations_and_contexts.md). -/
def ASC_CFG.PARK_ON_TIMEOUT : Field := ⟨.asc, 0x100, 30, 30, .rw, 0, .any, 1, 4⟩
/-- ASC_CFG (0x100) [29] FWD_JOIN (spec/11_associations_and_contexts.md). -/
def ASC_CFG.FWD_JOIN : Field := ⟨.asc, 0x100, 29, 29, .rw, 0, .any, 1, 4⟩
/-- ASC_CFG (0x100) [28] KEY256 (spec/11_associations_and_contexts.md). -/
def ASC_CFG.KEY256 : Field := ⟨.asc, 0x100, 28, 28, .rw, 0, .any, 1, 4⟩
/-- ASC_CFG (0x100) [23:16] REKEY_HOLD (spec/11_associations_and_contexts.md). -/
def ASC_CFG.REKEY_HOLD : Field := ⟨.asc, 0x100, 23, 16, .rw, 0x10, (.range 1 255), 1, 4⟩
/-- ASC_CFG (0x100) [12:0] SUP_DEFAULT (spec/11_associations_and_contexts.md). -/
def ASC_CFG.SUP_DEFAULT : Field := ⟨.asc, 0x100, 12, 0, .rw, 0x20, (.range 4 4096), 1, 4⟩

/-- ASC_DEFER (0x104) [15:0] HOLD (spec/11_associations_and_contexts.md). -/
def ASC_DEFER.HOLD : Field := ⟨.asc, 0x104, 15, 0, .rw, 0x100, (.range 8 65535), 1, 4⟩

/-- ASC_REKEY (0x108) [23:0] PERIOD (spec/11_associations_and_contexts.md). -/
def ASC_REKEY.PERIOD : Field := ⟨.asc, 0x108, 23, 0, .rw, 0, .any, 1, 4⟩

/-- ASC_LIVE (0x10C) [24:0] COUNT (spec/11_associations_and_contexts.md). -/
def ASC_LIVE.COUNT : Field := ⟨.asc, 0x10C, 24, 0, .ro, 0, .any, 1, 4⟩

/-- ASC_JOINING (0x110) [24:0] COUNT (spec/11_associations_and_contexts.md). -/
def ASC_JOINING.COUNT : Field := ⟨.asc, 0x110, 24, 0, .ro, 0, .any, 1, 4⟩

/-- ASC_PARKED (0x114) [24:0] COUNT (spec/11_associations_and_contexts.md). -/
def ASC_PARKED.COUNT : Field := ⟨.asc, 0x114, 24, 0, .ro, 0, .any, 1, 4⟩

/-- ASC_RESULT (0x118) [31] PARKED (spec/11_associations_and_contexts.md). -/
def ASC_RESULT.PARKED : Field := ⟨.asc, 0x118, 31, 31, .ro, 0, .any, 1, 4⟩
/-- ASC_RESULT (0x118) [24:0] INDEX (spec/11_associations_and_contexts.md). -/
def ASC_RESULT.INDEX : Field := ⟨.asc, 0x118, 24, 0, .ro, 0, .any, 1, 4⟩

/-- ASC_BKEY (0x11C) [2:0] GEN (spec/11_associations_and_contexts.md). -/
def ASC_BKEY.GEN : Field := ⟨.asc, 0x11C, 2, 0, .ro, 0, .any, 1, 4⟩

/-- ASC_JOIN_CNT (0x120) [31:0] COUNT (spec/11_associations_and_contexts.md). -/
def ASC_JOIN_CNT.COUNT : Field := ⟨.asc, 0x120, 31, 0, .rc, 0, .any, 1, 4⟩

/-- ASC_DEFER_CNT (0x124) [31:0] COUNT (spec/11_associations_and_contexts.md). -/
def ASC_DEFER_CNT.COUNT : Field := ⟨.asc, 0x124, 31, 0, .rc, 0, .any, 1, 4⟩

/-- ASC_REJECT_CNT (0x128) [31:0] COUNT (spec/11_associations_and_contexts.md). -/
def ASC_REJECT_CNT.COUNT : Field := ⟨.asc, 0x128, 31, 0, .rc, 0, .any, 1, 4⟩

/-- ASC_EXPIRE_CNT (0x12C) [31:0] COUNT (spec/11_associations_and_contexts.md). -/
def ASC_EXPIRE_CNT.COUNT : Field := ⟨.asc, 0x12C, 31, 0, .rc, 0, .any, 1, 4⟩

/-- ASC_REPLAY_CNT (0x130) [31:0] COUNT (spec/11_associations_and_contexts.md). -/
def ASC_REPLAY_CNT.COUNT : Field := ⟨.asc, 0x130, 31, 0, .rc, 0, .any, 1, 4⟩

/-- ASC_AUTH_FAIL_CNT (0x134) [31:0] COUNT (spec/11_associations_and_contexts.md). -/
def ASC_AUTH_FAIL_CNT.COUNT : Field := ⟨.asc, 0x134, 31, 0, .rc, 0, .any, 1, 4⟩

/-- ASC_MALFORMED_CNT (0x138) [31:0] COUNT (spec/11_associations_and_contexts.md). -/
def ASC_MALFORMED_CNT.COUNT : Field := ⟨.asc, 0x138, 31, 0, .rc, 0, .any, 1, 4⟩

/-- ASC_CACHE_MISS_CNT (0x13C) [31:0] COUNT (spec/11_associations_and_contexts.md). -/
def ASC_CACHE_MISS_CNT.COUNT : Field := ⟨.asc, 0x13C, 31, 0, .rc, 0, .any, 1, 4⟩

/-- RPT_STATUS (0xC) [28] PARENT_ACTIVE (spec/12_repeating_and_trees.md). -/
def RPT_STATUS.PARENT_ACTIVE : Field := ⟨.rpt, 0xC, 28, 28, .ro, 0, .any, 1, 4⟩
/-- RPT_STATUS (0xC) [27] ROLE_PENDING (spec/12_repeating_and_trees.md). -/
def RPT_STATUS.ROLE_PENDING : Field := ⟨.rpt, 0xC, 27, 27, .ro, 0, .any, 1, 4⟩
/-- RPT_STATUS (0xC) [26:21] DEPTH (spec/12_repeating_and_trees.md). -/
def RPT_STATUS.DEPTH : Field := ⟨.rpt, 0xC, 26, 21, .ro, 0, .any, 1, 4⟩

/-- RPT_CFG (0x100) [31] FLOOD_EN (spec/12_repeating_and_trees.md). -/
def RPT_CFG.FLOOD_EN : Field := ⟨.rpt, 0x100, 31, 31, .rw, 1, .any, 1, 4⟩
/-- RPT_CFG (0x100) [30] BB_RELAY_EN (spec/12_repeating_and_trees.md). -/
def RPT_CFG.BB_RELAY_EN : Field := ⟨.rpt, 0x100, 30, 30, .rw, 1, .any, 1, 4⟩
/-- RPT_CFG (0x100) [29] AUTO_ROUTE (spec/12_repeating_and_trees.md). -/
def RPT_CFG.AUTO_ROUTE : Field := ⟨.rpt, 0x100, 29, 29, .rw, 1, .any, 1, 4⟩

/-- RPT_TREE (0x104) [31:30] ROLE (spec/12_repeating_and_trees.md). -/
def RPT_TREE.ROLE : Field := ⟨.rpt, 0x104, 31, 30, .rw, 0, (.range 0 2), 1, 4⟩
/-- RPT_TREE (0x104) [29:28] UP_IF (spec/12_repeating_and_trees.md). -/
def RPT_TREE.UP_IF : Field := ⟨.rpt, 0x104, 29, 28, .rw, 0, (.range 0 2), 1, 4⟩
/-- RPT_TREE (0x104) [25:20] UP_PORT (spec/12_repeating_and_trees.md). -/
def RPT_TREE.UP_PORT : Field := ⟨.rpt, 0x104, 25, 20, .rw, 0x30, (.range 48 51), 1, 4⟩
/-- RPT_TREE (0x104) [19:18] UP_LANE (spec/12_repeating_and_trees.md). -/
def RPT_TREE.UP_LANE : Field := ⟨.rpt, 0x104, 19, 18, .rw, 0, .any, 1, 4⟩
/-- RPT_TREE (0x104) [7:0] WAIT (spec/12_repeating_and_trees.md). -/
def RPT_TREE.WAIT : Field := ⟨.rpt, 0x104, 7, 0, .rw, 0x3C, .any, 1, 4⟩

/-- RPT_PARENT (0x108) [31] ACTIVE (spec/12_repeating_and_trees.md). -/
def RPT_PARENT.ACTIVE : Field := ⟨.rpt, 0x108, 31, 31, .ro, 0, .any, 1, 4⟩
/-- RPT_PARENT (0x108) [30] BEACON_OK (spec/12_repeating_and_trees.md). -/
def RPT_PARENT.BEACON_OK : Field := ⟨.rpt, 0x108, 30, 30, .ro, 0, .any, 1, 4⟩
/-- RPT_PARENT (0x108) [25:20] PARENT_DEPTH (spec/12_repeating_and_trees.md). -/
def RPT_PARENT.PARENT_DEPTH : Field := ⟨.rpt, 0x108, 25, 20, .ro, 0, .any, 1, 4⟩
/-- RPT_PARENT (0x108) [19:0] INDEX (spec/12_repeating_and_trees.md). -/
def RPT_PARENT.INDEX : Field := ⟨.rpt, 0x108, 19, 0, .ro, 0, .any, 1, 4⟩

/-- RPT_SF_OFFSET (0x10C) [31] VALID (spec/12_repeating_and_trees.md). -/
def RPT_SF_OFFSET.VALID : Field := ⟨.rpt, 0x10C, 31, 31, .ro, 0, .any, 1, 4⟩
/-- RPT_SF_OFFSET (0x10C) [27:0] OFFSET (spec/12_repeating_and_trees.md). -/
def RPT_SF_OFFSET.OFFSET : Field := ⟨.rpt, 0x10C, 27, 0, .ro, 0, .any, 1, 4⟩

/-- RPT_ROUTE_SEL (0x110) [19:0] INDEX (spec/12_repeating_and_trees.md). -/
def RPT_ROUTE_SEL.INDEX : Field := ⟨.rpt, 0x110, 19, 0, .rw, 0, .any, 1, 4⟩

/-- RPT_ROUTE_STATE (0x114) [31:0] ENTRY (spec/12_repeating_and_trees.md). -/
def RPT_ROUTE_STATE.ENTRY : Field := ⟨.rpt, 0x114, 31, 0, .ro, 0, .any, 1, 4⟩

/-- RPT_ROUTE_NEXT (0x118) [31:0] ENTRY (spec/12_repeating_and_trees.md). -/
def RPT_ROUTE_NEXT.ENTRY : Field := ⟨.rpt, 0x118, 31, 0, .ro, 0, .any, 1, 4⟩

/-- RPT_FLOOD_TX_CNT (0x11C) [31:0] COUNT (spec/12_repeating_and_trees.md). -/
def RPT_FLOOD_TX_CNT.COUNT : Field := ⟨.rpt, 0x11C, 31, 0, .rc, 0, .any, 1, 4⟩

/-- RPT_FLOOD_RX_CNT (0x120) [31:0] COUNT (spec/12_repeating_and_trees.md). -/
def RPT_FLOOD_RX_CNT.COUNT : Field := ⟨.rpt, 0x120, 31, 0, .rc, 0, .any, 1, 4⟩

/-- RPT_FLOOD_DUP_CNT (0x124) [31:0] COUNT (spec/12_repeating_and_trees.md). -/
def RPT_FLOOD_DUP_CNT.COUNT : Field := ⟨.rpt, 0x124, 31, 0, .rc, 0, .any, 1, 4⟩

/-- RPT_RELAY_FWD_CNT (0x128) [31:0] COUNT (spec/12_repeating_and_trees.md). -/
def RPT_RELAY_FWD_CNT.COUNT : Field := ⟨.rpt, 0x128, 31, 0, .rc, 0, .any, 1, 4⟩

/-- RPT_HOP_LIMIT_CNT (0x12C) [31:0] COUNT (spec/12_repeating_and_trees.md). -/
def RPT_HOP_LIMIT_CNT.COUNT : Field := ⟨.rpt, 0x12C, 31, 0, .rc, 0, .any, 1, 4⟩

/-- RPT_ROUTE_MISS_CNT (0x130) [31:0] COUNT (spec/12_repeating_and_trees.md). -/
def RPT_ROUTE_MISS_CNT.COUNT : Field := ⟨.rpt, 0x130, 31, 0, .rc, 0, .any, 1, 4⟩

/-- RPT_TREE_FWD_CNT (0x134) [31:0] COUNT (spec/12_repeating_and_trees.md). -/
def RPT_TREE_FWD_CNT.COUNT : Field := ⟨.rpt, 0x134, 31, 0, .rc, 0, .any, 1, 4⟩

/-- ENG_STATUS (0xC) [28] UCODE_LOADED (spec/13_tone_engines.md). -/
def ENG_STATUS.UCODE_LOADED : Field := ⟨.eng, 0xC, 28, 28, .ro, 0, .any, 1, 4⟩
/-- ENG_STATUS (0xC) [27] POOL (spec/13_tone_engines.md). -/
def ENG_STATUS.POOL : Field := ⟨.eng, 0xC, 27, 27, .ro, 0, .any, 1, 4⟩
/-- ENG_STATUS (0xC) [26:22] GROUP (spec/13_tone_engines.md). -/
def ENG_STATUS.GROUP : Field := ⟨.eng, 0xC, 26, 22, .ro, 0, .any, 1, 4⟩
/-- ENG_STATUS (0xC) [21] LDPC_ON (spec/13_tone_engines.md). -/
def ENG_STATUS.LDPC_ON : Field := ⟨.eng, 0xC, 21, 21, .ro, 0, .any, 1, 4⟩
/-- ENG_STATUS (0xC) [20:18] FAULT_CAUSE (spec/13_tone_engines.md). -/
def ENG_STATUS.FAULT_CAUSE : Field := ⟨.eng, 0xC, 20, 18, .ro, 0, .any, 1, 4⟩

/-- ENG_ROLE_LO (0x100) [31:0] ROLES (spec/13_tone_engines.md). -/
def ENG_ROLE_LO.ROLES : Field := ⟨.eng, 0x100, 31, 0, .ro, 0, .any, 1, 4⟩

/-- ENG_ROLE_HI (0x104) [31:0] ROLES (spec/13_tone_engines.md). -/
def ENG_ROLE_HI.ROLES : Field := ⟨.eng, 0x104, 31, 0, .ro, 0, .any, 1, 4⟩

/-- ENG_AWAKE (0x108) [31:16] BUSY (spec/13_tone_engines.md). -/
def ENG_AWAKE.BUSY : Field := ⟨.eng, 0x108, 31, 16, .ro, 0, .any, 1, 4⟩
/-- ENG_AWAKE (0x108) [15:0] AWAKE (spec/13_tone_engines.md). -/
def ENG_AWAKE.AWAKE : Field := ⟨.eng, 0x108, 15, 0, .ro, 0, .any, 1, 4⟩

/-- ENG_LOAD (0x10C) [31:24] NB_OPEN (spec/13_tone_engines.md). -/
def ENG_LOAD.NB_OPEN : Field := ⟨.eng, 0x10C, 31, 24, .ro, 0, .any, 1, 4⟩
/-- ENG_LOAD (0x10C) [23:16] BB_OPEN (spec/13_tone_engines.md). -/
def ENG_LOAD.BB_OPEN : Field := ⟨.eng, 0x10C, 23, 16, .ro, 0, .any, 1, 4⟩
/-- ENG_LOAD (0x10C) [15:8] TX_LIVE (spec/13_tone_engines.md). -/
def ENG_LOAD.TX_LIVE : Field := ⟨.eng, 0x10C, 15, 8, .ro, 0, .any, 1, 4⟩

/-- ENG_CFG (0x110) [15:8] IDLE_HOLD (spec/13_tone_engines.md). -/
def ENG_CFG.IDLE_HOLD : Field := ⟨.eng, 0x110, 15, 8, .rw, 0x64, (.range 20 255), 1, 4⟩
/-- ENG_CFG (0x110) [1] STANDBY_BB (spec/13_tone_engines.md). -/
def ENG_CFG.STANDBY_BB : Field := ⟨.eng, 0x110, 1, 1, .rw, 1, .any, 1, 4⟩
/-- ENG_CFG (0x110) [0] STANDBY_NB (spec/13_tone_engines.md). -/
def ENG_CFG.STANDBY_NB : Field := ⟨.eng, 0x110, 0, 0, .rw, 1, .any, 1, 4⟩

/-- ENG_UCODE (0x114) [31:24] MAJOR (spec/13_tone_engines.md). -/
def ENG_UCODE.MAJOR : Field := ⟨.eng, 0x114, 31, 24, .ro, 0, .any, 1, 4⟩
/-- ENG_UCODE (0x114) [23:16] MINOR (spec/13_tone_engines.md). -/
def ENG_UCODE.MINOR : Field := ⟨.eng, 0x114, 23, 16, .ro, 0, .any, 1, 4⟩
/-- ENG_UCODE (0x114) [15:0] IFACE (spec/13_tone_engines.md). -/
def ENG_UCODE.IFACE : Field := ⟨.eng, 0x114, 15, 0, .ro, 0, .any, 1, 4⟩

/-- ENG_BURST_RX_CNT (0x118) [31:0] COUNT (spec/13_tone_engines.md). -/
def ENG_BURST_RX_CNT.COUNT : Field := ⟨.eng, 0x118, 31, 0, .rc, 0, .any, 1, 4⟩

/-- ENG_BURST_TX_CNT (0x11C) [31:0] COUNT (spec/13_tone_engines.md). -/
def ENG_BURST_TX_CNT.COUNT : Field := ⟨.eng, 0x11C, 31, 0, .rc, 0, .any, 1, 4⟩

/-- ENG_DETECT_DROP_CNT (0x120) [31:0] COUNT (spec/13_tone_engines.md). -/
def ENG_DETECT_DROP_CNT.COUNT : Field := ⟨.eng, 0x120, 31, 0, .rc, 0, .any, 1, 4⟩

/-- ENG_OVERFLOW_CNT (0x124) [31:0] COUNT (spec/13_tone_engines.md). -/
def ENG_OVERFLOW_CNT.COUNT : Field := ⟨.eng, 0x124, 31, 0, .rc, 0, .any, 1, 4⟩

/-- ENG_LDPC_CW_CNT (0x128) [31:0] COUNT (spec/13_tone_engines.md). -/
def ENG_LDPC_CW_CNT.COUNT : Field := ⟨.eng, 0x128, 31, 0, .rc, 0, .any, 1, 4⟩

/-- ENG_CTX_FREE (0x180) [29:16] LOW (spec/13_tone_engines.md). -/
def ENG_CTX_FREE.LOW : Field := ⟨.eng, 0x180, 29, 16, .rc, 0x2000, .any, 1, 4⟩
/-- ENG_CTX_FREE (0x180) [13:0] FREE (spec/13_tone_engines.md). -/
def ENG_CTX_FREE.FREE : Field := ⟨.eng, 0x180, 13, 0, .ro, 0x2000, .any, 1, 4⟩

/-- ENG_CTX_USE (0x184) [29:16] HELD (spec/13_tone_engines.md). -/
def ENG_CTX_USE.HELD : Field := ⟨.eng, 0x184, 29, 16, .ro, 0, .any, 1, 4⟩
/-- ENG_CTX_USE (0x184) [13:0] OPEN (spec/13_tone_engines.md). -/
def ENG_CTX_USE.OPEN : Field := ⟨.eng, 0x184, 13, 0, .ro, 0, .any, 1, 4⟩

/-- ENG_CTX_RSV (0x188) [12:0] TX_RESERVE (spec/13_tone_engines.md). -/
def ENG_CTX_RSV.TX_RESERVE : Field := ⟨.eng, 0x188, 12, 0, .rw, 0x450, (.range 0 4096), 1, 4⟩

/-- ENG_NOCTX_RX_CNT (0x18C) [31:0] COUNT (spec/13_tone_engines.md). -/
def ENG_NOCTX_RX_CNT.COUNT : Field := ⟨.eng, 0x18C, 31, 0, .rc, 0, .any, 1, 4⟩

/-- ENG_NOCTX_TX_CNT (0x190) [31:0] COUNT (spec/13_tone_engines.md). -/
def ENG_NOCTX_TX_CNT.COUNT : Field := ⟨.eng, 0x190, 31, 0, .rc, 0, .any, 1, 4⟩

/-- ENG_CTX_SEL (0x194) [12:0] ID (spec/13_tone_engines.md). -/
def ENG_CTX_SEL.ID : Field := ⟨.eng, 0x194, 12, 0, .rw, 0, .any, 1, 4⟩

/-- ENG_CTX_STATE (0x198) [31:29] STATE (spec/13_tone_engines.md). -/
def ENG_CTX_STATE.STATE : Field := ⟨.eng, 0x198, 31, 29, .ro, 0, .any, 1, 4⟩
/-- ENG_CTX_STATE (0x198) [28:27] WAVE (spec/13_tone_engines.md). -/
def ENG_CTX_STATE.WAVE : Field := ⟨.eng, 0x198, 28, 27, .ro, 0, .any, 1, 4⟩
/-- ENG_CTX_STATE (0x198) [26] DIR (spec/13_tone_engines.md). -/
def ENG_CTX_STATE.DIR : Field := ⟨.eng, 0x198, 26, 26, .ro, 0, .any, 1, 4⟩
/-- ENG_CTX_STATE (0x198) [23:16] GEN (spec/13_tone_engines.md). -/
def ENG_CTX_STATE.GEN : Field := ⟨.eng, 0x198, 23, 16, .ro, 0, .any, 1, 4⟩
/-- ENG_CTX_STATE (0x198) [15:0] AGE (spec/13_tone_engines.md). -/
def ENG_CTX_STATE.AGE : Field := ⟨.eng, 0x198, 15, 0, .ro, 0, .any, 1, 4⟩

/-- BQ_STATUS (0xC) [28] CFG_PENDING (spec/14_burst_queues.md). -/
def BQ_STATUS.CFG_PENDING : Field := ⟨.bq, 0xC, 28, 28, .ro, 0, .any, 1, 4⟩
/-- BQ_STATUS (0xC) [27] BB_NONE_FREE (spec/14_burst_queues.md). -/
def BQ_STATUS.BB_NONE_FREE : Field := ⟨.bq, 0xC, 27, 27, .ro, 0, .any, 1, 4⟩

/-- BQ_CFG (0x100) [31] NB_EARLY (spec/14_burst_queues.md). -/
def BQ_CFG.NB_EARLY : Field := ⟨.bq, 0x100, 31, 31, .rw, 0, .any, 1, 4⟩
/-- BQ_CFG (0x100) [1:0] BB_RING (spec/14_burst_queues.md). -/
def BQ_CFG.BB_RING : Field := ⟨.bq, 0x100, 1, 0, .rw, 1, .any, 1, 4⟩

/-- BQ_RINGS (0x104) [27:16] BB_TOTAL (spec/14_burst_queues.md). -/
def BQ_RINGS.BB_TOTAL : Field := ⟨.bq, 0x104, 27, 16, .ro, 0x400, .any, 1, 4⟩
/-- BQ_RINGS (0x104) [11:0] BB_FREE (spec/14_burst_queues.md). -/
def BQ_RINGS.BB_FREE : Field := ⟨.bq, 0x104, 11, 0, .ro, 0x400, .any, 1, 4⟩

/-- BQ_SEL (0x108) [12:0] ID (spec/14_burst_queues.md). -/
def BQ_SEL.ID : Field := ⟨.bq, 0x108, 12, 0, .rw, 0, .any, 1, 4⟩

/-- BQ_Q_STATE (0x10C) [31] OPEN (spec/14_burst_queues.md). -/
def BQ_Q_STATE.OPEN : Field := ⟨.bq, 0x10C, 31, 31, .ro, 0, .any, 1, 4⟩
/-- BQ_Q_STATE (0x10C) [30] BB (spec/14_burst_queues.md). -/
def BQ_Q_STATE.BB : Field := ⟨.bq, 0x10C, 30, 30, .ro, 0, .any, 1, 4⟩
/-- BQ_Q_STATE (0x10C) [29] MARK_VALID (spec/14_burst_queues.md). -/
def BQ_Q_STATE.MARK_VALID : Field := ⟨.bq, 0x10C, 29, 29, .ro, 0, .any, 1, 4⟩
/-- BQ_Q_STATE (0x10C) [28] MARK_LOST (spec/14_burst_queues.md). -/
def BQ_Q_STATE.MARK_LOST : Field := ⟨.bq, 0x10C, 28, 28, .ro, 0, .any, 1, 4⟩
/-- BQ_Q_STATE (0x10C) [27] OVERRUN (spec/14_burst_queues.md). -/
def BQ_Q_STATE.OVERRUN : Field := ⟨.bq, 0x10C, 27, 27, .ro, 0, .any, 1, 4⟩
/-- BQ_Q_STATE (0x10C) [26] TRAILER (spec/14_burst_queues.md). -/
def BQ_Q_STATE.TRAILER : Field := ⟨.bq, 0x10C, 26, 26, .ro, 0, .any, 1, 4⟩
/-- BQ_Q_STATE (0x10C) [25] REDECODE (spec/14_burst_queues.md). -/
def BQ_Q_STATE.REDECODE : Field := ⟨.bq, 0x10C, 25, 25, .ro, 0, .any, 1, 4⟩
/-- BQ_Q_STATE (0x10C) [23:16] GEN (spec/14_burst_queues.md). -/
def BQ_Q_STATE.GEN : Field := ⟨.bq, 0x10C, 23, 16, .ro, 0, .any, 1, 4⟩
/-- BQ_Q_STATE (0x10C) [13:11] PACKED (spec/14_burst_queues.md). -/
def BQ_Q_STATE.PACKED : Field := ⟨.bq, 0x10C, 13, 11, .ro, 0, .any, 1, 4⟩
/-- BQ_Q_STATE (0x10C) [10:0] CAP (spec/14_burst_queues.md). -/
def BQ_Q_STATE.CAP : Field := ⟨.bq, 0x10C, 10, 0, .ro, 0, .any, 1, 4⟩

/-- BQ_Q_WR (0x110) [27:16] UPPER (spec/14_burst_queues.md). -/
def BQ_Q_WR.UPPER : Field := ⟨.bq, 0x110, 27, 16, .ro, 0, .any, 1, 4⟩
/-- BQ_Q_WR (0x110) [11:0] LOWER (spec/14_burst_queues.md). -/
def BQ_Q_WR.LOWER : Field := ⟨.bq, 0x110, 11, 0, .ro, 0, .any, 1, 4⟩

/-- BQ_Q_RD (0x114) [27:16] UPPER (spec/14_burst_queues.md). -/
def BQ_Q_RD.UPPER : Field := ⟨.bq, 0x114, 27, 16, .ro, 0, .any, 1, 4⟩
/-- BQ_Q_RD (0x114) [11:0] LOWER (spec/14_burst_queues.md). -/
def BQ_Q_RD.LOWER : Field := ⟨.bq, 0x114, 11, 0, .ro, 0, .any, 1, 4⟩

/-- BQ_OVERRUN_CNT (0x118) [31:0] COUNT (spec/14_burst_queues.md). -/
def BQ_OVERRUN_CNT.COUNT : Field := ⟨.bq, 0x118, 31, 0, .rc, 0, .any, 1, 4⟩

/-- BQ_NORING_CNT (0x11C) [31:0] COUNT (spec/14_burst_queues.md). -/
def BQ_NORING_CNT.COUNT : Field := ⟨.bq, 0x11C, 31, 0, .rc, 0, .any, 1, 4⟩

/-- BQ_REWIND_FAIL_CNT (0x120) [31:0] COUNT (spec/14_burst_queues.md). -/
def BQ_REWIND_FAIL_CNT.COUNT : Field := ⟨.bq, 0x120, 31, 0, .rc, 0, .any, 1, 4⟩

/-- BQ_REDECODE_CNT (0x124) [31:0] COUNT (spec/14_burst_queues.md). -/
def BQ_REDECODE_CNT.COUNT : Field := ⟨.bq, 0x124, 31, 0, .rc, 0, .any, 1, 4⟩

/-- MEM_STATUS (0xC) [28] ARB_NORMAL (spec/15_memory_banks.md). -/
def MEM_STATUS.ARB_NORMAL : Field := ⟨.mem, 0xC, 28, 28, .ro, 0, .any, 1, 4⟩
/-- MEM_STATUS (0xC) [27] BADGER_RUN (spec/15_memory_banks.md). -/
def MEM_STATUS.BADGER_RUN : Field := ⟨.mem, 0xC, 27, 27, .ro, 0, .any, 1, 4⟩
/-- MEM_STATUS (0xC) [26] FUSE_BUSY (spec/15_memory_banks.md). -/
def MEM_STATUS.FUSE_BUSY : Field := ⟨.mem, 0xC, 26, 26, .ro, 0, .any, 1, 4⟩

/-- MEM_WIN (0x100) [4:0] BASE (spec/15_memory_banks.md). -/
def MEM_WIN.BASE : Field := ⟨.mem, 0x100, 4, 0, .rw, 0x10, (.range 0 16), 1, 4⟩

/-- MEM_BADGER (0x104) [31] EN (spec/15_memory_banks.md). -/
def MEM_BADGER.EN : Field := ⟨.mem, 0x104, 31, 31, .rw, 1, .any, 1, 4⟩
/-- MEM_BADGER (0x104) [30] AUTO_REPAIR (spec/15_memory_banks.md). -/
def MEM_BADGER.AUTO_REPAIR : Field := ⟨.mem, 0x104, 30, 30, .rw, 1, .any, 1, 4⟩
/-- MEM_BADGER (0x104) [23:17] LAST_BANK (spec/15_memory_banks.md). -/
def MEM_BADGER.LAST_BANK : Field := ⟨.mem, 0x104, 23, 17, .rw, 0x7F, .any, 1, 4⟩
/-- MEM_BADGER (0x104) [16:10] FIRST_BANK (spec/15_memory_banks.md). -/
def MEM_BADGER.FIRST_BANK : Field := ⟨.mem, 0x104, 16, 10, .rw, 0, .any, 1, 4⟩
/-- MEM_BADGER (0x104) [9:0] INTERVAL (spec/15_memory_banks.md). -/
def MEM_BADGER.INTERVAL : Field := ⟨.mem, 0x104, 9, 0, .rw, 0xA, (.range 1 1023), 1, 4⟩

/-- MEM_BADGER_POS (0x108) [31:16] PASSES (spec/15_memory_banks.md). -/
def MEM_BADGER_POS.PASSES : Field := ⟨.mem, 0x108, 31, 16, .ro, 0, .any, 1, 4⟩
/-- MEM_BADGER_POS (0x108) [15:9] BANK (spec/15_memory_banks.md). -/
def MEM_BADGER_POS.BANK : Field := ⟨.mem, 0x108, 15, 9, .ro, 0, .any, 1, 4⟩
/-- MEM_BADGER_POS (0x108) [8:0] STRIPE (spec/15_memory_banks.md). -/
def MEM_BADGER_POS.STRIPE : Field := ⟨.mem, 0x108, 8, 0, .ro, 0, .any, 1, 4⟩

/-- MEM_BADGER_LAST_FAIL (0x10C) [31:25] BANK (spec/15_memory_banks.md). -/
def MEM_BADGER_LAST_FAIL.BANK : Field := ⟨.mem, 0x10C, 31, 25, .ro, 0, .any, 1, 4⟩
/-- MEM_BADGER_LAST_FAIL (0x10C) [24:10] WORD (spec/15_memory_banks.md). -/
def MEM_BADGER_LAST_FAIL.WORD : Field := ⟨.mem, 0x10C, 24, 10, .ro, 0, .any, 1, 4⟩
/-- MEM_BADGER_LAST_FAIL (0x10C) [6:0] BIT (spec/15_memory_banks.md). -/
def MEM_BADGER_LAST_FAIL.BIT : Field := ⟨.mem, 0x10C, 6, 0, .ro, 0, .any, 1, 4⟩

/-- MEM_BADGER_YIELD_CNT (0x110) [31:0] COUNT (spec/15_memory_banks.md). -/
def MEM_BADGER_YIELD_CNT.COUNT : Field := ⟨.mem, 0x110, 31, 0, .rc, 0, .any, 1, 4⟩

/-- MEM_BADGER_SKIP_CNT (0x114) [31:0] COUNT (spec/15_memory_banks.md). -/
def MEM_BADGER_SKIP_CNT.COUNT : Field := ⟨.mem, 0x114, 31, 0, .rc, 0, .any, 1, 4⟩

/-- MEM_BADGER_FAIL_CNT (0x118) [31:0] COUNT (spec/15_memory_banks.md). -/
def MEM_BADGER_FAIL_CNT.COUNT : Field := ⟨.mem, 0x118, 31, 0, .rc, 0, .any, 1, 4⟩

/-- MEM_DRAM_CE_CNT (0x11C) [31:0] COUNT (spec/15_memory_banks.md). -/
def MEM_DRAM_CE_CNT.COUNT : Field := ⟨.mem, 0x11C, 31, 0, .rc, 0, .any, 1, 4⟩

/-- MEM_DRAM_UE_CNT (0x120) [31:0] COUNT (spec/15_memory_banks.md). -/
def MEM_DRAM_UE_CNT.COUNT : Field := ⟨.mem, 0x120, 31, 0, .rc, 0, .any, 1, 4⟩

/-- MEM_CNT_SEL (0x124) [5:0] MASTER (spec/15_memory_banks.md). -/
def MEM_CNT_SEL.MASTER : Field := ⟨.mem, 0x124, 5, 0, .rw, 0, (.range 0 55), 1, 4⟩

/-- MEM_CNT_WAIT (0x128) [31:0] COUNT (spec/15_memory_banks.md). -/
def MEM_CNT_WAIT.COUNT : Field := ⟨.mem, 0x128, 31, 0, .ro, 0, .any, 1, 4⟩

/-- MEM_CNT_BUSY (0x12C) [31:0] COUNT (spec/15_memory_banks.md). -/
def MEM_CNT_BUSY.COUNT : Field := ⟨.mem, 0x12C, 31, 0, .ro, 0, .any, 1, 4⟩

/-- MEM_FUSE_REQ (0x130) [31] ARM (spec/15_memory_banks.md). -/
def MEM_FUSE_REQ.ARM : Field := ⟨.mem, 0x130, 31, 31, .rwp, 0, .any, 1, 4⟩
/-- MEM_FUSE_REQ (0x130) [15:9] BANK (spec/15_memory_banks.md). -/
def MEM_FUSE_REQ.BANK : Field := ⟨.mem, 0x130, 15, 9, .rwp, 0, .any, 1, 4⟩
/-- MEM_FUSE_REQ (0x130) [8] SPARE (spec/15_memory_banks.md). -/
def MEM_FUSE_REQ.SPARE : Field := ⟨.mem, 0x130, 8, 8, .rwp, 0, .any, 1, 4⟩
/-- MEM_FUSE_REQ (0x130) [6:0] COLUMN (spec/15_memory_banks.md). -/
def MEM_FUSE_REQ.COLUMN : Field := ⟨.mem, 0x130, 6, 0, .rwp, 0, (.range 0 71), 1, 4⟩

/-- MEM_FUSE_STAT (0x134) [1:0] RESULT (spec/15_memory_banks.md). -/
def MEM_FUSE_STAT.RESULT : Field := ⟨.mem, 0x134, 1, 0, .ro, 0, .any, 1, 4⟩

/-- MEMB_STATUS (0xC) [28:27] POWER (spec/15_memory_banks.md). -/
def MEMB_STATUS.POWER : Field := ⟨.memb, 0xC, 28, 27, .ro, 0, .any, 1, 4⟩
/-- MEMB_STATUS (0xC) [26:24] FAULT_CAUSE (spec/15_memory_banks.md). -/
def MEMB_STATUS.FAULT_CAUSE : Field := ⟨.memb, 0xC, 26, 24, .ro, 0, .any, 1, 4⟩

/-- MEMB_POWER (0x100) [1:0] STATE (spec/15_memory_banks.md). -/
def MEMB_POWER.STATE : Field := ⟨.memb, 0x100, 1, 0, .rw, 0, (.range 0 2), 1, 4⟩

/-- MEMB_REPAIR (0x104) [31:16] SPARE1 (spec/15_memory_banks.md). -/
def MEMB_REPAIR.SPARE1 : Field := ⟨.memb, 0x104, 31, 16, .ro, 0, .any, 1, 4⟩
/-- MEMB_REPAIR (0x104) [15] SPARE0_USED (spec/15_memory_banks.md). -/
def MEMB_REPAIR.SPARE0_USED : Field := ⟨.memb, 0x104, 15, 15, .ro, 0, .any, 1, 4⟩
/-- MEMB_REPAIR (0x104) [14] SPARE0_FUSED (spec/15_memory_banks.md). -/
def MEMB_REPAIR.SPARE0_FUSED : Field := ⟨.memb, 0x104, 14, 14, .ro, 0, .any, 1, 4⟩
/-- MEMB_REPAIR (0x104) [6:0] SPARE0_COLUMN (spec/15_memory_banks.md). -/
def MEMB_REPAIR.SPARE0_COLUMN : Field := ⟨.memb, 0x104, 6, 0, .ro, 0, .any, 1, 4⟩

/-- MEMB_CE_CNT (0x108) [31:0] COUNT (spec/15_memory_banks.md). -/
def MEMB_CE_CNT.COUNT : Field := ⟨.memb, 0x108, 31, 0, .rc, 0, .any, 1, 4⟩

/-- MEMB_UE_CNT (0x10C) [31:0] COUNT (spec/15_memory_banks.md). -/
def MEMB_UE_CNT.COUNT : Field := ⟨.memb, 0x10C, 31, 0, .rc, 0, .any, 1, 4⟩

/-- MEMB_BUSY_CNT (0x110) [31:0] COUNT (spec/15_memory_banks.md). -/
def MEMB_BUSY_CNT.COUNT : Field := ⟨.memb, 0x110, 31, 0, .rc, 0, .any, 1, 4⟩

/-- MEMB_OFF_CNT (0x114) [31:0] COUNT (spec/15_memory_banks.md). -/
def MEMB_OFF_CNT.COUNT : Field := ⟨.memb, 0x114, 31, 0, .rc, 0, .any, 1, 4⟩

/-- MEMB_LAST_ERR (0x118) [31] UNCORR (spec/15_memory_banks.md). -/
def MEMB_LAST_ERR.UNCORR : Field := ⟨.memb, 0x118, 31, 31, .ro, 0, .any, 1, 4⟩
/-- MEMB_LAST_ERR (0x118) [21:7] WORD (spec/15_memory_banks.md). -/
def MEMB_LAST_ERR.WORD : Field := ⟨.memb, 0x118, 21, 7, .ro, 0, .any, 1, 4⟩
/-- MEMB_LAST_ERR (0x118) [6:0] BIT (spec/15_memory_banks.md). -/
def MEMB_LAST_ERR.BIT : Field := ⟨.memb, 0x118, 6, 0, .ro, 0, .any, 1, 4⟩

/-- CIP_STATUS (0xC) [28] P0_OK (spec/16_cipher_engine.md). -/
def CIP_STATUS.P0_OK : Field := ⟨.cip, 0xC, 28, 28, .ro, 0, .any, 1, 4⟩
/-- CIP_STATUS (0xC) [27] P1_OK (spec/16_cipher_engine.md). -/
def CIP_STATUS.P1_OK : Field := ⟨.cip, 0xC, 27, 27, .ro, 0, .any, 1, 4⟩
/-- CIP_STATUS (0xC) [26] P1_GATED (spec/16_cipher_engine.md). -/
def CIP_STATUS.P1_GATED : Field := ⟨.cip, 0xC, 26, 26, .ro, 0, .any, 1, 4⟩
/-- CIP_STATUS (0xC) [25] DRBG_OK (spec/16_cipher_engine.md). -/
def CIP_STATUS.DRBG_OK : Field := ⟨.cip, 0xC, 25, 25, .ro, 0, .any, 1, 4⟩
/-- CIP_STATUS (0xC) [24:22] FAULT_CAUSE (spec/16_cipher_engine.md). -/
def CIP_STATUS.FAULT_CAUSE : Field := ⟨.cip, 0xC, 24, 22, .ro, 0, .any, 1, 4⟩

/-- CIP_HOLD (0x100) [15:8] P1_SLOTS (spec/16_cipher_engine.md). -/
def CIP_HOLD.P1_SLOTS : Field := ⟨.cip, 0x100, 15, 8, .ro, 0, .any, 1, 4⟩
/-- CIP_HOLD (0x100) [7:0] P0_SLOTS (spec/16_cipher_engine.md). -/
def CIP_HOLD.P0_SLOTS : Field := ⟨.cip, 0x100, 7, 0, .ro, 0, .any, 1, 4⟩

/-- CIP_TEST_CTL (0x104) [1] LOADED (spec/16_cipher_engine.md). -/
def CIP_TEST_CTL.LOADED : Field := ⟨.cip, 0x104, 1, 1, .ro, 0, .any, 1, 4⟩
/-- CIP_TEST_CTL (0x104) [0] KEY256 (spec/16_cipher_engine.md). -/
def CIP_TEST_CTL.KEY256 : Field := ⟨.cip, 0x104, 0, 0, .rw, 0, .any, 1, 4⟩

/-- CIP_TEST_KEY (0x140) [31:0] KEY (spec/16_cipher_engine.md). -/
def CIP_TEST_KEY.KEY : Field := ⟨.cip, 0x140, 31, 0, .wo, 0, .any, 8, 4⟩

/-- CIP_JOB_CNT (0x108) [31:0] COUNT (spec/16_cipher_engine.md). -/
def CIP_JOB_CNT.COUNT : Field := ⟨.cip, 0x108, 31, 0, .rc, 0, .any, 1, 4⟩

/-- CIP_AUTH_FAIL_CNT (0x10C) [31:0] COUNT (spec/16_cipher_engine.md). -/
def CIP_AUTH_FAIL_CNT.COUNT : Field := ⟨.cip, 0x10C, 31, 0, .rc, 0, .any, 1, 4⟩

/-- CIP_REFUSE_CNT (0x110) [31:0] COUNT (spec/16_cipher_engine.md). -/
def CIP_REFUSE_CNT.COUNT : Field := ⟨.cip, 0x110, 31, 0, .rc, 0, .any, 1, 4⟩

/-- CIP_FAULT_CNT (0x114) [31:0] COUNT (spec/16_cipher_engine.md). -/
def CIP_FAULT_CNT.COUNT : Field := ⟨.cip, 0x114, 31, 0, .rc, 0, .any, 1, 4⟩

/-- CIP_KCACHE_MISS_CNT (0x118) [31:0] COUNT (spec/16_cipher_engine.md). -/
def CIP_KCACHE_MISS_CNT.COUNT : Field := ⟨.cip, 0x118, 31, 0, .rc, 0, .any, 1, 4⟩

/-- TRU_STATUS (0xC) [28:25] STATE (spec/17_timing_reference.md). -/
def TRU_STATUS.STATE : Field := ⟨.tru, 0xC, 28, 25, .ro, 3, .any, 1, 4⟩
/-- TRU_STATUS (0xC) [24:21] SELECTED (spec/17_timing_reference.md). -/
def TRU_STATUS.SELECTED : Field := ⟨.tru, 0xC, 24, 21, .ro, 0xF, .any, 1, 4⟩
/-- TRU_STATUS (0xC) [20] SWITCHING (spec/17_timing_reference.md). -/
def TRU_STATUS.SWITCHING : Field := ⟨.tru, 0xC, 20, 20, .ro, 0, .any, 1, 4⟩
/-- TRU_STATUS (0xC) [19] ALIGNED (spec/17_timing_reference.md). -/
def TRU_STATUS.ALIGNED : Field := ⟨.tru, 0xC, 19, 19, .ro, 0, .any, 1, 4⟩
/-- TRU_STATUS (0xC) [18] TE_OVER (spec/17_timing_reference.md). -/
def TRU_STATUS.TE_OVER : Field := ⟨.tru, 0xC, 18, 18, .ro, 0, .any, 1, 4⟩
/-- TRU_STATUS (0xC) [17] SLEWING (spec/17_timing_reference.md). -/
def TRU_STATUS.SLEWING : Field := ⟨.tru, 0xC, 17, 17, .ro, 0, .any, 1, 4⟩
/-- TRU_STATUS (0xC) [16] OVEN_READY (spec/17_timing_reference.md). -/
def TRU_STATUS.OVEN_READY : Field := ⟨.tru, 0xC, 16, 16, .ro, 0, .any, 1, 4⟩

/-- TRU_CFG (0x100) [31:16] TE_BUDGET (spec/17_timing_reference.md). -/
def TRU_CFG.TE_BUDGET : Field := ⟨.tru, 0x100, 31, 16, .rw, 0x64, (.range 1 65535), 1, 4⟩
/-- TRU_CFG (0x100) [15:12] MANUAL_REF (spec/17_timing_reference.md). -/
def TRU_CFG.MANUAL_REF : Field := ⟨.tru, 0x100, 15, 12, .rw, 0, (.range 0 7), 1, 4⟩
/-- TRU_CFG (0x100) [9] AUTO_ALIGN (spec/17_timing_reference.md). -/
def TRU_CFG.AUTO_ALIGN : Field := ⟨.tru, 0x100, 9, 9, .rw, 1, .any, 1, 4⟩
/-- TRU_CFG (0x100) [8] REVERT (spec/17_timing_reference.md). -/
def TRU_CFG.REVERT : Field := ⟨.tru, 0x100, 8, 8, .rw, 1, .any, 1, 4⟩
/-- TRU_CFG (0x100) [1:0] MODE (spec/17_timing_reference.md). -/
def TRU_CFG.MODE : Field := ⟨.tru, 0x100, 1, 0, .rw, 0, .any, 1, 4⟩

/-- TRU_TIMING (0x104) [31:16] HO_MIN (spec/17_timing_reference.md). -/
def TRU_TIMING.HO_MIN : Field := ⟨.tru, 0x104, 31, 16, .rw, 0x12C, (.range 60 3600), 1, 4⟩
/-- TRU_TIMING (0x104) [15:0] WTR (spec/17_timing_reference.md). -/
def TRU_TIMING.WTR : Field := ⟨.tru, 0x104, 15, 0, .rw, 0x12C, (.range 0 3600), 1, 4⟩

/-- TRU_HIST (0x108) [31:16] HO_AVG (spec/17_timing_reference.md). -/
def TRU_HIST.HO_AVG : Field := ⟨.tru, 0x108, 31, 16, .rw, 0x384, (.range 60 3600), 1, 4⟩
/-- TRU_HIST (0x108) [15:0] GUARD_EXTRA (spec/17_timing_reference.md). -/
def TRU_HIST.GUARD_EXTRA : Field := ⟨.tru, 0x108, 15, 0, .rw, 0x3C, (.range 0 3600), 1, 4⟩

/-- TRU_OUT (0x10C) [31] PPS_EN (spec/17_timing_reference.md). -/
def TRU_OUT.PPS_EN : Field := ⟨.tru, 0x10C, 31, 31, .rw, 0, .any, 1, 4⟩
/-- TRU_OUT (0x10C) [30] EPOCH_EN (spec/17_timing_reference.md). -/
def TRU_OUT.EPOCH_EN : Field := ⟨.tru, 0x10C, 30, 30, .rw, 0, .any, 1, 4⟩
/-- TRU_OUT (0x10C) [29] T4_SEL (spec/17_timing_reference.md). -/
def TRU_OUT.T4_SEL : Field := ⟨.tru, 0x10C, 29, 29, .rw, 0, .any, 1, 4⟩
/-- TRU_OUT (0x10C) [28] EPOCH_SRC (spec/17_timing_reference.md). -/
def TRU_OUT.EPOCH_SRC : Field := ⟨.tru, 0x10C, 28, 28, .rw, 0, .any, 1, 4⟩
/-- TRU_OUT (0x10C) [27:23] SQUELCH (spec/17_timing_reference.md). -/
def TRU_OUT.SQUELCH : Field := ⟨.tru, 0x10C, 27, 23, .rw, 0x18, .any, 1, 4⟩
/-- TRU_OUT (0x10C) [22:20] EPOCH_DIV (spec/17_timing_reference.md). -/
def TRU_OUT.EPOCH_DIV : Field := ⟨.tru, 0x10C, 22, 20, .rw, 0, .any, 1, 4⟩
/-- TRU_OUT (0x10C) [19:10] PPS_WIDTH (spec/17_timing_reference.md). -/
def TRU_OUT.PPS_WIDTH : Field := ⟨.tru, 0x10C, 19, 10, .rw, 0x64, (.range 1 500), 1, 4⟩
/-- TRU_OUT (0x10C) [9:0] EPOCH_WIDTH (spec/17_timing_reference.md). -/
def TRU_OUT.EPOCH_WIDTH : Field := ⟨.tru, 0x10C, 9, 0, .rw, 0xA, (.range 1 1000), 1, 4⟩

/-- TRU_EPOCH_PER (0x110) [31:0] PERIOD (spec/17_timing_reference.md). -/
def TRU_EPOCH_PER.PERIOD : Field := ⟨.tru, 0x110, 31, 0, .rw, 0x3E8, (.range 1 3600000), 1, 4⟩

/-- TRU_OUT_ADV (0x114) [15:0] ADVANCE (spec/17_timing_reference.md). -/
def TRU_OUT_ADV.ADVANCE : Field := ⟨.tru, 0x114, 15, 0, .rw, 0, .any, 1, 4⟩

/-- TRU_UTC (0x118) [31] VALID (spec/17_timing_reference.md). -/
def TRU_UTC.VALID : Field := ⟨.tru, 0x118, 31, 31, .rw, 0, .any, 1, 4⟩
/-- TRU_UTC (0x118) [15:0] UTC_OFFSET (spec/17_timing_reference.md). -/
def TRU_UTC.UTC_OFFSET : Field := ⟨.tru, 0x118, 15, 0, .rw, 0, .any, 1, 4⟩

/-- TRU_CAP_S_HI (0x11C) [31:0] VALUE (spec/17_timing_reference.md). -/
def TRU_CAP_S_HI.VALUE : Field := ⟨.tru, 0x11C, 31, 0, .ro, 0, .any, 1, 4⟩

/-- TRU_CAP_S_LO (0x120) [31:0] VALUE (spec/17_timing_reference.md). -/
def TRU_CAP_S_LO.VALUE : Field := ⟨.tru, 0x120, 31, 0, .ro, 0, .any, 1, 4⟩

/-- TRU_CAP_NS (0x124) [31:0] VALUE (spec/17_timing_reference.md). -/
def TRU_CAP_NS.VALUE : Field := ⟨.tru, 0x124, 31, 0, .ro, 0, .any, 1, 4⟩

/-- TRU_CAP_MT_HI (0x128) [31:0] VALUE (spec/17_timing_reference.md). -/
def TRU_CAP_MT_HI.VALUE : Field := ⟨.tru, 0x128, 31, 0, .ro, 0, .any, 1, 4⟩

/-- TRU_CAP_MT_LO (0x12C) [31:0] VALUE (spec/17_timing_reference.md). -/
def TRU_CAP_MT_LO.VALUE : Field := ⟨.tru, 0x12C, 31, 0, .ro, 0, .any, 1, 4⟩

/-- TRU_ABSORBED (0x130) [31:0] VALUE (spec/17_timing_reference.md). -/
def TRU_ABSORBED.VALUE : Field := ⟨.tru, 0x130, 31, 0, .ro, 0, .any, 1, 4⟩

/-- TRU_TE_EST (0x134) [31:0] VALUE (spec/17_timing_reference.md). -/
def TRU_TE_EST.VALUE : Field := ⟨.tru, 0x134, 31, 0, .ro, 0, .any, 1, 4⟩

/-- TRU_STEER (0x138) [31:0] VALUE (spec/17_timing_reference.md). -/
def TRU_STEER.VALUE : Field := ⟨.tru, 0x138, 31, 0, .ro, 0, .any, 1, 4⟩

/-- TRU_HO_FREQ (0x13C) [31:0] VALUE (spec/17_timing_reference.md). -/
def TRU_HO_FREQ.VALUE : Field := ⟨.tru, 0x13C, 31, 0, .ro, 0, .any, 1, 4⟩

/-- LAN_STATUS (0xC) [28] UP (spec/18_backhaul_and_host.md). -/
def LAN_STATUS.UP : Field := ⟨.lan, 0xC, 28, 28, .ro, 0, .any, 1, 4⟩
/-- LAN_STATUS (0xC) [27] BLOCK_LOCK (spec/18_backhaul_and_host.md). -/
def LAN_STATUS.BLOCK_LOCK : Field := ⟨.lan, 0xC, 27, 27, .ro, 0, .any, 1, 4⟩
/-- LAN_STATUS (0xC) [26] HI_BER (spec/18_backhaul_and_host.md). -/
def LAN_STATUS.HI_BER : Field := ⟨.lan, 0xC, 26, 26, .ro, 0, .any, 1, 4⟩
/-- LAN_STATUS (0xC) [25] PAUSED (spec/18_backhaul_and_host.md). -/
def LAN_STATUS.PAUSED : Field := ⟨.lan, 0xC, 25, 25, .ro, 0, .any, 1, 4⟩
/-- LAN_STATUS (0xC) [24] PTP_SLAVE (spec/18_backhaul_and_host.md). -/
def LAN_STATUS.PTP_SLAVE : Field := ⟨.lan, 0xC, 24, 24, .ro, 0, .any, 1, 4⟩
/-- LAN_STATUS (0xC) [23] TUNNEL_ACTIVE (spec/18_backhaul_and_host.md). -/
def LAN_STATUS.TUNNEL_ACTIVE : Field := ⟨.lan, 0xC, 23, 23, .ro, 0, .any, 1, 4⟩

/-- LAN_CFG (0x100) [31] EN (spec/18_backhaul_and_host.md). -/
def LAN_CFG.EN : Field := ⟨.lan, 0x100, 31, 31, .rw, 0, .any, 1, 4⟩
/-- LAN_CFG (0x100) [30] TUNNEL_EN (spec/18_backhaul_and_host.md). -/
def LAN_CFG.TUNNEL_EN : Field := ⟨.lan, 0x100, 30, 30, .rw, 0, .any, 1, 4⟩
/-- LAN_CFG (0x100) [29] VLAN_EN (spec/18_backhaul_and_host.md). -/
def LAN_CFG.VLAN_EN : Field := ⟨.lan, 0x100, 29, 29, .rw, 0, .any, 1, 4⟩
/-- LAN_CFG (0x100) [28] PAUSE_EN (spec/18_backhaul_and_host.md). -/
def LAN_CFG.PAUSE_EN : Field := ⟨.lan, 0x100, 28, 28, .rw, 1, .any, 1, 4⟩
/-- LAN_CFG (0x100) [27:24] PRIO (spec/18_backhaul_and_host.md). -/
def LAN_CFG.PRIO : Field := ⟨.lan, 0x100, 27, 24, .rw, 0, .any, 1, 4⟩

/-- LAN_ETYPE (0x104) [15:0] ETYPE (spec/18_backhaul_and_host.md). -/
def LAN_ETYPE.ETYPE : Field := ⟨.lan, 0x104, 15, 0, .rw, 0x88B5, (.range 1536 65535), 1, 4⟩

/-- LAN_VLAN (0x108) [15:13] PCP (spec/18_backhaul_and_host.md). -/
def LAN_VLAN.PCP : Field := ⟨.lan, 0x108, 15, 13, .rw, 0, .any, 1, 4⟩
/-- LAN_VLAN (0x108) [11:0] VID (spec/18_backhaul_and_host.md). -/
def LAN_VLAN.VID : Field := ⟨.lan, 0x108, 11, 0, .rw, 1, (.range 1 4094), 1, 4⟩

/-- LAN_MAC_HI (0x10C) [15:0] ADDR (spec/18_backhaul_and_host.md). -/
def LAN_MAC_HI.ADDR : Field := ⟨.lan, 0x10C, 15, 0, .rw, 0, .any, 1, 4⟩

/-- LAN_MAC_LO (0x110) [31:0] ADDR (spec/18_backhaul_and_host.md). -/
def LAN_MAC_LO.ADDR : Field := ⟨.lan, 0x110, 31, 0, .rw, 0, .any, 1, 4⟩

/-- LAN_PEER_HI (0x114) [15:0] ADDR (spec/18_backhaul_and_host.md). -/
def LAN_PEER_HI.ADDR : Field := ⟨.lan, 0x114, 15, 0, .rw, 0xFFFF, .any, 1, 4⟩

/-- LAN_PEER_LO (0x118) [31:0] ADDR (spec/18_backhaul_and_host.md). -/
def LAN_PEER_LO.ADDR : Field := ⟨.lan, 0x118, 31, 0, .rw, 0xFFFFFFFF, .any, 1, 4⟩

/-- LAN_PTP (0x11C) [31] PROFILE (spec/18_backhaul_and_host.md). -/
def LAN_PTP.PROFILE : Field := ⟨.lan, 0x11C, 31, 31, .rw, 0, .any, 1, 4⟩
/-- LAN_PTP (0x11C) [23:16] DOMAIN (spec/18_backhaul_and_host.md). -/
def LAN_PTP.DOMAIN : Field := ⟨.lan, 0x11C, 23, 16, .rw, 0, .any, 1, 4⟩
/-- LAN_PTP (0x11C) [7:0] LOG_DELAY_INT (spec/18_backhaul_and_host.md). -/
def LAN_PTP.LOG_DELAY_INT : Field := ⟨.lan, 0x11C, 7, 0, .rw, 0, (.signed (-4) 4), 1, 4⟩

/-- LAN_PTP_OFS (0x120) [31:0] VALUE (spec/18_backhaul_and_host.md). -/
def LAN_PTP_OFS.VALUE : Field := ⟨.lan, 0x120, 31, 0, .ro, 0, .any, 1, 4⟩

/-- LAN_PTP_DLY (0x124) [31:0] VALUE (spec/18_backhaul_and_host.md). -/
def LAN_PTP_DLY.VALUE : Field := ⟨.lan, 0x124, 31, 0, .ro, 0, .any, 1, 4⟩

/-- LAN_LINK_DLY (0x128) [31:0] VALUE (spec/18_backhaul_and_host.md). -/
def LAN_LINK_DLY.VALUE : Field := ⟨.lan, 0x128, 31, 0, .ro, 0, .any, 1, 4⟩

/-- LAN_TX_CNT (0x12C) [31:0] COUNT (spec/18_backhaul_and_host.md). -/
def LAN_TX_CNT.COUNT : Field := ⟨.lan, 0x12C, 31, 0, .rc, 0, .any, 1, 4⟩

/-- LAN_RX_CNT (0x130) [31:0] COUNT (spec/18_backhaul_and_host.md). -/
def LAN_RX_CNT.COUNT : Field := ⟨.lan, 0x130, 31, 0, .rc, 0, .any, 1, 4⟩

/-- LAN_FCS_ERR_CNT (0x134) [31:0] COUNT (spec/18_backhaul_and_host.md). -/
def LAN_FCS_ERR_CNT.COUNT : Field := ⟨.lan, 0x134, 31, 0, .rc, 0, .any, 1, 4⟩

/-- LAN_RX_DROP_CNT (0x138) [31:0] COUNT (spec/18_backhaul_and_host.md). -/
def LAN_RX_DROP_CNT.COUNT : Field := ⟨.lan, 0x138, 31, 0, .rc, 0, .any, 1, 4⟩

/-- LAN_BLOCK_ERR_CNT (0x13C) [31:0] COUNT (spec/18_backhaul_and_host.md). -/
def LAN_BLOCK_ERR_CNT.COUNT : Field := ⟨.lan, 0x13C, 31, 0, .rc, 0, .any, 1, 4⟩

/-- PCI_STATUS (0xC) [28] LINK_UP (spec/18_backhaul_and_host.md). -/
def PCI_STATUS.LINK_UP : Field := ⟨.pci, 0xC, 28, 28, .ro, 0, .any, 1, 4⟩
/-- PCI_STATUS (0xC) [27:24] WIDTH (spec/18_backhaul_and_host.md). -/
def PCI_STATUS.WIDTH : Field := ⟨.pci, 0xC, 27, 24, .ro, 0, .any, 1, 4⟩
/-- PCI_STATUS (0xC) [23:20] SPEED (spec/18_backhaul_and_host.md). -/
def PCI_STATUS.SPEED : Field := ⟨.pci, 0xC, 23, 20, .ro, 0, .any, 1, 4⟩
/-- PCI_STATUS (0xC) [19] BUS_MASTER (spec/18_backhaul_and_host.md). -/
def PCI_STATUS.BUS_MASTER : Field := ⟨.pci, 0xC, 19, 19, .ro, 0, .any, 1, 4⟩

/-- PCI_TUNNEL (0x100) [31] DEST (spec/18_backhaul_and_host.md). -/
def PCI_TUNNEL.DEST : Field := ⟨.pci, 0x100, 31, 31, .rw, 0, .any, 1, 4⟩

/-- PCI_UL_CFG (0x104) [3:0] RINGS (spec/18_backhaul_and_host.md). -/
def PCI_UL_CFG.RINGS : Field := ⟨.pci, 0x104, 3, 0, .rw, 1, (.range 1 8), 1, 4⟩

/-- PCI_DL_CFG (0x108) [7:0] PER_EP (spec/18_backhaul_and_host.md). -/
def PCI_DL_CFG.PER_EP : Field := ⟨.pci, 0x108, 7, 0, .rw, 8, (.range 1 64), 1, 4⟩

/-- PCI_RING_ERR (0x10C) [31:0] ERR (spec/18_backhaul_and_host.md). -/
def PCI_RING_ERR.ERR : Field := ⟨.pci, 0x10C, 31, 0, .ro, 0, .any, 1, 4⟩

/-- PCI_DL_DONE_CNT (0x110) [31:0] COUNT (spec/18_backhaul_and_host.md). -/
def PCI_DL_DONE_CNT.COUNT : Field := ⟨.pci, 0x110, 31, 0, .rc, 0, .any, 1, 4⟩

/-- PCI_UL_DONE_CNT (0x114) [31:0] COUNT (spec/18_backhaul_and_host.md). -/
def PCI_UL_DONE_CNT.COUNT : Field := ⟨.pci, 0x114, 31, 0, .rc, 0, .any, 1, 4⟩

/-- PCI_STORED_CNT (0x118) [31:0] COUNT (spec/18_backhaul_and_host.md). -/
def PCI_STORED_CNT.COUNT : Field := ⟨.pci, 0x118, 31, 0, .rc, 0, .any, 1, 4⟩

/-- PCI_EVT_LOST_CNT (0x11C) [31:0] COUNT (spec/18_backhaul_and_host.md). -/
def PCI_EVT_LOST_CNT.COUNT : Field := ⟨.pci, 0x11C, 31, 0, .rc, 0, .any, 1, 4⟩

/-- PCI_CMPL_LOST_CNT (0x120) [31:0] COUNT (spec/18_backhaul_and_host.md). -/
def PCI_CMPL_LOST_CNT.COUNT : Field := ⟨.pci, 0x120, 31, 0, .rc, 0, .any, 1, 4⟩

/-- STO_STATUS (0xC) [28] READ_ONLY (spec/19_bulk_store.md). -/
def STO_STATUS.READ_ONLY : Field := ⟨.sto, 0xC, 28, 28, .ro, 0, .any, 1, 4⟩
/-- STO_STATUS (0xC) [27] SNF_REPLAY (spec/19_bulk_store.md). -/
def STO_STATUS.SNF_REPLAY : Field := ⟨.sto, 0xC, 27, 27, .ro, 0, .any, 1, 4⟩
/-- STO_STATUS (0xC) [26] RESERVE_OK (spec/19_bulk_store.md). -/
def STO_STATUS.RESERVE_OK : Field := ⟨.sto, 0xC, 26, 26, .ro, 0, .any, 1, 4⟩

/-- STO_CFG (0x100) [0] SNF_FULL (spec/19_bulk_store.md). -/
def STO_CFG.SNF_FULL : Field := ⟨.sto, 0x100, 0, 0, .rw, 0, .any, 1, 4⟩

/-- STO_WEAR (0x104) [31:16] SPARE (spec/19_bulk_store.md). -/
def STO_WEAR.SPARE : Field := ⟨.sto, 0x104, 31, 16, .ro, 0x3E8, .any, 1, 4⟩
/-- STO_WEAR (0x104) [15:0] WEAR (spec/19_bulk_store.md). -/
def STO_WEAR.WEAR : Field := ⟨.sto, 0x104, 15, 0, .ro, 0, .any, 1, 4⟩

/-- STO_SNF_USED (0x108) [31:0] COUNT (spec/19_bulk_store.md). -/
def STO_SNF_USED.COUNT : Field := ⟨.sto, 0x108, 31, 0, .ro, 0, .any, 1, 4⟩

/-- STO_SNF_RECORDS (0x10C) [31:0] COUNT (spec/19_bulk_store.md). -/
def STO_SNF_RECORDS.COUNT : Field := ⟨.sto, 0x10C, 31, 0, .ro, 0, .any, 1, 4⟩

/-- STO_LAST_ERR (0x110) [31:28] REGION (spec/19_bulk_store.md). -/
def STO_LAST_ERR.REGION : Field := ⟨.sto, 0x110, 31, 28, .ro, 0, .any, 1, 4⟩
/-- STO_LAST_ERR (0x110) [27:0] LBA (spec/19_bulk_store.md). -/
def STO_LAST_ERR.LBA : Field := ⟨.sto, 0x110, 27, 0, .ro, 0, .any, 1, 4⟩

/-- STO_SNF_LOST_CNT (0x114) [31:0] COUNT (spec/19_bulk_store.md). -/
def STO_SNF_LOST_CNT.COUNT : Field := ⟨.sto, 0x114, 31, 0, .rc, 0, .any, 1, 4⟩

/-- STO_MEDIA_ERR_CNT (0x118) [31:0] COUNT (spec/19_bulk_store.md). -/
def STO_MEDIA_ERR_CNT.COUNT : Field := ⟨.sto, 0x118, 31, 0, .rc, 0, .any, 1, 4⟩

/-- STO_RETRY_CNT (0x11C) [31:0] COUNT (spec/19_bulk_store.md). -/
def STO_RETRY_CNT.COUNT : Field := ⟨.sto, 0x11C, 31, 0, .rc, 0, .any, 1, 4⟩

/-- PAIR_STATUS (0xC) [28:27] ROLE (spec/20_pair_redundancy.md). -/
def PAIR_STATUS.ROLE : Field := ⟨.pair, 0xC, 28, 27, .ro, 0, .any, 1, 4⟩
/-- PAIR_STATUS (0xC) [26:25] SYNC (spec/20_pair_redundancy.md). -/
def PAIR_STATUS.SYNC : Field := ⟨.pair, 0xC, 26, 25, .ro, 0, .any, 1, 4⟩
/-- PAIR_STATUS (0xC) [24] HB_OK (spec/20_pair_redundancy.md). -/
def PAIR_STATUS.HB_OK : Field := ⟨.pair, 0xC, 24, 24, .ro, 0, .any, 1, 4⟩
/-- PAIR_STATUS (0xC) [23] PARTNER_BEACON (spec/20_pair_redundancy.md). -/
def PAIR_STATUS.PARTNER_BEACON : Field := ⟨.pair, 0xC, 23, 23, .ro, 0, .any, 1, 4⟩
/-- PAIR_STATUS (0xC) [22] HOLD_OFF (spec/20_pair_redundancy.md). -/
def PAIR_STATUS.HOLD_OFF : Field := ⟨.pair, 0xC, 22, 22, .ro, 1, .any, 1, 4⟩
/-- PAIR_STATUS (0xC) [21] GROUP0_PENDING (spec/20_pair_redundancy.md). -/
def PAIR_STATUS.GROUP0_PENDING : Field := ⟨.pair, 0xC, 21, 21, .ro, 0, .any, 1, 4⟩

/-- PAIR_ROLE (0x100) [31] PAIRED (spec/20_pair_redundancy.md). -/
def PAIR_ROLE.PAIRED : Field := ⟨.pair, 0x100, 31, 31, .rwp, 0, .any, 1, 4⟩
/-- PAIR_ROLE (0x100) [30] UNIT (spec/20_pair_redundancy.md). -/
def PAIR_ROLE.UNIT : Field := ⟨.pair, 0x100, 30, 30, .rwp, 0, .any, 1, 4⟩

/-- PAIR_PEER_HI (0x104) [31:0] ID (spec/20_pair_redundancy.md). -/
def PAIR_PEER_HI.ID : Field := ⟨.pair, 0x104, 31, 0, .rwp, 0, .any, 1, 4⟩

/-- PAIR_PEER_LO (0x108) [31:0] ID (spec/20_pair_redundancy.md). -/
def PAIR_PEER_LO.ID : Field := ⟨.pair, 0x108, 31, 0, .rwp, 0, .any, 1, 4⟩

/-- PAIR_CFG (0x10C) [31] TAKEOVER_EN (spec/20_pair_redundancy.md). -/
def PAIR_CFG.TAKEOVER_EN : Field := ⟨.pair, 0x10C, 31, 31, .rw, 1, .any, 1, 4⟩

/-- PAIR_SYNC_PROG (0x110) [31:0] VALUE (spec/20_pair_redundancy.md). -/
def PAIR_SYNC_PROG.VALUE : Field := ⟨.pair, 0x110, 31, 0, .ro, 0, .any, 1, 4⟩

/-- PAIR_EPOCH (0x114) [31:0] VALUE (spec/20_pair_redundancy.md). -/
def PAIR_EPOCH.VALUE : Field := ⟨.pair, 0x114, 31, 0, .ro, 0, .any, 1, 4⟩

/-- PAIR_LINK_DLY (0x118) [31:0] VALUE (spec/20_pair_redundancy.md). -/
def PAIR_LINK_DLY.VALUE : Field := ⟨.pair, 0x118, 31, 0, .ro, 0, .any, 1, 4⟩

/-- PAIR_TAKEOVER_CNT (0x11C) [31:0] COUNT (spec/20_pair_redundancy.md). -/
def PAIR_TAKEOVER_CNT.COUNT : Field := ⟨.pair, 0x11C, 31, 0, .rc, 0, .any, 1, 4⟩

/-- PAIR_HB_MISS_CNT (0x120) [31:0] COUNT (spec/20_pair_redundancy.md). -/
def PAIR_HB_MISS_CNT.COUNT : Field := ⟨.pair, 0x120, 31, 0, .rc, 0, .any, 1, 4⟩

/-- PAIR_MIRROR_ERR_CNT (0x124) [31:0] COUNT (spec/20_pair_redundancy.md). -/
def PAIR_MIRROR_ERR_CNT.COUNT : Field := ⟨.pair, 0x124, 31, 0, .rc, 0, .any, 1, 4⟩

/-- PAIR_DELTA_CNT (0x128) [31:0] COUNT (spec/20_pair_redundancy.md). -/
def PAIR_DELTA_CNT.COUNT : Field := ⟨.pair, 0x128, 31, 0, .rc, 0, .any, 1, 4⟩

/-- LANM_CFG (0x100) [31] EN (spec/20_pair_redundancy.md). -/
def LANM_CFG.EN : Field := ⟨.lanm, 0x100, 31, 31, .rw, 1, .any, 1, 4⟩

/-- LANM_TX_CNT (0x104) [31:0] COUNT (spec/20_pair_redundancy.md). -/
def LANM_TX_CNT.COUNT : Field := ⟨.lanm, 0x104, 31, 0, .rc, 0, .any, 1, 4⟩

/-- LANM_RX_CNT (0x108) [31:0] COUNT (spec/20_pair_redundancy.md). -/
def LANM_RX_CNT.COUNT : Field := ⟨.lanm, 0x108, 31, 0, .rc, 0, .any, 1, 4⟩

/-- LANM_FCS_ERR_CNT (0x10C) [31:0] COUNT (spec/20_pair_redundancy.md). -/
def LANM_FCS_ERR_CNT.COUNT : Field := ⟨.lanm, 0x10C, 31, 0, .rc, 0, .any, 1, 4⟩

/-- SEN_STATUS (0xC) [28:25] SI_FAULT (spec/21_sensor_front_end.md). -/
def SEN_STATUS.SI_FAULT : Field := ⟨.sen, 0xC, 28, 25, .ro, 0, .any, 1, 4⟩

/-- MGT_STATUS (0xC) [28] CAMPAIGN (spec/22_management_and_dual_control.md). -/
def MGT_STATUS.CAMPAIGN : Field := ⟨.mgt, 0xC, 28, 28, .ro, 0, .any, 1, 4⟩
/-- MGT_STATUS (0xC) [27] LOG_WRAPPED (spec/22_management_and_dual_control.md). -/
def MGT_STATUS.LOG_WRAPPED : Field := ⟨.mgt, 0xC, 27, 27, .ro, 0, .any, 1, 4⟩

/-- MGT_LOG_NEXT (0x100) [31:0] VALUE (spec/22_management_and_dual_control.md). -/
def MGT_LOG_NEXT.VALUE : Field := ⟨.mgt, 0x100, 31, 0, .ro, 0, .any, 1, 4⟩

/-- MGT_LOG_FLUSHED (0x104) [31:0] VALUE (spec/22_management_and_dual_control.md). -/
def MGT_LOG_FLUSHED.VALUE : Field := ⟨.mgt, 0x104, 31, 0, .ro, 0, .any, 1, 4⟩

/-- MGT_LOG_GAP_CNT (0x108) [31:0] VALUE (spec/22_management_and_dual_control.md). -/
def MGT_LOG_GAP_CNT.VALUE : Field := ⟨.mgt, 0x108, 31, 0, .rc, 0, .any, 1, 4⟩

/-- MGT_CAMP (0x10C) [31] ACTIVE (spec/22_management_and_dual_control.md). -/
def MGT_CAMP.ACTIVE : Field := ⟨.mgt, 0x10C, 31, 31, .ro, 0, .any, 1, 4⟩
/-- MGT_CAMP (0x10C) [30] PAUSED (spec/22_management_and_dual_control.md). -/
def MGT_CAMP.PAUSED : Field := ⟨.mgt, 0x10C, 30, 30, .ro, 0, .any, 1, 4⟩
/-- MGT_CAMP (0x10C) [27:20] IMAGE (spec/22_management_and_dual_control.md). -/
def MGT_CAMP.IMAGE : Field := ⟨.mgt, 0x10C, 27, 20, .ro, 0, .any, 1, 4⟩
/-- MGT_CAMP (0x10C) [19:16] GROUP (spec/22_management_and_dual_control.md). -/
def MGT_CAMP.GROUP : Field := ⟨.mgt, 0x10C, 19, 16, .ro, 0, .any, 1, 4⟩
/-- MGT_CAMP (0x10C) [15:0] BLOCK (spec/22_management_and_dual_control.md). -/
def MGT_CAMP.BLOCK : Field := ⟨.mgt, 0x10C, 15, 0, .ro, 0, .any, 1, 4⟩

/-- MGT_CAMP_PASS (0x110) [15:8] PASSES (spec/22_management_and_dual_control.md). -/
def MGT_CAMP_PASS.PASSES : Field := ⟨.mgt, 0x110, 15, 8, .ro, 0, .any, 1, 4⟩
/-- MGT_CAMP_PASS (0x110) [7:0] DONE (spec/22_management_and_dual_control.md). -/
def MGT_CAMP_PASS.DONE : Field := ⟨.mgt, 0x110, 7, 0, .ro, 0, .any, 1, 4⟩

/-- TKT_STATUS (0xC) [28] LIST_SET (spec/22_management_and_dual_control.md). -/
def TKT_STATUS.LIST_SET : Field := ⟨.tkt, 0xC, 28, 28, .ro, 0, .any, 1, 4⟩
/-- TKT_STATUS (0xC) [27] CHAL_HELD (spec/22_management_and_dual_control.md). -/
def TKT_STATUS.CHAL_HELD : Field := ⟨.tkt, 0xC, 27, 27, .ro, 0, .any, 1, 4⟩

/-- TKT_AUTH (0x100) [10:8] THRESHOLD (spec/22_management_and_dual_control.md). -/
def TKT_AUTH.THRESHOLD : Field := ⟨.tkt, 0x100, 10, 8, .ro, 2, .any, 1, 4⟩
/-- TKT_AUTH (0x100) [3:0] COUNT (spec/22_management_and_dual_control.md). -/
def TKT_AUTH.COUNT : Field := ⟨.tkt, 0x100, 3, 0, .ro, 0, .any, 1, 4⟩

/-- TKT_COUNTER_HI (0x104) [31:0] VALUE (spec/22_management_and_dual_control.md). -/
def TKT_COUNTER_HI.VALUE : Field := ⟨.tkt, 0x104, 31, 0, .ro, 0, .any, 1, 4⟩

/-- TKT_COUNTER_LO (0x108) [31:0] VALUE (spec/22_management_and_dual_control.md). -/
def TKT_COUNTER_LO.VALUE : Field := ⟨.tkt, 0x108, 31, 0, .ro, 0, .any, 1, 4⟩

/-- TKT_CHAL_HI (0x10C) [31:0] VALUE (spec/22_management_and_dual_control.md). -/
def TKT_CHAL_HI.VALUE : Field := ⟨.tkt, 0x10C, 31, 0, .ro, 0, .any, 1, 4⟩

/-- TKT_CHAL_LO (0x110) [31:0] VALUE (spec/22_management_and_dual_control.md). -/
def TKT_CHAL_LO.VALUE : Field := ⟨.tkt, 0x110, 31, 0, .ro, 0, .any, 1, 4⟩

/-- TKT_CHAL_LEFT (0x114) [9:0] LEFT (spec/22_management_and_dual_control.md). -/
def TKT_CHAL_LEFT.LEFT : Field := ⟨.tkt, 0x114, 9, 0, .ro, 0, .any, 1, 4⟩

/-- TKT_ROOT (0x118) [7:4] REVOKED (spec/22_management_and_dual_control.md). -/
def TKT_ROOT.REVOKED : Field := ⟨.tkt, 0x118, 7, 4, .ro, 0, .any, 1, 4⟩
/-- TKT_ROOT (0x118) [1:0] ACTIVE (spec/22_management_and_dual_control.md). -/
def TKT_ROOT.ACTIVE : Field := ⟨.tkt, 0x118, 1, 0, .ro, 0, .any, 1, 4⟩

/-- TKT_APPLY_CNT (0x11C) [31:0] COUNT (spec/22_management_and_dual_control.md). -/
def TKT_APPLY_CNT.COUNT : Field := ⟨.tkt, 0x11C, 31, 0, .rc, 0, .any, 1, 4⟩

/-- TKT_REFUSE_CNT (0x120) [31:0] COUNT (spec/22_management_and_dual_control.md). -/
def TKT_REFUSE_CNT.COUNT : Field := ⟨.tkt, 0x120, 31, 0, .rc, 0, .any, 1, 4⟩

/-- SER_STATUS (0xC) [28] RX_FULL (spec/23_serial_ports.md). -/
def SER_STATUS.RX_FULL : Field := ⟨.ser, 0xC, 28, 28, .ro, 0, .any, 1, 4⟩
/-- SER_STATUS (0xC) [27] TX_EMPTY (spec/23_serial_ports.md). -/
def SER_STATUS.TX_EMPTY : Field := ⟨.ser, 0xC, 27, 27, .ro, 1, .any, 1, 4⟩
/-- SER_STATUS (0xC) [26] TX_IDLE (spec/23_serial_ports.md). -/
def SER_STATUS.TX_IDLE : Field := ⟨.ser, 0xC, 26, 26, .ro, 1, .any, 1, 4⟩
/-- SER_STATUS (0xC) [25] HELD (spec/23_serial_ports.md). -/
def SER_STATUS.HELD : Field := ⟨.ser, 0xC, 25, 25, .ro, 0, .any, 1, 4⟩
/-- SER_STATUS (0xC) [24] LINE_STUCK (spec/23_serial_ports.md). -/
def SER_STATUS.LINE_STUCK : Field := ⟨.ser, 0xC, 24, 24, .ro, 0, .any, 1, 4⟩
/-- SER_STATUS (0xC) [23] BREAK_ACTIVE (spec/23_serial_ports.md). -/
def SER_STATUS.BREAK_ACTIVE : Field := ⟨.ser, 0xC, 23, 23, .ro, 0, .any, 1, 4⟩
/-- SER_STATUS (0xC) [22] OWNER (spec/23_serial_ports.md). -/
def SER_STATUS.OWNER : Field := ⟨.ser, 0xC, 22, 22, .ro, 0, .any, 1, 4⟩

/-- SER_CFG (0x100) [31] EN (spec/23_serial_ports.md). -/
def SER_CFG.EN : Field := ⟨.ser, 0x100, 31, 31, .rw, 0, .any, 1, 4⟩
/-- SER_CFG (0x100) [30] IR (spec/23_serial_ports.md). -/
def SER_CFG.IR : Field := ⟨.ser, 0x100, 30, 30, .ro, 0, .any, 1, 4⟩
/-- SER_CFG (0x100) [29] FRAMED (spec/23_serial_ports.md). -/
def SER_CFG.FRAMED : Field := ⟨.ser, 0x100, 29, 29, .rw, 0, .any, 1, 4⟩
/-- SER_CFG (0x100) [28] FLOW (spec/23_serial_ports.md). -/
def SER_CFG.FLOW : Field := ⟨.ser, 0x100, 28, 28, .rw, 0, .any, 1, 4⟩
/-- SER_CFG (0x100) [27:26] PARITY (spec/23_serial_ports.md). -/
def SER_CFG.PARITY : Field := ⟨.ser, 0x100, 27, 26, .rw, 0, (.range 0 2), 1, 4⟩
/-- SER_CFG (0x100) [25] DATA7 (spec/23_serial_ports.md). -/
def SER_CFG.DATA7 : Field := ⟨.ser, 0x100, 25, 25, .rw, 0, .any, 1, 4⟩
/-- SER_CFG (0x100) [24] STOP2 (spec/23_serial_ports.md). -/
def SER_CFG.STOP2 : Field := ⟨.ser, 0x100, 24, 24, .rw, 0, .any, 1, 4⟩
/-- SER_CFG (0x100) [23] INVERSE (spec/23_serial_ports.md). -/
def SER_CFG.INVERSE : Field := ⟨.ser, 0x100, 23, 23, .ro, 0, .any, 1, 4⟩

/-- SER_DIV (0x104) [15:0] DIV (spec/23_serial_ports.md). -/
def SER_DIV.DIV : Field := ⟨.ser, 0x104, 15, 0, .rw, 0, (.range 1 65535), 1, 4⟩

/-- SER_TX (0x108) [7:0] DATA (spec/23_serial_ports.md). -/
def SER_TX.DATA : Field := ⟨.ser, 0x108, 7, 0, .wo, 0, .any, 1, 4⟩

/-- SER_RX (0x10C) [31] VALID (spec/23_serial_ports.md). -/
def SER_RX.VALID : Field := ⟨.ser, 0x10C, 31, 31, .rc, 0, .any, 1, 4⟩
/-- SER_RX (0x10C) [30] OVR (spec/23_serial_ports.md). -/
def SER_RX.OVR : Field := ⟨.ser, 0x10C, 30, 30, .rc, 0, .any, 1, 4⟩
/-- SER_RX (0x10C) [29] BRK (spec/23_serial_ports.md). -/
def SER_RX.BRK : Field := ⟨.ser, 0x10C, 29, 29, .rc, 0, .any, 1, 4⟩
/-- SER_RX (0x10C) [28] FE (spec/23_serial_ports.md). -/
def SER_RX.FE : Field := ⟨.ser, 0x10C, 28, 28, .rc, 0, .any, 1, 4⟩
/-- SER_RX (0x10C) [27] PE (spec/23_serial_ports.md). -/
def SER_RX.PE : Field := ⟨.ser, 0x10C, 27, 27, .rc, 0, .any, 1, 4⟩
/-- SER_RX (0x10C) [26] CRC_ERR (spec/23_serial_ports.md). -/
def SER_RX.CRC_ERR : Field := ⟨.ser, 0x10C, 26, 26, .rc, 0, .any, 1, 4⟩
/-- SER_RX (0x10C) [25] EOF (spec/23_serial_ports.md). -/
def SER_RX.EOF : Field := ⟨.ser, 0x10C, 25, 25, .rc, 0, .any, 1, 4⟩
/-- SER_RX (0x10C) [24] SOF (spec/23_serial_ports.md). -/
def SER_RX.SOF : Field := ⟨.ser, 0x10C, 24, 24, .rc, 0, .any, 1, 4⟩
/-- SER_RX (0x10C) [7:0] DATA (spec/23_serial_ports.md). -/
def SER_RX.DATA : Field := ⟨.ser, 0x10C, 7, 0, .rc, 0, .any, 1, 4⟩

/-- SER_BRK_LEN (0x110) [31] SAT (spec/23_serial_ports.md). -/
def SER_BRK_LEN.SAT : Field := ⟨.ser, 0x110, 31, 31, .ro, 0, .any, 1, 4⟩
/-- SER_BRK_LEN (0x110) [15:0] LEN (spec/23_serial_ports.md). -/
def SER_BRK_LEN.LEN : Field := ⟨.ser, 0x110, 15, 0, .ro, 0, .any, 1, 4⟩

/-- SER_SLEEP (0x114) [31] EN (spec/23_serial_ports.md). -/
def SER_SLEEP.EN : Field := ⟨.ser, 0x114, 31, 31, .rw, 0, .any, 1, 4⟩
/-- SER_SLEEP (0x114) [10:8] RATE (spec/23_serial_ports.md). -/
def SER_SLEEP.RATE : Field := ⟨.ser, 0x114, 10, 8, .rw, 0, (.range 0 4), 1, 4⟩
/-- SER_SLEEP (0x114) [7:0] ADDR (spec/23_serial_ports.md). -/
def SER_SLEEP.ADDR : Field := ⟨.ser, 0x114, 7, 0, .rw, 0, .any, 1, 4⟩

/-- SER_CARD (0x118) [31] PRESENT (spec/23_serial_ports.md). -/
def SER_CARD.PRESENT : Field := ⟨.ser, 0x118, 31, 31, .ro, 0, .any, 1, 4⟩
/-- SER_CARD (0x118) [30] POWERED (spec/23_serial_ports.md). -/
def SER_CARD.POWERED : Field := ⟨.ser, 0x118, 30, 30, .ro, 0, .any, 1, 4⟩
/-- SER_CARD (0x118) [29] ACTIVE (spec/23_serial_ports.md). -/
def SER_CARD.ACTIVE : Field := ⟨.ser, 0x118, 29, 29, .ro, 0, .any, 1, 4⟩
/-- SER_CARD (0x118) [15:0] LAST_SW (spec/23_serial_ports.md). -/
def SER_CARD.LAST_SW : Field := ⟨.ser, 0x118, 15, 0, .ro, 0, .any, 1, 4⟩

/-- SER_RX_CNT (0x11C) [31:0] COUNT (spec/23_serial_ports.md). -/
def SER_RX_CNT.COUNT : Field := ⟨.ser, 0x11C, 31, 0, .rc, 0, .any, 1, 4⟩

/-- SER_BADCHAR_CNT (0x120) [31:0] COUNT (spec/23_serial_ports.md). -/
def SER_BADCHAR_CNT.COUNT : Field := ⟨.ser, 0x120, 31, 0, .rc, 0, .any, 1, 4⟩

/-- SER_OVR_CNT (0x124) [31:0] COUNT (spec/23_serial_ports.md). -/
def SER_OVR_CNT.COUNT : Field := ⟨.ser, 0x124, 31, 0, .rc, 0, .any, 1, 4⟩

/-- SER_BRK_CNT (0x128) [31:0] COUNT (spec/23_serial_ports.md). -/
def SER_BRK_CNT.COUNT : Field := ⟨.ser, 0x128, 31, 0, .rc, 0, .any, 1, 4⟩

/-- SAF_STATUS (0xC) [28] KILL (spec/24_functional_safety.md). -/
def SAF_STATUS.KILL : Field := ⟨.saf, 0xC, 28, 28, .ro, 1, .any, 1, 4⟩
/-- SAF_STATUS (0xC) [27] KILLN_LOW (spec/24_functional_safety.md). -/
def SAF_STATUS.KILLN_LOW : Field := ⟨.saf, 0xC, 27, 27, .ro, 0, .any, 1, 4⟩
/-- SAF_STATUS (0xC) [26] TRIP (spec/24_functional_safety.md). -/
def SAF_STATUS.TRIP : Field := ⟨.saf, 0xC, 26, 26, .ro, 0, .any, 1, 4⟩

/-- SAF_KILL (0x100) [21:16] PORT (spec/24_functional_safety.md). -/
def SAF_KILL.PORT : Field := ⟨.saf, 0x100, 21, 16, .ro, 0x3F, .any, 1, 4⟩
/-- SAF_KILL (0x100) [10:0] CAUSE (spec/24_functional_safety.md). -/
def SAF_KILL.CAUSE : Field := ⟨.saf, 0x100, 10, 0, .ro, 0x40, .any, 1, 4⟩

/-- SAF_CFG (0x104) [31] KILLN_AUTO (spec/24_functional_safety.md). -/
def SAF_CFG.KILLN_AUTO : Field := ⟨.saf, 0x104, 31, 31, .rwp, 0, .any, 1, 4⟩
/-- SAF_CFG (0x104) [15:8] BAND_MARGIN (spec/24_functional_safety.md). -/
def SAF_CFG.BAND_MARGIN : Field := ⟨.saf, 0x104, 15, 8, .rwp, 0x18, (.range 20 40), 1, 4⟩
/-- SAF_CFG (0x104) [7:0] LEVEL_MARGIN (spec/24_functional_safety.md). -/
def SAF_CFG.LEVEL_MARGIN : Field := ⟨.saf, 0x104, 7, 0, .rwp, 6, (.range 2 24), 1, 4⟩

/-- SAF_SI_LIM (0x108) [31:16] TRIP (spec/24_functional_safety.md). -/
def SAF_SI_LIM.TRIP : Field := ⟨.saf, 0x108, 31, 16, .rwp, 0x514, (.range 800 1600), 1, 4⟩
/-- SAF_SI_LIM (0x108) [15:0] WARN (spec/24_functional_safety.md). -/
def SAF_SI_LIM.WARN : Field := ⟨.saf, 0x108, 15, 0, .rwp, 0x44C, .any, 1, 4⟩

/-- SAF_TRIP (0x10C) [7:4] FAULT (spec/24_functional_safety.md). -/
def SAF_TRIP.FAULT : Field := ⟨.saf, 0x10C, 7, 4, .ro, 0, .any, 1, 4⟩
/-- SAF_TRIP (0x10C) [3:0] TEMP (spec/24_functional_safety.md). -/
def SAF_TRIP.TEMP : Field := ⟨.saf, 0x10C, 3, 0, .ro, 0, .any, 1, 4⟩

/-- SAF_SF2_CFG (0x110) [31] EN (spec/24_functional_safety.md). -/
def SAF_SF2_CFG.EN : Field := ⟨.saf, 0x110, 31, 31, .rwp, 0, .any, 1, 4⟩
/-- SAF_SF2_CFG (0x110) [30:24] MAX_AGE (spec/24_functional_safety.md). -/
def SAF_SF2_CFG.MAX_AGE : Field := ⟨.saf, 0x110, 30, 24, .rwp, 8, (.range 1 64), 1, 4⟩
/-- SAF_SF2_CFG (0x110) [10:0] SEQ_WIN (spec/24_functional_safety.md). -/
def SAF_SF2_CFG.SEQ_WIN : Field := ⟨.saf, 0x110, 10, 0, .rwp, 0x10, (.range 1 1024), 1, 4⟩

/-- SAF_SF2_LAST (0x114) [31:24] REASON (spec/24_functional_safety.md). -/
def SAF_SF2_LAST.REASON : Field := ⟨.saf, 0x114, 31, 24, .ro, 0, .any, 1, 4⟩
/-- SAF_SF2_LAST (0x114) [19:0] INDEX (spec/24_functional_safety.md). -/
def SAF_SF2_LAST.INDEX : Field := ⟨.saf, 0x114, 19, 0, .ro, 0, .any, 1, 4⟩

/-- SAF_DIAG_LAST (0x118) [31:24] CLASS (spec/24_functional_safety.md). -/
def SAF_DIAG_LAST.CLASS : Field := ⟨.saf, 0x118, 31, 24, .ro, 0, .any, 1, 4⟩
/-- SAF_DIAG_LAST (0x118) [15:0] INST (spec/24_functional_safety.md). -/
def SAF_DIAG_LAST.INST : Field := ⟨.saf, 0x118, 15, 0, .ro, 0, .any, 1, 4⟩

/-- SAF_KILL_CNT (0x11C) [31:0] COUNT (spec/24_functional_safety.md). -/
def SAF_KILL_CNT.COUNT : Field := ⟨.saf, 0x11C, 31, 0, .rc, 0, .any, 1, 4⟩

/-- SAF_TRIP_CNT (0x120) [31:0] COUNT (spec/24_functional_safety.md). -/
def SAF_TRIP_CNT.COUNT : Field := ⟨.saf, 0x120, 31, 0, .rc, 0, .any, 1, 4⟩

/-- SAF_SF2_OK_CNT (0x124) [31:0] COUNT (spec/24_functional_safety.md). -/
def SAF_SF2_OK_CNT.COUNT : Field := ⟨.saf, 0x124, 31, 0, .rc, 0, .any, 1, 4⟩

/-- SAF_SF2_REJ_CNT (0x128) [31:0] COUNT (spec/24_functional_safety.md). -/
def SAF_SF2_REJ_CNT.COUNT : Field := ⟨.saf, 0x128, 31, 0, .rc, 0, .any, 1, 4⟩

/-- SAF_DIAG_CNT (0x12C) [31:0] COUNT (spec/24_functional_safety.md). -/
def SAF_DIAG_CNT.COUNT : Field := ⟨.saf, 0x12C, 31, 0, .rc, 0, .any, 1, 4⟩

/-- PCI_RING (0x400) [31:0] SQ_LO (spec/18_backhaul_and_host.md). -/
def PCI_RING.SQ_LO : Field := ⟨.pci, 0x400, 31, 0, .rw, 0, .any, 29, 0x20⟩
/-- PCI_RING (0x404) [31:0] SQ_HI (spec/18_backhaul_and_host.md). -/
def PCI_RING.SQ_HI : Field := ⟨.pci, 0x404, 31, 0, .rw, 0, .any, 29, 0x20⟩
/-- PCI_RING (0x408) [31:0] CQ_LO (spec/18_backhaul_and_host.md). -/
def PCI_RING.CQ_LO : Field := ⟨.pci, 0x408, 31, 0, .rw, 0, .any, 29, 0x20⟩
/-- PCI_RING (0x40C) [31:0] CQ_HI (spec/18_backhaul_and_host.md). -/
def PCI_RING.CQ_HI : Field := ⟨.pci, 0x40C, 31, 0, .rw, 0, .any, 29, 0x20⟩
/-- PCI_RING (0x410) [31] EN (spec/18_backhaul_and_host.md). -/
def PCI_RING.EN : Field := ⟨.pci, 0x410, 31, 31, .rw, 0, .any, 29, 0x20⟩
/-- PCI_RING (0x410) [19:16] LOG2 (spec/18_backhaul_and_host.md). -/
def PCI_RING.LOG2 : Field := ⟨.pci, 0x410, 19, 16, .rw, 6, (.range 6 16), 29, 0x20⟩
/-- PCI_RING (0x410) [15:8] COAL_CNT (spec/18_backhaul_and_host.md). -/
def PCI_RING.COAL_CNT : Field := ⟨.pci, 0x410, 15, 8, .rw, 1, (.range 1 255), 29, 0x20⟩
/-- PCI_RING (0x410) [7:0] COAL_US (spec/18_backhaul_and_host.md). -/
def PCI_RING.COAL_US : Field := ⟨.pci, 0x410, 7, 0, .rw, 0, .any, 29, 0x20⟩
/-- PCI_RING (0x414) [31:0] SQ_CONS (spec/18_backhaul_and_host.md). -/
def PCI_RING.SQ_CONS : Field := ⟨.pci, 0x414, 31, 0, .ro, 0, .any, 29, 0x20⟩
/-- PCI_RING (0x418) [31:0] CQ_PROD (spec/18_backhaul_and_host.md). -/
def PCI_RING.CQ_PROD : Field := ⟨.pci, 0x418, 31, 0, .ro, 0, .any, 29, 0x20⟩

/-- REF_CFG (0x200) [31] EN (spec/17_timing_reference.md). -/
def REF_CFG.EN : Field := ⟨.tru, 0x200, 31, 31, .rw, 0, .any, 8, 0x20⟩
/-- REF_CFG (0x200) [30:28] PRIO (spec/17_timing_reference.md). -/
def REF_CFG.PRIO : Field := ⟨.tru, 0x200, 30, 28, .rw, 0, .any, 8, 0x20⟩
/-- REF_CFG (0x200) [27:24] BW (spec/17_timing_reference.md). -/
def REF_CFG.BW : Field := ⟨.tru, 0x200, 27, 24, .rw, 0, .any, 8, 0x20⟩
/-- REF_CFG (0x200) [23:20] AUX (spec/17_timing_reference.md). -/
def REF_CFG.AUX : Field := ⟨.tru, 0x200, 23, 20, .rw, 0, .any, 8, 0x20⟩
/-- REF_CFG (0x200) [15:0] TE_REF (spec/17_timing_reference.md). -/
def REF_CFG.TE_REF : Field := ⟨.tru, 0x200, 15, 0, .rw, 0, .any, 8, 0x20⟩

/-- REF_QUAL (0x204) [31:16] QUAL_TIME (spec/17_timing_reference.md). -/
def REF_QUAL.QUAL_TIME : Field := ⟨.tru, 0x204, 31, 16, .rw, 0x3C, (.range 1 3600), 8, 0x20⟩
/-- REF_QUAL (0x204) [15:0] FREQ_TOL (spec/17_timing_reference.md). -/
def REF_QUAL.FREQ_TOL : Field := ⟨.tru, 0x204, 15, 0, .rw, 0xC8, (.range 1 65535), 8, 0x20⟩

/-- REF_DELAY (0x208) [31:0] DELAY (spec/17_timing_reference.md). -/
def REF_DELAY.DELAY : Field := ⟨.tru, 0x208, 31, 0, .rw, 0, .any, 8, 0x20⟩

/-- REF_STAT (0x20C) [31:29] QSTATE (spec/17_timing_reference.md). -/
def REF_STAT.QSTATE : Field := ⟨.tru, 0x20C, 31, 29, .ro, 0, .any, 8, 0x20⟩
/-- REF_STAT (0x20C) [15:0] WTR_LEFT (spec/17_timing_reference.md). -/
def REF_STAT.WTR_LEFT : Field := ⟨.tru, 0x20C, 15, 0, .ro, 0, .any, 8, 0x20⟩

/-- REF_FREQ (0x210) [31:0] FREQ (spec/17_timing_reference.md). -/
def REF_FREQ.FREQ : Field := ⟨.tru, 0x210, 31, 0, .ro, 0, .any, 8, 0x20⟩

/-- REF_PHASE (0x214) [31:0] PHASE (spec/17_timing_reference.md). -/
def REF_PHASE.PHASE : Field := ⟨.tru, 0x214, 31, 0, .ro, 0x80000000, .any, 8, 0x20⟩

/-- SEN_CFG (0x200) [31] EN (spec/21_sensor_front_end.md). -/
def SEN_CFG.EN : Field := ⟨.sen, 0x200, 31, 31, .rw, 0, .any, 12, 0x20⟩
/-- SEN_CFG (0x200) [30:29] WIRES (spec/21_sensor_front_end.md). -/
def SEN_CFG.WIRES : Field := ⟨.sen, 0x200, 30, 29, .rw, 2, (.range 0 2), 12, 0x20⟩
/-- SEN_CFG (0x200) [28] ELEMENT (spec/21_sensor_front_end.md). -/
def SEN_CFG.ELEMENT : Field := ⟨.sen, 0x200, 28, 28, .rw, 0, .any, 12, 0x20⟩
/-- SEN_CFG (0x200) [27:25] GAIN (spec/21_sensor_front_end.md). -/
def SEN_CFG.GAIN : Field := ⟨.sen, 0x200, 27, 25, .rw, 4, (.range 0 4), 12, 0x20⟩
/-- SEN_CFG (0x200) [24:23] RATE (spec/21_sensor_front_end.md). -/
def SEN_CFG.RATE : Field := ⟨.sen, 0x200, 24, 23, .rw, 1, .any, 12, 0x20⟩
/-- SEN_CFG (0x200) [22:19] N_AVG (spec/21_sensor_front_end.md). -/
def SEN_CFG.N_AVG : Field := ⟨.sen, 0x200, 22, 19, .rw, 1, (.range 1 15), 12, 0x20⟩
/-- SEN_CFG (0x200) [15:0] LEAD_R (spec/21_sensor_front_end.md). -/
def SEN_CFG.LEAD_R : Field := ⟨.sen, 0x200, 15, 0, .rw, 0, .any, 12, 0x20⟩

/-- SEN_TRIM (0x204) [15:0] TRIM (spec/21_sensor_front_end.md). -/
def SEN_TRIM.TRIM : Field := ⟨.sen, 0x204, 15, 0, .rw, 0, .any, 12, 0x20⟩

/-- SEN_ALARM (0x208) [31:16] HI (spec/21_sensor_front_end.md). -/
def SEN_ALARM.HI : Field := ⟨.sen, 0x208, 31, 16, .rw, 0x7FFF, .any, 12, 0x20⟩
/-- SEN_ALARM (0x208) [15:0] LO (spec/21_sensor_front_end.md). -/
def SEN_ALARM.LO : Field := ⟨.sen, 0x208, 15, 0, .rw, 0x8000, .any, 12, 0x20⟩

/-- SEN_TEMP (0x20C) [31:0] TEMP (spec/21_sensor_front_end.md). -/
def SEN_TEMP.TEMP : Field := ⟨.sen, 0x20C, 31, 0, .ro, 0x80000000, .any, 12, 0x20⟩

/-- SEN_RATIO (0x210) [31:0] RATIO (spec/21_sensor_front_end.md). -/
def SEN_RATIO.RATIO : Field := ⟨.sen, 0x210, 31, 0, .ro, 0, .any, 12, 0x20⟩

/-- SEN_STAT (0x214) [31] VALID (spec/21_sensor_front_end.md). -/
def SEN_STAT.VALID : Field := ⟨.sen, 0x214, 31, 31, .ro, 0, .any, 12, 0x20⟩
/-- SEN_STAT (0x214) [30] STALE (spec/21_sensor_front_end.md). -/
def SEN_STAT.STALE : Field := ⟨.sen, 0x214, 30, 30, .ro, 1, .any, 12, 0x20⟩
/-- SEN_STAT (0x214) [29:24] FLAGS (spec/21_sensor_front_end.md). -/
def SEN_STAT.FLAGS : Field := ⟨.sen, 0x214, 29, 24, .ro, 0, .any, 12, 0x20⟩
/-- SEN_STAT (0x214) [15:0] SEQ (spec/21_sensor_front_end.md). -/
def SEN_STAT.SEQ : Field := ⟨.sen, 0x214, 15, 0, .ro, 0, .any, 12, 0x20⟩

/-- SEN_LEAD (0x218) [15:0] LEAD (spec/21_sensor_front_end.md). -/
def SEN_LEAD.LEAD : Field := ⟨.sen, 0x218, 15, 0, .ro, 0, .any, 12, 0x20⟩

/-- LANM_STATUS (0xC) [28] UP (spec/20_pair_redundancy.md). -/
def LANM_STATUS.UP : Field := ⟨.lanm, 0xC, 28, 28, .ro, 0, .any, 1, 4⟩
/-- LANM_STATUS (0xC) [27] BLOCK_LOCK (spec/20_pair_redundancy.md). -/
def LANM_STATUS.BLOCK_LOCK : Field := ⟨.lanm, 0xC, 27, 27, .ro, 0, .any, 1, 4⟩
/-- LANM_STATUS (0xC) [26] HI_BER (spec/20_pair_redundancy.md). -/
def LANM_STATUS.HI_BER : Field := ⟨.lanm, 0xC, 26, 26, .ro, 0, .any, 1, 4⟩

/-- The fields of the PWR page layout. -/
def pwrFields : List Field :=
  ([PWR_SUPPLY.STATE, PWR_SUPPLY.REVERSED, PWR_SUPPLY.BACKUP_OK, PWR_SUPPLY.MAIN_OK, PWR_SUPPLY.SOURCE, PWR_MAIN_V.VALUE, PWR_BACKUP_V.VALUE, PWR_INPUT_P.VALUE, PWR_BASE_TEMP.VALUE, PWR_POLICY.OUTAGE_LANE, PWR_POLICY.DORM_ON_LOW, PWR_POLICY.OUTAGE_EN] ++
   [PWR_POLICY.MAIN_RESTORE, PWR_POLICY.OUTAGE_DELAY, PWR_THRESH.BACKUP_LOW, PWR_OUTAGE_PORTS_LO.PORTS, PWR_OUTAGE_PORTS_HI.PORTS, PWR_WAKE_EN.TEMP, PWR_WAKE_EN.MRST, PWR_WAKE_EN.SERIAL, PWR_WAKE_EN.ALARM, PWR_WAKE_EN.BACKUP, PWR_WAKE_EN.MAIN, PWR_WAKE_CAUSE.CAUSE] ++
   [PWR_RTC_LO.COUNT_LO, PWR_RTC_HI.VALID, PWR_RTC_HI.COUNT_HI, PWR_RTC_ALARM_LO.COUNT_LO, PWR_RTC_ALARM_HI.COUNT_HI])

/-- The fields of the BOOT page layout. -/
def bootFields : List Field :=
  ([BOOT_STATUS.LAST_FAIL, BOOT_STATUS.UCODE_SLOT, BOOT_STATUS.MOD_SLOT, BOOT_STATUS.STAGE, BOOT_STATUS.MODE, BOOT_CAUSE.BREAK, BOOT_CAUSE.REVERT, BOOT_CAUSE.LOCKSTEP, BOOT_CAUSE.WATCHDOG, BOOT_CAUSE.SOFT, BOOT_CAUSE.WAKE, BOOT_CAUSE.MRST] ++
   [BOOT_CAUSE.POWER_ON, BOOT_SEL.UCODE_PREFER, BOOT_SEL.MOD_PREFER, BOOT_TRIAL.TIMEOUT, BOOT_IMG.MAJOR, BOOT_IMG.MINOR, BOOT_IMG.SVN, BOOT_IMG.STATE, BOOT_MIN_SVN.UCODE, BOOT_MIN_SVN.MOD, BOOT_MEMTEST.FAILED, BOOT_MEMTEST.REPAIRED])

/-- The fields of the LPT page layout. -/
def lptFields : List Field :=
  ([LPT_STATUS.DRV_EN, LPT_STATUS.RX_ON, LPT_STATUS.DECL_ACTIVE, LPT_STATUS.NB_MODE, LPT_STATUS.CLAMPING, LPT_STATUS.PERMIT, LPT_STATUS.AGC_FROZEN, LPT_STATUS.RANGE, LPT_STATUS.FAULT_CAUSE, LPT_DECL.DECLARED, LPT_DECL.PENDING, LPT_DECL.BB_EN] ++
   [LPT_DECL.NB_EN, LPT_DECL.COUPLER_LOSS, LPT_TX_LEVEL.CAPPED, LPT_TX_LEVEL.BB_ATTEN, LPT_TX_LEVEL.NB_ATTEN, LPT_AGC.MODE, LPT_AGC.FIXED_RANGE, LPT_STEP.THRESH, LPT_CLIP_CNT.COUNT, LPT_STEP_CNT.COUNT, LPT_CLAMP_CNT.COUNT, LPT_SURGE_CNT.COUNT] ++
   [LPT_NOISE.BB_PSD, LPT_NOISE.NB_PSD, LPT_CAL.TX_ERR, LPT_CAL.RX_ERR, LPT_CAL.STATE, LPT_LINE_Z.MAG, LPT_LINE_Z.ANGLE])

/-- The fields of the NBW page layout. -/
def nbwFields : List Field :=
  ([NBW_STATUS.BAND_VALID, NBW_STATUS.PENDING, NBW_BAND.BAND_CODE, NBW_BAND.BASE, NBW_BAND.NSETS, NBW_CFG.DET_THRESH, NBW_CFG.WIN_OFFSET, NBW_SYNC_CNT.COUNT, NBW_HDR_LOST_CNT.COUNT, NBW_CRC_FAIL_CNT.COUNT, NBW_OK_CNT.COUNT, NBW_ENC_LEN.SYMBOLS] ++
   [NBW_LEVEL.MV_LIMIT, NBW_LEVEL.LV_LIMIT])

/-- The fields of the BBW page layout. -/
def bbwFields : List Field :=
  ([BBW_STATUS.MASK_VALID, BBW_STATUS.PENDING, BBW_STATUS.DYN_ACTIVE, BBW_PROFILE.DYN_EN, BBW_PROFILE.PROFILE_CODE, BBW_PROFILE.DYN_THRESH, BBW_PROFILE.DYN_HOLD, BBW_CFG.DET_THRESH, BBW_CFG.MAX_ITER, BBW_CFG.LOAD_MARGIN, BBW_CFG.PI_DEFAULT, BBW_CFG.GI_DEFAULT] ++
   [BBW_TMAP.FULL, BBW_TMAP.PERIOD, BBW_TMAP.USED, BBW_DET_CNT.COUNT, BBW_HDR_LOST_CNT.COUNT, BBW_CRC_FAIL_CNT.COUNT, BBW_OK_CNT.COUNT, BBW_CW_FAIL_CNT.COUNT, BBW_TADJ_CNT.COUNT, BBW_ENC_LEN.SYMBOLS, BBW_LEVEL.MV_LIMIT, BBW_LEVEL.LV_LIMIT] ++
   [BBW_PMASK.CARRIERS, BBW_DMASK.CARRIERS])

/-- The fields of the NCAL page layout. -/
def ncalFields : List Field :=
  ([NCAL_STATUS.USE, NCAL_STATUS.PENDING, NCAL_STATUS.ANY_SETTLE, NCAL_CFG.DET_THRESH, NCAL_CFG.MARGIN, NCAL_CFG.ACQ, NCAL_CFG.SETTLE, NCAL_CFG.MISS, NCAL_SCHED.USE, NCAL_SCHED.AGE_MAX, NCAL_SCHED.NB_HIT_MAX, NCAL_SCHED.BB_HIT_MAX] ++
   [NCAL_SEL.ENTRY, NCAL_SEL.PORT, NCAL_ENT_STATE.VALID, NCAL_ENT_STATE.NB_BINS, NCAL_ENT_STATE.MISS_RUN, NCAL_ENT_STATE.HITS, NCAL_ENT_PERIOD.PERIOD, NCAL_ENT_NEXT.NEXT, NCAL_ENT_SHAPE.WIDTH, NCAL_ENT_SHAPE.LEVEL, NCAL_ENT_SHAPE.JITTER, NCAL_ENT_RU.RU] ++
   [NCAL_PORT_STAT.SETTLE_LEFT, NCAL_PORT_STAT.TRACKED, NCAL_PORT_STAT.APER, NCAL_ONSET_LAST.KIND, NCAL_ONSET_LAST.PORT, NCAL_ONSET_LAST.SLOT, NCAL_ONSET_CNT.COUNT, NCAL_DEFER_CNT.COUNT, NCAL_FULL_CNT.COUNT])

/-- The fields of the BCN page layout. -/
def bcnFields : List Field :=
  ([BCN_STATUS.BEACONING, BCN_STATUS.NEXT_PENDING, BCN_STATUS.ROUND, BCN_CFG.BEACON_EN, BCN_CFG.BB_CPER, BCN_CFG.BW, BCN_CFG.DOMAIN_ID, BCN_NB_MAP_LO.SETS, BCN_NB_MAP_HI.SETS, BCN_NB_MAP_CUR_LO.SETS, BCN_NB_MAP_CUR_HI.SETS, BCN_RU_MAP.RUS] ++
   [BCN_RU_MAP_CUR.RUS, BCN_SFN.SFN, BCN_DWELL_CONT.T_CONT, BCN_DWELL_OCC.OCC, BCN_DWELL_OCC.WINDOW, BCN_DWELL_SEL.PORT, BCN_DWELL_SEL.WAVE, BCN_DWELL_SEL.CHANNEL, BCN_DWELL_STATE.BARRED, BCN_DWELL_STATE.CONT, BCN_DWELL_STATE.OCC, BCN_BEACON_CNT.COUNT] ++
   [BCN_BEACON_REFUSED_CNT.COUNT, BCN_DWELL_STOP_CNT.COUNT, BCN_PLACE_REFUSED_CNT.COUNT])

/-- The fields of the ASC page layout. -/
def ascFields : List Field :=
  ([ASC_STATUS.FULL, ASC_STATUS.JOIN_OPEN, ASC_STATUS.BKEY_PENDING, ASC_STATUS.PARKED_FULL, ASC_CFG.JOIN_EN, ASC_CFG.PARK_ON_TIMEOUT, ASC_CFG.FWD_JOIN, ASC_CFG.KEY256, ASC_CFG.REKEY_HOLD, ASC_CFG.SUP_DEFAULT, ASC_DEFER.HOLD, ASC_REKEY.PERIOD] ++
   [ASC_LIVE.COUNT, ASC_JOINING.COUNT, ASC_PARKED.COUNT, ASC_RESULT.PARKED, ASC_RESULT.INDEX, ASC_BKEY.GEN, ASC_JOIN_CNT.COUNT, ASC_DEFER_CNT.COUNT, ASC_REJECT_CNT.COUNT, ASC_EXPIRE_CNT.COUNT, ASC_REPLAY_CNT.COUNT, ASC_AUTH_FAIL_CNT.COUNT] ++
   [ASC_MALFORMED_CNT.COUNT, ASC_CACHE_MISS_CNT.COUNT])

/-- The fields of the RPT page layout. -/
def rptFields : List Field :=
  ([RPT_STATUS.PARENT_ACTIVE, RPT_STATUS.ROLE_PENDING, RPT_STATUS.DEPTH, RPT_CFG.FLOOD_EN, RPT_CFG.BB_RELAY_EN, RPT_CFG.AUTO_ROUTE, RPT_TREE.ROLE, RPT_TREE.UP_IF, RPT_TREE.UP_PORT, RPT_TREE.UP_LANE, RPT_TREE.WAIT, RPT_PARENT.ACTIVE] ++
   [RPT_PARENT.BEACON_OK, RPT_PARENT.PARENT_DEPTH, RPT_PARENT.INDEX, RPT_SF_OFFSET.VALID, RPT_SF_OFFSET.OFFSET, RPT_ROUTE_SEL.INDEX, RPT_ROUTE_STATE.ENTRY, RPT_ROUTE_NEXT.ENTRY, RPT_FLOOD_TX_CNT.COUNT, RPT_FLOOD_RX_CNT.COUNT, RPT_FLOOD_DUP_CNT.COUNT, RPT_RELAY_FWD_CNT.COUNT] ++
   [RPT_HOP_LIMIT_CNT.COUNT, RPT_ROUTE_MISS_CNT.COUNT, RPT_TREE_FWD_CNT.COUNT])

/-- The fields of the ENG page layout. -/
def engFields : List Field :=
  ([ENG_STATUS.UCODE_LOADED, ENG_STATUS.POOL, ENG_STATUS.GROUP, ENG_STATUS.LDPC_ON, ENG_STATUS.FAULT_CAUSE, ENG_ROLE_LO.ROLES, ENG_ROLE_HI.ROLES, ENG_AWAKE.BUSY, ENG_AWAKE.AWAKE, ENG_LOAD.NB_OPEN, ENG_LOAD.BB_OPEN, ENG_LOAD.TX_LIVE] ++
   [ENG_CFG.IDLE_HOLD, ENG_CFG.STANDBY_BB, ENG_CFG.STANDBY_NB, ENG_UCODE.MAJOR, ENG_UCODE.MINOR, ENG_UCODE.IFACE, ENG_BURST_RX_CNT.COUNT, ENG_BURST_TX_CNT.COUNT, ENG_DETECT_DROP_CNT.COUNT, ENG_OVERFLOW_CNT.COUNT, ENG_LDPC_CW_CNT.COUNT, ENG_CTX_FREE.LOW] ++
   [ENG_CTX_FREE.FREE, ENG_CTX_USE.HELD, ENG_CTX_USE.OPEN, ENG_CTX_RSV.TX_RESERVE, ENG_NOCTX_RX_CNT.COUNT, ENG_NOCTX_TX_CNT.COUNT, ENG_CTX_SEL.ID, ENG_CTX_STATE.STATE, ENG_CTX_STATE.WAVE, ENG_CTX_STATE.DIR, ENG_CTX_STATE.GEN, ENG_CTX_STATE.AGE])

/-- The fields of the BQ page layout. -/
def bqFields : List Field :=
  ([BQ_STATUS.CFG_PENDING, BQ_STATUS.BB_NONE_FREE, BQ_CFG.NB_EARLY, BQ_CFG.BB_RING, BQ_RINGS.BB_TOTAL, BQ_RINGS.BB_FREE, BQ_SEL.ID, BQ_Q_STATE.OPEN, BQ_Q_STATE.BB, BQ_Q_STATE.MARK_VALID, BQ_Q_STATE.MARK_LOST, BQ_Q_STATE.OVERRUN] ++
   [BQ_Q_STATE.TRAILER, BQ_Q_STATE.REDECODE, BQ_Q_STATE.GEN, BQ_Q_STATE.PACKED, BQ_Q_STATE.CAP, BQ_Q_WR.UPPER, BQ_Q_WR.LOWER, BQ_Q_RD.UPPER, BQ_Q_RD.LOWER, BQ_OVERRUN_CNT.COUNT, BQ_NORING_CNT.COUNT, BQ_REWIND_FAIL_CNT.COUNT] ++
   [BQ_REDECODE_CNT.COUNT])

/-- The fields of the MEM page layout. -/
def memFields : List Field :=
  ([MEM_STATUS.ARB_NORMAL, MEM_STATUS.BADGER_RUN, MEM_STATUS.FUSE_BUSY, MEM_WIN.BASE, MEM_BADGER.EN, MEM_BADGER.AUTO_REPAIR, MEM_BADGER.LAST_BANK, MEM_BADGER.FIRST_BANK, MEM_BADGER.INTERVAL, MEM_BADGER_POS.PASSES, MEM_BADGER_POS.BANK, MEM_BADGER_POS.STRIPE] ++
   [MEM_BADGER_LAST_FAIL.BANK, MEM_BADGER_LAST_FAIL.WORD, MEM_BADGER_LAST_FAIL.BIT, MEM_BADGER_YIELD_CNT.COUNT, MEM_BADGER_SKIP_CNT.COUNT, MEM_BADGER_FAIL_CNT.COUNT, MEM_DRAM_CE_CNT.COUNT, MEM_DRAM_UE_CNT.COUNT, MEM_CNT_SEL.MASTER, MEM_CNT_WAIT.COUNT, MEM_CNT_BUSY.COUNT, MEM_FUSE_REQ.ARM] ++
   [MEM_FUSE_REQ.BANK, MEM_FUSE_REQ.SPARE, MEM_FUSE_REQ.COLUMN, MEM_FUSE_STAT.RESULT])

/-- The fields of the MEMB page layout. -/
def membFields : List Field :=
  ([MEMB_STATUS.POWER, MEMB_STATUS.FAULT_CAUSE, MEMB_POWER.STATE, MEMB_REPAIR.SPARE1, MEMB_REPAIR.SPARE0_USED, MEMB_REPAIR.SPARE0_FUSED, MEMB_REPAIR.SPARE0_COLUMN, MEMB_CE_CNT.COUNT, MEMB_UE_CNT.COUNT, MEMB_BUSY_CNT.COUNT, MEMB_OFF_CNT.COUNT, MEMB_LAST_ERR.UNCORR] ++
   [MEMB_LAST_ERR.WORD, MEMB_LAST_ERR.BIT])

/-- The fields of the CIP page layout. -/
def cipFields : List Field :=
  ([CIP_STATUS.P0_OK, CIP_STATUS.P1_OK, CIP_STATUS.P1_GATED, CIP_STATUS.DRBG_OK, CIP_STATUS.FAULT_CAUSE, CIP_HOLD.P1_SLOTS, CIP_HOLD.P0_SLOTS, CIP_TEST_CTL.LOADED, CIP_TEST_CTL.KEY256, CIP_TEST_KEY.KEY, CIP_JOB_CNT.COUNT, CIP_AUTH_FAIL_CNT.COUNT] ++
   [CIP_REFUSE_CNT.COUNT, CIP_FAULT_CNT.COUNT, CIP_KCACHE_MISS_CNT.COUNT])

/-- The fields of the TRU page layout. -/
def truFields : List Field :=
  ([TRU_STATUS.STATE, TRU_STATUS.SELECTED, TRU_STATUS.SWITCHING, TRU_STATUS.ALIGNED, TRU_STATUS.TE_OVER, TRU_STATUS.SLEWING, TRU_STATUS.OVEN_READY, TRU_CFG.TE_BUDGET, TRU_CFG.MANUAL_REF, TRU_CFG.AUTO_ALIGN, TRU_CFG.REVERT, TRU_CFG.MODE] ++
   [TRU_TIMING.HO_MIN, TRU_TIMING.WTR, TRU_HIST.HO_AVG, TRU_HIST.GUARD_EXTRA, TRU_OUT.PPS_EN, TRU_OUT.EPOCH_EN, TRU_OUT.T4_SEL, TRU_OUT.EPOCH_SRC, TRU_OUT.SQUELCH, TRU_OUT.EPOCH_DIV, TRU_OUT.PPS_WIDTH, TRU_OUT.EPOCH_WIDTH] ++
   [TRU_EPOCH_PER.PERIOD, TRU_OUT_ADV.ADVANCE, TRU_UTC.VALID, TRU_UTC.UTC_OFFSET, TRU_CAP_S_HI.VALUE, TRU_CAP_S_LO.VALUE, TRU_CAP_NS.VALUE, TRU_CAP_MT_HI.VALUE, TRU_CAP_MT_LO.VALUE, TRU_ABSORBED.VALUE, TRU_TE_EST.VALUE, TRU_STEER.VALUE] ++
   [TRU_HO_FREQ.VALUE, REF_CFG.EN, REF_CFG.PRIO, REF_CFG.BW, REF_CFG.AUX, REF_CFG.TE_REF, REF_QUAL.QUAL_TIME, REF_QUAL.FREQ_TOL, REF_DELAY.DELAY, REF_STAT.QSTATE, REF_STAT.WTR_LEFT, REF_FREQ.FREQ] ++
   [REF_PHASE.PHASE])

/-- The fields of the LAN page layout. -/
def lanFields : List Field :=
  ([LAN_STATUS.UP, LAN_STATUS.BLOCK_LOCK, LAN_STATUS.HI_BER, LAN_STATUS.PAUSED, LAN_STATUS.PTP_SLAVE, LAN_STATUS.TUNNEL_ACTIVE, LAN_CFG.EN, LAN_CFG.TUNNEL_EN, LAN_CFG.VLAN_EN, LAN_CFG.PAUSE_EN, LAN_CFG.PRIO, LAN_ETYPE.ETYPE] ++
   [LAN_VLAN.PCP, LAN_VLAN.VID, LAN_MAC_HI.ADDR, LAN_MAC_LO.ADDR, LAN_PEER_HI.ADDR, LAN_PEER_LO.ADDR, LAN_PTP.PROFILE, LAN_PTP.DOMAIN, LAN_PTP.LOG_DELAY_INT, LAN_PTP_OFS.VALUE, LAN_PTP_DLY.VALUE, LAN_LINK_DLY.VALUE] ++
   [LAN_TX_CNT.COUNT, LAN_RX_CNT.COUNT, LAN_FCS_ERR_CNT.COUNT, LAN_RX_DROP_CNT.COUNT, LAN_BLOCK_ERR_CNT.COUNT])

/-- The fields of the PCI page layout. -/
def pciFields : List Field :=
  ([PCI_STATUS.LINK_UP, PCI_STATUS.WIDTH, PCI_STATUS.SPEED, PCI_STATUS.BUS_MASTER, PCI_TUNNEL.DEST, PCI_UL_CFG.RINGS, PCI_DL_CFG.PER_EP, PCI_RING_ERR.ERR, PCI_DL_DONE_CNT.COUNT, PCI_UL_DONE_CNT.COUNT, PCI_STORED_CNT.COUNT, PCI_EVT_LOST_CNT.COUNT] ++
   [PCI_CMPL_LOST_CNT.COUNT, PCI_RING.SQ_LO, PCI_RING.SQ_HI, PCI_RING.CQ_LO, PCI_RING.CQ_HI, PCI_RING.EN, PCI_RING.LOG2, PCI_RING.COAL_CNT, PCI_RING.COAL_US, PCI_RING.SQ_CONS, PCI_RING.CQ_PROD])

/-- The fields of the STO page layout. -/
def stoFields : List Field :=
  ([STO_STATUS.READ_ONLY, STO_STATUS.SNF_REPLAY, STO_STATUS.RESERVE_OK, STO_CFG.SNF_FULL, STO_WEAR.SPARE, STO_WEAR.WEAR, STO_SNF_USED.COUNT, STO_SNF_RECORDS.COUNT, STO_LAST_ERR.REGION, STO_LAST_ERR.LBA, STO_SNF_LOST_CNT.COUNT, STO_MEDIA_ERR_CNT.COUNT] ++
   [STO_RETRY_CNT.COUNT])

/-- The fields of the PAIR page layout. -/
def pairFields : List Field :=
  ([PAIR_STATUS.ROLE, PAIR_STATUS.SYNC, PAIR_STATUS.HB_OK, PAIR_STATUS.PARTNER_BEACON, PAIR_STATUS.HOLD_OFF, PAIR_STATUS.GROUP0_PENDING, PAIR_ROLE.PAIRED, PAIR_ROLE.UNIT, PAIR_PEER_HI.ID, PAIR_PEER_LO.ID, PAIR_CFG.TAKEOVER_EN, PAIR_SYNC_PROG.VALUE] ++
   [PAIR_EPOCH.VALUE, PAIR_LINK_DLY.VALUE, PAIR_TAKEOVER_CNT.COUNT, PAIR_HB_MISS_CNT.COUNT, PAIR_MIRROR_ERR_CNT.COUNT, PAIR_DELTA_CNT.COUNT])

/-- The fields of the LANM page layout. -/
def lanmFields : List Field :=
  ([LANM_CFG.EN, LANM_TX_CNT.COUNT, LANM_RX_CNT.COUNT, LANM_FCS_ERR_CNT.COUNT, LANM_STATUS.UP, LANM_STATUS.BLOCK_LOCK, LANM_STATUS.HI_BER])

/-- The fields of the SEN page layout. -/
def senFields : List Field :=
  ([SEN_STATUS.SI_FAULT, SEN_CFG.EN, SEN_CFG.WIRES, SEN_CFG.ELEMENT, SEN_CFG.GAIN, SEN_CFG.RATE, SEN_CFG.N_AVG, SEN_CFG.LEAD_R, SEN_TRIM.TRIM, SEN_ALARM.HI, SEN_ALARM.LO, SEN_TEMP.TEMP] ++
   [SEN_RATIO.RATIO, SEN_STAT.VALID, SEN_STAT.STALE, SEN_STAT.FLAGS, SEN_STAT.SEQ, SEN_LEAD.LEAD])

/-- The fields of the MGT page layout. -/
def mgtFields : List Field :=
  ([MGT_STATUS.CAMPAIGN, MGT_STATUS.LOG_WRAPPED, MGT_LOG_NEXT.VALUE, MGT_LOG_FLUSHED.VALUE, MGT_LOG_GAP_CNT.VALUE, MGT_CAMP.ACTIVE, MGT_CAMP.PAUSED, MGT_CAMP.IMAGE, MGT_CAMP.GROUP, MGT_CAMP.BLOCK, MGT_CAMP_PASS.PASSES, MGT_CAMP_PASS.DONE])

/-- The fields of the TKT page layout. -/
def tktFields : List Field :=
  ([TKT_STATUS.LIST_SET, TKT_STATUS.CHAL_HELD, TKT_AUTH.THRESHOLD, TKT_AUTH.COUNT, TKT_COUNTER_HI.VALUE, TKT_COUNTER_LO.VALUE, TKT_CHAL_HI.VALUE, TKT_CHAL_LO.VALUE, TKT_CHAL_LEFT.LEFT, TKT_ROOT.REVOKED, TKT_ROOT.ACTIVE, TKT_APPLY_CNT.COUNT] ++
   [TKT_REFUSE_CNT.COUNT])

/-- The fields of the SER page layout. -/
def serFields : List Field :=
  ([SER_STATUS.RX_FULL, SER_STATUS.TX_EMPTY, SER_STATUS.TX_IDLE, SER_STATUS.HELD, SER_STATUS.LINE_STUCK, SER_STATUS.BREAK_ACTIVE, SER_STATUS.OWNER, SER_CFG.EN, SER_CFG.IR, SER_CFG.FRAMED, SER_CFG.FLOW, SER_CFG.PARITY] ++
   [SER_CFG.DATA7, SER_CFG.STOP2, SER_CFG.INVERSE, SER_DIV.DIV, SER_TX.DATA, SER_RX.VALID, SER_RX.OVR, SER_RX.BRK, SER_RX.FE, SER_RX.PE, SER_RX.CRC_ERR, SER_RX.EOF] ++
   [SER_RX.SOF, SER_RX.DATA, SER_BRK_LEN.SAT, SER_BRK_LEN.LEN, SER_SLEEP.EN, SER_SLEEP.RATE, SER_SLEEP.ADDR, SER_CARD.PRESENT, SER_CARD.POWERED, SER_CARD.ACTIVE, SER_CARD.LAST_SW, SER_RX_CNT.COUNT] ++
   [SER_BADCHAR_CNT.COUNT, SER_OVR_CNT.COUNT, SER_BRK_CNT.COUNT])

/-- The fields of the SAF page layout. -/
def safFields : List Field :=
  ([SAF_STATUS.KILL, SAF_STATUS.KILLN_LOW, SAF_STATUS.TRIP, SAF_KILL.PORT, SAF_KILL.CAUSE, SAF_CFG.KILLN_AUTO, SAF_CFG.BAND_MARGIN, SAF_CFG.LEVEL_MARGIN, SAF_SI_LIM.TRIP, SAF_SI_LIM.WARN, SAF_TRIP.FAULT, SAF_TRIP.TEMP] ++
   [SAF_SF2_CFG.EN, SAF_SF2_CFG.MAX_AGE, SAF_SF2_CFG.SEQ_WIN, SAF_SF2_LAST.REASON, SAF_SF2_LAST.INDEX, SAF_DIAG_LAST.CLASS, SAF_DIAG_LAST.INST, SAF_KILL_CNT.COUNT, SAF_TRIP_CNT.COUNT, SAF_SF2_OK_CNT.COUNT, SAF_SF2_REJ_CNT.COUNT, SAF_DIAG_CNT.COUNT])

/-- The fields that the owning chapters define on the pages of each kind, beside the common header (R28). -/
def kindFields : PageKind → List Field
  | .mod => []
  | .pwr => pwrFields
  | .boot => bootFields
  | .saf => safFields
  | .tkt => tktFields
  | .mgt => mgtFields
  | .sen => senFields
  | .ser => serFields
  | .tru => truFields
  | .pair => pairFields
  | .sto => stoFields
  | .pci => pciFields
  | .lan => lanFields
  | .lanm => lanmFields
  | .bcn => bcnFields
  | .asc => ascFields
  | .rpt => rptFields
  | .ncal => ncalFields
  | .cip => cipFields
  | .bq => bqFields
  | .nbw => nbwFields
  | .bbw => bbwFields
  | .mem => memFields
  | .lpt => lptFields
  | .eng => engFields
  | .memb => membFields

/-! Interrupt bits (R29). -/

/-- INT_STAT bit 10 of the PWR page (spec/04_supplies_and_sleep.md). -/
def PWR_INT.RTC_ALARM : Nat := 10

/-- INT_STAT bit 9 of the PWR page (spec/04_supplies_and_sleep.md). -/
def PWR_INT.BACKUP_LOW : Nat := 9

/-- INT_STAT bit 8 of the PWR page (spec/04_supplies_and_sleep.md). -/
def PWR_INT.TEMP_KILL : Nat := 8

/-- INT_STAT bit 7 of the PWR page (spec/04_supplies_and_sleep.md). -/
def PWR_INT.OVER_TEMP : Nat := 7

/-- INT_STAT bit 6 of the PWR page (spec/04_supplies_and_sleep.md). -/
def PWR_INT.OUTAGE_REFUSED : Nat := 6

/-- INT_STAT bit 5 of the PWR page (spec/04_supplies_and_sleep.md). -/
def PWR_INT.OUTAGE_LEFT : Nat := 5

/-- INT_STAT bit 4 of the PWR page (spec/04_supplies_and_sleep.md). -/
def PWR_INT.OUTAGE_ENTERED : Nat := 4

/-- INT_STAT bit 3 of the PWR page (spec/04_supplies_and_sleep.md). -/
def PWR_INT.BACKUP_REVERSED : Nat := 3

/-- INT_STAT bit 2 of the PWR page (spec/04_supplies_and_sleep.md). -/
def PWR_INT.BACKUP_CHANGE : Nat := 2

/-- INT_STAT bit 1 of the PWR page (spec/04_supplies_and_sleep.md). -/
def PWR_INT.MAIN_RESTORED : Nat := 1

/-- INT_STAT bit 0 of the PWR page (spec/04_supplies_and_sleep.md). -/
def PWR_INT.MAIN_LOST : Nat := 0

/-- INT_STAT bit 3 of the BOOT page (spec/05_startup_and_images.md). -/
def BOOT_INT.TRIAL_REVERTED : Nat := 3

/-- INT_STAT bit 2 of the BOOT page (spec/05_startup_and_images.md). -/
def BOOT_INT.IMAGE_INVALID : Nat := 2

/-- INT_STAT bit 1 of the BOOT page (spec/05_startup_and_images.md). -/
def BOOT_INT.TRIAL_RUNNING : Nat := 1

/-- INT_STAT bit 0 of the BOOT page (spec/05_startup_and_images.md). -/
def BOOT_INT.SERVICE : Nat := 0

/-- INT_STAT bit 7 of the LPT pages (spec/06_line_ports.md). -/
def LPT_INT.DECL_APPLIED : Nat := 7

/-- INT_STAT bit 6 of the LPT pages (spec/06_line_ports.md). -/
def LPT_INT.SURGE : Nat := 6

/-- INT_STAT bit 5 of the LPT pages (spec/06_line_ports.md). -/
def LPT_INT.DRIVER_HOT : Nat := 5

/-- INT_STAT bit 4 of the LPT pages (spec/06_line_ports.md). -/
def LPT_INT.TX_REFUSED : Nat := 4

/-- INT_STAT bit 3 of the LPT pages (spec/06_line_ports.md). -/
def LPT_INT.STEP : Nat := 3

/-- INT_STAT bit 2 of the LPT pages (spec/06_line_ports.md). -/
def LPT_INT.CLIP : Nat := 2

/-- INT_STAT bit 1 of the LPT pages (spec/06_line_ports.md). -/
def LPT_INT.LEVEL_CAPPED : Nat := 1

/-- INT_STAT bit 0 of the LPT pages (spec/06_line_ports.md). -/
def LPT_INT.LEVEL_CLAMPED : Nat := 0

/-- INT_STAT bit 2 of the NBW page (spec/07_narrowband_tone_keying.md). -/
def NBW_INT.BAND_APPLIED : Nat := 2

/-- INT_STAT bit 1 of the NBW page (spec/07_narrowband_tone_keying.md). -/
def NBW_INT.CRC_FAIL : Nat := 1

/-- INT_STAT bit 0 of the NBW page (spec/07_narrowband_tone_keying.md). -/
def NBW_INT.HDR_LOST : Nat := 0

/-- INT_STAT bit 5 of the BBW page (spec/08_broadband_ofdm.md). -/
def BBW_INT.TMAP_UNKNOWN : Nat := 5

/-- INT_STAT bit 4 of the BBW page (spec/08_broadband_ofdm.md). -/
def BBW_INT.TMAP_FULL : Nat := 4

/-- INT_STAT bit 3 of the BBW page (spec/08_broadband_ofdm.md). -/
def BBW_INT.DYN_CHANGE : Nat := 3

/-- INT_STAT bit 2 of the BBW page (spec/08_broadband_ofdm.md). -/
def BBW_INT.MASK_APPLIED : Nat := 2

/-- INT_STAT bit 1 of the BBW page (spec/08_broadband_ofdm.md). -/
def BBW_INT.CRC_FAIL : Nat := 1

/-- INT_STAT bit 0 of the BBW page (spec/08_broadband_ofdm.md). -/
def BBW_INT.HDR_LOST : Nat := 0

/-- INT_STAT bit 4 of the NCAL page (spec/09_noise_calendar.md). -/
def NCAL_INT.DEFERRED : Nat := 4

/-- INT_STAT bit 3 of the NCAL page (spec/09_noise_calendar.md). -/
def NCAL_INT.FULL : Nat := 3

/-- INT_STAT bit 2 of the NCAL page (spec/09_noise_calendar.md). -/
def NCAL_INT.ONSET : Nat := 2

/-- INT_STAT bit 1 of the NCAL page (spec/09_noise_calendar.md). -/
def NCAL_INT.ENTRY_DROP : Nat := 1

/-- INT_STAT bit 0 of the NCAL page (spec/09_noise_calendar.md). -/
def NCAL_INT.ENTRY_NEW : Nat := 0

/-- INT_STAT bit 5 of the BCN page (spec/10_beacons_and_superframe.md). -/
def BCN_INT.BEACON_REFUSED : Nat := 5

/-- INT_STAT bit 4 of the BCN page (spec/10_beacons_and_superframe.md). -/
def BCN_INT.MAP_REFUSED : Nat := 4

/-- INT_STAT bit 3 of the BCN page (spec/10_beacons_and_superframe.md). -/
def BCN_INT.EPOCH_APPLIED : Nat := 3

/-- INT_STAT bit 2 of the BCN page (spec/10_beacons_and_superframe.md). -/
def BCN_INT.DWELL_STOP : Nat := 2

/-- INT_STAT bit 1 of the BCN page (spec/10_beacons_and_superframe.md). -/
def BCN_INT.PLACE_REFUSED : Nat := 1

/-- INT_STAT bit 0 of the BCN page (spec/10_beacons_and_superframe.md). -/
def BCN_INT.SF_START : Nat := 0

/-- INT_STAT bit 7 of the ASC page (spec/11_associations_and_contexts.md). -/
def ASC_INT.BKEY_APPLIED : Nat := 7

/-- INT_STAT bit 6 of the ASC page (spec/11_associations_and_contexts.md). -/
def ASC_INT.ECC_FAULT : Nat := 6

/-- INT_STAT bit 5 of the ASC page (spec/11_associations_and_contexts.md). -/
def ASC_INT.AUTH_FAIL : Nat := 5

/-- INT_STAT bit 4 of the ASC page (spec/11_associations_and_contexts.md). -/
def ASC_INT.REPLAY : Nat := 4

/-- INT_STAT bit 3 of the ASC page (spec/11_associations_and_contexts.md). -/
def ASC_INT.JOIN_DEFER : Nat := 3

/-- INT_STAT bit 2 of the ASC page (spec/11_associations_and_contexts.md). -/
def ASC_INT.TABLE_FULL : Nat := 2

/-- INT_STAT bit 1 of the ASC page (spec/11_associations_and_contexts.md). -/
def ASC_INT.ENDED : Nat := 1

/-- INT_STAT bit 0 of the ASC page (spec/11_associations_and_contexts.md). -/
def ASC_INT.JOINED : Nat := 0

/-- INT_STAT bit 4 of the RPT page (spec/12_repeating_and_trees.md). -/
def RPT_INT.ROUTE_LEARNED : Nat := 4

/-- INT_STAT bit 3 of the RPT page (spec/12_repeating_and_trees.md). -/
def RPT_INT.ROUTE_MISS : Nat := 3

/-- INT_STAT bit 2 of the RPT page (spec/12_repeating_and_trees.md). -/
def RPT_INT.HOP_LIMIT : Nat := 2

/-- INT_STAT bit 1 of the RPT page (spec/12_repeating_and_trees.md). -/
def RPT_INT.PARENT_LOST : Nat := 1

/-- INT_STAT bit 0 of the RPT page (spec/12_repeating_and_trees.md). -/
def RPT_INT.PARENT_JOINED : Nat := 0

/-- INT_STAT bit 4 of the ENG pages (spec/13_tone_engines.md). -/
def ENG_INT.NO_CONTEXT : Nat := 4

/-- INT_STAT bit 3 of the ENG pages (spec/13_tone_engines.md). -/
def ENG_INT.DETECT_DROPPED : Nat := 3

/-- INT_STAT bit 2 of the ENG pages (spec/13_tone_engines.md). -/
def ENG_INT.OVERFLOW : Nat := 2

/-- INT_STAT bit 1 of the ENG pages (spec/13_tone_engines.md). -/
def ENG_INT.CLUSTER_FAULT : Nat := 1

/-- INT_STAT bit 0 of the ENG pages (spec/13_tone_engines.md). -/
def ENG_INT.UCODE_RELOADED : Nat := 0

/-- INT_STAT bit 3 of the BQ page (spec/14_burst_queues.md). -/
def BQ_INT.FORCED : Nat := 3

/-- INT_STAT bit 2 of the BQ page (spec/14_burst_queues.md). -/
def BQ_INT.REWIND_FAIL : Nat := 2

/-- INT_STAT bit 1 of the BQ page (spec/14_burst_queues.md). -/
def BQ_INT.NO_RING : Nat := 1

/-- INT_STAT bit 0 of the BQ page (spec/14_burst_queues.md). -/
def BQ_INT.OVERRUN : Nat := 0

/-- INT_STAT bit 3 of the MEM page (spec/15_memory_banks.md). -/
def MEM_INT.FUSE_DONE : Nat := 3

/-- INT_STAT bit 2 of the MEM page (spec/15_memory_banks.md). -/
def MEM_INT.DRAM_UE : Nat := 2

/-- INT_STAT bit 1 of the MEM page (spec/15_memory_banks.md). -/
def MEM_INT.BADGER_SKIP : Nat := 1

/-- INT_STAT bit 0 of the MEM page (spec/15_memory_banks.md). -/
def MEM_INT.BADGER_FAIL : Nat := 0

/-- INT_STAT bit 3 of the MEMB pages (spec/15_memory_banks.md). -/
def MEMB_INT.POWER_REFUSED : Nat := 3

/-- INT_STAT bit 2 of the MEMB pages (spec/15_memory_banks.md). -/
def MEMB_INT.OFF_ACCESS : Nat := 2

/-- INT_STAT bit 1 of the MEMB pages (spec/15_memory_banks.md). -/
def MEMB_INT.REPAIRED : Nat := 1

/-- INT_STAT bit 0 of the MEMB pages (spec/15_memory_banks.md). -/
def MEMB_INT.UE : Nat := 0

/-- INT_STAT bit 5 of the CIP page (spec/16_cipher_engine.md). -/
def CIP_INT.SELF_TEST_FAIL : Nat := 5

/-- INT_STAT bit 4 of the CIP page (spec/16_cipher_engine.md). -/
def CIP_INT.PIPE_OUT : Nat := 4

/-- INT_STAT bit 3 of the CIP page (spec/16_cipher_engine.md). -/
def CIP_INT.PARITY : Nat := 3

/-- INT_STAT bit 2 of the CIP page (spec/16_cipher_engine.md). -/
def CIP_INT.EXHAUSTED : Nat := 2

/-- INT_STAT bit 1 of the CIP page (spec/16_cipher_engine.md). -/
def CIP_INT.IC_WARN : Nat := 1

/-- INT_STAT bit 0 of the CIP page (spec/16_cipher_engine.md). -/
def CIP_INT.AUTH_FAIL : Nat := 0

/-- INT_STAT bit 6 of the TRU page (spec/17_timing_reference.md). -/
def TRU_INT.ALIGN_DONE : Nat := 6

/-- INT_STAT bit 5 of the TRU page (spec/17_timing_reference.md). -/
def TRU_INT.TIME_STEP : Nat := 5

/-- INT_STAT bit 4 of the TRU page (spec/17_timing_reference.md). -/
def TRU_INT.TE_OVER : Nat := 4

/-- INT_STAT bit 3 of the TRU page (spec/17_timing_reference.md). -/
def TRU_INT.SWITCHED : Nat := 3

/-- INT_STAT bit 2 of the TRU page (spec/17_timing_reference.md). -/
def TRU_INT.DISQUALIFIED : Nat := 2

/-- INT_STAT bit 1 of the TRU page (spec/17_timing_reference.md). -/
def TRU_INT.QUALIFIED : Nat := 1

/-- INT_STAT bit 0 of the TRU page (spec/17_timing_reference.md). -/
def TRU_INT.STATE_CHANGE : Nat := 0

/-- INT_STAT bit 4 of the LAN pages (spec/18_backhaul_and_host.md). -/
def LAN_INT.PTP_LOST : Nat := 4

/-- INT_STAT bit 3 of the LAN pages (spec/18_backhaul_and_host.md). -/
def LAN_INT.RX_ERR : Nat := 3

/-- INT_STAT bit 2 of the LAN pages (spec/18_backhaul_and_host.md). -/
def LAN_INT.PAUSE : Nat := 2

/-- INT_STAT bit 1 of the LAN pages (spec/18_backhaul_and_host.md). -/
def LAN_INT.DOWN : Nat := 1

/-- INT_STAT bit 0 of the LAN pages (spec/18_backhaul_and_host.md). -/
def LAN_INT.UP : Nat := 0

/-- INT_STAT bit 4 of the PCI page (spec/18_backhaul_and_host.md). -/
def PCI_INT.RING_ERROR : Nat := 4

/-- INT_STAT bit 3 of the PCI page (spec/18_backhaul_and_host.md). -/
def PCI_INT.STORING : Nat := 3

/-- INT_STAT bit 2 of the PCI page (spec/18_backhaul_and_host.md). -/
def PCI_INT.EVENT_LOST : Nat := 2

/-- INT_STAT bit 1 of the PCI page (spec/18_backhaul_and_host.md). -/
def PCI_INT.AER : Nat := 1

/-- INT_STAT bit 0 of the PCI page (spec/18_backhaul_and_host.md). -/
def PCI_INT.LINK_CHANGE : Nat := 0

/-- INT_STAT bit 3 of the STO page (spec/19_bulk_store.md). -/
def STO_INT.RESERVE_FAIL : Nat := 3

/-- INT_STAT bit 2 of the STO page (spec/19_bulk_store.md). -/
def STO_INT.SNF_FULL : Nat := 2

/-- INT_STAT bit 1 of the STO page (spec/19_bulk_store.md). -/
def STO_INT.READ_ONLY : Nat := 1

/-- INT_STAT bit 0 of the STO page (spec/19_bulk_store.md). -/
def STO_INT.WEAR_WARN : Nat := 0

/-- INT_STAT bit 7 of the PAIR page (spec/20_pair_redundancy.md). -/
def PAIR_INT.DOMAIN_CLASH : Nat := 7

/-- INT_STAT bit 6 of the PAIR page (spec/20_pair_redundancy.md). -/
def PAIR_INT.HANDOVER_DONE : Nat := 6

/-- INT_STAT bit 5 of the PAIR page (spec/20_pair_redundancy.md). -/
def PAIR_INT.MIRROR_ERR : Nat := 5

/-- INT_STAT bit 4 of the PAIR page (spec/20_pair_redundancy.md). -/
def PAIR_INT.SPLIT_GUARD : Nat := 4

/-- INT_STAT bit 3 of the PAIR page (spec/20_pair_redundancy.md). -/
def PAIR_INT.SYNCED : Nat := 3

/-- INT_STAT bit 2 of the PAIR page (spec/20_pair_redundancy.md). -/
def PAIR_INT.PEER_FOUND : Nat := 2

/-- INT_STAT bit 1 of the PAIR page (spec/20_pair_redundancy.md). -/
def PAIR_INT.PEER_LOST : Nat := 1

/-- INT_STAT bit 0 of the PAIR page (spec/20_pair_redundancy.md). -/
def PAIR_INT.TAKEOVER : Nat := 0

/-- INT_STAT bit 4 of the SEN page (spec/21_sensor_front_end.md). -/
def SEN_INT.SI_FAULT : Nat := 4

/-- INT_STAT bit 3 of the SEN page (spec/21_sensor_front_end.md). -/
def SEN_INT.STALE : Nat := 3

/-- INT_STAT bit 2 of the SEN page (spec/21_sensor_front_end.md). -/
def SEN_INT.SENSOR_FAULT : Nat := 2

/-- INT_STAT bit 1 of the SEN page (spec/21_sensor_front_end.md). -/
def SEN_INT.OVER_RANGE : Nat := 1

/-- INT_STAT bit 0 of the SEN page (spec/21_sensor_front_end.md). -/
def SEN_INT.ALARM : Nat := 0

/-- INT_STAT bit 2 of the MGT page (spec/22_management_and_dual_control.md). -/
def MGT_INT.CAMPAIGN_END : Nat := 2

/-- INT_STAT bit 1 of the MGT page (spec/22_management_and_dual_control.md). -/
def MGT_INT.CAMPAIGN_PASS : Nat := 1

/-- INT_STAT bit 0 of the MGT page (spec/22_management_and_dual_control.md). -/
def MGT_INT.LOG_GAP : Nat := 0

/-- INT_STAT bit 2 of the TKT page (spec/22_management_and_dual_control.md). -/
def TKT_INT.APPLIED : Nat := 2

/-- INT_STAT bit 1 of the TKT page (spec/22_management_and_dual_control.md). -/
def TKT_INT.REFUSED : Nat := 1

/-- INT_STAT bit 0 of the TKT page (spec/22_management_and_dual_control.md). -/
def TKT_INT.CHAL_EXPIRED : Nat := 0

/-- INT_STAT bit 9 of the SER pages (spec/23_serial_ports.md). -/
def SER_INT.CARD_CHANGE : Nat := 9

/-- INT_STAT bit 8 of the SER pages (spec/23_serial_ports.md). -/
def SER_INT.LINE_FREE : Nat := 8

/-- INT_STAT bit 7 of the SER pages (spec/23_serial_ports.md). -/
def SER_INT.LINE_STUCK : Nat := 7

/-- INT_STAT bit 6 of the SER pages (spec/23_serial_ports.md). -/
def SER_INT.BREAK_END : Nat := 6

/-- INT_STAT bit 5 of the SER pages (spec/23_serial_ports.md). -/
def SER_INT.BREAK_START : Nat := 5

/-- INT_STAT bit 4 of the SER pages (spec/23_serial_ports.md). -/
def SER_INT.OVERRUN : Nat := 4

/-- INT_STAT bit 3 of the SER pages (spec/23_serial_ports.md). -/
def SER_INT.RX_ERROR : Nat := 3

/-- INT_STAT bit 2 of the SER pages (spec/23_serial_ports.md). -/
def SER_INT.FRAME_END : Nat := 2

/-- INT_STAT bit 1 of the SER pages (spec/23_serial_ports.md). -/
def SER_INT.TX_EMPTY : Nat := 1

/-- INT_STAT bit 0 of the SER pages (spec/23_serial_ports.md). -/
def SER_INT.RX_FULL : Nat := 0

/-- INT_STAT bit 5 of the SAF page (spec/24_functional_safety.md). -/
def SAF_INT.SI_WARN : Nat := 5

/-- INT_STAT bit 4 of the SAF page (spec/24_functional_safety.md). -/
def SAF_INT.DIAG : Nat := 4

/-- INT_STAT bit 3 of the SAF page (spec/24_functional_safety.md). -/
def SAF_INT.SF2_REJECT : Nat := 3

/-- INT_STAT bit 2 of the SAF page (spec/24_functional_safety.md). -/
def SAF_INT.TRIP : Nat := 2

/-- INT_STAT bit 1 of the SAF page (spec/24_functional_safety.md). -/
def SAF_INT.KILL_ENDED : Nat := 1

/-- INT_STAT bit 0 of the SAF page (spec/24_functional_safety.md). -/
def SAF_INT.KILL : Nat := 0

/-- INT_STAT bit 0 of the LANM pages, as on a LAN page (spec/20_pair_redundancy.md). -/
def LANM_INT.UP : Nat := 0

/-- INT_STAT bit 1 of the LANM pages, as on a LAN page (spec/20_pair_redundancy.md). -/
def LANM_INT.DOWN : Nat := 1

/-- The fields of a page kind that lie in the register at page offset `o`. -/
def fieldsAt (k : PageKind) (o : Nat) : List Field := (kindFields k).filter (fun f => f.atOff o)

/-- The reset word of the register at offset `o` of a page of kind `k`, from the tables of the owning chapters. -/
def tableReset (k : PageKind) (o : Nat) : Word :=
  (fieldsAt k o).foldl (fun w f => setBits w f.hi f.lo f.rst) 0

/-- REF_CFG at reset: bandwidth code, PRIO and TE_REF of reference `r` (R348). -/
def refCfgReset (r : Nat) : Word :=
  match r with
  | 0 => setBits (setBits (setBits 0 30 28 0) 27 24 1) 15 0 100
  | 5 => setBits (setBits (setBits 0 30 28 1) 27 24 1) 15 0 1000
  | 6 => setBits (setBits (setBits 0 30 28 2) 27 24 3) 15 0 50
  | 7 => setBits (setBits (setBits 0 30 28 3) 27 24 0) 15 0 2000
  | _ => setBits (setBits 0 30 28 4) 27 24 4

/-- CFG of an SI channel: enabled, bridge, G = 16, RATE 3, N_AVG 2 (R423). -/
def siCfg : Word := setBits (setBits (setBits (setBits (setBits 0 31 31 1) 30 29 3) 27 25 4) 24 23 3) 22 19 2

/-- SER_CFG at reset per instance: SER0 and SER1 enabled, SER1 infrared; SER2 and SER3 read even parity, two stop bits for the guard time of 2 ETU, and
the inverse convention (R464). DEDUCED (log 32) for the stop bits. -/
def serCfgReset (i : Nat) : Word :=
  match i with
  | 0 => setBits 0 31 31 1
  | 1 => setBits (setBits 0 31 31 1) 30 30 1
  | _ => setBits (setBits (setBits 0 27 26 1) 24 24 1) 23 23 1

/-- SER_DIV at reset per instance (R453). -/
def serDivReset (i : Nat) : Word := if i = 0 then 54 else 651

/-- The word of a register of a page at reset: the common header (R28, R29), then the tables of the owning chapter, with the
registers whose reset depends on the instance. -/
def pageReset (p : Page) (o : Nat) : Word :=
  match o with
  | 0x000 => BitVec.ofNat 32 (pageType (pageKind p) * 0x10000 + pageInstance p)
  | 0x004 => if p = .mod then 0x41010100 else 0x0100
  | 0x020 => BitVec.ofNat 32 (lockProt (pageKind p))
  | _ =>
    match p, o with
    | .bbw, 0x2D4 => 0x1FFFFFFF
    | .mod, 0x128 => BitVec.ofNat 32 (Config.moduleId.toNat / 2 ^ 32)
    | .mod, 0x12C => BitVec.ofNat 32 Config.moduleId.toNat
    | .mod, 0x130 => 0x05121F4A
    | .eng c, 0x00C => if c.val < 20 then setBits 0 26 22 c.val else setBits (setBits 0 27 27 1) 26 22 0x1F
    | .eng c, o => if c.val ≠ 0 ∧ 0x180 ≤ o ∧ o < 0x1A0 then 0 else tableReset .eng o
    | .ser s, 0x00C => setBits (tableReset .ser 0x00C) 22 22 (if s.val = 1 then 0 else 1)
    | .ser s, 0x100 => serCfgReset s.val
    | .ser s, 0x104 => serDivReset s.val
    | .lan l, 0x10C => BitVec.ofNat 32 ((Config.laneMac l.val).toNat / 2 ^ 32)
    | .lan l, 0x110 => BitVec.ofNat 32 (Config.laneMac l.val).toNat
    | .tru, o => if 0x200 ≤ o ∧ o < 0x300 ∧ (o - 0x200) % 0x20 = 0 then refCfgReset ((o - 0x200) / 0x20)
                 else tableReset .tru o
    | .sen, o => if 0x300 ≤ o ∧ o < 0x380 ∧ (o - 0x300) % 0x20 = 0 then siCfg else tableReset .sen o
    | p, o => tableReset (pageKind p) o

/-- The word of the register at a BAR0 address at reset; a reserved address reads 0 (R25). -/
def regReset (a : Nat) : Word :=
  match pageOfAddr a with
  | none => 0
  | some p => pageReset p (a % 0x1000)

end Sys2Proof.Machine
end

