-- ==== Sys2Proof/Machine/State.lean ====
section
/-!
DEFINITION. Sys2Proof/Machine/State.lean: the state of the module, as plain data, and the state after reset.
Registers live in one sparse table by BAR0 address; everything a block holds beside its registers has a structure of its own.
-/
namespace Sys2Proof.Machine

/-- Why the block stops: no command of the spec stops it, so no meaning raises a fault. A step that raised one would be safe: the run ends there. -/
inductive Fault where
  /-- Raised by no meaning; it stands for a stop that the spec would have to name. Safe. -/
  | stopped (reason : String)
deriving DecidableEq, Repr

/-- Why the model has no meaning for a command. -/
inductive Refusal where
  /-- Raised by the arm of a command that has no meaning yet, with its mnemonic. Safe: the run ends there. -/
  | notModelled (mnemonic : String)
deriving DecidableEq, Repr

/-- A stretch of module time in which the module's own burst occupies a channel (R203, R204): port, waveform, tone set or RU, first sample,
and the sample after the last. -/
structure TxOcc where
  port : Nat
  wave : Wave
  ch : Nat
  lo : Nat
  hi : Nat
deriving DecidableEq, Repr

/-- The beacon block beside its page: DOMAIN_ID, BW − 1 and BB_CPER in force, the epoch of pending values (R201), BCN_DWELL_CONT and
BCN_DWELL_OCC in effect (R209), the BARRED channels (R205) and the occupations the Hedgehog accounts for (R204). -/
structure BcnSt where
  domain : Nat
  bw : Nat
  cper : Nat
  epoch : Option Nat
  cont : Word
  occ : Word
  barred : List (Nat × Wave × Nat)
  occs : List TxOcc
deriving DecidableEq, Repr

/-- What a transmit burst carries: a beacon (R185), a downlink frame of the store by its number (R381), a MAC frame of the module itself to an
address, a flood with its key and hop (R243), or a campaign block (R440). -/
inductive Purpose where
  | none
  | beacon
  | downlink (id : Nat)
  | mac (addr : Nat)
  | flood (addr fseq hop : Nat)
  | campaign (block : Nat)
deriving DecidableEq, Repr

/-- A planned transmission of the module (R184): port, waveform, first channel (tone set or RU_FIRST) and last channel (RU_LAST, or the
first again), first sample in its superframe, samples on the line, superframe, purpose, header and payload bytes, and the hop list of a narrowband frame (R126). -/
structure PlanItem where
  port : Nat
  wave : Wave
  ch0 : Nat
  ch1 : Nat
  start : Nat
  length : Nat
  sfn : Nat
  purpose : Purpose
  header : List Byte
  payload : List Byte
  hops : List Nat
deriving DecidableEq, Repr

/-- A grant occurrence in a superframe (R184, R198): context index, waveform, phase group, superframe, first sample, samples, first and
last channel (starting tone set twice, or RU_FIRST and RU_LAST). -/
structure Occ where
  addr : Nat
  wave : Wave
  group : Nat
  sfn : Nat
  start : Nat
  length : Nat
  ch0 : Nat
  ch1 : Nat
deriving DecidableEq, Repr

/-- The plan (R184): transmissions not yet taken by a TX engine, grant occurrences, the cells of flood hops reserved on every port, in
module time (R250), and the beacon frames for lanes to subordinate children (R258). -/
structure PlanSt where
  items : List PlanItem
  grants : List Occ
  cells : List TxOcc
  lanes : List (Nat × List Byte)
deriving DecidableEq, Repr

/-- The command ring a command came from (R384): ring 24–27 and COOKIE; `lost` once a ring or function reset took away the
place of its completion entry (R40). -/
structure RingOrigin where
  ring : Nat
  cookie : Nat
  lost : Bool
deriving DecidableEq, Repr

/-- A page's outstanding command: what was latched at its issue (R38), where it came from, whether an abort met it past its
last safe point (R41), and how far the block has taken it. -/
structure Outstanding where
  opcode : Nat
  tag : Nat
  a0 : Word
  a1 : Word
  a2 : Word
  origin : Option RingOrigin
  abortLate : Bool
  phase : Nat
deriving DecidableEq, Repr

/-- The command slot of a page: its outstanding command (R39), and the tag of the last command whose completion latched (R41). -/
structure CmdSlot where
  out : Option Outstanding
  last : Option Nat
deriving DecidableEq, Repr

/-- The command slot of a page on which nothing has been issued. -/
def CmdSlot.empty : CmdSlot := ⟨none, none⟩

/-- An event record (R432), before serialisation: DETAIL is the list of its 4-byte values. -/
structure LogRec where
  seq : Nat
  rtc : Nat
  timeS : Nat
  timeNs : Nat
  code : Nat
  inst : Nat
  tq : Nat
  mode : Nat
  detail : List Nat
deriving DecidableEq, Repr

/-- The event log: the buffer of the Dormouse domain, oldest first (R434), the records lost since the last LOG_GAP record, and
the LOG region of the bulk store by position (R435). -/
structure LogSt where
  buf : List LogRec
  lost : Nat
  region : List (Nat × Option LogRec)
deriving DecidableEq, Repr

/-- A completion entry of a ring (R381, R383, R384), without its PHASE bit. -/
inductive CqEntry where
  /-- A DL completion (R381). -/
  | dl (cookie status attempts sfn : Nat)
  /-- A UL completion with the frame written to its buffer (R383). -/
  | ul (cookie kind : Nat) (narrow : Bool) (index sfn epId : Nat) (data : List Byte)
  /-- A CMD completion (R384). -/
  | cmd (cookie code detail : Nat) (abortLate : Bool) (page : Nat)
  /-- An EVENT entry (R383). -/
  | event (code sfn index epId reason : Nat) (body : List Byte)
deriving DecidableEq, Repr

/-- A descriptor ring beside its registers (R380): the doorbell values, the entries that wait for room, the entries written since
the last message (R378) and, for the EVENT ring, the records lost since room was last found (R383). -/
structure RingSt where
  sqProd : Nat
  cqCons : Nat
  waiting : List CqEntry
  pend : Nat
  lost : Nat
deriving DecidableEq, Repr

/-- A ring with nothing posted. -/
def RingSt.empty : RingSt := ⟨0, 0, [], 0, 0⟩

/-- A tunnel frame as sent on a lane (R369, R370). -/
structure TunnelFrame where
  ttype : Nat
  seq : Nat
  index : Option Nat
  sfn : Nat
  body : List Byte
deriving DecidableEq, Repr

/-- Time: the samples of module time at the start of the present superframe, the slot in it, whether the superframe grid runs
(R183), and the real-time counter of the Dormouse domain with its VALID bit (R75, R76). -/
structure TimeSt where
  sfStart : Nat
  slot : Nat
  running : Bool
  rtc : Nat
  rtcValid : Bool
  rtcHiLatch : Nat
deriving DecidableEq, Repr

/-- The power states (R65–R73). PWR_SUPPLY shows RUN and OUTAGE. -/
inductive PowerState where
  | run | outage | dormouse | off
deriving DecidableEq, Repr

/-- The power domain beside its page: the power state, the state fixed for the next superframe (R68), whether OUTAGE_DELAY has run out on BACKUP and
the automatic entry has not yet been decided, the pins KILL#, MRST# and PERST# held low, whether the cold hold stands (R46), whether the shutdown of
R73 runs, whether a supply became OK during it, the 48-bit alarm in force (R496), whether the BACKUP converter runs (R66), and the SFN and the real-time
counter saved at the entry to DORMOUSE (R183). -/
structure PwrSt where
  state : PowerState
  next : Option PowerState
  autoDue : Bool
  killLow : Bool
  mrstLow : Bool
  perstLow : Bool
  cold : Bool
  shutdown : Bool
  okSince : Bool
  alarm : Nat
  converter : Bool
  savedSfn : Nat
  savedRtc : Nat
deriving DecidableEq, Repr

/-- Start-up beside its page (R81–R91): the module and microcode slots that run, the IFACE of the module image, whether the start goes to RECOVERY, the
watchdog and lockstep resets counted (R83), the starts of the trial slot that such a reset ended (R88), whether a start of a trial slot has not yet
reached stage 0x0D, whether the START record is written, and the superframes listened to at stage 0x0E. -/
structure BootSt where
  modRun : Option Nat
  ucodeRun : Option Nat
  iface : Nat
  recovery : Bool
  faults : Nat
  trialFaults : Nat
  trialLive : Bool
  logged : Bool
  listened : Nat
deriving DecidableEq, Repr

/-- A line port beside its page: the declaration in effect (R63), whether its receive samples are blanked (R11), the range change
requested (R100) as steps down or up, and the frequencies of LPT_LINE_Z measured by an outstanding MEASURE_Z (R108). -/
structure PortSt where
  declared : Bool
  nbEn : Bool
  bbEn : Bool
  loss : Nat
  blanked : Bool
  change : Int
  measured : Nat
deriving DecidableEq, Repr

/-- A port at reset: undeclared, both waveforms enabled. -/
def PortSt.initial : PortSt := ⟨false, true, true, 0, false, 0, 0⟩

/-- The narrowband waveform beside its page: NBW_BAND, NBW_LEVEL and NBW_CFG in effect, NBW_BAND and NBW_LEVEL as the last plan was fixed
with them (R132), and the map of the superframe before (R126). -/
structure NbwSt where
  band : Word
  level : Word
  cfg : Word
  nextBand : Word
  nextLevel : Word
  lastMap : Nat
deriving DecidableEq, Repr

/-- A tone map (R151, R152). -/
structure ToneMap where
  tmid : Nat
  gi : Nat
  rate : Nat
  pi : Nat
  codes : List Byte
deriving DecidableEq, Repr

/-- An entry of the tone map store (R153, R154): the link (context index; uplink, or downlink on a port), the map in use, the map sent
and not yet acknowledged with its FSEQ, the previous map with the SFN until which it is accepted, the SFN at which the last map
was sent and the rate in bits a symbol it predicted. -/
structure TmapEntry where
  addr : Nat
  down : Bool
  port : Nat
  cur : Option ToneMap
  fresh : Option (ToneMap × Nat)
  prev : Option (ToneMap × Nat)
  sentAt : Nat
  rate : Nat
deriving DecidableEq, Repr

/-- A dynamic notch in force (R141): port, carrier offset from 37, and the superframe of the last detection. -/
structure Notch where
  port : Nat
  carrier : Nat
  last : Nat
deriving DecidableEq, Repr

/-- The group 0 registers of BBW: BBW_PROFILE, BBW_LEVEL and the masks as numbers whose bit i is carrier 37 + i. -/
structure BbSet where
  profile : Word
  level : Word
  pmask : Nat
  dmask : Nat
deriving DecidableEq, Repr

/-- The broadband waveform beside its page: group 0 and BBW_CFG in effect, group 0 as the last plan was fixed with it (R164), the dynamic
notches, the tone map store, and the timing corrections to be sent by context index (R158). -/
structure BbwSt where
  cur : BbSet
  next : BbSet
  cfg : Word
  notches : List Notch
  tmaps : List TmapEntry
  tadj : List (Nat × Int)
deriving DecidableEq, Repr

/-- Group 0 of BBW at reset: every carrier masked. -/
def BbSet.initial : BbSet := ⟨0xEB4, 0x80008000, 2 ^ 1725 - 1, 0⟩

/-- An entry or a candidate of a noise calendar (R168): PERIOD, JITTER in samples; NEXT in samples of module time; WIDTH in 1.28 µs;
LEVEL in 0.5 dB; the footprints of the last eight hits (narrowband bins, RUs), newest first; HITS; MISS_RUN; the SFN of the last hit; and the
onset found inside the present prediction interval with its width, level and footprint. -/
structure NcalEntry where
  period : Nat
  next : Nat
  width : Nat
  level : Nat
  jitter : Nat
  prints : List (Nat × Nat)
  hits : Nat
  missRun : Nat
  lastHit : Nat
  seen : Option (Nat × Nat × Nat × Nat × Nat)
deriving DecidableEq, Repr

/-- The calendar of a port (R168–R173): tracked entries by number 0–7, candidates oldest first, unexplained onsets newest first, SETTLE (whether the
port is in it, whether an onset starts it at the next boundary, superframes left), aperiodic impulses of this superframe and of the
last, and the entries as the last plan was fixed with them (R174). -/
structure CalSt where
  entries : List (Nat × NcalEntry)
  cands : List NcalEntry
  past : List Nat
  inSettle : Bool
  startSettle : Bool
  left : Nat
  aper : Nat
  lastAper : Nat
  fixed : List (Nat × NcalEntry)
deriving DecidableEq, Repr

/-- An empty calendar. -/
def CalSt.empty : CalSt := ⟨[], [], [], false, false, 0, 0, 0, []⟩

/-- The noise calendar beside its page: NCAL_CFG and NCAL_SCHED in effect (R179), the calendars by port, and the module time at the start
of the superframe planned last (R174). -/
structure NcalSt where
  cfg : Word
  sched : Word
  cals : List (Nat × CalSt)
  planned : Nat
deriving DecidableEq, Repr

/-- The state of a burst context (R275). -/
inductive CtxState where
  | free | rxOpen | rxDone | txSet | txLive
deriving DecidableEq, Repr

/-- A burst context (R274–R279): its life cycle, the cluster and engine that hold it, and the fields its completion record will
carry. `status` is the highest status that has arisen so far (R278), `slot0` the count of slots at allocation, `purpose` what a
transmit burst carries, `m` and `hops` the hold length and the hop list that a narrowband sync named (R119, R126), `maps` the
per-carrier signal-to-noise ratios measured on a broadband burst in tenths of a dB (R155), `sent` whether a transmit burst has
reached t1 + 2 µs (R96), `length` the samples a transmit burst takes. -/
structure Burst where
  st : CtxState
  gen : Nat
  wave : Wave
  tx : Bool
  place : Nat
  cluster : Nat
  engine : Nat
  ch0 : Nat
  ch1 : Nat
  start : Nat
  sfn : Nat
  slot0 : Nat
  status : Nat
  clamped : Bool
  gainStep : Bool
  multi : Bool
  pool : Bool
  symbols : Nat
  erased : Nat
  quality : Nat
  cwFail : Nat
  qbytes : Nat
  offset : Nat
  header : List Byte
  payload : List Byte
  purpose : Purpose
  m : Nat
  hops : List Nat
  maps : List Nat
  sent : Bool
  length : Nat
deriving DecidableEq, Repr

/-- A free burst context that has never been allocated. -/
def Burst.idle : Burst :=
  ⟨.free, 0, .nb, false, 0, 0, 0, 0, 0, 0, 0, 0, 0, false, false, false, false, 0, 0, 0, 0, 0, 0, [], [], .none, 0, [], [], false, 0⟩

/-- How far a cluster is in a fault, a reset or a reload (R282, R283, R286): in service; out of work until the next superframe
boundary (`reloaded` tells whether UCODE_RELOADED is then raised); asked to reload and taking no new burst from the next
boundary; draining; or out of service until a module reset. -/
inductive ClusterPhase where
  | running
  | resume (reloaded : Bool)
  | reloadAsked
  | draining
  | outOfService
deriving DecidableEq, Repr

/-- A cluster beside its page: its phase and the module time of its last fault (R282). -/
structure ClusterSt where
  phase : ClusterPhase
  lastFault : Option Nat
deriving DecidableEq, Repr

/-- A cluster in service that has had no fault. -/
def ClusterSt.fresh : ClusterSt := ⟨.running, none⟩

/-- The pool of burst contexts (R274): the next ID 0–8,127 never yet allocated, the released IDs in the order of their release, the
contexts by ID, the clusters, and the receive drops of the present superframe still to be logged (R276). -/
structure EngSt where
  fresh : Nat
  released : List Nat
  bursts : List (Nat × Burst)
  clusters : List (Nat × ClusterSt)
  drops : Nat
deriving DecidableEq, Repr

/-- The kind of a queue word (R289). -/
inductive WordKind where
  | data | head | trailer
deriving DecidableEq, Repr

/-- The stored part of a queue word's tag (R290); ID and GEN are the queue's own. -/
structure QTag where
  kind : WordKind
  corr : Bool
  valid : Nat
deriving DecidableEq, Repr

/-- A burst queue (R287–R297): whether it is open or held, its ring (a broadband ring number, or the ID's own narrowband ring) and
ring words, the counts of R293 with the mark's validity, the trailer flags of R292, the packing register and the tags of the
words pushed. -/
structure Queue where
  isOpen : Bool
  gen : Nat
  bb : Bool
  ring : Nat
  words : Nat
  wp : Nat
  rp : Nat
  mark : Nat
  rl : Nat
  markValid : Bool
  markLost : Bool
  overrun : Bool
  trailer : Bool
  earlyOn : Bool
  early : Bool
  redecode : Bool
  corrLost : Bool
  corrFirst : Nat
  corrWords : Nat
  qbytes : Nat
  packed : List Byte
  tags : List QTag
deriving DecidableEq, Repr

/-- The queue of an ID that has none. -/
def Queue.closed : Queue :=
  ⟨false, 0, false, 0, 0, 0, 0, 0, 0, false, false, false, false, false, false, false, false, 0, 0, 0, [], []⟩

/-- The burst queues by ID, the broadband ring numbers in use, and the values of BQ_CFG in effect (R299). -/
structure BqSt where
  queues : List (Nat × Queue)
  rings : List Nat
  early : Bool
  ringSize : Nat
deriving DecidableEq, Repr

/-- A context record (R214), its fields in the order of the layout. STATE is the code of R215; TMAP is kept in the tone map store; IC_TX is
`icTx` with `exhausted` for its bit 63 (R331). `key`, `keyPrev` and `jk` are the wrapped fields. -/
structure Ctx where
  state : Nat
  session : Bool
  nb : Bool
  bb : Bool
  aes256 : Bool
  prevValid : Bool
  kgen : Nat
  parkOnEnd : Bool
  sleep : Bool
  subord : Bool
  rekeyPending : Bool
  deny : Bool
  epId : Nat
  peer : Nat
  anchor : Nat
  joinSfn : Nat
  lastRx : Nat
  sup : Nat
  listen : Nat
  portHome : Nat
  portDl : Nat
  tadj : Int
  quality : Nat
  fseqTx : Nat
  fseqRx : Nat
  pgrant : List Byte
  icTx : Nat
  exhausted : Bool
  icRx : Nat
  replay : Nat
  icRxPrev : Nat
  salt : Nat
  saltPrev : Nat
  key : List Byte
  keyPrev : List Byte
  jk : List Byte
  rxCnt : Nat
  txCnt : Nat
  authFail : Nat
  replayed : Nat
  hostTag : Nat
deriving DecidableEq, Repr

/-- 40 zero bytes: a key field that holds no key. -/
def noKey : List Byte := List.replicate 40 0

/-- A record of zeros. -/
def Ctx.zero : Ctx :=
  ⟨0, false, false, false, false, false, 0, false, false, false, false, false, 0, 0, 0, 0, 0, 0, 0, 0, 0, 0, 0, 0, 0, List.replicate 16 0,
    0, false, 0, 0, 0, 0, 0, noKey, noKey, List.replicate 24 0, 0, 0, 0, 0, 0⟩

/-- What a JOINING slot holds beside its record (R226–R231): the TAG, N_M, the solicit's waveform, channels, group and port, its timing
correction, the granted occurrence's superframe once the offer is planned, the SFN at which the slot expires, the superframes a
forwarded join adds, whether the offer is planned, and the JOIN_REQ accepted or forwarded (N_E and EP_ID). -/
structure JoinSt where
  tag : Nat
  nM : Nat
  wave : Wave
  ch0 : Nat
  ch1 : Nat
  group : Nat
  port : Nat
  tadj : Int
  offered : Bool
  until_ : Nat
  nE : Nat
  epId : Nat
  forwarded : Bool
deriving DecidableEq, Repr

/-- A rekey under way (R235, R236): the new wrapped key, its size, salt, sendings, and the SFN of the last. -/
structure RekeySt where
  key : List Byte
  aes256 : Bool
  salt : Nat
  sends : Nat
  sentAt : Nat
deriving DecidableEq, Repr

/-- An end under way (R234): the reason, whether PARK asked for it, and the SFN at which LEAVE was first put up for sending. -/
structure EndSt where
  reason : Nat
  park : Bool
  since : Nat
deriving DecidableEq, Repr

/-- A slot of the hardware table: its record, the parked index it came from, a join, rekey or end under way, the SFN of its last key, the
SFN until which the previous key is held, the bytes its endpoint has waiting (QUEUE), the last accepted SEQ of SF2 commands (none:
the first is taken as base, R477), whether IC_WARN has been raised under the key, the ends of the counter blocks mirrored and
asked for (R405), the ports of the last downlink frames by FSEQ, newest first (R153), and the lane
that a subordinate is reached over, if any (R257). -/
structure Assoc where
  c : Ctx
  parked : Nat
  join : Option JoinSt
  rekey : Option RekeySt
  ending : Option EndSt
  keySfn : Nat
  prevUntil : Nat
  queue : Nat
  sf2 : Option Nat
  warned : Bool
  reserved : Nat
  asked : Nat
  sentPorts : List (Nat × Nat)
  lane : Option Nat
deriving DecidableEq, Repr

/-- A FREE slot. -/
def Assoc.free : Assoc := ⟨Ctx.zero, 0, none, none, none, 0, 0, 0, some 0, false, 0, 0, [], none⟩

/-- A beacon key (R237): key, salt, generation, and the last nonce counter used under it. -/
structure BeaconKey where
  key : List Byte
  salt : Nat
  gen : Nat
  last : Option Nat
deriving DecidableEq, Repr

/-- What a frame of the downlink store is: a host frame, or one of the module's own. -/
inductive FrameKind where
  | host | ack | offer | defer | reject | accept | rekey | leave | bkey | grant | repeater | element | tmap
deriving DecidableEq, Repr

/-- How far a frame of the downlink store is: waiting for its cipher job, in the job ring or a hold slot, ready for a plan, planned, on the
line, or waiting for its acknowledgement. -/
inductive Stage where
  | queued | job | ready | planned | line | waitAck
deriving DecidableEq, Repr

/-- A frame of the downlink store (R381) or one of the module's own: the index or TAG it goes to, ring or lane it came from with COOKIE,
the WAVE option, the waveform chosen, whether it goes as a FLOOD, FTYPE, FSEQ, the plaintext of its unit or the payload of an
unprotected frame, whether it is protected and whether its plaintext is an INNER unit, the bytes on the line once protected, the port
and channels where they are fixed, sendings, plans without a placement, the SFN at which it is due again, whether it is an SF2
command with its SEQ, the SFN it was taken and whether step 2 has passed, the payload the grant it carries may have, the lane
an answer to a lane's frame takes, the deferrals of a broadband burst (R175), and the MAX_AGE that applies to it (R481). -/
structure Frame where
  id : Nat
  index : Nat
  kind : FrameKind
  ring : Option Nat
  lane : Option Nat
  cookie : Nat
  wopt : Nat
  wave : Wave
  flood : Bool
  ftype : Nat
  fseq : Nat
  body : List Byte
  prot : Bool
  inner : Bool
  payload : List Byte
  port : Option Nat
  ch : Option (Nat × Nat)
  stage : Stage
  sends : Nat
  waits : Nat
  due : Nat
  sf2 : Bool
  seq : Nat
  takenAt : Nat
  rechecked : Bool
  grantLen : Option Nat
  via : Option Nat
  defers : Nat
  maxAge : Nat
deriving DecidableEq, Repr

/-- A verified element that has a command of its own (R221): the index of its sender, whether it came from the parent, TYPE, value, and
whether it was received in narrowband. -/
structure Elem where
  index : Nat
  parent : Bool
  ty : Nat
  value : List Byte
  narrow : Bool
deriving DecidableEq, Repr

/-- A verified uplink frame on its way to the host or peer (R371): index, EP_ID, SFN of reception, waveform, data, the mirror SEQ whose
acknowledgement releases it (R405), and the tunnel SEQ of an interrupted sending. -/
structure UlFrame where
  index : Nat
  epId : Nat
  sfn : Nat
  narrow : Bool
  data : List Byte
  after : Nat
  seq : Nat
deriving DecidableEq, Repr

/-- An event for the EVENT ring and the lanes (R383). -/
structure EventRec where
  code : Nat
  sfn : Nat
  index : Nat
  epId : Nat
  reason : Nat
  body : List Byte
deriving DecidableEq, Repr

/-- A flood key (R248): ADDR, DIR, ORIG_SF, ORIG_SLOT, and the start slot number at which it is dropped. -/
structure FloodKey where
  addr : Nat
  dir : Nat
  sf : Nat
  slot : Nat
  until_ : Nat
deriving DecidableEq, Repr

/-- A relay table entry (R251). -/
structure Relay where
  nbHops : Nat
  routed : Bool
  learned : Bool
  bdepth : Nat
  valid : Bool
  next : Nat
  bbHops : Nat
  roles : Nat
deriving DecidableEq, Repr

/-- A cleared relay table entry. -/
def Relay.clear : Relay := ⟨0, false, false, 0, false, 0, 0, 0⟩

/-- A forwarded join kept until its KEY_INSTALL passes (R262): EP_ID, the child it came from, and the SFN at which it lapses. -/
structure JoinUp where
  epId : Nat
  child : Nat
  until_ : Nat
deriving DecidableEq, Repr

/-- How far a subordinate is with its parent (R225, R259). -/
inductive ParentPhase where
  | idle | backoff | listening | offered | active
deriving DecidableEq, Repr

/-- A subordinate's own association with its parent: phase, the solicits of R225, TAG, N_M and N_E, its index at the parent, the record it keeps
as an endpoint, the parent's beacon keys in force and pending with APPLY_SFN, the elements waiting to be sent to the parent, the grants
received of it, the key of a REKEY received and not yet used (key, size, salt), and a moment of module time at which a superframe of the
parent began, with its SFN, and the payload of its last beacon. -/
structure ParentSt where
  phase : ParentPhase
  k : Nat
  tries : Nat
  tag : Nat
  nM : Nat
  nE : Nat
  index : Nat
  link : Ctx
  bkey : Option BeaconKey
  bnext : Option (BeaconKey × Nat)
  waiting : List (List Byte)
  grants : List (List Byte)
  rekey : Option (List Byte × Bool × Nat)
  base : Option (Nat × Nat)
  beacon : List Byte
deriving DecidableEq, Repr

/-- No association with a parent. -/
def ParentSt.none_ : ParentSt := ⟨.idle, 0, 0, 0, 0, 0, 0, Ctx.zero, none, none, [], [], none, none, []⟩

/-- The MAC: the hardware table by index, the parked store by parked index, the beacon keys in force and pending with APPLY_SFN, deferrals
of this superframe, the downlink store and the next frame number, pending elements, the parent association, flood keys, relay table,
tree routes by SESSION index (LOCAL, LINK index), forwarded joins, the on-die record cache by set, most recently used first (R216), and
the tree role in effect (R257). -/
structure MacSt where
  table : List (Nat × Assoc)
  parked : List (Nat × Ctx)
  bkey : Option BeaconKey
  bnext : Option (BeaconKey × Nat)
  deferrals : Nat
  frames : List Frame
  nextFrame : Nat
  elems : List Elem
  parent : ParentSt
  floods : List FloodKey
  relays : List (Nat × Relay)
  routes : List (Nat × Bool × Nat)
  joinUps : List JoinUp
  cache : List (Nat × List Nat)
  role : Nat
deriving DecidableEq, Repr

/-- A cipher job (R322, R324): operation, TAG16, DIR, EXPLICIT, KEY_INSERT, KEY_SEL, KGEN, PARAM, INDEX, the authenticated bytes, KEY_OFF, the
payload, IC of a DECRYPT, explicit nonce, the tag to verify, the wrapped key to insert, the output address and record address of a
test job, the frame of the downlink store it serves, the descriptor of a test job, and the job's SEQ in its ring. `plen` and `hlen` are the descriptor's lengths. -/
structure Job where
  op : Nat
  tag16 : Bool
  dir : Nat
  explicit : Bool
  keyInsert : Bool
  sel : Nat
  kgen : Nat
  param : Nat
  index : Nat
  hlen : Nat
  plen : Nat
  hdr : List Byte
  keyOff : Nat
  payload : List Byte
  ic : Nat
  nonce : Nat
  tag : List Byte
  insert : List Byte
  bad : Bool
  dAddr : Nat
  cAddr : Nat
  frame : Option Nat
  desc : List Byte
  seq : Nat
deriving DecidableEq, Repr

/-- A job in a hold slot (R334): its ring, pipeline and slot, the key and nonce as read at acceptance, the status found so far, IC_WARN and
KCACHE_MISS, whether it waits for a reserved counter (R333), and whether an abandonment came too late. -/
structure Held where
  job : Job
  ring : Nat
  pipe : Nat
  slot : Nat
  key : List Byte
  nonce : Option Nat
  status : Nat
  warn : Bool
  miss : Bool
  waiting : Bool
  plain : List Byte
deriving DecidableEq, Repr

/-- A GROUP slot (R331, R333): its counter, EXHAUSTED, whether IC_WARN has been raised, and the ends of the counter blocks mirrored and asked
for. -/
structure GroupSlot where
  count : Nat
  exhausted : Bool
  warned : Bool
  reserved : Nat
  asked : Nat
deriving DecidableEq, Repr

/-- A GROUP slot whose counter is 0. -/
def GroupSlot.zero : GroupSlot := ⟨0, false, false, 0, 0⟩

/-- The cipher engine beside its page: the job rings, the next SEQ of each ring, the hold slots, the module times of parity errors by
pipeline (R338), pipelines out of service, the key cache (oldest first), KWK and SWK, the test key, and the GROUP slots (R331). -/
structure CipSt where
  rings : List (Nat × List Job)
  seqs : List (Nat × Nat)
  held : List Held
  parity : List (Nat × Nat)
  out : Nat
  kcache : List (List Byte)
  kwk : List Byte
  swk : List Byte
  testKey : List Byte
  groups : List (Nat × GroupSlot)
deriving DecidableEq, Repr

/-- The WAIT and BUSY conflict counters of a master (R308). -/
structure Conflict where
  wait : Nat
  busy : Nat
deriving DecidableEq, Repr

/-- A commons bank beside its page: the soft-repair walks to be made (column and spare, R315), the columns that have failed with the
stripe of the failure (R314), and whether the bank is being zeroed after OFF (R310). -/
structure BankSt where
  walks : List (Nat × Nat)
  failed : List (Nat × Nat)
  zeroing : Bool
deriving DecidableEq, Repr

/-- A bank at rest. -/
def BankSt.quiet : BankSt := ⟨[], [], false⟩

/-- The commons beside its pages: the bytes (R302), the banks, the conflict counters by master (R308), the yields of the stripe being
walked and the next word of it (R313), and the fuses burned, to take effect at the next start (R316): bank, spare, column. -/
structure MemSt where
  bytes : List Host.Cell
  banks : List (Nat × BankSt)
  conflicts : List (Nat × Conflict)
  yields : Nat
  nextWord : Nat
  fuses : List (Nat × Nat × Nat)
deriving DecidableEq, Repr

/-- The timing unit beside its page (R344–R360): E; what the next slot 512 does to it (the phase added by the initial alignment, the value of a
SET_TIME, the copy of the ACTIVE's E); references disqualified since the start; TE_ENTRY, the module time of entry and the state whose
formula TE_EST follows (R355); the mean of REF_PHASE over the last 60 s as last measured; the steering value saved (R345); and TRU time as Tarlum
last recorded it against the real-time counter (R76). -/
structure TruSt where
  e : Int
  alignBy : Option Int
  setTo : Option Int
  copyTo : Option Int
  disq : List Nat
  teEntry : Nat
  teFrom : Nat
  base : Nat
  phase : Int
  saved : Word
  recorded : Option (Int × Nat)
deriving DecidableEq, Repr

/-- A backhaul lane beside its page (R367–R373): the tunnel SEQ count, frames held by PAUSE (R366), the last UP_DATA sent with its SEQ (R371), and
TX_TS and T2 of the last NGAEL frame with T3 of the DLY_REQ sent, in nanoseconds (R373), and the module time at which a PAUSE ends. -/
structure LaneSt where
  seq : Nat
  wait : List TunnelFrame
  last : Option UlFrame
  t1 : Int
  t2 : Int
  t3 : Int
  until_ : Nat
deriving DecidableEq, Repr

/-- A lane at rest. -/
def LaneSt.rest : LaneSt := ⟨0, [], none, 0, 0, 0, 0⟩

/-- A store-and-forward record (R395): arrival MT, whether it is a TREE_UP for the parent (R261), and its frame. -/
structure SnfRec where
  mt : Nat
  toParent : Bool
  f : UlFrame
deriving DecidableEq, Repr

/-- A downlink completion on its way to its ring or lane (R381, R382). -/
structure DlDone where
  ring : Option Nat
  lane : Option Nat
  cookie : Nat
  status : Nat
  attempts : Nat
  sfn : Nat
deriving DecidableEq, Repr

/-- The PTP slave (R375): the best master's data set in the order of its comparison, the SEQ, correction and arrival of a two-step Sync that
awaits its Follow_Up, the origin and arrival of the last complete Sync, the two-step Pdelay_Resp awaiting its Follow_Up, and the SFN of the last Sync. -/
structure PtpSt where
  master : Option (List Nat)
  sync : Option (Nat × Int × Int)
  t1 : Int
  t2 : Int
  pdelay : Option (Nat × Int × Int × Int)
  lastSync : Option Nat
deriving DecidableEq, Repr

/-- The backhaul: the lanes, verified frames waiting for a UL buffer (R371), frames on their way to the store-and-forward region, events waiting
for the EVENT ring (R383), downlink completions on their way (R382), verified frames waiting for the mirror (R405), and the PTP slave. -/
structure LinkSt where
  lanes : List (Nat × LaneSt)
  hold : List UlFrame
  toStore : List SnfRec
  events : List EventRec
  done : List DlDone
  unacked : List UlFrame
  ptp : PtpSt
deriving DecidableEq, Repr

/-- The bulk store beside its page (R390–R398): the blocks of EPFW and HOST that hold data, by region × 2^28 + LBA, the SNF records, oldest first,
the records lost in the present superframe (R396), and whether the path's replay has begun. -/
structure StoSt where
  blocks : List (Nat × List Byte)
  snf : List SnfRec
  lost : Nat
  replaying : Bool
deriving DecidableEq, Repr

/-- The pair logic beside its page (R399–R414): PAIRED and UNIT in force, the pair key, the own start count and next SEQ, the own SEQs the peer
has applied, the peer's start count, the next SEQ expected of it and frames held out of order, RESERVE blocks not yet acknowledged
(SEQ, group, index, block end), the SEQ of SYNC_DONE awaiting its acknowledgement, the superframe of a role swap, the SFN at which a
HANDOVER was issued, the peer's last HEARTBEAT (role, MT and its arrival), the last BEACON_STATE, the SFN of the last partner beacon heard,
whether one was heard in the present window and whether an expected one was missed since, whether SPLIT_GUARD was raised, whether this
module has beaconed since its start, and whether a slot-0 alignment has been taken. -/
structure PairSt where
  paired : Bool
  unit : Bool
  key : List Byte
  start : Nat
  seq : Nat
  acked : Nat
  peerStart : Nat
  expect : Nat
  ahead : List MirrorMsg
  reserves : List (Nat × Bool × Nat × Nat)
  syncSeq : Option Nat
  swapAt : Option Nat
  drainSfn : Nat
  peerRole : Nat
  peerMt : Nat
  peerArrival : Nat
  partner : Option BeaconState
  lastBeacon : Option Nat
  heard : Bool
  missed : Bool
  guarded : Bool
  beaconed : Bool
deriving DecidableEq, Repr

/-- A sensor channel beside its block (R417–R428): CFG as in effect, whether the cycle restarts at the next output boundary, whether SELF_CAL holds the
channel, the phase (0 A or +, 1 B or −), outputs discarded in it, outputs to be averaged, the mean of the phase before, the least excitation current of
the cycle in µA, the last valid Rt in mΩ, whether the upper and lower alarms have been raised and not re-armed, the latched RATIO, STAT and LEAD, and
the offset and gain that SELF_CAL put in force. -/
structure ChanSt where
  cfg : Word
  restart : Bool
  calibrating : Bool
  phase : Nat
  discard : Nat
  outs : List Int
  first : Int
  current : Nat
  lastRt : Option Nat
  alarmHi : Bool
  alarmLo : Bool
  latch : Option (Word × Word × Word)
  cal : Option (Word × Word)
deriving DecidableEq, Repr

/-- A channel that has not begun a cycle. -/
def ChanSt.start : ChanSt := ⟨0, true, false, 0, 0, [], 0, 0, none, false, false, none, none⟩

/-- A holder of the authority list (R443): HOLDER_ID, KIND and public key. -/
structure Holder where
  id : Nat
  kind : Nat
  key : List Byte
deriving DecidableEq, Repr

/-- The key store beside the registers that show it (R430): update and endpoint image keys by KEY_ID, the public key of the active root, the authority
list, the pair key of the next start (R399, R447), and the device's private key, 0 until it is drawn. -/
structure KeyStore where
  update : List (Nat × List Byte)
  endpoint : List (Nat × List Byte)
  root : List Byte
  holders : List Holder
  pair : List Byte
  device : Nat
deriving DecidableEq, Repr

/-- A campaign beside its registers (R440): IMAGE_TAG, image length, REP, HMAX, ports as a bitmap, the earliest start slot of the next block and the
FSEQ of its frame. -/
structure Campaign where
  tag : List Byte
  size : Nat
  rep : Nat
  hmax : Nat
  ports : Nat
  next : Nat
  fseq : Nat
deriving DecidableEq, Repr

/-- Tarlum beside its pages (R429–R452): the key store, the held challenge with the real-time counter at its draw (R445), and the campaign. -/
structure MgtSt where
  keys : KeyStore
  challenge : Option (Nat × Nat)
  campaign : Option Campaign
deriving DecidableEq, Repr

/-- How far a card transaction has come (R465, R466): awaiting the ATR, or the reply to READ_PUB, SIGN or GET RESPONSE. -/
inductive CardPhase where
  | atr | readPub | sign | response
deriving DecidableEq, Repr

/-- A card transaction: its phase, the place of the card's holder in the authority list, and the character errors in a row (R464). -/
structure CardSt where
  phase : CardPhase
  holder : Nat
  errors : Nat
deriving DecidableEq, Repr

/-- A frame being received in FRAMED mode (R462): whether an escape was read, the bytes so far, and the last of them with its FE and PE, not yet
stored. -/
structure FrameRx where
  escape : Bool
  bytes : List Byte
  held : Option (Byte × Bool × Bool)
deriving DecidableEq, Repr

/-- A serial port beside its page (R453–R469): the transmit holding register, the character in the shifter, the frame being received, SER_CFG and SER_DIV
before their last write, the card transaction, and whether the line is held low by SEND_BREAK. -/
structure SerSt where
  hold : Option Byte
  shift : Option Byte
  frame : Option FrameRx
  oldCfg : Word
  oldDiv : Word
  card : Option CardSt
  low : Bool
deriving DecidableEq, Repr

/-- A serial port after reset. -/
def SerSt.idle : SerSt := ⟨none, none, none, 0, 0, none, false⟩

/-- The results of the queue operations (R294). -/
inductive QResult where
  | ok | empty | fault | closed | noMark | markLost | range
deriving DecidableEq, Repr

/-- What the module sends out: MSI-X messages, ring entries, bursts, frames on the lanes, and the values that host reads return. The newest
stands first in `State.emits`. -/
inductive Emit where
  /-- The MSI-X message of a vector (R34, R378). -/
  | msix (v : Nat)
  /-- A completion entry written to slot `slot` of ring `ring` with its PHASE bit (R380). -/
  | cq (ring slot : Nat) (phase : Bool) (e : CqEntry)
  /-- The value a host read returned. -/
  | read (w : Word)
  /-- The bytes a host read of the commons window returned (R305). -/
  | window (b : List Byte)
  /-- A tunnel frame on a lane (R368). -/
  | lane (l : Nat) (f : TunnelFrame)
  /-- A PTP message on a lane (R375). -/
  | ptp (l : Nat) (b : List Byte)
  /-- A burst begun on a port (R96). -/
  | burst (p : PlanItem)
  /-- A completion record delivered to the frame core that serves the burst (R277, R279). -/
  | record (b : List Byte)
  /-- The answer to a queue operation: result, the word's tag and its data bytes (R290, R294). -/
  | queue (r : QResult) (tag : Nat) (data : List Byte)
  /-- A mirror message on a mirror lane (R402–R404). -/
  | mirror (l : Nat) (m : MirrorMsg)
  /-- A character sent by a serial port, with SER_CFG and SER_DIV as they apply to it (R455, R456). -/
  | serial (n : Nat) (data : Byte) (cfg div : Word)
  /-- A serial line driven low for a break of some milliseconds (R460). -/
  | breakLow (n ms : Nat)
  /-- A serial line driven high at the end of a break (R460). -/
  | breakHigh (n : Nat)
  /-- A card interface powered or deactivated (R465). -/
  | cardPower (n : Nat) (on : Bool)
  /-- A command header and its data sent to a card (R466). -/
  | cardCommand (n : Nat) (b : List Byte)
deriving DecidableEq, Repr

/-- The whole state of the module. -/
structure State where
  /-- The registers by BAR0 address (R25); an unlisted register holds its reset value. -/
  regs : List (Nat × Word)
  /-- The command slots by page number (R38–R41). -/
  cmds : List (Nat × CmdSlot)
  /-- The event log (R432–R435). -/
  log : LogSt
  /-- The descriptor rings beside their registers (R379–R388). -/
  rings : List (Nat × RingSt)
  /-- The mask bits of the 64 MSI-X vectors (R378). -/
  msixMask : Nat
  /-- The pending bits of the 64 MSI-X vectors (R378). -/
  msixPba : Nat
  /-- The address and data words of the MSI-X table (R377, R378): word 4 v + i of vector v, i = 0–2. -/
  msixTable : List (Nat × Word)
  /-- Module time and the real-time counter (R15, R76, R183). -/
  time : TimeSt
  /-- The power domain beside its page (R65–R80). -/
  pwr : PwrSt
  /-- Start-up beside its page (R81–R92). -/
  boot : BootSt
  /-- The line ports beside their pages (R93–R112). -/
  ports : List (Nat × PortSt)
  /-- The narrowband waveform beside its page (R113–R134). -/
  nbw : NbwSt
  /-- The broadband waveform beside its page (R135–R166). -/
  bbw : BbwSt
  /-- The noise calendar beside its page (R167–R182). -/
  ncal : NcalSt
  /-- The beacon block beside its page (R183–R211). -/
  bcn : BcnSt
  /-- The plan (R184). -/
  plan : PlanSt
  /-- The burst contexts and the clusters (R268–R286). -/
  eng : EngSt
  /-- The burst queues (R287–R301). -/
  bq : BqSt
  /-- The commons and the Badger (R302–R318). -/
  mem : MemSt
  /-- The timing unit beside its page (R344–R365). -/
  tru : TruSt
  /-- Associations, the downlink store and the relay tables (R212–R267). -/
  mac : MacSt
  /-- The cipher engine beside its page (R319–R343). -/
  cip : CipSt
  /-- The backhaul lanes and host queues (R366–R389). -/
  link : LinkSt
  /-- The bulk store beside its page (R390–R398). -/
  sto : StoSt
  /-- The pair logic beside its page (R399–R414). -/
  pair : PairSt
  /-- The sensor channels beside their blocks (R415–R428). -/
  sen : List (Nat × ChanSt)
  /-- Tarlum beside its pages (R429–R452). -/
  mgt : MgtSt
  /-- The serial ports beside their pages (R453–R469). -/
  ser : List (Nat × SerSt)
  /-- The model's own count of values drawn from the random source (R328). -/
  draws : Nat
  /-- The model's own count of occasions on which the spec leaves bytes or a value open; no statement rests on it. -/
  frees : Nat
  /-- What the module has sent out, newest first. -/
  emits : List Emit
  /-- The commands that wait, first in, first out. -/
  pending : List Instr
deriving DecidableEq, Repr

/-- The state right after a power-on reset: every register at its reset value, nothing pending, nothing sent. -/
def State.reset : State where
  regs := []
  cmds := []
  log := ⟨[], 0, []⟩
  rings := []
  msixMask := 2 ^ 64 - 1
  msixPba := 0
  msixTable := []
  time := ⟨0, 0, false, 0, false, 0⟩
  pwr := ⟨.run, none, false, false, false, false, false, false, false, 0, false, 0, 0⟩
  boot := ⟨none, none, 0, false, 0, 0, false, false, 0⟩
  ports := []
  nbw := ⟨0, 0, 0x1428, 0, 0, 0⟩
  bbw := ⟨BbSet.initial, BbSet.initial, 0x181035, [], [], []⟩
  ncal := ⟨0x18108210, 0x8040140A, [], 0⟩
  bcn := ⟨0, 1, 2, none, 400, 0x640024, [], []⟩
  plan := ⟨[], [], [], []⟩
  eng := ⟨0, [], [], [], 0⟩
  bq := ⟨[], [], false, 1⟩
  mem := ⟨[], [], [], 0, 0, []⟩
  tru := ⟨0, none, none, none, [], 0, 0, 3, 0, 0, none⟩
  mac := ⟨[], [], none, none, 0, [], 0, [], ParentSt.none_, [], [], [], [], [], 0⟩
  cip := ⟨[], [], [], [], 0, [], [], [], [], []⟩
  link := ⟨[], [], [], [], [], [], ⟨none, none, 0, 0, none, none⟩⟩
  sto := ⟨[], [], 0, false⟩
  pair := ⟨false, false, [], 0, 0, 0, 0, 0, [], [], none, none, 0, 3, 0, 0, none, none, false, false, false, false⟩
  sen := []
  mgt := ⟨⟨[], [], Config.factoryRoot, [], [], 0⟩, none, none⟩
  ser := []
  draws := 0
  frees := 0
  emits := []
  pending := []

end Sys2Proof.Machine
end

