-- ==== Sys2Proof/Machine/Ops.lean ====
section
/-!
DEFINITION. Sys2Proof/Machine/Ops.lean: the named operations over registers, interrupts, the event log, descriptor rings and
page commands that every meaning uses.
-/
namespace Sys2Proof.Machine

/-! Registers. -/

/-- The stored word of the register at a BAR0 address. -/
def reg (s : State) (a : Nat) : Word := Map.get regReset s.regs a

/-- The state with a register word stored. -/
def setReg (a : Nat) (w : Word) (s : State) : State := { s with regs := Map.set regReset s.regs a w }

/-- The address of the register at offset `o` of a page, an offset below the page's 4 KiB. -/
def addr (p : Page) (o : Nat) : Nat := pageBase p + o % 0x1000

/-- The value of element `i` of a field on a page. -/
def getI (s : State) (p : Page) (f : Field) (i : Nat) : Nat := getBits (reg s (addr p (f.offAt i))) f.hi f.lo

/-- The value of a field on a page. -/
def getF (s : State) (p : Page) (f : Field) : Nat := getI s p f 0

/-- Whether a one-bit field on a page is 1. -/
def isSet (s : State) (p : Page) (f : Field) : Bool := decide (getF s p f ≠ 0)

/-- The state with element `i` of a field on a page changed. -/
def setI (p : Page) (f : Field) (i v : Nat) (s : State) : State :=
  setReg (addr p (f.offAt i)) (setBits (reg s (addr p (f.offAt i))) f.hi f.lo v) s

/-- The state with a field on a page changed. -/
def setF (p : Page) (f : Field) (v : Nat) (s : State) : State := setI p f 0 v s

/-- The state with a one-bit field set to a truth value. -/
def setB (p : Page) (f : Field) (b : Bool) (s : State) : State := setF p f (if b then 1 else 0) s

/-- A counter field one higher by `n`, stopping at its largest value. -/
def countN (p : Page) (f : Field) (n : Nat) (s : State) : State :=
  setF p f (min (getF s p f + n) (2 ^ f.width - 1)) s

/-- A counter field one higher, stopping at its largest value. -/
def count (p : Page) (f : Field) (s : State) : State := countN p f 1 s

/-- The state with every register of a page in a list of offsets at its reset value. -/
def resetOffsets (p : Page) (os : List Nat) (s : State) : State :=
  os.foldl (fun t o => setReg (addr p o) (pageReset p o) t) s

/-! Interrupts (R29, R34). -/

/-- The state with something more sent out. -/
def emit (e : Emit) (s : State) : State := { s with emits := e :: s.emits }

/-- The interrupt condition of a page (R34). -/
def pageCond (s : State) (p : Page) : Bool :=
  decide ((reg s (addr p offIntStat) &&& reg s (addr p offIntEn)) ≠ 0)

/-- The condition of a page vector, the OR of its pages (R34). -/
def vectorCond (s : State) (v : Nat) : Bool := (vectorPages v).any (pageCond s)

/-- A vector's message, or its PBA bit while it is masked (R378). -/
def sendVector (v : Nat) (s : State) : State :=
  if s.msixMask.testBit v then { s with msixPba := s.msixPba ||| 2 ^ v } else emit (.msix v) s

/-- After a change to a page's interrupt registers: the message when the vector's condition has become true, or, after a write, when
it stays true (R34). -/
def afterInt (p : Page) (before written : Bool) (s : State) : State :=
  if vectorCond s (pageVector p) && (written || !before) then sendVector (pageVector p) s else s

/-- An event sets INT_STAT bits of a page (R29). -/
def raiseMask (p : Page) (m : Word) (s : State) : State :=
  afterInt p (vectorCond s (pageVector p)) false
    (setReg (addr p offIntStat) (reg s (addr p offIntStat) ||| m) s)

/-- An event sets INT_STAT bit `n` of a page (R29). -/
def raise (p : Page) (n : Nat) (s : State) : State := raiseMask p (BitVec.ofNat 32 (2 ^ n)) s

/-- The page counts an error: ERR_CNT.COUNT stops at 0xFFFF with SAT, and INT_STAT.ERR is set (R29). -/
def countErr (p : Page) (s : State) : State :=
  let w := reg s (addr p offErrCnt)
  let n := min (getBits w 15 0 + 1) 0xFFFF
  let w1 := setBits w 15 0 n
  raise p INT.ERR (setReg (addr p offErrCnt) (if n = 0xFFFF then setBits w1 31 31 1 else w1) s)

/-! Time. -/

/-- The current superframe number (R183). -/
def sfn (s : State) : Nat := getF s .bcn BCN_SFN.SFN

/-- The samples of module time at the start of the present slot (R15). -/
def slotTime (s : State) : Nat := s.time.sfStart + s.time.slot * 204800

/-- The count of slots since the SFN was 0, for the age of a context (spec/13_tone_engines.md). -/
def slotCount (s : State) : Nat := sfn s * 1024 + s.time.slot

/-- TRU time in nanoseconds at a sample of module time: 5 ns a sample, plus E (R344). -/
def truNs (s : State) (mt : Nat) : Int := (mt : Int) * 5 + s.tru.e

/-- The superframes from SFN `a` to SFN `b`, modulo 2^32. -/
def sfnDiff (a b : Nat) : Nat := (b + 2 ^ 32 - a % 2 ^ 32) % 2 ^ 32

/-! Event log (R432–R434). -/

/-- The TRU state as TQ codes it (R191). -/
def tq (s : State) : Nat := getF s .tru TRU_STATUS.STATE

/-- The record an event becomes now, with the next SEQ (R432). -/
def mkRec (s : State) (code inst : Nat) (detail : List Nat) : LogRec :=
  let t := truNs s (slotTime s)
  { seq := getF s .mgt MGT_LOG_NEXT.VALUE, rtc := s.time.rtc,
    timeS := (t / 1000000000 % (2 ^ 48 : Int)).toNat, timeNs := (t % 1000000000).toNat,
    code := code, inst := inst, tq := tq s, mode := getF s .boot BOOT_STATUS.MODE, detail := detail }

/-- A record appended to the buffer, which has room, with MGT_LOG_NEXT moved on. -/
def pushRec (code inst : Nat) (detail : List Nat) (s : State) : State :=
  let r := mkRec s code inst detail
  setF .mgt MGT_LOG_NEXT.VALUE (r.seq + 1) { s with log := { s.log with buf := s.log.buf ++ [r] } }

/-- The records the buffer of the Dormouse domain holds (R434). -/
def logRoom : Nat := 4096

/-- An event is logged: a LOG_GAP record first when records were lost; a record that finds the buffer full is dropped and counted
(R434). -/
def logEvent (code inst : Nat) (detail : List Nat) (s : State) : State :=
  let s1 := if s.log.lost ≠ 0 ∧ s.log.buf.length < logRoom then
      let t := pushRec 0x068A 0 [s.log.lost] s
      { t with log := { t.log with lost := 0 } }
    else s
  if s1.log.buf.length < logRoom then pushRec code inst detail s1
  else raise .mgt MGT_INT.LOG_GAP
    (count .mgt MGT_LOG_GAP_CNT.VALUE { s1 with log := { s1.log with lost := s1.log.lost + 1 } })

/-- An event of a page with an own code of its chapter's list, or the code of the INT_STAT bit it raises (R433). -/
def logPage (p : Page) (low : Nat) (detail : List Nat) (s : State) : State :=
  logEvent (pageType (pageKind p) % 256 * 256 + low) (pageInstance p) detail s

/-! Descriptor rings (R378–R385). -/

/-- The MSI-X vector of a ring (R379). -/
def ringVector (r : Nat) : Nat := 32 + r

/-- The ring beside its registers. -/
def ring (s : State) (r : Nat) : RingSt := Map.get (fun _ => RingSt.empty) s.rings r

/-- The state with a ring changed. -/
def setRing (r : Nat) (x : RingSt) (s : State) : State := { s with rings := Map.set (fun _ => RingSt.empty) s.rings r x }

/-- The entries of a ring's areas (R379). -/
def ringSize (s : State) (r : Nat) : Nat := 2 ^ getI s .pci PCI_RING.LOG2 r

/-- Whether a ring is in ERROR (R385). -/
def ringErr (s : State) (r : Nat) : Bool := (getF s .pci PCI_RING_ERR.ERR).testBit r

/-- Whether a ring runs: enabled and not in ERROR. -/
def ringUp (s : State) (r : Nat) : Bool := decide (getI s .pci PCI_RING.EN r = 1) && !ringErr s r

/-- Whether the host has consumed the entry the next completion would go into (R380). -/
def ringRoom (s : State) (r : Nat) : Bool :=
  decide ((getI s .pci PCI_RING.CQ_PROD r + 2 ^ 32 - (ring s r).cqCons) % 2 ^ 32 < ringSize s r)

/-- The message of a ring's vector, after which no entry is pending for it (R378). -/
def ringMessage (r : Nat) (s : State) : State :=
  sendVector (ringVector r) (setRing r { ring s r with pend := 0 } s)

/-- A completion entry written in order, with PHASE 1 on odd passes (R380), and the message when COAL_CNT entries are pending or COAL_US is 0
(R378). -/
def writeCq (r : Nat) (e : CqEntry) (s : State) : State :=
  let n := getI s .pci PCI_RING.CQ_PROD r
  let size := ringSize s r
  let s1 := setI .pci PCI_RING.CQ_PROD r (n + 1) (emit (.cq r (n % size) (decide (n / size % 2 = 0)) e) s)
  let p := (ring s1 r).pend + 1
  let s2 := setRing r { ring s1 r with pend := p } s1
  if getI s .pci PCI_RING.COAL_CNT r ≤ p ∨ getI s .pci PCI_RING.COAL_US r = 0 then ringMessage r s2 else s2

/-- A completion of a ring: written when there is room, else made to wait (R380). -/
def ringComplete (r : Nat) (e : CqEntry) (s : State) : State :=
  if ringUp s r && ringRoom s r && (ring s r).waiting.isEmpty then writeCq r e s
  else setRing r { ring s r with waiting := (ring s r).waiting ++ [e] } s

/-- Entries that waited are written as far as there is room; `fuel` bounds them by their number. -/
def drainRing (r : Nat) : Nat → State → State
  | 0, s => s
  | fuel + 1, s =>
    match (ring s r).waiting with
    | [] => s
    | e :: rest =>
      if ringUp s r && ringRoom s r then drainRing r fuel (writeCq r e (setRing r { ring s r with waiting := rest } s)) else s

/-- Every entry that waits on a ring written as far as there is room. -/
def flushRing (r : Nat) (s : State) : State := drainRing r (ring s r).waiting.length s

/-! Page commands (R38–R42). -/

/-- The page number of a page, the key of its command slot. -/
def pageNumber (p : Page) : Nat := pageBase p / 0x1000

/-- The command slot of a page. -/
def slotOf (s : State) (p : Page) : CmdSlot := Map.get (fun _ => CmdSlot.empty) s.cmds (pageNumber p)

/-- The state with the command slot of a page changed. -/
def setSlot (p : Page) (c : CmdSlot) (s : State) : State :=
  { s with cmds := Map.set (fun _ => CmdSlot.empty) s.cmds (pageNumber p) c }

/-- The outstanding command of a page (R39). -/
def outstanding (s : State) (p : Page) : Option Outstanding := (slotOf s p).out

/-- The state with the outstanding command of a page changed. -/
def setOutstanding (p : Page) (o : Outstanding) (s : State) : State := setSlot p { slotOf s p with out := some o } s

/-- CMD_STAT bits changed: `hi`, `lo` and the value. -/
def setStat (p : Page) (hi lo v : Nat) (s : State) : State :=
  setReg (addr p offCmdStat) (setBits (reg s (addr p offCmdStat)) hi lo v) s

/-- CMD_STAT.BUSY with its copy STATUS.CMD_BUSY. -/
def setBusy (p : Page) (v : Nat) (s : State) : State :=
  let s1 := setStat p 31 31 v s
  setReg (addr p offStatus) (setBits (reg s1 (addr p offStatus)) 30 30 v) s1

/-- STATUS.READY of a page. -/
def ready (s : State) (p : Page) : Bool := decide (getBits (reg s (addr p offStatus)) 31 31 = 1)

/-- STATUS.READY set to a value. -/
def setReady (p : Page) (v : Nat) (s : State) : State :=
  setReg (addr p offStatus) (setBits (reg s (addr p offStatus)) 31 31 v) s

/-- STATUS.FAULT set to a value. -/
def setFault (p : Page) (v : Nat) (s : State) : State :=
  setReg (addr p offStatus) (setBits (reg s (addr p offStatus)) 29 29 v) s

/-- The ring completion of a command that came from a ring, or the count of it when its place was lost (R40, R384, R386). -/
def originComplete (p : Page) (o : Outstanding) (code detail : Nat) (late : Bool) (s : State) : State :=
  match o.origin with
  | none => s
  | some g =>
    if g.lost then count .pci PCI_CMPL_LOST_CNT.COUNT s
    else ringComplete g.ring (.cmd g.cookie code detail late (pageBase p)) s

/-- The completion of a page's outstanding command, in one edge: CODE and DETAIL latched, BUSY cleared, DONE and CMD_DONE set (R40),
with ABORT_LATE when an abort met it past its last safe point (R41). Without an outstanding command nothing happens. -/
def complete (p : Page) (code detail : Nat) (s : State) : State :=
  match outstanding s p with
  | none => s
  | some o =>
    let s1 := setBusy p 0 (setSlot p ⟨none, some o.tag⟩ s)
    let s2 := setStat p 30 30 1 (setStat p 15 8 detail (setStat p 7 0 code s1))
    let s3 := if o.abortLate then setStat p 29 29 1 s2 else s2
    originComplete p o code detail o.abortLate (raise p INT.CMD_DONE s3)

/-- A write to CMD that is not accepted: DROPPED is set and the page counts an error (R39, R41). -/
def dropCmd (p : Page) (s : State) : State := countErr p (setStat p 28 28 1 s)

/-- What is latched when a command is issued (R38, R384). -/
def latch (p : Page) (op : Nat) (src : CmdSrc) (s : State) : Outstanding :=
  match src with
  | .host tag =>
    ⟨op, tag.toNat, reg s (addr p offArg), reg s (addr p (offArg + 4)), reg s (addr p (offArg + 8)), none, false, 0⟩
  | .ring r cookie tag a0 a1 a2 => ⟨op, tag.toNat, a0, a1, a2, some ⟨24 + r.val, cookie.toNat, false⟩, false, 0⟩

/-- Whether a ring runs and has a descriptor posted and not yet taken. -/
def ringPosted (s : State) (r : Nat) : Bool := ringUp s r && decide ((ring s r).sqProd ≠ getI s .pci PCI_RING.SQ_CONS r)

/-- The next descriptor of a ring taken (R381). -/
def takeEntry (r : Nat) (s : State) : State := setI .pci PCI_RING.SQ_CONS r ((getI s .pci PCI_RING.SQ_CONS r + 1) % 2 ^ 32) s

/-- A command issued on a page: its latched values, then its refusal while the block is not READY (R42, R43), or `run`, which completes it or
leaves it outstanding. -/
def issueNow (p : Page) (op : Nat) (src : CmdSrc) (run : Outstanding → State → State) (s : State) : State :=
  let o := latch p op src s
  let s1 := setBusy p 1 (setStat p 23 16 o.tag (setOutstanding p o s))
  if ready s p then run o s1 else complete p CODE.REFUSED 0 s1

/-- A command written to CMD or standing in a command ring (R38): dropped while another is outstanding (R39), or left to wait when it stands in a
ring (R384), which must run and have it posted; else issued. -/
def issue (p : Page) (op : Nat) (src : CmdSrc) (run : Outstanding → State → State) (s : State) : State :=
  match outstanding s p, src with
  | some _, .host _ => dropCmd p s
  | some _, .ring .. => s
  | none, .host _ => issueNow p op src run s
  | none, .ring r .. => if ringPosted s (24 + r.val) then issueNow p op src run (takeEntry (24 + r.val) s) else s

/-- A command that completes at once with a code. -/
def done (p : Page) (code : Nat) (s : State) : State := complete p code 0 s

/-- The phase of the outstanding command of a page moved on, the command staying outstanding. -/
def setPhase (p : Page) (n : Nat) (s : State) : State :=
  match outstanding s p with
  | none => s
  | some o => setOutstanding p { o with phase := n } s

/-- CTRL.BLK_RESET as R494 gives it on every page: the common header is kept, the counters and registers the chapter names return to
reset, and an outstanding command completes with RESET. -/
def blkReset (p : Page) (os : List Nat) (s : State) : State := complete p CODE.RESET 0 (resetOffsets p os s)

/-! Draws from the random source (R328). -/

/-- The random source reseeded: a failure of its noise source is over (R328). -/
def reseed (s : State) : State :=
  let s1 := setB .cip CIP_STATUS.DRBG_OK true s
  if getF s .cip CIP_STATUS.FAULT_CAUSE = 3 then setF .cip CIP_STATUS.FAULT_CAUSE 0 (setFault .cip 0 s1) else s1

/-- A fresh value of the random source and the state with the draw counted; every 2^20 draws the source is reseeded (R328). -/
def draw (s : State) : BitVec 256 × State :=
  let t := { s with draws := s.draws + 1 }
  (Config.random s.draws, if t.draws % 2 ^ 20 = 0 then reseed t else t)

/-! Host reads. -/

/-- A host read returned a word. -/
def returnWord (w : Word) (s : State) : State := emit (.read w) s

end Sys2Proof.Machine
end

