-- ==== Sys2Proof/Machine/RegOps.lean ====
section
/-!
DEFINITION. Sys2Proof/Machine/RegOps.lean: what a host write to a register does to its RW and RWP fields (R8, R9, R31, R33), shared by
REGISTER_WRITE and the commands that write one register.
-/
namespace Sys2Proof.Machine

/-- One RW field of a written register: set, or kept and counted when the written encoding is reserved (R8). -/
def writeField (p : Page) (o : Nat) (v : Word) (f : Field) (s : State) : State :=
  let x := getBits v f.hi f.lo
  let a := addr p o
  if f.legal.ok f.width x then setReg a (setBits (reg s a) f.hi f.lo x) s else countErr p s

/-- The RW fields of a register written (R8, R9). -/
def writeRw (p : Page) (o : Nat) (v : Word) (s : State) : State :=
  ((fieldsAt (pageKind p) o).filter (fun f => decide (f.acc = .rw))).foldl (fun t f => writeField p o v f t) s

/-- Whether a write gives an RWP field of the register a value other than its own (R31). -/
def protectedWrite (p : Page) (o : Nat) (v : Word) (s : State) : Bool :=
  (fieldsAt (pageKind p) o).any (fun f => decide (f.acc = .rwp) &&
    decide (getBits v f.hi f.lo ≠ getBits (reg s (addr p o)) f.hi f.lo))

/-- A refused protected write (R33). -/
def refuseProtected (p : Page) (o : Nat) (s : State) : State :=
  logPage p INT.PROT_REFUSED [pageBase p, o] (countErr p (raise p INT.PROT_REFUSED s))

/-- A host write of a register's RW fields, with the refusal of a change to its RWP fields (R31, R33). -/
def writeFields (p : Page) (o : Nat) (v : Word) (s : State) : State :=
  let s1 := writeRw p o v s
  if protectedWrite p o v s then refuseProtected p o s1 else s1

end Sys2Proof.Machine
end

