-- ==== Sys2Proof/Machine/Operands.lean ====
section
/-!
DEFINITION. Sys2Proof/Machine/Operands.lean: byte orders, bit strings and checks that operands and frames are built with.
-/
namespace Sys2Proof.Machine

/-- The byte of a number's value modulo 256. -/
def byteOf (v : Nat) : Byte := BitVec.ofNat 8 v

/-- A number in `n` bytes, least significant first (R6). -/
def leBytes : Nat → Nat → List Byte
  | 0, _ => []
  | n + 1, v => byteOf v :: leBytes n (v / 256)

/-- A number in `n` bytes, most significant first. -/
def beBytes (n v : Nat) : List Byte := (leBytes n v).reverse

/-- The number that bytes spell, least significant first (R6). -/
def ofLE : List Byte → Nat
  | [] => 0
  | b :: r => b.toNat + 256 * ofLE r

/-- The number that bytes spell, most significant first. -/
def ofBE (l : List Byte) : Nat := ofLE l.reverse

/-- The `n` bytes of a list from offset `o`. -/
def slice (l : List Byte) (o n : Nat) : List Byte := (l.drop o).take n

/-- The number in bytes `o` to `o + n - 1` of a list, most significant first. -/
def beAt (l : List Byte) (o n : Nat) : Nat := ofBE (slice l o n)

/-- The number in bytes `o` to `o + n - 1` of a list, least significant first. -/
def leAt (l : List Byte) (o n : Nat) : Nat := ofLE (slice l o n)

/-- A list of bytes filled with zeros to a length. -/
def padTo (n : Nat) (l : List Byte) : List Byte := l ++ List.replicate (n - l.length) 0

/-- The bits of a number, most significant of `n` first. -/
def bitsMsb (n v : Nat) : List Bool := ((List.range n).map (fun i => v.testBit i)).reverse

/-- The number that bits spell, most significant first. -/
def ofBitsMsb (l : List Bool) : Nat := l.foldl (fun a b => 2 * a + (if b then 1 else 0)) 0

/-- The bits of bytes, most significant bit of each byte first. -/
def bitsOf (l : List Byte) : List Bool := l.flatMap (fun b => bitsMsb 8 b.toNat)

/-- The bytes of a bit string, eight bits to a byte, most significant first; a last partial byte is filled with zeros. -/
def bytesOfBits : List Bool → List Byte
  | a :: b :: c :: d :: e :: f :: g :: h :: r => byteOf (ofBitsMsb [a, b, c, d, e, f, g, h]) :: bytesOfBits r
  | [] => []
  | l => [byteOf (ofBitsMsb (l ++ List.replicate (8 - l.length) false))]

/-- The absolute difference of two numbers. -/
def absDiff (a b : Nat) : Nat := if a ≤ b then b - a else a - b

/-- The smallest multiple of `m` not below `v`, counted in multiples. -/
def ceilDiv (v m : Nat) : Nat := (v + m - 1) / m

end Sys2Proof.Machine
end

