-- ==== Sys2Proof/Machine/Encode.lean ====
section
/-!
DEFINITION. Sys2Proof/Machine/Encode.lean: check sums, the convolutional code, and the symbols of narrowband frames and broadband bursts
(spec/07_narrowband_tone_keying.md, spec/08_broadband_ofdm.md).
-/
namespace Sys2Proof.Machine

/-! Check sums. -/

/-- One bit of CRC-16/CCITT (R121). -/
def crc16Bit (c : Nat) (b : Bool) : Nat :=
  let top := c.testBit 15
  let d := c * 2 % 65536
  if top != b then d ^^^ 0x1021 else d

/-- HCRC over bytes: CRC-16/CCITT, initial value 0xFFFF, most significant bit first (R121). -/
def crc16 (l : List Byte) : Nat := (bitsOf l).foldl crc16Bit 0xFFFF

/-- One bit of a reflected CRC with a reversed polynomial. -/
def crcReflBit (poly c : Nat) : Nat := if c % 2 = 1 then c / 2 ^^^ poly else c / 2

/-- One byte of a reflected CRC. -/
def crcReflByte (poly c : Nat) (b : Byte) : Nat := (List.range 8).foldl (fun x _ => crcReflBit poly x) (c ^^^ b.toNat)

/-- CRC-32 of IEEE 802.3 over bytes (R122). -/
def crc32 (l : List Byte) : Nat := l.foldl (crcReflByte 0xEDB88320) 0xFFFFFFFF ^^^ 0xFFFFFFFF

/-- CRC-32C over bytes: the Castagnoli polynomial 0x1EDC_6F41, reflected, initial value and final complement as in R122. -/
def crc32c (l : List Byte) : Nat := l.foldl (crcReflByte 0x82F63B78) 0xFFFFFFFF ^^^ 0xFFFFFFFF

/-! The convolutional code (R123). -/

/-- The dibits of input bits, with the six bits before each in `h`, newest first. -/
def convBits : List Bool → List Bool → List (Bool × Bool)
  | _, [] => []
  | h, x :: r =>
    let g (i : Nat) : Bool := h.getD i false
    (x ^^ g 1 ^^ g 2 ^^ g 4 ^^ g 5, x ^^ g 0 ^^ g 1 ^^ g 2 ^^ g 5) :: convBits ((x :: h).take 6) r

/-- The coded dibits of a block: its data bits and six zero tail bits, from the all-zero state (R123). -/
def convBlock (bits : List Bool) : List (Bool × Bool) := convBits [] (bits ++ List.replicate 6 false)

/-- The bits of bytes, least significant bit of each byte first (R122). -/
def bitsLsb (l : List Byte) : List Bool := l.flatMap (fun b => (List.range 8).map (fun i => b.toNat.testBit i))

/-- The transmit order of the dibits of a block of `n` (R124). -/
def interleave (n : Nat) : List Nat :=
  (List.range 10).flatMap (fun c =>
    ((List.range (ceilDiv n 10)).map (fun r => 10 * r + c)).filter (fun v => decide (v < n)))

/-- The Gray offset of a dibit (R125). -/
def grayOffset : Bool × Bool → Nat
  | (false, false) => 0
  | (false, true) => 1
  | (true, true) => 2
  | (true, false) => 3

/-- The whitening of symbol `i` (R125). -/
def tri (i : Nat) : Nat := i * (i + 1) / 2 % 4

/-- The keyed offsets of a block: its interleaved dibits sent `reps` times from symbol index `i0` on (R125). -/
def blockOffsets (d : List (Bool × Bool)) (reps i0 : Nat) : List Nat :=
  let n := d.length
  let g := (interleave n).map (fun q => grayOffset (d.getD q (false, false)))
  (List.range reps).flatMap (fun j => g.zipIdx.map (fun e => (e.1 + j + tri (i0 + j * n + e.2)) % 4))

/-- The repetition factor of a REP code and its square root (R118, R120). -/
def repRoot (rep : Nat) : Nat := match rep with | 0 => 1 | 1 => 2 | _ => 4

/-- Preamble and sync offsets for a hold length and a sync pattern (R119). -/
def preambleOffsets (m : Nat) (syncP : Bool) : List Nat :=
  (List.range (8 * m)).map (fun i => i / m % 4) ++
  (List.range (4 * m)).map (fun i => (if syncP then [1, 0, 3, 2] else [3, 2, 1, 0]).getD (i / m) 0)

/-- A narrowband header of eight bytes with its HCRC put in (R120, R121). -/
def withHcrc (h : List Byte) : List Byte := h.take 6 ++ beBytes 2 (crc16 (h.take 6))

/-- The bits of a payload with its CRC, as they enter the encoder (R122). -/
def payloadBits (l : List Byte) : List Bool := bitsLsb (l ++ leBytes 4 (crc32 l))

/-- The keyed offsets of a whole narrowband frame (R118–R125). -/
def frameOffsets (h payload : List Byte) (syncP : Bool) : List Nat :=
  let m := repRoot (beAt h 0 1 % 4)
  let hd := convBlock (bitsOf (withHcrc h))
  preambleOffsets m syncP ++ blockOffsets hd (m * m) 0 ++
    (if payload = [] then [] else blockOffsets (convBlock (payloadBits payload)) (m * m) (m * m * 70))

/-- The output of ENCODE_FRAME: one byte a symbol, [1:0] offset, [7:2] segment modulo 64 (R126, R134). -/
def frameBytes (h payload : List Byte) (syncP : Bool) : List Byte :=
  (frameOffsets h payload syncP).zipIdx.map (fun e => byteOf (e.1 + 4 * (e.2 / 128 % 64)))

/-- The symbols of a narrowband frame (R127). -/
def nbSymbols (rep len : Nat) : Nat :=
  let m := repRoot rep
  12 * m + 70 * (m * m) + (if len = 0 then 0 else m * m * (8 * len + 38))

/-- The samples of a narrowband frame on the line (R117, R127). -/
def nbSamples (n : Nat) : Nat := n * 115200 + 800

/-! The broadband header (R145, R146). -/

/-- A broadband header of twelve bytes with its HCRC put in (R145). -/
def withHcrcBb (h : List Byte) : List Byte := h.take 10 ++ beBytes 2 (crc16 (h.take 10))

/-- The fields of a broadband header (R145). -/
structure BbHeader where
  ver : Nat
  ftype : Nat
  gi : Nat
  rate : Nat
  pi : Nat
  tmid : Nat
  ruFirst : Nat
  ruLast : Nat
  len : Nat
  addr : Nat
  fseq : Nat
  tadj : Nat
  hcrc : Nat
deriving DecidableEq, Repr

/-- Bits `hi` to `lo` of a header of bytes read most significant first. -/
def headerBits (h : List Byte) (hi lo : Nat) : Nat := ofBE h / 2 ^ lo % 2 ^ (hi + 1 - lo)

/-- The fields read from twelve header bytes (R145). -/
def bbHeader (h : List Byte) : BbHeader :=
  { ver := headerBits h 95 94, ftype := headerBits h 93 90, gi := headerBits h 89 88, rate := headerBits h 87 86,
    pi := headerBits h 85 84, tmid := headerBits h 83 80, ruFirst := headerBits h 79 75, ruLast := headerBits h 74 70,
    len := headerBits h 69 54, addr := headerBits h 53 34, fseq := headerBits h 33 26, tadj := headerBits h 25 16,
    hcrc := headerBits h 15 0 }

/-- A broadband header as a number, its HCRC left at 0. -/
def bbHeaderNumber (b : BbHeader) : Nat :=
  b.ver * 2 ^ 94 + b.ftype * 2 ^ 90 + b.gi * 2 ^ 88 + b.rate * 2 ^ 86 + b.pi * 2 ^ 84 + b.tmid * 2 ^ 80 + b.ruFirst * 2 ^ 75 +
    b.ruLast * 2 ^ 70 + b.len * 2 ^ 54 + b.addr * 2 ^ 34 + b.fseq * 2 ^ 26 + b.tadj * 2 ^ 16

/-- The twelve bytes of a broadband header with its HCRC. -/
def bbHeaderBytes (b : BbHeader) : List Byte := withHcrcBb (beBytes 12 (bbHeaderNumber b))

/-- The fields of a narrowband header (R120). -/
structure NbHeader where
  ver : Nat
  ftype : Nat
  rep : Nat
  hop : Nat
  len : Nat
  addr : Nat
  fseq : Nat
  hcrc : Nat
deriving DecidableEq, Repr

/-- The fields read from eight header bytes (R120). -/
def nbHeader (h : List Byte) : NbHeader :=
  { ver := headerBits h 63 62, ftype := headerBits h 61 58, rep := headerBits h 57 56, hop := headerBits h 54 49,
    len := headerBits h 48 40, addr := headerBits h 39 20, fseq := headerBits h 19 16, hcrc := headerBits h 15 0 }

/-- The eight bytes of a narrowband header with its HCRC; bit 55 is sent as 0. -/
def nbHeaderBytes (b : NbHeader) : List Byte :=
  withHcrc (beBytes 8 (b.ver * 2 ^ 62 + b.ftype * 2 ^ 58 + b.rep * 2 ^ 56 + b.hop * 2 ^ 49 + b.len * 2 ^ 40 + b.addr * 2 ^ 20 +
    b.fseq * 2 ^ 16))

/-! Carriers and masks (R138, R139). A mask is a number whose bit `i` stands for carrier 37 + i. -/

/-- The carriers of a burst's RU range, as offsets from carrier 37 (R138). -/
def ruCarriers (first last : Nat) : List Nat := (List.range (min (64 * (last + 1)) 1725 - 64 * first)).map (64 * first + ·)

/-- The unmasked carriers of an RU range. -/
def unmasked (mask first last : Nat) : List Nat := (ruCarriers first last).filter (fun i => !mask.testBit i)

/-- Bits per carrier of a loading code (R151). -/
def codeBits (c : Nat) : Nat := [0, 1, 2, 4, 6, 8, 10, 12].getD c 0

/-- The loading code of a carrier offset in the CODES field of a tone map (R152). -/
def mapCode (codes : List Byte) (i : Nat) : Nat := ofLE (slice codes (3 * i / 8) 2) / 2 ^ (3 * i % 8) % 8

/-- The bits that a TMID loads onto an unmasked carrier (R151). -/
def loading (tmid : Nat) (codes : List Byte) (i : Nat) : Nat :=
  if tmid = 0 then 2 else if tmid = 15 then 1 else codeBits (mapCode codes i)

/-- The guard interval in samples of a GI code (R145). -/
def giSamples (gi : Nat) : Nat := 256 * 2 ^ gi

/-- The information bits of a codeword by RATE (R147). -/
def ldpcK (rate : Nat) : Nat := [972, 1296, 1458, 1620].getD rate 972

/-- The data symbols between pilot symbols by PI code (R145). -/
def pilotStep (pi : Nat) : Nat := 4 * 2 ^ pi

/-- Codewords of a payload (R147). -/
def codewords (rate len : Nat) : Nat := ceilDiv (8 * (len + 4)) (ldpcK rate)

/-- Data symbols of a payload with `b` coded bits a symbol (R148). -/
def dataSymbols (rate len b : Nat) : Nat := if b = 0 then 0 else ceilDiv (codewords rate len * 1944) b

/-- Pilot symbols among data symbols (R148). -/
def pilotSymbols (pi n : Nat) : Nat := (n - 1) / pilotStep pi

/-- The samples of a broadband burst (R148); a burst without payload has header symbols only. -/
def bbSamples (h : BbHeader) (b : Nat) : Nat :=
  if h.len = 0 then 25664
  else
    let n := dataSymbols h.rate h.len b
    25664 + (n + pilotSymbols h.pi n) * (4096 + giSamples h.gi)

/-! Scrambling, coding and mapping (R146–R150). -/

/-- One step of the scrambler's generator with state bits s15 … s1 in bits 14 … 0 (R147). -/
def scramStep (s : Nat) : Bool × Nat :=
  let out := s.testBit 14 != s.testBit 13
  (out, s * 2 % 32768 + (if out then 1 else 0))

/-- `n` output bits of the scrambler from a state. -/
def scramBits : Nat → Nat → List Bool
  | 0, _ => []
  | n + 1, s => (scramStep s).1 :: scramBits n (scramStep s).2

/-- A list cut into blocks of `k`; `fuel` bounds their number. -/
def blocks {α : Type} (k : Nat) : Nat → List α → List (List α)
  | 0, _ => []
  | fuel + 1, l => if l.isEmpty then [] else l.take k :: blocks k fuel (l.drop k)

/-- The coded stream of a payload with the fill bits that complete `total` bits (R147). -/
def codedStream (payload : List Byte) (rate total : Nat) : List Bool :=
  let k := ldpcK rate
  let n := codewords rate payload.length
  let bits := payloadBits payload
  let padded := bits ++ List.replicate (n * k - bits.length) false
  let scr := scramBits (n * k + (total - n * 1944)) 0x54A9
  let mixed := (padded.zip scr).map (fun e => e.1 != e.2)
  ((blocks k n mixed).flatMap (fun b => b ++ Config.ldpcParity rate b)) ++ scr.drop (n * k)

/-- The step P of the interleaver for D loaded carriers (R149). -/
def interleaveStep (d : Nat) : Nat := ([37, 41, 43].find? (fun p => decide (d % p ≠ 0))).getD 43

/-- The order in which a data symbol's bits go to label bits `r` of loaded carriers `d` (R149). -/
def labelOrder (loads : List Nat) (sym : Nat) : List (Nat × Nat) :=
  let dn := loads.length
  (List.range 12).flatMap (fun r =>
    ((List.range dn).map (fun m => (97 * sym + interleaveStep dn * m) % dn)).filterMap (fun d =>
      if r < loads.getD d 0 then some (d, r) else none))

/-- The label bits of loaded carrier `d` from a symbol's bits. -/
def labelOf (order : List (Nat × Nat)) (bits : List Bool) (b d : Nat) : List Bool :=
  (List.range b).map (fun r => ((order.zip bits).find? (fun e => decide (e.1 = (d, r)))).elim false (·.2))

/-- The integer whose Gray code is `u` (R150). -/
def grayIndex (n u : Nat) : Nat := ((List.range (2 ^ n)).find? (fun i => decide (i ^^^ (i / 2) = u))).getD 0

/-- The levels of a carrier's label on the two axes (R150). -/
def levels (l : List Bool) : Int × Int :=
  let n := l.length / 2
  let axis (o : Nat) : Int :=
    (2 ^ n - 1 : Int) - 2 * (grayIndex n (ofBitsMsb ((List.range n).map (fun i => l.getD (2 * i + o) false))) : Int)
  (axis 0, axis 1)

/-- The word of a carrier value: exact where the value is a whole number, else as the spec leaves its rounding open (R150, R166). -/
def dataWord (l : List Bool) : BitVec 32 :=
  match l with
  | [] => 0
  | [a] => if a then 0xF0000000 else 0x10000000
  | _ => Config.carrierWord (levels l).1 (levels l).2 (l.length / 2) 0

/-- The word of a header value at a carrier offset: the dibit's QPSK value rotated by X_C (R146). -/
def headerWord (d : Bool × Bool) (i : Nat) : BitVec 32 :=
  Config.carrierWord (if d.1 then -1 else 1) (if d.2 then -1 else 1) 1 (i * i)

/-- The word of a pilot value at a carrier offset (R144). -/
def pilotWord (i : Nat) : BitVec 32 := Config.carrierWord 1 0 0 (i * i)

/-- One symbol of the output: the words of carriers 37–1,761, given for the carriers in use (R166). -/
def symbolWords (used : List (Nat × BitVec 32)) : List (BitVec 32) :=
  (List.range 1725).map (fun i => (used.lookup i).getD 0)

/-- The two header symbols (R146). -/
def headerSymbols (h : List Byte) (cs : List Nat) : List (List (BitVec 32)) :=
  let d := convBlock (bitsOf h)
  [0, 1].map (fun s => symbolWords (cs.zipIdx.map (fun e =>
    (e.1, headerWord (d.getD ((s * cs.length + e.2) % 102) (false, false)) e.1))))

/-- Data symbol `s` of a burst: its loaded carriers with their bits. -/
def dataSymbol (loads : List (Nat × Nat)) (s : Nat) (bits : List Bool) : List (BitVec 32) :=
  let order := labelOrder (loads.map (·.2)) s
  symbolWords (loads.zipIdx.map (fun e => (e.1.1, dataWord (labelOf order bits e.1.2 e.2))))

/-- The symbols after the header: data symbols with a pilot symbol after every PI-th, but not after the last (R148). -/
def payloadSymbols (h : BbHeader) (payload codes : List Byte) (cs : List Nat) : List (List (BitVec 32)) :=
  let loads := (cs.map (fun i => (i, loading h.tmid codes i))).filter (fun e => decide (e.2 ≠ 0))
  let b := (loads.map (·.2)).sum
  let n := dataSymbols h.rate h.len b
  let stream := codedStream payload h.rate (n * b)
  (List.range n).flatMap (fun s =>
    let sym := dataSymbol loads s ((stream.drop (s * b)).take b)
    if (s + 1) % pilotStep h.pi = 0 ∧ s + 1 < n then [sym, symbolWords (cs.map (fun i => (i, pilotWord i)))] else [sym])

/-- The symbols after the preamble that ENCODE_BURST writes, in air order (R166). -/
def burstSymbols (hd payload codes : List Byte) (mask : Nat) : List (List (BitVec 32)) :=
  let h := bbHeader hd
  let cs := unmasked mask h.ruFirst h.ruLast
  headerSymbols (withHcrcBb hd) cs ++ (if h.len = 0 then [] else payloadSymbols h payload codes cs)

end Sys2Proof.Machine
end

