-- ==== Sys2Proof/Machine/MemOps.lean ====
section
/-!
DEFINITION. Sys2Proof/Machine/MemOps.lean: the commons as a byte space: banks, power states and the accesses commands make.
-/
namespace Sys2Proof.Machine

/-- The bytes of the commons (R302). -/
def commonsSize : Nat := 0x2000000

/-- The value of a byte of the commons that nothing has written: zero, as the start-up test leaves it. DESIGN CHOICE (log 3). -/
def memDefault (_ : Nat) : Byte := 0

/-- The canonical form of the commons' byte table. -/
def memWf (m : List Host.Cell) : Bool := Map.wf memDefault m

/-- The stored byte at a commons offset. -/
def byteAt (s : State) (a : Nat) : Byte := Map.get memDefault s.mem.bytes a

/-- The state with one byte of the commons stored. -/
def setByte (a : Nat) (b : Byte) (s : State) : State :=
  { s with mem := { s.mem with bytes := Map.set memDefault s.mem.bytes a b } }

/-- The `n` stored bytes from a commons offset. -/
def bytesAt (s : State) (a n : Nat) : List Byte := (List.range n).map (fun i => byteAt s (a + i))

/-- The state with bytes stored from a commons offset on. -/
def setBytes : Nat → List Byte → State → State
  | _, [], s => s
  | a, b :: r, s => setBytes (a + 1) r (setByte a b s)

/-- The bank of a commons offset below 32 MiB (R302). -/
def bankOf (a : Nat) : Bank := Fin.ofNat 128 (a / 0x40000)

/-- The power state of a bank: 0 ON, 1 RETENTION, 2 OFF (R310). -/
def bankPower (s : State) (b : Bank) : Nat := getF s (.memb b) MEMB_STATUS.POWER

/-- A bank beside its page. -/
def bank (s : State) (b : Nat) : BankSt := Map.get (fun _ => BankSt.quiet) s.mem.banks b

/-- The state with a bank changed. -/
def setBank (b : Nat) (x : BankSt) (s : State) : State :=
  { s with mem := { s.mem with banks := Map.set (fun _ => BankSt.quiet) s.mem.banks b x } }

/-- What an access does to the bank it reaches: a bank in RETENTION returns to ON; an access to a bank that is OFF is counted and
reported (R310). -/
def touchBank (b : Bank) (s : State) : State :=
  match bankPower s b with
  | 2 => raise (.memb b) MEMB_INT.OFF_ACCESS (count (.memb b) MEMB_OFF_CNT.COUNT s)
  | 1 => setF (.memb b) MEMB_STATUS.POWER 0 s
  | _ => s

/-- A byte as an access reads it: 0 from a bank that is OFF (R310). -/
def busByte (s : State) (a : Nat) : Byte := if bankPower s (bankOf a) = 2 then 0 else byteAt s a

/-- The banks that an area of `n` bytes from `a` lies in. -/
def banksOf (a n : Nat) : List Bank :=
  if n = 0 then [] else (List.range ((a + n - 1) / 0x40000 + 1 - a / 0x40000)).map (fun i => Fin.ofNat 128 (a / 0x40000 + i))

/-- A read of `n` bytes of the commons by a command or a DMA engine: the bytes. -/
def busBytes (s : State) (a n : Nat) : List Byte := (List.range n).map (fun i => busByte s (a + i))

/-- A byte written by an access: a bank that is OFF takes nothing (R310). -/
def busSet (a : Nat) (b : Byte) (s : State) : State := if bankPower s (bankOf a) = 2 then s else setByte a b s

/-- Bytes written by accesses from an offset on. -/
def busSets : Nat → List Byte → State → State
  | _, [], s => s
  | a, b :: r, s => busSets (a + 1) r (busSet a b s)

/-- What reading or writing an area does to its banks. -/
def touchArea (a n : Nat) (s : State) : State := (banksOf a n).foldl (fun t b => touchBank b t) s

/-- A write of bytes to the commons by a command or a DMA engine. -/
def busWrite (a : Nat) (l : List Byte) (s : State) : State := busSets a l (touchArea a l.length s)

/-- The host area of the commons: banks 64–79 (R303). -/
def inHostArea (a n : Nat) : Bool := decide (0x1000000 ≤ a) && decide (a + n ≤ 0x1400000)

/-- A 4-byte word list written little-endian into the commons (R6). -/
def busWriteWords (a : Nat) (ws : List Nat) (s : State) : State := busWrite a (ws.flatMap (leBytes 4)) s

end Sys2Proof.Machine
end

