-- ==== Sys2Proof/Machine/Burst.lean ====
section
/-!
DEFINITION. Sys2Proof/Machine/Burst.lean: burst contexts and burst queues as the engines and the frame cores work on them
(R274–R279, R287–R297).
-/
namespace Sys2Proof.Machine

/-! Contexts. -/

/-- A burst context by ID. -/
def burst (s : State) (id : Nat) : Burst := Map.get (fun _ => Burst.idle) s.eng.bursts id

/-- The state with a burst context changed. -/
def setBurst (id : Nat) (b : Burst) (s : State) : State :=
  { s with eng := { s.eng with bursts := Map.set (fun _ => Burst.idle) s.eng.bursts id b } }

/-- A cluster beside its page. -/
def cluster (s : State) (c : Nat) : ClusterSt := Map.get (fun _ => ClusterSt.fresh) s.eng.clusters c

/-- The state with a cluster changed. -/
def setCluster (c : Nat) (x : ClusterSt) (s : State) : State :=
  { s with eng := { s.eng with clusters := Map.set (fun _ => ClusterSt.fresh) s.eng.clusters c x } }

/-- The ENG page of a cluster number. -/
def engPage (c : Nat) : Page := .eng (Fin.ofNat 32 c)

/-- The LPT page of a port number. -/
def lptPage (n : Nat) : Page := .lpt (Fin.ofNat 52 n)

/-- Contexts counted as OPEN in ENG_CTX_USE: RX_OPEN, TX_SET and TX_LIVE. -/
def CtxState.isOpen : CtxState → Bool
  | .rxOpen | .txSet | .txLive => true
  | _ => false

/-- The register code of a context's state (R275). -/
def CtxState.code : CtxState → Nat
  | .free => 0 | .rxOpen => 1 | .rxDone => 2 | .txSet => 3 | .txLive => 4

/-- ENG_CTX_FREE and ENG_CTX_USE brought up to date for a context that goes from one state to another. -/
def recount (a b : CtxState) (s : State) : State :=
  let p : Page := .eng 0
  let free := getF s p ENG_CTX_FREE.FREE + (if b = .free then 1 else 0) - (if a = .free then 1 else 0)
  let held := getF s p ENG_CTX_USE.HELD + (if b = .rxDone then 1 else 0) - (if a = .rxDone then 1 else 0)
  let openN := getF s p ENG_CTX_USE.OPEN + (if b.isOpen then 1 else 0) - (if a.isOpen then 1 else 0)
  let s1 := setF p ENG_CTX_FREE.FREE free s
  let s2 := setF p ENG_CTX_FREE.LOW (min (getF s1 p ENG_CTX_FREE.LOW) free) s1
  setF p ENG_CTX_USE.OPEN openN (setF p ENG_CTX_USE.HELD held s2)

/-! Engine roles (R269). -/

/-- GATED. -/
def ROLE.GATED : Nat := 0x0
/-- BB_FE. -/
def ROLE.BB_FE : Nat := 0x1
/-- NB_FE. -/
def ROLE.NB_FE : Nat := 0x2
/-- BB_RX. -/
def ROLE.BB_RX : Nat := 0x3
/-- NB_RX. -/
def ROLE.NB_RX : Nat := 0x4
/-- TX. -/
def ROLE.TX : Nat := 0x5
/-- ENCODE. -/
def ROLE.ENCODE : Nat := 0x6
/-- OUT_NB. -/
def ROLE.OUT_NB : Nat := 0x7
/-- FAULTED. -/
def ROLE.FAULTED : Nat := 0xF

/-- The register that shows the role of engine `i` (R269). -/
def roleReg (c i : Nat) : Nat := addr (engPage c) (if i < 8 then ENG_ROLE_LO.ROLES.off else ENG_ROLE_HI.ROLES.off)

/-- The role of an engine of a cluster. -/
def role (s : State) (c i : Nat) : Nat := getBits (reg s (roleReg c i)) (4 * (i % 8) + 3) (4 * (i % 8))

/-- The state with an engine given a role; every role but GATED and FAULTED is awake (R272). -/
def setRole (c i r : Nat) (s : State) : State :=
  let s1 := setReg (roleReg c i) (setBits (reg s (roleReg c i)) (4 * (i % 8) + 3) (4 * (i % 8)) r) s
  let a := addr (engPage c) ENG_AWAKE.AWAKE.off
  setReg a (setBits (reg s1 a) i i (if r = ROLE.GATED ∨ r = ROLE.FAULTED then 0 else 1)) s1

/-- Whether a burst is held by an engine: RX_OPEN, TX_SET or TX_LIVE there (R275). -/
def heldBy (c i : Nat) (b : Burst) : Bool := b.st.isOpen && decide (b.cluster = c) && decide (b.engine = i)

/-- Whether a burst is held by a cluster. -/
def heldIn (c : Nat) (b : Burst) : Bool := b.st.isOpen && decide (b.cluster = c)

/-- The number of contexts that satisfy a test. -/
def countBursts (s : State) (p : Burst → Bool) : Nat := (s.eng.bursts.filter (fun e => p e.2)).length

/-- ENG_LOAD, the BUSY bits of ENG_AWAKE and LDPC_ON of a cluster brought up to date with the bursts it holds. -/
def refreshLoad (c : Nat) (s : State) : State :=
  let p := engPage c
  let nb := countBursts s (fun b => heldIn c b && !b.tx && decide (b.wave = .nb))
  let bb := countBursts s (fun b => heldIn c b && !b.tx && decide (b.wave = .bb))
  let tx := countBursts s (fun b => heldIn c b && b.tx)
  let busy := (List.range 16).foldl (fun w i => if countBursts s (heldBy c i) = 0 then w else w + 2 ^ i) 0
  setB p ENG_STATUS.LDPC_ON (decide (bb ≠ 0)) (setF p ENG_AWAKE.BUSY busy
    (setF p ENG_LOAD.TX_LIVE tx (setF p ENG_LOAD.BB_OPEN bb (setF p ENG_LOAD.NB_OPEN nb s))))

/-- A context moved to another state, its other fields as given; the counts and the loads of the clusters follow. -/
def moveCtx (id : Nat) (b : Burst) (s : State) : State :=
  let old := burst s id
  let s1 := recount old.st b.st (setBurst id b s)
  refreshLoad b.cluster (if old.cluster = b.cluster then s1 else refreshLoad old.cluster s1)

/-- The first ID of the beacon reserve (R274). -/
def reserveBase : Nat := 8128

/-- The number of free IDs among 0–8,127 (R274). -/
def freeIds (s : State) : Nat := (reserveBase - s.eng.fresh) + s.eng.released.length

/-- The free ID at the head of the first-in, first-out list, and the list without it (R274). -/
def takeId (e : EngSt) : Option (Nat × EngSt) :=
  if e.fresh < reserveBase then some (e.fresh, { e with fresh := e.fresh + 1 })
  else match e.released with
    | [] => none
    | id :: r => some (id, { e with released := r })

/-- A free ID of the beacon reserve; the lowest is taken. DESIGN CHOICE (log 9): the spec names no order inside the reserve. -/
def takeReserve (s : State) : Option Nat :=
  ((List.range 64).map (reserveBase + ·)).find? (fun id => decide ((burst s id).st = .free))

/-- The ID a receive allocation takes: refused while the free IDs number TX_RESERVE or fewer (R274). -/
def allocRx (s : State) : Option (Nat × EngSt) :=
  if freeIds s ≤ getF s (.eng 0) ENG_CTX_RSV.TX_RESERVE then none else takeId s.eng

/-- The ID a transmit allocation takes: from the reserve for a beacon, else any free ID of 0–8,127 (R274). -/
def allocTx (beacon : Bool) (s : State) : Option (Nat × EngSt) :=
  if beacon then (takeReserve s).map (fun id => (id, s.eng)) else takeId s.eng

/-- A context opened with a new generation (R274). -/
def openCtx (id : Nat) (e : EngSt) (b : Burst) (s : State) : State :=
  moveCtx id { b with gen := ((burst s id).gen + 1) % 256, slot0 := slotCount s } { s with eng := e }

/-- A context becomes FREE; its ID joins the tail of the list of free IDs, unless it is of the reserve (R274). -/
def freeCtx (id : Nat) (s : State) : State :=
  let b := burst s id
  let s1 := moveCtx id { Burst.idle with gen := b.gen } s
  if id < reserveBase ∧ b.st ≠ .free then { s1 with eng := { s1.eng with released := s1.eng.released ++ [id] } } else s1

/-! Completion statuses (R278). -/

/-- OK. -/
def BST.OK : Nat := 0x00
/-- HEADER_LOST. -/
def BST.HEADER_LOST : Nat := 0x01
/-- CRC_FAIL. -/
def BST.CRC_FAIL : Nat := 0x02
/-- TMAP_UNKNOWN. -/
def BST.TMAP_UNKNOWN : Nat := 0x03
/-- ABORTED. -/
def BST.ABORTED : Nat := 0x04
/-- KILLED. -/
def BST.KILLED : Nat := 0x05
/-- DRIVER_FAULT. -/
def BST.DRIVER_FAULT : Nat := 0x06
/-- DWELL_STOP. -/
def BST.DWELL_STOP : Nat := 0x07
/-- OVERRUN. -/
def BST.OVERRUN : Nat := 0x08
/-- ENGINE_FAULT. -/
def BST.ENGINE_FAULT : Nat := 0x09
/-- RESET. -/
def BST.RESET : Nat := 0x0B

/-- The place of a status in the table of R278, a higher rank winning. -/
def statusRank (c : Nat) : Nat :=
  match c with
  | 0x0B => 10 | 0x05 => 9 | 0x06 => 8 | 0x07 => 7 | 0x09 => 6 | 0x04 => 5 | 0x08 => 4 | 0x01 => 3 | 0x03 => 2 | 0x02 => 1
  | _ => 0

/-- The status that wins of two (R278). -/
def worseStatus (a b : Nat) : Nat := if statusRank a < statusRank b then b else a

/-- A waveform as a completion record codes it (R279). -/
def waveCode : Wave → Nat
  | .nb => 0
  | .bb => 1

/-- FLAGS of a completion record (R279). -/
def recordFlags (b : Burst) (status : Nat) : Nat :=
  (if b.clamped && decide (status ≠ BST.KILLED) then 1 else 0) + (if b.gainStep then 2 else 0) + (if b.erased ≠ 0 then 4 else 0) +
    (if b.multi then 8 else 0) + (if b.pool then 16 else 0)

/-- The 32-byte completion record of a burst (R279). -/
def completionRecord (id : Nat) (b : Burst) (status : Nat) : List Byte :=
  leBytes 2 ((if b.tx then 0x8000 else 0) + waveCode b.wave * 0x2000 + id) ++
  [byteOf b.gen, byteOf status, byteOf (recordFlags b status), byteOf b.place, byteOf b.ch0,
   byteOf (if b.wave = .nb then 0 else b.ch1)] ++
  leBytes 4 b.start ++ leBytes 4 b.sfn ++ leBytes 2 (min b.symbols 0xFFFF) ++ leBytes 2 (min b.erased 0xFFFF) ++
  leBytes 3 b.quality ++ [byteOf (min b.cwFail 255)] ++ leBytes 2 b.qbytes ++ leBytes 2 b.offset ++ leBytes 4 0

/-! Queues (R287–R297). -/

/-- A burst queue by ID. -/
def queue (s : State) (id : Nat) : Queue := Map.get (fun _ => Queue.closed) s.bq.queues id

/-- The state with a queue changed. -/
def setQueue (id : Nat) (q : Queue) (s : State) : State :=
  { s with bq := { s.bq with queues := Map.set (fun _ => Queue.closed) s.bq.queues id q } }

/-- The ring words of a broadband ring of a size code: 4, 8, 16 or 32 KiB (R287). -/
def bbRingWords (code : Nat) : Nat := 128 * 2 ^ code

/-- The broadband rings in the pool for a size code (R287). -/
def bbRingCount (code : Nat) : Nat := 2048 / 2 ^ code

/-- The commons offset of a queue's ring (R287). -/
def ringBase (s : State) (id : Nat) (q : Queue) : Nat :=
  if q.bb then 0x1800000 + q.ring * (4096 * 2 ^ s.bq.ringSize) else 0x1400000 + id * 512

/-- The commons offset of ring word `j` of a queue (R287). -/
def wordAddr (s : State) (id : Nat) (q : Queue) (j : Nat) : Nat := ringBase s id q + j % q.words * 32

/-- The data words a ring holds; one more is reserved for the trailer (R287). -/
def Queue.cap (q : Queue) : Nat := q.words - 1

/-- Whether a queue is FULL (R293). -/
def Queue.full (q : Queue) : Bool := decide (q.wp - q.rl = q.cap)

/-- A word pushed: its 32 bytes go to the commons and its tag to the tag store (R289). -/
def pushWord (id : Nat) (kind : WordKind) (l : List Byte) (s : State) : State :=
  let q := queue s id
  setQueue id { q with wp := q.wp + 1, tags := q.tags ++ [⟨kind, false, l.length⟩] }
    (setBytes (wordAddr s id q q.wp) (padTo 32 l) s)

/-- FLAGS of the trailer (R292). -/
def trailerFlags (q : Queue) : Nat :=
  (if q.early then 1 else 0) + (if q.redecode then 2 else 0) + (if q.corrLost then 4 else 0) + (if q.overrun then 8 else 0)

/-- The 16 bytes of the trailer (R292). -/
def trailerBytes (q : Queue) (status : Nat) : List Byte :=
  [byteOf status, byteOf (trailerFlags q)] ++ leBytes 2 q.qbytes ++ leBytes 2 q.corrFirst ++ leBytes 2 q.corrWords ++
    List.replicate 8 0

/-- A partial DATA word in the packing register is closed with its bytes (R289, R298). -/
def closePartial (id : Nat) (s : State) : State :=
  let q := queue s id
  if q.packed = [] then s
  else
    let s1 := pushWord id .data q.packed s
    let q1 := queue s1 id
    setQueue id { q1 with qbytes := q1.qbytes + q.packed.length, packed := [] } s1

/-- The trailer pushed into the reserved word (R289, R292). -/
def pushTrailer (id status : Nat) (s : State) : State :=
  let q := queue s id
  let s1 := pushWord id .trailer (trailerBytes q status) s
  setQueue id { queue s1 id with trailer := true, packed := [] } s1

/-- Broadband rings free brought up to date in BQ_RINGS and BQ STATUS. -/
def recountRings (s : State) : State :=
  let total := bbRingCount s.bq.ringSize
  let free := total - s.bq.rings.length
  setB .bq BQ_STATUS.BB_NONE_FREE (decide (free = 0))
    (setF .bq BQ_RINGS.BB_FREE free (setF .bq BQ_RINGS.BB_TOTAL total s))

/-- A free broadband ring; the lowest is taken. DESIGN CHOICE (log 9): the spec names no order. -/
def takeRing (s : State) : Option Nat :=
  (List.range (bbRingCount s.bq.ringSize)).find? (fun r => !s.bq.rings.contains r)

/-- The queue of a receive context opens with its ring (R275, R288). -/
def openQueue (id gen : Nat) (wave : Wave) (ring : Nat) (s : State) : State :=
  let q := { Queue.closed with
    isOpen := true, gen := gen, bb := decide (wave = .bb), ring := ring,
    words := (if wave = .bb then bbRingWords s.bq.ringSize else 16), earlyOn := s.bq.early }
  let s1 := setQueue id q s
  if wave = .bb then recountRings { s1 with bq := { s1.bq with rings := ring :: s1.bq.rings } } else s1

/-- A queue closes: its broadband ring returns to the pool and the context becomes FREE (R294). -/
def closeQueue (id : Nat) (s : State) : State :=
  let q := queue s id
  let s1 := setQueue id Queue.closed s
  let s2 := if q.bb then recountRings { s1 with bq := { s1.bq with rings := s1.bq.rings.erase q.ring } } else s1
  freeCtx id s2

/-- A queue closes once its completion has latched and RL = WP (R294). -/
def closeIfReleased (id : Nat) (s : State) : State :=
  let q := queue s id
  if q.isOpen && q.trailer && decide (q.rl = q.wp) && decide ((burst s id).st = .rxDone) then closeQueue id s else s

/-! Completion (R277). -/

/-- The counts and the record of a completion: the cluster's counter, and for a clamped transmit burst that was not killed the port's
LPT_CLAMP_CNT and LEVEL_CLAMPED (R97, R277, R279). -/
def reportCompletion (id : Nat) (b : Burst) (status : Nat) (s : State) : State :=
  let s1 := emit (.record (completionRecord id b status)) s
  let s2 := count (engPage b.cluster) (if b.tx then ENG_BURST_TX_CNT.COUNT else ENG_BURST_RX_CNT.COUNT) s1
  if b.tx && b.clamped && decide (status ≠ BST.KILLED) then
    raise (lptPage b.place) LPT_INT.LEVEL_CLAMPED (count (lptPage b.place) LPT_CLAMP_CNT.COUNT s2)
  else s2

/-- A receive burst's completion latches: a partial word is closed, the trailer is pushed unless an overrun pushed it, and the context is
RX_DONE until the queue is released (R275, R277, R289). -/
def completeRx (id status : Nat) (s : State) : State :=
  let s1 := if (queue s id).trailer then s else pushTrailer id status (closePartial id s)
  let b := { burst s1 id with status := status, qbytes := (queue s1 id).qbytes }
  let s2 := moveCtx id { b with st := .rxDone } s1
  reportCompletion id b status s2

/-- A TX engine that holds no burst any more returns to the pool (R271). -/
def returnTx (c i : Nat) (s : State) : State :=
  if role s c i = ROLE.TX ∧ countBursts s (heldBy c i) = 0 then setRole c i ROLE.GATED s else s

/-- A transmit burst's completion latches and its context becomes FREE (R275, R277). -/
def completeTx (id status : Nat) (s : State) : State :=
  let b := { burst s id with status := status }
  returnTx b.cluster b.engine (reportCompletion id b status (freeCtx id s))

/-- A held burst completes exactly once, with the highest of its statuses (R277, R278); a context that is FREE or RX_DONE has none to come. -/
def completeBurst (id status : Nat) (s : State) : State :=
  let b := burst s id
  let st := worseStatus b.status status
  match b.st with
  | .rxOpen => completeRx id st s
  | .txSet | .txLive => completeTx id st s
  | _ => s

/-- The IDs of the contexts that satisfy a test, in rising order. -/
def burstIds (s : State) (p : Burst → Bool) : List Nat := (s.eng.bursts.filter (fun e => p e.2)).map (·.1)

/-- Every burst that satisfies a test completes with a status. -/
def completeAll (p : Burst → Bool) (status : Nat) (s : State) : State :=
  (burstIds s p).foldl (fun t id => completeBurst id status t) s

end Sys2Proof.Machine
end

