-- ==== Sys2Proof/Machine/PortOps.lean ====
section
/-!
DEFINITION. Sys2Proof/Machine/PortOps.lean: line ports, phase groups, drivers and the kill path (R12, R17, R19, R62, R96, R109,
R472–R475, R479).
-/
namespace Sys2Proof.Machine

/-- Every port number. -/
def allPorts : List Nat := List.range 52

/-- A port beside its page. -/
def port (s : State) (n : Nat) : PortSt := Map.get (fun _ => PortSt.initial) s.ports n

/-- The state with a port changed. -/
def setPort (n : Nat) (x : PortSt) (s : State) : State := { s with ports := Map.set (fun _ => PortSt.initial) s.ports n x }

/-- The phase group of a port (R12). -/
def groupOf (n : Nat) : Nat := if n < 48 then n / 3 else n - 32

/-- The ports of a phase group (R12). -/
def groupPorts (g : Nat) : List Nat := if g < 16 then [3 * g, 3 * g + 1, 3 * g + 2] else [32 + g]

/-- The ports declared with a declaration in effect (R61, R63). -/
def declaredPorts (s : State) : List Nat := allPorts.filter (fun n => (port s n).declared)

/-- Whether a port's waveform is enabled by the declaration in effect. -/
def waveEn (p : PortSt) : Wave → Bool
  | .nb => p.nbEn
  | .bb => p.bbEn

/-- Whether a port enters the reception of a waveform: declared, chain on and waveform enabled (R106, R269). -/
def receives (s : State) (w : Wave) (n : Nat) : Bool :=
  (port s n).declared && isSet s (lptPage n) LPT_STATUS.RX_ON && waveEn (port s n) w

/-- Whether a port's driver is enabled (STATUS.DRV_EN). -/
def driverOn (s : State) (n : Nat) : Bool := isSet s (lptPage n) LPT_STATUS.DRV_EN

/-- The number of drivers enabled, as the Hedgehog counts them (R17). -/
def driversOn (s : State) : Nat := (allPorts.filter (driverOn s)).length

/-- STATUS.AGC_FROZEN of a port: held while its own samples are blanked or another port of its group has its driver enabled (R103). -/
def refreshFreeze (n : Nat) (s : State) : State :=
  setB (lptPage n) LPT_STATUS.AGC_FROZEN
    ((port s n).blanked || (groupPorts (groupOf n)).any (fun m => decide (m ≠ n) && driverOn s m)) s

/-- The holds of every port of a group brought up to date (R103). -/
def refreshGroup (g : Nat) (s : State) : State := (groupPorts g).foldl (fun t n => refreshFreeze n t) s

/-- The occupations of a port end with the present slot when its driver is disabled. -/
def cutOccs (n : Nat) (s : State) : State :=
  let e := slotTime s + 204800
  { s with bcn := { s.bcn with occs := s.bcn.occs.map (fun o =>
      if o.port = n then { o with hi := min o.hi (max o.lo e) } else o) } }

/-- A driver is disabled and its terminals go to high impedance (R96); blanking lasts until the settling interval has passed (R11). -/
def driverOff (n : Nat) (s : State) : State :=
  cutOccs n (refreshGroup (groupOf n) (setB (lptPage n) LPT_STATUS.CLAMPING false (setB (lptPage n) LPT_STATUS.DRV_EN false s)))

/-- A driver is enabled and the port's receive samples are blanked from then on (R96). -/
def driverEnable (n : Nat) (s : State) : State :=
  refreshGroup (groupOf n)
    (setB (lptPage n) LPT_STATUS.DRV_EN true (setPort n { port s n with blanked := true } s))

/-- The live transmit bursts of a port. -/
def liveOn (n : Nat) (b : Burst) : Bool := decide (b.st = .txLive) && decide (b.place = n)

/-- The transmit bursts taken for a port whose enable has not been requested. -/
def setOn (n : Nat) (b : Burst) : Bool := decide (b.st = .txSet) && decide (b.place = n)

/-- A port's driver is disabled and its burst on the line completes with a status. -/
def stopPort (n status : Nat) (s : State) : State := completeAll (liveOn n) status (driverOff n s)

/-- Transmit bursts that satisfy a test complete with a status; a port left without a burst on the line has its driver disabled (R96,
R277). -/
def endTx (p : Burst → Bool) (status : Nat) (s : State) : State :=
  let ids := burstIds s (fun b => b.tx && b.st.isOpen && p b)
  let ports := (ids.map (fun id => (burst s id).place)).eraseDups
  let s1 := ids.foldl (fun t id => completeBurst id status t) s
  ports.foldl (fun t n => if countBursts t (liveOn n) = 0 ∧ driverOn t n then driverOff n t else t) s1

/-! Safety (R472–R479). -/

/-- Bits of SAF_KILL.CAUSE (spec/24_functional_safety.md). -/
def KILL.BAND_EDGE : Nat := 0
/-- LEVEL. -/
def KILL.LEVEL : Nat := 1
/-- STUCK. -/
def KILL.STUCK : Nat := 2
/-- TAP. -/
def KILL.TAP : Nat := 3
/-- SELF. -/
def KILL.SELF : Nat := 4
/-- KILLN. -/
def KILL.KILLN : Nat := 5
/-- RESET. -/
def KILL.RESET : Nat := 6
/-- TEMP. -/
def KILL.TEMP : Nat := 7
/-- MODE. -/
def KILL.MODE : Nat := 8
/-- SUPPLY. -/
def KILL.SUPPLY : Nat := 9
/-- TEST. -/
def KILL.TEST : Nat := 10

/-- A report to the safety diagnostics: SAF_DIAG_LAST with the row of R479 and the source page's instance, the count and DIAG. -/
def diagReport (row : Nat) (p : Page) (s : State) : State :=
  raise .saf SAF_INT.DIAG (count .saf SAF_DIAG_CNT.COUNT
    (setF .saf SAF_DIAG_LAST.INST (pageInstance p) (setF .saf SAF_DIAG_LAST.CLASS row s)))

/-- The causes of the kill in force (SAF_KILL.CAUSE). -/
def killCauses (s : State) : Nat := getF s .saf SAF_KILL.CAUSE

/-- Whether a kill is in force (R474). -/
def killed (s : State) : Bool := decide (killCauses s ≠ 0)

/-- Every driver off, and every transmit burst on the line completes KILLED (R19, R23). -/
def allDriversOff (s : State) : State :=
  completeAll (fun b => decide (b.st = .txLive)) BST.KILLED (allPorts.foldl (fun t n => if driverOn t n then driverOff n t else t) s)

/-- A kill decision with a cause (R19, R474, R481): the causes add; a kill that begins is counted and raised; every driver goes off. The
port of the first port-specific cause is shown. -/
def kill (cause : Nat) (src : Option Nat) (s : State) : State :=
  let began := !killed s
  let s1 := setF .saf SAF_KILL.CAUSE (killCauses s ||| 2 ^ cause) s
  let s2 := match src with
    | some n => if getF s .saf SAF_KILL.PORT = 0x3F then setF .saf SAF_KILL.PORT n s1 else s1
    | none => s1
  let s3 := setB .saf SAF_STATUS.KILL true s2
  let s4 := if began then raise .saf SAF_INT.KILL (count .saf SAF_KILL_CNT.COUNT s3) else s3
  allDriversOff s4

/-- The causes that a mask names end; when the last ends, the kill ends and KILL_ENDED is raised (R474). -/
def endCauses (mask : Nat) (s : State) : State :=
  let left := killCauses s - (killCauses s &&& mask)
  let s1 := setF .saf SAF_KILL.CAUSE left s
  if killed s && decide (left = 0) then
    raise .saf SAF_INT.KILL_ENDED (setB .saf SAF_STATUS.KILL false (setF .saf SAF_KILL.PORT 0x3F s1))
  else s1

/-- One cause ends (R474). -/
def endCause (cause : Nat) (s : State) : State := endCauses (2 ^ cause) s

/-- The bank of twelve LV ports (LA–LD) of a port, whose coupler SI sensor k watches (R473). -/
def siBank (n : Nat) : Option Nat := if n < 48 then some (n / 12) else none

/-- Whether a port trip is in force on a port (R473). -/
def tripped (s : State) (n : Nat) : Bool :=
  match siBank n with
  | none => false
  | some k => (getF s .saf SAF_TRIP.TEMP).testBit k || (getF s .saf SAF_TRIP.FAULT).testBit k

/-- An enable is refused (R17, R109): TX_REFUSED on the port's page, and for a seventeenth enable an event record. -/
def refuseEnable (n : Nat) (seventeenth : Bool) (s : State) : State :=
  let s1 := raise (lptPage n) LPT_INT.TX_REFUSED s
  if seventeenth then logPage (lptPage n) LPT_INT.TX_REFUSED [] s1 else s1

end Sys2Proof.Machine
end

