-- ==== Sys2Proof/Machine/Queue.lean ====
section
/-!
DEFINITION. Sys2Proof/Machine/Queue.lean: burst queues: narrow writes, the frame core's operations, early output and the BQ page
(spec/14_burst_queues.md).
-/
namespace Sys2Proof.Machine

/-- An answer to a queue operation. -/
def answer (r : QResult) (tag : Nat) (l : List Byte) (s : State) : State := emit (.queue r tag l) s

/-- Whether ID and GEN name an open or held queue (R294). -/
def named (s : State) (id : BurstId) (gen : BitVec 8) : Bool :=
  (queue s id.val).isOpen && decide ((queue s id.val).gen = gen.toNat)

/-- The code of a word's kind (R290). -/
def WordKind.code : WordKind → Nat
  | .data => 0 | .head => 1 | .trailer => 2

/-- The 32-bit tag of a ring word (R290). -/
def tagWord (id gen : Nat) (t : QTag) : Nat :=
  t.kind.code * 2 ^ 30 + (if t.corr then 2 ^ 29 else 0) + id * 2 ^ 16 + gen * 2 ^ 8 + t.valid

/-- The tag returned with EMPTY: KIND 0b11 (R290). -/
def emptyTag (id gen : Nat) : Nat := 3 * 2 ^ 30 + id * 2 ^ 16 + gen * 2 ^ 8

/-- The tag of word `j` of a queue. -/
def Queue.tagAt (q : Queue) (j : Nat) : QTag := q.tags.getD j ⟨.data, false, 0⟩

/-- The first refused push: the burst ends OVERRUN, the bytes in the packing register are dropped and the trailer goes into the
reserved word (R296). -/
def overrun (id : Nat) (s : State) : State :=
  let q := queue s id
  let s1 := setQueue id { q with overrun := true, packed := [] } s
  completeBurst id BST.OVERRUN (raise .bq BQ_INT.OVERRUN (count .bq BQ_OVERRUN_CNT.COUNT s1))

/-- Eight narrow writes fill a word (R289). -/
def closesWord (q : Queue) (last : Bool) : Bool := decide (32 ≤ q.packed.length) || last

/-- A narrow write by an engine into a queue's packing register (R291); refused while the queue is FULL (R296). -/
def narrowWrite (id : Nat) (data : List Byte) (last : Bool) (s : State) : State :=
  let q := queue s id
  if !q.isOpen || q.trailer || !decide ((burst s id).st = .rxOpen) then s
  else if q.full then overrun id s
  else
    let s1 := setQueue id { q with packed := q.packed ++ data.take 4 } s
    if closesWord (queue s1 id) last then closePartial id s1 else s1

/-- QUEUE_NARROW_WRITE (R291, R296). -/
def execQueueNarrowWrite (id : BurstId) (data : List Byte) (last : Bool) (s : State) : Host.Outcome State Fault Refusal :=
  .next (narrowWrite id.val data last s)

/-- What a POP that meets an error reports: a data error under R311 on the bank of the ring, a tag parity error in ERR_CNT of the BQ
page (R294). -/
def popReport (a : Nat) (err : PopErr) (s : State) : State :=
  match err with
  | .sound => s
  | .tag => countErr .bq s
  | .data =>
    let p : Page := .memb (bankOf a)
    let s1 := setF p MEMB_LAST_ERR.BIT 0 (setF p MEMB_LAST_ERR.WORD (a % 0x40000 / 8) (setB p MEMB_LAST_ERR.UNCORR true s))
    diagReport 6 p (raise p MEMB_INT.UE (count p MEMB_UE_CNT.COUNT s1))

/-- POP: word RP and its tag, then RP moves on; EMPTY at depth 0; FAULT on an error, with no data (R294). -/
def pop (id : BurstId) (gen : BitVec 8) (err : PopErr) (s : State) : State :=
  let q := queue s id.val
  if !named s id gen then answer .closed 0 [] s
  else if q.rp = q.wp then answer .empty (emptyTag id.val q.gen) [] s
  else
    let t := q.tagAt q.rp
    let a := wordAddr s id.val q q.rp
    let s1 := setQueue id.val { q with rp := q.rp + 1 } s
    match err with
    | .sound => answer .ok (tagWord id.val q.gen t) (bytesAt s a 32) s1
    | .data => answer .fault (tagWord id.val q.gen t) [] (popReport a .data s1)
    | .tag => answer .fault 0 [] (popReport a .tag s1)

/-- POP (R294). -/
def execPop (id : BurstId) (gen : BitVec 8) (err : PopErr) (s : State) : Host.Outcome State Fault Refusal :=
  .next (pop id gen err s)

/-- MARK: MK becomes RP, and the mark is valid (R294, R295). -/
def execMark (id : BurstId) (gen : BitVec 8) (s : State) : Host.Outcome State Fault Refusal :=
  let q := queue s id.val
  .next (if named s id gen then
    answer .ok 0 [] (setQueue id.val { q with mark := q.rp, markValid := true, markLost := false } s)
  else answer .closed 0 [] s)

/-- REWIND: RP becomes MK, or fails with NO_MARK or MARK-LOST (R294, R295). -/
def execRewind (id : BurstId) (gen : BitVec 8) (s : State) : Host.Outcome State Fault Refusal :=
  let q := queue s id.val
  .next (if !named s id gen then answer .closed 0 [] s
  else if q.markLost then
    answer .markLost 0 [] (raise .bq BQ_INT.REWIND_FAIL (count .bq BQ_REWIND_FAIL_CNT.COUNT s))
  else if q.markValid then answer .ok 0 [] (setQueue id.val { q with rp := q.mark } s)
  else answer .noMark 0 [] s)

/-- RELEASE n: RL becomes n and RP at least n; past a valid mark the mark is lost; the queue closes once the trailer is released
(R294, R295). -/
def release (id : BurstId) (gen : BitVec 8) (n : Nat) (s : State) : State :=
  let q := queue s id.val
  if !named s id gen then answer .closed 0 [] s
  else if q.rl ≤ n ∧ n ≤ q.wp then
    let lost := q.markValid && decide (q.mark < n)
    let q1 := { q with rl := n, rp := max q.rp n, markValid := q.markValid && !lost, markLost := q.markLost || lost }
    answer .ok 0 [] (closeIfReleased id.val (setQueue id.val q1 s))
  else answer .range 0 [] s

/-- RELEASE (R294). -/
def execQueueRelease (id : BurstId) (gen : BitVec 8) (n : Nat) (s : State) : Host.Outcome State Fault Refusal :=
  .next (release id gen n s)

/-- The payload bytes of DATA words, 32 to a word, pushed in order. -/
def pushData (id : Nat) : Nat → List Byte → State → State
  | 0, _, s => s
  | fuel + 1, l, s =>
    match l with
    | [] => s
    | _ =>
      let s1 := pushWord id .data (l.take 32) s
      pushData id fuel (l.drop 32) (setQueue id { queue s1 id with qbytes := (queue s1 id).qbytes + (l.take 32).length } s1)

/-- The repetitions that REP of a narrowband header names: 1, 4 or 16 (R120). -/
def headerReps (h : List Byte) : Nat :=
  match (beAt h 0 1) % 4 with
  | 0 => 1
  | 1 => 4
  | _ => 16

/-- The early decode of the first payload copy: its DATA words are pushed and FLAGS.EARLY will be set (R297). -/
def execNbEarlyDecode (id : BurstId) (payload : List Byte) (s : State) : Host.Outcome State Fault Refusal :=
  let q := queue s id.val
  let b := burst s id.val
  .next (if q.isOpen && q.earlyOn && !q.early && !q.trailer && decide (b.st = .rxOpen) && decide (b.wave = .nb) && decide (q.wp = 1)
      && decide (4 ≤ headerReps b.header) && !payload.isEmpty then
    pushData id.val 8 payload (setQueue id.val { q with early := true } s)
  else s)

/-- The combined content of DATA words compared with the early content: a differing word is rewritten in place with CORR, unless it is
released (R297). `j` is the word's count. -/
def rewriteWords (id : Nat) : Nat → Nat → List Byte → State → State
  | 0, _, _, s => s
  | fuel + 1, j, l, s =>
    match l with
    | [] => s
    | _ =>
      let q := queue s id
      let t := q.tagAt j
      let a := wordAddr s id q j
      let w := padTo 32 (l.take 32)
      let s1 :=
        if j < q.wp ∧ t.kind = .data ∧ bytesAt s a 32 ≠ w then
          if j < q.rl then setQueue id { q with corrLost := true } s
          else setQueue id { q with
              redecode := true, corrFirst := (if q.corrWords = 0 then j else q.corrFirst), corrWords := q.corrWords + 1,
              tags := q.tags.set j { t with corr := true } } (setBytes a w s)
        else s
      rewriteWords id fuel (j + 1) (l.drop 32) s1

/-- The combined decode of a burst with early output, before its trailer (R297); a burst with rewritten words is counted. -/
def combinedDecode (id : Nat) (payload : List Byte) (s : State) : State :=
  if (queue s id).early then
    let s1 := rewriteWords id 8 1 payload s
    if (queue s1 id).redecode then count .bq BQ_REDECODE_CNT.COUNT s1 else s1
  else s

/-! The BQ page (R299–R301). -/

/-- CTRL.BLK_RESET of BQ: the counters and BQ_SEL return to reset; BQ_CFG and every queue are kept (R299). -/
def execBqBlkReset (s : State) : Host.Outcome State Fault Refusal :=
  .next (blkReset .bq [0x108, 0x118, 0x11C, 0x120, 0x124] s)

/-- A write to BQ_CFG: a value that differs from the one in effect waits for its boundary with CFG_PENDING set
(spec/14_burst_queues.md, BQ_CFG). -/
def bqCfgPending (s : State) : State :=
  setB .bq BQ_STATUS.CFG_PENDING
    (decide (isSet s .bq BQ_CFG.NB_EARLY ≠ s.bq.early) || decide (getF s .bq BQ_CFG.BB_RING ≠ s.bq.ringSize)) s

/-- The superframe boundary for BQ_CFG: NB_EARLY takes effect; BB_RING does when no broadband ring is allocated. -/
def bqBoundary (s : State) : State :=
  let early := isSet s .bq BQ_CFG.NB_EARLY
  let size := if s.bq.rings.isEmpty then getF s .bq BQ_CFG.BB_RING else s.bq.ringSize
  bqCfgPending (recountRings { s with bq := { s.bq with early := early, ringSize := size } })

/-- A write to BQ_SEL latches a copy of the selected queue (R300). -/
def execBqSelWrite (value : Word) (s : State) : Host.Outcome State Fault Refusal :=
  let id := getBits value 12 0
  let q := queue s id
  let s1 := setF .bq BQ_SEL.ID id s
  let s2 := setB .bq BQ_Q_STATE.OPEN q.isOpen (setB .bq BQ_Q_STATE.BB q.bb (setB .bq BQ_Q_STATE.MARK_VALID q.markValid s1))
  let s3 := setB .bq BQ_Q_STATE.MARK_LOST q.markLost (setB .bq BQ_Q_STATE.OVERRUN q.overrun (setB .bq BQ_Q_STATE.TRAILER q.trailer s2))
  let s4 := setB .bq BQ_Q_STATE.REDECODE q.redecode (setF .bq BQ_Q_STATE.GEN q.gen (setF .bq BQ_Q_STATE.CAP q.cap s3))
  let s5 := setF .bq BQ_Q_STATE.PACKED (ceilDiv q.packed.length 4) s4
  .next (setF .bq BQ_Q_RD.LOWER q.mark (setF .bq BQ_Q_RD.UPPER q.rp
    (setF .bq BQ_Q_WR.LOWER q.rl (setF .bq BQ_Q_WR.UPPER q.wp s5))))

/-- Whether the arguments of a BQ command name an open or held queue (R301). -/
def argNamed (s : State) (o : Outstanding) : Bool :=
  (queue s (getBits o.a0 12 0)).isOpen && decide ((queue s (getBits o.a0 12 0)).gen = getBits o.a1 7 0)

/-- FORCE_RELEASE (R301): NOT_HELD, STILL_OPEN while the context is RX_OPEN, else the queue closes and the context is FREE. -/
def runForceRelease (o : Outstanding) (s : State) : State :=
  let id := getBits o.a0 12 0
  if !argNamed s o then done .bq 0x80 s
  else if (burst s id).st = .rxOpen then done .bq 0x81 s
  else done .bq CODE.OK (raise .bq BQ_INT.FORCED (closeQueue id s))

/-- FORCE_RELEASE, BQ command 0x0001 (R301). -/
def execForceRelease (src : CmdSrc) (s : State) : Host.Outcome State Fault Refusal :=
  .next (issue .bq 0x0001 src runForceRelease s)

/-- READ_WORDS: its arguments are checked at issue (R301); it stays outstanding until its copy is made. -/
def runReadWords (o : Outstanding) (s : State) : State :=
  let q := queue s (getBits o.a0 12 0)
  if !argNamed s o then done .bq 0x80 s
  else if o.a2.toNat % 4 ≠ 0 ∨ !inHostArea o.a2.toNat (4 + 36 * (q.wp - q.rl)) then done .bq CODE.BAD_ARG s
  else s

/-- READ_WORDS, BQ command 0x0002 (R301). -/
def execReadWords (src : CmdSrc) (s : State) : Host.Outcome State Fault Refusal :=
  .next (issue .bq 0x0002 src runReadWords s)

/-- The copy READ_WORDS makes: the number of unreleased words, then each word's tag and data (R301). -/
def readWordsOutput (s : State) (id : Nat) : List Byte :=
  let q := queue s id
  leBytes 4 (q.wp - q.rl) ++ (List.range (q.wp - q.rl)).flatMap (fun i =>
    leBytes 4 (tagWord id q.gen (q.tagAt (q.rl + i))) ++ bytesAt s (wordAddr s id q (q.rl + i)) 32)

/-- The completion of READ_WORDS: the words are copied to the commons and no pointer moves; NOT_HELD when the queue has closed meanwhile
(R301). -/
def finishReadWords (o : Outstanding) (s : State) : State :=
  let out := readWordsOutput s (getBits o.a0 12 0)
  if !argNamed s o then done .bq 0x80 s
  else if !inHostArea o.a2.toNat out.length then done .bq CODE.BAD_ARG s
  else done .bq CODE.OK (busWrite o.a2.toNat out s)

end Sys2Proof.Machine
end

