-- ==== Sys2Proof/Machine/Engine.lean ====
section
/-!
DEFINITION. Sys2Proof/Machine/Engine.lean: engine roles, waking and gating, receive and transmit allocation, cluster faults, reloads and
the ENG page (spec/13_tone_engines.md).
-/
namespace Sys2Proof.Machine

/-! Duties and roles (R268, R269). -/

/-- Whether a home cluster serves an LV feeder. -/
def isLvCluster (c : Nat) : Bool := decide (c < 16)

/-- Whether a cluster is a home cluster. -/
def isHome (c : Nat) : Bool := decide (c < 20)

/-- The pool clusters, lowest first (R268). -/
def poolClusters : List Nat := (List.range 12).map (20 + ·)

/-- The engine of a home cluster that is NB_FE (R269). -/
def nbFe (c : Nat) : Nat := if isLvCluster c then 3 else 1

/-- The engines of a cluster that may decode bursts (R269): 4–15 of an LV home cluster, 2–15 of an MV one, all of a pool cluster. -/
def decodeEngines (c : Nat) : List Nat :=
  if c < 16 then (List.range 12).map (4 + ·) else if c < 20 then (List.range 14).map (2 + ·) else List.range 16

/-- The receive bursts an engine of a role can hold (R269). -/
def burstLimit : Wave → Nat
  | .nb => 16
  | .bb => 4

/-- The receive role of a waveform. -/
def rxRole : Wave → Nat
  | .nb => ROLE.NB_RX
  | .bb => ROLE.BB_RX

/-- Whether the module is in OUTAGE. -/
def inOutage (s : State) : Bool := decide (s.pwr.state = .outage)

/-- Whether a port is in the outage port set (R69). -/
def outagePort (s : State) (n : Nat) : Bool :=
  if n < 32 then (getF s .pwr PWR_OUTAGE_PORTS_LO.PORTS).testBit n
  else (getF s .pwr PWR_OUTAGE_PORTS_HI.PORTS).testBit (n - 32)

/-- Whether a cluster takes new work: it is in service and is not resetting, reloading or draining (R282, R283, R286). -/
def takesWork (s : State) (c : Nat) : Bool :=
  match (cluster s c).phase with
  | .running | .reloadAsked => true
  | _ => false

/-- The number of bursts an engine holds. -/
def engineLoad (s : State) (c i : Nat) : Nat := countBursts s (heldBy c i)

/-- Whether an engine is awake as a receive engine of a waveform with room for one more burst. -/
def rxRoom (s : State) (w : Wave) (c i : Nat) : Bool :=
  decide (role s c i = rxRole w) && decide (engineLoad s c i < burstLimit w)

/-- Whether an engine is GATED. -/
def gated (s : State) (c i : Nat) : Bool := decide (role s c i = ROLE.GATED)

/-- The engines awake in the whole module (R273). -/
def awakeEngines (s : State) : Nat :=
  ((List.range 32).map (fun c => ((List.range 16).filter (fun i => (getF s (engPage c) ENG_AWAKE.AWAKE).testBit i)).length)).sum

/-- Every engine of a cluster gated. -/
def gateCluster (c : Nat) (s : State) : State :=
  (List.range 16).foldl (fun t i => if role t c i = ROLE.FAULTED then t else setRole c i ROLE.GATED t) s

/-! Front ends, standing engines and OUTAGE (R269, R272, R273). -/

/-- Whether a waveform is valid, so that its standing engines are awake (R272). -/
def waveValid (s : State) : Wave → Bool
  | .nb => isSet s .nbw NBW_STATUS.BAND_VALID
  | .bb => isSet s .bbw BBW_STATUS.MASK_VALID

/-- Whether the home cluster keeps a standing receive engine of a waveform (R272). -/
def standing (s : State) (c : Nat) (w : Wave) : Bool :=
  waveValid s w && isSet s (engPage c) (match w with | .nb => ENG_CFG.STANDBY_NB | .bb => ENG_CFG.STANDBY_BB)

/-- The engines of a home cluster that are awake as receive engines of a waveform. -/
def rxEngines (s : State) (c : Nat) (w : Wave) : List Nat := (decodeEngines c).filter (fun i => decide (role s c i = rxRole w))

/-- The lowest gated decode engine of a cluster. -/
def lowestGated (s : State) (c : Nat) : Option Nat := (decodeEngines c).find? (gated s c)

/-- The standing receive engine of a waveform woken when it should be awake and none is. The lowest gated decode engine is taken: DESIGN
CHOICE (log 9). -/
def wakeStanding (c : Nat) (w : Wave) (s : State) : State :=
  if standing s c w && (rxEngines s c w).isEmpty then
    match lowestGated s c with
    | some i => setRole c i (rxRole w) s
    | none => s
  else s

/-- The front ends of a home cluster in RUN (R269). -/
def setFronts (c : Nat) (s : State) : State :=
  let s1 := (List.range (nbFe c)).foldl (fun t i =>
    let n := (groupPorts c).getD i 0
    setRole c i (if receives t .bb n then ROLE.BB_FE else ROLE.GATED) t) s
  setRole c (nbFe c) (if (groupPorts c).any (receives s1 .nb) then ROLE.NB_FE else ROLE.GATED) s1

/-- An engine gated unless it holds a burst (R78). -/
def gateIdle (c i : Nat) (s : State) : State :=
  if engineLoad s c i = 0 then setRole c i ROLE.GATED s else s

/-- The engines of a home cluster in OUTAGE: one OUT_NB where the group has an outage port, every other engine gated after its last
burst (R273, R284). The engine of NB_FE is taken: DESIGN CHOICE (log 9). -/
def setOutFronts (c : Nat) (s : State) : State :=
  let s1 := (List.range 16).foldl (fun t i => if i = nbFe c then t else gateIdle c i t) s
  setRole c (nbFe c) (if (groupPorts c).any (outagePort s1) then ROLE.OUT_NB else ROLE.GATED) s1

/-- The continuous and standing engines of a home cluster brought up to date. -/
def refreshCluster (c : Nat) (s : State) : State :=
  if !isHome c || !takesWork s c then s
  else if inOutage s then setOutFronts c s
  else wakeStanding c .bb (wakeStanding c .nb (setFronts c s))

/-- The continuous and standing engines of every home cluster brought up to date. -/
def refreshEngines (s : State) : State := (List.range 20).foldl (fun t c => refreshCluster c t) s

/-! Receive allocation (R270, R274–R276, R288). -/

/-- The lowest pool engine that satisfies a test, clusters in the order given, out of service clusters left out. -/
def findPool (s : State) (cs : List Nat) (p : Nat → Nat → Bool) : Option (Nat × Nat) :=
  cs.findSome? (fun c => if takesWork s c then ((List.range 16).find? (p c)).map (fun i => (c, i)) else none)

/-- The pool engine that takes an overflow burst (R270, R271): an awake receive engine with room, else the lowest-numbered gated engine of
the lowest-numbered pool cluster. -/
def poolRx (s : State) (w : Wave) : Option (Nat × Nat) :=
  match findPool s poolClusters (rxRoom s w) with
  | some e => some e
  | none => findPool s poolClusters (gated s)

/-- The home engine that takes a receive burst in RUN: an awake one with room, else a gated one. -/
def homeRx (s : State) (w : Wave) (c : Nat) : Option (Nat × Nat) :=
  if !takesWork s c then none
  else match (decodeEngines c).find? (rxRoom s w c) with
    | some i => some (c, i)
    | none => (lowestGated s c).map (fun i => (c, i))

/-- The engine that takes a narrowband burst in OUTAGE: an OUT_NB engine with room, else a second one while fewer than 32 engines are
awake (R273). -/
def outRx (s : State) (c : Nat) : Option (Nat × Nat) :=
  let first := nbFe c
  let second := nbFe c + 1
  let room (i : Nat) : Bool := decide (role s c i = ROLE.OUT_NB) && decide (engineLoad s c i < 16)
  if !takesWork s c then none
  else if room first then some (c, first)
  else if room second then some (c, second)
  else if role s c first = ROLE.OUT_NB ∧ gated s c second ∧ awakeEngines s < 32 then some (c, second)
  else none

/-- Where a receive burst of a group is decoded: the engine, and whether it is in the pool. -/
def placeRx (s : State) (g : Nat) (w : Wave) : Option (Nat × Nat × Bool) :=
  if inOutage s then (if w = .nb then (outRx s g).map (fun e => (e.1, e.2, false)) else none)
  else match homeRx s w g with
    | some e => some (e.1, e.2, false)
    | none => (poolRx s w).map (fun e => (e.1, e.2, true))

/-- A receive allocation fails: the detection is dropped, counted and raised, and counted for the superframe's log record (R276). -/
def dropDetect (g : Nat) (s : State) : State :=
  let s1 := raise (.eng 0) ENG_INT.NO_CONTEXT (count (.eng 0) ENG_NOCTX_RX_CNT.COUNT s)
  let s2 := raise (engPage g) ENG_INT.DETECT_DROPPED (count (engPage g) ENG_DETECT_DROP_CNT.COUNT s1)
  { s2 with eng := { s2.eng with drops := s2.eng.drops + 1 } }

/-- The engine that takes a burst holds its role (R272). -/
def wakeRx (c i : Nat) (w : Wave) (s : State) : State :=
  if role s c i ≠ ROLE.GATED then s
  else setRole c i (if inOutage s then ROLE.OUT_NB else rxRole w) s

/-- The broadband ring a receive burst takes; a narrowband burst uses the ring of its ID (R287, R288). -/
def ringFor (s : State) (w : Wave) (id : Nat) : Option Nat :=
  match w with
  | .nb => some id
  | .bb => takeRing s

/-- A receive burst of a group detected: its engine, ID and ring are taken, its context opens RX_OPEN with its queue, or the detection is
dropped (R270, R274–R276, R288). -/
def openRx (g : Nat) (b : Burst) (s : State) : State :=
  match placeRx s g b.wave with
  | none => dropDetect g s
  | some (c, i, pool) =>
    match allocRx s with
    | none => dropDetect g s
    | some (id, e) =>
      match ringFor s b.wave id with
      | none => dropDetect g (raise .bq BQ_INT.NO_RING (count .bq BQ_NORING_CNT.COUNT s))
      | some r =>
        let s1 := if pool then raise (engPage g) ENG_INT.OVERFLOW (count (engPage g) ENG_OVERFLOW_CNT.COUNT s) else s
        let s2 := wakeRx c i b.wave s1
        let s3 := openCtx id e { b with st := .rxOpen, tx := false, place := g, cluster := c, engine := i, pool := pool } s2
        openQueue id (burst s3 id).gen b.wave r s3

/-! Transmit allocation (R271, R274–R276). -/

/-- The TX engine that serves a port, when one does. -/
def txEngineOf (s : State) (n : Nat) : Option (Nat × Nat) :=
  (s.eng.bursts.find? (fun e => e.2.tx && e.2.st.isOpen && decide (e.2.place = n))).map (fun e => (e.2.cluster, e.2.engine))

/-- Whether a pool engine is awake for reception and holds no burst. -/
def idleRx (s : State) (c i : Nat) : Bool :=
  (decide (role s c i = ROLE.NB_RX) || decide (role s c i = ROLE.BB_RX)) && decide (engineLoad s c i = 0)

/-- The pool engine that takes the TX role for a port: the one that serves it already, else the lowest-numbered gated engine of the
lowest-numbered pool cluster, else an idle receive engine of the pool (R271). -/
def placeTx (s : State) (n : Nat) : Option (Nat × Nat) :=
  match txEngineOf s n with
  | some e => some e
  | none =>
    match findPool s poolClusters (gated s) with
    | some e => some e
    | none => findPool s poolClusters (idleRx s)

/-- A transmit allocation fails (R276). -/
def failTx (s : State) : State := raise (.eng 0) ENG_INT.NO_CONTEXT (count (.eng 0) ENG_NOCTX_TX_CNT.COUNT s)

/-- The context of a planned transmission, as its TX engine takes it. -/
def txBurst (p : PlanItem) (c i : Nat) : Burst :=
  { Burst.idle with
    st := .txSet, wave := p.wave, tx := true, place := p.port, cluster := c, engine := i, ch0 := p.ch0, ch1 := p.ch1,
    start := p.start, sfn := p.sfn, header := p.header, payload := p.payload, purpose := p.purpose, hops := p.hops, length := p.length }

/-- A planned transmission taken by its TX engine into TX_SET, with the ID taken; none when no engine or no ID is to be had
(R271, R274, R275). -/
def openTx (p : PlanItem) (s : State) : Option State :=
  match placeTx s p.port with
  | none => none
  | some (c, i) =>
    match allocTx (decide (p.purpose = .beacon)) s with
    | none => none
    | some (id, e) => some (openCtx id e (txBurst p c i) (setRole c i ROLE.TX s))

/-- The engine an ENCODE command takes: the lowest-numbered gated engine of the highest-numbered pool cluster (R271). -/
def placeEncode (s : State) : Option (Nat × Nat) := findPool s poolClusters.reverse (gated s)

/-! Waking and gating by the scheduler (R272, R273). -/

/-- ENGINE_WAKE: a gated decode engine of a home cluster, or a second OUT_NB engine in OUTAGE, is woken for a waveform (R272, R273). -/
def execEngineWake (c : Cluster) (i : Fin 16) (wave : Wave) (s : State) : Host.Outcome State Fault Refusal :=
  let k := c.val
  .next (
    if !takesWork s k || !gated s k i.val || !(decodeEngines k).contains i.val then s
    else if inOutage s then
      if isHome k && decide (wave = .nb) && decide (i.val = nbFe k + 1) && decide (role s k (nbFe k) = ROLE.OUT_NB)
          && decide (16 < countBursts s (fun b => heldIn k b && !b.tx)) && decide (awakeEngines s < 32) then
        setRole k i.val ROLE.OUT_NB s
      else s
    else setRole k i.val (rxRole wave) s)

/-- Whether a receive engine is the standing one of its home cluster (R272). -/
def isStanding (s : State) (c i : Nat) (w : Wave) : Bool :=
  isHome c && !inOutage s && standing s c w && decide (role s c i = rxRole w) && decide ((rxEngines s c w).length ≤ 1)

/-- ENGINE_IDLE_GATE: an engine that is neither continuous nor standing and holds no burst is gated after IDLE_HOLD (R272). -/
def execEngineIdleGate (c : Cluster) (i : Fin 16) (s : State) : Host.Outcome State Fault Refusal :=
  let r := role s c.val i.val
  let second := decide (r = ROLE.OUT_NB) && decide (i.val ≠ nbFe c.val)
  .next (
    if engineLoad s c.val i.val = 0 ∧ (r = ROLE.NB_RX ∨ r = ROLE.BB_RX ∨ second = true) ∧
        isStanding s c.val i.val .nb = false ∧ isStanding s c.val i.val .bb = false then
      setRole c.val i.val ROLE.GATED s
    else s)

/-! Faults, resets and reloads (R282, R283, R286). -/

/-- The drivers of the ports whose live bursts a cluster synthesises are disabled. DEDUCED (log 10): the stream they send has stopped. -/
def stopDrivers (c : Nat) (s : State) : State :=
  (burstIds s (fun b => heldIn c b && decide (b.st = .txLive))).foldl (fun t id => driverOff (burst s id).place t) s

/-- Every burst a cluster holds completes with a status. -/
def endBursts (c status : Nat) (s : State) : State := completeAll (heldIn c) status (stopDrivers c s)

/-- The causes of a cluster fault with the codes of FAULT_CAUSE (R282). -/
def causeCode : ClusterCause → Nat
  | .parity => 1 | .scratch => 2 | .ldpc => 3

/-- Every engine of a cluster FAULTED (R282). -/
def faultEngines (c : Nat) (s : State) : State := (List.range 16).foldl (fun t i => setRole c i ROLE.FAULTED t) s

/-- The module time within which a second fault takes a cluster out of service (R282). -/
def faultWindow : Nat := 209715200

/-- A cluster fault at a sample of the present slot (R282). -/
def clusterFault (c : Nat) (cause sample : Nat) (s : State) : State :=
  let p := engPage c
  let now := slotTime s + sample
  let again := match (cluster s c).lastFault with
    | some t => decide (now - t ≤ faultWindow)
    | none => false
  let s1 := complete p CODE.FAULT 0 (endBursts c BST.ENGINE_FAULT s)
  let s2 := countErr p (raise p ENG_INT.CLUSTER_FAULT (setFault p 1 s1))
  let s3 := diagReport 8 p s2
  if again then
    setCluster c ⟨.outOfService, some now⟩ (setF p ENG_STATUS.FAULT_CAUSE 4 (faultEngines c s3))
  else
    setCluster c ⟨.resume true, some now⟩ (setF p ENG_STATUS.FAULT_CAUSE cause (gateCluster c s3))

/-- CLUSTER_FAULT (R282). A cluster out of service has no further fault. -/
def execClusterFault (c : Cluster) (cause : ClusterCause) (sample : Fin 204800) (s : State) :
    Host.Outcome State Fault Refusal :=
  .next (if (cluster s c.val).phase = .outOfService then s else clusterFault c.val (causeCode cause) sample.val s)

/-- The counters of an ENG page, and on ENG 0 those of the context registers (R283). -/
def engCounters (c : Nat) : List Nat :=
  [0x118, 0x11C, 0x120, 0x124, 0x128] ++ (if c = 0 then [0x18C, 0x190] else [])

/-- CTRL.BLK_RESET on ENG c (R283). -/
def engReset (c : Nat) (s : State) : State :=
  let s1 := gateCluster c (endBursts c BST.RESET s)
  let x := cluster s1 c
  let ph := match x.phase with
    | .outOfService => ClusterPhase.outOfService
    | .resume r => .resume r
    | _ => .resume false
  blkReset (engPage c) (engCounters c) (setCluster c { x with phase := ph } s1)

/-- ENG_BLK_RESET (R283). -/
def execEngBlkReset (c : Cluster) (s : State) : Host.Outcome State Fault Refusal := .next (engReset c.val s)

/-- A cluster resumes: STATUS.FAULT and FAULT_CAUSE clear, and UCODE_RELOADED is raised after a reload (R282). -/
def resumeCluster (c : Nat) (reloaded : Bool) (s : State) : State :=
  let p := engPage c
  let s1 := setF p ENG_STATUS.FAULT_CAUSE 0 (setFault p 0 s)
  let s2 := setCluster c { cluster s1 c with phase := .running } s1
  if reloaded then raise p ENG_INT.UCODE_RELOADED s2 else s2

/-- A draining cluster that holds no burst is reloaded: its command completes OK and it resumes at the next boundary (R286). -/
def reloadIfDrained (c : Nat) (s : State) : State :=
  if countBursts s (heldIn c) = 0 then
    complete (engPage c) CODE.OK 0 (setCluster c { cluster s c with phase := .resume true } s)
  else setCluster c { cluster s c with phase := .draining } s

/-- What a superframe boundary does to one cluster. -/
def clusterBoundary (c : Nat) (s : State) : State :=
  match (cluster s c).phase with
  | .running | .outOfService => s
  | .resume r => resumeCluster c r s
  | .reloadAsked | .draining => reloadIfDrained c s

/-- What a superframe boundary does to the engines: clusters resume or reload, and front ends and standing engines follow. -/
def engBoundary (s : State) : State := refreshEngines ((List.range 32).foldl (fun t c => clusterBoundary c t) s)

/-- The record of the receive drops of the superframe that ends, with their count (R276). -/
def logDrops (s : State) : State :=
  if s.eng.drops = 0 then s
  else logPage (.eng 0) ENG_INT.NO_CONTEXT [s.eng.drops] { s with eng := { s.eng with drops := 0 } }

/-- Whether a reload asked for by command is in progress anywhere (R286). -/
def reloading (s : State) : Bool :=
  (List.range 32).any (fun c => decide ((cluster s c).phase = .reloadAsked) || decide ((cluster s c).phase = .draining))

/-- RELOAD_CLUSTER: refused while a reload is in progress or the cluster is out of service; otherwise asked for, its start awaited
(R286). -/
def runReloadCluster (c : Nat) (_o : Outstanding) (s : State) : State :=
  if reloading s || decide ((cluster s c).phase = .outOfService) then done (engPage c) CODE.REFUSED s
  else match (cluster s c).phase with
    | .running => setCluster c { cluster s c with phase := .reloadAsked } s
    | _ => setCluster c { cluster s c with phase := .draining } s

/-- RELOAD_CLUSTER, ENG command 0x0002 (R286). -/
def execReloadCluster (c : Cluster) (src : CmdSrc) (s : State) : Host.Outcome State Fault Refusal :=
  .next (issue (.eng c) 0x0002 src (runReloadCluster c.val) s)

/-- The abort of a RELOAD_CLUSTER whose reload has not begun (R286): ABORTED, and the cluster takes bursts again, at once before the
boundary, else from the next one. -/
def abortReload (c : Nat) (s : State) : State :=
  let ph := match (cluster s c).phase with
    | .draining => ClusterPhase.resume false
    | _ => .running
  done (engPage c) CODE.ABORTED (setCluster c { cluster s c with phase := ph } s)

/-! Aborting a burst, and the context registers (R280, R284, R285). -/

/-- ABORT_BURST on page `p` (R280). -/
def runAbortBurst (p : Page) (o : Outstanding) (s : State) : State :=
  let id := getBits o.a0 12 0
  let b := burst s id
  if b.st = .free ∨ b.gen ≠ getBits o.a1 7 0 then done p 0x80 s
  else match b.st with
    | .rxDone => done p 0x81 s
    | .txLive => done p CODE.OK (completeBurst id BST.ABORTED (driverOff b.place s))
    | _ => done p CODE.OK (completeBurst id BST.ABORTED s)

/-- ABORT_BURST, ENG command 0x0001, on any ENG page (R280, R286). -/
def execAbortBurst (c : Cluster) (src : CmdSrc) (s : State) : Host.Outcome State Fault Refusal :=
  .next (issue (.eng c) 0x0001 src (runAbortBurst (.eng c)) s)

/-- A write to ENG_CTX_SEL latches a copy of the selected context (R285). -/
def execEngCtxSelWrite (value : Word) (s : State) : Host.Outcome State Fault Refusal :=
  let id := getBits value 12 0
  let b := burst s id
  let p : Page := .eng 0
  let s1 := setF p ENG_CTX_STATE.STATE b.st.code (setF p ENG_CTX_SEL.ID id s)
  let s2 := setF p ENG_CTX_STATE.WAVE (waveCode b.wave) (setB p ENG_CTX_STATE.DIR b.tx s1)
  let age := if b.st = .free then 0 else min (slotCount s - b.slot0) 0xFFFF
  .next (setF p ENG_CTX_STATE.AGE age (setF p ENG_CTX_STATE.GEN b.gen s2))

end Sys2Proof.Machine
end

