-- ==== Sys2Proof/Machine/Mem.lean ====
section
/-!
DEFINITION. Sys2Proof/Machine/Mem.lean: the commons window, bank power, error correction, the Badger and column repair
(spec/15_memory_banks.md).
-/
namespace Sys2Proof.Machine

/-! Modes (R84). -/

/-- BOOT_STATUS.MODE. -/
def mode (s : State) : Nat := getF s .boot BOOT_STATUS.MODE

/-- MODE = STARTUP. -/
def MODE.STARTUP : Nat := 1
/-- MODE = SERVICE. -/
def MODE.SERVICE : Nat := 2
/-- MODE = RECOVERY. -/
def MODE.RECOVERY : Nat := 3
/-- MODE = TEST. -/
def MODE.TEST : Nat := 4

/-! Free values. -/

/-- Bytes that the spec leaves open, and the state with the occasion counted. -/
def freeBytes (n : Nat) (s : State) : List Byte × State :=
  ((List.range n).map (Config.freeByte s.frees), { s with frees := s.frees + 1 })

/-- A word that the spec leaves open, and the state with the occasion counted. -/
def freeWord (s : State) : Word × State := (Config.freeWord s.frees, { s with frees := s.frees + 1 })

/-- The output area of a command whose content the spec leaves open. -/
def leaveOpen (a n : Nat) (s : State) : State :=
  let (l, t) := freeBytes n s
  busWrite a l t

/-! Conflict counters (R308). -/

/-- The conflict counters of a master. -/
def conflict (s : State) (m : Nat) : Conflict := Map.get (fun _ => ⟨0, 0⟩) s.mem.conflicts m

/-- The conflict counters of a master with waits and BUSY returns added; frozen in normal service; they stop at 0xFFFF_FFFF. -/
def addConflict (m wait busy : Nat) (s : State) : State :=
  if isSet s .mem MEM_STATUS.ARB_NORMAL then s
  else
    let c := conflict s m
    let d : Conflict := ⟨min (c.wait + wait) 0xFFFFFFFF, min (c.busy + busy) 0xFFFFFFFF⟩
    { s with mem := { s.mem with conflicts := Map.set (fun _ => ⟨0, 0⟩) s.mem.conflicts m d } }

/-! Error correction (R311). -/

/-- The bank word of a commons offset. -/
def wordOf (a : Nat) : Nat := a % 0x40000 / 8

/-- A single-bit error corrected on a read of the word at an offset. -/
def eccSingle (a bit : Nat) (s : State) : State :=
  let p : Page := .memb (bankOf a)
  setF p MEMB_LAST_ERR.BIT bit (setF p MEMB_LAST_ERR.WORD (wordOf a) (setF p MEMB_LAST_ERR.UNCORR 0
    (count p MEMB_CE_CNT.COUNT s)))

/-- An uncorrectable error found on a read of the word at an offset (R311, R479). -/
def eccUncorrectable (a : Nat) (s : State) : State :=
  let p : Page := .memb (bankOf a)
  let s1 := setF p MEMB_LAST_ERR.BIT 0 (setF p MEMB_LAST_ERR.WORD (wordOf a) (setF p MEMB_LAST_ERR.UNCORR 1 s))
  diagReport 6 p (raise p MEMB_INT.UE (count p MEMB_UE_CNT.COUNT s1))

/-! The commons window (R303–R309). -/

/-- A commons access that was not performed is reported on the MEM (global) page (R307). -/
def unperformed (s : State) : State := countErr .mem (raise .mem INT.ACCESS s)

/-- The bytes of a read that was not performed (R305, R307). -/
def allOnes (n : Nat) : List Byte := List.replicate n 0xFF

/-- A read of the window returned bytes. -/
def returnBytes (l : List Byte) (s : State) : State := emit (.window l) s

/-- The commons offset of a window offset (R304). -/
def winAddr (s : State) (off : Nat) : Nat := getF s .mem MEM_WIN.BASE * 0x100000 + off

/-- Whether the bytes of a window access are at most 256 and cross no 256-byte boundary (R305). -/
def winShape (off n : Nat) : Bool := decide (1 ≤ n) && decide (off % 256 + n ≤ 256)

/-- Whether the window may write an area in the present mode (R303). -/
def winWritable (s : State) (a n : Nat) : Bool :=
  decide (mode s = MODE.RECOVERY) || decide (mode s = MODE.TEST) || inHostArea a n

/-- The bank word of an access that a read error names, as a commons offset. -/
def errWord (a k : Nat) : Nat := (a / 8 + k) * 8

/-- The bank words that an access of `n` bytes from `a` reaches. -/
def wordsIn (a n : Nat) : Nat := (a + n - 1) / 8 + 1 - a / 8

/-- Whether a write covers bank word `w` (an offset) only in part, so that the word is read first (R305). -/
def partialWord (a n w : Nat) : Bool := decide (w < a) || decide (a + n < w + 8)

/-- The port B write that collided with an access lands after it (R309); a collision of two reads, or of two writes of the same data,
returns no BUSY. -/
def collide (a : Nat) (isWrite : Bool) (c : Option Collision) (s : State) : State :=
  match c with
  | none => s
  | some x =>
    let w := a / 8 * 8
    let p : Page := .memb (bankOf a)
    let busy (t : State) : State := addConflict x.master.val 0 1 (count p MEMB_BUSY_CNT.COUNT t)
    match x.write with
    | none => if isWrite then busy s else s
    | some v =>
      let l := leBytes 8 v.toNat
      if isWrite && decide (bytesAt s w 8 = l) then s
      else setBytes w l (busy s)

/-- A window read that is performed (R305, R311). A word with an uncorrectable error returns no value that the spec gives. -/
def winRead (a n : Nat) (err : ReadErr) (s : State) : State :=
  let l := busBytes s a n
  let s1 := touchArea a n s
  match err with
  | .clean => returnBytes l s1
  | .single k bit => returnBytes l (if k < wordsIn a n then eccSingle (errWord a k) bit.val s1 else s1)
  | .uncorrectable k =>
    if k < wordsIn a n then
      let (f, s2) := freeBytes n (eccUncorrectable (errWord a k) s1)
      returnBytes ((List.range n).map (fun i =>
        if (a + i) / 8 * 8 = errWord a k then f.getD i 0 else l.getD i 0)) s2
    else returnBytes l s1

/-- The bytes of a write put into place, but for those of one bank word. -/
def writeExcept (w : Nat) : Nat → List Byte → State → State
  | _, [], s => s
  | a, b :: r, s => writeExcept w (a + 1) r (if a / 8 * 8 = w then s else busSet a b s)

/-- A window write that is performed: a partial word is read first; when that read finds an uncorrectable error its word is kept, and the
write is reported as not performed as well (R305, R311). -/
def winWrite (a : Nat) (l : List Byte) (err : ReadErr) (s : State) : State :=
  let n := l.length
  match err with
  | .clean => busWrite a l s
  | .single k bit =>
    let s1 := busWrite a l s
    if k < wordsIn a n ∧ partialWord a n (errWord a k) then eccSingle (errWord a k) bit.val s1 else s1
  | .uncorrectable k =>
    if k < wordsIn a n ∧ partialWord a n (errWord a k) then
      unperformed (eccUncorrectable (errWord a k) (writeExcept (errWord a k) a l (touchArea a n s)))
    else busWrite a l s

/-- A host access through the commons window: performed when its bytes are contiguous, 1–256 long, within a 256-byte block, and, for a
write in STARTUP or SERVICE, inside the host area; `wait` counts the cycles it was pending (R303–R309). -/
def windowAccess (off : Nat) (acc : WinAccess) (err : ReadErr) (c : Option Collision) (wait : Nat) (s : State) : State :=
  let a := winAddr s off
  match acc with
  | .gappedRead n => returnBytes (allOnes n) (unperformed s)
  | .gappedWrite => unperformed s
  | .read n =>
    if winShape off n then collide a false c (winRead a n err (addConflict 17 wait 0 s))
    else returnBytes (allOnes n) (unperformed s)
  | .write l =>
    if winShape off l.length && winWritable s a l.length then collide a true c (winWrite a l err (addConflict 17 wait 0 s))
    else unperformed s

/-- WINDOW_ACCESS (R303–R309, R311). -/
def execWindowAccess (off : BitVec 24) (acc : WinAccess) (err : ReadErr) (c : Option Collision) (wait : Nat) (s : State) :
    Host.Outcome State Fault Refusal :=
  .next (windowAccess off.toNat acc err c wait s)

/-- WINDOW_GRANT_TIMEOUT: in normal service a window access not granted within 10 µs is not performed (R307). -/
def execWindowGrantTimeout (acc : WinAccess) (s : State) : Host.Outcome State Fault Refusal :=
  .next (
    if !isSet s .mem MEM_STATUS.ARB_NORMAL then s
    else match acc with
      | .read n | .gappedRead n => returnBytes (allOnes n) (unperformed s)
      | .write _ | .gappedWrite => unperformed s)

/-! Bank power (R310). -/

/-- Whether the power state of a bank can be changed: banks 64–79 (R310). -/
def powerBank (b : Nat) : Bool := decide (64 ≤ b) && decide (b < 80)

/-- The content of a bank set to zero. -/
def zeroBank (b : Nat) (s : State) : State :=
  { s with mem := { s.mem with bytes := s.mem.bytes.filter (fun e => decide (e.1 / 0x40000 ≠ b)) } }

/-- A bank goes to a power state its register requests: content is lost in OFF, and a bank that leaves OFF is zeroed first (R310). -/
def powerTo (b : Bank) (v : Nat) (s : State) : State :=
  let p : Page := .memb b
  if v = 2 then setBank b.val { bank s b.val with zeroing := false } (zeroBank b.val (setF p MEMB_STATUS.POWER 2 s))
  else if bankPower s b = 2 then
    setBank b.val { bank s b.val with zeroing := true } (setF p MEMB_STATUS.POWER 0 s)
  else setF p MEMB_STATUS.POWER v s

/-- MEMB_POWER_WRITE (R310): a reserved code is ignored and counted (R8); another state for a bank that stays ON is ignored and
raised. -/
def execMembPowerWrite (b : Bank) (value : Word) (s : State) : Host.Outcome State Fault Refusal :=
  let v := getBits value 1 0
  let p : Page := .memb b
  .next (
    if v = 3 then countErr p s
    else if v ≠ 0 ∧ powerBank b.val = false then raise p MEMB_INT.POWER_REFUSED s
    else powerTo b v (setF p MEMB_POWER.STATE v s))

/-- BANK_RETENTION_RETURN: 10 µs after its last access a bank whose register requests RETENTION returns to it (R310). -/
def execBankRetentionReturn (b : Bank) (s : State) : Host.Outcome State Fault Refusal :=
  .next (
    if getF s (.memb b) MEMB_POWER.STATE = 1 ∧ bankPower s b = 0 ∧ (bank s b.val).zeroing = false then
      setF (.memb b) MEMB_STATUS.POWER 1 s
    else s)

/-- BANK_ZEROED: a bank that left OFF serves accesses from now on (R310). -/
def execBankZeroed (b : Bank) (s : State) : Host.Outcome State Fault Refusal :=
  .next (setBank b.val { bank s b.val with zeroing := false } s)

/-! Column repair (R314–R316). -/

/-- The half of MEMB_REPAIR that describes a spare: [15] used, [14] fused, [6:0] column. -/
def spare (s : State) (b : Bank) (k : Nat) : Nat := getBits (reg s (addr (.memb b) 0x104)) (16 * k + 15) (16 * k)

/-- The state with the half of MEMB_REPAIR of a spare changed. -/
def setSpare (b : Bank) (k v : Nat) (s : State) : State :=
  let a := addr (.memb b) 0x104
  setReg a (setBits (reg s a) (16 * k + 15) (16 * k) v) s

/-- Whether a spare holds a column. -/
def spareUsed (s : State) (b : Bank) (k : Nat) : Bool := (spare s b k).testBit 15

/-- Whether a spare holds its column by fuse. -/
def spareFused (s : State) (b : Bank) (k : Nat) : Bool := spareUsed s b k && (spare s b k).testBit 14

/-- The column a spare holds. -/
def spareColumn (s : State) (b : Bank) (k : Nat) : Nat := spare s b k % 128

/-- Whether some spare of a bank holds a column. -/
def columnRepaired (s : State) (b : Bank) (col : Nat) : Bool :=
  [0, 1].any (fun k => spareUsed s b k && decide (spareColumn s b k = col))

/-- A spare that holds no column and has no walk to be made, the lower first. -/
def freeSpare (s : State) (b : Bank) : Option Nat :=
  [0, 1].find? (fun k => !spareUsed s b k && !(bank s b.val).walks.any (fun w => decide (w.2 = k)))

/-- A spare takes a column by soft repair. -/
def takeSpare (b : Bank) (k col : Nat) (s : State) : State := setSpare b k (0x8000 + col) s

/-- A walk to be made for a column, onto a spare (R315). -/
def startWalk (b : Bank) (col k : Nat) (s : State) : State :=
  setBank b.val { bank s b.val with walks := (bank s b.val).walks ++ [(col, k)] } s

/-- Whether a walk for a column is to be made. -/
def walking (s : State) (b : Bank) (col : Nat) : Bool := (bank s b.val).walks.any (fun w => decide (w.1 = col))

/-- A failing column of a bank is soft-repaired when a spare is free; without one the bank shows FAULT (R314, R315). -/
def autoRepair (b : Bank) (col : Nat) (s : State) : State :=
  if columnRepaired s b col || walking s b col then s
  else match freeSpare s b with
    | some k => if isSet s .mem MEM_BADGER.AUTO_REPAIR then startWalk b col k s else s
    | none => setFault (.memb b) 1 (setF (.memb b) MEMB_STATUS.FAULT_CAUSE 1 s)

/-- SOFT_REPAIR_WALK_END: reads take the column from the spare; REPAIRED is raised, and a SOFT_REPAIR of that column completes (R315). -/
def execSoftRepairWalkEnd (b : Bank) (s : State) : Host.Outcome State Fault Refusal :=
  let p : Page := .memb b
  .next (
    match (bank s b.val).walks with
    | [] => s
    | (col, k) :: rest =>
      let s1 := raise p MEMB_INT.REPAIRED (takeSpare b k col (setBank b.val { bank s b.val with walks := rest } s))
      match outstanding s1 p with
      | some o => if getBits o.a0 31 0 = col then complete p CODE.OK 0 s1 else s1
      | none => s1)

/-- SOFT_REPAIR (R315 and the bank command table): BAD_ARG above column 71, REFUSED unless the bank is ON, ALREADY when a spare holds the
column, NO_SPARE. -/
def runSoftRepair (b : Bank) (o : Outstanding) (s : State) : State :=
  let p : Page := .memb b
  let col := o.a0.toNat
  if 71 < col then done p CODE.BAD_ARG s
  else if bankPower s b ≠ 0 then done p CODE.REFUSED s
  else if columnRepaired s b col then done p 0x81 s
  else if walking s b col then s
  else match freeSpare s b with
    | none => done p 0x80 s
    | some k => startWalk b col k s

/-- SOFT_REPAIR, MEM b command 0x0001 (R315). -/
def execSoftRepair (b : Bank) (src : CmdSrc) (s : State) : Host.Outcome State Fault Refusal :=
  .next (issue (.memb b) 0x0001 src (runSoftRepair b) s)

/-- The abort of a SOFT_REPAIR before its walk ends: the spare is freed and reads stay on the array. -/
def abortSoftRepair (b : Bank) (o : Outstanding) (s : State) : State :=
  let x := bank s b.val
  done (.memb b) CODE.ABORTED (setBank b.val { x with walks := x.walks.filter (fun w => decide (w.1 ≠ o.a0.toNat)) } s)

/-- Whether the spare is fused already, in force or burned since the last start. -/
def fusedSpare (s : State) (b : Bank) (k : Nat) : Bool :=
  spareFused s b k || s.mem.fuses.any (fun f => decide (f.1 = b.val) && decide (f.2.1 = k))

/-- FUSE_BURN_DONE: the burn that a ticket armed ends (R316). -/
def execFuseBurnDone (s : State) : Host.Outcome State Fault Refusal :=
  let b : Bank := Fin.ofNat 128 (getF s .mem MEM_FUSE_REQ.BANK)
  let k := getF s .mem MEM_FUSE_REQ.SPARE
  let col := getF s .mem MEM_FUSE_REQ.COLUMN
  let result :=
    if fusedSpare s b k then 3
    else if spareUsed s b k && decide (spareColumn s b k ≠ col) then 2
    else 1
  let fuses := if result = 3 then s.mem.fuses else s.mem.fuses ++ [(b.val, k, col)]
  .next (
    if !isSet s .mem MEM_STATUS.FUSE_BUSY then s
    else
      let s1 := setF .mem MEM_FUSE_STAT.RESULT result { s with mem := { s.mem with fuses := fuses } }
      raise .mem MEM_INT.FUSE_DONE (setB .mem MEM_STATUS.FUSE_BUSY false (setF .mem MEM_FUSE_REQ.ARM 0 s1)))

/-! The Badger (R312–R314). -/

/-- Whether the Badger walks a bank: ON and between FIRST_BANK and LAST_BANK. -/
def badgerBank (s : State) (b : Nat) : Bool :=
  decide (getF s .mem MEM_BADGER.FIRST_BANK ≤ b) && decide (b ≤ getF s .mem MEM_BADGER.LAST_BANK) &&
    decide (bankPower s (Fin.ofNat 128 b) = 0)

/-- The next bank the Badger walks at or after a bank, if one is left in the pass. -/
def nextBank (s : State) (b : Nat) : Option Nat := ((List.range (128 - b)).map (b + ·)).find? (badgerBank s)

/-- The Badger goes to a stripe, from its first word, with no yields counted. -/
def badgerAt (b stripe : Nat) (s : State) : State :=
  let s1 := setF .mem MEM_BADGER_POS.STRIPE stripe (setF .mem MEM_BADGER_POS.BANK b s)
  { s1 with mem := { s1.mem with yields := 0, nextWord := 0 } }

/-- The Badger begins the walk again, a pass completed or not. -/
def badgerRestart (pass : Nat) (s : State) : State :=
  let s1 := setF .mem MEM_BADGER_POS.PASSES ((getF s .mem MEM_BADGER_POS.PASSES + pass) % 65536) s
  match nextBank s1 0 with
  | some b => badgerAt b 0 s1
  | none => badgerAt (getF s1 .mem MEM_BADGER.FIRST_BANK) 0 s1

/-- The Badger moves on from its stripe (R312). -/
def badgerNext (s : State) : State :=
  let b := getF s .mem MEM_BADGER_POS.BANK
  let stripe := getF s .mem MEM_BADGER_POS.STRIPE
  if stripe < 511 then badgerAt b (stripe + 1) s
  else match nextBank s (b + 1) with
    | some c => badgerAt c 0 s
    | none => badgerRestart 1 s

/-- The Badger's position moved to a bank that it walks, when the present one has left the walk. DEDUCED (log 11). -/
def badgerSeat (s : State) : State :=
  if badgerBank s (getF s .mem MEM_BADGER_POS.BANK) then s
  else match nextBank s (getF s .mem MEM_BADGER_POS.BANK) with
    | some c => badgerAt c 0 s
    | none => badgerRestart 0 s

/-- A comparison that failed at a bit position of a word (R314, R479): counted, recorded and reported; a column that has failed in two
different stripes is repaired. -/
def badgerFail (word bit : Nat) (s : State) : State :=
  let b := getF s .mem MEM_BADGER_POS.BANK
  let stripe := getF s .mem MEM_BADGER_POS.STRIPE
  let s1 := count .mem MEM_BADGER_FAIL_CNT.COUNT (setF .mem MEM_BADGER_LAST_FAIL.BIT bit
    (setF .mem MEM_BADGER_LAST_FAIL.WORD (stripe * 64 + word) (setF .mem MEM_BADGER_LAST_FAIL.BANK b s)))
  let s2 := diagReport 7 .mem (raise .mem MEM_INT.BADGER_FAIL s1)
  let x := bank s2 b
  if x.failed.any (fun f => decide (f.1 = bit) && decide (f.2 ≠ stripe)) then autoRepair (Fin.ofNat 128 b) bit s2
  else setBank b { x with failed := if x.failed.contains (bit, stripe) then x.failed else x.failed ++ [(bit, stripe)] } s2

/-- What the Badger finds at one word of its stripe. -/
def badgerFind (s : State) (f : BadgerFind) : State :=
  let base := getF s .mem MEM_BADGER_POS.BANK * 0x40000 + getF s .mem MEM_BADGER_POS.STRIPE * 512
  match f with
  | .corrected w bit => eccSingle (base + w.val * 8) bit.val s
  | .uncorrectable w => eccUncorrectable (base + w.val * 8) s
  | .failed w bit => badgerFail w.val bit.val s

/-- The word of a finding. -/
def findWord : BadgerFind → Nat
  | .corrected w _ | .uncorrectable w | .failed w _ => w.val

/-- The findings at the words from the next untested one up to a word, in order. -/
def badgerFinds (upto : Nat) (finds : List BadgerFind) (s : State) : State :=
  (finds.filter (fun f => decide (s.mem.nextWord ≤ findWord f) && decide (findWord f ≤ upto))).foldl badgerFind s

/-- Whether the Badger is enabled and has a bank to walk. -/
def badgerOn (s : State) : Bool := isSet s .mem MEM_BADGER.EN && (nextBank s 0).isSome

/-- BADGER_STRIPE: at its interval the Badger borrows a stripe and tests and restores its words from the next untested one on (R312, R314);
a port B cycle may collide with a port A access, which returns BUSY to it (R309). -/
def execBadgerStripe (finds : List BadgerFind) (busy : Nat) (s : State) : Host.Outcome State Fault Refusal :=
  .next (
    if !badgerOn s then setB .mem MEM_STATUS.BADGER_RUN false s
    else
      let s1 := badgerSeat (setB .mem MEM_STATUS.BADGER_RUN true s)
      let p : Page := .memb (Fin.ofNat 128 (getF s1 .mem MEM_BADGER_POS.BANK))
      badgerNext (badgerFinds 63 finds (addConflict 55 0 busy (countN p MEMB_BUSY_CNT.COUNT busy s1))))

/-- BADGER_YIELD: a foreground access makes the Badger release its stripe after the current word; a stripe that has yielded 16 times in a
row is skipped (R313). -/
def execBadgerYield (upto : Fin 64) (finds : List BadgerFind) (s : State) : Host.Outcome State Fault Refusal :=
  .next (
    if !badgerOn s then setB .mem MEM_STATUS.BADGER_RUN false s
    else
      let s1 := badgerSeat (setB .mem MEM_STATUS.BADGER_RUN true s)
      let last := max upto.val s1.mem.nextWord
      let s2 := count .mem MEM_BADGER_YIELD_CNT.COUNT (badgerFinds last finds s1)
      let n := s2.mem.yields + 1
      if 63 ≤ last then badgerNext s2
      else if 16 ≤ n then
        badgerNext (raise .mem MEM_INT.BADGER_SKIP (count .mem MEM_BADGER_SKIP_CNT.COUNT s2))
      else { s2 with mem := { s2.mem with yields := n, nextWord := last + 1 } })

/-! The MEM pages (R308, R317, R318). -/

/-- A write to MEM_CNT_SEL latches the selected master's counters (R318); a reserved master is ignored and counted (R8). -/
def execMemCntSelWrite (value : Word) (s : State) : Host.Outcome State Fault Refusal :=
  let m := getBits value 5 0
  .next (
    if 55 < m then countErr .mem s
    else setF .mem MEM_CNT_BUSY.COUNT (conflict s m).busy
      (setF .mem MEM_CNT_WAIT.COUNT (conflict s m).wait (setF .mem MEM_CNT_SEL.MASTER m s)))

/-- Every conflict counter at 0. -/
def clearConflicts (s : State) : State := { s with mem := { s.mem with conflicts := [] } }

/-- CLEAR_CONFLICTS, MEM command 0x0001 (R308). -/
def execClearConflicts (src : CmdSrc) (s : State) : Host.Outcome State Fault Refusal :=
  .next (issue .mem 0x0001 src (fun _ t => done .mem CODE.OK (clearConflicts t)) s)

/-- A March C− test of a bank with the failing columns it finds: the bank ends zeroed, failing columns go to free spares, and a bank that
lacks one shows FAULT (R91). The answer tells whether every column was replaced. -/
def marchBank (b : Bank) : List Nat → State → Bool × State
  | [], s => (true, zeroBank b.val s)
  | col :: rest, s =>
    if columnRepaired s b col then marchBank b rest s
    else match freeSpare s b with
      | some k => marchBank b rest (takeSpare b k col s)
      | none => (false, zeroBank b.val (setFault (.memb b) 1 (setF (.memb b) MEMB_STATUS.FAULT_CAUSE 2 s)))

/-- TEST_BANK: BAD_ARG above bank 127, REFUSED outside TEST; then its test runs. -/
def runTestBank (o : Outstanding) (s : State) : State :=
  if 127 < o.a0.toNat then done .mem CODE.BAD_ARG s
  else if mode s ≠ MODE.TEST then done .mem CODE.REFUSED s
  else s

/-- TEST_BANK, MEM command 0x0002 (R317). -/
def execTestBank (src : CmdSrc) (s : State) : Host.Outcome State Fault Refusal :=
  .next (issue .mem 0x0002 src runTestBank s)

/-- The end of a TEST_BANK with the failing columns it found. -/
def finishTestBank (cols : List (Fin 72)) (o : Outstanding) (s : State) : State :=
  let (ok, t) := marchBank (Fin.ofNat 128 o.a0.toNat) (cols.map (·.val)) s
  done .mem (if ok then CODE.OK else 0x80) t

/-- The content of a bank left undefined (R317). -/
def spoilBank (b : Nat) (s : State) : State :=
  let (l, t) := freeBytes 0x40000 s
  setBytes (b * 0x40000) l t

/-- TEST_BANK stopped: the bank's content is undefined. -/
def spoilTest (o : Outstanding) (s : State) : State :=
  if o.opcode = 0x0002 then spoilBank (o.a0.toNat % 128) s else s

/-- MEM_GLOBAL_BLK_RESET (R317): the counters and the conflict counters return to reset and the Badger restarts. -/
def execMemGlobalBlkReset (s : State) : Host.Outcome State Fault Refusal :=
  let s1 := match outstanding s .mem with
    | some o => spoilTest o s
    | none => s
  .next (badgerRestart 0 (blkReset .mem [0x110, 0x114, 0x118, 0x11C, 0x120] (clearConflicts s1)))

/-- MEMB_BLK_RESET (R310): the bank's counters return to reset. -/
def execMembBlkReset (b : Bank) (s : State) : Host.Outcome State Fault Refusal :=
  .next (blkReset (.memb b) [0x108, 0x10C, 0x110, 0x114] s)

end Sys2Proof.Machine
end

