-- ==== Sys2Proof/Machine/Narrow.lean ====
section
/-!
DEFINITION. Sys2Proof/Machine/Narrow.lean: the narrowband waveform: band and hop lists, reception, the NBW page and ENCODE_FRAME
(spec/07_narrowband_tone_keying.md).
-/
namespace Sys2Proof.Machine

/-! The band (R113, R114, R126). -/

/-- NSETS of a band word. -/
def nsets (band : Word) : Nat := getBits band 7 0

/-- BASE of a band word. -/
def bandBase (band : Word) : Nat := getBits band 15 8

/-- NBW_BAND as written. -/
def bandReg (s : State) : Word := reg s (addr .nbw 0x100)

/-- NBW_LEVEL as written. -/
def nbLevelReg (s : State) : Word := reg s (addr .nbw 0x11C)

/-- NBW_CFG as written. -/
def nbCfgReg (s : State) : Word := reg s (addr .nbw 0x104)

/-- NB_MAP in force (R201). -/
def nbMap (s : State) : Nat := getF s .bcn BCN_NB_MAP_CUR_LO.SETS + getF s .bcn BCN_NB_MAP_CUR_HI.SETS * 2 ^ 32

/-- The tone sets of a map, in ascending order. -/
def setsOf (map : Nat) : List Nat := (List.range 61).filter map.testBit

/-- The hop list of a frame (R126): tone sets 0 to NSETS − 1 for SYNC-P, else those the channel map permits. -/
def hopList (band : Word) (map : Nat) (syncP : Bool) : List Nat := if syncP then List.range (nsets band) else setsOf map

/-- The samples of a segment: 128 symbols (R126). -/
def segmentSamples : Nat := 14745600

/-- The tone set of segment `g` of a frame that starts on a set of its list (R126). -/
def segmentSet (hops : List Nat) (start g : Nat) : Nat :=
  match hops.idxOf? start with
  | none => start
  | some x => hops.getD ((x + g) % hops.length) start

/-- NBW STATUS.PENDING brought up to date: a register differs from the value in effect. -/
def nbPending (s : State) : State :=
  setB .nbw NBW_STATUS.PENDING
    (decide (bandReg s ≠ s.nbw.band) || decide (nbLevelReg s ≠ s.nbw.level) || decide (nbCfgReg s ≠ s.nbw.cfg)) s

/-- Slot 512: the next superframe is planned on the band and levels now written (R132). -/
def nbFix (s : State) : State :=
  { s with nbw := { s.nbw with nextBand := bandReg s, nextLevel := nbLevelReg s } }

/-- A band and levels take effect. -/
def nbApply (band level : Word) (s : State) : State :=
  let s1 := { s with nbw := { s.nbw with band := band, level := level, nextBand := band, nextLevel := level } }
  let s2 := setB .nbw NBW_STATUS.BAND_VALID (decide (nsets band ≠ 0)) s1
  if band = s.nbw.band then s2 else raise .nbw NBW_INT.BAND_APPLIED s2

/-- The superframe boundary for NBW (R132): the planned band takes effect, transmit bursts of the old band still running complete ABORTED,
and NBW_CFG takes effect. `n` is the number of the superframe that begins. -/
def nbBoundary (n : Nat) (s : State) : State :=
  let s1 := if s.nbw.nextBand = s.nbw.band then s
    else endTx (fun b => decide (b.wave = .nb) && decide (b.sfn ≠ n)) BST.ABORTED s
  let s2 := nbApply s1.nbw.nextBand s1.nbw.nextLevel s1
  nbPending { s2 with nbw := { s2.nbw with cfg := nbCfgReg s2 } }

/-! Reception (R129–R132). -/

/-- Whether a port's samples reach the engines: declared, chain on, waveform enabled, not blanked (R11, R269). -/
def hears (s : State) (w : Wave) (n : Nat) : Bool := receives s w n && !(port s n).blanked

/-- The module time at the start of the superframe a burst began in. -/
def sfStartOf (s : State) (sfnB : Nat) : Nat := s.time.sfStart - sfnDiff sfnB (sfn s) * 209715200

/-- The tone set on which an open narrowband burst stands at a moment of module time (R126). -/
def setAt (s : State) (b : Burst) (t : Nat) : Nat :=
  segmentSet b.hops b.ch0 ((t - (sfStartOf s b.sfn + b.start)) / segmentSamples)

/-- Whether a burst is open on a tone set of a group at a moment (R132). -/
def openOnSet (s : State) (g set t : Nat) (b : Burst) : Bool :=
  decide (b.st = .rxOpen) && decide (b.wave = .nb) && decide (b.place = g) && decide (setAt s b t = set)

/-- The superframe of a frame's first sample: the present one or the one before. -/
def startSfn (s : State) (prev : Bool) : Nat := if prev then (sfn s + (2 ^ 32 - 1)) % 2 ^ 32 else sfn s

/-- A preamble-to-sync transition found on a port, with its level in 0.5 dB, tone set, hold length, sync pattern and the first sample of
its frame (R129): counted above DET_THRESH, ignored where a burst is open on the set, else a context opens. -/
def nbSync (n set level m : Nat) (syncP prev : Bool) (start : Nat) (s : State) : State :=
  let g := groupOf n
  let k := startSfn s prev
  let hops := hopList s.nbw.band (if prev then s.nbw.lastMap else nbMap s) syncP
  let now := sfStartOf s k + start + (8 * m + 1) * 115200
  if !hears s .nb n || !decide (set < nsets s.nbw.band) || !decide (getBits s.nbw.cfg 15 8 < level) then s
  else
    let s1 := count .nbw NBW_SYNC_CNT.COUNT s
    if (burstIds s1 (openOnSet s1 g set now)).isEmpty then
      openRx g { Burst.idle with wave := .nb, ch0 := set, start := start, sfn := k, m := m, hops := hops } s1
    else s1

/-- NB_SYNC_DETECT (R129, R132). -/
def execNbSyncDetect (p : Port) (set : Fin 64) (level : BitVec 8) (m : Fin 3) (syncP prev : Bool) (start : Fin 209715200)
    (s : State) : Host.Outcome State Fault Refusal :=
  .next (nbSync p.val set.val level.toNat (2 ^ m.val) syncP prev start.val s)

/-- Whether a narrowband header is sound (R131), for the hold length of its sync. -/
def nbHeaderOk (h : List Byte) (m : Nat) : Bool :=
  let f := nbHeader h
  decide (crc16 (h.take 6) = f.hcrc) && decide (f.ver = 1) && decide (f.ftype < 5) && decide (f.rep < 3) &&
    decide (repRoot f.rep = m) && decide (f.len ≤ 256)

/-- A sound beacon header with the module's own DOMAIN_ID, heard in the listening stage or in the check window of a superframe (R400, R408):
`f` is its FTYPE, `a` its ADDR. -/
def hearBeacon (f a k : Nat) (s : State) : State :=
  let listening := decide (getF s .boot BOOT_STATUS.STAGE = 0x0E)
  if f = 0 ∧ a / 64 = s.bcn.domain ∧ (listening ∨ s.time.slot ≤ 48) then
    { s with pair := { s.pair with heard := true, lastBeacon := some k } }
  else s

/-- A decoded narrowband header (R131): a lost one ends the burst HEADER_LOST; a valid one is pushed as HEAD. -/
def nbHeaderDecoded (id : Nat) (h : List Byte) (s : State) : State :=
  let b := burst s id
  if b.st ≠ .rxOpen ∨ b.wave ≠ .nb ∨ b.header ≠ [] then s
  else if nbHeaderOk h b.m then
    hearBeacon (nbHeader h).ftype (nbHeader h).addr b.sfn (pushWord id .head h (setBurst id { b with header := h } s))
  else completeBurst id BST.HEADER_LOST (raise .nbw NBW_INT.HDR_LOST (count .nbw NBW_HDR_LOST_CNT.COUNT s))

/-- The status of a narrowband burst decoded to its end, with its counts (R131). -/
def nbDecoded (crcOk : Bool) (s : State) : Nat × State :=
  if crcOk then (BST.OK, count .nbw NBW_OK_CNT.COUNT s)
  else (BST.CRC_FAIL, raise .nbw NBW_INT.CRC_FAIL (count .nbw NBW_CRC_FAIL_CNT.COUNT s))

/-! The NBW page (R133, R134). -/

/-- Every burst of a waveform in progress completes ABORTED (R133, R165). -/
def abortWave (w : Wave) (s : State) : State :=
  completeAll (fun b => b.st.isOpen && decide (b.wave = w)) BST.ABORTED
    (endTx (fun b => decide (b.wave = w)) BST.ABORTED s)

/-- NBW_BLK_RESET (R133). -/
def execNbwBlkReset (s : State) : Host.Outcome State Fault Refusal :=
  let s1 := blkReset .nbw [0x104, 0x108, 0x10C, 0x110, 0x114] (abortWave .nb s)
  .next (nbPending { s1 with nbw := { s1.nbw with cfg := nbCfgReg s1 } })

/-- The engine an ENCODE command holds, in the phase of the command. -/
def encodePhase (c i : Nat) : Nat := 1 + 16 * c + i

/-- The engine of an ENCODE command returns to the pool. -/
def freeEncode (o : Outstanding) (s : State) : State :=
  if o.phase = 0 then s else setRole ((o.phase - 1) / 16) ((o.phase - 1) % 16) ROLE.GATED s

/-- An ENCODE command takes its engine, or completes NO_RESOURCE (R271). -/
def takeEncode (p : Page) (s : State) : State :=
  match placeEncode s with
  | none => done p CODE.NO_RESOURCE s
  | some (c, i) => setPhase p (encodePhase c i) (setRole c i ROLE.ENCODE s)

/-- Whether the input header of ENCODE_FRAME keeps R131; the HCRC given is ignored. -/
def encodeHeaderOk (h : List Byte) : Bool :=
  let f := nbHeader h
  decide (f.ver = 1) && decide (f.ftype < 5) && decide (f.rep < 3) && decide (f.len ≤ 256)

/-- Whether the arguments of ENCODE_FRAME are in range (R134). -/
def encodeFrameArgs (s : State) (o : Outstanding) : Bool :=
  let a := o.a0.toNat
  let h := busBytes s a 8
  let f := nbHeader h
  decide (a % 4 = 0) && decide (o.a1.toNat % 4 = 0) && inHostArea a 8 && encodeHeaderOk h && inHostArea a (8 + f.len) &&
    inHostArea o.a1.toNat (nbSymbols f.rep f.len)

/-- ENCODE_FRAME: its arguments are checked and its engine taken; its output comes with its completion (R134). -/
def runEncodeFrame (o : Outstanding) (s : State) : State :=
  let s1 := touchArea o.a0.toNat 8 s
  if encodeFrameArgs s1 o then takeEncode .nbw s1 else done .nbw CODE.BAD_ARG s1

/-- ENCODE_FRAME, NBW command 0x0001 (R134). -/
def execEncodeFrame (src : CmdSrc) (s : State) : Host.Outcome State Fault Refusal :=
  .next (issue .nbw 0x0001 src runEncodeFrame s)

/-- The completion of ENCODE_FRAME: the symbols written, NBW_ENC_LEN set. -/
def finishEncodeFrame (o : Outstanding) (s : State) : State :=
  let a := o.a0.toNat
  let h := busBytes s a 8
  let f := nbHeader h
  let s1 := touchArea a (8 + f.len) (freeEncode o s)
  if encodeFrameArgs s1 o then
    let out := frameBytes h (busBytes s1 (a + 8) f.len) (o.a2.getLsbD 0)
    done .nbw CODE.OK (setF .nbw NBW_ENC_LEN.SYMBOLS out.length (busWrite o.a1.toNat out s1))
  else done .nbw CODE.BAD_ARG s1

/-- The abort of ENCODE_FRAME: its output area is undefined (R134). -/
def abortEncodeFrame (o : Outstanding) (s : State) : State :=
  let f := nbHeader (busBytes s o.a0.toNat 8)
  done .nbw CODE.ABORTED (leaveOpen o.a1.toNat (nbSymbols f.rep f.len) (freeEncode o s))

end Sys2Proof.Machine
end

