-- ==== Sys2Proof/Machine/Broad.lean ====
section
/-!
DEFINITION. Sys2Proof/Machine/Broad.lean: the broadband waveform: masks, dynamic notches, detection, headers, tone maps, the BBW page and
its commands (spec/08_broadband_ofdm.md).
-/
namespace Sys2Proof.Machine

/-! Group 0 and its boundary (R139, R164). -/

/-- A mask of 54 words of a field as one number, bit i for carrier 37 + i (R139). -/
def maskOf (s : State) (f : Field) : Nat :=
  (List.range 54).foldl (fun m w => m + getI s .bbw f w * 2 ^ (32 * w)) 0 % 2 ^ 1725

/-- BBW_CFG as written. -/
def bbCfgReg (s : State) : Word := reg s (addr .bbw 0x104)

/-- Group 0 as the registers hold it. -/
def bbSetReg (s : State) : BbSet :=
  ⟨reg s (addr .bbw 0x100), reg s (addr .bbw 0x128), maskOf s BBW_PMASK.CARRIERS, maskOf s BBW_DMASK.CARRIERS⟩

/-- The carriers left unmasked by a mask. -/
def unmaskedCount (mask : Nat) : Nat := ((List.range 1725).filter (fun i => !mask.testBit i)).length

/-- Whether at least 51 carriers are unmasked (R139). -/
def maskValid (mask : Nat) : Bool := decide (51 ≤ unmaskedCount mask)

/-- BBW STATUS.PENDING brought up to date: group 0 or BBW_CFG differs from the value in effect. -/
def bbPending (s : State) : State :=
  setB .bbw BBW_STATUS.PENDING (decide (bbSetReg s ≠ s.bbw.cur) || decide (bbCfgReg s ≠ s.bbw.cfg)) s

/-- Slot 512: the next superframe is planned on the group 0 now written (R164). -/
def bbFix (s : State) : State :=
  let g := bbSetReg s
  { s with bbw := { s.bbw with next := g } }

/-- The superframe boundary for BBW (R164): group 0 as planned takes effect, transmit bursts still running complete ABORTED, and BBW_CFG
takes effect. `n` is the number of the superframe that begins. -/
def bbBoundary (n : Nat) (s : State) : State :=
  let s1 :=
    if s.bbw.next = s.bbw.cur then s
    else
      let t := endTx (fun b => decide (b.wave = .bb) && decide (b.sfn ≠ n)) BST.ABORTED s
      let t1 := { t with bbw := { t.bbw with cur := t.bbw.next } }
      raise .bbw BBW_INT.MASK_APPLIED (setB .bbw BBW_STATUS.MASK_VALID (maskValid t1.bbw.cur.pmask) t1)
  let c := bbCfgReg s1
  bbPending { s1 with bbw := { s1.bbw with cfg := c } }

/-! Dynamic notches (R141). -/

/-- DYN_ACTIVE brought up to date. -/
def bbNotches (l : List Notch) (s : State) : State :=
  raise .bbw BBW_INT.DYN_CHANGE (setB .bbw BBW_STATUS.DYN_ACTIVE (!l.isEmpty) { s with bbw := { s.bbw with notches := l } })

/-- The notch of a carrier on a port, when one is in force. -/
def notchOf (s : State) (p i : Nat) : Option Notch :=
  s.bbw.notches.find? (fun n => decide (n.port = p) && decide (n.carrier = i))

/-- Whether a carrier of a port is measured for dynamic notching (R141). -/
def dynEligible (s : State) (p i : Nat) : Bool :=
  (s.bbw.cur.profile).getLsbD 24 && (port s p).declared && s.bbw.cur.dmask.testBit i

/-- A carrier measured in two consecutive superframes, in dB over the port's floor (R141). -/
def dynDetect (p i before now : Nat) (s : State) : State :=
  let th := getBits s.bbw.cur.profile 15 8
  if !dynEligible s p i || !decide (th < before) || !decide (th < now) then s
  else match notchOf s p i with
    | some n =>
      let l := s.bbw.notches.map (fun x => if x = n then { x with last := sfn s } else x)
      { s with bbw := { s.bbw with notches := l } }
    | none => bbNotches (s.bbw.notches ++ [⟨p, i, sfn s⟩]) s

/-- DYN_NOTCH_DETECT (R141). -/
def execDynNotchDetect (p : Port) (k : Fin 1725) (before now : BitVec 8) (s : State) : Host.Outcome State Fault Refusal :=
  .next (dynDetect p.val k.val before.toNat now.toNat s)

/-- A notch that has seen no detection for DYN_HOLD superframes is lifted (R141). -/
def dynLift (p i : Nat) (s : State) : State :=
  match notchOf s p i with
  | none => s
  | some n =>
    if sfnDiff n.last (sfn s) < getBits s.bbw.cur.profile 7 0 then s
    else bbNotches (s.bbw.notches.erase n) s

/-- DYN_NOTCH_LIFT (R141). -/
def execDynNotchLift (p : Port) (k : Fin 1725) (s : State) : Host.Outcome State Fault Refusal := .next (dynLift p.val k.val s)

/-! Tone map store (R151–R155). -/

/-- The entry of a link: a context index and, for a downlink, the port. -/
def linkMap (s : State) (a : Nat) (down : Bool) (p : Nat) : Option TmapEntry :=
  s.bbw.tmaps.find? (fun e => decide (e.addr = a) && decide (e.down = down) && (!down || decide (e.port = p)))

/-- BBW_TMAP brought up to date with the store of 262,144 entries (R154). -/
def tmapCount (s : State) : State :=
  setB .bbw BBW_TMAP.FULL (decide (262144 ≤ s.bbw.tmaps.length)) (setF .bbw BBW_TMAP.USED s.bbw.tmaps.length s)

/-- An entry put in place of the one of its link; a new link takes a free entry, and none when the store is full (R154). -/
def putMap (e : TmapEntry) (s : State) : State :=
  match linkMap s e.addr e.down e.port with
  | some x =>
    let l := s.bbw.tmaps.map (fun y => if y = x then e else y)
    { s with bbw := { s.bbw with tmaps := l } }
  | none =>
    if s.bbw.tmaps.length < 262144 then
      let l := s.bbw.tmaps ++ [e]
      tmapCount { s with bbw := { s.bbw with tmaps := l } }
    else raise .bbw BBW_INT.TMAP_FULL (tmapCount s)

/-- The entries and the timing correction of an association freed with it (R154). -/
def freeMaps (a : Nat) (s : State) : State :=
  let l := s.bbw.tmaps.filter (fun e => decide (e.addr ≠ a))
  let t := s.bbw.tadj.filter (fun e => decide (e.1 ≠ a))
  tmapCount { s with bbw := { s.bbw with tmaps := l, tadj := t } }

/-- Whether a map keeps R151 and R152: a TMID of 1–14, a GI that is not reserved, no code 7 with GI 256, zero bits where the layout has
zeros. -/
def mapOk (l : List Byte) : Bool :=
  let t := beAt l 0 1
  let p := beAt l 1 1
  let codes := l.drop 4
  decide (l.length = 651) && decide (1 ≤ t) && decide (t ≤ 14) && decide (p % 4 < 3) && decide (p / 64 < 2) &&
    decide (beAt l 3 1 = 0) && !((ofLE codes).testBit 5175) &&
    (decide (p % 4 ≠ 0) || (List.range 1725).all (fun i => decide (mapCode codes i ≠ 7)))

/-- The tone map in 651 bytes (R152). -/
def readMap (l : List Byte) : ToneMap :=
  let p := beAt l 1 1
  ⟨beAt l 0 1, p % 4, p / 4 % 4, p / 16 % 4, l.drop 4⟩

/-- The 651 bytes of a tone map with its direction and REF_FSEQ (R152). -/
def mapBytes (m : ToneMap) (down : Bool) (ref : Nat) : List Byte :=
  [byteOf m.tmid, byteOf (m.gi + 4 * m.rate + 16 * m.pi + (if down then 64 else 0)), byteOf ref, 0] ++ m.codes

/-- The threshold T(b) at RATE 3/4 in dB, by loading code (R155). -/
def mapThreshold (c : Nat) : Nat := [0, 4, 7, 13, 19, 25, 31, 37].getD c 0

/-- The loading code of a carrier from its signal-to-noise ratio in tenths of a dB, for a margin in dB raised by one at RATE 5/6 (R155);
`top` is the largest code the guard interval allows. -/
def chooseCode (snr margin top : Nat) : Nat :=
  (((List.range (top + 1)).filter (fun c => decide (c = 0) || decide (10 * (mapThreshold c + margin) ≤ snr))).getLast?).getD 0

/-- Loading codes in the layout of R152. -/
def packCodes (l : List Nat) : List Byte := leBytes 647 (l.reverse.foldl (fun a c => 8 * a + c) 0)

/-- The bits a symbol of a list of loading codes. -/
def codesLoad (l : List Nat) : Nat := (l.map codeBits).sum

/-- The loading codes of every carrier: 0 on masked ones (R155). -/
def chooseCodes (mask : Nat) (snr : List Nat) (margin top : Nat) : List Nat :=
  (List.range 1725).map (fun i => if mask.testBit i then 0 else chooseCode (snr.getD i 0) margin top)

/-- The uplink map the module computes (R155), with the guard interval and pilot spacing of BBW_CFG, and its rate in bits a symbol times
1,944. DESIGN CHOICE (log 12): R155 names neither GI, PI nor the new TMID. -/
def computeMap (s : State) (tmid : Nat) (snr : List Nat) : ToneMap × Nat :=
  let margin := getBits s.bbw.cfg 7 4
  let gi := getBits s.bbw.cfg 1 0
  let top := if gi = 0 then 6 else 7
  let c34 := chooseCodes s.bbw.cur.pmask snr margin top
  let c56 := chooseCodes s.bbw.cur.pmask snr (margin + 1) top
  let pi := getBits s.bbw.cfg 3 2
  if codesLoad c34 * 1458 < codesLoad c56 * 1620 then (⟨tmid, gi, 3, pi, packCodes c56⟩, codesLoad c56 * 1620)
  else (⟨tmid, gi, 2, pi, packCodes c34⟩, codesLoad c34 * 1458)

/-- The map a downlink burst to an address on a port uses: the acknowledged map of that port, else none, for TMID 0 (R153). -/
def downMap (s : State) (a p : Nat) : Option ToneMap := (linkMap s a true p).bind (·.cur)

/-- Whether a TMID names a map held for an uplink: 0 and 15 always, else the map in use, the one sent, or the previous one within its two
superframes (R153, R162). -/
def tmidKnown (s : State) (a t : Nat) : Bool :=
  decide (t = 0) || decide (t = 15) ||
  match linkMap s a false 0 with
  | none => false
  | some e =>
    (e.cur.elim false (fun m => decide (m.tmid = t))) || (e.fresh.elim false (fun m => decide (m.1.tmid = t))) ||
      (e.prev.elim false (fun m => decide (m.1.tmid = t)))

/-- The previous map of a link is dropped once its two superframes are over (R153). -/
def dropPrevious (a : Nat) (s : State) : State :=
  match linkMap s a false 0 with
  | none => s
  | some e =>
    match e.prev with
    | none => s
    | some (_, until_) => if sfnDiff until_ (sfn s) < 2 ^ 31 then putMap { e with prev := none } s else s

/-- TMAP_PREVIOUS_EXPIRY (R153). -/
def execTmapPreviousExpiry (a : CtxIndex) (s : State) : Host.Outcome State Fault Refusal := .next (dropPrevious a.toNat s)

/-! Reception (R157–R162). -/

/-- Whether two RU ranges have an RU in common. -/
def ruOverlap (f1 l1 f2 l2 : Nat) : Bool := decide (f1 ≤ l2) && decide (f2 ≤ l1)

/-- The grant of a group that covers a detection: its occurrence in the present superframe holds the sample and shares an RU (R159). -/
def grantAt (s : State) (g first last start : Nat) : Option Occ :=
  s.plan.grants.find? (fun o => decide (o.wave = .bb) && decide (o.group = g) && decide (o.sfn = sfn s) &&
    decide (o.start ≤ start + 64) && decide (start < o.start + o.length) && ruOverlap o.ch0 o.ch1 first last)

/-- Whether a burst is open on RUs of a range in a group (R159). -/
def openOnRus (g first last : Nat) (b : Burst) : Bool :=
  decide (b.st = .rxOpen) && decide (b.wave = .bb) && decide (b.place = g) && ruOverlap b.ch0 b.ch1 first last

/-- A detection on a run of RUs, with its level in 0.5 dB and first sample (R159): counted above DET_THRESH, ignored on RUs of an open
context, else a context opens with the range and timing of the grant or of the run. -/
def bbDetect (p first last level start : Nat) (s : State) : State :=
  let g := groupOf p
  if !hears s .bb p || !isSet s .bbw BBW_STATUS.MASK_VALID || !decide (first ≤ last) || !decide (getBits s.bbw.cfg 23 16 < level) then s
  else
    let s1 := count .bbw BBW_DET_CNT.COUNT s
    if !(burstIds s1 (openOnRus g first last)).isEmpty then s1
    else
      match grantAt s1 g first last start with
      | some o => openRx g { Burst.idle with wave := .bb, ch0 := o.ch0, ch1 := o.ch1, start := o.start, sfn := sfn s } s1
      | none => openRx g { Burst.idle with wave := .bb, ch0 := first, ch1 := last, start := start, sfn := sfn s } s1

/-- BB_DETECT (R159). -/
def execBbDetect (p : Port) (first last : Fin 27) (level : BitVec 8) (start : Fin 209715200) (s : State) :
    Host.Outcome State Fault Refusal :=
  .next (bbDetect p.val first.val last.val level.toNat start.val s)

/-- Whether a broadband FTYPE is not reserved (R145). -/
def bbFtypeOk (t : Nat) : Bool := decide (t < 4) || decide (t = 5)

/-- The checks of R162 that rest on the header and the mask alone. -/
def bbHeaderForm (mask : Nat) (f : BbHeader) : Bool :=
  decide (f.ver = 1) && bbFtypeOk f.ftype && decide (f.gi < 3) && decide (f.ruFirst ≤ f.ruLast) && decide (f.ruLast ≤ 26) &&
    decide (f.len ≤ 32768) && decide (51 ≤ (unmasked mask f.ruFirst f.ruLast).length)

/-- Whether a received broadband header is sound for a context's range (R162). -/
def bbHeaderOk (mask : Nat) (h : List Byte) (b : Burst) : Bool :=
  let f := bbHeader h
  decide (crc16 (h.take 10) = f.hcrc) && bbHeaderForm mask f && decide (f.ruFirst = b.ch0) && decide (f.ruLast = b.ch1)

/-- BB_HEADER_DECODED (R162): a lost header ends the burst HEADER_LOST; a valid one is pushed as HEAD, and ends the burst TMAP_UNKNOWN
when its TMID names no map held for the link. -/
def bbHeaderDecoded (id : Nat) (h : List Byte) (s : State) : State :=
  let b := burst s id
  if b.st ≠ .rxOpen ∨ b.wave ≠ .bb ∨ b.header ≠ [] then s
  else if bbHeaderOk s.bbw.cur.pmask h b then
    let f := bbHeader h
    let s1 := hearBeacon f.ftype f.addr b.sfn (pushWord id .head h (setBurst id { b with header := h } s))
    if tmidKnown s f.addr f.tmid then s1
    else completeBurst id BST.TMAP_UNKNOWN (raise .bbw BBW_INT.TMAP_UNKNOWN s1)
  else completeBurst id BST.HEADER_LOST (raise .bbw BBW_INT.HDR_LOST (count .bbw BBW_HDR_LOST_CNT.COUNT s))

/-- BB_HEADER_DECODED (R162). -/
def execBbHeaderDecoded (id : BurstId) (h : BitVec 96) (s : State) : Host.Outcome State Fault Refusal :=
  .next (bbHeaderDecoded id.val (beBytes 12 h.toNat) s)

/-- The status of a broadband burst decoded to its end, with its counts (R162). -/
def bbDecoded (crcOk : Bool) (cwFail : Nat) (s : State) : Nat × State :=
  let s1 := countN .bbw BBW_CW_FAIL_CNT.COUNT cwFail s
  if crcOk then (BST.OK, count .bbw BBW_OK_CNT.COUNT s1)
  else (BST.CRC_FAIL, raise .bbw BBW_INT.CRC_FAIL (count .bbw BBW_CRC_FAIL_CNT.COUNT s1))

/-- A first-path offset of an uplink burst beyond ±16 samples: the correction is kept for the next downlink header (R158). -/
def noteOffset (a : Nat) (offset : Int) (s : State) : State :=
  if (-16 : Int) ≤ offset ∧ offset ≤ 16 then s
  else
    let v := max (-511) (min 511 (-offset))
    let l := s.bbw.tadj.filter (fun e => decide (e.1 ≠ a)) ++ [(a, v)]
    { s with bbw := { s.bbw with tadj := l } }

/-- TADJ of the next downlink header to an address as its ten bits, and the state with the correction sent and counted (R158). -/
def takeTadj (a : Nat) (s : State) : Nat × State :=
  match s.bbw.tadj.lookup a with
  | none => (0, s)
  | some v =>
    let l := s.bbw.tadj.filter (fun e => decide (e.1 ≠ a))
    ((v % 1024).toNat, count .bbw BBW_TADJ_CNT.COUNT { s with bbw := { s.bbw with tadj := l } })

/-! The BBW page (R165, R166). -/

/-- BBW_BLK_RESET (R165). -/
def execBbwBlkReset (s : State) : Host.Outcome State Fault Refusal :=
  let s1 := setF .bbw BBW_TMAP.PERIOD 32 (abortWave .bb s)
  let s2 := blkReset .bbw [0x104, 0x10C, 0x110, 0x114, 0x118, 0x11C, 0x120] s1
  .next (bbPending { s2 with bbw := { s2.bbw with cfg := bbCfgReg s2 } })

/-- The header of ENCODE_BURST's input. -/
def burstInput (s : State) (o : Outstanding) : List Byte := busBytes s o.a0.toNat 12

/-- The tone map codes of ENCODE_BURST, used when TMID is 1–14. -/
def burstCodes (s : State) (o : Outstanding) (h : BbHeader) : List Byte :=
  if h.tmid = 0 ∨ h.tmid = 15 then [] else busBytes s (o.a2.toNat + 4) 647

/-- The coded bits in a data symbol of a burst (R151). -/
def symbolLoad (mask : Nat) (h : BbHeader) (codes : List Byte) : Nat :=
  ((unmasked mask h.ruFirst h.ruLast).map (loading h.tmid codes)).sum

/-- The symbols after the preamble of a burst (R142, R148). -/
def burstSymbolCount (mask : Nat) (h : BbHeader) (codes : List Byte) : Nat :=
  if h.len = 0 then 2
  else
    let n := dataSymbols h.rate h.len (symbolLoad mask h codes)
    2 + n + pilotSymbols h.pi n

/-- Whether the arguments of ENCODE_BURST are in range (R166, R303). -/
def encodeBurstArgs (s : State) (o : Outstanding) : Bool :=
  let h := bbHeader (burstInput s o)
  decide (o.a0.toNat % 4 = 0) && decide (o.a1.toNat % 4 = 0) && decide (o.a2.toNat % 4 = 0) && inHostArea o.a0.toNat 12 &&
    bbHeaderForm s.bbw.cur.pmask h && inHostArea o.a0.toNat (12 + h.len) &&
    (decide (h.tmid = 0) || decide (h.tmid = 15) || inHostArea o.a2.toNat 651) &&
    inHostArea o.a1.toNat (6900 * burstSymbolCount s.bbw.cur.pmask h (burstCodes s o h))

/-- ENCODE_BURST: its arguments are checked and its engine taken; its output comes with its completion (R166). -/
def runEncodeBurst (o : Outstanding) (s : State) : State :=
  let s1 := touchArea o.a0.toNat 12 s
  if encodeBurstArgs s1 o then takeEncode .bbw s1 else done .bbw CODE.BAD_ARG s1

/-- ENCODE_BURST, BBW command 0x0001 (R166). -/
def execEncodeBurst (src : CmdSrc) (s : State) : Host.Outcome State Fault Refusal :=
  .next (issue .bbw 0x0001 src runEncodeBurst s)

/-- The completion of ENCODE_BURST: the carrier words written, BBW_ENC_LEN set. -/
def finishEncodeBurst (o : Outstanding) (s : State) : State :=
  let hd := burstInput s o
  let h := bbHeader hd
  let s1 := touchArea o.a0.toNat (12 + h.len) (freeEncode o s)
  if encodeBurstArgs s1 o then
    let out := burstSymbols hd (busBytes s1 (o.a0.toNat + 12) h.len) (burstCodes s1 o h) s1.bbw.cur.pmask
    done .bbw CODE.OK (setF .bbw BBW_ENC_LEN.SYMBOLS (min out.length 0xFFFF)
      (busWriteWords o.a1.toNat (out.flatten.map (·.toNat)) s1))
  else done .bbw CODE.BAD_ARG s1

/-- The abort of ENCODE_BURST: its output area is undefined (R166). -/
def abortEncodeBurst (o : Outstanding) (s : State) : State :=
  let h := bbHeader (burstInput s o)
  done .bbw CODE.ABORTED (leaveOpen o.a1.toNat (6900 * burstSymbolCount s.bbw.cur.pmask h (burstCodes s o h)) (freeEncode o s))

/-- The 54 words of a port's dynamic notches (R166). -/
def dynWords (s : State) (p : Nat) : List Nat :=
  let m := (s.bbw.notches.filter (fun n => decide (n.port = p))).foldl (fun a n => a ||| 2 ^ n.carrier) 0
  (List.range 54).map (fun w => m / 2 ^ (32 * w) % 2 ^ 32)

/-- READ_DYN (R166). -/
def runReadDyn (o : Outstanding) (s : State) : State :=
  if o.a0.toNat ≤ 51 ∧ o.a1.toNat % 4 = 0 ∧ inHostArea o.a1.toNat 216 then
    done .bbw CODE.OK (busWriteWords o.a1.toNat (dynWords s o.a0.toNat) s)
  else done .bbw CODE.BAD_ARG s

/-- READ_DYN, BBW command 0x0002 (R166). -/
def execReadDyn (src : CmdSrc) (s : State) : Host.Outcome State Fault Refusal := .next (issue .bbw 0x0002 src runReadDyn s)

end Sys2Proof.Machine
end

