-- ==== Sys2Proof/Machine/Crypto.lean ====
section
/-!
DEFINITION. Sys2Proof/Machine/Crypto.lean: AES, GCM (NIST SP 800-38D) and AES key wrap (NIST SP 800-38F), as R319 and R326 name them.
-/
namespace Sys2Proof.Machine

/-! AES. -/

/-- Doubling in the field of AES. -/
def xtime (b : Nat) : Nat := if 128 ≤ b then (b * 2 % 256) ^^^ 0x1B else b * 2

/-- Multiplication in the field of AES, by the bits of the second factor; `fuel` bounds them. -/
def gmul : Nat → Nat → Nat → Nat
  | 0, _, _ => 0
  | fuel + 1, a, b => (if b % 2 = 1 then a else 0) ^^^ gmul fuel (xtime a) (b / 2)

/-- A power in the field of AES. -/
def gpow (a : Nat) : Nat → Nat
  | 0 => 1
  | n + 1 => gmul 8 (gpow a n) a

/-- A byte rotated left. -/
def rotl8 (b n : Nat) : Nat := b * 2 ^ n % 256 + b / 2 ^ (8 - n)

/-- The S-box: the inverse in the field, then the affine map. -/
def sboxOf (b : Nat) : Nat :=
  let i := gpow b 254
  i ^^^ rotl8 i 1 ^^^ rotl8 i 2 ^^^ rotl8 i 3 ^^^ rotl8 i 4 ^^^ 0x63

/-- The S-box as a table. -/
def sboxTable : List Nat := (List.range 256).map sboxOf

/-- The S-box of a byte. -/
def sbox (b : Byte) : Byte := byteOf (sboxTable.getD b.toNat 0)

/-- The S-box's inverse. -/
def invSbox (b : Byte) : Byte := byteOf ((sboxTable.idxOf? b.toNat).getD 0)

/-- Two byte strings combined bit by bit, as long as the shorter. -/
def xorBytes (a b : List Byte) : List Byte := (a.zip b).map (fun e => e.1 ^^^ e.2)

/-- The product of a byte and a constant in the field of AES. -/
def mulByte (k : Nat) (b : Byte) : Byte := byteOf (gmul 8 b.toNat k)

/-- A word of the key schedule rotated by a byte. -/
def rotWord (w : List Byte) : List Byte := w.drop 1 ++ w.take 1

/-- The round constant of a word. -/
def rcon (i : Nat) : List Byte := [byteOf (gpow 2 (i - 1)), 0, 0, 0]

/-- The next word of the key schedule, from the words so far and the words of the key. -/
def nextWord (nk : Nat) (ws : List (List Byte)) : List Byte :=
  let i := ws.length
  let t := ws.getD (i - 1) []
  let u := if i % nk = 0 then xorBytes ((rotWord t).map sbox) (rcon (i / nk))
    else if 6 < nk ∧ i % nk = 4 then t.map sbox else t
  xorBytes (ws.getD (i - nk) []) u

/-- The key schedule grown by `n` words. -/
def growKey (nk : Nat) : Nat → List (List Byte) → List (List Byte)
  | 0, ws => ws
  | n + 1, ws => growKey nk n (ws ++ [nextWord nk ws])

/-- A list of bytes cut into pieces of `k`; `n` bounds their number. -/
def pieces (k : Nat) : Nat → List Byte → List (List Byte)
  | 0, _ => []
  | n + 1, l => if l.isEmpty then [] else l.take k :: pieces k n (l.drop k)

/-- The round keys of a key of 16 or 32 bytes. -/
def roundKeys (key : List Byte) : List (List Byte) :=
  let nk := key.length / 4
  let ws := growKey nk (4 * (nk + 7) - nk) (pieces 4 nk key)
  pieces 16 (nk + 7) ws.flatten

/-- The positions that ShiftRows takes bytes from. -/
def shiftFrom : List Nat := [0, 5, 10, 15, 4, 9, 14, 3, 8, 13, 2, 7, 12, 1, 6, 11]

/-- The positions that the inverse of ShiftRows takes bytes from. -/
def unshiftFrom : List Nat := [0, 13, 10, 7, 4, 1, 14, 11, 8, 5, 2, 15, 12, 9, 6, 3]

/-- Bytes taken from positions. -/
def permute (ps : List Nat) (b : List Byte) : List Byte := ps.map (fun i => b.getD i 0)

/-- One column multiplied by a circulant of four constants. -/
def mixColumn (k : List Nat) (c : List Byte) : List Byte :=
  (List.range 4).map (fun r => (List.range 4).foldl (fun a j => a ^^^ mulByte (k.getD ((j + 4 - r) % 4) 0) (c.getD j 0)) 0)

/-- Every column of a block multiplied. -/
def mixColumns (k : List Nat) (b : List Byte) : List Byte := (pieces 4 4 b).flatMap (mixColumn k)

/-- The rounds of encryption over the round keys left. -/
def encRounds : List (List Byte) → List Byte → List Byte
  | [], b => b
  | [k], b => xorBytes (permute shiftFrom (b.map sbox)) k
  | k :: ks, b => encRounds ks (xorBytes (mixColumns [2, 3, 1, 1] (permute shiftFrom (b.map sbox))) k)

/-- AES encryption of a 16-byte block. -/
def aesEnc (key b : List Byte) : List Byte :=
  match roundKeys key with
  | [] => b
  | k :: ks => encRounds ks (xorBytes b k)

/-- The rounds of decryption over the round keys left, last first. -/
def decRounds : List (List Byte) → List Byte → List Byte
  | [], b => b
  | [k], b => xorBytes ((permute unshiftFrom b).map invSbox) k
  | k :: ks, b => decRounds ks (mixColumns [14, 11, 13, 9] (xorBytes ((permute unshiftFrom b).map invSbox) k))

/-- AES decryption of a 16-byte block. -/
def aesDec (key b : List Byte) : List Byte :=
  match (roundKeys key).reverse with
  | [] => b
  | k :: ks => decRounds ks (xorBytes b k)

/-! GCM with a 96-bit nonce. -/

/-- The product of GHASH: blocks as numbers whose bit 127 is the first; `n` counts the bits of `x` left. -/
def ghashMul (x : Nat) : Nat → Nat → Nat → Nat
  | 0, _, z => z
  | n + 1, v, z =>
    ghashMul x n (if v % 2 = 1 then v / 2 ^^^ (0xE1 * 2 ^ 120) else v / 2) (if x.testBit n then z ^^^ v else z)

/-- GHASH over 16-byte blocks. -/
def ghash (h : Nat) (l : List Byte) : Nat :=
  (pieces 16 (l.length / 16 + 1) l).foldl (fun y b => ghashMul (y ^^^ ofBE b) 128 h 0) 0

/-- Bytes filled with zeros to a multiple of 16. -/
def pad16 (l : List Byte) : List Byte := padTo (ceilDiv l.length 16 * 16) l

/-- The key stream of `n` blocks from counter `c` on. -/
def keyStream (key nonce : List Byte) (c n : Nat) : List Byte :=
  (List.range n).flatMap (fun i => aesEnc key (nonce ++ beBytes 4 (c + i)))

/-- Counter mode from counter 2 on. -/
def gcmCtr (key nonce l : List Byte) : List Byte := xorBytes l (keyStream key nonce 2 (ceilDiv l.length 16))

/-- The 16-byte tag over authenticated data and ciphertext (R319). -/
def gcmTag (key nonce aad ct : List Byte) : List Byte :=
  let h := ofBE (aesEnc key (List.replicate 16 0))
  let s := ghash h (pad16 aad ++ pad16 ct ++ beBytes 8 (aad.length * 8) ++ beBytes 8 (ct.length * 8))
  xorBytes (beBytes 16 s) (aesEnc key (nonce ++ beBytes 4 1))

/-- Authenticated encryption: the ciphertext, then a tag of `t` bytes (R319). -/
def gcmSeal (key nonce aad plain : List Byte) (t : Nat) : List Byte :=
  let ct := gcmCtr key nonce plain
  ct ++ (gcmTag key nonce aad ct).take t

/-- Authenticated decryption: the plaintext when the tag verifies (R334). -/
def gcmOpen (key nonce aad ct tag : List Byte) : Option (List Byte) :=
  if (gcmTag key nonce aad ct).take tag.length = tag then some (gcmCtr key nonce ct) else none

/-! AES key wrap with the default IV (R326). -/

/-- The default IV of key wrap. -/
def kwIv : List Byte := List.replicate 8 0xA6

/-- One step of wrapping: the register, the step count and a block. -/
def wrapStep (kek : List Byte) (a : List Byte) (t : Nat) (r : List Byte) : List Byte × List Byte :=
  let b := aesEnc kek (a ++ r)
  (xorBytes (b.take 8) (beBytes 8 t), b.drop 8)

/-- One pass of wrapping over the blocks, with the step count of the first. -/
def wrapPass (kek : List Byte) : List (List Byte) → List Byte → Nat → List Byte × List (List Byte)
  | [], a, _ => (a, [])
  | r :: rs, a, t =>
    let (a1, r1) := wrapStep kek a t r
    let (a2, rest) := wrapPass kek rs a1 (t + 1)
    (a2, r1 :: rest)

/-- The six passes of wrapping, from pass `j`. -/
def wrapPasses (kek : List Byte) (n : Nat) : Nat → Nat → List Byte → List (List Byte) → List Byte × List (List Byte)
  | 0, _, a, rs => (a, rs)
  | fuel + 1, j, a, rs =>
    let (a1, rs1) := wrapPass kek rs a (n * j + 1)
    wrapPasses kek n fuel (j + 1) a1 rs1

/-- A key wrapped under a key-encryption key. -/
def kwWrap (kek key : List Byte) : List Byte :=
  let rs := pieces 8 (key.length / 8) key
  let (a, out) := wrapPasses kek rs.length 6 0 kwIv rs
  a ++ out.flatten

/-- One pass of unwrapping over the blocks last first, with the step count of the first of them. -/
def unwrapPass (kek : List Byte) : List (List Byte) → List Byte → Nat → List Byte × List (List Byte)
  | [], a, _ => (a, [])
  | r :: rs, a, t =>
    let b := aesDec kek (xorBytes a (beBytes 8 t) ++ r)
    let (a2, rest) := unwrapPass kek rs (b.take 8) (t - 1)
    (a2, b.drop 8 :: rest)

/-- The passes of unwrapping, last pass first; blocks last first. -/
def unwrapPasses (kek : List Byte) (n : Nat) : Nat → List Byte → List (List Byte) → List Byte × List (List Byte)
  | 0, a, rs => (a, rs)
  | j + 1, a, rs =>
    let (a1, rs1) := unwrapPass kek rs a (n * (j + 1))
    unwrapPasses kek n j a1 rs1

/-- A wrapped key unwrapped, or none when its integrity check fails (R326). -/
def kwUnwrap (kek w : List Byte) : Option (List Byte) :=
  let rs := (pieces 8 (w.length / 8 - 1) (w.drop 8)).reverse
  let (a, out) := unwrapPasses kek rs.length 6 (w.take 8) rs
  if a = kwIv then some out.reverse.flatten else none

end Sys2Proof.Machine
end

