-- ==== Sys2Proof/Machine/Table.lean ====
section
/-!
DEFINITION. Sys2Proof/Machine/Table.lean: the hardware table and the parked store as the commands work on them, the layout of a context
record, and what the mirror is told of a change (spec/11_associations_and_contexts.md, R214–R216, R238, R404).
-/
namespace Sys2Proof.Machine

/-! The mirror (R402–R405). -/

/-- The run-time role of the module (R400): 0 SOLO, 1 ACTIVE, 2 STANDBY, 3 not yet settled. -/
def pairRole (s : State) : Nat := getF s .pair PAIR_STATUS.ROLE

/-- Whether the module is STANDBY (R401). -/
def standby (s : State) : Bool := decide (pairRole s = 2)

/-- Whether the peer's heartbeat is present. -/
def peerUp (s : State) : Bool := isSet s .pair PAIR_STATUS.HB_OK

/-- Whether the ACTIVE waits for acknowledgements of the mirror: SYNC is SYNCED and the peer is present (R405). -/
def mirrored (s : State) : Bool := decide (pairRole s = 1) && decide (getF s .pair PAIR_STATUS.SYNC = 2) && peerUp s

/-- The mirror lanes that are up. -/
def mirrorLanes (s : State) : List (Fin 2) := ([0, 1] : List (Fin 2)).filter (fun m => isSet s (.lanm m) LANM_STATUS.UP)

/-- The next mirror message with its header (R402). -/
def mirrorMsg (s : State) (b : MirrorBody) : MirrorMsg :=
  { unit := s.pair.unit, start := BitVec.ofNat 31 s.pair.start, seq := BitVec.ofNat 64 s.pair.seq, sfn := BitVec.ofNat 32 (sfn s)
    epoch := BitVec.ofNat 32 (getF s .pair PAIR_EPOCH.VALUE), body := b }

/-- A mirror message sent on every mirror lane that is up (R403); a module that is not paired, or whose mirror lanes are both down, sends
none. -/
def sendMirror (b : MirrorBody) (s : State) : State :=
  let lanes := mirrorLanes s
  if !s.pair.paired || lanes.isEmpty then s
  else
    let m := mirrorMsg s b
    let s1 := lanes.foldl (fun t l => count (.lanm l) LANM_TX_CNT.COUNT (emit (.mirror l.val m) t)) s
    { s1 with pair := { s1.pair with seq := s1.pair.seq + 1 } }

/-- A delta sent by the ACTIVE while the peer is present, and counted (R404). -/
def mirrorDelta (b : MirrorBody) (s : State) : State :=
  if decide (pairRole s = 1) && peerUp s && s.pair.paired then sendMirror b (count .pair PAIR_DELTA_CNT.COUNT s) else s

/-! The record layout (R214). -/

/-- A bit at a position. -/
def bitIf (b : Bool) (n : Nat) : Nat := if b then 2 ^ n else 0

/-- FLAGS of a record (R214). -/
def ctxFlags (c : Ctx) : Nat :=
  bitIf c.parkOnEnd 15 + bitIf c.sleep 14 + bitIf c.subord 13 + bitIf c.rekeyPending 12 + bitIf c.deny 11

/-- A record with FLAGS[15:11] set from a value. -/
def setCtxFlags (v : Nat) (c : Ctx) : Ctx :=
  { c with
    parkOnEnd := v.testBit 15, sleep := v.testBit 14, subord := v.testBit 13, rekeyPending := v.testBit 12, deny := v.testBit 11 }

/-- KEYINFO of a record (R214). -/
def keyInfo (c : Ctx) : Nat := bitIf c.aes256 7 + bitIf c.prevValid 6 + c.kgen

/-- The 256 bytes of a record, with its TMAP words and its three key fields as given (R214). -/
def ctxBytes (c : Ctx) (tmap key keyPrev jk : List Byte) : List Byte :=
  [byteOf (c.state * 16 + bitIf c.session 2 + bitIf c.nb 1 + bitIf c.bb 0), byteOf (keyInfo c)] ++ beBytes 2 (ctxFlags c) ++
    beBytes 8 c.epId ++ beBytes 4 c.peer ++ beBytes 4 c.anchor ++ beBytes 4 c.joinSfn ++ beBytes 4 c.lastRx ++ beBytes 2 c.sup ++
    beBytes 2 c.listen ++ [byteOf c.portHome, byteOf c.portDl] ++ beBytes 2 (ofSigned 16 c.tadj) ++ leBytes 3 c.quality ++ [0] ++
    [byteOf c.fseqTx, byteOf c.fseqRx] ++ beBytes 2 0 ++ tmap ++ beBytes 4 0 ++ padTo 16 (c.pgrant.take 16) ++
    beBytes 8 (bitIf c.exhausted 63 + c.icTx) ++ beBytes 8 c.icRx ++ beBytes 8 c.replay ++ beBytes 8 c.icRxPrev ++ beBytes 4 c.salt ++
    beBytes 4 c.saltPrev ++ padTo 40 (key.take 40) ++ padTo 40 (keyPrev.take 40) ++ padTo 24 (jk.take 24) ++ beBytes 4 c.rxCnt ++
    beBytes 4 c.txCnt ++ beBytes 2 c.authFail ++ beBytes 2 c.replayed ++ beBytes 8 c.hostTag ++ beBytes 12 0

/-- The record that 256 bytes spell (R214), its TMAP words apart. -/
def ofCtxBytes (l : List Byte) : Ctx :=
  let b0 := leAt l 0 1
  let b1 := leAt l 1 1
  setCtxFlags (beAt l 2 2)
    { Ctx.zero with
      state := b0 / 16, session := b0.testBit 2, nb := b0.testBit 1, bb := b0.testBit 0
      aes256 := b1.testBit 7, prevValid := b1.testBit 6, kgen := b1 % 8
      epId := beAt l 4 8, peer := beAt l 0x0C 4, anchor := beAt l 0x10 4, joinSfn := beAt l 0x14 4, lastRx := beAt l 0x18 4
      sup := beAt l 0x1C 2, listen := beAt l 0x1E 2, portHome := beAt l 0x20 1, portDl := beAt l 0x21 1
      tadj := signedOf 16 (beAt l 0x22 2), quality := leAt l 0x24 3, fseqTx := beAt l 0x28 1, fseqRx := beAt l 0x29 1
      pgrant := slice l 0x40 16, icTx := beAt l 0x50 8 % 2 ^ 40, exhausted := (beAt l 0x50 8).testBit 63
      icRx := beAt l 0x58 8 % 2 ^ 40, replay := beAt l 0x60 8, icRxPrev := beAt l 0x68 8 % 2 ^ 40, salt := beAt l 0x70 4
      saltPrev := beAt l 0x74 4, key := slice l 0x78 40, keyPrev := slice l 0xA0 40, jk := slice l 0xC8 24
      rxCnt := beAt l 0xE0 4, txCnt := beAt l 0xE4 4, authFail := beAt l 0xE8 2, replayed := beAt l 0xEA 2
      hostTag := beAt l 0xEC 8 }

/-- The word of TMAP for a link: valid with the entry's position in the store, or 0 (R154, R214). -/
def tmapWord (s : State) (a : Nat) (down : Bool) (phase : Nat) : Nat :=
  match s.bbw.tmaps.findIdx? (fun e => decide (e.addr = a) && (e.down == down) && (!down || decide (e.port % 3 = phase))) with
  | none => 0
  | some i => 2 ^ 31 + i

/-- The TMAP field of a record (R214). -/
def tmapField (s : State) (a : Nat) : List Byte :=
  beBytes 4 (tmapWord s a false 0) ++ [0, 1, 2].flatMap (fun p => beBytes 4 (tmapWord s a true p))

/-! Wrapped keys (R326). -/

/-- A key of 16 or 32 bytes wrapped and filled to a field of `n` bytes. -/
def wrapField (kek key : List Byte) (n : Nat) : List Byte := padTo n (kwWrap kek key)

/-- The key a field holds: its first 24 or 40 bytes unwrapped, or none when the integrity check fails (R326). -/
def unwrapField (kek field : List Byte) (aes256 : Bool) : Option (List Byte) :=
  if kek = [] then none else kwUnwrap kek (field.take (if aes256 then 40 else 24))

/-- Whether a key field is all zero. -/
def noField (f : List Byte) : Bool := f.all (fun b => decide (b = 0))

/-- A key field in plain form, for a mirror delta (R404): zeros where it holds no key. -/
def plainField (kek field : List Byte) (aes256 : Bool) : List Byte :=
  if noField field then [] else (unwrapField kek field aes256).getD []

/-- The 256 bytes of a record as a mirror delta carries them, with its keys in plain form (R404). -/
def mirrorBytes (s : State) (i : Nat) (c : Ctx) : List Byte :=
  ctxBytes c (tmapField s i) (plainField s.cip.kwk c.key c.aes256) (plainField s.cip.kwk c.keyPrev c.aes256)
    (plainField s.cip.swk c.jk false)

/-- A CTX_DELTA of the whole record (R404). -/
def ctxDelta (i : Nat) (s : State) (c : Ctx) : State :=
  mirrorDelta (.ctxDelta (BitVec.ofNat 20 i) 0 (mirrorBytes s i c)) s

/-! The hardware table (R213–R217). -/

/-- STATE codes of R215. -/
def CST.FREE : Nat := 0
/-- JOINING. -/
def CST.JOINING : Nat := 1
/-- ACCEPTED. -/
def CST.ACCEPTED : Nat := 2
/-- ACTIVE. -/
def CST.ACTIVE : Nat := 3
/-- LEAVING. -/
def CST.LEAVING : Nat := 4
/-- PROVISIONED. -/
def CST.PROVISIONED : Nat := 8
/-- PARKED. -/
def CST.PARKED : Nat := 9
/-- FAULTED. -/
def CST.FAULTED : Nat := 15

/-- The slots of the hardware table (R213). -/
def tableSize : Nat := 1048576

/-- The records the parked store holds (R238). -/
def parkedSize : Nat := 16777216

/-- A slot of the hardware table. -/
def assoc (s : State) (i : Nat) : Assoc := Map.get (fun _ => Assoc.free) s.mac.table i

/-- The record in a slot of the hardware table. -/
def ctx (s : State) (i : Nat) : Ctx := (assoc s i).c

/-- The state with the MAC changed. -/
def setMac (m : MacSt) (s : State) : State := { s with mac := m }

/-- Whether a state counts in ASC_LIVE. -/
def isLive (st : Nat) : Bool := decide (st = CST.ACTIVE) || decide (st = CST.LEAVING)

/-- Whether a state counts in ASC_JOINING. -/
def isJoining (st : Nat) : Bool := decide (st = CST.JOINING) || decide (st = CST.ACCEPTED)

/-- The slots whose record satisfies a test, in rising order of index. -/
def slotsWhere (s : State) (p : Assoc → Bool) : List Nat := (s.mac.table.filter (fun e => p e.2)).map (·.1)

/-- Whether the table is full (R239). -/
def tableFull (s : State) : Bool := decide (tableSize ≤ (slotsWhere s (fun a => decide (a.c.state ≠ CST.FREE))).length)

/-- ASC_LIVE, ASC_JOINING and STATUS.FULL brought up to date with the table; TABLE_FULL is raised when the table becomes full (R239). -/
def refreshTable (s : State) : State :=
  let s1 := setF .asc ASC_LIVE.COUNT (slotsWhere s (fun a => isLive a.c.state)).length s
  let s2 := setF .asc ASC_JOINING.COUNT (slotsWhere s (fun a => isJoining a.c.state)).length s1
  let full := tableFull s
  if full = isSet s .asc ASC_STATUS.FULL then s2
  else if full then raise .asc ASC_INT.TABLE_FULL (setB .asc ASC_STATUS.FULL true s2)
  else setB .asc ASC_STATUS.FULL false s2

/-- A slot changed: the table's counts follow, and the mirror is told of a changed record (R404). -/
def setAssoc (i : Nat) (a : Assoc) (s : State) : State :=
  let old := assoc s i
  let s1 := setMac { s.mac with table := Map.set (fun _ => Assoc.free) s.mac.table i a } s
  let s2 := if old.c.state = a.c.state then s1 else refreshTable s1
  if old.c = a.c then s2 else ctxDelta i s2 a.c

/-- The record of a slot changed. -/
def setCtx (i : Nat) (c : Ctx) (s : State) : State := setAssoc i { assoc s i with c := c } s

/-- The lowest number that a rising list of keys does not hold, from `n` on. -/
def lowestGap : Nat → List Nat → Nat
  | n, [] => n
  | n, k :: r => if k = n then lowestGap (n + 1) r else n

/-- The FREE slot a join takes: the lowest. DESIGN CHOICE (log 9): the spec names no order. -/
def freeSlot (s : State) : Option Nat :=
  let n := lowestGap 0 (slotsWhere s (fun a => decide (a.c.state ≠ CST.FREE)))
  if n < tableSize then some n else none

/-- The slots in a state. -/
def slotsIn (s : State) (st : Nat) : List Nat := slotsWhere s (fun a => decide (a.c.state = st))

/-! The parked store (R238). -/

/-- A record of the parked store. -/
def parkedRec (s : State) (i : Nat) : Ctx := Map.get (fun _ => Ctx.zero) s.mac.parked i

/-- A record of the parked store changed; ASC_PARKED and STATUS.PARKED_FULL follow. -/
def setParked (i : Nat) (c : Ctx) (s : State) : State :=
  let s1 := setMac { s.mac with parked := Map.set (fun _ => Ctx.zero) s.mac.parked i c } s
  let n := s1.mac.parked.length
  setB .asc ASC_STATUS.PARKED_FULL (decide (parkedSize ≤ n)) (setF .asc ASC_PARKED.COUNT n s1)

/-- The lowest parked index without a record. DESIGN CHOICE (log 9). -/
def freeParked (s : State) : Option Nat :=
  let n := lowestGap 0 (Map.keys s.mac.parked)
  if n < parkedSize then some n else none

/-- The parked record with an EP_ID (R228). -/
def findParked (s : State) (ep : Nat) : Option Nat :=
  (s.mac.parked.find? (fun e => decide (e.2.epId = ep))).map (·.1)

/-- The slot other than `i` that holds an EP_ID in a state that a test accepts, FAULTED and FREE slots apart. -/
def findSlot (s : State) (ep i : Nat) (p : Nat → Bool) : Option Nat :=
  (s.mac.table.find? (fun e => decide (e.1 ≠ i) && decide (e.2.c.epId = ep) && p e.2.c.state)).map (·.1)

/-- Whether a parked record has been promoted into a slot (R238). -/
def promoted (s : State) (i : Nat) : Bool :=
  !(slotsWhere s (fun a => (isLive a.c.state || isJoining a.c.state) && decide (a.c.epId ≠ 0) && decide (a.parked = i))).isEmpty

/-! The relay table (R251) and the tree routes (R261). -/

/-- An entry of the relay table. -/
def relay (s : State) (i : Nat) : Relay := Map.get (fun _ => Relay.clear) s.mac.relays i

/-- NB_FLOOD of an entry (R251). -/
def Relay.flood (r : Relay) : Bool := decide (0 < r.nbHops) || decide (1 < r.bdepth)

/-- The eight bytes of an entry (R251). -/
def Relay.bytes (r : Relay) : List Byte :=
  [byteOf (bitIf r.flood 7 + r.nbHops), byteOf (bitIf r.routed 7 + bitIf r.learned 6 + r.bdepth)] ++
    beBytes 3 (bitIf r.valid 23 + r.next) ++ [byteOf r.bbHops, byteOf r.roles, 0]

/-- The entry that eight bytes spell (R251). -/
def Relay.ofBytes (l : List Byte) : Relay :=
  let b0 := leAt l 0 1
  let b1 := leAt l 1 1
  let n := beAt l 2 3
  ⟨b0 % 64, b1.testBit 7, b1.testBit 6, b1 % 8, n.testBit 23, n % 2 ^ 20, leAt l 5 1 % 64, leAt l 6 1 % 8⟩

/-- An entry of the relay table changed, with its AUX_DELTA (R404). -/
def setRelay (i : Nat) (r : Relay) (s : State) : State :=
  if relay s i = r then s
  else mirrorDelta (.relayDelta (BitVec.ofNat 20 i) r.bytes)
    (setMac { s.mac with relays := Map.set (fun _ => Relay.clear) s.mac.relays i r } s)

/-- The tree route entry of a SESSION index: LOCAL, and the holder's LINK index (R261). -/
def route (s : State) (i : Nat) : Option (Bool × Nat) := s.mac.routes.lookup i

/-- A tree route entry set or cleared, with its AUX_DELTA (R261, R404). -/
def setRoute (i : Nat) (r : Option (Bool × Nat)) (s : State) : State :=
  let rest := s.mac.routes.filter (fun e => decide (e.1 ≠ i))
  match r with
  | none =>
    if (route s i).isNone then s
    else mirrorDelta (.routeDelta (BitVec.ofNat 20 i) 0) (setMac { s.mac with routes := rest } s)
  | some (loc, k) =>
    mirrorDelta (.routeDelta (BitVec.ofNat 20 i) (BitVec.ofNat 32 (2 ^ 31 + bitIf loc 30 + k)))
      (setMac { s.mac with routes := rest ++ [(i, loc, k)] } s)

end Sys2Proof.Machine
end

