-- ==== Sys2Proof/Machine/CipOps.lean ====
section
/-!
DEFINITION. Sys2Proof/Machine/CipOps.lean: what the cipher engine does with one job: its checks, its key, its nonce and counter, its result
and its counts (spec/16_cipher_engine.md, R322–R338).
-/
namespace Sys2Proof.Machine

/-! Job statuses (R336). -/

/-- OK. -/
def JST.OK : Nat := 0x00
/-- AUTH_FAIL. -/
def JST.AUTH_FAIL : Nat := 0x01
/-- LENGTH. -/
def JST.LENGTH : Nat := 0x02
/-- EXHAUSTED. -/
def JST.EXHAUSTED : Nat := 0x03
/-- NO_KEY. -/
def JST.NO_KEY : Nat := 0x04
/-- BAD_WRAP. -/
def JST.BAD_WRAP : Nat := 0x05
/-- NONCE_REUSE. -/
def JST.NONCE_REUSE : Nat := 0x06
/-- BAD_DESC. -/
def JST.BAD_DESC : Nat := 0x07
/-- NO_RESERVE. -/
def JST.NO_RESERVE : Nat := 0x08
/-- FAULT. -/
def JST.FAULT : Nat := 0x09
/-- ABANDONED. -/
def JST.ABANDONED : Nat := 0x0A
/-- RESET. -/
def JST.RESET : Nat := 0x0B

/-- The operations (R324). -/
def OP.ENCRYPT : Nat := 0
/-- DECRYPT. -/
def OP.DECRYPT : Nat := 1
/-- KEYGEN. -/
def OP.KEYGEN : Nat := 2
/-- DERIVE. -/
def OP.DERIVE : Nat := 3
/-- WRAP. -/
def OP.WRAP : Nat := 4

/-- KEY_SEL codes (R325). -/
def SEL.CURRENT : Nat := 0
/-- PREVIOUS. -/
def SEL.PREVIOUS : Nat := 1
/-- JOIN. -/
def SEL.JOIN : Nat := 2
/-- BEACON. -/
def SEL.BEACON : Nat := 3
/-- BEACON_NEXT. -/
def SEL.BEACON_NEXT : Nat := 4
/-- PARENT_BEACON. -/
def SEL.PARENT_BEACON : Nat := 5
/-- PARENT_BEACON_NEXT. -/
def SEL.PARENT_BEACON_NEXT : Nat := 6
/-- GROUP. -/
def SEL.GROUP : Nat := 7
/-- TEST. -/
def SEL.TEST : Nat := 8

/-- A job with every field 0. -/
def Job.zero : Job :=
  ⟨0, false, 0, false, false, 0, 0, 0, 0, 0, 0, [], 0, [], 0, 0, [], [], false, 0, 0, none, [], 0⟩

/-! Random values (R328). -/

/-- `n` bytes drawn from the random source, at most 32. -/
def randBytes (n : Nat) (s : State) : List Byte × State :=
  let (v, t) := draw s
  (beBytes n v.toNat, t)

/-! Keys (R325–R327). -/

/-- What the engine finds for KEY_SEL: a status, the wrapped field (or none for a key held in plain form) with its size, the key in plain
form, the salt, and the generation. -/
structure FoundKey where
  status : Nat
  field : Option (List Byte)
  aes256 : Bool
  key : List Byte
  salt : Nat
  gen : Nat
deriving DecidableEq, Repr

/-- No key. -/
def FoundKey.none_ : FoundKey := ⟨JST.NO_KEY, none, false, [], 0, 0⟩

/-- A beacon key as a found key. -/
def beaconFound (k : Option BeaconKey) : FoundKey :=
  match k with
  | none => FoundKey.none_
  | some b => ⟨JST.OK, none, false, b.key, b.salt, b.gen⟩

/-- A wrapped field unwrapped under a wrapping key (R326). -/
def fieldFound (kek field : List Byte) (aes256 : Bool) (salt gen : Nat) : FoundKey :=
  if noField field then FoundKey.none_
  else match unwrapField kek field aes256 with
    | none => ⟨JST.BAD_WRAP, some field, aes256, [], salt, gen⟩
    | some k => ⟨JST.OK, some field, aes256, k, salt, gen⟩

/-- The generation before a generation. -/
def prevGen (g : Nat) : Nat := (g + 7) % 8

/-- The key that a job names (R325). -/
def findKey (s : State) (j : Job) : FoundKey :=
  let c := ctx s j.index
  match j.sel with
  | 0 => if j.kgen ≠ c.kgen then FoundKey.none_ else fieldFound s.cip.kwk c.key c.aes256 c.salt c.kgen
  | 1 => if !c.prevValid ∨ j.kgen ≠ prevGen c.kgen then FoundKey.none_
    else fieldFound s.cip.kwk c.keyPrev c.aes256 c.saltPrev (prevGen c.kgen)
  | 2 => fieldFound s.cip.swk c.jk false 0 0
  | 3 => beaconFound s.mac.bkey
  | 4 => beaconFound (s.mac.bnext.map (·.1))
  | 5 => beaconFound s.mac.parent.bkey
  | 6 => beaconFound (s.mac.parent.bnext.map (·.1))
  | 7 => beaconFound s.mac.bkey
  | 8 => if s.cip.testKey = [] then FoundKey.none_ else ⟨JST.OK, none, false, s.cip.testKey, 0, 0⟩
  | _ => FoundKey.none_

/-- The key cache looked up with a wrapped field: a miss is counted and the field is held, in place of the oldest entry when the cache is full
(R327). DESIGN CHOICE (log 9) for the entry replaced. -/
def cacheLook (field : Option (List Byte)) (s : State) : Bool × State :=
  match field with
  | none => (false, s)
  | some f =>
    if s.cip.kcache.contains f then (false, s)
    else
      let rest := if s.cip.kcache.length < 4096 then s.cip.kcache else s.cip.kcache.drop 1
      (true, count .cip CIP_KCACHE_MISS_CNT.COUNT { s with cip := { s.cip with kcache := rest ++ [f] } })

/-! Checks (R322–R325, R332, R335). -/

/-- The halves of an explicit nonce. -/
def nonceHalves (n : Nat) : Nat × Nat := (n / 2 ^ 48, n % 2 ^ 48)

/-- Whether an explicit nonce is accepted for a job's KEY_SEL and operation (R332). -/
def explicitOk (j : Job) : Bool :=
  let h := nonceHalves j.nonce
  if j.sel = SEL.JOIN then
    (decide (j.op = OP.DECRYPT) && decide (j.plen = 0) && decide (h.1 ≠ 0) && decide (h.2 = 0)) ||
      ((decide (j.op = OP.ENCRYPT) || decide (j.op = OP.DERIVE)) && decide (h.1 ≠ 0) && decide (h.2 ≠ 0) && decide (h.1 ≠ h.2))
  else if j.sel = SEL.BEACON ∨ j.sel = SEL.BEACON_NEXT then
    decide (j.op = OP.ENCRYPT) && decide (j.plen = 0) && decide (j.nonce / 2 ^ 75 = 0x1FFFFF)
  else if j.sel = SEL.PARENT_BEACON ∨ j.sel = SEL.PARENT_BEACON_NEXT then decide (j.op = OP.DECRYPT) && decide (j.plen = 0)
  else if j.sel = SEL.TEST then decide (j.op = OP.ENCRYPT) || decide (j.op = OP.DECRYPT)
  else false

/-- Whether a job without an explicit nonce is a combination that R324, R325 and R332 allow. -/
def contextOk (j : Job) : Bool :=
  (decide (j.sel = SEL.CURRENT) || decide (j.sel = SEL.PREVIOUS) || decide (j.sel = SEL.GROUP)) && decide (j.op ≠ OP.DERIVE) &&
    !(decide (j.sel = SEL.PREVIOUS) && decide (j.op = OP.ENCRYPT))

/-- The frame core that owns the record a job reads submitted it (R217, R325): record `i` is served by frame core `i` mod 16. DESIGN CHOICE
(log 9): the spec does not say which core serves which record. -/
def ownerOk (ring : Nat) (j : Job) : Bool := !(decide (j.sel ≤ SEL.JOIN)) || decide (j.index % 16 = ring)

/-- The bytes of the key that a wrapped field of a KEY_INSERT job holds. -/
def insertKey (s : State) (j : Job) : Option (List Byte) :=
  let kek := if j.param.testBit 0 then s.cip.swk else s.cip.kwk
  match unwrapField kek j.insert true with
  | some k => some k
  | none => unwrapField kek j.insert false

/-- Whether a job inserts a key (R324). -/
def inserts (j : Job) : Bool := j.keyInsert && decide (j.op = OP.ENCRYPT)

/-- Whether a job is a reserved code or combination, or its addresses or record are not the submitter's (R336 BAD_DESC). -/
def jobBad (s : State) (ring : Nat) (j : Job) : Bool :=
  j.bad || decide (OP.WRAP < j.op) || decide (SEL.TEST < j.sel) || !(if j.explicit then explicitOk j else contextOk j) ||
    !ownerOk ring j || (decide (j.op = OP.WRAP) && decide (j.plen ≠ 16) && decide (j.plen ≠ 32)) ||
    (inserts j && match insertKey s j with | some k => decide (j.plen < j.keyOff + k.length) | none => false)

/-- Whether a job's lengths exceed the limits of R335. -/
def jobLong (j : Job) : Bool :=
  decide (16384 < j.plen) || decide (256 < j.hlen) || (!j.tag16 && decide (240 < j.plen))

/-- Whether the random source fails a KEYGEN or DERIVE (R328). -/
def drbgFails (s : State) (j : Job) : Bool :=
  (decide (j.op = OP.KEYGEN) || decide (j.op = OP.DERIVE)) && !isSet s .cip CIP_STATUS.DRBG_OK

/-- Whether a job reads the key that KEY_SEL names: KEYGEN and WRAP do not (R324). -/
def needsKey (j : Job) : Bool := decide (j.op ≠ OP.KEYGEN) && decide (j.op ≠ OP.WRAP)

/-- The last nonce counter used under the beacon key that a job names (R332). -/
def beaconLast (s : State) (j : Job) : Option Nat :=
  if j.sel = SEL.BEACON then s.mac.bkey.bind (·.last) else s.mac.bnext.bind (·.1.last)

/-- Whether a beacon job repeats a nonce counter (R332). -/
def reuses (s : State) (j : Job) : Bool :=
  (decide (j.sel = SEL.BEACON) || decide (j.sel = SEL.BEACON_NEXT)) &&
    match beaconLast s j with
    | none => false
    | some v => decide (j.nonce / 2 ^ 32 % 2 ^ 40 ≤ v)

/-! Counters (R329–R333, R405). -/

/-- Whether a job is issued a counter (R329, R330). -/
def issues (j : Job) : Bool :=
  decide (j.op = OP.ENCRYPT) && (decide (j.sel = SEL.CURRENT) || decide (j.sel = SEL.GROUP))

/-- A GROUP slot. -/
def groupSlot (s : State) (g : Nat) : GroupSlot := Map.get (fun _ => GroupSlot.zero) s.cip.groups g

/-- A GROUP slot changed, with its AUX_DELTA (R404). -/
def setGroup (g : Nat) (x : GroupSlot) (s : State) : State :=
  mirrorDelta (.groupDelta (Fin.ofNat 16 g) (BitVec.ofNat 40 x.count))
    { s with cip := { s.cip with groups := Map.set (fun _ => GroupSlot.zero) s.cip.groups g x } }

/-- The group of a job. -/
def groupOfJob (j : Job) : Nat := j.param / 16

/-- The counter that a job is issued from. -/
def counterOf (s : State) (j : Job) : GroupSlot :=
  if j.sel = SEL.GROUP then groupSlot s (groupOfJob j)
  else
    let a := assoc s j.index
    ⟨a.c.icTx, a.c.exhausted, a.warned, a.reserved, a.asked⟩

/-- The counter that a job is issued from, changed. -/
def setCounter (j : Job) (x : GroupSlot) (s : State) : State :=
  if j.sel = SEL.GROUP then setGroup (groupOfJob j) x s
  else
    let a := assoc s j.index
    setAssoc j.index { a with
      c := { a.c with icTx := x.count, exhausted := x.exhausted }, warned := x.warned, reserved := x.reserved, asked := x.asked } s

/-- The end of the block of 4,096 counters that a counter lies in (R405). -/
def blockEnd (v : Nat) : Nat := (v / 4096 + 1) * 4096

/-- RESERVE sent for the block that ends at `e` (R404, R405). -/
def askReserve (j : Job) (e : Nat) (s : State) : State :=
  let g := decide (j.sel = SEL.GROUP)
  let i := if g then groupOfJob j else j.index
  let entry := (s.pair.seq, g, i, e)
  let s1 := sendMirror (.reserve g (BitVec.ofNat 20 i) (BitVec.ofNat 3 j.kgen) (BitVec.ofNat 64 e)) s
  setCounter j { counterOf s1 j with asked := e } { s1 with pair := { s1.pair with reserves := s1.pair.reserves ++ [entry] } }

/-- Whether a job's counter lies beyond the blocks reserved and mirrored (R333). -/
def mustWait (s : State) (j : Job) : Bool :=
  let x := counterOf s j
  issues j && !x.exhausted && mirrored s && decide (x.reserved ≤ x.count)

/-- The block that a waiting job needs is asked for, unless it has been (R405). -/
def waitReserve (j : Job) (s : State) : State :=
  let x := counterOf s j
  if x.asked ≤ x.count then askReserve j (blockEnd x.count) s else s

/-- The lowest counter value that raises IC_WARN (R331). -/
def icWarnAt : Nat := 2 ^ 40 - 2 ^ 24

/-- A counter issued (R330, R331): the value, whether it is in the warning range, and the state after; the block it lies in is recorded,
and the next one is asked for when 1,024 remain (R405). -/
def issueCounter (j : Job) (s : State) : Nat × Bool × State :=
  let x := counterOf s j
  let v := x.count
  let warn := decide (icWarnAt ≤ v)
  let e := max x.reserved (if mirrored s then 0 else if x.reserved ≤ v then blockEnd v else 0)
  let y : GroupSlot :=
    { count := (if v = 2 ^ 40 - 1 then v else v + 1), exhausted := decide (v = 2 ^ 40 - 1), warned := x.warned || warn
      reserved := e, asked := max x.asked e }
  let s1 := setCounter j y s
  let s2 := if warn && !x.warned then raise .cip CIP_INT.IC_WARN s1 else s1
  let s3 := if mirrored s2 && decide (y.reserved ≤ y.count + 1024) && decide (y.asked = y.reserved) then
      askReserve j (y.reserved + 4096) s2 else s2
  (v, warn, s3)

/-- The nonce of context mode (R329, R438). -/
def contextNonce (j : Job) (gen salt v : Nat) : Nat :=
  let hi := if j.sel = SEL.GROUP then (0xFFFE0 + groupOfJob j) * 16 + 8 + gen else j.index * 16 + j.dir * 8 + gen
  hi * 2 ^ 72 + v * 2 ^ 32 + salt

/-! Acceptance (R325, R330–R336). -/

/-- The status that a job's checks give before any counter is issued, in the order of R336. -/
def checkJob (s : State) (ring : Nat) (j : Job) : Nat :=
  let k := findKey s j
  if drbgFails s j then JST.FAULT
  else if jobBad s ring j then JST.BAD_DESC
  else if jobLong j then JST.LENGTH
  else if needsKey j ∧ k.status ≠ JST.OK then k.status
  else if inserts j ∧ noField j.insert then JST.NO_KEY
  else if inserts j ∧ (insertKey s j).isNone then JST.BAD_WRAP
  else if issues j ∧ (counterOf s j).exhausted then JST.EXHAUSTED
  else if reuses s j then JST.NONCE_REUSE
  else JST.OK

/-- The beacon key that a job names has used the job's nonce counter. -/
def noteBeacon (j : Job) (s : State) : State :=
  let v := j.nonce / 2 ^ 32 % 2 ^ 40
  if j.sel = SEL.BEACON then setMac { s.mac with bkey := s.mac.bkey.map (fun k => { k with last := some v }) } s
  else if j.sel = SEL.BEACON_NEXT then
    setMac { s.mac with bnext := s.mac.bnext.map (fun e => ({ e.1 with last := some v }, e.2)) } s
  else s

/-- The nonce of a held job fixed: issued, from the descriptor, or explicit (R329, R332). -/
def fixNonce (h : Held) (salt gen : Nat) (s : State) : Held × State :=
  let j := h.job
  if issues j then
    let (v, warn, s1) := issueCounter j s
    ({ h with nonce := some (contextNonce j gen salt v), warn := warn, waiting := false }, s1)
  else if j.explicit then ({ h with nonce := some j.nonce }, noteBeacon j s)
  else if j.op = OP.DECRYPT then ({ h with nonce := some (contextNonce j gen salt j.ic) }, s)
  else (h, s)

/-- A job accepted into a hold slot: its checks, its key, and its counter, or a wait for one (R325, R330–R333). -/
def acceptJob (ring pipe slot : Nat) (j : Job) (s : State) : Held × State :=
  let st := checkJob s ring j
  let k := findKey s j
  let used := decide (st = JST.OK) && needsKey j
  let (miss, s1) := if used then cacheLook k.field s else (false, s)
  let h : Held :=
    { job := j, ring := ring, pipe := pipe, slot := slot, key := if used then k.key else [], nonce := none, status := st
      warn := false, miss := miss, waiting := false, plain := [] }
  if st ≠ JST.OK then (h, s1)
  else if mustWait s1 j then ({ h with waiting := true }, waitReserve j s1)
  else fixNonce h k.salt k.gen s1

/-- A held job that waited takes its counter once its block is reserved (R333). -/
def resumeHeld (h : Held) (s : State) : Held × State :=
  if !h.waiting || mustWait s h.job then (h, s)
  else if (counterOf s h.job).exhausted then ({ h with waiting := false, status := JST.EXHAUSTED }, s)
  else
    let k := findKey s h.job
    fixNonce h k.salt k.gen s

/-! Results (R323, R324, R334). -/

/-- The key that a wrapping operation writes under (R322 PARAM[0]). -/
def targetKek (s : State) (j : Job) : List Byte := if j.param.testBit 0 then s.cip.swk else s.cip.kwk

/-- The bytes of a list from `o` on replaced by others. -/
def patch (l : List Byte) (o : Nat) (p : List Byte) : List Byte := l.take o ++ p ++ l.drop (o + p.length)

/-- The plaintext of an ENCRYPT, with the inserted key in its place (R324). -/
def jobPlain (s : State) (j : Job) : List Byte :=
  if inserts j then patch j.payload j.keyOff ((insertKey s j).getD []) else j.payload

/-- The size in bytes of the keys that a job draws or derives. -/
def newKeyBytes (j : Job) : Nat := if j.param.testBit 1 then 32 else 16

/-- The bytes of an accepted job's nonce. -/
def nonceBytes (h : Held) : List Byte := beBytes 12 (h.nonce.getD 0)

/-- The result of a job whose status is OK so far: the status, the output bytes, and the state after its draws (R324, R334). -/
def jobResult (h : Held) (s : State) : Nat × List Byte × State :=
  let j := h.job
  let t := if j.tag16 then 16 else 8
  if j.op = OP.ENCRYPT then (JST.OK, gcmSeal h.key (nonceBytes h) j.hdr (jobPlain s j) t, s)
  else if j.op = OP.DECRYPT then
    match gcmOpen h.key (nonceBytes h) j.hdr j.payload j.tag with
    | none => (JST.AUTH_FAIL, [], s)
    | some l => (JST.OK, l, s)
  else if j.op = OP.KEYGEN then
    let (k, s1) := randBytes (newKeyBytes j) s
    let (salt, s2) := randBytes 4 s1
    (JST.OK, wrapField (targetKek s j) k 40 ++ salt, s2)
  else if j.op = OP.DERIVE then
    let ks := gcmCtr h.key (nonceBytes h) (List.replicate 64 0)
    let n := newKeyBytes j
    let (a, s1) := randBytes 4 s
    let (b, s2) := randBytes 4 s1
    (JST.OK, wrapField (targetKek s j) (slice ks 0 n) 40 ++ wrapField (targetKek s j) (slice ks 32 n) 40 ++ a ++ b, s2)
  else (JST.OK, wrapField (targetKek s j) j.payload 40, s)

/-- The counts of a job's completion (R331, R334, R338 and the CIP page). -/
def countJob (status : Nat) (s : State) : State :=
  let s1 := count .cip CIP_JOB_CNT.COUNT s
  if status = JST.AUTH_FAIL then raise .cip CIP_INT.AUTH_FAIL (count .cip CIP_AUTH_FAIL_CNT.COUNT s1)
  else if status = JST.FAULT then count .cip CIP_FAULT_CNT.COUNT s1
  else if status = JST.EXHAUSTED then raise .cip CIP_INT.EXHAUSTED (count .cip CIP_REFUSE_CNT.COUNT s1)
  else if [JST.LENGTH, JST.NO_KEY, JST.BAD_WRAP, JST.NONCE_REUSE, JST.NO_RESERVE].contains status then
    count .cip CIP_REFUSE_CNT.COUNT s1
  else s1

/-- The 32-byte completion record (R337). -/
def jobRecord (h : Held) (status outLen : Nat) (late : Bool) : List Byte :=
  [byteOf status, byteOf (h.pipe + bitIf h.miss 1 + bitIf h.warn 2 + bitIf late 3)] ++ leBytes 2 h.ring ++ leBytes 4 h.job.seq ++
    (match h.nonce with | none => List.replicate 12 0 | some n => beBytes 12 n) ++ leBytes 4 outLen ++ List.replicate 8 0

/-- The pipelines in service that take new jobs (R321): in OUTAGE pipeline 1 takes none while pipeline 0 is in service. -/
def openPipes (s : State) : List Nat :=
  let p0 := isSet s .cip CIP_STATUS.P0_OK
  (if p0 then [0] else []) ++
    (if isSet s .cip CIP_STATUS.P1_OK && !(p0 && decide (s.pwr.state = .outage)) then [1] else [])

/-- P1_GATED brought up to date: in OUTAGE pipeline 1 is gated once it holds no job, while pipeline 0 is in service (R321). -/
def refreshGate (s : State) : State :=
  setB .cip CIP_STATUS.P1_GATED (decide (s.pwr.state = .outage) && isSet s .cip CIP_STATUS.P0_OK &&
    !s.cip.held.any (fun h => decide (h.pipe = 1))) s

/-- A job that a frame core or Tarlum runs to its end within one command: its status, output and nonce. A job that would wait for a reserved
counter ends NO_RESERVE with the block asked for. DESIGN CHOICE (log 16). -/
def runJob (ring : Nat) (j : Job) (s : State) : Nat × List Byte × Nat × State :=
  if openPipes s = [] then (JST.FAULT, [], 0, countJob JST.FAULT s)
  else
    let (h, s1) := acceptJob ring 0 0 j s
    if h.waiting then (JST.NO_RESERVE, [], 0, countJob JST.NO_RESERVE s1)
    else if h.status ≠ JST.OK then (h.status, [], 0, countJob h.status s1)
    else
      let (st, out, s2) := jobResult h s1
      (st, out, h.nonce.getD 0, countJob st s2)

end Sys2Proof.Machine
end

