-- ==== Sys2Proof/Machine/LinkOps.lean ====
section
/-!
DEFINITION. Sys2Proof/Machine/LinkOps.lean: the backhaul lanes, the path of uplink frames, host events and downlink completions
(R366–R383, R395, R405).
-/
namespace Sys2Proof.Machine

/-! Lanes (R366–R371). -/

/-- TTYPE codes of R370. -/
def TT.UP_DATA : Nat := 1
/-- STORED. -/
def TT.STORED : Nat := 2
/-- DOWN_DATA. -/
def TT.DOWN_DATA : Nat := 3
/-- DOWN_STATUS. -/
def TT.DOWN_STATUS : Nat := 4
/-- EVENT. -/
def TT.EVENT : Nat := 5
/-- LAST_GASP. -/
def TT.LAST_GASP : Nat := 6
/-- NGAEL. -/
def TT.NGAEL : Nat := 7
/-- DLY_REQ. -/
def TT.DLY_REQ : Nat := 8
/-- DLY_RESP. -/
def TT.DLY_RESP : Nat := 9

/-- The LAN page of a lane number. -/
def lanPage (l : Nat) : Page := .lan (Fin.ofNat 4 l)

/-- A lane beside its page. -/
def lane (s : State) (l : Nat) : LaneSt := Map.get (fun _ => LaneSt.rest) s.link.lanes l

/-- The state with the backhaul changed. -/
def setLink (x : LinkSt) (s : State) : State := { s with link := x }

/-- The state with a lane changed. -/
def setLane (l : Nat) (x : LaneSt) (s : State) : State :=
  setLink { s.link with lanes := Map.set (fun _ => LaneSt.rest) s.link.lanes l x } s

/-- Whether a lane is up (R367). -/
def laneUp (s : State) (l : Nat) : Bool := isSet s (lanPage l) LAN_STATUS.UP

/-- A frame put on the line of a lane: SEQ and LAN_TX_CNT (R369). -/
def laneTx (l : Nat) (f : TunnelFrame) (s : State) : State :=
  let x := lane s l
  count (lanPage l) LAN_TX_CNT.COUNT
    (emit (.lane l { f with seq := x.seq }) (setLane l { x with seq := (x.seq + 1) % 2 ^ 32 } s))

/-- A frame sent on a lane that is up; PAUSE holds every frame but LAST_GASP (R366, R372). -/
def laneSend (l : Nat) (f : TunnelFrame) (s : State) : State :=
  if !laneUp s l then s
  else if isSet s (lanPage l) LAN_STATUS.PAUSED ∧ f.ttype ≠ TT.LAST_GASP then
    setLane l { lane s l with wait := (lane s l).wait ++ [f] } s
  else laneTx l f s

/-- Whether a lane may carry UP_DATA (R371). -/
def tunnelLane (s : State) (l : Nat) : Bool := laneUp s l && isSet s (lanPage l) LAN_CFG.TUNNEL_EN

/-- The better of two lanes: lower PRIO, then the lower number (R371). -/
def betterLane (s : State) (a : Option Nat) (l : Nat) : Option Nat :=
  match a with
  | none => some l
  | some k => if getF s (lanPage l) LAN_CFG.PRIO < getF s (lanPage k) LAN_CFG.PRIO then some l else some k

/-- The lane chosen for UP_DATA (R371). -/
def chosenLane (s : State) : Option Nat := (([0, 1, 2, 3] : List Nat).filter (tunnelLane s)).foldl (betterLane s) none

/-- Whether PCI_TUNNEL.DEST is LANE. -/
def toLanes (s : State) : Bool := isSet s .pci PCI_TUNNEL.DEST

/-- TUNNEL_ACTIVE of every lane brought up to date. -/
def refreshTunnel (s : State) : State :=
  ([0, 1, 2, 3] : List Nat).foldl (fun t l =>
    setB (lanPage l) LAN_STATUS.TUNNEL_ACTIVE (toLanes s && decide (chosenLane s = some l)) t) s

/-! Host events (R383). -/

/-- The 64 bytes of an EVENT frame (R370, R383). -/
def eventBytes (e : EventRec) : List Byte :=
  leBytes 2 e.code ++ [0, 0] ++ leBytes 4 e.sfn ++ leBytes 4 e.index ++ leBytes 8 e.epId ++ [byteOf e.reason, 0, 0, 0] ++
    padTo 32 (e.body.take 32) ++ leBytes 8 0

/-- An event reported to the host: it waits for the EVENT ring, and with DEST = LANE it is also sent as an EVENT frame (R383). -/
def hostEvent (code index epId reason : Nat) (body : List Byte) (s : State) : State :=
  let e : EventRec := ⟨code, sfn s, index, epId, reason, body⟩
  let s1 := setLink { s.link with events := s.link.events ++ [e] } s
  match (if toLanes s then chosenLane s else none) with
  | none => s1
  | some l => laneSend l ⟨TT.EVENT, 0, none, sfn s, eventBytes e⟩ s1

/-! Uplink paths (R371, R395, R405). -/

/-- The frames of the DRAM holding area (R371). -/
def holdRoom : Nat := 65536

/-- The bytes of an SNF record (R395). -/
def SnfRec.size (r : SnfRec) : Nat := ceilDiv (40 + r.f.data.length) 32 * 32

/-- Whether records of the host's path are in the region or on their way to it (R371). -/
def regionHolds (s : State) (toParent : Bool) : Bool :=
  s.sto.snf.any (fun r => r.toParent == toParent) || s.link.toStore.any (fun r => r.toParent == toParent)

/-- A frame put on its way to the store-and-forward region; STORING is raised when uplink frames begin to go there. -/
def divert (toParent : Bool) (f : UlFrame) (s : State) : State :=
  let s1 := if regionHolds s toParent ∨ toParent then s else raise .pci PCI_INT.STORING s
  setLink { s1.link with toStore := s1.link.toStore ++ [⟨slotTime s, toParent, f⟩] } s1

/-- UP_DATA sent on a lane, remembered until its transmission has surely ended (R371). -/
def sendUp (l : Nat) (f : UlFrame) (s : State) : State :=
  let x := lane s l
  laneSend l ⟨TT.UP_DATA, 0, some f.index, f.sfn, f.data⟩ (setLane l { x with last := some { f with seq := x.seq } } s)

/-- A released uplink frame takes its path (R371): behind stored frames, on the chosen lane, or into the holding area. -/
def upPath (f : UlFrame) (s : State) : State :=
  if regionHolds s false then divert false f s
  else if toLanes s then
    match chosenLane s with
    | some l => sendUp l f s
    | none => divert false f s
  else if s.link.hold.length < holdRoom then setLink { s.link with hold := s.link.hold ++ [f] } s
  else divert false f s

/-- A verified uplink frame: it waits for the mirror's acknowledgement of its record's delta, or is released at once (R405). -/
def upVerified (f : UlFrame) (s : State) : State :=
  if mirrored s then setLink { s.link with unacked := s.link.unacked ++ [{ f with after := s.pair.seq }] } s else upPath f s

/-- Uplink frames whose delta the peer has acknowledged are released; all of them once the module no longer waits (R405). -/
def releaseAcked (s : State) : State :=
  let wait := s.link.unacked.filter (fun f => mirrored s && decide (s.pair.acked < f.after))
  let go := s.link.unacked.filter (fun f => !(mirrored s && decide (s.pair.acked < f.after)))
  go.foldl (fun t f => upPath f t) (setLink { s.link with unacked := wait } s)

/-! Downlink completions (R372, R382). -/

/-- Downlink statuses (R382, R478). -/
def DST.OK : Nat := 0
/-- NO_ACK. -/
def DST.NO_ACK : Nat := 1
/-- DWELL. -/
def DST.DWELL : Nat := 2
/-- NOT_ASSOC. -/
def DST.NOT_ASSOC : Nat := 3
/-- TOO_LONG. -/
def DST.TOO_LONG : Nat := 4
/-- EP_BUSY. -/
def DST.EP_BUSY : Nat := 5
/-- CIPHER. -/
def DST.CIPHER : Nat := 6
/-- FLUSHED. -/
def DST.FLUSHED : Nat := 7
/-- BAD_DESC. -/
def DST.BAD_DESC : Nat := 8
/-- DMA_ERR. -/
def DST.DMA_ERR : Nat := 9
/-- NO_SPACE. -/
def DST.NO_SPACE : Nat := 10
/-- SAFETY. -/
def DST.SAFETY : Nat := 11

/-- A downlink completion put on its way (R382). -/
def dlDone (ring lane : Option Nat) (cookie status attempts : Nat) (s : State) : State :=
  if ring.isNone ∧ lane.isNone then s
  else setLink { s.link with done := s.link.done ++ [⟨ring, lane, cookie, status, attempts, sfn s⟩] } s

/-- The body of a DOWN_STATUS frame (R370). -/
def downStatusBytes (d : DlDone) : List Byte :=
  beBytes 8 d.cookie ++ [byteOf d.status, byteOf d.attempts] ++ beBytes 2 0 ++ beBytes 4 d.sfn

/-- DOWN_STATUS on the lane that carried the frame, else on the chosen lane, else dropped and counted (R372). -/
def sendDownStatus (l : Nat) (d : DlDone) (s : State) : State :=
  let f : TunnelFrame := ⟨TT.DOWN_STATUS, 0, none, d.sfn, downStatusBytes d⟩
  if laneUp s l then laneSend l f s
  else match chosenLane s with
    | some k => laneSend k f s
    | none => count (lanPage l) LAN_RX_DROP_CNT.COUNT s

/-- The ring number of a completion whose place a ring or function reset took away (R386, R387). -/
def lostRing : Nat := 32

/-- A downlink completion delivered (R381, R382, R372); one that has lost its place is counted (R386). -/
def deliverDone (d : DlDone) (s : State) : State :=
  match d.ring, d.lane with
  | some r, _ =>
    if r = lostRing then count .pci PCI_CMPL_LOST_CNT.COUNT s
    else count .pci PCI_DL_DONE_CNT.COUNT (ringComplete r (.dl d.cookie d.status d.attempts d.sfn) s)
  | none, some l => sendDownStatus l d s
  | none, none => s

/-- The first downlink completion on its way delivered. -/
def deliverNext (s : State) : State :=
  match s.link.done with
  | [] => s
  | d :: rest => deliverDone d (setLink { s.link with done := rest } s)

end Sys2Proof.Machine
end

