-- ==== Sys2Proof/Machine/Mac.lean ====
section
/-!
DEFINITION. Sys2Proof/Machine/Mac.lean: protected units, elements, the downlink store and the life of an association, as the commands of
association, repeating and planning use them (spec/11_associations_and_contexts.md, R218–R237).
-/
namespace Sys2Proof.Machine

/-! Codes. -/

/-- FTYPE codes of the headers (R120, R145). -/
def FT.BEACON : Nat := 0
/-- DATA. -/
def FT.DATA : Nat := 1
/-- ACK. -/
def FT.ACK : Nat := 2
/-- ASSOC. -/
def FT.ASSOC : Nat := 3
/-- FLOOD. -/
def FT.FLOOD : Nat := 4
/-- TMAP. -/
def FT.TMAP : Nat := 5

/-- Element types (R221). -/
def EL.DATA : Nat := 1
/-- GRANT. -/
def EL.GRANT : Nat := 2
/-- QUEUE. -/
def EL.QUEUE : Nat := 3
/-- ACK. -/
def EL.ACK : Nat := 4
/-- REKEY. -/
def EL.REKEY : Nat := 5
/-- REKEY_REQ. -/
def EL.REKEY_REQ : Nat := 6
/-- LEAVE. -/
def EL.LEAVE : Nat := 7
/-- BKEY. -/
def EL.BKEY : Nat := 8
/-- LISTEN. -/
def EL.LISTEN : Nat := 9
/-- PARAMS. -/
def EL.PARAMS : Nat := 10
/-- RELAY. -/
def EL.RELAY : Nat := 11
/-- KEY_INSTALL. -/
def EL.KEY_INSTALL : Nat := 12

/-- Reasons of an end (R234). -/
def RSN.REQUESTED : Nat := 1
/-- HOST. -/
def RSN.HOST : Nat := 2
/-- REKEY_FAIL. -/
def RSN.REKEY_FAIL : Nat := 3
/-- SUPERSEDED. -/
def RSN.SUPERSEDED : Nat := 4
/-- DORMANT. -/
def RSN.DORMANT : Nat := 5
/-- TIMEOUT. -/
def RSN.TIMEOUT : Nat := 6
/-- FAULT. -/
def RSN.FAULT : Nat := 7

/-- The bytes of an element (R221). -/
def element (ty : Nat) (v : List Byte) : List Byte := [byteOf ty] ++ beBytes 2 v.length ++ v

/-- The elements of a plaintext; `fuel` bounds their number. A last element that is cut short is dropped. -/
def elements : Nat → List Byte → List (Nat × List Byte)
  | 0, _ => []
  | fuel + 1, l =>
    if l.length < 3 then []
    else
      let n := beAt l 1 2
      if l.length < 3 + n then [] else (beAt l 0 1, slice l 3 n) :: elements fuel (l.drop (3 + n))

/-! Units (R218–R220). -/

/-- A protected unit (R218). -/
structure UnitIn where
  inner : Bool
  kgen : Nat
  sec : Nat
  ic : Nat
  ct : List Byte
  tag : List Byte
deriving DecidableEq, Repr

/-- The units that fill a payload with tags of `t` bytes, or none when they do not fill it (R218). -/
def parseUnits (t : Nat) : Nat → List Byte → Option (List UnitIn)
  | 0, l => if l.isEmpty then some [] else none
  | fuel + 1, l =>
    if l.isEmpty then some []
    else
      let c := beAt l 0 2
      if l.length < 8 + c + t ∨ 16384 < c then none
      else
        let sec := beAt l 2 1
        let u : UnitIn := ⟨sec.testBit 7, sec % 8, sec, beAt l 3 5, slice l 8 c, slice l (8 + c) t⟩
        (parseUnits t fuel (l.drop (8 + c + t))).map (fun r => u :: r)

/-- The bytes of a unit (R218). -/
def unitBytes (inner : Bool) (kgen ic : Nat) (sealed : List Byte) (t : Nat) : List Byte :=
  beBytes 2 (sealed.length - t) ++ [byteOf (bitIf inner 7 + kgen)] ++ beBytes 5 ic ++ sealed

/-- The 12 bytes of additional data (R219); `w` is 0 narrowband, 1 broadband, 2 for an INNER unit (R261). -/
def unitAad (ftype w addr fseq len ulen sec pos : Nat) : List Byte :=
  [byteOf ftype, byteOf w] ++ beBytes 3 addr ++ [byteOf fseq] ++ beBytes 2 len ++ beBytes 2 ulen ++ [byteOf sec, byteOf pos]

/-- The tag length of a waveform (R218). -/
def tagLen (narrow : Bool) : Nat := if narrow then 8 else 16

/-- Whether a counter passes the replay check (R220). -/
def replayOk (c : Ctx) (kgen ic : Nat) : Bool :=
  if kgen = c.kgen then
    decide (c.icRx < ic) || (decide (ic ≤ c.icRx) && decide (c.icRx - ic < 64) && !c.replay.testBit (c.icRx - ic))
  else decide (kgen = prevGen c.kgen) && c.prevValid && decide (c.icRxPrev < ic)

/-- IC_RX and REPLAY, or IC_RX_PREV, after an accepted counter (R220). -/
def noteIc (c : Ctx) (kgen ic : Nat) : Ctx :=
  if kgen = c.kgen then
    if c.icRx < ic then { c with icRx := ic, replay := (c.replay * 2 ^ (min (ic - c.icRx) 64) + 1) % 2 ^ 64 }
    else { c with replay := c.replay ||| 2 ^ (c.icRx - ic) }
  else { c with icRxPrev := ic }

/-- A refused unit: REPLAYED and ASC_REPLAY_CNT (R220). -/
def refuseUnit (i : Nat) (s : State) : State :=
  let c := ctx s i
  raise .asc ASC_INT.REPLAY (count .asc ASC_REPLAY_CNT.COUNT (setCtx i { c with replayed := min (c.replayed + 1) 0xFFFF } s))

/-- A unit whose tag failed: AUTH_FAIL and ASC_AUTH_FAIL_CNT (R220). -/
def failUnit (i : Nat) (s : State) : State :=
  let c := ctx s i
  raise .asc ASC_INT.AUTH_FAIL (count .asc ASC_AUTH_FAIL_CNT.COUNT (setCtx i { c with authFail := min (c.authFail + 1) 0xFFFF } s))

/-- A malformed frame discarded. -/
def malformed (s : State) : State := count .asc ASC_MALFORMED_CNT.COUNT s

/-- Whether an SFN has been reached, modulo 2^32. -/
def reached (s : State) (at_ : Nat) : Bool := decide (sfnDiff (at_ % 2 ^ 32) (sfn s) < 2 ^ 31)

/-! The downlink store (R381). -/

/-- A frame with every field empty. -/
def Frame.blank : Frame :=
  ⟨0, 0, .element, none, none, 0, 0, .nb, false, FT.DATA, 0, [], true, false, [], none, none, .queued, 0, 0, 0, false, 0, 0, false, none, none, 0, 0⟩

/-- A frame put at the end of the store with the next number. -/
def addFrame (f : Frame) (s : State) : State :=
  setMac { s.mac with frames := s.mac.frames ++ [{ f with id := s.mac.nextFrame }], nextFrame := s.mac.nextFrame + 1 } s

/-- A frame of the store by its number. -/
def frameOf (s : State) (id : Nat) : Option Frame := s.mac.frames.find? (fun f => decide (f.id = id))

/-- A frame of the store replaced. -/
def setFrame (f : Frame) (s : State) : State :=
  setMac { s.mac with frames := s.mac.frames.map (fun g => if g.id = f.id then f else g) } s

/-- A frame taken out of the store. -/
def dropFrame (id : Nat) (s : State) : State :=
  setMac { s.mac with frames := s.mac.frames.filter (fun f => decide (f.id ≠ id)) } s

/-- A frame's last completion: its host descriptor or lane gets its status, and it leaves the store (R382). -/
def finishFrame (f : Frame) (status : Nat) (s : State) : State :=
  dlDone f.ring f.lane f.cookie status f.sends (dropFrame f.id s)

/-- One of the module's own frames to an index, with elements to be protected when it is placed (R221). -/
def ownFrame (kind : FrameKind) (i : Nat) (elems : List Byte) (s : State) : State :=
  addFrame { Frame.blank with kind := kind, index := i, body := elems, due := sfn s } s

/-- An unprotected frame of the module's own: ASSOC or ACK, with its payload (R222, R224). -/
def plainFrame (kind : FrameKind) (i ftype fseq : Nat) (payload : List Byte) (wave : Wave) (s : State) : State :=
  addFrame { Frame.blank with
    kind := kind, index := i, ftype := ftype, fseq := fseq, payload := payload, prot := false, wave := wave, due := sfn s } s

/-- The waveform a frame to an association takes: broadband where the association, WAVE and the power state allow it, else narrowband. DESIGN
CHOICE (log 17): where both are allowed the spec names no preference. -/
def chooseWave (s : State) (c : Ctx) (wopt : Nat) : Wave :=
  if c.bb && decide (wopt ≠ 1) && !inOutage s then .bb else if c.nb && decide (wopt ≠ 2) then .nb else if wopt = 2 then .bb else .nb

/-- Whether a narrowband downlink to an index goes as a FLOOD (R250). -/
def goesFlood (s : State) (i : Nat) : Bool := (relay s i).flood && isSet s .rpt RPT_CFG.FLOOD_EN

/-- An ACK of a received FSEQ put up for sending: an ACK frame, or an ACK element where the endpoint is reached by floods or relays (R222,
R250, R253). -/
def sendAck (i fseq : Nat) (narrow : Bool) (s : State) : State :=
  let r := relay s i
  if (narrow && goesFlood s i) || (!narrow && r.routed) then ownFrame .ack i (element EL.ACK [byteOf fseq]) s
  else plainFrame .ack i FT.ACK fseq [] (if narrow then .nb else .bb) s

/-! Towards the parent (R258, R261). -/

/-- Whether the module is a subordinate whose association with its parent is ACTIVE. -/
def parentActive (s : State) : Bool := decide (s.mac.parent.phase = .active)

/-- The parent association changed, with its AUX_DELTA (R404). -/
def setParent (p : ParentSt) (s : State) : State :=
  mirrorDelta (.parentDelta (decide (p.phase = .active)) (BitVec.ofNat 20 p.index) (mirrorBytes s p.index p.link))
    (setMac { s.mac with parent := p } s)

/-- The key of a REKEY from the parent put to use with the next unit, as an endpoint does (R236). -/
def useRekey (s : State) (p : ParentSt) : ParentSt :=
  match p.rekey with
  | none => p
  | some (key, big, salt) =>
    let c := p.link
    { p with
      rekey := none
      link := { c with
        keyPrev := c.key, saltPrev := c.salt, icRxPrev := c.icRx, prevValid := true, kgen := (c.kgen + 1) % 8
        key := wrapField s.cip.kwk key 40, aes256 := big, salt := salt, icTx := 0, icRx := 0, replay := 0 } }

/-- A protected DATA unit to the parent built from elements, with its FSEQ; the link's FSEQ and counter move on (R218, R219, R257). -/
def parentFrameUnit (narrow : Bool) (elems : List Byte) (s : State) : Nat × List Byte × State :=
  let p := useRekey s s.mac.parent
  let c := p.link
  let t := tagLen narrow
  let q := if narrow then c.fseqTx % 16 else c.fseqTx
  let aad := unitAad FT.DATA (if narrow then 0 else 1) p.index q (8 + elems.length + t) elems.length c.kgen 0
  let nonce := beBytes 12 ((p.index * 16 + c.kgen) * 2 ^ 72 + c.icTx * 2 ^ 32 + c.salt)
  let key := (unwrapField s.cip.kwk c.key c.aes256).getD []
  let c2 := { c with icTx := c.icTx + 1, fseqTx := (c.fseqTx + 1) % 256, txCnt := (c.txCnt + 1) % 2 ^ 32 }
  (q, unitBytes false c.kgen c.icTx (gcmSeal key nonce aad elems t) t, setParent { p with link := c2 } (countJob JST.OK s))

/-- A broadband DATA frame to the parent for a lane. -/
def parentFrame (elems : List Byte) (s : State) : List Byte × State :=
  let (q, body, s1) := parentFrameUnit false elems s
  let h : BbHeader := ⟨1, FT.DATA, 2, 0, 1, 0, 0, 26, body.length, s.mac.parent.index, q, 0, 0⟩
  (bbHeaderBytes h ++ body, s1)

/-- The uplink interface is a lane (R257). -/
def upIsLane (s : State) : Bool := decide (getF s .rpt RPT_TREE.UP_IF = 2)

/-- A time stamp in 10 bytes: 48-bit seconds and 32-bit nanoseconds of TRU time (R370). -/
def stamp10 (t : Int) : List Byte := beBytes 6 (t / 1000000000 % 2 ^ 48).toNat ++ beBytes 4 (t % 1000000000).toNat

/-- An Ngael frame sent on a lane, its TX_TS the start of the present slot (R257, R370, R373). DESIGN CHOICE (log 21): the model times sendings by
the slot. -/
def laneNgael (l : Nat) (frame : List Byte) (s : State) : State :=
  laneSend l ⟨TT.NGAEL, 0, none, sfn s, stamp10 (truNs s (slotTime s)) ++ frame⟩ s

/-- An element sent to the parent: at once over a lane, else held for the parent's next grant (R258). -/
def toParent (elem : List Byte) (s : State) : State :=
  if upIsLane s then
    let (f, s1) := parentFrame elem s
    laneNgael (getF s .rpt RPT_TREE.UP_LANE) f s1
  else setParent { s.mac.parent with waiting := s.mac.parent.waiting ++ [elem] } s

/-- A RELAY element (R252). -/
def relayElem (kind hops target : Nat) (body : List Byte) : List Byte :=
  element EL.RELAY ([byteOf kind, byteOf hops] ++ beBytes 3 target ++ body)

/-! The end of an association (R234, R251, R255, R261). -/

/-- Frames of the store to an index complete NOT_ASSOC; those with a job in flight go when it ends (R382). -/
def dropFrames (i : Nat) (s : State) : State :=
  (s.mac.frames.filter (fun f => decide (f.index = i) && decide (f.kind ≠ .leave) && (f.prot || decide (f.kind = .ack)))).foldl
    (fun t f => finishFrame f DST.NOT_ASSOC t) s

/-- The relay table entry of an index cleared, and every entry that names it in BB_NEXT, with ROUTE_MISS for each (R251, R255). -/
def clearRelays (i : Nat) (s : State) : State :=
  let named := (s.mac.relays.filter (fun e => e.2.routed && e.2.valid && decide (e.2.next = i))).map (·.1)
  named.foldl (fun t k =>
    raise .rpt RPT_INT.ROUTE_MISS (setRelay k { relay t k with routed := false, learned := false, valid := false, next := 0, bbHops := 0 } t))
    (setRelay i Relay.clear s)

/-- TREE_END sent where an association of a tree ends: upwards by the serving subordinate for a LINK record with a session, downwards by the
holder of a SESSION record (R261). -/
def treeEnd (i : Nat) (c : Ctx) (reason : Nat) (s : State) : State :=
  if c.session then
    let s1 := ownFrame .element (c.peer % 2 ^ 20) (relayElem 0x13 0 i [byteOf reason]) s
    setRoute i none s1
  else if c.peer.testBit 31 then
    let k := c.peer % 2 ^ 20
    let s1 := setRoute k none s
    if parentActive s then toParent (relayElem 0x13 0 k [byteOf reason]) s1 else s1
  else s

/-- The parked form of an ended record (R234). -/
def parkedForm (c : Ctx) (keep : Bool) : Ctx :=
  let d := { c with rekeyPending := false, peer := 0, pgrant := List.replicate 16 0, portHome := 0, portDl := 0, tadj := 0, quality := 0 }
  if keep then { d with state := CST.PARKED }
  else { d with
    state := CST.PROVISIONED, key := noKey, keyPrev := noKey, salt := 0, saltPrev := 0, icTx := 0, exhausted := false, icRx := 0
    replay := 0, icRxPrev := 0, prevValid := false, kgen := 0, aes256 := false, fseqTx := 0, fseqRx := 0 }

/-- The outstanding RELEASE or PARK of a slot completes OK once the slot is FREE, a REKEY not yet sent WRONG_STATE, an APPOINT of an index that
ended NOT_ACTIVE (R242, R267). -/
def endCommands (i : Nat) (s : State) : State :=
  let s1 := match outstanding s .asc with
    | some o =>
      if o.a0.toNat % 2 ^ 20 ≠ i then s
      else if o.opcode = 4 ∨ o.opcode = 5 then done .asc CODE.OK s
      else if o.opcode = 6 then done .asc 0x82 s
      else s
    | none => s
  match outstanding s1 .rpt with
  | some o => if o.opcode = 3 ∧ o.a0.toNat % 2 ^ 20 = i then done .rpt 0x80 s1 else s1
  | none => s1

/-- The end of an association: the record goes to the parked store, everything held for it is freed, its slot becomes FREE, ENDED is raised and
the end reported (R234). A FAULTED record is not written back, and its slot waits for RELEASE; nor is a record that
no parked record stands behind. `tell` is false where a TREE_END has brought the end. -/
def endRecord (tell : Bool) (i reason : Nat) (s : State) : State :=
  let a := assoc s i
  let c := a.c
  let keep := (decide (reason = RSN.HOST) && (a.ending.elim false (·.park))) || decide (reason = RSN.DORMANT) || c.parkOnEnd
  let faulted := decide (reason = RSN.FAULT)
  let s1 := if c.session || faulted || decide (parkedSize ≤ a.parked) then s else setParked a.parked (parkedForm c keep) s
  let s2 := if tell then treeEnd i c reason s1 else s1
  let s3 := clearRelays i (freeMaps i (dropFrames i s2))
  let s4 := { s3 with plan := { s3.plan with grants := s3.plan.grants.filter (fun o => decide (o.addr ≠ i)) } }
  let s5 := setMac { s4.mac with elems := s4.mac.elems.filter (fun e => e.parent || decide (e.index ≠ i)) } s4
  let s6 := setAssoc i (if faulted then { Assoc.free with c := { c with state := CST.FAULTED }, parked := a.parked } else Assoc.free) s5
  let s7 := hostEvent 0x0002 i c.epId reason [] (raise .asc ASC_INT.ENDED s6)
  endCommands i s7

/-- The end of an association, told to the tree (R234, R261). -/
def finishEnd (i reason : Nat) (s : State) : State := endRecord true i reason s

/-- The end of an association with a LEAVE sent first (R234): LEAVING until it is acknowledged or 4 superframes have passed. -/
def startEnd (i reason hold : Nat) (park : Bool) (s : State) : State :=
  let a := assoc s i
  if a.c.state = CST.LEAVING then s
  else if a.c.session then finishEnd i reason s
  else
    let s1 := dropFrames i s
    let s2 := setAssoc i { a with
      c := { a.c with state := CST.LEAVING }, ending := some ⟨reason, park, sfn s⟩, rekey := none } s1
    ownFrame .leave i (element EL.LEAVE ([byteOf reason] ++ beBytes 2 hold)) s2

/-! Rekeys (R235, R236). -/

/-- The REKEY element of a rekey, its key left as zeros for KEY_INSERT (R221, R324). -/
def rekeyElem (k : RekeySt) (kgen : Nat) : List Byte :=
  element EL.REKEY ([byteOf (bitIf k.aes256 7 + kgen)] ++ List.replicate (if k.aes256 then 32 else 16) 0 ++ beBytes 4 k.salt)

/-- A rekey starts: a new key and salt are drawn, REKEY_PENDING is set and REKEY is put up for sending; with REKEY_PENDING set nothing happens
(R235, R240). A random source that fails draws no key (R328). -/
def startRekey (i : Nat) (s : State) : State :=
  let a := assoc s i
  if a.c.state ≠ CST.ACTIVE ∨ a.c.rekeyPending then s
  else
    let (st, out, _, s1) := runJob (i % 16)
      { Job.zero with op := OP.KEYGEN, sel := SEL.CURRENT, index := i, param := bitIf a.c.aes256 1 } s
    if st ≠ JST.OK then s1
    else
      let k : RekeySt := ⟨out.take 40, a.c.aes256, beAt out 40 4, 0, sfn s⟩
      let a1 := assoc s1 i
      ownFrame .rekey i [] (setAssoc i { a1 with c := { a1.c with rekeyPending := true }, rekey := some k } s1)

/-- A rekey completes when a unit under the new key has verified (R236): the old key moves to previous, and counters restart. -/
def completeRekey (i ic : Nat) (s : State) : State :=
  let a := assoc s i
  match a.rekey with
  | none => s
  | some k =>
    let c := a.c
    let c2 := { c with
      keyPrev := c.key, saltPrev := c.salt, icRxPrev := c.icRx, prevValid := true, kgen := (c.kgen + 1) % 8, key := k.key
      salt := k.salt, icTx := 0, exhausted := false, icRx := ic, replay := 1, rekeyPending := false, aes256 := k.aes256 }
    let s1 := setAssoc i { a with
      c := c2, rekey := none, keySfn := sfn s, prevUntil := sfn s + getF s .asc ASC_CFG.REKEY_HOLD
      warned := false, reserved := 0, asked := 0 } s
    setMac { s1.mac with frames := s1.mac.frames.filter (fun f => !(decide (f.kind = .rekey) && decide (f.index = i))) } s1

/-! Protecting the module's frames (R218, R219, R243, R253). -/

/-- The next FSEQ of an association, four bits in narrowband, and the state with it used. -/
def nextFseq (i : Nat) (wave : Wave) (s : State) : Nat × State :=
  let c := ctx s i
  (if wave = .nb then c.fseqTx % 16 else c.fseqTx, setCtx i { c with fseqTx := (c.fseqTx + 1) % 256 } s)

/-- LEN of a frame with one unit of `n` plaintext bytes. -/
def unitLen (flood : Bool) (wave : Wave) (n : Nat) : Nat := (if flood then 4 else 0) + 8 + n + tagLen (decide (wave = .nb))

/-- The ENCRYPT job of a unit to an association (R219): `inner` for an INNER unit of a SESSION record (R261). -/
def unitJob (c : Ctx) (i ftype : Nat) (wave : Wave) (flood inner : Bool) (innerSec : Bool) (fseq : Nat) (plain : List Byte) : Job :=
  let narrow := if inner then c.nb && !c.bb else decide (wave = .nb)
  let t := tagLen narrow
  let len := if inner then 8 + plain.length + t else unitLen flood wave plain.length
  let w := if inner then 2 else if wave = .nb then 0 else 1
  let ty := if flood then FT.FLOOD else ftype
  let sec := bitIf innerSec 7 + c.kgen
  { Job.zero with
    op := OP.ENCRYPT, tag16 := !narrow, dir := 1, sel := SEL.CURRENT, kgen := c.kgen, index := i, hlen := 12, plen := plain.length
    hdr := unitAad ty w i fseq len plain.length sec 0, payload := plain }

/-- The unit that an ENCRYPT job's output and nonce make (R218). -/
def jobUnit (j : Job) (out : List Byte) (nonce : Nat) : List Byte :=
  unitBytes (decide (128 ≤ beAt j.hdr 10 1)) j.kgen (nonce / 2 ^ 32 % 2 ^ 40) out (if j.tag16 then 16 else 8)

/-- A unit to an association protected within one command: its bytes, or the status that refused it. -/
def sealUnit (j : Job) (s : State) : Nat × List Byte × State :=
  let (st, out, nonce, s1) := runJob (j.index % 16) j s
  let c := ctx s1 j.index
  if st = JST.OK then (st, jobUnit j out nonce, setCtx j.index { c with txCnt := (c.txCnt + 1) % 2 ^ 32 } s1) else (st, [], s1)

/-- A refused ENCRYPT with EXHAUSTED ends the association with REKEY_FAIL (R236). -/
def jobRefused (i status : Nat) (s : State) : State :=
  if status = JST.EXHAUSTED ∧ (ctx s i).state = CST.ACTIVE then startEnd i RSN.REKEY_FAIL 0 false s else s

/-- The job of one of the module's own protected frames, with the key of a rekey inserted (R235). -/
def ownJob (s : State) (f : Frame) (fseq : Nat) : Job :=
  let c := ctx s f.index
  let k := (assoc s f.index).rekey
  let body := match f.kind, k with
    | .rekey, some r => rekeyElem r ((c.kgen + 1) % 8)
    | _, _ => f.body
  let j := unitJob c f.index f.ftype f.wave f.flood false f.inner fseq body
  match f.kind, k with
  | .rekey, some r => { j with keyInsert := true, keyOff := 4, insert := r.key }
  | _, _ => j

/-- One of the module's own frames protected for sending: FSEQ and payload. -/
def sealFrame (f : Frame) (s : State) : Nat × Frame × State :=
  if !f.prot then (JST.OK, f, s)
  else
    let (fseq, s1) := nextFseq f.index f.wave s
    let (st, unit, s2) := sealUnit (ownJob s1 f fseq) s1
    (st, { f with fseq := fseq, payload := unit }, s2)

end Sys2Proof.Machine
end

