-- ==== Sys2Proof/Machine/Uplink.lean ====
section
/-!
DEFINITION. Sys2Proof/Machine/Uplink.lean: received frames: lookup, replay check, decryption, elements and acknowledgements
(R13, R216–R222, R230, R236, R247, R248, R478).
-/
namespace Sys2Proof.Machine

/-! Received frames. -/

/-- A received frame as a frame core takes it: waveform, whether it came on the uplink interface, header fields, payload, place and channels,
arrival offset, port qualities, the superframe and sample of its start, the lane it came on, if any, and whether it stands for one
INNER unit of a session (R261). -/
structure FrameIn where
  narrow : Bool
  fromParent : Bool
  ftype : Nat
  addr : Nat
  fseq : Nat
  hop : Nat
  payload : List Byte
  group : Nat
  ch0 : Nat
  ch1 : Nat
  offset : Int
  quality : Nat
  sfn : Nat
  start : Nat
  lane : Option Nat
  inner : Bool
deriving DecidableEq, Repr

/-- Whether a group is the uplink MV port of a subordinate (R257). -/
def isUpGroup (s : State) (g : Nat) : Bool :=
  decide (s.mac.role = 2) && decide (getF s .rpt RPT_TREE.UP_IF = 1) && decide (groupOf (getF s .rpt RPT_TREE.UP_PORT) = g)

/-- The frame in a received burst (R13): none unless the burst completed OK and has not been handled. -/
def frameIn (s : State) (id : Nat) : Option FrameIn :=
  let b := burst s id
  if b.st ≠ .rxDone ∨ b.status ≠ BST.OK ∨ b.header = [] then none
  else
    let up := isUpGroup s b.place
    match b.wave with
    | .nb =>
      let h := nbHeader b.header
      some ⟨true, up, h.ftype, h.addr, h.fseq, h.hop, b.payload, b.place, b.ch0, b.ch1, signedOf 16 b.offset, b.quality, b.sfn, b.start, none, false⟩
    | .bb =>
      let h := bbHeader b.header
      some ⟨false, up, h.ftype, h.addr, h.fseq, 0, b.payload, b.place, b.ch0, b.ch1, signedOf 16 b.offset, b.quality, b.sfn, b.start, none, false⟩

/-- A burst whose frame has been handled: nothing of it is handled twice. -/
def consume (id : Nat) (s : State) : State := setBurst id { burst s id with header := [], payload := [] } s

/-- A row about a received burst: the frame of a type is handled by `run`; anything else leaves the state, and a STANDBY discards every
frame without verification (R401). -/
def onFrame (id : Nat) (ok : FrameIn → Bool) (run : FrameIn → State → State) (s : State) : State :=
  match frameIn s id with
  | none => s
  | some f => if ok f then (if standby s then consume id s else consume id (run f s)) else s

/-- A record looked up in the on-die cache: a miss is counted and takes the place of the least recently used line of its set (R216). -/
def lookup (i : Nat) (s : State) : State :=
  let l := (s.mac.cache.lookup (i % 4096)).getD []
  let s1 := if l.contains i then s else count .asc ASC_CACHE_MISS_CNT.COUNT s
  setMac { s1.mac with cache := Map.set (fun _ => []) s1.mac.cache (i % 4096) ((i :: l.erase i).take 16) } s1

/-- Whether a record takes DATA, ACK and TMAP frames (R216). -/
def takesFrames (st : Nat) : Bool := decide (st = CST.ACCEPTED) || isLive st

/-! SF2 uplink frames (R476, R478). -/

/-- Whether a DATA value is a switching-command frame (R476). -/
def isSf2 (s : State) (v : List Byte) : Bool := isSet s .saf SAF_SF2_CFG.EN && decide (beAt v 0 2 = 0xC5F2) && decide (2 ≤ v.length)

/-- Whether CRC2 of a switching-command frame holds (R476). -/
def crc2Ok (v : List Byte) : Bool :=
  let n := 18 + beAt v 16 2
  decide (v.length = n + 4) && decide (crc32c (v.take n) = beAt v n 4)

/-- A discarded switching-command frame reported: reason, index, SEQ (R478). -/
def sf2Reject (reason i seq : Nat) (s : State) : State :=
  logPage .saf SAF_INT.SF2_REJECT [reason, i, seq]
    (raise .saf SAF_INT.SF2_REJECT (count .saf SAF_SF2_REJ_CNT.COUNT
      (setF .saf SAF_SF2_LAST.REASON reason (setF .saf SAF_SF2_LAST.INDEX i s))))

/-- The reason for which an uplink switching-command frame is not delivered, if any (R478). -/
def sf2Up (s : State) (i : Nat) (v : List Byte) : Option Nat :=
  let k := beAt v 3 1
  if !isSf2 s v || !(decide (k = 2) || decide (k = 3)) then none
  else if !crc2Ok v then some 1 else if beAt v 8 8 ≠ (ctx s i).epId then some 2 else none

/-! Elements (R221). -/

/-- An element that has a command of its own put up for it. -/
def pendElem (i : Nat) (up narrow : Bool) (ty : Nat) (v : List Byte) (s : State) : State :=
  setMac { s.mac with elems := s.mac.elems ++ [⟨i, up, ty, v, narrow⟩] } s

/-- The tunnelled payload of a verified DATA element (R370, R371, R478). -/
def dataElem (i : Nat) (narrow : Bool) (v : List Byte) (s : State) : State :=
  match sf2Up s i v with
  | some r => sf2Reject r i (beAt v 4 4) s
  | none => upVerified ⟨i, (ctx s i).epId, sfn s, narrow, v, 0, 0⟩ s

/-- One verified element of an endpoint; elements sent only to endpoints, and reserved types, are skipped (R221). -/
def elemIn (i : Nat) (narrow : Bool) (e : Nat × List Byte) (s : State) : State :=
  let a := assoc s i
  match e.1 with
  | 1 => dataElem i narrow e.2 s
  | 3 => setAssoc i { a with queue := beAt e.2 0 4 } s
  | 4 => pendElem i false narrow EL.ACK e.2 s
  | 6 => pendElem i false narrow EL.REKEY_REQ e.2 s
  | 7 => pendElem i false narrow EL.LEAVE e.2 s
  | 9 => setCtx i { a.c with listen := beAt e.2 0 2 } s
  | 11 => pendElem i false narrow EL.RELAY e.2 s
  | 12 => pendElem i false narrow EL.KEY_INSTALL e.2 s
  | _ => s

/-- TREE_UP with its HOPS put on its way to the parent, or into the store while no parent is ACTIVE, HOPS in the place of the SEQ (R261). -/
def treeUp (hops session : Nat) (inner : List Byte) (s : State) : State :=
  let s1 := count .rpt RPT_TREE_FWD_CNT.COUNT s
  if parentActive s ∧ !regionHolds s true then toParent (relayElem 0x10 hops session inner) s1
  else divert true ⟨session, 0, sfn s, false, inner, 0, hops⟩ s1

/-- The plaintext of a verified unit: an INNER unit goes up the tree, else its elements are handled in order (R221, R261). -/
def plainIn (i : Nat) (narrow inner : Bool) (plain : List Byte) (s : State) : State :=
  if inner then
    let p := (ctx s i).peer
    if p.testBit 31 then treeUp 0 (p % 2 ^ 20) plain s else malformed s
  else (elements plain.length plain).foldl (fun t e => elemIn i narrow e t) s

/-! Units (R220, R230, R236). -/

/-- The BKEY element of a beacon key that awaits APPLY_SFN put up for an association (R221, R237). -/
def sendBkey (i : Nat) (s : State) : State :=
  match s.mac.bnext with
  | none => s
  | some (k, apply) => ownFrame .bkey i (element EL.BKEY ([byteOf k.gen] ++ k.key ++ beBytes 4 k.salt ++ beBytes 4 apply)) s

/-- The association becomes ACTIVE with its first verified unit (R230), the record of a session with its first INNER unit (DEDUCED, log 26); a
pending beacon key is sent to an association of the domain. -/
def confirmJoin (i : Nat) (s : State) : State :=
  let a := assoc s i
  if a.c.state ≠ CST.ACCEPTED then s
  else
    let s1 := setAssoc i { a with c := { a.c with state := CST.ACTIVE }, join := none } s
    let s2 := hostEvent 0x0001 i a.c.epId 0 [] (raise .asc ASC_INT.JOINED (count .asc ASC_JOIN_CNT.COUNT s1))
    if a.c.session then s2 else sendBkey i s2

/-- A verified unit noted in its record: counters, LAST_RX_SFN, RX_CNT, the last FSEQ received and the port qualities (R106, R220). -/
def noteUnit (f : FrameIn) (i kgen ic : Nat) (s : State) : State :=
  let a := assoc s i
  let c := noteIc a.c kgen ic
  let c2 := { c with lastRx := sfn s, rxCnt := (c.rxCnt + 1) % 2 ^ 32 }
  setAssoc i { a with c := if f.inner then c2 else { c2 with fseqRx := f.fseq, quality := f.quality, tadj := f.offset } } s

/-- The DECRYPT job of a received unit (R219). -/
def openJob (f : FrameIn) (i pos : Nat) (u : UnitIn) (prev : Bool) : Job :=
  { Job.zero with
    op := OP.DECRYPT, tag16 := decide (u.tag.length = 16), dir := 0, sel := (if prev then SEL.PREVIOUS else SEL.CURRENT), kgen := u.kgen
    index := i, hlen := 12, plen := u.ct.length
    hdr := unitAad f.ftype (if f.inner then 2 else if f.narrow then 0 else 1) i f.fseq f.payload.length u.ct.length u.sec pos
    payload := u.ct, ic := u.ic, tag := u.tag }

/-- The plaintext of a unit under the key of a rekey that awaits its answer (R236). -/
def openRekey (f : FrameIn) (i pos : Nat) (u : UnitIn) (k : RekeySt) (s : State) : Nat × List Byte × State :=
  let j := openJob f i pos u false
  match unwrapField s.cip.kwk k.key k.aes256 with
  | none => (JST.BAD_WRAP, [], countJob JST.BAD_WRAP s)
  | some key =>
    match gcmOpen key (beBytes 12 (contextNonce j u.kgen k.salt u.ic)) j.hdr u.ct u.tag with
    | none => (JST.AUTH_FAIL, [], countJob JST.AUTH_FAIL s)
    | some l => (JST.OK, l, countJob JST.OK s)

/-- One unit of a frame: refused as a replay, failed, or verified and handled; tells whether its frame may be acknowledged for it (R220,
R222). -/
def unitIn (f : FrameIn) (i pos : Nat) (u : UnitIn) (s : State) : Bool × State :=
  let a := assoc s i
  match a.rekey with
  | some k =>
    if u.kgen = (a.c.kgen + 1) % 8 then
      let (st, plain, s1) := openRekey f i pos u k s
      if st = JST.OK then (true, plainIn i f.narrow u.inner plain (noteUnit f i u.kgen u.ic (completeRekey i u.ic s1)))
      else (false, if st = JST.AUTH_FAIL then failUnit i s1 else s1)
    else unitOld f i pos u s
  | none => unitOld f i pos u s
where
  /-- A unit under the current or the previous key. -/
  unitOld (f : FrameIn) (i pos : Nat) (u : UnitIn) (s : State) : Bool × State :=
    let c := ctx s i
    if !replayOk c u.kgen u.ic then (true, refuseUnit i s)
    else
      let (st, plain, _, s1) := runJob (i % 16) (openJob f i pos u (decide (u.kgen ≠ c.kgen))) s
      if st = JST.OK then (true, plainIn i f.narrow u.inner plain (confirmJoin i (noteUnit f i u.kgen u.ic s1)))
      else (false, if st = JST.AUTH_FAIL then failUnit i s1 else s1)

/-- The units of a frame in order; the frame is acknowledged when each verified or was refused as a duplicate. -/
def unitsIn (f : FrameIn) (i : Nat) (us : List UnitIn) (s : State) : Bool × State :=
  us.zipIdx.foldl (fun (a : Bool × State) u =>
    let r := unitIn f i u.2 u.1 a.2
    (a.1 && r.1, r.2)) (true, s)

/-- The units of a frame's payload, or none for a frame that is malformed (R218): exactly one in narrowband, 1–255 in broadband. -/
def frameUnits (f : FrameIn) (skip : Nat) : Option (List UnitIn) :=
  match parseUnits (tagLen f.narrow) 255 (f.payload.drop skip) with
  | none => none
  | some us => if us.isEmpty || (f.narrow && decide (us.length ≠ 1)) then none else some us

/-- A DATA frame of an endpoint (R13, R216, R218, R222). -/
def dataFrame (f : FrameIn) (s : State) : State :=
  let s0 := lookup f.addr s
  if !takesFrames (ctx s f.addr).state then malformed s0
  else match frameUnits f 0 with
    | none => malformed s0
    | some us =>
      let (ok, s1) := unitsIn f f.addr us s0
      let s2 := if f.narrow && ok && decide ((relay s1 f.addr).nbHops ≠ 0) then setRelay f.addr { relay s1 f.addr with nbHops := 0 } s1 else s1
      if ok && takesFrames (ctx s2 f.addr).state then sendAck f.addr f.fseq f.narrow s2 else s2

/-! Frames from the parent (R258–R261). -/

/-- An element of the parent: those with a command of their own are put up for it; grants are kept, a new key waits for its use (R221). -/
def parentElem (narrow : Bool) (e : Nat × List Byte) (s : State) : State :=
  let p := s.mac.parent
  match e.1 with
  | 2 => setParent { p with grants := p.grants ++ (List.range (e.2.length / 16)).map (fun k => slice e.2 (16 * k) 16) } s
  | 4 => pendElem p.index true narrow EL.ACK e.2 s
  | 5 =>
    let n := if (beAt e.2 0 1).testBit 7 then 32 else 16
    setParent { p with rekey := some (slice e.2 1 n, decide (n = 32), beAt e.2 (1 + n) 4) } s
  | 7 => pendElem p.index true narrow EL.LEAVE e.2 s
  | 8 => setParent { p with bnext := some (⟨slice e.2 1 16, beAt e.2 17 4, beAt e.2 0 1 % 8, none⟩, beAt e.2 21 4) } s
  | 10 => setParent { p with link := { p.link with sup := beAt e.2 0 2 } } s
  | 11 => pendElem p.index true narrow EL.RELAY e.2 s
  | 12 => pendElem p.index true narrow EL.KEY_INSTALL e.2 s
  | _ => s

/-- A DATA unit of the parent under the module's own association: checked and decrypted as an endpoint does (R219, R220). -/
def parentUnit (f : FrameIn) (pos : Nat) (u : UnitIn) (s : State) : State :=
  let p := s.mac.parent
  let c := p.link
  let prev := decide (u.kgen ≠ c.kgen)
  let key := unwrapField s.cip.kwk (if prev then c.keyPrev else c.key) c.aes256
  let nonce := beBytes 12 ((p.index * 16 + 8 + u.kgen) * 2 ^ 72 + u.ic * 2 ^ 32 + (if prev then c.saltPrev else c.salt))
  let aad := unitAad f.ftype (if f.narrow then 0 else 1) f.addr f.fseq f.payload.length u.ct.length u.sec pos
  if !replayOk c u.kgen u.ic then s
  else match key.bind (fun k => gcmOpen k nonce aad u.ct u.tag) with
    | none => countJob JST.AUTH_FAIL s
    | some plain =>
      let s1 := setParent { p with link := { noteIc c u.kgen u.ic with lastRx := sfn s, rxCnt := (c.rxCnt + 1) % 2 ^ 32 } }
        (countJob JST.OK s)
      (elements plain.length plain).foldl (fun t e => parentElem f.narrow e t) s1

/-- A DATA frame of the parent for this module, acknowledged by an ACK element with the next uplink (R222). -/
def parentData (f : FrameIn) (s : State) : State :=
  if !parentActive s ∨ f.addr ≠ s.mac.parent.index then s
  else match frameUnits f 0 with
    | none => malformed s
    | some us => toParent (element EL.ACK [byteOf f.fseq]) (us.zipIdx.foldl (fun t u => parentUnit f u.2 u.1 t) s)

/-- The parent's beacon key in the superframe of an SFN of the parent. -/
def parentKey (p : ParentSt) (k : Nat) : Option BeaconKey :=
  match p.bnext with
  | some (b, apply) => if sfnDiff apply k < 2 ^ 31 then some b else p.bkey
  | none => p.bkey

/-- Whether the tag of a beacon verifies under the parent's key; with no key a beacon may be used in order to join (R193, R237). -/
def beaconOk (s : State) (f : FrameIn) : Bool :=
  let n := f.payload.length - (if f.narrow then 8 else 16)
  let k := beAt f.payload 2 4
  match parentKey s.mac.parent k with
  | none => !parentActive s
  | some b =>
    let nonce := ((0xFFFFF * 16 + 8 + b.gen) * 2 ^ 40 + (k * 128 + (if f.narrow then 0 else 64) + f.addr % 64)) * 2 ^ 32 + b.salt
    (gcmOpen b.key (beBytes 12 nonce) (f.payload.take n) [] (f.payload.drop n)).isSome

/-- A beacon of the parent: its content is kept, with its DEPTH and the place of its superframe start against this module's (R259,
RPT_SF_OFFSET). -/
def parentBeacon (f : FrameIn) (s : State) : State :=
  if f.payload.length < 32 ∨ !beaconOk s f then s
  else
    let d := beAt f.payload 1 1 / 4
    let off := (209715200 - f.start % 209715200) % 209715200
    let s0 := setParent { s.mac.parent with base := some (sfStartOf s f.sfn + f.start, beAt f.payload 2 4), beacon := f.payload } s
    let s1 := setF .rpt RPT_PARENT.PARENT_DEPTH d (setB .rpt RPT_PARENT.BEACON_OK true s0)
    let s2 := setF .rpt RPT_SF_OFFSET.OFFSET off (setB .rpt RPT_SF_OFFSET.VALID true s1)
    if d = 63 ∧ !parentActive s then raise .rpt RPT_INT.HOP_LIMIT s2
    else if parentActive s then setF .rpt RPT_STATUS.DEPTH (d + 1) s2 else s2

/-- UPLINK_FRAME (R13): DATA frames of endpoints, and DATA and beacons of the parent on the uplink port. -/
def uplinkFrame (f : FrameIn) (s : State) : State :=
  if f.fromParent then (if f.ftype = FT.BEACON then parentBeacon f s else parentData f s)
  else dataFrame f s

/-- UPLINK_FRAME (R13). -/
def execUplinkFrame (id : BurstId) (s : State) : Host.Outcome State Fault Refusal :=
  .next (onFrame id.val (fun f => decide (f.ftype = FT.DATA) || (f.fromParent && decide (f.ftype = FT.BEACON))) uplinkFrame s)

/-! Acknowledgements (R153, R222, R234, R267). -/

/-- A sent tone map that is acknowledged comes into use, the one before it held as previous for 2 superframes (R153). -/
def ackMap (i fseq : Nat) (s : State) : State :=
  match linkMap s i false 0 with
  | none => s
  | some e =>
    match e.fresh with
    | none => s
    | some (m, q) => if q = fseq then putMap { e with cur := some m, fresh := none, prev := e.cur.map (fun x => (x, sfn s + 2)) } s else s

/-- What follows the acknowledgement of one of the module's own frames: the end after LEAVE, the OK of APPOINT. -/
def ownAcked (f : Frame) (s : State) : State :=
  match f.kind with
  | .leave => finishEnd f.index (((assoc s f.index).ending.map (·.reason)).getD RSN.HOST) s
  | .repeater =>
    match outstanding s .rpt with
    | some o => if o.opcode = 3 then done .rpt CODE.OK s else s
    | none => s
  | .tmap => ackMap f.index f.fseq s
  | _ => s

/-- Whether a frame of the store waits for the acknowledgement of an FSEQ of an index. -/
def awaits (i fseq : Nat) (f : Frame) : Bool :=
  decide (f.index = i) && decide (f.fseq = fseq) && decide (f.stage = .waitAck) && decide (f.ftype ≠ FT.ASSOC) && decide (f.ftype ≠ FT.ACK)

/-- An FSEQ acknowledged: retransmission of its frame stops and its descriptor completes OK (R222, R382). -/
def ackFrame (i fseq : Nat) (s : State) : State :=
  match s.mac.frames.find? (awaits i fseq) with
  | none => s
  | some f => ownAcked f (finishFrame f DST.OK s)

/-- The first pending element of a type, and the state without it. -/
def takeElem (ty : Nat) (s : State) : Option (Elem × State) :=
  match s.mac.elems.find? (fun e => decide (e.ty = ty)) with
  | none => none
  | some e => some (e, setMac { s.mac with elems := s.mac.elems.erase e } s)

/-- An ACK frame (R216, R222). -/
def ackIn (f : FrameIn) (s : State) : State :=
  if f.fromParent then s
  else
    let s0 := lookup f.addr s
    if takesFrames (ctx s f.addr).state then ackFrame f.addr f.fseq s0 else malformed s0

/-- The first pending ACK element: every FSEQ it carries is acknowledged (R221). -/
def ackElem (s : State) : State :=
  match takeElem EL.ACK s with
  | none => s
  | some (e, s1) => if e.parent then s1 else e.value.foldl (fun t b => ackFrame e.index b.toNat t) s1

/-- ACK_RECEIVED (R222): the ACK frame in a burst, or else the first ACK element verified and not yet handled. -/
def execAckReceived (id : BurstId) (s : State) : Host.Outcome State Fault Refusal :=
  .next (match frameIn s id.val with
    | some f => if f.ftype = FT.ACK then onFrame id.val (fun f => decide (f.ftype = FT.ACK)) ackIn s else ackElem s
    | none => ackElem s)

/-! Tone maps (R152–R154). -/

/-- The port of the module's burst that a downlink map was measured on: that of the frame to the endpoint with the FSEQ (R153). -/
def mapPort (s : State) (i ref : Nat) : Option Nat :=
  (assoc s i).sentPorts.lookup ref

/-- A downlink map that verified: kept for the port of the burst it names and acknowledged; one that breaks R151, or names a burst that is
not known, is discarded without acknowledgement (R153). -/
def takeMap (f : FrameIn) (i : Nat) (plain : List Byte) (s : State) : State :=
  match mapPort s i (beAt plain 2 1) with
  | none => s
  | some p =>
    if !mapOk plain || decide (beAt plain 1 1 / 64 ≠ 1) then s
    else
      let e : TmapEntry := ⟨i, true, p, some (readMap plain), none, none, sfn s, 0⟩
      let s1 := putMap e s
      sendAck i f.fseq false (mirrorDelta (.tmapDelta (BitVec.ofNat 20 i) true (Fin.ofNat 52 p) plain) s1)

/-- A TMAP frame: one unit, whose plaintext is the map (R152, R216, R220). -/
def tmapFrame (f : FrameIn) (s : State) : State :=
  let s0 := lookup f.addr s
  let i := f.addr
  let c := ctx s i
  if !takesFrames c.state then malformed s0
  else match frameUnits f 0 with
    | some [u] =>
      if !replayOk c u.kgen u.ic then sendAck i f.fseq false (refuseUnit i s0)
      else
        let (st, plain, _, s1) := runJob (i % 16) (openJob f i 0 u (decide (u.kgen ≠ c.kgen))) s0
        if st = JST.OK then takeMap f i plain (confirmJoin i (noteUnit f i u.kgen u.ic s1))
        else if st = JST.AUTH_FAIL then failUnit i s1 else s1
    | _ => malformed s0

/-- TMAP_RECEIVED (R152, R153). -/
def execTmapReceived (id : BurstId) (s : State) : Host.Outcome State Fault Refusal :=
  .next (onFrame id.val (fun f => decide (f.ftype = FT.TMAP) && !f.narrow && !f.fromParent) tmapFrame s)

/-- A new uplink map computed and put up for sending in a TMAP frame, its TMID the one after the map in use (R153–R155, log 12). The period and
the rate change that call for it are the event's. A link that finds the store full stays on TMID 0. -/
def sendMap (i : Nat) (snr : List Nat) (s : State) : State :=
  let e := (linkMap s i false 0).getD ⟨i, false, 0, none, none, none, 0, 0⟩
  let cur := e.cur.elim 0 (·.tmid)
  let r := computeMap s (cur % 14 + 1) snr
  let s1 := putMap { e with fresh := some (r.1, 256), sentAt := sfn s, rate := r.2 } s
  if (linkMap s1 i false 0).isNone then s1
  else addFrame { Frame.blank with
    kind := .tmap, index := i, ftype := FT.TMAP, body := mapBytes r.1 false 0, wave := .bb, due := sfn s }
    (mirrorDelta (.tmapDelta (BitVec.ofNat 20 i) false 0 (mapBytes r.1 false 0)) s1)

/-- TMAP_PERIOD_EXPIRY (R154): for an association in use on broadband. -/
def execTmapPeriodExpiry (a : CtxIndex) (snr : List Nat) (s : State) : Host.Outcome State Fault Refusal :=
  let c := ctx s a.toNat
  .next (if c.state = CST.ACTIVE ∧ c.bb ∧ !c.session then sendMap a.toNat snr s else s)

/-! Requests and floods (R224, R243–R248). -/

/-- GRANT_REQ from an ACTIVE endpoint (R224): it has bytes waiting, so the next plan grants it an occurrence. -/
def grantReq (f : FrameIn) (s : State) : State :=
  let s0 := lookup f.addr s
  let a := assoc s f.addr
  if a.c.state = CST.ACTIVE ∧ !a.c.session then setAssoc f.addr { a with queue := max a.queue 1 } s0 else malformed s0

/-- The message code of an ASSOC frame (R224). -/
def assocCode (f : FrameIn) (code : Nat) : Bool := decide (f.ftype = FT.ASSOC) && decide (f.fseq = code)

/-- GRANT_REQ (R224). -/
def execGrantReq (id : BurstId) (s : State) : Host.Outcome State Fault Refusal :=
  .next (onFrame id.val (fun f => assocCode f 7 && !f.fromParent) grantReq s)

/-- The start slot number of a superframe and slot (R244). -/
def startSlotNo (k slot : Nat) : Nat := k * 114 + slot / 9

/-- The present start slot number. -/
def nowStartSlot (s : State) : Nat := startSlotNo (sfn s) s.time.slot

/-- A new flood copy handled: an uplink flood's unit is verified as a DATA unit is; a broadcast or downlink copy is another module's (R243, R247). -/
def floodUnit (f : FrameIn) (dir : Nat) (s : State) : State :=
  let i := f.addr
  let s0 := lookup i s
  if dir ≠ 1 then s
  else if !takesFrames (ctx s i).state then malformed s0
  else match frameUnits f 4 with
    | none => malformed s0
    | some us =>
      let (ok, s1) := unitsIn f i us s0
      let s2 := if ok then setRelay i { relay s1 i with nbHops := f.hop } s1 else s1
      if ok && takesFrames (ctx s2 i).state then sendAck i f.fseq true (count .rpt RPT_FLOOD_RX_CNT.COUNT s2) else s2

/-- A decoded flood copy (R248): a copy whose key is kept is discarded and counted; else its key is kept until the start slot of hop HMAX + 1, when
there is room, and it is delivered. -/
def floodCopy (f : FrameIn) (s : State) : State :=
  let b0 := beAt f.payload 0 1
  let dir := b0 / 64
  let hmax := b0 % 64
  let sf := beAt f.payload 1 1
  let w := beAt f.payload 2 2
  let space := w % 64
  let same (k : FloodKey) : Bool := decide (k.addr = f.addr) && decide (k.dir = dir) && decide (k.sf = sf) && decide (k.slot = w / 64)
  if f.payload.length < 4 ∨ dir = 3 then malformed s
  else if s.mac.floods.any same then count .rpt RPT_FLOOD_DUP_CNT.COUNT s
  else
    let until_ := startSlotNo f.sfn (f.start / 204800) + (hmax + 1 - f.hop) * space
    let l := if s.mac.floods.length < 4096 then s.mac.floods ++ [⟨f.addr, dir, sf, w / 64, until_⟩] else s.mac.floods
    floodUnit f dir (setMac { s.mac with floods := l } s)

/-- FLOOD_COPY_RECEIVED (R248). -/
def execFloodCopyReceived (id : BurstId) (s : State) : Host.Outcome State Fault Refusal :=
  .next (onFrame id.val (fun f => decide (f.ftype = FT.FLOOD) && f.narrow) floodCopy s)

/-- FLOOD_KEY_EXPIRY (R248): every key whose start slot of hop HMAX + 1 has come is dropped. -/
def execFloodKeyExpiry (s : State) : Host.Outcome State Fault Refusal :=
  .next (setMac { s.mac with floods := s.mac.floods.filter (fun k => decide (nowStartSlot s < k.until_)) } s)

end Sys2Proof.Machine
end

