-- ==== Sys2Proof/Machine/Cipher.lean ====
section
/-!
DEFINITION. Sys2Proof/Machine/Cipher.lean: the job rings, the hold slots and the CIP page (spec/16_cipher_engine.md).
-/
namespace Sys2Proof.Machine

/-! Job rings (R321). -/

/-- The jobs of a ring, oldest first. -/
def jobsOf (s : State) (r : Nat) : List Job := Map.get (fun _ => []) s.cip.rings r

/-- The jobs of a ring changed. -/
def setJobs (r : Nat) (l : List Job) (s : State) : State :=
  { s with cip := { s.cip with rings := Map.set (fun _ => []) s.cip.rings r l } }

/-- A job submitted on a ring with the ring's next SEQ (R337). -/
def submitJob (r : Nat) (j : Job) (s : State) : State :=
  let n := Map.get (fun _ => 0) s.cip.seqs r
  let s1 := setJobs r (jobsOf s r ++ [{ j with seq := n }]) s
  { s1 with cip := { s1.cip with seqs := Map.set (fun _ => 0) s1.cip.seqs r ((n + 1) % 2 ^ 32) } }

/-- The hold slots changed, with CIP_HOLD and the gating of pipeline 1. -/
def setHeldJobs (l : List Held) (s : State) : State :=
  let mask (p : Nat) : Nat := ((l.filter (fun h => decide (h.pipe = p))).map (fun h => 2 ^ h.slot)).sum
  refreshGate (setF .cip CIP_HOLD.P1_SLOTS (mask 1) (setF .cip CIP_HOLD.P0_SLOTS (mask 0)
    { s with cip := { s.cip with held := l } }))

/-- The lowest free hold slot of a pipeline. -/
def freeHold (s : State) (p : Nat) : Option Nat :=
  (List.range 8).find? (fun k => !s.cip.held.any (fun h => decide (h.pipe = p) && decide (h.slot = k)))

/-- The pipeline and slot that a new job takes: pipeline 0 when it has a free slot, else pipeline 1 (R321). -/
def pickHold (s : State) : Option (Nat × Nat) :=
  (openPipes s).findSome? (fun p => (freeHold s p).map (fun k => (p, k)))

/-! Test jobs (R322, R323, R343). -/

/-- A number rounded up to a multiple. -/
def roundUp (n k : Nat) : Nat := ceilDiv n k * k

/-- The job that a 64-byte descriptor spells, its inputs apart (R322). Bits that the layout gives as 0 are not looked at: DEDUCED (log 20). -/
def parseDesc (d : List Byte) : Job :=
  let b0 := leAt d 0 1
  let b3 := leAt d 3 1
  { Job.zero with
    op := b0 % 8, tag16 := b0.testBit 3, dir := bitIf (b0.testBit 4) 0, explicit := b0.testBit 5, keyInsert := b0.testBit 6
    sel := leAt d 1 1, kgen := leAt d 2 1 % 8, param := b3, index := leAt d 4 4 % 2 ^ 20, hlen := leAt d 8 2, keyOff := leAt d 10 2
    plen := leAt d 12 4, ic := leAt d 16 8 % 2 ^ 40, nonce := beAt d 24 12, dAddr := leAt d 56 4, cAddr := leAt d 60 4, desc := d }

/-- P_SPLIT of a descriptor. -/
def descSplit (d : List Byte) : Nat := leAt d 44 4

/-- The tag bytes of a job. -/
def jobTag (j : Job) : Nat := if j.tag16 then 16 else 8

/-- The payload areas of a test job within the limits: contiguous, or in two parts (R322, R323). -/
def payloadAreas (j : Job) : List (Nat × Nat) :=
  let sp := descSplit j.desc
  let n := roundUp j.plen 16
  if 0 < sp ∧ sp < j.plen then [(leAt j.desc 40 4, sp), (leAt j.desc 48 4, n - sp)] else [(leAt j.desc 40 4, n)]

/-- The areas that a test job uses: address and bytes. Lengths beyond the limits imply no area, so each address stands for itself (R343). The
addresses a job does not use are not looked at: DEDUCED (log 20). -/
def testAreas (j : Job) : List (Nat × Nat) :=
  let ok := !jobLong j
  let n := if j.op = OP.DECRYPT then j.plen else j.plen + jobTag j
  [(j.cAddr, 32)] ++ (if j.hlen = 0 then [] else [(leAt j.desc 36 4, if j.hlen ≤ 256 then roundUp j.hlen 16 else 1)]) ++
    (if j.plen = 0 then [] else if ok then payloadAreas j else [(leAt j.desc 40 4, 1)]) ++
    (if j.op = OP.DECRYPT then [(leAt j.desc 52 4, jobTag j)] else if j.keyInsert then [(leAt j.desc 52 4, 40)] else []) ++
    (if n = 0 then [] else [(j.dAddr, if ok then roundUp n 8 else 1)])

/-- Whether a test job's addresses or P_SPLIT break R322 and R323. -/
def testBad (j : Job) : Bool :=
  let sp := descSplit j.desc
  (testAreas j).any (fun a => decide (a.1 % 8 ≠ 0)) || decide (sp % 8 ≠ 0) || decide (j.plen < sp) ||
    (j.keyInsert && decide (j.op = OP.DECRYPT))

/-- A test job with its inputs read from the commons (R323). -/
def readInputs (j : Job) (s : State) : Job × State :=
  let h := leAt j.desc 36 4
  let t := leAt j.desc 52 4
  let pay := (payloadAreas j).flatMap (fun a => busBytes s a.1 a.2)
  let s1 := ((testAreas j).filter (fun a => decide (a.1 ≠ j.cAddr) && decide (a.1 ≠ j.dAddr))).foldl (fun u a => touchArea a.1 a.2 u) s
  ({ j with
      hdr := busBytes s h j.hlen, payload := pay.take j.plen
      tag := if j.op = OP.DECRYPT then busBytes s t (jobTag j) else []
      insert := if j.op = OP.DECRYPT then [] else if j.keyInsert then busBytes s t 40 else [] }, s1)

/-- A test job as the engine takes it: its inputs are read unless its addresses or lengths refuse it. -/
def openTest (j : Job) (s : State) : Job × State :=
  if testBad j then ({ j with bad := true }, s) else if jobLong j then (j, s) else readInputs j s

/-! Ends of jobs (R323, R334, R336, R337, R381, R478). -/

/-- A protected frame of the store ready for a plan: a unit of a session goes down the tree inside a RELAY element for the child that holds it
(R261). -/
def frameReady (f : Frame) (unit : List Byte) (s : State) : State :=
  let c := ctx s f.index
  let s1 := setCtx f.index { c with txCnt := (c.txCnt + 1) % 2 ^ 32 } s
  if c.session then
    setFrame { f with
      index := c.peer % 2 ^ 20, kind := f.kind, body := relayElem 0x11 0 f.index unit, payload := [], stage := .ready, wopt := 0
      wave := chooseWave s1 (ctx s1 (c.peer % 2 ^ 20)) 0, ftype := FT.DATA } (count .rpt RPT_TREE_FWD_CNT.COUNT s1)
  else setFrame { f with payload := unit, stage := .ready } s1

/-- A frame whose job failed: CIPHER, or SAFETY with reason 6 for a switching command (R382, R478). -/
def frameFailed (f : Frame) (status : Nat) (s : State) : State :=
  let s1 := if f.sf2 then finishFrame f DST.SAFETY (sf2Reject 6 f.index f.seq s) else finishFrame f DST.CIPHER s
  jobRefused f.index status s1

/-- What the end of a job does for the frame it protects. -/
def endFrameJob (j : Job) (id status : Nat) (out : List Byte) (nonce : Nat) (s : State) : State :=
  match frameOf s id with
  | none => s
  | some f => if status = JST.OK then frameReady f (jobUnit j out nonce) s else frameFailed f status s

/-- What the end of a test job does: output and completion record (R323, R337), and OK for TEST_JOB with the status in DETAIL (R343). -/
def endTestJob (h : Held) (status : Nat) (out : List Byte) (s : State) : State :=
  let j := h.job
  let s1 := if status = JST.OK ∧ out ≠ [] then busWrite j.dAddr (padTo (roundUp out.length 8) out) s else s
  let s2 := busWrite j.cAddr (jobRecord h status (if status = JST.OK then out.length else 0) false) s1
  match outstanding s2 .cip with
  | some o => if o.opcode = 1 then complete .cip CODE.OK status s2 else s2
  | none => s2

/-- Whether a job on a record is in a ring or a hold slot. -/
def jobsOn (s : State) (i : Nat) : Bool :=
  (s.cip.rings.any (fun r => r.2.any (fun j => decide (j.index = i) && decide (j.desc = [])))) ||
    s.cip.held.any (fun h => decide (h.job.index = i) && decide (h.job.desc = []))

/-- What RELEASE and PARK do with a slot that no frame core owns (R234, R242): an ACTIVE record sends LEAVE, a JOINING one that has accepted no
request becomes FREE, any other ends at once. -/
def releaseSlot (o : Outstanding) (s : State) : State :=
  let i := o.a0.toNat % 2 ^ 20
  let a := assoc s i
  let s1 := setPhase .asc 1 s
  if a.c.state = CST.ACTIVE then startEnd i RSN.HOST 0 (decide (o.opcode = 5)) s1
  else if a.c.state = CST.LEAVING then s1
  else if a.c.state = CST.FAULTED ∨ (a.c.state = CST.JOINING ∧ a.join.elim true (fun j => decide (j.nE = 0) || j.forwarded)) then
    endCommands i (setAssoc i Assoc.free (dropFrames i (setMac { s1.mac with
      frames := s1.mac.frames.filter (fun f => decide (f.index ≠ i) || decide (f.kind = .host)) } s1)))
  else finishEnd i RSN.HOST (setAssoc i { a with ending := some ⟨RSN.HOST, decide (o.opcode = 5), sfn s⟩ } s1)

/-- A RELEASE or PARK that waited for jobs on its record goes on once the last has ended (R240). -/
def resumeRelease (s : State) : State :=
  match outstanding s .asc with
  | none => s
  | some o => if (o.opcode = 4 ∨ o.opcode = 5) ∧ o.phase = 0 ∧ !jobsOn s (o.a0.toNat % 2 ^ 20) then releaseSlot o s else s

/-- Every job completes exactly once, with one status (R336); its slot becomes free. -/
def endJob (h : Held) (status : Nat) (out : List Byte) (s : State) : State :=
  let s1 := countJob status (setHeldJobs (s.cip.held.filter (fun g => !(decide (g.pipe = h.pipe) && decide (g.slot = h.slot)))) s)
  if h.job.desc ≠ [] then endTestJob h status out s1
  else match h.job.frame with
    | some id => resumeRelease (endFrameJob h.job id status out (h.nonce.getD 0) s1)
    | none => resumeRelease s1

/-- A job that ends in its ring, before a slot holds it. -/
def endQueued (ring : Nat) (j : Job) (status : Nat) (s : State) : State :=
  endJob ⟨j, ring, 0, 8, [], none, status, false, false, false, []⟩ status [] s

/-- The job in a hold slot. -/
def heldAt (s : State) (p k : Nat) : Option Held := s.cip.held.find? (fun h => decide (h.pipe = p) && decide (h.slot = k))

/-- CIPHER_JOB_TAKEN (R321, R325, R330): the head of a ring enters a free hold slot; without one it waits; with both pipelines out of service it
completes FAULT. -/
def takeJob (ring : Nat) (s : State) : State :=
  match jobsOf s ring with
  | [] => s
  | j :: rest =>
    if openPipes s = [] then endQueued ring j JST.FAULT (setJobs ring rest s)
    else match pickHold s with
      | none => s
      | some (p, k) =>
        let (j1, s1) := if j.desc = [] then (j, setJobs ring rest s) else openTest j (setPhase .cip 1 (setJobs ring rest s))
        let (h, s2) := acceptJob ring p k j1 s1
        setHeldJobs (s2.cip.held ++ [h]) s2

/-- CIPHER_JOB_TAKEN (R321). -/
def execCipherJobTaken (ring : Fin 18) (s : State) : Host.Outcome State Fault Refusal := .next (takeJob ring.val s)

/-- CIPHER_JOB_COMPLETE (R334–R337): a job that waits for a counter does not complete yet; `ecc` tells of an uncorrectable error on its
input, which ends it FAULT. -/
def completeJob (p k : Nat) (ecc : Bool) (s : State) : State :=
  match heldAt s p k with
  | none => s
  | some h =>
    if h.waiting then s
    else if h.status ≠ JST.OK then endJob h h.status [] s
    else if ecc then endJob h JST.FAULT [] s
    else
      let (st, out, s1) := jobResult h s
      endJob h st out s1

/-- CIPHER_JOB_COMPLETE (R336). -/
def execCipherJobComplete (pipe : Fin 2) (slot : Fin 8) (ecc : Bool) (s : State) : Host.Outcome State Fault Refusal :=
  .next (completeJob pipe.val slot.val ecc s)

/-- CIPHER_JOB_ABANDON (R336): the job ends ABANDONED in its ring or its slot; one that has completed keeps its status. -/
def abandonJob (ring seq : Nat) (s : State) : State :=
  match (jobsOf s ring).find? (fun j => decide (j.seq = seq)) with
  | some j => endQueued ring j JST.ABANDONED (setJobs ring ((jobsOf s ring).erase j) s)
  | none =>
    match s.cip.held.find? (fun h => decide (h.ring = ring) && decide (h.job.seq = seq)) with
    | some h => endJob h JST.ABANDONED [] s
    | none => s

/-- CIPHER_JOB_ABANDON (R336). -/
def execCipherJobAbandon (ring : Fin 18) (seq : Word) (s : State) : Host.Outcome State Fault Refusal :=
  .next (abandonJob ring.val seq.toNat s)

/-- RESERVE_WAIT_TIMEOUT (R333): a job that still waits for a reserved counter ends NO_RESERVE. -/
def execReserveWaitTimeout (pipe : Fin 2) (slot : Fin 8) (s : State) : Host.Outcome State Fault Refusal :=
  .next (match heldAt s pipe.val slot.val with
    | some h => if h.waiting then endJob h JST.NO_RESERVE [] s else s
    | none => s)

/-! Faults (R328, R338). -/

/-- STATUS.FAULT of CIP with its cause. -/
def cipFault (cause : Nat) (s : State) : State := setF .cip CIP_STATUS.FAULT_CAUSE cause (setFault .cip 1 s)

/-- A pipeline taken out of service until the next module reset: its jobs complete FAULT (R338). -/
def pipeOut (p cause : Nat) (s : State) : State :=
  let f := if p = 0 then CIP_STATUS.P0_OK else CIP_STATUS.P1_OK
  let s1 := setB .cip f false { s with cip := { s.cip with out := s.cip.out ||| 2 ^ p } }
  let s2 := raise .cip CIP_INT.PIPE_OUT (cipFault cause s1)
  refreshGate ((s2.cip.held.filter (fun h => decide (h.pipe = p))).foldl (fun t h => endJob h JST.FAULT [] t) s2)

/-- The parity errors of a pipeline within the last second, with a new one (R338). -/
def recentParity (s : State) (p : Nat) : List (Nat × Nat) :=
  s.cip.parity.filter (fun e => decide (e.1 ≠ p) || decide (slotTime s - e.2 < 200000000)) ++ [(p, slotTime s)]

/-- The time of a parity error kept with those of the last second. -/
def noteParity (p : Nat) (s : State) : State := { s with cip := { s.cip with parity := recentParity s p } }

/-- The job that a unit of a pipe holds ends FAULT (R338). -/
def failHeld (p k : Nat) (s : State) : State :=
  match heldAt s p k with
  | some h => endJob h JST.FAULT [] s
  | none => s

/-- CIPHER_PARITY_ERROR (R338): the job whose data it touches ends FAULT; the third within 1 s takes the pipeline out of service. -/
def parityError (p k : Nat) (s : State) : State :=
  let t := failHeld p k (diagReport 5 .cip (raise .cip CIP_INT.PARITY (noteParity p s)))
  if 3 ≤ (t.cip.parity.filter (fun e => decide (e.1 = p))).length ∧ !s.cip.out.testBit p then pipeOut p (1 + p) t else t

/-- CIPHER_PARITY_ERROR (R338). -/
def execCipherParityError (pipe : Fin 2) (slot : Fin 8) (s : State) : Host.Outcome State Fault Refusal :=
  .next (parityError pipe.val slot.val s)

/-- DRBG_HEALTH_FAIL (R328): KEYGEN and DERIVE fail until the next reseed. -/
def execDrbgHealthFail (s : State) : Host.Outcome State Fault Refusal :=
  .next (setB .cip CIP_STATUS.DRBG_OK false (cipFault 3 s))

/-! The CIP page (R342, R343). -/

/-- TEST_JOB: its descriptor and addresses are checked at issue; it then stands on the test ring. -/
def runTestJob (o : Outstanding) (s : State) : State :=
  let a := o.a0.toNat
  let j := parseDesc (busBytes s a 64)
  let s1 := touchArea a 64 s
  if !inHostArea a 64 then done .cip CODE.BAD_ARG s
  else if j.sel ≠ SEL.TEST ∨ !(testAreas j).all (fun x => inHostArea x.1 x.2) then done .cip CODE.BAD_ARG s1
  else submitJob 17 j s1

/-- TEST_JOB, CIP command 0x0001 (R343). -/
def execTestJob (src : CmdSrc) (s : State) : Host.Outcome State Fault Refusal := .next (issue .cip 0x0001 src runTestJob s)

/-- The abort of TEST_JOB: nothing runs before its job is accepted; afterwards the job is abandoned, and its record says so (R336, R343). The
command itself ends ABORTED either way. DEDUCED (log 20). -/
def abortTestJob (o : Outstanding) (s : State) : State :=
  if o.phase = 0 then done .cip CODE.ABORTED (setJobs 17 [] s)
  else match s.cip.held.find? (fun h => decide (h.ring = 17)) with
    | none => s
    | some h => endJob h JST.ABANDONED [] (complete .cip CODE.ABORTED JST.ABANDONED s)

/-- SELF_TEST, CIP command 0x0002 (R343): it stays outstanding until its known-answer tests have run. -/
def execSelfTest (src : CmdSrc) (s : State) : Host.Outcome State Fault Refusal := .next (issue .cip 0x0002 src (fun _ t => t) s)

/-- The completion of SELF_TEST: a pipeline that failed goes out of service with FAULT_CAUSE 4 (R338, R343). -/
def finishSelfTest (failed : Option (Fin 2)) (s : State) : State :=
  match failed with
  | none => done .cip CODE.OK s
  | some p => complete .cip 0x80 p.val (raise .cip CIP_INT.SELF_TEST_FAIL (pipeOut p.val 4 s))

/-- The test key zeroed, LOADED 0 (R342, R343). -/
def zeroTestKey (s : State) : State :=
  let s1 := resetOffsets .cip ((List.range 8).map (fun i => 0x140 + 4 * i)) s
  setB .cip CIP_TEST_CTL.LOADED false { s1 with cip := { s1.cip with testKey := [] } }

/-- ZERO_TEST_KEY, CIP command 0x0003 (R343). -/
def execZeroTestKey (src : CmdSrc) (s : State) : Host.Outcome State Fault Refusal :=
  .next (issue .cip 0x0003 src (fun _ t => done .cip CODE.OK (zeroTestKey t)) s)

/-- CIP_TEST_CTL_WRITE: a changed KEY256 zeroes the test key. -/
def execCipTestCtlWrite (value : Word) (s : State) : Host.Outcome State Fault Refusal :=
  let s1 := writeFields .cip 0x104 value s
  .next (if isSet s1 .cip CIP_TEST_CTL.KEY256 = isSet s .cip CIP_TEST_CTL.KEY256 then s1 else zeroTestKey s1)

/-- CIP_TEST_KEY_WRITE: a key word is stored, most significant byte first; the last word of the size sets LOADED. -/
def execCipTestKeyWrite (i : Fin 8) (value : Word) (s : State) : Host.Outcome State Fault Refusal :=
  let n := if isSet s .cip CIP_TEST_CTL.KEY256 then 8 else 4
  let s1 := setI .cip CIP_TEST_KEY.KEY i.val value.toNat s
  let loaded := isSet s .cip CIP_TEST_CTL.LOADED || decide (i.val + 1 = n)
  let key := (List.range n).flatMap (fun k => beBytes 4 (getI s1 .cip CIP_TEST_KEY.KEY k))
  .next (if loaded then setB .cip CIP_TEST_CTL.LOADED true { s1 with cip := { s1.cip with testKey := key } } else s1)

/-- CTRL.BLK_RESET of CIP (R342): jobs in flight complete RESET, the key cache is flushed, counters and the test key return to reset; keys,
their counters and pipelines out of service stay. -/
def cipBlkReset (s : State) : State :=
  let s1 := setJobs 17 [] (complete .cip CODE.RESET 0 s)
  let s2 := s1.cip.held.foldl (fun t h => endJob h JST.RESET [] t) s1
  zeroTestKey (resetOffsets .cip [0x108, 0x10C, 0x110, 0x114, 0x118] { s2 with cip := { s2.cip with kcache := [] } })

/-- CIP_BLK_RESET (R342). -/
def execCipBlkReset (s : State) : Host.Outcome State Fault Refusal := .next (cipBlkReset s)

end Sys2Proof.Machine
end

