-- ==== Sys2Proof/Machine/Asc.lean ====
section
/-!
DEFINITION. Sys2Proof/Machine/Asc.lean: the ASC page and its commands (R237–R242).
-/
namespace Sys2Proof.Machine

/-- ASC_RESULT: an index, and whether it is a parked one. -/
def setResult (parked : Bool) (i : Nat) (s : State) : State :=
  setB .asc ASC_RESULT.PARKED parked (setF .asc ASC_RESULT.INDEX (i % 2 ^ 25) s)

/-- Whether a command's index is a parked index (R242). -/
def argParked (o : Outstanding) : Bool := o.a1.toNat.testBit 24

/-- PROVISION: a PROVISIONED record from 40 bytes of the host area, read in the byte order of R214; JK is wrapped under SWK (R238, R326). The byte
order is DEDUCED (log 22). -/
def runProvision (o : Outstanding) (s : State) : State :=
  let a := o.a0.toNat
  let d := busBytes s a 40
  let ep := beAt d 0 8
  let s1 := touchArea a 40 s
  if !inHostArea a 40 then done .asc CODE.BAD_ARG s
  else if (findParked s ep).isSome ∨ (findSlot s ep tableSize (fun st => decide (st ≠ CST.FREE) && decide (st ≠ CST.FAULTED))).isSome then
    done .asc 0x80 s1
  else match freeParked s1 with
    | none => done .asc CODE.NO_RESOURCE s1
    | some k =>
      let c := setCtxFlags (beAt d 24 2) { Ctx.zero with
        state := CST.PROVISIONED, epId := ep, jk := wrapField s.cip.swk (slice d 8 16) 24, sup := beAt d 26 2, hostTag := beAt d 32 8 }
      done .asc CODE.OK (setResult true k (setParked k c s1))

/-- PROVISION, ASC command 0x0001 (R242). -/
def execProvision (src : CmdSrc) (s : State) : Host.Outcome State Fault Refusal := .next (issue .asc 0x0001 src runProvision s)

/-- READ_CTX: the 256 bytes of a record, its key fields zero. -/
def runReadCtx (o : Outstanding) (s : State) : State :=
  let i := o.a0.toNat
  let c := if argParked o then parkedRec s i else ctx s i
  let gone := if argParked o then decide (parkedSize ≤ i) || !(Map.keys s.mac.parked).contains i
    else decide (tableSize ≤ i) || decide (c.state = CST.FREE)
  let tm := if argParked o then List.replicate 16 0 else tmapField s i
  if !inHostArea o.a2.toNat 256 then done .asc CODE.BAD_ARG s
  else if gone then done .asc 0x81 s
  else done .asc CODE.OK (busWrite o.a2.toNat (ctxBytes c tm noKey noKey (List.replicate 24 0)) s)

/-- READ_CTX, ASC command 0x0002 (R242). -/
def execReadCtx (src : CmdSrc) (s : State) : Host.Outcome State Fault Refusal := .next (issue .asc 0x0002 src runReadCtx s)

/-- FIND: the slot that holds an EP_ID, else its parked record. -/
def runFind (o : Outstanding) (s : State) : State :=
  let ep := o.a0.toNat * 2 ^ 32 + o.a1.toNat
  match findSlot s ep tableSize (fun st => decide (st ≠ CST.FREE)), findParked s ep with
  | some i, _ => done .asc CODE.OK (setResult false i s)
  | none, some k => done .asc CODE.OK (setResult true k s)
  | none, none => done .asc 0x81 s

/-- FIND, ASC command 0x0003 (R242). -/
def execFind (src : CmdSrc) (s : State) : Host.Outcome State Fault Refusal := .next (issue .asc 0x0003 src runFind s)

/-- RELEASE and PARK: WRONG_STATE for a FREE slot; while a frame core owns the record the command waits (R240). -/
def runRelease (o : Outstanding) (s : State) : State :=
  let i := o.a0.toNat
  if tableSize ≤ i ∨ argParked o then done .asc CODE.BAD_ARG s
  else if (ctx s i).state = CST.FREE then done .asc 0x82 s
  else resumeRelease s

/-- RELEASE, ASC command 0x0004 (R242). -/
def execRelease (src : CmdSrc) (s : State) : Host.Outcome State Fault Refusal := .next (issue .asc 0x0004 src runRelease s)

/-- PARK, ASC command 0x0005 (R242). -/
def execPark (src : CmdSrc) (s : State) : Host.Outcome State Fault Refusal := .next (issue .asc 0x0005 src runRelease s)

/-- REKEY: WRONG_STATE unless ACTIVE; a rekey under way is not started again (R240); OK once REKEY has been sent; FAULT when no key could be
drawn (R328). -/
def runRekey (o : Outstanding) (s : State) : State :=
  let i := o.a0.toNat
  if tableSize ≤ i ∨ argParked o then done .asc CODE.BAD_ARG s
  else if (ctx s i).state ≠ CST.ACTIVE then done .asc 0x82 s
  else
    let s1 := startRekey i s
    match (assoc s1 i).rekey with
    | none => done .asc (if (ctx s i).rekeyPending then CODE.OK else CODE.FAULT) s1
    | some k => if 0 < k.sends then done .asc CODE.OK s1 else s1

/-- REKEY, ASC command 0x0006 (R242). -/
def execRekey (src : CmdSrc) (s : State) : Host.Outcome State Fault Refusal := .next (issue .asc 0x0006 src runRekey s)

/-- The REKEY element of an index has been sent: its sendings are counted, and an outstanding REKEY completes OK (R236, R242). -/
def rekeySent (i : Nat) (s : State) : State :=
  let a := assoc s i
  let s1 := setAssoc i { a with rekey := a.rekey.map (fun k => { k with sends := k.sends + 1, sentAt := sfn s }) } s
  match outstanding s1 .asc with
  | some o => if o.opcode = 6 ∧ o.a0.toNat = i then done .asc CODE.OK s1 else s1
  | none => s1

/-- DELETE_PARKED: WRONG_STATE while the record is promoted (R240). -/
def runDeleteParked (o : Outstanding) (s : State) : State :=
  let k := o.a0.toNat
  if !(Map.keys s.mac.parked).contains k then done .asc 0x81 s
  else if promoted s k then done .asc 0x82 s
  else done .asc CODE.OK (setParked k Ctx.zero s)

/-- DELETE_PARKED, ASC command 0x0007 (R242). -/
def execDeleteParked (src : CmdSrc) (s : State) : Host.Outcome State Fault Refusal :=
  .next (issue .asc 0x0007 src runDeleteParked s)

/-- SET_RECORD: FLAGS[15:11] and SUP of a record; BAD_ARG for a SUP outside 4–4,096 or an index that holds no record. -/
def runSetRecord (o : Outstanding) (s : State) : State :=
  let i := o.a0.toNat
  let sup := getBits o.a2 12 0
  let fl := getBits o.a2 31 16
  let upd (c : Ctx) : Ctx := setCtxFlags fl { c with sup := sup }
  if sup < 4 ∨ 4096 < sup then done .asc CODE.BAD_ARG s
  else if argParked o then
    (if (Map.keys s.mac.parked).contains i then done .asc CODE.OK (setParked i (upd (parkedRec s i)) s) else done .asc CODE.BAD_ARG s)
  else if tableSize ≤ i ∨ (ctx s i).state = CST.FREE then done .asc CODE.BAD_ARG s
  else done .asc CODE.OK (setCtx i (upd (ctx s i)) s)

/-- SET_RECORD, ASC command 0x0008 (R242). -/
def execSetRecord (src : CmdSrc) (s : State) : Host.Outcome State Fault Refusal := .next (issue .asc 0x0008 src runSetRecord s)

/-- The first epoch at least 256 superframes after the present one (R201, R237). -/
def applySfn (s : State) : Nat := ceilDiv (sfn s + 256) 8 * 8 % 2 ^ 32

/-- A beacon key drawn as the pending one, with its APPLY_SFN, and a BKEY element put up for every ACTIVE association (R237). -/
def rotateBkey (s : State) : State :=
  let (k, s1) := randBytes 16 s
  let (salt, s2) := randBytes 4 s1
  let gen := s.mac.bkey.elim 0 (fun b => (b.gen + 1) % 8)
  let s3 := setMac { s2.mac with bnext := some (⟨k, ofBE salt, gen, none⟩, applySfn s) } s2
  let s4 := setB .asc ASC_STATUS.BKEY_PENDING true s3
  (slotsWhere s4 (fun a => decide (a.c.state = CST.ACTIVE) && !a.c.session)).foldl (fun t i => sendBkey i t) s4

/-- ROTATE_BKEY: REFUSED while a rotation is pending; FAULT while the random source has failed (R328). -/
def runRotateBkey (_ : Outstanding) (s : State) : State :=
  if isSet s .asc ASC_STATUS.BKEY_PENDING then done .asc CODE.REFUSED s
  else if !isSet s .cip CIP_STATUS.DRBG_OK then done .asc CODE.FAULT s
  else done .asc CODE.OK (setResult false (applySfn s) (rotateBkey s))

/-- ROTATE_BKEY, ASC command 0x0009 (R242). -/
def execRotateBkey (src : CmdSrc) (s : State) : Host.Outcome State Fault Refusal := .next (issue .asc 0x0009 src runRotateBkey s)

/-- CTRL.BLK_RESET of ASC (R241): the counters and ASC_RESULT return to reset. -/
def execAscBlkReset (s : State) : Host.Outcome State Fault Refusal :=
  .next (blkReset .asc ([0x118] ++ (List.range 8).map (fun i => 0x120 + 4 * i)) s)

end Sys2Proof.Machine
end

