-- ==== Sys2Proof/Machine/Down.lean ====
section
/-!
DEFINITION. Sys2Proof/Machine/Down.lean: downlink frames of the host and of peers on lanes: descriptors, checks of switching commands, the
cipher job and the retransmission timeout (R14, R222, R372, R381, R382, R385, R477, R478).
-/
namespace Sys2Proof.Machine

/-- The frames the downlink store holds (R381). -/
def storeRoom : Nat := 4194304

/-- A ring set to ERROR by a failed DMA (R385). -/
def ringError (r : Nat) (s : State) : State :=
  let m := getF s .pci PCI_RING_ERR.ERR
  logPage .pci PCI_INT.RING_ERROR [r] (raise .pci PCI_INT.AER (raise .pci PCI_INT.RING_ERROR (setF .pci PCI_RING_ERR.ERR (m ||| 2 ^ r) s)))

/-- The frames of the host or of a lane held for an index (R382 EP_BUSY). -/
def heldFor (s : State) (i : Nat) : Nat :=
  (s.mac.frames.filter (fun f => decide (f.index = i) && decide (f.kind = .host))).length

/-- Whether the association or WAVE limits a frame to narrowband (R382 TOO_LONG). -/
def mustNarrow (c : Ctx) (wopt : Nat) : Bool := !c.session && decide (wopt ≠ 2) && (!c.bb || decide (wopt = 1))

/-- The longest LEN of a narrowband frame: 237 as DATA, 233 as a FLOOD (R382). -/
def narrowRoom (flood : Bool) : Nat := if flood then 233 else 237

/-- The waveform of a host frame: narrowband where it must, or where broadband is off and the frame fits; else broadband where allowed. -/
def hostWave (s : State) (i wopt len : Nat) : Wave :=
  let c := ctx s i
  let w := chooseWave s c wopt
  if w = .nb ∧ !mustNarrow c wopt ∧ c.bb ∧ narrowRoom (goesFlood s i) < len then .bb else w

/-! Switching commands (R476–R478). -/

/-- The first check of a downlink switching command that fails at step 1 of R477, as its reason code. -/
def sf2Step1 (s : State) (i : Nat) (v : List Byte) : Option Nat :=
  let k := beAt v 3 1
  let d := (beAt v 4 4 + 2 ^ 32 - ((assoc s i).sf2.getD 0)) % 2 ^ 32
  if v.length ≠ 22 + beAt v 16 2 ∨ beAt v 2 1 ≠ 1 ∨ k = 0 ∨ 3 < k then some 7
  else if !crc2Ok v then some 1
  else if beAt v 8 8 ≠ (ctx s i).epId then some 2
  else if (assoc s i).sf2.isSome ∧ (d = 0 ∨ getF s .saf SAF_SF2_CFG.SEQ_WIN < d) then some 3
  else none

/-- A switching command discarded: reported, and its descriptor completes SAFETY (R478). -/
def sf2Discard (f : Frame) (reason : Nat) (s : State) : State := finishFrame f DST.SAFETY (sf2Reject reason f.index f.seq s)

/-! Taking a frame (R381, R382, R477). -/

/-- The ENCRYPT job of a frame of the store submitted on the ring of the frame core that owns its record, with the FSEQ of a unit that is not an
INNER one (R219, R261, R321). -/
def submitFrame (f : Frame) (s : State) : State :=
  let c := ctx s f.index
  let (q, s1) := if c.session then (0, s) else nextFseq f.index f.wave s
  let j := { unitJob c f.index FT.DATA f.wave f.flood c.session false q f.body with frame := some f.id }
  submitJob (f.index % 16) j (setFrame { f with fseq := q, stage := .job } s1)

/-- A frame put into the store: a switching command passes step 1 of R477 and waits for its second check, any other is given to the cipher. -/
def storeFrame (ring lane : Option Nat) (d : DlDesc) (v : List Byte) (s : State) : State :=
  let i := d.index.toNat
  let w := hostWave s i d.wave.toNat v.length
  let sf2 := isSf2 s v
  let f : Frame := { Frame.blank with
    id := s.mac.nextFrame, index := i, kind := .host, ring := ring, lane := lane, cookie := d.cookie.toNat, wopt := d.wave.toNat, wave := w
    flood := decide (w = .nb) && goesFlood s i, ftype := FT.DATA, body := element EL.DATA v, due := sfn s, sf2 := sf2, seq := beAt v 4 4
    takenAt := sfn s, maxAge := getF s .saf SAF_SF2_CFG.MAX_AGE }
  if sf2 then
    match sf2Step1 s i v with
    | some r => dlDone ring lane f.cookie DST.SAFETY 0 (sf2Reject r i f.seq s)
    | none => addFrame f (setAssoc i { assoc s i with sf2 := some f.seq } s)
  else submitFrame f (addFrame f s)

/-- A downlink frame of a ring or a lane, with its findings in this order: BAD_DESC, DMA_ERR, NOT_ASSOC, EP_BUSY, TOO_LONG (R382). -/
def takeDown (ring lane : Option Nat) (d : DlDesc) (s : State) : State :=
  let i := d.index.toNat
  let n := d.len.toNat
  let out (st : Nat) (t : State) : State := dlDone ring lane d.cookie.toNat st 0 t
  if n = 0 ∨ 16381 < n ∨ 2 < d.wave.toNat then out DST.BAD_DESC s
  else match d.data with
    | none => out DST.DMA_ERR (ring.elim s (fun r => ringError r s))
    | some l =>
      if tableSize ≤ i ∨ (ctx s i).state ≠ CST.ACTIVE then out DST.NOT_ASSOC s
      else if getF s .pci PCI_DL_CFG.PER_EP ≤ heldFor s i then out DST.EP_BUSY s
      else if mustNarrow (ctx s i) d.wave.toNat ∧ narrowRoom (goesFlood s i) < n then out DST.TOO_LONG s
      else storeFrame ring lane d (padTo n (l.take n)) s

/-- Whether the downlink store has room and the module takes frames: a STANDBY, a module whose role is not settled and one that drains for a
HANDOVER take none (R381, R401, R411). -/
def takesDown (s : State) : Bool :=
  decide (s.mac.frames.length < storeRoom) && decide (pairRole s < 2) &&
    !(outstanding s .pair).elim false (fun o => decide (o.opcode = 1))

/-- DL_DESCRIPTOR_TAKEN (R381): the next posted descriptor of a running DL ring that is not being reset. -/
def takeDescriptor (r : Nat) (d : DlDesc) (s : State) : State :=
  let resetting := (outstanding s .pci).elim false (fun o => decide (o.opcode = 1) && decide (o.a0.toNat = r))
  if !ringPosted s r || !takesDown s || resetting then s else takeDown (some r) none d (takeEntry r s)

/-- DL_DESCRIPTOR_TAKEN (R381). -/
def execDlDescriptorTaken (r : Fin 16) (d : DlDesc) (s : State) : Host.Outcome State Fault Refusal :=
  .next (takeDescriptor r.val d s)

/-- SF2_RECHECK (R477 step 2): the plaintext read back is right, and its cipher job follows, or the frame is discarded. -/
def execSf2Recheck (n : Nat) (good : Bool) (s : State) : Host.Outcome State Fault Refusal :=
  .next (match frameOf s n with
    | none => s
    | some f =>
      if f.sf2 && decide (f.stage = .queued) then
        (if good then submitFrame { f with rechecked := true } s else sf2Discard f 5 s)
      else s)

/-! Retransmission (R222, R250). -/

/-- A frame not acknowledged in time: sent again with identical bytes, at most 3 times; then it completes NO_ACK. An APPOINT's element is put up
again, its command having no other end. DEDUCED (log 23). -/
def retransmit (f : Frame) (s : State) : State :=
  if f.sends ≤ 3 then setFrame { f with stage := .ready, waits := 0, due := sfn s } s
  else if f.kind = .repeater then setFrame { f with stage := .ready, waits := 0, sends := 0, payload := [], due := sfn s } s
  else finishFrame f DST.NO_ACK s

/-- RETRANSMIT_TIMEOUT (R222): 4 superframes, or more for a flood (R250), after a sending that has not been acknowledged. -/
def execRetransmitTimeout (n : Nat) (s : State) : Host.Outcome State Fault Refusal :=
  .next (match frameOf s n with
    | none => s
    | some f => if f.stage = .waitAck ∧ reached s f.due then retransmit f s else s)

end Sys2Proof.Machine
end

