-- ==== Sys2Proof/Machine/Link.lean ====
section
/-!
DEFINITION. Sys2Proof/Machine/Link.lean: lanes going up and down, PAUSE, doorbells, uplink and event delivery, ring resets
(spec/18_backhaul_and_host.md).
-/
namespace Sys2Proof.Machine

/-! Lanes (R366, R367, R371). -/

/-- The event of a lane's change (R367, R383). -/
def laneChange (l up : Nat) (s : State) : State := hostEvent 0x0006 0 0 0 [byteOf l, byteOf up] s

/-- LANE_UP of a backhaul lane: SEQ restarts (R369). -/
def laneRise (l : Nat) (s : State) : State :=
  let p := lanPage l
  if laneUp s l ∨ !isSet s p LAN_CFG.EN then s
  else
    let s1 := setB p LAN_STATUS.UP true (setB p LAN_STATUS.BLOCK_LOCK true (setB p LAN_STATUS.HI_BER false s))
    refreshTunnel (laneChange l 1 (raise p LAN_INT.UP (setLane l LaneSt.rest s1)))

/-- LANE_UP of a mirror lane (R402). -/
def mirrorRise (m : Fin 2) (s : State) : State :=
  let p : Page := .lanm m
  if isSet s p LANM_STATUS.UP ∨ !isSet s p LANM_CFG.EN then s
  else raise p LANM_INT.UP (setB p LANM_STATUS.UP true (setB p LANM_STATUS.BLOCK_LOCK true (setB p LANM_STATUS.HI_BER false s)))

/-- The lanes that stay on in OUTAGE: the one named, and PM0 of an ACTIVE or STANDBY (R69). -/
def laneKept (s : State) : LaneId → Bool
  | .bh l => decide (getF s .pwr PWR_POLICY.OUTAGE_LANE = l.val)
  | .pm m => decide (m.val = 0) && (decide (pairRole s = 1) || decide (pairRole s = 2))

/-- LANE_UP (R367): a lane that OUTAGE has switched off does not come up (R69). -/
def execLaneUp (l : LaneId) (s : State) : Host.Outcome State Fault Refusal :=
  .next (if inOutage s && !laneKept s l then s else match l with | .bh l => laneRise l.val s | .pm m => mirrorRise m s)

/-- A frame that PAUSE held when its lane went down: UP_DATA goes to the region, the others to the lane chosen now, else they are dropped (R371,
R372). -/
def rerouteHeld (l : Nat) (f : TunnelFrame) (s : State) : State :=
  let i := f.index.getD 0
  if f.ttype = TT.UP_DATA then divert false ⟨i, (ctx s i).epId, f.sfn, false, f.body, 0, f.seq⟩ s
  else match chosenLane s with
    | some k => laneSend k f s
    | none => if f.ttype = TT.DOWN_STATUS then count (lanPage l) LAN_RX_DROP_CNT.COUNT s else s

/-- A backhaul lane goes down: a frame whose transmission had begun is also stored (R371). -/
def laneFall (l : Nat) (lock hiBer busy : Bool) (s : State) : State :=
  let p := lanPage l
  let x := lane s l
  if !laneUp s l then s
  else
    let s1 := setB p LAN_STATUS.UP false (setB p LAN_STATUS.BLOCK_LOCK lock (setB p LAN_STATUS.HI_BER hiBer (setB p LAN_STATUS.PAUSED false s)))
    let s2 := setLane l { x with wait := [], last := none } s1
    let s3 := match x.last with
      | some f => if busy then divert false f s2 else s2
      | none => s2
    let s4 := x.wait.foldl (fun t f => rerouteHeld l f t) s3
    refreshTunnel (laneChange l 0 (raise p LAN_INT.DOWN s4))

/-- A mirror lane goes down. -/
def mirrorFall (m : Fin 2) (lock hiBer : Bool) (s : State) : State :=
  let p : Page := .lanm m
  if !isSet s p LANM_STATUS.UP then s
  else raise p LANM_INT.DOWN (setB p LANM_STATUS.UP false (setB p LANM_STATUS.BLOCK_LOCK lock (setB p LANM_STATUS.HI_BER hiBer s)))

/-- LANE_DOWN (R367): hi_ber, or the loss of block lock; `busy` tells whether a frame was being transmitted. -/
def execLaneDown (l : LaneId) (hiBer busy : Bool) (s : State) : Host.Outcome State Fault Refusal :=
  .next (match l with | .bh l => laneFall l.val hiBer hiBer busy s | .pm m => mirrorFall m hiBer hiBer s)

/-- CTRL.BLK_RESET of a lane page: the PCS retrains, so the lane goes down; the counters return to reset. -/
def execLanBlkReset (l : LaneId) (s : State) : Host.Outcome State Fault Refusal :=
  .next (match l with
    | .bh l => blkReset (.lan l) [0x12C, 0x130, 0x134, 0x138, 0x13C] (laneFall l.val false false true s)
    | .pm m => blkReset (.lanm m) [0x104, 0x108, 0x10C] (mirrorFall m false false s))

/-- The frames that PAUSE held sent, oldest first. -/
def endPause (l : Nat) (s : State) : State :=
  let x := lane s l
  let s1 := setB (lanPage l) LAN_STATUS.PAUSED false (setLane l { x with wait := [], until_ := 0 } s)
  x.wait.foldl (fun t f => laneSend l f t) s1

/-- PAUSE_RECEIVED (R366): a quantum is 512 bit times, 10.24 samples of module time; a value of 0 ends the pause. -/
def pauseIn (l quanta : Nat) (s : State) : State :=
  let p := lanPage l
  if !laneUp s l then s
  else
    let s1 := raise p LAN_INT.PAUSE s
    if !isSet s p LAN_CFG.PAUSE_EN then s1
    else if quanta = 0 then endPause l s1
    else setB p LAN_STATUS.PAUSED true (setLane l { lane s1 l with until_ := slotTime s + ceilDiv (quanta * 1024) 100 } s1)

/-- PAUSE_RECEIVED (R366). -/
def execPauseReceived (l : Lane) (quanta : BitVec 16) (s : State) : Host.Outcome State Fault Refusal :=
  .next (pauseIn l.val quanta.toNat s)

/-- The pauses that have run out by the present slot end. -/
def tickPauses (s : State) : State :=
  ([0, 1, 2, 3] : List Nat).foldl (fun t l =>
    if isSet t (lanPage l) LAN_STATUS.PAUSED && decide ((lane t l).until_ ≤ slotTime t) then endPause l t else t) s

/-! Doorbells (R380, R384). -/

/-- An entry of a command ring that no page takes: BAD_ARG for an unlisted page or ABORT, touching no page (R384); BAD_OPCODE on the page it
names (R42). -/
def badEntry (r : Fin 4) (e : BadEntry) (s : State) : State :=
  match e with
  | .unlisted cookie page =>
    if ringPosted s (24 + r.val) then
      ringComplete (24 + r.val) (.cmd cookie.toNat CODE.BAD_ARG 0 false page.toNat) (takeEntry (24 + r.val) s)
    else s
  | .undefined p cookie tag => issue p 0xFFFF (.ring r cookie tag 0 0 0) (fun _ t => done p CODE.BAD_OPCODE t) s

/-- SQ_PROD_DOORBELL (R380): a producer index that would put more descriptors outstanding than the ring holds sets it to ERROR. -/
def sqProd (r : Nat) (v : Nat) (bad : List BadEntry) (s : State) : State :=
  if 28 < r then s
  else
    let s1 := setRing r { ring s r with sqProd := v } s
    if ringSize s r < sfnDiff (getI s .pci PCI_RING.SQ_CONS r) v then (if ringErr s r then s else ringError r s)
    else if 24 ≤ r ∧ r < 28 then bad.foldl (fun t e => badEntry (Fin.ofNat 4 (r - 24)) e t) s1
    else s1

/-- SQ_PROD_DOORBELL (R380). -/
def execSqProdDoorbell (r : Fin 32) (value : Word) (bad : List BadEntry) (s : State) : Host.Outcome State Fault Refusal :=
  .next (sqProd r.val value.toNat bad s)

/-- CQ_CONS_DOORBELL (R380): entries that waited for room are written. -/
def execCqConsDoorbell (r : Fin 32) (value : Word) (s : State) : Host.Outcome State Fault Refusal :=
  .next (if 28 < r.val then s else flushRing r.val (setRing r.val { ring s r.val with cqCons := value.toNat } s))

/-- RING_DMA_ERROR (R385). -/
def execRingDmaError (r : Fin 29) (s : State) : Host.Outcome State Fault Refusal :=
  .next (if ringErr s r.val then s else ringError r.val s)

/-- RING_COALESCE_EXPIRY (R378). -/
def execRingCoalesceExpiry (r : Fin 29) (s : State) : Host.Outcome State Fault Refusal :=
  .next (if (ring s r.val).pend = 0 ∨ !ringUp s r.val then s else ringMessage r.val s)

/-- MSIX_UNMASK (R378): a message that masking held back is sent. -/
def execMsixUnmask (v : Fin 64) (s : State) : Host.Outcome State Fault Refusal :=
  let clear (m : Nat) : Nat := if m.testBit v.val then m - 2 ^ v.val else m
  let s1 := { s with msixMask := clear s.msixMask, msixPba := clear s.msixPba }
  .next (if s.msixPba.testBit v.val then emit (.msix v.val) s1 else s1)

/-! Uplink and events (R371, R383). -/

/-- The UL ring of an index, from 0 (R383). -/
def ulRing (s : State) (i : Nat) : Nat := i % max 1 (getF s .pci PCI_UL_CFG.RINGS)

/-- A frame written to the next posted buffer of a UL ring, with its completion (R383). -/
def ulComplete (r kind : Nat) (cookie : Nat) (f : UlFrame) (s : State) : State :=
  count .pci PCI_UL_DONE_CNT.COUNT
    (ringComplete (16 + r) (.ul cookie kind f.narrow f.index f.sfn f.epId f.data) (takeEntry (16 + r) s))

/-- UL_DELIVERY (R371, R383): the oldest frame of the holding area whose index belongs to the ring. -/
def ulDelivery (r cookie : Nat) (s : State) : State :=
  match s.link.hold.find? (fun f => decide (ulRing s f.index = r)) with
  | none => s
  | some f => if ringPosted s (16 + r) then ulComplete r 1 cookie f (setLink { s.link with hold := s.link.hold.erase f } s) else s

/-- UL_DELIVERY (R383). -/
def execUlDelivery (r : Fin 8) (cookie : BitVec 64) (s : State) : Host.Outcome State Fault Refusal :=
  .next (ulDelivery r.val cookie.toNat s)

/-- Whether the EVENT ring takes an entry now. -/
def eventRoom (s : State) : Bool := ringUp s 28 && ringRoom s 28 && (ring s 28).waiting.isEmpty

/-- The LOST record of the events lost so far, written first when room has returned (R383). -/
def writeLost (s : State) : State :=
  let n := (ring s 28).lost
  if n = 0 ∨ !eventRoom s then s
  else ringComplete 28 (.event 0x0004 (sfn s) 0 0 0 (leBytes 4 n)) (setRing 28 { ring s 28 with lost := 0 } s)

/-- EVENT_RECORD_DELIVERY (R383): the oldest event is written, or, when the ring is full or does not run, it is kept only in Tarlum's log and
counted. -/
def eventDelivery (s : State) : State :=
  let s1 := writeLost s
  match s1.link.events with
  | [] => s1
  | e :: rest =>
    let s2 := setLink { s1.link with events := rest } s1
    if eventRoom s2 then ringComplete 28 (.event e.code e.sfn e.index e.epId e.reason e.body) s2
    else
      let x := ring s2 28
      let s3 := count .pci PCI_EVT_LOST_CNT.COUNT (setRing 28 { x with lost := x.lost + 1 } s2)
      logPage .pci PCI_INT.EVENT_LOST [e.code, e.sfn, e.index, e.epId / 2 ^ 32, e.epId % 2 ^ 32, e.reason]
        (raise .pci PCI_INT.EVENT_LOST s3)

/-- EVENT_RECORD_DELIVERY (R383). -/
def execEventRecordDelivery (s : State) : Host.Outcome State Fault Refusal := .next (eventDelivery s)

/-! Ring resets (R386, R387, R389). -/

/-- Whether a frame has reached the line. -/
def onLine (f : Frame) : Bool := decide (f.stage = .line) || decide (f.stage = .waitAck)

/-- The frames of a ring that are not on the line complete FLUSHED; what was planned for them is not sent (R387). -/
def flushFrames (r : Nat) (s : State) : State :=
  let l := s.mac.frames.filter (fun f => decide (f.ring = some r) && !onLine f)
  l.foldl (fun t f => finishFrame f DST.FLUSHED
    { t with plan := { t.plan with items := t.plan.items.filter (fun x => decide (x.purpose ≠ .downlink f.id)) } }) s

/-- A ring disabled with its indices 0: completions without a place are counted (R387, R389). -/
def killRing (r : Nat) (s : State) : State :=
  let n := (ring s r).waiting.length
  let p := Page.pci
  let s1 := setI p PCI_RING.EN r 0 (setI p PCI_RING.SQ_CONS r 0 (setI p PCI_RING.CQ_PROD r 0 (setRing r RingSt.empty s)))
  let s2 := setF p PCI_RING_ERR.ERR (if ringErr s1 r then getF s1 p PCI_RING_ERR.ERR - 2 ^ r else getF s1 p PCI_RING_ERR.ERR) s1
  countN p PCI_CMPL_LOST_CNT.COUNT n s2

/-- The frames and commands that came from a ring lose the place of their completion (R386, R387). -/
def loseRing (r : Nat) (s : State) : State :=
  let s1 := setMac { s.mac with frames := s.mac.frames.map (fun f => if f.ring = some r then { f with ring := some lostRing } else f) } s
  let s2 := setLink { s1.link with done := s1.link.done.map (fun d => if d.ring = some r then { d with ring := some lostRing } else d) } s1
  { s2 with
    cmds := Map.mapVals (fun _ => CmdSlot.empty) (fun c => { c with
      out := c.out.map (fun o => { o with origin := o.origin.map (fun g => if g.ring = r then { g with lost := true } else g) }) }) s2.cmds }

/-- Whether a ring has frames in the store or completions on their way. -/
def ringBusy (s : State) (r : Nat) : Bool :=
  s.mac.frames.any (fun f => decide (f.ring = some r)) || s.link.done.any (fun d => decide (d.ring = some r))

/-- RING_RESET completes once the last downlink frame of its ring has completed (R389). -/
def ringResetDone (s : State) : State :=
  match outstanding s .pci with
  | none => s
  | some o =>
    if o.opcode ≠ 1 ∨ ringBusy s o.a0.toNat then s else done .pci CODE.OK (killRing o.a0.toNat (loseRing o.a0.toNat s))

/-- RING_RESET: BAD_ARG beyond ring 28; frames not on the line are flushed. -/
def runRingReset (o : Outstanding) (s : State) : State :=
  if 28 < o.a0.toNat then done .pci CODE.BAD_ARG s else ringResetDone (flushFrames o.a0.toNat s)

/-- RING_RESET, PCI command 0x0001 (R389). -/
def execRingReset (src : CmdSrc) (s : State) : Host.Outcome State Fault Refusal := .next (issue .pci 0x0001 src runRingReset s)

/-- The downlink completions of a ring on their way delivered. -/
def deliverRing (r : Nat) (s : State) : State :=
  let l := s.link.done.filter (fun d => decide (d.ring = some r))
  l.foldl (fun t d => deliverDone d t) (setLink { s.link with done := s.link.done.filter (fun d => decide (d.ring ≠ some r)) } s)

/-- Every ring reset at once, frames not on the line flushed. -/
def resetRings (s : State) : State :=
  (List.range 29).foldl (fun t r => killRing r (loseRing r (deliverRing r (flushFrames r t)))) s

/-- CTRL.BLK_RESET of PCI: as RING_RESET on every ring; the counters return to reset and the link stays. -/
def execPciBlkReset (s : State) : Host.Outcome State Fault Refusal :=
  .next (blkReset .pci [0x110, 0x114, 0x118, 0x11C, 0x120] (resetRings s))

/-- PERST#: every ring is reset without a completion being written; frames already taken are still sent (R386). -/
def perstRings (s : State) : State := (List.range 29).foldl (fun t r => killRing r (loseRing r t)) s

/-- PCIE_LINK_CHANGE (R377). -/
def execPcieLinkChange (up : Bool) (width speed : BitVec 4) (master : Bool) (s : State) : Host.Outcome State Fault Refusal :=
  let s1 := setF .pci PCI_STATUS.WIDTH (if up then width.toNat else 0) (setF .pci PCI_STATUS.SPEED (if up then speed.toNat else 0) s)
  let s2 := setB .pci PCI_STATUS.BUS_MASTER (up && master) s1
  .next (if isSet s .pci PCI_STATUS.LINK_UP = up then s2
    else raise .pci PCI_INT.LINK_CHANGE (setB .pci PCI_STATUS.LINK_UP up s2))

end Sys2Proof.Machine
end

