-- ==== Sys2Proof/Machine/Sign.lean ====
section
/-!
DEFINITION. Sys2Proof/Machine/Sign.lean: SHA-256 (FIPS 180-4), and ECDSA and ECDH over P-256 (FIPS 186-4, SP 800-56A), as R86, R430, R431, R444 and
R447 name them.
-/
namespace Sys2Proof.Machine

/-! SHA-256. -/

/-- The first 64 primes, whose roots give the constants. -/
def shaPrimes : List Nat :=
  [2, 3, 5, 7, 11, 13, 17, 19, 23, 29, 31, 37, 41, 43, 47, 53, 59, 61, 67, 71, 73, 79, 83, 89, 97, 101, 103, 107, 109, 113, 127, 131] ++
  [137, 139, 149, 151, 157, 163, 167, 173, 179, 181, 191, 193, 197, 199, 211, 223, 227, 229, 233, 239, 241, 251, 257, 263, 269, 271, 277,
   281, 283, 293, 307, 311]

/-- The largest number whose `k`th power does not exceed `v`, by its bits from bit `n - 1` down. -/
def rootBits (k v : Nat) : Nat → Nat → Nat
  | 0, r => r
  | n + 1, r => rootBits k v n (if (r + 2 ^ n) ^ k ≤ v then r + 2 ^ n else r)

/-- The first 32 bits of the fraction of a prime's `k`th root. -/
def rootFraction (k p : Nat) : Nat := rootBits k (p * 2 ^ (32 * k)) 37 0 % 2 ^ 32

/-- The round constants. -/
def shaK : List Nat := shaPrimes.map (rootFraction 3)

/-- The initial hash value. -/
def shaInit : List Nat := (shaPrimes.take 8).map (rootFraction 2)

/-- A 32-bit word rotated right. -/
def rotr32 (n v : Nat) : Nat := v / 2 ^ n + v % 2 ^ n * 2 ^ (32 - n)

/-- The next words of a message schedule. -/
def shaExtend : Nat → List Nat → List Nat
  | 0, w => w
  | n + 1, w =>
    let x (i : Nat) : Nat := w.getD (w.length - i) 0
    let s0 := rotr32 7 (x 15) ^^^ rotr32 18 (x 15) ^^^ (x 15 / 8)
    let s1 := rotr32 17 (x 2) ^^^ rotr32 19 (x 2) ^^^ (x 2 / 1024)
    shaExtend n (w ++ [(x 16 + s0 + x 7 + s1) % 2 ^ 32])

/-- One round: the eight working words, a constant and a schedule word. -/
def shaRound (h : List Nat) (k w : Nat) : List Nat :=
  let v (i : Nat) : Nat := h.getD i 0
  let s1 := rotr32 6 (v 4) ^^^ rotr32 11 (v 4) ^^^ rotr32 25 (v 4)
  let ch := (v 4 &&& v 5) ^^^ ((2 ^ 32 - 1 - v 4) &&& v 6)
  let t1 := v 7 + s1 + ch + k + w
  let s0 := rotr32 2 (v 0) ^^^ rotr32 13 (v 0) ^^^ rotr32 22 (v 0)
  let maj := (v 0 &&& v 1) ^^^ (v 0 &&& v 2) ^^^ (v 1 &&& v 2)
  [(t1 + s0 + maj) % 2 ^ 32, v 0, v 1, v 2, (v 3 + t1) % 2 ^ 32, v 4, v 5, v 6]

/-- The hash value after a block of 64 bytes. -/
def shaBlock (h : List Nat) (b : List Byte) : List Nat :=
  let w := shaExtend 48 ((List.range 16).map (fun i => beAt b (4 * i) 4))
  let r := (shaK.zip w).foldl (fun a e => shaRound a e.1 e.2) h
  (h.zip r).map (fun e => (e.1 + e.2) % 2 ^ 32)

/-- The hash value after `n` blocks. -/
def shaBlocks : Nat → List Nat → List Byte → List Nat
  | 0, h, _ => h
  | n + 1, h, l => shaBlocks n (shaBlock h (l.take 64)) (l.drop 64)

/-- SHA-256 of a string of bytes. -/
def sha256 (l : List Byte) : List Byte :=
  let zeros := (119 - l.length % 64) % 64
  let m := l ++ [0x80] ++ List.replicate zeros 0 ++ beBytes 8 (l.length * 8)
  (shaBlocks (m.length / 64) shaInit m).flatMap (beBytes 4)

/-! P-256. -/

/-- The field prime. -/
def pP : Nat := 2 ^ 256 - 2 ^ 224 + 2 ^ 192 + 2 ^ 96 - 1

/-- The order of the group. -/
def pN : Nat := 0xFFFFFFFF00000000FFFFFFFFFFFFFFFFBCE6FAADA7179E84F3B9CAC2FC632551

/-- The coefficient b of the curve y² = x³ − 3x + b. -/
def pB : Nat := 0x5AC635D8AA3A93E7B3EBBD55769886BC651D06B0CC53B0F63BCE3C3E27D2604B

/-- The base point. -/
def pG : Nat × Nat :=
  (0x6B17D1F2E12C4247F8BCE6E563A440F277037D812DEB33A0F4A13945D898C296, 0x4FE342E2FE1A7F9B8EE7EB4A7C0F9E162BCE33576B315ECECBB6406837BF51F5)

/-- A power modulo `m`, by the bits of the exponent from bit `n - 1` down. -/
def powMod (m b e : Nat) : Nat → Nat → Nat
  | 0, a => a
  | n + 1, a => powMod m b e n (if e.testBit n then a * a % m * b % m else a * a % m)

/-- The inverse modulo a 256-bit prime. -/
def invMod (m v : Nat) : Nat := powMod m (v % m) (m - 2) 256 1

/-- The sum of two points of the curve; none is the point at infinity. -/
def pAdd (a b : Option (Nat × Nat)) : Option (Nat × Nat) :=
  match a, b with
  | none, q => q
  | p, none => p
  | some (x1, y1), some (x2, y2) =>
    if x1 = x2 ∧ (y1 + y2) % pP = 0 then none
    else
      let l := if x1 = x2 then (3 * x1 * x1 + (pP - 3)) * invMod pP (2 * y1) % pP
        else (y2 + pP - y1) * invMod pP (x2 + pP - x1) % pP
      let x3 := (l * l + (pP - x1) + (pP - x2)) % pP
      some (x3, (l * (x1 + pP - x3) + (pP - y1)) % pP)

/-- A multiple of a point, by the bits of the factor from bit `n - 1` down. -/
def pMul (k : Nat) (p : Option (Nat × Nat)) : Nat → Option (Nat × Nat) → Option (Nat × Nat)
  | 0, a => a
  | n + 1, a => pMul k p n (if k.testBit n then pAdd (pAdd a a) p else pAdd a a)

/-- The point that a public key x ‖ y of 64 bytes names, when it lies on the curve. -/
def pPoint (key : List Byte) : Option (Nat × Nat) :=
  let x := beAt key 0 32
  let y := beAt key 32 32
  if key.length = 64 ∧ x < pP ∧ y < pP ∧ y * y % pP = (x * x * x + (pP - 3) * x + pB) % pP then some (x, y) else none

/-- A public key x ‖ y of a private key. -/
def publicKey (d : Nat) : List Byte :=
  match pMul d (some pG) 256 none with
  | some (x, y) => beBytes 32 x ++ beBytes 32 y
  | none => List.replicate 64 0

/-- Whether a signature r ‖ s of 64 bytes over a SHA-256 digest verifies against a public key. -/
def ecdsaOk (key digest sig : List Byte) : Bool :=
  let r := beAt sig 0 32
  let t := beAt sig 32 32
  match pPoint key with
  | none => false
  | some q =>
    if sig.length ≠ 64 ∨ r = 0 ∨ pN ≤ r ∨ t = 0 ∨ pN ≤ t then false
    else
      let w := invMod pN t
      let u1 := ofBE digest * w % pN
      let u2 := r * w % pN
      match pAdd (pMul u1 (some pG) 256 none) (pMul u2 (some q) 256 none) with
      | none => false
      | some (x, _) => decide (x % pN = r)

/-- The x-coordinate of the secret that a private key shares with a public key. -/
def ecdh (d : Nat) (key : List Byte) : List Byte :=
  match pMul d (pPoint key) 256 none with
  | some (x, _) => beBytes 32 x
  | none => List.replicate 32 0

end Sys2Proof.Machine
end

