-- ==== Sys2Proof/Machine/Sto.lean ====
section
/-!
DEFINITION. Sys2Proof/Machine/Sto.lean: the bulk store: regions, host block commands, store-and-forward (spec/19_bulk_store.md), and the
layout of the LOG region (R432, R435).
-/
namespace Sys2Proof.Machine

/-! Regions (R390). -/

/-- The blocks of a region (R390): SYS, PARK, LOG, EPFW, HOST, SNF. -/
def regionBlocks (r : Nat) : Nat := ([262144, 2097152, 4194304, 16777216, 67108864, 1703 * 262144] : List Nat).getD r 0

/-- LOG. -/
def REGION.LOG : Nat := 2
/-- EPFW. -/
def REGION.EPFW : Nat := 3
/-- HOST. -/
def REGION.HOST : Nat := 4

/-- Whether a host command may name a region (R390, R392): READ_BLOCKS reads LOG, EPFW and HOST; the others act on HOST. -/
def regionOk (op r : Nat) : Bool := decide (r = REGION.HOST) || (decide (op = 1) && (decide (r = REGION.LOG) || decide (r = REGION.EPFW)))

/-- A block of EPFW or HOST changed; a block of zeros is not listed. -/
def setBlock (r lba : Nat) (l : List Byte) (s : State) : State :=
  let v := if l.all (fun b => decide (b = 0)) then [] else l
  { s with sto := { s.sto with blocks := Map.set (fun _ => []) s.sto.blocks (r * 2 ^ 28 + lba) v } }

/-! The LOG region (R432, R435). -/

/-- The 64 bytes of an event record (R432). -/
def logBytes (r : LogRec) : List Byte :=
  let b := beBytes 4 r.seq ++ beBytes 6 r.rtc ++ beBytes 6 r.timeS ++ beBytes 4 r.timeNs ++ beBytes 2 r.code ++ beBytes 2 r.inst ++
    [byteOf (r.tq * 16 + r.mode), 0, 0, 0] ++ padTo 32 ((r.detail.flatMap (beBytes 4)).take 32)
  b ++ beBytes 4 (crc32 b)

/-- The record at a position of the LOG region. -/
def logAt (s : State) (k : Nat) : Option LogRec := Map.get (fun _ => none) s.log.region k

/-- A block of the store as the host reads it (R392, R435): a block that holds nothing reads as zero. -/
def readBlock (s : State) (r lba : Nat) : List Byte :=
  if r = REGION.LOG then (List.range 64).flatMap (fun i => (logAt s (lba * 64 + i)).elim (List.replicate 64 0) logBytes)
  else padTo 4096 (Map.get (fun _ => []) s.sto.blocks (r * 2 ^ 28 + lba))

/-- Records of the buffer written to the LOG region, each over the oldest (R434, R435). -/
def flushLog (s : State) : State :=
  { s with log := { s.log with
      buf := [], region := s.log.buf.foldl (fun m r => Map.set (fun _ => none) m (r.seq % 2 ^ 28) (some r)) s.log.region } }

/-! Host block commands (R391–R393, R398). -/

/-- Region and first LBA of a command. -/
def argRegion (o : Outstanding) : Nat := getBits o.a0 31 28

/-- First LBA of a command. -/
def argLba (o : Outstanding) : Nat := getBits o.a0 27 0

/-- The checks of a block command at its issue: the arguments, then the region and its end, then READ_ONLY for a write (R392, R393). -/
def checkBlocks (o : Outstanding) (s : State) : Option Nat :=
  let n := o.a1.toNat
  if n = 0 ∨ (if o.opcode = 3 then 2 ^ 24 else 256) < n then some CODE.BAD_ARG
  else if o.opcode ≠ 3 ∧ (o.a2.toNat % 4096 ≠ 0 ∨ !inHostArea o.a2.toNat (4096 * n)) then some CODE.BAD_ARG
  else if !regionOk o.opcode (argRegion o) ∨ regionBlocks (argRegion o) < argLba o + n then some 0x80
  else if o.opcode = 2 ∧ isSet s .sto STO_STATUS.READ_ONLY then some 0x82
  else none

/-- A block command: refused at once by its checks, or outstanding until it has run. -/
def runBlocks (o : Outstanding) (s : State) : State :=
  match checkBlocks o s with
  | some c => done .sto c s
  | none => s

/-- READ_BLOCKS, STO command 0x0001 (R398). -/
def execReadBlocks (src : CmdSrc) (s : State) : Host.Outcome State Fault Refusal := .next (issue .sto 0x0001 src runBlocks s)

/-- WRITE_BLOCKS, STO command 0x0002 (R398). -/
def execWriteBlocks (src : CmdSrc) (s : State) : Host.Outcome State Fault Refusal := .next (issue .sto 0x0002 src runBlocks s)

/-- TRIM, STO command 0x0003 (R398). -/
def execTrim (src : CmdSrc) (s : State) : Host.Outcome State Fault Refusal := .next (issue .sto 0x0003 src runBlocks s)

/-- The first `n` blocks of a read copied to the host area. -/
def copyOut (o : Outstanding) (n : Nat) (s : State) : State :=
  (List.range n).foldl (fun t k => busWrite (o.a2.toNat + 4096 * k) (readBlock t (argRegion o) (argLba o + k)) t) s

/-- The first `n` blocks of a write programmed. -/
def programIn (o : Outstanding) (n : Nat) (s : State) : State :=
  (List.range n).foldl (fun t k => setBlock (argRegion o) (argLba o + k) (busBytes t (o.a2.toNat + 4096 * k) 4096) t)
    (touchArea o.a2.toNat (4096 * n) s)

/-- The output area of a read from block `k` on holds bytes that the spec leaves undefined (R392, R398). -/
def openOutput (o : Outstanding) (k : Nat) (s : State) : State :=
  let (l, t) := freeBytes (4096 * (o.a1.toNat - k)) s
  busWrite (o.a2.toNat + 4096 * k) l t

/-- The blocks of a range that are listed, unlisted. -/
def trimBlocks (r lba n : Nat) (s : State) : State :=
  let k := r * 2 ^ 28 + lba
  { s with sto := { s.sto with blocks := s.sto.blocks.filter (fun e => !(decide (k ≤ e.1) && decide (e.1 < k + n))) } }

/-- The completion of a block command that ran to its end, or met a block that cannot be read: `bad` is its place in the range, `retries` the
reads recovered by retry (R392). -/
def finishBlocks (o : Outstanding) (bad : Option Nat) (retries : Nat) (s : State) : State :=
  let n := o.a1.toNat
  if o.opcode = 1 then
    let s1 := countN .sto STO_RETRY_CNT.COUNT retries s
    match bad with
    | some k =>
      if k < n then
        let s2 := openOutput o k (copyOut o k s1)
        let s3 := setF .sto STO_LAST_ERR.REGION (argRegion o) (setF .sto STO_LAST_ERR.LBA (argLba o + k) s2)
        done .sto 0x81 (count .sto STO_MEDIA_ERR_CNT.COUNT s3)
      else done .sto CODE.OK (copyOut o n s1)
    | none => done .sto CODE.OK (copyOut o n s1)
  else if o.opcode = 2 then done .sto CODE.OK (programIn o n s)
  else done .sto CODE.OK (trimBlocks (argRegion o) (argLba o) n s)

/-- A block command stopped after `n` blocks: blocks programmed stand, the output area of a read is undefined (R398). -/
def stopBlocks (n code : Nat) (s : State) : State :=
  match outstanding s .sto with
  | none => s
  | some o =>
    let s1 := if o.opcode = 2 then programIn o (min n o.a1.toNat) s else if o.opcode = 1 then openOutput o 0 s else s
    done .sto code s1

/-! Wear and power loss (R393, R394). -/

/-- STORE_WORN (R393): `n` blocks of a WRITE_BLOCKS in progress stand. -/
def storeWorn (readOnly : Bool) (wear spare n : Nat) (s : State) : State :=
  let s1 := setF .sto STO_WEAR.WEAR wear (setF .sto STO_WEAR.SPARE spare s)
  let s2 := if 900 ≤ wear ∧ getF s .sto STO_WEAR.WEAR < 900 then raise .sto STO_INT.WEAR_WARN s1 else s1
  if !readOnly || isSet s .sto STO_STATUS.READ_ONLY then s2
  else
    let s3 := raise .sto STO_INT.READ_ONLY (setB .sto STO_STATUS.READ_ONLY true s2)
    match outstanding s3 .sto with
    | some o => if o.opcode = 2 then stopBlocks n 0x82 s3 else s3
    | none => s3

/-- STORE_WORN (R393). -/
def execStoreWorn (readOnly : Bool) (wear spare : BitVec 16) (n : Nat) (s : State) : Host.Outcome State Fault Refusal :=
  .next (storeWorn readOnly wear.toNat spare.toNat n s)

/-- RESERVE_CHARGE_FAIL (R394). -/
def execReserveChargeFail (s : State) : Host.Outcome State Fault Refusal :=
  .next (raise .sto STO_INT.RESERVE_FAIL (setB .sto STO_STATUS.RESERVE_OK false s))

/-- CTRL.BLK_RESET of STO: an outstanding command ends RESET once its current block is done; the counters return to reset. -/
def execStoBlkReset (n : Nat) (s : State) : Host.Outcome State Fault Refusal :=
  .next (resetOffsets .sto [0x114, 0x118, 0x11C] (stopBlocks n CODE.RESET s))

/-! Store-and-forward (R371, R395, R396). -/

/-- The bytes of the SNF region. -/
def snfSize : Nat := 1703 * 2 ^ 30

/-- The bytes that records take. -/
def snfUsed (l : List SnfRec) : Nat := (l.map SnfRec.size).sum

/-- The SNF records changed, with the registers that show them. -/
def setSnf (l : List SnfRec) (s : State) : State :=
  let s1 := setF .sto STO_SNF_RECORDS.COUNT l.length (setF .sto STO_SNF_USED.COUNT (snfUsed l / 2 ^ 20) s)
  setB .sto STO_STATUS.SNF_REPLAY (!l.isEmpty)
    { s1 with sto := { s1.sto with snf := l, replaying := s1.sto.replaying && !l.isEmpty } }

/-- A record lost: counted and reported, and logged with the others of its superframe (R396). -/
def loseRecord (s : State) : State :=
  raise .sto STO_INT.SNF_FULL (count .sto STO_SNF_LOST_CNT.COUNT { s with sto := { s.sto with lost := s.sto.lost + 1 } })

/-- Oldest records freed, the one being replayed apart, until a record of `n` bytes fits; `fuel` bounds them (R396, R397). -/
def makeRoom (n : Nat) : Nat → State → State
  | 0, s => s
  | fuel + 1, s =>
    let l := s.sto.snf
    let keep := if s.sto.replaying then 1 else 0
    if snfUsed l + n ≤ snfSize ∨ l.length ≤ keep then s
    else makeRoom n fuel (loseRecord (setSnf (l.take keep ++ l.drop (keep + 1)) s))

/-- SNF_WRITE (R395, R396): the oldest record on its way is written, or lost. -/
def snfWrite (s : State) : State :=
  match s.link.toStore with
  | [] => s
  | r :: rest =>
    let s1 := setLink { s.link with toStore := rest } s
    if isSet s .sto STO_STATUS.READ_ONLY then loseRecord s1
    else
      let s2 := if isSet s .sto STO_CFG.SNF_FULL then makeRoom r.size s1.sto.snf.length s1 else s1
      if snfUsed s2.sto.snf + r.size ≤ snfSize then count .pci PCI_STORED_CNT.COUNT (setSnf (s2.sto.snf ++ [r]) s2) else loseRecord s2

/-- SNF_WRITE (R395): none is begun once both supplies have failed (R394). -/
def execSnfWrite (s : State) : Host.Outcome State Fault Refusal := .next (if s.pwr.shutdown then s else snfWrite s)

/-- Whether a record has its path: an ACTIVE parent, the chosen lane, or a posted buffer of its ring behind the frames of the holding area (R261,
R371). -/
def hasPath (s : State) (r : SnfRec) : Bool :=
  if r.toParent then parentActive s
  else if toLanes s then (chosenLane s).isSome
  else ringPosted s (16 + ulRing s r.f.index) && !s.link.hold.any (fun f => decide (ulRing s f.index = ulRing s r.f.index))

/-- A record sent to its parent, on the chosen lane as STORED, or to its ring with KIND STORED (R371). -/
def sendStored (cookie : Nat) (r : SnfRec) (s : State) : State :=
  if r.toParent then toParent (relayElem 0x10 r.f.seq r.f.index r.f.data) s
  else if toLanes s then
    match chosenLane s with
    | some l => laneSend l ⟨TT.STORED, 0, some r.f.index, r.f.sfn, beBytes 4 r.f.seq ++ r.f.data⟩ (setLane l { lane s l with last := some r.f } s)
    | none => s
  else ulComplete (ulRing s r.f.index) 2 cookie r.f s

/-- SNF_REPLAY (R371): the oldest record leaves when its path is there; STORE_EMPTY follows the last of the host's path. -/
def snfReplay (cookie : Nat) (s : State) : State :=
  match s.sto.snf.find? (hasPath s) with
  | none => s
  | some r =>
    let s1 := sendStored cookie r (setSnf (s.sto.snf.erase r) { s with sto := { s.sto with replaying := true } })
    if r.toParent || regionHolds s1 false then s1 else hostEvent 0x0005 0 0 0 [] s1

/-- SNF_REPLAY (R371). -/
def execSnfReplay (cookie : BitVec 64) (s : State) : Host.Outcome State Fault Refusal := .next (snfReplay cookie.toNat s)

end Sys2Proof.Machine
end

