-- ==== Sys2Proof/Machine/Image.lean ====
section
/-!
DEFINITION. Sys2Proof/Machine/Image.lean: signed images, the slots that hold them and their verification (R86, R87, R436, R437), with the commands that
load, import, delete and verify them.
-/
namespace Sys2Proof.Machine

/-! Slots. Module slots A and B are 0 and 1, microcode slots A and B are 2 and 3. -/

/-- EMPTY. -/
def SLOT.EMPTY : Nat := 0
/-- VALID. -/
def SLOT.VALID : Nat := 1
/-- PENDING. -/
def SLOT.PENDING : Nat := 2
/-- TRIAL. -/
def SLOT.TRIAL : Nat := 3
/-- REVERTED. -/
def SLOT.REVERTED : Nat := 4

/-- The state of a slot as BOOT_IMG shows it. -/
def slotState (s : State) (i : Nat) : Nat := getI s .boot BOOT_IMG.STATE i

/-- The state of a slot changed. -/
def setSlotState (i v : Nat) (s : State) : State := setI .boot BOOT_IMG.STATE i v s

/-- The region and first block of an image slot: SYS for 0 to 3, and EPFW slot `i` for 4 + i (R390, R437). DESIGN CHOICE (log 33) for the place within
SYS, which the spec does not give. -/
def imagePlace (k : Nat) : Nat × Nat := if k < 4 then (0, k * 8193) else (REGION.EPFW, (k - 4) * 65536)

/-- The blocks that an image slot has. -/
def imageBlocks (k : Nat) : Nat := if k < 4 then 8193 else 65536

/-- The bytes of an image slot from byte `o` on. -/
def imageBytes (s : State) (k o n : Nat) : List Byte :=
  let (r, lba) := imagePlace k
  let b := o / 4096
  slice ((List.range ((o + n + 4095) / 4096 - b)).flatMap (fun i => readBlock s r (lba + b + i))) (o % 4096) n

/-- The first 128 bytes of an image slot: its header (R86). -/
def imageHeader (s : State) (k : Nat) : List Byte := imageBytes s k 0 128

/-- LENGTH of an image. -/
def imageLength (h : List Byte) : Nat := beAt h 0x10 4

/-- KIND of the image that a slot takes, and its largest LENGTH (R86, R437). -/
def imageKind (k : Nat) : Nat × Nat :=
  if k < 2 then (1, 32 * 2 ^ 20) else if k < 4 then (2, 8 * 2 ^ 20) else (3, 255 * 2 ^ 20)

/-- Whether a slot holds nothing: an empty slot reads as zero (R437). -/
def imageEmpty (s : State) (k : Nat) : Bool := (imageHeader s k).all (fun b => decide (b = 0))

/-- Check 1 of R87: MAGIC and KIND for the slot, and LENGTH, a multiple of 16, within its limit. -/
def imageFormOk (k : Nat) (h : List Byte) : Bool :=
  decide (h.take 4 = [0x43, 0x52, 0x42, 0x49]) && decide (beAt h 4 1 = (imageKind k).1) && decide (imageLength h % 16 = 0) &&
    decide (imageLength h ≤ (imageKind k).2)

/-- The keys that sign the images of a slot: update keys, or endpoint image keys (R87, R437). -/
def imageKeys (s : State) (k : Nat) : List (Nat × List Byte) := if k < 4 then s.mgt.keys.update else s.mgt.keys.endpoint

/-- A key by its KEY_ID; none where the key store holds none. -/
def keyOf (l : List (Nat × List Byte)) (id : Nat) : List Byte := Map.get (fun _ => []) l id

/-- The minimum SVN of a slot's kind. -/
def minSvn (s : State) (k : Nat) : Nat := if k < 2 then getF s .boot BOOT_MIN_SVN.MOD else getF s .boot BOOT_MIN_SVN.UCODE

/-- The first check of R87 that an image fails, 0 for none; endpoint images pass checks 1 to 4 only (R437). With no module image running check 6
fails. DEDUCED (log 33). -/
def verifyImage (s : State) (k : Nat) : Nat :=
  let h := imageHeader s k
  let key := keyOf (imageKeys s k) (beAt h 5 1)
  if !imageFormOk k h then 1
  else if key = [] then 2
  else if !ecdsaOk key (sha256 (h.take 0x40)) (slice h 0x40 64) then 3
  else if sha256 (imageBytes s k 128 (imageLength h)) ≠ slice h 0x20 32 then 4
  else if 4 ≤ k then 0
  else if beAt h 0x0C 2 < minSvn s k then 5
  else if 2 ≤ k ∧ (s.boot.modRun.isNone ∨ beAt h 0x0E 2 ≠ s.boot.iface) then 6
  else 0

/-- The completion code for a failed check (spec/05_startup_and_images.md, VERIFY_SLOT): BAD_IMAGE for checks 1 and 4, BAD_SIGNATURE for 2 and 3,
ROLLBACK for 5, INCOMPATIBLE for 6. DEDUCED (log 33): the table names the codes and not their checks. -/
def verifyCode (n : Nat) : Nat := ([CODE.OK, 0x82, 0x80, 0x80, 0x82, 0x81, 0x83] : List Nat).getD n CODE.OK

/-- A slot found INVALID at a check (R87). -/
def markInvalid (i n : Nat) (s : State) : State := raise .boot BOOT_INT.IMAGE_INVALID (setSlotState i (8 + n) s)

/-- The version and SVN of a slot shown from its header. -/
def showImage (i : Nat) (s : State) : State :=
  let h := imageHeader s i
  setI .boot BOOT_IMG.MAJOR i (beAt h 8 1) (setI .boot BOOT_IMG.MINOR i (beAt h 9 1) (setI .boot BOOT_IMG.SVN i (beAt h 0x0C 2) s))

/-- A slot emptied. -/
def clearImage (k : Nat) (s : State) : State :=
  let (r, lba) := imagePlace k
  trimBlocks r lba (imageBlocks k) s

/-- `n` blocks of the HOST region copied into a slot, over nothing. -/
def copyImage (k src n : Nat) (s : State) : State :=
  let (r, lba) := imagePlace k
  (List.range n).foldl (fun t i => setBlock r (lba + i) (readBlock s REGION.HOST (src + i)) t) (clearImage k s)

/-! LOAD_SLOT, EPFW_IMPORT and EPFW_DELETE (R436, R437, R451). -/

/-- Whether a campaign sends the image of an EPFW slot. -/
def inCampaign (s : State) (i : Nat) : Bool := isSet s .mgt MGT_CAMP.ACTIVE && decide (getF s .mgt MGT_CAMP.IMAGE = i)

/-- Whether an image slot runs: the module slot and the microcode slot of this start (R436). -/
def slotRuns (s : State) (i : Nat) : Bool := decide (s.boot.modRun = some i) || decide (s.boot.ucodeRun.map (· + 2) = some i)

/-- The first LBA of an image in the HOST region and its blocks. -/
def argImage (o : Outstanding) : Nat × Nat := (getBits o.a1 27 0, o.a2.toNat)

/-- Whether an image lies in the HOST region and fits a slot (R451). -/
def argImageOk (o : Outstanding) (most : Nat) : Bool :=
  let (lba, n) := argImage o
  decide (1 ≤ n) && decide (n ≤ most) && decide (lba + n ≤ regionBlocks REGION.HOST)

/-- LOAD_SLOT at its issue: the slot holds nothing from then until it is verified (R436, R451). DESIGN CHOICE (log 33) for the state shown. -/
def runLoadSlot (o : Outstanding) (s : State) : State :=
  let i := o.a0.toNat
  if 3 < i ∨ argImageOk o 8193 = false then done .mgt CODE.BAD_ARG s
  else if slotRuns s i ∨ slotState s i = SLOT.TRIAL then done .mgt CODE.REFUSED s
  else setSlotState i SLOT.EMPTY (clearImage i s)

/-- LOAD_SLOT, MGT command 0x0001 (R436). -/
def execLoadSlot (src : CmdSrc) (s : State) : Host.Outcome State Fault Refusal := .next (issue .mgt 0x0001 src runLoadSlot s)

/-- EPFW_IMPORT at its issue (R437, R451). -/
def runEpfwImport (o : Outstanding) (s : State) : State :=
  let i := o.a0.toNat
  if 255 < i ∨ argImageOk o 65536 = false then done .mgt CODE.BAD_ARG s
  else if inCampaign s i then done .mgt CODE.REFUSED s
  else clearImage (4 + i) s

/-- EPFW_IMPORT, MGT command 0x0002 (R437). -/
def execEpfwImport (src : CmdSrc) (s : State) : Host.Outcome State Fault Refusal := .next (issue .mgt 0x0002 src runEpfwImport s)

/-- EPFW_DELETE (R450, R451). -/
def runEpfwDelete (o : Outstanding) (s : State) : State :=
  let i := o.a0.toNat
  if 255 < i then done .mgt CODE.BAD_ARG s
  else if inCampaign s i then done .mgt CODE.REFUSED s
  else done .mgt CODE.OK (clearImage (4 + i) s)

/-- EPFW_DELETE, MGT command 0x0003 (R451). -/
def execEpfwDelete (src : CmdSrc) (s : State) : Host.Outcome State Fault Refusal := .next (issue .mgt 0x0003 src runEpfwDelete s)

/-- The end of LOAD_SLOT: the image is copied and verified; the slot becomes PENDING or INVALID (R436). -/
def finishLoad (o : Outstanding) (s : State) : State :=
  let i := o.a0.toNat
  let (lba, n) := argImage o
  let s1 := showImage i (copyImage i lba n s)
  let c := verifyImage s1 i
  let s2 := if c = 0 then setSlotState i SLOT.PENDING s1 else markInvalid i c s1
  done .mgt (verifyCode c) (logEvent 0x0687 0 [i, slotState s2 i] s2)

/-- The end of EPFW_IMPORT: the slot is kept only if checks 1 to 4 pass (R437). The resulting state is logged as VALID or EMPTY is coded. -/
def finishImport (o : Outstanding) (s : State) : State :=
  let i := o.a0.toNat
  let (lba, n) := argImage o
  let s1 := copyImage (4 + i) lba n s
  let c := verifyImage s1 (4 + i)
  let s2 := if c = 0 then s1 else clearImage (4 + i) s1
  done .mgt (verifyCode c) (logEvent 0x0688 0 [i, if c = 0 then SLOT.VALID else SLOT.EMPTY] s2)

/-- A reset with LOAD_SLOT outstanding leaves the slot INVALID (R450). Check 1 is shown: the image is not whole. DESIGN CHOICE (log 33). -/
def loadReset (s : State) : State :=
  match outstanding s .mgt with
  | some o => if o.opcode = 1 then setSlotState o.a0.toNat 9 s else s
  | none => s

/-! VERIFY_SLOT (R87). -/

/-- VERIFY_SLOT at its issue. -/
def runVerifySlot (o : Outstanding) (s : State) : State := if 3 < o.a0.toNat then done .boot CODE.BAD_ARG s else s

/-- VERIFY_SLOT, BOOT command 0x0002 (R87). -/
def execVerifySlot (src : CmdSrc) (s : State) : Host.Outcome State Fault Refusal := .next (issue .boot 0x0002 src runVerifySlot s)

/-- The end of VERIFY_SLOT: a slot that passes stays VALID, or in TRIAL, and is else PENDING; one that fails becomes INVALID. DEDUCED (log 33) for a slot
in TRIAL. -/
def finishVerify (o : Outstanding) (s : State) : State :=
  let i := o.a0.toNat
  let c := verifyImage s i
  let st := slotState s i
  if c ≠ 0 then done .boot (verifyCode c) (markInvalid i c s)
  else done .boot CODE.OK (setSlotState i (if st = SLOT.VALID ∨ st = SLOT.TRIAL then st else SLOT.PENDING) s)

end Sys2Proof.Machine
end

