-- ==== Sys2Proof/Machine/Join.lean ====
section
/-!
DEFINITION. Sys2Proof/Machine/Join.lean: joining, expiries, ends and rekeys of associations (R224–R239).
-/
namespace Sys2Proof.Machine

/-! Solicits (R226, R239). -/

/-- A nonce of 48 bits that is not 0, drawn again while it is; `fuel` bounds the draws. -/
def drawNonce : Nat → State → Option Nat × State
  | 0, s => (none, s)
  | fuel + 1, s =>
    let (b, t) := randBytes 6 s
    if ofBE b = 0 then drawNonce fuel t else (some (ofBE b), t)

/-- The quality of port `k` of a group in a three-byte quality value (R106). -/
def portQuality (q k : Nat) : Nat := q / 256 ^ k % 256

/-- The port of a group with the best quality among those a test accepts; the lowest of equals. DESIGN CHOICE (log 9). -/
def bestPort (g q : Nat) (ok : Nat → Bool) : Option Nat :=
  (((groupPorts g).zipIdx).filter (fun e => ok e.1)).foldl (fun a e =>
    match a with
    | none => some e.1
    | some b => if portQuality q ((groupPorts g).idxOf b) < portQuality q e.2 then some e.1 else some b) none

/-- Whether a port may be chosen for a downlink of a waveform: it enters the combining of its group, and its driver is not disabled by
heat (R14, R106). -/
def portUsable (s : State) (w : Wave) (n : Nat) : Bool :=
  receives s w n && decide (getF s (lptPage n) LPT_STATUS.FAULT_CAUSE ≠ 1) && !tripped s n

/-- The timing correction measured on a solicit, for its answer's header (R224). -/
def solicitTadj (tag : Nat) (offset : Int) (s : State) : State :=
  let v := max (-511) (min 511 (-offset))
  let l := s.bbw.tadj.filter (fun e => decide (e.1 ≠ tag)) ++ [(tag, v)]
  { s with bbw := { s.bbw with tadj := l } }

/-- An answer to a solicit put up for sending, on the solicit's channel and within its 4 superframes (R224). -/
def joinAnswer (kind : FrameKind) (i code : Nat) (f : FrameIn) (port : Option Nat) (payload : List Byte) (s : State) : State :=
  let w := if f.narrow then Wave.nb else .bb
  let s1 := if f.narrow then s else solicitTadj (if kind = .reject then i else f.addr) f.offset s
  addFrame { Frame.blank with
    kind := kind, index := i, ftype := FT.ASSOC, fseq := code, payload := payload, prot := false, wave := w, port := port
    ch := some (f.ch0, f.ch1), due := sfn s, takenAt := sfn s, via := f.lane } s1

/-- A solicit met with a full table: JOIN_DEFER (R239). -/
def deferJoin (f : FrameIn) (port : Option Nat) (s : State) : State :=
  let s1 := raise .asc ASC_INT.JOIN_DEFER (count .asc ASC_DEFER_CNT.COUNT s)
  joinAnswer .defer f.addr 3 f port (beBytes 2 (getF s .asc ASC_DEFER.HOLD)) (setMac { s1.mac with deferrals := s1.mac.deferrals + 1 } s1)

/-- A FREE slot reserved for a solicit; its offer is put up for the next plan (R226). -/
def reserveSlot (i nM : Nat) (f : FrameIn) (port : Nat) (s : State) : State :=
  let j : JoinSt := ⟨f.addr, nM, if f.narrow then .nb else .bb, f.ch0, f.ch1, f.group, port, f.offset, false, sfn s + 5, 0, 0, false⟩
  let c := { Ctx.zero with state := CST.JOINING, nb := f.narrow, bb := !f.narrow, portHome := port, portDl := port, quality := f.quality }
  joinAnswer .offer i 2 f (some port) [] (setAssoc i { Assoc.free with c := c, join := some j, lane := f.lane } (clearRelays i s))

/-- A solicit (R226, R239, R240): ignored with JOIN_EN = 0, malformed without a TAG or with one that is JOINING already. -/
def joinSolicit (f : FrameIn) (s : State) : State :=
  let w := if f.narrow then Wave.nb else .bb
  let same := !(slotsWhere s (fun a => decide (a.c.state = CST.JOINING) && a.join.elim false (fun j => decide (j.tag = f.addr)))).isEmpty
  if !isSet s .asc ASC_CFG.JOIN_EN then s
  else if f.addr = 0 ∨ f.payload ≠ [] ∨ same then malformed s
  else
    let port := if f.lane.isSome then some 0 else bestPort f.group f.quality (portUsable s w)
    match freeSlot s, port with
    | none, _ => deferJoin f port s
    | _, none => s
    | some i, some p =>
      match drawNonce 4 s with
      | (none, s1) => s1
      | (some n, s1) => reserveSlot i n f p s1

/-- JOIN_SOLICIT (R226). -/
def execJoinSolicit (id : BurstId) (s : State) : Host.Outcome State Fault Refusal :=
  .next (onFrame id.val (fun f => assocCode f 1 && !f.fromParent) joinSolicit s)

/-! Join requests (R227–R229, R231). -/

/-- A JOIN_REQ rejected: JOIN_REJECT is put up for sending and the slot returns to FREE (R228). -/
def rejectJoin (i reason hold : Nat) (f : FrameIn) (j : JoinSt) (s : State) : State :=
  let s1 := setAssoc i Assoc.free (count .asc ASC_REJECT_CNT.COUNT s)
  joinAnswer .reject i 6 { f with ch0 := j.ch0, ch1 := j.ch1 } (some j.port) ([byteOf reason] ++ beBytes 2 hold) s1

/-- A rejection with HOLD of ASC_DEFER (R228). -/
def refuseJoin (i reason : Nat) (f : FrameIn) (j : JoinSt) (s : State) : State :=
  rejectJoin i reason (getF s .asc ASC_DEFER.HOLD) f j s

/-- A record filled for a join from the parked record and the request's CAPS and LISTEN (R214, R227, R228). -/
def joinRecord (s : State) (c old : Ctx) (ep caps listen : Nat) (out : List Byte) : Ctx :=
  let big := isSet s .asc ASC_CFG.KEY256 && caps.testBit 3
  { old with
    state := CST.JOINING, session := false, nb := caps.testBit 0, bb := caps.testBit 1, aes256 := big, prevValid := false, kgen := 0
    parkOnEnd := old.parkOnEnd || isSet s .asc ASC_CFG.PARK_ON_TIMEOUT, sleep := caps.testBit 2, subord := caps.testBit 4
    rekeyPending := false, epId := ep, peer := 0, anchor := c.anchor, joinSfn := sfn s, lastRx := sfn s
    sup := if old.sup = 0 then getF s .asc ASC_CFG.SUP_DEFAULT else old.sup
    listen := listen, portHome := c.portHome, portDl := c.portDl, tadj := c.tadj, quality := c.quality, fseqTx := 0, fseqRx := 0
    pgrant := List.replicate 16 0, icTx := 0, exhausted := false, icRx := 0, replay := 0, icRxPrev := 0
    salt := beAt out 80 4, saltPrev := 0, key := out.take 40, keyPrev := noKey }

/-- The MIC job of a JOIN_REQ sent to index `a`, with JK of the record in slot `i` (R227). -/
def micJob (i a nE : Nat) (p tag : List Byte) : Job :=
  { Job.zero with
    op := OP.DECRYPT, tag16 := decide (tag.length = 16), explicit := true, sel := SEL.JOIN, index := i, hlen := 24
    hdr := beBytes 3 a ++ p.take 21, nonce := nE * 2 ^ 48, tag := tag }

/-- The DERIVE job of a join (R228). -/
def deriveJob (i nE nM : Nat) (big : Bool) : Job :=
  { Job.zero with op := OP.DERIVE, explicit := true, sel := SEL.JOIN, index := i, nonce := nE * 2 ^ 48 + nM, param := bitIf big 1 }

/-- A JOIN_REQ accepted: the record is promoted into the slot with keys derived from JK, and JOIN_ACCEPT is put up for the next plan (R228,
R229). A DERIVE that fails leaves the slot as it is. -/
def acceptJoin (i k : Nat) (f : FrameIn) (j : JoinSt) (nE : Nat) (s : State) : State :=
  let p := f.payload
  let ep := beAt p 3 8
  let caps := beAt p 17 2
  let big := isSet s .asc ASC_CFG.KEY256 && caps.testBit 3
  let (st, out, _, s1) := runJob (i % 16) (deriveJob i nE j.nM big) s
  if st ≠ JST.OK then s1
  else
    let s2 := match findSlot s1 ep i (fun x => decide (x = CST.ACTIVE)) with
      | some old => startEnd old RSN.SUPERSEDED 0 false s1
      | none => s1
    let a := assoc s2 i
    let c := joinRecord s2 a.c (parkedRec s2 k) ep caps (beAt p 19 2) out
    let s3 := setAssoc i { a with
      c := c, parked := k, join := some { j with nE := nE, epId := ep }, keySfn := sfn s, sf2 := some 0, queue := 0 } s2
    joinAnswer .accept i 5 { f with ch0 := j.ch0, ch1 := j.ch1 } (some j.port) [] s3

/-- A JOIN_REQ without a record here is forwarded where the module has a parent and FWD_JOIN = 1; the plan adds its confirmation grant and
sends JOIN_UP (R231). -/
def forwardJoin (i : Nat) (f : FrameIn) (j : JoinSt) (s : State) : State :=
  let p := f.payload
  let a := assoc s i
  let caps := beAt p 17 2
  let c := { a.c with
    nb := caps.testBit 0, bb := caps.testBit 1, sleep := caps.testBit 2, subord := caps.testBit 4, epId := beAt p 3 8, listen := beAt p 19 2 }
  let s1 := setAssoc i { a with
    c := c, join := some { j with nE := beAt p 11 6, epId := beAt p 3 8, forwarded := true, until_ := j.until_ + 4 * getF s .rpt RPT_STATUS.DEPTH } } s
  addFrame { Frame.blank with
    kind := .accept, index := i, ftype := FT.ASSOC, fseq := 5, payload := p, prot := false, wave := j.wave, port := some j.port
    due := sfn s, takenAt := sfn s, inner := true, via := f.lane } s1

/-- Whether an EP_ID is in JOINING with a request accepted, or ACCEPTED, at another index (R228). -/
def duplicateJoin (s : State) (ep i : Nat) : Bool := (findSlot s ep i isJoining).isSome

/-- Whether CAPS are welcome: SUBORD joins only a module whose ROLE is ROOT or SUBORDINATE (R257). DEDUCED (log 18). -/
def capsOk (s : State) (caps : Nat) : Bool := !(caps.testBit 4 && decide (s.mac.role = 0))

/-- A JOIN_REQ for a record the module holds, its findings in the order of R228. -/
def judgeJoin (i k : Nat) (f : FrameIn) (j : JoinSt) (s : State) : State :=
  let p := f.payload
  let ep := beAt p 3 8
  let nE := beAt p 11 6
  let old := parkedRec s k
  let a := assoc s i
  let s0 := setAssoc i { a with c := { a.c with jk := old.jk } } s
  let (st, _, _, s1) := if nE = 0 then (JST.AUTH_FAIL, [], 0, s0) else runJob (i % 16) (micJob i i nE p (p.drop 21)) s0
  if beAt p 0 3 % 2 ^ 20 ≠ j.tag ∨ st ≠ JST.OK then refuseJoin i 2 f j s1
  else if nE = j.nM then rejectJoin i 5 0 f j s1
  else if old.deny || !capsOk s1 (beAt p 17 2) then refuseJoin i 4 f j s1
  else if duplicateJoin s1 ep i then refuseJoin i 3 f j s1
  else acceptJoin i k f j nE s1

/-- A JOIN_REQ (R227, R228): it belongs to a JOINING slot that has not accepted one. The TAG of one that is forwarded is checked here, where the offer
is known. DEDUCED (log 26). -/
def joinReq (f : FrameIn) (s : State) : State :=
  let i := f.addr
  let a := assoc s i
  match a.join with
  | none => malformed s
  | some j =>
    if a.c.state ≠ CST.JOINING ∨ j.nE ≠ 0 then malformed s
    else if f.payload.length ≠ (if f.narrow then 29 else 37) then malformed s
    else match findParked s (beAt f.payload 3 8) with
      | some k => judgeJoin i k f j s
      | none =>
        if !(isSet s .asc ASC_CFG.FWD_JOIN && parentActive s) then refuseJoin i 1 f j s
        else if beAt f.payload 0 3 % 2 ^ 20 ≠ j.tag then refuseJoin i 2 f j s
        else forwardJoin i f j s

/-- JOIN_REQ (R228). -/
def execJoinReq (id : BurstId) (s : State) : Host.Outcome State Fault Refusal :=
  .next (onFrame id.val (fun f => assocCode f 4 && !f.fromParent) joinReq s)

/-! Expiries (R226, R230, R232, R234, R236). -/

/-- A slot that returns to FREE without an association, and its answers still unsent with it. -/
def freeJoining (i : Nat) (s : State) : State :=
  let s1 := setAssoc i Assoc.free (count .asc ASC_EXPIRE_CNT.COUNT s)
  setMac { s1.mac with frames := s1.mac.frames.filter (fun f =>
    !(decide (f.index = i) && (decide (f.kind = .offer) || decide (f.kind = .accept)) && (decide (f.stage = .queued) || decide (f.stage = .ready)))) } s1

/-- JOINING_EXPIRY (R226): no JOIN_REQ has verified by the end of the slot's bound. -/
def execJoiningExpiry (a : CtxIndex) (s : State) : Host.Outcome State Fault Refusal :=
  let x := assoc s a.toNat
  .next (match x.join with
    | some j => if x.c.state = CST.JOINING ∧ (j.nE = 0 ∨ j.forwarded) ∧ reached s j.until_ then freeJoining a.toNat s else s
    | none => s)

/-- ACCEPTED_EXPIRY (R230): 16 superframes after JOIN_ACCEPT the record returns to its parked state, as it stands in the store. The end is
reported with reason TIMEOUT. DEDUCED (log 19). -/
def acceptedExpiry (i : Nat) (s : State) : State :=
  let c := ctx s i
  if c.state ≠ CST.ACCEPTED ∨ !reached s (c.joinSfn + 16) then s
  else hostEvent 0x0002 i c.epId RSN.TIMEOUT [] (raise .asc ASC_INT.ENDED (freeJoining i (clearRelays i (freeMaps i (dropFrames i s)))))

/-- ACCEPTED_EXPIRY (R230). -/
def execAcceptedExpiry (a : CtxIndex) (s : State) : Host.Outcome State Fault Refusal := .next (acceptedExpiry a.toNat s)

/-- The supervision test of one association (R232). -/
def supervise (i : Nat) (s : State) : State :=
  let c := ctx s i
  if isLive c.state && decide (c.sup ≠ 0) && reached s (c.lastRx + c.sup) then finishEnd i RSN.TIMEOUT (count .asc ASC_EXPIRE_CNT.COUNT s) else s

/-- SUPERVISION_TIMEOUT (R232). -/
def execSupervisionTimeout (a : CtxIndex) (s : State) : Host.Outcome State Fault Refusal := .next (supervise a.toNat s)

/-- The parent association ends (R259): the domain continues, PARENT_LOST is raised and the subordinate solicits again. -/
def parentLost (s : State) : State :=
  if !parentActive s then s
  else raise .rpt RPT_INT.PARENT_LOST (setB .rpt RPT_STATUS.PARENT_ACTIVE false (setF .rpt RPT_STATUS.DEPTH 0
    (setB .rpt RPT_PARENT.ACTIVE false (setParent { ParentSt.none_ with phase := .backoff } s))))

/-- LEAVE (R234): the first LEAVE element verified and not yet handled ends its association; one of the parent ends the module's own. -/
def execLeave (s : State) : Host.Outcome State Fault Refusal :=
  .next (match takeElem EL.LEAVE s with
    | none => s
    | some (e, s1) =>
      if e.parent then parentLost s1
      else if takesFrames (ctx s1 e.index).state then finishEnd e.index (beAt e.value 0 1) s1 else s1)

/-- LEAVING_EXPIRY (R234): 4 superframes without an acknowledgement of LEAVE. -/
def execLeavingExpiry (a : CtxIndex) (s : State) : Host.Outcome State Fault Refusal :=
  let x := assoc s a.toNat
  .next (match x.ending with
    | some e => if x.c.state = CST.LEAVING ∧ reached s (e.since + 4) then finishEnd a.toNat e.reason s else s
    | none => s)

/-- RECORD_ECC_FAULT (R217, R479): row 6 of the diagnostics; a FREE slot holds no record. -/
def execRecordEccFault (a : CtxIndex) (s : State) : Host.Outcome State Fault Refusal :=
  let st := (ctx s a.toNat).state
  .next (if st = CST.FREE ∨ st = CST.FAULTED then s
    else finishEnd a.toNat RSN.FAULT (raise .asc ASC_INT.ECC_FAULT (diagReport 6 .asc s)))

/-! Rekeys (R235, R236). -/

/-- Whether a rekey is due: a counter threshold, the rekey period, or a REKEY_REQ (R235). -/
def rekeyDue (s : State) (i : Nat) : Bool :=
  let a := assoc s i
  let per := getF s .asc ASC_REKEY.PERIOD
  decide (icWarnAt ≤ a.c.icTx) || decide (icWarnAt ≤ a.c.icRx) || (decide (per ≠ 0) && reached s (a.keySfn + per)) ||
    s.mac.elems.any (fun e => decide (e.ty = EL.REKEY_REQ) && decide (e.index = i) && !e.parent)

/-- REKEY_TRIGGER (R235). -/
def execRekeyTrigger (a : CtxIndex) (s : State) : Host.Outcome State Fault Refusal :=
  let i := a.toNat
  let s1 := setMac { s.mac with
    elems := s.mac.elems.filter (fun e => !(decide (e.ty = EL.REKEY_REQ) && decide (e.index = i) && !e.parent)) } s
  .next (if rekeyDue s i then startRekey i s1 else s)

/-- REKEY_RETRY_EXPIRY (R236): 8 superframes without an answer: sent again in a new unit, or the end after 4 sendings. -/
def rekeyRetry (i : Nat) (s : State) : State :=
  match (assoc s i).rekey with
  | none => s
  | some k =>
    if k.sends = 0 ∨ !reached s (k.sentAt + 8) then s
    else if k.sends < 4 then
      let s1 := setMac { s.mac with frames := s.mac.frames.filter (fun f => !(decide (f.kind = .rekey) && decide (f.index = i))) } s
      ownFrame .rekey i [] (setAssoc i { assoc s1 i with rekey := some { k with sentAt := sfn s } } s1)
    else startEnd i RSN.REKEY_FAIL 0 false s

/-- REKEY_RETRY_EXPIRY (R236). -/
def execRekeyRetryExpiry (a : CtxIndex) (s : State) : Host.Outcome State Fault Refusal := .next (rekeyRetry a.toNat s)

/-- PREV_KEY_EXPIRY (R236). -/
def execPrevKeyExpiry (a : CtxIndex) (s : State) : Host.Outcome State Fault Refusal :=
  let x := assoc s a.toNat
  .next (if x.c.prevValid && reached s x.prevUntil then setCtx a.toNat { x.c with prevValid := false } s else s)

end Sys2Proof.Machine
end

