-- ==== Sys2Proof/Machine/Ncal.lean ====
section
/-!
DEFINITION. Sys2Proof/Machine/Ncal.lean: the noise calendar: impulses, entries and candidates, onsets, predicted windows and the tests
that place bursts between them (spec/09_noise_calendar.md).
-/
namespace Sys2Proof.Machine

/-- The calendar of a port. -/
def cal (s : State) (p : Nat) : CalSt := Map.get (fun _ => CalSt.empty) s.ncal.cals p

/-- The state with the calendar of a port changed. -/
def setCal (p : Nat) (c : CalSt) (s : State) : State :=
  { s with ncal := { s.ncal with cals := Map.set (fun _ => CalSt.empty) s.ncal.cals p c } }

/-- NCAL_CFG as written. -/
def ncalCfgReg (s : State) : Word := reg s (addr .ncal 0x100)

/-- NCAL_SCHED as written. -/
def ncalSchedReg (s : State) : Word := reg s (addr .ncal 0x104)

/-- NCAL STATUS.PENDING brought up to date. -/
def ncalPending (s : State) : State :=
  setB .ncal NCAL_STATUS.PENDING (decide (ncalCfgReg s ≠ s.ncal.cfg) || decide (ncalSchedReg s ≠ s.ncal.sched)) s

/-- NCAL STATUS.ANY_SETTLE brought up to date. -/
def anySettle (s : State) : State := setB .ncal NCAL_STATUS.ANY_SETTLE (s.ncal.cals.any (fun e => e.2.inSettle)) s

/-- NCAL_CFG.MARGIN in effect, in samples. -/
def ncalMargin (s : State) : Nat := 256 * getBits s.ncal.cfg 23 16

/-- The margin M of a tracked entry (R169). -/
def entryMargin (s : State) (e : NcalEntry) : Nat := ncalMargin s + 3 * e.jitter

/-- Narrowband bins and RUs of a footprint: the union over the last eight hits (R168). -/
def footprint (e : NcalEntry) : Nat × Nat := e.prints.foldl (fun a f => (a.1 ||| f.1, a.2 ||| f.2)) (0, 0)

/-- Whether a moment lies within a margin of another. -/
def within (m a b : Nat) : Bool := decide (absDiff a b ≤ m)

/-- Whether a moment lies within a margin of a predicted onset of an entry. -/
def onPrediction (m : Nat) (e : NcalEntry) (t : Nat) : Bool :=
  let d := (((t : Int) - (e.next : Int)) % (e.period : Int)).toNat
  decide (d ≤ m) || decide (e.period - d ≤ m)

/-- Whether a PERIOD is in the range of R168. -/
def periodOk (p : Nat) : Bool := decide (200000 ≤ p) && decide (p ≤ 25600000)

/-! Updates (R170–R172). -/

/-- The integer part, rounded toward minus infinity, of a number moved by the fraction 1 / n of a difference. DESIGN CHOICE (log 13): R170
states no rounding. -/
def nudge (a : Nat) (d : Int) (n : Nat) : Nat := ((a : Int) + d / (n : Int)).toNat

/-- A hit with onset, width, level and footprint (R170). -/
def hit (e : NcalEntry) (t w l nb ru now : Nat) : NcalEntry :=
  let err : Int := (t : Int) - (e.next : Int)
  let period := nudge e.period err 8
  { e with
    period := period,
    jitter := nudge e.jitter ((err.natAbs : Int) - (e.jitter : Int)) 16,
    width := max w (nudge e.width ((w : Int) - (e.width : Int)) 8),
    level := nudge e.level ((l : Int) - (e.level : Int)) 8,
    prints := ((nb, ru) :: e.prints).take 8,
    next := t + period, missRun := 0, hits := min (e.hits + 1) 4095, lastHit := now, seen := none }

/-- A prediction that ended unobserved (R170). -/
def skip (e : NcalEntry) : NcalEntry := { e with next := e.next + e.period, seen := none }

/-- A miss (R170). -/
def miss (e : NcalEntry) : NcalEntry := { skip e with missRun := e.missRun + 1 }

/-- The outcome of a prediction at the end of its interval (R170). An onset found inside it was measured on a bin of the footprint or not;
`observed` says whether a bin of the footprint was measured throughout. -/
def outcome (e : NcalEntry) (observed : Bool) (now : Nat) : NcalEntry :=
  if !observed then skip e
  else match e.seen with
    | some (t, w, l, nb, ru) => hit e t w l nb ru now
    | none => miss e

/-- Misses that drop a tracked entry (R171). -/
def missLimit (s : State) (c : CalSt) : Nat := if c.inSettle then 4 else getBits s.ncal.cfg 7 0

/-- Hits that promote a candidate (R169). -/
def acqLimit (s : State) (c : CalSt) : Nat := if c.inSettle then 4 else getBits s.ncal.cfg 15 12

/-- Tracked entries that a test drops, each with ENTRY_DROP (R171). -/
def dropEntries (p : Nat) (bad : NcalEntry → Bool) (s : State) : State :=
  let c := cal s p
  if c.entries.any (fun e => bad e.2) then
    raise .ncal NCAL_INT.ENTRY_DROP (setCal p { c with entries := c.entries.filter (fun e => !bad e.2) } s)
  else s

/-- Whether a candidate repeats a tracked entry at a multiple of its period (R169). -/
def shadows (s : State) (e c : NcalEntry) : Bool :=
  let m := entryMargin s e
  (List.range 127).any (fun k => within m c.period ((k + 2) * e.period)) && onPrediction m e c.next

/-- Candidates dropped after two misses, or as multiples of a tracked entry (R169). -/
def pruneCands (p : Nat) (s : State) : State :=
  let c := cal s p
  setCal p { c with cands := c.cands.filter (fun x => decide (x.missRun < 2) && periodOk x.period &&
    !c.entries.any (fun e => shadows s e.2 x)) } s

/-- The lowest free entry number of a calendar. DESIGN CHOICE (log 9). -/
def freeEntry (c : CalSt) : Option Nat := (List.range 8).find? (fun i => !c.entries.any (fun e => decide (e.1 = i)))

/-- The tracked entry of lowest LEVEL, the lowest number first among equals. -/
def weakest (c : CalSt) : Option (Nat × NcalEntry) :=
  c.entries.foldl (fun a e => match a with
    | none => some e
    | some b => if e.2.level < b.2.level then some e else some b) none

/-- A candidate promoted to a tracked entry (R169), or met by a full calendar (R172). -/
def promote (p : Nat) (x : NcalEntry) (s : State) : State :=
  let c0 := cal s p
  let c := { c0 with cands := c0.cands.erase x }
  match freeEntry c with
  | some i => raise .ncal NCAL_INT.ENTRY_NEW (setCal p { c with entries := Map.ins i x c.entries } s)
  | none =>
    match weakest c with
    | none => setCal p c s
    | some (i, w) =>
      let c1 := if w.level + 6 ≤ x.level then { c with entries := Map.ins i x (Map.erase c.entries i) } else c
      logPage .ncal NCAL_INT.FULL [p, x.period, w.period]
        (raise .ncal NCAL_INT.FULL (count .ncal NCAL_FULL_CNT.COUNT (setCal p c1 s)))

/-- The candidates that have hits enough, promoted (R169). -/
def promoteAll (p : Nat) (s : State) : State :=
  let c := cal s p
  (c.cands.filter (fun x => decide (acqLimit s c ≤ x.hits))).foldl (fun t x => promote p x t) s

/-- The divisor with which two tracked entries merge (R169). -/
def mergeDiv (s : State) (a b : NcalEntry) : Option Nat :=
  let m := max (entryMargin s a) (entryMargin s b)
  if within (ncalMargin s) a.period b.period then
    ([2, 3, 4].find? (fun k => within m (absDiff a.next b.next) (a.period / k)))
  else none

/-- Two entries merged (R169). The earlier NEXT is kept; the fields R169 does not name come from the larger of the two: DESIGN CHOICE
(log 13). -/
def merged (a b : NcalEntry) (k : Nat) : NcalEntry :=
  { a with
    period := a.period / k, next := min a.next b.next, width := max a.width b.width, level := max a.level b.level,
    jitter := max a.jitter b.jitter, prints := (a.prints ++ b.prints).take 8, hits := min (a.hits + b.hits) 4095,
    missRun := min a.missRun b.missRun, lastHit := a.lastHit }

/-- The first pair of tracked entries that merge. -/
def mergePair (s : State) (l : List (Nat × NcalEntry)) : Option ((Nat × NcalEntry) × (Nat × NcalEntry) × Nat) :=
  (l.flatMap (fun a => (l.filter (fun b => decide (a.1 < b.1))).filterMap (fun b =>
    (mergeDiv s a.2 b.2).map (fun k => (a, b, k))))).head?

/-- The first pair of tracked entries of a port that agree, merged with ENTRY_NEW (R169, R171). -/
def mergeOnce (p : Nat) (s : State) : State :=
  let c := cal s p
  match mergePair s c.entries with
  | none => s
  | some (a, b, k) =>
    raise .ncal NCAL_INT.ENTRY_NEW
      (setCal p { c with entries := Map.ins a.1 (merged a.2 b.2 k) (Map.erase (Map.erase c.entries a.1) b.1) } s)

/-- What follows every change of a calendar: entries dropped (R171), candidates dropped and promoted, entries merged (R169). -/
def settleCal (p : Nat) (s : State) : State :=
  let bad (e : NcalEntry) : Bool := decide (missLimit s (cal s p) ≤ e.missRun) || !periodOk e.period
  dropEntries p (fun e => !periodOk e.period)
    ((List.range 7).foldl (fun t _ => mergeOnce p t) (promoteAll p (pruneCands p (dropEntries p bad s))))

/-! Impulses (R167, R169). -/

/-- An entry that notes an onset inside its prediction interval; the first one stands. -/
def note (m t w l nb ru : Nat) (e : NcalEntry) : NcalEntry :=
  if within m t e.next && e.seen.isNone then { e with seen := some (t, w, l, nb, ru) } else e

/-- The footprint of RUs a hit contributes: in OUTAGE no RU bin is measured and the entry's RUs stay as they are (R167). -/
def ruPart (s : State) (e : NcalEntry) (ru : Nat) : Nat := if inOutage s then (footprint e).2 else ru

/-- An onset noted by every entry and candidate whose interval holds it (R169, R170). -/
def explain (s : State) (c : CalSt) (t w l nb ru : Nat) : CalSt :=
  { c with
    entries := c.entries.map (fun e => (e.1, note (entryMargin s e.2) t w l nb (ruPart s e.2 ru) e.2)),
    cands := c.cands.map (fun e => note (ncalMargin s) t w l nb (ruPart s e ru) e) }

/-- Whether an onset is explained by a tracked entry or a candidate (R169). -/
def explained (s : State) (c : CalSt) (t : Nat) : Bool :=
  c.entries.any (fun e => within (entryMargin s e.2) t e.2.next) || c.cands.any (fun e => within (ncalMargin s) t e.next)

/-- The candidate to be replaced when all 16 are in use: the fewest hits, the oldest first among equals (R169). -/
def fewest (l : List NcalEntry) : Option NcalEntry :=
  l.foldl (fun a e => match a with
    | none => some e
    | some b => if e.hits < b.hits then some e else some b) none

/-- A new candidate takes its slot (R169). -/
def addCand (x : NcalEntry) (l : List NcalEntry) : List NcalEntry :=
  if l.length < 16 then l ++ [x] else ((fewest l).elim l l.erase) ++ [x]

/-- An unexplained onset seeds a candidate for each earlier one 1–128 ms before it, the newest first (R169). -/
def seed (c : CalSt) (t w l nb ru now : Nat) : CalSt :=
  let old := c.past.filter (fun u => decide (u ≤ t) && decide (t - u ≤ 25600000))
  let cs := (old.filter (fun u => decide (200000 ≤ t - u))).foldl (fun a u =>
    addCand ⟨t - u, t + (t - u), w, l, 0, [(nb, ru)], 0, 0, now, none⟩ a) c.cands
  { c with cands := cs, past := t :: old, aper := min (c.aper + 1) 0xFFFF }

/-- An impulse measured on a port: onset in module time, width in 1.28 µs, level in 0.5 dB, footprint (R167–R170). -/
def impulse (p t w l nb ru : Nat) (s : State) : State :=
  let c := cal s p
  if !(port s p).declared || !isSet s (lptPage p) LPT_STATUS.RX_ON then s
  else if 3200 < w then setCal p { c with aper := min (c.aper + 1) 0xFFFF } s
  else if explained s c t then setCal p (explain s c t w l nb ru) s
  else settleCal p (setCal p (seed c t w l nb (if inOutage s then 0 else ru) (sfn s)) s)

/-- IMPULSE_DETECTED (R167). The onset is given in samples of the present superframe, or of the one before. -/
def execImpulseDetected (p : Port) (onset : Fin 209715200) (prev : Bool) (width : Fin 4096) (level : BitVec 8) (nb : BitVec 11)
    (ru : BitVec 27) (s : State) : Host.Outcome State Fault Refusal :=
  .next (impulse p.val (s.time.sfStart + onset.val - (if prev then 209715200 else 0)) (max 1 width.val) level.toNat nb.toNat ru.toNat s)

/-- The end of a prediction interval of a tracked entry, or of the candidate of a number (R170). -/
def predictionDue (p : Nat) (cand : Bool) (i : Nat) (observed : Bool) (s : State) : State :=
  let c := cal s p
  let frozen := !isSet s (lptPage p) LPT_STATUS.RX_ON
  let out (e : NcalEntry) : NcalEntry := outcome e (observed && !frozen) (sfn s)
  settleCal p (setCal p (if cand then { c with cands := c.cands.mapIdx (fun j e => if j = i then out e else e) }
    else { c with entries := c.entries.map (fun e => if e.1 = i then (e.1, out e.2) else e) }) s)

/-- PREDICTION_DUE (R170). -/
def execPredictionDue (p : Port) (cand : Bool) (i : Fin 16) (observed : Bool) (s : State) : Host.Outcome State Fault Refusal :=
  .next (predictionDue p.val cand i.val observed s)

/-! Onsets (R173). -/

/-- Whether a step at a sample belongs to a tracked entry of the port (R173). -/
def stepOfEntry (s : State) (c : CalSt) (t : Nat) : Bool :=
  c.entries.any (fun e => decide (e.2.next - entryMargin s e.2 ≤ t) &&
    decide (t ≤ e.2.next + 256 * e.2.width + entryMargin s e.2))

/-- A step declared under R105 reaches the calendar: an impulse of an entry, or an onset (R173). `kind` is 1 up, 2 down, 3 drive. -/
def calStep (p kind t : Nat) (s : State) : State :=
  let c := cal s p
  if stepOfEntry s c t then
    setCal p { c with entries := c.entries.map (fun e =>
      (e.1, note (entryMargin s e.2) t e.2.width e.2.level (footprint e.2).1 (footprint e.2).2 e.2)) } s
  else
    let s1 := setF .ncal NCAL_ONSET_LAST.SLOT s.time.slot (setF .ncal NCAL_ONSET_LAST.PORT p
      (setF .ncal NCAL_ONSET_LAST.KIND kind s))
    let s2 := raise .ncal NCAL_INT.ONSET (count .ncal NCAL_ONSET_CNT.COUNT s1)
    setCal p { c with startSettle := true } (logPage .ncal NCAL_INT.ONSET [(reg s2 (addr .ncal 0x124)).toNat] s2)

/-- SETTLE_END (R173). -/
def settleEnd (p : Nat) (s : State) : State :=
  let c := cal s p
  if c.inSettle && decide (c.left = 0) && !c.startSettle then anySettle (setCal p { c with inSettle := false } s) else s

/-- SETTLE_END (R173). -/
def execSettleEnd (p : Port) (s : State) : Host.Outcome State Fault Refusal := .next (settleEnd p.val s)

/-- A port's entries and candidates emptied (R178, R180, R182). -/
def clearCal (p : Nat) (s : State) : State :=
  setCal p { cal s p with entries := [], cands := [], past := [] } s

/-- What a superframe boundary does to one calendar: SETTLE begins or counts down, aged entries are dropped, the count of aperiodic impulses is
latched (R171, R173). -/
def calBoundary (p : Nat) (s : State) : State :=
  let c := cal s p
  if c = CalSt.empty then s
  else
    let c1 := if c.startSettle then { c with inSettle := true, startSettle := false, left := getBits s.ncal.cfg 11 8 }
      else { c with left := c.left - 1 }
    let s1 := setCal p { c1 with lastAper := c.aper, aper := 0 } s
    dropEntries p (fun e => decide (getBits s.ncal.sched 23 16 ≤ sfnDiff e.lastHit (sfn s))) s1

/-- The superframe boundary for NCAL: NCAL_CFG and NCAL_SCHED take effect (R179). -/
def ncalBoundary (s : State) : State :=
  let s1 := { s with ncal := { s.ncal with cfg := ncalCfgReg s, sched := ncalSchedReg s } }
  let s2 := setB .ncal NCAL_STATUS.USE (s1.ncal.sched.getLsbD 31) s1
  ncalPending (anySettle (allPorts.foldl (fun t p => calBoundary p t) s2))

/-! Predicted windows (R174). -/

/-- A predicted window in samples of the superframe planned: the entry, its start and end, and its footprint. -/
structure NWin where
  slot : Nat
  lo : Nat
  hi : Nat
  nb : Nat
  ru : Nat
deriving DecidableEq, Repr

/-- The onsets that an entry predicts in the superframe that starts at a module time, in samples of it. -/
def onsetsIn (e : NcalEntry) (t0 : Nat) : List Nat :=
  let n0 := if t0 ≤ e.next then 0 else ceilDiv (t0 - e.next) e.period
  let first := e.next + n0 * e.period - t0
  if e.period = 0 ∨ 209715200 ≤ first then []
  else (List.range ((209715199 - first) / e.period + 1)).map (fun i => first + i * e.period)

/-- The windows of a port in the superframe planned last; a start before the superframe stands at its first sample. -/
def windows (s : State) (p : Nat) : List NWin :=
  (cal s p).fixed.flatMap (fun e =>
    let m := entryMargin s e.2
    (onsetsIn e.2 s.ncal.planned).map (fun o => ⟨e.1, o - m, o + 256 * e.2.width + m, (footprint e.2).1, (footprint e.2).2⟩))

/-- Slot 512: the calendars stand as the plan of the superframe that starts at a module time is fixed with them (R174). -/
def fixWindows (t0 : Nat) (s : State) : State :=
  { s with ncal := { s.ncal with
      planned := t0
      cals := Map.mapVals (fun _ => CalSt.empty) (fun c => { c with fixed := c.entries }) s.ncal.cals } }

/-- The windows the scheduler uses on a port: none with NCAL_SCHED.USE = 0 (R177). -/
def usedWindows (s : State) (p : Nat) : List NWin := if s.ncal.sched.getLsbD 31 then windows s p else []

/-- Whether two stretches of samples meet; ends are exclusive on the left-hand stretch and inclusive on the window. -/
def meets (lo hi : Nat) (w : NWin) : Bool := decide (lo ≤ w.hi) && decide (w.lo < hi)

/-! Placement of broadband bursts (R175). -/

/-- The windows that count against a broadband burst of an RU range on a port set. -/
def bbWindows (s : State) (ports : List Nat) (first last : Nat) : List NWin :=
  ports.flatMap (fun p => (usedWindows s p).filter (fun w =>
    (List.range (last + 1 - first)).any (fun i => w.ru.testBit (first + i))))

/-- Whether the header of a burst at a start is clear. -/
def headerClear (ws : List NWin) (start : Nat) : Bool := ws.all (fun w => !meets start (start + 25600) w)

/-- The data symbols overlapped of a burst with `n` data symbols of a length and PI at a start. -/
def dataHit (ws : List NWin) (start n symLen step : Nat) : Nat :=
  if ws.isEmpty then 0
  else ((List.range n).filter (fun d =>
    let o := start + 25600 + (d + d / step) * symLen
    ws.any (meets o (o + symLen + 64)))).length

/-- The header symbols overlapped of a burst at a start. -/
def headHit (ws : List NWin) (start : Nat) : Nat :=
  ((List.range 2).filter (fun i => ws.any (meets (start + 15360 + 5120 * i) (start + 20480 + 5120 * i + 64)))).length

/-- The start instants of a slot at which a burst of a length ends within it (R137, R175). -/
def bbStarts (slot len : Nat) : List Nat :=
  if 204800 < len then [] else (List.range ((204800 - len) / 256 + 1)).map (fun i => slot * 204800 + 256 * i)

/-- The start a burst takes in the first slot that has one: the header clear, the overlapped data symbols within BB_HIT_MAX per cent, and
whatever else the plan asks (R175). -/
def bbStartIn (s : State) (ws : List NWin) (fits : Nat → Bool) (slots : List Nat) (lenSamples n symLen step : Nat) : Option Nat :=
  slots.findSome? (fun slot => (bbStarts slot lenSamples).find? (fun t =>
    headerClear ws t && decide (100 * dataHit ws t n symLen step ≤ getBits s.ncal.sched 7 0 * n) && fits t))

/-- The start after two deferrals, in the first slot that has one: fewest overlapped header symbols, then data symbols, then the earliest
(R175). -/
def bbBestIn (ws : List NWin) (fits : Nat → Bool) (slots : List Nat) (lenSamples n symLen step : Nat) : Option Nat :=
  slots.findSome? (fun slot => ((bbStarts slot lenSamples).filter fits).foldl (fun a t => match a with
    | none => some t
    | some b =>
      let kb := (headHit ws b, dataHit ws b n symLen step)
      let kt := (headHit ws t, dataHit ws t n symLen step)
      if kt.1 < kb.1 ∨ (kt.1 = kb.1 ∧ kt.2 < kb.2) then some t else some b) none)

/-- A broadband burst is deferred (R175). -/
def deferBurst (s : State) : State := raise .ncal NCAL_INT.DEFERRED (count .ncal NCAL_DEFER_CNT.COUNT s)

/-! Placement of narrowband frames (R176). -/

/-- The bin of a tone set in a band (R176). -/
def binOf (band : Word) (set : Nat) : Nat := (2 * bandBase band + 8 * set + 3 + 25) / 50

/-- Whether symbol `i` of a frame at a start slot and tone set is hit on every port of a set. -/
def symbolHit (s : State) (wins : List (List NWin)) (band : Word) (hops : List Nat) (start set i : Nat) : Bool :=
  let bin := binOf band (segmentSet hops set (i / 128))
  let lo := start + 400 + i * 115200 + 200 * getBits s.nbw.cfg 7 0
  wins.all (fun ws => ws.any (fun w => w.nb.testBit bin && meets lo (lo + 102400) w))

/-- The symbols of a frame of `n` symbols that are hit. -/
def frameHit (s : State) (wins : List (List NWin)) (band : Word) (hops : List Nat) (start set n : Nat) : Nat :=
  if wins.isEmpty || wins.any (·.isEmpty) then 0
  else ((List.range n).filter (symbolHit s wins band hops start set)).length

/-- The pair of start and tone set a narrowband frame takes among those it could take, given earliest first: the first within NB_HIT_MAX
per cent, else the one with the fewest hits (R176). -/
def nbPlace (s : State) (ports : List Nat) (band : Word) (hops : List Nat) (n : Nat) (pairs : List (Nat × Nat)) : Option (Nat × Nat) :=
  let wins := ports.map (usedWindows s)
  match pairs.find? (fun e => decide (100 * frameHit s wins band hops e.1 e.2 n ≤ getBits s.ncal.sched 15 8 * n)) with
  | some e => some e
  | none => pairs.foldl (fun a e => match a with
      | none => some e
      | some b => if frameHit s wins band hops e.1 e.2 n < frameHit s wins band hops b.1 b.2 n then some e else some b) none

/-! The NCAL page (R180–R182). -/

/-- NCAL_BLK_RESET (R180). -/
def execNcalBlkReset (s : State) : Host.Outcome State Fault Refusal :=
  let s1 := allPorts.foldl (fun t p =>
    let c := cal t p
    setCal p { CalSt.empty with aper := c.aper, lastAper := c.lastAper, fixed := c.fixed } t) s
  .next (blkReset .ncal [0x124, 0x128, 0x12C, 0x130] (anySettle s1))

/-- The selected entry and the port's status latched (R181). -/
def ncalLatch (s : State) : State :=
  let c := cal s (getF s .ncal NCAL_SEL.PORT)
  let s1 := resetOffsets .ncal [0x10C, 0x110, 0x114, 0x118, 0x11C, 0x120] s
  let s2 := match c.entries.lookup (getF s .ncal NCAL_SEL.ENTRY) with
    | none => s1
    | some e =>
      let t1 := setF .ncal NCAL_ENT_STATE.HITS e.hits (setF .ncal NCAL_ENT_STATE.MISS_RUN e.missRun
        (setF .ncal NCAL_ENT_STATE.NB_BINS (footprint e).1 (setF .ncal NCAL_ENT_STATE.VALID 1 s1)))
      let t2 := setF .ncal NCAL_ENT_NEXT.NEXT (e.next - s.time.sfStart) (setF .ncal NCAL_ENT_PERIOD.PERIOD e.period t1)
      setF .ncal NCAL_ENT_RU.RU (footprint e).2 (setF .ncal NCAL_ENT_SHAPE.JITTER (min (e.jitter / 64) 255)
        (setF .ncal NCAL_ENT_SHAPE.LEVEL e.level (setF .ncal NCAL_ENT_SHAPE.WIDTH e.width t2)))
  setF .ncal NCAL_PORT_STAT.SETTLE_LEFT c.left (setF .ncal NCAL_PORT_STAT.TRACKED c.entries.length
    (setF .ncal NCAL_PORT_STAT.APER c.lastAper s2))

/-- NCAL_SEL_WRITE (R181). -/
def execNcalSelWrite (value : Word) (s : State) : Host.Outcome State Fault Refusal := .next (ncalLatch (writeFields .ncal 0x108 value s))

/-- CLEAR_PORT (R182). -/
def runClearPort (o : Outstanding) (s : State) : State :=
  if o.a0.toNat ≤ 51 then done .ncal CODE.OK (clearCal o.a0.toNat s) else done .ncal CODE.BAD_ARG s

/-- CLEAR_PORT, NCAL command 0x0001 (R182). -/
def execClearPort (src : CmdSrc) (s : State) : Host.Outcome State Fault Refusal := .next (issue .ncal 0x0001 src runClearPort s)

/-- A window put into a list in ascending start order, after those of the same start. -/
def insWin (w : NWin) : List NWin → List NWin
  | [] => [w]
  | x :: r => if w.lo < x.lo then w :: x :: r else x :: insWin w r

/-- The words SNAPSHOT writes: the count, then pairs in ascending start order (R182). -/
def snapshotWords (s : State) (p : Nat) : List Nat :=
  let ws := (windows s p).foldl (fun a w => insWin w a) []
  ws.length :: ws.flatMap (fun w => [w.slot * 2 ^ 29 + w.lo % 2 ^ 28, w.hi % 2 ^ 28])

/-- SNAPSHOT (R182). -/
def runSnapshot (o : Outstanding) (s : State) : State :=
  if o.a0.toNat ≤ 51 ∧ o.a1.toNat % 4 = 0 ∧ inHostArea o.a1.toNat 67140 then
    done .ncal CODE.OK (busWriteWords o.a1.toNat (snapshotWords s o.a0.toNat) s)
  else done .ncal CODE.BAD_ARG s

/-- SNAPSHOT, NCAL command 0x0002 (R182). -/
def execSnapshot (src : CmdSrc) (s : State) : Host.Outcome State Fault Refusal := .next (issue .ncal 0x0002 src runSnapshot s)

end Sys2Proof.Machine
end

