-- ==== Sys2Proof/Machine/Ports.lean ====
section
/-!
DEFINITION. Sys2Proof/Machine/Ports.lean: events of the line ports: declaration, levels, drivers, dwell, gain control, steps, calibration
and line measurement (spec/06_line_ports.md, R61–R64, R202–R205).
-/
namespace Sys2Proof.Machine

/-! Levels (R95). -/

/-- Whether L_target of a port exceeds L_hw for a waveform: in tenths of a dB, attenuation and coupler loss in 0.5 dB (R95). -/
def targetAbove (s : State) (n : Nat) (w : Wave) : Bool :=
  let mv := decide (48 ≤ n)
  let half (f : Field) : Int := 5 * (getF s (lptPage n) f : Int)
  let loss : Int := if mv then 5 * ((port s n).loss : Int) else 0
  match w with
  | .nb =>
    let limit := (if mv then getBits s.nbw.level 31 16 else getBits s.nbw.level 15 0 : Nat)
    decide ((if mv then (1300 : Int) else 1340) < (limit : Int) - half LPT_TX_LEVEL.NB_ATTEN + loss)
  | .bb =>
    let limit := if mv then getBits s.bbw.cur.level 31 16 else getBits s.bbw.cur.level 15 0
    decide (limit ≠ 0x8000) && decide ((-500 : Int) < signedOf 16 limit - half LPT_TX_LEVEL.BB_ATTEN + loss)

/-- A change of setting of a port: CAPPED brought up to date, LEVEL_CAPPED raised when L_target exceeds L_hw (R95). -/
def capPort (n : Nat) (s : State) : State :=
  let c := targetAbove s n .nb || targetAbove s n .bb
  let s1 := setB (lptPage n) LPT_TX_LEVEL.CAPPED c s
  if c then raise (lptPage n) LPT_INT.LEVEL_CAPPED s1 else s1

/-- A change of the limits: every declared port whose CAPPED changes follows it, and LEVEL_CAPPED is raised where it is set (R95). -/
def capPorts (s : State) : State := (declaredPorts s).foldl (fun t n => capPort n t) s

/-! Declaration (R61–R64). -/

/-- LPT_DECL_WRITE (R63): the RW fields are written and wait for the superframe boundary; COUPLER_LOSS of an LV port ignores writes. -/
def execLptDeclWrite (n : Port) (value : Word) (s : State) : Host.Outcome State Fault Refusal :=
  let v := if n.val < 48 then setBits value 5 0 0 else value
  .next (setF (.lpt n) LPT_DECL.PENDING 1 (writeFields (.lpt n) 0x100 v s))

/-- The receive chain of a port and its mode, for the power state and the declaration in effect (R61, R69, R104). -/
def refreshChain (n : Nat) (s : State) : State :=
  let p := lptPage n
  let d := (port s n).declared
  let out := inOutage s
  let on := d && (!out || outagePort s n)
  setB p LPT_STATUS.RX_ON on (setB p LPT_STATUS.NB_MODE (on && out) (setB p LPT_STATUS.DECL_ACTIVE d s))

/-- What a port's undeclaration ends: transmit bursts set up for it and not enabled complete ABORTED, an outstanding command completes REFUSED,
its calendar is emptied (R63, R108, R110, R178). -/
def undeclare (n : Nat) (s : State) : State :=
  clearCal n (complete (lptPage n) CODE.REFUSED 0 (completeAll (setOn n) BST.ABORTED s))

/-- A pending declaration takes effect (R63). -/
def applyDecl (n : Nat) (s : State) : State :=
  let p := lptPage n
  if !isSet s p LPT_DECL.PENDING then s
  else
    let old := port s n
    let d := isSet s p LPT_DECL.DECLARED
    let x := { old with
      declared := d, nbEn := isSet s p LPT_DECL.NB_EN, bbEn := isSet s p LPT_DECL.BB_EN
      loss := getF s p LPT_DECL.COUPLER_LOSS }
    let s1 := setPort n x (setF p LPT_DECL.PENDING 0 s)
    let s2 := if old.declared && !d then undeclare n s1 else s1
    let s3 := if d && !old.declared then setF p LPT_STATUS.PERMIT 1 s2
      else if d then s2 else setF p LPT_STATUS.PERMIT 0 s2
    let s4 := if x = old then s3 else raise p LPT_INT.DECL_APPLIED s3
    let s5 := refreshChain n s4
    if d && decide (x ≠ old) then capPort n s5 else s5

/-- Every pending declaration takes effect (R63). -/
def applyDecls (s : State) : State := allPorts.foldl (fun t n => applyDecl n t) s

/-- PLUG_REMOVED (R64): the declaration is unchanged; bursts on the ports of the connector run into open terminals or fail as the line lets
them. -/
def execPlugRemoved (_connector : Fin 4) (s : State) : Host.Outcome State Fault Refusal := .next s

/-- SURGE (R94). -/
def execSurge (n : Port) (s : State) : Host.Outcome State Fault Refusal :=
  .next (raise (.lpt n) LPT_INT.SURGE (count (.lpt n) LPT_SURGE_CNT.COUNT s))

/-! Dwell (R202–R205). -/

/-- The accounting interval of a waveform in samples (R204). -/
def dwellUnit : Wave → Nat
  | .nb => 102400
  | .bb => 4096

/-- The occupations of channels by a transmit burst (R203): narrowband segments on their tone sets, or every RU of a broadband burst. -/
def burstOccs (t0 : Nat) (b : Burst) : List TxOcc :=
  match b.wave with
  | .bb => (List.range (b.ch1 + 1 - b.ch0)).map (fun i => ⟨b.place, .bb, b.ch0 + i, t0, t0 + b.length⟩)
  | .nb =>
    let n := b.length / 115200
    (List.range (ceilDiv n 128)).map (fun g =>
      ⟨b.place, .nb, segmentSet b.hops b.ch0 g, t0 + 400 + g * segmentSamples, t0 + 400 + min n (128 * (g + 1)) * 115200⟩)

/-- The first and last interval an occupation marks occupied: those it fills to more than a hundredth, which brings the interval's mean
energy above L_eff − 20 dB. DEDUCED (log 14). -/
def occRange (base : Nat) (o : TxOcc) : Int × Int :=
  let l : Int := dwellUnit o.wave
  let lo : Int := (o.lo : Int) - base
  let hi : Int := (o.hi : Int) - base
  let a := lo / l
  let b := (hi - 1) / l
  (if ((a + 1) * l - lo) * 100 ≤ l then a + 1 else a, if (hi - b * l) * 100 ≤ l then b - 1 else b)

/-- The occupied interval ranges of a channel up to interval `now`, in the order of their occupations. -/
def chanRanges (s : State) (p : Nat) (w : Wave) (ch : Nat) (now : Int) : List (Int × Int) :=
  ((s.bcn.occs.filter (fun o => decide (o.port = p) && decide (o.wave = w) && decide (o.ch = ch))).map
    (occRange s.time.sfStart)).filterMap (fun r =>
      let b := min r.2 (now - 1)
      if r.1 ≤ b then some (r.1, b) else none)

/-- The occupied intervals within [from, now) that ranges mark, each counted once. -/
def occupiedIn (from_ : Int) (rs : List (Int × Int)) : Nat :=
  (rs.foldl (fun (a : Nat × Int) r =>
    let lo := max (max r.1 from_) (a.2 + 1)
    if lo ≤ r.2 then (a.1 + (r.2 + 1 - lo).toNat, r.2) else a) (0, from_ - 1)).1

/-- The intervals of a gap of 1.024 ms (R204). -/
def dwellGap : Wave → Int
  | .nb => 2
  | .bb => 50

/-- C of a channel at interval `now`: occupied intervals since the last gap of 1.024 ms (R204). -/
def continuousCount (w : Wave) (rs : List (Int × Int)) (now : Int) : Nat :=
  let r := rs.foldl (fun (a : Nat × Option Int) r =>
    match a.2 with
    | none => ((r.2 + 1 - r.1).toNat, some r.2)
    | some last =>
      if r.1 - last - 1 < dwellGap w then (a.1 + (r.2 - max last (r.1 - 1)).toNat, some (max last r.2))
      else ((r.2 + 1 - r.1).toNat, some r.2)) (0, none)
  match r.2 with
  | none => 0
  | some last => if now - last - 1 < dwellGap w then r.1 else 0

/-- The slots before the present one that the rolling window takes in (R204). -/
def windowSlots (occ : Word) : Nat := ceilDiv (getBits occ 15 0 * 100000) 1024

/-- C and O of a channel at the start of the present slot, in intervals (R204). -/
def dwellCounts (s : State) (p : Nat) (w : Wave) (ch : Nat) : Nat × Nat :=
  let l : Int := dwellUnit w
  let t : Int := (slotTime s : Int) - s.time.sfStart
  let now := t / l
  let rs := chanRanges s p w ch now
  (continuousCount w rs now, occupiedIn ((t - windowSlots s.bcn.occ * 204800) / l) rs)

/-- Occupations that no window reaches any more are forgotten. -/
def pruneOccs (s : State) : State :=
  let keep := windowSlots s.bcn.occ * 204800 + 209715200
  { s with bcn := { s.bcn with occs := s.bcn.occs.filter (fun o => decide (s.time.sfStart ≤ o.hi + keep)) } }

/-- The code of a waveform in BCN_DWELL_SEL. -/
def waveOf (c : Nat) : Wave := if c = 0 then .nb else .bb

/-- DWELL_BARRED (R205): the permit is withdrawn, the port's bursts complete DWELL_STOP. -/
def dwellBarred (n : Nat) (w : Wave) (ch : Nat) (s : State) : State :=
  let c := (n, w, ch)
  let s1 := { s with bcn := { s.bcn with barred := if s.bcn.barred.contains c then s.bcn.barred else s.bcn.barred ++ [c] } }
  let s2 := setF (lptPage n) LPT_STATUS.PERMIT 0 s1
  if driverOn s2 n then
    let k := countBursts s2 (liveOn n)
    logPage .bcn BCN_INT.DWELL_STOP [n, waveCode w * 64 + ch]
      (raise .bcn BCN_INT.DWELL_STOP (countN .bcn BCN_DWELL_STOP_CNT.COUNT (max k 1) (stopPort n BST.DWELL_STOP s2)))
  else s2

/-- DWELL_BARRED (R205). -/
def execDwellBarred (n : Port) (w : Wave) (ch : Fin 61) (s : State) : Host.Outcome State Fault Refusal :=
  .next (dwellBarred n.val w ch.val s)

/-- DWELL_CLEAR (R205). -/
def execDwellClear (n : Port) (w : Wave) (ch : Fin 61) (s : State) : Host.Outcome State Fault Refusal :=
  let l := s.bcn.barred.erase (n.val, w, ch.val)
  .next { s with bcn := { s.bcn with barred := l } }

/-- BCN_DWELL_SEL_WRITE (R211): a copy of the accounting of the selected channel. -/
def execBcnDwellSelWrite (value : Word) (s : State) : Host.Outcome State Fault Refusal :=
  let s1 := writeFields .bcn 0x128 value s
  let p := getF s1 .bcn BCN_DWELL_SEL.PORT
  let w := waveOf (getF s1 .bcn BCN_DWELL_SEL.WAVE)
  let ch := getF s1 .bcn BCN_DWELL_SEL.CHANNEL
  let c := dwellCounts s1 p w ch
  let ms (k : Nat) : Nat := k * dwellUnit w / 200000
  .next (setB .bcn BCN_DWELL_STATE.BARRED (s1.bcn.barred.contains (p, w, ch))
    (setF .bcn BCN_DWELL_STATE.CONT (min (ms c.1) 32767) (setF .bcn BCN_DWELL_STATE.OCC (min (ms c.2) 65535) s1)))

/-! Drivers (R17, R96–R98, R109). -/

/-- A beacon is lost (R186). -/
def loseBeacon (s : State) : State :=
  raise .bcn BCN_INT.BEACON_REFUSED (count .bcn BCN_BEACON_REFUSED_CNT.COUNT s)

/-- The drivers that may be enabled at once: 16, or 2 in OUTAGE (R17, R69). -/
def driverLimit (s : State) : Nat := if inOutage s then 2 else 16

/-- Whether a loopback calibration is running on a port (R107). -/
def calibrating (s : State) (n : Nat) : Bool :=
  match outstanding s (lptPage n) with
  | some o => decide (o.opcode = 1) && decide (o.phase = 1)
  | none => false

/-- Whether the Hedgehog and the port grant an enable, the number of drivers apart: no kill, no hold-off, no port trip, no driver fault, no
loopback, the port declared (R98, R107, R109, R401, R473). -/
def enableAllowed (s : State) (n : Nat) : Bool :=
  (port s n).declared && !killed s && !isSet s .pair PAIR_STATUS.HOLD_OFF && !tripped s n && !calibrating s n &&
    decide (getF s (lptPage n) LPT_STATUS.FAULT_CAUSE ≠ 1)

/-- The status of a burst whose enable is refused (R17, R98). -/
def refusedStatus (s : State) (n : Nat) : Nat :=
  if getF s (lptPage n) LPT_STATUS.FAULT_CAUSE = 1 then BST.DRIVER_FAULT else BST.ABORTED

/-- The module time of a burst's first sample. -/
def burstT0 (s : State) (b : Burst) : Nat := s.time.sfStart + sfnDiff (sfn s) b.sfn % 2 * 209715200 + b.start

/-- A granted enable: the driver on, the permit granted, the burst on its way (R96, R205). -/
def grantEnable (id : Nat) (s : State) : State :=
  let b := burst s id
  let n := b.place
  let s1 := if driverOn s n then s else driverEnable n (setF (lptPage n) LPT_STATUS.PERMIT 1 s)
  let l := s1.bcn.occs ++ burstOccs (burstT0 s1 b) b
  let x : PlanItem := ⟨n, b.wave, b.ch0, b.ch1, b.start, b.length, b.sfn, b.purpose, b.header, b.payload, b.hops⟩
  moveCtx id { b with st := .txLive } (emit (.burst x) { s1 with bcn := { s1.bcn with occs := l } })

/-- A refused enable (R17, R98, R109, R186). -/
def refuseBurst (id : Nat) (s : State) : State :=
  let b := burst s id
  let n := b.place
  let s1 := completeBurst id (refusedStatus s n)
    (refuseEnable n (enableAllowed s n && decide (driverLimit s ≤ driversOn s)) s)
  if b.purpose = .beacon then loseBeacon s1 else s1

/-- The enable requested for a transmit burst at t0 − 10 µs (R96). A driver that is on already carries the burst too. -/
def enableRequest (id : Nat) (s : State) : State :=
  let b := burst s id
  if b.st ≠ .txSet then s
  else if enableAllowed s b.place && (driverOn s b.place || decide (driversOn s < driverLimit s)) then grantEnable id s
  else refuseBurst id s

/-- DRIVER_ENABLE_REQUEST (R96). -/
def execDriverEnableRequest (id : BurstId) (s : State) : Host.Outcome State Fault Refusal := .next (enableRequest id.val s)

/-- The frequencies of MEASURE_Z that a waveform's bursts cover (R108). -/
def zCovered (w : Wave) (i : Nat) : Bool :=
  match w with
  | .nb => decide (i < 2)
  | .bb => decide (2 ≤ i)

/-- Impedances measured during a port's own burst, for a MEASURE_Z outstanding on it: each frequency not yet measured is set, and the command
completes OK with the fourth (R108). -/
def measureZ (n : Nat) (w : Wave) (z : List (Fin 4 × BitVec 16 × BitVec 16)) (s : State) : State :=
  match outstanding s (lptPage n) with
  | none => s
  | some o =>
    if o.opcode ≠ 2 then s
    else
      let s1 := (z.filter (fun e => zCovered w e.1.val)).foldl (fun t e =>
        let x := port t n
        if x.measured.testBit e.1.val then t
        else setI (lptPage n) LPT_LINE_Z.MAG e.1.val e.2.1.toNat (setI (lptPage n) LPT_LINE_Z.ANGLE e.1.val e.2.2.toNat
          (setPort n { x with measured := x.measured ||| 2 ^ e.1.val } t))) s
      if (port s1 n).measured = 15 then done (lptPage n) CODE.OK s1 else s1

/-- The end of a transmit burst at t1 + 2 µs: its driver is disabled unless it carries another burst (R96). -/
def disableRequest (id : Nat) (z : List (Fin 4 × BitVec 16 × BitVec 16)) (s : State) : State :=
  let b := burst s id
  if b.st ≠ .txLive ∨ b.sent then s
  else
    let s1 := measureZ b.place b.wave z (setBurst id { b with sent := true } s)
    if countBursts s1 (fun x => liveOn b.place x && !x.sent) = 0 then driverOff b.place s1 else s1

/-- DRIVER_DISABLE (R96). -/
def execDriverDisable (id : BurstId) (z : List (Fin 4 × BitVec 16 × BitVec 16)) (s : State) : Host.Outcome State Fault Refusal :=
  .next (disableRequest id.val z s)

/-- BLANKING_END (R11): the settling interval after driver disable has passed. -/
def execBlankingEnd (n : Port) (s : State) : Host.Outcome State Fault Refusal :=
  .next (if driverOn s n.val then s else refreshGroup (groupOf n.val) (setPort n.val { port s n.val with blanked := false } s))

/-- CURRENT_CLAMP (R97): the bursts on the line are marked, and the burst continues. -/
def execCurrentClamp (n : Port) (s : State) : Host.Outcome State Fault Refusal :=
  .next (
    if driverOn s n.val then
      (burstIds s (liveOn n.val)).foldl (fun t id => setBurst id { burst t id with clamped := true } t)
        (setF (.lpt n) LPT_STATUS.CLAMPING 1 s)
    else s)

/-- DRIVER_HOT (R98). -/
def execDriverHot (n : Port) (s : State) : Host.Outcome State Fault Refusal :=
  let s1 := raise (.lpt n) LPT_INT.DRIVER_HOT (setF (.lpt n) LPT_STATUS.FAULT_CAUSE 1 (setFault (.lpt n) 1 s))
  .next (if driverOn s1 n.val then stopPort n.val BST.DRIVER_FAULT s1 else s1)

/-- DRIVER_COOLED (R98). -/
def execDriverCooled (n : Port) (s : State) : Host.Outcome State Fault Refusal :=
  .next (if getF s (.lpt n) LPT_STATUS.FAULT_CAUSE = 1 then setF (.lpt n) LPT_STATUS.FAULT_CAUSE 0 (setFault (.lpt n) 0 s) else s)

/-! Gain control (R99–R104). -/

/-- The receive bursts in progress that a port takes part in. -/
def rxHere (s : State) (n : Nat) (b : Burst) : Bool :=
  decide (b.st = .rxOpen) && decide (b.place = groupOf n) && receives s b.wave n

/-- Whether a port is in automatic mode with its receive chain on. -/
def agcAuto (s : State) (n : Nat) : Bool :=
  isSet s (lptPage n) LPT_STATUS.RX_ON && decide (getF s (lptPage n) LPT_AGC.MODE = 0)

/-- A change of range requested; requests are merged and the greatest reduction wins (R100). -/
def requestChange (n : Nat) (d : Int) (s : State) : State :=
  let x := port s n
  let m := if d < 0 ∨ x.change < 0 then min d x.change else max d x.change
  if agcAuto s n then setPort n { x with change := m } s else s

/-- Symbols of the bursts in progress on a port erased (R102). -/
def eraseSymbols (n k : Nat) (s : State) : State :=
  if k = 0 then s else countN (lptPage n) LPT_CLIP_CNT.COUNT k s

/-- AGC_CLIPPED_SAMPLE: the first clipped sample of a symbol of each burst in progress (R100, R102). -/
def execAgcClippedSample (n : Port) (s : State) : Host.Outcome State Fault Refusal :=
  let k := countBursts s (rxHere s n.val)
  let s1 := requestChange n.val (-2) s
  .next (
    if !isSet s (.lpt n) LPT_STATUS.RX_ON then s
    else if k = 0 then s1 else raise (.lpt n) LPT_INT.CLIP (eraseSymbols n.val k s1))

/-- AGC_BLOCK_MEASURED: a block peak above −2 dBFS without a clipped sample, or a slot wholly below −14 dBFS (R100). -/
def execAgcBlockMeasured (n : Port) (low : Bool) (s : State) : Host.Outcome State Fault Refusal :=
  .next (requestChange n.val (if low then 1 else -1) s)

/-- The range a requested change leads to (R100, R101). -/
def nextRange (s : State) (n : Nat) : Nat :=
  if getF s (lptPage n) LPT_AGC.MODE = 1 then getF s (lptPage n) LPT_AGC.FIXED_RANGE
  else (max 0 (min 7 ((getF s (lptPage n) LPT_STATUS.RANGE : Int) + (port s n).change))).toNat

/-- A change instant: the PGA takes its range, and the next symbol of every burst in progress carries GAIN_STEP (R101, R102); none occurs
while the range is held (R103). -/
def rangeChange (n : Nat) (s : State) : State :=
  let g := nextRange s n
  if !isSet s (lptPage n) LPT_STATUS.RX_ON || isSet s (lptPage n) LPT_STATUS.AGC_FROZEN ||
      decide (g = getF s (lptPage n) LPT_STATUS.RANGE) then
    (if isSet s (lptPage n) LPT_STATUS.AGC_FROZEN then s else setPort n { port s n with change := 0 } s)
  else
    let s1 := setF (lptPage n) LPT_STATUS.RANGE g (setPort n { port s n with change := 0 } s)
    (burstIds s1 (rxHere s1 n)).foldl (fun t id => setBurst id { burst t id with gainStep := true } t) s1

/-- RANGE_CHANGE (R101). -/
def execRangeChange (n : Port) (s : State) : Host.Outcome State Fault Refusal := .next (rangeChange n.val s)

/-- RANGE_CHANGE_FORCED (R101): as a change instant, with the spanning symbols of every burst but the first erased. -/
def execRangeChangeForced (n : Port) (s : State) : Host.Outcome State Fault Refusal :=
  let t := rangeChange n.val s
  .next (if getF t (.lpt n) LPT_STATUS.RANGE = getF s (.lpt n) LPT_STATUS.RANGE then t
    else eraseSymbols n.val (countBursts t (rxHere t n.val) - 1) t)

/-! Steps (R105). -/

/-- A step on a port: counted, raised and passed to the calendar (R105, R173). -/
def stepOn (n kind t : Nat) (s : State) : State :=
  calStep n kind t (raise (lptPage n) LPT_INT.STEP (count (lptPage n) LPT_STEP_CNT.COUNT s))

/-- RECEIVE_STEP (R105): `sample` is the first sample of its first block in the superframe. -/
def execReceiveStep (n : Port) (up : Bool) (sample : Fin 209715200) (s : State) : Host.Outcome State Fault Refusal :=
  .next (
    if isSet s (.lpt n) LPT_STATUS.RX_ON && !(port s n.val).blanked then
      stepOn n.val (if up then 1 else 2) (s.time.sfStart + sample.val) s
    else s)

/-- DRIVE_STEP (R105). -/
def execDriveStep (n : Port) (sample : Fin 209715200) (s : State) : Host.Outcome State Fault Refusal :=
  .next (if driverOn s n.val then stepOn n.val 3 (s.time.sfStart + sample.val) s else s)

/-! Commands (R107, R108, R112). -/

/-- CAL_PORT: refused for a port undeclared or in narrowband mode; else its superframe is awaited (R107, R112). -/
def runCalPort (n : Nat) (_o : Outstanding) (s : State) : State :=
  if !(port s n).declared || isSet s (lptPage n) LPT_STATUS.NB_MODE then done (lptPage n) CODE.REFUSED s else s

/-- CAL_PORT, LPT command 0x0001 (R112). -/
def execCalPort (n : Port) (src : CmdSrc) (s : State) : Host.Outcome State Fault Refusal :=
  .next (issue (.lpt n) 0x0001 src (runCalPort n.val) s)

/-- The superframe boundary for a CAL_PORT that waits: its loopback begins, or it is refused when the port is undeclared or in OUTAGE
(R107, R110). -/
def calStart (n : Nat) (s : State) : State :=
  match outstanding s (lptPage n) with
  | none => s
  | some o =>
    if o.opcode ≠ 1 ∨ o.phase ≠ 0 then s
    else if !(port s n).declared || inOutage s then done (lptPage n) CODE.REFUSED s
    else setPhase (lptPage n) 1 (setPort n { port s n with blanked := true } s)

/-- The end of the calibration superframe with the measured errors in 0.05 dB (R107): within ±1.0 dB the result is taken. -/
def finishCal (n : Nat) (tx rx : Int) (s : State) : State :=
  let p := lptPage n
  let s1 := setPort n { port s n with blanked := false } s
  let ok := decide (-20 ≤ tx) && decide (tx ≤ 20) && decide (-20 ≤ rx) && decide (rx ≤ 20)
  let s2 := setF p LPT_CAL.TX_ERR (ofSigned 8 tx) (setF p LPT_CAL.RX_ERR (ofSigned 8 rx) s1)
  if ok then done p CODE.OK (setF p LPT_CAL.STATE 1 s2)
  else done p 0x80 (setFault p 1 (setF p LPT_STATUS.FAULT_CAUSE 3 (setF p LPT_CAL.STATE 2 s2)))

/-- The abort of CAL_PORT before its superframe ends (R112). -/
def abortCal (n : Nat) (s : State) : State :=
  done (lptPage n) CODE.ABORTED (setPort n { port s n with blanked := (port s n).blanked && driverOn s n } s)

/-- MEASURE_Z: refused for an undeclared port; else the port's own bursts are awaited (R108, R112). -/
def runMeasureZ (n : Nat) (_o : Outstanding) (s : State) : State :=
  if (port s n).declared then setPort n { port s n with measured := 0 } s else done (lptPage n) CODE.REFUSED s

/-- MEASURE_Z, LPT command 0x0002 (R112). -/
def execMeasureZ (n : Port) (src : CmdSrc) (s : State) : Host.Outcome State Fault Refusal :=
  .next (issue (.lpt n) 0x0002 src (runMeasureZ n.val) s)

/-- MEASURE_Z_TIMEOUT (R108): each unmeasured frequency reads MAG = 0xFFFF. -/
def measureZTimeout (n : Nat) (s : State) : State :=
  match outstanding s (lptPage n) with
  | none => s
  | some o =>
    if o.opcode ≠ 2 then s
    else
      let s1 := (List.range 4).foldl (fun t i =>
        if (port t n).measured.testBit i then t else setI (lptPage n) LPT_LINE_Z.MAG i 0xFFFF t) s
      done (lptPage n) CODE.TIMEOUT s1

/-- MEASURE_Z_TIMEOUT (R108). -/
def execMeasureZTimeout (n : Port) (s : State) : Host.Outcome State Fault Refusal := .next (measureZTimeout n.val s)

/-- LPT_BLK_RESET (R111). The port's samples are erased until the chain is ready again, which BLANKING_END tells. -/
def execLptBlkReset (n : Port) (s : State) : Host.Outcome State Fault Refusal :=
  let p : Page := .lpt n
  let s1 := if driverOn s n.val then driverOff n.val s else s
  let s2 := completeAll (fun b => liveOn n.val b || setOn n.val b) BST.KILLED s1
  let s3 := setPort n.val { port s2 n.val with blanked := true, change := 0, measured := 0 } s2
  let s4 := setF p LPT_STATUS.RANGE 3 (setF p LPT_STATUS.FAULT_CAUSE 0 (setFault p 0 s3))
  .next (refreshFreeze n.val
    (blkReset p [0x110, 0x114, 0x118, 0x11C, 0x120, 0x124, 0x128, 0x12C, 0x130, 0x134] s4))

end Sys2Proof.Machine
end

