-- ==== Sys2Proof/Machine/Place.lean ====
section
/-!
DEFINITION. Sys2Proof/Machine/Place.lean: what a plan may hold: reserved cells, slots, drivers, dwell and conflicts, and the placement of one
transmission or grant occurrence (R17, R157, R175, R176, R183–R203, R243–R250).
-/
namespace Sys2Proof.Machine

/-! The superframe that is planned (R183, R184, R201). -/

/-- The samples of a superframe. -/
def superframe : Nat := 209715200

/-- The number of the superframe planned next. -/
def planSfn (s : State) : Nat := (sfn s + 1) % 2 ^ 32

/-- The module time at its start. -/
def planStart (s : State) : Nat := s.time.sfStart + superframe

/-- The module time at the start of a superframe near the present one. -/
def sfTime (s : State) (k : Nat) : Nat :=
  let d := sfnDiff (sfn s) k
  if d < 2 ^ 31 then s.time.sfStart + d * superframe else s.time.sfStart - (2 ^ 32 - d) * superframe

/-- Whether pending map and plan values apply in the superframe planned (R201). -/
def epochPlanned (s : State) : Bool := decide (s.bcn.epoch = some (planSfn s))

/-- Whether pending values are shown in the beacons of the superframe planned: it is one of the 8 before the epoch (R201). -/
def nextShown (s : State) : Bool :=
  match s.bcn.epoch with
  | none => false
  | some e => decide (1 ≤ sfnDiff (planSfn s) e) && decide (sfnDiff (planSfn s) e ≤ 8)

/-- Whether the module plans transmissions: it is SOLO or ACTIVE in the superframe planned; at a HANDOVER that superframe is the other's (R401,
R411). -/
def inService (s : State) : Bool :=
  if s.pair.swapAt = some (planSfn s) then standby s else decide (pairRole s < 2)

/-- NB_MAP as pending. -/
def pendingNbMap (s : State) : Nat := getF s .bcn BCN_NB_MAP_LO.SETS + getF s .bcn BCN_NB_MAP_HI.SETS * 2 ^ 32

/-- Whether a map may be applied under a number of tone sets (R201). -/
def mapAllowed (n map : Nat) : Bool := decide (map ≠ 0) && decide (map < 2 ^ n)

/-- NSETS in the superframe planned (R132). -/
def planNsets (s : State) : Nat := nsets s.nbw.nextBand

/-- NB_MAP in force in the superframe planned: pending bits at or above NSETS are never applied, and those of a new band are cleared (R201). -/
def planMap (s : State) : Nat :=
  let m := if epochPlanned s && mapAllowed (planNsets s) (pendingNbMap s) then pendingNbMap s else nbMap s
  m % 2 ^ planNsets s

/-- RU_MAP in force in the superframe planned. -/
def planRus (s : State) : Nat := if epochPlanned s then getF s .bcn BCN_RU_MAP.RUS else getF s .bcn BCN_RU_MAP_CUR.RUS

/-- BW − 1 in force in the superframe planned. -/
def planBw (s : State) : Nat := if epochPlanned s then getF s .bcn BCN_CFG.BW else s.bcn.bw

/-- BB_CPER in force in the superframe planned. -/
def planCper (s : State) : Nat := if epochPlanned s then getF s .bcn BCN_CFG.BB_CPER else s.bcn.cper

/-- P, the contention period in slots (R190). -/
def contentionPeriod (s : State) : Nat := 8 * 2 ^ planCper s

/-- Whether a port is the uplink MV port of a subordinate (R257). -/
def isUpPort (s : State) (p : Nat) : Bool :=
  decide (s.mac.role = 2) && decide (getF s .rpt RPT_TREE.UP_IF = 1) && decide (getF s .rpt RPT_TREE.UP_PORT = p)

/-! The line as the plan fills it. -/

/-- The module time of a planned transmission's first sample. -/
def itemT0 (s : State) (p : PlanItem) : Nat := sfTime s p.sfn + p.start

/-- The occupations of a planned transmission. -/
def itemOccs (s : State) (p : PlanItem) : List TxOcc := burstOccs (itemT0 s p) (txBurst p 0 0)

/-- The transmit bursts taken and not yet on the line. -/
def setBursts (s : State) : List Burst := (s.eng.bursts.map (·.2)).filter (fun b => decide (b.st = .txSet))

/-- The occupations of channels by the module's own transmissions, on the line, taken and planned. -/
def ownOccs (s : State) : List TxOcc :=
  s.bcn.occs ++ (setBursts s).flatMap (fun b => burstOccs (burstT0 s b) b) ++ s.plan.items.flatMap (itemOccs s)

/-- The hop list of a grant occurrence's frame: the map of the superframe it starts in (R126, R200). -/
def grantHops (s : State) (k : Nat) : List Nat := setsOf (if k = planSfn s then planMap s else nbMap s)

/-- The occupations of channels by a grant occurrence, on its phase group (R12). -/
def grantOccs (s : State) (o : Occ) : List TxOcc :=
  burstOccs (sfTime s o.sfn + o.start) { Burst.idle with
    wave := o.wave, place := (groupPorts o.group).getD 0 0, ch0 := o.ch0, ch1 := o.ch1, length := o.length, hops := grantHops s o.sfn }

/-- The port number of a cell that stands on every port. -/
def everyPort : Nat := 64

/-- The cells of one beacon wave that starts at a module time: segments 0, 1 and 2 of every hop on tone sets 0, 1 and 2 mod NSETS (R194). -/
def waveCells (s : State) (t0 : Nat) : List TxOcc :=
  if planNsets s = 0 then []
  else (List.range (planBw s + 1)).flatMap (fun h => ([0, 1, 2] : List Nat).map (fun g =>
    let lo := t0 + 243 * h * 204800 + 400 + g * segmentSamples
    ⟨everyPort, .nb, g % planNsets s, lo, lo + (if g = 2 then 120 else 128) * 115200⟩))

/-- The beacon-wave cells of the superframe planned and of those after it up to a module time. -/
def waveCellsTo (s : State) (hi : Nat) : List TxOcc :=
  (List.range ((hi - planStart s) / superframe + 1)).flatMap (fun k => waveCells s (planStart s + k * superframe))

/-- Whether two occupations meet: the same channel on one phase group, or a cell of every port. -/
def cellsMeet (a b : TxOcc) : Bool :=
  decide (a.wave = b.wave) && decide (a.ch = b.ch) && decide (a.lo < b.hi) && decide (b.lo < a.hi) &&
    (decide (a.port = everyPort) || decide (b.port = everyPort) || decide (groupOf a.port = groupOf b.port))

/-- The last sample of a list of occupations. -/
def lastOf (os : List TxOcc) : Nat := os.foldl (fun m o => max m o.hi) 0

/-- Whether occupations are clear of the beacon wave, of reserved flood cells, of grants and of the module's own transmissions (R194, R197, R250). -/
def cellsFree (s : State) (os : List TxOcc) : Bool :=
  let busy := waveCellsTo s (lastOf os) ++ s.plan.cells ++ s.plan.grants.flatMap (grantOccs s) ++ ownOccs s
  os.all (fun o => !busy.any (cellsMeet o))

/-! Drivers (R17, R69). -/

/-- The stretches for which the drivers of ports are enabled: from 10 µs before to 2 µs after each transmission (R96). -/
def driveTimes (s : State) : List (Nat × Nat × Nat) :=
  ((s.eng.bursts.map (·.2)).filter (fun b => b.tx && b.st.isOpen && !b.sent)).map
      (fun b => (b.place, burstT0 s b - 2000, burstT0 s b + b.length + 400)) ++
    s.plan.items.map (fun p => (p.port, itemT0 s p - 2000, itemT0 s p + p.length + 400))

/-- The ports with a driver on at a moment. -/
def drivenAt (l : List (Nat × Nat × Nat)) (t : Nat) : List Nat :=
  ((l.filter (fun e => decide (e.2.1 ≤ t) && decide (t < e.2.2))).map (·.1)).eraseDups

/-- Whether a transmission keeps the drivers enabled at once within their limit (R17, R186). -/
def driversFit (s : State) (p : PlanItem) : Bool :=
  let lo := itemT0 s p - 2000
  let hi := itemT0 s p + p.length + 400
  let l := (p.port, lo, hi) :: driveTimes s
  (lo :: (l.map (·.2.1)).filter (fun t => decide (lo < t) && decide (t < hi))).all (fun t =>
    decide ((drivenAt l t).length ≤ driverLimit s))

/-! Dwell (R202, R203). -/

/-- The scheduler's count of an occupation of a length in samples: rounded up to whole units, and one more (R203). -/
def counted (w : Wave) (n : Nat) : Nat := (ceilDiv n (dwellUnit w) + 1) * dwellUnit w

/-- An occupation put among others in the order of their starts. -/
def insOcc (o : Nat × Nat) : List (Nat × Nat) → List (Nat × Nat)
  | [] => [o]
  | x :: r => if o.1 < x.1 then o :: x :: r else x :: insOcc o r

/-- The longest continuous transmission counted among stretches in order: gaps below 1.024 ms do not break it (R204). -/
def longestRun (w : Wave) (l : List (Nat × Nat)) : Nat :=
  (l.foldl (fun (a : Nat × Nat × Nat) e =>
    let c := counted w (e.2 - e.1)
    let run := if e.1 < a.2.1 + 204800 then a.2.2 + c else c
    (max a.1 run, max a.2.1 e.2, run)) (0, 0, 0)).1

/-- The transmission counted within a window. -/
def countedIn (w : Wave) (l : List (Nat × Nat)) (lo hi : Nat) : Nat :=
  (l.map (fun e =>
    let a := max e.1 lo
    let b := min e.2 hi
    if a < b then counted w (b - a) else 0)).sum

/-- Whether the stretches of one channel keep T_CONT, and OCC × W in every window of length W, with the limits that apply from the next
superframe (R202, R203, R209). -/
def dwellFits (s : State) (w : Wave) (l : List (Nat × Nat)) : Bool :=
  let width := getF s .bcn BCN_DWELL_OCC.WINDOW * 20000000
  let budget := getF s .bcn BCN_DWELL_OCC.OCC * getF s .bcn BCN_DWELL_OCC.WINDOW * 20000
  decide (longestRun w l ≤ getF s .bcn BCN_DWELL_CONT.T_CONT * 200000) &&
    l.all (fun e => decide (countedIn w l e.1 (e.1 + width) ≤ budget) && decide (countedIn w l (e.2 - width) e.2 ≤ budget))

/-- The stretches of a channel's occupations in order. -/
def stretches (os : List TxOcc) : List (Nat × Nat) := os.foldl (fun l o => insOcc (o.lo, o.hi) l) []

/-- Whether new occupations keep the limits of every channel they use, beside old ones of the same sender. -/
def dwellKept (s : State) (old new : List TxOcc) : Bool :=
  new.all (fun o =>
    dwellFits s o.wave (stretches ((old ++ new).filter (fun x =>
      decide (x.port = o.port) && decide (x.wave = o.wave) && decide (x.ch = o.ch)))))

/-- Whether a transmission of the module may be planned: clear of everything, within the drivers and the dwell limits. -/
def itemFits (s : State) (p : PlanItem) : Bool :=
  let os := itemOccs s p
  cellsFree s os && driversFit s p && dwellKept s (ownOccs s) os

/-- Whether a grant occurrence may be planned: clear of everything, and within the dwell limits of its endpoint (R202). -/
def grantFits (s : State) (o : Occ) : Bool :=
  let os := grantOccs s o
  cellsFree s os && dwellKept s ((s.plan.grants.filter (fun g => decide (g.addr = o.addr))).flatMap (grantOccs s)) os

/-! Floods (R243–R245, R250). -/

/-- SPACE of a flood whose frames last a number of samples on the line (R244). -/
def floodSpace (samples : Nat) : Nat := ceilDiv (samples + 5209600) 1843200

/-- The module time of a start slot number (R244). -/
def startSlotTime (s : State) (j : Nat) : Nat := sfTime s (j / 114 % 2 ^ 32) + j % 114 * 9 * 204800

/-- The cells of hops 1 to HMAX of a flood that starts at a start slot on a tone set, with `n` symbols (R245, R250). -/
def floodCells (s : State) (j0 space hmax n set : Nat) (hops : List Nat) : List TxOcc :=
  (List.range hmax).flatMap (fun h =>
    let t := startSlotTime s (j0 + (h + 1) * space)
    (List.range (ceilDiv n 128)).map (fun g =>
      ⟨everyPort, .nb, segmentSet hops set (g + h + 1), t + 400 + g * segmentSamples, t + 400 + min n (128 * (g + 1)) * 115200⟩))

/-! Slots (R117, R195–R197). -/

/-- The narrowband start slots of a superframe (R117). -/
def nbStartSlots : List Nat := (List.range 114).map (9 * ·)

/-- The slots of the beacon region of the superframe planned: to the end of the one in which a broadband beacon's last sample falls (R196). -/
def beaconRegion (s : State) : Nat :=
  (s.plan.items.filter (fun p => decide (p.purpose = .beacon) && decide (p.wave = .bb) && decide (p.sfn = planSfn s))).foldl
    (fun m p => max m (ceilDiv p.length 204800)) 0

/-- The scheduled broadband slots of the superframe planned (R196). -/
def scheduledSlots (s : State) : List Nat :=
  ((List.range 1024).drop (beaconRegion s)).filter (fun k => decide (k % contentionPeriod s ≠ contentionPeriod s - 1))

/-- The longest run of permitted RUs with at least 51 unmasked carriers, the lowest of equals. DESIGN CHOICE (log 24): the spec leaves the
choice of RUs to the scheduler. -/
def ruRun (s : State) : Option (Nat × Nat) :=
  let ok (a b : Nat) : Bool := (List.range (b + 1 - a)).all (fun i => (planRus s).testBit (a + i)) &&
    decide (51 ≤ (unmasked s.bbw.next.pmask a b).length)
  ((List.range 27).flatMap (fun a => (List.range (27 - a)).map (fun i => (a, a + i)))).foldl (fun best e =>
    if !ok e.1 e.2 then best
    else match best with
      | none => some e
      | some b => if b.2 - b.1 < e.2 - e.1 then some e else some b) none

/-- The samples, data symbols, symbol length and pilot step of a broadband burst with a header and loading codes. -/
def bbShape (s : State) (h : BbHeader) (codes : List Byte) : Nat × Nat × Nat × Nat :=
  let b := symbolLoad s.bbw.next.pmask h codes
  (bbSamples h b, if h.len = 0 then 0 else dataSymbols h.rate h.len b, 4096 + giSamples h.gi, pilotStep h.pi)

/-- The placement of a broadband burst: a start, a deferral by the calendar, or no room. -/
inductive BbPlaced where
  | at (start : Nat)
  | deferred
  | noRoom
deriving DecidableEq, Repr

/-- The placement of a broadband burst of a shape on a port set and RU range, deferred `k` times before (R175). -/
def bbPlaceOn (s : State) (ports : List Nat) (f l k : Nat) (shape : Nat × Nat × Nat × Nat) (slots : List Nat) (fits : Nat → Bool) : BbPlaced :=
  let (len, n, sym, step) := shape
  let ws := bbWindows s ports f l
  let r := if 2 ≤ k then bbBestIn ws fits slots len n sym step else bbStartIn s ws fits slots len n sym step
  match r with
  | some t => .at t
  | none => if (bbStartIn s [] fits slots len n sym step).isSome then .deferred else .noRoom

end Sys2Proof.Machine
end

