-- ==== Sys2Proof/Machine/Sched.lean ====
section
/-!
DEFINITION. Sys2Proof/Machine/Sched.lean: what the scheduler puts into a plan: beacons, periodic occurrences, the grants that the rules call
for, and the frames of the store (R14, R185–R193, R197–R203, R222–R239, R243–R258, R477).
-/
namespace Sys2Proof.Machine

/-! Beacons (R185–R193, R237). -/

/-- The ports whose turn it is in a superframe: a round, or in OUTAGE the rotation of the outage ports (R185, R187). -/
def turnPorts (s : State) (n : Nat) : List Nat :=
  if inOutage s then
    ((allPorts.filter (outagePort s)).zipIdx.filter (fun e => decide (e.2 / 2 = n % 8))).map (·.1)
  else if n % 4 < 3 then (List.range 16).map (fun i => 3 * i + n % 4) else [48, 49, 50, 51]

/-- The ports that beacon in a superframe: declared, and not the uplink port of a subordinate (R185, R257). -/
def beaconPorts (s : State) (n : Nat) : List Nat := (turnPorts s n).filter (fun p => (port s p).declared && !isUpPort s p)

/-- Whether the module beacons: BEACON_EN, MODE SERVICE at stage 0x0F, and a role that does (R84, R401, BCN_CFG). -/
def mayBeacon (s : State) : Bool :=
  isSet s .bcn BCN_CFG.BEACON_EN && decide (getF s .boot BOOT_STATUS.MODE = 2) && decide (0x0F ≤ getF s .boot BOOT_STATUS.STAGE) &&
    inService s

/-- The first 24 bytes of every beacon of the superframe planned (R190, R191, R347). -/
def beaconHead (s : State) : List Byte :=
  let next := nextShown s
  let t := truNs s (planStart s)
  let depth := if parentActive s then getF s .rpt RPT_STATUS.DEPTH else 0
  let map := if next then pendingNbMap s else planMap s
  let bw := if next then getF s .bcn BCN_CFG.BW else planBw s
  let cper := if next then getF s .bcn BCN_CFG.BB_CPER else planCper s
  [byteOf (0x10 + tq s), byteOf (4 * depth + bitIf next 1 + bitIf (inOutage s) 0)] ++ beBytes 4 (planSfn s) ++
    beBytes 4 (t / 1000000000 % 4294967296).toNat ++ beBytes 4 (t % 1000000000).toNat ++ beBytes 8 (map % 2 ^ 61) ++
    beBytes 2 (bw * 2 ^ 14 + cper * 2 ^ 12)

/-- The bytes a broadband beacon has beside (R192). -/
def beaconTail (s : State) : List Byte :=
  beBytes 4 (if nextShown s then getF s .bcn BCN_RU_MAP.RUS else planRus s) ++ leBytes 216 s.bbw.next.pmask ++
    [byteOf (getBits s.nbw.nextBand 23 16), byteOf (getBits s.bbw.next.profile 23 16), 0, 0]

/-- The tag job of a beacon (R193, R237): the key in force in the superframe planned. -/
def beaconJob (s : State) (p : Nat) (w : Wave) (body : List Byte) : Job :=
  let n := planSfn s
  let (sel, k) : Nat × Option BeaconKey := match s.mac.bnext with
    | some (k, apply) => if sfnDiff apply n < 2 ^ 31 then (SEL.BEACON_NEXT, some k) else (SEL.BEACON, s.mac.bkey)
    | none => (SEL.BEACON, s.mac.bkey)
  let gen := (k.map (·.gen)).getD 0
  let salt := (k.map (·.salt)).getD 0
  { Job.zero with
    op := OP.ENCRYPT, tag16 := decide (w = .bb), explicit := true, sel := sel, hlen := body.length, hdr := body
    nonce := ((0xFFFFF * 16 + 8 + gen) * 2 ^ 40 + (n * 128 + waveCode w * 64 + p)) * 2 ^ 32 + salt }

/-- The header, first and last channel, hop list and samples of a beacon (R163, R188, R189). -/
def beaconForm (s : State) (p : Nat) (w : Wave) : List Byte × Nat × Nat × List Nat × Nat :=
  let a := s.bcn.domain * 64 + p
  match w with
  | .nb => (nbHeaderBytes ⟨1, FT.BEACON, 0, 0, 32, a, planSfn s % 16, 0⟩, 0, 0, List.range (planNsets s), nbSamples (nbSymbols 0 32))
  | .bb =>
    let h : BbHeader := ⟨1, FT.BEACON, 2, 0, 1, 15, 0, 26, 264, a, planSfn s % 256, 0, 0⟩
    (bbHeaderBytes h, 0, 26, [], (bbShape s h []).1)

/-- One beacon planned, or lost when its tag job does not complete OK (R186, R193). -/
def planBeacon (p : Nat) (w : Wave) (s : State) : State :=
  let body := beaconHead s ++ (if w = .bb then beaconTail s else [])
  let (st, tag, _, s1) := runJob 0 (beaconJob s p w body) s
  if st ≠ JST.OK then loseBeacon s1
  else
    let (h, c0, c1, hops, len) := beaconForm s1 p w
    let it : PlanItem := ⟨p, w, c0, c1, 0, len, planSfn s1, .beacon, h, body ++ tag, hops⟩
    { s1 with plan := { s1.plan with items := s1.plan.items ++ [it] } }

/-- The beacons of the superframe planned, narrowband first: the counters of their nonces rise (R185, R187, R332). -/
def planBeacons (s : State) : State :=
  if !mayBeacon s then s
  else
    let ps := beaconPorts s (planSfn s)
    let nb := if planNsets s = 0 then [] else ps.filter (fun p => (port s p).nbEn)
    let bb := if inOutage s || !maskValid s.bbw.next.pmask then [] else ps.filter (fun p => (port s p).bbEn)
    bb.foldl (fun t p => planBeacon p .bb t) (nb.foldl (fun t p => planBeacon p .nb t) s)

/-! Grant occurrences (R157, R184, R197–R200). -/

/-- A superframe in which an endpoint listens (R233). -/
def listens (c : Ctx) (n : Nat) : Bool :=
  let per := c.listen / 256
  !c.sleep || decide (per = 0) || decide (sfnDiff c.anchor n % per = c.listen % 256)

/-- A grant element (R198): context index, KIND, first superframe, start in it, period, LEN_MAX and the waveform's three bytes. -/
def grantElem (a kind k start period len w0 w1 w2 : Nat) : List Byte :=
  beBytes 3 (a * 16 + kind) ++ beBytes 2 (k % 65536) ++ beBytes 3 (start / 204800 * 2 ^ 14 + start % 204800 / 256 * 2 ^ 4) ++
    beBytes 2 period ++ beBytes 2 len ++ [byteOf w0, byteOf w1, byteOf w2, 0]

/-- What a grant asks for: the association or reserved slot, its group, waveform, LEN_MAX, period, whether its endpoint's frames are floods and
of how many hops, and the event counter base. -/
structure GrantAsk where
  addr : Nat
  group : Nat
  wave : Wave
  len : Nat
  period : Nat
  hops : Nat
  anchor : Nat
deriving DecidableEq, Repr

/-- The receiving ports of a group (R175). -/
def upPorts (s : State) (g : Nat) (w : Wave) : List Nat := (groupPorts g).filter (receives s w)

/-- A narrowband occurrence at a start slot and tone set of a superframe. -/
def nbOcc (q : GrantAsk) (k start set : Nat) : Occ := ⟨q.addr, .nb, q.group, k, start, nbSamples (nbSymbols 0 q.len), set, set⟩

/-- The flood cells that the hops of an uplink flood reserve (R244, R250). -/
def upFloodCells (s : State) (q : GrantAsk) (k start set : Nat) : List TxOcc :=
  let n := nbSymbols 0 q.len
  floodCells s (startSlotNo k (start / 204800)) (floodSpace (nbSamples n)) q.hops n set (grantHops s k)

/-- A narrowband grant placed in a superframe after a sample of it: the occurrence, its element, and the cells its flood reserves. REP is ×1
(DESIGN CHOICE, log 24). -/
def placeNbGrant (s : State) (q : GrantAsk) (k after : Nat) : Option (Occ × List Byte × List TxOcc) :=
  let hops := grantHops s k
  let starts := (nbStartSlots.map (· * 204800)).filter (fun t => decide (after ≤ t))
  let pairs := (starts.flatMap (fun t => hops.map (fun h => (t, h)))).filter (fun e =>
    grantFits s (nbOcc q k e.1 e.2) && cellsFree s (upFloodCells s q k e.1 e.2))
  match nbPlace s (upPorts s q.group .nb) s.nbw.nextBand hops (nbSymbols 0 q.len) pairs with
  | none => none
  | some (t, h) =>
    let m := hops.length
    let seed := ((hops.idxOf? h).getD 0 + m - sfnDiff q.anchor k % m) % m
    some (nbOcc q k t h, grantElem q.addr (if q.period = 0 then 1 else 2) k t q.period q.len (4 * seed) 0 0, upFloodCells s q k t h)

/-- The header form of an uplink burst that is granted: the map in use, or TMID 0, RATE 1/2, GI 1,024 and PI 8; a routed endpoint or a relay
keeps to GI 1,024 and TMID 0 (R153, R157, R255). -/
def upForm (s : State) (a f l len : Nat) : BbHeader × List Byte :=
  let r := relay s a
  let plain : BbHeader × List Byte := (⟨1, FT.DATA, 2, 0, 1, 0, f, l, len, a, 0, 0, 0⟩, [])
  if r.routed ∨ 4 ≤ r.roles then plain
  else match (linkMap s a false 0).bind (·.cur) with
    | none => plain
    | some m => (⟨1, FT.DATA, m.gi, m.rate, m.pi, m.tmid, f, l, len, a, 0, 0, 0⟩, m.codes)

/-- A broadband grant placed in a superframe after a sample of it, deferred `d` times before (R157, R175). -/
def placeBbGrant (s : State) (q : GrantAsk) (k after d : Nat) : Option (BbPlaced × Occ × List Byte) :=
  (ruRun s).map (fun r =>
    let (h, codes) := upForm s q.addr r.1 r.2 q.len
    let shape := bbShape s h codes
    let occ (t : Nat) : Occ := ⟨q.addr, .bb, q.group, k, t, shape.1, r.1, r.2⟩
    let p := bbPlaceOn s (upPorts s q.group .bb) r.1 r.2 d shape (scheduledSlots s) (fun t =>
      decide (after ≤ t) && grantFits s (occ t) && (decide (t % 204800 = 0) || !(decide (4 ≤ (relay s q.addr).roles) || (relay s q.addr).routed)))
    let t := match p with | .at t => t | _ => 0
    (p, occ t, grantElem q.addr 3 k t 0 q.len (8 * r.1 + r.2 / 4) (r.2 % 4 * 64 + h.gi * 16 + h.rate * 4 + h.pi) (16 * h.tmid)))

/-- A grant placed: its element or none, whether the calendar defers it, and the plan holding its occurrence (R175). -/
def placeGrant (q : GrantAsk) (k after d : Nat) (s : State) : Option (List Byte) × Bool × State :=
  match q.wave with
  | .nb => match placeNbGrant s q k after with
    | none => (none, false, s)
    | some (o, e, cs) => (some e, false, { s with plan := { s.plan with grants := s.plan.grants ++ [o], cells := s.plan.cells ++ cs } })
  | .bb => match placeBbGrant s q k after d with
    | some (.at _, o, e) => (some e, false, { s with plan := { s.plan with grants := s.plan.grants ++ [o] } })
    | some (.deferred, _, _) => (none, true, s)
    | _ => (none, false, s)

/-- The occurrence of a periodic grant element of an association in a superframe (R198, R200). -/
def periodicOcc (s : State) (i : Nat) (c : Ctx) (k : Nat) : Option Occ :=
  let g := c.pgrant
  let per := beAt g 8 2
  let since := (k + 65536 - beAt g 3 2) % 65536
  let hops := grantHops s k
  let m := hops.length
  if beAt g 0 3 % 16 ≠ 2 ∨ per = 0 ∨ since % per ≠ 0 ∨ m = 0 then none
  else
    let set := hops.getD ((beAt g 12 1 / 4 + sfnDiff c.anchor k) % m) 0
    some ⟨i, .nb, groupOf c.portHome, k, beAt g 5 3 / 2 ^ 14 * 204800, nbSamples (nbSymbols (beAt g 12 1 % 4) (beAt g 10 2)), set, set⟩

/-- The periodic occurrences of the superframe planned (R184, R198); they end with the association. -/
def planPeriodic (s : State) : State :=
  let l := s.mac.table.filterMap (fun e => if isLive e.2.c.state then periodicOcc s e.1 e.2.c (planSfn s) else none)
  { s with plan := { s.plan with grants := s.plan.grants ++ l } }

/-! The grants that the rules call for (R222, R224, R232, R258). -/

/-- Whether an association holds an occurrence in the next two superframes, that planned and the one after. -/
def hasOcc (s : State) (i : Nat) (c : Ctx) : Bool :=
  s.plan.grants.any (fun o => decide (o.addr = i) && decide (sfnDiff (sfn s) o.sfn ≤ 2)) ||
    (periodicOcc s i c ((planSfn s + 1) % 2 ^ 32)).isSome

/-- Whether frames sent to an association wait for its acknowledgement. -/
def owesAck (s : State) (i : Nat) : Bool :=
  s.mac.frames.any (fun f => decide (f.index = i) && (decide (f.stage = .waitAck) || decide (f.stage = .line)) && f.prot)

/-- LEN_MAX of a grant for the bytes an endpoint has waiting. -/
def queueLen (narrow : Bool) (q : Nat) : Nat := min (q + 11 + tagLen narrow) (if narrow then 256 else 32768)

/-- The LEN_MAX of the grant that an association needs in this plan, and the period of a periodic one: a subordinate's occurrence, waiting bytes,
a keep-alive, an acknowledgement (R222, R224, R232, R258). -/
def grantNeed (s : State) (i : Nat) (a : Assoc) : Option (Nat × Nat) :=
  let c := a.c
  let quiet := decide ((c.sup + 1) / 2 ≤ sfnDiff c.lastRx (sfn s))
  if !isLive c.state || c.session || a.lane.isSome then none
  else if c.subord && decide (48 ≤ c.portHome) && c.bb then some (max 2048 (queueLen false a.queue), 0)
  else if c.subord && decide (48 ≤ c.portHome) && c.pgrant.all (· = 0) then some (256, 1)
  else if a.queue ≠ 0 then some (queueLen (!c.bb) a.queue, 0)
  else if hasOcc s i c then none
  else if owesAck s i then some (0, 0)
  else if quiet then some (16, 0)
  else none

/-- Whether a GRANT frame for an association is already in the store, or one of its frames may not be sent. -/
def grantPending (s : State) (i : Nat) : Bool := s.mac.frames.any (fun f => decide (f.index = i) && decide (f.kind = .grant))

/-- A frame that carries a grant put up for an association (R198, R221); `waits` keeps the period until the grant is placed. -/
def askGrant (i len period : Nat) (narrow : Option Bool) (s : State) : State :=
  if grantPending s i then s
  else addFrame { Frame.blank with
    kind := .grant, index := i, grantLen := some len, seq := period, due := sfn s
    wopt := match narrow with | none => 0 | some true => 1 | some false => 2 } s

/-- The grants the rules call for, and those the scheduler's policy wishes, put up. -/
def askGrants (wishes : List GrantWish) (s : State) : State :=
  let s1 := s.mac.table.foldl (fun t e => match grantNeed s e.1 e.2 with
    | none => t
    | some (len, per) => askGrant e.1 len per none t) s
  wishes.foldl (fun t w =>
    let a := assoc t w.index.toNat
    if a.c.state = CST.ACTIVE ∧ !a.c.session ∧ a.lane.isNone then askGrant w.index.toNat w.lenMax.toNat w.period.toNat (some w.narrow) t else t) s1

/-! The length and place of a frame (R118, R127, R142, R218, R224). -/

/-- The bytes of a frame's plaintext. -/
def bodyLen (s : State) (f : Frame) : Nat :=
  match f.kind, (assoc s f.index).rekey with
  | .rekey, some r => (rekeyElem r 0).length
  | .grant, _ => 19
  | _, _ => f.body.length

/-- LEN of a frame, its layers for relays apart. -/
def lineLen (s : State) (f : Frame) : Nat :=
  if f.payload ≠ [] ∧ !(decide (f.kind = .accept) && f.inner) then (if f.flood then 4 else 0) + f.payload.length
  else match f.kind with
    | .offer => 29
    | .accept => if f.wave = .nb then 68 else 76
    | _ => if f.prot then unitLen f.flood f.wave (bodyLen s f) else 0

/-- The relays on the path of a broadband endpoint, from the endpoint outwards (R251, R253); `fuel` bounds them. -/
def relayPath (s : State) : Nat → Nat → List Nat
  | 0, _ => []
  | fuel + 1, x =>
    let r := relay s x
    if r.routed && r.valid && isSet s .rpt RPT_CFG.BB_RELAY_EN then r.next :: relayPath s fuel r.next else []

/-- The relays that a frame passes: none in narrowband, or where no route is set or learned. -/
def framePath (s : State) (f : Frame) : List Nat :=
  if f.wave = .bb ∧ f.via = none ∧ f.kind ≠ .defer then relayPath s 63 f.index else []

/-- LEN of what is sent for a frame, with one layer for each relay (R253). -/
def outerLen (s : State) (f : Frame) : Nat := lineLen s f + 36 * (framePath s f).length

/-- The address in a frame's header: TAG for an offer, else what the frame is addressed to. -/
def frameAddr (s : State) (f : Frame) : Nat :=
  match f.kind with
  | .offer => ((assoc s f.index).join.map (·.tag)).getD 0
  | _ => f.index

/-- The port a frame is sent on: the one it names while that is usable, else the best phase of its group (R14). -/
def framePort (s : State) (f : Frame) : Option Nat :=
  let a := ((framePath s f).getLast?).getD f.index
  let c := ctx s a
  let home := f.port.getD c.portHome
  match f.port with
  | some p => if portUsable s f.wave p then some p else bestPort (groupOf home) c.quality (portUsable s f.wave)
  | none => bestPort (groupOf home) c.quality (portUsable s f.wave)

/-- Whether a frame uses SYNC-P (R223). -/
def syncP (f : Frame) : Bool := decide (f.kind = .offer) || decide (f.kind = .defer) || decide (f.kind = .reject)

/-- A narrowband frame as planned at a start and tone set, without its bytes. -/
def nbItem (s : State) (f : Frame) (p n start set : Nat) : PlanItem :=
  ⟨p, .nb, set, set, start, nbSamples n, planSfn s, .downlink f.id, [], [], hopList s.nbw.nextBand (planMap s) (syncP f)⟩

/-- HMAX of a downlink flood (R244). -/
def downHmax (s : State) (i : Nat) : Nat := min ((relay s i).nbHops + 1) 63

/-- The cells that the hops of a downlink flood reserve. -/
def downFloodCells (s : State) (f : Frame) (n start set : Nat) : List TxOcc :=
  if f.flood then
    floodCells s (startSlotNo (planSfn s) (start / 204800)) (floodSpace (nbSamples n)) (downHmax s f.index) n set
      (hopList s.nbw.nextBand (planMap s) false)
  else []

/-- The place a narrowband frame takes (R176, R203, R250). -/
def placeNbFrame (s : State) (f : Frame) (p : Nat) : Option (PlanItem × List TxOcc) :=
  let n := nbSymbols 0 (lineLen s f)
  let hops := hopList s.nbw.nextBand (planMap s) (syncP f)
  let sets := match f.ch with
    | some c => if syncP f then hops.filter (· = c.1) else hops
    | none => hops
  let pairs := ((nbStartSlots.map (· * 204800)).flatMap (fun t => sets.map (fun h => (t, h)))).filter (fun e =>
    itemFits s (nbItem s f p n e.1 e.2) && cellsFree s (downFloodCells s f n e.1 e.2))
  (nbPlace s [p] s.nbw.nextBand hops n pairs).map (fun e => (nbItem s f p n e.1 e.2, downFloodCells s f n e.1 e.2))

/-- The header form of a broadband frame: the acknowledged map of the link on its port, else TMID 0, RATE 1/2, GI 1,024 and PI 8; join messages
keep to the solicit's RU range and TMID 0 (R153, R224). -/
def downForm (s : State) (f : Frame) (p : Nat) (r : Nat × Nat) : BbHeader × List Byte :=
  let a := ((framePath s f).getLast?).getD f.index
  let ty := if framePath s f = [] then f.ftype else FT.DATA
  let plain : BbHeader × List Byte := (⟨1, ty, 2, 0, 1, 0, r.1, r.2, outerLen s f, 0, 0, 0, 0⟩, [])
  if ty = FT.ASSOC then plain
  else match downMap s a p with
    | none => plain
    | some m => (⟨1, ty, m.gi, m.rate, m.pi, m.tmid, r.1, r.2, outerLen s f, 0, 0, 0, 0⟩, m.codes)

/-- The place a broadband frame takes (R175, R203); join messages start at a slot start (R224). -/
def placeBbFrame (s : State) (f : Frame) (p : Nat) : Option (BbPlaced × PlanItem × BbHeader) :=
  (match f.ch with | some c => if f.ftype = FT.ASSOC then some c else ruRun s | none => ruRun s).map (fun r =>
    let (h, codes) := downForm s f p r
    let shape := bbShape s h codes
    let it (t : Nat) : PlanItem := ⟨p, .bb, r.1, r.2, t, shape.1, planSfn s, .downlink f.id, [], [], []⟩
    let pl := bbPlaceOn s [p] r.1 r.2 f.defers shape (scheduledSlots s) (fun t =>
      (decide (f.ftype ≠ FT.ASSOC) || decide (t % 204800 = 0)) && itemFits s (it t))
    (pl, it (match pl with | .at t => t | _ => 0), h))

/-! The bytes of a frame (R218–R229, R243, R253). -/

/-- The time after a frame's last sample before which no grant it carries may start: the decoding time that R244 allows. DESIGN CHOICE (log
24). -/
def decodeMargin : Nat := 5209600

/-- The grant that a join message carries: for the JOIN_REQ an offer asks for, or for the confirmation of an accepted join (R226, R229). -/
def joinAsk (s : State) (f : Frame) (len : Nat) : GrantAsk :=
  let a := assoc s f.index
  let g := (a.join.map (·.group)).getD 0
  ⟨f.index, g, f.wave, len, 0, 0, if f.kind = .offer then planSfn s else a.c.anchor⟩

/-- The plaintext of JOIN_ACCEPT from byte 13 on (R229, R231). -/
def acceptParams (s : State) (c : Ctx) (grant : List Byte) : List Byte :=
  let k := s.mac.bkey.getD ⟨List.replicate 16 0, 0, 0, none⟩
  [byteOf k.gen] ++ k.key ++ beBytes 4 k.salt ++ beBytes 2 c.sup ++ beBytes 2 (getF s .bcn BCN_DWELL_CONT.T_CONT) ++
    beBytes 2 (getF s .bcn BCN_DWELL_OCC.OCC) ++ beBytes 2 (getF s .bcn BCN_DWELL_OCC.WINDOW) ++ [byteOf c.portHome, 0] ++ padTo 16 grant

/-- The job that protects JOIN_ACCEPT (R229). -/
def joinAcceptJob (i : Nat) (j : JoinSt) (narrow : Bool) (plain : List Byte) : Job :=
  { Job.zero with
    op := OP.ENCRYPT, tag16 := !narrow, explicit := true, sel := SEL.JOIN, index := i, nonce := j.nM * 2 ^ 48 + j.nE, hlen := 11
    plen := plain.length, hdr := beBytes 3 i ++ beBytes 8 j.epId, payload := plain }

/-- JOIN_ACCEPT of a join of the module's own (R229): a domain without a session of a tree names none. -/
def sealAccept (f : Frame) (grant : List Byte) (s : State) : Nat × Frame × State :=
  let a := assoc s f.index
  match a.join with
  | none => (JST.FAULT, f, s)
  | some j =>
    let plain := [byteOf (keyInfo a.c)] ++ beBytes 4 a.c.salt ++ List.replicate 8 0 ++ acceptParams s a.c grant
    let (st, out, _, s1) := runJob (f.index % 16) (joinAcceptJob f.index j (decide (f.wave = .nb)) plain) s
    (st, { f with payload := out }, s1)

/-- The bytes of a frame's payload, its counter and FSEQ taken where it is not protected yet. -/
def sealBytes (f : Frame) (grant : List Byte) (s : State) : Nat × Frame × State :=
  if f.payload ≠ [] then (JST.OK, f, s)
  else match f.kind with
    | .offer =>
      let j := (assoc s f.index).join
      (JST.OK, { f with payload := beBytes 3 f.index ++ beBytes 6 ((j.map (·.nM)).getD 0) ++ beBytes 4 (planSfn s) ++ padTo 16 grant }, s)
    | .accept => sealAccept f grant s
    | .grant => sealFrame { f with body := element EL.GRANT grant } s
    | _ => sealFrame f s

/-- A frame wrapped in one layer for each relay of a path, from the endpoint outwards: address, FTYPE, FSEQ and payload of what is sent (R253). -/
def wrapRelays : List Nat → Nat → Nat → Nat → List Byte → State → Nat × (Nat × Nat × Nat × List Byte) × State
  | [], a, ty, q, p, s => (JST.OK, (a, ty, q, p), s)
  | r :: rest, a, ty, q, p, s =>
    let el := relayElem 0x01 0 a ([byteOf ty, byteOf q] ++ beBytes 2 p.length ++ p)
    let (q2, s1) := nextFseq r .bb s
    let (st, unit, s2) := sealUnit (unitJob (ctx s1 r) r FT.DATA .bb false false false q2 el) s1
    let s3 := setAssoc r { assoc s2 r with queue := max (assoc s2 r).queue 1 } s2
    if st = JST.OK then wrapRelays rest r FT.DATA q2 unit s3 else (st, (a, ty, q, p), s3)

/-- The flood header of a downlink flood (R243). -/
def floodHeader (s : State) (f : Frame) (it : PlanItem) : List Byte :=
  if f.flood then
    [byteOf (downHmax s f.index), byteOf (planSfn s % 256)] ++ beBytes 2 (it.start / 204800 * 64 + floodSpace it.length)
  else []

/-- A planned frame put into the plan with its header and bytes; `h` is the form of a broadband header. -/
def putItem (f : Frame) (it : PlanItem) (h : Option BbHeader) (cells : List TxOcc) (s : State) : Nat × State :=
  let (st, (a, ty, q, p), s1) := wrapRelays (framePath s f) (frameAddr s f) f.ftype f.fseq f.payload s
  if st ≠ JST.OK then (st, s1)
  else
    let bytes := floodHeader s1 f it ++ p
    let (hd, s2) : List Byte × State := match h with
      | none => (nbHeaderBytes ⟨1, if f.flood then FT.FLOOD else ty, 0, 0, bytes.length, a, q % 16, 0⟩, s1)
      | some b =>
        let (tadj, t) := takeTadj a s1
        (bbHeaderBytes { b with addr := a, fseq := q, tadj := tadj }, t)
    let x : PlanItem := { it with header := hd, payload := bytes }
    (JST.OK, { s2 with plan := { s2.plan with items := s2.plan.items ++ [x], cells := s2.plan.cells ++ cells } })

/-! Planning the frames of the store. -/

/-- The grant a frame carries, if it carries one. -/
def frameAsk (s : State) (f : Frame) : Option GrantAsk :=
  let narrow := decide (f.wave = .nb)
  match f.kind with
  | .offer => some (joinAsk s f (if narrow then 29 else 37))
  | .accept => if f.payload = [] then some (joinAsk s f (if narrow then 16 else 24)) else none
  | .grant =>
    let c := ctx s f.index
    let w := if f.seq ≠ 0 then Wave.nb else chooseWave s c f.wopt
    let fl := decide (w = .nb) && decide (1 < (relay s f.index).bdepth)
    some ⟨f.index, groupOf c.portHome, w, f.grantLen.getD 0 + (if fl then 4 else 0), f.seq,
      if fl then (relay s f.index).bdepth else 0, c.anchor⟩
  | _ => none

/-- What the planning of a frame leaves in the association: the anchor and expiry of an offer, the periodic grant, the bytes granted, the last
map's FSEQ (R153, R198, R199, R226, R235). -/
def notePlanned (f : Frame) (p : Nat) (grant : List Byte) (s : State) : State :=
  let a := assoc s f.index
  match f.kind with
  | .offer => setAssoc f.index { a with
      c := { a.c with anchor := planSfn s }
      join := a.join.map (fun j => { j with offered := true, until_ := (planSfn s + 4 * (framePath s f).length + 9) % 2 ^ 32 }) } s
  | .grant =>
    let c := if f.seq ≠ 0 then { a.c with pgrant := grant } else a.c
    setAssoc f.index { a with c := { c with portDl := p }, queue := if f.seq ≠ 0 then a.queue else a.queue - min a.queue (f.grantLen.getD 0) } s
  | .rekey => rekeySent f.index (setAssoc f.index { a with c := { a.c with portDl := p } } s)
  | .tmap =>
    let s1 := setAssoc f.index { a with c := { a.c with portDl := p } } s
    match linkMap s1 f.index false 0 with
    | some e => putMap { e with fresh := e.fresh.map (fun m => (m.1, f.fseq)) } s1
    | none => s1
  | .defer => s
  | .reject => s
  | .accept => s
  | _ => if a.c.state = CST.FREE then s else setAssoc f.index { a with c := { a.c with portDl := p } } s

/-- A frame refused by its cipher job: it waits for a counter block, or leaves the store (R236, R333, R382). -/
def planFailed (f : Frame) (st : Nat) (s : State) : State :=
  if st = JST.NO_RESERVE then s else jobRefused f.index st (finishFrame f DST.CIPHER s)

/-- A frame that no placement fits in this plan: after 4 of them it is not sent (R203); a join message lapses with its own bound (R224). -/
def notPlaced (f : Frame) (deferred : Bool) (s : State) : State :=
  let g := { f with waits := f.waits + 1, defers := if deferred then f.defers + 1 else f.defers }
  if f.ftype = FT.ASSOC ∨ g.waits < 4 then setFrame g (if deferred then deferBurst s else s)
  else raise .bcn BCN_INT.PLACE_REFUSED (count .bcn BCN_PLACE_REFUSED_CNT.COUNT (finishFrame g DST.DWELL s))

/-- A frame with its place and grant protected and put into the plan. -/
def enterPlan (f : Frame) (it : PlanItem) (h : Option BbHeader) (cells : List TxOcc) (grant : List Byte) (old s : State) : State :=
  let (st, f1, s2) := sealBytes f grant s
  if st ≠ JST.OK then planFailed f st { s2 with plan := old.plan }
  else
    let (st2, s3) := putItem f1 it h cells s2
    if st2 ≠ JST.OK then planFailed f1 st2 { s3 with plan := old.plan }
    else
      let s4 := if f1.sf2 && decide (f1.sends = 0) then count .saf SAF_SF2_OK_CNT.COUNT s3 else s3
      notePlanned f1 it.port grant (setFrame { f1 with
        stage := .planned, waits := 0, defers := 0, port := if f.port.isSome then some it.port else none } s4)

/-- A frame whose place has been found: the grant it carries is placed after it, its bytes are protected, and it enters the plan. Where the
grant finds no place the frame finds none. A frame that passes relays names a superframe 4 later for each of them. DESIGN CHOICE (log 25). -/
def commitFrame (f : Frame) (it : PlanItem) (h : Option BbHeader) (cells : List TxOcc) (s : State) : State :=
  match frameAsk s f with
  | none => enterPlan f it h cells [] s s
  | some q =>
    let held := { s with plan := { s.plan with items := s.plan.items ++ [it], cells := s.plan.cells ++ cells } }
    let k := (framePath s f).length
    match placeGrant q ((planSfn s + 4 * k) % 2 ^ 32) (if k = 0 then it.start + it.length + decodeMargin else 0) f.defers held with
    | (none, deferred, _) => notPlaced f deferred s
    | (some g, _, t) =>
      enterPlan f it h cells g s { t with plan := { t.plan with
        items := s.plan.items, cells := t.plan.cells.filter (fun c => !cells.contains c) } }

/-- A frame placed in this plan if it can be. -/
def planOne (f : Frame) (s : State) : State :=
  match framePort s f with
  | none => notPlaced f false s
  | some p =>
    match f.wave with
    | .nb => match placeNbFrame s f p with
      | none => notPlaced f false s
      | some (it, cs) => commitFrame f it none cs s
    | .bb => match placeBbFrame s f p with
      | some (.at _, it, h) => commitFrame f it (some h) [] s
      | some (.deferred, _, _) => notPlaced f true s
      | _ => notPlaced f false s

/-- The waveform and flooding of one of the module's own protected frames, settled when it is first planned (R250). -/
def settleWave (s : State) (f : Frame) : Frame :=
  if f.prot && decide (f.payload = []) && decide (f.kind ≠ .host) && decide (f.kind ≠ .tmap) then
    let w := chooseWave s (ctx s f.index) (if f.kind = .grant then 0 else f.wopt)
    { f with wave := w, flood := decide (w = .nb) && goesFlood s f.index }
  else f

/-- Whether a frame is ready for a plan: protected, or one of the module's own. -/
def plannable (f : Frame) : Bool :=
  decide (f.stage = .ready) || (decide (f.stage = .queued) && decide (f.kind ≠ .host) && !(decide (f.kind = .accept) && f.inner))

/-- The bound within which a join message is sent: 4 superframes for an answer to a solicit, 8 for one to a JOIN_REQ (R224). -/
def joinBound (f : Frame) : Nat := if f.kind = .accept ∨ (f.kind = .reject) then 8 else 4

/-- One frame of the store considered for the plan. -/
def planFrame (id : Nat) (s : State) : State :=
  match frameOf s id with
  | none => s
  | some f0 =>
    let f := settleWave s f0
    let n := planSfn s
    let c := ctx s f.index
    let assocMsg := decide (f.ftype = FT.ASSOC)
    if !plannable f || f.via.isSome || f.port.elim false (isUpPort s) || (!assocMsg && (assoc s f.index).lane.isSome) then s
    else if assocMsg && decide (joinBound f < sfnDiff f.takenAt n) && decide (f.payload = [] ∨ f.kind ≠ .accept) then dropFrame f.id s
    else if f.sf2 && decide (f.sends = 0) && decide (f.maxAge < sfnDiff f.takenAt n) then sf2Discard f 4 s
    else if c.session && f.prot then
      (let (st, unit, s1) := sealUnit (unitJob c f.index FT.DATA f.wave false true false 0 f.body) s
       if st = JST.OK then frameReady f unit s1 else planFailed f st s1)
    else if f.wave = .nb ∧ 256 < lineLen s f then finishFrame f DST.TOO_LONG s
    else if !assocMsg && !listens c n then s
    else if f.wave = .bb ∧ inOutage s then notPlaced f false s
    else planOne f s

/-- Whether an earlier frame of the store to the same index still waits to be placed. -/
def behind (s : State) (id : Nat) : Bool :=
  match frameOf s id with
  | none => true
  | some f => s.mac.frames.any (fun g => decide (g.id < id) && decide (g.index = f.index) && decide (g.ftype = f.ftype) && plannable g &&
      decide (g.waits ≠ 0))

/-- Every frame of the store considered in the order of the store; frames to one index keep it. -/
def planFrames (s : State) : State :=
  (s.mac.frames.map (·.id)).foldl (fun t id => if behind t id then t else planFrame id t) s

/-! Forwarded joins (R231, R252, R262). -/

/-- The superframe of the confirmation grant of a forwarded join: the last in which its slot may still wait. DESIGN CHOICE (log 25): the grant is
named before the plan of that superframe, since ACCEPT_PARAMS travels to the root and back. -/
def forwardSfn (s : State) : Nat := (planSfn s + 8 + 4 * getF s .rpt RPT_STATUS.DEPTH) % 2 ^ 32

/-- A forwarded JOIN_REQ sent to the parent as JOIN_UP, with ACCEPT_PARAMS and the grant for the confirmation; it waits for a plan that has
room for the grant. -/
def planJoinUp (f : Frame) (s : State) : State :=
  let a := assoc s f.index
  match a.join with
  | none => dropFrame f.id s
  | some j =>
    let narrow := decide (f.wave = .nb)
    let up (g : List Byte) (t : State) : State :=
      let c := { a.c with sup := getF t .asc ASC_CFG.SUP_DEFAULT }
      toParent (relayElem 0x12 0 f.index ([byteOf (if narrow then 0 else 1)] ++ beBytes 6 j.nM ++ acceptParams t c g ++ f.payload)) (dropFrame f.id t)
    if !parentActive s then dropFrame f.id s
    else if f.via.isSome then up [] s
    else match placeGrant (joinAsk s f (if narrow then 16 else 24)) (forwardSfn s) 0 0 s with
      | (some g, _, t) => up g t
      | _ => s

/-- Every forwarded join that waits is sent up. -/
def planJoinUps (s : State) : State :=
  (s.mac.frames.filter (fun f => decide (f.kind = .accept) && f.inner)).foldl (fun t f => planJoinUp f t) s

/-! Keeping the plan. -/

/-- What no later plan needs is forgotten: occurrences beyond the dwell window, flood cells that are over (R203). -/
def prunePlan (s : State) : State :=
  let keep := windowSlots s.bcn.occ / 1024 + 3
  let gs := s.plan.grants.filter (fun o => let d := sfnDiff o.sfn (sfn s); decide (2 ^ 31 ≤ d) || decide (d ≤ keep))
  { s with plan := { s.plan with grants := gs, cells := s.plan.cells.filter (fun c => decide (s.time.sfStart ≤ c.hi)) } }

end Sys2Proof.Machine
end

