-- ==== Sys2Proof/Machine/Mgt.lean ====
section
/-!
DEFINITION. Sys2Proof/Machine/Mgt.lean: the event log on flash and firmware campaigns (spec/22_management_and_dual_control.md, MGT page).
-/
namespace Sys2Proof.Machine

/-- LOG_FLUSH: the buffer's records are written to the LOG region (R434, R435). -/
def logFlush (s : State) : State :=
  match s.log.buf.getLast? with
  | none => s
  | some r =>
    let s1 := setF .mgt MGT_LOG_FLUSHED.VALUE r.seq (flushLog s)
    if s.log.buf.any (fun e => decide (2 ^ 28 ≤ e.seq)) then setB .mgt MGT_STATUS.LOG_WRAPPED true s1 else s1

/-- LOG_FLUSH (R434). -/
def execLogFlush (s : State) : Host.Outcome State Fault Refusal := .next (logFlush s)

/-- LOG_MARK: a HOST_MARK record with the arguments (R433, R451). -/
def runLogMark (o : Outstanding) (s : State) : State := done .mgt CODE.OK (logEvent 0x0684 0 [o.a0.toNat, o.a1.toNat, o.a2.toNat] s)

/-- LOG_MARK, MGT command 0x0006 (R451). -/
def execLogMark (src : CmdSrc) (s : State) : Host.Outcome State Fault Refusal := .next (issue .mgt 0x0006 src runLogMark s)

/-! Campaigns (R438–R440, R450). -/

/-- The campaign, as changed. -/
def setCampaign (c : Option Campaign) (s : State) : State := { s with mgt := { s.mgt with campaign := c } }

/-- A CAMPAIGN record: 0 start, 1 pass ended, 2 ended, 3 stopped; image, group, pass (R433). -/
def logCampaign (kind : Nat) (s : State) : State :=
  logEvent 0x0689 0 [kind, getF s .mgt MGT_CAMP.IMAGE, getF s .mgt MGT_CAMP.GROUP, getF s .mgt MGT_CAMP_PASS.DONE] s

/-- The number of the last block of an image of a size (R439). -/
def lastBlock (size : Nat) : Nat := ceilDiv size 224 - 1

/-- The ports of a campaign. -/
def campaignPorts (c : Campaign) : List Nat := allPorts.filter c.ports.testBit

/-- The campaign over: ended or stopped (R440, R451). -/
def endCampaign (kind : Nat) (s : State) : State :=
  let s1 := logCampaign kind s
  raise .mgt MGT_INT.CAMPAIGN_END
    (setB .mgt MGT_STATUS.CAMPAIGN false (setB .mgt MGT_CAMP.ACTIVE false (setB .mgt MGT_CAMP.PAUSED false (setCampaign none s1))))

/-- CAMPAIGN_START: BAD_ARG where an argument is out of its range, the image slot is empty or the ports are not 1 to 16 declared ports with NB_EN;
REFUSED while a campaign runs; else it stays outstanding until block 0 is placed (R440, R451). -/
def runCampaignStart (o : Outstanding) (s : State) : State :=
  let i := getBits o.a0 7 0
  let ports := o.a1.toNat + getBits o.a2 19 0 * 2 ^ 32
  let l := allPorts.filter ports.testBit
  let h := imageHeader s (4 + i)
  if 3 ≤ getBits o.a0 13 12 ∨ getBits o.a0 18 16 = 0 ∨ 4 < getBits o.a0 18 16 ∨ getBits o.a0 31 24 = 0 ∨ imageEmpty s (4 + i) = true
      ∨ l = [] ∨ 16 < l.length ∨ l.any (fun p => !((port s p).declared && (port s p).nbEn)) = true then done .mgt CODE.BAD_ARG s
  else if isSet s .mgt MGT_CAMP.ACTIVE then done .mgt CODE.REFUSED s
  else
    let c : Campaign := ⟨slice h 0x20 4, 128 + imageLength h, getBits o.a0 13 12, getBits o.a0 18 16, ports, 0, 0⟩
    let s1 := setF .mgt MGT_CAMP.GROUP (getBits o.a0 11 8) (setF .mgt MGT_CAMP.IMAGE i (setF .mgt MGT_CAMP.BLOCK 0 (setCampaign (some c) s)))
    let s2 := setF .mgt MGT_CAMP_PASS.DONE 0 (setF .mgt MGT_CAMP_PASS.PASSES (getBits o.a0 31 24) s1)
    logCampaign 0 (setB .mgt MGT_STATUS.CAMPAIGN true (setB .mgt MGT_CAMP.ACTIVE true s2))

/-- CAMPAIGN_START, MGT command 0x0004 (R451). -/
def execCampaignStart (src : CmdSrc) (s : State) : Host.Outcome State Fault Refusal := .next (issue .mgt 0x0004 src runCampaignStart s)

/-- CAMPAIGN_STOP (R451). -/
def runCampaignStop (_ : Outstanding) (s : State) : State :=
  if isSet s .mgt MGT_CAMP.ACTIVE then endCampaign 3 (done .mgt CODE.OK s) else done .mgt CODE.REFUSED s

/-- CAMPAIGN_STOP, MGT command 0x0005 (R451). -/
def execCampaignStop (src : CmdSrc) (s : State) : Host.Outcome State Fault Refusal := .next (issue .mgt 0x0005 src runCampaignStop s)

/-- The plaintext of block `k` (R439). -/
def blockPlain (s : State) (c : Campaign) (k : Nat) : List Byte :=
  c.tag ++ beBytes 2 k ++ beBytes 2 (lastBlock c.size) ++
    imageBytes s (4 + getF s .mgt MGT_CAMP.IMAGE) (224 * k) (min 224 (c.size - 224 * k))

/-- The job that protects a block: its key is the beacon key in force, its nonce the group's (R438). -/
def blockJob (s : State) (c : Campaign) (plain : List Byte) : Job :=
  let g := getF s .mgt MGT_CAMP.GROUP
  let gen := (s.mac.bkey.map (·.gen)).getD 0
  { Job.zero with
    op := OP.ENCRYPT, dir := 1, sel := SEL.GROUP, kgen := gen, param := g * 16, hlen := 12, plen := plain.length
    hdr := unitAad FT.FLOOD 0 (0xFFFE0 + g) c.fseq (20 + plain.length) plain.length gen 0, payload := plain }

/-- Hop 0 of a block on a port at a start and tone set, without its bytes. -/
def blockItem (s : State) (k n start set p : Nat) : PlanItem :=
  ⟨p, .nb, set, set, start, nbSamples n, planSfn s, .campaign k, [], [], hopList s.nbw.nextBand (planMap s) false⟩

/-- The cells that hops 1 to HMAX of a block reserve (R244, R250). -/
def blockCells (s : State) (c : Campaign) (n start set : Nat) : List TxOcc :=
  floodCells s (startSlotNo (planSfn s) (start / 204800)) (floodSpace (nbSamples n)) c.hmax n set (hopList s.nbw.nextBand (planMap s) false)

/-- Whether items keep the drivers enabled at once within their limit, taken one after the other. -/
def allDriversFit : List PlanItem → State → Bool
  | [], _ => true
  | p :: r, s => driversFit s p && allDriversFit r { s with plan := { s.plan with items := s.plan.items ++ [p] } }

/-- Whether hop HMAX of a block would start at or after an APPLY_SFN that has been set (R438). -/
def pastApply (s : State) (j : Nat) : Bool :=
  match s.mac.bnext with
  | none => false
  | some (_, a) => decide (sfnDiff (sfn s) a * 114 ≤ j - sfn s * 114)

/-- Whether a block may start at a start and tone set: not before its turn, clear of everything on every port of the set, and over before the beacon
key changes (R203, R250, R438, R440). -/
def blockFits (s : State) (c : Campaign) (k n start set : Nat) : Bool :=
  let j := startSlotNo (planSfn s) (start / 204800)
  let its := (campaignPorts c).map (blockItem s k n start set)
  decide (c.next ≤ j) && !pastApply s (j + c.hmax * floodSpace (nbSamples n)) &&
    its.all (fun it => cellsFree s (itemOccs s it) && dwellKept s (ownOccs s) (itemOccs s it)) && allDriversFit its s &&
    cellsFree s (blockCells s c n start set)

/-- The next block counted: after the last one the pass ends, and after the last pass the campaign (R440). -/
def nextBlock (c : Campaign) (k : Nat) (s : State) : State :=
  if k < lastBlock c.size then setF .mgt MGT_CAMP.BLOCK (k + 1) s
  else
    let s1 := setF .mgt MGT_CAMP.BLOCK 0 (setF .mgt MGT_CAMP_PASS.DONE (getF s .mgt MGT_CAMP_PASS.DONE + 1) s)
    let s2 := logCampaign 1 (raise .mgt MGT_INT.CAMPAIGN_PASS s1)
    if getF s2 .mgt MGT_CAMP_PASS.PASSES ≤ getF s2 .mgt MGT_CAMP_PASS.DONE then endCampaign 2 s2 else s2

/-- A block put into the plan on every port of the set, with the cells of its hops; a block whose job is refused is delayed (R438–R440). Block 0 of the first
pass completes CAMPAIGN_START. -/
def putBlock (c : Campaign) (k n start set : Nat) (s : State) : State :=
  let j := blockJob s c (blockPlain s c k)
  let (st, out, nonce, s1) := runJob 0 j s
  if st ≠ JST.OK then s1
  else
    let space := floodSpace (nbSamples n)
    let j0 := startSlotNo (planSfn s) (start / 204800)
    let unit := jobUnit j out nonce
    let bytes := [byteOf (0x80 + c.hmax), byteOf (planSfn s % 256)] ++ beBytes 2 (start / 204800 * 64 + space) ++ unit
    let head := nbHeaderBytes ⟨1, FT.FLOOD, c.rep, 0, bytes.length, 0xFFFE0 + getF s .mgt MGT_CAMP.GROUP, c.fseq, 0⟩
    let its := (campaignPorts c).map (fun p => { blockItem s k n start set p with header := head, payload := bytes })
    let s2 := { s1 with plan := { s1.plan with items := s1.plan.items ++ its, cells := s1.plan.cells ++ blockCells s c n start set } }
    let s3 := setCampaign (some { c with next := j0 + (c.hmax + 1) * space, fseq := (c.fseq + 1) % 16 }) s2
    let s4 := match outstanding s3 .mgt with
      | some o => if o.opcode = 4 then done .mgt CODE.OK s3 else s3
      | none => s3
    nextBlock c k s4

/-- CAMPAIGN_BLOCK_DUE: the next block is placed in the superframe whose plan is being fixed, at slot 512; a block that finds no place waits for the next plan,
and the campaign pauses in OUTAGE, in DORMOUSE and in STANDBY (R440). -/
def campaignBlock (s : State) : State :=
  match s.mgt.campaign with
  | none => s
  | some c =>
    if !s.time.running || decide (s.time.slot ≠ 512) then s
    else
      let paused := decide (s.pwr.state ≠ .run) || !inService s
      let s1 := setB .mgt MGT_CAMP.PAUSED paused s
      if paused then s1
      else
        let k := getF s .mgt MGT_CAMP.BLOCK
        let n := nbSymbols c.rep (20 + (blockPlain s c k).length)
        let hops := hopList s.nbw.nextBand (planMap s) false
        let pairs := ((nbStartSlots.map (· * 204800)).flatMap (fun t => hops.map (fun h => (t, h)))).filter
          (fun e => blockFits s1 c k n e.1 e.2)
        match nbPlace s1 (campaignPorts c) s.nbw.nextBand hops n pairs with
        | none => s1
        | some (t, h) => putBlock c k n t h s1

/-- CAMPAIGN_BLOCK_DUE (R440). -/
def execCampaignBlockDue (s : State) : Host.Outcome State Fault Refusal := .next (campaignBlock s)

/-- A takeover ends a campaign (R440). -/
def campaignTakenOver (s : State) : State := if s.mgt.campaign.isSome then endCampaign 2 s else s

/-- CTRL.BLK_RESET on MGT: the counters return to reset; the log, the slots and a running campaign are kept; a LOAD_SLOT it ends leaves its slot INVALID
(R450). -/
def execMgtBlkReset (s : State) : Host.Outcome State Fault Refusal := .next (blkReset .mgt [0x108] (loadReset s))

end Sys2Proof.Machine
end

