-- ==== Sys2Proof/Machine/Bursts.lean ====
section
/-!
DEFINITION. Sys2Proof/Machine/Bursts.lean: what becomes of planned transmissions and of bursts at their end: taking by a TX engine, completion,
headers decoded, and frames sent over lanes (R131, R186, R222, R250, R257, R271–R279).
-/
namespace Sys2Proof.Machine

/-! Transmissions taken (R271, R275, R276). -/

/-- The transmission planned next on a port in a waveform. -/
def nextItem (s : State) (p : Nat) (w : Wave) : Option PlanItem :=
  (s.plan.items.filter (fun x => decide (x.port = p) && decide (x.wave = w))).foldl (fun a x =>
    match a with
    | none => some x
    | some y => if itemT0 s x < itemT0 s y then some x else some y) none

/-- A planned frame's stage changed. -/
def stageFrame (p : Purpose) (st : Stage) (s : State) : State :=
  match p with
  | .downlink id => match frameOf s id with
    | some f => setFrame { f with stage := st } s
    | none => s
  | _ => s

/-- A planned transmission is taken into TX_SET, or its allocation fails: a beacon is lost, a frame waits for a later plan (R186, R275, R276). -/
def takeItem (x : PlanItem) (s : State) : State :=
  let s1 := { s with plan := { s.plan with items := s.plan.items.erase x } }
  match openTx x s1 with
  | some t => stageFrame x.purpose .line t
  | none =>
    let t := failTx s1
    if x.purpose = .beacon then loseBeacon t else stageFrame x.purpose .ready t

/-- Whether a planned beacon is still to be sent: BEACON_EN set (R209), and in stage 0x0E no beacon of the domain and no peer heard since its plan
was fixed (R400). -/
def beaconStands (s : State) : Bool :=
  isSet s .bcn BCN_CFG.BEACON_EN &&
    !(decide (getF s .boot BOOT_STATUS.STAGE = 0x0E) && (s.pair.lastBeacon.isSome || decide (pairRole s = 2) || peerUp s))

/-- TX_ENGINE_TAKE (R275): the transmission planned next on a port in a waveform. -/
def execTxEngineTake (p : Port) (w : Wave) (s : State) : Host.Outcome State Fault Refusal :=
  .next (match nextItem s p.val w with
    | none => s
    | some x =>
      if x.purpose = .beacon ∧ !beaconStands s then { s with plan := { s.plan with items := s.plan.items.erase x } } else takeItem x s)

/-- Frames whose burst ended otherwise than OK, or whose planned transmission is gone, wait for a later plan (R276, R278). -/
def recoverFrames (s : State) : State :=
  let carried (id : Nat) : Bool :=
    s.plan.items.any (fun x => decide (x.purpose = .downlink id)) ||
      s.eng.bursts.any (fun e => e.2.tx && e.2.st.isOpen && decide (e.2.purpose = .downlink id))
  setMac { s.mac with frames := s.mac.frames.map (fun f =>
    if (f.stage = .line ∨ f.stage = .planned) ∧ !carried f.id then { f with stage := .ready } else f) } s

/-! Sendings (R222, R230, R250). -/

/-- The superframes by which a flood's acknowledgement is awaited longer (R250). -/
def floodWait (s : State) (f : Frame) : Nat :=
  if f.flood then ceilDiv (2 * downHmax s f.index * floodSpace (nbSamples (nbSymbols 0 (lineLen s f))) * 1843200) superframe else 0

/-- JOIN_ACCEPT has been sent: the record is ACCEPTED (R230). -/
def acceptSent (i : Nat) (s : State) : State :=
  let a := assoc s i
  if a.c.state = CST.JOINING then setAssoc i { a with c := { a.c with state := CST.ACCEPTED, joinSfn := sfn s } } s else s

/-- A frame of the store has been sent whole: one that is acknowledged waits for that; any other is done (R222, R230). -/
def frameSent (f : Frame) (s : State) : State :=
  if f.ftype = FT.ASSOC ∨ f.ftype = FT.ACK then
    (if f.kind = .accept then acceptSent f.index (dropFrame f.id s) else dropFrame f.id s)
  else
    let a := assoc s f.index
    let s1 := if f.wave = .bb ∧ a.c.state ≠ CST.FREE then
        setAssoc f.index { a with sentPorts := ((f.fseq, a.c.portDl) :: a.sentPorts.filter (fun e => decide (e.1 ≠ f.fseq))).take 256 } s
      else s
    let s2 := if f.flood then count .rpt RPT_FLOOD_TX_CNT.COUNT s1 else s1
    setFrame { f with stage := .waitAck, sends := f.sends + 1, due := (sfn s + 4 + floodWait s f) % 2 ^ 32 } s2

/-- What the OK completion of a transmit burst means for what it carried. -/
def sentBurst (p : Purpose) (s : State) : State :=
  match p with
  | .beacon => count .bcn BCN_BEACON_CNT.COUNT { s with pair := { s.pair with beaconed := true } }
  | .downlink id => match frameOf s id with
    | some f => frameSent f s
    | none => s
  | _ => s

/-! Completions (R131, R158, R162, R277–R279, R297). -/

/-- A receive burst with what its decoding found. -/
def decodedBurst (b : Burst) (r : RxResult) : Burst :=
  { b with
    symbols := r.symbols, erased := r.erased, quality := r.quality.toNat, cwFail := min r.cwFail 255, multi := r.multi
    gainStep := b.gainStep || r.gainStep, offset := if b.wave = .bb then ofSigned 16 r.offset else 0, payload := r.payload, maps := r.snr }

/-- A receive burst completes: its combined decode, its status and counts; a first-path offset of an endpoint's sound broadband burst is kept
for its next downlink header (R158). -/
def completeReceive (id : Nat) (r : RxResult) (s : State) : State :=
  let b := burst s id
  if b.header = [] then s
  else
    let s1 := combinedDecode id r.payload (setBurst id (decodedBurst b r) s)
    let (st, s2) := match b.wave with
      | .nb => nbDecoded r.crcOk s1
      | .bb => bbDecoded r.crcOk r.cwFail s1
    let h := bbHeader b.header
    let s3 := if b.wave = .bb ∧ st = BST.OK ∧ (h.ftype = FT.DATA ∨ h.ftype = FT.ACK ∨ h.ftype = FT.TMAP) then noteOffset h.addr r.offset s2 else s2
    completeBurst id st s3

/-- A transmit burst whose driver is off completes OK (R277). -/
def completeSend (id : Nat) (s : State) : State :=
  let b := burst s id
  let n := match b.wave with
    | .nb => b.length / 115200
    | .bb =>
      let h := bbHeader b.header
      2 + (b.length - 25664) / (4096 + giSamples h.gi)
  if b.sent then sentBurst b.purpose (completeBurst id BST.OK (setBurst id { b with symbols := min n 0xFFFF } s)) else s

/-- BURST_COMPLETION (R277). -/
def execBurstCompletion (id : BurstId) (r : RxResult) (s : State) : Host.Outcome State Fault Refusal :=
  let b := burst s id.val
  .next (match b.st with
    | .rxOpen => completeReceive id.val r s
    | .txLive => completeSend id.val s
    | _ => s)

/-- NB_HEADER_DECODED (R131). -/
def execNbHeaderDecoded (id : BurstId) (h : BitVec 64) (s : State) : Host.Outcome State Fault Refusal :=
  .next (nbHeaderDecoded id.val (beBytes 8 h.toNat) s)

/-! Frames over lanes (R224, R257, R258). -/

/-- The lane a frame of the store goes over, if any: the one its request came on, or that of its association. -/
def frameLane (s : State) (f : Frame) : Option Nat :=
  match f.via with
  | some l => some l
  | none => if f.ftype = FT.ASSOC then none else (assoc s f.index).lane

/-- A frame sent over a lane as soon as it is ready: the broadband header and payload, with T = 16 (R257). A lane that is down lets it wait. -/
def laneFrame (l : Nat) (f0 : Frame) (s : State) : State :=
  let f := { f0 with wave := .bb, flood := false }
  if !laneUp s l then s
  else if f.kind = .accept ∧ f.inner then planJoinUp f s
  else
    let (st, f1, s1) := sealBytes f [] s
    if st ≠ JST.OK then planFailed f st s1
    else
      let (tadj, s2) := takeTadj (frameAddr s1 f1) s1
      let h : BbHeader := ⟨1, f1.ftype, 2, 0, 1, 0, 0, 26, f1.payload.length, frameAddr s1 f1, f1.fseq, tadj, 0⟩
      frameSent f1 (notePlanned f1 0 [] (setFrame f1 (laneNgael l (bbHeaderBytes h ++ f1.payload) s2)))

/-- Every frame that is ready for a lane is sent. -/
def flushLanes (s : State) : State :=
  s.mac.frames.foldl (fun t f => match frameLane t f with
    | some l => if plannable f || (decide (f.kind = .accept) && f.inner) then laneFrame l f t else t
    | none => t) s

/-- The lanes of subordinate children that are up, the module's own uplink lane apart. -/
def childLanes (s : State) : List Nat :=
  ([0, 1, 2, 3] : List Nat).filter (fun l => laneUp s l && !(decide (s.mac.role = 2) && upIsLane s && decide (getF s .rpt RPT_TREE.UP_LANE = l)))

/-- The broadband beacon payload for one lane, tagged with port number 52 + lane in ADDR and nonce. DEDUCED (log 21): the spec names no port number
for a lane; 52 to 55 name no port and repeat no nonce. -/
def planLaneBeacon (l : Nat) (s : State) : State :=
  let body := beaconHead s ++ beaconTail s
  let (st, tag, _, s1) := runJob 0 (beaconJob s (52 + l) .bb body) s
  let h : BbHeader := ⟨1, FT.BEACON, 2, 0, 1, 15, 0, 26, 264, s.bcn.domain * 64 + 52 + l, planSfn s % 256, 0, 0⟩
  if st = JST.OK then { s1 with plan := { s1.plan with lanes := s1.plan.lanes ++ [(l, bbHeaderBytes h ++ body ++ tag)] } } else loseBeacon s1

/-- The beacon payloads for the lanes of children; only a ROOT or SUBORDINATE has any, and which lanes lead to them is not known, so each lane
carries one (R257, R258). DEDUCED (log 21). -/
def planLaneBeacons (s : State) : State :=
  if s.mac.role = 0 ∨ !mayBeacon s then s else (childLanes s).foldl (fun t l => planLaneBeacon l t) s

/-- At slot 0 they are sent (R258, R373). -/
def sendLaneBeacons (s : State) : State :=
  s.plan.lanes.foldl (fun t e => laneNgael e.1 e.2 t) { s with plan := { s.plan with lanes := [] } }

/-! The BCN page (R210). -/

/-- BCN_BLK_RESET (R210). -/
def execBcnBlkReset (s : State) : Host.Outcome State Fault Refusal :=
  .next (blkReset .bcn [0x128, 0x130, 0x134, 0x138, 0x13C] s)

end Sys2Proof.Machine
end

