-- ==== Sys2Proof/Machine/Parent.lean ====
section
/-!
DEFINITION. Sys2Proof/Machine/Parent.lean: a subordinate's own association with its parent: solicits, join, grants and frames to it, and its effect
on the domain (R224–R230, R257–R259).
-/
namespace Sys2Proof.Machine

/-! The link to the parent (R257). -/

/-- Whether the module is a SUBORDINATE with an uplink interface. -/
def isSub (s : State) : Bool := decide (s.mac.role = 2) && decide (getF s .rpt RPT_TREE.UP_IF ≠ 0)

/-- The uplink MV port. -/
def upPort (s : State) : Nat := getF s .rpt RPT_TREE.UP_PORT

/-- Whether the link to the parent is narrowband only: an MV port without broadband, or OUTAGE. -/
def upNarrow (s : State) : Bool := !upIsLane s && (!(port s (upPort s)).bbEn || !isSet s .bbw BBW_STATUS.MASK_VALID || inOutage s)

/-- A frame of the module for its parent on the uplink port, put up for the next plan. -/
def upFrame (addr code : Nat) (payload : List Byte) (s : State) : State :=
  addFrame { Frame.blank with
    kind := .element, index := addr, ftype := FT.ASSOC, fseq := code, payload := payload, prot := false
    wave := if upNarrow s then .nb else .bb, port := some (upPort s), due := sfn s, takenAt := sfn s } s

/-- An unprotected message to the parent: at once over a lane, else on the uplink port (R224, R257). -/
def tellParent (addr code : Nat) (payload : List Byte) (s : State) : State :=
  if upIsLane s then
    let h : BbHeader := ⟨1, FT.ASSOC, 2, 0, 1, 0, 0, 26, payload.length, addr, code, 0, 0⟩
    laneNgael (getF s .rpt RPT_TREE.UP_LANE) (bbHeaderBytes h ++ payload) s
  else upFrame addr code payload s

/-! Joining the parent (R224–R229). -/

/-- A TAG other than 0 (R224): the low 20 bits of a drawn value, 1 for a draw of 0. -/
def drawTag (s : State) : Nat × State :=
  let (b, t) := randBytes 3 s
  (max 1 (ofBE b % 2 ^ 20), t)

/-- JOIN_SOLICIT with a fresh TAG; none to a parent whose beacons carry DEPTH 63 (R225, R259). -/
def solicit (s : State) : State :=
  if !isSub s || parentActive s then s
  else if isSet s .rpt RPT_PARENT.BEACON_OK && decide (getF s .rpt RPT_PARENT.PARENT_DEPTH = 63) then raise .rpt RPT_INT.HOP_LIMIT s
  else
    let (tag, s1) := drawTag s
    let p := s1.mac.parent
    tellParent tag 1 [] (setParent { p with phase := .listening, tag := tag, tries := p.tries + 1 } s1)

/-- The end of a wait of R225: the wait for an answer is followed by a back-off, any other by the next solicit. -/
def solicitWait (s : State) : State :=
  let p := s.mac.parent
  match p.phase with
  | .listening => setParent { p with phase := .backoff, k := min (p.k + 1) 6, tries := if 16 ≤ p.tries then 0 else p.tries } s
  | .idle | .backoff => solicit s
  | _ => s

/-- SOLICIT_WAIT_EXPIRY (R225). -/
def execSolicitWaitExpiry (s : State) : Host.Outcome State Fault Refusal :=
  .next (if isSub s && !standby s then solicitWait s else s)

/-- JK of this module. -/
def ownJoinKey : List Byte := beBytes 16 Config.parentJoinKey.toNat

/-- EP_ID of this module: its MODULE_ID. DEDUCED (log 26). -/
def ownEpId : Nat := Config.moduleId.toNat

/-- The CAPS of a subordinate: the waveforms of its link, AES-256, SUBORD (R227). -/
def ownCaps (s : State) : Nat :=
  bitIf (!upIsLane s && (port s (upPort s)).nbEn) 0 + bitIf (!upNarrow s) 1 + bitIf true 3 + bitIf true 4

/-- The payload of the module's JOIN_REQ (R227). -/
def joinReqBytes (s : State) (p : ParentSt) : List Byte :=
  let b := beBytes 3 p.tag ++ beBytes 8 ownEpId ++ beBytes 6 p.nE ++ beBytes 2 (ownCaps s) ++ beBytes 2 0
  b ++ (gcmTag ownJoinKey (beBytes 6 p.nE ++ beBytes 6 0) (beBytes 3 p.index ++ b) []).take (tagLen (upNarrow s))

/-- JOIN_OFFER to the module's TAG: N_E is drawn, and JOIN_REQ goes in the granted occurrence, or at once over a lane (R226, R227). -/
def takeOffer (v : List Byte) (s : State) : State :=
  match drawNonce 4 s with
  | (none, s1) => s1
  | (some nE, s1) =>
    let p := { s1.mac.parent with
      phase := .offered, index := beAt v 0 3 % 2 ^ 20, nM := beAt v 3 6, nE := nE, grants := [slice v 13 16], k := 0, tries := 0
      link := { Ctx.zero with anchor := beAt v 9 4, nb := upNarrow s, bb := !upNarrow s } }
    let s2 := setParent p s1
    tellParent p.index 4 (joinReqBytes s2 p) s2

/-- JOIN_ACCEPT opened with JK: keys, beacon key and grant are kept, and the confirmation goes in the granted occurrence, or at once over a lane
(R228–R230). -/
def takeAccept (v : List Byte) (s : State) : State :=
  let p := s.mac.parent
  let t := tagLen (upNarrow s)
  match gcmOpen ownJoinKey (beBytes 6 p.nM ++ beBytes 6 p.nE) (beBytes 3 p.index ++ beBytes 8 ownEpId) (v.take (v.length - t)) (v.drop (v.length - t)) with
  | none => countJob JST.AUTH_FAIL s
  | some d =>
    let ks := gcmCtr ownJoinKey (beBytes 6 p.nE ++ beBytes 6 p.nM) (List.replicate 64 0)
    let big := (beAt d 0 1).testBit 7
    let c := { p.link with
      state := CST.ACCEPTED, aes256 := big, kgen := beAt d 0 1 % 8, key := wrapField s.cip.kwk (slice ks 0 (if big then 32 else 16)) 40
      salt := beAt d 1 4, sup := beAt d 34 2, lastRx := sfn s, joinSfn := sfn s, portHome := beAt d 42 1 % 64 }
    let s1 := setParent { p with link := c, bkey := some ⟨slice d 14 16, beAt d 30 4, beAt d 13 1 % 8, none⟩, grants := [slice d 44 16] }
      (countJob JST.OK s)
    if upIsLane s then
      let (f, s2) := parentFrame [] s1
      laneNgael (getF s .rpt RPT_TREE.UP_LANE) f s2
    else s1

/-- JOIN_DEFER or JOIN_REJECT: a hold-off, or with HOLD 0 a new solicit at once (R225). -/
def takeHold (hold : Nat) (s : State) : State :=
  let s1 := setParent { s.mac.parent with phase := .backoff, k := 0 } s
  if hold = 0 then solicit s1 else s1

/-- An ASSOC message of the parent (R224): offers and deferrals name the TAG, the rest the index offered. -/
def parentAnswer (f : FrameIn) (s : State) : State :=
  let p := s.mac.parent
  let v := f.payload
  if p.phase = .listening ∧ f.addr = p.tag then
    if f.fseq = 2 ∧ v.length = 29 then takeOffer v s
    else if f.fseq = 3 ∧ v.length = 2 then takeHold (beAt v 0 2) s
    else s
  else if p.phase = .offered ∧ f.addr = p.index ∧ p.link.state ≠ CST.ACCEPTED then
    if f.fseq = 5 ∧ v.length = 60 + tagLen (upNarrow s) then takeAccept v s
    else if f.fseq = 6 ∧ v.length = 3 then takeHold (beAt v 1 2) s
    else s
  else s

/-- PARENT_JOIN_ANSWER (R225). -/
def execParentJoinAnswer (id : BurstId) (s : State) : Host.Outcome State Fault Refusal :=
  .next (onFrame id.val (fun f => f.fromParent && decide (f.ftype = FT.ASSOC)) parentAnswer s)

/-! The association with the parent (R259). -/

/-- Stage 0x0F begins: the module beacons in its role from the next superframe boundary (R84, R259). -/
def beginBeaconing (s : State) : State :=
  if getF s .boot BOOT_STATUS.STAGE = 0x0E then setF .boot BOOT_STATUS.STAGE 0x0F s else s

/-- A module that has not beaconed takes its place in the superframe from the parent's: the slot number alone moves, since module time is the SFN
and the sample within the superframe (R259, R344). -/
def alignToParent (s : State) : State :=
  match s.mac.parent.base with
  | none => s
  | some (t, k) =>
    let m := (slotTime s + 209715200 - t % 209715200) % 209715200
    let s1 := { s with time := { s.time with slot := m / 204800 } }
    let d := (slotTime s - t) / 209715200
    setF .rpt RPT_SF_OFFSET.OFFSET 0 (setParent { s.mac.parent with base := some (s.time.sfStart, (k + d) % 2 ^ 32) } s1)

/-- PARENT_JOINED (R259): the association whose JOIN_ACCEPT has been taken becomes ACTIVE. -/
def parentJoined (s : State) : State :=
  let p := s.mac.parent
  if p.phase ≠ .offered ∨ p.link.state ≠ CST.ACCEPTED then s
  else
    let s1 := setParent { p with phase := .active, link := { p.link with state := CST.ACTIVE } } s
    let s2 := setF .rpt RPT_PARENT.INDEX p.index (setB .rpt RPT_PARENT.ACTIVE true (setB .rpt RPT_STATUS.PARENT_ACTIVE true s1))
    let s3 := raise .rpt RPT_INT.PARENT_JOINED (setF .rpt RPT_STATUS.DEPTH (getF s .rpt RPT_PARENT.PARENT_DEPTH + 1) s2)
    if getF s .boot BOOT_STATUS.STAGE = 0x0E then beginBeaconing (alignToParent s3) else s3

/-- The units held for the parent while it was absent follow in order (R261): the store-and-forward region gives them up by SNF_REPLAY. -/
def execParentJoined (s : State) : Host.Outcome State Fault Refusal := .next (parentJoined s)

/-- PARENT_LOST (R259). -/
def execParentLost (s : State) : Host.Outcome State Fault Refusal := .next (parentLost s)

/-- TREE_WAIT_EXPIRY (R259): a subordinate still in stage 0x0E without an ACTIVE parent beacons on its own boundaries. -/
def execTreeWaitExpiry (s : State) : Host.Outcome State Fault Refusal :=
  .next (if isSub s && !parentActive s then beginBeaconing s else s)

/-! Transmissions on the uplink port (R195, R196, R200, R257). -/

/-- The start of the parent's superframe in progress at the start of the one planned, in module time. -/
def parentGrid (s : State) : Option Nat :=
  s.mac.parent.base.map (fun b => planStart s - (planStart s + superframe - b.1 % superframe) % superframe)

/-- A moment of the parent's grid moved into the superframe planned. -/
def intoPlan (s : State) (t : Nat) : Nat := if t < planStart s then t + superframe else t

/-- The tone sets of contention on the parent's map: those not permitted, tone set 0 apart, else tone set 0 (R195). -/
def parentContention (s : State) : List Nat :=
  let l := ((List.range (planNsets s)).drop 1).filter (fun k => !(beAt s.mac.parent.beacon 14 8).testBit k)
  if l = [] then [0] else l

/-- The contention occurrences from a slot on in which a frame to the parent may be sent, in order (R195, R196). -/
def contentionItems (f : Frame) (g : Nat) (s : State) : List PlanItem :=
  let p := upPort s
  match f.wave with
  | .nb =>
    let len := nbSamples (nbSymbols 0 f.payload.length)
    let it (slot set : Nat) : PlanItem := ⟨p, .nb, set, set, intoPlan s (g + slot * 204800) - planStart s, len, planSfn s, .mac f.index,
      nbHeaderBytes ⟨1, FT.ASSOC, 0, 0, f.payload.length, f.index, f.fseq, 0⟩, f.payload, List.range (planNsets s)⟩
    (nbStartSlots.flatMap (fun k => (parentContention s).map (fun h => it k h))).filter (itemFits s)
  | .bb =>
    let per := 8 * 2 ^ (beAt s.mac.parent.beacon 22 2 / 2 ^ 12 % 4)
    let ok (k : Nat) : Bool := (beAt s.mac.parent.beacon 24 4).testBit k && decide (51 ≤ (unmasked s.bbw.next.pmask k k).length)
    let h (k : Nat) : BbHeader := ⟨1, FT.ASSOC, 2, 0, 1, 0, k, k, f.payload.length, f.index, f.fseq, 0, 0⟩
    let it (slot k : Nat) : PlanItem := ⟨p, .bb, k, k, intoPlan s (g + slot * 204800) - planStart s, (bbShape s (h k) []).1, planSfn s, .mac f.index,
      bbHeaderBytes (h k), f.payload, []⟩
    let slots := ((List.range 1024).filter (fun k => decide (k % per = per - 1)))
    (slots.flatMap (fun k => ((List.range 27).filter ok).map (fun q => it k q))).filter (itemFits s)

/-- A transmission added to the plan. -/
def planItem (x : PlanItem) (s : State) : State := { s with plan := { s.plan with items := s.plan.items ++ [x] } }

/-- A contention message on the uplink port in a start slot or contention slot drawn at random (R195, R196, R225). -/
def contend (f : Frame) (g : Nat) (s : State) : State :=
  let all := contentionItems f g s
  match all[ofBE (randBytes 4 s).1 % max 1 all.length]? with
  | some x => dropFrame f.id (planItem x (randBytes 4 s).2)
  | none => (randBytes 4 s).2

/-- The first sample of a grant's occurrence in the superframe planned, its event count, and whether the grant is over with it (R198–R200). -/
def grantTime (s : State) (g : List Byte) : Option (Nat × Nat × Bool) :=
  match s.mac.parent.base with
  | none => none
  | some (t, k0) =>
    let d : Int := ((beAt g 3 2 : Int) - k0 + 32768) % 65536 - 32768
    let w := beAt g 5 3
    let at_ : Int := (t : Int) + d * superframe + ((w / 2 ^ 14 * 204800 + w / 2 ^ 4 % 1024 * 256 : Nat) : Int)
    let per := beAt g 8 2
    let lo : Int := planStart s
    let n : Int := if per = 0 ∨ lo ≤ at_ then 0 else (lo - at_ + per * superframe - 1) / (per * superframe)
    let x := at_ + n * per * superframe
    let sf : Int := ((k0 : Int) + d + n * per) % (2 ^ 32 : Int)
    if lo ≤ x ∧ x < lo + superframe then some (x.toNat, ((sf - (s.mac.parent.link.anchor : Int)) % (2 ^ 32 : Int)).toNat, decide (per = 0)) else none

/-- The waiting elements that fit into a number of bytes, in order, and the rest. -/
def fillElems : Nat → List (List Byte) → List Byte × List (List Byte)
  | _, [] => ([], [])
  | room, e :: r => if room < e.length then ([], e :: r) else
    let (a, b) := fillElems (room - e.length) r
    (e ++ a, b)

/-- What goes into a grant's occurrence: JOIN_REQ while the join waits for it, else a unit with the waiting elements, empty as a keep-alive (R226,
R230, R232): FTYPE, FSEQ, payload. -/
def grantBody (narrow : Bool) (len : Nat) (s : State) : Nat × Nat × List Byte × State :=
  let p := s.mac.parent
  match s.mac.frames.find? (fun f => f.port.elim false (isUpPort s) && decide (f.ftype = FT.ASSOC) && decide (f.fseq = 4)) with
  | some f => (FT.ASSOC, 4, f.payload, dropFrame f.id s)
  | none =>
    let (e, rest) := fillElems (len - 8 - tagLen narrow) p.waiting
    let (q, body, s1) := parentFrameUnit narrow e (setParent { p with waiting := rest } s)
    (FT.DATA, q, body, s1)

/-- One grant of the parent used: its occurrence in the superframe planned carries a frame (R197, R257). -/
def useGrant (g : List Byte) (s : State) : State :=
  match grantTime s g with
  | none => s
  | some (t, e, once) =>
    let narrow := decide (beAt g 0 3 % 16 ≠ 3)
    let p := s.mac.parent
    let s0 := if once then setParent { p with grants := p.grants.erase g } s else s
    let (ty, q, body, s1) := grantBody narrow (beAt g 10 2) s0
    let w0 := beAt g 12 1
    let w1 := beAt g 13 1
    let it : PlanItem :=
      if narrow then
        let hops := setsOf (beAt p.beacon 14 8)
        let set := hops.getD ((w0 / 4 + e) % max 1 hops.length) 0
        ⟨upPort s, .nb, set, set, t - planStart s, nbSamples (nbSymbols (w0 % 4) body.length), planSfn s, .mac p.index,
          nbHeaderBytes ⟨1, ty, w0 % 4, 0, body.length, p.index, q % 16, 0⟩, body, hops⟩
      else
        let h : BbHeader := ⟨1, ty, w1 / 16 % 4, w1 / 4 % 4, w1 % 4, beAt g 14 1 / 16, w0 / 8, w0 % 8 * 4 + w1 / 64, body.length, p.index, q, 0, 0⟩
        ⟨upPort s, .bb, h.ruFirst, h.ruLast, t - planStart s, (bbShape s h []).1, planSfn s, .mac p.index, bbHeaderBytes h, body, []⟩
    { s1 with plan := { s1.plan with items := s1.plan.items ++ [it] } }

/-- What the uplink port sends in the superframe planned: contention messages, and a frame in each granted occurrence. With elements waiting and no
grant to come, GRANT_REQ is put up (R224). -/
def planUplink (s : State) : State :=
  if !isSub s || upIsLane s then s
  else match parentGrid s with
    | none => s
    | some g =>
      let asks := s.mac.frames.filter (fun f => f.port.elim false (isUpPort s) && decide (f.ftype = FT.ASSOC) && decide (f.fseq ≠ 4))
      let s1 := asks.foldl (fun t f => contend f g t) s
      let s2 := s1.mac.parent.grants.foldl (fun t x => useGrant x t) s1
      let p := s2.mac.parent
      if p.phase = .active ∧ p.waiting ≠ [] ∧ p.grants = [] then upFrame p.index 7 [] s2 else s2

end Sys2Proof.Machine
end

