-- ==== Sys2Proof/Machine/Tree.lean ====
section
/-!
DEFINITION. Sys2Proof/Machine/Tree.lean: RELAY and KEY_INSTALL elements, joins that come up a tree, tree routes, broadband routes and the RPT page
(R231, R251–R262, R265–R267).
-/
namespace Sys2Proof.Machine

/-! Broadband routes (R251, R253, R254, R267). -/

/-- The relays from an index on, whatever BB_RELAY_EN is; `fuel` bounds them. -/
def routeChain (s : State) : Nat → Nat → List Nat
  | 0, _ => []
  | fuel + 1, x =>
    let r := relay s x
    if r.routed && r.valid then r.next :: routeChain s fuel r.next else []

/-- The ROUTE elements of a relay: its child list is replaced by the indices whose BB_NEXT names it, 64 to an element; JOIN_FWD follows AUTO_ROUTE
(R252, R254). DESIGN CHOICE (log 28): no rule says when JOIN_FWD is set. -/
def sendRoute (r : Nat) (s : State) : State :=
  let kids := (s.mac.relays.filter (fun e => e.2.routed && e.2.valid && decide (e.2.next = r))).flatMap (fun e => beBytes 3 e.1)
  let parts := if kids = [] then [[]] else pieces 192 kids.length kids
  let fwd := getF s .rpt RPT_CFG.AUTO_ROUTE
  parts.zipIdx.foldl (fun t e =>
    ownFrame .element r (relayElem 0x03 0 0 ([byteOf (fwd + (if e.2 = 0 then 2 else 0))] ++ beBytes 2 (e.1.length / 3) ++ e.1)) t) s

/-- ROUTE elements to every relay on the path of an index (R267). -/
def sendRoutes (x : Nat) (s : State) : State := (routeChain s 63 x).foldl (fun t r => sendRoute r t) s

/-- Whether an association is ACTIVE. -/
def isActive (s : State) (i : Nat) : Bool := decide ((ctx s i).state = CST.ACTIVE)

/-- SET_ROUTE (R267). -/
def runSetRoute (o : Outstanding) (s : State) : State :=
  let i := getBits o.a0 19 0
  let valid := o.a1.toNat.testBit 31
  let next := getBits o.a1 19 0
  let s1 := setRelay i { relay s i with routed := true, learned := false, valid := valid, next := next, bbHops := getBits o.a2 5 0 } s
  let path := routeChain s1 64 i
  if !isActive s i || (valid && !isActive s next) then done .rpt 0x80 s
  else if path.contains i || decide (63 < path.length) then done .rpt 0x81 s
  else done .rpt CODE.OK (sendRoutes i s1)

/-- SET_ROUTE, RPT command 0x0001 (R267). -/
def execSetRoute (src : CmdSrc) (s : State) : Host.Outcome State Fault Refusal := .next (issue .rpt 0x0001 src runSetRoute s)

/-- CLEAR_ROUTE (R267). -/
def runClearRoute (o : Outstanding) (s : State) : State :=
  let i := getBits o.a0 19 0
  if !isActive s i then done .rpt 0x80 s
  else done .rpt CODE.OK (setRelay i { relay s i with routed := false, learned := false, valid := false, next := 0, bbHops := 0 } s)

/-- CLEAR_ROUTE, RPT command 0x0002 (R267). -/
def execClearRoute (src : CmdSrc) (s : State) : Host.Outcome State Fault Refusal := .next (issue .rpt 0x0002 src runClearRoute s)

/-- APPOINT: the REPEAT element is put up; the command completes when it is acknowledged (R267). -/
def runAppoint (o : Outstanding) (s : State) : State :=
  let i := getBits o.a0 19 0
  let depth := getBits o.a1 11 8
  let roles := getBits o.a1 2 0
  if depth = 0 ∨ 4 < depth then done .rpt CODE.BAD_ARG s
  else if !isActive s i then done .rpt 0x80 s
  else ownFrame .repeater i (relayElem 0x04 0 0 [byteOf roles, byteOf depth]) (setRelay i { relay s i with roles := roles } s)

/-- APPOINT, RPT command 0x0003 (R267). -/
def execAppoint (src : CmdSrc) (s : State) : Host.Outcome State Fault Refusal := .next (issue .rpt 0x0003 src runAppoint s)

/-- RPT_ROUTE_SEL_WRITE: the entry's bytes are latched (R266). -/
def execRptRouteSelWrite (value : Word) (s : State) : Host.Outcome State Fault Refusal :=
  let i := getBits value 19 0
  let b := (relay s i).bytes
  let st := leAt b 0 1 + 2 ^ 8 * leAt b 1 1 + 2 ^ 16 * leAt b 5 1 + 2 ^ 24 * leAt b 6 1
  .next (setF .rpt RPT_ROUTE_NEXT.ENTRY (beAt b 2 3) (setF .rpt RPT_ROUTE_STATE.ENTRY st (setF .rpt RPT_ROUTE_SEL.INDEX i s)))

/-- RPT_BLK_RESET (R265). -/
def execRptBlkReset (s : State) : Host.Outcome State Fault Refusal :=
  .next (blkReset .rpt [0x110, 0x11C, 0x120, 0x124, 0x128, 0x12C, 0x130, 0x134] s)

/-! Forwarding (R252). -/

/-- A forwarding step: HOPS one higher, or the element is discarded at the limit of 63 (R252). -/
def forwardStep (hops : Nat) (run : Nat → State → State) (s : State) : State :=
  if 63 ≤ hops then raise .rpt RPT_INT.HOP_LIMIT (count .rpt RPT_HOP_LIMIT_CNT.COUNT s)
  else run (hops + 1) s

/-- An element to a child of the tree or a relay. -/
def toChild (i : Nat) (el : List Byte) (s : State) : State := ownFrame .element i el s

/-! Frames that relays carry (R254). -/

/-- A relayed solicit: ignored when its TAG is already known; else answered through the relay, with the route learned (R254). -/
def relayedSolicit (i hops : Nat) (f : FrameIn) (s : State) : State :=
  let known := !(slotsWhere s (fun a => a.join.elim false (fun j => decide (j.tag = f.addr)))).isEmpty
  if known || !isSet s .rpt RPT_CFG.AUTO_ROUTE || !isSet s .asc ASC_CFG.JOIN_EN then s
  else match freeSlot s with
    | none =>
      let s1 := raise .asc ASC_INT.JOIN_DEFER (count .asc ASC_DEFER_CNT.COUNT s)
      toChild i (relayElem 0x01 0 f.addr ([byteOf FT.ASSOC, 3] ++ beBytes 2 2 ++ beBytes 2 (getF s .asc ASC_DEFER.HOLD)))
        (setMac { s1.mac with deferrals := s1.mac.deferrals + 1 } s1)
    | some x =>
      let s1 := joinSolicit f s
      if (ctx s1 x).state = CST.JOINING then
        sendRoutes x (raise .rpt RPT_INT.ROUTE_LEARNED (setRelay x
          { relay s1 x with routed := true, learned := true, valid := true, next := i, bbHops := min (hops + 1) 63 } s1))
      else s1

/-- A frame that a relay carried up, handled as if received directly, in the relay's group (R254). -/
def relayedFrame (i hops target : Nat) (body : List Byte) (s : State) : State :=
  let c := ctx s i
  let r := (ruRun s).getD (0, 26)
  let f : FrameIn := ⟨false, false, beAt body 0 1, target, beAt body 1 1, 0, slice body 4 (beAt body 2 2), groupOf c.portHome, r.1, r.2, 0,
    c.quality, sfn s, s.time.slot * 204800, none, false⟩
  if f.ftype = FT.DATA then dataFrame f s
  else if f.ftype = FT.ACK then ackIn f s
  else if f.ftype = FT.TMAP then tmapFrame f s
  else if assocCode f 1 then relayedSolicit i hops f s
  else if assocCode f 4 then joinReq f s
  else if assocCode f 7 then grantReq f s
  else malformed s

/-! Joins that come up a tree (R231, R262). -/

/-- KEY_INSTALL put up for a child (R262). -/
def sendInstall (i : Nat) (v : List Byte) (s : State) : State := toChild i (element EL.KEY_INSTALL v) s

/-- A rejection in KEY_INSTALL (R228, R262). -/
def installReject (i reason hold ep target : Nat) (s : State) : State :=
  sendInstall i ([byteOf reason] ++ beBytes 2 hold ++ beBytes 8 ep ++ beBytes 3 target ++ List.replicate 42 0) s

/-- The content of JOIN_UP (R252). -/
structure JoinUpIn where
  narrow : Bool
  nM : Nat
  params : List Byte
  req : List Byte
  target : Nat
deriving DecidableEq, Repr

/-- The SESSION record of an accepted join (R228, R231): the session key and salt, PEER the child, SUP as the serving module set it. -/
def sessionRecord (s : State) (i k : Nat) (u : JoinUpIn) (out : List Byte) : Ctx :=
  let c := joinRecord s Ctx.zero (parkedRec s k) (beAt u.req 3 8) (beAt u.req 17 2) (beAt u.req 19 2) out
  { c with
    state := CST.ACCEPTED, session := true, peer := i, key := slice out 40 40, salt := beAt out 84 4, sup := beAt u.params 21 2
    nb := u.narrow || (beAt u.req 17 2).testBit 0, bb := !u.narrow || (beAt u.req 17 2).testBit 1 }

/-- The record of a forwarded join: an older association of the same endpoint ends, and the session's keys stand in the record found for it (R231). -/
def openUp (i k x : Nat) (u : JoinUpIn) (out : List Byte) (s : State) : State :=
  let t := match findSlot s (beAt u.req 3 8) x (fun y => decide (y = CST.ACTIVE)) with
    | some old => startEnd old RSN.SUPERSEDED 0 false s
    | none => s
  setAssoc x { Assoc.free with c := sessionRecord t i k u out, parked := k, keySfn := sfn t } (clearRelays x t)

/-- The JOIN_ACCEPT of a forwarded join sealed, and the key installation sent to the relay (R231). -/
def installUp (i x : Nat) (u : JoinUpIn) (out : List Byte) (s : State) : State :=
  let ep := beAt u.req 3 8
  let nE := beAt u.req 11 6
  let big := isSet s .asc ASC_CFG.KEY256 && (beAt u.req 17 2).testBit 3
  let c := (assoc s x).c
  let j : JoinSt := ⟨0, u.nM, if u.narrow then .nb else .bb, 0, 0, 0, 0, 0, false, 0, nE, ep, false⟩
  let plain := [byteOf (keyInfo c)] ++ slice out 80 4 ++ beBytes 4 (2 ^ 31 + x) ++ slice out 84 4 ++ u.params
  let r := runJob (x % 16) { joinAcceptJob x j u.narrow plain with hdr := beBytes 3 u.target ++ beBytes 8 ep } s
  let key := padTo 32 ((unwrapField s.cip.kwk (out.take 40) big).getD [])
  if r.1 ≠ JST.OK then setAssoc x Assoc.free r.2.2.2
  else sendInstall i ([0, 0, 0] ++ beBytes 8 ep ++ beBytes 3 u.target ++ beBytes 3 x ++ [byteOf (keyInfo c)] ++ key ++ slice out 80 4 ++
    beBytes 2 r.2.1.length ++ r.2.1) r.2.2.2

/-- A join of a tree accepted here: the SESSION record is made in slot `x`, and the link key and JOIN_ACCEPT go down in KEY_INSTALL (R231,
R262). -/
def acceptUp (i k x : Nat) (u : JoinUpIn) (s : State) : State :=
  let big := isSet s .asc ASC_CFG.KEY256 && (beAt u.req 17 2).testBit 3
  let r := runJob (x % 16) (deriveJob x (beAt u.req 11 6) u.nM big) s
  if r.1 ≠ JST.OK then setAssoc x Assoc.free r.2.2.2 else installUp i x u r.2.1 (openUp i k x u r.2.1 r.2.2.2)

/-- A join of a tree for a record held here, its findings in the order of R228; without a FREE slot it stays unanswered. DEDUCED (log 26). -/
def judgeUp (i k : Nat) (u : JoinUpIn) (s : State) : State :=
  let p := u.req
  let ep := beAt p 3 8
  let nE := beAt p 11 6
  let old := parkedRec s k
  let hold := getF s .asc ASC_DEFER.HOLD
  match freeSlot s with
  | none => s
  | some x =>
    let s0 := setAssoc x { Assoc.free with c := { Ctx.zero with state := CST.JOINING, session := true, jk := old.jk } } s
    let (st, _, _, s1) := if nE = 0 then (JST.AUTH_FAIL, [], 0, s0) else runJob (x % 16) (micJob x u.target nE p (p.drop 21)) s0
    let no (reason h : Nat) : State := installReject i reason h ep u.target (setAssoc x Assoc.free s1)
    if st ≠ JST.OK then no 2 hold
    else if nE = u.nM then no 5 0
    else if old.deny then no 4 hold
    else if duplicateJoin s1 ep x then no 3 hold
    else acceptUp i k x u s1

/-- JOIN_UP of a child (R231, R252, R262): judged where the record is, else kept and passed on to the parent, else rejected. -/
def joinUp (i hops target : Nat) (v : List Byte) (s : State) : State :=
  let b := v.drop 5
  let u : JoinUpIn := ⟨decide (beAt b 0 1 = 0), beAt b 1 6, slice b 7 47, b.drop 54, target⟩
  let ep := beAt u.req 3 8
  if u.req.length ≠ (if u.narrow then 29 else 37) ∨ 1 < beAt b 0 1 then malformed s
  else match findParked s ep with
    | some k => judgeUp i k u s
    | none =>
      if isSet s .asc ASC_CFG.FWD_JOIN && parentActive s then
        forwardStep hops (fun h t =>
          let j : JoinUp := ⟨ep, i, (sfn t + 8 + 4 * getF t .rpt RPT_STATUS.DEPTH) % 2 ^ 32⟩
          let t1 := setMac { t.mac with joinUps := t.mac.joinUps.filter (fun e => decide (e.epId ≠ ep)) ++ [j] } t
          toParent (relayElem 0x12 h target b) (count .rpt RPT_RELAY_FWD_CNT.COUNT t1)) s
      else installReject i 1 (getF s .asc ASC_DEFER.HOLD) ep target s

/-- A forwarded join whose KEY_INSTALL accepts it: link key, salt and session are installed in the JOINING slot, and its JOIN_ACCEPT is put up
unchanged (R231, R262). -/
def installKey (x : Nat) (j : JoinSt) (v : List Byte) (s : State) : State :=
  let a := assoc s x
  let info := beAt v 17 1
  let big := info.testBit 7
  let n := beAt v 14 3 % 2 ^ 20
  let c := { a.c with
    aes256 := big, kgen := info % 8, key := wrapField s.cip.kwk (slice v 18 (if big then 32 else 16)) 40, salt := beAt v 50 4
    peer := 2 ^ 31 + n, epId := j.epId, joinSfn := sfn s, lastRx := sfn s, sup := getF s .asc ASC_CFG.SUP_DEFAULT }
  let s1 := setAssoc x { a with c := c, parked := parkedSize, join := some { j with forwarded := false }, keySfn := sfn s } s
  addFrame { Frame.blank with
    kind := .accept, index := x, ftype := FT.ASSOC, fseq := 5, payload := slice v 56 (beAt v 54 2), prot := false, wave := j.wave
    port := some j.port, due := sfn s, takenAt := sfn s, via := a.lane } (setRoute n (some (true, x)) s1)

/-- KEY_INSTALL from the parent (R262): passed on to the child that the join came from, or installed in the slot that it names. -/
def keyInstall (v : List Byte) (s : State) : State :=
  let ep := beAt v 3 8
  let x := beAt v 11 3 % 2 ^ 20
  let okay := decide (beAt v 0 1 = 0)
  match s.mac.joinUps.find? (fun e => decide (e.epId = ep)) with
  | some e =>
    let s1 := setMac { s.mac with joinUps := s.mac.joinUps.erase e } s
    sendInstall e.child v (if okay then setRoute (beAt v 14 3 % 2 ^ 20) (some (false, e.child)) s1 else s1)
  | none =>
    let a := assoc s x
    match a.join with
    | none => s
    | some j =>
      if a.c.state ≠ CST.JOINING ∨ !j.forwarded ∨ j.epId ≠ ep then s
      else if okay then installKey x j v s
      else
        let f : FrameIn := ⟨decide (j.wave = .nb), false, FT.ASSOC, x, 4, 0, [], j.group, j.ch0, j.ch1, j.tadj, a.c.quality, sfn s, 0, a.lane, false⟩
        rejectJoin x (beAt v 0 1) (beAt v 1 2) f j s

/-- KEY_INSTALL (R262): the first element verified and not yet handled; only a parent sends one. -/
def execKeyInstall (s : State) : Host.Outcome State Fault Refusal :=
  .next (match takeElem EL.KEY_INSTALL s with
    | none => s
    | some (e, s1) => if e.parent && decide (56 ≤ e.value.length) then keyInstall e.value s1 else s1)

/-- JOIN_UP_HOLD_EXPIRY (R262): forwarded joins whose time is over are forgotten. -/
def execJoinUpHoldExpiry (s : State) : Host.Outcome State Fault Refusal :=
  .next (setMac { s.mac with joinUps := s.mac.joinUps.filter (fun e => !reached s e.until_) } s)

/-! End-to-end units (R261). -/

/-- The INNER units of a session that ends here (R261). -/
def sessionUnits (k : Nat) (body : List Byte) (s : State) : State :=
  let c := ctx s k
  let narrow := c.nb && !c.bb
  match parseUnits (tagLen narrow) body.length body with
  | none => malformed s
  | some us => us.foldl (fun t u =>
      let n := 8 + u.ct.length + u.tag.length
      let f : FrameIn := ⟨narrow, false, FT.DATA, k, 0, 0, List.replicate n 0, 0, 0, 0, 0, 0, sfn t, 0, none, true⟩
      if takesFrames (ctx t k).state then (unitIn f k 0 u t).2 else malformed t) s

/-- Whether the session of an index ends here, on the path over a child: its SESSION record names the child. DEDUCED (log 26). -/
def sessionHere (s : State) (i k : Nat) : Bool := (ctx s k).session && decide ((ctx s k).peer % 2 ^ 20 = i)

/-- TREE_UP of a child: its units are the session's here, or go up (R261). -/
def treeUpIn (i hops k : Nat) (body : List Byte) (s : State) : State :=
  if sessionHere s i k then sessionUnits k body s
  else if s.mac.role = 2 then forwardStep hops (fun h t => treeUp h k body t) s
  else malformed s

/-- TREE_DOWN of the parent by the tree route table: wrapped for the endpoint, passed to a child, or discarded (R261). -/
def treeDownIn (hops k : Nat) (body : List Byte) (s : State) : State :=
  match route s k with
  | none => raise .rpt RPT_INT.ROUTE_MISS (count .rpt RPT_ROUTE_MISS_CNT.COUNT s)
  | some (true, x) =>
    let c := ctx s x
    (match parseUnits (tagLen (c.nb && !c.bb)) body.length body with
    | none => malformed s
    | some us => us.foldl (fun t u =>
        addFrame { Frame.blank with
          index := x, body := unitBytes false u.kgen u.ic (u.ct ++ u.tag) u.tag.length, inner := true, due := sfn t } t) s)
  | some (false, x) =>
    forwardStep hops (fun h t => toChild x (relayElem 0x11 h k body) (count .rpt RPT_TREE_FWD_CNT.COUNT t)) s

/-- TREE_END going up (R261). -/
def treeEndUp (i hops k : Nat) (body : List Byte) (s : State) : State :=
  if sessionHere s i k then endRecord false k (beAt body 0 1) s
  else
    let s1 := setRoute k none s
    if parentActive s then forwardStep hops (fun h t => toParent (relayElem 0x13 h k body) (count .rpt RPT_RELAY_FWD_CNT.COUNT t)) s1 else s1

/-- TREE_END going down (R261). -/
def treeEndDown (hops k : Nat) (body : List Byte) (s : State) : State :=
  let s1 := setRoute k none s
  match route s k with
  | none => s
  | some (true, x) => setCtx x { ctx s1 x with peer := 0 } s1
  | some (false, x) => forwardStep hops (fun h t => toChild x (relayElem 0x13 h k body) (count .rpt RPT_RELAY_FWD_CNT.COUNT t)) s1

/-! RELAY elements (R252). -/

/-- PEER_VIA: its content goes to the partner as PEER_FROM (R256). -/
def peerVia (i hops target : Nat) (body : List Byte) (s : State) : State :=
  if !isActive s target then s
  else forwardStep hops (fun h t => toChild target (relayElem 0x07 h i body) (count .rpt RPT_RELAY_FWD_CNT.COUNT t)) s

/-- A RELAY element of an association of the domain; kinds that only a module sends, and reserved ones, are skipped (R252). -/
def relayUp (e : Elem) (s : State) : State :=
  let v := e.value
  let hops := beAt v 1 1
  let target := beAt v 2 3 % 2 ^ 20
  let body := v.drop 5
  match beAt v 0 1 with
  | 0x02 => relayedFrame e.index hops target body s
  | 0x05 =>
    let d := beAt body 0 1
    if 1 ≤ d ∧ d ≤ 4 then setRelay e.index { relay s e.index with bdepth := d } s else s
  | 0x06 => peerVia e.index hops target body s
  | 0x10 => treeUpIn e.index hops target body s
  | 0x12 => joinUp e.index hops target v s
  | 0x13 => treeEndUp e.index hops target body s
  | _ => s

/-- A RELAY element of the parent (R252). -/
def relayDown (e : Elem) (s : State) : State :=
  let v := e.value
  match beAt v 0 1 with
  | 0x11 => treeDownIn (beAt v 1 1) (beAt v 2 3 % 2 ^ 20) (v.drop 5) s
  | 0x13 => treeEndDown (beAt v 1 1) (beAt v 2 3 % 2 ^ 20) (v.drop 5) s
  | _ => s

/-- RELAY_ELEMENT (R252): the first element verified and not yet handled. -/
def execRelayElement (s : State) : Host.Outcome State Fault Refusal :=
  .next (match takeElem EL.RELAY s with
    | none => s
    | some (e, s1) => flushLanes (if e.parent then relayDown e s1 else relayUp e s1))

end Sys2Proof.Machine
end

