-- ==== Sys2Proof/Machine/Tru.lean ====
section
/-!
DEFINITION. Sys2Proof/Machine/Tru.lean: the timing and reference unit: references, selection, switches, states, changes of E and the TRU page
(R344–R365).
-/
namespace Sys2Proof.Machine

/-! States and their estimates (R354, R355). -/

/-- STATE codes (R191). -/
def TQ.LOCKED : Nat := 0
/-- ACQUIRING. -/
def TQ.ACQUIRING : Nat := 1
/-- HOLDOVER. -/
def TQ.HOLDOVER : Nat := 2
/-- FREE-RUN. -/
def TQ.FREERUN : Nat := 3
/-- LOST. -/
def TQ.LOST : Nat := 4

/-- QSTATE codes (R350). -/
def QS.DISABLED : Nat := 0
/-- ABSENT. -/
def QS.ABSENT : Nat := 1
/-- QUALIFYING. -/
def QS.QUALIFYING : Nat := 2
/-- WTR. -/
def QS.WTR : Nat := 3
/-- AVAILABLE. -/
def QS.AVAILABLE : Nat := 4
/-- SELECTED. -/
def QS.SELECTED : Nat := 5

/-- The state with the timing unit changed. -/
def setTru (x : TruSt) (s : State) : State := { s with tru := x }

/-- QSTATE of a reference. -/
def qstate (s : State) (r : Nat) : Nat := getI s .tru REF_STAT.QSTATE r

/-- QSTATE of a reference changed; only WTR shows seconds left. -/
def setQstate (r q : Nat) (s : State) : State :=
  setI .tru REF_STAT.WTR_LEFT r (if q = QS.WTR then getF s .tru TRU_TIMING.WTR else 0) (setI .tru REF_STAT.QSTATE r q s)

/-- The selected reference. -/
def selectedRef (s : State) : Option Nat :=
  let r := getF s .tru TRU_STATUS.SELECTED
  if r = 0xF then none else some r

/-- Whether a reference gives time (R348). -/
def isTimeRef (r : Nat) : Bool := decide (r = 0) || decide (5 ≤ r)

/-- ABSORBED in nanoseconds. -/
def absorbed (s : State) : Int := signedOf 32 (getF s .tru TRU_ABSORBED.VALUE)

/-- ABSORBED changed. -/
def setAbsorbed (v : Int) (s : State) : State := setF .tru TRU_ABSORBED.VALUE (ofSigned 32 v) s

/-- Whether a switch is in progress. -/
def switching (s : State) : Bool := isSet s .tru TRU_STATUS.SWITCHING

/-- Samples of module time in a day. -/
def daySamples : Nat := 17280000000000

/-- TE_EST in nanoseconds now, with Θ in tenths of a nanosecond (R355). -/
def teNow (s : State) (theta : Nat) : Nat :=
  let x := slotTime s - s.tru.teFrom
  let st := tq s
  let k := if st = TQ.LOST then s.tru.base else st
  if k = TQ.HOLDOVER then s.tru.teEntry + (750 * x * daySamples + 750 * x * x) / (daySamples * daySamples) + theta / 10
  else if k = TQ.FREERUN then s.tru.teEntry + x / 200000000 + theta / 10
  else match selectedRef s with
    | some r => if isTimeRef r then getI s .tru REF_CFG.TE_REF r + s.tru.phase.natAbs else s.tru.teEntry + 100
    | none => s.tru.teEntry

/-- TRU_TE_EST, STATUS.TE_OVER with its interrupt (R355). -/
def showTe (theta : Nat) (s : State) : State :=
  if !isSet s .tru TRU_STATUS.ALIGNED then setB .tru TRU_STATUS.TE_OVER false (setF .tru TRU_TE_EST.VALUE 0xFFFFFFFF s)
  else
    let te := teNow s theta
    let exceeded := decide (getF s .tru TRU_CFG.TE_BUDGET * 100 < te) && decide (tq s ≤ TQ.ACQUIRING)
    let s1 := setF .tru TRU_TE_EST.VALUE (min te 0xFFFFFFFE) s
    if exceeded && !isSet s .tru TRU_STATUS.TE_OVER then raise .tru TRU_INT.TE_OVER (setB .tru TRU_STATUS.TE_OVER true s1)
    else setB .tru TRU_STATUS.TE_OVER exceeded s1

/-- TRU time recorded against the real-time counter at a change of state (R76). -/
def recordTru (s : State) : State := setTru { s.tru with recorded := some (truNs s (slotTime s), s.time.rtc) } s

/-- TRU time is related to the real-time counter at a change of the TRU state (kind 0) or of the power state (kind 1): a TIME_LINK record (R76, R433). -/
def linkTime (kind old new : Nat) (s : State) : State :=
  if s.time.running then logEvent 0x0681 0 [kind, old, new] (recordTru s) else s

/-- A change of the TRU state, raised and logged (R354); the estimate restarts from its value at entry, which LOST alone continues (R355). -/
def setTruState (st theta : Nat) (s : State) : State :=
  let old := tq s
  if old = st then s
  else
    let te := teNow s theta
    let s1 := setF .tru TRU_STATUS.STATE st s
    let s2 := if st = TQ.LOST then setTru { s1.tru with base := old } s1
      else if old = TQ.ACQUIRING ∧ st = TQ.LOCKED then s1
      else setTru { s1.tru with teEntry := te, teFrom := slotTime s, base := st } s1
    linkTime 0 old st (logPage .tru TRU_INT.STATE_CHANGE [old, st] (raise .tru TRU_INT.STATE_CHANGE (showTe theta s2)))

/-! Selection and switches (R350, R351, R358). -/

/-- Whether a reference may be selected at all: the PAIR reference only in a STANDBY (R407). -/
def refUsable (s : State) (r : Nat) : Bool := decide (r ≠ 6) || standby s

/-- The better of two references: lower PRIO, then the lower number. -/
def betterRef (s : State) (a : Option Nat) (r : Nat) : Option Nat :=
  match a with
  | none => some r
  | some k => if getI s .tru REF_CFG.PRIO r < getI s .tru REF_CFG.PRIO k then some r else some k

/-- The reference that R351 would take of those AVAILABLE or SELECTED in AUTO. -/
def bestRef (s : State) : Option Nat :=
  ((List.range 8).filter (fun r => (decide (qstate s r = QS.AVAILABLE) || decide (qstate s r = QS.SELECTED)) &&
    decide (getI s .tru REF_CFG.PRIO r ≠ 7) && refUsable s r)).foldl (betterRef s) none

/-- The reference that selection chooses (R351); a selected one is kept in AUTO unless a better one may replace it. -/
def chosenRef (s : State) : Option Nat :=
  match getF s .tru TRU_CFG.MODE with
  | 0 =>
    match selectedRef s, bestRef s with
    | some k, some r =>
      if isSet s .tru TRU_CFG.REVERT && decide (getI s .tru REF_CFG.PRIO r < getI s .tru REF_CFG.PRIO k) then some r else some k
    | some k, none => some k
    | none, b => b
  | 1 =>
    let r := getF s .tru TRU_CFG.MANUAL_REF
    if QS.WTR ≤ qstate s r ∧ refUsable s r then some r else none
  | _ => none

/-- A slew stops with ABSORBED as it is (R362, R363). -/
def stopSlew (s : State) : State := setB .tru TRU_STATUS.SLEWING false s

/-- The selection of a reference ends, and it is AVAILABLE again unless it was moved elsewhere before. -/
def deselect (s : State) : State :=
  match selectedRef s with
  | none => s
  | some r =>
    let s1 := if qstate s r = QS.SELECTED then setQstate r QS.AVAILABLE s else s
    setB .tru TRU_STATUS.SWITCHING false (setF .tru TRU_STATUS.SELECTED 0xF s1)

/-- A switch to a reference begins (R358). -/
def startSwitch (r : Nat) (s : State) : State :=
  let s1 := setQstate r QS.SELECTED (deselect s)
  stopSlew (setB .tru TRU_STATUS.SWITCHING true (setF .tru TRU_STATUS.SELECTED r s1))

/-- HO_FREQ and HOLDOVER, or FREE-RUN without enough clean history (R354, R356). -/
def holdOver (h : TruHold) (s : State) : State :=
  if getF s .tru TRU_TIMING.HO_MIN ≤ h.locked.toNat then
    setTruState TQ.HOLDOVER h.theta.toNat (setF .tru TRU_HO_FREQ.VALUE h.mean.toNat s)
  else setTruState TQ.FREERUN h.theta.toNat s

/-- Selection runs (R351, R354): a new choice begins a switch; where none is chosen, ACQUIRING and LOCKED end. -/
def reselect (h : TruHold) (s : State) : State :=
  match chosenRef s with
  | some r => if selectedRef s = some r then s else startSwitch r s
  | none =>
    let s1 := deselect s
    if tq s1 ≤ TQ.ACQUIRING then
      (if getF s1 .tru TRU_CFG.MODE = 3 then setTruState TQ.FREERUN h.theta.toNat s1 else holdOver h s1)
    else s1

/-- What was measured is kept, for TE_EST. -/
def measured (h : TruHold) (s : State) : State :=
  match selectedRef s with
  | some r => if isTimeRef r then setTru { s.tru with phase := signedOf 32 h.phase.toNat } s else s
  | none => s

/-- Selection after a reference may have become selectable: while a switch is in progress it waits for its end (R362). -/
def available (h : TruHold) (s : State) : State := if switching s then s else reselect h (measured h s)

/-! The references (R348–R350). -/

/-- REF_FREQ and REF_PHASE as measured; a frequency reference shows no phase. -/
def showRef (r : Nat) (freq phase : Word) (s : State) : State :=
  setI .tru REF_PHASE.PHASE r (if isTimeRef r then phase.toNat else 0x80000000) (setI .tru REF_FREQ.FREQ r freq.toNat s)

/-- Whether no reference steers and none is about to (R350). -/
def noneSelected (s : State) : Bool := (selectedRef s).isNone

/-- REF_QUALIFIED (R349, R350): a reference that is present and within FREQ_TOL. -/
def refQualified (r : Nat) (freq phase : Word) (h : TruHold) (s : State) : State :=
  let q := qstate s r
  if (q ≠ QS.ABSENT ∧ q ≠ QS.QUALIFYING) ∨ getI s .tru REF_QUAL.FREQ_TOL r * 100 < (signedOf 32 freq.toNat).natAbs then s
  else
    let s1 := raise .tru TRU_INT.QUALIFIED (showRef r freq phase s)
    if !s.tru.disq.contains r || noneSelected s || decide (getF s .tru TRU_TIMING.WTR = 0) then available h (setQstate r QS.AVAILABLE s1)
    else
      let s2 := setQstate r QS.WTR s1
      if getF s .tru TRU_CFG.MODE = 1 then available h s2 else s2

/-- REF_QUALIFIED (R350). -/
def execRefQualified (r : Ref) (freq phase : Word) (h : TruHold) (s : State) : Host.Outcome State Fault Refusal :=
  .next (refQualified r.val freq phase h s)

/-- A reference leaves the qualified states: DISQUALIFIED is raised, and a selection of it ends (R349, R354). -/
def disqualify (r q : Nat) (h : TruHold) (s : State) : State :=
  let was := decide (selectedRef s = some r)
  let s0 := if was then measured h s else s
  let s1 := setTru { s0.tru with disq := if s.tru.disq.contains r then s.tru.disq else s.tru.disq ++ [r] } s0
  let s2 := raise .tru TRU_INT.DISQUALIFIED (setQstate r q s1)
  if was then reselect h (deselect s2) else s2

/-- REF_DISQUALIFIED (R349). -/
def execRefDisqualified (r : Ref) (freq phase : Word) (h : TruHold) (s : State) : Host.Outcome State Fault Refusal :=
  .next (if qstate s r.val < QS.WTR then s else disqualify r.val QS.QUALIFYING h (showRef r.val freq phase s))

/-- Whether a reference has its input, where a register of the module shows it (R348). -/
def refPresent (s : State) (r : Nat) : Bool :=
  if 1 ≤ r ∧ r ≤ 4 then isSet s (lanPage (r - 1)) LAN_STATUS.BLOCK_LOCK
  else if r = 6 then peerUp s
  else if r = 7 then isSet s .rpt RPT_PARENT.BEACON_OK
  else false

/-- REF_LOSS_OF_SIGNAL (R348, R349): a reference whose input is shown to be present has none. -/
def refLost (r : Nat) (h : TruHold) (s : State) : State :=
  let q := qstate s r
  if q ≤ QS.ABSENT ∨ (refPresent s r ∧ r ≠ 7) then s
  else
    let s1 := setI .tru REF_PHASE.PHASE r 0x80000000 s
    if q = QS.QUALIFYING then setQstate r QS.ABSENT s1 else disqualify r QS.ABSENT h s1

/-- REF_LOSS_OF_SIGNAL (R348). -/
def execRefLossOfSignal (r : Ref) (h : TruHold) (s : State) : Host.Outcome State Fault Refusal := .next (refLost r.val h s)

/-- WTR_EXPIRY (R350). -/
def execWtrExpiry (r : Ref) (h : TruHold) (s : State) : Host.Outcome State Fault Refusal :=
  .next (if qstate s r.val = QS.WTR then available h (setQstate r.val QS.AVAILABLE s) else s)

/-- The end of a switch (R354, R358, R359): the phase is absorbed, or aligns TRU time at the next slot 512; then selection runs again for what came
meanwhile (R362). -/
def switchDone (phase : Word) (h : TruHold) (s : State) : State :=
  match selectedRef s with
  | none => s
  | some r =>
    let v := signedOf 32 phase.toNat
    let first := isTimeRef r && isSet s .tru TRU_CFG.AUTO_ALIGN && !isSet s .tru TRU_STATUS.ALIGNED
    let te := teNow s h.theta.toNat
    let s1 := setB .tru TRU_STATUS.SWITCHING false s
    let s2 :=
      if !isTimeRef r then s1
      else
        let t := setI .tru REF_PHASE.PHASE r phase.toNat s1
        if first then setTru { t.tru with alignBy := some v, phase := 0 } t else setAbsorbed v (setTru { t.tru with phase := v } t)
    let s3 := raise .tru TRU_INT.SWITCHED s2
    let s4 := setTruState TQ.ACQUIRING h.theta.toNat s3
    let s5 := showTe h.theta.toNat (setTru { s4.tru with teEntry := te, teFrom := slotTime s } s4)
    reselect h s5

/-- SWITCH_COMPLETE (R358). -/
def execSwitchComplete (phase : Word) (h : TruHold) (s : State) : Host.Outcome State Fault Refusal :=
  .next (if switching s then switchDone phase h s else s)

/-- TRU_LOCKED (R353): with a time reference the phase error is within 100 ns. -/
def execTruLocked (phase : Word) (s : State) : Host.Outcome State Fault Refusal :=
  let v := signedOf 32 phase.toNat
  .next (match selectedRef s with
    | none => s
    | some r =>
      if tq s ≠ TQ.ACQUIRING ∨ switching s ∨ (isTimeRef r ∧ 100 < (v - absorbed s).natAbs) then s
      else setTruState TQ.LOCKED 0 (if isTimeRef r then setI .tru REF_PHASE.PHASE r phase.toNat (setTru { s.tru with phase := v } s) else s))

/-- TRU_LOST (R354): the estimate of HOLDOVER or FREE-RUN exceeds the budget; a switch in progress wins. -/
def execTruLost (theta : Word) (s : State) : Host.Outcome State Fault Refusal :=
  .next (if (tq s = TQ.HOLDOVER ∨ tq s = TQ.FREERUN) ∧ isSet s .tru TRU_STATUS.ALIGNED ∧ !switching s ∧
      getF s .tru TRU_CFG.TE_BUDGET * 100 < teNow s theta.toNat then
    setTruState TQ.LOST theta.toNat (showTe theta.toNat s) else s)

/-- TE_BUDGET_EXCEEDED (R355): the mean of REF_PHASE takes the estimate of ACQUIRING or LOCKED over the budget. -/
def execTeBudgetExceeded (h : TruHold) (s : State) : Host.Outcome State Fault Refusal :=
  .next (if tq s ≤ TQ.ACQUIRING then showTe h.theta.toNat (measured h s) else s)

/-- SLEW_DONE (R360). -/
def execSlewDone (s : State) : Host.Outcome State Fault Refusal :=
  .next (if isSet s .tru TRU_STATUS.SLEWING then
    showTe 0 (raise .tru TRU_INT.ALIGN_DONE (setB .tru TRU_STATUS.ALIGNED true (setAbsorbed 0 (stopSlew s)))) else s)

/-! Writes (R350–R352, R354). -/

/-- MODE or MANUAL_REF written (R351, R354): a switch in progress completes first (R362). -/
def applyMode (h : TruHold) (s : State) : State :=
  if switching s then s
  else match getF s .tru TRU_CFG.MODE with
    | 2 => if tq s = TQ.HOLDOVER ∧ noneSelected s then s else holdOver h (deselect (measured h s))
    | 3 => setTruState TQ.FREERUN h.theta.toNat (deselect (measured h s))
    | _ => reselect h (measured h s)

/-- TRU_MODE_WRITE: a write of TRU_CFG (R354). -/
def execTruModeWrite (value : Word) (h : TruHold) (s : State) : Host.Outcome State Fault Refusal :=
  let s1 := writeFields .tru 0x100 value s
  let same := decide (getF s1 .tru TRU_CFG.MODE = getF s .tru TRU_CFG.MODE) && decide (getF s1 .tru TRU_CFG.MANUAL_REF = getF s .tru TRU_CFG.MANUAL_REF)
  .next (if same then s1 else applyMode h s1)

/-- The bandwidth codes that a reference permits (R348). -/
def bwOk (r bw : Nat) : Bool :=
  if r = 0 then decide (bw ≤ 6)
  else if r ≤ 4 then decide (2 ≤ bw) && decide (bw ≤ 6)
  else if r = 5 then decide (bw ≤ 3)
  else if r = 6 then decide (1 ≤ bw) && decide (bw ≤ 5)
  else decide (bw ≤ 1)

/-- REF_CFG_WRITE (R350, R352): EN starts or disables the reference; a BW that is not permitted stays as it was and counts an error. -/
def refCfg (r : Nat) (value : Word) (h : TruHold) (s : State) : State :=
  let on := getI s .tru REF_CFG.EN r = 1
  let bw := getI s .tru REF_CFG.BW r
  let s1 := writeFields .tru (REF_CFG.EN.offAt r) value s
  let s2 := if bwOk r (getI s1 .tru REF_CFG.BW r) then s1 else countErr .tru (setI .tru REF_CFG.BW r bw s1)
  let now := getI s2 .tru REF_CFG.EN r = 1
  if on ∧ ¬now then
    let was := decide (selectedRef s = some r)
    let s3 := setI .tru REF_PHASE.PHASE r 0x80000000 (setQstate r QS.DISABLED s2)
    if was then reselect h (deselect (measured h s3)) else s3
  else if ¬on ∧ now then setQstate r (if refPresent s r then QS.QUALIFYING else QS.ABSENT) s2
  else s2

/-- REF_CFG_WRITE (R350). -/
def execRefCfgWrite (r : Ref) (value : Word) (h : TruHold) (s : State) : Host.Outcome State Fault Refusal := .next (refCfg r.val value h s)

/-! Commands (R360, R365). -/

/-- Whether a time reference is selected. -/
def timeSelected (s : State) : Bool := (selectedRef s).elim false isTimeRef

/-- REALIGN: a STEP waits for the next slot 512; a SLEW begins. -/
def runRealign (o : Outstanding) (s : State) : State :=
  if !timeSelected s || decide (TQ.ACQUIRING < tq s) || switching s then done .tru CODE.REFUSED s
  else if o.a0.toNat.testBit 0 then done .tru CODE.OK (setB .tru TRU_STATUS.SLEWING true s)
  else setPhase .tru 1 (stopSlew s)

/-- REALIGN, TRU command 0x0001 (R360). -/
def execRealign (src : CmdSrc) (s : State) : Host.Outcome State Fault Refusal := .next (issue .tru 0x0001 src runRealign s)

/-- The TRU time of a SET_TIME's arguments in nanoseconds. -/
def setTimeNs (o : Outstanding) (ns : Nat) : Int := ((getBits o.a0 15 0 * 2 ^ 32 + o.a1.toNat) * 1000000000 + ns : Nat)

/-- The E that makes TRU time a value at a sample of the present slot (R344). -/
def eFor (s : State) (ns : Int) (at_ : Nat) : Int := ns - 5 * ((slotTime s + at_ : Nat) : Int)

/-- SET_TIME: E is computed for the instant of issue, or waits for a TIN_PPS edge. -/
def runSetTime (at_ : Nat) (o : Outstanding) (s : State) : State :=
  let pps := o.a0.toNat.testBit 31
  if !pps ∧ 1000000000 ≤ o.a2.toNat then done .tru CODE.BAD_ARG s
  else if timeSelected s then done .tru CODE.REFUSED s
  else if pps then s
  else setPhase .tru 1 (setTru { s.tru with setTo := some (eFor s (setTimeNs o o.a2.toNat) at_) } s)

/-- SET_TIME, TRU command 0x0002 (R365): `at_` is the sample of the present slot at which it is issued. -/
def execSetTime (src : CmdSrc) (at_ : Fin 204800) (s : State) : Host.Outcome State Fault Refusal :=
  .next (issue .tru 0x0002 src (runSetTime at_.val) s)

/-- The outstanding SET_TIME that waits for an edge. -/
def awaitsPps (s : State) : Option Outstanding :=
  match outstanding s .tru with
  | some o => if o.opcode = 2 ∧ o.a0.toNat.testBit 31 ∧ o.phase = 0 then some o else none
  | none => none

/-- TIN_PPS_EDGE (R365): the edge's sample in the present slot fixes the E of a SET_TIME with AT_PPS. -/
def execTinPpsEdge (at_ : Fin 204800) (s : State) : Host.Outcome State Fault Refusal :=
  .next (match awaitsPps s with
    | some o => setPhase .tru 1 (setTru { s.tru with setTo := some (eFor s (setTimeNs o 0) at_.val) } s)
    | none => s)

/-- SET_TIME_PPS_TIMEOUT (R365). -/
def execSetTimePpsTimeout (s : State) : Host.Outcome State Fault Refusal :=
  .next (if (awaitsPps s).isSome then done .tru CODE.TIMEOUT s else s)

/-- CAPTURE: TRU time and MT at one sample. -/
def runCapture (at_ : Nat) (_ : Outstanding) (s : State) : State :=
  let mt := slotTime s + at_
  let t := truNs s mt
  let sec := (t / 1000000000 % (2 ^ 48 : Int)).toNat
  let s1 := setF .tru TRU_CAP_S_HI.VALUE (sec / 2 ^ 32) (setF .tru TRU_CAP_S_LO.VALUE (sec % 2 ^ 32) s)
  let s2 := setF .tru TRU_CAP_NS.VALUE (t % 1000000000).toNat s1
  done .tru CODE.OK (setF .tru TRU_CAP_MT_HI.VALUE (mt / 2 ^ 32 % 2 ^ 32) (setF .tru TRU_CAP_MT_LO.VALUE (mt % 2 ^ 32) s2))

/-- CAPTURE, TRU command 0x0003 (R365). -/
def execCapture (src : CmdSrc) (at_ : Fin 204800) (s : State) : Host.Outcome State Fault Refusal :=
  .next (issue .tru 0x0003 src (runCapture at_.val) s)

/-- END_WTR. -/
def runEndWtr (h : TruHold) (o : Outstanding) (s : State) : State :=
  let r := o.a0.toNat
  if 7 < r then done .tru CODE.BAD_ARG s
  else if qstate s r ≠ QS.WTR then done .tru 0x80 s
  else done .tru CODE.OK (available h (setQstate r QS.AVAILABLE s))

/-- END_WTR, TRU command 0x0004 (R365). -/
def execEndWtr (src : CmdSrc) (h : TruHold) (s : State) : Host.Outcome State Fault Refusal := .next (issue .tru 0x0004 src (runEndWtr h) s)

/-- The abort of REALIGN STEP or SET_TIME before E changes (R365); the other commands have no safe point. -/
def abortTru (s : State) : State := done .tru CODE.ABORTED (setTru { s.tru with setTo := none } s)

/-! Changes of E (R344, R359, R360, R407). -/

/-- E changed: TIME_STEP is raised and the size of the step logged; every phase is referred to the TRU time in force (R355). -/
def stepE (e : Int) (s : State) : State :=
  let d := e - s.tru.e
  let n := ofSigned 64 d
  let s1 := setTru { s.tru with e := e, phase := s.tru.phase - d } s
  let s2 := (List.range 8).foldl (fun t r =>
    let p := getI t .tru REF_PHASE.PHASE r
    if p = 0x80000000 then t else setI .tru REF_PHASE.PHASE r (ofSigned 32 (signedOf 32 p - d)) t) s1
  logPage .tru TRU_INT.TIME_STEP [n / 2 ^ 32, n % 2 ^ 32] (raise .tru TRU_INT.TIME_STEP s2)

/-- The initial alignment (R359). -/
def applyAlign (s : State) : State :=
  match s.tru.alignBy with
  | none => s
  | some d =>
    let s1 := stepE (s.tru.e + d) (setTru { s.tru with alignBy := none, phase := d } s)
    setB .tru TRU_STATUS.ALIGNED true (setAbsorbed 0 s1)

/-- A REALIGN STEP, or a SET_TIME whose E is known (R360, R365). -/
def applyCommand (s : State) : State :=
  match outstanding s .tru with
  | none => s
  | some o =>
    if o.phase ≠ 1 then s
    else if o.opcode = 1 then
      done .tru CODE.OK (setB .tru TRU_STATUS.ALIGNED true (setAbsorbed 0 (stepE (s.tru.e + absorbed s) s)))
    else match s.tru.setTo with
      | none => s
      | some e => done .tru CODE.OK (setB .tru TRU_STATUS.ALIGNED false (stepE e (setTru { s.tru with setTo := none } s)))

/-- A STANDBY's copy of the ACTIVE's E (R407). -/
def applyCopy (s : State) : State :=
  match s.tru.copyTo with
  | none => s
  | some e =>
    let s1 := setTru { s.tru with copyTo := none } s
    if e = s.tru.e ∨ !standby s then s1 else stepE e s1

/-- What a slot 512 does to E, before its plan is fixed (R344). -/
def changeE (s : State) : State :=
  let t := applyCommand (applyAlign (applyCopy s))
  if t.tru.e = s.tru.e ∧ getF t .tru TRU_STATUS.ALIGNED = getF s .tru TRU_STATUS.ALIGNED then t else showTe 0 t

/-- The setting of E at stage 0x0C (R345): TRU time goes on from the last recorded one by the counter's elapsed time, or starts from 0. -/
def startTru (s : State) : State :=
  let now := slotTime s
  let e : Int := match s.tru.recorded with
    | some (t, c) => if s.time.rtcValid then t + (((s.time.rtc - c) * 1000000000 / 76800 : Nat) : Int) - 5 * (now : Int) else -5 * (now : Int)
    | none => -5 * (now : Int)
  setF .tru TRU_STEER.VALUE s.tru.saved.toNat (setTru { s.tru with e := e } s)

/-- OSCILLATOR_MODEL_SAVE (R345): the last steering value is kept for the next start. -/
def execOscillatorModelSave (steer : Word) (s : State) : Host.Outcome State Fault Refusal :=
  .next (setF .tru TRU_STEER.VALUE steer.toNat (setTru { s.tru with saved := steer } s))

/-- OVEN_READY (R77). -/
def execOvenReady (s : State) : Host.Outcome State Fault Refusal := .next (setB .tru TRU_STATUS.OVEN_READY true s)

/-- TRU_BLK_RESET (R363). -/
def execTruBlkReset (s : State) : Host.Outcome State Fault Refusal :=
  .next (blkReset .tru [] (stopSlew (setTru { s.tru with setTo := none } s)))

/-- The PAIR reference deselected at a takeover or a role swap (R407, R409). -/
def dropPairRef (h : TruHold) (s : State) : State :=
  if selectedRef s = some 6 then reselect h (deselect (measured h s)) else s

end Sys2Proof.Machine
end

