-- ==== Sys2Proof/Machine/Pair.lean ====
section
/-!
DEFINITION. Sys2Proof/Machine/Pair.lean: the redundant pair: mirror frames, resynchronisation, takeover, handover and the PAIR page
(R399–R414).
-/
namespace Sys2Proof.Machine

/-- The state with the pair logic changed. -/
def setPair (x : PairSt) (s : State) : State := { s with pair := x }

/-- STATUS.SYNC: 0 none, 1 SYNCING, 2 SYNCED, 3 DETACHED. -/
def pairSync (s : State) : Nat := getF s .pair PAIR_STATUS.SYNC

/-- STATUS.SYNC set. -/
def setSync (n : Nat) (s : State) : State := setF .pair PAIR_STATUS.SYNC n s

/-! What the ACTIVE sends (R404, R406). -/

/-- A beacon key as the mirror carries it. -/
def mirrorKey (k : BeaconKey) : MirrorKey := ⟨k.key, BitVec.ofNat 32 k.salt, BitVec.ofNat 3 k.gen, k.last.map (BitVec.ofNat 40)⟩

/-- BEACON_STATE (R404): the beacon ports of eight superframes on, from an SFN that 8 divides. -/
def beaconState (s : State) : BeaconState :=
  { sfn := BitVec.ofNat 32 (sfn s), domain := BitVec.ofNat 14 s.bcn.domain
    cur := ⟨BitVec.ofNat 61 (nbMap s), BitVec.ofNat 27 (getF s .bcn BCN_RU_MAP_CUR.RUS), BitVec.ofNat 2 s.bcn.bw, BitVec.ofNat 2 s.bcn.cper⟩
    next := ⟨BitVec.ofNat 61 (pendingNbMap s), BitVec.ofNat 27 (getF s .bcn BCN_RU_MAP.RUS), BitVec.ofNat 2 (getF s .bcn BCN_CFG.BW),
      BitVec.ofNat 2 (getF s .bcn BCN_CFG.BB_CPER)⟩
    epoch := s.bcn.epoch.map (BitVec.ofNat 32), rounds := (List.range 8).map (fun n => (beaconPorts s n).map (Fin.ofNat 52))
    key := s.mac.bkey.map mirrorKey, keyNext := s.mac.bnext.map (fun e => (mirrorKey e.1, BitVec.ofNat 32 e.2)) }

/-- BEACON_STATE sent (R404). -/
def sendBeaconState (s : State) : State := if pairRole s = 1 ∧ peerUp s then sendMirror (.beaconState (beaconState s)) s else s

/-- The AUX items and records of a full resynchronisation, in order (R406). -/
def resyncBodies (s : State) : List MirrorBody :=
  (s.mac.table.filter (fun e => decide (e.2.c.state ≠ CST.FREE))).map (fun e => .ctxDelta (BitVec.ofNat 20 e.1) 0 (mirrorBytes s e.1 e.2.c)) ++
  s.mac.relays.map (fun e => .relayDelta (BitVec.ofNat 20 e.1) e.2.bytes) ++
  s.bbw.tmaps.flatMap (fun e => (e.cur.toList).map (fun m =>
    .tmapDelta (BitVec.ofNat 20 e.addr) e.down (Fin.ofNat 52 e.port) (mapBytes m e.down 0))) ++
  s.mac.routes.map (fun e => .routeDelta (BitVec.ofNat 20 e.1) (BitVec.ofNat 32 (2 ^ 31 + bitIf e.2.1 30 + e.2.2))) ++
  [.parentDelta (parentActive s) (BitVec.ofNat 20 s.mac.parent.index) (mirrorBytes s s.mac.parent.index s.mac.parent.link)] ++
  s.cip.groups.map (fun e => .groupDelta (Fin.ofNat 16 e.1) (BitVec.ofNat 40 e.2.count)) ++ [.beaconState (beaconState s)]

/-- A full resynchronisation (R406): every record and AUX item, then SYNC_DONE, whose acknowledgement ends it. -/
def startResync (s : State) : State :=
  let l := resyncBodies s
  let n := (slotsWhere s (fun a => decide (a.c.state ≠ CST.FREE))).length
  let s1 := l.foldl (fun t b => sendMirror b t) (setSync 1 s)
  let s2 := sendMirror (.syncDone (BitVec.ofNat 32 n)) s1
  setF .pair PAIR_SYNC_PROG.VALUE n (setPair { s2.pair with syncSeq := some (s2.pair.seq - 1) } s2)

/-! Roles (R400, R401). -/

/-- A STANDBY empties its copies when a resynchronisation begins; what is not yet synchronised is FREE (R406, R409). DESIGN CHOICE (log 29). -/
def clearCopies (s : State) : State :=
  refreshTable (setF .pair PAIR_SYNC_PROG.VALUE 0 (setMac { s.mac with table := [], relays := [], routes := [], elems := [], joinUps := [] }
    { s with bbw := { s.bbw with tmaps := [], tadj := [] } }))

/-- A STANDBY begins to be synchronised. -/
def beginSync (s : State) : State := setSync 1 (clearCopies s)

/-- STATUS.ROLE and the Hedgehog's hold-off (R401). -/
def pairBecomes (r : Nat) (s : State) : State := setB .pair PAIR_STATUS.HOLD_OFF (decide (2 ≤ r)) (setF .pair PAIR_STATUS.ROLE r s)

/-- The module becomes STANDBY: its transmissions end ABORTED, what it planned and held is gone (R401, R411, R413). -/
def becomeStandby (s : State) : State :=
  let s1 := endTx (fun _ => true) BST.ABORTED s
  let s2 := { s1 with plan := { s1.plan with items := [], grants := [], cells := [], lanes := [] } }
  pairBecomes 2 (setMac { s2.mac with frames := s2.mac.frames.filter (fun f => decide (f.kind = .host)), elems := [] } s2)

/-- A STANDBY of the role settlement (R400): SYNCING with the peer's heartbeat, else DETACHED. -/
def settleStandby (s : State) : State := if peerUp s then beginSync (pairBecomes 2 s) else setSync 3 (pairBecomes 2 s)

/-- Whether the module is in stage 0x0E with its role not yet settled. -/
def unsettled (s : State) : Bool := decide (pairRole s = 3) && decide (getF s .boot BOOT_STATUS.STAGE = 0x0E)

/-! Heartbeats (R404, R407, R408, R413). -/

/-- HEARTBEAT_SEND (R404). -/
def heartbeatSend (s : State) : State :=
  sendMirror (.heartbeat (BitVec.ofNat 2 (pairRole s)) (BitVec.ofNat 2 (pairSync s)) (BitVec.ofNat 4 (tq s)) (BitVec.ofNat 64 (slotTime s))
    (BitVec.ofNat 64 s.pair.peerMt) (BitVec.ofNat 64 s.pair.peerArrival)) s

/-- HEARTBEAT_SEND (R404). -/
def execHeartbeatSend (s : State) : Host.Outcome State Fault Refusal := .next (heartbeatSend s)

/-- PAIR_LINK_DLY in nanoseconds from the stamps of a heartbeat, as in R373 (R407): own sending and the peer's arrival, the peer's sending and the own
arrival. -/
def linkDelay (own arrived sent got : Nat) : Nat :=
  ((((got : Int) - own) - ((sent : Int) - arrived)) * 5 / 2).toNat

/-- The own superframe grid of a STANDBY follows the ACTIVE's SFN, and, while it has not beaconed since its start, its superframe starts by one step
(R407). -/
def followGrid (k mt : Nat) (s : State) : State :=
  let slot := if s.pair.beaconed then s.time.slot else mt % 209715200 / 204800
  if sfn s = k ∧ slot = s.time.slot then s
  else setF .bcn BCN_SFN.SFN k { s with time := { s.time with sfStart := k * 209715200, slot := slot } }

/-- Both modules ACTIVE (R413): the higher EPOCH stays, on equal EPOCH UNIT A; the other becomes STANDBY and is synchronised again. -/
def resolveRoles (epoch : Nat) (s : State) : State :=
  let mine := getF s .pair PAIR_EPOCH.VALUE
  if mine < epoch ∨ (mine = epoch ∧ s.pair.unit) then beginSync (becomeStandby s) else s

/-- What a heartbeat means for the own role (R400, R406, R413). -/
def heartbeatRole (role sync epoch : Nat) (both : Bool) (s : State) : State :=
  if unsettled s then
    if role = 1 then settleStandby s
    else if role = 3 ∧ both then (if s.pair.unit then settleStandby s else pairBecomes 1 s)
    else s
  else if pairRole s = 1 ∧ role = 1 then resolveRoles epoch s
  else if pairRole s = 1 ∧ role = 2 ∧ sync = 1 ∧ pairSync s ≠ 1 then startResync s
  else if standby s ∧ role = 1 ∧ (pairSync s = 3 ∨ pairSync s = 0) then beginSync s
  else s

/-- A valid heartbeat (R404, R407, R408). -/
def heartbeatIn (m : MirrorMsg) (role sync mt lastMt arrival stamp : Nat) (s : State) : State :=
  let s1 := setPair { s.pair with peerRole := role, peerMt := mt, peerArrival := stamp, guarded := false } s
  let s2 := if peerUp s then s1 else raise .pair PAIR_INT.PEER_FOUND (setB .pair PAIR_STATUS.HB_OK true s1)
  let s3 := heartbeatRole role sync m.epoch.toNat (decide (lastMt ≠ 0)) s2
  if standby s3 ∧ role = 1 then
    let s4 := if lastMt = 0 then s3 else setF .pair PAIR_LINK_DLY.VALUE (linkDelay lastMt arrival mt stamp) s3
    setF .pair PAIR_EPOCH.VALUE m.epoch.toNat (if s4.time.running then followGrid m.sfn.toNat mt s4 else s4)
  else s3

/-- HEARTBEAT_LOSS (R408, R413): 5 heartbeats missed. A HANDOVER is refused, and what waited for the mirror goes on. -/
def heartbeatLoss (s : State) : State :=
  if !peerUp s then s
  else
    let s1 := raise .pair PAIR_INT.PEER_LOST (countN .pair PAIR_HB_MISS_CNT.COUNT 5 (setB .pair PAIR_STATUS.HB_OK false s))
    let s2 := match outstanding s1 .pair with
      | some o => if o.opcode = 1 then done .pair CODE.REFUSED s1 else s1
      | none => s1
    let s3 := setPair { s2.pair with swapAt := none } s2
    releaseAcked (s3.cip.held.foldl (fun t h =>
      let (h1, t1) := resumeHeld h t
      setHeldJobs (t1.cip.held.map (fun g => if g = h then h1 else g)) t1) s3)

/-- HEARTBEAT_LOSS (R408). -/
def execHeartbeatLoss (s : State) : Host.Outcome State Fault Refusal := .next (heartbeatLoss s)

/-! What a STANDBY applies (R404, R405, R407). -/

/-- A key field wrapped from its plain form; zeros stand for no key (R404). -/
def wrapPlain (kek field : List Byte) (big : Bool) (n : Nat) : List Byte :=
  if noField field then List.replicate n 0 else wrapField kek (field.take (if big then 32 else 16)) n

/-- A record as a mirror delta gives it, its keys wrapped under the own keys (R326, R404). -/
def ofMirror (s : State) (l : List Byte) : Ctx :=
  let c := ofCtxBytes l
  { c with
    key := wrapPlain s.cip.kwk (slice l 0x78 40) c.aes256 40, keyPrev := wrapPlain s.cip.kwk (slice l 0xA0 40) c.aes256 40
    jk := wrapPlain s.cip.swk (slice l 0xC8 24) false 24 }

/-- CTX_DELTA applied: the record changes; within one key IC_TX never falls below its copy's block end (R405). -/
def applyCtx (i o : Nat) (data : List Byte) (s : State) : State :=
  let a := assoc s i
  let l := mirrorBytes s i a.c
  let c := ofMirror s (l.take o ++ data ++ l.drop (o + data.length))
  let c1 := if c.kgen = a.c.kgen ∧ a.c.state ≠ CST.FREE then { c with icTx := max c.icTx a.c.icTx } else c
  if c.state = CST.FREE then setAssoc i Assoc.free s
  else
    let hold := getF s .asc ASC_CFG.REKEY_HOLD
    setAssoc i { a with
      c := c1, parked := if c.session then 0 else (findParked s c.epId).getD parkedSize
      keySfn := if c.kgen = a.c.kgen ∧ a.c.state ≠ CST.FREE then a.keySfn else sfn s
      prevUntil := if c.prevValid ∧ !a.c.prevValid then sfn s + hold else a.prevUntil } s

/-- A tone map taken from the mirror, the one before it held as previous (R153, R404). -/
def applyTmap (i : Nat) (down : Bool) (p : Nat) (map : List Byte) (s : State) : State :=
  let e := (linkMap s i down p).getD ⟨i, down, p, none, none, none, 0, 0⟩
  putMap { e with cur := some (readMap map), prev := e.cur.map (fun m => (m, sfn s + 2)), sentAt := sfn s } s

/-- The parent association of the ACTIVE (R404). -/
def applyParent (active : Bool) (i : Nat) (record : List Byte) (s : State) : State :=
  setMac { s.mac with parent := { s.mac.parent with phase := if active then .active else .idle, index := i, link := ofMirror s record } } s

/-- A RESERVE: the copy of the counter goes to the block end (R405). -/
def applyReserve (g : Bool) (i kgen e : Nat) (s : State) : State :=
  if g then setGroup i { groupSlot s i with count := max (groupSlot s i).count e } s
  else
    let c := ctx s i
    if c.state ≠ CST.FREE ∧ c.kgen = kgen then setCtx i { c with icTx := max c.icTx e } s else s

/-- A beacon key from the mirror. -/
def ofMirrorKey (k : MirrorKey) : BeaconKey := ⟨k.key, k.salt.toNat, k.gen.toNat, k.last.map (·.toNat)⟩

/-- BEACON_STATE applied (R404): maps, plan fields, epoch and beacon keys, in force and pending. -/
def applyBeacons (b : BeaconState) (s : State) : State :=
  let p := Page.bcn
  let s1 := setF p BCN_NB_MAP_CUR_LO.SETS b.cur.nb.toNat (setF p BCN_NB_MAP_CUR_HI.SETS (b.cur.nb.toNat / 2 ^ 32)
    (setF p BCN_RU_MAP_CUR.RUS b.cur.ru.toNat s))
  let s2 := setF p BCN_NB_MAP_LO.SETS b.next.nb.toNat (setF p BCN_NB_MAP_HI.SETS (b.next.nb.toNat / 2 ^ 32)
    (setF p BCN_RU_MAP.RUS b.next.ru.toNat s1))
  let s3 := setB p BCN_STATUS.NEXT_PENDING b.epoch.isSome (setF p BCN_CFG.BW b.next.bw.toNat (setF p BCN_CFG.BB_CPER b.next.cper.toNat s2))
  let s4 := { s3 with
    bcn := { s3.bcn with domain := b.domain.toNat, bw := b.cur.bw.toNat, cper := b.cur.cper.toNat, epoch := b.epoch.map (·.toNat) }
    pair := { s3.pair with partner := some b } }
  let s5 := setB .asc ASC_STATUS.BKEY_PENDING b.keyNext.isSome (setF .asc ASC_BKEY.GEN ((b.key.map (·.gen.toNat)).getD 0) s4)
  setMac { s5.mac with bkey := b.key.map ofMirrorKey, bnext := b.keyNext.map (fun e => (ofMirrorKey e.1, e.2.toNat)) } s5

/-- A delta counted as applied, and as a record received while SYNCING. -/
def deltaIn (record : Bool) (s : State) : State :=
  let s1 := count .pair PAIR_DELTA_CNT.COUNT s
  if record ∧ pairSync s = 1 then count .pair PAIR_SYNC_PROG.VALUE s1 else s1

/-- SYNC_DONE: the STANDBY is SYNCED (R406). -/
def syncedNow (s : State) : State := if pairSync s = 2 then s else raise .pair PAIR_INT.SYNCED (setSync 2 s)

/-- A message of the ACTIVE applied by a STANDBY (R404). -/
def applyMirror (b : MirrorBody) (s : State) : State :=
  match b with
  | .ctxDelta i o d => applyCtx i.toNat o.toNat d (deltaIn true s)
  | .relayDelta i e => setRelay i.toNat (Relay.ofBytes e) (deltaIn false s)
  | .tmapDelta i down p m => applyTmap i.toNat down p.val m (deltaIn false s)
  | .routeDelta k e => setRoute k.toNat (if e.toNat.testBit 31 then some (e.toNat.testBit 30, e.toNat % 2 ^ 20) else none) (deltaIn false s)
  | .parentDelta a i r => applyParent a i.toNat r (deltaIn false s)
  | .groupDelta g n => setGroup g.val { groupSlot s g.val with count := max (groupSlot s g.val).count n.toNat } (deltaIn false s)
  | .reserve g i kgen e => applyReserve g i.toNat kgen.toNat e.toNat s
  | .beaconState b => applyBeacons b s
  | .truState e _ _ _ => setTru { s.tru with copyTo := some (signedOf 64 e.toNat) } s
  | .syncDone _ => syncedNow s
  | .handover n => setPair { s.pair with swapAt := some n.toNat } s
  | _ => s

/-- The blocks whose RESERVE is acknowledged may be issued from (R405). -/
def grantReserves (s : State) : State :=
  let (yes, no) := s.pair.reserves.partition (fun r => decide (r.1 < s.pair.acked))
  yes.foldl (fun t r =>
    if r.2.1 then setGroup r.2.2.1 { groupSlot t r.2.2.1 with reserved := max (groupSlot t r.2.2.1).reserved r.2.2.2 } t
    else
      let a := assoc t r.2.2.1
      if a.c.state = CST.FREE then t else setAssoc r.2.2.1 { a with reserved := max a.reserved r.2.2.2 } t)
    (setPair { s.pair with reserves := no } s)

/-- Held jobs that waited for a block take their counter when it is reserved (R333). -/
def resumeAll (s : State) : State :=
  s.cip.held.foldl (fun t h =>
    let (h1, t1) := resumeHeld h t
    setHeldJobs (t1.cip.held.map (fun g => if g = h then h1 else g)) t1) s

/-- ACK of the STANDBY: own messages up to a SEQ are applied; reserved blocks, uplink frames and SYNC_DONE follow (R405, R406). -/
def ackMirror (q : Nat) (s : State) : State :=
  let s1 := grantReserves (setPair { s.pair with acked := max s.pair.acked (q + 1) } s)
  let s2 := match s1.pair.syncSeq with
    | some k => if k < s1.pair.acked then syncedNow (setPair { s1.pair with syncSeq := none } s1) else s1
    | none => s1
  releaseAcked (resumeAll s2)

/-- A message applied (R403, R404): heartbeats by both, deltas by a STANDBY, which acknowledges them, acknowledgements by an ACTIVE. -/
def mirrorApply (m : MirrorMsg) (stamp : Nat) (s : State) : State :=
  match m.body with
  | .heartbeat r y _ mt lm ar => heartbeatIn m r.toNat y.toNat mt.toNat lm.toNat ar.toNat stamp s
  | .ack q => if pairRole s = 1 then ackMirror q.toNat s else s
  | b => if standby s then sendMirror (.ack m.seq) (applyMirror b s) else s

/-- Messages held out of order applied as far as their SEQs follow; `fuel` bounds them by their number. -/
def applyAhead : Nat → Nat → State → State
  | 0, _, s => s
  | fuel + 1, stamp, s =>
    match s.pair.ahead.find? (fun m => decide (m.seq.toNat = s.pair.expect)) with
    | none => s
    | some m => applyAhead fuel stamp (mirrorApply m stamp (setPair { s.pair with ahead := s.pair.ahead.erase m, expect := s.pair.expect + 1 } s))

/-- A verified message in SEQ order (R403): a new start of the peer begins a new sequence, a copy already applied is discarded. -/
def mirrorOrder (m : MirrorMsg) (stamp : Nat) (s : State) : State :=
  let q := m.seq.toNat
  if m.start.toNat < s.pair.peerStart then s
  else
    let s1 := if s.pair.peerStart < m.start.toNat then setPair { s.pair with peerStart := m.start.toNat, expect := q, ahead := [] } s else s
    if q < s1.pair.expect ∨ s1.pair.ahead.any (fun x => x.seq = m.seq) then s1
    else
      let s2 := setPair { s1.pair with ahead := s1.pair.ahead ++ [m] } s1
      applyAhead s2.pair.ahead.length stamp s2

/-- A mirror frame received (R402, R403): its FCS, its tag, then its order; `stamp` is the module time of its SFD. -/
def mirrorIn (l : MLane) (fcsOk tagOk : Bool) (m : MirrorMsg) (stamp : Nat) (s : State) : State :=
  let p : Page := .lanm l
  if !isSet s p LANM_STATUS.UP || !s.pair.paired then s
  else if !fcsOk then count p LANM_FCS_ERR_CNT.COUNT s
  else
    let s1 := count p LANM_RX_CNT.COUNT s
    if tagOk then mirrorOrder m stamp s1 else raise .pair PAIR_INT.MIRROR_ERR (count .pair PAIR_MIRROR_ERR_CNT.COUNT s1)

/-- MIRROR_FRAME_RECEIVED (R403). -/
def execMirrorFrameReceived (l : MLane) (fcsOk tagOk : Bool) (m : MirrorMsg) (stamp : BitVec 64) (s : State) : Host.Outcome State Fault Refusal :=
  .next (mirrorIn l fcsOk tagOk m stamp.toNat s)

/-- MIRROR_SEQ_GAP_EXPIRY (R403): SYNC becomes SYNCING, and the sequence goes on behind the gap. -/
def seqGap (s : State) : State :=
  if s.pair.ahead = [] then s
  else
    let n := (s.pair.ahead.map (fun m => m.seq.toNat)).foldl min (2 ^ 64)
    let s1 := if standby s then beginSync s else if pairRole s = 1 then startResync s else s
    applyAhead s1.pair.ahead.length s1.pair.peerArrival (setPair { s1.pair with expect := n } s1)

/-- MIRROR_SEQ_GAP_EXPIRY (R403). -/
def execMirrorSeqGapExpiry (s : State) : Host.Outcome State Fault Refusal := .next (seqGap s)

/-- TRU_STATE_SEND (R404). -/
def execTruStateSend (s : State) : Host.Outcome State Fault Refusal :=
  .next (if pairRole s = 1 ∧ peerUp s then
    sendMirror (.truState (BitVec.ofInt 64 s.tru.e) (BitVec.ofNat 4 (tq s)) (BitVec.ofNat 32 (getF s .tru TRU_TE_EST.VALUE))
      (isSet s .tru TRU_STATUS.ALIGNED)) s
  else s)

/-! The check window (R408). -/

/-- Whether the last BEACON_STATE shows a partner beacon in this superframe on a port declared here. -/
def partnerExpected (s : State) : Bool :=
  match s.pair.partner with
  | none => false
  | some b => (b.rounds.getD (sfn s % 8) []).any (fun p => (port s p.val).declared)

/-- The close of the window (R408): SPLIT_GUARD while partner beacons are heard without heartbeats, and an expected beacon missed. -/
def closeWindow (s : State) : State :=
  if !standby s then setPair { s.pair with heard := false } s
  else
    let exp := partnerExpected s
    let s1 := if exp then setB .pair PAIR_STATUS.PARTNER_BEACON s.pair.heard s else s
    let s2 := if s.pair.heard && !peerUp s then
        (let t := setSync 3 s1
         if s.pair.guarded then t else raise .pair PAIR_INT.SPLIT_GUARD (setPair { t.pair with guarded := true } t))
      else s1
    setPair { s2.pair with heard := false, missed := if s.pair.heard then false else s.pair.missed || exp } s2

/-! Takeover (R408, R409). -/

/-- A counter after a takeover: 2^32 beyond the highest mirrored block end; beyond 2^40 − 1 it is EXHAUSTED (R409). -/
def stepCounter (x : GroupSlot) : GroupSlot :=
  let v := max x.count x.reserved + 2 ^ 32
  if x.exhausted ∨ 2 ^ 40 ≤ v then { x with count := 2 ^ 40 - 1, exhausted := true }
  else { x with count := v, warned := x.warned || decide (icWarnAt ≤ v), reserved := v, asked := v }

/-- IC_WARN where a counter has come into its warning range (R331). -/
def warnCounter (x y : GroupSlot) (s : State) : State := if y.warned ∧ !x.warned then raise .cip CIP_INT.IC_WARN s else s

/-- The counter of a record stepped; an exhausted one ends its association with REKEY_FAIL (R236, R409). A slot still JOINING has no offer here
and is freed (log 29). -/
def stepRecord (i : Nat) (s : State) : State :=
  let a := assoc s i
  let x : GroupSlot := ⟨a.c.icTx, a.c.exhausted, a.warned, a.reserved, a.asked⟩
  let y := stepCounter x
  if a.c.state = CST.JOINING then setAssoc i Assoc.free s
  else
    let s1 := warnCounter x y (setAssoc i { a with
      c := { a.c with icTx := y.count, exhausted := y.exhausted }, warned := y.warned, reserved := y.reserved, asked := y.asked } s)
    if y.exhausted ∧ a.c.state = CST.ACTIVE then startEnd i RSN.REKEY_FAIL 0 false s1 else s1

/-- The counter of a group stepped. -/
def stepGroup (g : Nat) (s : State) : State :=
  let x := groupSlot s g
  let y := stepCounter x
  warnCounter x y (setGroup g y s)

/-- ROTATE_BKEY of a takeover: a rotation already pending is drawn anew under its generation, with APPLY_SFN set afresh (R409). -/
def takeoverKeys (s : State) : State :=
  match s.mac.bnext with
  | none => if isSet s .cip CIP_STATUS.DRBG_OK then rotateBkey s else s
  | some (k, _) =>
    if !isSet s .cip CIP_STATUS.DRBG_OK then s
    else
      let (key, s1) := randBytes 16 s
      let (salt, s2) := randBytes 4 s1
      let s3 := setMac { s2.mac with bnext := some ({ k with key := key, salt := ofBE salt, last := none }, applySfn s) } s2
      (slotsWhere s3 (fun a => decide (a.c.state = CST.ACTIVE) && !a.c.session)).foldl (fun t i => sendBkey i t) s3

/-- Whether the conditions of a takeover are met at the close of the check window (R408). -/
def mayTakeOver (s : State) : Bool :=
  standby s && !peerUp s && isSet s .pair PAIR_CFG.TAKEOVER_EN && decide (49 ≤ s.time.slot) && !s.pair.heard && s.pair.missed &&
    (s.pair.lastBeacon.elim true (fun k => decide (2 ≤ sfnDiff k (sfn s))))

/-- The takeover, in the order of R409. -/
def takeOver (h : TruHold) (s : State) : State :=
  let e := (getF s .pair PAIR_EPOCH.VALUE + 1) % 2 ^ 32
  let s1 := setSync 0 (setF .pair PAIR_EPOCH.VALUE e (pairBecomes 1 s))
  let s2 := (slotsWhere s1 (fun a => decide (a.c.state ≠ CST.FREE) && decide (a.c.state ≠ CST.FAULTED))).foldl (fun t i => stepRecord i t) s1
  let s3 := takeoverKeys ((List.range 16).foldl (fun t g => stepGroup g t) s2)
  let s4 := campaignTakenOver (dropPairRef h s3)
  logPage .pair PAIR_INT.TAKEOVER [e] (raise .pair PAIR_INT.TAKEOVER (count .pair PAIR_TAKEOVER_CNT.COUNT s4))

/-- TAKEOVER (R409). -/
def execTakeover (h : TruHold) (s : State) : Host.Outcome State Fault Refusal := .next (if mayTakeOver s then takeOver h s else s)

/-! Handover (R411, R414). -/

/-- Whether every frame of the downlink store has completed (R411). -/
def drained (s : State) : Bool := !s.mac.frames.any (fun f => decide (f.kind = .host)) && s.link.done.isEmpty

/-- HANDOVER names the superframe that follows the next slot 512 once the store has drained (R411). -/
def handoverCheck (s : State) : State :=
  match outstanding s .pair with
  | none => s
  | some o =>
    if o.opcode ≠ 1 ∨ o.phase ≠ 0 ∨ !drained s then s
    else
      let n := (sfn s + (if s.time.slot < 512 then 1 else 2)) % 2 ^ 32
      let s1 := sendMirror (.handover (BitVec.ofNat 32 n)) s
      setPhase .pair 1 (setPair { s1.pair with swapAt := some n } s1)

/-- HANDOVER: REFUSED unless ACTIVE, NOT_SYNCED unless SYNCED. -/
def runHandover (_ : Outstanding) (s : State) : State :=
  if pairRole s ≠ 1 then done .pair CODE.REFUSED s
  else if pairSync s ≠ 2 then done .pair 0x80 s
  else handoverCheck (setPair { s.pair with drainSfn := sfn s } s)

/-- HANDOVER, PAIR command 0x0001 (R411). -/
def execHandover (src : CmdSrc) (s : State) : Host.Outcome State Fault Refusal := .next (issue .pair 0x0001 src runHandover s)

/-- HANDOVER_DRAIN_TIMEOUT (R411): 64 superframes without the store draining. -/
def execHandoverDrainTimeout (s : State) : Host.Outcome State Fault Refusal :=
  .next (match outstanding s .pair with
    | some o => if o.opcode = 1 ∧ o.phase = 0 ∧ reached s (s.pair.drainSfn + 64) then done .pair CODE.TIMEOUT s else s
    | none => s)

/-- The roles swap at the start of the superframe that HANDOVER named, with the peer's heartbeat present (R401, R411). -/
def roleSwap (h : TruHold) (s : State) : State :=
  if s.pair.swapAt ≠ some (sfn s) then s
  else
    let s1 := setPair { s.pair with swapAt := none } s
    if !peerUp s ∨ !(standby s ∨ pairRole s = 1) then s1
    else
      let e := (getF s .pair PAIR_EPOCH.VALUE + 1) % 2 ^ 32
      let s2 := raise .pair PAIR_INT.HANDOVER_DONE (setF .pair PAIR_EPOCH.VALUE e s1)
      if standby s then dropPairRef h (pairBecomes 1 s2)
      else
        let s3 := setSync 2 (becomeStandby s2)
        match outstanding s3 .pair with
        | some o => if o.opcode = 1 then done .pair CODE.OK s3 else s3
        | none => s3

/-- RESYNC: REFUSED unless ACTIVE with the heartbeat present. -/
def runResync (_ : Outstanding) (s : State) : State :=
  if pairRole s ≠ 1 ∨ !peerUp s then done .pair CODE.REFUSED s else done .pair CODE.OK (startResync s)

/-- RESYNC, PAIR command 0x0002 (R414). -/
def execResync (src : CmdSrc) (s : State) : Host.Outcome State Fault Refusal := .next (issue .pair 0x0002 src runResync s)

/-- The abort of HANDOVER before its message is sent (R414). -/
def abortHandover (s : State) : State := done .pair CODE.ABORTED s

/-- DL_COMPLETION (R382): the oldest completion on its way is delivered; a ring being reset or a store being drained may be done with it. -/
def execDlCompletion (s : State) : Host.Outcome State Fault Refusal := .next (handoverCheck (ringResetDone (deliverNext s)))

/-- PAIR_BLK_RESET (R413). -/
def execPairBlkReset (s : State) : Host.Outcome State Fault Refusal := .next (blkReset .pair [0x11C, 0x120, 0x124, 0x128] s)

end Sys2Proof.Machine
end

