-- ==== Sys2Proof/Machine/Sen.lean ====
section
/-!
DEFINITION. Sys2Proof/Machine/Sen.lean: the sensor front end: conversion cycles, results, temperature, hot-spot channels and the SEN page
(R415–R428).
-/
namespace Sys2Proof.Machine

/-- A sensor channel beside its block. -/
def chan (s : State) (n : Nat) : ChanSt := Map.get (fun _ => ChanSt.start) s.sen n

/-- The state with a sensor channel changed. -/
def setChan (n : Nat) (x : ChanSt) (s : State) : State := { s with sen := Map.set (fun _ => ChanSt.start) s.sen n x }

/-- Whether a channel is one of SI0–SI3 (R415). -/
def isSi (n : Nat) : Bool := decide (8 ≤ n)

/-- CFG of a channel as written. -/
def senCfg (s : State) (n : Nat) : Word := reg s (addr .sen (0x200 + 0x20 * n))

/-- A field of CFG in effect. -/
def ChanSt.get (x : ChanSt) (f : Field) : Nat := getBits x.cfg f.hi f.lo

/-- Bits of STAT.FLAGS: OVER, OPEN, SHORT, LEAD_HIGH, OFFSET, EXC from bit 5 down (R427). -/
def SF.OVER : Nat := 5
/-- OPEN. -/
def SF.OPEN : Nat := 4
/-- SHORT. -/
def SF.SHORT : Nat := 3
/-- LEAD_HIGH. -/
def SF.LEAD_HIGH : Nat := 2
/-- OFFSET. -/
def SF.OFFSET : Nat := 1
/-- EXC. -/
def SF.EXC : Nat := 0

/-- A flag of a channel's STAT. -/
def senFlag (s : State) (n b : Nat) : Bool := (getI s .sen SEN_STAT.FLAGS n).testBit b

/-! Faults of the hot-spot channels (R423). -/

/-- Whether an SI channel is in fault: OPEN, SHORT, OFFSET, EXC or STALE. -/
def siFault (s : State) (n : Nat) : Bool :=
  senFlag s n SF.OPEN || senFlag s n SF.SHORT || senFlag s n SF.OFFSET || senFlag s n SF.EXC || decide (getI s .sen SEN_STAT.STALE n = 1)

/-- STATUS.SI_FAULT and FAULT brought up to date, with SI_FAULT raised for a channel that enters fault (R423). -/
def refreshSi (n : Nat) (s : State) : State :=
  if !isSi n then s
  else
    let old := getF s .sen SEN_STATUS.SI_FAULT
    let k := n - 8
    let now := siFault s n
    let v := if now then old ||| 2 ^ k else if old.testBit k then old - 2 ^ k else old
    let s1 := setFault .sen (if v = 0 then 0 else 1) (setF .sen SEN_STATUS.SI_FAULT v s)
    if now && !old.testBit k then raise .sen SEN_INT.SI_FAULT s1 else s1

/-- STALE of a channel: raised when it changes from 0 to 1 (R421). -/
def setStale (n : Nat) (s : State) : State :=
  if getI s .sen SEN_STAT.STALE n = 1 then s
  else refreshSi n (raise .sen SEN_INT.STALE (setI .sen SEN_STAT.STALE n 1 s))

/-! Temperature (R422). -/

/-- R(t) / R0 times 10^27 at a temperature in 0.001 °C, by the Callendar–Van Dusen equation. -/
def cvd (x : Int) : Int :=
  10 ^ 27 + 39083 * 10 ^ 17 * x - 5775 * 10 ^ 11 * x * x - (if x < 0 then 4183 * (x - 100000) * x * x * x else 0)

/-- The temperature of 0.001 °C nearest to a resistance ratio `v` = R / R0 times 10^27, from `lo` on over `2^fuel` steps; the example of R424 rounds
so. -/
def cvdSearch (v : Int) : Nat → Int → Int
  | 0, lo => lo
  | fuel + 1, lo =>
    let m := lo + (2 ^ fuel : Nat)
    if cvd (m - 1) + cvd m ≤ 2 * v then cvdSearch v fuel m else cvdSearch v fuel lo

/-- R0 in mΩ. -/
def senR0 (x : ChanSt) : Nat := if x.get SEN_CFG.ELEMENT = 1 then 1000000 else 100000

/-- The temperature of an element of Rt mΩ in 0.001 °C, or none outside −200 to +850 °C, where R422 states none. -/
def senTemp (r0 rt : Int) : Option Int :=
  let v := rt * 10 ^ 27 / r0
  if v < cvd (-200000) ∨ cvd 850000 < v then none else some (cvdSearch v 21 (-200000))

/-! Alarms (R422). -/

/-- ALARM_HI and ALARM_LO compared with a valid result: raised once, armed again 0.50 °C back inside the limit. -/
def senAlarm (n : Nat) (temp : Int) (s : State) : State :=
  let x := chan s n
  let hi := getI s .sen SEN_ALARM.HI n
  let lo := getI s .sen SEN_ALARM.LO n
  let h := signedOf 16 hi * 10
  let l := signedOf 16 lo * 10
  let above := decide (hi ≠ 0x7FFF) && decide (h < temp)
  let below := decide (lo ≠ 0x8000) && decide (temp < l)
  let s1 := if (above && !x.alarmHi) || (below && !x.alarmLo) then raise .sen SEN_INT.ALARM s else s
  setChan n { x with
    alarmHi := above || (x.alarmHi && decide (hi ≠ 0x7FFF) && decide (h - 500 < temp))
    alarmLo := below || (x.alarmLo && decide (lo ≠ 0x8000) && decide (temp < l + 500)) } s1

/-! Results (R417, R418, R420, R423). -/

/-- STAT of a completed result: VALID, STALE 0, the flags, SEQ one higher; OPEN and SHORT raise SENSOR_FAULT, OVER raises OVER_RANGE, once for each
change. -/
def senStat (n : Nat) (valid : Bool) (flags : Nat) (s : State) : State :=
  let old := getI s .sen SEN_STAT.FLAGS n
  let rises (b : Nat) : Bool := flags.testBit b && !old.testBit b
  let s1 := setI .sen SEN_STAT.SEQ n (getI s .sen SEN_STAT.SEQ n + 1) (setI .sen SEN_STAT.VALID n (bitIf1 valid)
    (setI .sen SEN_STAT.STALE n 0 (setI .sen SEN_STAT.FLAGS n flags s)))
  if isSi n then refreshSi n s1
  else
    let s2 := if rises SF.OPEN || rises SF.SHORT then raise .sen SEN_INT.SENSOR_FAULT s1 else s1
    if rises SF.OVER then raise .sen SEN_INT.OVER_RANGE s2 else s2
where
  /-- A truth value as a bit. -/
  bitIf1 (b : Bool) : Nat := if b then 1 else 0

/-- Whether a phase measurement is at or beyond 0.98 of full scale at the gain (R418). -/
def overScale (x : ChanSt) (rho : Int) : Bool := decide (98 * 2 ^ 31 ≤ rho.natAbs * 2 ^ x.get SEN_CFG.GAIN * 100)

/-- A ratio in units of 2^−31 as a resistance in mΩ. -/
def ratioOhm (rref : Nat) (rho : Int) : Int := rho * rref / 2 ^ 31

/-- TEMP of a valid result with TRIM, and what is compared with the alarms; outside the conversion's range the value is free. -/
def showTemp (n : Nat) (t : Option Int) (s : State) : State :=
  match t with
  | some v =>
    let w := v + signedOf 16 (getI s .sen SEN_TRIM.TRIM n)
    senAlarm n w (setI .sen SEN_TEMP.TEMP n (ofSigned 32 w) s)
  | none =>
    let (w, s1) := freeWord s
    senAlarm n (signedOf 32 w.toNat) (setI .sen SEN_TEMP.TEMP n w.toNat s1)

/-- The result of an SX cycle: `a` and `b` its phases (R417, R418). -/
def sxResult (n : Nat) (a b : Int) (s : State) : State :=
  let x := chan s n
  let rref := Config.senRref n
  let wires := x.get SEN_CFG.WIRES
  let leadR := x.get SEN_CFG.LEAD_R
  let ratio : Int := if wires = 1 then a - b else if wires = 0 then a - ((leadR * 10 * 2 ^ 31 / rref : Nat) : Int) else a
  let rt := ratioOhm rref ratio
  let lead : Int := if wires = 1 then (b * rref + 5 * 2 ^ 31) / (10 * 2 ^ 31) else if wires = 0 then leadR else 0
  let open_ := match x.lastRt with
    | some r => decide (x.current * (rref + r) < 250000000)
    | none => decide (x.current < 50)
  let above := overScale x a || (decide (wires = 1) && overScale x b)
  let short := decide (rt < ((senR0 x / 10 : Nat) : Int))
  let high := decide (wires = 1) && decide (5000 < lead)
  let flags := (if above then 2 ^ SF.OVER else 0) + (if open_ then 2 ^ SF.OPEN else 0) + (if short then 2 ^ SF.SHORT else 0) +
    (if high then 2 ^ SF.LEAD_HIGH else 0)
  let valid := !(above || open_ || short)
  let s1 := setI .sen SEN_LEAD.LEAD n (min lead.toNat 0xFFFF) (setI .sen SEN_RATIO.RATIO n (ofSigned 32 ratio) s)
  let s2 := senStat n valid flags s1
  if valid then showTemp n (senTemp (senR0 x) rt) (setChan n { x with lastRt := some rt.toNat } s2) else s2

/-- The result of an SI cycle: phases + and −, with what the last output tells of the bridge (R423). -/
def siResult (n : Nat) (a b : Int) (o : SensorOut) (s : State) : State :=
  let x := chan s n
  let ratio := (a - b) / 2
  let above := overScale x a || overScale x b
  let offset := decide (2 ^ 31 * 2 * 2 < (a + b).natAbs * 1000)
  let exc := decide (o.excitation.toNat < 24750) || decide (25250 < o.excitation.toNat)
  let flags := (if above then 2 ^ SF.OVER else 0) + (if o.bridgeOpen then 2 ^ SF.OPEN else 0) + (if o.bridgeShort then 2 ^ SF.SHORT else 0) +
    (if offset then 2 ^ SF.OFFSET else 0) + (if exc then 2 ^ SF.EXC else 0)
  let valid := !(above || o.bridgeOpen || o.bridgeShort)
  let s1 := setI .sen SEN_RATIO.RATIO n (ofSigned 32 ratio) s
  let s2 := if valid then setI .sen SEN_TEMP.TEMP n (ofSigned 32 (Config.bridgeTemp (n - 8) ratio)) s1 else s1
  senStat n valid flags s2

/-! The cycle (R420). -/

/-- Whether a channel's cycle has a second phase: 3-wire and bridge (R417, R423). -/
def ChanSt.twoPhase (x : ChanSt) : Bool := (x.get SEN_CFG.WIRES).testBit 0

/-- A cycle begun at an output boundary, under CFG as written. -/
def restartCycle (n : Nat) (s : State) : State :=
  setChan n { chan s n with cfg := senCfg s n, restart := false, phase := 0, discard := 0, outs := [], first := 0, current := 65535 } s

/-- The mean of a phase's outputs. -/
def phaseMean (l : List Int) : Int := l.sum / (l.length : Int)

/-- A phase ends: the other one begins, or the cycle's result is formed and phase A begins again. -/
def endPhase (n : Nat) (o : SensorOut) (s : State) : State :=
  let x := chan s n
  let m := phaseMean x.outs
  let y := { x with discard := 0, outs := [] }
  if x.twoPhase && decide (x.phase = 0) then setChan n { y with phase := 1, first := m } s
  else
    let s1 := setChan n { y with phase := 0 } s
    let a := if x.twoPhase then x.first else m
    let s2 := if isSi n then siResult n a m o s1 else sxResult n a m s1
    setChan n { chan s2 n with current := 65535 } s2

/-- SENSOR_OUTPUT_BOUNDARY: a pending change switches, an output after a switch is discarded, others are averaged (R420). -/
def outputBoundary (n : Nat) (o : SensorOut) (s : State) : State :=
  let x := chan s n
  if x.calibrating then s
  else if x.restart then restartCycle n s
  else if x.get SEN_CFG.EN = 0 then s
  else if x.discard < 3 then setChan n { x with discard := x.discard + 1 } s
  else
    let y := { x with outs := x.outs ++ [signedOf 32 o.rho.toNat], current := min x.current o.current.toNat }
    let s1 := setChan n y s
    if x.get SEN_CFG.N_AVG ≤ y.outs.length then endPhase n o s1 else s1

/-- SENSOR_OUTPUT_BOUNDARY (R420). -/
def execSensorOutputBoundary (n : Chan) (o : SensorOut) (s : State) : Host.Outcome State Fault Refusal := .next (outputBoundary n.val o s)

/-- SENSOR_STALE (R421, R423). -/
def execSensorStale (n : Chan) (s : State) : Host.Outcome State Fault Refusal := .next (setStale n.val s)

/-! The SEN page (R426–R428). -/

/-- SEN_TEMP_READ: TEMP is returned, and RATIO, STAT and LEAD of the same result are latched (R427). -/
def execSenTempRead (n : Chan) (s : State) : Host.Outcome State Fault Refusal :=
  let w (o : Nat) : Word := reg s (addr .sen (0x200 + 0x20 * n.val + o))
  .next (returnWord (w 0x0C) (setChan n.val { chan s n.val with latch := some (w 0x10, w 0x14, w 0x18) } s))

/-- What follows a write of a channel's CFG: the cycle restarts at the next output boundary, and the held result is STALE (R420, R421). -/
def senCfgWritten (n : Nat) (s : State) : State := setStale n (setChan n { chan s n with restart := true } s)

/-- SELF_CAL: the channel produces no result until it ends (R424). -/
def runSelfCal (o : Outstanding) (s : State) : State :=
  let n := o.a0.toNat
  if 7 < n then done .sen CODE.BAD_ARG s
  else if getI s .sen SEN_CFG.EN n = 0 then done .sen CODE.REFUSED s
  else setChan n { chan s n with calibrating := true, restart := true } s

/-- SELF_CAL, SEN command 0x0001 (R428). -/
def execSelfCal (src : CmdSrc) (s : State) : Host.Outcome State Fault Refusal := .next (issue .sen 0x0001 src runSelfCal s)

/-- The end of SELF_CAL with a code; the cycle restarts (R420). -/
def endSelfCal (code n : Nat) (s : State) : State :=
  done .sen code (setChan n { chan s n with calibrating := false, restart := true } s)

/-- The completion of SELF_CAL: new offset and gain in force, or none within the bound (R424). -/
def finishSelfCal (o : Outstanding) (cal : Option (Word × Word)) (s : State) : State :=
  let n := o.a0.toNat
  match cal with
  | some c => endSelfCal CODE.OK n (setChan n { chan s n with cal := some c } s)
  | none => endSelfCal 0x80 n s

/-- The abort of SELF_CAL (R428). -/
def abortSelfCal (o : Outstanding) (s : State) : State := endSelfCal CODE.ABORTED o.a0.toNat s

/-- SELF_CAL ended by a reset of the page or an entry to DORMOUSE (R426). -/
def stopSelfCal (s : State) : State :=
  match outstanding s .sen with
  | some o => if o.opcode = 1 then endSelfCal CODE.RESET o.a0.toNat s else s
  | none => s

/-- SEN_BLK_RESET (R426): the cycles of enabled SX channels restart and their results become STALE; SI channels run on. -/
def execSenBlkReset (s : State) : Host.Outcome State Fault Refusal :=
  .next (blkReset .sen [] ((List.range 8).foldl (fun t n => if getI t .sen SEN_CFG.EN n = 1 then senCfgWritten n t else t) (stopSelfCal s)))

end Sys2Proof.Machine
end

