-- ==== Sys2Proof/Machine/Saf.lean ====
section
/-!
DEFINITION. Sys2Proof/Machine/Saf.lean: the Hedgehog's decisions, KILL#, the baseplate temperature, port trips and the SAF page (R46, R472–R482, R498).
-/
namespace Sys2Proof.Machine

/-- Whether the module's domains have power: in RUN or OUTAGE (R68, R71). -/
def moduleOn (s : State) : Bool := decide (s.pwr.state = .run) || decide (s.pwr.state = .outage)

/-! Monitors (R472, R473, R479). A decision comes from a monitor outside the modelled signals. -/

/-- A kill decision of a port's monitor. -/
def monitorKill (cause : Nat) (n : Port) (s : State) : State := if moduleOn s then kill cause (some n.val) s else s

/-- BAND_EDGE_KILL: only a declared port is monitored for it (R473). -/
def execBandEdgeKill (n : Port) (s : State) : Host.Outcome State Fault Refusal :=
  .next (if (port s n.val).declared then monitorKill KILL.BAND_EDGE n s else s)

/-- LEVEL_KILL (R473). -/
def execLevelKill (n : Port) (s : State) : Host.Outcome State Fault Refusal := .next (monitorKill KILL.LEVEL n s)

/-- STUCK_KILL (R473). -/
def execStuckKill (n : Port) (s : State) : Host.Outcome State Fault Refusal := .next (monitorKill KILL.STUCK n s)

/-- TAP_KILL: reported as row 2 of R479 with the port (R473, R479). -/
def execTapKill (n : Port) (s : State) : Host.Outcome State Fault Refusal :=
  .next (if moduleOn s then kill KILL.TAP (some n.val) (diagReport 2 (.lpt n) s) else s)

/-- SELF_KILL: the channels disagree; reported as row 1 of R479 (R472). -/
def execSelfKill (s : State) : Host.Outcome State Fault Refusal :=
  .next (if moduleOn s then kill KILL.SELF none (diagReport 1 .saf s) else s)

/-! KILL# (R475, R497). -/

/-- KILLN_FALL: a kill with cause KILLN, and a report of row 3 on every fall (R475, R497). -/
def execKillnFall (s : State) : Host.Outcome State Fault Refusal :=
  let s1 := { s with pwr := { s.pwr with killLow := true } }
  .next (if s.pwr.killLow then s
  else if moduleOn s then kill KILL.KILLN none (diagReport 3 .saf (setB .saf SAF_STATUS.KILLN_LOW true s1)) else s1)

/-- KILLN_RISE: the pin returns high; a latched cause stands (R475). -/
def execKillnRise (s : State) : Host.Outcome State Fault Refusal :=
  .next (setB .saf SAF_STATUS.KILLN_LOW false { s with pwr := { s.pwr with killLow := false } })

/-- KILLN_AUTO_RELEASE: 100 ms after KILL# returned high with KILLN_AUTO = 1 (R475). -/
def execKillnAutoRelease (s : State) : Host.Outcome State Fault Refusal :=
  .next (if isSet s .saf SAF_CFG.KILLN_AUTO && !s.pwr.killLow then endCause KILL.KILLN s else s)

/-! Baseplate temperature (R46). -/

/-- A reading of the baseplate temperature shown in PWR_BASE_TEMP. -/
def showBase (t : BitVec 16) (s : State) : State := setF .pwr PWR_BASE_TEMP.VALUE t.toNat s

/-- BASEPLATE_OVER_TEMP: above +73 °C (R46). -/
def execBaseplateOverTemp (temp : BitVec 16) (s : State) : Host.Outcome State Fault Refusal :=
  .next (if moduleOn s then logPage .pwr PWR_INT.OVER_TEMP [] (raise .pwr PWR_INT.OVER_TEMP (showBase temp s)) else s)

/-- TEMP_KILL: above +80 °C (R46). -/
def execTempKill (temp : BitVec 16) (s : State) : Host.Outcome State Fault Refusal :=
  .next (if moduleOn s then kill KILL.TEMP none (raise .pwr PWR_INT.TEMP_KILL (showBase temp s)) else s)

/-- TEMP_KILL_RELEASE: 60 s below +75 °C (R46). -/
def execTempKillRelease (s : State) : Host.Outcome State Fault Refusal := .next (endCause KILL.TEMP s)

/-! Port trips (R473, R498). -/

/-- STATUS.TRIP brought up to date. -/
def showTrip (s : State) : State :=
  setB .saf SAF_STATUS.TRIP (decide (getF s .saf SAF_TRIP.TEMP ≠ 0) || decide (getF s .saf SAF_TRIP.FAULT ≠ 0)) s

/-- The ports of a bank. -/
def bankPorts (k : Nat) : List Nat := (List.range 12).map (fun i => 12 * k + i)

/-- The permits of a bank's ports withdrawn: their drivers go off and their bursts complete KILLED (R473). -/
def stopBank (k : Nat) (s : State) : State :=
  (bankPorts k).foldl (fun t n => if driverOn t n then stopPort n BST.KILLED t else t) s

/-- A bit of a trip register set or cleared. -/
def tripBit (f : Field) (k : Nat) (b : Bool) (s : State) : State :=
  let v := getF s .saf f
  showTrip (setF .saf f (if b then v ||| 2 ^ k else v - (v &&& 2 ^ k)) s)

/-- A trip of a bank: a bank that is not already tripped is counted and reported (R473, R479). -/
def tripBank (k : Nat) (fault : Bool) (s : State) : State :=
  let was := tripped s (12 * k)
  let s1 := tripBit (if fault then SAF_TRIP.FAULT else SAF_TRIP.TEMP) k true (if fault then diagReport 4 .sen s else s)
  if was then s1 else stopBank k (raise .saf SAF_INT.TRIP (count .saf SAF_TRIP_CNT.COUNT s1))

/-- HOT_SPOT_TRIP: the temperature of an SI channel in fault is compared with nothing, and a fault trip needs the fault (R473, R498). -/
def execHotSpotTrip (k : Fin 4) (fault : Bool) (s : State) : Host.Outcome State Fault Refusal :=
  .next (if !moduleOn s || (siFault s (8 + k.val) != fault) then s else tripBank k.val fault s)

/-- SI_WARN: an event only (R473, R498). -/
def execSiWarn (k : Fin 4) (s : State) : Host.Outcome State Fault Refusal :=
  .next (if !moduleOn s || siFault s (8 + k.val) then s else logPage .saf SAF_INT.SI_WARN [k.val] (raise .saf SAF_INT.SI_WARN s))

/-- TRIP_LIFT: 10 s at 10.0 °C below TRIP, or 1 s clear of the fault; a channel in fault lifts neither (R473, R498). -/
def execTripLift (k : Fin 4) (fault : Bool) (s : State) : Host.Outcome State Fault Refusal :=
  .next (if siFault s (8 + k.val) then s else tripBit (if fault then SAF_TRIP.FAULT else SAF_TRIP.TEMP) k.val false s)

/-! Commands (R474, R481, R482). -/

/-- The latched causes: BAND_EDGE, LEVEL, STUCK, TAP and SELF, and KILLN unless KILLN_AUTO is 1 (R474, R475). -/
def latchedCauses (s : State) : Nat := 0x1F + if isSet s .saf SAF_CFG.KILLN_AUTO then 0 else 0x20

/-- The latched causes whose condition still holds: those of the monitors as they show it, and KILLN while KILL# is low. -/
def holding (s : State) (monitors : Nat) : Nat := (monitors % 32 + if s.pwr.killLow then 0x20 else 0) &&& latchedCauses s

/-- CLEAR_KILL: REFUSED with the causes that hold in DETAIL, else every latched cause ends (R482). -/
def runClearKill (monitors : Nat) (_ : Outstanding) (s : State) : State :=
  let h := holding s monitors
  if h ≠ 0 then complete .saf CODE.REFUSED h s else done .saf CODE.OK (endCauses (latchedCauses s) s)

/-- CLEAR_KILL, SAF command 0x0001; `holds` are the monitors' conditions that hold, as bits of SAF_KILL.CAUSE (R482). -/
def execClearKill (src : CmdSrc) (holds : BitVec 5) (s : State) : Host.Outcome State Fault Refusal :=
  .next (issue .saf 0x0001 src (runClearKill holds.toNat) s)

/-- KILL_TEST: REFUSED outside TEST, and while a cause other than MODE or a port trip stands; else MODE is suspended until the command ends
(R482). -/
def runKillTest (_ : Outstanding) (s : State) : State :=
  if mode s ≠ MODE.TEST then done .saf CODE.REFUSED s
  else if killCauses s ≠ 2 ^ KILL.MODE ∨ isSet s .saf SAF_STATUS.TRIP then complete .saf CODE.REFUSED (killCauses s % 256) s
  else endCause KILL.MODE s

/-- KILL_TEST, SAF command 0x0002 (R482). -/
def execKillTest (src : CmdSrc) (s : State) : Host.Outcome State Fault Refusal := .next (issue .saf 0x0002 src runKillTest s)

/-- The end of KILL_TEST: the kill path was asserted with cause TEST for each 16 ports; `slow` is the first port whose supply switch was not off in time. MODE is
in force again before the completion (R482). -/
def finishKillTest (slow : Option Nat) (s : State) : State :=
  let s1 := (List.range 4).foldl (fun t _ => endCause KILL.TEST (kill KILL.TEST none t)) s
  complete .saf (if slow.isSome then 0x80 else CODE.OK) (slow.getD 0) (kill KILL.MODE none s1)

/-- KILL_TEST stopped: every driver is disabled and MODE is in force (R482). -/
def abortKillTest (s : State) : State := done .saf CODE.ABORTED (kill KILL.MODE none s)

end Sys2Proof.Machine
end

