-- ==== Sys2Proof/Machine/Ser.lean ====
section
/-!
DEFINITION. Sys2Proof/Machine/Ser.lean: serial ports: characters, breaks, framing, sleep reception and card transactions
(spec/23_serial_ports.md).
-/
namespace Sys2Proof.Machine

/-- A serial port beside its page. -/
def serial (s : State) (n : Nat) : SerSt := Map.get (fun _ => SerSt.idle) s.ser n

/-- A serial port changed. -/
def setSerial (n : Nat) (x : SerSt) (s : State) : State := { s with ser := Map.set (fun _ => SerSt.idle) s.ser n x }

/-- Whether Tarlum owns a port (R467). -/
def tarlumOwns (s : State) (n : Serial) : Bool := isSet s (.ser n) SER_STATUS.OWNER

/-- SER0's owner brought up to date with the mode: Tarlum but for SERVICE (R467). -/
def settleOwner (s : State) : State := setB (.ser 0) SER_STATUS.OWNER (decide (getF s .boot BOOT_STATUS.MODE ≠ 2)) s

/-- Whether the serial ports have power: not in DORMOUSE or OFF (R467). -/
def serialOn (s : State) : Bool := decide (s.pwr.state = .run) || decide (s.pwr.state = .outage)

/-- SER_CFG and SER_DIV as they apply to a character whose start bit came before their last write, or after it (R456). -/
def formatOf (s : State) (n : Serial) (old : Bool) : Word × Word :=
  if old then ((serial s n.val).oldCfg, (serial s n.val).oldDiv)
  else (reg s (addr (.ser n) SER_CFG.EN.off), reg s (addr (.ser n) SER_DIV.DIV.off))

/-! Card transactions (R464–R466). -/

/-- The contacts of a card deactivated: RST low, CLK stopped, I/O low, VCC off (R465). -/
def deactivateCard (n : Serial) (s : State) : State :=
  let s1 := setB (.ser n) SER_CARD.POWERED false (setB (.ser n) SER_CARD.ACTIVE false (setB (.ser n) SER_CFG.EN false s))
  emit (.cardPower n.val false) (setSerial n.val { serial s1 n.val with card := none } s1)

/-- A transaction ended with CARD_ERR (R449, R465). -/
def cardError (n : Serial) (s : State) : State :=
  if (serial s n.val).card.isSome then done .tkt 0x88 (deactivateCard n s) else s

/-- A transaction begun: VCC on (R465). -/
def startCard (n : Serial) (s : State) : State :=
  let s1 := setB (.ser n) SER_CARD.POWERED true (setB (.ser n) SER_CARD.ACTIVE true (setB (.ser n) SER_CFG.EN true s))
  emit (.cardPower n.val true) (setSerial n.val { serial s1 n.val with card := some ⟨.atr, 0, 0⟩ } s1)

/-- A character error on a card interface: the character is repeated, and the fifth in a row ends the transaction (R464). -/
def cardCharError (n : Serial) (s : State) : State :=
  match (serial s n.val).card with
  | none => s
  | some c => if c.errors < 4 then setSerial n.val { serial s n.val with card := some { c with errors := c.errors + 1 } } s else cardError n s

/-- A card character without error. -/
def cardCharGood (n : Serial) (s : State) : State :=
  setSerial n.val { serial s n.val with card := (serial s n.val).card.map (fun c => { c with errors := 0 }) } s

/-- A command sent to the card (R466). -/
def sendCard (n : Serial) (phase : CardPhase) (holder : Nat) (b : List Byte) (s : State) : State :=
  emit (.cardCommand n.val b) (setSerial n.val { serial s n.val with card := some ⟨phase, holder, 0⟩ } s)

/-- The ATR of a card: TS 0x3F goes on with READ_PUB; TS 0x3B, any other or no ATR ends the transaction (R464, R465). -/
def cardAtr (n : Serial) (ts : Option Byte) (s : State) : State :=
  match (serial s n.val).card with
  | none => s
  | some c =>
    if c.phase ≠ .atr then s
    else if ts = some 0x3F then sendCard n .readPub 0 [0x80, 0x10, 0, 0, 0x48] s
    else cardError n s

/-- CARD_ATR (R465). -/
def execCardAtr (n : Serial) (ts : Option Byte) (s : State) : Host.Outcome State Fault Refusal := .next (cardAtr n ts s)

/-- CARD_WWT_EXPIRY (R465). -/
def execCardWwtExpiry (n : Serial) (s : State) : Host.Outcome State Fault Refusal := .next (cardError n s)

/-- SIGN_TIMEOUT: SIGN has run longer than 120 s (R465). -/
def execSignTimeout (n : Serial) (s : State) : Host.Outcome State Fault Refusal :=
  .next (if (serial s n.val).card.any (fun c => decide (c.phase = .sign)) then cardError n s else s)

/-- CARD_PRESENCE_CHANGE: SER2 and SER3 have a presence switch; a removal ends a transaction (R465). -/
def execCardPresenceChange (n : Serial) (present : Bool) (s : State) : Host.Outcome State Fault Refusal :=
  .next (if n.val < 2 ∨ isSet s (.ser n) SER_CARD.PRESENT = present then s
  else
    let s1 := raise (.ser n) SER_INT.CARD_CHANGE (setB (.ser n) SER_CARD.PRESENT present s)
    if present then s1 else cardError n s1)

/-! Reception (R453, R454, R457, R462). -/

/-- The tags of a stored character: break, FE, PE, CRC_ERR, EOF, SOF (SER_RX). -/
structure RxTags where
  brk : Bool
  fe : Bool
  pe : Bool
  crcErr : Bool
  eof : Bool
  sof : Bool
deriving DecidableEq, Repr

/-- The word of SER_RX that holds a character. -/
def rxWord (t : RxTags) (data : Byte) : Word :=
  BitVec.ofNat 32 (2 ^ 31 + (if t.brk then 2 ^ 29 else 0) + (if t.fe then 2 ^ 28 else 0) + (if t.pe then 2 ^ 27 else 0) +
    (if t.crcErr then 2 ^ 26 else 0) + (if t.eof then 2 ^ 25 else 0) + (if t.sof then 2 ^ 24 else 0) + data.toNat)

/-- A character stored in the receive holding register, or lost while it is full: the held character then has OVR (R454). -/
def storeChar (n : Serial) (t : RxTags) (data : Byte) (s : State) : State :=
  let p : Page := .ser n
  if isSet s p SER_STATUS.RX_FULL then
    raise p SER_INT.OVERRUN (count p SER_OVR_CNT.COUNT (setB p SER_RX.OVR true s))
  else
    let s1 := setB p SER_STATUS.RX_FULL true (setReg (addr p SER_RX.VALID.off) (rxWord t data) s)
    let s2 := raise p SER_INT.RX_FULL (count p SER_RX_CNT.COUNT s1)
    let s3 := if t.fe || t.pe then count p SER_BADCHAR_CNT.COUNT s2 else s2
    let s4 := if t.fe || t.pe || t.crcErr then raise p SER_INT.RX_ERROR s3 else s3
    if t.eof then raise p SER_INT.FRAME_END s4 else s4

/-- The frame being received changed. -/
def setFrameRx (n : Serial) (f : Option FrameRx) (s : State) : State := setSerial n.val { serial s n.val with frame := f } s

/-- Whether the CRC of a frame's bytes holds: CRC-16 over ADDR and the payload, most significant byte first (R462). -/
def frameCrcOk (l : List Byte) : Bool := decide (2 ≤ l.length) && decide (beBytes 2 (crc16 (l.take (l.length - 2))) = l.drop (l.length - 2))

/-- The held byte of a frame stored: with SOF when it is the first, and with EOF and the CRC's result when the closing flag has come (R462). -/
def storeHeld (n : Serial) (f : FrameRx) (last : Bool) (s : State) : State :=
  match f.held with
  | none => s
  | some (d, fe, pe) => storeChar n ⟨false, fe, pe, last && !frameCrcOk f.bytes, last, decide (f.bytes.length = 1)⟩ d s

/-- A character received in FRAMED mode (R462): outside a frame only a flag acts. A byte is stored when the next one or the closing flag comes, since
the last carries EOF. DEDUCED (log 32). -/
def framedChar (n : Serial) (d : Byte) (fe pe : Bool) (s : State) : State :=
  let clean := !fe && !pe
  match (serial s n.val).frame with
  | none => if clean && decide (d = 0x7E) then setFrameRx n (some ⟨false, [], none⟩) s else s
  | some f =>
    if clean && decide (d = 0x7E) then
      if f.bytes = [] then setFrameRx n (some ⟨false, [], none⟩) s else storeHeld n f true (setFrameRx n none s)
    else if clean && !f.escape && decide (d = 0x7D) then setFrameRx n (some { f with escape := true }) s
    else
      let x : Byte := if f.escape then d ^^^ 0x20 else d
      storeHeld n f false (setFrameRx n (some ⟨false, f.bytes ++ [x], some (x, fe, pe)⟩) s)

/-- Whether the receiver of a port takes a character: on, not disabled by a stuck line, and on SER1 not blanked by its own transmission (R459,
R461). -/
def receiverOn (s : State) (n : Serial) : Bool :=
  serialOn s && isSet s (.ser n) SER_CFG.EN && !isSet s (.ser n) SER_STATUS.LINE_STUCK &&
    !(decide (n.val = 1) && !isSet s (.ser n) SER_STATUS.TX_IDLE)

/-- A character received: flow control first, then framing or storage (R454, R457, R462); on a card interface an error has it repeated (R464). -/
def receiveChar (n : Serial) (c : SerChar) (s : State) : State :=
  if !receiverOn s n then s
  else
    let cfg := (formatOf s n c.old).1
    let d : Byte := if getBits cfg 25 25 = 1 then BitVec.ofNat 8 (c.data.toNat % 128) else c.data
    let pe := c.pe && decide (getBits cfg 27 26 ≠ 0)
    if 2 ≤ n.val then
      if pe then cardCharError n s else storeChar n ⟨false, c.fe, false, false, false, false⟩ d (cardCharGood n s)
    else if getBits cfg 28 28 = 1 ∧ c.fe = false ∧ pe = false ∧ (d = 0x13 ∨ d = 0x11) then
      setB (.ser n) SER_STATUS.HELD (decide (d = 0x13)) s
    else if getBits cfg 29 29 = 1 then framedChar n d c.fe pe s
    else storeChar n ⟨false, c.fe, pe, false, false, false⟩ d s

/-- SER_CHARACTER_RECEIVED (R454). -/
def execSerCharacterReceived (n : Serial) (c : SerChar) (s : State) : Host.Outcome State Fault Refusal := .next (receiveChar n c s)

/-- SER_RX_READ: the held character leaves the register; a host read of a port that Tarlum owns returns 0 and clears nothing (R454, R467). -/
def execSerRxRead (n : Serial) (tarlum : Bool) (s : State) : Host.Outcome State Fault Refusal :=
  let a := addr (.ser n) SER_RX.VALID.off
  let taken := setB (.ser n) SER_STATUS.RX_FULL false (setReg a 0 s)
  .next (if tarlum then (if tarlumOwns s n then taken else s)
  else if tarlumOwns s n then returnWord 0 s
  else returnWord (reg s a) taken)

/-! Transmission (R455–R457, R460). -/

/-- SEND_BREAK has its turn: the shifter is empty, and the holding register is empty or waits on a stop character (R457, R460). -/
def breakDue (s : State) (n : Serial) : Bool :=
  let x := serial s n.val
  (outstanding s (.ser n)).any (fun o => decide (o.phase = 0)) && x.shift.isNone && (x.hold.isNone || isSet s (.ser n) SER_STATUS.HELD)

/-- The break begun: the line is held low (R460). -/
def startBreak (n : Serial) (s : State) : State :=
  match outstanding s (.ser n) with
  | none => s
  | some o =>
    if breakDue s n then
      emit (.breakLow n.val o.a0.toNat) (setPhase (.ser n) 1 (setSerial n.val { serial s n.val with low := true } s))
    else s

/-- SER_TX_WRITE: an empty holding register is filled; a write to a full one, or by the host to a port that Tarlum owns, counts an error (R455, R467). -/
def execSerTxWrite (n : Serial) (value : Word) (tarlum : Bool) (s : State) : Host.Outcome State Fault Refusal :=
  let p : Page := .ser n
  .next (if tarlum ≠ tarlumOwns s n then (if tarlum then s else countErr p s)
  else if isSet s p SER_STATUS.TX_EMPTY then
    setB p SER_STATUS.TX_EMPTY false (setSerial n.val { serial s n.val with hold := some (BitVec.ofNat 8 (getBits value 7 0)) } s)
  else countErr p s)

/-- A character sent from the shifter, in the format that applies to it. -/
def sendChar (n : Serial) (d : Byte) (s : State) : State :=
  let (cfg, div) := formatOf s n false
  emit (.serial n.val d cfg div) (setB (.ser n) SER_STATUS.TX_IDLE false (setSerial n.val { serial s n.val with shift := some d } s))

/-- The shifter is free: the character that stood in it has been sent. It takes the held character unless a stop character or a break holds it, and
TX_EMPTY is raised; a waiting SEND_BREAK begins (R455, R457, R460). A stop character holds only while FLOW is 1. DESIGN CHOICE (log 32). On a card
interface an error signal has the last character repeated (R464). -/
def shiftLoad (n : Serial) (refused : Bool) (s : State) : State :=
  let p : Page := .ser n
  let x := serial s n.val
  match refused && x.card.isSome, x.shift with
  | true, some d => (let s1 := cardCharError n s; if (serial s1 n.val).card.isSome then sendChar n d s1 else s1)
  | _, _ =>
    let s1 := setB p SER_STATUS.TX_IDLE true (setSerial n.val { x with shift := none } s)
    let stopped := isSet s1 p SER_STATUS.HELD && isSet s1 p SER_CFG.FLOW
    match x.hold with
    | some d =>
      if !serialOn s || !isSet s p SER_CFG.EN || stopped || x.low || breakDue s1 n then startBreak n s1
      else
        raise p SER_INT.TX_EMPTY (setB p SER_STATUS.TX_EMPTY true
          (sendChar n d (setSerial n.val { serial s1 n.val with hold := none } s1)))
    | none => startBreak n s1

/-- SER_TX_SHIFT_LOAD (R455). -/
def execSerTxShiftLoad (n : Serial) (refused : Bool) (s : State) : Host.Outcome State Fault Refusal := .next (shiftLoad n refused s)

/-- SER_DIV_WRITE: a write to SER_DIV or SER_CFG, for the characters from the next start bit on (R456); ignored on a port that Tarlum owns, and on SER1
for a divisor below 54 (R461, R467). -/
def execSerDivWrite (n : Serial) (cfg : Bool) (value : Word) (s : State) : Host.Outcome State Fault Refusal :=
  let p : Page := .ser n
  let (c, d) := formatOf s n false
  .next (if tarlumOwns s n then countErr p s
  else if !cfg ∧ n.val = 1 ∧ getBits value 15 0 < 54 then countErr p s
  else writeRw p (if cfg then SER_CFG.EN.off else SER_DIV.DIV.off) value
    (setSerial n.val { serial s n.val with oldCfg := c, oldDiv := d } s))

/-- SEND_BREAK: BAD_ARG for a length of 0 or above 65,535 ms; REFUSED on a port that Tarlum owns, as SER2 and SER3 always are; else it begins or
waits (R460, R469). -/
def runSendBreak (n : Serial) (o : Outstanding) (s : State) : State :=
  if o.a0.toNat = 0 ∨ 65535 < o.a0.toNat then done (.ser n) CODE.BAD_ARG s
  else if 2 ≤ n.val ∨ tarlumOwns s n then done (.ser n) CODE.REFUSED s
  else startBreak n s

/-- SEND_BREAK, SER command 0x0001 (R469). -/
def execSendBreak (n : Serial) (src : CmdSrc) (s : State) : Host.Outcome State Fault Refusal :=
  .next (issue (.ser n) 0x0001 src (runSendBreak n) s)

/-- The line driven high at the end of a break, or at its abort (R460, R469). -/
def endBreak (n : Serial) (code : Nat) (s : State) : State :=
  let s1 := if (serial s n.val).low then emit (.breakHigh n.val) (setSerial n.val { serial s n.val with low := false } s) else s
  done (.ser n) code s1

/-! Breaks on the line (R458, R459). -/

/-- BREAK_START (R458). -/
def execBreakStart (n : Serial) (s : State) : Host.Outcome State Fault Refusal :=
  .next (if !receiverOn s n || isSet s (.ser n) SER_STATUS.BREAK_ACTIVE then s
  else raise (.ser n) SER_INT.BREAK_START (setB (.ser n) SER_STATUS.BREAK_ACTIVE true s))

/-- A break ended: its length is shown, a break character is stored, and BREAK_END is raised (R458). -/
def endedBreak (n : Serial) (ms : Nat) (s : State) : State :=
  let p : Page := .ser n
  let s1 := setF p SER_BRK_LEN.LEN ms (setB p SER_BRK_LEN.SAT false (setB p SER_STATUS.BREAK_ACTIVE false s))
  raise p SER_INT.BREAK_END (count p SER_BRK_CNT.COUNT (storeChar n ⟨true, false, false, false, false, false⟩ 0 s1))

/-- LINE_STUCK: the length counter of a break saturates; the receiver is disabled and the event is logged (R459). -/
def execLineStuck (n : Serial) (s : State) : Host.Outcome State Fault Refusal :=
  let p : Page := .ser n
  .next (if !isSet s p SER_STATUS.BREAK_ACTIVE || isSet s p SER_STATUS.LINE_STUCK then s
  else
    let s1 := setF p SER_BRK_LEN.LEN 65535 (setB p SER_BRK_LEN.SAT true (setB p SER_STATUS.LINE_STUCK true s))
    logPage p SER_INT.LINE_STUCK [] (raise p SER_INT.LINE_STUCK s1))

/-- LINE_FREE: the line has been high for 2 character times after a stuck line (R459). -/
def execLineFree (n : Serial) (s : State) : Host.Outcome State Fault Refusal :=
  let p : Page := .ser n
  .next (if !isSet s p SER_STATUS.LINE_STUCK then s
  else raise p SER_INT.LINE_FREE (setB p SER_STATUS.BREAK_ACTIVE false (setB p SER_STATUS.LINE_STUCK false s)))

/-! The page (R468). -/

/-- Holding registers, shifters, a stop state and a break in progress given up; the line is driven high (R468). A line that is stuck stays so until it is
free. DESIGN CHOICE (log 32). -/
def emptySerial (n : Serial) (s : State) : State :=
  let p : Page := .ser n
  let s1 := if (serial s n.val).low then emit (.breakHigh n.val) s else s
  let s2 := setB p SER_STATUS.RX_FULL false (setB p SER_STATUS.TX_EMPTY true (setB p SER_STATUS.TX_IDLE true (setB p SER_STATUS.HELD false s1)))
  let s3 := setReg (addr p SER_RX.VALID.off) 0 s2
  let s4 := if isSet s3 p SER_STATUS.LINE_STUCK then s3 else setB p SER_STATUS.BREAK_ACTIVE false s3
  setSerial n.val { serial s4 n.val with hold := none, shift := none, frame := none, low := false } s4

/-- CTRL.BLK_RESET on a SER page (R468). -/
def execSerBlkReset (n : Serial) (s : State) : Host.Outcome State Fault Refusal :=
  .next (blkReset (.ser n) [] (cardError n (emptySerial n s)))

end Sys2Proof.Machine
end

