-- ==== Sys2Proof/Machine/Reset.lean ====
section
/-!
DEFINITION. Sys2Proof/Machine/Reset.lean: what a reset of the module keeps and what it loses (R81, R82, R92, R495), and the resets that Tarlum and the
BOOT page order.
-/
namespace Sys2Proof.Machine

/-! Causes, as bits of BOOT_CAUSE (spec/05_startup_and_images.md). -/

/-- POWER_ON. -/
def START.POWER_ON : Nat := 0
/-- MRST. -/
def START.MRST : Nat := 1
/-- WAKE. -/
def START.WAKE : Nat := 2
/-- SOFT. -/
def START.SOFT : Nat := 3
/-- WATCHDOG. -/
def START.WATCHDOG : Nat := 4
/-- LOCKSTEP. -/
def START.LOCKSTEP : Nat := 5
/-- REVERT. -/
def START.REVERT : Nat := 6
/-- BREAK. -/
def START.BREAK : Nat := 7

/-- Whether the present start is of a cause. -/
def startedBy (s : State) (cause : Nat) : Bool := (reg s (addr .boot BOOT_CAUSE.POWER_ON.off)).toNat.testBit cause

/-! What survives (R81, R82, R495). -/

/-- Registers kept in the key store and the stored configuration, through every reset (R84, R399, R430). DESIGN CHOICE (log 36): the spec names the stored
configuration as port declarations, profile, pair and tree roles and DOMAIN_ID, and gives no list of registers. -/
def storedRegs : List (Page × List Nat) :=
  [(.boot, [0x110, 0x114, 0x118, 0x11C, 0x120]), (.tkt, [0x100, 0x104, 0x108, 0x118]), (.mgt, [0x100, 0x104]), (.sto, [0x104, 0x108, 0x10C]),
   (.nbw, [0x100, 0x11C]), (.bbw, [0x100, 0x128]), (.bcn, [0x100, 0x104, 0x108, 0x114, 0x120, 0x124]), (.pair, [0x100, 0x104, 0x108]),
   (.saf, [0x104, 0x108, 0x110]), (.rpt, [0x104]), (.bbw, (List.range 54).map (fun i => 0x200 + 4 * i)), (.bbw, (List.range 54).map (fun i => 0x300 + 4 * i))] ++
    allPorts.map (fun n => (lptPage n, [0x100]))

/-- Registers of the Dormouse domain, kept through every reset but power-on (R81, R463, R495). -/
def dormouseRegs : List (Page × List Nat) :=
  [(.pwr, (List.range 15).map (fun i => 0x100 + 4 * i)), (.boot, [0x108]), (.ser 0, [0x114]), (.ser 1, [0x114])]

/-- Whether a register is among those of a list of pages. -/
def regIn (l : List (Page × List Nat)) (a : Nat) : Bool := l.any (fun e => decide (pageBase e.1 ≤ a) && e.2.contains (a - pageBase e.1))

/-- Whether a register keeps its value through a reset. LOCK.GEN counts tickets since power-on (R30). -/
def keptReg (power : Bool) (a : Nat) : Bool :=
  regIn storedRegs a || (!power && (regIn dormouseRegs a || decide (a % 0x1000 = 0x20)))

/-- One-bit fields that outlive a reset, whichever it is: what the key store, the bulk store and the card slots hold. -/
def keptBits : List (Page × Field) :=
  [(.tkt, TKT_STATUS.LIST_SET), (.mgt, MGT_STATUS.LOG_WRAPPED), (.sto, STO_STATUS.READ_ONLY), (.ser 2, SER_CARD.PRESENT), (.ser 3, SER_CARD.PRESENT)]

/-- A page's bits as they were before. -/
def keepBits (l : List (Page × Field)) (old s : State) : State := l.foldl (fun t e => setB e.1 e.2 (isSet old e.1 e.2) t) s

/-- The MAC across a reset: parked contexts lie in the bulk store; a wake also keeps what DRAM holds, contexts, relay table and tree routes, and the
beacon keys (R82, R237, R251, R261). -/
def keptMac (wake : Bool) (m : MacSt) : MacSt :=
  let z := State.reset.mac
  if wake then { z with table := m.table, parked := m.parked, bkey := m.bkey, bnext := m.bnext, relays := m.relays, routes := m.routes }
  else { z with parked := m.parked }

/-- The cipher engine across a reset: SWK lies in the key store; a wake keeps KWK, and the counters of the GROUP slots with the key they serve (R326,
R237). -/
def keptCip (wake : Bool) (c : CipSt) : CipSt :=
  let z := State.reset.cip
  if wake then { z with swk := c.swk, kwk := c.kwk, groups := c.groups } else { z with swk := c.swk }

/-- The state of a module that has lost its power or been reset, but for what it keeps (R81, R82). With `power` the Dormouse domain is lost too; with `wake`
DRAM is kept. -/
def lost (power wake : Bool) (s : State) : State :=
  let z := State.reset
  { z with
    regs := s.regs.filter (fun e => keptReg power e.1)
    log := if power then { s.log with buf := [], lost := 0 } else s.log
    time := { z.time with rtc := s.time.rtc, rtcValid := s.time.rtcValid, rtcHiLatch := if power then 0 else s.time.rtcHiLatch }
    pwr :=
      { z.pwr with
        autoDue := s.pwr.autoDue && !power
        killLow := s.pwr.killLow
        mrstLow := s.pwr.mrstLow
        perstLow := s.pwr.perstLow
        alarm := if power then 0 else s.pwr.alarm
        converter := s.pwr.converter
        savedSfn := s.pwr.savedSfn
        savedRtc := s.pwr.savedRtc }
    boot := { z.boot with faults := if power then 0 else s.boot.faults, trialFaults := s.boot.trialFaults }
    mem := { z.mem with fuses := s.mem.fuses }
    tru := { z.tru with saved := s.tru.saved, recorded := s.tru.recorded }
    mac := keptMac wake s.mac
    cip := keptCip wake s.cip
    link := { z.link with hold := if wake then s.link.hold else [] }
    sto := { z.sto with blocks := s.sto.blocks, snf := s.sto.snf }
    pair := { z.pair with start := s.pair.start }
    mgt := { z.mgt with keys := s.mgt.keys, campaign := if wake then s.mgt.campaign else none }
    draws := s.draws
    frees := s.frees
    emits := s.emits
    pending := s.pending }

/-- The fields that a loss of power or a reset empties, and those it keeps, as the registers show them (R81, R82). -/
def lose (power wake : Bool) (s : State) : State :=
  let t1 := keepBits keptBits s (lost power wake s)
  let t2 := if power then t1 else setB .tru TRU_STATUS.OVEN_READY (isSet s .tru TRU_STATUS.OVEN_READY) (setF .pwr PWR_SUPPLY.STATE 1 t1)
  if wake && s.mgt.campaign.isSome then
    [MGT_CAMP.ACTIVE, MGT_CAMP.IMAGE, MGT_CAMP.GROUP, MGT_CAMP.BLOCK, MGT_CAMP_PASS.PASSES, MGT_CAMP_PASS.DONE].foldl
      (fun u f => setF .mgt f (getF s .mgt f) u) (setB .mgt MGT_STATUS.CAMPAIGN true t2)
  else t2

/-! The reset (R81, R92). -/

/-- Every outstanding command completes with RESET; a LOAD_SLOT among them leaves its slot INVALID (R42, R92, R450). -/
def resetCommands (s : State) : State :=
  (s.cmds.filterMap (fun e => pageOfNumber e.1)).foldl (fun t p => complete p CODE.RESET 0 t) (loadReset s)

/-- The kill of a module in reset: RESET until stage 0x0D, KILLN while KILL# is low, and TEMP when it stood, since its condition ends it (R46, R474, R475).
The latched causes of monitors that look at the lines are gone with every driver. DEDUCED (log 37). -/
def resetKill (temp : Bool) (s : State) : State :=
  let s1 := setB .saf SAF_STATUS.KILLN_LOW s.pwr.killLow s
  setF .saf SAF_KILL.CAUSE (2 ^ KILL.RESET + (if s.pwr.killLow then 2 ^ KILL.KILLN else 0) + (if temp then 2 ^ KILL.TEMP else 0)) s1

/-- A module reset of a cause: the start begins at stage 0x01, with exactly one bit of BOOT_CAUSE set (R81, R84). -/
def restart (cause : Nat) (s : State) : State :=
  let power := decide (cause = START.POWER_ON)
  let temp := !power && (killCauses s).testBit KILL.TEMP
  let s1 := lose power (decide (cause = START.WAKE)) (if power then s else resetCommands s)
  let s2 := if cause = START.WAKE then s1 else setF .pwr PWR_WAKE_CAUSE.CAUSE 0 s1
  let s3 := setReg (addr .boot BOOT_CAUSE.POWER_ON.off) (BitVec.ofNat 32 (2 ^ cause)) s2
  let s4 := if cause = START.REVERT then raise .boot BOOT_INT.TRIAL_REVERTED s3 else s3
  resetKill temp s4

/-- A start that goes to RECOVERY (R81, R83, R89). -/
def toRecovery (s : State) : State := { s with boot := { s.boot with recovery := true } }

/-! Trials (R88). -/

/-- The slots in TRIAL that the present start runs, or all of them. -/
def trialSlots (s : State) : List Nat := ([0, 1, 2, 3] : List Nat).filter (fun i => decide (slotState s i = SLOT.TRIAL))

/-- A slot of a trial given up: REVERTED, the other slot of its kind preferred, and the revert logged (R88). -/
def revertSlot (i : Nat) (s : State) : State :=
  let f := if i < 2 then BOOT_SEL.MOD_PREFER else BOOT_SEL.UCODE_PREFER
  logPage .boot BOOT_INT.TRIAL_REVERTED [i] (setF .boot f (1 - i % 2) (setSlotState i SLOT.REVERTED s))

/-- The trial-revert reset (R88). -/
def revertTrial (s : State) : State :=
  let s1 := (trialSlots s).foldl (fun t i => revertSlot i t) s
  restart START.REVERT { s1 with boot := { s1.boot with trialFaults := 0 } }

/-- TRIAL_EXPIRY: BOOT_TRIAL.TIMEOUT has passed in SERVICE without CONFIRM (R88). -/
def execTrialExpiry (s : State) : Host.Outcome State Fault Refusal :=
  .next (if mode s = MODE.SERVICE ∧ trialSlots s ≠ [] then revertTrial s else s)

/-! Resets that Tarlum orders (R81, R83, R88). -/

/-- Whether Tarlum runs: the module has power and its start-up has passed stage 0x03 (R77, R84). -/
def tarlumOn (s : State) : Bool := moduleOn s && !s.pwr.mrstLow && !s.pwr.cold && decide (4 ≤ getF s .boot BOOT_STATUS.STAGE)

/-- A watchdog or lockstep reset: counted; the third starts in RECOVERY; the second that ends a start of a trial slot reverts the trial (R83, R88). -/
def faultReset (cause : Nat) (s : State) : State :=
  if !tarlumOn s then s
  else
    let n := s.boot.faults + 1
    let tf := if s.boot.trialLive then s.boot.trialFaults + 1 else s.boot.trialFaults
    let s1 := { s with boot := { s.boot with faults := n, trialFaults := tf } }
    let s2 := if s.boot.trialLive && decide (2 ≤ tf) then revertTrial s1 else restart cause s1
    if 3 ≤ n then toRecovery s2 else s2

/-- WATCHDOG_EXPIRY (R81, R83). -/
def execWatchdogExpiry (s : State) : Host.Outcome State Fault Refusal := .next (faultReset START.WATCHDOG s)

/-- LOCKSTEP_DISAGREE (R81, R429). -/
def execLockstepDisagree (s : State) : Host.Outcome State Fault Refusal := .next (faultReset START.LOCKSTEP s)

/-- RECOVERY_COUNT_CLEAR: 3,600 s of the real-time counter without a watchdog or lockstep reset (R83). -/
def execRecoveryCountClear (s : State) : Host.Outcome State Fault Refusal := .next { s with boot := { s.boot with faults := 0 } }

/-! Pins (R81, R85, R386). -/

/-- PERST_ASSERT: the PCIe endpoint alone: link, configuration space, MSI-X table and rings (R81, R386). -/
def execPerstAssert (s : State) : Host.Outcome State Fault Refusal :=
  let s1 := { s with pwr := { s.pwr with perstLow := true } }
  .next (if s.pwr.perstLow || !moduleOn s then s1
  else
    let s2 := { perstRings s1 with msixMask := 2 ^ 64 - 1, msixPba := 0, msixTable := [] }
    setF .pci PCI_STATUS.WIDTH 0 (setF .pci PCI_STATUS.SPEED 0 (setB .pci PCI_STATUS.LINK_UP false (setB .pci PCI_STATUS.BUS_MASTER false s2))))

/-- PERST_RELEASE (R85): the link that trains is PCIE_LINK_CHANGE. -/
def execPerstRelease (s : State) : Host.Outcome State Fault Refusal := .next { s with pwr := { s.pwr with perstLow := false } }

/-- MRST_ASSERT: a module reset, held while the pin is low; in DORMOUSE it is a wake, which waits for the release (R72, R81). -/
def execMrstAssert (s : State) : Host.Outcome State Fault Refusal :=
  let s1 := { s with pwr := { s.pwr with mrstLow := true } }
  .next (if s.pwr.mrstLow || !moduleOn s then s1 else restart START.MRST s1)

/-! Wakes (R72). -/

/-- A wake: its source is latched, and the sequence starts with DRAM kept (R72). -/
def wake (source : Nat) (s : State) : State :=
  if s.pwr.state = .dormouse ∧ (reg s (addr .pwr PWR_WAKE_EN.MAIN.off)).toNat.testBit source then
    restart START.WAKE (setF .pwr PWR_WAKE_CAUSE.CAUSE (2 ^ source) s)
  else s

/-- WAKE (R72): sources 0 MAIN, 1 BACKUP, 2 ALARM, 3 SERIAL, 4 MRST. -/
def execWake (source : Fin 5) (s : State) : Host.Outcome State Fault Refusal := .next (wake source.val s)

/-- MRST_RELEASE: the start begins at stage 0x01, or the wake (R72, R85). -/
def execMrstRelease (s : State) : Host.Outcome State Fault Refusal :=
  let s1 := { s with pwr := { s.pwr with mrstLow := false } }
  .next (if s.pwr.mrstLow then wake 4 s1 else s1)

/-- SLEEP_ADDRESS_MATCH: 0x7E and the address, received in sleep mode on SER0 or SER1 (R72, R463). -/
def execSleepAddressMatch (n : Serial) (s : State) : Host.Outcome State Fault Refusal :=
  .next (if n.val < 2 ∧ isSet s (.ser n) SER_SLEEP.EN then wake 3 s else s)

/-! Breaks and commands. -/

/-- BREAK_END (R458): the end of a break; one of 2–10 s on SER0 orders the console-break reset into RECOVERY, unless MODE is RECOVERY or TEST (R81,
R90, R92). -/
def execBreakEnd (n : Serial) (ms : BitVec 16) (s : State) : Host.Outcome State Fault Refusal :=
  .next (
    if !isSet s (.ser n) SER_STATUS.BREAK_ACTIVE || isSet s (.ser n) SER_STATUS.LINE_STUCK then s
    else
      let s1 := endedBreak n ms.toNat s
      if n.val = 0 ∧ 2000 ≤ ms.toNat ∧ ms.toNat ≤ 10000 ∧ mode s ≠ MODE.RECOVERY ∧ mode s ≠ MODE.TEST then toRecovery (restart START.BREAK s1)
      else s1)

/-- RESET_MODULE: OK, then the soft reset, in RECOVERY where ARG0 bit 0 says so (R81, R88). -/
def runResetModule (o : Outstanding) (s : State) : State :=
  let s1 := restart START.SOFT (done .boot CODE.OK s)
  if o.a0.toNat.testBit 0 then toRecovery s1 else s1

/-- RESET_MODULE, BOOT command 0x0001 (R81). -/
def execResetModule (src : CmdSrc) (s : State) : Host.Outcome State Fault Refusal := .next (issue .boot 0x0001 src runResetModule s)

/-- A slot confirmed: VALID, and BOOT_MIN_SVN of its kind rises to its SVN (R88). -/
def confirmSlot (i : Nat) (s : State) : State :=
  let f := if i < 2 then BOOT_MIN_SVN.MOD else BOOT_MIN_SVN.UCODE
  setF .boot f (max (getF s .boot f) (getI s .boot BOOT_IMG.SVN i)) (setSlotState i SLOT.VALID s)

/-- CONFIRM: every slot in TRIAL, or REFUSED (R88). -/
def runConfirm (_ : Outstanding) (s : State) : State :=
  if trialSlots s = [] then done .boot CODE.REFUSED s
  else done .boot CODE.OK ((trialSlots s).foldl (fun t i => confirmSlot i t) { s with boot := { s.boot with trialFaults := 0 } })

/-- CONFIRM, BOOT command 0x0003 (R88). -/
def execConfirm (src : CmdSrc) (s : State) : Host.Outcome State Fault Refusal := .next (issue .boot 0x0003 src runConfirm s)

/-- ENTER_TEST: from RECOVERY only; the kill stays in force (R90). -/
def runEnterTest (_ : Outstanding) (s : State) : State :=
  if mode s = MODE.RECOVERY then done .boot CODE.OK (settleOwner (setF .boot BOOT_STATUS.MODE 4 s)) else done .boot CODE.REFUSED s

/-- ENTER_TEST, BOOT command 0x0004 (R90). -/
def execEnterTest (src : CmdSrc) (s : State) : Host.Outcome State Fault Refusal := .next (issue .boot 0x0004 src runEnterTest s)

end Sys2Proof.Machine
end

