-- ==== Sys2Proof/Machine/Boot.lean ====
section
/-!
DEFINITION. Sys2Proof/Machine/Boot.lean: the stages of the start-up sequence (R84, R85, R87, R91), RECOVERY (R89) and the listening stage (R400).
-/
namespace Sys2Proof.Machine

/-! Pages and modes. -/

/-- Every listed page (R25). -/
def allPages : List Page := (List.range 0x380).filterMap pageOfNumber

/-- Pages that accept commands from now on. -/
def makeReady (l : List Page) (s : State) : State := l.foldl (fun t p => setReady p 1 t) s

/-- STAGE, as reached. -/
def stage (s : State) : Nat := getF s .boot BOOT_STATUS.STAGE

/-- STAGE set. -/
def setStage (n : Nat) (s : State) : State := setF .boot BOOT_STATUS.STAGE n s

/-- MODE set; the owner of SER0 follows (R467). -/
def setMode (m : Nat) (s : State) : State := settleOwner (setF .boot BOOT_STATUS.MODE m s)

/-- The START record of a start, once (R433). -/
def logStart (s : State) : State :=
  if s.boot.logged then s
  else
    let w (o : Nat) : Nat := (reg s (addr .boot o)).toNat
    logEvent 0x0680 0 [w 0x104, (reg s (addr .pwr 0x128)).toNat, w 0x110, w 0x114, w 0x118, w 0x11C] { s with boot := { s.boot with logged := true } }

/-- The pages that serve RECOVERY and TEST: what R89 and R90 let the host or an operator do there. DESIGN CHOICE (log 38): the spec names SER0 and the BOOT
page, and the tasks. -/
def recoveryPages : List Page :=
  [.mod, .pwr, .boot, .saf, .tkt, .mgt, .ser 0, .sto, .pci, .mem] ++ (List.finRange 128).map .memb

/-- The recovery monitor runs: a kill is in force for the mode, and the cause RESET ends (R89, R474). -/
def enterRecovery (fail : Nat) (s : State) : State :=
  let s1 := if fail = 0 then s else setF .boot BOOT_STATUS.LAST_FAIL fail s
  logStart (makeReady recoveryPages (endCause KILL.RESET (kill KILL.MODE none (setMode MODE.RECOVERY s1))))

/-! Stage 0x05: the key store, and keys drawn (R237, R326, R328, R399, R402, R430). -/

/-- A private key from a random value: 1 to the order of the curve less 1. -/
def privateKey (v : Nat) : Nat := v % (pN - 1) + 1

/-- What is drawn at the first start of the module: SWK and the device key (R326, R430). -/
def drawFirst (s : State) : State :=
  if s.cip.swk ≠ [] then s
  else
    let (swk, s1) := randBytes 32 s
    let (v, s2) := draw s1
    let keys := { s2.mgt.keys with device := privateKey v.toNat }
    { s2 with cip := { s2.cip with swk := swk }, mgt := { s2.mgt with keys := keys } }

/-- What is drawn at every start but a wake: KWK, and the beacon key with its salt, generation 0 (R237, R326). -/
def drawStart (s : State) : State :=
  if startedBy s START.WAKE then s
  else
    let (kwk, s1) := randBytes 32 s
    let (k, s2) := randBytes 16 s1
    let (salt, s3) := randBytes 4 s2
    let s4 := { s3 with cip := { s3.cip with kwk := kwk } }
    setMac { s4.mac with bkey := some ⟨k, ofBE salt, 0, none⟩ } s4

/-- Group 0 of the pair and the start count; a paired module holds off until its role is settled (R399–R402). -/
def loadPair (s : State) : State :=
  let paired := isSet s .pair PAIR_ROLE.PAIRED
  let x : PairSt := { s.pair with paired := paired, unit := isSet s .pair PAIR_ROLE.UNIT, key := s.mgt.keys.pair, start := s.pair.start + 1 }
  pairBecomes (if paired then 3 else 0) { s with pair := x }

/-- The key store loaded. -/
def loadKeys (s : State) : State :=
  setB .sto STO_STATUS.RESERVE_OK true (loadPair (drawStart (drawFirst (reseed s))))

/-! Stages 0x06 and 0x0B: images (R87, R88, R281). -/

/-- Whether a slot is tried: VALID, PENDING or TRIAL. DEDUCED (log 38): a slot found INVALID or REVERTED is not. -/
def bootable (s : State) (i : Nat) : Bool := ([SLOT.VALID, SLOT.PENDING, SLOT.TRIAL] : List Nat).contains (slotState s i)

/-- Slots tried in turn: the first that verifies is taken, and one that fails becomes INVALID (R87). -/
def pickSlot : List Nat → State → Option Nat × State
  | [], s => (none, s)
  | i :: rest, s =>
    if !bootable s i then pickSlot rest s
    else
      let c := verifyImage s i
      if c = 0 then (some i, s) else pickSlot rest (markInvalid i c s)

/-- A slot booted: a PENDING one becomes TRIAL, with no start of it lost yet (R88). -/
def bootSlot (i : Nat) (s : State) : State :=
  let s1 := if slotState s i = SLOT.PENDING then setSlotState i SLOT.TRIAL { s with boot := { s.boot with trialFaults := 0 } } else s
  { s1 with boot := { s1.boot with trialLive := s1.boot.trialLive || decide (slotState s1 i = SLOT.TRIAL) } }

/-- Stage 0x06: the module image, or none (R87). -/
def bootModule (s : State) : Option State :=
  let p := getF s .boot BOOT_SEL.MOD_PREFER
  match pickSlot [p, 1 - p] s with
  | (none, _) => none
  | (some i, t) =>
    let t1 := bootSlot i t
    some (setF .boot BOOT_STATUS.MOD_SLOT i { t1 with boot := { t1.boot with modRun := some i, iface := beAt (imageHeader t i) 0x0E 2 } })

/-- What stage 0x06 leaves of a start without a module image: the slots found INVALID. -/
def modFailed (s : State) : State := (pickSlot [getF s .boot BOOT_SEL.MOD_PREFER, 1 - getF s .boot BOOT_SEL.MOD_PREFER] s).2

/-- The microcode shown on every cluster (R281). -/
def showUcode (i : Nat) (s : State) : State :=
  let h := imageHeader s i
  (List.range 32).foldl (fun t c =>
    setB (engPage c) ENG_STATUS.UCODE_LOADED true (setF (engPage c) ENG_UCODE.MAJOR (beAt h 8 1) (setF (engPage c) ENG_UCODE.MINOR (beAt h 9 1)
      (setF (engPage c) ENG_UCODE.IFACE (beAt h 0x0E 2) t)))) s

/-- Stage 0x0B: the microcode image, loaded into all 32 clusters; with none, LAST_FAIL says so and the start goes on (R87, R281). -/
def bootUcode (s : State) : State :=
  let p := getF s .boot BOOT_SEL.UCODE_PREFER
  match pickSlot [2 + p, 3 - p] s with
  | (none, t) => setF .boot BOOT_STATUS.LAST_FAIL 2 t
  | (some i, t) =>
    let t1 := bootSlot i t
    showUcode i (setF .boot BOOT_STATUS.UCODE_SLOT (i - 2) { t1 with boot := { t1.boot with ucodeRun := some (i - 2) } })

/-- The known-answer tests of stage 0x0B: a pipeline that fails is out of service (R338). -/
def testPipes (bad : List (Fin 2)) (s : State) : State :=
  bad.foldl (fun t p => pipeOut p.val 4 t) (setB .cip CIP_STATUS.P0_OK true (setB .cip CIP_STATUS.P1_OK true s))

/-! Stage 0x09: the memory test (R91, R316). -/

/-- A fuse burned before this start in force: its spare holds its column. -/
def applyFuse (f : Nat × Nat × Nat) (s : State) : State := setSpare (Fin.ofNat 128 f.1) f.2.1 (0xC000 + f.2.2) s

/-- The columns replaced by soft repair. -/
def softRepaired (s : State) : Nat :=
  (((List.finRange 128).flatMap (fun b => [(b, 0), (b, 1)])).filter (fun e => spareUsed s e.1 e.2 && !spareFused s e.1 e.2)).length

/-- The banks with a fault. -/
def failedBanks (s : State) : Nat := ((List.finRange 128).filter (fun b => decide (getF s (.memb b) MEMB_STATUS.FAULT_CAUSE ≠ 0))).length

/-- The test of every bank, with BOOT_MEMTEST (R91). -/
def testMemory (cols : List (Bank × Fin 72)) (s : State) : State :=
  let s1 := s.mem.fuses.foldl (fun t f => applyFuse f t) s
  let s2 := (List.finRange 128).foldl (fun t b => (marchBank b ((cols.filter (fun e => decide (e.1 = b))).map (·.2.val)) t).2) s1
  setF .boot BOOT_MEMTEST.FAILED (failedBanks s2) (setF .boot BOOT_MEMTEST.REPAIRED (softRepaired s2) s2)

/-! Stages 0x0A and 0x0C: the table and the grid (R183, R237, R345). -/

/-- The counts of the table and the parked store, shown again. -/
def recountTable (s : State) : State :=
  let n := s.mac.parked.length
  let s1 := setB .asc ASC_STATUS.PARKED_FULL (decide (parkedSize ≤ n)) (setF .asc ASC_PARKED.COUNT n (refreshTable s))
  setB .asc ASC_STATUS.BKEY_PENDING s1.mac.bnext.isSome (setF .asc ASC_BKEY.GEN ((s1.mac.bkey.map (·.gen)).getD 0) s1)

/-- The pending beacon key in force once its APPLY_SFN is reached, and installed into the GROUP slots with their counters at 0 (R237, R438). -/
def applyBkey (s : State) : State :=
  match s.mac.bnext with
  | none => s
  | some (k, a) =>
    if !reached s a then s
    else
      let s1 := setMac { s.mac with bkey := some k, bnext := none } { s with cip := { s.cip with groups := [] } }
      raise .asc ASC_INT.BKEY_APPLIED (setB .asc ASC_STATUS.BKEY_PENDING false (setF .asc ASC_BKEY.GEN k.gen s1))

/-- The SFN of the first superframe of a start: after a wake the one saved, plus the whole superframes that the real-time counter shows to have passed,
plus 1; else 0 (R183). A superframe is 1.048576 s, and the counter counts 76,800 a second. -/
def firstSfn (s : State) : Nat :=
  if startedBy s START.WAKE then
    let d := (s.time.rtc + 2 ^ 48 - s.pwr.savedRtc) % 2 ^ 48
    (s.pwr.savedSfn + d * 1000000 / (76800 * 1048576) + 1) % 2 ^ 32
  else 0

/-- The grid begins, at slot 0 of the first superframe, and the TRU runs; a change of power state is related to TRU time now (R76, R183, R345). -/
def beginGrid (s : State) : State :=
  let n := firstSfn s
  let s1 := applyBkey (startTru (setF .bcn BCN_SFN.SFN n { s with time := { s.time with sfStart := n * 209715200, slot := 0, running := true } }))
  if startedBy s START.WAKE then linkTime 1 3 1 s1 else if startedBy s START.POWER_ON then linkTime 1 4 1 s1 else s1

/-! Stage 0x0D: SERVICE (R84, R307, R497). -/

/-- A port's stored declaration in effect. -/
def loadDecl (n : Nat) (s : State) : State := applyDecl n (setF (lptPage n) LPT_DECL.PENDING 1 s)

/-- The narrowband and broadband sets of the registers in effect. -/
def loadWaves (s : State) : State :=
  let t := nbApply (bandReg s) (nbLevelReg s) { s with nbw := { s.nbw with cfg := nbCfgReg s } }
  let g := bbSetReg t
  setB .bbw BBW_STATUS.MASK_VALID (maskValid g.pmask) { t with bbw := { t.bbw with cur := g, next := g, cfg := bbCfgReg t } }

/-- The beacon configuration and the tree role of the registers in effect. -/
def loadBeacon (s : State) : State :=
  { s with
    bcn :=
      { s.bcn with
        domain := getF s .bcn BCN_CFG.DOMAIN_ID
        bw := getF s .bcn BCN_CFG.BW
        cper := getF s .bcn BCN_CFG.BB_CPER
        epoch := none
        cont := reg s (addr .bcn 0x120)
        occ := reg s (addr .bcn 0x124) }
    mac := { s.mac with role := getF s .rpt RPT_TREE.ROLE } }

/-- The allocation maps of the registers in effect; a narrowband map that the band refuses leaves none. -/
def loadMaps (s : State) : State :=
  let m := if mapAllowed (nsets s.nbw.band) (pendingNbMap s) then pendingNbMap s else 0
  setF .bcn BCN_RU_MAP_CUR.RUS (getF s .bcn BCN_RU_MAP.RUS)
    (setF .bcn BCN_NB_MAP_CUR_LO.SETS m (setF .bcn BCN_NB_MAP_CUR_HI.SETS (m / 2 ^ 32) s))

/-- The stored configuration in effect: profile, maps and plan values, port declarations, tree role (R84). -/
def loadConfig (s : State) : State :=
  allPorts.foldl (fun t n => loadDecl n t) (setB .rpt RPT_STATUS.ROLE_PENDING false (loadMaps (loadBeacon (loadWaves s))))

/-- A trial that awaits CONFIRM is shown (R88). -/
def showTrial (s : State) : State := if trialSlots s = [] then s else raise .boot BOOT_INT.TRIAL_RUNNING s

/-- Stage 0x0D (R84): every block READY, MODE SERVICE, arbitration normal, the cause RESET over, and the report of row 9 due to a watchdog or lockstep
reset (R497). -/
def enterService (s : State) : State :=
  let s1 := makeReady allPages (loadConfig s)
  let s2 := setB .mem MEM_STATUS.ARB_NORMAL true (setMode MODE.SERVICE s1)
  let s3 := raise .boot BOOT_INT.SERVICE (endCause KILL.RESET s2)
  let s4 := if startedBy s START.WATCHDOG ∨ startedBy s START.LOCKSTEP then diagReport 9 .boot s3 else s3
  refreshTunnel (refreshEngines (refreshGate (showTrial { s4 with boot := { s4.boot with trialLive := false } })))

/-! The sequence (R84, R85). -/

/-- Whether the sequence is at work: in start-up, with power, out of reset and not in the cold hold. -/
def starting (s : State) : Bool :=
  decide (s.pwr.state = .run) && !s.pwr.mrstLow && !s.pwr.cold && !s.pwr.shutdown && (decide (mode s = 1) || decide (mode s = MODE.SERVICE))

/-- The baseplate temperature at and above which a power-on goes on: −40 °C in units of 0.0625 °C (R46). -/
def coldLimit : Int := -640

/-- The stage in progress is complete, and the next one begins (R84). -/
def nextStage (f : StageFind) (s : State) : State :=
  match stage s with
  | 0x02 =>
    let s1 := showBase f.temp s
    if startedBy s START.POWER_ON ∧ signedOf 16 f.temp.toNat < coldLimit then { s1 with pwr := { s1.pwr with cold := true } } else setStage 0x03 s1
  | 0x05 =>
    if !f.keyStore then enterRecovery 4 s
    else
      let s1 := loadKeys s
      if s.boot.recovery then enterRecovery 0 s1 else setStage 0x06 s1
  | 0x06 =>
    match bootModule s with
    | none => enterRecovery 1 (modFailed s)
    | some t => logStart (makeReady [.mod, .boot] (setStage 0x07 t))
  | 0x09 =>
    let s1 := testMemory f.columns s
    if 0 < failedBanks s1 then enterRecovery 3 s1 else setStage 0x0A s1
  | 0x0A => setStage 0x0B (recountTable s)
  | 0x0B => setStage 0x0C (testPipes f.pipes (bootUcode s)) |> beginGrid
  | 0x0C => enterService (setStage 0x0D s)
  | 0x0D => if s.boot.ucodeRun.isSome then setStage 0x0E { s with boot := { s.boot with listened := 0 } } else s
  | n => if n < 0x0C then setStage (n + 1) s else s

/-- STARTUP_STAGE_COMPLETE (R84). -/
def execStartupStageComplete (f : StageFind) (s : State) : Host.Outcome State Fault Refusal := .next (if starting s then nextStage f s else s)

/-- COLD_HOLD_END: the baseplate has reached −40 °C; the sequence goes on, and PWR_WAKE_CAUSE shows TEMP alone (R46, R72). -/
def execColdHoldEnd (s : State) : Host.Outcome State Fault Refusal :=
  .next (if s.pwr.cold then setStage 0x03 (setF .pwr PWR_WAKE_CAUSE.CAUSE 0x20 { s with pwr := { s.pwr with cold := false } }) else s)

/-! The end of stage 0x0E (R84, R259, R400, R412). -/

/-- A SOLO module that hears its own DOMAIN_ID does not beacon: it stays in the stage and listens for 2 more superframes (R400). -/
def domainClash (s : State) : State :=
  let s1 := logPage .pair PAIR_INT.DOMAIN_CLASH [] (raise .pair PAIR_INT.DOMAIN_CLASH s)
  let s2 := { s1 with plan := { s1.plan with items := [], grants := [], cells := [], lanes := [] } }
  { s2 with boot := { s2.boot with listened := 1 }, pair := { s2.pair with lastBeacon := none, heard := false } }

/-- Whether a beacon with the module's DOMAIN_ID has been heard in the stage. -/
def heardOwn (s : State) : Bool := s.pair.lastBeacon.isSome

/-- The role settled at the end of the stage (R400): without a heartbeat, STANDBY when a beacon of the domain was heard, else ACTIVE. With heartbeats the role
is settled as they come; one that shows neither ACTIVE nor the peer in the stage leaves it open. -/
def settleRole (s : State) : State :=
  if pairRole s ≠ 3 ∨ peerUp s then s
  else if heardOwn s then settleStandby s
  else pairBecomes 1 s

/-- LISTEN_END: two superframes listened to; the first beacon follows, in the role given, but a subordinate waits for its parent (R84, R259, R400). -/
def listenEnd (s : State) : State :=
  if stage s ≠ 0x0E ∨ s.boot.listened < 3 then s
  else if pairRole s = 0 ∧ heardOwn s then domainClash s
  else
    let s1 := settleRole s
    if isSub s1 ∨ pairRole s1 = 3 then s1 else beginBeaconing s1

/-- LISTEN_END (R84). -/
def execListenEnd (s : State) : Host.Outcome State Fault Refusal := .next (listenEnd s)

end Sys2Proof.Machine
end

