-- ==== Sys2Proof/Machine/LaneRx.lean ====
section
/-!
DEFINITION. Sys2Proof/Machine/LaneRx.lean: frames received on the backhaul lanes: tunnel frames of peers, parents and children, and PTP
(R257, R258, R368–R376).
-/
namespace Sys2Proof.Machine

/-! PTP (R348, R374, R375). -/

/-- The lane of the PTP reference (R348). -/
def ptpLane (s : State) : Nat := getI s .tru REF_CFG.AUX 5 % 4

/-- A correctionField in nanoseconds: its 64 bits count 2^−16 ns. -/
def ptpCorr (v : List Byte) : Int := signedOf 64 (beAt v 8 8) / 65536

/-- A time stamp of a message in nanoseconds: 48-bit seconds and 32-bit nanoseconds. -/
def stampAt (v : List Byte) (o : Nat) : Int := ((beAt v o 6 * 1000000000 + beAt v (o + 6) 4 : Nat) : Int)

/-- The state with the PTP slave changed. -/
def setPtp (x : PtpSt) (s : State) : State := setLink { s.link with ptp := x } s

/-- A measured phase shown as REF_PHASE of a time reference that is present: reference time minus TRU time, REF_DELAY subtracted (R348, R349). -/
def showPhase (r : Nat) (v : Int) (s : State) : State :=
  if qstate s r < QS.QUALIFYING then s
  else setI .tru REF_PHASE.PHASE r (ofSigned 32 (v - signedOf 32 (getI s .tru REF_DELAY.DELAY r))) s

/-- The comparison of Announce data sets in order: true where the first is better. -/
def betterMaster : List Nat → List Nat → Bool
  | a :: x, b :: y => if a = b then betterMaster x y else decide (a < b)
  | _, _ => false

/-- The data set of an Announce message: priority 1, class, accuracy, variance, priority 2, grandmaster, steps removed, source port. -/
def announceSet (v : List Byte) : List Nat :=
  [beAt v 47 1, beAt v 48 1, beAt v 49 1, beAt v 50 2, beAt v 52 1, beAt v 53 8, beAt v 61 2, beAt v 20 10]

/-- The source port of the present master. -/
def masterPort (s : State) : Option Nat := s.link.ptp.master.map (fun m => m.getD 7 0)

/-- A complete Sync: offsetFromMaster is shown and passed to the PTP reference (R375). -/
def ptpSync (l : Nat) (t1 t2 : Int) (s : State) : State :=
  let p := lanPage l
  let ofs := t2 - t1 - signedOf 32 (getF s p LAN_PTP_DLY.VALUE)
  let s1 := setF p LAN_PTP_OFS.VALUE (ofSigned 32 ofs) (setB p LAN_STATUS.PTP_SLAVE true s)
  showPhase 5 (-ofs) (setPtp { s1.link.ptp with sync := none, t1 := t1, t2 := t2, lastSync := some (sfn s) } s1)

/-- LAN_PTP_DLY (R375). -/
def ptpDelay (l : Nat) (d : Int) (s : State) : State := setF (lanPage l) LAN_PTP_DLY.VALUE (ofSigned 32 d) s

/-- The answers to a Pdelay_Req: Pdelay_Resp with the receipt stamp and Pdelay_Resp_Follow_Up with the origin stamp (R375). The own port identity
is not given by the spec and stands as zeros. -/
def pdelayAnswer (l : Nat) (v : List Byte) (stamp : Int) (s : State) : State :=
  let head (ty fl : Nat) : List Byte :=
    [byteOf ty, 2] ++ beBytes 2 54 ++ slice v 4 1 ++ [0, byteOf fl, 0] ++ List.replicate 12 0 ++ List.replicate 10 0 ++ slice v 30 2 ++ [5, 0x7F]
  emit (.ptp l (head 0xA 0 ++ stamp10 stamp ++ slice v 20 10)) (emit (.ptp l (head 0x3 2 ++ stamp10 stamp ++ slice v 20 10)) s)

/-- A PTP message on the PTP lane (R375): `stamp` its arrival, `sent` the stamp of the own request that it answers, in TRU nanoseconds. -/
def ptpIn (l : Nat) (v : List Byte) (stamp sent : Int) (s : State) : State :=
  let p := lanPage l
  let x := s.link.ptp
  let utility := isSet s p LAN_PTP.PROFILE
  let ofMaster := decide (masterPort s = some (beAt v 20 10))
  let two := (beAt v 6 1).testBit 1
  let q := beAt v 30 2
  if getI s .tru REF_CFG.EN 5 = 0 ∨ l ≠ ptpLane s ∨ v.length < 44 ∨ beAt v 1 1 % 16 ≠ 2 ∨ beAt v 4 1 ≠ getF s p LAN_PTP.DOMAIN then s
  else match beAt v 0 1 % 16 with
    | 0x0 =>
      if !ofMaster then s
      else if two then setPtp { x with sync := some (q, ptpCorr v, stamp) } s
      else ptpSync l (stampAt v 34 + ptpCorr v) stamp s
    | 0x8 =>
      match x.sync with
      | some (k, c, t2) => if ofMaster && decide (k = q) then ptpSync l (stampAt v 34 + c + ptpCorr v) t2 s else s
      | none => s
    | 0x9 =>
      if ofMaster && !utility then ptpDelay l (((x.t2 - x.t1) + (stampAt v 34 - ptpCorr v - sent)) / 2) s else s
    | 0x2 => if utility then pdelayAnswer l v stamp s else s
    | 0x3 =>
      if !utility then s
      else if two then setPtp { x with pdelay := some (q, stampAt v 34 - ptpCorr v, sent, stamp) } s
      else ptpDelay l (((stamp - sent) - ptpCorr v) / 2) s
    | 0xA =>
      match x.pdelay with
      | some (k, t2, t1, t4) =>
        if utility && decide (k = q) then ptpDelay l (((t4 - t1) - (stampAt v 34 + ptpCorr v - t2)) / 2) (setPtp { x with pdelay := none } s) else s
      | none => s
    | 0xB =>
      let m := announceSet v
      if v.length < 64 then s
      else if ofMaster || x.master.elim true (fun b => betterMaster m b) then setPtp { x with master := some m } s else s
    | _ => s

/-- PTP_MESSAGE (R375). -/
def execPtpMessage (l : Lane) (data : List Byte) (stamp sent : BitVec 64) (s : State) : Host.Outcome State Fault Refusal :=
  .next (if laneUp s l.val then ptpIn l.val data (signedOf 64 stamp.toNat) (signedOf 64 sent.toNat) s else s)

/-! Tunnel frames (R368–R373). -/

/-- A received frame dropped (R368). -/
def laneDrop (l : Nat) (s : State) : State :=
  raise (lanPage l) LAN_INT.RX_ERR (count (lanPage l) LAN_RX_DROP_CNT.COUNT s)

/-- LAN_MAC of a lane. -/
def laneAddr (s : State) (l : Nat) : Nat := getF s (lanPage l) LAN_MAC_HI.ADDR * 2 ^ 32 + getF s (lanPage l) LAN_MAC_LO.ADDR

/-- Whether a frame has the destination, EtherType and tagging of a tunnel frame of its lane (R368). -/
def tunnelFor (s : State) (l : Nat) (f : LaneRx) : Bool :=
  let p := lanPage l
  decide (f.dst.toNat = laneAddr s l) && decide (f.etype.toNat = getF s p LAN_ETYPE.ETYPE) &&
    (match f.vlan with
     | some t => isSet s p LAN_CFG.VLAN_EN && decide (t.toNat % 4096 = getF s p LAN_VLAN.VID)
     | none => !isSet s p LAN_CFG.VLAN_EN)

/-- DOWN_DATA (R372): handled as a descriptor; a store that is full or being drained answers NO_SPACE; a STANDBY and a module whose role is not
settled discard it. DESIGN CHOICE (log 30). -/
def downData (l : Nat) (index : Option Nat) (body : List Byte) (s : State) : State :=
  let d : DlDesc := ⟨BitVec.ofNat 32 (index.getD (2 ^ 32 - 1)), BitVec.ofNat 16 (body.length - 10), BitVec.ofNat 8 (beAt body 8 1),
    BitVec.ofNat 64 (beAt body 0 8), some (body.drop 10)⟩
  if 2 ≤ pairRole s then s
  else if takesDown s then takeDown none (some l) d s
  else dlDone none (some l) d.cookie.toNat DST.NO_SPACE 0 s

/-- An Ngael frame of a lane: its header and payload as a frame in, or none when malformed; `up` for one of the parent (R257). -/
def laneFrameIn (s : State) (l : Nat) (up : Bool) (stamp : Int) (b : List Byte) : Option FrameIn :=
  let h := bbHeader (b.take 12)
  let at_ := ((stamp - s.tru.e) / 5).toNat - s.time.sfStart
  if b.length < 12 ∨ bbHeaderBytes h ≠ b.take 12 ∨ h.ver ≠ 1 ∨ b.length < 12 + h.len then none
  else some ⟨false, up, h.ftype, h.addr, h.fseq, 0, slice b 12 h.len, 0, h.ruFirst, h.ruLast, 0, 0, sfn s, at_, some l, false⟩

/-- A frame of the parent over the uplink lane; its beacon begins a measurement of the link delay (R258, R373). -/
def fromParent (l : Nat) (tx stamp : Int) (f : FrameIn) (s : State) : State :=
  if f.ftype = FT.BEACON then
    let s1 := setLane l { lane s l with t1 := tx, t2 := stamp, t3 := stamp } s
    laneSend l ⟨TT.DLY_REQ, 0, none, sfn s, stamp10 stamp⟩ (parentBeacon f s1)
  else if f.ftype = FT.ASSOC then parentAnswer f s
  else parentData f s

/-- A frame of a subordinate child over a lane (R257). -/
def fromChild (f : FrameIn) (s : State) : State :=
  if f.ftype = FT.DATA then dataFrame f s
  else if f.ftype = FT.ACK then ackIn f s
  else if assocCode f 1 then joinSolicit f s
  else if assocCode f 4 then joinReq f s
  else if assocCode f 7 then grantReq f s
  else malformed s

/-- Whether a lane is the uplink of this subordinate (R257). -/
def isUpLane (s : State) (l : Nat) : Bool := decide (s.mac.role = 2) && upIsLane s && decide (getF s .rpt RPT_TREE.UP_LANE = l)

/-- NGAEL (R257, R370, R373): of the parent on the uplink lane, of a child elsewhere; a STANDBY verifies nothing (R401). -/
def ngaelIn (l : Nat) (stamp : Int) (body : List Byte) (s : State) : State :=
  let up := isUpLane s l
  match laneFrameIn s l up stamp (body.drop 10) with
  | none => malformed s
  | some f =>
    if standby s then s
    else if up then flushLanes (fromParent l (stampAt body 0) stamp f s)
    else if s.mac.role = 0 then s
    else flushLanes (fromChild f s)

/-- DLY_RESP on the uplink lane: LAN_LINK_DLY, and the input of the PARENT reference (R373). -/
def dlyResp (l : Nat) (body : List Byte) (s : State) : State :=
  let x := lane s l
  if !isUpLane s l ∨ stampAt body 0 ≠ x.t3 then s
  else
    let d := ((x.t2 - x.t1) + (stampAt body 10 - x.t3)) / 2
    showPhase 7 (-(x.t2 - x.t1 - d)) (setF (lanPage l) LAN_LINK_DLY.VALUE (ofSigned 32 d) s)

/-- A tunnel frame accepted, by TTYPE (R370); what only a peer is sent has no effect here. -/
def tunnelIn (l : Nat) (ttype : Nat) (index : Option Nat) (body : List Byte) (stamp : Int) (s : State) : State :=
  if ttype = TT.DOWN_DATA then downData l index body s
  else if ttype = TT.NGAEL then ngaelIn l stamp body s
  else if ttype = TT.DLY_REQ then
    (if standby s then s else laneSend l ⟨TT.DLY_RESP, 0, none, sfn s, body.take 10 ++ stamp10 stamp⟩ s)
  else if ttype = TT.DLY_RESP then dlyResp l body s
  else s

/-- The shortest body of a TTYPE. -/
def bodyMin (ttype : Nat) : Nat :=
  if ttype = TT.DOWN_DATA then 10 else if ttype = TT.NGAEL then 22 else if ttype = TT.DLY_REQ then 10 else if ttype = TT.DLY_RESP then 20 else 0

/-- A received frame that is for the tunnel: dropped when its header is malformed or its TTYPE reserved (R368, R369). -/
def tunnelFrame (l : Nat) (f : LaneRx) (s : State) : State :=
  let v := f.data
  let n := beAt v 2 2
  let ty := beAt v 1 1
  let ix := beAt v 16 4
  if v.length < 24 ∨ beAt v 0 1 ≠ 1 ∨ v.length < 24 + n ∨ ty = 0 ∨ 9 < ty ∨ n < bodyMin ty then laneDrop l s
  else tunnelIn l ty (if ix.testBit 31 then some (ix % 2 ^ 20) else none) (slice v 24 n) (signedOf 64 f.stamp.toNat)
    (count (lanPage l) LAN_RX_CNT.COUNT s)

/-- TUNNEL_FRAME_RECEIVED (R368): frames with a bad FCS are counted, MAC control goes to PAUSE, 0x88F7 to PTP, tunnel frames to the tunnel, and every
other frame is dropped. -/
def laneRx (l : Nat) (f : LaneRx) (s : State) : State :=
  if !laneUp s l then s
  else if !f.fcsOk then raise (lanPage l) LAN_INT.RX_ERR (count (lanPage l) LAN_FCS_ERR_CNT.COUNT s)
  else if f.etype = 0x8808 then
    (if beAt f.data 0 2 = 1 ∧ 4 ≤ f.data.length then pauseIn l (beAt f.data 2 2) s else s)
  else if f.etype = 0x88F7 then ptpIn l f.data (signedOf 64 f.stamp.toNat) (signedOf 64 f.stamp.toNat) s
  else if tunnelFor s l f then tunnelFrame l f s
  else laneDrop l s

/-- TUNNEL_FRAME_RECEIVED (R368). -/
def execTunnelFrameReceived (l : Lane) (f : LaneRx) (s : State) : Host.Outcome State Fault Refusal := .next (laneRx l.val f s)

end Sys2Proof.Machine
end

