-- ==== Sys2Proof/Machine/Pwr.lean ====
section
/-!
DEFINITION. Sys2Proof/Machine/Pwr.lean: supply supervision, RUN, OUTAGE, DORMOUSE and OFF, the shutdown and the last-gasp frame, and the real-time
counter (spec/04_supplies_and_sleep.md).
-/
namespace Sys2Proof.Machine

/-! Supplies (R65, R66). -/

/-- PWR_SUPPLY.SOURCE: MAIN. -/
def SRC.MAIN : Nat := 1
/-- PWR_SUPPLY.SOURCE: BACKUP. -/
def SRC.BACKUP : Nat := 2
/-- PWR_SUPPLY.SOURCE: hold-up only. -/
def SRC.HOLD_UP : Nat := 3

/-- PWR_SUPPLY.SOURCE. -/
def source (s : State) : Nat := getF s .pwr PWR_SUPPLY.SOURCE

/-- A power-state code of PWR_SUPPLY.STATE (R433). -/
def stateCode : PowerState → Nat
  | .run => 1
  | .outage => 2
  | .dormouse => 3
  | .off => 4

/-- Whether supply events act on a module in service of its host: on, and not in the shutdown of R73. -/
def watching (s : State) : Bool := moduleOn s && !s.pwr.shutdown

/-- The power domain changed. -/
def setPwr (x : PwrSt) (s : State) : State := { s with pwr := x }

/-- An event of the supplies raised and logged, with the module on (R66); in DORMOUSE Tarlum is off and the registers alone change. -/
def noteSupply (bit : Nat) (s : State) : State := if moduleOn s then logPage .pwr bit [] (raise .pwr bit s) else s

/-- A reading shown (R79). -/
def showVolts (f : Field) (v : BitVec 16) (s : State) : State := setF .pwr f v.toNat s

/-- The source the module draws from now: MAIN when good, else BACKUP when good, else hold-up. -/
def settleSource (s : State) : State :=
  let m := isSet s .pwr PWR_SUPPLY.MAIN_OK
  let b := isSet s .pwr PWR_SUPPLY.BACKUP_OK
  let s1 := setF .pwr PWR_SUPPLY.SOURCE (if m then SRC.MAIN else if b then SRC.BACKUP else SRC.HOLD_UP) s
  setPwr { s1.pwr with converter := s1.pwr.converter || (b && !m), okSince := s1.pwr.shutdown && (m || b) } s1

/-- A pending entry to OUTAGE is cancelled, an ENTER_OUTAGE outstanding for it REFUSED (R80). -/
def cancelEntry (s : State) : State :=
  if s.pwr.state ≠ .run then s
  else
    let s1 := setPwr { s.pwr with next := none, autoDue := false } s
    match outstanding s1 .pwr with
    | some o => if o.opcode = 2 then done .pwr CODE.REFUSED s1 else s1
    | none => s1

/-- MAIN_OK declared (R65, R66): the return to MAIN. -/
def mainOk (volts : BitVec 16) (s : State) : State :=
  let s1 := settleSource (setB .pwr PWR_SUPPLY.MAIN_OK true (showVolts PWR_MAIN_V.VALUE volts s))
  if s.pwr.state = .dormouse then wake 0 s1
  else if s.pwr.shutdown then s1
  else cancelEntry (noteSupply PWR_INT.MAIN_RESTORED (setPwr { s1.pwr with autoDue := false } s1))

/-- MAIN_OK (R65, R66). In OFF a supply declared OK is POWER_ON. -/
def execMainOk (volts : BitVec 16) (s : State) : Host.Outcome State Fault Refusal :=
  .next (if s.pwr.state = .off ∨ isSet s .pwr PWR_SUPPLY.MAIN_OK then s else mainOk volts s)

/-- MAIN_FAILED (R65, R66): the BACKUP converter starts when BACKUP is good. -/
def execMainFailed (volts : BitVec 16) (s : State) : Host.Outcome State Fault Refusal :=
  .next (
    if s.pwr.state = .off ∨ !isSet s .pwr PWR_SUPPLY.MAIN_OK then s
    else
      let s1 := settleSource (setB .pwr PWR_SUPPLY.MAIN_OK false (showVolts PWR_MAIN_V.VALUE volts s))
      if s.pwr.shutdown then s1 else noteSupply PWR_INT.MAIN_LOST s1)

/-- BACKUP_STANDBY_RETURN: 100 ms after MAIN carries the load (R66). -/
def execBackupStandbyReturn (s : State) : Host.Outcome State Fault Refusal :=
  .next (if source s = SRC.MAIN then setPwr { s.pwr with converter := false } s else s)

/-- BACKUP_OK (R65). -/
def execBackupOk (volts : BitVec 16) (s : State) : Host.Outcome State Fault Refusal :=
  .next (
    if s.pwr.state = .off ∨ isSet s .pwr PWR_SUPPLY.BACKUP_OK then s
    else
      let s1 := setB .pwr PWR_SUPPLY.REVERSED false (setB .pwr PWR_SUPPLY.BACKUP_OK true (showVolts PWR_BACKUP_V.VALUE volts s))
      let s2 := settleSource s1
      if watching s then raise .pwr PWR_INT.BACKUP_CHANGE s2 else s2)

/-- BACKUP_FAILED: out of range, or reversed, which is logged (R56, R65). -/
def execBackupFailed (volts : BitVec 16) (reversed : Bool) (s : State) : Host.Outcome State Fault Refusal :=
  .next (
    if s.pwr.state = .off then s
    else
      let was := isSet s .pwr PWR_SUPPLY.BACKUP_OK
      let turned := reversed && !isSet s .pwr PWR_SUPPLY.REVERSED
      let s1 := setB .pwr PWR_SUPPLY.REVERSED reversed (setB .pwr PWR_SUPPLY.BACKUP_OK false (showVolts PWR_BACKUP_V.VALUE volts s))
      let s2 := if was then settleSource s1 else s1
      let s3 := if was && watching s then raise .pwr PWR_INT.BACKUP_CHANGE s2 else s2
      if turned && watching s then noteSupply PWR_INT.BACKUP_REVERSED s3 else s3)

/-- BACKUP_LOW (R80): raised and logged, whichever supply feeds the module. -/
def execBackupLow (volts : BitVec 16) (s : State) : Host.Outcome State Fault Refusal :=
  .next (if watching s then noteSupply PWR_INT.BACKUP_LOW (showVolts PWR_BACKUP_V.VALUE volts s) else s)

/-! DORMOUSE (R71). -/

/-- The command in progress on the bulk store completes (R67, R71). -/
def endStore (s : State) : State :=
  match outstanding s .sto with
  | some o => finishBlocks o none 0 s
  | none => s

/-- Entry to DORMOUSE, in the order of R71: drivers off, store operations complete, the entry logged and flushed (R434); an ENTER_DORMOUSE completes; the
other domains go off, DRAM keeps its content. The SFN and the real-time counter are kept for R183. -/
def enterDormouse (s : State) : State :=
  let s1 := endStore (stopSelfCal (allDriversOff s))
  let s2 := linkTime 1 (stateCode s.pwr.state) 3 s1
  let s3 := logFlush (logEvent 0x0682 0 [sfn s] s2)
  let s4 := match outstanding s3 .pwr with
    | some o => if o.opcode = 1 then done .pwr CODE.OK s3 else s3
    | none => s3
  let temp := (killCauses s4).testBit KILL.TEMP
  let s5 := lose false true (resetCommands (setPwr { s4.pwr with savedSfn := sfn s, savedRtc := s.time.rtc, autoDue := false } s4))
  resetKill temp (setPwr { s5.pwr with state := .dormouse } s5)

/-- ENTER_DORMOUSE. During the shutdown of R73 it is refused: DESIGN CHOICE (log 39). -/
def runEnterDormouse (_ : Outstanding) (s : State) : State := if watching s then enterDormouse s else done .pwr CODE.REFUSED s

/-- ENTER_DORMOUSE, PWR command 0x0001 (R71). -/
def execEnterDormouse (src : CmdSrc) (s : State) : Host.Outcome State Fault Refusal := .next (issue .pwr 0x0001 src runEnterDormouse s)

/-- DORM_ON_LOW_EXPIRY: BACKUP below BACKUP_LOW for 10 s while on BACKUP (R67, R71). -/
def execDormOnLowExpiry (s : State) : Host.Outcome State Fault Refusal :=
  .next (if watching s && decide (source s = SRC.BACKUP) && isSet s .pwr PWR_POLICY.DORM_ON_LOW then enterDormouse s else s)

/-! OUTAGE (R68–R70, R80). -/

/-- OUTAGE_DELAY_EXPIRY: OUTAGE_DELAY seconds on BACKUP ask for the entry at the next plan fixing (R68). -/
def execOutageDelayExpiry (s : State) : Host.Outcome State Fault Refusal :=
  .next (
    if decide (s.pwr.state = .run) && !s.pwr.shutdown && decide (source s = SRC.BACKUP) && isSet s .pwr PWR_POLICY.OUTAGE_EN then
      setPwr { s.pwr with autoDue := true } s
    else s)

/-- The outage ports. -/
def outagePorts (s : State) : List Nat := allPorts.filter (outagePort s)

/-- Whether the outage port set is refused: more than 16 ports, or an undeclared one (R70). -/
def outageBad (s : State) : Bool := decide (16 < (outagePorts s).length) || (outagePorts s).any (fun n => !(port s n).declared)

/-- The opcode of the power command outstanding, 0 for none. -/
def powerCommand (s : State) : Nat := (outstanding s .pwr).elim 0 (·.opcode)

/-- ENTER_OUTAGE: outstanding to the superframe boundary, or refused. -/
def runEnterOutage (_ : Outstanding) (s : State) : State :=
  if source s ≠ SRC.BACKUP ∨ s.pwr.shutdown then done .pwr CODE.REFUSED s
  else if outageBad s then done .pwr CODE.BAD_ARG s
  else s

/-- ENTER_OUTAGE, PWR command 0x0002 (R70). -/
def execEnterOutage (src : CmdSrc) (s : State) : Host.Outcome State Fault Refusal := .next (issue .pwr 0x0002 src runEnterOutage s)

/-- LEAVE_OUTAGE: outstanding to the superframe boundary, or REFUSED outside OUTAGE. -/
def runLeaveOutage (_ : Outstanding) (s : State) : State := if inOutage s && !s.pwr.shutdown then s else done .pwr CODE.REFUSED s

/-- LEAVE_OUTAGE, PWR command 0x0003 (R68). -/
def execLeaveOutage (src : CmdSrc) (s : State) : Host.Outcome State Fault Refusal := .next (issue .pwr 0x0003 src runLeaveOutage s)

/-- The transition decided at the slot 512 at which a plan is fixed (R68): a commanded or automatic entry, whose port set is tested again (R70), or the
leaving of OUTAGE. An ENTER_OUTAGE that finds the module in OUTAGE completes at the boundary too. -/
def decidePower (s : State) : State :=
  if s.pwr.shutdown then s
  else if s.pwr.state = .run then
    if powerCommand s = 2 then
      if outageBad s then done .pwr CODE.BAD_ARG s else setPhase .pwr 1 (setPwr { s.pwr with next := some .outage } s)
    else if s.pwr.autoDue && isSet s .pwr PWR_POLICY.OUTAGE_EN && decide (source s = SRC.BACKUP) then
      if outageBad s then noteSupply PWR_INT.OUTAGE_REFUSED (setPwr { s.pwr with autoDue := false } s)
      else setPwr { s.pwr with next := some .outage } s
    else s
  else if s.pwr.state = .outage then
    let s1 := if powerCommand s = 2 ∨ powerCommand s = 3 then setPhase .pwr 1 s else s
    if source s = SRC.MAIN ∨ powerCommand s = 3 then setPwr { s1.pwr with next := some .run } s1 else s1
  else s

/-- The state with the power state of the plan being fixed (R68). -/
def plannedState (s : State) : State := setPwr { s.pwr with state := s.pwr.next.getD s.pwr.state } s

/-- Receive chains, lanes, engines and pipelines follow a change between RUN and OUTAGE (R69, R284, R286). -/
def followPower (s : State) : State :=
  let s1 := allPorts.foldl (fun t n => refreshChain n t) s
  let off (l : LaneId) (f : State → State) (t : State) : State := if inOutage t && !laneKept t l then f t else t
  let s2 := (List.finRange 4).foldl (fun t l => off (.bh l) (laneFall l.val false false false) t) s1
  let s3 := (List.finRange 2).foldl (fun t m => off (.pm m) (mirrorFall m false false) t) s2
  refreshGate (refreshEngines s3)

/-- A transition takes effect at the start of a superframe, and the command that waited for it completes (R68). -/
def applyPower (s : State) : State :=
  let s1 := match s.pwr.next with
    | none => s
    | some st =>
      let t := setF .pwr PWR_SUPPLY.STATE (stateCode st) (setPwr { s.pwr with state := st, next := none, autoDue := false } s)
      let t1 := linkTime 1 (stateCode s.pwr.state) (stateCode st) t
      followPower (raise .pwr (if st = .outage then PWR_INT.OUTAGE_ENTERED else PWR_INT.OUTAGE_LEFT) t1)
  match outstanding s1 .pwr with
  | some o => if o.phase = 1 then done .pwr CODE.OK s1 else s1
  | none => s1

/-- An abort of ENTER_OUTAGE or LEAVE_OUTAGE before the boundary: ABORTED, the state unchanged unless another condition decided it too. -/
def abortPower (o : Outstanding) (s : State) : State :=
  let keep := if o.opcode = 3 then decide (source s = SRC.MAIN) else s.pwr.autoDue && isSet s .pwr PWR_POLICY.OUTAGE_EN
  done .pwr CODE.ABORTED (if keep then s else setPwr { s.pwr with next := none } s)

/-! The last-gasp frame and the shutdown (R73–R75, R394). -/

/-- The last-gasp payload (R74): the CRC is big-endian as every multi-byte field. -/
def lastGasp (cause : Nat) (s : State) : List Byte :=
  let t := truNs s (slotTime s)
  let l := beBytes 8 Config.moduleId.toNat ++ beBytes 6 ((t / 1000000000) % (2 ^ 48 : Int)).toNat ++ beBytes 4 (t % 1000000000).toNat ++
    [byteOf cause, byteOf (tq s)] ++ beBytes 2 (getF s .pwr PWR_MAIN_V.VALUE) ++ beBytes 2 (getF s .pwr PWR_BACKUP_V.VALUE) ++
    beBytes 4 ((getF s .mgt MGT_LOG_NEXT.VALUE + 2 ^ 32 - 1) % 2 ^ 32)
  l ++ beBytes 4 (crc32 l)

/-- The last-gasp frame on a mirror lane that is up (R73). -/
def gaspMirror (m : Fin 2) (f : TunnelFrame) (s : State) : State :=
  if isSet s (.lanm m) LANM_STATUS.UP then count (.lanm m) LANM_TX_CNT.COUNT (emit (.lane (4 + m.val) f) s) else s

/-- Every event that waits delivered; `fuel` bounds them by their number. -/
def deliverEvents : Nat → State → State
  | 0, s => s
  | fuel + 1, s => deliverEvents fuel (eventDelivery s)

/-- The last-gasp frame sent on every lane that is up, on the mirror lanes when up, and on the EVENT ring (R73). -/
def sendLastGasp (cause : Nat) (s : State) : State :=
  let b := lastGasp cause s
  let f : TunnelFrame := ⟨TT.LAST_GASP, 0, none, sfn s, b⟩
  let s1 := (List.range 4).foldl (fun t l => laneSend l f t) s
  let s2 := (List.finRange 2).foldl (fun t m => gaspMirror m f t) s1
  let s3 := hostEvent 0x0003 0 0 0 b s2
  deliverEvents s3.link.events.length s3

/-- TEST_LAST_GASP, PWR command 0x0004 (R73, R74). -/
def execTestLastGasp (src : CmdSrc) (s : State) : Host.Outcome State Fault Refusal :=
  .next (issue .pwr 0x0004 src (fun _ t => done .pwr CODE.OK (sendLastGasp 0x80 t)) s)

/-- CAUSE of R74: both within 3 ms, BACKUP lost while on it, or MAIN lost. -/
def gaspCause (together : Bool) (s : State) : Nat := if together then 3 else if source s = SRC.BACKUP then 2 else 1

/-- Everything that draws power for the line is off: drivers through the kill path, engines gated, a pending transition dropped (R73, R80, R479). -/
def shedLoad (s : State) : State :=
  let s1 := diagReport 10 .pwr (kill KILL.SUPPLY none s)
  let s2 := (List.range 32).foldl (fun t c => gateCluster c t) s1
  setPwr { s2.pwr with next := none, autoDue := false, shutdown := true } s2

/-- The bulk store's part: the command outstanding ends RESET after the blocks programmed, no new one is taken, and the final record is written (R73,
R394, R397). -/
def closeStore (cause blocks : Nat) (s : State) : State :=
  let s1 := setReady .sto 0 (stopBlocks blocks CODE.RESET s)
  let s2 := logFlush (linkTime 1 (stateCode s.pwr.state) 4 s1)
  logFlush (logEvent 0x0683 0 [cause, getF s .pwr PWR_MAIN_V.VALUE, getF s .pwr PWR_BACKUP_V.VALUE] s2)

/-- The module in OFF: every domain but the real-time counter lost (R73, R75). -/
def goOff (s : State) : State :=
  let t := lose true false (resetCommands s)
  setPwr { t.pwr with state := .off } t

/-- The shutdown begun (R73); before stage 0x07 no last-gasp frame is sent. -/
def bothFailed (main backup : BitVec 16) (together : Bool) (blocks : Nat) (s : State) : State :=
  let cause := gaspCause together s
  let s1 := showVolts PWR_MAIN_V.VALUE main (showVolts PWR_BACKUP_V.VALUE backup s)
  let s2 := setB .pwr PWR_SUPPLY.MAIN_OK false (setB .pwr PWR_SUPPLY.BACKUP_OK false (setF .pwr PWR_SUPPLY.SOURCE SRC.HOLD_UP s1))
  let s3 := shedLoad s2
  closeStore cause blocks (if 7 ≤ stage s3 then sendLastGasp cause s3 else s3)

/-- BOTH_FAILED: in DORMOUSE every domain goes off at once, with no frame and no record (R73). -/
def execBothFailed (main backup : BitVec 16) (together : Bool) (blocks : Nat) (s : State) : Host.Outcome State Fault Refusal :=
  .next (
    if s.pwr.state = .dormouse then goOff s
    else if watching s then bothFailed main backup together blocks s
    else s)

/-! Power-on (R65, R75, R81). -/

/-- A power-on from a supply declared OK: the start begins, the real-time counter as its reserve has kept it (R75). -/
def powerOn (main backup : Bool) (volts : BitVec 16) (spent : Bool) (s : State) : State :=
  let t := { s.time with rtc := if spent then 0 else s.time.rtc, rtcValid := !spent }
  let s1 := restart START.POWER_ON { s with time := t }
  let s2 := setB .pwr PWR_SUPPLY.MAIN_OK main (setB .pwr PWR_SUPPLY.BACKUP_OK backup s1)
  settleSource (showVolts (if main then PWR_MAIN_V.VALUE else PWR_BACKUP_V.VALUE) volts s2)

/-- POWER_ON (R81): by MAIN or by BACKUP. -/
def execPowerOn (main : Bool) (volts : BitVec 16) (spent : Bool) (s : State) : Host.Outcome State Fault Refusal :=
  .next (if s.pwr.state = .off then powerOn main (!main) volts spent s else s)

/-- SHUTDOWN_COMPLETE: OFF; a supply that became OK during the sequence starts the module from reset (R73). -/
def execShutdownComplete (s : State) : Host.Outcome State Fault Refusal :=
  .next (
    if !s.pwr.shutdown then s
    else
      let m := isSet s .pwr PWR_SUPPLY.MAIN_OK
      let b := isSet s .pwr PWR_SUPPLY.BACKUP_OK
      let v : BitVec 16 := BitVec.ofNat 16 (getF s .pwr (if m then PWR_MAIN_V.VALUE else PWR_BACKUP_V.VALUE))
      if s.pwr.okSince then powerOn m b v false (goOff s) else goOff s)

/-! The real-time counter (R75, R76, R496). -/

/-- RTC_ALARM: the counter equals the alarm (R496); it may wake the module (R72). -/
def execRtcAlarm (s : State) : Host.Outcome State Fault Refusal :=
  let s1 := { s with time := { s.time with rtc := s.pwr.alarm } }
  .next (
    if s.pwr.state = .dormouse then wake 2 s1
    else if moduleOn s then raise .pwr PWR_INT.RTC_ALARM s1
    else s)

/-- PWR_RTC_LO_READ: the low bits returned, the upper ones latched into PWR_RTC_HI. -/
def execPwrRtcLoRead (s : State) : Host.Outcome State Fault Refusal :=
  .next (returnWord (BitVec.ofNat 32 s.time.rtc) { s with time := { s.time with rtcHiLatch := s.time.rtc / 2 ^ 32 % 2 ^ 16 } })

/-- PWR_RTC_ALARM_LO_WRITE: the alarm is set with the upper bits held in PWR_RTC_ALARM_HI (R496). -/
def execPwrRtcAlarmLoWrite (value : Word) (s : State) : Host.Outcome State Fault Refusal :=
  let hi := getF s .pwr PWR_RTC_ALARM_HI.COUNT_HI
  .next (setReg (addr .pwr 0x134) value (setPwr { s.pwr with alarm := hi * 2 ^ 32 + value.toNat } s))

end Sys2Proof.Machine
end

