-- ==== Sys2Proof/Machine/Grid.lean ====
section
/-!
DEFINITION. Sys2Proof/Machine/Grid.lean: the superframe grid on module time: the start of a slot, the fixing of a plan at slot 512, and the start of a
superframe (R15, R68, R183–R187, R201, R209, R344).
-/
namespace Sys2Proof.Machine

/-! Map and plan values on their way to an epoch (R201). -/

/-- Whether the plan of the next superframe is fixed. -/
def planFixed (s : State) : Bool := decide (s.ncal.planned = planStart s)

/-- The first epoch whose 8 preceding plans are all fixed from now on (R201). -/
def nextEpoch (s : State) : Nat := (sfn s + (if planFixed s then 10 else 9) + 7) / 8 * 8 % 2 ^ 32

/-- Whether a map or plan value differs from that in force. -/
def mapPending (s : State) : Bool :=
  decide (pendingNbMap s ≠ nbMap s) || decide (getF s .bcn BCN_RU_MAP.RUS ≠ getF s .bcn BCN_RU_MAP_CUR.RUS) ||
    decide (getF s .bcn BCN_CFG.BW ≠ s.bcn.bw) || decide (getF s .bcn BCN_CFG.BB_CPER ≠ s.bcn.cper)

/-- The epoch of what is pending set, and shown. -/
def setEpoch (e : Option Nat) (s : State) : State :=
  setB .bcn BCN_STATUS.NEXT_PENDING e.isSome { s with bcn := { s.bcn with epoch := e } }

/-- A map or plan value has been written; before the grid begins the values wait for stage 0x0D (R84, R201). -/
def epochWritten (s : State) : State :=
  if !s.time.running then s else setEpoch (if mapPending s then some (nextEpoch s) else none) s

/-- NB_MAP in force changed. -/
def setNbMap (m : Nat) (s : State) : State := setF .bcn BCN_NB_MAP_CUR_LO.SETS (m % 2 ^ 32) (setF .bcn BCN_NB_MAP_CUR_HI.SETS (m / 2 ^ 32) s)

/-- The bits of NB_MAP at or above NSETS cleared where a new band has taken effect (R201, R209). -/
def trimNbMap (s : State) : State :=
  let m := nbMap s % 2 ^ nsets s.nbw.band
  if m = nbMap s then s
  else
    let s1 := setNbMap m s
    if m = 0 then raise .bcn BCN_INT.MAP_REFUSED s1 else s1

/-- A pending NB_MAP applied, or refused (R201). -/
def applyNbMap (s : State) : State :=
  let m := pendingNbMap s
  if m = nbMap s then s
  else if mapAllowed (nsets s.nbw.band) m then setNbMap m s
  else raise .bcn BCN_INT.MAP_REFUSED (countErr .bcn s)

/-- The beacon's bandwidth and period taken from their registers. -/
def takeBcnCfg (s : State) : State := { s with bcn := { s.bcn with bw := getF s .bcn BCN_CFG.BW, cper := getF s .bcn BCN_CFG.BB_CPER } }

/-- The pending maps and the beacon configuration taken into use. -/
def takeMaps (s : State) : State := takeBcnCfg (setF .bcn BCN_RU_MAP_CUR.RUS (getF s .bcn BCN_RU_MAP.RUS) (applyNbMap s))

/-- Whether an epoch changes the maps, the bandwidth or the period between two states. -/
def mapsChanged (s t : State) : Bool :=
  decide (nbMap t ≠ nbMap s) || decide (getF t .bcn BCN_RU_MAP_CUR.RUS ≠ getF s .bcn BCN_RU_MAP_CUR.RUS) || decide (t.bcn.bw ≠ s.bcn.bw) ||
    decide (t.bcn.cper ≠ s.bcn.cper)

/-- At the epoch of what is pending, it takes effect (R201). -/
def applyEpoch (s : State) : State :=
  if s.bcn.epoch ≠ some (sfn s) then s
  else
    let t := setEpoch none (takeMaps s)
    if mapsChanged s t then raise .bcn BCN_INT.EPOCH_APPLIED t else t

/-! PLAN_FIX (R68, R184). -/

/-- Whether a plan fixed in the second listening superframe of stage 0x0E is that of the first beacons: no beacon of the domain has been heard, and the
module will be SOLO or, without a peer, ACTIVE (R84, R183, R400). A subordinate waits for its parent (R259). -/
def firstPlan (s : State) : Bool :=
  decide (stage s = 0x0E) && decide (s.boot.listened = 2) && !isSub s && !heardOwn s &&
    (decide (pairRole s < 2) || (decide (pairRole s = 3) && !peerUp s))

/-- The state a plan is fixed for: the power state decided (R68), and at the end of stage 0x0E the stage and role that follow. -/
def foreseen (s : State) : State :=
  let s1 := plannedState s
  if firstPlan s then setStage 0x0F (if pairRole s = 3 then setF .pair PAIR_STATUS.ROLE 1 s1 else s1) else s1

/-- The power state, stage and role as they are, after a plan. -/
def asPresent (old s : State) : State :=
  let s1 := setPwr { s.pwr with state := old.pwr.state } s
  if firstPlan old then setStage 0x0E (setF .pair PAIR_STATUS.ROLE (pairRole old) s1) else s1

/-- What the plan of the next superframe holds: beacons, periodic occurrences, the grants and frames that find a place, and the uplink of a
subordinate (R184). -/
def fillPlan (wishes : List GrantWish) (s : State) : State :=
  let serves := inService s && s.boot.ucodeRun.isSome && decide (0x0F ≤ stage s)
  let s1 := if serves then planJoinUps (planFrames (askGrants wishes (planPeriodic (planLaneBeacons (planBeacons s))))) else s
  if 0x0E ≤ stage s then planUplink s1 else s1

/-- The fixing of a plan at slot 512: E changes first (R344), the band and masks to come are taken (R132, R164), the transition of power state is
decided (R68), the plan is made, and BEACON_STATE follows it (R404). -/
def planFix (wishes : List GrantWish) (s : State) : State :=
  let s1 := changeE { s with time := { s.time with slot := 512 } }
  let s2 := fixWindows (planStart s1) (bbFix (nbFix s1))
  let s3 := decidePower (prunePlan (recoverFrames s2))
  let s4 := asPresent s3 (fillPlan wishes (foreseen s3))
  sendBeaconState (handoverCheck (flushLanes s4))

/-- PLAN_FIX (R184): once in a superframe, when slot 512 begins. -/
def execPlanFix (wishes : List GrantWish) (s : State) : Host.Outcome State Fault Refusal :=
  .next (if s.time.running && decide (s.time.slot ≤ 512) && !planFixed s then planFix wishes s else s)

/-! SLOT_START (R15, R183). -/

/-- A slot begins: pauses end, frames for lanes leave, and at the end of slot 48 the window of R408 closes. -/
def slotStart (n : Nat) (s : State) : State :=
  let s1 := flushLanes (tickPauses { s with time := { s.time with slot := n } })
  if n = 49 then closeWindow s1 else s1

/-- SLOT_START (R183): slot 0 begins with SUPERFRAME_START. -/
def execSlotStart (n : Fin 1024) (s : State) : Host.Outcome State Fault Refusal :=
  .next (if s.time.running && decide (s.time.slot < n.val) then slotStart n.val s else s)

/-! SUPERFRAME_START (R183). -/

/-- The records of the superframe that ends: drops, deferrals and lost records, with their counts (R239, R276, R396). -/
def logSuperframe (s : State) : State :=
  let s1 := logDrops s
  let s2 := if s1.mac.deferrals = 0 then s1
    else logPage .asc ASC_INT.JOIN_DEFER [s1.mac.deferrals] (setMac { s1.mac with deferrals := 0 } s1)
  if s2.sto.lost = 0 then s2 else logPage .sto STO_INT.SNF_FULL [s2.sto.lost] { s2 with sto := { s2.sto with lost := 0 } }

/-- Module time at slot 0 of the next superframe (R183). -/
def advance (s : State) : State :=
  let n := (sfn s + 1) % 2 ^ 32
  let t := { s.time with sfStart := s.time.sfStart + superframe, slot := 0 }
  setF .bcn BCN_STATUS.ROUND (n % 4) (setF .bcn BCN_SFN.SFN n { s with time := t })

/-- The dwell-time limits of the registers taken into use. -/
def takeDwellCfg (s : State) : State := { s with bcn := { s.bcn with cont := reg s (addr .bcn 0x120), occ := reg s (addr .bcn 0x124) } }

/-- The narrowband map in force, kept for the frames of the superframe before. -/
def keepLastMap (s : State) : State := { s with nbw := { s.nbw with lastMap := nbMap s } }

/-- Port declarations and the two waveforms' configurations taken into use; a new level or broadband set caps the ports' levels again. -/
def applyWaves (s : State) : State :=
  let t := bbBoundary (sfn s) (trimNbMap (nbBoundary (sfn s) (applyDecls (keepLastMap s))))
  if t.nbw.level = s.nbw.level ∧ t.bbw.cur = s.bbw.cur then t else capPorts t

/-- Band, masks, maps, declarations and configuration take effect (R63, R95, R132, R164, R179, R201, R209, R299). -/
def applyPending (s : State) : State :=
  allPorts.foldl (fun t p => calStart p t) (bqBoundary (ncalBoundary (takeDwellCfg (applyEpoch (applyWaves s)))))

/-- The noise floors measured outside bursts (LPT_NOISE). -/
def showNoise (l : List NoiseReading) (s : State) : State :=
  l.foldl (fun t r => setF (.lpt r.port) LPT_NOISE.BB_PSD r.bb.toNat (setF (.lpt r.port) LPT_NOISE.NB_PSD r.nb.toNat t)) s

/-- PTP_SLAVE cleared when no Sync has come for 3 s: at the first superframe start at which that is certain (LAN_STATUS). DESIGN CHOICE (log 40). -/
def checkPtp (s : State) : State :=
  let p := lanPage (ptpLane s)
  match s.link.ptp.lastSync with
  | some k =>
    if isSet s p LAN_STATUS.PTP_SLAVE && decide (4 ≤ sfnDiff k (sfn s)) then raise p LAN_INT.PTP_LOST (setB p LAN_STATUS.PTP_SLAVE false s) else s
  | none => s

/-- BEACON_OK cleared when the third beacon expected of the parent has not come: every superframe on a lane, every fourth on an MV port, every eighth while
the parent is in OUTAGE (R185, R187, RPT_PARENT). -/
def checkParent (s : State) : State :=
  let period := if upIsLane s then 1 else if beAt s.mac.parent.beacon 1 1 % 2 = 1 then 8 else 4
  match s.mac.parent.base with
  | some (t, _) => if t + (3 * period + 1) * superframe ≤ s.time.sfStart then setB .rpt RPT_PARENT.BEACON_OK false s else s
  | none => s

/-- Supervision tested on every association (R232). -/
def superviseAll (s : State) : State := s.mac.table.foldl (fun t e => supervise e.1 t) s

/-- Planned transmissions of superframes that are over, never taken, are dropped. -/
def dropStale (s : State) : State :=
  { s with plan := { s.plan with items := s.plan.items.filter (fun x => decide (sfnDiff (sfn s) x.sfn < 2 ^ 31)) } }

/-- Whether beacons are sent in this superframe. -/
def beaconing (s : State) : Bool :=
  mayBeacon s || s.plan.items.any (fun x => decide (x.purpose = .beacon) && decide (x.sfn = sfn s))

/-- One more superframe of listening at stage 0x0E (R84). -/
def countListened (s : State) : State :=
  if stage s = 0x0E then { s with boot := { s.boot with listened := s.boot.listened + 1 } } else s

/-- BCN_STATUS.BEACONING and the superframe-start interrupt (R183). -/
def showStart (s : State) : State := raise .bcn BCN_INT.SF_START (setB .bcn BCN_STATUS.BEACONING (beaconing s) s)

/-- A superframe begins (R183): the state decided for it, what waited for its boundary, the checks made at it, and its beacons to lanes. Beacons of
ports are transmissions of the plan. -/
def superframeStart (noise : List NoiseReading) (h : TruHold) (s : State) : State :=
  let t := superviseAll (roleSwap h (applyBkey (pruneOccs (dropStale (engBoundary (applyPending (showNoise noise (applyPower (advance (logSuperframe s))))))))))
  showStart (flushLanes (tickPauses (sendLaneBeacons (checkParent (checkPtp (countListened t))))))

/-- SUPERFRAME_START (R183). -/
def execSuperframeStart (noise : List NoiseReading) (h : TruHold) (s : State) : Host.Outcome State Fault Refusal :=
  .next (if s.time.running then superframeStart noise h s else s)

end Sys2Proof.Machine
end

