-- ==== Sys2Proof/Machine/Ticket.lean ====
section
/-!
DEFINITION. Sys2Proof/Machine/Ticket.lean: dual control: challenges, tickets and the authority list (spec/22_management_and_dual_control.md, TKT page).
-/
namespace Sys2Proof.Machine

/-! The challenge (R445). -/

/-- The counts of the real-time counter for which a challenge is held. -/
def challengeCounts : Nat := 69120000

/-- The seconds a held challenge has left, as TKT_CHAL_LEFT shows them. -/
def challengeLeft (s : State) : Nat :=
  match s.mgt.challenge with
  | none => 0
  | some (_, at_) => (challengeCounts - (s.time.rtc + 2 ^ 48 - at_) % 2 ^ 48) / 76800

/-- The held challenge changed, with the registers that show it. -/
def setChallenge (c : Option (Nat × Nat)) (s : State) : State :=
  let v := (c.map (·.1)).getD 0
  let s1 := setF .tkt TKT_CHAL_HI.VALUE (v / 2 ^ 32) (setF .tkt TKT_CHAL_LO.VALUE v { s with mgt := { s.mgt with challenge := c } })
  setF .tkt TKT_CHAL_LEFT.LEFT (challengeLeft s1) (setB .tkt TKT_STATUS.CHAL_HELD c.isSome s1)

/-- CHALLENGE: a 64-bit value drawn and held in place of any other (R445). -/
def runChallenge (_ : Outstanding) (s : State) : State :=
  let (v, s1) := draw s
  done .tkt CODE.OK (setChallenge (some (v.toNat % 2 ^ 64, s1.time.rtc)) s1)

/-- CHALLENGE, TKT command 0x0001 (R452). -/
def execChallenge (src : CmdSrc) (s : State) : Host.Outcome State Fault Refusal := .next (issue .tkt 0x0001 src runChallenge s)

/-- Whether a held challenge has reached 900 s. -/
def challengeOver (s : State) : Bool :=
  match s.mgt.challenge with
  | none => true
  | some (_, at_) => decide (challengeCounts ≤ (s.time.rtc + 2 ^ 48 - at_) % 2 ^ 48)

/-- CHALLENGE_EXPIRY: a held challenge expires unused (R445). The event itself says that its 900 s are over. -/
def execChallengeExpiry (s : State) : Host.Outcome State Fault Refusal :=
  .next (if s.mgt.challenge.isSome then raise .tkt TKT_INT.CHAL_EXPIRED (setChallenge none s) else s)

/-! The layout of a ticket (R444). -/

/-- An item of a ticket. -/
structure Item where
  type : Nat
  body : List Byte
deriving DecidableEq, Repr

/-- The items of a ticket; `fuel` bounds their number. -/
def parseItems : Nat → List Byte → Option (List Item)
  | _, [] => some []
  | 0, _ => none
  | n + 1, l =>
    let len := beAt l 2 2
    if l.length < 4 + len ∨ beAt l 1 1 ≠ 0 then none
    else (parseItems n (l.drop (4 + len))).map (fun r => ⟨beAt l 0 1, slice l 4 len⟩ :: r)

/-- Whether the body of an item is well formed. -/
def itemFormed (i : Item) : Bool :=
  let b := i.body
  match i.type with
  | 1 => decide (b.length = 16) && decide (beAt b 6 2 = 0)
  | 2 => decide (4 ≤ b.length) && decide (b.length = 4 + 76 * beAt b 1 1) && decide (beAt b 1 1 ≤ 8) && decide (beAt b 2 2 = 0) &&
      (List.range (beAt b 1 1)).all (fun k => decide (beAt b (4 + 76 * k + 9) 3 = 0) &&
        (decide (beAt b (4 + 76 * k + 8) 1 = 1) || decide (beAt b (4 + 76 * k + 8) 1 = 2)))
  | 3 => decide (b.length = 132) && decide (beAt b 2 2 = 0) && (decide (beAt b 1 1 = 1) || decide (beAt b 1 1 = 2))
  | 4 => decide (b.length = 68) && decide (beAt b 2 2 = 0) && (decide (beAt b 1 1 = 1) || decide (beAt b 1 1 = 2))
  | 5 => decide (b.length = 64)
  | 6 => decide (b.length = 68) && decide (beAt b 1 3 = 0)
  | _ => false

/-- A ticket as its layout gives it: MODULE_ID, CHALLENGE, COUNTER, items, the bytes signed, and the signatures with their holders. -/
structure Ticket where
  module : Nat
  challenge : Nat
  counter : Nat
  items : List Item
  signed : List Byte
  sigs : List (Nat × List Byte)
deriving DecidableEq, Repr

/-- Check 1 of R446: the ticket that bytes spell, or the index of the item or signature that is not well formed. -/
def parseTicket (l : List Byte) : Except Nat Ticket :=
  let n := beAt l 32 2
  let sigs := beAt l 6 1
  let at_ (k : Nat) : Nat := 36 + n + 68 * k
  if l.length < 36 ∨ 4096 < l.length ∨ l.take 5 ≠ [0x43, 0x52, 0x42, 0x54, 1] ∨ beAt l 7 1 ≠ 0 ∨ beAt l 34 2 ≠ 0 ∨ 8 < sigs
      ∨ beAt l 5 1 = 0 ∨ 32 < beAt l 5 1 ∨ l.length ≠ at_ sigs then .error 0
  else match parseItems 32 (slice l 36 n) with
    | none => .error 0
    | some its =>
      if its.length ≠ beAt l 5 1 then .error 0
      else match its.findIdx? (fun i => !itemFormed i) with
        | some k => .error k
        | none =>
          match (List.range sigs).find? (fun k => decide (beAt l (at_ k + 1) 3 ≠ 0)) with
          | some k => .error k
          | none => .ok ⟨beAt l 8 8, beAt l 16 8, beAt l 24 8, its, (l.take (36 + n)).set 6 0,
              (List.range sigs).map (fun k => (beAt l (at_ k) 1, slice l (at_ k + 4) 64))⟩

/-! Applying items (R442, R447, R446 check 7). -/

/-- The key store changed. -/
def setKeys (k : KeyStore) (s : State) : State := { s with mgt := { s.mgt with keys := k } }

/-- The holders of an AUTH_LIST item. -/
def itemHolders (b : List Byte) : List Holder :=
  (List.range (beAt b 1 1)).map (fun k => ⟨beAt b (4 + 76 * k) 8, beAt b (4 + 76 * k + 8) 1, slice b (4 + 76 * k + 12) 64⟩)

/-- An authority list and threshold in force, with the registers that show them (R443). -/
def setHolders (threshold : Nat) (l : List Holder) (s : State) : State :=
  let s1 := setF .tkt TKT_AUTH.THRESHOLD threshold (setF .tkt TKT_AUTH.COUNT l.length (setKeys { s.mgt.keys with holders := l } s))
  setB .tkt TKT_STATUS.LIST_SET (!l.isEmpty) s1

/-- Whether an AUTH_LIST item is lawful (R443). -/
def authListOk (b : List Byte) : Bool :=
  let l := itemHolders b
  decide (2 ≤ beAt b 0 1) && decide (beAt b 0 1 ≤ 4) && decide (beAt b 0 1 ≤ l.length) && decide ((l.map (·.key)).Nodup)

/-- The page and offset of a REG item. -/
def itemReg (b : List Byte) : Option (Page × Nat) :=
  if beAt b 0 4 % 4096 = 0 ∧ beAt b 4 2 < 4096 ∧ beAt b 4 2 % 4 = 0 then (pageOfAddr (beAt b 0 4)).map (fun p => (p, beAt b 4 2)) else none

/-- The RWP fields of a register. -/
def rwpFields (p : Page) (o : Nat) : List Field := (fieldsAt (pageKind p) o).filter (fun f => decide (f.acc = .rwp))

/-- The word a register takes from a REG item: bits outside MASK are unchanged (R444). -/
def itemWord (s : State) (p : Page) (o : Nat) (b : List Byte) : Word :=
  let m := BitVec.ofNat 32 (beAt b 8 4)
  (reg s (addr p o) &&& ~~~m) ||| (BitVec.ofNat 32 (beAt b 12 4) &&& m)

/-- Whether a REG item is permitted: a page with protected groups, every MASK bit in an RWP field, and the fields' values legal (R444). -/
def regItemOk (s : State) (b : List Byte) : Bool :=
  match itemReg b with
  | none => false
  | some (p, o) =>
    let fs := rwpFields p o
    let w := itemWord s p o b
    decide (lockProt (pageKind p) ≠ 0) &&
      (List.range 32).all (fun i => !(beAt b 8 4).testBit i || fs.any (fun f => decide (f.lo ≤ i) && decide (i ≤ f.hi))) &&
      fs.all (fun f => f.legal.ok f.width (getBits w f.hi f.lo))

/-- What a change of a protected register starts: a fuse burn where MEM_FUSE_REQ is armed (R316), and the values of group 0 of BBW awaiting their
boundary (R164). -/
def afterProtected (p : Page) (s : State) : State :=
  match p with
  | .mem => if isSet s .mem MEM_FUSE_REQ.ARM then setB .mem MEM_STATUS.FUSE_BUSY true s else s
  | .bbw => bbPending s
  | .nbw => nbPending s
  | _ => s

/-- The pair key that a PAIR item makes (R447). -/
def pairKey (s : State) (peer : List Byte) : List Byte :=
  let own := beBytes 8 Config.moduleId.toNat
  let other := beBytes 4 (getF s .pair PAIR_PEER_HI.ID) ++ beBytes 4 (getF s .pair PAIR_PEER_LO.ID)
  sha256 (ecdh s.mgt.keys.device peer ++ if isSet s .pair PAIR_ROLE.UNIT then other ++ own else own ++ other)

/-- One item applied; the pair key of a PAIR item is made once every item stands. -/
def applyItem (i : Item) (s : State) : State :=
  let b := i.body
  let k := s.mgt.keys
  let set (l : List (Nat × List Byte)) : List (Nat × List Byte) :=
    Map.set (fun _ => []) l (beAt b 0 1) (if beAt b 1 1 = 1 then slice b 4 64 else [])
  match i.type with
  | 1 => match itemReg b with
    | some (p, o) => setReg (addr p o) (itemWord s p o b) s
    | none => s
  | 2 => setHolders (beAt b 0 1) (itemHolders b) s
  | 3 => setKeys { k with update := set k.update } s
  | 4 => setKeys { k with endpoint := set k.endpoint } s
  | 6 =>
    let n := beAt b 0 1
    setKeys { k with root := slice b 4 64 } (setF .tkt TKT_ROOT.REVOKED (2 ^ n - 1) (setF .tkt TKT_ROOT.ACTIVE n s))
  | _ => s

/-- Whether an item is permitted in the state that the items before it leave (R431, R443, R444). -/
def itemOk (i : Item) (s : State) : Bool :=
  let b := i.body
  match i.type with
  | 1 => regItemOk s b
  | 2 => authListOk b
  | 3 => decide (beAt b 0 1 < 8) && ecdsaOk s.mgt.keys.root (sha256 (b.take 1 ++ slice b 4 64)) (slice b 68 64)
  | 4 => decide (beAt b 0 1 < 8)
  | 5 => (pPoint b).isSome
  | 6 => decide (getF s .tkt TKT_ROOT.ACTIVE < beAt b 0 1) && decide (beAt b 0 1 < 4) &&
      decide (sha256 (slice b 4 64) = Config.rootHash (beAt b 0 1))
  | _ => false

/-- The items applied in order, or the index of the first that is not permitted. -/
def applyItems : Nat → List Item → State → Except Nat State
  | _, [], s => .ok s
  | n, i :: r, s => if itemOk i s then applyItems (n + 1) r (applyItem i s) else .error n

/-- Whether the narrowband profile is lawful (R114). -/
def nbProfileOk (s : State) : Bool :=
  let base := getF s .nbw NBW_BAND.BASE
  let n := getF s .nbw NBW_BAND.NSETS
  decide (5 ≤ base) && decide (base + 4 * n ≤ 251) && decide (n ≤ 61) &&
    (decide (n = 0) || (decide (getF s .nbw NBW_LEVEL.LV_LIMIT ≠ 0) && decide (getF s .nbw NBW_LEVEL.MV_LIMIT ≠ 0)))

/-- Whether the broadband profile is lawful: with 51 or more carriers unmasked both limits are given (BBW_LEVEL). -/
def bbProfileOk (s : State) : Bool :=
  !maskValid (bbSetReg s).pmask ||
    (decide (getF s .bbw BBW_LEVEL.LV_LIMIT ≠ 0x8000) && decide (getF s .bbw BBW_LEVEL.MV_LIMIT ≠ 0x8000))

/-- Whether the dwell limits admit the narrowband beacon (R206): T_CONT in ms, OCC in units of 0.1 % and W in s; ⌈W / 4.194304 s⌉ beacons of 220 ms
in a window. -/
def dwellOk (s : State) : Bool :=
  let w := getF s .bcn BCN_DWELL_OCC.WINDOW
  decide (220 ≤ getF s .bcn BCN_DWELL_CONT.T_CONT) &&
    decide (220 * ceilDiv (w * 1000000) 4194304 ≤ getF s .bcn BCN_DWELL_OCC.OCC * w)

/-- Whether the safety limits are lawful: TRIP above WARN (SAF_SI_LIM). -/
def safOk (s : State) : Bool := decide (getF s .saf SAF_SI_LIM.WARN < getF s .saf SAF_SI_LIM.TRIP)

/-- Whether the peer that a pair names is another module (R399). -/
def peerOk (s : State) : Bool :=
  !isSet s .pair PAIR_ROLE.PAIRED ||
    decide (getF s .pair PAIR_PEER_HI.ID * 2 ^ 32 + getF s .pair PAIR_PEER_LO.ID ≠ Config.moduleId.toNat)

/-- The first item of a ticket on a page. -/
def itemOn (t : Ticket) (p : Page) : Option Nat := t.items.findIdx? (fun i => decide (i.type = 1) && decide ((itemReg i.body).map (·.1) = some p))

/-- The index of an item that leaves an unlawful state, in the order of the items' pages: a profile is judged where the ticket changes it (R446 check
7). -/
def unlawful (t : Ticket) (old s : State) : Option Nat :=
  let bad (p : Page) (ok : Bool) : Option Nat := if ok then none else itemOn t p
  let pairing := !isSet old .pair PAIR_ROLE.PAIRED && isSet s .pair PAIR_ROLE.PAIRED
  let item5 := t.items.findIdx? (fun i => decide (i.type = 5))
  (bad .nbw (nbProfileOk s)).orElse fun _ => (bad .bbw (bbProfileOk s)).orElse fun _ => (bad .bcn (dwellOk s)).orElse fun _ =>
    (bad .saf (safOk s)).orElse fun _ => (bad .pair (peerOk s)).orElse fun _ =>
      if pairing then (if item5.isSome then none else itemOn t .pair) else item5

/-- The pages that a ticket's REG items name. -/
def itemPages (t : Ticket) : List Page :=
  ((t.items.filter (fun i => decide (i.type = 1))).filterMap (fun i => (itemReg i.body).map (·.1))).eraseDups

/-- LOCK.GEN of a page one higher (R30). -/
def bumpLock (p : Page) (s : State) : State :=
  let a := addr p 0x020
  setReg a (setBits (reg s a) 31 16 (getBits (reg s a) 31 16 + 1)) s

/-- TKT_COUNTER. -/
def ticketCounter (s : State) : Nat := getF s .tkt TKT_COUNTER_HI.VALUE * 2 ^ 32 + getF s .tkt TKT_COUNTER_LO.VALUE

/-- Check 5 of R446: the index of the first signature that is not valid, not of a listed holder, or of a holder named before. -/
def badSig (l : List Holder) (t : Ticket) : Option Nat :=
  let d := sha256 t.signed
  t.sigs.zipIdx.findSome? (fun e =>
    match l[e.1.1]? with
    | none => some e.2
    | some h => if ((t.sigs.take e.2).any (fun x => decide (x.1 = e.1.1))) || !ecdsaOk h.key d e.1.2 then some e.2 else none)

/-- The holders that signed, as a bitmap (R433). -/
def signerMap (t : Ticket) : Nat := (t.sigs.map (fun e => 2 ^ e.1)).sum

/-- A ticket that passed every check, in force: TKT_COUNTER, LOCK.GEN of each page changed, counts and records (R446). COUNTER is logged as two values, its
upper half first. DESIGN CHOICE (log 34). -/
def applied (t : Ticket) (s : State) : State :=
  let s1 := setF .tkt TKT_COUNTER_HI.VALUE (t.counter / 2 ^ 32) (setF .tkt TKT_COUNTER_LO.VALUE t.counter s)
  let s2 := match t.items.find? (fun i => decide (i.type = 5)) with
    | some i => setKeys { s1.mgt.keys with pair := pairKey s1 i.body } s1
    | none => s1
  let s2 := (itemPages t).foldl (fun u p => afterProtected p (bumpLock p u)) s2
  let s3 := raise .tkt TKT_INT.APPLIED (count .tkt TKT_APPLY_CNT.COUNT s2)
  done .tkt CODE.OK (logEvent 0x0685 0 [t.counter / 2 ^ 32, t.counter % 2 ^ 32, t.items.length, signerMap t] s3)

/-- APPLY completed with a code other than OK: counted, and where a check failed, reported and logged (R446, TKT_REFUSE_CNT). -/
def refuseTicket (code detail : Nat) (s : State) : State :=
  let s1 := count .tkt TKT_REFUSE_CNT.COUNT s
  complete .tkt code detail (if code < 0x80 then s1 else logEvent 0x0686 0 [code, detail] (raise .tkt TKT_INT.REFUSED s1))

/-- Checks 3 to 7 of R446, the challenge being consumed; `l` and `threshold` are the authorities that must have signed. -/
def checkTicket (t : Ticket) (l : List Holder) (threshold : Nat) (s : State) : State :=
  let s1 := setChallenge none s
  if challengeOver s ∨ s.mgt.challenge.map (·.1) ≠ some t.challenge then refuseTicket 0x82 0 s1
  else if t.counter ≤ ticketCounter s then refuseTicket 0x83 0 s1
  else match badSig l t with
    | some k => refuseTicket 0x84 k s1
    | none =>
      if t.sigs.length < threshold then refuseTicket 0x85 0 s1
      else match applyItems 0 t.items s1 with
        | .error k => refuseTicket 0x86 k s1
        | .ok s2 =>
          match unlawful t s1 s2 with
          | some k => refuseTicket 0x86 k s1
          | none => applied t s2

/-- APPLY (R446, R448): while the authority list is empty only a ticket whose single item is AUTH_LIST is accepted, in RECOVERY, signed by the holders it lists.
Whether a ticket is such a one is known once check 1 has passed. DEDUCED (log 34). -/
def runApply (o : Outstanding) (s : State) : State :=
  let a := o.a0.toNat
  let n := o.a1.toNat
  if a % 4 ≠ 0 ∨ inHostArea a n = false then refuseTicket CODE.BAD_ARG 0 s
  else if s.mgt.keys.holders = [] ∧ mode s ≠ MODE.RECOVERY then refuseTicket CODE.REFUSED 0 s
  else match parseTicket (busBytes s a n) with
    | .error k => refuseTicket 0x80 k s
    | .ok t =>
      let first := s.mgt.keys.holders.isEmpty
      match first, t.items with
      | true, [⟨2, b⟩] =>
        if t.module ≠ Config.moduleId.toNat then refuseTicket 0x81 0 s else checkTicket t (itemHolders b) (beAt b 0 1) s
      | true, _ => refuseTicket CODE.REFUSED 0 s
      | false, _ =>
        if t.module ≠ Config.moduleId.toNat then refuseTicket 0x81 0 s
        else checkTicket t s.mgt.keys.holders (getF s .tkt TKT_AUTH.THRESHOLD) s

/-- APPLY, TKT command 0x0002 (R446). -/
def execApply (src : CmdSrc) (s : State) : Host.Outcome State Fault Refusal := .next (issue .tkt 0x0002 src runApply s)

/-! CARD_SIGN (R449, R465, R466). -/

/-- The card port a CARD_SIGN names. -/
def cardPort (o : Outstanding) : Serial := if o.a0.toNat = 0 then 2 else 3

/-- CARD_SIGN at its issue: its arguments are checked and a transaction begins. A ticket whose items do not lie within its length is BAD_ARG. DEDUCED (log
34). -/
def runCardSign (o : Outstanding) (s : State) : State :=
  let a := o.a1.toNat
  let n := o.a2.toNat
  if 1 < o.a0.toNat ∨ a % 4 ≠ 0 ∨ 4096 < n + 68 ∨ n < 36 ∨ inHostArea a (n + 68) = false then done .tkt CODE.BAD_ARG s
  else if n < 36 + beAt (busBytes s a 36) 32 2 then done .tkt CODE.BAD_ARG s
  else startCard (cardPort o) s

/-- CARD_SIGN, TKT command 0x0003 (R449). -/
def execCardSign (src : CmdSrc) (s : State) : Host.Outcome State Fault Refusal := .next (issue .tkt 0x0003 src runCardSign s)

/-- The digest that a ticket's signatures are over (R444). -/
def ticketDigest (s : State) (o : Outstanding) : List Byte :=
  let l := busBytes s o.a1.toNat o.a2.toNat
  sha256 ((l.take (36 + beAt l 32 2)).set 6 0)

/-- The signature block appended to the ticket, with N_SIGS one higher (R449). -/
def appendSig (o : Outstanding) (holder : Nat) (sig : List Byte) (s : State) : State :=
  let a := o.a1.toNat
  let n := beAt (busBytes s a 7) 6 1
  busWrite (a + o.a2.toNat) ([byteOf holder, 0, 0, 0] ++ sig) (busWrite (a + 6) [byteOf (n + 1)] s)

/-- A card's reply and status word (R466): READ_PUB names the holder, SIGN is followed by GET RESPONSE, and the signature ends the transaction; anything else ends it
with CARD_ERR. -/
def cardReply (n : Serial) (data : List Byte) (sw : Nat) (s0 : State) : State :=
  match (serial s0 n.val).card, outstanding s0 .tkt with
  | some c, some o =>
    if c.phase = .atr then s0
    else
      let s := setF (.ser n) SER_CARD.LAST_SW sw s0
      match c.phase with
      | .readPub =>
        if sw ≠ 0x9000 ∨ data.length ≠ 72 then cardError n s
        else match s.mgt.keys.holders.findIdx? (fun h => decide (h.key = data.drop 8)) with
          | none => done .tkt 0x87 (deactivateCard n s)
          | some k => sendCard n .sign k ([0x80, 0x20, 0, 0, 0x20] ++ ticketDigest s o) s
      | .sign => if sw ≠ 0x6140 then cardError n s else sendCard n .response c.holder [0, 0xC0, 0, 0, 0x40] s
      | .response =>
        if sw ≠ 0x9000 ∨ data.length ≠ 64 then cardError n s
        else done .tkt CODE.OK (appendSig o c.holder data (deactivateCard n s))
      | .atr => s
  | _, _ => s0

/-- CARD_STATUS_WORD (R466). -/
def execCardStatusWord (n : Serial) (data : List Byte) (sw : BitVec 16) (s : State) : Host.Outcome State Fault Refusal :=
  .next (cardReply n data sw.toNat s)

/-- An abort of CARD_SIGN before the card has answered SIGN: ABORTED, the ticket unchanged (R452). -/
def abortCardSign (o : Outstanding) (s : State) : Option State :=
  let n := cardPort o
  match (serial s n.val).card with
  | some c => if c.phase = .response then none else some (done .tkt CODE.ABORTED (deactivateCard n s))
  | none => none

/-! Reading keys (R452). -/

/-- READ_AUTH: the threshold, the count and the entries written to the host area (R452). -/
def runReadAuth (o : Outstanding) (s : State) : State :=
  let l := s.mgt.keys.holders
  let out := [byteOf (getF s .tkt TKT_AUTH.THRESHOLD), byteOf l.length, 0, 0] ++
    l.flatMap (fun h => beBytes 8 h.id ++ [byteOf h.kind, 0, 0, 0] ++ h.key)
  if o.a0.toNat % 4 ≠ 0 ∨ inHostArea o.a0.toNat out.length = false then done .tkt CODE.BAD_ARG s
  else done .tkt CODE.OK (busWrite o.a0.toNat out s)

/-- READ_AUTH, TKT command 0x0004 (R452). -/
def execReadAuth (src : CmdSrc) (s : State) : Host.Outcome State Fault Refusal := .next (issue .tkt 0x0004 src runReadAuth s)

/-- READ_DEV_PUB: the device's public key written to the host area (R452). -/
def runReadDevPub (o : Outstanding) (s : State) : State :=
  if o.a0.toNat % 4 ≠ 0 ∨ inHostArea o.a0.toNat 64 = false then done .tkt CODE.BAD_ARG s
  else done .tkt CODE.OK (busWrite o.a0.toNat (publicKey s.mgt.keys.device) s)

/-- READ_DEV_PUB, TKT command 0x0005 (R452). -/
def execReadDevPub (src : CmdSrc) (s : State) : Host.Outcome State Fault Refusal := .next (issue .tkt 0x0005 src runReadDevPub s)

end Sys2Proof.Machine
end

