-- ==== Sys2Proof/Machine/CmdDone.lean ====
section
/-!
DEFINITION. Sys2Proof/Machine/CmdDone.lean: NOP, and what ends an outstanding command beside its own events: its completion (R40) and its abort (R41).
-/
namespace Sys2Proof.Machine

/-- NOP, opcode 0x0000 on every page (R40). -/
def execNop (page : Page) (src : CmdSrc) (s : State) : Host.Outcome State Fault Refusal :=
  .next (issue page 0x0000 src (fun _ t => done page CODE.OK t) s)

/-! Completions (R40, R42). -/

/-- What the work of an outstanding command comes to, for the commands that no other event ends. -/
def finishCommand (p : Page) (o : Outstanding) (r : CmdResult) (s : State) : State :=
  match p, o.opcode with
  | .boot, 0x0002 => finishVerify o s
  | .saf, 0x0002 => finishKillTest (r.slow.map (·.val)) s
  | .mgt, 0x0001 => finishLoad o s
  | .mgt, 0x0002 => finishImport o s
  | .sen, 0x0001 => finishSelfCal o r.cal s
  | .ser n, 0x0001 => if o.phase = 1 then endBreak n CODE.OK s else s
  | .sto, _ => finishBlocks o (r.bad.map (·.val)) r.retries s
  | .cip, 0x0002 => finishSelfTest r.pipe s
  | .bq, 0x0002 => finishReadWords o s
  | .nbw, 0x0001 => finishEncodeFrame o s
  | .bbw, 0x0001 => finishEncodeBurst o s
  | .mem, 0x0002 => finishTestBank r.columns o s
  | .lpt n, 0x0001 => if o.phase = 1 then finishCal n.val r.tx.toInt r.rx.toInt s else s
  | _, _ => s

/-- CMD_COMPLETION (R40): an outstanding command that ends by an event of its own is not ended here. -/
def execCmdCompletion (page : Page) (r : CmdResult) (s : State) : Host.Outcome State Fault Refusal :=
  .next (match outstanding s page with
    | some o => finishCommand page o r s
    | none => s)

/-! Aborts (R41). -/

/-- An abort of a command past its last safe point: it completes as it would, with ABORT_LATE (R41). -/
def lateAbort (p : Page) (o : Outstanding) (s : State) : State := setOutstanding p { o with abortLate := true } s

/-- READ_WORDS aborted: its output area is undefined (R301). -/
def abortReadWords (o : Outstanding) (s : State) : State :=
  let q := queue s (getBits o.a0 12 0)
  done .bq CODE.ABORTED (leaveOpen o.a2.toNat (4 + 36 * (q.wp - q.rl)) s)

/-- Whether the reload of a cluster that RELOAD_CLUSTER asked for has not begun (R286). -/
def reloadAwaited (s : State) (c : Nat) : Bool :=
  match (cluster s c).phase with
  | .reloadAsked | .draining => true
  | _ => false

/-- An abort of CARD_SIGN: at once while the card works, else past its last safe point (R41, R449). -/
def abortSign (o : Outstanding) (s : State) : State :=
  match abortCardSign o s with
  | some t => t
  | none => lateAbort .tkt o s

/-- The abort of the outstanding command of a page, at its next safe point or late, as its chapter gives it; `n` is the number of blocks a block command has
done. -/
def abortCommand (p : Page) (o : Outstanding) (n : Nat) (s : State) : State :=
  match p, o.opcode with
  | .pwr, 0x0002 => abortPower o s
  | .pwr, 0x0003 => abortPower o s
  | .boot, 0x0002 => done .boot CODE.ABORTED s
  | .saf, 0x0002 => abortKillTest s
  | .tkt, 0x0003 => abortSign o s
  | .mgt, 0x0001 => done .mgt CODE.ABORTED s
  | .mgt, 0x0002 => done .mgt CODE.ABORTED s
  | .sen, 0x0001 => abortSelfCal o s
  | .ser k, 0x0001 => endBreak k CODE.ABORTED s
  | .tru, 0x0001 => abortTru s
  | .tru, 0x0002 => abortTru s
  | .pair, 0x0001 => if o.phase = 0 then abortHandover s else lateAbort p o s
  | .sto, 0x0001 => stopBlocks n CODE.ABORTED s
  | .sto, 0x0002 => stopBlocks n CODE.ABORTED s
  | .cip, 0x0001 => abortTestJob o s
  | .bq, 0x0002 => abortReadWords o s
  | .nbw, 0x0001 => abortEncodeFrame o s
  | .bbw, 0x0001 => abortEncodeBurst o s
  | .mem, 0x0002 => done .mem CODE.ABORTED (spoilTest o s)
  | .memb b, 0x0001 => abortSoftRepair b o s
  | .lpt k, 0x0001 => abortCal k.val s
  | .lpt k, 0x0002 => done (.lpt k) CODE.ABORTED s
  | .eng c, 0x0002 => if reloadAwaited s c.val then abortReload c.val s else lateAbort p o s
  | _, _ => lateAbort p o s

/-- A write of CMD with ABORT = 1 (R41): the outstanding command of the tag is aborted; a tag whose completion has latched sets ABORT_LATE; any other is
dropped. -/
def abortTag (p : Page) (tag n : Nat) (s : State) : State :=
  let c := slotOf s p
  match c.out with
  | some o =>
    if o.tag = tag then abortCommand p o n s
    else if c.last = some tag then setStat p 29 29 1 s else dropCmd p s
  | none => if c.last = some tag then setStat p 29 29 1 s else dropCmd p s

/-- CMD_ABORT (R41). -/
def execCmdAbort (page : Page) (tag : BitVec 8) (blocks : Nat) (s : State) : Host.Outcome State Fault Refusal := .next (abortTag page tag.toNat blocks s)

end Sys2Proof.Machine
end

