-- ==== Sys2Proof/Machine/Flags.lean ====
section
/-!
DEFINITION. Sys2Proof/Machine/Flags.lean: the status bits that are computed when they are read: the summary registers of MOD (R36), JOIN_OPEN of ASC, and the FAULT
bits that the ALARM indicator sums up (R59). The module has no flags of a processor's kind.
-/
namespace Sys2Proof.Machine

/-- A word whose bit i is 1 where a condition holds, for i below n. -/
def pendWord (n : Nat) (c : Nat → Bool) : Word :=
  BitVec.ofNat 32 ((List.range n).foldl (fun w i => if c i then w + 2 ^ i else w) 0)

/-- The summary registers of MOD (R36). The condition of a ring's vector is that completions have been written since its last message. DEDUCED (log 42). -/
def summary (s : State) (o : Nat) : Word :=
  match o with
  | 0x100 => pendWord 32 (vectorCond s)
  | 0x104 => pendWord 29 (fun r => decide ((ring s r).pend ≠ 0))
  | 0x108 => pendWord 32 (fun n => pageCond s (lptPage n))
  | 0x10C => pendWord 20 (fun n => pageCond s (lptPage (32 + n)))
  | 0x110 => pendWord 32 (fun c => pageCond s (.eng (Fin.ofNat 32 c)))
  | 0x114 => pendWord 32 (fun b => pageCond s (.memb (Fin.ofNat 128 b)))
  | 0x118 => pendWord 32 (fun b => pageCond s (.memb (Fin.ofNat 128 (32 + b))))
  | 0x11C => pendWord 32 (fun b => pageCond s (.memb (Fin.ofNat 128 (64 + b))))
  | 0x120 => pendWord 32 (fun b => pageCond s (.memb (Fin.ofNat 128 (96 + b))))
  | 0x124 => pendWord 1 (fun _ => pageCond s .mem)
  | o => reg s (addr .mod o)

/-- ASC.STATUS with JOIN_OPEN, which holds while joins are taken (R229). -/
def ascStatus (s : State) : Word :=
  let on := isSet s .asc ASC_CFG.JOIN_EN && decide (getF s .boot BOOT_STATUS.MODE = 2)
  setBits (reg s (addr .asc offStatus)) 27 27 (if on then 1 else 0)

/-- Whether STATUS.FAULT is set on a page (R28). -/
def pageFault (s : State) (p : Page) : Bool := decide (getBits (reg s (addr p offStatus)) 29 29 = 1)

end Sys2Proof.Machine
end

