-- ==== Sys2Proof/Machine/PageCmd.lean ====
section
/-!
DEFINITION. Sys2Proof/Machine/PageCmd.lean: which command an opcode names on a page, and which block reset a page has: what a host write to CMD or CTRL does.
-/
namespace Sys2Proof.Machine

/-- A command whose opcode is not defined on its page (R42). -/
def badOpcode (p : Page) (op : Nat) (src : CmdSrc) (s : State) : Host.Outcome State Fault Refusal :=
  .next (issue p op src (fun _ t => done p CODE.BAD_OPCODE t) s)

/-- The commands of PWR, BOOT and SAF. -/
def supplyCommand (p : Page) (op : Nat) (src : CmdSrc) (e : WriteEnv) (s : State) : Host.Outcome State Fault Refusal :=
  match p, op with
  | .pwr, 0x0001 => execEnterDormouse src s
  | .pwr, 0x0002 => execEnterOutage src s
  | .pwr, 0x0003 => execLeaveOutage src s
  | .pwr, 0x0004 => execTestLastGasp src s
  | .boot, 0x0001 => execResetModule src s
  | .boot, 0x0002 => execVerifySlot src s
  | .boot, 0x0003 => execConfirm src s
  | .boot, 0x0004 => execEnterTest src s
  | .saf, 0x0001 => execClearKill src e.holds s
  | .saf, 0x0002 => execKillTest src s
  | p, op => badOpcode p op src s

/-- The commands of TKT, MGT, SEN and SER. -/
def managementCommand (p : Page) (op : Nat) (src : CmdSrc) (s : State) : Host.Outcome State Fault Refusal :=
  match p, op with
  | .tkt, 0x0001 => execChallenge src s
  | .tkt, 0x0002 => execApply src s
  | .tkt, 0x0003 => execCardSign src s
  | .tkt, 0x0004 => execReadAuth src s
  | .tkt, 0x0005 => execReadDevPub src s
  | .mgt, 0x0001 => execLoadSlot src s
  | .mgt, 0x0002 => execEpfwImport src s
  | .mgt, 0x0003 => execEpfwDelete src s
  | .mgt, 0x0004 => execCampaignStart src s
  | .mgt, 0x0005 => execCampaignStop src s
  | .mgt, 0x0006 => execLogMark src s
  | .sen, 0x0001 => execSelfCal src s
  | .ser n, 0x0001 => execSendBreak n src s
  | p, op => badOpcode p op src s

/-- The commands of TRU, PAIR, STO and PCI. -/
def outsideCommand (p : Page) (op : Nat) (src : CmdSrc) (e : WriteEnv) (s : State) : Host.Outcome State Fault Refusal :=
  match p, op with
  | .tru, 0x0001 => execRealign src s
  | .tru, 0x0002 => execSetTime src e.sample s
  | .tru, 0x0003 => execCapture src e.sample s
  | .tru, 0x0004 => execEndWtr src e.hold s
  | .pair, 0x0001 => execHandover src s
  | .pair, 0x0002 => execResync src s
  | .sto, 0x0001 => execReadBlocks src s
  | .sto, 0x0002 => execWriteBlocks src s
  | .sto, 0x0003 => execTrim src s
  | .pci, 0x0001 => execRingReset src s
  | p, op => badOpcode p op src s

/-- The commands of ASC, RPT, NCAL and CIP. -/
def macCommand (p : Page) (op : Nat) (src : CmdSrc) (s : State) : Host.Outcome State Fault Refusal :=
  match p, op with
  | .asc, 0x0001 => execProvision src s
  | .asc, 0x0002 => execReadCtx src s
  | .asc, 0x0003 => execFind src s
  | .asc, 0x0004 => execRelease src s
  | .asc, 0x0005 => execPark src s
  | .asc, 0x0006 => execRekey src s
  | .asc, 0x0007 => execDeleteParked src s
  | .asc, 0x0008 => execSetRecord src s
  | .asc, 0x0009 => execRotateBkey src s
  | .rpt, 0x0001 => execSetRoute src s
  | .rpt, 0x0002 => execClearRoute src s
  | .rpt, 0x0003 => execAppoint src s
  | .ncal, 0x0001 => execClearPort src s
  | .ncal, 0x0002 => execSnapshot src s
  | .cip, 0x0001 => execTestJob src s
  | .cip, 0x0002 => execSelfTest src s
  | .cip, 0x0003 => execZeroTestKey src s
  | p, op => badOpcode p op src s

/-- The commands of BQ, NBW, BBW, the memory pages, the line ports and the clusters. -/
def lineCommand (p : Page) (op : Nat) (src : CmdSrc) (s : State) : Host.Outcome State Fault Refusal :=
  match p, op with
  | .bq, 0x0001 => execForceRelease src s
  | .bq, 0x0002 => execReadWords src s
  | .nbw, 0x0001 => execEncodeFrame src s
  | .bbw, 0x0001 => execEncodeBurst src s
  | .bbw, 0x0002 => execReadDyn src s
  | .mem, 0x0001 => execClearConflicts src s
  | .mem, 0x0002 => execTestBank src s
  | .memb b, 0x0001 => execSoftRepair b src s
  | .lpt n, 0x0001 => execCalPort n src s
  | .lpt n, 0x0002 => execMeasureZ n src s
  | .eng c, 0x0001 => execAbortBurst c src s
  | .eng c, 0x0002 => execReloadCluster c src s
  | p, op => badOpcode p op src s

/-- The command that an opcode names on a page (R38, R40, R42). -/
def runCommand (p : Page) (op : Nat) (src : CmdSrc) (e : WriteEnv) (s : State) : Host.Outcome State Fault Refusal :=
  if op = 0 then execNop p src s
  else match pageKind p with
    | .pwr | .boot | .saf => supplyCommand p op src e s
    | .tkt | .mgt | .sen | .ser => managementCommand p op src s
    | .tru | .pair | .sto | .pci => outsideCommand p op src e s
    | .asc | .rpt | .ncal | .cip => macCommand p op src s
    | _ => lineCommand p op src s

/-- A host write to CMD (R38–R41). -/
def writeCmd (p : Page) (v : Word) (e : WriteEnv) (s : State) : Host.Outcome State Fault Refusal :=
  let tag := BitVec.ofNat 8 (getBits v 23 16)
  if getBits v 31 31 = 1 then execCmdAbort p tag e.blocks s else runCommand p (getBits v 15 0) (.host tag) e s

/-- CTRL.BLK_RESET of a page, which has no effect on MOD, PWR, BOOT, SAF and TKT. -/
def resetBlock (p : Page) (e : WriteEnv) (s : State) : Host.Outcome State Fault Refusal :=
  match p with
  | .mod | .pwr | .boot | .saf | .tkt => .next s
  | .mgt => execMgtBlkReset s
  | .sen => execSenBlkReset s
  | .ser n => execSerBlkReset n s
  | .tru => execTruBlkReset s
  | .pair => execPairBlkReset s
  | .sto => execStoBlkReset e.blocks s
  | .pci => execPciBlkReset s
  | .lan l => execLanBlkReset (.bh l) s
  | .lanm m => execLanBlkReset (.pm m) s
  | .bcn => execBcnBlkReset s
  | .asc => execAscBlkReset s
  | .rpt => execRptBlkReset s
  | .ncal => execNcalBlkReset s
  | .cip => execCipBlkReset s
  | .bq => execBqBlkReset s
  | .nbw => execNbwBlkReset s
  | .bbw => execBbwBlkReset s
  | .mem => execMemGlobalBlkReset s
  | .lpt n => execLptBlkReset n s
  | .eng c => execEngBlkReset c s
  | .memb b => execMembBlkReset b s

end Sys2Proof.Machine
end

