-- ==== Sys2Proof/Machine/RegWrite.lean ====
section
/-!
DEFINITION. Sys2Proof/Machine/RegWrite.lean: host writes and reads of registers: the common header (R26–R36), the registers of the owning chapters and what a
write of them starts, and BAR2 (R377, R378, R388).
-/
namespace Sys2Proof.Machine

/-! Interrupt registers (R29, R34). -/

/-- The block-specific bits of INT_STAT that a kind of page defines; the others are reserved (R28). -/
def blockInts : PageKind → Nat
  | .mod => 0 | .pwr => 0x7FF | .boot => 0xF | .saf => 0x3F | .tkt => 0x7 | .mgt => 0x7 | .sen => 0x1F | .ser => 0x3FF
  | .tru => 0x7F | .pair => 0xFF | .sto => 0xF | .pci => 0x1F | .lan => 0x1F | .lanm => 0x3
  | .bcn => 0x3F | .asc => 0xFF | .rpt => 0x1F | .ncal => 0x1F | .cip => 0x3F | .bq => 0xF | .nbw => 0x7 | .bbw => 0x3F | .mem => 0xF
  | .lpt => 0xFF | .eng => 0x1F | .memb => 0xF

/-- A word written to an interrupt register of a page, without the reserved bits. -/
def intWord (p : Page) (v : Word) : Word := v &&& BitVec.ofNat 32 (0xF0000000 + blockInts (pageKind p))

/-- INT_STAT_CLEAR (R29, R34). -/
def execIntStatClear (page : Page) (value : Word) (s : State) : Host.Outcome State Fault Refusal :=
  let a := addr page offIntStat
  .next (afterInt page true true (setReg a (reg s a &&& ~~~value) s))

/-- INT_EN_WRITE (R29, R34). -/
def execIntEnWrite (page : Page) (value : Word) (s : State) : Host.Outcome State Fault Refusal :=
  .next (afterInt page true true (setReg (addr page offIntEn) (intWord page value) s))

/-- INT_FORCE: the status bits are set and nothing else happens (R29, R34). -/
def execIntForce (page : Page) (value : Word) (s : State) : Host.Outcome State Fault Refusal :=
  .next (raiseMask page (intWord page value) s)

/-- CMD_STAT_CLEAR: a 1 clears DONE, ABORT_LATE or DROPPED (R9). -/
def execCmdStatClear (page : Page) (value : Word) (s : State) : Host.Outcome State Fault Refusal :=
  let a := addr page offCmdStat
  .next (setReg a (reg s a &&& ~~~(value &&& 0x70000000)) s)

/-! What a write of a block's registers starts. -/

/-- A register's RW fields, but for fields written with values that the register as a whole may not hold: these keep theirs and count (R8). -/
def writeKept (p : Page) (o : Nat) (v : Word) (bad : Field → Bool) (s : State) : State :=
  let fs := (fieldsAt (pageKind p) o).filter (fun f => decide (f.acc = .rw))
  fs.foldl (fun t f => if bad f then countErr p t else writeField p o v f t) s

/-- PWR_OUTAGE_PORTS written: in OUTAGE the receive chains and engines follow (R69). -/
def outagePortsWritten (s : State) : State :=
  if inOutage s then refreshEngines (allPorts.foldl (fun t n => refreshChain n t) s) else s

/-- LPT_TX_LEVEL written: a change of setting brings CAPPED up to date (R95). -/
def levelWritten (n : Port) (v : Word) (s : State) : State :=
  let s1 := writeFields (.lpt n) 0x104 v s
  if getBits (reg s (addr (.lpt n) 0x104)) 15 0 = getBits (reg s1 (addr (.lpt n) 0x104)) 15 0 then s1 else capPort n.val s1

/-- BCN_CFG written: BEACON_EN going to 1 takes DOMAIN_ID (spec/10_beacons_and_superframe.md, BCN_CFG); BW and BB_CPER wait for their epoch (R201). -/
def beaconCfgWritten (v : Word) (s : State) : State :=
  let s1 := epochWritten (writeFields .bcn 0x100 v s)
  if !isSet s .bcn BCN_CFG.BEACON_EN && isSet s1 .bcn BCN_CFG.BEACON_EN then
    { s1 with bcn := { s1.bcn with domain := getF s1 .bcn BCN_CFG.DOMAIN_ID } }
  else s1

/-- RPT_TREE written: a role other than the one in effect awaits the next start (R257). -/
def treeWritten (v : Word) (s : State) : State :=
  let s1 := writeFields .rpt 0x104 v s
  setB .rpt RPT_STATUS.ROLE_PENDING (decide (getF s1 .rpt RPT_TREE.ROLE ≠ s1.mac.role)) s1

/-- MEM_BADGER written: FIRST_BANK is not above LAST_BANK (R8, R312): a FIRST_BANK above the LAST_BANK it is to stand beside is kept, and so is a LAST_BANK
below the FIRST_BANK that then stands. DESIGN CHOICE (log 41). -/
def badgerWritten (v : Word) (s : State) : State :=
  let first := if getBits v 23 17 < getBits v 16 10 then getF s .mem MEM_BADGER.FIRST_BANK else getBits v 16 10
  let bad (f : Field) : Bool :=
    (decide (f = MEM_BADGER.FIRST_BANK) && decide (getBits v 23 17 < getBits v 16 10)) ||
      (decide (f = MEM_BADGER.LAST_BANK) && decide (getBits v 23 17 < first))
  let s1 := writeKept .mem 0x104 v bad s
  setB .mem MEM_STATUS.BADGER_RUN (badgerOn s1) s1

/-- TRU_TIMING written: HO_MIN is not above HO_AVG (R8). -/
def timingWritten (v : Word) (s : State) : State :=
  writeKept .tru 0x104 v (fun f => decide (f = TRU_TIMING.HO_MIN) && decide (getF s .tru TRU_HIST.HO_AVG < getBits v 31 16)) s

/-- LAN_CFG written: a lane disabled falls (R366, R367). -/
def laneWritten (l : Lane) (v : Word) (s : State) : State :=
  let s1 := writeFields (.lan l) 0x100 v s
  refreshTunnel (if isSet s1 (.lan l) LAN_CFG.EN then s1 else laneFall l.val false false true s1)

/-- LAN_ETYPE written: the EtherTypes of tagged frames, PAUSE and PTP are refused like a length (spec/18_backhaul_and_host.md, LAN_ETYPE). -/
def etypeWritten (l : Lane) (v : Word) (s : State) : State :=
  let x := getBits v 15 0
  writeKept (.lan l) 0x104 v (fun _ => decide (x = 0x8100 ∨ x = 0x8808 ∨ x = 0x88F7)) s

/-- LANM_CFG written: EN of a paired module's mirror lane cannot be cleared (spec/20_pair_redundancy.md, LANM_CFG). -/
def mirrorLaneWritten (m : MLane) (v : Word) (s : State) : State :=
  if getBits v 31 31 = 0 ∧ isSet s .pair PAIR_ROLE.PAIRED then countErr (.lanm m) s
  else
    let s1 := writeFields (.lanm m) 0x100 v s
    if isSet s1 (.lanm m) LANM_CFG.EN then s1 else mirrorFall m false false s1

/-- The block of a ring written: while the ring is enabled only EN is, and any other field is ignored and counted when it is written with another value; the
areas lie on 4 KiB (R379, R388). Enabling a ring has its waiting completions written as far as there is room (R380). -/
def ringWritten (r o : Nat) (v : Word) (s : State) : State :=
  let a := addr .pci (0x400 + 0x20 * r + o)
  let on := decide (getI s .pci PCI_RING.EN r = 1)
  match o with
  | 0x00 | 0x08 => if on then countErr .pci s else setReg a (setBits v 11 0 0) s
  | 0x04 | 0x0C => if on then countErr .pci s else setReg a v s
  | 0x10 =>
    if on then
      let s1 := if getBits v 30 0 % 2 ^ 20 = getBits (reg s a) 19 0 then s else countErr .pci s
      setI .pci PCI_RING.EN r (getBits v 31 31) s1
    else
      let s1 := writeFields .pci (0x410 + 0x20 * r) v s
      if getI s1 .pci PCI_RING.EN r = 1 then flushRing r s1 else s1
  | _ => s

/-- The configuration register of sensor channel n written; those of the SI channels are fixed (R420, R423). -/
def sensorWritten (n o : Nat) (v : Word) (s : State) : State :=
  if 8 ≤ n then s
  else if o = 0 then senCfgWritten n (writeFields .sen (0x200 + 0x20 * n) v s)
  else writeFields .sen (0x200 + 0x20 * n + o) v s

/-- A write of a block's register that has no command of its own. -/
def writePlain (p : Page) (o : Nat) (v : Word) (s : State) : State :=
  match p, o with
  | .pwr, 0x11C | .pwr, 0x120 => outagePortsWritten (writeFields p o v s)
  | .lpt n, 0x104 => levelWritten n v s
  | .nbw, 0x104 => nbPending (writeFields p o v s)
  | .bbw, 0x104 => bbPending (writeFields p o v s)
  | .ncal, 0x100 | .ncal, 0x104 => ncalPending (writeFields p o v s)
  | .bcn, 0x100 => beaconCfgWritten v s
  | .bcn, 0x104 | .bcn, 0x108 | .bcn, 0x114 => epochWritten (writeFields p o v s)
  | .rpt, 0x104 => treeWritten v s
  | .eng c, 0x110 => refreshCluster c.val (writeFields p o v s)
  | .bq, 0x100 => bqCfgPending (writeFields p o v s)
  | .mem, 0x104 => badgerWritten v s
  | .tru, 0x104 => timingWritten v s
  | .lan l, 0x100 => laneWritten l v s
  | .lan l, 0x104 => etypeWritten l v s
  | .lanm m, 0x100 => mirrorLaneWritten m v s
  | .pci, 0x100 => refreshTunnel (writeFields p o v s)
  | .ser n, 0x114 => if n.val < 2 then writeFields p o v s else s
  | p, o =>
    if p = .pci ∧ 0x400 ≤ o ∧ o < 0x7A0 then ringWritten ((o - 0x400) / 0x20) ((o - 0x400) % 0x20) v s
    else if p = .sen ∧ 0x200 ≤ o ∧ o < 0x380 then sensorWritten ((o - 0x200) / 0x20) ((o - 0x200) % 0x20) v s
    else writeFields p o v s

/-- A write of a block's register: the ones with a command of their own run it. ENG_CTX_SEL and the registers of the shared context pool stand on ENG 0 alone. -/
def writeBlock (p : Page) (o : Nat) (v : Word) (e : WriteEnv) (s : State) : Host.Outcome State Fault Refusal :=
  match p, o with
  | .pwr, 0x134 => execPwrRtcAlarmLoWrite v s
  | .lpt n, 0x100 => execLptDeclWrite n v s
  | .ncal, 0x108 => execNcalSelWrite v s
  | .bcn, 0x128 => execBcnDwellSelWrite v s
  | .rpt, 0x110 => execRptRouteSelWrite v s
  | .bq, 0x108 => execBqSelWrite v s
  | .mem, 0x124 => execMemCntSelWrite v s
  | .memb b, 0x100 => execMembPowerWrite b v s
  | .cip, 0x104 => execCipTestCtlWrite v s
  | .tru, 0x100 => execTruModeWrite v e.hold s
  | .ser n, 0x100 => execSerDivWrite n true v s
  | .ser n, 0x104 => execSerDivWrite n false v s
  | .ser n, 0x108 => execSerTxWrite n v false s
  | p, o =>
    if p = .cip ∧ 0x140 ≤ o ∧ o < 0x160 then execCipTestKeyWrite (Fin.ofNat 8 ((o - 0x140) / 4)) v s
    else if p = .tru ∧ 0x200 ≤ o ∧ o < 0x300 ∧ (o - 0x200) % 0x20 = 0 then execRefCfgWrite (Fin.ofNat 8 ((o - 0x200) / 0x20)) v e.hold s
    else if p = .eng 0 ∧ o = 0x194 then execEngCtxSelWrite v s
    else if pageKind p = .eng ∧ p ≠ .eng 0 ∧ 0x180 ≤ o ∧ o < 0x1A0 then .next s
    else .next (writePlain p o v s)

/-- A write to the common header (R28). -/
def writeHeader (p : Page) (o : Nat) (v : Word) (e : WriteEnv) (s : State) : Host.Outcome State Fault Refusal :=
  match o with
  | 0x008 => if getBits v 31 31 = 1 then resetBlock p e s else .next s
  | 0x010 => execIntStatClear p v s
  | 0x014 => execIntEnWrite p v s
  | 0x018 => execIntForce p v s
  | 0x040 => writeCmd p v e s
  | 0x044 | 0x048 | 0x04C => .next (setReg (addr p o) v s)
  | 0x050 => execCmdStatClear p v s
  | _ => .next s

/-! Accesses (R26). -/

/-- A 32-bit access, aligned, with all its byte enables (R26). -/
def fullAccess (a : Nat) (form : AccessForm) : Bool := decide (form = .dword 0xF) && decide (a % 4 = 0)

/-- An access that is not performed (R26). -/
def notPerformed (p : Page) (s : State) : State := countErr p (raise p INT.ACCESS s)

/-- A write in BAR2: doorbells, and the table whose fourth words hold the mask bits (R377–R380). -/
def writeBar2 (a : Nat) (v : Word) (e : WriteEnv) (s : State) : Host.Outcome State Fault Refusal :=
  let r : Fin 32 := Fin.ofNat 32 (a / 16)
  let n : Fin 64 := Fin.ofNat 64 ((a - 0x8000) / 16)
  if a < 0x200 ∧ a % 16 = 0 then execSqProdDoorbell r v e.bad s
  else if a < 0x200 ∧ a % 16 = 4 then execCqConsDoorbell r v s
  else if 0x8000 ≤ a ∧ a < 0x8400 then
    if a % 16 = 12 then
      if v.toNat.testBit 0 then .next { s with msixMask := s.msixMask ||| 2 ^ n.val }
      else execMsixUnmask n s
    else .next { s with msixTable := Map.set (fun _ => 0) s.msixTable ((a - 0x8000) / 4) v }
  else .next s

/-- REGISTER_WRITE: a host write in BAR0 or BAR2; the commons window is WINDOW_ACCESS's, and a reserved address ignores writes (R24, R25). -/
def execRegisterWrite (a : HostAddr) (form : AccessForm) (value : Word) (env : WriteEnv) (s : State) : Host.Outcome State Fault Refusal :=
  match a with
  | .bar2 a => if fullAccess a.toNat form then writeBar2 a.toNat value env s else .next s
  | .bar0 a =>
    match pageOfAddr a.toNat with
    | none => .next s
    | some p =>
      let o := a.toNat % 0x1000
      if !fullAccess a.toNat form then .next (notPerformed p s)
      else if o < 0x100 then writeHeader p o value env s
      else writeBlock p o value env s

/-! Reads (R9, R26, R27). -/

/-- RATIO, STAT and LEAD of a channel: those of the result whose TEMP was read last, once one was (R427). -/
def sensorWord (s : State) (o : Nat) : Word :=
  match (chan s ((o - 0x200) / 0x20)).latch, (o - 0x200) % 0x20 with
  | some (r, _, _), 0x10 => r
  | some (_, t, _), 0x14 => t
  | some (_, _, l), 0x18 => l
  | _, _ => reg s (addr .sen o)

/-- The word a host read of a register returns; WO fields read 0 (R9). -/
def readWord (s : State) (p : Page) (o : Nat) : Word :=
  match p, o with
  | _, 0x008 | _, 0x018 | _, 0x040 => 0
  | .mod, o => summary s o
  | .pwr, 0x130 => setBits (BitVec.ofNat 32 s.time.rtcHiLatch) 31 31 (if s.time.rtcValid then 1 else 0)
  | .tkt, 0x114 => BitVec.ofNat 32 (challengeLeft s)
  | .asc, 0x00C => ascStatus s
  | .ser _, 0x108 => 0
  | p, o =>
    if p = .sen ∧ 0x200 ≤ o ∧ o < 0x380 then sensorWord s o
    else if p = .cip ∧ 0x140 ≤ o ∧ o < 0x160 then 0
    else reg s (addr p o)

/-- What a read clears: the RC fields of a register, and ERR_CNT (R9). LOW of ENG_CTX_FREE restarts at the contexts free now. DEDUCED (log 43). -/
def clearRead (p : Page) (o : Nat) (s : State) : State :=
  if o = offErrCnt then setReg (addr p offErrCnt) 0 s
  else
    ((fieldsAt (pageKind p) o).filter (fun f => decide (f.acc = .rc))).foldl (fun t f =>
      let v := if f = ENG_CTX_FREE.LOW then getF t p ENG_CTX_FREE.FREE else 0
      setReg (addr p o) (setBits (reg t (addr p o)) f.hi f.lo v) t) s

/-- A performed read of a page's register; those with a command of their own run it. -/
def readReg (p : Page) (o : Nat) (s : State) : Host.Outcome State Fault Refusal :=
  match p, o with
  | .pwr, 0x12C => execPwrRtcLoRead s
  | .ser n, 0x10C => execSerRxRead n false s
  | p, o =>
    if p = .sen ∧ 0x200 ≤ o ∧ o < 0x380 ∧ o % 0x20 = 0x0C then execSenTempRead (Fin.ofNat 12 ((o - 0x200) / 0x20)) s
    else if pageKind p = .eng ∧ p ≠ .eng 0 ∧ 0x180 ≤ o ∧ o < 0x1A0 then .next (returnWord 0 s)
    else .next (clearRead p o (returnWord (readWord s p o) s))

/-- The word a read in BAR2 returns: the table, the pending bits; doorbells and reserved addresses read 0. -/
def readBar2 (s : State) (a : Nat) : Word :=
  if 0x8000 ≤ a ∧ a < 0x8400 then
    if a % 16 = 12 then (if s.msixMask.testBit ((a - 0x8000) / 16) then 1 else 0)
    else Map.get (fun _ => 0) s.msixTable ((a - 0x8000) / 4)
  else if a = 0x9000 then BitVec.ofNat 32 s.msixPba
  else if a = 0x9004 then BitVec.ofNat 32 (s.msixPba / 2 ^ 32)
  else 0

/-- COUNTER_READ_CLEAR: a host read, which returns the current value and clears the RC fields it meets (R9, R26, R27). The commons window is
WINDOW_ACCESS's. -/
def execCounterReadClear (a : HostAddr) (form : AccessForm) (s : State) : Host.Outcome State Fault Refusal :=
  match a with
  | .bar2 a => .next (returnWord (if fullAccess a.toNat form then readBar2 s a.toNat else 0) s)
  | .bar0 a =>
    match pageOfAddr a.toNat with
    | none => .next (if 0x1000000 ≤ a.toNat ∧ a.toNat < 0x2000000 then s else returnWord 0 s)
    | some p => if fullAccess a.toNat form then readReg p (a.toNat % 0x1000) s else .next (returnWord 0 (notPerformed p s))

end Sys2Proof.Machine
end

