-- ==== Sys2Proof/Machine/Dispatch.lean ====
section
/-! DEFINITION. Sys2Proof/Machine/Dispatch.lean: the meaning of each command, one arm per row of the table. -/
namespace Sys2Proof.Machine

def exec (i : Instr) (s : State) : Host.Outcome State Fault Refusal :=
  match i with
  | .registerWrite a form value env => Sys2Proof.Machine.execRegisterWrite a form value env s
  | .intStatClear page value => Sys2Proof.Machine.execIntStatClear page value s
  | .intEnWrite page value => Sys2Proof.Machine.execIntEnWrite page value s
  | .intForce page value => Sys2Proof.Machine.execIntForce page value s
  | .cmdStatClear page value => Sys2Proof.Machine.execCmdStatClear page value s
  | .counterReadClear a form => Sys2Proof.Machine.execCounterReadClear a form s
  | .nop page src => Sys2Proof.Machine.execNop page src s
  | .cmdAbort page tag blocks => Sys2Proof.Machine.execCmdAbort page tag blocks s
  | .cmdCompletion page r => Sys2Proof.Machine.execCmdCompletion page r s
  | .lptBlkReset n => Sys2Proof.Machine.execLptBlkReset n s
  | .nbwBlkReset => Sys2Proof.Machine.execNbwBlkReset s
  | .bbwBlkReset => Sys2Proof.Machine.execBbwBlkReset s
  | .ncalBlkReset => Sys2Proof.Machine.execNcalBlkReset s
  | .bcnBlkReset => Sys2Proof.Machine.execBcnBlkReset s
  | .ascBlkReset => Sys2Proof.Machine.execAscBlkReset s
  | .rptBlkReset => Sys2Proof.Machine.execRptBlkReset s
  | .engBlkReset c => Sys2Proof.Machine.execEngBlkReset c s
  | .bqBlkReset => Sys2Proof.Machine.execBqBlkReset s
  | .memGlobalBlkReset => Sys2Proof.Machine.execMemGlobalBlkReset s
  | .membBlkReset b => Sys2Proof.Machine.execMembBlkReset b s
  | .cipBlkReset => Sys2Proof.Machine.execCipBlkReset s
  | .truBlkReset => Sys2Proof.Machine.execTruBlkReset s
  | .lanBlkReset l => Sys2Proof.Machine.execLanBlkReset l s
  | .pciBlkReset => Sys2Proof.Machine.execPciBlkReset s
  | .stoBlkReset n => Sys2Proof.Machine.execStoBlkReset n s
  | .pairBlkReset => Sys2Proof.Machine.execPairBlkReset s
  | .senBlkReset => Sys2Proof.Machine.execSenBlkReset s
  | .mgtBlkReset => Sys2Proof.Machine.execMgtBlkReset s
  | .serBlkReset n => Sys2Proof.Machine.execSerBlkReset n s
  | .killnFall => Sys2Proof.Machine.execKillnFall s
  | .killnRise => Sys2Proof.Machine.execKillnRise s
  | .killnAutoRelease => Sys2Proof.Machine.execKillnAutoRelease s
  | .perstAssert => Sys2Proof.Machine.execPerstAssert s
  | .perstRelease => Sys2Proof.Machine.execPerstRelease s
  | .mrstAssert => Sys2Proof.Machine.execMrstAssert s
  | .mrstRelease => Sys2Proof.Machine.execMrstRelease s
  | .plugRemoved connector => Sys2Proof.Machine.execPlugRemoved connector s
  | .baseplateOverTemp temp => Sys2Proof.Machine.execBaseplateOverTemp temp s
  | .tempKill temp => Sys2Proof.Machine.execTempKill temp s
  | .tempKillRelease => Sys2Proof.Machine.execTempKillRelease s
  | .coldHoldEnd => Sys2Proof.Machine.execColdHoldEnd s
  | .powerOn main volts spent => Sys2Proof.Machine.execPowerOn main volts spent s
  | .mainOk volts => Sys2Proof.Machine.execMainOk volts s
  | .mainFailed volts => Sys2Proof.Machine.execMainFailed volts s
  | .backupStandbyReturn => Sys2Proof.Machine.execBackupStandbyReturn s
  | .backupOk volts => Sys2Proof.Machine.execBackupOk volts s
  | .backupFailed volts reversed => Sys2Proof.Machine.execBackupFailed volts reversed s
  | .backupLow volts => Sys2Proof.Machine.execBackupLow volts s
  | .dormOnLowExpiry => Sys2Proof.Machine.execDormOnLowExpiry s
  | .outageDelayExpiry => Sys2Proof.Machine.execOutageDelayExpiry s
  | .bothFailed main backup together blocks => Sys2Proof.Machine.execBothFailed main backup together blocks s
  | .shutdownComplete => Sys2Proof.Machine.execShutdownComplete s
  | .enterDormouse src => Sys2Proof.Machine.execEnterDormouse src s
  | .enterOutage src => Sys2Proof.Machine.execEnterOutage src s
  | .leaveOutage src => Sys2Proof.Machine.execLeaveOutage src s
  | .testLastGasp src => Sys2Proof.Machine.execTestLastGasp src s
  | .wake source => Sys2Proof.Machine.execWake source s
  | .rtcAlarm => Sys2Proof.Machine.execRtcAlarm s
  | .pwrRtcLoRead => Sys2Proof.Machine.execPwrRtcLoRead s
  | .pwrRtcAlarmLoWrite value => Sys2Proof.Machine.execPwrRtcAlarmLoWrite value s
  | .startupStageComplete f => Sys2Proof.Machine.execStartupStageComplete f s
  | .listenEnd => Sys2Proof.Machine.execListenEnd s
  | .watchdogExpiry => Sys2Proof.Machine.execWatchdogExpiry s
  | .lockstepDisagree => Sys2Proof.Machine.execLockstepDisagree s
  | .recoveryCountClear => Sys2Proof.Machine.execRecoveryCountClear s
  | .trialExpiry => Sys2Proof.Machine.execTrialExpiry s
  | .resetModule src => Sys2Proof.Machine.execResetModule src s
  | .verifySlot src => Sys2Proof.Machine.execVerifySlot src s
  | .confirm src => Sys2Proof.Machine.execConfirm src s
  | .enterTest src => Sys2Proof.Machine.execEnterTest src s
  | .surge n => Sys2Proof.Machine.execSurge n s
  | .driverEnableRequest id => Sys2Proof.Machine.execDriverEnableRequest id s
  | .driverDisable id z => Sys2Proof.Machine.execDriverDisable id z s
  | .blankingEnd n => Sys2Proof.Machine.execBlankingEnd n s
  | .currentClamp n => Sys2Proof.Machine.execCurrentClamp n s
  | .driverHot n => Sys2Proof.Machine.execDriverHot n s
  | .driverCooled n => Sys2Proof.Machine.execDriverCooled n s
  | .agcClippedSample n => Sys2Proof.Machine.execAgcClippedSample n s
  | .agcBlockMeasured n low => Sys2Proof.Machine.execAgcBlockMeasured n low s
  | .rangeChange n => Sys2Proof.Machine.execRangeChange n s
  | .rangeChangeForced n => Sys2Proof.Machine.execRangeChangeForced n s
  | .receiveStep n up sample => Sys2Proof.Machine.execReceiveStep n up sample s
  | .driveStep n sample => Sys2Proof.Machine.execDriveStep n sample s
  | .calPort n src => Sys2Proof.Machine.execCalPort n src s
  | .measureZ n src => Sys2Proof.Machine.execMeasureZ n src s
  | .measureZTimeout n => Sys2Proof.Machine.execMeasureZTimeout n s
  | .lptDeclWrite n value => Sys2Proof.Machine.execLptDeclWrite n value s
  | .superframeStart noise h => Sys2Proof.Machine.execSuperframeStart noise h s
  | .slotStart n => Sys2Proof.Machine.execSlotStart n s
  | .planFix wishes => Sys2Proof.Machine.execPlanFix wishes s
  | .dwellBarred n w ch => Sys2Proof.Machine.execDwellBarred n w ch s
  | .dwellClear n w ch => Sys2Proof.Machine.execDwellClear n w ch s
  | .bcnDwellSelWrite value => Sys2Proof.Machine.execBcnDwellSelWrite value s
  | .nbSyncDetect p set level m syncP prev start => Sys2Proof.Machine.execNbSyncDetect p set level m syncP prev start s
  | .nbHeaderDecoded id h => Sys2Proof.Machine.execNbHeaderDecoded id h s
  | .nbEarlyDecode id payload => Sys2Proof.Machine.execNbEarlyDecode id payload s
  | .encodeFrame src => Sys2Proof.Machine.execEncodeFrame src s
  | .bbDetect p first last level start => Sys2Proof.Machine.execBbDetect p first last level start s
  | .bbHeaderDecoded id h => Sys2Proof.Machine.execBbHeaderDecoded id h s
  | .tmapReceived id => Sys2Proof.Machine.execTmapReceived id s
  | .tmapPeriodExpiry a snr => Sys2Proof.Machine.execTmapPeriodExpiry a snr s
  | .tmapPreviousExpiry a => Sys2Proof.Machine.execTmapPreviousExpiry a s
  | .dynNotchDetect p k before now => Sys2Proof.Machine.execDynNotchDetect p k before now s
  | .dynNotchLift p k => Sys2Proof.Machine.execDynNotchLift p k s
  | .encodeBurst src => Sys2Proof.Machine.execEncodeBurst src s
  | .readDyn src => Sys2Proof.Machine.execReadDyn src s
  | .impulseDetected p onset prev width level nb ru => Sys2Proof.Machine.execImpulseDetected p onset prev width level nb ru s
  | .predictionDue p cand k observed => Sys2Proof.Machine.execPredictionDue p cand k observed s
  | .settleEnd p => Sys2Proof.Machine.execSettleEnd p s
  | .ncalSelWrite value => Sys2Proof.Machine.execNcalSelWrite value s
  | .clearPort src => Sys2Proof.Machine.execClearPort src s
  | .snapshot src => Sys2Proof.Machine.execSnapshot src s
  | .uplinkFrame id => Sys2Proof.Machine.execUplinkFrame id s
  | .ackReceived id => Sys2Proof.Machine.execAckReceived id s
  | .retransmitTimeout n => Sys2Proof.Machine.execRetransmitTimeout n s
  | .dlDescriptorTaken r d => Sys2Proof.Machine.execDlDescriptorTaken r d s
  | .sf2Recheck n good => Sys2Proof.Machine.execSf2Recheck n good s
  | .dlCompletion => Sys2Proof.Machine.execDlCompletion s
  | .joinSolicit id => Sys2Proof.Machine.execJoinSolicit id s
  | .joinReq id => Sys2Proof.Machine.execJoinReq id s
  | .joiningExpiry a => Sys2Proof.Machine.execJoiningExpiry a s
  | .acceptedExpiry a => Sys2Proof.Machine.execAcceptedExpiry a s
  | .supervisionTimeout a => Sys2Proof.Machine.execSupervisionTimeout a s
  | .leave => Sys2Proof.Machine.execLeave s
  | .leavingExpiry a => Sys2Proof.Machine.execLeavingExpiry a s
  | .recordEccFault a => Sys2Proof.Machine.execRecordEccFault a s
  | .rekeyTrigger a => Sys2Proof.Machine.execRekeyTrigger a s
  | .rekeyRetryExpiry a => Sys2Proof.Machine.execRekeyRetryExpiry a s
  | .prevKeyExpiry a => Sys2Proof.Machine.execPrevKeyExpiry a s
  | .provision src => Sys2Proof.Machine.execProvision src s
  | .readCtx src => Sys2Proof.Machine.execReadCtx src s
  | .find src => Sys2Proof.Machine.execFind src s
  | .release src => Sys2Proof.Machine.execRelease src s
  | .park src => Sys2Proof.Machine.execPark src s
  | .rekey src => Sys2Proof.Machine.execRekey src s
  | .deleteParked src => Sys2Proof.Machine.execDeleteParked src s
  | .setRecord src => Sys2Proof.Machine.execSetRecord src s
  | .rotateBkey src => Sys2Proof.Machine.execRotateBkey src s
  | .floodCopyReceived id => Sys2Proof.Machine.execFloodCopyReceived id s
  | .floodKeyExpiry => Sys2Proof.Machine.execFloodKeyExpiry s
  | .relayElement => Sys2Proof.Machine.execRelayElement s
  | .keyInstall => Sys2Proof.Machine.execKeyInstall s
  | .joinUpHoldExpiry => Sys2Proof.Machine.execJoinUpHoldExpiry s
  | .parentJoined => Sys2Proof.Machine.execParentJoined s
  | .parentLost => Sys2Proof.Machine.execParentLost s
  | .treeWaitExpiry => Sys2Proof.Machine.execTreeWaitExpiry s
  | .setRoute src => Sys2Proof.Machine.execSetRoute src s
  | .clearRoute src => Sys2Proof.Machine.execClearRoute src s
  | .appoint src => Sys2Proof.Machine.execAppoint src s
  | .rptRouteSelWrite value => Sys2Proof.Machine.execRptRouteSelWrite value s
  | .engineWake c k wave => Sys2Proof.Machine.execEngineWake c k wave s
  | .engineIdleGate c k => Sys2Proof.Machine.execEngineIdleGate c k s
  | .txEngineTake p w => Sys2Proof.Machine.execTxEngineTake p w s
  | .burstCompletion id r => Sys2Proof.Machine.execBurstCompletion id r s
  | .clusterFault c cause sample => Sys2Proof.Machine.execClusterFault c cause sample s
  | .abortBurst c src => Sys2Proof.Machine.execAbortBurst c src s
  | .reloadCluster c src => Sys2Proof.Machine.execReloadCluster c src s
  | .engCtxSelWrite value => Sys2Proof.Machine.execEngCtxSelWrite value s
  | .queueNarrowWrite id data last => Sys2Proof.Machine.execQueueNarrowWrite id data last s
  | .pop id gen err => Sys2Proof.Machine.execPop id gen err s
  | .mark id gen => Sys2Proof.Machine.execMark id gen s
  | .rewind id gen => Sys2Proof.Machine.execRewind id gen s
  | .queueRelease id gen n => Sys2Proof.Machine.execQueueRelease id gen n s
  | .forceRelease src => Sys2Proof.Machine.execForceRelease src s
  | .readWords src => Sys2Proof.Machine.execReadWords src s
  | .bqSelWrite value => Sys2Proof.Machine.execBqSelWrite value s
  | .windowAccess off acc err c wait => Sys2Proof.Machine.execWindowAccess off acc err c wait s
  | .windowGrantTimeout acc => Sys2Proof.Machine.execWindowGrantTimeout acc s
  | .badgerStripe finds busy => Sys2Proof.Machine.execBadgerStripe finds busy s
  | .badgerYield upto finds => Sys2Proof.Machine.execBadgerYield upto finds s
  | .softRepairWalkEnd b => Sys2Proof.Machine.execSoftRepairWalkEnd b s
  | .fuseBurnDone => Sys2Proof.Machine.execFuseBurnDone s
  | .membPowerWrite b value => Sys2Proof.Machine.execMembPowerWrite b value s
  | .bankRetentionReturn b => Sys2Proof.Machine.execBankRetentionReturn b s
  | .bankZeroed b => Sys2Proof.Machine.execBankZeroed b s
  | .memCntSelWrite value => Sys2Proof.Machine.execMemCntSelWrite value s
  | .clearConflicts src => Sys2Proof.Machine.execClearConflicts src s
  | .testBank src => Sys2Proof.Machine.execTestBank src s
  | .softRepair b src => Sys2Proof.Machine.execSoftRepair b src s
  | .cipherJobTaken ring => Sys2Proof.Machine.execCipherJobTaken ring s
  | .cipherJobComplete pipe slot ecc => Sys2Proof.Machine.execCipherJobComplete pipe slot ecc s
  | .cipherJobAbandon ring seq => Sys2Proof.Machine.execCipherJobAbandon ring seq s
  | .reserveWaitTimeout pipe slot => Sys2Proof.Machine.execReserveWaitTimeout pipe slot s
  | .cipherParityError pipe slot => Sys2Proof.Machine.execCipherParityError pipe slot s
  | .drbgHealthFail => Sys2Proof.Machine.execDrbgHealthFail s
  | .testJob src => Sys2Proof.Machine.execTestJob src s
  | .selfTest src => Sys2Proof.Machine.execSelfTest src s
  | .zeroTestKey src => Sys2Proof.Machine.execZeroTestKey src s
  | .cipTestCtlWrite value => Sys2Proof.Machine.execCipTestCtlWrite value s
  | .cipTestKeyWrite k value => Sys2Proof.Machine.execCipTestKeyWrite k value s
  | .refQualified r freq phase h => Sys2Proof.Machine.execRefQualified r freq phase h s
  | .refDisqualified r freq phase h => Sys2Proof.Machine.execRefDisqualified r freq phase h s
  | .refLossOfSignal r h => Sys2Proof.Machine.execRefLossOfSignal r h s
  | .wtrExpiry r h => Sys2Proof.Machine.execWtrExpiry r h s
  | .switchComplete phase h => Sys2Proof.Machine.execSwitchComplete phase h s
  | .truLocked phase => Sys2Proof.Machine.execTruLocked phase s
  | .truLost theta => Sys2Proof.Machine.execTruLost theta s
  | .slewDone => Sys2Proof.Machine.execSlewDone s
  | .truModeWrite value h => Sys2Proof.Machine.execTruModeWrite value h s
  | .refCfgWrite r value h => Sys2Proof.Machine.execRefCfgWrite r value h s
  | .realign src => Sys2Proof.Machine.execRealign src s
  | .setTime src at_ => Sys2Proof.Machine.execSetTime src at_ s
  | .capture src at_ => Sys2Proof.Machine.execCapture src at_ s
  | .endWtr src h => Sys2Proof.Machine.execEndWtr src h s
  | .laneUp l => Sys2Proof.Machine.execLaneUp l s
  | .laneDown l hiBer busy => Sys2Proof.Machine.execLaneDown l hiBer busy s
  | .tunnelFrameReceived l f => Sys2Proof.Machine.execTunnelFrameReceived l f s
  | .ptpMessage l data stamp sent => Sys2Proof.Machine.execPtpMessage l data stamp sent s
  | .pauseReceived l quanta => Sys2Proof.Machine.execPauseReceived l quanta s
  | .sqProdDoorbell r value bad => Sys2Proof.Machine.execSqProdDoorbell r value bad s
  | .cqConsDoorbell r value => Sys2Proof.Machine.execCqConsDoorbell r value s
  | .ringDmaError r => Sys2Proof.Machine.execRingDmaError r s
  | .ulDelivery r cookie => Sys2Proof.Machine.execUlDelivery r cookie s
  | .eventRecordDelivery => Sys2Proof.Machine.execEventRecordDelivery s
  | .ringCoalesceExpiry r => Sys2Proof.Machine.execRingCoalesceExpiry r s
  | .msixUnmask v => Sys2Proof.Machine.execMsixUnmask v s
  | .ringReset src => Sys2Proof.Machine.execRingReset src s
  | .snfWrite => Sys2Proof.Machine.execSnfWrite s
  | .snfReplay cookie => Sys2Proof.Machine.execSnfReplay cookie s
  | .readBlocks src => Sys2Proof.Machine.execReadBlocks src s
  | .writeBlocks src => Sys2Proof.Machine.execWriteBlocks src s
  | .trim src => Sys2Proof.Machine.execTrim src s
  | .storeWorn readOnly wear spare n => Sys2Proof.Machine.execStoreWorn readOnly wear spare n s
  | .heartbeatSend => Sys2Proof.Machine.execHeartbeatSend s
  | .mirrorFrameReceived l fcsOk tagOk m stamp => Sys2Proof.Machine.execMirrorFrameReceived l fcsOk tagOk m stamp s
  | .mirrorSeqGapExpiry => Sys2Proof.Machine.execMirrorSeqGapExpiry s
  | .heartbeatLoss => Sys2Proof.Machine.execHeartbeatLoss s
  | .takeover h => Sys2Proof.Machine.execTakeover h s
  | .handover src => Sys2Proof.Machine.execHandover src s
  | .handoverDrainTimeout => Sys2Proof.Machine.execHandoverDrainTimeout s
  | .resync src => Sys2Proof.Machine.execResync src s
  | .sensorOutputBoundary n o => Sys2Proof.Machine.execSensorOutputBoundary n o s
  | .sensorStale n => Sys2Proof.Machine.execSensorStale n s
  | .senTempRead n => Sys2Proof.Machine.execSenTempRead n s
  | .selfCal src => Sys2Proof.Machine.execSelfCal src s
  | .logFlush => Sys2Proof.Machine.execLogFlush s
  | .loadSlot src => Sys2Proof.Machine.execLoadSlot src s
  | .epfwImport src => Sys2Proof.Machine.execEpfwImport src s
  | .epfwDelete src => Sys2Proof.Machine.execEpfwDelete src s
  | .campaignStart src => Sys2Proof.Machine.execCampaignStart src s
  | .campaignStop src => Sys2Proof.Machine.execCampaignStop src s
  | .campaignBlockDue => Sys2Proof.Machine.execCampaignBlockDue s
  | .logMark src => Sys2Proof.Machine.execLogMark src s
  | .challenge src => Sys2Proof.Machine.execChallenge src s
  | .challengeExpiry => Sys2Proof.Machine.execChallengeExpiry s
  | .apply src => Sys2Proof.Machine.execApply src s
  | .cardSign src => Sys2Proof.Machine.execCardSign src s
  | .readAuth src => Sys2Proof.Machine.execReadAuth src s
  | .readDevPub src => Sys2Proof.Machine.execReadDevPub src s
  | .serCharacterReceived n c => Sys2Proof.Machine.execSerCharacterReceived n c s
  | .serRxRead n tarlum => Sys2Proof.Machine.execSerRxRead n tarlum s
  | .serTxWrite n value tarlum => Sys2Proof.Machine.execSerTxWrite n value tarlum s
  | .serTxShiftLoad n refused => Sys2Proof.Machine.execSerTxShiftLoad n refused s
  | .serDivWrite n cfg value => Sys2Proof.Machine.execSerDivWrite n cfg value s
  | .breakStart n => Sys2Proof.Machine.execBreakStart n s
  | .breakEnd n ms => Sys2Proof.Machine.execBreakEnd n ms s
  | .lineStuck n => Sys2Proof.Machine.execLineStuck n s
  | .lineFree n => Sys2Proof.Machine.execLineFree n s
  | .sendBreak n src => Sys2Proof.Machine.execSendBreak n src s
  | .sleepAddressMatch n => Sys2Proof.Machine.execSleepAddressMatch n s
  | .cardPresenceChange n present => Sys2Proof.Machine.execCardPresenceChange n present s
  | .cardAtr n ts => Sys2Proof.Machine.execCardAtr n ts s
  | .cardWwtExpiry n => Sys2Proof.Machine.execCardWwtExpiry n s
  | .cardStatusWord n data sw => Sys2Proof.Machine.execCardStatusWord n data sw s
  | .bandEdgeKill n => Sys2Proof.Machine.execBandEdgeKill n s
  | .levelKill n => Sys2Proof.Machine.execLevelKill n s
  | .stuckKill n => Sys2Proof.Machine.execStuckKill n s
  | .tapKill n => Sys2Proof.Machine.execTapKill n s
  | .selfKill => Sys2Proof.Machine.execSelfKill s
  | .hotSpotTrip k fault => Sys2Proof.Machine.execHotSpotTrip k fault s
  | .siWarn k => Sys2Proof.Machine.execSiWarn k s
  | .tripLift k fault => Sys2Proof.Machine.execTripLift k fault s
  | .clearKill src holds => Sys2Proof.Machine.execClearKill src holds s
  | .killTest src => Sys2Proof.Machine.execKillTest src s
  | .ovenReady => Sys2Proof.Machine.execOvenReady s
  | .teBudgetExceeded h => Sys2Proof.Machine.execTeBudgetExceeded h s
  | .oscillatorModelSave steer => Sys2Proof.Machine.execOscillatorModelSave steer s
  | .truStateSend => Sys2Proof.Machine.execTruStateSend s
  | .signTimeout n => Sys2Proof.Machine.execSignTimeout n s
  | .pcieLinkChange up width speed master => Sys2Proof.Machine.execPcieLinkChange up width speed master s
  | .tinPpsEdge at_ => Sys2Proof.Machine.execTinPpsEdge at_ s
  | .setTimePpsTimeout => Sys2Proof.Machine.execSetTimePpsTimeout s
  | .reserveChargeFail => Sys2Proof.Machine.execReserveChargeFail s
  | .grantReq id => Sys2Proof.Machine.execGrantReq id s
  | .parentJoinAnswer id => Sys2Proof.Machine.execParentJoinAnswer id s
  | .solicitWaitExpiry => Sys2Proof.Machine.execSolicitWaitExpiry s

end Sys2Proof.Machine
end

