-- ==== Sys2Proof/Machine/Idle.lean ====
section
/-!
DEFINITION. Sys2Proof/Machine/Idle.lean: what a step does while no command waits.
-/
namespace Sys2Proof.Machine

/-- One period of the 76.8 kHz Dormouse clock, which runs while the Dormouse domain has power: the real-time counter counts it and wraps at 2^48 (R76). Every
other effect of time is a command of its own. DESIGN CHOICE (log 1). -/
def idle (s : State) : State :=
  if s.pwr.state = .off then s else { s with time := { s.time with rtc := (s.time.rtc + 1) % 2 ^ 48 } }

end Sys2Proof.Machine
end

