-- ==== Sys2Proof/Safety.lean ====
section
/-!
DEFINITION. Sys2Proof/Safety.lean: the terms claims are stated in: the canonical form of every table of the state, that a kill leaves no burst on the line, and what
one step keeps.
-/
namespace Sys2Proof.Machine

/-- The register table and the tables of the host interface are in canonical form. -/
abbrev State.hostWf (s : State) : Bool :=
  Map.wf regReset s.regs && Map.wf (fun _ => CmdSlot.empty) s.cmds && Map.wf (fun _ => RingSt.empty) s.rings && Map.wf (fun _ => 0) s.msixTable

/-- The tables of the line side are in canonical form: ports, calendars, bursts, clusters, queues. -/
abbrev State.lineWf (s : State) : Bool :=
  Map.wf (fun _ => PortSt.initial) s.ports && Map.wf (fun _ => CalSt.empty) s.ncal.cals && Map.wf (fun _ => Burst.idle) s.eng.bursts &&
    Map.wf (fun _ => ClusterSt.fresh) s.eng.clusters && Map.wf (fun _ => Queue.closed) s.bq.queues

/-- The memories are in canonical form: the commons with its banks, and the bulk store. -/
abbrev State.memWf (s : State) : Bool :=
  Map.wf memDefault s.mem.bytes && Map.wf (fun _ => BankSt.quiet) s.mem.banks && Map.wf (fun _ => (⟨0, 0⟩ : Conflict)) s.mem.conflicts &&
    Map.wf (fun _ => []) s.sto.blocks && Map.wf (fun _ => none) s.log.region

/-- The tables of associations, keys, lanes, sensors and serial ports are in canonical form. -/
abbrev State.serviceWf (s : State) : Bool :=
  Map.wf (fun _ => Assoc.free) s.mac.table && Map.wf (fun _ => Ctx.zero) s.mac.parked && Map.wf (fun _ => Relay.clear) s.mac.relays &&
    Map.wf (fun _ => []) s.mac.cache && Map.wf (fun _ => []) s.cip.rings && Map.wf (fun _ => 0) s.cip.seqs &&
    Map.wf (fun _ => GroupSlot.zero) s.cip.groups && Map.wf (fun _ => LaneSt.rest) s.link.lanes && Map.wf (fun _ => ChanSt.start) s.sen &&
    Map.wf (fun _ => SerSt.idle) s.ser

/-- Every table of the state is in canonical form, so that equal contents are equal states. -/
abbrev State.wf (s : State) : Bool := s.hostWf && s.lineWf && s.memWf && s.serviceWf

/-- Whether a burst is on the line. -/
def transmitting (s : State) : Bool := s.eng.bursts.any (fun e => decide (e.2.st = .txLive))

/-- While a kill is in force no burst is on the line (R19). -/
def killSafe (s : State) : Bool := !killed s || !transmitting s

/-- What every command keeps of a state: the commands that wait, what has been sent out, the draws made of the random source, and the canonical form. -/
structure Keeps (s t : State) : Prop where
  pending : t.pending = s.pending
  emits : s.emits <:+ t.emits
  draws : s.draws ≤ t.draws
  wf : s.wf = true → t.wf = true

/-! Parts of the state, for what a command leaves alone. -/

/-- The parts of a state: the registers of each kind of page, and what stands beside the registers. -/
inductive Part where
  /-- The registers of one kind of page. -/
  | regs (k : PageKind)
  /-- The command slots. -/
  | cmds
  /-- The event log. -/
  | log
  /-- The rings beside their registers. -/
  | rings
  /-- The vectors of MSI-X. -/
  | msix
  /-- Module time. -/
  | time
  /-- Power. -/
  | pwr
  /-- Start-up. -/
  | boot
  /-- The line ports. -/
  | ports
  /-- The narrowband waveform. -/
  | nbw
  /-- The broadband waveform. -/
  | bbw
  /-- The noise calendars. -/
  | ncal
  /-- Beacons and dwell times. -/
  | bcn
  /-- The plan. -/
  | plan
  /-- The tone engines. -/
  | eng
  /-- The burst queues. -/
  | bq
  /-- The commons. -/
  | mem
  /-- The time reference. -/
  | tru
  /-- The associations. -/
  | mac
  /-- The cipher engine. -/
  | cip
  /-- The lanes. -/
  | link
  /-- The bulk store. -/
  | sto
  /-- The redundant pair. -/
  | pair
  /-- The sensors. -/
  | sen
  /-- Management. -/
  | mgt
  /-- The serial ports. -/
  | ser
  /-- The draws of the random source. -/
  | draws
  /-- The free values taken. -/
  | frees
  /-- What has been sent out. -/
  | emits
deriving DecidableEq, Repr

/-- The place of a page kind among the parts. -/
def kindCode : PageKind → Nat
  | .mod => 0
  | .pwr => 1
  | .boot => 2
  | .saf => 3
  | .tkt => 4
  | .mgt => 5
  | .sen => 6
  | .ser => 7
  | .tru => 8
  | .pair => 9
  | .sto => 10
  | .pci => 11
  | .lan => 12
  | .lanm => 13
  | .bcn => 14
  | .asc => 15
  | .rpt => 16
  | .ncal => 17
  | .cip => 18
  | .bq => 19
  | .nbw => 20
  | .bbw => 21
  | .mem => 22
  | .lpt => 23
  | .eng => 24
  | .memb => 25

/-- The place of a part in a set of parts. -/
def Part.code : Part → Nat
  | .regs k => kindCode k
  | .cmds => 26
  | .log => 27
  | .rings => 28
  | .msix => 29
  | .time => 30
  | .pwr => 31
  | .boot => 32
  | .ports => 33
  | .nbw => 34
  | .bbw => 35
  | .ncal => 36
  | .bcn => 37
  | .plan => 38
  | .eng => 39
  | .bq => 40
  | .mem => 41
  | .tru => 42
  | .mac => 43
  | .cip => 44
  | .link => 45
  | .sto => 46
  | .pair => 47
  | .sen => 48
  | .mgt => 49
  | .ser => 50
  | .draws => 51
  | .frees => 52
  | .emits => 53

/-- A set of parts, one bit each. -/
def parts (l : List Part) : Nat := l.foldr (fun c m => 2 ^ c.code ||| m) 0

/-- The registers of every kind of page. -/
def allRegs : Nat := 2 ^ 26 - 1

/-- The registers of the kind of a page. -/
def pageBit (p : Page) : Nat := 2 ^ kindCode (pageKind p)

/-- A part of a state is the same in another. -/
def Part.same (s t : State) : Part → Prop
  | .regs k => ∀ a, (pageOfAddr a).map pageKind = some k → reg t a = reg s a
  | .cmds => t.cmds = s.cmds
  | .log => t.log = s.log
  | .rings => t.rings = s.rings
  | .msix => t.msixMask = s.msixMask ∧ t.msixPba = s.msixPba ∧ t.msixTable = s.msixTable
  | .time => t.time = s.time
  | .pwr => t.pwr = s.pwr
  | .boot => t.boot = s.boot
  | .ports => t.ports = s.ports
  | .nbw => t.nbw = s.nbw
  | .bbw => t.bbw = s.bbw
  | .ncal => t.ncal = s.ncal
  | .bcn => t.bcn = s.bcn
  | .plan => t.plan = s.plan
  | .eng => t.eng = s.eng
  | .bq => t.bq = s.bq
  | .mem => t.mem = s.mem
  | .tru => t.tru = s.tru
  | .mac => t.mac = s.mac
  | .cip => t.cip = s.cip
  | .link => t.link = s.link
  | .sto => t.sto = s.sto
  | .pair => t.pair = s.pair
  | .sen => t.sen = s.sen
  | .mgt => t.mgt = s.mgt
  | .ser => t.ser = s.ser
  | .draws => t.draws = s.draws
  | .frees => t.frees = s.frees
  | .emits => t.emits = s.emits

/-- A state differs from another only within a set of parts: every other part is as before, and so are the commands that wait. -/
structure Within (m : Nat) (s t : State) : Prop where
  pending : t.pending = s.pending
  same : ∀ c : Part, m.testBit c.code = false → c.same s t

/-! What claims observe. -/

/-- Whether bit `n` of INT_STAT of a page is set (R29). -/
def intOf (s : State) (p : Page) (n : Nat) : Bool := (reg s (addr p offIntStat)).toNat.testBit n

/-- The errors a page has counted (R29). -/
def errors (s : State) (p : Page) : Nat := getBits (reg s (addr p offErrCnt)) 15 0

/-- A page takes a command: none is outstanding, STATUS.READY is 1, and a command of a ring is posted on a running ring (R38–R43, R384). -/
def takes (s : State) (p : Page) : CmdSrc → Bool
  | .host _ => (outstanding s p).isNone && ready s p
  | .ring r .. => (outstanding s p).isNone && ready s p && ringPosted s (24 + r.val)

/-- The command interface of a page shows a completion: no command outstanding, BUSY 0, DONE 1, its CODE, and INT_STAT.CMD_DONE (R40). -/
structure Completed (s : State) (p : Page) (code : Nat) : Prop where
  out : outstanding s p = none
  busy : getBits (reg s (addr p offCmdStat)) 31 31 = 0
  done : getBits (reg s (addr p offCmdStat)) 30 30 = 1
  code : getBits (reg s (addr p offCmdStat)) 7 0 = code
  int : intOf s p INT.CMD_DONE = true

/-- A command is outstanding on a page with what was latched at its issue, BUSY 1 and its TAG shown (R38). -/
structure Issued (s : State) (p : Page) (o : Outstanding) : Prop where
  out : outstanding s p = some o
  busy : getBits (reg s (addr p offCmdStat)) 31 31 = 1
  tag : getBits (reg s (addr p offCmdStat)) 23 16 = o.tag

end Sys2Proof.Machine
end

