-- ==== Sys2Proof/Claims.lean ====
section
/-!
DEFINITION. Sys2Proof/Claims.lean: how claims say that a command completes and what it leaves alone: the parts of the state each command may change.
-/
namespace Sys2Proof.Machine

/-- A command answers a next state, of which something holds. -/
def Yields (i : Instr) (s : State) (P : State → Prop) : Prop := ∃ t, exec i s = .next t ∧ P t

/-- Every register outside a list of addresses reads as before. -/
def RegsBut (l : List Nat) (s t : State) : Prop := ∀ a, a ∉ l → reg t a = reg s a

/-- Every register beyond the common header of a page, outside PCI and a list of addresses, reads as before. -/
def BlockRegsBut (l : List Nat) (s t : State) : Prop :=
  ∀ p o, o < 0x1000 → 0x100 ≤ o → p ≠ .pci → addr p o ∉ l → reg t (addr p o) = reg s (addr p o)

/-- A reset of a block (R42): no command is outstanding on its page afterwards, one that was has completed with RESET, and some registers are at reset. -/
def BlockReset (i : Instr) (p : Page) (os : List Nat) (s : State) : Prop :=
  Yields i s (fun t => outstanding t p = none ∧ (outstanding s p ≠ none → Completed t p CODE.RESET) ∧ ∀ o ∈ os, reg t (addr p o) = pageReset p o)

/-- A command for a received frame (R215, R418): it changes nothing where the context holds no frame or one of another kind; else it takes the frame out of
the context, which is all it does in STANDBY. -/
def TakesFrame (i : Instr) (id : BurstId) (kind : FrameIn → Bool) : Prop := ∀ s : State,
  (frameIn s id.val = none → Yields i s (fun t => t = s)) ∧
  ∀ f, frameIn s id.val = some f → Yields i s (fun t =>
    if kind f then (burst t id.val).header = [] ∧ (standby s = true → t = consume id.val s) else t = s)

/-- A kill with a cause, perhaps from one port (R474): while the module has power the cause joins those in force, every driver is off afterwards, and the first
port to cause a kill is shown. -/
def Kills (i : Instr) (cause : Nat) (src : Option Port) (s : State) : Prop :=
  Yields i s (fun t => if moduleOn s then
    killCauses t = killCauses s ||| 2 ^ cause ∧ isSet t .saf SAF_STATUS.KILL = true ∧ (∀ n : Port, driverOn t n.val = false) ∧
      (killed s = false → intOf t .saf SAF_INT.KILL = true) ∧
      ∀ n, src = some n → getF t .saf SAF_KILL.PORT = if getF s .saf SAF_KILL.PORT = 0x3F then n.val else getF s .saf SAF_KILL.PORT
    else t = s)

/-- A start of the module by a cause (R81, R82, R84, R92, R474): stage 0x01 in mode STARTUP with one bit of BOOT_CAUSE, no command outstanding, every driver off
and a kill in force for RESET, the grid stopped, the stored configuration kept, and the context table kept by a wake alone. -/
def Restarted (cause : Nat) (s t : State) : Prop :=
  t.pwr.state = .run ∧ stage t = 1 ∧ mode t = 1 ∧ getBits (reg t (addr .boot 0x104)) 31 0 = 2 ^ cause ∧ (∀ p, outstanding t p = none) ∧
    (∀ n : Port, driverOn t n.val = false) ∧ (killCauses t).testBit KILL.RESET = true ∧ t.time.running = false ∧
    (∀ e ∈ storedRegs, e.1 ≠ .boot → ∀ o ∈ e.2, reg t (addr e.1 o) = reg s (addr e.1 o)) ∧
    (cause ≠ START.POWER_ON → t.time.rtc = s.time.rtc) ∧ t.mac.table = if cause = START.WAKE then s.mac.table else []

/-- A frame that is not as its rules ask is counted as malformed (R214). -/
def Malformed (s t : State) : Prop := getF t .asc ASC_MALFORMED_CNT.COUNT = min (getF s .asc ASC_MALFORMED_CNT.COUNT + 1) 0xFFFFFFFF

/-- No bank is powered off (R310). -/
def BanksOn (s : State) : Prop := ∀ b : Bank, bankPower s b ≠ 2

/-- The buffer of the event log has room for an event and a gap record before it (R434). -/
def LogRoom (s : State) : Prop := s.log.buf.length + 1 < logRoom

/-- The newest record of the event log has a code, an instance and details (R432). -/
def Logged (s : State) (code inst : Nat) (detail : List Nat) : Prop :=
  ∃ r, s.log.buf.getLast? = some r ∧ r.code = code ∧ r.inst = inst ∧ r.detail = detail

/-- Every part of a state. -/
def everyPart : List Part :=
  [.mod, .pwr, .boot, .saf, .tkt, .mgt, .sen, .ser, .tru, .pair, .sto, .pci, .lan, .lanm, .bcn, .asc, .rpt, .ncal, .cip, .bq, .nbw, .bbw, .mem, .lpt, .eng,
    .memb].map Part.regs ++
  [.cmds, .log, .rings, .msix, .time, .pwr, .boot, .ports, .nbw, .bbw, .ncal, .bcn, .plan, .eng, .bq, .mem, .tru, .mac, .cip, .link, .sto, .pair, .sen, .mgt,
    .ser, .draws, .frees, .emits]

/-- Every part of a state but those of a list. -/
def allBut (l : List Part) : List Part := everyPart.filter (fun c => decide (c ∉ l))

/-- The parts of the state each command may change. -/
def touches : Instr → List Part
  | .registerWrite _ _ _ _ => allBut []
  | .intStatClear page _ => [.regs (pageKind page), .msix, .emits]
  | .intEnWrite page _ => [.regs (pageKind page), .msix, .emits]
  | .intForce page _ => [.regs (pageKind page), .msix, .emits]
  | .cmdStatClear page _ => [.regs (pageKind page)]
  | .counterReadClear _ _ => [.regs .mod, .regs .pwr, .regs .boot, .regs .saf, .regs .tkt, .regs .mgt, .regs .sen, .regs .ser, .regs .tru, .regs .pair, .regs .sto, .regs .pci, .regs .lan, .regs .lanm, .regs .bcn, .regs .asc, .regs .rpt, .regs .ncal, .regs .cip, .regs .bq, .regs .nbw, .regs .bbw, .regs .mem, .regs .lpt, .regs .eng, .regs .memb, .msix, .time, .sen, .emits]
  | .nop page _ => [.regs (pageKind page), .regs .pci, .cmds, .rings, .msix, .emits]
  | .cmdAbort page _ _ => .regs (pageKind page) :: allBut [.regs .mod, .regs .bcn, .regs .ncal, .time, .boot, .nbw, .ncal, .mgt, .draws]
  | .cmdCompletion _ _ => [.regs .boot, .regs .saf, .regs .mgt, .regs .sen, .regs .ser, .regs .pair, .regs .sto, .regs .pci, .regs .lan, .regs .lanm, .regs .asc, .regs .rpt, .regs .cip, .regs .bq, .regs .nbw, .regs .bbw, .regs .mem, .regs .lpt, .regs .eng, .regs .memb, .cmds, .log, .rings, .msix, .ports, .bbw, .bcn, .plan, .eng, .bq, .mem, .mac, .cip, .link, .sto, .pair, .sen, .ser, .frees, .emits]
  | .lptBlkReset _ => [.regs .pci, .regs .lpt, .regs .eng, .cmds, .rings, .msix, .ports, .bcn, .eng, .bq, .mem, .emits]
  | .nbwBlkReset => [.regs .pci, .regs .nbw, .regs .lpt, .regs .eng, .cmds, .rings, .msix, .nbw, .bcn, .eng, .bq, .mem, .emits]
  | .bbwBlkReset => [.regs .pci, .regs .bbw, .regs .lpt, .regs .eng, .cmds, .rings, .msix, .bbw, .bcn, .eng, .bq, .mem, .emits]
  | .ncalBlkReset => [.regs .pci, .regs .ncal, .cmds, .rings, .msix, .ncal, .emits]
  | .bcnBlkReset => [.regs .pci, .regs .bcn, .cmds, .rings, .msix, .emits]
  | .ascBlkReset => [.regs .pci, .regs .asc, .cmds, .rings, .msix, .emits]
  | .rptBlkReset => [.regs .pci, .regs .rpt, .cmds, .rings, .msix, .emits]
  | .engBlkReset _ => [.regs .pci, .regs .lpt, .regs .eng, .cmds, .rings, .msix, .bcn, .eng, .bq, .mem, .emits]
  | .bqBlkReset => [.regs .pci, .regs .bq, .cmds, .rings, .msix, .emits]
  | .memGlobalBlkReset => [.regs .pci, .regs .mem, .cmds, .rings, .msix, .mem, .frees, .emits]
  | .membBlkReset _ => [.regs .pci, .regs .memb, .cmds, .rings, .msix, .emits]
  | .cipBlkReset => [.regs .saf, .regs .mgt, .regs .pair, .regs .pci, .regs .lan, .regs .lanm, .regs .asc, .regs .rpt, .regs .cip, .regs .bbw, .regs .memb, .cmds, .log, .rings, .msix, .bbw, .plan, .mem, .mac, .cip, .link, .pair, .emits]
  | .truBlkReset => [.regs .tru, .regs .pci, .cmds, .rings, .msix, .tru, .emits]
  | .lanBlkReset _ => [.regs .pci, .regs .lan, .regs .lanm, .cmds, .rings, .msix, .link, .emits]
  | .pciBlkReset => [.regs .pci, .regs .lan, .cmds, .rings, .msix, .plan, .mac, .link, .emits]
  | .stoBlkReset _ => [.regs .sto, .regs .pci, .regs .memb, .cmds, .rings, .msix, .mem, .sto, .frees, .emits]
  | .pairBlkReset => [.regs .pair, .regs .pci, .cmds, .rings, .msix, .emits]
  | .senBlkReset => [.regs .sen, .regs .pci, .cmds, .rings, .msix, .sen, .emits]
  | .mgtBlkReset => [.regs .boot, .regs .mgt, .regs .pci, .cmds, .rings, .msix, .emits]
  | .serBlkReset _ => [.regs .tkt, .regs .ser, .regs .pci, .cmds, .rings, .msix, .ser, .emits]
  | .killnFall => [.regs .saf, .regs .lpt, .regs .eng, .msix, .pwr, .bcn, .eng, .bq, .mem, .emits]
  | .killnRise => [.regs .saf, .pwr]
  | .killnAutoRelease => [.regs .saf, .msix, .emits]
  | .perstAssert => [.regs .pci, .cmds, .rings, .msix, .pwr, .mac, .link]
  | .perstRelease => [.pwr]
  | .mrstAssert => allBut [.draws, .frees]
  | .mrstRelease => allBut [.draws, .frees]
  | .plugRemoved _ => []
  | .baseplateOverTemp _ => [.regs .pwr, .regs .mgt, .log, .msix, .emits]
  | .tempKill _ => [.regs .pwr, .regs .saf, .regs .lpt, .regs .eng, .msix, .bcn, .eng, .bq, .mem, .emits]
  | .tempKillRelease => [.regs .saf, .msix, .emits]
  | .coldHoldEnd => [.regs .pwr, .regs .boot, .pwr]
  | .powerOn _ _ _ => allBut [.draws, .frees]
  | .mainOk _ => allBut [.draws, .frees]
  | .mainFailed _ => [.regs .pwr, .regs .mgt, .log, .msix, .pwr, .emits]
  | .backupStandbyReturn => [.pwr]
  | .backupOk _ => [.regs .pwr, .msix, .pwr, .emits]
  | .backupFailed _ _ => [.regs .pwr, .regs .mgt, .log, .msix, .pwr, .emits]
  | .backupLow _ => [.regs .pwr, .regs .mgt, .log, .msix, .emits]
  | .dormOnLowExpiry => allBut [.draws]
  | .outageDelayExpiry => [.pwr]
  | .bothFailed _ _ _ _ => allBut [.draws]
  | .shutdownComplete => allBut [.draws, .frees]
  | .enterDormouse _ => allBut [.draws]
  | .enterOutage _ => [.regs .pwr, .regs .pci, .cmds, .rings, .msix, .emits]
  | .leaveOutage _ => [.regs .pwr, .regs .pci, .cmds, .rings, .msix, .emits]
  | .testLastGasp _ => [.regs .pwr, .regs .mgt, .regs .pci, .regs .lan, .regs .lanm, .cmds, .log, .rings, .msix, .link, .emits]
  | .wake _ => allBut [.draws, .frees]
  | .rtcAlarm => allBut [.draws, .frees]
  | .pwrRtcLoRead => [.time, .emits]
  | .pwrRtcAlarmLoWrite _ => [.regs .pwr, .pwr]
  | .startupStageComplete _ => allBut [.sto, .sen, .ser, .frees]
  | .listenEnd => [.regs .boot, .regs .mgt, .regs .pair, .regs .asc, .log, .msix, .boot, .bbw, .plan, .mac, .pair, .emits]
  | .watchdogExpiry => allBut [.draws, .frees]
  | .lockstepDisagree => allBut [.draws, .frees]
  | .recoveryCountClear => [.boot]
  | .trialExpiry => allBut [.draws, .frees]
  | .resetModule _ => allBut [.draws, .frees]
  | .verifySlot _ => [.regs .boot, .regs .pci, .cmds, .rings, .msix, .emits]
  | .confirm _ => [.regs .boot, .regs .pci, .cmds, .rings, .msix, .boot, .emits]
  | .enterTest _ => [.regs .boot, .regs .ser, .regs .pci, .cmds, .rings, .msix, .emits]
  | .surge _ => [.regs .lpt, .msix, .emits]
  | .driverEnableRequest _ => [.regs .mgt, .regs .bcn, .regs .lpt, .regs .eng, .log, .msix, .ports, .bcn, .eng, .bq, .mem, .emits]
  | .driverDisable _ _ => [.regs .pci, .regs .lpt, .cmds, .rings, .msix, .ports, .bcn, .eng, .emits]
  | .blankingEnd _ => [.regs .lpt, .ports]
  | .currentClamp _ => [.regs .lpt, .eng]
  | .driverHot _ => [.regs .lpt, .regs .eng, .msix, .bcn, .eng, .bq, .mem, .emits]
  | .driverCooled _ => [.regs .lpt]
  | .agcClippedSample _ => [.regs .lpt, .msix, .ports, .emits]
  | .agcBlockMeasured _ _ => [.ports]
  | .rangeChange _ => [.regs .lpt, .ports, .eng]
  | .rangeChangeForced _ => [.regs .lpt, .ports, .eng]
  | .receiveStep _ _ _ => [.regs .mgt, .regs .ncal, .regs .lpt, .log, .msix, .ncal, .emits]
  | .driveStep _ _ => [.regs .mgt, .regs .ncal, .regs .lpt, .log, .msix, .ncal, .emits]
  | .calPort _ _ => [.regs .pci, .regs .lpt, .cmds, .rings, .msix, .emits]
  | .measureZ _ _ => [.regs .pci, .regs .lpt, .cmds, .rings, .msix, .ports, .emits]
  | .measureZTimeout _ => [.regs .pci, .regs .lpt, .cmds, .rings, .msix, .emits]
  | .lptDeclWrite _ _ => [.regs .mgt, .regs .lpt, .log, .msix, .emits]
  | .superframeStart _ _ => [.regs .pwr, .regs .mgt, .regs .tru, .regs .pair, .regs .pci, .regs .lan, .regs .lanm, .regs .bcn, .regs .asc, .regs .rpt, .regs .ncal, .regs .cip, .regs .bq, .regs .nbw, .regs .bbw, .regs .lpt, .regs .eng, .cmds, .log, .rings, .msix, .time, .pwr, .boot, .ports, .nbw, .bbw, .ncal, .bcn, .plan, .eng, .bq, .mem, .tru, .mac, .cip, .link, .sto, .pair, .draws, .emits]
  | .slotStart _ => [.regs .pair, .regs .pci, .regs .lan, .regs .lanm, .regs .asc, .regs .rpt, .regs .cip, .regs .bbw, .cmds, .rings, .msix, .time, .bbw, .plan, .mac, .cip, .link, .pair, .draws, .emits]
  | .planFix _ => [.regs .pwr, .regs .boot, .regs .saf, .regs .mgt, .regs .tru, .regs .pair, .regs .pci, .regs .lan, .regs .lanm, .regs .bcn, .regs .asc, .regs .rpt, .regs .ncal, .regs .cip, .regs .bbw, .cmds, .log, .rings, .msix, .time, .pwr, .nbw, .bbw, .ncal, .plan, .tru, .mac, .cip, .link, .pair, .draws, .emits]
  | .dwellBarred _ _ _ => [.regs .mgt, .regs .bcn, .regs .lpt, .regs .eng, .log, .msix, .bcn, .eng, .bq, .mem, .emits]
  | .dwellClear _ _ _ => [.bcn]
  | .bcnDwellSelWrite _ => [.regs .mgt, .regs .bcn, .log, .msix, .emits]
  | .nbSyncDetect _ _ _ _ _ _ _ => [.regs .bq, .regs .nbw, .regs .eng, .msix, .eng, .bq, .emits]
  | .nbHeaderDecoded _ _ => [.regs .nbw, .regs .lpt, .regs .eng, .msix, .eng, .bq, .mem, .pair, .emits]
  | .nbEarlyDecode _ _ => [.bq, .mem]
  | .encodeFrame _ => [.regs .pci, .regs .nbw, .regs .eng, .regs .memb, .cmds, .rings, .msix, .emits]
  | .bbDetect _ _ _ _ _ => [.regs .bq, .regs .bbw, .regs .eng, .msix, .eng, .bq, .emits]
  | .bbHeaderDecoded _ _ => [.regs .bbw, .regs .lpt, .regs .eng, .msix, .eng, .bq, .mem, .pair, .emits]
  | .tmapReceived _ => [.regs .pair, .regs .lan, .regs .lanm, .regs .asc, .regs .cip, .regs .bbw, .msix, .bbw, .eng, .mac, .cip, .link, .pair, .draws, .emits]
  | .tmapPeriodExpiry _ _ => [.regs .pair, .regs .lanm, .regs .bbw, .msix, .bbw, .mac, .pair, .emits]
  | .tmapPreviousExpiry _ => [.regs .bbw, .msix, .bbw, .emits]
  | .dynNotchDetect _ _ _ _ => [.regs .bbw, .msix, .bbw, .emits]
  | .dynNotchLift _ _ => [.regs .bbw, .msix, .bbw, .emits]
  | .encodeBurst _ => [.regs .pci, .regs .bbw, .regs .eng, .regs .memb, .cmds, .rings, .msix, .emits]
  | .readDyn _ => [.regs .pci, .regs .bbw, .regs .memb, .cmds, .rings, .msix, .mem, .emits]
  | .impulseDetected _ _ _ _ _ _ _ => [.regs .mgt, .regs .ncal, .log, .msix, .ncal, .emits]
  | .predictionDue _ _ _ _ => [.regs .mgt, .regs .ncal, .log, .msix, .ncal, .emits]
  | .settleEnd _ => [.regs .ncal, .ncal]
  | .ncalSelWrite _ => [.regs .mgt, .regs .ncal, .log, .msix, .emits]
  | .clearPort _ => [.regs .pci, .regs .ncal, .cmds, .rings, .msix, .ncal, .emits]
  | .snapshot _ => [.regs .pci, .regs .ncal, .regs .memb, .cmds, .rings, .msix, .mem, .emits]
  | .uplinkFrame _ => [.regs .saf, .regs .mgt, .regs .pair, .regs .pci, .regs .lan, .regs .lanm, .regs .asc, .regs .rpt, .regs .cip, .log, .msix, .eng, .mac, .cip, .link, .pair, .draws, .emits]
  | .ackReceived _ => [.regs .pair, .regs .pci, .regs .lan, .regs .lanm, .regs .asc, .regs .rpt, .regs .cip, .regs .bbw, .cmds, .rings, .msix, .bbw, .plan, .eng, .mac, .link, .pair, .emits]
  | .retransmitTimeout _ => [.mac, .link]
  | .dlDescriptorTaken _ _ => [.regs .saf, .regs .mgt, .regs .pair, .regs .pci, .regs .lanm, .regs .asc, .log, .msix, .mac, .cip, .link, .pair, .emits]
  | .sf2Recheck _ _ => [.regs .saf, .regs .mgt, .regs .pair, .regs .lanm, .regs .asc, .log, .msix, .mac, .cip, .link, .pair, .emits]
  | .dlCompletion => [.regs .pci, .regs .lan, .regs .lanm, .cmds, .rings, .msix, .mac, .link, .pair, .emits]
  | .joinSolicit _ => [.regs .pair, .regs .lanm, .regs .asc, .regs .rpt, .regs .cip, .msix, .bbw, .eng, .mac, .pair, .draws, .emits]
  | .joinReq _ => [.regs .pair, .regs .pci, .regs .lan, .regs .lanm, .regs .asc, .regs .rpt, .regs .cip, .regs .bbw, .cmds, .rings, .msix, .bbw, .plan, .eng, .mac, .cip, .link, .pair, .draws, .emits]
  | .joiningExpiry _ => [.regs .pair, .regs .lanm, .regs .asc, .msix, .mac, .pair, .emits]
  | .acceptedExpiry _ => [.regs .pair, .regs .lan, .regs .lanm, .regs .asc, .regs .rpt, .regs .bbw, .msix, .bbw, .mac, .link, .pair, .emits]
  | .supervisionTimeout _ => [.regs .pair, .regs .pci, .regs .lan, .regs .lanm, .regs .asc, .regs .rpt, .regs .cip, .regs .bbw, .cmds, .rings, .msix, .bbw, .plan, .mac, .link, .pair, .emits]
  | .leave => [.regs .pair, .regs .pci, .regs .lan, .regs .lanm, .regs .asc, .regs .rpt, .regs .cip, .regs .bbw, .cmds, .rings, .msix, .bbw, .plan, .mac, .link, .pair, .emits]
  | .leavingExpiry _ => [.regs .pair, .regs .pci, .regs .lan, .regs .lanm, .regs .asc, .regs .rpt, .regs .cip, .regs .bbw, .cmds, .rings, .msix, .bbw, .plan, .mac, .link, .pair, .emits]
  | .recordEccFault _ => [.regs .saf, .regs .pair, .regs .pci, .regs .lan, .regs .lanm, .regs .asc, .regs .rpt, .regs .cip, .regs .bbw, .cmds, .rings, .msix, .bbw, .plan, .mac, .link, .pair, .emits]
  | .rekeyTrigger _ => [.regs .pair, .regs .lanm, .regs .asc, .regs .cip, .msix, .mac, .cip, .pair, .draws, .emits]
  | .rekeyRetryExpiry _ => [.regs .pair, .regs .pci, .regs .lan, .regs .lanm, .regs .asc, .regs .rpt, .regs .cip, .regs .bbw, .cmds, .rings, .msix, .bbw, .plan, .mac, .link, .pair, .emits]
  | .prevKeyExpiry _ => [.regs .pair, .regs .lanm, .regs .asc, .msix, .mac, .pair, .emits]
  | .provision _ => [.regs .pci, .regs .asc, .regs .memb, .cmds, .rings, .msix, .mac, .emits]
  | .readCtx _ => [.regs .pci, .regs .asc, .regs .memb, .cmds, .rings, .msix, .mem, .emits]
  | .find _ => [.regs .pci, .regs .asc, .cmds, .rings, .msix, .emits]
  | .release _ => [.regs .pair, .regs .pci, .regs .lan, .regs .lanm, .regs .asc, .regs .rpt, .regs .cip, .regs .bbw, .cmds, .rings, .msix, .bbw, .plan, .mac, .link, .pair, .emits]
  | .park _ => [.regs .pair, .regs .pci, .regs .lan, .regs .lanm, .regs .asc, .regs .rpt, .regs .cip, .regs .bbw, .cmds, .rings, .msix, .bbw, .plan, .mac, .link, .pair, .emits]
  | .rekey _ => [.regs .pair, .regs .pci, .regs .lanm, .regs .asc, .regs .cip, .cmds, .rings, .msix, .mac, .cip, .pair, .draws, .emits]
  | .deleteParked _ => [.regs .pci, .regs .asc, .cmds, .rings, .msix, .mac, .emits]
  | .setRecord _ => [.regs .pair, .regs .pci, .regs .lanm, .regs .asc, .cmds, .rings, .msix, .mac, .pair, .emits]
  | .rotateBkey _ => [.regs .pci, .regs .asc, .regs .cip, .cmds, .rings, .msix, .mac, .draws, .emits]
  | .floodCopyReceived _ => [.regs .saf, .regs .mgt, .regs .pair, .regs .pci, .regs .lan, .regs .lanm, .regs .asc, .regs .rpt, .regs .cip, .log, .msix, .eng, .mac, .cip, .link, .pair, .draws, .emits]
  | .floodKeyExpiry => [.mac]
  | .relayElement => [.regs .saf, .regs .mgt, .regs .pair, .regs .pci, .regs .lan, .regs .lanm, .regs .asc, .regs .rpt, .regs .cip, .regs .bbw, .cmds, .log, .rings, .msix, .bbw, .plan, .mac, .cip, .link, .pair, .draws, .emits]
  | .keyInstall => [.regs .pair, .regs .lanm, .regs .asc, .msix, .bbw, .mac, .pair, .emits]
  | .joinUpHoldExpiry => [.mac]
  | .parentJoined => [.regs .boot, .regs .pair, .regs .lanm, .regs .rpt, .msix, .time, .mac, .pair, .emits]
  | .parentLost => [.regs .pair, .regs .lanm, .regs .rpt, .msix, .mac, .pair, .emits]
  | .treeWaitExpiry => [.regs .boot]
  | .setRoute _ => [.regs .pair, .regs .pci, .regs .lanm, .regs .rpt, .cmds, .rings, .msix, .mac, .pair, .emits]
  | .clearRoute _ => [.regs .pair, .regs .pci, .regs .lanm, .regs .rpt, .cmds, .rings, .msix, .mac, .pair, .emits]
  | .appoint _ => [.regs .pair, .regs .pci, .regs .lanm, .regs .rpt, .cmds, .rings, .msix, .mac, .pair, .emits]
  | .rptRouteSelWrite _ => [.regs .rpt]
  | .engineWake _ _ _ => [.regs .eng]
  | .engineIdleGate _ _ => [.regs .eng]
  | .txEngineTake _ _ => [.regs .bcn, .regs .eng, .msix, .plan, .eng, .mac, .emits]
  | .burstCompletion _ _ => [.regs .pair, .regs .lanm, .regs .bcn, .regs .asc, .regs .rpt, .regs .bq, .regs .nbw, .regs .bbw, .regs .lpt, .regs .eng, .msix, .bbw, .eng, .bq, .mem, .mac, .pair, .emits]
  | .clusterFault _ _ _ => [.regs .saf, .regs .pci, .regs .lpt, .regs .eng, .cmds, .rings, .msix, .bcn, .eng, .bq, .mem, .emits]
  | .abortBurst _ _ => [.regs .pci, .regs .lpt, .regs .eng, .cmds, .rings, .msix, .bcn, .eng, .bq, .mem, .emits]
  | .reloadCluster _ _ => [.regs .pci, .regs .eng, .cmds, .rings, .msix, .eng, .emits]
  | .engCtxSelWrite _ => [.regs .eng]
  | .queueNarrowWrite _ _ _ => [.regs .bq, .regs .lpt, .regs .eng, .msix, .eng, .bq, .mem, .emits]
  | .pop _ _ _ => [.regs .saf, .regs .bq, .regs .memb, .msix, .bq, .emits]
  | .mark _ _ => [.bq, .emits]
  | .rewind _ _ => [.regs .bq, .msix, .bq, .emits]
  | .queueRelease _ _ _ => [.regs .bq, .regs .eng, .eng, .bq, .emits]
  | .forceRelease _ => [.regs .pci, .regs .bq, .regs .eng, .cmds, .rings, .msix, .eng, .bq, .emits]
  | .readWords _ => [.regs .pci, .regs .bq, .cmds, .rings, .msix, .emits]
  | .bqSelWrite _ => [.regs .bq]
  | .windowAccess _ _ _ _ _ => [.regs .saf, .regs .mem, .regs .memb, .msix, .mem, .frees, .emits]
  | .windowGrantTimeout _ => [.regs .mem, .msix, .emits]
  | .badgerStripe _ _ => [.regs .saf, .regs .mem, .regs .memb, .msix, .mem, .emits]
  | .badgerYield _ _ => [.regs .saf, .regs .mem, .regs .memb, .msix, .mem, .emits]
  | .softRepairWalkEnd _ => [.regs .pci, .regs .memb, .cmds, .rings, .msix, .mem, .emits]
  | .fuseBurnDone => [.regs .mem, .msix, .mem, .emits]
  | .membPowerWrite _ _ => [.regs .memb, .msix, .mem, .emits]
  | .bankRetentionReturn _ => [.regs .memb]
  | .bankZeroed _ => [.mem]
  | .memCntSelWrite _ => [.regs .mem, .msix, .emits]
  | .clearConflicts _ => [.regs .pci, .regs .mem, .cmds, .rings, .msix, .mem, .emits]
  | .testBank _ => [.regs .pci, .regs .mem, .cmds, .rings, .msix, .emits]
  | .softRepair _ _ => [.regs .pci, .regs .memb, .cmds, .rings, .msix, .mem, .emits]
  | .cipherJobTaken _ => [.regs .saf, .regs .mgt, .regs .pair, .regs .pci, .regs .lan, .regs .lanm, .regs .asc, .regs .rpt, .regs .cip, .regs .bbw, .regs .memb, .cmds, .log, .rings, .msix, .bbw, .plan, .mem, .mac, .cip, .link, .pair, .emits]
  | .cipherJobComplete _ _ _ => [.regs .saf, .regs .mgt, .regs .pair, .regs .pci, .regs .lan, .regs .lanm, .regs .asc, .regs .rpt, .regs .cip, .regs .bbw, .regs .memb, .cmds, .log, .rings, .msix, .bbw, .plan, .mem, .mac, .cip, .link, .pair, .draws, .emits]
  | .cipherJobAbandon _ _ => [.regs .saf, .regs .mgt, .regs .pair, .regs .pci, .regs .lan, .regs .lanm, .regs .asc, .regs .rpt, .regs .cip, .regs .bbw, .regs .memb, .cmds, .log, .rings, .msix, .bbw, .plan, .mem, .mac, .cip, .link, .pair, .emits]
  | .reserveWaitTimeout _ _ => [.regs .saf, .regs .mgt, .regs .pair, .regs .pci, .regs .lan, .regs .lanm, .regs .asc, .regs .rpt, .regs .cip, .regs .bbw, .regs .memb, .cmds, .log, .rings, .msix, .bbw, .plan, .mem, .mac, .cip, .link, .pair, .emits]
  | .cipherParityError _ _ => [.regs .saf, .regs .mgt, .regs .pair, .regs .pci, .regs .lan, .regs .lanm, .regs .asc, .regs .rpt, .regs .cip, .regs .bbw, .regs .memb, .cmds, .log, .rings, .msix, .bbw, .plan, .mem, .mac, .cip, .link, .pair, .emits]
  | .drbgHealthFail => [.regs .cip]
  | .testJob _ => [.regs .pci, .regs .cip, .regs .memb, .cmds, .rings, .msix, .cip, .emits]
  | .selfTest _ => [.regs .pci, .regs .cip, .cmds, .rings, .msix, .emits]
  | .zeroTestKey _ => [.regs .pci, .regs .cip, .cmds, .rings, .msix, .cip, .emits]
  | .cipTestCtlWrite _ => [.regs .mgt, .regs .cip, .log, .msix, .cip, .emits]
  | .cipTestKeyWrite _ _ => [.regs .cip, .cip]
  | .refQualified _ _ _ _ => [.regs .mgt, .regs .tru, .log, .msix, .tru, .emits]
  | .refDisqualified _ _ _ _ => [.regs .mgt, .regs .tru, .log, .msix, .tru, .emits]
  | .refLossOfSignal _ _ => [.regs .mgt, .regs .tru, .log, .msix, .tru, .emits]
  | .wtrExpiry _ _ => [.regs .mgt, .regs .tru, .log, .msix, .tru, .emits]
  | .switchComplete _ _ => [.regs .mgt, .regs .tru, .log, .msix, .tru, .emits]
  | .truLocked _ => [.regs .mgt, .regs .tru, .log, .msix, .tru, .emits]
  | .truLost _ => [.regs .mgt, .regs .tru, .log, .msix, .tru, .emits]
  | .slewDone => [.regs .tru, .msix, .emits]
  | .truModeWrite _ _ => [.regs .mgt, .regs .tru, .log, .msix, .tru, .emits]
  | .refCfgWrite _ _ _ => [.regs .mgt, .regs .tru, .log, .msix, .tru, .emits]
  | .realign _ => [.regs .tru, .regs .pci, .cmds, .rings, .msix, .emits]
  | .setTime _ _ => [.regs .tru, .regs .pci, .cmds, .rings, .msix, .tru, .emits]
  | .capture _ _ => [.regs .tru, .regs .pci, .cmds, .rings, .msix, .emits]
  | .endWtr _ _ => [.regs .mgt, .regs .tru, .regs .pci, .cmds, .log, .rings, .msix, .tru, .emits]
  | .laneUp _ => [.regs .lan, .regs .lanm, .msix, .link, .emits]
  | .laneDown _ _ _ => [.regs .pci, .regs .lan, .regs .lanm, .msix, .link, .emits]
  | .tunnelFrameReceived _ _ => [.regs .saf, .regs .mgt, .regs .tru, .regs .pair, .regs .pci, .regs .lan, .regs .lanm, .regs .asc, .regs .rpt, .regs .cip, .regs .bbw, .cmds, .log, .rings, .msix, .bbw, .plan, .mac, .cip, .link, .pair, .draws, .emits]
  | .ptpMessage _ _ _ _ => [.regs .tru, .regs .lan, .link, .emits]
  | .pauseReceived _ _ => [.regs .lan, .msix, .link, .emits]
  | .sqProdDoorbell _ _ _ => [.regs .mod, .regs .pwr, .regs .boot, .regs .saf, .regs .tkt, .regs .mgt, .regs .sen, .regs .ser, .regs .tru, .regs .pair, .regs .sto, .regs .pci, .regs .lan, .regs .lanm, .regs .bcn, .regs .asc, .regs .rpt, .regs .ncal, .regs .cip, .regs .bq, .regs .nbw, .regs .bbw, .regs .mem, .regs .lpt, .regs .eng, .regs .memb, .cmds, .log, .rings, .msix, .emits]
  | .cqConsDoorbell _ _ => [.regs .pci, .rings, .msix, .emits]
  | .ringDmaError _ => [.regs .mgt, .regs .pci, .log, .msix, .emits]
  | .ulDelivery _ _ => [.regs .pci, .rings, .msix, .link, .emits]
  | .eventRecordDelivery => [.regs .mgt, .regs .pci, .log, .rings, .msix, .link, .emits]
  | .ringCoalesceExpiry _ => [.rings, .msix, .emits]
  | .msixUnmask _ => [.msix, .emits]
  | .ringReset _ => [.regs .pci, .cmds, .rings, .msix, .plan, .mac, .link, .emits]
  | .snfWrite => [.regs .sto, .regs .pci, .msix, .link, .sto, .emits]
  | .snfReplay _ => [.regs .pair, .regs .sto, .regs .pci, .regs .lan, .regs .lanm, .regs .cip, .rings, .msix, .mac, .link, .sto, .pair, .emits]
  | .readBlocks _ => [.regs .sto, .regs .pci, .cmds, .rings, .msix, .emits]
  | .writeBlocks _ => [.regs .sto, .regs .pci, .cmds, .rings, .msix, .emits]
  | .trim _ => [.regs .sto, .regs .pci, .cmds, .rings, .msix, .emits]
  | .storeWorn _ _ _ _ => [.regs .sto, .regs .pci, .regs .memb, .cmds, .rings, .msix, .mem, .sto, .frees, .emits]
  | .heartbeatSend => [.regs .lanm, .pair, .emits]
  | .mirrorFrameReceived _ _ _ _ _ => [.regs .pair, .regs .pci, .regs .lan, .regs .lanm, .regs .bcn, .regs .asc, .regs .cip, .regs .bbw, .regs .lpt, .regs .eng, .msix, .time, .bbw, .bcn, .plan, .eng, .bq, .mem, .tru, .mac, .cip, .link, .pair, .emits]
  | .mirrorSeqGapExpiry => [.regs .pair, .regs .pci, .regs .lan, .regs .lanm, .regs .bcn, .regs .asc, .regs .cip, .regs .bbw, .regs .lpt, .regs .eng, .msix, .time, .bbw, .bcn, .plan, .eng, .bq, .mem, .tru, .mac, .cip, .link, .pair, .emits]
  | .heartbeatLoss => [.regs .pair, .regs .pci, .regs .lan, .regs .lanm, .regs .asc, .regs .cip, .cmds, .rings, .msix, .mac, .cip, .link, .pair, .emits]
  | .takeover _ => [.regs .mgt, .regs .tru, .regs .pair, .regs .pci, .regs .lan, .regs .lanm, .regs .asc, .regs .rpt, .regs .cip, .regs .bbw, .cmds, .log, .rings, .msix, .bbw, .plan, .tru, .mac, .cip, .link, .pair, .mgt, .draws, .emits]
  | .handover _ => [.regs .pair, .regs .pci, .regs .lanm, .cmds, .rings, .msix, .pair, .emits]
  | .handoverDrainTimeout => [.regs .pair, .regs .pci, .cmds, .rings, .msix, .emits]
  | .resync _ => [.regs .pair, .regs .pci, .regs .lanm, .cmds, .rings, .msix, .pair, .emits]
  | .sensorOutputBoundary _ _ => [.regs .sen, .msix, .sen, .frees, .emits]
  | .sensorStale _ => [.regs .sen, .msix, .emits]
  | .senTempRead _ => [.sen, .emits]
  | .selfCal _ => [.regs .sen, .regs .pci, .cmds, .rings, .msix, .sen, .emits]
  | .logFlush => [.regs .mgt, .log]
  | .loadSlot _ => [.regs .boot, .regs .mgt, .regs .pci, .cmds, .rings, .msix, .sto, .emits]
  | .epfwImport _ => [.regs .mgt, .regs .pci, .cmds, .rings, .msix, .sto, .emits]
  | .epfwDelete _ => [.regs .mgt, .regs .pci, .cmds, .rings, .msix, .sto, .emits]
  | .campaignStart _ => [.regs .mgt, .regs .pci, .cmds, .log, .rings, .msix, .mgt, .emits]
  | .campaignStop _ => [.regs .mgt, .regs .pci, .cmds, .log, .rings, .msix, .mgt, .emits]
  | .campaignBlockDue => [.regs .mgt, .regs .pair, .regs .pci, .regs .lanm, .regs .asc, .regs .cip, .cmds, .log, .rings, .msix, .plan, .mac, .cip, .pair, .mgt, .draws, .emits]
  | .logMark _ => [.regs .mgt, .regs .pci, .cmds, .log, .rings, .msix, .emits]
  | .challenge _ => [.regs .tkt, .regs .pci, .regs .cip, .cmds, .rings, .msix, .mgt, .draws, .emits]
  | .challengeExpiry => [.regs .tkt, .msix, .mgt, .emits]
  | .apply _ => [.regs .mod, .regs .pwr, .regs .boot, .regs .saf, .regs .tkt, .regs .mgt, .regs .sen, .regs .ser, .regs .tru, .regs .pair, .regs .sto, .regs .pci, .regs .lan, .regs .lanm, .regs .bcn, .regs .asc, .regs .rpt, .regs .ncal, .regs .cip, .regs .bq, .regs .nbw, .regs .bbw, .regs .mem, .regs .lpt, .regs .eng, .regs .memb, .cmds, .log, .rings, .msix, .mgt, .emits]
  | .cardSign _ => [.regs .tkt, .regs .ser, .regs .pci, .cmds, .rings, .msix, .ser, .emits]
  | .readAuth _ => [.regs .tkt, .regs .pci, .regs .memb, .cmds, .rings, .msix, .mem, .emits]
  | .readDevPub _ => [.regs .tkt, .regs .pci, .regs .memb, .cmds, .rings, .msix, .mem, .emits]
  | .serCharacterReceived _ _ => [.regs .tkt, .regs .ser, .regs .pci, .cmds, .rings, .msix, .ser, .emits]
  | .serRxRead _ _ => [.regs .ser, .emits]
  | .serTxWrite _ _ _ => [.regs .ser, .msix, .ser, .emits]
  | .serTxShiftLoad _ _ => [.regs .tkt, .regs .ser, .regs .pci, .cmds, .rings, .msix, .ser, .emits]
  | .serDivWrite _ _ _ => [.regs .ser, .msix, .ser, .emits]
  | .breakStart _ => [.regs .ser, .msix, .emits]
  | .breakEnd _ _ => allBut [.draws, .frees]
  | .lineStuck _ => [.regs .mgt, .regs .ser, .log, .msix, .emits]
  | .lineFree _ => [.regs .ser, .msix, .emits]
  | .sendBreak _ _ => [.regs .ser, .regs .pci, .cmds, .rings, .msix, .ser, .emits]
  | .sleepAddressMatch _ => allBut [.draws, .frees]
  | .cardPresenceChange _ _ => [.regs .tkt, .regs .ser, .regs .pci, .cmds, .rings, .msix, .ser, .emits]
  | .cardAtr _ _ => [.regs .tkt, .regs .ser, .regs .pci, .cmds, .rings, .msix, .ser, .emits]
  | .cardWwtExpiry _ => [.regs .tkt, .regs .ser, .regs .pci, .cmds, .rings, .msix, .ser, .emits]
  | .cardStatusWord _ _ _ => [.regs .tkt, .regs .ser, .regs .pci, .regs .memb, .cmds, .rings, .msix, .mem, .ser, .emits]
  | .bandEdgeKill _ => [.regs .saf, .regs .lpt, .regs .eng, .msix, .bcn, .eng, .bq, .mem, .emits]
  | .levelKill _ => [.regs .saf, .regs .lpt, .regs .eng, .msix, .bcn, .eng, .bq, .mem, .emits]
  | .stuckKill _ => [.regs .saf, .regs .lpt, .regs .eng, .msix, .bcn, .eng, .bq, .mem, .emits]
  | .tapKill _ => [.regs .saf, .regs .lpt, .regs .eng, .msix, .bcn, .eng, .bq, .mem, .emits]
  | .selfKill => [.regs .saf, .regs .lpt, .regs .eng, .msix, .bcn, .eng, .bq, .mem, .emits]
  | .hotSpotTrip _ _ => [.regs .saf, .regs .lpt, .regs .eng, .msix, .bcn, .eng, .bq, .mem, .emits]
  | .siWarn _ => [.regs .saf, .regs .mgt, .log, .msix, .emits]
  | .tripLift _ _ => [.regs .saf]
  | .clearKill _ _ => [.regs .saf, .regs .pci, .cmds, .rings, .msix, .emits]
  | .killTest _ => [.regs .saf, .regs .pci, .cmds, .rings, .msix, .emits]
  | .ovenReady => [.regs .tru]
  | .teBudgetExceeded _ => [.regs .tru, .msix, .tru, .emits]
  | .oscillatorModelSave _ => [.regs .tru, .tru]
  | .truStateSend => [.regs .lanm, .pair, .emits]
  | .signTimeout _ => [.regs .tkt, .regs .ser, .regs .pci, .cmds, .rings, .msix, .ser, .emits]
  | .pcieLinkChange _ _ _ _ => [.regs .pci, .msix, .emits]
  | .tinPpsEdge _ => [.cmds, .tru]
  | .setTimePpsTimeout => [.regs .tru, .regs .pci, .cmds, .rings, .msix, .emits]
  | .reserveChargeFail => [.regs .sto, .msix, .emits]
  | .grantReq _ => [.regs .pair, .regs .lanm, .regs .asc, .msix, .eng, .mac, .pair, .emits]
  | .parentJoinAnswer _ => [.regs .pair, .regs .lan, .regs .lanm, .regs .rpt, .regs .cip, .msix, .eng, .mac, .link, .pair, .draws, .emits]
  | .solicitWaitExpiry => [.regs .pair, .regs .lan, .regs .lanm, .regs .rpt, .regs .cip, .msix, .mac, .link, .pair, .draws, .emits]

end Sys2Proof.Machine
end

