-- ==== Sys2Proof/Certificates/Slice0/Obligations.lean ====
section
/-!
DEFINITION. Sys2Proof/Certificates/Slice0/Obligations.lean: the statements about the model, one definition each.
-/
open Sys2Proof Sys2Proof.Machine

/-- A step takes the command that has waited longest and runs it on the state with the rest of the queue (log 1). -/
def Obligations.StepRunsFront : Prop :=
  ∀ (c : Instr) (rest : List Instr) (s : State), s.pending = c :: rest → step s = exec c { s with pending := rest }

/-- A step without a waiting command counts one period of the Dormouse clock and changes nothing else; the model's choice (log 1). -/
def Obligations.StepIdles : Prop :=
  ∀ s : State, s.pending = [] → ∃ t, step s = .next t ∧
    t.time.rtc = (if s.pwr.state = .off then s.time.rtc else (s.time.rtc + 1) % 2 ^ 48) ∧
    { t with time := { t.time with rtc := s.time.rtc } } = s

/-- No command of the table stops the block. -/
def Obligations.EveryCommandCompletes : Prop := ∀ (i : Instr) (s : State), ∃ t, exec i s = .next t

/-- A step takes one command from the queue, keeps in order what was sent out, and never takes a draw of the random source back. -/
def Obligations.StepTakesOneCommand : Prop :=
  ∀ s t : State, step s = .next t → t.pending = s.pending.tail ∧ s.emits <:+ t.emits ∧ s.draws ≤ t.draws

/-- After reset every table is in canonical form and no command waits. -/
def Obligations.ResetTables : Prop := State.reset.wf = true ∧ State.reset.pending = []

/-- Whatever command runs, the registers, ports, bursts, memories and tables of a state keep their canonical form. -/
def Obligations.StepKeepsTables : Prop := ∀ s t : State, s.wf = true → step s = .next t → t.wf = true

/-- A command leaves alone every part of the state outside its footprint. -/
def Obligations.CommandFootprints : Prop :=
  ∀ (i : Instr) (s t : State), exec i s = .next t → Within (parts (touches i)) s t

/-- After reset every register holds its reset value; the common header of every page and some registers of the chapters are named. -/
def Obligations.ResetRegisters : Prop :=
  (∀ a : Nat, reg State.reset a = regReset a) ∧
  (∀ p : Page, outstanding State.reset p = none ∧ reg State.reset (addr p offIntStat) = 0 ∧ reg State.reset (addr p offIntEn) = 0 ∧
    reg State.reset (addr p offErrCnt) = 0 ∧ reg State.reset (addr p offCmdStat) = 0) ∧
  (∀ p : Page, p ≠ .mod → reg State.reset (addr p 0x004) = 0x0100) ∧
  (∀ n : Port, isSet State.reset (.lpt n) LPT_STATUS.DRV_EN = false ∧ isSet State.reset (.lpt n) LPT_DECL.DECLARED = false) ∧
  getF State.reset .saf SAF_KILL.PORT = 0x3F ∧
  (∀ r : Fin 32, getI State.reset .pci PCI_RING.EN r.val = 0) ∧
  State.reset.eng.bursts = [] ∧ State.reset.mac.table = []

/-- INT_STAT clears by ones, INT_EN takes the defined bits, INT_FORCE sets defined status bits and nothing else (R29). -/
def Obligations.InterruptRegisters : Prop :=
  (∀ (p : Page) (v : Word) (s : State), Yields (.intStatClear p v) s (fun t =>
    (∀ n, n < 32 → intOf t p n = (intOf s p n && !v.toNat.testBit n)) ∧ RegsBut [addr p offIntStat] s t)) ∧
  (∀ (p : Page) (v : Word) (s : State), Yields (.intEnWrite p v) s (fun t =>
    reg t (addr p offIntEn) = intWord p v ∧ RegsBut [addr p offIntEn] s t)) ∧
  (∀ (p : Page) (v : Word) (s : State), Yields (.intForce p v) s (fun t =>
    (∀ n, n < 32 → intOf t p n = (intOf s p n || (intWord p v).toNat.testBit n)) ∧ RegsBut [addr p offIntStat] s t ∧
    killCauses t = killCauses s))

/-- The message of a vector (R34): on the rise of its condition, and after a write that leaves it true; pending while masked (R378). -/
def Obligations.InterruptMessages : Prop :=
  (∀ (p : Page) (v : Word) (s : State), Yields (.intForce p v) s (fun t =>
    let rise := vectorCond t (pageVector p) && !vectorCond s (pageVector p)
    let masked := s.msixMask.testBit (pageVector p)
    t.emits = (if rise && !masked then .msix (pageVector p) :: s.emits else s.emits) ∧
    t.msixPba = (if rise && masked then s.msixPba ||| 2 ^ pageVector p else s.msixPba))) ∧
  (∀ (p : Page) (v : Word) (s : State) (i : Instr), i = .intStatClear p v ∨ i = .intEnWrite p v → Yields i s (fun t =>
    let on := vectorCond t (pageVector p)
    let masked := s.msixMask.testBit (pageVector p)
    t.emits = (if on && !masked then .msix (pageVector p) :: s.emits else s.emits) ∧
    t.msixPba = (if on && masked then s.msixPba ||| 2 ^ pageVector p else s.msixPba)))

/-- An access that is not a full aligned word access is not performed (R26). -/
def Obligations.UnperformedAccess : Prop :=
  ∀ (a : BitVec 26) (p : Page) (form : AccessForm) (s : State), pageOfAddr a.toNat = some p → (form ≠ .dword 0xF ∨ a.toNat % 4 ≠ 0) →
    let kept (t : State) : Prop := intOf t p INT.ACCESS = true ∧ errors t p = min (errors s p + 1) 0xFFFF ∧ intOf t p INT.ERR = true ∧
      RegsBut [addr p offIntStat, addr p offErrCnt] s t
    (∀ (v : Word) (e : WriteEnv), Yields (.registerWrite (.bar0 a) form v e) s kept) ∧
    Yields (.counterReadClear (.bar0 a) form) s (fun t => kept t ∧ t.emits.head? = some (.read 0))

/-- RW fields take the bits written; a reserved encoding keeps the field and counts an error, and the other fields take effect (R8, R9). -/
def Obligations.PlainRegisterWrite : Prop :=
  ∀ (p : Page) (o : Nat), (p, o) ∈ [(Page.pwr, 0x114), (.asc, 0x100), (.tru, 0x10C), (.eng 0, 0x188)] ∨ (∃ n : Port, (p, o) = (.lpt n, 0x108)) →
    ∀ (v : Word) (e : WriteEnv) (s : State), Yields (.registerWrite (.bar0 (BitVec.ofNat 26 (addr p o))) (.dword 0xF) v e) s (fun t =>
      let fs := (fieldsAt (pageKind p) o).filter (fun f => decide (f.acc = .rw))
      let bad := fs.filter (fun f => !f.legal.ok f.width (getBits v f.hi f.lo))
      (∀ f ∈ fs, getBits (reg t (addr p o)) f.hi f.lo =
        if f.legal.ok f.width (getBits v f.hi f.lo) then getBits v f.hi f.lo else getBits (reg s (addr p o)) f.hi f.lo) ∧
      errors t p = min (errors s p + bad.length) 0xFFFF ∧ (bad ≠ [] → intOf t p INT.ERR = true) ∧
      RegsBut [addr p o, addr p offIntStat, addr p offErrCnt] s t)

/-- A host write never changes an RWP field; one that would is refused, counted and logged (R31, R33). -/
def Obligations.ProtectedWriteRefused : Prop :=
  ∀ (p : Page) (o : Nat),
    (p, o) ∈ [(Page.nbw, 0x100), (.nbw, 0x11C), (.bbw, 0x100), (.bbw, 0x128), (.bcn, 0x120), (.bcn, 0x124), (.mem, 0x130), (.pair, 0x100), (.pair, 0x104),
      (.pair, 0x108), (.saf, 0x104), (.saf, 0x108), (.saf, 0x110)] →
    ∀ (v : Word) (e : WriteEnv) (s : State), Yields (.registerWrite (.bar0 (BitVec.ofNat 26 (addr p o))) (.dword 0xF) v e) s (fun t =>
      reg t (addr p o) = reg s (addr p o) ∧
      (protectedWrite p o v s = true → intOf t p INT.PROT_REFUSED = true ∧ errors t p = min (errors s p + 1) 0xFFFF ∧
        (LogRoom s → Logged t (pageType (pageKind p) % 256 * 256 + INT.PROT_REFUSED) (pageInstance p) [pageBase p, o])) ∧
      (protectedWrite p o v s = false → t = s))

/-- Reads return the register and have no side effect but on RC fields (R9, R25, R27). -/
def Obligations.ReadsAndCounters : Prop :=
  let full (a : Nat) : Instr := .counterReadClear (.bar0 (BitVec.ofNat 26 a)) (.dword 0xF)
  (∀ (p : Page) (s : State), Yields (full (addr p offErrCnt)) s (fun t =>
    t.emits = .read (reg s (addr p offErrCnt)) :: s.emits ∧ reg t (addr p offErrCnt) = 0 ∧ RegsBut [addr p offErrCnt] s t)) ∧
  (∀ (n : Port) (s : State), Yields (full (addr (.lpt n) LPT_SURGE_CNT.COUNT.off)) s (fun t =>
    t.emits = .read (reg s (addr (.lpt n) LPT_SURGE_CNT.COUNT.off)) :: s.emits ∧ getF t (.lpt n) LPT_SURGE_CNT.COUNT = 0 ∧
    RegsBut [addr (.lpt n) LPT_SURGE_CNT.COUNT.off] s t)) ∧
  (∀ (p : Page) (o : Nat) (s : State), o ∈ [offIntStat, offIntEn, 0x020, offCmdStat] → Yields (full (addr p o)) s (fun t =>
    t = returnWord (reg s (addr p o)) s)) ∧
  (∀ (p : Page) (o : Nat) (s : State), o ∈ [0x008, 0x018, 0x040] → Yields (full (addr p o)) s (fun t => t = returnWord 0 s)) ∧
  (∀ (a : BitVec 26) (s : State), pageOfAddr a.toNat = none → (a.toNat < 0x1000000 ∨ 0x2000000 ≤ a.toNat) → ∀ form : AccessForm,
    Yields (.counterReadClear (.bar0 a) form) s (fun t => t = returnWord 0 s))

/-- A command written while another is outstanding is dropped and counted, and the outstanding command is not disturbed (R39). -/
def Obligations.CommandWhileBusy : Prop :=
  ∀ (p : Page) (v : Word) (e : WriteEnv) (s : State) (o : Outstanding), outstanding s p = some o → getBits v 31 31 = 0 →
    Yields (.registerWrite (.bar0 (BitVec.ofNat 26 (addr p 0x040))) (.dword 0xF) v e) s (fun t =>
      t.cmds = s.cmds ∧ getBits (reg t (addr p offCmdStat)) 28 28 = 1 ∧ errors t p = min (errors s p + 1) 0xFFFF ∧
      RegsBut [addr p offCmdStat, addr p offIntStat, addr p offErrCnt] s t)

/-- NOP completes OK, an undefined opcode BAD_OPCODE, and any command to a block that is not READY REFUSED (R40, R42, R43). -/
def Obligations.CommandIssued : Prop :=
  (∀ (p : Page) (src : CmdSrc) (s : State), takes s p src = true → Yields (.nop p src) s (fun t => Completed t p CODE.OK ∧ BlockRegsBut [] s t)) ∧
  (∀ (p : Page) (v : Word) (e : WriteEnv) (s : State), outstanding s p = none → getBits v 31 31 = 0 → (ready s p = false ∨ 9 < getBits v 15 0) →
    Yields (.registerWrite (.bar0 (BitVec.ofNat 26 (addr p 0x040))) (.dword 0xF) v e) s (fun t =>
      Completed t p (if ready s p then CODE.BAD_OPCODE else CODE.REFUSED) ∧ getBits (reg t (addr p offCmdStat)) 23 16 = getBits v 23 16 ∧
      BlockRegsBut [] s t))

/-- Aborts by tag (R41): stopped, late, or dropped. -/
def Obligations.CommandAborted : Prop :=
  (∀ (p : Page) (tag : BitVec 8) (n : Nat) (s : State) (o : Outstanding), outstanding s p = some o → o.tag = tag.toNat →
    (p = .boot ∧ o.opcode = 2) ∨ (∃ k : Port, p = .lpt k ∧ o.opcode = 2) ∨ (p = .mgt ∧ o.opcode = 1) →
    Yields (.cmdAbort p tag n) s (fun t => Completed t p CODE.ABORTED ∧ BlockRegsBut [] s t)) ∧
  (∀ (p : Page) (tag : BitVec 8) (n : Nat) (s : State), outstanding s p = none → (slotOf s p).last = some tag.toNat →
    Yields (.cmdAbort p tag n) s (fun t => getBits (reg t (addr p offCmdStat)) 29 29 = 1 ∧
      getBits (reg t (addr p offCmdStat)) 15 0 = getBits (reg s (addr p offCmdStat)) 15 0 ∧ t.cmds = s.cmds ∧ RegsBut [addr p offCmdStat] s t)) ∧
  (∀ (p : Page) (tag : BitVec 8) (n : Nat) (s : State), (∀ o, outstanding s p = some o → o.tag ≠ tag.toNat) → (slotOf s p).last ≠ some tag.toNat →
    Yields (.cmdAbort p tag n) s (fun t => getBits (reg t (addr p offCmdStat)) 28 28 = 1 ∧ errors t p = min (errors s p + 1) 0xFFFF ∧ t.cmds = s.cmds ∧
      RegsBut [addr p offCmdStat, addr p offIntStat, addr p offErrCnt] s t))

/-- CMD_STAT clears by ones (R9); the completion event ends an outstanding command (R40). -/
def Obligations.CommandStatus : Prop :=
  (∀ (p : Page) (v : Word) (s : State), Yields (.cmdStatClear p v) s (fun t =>
    (∀ n, n < 32 → (reg t (addr p offCmdStat)).toNat.testBit n =
      ((reg s (addr p offCmdStat)).toNat.testBit n && !(v.toNat.testBit n && decide (28 ≤ n) && decide (n ≤ 30)))) ∧ RegsBut [addr p offCmdStat] s t)) ∧
  (∀ (r : CmdResult) (s : State) (o : Outstanding), outstanding s .cip = some o → o.opcode = 2 → r.pipe = none →
    Yields (.cmdCompletion .cip r) s (fun t => Completed t .cip CODE.OK)) ∧
  (∀ (p : Page) (r : CmdResult) (s : State), outstanding s p = none → Yields (.cmdCompletion p r) s (fun t => t = s))

/-- LPT_DECL waits for the superframe boundary (R63); a plug removed changes no declaration (R64); surges are counted (R94). -/
def Obligations.PortDeclaration : Prop :=
  (∀ (n : Port) (v : Word) (s : State), Yields (.lptDeclWrite n v) s (fun t =>
    getF t (.lpt n) LPT_DECL.PENDING = 1 ∧ getF t (.lpt n) LPT_DECL.DECLARED = getBits v 31 31 ∧ getF t (.lpt n) LPT_DECL.BB_EN = getBits v 17 17 ∧
    getF t (.lpt n) LPT_DECL.NB_EN = getBits v 16 16 ∧
    getF t (.lpt n) LPT_DECL.COUPLER_LOSS =
      (if n.val < 48 then 0 else if getBits v 5 0 ≤ 40 then getBits v 5 0 else getF s (.lpt n) LPT_DECL.COUPLER_LOSS) ∧
    port t n.val = port s n.val ∧ RegsBut [addr (.lpt n) 0x100, addr (.lpt n) offIntStat, addr (.lpt n) offErrCnt] s t)) ∧
  (∀ (c : Fin 4) (s : State), exec (.plugRemoved c) s = .next s) ∧
  (∀ (n : Port) (s : State), Yields (.surge n) s (fun t =>
    getF t (.lpt n) LPT_SURGE_CNT.COUNT = min (getF s (.lpt n) LPT_SURGE_CNT.COUNT + 1) 0xFFFF ∧ intOf t (.lpt n) LPT_INT.SURGE = true ∧
    RegsBut [addr (.lpt n) LPT_SURGE_CNT.COUNT.off, addr (.lpt n) offIntStat] s t))

/-- Drivers (R17, R96–R98). -/
def Obligations.PortDrivers : Prop :=
  (∀ (id : BurstId) (s : State), (burst s id.val).st = .txSet → Yields (.driverEnableRequest id) s (fun t =>
    let n := (burst s id.val).place
    if enableAllowed s n && (driverOn s n || decide (driversOn s < driverLimit s)) then
      (burst t id.val).st = .txLive ∧ driverOn t n = true ∧ ∃ x, t.emits.head? = some (.burst x) ∧ x.port = n
    else (burst t id.val).st = .free ∧ driverOn t n = driverOn s n)) ∧
  (∀ (id : BurstId) (s : State), (burst s id.val).st = .txSet → (burst s id.val).purpose ≠ .beacon →
    killed s = true → Yields (.driverEnableRequest id) s (fun t => intOf t (lptPage (burst s id.val).place) LPT_INT.TX_REFUSED = true)) ∧
  (∀ (id : BurstId) (z : List (Fin 4 × BitVec 16 × BitVec 16)) (s : State), (burst s id.val).st = .txLive → (burst s id.val).sent = false →
    (∀ e ∈ s.eng.bursts, liveOn (burst s id.val).place e.2 = true → e.2.sent = true ∨ e.1 = id.val) →
    Yields (.driverDisable id z) s (fun t => driverOn t (burst s id.val).place = false)) ∧
  (∀ (n : Port) (s : State), Yields (.blankingEnd n) s (fun t =>
    if driverOn s n.val then t = s else (port t n.val).blanked = false ∧ ∀ k, driverOn t k = driverOn s k)) ∧
  (∀ (n : Port) (s : State), Yields (.currentClamp n) s (fun t =>
    if driverOn s n.val then isSet t (.lpt n) LPT_STATUS.CLAMPING = true ∧ RegsBut [addr (.lpt n) offStatus] s t else t = s)) ∧
  (∀ (n : Port) (s : State), Yields (.driverHot n) s (fun t =>
    driverOn t n.val = false ∧ getF t (.lpt n) LPT_STATUS.FAULT_CAUSE = 1 ∧
    (driverOn s n.val = false → intOf t (.lpt n) LPT_INT.DRIVER_HOT = true ∧ pageFault t (.lpt n) = true ∧
      RegsBut [addr (.lpt n) offStatus, addr (.lpt n) offIntStat] s t))) ∧
  (∀ (n : Port) (s : State), Yields (.driverCooled n) s (fun t =>
    getF t (.lpt n) LPT_STATUS.FAULT_CAUSE ≠ 1 ∧ RegsBut [addr (.lpt n) offStatus] s t ∧
    (getF s (.lpt n) LPT_STATUS.FAULT_CAUSE = 1 → pageFault t (.lpt n) = false)))

/-- Dwell (R205, R211). -/
def Obligations.PortDwell : Prop :=
  (∀ (n : Port) (w : Wave) (ch : Fin 61) (s : State), Yields (.dwellBarred n w ch) s (fun t =>
    driverOn t n.val = false ∧
    (if driverOn s n.val then LogRoom s → Logged t (0x20 * 256 + BCN_INT.DWELL_STOP) 0 [n.val, waveCode w * 64 + ch.val]
     else t.bcn.barred.contains (n.val, w, ch.val) = true ∧ getF t (.lpt n) LPT_STATUS.PERMIT = 0 ∧ RegsBut [addr (.lpt n) offStatus] s t))) ∧
  (∀ (n : Port) (w : Wave) (ch : Fin 61) (s : State), Yields (.dwellClear n w ch) s (fun t =>
    t = { s with bcn := { s.bcn with barred := s.bcn.barred.erase (n.val, w, ch.val) } })) ∧
  (∀ (v : Word) (s : State), getBits v 29 24 ≤ 51 → getBits v 5 0 ≤ 60 → Yields (.bcnDwellSelWrite v) s (fun t =>
    isSet t .bcn BCN_DWELL_STATE.BARRED = s.bcn.barred.contains (getBits v 29 24, waveOf (getF t .bcn BCN_DWELL_SEL.WAVE), getBits v 5 0) ∧
    getF t .bcn BCN_DWELL_SEL.PORT = getBits v 29 24 ∧ getF t .bcn BCN_DWELL_SEL.CHANNEL = getBits v 5 0 ∧
    RegsBut [addr .bcn 0x128, addr .bcn offIntStat, addr .bcn offErrCnt, addr .bcn BCN_DWELL_STATE.BARRED.off] s t))

/-- Gain control and steps (R100–R105). -/
def Obligations.PortGain : Prop :=
  (∀ (n : Port) (s : State), agcAuto s n.val = true → Yields (.agcClippedSample n) s (fun t =>
    (port t n.val).change = min (-2) (port s n.val).change ∧
    (countBursts s (rxHere s n.val) ≠ 0 → intOf t (.lpt n) LPT_INT.CLIP = true))) ∧
  (∀ (n : Port) (low : Bool) (s : State), agcAuto s n.val = true → Yields (.agcBlockMeasured n low) s (fun t =>
    (port t n.val).change = (if low then (if (port s n.val).change < 0 then (port s n.val).change else max 1 (port s n.val).change)
      else min (-1) (port s n.val).change) ∧ RegsBut [] s t)) ∧
  (∀ (n : Port) (i : Instr) (s : State), i = .rangeChange n ∨ i = .rangeChangeForced n → isSet s (.lpt n) LPT_STATUS.RX_ON = true →
    isSet s (.lpt n) LPT_STATUS.AGC_FROZEN = false → Yields i s (fun t =>
      getF t (.lpt n) LPT_STATUS.RANGE = (if getF s (.lpt n) LPT_AGC.MODE = 1 then getF s (.lpt n) LPT_AGC.FIXED_RANGE
        else (max 0 (min 7 ((getF s (.lpt n) LPT_STATUS.RANGE : Int) + (port s n.val).change))).toNat) ∧
      (port t n.val).change = 0 ∧ RegsBut [addr (.lpt n) offStatus, addr (.lpt n) LPT_CLIP_CNT.COUNT.off] s t)) ∧
  (∀ (n : Port) (i : Instr) (s : State), (∃ up k, i = .receiveStep n up k ∧ (isSet s (.lpt n) LPT_STATUS.RX_ON && !(port s n.val).blanked) = true) ∨
      (∃ k, i = .driveStep n k ∧ driverOn s n.val = true) → Yields i s (fun t =>
    getF t (.lpt n) LPT_STEP_CNT.COUNT = min (getF s (.lpt n) LPT_STEP_CNT.COUNT + 1) 0xFFFF)) ∧
  (∀ (n : Port) (i : Instr) (s : State), (∃ up k, i = .receiveStep n up k ∧ (isSet s (.lpt n) LPT_STATUS.RX_ON && !(port s n.val).blanked) = false) ∨
      (∃ k, i = .driveStep n k ∧ driverOn s n.val = false) → exec i s = .next s)

/-- The commands of a line port (R107, R108, R111). -/
def Obligations.PortCommands : Prop :=
  (∀ (n : Port) (src : CmdSrc) (s : State), takes s (.lpt n) src = true → (port s n.val).declared = true → isSet s (.lpt n) LPT_STATUS.NB_MODE = false →
    Yields (.calPort n src) s (fun t => Issued t (.lpt n) (latch (.lpt n) 1 src s) ∧ t.ports = s.ports ∧ BlockRegsBut [] s t)) ∧
  (∀ (n : Port) (src : CmdSrc) (s : State), takes s (.lpt n) src = true → (port s n.val).declared = true →
    Yields (.measureZ n src) s (fun t => Issued t (.lpt n) (latch (.lpt n) 2 src s) ∧ (port t n.val).measured = 0 ∧ BlockRegsBut [] s t)) ∧
  (∀ (n : Port) (s : State) (o : Outstanding), outstanding s (.lpt n) = some o → o.opcode = 2 → Yields (.measureZTimeout n) s (fun t =>
    Completed t (.lpt n) CODE.TIMEOUT ∧
    ∀ i : Fin 4, getI t (.lpt n) LPT_LINE_Z.MAG i.val =
      if (port s n.val).measured.testBit i.val then getI s (.lpt n) LPT_LINE_Z.MAG i.val else 0xFFFF))

/-- The block resets that touch only their page (R42, R210, R241, R265, R299, R310, R413). -/
def Obligations.PlainBlockResets : Prop :=
  (∀ (i : Instr) (p : Page) (os : List Nat),
    (i, p, os) ∈ [(Instr.bcnBlkReset, Page.bcn, [0x128, 0x130, 0x134, 0x138, 0x13C]),
      (.ascBlkReset, .asc, [0x118, 0x120, 0x124, 0x128, 0x12C, 0x130, 0x134, 0x138, 0x13C]),
      (.rptBlkReset, .rpt, [0x110, 0x11C, 0x120, 0x124, 0x128, 0x12C, 0x130, 0x134]), (.bqBlkReset, .bq, [0x108, 0x118, 0x11C, 0x120, 0x124]),
      (.pairBlkReset, .pair, [0x11C, 0x120, 0x124, 0x128])] ∨ (∃ b : Bank, (i, p, os) = (.membBlkReset b, .memb b, [0x108, 0x10C, 0x110, 0x114])) →
    ∀ s : State, BlockReset i p os s ∧ Yields i s (fun t => BlockRegsBut (os.map (addr p)) s t)) ∧
  (∀ s : State, BlockReset .mgtBlkReset .mgt [0x108] s ∧ Yields .mgtBlkReset s (fun t => t.log = s.log ∧ t.mgt = s.mgt ∧
    ∀ o, outstanding s .mgt = some o → o.opcode = 1 → o.a0.toNat < 4 → getI t .boot BOOT_IMG.STATE o.a0.toNat = 9))

/-- The block resets that stop the work of a block (R111, R133, R165, R180, R283, R317, R363). -/
def Obligations.WorkingBlockResets : Prop :=
  (∀ (n : Port) (s : State), BlockReset (.lptBlkReset n) (.lpt n) [0x110, 0x114, 0x118, 0x11C, 0x120, 0x124, 0x128, 0x12C, 0x130, 0x134] s ∧
    Yields (.lptBlkReset n) s (fun t => driverOn t n.val = false ∧ getF t (.lpt n) LPT_STATUS.RANGE = 3 ∧ getF t (.lpt n) LPT_STATUS.FAULT_CAUSE = 0 ∧
      (port t n.val).change = 0 ∧ (port t n.val).blanked = true)) ∧
  (∀ s : State, BlockReset .nbwBlkReset .nbw [0x104, 0x108, 0x10C, 0x110, 0x114] s ∧
    Yields .nbwBlkReset s (fun t => ∀ j, (burst t j).wave = .nb → (burst t j).st.isOpen = false)) ∧
  (∀ s : State, BlockReset .bbwBlkReset .bbw [0x104, 0x10C, 0x110, 0x114, 0x118, 0x11C, 0x120] s ∧
    Yields .bbwBlkReset s (fun t => getF t .bbw BBW_TMAP.PERIOD = 32 ∧ ∀ j, (burst t j).wave = .bb → (burst t j).st.isOpen = false)) ∧
  (∀ (c : Cluster) (s : State), BlockReset (.engBlkReset c) (.eng c) (engCounters c.val) s ∧
    Yields (.engBlkReset c) s (fun t => ∀ j, heldIn c.val (burst t j) = false)) ∧
  (∀ s : State, BlockReset .ncalBlkReset .ncal [0x124, 0x128, 0x12C, 0x130] s ∧
    Yields .ncalBlkReset s (fun t => ∀ n : Port, (cal t n.val).inSettle = false)) ∧
  (∀ s : State, BlockReset .memGlobalBlkReset .mem [0x110, 0x114, 0x118, 0x11C, 0x120] s ∧ Yields .memGlobalBlkReset s (fun t => t.mem.conflicts = [])) ∧
  (∀ s : State, BlockReset .truBlkReset .tru [] s ∧ Yields .truBlkReset s (fun t => isSet t .tru TRU_STATUS.SLEWING = false ∧ t.tru.setTo = none)) ∧
  (∀ (n : Nat) (s : State), BlockReset (.stoBlkReset n) .sto [0x114, 0x118, 0x11C] s)

/-- The block resets of the links, the cipher engine, the sensors and the serial ports (R342, R426, R468). -/
def Obligations.LinkBlockResets : Prop :=
  (∀ (l : Lane) (s : State), BlockReset (.lanBlkReset (.bh l)) (.lan l) [0x12C, 0x130, 0x134, 0x138, 0x13C] s ∧
    Yields (.lanBlkReset (.bh l)) s (fun t => isSet t (.lan l) LAN_STATUS.UP = false)) ∧
  (∀ (m : MLane) (s : State), BlockReset (.lanBlkReset (.pm m)) (.lanm m) [0x104, 0x108, 0x10C] s ∧
    Yields (.lanBlkReset (.pm m)) s (fun t => isSet t (.lanm m) LANM_STATUS.UP = false)) ∧
  (∀ s : State, Yields .pciBlkReset s (fun t => outstanding t .pci = none ∧ ∀ r : Fin 29, getI t .pci PCI_RING.EN r.val = 0)) ∧
  (∀ s : State, Yields .cipBlkReset s (fun t => t.cip.kcache = [] ∧ t.cip.testKey = [] ∧
    isSet t .cip CIP_TEST_CTL.LOADED = false ∧ ∀ i : Fin 8, reg t (addr .cip (0x140 + 4 * i.val)) = pageReset .cip (0x140 + 4 * i.val))) ∧
  (∀ s : State, BlockReset .senBlkReset .sen [] s) ∧
  (∀ (n : Serial) (s : State), BlockReset (.serBlkReset n) (.ser n) [] s ∧ Yields (.serBlkReset n) s (fun t =>
    (serial t n.val).hold = none ∧ (serial t n.val).shift = none ∧ (serial t n.val).frame = none ∧ isSet t (.ser n) SER_STATUS.TX_EMPTY = true ∧
    isSet t (.ser n) SER_STATUS.RX_FULL = false))

/-- The frame core's operations on a queue (R294, R295). -/
def Obligations.QueueOperations : Prop :=
  (∀ (id : BurstId) (gen : BitVec 8) (i : Instr), (∃ e, i = .pop id gen e) ∨ i = .mark id gen ∨ i = .rewind id gen ∨ (∃ n, i = .queueRelease id gen n) →
    ∀ s : State, named s id gen = false → Yields i s (fun t => t = answer .closed 0 [] s)) ∧
  (∀ (id : BurstId) (gen : BitVec 8) (s : State), named s id gen = true → Yields (.mark id gen) s (fun t =>
    t.emits = .queue .ok 0 [] :: s.emits ∧ (queue t id.val).mark = (queue s id.val).rp ∧ (queue t id.val).markValid = true ∧
    (queue t id.val).rp = (queue s id.val).rp ∧ RegsBut [] s t ∧ t.mem = s.mem ∧ ∀ j, j ≠ id.val → queue t j = queue s j)) ∧
  (∀ (id : BurstId) (gen : BitVec 8) (e : PopErr) (s : State), named s id gen = true → Yields (.pop id gen e) s (fun t =>
    let q := queue s id.val
    (∀ j, j ≠ id.val → queue t j = queue s j) ∧ t.mem = s.mem ∧
    if q.rp = q.wp then t = answer .empty (emptyTag id.val q.gen) [] s
    else queue t id.val = { q with rp := q.rp + 1 } ∧
      t.emits.head? = some (match e with
        | .sound => .queue .ok (tagWord id.val q.gen (q.tagAt q.rp)) (bytesAt s (wordAddr s id.val q q.rp) 32)
        | .data => .queue .fault (tagWord id.val q.gen (q.tagAt q.rp)) []
        | .tag => .queue .fault 0 []) ∧
      (e = .tag → errors t .bq = min (errors s .bq + 1) 0xFFFF) ∧
      (e = .data → intOf t (.memb (bankOf (wordAddr s id.val q q.rp))) MEMB_INT.UE = true ∧ intOf t .saf SAF_INT.DIAG = true))) ∧
  (∀ (id : BurstId) (gen : BitVec 8) (s : State), named s id gen = true → Yields (.rewind id gen) s (fun t =>
    let q := queue s id.val
    if q.markLost then queue t id.val = q ∧ t.emits.head? = some (.queue .markLost 0 []) ∧ intOf t .bq BQ_INT.REWIND_FAIL = true
    else if q.markValid then queue t id.val = { q with rp := q.mark } ∧ t.emits = .queue .ok 0 [] :: s.emits ∧ RegsBut [] s t
    else t = answer .noMark 0 [] s)) ∧
  (∀ (id : BurstId) (gen : BitVec 8) (n : Nat) (s : State), named s id gen = true → Yields (.queueRelease id gen n) s (fun t =>
    let q := queue s id.val
    if q.rl ≤ n ∧ n ≤ q.wp then
      t.emits.head? = some (.queue .ok 0 []) ∧
      (if q.trailer && decide (n = q.wp) && decide ((burst s id.val).st = .rxDone) then queue t id.val = Queue.closed ∧ (burst t id.val).st = .free
       else (queue t id.val).rl = n ∧ (queue t id.val).rp = max q.rp n ∧ (queue t id.val).wp = q.wp ∧
        (queue t id.val).markLost = (q.markLost || (q.markValid && decide (q.mark < n))) ∧
        (queue t id.val).markValid = (q.markValid && !decide (q.mark < n)) ∧ RegsBut [] s t)
    else t = answer .range 0 [] s))

/-- A mark, pops, and a rewind bring the queue back to where it was marked (R294, R295). -/
def Obligations.MarkedReading : Prop :=
  ∀ (id : BurstId) (gen : BitVec 8) (es : List PopErr) (s : State), named s id gen = true →
    Yields (.mark id gen) s (fun m => ∃ u, es.foldl (fun (r : Option State) e => r.bind (fun x =>
        match exec (.pop id gen e) x with
        | .next y => some y
        | _ => none)) (some m) = some u ∧
      Yields (.rewind id gen) u (fun t => queue t id.val = queue m id.val ∧ t.emits.head? = some (.queue .ok 0 []) ∧ t.mem = s.mem))

/-- Narrow writes, early output and BQ_SEL (R291, R296, R297, R300). -/
def Obligations.QueueInput : Prop :=
  (∀ (id : BurstId) (data : List Byte) (last : Bool) (s : State), (queue s id.val).isOpen = true → (queue s id.val).trailer = false →
    (burst s id.val).st = .rxOpen → Yields (.queueNarrowWrite id data last) s (fun t =>
      let q := queue s id.val
      let l := q.packed ++ data.take 4
      if q.full then intOf t .bq BQ_INT.OVERRUN = true ∧ (burst t id.val).st = .rxDone
      else RegsBut [] s t ∧ (if (decide (32 ≤ l.length) || last) && !l.isEmpty then (queue t id.val).wp = q.wp + 1 ∧ (queue t id.val).packed = [] ∧
          (queue t id.val).qbytes = q.qbytes + l.length
        else (queue t id.val).wp = q.wp ∧ (queue t id.val).packed = l ∧ t.mem = s.mem))) ∧
  (∀ (id : BurstId) (payload : List Byte) (s : State), (queue s id.val).isOpen = true → (queue s id.val).earlyOn = true → (queue s id.val).early = false →
    (queue s id.val).trailer = false → (burst s id.val).st = .rxOpen → (burst s id.val).wave = .nb → (queue s id.val).wp = 1 →
    4 ≤ headerReps (burst s id.val).header → payload ≠ [] → Yields (.nbEarlyDecode id payload) s (fun t =>
      (queue t id.val).early = true ∧ 1 < (queue t id.val).wp ∧ (queue t id.val).rp = (queue s id.val).rp ∧ RegsBut [] s t)) ∧
  (∀ (v : Word) (s : State), Yields (.bqSelWrite v) s (fun t =>
    let q := queue s (getBits v 12 0)
    getF t .bq BQ_SEL.ID = getBits v 12 0 ∧ isSet t .bq BQ_Q_STATE.OPEN = q.isOpen ∧ getF t .bq BQ_Q_STATE.GEN = q.gen % 256 ∧
    isSet t .bq BQ_Q_STATE.MARK_VALID = q.markValid ∧ isSet t .bq BQ_Q_STATE.TRAILER = q.trailer ∧ isSet t .bq BQ_Q_STATE.OVERRUN = q.overrun ∧
    getF t .bq BQ_Q_WR.UPPER = q.wp % 4096 ∧ getF t .bq BQ_Q_WR.LOWER = q.rl % 4096 ∧ getF t .bq BQ_Q_RD.UPPER = q.rp % 4096 ∧
    getF t .bq BQ_Q_RD.LOWER = q.mark % 4096 ∧
    RegsBut [addr .bq BQ_SEL.ID.off, addr .bq BQ_Q_STATE.OPEN.off, addr .bq BQ_Q_WR.UPPER.off, addr .bq BQ_Q_RD.UPPER.off] s t))

/-- The commands of BQ (R301). -/
def Obligations.QueueCommands : Prop :=
  (∀ (src : CmdSrc) (s : State), takes s .bq src = true → Yields (.forceRelease src) s (fun t =>
    let o := latch .bq 1 src s
    let id := getBits o.a0 12 0
    if argNamed s o = false then Completed t .bq 0x80 ∧ t.bq = s.bq
    else if (burst s id).st = .rxOpen then Completed t .bq 0x81 ∧ t.bq = s.bq
    else Completed t .bq CODE.OK ∧ queue t id = Queue.closed ∧ (burst t id).st = .free ∧ intOf t .bq BQ_INT.FORCED = true)) ∧
  (∀ (src : CmdSrc) (s : State), takes s .bq src = true → Yields (.readWords src) s (fun t =>
    let o := latch .bq 2 src s
    let q := queue s (getBits o.a0 12 0)
    t.bq = s.bq ∧ BlockRegsBut [] s t ∧
    if argNamed s o = false then Completed t .bq 0x80
    else if o.a2.toNat % 4 ≠ 0 ∨ inHostArea o.a2.toNat (4 + 36 * (q.wp - q.rl)) = false then Completed t .bq CODE.BAD_ARG
    else Issued t .bq o))

/-- The commands of ENG, the selected context and cluster faults (R280, R282, R284, R285). -/
def Obligations.EngineCommands : Prop :=
  (∀ (c : Cluster) (src : CmdSrc) (s : State), takes s (.eng c) src = true → Yields (.abortBurst c src) s (fun t =>
    let o := latch (.eng c) 1 src s
    let b := burst s (getBits o.a0 12 0)
    if b.st = .free ∨ b.gen ≠ getBits o.a1 7 0 then Completed t (.eng c) 0x80 ∧ t.eng = s.eng
    else if b.st = .rxDone then Completed t (.eng c) 0x81 ∧ t.eng = s.eng
    else Completed t (.eng c) CODE.OK ∧ (burst t (getBits o.a0 12 0)).st.isOpen = false)) ∧
  (∀ (c : Cluster) (src : CmdSrc) (s : State), takes s (.eng c) src = true → Yields (.reloadCluster c src) s (fun t =>
    if reloading s || decide ((cluster s c.val).phase = .outOfService) then Completed t (.eng c) CODE.REFUSED ∧ t.eng = s.eng
    else Issued t (.eng c) (latch (.eng c) 2 src s) ∧
      (cluster t c.val).phase = (if (cluster s c.val).phase = .running then .reloadAsked else .draining) ∧ t.eng.bursts = s.eng.bursts)) ∧
  (∀ (v : Word) (s : State), Yields (.engCtxSelWrite v) s (fun t =>
    let b := burst s (getBits v 12 0)
    getF t (.eng 0) ENG_CTX_SEL.ID = getBits v 12 0 ∧ getF t (.eng 0) ENG_CTX_STATE.STATE = b.st.code ∧ isSet t (.eng 0) ENG_CTX_STATE.DIR = b.tx ∧
    getF t (.eng 0) ENG_CTX_STATE.GEN = b.gen % 256 ∧ (b.st = .free → getF t (.eng 0) ENG_CTX_STATE.AGE = 0) ∧
    RegsBut [addr (.eng 0) ENG_CTX_SEL.ID.off, addr (.eng 0) ENG_CTX_STATE.STATE.off] s t)) ∧
  (∀ (c : Cluster) (k : ClusterCause) (x : Fin 204800) (s : State), Yields (.clusterFault c k x) s (fun t =>
    if (cluster s c.val).phase = .outOfService then t = s
    else
      let again := (cluster s c.val).lastFault.any (fun t => decide (slotTime s + x.val - t ≤ faultWindow))
      (∀ j, heldIn c.val (burst t j) = false) ∧ outstanding t (.eng c) = none ∧ pageFault t (.eng c) = true ∧
      intOf t (.eng c) ENG_INT.CLUSTER_FAULT = true ∧ intOf t .saf SAF_INT.DIAG = true ∧
      (cluster t c.val).phase = (if again then .outOfService else .resume true) ∧
      getF t (.eng c) ENG_STATUS.FAULT_CAUSE = (if again then 4 else causeCode k)))

/-- Waking, gating, and taking a planned item (R269, R271, R184, R276). -/
def Obligations.EngineRoles : Prop :=
  (∀ (c : Cluster) (k : Fin 16) (w : Wave) (s : State), takesWork s c.val = true → gated s c.val k.val = true → (decodeEngines c.val).contains k.val = true →
    inOutage s = false → Yields (.engineWake c k w) s (fun t =>
      role t c.val k.val = rxRole w ∧ getBits (reg t (addr (.eng c) ENG_AWAKE.AWAKE.off)) k.val k.val = 1 ∧
      RegsBut [roleReg c.val k.val, addr (.eng c) ENG_AWAKE.AWAKE.off] s t ∧ t.eng = s.eng)) ∧
  (∀ (c : Cluster) (k : Fin 16) (s : State), engineLoad s c.val k.val = 0 → role s c.val k.val = ROLE.NB_RX ∨ role s c.val k.val = ROLE.BB_RX →
    isStanding s c.val k.val .nb = false → isStanding s c.val k.val .bb = false → Yields (.engineIdleGate c k) s (fun t =>
      gated t c.val k.val = true ∧ getBits (reg t (addr (.eng c) ENG_AWAKE.AWAKE.off)) k.val k.val = 0 ∧
      RegsBut [roleReg c.val k.val, addr (.eng c) ENG_AWAKE.AWAKE.off] s t ∧ t.eng = s.eng)) ∧
  (∀ (p : Port) (w : Wave) (s : State), nextItem s p.val w = none → Yields (.txEngineTake p w) s (fun t => t = s)) ∧
  (∀ (p : Port) (w : Wave) (s : State) (x : PlanItem), nextItem s p.val w = some x → Yields (.txEngineTake p w) s (fun t =>
    t.plan = { s.plan with items := s.plan.items.erase x } ∧ t.ports = s.ports ∧
    (x.purpose ≠ .beacon → (∀ u, openTx x s = some u → t.eng = u.eng) ∧
      (openTx x s = none → t.eng = s.eng ∧ intOf t (.eng 0) ENG_INT.NO_CONTEXT = true))))

/-- Detections, headers and completions (R129, R131, R144, R162, R273, R277). -/
def Obligations.Reception : Prop :=
  (∀ (n : Port) (k : Fin 64) (l : BitVec 8) (m : Fin 3) (sp pv : Bool) (x : Fin 209715200) (s : State), Yields (.nbSyncDetect n k l m sp pv x) s (fun t =>
    if hears s .nb n.val && decide (k.val < nsets s.nbw.band) && decide (getBits s.nbw.cfg 15 8 < l.toNat) then
      getF t .nbw NBW_SYNC_CNT.COUNT = min (getF s .nbw NBW_SYNC_CNT.COUNT + 1) 0xFFFFFFFF ∧ t.eng.bursts.length ≤ s.eng.bursts.length + 1
    else t = s)) ∧
  (∀ (n : Port) (a b : Fin 27) (l : BitVec 8) (x : Fin 209715200) (s : State), Yields (.bbDetect n a b l x) s (fun t =>
    if hears s .bb n.val && isSet s .bbw BBW_STATUS.MASK_VALID && decide (a.val ≤ b.val) && decide (getBits s.bbw.cfg 23 16 < l.toNat) then
      getF t .bbw BBW_DET_CNT.COUNT = min (getF s .bbw BBW_DET_CNT.COUNT + 1) 0xFFFFFFFF ∧
      (burstIds s (openOnRus (groupOf n.val) a.val b.val) ≠ [] → t.eng = s.eng)
    else t = s)) ∧
  (∀ (id : BurstId) (h : BitVec 64) (s : State), (burst s id.val).st = .rxOpen → (burst s id.val).wave = .nb → (burst s id.val).header = [] →
    Yields (.nbHeaderDecoded id h) s (fun t =>
      if nbHeaderOk (beBytes 8 h.toNat) (burst s id.val).m then (burst t id.val).header = beBytes 8 h.toNat ∧ (burst t id.val).st = .rxOpen ∧
        (queue t id.val).wp = (queue s id.val).wp + 1
      else (burst t id.val).st = .rxDone ∧ intOf t .nbw NBW_INT.HDR_LOST = true)) ∧
  (∀ (id : BurstId) (h : BitVec 96) (s : State), (burst s id.val).st = .rxOpen → (burst s id.val).wave = .bb → (burst s id.val).header = [] →
    Yields (.bbHeaderDecoded id h) s (fun t =>
      if bbHeaderOk s.bbw.cur.pmask (beBytes 12 h.toNat) (burst s id.val) then
        (if tmidKnown s (bbHeader (beBytes 12 h.toNat)).addr (bbHeader (beBytes 12 h.toNat)).tmid then
          (burst t id.val).header = beBytes 12 h.toNat ∧ (burst t id.val).st = .rxOpen ∧ (queue t id.val).wp = (queue s id.val).wp + 1
        else (burst t id.val).st = .rxDone ∧ intOf t .bbw BBW_INT.TMAP_UNKNOWN = true)
      else (burst t id.val).st = .rxDone ∧ intOf t .bbw BBW_INT.HDR_LOST = true)) ∧
  (∀ (id : BurstId) (r : RxResult) (s : State), Yields (.burstCompletion id r) s (fun t =>
    if (burst s id.val).st = .rxOpen ∧ (burst s id.val).header ≠ [] then (burst t id.val).st = .rxDone
    else if (burst s id.val).st = .txLive ∧ (burst s id.val).sent = true then (burst t id.val).st = .free
    else t = s))

/-- The commands of the waveforms and of the noise calendar (R132, R164, R178). -/
def Obligations.WaveCommands : Prop :=
  (∀ (src : CmdSrc) (s : State), takes s .nbw src = true → Yields (.encodeFrame src) s (fun t =>
    let o := latch .nbw 1 src s
    if encodeFrameArgs s o = false then Completed t .nbw CODE.BAD_ARG
    else if placeEncode s = none then Completed t .nbw CODE.NO_RESOURCE
    else ∃ u, outstanding t .nbw = some u ∧ u.opcode = 1 ∧ u.tag = o.tag)) ∧
  (∀ (src : CmdSrc) (s : State), takes s .bbw src = true → Yields (.encodeBurst src) s (fun t =>
    let o := latch .bbw 1 src s
    if encodeBurstArgs s o = false then Completed t .bbw CODE.BAD_ARG
    else if placeEncode s = none then Completed t .bbw CODE.NO_RESOURCE
    else ∃ u, outstanding t .bbw = some u ∧ u.opcode = 1 ∧ u.tag = o.tag)) ∧
  (∀ (src : CmdSrc) (s : State), takes s .bbw src = true → Yields (.readDyn src) s (fun t =>
    let o := latch .bbw 2 src s
    if o.a0.toNat ≤ 51 ∧ o.a1.toNat % 4 = 0 ∧ inHostArea o.a1.toNat 216 = true then
      Completed t .bbw CODE.OK ∧ (BanksOn s → bytesAt t o.a1.toNat 216 = (dynWords s o.a0.toNat).flatMap (leBytes 4)) ∧ t.bbw = s.bbw
    else Completed t .bbw CODE.BAD_ARG ∧ t.mem = s.mem ∧ BlockRegsBut [] s t)) ∧
  (∀ (src : CmdSrc) (s : State), takes s .ncal src = true → Yields (.clearPort src) s (fun t =>
    let o := latch .ncal 1 src s
    BlockRegsBut [] s t ∧
    if o.a0.toNat ≤ 51 then Completed t .ncal CODE.OK ∧ (cal t o.a0.toNat).entries = [] ∧ (cal t o.a0.toNat).cands = [] ∧
      ∀ j, j ≠ o.a0.toNat → cal t j = cal s j
    else Completed t .ncal CODE.BAD_ARG ∧ t.ncal = s.ncal)) ∧
  (∀ (src : CmdSrc) (s : State), takes s .ncal src = true → Yields (.snapshot src) s (fun t =>
    let o := latch .ncal 2 src s
    t.ncal = s.ncal ∧
    if o.a0.toNat ≤ 51 ∧ o.a1.toNat % 4 = 0 ∧ inHostArea o.a1.toNat 67140 = true then
      Completed t .ncal CODE.OK ∧ (BanksOn s → bytesAt t o.a1.toNat 4 = leBytes 4 ((snapshotWords s o.a0.toNat).headD 0))
    else Completed t .ncal CODE.BAD_ARG ∧ t.mem = s.mem ∧ BlockRegsBut [] s t))

/-- Notches, tone maps and the calendar (R150, R160, R168, R170, R171, R173, R179). -/
def Obligations.NotchesAndNoise : Prop :=
  (∀ (n : Port) (k : Fin 1725) (a b : BitVec 8) (s : State), Yields (.dynNotchDetect n k a b) s (fun t =>
    let th := getBits s.bbw.cur.profile 15 8
    if dynEligible s n.val k.val && decide (th < a.toNat) && decide (th < b.toNat) then
      (notchOf t n.val k.val).map (·.last) = some (sfn s) ∧ (notchOf s n.val k.val = none → intOf t .bbw BBW_INT.DYN_CHANGE = true)
    else t = s)) ∧
  (∀ (n : Port) (k : Fin 1725) (s : State), Yields (.dynNotchLift n k) s (fun t =>
    (notchOf s n.val k.val = none → t = s) ∧
    ∀ x, notchOf s n.val k.val = some x → if sfnDiff x.last (sfn s) < getBits s.bbw.cur.profile 7 0 then t = s
      else t.bbw = { s.bbw with notches := s.bbw.notches.erase x } ∧ intOf t .bbw BBW_INT.DYN_CHANGE = true ∧
        RegsBut [addr .bbw offStatus, addr .bbw offIntStat] s t)) ∧
  (∀ (a : CtxIndex) (s : State) (e : TmapEntry), linkMap s a.toNat false 0 = some e → Yields (.tmapPreviousExpiry a) s (fun t =>
    RegsBut [] s t ∧ (e.prev = none → t = s) ∧
    ∀ x, e.prev = some x → if sfnDiff x.2 (sfn s) < 2 ^ 31 then { e with prev := none } ∈ t.bbw.tmaps else t = s)) ∧
  (∀ (n : Port) (x : Fin 209715200) (pv : Bool) (w : Fin 4096) (l : BitVec 8) (nb : BitVec 11) (ru : BitVec 27) (s : State),
    Yields (.impulseDetected n x pv w l nb ru) s (fun t =>
      (∀ j, j ≠ n.val → cal t j = cal s j) ∧
      (((port s n.val).declared && isSet s (.lpt n) LPT_STATUS.RX_ON) = false → t = s) ∧
      ((port s n.val).declared = true → isSet s (.lpt n) LPT_STATUS.RX_ON = true → 3200 < w.val →
        cal t n.val = { cal s n.val with aper := min ((cal s n.val).aper + 1) 0xFFFF } ∧ RegsBut [] s t))) ∧
  (∀ (n : Port) (k : Fin 16) (e : NcalEntry) (s : State), (cal s n.val).entries = [(k.val, e)] → (cal s n.val).cands = [] →
    e.missRun < missLimit s (cal s n.val) → periodOk e.period = true → 
    Yields (.predictionDue n false k false) s (fun t => cal t n.val = { cal s n.val with entries := [(k.val, skip e)] } ∧ RegsBut [] s t) ∧
    (isSet s (.lpt n) LPT_STATUS.RX_ON = true → e.seen = none → Yields (.predictionDue n false k true) s (fun t =>
      if e.missRun + 1 < missLimit s (cal s n.val) then (cal t n.val).entries = [(k.val, { skip e with missRun := e.missRun + 1 })]
      else (cal t n.val).entries = [] ∧ intOf t .ncal NCAL_INT.ENTRY_DROP = true))) ∧
  (∀ (n : Port) (s : State), Yields (.settleEnd n) s (fun t =>
    if (cal s n.val).inSettle && decide ((cal s n.val).left = 0) && !(cal s n.val).startSettle then
      cal t n.val = { cal s n.val with inSettle := false } ∧ RegsBut [addr .ncal offStatus] s t
    else t = s)) ∧
  (∀ (v : Word) (s : State), getBits v 13 8 ≤ 51 → getBits v 2 0 ≤ 7 → Yields (.ncalSelWrite v) s (fun t =>
    t.ncal = s.ncal ∧ getF t .ncal NCAL_PORT_STAT.TRACKED = (cal t (getF t .ncal NCAL_SEL.PORT)).entries.length % 2 ^ NCAL_PORT_STAT.TRACKED.width ∧
    isSet t .ncal NCAL_ENT_STATE.VALID = ((cal t (getF t .ncal NCAL_SEL.PORT)).entries.lookup (getF t .ncal NCAL_SEL.ENTRY)).isSome))

/-- Frames received over the air, one command for each kind (R215, R218, R227, R230, R233, R245, R254). -/
def Obligations.AirFrames : Prop :=
  (∀ id : BurstId, TakesFrame (.joinSolicit id) id (fun f => assocCode f 1 && !f.fromParent) ∧ TakesFrame (.joinReq id) id (fun f => assocCode f 4 && !f.fromParent) ∧
    TakesFrame (.tmapReceived id) id (fun f => decide (f.ftype = FT.TMAP) && !f.narrow && !f.fromParent) ∧
    TakesFrame (.uplinkFrame id) id (fun f => decide (f.ftype = FT.DATA) || (f.fromParent && decide (f.ftype = FT.BEACON))) ∧
    TakesFrame (.grantReq id) id (fun f => assocCode f 7 && !f.fromParent) ∧ TakesFrame (.floodCopyReceived id) id (fun f => decide (f.ftype = FT.FLOOD) && f.narrow) ∧
    TakesFrame (.parentJoinAnswer id) id (fun f => f.fromParent && decide (f.ftype = FT.ASSOC))) ∧
  (∀ (id : BurstId) (s : State) (f : FrameIn), frameIn s id.val = some f → standby s = false →
    (assocCode f 1 = true → f.fromParent = false → Yields (.joinSolicit id) s (fun t =>
      if isSet s .asc ASC_CFG.JOIN_EN = false then t = consume id.val s else f.addr = 0 ∨ f.payload ≠ [] → Malformed s t)) ∧
    (assocCode f 4 = true → f.fromParent = false → (assoc s f.addr).join = none → Yields (.joinReq id) s (Malformed s)) ∧
    (f.ftype = FT.TMAP → f.narrow = false → f.fromParent = false → takesFrames (ctx s f.addr).state = false → Yields (.tmapReceived id) s (Malformed s)) ∧
    (f.ftype = FT.DATA → f.fromParent = false → takesFrames (ctx s f.addr).state = false → Yields (.uplinkFrame id) s (Malformed s)) ∧
    (assocCode f 7 = true → f.fromParent = false → Yields (.grantReq id) s (fun t =>
      if (ctx s f.addr).state = CST.ACTIVE ∧ (ctx s f.addr).session = false then (assoc t f.addr).queue = max (assoc s f.addr).queue 1 else Malformed s t)) ∧
    (f.ftype = FT.ACK → f.fromParent = false → takesFrames (ctx s f.addr).state = true → ∀ g, s.mac.frames.find? (awaits f.addr f.fseq) = some g → g.kind = .host →
      Yields (.ackReceived id) s (fun t => frameOf t g.id = none ∧ (burst t id.val).header = [])) ∧
    (f.ftype = FT.FLOOD → f.narrow = true → f.payload.length < 4 → Yields (.floodCopyReceived id) s (Malformed s)))

/-- Timers, leaving, faults and rekeying of associations (R219, R223, R224, R225, R226, R236, R238). -/
def Obligations.AssociationTimers : Prop :=
  (∀ (a : CtxIndex) (s : State) (j : JoinSt), (assoc s a.toNat).join = some j → Yields (.joiningExpiry a) s (fun t =>
    if (ctx s a.toNat).state = CST.JOINING ∧ (j.nE = 0 ∨ j.forwarded = true) ∧ reached s j.until_ = true then
      (ctx t a.toNat).state = CST.FREE ∧ getF t .asc ASC_EXPIRE_CNT.COUNT = min (getF s .asc ASC_EXPIRE_CNT.COUNT + 1) 0xFFFFFFFF
    else t = s)) ∧
  (∀ (a : CtxIndex) (s : State), Yields (.acceptedExpiry a) s (fun t =>
    if (ctx s a.toNat).state = CST.ACCEPTED ∧ reached s ((ctx s a.toNat).joinSfn + 16) = true then (ctx t a.toNat).state = CST.FREE ∧ intOf t .asc ASC_INT.ENDED = true
    else t = s)) ∧
  (∀ (a : CtxIndex) (s : State), Yields (.supervisionTimeout a) s (fun t =>
    if isLive (ctx s a.toNat).state && decide ((ctx s a.toNat).sup ≠ 0) && reached s ((ctx s a.toNat).lastRx + (ctx s a.toNat).sup) then
      (ctx t a.toNat).state = CST.FREE ∧ intOf t .asc ASC_INT.ENDED = true else t = s)) ∧
  (∀ (a : CtxIndex) (s : State) (e : EndSt), (assoc s a.toNat).ending = some e → e.reason ≠ RSN.FAULT → Yields (.leavingExpiry a) s (fun t =>
    if (ctx s a.toNat).state = CST.LEAVING ∧ reached s (e.since + 4) = true then (ctx t a.toNat).state = CST.FREE ∧ intOf t .asc ASC_INT.ENDED = true else t = s)) ∧
  (∀ s : State, takeElem EL.LEAVE s = none → Yields .leave s (fun t => t = s)) ∧
  (∀ (s u : State) (e : Elem), takeElem EL.LEAVE s = some (e, u) → e.parent = false → Yields .leave s (fun t =>
    if takesFrames (ctx s e.index).state then isLive (ctx t e.index).state = false ∧ intOf t .asc ASC_INT.ENDED = true ∧
      t.mac.elems = u.mac.elems.filter (fun x => x.parent || decide (x.index ≠ e.index))
    else t = u)) ∧
  (∀ (a : CtxIndex) (s : State), Yields (.recordEccFault a) s (fun t =>
    if (ctx s a.toNat).state = CST.FREE ∨ (ctx s a.toNat).state = CST.FAULTED then t = s
    else (ctx t a.toNat).state = CST.FAULTED ∧ intOf t .asc ASC_INT.ECC_FAULT = true ∧ intOf t .saf SAF_INT.DIAG = true)) ∧
  (∀ (a : CtxIndex) (s : State), Yields (.prevKeyExpiry a) s (fun t =>
    if (ctx s a.toNat).prevValid && reached s (assoc s a.toNat).prevUntil then ctx t a.toNat = { ctx s a.toNat with prevValid := false } else t = s)) ∧
  (∀ (a : CtxIndex) (s : State), Yields (.rekeyTrigger a) s (fun t =>
    t.mac.elems = s.mac.elems.filter (fun e => !(decide (e.ty = EL.REKEY_REQ) && decide (e.index = a.toNat) && !e.parent)) ∧
    (rekeyDue s a.toNat = false ∨ (ctx s a.toNat).state ≠ CST.ACTIVE ∨ (ctx s a.toNat).rekeyPending = true → t.mac.table = s.mac.table))) ∧
  (∀ (a : CtxIndex) (s : State) (k : RekeySt), (assoc s a.toNat).rekey = some k → Yields (.rekeyRetryExpiry a) s (fun t =>
    if k.sends = 0 ∨ reached s (k.sentAt + 8) = false then t = s
    else if k.sends < 4 then (assoc t a.toNat).rekey = some { k with sentAt := sfn s }
    else (ctx t a.toNat).state ≠ CST.ACTIVE))

/-- The commands of ASC (R237–R241). -/
def Obligations.AssociationCommands : Prop :=
  (∀ (src : CmdSrc) (s : State), takes s .asc src = true → Yields (.provision src) s (fun t =>
    let o := latch .asc 1 src s
    let ep := beAt (busBytes s o.a0.toNat 40) 0 8
    if inHostArea o.a0.toNat 40 = false then Completed t .asc CODE.BAD_ARG ∧ t.mac = s.mac
    else if (findParked s ep).isSome ∨ (findSlot s ep tableSize (fun st => decide (st ≠ CST.FREE) && decide (st ≠ CST.FAULTED))).isSome then
      Completed t .asc 0x80 ∧ t.mac = s.mac
    else ∀ k, freeParked s = some k → Completed t .asc CODE.OK ∧ (parkedRec t k).epId = ep ∧ (parkedRec t k).state = CST.PROVISIONED ∧
      isSet t .asc ASC_RESULT.PARKED = true ∧ getF t .asc ASC_RESULT.INDEX = k % 2 ^ 25)) ∧
  (∀ (src : CmdSrc) (s : State), takes s .asc src = true → Yields (.readCtx src) s (fun t =>
    let o := latch .asc 2 src s
    let i := o.a0.toNat
    t.mac = s.mac ∧
    if inHostArea o.a2.toNat 256 = false then Completed t .asc CODE.BAD_ARG ∧ t.mem = s.mem
    else if (if argParked o then decide (parkedSize ≤ i) || !(Map.keys s.mac.parked).contains i else decide (tableSize ≤ i) || decide ((ctx s i).state = CST.FREE)) then
      Completed t .asc 0x81 ∧ t.mem = s.mem
    else Completed t .asc CODE.OK ∧ (BanksOn s → bytesAt t o.a2.toNat 256 = (ctxBytes (if argParked o then parkedRec s i else ctx s i)
      (if argParked o then List.replicate 16 0 else tmapField s i) noKey noKey (List.replicate 24 0)).take 256))) ∧
  (∀ (src : CmdSrc) (s : State), takes s .asc src = true → Yields (.find src) s (fun t =>
    let o := latch .asc 3 src s
    let ep := o.a0.toNat * 2 ^ 32 + o.a1.toNat
    t.mac = s.mac ∧
    (∀ k, findSlot s ep tableSize (fun st => decide (st ≠ CST.FREE)) = some k → Completed t .asc CODE.OK ∧ isSet t .asc ASC_RESULT.PARKED = false ∧
      getF t .asc ASC_RESULT.INDEX = k % 2 ^ 25) ∧
    (findSlot s ep tableSize (fun st => decide (st ≠ CST.FREE)) = none →
      (∀ k, findParked s ep = some k → Completed t .asc CODE.OK ∧ isSet t .asc ASC_RESULT.PARKED = true ∧ getF t .asc ASC_RESULT.INDEX = k % 2 ^ 25) ∧
      (findParked s ep = none → Completed t .asc 0x81 ∧ BlockRegsBut [] s t)))) ∧
  (∀ (park : Bool) (src : CmdSrc) (s : State), takes s .asc src = true → Yields (if park then .park src else .release src) s (fun t =>
    let o := latch .asc (if park then 5 else 4) src s
    let i := o.a0.toNat
    if tableSize ≤ i ∨ argParked o = true then Completed t .asc CODE.BAD_ARG ∧ t.mac = s.mac
    else if (ctx s i).state = CST.FREE then Completed t .asc 0x82 ∧ t.mac = s.mac
    else if jobsOn s i = true then Issued t .asc o ∧ t.mac = s.mac
    else (ctx t i).state ≠ CST.ACTIVE ∧ ((ctx s i).state = CST.ACTIVE → (ctx s i).session = false →
      (ctx t i).state = CST.LEAVING ∧ (assoc t i).ending = some ⟨RSN.HOST, park, sfn s⟩))) ∧
  (∀ (src : CmdSrc) (s : State), takes s .asc src = true → Yields (.rekey src) s (fun t =>
    let o := latch .asc 6 src s
    let i := o.a0.toNat
    if tableSize ≤ i ∨ argParked o = true then Completed t .asc CODE.BAD_ARG ∧ t.mac = s.mac
    else if (ctx s i).state ≠ CST.ACTIVE then Completed t .asc 0x82 ∧ t.mac = s.mac
    else ∀ k, (assoc s i).rekey = some k → (ctx s i).rekeyPending = true → if 0 < k.sends then Completed t .asc CODE.OK else Issued t .asc o)) ∧
  (∀ (src : CmdSrc) (s : State), takes s .asc src = true → Yields (.deleteParked src) s (fun t =>
    let k := (latch .asc 7 src s).a0.toNat
    if (Map.keys s.mac.parked).contains k = false then Completed t .asc 0x81 ∧ t.mac = s.mac
    else if promoted s k then Completed t .asc 0x82 ∧ t.mac = s.mac
    else Completed t .asc CODE.OK ∧ parkedRec t k = Ctx.zero ∧ t.mac.table = s.mac.table)) ∧
  (∀ (src : CmdSrc) (s : State), takes s .asc src = true → Yields (.setRecord src) s (fun t =>
    let o := latch .asc 8 src s
    let i := o.a0.toNat
    let sup := getBits o.a2 12 0
    if sup < 4 ∨ 4096 < sup then Completed t .asc CODE.BAD_ARG ∧ t.mac = s.mac
    else if argParked o then
      (if (Map.keys s.mac.parked).contains i then Completed t .asc CODE.OK ∧ (parkedRec t i).sup = sup else Completed t .asc CODE.BAD_ARG ∧ t.mac = s.mac)
    else if tableSize ≤ i ∨ (ctx s i).state = CST.FREE then Completed t .asc CODE.BAD_ARG ∧ t.mac = s.mac
    else Completed t .asc CODE.OK ∧ (ctx t i).sup = sup ∧ (ctx t i).state = (ctx s i).state)) ∧
  (∀ (src : CmdSrc) (s : State), takes s .asc src = true → Yields (.rotateBkey src) s (fun t =>
    if isSet s .asc ASC_STATUS.BKEY_PENDING then Completed t .asc CODE.REFUSED ∧ t.mac = s.mac
    else if isSet s .cip CIP_STATUS.DRBG_OK = false then Completed t .asc CODE.FAULT ∧ t.mac = s.mac
    else Completed t .asc CODE.OK ∧ t.mac.bnext.isSome = true ∧ t.mac.bkey = s.mac.bkey ∧ getF t .asc ASC_RESULT.INDEX = applySfn s % 2 ^ 25))

/-- Routes, appointments and trees (R246, R248, R249, R255, R257, R259, R262, R264). -/
def Obligations.RoutesAndTree : Prop :=
  (∀ (src : CmdSrc) (s : State), takes s .rpt src = true → Yields (.setRoute src) s (fun t =>
    let o := latch .rpt 1 src s
    let i := getBits o.a0 19 0
    let valid := o.a1.toNat.testBit 31
    if isActive s i = false ∨ (valid = true ∧ isActive s (getBits o.a1 19 0) = false) then Completed t .rpt 0x80 ∧ t.mac = s.mac
    else
      let r := { relay s i with routed := true, learned := false, valid := valid, next := getBits o.a1 19 0, bbHops := getBits o.a2 5 0 }
      let path := routeChain (setRelay i r s) 64 i
      if path.contains i || decide (63 < path.length) then Completed t .rpt 0x81 ∧ t.mac = s.mac
      else Completed t .rpt CODE.OK ∧ relay t i = r ∧ t.mac.table = s.mac.table ∧ ∀ j, j ≠ i → relay t j = relay s j)) ∧
  (∀ (src : CmdSrc) (s : State), takes s .rpt src = true → Yields (.clearRoute src) s (fun t =>
    let i := getBits (latch .rpt 2 src s).a0 19 0
    if isActive s i = false then Completed t .rpt 0x80 ∧ t.mac = s.mac
    else Completed t .rpt CODE.OK ∧ (relay t i).routed = false ∧ (relay t i).valid = false ∧ ∀ j, j ≠ i → relay t j = relay s j)) ∧
  (∀ (src : CmdSrc) (s : State), takes s .rpt src = true → Yields (.appoint src) s (fun t =>
    let o := latch .rpt 3 src s
    let i := getBits o.a0 19 0
    if getBits o.a1 11 8 = 0 ∨ 4 < getBits o.a1 11 8 then Completed t .rpt CODE.BAD_ARG ∧ t.mac = s.mac
    else if isActive s i = false then Completed t .rpt 0x80 ∧ t.mac = s.mac
    else Issued t .rpt o ∧ (relay t i).roles = getBits o.a1 2 0 ∧ t.mac.frames.length = s.mac.frames.length + 1)) ∧
  (∀ (v : Word) (s : State), Yields (.rptRouteSelWrite v) s (fun t =>
    getF t .rpt RPT_ROUTE_SEL.INDEX = getBits v 19 0 ∧ getF t .rpt RPT_ROUTE_NEXT.ENTRY = beAt (relay s (getBits v 19 0)).bytes 2 3 ∧
    RegsBut [addr .rpt RPT_ROUTE_SEL.INDEX.off, addr .rpt RPT_ROUTE_STATE.ENTRY.off, addr .rpt RPT_ROUTE_NEXT.ENTRY.off] s t)) ∧
  (∀ s : State, Yields .parentJoined s (fun t =>
    if s.mac.parent.phase = .offered ∧ s.mac.parent.link.state = CST.ACCEPTED then
      t.mac.parent.phase = .active ∧ t.mac.parent.link.state = CST.ACTIVE ∧ isSet t .rpt RPT_PARENT.ACTIVE = true ∧ intOf t .rpt RPT_INT.PARENT_JOINED = true
    else t = s)) ∧
  (∀ s : State, Yields .parentLost s (fun t =>
    if parentActive s then t.mac.parent.phase = .backoff ∧ isSet t .rpt RPT_PARENT.ACTIVE = false ∧ intOf t .rpt RPT_INT.PARENT_LOST = true ∧
      getF t .rpt RPT_STATUS.DEPTH = 0 else t = s)) ∧
  (∀ s : State, Yields .treeWaitExpiry s (fun t =>
    if isSub s && !parentActive s && decide (getF s .boot BOOT_STATUS.STAGE = 0x0E) then getF t .boot BOOT_STATUS.STAGE = 0x0F ∧
      RegsBut [addr .boot offStatus] s t else t = s)) ∧
  (∀ s : State, Yields .solicitWaitExpiry s (fun t =>
    if isSub s && !standby s then (s.mac.parent.phase = .listening → t.mac.parent.phase = .backoff ∧ t.mac.parent.k = min (s.mac.parent.k + 1) 6) ∧
      (s.mac.parent.phase = .offered ∨ s.mac.parent.phase = .active → t = s) else t = s)) ∧
  (∀ (s u : State) (e : Elem), takeElem EL.RELAY s = some (e, u) → Yields .relayElement s (fun t =>
    e.parent = false → beAt e.value 0 1 = 0x05 → 1 ≤ beAt e.value 5 1 → beAt e.value 5 1 ≤ 4 → (relay t e.index).bdepth = beAt e.value 5 1)) ∧
  (∀ s : State, takeElem EL.RELAY s = none → Yields .relayElement s (fun t => t = s)) ∧
  (∀ (s u : State) (e : Elem), takeElem EL.KEY_INSTALL s = some (e, u) → Yields .keyInstall s (fun t =>
    (e.parent = false ∨ e.value.length < 56 → t = u))) ∧
  (∀ s : State, Yields .joinUpHoldExpiry s (fun t =>
    t = { s with mac := { s.mac with joinUps := s.mac.joinUps.filter (fun e => !reached s e.until_) } }))

/-- Kills (R46, R472–R475, R479, R497). -/
def Obligations.MonitorKills : Prop :=
  (∀ (n : Port) (s : State), Kills (.levelKill n) KILL.LEVEL (some n) s ∧ Kills (.stuckKill n) KILL.STUCK (some n) s ∧ Kills (.tapKill n) KILL.TAP (some n) s) ∧
  (∀ (n : Port) (s : State), (port s n.val).declared = true → Kills (.bandEdgeKill n) KILL.BAND_EDGE (some n) s) ∧
  (∀ (n : Port) (s : State), (port s n.val).declared = false → Yields (.bandEdgeKill n) s (fun t => t = s)) ∧
  (∀ s : State, Kills .selfKill KILL.SELF none s) ∧
  (∀ (n : Port) (s : State), moduleOn s = true → Yields (.tapKill n) s (fun t =>
    getF t .saf SAF_DIAG_LAST.CLASS = 2 ∧ getF t .saf SAF_DIAG_LAST.INST = n.val ∧ intOf t .saf SAF_INT.DIAG = true)) ∧
  (∀ s : State, moduleOn s = true → Yields .selfKill s (fun t => getF t .saf SAF_DIAG_LAST.CLASS = 1 ∧ intOf t .saf SAF_INT.DIAG = true)) ∧
  (∀ (v : BitVec 16) (s : State), Kills (.tempKill v) KILL.TEMP none s ∧
    Yields (.tempKill v) s (fun t => moduleOn s = true → getF t .pwr PWR_BASE_TEMP.VALUE = v.toNat ∧ intOf t .pwr PWR_INT.TEMP_KILL = true)) ∧
  (∀ (v : BitVec 16) (s : State), Yields (.baseplateOverTemp v) s (fun t => if moduleOn s then
    getF t .pwr PWR_BASE_TEMP.VALUE = v.toNat ∧ intOf t .pwr PWR_INT.OVER_TEMP = true ∧ (LogRoom s → Logged t (0x0200 + PWR_INT.OVER_TEMP) 0 []) else t = s)) ∧
  (∀ s : State, moduleOn s = true → s.pwr.killLow = false → Kills .killnFall KILL.KILLN none s ∧
    Yields .killnFall s (fun t => t.pwr.killLow = true ∧ isSet t .saf SAF_STATUS.KILLN_LOW = true ∧ getF t .saf SAF_DIAG_LAST.CLASS = 3)) ∧
  (∀ s : State, s.pwr.killLow = true → Yields .killnFall s (fun t => t = s)) ∧
  (∀ s : State, Yields .killnRise s (fun t => t.pwr.killLow = false ∧ isSet t .saf SAF_STATUS.KILLN_LOW = false ∧ killCauses t = killCauses s ∧
    RegsBut [addr .saf offStatus] s t))

/-- How causes of a kill end (R46, R474, R475, R482). -/
def Obligations.KillEnds : Prop :=
  (∀ s : State, Yields .tempKillRelease s (fun t => killCauses t = killCauses s &&& (2047 - 2 ^ KILL.TEMP) ∧
    (killed s = true → killCauses t = 0 → isSet t .saf SAF_STATUS.KILL = false ∧ intOf t .saf SAF_INT.KILL_ENDED = true ∧ getF t .saf SAF_KILL.PORT = 0x3F) ∧
    (killCauses t ≠ 0 → RegsBut [addr .saf SAF_KILL.CAUSE.off] s t))) ∧
  (∀ s : State, Yields .killnAutoRelease s (fun t =>
    if isSet s .saf SAF_CFG.KILLN_AUTO = true ∧ s.pwr.killLow = false then killCauses t = killCauses s &&& (2047 - 2 ^ KILL.KILLN) ∧
      (killed s = true → killCauses t = 0 → isSet t .saf SAF_STATUS.KILL = false ∧ intOf t .saf SAF_INT.KILL_ENDED = true) else t = s)) ∧
  (∀ (src : CmdSrc) (holds : BitVec 5) (s : State), takes s .saf src = true → Yields (.clearKill src holds) s (fun t =>
    let h := holding s holds.toNat
    if h ≠ 0 then Completed t .saf CODE.REFUSED ∧ getBits (reg t (addr .saf offCmdStat)) 15 8 = h ∧ killCauses t = killCauses s
    else Completed t .saf CODE.OK ∧ killCauses t = killCauses s &&& (2047 - latchedCauses s) ∧
      (killed s = true → killCauses t = 0 → isSet t .saf SAF_STATUS.KILL = false ∧ intOf t .saf SAF_INT.KILL_ENDED = true))) ∧
  (∀ (src : CmdSrc) (s : State), takes s .saf src = true → Yields (.killTest src) s (fun t =>
    if mode s ≠ MODE.TEST ∨ killCauses s ≠ 2 ^ KILL.MODE ∨ isSet s .saf SAF_STATUS.TRIP = true then Completed t .saf CODE.REFUSED ∧ killCauses t = killCauses s
    else Issued t .saf (latch .saf 2 src s) ∧ killCauses t = 0 ∧ isSet t .saf SAF_STATUS.KILL = false))

/-- Trips (R473, R498). -/
def Obligations.BankTrips : Prop :=
  (∀ (k : Fin 4) (fault : Bool) (s : State), moduleOn s = true → siFault s (8 + k.val) = fault → Yields (.hotSpotTrip k fault) s (fun t =>
    (getF t .saf (if fault then SAF_TRIP.FAULT else SAF_TRIP.TEMP)).testBit k.val = true ∧ isSet t .saf SAF_STATUS.TRIP = true ∧
    (fault = true → getF t .saf SAF_DIAG_LAST.CLASS = 4 ∧ intOf t .saf SAF_INT.DIAG = true) ∧
    (tripped s (12 * k.val) = false → (∀ n ∈ bankPorts k.val, driverOn t n = false) ∧
      getF t .saf SAF_TRIP_CNT.COUNT = min (getF s .saf SAF_TRIP_CNT.COUNT + 1) 0xFFFFFFFF ∧ intOf t .saf SAF_INT.TRIP = true) ∧
    (∀ n : Port, n.val ∉ bankPorts k.val ∨ tripped s (12 * k.val) = true → driverOn t n.val = driverOn s n.val))) ∧
  (∀ (k : Fin 4) (fault : Bool) (s : State), moduleOn s = false ∨ siFault s (8 + k.val) ≠ fault → Yields (.hotSpotTrip k fault) s (fun t => t = s)) ∧
  (∀ (k : Fin 4) (s : State), Yields (.siWarn k) s (fun t =>
    if moduleOn s = true ∧ siFault s (8 + k.val) = false then intOf t .saf SAF_INT.SI_WARN = true ∧ (LogRoom s → Logged t (0x0400 + SAF_INT.SI_WARN) 0 [k.val]) ∧
      ∀ n : Port, driverOn t n.val = driverOn s n.val else t = s)) ∧
  (∀ (k : Fin 4) (fault : Bool) (s : State), Yields (.tripLift k fault) s (fun t =>
    if siFault s (8 + k.val) then t = s
    else getF t .saf (if fault then SAF_TRIP.FAULT else SAF_TRIP.TEMP) = getF s .saf (if fault then SAF_TRIP.FAULT else SAF_TRIP.TEMP) &&& (15 - 2 ^ k.val) ∧
      getF t .saf (if fault then SAF_TRIP.TEMP else SAF_TRIP.FAULT) = getF s .saf (if fault then SAF_TRIP.TEMP else SAF_TRIP.FAULT) ∧
      isSet t .saf SAF_STATUS.TRIP = (decide (getF t .saf SAF_TRIP.TEMP ≠ 0) || decide (getF t .saf SAF_TRIP.FAULT ≠ 0)) ∧
      RegsBut [addr .saf SAF_TRIP.TEMP.off, addr .saf offStatus] s t))

/-- The resets of the module (R81–R83, R88, R92). -/
def Obligations.ModuleResets : Prop :=
  (∀ s : State, Yields .mrstAssert s (fun t => if s.pwr.mrstLow = true ∨ moduleOn s = false then t = { s with pwr := { s.pwr with mrstLow := true } }
    else Restarted START.MRST s t ∧ t.pwr.mrstLow = true)) ∧
  (∀ e ∈ [(Instr.watchdogExpiry, START.WATCHDOG), (.lockstepDisagree, START.LOCKSTEP)], ∀ s : State, Yields e.1 s (fun t =>
    if tarlumOn s then Restarted (if s.boot.trialLive = true ∧ 1 ≤ s.boot.trialFaults then START.REVERT else e.2) s t ∧ t.boot.faults = s.boot.faults + 1 ∧
      (t.boot.recovery = decide (2 ≤ s.boot.faults)) else t = s)) ∧
  (∀ s : State, Yields .trialExpiry s (fun t =>
    if mode s = MODE.SERVICE ∧ trialSlots s ≠ [] then Restarted START.REVERT s t ∧ trialSlots t = [] ∧ intOf t .boot BOOT_INT.TRIAL_REVERTED = true else t = s)) ∧
  (∀ (src : CmdSrc) (s : State), takes s .boot src = true → Yields (.resetModule src) s (fun t =>
    Restarted START.SOFT s t ∧ t.boot.recovery = (latch .boot 1 src s).a0.toNat.testBit 0)) ∧
  (∀ (n : Serial) (ms : BitVec 16) (s : State), Yields (.breakEnd n ms) s (fun t =>
    if isSet s (.ser n) SER_STATUS.BREAK_ACTIVE = false ∨ isSet s (.ser n) SER_STATUS.LINE_STUCK = true then t = s
    else if n.val = 0 ∧ 2000 ≤ ms.toNat ∧ ms.toNat ≤ 10000 ∧ mode s ≠ MODE.RECOVERY ∧ mode s ≠ MODE.TEST then
      Restarted START.BREAK s t ∧ t.boot.recovery = true
    else isSet t (.ser n) SER_STATUS.BREAK_ACTIVE = false ∧ getF t (.ser n) SER_BRK_LEN.LEN = ms.toNat ∧ intOf t (.ser n) SER_INT.BREAK_END = true ∧
      getF t (.ser n) SER_BRK_CNT.COUNT = min (getF s (.ser n) SER_BRK_CNT.COUNT + 1) 0xFFFFFFFF)) ∧
  (∀ s : State, exec .recoveryCountClear s = .next { s with boot := { s.boot with faults := 0 } })

/-- Wakes, the real-time counter and PERST# (R72, R75, R81, R85, R386, R463, R496). -/
def Obligations.Wakes : Prop :=
  (∀ (k : Fin 5) (s : State), Yields (.wake k) s (fun t =>
    if s.pwr.state = .dormouse ∧ (reg s (addr .pwr PWR_WAKE_EN.MAIN.off)).toNat.testBit k.val then
      Restarted START.WAKE s t ∧ getF t .pwr PWR_WAKE_CAUSE.CAUSE = 2 ^ k.val else t = s)) ∧
  (∀ s : State, s.pwr.mrstLow = true → s.pwr.state = .dormouse → (reg s (addr .pwr PWR_WAKE_EN.MAIN.off)).toNat.testBit 4 = true →
    Yields .mrstRelease s (fun t => Restarted START.WAKE s t ∧ t.pwr.mrstLow = false)) ∧
  (∀ s : State, s.pwr.state ≠ .dormouse → exec .mrstRelease s = .next { s with pwr := { s.pwr with mrstLow := false } }) ∧
  (∀ (n : Serial) (s : State), Yields (.sleepAddressMatch n) s (fun t =>
    if n.val < 2 ∧ isSet s (.ser n) SER_SLEEP.EN = true ∧ s.pwr.state = .dormouse ∧ (reg s (addr .pwr PWR_WAKE_EN.MAIN.off)).toNat.testBit 3 then
      Restarted START.WAKE s t ∧ getF t .pwr PWR_WAKE_CAUSE.CAUSE = 8 else t = s)) ∧
  (∀ s : State, Yields .rtcAlarm s (fun t => (if s.pwr.state = .off then t = s else t.time.rtc = s.pwr.alarm) ∧
    (s.pwr.state = .dormouse → (reg s (addr .pwr PWR_WAKE_EN.MAIN.off)).toNat.testBit 2 = true → stage t = 1 ∧ getF t .pwr PWR_WAKE_CAUSE.CAUSE = 4) ∧
    (moduleOn s = true → intOf t .pwr PWR_INT.RTC_ALARM = true ∧ RegsBut [addr .pwr offIntStat] s t))) ∧
  (∀ s : State, Yields .pwrRtcLoRead s (fun t => t.emits.head? = some (.read (BitVec.ofNat 32 s.time.rtc)) ∧
    t.time = { s.time with rtcHiLatch := s.time.rtc / 2 ^ 32 % 2 ^ 16 } ∧ RegsBut [] s t)) ∧
  (∀ (v : Word) (s : State), Yields (.pwrRtcAlarmLoWrite v) s (fun t =>
    t.pwr.alarm = getF s .pwr PWR_RTC_ALARM_HI.COUNT_HI * 2 ^ 32 + v.toNat ∧ reg t (addr .pwr 0x134) = v ∧ RegsBut [addr .pwr 0x134] s t)) ∧
  (∀ s : State, Yields .perstAssert s (fun t => t.pwr.perstLow = true ∧
    (s.pwr.perstLow = false → moduleOn s = true → isSet t .pci PCI_STATUS.LINK_UP = false ∧ t.msixMask = 2 ^ 64 - 1 ∧ t.msixPba = 0 ∧
      (∀ r : Fin 29, getI t .pci PCI_RING.EN r.val = 0) ∧ ∀ p, p ≠ .pci → ∀ o, o < 0x1000 → reg t (addr p o) = reg s (addr p o)))) ∧
  (∀ s : State, exec .perstRelease s = .next { s with pwr := { s.pwr with perstLow := false } })

/-- Supply supervision (R56, R65–R67, R80). -/
def Obligations.Supplies : Prop :=
  (∀ (v : BitVec 16) (s : State), Yields (.mainOk v) s (fun t =>
    if s.pwr.state = .off ∨ isSet s .pwr PWR_SUPPLY.MAIN_OK = true then t = s
    else (s.pwr.state = .dormouse ∨ isSet t .pwr PWR_SUPPLY.MAIN_OK = true ∧ source t = SRC.MAIN ∧ getF t .pwr PWR_MAIN_V.VALUE = v.toNat) ∧
      (watching s = true → intOf t .pwr PWR_INT.MAIN_RESTORED = true ∧ t.pwr.autoDue = false))) ∧
  (∀ (v : BitVec 16) (s : State), Yields (.mainFailed v) s (fun t =>
    if s.pwr.state = .off ∨ isSet s .pwr PWR_SUPPLY.MAIN_OK = false then t = s
    else isSet t .pwr PWR_SUPPLY.MAIN_OK = false ∧ source t = (if isSet s .pwr PWR_SUPPLY.BACKUP_OK then SRC.BACKUP else SRC.HOLD_UP) ∧
      getF t .pwr PWR_MAIN_V.VALUE = v.toNat ∧ (isSet s .pwr PWR_SUPPLY.BACKUP_OK = true → t.pwr.converter = true) ∧
      (watching s = true → intOf t .pwr PWR_INT.MAIN_LOST = true ∧ (LogRoom s → Logged t (0x0200 + PWR_INT.MAIN_LOST) 0 [])))) ∧
  (∀ s : State, Yields .backupStandbyReturn s (fun t =>
    t = if source s = SRC.MAIN then { s with pwr := { s.pwr with converter := false } } else s)) ∧
  (∀ (v : BitVec 16) (s : State), Yields (.backupOk v) s (fun t =>
    if s.pwr.state = .off ∨ isSet s .pwr PWR_SUPPLY.BACKUP_OK = true then t = s
    else isSet t .pwr PWR_SUPPLY.BACKUP_OK = true ∧ isSet t .pwr PWR_SUPPLY.REVERSED = false ∧ getF t .pwr PWR_BACKUP_V.VALUE = v.toNat ∧
      source t = (if isSet s .pwr PWR_SUPPLY.MAIN_OK then SRC.MAIN else SRC.BACKUP) ∧ (watching s = true → intOf t .pwr PWR_INT.BACKUP_CHANGE = true))) ∧
  (∀ (v : BitVec 16) (rev : Bool) (s : State), Yields (.backupFailed v rev) s (fun t =>
    if s.pwr.state = .off then t = s
    else isSet t .pwr PWR_SUPPLY.BACKUP_OK = false ∧ isSet t .pwr PWR_SUPPLY.REVERSED = rev ∧ getF t .pwr PWR_BACKUP_V.VALUE = v.toNat ∧
      (isSet s .pwr PWR_SUPPLY.BACKUP_OK = true → source t = (if isSet s .pwr PWR_SUPPLY.MAIN_OK then SRC.MAIN else SRC.HOLD_UP)) ∧
      (watching s = true → rev = true → isSet s .pwr PWR_SUPPLY.REVERSED = false → LogRoom s → Logged t (0x0200 + PWR_INT.BACKUP_REVERSED) 0 []))) ∧
  (∀ (v : BitVec 16) (s : State), Yields (.backupLow v) s (fun t => if watching s then
    getF t .pwr PWR_BACKUP_V.VALUE = v.toNat ∧ intOf t .pwr PWR_INT.BACKUP_LOW = true ∧ (LogRoom s → Logged t (0x0200 + PWR_INT.BACKUP_LOW) 0 []) else t = s))

/-- The power states (R67, R68, R70, R71, R73–R75, R81). -/
def Obligations.PowerStates : Prop :=
  (∀ (src : CmdSrc) (s : State), takes s .pwr src = true → Yields (.enterDormouse src) s (fun t =>
    if watching s then t.pwr.state = .dormouse ∧ (∀ n : Port, driverOn t n.val = false) ∧ (∀ p, outstanding t p = none) ∧ t.mac.table = s.mac.table ∧
      t.pwr.savedSfn = sfn s ∧ t.pwr.savedRtc = s.time.rtc
    else Completed t .pwr CODE.REFUSED ∧ t.pwr = s.pwr)) ∧
  (∀ s : State, Yields .dormOnLowExpiry s (fun t =>
    if watching s = true ∧ source s = SRC.BACKUP ∧ isSet s .pwr PWR_POLICY.DORM_ON_LOW = true then
      t.pwr.state = .dormouse ∧ (∀ n : Port, driverOn t n.val = false) ∧ ∀ p, outstanding t p = none
    else t = s)) ∧
  (∀ s : State, Yields .outageDelayExpiry s (fun t =>
    t = if s.pwr.state = .run ∧ s.pwr.shutdown = false ∧ source s = SRC.BACKUP ∧ isSet s .pwr PWR_POLICY.OUTAGE_EN = true then
      { s with pwr := { s.pwr with autoDue := true } } else s)) ∧
  (∀ (src : CmdSrc) (s : State), takes s .pwr src = true → Yields (.enterOutage src) s (fun t => t.pwr = s.pwr ∧
    if source s ≠ SRC.BACKUP ∨ s.pwr.shutdown = true then Completed t .pwr CODE.REFUSED
    else if outageBad s then Completed t .pwr CODE.BAD_ARG else Issued t .pwr (latch .pwr 2 src s))) ∧
  (∀ (src : CmdSrc) (s : State), takes s .pwr src = true → Yields (.leaveOutage src) s (fun t => t.pwr = s.pwr ∧
    if inOutage s = true ∧ s.pwr.shutdown = false then Issued t .pwr (latch .pwr 3 src s) else Completed t .pwr CODE.REFUSED)) ∧
  (∀ (src : CmdSrc) (s : State), takes s .pwr src = true → Yields (.testLastGasp src) s (fun t => Completed t .pwr CODE.OK ∧
    (∀ m : MLane, isSet s (.lanm m) LANM_STATUS.UP = true → (Emit.lane (4 + m.val) ⟨TT.LAST_GASP, 0, none, sfn s, lastGasp 0x80 s⟩) ∈ t.emits))) ∧
  (∀ (main backup : BitVec 16) (tog : Bool) (blocks : Nat) (s : State), Yields (.bothFailed main backup tog blocks) s (fun t =>
    if s.pwr.state = .dormouse then t.pwr.state = .off ∧ ∀ p, outstanding t p = none
    else if watching s then t.pwr.state = s.pwr.state ∧ t.pwr.shutdown = true ∧ source t = SRC.HOLD_UP ∧ isSet t .pwr PWR_SUPPLY.MAIN_OK = false ∧
      isSet t .pwr PWR_SUPPLY.BACKUP_OK = false ∧ getF t .pwr PWR_MAIN_V.VALUE = main.toNat ∧ getF t .pwr PWR_BACKUP_V.VALUE = backup.toNat ∧
      (killCauses t).testBit KILL.SUPPLY = true ∧ (∀ n : Port, driverOn t n.val = false) ∧ getF t .saf SAF_DIAG_LAST.CLASS = 10
    else t = s)) ∧
  (∀ s : State, Yields .shutdownComplete s (fun t =>
    if s.pwr.shutdown = false then t = s else if s.pwr.okSince then Restarted START.POWER_ON s t ∧ isSet t .pwr PWR_SUPPLY.MAIN_OK = isSet s .pwr PWR_SUPPLY.MAIN_OK
    else t.pwr.state = .off ∧ t.time.running = false ∧ ∀ p, outstanding t p = none)) ∧
  (∀ (main : Bool) (v : BitVec 16) (spent : Bool) (s : State), Yields (.powerOn main v spent) s (fun t => if s.pwr.state = .off then
    Restarted START.POWER_ON s t ∧ source t = (if main then SRC.MAIN else SRC.BACKUP) ∧
      getF t .pwr (if main then PWR_MAIN_V.VALUE else PWR_BACKUP_V.VALUE) = v.toNat ∧ t.time.rtc = (if spent then 0 else s.time.rtc) ∧
      t.time.rtcValid = !spent else t = s))

/-- The start-up sequence (R46, R84, R85, R87, R89, R91, R183, R281, R400). -/
def Obligations.StartUp : Prop :=
  (∀ (f : StageFind) (s : State), starting s = false → exec (.startupStageComplete f) s = .next s) ∧
  (∀ (f : StageFind) (s : State), starting s = true → stage s = 2 → Yields (.startupStageComplete f) s (fun t =>
    getF t .pwr PWR_BASE_TEMP.VALUE = f.temp.toNat ∧
    if startedBy s START.POWER_ON = true ∧ signedOf 16 f.temp.toNat < coldLimit then t.pwr.cold = true ∧ stage t = 2 else t.pwr.cold = s.pwr.cold ∧ stage t = 3)) ∧
  (∀ s : State, Yields .coldHoldEnd s (fun t =>
    if s.pwr.cold then stage t = 3 ∧ t.pwr.cold = false ∧ getF t .pwr PWR_WAKE_CAUSE.CAUSE = 0x20 else t = s)) ∧
  (∀ (f : StageFind) (s : State), starting s = true → stage s ∈ [1, 3, 4, 7, 8] → Yields (.startupStageComplete f) s (fun t =>
    stage t = stage s + 1 ∧ mode t = mode s ∧ RegsBut [addr .boot BOOT_STATUS.STAGE.off] s t)) ∧
  (∀ (f : StageFind) (s : State), starting s = true → stage s = 5 → Yields (.startupStageComplete f) s (fun t =>
    if f.keyStore = false ∨ s.boot.recovery = true then mode t = MODE.RECOVERY ∧ (killCauses t).testBit KILL.MODE = true ∧ (killCauses t).testBit KILL.RESET = false ∧
      (f.keyStore = false → getF t .boot BOOT_STATUS.LAST_FAIL = 4)
    else stage t = 6 ∧ t.cip.swk ≠ [] ∧ (isSet s .pair PAIR_ROLE.PAIRED = true → pairRole t = 3 ∧ isSet t .pair PAIR_STATUS.HOLD_OFF = true))) ∧
  (∀ (f : StageFind) (s : State), starting s = true → stage s = 6 → Yields (.startupStageComplete f) s (fun t =>
    if (bootModule s).isSome then stage t = 7 ∧ mode t = mode s ∧ ∀ i, t.boot.modRun = some i → i < 2 ∧ verifyImage s i = 0
    else mode t = MODE.RECOVERY ∧ getF t .boot BOOT_STATUS.LAST_FAIL = 1)) ∧
  (∀ (f : StageFind) (s : State), starting s = true → stage s = 9 → Yields (.startupStageComplete f) s (fun t =>
    if failedBanks (testMemory f.columns s) = 0 then stage t = 10 else mode t = MODE.RECOVERY ∧ getF t .boot BOOT_STATUS.LAST_FAIL = 3)) ∧
  (∀ (f : StageFind) (s : State), starting s = true → stage s = 10 → Yields (.startupStageComplete f) s (fun t => stage t = 11 ∧ t.mac.table = s.mac.table)) ∧
  (∀ (f : StageFind) (s : State), starting s = true → stage s = 11 → Yields (.startupStageComplete f) s (fun t =>
    stage t = 12 ∧ t.time.running = true ∧ t.time.slot = 0 ∧ sfn t = firstSfn s ∧ (∀ p ∈ f.pipes, isSet t .cip (if p.val = 0 then CIP_STATUS.P0_OK else CIP_STATUS.P1_OK) = false) ∧
    (t.boot.ucodeRun = none → getF t .boot BOOT_STATUS.LAST_FAIL = 2))) ∧
  (∀ (f : StageFind) (s : State), starting s = true → stage s = 12 → Yields (.startupStageComplete f) s (fun t =>
    stage t = 13 ∧ mode t = MODE.SERVICE ∧ (killCauses t).testBit KILL.RESET = false ∧ intOf t .boot BOOT_INT.SERVICE = true ∧
    isSet t .mem MEM_STATUS.ARB_NORMAL = true ∧ (∀ n : Port, (port t n.val).declared = isSet s (.lpt n) LPT_DECL.DECLARED) ∧
    (startedBy s START.WATCHDOG = true ∨ startedBy s START.LOCKSTEP = true → getF t .saf SAF_DIAG_LAST.CLASS = 9))) ∧
  (∀ (f : StageFind) (s : State), starting s = true → stage s = 13 → Yields (.startupStageComplete f) s (fun t =>
    if s.boot.ucodeRun.isSome then stage t = 14 ∧ t.boot.listened = 0 else t = s)) ∧
  (∀ s : State, Yields .listenEnd s (fun t =>
    if stage s ≠ 14 ∨ s.boot.listened < 3 then t = s
    else if pairRole s = 0 ∧ heardOwn s = true then stage t = 14 ∧ t.boot.listened = 1 ∧ intOf t .pair PAIR_INT.DOMAIN_CLASH = true
    else (pairRole s = 3 → peerUp s = false → pairRole t = if heardOwn s then 2 else 1) ∧
      (isSub s = false → pairRole s ≠ 3 ∨ peerUp s = false → stage t = 15)))

/-- Images and their slots (R87, R88, R90, R436, R437, R451). -/
def Obligations.ImageCommands : Prop :=
  (∀ (src : CmdSrc) (s : State), takes s .mgt src = true → Yields (.loadSlot src) s (fun t =>
    let o := latch .mgt 1 src s
    let i := o.a0.toNat
    if 3 < i ∨ argImageOk o 8193 = false then Completed t .mgt CODE.BAD_ARG ∧ t.sto = s.sto
    else if slotRuns s i = true ∨ slotState s i = SLOT.TRIAL then Completed t .mgt CODE.REFUSED ∧ t.sto = s.sto
    else Issued t .mgt o ∧ slotState t i = SLOT.EMPTY ∧ imageEmpty t i = true ∧ ∀ j : Fin 4, j.val ≠ i → slotState t j.val = slotState s j.val)) ∧
  (∀ (src : CmdSrc) (s : State), takes s .mgt src = true → Yields (.epfwImport src) s (fun t =>
    let o := latch .mgt 2 src s
    let i := o.a0.toNat
    if 255 < i ∨ argImageOk o 65536 = false then Completed t .mgt CODE.BAD_ARG ∧ t.sto = s.sto
    else if inCampaign s i then Completed t .mgt CODE.REFUSED ∧ t.sto = s.sto
    else Issued t .mgt o ∧ imageEmpty t (4 + i) = true)) ∧
  (∀ (src : CmdSrc) (s : State), takes s .mgt src = true → Yields (.epfwDelete src) s (fun t =>
    let i := (latch .mgt 3 src s).a0.toNat
    if 255 < i then Completed t .mgt CODE.BAD_ARG ∧ t.sto = s.sto
    else if inCampaign s i then Completed t .mgt CODE.REFUSED ∧ t.sto = s.sto
    else Completed t .mgt CODE.OK ∧ imageEmpty t (4 + i) = true ∧
      ∀ r l : Nat, r * 2 ^ 28 + l < REGION.EPFW * 2 ^ 28 + i * 65536 ∨ REGION.EPFW * 2 ^ 28 + (i + 1) * 65536 ≤ r * 2 ^ 28 + l →
        readBlock t r l = readBlock s r l)) ∧
  (∀ (src : CmdSrc) (s : State), takes s .boot src = true → Yields (.verifySlot src) s (fun t =>
    let o := latch .boot 2 src s
    t.sto = s.sto ∧ if 3 < o.a0.toNat then Completed t .boot CODE.BAD_ARG else Issued t .boot o)) ∧
  (∀ (src : CmdSrc) (s : State), takes s .boot src = true → Yields (.confirm src) s (fun t =>
    if trialSlots s = [] then Completed t .boot CODE.REFUSED else Completed t .boot CODE.OK ∧ trialSlots t = [] ∧
      (∀ i : Fin 4, slotState t i.val = if slotState s i.val = SLOT.TRIAL then SLOT.VALID else slotState s i.val) ∧
      ∀ i ∈ trialSlots s, getI s .boot BOOT_IMG.SVN i ≤ getF t .boot (if i < 2 then BOOT_MIN_SVN.MOD else BOOT_MIN_SVN.UCODE))) ∧
  (∀ (src : CmdSrc) (s : State), takes s .boot src = true → Yields (.enterTest src) s (fun t => killCauses t = killCauses s ∧
    if mode s = MODE.RECOVERY then Completed t .boot CODE.OK ∧ mode t = MODE.TEST else Completed t .boot CODE.REFUSED ∧ mode t = mode s))

/-- The event log and campaigns (R433–R435, R440, R451). -/
def Obligations.LogAndCampaigns : Prop :=
  (∀ s : State, s.log.buf = [] → exec .logFlush s = .next s) ∧
  (∀ (s : State) (r : LogRec), s.log.buf.getLast? = some r → Yields .logFlush s (fun t =>
    t.log.buf = [] ∧ getF t .mgt MGT_LOG_FLUSHED.VALUE = r.seq % 2 ^ 32 ∧ logAt t (r.seq % 2 ^ 28) = some r ∧
    (∀ k, (∀ e ∈ s.log.buf, e.seq % 2 ^ 28 ≠ k) → logAt t k = logAt s k) ∧ RegsBut [addr .mgt MGT_LOG_FLUSHED.VALUE.off, addr .mgt offStatus] s t)) ∧
  (∀ (src : CmdSrc) (s : State), takes s .mgt src = true → Yields (.logMark src) s (fun t =>
    let o := latch .mgt 6 src s
    Completed t .mgt CODE.OK ∧ (LogRoom s → Logged t 0x0684 0 [o.a0.toNat, o.a1.toNat, o.a2.toNat]))) ∧
  (∀ (src : CmdSrc) (s : State), takes s .mgt src = true → Yields (.campaignStart src) s (fun t =>
    let o := latch .mgt 4 src s
    let l := allPorts.filter (o.a1.toNat + getBits o.a2 19 0 * 2 ^ 32).testBit
    if 3 ≤ getBits o.a0 13 12 ∨ getBits o.a0 18 16 = 0 ∨ 4 < getBits o.a0 18 16 ∨ getBits o.a0 31 24 = 0 ∨ imageEmpty s (4 + getBits o.a0 7 0) = true ∨
        l = [] ∨ 16 < l.length ∨ l.any (fun p => !((port s p).declared && (port s p).nbEn)) = true then
      Completed t .mgt CODE.BAD_ARG ∧ t.mgt = s.mgt
    else if isSet s .mgt MGT_CAMP.ACTIVE then Completed t .mgt CODE.REFUSED ∧ t.mgt = s.mgt
    else Issued t .mgt o ∧ isSet t .mgt MGT_CAMP.ACTIVE = true ∧ getF t .mgt MGT_CAMP.IMAGE = getBits o.a0 7 0 ∧ getF t .mgt MGT_CAMP.GROUP = getBits o.a0 11 8 ∧
      getF t .mgt MGT_CAMP.BLOCK = 0 ∧ getF t .mgt MGT_CAMP_PASS.PASSES = getBits o.a0 31 24 ∧
      ∃ c, t.mgt.campaign = some c ∧ campaignPorts c = l ∧ c.hmax = getBits o.a0 18 16)) ∧
  (∀ (src : CmdSrc) (s : State), takes s .mgt src = true → Yields (.campaignStop src) s (fun t =>
    if isSet s .mgt MGT_CAMP.ACTIVE then Completed t .mgt CODE.OK ∧ t.mgt.campaign = none ∧ isSet t .mgt MGT_CAMP.ACTIVE = false ∧
      isSet t .mgt MGT_STATUS.CAMPAIGN = false ∧ intOf t .mgt MGT_INT.CAMPAIGN_END = true
    else Completed t .mgt CODE.REFUSED ∧ t.mgt = s.mgt)) ∧
  (∀ s : State, s.mgt.campaign = none ∨ s.time.running = false ∨ s.time.slot ≠ 512 → exec .campaignBlockDue s = .next s) ∧
  (∀ (s : State) (c : Campaign), s.mgt.campaign = some c → s.time.running = true → s.time.slot = 512 → s.pwr.state ≠ .run ∨ inService s = false →
    Yields .campaignBlockDue s (fun t => isSet t .mgt MGT_CAMP.PAUSED = true ∧ t.mgt = s.mgt ∧ RegsBut [addr .mgt MGT_CAMP.PAUSED.off] s t)) ∧
  (∀ (s : State) (c : Campaign), s.mgt.campaign = some c → s.time.running = true → s.time.slot = 512 → s.pwr.state = .run → inService s = true →
    Yields .campaignBlockDue s (fun t => t.plan.items = s.plan.items ∨ s.plan.items.length < t.plan.items.length))

/-- The superframe grid (R15, R63, R68, R183, R184, R201). -/
def Obligations.SuperframeGrid : Prop :=
  (∀ (noise : List NoiseReading) (h : TruHold) (s : State), s.time.running = false → exec (.superframeStart noise h) s = .next s) ∧
  (∀ (noise : List NoiseReading) (h : TruHold) (s : State), s.time.running = true → Yields (.superframeStart noise h) s (fun t =>
    sfn t = (sfn s + 1) % 2 ^ 32 ∧ t.time.slot = 0 ∧ t.time.sfStart = s.time.sfStart + 209715200 ∧ getF t .bcn BCN_STATUS.ROUND = (sfn s + 1) % 4 ∧
    intOf t .bcn BCN_INT.SF_START = true ∧ (∀ st, s.pwr.next = some st → t.pwr.state = st ∧ t.pwr.next = none) ∧
    (∀ n : Port, getF s (.lpt n) LPT_DECL.PENDING = 1 → getF t (.lpt n) LPT_DECL.PENDING = 0 ∧ (port t n.val).declared = isSet s (.lpt n) LPT_DECL.DECLARED) ∧
    (s.bcn.epoch = some ((sfn s + 1) % 2 ^ 32) → t.bcn.epoch = none ∧ getF t .bcn BCN_RU_MAP_CUR.RUS = getF s .bcn BCN_RU_MAP.RUS) ∧
    (stage s = 14 → t.boot.listened = s.boot.listened + 1))) ∧
  (∀ (n : Fin 1024) (s : State), Yields (.slotStart n) s (fun t =>
    if s.time.running = true ∧ s.time.slot < n.val then t.time = { s.time with slot := n.val } ∧ sfn t = sfn s else t = s)) ∧
  (∀ (w : List GrantWish) (s : State), s.time.running = false ∨ 512 < s.time.slot ∨ planFixed s = true → exec (.planFix w) s = .next s) ∧
  (∀ (w : List GrantWish) (s : State), s.time.running = true → s.time.slot ≤ 512 → planFixed s = false → Yields (.planFix w) s (fun t =>
    t.time.slot = 512 ∧ planFixed t = true ∧ sfn t = sfn s ∧ stage t = stage s ∧ t.pwr.state = s.pwr.state ∧
    (∀ it ∈ t.plan.items, it ∈ s.plan.items ∨ it.sfn = planSfn s) ∧
    (s.pwr.state = .outage → s.pwr.shutdown = false → source s = SRC.MAIN → t.pwr.next = some .run)))

/-- Downlink frames (R151, R228, R245, R276, R377–R382, R483–R486). -/
def Obligations.DownlinkFrames : Prop :=
  (∀ (r : Fin 16) (d : DlDesc) (s : State), ringPosted s r.val = false ∨ takesDown s = false → exec (.dlDescriptorTaken r d) s = .next s) ∧
  (∀ (r : Fin 16) (d : DlDesc) (s : State), ringPosted s r.val = true → takesDown s = true → outstanding s .pci = none → Yields (.dlDescriptorTaken r d) s (fun t =>
    getI t .pci PCI_RING.SQ_CONS r.val = (getI s .pci PCI_RING.SQ_CONS r.val + 1) % 2 ^ 32 ∧
    (d.len.toNat = 0 ∨ 16381 < d.len.toNat ∨ 2 < d.wave.toNat → t.mac.frames = s.mac.frames ∧
      t.link.done = s.link.done ++ [⟨some r.val, none, d.cookie.toNat, DST.BAD_DESC, 0, sfn s⟩]) ∧
    (0 < d.len.toNat → d.len.toNat ≤ 16381 → d.wave.toNat ≤ 2 → d.data.isSome = true →
      (tableSize ≤ d.index.toNat ∨ (ctx s d.index.toNat).state ≠ CST.ACTIVE → t.mac.frames = s.mac.frames ∧
        t.link.done = s.link.done ++ [⟨some r.val, none, d.cookie.toNat, DST.NOT_ASSOC, 0, sfn s⟩]) ∧
      (d.index.toNat < tableSize → (ctx s d.index.toNat).state = CST.ACTIVE → getF s .pci PCI_DL_CFG.PER_EP ≤ heldFor s d.index.toNat →
        t.mac.frames = s.mac.frames ∧ t.link.done = s.link.done ++ [⟨some r.val, none, d.cookie.toNat, DST.EP_BUSY, 0, sfn s⟩])))) ∧
  (∀ (n : Nat) (s : State) (f : Frame), frameOf s n = some f → f.stage = .waitAck → reached s f.due = true → Yields (.retransmitTimeout n) s (fun t =>
    (f.sends ≤ 3 → frameOf t n = some { f with stage := .ready, waits := 0, due := sfn s }) ∧
    (3 < f.sends → f.kind ≠ .repeater → frameOf t n = none ∧ ∀ r, f.ring = some r →
      t.link.done = s.link.done ++ [⟨some r, f.lane, f.cookie, DST.NO_ACK, f.sends, sfn s⟩]))) ∧
  (∀ (n : Nat) (s : State) (f : Frame), frameOf s n = some f → f.stage ≠ .waitAck ∨ reached s f.due = false → exec (.retransmitTimeout n) s = .next s) ∧
  (∀ (n : Nat) (s : State) (f : Frame), frameOf s n = some f → f.sf2 = true → f.stage = .queued →
    Yields (.sf2Recheck n false) s (fun t => frameOf t n = none ∧ ∀ r, f.ring = some r →
      t.link.done = s.link.done ++ [⟨some r, f.lane, f.cookie, DST.SAFETY, f.sends, sfn s⟩]) ∧
    Yields (.sf2Recheck n true) s (fun t => (frameOf t n).isSome = true → ∀ g, frameOf t n = some g → g.rechecked = true)) ∧
  (∀ (n : Nat) (ok : Bool) (s : State) (f : Frame), frameOf s n = some f → f.sf2 = false ∨ f.stage ≠ .queued → exec (.sf2Recheck n ok) s = .next s) ∧
  (∀ (n : Nat) (ok : Bool) (s : State), frameOf s n = none → exec (.sf2Recheck n ok) s = .next s ∧ exec (.retransmitTimeout n) s = .next s) ∧
  (∀ s : State, outstanding s .pci = none → outstanding s .pair = none → Yields .dlCompletion s (fun t =>
    t.link.done = s.link.done.tail ∧ t.mac.frames = s.mac.frames ∧ (s.link.done = [] → t = s) ∧
    ∀ d, s.link.done.head? = some d → ∀ r, d.ring = some r → r ≠ lostRing →
      getF t .pci PCI_DL_DONE_CNT.COUNT = min (getF s .pci PCI_DL_DONE_CNT.COUNT + 1) 0xFFFFFFFF)) ∧
  (∀ (a : CtxIndex) (snr : List Nat) (s : State), Yields (.tmapPeriodExpiry a snr) s (fun t =>
    if (ctx s a.toNat).state = CST.ACTIVE ∧ (ctx s a.toNat).bb = true ∧ (ctx s a.toNat).session = false then
      ∀ e, linkMap t a.toNat false 0 = some e → e.fresh.isSome = true ∧ e.sentAt = sfn s ∧ t.mac.frames.length = s.mac.frames.length + 1
    else t = s)) ∧
  (∀ s : State, exec .floodKeyExpiry s = .next { s with mac := { s.mac with floods := s.mac.floods.filter (fun k => decide (nowStartSlot s < k.until_)) } })

/-- The memory banks (R303–R305, R307, R308, R310, R312–R318). -/
def Obligations.CommonsMemory : Prop :=
  (∀ (off : BitVec 24) (n w : Nat) (s : State), winShape off.toNat n = true → Yields (.windowAccess off (.read n) .clean none w) s (fun t =>
    t.emits.head? = some (.window (busBytes s (winAddr s off.toNat) n)) ∧ t.mem.bytes = s.mem.bytes)) ∧
  (∀ (off : BitVec 24) (n w : Nat) (e : ReadErr) (c : Option Collision) (s : State),
    (winShape off.toNat n = false → Yields (.windowAccess off (.read n) e c w) s (fun t =>
      t.emits.head? = some (.window (List.replicate n 0xFF)) ∧ intOf t .mem INT.ACCESS = true ∧ t.mem = s.mem)) ∧
    Yields (.windowAccess off (.gappedRead n) e c w) s (fun t =>
      t.emits.head? = some (.window (List.replicate n 0xFF)) ∧ intOf t .mem INT.ACCESS = true ∧ t.mem = s.mem) ∧
    Yields (.windowAccess off .gappedWrite e c w) s (fun t => intOf t .mem INT.ACCESS = true ∧ t.mem = s.mem)) ∧
  (∀ (off : BitVec 24) (l : List Byte) (w : Nat) (s : State), Yields (.windowAccess off (.write l) .clean none w) s (fun t =>
    let a := winAddr s off.toNat
    if winShape off.toNat l.length = true ∧ winWritable s a l.length = true then
      (∀ x, x < a ∨ a + l.length ≤ x → byteAt t x = byteAt s x) ∧
      ∀ i : Fin 256, i.val < l.length → byteAt t (a + i.val) = if bankPower s (bankOf (a + i.val)) = 2 then byteAt s (a + i.val) else l.getD i.val 0
    else intOf t .mem INT.ACCESS = true ∧ t.mem = s.mem)) ∧
  (∀ (acc : WinAccess) (s : State), Yields (.windowGrantTimeout acc) s (fun t => t.mem = s.mem ∧
    (isSet s .mem MEM_STATUS.ARB_NORMAL = true → intOf t .mem INT.ACCESS = true) ∧ (isSet s .mem MEM_STATUS.ARB_NORMAL = false → t = s))) ∧
  (∀ (b : Bank) (v : Word) (s : State), Yields (.membPowerWrite b v) s (fun t =>
    if getBits v 1 0 = 3 then t.mem = s.mem ∧ RegsBut [addr (.memb b) offErrCnt, addr (.memb b) offIntStat] s t
    else if getBits v 1 0 ≠ 0 ∧ powerBank b.val = false then intOf t (.memb b) MEMB_INT.POWER_REFUSED = true ∧ RegsBut [addr (.memb b) offIntStat] s t
    else getF t (.memb b) MEMB_POWER.STATE = getBits v 1 0 ∧ (bankPower s b ≠ 2 → bankPower t b = getBits v 1 0) ∧
      (getBits v 1 0 = 2 → bankPower t b = 2 ∧ ∀ e ∈ t.mem.bytes, e.1 / 0x40000 ≠ b.val) ∧
      (bankPower s b = 2 → getBits v 1 0 ≠ 2 → bankPower t b = 0 ∧ (bank t b.val).zeroing = true))) ∧
  (∀ (b : Bank) (s : State), Yields (.bankRetentionReturn b) s (fun t =>
    if getF s (.memb b) MEMB_POWER.STATE = 1 ∧ bankPower s b = 0 ∧ (bank s b.val).zeroing = false then
      bankPower t b = 1 ∧ t.mem = s.mem ∧ RegsBut [addr (.memb b) offStatus] s t else t = s)) ∧
  (∀ (b : Bank) (s : State), Yields (.bankZeroed b) s (fun t => bank t b.val = { bank s b.val with zeroing := false } ∧ t.mem.bytes = s.mem.bytes ∧ RegsBut [] s t)) ∧
  (∀ (n : Nat) (s : State), Yields (.badgerStripe [] n) s (fun t => t.mem.bytes = s.mem.bytes ∧ isSet t .mem MEM_STATUS.BADGER_RUN = badgerOn s ∧
    (badgerOn s = true → badgerBank s (getF s .mem MEM_BADGER_POS.BANK) = true → getF s .mem MEM_BADGER_POS.STRIPE < 511 →
      getF t .mem MEM_BADGER_POS.BANK = getF s .mem MEM_BADGER_POS.BANK ∧ getF t .mem MEM_BADGER_POS.STRIPE = getF s .mem MEM_BADGER_POS.STRIPE + 1))) ∧
  (∀ (k : Fin 64) (s : State), Yields (.badgerYield k []) s (fun t => t.mem.bytes = s.mem.bytes ∧ isSet t .mem MEM_STATUS.BADGER_RUN = badgerOn s ∧
    (badgerOn s = true → getF t .mem MEM_BADGER_YIELD_CNT.COUNT = min (getF s .mem MEM_BADGER_YIELD_CNT.COUNT + 1) 0xFFFFFFFF))) ∧
  (∀ (b : Bank) (src : CmdSrc) (s : State), takes s (.memb b) src = true → Yields (.softRepair b src) s (fun t =>
    let o := latch (.memb b) 1 src s
    let col := o.a0.toNat
    if 71 < col then Completed t (.memb b) CODE.BAD_ARG ∧ t.mem = s.mem
    else if bankPower s b ≠ 0 then Completed t (.memb b) CODE.REFUSED ∧ t.mem = s.mem
    else if columnRepaired s b col then Completed t (.memb b) 0x81 ∧ t.mem = s.mem
    else if walking s b col then Issued t (.memb b) o ∧ t.mem = s.mem
    else if (freeSpare s b).isNone then Completed t (.memb b) 0x80 ∧ t.mem = s.mem
    else Issued t (.memb b) o ∧ walking t b col = true)) ∧
  (∀ (b : Bank) (s : State), (bank s b.val).walks = [] → exec (.softRepairWalkEnd b) s = .next s) ∧
  (∀ (b : Bank) (s : State) (w : Nat × Nat), (bank s b.val).walks.head? = some w → w.1 < 72 → w.2 < 2 → Yields (.softRepairWalkEnd b) s (fun t =>
    spareUsed t b w.2 = true ∧ spareColumn t b w.2 = w.1 ∧ (bank t b.val).walks = (bank s b.val).walks.tail ∧ intOf t (.memb b) MEMB_INT.REPAIRED = true)) ∧
  (∀ s : State, Yields .fuseBurnDone s (fun t =>
    if isSet s .mem MEM_STATUS.FUSE_BUSY = false then t = s
    else isSet t .mem MEM_STATUS.FUSE_BUSY = false ∧ intOf t .mem MEM_INT.FUSE_DONE = true ∧ getF t .mem MEM_FUSE_REQ.ARM = 0 ∧
      (if fusedSpare s (Fin.ofNat 128 (getF s .mem MEM_FUSE_REQ.BANK)) (getF s .mem MEM_FUSE_REQ.SPARE) then
        getF t .mem MEM_FUSE_STAT.RESULT = 3 ∧ t.mem = s.mem
      else t.mem.fuses = s.mem.fuses ++ [(getF s .mem MEM_FUSE_REQ.BANK % 128, getF s .mem MEM_FUSE_REQ.SPARE, getF s .mem MEM_FUSE_REQ.COLUMN)]))) ∧
  (∀ (v : Word) (s : State), Yields (.memCntSelWrite v) s (fun t =>
    if 55 < getBits v 5 0 then RegsBut [addr .mem offErrCnt, addr .mem offIntStat] s t
    else getF t .mem MEM_CNT_SEL.MASTER = getBits v 5 0 ∧ getF t .mem MEM_CNT_BUSY.COUNT = (conflict s (getBits v 5 0)).busy % 2 ^ 32 ∧
      getF t .mem MEM_CNT_WAIT.COUNT = (conflict s (getBits v 5 0)).wait % 2 ^ 32)) ∧
  (∀ (src : CmdSrc) (s : State), takes s .mem src = true → Yields (.clearConflicts src) s (fun t =>
    Completed t .mem CODE.OK ∧ ∀ m, conflict t m = ⟨0, 0⟩)) ∧
  (∀ (src : CmdSrc) (s : State), takes s .mem src = true → Yields (.testBank src) s (fun t => t.mem = s.mem ∧
    if 127 < (latch .mem 2 src s).a0.toNat then Completed t .mem CODE.BAD_ARG
    else if mode s ≠ MODE.TEST then Completed t .mem CODE.REFUSED else Issued t .mem (latch .mem 2 src s)))

/-- Cipher jobs, faults and the CIP page (R321, R328, R333, R336, R338, R342, R343). -/
def Obligations.CipherJobs : Prop :=
  (∀ (r : Fin 18) (s : State), jobsOf s r.val = [] → exec (.cipherJobTaken r) s = .next s) ∧
  (∀ (r : Fin 18) (s : State), openPipes s ≠ [] → pickHold s = none → exec (.cipherJobTaken r) s = .next s) ∧
  (∀ (r : Fin 18) (s : State), jobsOf s r.val ≠ [] → openPipes s ≠ [] → ∀ x, pickHold s = some x → Yields (.cipherJobTaken r) s (fun t =>
    jobsOf t r.val = (jobsOf s r.val).tail ∧ ∃ h, heldAt t x.1 x.2 = some h ∧ h.ring = r.val ∧ some h.job.seq = (jobsOf s r.val).head?.map (·.seq))) ∧
  (∀ (p : Fin 2) (k : Fin 8) (ecc : Bool) (s : State), heldAt s p.val k.val = none → exec (.cipherJobComplete p k ecc) s = .next s ∧
    exec (.reserveWaitTimeout p k) s = .next s) ∧
  (∀ (p : Fin 2) (k : Fin 8) (ecc : Bool) (s : State) (h : Held), heldAt s p.val k.val = some h →
    Yields (.cipherJobComplete p k ecc) s (fun t => if h.waiting then t = s else
      heldAt t p.val k.val = none ∧ getF t .cip CIP_JOB_CNT.COUNT = min (getF s .cip CIP_JOB_CNT.COUNT + 1) 0xFFFFFFFF) ∧
    Yields (.reserveWaitTimeout p k) s (fun t => if h.waiting then heldAt t p.val k.val = none else t = s)) ∧
  (∀ (r : Fin 18) (q : Word) (s : State), Yields (.cipherJobAbandon r q) s (fun t =>
    if (jobsOf s r.val).all (fun j => decide (j.seq ≠ q.toNat)) then
      (if s.cip.held.all (fun h => decide (h.ring ≠ r.val) || decide (h.job.seq ≠ q.toNat)) then t = s
       else ∀ h, s.cip.held.find? (fun h => decide (h.ring = r.val) && decide (h.job.seq = q.toNat)) = some h → heldAt t h.pipe h.slot = none)
    else getF t .cip CIP_JOB_CNT.COUNT = min (getF s .cip CIP_JOB_CNT.COUNT + 1) 0xFFFFFFFF)) ∧
  (∀ (p : Fin 2) (k : Fin 8) (s : State), Yields (.cipherParityError p k) s (fun t =>
    intOf t .cip CIP_INT.PARITY = true ∧ getF t .saf SAF_DIAG_LAST.CLASS = 5 ∧ heldAt t p.val k.val = none ∧
    (3 ≤ ((recentParity s p.val).filter (fun e => decide (e.1 = p.val))).length → t.cip.out.testBit p.val = true))) ∧
  (∀ s : State, Yields .drbgHealthFail s (fun t => isSet t .cip CIP_STATUS.DRBG_OK = false ∧ getF t .cip CIP_STATUS.FAULT_CAUSE = 3 ∧ pageFault t .cip = true ∧
    RegsBut [addr .cip offStatus] s t)) ∧
  (∀ (src : CmdSrc) (s : State), takes s .cip src = true → Yields (.testJob src) s (fun t =>
    let o := latch .cip 1 src s
    let j := parseDesc (busBytes s o.a0.toNat 64)
    if inHostArea o.a0.toNat 64 = false ∨ j.sel ≠ SEL.TEST ∨ (testAreas j).all (fun x => inHostArea x.1 x.2) = false then
      Completed t .cip CODE.BAD_ARG ∧ t.cip = s.cip
    else Issued t .cip o ∧ (jobsOf t 17).length = (jobsOf s 17).length + 1)) ∧
  (∀ (src : CmdSrc) (s : State), takes s .cip src = true → Yields (.selfTest src) s (fun t => Issued t .cip (latch .cip 2 src s) ∧ t.cip = s.cip)) ∧
  (∀ (src : CmdSrc) (s : State), takes s .cip src = true → Yields (.zeroTestKey src) s (fun t => Completed t .cip CODE.OK ∧ t.cip.testKey = [] ∧
    isSet t .cip CIP_TEST_CTL.LOADED = false ∧ ∀ i : Fin 8, getI t .cip CIP_TEST_KEY.KEY i.val = 0)) ∧
  (∀ (v : Word) (s : State), Yields (.cipTestCtlWrite v) s (fun t =>
    isSet t .cip CIP_TEST_CTL.KEY256 = v.toNat.testBit CIP_TEST_CTL.KEY256.lo ∧
    (isSet t .cip CIP_TEST_CTL.KEY256 ≠ isSet s .cip CIP_TEST_CTL.KEY256 → t.cip.testKey = [] ∧ isSet t .cip CIP_TEST_CTL.LOADED = false))) ∧
  (∀ (i : Fin 8) (v : Word) (s : State), Yields (.cipTestKeyWrite i v) s (fun t =>
    getI t .cip CIP_TEST_KEY.KEY i.val = v.toNat ∧
    (i.val + 1 = (if isSet s .cip CIP_TEST_CTL.KEY256 then 8 else 4) → isSet t .cip CIP_TEST_CTL.LOADED = true ∧
      t.cip.testKey = (List.range (i.val + 1)).flatMap (fun k => beBytes 4 (getI t .cip CIP_TEST_KEY.KEY k))) ∧
    (i.val + 1 ≠ (if isSet s .cip CIP_TEST_CTL.KEY256 then 8 else 4) → isSet s .cip CIP_TEST_CTL.LOADED = false → t.cip.testKey = s.cip.testKey)))

/-- PCIe and the rings (R377, R378, R380, R383, R385, R387, R389). -/
def Obligations.HostRings : Prop :=
  (∀ (r : Fin 32) (v : Word) (s : State), Yields (.sqProdDoorbell r v []) s (fun t =>
    if 28 < r.val then t = s
    else if ringSize s r.val < sfnDiff (getI s .pci PCI_RING.SQ_CONS r.val) v.toNat then ringErr t r.val = true ∧ (ringErr s r.val = true → t = s)
    else (ring t r.val).sqProd = v.toNat ∧ (ring t r.val).cqCons = (ring s r.val).cqCons ∧ RegsBut [] s t)) ∧
  (∀ (r : Fin 32) (v : Word) (s : State), Yields (.cqConsDoorbell r v) s (fun t =>
    if 28 < r.val then t = s else (ring t r.val).cqCons = v.toNat ∧ (ring t r.val).sqProd = (ring s r.val).sqProd)) ∧
  (∀ (r : Fin 29) (s : State), Yields (.ringDmaError r) s (fun t =>
    ringErr t r.val = true ∧ (ringErr s r.val = true → t = s) ∧ (ringErr s r.val = false → intOf t .pci PCI_INT.RING_ERROR = true))) ∧
  (∀ (r : Fin 29) (s : State), Yields (.ringCoalesceExpiry r) s (fun t =>
    if (ring s r.val).pend = 0 ∨ ringUp s r.val = false then t = s else (ring t r.val).pend = 0 ∧ t.emits.length ≤ s.emits.length + 1 ∧ RegsBut [] s t)) ∧
  (∀ (v : Fin 64) (s : State), Yields (.msixUnmask v) s (fun t =>
    t.msixMask.testBit v.val = false ∧ t.msixPba.testBit v.val = false ∧
    (∀ k : Fin 64, k ≠ v → t.msixMask.testBit k.val = s.msixMask.testBit k.val ∧ t.msixPba.testBit k.val = s.msixPba.testBit k.val) ∧
    (s.msixPba.testBit v.val = true → t.emits.head? = some (.msix v.val)) ∧ (s.msixPba.testBit v.val = false → t.emits = s.emits) ∧ RegsBut [] s t)) ∧
  (∀ (r : Fin 8) (k : BitVec 64) (s : State), ringPosted s (16 + r.val) = false → exec (.ulDelivery r k) s = .next s) ∧
  (∀ (r : Fin 8) (k : BitVec 64) (s : State), ringPosted s (16 + r.val) = true →
    (s.link.hold.find? (fun f => decide (ulRing s f.index = r.val)) = none → exec (.ulDelivery r k) s = .next s) ∧
    ∀ f, s.link.hold.find? (fun f => decide (ulRing s f.index = r.val)) = some f → Yields (.ulDelivery r k) s (fun t =>
      t.link.hold = s.link.hold.erase f ∧ getF t .pci PCI_UL_DONE_CNT.COUNT = min (getF s .pci PCI_UL_DONE_CNT.COUNT + 1) 0xFFFFFFFF ∧
      getI t .pci PCI_RING.SQ_CONS (16 + r.val) = (getI s .pci PCI_RING.SQ_CONS (16 + r.val) + 1) % 2 ^ 32)) ∧
  (∀ s : State, (ring s 28).lost = 0 → Yields .eventRecordDelivery s (fun t =>
    (s.link.events = [] → t = s) ∧ t.link.events = s.link.events.tail ∧
    (s.link.events ≠ [] → eventRoom s = false → (ring t 28).lost = 1 ∧ intOf t .pci PCI_INT.EVENT_LOST = true ∧
      getF t .pci PCI_EVT_LOST_CNT.COUNT = min (getF s .pci PCI_EVT_LOST_CNT.COUNT + 1) 0xFFFFFFFF))) ∧
  (∀ (src : CmdSrc) (s : State), takes s .pci src = true → Yields (.ringReset src) s (fun t =>
    let r := (latch .pci 1 src s).a0.toNat
    if 28 < r then Completed t .pci CODE.BAD_ARG
    else if ringBusy s r then Issued t .pci (latch .pci 1 src s) ∧ t.mac.frames.any (fun f => decide (f.ring = some r) && !onLine f) = false
    else Completed t .pci CODE.OK ∧ getI t .pci PCI_RING.EN r = 0 ∧ getI t .pci PCI_RING.SQ_CONS r = 0 ∧ ring t r = RingSt.empty)) ∧
  (∀ (up : Bool) (w g : BitVec 4) (m : Bool) (s : State), Yields (.pcieLinkChange up w g m) s (fun t =>
    isSet t .pci PCI_STATUS.LINK_UP = up ∧ isSet t .pci PCI_STATUS.BUS_MASTER = (up && m) ∧ getF t .pci PCI_STATUS.WIDTH = (if up then w.toNat else 0) ∧
    getF t .pci PCI_STATUS.SPEED = (if up then g.toNat else 0) ∧ (isSet s .pci PCI_STATUS.LINK_UP ≠ up → intOf t .pci PCI_INT.LINK_CHANGE = true) ∧
    RegsBut [addr .pci PCI_STATUS.LINK_UP.off, addr .pci offIntStat] s t))

/-- Lanes and the pair (R69, R366–R369, R375, R402–R414). -/
def Obligations.LanesAndPair : Prop :=
  (∀ (l : Lane) (s : State), Yields (.laneUp (.bh l)) s (fun t =>
    if (inOutage s = true ∧ laneKept s (.bh l) = false) ∨ laneUp s l.val = true ∨ isSet s (.lan l) LAN_CFG.EN = false then t = s
    else laneUp t l.val = true ∧ isSet t (.lan l) LAN_STATUS.BLOCK_LOCK = true ∧ intOf t (.lan l) LAN_INT.UP = true)) ∧
  (∀ (m : MLane) (s : State), Yields (.laneUp (.pm m)) s (fun t =>
    if (inOutage s = true ∧ laneKept s (.pm m) = false) ∨ isSet s (.lanm m) LANM_STATUS.UP = true ∨ isSet s (.lanm m) LANM_CFG.EN = false then t = s
    else isSet t (.lanm m) LANM_STATUS.UP = true ∧ intOf t (.lanm m) LANM_INT.UP = true ∧ RegsBut [addr (.lanm m) offStatus, addr (.lanm m) offIntStat] s t)) ∧
  (∀ (l : Lane) (hi busy : Bool) (s : State), Yields (.laneDown (.bh l) hi busy) s (fun t =>
    if laneUp s l.val then laneUp t l.val = false ∧ intOf t (.lan l) LAN_INT.DOWN = true ∧ isSet t (.lan l) LAN_STATUS.PAUSED = false ∧ (lane t l.val).wait = [] else t = s)) ∧
  (∀ (m : MLane) (hi busy : Bool) (s : State), Yields (.laneDown (.pm m) hi busy) s (fun t =>
    if isSet s (.lanm m) LANM_STATUS.UP then isSet t (.lanm m) LANM_STATUS.UP = false ∧ intOf t (.lanm m) LANM_INT.DOWN = true else t = s)) ∧
  (∀ (l : Lane) (q : BitVec 16) (s : State), Yields (.pauseReceived l q) s (fun t =>
    if laneUp s l.val = false then t = s
    else intOf t (.lan l) LAN_INT.PAUSE = true ∧
      if isSet s (.lan l) LAN_CFG.PAUSE_EN = false then isSet t (.lan l) LAN_STATUS.PAUSED = isSet s (.lan l) LAN_STATUS.PAUSED
      else if q.toNat = 0 then isSet t (.lan l) LAN_STATUS.PAUSED = false ∧ (lane t l.val).wait = []
      else isSet t (.lan l) LAN_STATUS.PAUSED = true ∧ (lane t l.val).until_ = slotTime s + ceilDiv (q.toNat * 1024) 100)) ∧
  (∀ (l : Lane) (f : LaneRx) (s : State), Yields (.tunnelFrameReceived l f) s (fun t =>
    (laneUp s l.val = false → t = s) ∧
    (laneUp s l.val = true → f.fcsOk = false → intOf t (.lan l) LAN_INT.RX_ERR = true ∧
      getF t (.lan l) LAN_FCS_ERR_CNT.COUNT = min (getF s (.lan l) LAN_FCS_ERR_CNT.COUNT + 1) 0xFFFFFFFF) ∧
    (laneUp s l.val = true → f.fcsOk = true → f.etype.toNat ≠ 0x8808 → f.etype.toNat ≠ 0x88F7 → tunnelFor s l.val f = false ∨ f.data.length < 24 →
      intOf t (.lan l) LAN_INT.RX_ERR = true ∧ getF t (.lan l) LAN_RX_DROP_CNT.COUNT = min (getF s (.lan l) LAN_RX_DROP_CNT.COUNT + 1) 0xFFFFFFFF ∧
      RegsBut [addr (.lan l) LAN_RX_DROP_CNT.COUNT.off, addr (.lan l) offIntStat] s t))) ∧
  (∀ (l : Lane) (v : List Byte) (a b : BitVec 64) (s : State),
    laneUp s l.val = false ∨ getI s .tru REF_CFG.EN 5 = 0 ∨ l.val ≠ ptpLane s ∨ v.length < 44 → exec (.ptpMessage l v a b) s = .next s) ∧
  (∀ (l : Lane) (v : List Byte) (a b : BitVec 64) (s : State), laneUp s l.val = true → getI s .tru REF_CFG.EN 5 ≠ 0 → l.val = ptpLane s → 44 ≤ v.length →
    beAt v 0 1 % 16 = 0 → beAt v 1 1 % 16 = 2 → beAt v 4 1 = getF s (.lan l) LAN_PTP.DOMAIN → masterPort s = some (beAt v 20 10) →
    (beAt v 6 1).testBit 1 = false → Yields (.ptpMessage l v a b) s (fun t =>
      isSet t (.lan l) LAN_STATUS.PTP_SLAVE = true ∧ t.link.ptp.lastSync = some (sfn s) ∧ t.link.ptp.t1 = stampAt v 34 + ptpCorr v ∧
      t.link.ptp.t2 = signedOf 64 a.toNat)) ∧
  (∀ s : State, Yields .heartbeatSend s (fun t =>
    if s.pair.paired = true ∧ mirrorLanes s ≠ [] then t.pair.seq = s.pair.seq + 1 ∧ t.mac = s.mac else t = s)) ∧
  (∀ s : State, Yields .truStateSend s (fun t => if pairRole s = 1 ∧ peerUp s = true ∧ s.pair.paired = true ∧ mirrorLanes s ≠ [] then t.pair.seq = s.pair.seq + 1 ∧ t.tru = s.tru else t = s)) ∧
  (∀ (l : MLane) (fcs tag : Bool) (m : MirrorMsg) (a : BitVec 64) (s : State), Yields (.mirrorFrameReceived l fcs tag m a) s (fun t =>
    if isSet s (.lanm l) LANM_STATUS.UP = false ∨ s.pair.paired = false then t = s
    else if fcs = false then getF t (.lanm l) LANM_FCS_ERR_CNT.COUNT = min (getF s (.lanm l) LANM_FCS_ERR_CNT.COUNT + 1) 0xFFFFFFFF ∧ t.pair = s.pair
    else getF t (.lanm l) LANM_RX_CNT.COUNT = min (getF s (.lanm l) LANM_RX_CNT.COUNT + 1) 0xFFFFFFFF ∧
      (tag = false → intOf t .pair PAIR_INT.MIRROR_ERR = true ∧ t.pair = s.pair) ∧ (tag = true → m.start.toNat < s.pair.peerStart → t.pair = s.pair))) ∧
  (∀ s : State, Yields .mirrorSeqGapExpiry s (fun t => if s.pair.ahead = [] then t = s else t.pair.ahead.length < s.pair.ahead.length)) ∧
  (∀ s : State, Yields .heartbeatLoss s (fun t => if peerUp s = false then t = s
    else peerUp t = false ∧ intOf t .pair PAIR_INT.PEER_LOST = true ∧ getF t .pair PAIR_HB_MISS_CNT.COUNT = min (getF s .pair PAIR_HB_MISS_CNT.COUNT + 5) 0xFFFFFFFF ∧
      t.pair.swapAt = none ∧ ∀ o, outstanding s .pair = some o → o.opcode = 1 → Completed t .pair CODE.REFUSED)) ∧
  (∀ (h : TruHold) (s : State), Yields (.takeover h) s (fun t => if mayTakeOver s = false then t = s
    else pairRole t = 1 ∧ isSet t .pair PAIR_STATUS.HOLD_OFF = false ∧ getF t .pair PAIR_EPOCH.VALUE = (getF s .pair PAIR_EPOCH.VALUE + 1) % 2 ^ 32 ∧
      intOf t .pair PAIR_INT.TAKEOVER = true ∧ t.mgt.campaign = none ∧ ∀ g : Fin 16, groupSlot t g.val = stepCounter (groupSlot s g.val))) ∧
  (∀ (src : CmdSrc) (s : State), takes s .pair src = true → Yields (.handover src) s (fun t =>
    if pairRole s ≠ 1 then Completed t .pair CODE.REFUSED ∧ t.pair = s.pair
    else if pairSync s ≠ 2 then Completed t .pair 0x80 ∧ t.pair = s.pair
    else getBits (reg t (addr .pair offCmdStat)) 31 31 = 1 ∧ t.pair.drainSfn = sfn s ∧
      (drained s = true → t.pair.swapAt = some ((sfn s + (if s.time.slot < 512 then 1 else 2)) % 2 ^ 32)) ∧ (drained s = false → t.pair.swapAt = s.pair.swapAt))) ∧
  (∀ s : State, outstanding s .pair = none → exec .handoverDrainTimeout s = .next s) ∧
  (∀ (s : State) (o : Outstanding), outstanding s .pair = some o → Yields .handoverDrainTimeout s (fun t =>
    if o.opcode = 1 ∧ o.phase = 0 ∧ reached s (s.pair.drainSfn + 64) = true then Completed t .pair CODE.TIMEOUT ∧ t.pair = s.pair else t = s)) ∧
  (∀ (src : CmdSrc) (s : State), takes s .pair src = true → Yields (.resync src) s (fun t =>
    if pairRole s ≠ 1 ∨ peerUp s = false then Completed t .pair CODE.REFUSED ∧ t.pair = s.pair
    else Completed t .pair CODE.OK ∧ pairSync t = 1 ∧ t.pair.syncSeq = some (t.pair.seq - 1)))

/-- Serial ports (R454–R460, R467, R469). -/
def Obligations.SerialPorts : Prop :=
  (∀ (n : Serial) (c : SerChar) (s : State), receiverOn s n = false → exec (.serCharacterReceived n c) s = .next s) ∧
  (∀ (n : Serial) (c : SerChar) (s : State), receiverOn s n = true → n.val < 2 → getBits (formatOf s n c.old).1 29 28 = 0 →
    getBits (formatOf s n c.old).1 25 25 = 0 → Yields (.serCharacterReceived n c) s (fun t =>
      if isSet s (.ser n) SER_STATUS.RX_FULL then isSet t (.ser n) SER_RX.OVR = true ∧ intOf t (.ser n) SER_INT.OVERRUN = true ∧
        getF t (.ser n) SER_RX.DATA = getF s (.ser n) SER_RX.DATA ∧
        getF t (.ser n) SER_OVR_CNT.COUNT = min (getF s (.ser n) SER_OVR_CNT.COUNT + 1) 0xFFFFFFFF
      else isSet t (.ser n) SER_STATUS.RX_FULL = true ∧ getF t (.ser n) SER_RX.DATA = c.data.toNat ∧ isSet t (.ser n) SER_RX.FE = c.fe ∧
        intOf t (.ser n) SER_INT.RX_FULL = true ∧ getF t (.ser n) SER_RX_CNT.COUNT = min (getF s (.ser n) SER_RX_CNT.COUNT + 1) 0xFFFFFFFF)) ∧
  (∀ (n : Serial) (c : SerChar) (s : State), receiverOn s n = true → n.val < 2 → getBits (formatOf s n c.old).1 28 25 = 8 → c.fe = false →
    c.data = 0x13#8 ∨ c.data = 0x11#8 → Yields (.serCharacterReceived n c) s (fun t =>
      isSet t (.ser n) SER_STATUS.HELD = decide (c.data = 0x13#8) ∧ RegsBut [addr (.ser n) offStatus] s t)) ∧
  (∀ (n : Serial) (s : State), Yields (.serRxRead n (tarlumOwns s n)) s (fun t =>
    isSet t (.ser n) SER_STATUS.RX_FULL = false ∧ reg t (addr (.ser n) SER_RX.VALID.off) = 0 ∧
    RegsBut [addr (.ser n) offStatus, addr (.ser n) SER_RX.VALID.off] s t ∧
    (tarlumOwns s n = false → t.emits.head? = some (.read (reg s (addr (.ser n) SER_RX.VALID.off)))))) ∧
  (∀ (n : Serial) (s : State), Yields (.serRxRead n (!tarlumOwns s n)) s (fun t => RegsBut [] s t ∧ (tarlumOwns s n = true → t.emits.head? = some (.read 0)))) ∧
  (∀ (n : Serial) (v : Word) (b : Bool) (s : State), Yields (.serTxWrite n v b) s (fun t =>
    if b = tarlumOwns s n ∧ isSet s (.ser n) SER_STATUS.TX_EMPTY = true then (serial t n.val).hold = some (BitVec.ofNat 8 (getBits v 7 0)) ∧
      isSet t (.ser n) SER_STATUS.TX_EMPTY = false ∧ RegsBut [addr (.ser n) offStatus] s t
    else t.ser = s.ser ∧ RegsBut [addr (.ser n) offErrCnt, addr (.ser n) offIntStat] s t)) ∧
  (∀ (n : Serial) (d : Byte) (s : State), outstanding s (.ser n) = none → (serial s n.val).hold = some d → serialOn s = true → isSet s (.ser n) SER_CFG.EN = true →
    isSet s (.ser n) SER_STATUS.HELD = false → (serial s n.val).low = false → Yields (.serTxShiftLoad n false) s (fun t =>
      (serial t n.val).shift = some d ∧ (serial t n.val).hold = none ∧ isSet t (.ser n) SER_STATUS.TX_EMPTY = true ∧ intOf t (.ser n) SER_INT.TX_EMPTY = true)) ∧
  (∀ (n : Serial) (s : State), outstanding s (.ser n) = none → (serial s n.val).hold = none → Yields (.serTxShiftLoad n false) s (fun t =>
    (serial t n.val).shift = none ∧ isSet t (.ser n) SER_STATUS.TX_IDLE = true ∧ RegsBut [addr (.ser n) offStatus] s t)) ∧
  (∀ (n : Serial) (v : Word) (s : State), Yields (.serDivWrite n false v) s (fun t =>
    if tarlumOwns s n = true ∨ (n.val = 1 ∧ getBits v 15 0 < 54) then t.ser = s.ser ∧ RegsBut [addr (.ser n) offErrCnt, addr (.ser n) offIntStat] s t
    else (serial t n.val).oldDiv = reg s (addr (.ser n) SER_DIV.DIV.off) ∧ (serial t n.val).oldCfg = reg s (addr (.ser n) SER_CFG.EN.off) ∧
      (54 ≤ getBits v 15 0 → getF t (.ser n) SER_DIV.DIV = getBits v 15 0))) ∧
  (∀ (n : Serial) (s : State), Yields (.breakStart n) s (fun t =>
    if receiverOn s n = true ∧ isSet s (.ser n) SER_STATUS.BREAK_ACTIVE = false then isSet t (.ser n) SER_STATUS.BREAK_ACTIVE = true ∧
      intOf t (.ser n) SER_INT.BREAK_START = true ∧ RegsBut [addr (.ser n) offStatus, addr (.ser n) offIntStat] s t else t = s)) ∧
  (∀ (n : Serial) (s : State), Yields (.lineStuck n) s (fun t =>
    if isSet s (.ser n) SER_STATUS.BREAK_ACTIVE = true ∧ isSet s (.ser n) SER_STATUS.LINE_STUCK = false then isSet t (.ser n) SER_STATUS.LINE_STUCK = true ∧
      getF t (.ser n) SER_BRK_LEN.LEN = 65535 ∧ receiverOn t n = false ∧ (LogRoom s → Logged t (0x0800 + SER_INT.LINE_STUCK) n.val []) else t = s)) ∧
  (∀ (n : Serial) (s : State), Yields (.lineFree n) s (fun t =>
    if isSet s (.ser n) SER_STATUS.LINE_STUCK then isSet t (.ser n) SER_STATUS.LINE_STUCK = false ∧ isSet t (.ser n) SER_STATUS.BREAK_ACTIVE = false ∧
      intOf t (.ser n) SER_INT.LINE_FREE = true else t = s)) ∧
  (∀ (n : Serial) (src : CmdSrc) (s : State), takes s (.ser n) src = true → Yields (.sendBreak n src) s (fun t =>
    let o := latch (.ser n) 1 src s
    if o.a0.toNat = 0 ∨ 65535 < o.a0.toNat then Completed t (.ser n) CODE.BAD_ARG ∧ t.ser = s.ser
    else if 2 ≤ n.val ∨ tarlumOwns s n = true then Completed t (.ser n) CODE.REFUSED ∧ t.ser = s.ser
    else getBits (reg t (addr (.ser n) offCmdStat)) 31 31 = 1 ∧ (outstanding t (.ser n)).isSome = true ∧
      ((serial s n.val).shift = none → (serial s n.val).hold = none → (serial t n.val).low = true)))

/-- Dual control and card transactions (R442–R449, R452, R464–R466). -/
def Obligations.TicketsAndCards : Prop :=
  (∀ (src : CmdSrc) (s : State), takes s .tkt src = true → Yields (.challenge src) s (fun t =>
    Completed t .tkt CODE.OK ∧ isSet t .tkt TKT_STATUS.CHAL_HELD = true ∧ getF t .tkt TKT_CHAL_LEFT.LEFT = 900 ∧
    ∃ c, t.mgt.challenge = some c ∧ c.2 = s.time.rtc ∧ getF t .tkt TKT_CHAL_HI.VALUE * 2 ^ 32 + getF t .tkt TKT_CHAL_LO.VALUE = c.1)) ∧
  (∀ s : State, Yields .challengeExpiry s (fun t => if s.mgt.challenge.isSome then t.mgt.challenge = none ∧ isSet t .tkt TKT_STATUS.CHAL_HELD = false ∧
    intOf t .tkt TKT_INT.CHAL_EXPIRED = true else t = s)) ∧
  (∀ (src : CmdSrc) (s : State), takes s .tkt src = true → Yields (.apply src) s (fun t =>
    let o := latch .tkt 2 src s
    let b := busBytes s o.a0.toNat o.a1.toNat
    outstanding t .tkt = none ∧ getBits (reg t (addr .tkt offCmdStat)) 30 30 = 1 ∧
    (o.a0.toNat % 4 ≠ 0 ∨ inHostArea o.a0.toNat o.a1.toNat = false → Completed t .tkt CODE.BAD_ARG ∧ t.mgt = s.mgt) ∧
    (o.a0.toNat % 4 = 0 → inHostArea o.a0.toNat o.a1.toNat = true →
      (s.mgt.keys.holders = [] → mode s ≠ MODE.RECOVERY → Completed t .tkt CODE.REFUSED ∧ t.mgt = s.mgt) ∧
      (s.mgt.keys.holders ≠ [] → ∀ k, (parseTicket b).toOption = none → parseTicket b = .error k → Completed t .tkt 0x80 ∧ t.mgt = s.mgt ∧
        ticketCounter t = ticketCounter s) ∧
      (s.mgt.keys.holders ≠ [] → ∀ tk, (parseTicket b).toOption = some tk →
        (tk.module ≠ Config.moduleId.toNat → Completed t .tkt 0x81 ∧ t.mgt = s.mgt) ∧
        (tk.module = Config.moduleId.toNat → t.mgt.challenge = none ∧
          (challengeOver s = true ∨ s.mgt.challenge.map (·.1) ≠ some tk.challenge → Completed t .tkt 0x82 ∧ t.mgt.keys = s.mgt.keys) ∧
          (getBits (reg t (addr .tkt offCmdStat)) 7 0 = CODE.OK → challengeOver s = false ∧ s.mgt.challenge.map (·.1) = some tk.challenge ∧
            ticketCounter s < tk.counter ∧ badSig s.mgt.keys.holders tk = none ∧ getF s .tkt TKT_AUTH.THRESHOLD ≤ tk.sigs.length ∧
            ticketCounter t = tk.counter)))))) ∧
  (∀ (src : CmdSrc) (s : State), takes s .tkt src = true → Yields (.readAuth src) s (fun t =>
    let a := (latch .tkt 4 src s).a0.toNat
    let out := [byteOf (getF s .tkt TKT_AUTH.THRESHOLD), byteOf s.mgt.keys.holders.length, 0, 0] ++
      s.mgt.keys.holders.flatMap (fun h => beBytes 8 h.id ++ [byteOf h.kind, 0, 0, 0] ++ h.key)
    if a % 4 ≠ 0 ∨ inHostArea a out.length = false then Completed t .tkt CODE.BAD_ARG ∧ t.mem = s.mem
    else Completed t .tkt CODE.OK ∧ (BanksOn s → bytesAt t a out.length = out))) ∧
  (∀ (src : CmdSrc) (s : State), takes s .tkt src = true → Yields (.readDevPub src) s (fun t =>
    let a := (latch .tkt 5 src s).a0.toNat
    if a % 4 ≠ 0 ∨ inHostArea a 64 = false then Completed t .tkt CODE.BAD_ARG ∧ t.mem = s.mem else Completed t .tkt CODE.OK)) ∧
  (∀ (src : CmdSrc) (s : State), takes s .tkt src = true → Yields (.cardSign src) s (fun t =>
    let o := latch .tkt 3 src s
    let a := o.a1.toNat
    if 1 < o.a0.toNat ∨ a % 4 ≠ 0 ∨ 4096 < o.a2.toNat + 68 ∨ o.a2.toNat < 36 ∨ inHostArea a (o.a2.toNat + 68) = false ∨
        o.a2.toNat < 36 + beAt (busBytes s a 36) 32 2 then Completed t .tkt CODE.BAD_ARG ∧ t.ser = s.ser
    else Issued t .tkt o ∧ isSet t (.ser (cardPort o)) SER_CARD.POWERED = true ∧ (serial t (cardPort o).val).card = some ⟨.atr, 0, 0⟩)) ∧
  (∀ (n : Serial) (p : Bool) (s : State), Yields (.cardPresenceChange n p) s (fun t =>
    if n.val < 2 ∨ isSet s (.ser n) SER_CARD.PRESENT = p then t = s
    else isSet t (.ser n) SER_CARD.PRESENT = p ∧ intOf t (.ser n) SER_INT.CARD_CHANGE = true ∧ (p = false → (serial t n.val).card = none))) ∧
  (∀ (n : Serial) (s : State), (serial s n.val).card = none → ∀ (ts : Option Byte) (v : List Byte) (sw : BitVec 16),
    exec (.cardAtr n ts) s = .next s ∧ exec (.cardWwtExpiry n) s = .next s ∧ exec (.signTimeout n) s = .next s ∧ exec (.cardStatusWord n v sw) s = .next s) ∧
  (∀ (n : Serial) (s : State) (c : CardSt), (serial s n.val).card = some c →
    Yields (.cardWwtExpiry n) s (fun t => (serial t n.val).card = none ∧ isSet t (.ser n) SER_CARD.POWERED = false ∧
      (outstanding s .tkt ≠ none → Completed t .tkt 0x88)) ∧
    Yields (.signTimeout n) s (fun t => if c.phase = .sign then (serial t n.val).card = none ∧ isSet t (.ser n) SER_CARD.POWERED = false else t = s) ∧
    ∀ ts : Option Byte, Yields (.cardAtr n ts) s (fun t =>
      if c.phase ≠ .atr then t = s
      else if ts = some 0x3F#8 then (serial t n.val).card = some ⟨.readPub, 0, 0⟩ ∧ t.emits.head? = some (.cardCommand n.val [0x80, 0x10, 0, 0, 0x48])
      else (serial t n.val).card = none)) ∧
  (∀ (n : Serial) (v : List Byte) (sw : BitVec 16) (s : State) (c : CardSt), (serial s n.val).card = some c → ∀ o, outstanding s .tkt = some o →
    Yields (.cardStatusWord n v sw) s (fun t =>
      (c.phase = .atr → t = s) ∧ (c.phase ≠ .atr → getF t (.ser n) SER_CARD.LAST_SW = sw.toNat) ∧
      (c.phase = .readPub → sw.toNat ≠ 0x9000 ∨ v.length ≠ 72 → Completed t .tkt 0x88 ∧ (serial t n.val).card = none) ∧
      (c.phase = .sign → if sw.toNat = 0x6140 then (serial t n.val).card = some ⟨.response, c.holder, 0⟩ else Completed t .tkt 0x88) ∧
      (c.phase = .response → (serial t n.val).card = none ∧ (sw.toNat = 0x9000 → v.length = 64 → Completed t .tkt CODE.OK))))

/-- The sensor front end and the bulk store (R371, R391–R396, R398, R420, R421, R424, R427, R428). -/
def Obligations.SensorsAndStore : Prop :=
  (∀ (n : Chan) (o : SensorOut) (s : State), Yields (.sensorOutputBoundary n o) s (fun t =>
    if (chan s n.val).calibrating then t = s
    else if (chan s n.val).restart then (chan t n.val).cfg = senCfg s n.val ∧ (chan t n.val).restart = false ∧ (chan t n.val).outs = [] ∧ (chan t n.val).discard = 0 ∧ RegsBut [] s t
    else if (chan s n.val).get SEN_CFG.EN = 0 then t = s
    else if (chan s n.val).discard < 3 then chan t n.val = { chan s n.val with discard := (chan s n.val).discard + 1 } ∧ RegsBut [] s t
    else if (chan s n.val).outs.length + 1 < (chan s n.val).get SEN_CFG.N_AVG then (chan t n.val).outs = (chan s n.val).outs ++ [signedOf 32 o.rho.toNat] ∧ RegsBut [] s t
    else (chan t n.val).outs = [] ∧ (chan t n.val).discard = 0 ∧ ((chan s n.val).twoPhase = false → n.val < 8 →
      getI t .sen SEN_STAT.STALE n.val = 0 ∧ getI t .sen SEN_STAT.SEQ n.val = (getI s .sen SEN_STAT.SEQ n.val + 1) % 2 ^ 16))) ∧
  (∀ (n : Chan) (s : State), Yields (.sensorStale n) s (fun t =>
    if getI s .sen SEN_STAT.STALE n.val = 1 then t = s else getI t .sen SEN_STAT.STALE n.val = 1 ∧ intOf t .sen SEN_INT.STALE = true)) ∧
  (∀ (n : Chan) (s : State), Yields (.senTempRead n) s (fun t => RegsBut [] s t ∧ t.emits.head? = some (.read (reg s (addr .sen (0x200 + 0x20 * n.val + 0x0C)))) ∧
    (chan t n.val).latch = some (reg s (addr .sen (0x200 + 0x20 * n.val + 0x10)), reg s (addr .sen (0x200 + 0x20 * n.val + 0x14)),
      reg s (addr .sen (0x200 + 0x20 * n.val + 0x18))))) ∧
  (∀ (src : CmdSrc) (s : State), takes s .sen src = true → Yields (.selfCal src) s (fun t =>
    let n := (latch .sen 1 src s).a0.toNat
    if 7 < n then Completed t .sen CODE.BAD_ARG ∧ t.sen = s.sen
    else if getI s .sen SEN_CFG.EN n = 0 then Completed t .sen CODE.REFUSED ∧ t.sen = s.sen
    else Issued t .sen (latch .sen 1 src s) ∧ chan t n = { chan s n with calibrating := true, restart := true })) ∧
  (∀ (src : CmdSrc) (s : State), takes s .sto src = true →
    Yields (.readBlocks src) s (fun t => t.sto = s.sto ∧
      (∀ c, checkBlocks (latch .sto 1 src s) s = some c → Completed t .sto c) ∧ (checkBlocks (latch .sto 1 src s) s = none → Issued t .sto (latch .sto 1 src s))) ∧
    Yields (.writeBlocks src) s (fun t => t.sto = s.sto ∧
      (∀ c, checkBlocks (latch .sto 2 src s) s = some c → Completed t .sto c) ∧ (checkBlocks (latch .sto 2 src s) s = none → Issued t .sto (latch .sto 2 src s))) ∧
    Yields (.trim src) s (fun t => t.sto = s.sto ∧
      (∀ c, checkBlocks (latch .sto 3 src s) s = some c → Completed t .sto c) ∧ (checkBlocks (latch .sto 3 src s) s = none → Issued t .sto (latch .sto 3 src s)))) ∧
  (∀ (ro : Bool) (w p : BitVec 16) (n : Nat) (s : State), Yields (.storeWorn ro w p n) s (fun t =>
    getF t .sto STO_WEAR.WEAR = w.toNat ∧ getF t .sto STO_WEAR.SPARE = p.toNat ∧
    isSet t .sto STO_STATUS.READ_ONLY = (isSet s .sto STO_STATUS.READ_ONLY || ro) ∧
    (ro = true → isSet s .sto STO_STATUS.READ_ONLY = false → intOf t .sto STO_INT.READ_ONLY = true ∧
      ∀ o, outstanding s .sto = some o → o.opcode = 2 → Completed t .sto 0x82))) ∧
  (∀ s : State, Yields .reserveChargeFail s (fun t => isSet t .sto STO_STATUS.RESERVE_OK = false ∧ intOf t .sto STO_INT.RESERVE_FAIL = true ∧
    RegsBut [addr .sto offStatus, addr .sto offIntStat] s t)) ∧
  (∀ s : State, s.pwr.shutdown = true ∨ s.link.toStore = [] → exec .snfWrite s = .next s) ∧
  (∀ (s : State) (r : SnfRec), s.link.toStore.head? = some r → s.pwr.shutdown = false → Yields .snfWrite s (fun t =>
    t.link.toStore = s.link.toStore.tail ∧
    (isSet s .sto STO_STATUS.READ_ONLY = true → t.sto.snf = s.sto.snf ∧ intOf t .sto STO_INT.SNF_FULL = true ∧
      getF t .sto STO_SNF_LOST_CNT.COUNT = min (getF s .sto STO_SNF_LOST_CNT.COUNT + 1) 0xFFFFFFFF) ∧
    (isSet s .sto STO_STATUS.READ_ONLY = false → snfUsed s.sto.snf + r.size ≤ snfSize → t.sto.snf = s.sto.snf ++ [r] ∧
      isSet t .sto STO_STATUS.SNF_REPLAY = true ∧ getF t .pci PCI_STORED_CNT.COUNT = min (getF s .pci PCI_STORED_CNT.COUNT + 1) 0xFFFFFFFF))) ∧
  (∀ (k : BitVec 64) (s : State), s.sto.snf.find? (hasPath s) = none → exec (.snfReplay k) s = .next s) ∧
  (∀ (k : BitVec 64) (s : State) (r : SnfRec), s.sto.snf.find? (hasPath s) = some r → Yields (.snfReplay k) s (fun t =>
    t.sto.snf = s.sto.snf.erase r ∧ (r.toParent = false → toLanes s = false →
      getF t .pci PCI_UL_DONE_CNT.COUNT = min (getF s .pci PCI_UL_DONE_CNT.COUNT + 1) 0xFFFFFFFF)))

/-- The references of the TRU (R348–R354, R358). -/
def Obligations.TimingReferences : Prop :=
  (∀ (r : Ref) (freq phase : Word) (h : TruHold) (s : State), Yields (.refQualified r freq phase h) s (fun t =>
    if (qstate s r.val ≠ QS.ABSENT ∧ qstate s r.val ≠ QS.QUALIFYING) ∨ getI s .tru REF_QUAL.FREQ_TOL r.val * 100 < (signedOf 32 freq.toNat).natAbs then t = s
    else getI t .tru REF_FREQ.FREQ r.val = freq.toNat ∧ intOf t .tru TRU_INT.QUALIFIED = true ∧ QS.WTR ≤ qstate t r.val ∧
      (s.tru.disq.contains r.val = false → QS.AVAILABLE ≤ qstate t r.val))) ∧
  (∀ (r : Ref) (freq phase : Word) (h : TruHold) (s : State), Yields (.refDisqualified r freq phase h) s (fun t =>
    if qstate s r.val < QS.WTR then t = s
    else qstate t r.val = QS.QUALIFYING ∧ intOf t .tru TRU_INT.DISQUALIFIED = true ∧ selectedRef t ≠ some r.val ∧ t.tru.disq.contains r.val = true)) ∧
  (∀ (r : Ref) (h : TruHold) (s : State), Yields (.refLossOfSignal r h) s (fun t =>
    if qstate s r.val ≤ QS.ABSENT ∨ (refPresent s r.val = true ∧ r.val ≠ 7) then t = s
    else qstate t r.val = QS.ABSENT ∧ getI t .tru REF_PHASE.PHASE r.val = 0x80000000 ∧
      (qstate s r.val ≠ QS.QUALIFYING → intOf t .tru TRU_INT.DISQUALIFIED = true ∧ selectedRef t ≠ some r.val))) ∧
  (∀ (r : Ref) (h : TruHold) (s : State), Yields (.wtrExpiry r h) s (fun t =>
    if qstate s r.val = QS.WTR then QS.AVAILABLE ≤ qstate t r.val ∧ qstate t r.val ≤ QS.SELECTED else t = s)) ∧
  (∀ (p : Word) (h : TruHold) (s : State), switching s = false ∨ selectedRef s = none → exec (.switchComplete p h) s = .next s) ∧
  (∀ (p : Word) (h : TruHold) (s : State), switching s = true → ∀ r, selectedRef s = some r → Yields (.switchComplete p h) s (fun t =>
    intOf t .tru TRU_INT.SWITCHED = true ∧
    (isTimeRef r = true → isSet s .tru TRU_STATUS.ALIGNED = true → absorbed t = signedOf 32 p.toNat) ∧
    (isTimeRef r = true → isSet s .tru TRU_CFG.AUTO_ALIGN = true → isSet s .tru TRU_STATUS.ALIGNED = false → t.tru.alignBy = some (signedOf 32 p.toNat)))) ∧
  (∀ (p : Word) (s : State), selectedRef s = none ∨ tq s ≠ TQ.ACQUIRING ∨ switching s = true → exec (.truLocked p) s = .next s) ∧
  (∀ (p : Word) (s : State), tq s = TQ.ACQUIRING → switching s = false → ∀ r, selectedRef s = some r → Yields (.truLocked p) s (fun t =>
    if isTimeRef r = true ∧ 100 < (signedOf 32 p.toNat - absorbed s).natAbs then t = s
    else tq t = TQ.LOCKED ∧ intOf t .tru TRU_INT.STATE_CHANGE = true)) ∧
  (∀ (th : Word) (s : State), Yields (.truLost th) s (fun t =>
    if (tq s = TQ.HOLDOVER ∨ tq s = TQ.FREERUN) ∧ isSet s .tru TRU_STATUS.ALIGNED = true ∧ switching s = false ∧
        getF s .tru TRU_CFG.TE_BUDGET * 100 < teNow s th.toNat then tq t = TQ.LOST ∧ intOf t .tru TRU_INT.STATE_CHANGE = true else t = s)) ∧
  (∀ (v : Word) (h : TruHold) (s : State), Yields (.truModeWrite v h) s (fun t =>
    getF t .tru TRU_CFG.MODE = getBits v TRU_CFG.MODE.hi TRU_CFG.MODE.lo ∧
    (switching s = false → getF t .tru TRU_CFG.MODE ≠ getF s .tru TRU_CFG.MODE →
      (getF t .tru TRU_CFG.MODE = 2 ∨ getF t .tru TRU_CFG.MODE = 3 → selectedRef t = none) ∧ (getF t .tru TRU_CFG.MODE = 3 → tq t = TQ.FREERUN)))) ∧
  (∀ (r : Ref) (v : Word) (h : TruHold) (s : State), Yields (.refCfgWrite r v h) s (fun t =>
    getI t .tru REF_CFG.EN r.val = getBits v REF_CFG.EN.hi REF_CFG.EN.lo ∧
    (bwOk r.val (getI s .tru REF_CFG.BW r.val) = true → bwOk r.val (getI t .tru REF_CFG.BW r.val) = true) ∧
    (getI s .tru REF_CFG.EN r.val = 1 → getI t .tru REF_CFG.EN r.val = 0 → qstate t r.val = QS.DISABLED ∧ selectedRef t ≠ some r.val) ∧
    (getI s .tru REF_CFG.EN r.val = 0 → getI t .tru REF_CFG.EN r.val = 1 → qstate t r.val = if refPresent s r.val then QS.QUALIFYING else QS.ABSENT)))

/-- TRU time (R77, R344, R345, R355, R360, R365). -/
def Obligations.TimeSetting : Prop :=
  (∀ s : State, Yields .slewDone s (fun t => if isSet s .tru TRU_STATUS.SLEWING then isSet t .tru TRU_STATUS.SLEWING = false ∧
    isSet t .tru TRU_STATUS.ALIGNED = true ∧ absorbed t = 0 ∧ intOf t .tru TRU_INT.ALIGN_DONE = true else t = s)) ∧
  (∀ (src : CmdSrc) (s : State), takes s .tru src = true → Yields (.realign src) s (fun t =>
    let o := latch .tru 1 src s
    if timeSelected s = false ∨ TQ.ACQUIRING < tq s ∨ switching s = true then Completed t .tru CODE.REFUSED ∧ t.tru = s.tru
    else if o.a0.toNat.testBit 0 then Completed t .tru CODE.OK ∧ isSet t .tru TRU_STATUS.SLEWING = true ∧ t.tru = s.tru
    else outstanding t .tru = some { o with phase := 1 } ∧ isSet t .tru TRU_STATUS.SLEWING = false ∧ t.tru = s.tru)) ∧
  (∀ (src : CmdSrc) (k : Fin 204800) (s : State), takes s .tru src = true → Yields (.setTime src k) s (fun t =>
    let o := latch .tru 2 src s
    if o.a0.toNat.testBit 31 = false ∧ 1000000000 ≤ o.a2.toNat then Completed t .tru CODE.BAD_ARG ∧ t.tru = s.tru
    else if timeSelected s then Completed t .tru CODE.REFUSED ∧ t.tru = s.tru
    else if o.a0.toNat.testBit 31 then Issued t .tru o ∧ t.tru = s.tru
    else outstanding t .tru = some { o with phase := 1 } ∧
      t.tru.setTo = some (((getBits o.a0 15 0 * 2 ^ 32 + o.a1.toNat) * 1000000000 + o.a2.toNat : Nat) - 5 * ((slotTime s + k.val : Nat) : Int)))) ∧
  (∀ (k : Fin 204800) (s : State), awaitsPps s = none → exec (.tinPpsEdge k) s = .next s ∧ exec .setTimePpsTimeout s = .next s) ∧
  (∀ (k : Fin 204800) (s : State) (o : Outstanding), awaitsPps s = some o →
    Yields (.tinPpsEdge k) s (fun t => outstanding t .tru = some { o with phase := 1 } ∧ t.tru.setTo = some (eFor s (setTimeNs o 0) k.val)) ∧
    Yields .setTimePpsTimeout s (fun t => Completed t .tru CODE.TIMEOUT ∧ t.tru = s.tru)) ∧
  (∀ (src : CmdSrc) (k : Fin 204800) (s : State), takes s .tru src = true → Yields (.capture src k) s (fun t => Completed t .tru CODE.OK ∧ t.tru = s.tru ∧
    (getF t .tru TRU_CAP_NS.VALUE : Int) = truNs s (slotTime s + k.val) % 1000000000 ∧
    getF t .tru TRU_CAP_MT_LO.VALUE = (slotTime s + k.val) % 2 ^ 32 ∧ getF t .tru TRU_CAP_MT_HI.VALUE = (slotTime s + k.val) / 2 ^ 32 % 2 ^ 32)) ∧
  (∀ (src : CmdSrc) (h : TruHold) (s : State), takes s .tru src = true → Yields (.endWtr src h) s (fun t =>
    let r := (latch .tru 4 src s).a0.toNat
    if 7 < r then Completed t .tru CODE.BAD_ARG ∧ t.tru = s.tru
    else if qstate s r ≠ QS.WTR then Completed t .tru 0x80 ∧ t.tru = s.tru
    else Completed t .tru CODE.OK ∧ QS.AVAILABLE ≤ qstate t r)) ∧
  (∀ s : State, Yields .ovenReady s (fun t => isSet t .tru TRU_STATUS.OVEN_READY = true ∧ RegsBut [addr .tru offStatus] s t)) ∧
  (∀ (h : TruHold) (s : State), Yields (.teBudgetExceeded h) s (fun t =>
    if TQ.ACQUIRING < tq s then t = s
    else (isSet s .tru TRU_STATUS.ALIGNED = false → getF t .tru TRU_TE_EST.VALUE = 0xFFFFFFFF ∧ isSet t .tru TRU_STATUS.TE_OVER = false) ∧
      (isSet s .tru TRU_STATUS.ALIGNED = true → isSet t .tru TRU_STATUS.TE_OVER = decide (getF s .tru TRU_CFG.TE_BUDGET * 100 < teNow t h.theta.toNat)))) ∧
  (∀ (v : Word) (s : State), Yields (.oscillatorModelSave v) s (fun t => t.tru.saved = v ∧ getF t .tru TRU_STEER.VALUE = v.toNat ∧
    RegsBut [addr .tru TRU_STEER.VALUE.off] s t))
end

