-- ==== Sys2Proof/Laws/Map.lean ====
section
/-!
SUPPORT. Sys2Proof/Laws/Map.lean: what a sparse table answers after each operation, and that every operation keeps the canonical form.
-/
namespace Sys2Proof.Machine.Map

variable {α : Type} [DecidableEq α] {d : Nat → α}

omit [DecidableEq α] in
theorem get_erase_self (m : List (Nat × α)) (k : Nat) : get d (erase m k) k = d k := by
  induction m with
  | nil => rfl
  | cons e m ih =>
    obtain ⟨j, v⟩ := e
    by_cases h : j = k
    · simpa [erase, h] using ih
    · simp only [erase, ne_eq, h, not_false_eq_true, decide_true, List.filter_cons_of_pos, get, if_false]
      exact ih

omit [DecidableEq α] in
theorem get_erase_other (m : List (Nat × α)) {j k : Nat} (h : j ≠ k) : get d (erase m k) j = get d m j := by
  induction m with
  | nil => rfl
  | cons e m ih =>
    obtain ⟨i, v⟩ := e
    by_cases hi : i = k
    · have hij : i ≠ j := fun e => h (e.symm.trans hi)
      simp only [get, if_neg hij, ← ih]
      simp [erase, hi]
    · simp only [erase, ne_eq, hi, not_false_eq_true, decide_true, List.filter_cons_of_pos, get]
      split
      · rfl
      · exact ih

omit [DecidableEq α] in
theorem get_ins_self (m : List (Nat × α)) (k : Nat) (v : α) (h : ∀ e ∈ m, e.1 ≠ k) : get d (ins k v m) k = v := by
  induction m with
  | nil => simp [ins, get]
  | cons e m ih =>
    obtain ⟨i, w⟩ := e
    have hi : i ≠ k := h (i, w) (by simp)
    simp only [ins]
    split
    · simp [get]
    · simp only [get, if_neg hi]
      exact ih (fun e he => h e (by simp [he]))

omit [DecidableEq α] in
theorem get_ins_other (m : List (Nat × α)) {j k : Nat} (v : α) (h : j ≠ k) : get d (ins k v m) j = get d m j := by
  induction m with
  | nil => simp [ins, get, h.symm]
  | cons e m ih =>
    obtain ⟨i, w⟩ := e
    simp only [ins]
    split
    · simp [get, h.symm]
    · simp only [get]
      split
      · rfl
      · exact ih

/-- The value written is read back. -/
@[simp] theorem get_set_self (m : List (Nat × α)) (k : Nat) (v : α) : get d (set d m k v) k = v := by
  unfold set
  split
  · rename_i h
    rw [get_erase_self, h]
  · exact get_ins_self _ _ _ (by simp [erase])

/-- A write leaves every other key alone. -/
theorem get_set_other (m : List (Nat × α)) {j k : Nat} (v : α) (h : j ≠ k) : get d (set d m k v) j = get d m j := by
  unfold set
  split
  · exact get_erase_other _ h
  · rw [get_ins_other _ _ h, get_erase_other _ h]

theorem get_set (m : List (Nat × α)) (j k : Nat) (v : α) : get d (set d m k v) j = if j = k then v else get d m j := by
  split
  · rename_i h
    rw [h, get_set_self]
  · rename_i h
    exact get_set_other _ _ h

theorem wfFrom_mono {lo lo' : Nat} (m : List (Nat × α)) (h : wfFrom d lo m = true) (hl : lo' ≤ lo) : wfFrom d lo' m = true := by
  cases m with
  | nil => rfl
  | cons e m =>
    simp only [wfFrom, Bool.and_eq_true, decide_eq_true_eq] at h ⊢
    exact ⟨⟨Nat.le_trans hl h.1.1, h.1.2⟩, h.2⟩

theorem wfFrom_filter (p : Nat × α → Bool) (m : List (Nat × α)) (lo : Nat) (h : wfFrom d lo m = true) : wfFrom d lo (m.filter p) = true := by
  induction m generalizing lo with
  | nil => rfl
  | cons e m ih =>
    simp only [wfFrom, Bool.and_eq_true, decide_eq_true_eq] at h
    have hm := ih _ h.2
    by_cases hp : p e = true
    · rw [List.filter_cons_of_pos hp]
      simp only [wfFrom, Bool.and_eq_true, decide_eq_true_eq]
      exact ⟨h.1, hm⟩
    · rw [List.filter_cons_of_neg hp]
      exact wfFrom_mono _ hm (by omega)

theorem wfFrom_ins (m : List (Nat × α)) (lo k : Nat) (v : α) (h : wfFrom d lo m = true) (hk : ∀ e ∈ m, e.1 ≠ k) (hl : lo ≤ k) (hv : v ≠ d k) :
    wfFrom d lo (ins k v m) = true := by
  induction m generalizing lo with
  | nil => simp [ins, wfFrom, hl, hv]
  | cons e m ih =>
    obtain ⟨i, w⟩ := e
    simp only [wfFrom, Bool.and_eq_true, decide_eq_true_eq] at h
    have hi : i ≠ k := hk (i, w) (by simp)
    simp only [ins]
    split
    · rename_i hlt
      simp only [wfFrom, Bool.and_eq_true, decide_eq_true_eq]
      exact ⟨⟨hl, hv⟩, ⟨Nat.succ_le_of_lt hlt, h.1.2⟩, h.2⟩
    · rename_i hlt
      simp only [wfFrom, Bool.and_eq_true, decide_eq_true_eq]
      exact ⟨h.1, ih _ h.2 (fun e he => hk e (by simp [he])) (by have : i ≤ k := Nat.le_of_not_lt hlt; omega)⟩

/-- Removing keys keeps the canonical form. -/
theorem wf_filter (p : Nat × α → Bool) (m : List (Nat × α)) (h : wf d m = true) : wf d (m.filter p) = true := wfFrom_filter p m 0 h

/-- A write keeps the canonical form. -/
theorem wf_set (m : List (Nat × α)) (k : Nat) (v : α) (h : wf d m = true) : wf d (set d m k v) = true := by
  have he : wf d (erase m k) = true := wf_filter _ m h
  unfold set
  split
  · exact he
  · rename_i hv
    exact wfFrom_ins _ _ _ _ he (by simp [erase]) (Nat.zero_le _) hv

theorem wfFrom_mapVals (f : α → α) (m : List (Nat × α)) (lo : Nat) (h : wfFrom d lo m = true) : wfFrom d lo (mapVals d f m) = true := by
  induction m generalizing lo with
  | nil => rfl
  | cons e m ih =>
    obtain ⟨i, w⟩ := e
    simp only [wfFrom, Bool.and_eq_true, decide_eq_true_eq] at h
    have hm := ih _ h.2
    simp only [mapVals, List.map_cons, List.filter_cons]
    split
    · rename_i hw
      simp only [wfFrom, Bool.and_eq_true, decide_eq_true_eq]
      exact ⟨⟨h.1.1, by simpa using hw⟩, hm⟩
    · exact wfFrom_mono _ hm (by omega)

/-- A change of every listed value keeps the canonical form. -/
theorem wf_mapVals (f : α → α) (m : List (Nat × α)) (h : wf d m = true) : wf d (mapVals d f m) = true := wfFrom_mapVals f m 0 h

/-- An empty table is in canonical form. -/
@[simp] theorem wf_nil : wf d [] = true := rfl

end Sys2Proof.Machine.Map
end

