-- ==== Sys2Proof/Laws/Regs.lean ====
section
/-!
SUPPORT. Sys2Proof/Laws/Regs.lean: bit fields of a word, pages and addresses, and what storing a register or a field changes.
-/
namespace Sys2Proof.Machine

/-! Bit fields. -/

theorem setBits_toNat (w : Word) {hi lo : Nat} (v : Nat) (h1 : lo ≤ hi) (h2 : hi < 32) :
    (setBits w hi lo v).toNat =
      2 ^ lo * (2 ^ (hi + 1 - lo) * (w.toNat / 2 ^ lo / 2 ^ (hi + 1 - lo)) + v % 2 ^ (hi + 1 - lo)) + w.toNat % 2 ^ lo := by
  have e1 : w.toNat = 2 ^ lo * (w.toNat / 2 ^ lo) + w.toNat % 2 ^ lo := (Nat.div_add_mod _ _).symm
  have e2 : w.toNat / 2 ^ lo = 2 ^ (hi + 1 - lo) * (w.toNat / 2 ^ lo / 2 ^ (hi + 1 - lo)) + w.toNat / 2 ^ lo % 2 ^ (hi + 1 - lo) :=
    (Nat.div_add_mod _ _).symm
  have hv : v % 2 ^ (hi + 1 - lo) < 2 ^ (hi + 1 - lo) := Nat.mod_lt _ (Nat.two_pow_pos _)
  have ha : w.toNat % 2 ^ lo < 2 ^ lo := Nat.mod_lt _ (Nat.two_pow_pos _)
  have hw : w.toNat < 2 ^ 32 := w.isLt
  have hp : 2 ^ 32 = 2 ^ lo * (2 ^ (hi + 1 - lo) * 2 ^ (31 - hi)) := by rw [← Nat.pow_add, ← Nat.pow_add]; congr 1; omega
  have hc : w.toNat / 2 ^ lo / 2 ^ (hi + 1 - lo) < 2 ^ (31 - hi) := by
    rw [Nat.div_div_eq_div_mul, Nat.div_lt_iff_lt_mul (Nat.mul_pos (Nat.two_pow_pos _) (Nat.two_pow_pos _))]
    rw [hp] at hw
    calc w.toNat < _ := hw
      _ = _ := by rw [← Nat.mul_assoc, Nat.mul_comm]
  unfold setBits getBits
  rw [BitVec.toNat_ofNat, Nat.shiftRight_eq_div_pow]
  generalize w.toNat / 2 ^ lo / 2 ^ (hi + 1 - lo) = c at *
  generalize w.toNat / 2 ^ lo % 2 ^ (hi + 1 - lo) = m at *
  generalize w.toNat % 2 ^ lo = a at *
  generalize v % 2 ^ (hi + 1 - lo) = v' at *
  generalize 2 ^ (hi + 1 - lo) = B at *
  generalize 2 ^ lo = A at *
  generalize 2 ^ (31 - hi) = C at *
  rw [e2] at e1
  have e3 : w.toNat - m * A + v' * A = A * (B * c + v') + a := by
    rw [e1, Nat.mul_add A, Nat.mul_add A, Nat.mul_comm m A, Nat.mul_comm v' A]
    omega
  rw [e3]
  apply Nat.mod_eq_of_lt
  rw [hp]
  calc A * (B * c + v') + a < A * (B * c + v') + A := by omega
    _ = A * (B * c + v' + 1) := (Nat.mul_add_one A _).symm
    _ ≤ A * (B * c + B) := Nat.mul_le_mul_left _ (by omega)
    _ = A * (B * (c + 1)) := by rw [Nat.mul_add_one B]
    _ ≤ A * (B * C) := Nat.mul_le_mul_left _ (Nat.mul_le_mul_left _ hc)

theorem setBits_testBit (w : Word) {hi lo : Nat} (v i : Nat) (h1 : lo ≤ hi) (h2 : hi < 32) :
    (setBits w hi lo v).toNat.testBit i = if lo ≤ i ∧ i ≤ hi then v.testBit (i - lo) else w.toNat.testBit i := by
  have ha : w.toNat % 2 ^ lo < 2 ^ lo := Nat.mod_lt _ (Nat.two_pow_pos _)
  have hv : v % 2 ^ (hi + 1 - lo) < 2 ^ (hi + 1 - lo) := Nat.mod_lt _ (Nat.two_pow_pos _)
  rw [setBits_toNat w v h1 h2, Nat.testBit_two_pow_mul_add _ ha]
  split
  · rw [if_neg (by omega), Nat.testBit_mod_two_pow]
    simp [*]
  · rw [Nat.testBit_two_pow_mul_add _ hv]
    split
    · rw [if_pos (by omega), Nat.testBit_mod_two_pow]
      simp [*]
    · rw [if_neg (by omega), Nat.testBit_div_two_pow, Nat.testBit_div_two_pow]
      congr 1
      omega

theorem getBits_testBit (w : Word) (hi lo i : Nat) :
    (getBits w hi lo).testBit i = (decide (i < hi + 1 - lo) && w.toNat.testBit (i + lo)) := by
  rw [getBits, Nat.testBit_mod_two_pow, Nat.testBit_shiftRight, Nat.add_comm lo i]

theorem getBits_lt (w : Word) (hi lo : Nat) : getBits w hi lo < 2 ^ (hi + 1 - lo) := Nat.mod_lt _ (Nat.two_pow_pos _)

theorem getBits_setBits (w : Word) {hi lo : Nat} (v : Nat) (h1 : lo ≤ hi) (h2 : hi < 32) :
    getBits (setBits w hi lo v) hi lo = v % 2 ^ (hi + 1 - lo) := by
  apply Nat.eq_of_testBit_eq
  intro i
  rw [getBits_testBit, setBits_testBit w v _ h1 h2, Nat.testBit_mod_two_pow]
  by_cases h : i < hi + 1 - lo
  · rw [if_pos (by omega), Nat.add_sub_cancel]
  · simp [h]

theorem getBits_setBits_other (w : Word) {hi lo hi' lo' : Nat} (v : Nat) (h1 : lo ≤ hi) (h2 : hi < 32) (h : hi' < lo ∨ hi < lo') :
    getBits (setBits w hi lo v) hi' lo' = getBits w hi' lo' := by
  apply Nat.eq_of_testBit_eq
  intro i
  rw [getBits_testBit, getBits_testBit, setBits_testBit w v _ h1 h2]
  by_cases hi : i < hi' + 1 - lo'
  · rw [if_neg (by omega)]
  · simp [hi]

/-! Pages and addresses. -/

theorem pageOfNumber_base (p : Page) : pageOfNumber (pageBase p / 0x1000) = some p := by
  cases p
  case ser n => revert n; decide
  case lan n => revert n; decide
  case lanm n => revert n; decide
  case lpt n => revert n; decide
  case eng n => revert n; decide
  case memb n => revert n; decide
  all_goals rfl

theorem pageBase_mod (p : Page) : pageBase p % 0x1000 = 0 := by
  cases p <;> simp only [pageBase] <;> omega

theorem pageBase_inj {p q : Page} (h : pageBase p = pageBase q) : p = q := by
  have a := pageOfNumber_base p
  rw [h, pageOfNumber_base q] at a
  exact (Option.some.inj a).symm

theorem addr_inj {p q : Page} {o o' : Nat} (h1 : o < 0x1000) (h2 : o' < 0x1000) (h : addr p o = addr q o') : p = q ∧ o = o' := by
  have a := pageBase_mod p
  have b := pageBase_mod q
  unfold addr at h
  rw [Nat.mod_eq_of_lt h1, Nat.mod_eq_of_lt h2] at h
  have e : pageBase p = pageBase q := by omega
  exact ⟨pageBase_inj e, by omega⟩

theorem addr_eq_iff {p q : Page} {o o' : Nat} (h1 : o < 0x1000) (h2 : o' < 0x1000) : addr p o = addr q o' ↔ p = q ∧ o = o' :=
  ⟨addr_inj h1 h2, fun h => by rw [h.1, h.2]⟩

/-- The page of a register's address. -/
theorem pageOfAddr_addr (p : Page) (o : Nat) : pageOfAddr (addr p o) = some p := by
  have a := pageBase_mod p
  have e : addr p o / 0x1000 = pageBase p / 0x1000 := by unfold addr; omega
  rw [pageOfAddr, e, pageOfNumber_base]

theorem addr_mod (p : Page) {o : Nat} (h : o < 0x1000) : addr p o % 0x1000 = o := by
  have a := pageBase_mod p
  unfold addr
  omega

theorem pageNumber_inj {p q : Page} (h : pageNumber p = pageNumber q) : p = q := by
  have a := pageOfNumber_base p
  unfold pageNumber at h
  rw [h, pageOfNumber_base q] at a
  exact (Option.some.inj a).symm

/-! Registers. -/

@[simp] theorem reg_setReg_self (s : State) (a : Nat) (w : Word) : reg (setReg a w s) a = w := Map.get_set_self _ _ _

theorem reg_setReg_other (s : State) {a b : Nat} (w : Word) (h : b ≠ a) : reg (setReg a w s) b = reg s b := Map.get_set_other _ _ h

theorem reg_setReg (s : State) (a b : Nat) (w : Word) : reg (setReg a w s) b = if b = a then w else reg s b := Map.get_set _ _ _ _

/-- A field of a register map lies in a word of its page. -/
def Field.sound (f : Field) : Bool := decide (f.lo ≤ f.hi) && decide (f.hi < 32) && decide (f.off < 0x1000)

theorem Field.offAt_zero (f : Field) : f.offAt 0 = f.off := by simp [Field.offAt]

theorem getF_setF_self (s : State) (p : Page) (f : Field) (v : Nat) (h : f.sound = true) : getF (setF p f v s) p f = v % 2 ^ f.width := by
  simp only [Field.sound, Bool.and_eq_true, decide_eq_true_eq] at h
  unfold getF getI setF setI
  rw [reg_setReg_self, getBits_setBits _ _ h.1.1 h.1.2, Field.width]

/-- A field in another register, or in other bits of the same one, is as before. -/
theorem getF_setF_other (s : State) {p q : Page} {f g : Field} (v : Nat) (hf : f.sound = true) (hg : g.off < 0x1000)
    (h : p ≠ q ∨ f.off ≠ g.off ∨ g.hi < f.lo ∨ f.hi < g.lo) : getF (setF p f v s) q g = getF s q g := by
  simp only [Field.sound, Bool.and_eq_true, decide_eq_true_eq] at hf
  unfold getF getI setF setI
  rw [Field.offAt_zero, Field.offAt_zero]
  by_cases e : addr q g.off = addr p f.off
  · obtain ⟨e1, e2⟩ := addr_inj hg hf.2 e
    rw [e, reg_setReg_self, getBits_setBits_other _ _ hf.1.1 hf.1.2]
    rcases h with h | h | h
    · exact absurd e1.symm h
    · exact absurd e2.symm h
    · exact h
  · rw [reg_setReg_other _ _ e]

theorem isSet_setB_self (s : State) (p : Page) (f : Field) (b : Bool) (h : f.sound = true) : isSet (setB p f b s) p f = b := by
  have hw : 0 < f.width := by
    simp only [Field.sound, Bool.and_eq_true, decide_eq_true_eq] at h
    unfold Field.width
    omega
  have h1 : 1 < 2 ^ f.width := Nat.one_lt_two_pow (by omega)
  unfold isSet setB
  rw [getF_setF_self _ _ _ _ h]
  cases b
  · simp
  · simp [Nat.mod_eq_of_lt h1]

theorem getF_setB_other (s : State) {p q : Page} {f g : Field} (b : Bool) (hf : f.sound = true) (hg : g.off < 0x1000)
    (h : p ≠ q ∨ f.off ≠ g.off ∨ g.hi < f.lo ∨ f.hi < g.lo) : getF (setB p f b s) q g = getF s q g := getF_setF_other s _ hf hg h

theorem isSet_setF_other (s : State) {p q : Page} {f g : Field} (v : Nat) (hf : f.sound = true) (hg : g.off < 0x1000)
    (h : p ≠ q ∨ f.off ≠ g.off ∨ g.hi < f.lo ∨ f.hi < g.lo) : isSet (setF p f v s) q g = isSet s q g := by
  unfold isSet
  rw [getF_setF_other s _ hf hg h]

/-- A register in which a field does not lie is as before. -/
theorem reg_setF_other (s : State) {p q : Page} {f : Field} (v : Nat) {o : Nat} (hf : f.off < 0x1000) (ho : o < 0x1000) (h : q ≠ p ∨ o ≠ f.off) :
    reg (setF p f v s) (addr q o) = reg s (addr q o) := by
  unfold setF setI
  rw [Field.offAt_zero]
  refine reg_setReg_other _ _ (fun e => ?_)
  obtain ⟨e1, e2⟩ := addr_inj ho hf e
  rcases h with h | h
  · exact h e1
  · exact h e2

end Sys2Proof.Machine
end

