-- ==== Sys2Proof/Laws/State.lean ====
section
/-!
SUPPORT. Sys2Proof/Laws/State.lean: which fields of the state each plain update leaves alone, one lemma per field and update.
-/
namespace Sys2Proof.Machine

/-! setReg -/

@[simp] theorem cmds_setReg (a : Nat) (w : Word) (s : State) : (setReg a w s).cmds = s.cmds := rfl
@[simp] theorem log_setReg (a : Nat) (w : Word) (s : State) : (setReg a w s).log = s.log := rfl
@[simp] theorem rings_setReg (a : Nat) (w : Word) (s : State) : (setReg a w s).rings = s.rings := rfl
@[simp] theorem msixMask_setReg (a : Nat) (w : Word) (s : State) : (setReg a w s).msixMask = s.msixMask := rfl
@[simp] theorem msixPba_setReg (a : Nat) (w : Word) (s : State) : (setReg a w s).msixPba = s.msixPba := rfl
@[simp] theorem msixTable_setReg (a : Nat) (w : Word) (s : State) : (setReg a w s).msixTable = s.msixTable := rfl
@[simp] theorem time_setReg (a : Nat) (w : Word) (s : State) : (setReg a w s).time = s.time := rfl
@[simp] theorem pwr_setReg (a : Nat) (w : Word) (s : State) : (setReg a w s).pwr = s.pwr := rfl
@[simp] theorem boot_setReg (a : Nat) (w : Word) (s : State) : (setReg a w s).boot = s.boot := rfl
@[simp] theorem ports_setReg (a : Nat) (w : Word) (s : State) : (setReg a w s).ports = s.ports := rfl
@[simp] theorem nbw_setReg (a : Nat) (w : Word) (s : State) : (setReg a w s).nbw = s.nbw := rfl
@[simp] theorem bbw_setReg (a : Nat) (w : Word) (s : State) : (setReg a w s).bbw = s.bbw := rfl
@[simp] theorem ncal_setReg (a : Nat) (w : Word) (s : State) : (setReg a w s).ncal = s.ncal := rfl
@[simp] theorem bcn_setReg (a : Nat) (w : Word) (s : State) : (setReg a w s).bcn = s.bcn := rfl
@[simp] theorem plan_setReg (a : Nat) (w : Word) (s : State) : (setReg a w s).plan = s.plan := rfl
@[simp] theorem eng_setReg (a : Nat) (w : Word) (s : State) : (setReg a w s).eng = s.eng := rfl
@[simp] theorem bq_setReg (a : Nat) (w : Word) (s : State) : (setReg a w s).bq = s.bq := rfl
@[simp] theorem mem_setReg (a : Nat) (w : Word) (s : State) : (setReg a w s).mem = s.mem := rfl
@[simp] theorem tru_setReg (a : Nat) (w : Word) (s : State) : (setReg a w s).tru = s.tru := rfl
@[simp] theorem mac_setReg (a : Nat) (w : Word) (s : State) : (setReg a w s).mac = s.mac := rfl
@[simp] theorem cip_setReg (a : Nat) (w : Word) (s : State) : (setReg a w s).cip = s.cip := rfl
@[simp] theorem link_setReg (a : Nat) (w : Word) (s : State) : (setReg a w s).link = s.link := rfl
@[simp] theorem sto_setReg (a : Nat) (w : Word) (s : State) : (setReg a w s).sto = s.sto := rfl
@[simp] theorem pair_setReg (a : Nat) (w : Word) (s : State) : (setReg a w s).pair = s.pair := rfl
@[simp] theorem sen_setReg (a : Nat) (w : Word) (s : State) : (setReg a w s).sen = s.sen := rfl
@[simp] theorem mgt_setReg (a : Nat) (w : Word) (s : State) : (setReg a w s).mgt = s.mgt := rfl
@[simp] theorem ser_setReg (a : Nat) (w : Word) (s : State) : (setReg a w s).ser = s.ser := rfl
@[simp] theorem draws_setReg (a : Nat) (w : Word) (s : State) : (setReg a w s).draws = s.draws := rfl
@[simp] theorem frees_setReg (a : Nat) (w : Word) (s : State) : (setReg a w s).frees = s.frees := rfl
@[simp] theorem emits_setReg (a : Nat) (w : Word) (s : State) : (setReg a w s).emits = s.emits := rfl
@[simp] theorem pending_setReg (a : Nat) (w : Word) (s : State) : (setReg a w s).pending = s.pending := rfl

/-! setI -/

@[simp] theorem cmds_setI (p : Page) (f : Field) (i v : Nat) (s : State) : (setI p f i v s).cmds = s.cmds := cmds_setReg _ _ _
@[simp] theorem log_setI (p : Page) (f : Field) (i v : Nat) (s : State) : (setI p f i v s).log = s.log := log_setReg _ _ _
@[simp] theorem rings_setI (p : Page) (f : Field) (i v : Nat) (s : State) : (setI p f i v s).rings = s.rings := rings_setReg _ _ _
@[simp] theorem msixMask_setI (p : Page) (f : Field) (i v : Nat) (s : State) : (setI p f i v s).msixMask = s.msixMask := msixMask_setReg _ _ _
@[simp] theorem msixPba_setI (p : Page) (f : Field) (i v : Nat) (s : State) : (setI p f i v s).msixPba = s.msixPba := msixPba_setReg _ _ _
@[simp] theorem msixTable_setI (p : Page) (f : Field) (i v : Nat) (s : State) : (setI p f i v s).msixTable = s.msixTable := msixTable_setReg _ _ _
@[simp] theorem time_setI (p : Page) (f : Field) (i v : Nat) (s : State) : (setI p f i v s).time = s.time := time_setReg _ _ _
@[simp] theorem pwr_setI (p : Page) (f : Field) (i v : Nat) (s : State) : (setI p f i v s).pwr = s.pwr := pwr_setReg _ _ _
@[simp] theorem boot_setI (p : Page) (f : Field) (i v : Nat) (s : State) : (setI p f i v s).boot = s.boot := boot_setReg _ _ _
@[simp] theorem ports_setI (p : Page) (f : Field) (i v : Nat) (s : State) : (setI p f i v s).ports = s.ports := ports_setReg _ _ _
@[simp] theorem nbw_setI (p : Page) (f : Field) (i v : Nat) (s : State) : (setI p f i v s).nbw = s.nbw := nbw_setReg _ _ _
@[simp] theorem bbw_setI (p : Page) (f : Field) (i v : Nat) (s : State) : (setI p f i v s).bbw = s.bbw := bbw_setReg _ _ _
@[simp] theorem ncal_setI (p : Page) (f : Field) (i v : Nat) (s : State) : (setI p f i v s).ncal = s.ncal := ncal_setReg _ _ _
@[simp] theorem bcn_setI (p : Page) (f : Field) (i v : Nat) (s : State) : (setI p f i v s).bcn = s.bcn := bcn_setReg _ _ _
@[simp] theorem plan_setI (p : Page) (f : Field) (i v : Nat) (s : State) : (setI p f i v s).plan = s.plan := plan_setReg _ _ _
@[simp] theorem eng_setI (p : Page) (f : Field) (i v : Nat) (s : State) : (setI p f i v s).eng = s.eng := eng_setReg _ _ _
@[simp] theorem bq_setI (p : Page) (f : Field) (i v : Nat) (s : State) : (setI p f i v s).bq = s.bq := bq_setReg _ _ _
@[simp] theorem mem_setI (p : Page) (f : Field) (i v : Nat) (s : State) : (setI p f i v s).mem = s.mem := mem_setReg _ _ _
@[simp] theorem tru_setI (p : Page) (f : Field) (i v : Nat) (s : State) : (setI p f i v s).tru = s.tru := tru_setReg _ _ _
@[simp] theorem mac_setI (p : Page) (f : Field) (i v : Nat) (s : State) : (setI p f i v s).mac = s.mac := mac_setReg _ _ _
@[simp] theorem cip_setI (p : Page) (f : Field) (i v : Nat) (s : State) : (setI p f i v s).cip = s.cip := cip_setReg _ _ _
@[simp] theorem link_setI (p : Page) (f : Field) (i v : Nat) (s : State) : (setI p f i v s).link = s.link := link_setReg _ _ _
@[simp] theorem sto_setI (p : Page) (f : Field) (i v : Nat) (s : State) : (setI p f i v s).sto = s.sto := sto_setReg _ _ _
@[simp] theorem pair_setI (p : Page) (f : Field) (i v : Nat) (s : State) : (setI p f i v s).pair = s.pair := pair_setReg _ _ _
@[simp] theorem sen_setI (p : Page) (f : Field) (i v : Nat) (s : State) : (setI p f i v s).sen = s.sen := sen_setReg _ _ _
@[simp] theorem mgt_setI (p : Page) (f : Field) (i v : Nat) (s : State) : (setI p f i v s).mgt = s.mgt := mgt_setReg _ _ _
@[simp] theorem ser_setI (p : Page) (f : Field) (i v : Nat) (s : State) : (setI p f i v s).ser = s.ser := ser_setReg _ _ _
@[simp] theorem draws_setI (p : Page) (f : Field) (i v : Nat) (s : State) : (setI p f i v s).draws = s.draws := draws_setReg _ _ _
@[simp] theorem frees_setI (p : Page) (f : Field) (i v : Nat) (s : State) : (setI p f i v s).frees = s.frees := frees_setReg _ _ _
@[simp] theorem emits_setI (p : Page) (f : Field) (i v : Nat) (s : State) : (setI p f i v s).emits = s.emits := emits_setReg _ _ _
@[simp] theorem pending_setI (p : Page) (f : Field) (i v : Nat) (s : State) : (setI p f i v s).pending = s.pending := pending_setReg _ _ _

/-! setF -/

@[simp] theorem cmds_setF (p : Page) (f : Field) (v : Nat) (s : State) : (setF p f v s).cmds = s.cmds := cmds_setI _ _ _ _ _
@[simp] theorem log_setF (p : Page) (f : Field) (v : Nat) (s : State) : (setF p f v s).log = s.log := log_setI _ _ _ _ _
@[simp] theorem rings_setF (p : Page) (f : Field) (v : Nat) (s : State) : (setF p f v s).rings = s.rings := rings_setI _ _ _ _ _
@[simp] theorem msixMask_setF (p : Page) (f : Field) (v : Nat) (s : State) : (setF p f v s).msixMask = s.msixMask := msixMask_setI _ _ _ _ _
@[simp] theorem msixPba_setF (p : Page) (f : Field) (v : Nat) (s : State) : (setF p f v s).msixPba = s.msixPba := msixPba_setI _ _ _ _ _
@[simp] theorem msixTable_setF (p : Page) (f : Field) (v : Nat) (s : State) : (setF p f v s).msixTable = s.msixTable := msixTable_setI _ _ _ _ _
@[simp] theorem time_setF (p : Page) (f : Field) (v : Nat) (s : State) : (setF p f v s).time = s.time := time_setI _ _ _ _ _
@[simp] theorem pwr_setF (p : Page) (f : Field) (v : Nat) (s : State) : (setF p f v s).pwr = s.pwr := pwr_setI _ _ _ _ _
@[simp] theorem boot_setF (p : Page) (f : Field) (v : Nat) (s : State) : (setF p f v s).boot = s.boot := boot_setI _ _ _ _ _
@[simp] theorem ports_setF (p : Page) (f : Field) (v : Nat) (s : State) : (setF p f v s).ports = s.ports := ports_setI _ _ _ _ _
@[simp] theorem nbw_setF (p : Page) (f : Field) (v : Nat) (s : State) : (setF p f v s).nbw = s.nbw := nbw_setI _ _ _ _ _
@[simp] theorem bbw_setF (p : Page) (f : Field) (v : Nat) (s : State) : (setF p f v s).bbw = s.bbw := bbw_setI _ _ _ _ _
@[simp] theorem ncal_setF (p : Page) (f : Field) (v : Nat) (s : State) : (setF p f v s).ncal = s.ncal := ncal_setI _ _ _ _ _
@[simp] theorem bcn_setF (p : Page) (f : Field) (v : Nat) (s : State) : (setF p f v s).bcn = s.bcn := bcn_setI _ _ _ _ _
@[simp] theorem plan_setF (p : Page) (f : Field) (v : Nat) (s : State) : (setF p f v s).plan = s.plan := plan_setI _ _ _ _ _
@[simp] theorem eng_setF (p : Page) (f : Field) (v : Nat) (s : State) : (setF p f v s).eng = s.eng := eng_setI _ _ _ _ _
@[simp] theorem bq_setF (p : Page) (f : Field) (v : Nat) (s : State) : (setF p f v s).bq = s.bq := bq_setI _ _ _ _ _
@[simp] theorem mem_setF (p : Page) (f : Field) (v : Nat) (s : State) : (setF p f v s).mem = s.mem := mem_setI _ _ _ _ _
@[simp] theorem tru_setF (p : Page) (f : Field) (v : Nat) (s : State) : (setF p f v s).tru = s.tru := tru_setI _ _ _ _ _
@[simp] theorem mac_setF (p : Page) (f : Field) (v : Nat) (s : State) : (setF p f v s).mac = s.mac := mac_setI _ _ _ _ _
@[simp] theorem cip_setF (p : Page) (f : Field) (v : Nat) (s : State) : (setF p f v s).cip = s.cip := cip_setI _ _ _ _ _
@[simp] theorem link_setF (p : Page) (f : Field) (v : Nat) (s : State) : (setF p f v s).link = s.link := link_setI _ _ _ _ _
@[simp] theorem sto_setF (p : Page) (f : Field) (v : Nat) (s : State) : (setF p f v s).sto = s.sto := sto_setI _ _ _ _ _
@[simp] theorem pair_setF (p : Page) (f : Field) (v : Nat) (s : State) : (setF p f v s).pair = s.pair := pair_setI _ _ _ _ _
@[simp] theorem sen_setF (p : Page) (f : Field) (v : Nat) (s : State) : (setF p f v s).sen = s.sen := sen_setI _ _ _ _ _
@[simp] theorem mgt_setF (p : Page) (f : Field) (v : Nat) (s : State) : (setF p f v s).mgt = s.mgt := mgt_setI _ _ _ _ _
@[simp] theorem ser_setF (p : Page) (f : Field) (v : Nat) (s : State) : (setF p f v s).ser = s.ser := ser_setI _ _ _ _ _
@[simp] theorem draws_setF (p : Page) (f : Field) (v : Nat) (s : State) : (setF p f v s).draws = s.draws := draws_setI _ _ _ _ _
@[simp] theorem frees_setF (p : Page) (f : Field) (v : Nat) (s : State) : (setF p f v s).frees = s.frees := frees_setI _ _ _ _ _
@[simp] theorem emits_setF (p : Page) (f : Field) (v : Nat) (s : State) : (setF p f v s).emits = s.emits := emits_setI _ _ _ _ _
@[simp] theorem pending_setF (p : Page) (f : Field) (v : Nat) (s : State) : (setF p f v s).pending = s.pending := pending_setI _ _ _ _ _

/-! setB -/

@[simp] theorem cmds_setB (p : Page) (f : Field) (b : Bool) (s : State) : (setB p f b s).cmds = s.cmds := cmds_setF _ _ _ _
@[simp] theorem log_setB (p : Page) (f : Field) (b : Bool) (s : State) : (setB p f b s).log = s.log := log_setF _ _ _ _
@[simp] theorem rings_setB (p : Page) (f : Field) (b : Bool) (s : State) : (setB p f b s).rings = s.rings := rings_setF _ _ _ _
@[simp] theorem msixMask_setB (p : Page) (f : Field) (b : Bool) (s : State) : (setB p f b s).msixMask = s.msixMask := msixMask_setF _ _ _ _
@[simp] theorem msixPba_setB (p : Page) (f : Field) (b : Bool) (s : State) : (setB p f b s).msixPba = s.msixPba := msixPba_setF _ _ _ _
@[simp] theorem msixTable_setB (p : Page) (f : Field) (b : Bool) (s : State) : (setB p f b s).msixTable = s.msixTable := msixTable_setF _ _ _ _
@[simp] theorem time_setB (p : Page) (f : Field) (b : Bool) (s : State) : (setB p f b s).time = s.time := time_setF _ _ _ _
@[simp] theorem pwr_setB (p : Page) (f : Field) (b : Bool) (s : State) : (setB p f b s).pwr = s.pwr := pwr_setF _ _ _ _
@[simp] theorem boot_setB (p : Page) (f : Field) (b : Bool) (s : State) : (setB p f b s).boot = s.boot := boot_setF _ _ _ _
@[simp] theorem ports_setB (p : Page) (f : Field) (b : Bool) (s : State) : (setB p f b s).ports = s.ports := ports_setF _ _ _ _
@[simp] theorem nbw_setB (p : Page) (f : Field) (b : Bool) (s : State) : (setB p f b s).nbw = s.nbw := nbw_setF _ _ _ _
@[simp] theorem bbw_setB (p : Page) (f : Field) (b : Bool) (s : State) : (setB p f b s).bbw = s.bbw := bbw_setF _ _ _ _
@[simp] theorem ncal_setB (p : Page) (f : Field) (b : Bool) (s : State) : (setB p f b s).ncal = s.ncal := ncal_setF _ _ _ _
@[simp] theorem bcn_setB (p : Page) (f : Field) (b : Bool) (s : State) : (setB p f b s).bcn = s.bcn := bcn_setF _ _ _ _
@[simp] theorem plan_setB (p : Page) (f : Field) (b : Bool) (s : State) : (setB p f b s).plan = s.plan := plan_setF _ _ _ _
@[simp] theorem eng_setB (p : Page) (f : Field) (b : Bool) (s : State) : (setB p f b s).eng = s.eng := eng_setF _ _ _ _
@[simp] theorem bq_setB (p : Page) (f : Field) (b : Bool) (s : State) : (setB p f b s).bq = s.bq := bq_setF _ _ _ _
@[simp] theorem mem_setB (p : Page) (f : Field) (b : Bool) (s : State) : (setB p f b s).mem = s.mem := mem_setF _ _ _ _
@[simp] theorem tru_setB (p : Page) (f : Field) (b : Bool) (s : State) : (setB p f b s).tru = s.tru := tru_setF _ _ _ _
@[simp] theorem mac_setB (p : Page) (f : Field) (b : Bool) (s : State) : (setB p f b s).mac = s.mac := mac_setF _ _ _ _
@[simp] theorem cip_setB (p : Page) (f : Field) (b : Bool) (s : State) : (setB p f b s).cip = s.cip := cip_setF _ _ _ _
@[simp] theorem link_setB (p : Page) (f : Field) (b : Bool) (s : State) : (setB p f b s).link = s.link := link_setF _ _ _ _
@[simp] theorem sto_setB (p : Page) (f : Field) (b : Bool) (s : State) : (setB p f b s).sto = s.sto := sto_setF _ _ _ _
@[simp] theorem pair_setB (p : Page) (f : Field) (b : Bool) (s : State) : (setB p f b s).pair = s.pair := pair_setF _ _ _ _
@[simp] theorem sen_setB (p : Page) (f : Field) (b : Bool) (s : State) : (setB p f b s).sen = s.sen := sen_setF _ _ _ _
@[simp] theorem mgt_setB (p : Page) (f : Field) (b : Bool) (s : State) : (setB p f b s).mgt = s.mgt := mgt_setF _ _ _ _
@[simp] theorem ser_setB (p : Page) (f : Field) (b : Bool) (s : State) : (setB p f b s).ser = s.ser := ser_setF _ _ _ _
@[simp] theorem draws_setB (p : Page) (f : Field) (b : Bool) (s : State) : (setB p f b s).draws = s.draws := draws_setF _ _ _ _
@[simp] theorem frees_setB (p : Page) (f : Field) (b : Bool) (s : State) : (setB p f b s).frees = s.frees := frees_setF _ _ _ _
@[simp] theorem emits_setB (p : Page) (f : Field) (b : Bool) (s : State) : (setB p f b s).emits = s.emits := emits_setF _ _ _ _
@[simp] theorem pending_setB (p : Page) (f : Field) (b : Bool) (s : State) : (setB p f b s).pending = s.pending := pending_setF _ _ _ _

/-! countN -/

@[simp] theorem cmds_countN (p : Page) (f : Field) (n : Nat) (s : State) : (countN p f n s).cmds = s.cmds := cmds_setF _ _ _ _
@[simp] theorem log_countN (p : Page) (f : Field) (n : Nat) (s : State) : (countN p f n s).log = s.log := log_setF _ _ _ _
@[simp] theorem rings_countN (p : Page) (f : Field) (n : Nat) (s : State) : (countN p f n s).rings = s.rings := rings_setF _ _ _ _
@[simp] theorem msixMask_countN (p : Page) (f : Field) (n : Nat) (s : State) : (countN p f n s).msixMask = s.msixMask := msixMask_setF _ _ _ _
@[simp] theorem msixPba_countN (p : Page) (f : Field) (n : Nat) (s : State) : (countN p f n s).msixPba = s.msixPba := msixPba_setF _ _ _ _
@[simp] theorem msixTable_countN (p : Page) (f : Field) (n : Nat) (s : State) : (countN p f n s).msixTable = s.msixTable := msixTable_setF _ _ _ _
@[simp] theorem time_countN (p : Page) (f : Field) (n : Nat) (s : State) : (countN p f n s).time = s.time := time_setF _ _ _ _
@[simp] theorem pwr_countN (p : Page) (f : Field) (n : Nat) (s : State) : (countN p f n s).pwr = s.pwr := pwr_setF _ _ _ _
@[simp] theorem boot_countN (p : Page) (f : Field) (n : Nat) (s : State) : (countN p f n s).boot = s.boot := boot_setF _ _ _ _
@[simp] theorem ports_countN (p : Page) (f : Field) (n : Nat) (s : State) : (countN p f n s).ports = s.ports := ports_setF _ _ _ _
@[simp] theorem nbw_countN (p : Page) (f : Field) (n : Nat) (s : State) : (countN p f n s).nbw = s.nbw := nbw_setF _ _ _ _
@[simp] theorem bbw_countN (p : Page) (f : Field) (n : Nat) (s : State) : (countN p f n s).bbw = s.bbw := bbw_setF _ _ _ _
@[simp] theorem ncal_countN (p : Page) (f : Field) (n : Nat) (s : State) : (countN p f n s).ncal = s.ncal := ncal_setF _ _ _ _
@[simp] theorem bcn_countN (p : Page) (f : Field) (n : Nat) (s : State) : (countN p f n s).bcn = s.bcn := bcn_setF _ _ _ _
@[simp] theorem plan_countN (p : Page) (f : Field) (n : Nat) (s : State) : (countN p f n s).plan = s.plan := plan_setF _ _ _ _
@[simp] theorem eng_countN (p : Page) (f : Field) (n : Nat) (s : State) : (countN p f n s).eng = s.eng := eng_setF _ _ _ _
@[simp] theorem bq_countN (p : Page) (f : Field) (n : Nat) (s : State) : (countN p f n s).bq = s.bq := bq_setF _ _ _ _
@[simp] theorem mem_countN (p : Page) (f : Field) (n : Nat) (s : State) : (countN p f n s).mem = s.mem := mem_setF _ _ _ _
@[simp] theorem tru_countN (p : Page) (f : Field) (n : Nat) (s : State) : (countN p f n s).tru = s.tru := tru_setF _ _ _ _
@[simp] theorem mac_countN (p : Page) (f : Field) (n : Nat) (s : State) : (countN p f n s).mac = s.mac := mac_setF _ _ _ _
@[simp] theorem cip_countN (p : Page) (f : Field) (n : Nat) (s : State) : (countN p f n s).cip = s.cip := cip_setF _ _ _ _
@[simp] theorem link_countN (p : Page) (f : Field) (n : Nat) (s : State) : (countN p f n s).link = s.link := link_setF _ _ _ _
@[simp] theorem sto_countN (p : Page) (f : Field) (n : Nat) (s : State) : (countN p f n s).sto = s.sto := sto_setF _ _ _ _
@[simp] theorem pair_countN (p : Page) (f : Field) (n : Nat) (s : State) : (countN p f n s).pair = s.pair := pair_setF _ _ _ _
@[simp] theorem sen_countN (p : Page) (f : Field) (n : Nat) (s : State) : (countN p f n s).sen = s.sen := sen_setF _ _ _ _
@[simp] theorem mgt_countN (p : Page) (f : Field) (n : Nat) (s : State) : (countN p f n s).mgt = s.mgt := mgt_setF _ _ _ _
@[simp] theorem ser_countN (p : Page) (f : Field) (n : Nat) (s : State) : (countN p f n s).ser = s.ser := ser_setF _ _ _ _
@[simp] theorem draws_countN (p : Page) (f : Field) (n : Nat) (s : State) : (countN p f n s).draws = s.draws := draws_setF _ _ _ _
@[simp] theorem frees_countN (p : Page) (f : Field) (n : Nat) (s : State) : (countN p f n s).frees = s.frees := frees_setF _ _ _ _
@[simp] theorem emits_countN (p : Page) (f : Field) (n : Nat) (s : State) : (countN p f n s).emits = s.emits := emits_setF _ _ _ _
@[simp] theorem pending_countN (p : Page) (f : Field) (n : Nat) (s : State) : (countN p f n s).pending = s.pending := pending_setF _ _ _ _

/-! count -/

@[simp] theorem cmds_count (p : Page) (f : Field) (s : State) : (count p f s).cmds = s.cmds := cmds_countN _ _ _ _
@[simp] theorem log_count (p : Page) (f : Field) (s : State) : (count p f s).log = s.log := log_countN _ _ _ _
@[simp] theorem rings_count (p : Page) (f : Field) (s : State) : (count p f s).rings = s.rings := rings_countN _ _ _ _
@[simp] theorem msixMask_count (p : Page) (f : Field) (s : State) : (count p f s).msixMask = s.msixMask := msixMask_countN _ _ _ _
@[simp] theorem msixPba_count (p : Page) (f : Field) (s : State) : (count p f s).msixPba = s.msixPba := msixPba_countN _ _ _ _
@[simp] theorem msixTable_count (p : Page) (f : Field) (s : State) : (count p f s).msixTable = s.msixTable := msixTable_countN _ _ _ _
@[simp] theorem time_count (p : Page) (f : Field) (s : State) : (count p f s).time = s.time := time_countN _ _ _ _
@[simp] theorem pwr_count (p : Page) (f : Field) (s : State) : (count p f s).pwr = s.pwr := pwr_countN _ _ _ _
@[simp] theorem boot_count (p : Page) (f : Field) (s : State) : (count p f s).boot = s.boot := boot_countN _ _ _ _
@[simp] theorem ports_count (p : Page) (f : Field) (s : State) : (count p f s).ports = s.ports := ports_countN _ _ _ _
@[simp] theorem nbw_count (p : Page) (f : Field) (s : State) : (count p f s).nbw = s.nbw := nbw_countN _ _ _ _
@[simp] theorem bbw_count (p : Page) (f : Field) (s : State) : (count p f s).bbw = s.bbw := bbw_countN _ _ _ _
@[simp] theorem ncal_count (p : Page) (f : Field) (s : State) : (count p f s).ncal = s.ncal := ncal_countN _ _ _ _
@[simp] theorem bcn_count (p : Page) (f : Field) (s : State) : (count p f s).bcn = s.bcn := bcn_countN _ _ _ _
@[simp] theorem plan_count (p : Page) (f : Field) (s : State) : (count p f s).plan = s.plan := plan_countN _ _ _ _
@[simp] theorem eng_count (p : Page) (f : Field) (s : State) : (count p f s).eng = s.eng := eng_countN _ _ _ _
@[simp] theorem bq_count (p : Page) (f : Field) (s : State) : (count p f s).bq = s.bq := bq_countN _ _ _ _
@[simp] theorem mem_count (p : Page) (f : Field) (s : State) : (count p f s).mem = s.mem := mem_countN _ _ _ _
@[simp] theorem tru_count (p : Page) (f : Field) (s : State) : (count p f s).tru = s.tru := tru_countN _ _ _ _
@[simp] theorem mac_count (p : Page) (f : Field) (s : State) : (count p f s).mac = s.mac := mac_countN _ _ _ _
@[simp] theorem cip_count (p : Page) (f : Field) (s : State) : (count p f s).cip = s.cip := cip_countN _ _ _ _
@[simp] theorem link_count (p : Page) (f : Field) (s : State) : (count p f s).link = s.link := link_countN _ _ _ _
@[simp] theorem sto_count (p : Page) (f : Field) (s : State) : (count p f s).sto = s.sto := sto_countN _ _ _ _
@[simp] theorem pair_count (p : Page) (f : Field) (s : State) : (count p f s).pair = s.pair := pair_countN _ _ _ _
@[simp] theorem sen_count (p : Page) (f : Field) (s : State) : (count p f s).sen = s.sen := sen_countN _ _ _ _
@[simp] theorem mgt_count (p : Page) (f : Field) (s : State) : (count p f s).mgt = s.mgt := mgt_countN _ _ _ _
@[simp] theorem ser_count (p : Page) (f : Field) (s : State) : (count p f s).ser = s.ser := ser_countN _ _ _ _
@[simp] theorem draws_count (p : Page) (f : Field) (s : State) : (count p f s).draws = s.draws := draws_countN _ _ _ _
@[simp] theorem frees_count (p : Page) (f : Field) (s : State) : (count p f s).frees = s.frees := frees_countN _ _ _ _
@[simp] theorem emits_count (p : Page) (f : Field) (s : State) : (count p f s).emits = s.emits := emits_countN _ _ _ _
@[simp] theorem pending_count (p : Page) (f : Field) (s : State) : (count p f s).pending = s.pending := pending_countN _ _ _ _

/-! setFault -/

@[simp] theorem cmds_setFault (p : Page) (v : Nat) (s : State) : (setFault p v s).cmds = s.cmds := cmds_setReg _ _ _
@[simp] theorem log_setFault (p : Page) (v : Nat) (s : State) : (setFault p v s).log = s.log := log_setReg _ _ _
@[simp] theorem rings_setFault (p : Page) (v : Nat) (s : State) : (setFault p v s).rings = s.rings := rings_setReg _ _ _
@[simp] theorem msixMask_setFault (p : Page) (v : Nat) (s : State) : (setFault p v s).msixMask = s.msixMask := msixMask_setReg _ _ _
@[simp] theorem msixPba_setFault (p : Page) (v : Nat) (s : State) : (setFault p v s).msixPba = s.msixPba := msixPba_setReg _ _ _
@[simp] theorem msixTable_setFault (p : Page) (v : Nat) (s : State) : (setFault p v s).msixTable = s.msixTable := msixTable_setReg _ _ _
@[simp] theorem time_setFault (p : Page) (v : Nat) (s : State) : (setFault p v s).time = s.time := time_setReg _ _ _
@[simp] theorem pwr_setFault (p : Page) (v : Nat) (s : State) : (setFault p v s).pwr = s.pwr := pwr_setReg _ _ _
@[simp] theorem boot_setFault (p : Page) (v : Nat) (s : State) : (setFault p v s).boot = s.boot := boot_setReg _ _ _
@[simp] theorem ports_setFault (p : Page) (v : Nat) (s : State) : (setFault p v s).ports = s.ports := ports_setReg _ _ _
@[simp] theorem nbw_setFault (p : Page) (v : Nat) (s : State) : (setFault p v s).nbw = s.nbw := nbw_setReg _ _ _
@[simp] theorem bbw_setFault (p : Page) (v : Nat) (s : State) : (setFault p v s).bbw = s.bbw := bbw_setReg _ _ _
@[simp] theorem ncal_setFault (p : Page) (v : Nat) (s : State) : (setFault p v s).ncal = s.ncal := ncal_setReg _ _ _
@[simp] theorem bcn_setFault (p : Page) (v : Nat) (s : State) : (setFault p v s).bcn = s.bcn := bcn_setReg _ _ _
@[simp] theorem plan_setFault (p : Page) (v : Nat) (s : State) : (setFault p v s).plan = s.plan := plan_setReg _ _ _
@[simp] theorem eng_setFault (p : Page) (v : Nat) (s : State) : (setFault p v s).eng = s.eng := eng_setReg _ _ _
@[simp] theorem bq_setFault (p : Page) (v : Nat) (s : State) : (setFault p v s).bq = s.bq := bq_setReg _ _ _
@[simp] theorem mem_setFault (p : Page) (v : Nat) (s : State) : (setFault p v s).mem = s.mem := mem_setReg _ _ _
@[simp] theorem tru_setFault (p : Page) (v : Nat) (s : State) : (setFault p v s).tru = s.tru := tru_setReg _ _ _
@[simp] theorem mac_setFault (p : Page) (v : Nat) (s : State) : (setFault p v s).mac = s.mac := mac_setReg _ _ _
@[simp] theorem cip_setFault (p : Page) (v : Nat) (s : State) : (setFault p v s).cip = s.cip := cip_setReg _ _ _
@[simp] theorem link_setFault (p : Page) (v : Nat) (s : State) : (setFault p v s).link = s.link := link_setReg _ _ _
@[simp] theorem sto_setFault (p : Page) (v : Nat) (s : State) : (setFault p v s).sto = s.sto := sto_setReg _ _ _
@[simp] theorem pair_setFault (p : Page) (v : Nat) (s : State) : (setFault p v s).pair = s.pair := pair_setReg _ _ _
@[simp] theorem sen_setFault (p : Page) (v : Nat) (s : State) : (setFault p v s).sen = s.sen := sen_setReg _ _ _
@[simp] theorem mgt_setFault (p : Page) (v : Nat) (s : State) : (setFault p v s).mgt = s.mgt := mgt_setReg _ _ _
@[simp] theorem ser_setFault (p : Page) (v : Nat) (s : State) : (setFault p v s).ser = s.ser := ser_setReg _ _ _
@[simp] theorem draws_setFault (p : Page) (v : Nat) (s : State) : (setFault p v s).draws = s.draws := draws_setReg _ _ _
@[simp] theorem frees_setFault (p : Page) (v : Nat) (s : State) : (setFault p v s).frees = s.frees := frees_setReg _ _ _
@[simp] theorem emits_setFault (p : Page) (v : Nat) (s : State) : (setFault p v s).emits = s.emits := emits_setReg _ _ _
@[simp] theorem pending_setFault (p : Page) (v : Nat) (s : State) : (setFault p v s).pending = s.pending := pending_setReg _ _ _

/-! setReady -/

@[simp] theorem cmds_setReady (p : Page) (v : Nat) (s : State) : (setReady p v s).cmds = s.cmds := cmds_setReg _ _ _
@[simp] theorem log_setReady (p : Page) (v : Nat) (s : State) : (setReady p v s).log = s.log := log_setReg _ _ _
@[simp] theorem rings_setReady (p : Page) (v : Nat) (s : State) : (setReady p v s).rings = s.rings := rings_setReg _ _ _
@[simp] theorem msixMask_setReady (p : Page) (v : Nat) (s : State) : (setReady p v s).msixMask = s.msixMask := msixMask_setReg _ _ _
@[simp] theorem msixPba_setReady (p : Page) (v : Nat) (s : State) : (setReady p v s).msixPba = s.msixPba := msixPba_setReg _ _ _
@[simp] theorem msixTable_setReady (p : Page) (v : Nat) (s : State) : (setReady p v s).msixTable = s.msixTable := msixTable_setReg _ _ _
@[simp] theorem time_setReady (p : Page) (v : Nat) (s : State) : (setReady p v s).time = s.time := time_setReg _ _ _
@[simp] theorem pwr_setReady (p : Page) (v : Nat) (s : State) : (setReady p v s).pwr = s.pwr := pwr_setReg _ _ _
@[simp] theorem boot_setReady (p : Page) (v : Nat) (s : State) : (setReady p v s).boot = s.boot := boot_setReg _ _ _
@[simp] theorem ports_setReady (p : Page) (v : Nat) (s : State) : (setReady p v s).ports = s.ports := ports_setReg _ _ _
@[simp] theorem nbw_setReady (p : Page) (v : Nat) (s : State) : (setReady p v s).nbw = s.nbw := nbw_setReg _ _ _
@[simp] theorem bbw_setReady (p : Page) (v : Nat) (s : State) : (setReady p v s).bbw = s.bbw := bbw_setReg _ _ _
@[simp] theorem ncal_setReady (p : Page) (v : Nat) (s : State) : (setReady p v s).ncal = s.ncal := ncal_setReg _ _ _
@[simp] theorem bcn_setReady (p : Page) (v : Nat) (s : State) : (setReady p v s).bcn = s.bcn := bcn_setReg _ _ _
@[simp] theorem plan_setReady (p : Page) (v : Nat) (s : State) : (setReady p v s).plan = s.plan := plan_setReg _ _ _
@[simp] theorem eng_setReady (p : Page) (v : Nat) (s : State) : (setReady p v s).eng = s.eng := eng_setReg _ _ _
@[simp] theorem bq_setReady (p : Page) (v : Nat) (s : State) : (setReady p v s).bq = s.bq := bq_setReg _ _ _
@[simp] theorem mem_setReady (p : Page) (v : Nat) (s : State) : (setReady p v s).mem = s.mem := mem_setReg _ _ _
@[simp] theorem tru_setReady (p : Page) (v : Nat) (s : State) : (setReady p v s).tru = s.tru := tru_setReg _ _ _
@[simp] theorem mac_setReady (p : Page) (v : Nat) (s : State) : (setReady p v s).mac = s.mac := mac_setReg _ _ _
@[simp] theorem cip_setReady (p : Page) (v : Nat) (s : State) : (setReady p v s).cip = s.cip := cip_setReg _ _ _
@[simp] theorem link_setReady (p : Page) (v : Nat) (s : State) : (setReady p v s).link = s.link := link_setReg _ _ _
@[simp] theorem sto_setReady (p : Page) (v : Nat) (s : State) : (setReady p v s).sto = s.sto := sto_setReg _ _ _
@[simp] theorem pair_setReady (p : Page) (v : Nat) (s : State) : (setReady p v s).pair = s.pair := pair_setReg _ _ _
@[simp] theorem sen_setReady (p : Page) (v : Nat) (s : State) : (setReady p v s).sen = s.sen := sen_setReg _ _ _
@[simp] theorem mgt_setReady (p : Page) (v : Nat) (s : State) : (setReady p v s).mgt = s.mgt := mgt_setReg _ _ _
@[simp] theorem ser_setReady (p : Page) (v : Nat) (s : State) : (setReady p v s).ser = s.ser := ser_setReg _ _ _
@[simp] theorem draws_setReady (p : Page) (v : Nat) (s : State) : (setReady p v s).draws = s.draws := draws_setReg _ _ _
@[simp] theorem frees_setReady (p : Page) (v : Nat) (s : State) : (setReady p v s).frees = s.frees := frees_setReg _ _ _
@[simp] theorem emits_setReady (p : Page) (v : Nat) (s : State) : (setReady p v s).emits = s.emits := emits_setReg _ _ _
@[simp] theorem pending_setReady (p : Page) (v : Nat) (s : State) : (setReady p v s).pending = s.pending := pending_setReg _ _ _

/-! setStat -/

@[simp] theorem cmds_setStat (p : Page) (hi lo v : Nat) (s : State) : (setStat p hi lo v s).cmds = s.cmds := cmds_setReg _ _ _
@[simp] theorem log_setStat (p : Page) (hi lo v : Nat) (s : State) : (setStat p hi lo v s).log = s.log := log_setReg _ _ _
@[simp] theorem rings_setStat (p : Page) (hi lo v : Nat) (s : State) : (setStat p hi lo v s).rings = s.rings := rings_setReg _ _ _
@[simp] theorem msixMask_setStat (p : Page) (hi lo v : Nat) (s : State) : (setStat p hi lo v s).msixMask = s.msixMask := msixMask_setReg _ _ _
@[simp] theorem msixPba_setStat (p : Page) (hi lo v : Nat) (s : State) : (setStat p hi lo v s).msixPba = s.msixPba := msixPba_setReg _ _ _
@[simp] theorem msixTable_setStat (p : Page) (hi lo v : Nat) (s : State) : (setStat p hi lo v s).msixTable = s.msixTable := msixTable_setReg _ _ _
@[simp] theorem time_setStat (p : Page) (hi lo v : Nat) (s : State) : (setStat p hi lo v s).time = s.time := time_setReg _ _ _
@[simp] theorem pwr_setStat (p : Page) (hi lo v : Nat) (s : State) : (setStat p hi lo v s).pwr = s.pwr := pwr_setReg _ _ _
@[simp] theorem boot_setStat (p : Page) (hi lo v : Nat) (s : State) : (setStat p hi lo v s).boot = s.boot := boot_setReg _ _ _
@[simp] theorem ports_setStat (p : Page) (hi lo v : Nat) (s : State) : (setStat p hi lo v s).ports = s.ports := ports_setReg _ _ _
@[simp] theorem nbw_setStat (p : Page) (hi lo v : Nat) (s : State) : (setStat p hi lo v s).nbw = s.nbw := nbw_setReg _ _ _
@[simp] theorem bbw_setStat (p : Page) (hi lo v : Nat) (s : State) : (setStat p hi lo v s).bbw = s.bbw := bbw_setReg _ _ _
@[simp] theorem ncal_setStat (p : Page) (hi lo v : Nat) (s : State) : (setStat p hi lo v s).ncal = s.ncal := ncal_setReg _ _ _
@[simp] theorem bcn_setStat (p : Page) (hi lo v : Nat) (s : State) : (setStat p hi lo v s).bcn = s.bcn := bcn_setReg _ _ _
@[simp] theorem plan_setStat (p : Page) (hi lo v : Nat) (s : State) : (setStat p hi lo v s).plan = s.plan := plan_setReg _ _ _
@[simp] theorem eng_setStat (p : Page) (hi lo v : Nat) (s : State) : (setStat p hi lo v s).eng = s.eng := eng_setReg _ _ _
@[simp] theorem bq_setStat (p : Page) (hi lo v : Nat) (s : State) : (setStat p hi lo v s).bq = s.bq := bq_setReg _ _ _
@[simp] theorem mem_setStat (p : Page) (hi lo v : Nat) (s : State) : (setStat p hi lo v s).mem = s.mem := mem_setReg _ _ _
@[simp] theorem tru_setStat (p : Page) (hi lo v : Nat) (s : State) : (setStat p hi lo v s).tru = s.tru := tru_setReg _ _ _
@[simp] theorem mac_setStat (p : Page) (hi lo v : Nat) (s : State) : (setStat p hi lo v s).mac = s.mac := mac_setReg _ _ _
@[simp] theorem cip_setStat (p : Page) (hi lo v : Nat) (s : State) : (setStat p hi lo v s).cip = s.cip := cip_setReg _ _ _
@[simp] theorem link_setStat (p : Page) (hi lo v : Nat) (s : State) : (setStat p hi lo v s).link = s.link := link_setReg _ _ _
@[simp] theorem sto_setStat (p : Page) (hi lo v : Nat) (s : State) : (setStat p hi lo v s).sto = s.sto := sto_setReg _ _ _
@[simp] theorem pair_setStat (p : Page) (hi lo v : Nat) (s : State) : (setStat p hi lo v s).pair = s.pair := pair_setReg _ _ _
@[simp] theorem sen_setStat (p : Page) (hi lo v : Nat) (s : State) : (setStat p hi lo v s).sen = s.sen := sen_setReg _ _ _
@[simp] theorem mgt_setStat (p : Page) (hi lo v : Nat) (s : State) : (setStat p hi lo v s).mgt = s.mgt := mgt_setReg _ _ _
@[simp] theorem ser_setStat (p : Page) (hi lo v : Nat) (s : State) : (setStat p hi lo v s).ser = s.ser := ser_setReg _ _ _
@[simp] theorem draws_setStat (p : Page) (hi lo v : Nat) (s : State) : (setStat p hi lo v s).draws = s.draws := draws_setReg _ _ _
@[simp] theorem frees_setStat (p : Page) (hi lo v : Nat) (s : State) : (setStat p hi lo v s).frees = s.frees := frees_setReg _ _ _
@[simp] theorem emits_setStat (p : Page) (hi lo v : Nat) (s : State) : (setStat p hi lo v s).emits = s.emits := emits_setReg _ _ _
@[simp] theorem pending_setStat (p : Page) (hi lo v : Nat) (s : State) : (setStat p hi lo v s).pending = s.pending := pending_setReg _ _ _

/-! emit -/

@[simp] theorem regs_emit (e : Emit) (s : State) : (emit e s).regs = s.regs := rfl
@[simp] theorem cmds_emit (e : Emit) (s : State) : (emit e s).cmds = s.cmds := rfl
@[simp] theorem log_emit (e : Emit) (s : State) : (emit e s).log = s.log := rfl
@[simp] theorem rings_emit (e : Emit) (s : State) : (emit e s).rings = s.rings := rfl
@[simp] theorem msixMask_emit (e : Emit) (s : State) : (emit e s).msixMask = s.msixMask := rfl
@[simp] theorem msixPba_emit (e : Emit) (s : State) : (emit e s).msixPba = s.msixPba := rfl
@[simp] theorem msixTable_emit (e : Emit) (s : State) : (emit e s).msixTable = s.msixTable := rfl
@[simp] theorem time_emit (e : Emit) (s : State) : (emit e s).time = s.time := rfl
@[simp] theorem pwr_emit (e : Emit) (s : State) : (emit e s).pwr = s.pwr := rfl
@[simp] theorem boot_emit (e : Emit) (s : State) : (emit e s).boot = s.boot := rfl
@[simp] theorem ports_emit (e : Emit) (s : State) : (emit e s).ports = s.ports := rfl
@[simp] theorem nbw_emit (e : Emit) (s : State) : (emit e s).nbw = s.nbw := rfl
@[simp] theorem bbw_emit (e : Emit) (s : State) : (emit e s).bbw = s.bbw := rfl
@[simp] theorem ncal_emit (e : Emit) (s : State) : (emit e s).ncal = s.ncal := rfl
@[simp] theorem bcn_emit (e : Emit) (s : State) : (emit e s).bcn = s.bcn := rfl
@[simp] theorem plan_emit (e : Emit) (s : State) : (emit e s).plan = s.plan := rfl
@[simp] theorem eng_emit (e : Emit) (s : State) : (emit e s).eng = s.eng := rfl
@[simp] theorem bq_emit (e : Emit) (s : State) : (emit e s).bq = s.bq := rfl
@[simp] theorem mem_emit (e : Emit) (s : State) : (emit e s).mem = s.mem := rfl
@[simp] theorem tru_emit (e : Emit) (s : State) : (emit e s).tru = s.tru := rfl
@[simp] theorem mac_emit (e : Emit) (s : State) : (emit e s).mac = s.mac := rfl
@[simp] theorem cip_emit (e : Emit) (s : State) : (emit e s).cip = s.cip := rfl
@[simp] theorem link_emit (e : Emit) (s : State) : (emit e s).link = s.link := rfl
@[simp] theorem sto_emit (e : Emit) (s : State) : (emit e s).sto = s.sto := rfl
@[simp] theorem pair_emit (e : Emit) (s : State) : (emit e s).pair = s.pair := rfl
@[simp] theorem sen_emit (e : Emit) (s : State) : (emit e s).sen = s.sen := rfl
@[simp] theorem mgt_emit (e : Emit) (s : State) : (emit e s).mgt = s.mgt := rfl
@[simp] theorem ser_emit (e : Emit) (s : State) : (emit e s).ser = s.ser := rfl
@[simp] theorem draws_emit (e : Emit) (s : State) : (emit e s).draws = s.draws := rfl
@[simp] theorem frees_emit (e : Emit) (s : State) : (emit e s).frees = s.frees := rfl
@[simp] theorem pending_emit (e : Emit) (s : State) : (emit e s).pending = s.pending := rfl

/-! returnWord -/

@[simp] theorem regs_returnWord (w : Word) (s : State) : (returnWord w s).regs = s.regs := regs_emit _ _
@[simp] theorem cmds_returnWord (w : Word) (s : State) : (returnWord w s).cmds = s.cmds := cmds_emit _ _
@[simp] theorem log_returnWord (w : Word) (s : State) : (returnWord w s).log = s.log := log_emit _ _
@[simp] theorem rings_returnWord (w : Word) (s : State) : (returnWord w s).rings = s.rings := rings_emit _ _
@[simp] theorem msixMask_returnWord (w : Word) (s : State) : (returnWord w s).msixMask = s.msixMask := msixMask_emit _ _
@[simp] theorem msixPba_returnWord (w : Word) (s : State) : (returnWord w s).msixPba = s.msixPba := msixPba_emit _ _
@[simp] theorem msixTable_returnWord (w : Word) (s : State) : (returnWord w s).msixTable = s.msixTable := msixTable_emit _ _
@[simp] theorem time_returnWord (w : Word) (s : State) : (returnWord w s).time = s.time := time_emit _ _
@[simp] theorem pwr_returnWord (w : Word) (s : State) : (returnWord w s).pwr = s.pwr := pwr_emit _ _
@[simp] theorem boot_returnWord (w : Word) (s : State) : (returnWord w s).boot = s.boot := boot_emit _ _
@[simp] theorem ports_returnWord (w : Word) (s : State) : (returnWord w s).ports = s.ports := ports_emit _ _
@[simp] theorem nbw_returnWord (w : Word) (s : State) : (returnWord w s).nbw = s.nbw := nbw_emit _ _
@[simp] theorem bbw_returnWord (w : Word) (s : State) : (returnWord w s).bbw = s.bbw := bbw_emit _ _
@[simp] theorem ncal_returnWord (w : Word) (s : State) : (returnWord w s).ncal = s.ncal := ncal_emit _ _
@[simp] theorem bcn_returnWord (w : Word) (s : State) : (returnWord w s).bcn = s.bcn := bcn_emit _ _
@[simp] theorem plan_returnWord (w : Word) (s : State) : (returnWord w s).plan = s.plan := plan_emit _ _
@[simp] theorem eng_returnWord (w : Word) (s : State) : (returnWord w s).eng = s.eng := eng_emit _ _
@[simp] theorem bq_returnWord (w : Word) (s : State) : (returnWord w s).bq = s.bq := bq_emit _ _
@[simp] theorem mem_returnWord (w : Word) (s : State) : (returnWord w s).mem = s.mem := mem_emit _ _
@[simp] theorem tru_returnWord (w : Word) (s : State) : (returnWord w s).tru = s.tru := tru_emit _ _
@[simp] theorem mac_returnWord (w : Word) (s : State) : (returnWord w s).mac = s.mac := mac_emit _ _
@[simp] theorem cip_returnWord (w : Word) (s : State) : (returnWord w s).cip = s.cip := cip_emit _ _
@[simp] theorem link_returnWord (w : Word) (s : State) : (returnWord w s).link = s.link := link_emit _ _
@[simp] theorem sto_returnWord (w : Word) (s : State) : (returnWord w s).sto = s.sto := sto_emit _ _
@[simp] theorem pair_returnWord (w : Word) (s : State) : (returnWord w s).pair = s.pair := pair_emit _ _
@[simp] theorem sen_returnWord (w : Word) (s : State) : (returnWord w s).sen = s.sen := sen_emit _ _
@[simp] theorem mgt_returnWord (w : Word) (s : State) : (returnWord w s).mgt = s.mgt := mgt_emit _ _
@[simp] theorem ser_returnWord (w : Word) (s : State) : (returnWord w s).ser = s.ser := ser_emit _ _
@[simp] theorem draws_returnWord (w : Word) (s : State) : (returnWord w s).draws = s.draws := draws_emit _ _
@[simp] theorem frees_returnWord (w : Word) (s : State) : (returnWord w s).frees = s.frees := frees_emit _ _
@[simp] theorem pending_returnWord (w : Word) (s : State) : (returnWord w s).pending = s.pending := pending_emit _ _

/-! setRing -/

@[simp] theorem regs_setRing (r : Nat) (x : RingSt) (s : State) : (setRing r x s).regs = s.regs := rfl
@[simp] theorem cmds_setRing (r : Nat) (x : RingSt) (s : State) : (setRing r x s).cmds = s.cmds := rfl
@[simp] theorem log_setRing (r : Nat) (x : RingSt) (s : State) : (setRing r x s).log = s.log := rfl
@[simp] theorem msixMask_setRing (r : Nat) (x : RingSt) (s : State) : (setRing r x s).msixMask = s.msixMask := rfl
@[simp] theorem msixPba_setRing (r : Nat) (x : RingSt) (s : State) : (setRing r x s).msixPba = s.msixPba := rfl
@[simp] theorem msixTable_setRing (r : Nat) (x : RingSt) (s : State) : (setRing r x s).msixTable = s.msixTable := rfl
@[simp] theorem time_setRing (r : Nat) (x : RingSt) (s : State) : (setRing r x s).time = s.time := rfl
@[simp] theorem pwr_setRing (r : Nat) (x : RingSt) (s : State) : (setRing r x s).pwr = s.pwr := rfl
@[simp] theorem boot_setRing (r : Nat) (x : RingSt) (s : State) : (setRing r x s).boot = s.boot := rfl
@[simp] theorem ports_setRing (r : Nat) (x : RingSt) (s : State) : (setRing r x s).ports = s.ports := rfl
@[simp] theorem nbw_setRing (r : Nat) (x : RingSt) (s : State) : (setRing r x s).nbw = s.nbw := rfl
@[simp] theorem bbw_setRing (r : Nat) (x : RingSt) (s : State) : (setRing r x s).bbw = s.bbw := rfl
@[simp] theorem ncal_setRing (r : Nat) (x : RingSt) (s : State) : (setRing r x s).ncal = s.ncal := rfl
@[simp] theorem bcn_setRing (r : Nat) (x : RingSt) (s : State) : (setRing r x s).bcn = s.bcn := rfl
@[simp] theorem plan_setRing (r : Nat) (x : RingSt) (s : State) : (setRing r x s).plan = s.plan := rfl
@[simp] theorem eng_setRing (r : Nat) (x : RingSt) (s : State) : (setRing r x s).eng = s.eng := rfl
@[simp] theorem bq_setRing (r : Nat) (x : RingSt) (s : State) : (setRing r x s).bq = s.bq := rfl
@[simp] theorem mem_setRing (r : Nat) (x : RingSt) (s : State) : (setRing r x s).mem = s.mem := rfl
@[simp] theorem tru_setRing (r : Nat) (x : RingSt) (s : State) : (setRing r x s).tru = s.tru := rfl
@[simp] theorem mac_setRing (r : Nat) (x : RingSt) (s : State) : (setRing r x s).mac = s.mac := rfl
@[simp] theorem cip_setRing (r : Nat) (x : RingSt) (s : State) : (setRing r x s).cip = s.cip := rfl
@[simp] theorem link_setRing (r : Nat) (x : RingSt) (s : State) : (setRing r x s).link = s.link := rfl
@[simp] theorem sto_setRing (r : Nat) (x : RingSt) (s : State) : (setRing r x s).sto = s.sto := rfl
@[simp] theorem pair_setRing (r : Nat) (x : RingSt) (s : State) : (setRing r x s).pair = s.pair := rfl
@[simp] theorem sen_setRing (r : Nat) (x : RingSt) (s : State) : (setRing r x s).sen = s.sen := rfl
@[simp] theorem mgt_setRing (r : Nat) (x : RingSt) (s : State) : (setRing r x s).mgt = s.mgt := rfl
@[simp] theorem ser_setRing (r : Nat) (x : RingSt) (s : State) : (setRing r x s).ser = s.ser := rfl
@[simp] theorem draws_setRing (r : Nat) (x : RingSt) (s : State) : (setRing r x s).draws = s.draws := rfl
@[simp] theorem frees_setRing (r : Nat) (x : RingSt) (s : State) : (setRing r x s).frees = s.frees := rfl
@[simp] theorem emits_setRing (r : Nat) (x : RingSt) (s : State) : (setRing r x s).emits = s.emits := rfl
@[simp] theorem pending_setRing (r : Nat) (x : RingSt) (s : State) : (setRing r x s).pending = s.pending := rfl

/-! setSlot -/

@[simp] theorem regs_setSlot (p : Page) (c : CmdSlot) (s : State) : (setSlot p c s).regs = s.regs := rfl
@[simp] theorem log_setSlot (p : Page) (c : CmdSlot) (s : State) : (setSlot p c s).log = s.log := rfl
@[simp] theorem rings_setSlot (p : Page) (c : CmdSlot) (s : State) : (setSlot p c s).rings = s.rings := rfl
@[simp] theorem msixMask_setSlot (p : Page) (c : CmdSlot) (s : State) : (setSlot p c s).msixMask = s.msixMask := rfl
@[simp] theorem msixPba_setSlot (p : Page) (c : CmdSlot) (s : State) : (setSlot p c s).msixPba = s.msixPba := rfl
@[simp] theorem msixTable_setSlot (p : Page) (c : CmdSlot) (s : State) : (setSlot p c s).msixTable = s.msixTable := rfl
@[simp] theorem time_setSlot (p : Page) (c : CmdSlot) (s : State) : (setSlot p c s).time = s.time := rfl
@[simp] theorem pwr_setSlot (p : Page) (c : CmdSlot) (s : State) : (setSlot p c s).pwr = s.pwr := rfl
@[simp] theorem boot_setSlot (p : Page) (c : CmdSlot) (s : State) : (setSlot p c s).boot = s.boot := rfl
@[simp] theorem ports_setSlot (p : Page) (c : CmdSlot) (s : State) : (setSlot p c s).ports = s.ports := rfl
@[simp] theorem nbw_setSlot (p : Page) (c : CmdSlot) (s : State) : (setSlot p c s).nbw = s.nbw := rfl
@[simp] theorem bbw_setSlot (p : Page) (c : CmdSlot) (s : State) : (setSlot p c s).bbw = s.bbw := rfl
@[simp] theorem ncal_setSlot (p : Page) (c : CmdSlot) (s : State) : (setSlot p c s).ncal = s.ncal := rfl
@[simp] theorem bcn_setSlot (p : Page) (c : CmdSlot) (s : State) : (setSlot p c s).bcn = s.bcn := rfl
@[simp] theorem plan_setSlot (p : Page) (c : CmdSlot) (s : State) : (setSlot p c s).plan = s.plan := rfl
@[simp] theorem eng_setSlot (p : Page) (c : CmdSlot) (s : State) : (setSlot p c s).eng = s.eng := rfl
@[simp] theorem bq_setSlot (p : Page) (c : CmdSlot) (s : State) : (setSlot p c s).bq = s.bq := rfl
@[simp] theorem mem_setSlot (p : Page) (c : CmdSlot) (s : State) : (setSlot p c s).mem = s.mem := rfl
@[simp] theorem tru_setSlot (p : Page) (c : CmdSlot) (s : State) : (setSlot p c s).tru = s.tru := rfl
@[simp] theorem mac_setSlot (p : Page) (c : CmdSlot) (s : State) : (setSlot p c s).mac = s.mac := rfl
@[simp] theorem cip_setSlot (p : Page) (c : CmdSlot) (s : State) : (setSlot p c s).cip = s.cip := rfl
@[simp] theorem link_setSlot (p : Page) (c : CmdSlot) (s : State) : (setSlot p c s).link = s.link := rfl
@[simp] theorem sto_setSlot (p : Page) (c : CmdSlot) (s : State) : (setSlot p c s).sto = s.sto := rfl
@[simp] theorem pair_setSlot (p : Page) (c : CmdSlot) (s : State) : (setSlot p c s).pair = s.pair := rfl
@[simp] theorem sen_setSlot (p : Page) (c : CmdSlot) (s : State) : (setSlot p c s).sen = s.sen := rfl
@[simp] theorem mgt_setSlot (p : Page) (c : CmdSlot) (s : State) : (setSlot p c s).mgt = s.mgt := rfl
@[simp] theorem ser_setSlot (p : Page) (c : CmdSlot) (s : State) : (setSlot p c s).ser = s.ser := rfl
@[simp] theorem draws_setSlot (p : Page) (c : CmdSlot) (s : State) : (setSlot p c s).draws = s.draws := rfl
@[simp] theorem frees_setSlot (p : Page) (c : CmdSlot) (s : State) : (setSlot p c s).frees = s.frees := rfl
@[simp] theorem emits_setSlot (p : Page) (c : CmdSlot) (s : State) : (setSlot p c s).emits = s.emits := rfl
@[simp] theorem pending_setSlot (p : Page) (c : CmdSlot) (s : State) : (setSlot p c s).pending = s.pending := rfl

/-! setPort -/

@[simp] theorem regs_setPort (n : Nat) (x : PortSt) (s : State) : (setPort n x s).regs = s.regs := rfl
@[simp] theorem cmds_setPort (n : Nat) (x : PortSt) (s : State) : (setPort n x s).cmds = s.cmds := rfl
@[simp] theorem log_setPort (n : Nat) (x : PortSt) (s : State) : (setPort n x s).log = s.log := rfl
@[simp] theorem rings_setPort (n : Nat) (x : PortSt) (s : State) : (setPort n x s).rings = s.rings := rfl
@[simp] theorem msixMask_setPort (n : Nat) (x : PortSt) (s : State) : (setPort n x s).msixMask = s.msixMask := rfl
@[simp] theorem msixPba_setPort (n : Nat) (x : PortSt) (s : State) : (setPort n x s).msixPba = s.msixPba := rfl
@[simp] theorem msixTable_setPort (n : Nat) (x : PortSt) (s : State) : (setPort n x s).msixTable = s.msixTable := rfl
@[simp] theorem time_setPort (n : Nat) (x : PortSt) (s : State) : (setPort n x s).time = s.time := rfl
@[simp] theorem pwr_setPort (n : Nat) (x : PortSt) (s : State) : (setPort n x s).pwr = s.pwr := rfl
@[simp] theorem boot_setPort (n : Nat) (x : PortSt) (s : State) : (setPort n x s).boot = s.boot := rfl
@[simp] theorem nbw_setPort (n : Nat) (x : PortSt) (s : State) : (setPort n x s).nbw = s.nbw := rfl
@[simp] theorem bbw_setPort (n : Nat) (x : PortSt) (s : State) : (setPort n x s).bbw = s.bbw := rfl
@[simp] theorem ncal_setPort (n : Nat) (x : PortSt) (s : State) : (setPort n x s).ncal = s.ncal := rfl
@[simp] theorem bcn_setPort (n : Nat) (x : PortSt) (s : State) : (setPort n x s).bcn = s.bcn := rfl
@[simp] theorem plan_setPort (n : Nat) (x : PortSt) (s : State) : (setPort n x s).plan = s.plan := rfl
@[simp] theorem eng_setPort (n : Nat) (x : PortSt) (s : State) : (setPort n x s).eng = s.eng := rfl
@[simp] theorem bq_setPort (n : Nat) (x : PortSt) (s : State) : (setPort n x s).bq = s.bq := rfl
@[simp] theorem mem_setPort (n : Nat) (x : PortSt) (s : State) : (setPort n x s).mem = s.mem := rfl
@[simp] theorem tru_setPort (n : Nat) (x : PortSt) (s : State) : (setPort n x s).tru = s.tru := rfl
@[simp] theorem mac_setPort (n : Nat) (x : PortSt) (s : State) : (setPort n x s).mac = s.mac := rfl
@[simp] theorem cip_setPort (n : Nat) (x : PortSt) (s : State) : (setPort n x s).cip = s.cip := rfl
@[simp] theorem link_setPort (n : Nat) (x : PortSt) (s : State) : (setPort n x s).link = s.link := rfl
@[simp] theorem sto_setPort (n : Nat) (x : PortSt) (s : State) : (setPort n x s).sto = s.sto := rfl
@[simp] theorem pair_setPort (n : Nat) (x : PortSt) (s : State) : (setPort n x s).pair = s.pair := rfl
@[simp] theorem sen_setPort (n : Nat) (x : PortSt) (s : State) : (setPort n x s).sen = s.sen := rfl
@[simp] theorem mgt_setPort (n : Nat) (x : PortSt) (s : State) : (setPort n x s).mgt = s.mgt := rfl
@[simp] theorem ser_setPort (n : Nat) (x : PortSt) (s : State) : (setPort n x s).ser = s.ser := rfl
@[simp] theorem draws_setPort (n : Nat) (x : PortSt) (s : State) : (setPort n x s).draws = s.draws := rfl
@[simp] theorem frees_setPort (n : Nat) (x : PortSt) (s : State) : (setPort n x s).frees = s.frees := rfl
@[simp] theorem emits_setPort (n : Nat) (x : PortSt) (s : State) : (setPort n x s).emits = s.emits := rfl
@[simp] theorem pending_setPort (n : Nat) (x : PortSt) (s : State) : (setPort n x s).pending = s.pending := rfl

/-! setBurst -/

@[simp] theorem regs_setBurst (id : Nat) (b : Burst) (s : State) : (setBurst id b s).regs = s.regs := rfl
@[simp] theorem cmds_setBurst (id : Nat) (b : Burst) (s : State) : (setBurst id b s).cmds = s.cmds := rfl
@[simp] theorem log_setBurst (id : Nat) (b : Burst) (s : State) : (setBurst id b s).log = s.log := rfl
@[simp] theorem rings_setBurst (id : Nat) (b : Burst) (s : State) : (setBurst id b s).rings = s.rings := rfl
@[simp] theorem msixMask_setBurst (id : Nat) (b : Burst) (s : State) : (setBurst id b s).msixMask = s.msixMask := rfl
@[simp] theorem msixPba_setBurst (id : Nat) (b : Burst) (s : State) : (setBurst id b s).msixPba = s.msixPba := rfl
@[simp] theorem msixTable_setBurst (id : Nat) (b : Burst) (s : State) : (setBurst id b s).msixTable = s.msixTable := rfl
@[simp] theorem time_setBurst (id : Nat) (b : Burst) (s : State) : (setBurst id b s).time = s.time := rfl
@[simp] theorem pwr_setBurst (id : Nat) (b : Burst) (s : State) : (setBurst id b s).pwr = s.pwr := rfl
@[simp] theorem boot_setBurst (id : Nat) (b : Burst) (s : State) : (setBurst id b s).boot = s.boot := rfl
@[simp] theorem ports_setBurst (id : Nat) (b : Burst) (s : State) : (setBurst id b s).ports = s.ports := rfl
@[simp] theorem nbw_setBurst (id : Nat) (b : Burst) (s : State) : (setBurst id b s).nbw = s.nbw := rfl
@[simp] theorem bbw_setBurst (id : Nat) (b : Burst) (s : State) : (setBurst id b s).bbw = s.bbw := rfl
@[simp] theorem ncal_setBurst (id : Nat) (b : Burst) (s : State) : (setBurst id b s).ncal = s.ncal := rfl
@[simp] theorem bcn_setBurst (id : Nat) (b : Burst) (s : State) : (setBurst id b s).bcn = s.bcn := rfl
@[simp] theorem plan_setBurst (id : Nat) (b : Burst) (s : State) : (setBurst id b s).plan = s.plan := rfl
@[simp] theorem bq_setBurst (id : Nat) (b : Burst) (s : State) : (setBurst id b s).bq = s.bq := rfl
@[simp] theorem mem_setBurst (id : Nat) (b : Burst) (s : State) : (setBurst id b s).mem = s.mem := rfl
@[simp] theorem tru_setBurst (id : Nat) (b : Burst) (s : State) : (setBurst id b s).tru = s.tru := rfl
@[simp] theorem mac_setBurst (id : Nat) (b : Burst) (s : State) : (setBurst id b s).mac = s.mac := rfl
@[simp] theorem cip_setBurst (id : Nat) (b : Burst) (s : State) : (setBurst id b s).cip = s.cip := rfl
@[simp] theorem link_setBurst (id : Nat) (b : Burst) (s : State) : (setBurst id b s).link = s.link := rfl
@[simp] theorem sto_setBurst (id : Nat) (b : Burst) (s : State) : (setBurst id b s).sto = s.sto := rfl
@[simp] theorem pair_setBurst (id : Nat) (b : Burst) (s : State) : (setBurst id b s).pair = s.pair := rfl
@[simp] theorem sen_setBurst (id : Nat) (b : Burst) (s : State) : (setBurst id b s).sen = s.sen := rfl
@[simp] theorem mgt_setBurst (id : Nat) (b : Burst) (s : State) : (setBurst id b s).mgt = s.mgt := rfl
@[simp] theorem ser_setBurst (id : Nat) (b : Burst) (s : State) : (setBurst id b s).ser = s.ser := rfl
@[simp] theorem draws_setBurst (id : Nat) (b : Burst) (s : State) : (setBurst id b s).draws = s.draws := rfl
@[simp] theorem frees_setBurst (id : Nat) (b : Burst) (s : State) : (setBurst id b s).frees = s.frees := rfl
@[simp] theorem emits_setBurst (id : Nat) (b : Burst) (s : State) : (setBurst id b s).emits = s.emits := rfl
@[simp] theorem pending_setBurst (id : Nat) (b : Burst) (s : State) : (setBurst id b s).pending = s.pending := rfl

/-! setCluster -/

@[simp] theorem regs_setCluster (c : Nat) (x : ClusterSt) (s : State) : (setCluster c x s).regs = s.regs := rfl
@[simp] theorem cmds_setCluster (c : Nat) (x : ClusterSt) (s : State) : (setCluster c x s).cmds = s.cmds := rfl
@[simp] theorem log_setCluster (c : Nat) (x : ClusterSt) (s : State) : (setCluster c x s).log = s.log := rfl
@[simp] theorem rings_setCluster (c : Nat) (x : ClusterSt) (s : State) : (setCluster c x s).rings = s.rings := rfl
@[simp] theorem msixMask_setCluster (c : Nat) (x : ClusterSt) (s : State) : (setCluster c x s).msixMask = s.msixMask := rfl
@[simp] theorem msixPba_setCluster (c : Nat) (x : ClusterSt) (s : State) : (setCluster c x s).msixPba = s.msixPba := rfl
@[simp] theorem msixTable_setCluster (c : Nat) (x : ClusterSt) (s : State) : (setCluster c x s).msixTable = s.msixTable := rfl
@[simp] theorem time_setCluster (c : Nat) (x : ClusterSt) (s : State) : (setCluster c x s).time = s.time := rfl
@[simp] theorem pwr_setCluster (c : Nat) (x : ClusterSt) (s : State) : (setCluster c x s).pwr = s.pwr := rfl
@[simp] theorem boot_setCluster (c : Nat) (x : ClusterSt) (s : State) : (setCluster c x s).boot = s.boot := rfl
@[simp] theorem ports_setCluster (c : Nat) (x : ClusterSt) (s : State) : (setCluster c x s).ports = s.ports := rfl
@[simp] theorem nbw_setCluster (c : Nat) (x : ClusterSt) (s : State) : (setCluster c x s).nbw = s.nbw := rfl
@[simp] theorem bbw_setCluster (c : Nat) (x : ClusterSt) (s : State) : (setCluster c x s).bbw = s.bbw := rfl
@[simp] theorem ncal_setCluster (c : Nat) (x : ClusterSt) (s : State) : (setCluster c x s).ncal = s.ncal := rfl
@[simp] theorem bcn_setCluster (c : Nat) (x : ClusterSt) (s : State) : (setCluster c x s).bcn = s.bcn := rfl
@[simp] theorem plan_setCluster (c : Nat) (x : ClusterSt) (s : State) : (setCluster c x s).plan = s.plan := rfl
@[simp] theorem bq_setCluster (c : Nat) (x : ClusterSt) (s : State) : (setCluster c x s).bq = s.bq := rfl
@[simp] theorem mem_setCluster (c : Nat) (x : ClusterSt) (s : State) : (setCluster c x s).mem = s.mem := rfl
@[simp] theorem tru_setCluster (c : Nat) (x : ClusterSt) (s : State) : (setCluster c x s).tru = s.tru := rfl
@[simp] theorem mac_setCluster (c : Nat) (x : ClusterSt) (s : State) : (setCluster c x s).mac = s.mac := rfl
@[simp] theorem cip_setCluster (c : Nat) (x : ClusterSt) (s : State) : (setCluster c x s).cip = s.cip := rfl
@[simp] theorem link_setCluster (c : Nat) (x : ClusterSt) (s : State) : (setCluster c x s).link = s.link := rfl
@[simp] theorem sto_setCluster (c : Nat) (x : ClusterSt) (s : State) : (setCluster c x s).sto = s.sto := rfl
@[simp] theorem pair_setCluster (c : Nat) (x : ClusterSt) (s : State) : (setCluster c x s).pair = s.pair := rfl
@[simp] theorem sen_setCluster (c : Nat) (x : ClusterSt) (s : State) : (setCluster c x s).sen = s.sen := rfl
@[simp] theorem mgt_setCluster (c : Nat) (x : ClusterSt) (s : State) : (setCluster c x s).mgt = s.mgt := rfl
@[simp] theorem ser_setCluster (c : Nat) (x : ClusterSt) (s : State) : (setCluster c x s).ser = s.ser := rfl
@[simp] theorem draws_setCluster (c : Nat) (x : ClusterSt) (s : State) : (setCluster c x s).draws = s.draws := rfl
@[simp] theorem frees_setCluster (c : Nat) (x : ClusterSt) (s : State) : (setCluster c x s).frees = s.frees := rfl
@[simp] theorem emits_setCluster (c : Nat) (x : ClusterSt) (s : State) : (setCluster c x s).emits = s.emits := rfl
@[simp] theorem pending_setCluster (c : Nat) (x : ClusterSt) (s : State) : (setCluster c x s).pending = s.pending := rfl

/-! setQueue -/

@[simp] theorem regs_setQueue (id : Nat) (q : Queue) (s : State) : (setQueue id q s).regs = s.regs := rfl
@[simp] theorem cmds_setQueue (id : Nat) (q : Queue) (s : State) : (setQueue id q s).cmds = s.cmds := rfl
@[simp] theorem log_setQueue (id : Nat) (q : Queue) (s : State) : (setQueue id q s).log = s.log := rfl
@[simp] theorem rings_setQueue (id : Nat) (q : Queue) (s : State) : (setQueue id q s).rings = s.rings := rfl
@[simp] theorem msixMask_setQueue (id : Nat) (q : Queue) (s : State) : (setQueue id q s).msixMask = s.msixMask := rfl
@[simp] theorem msixPba_setQueue (id : Nat) (q : Queue) (s : State) : (setQueue id q s).msixPba = s.msixPba := rfl
@[simp] theorem msixTable_setQueue (id : Nat) (q : Queue) (s : State) : (setQueue id q s).msixTable = s.msixTable := rfl
@[simp] theorem time_setQueue (id : Nat) (q : Queue) (s : State) : (setQueue id q s).time = s.time := rfl
@[simp] theorem pwr_setQueue (id : Nat) (q : Queue) (s : State) : (setQueue id q s).pwr = s.pwr := rfl
@[simp] theorem boot_setQueue (id : Nat) (q : Queue) (s : State) : (setQueue id q s).boot = s.boot := rfl
@[simp] theorem ports_setQueue (id : Nat) (q : Queue) (s : State) : (setQueue id q s).ports = s.ports := rfl
@[simp] theorem nbw_setQueue (id : Nat) (q : Queue) (s : State) : (setQueue id q s).nbw = s.nbw := rfl
@[simp] theorem bbw_setQueue (id : Nat) (q : Queue) (s : State) : (setQueue id q s).bbw = s.bbw := rfl
@[simp] theorem ncal_setQueue (id : Nat) (q : Queue) (s : State) : (setQueue id q s).ncal = s.ncal := rfl
@[simp] theorem bcn_setQueue (id : Nat) (q : Queue) (s : State) : (setQueue id q s).bcn = s.bcn := rfl
@[simp] theorem plan_setQueue (id : Nat) (q : Queue) (s : State) : (setQueue id q s).plan = s.plan := rfl
@[simp] theorem eng_setQueue (id : Nat) (q : Queue) (s : State) : (setQueue id q s).eng = s.eng := rfl
@[simp] theorem mem_setQueue (id : Nat) (q : Queue) (s : State) : (setQueue id q s).mem = s.mem := rfl
@[simp] theorem tru_setQueue (id : Nat) (q : Queue) (s : State) : (setQueue id q s).tru = s.tru := rfl
@[simp] theorem mac_setQueue (id : Nat) (q : Queue) (s : State) : (setQueue id q s).mac = s.mac := rfl
@[simp] theorem cip_setQueue (id : Nat) (q : Queue) (s : State) : (setQueue id q s).cip = s.cip := rfl
@[simp] theorem link_setQueue (id : Nat) (q : Queue) (s : State) : (setQueue id q s).link = s.link := rfl
@[simp] theorem sto_setQueue (id : Nat) (q : Queue) (s : State) : (setQueue id q s).sto = s.sto := rfl
@[simp] theorem pair_setQueue (id : Nat) (q : Queue) (s : State) : (setQueue id q s).pair = s.pair := rfl
@[simp] theorem sen_setQueue (id : Nat) (q : Queue) (s : State) : (setQueue id q s).sen = s.sen := rfl
@[simp] theorem mgt_setQueue (id : Nat) (q : Queue) (s : State) : (setQueue id q s).mgt = s.mgt := rfl
@[simp] theorem ser_setQueue (id : Nat) (q : Queue) (s : State) : (setQueue id q s).ser = s.ser := rfl
@[simp] theorem draws_setQueue (id : Nat) (q : Queue) (s : State) : (setQueue id q s).draws = s.draws := rfl
@[simp] theorem frees_setQueue (id : Nat) (q : Queue) (s : State) : (setQueue id q s).frees = s.frees := rfl
@[simp] theorem emits_setQueue (id : Nat) (q : Queue) (s : State) : (setQueue id q s).emits = s.emits := rfl
@[simp] theorem pending_setQueue (id : Nat) (q : Queue) (s : State) : (setQueue id q s).pending = s.pending := rfl

/-! setPwr -/

@[simp] theorem regs_setPwr (x : PwrSt) (s : State) : (setPwr x s).regs = s.regs := rfl
@[simp] theorem cmds_setPwr (x : PwrSt) (s : State) : (setPwr x s).cmds = s.cmds := rfl
@[simp] theorem log_setPwr (x : PwrSt) (s : State) : (setPwr x s).log = s.log := rfl
@[simp] theorem rings_setPwr (x : PwrSt) (s : State) : (setPwr x s).rings = s.rings := rfl
@[simp] theorem msixMask_setPwr (x : PwrSt) (s : State) : (setPwr x s).msixMask = s.msixMask := rfl
@[simp] theorem msixPba_setPwr (x : PwrSt) (s : State) : (setPwr x s).msixPba = s.msixPba := rfl
@[simp] theorem msixTable_setPwr (x : PwrSt) (s : State) : (setPwr x s).msixTable = s.msixTable := rfl
@[simp] theorem time_setPwr (x : PwrSt) (s : State) : (setPwr x s).time = s.time := rfl
@[simp] theorem pwr_setPwr (x : PwrSt) (s : State) : (setPwr x s).pwr = x := rfl
@[simp] theorem boot_setPwr (x : PwrSt) (s : State) : (setPwr x s).boot = s.boot := rfl
@[simp] theorem ports_setPwr (x : PwrSt) (s : State) : (setPwr x s).ports = s.ports := rfl
@[simp] theorem nbw_setPwr (x : PwrSt) (s : State) : (setPwr x s).nbw = s.nbw := rfl
@[simp] theorem bbw_setPwr (x : PwrSt) (s : State) : (setPwr x s).bbw = s.bbw := rfl
@[simp] theorem ncal_setPwr (x : PwrSt) (s : State) : (setPwr x s).ncal = s.ncal := rfl
@[simp] theorem bcn_setPwr (x : PwrSt) (s : State) : (setPwr x s).bcn = s.bcn := rfl
@[simp] theorem plan_setPwr (x : PwrSt) (s : State) : (setPwr x s).plan = s.plan := rfl
@[simp] theorem eng_setPwr (x : PwrSt) (s : State) : (setPwr x s).eng = s.eng := rfl
@[simp] theorem bq_setPwr (x : PwrSt) (s : State) : (setPwr x s).bq = s.bq := rfl
@[simp] theorem mem_setPwr (x : PwrSt) (s : State) : (setPwr x s).mem = s.mem := rfl
@[simp] theorem tru_setPwr (x : PwrSt) (s : State) : (setPwr x s).tru = s.tru := rfl
@[simp] theorem mac_setPwr (x : PwrSt) (s : State) : (setPwr x s).mac = s.mac := rfl
@[simp] theorem cip_setPwr (x : PwrSt) (s : State) : (setPwr x s).cip = s.cip := rfl
@[simp] theorem link_setPwr (x : PwrSt) (s : State) : (setPwr x s).link = s.link := rfl
@[simp] theorem sto_setPwr (x : PwrSt) (s : State) : (setPwr x s).sto = s.sto := rfl
@[simp] theorem pair_setPwr (x : PwrSt) (s : State) : (setPwr x s).pair = s.pair := rfl
@[simp] theorem sen_setPwr (x : PwrSt) (s : State) : (setPwr x s).sen = s.sen := rfl
@[simp] theorem mgt_setPwr (x : PwrSt) (s : State) : (setPwr x s).mgt = s.mgt := rfl
@[simp] theorem ser_setPwr (x : PwrSt) (s : State) : (setPwr x s).ser = s.ser := rfl
@[simp] theorem draws_setPwr (x : PwrSt) (s : State) : (setPwr x s).draws = s.draws := rfl
@[simp] theorem frees_setPwr (x : PwrSt) (s : State) : (setPwr x s).frees = s.frees := rfl
@[simp] theorem emits_setPwr (x : PwrSt) (s : State) : (setPwr x s).emits = s.emits := rfl
@[simp] theorem pending_setPwr (x : PwrSt) (s : State) : (setPwr x s).pending = s.pending := rfl

/-! setTru -/

@[simp] theorem regs_setTru (x : TruSt) (s : State) : (setTru x s).regs = s.regs := rfl
@[simp] theorem cmds_setTru (x : TruSt) (s : State) : (setTru x s).cmds = s.cmds := rfl
@[simp] theorem log_setTru (x : TruSt) (s : State) : (setTru x s).log = s.log := rfl
@[simp] theorem rings_setTru (x : TruSt) (s : State) : (setTru x s).rings = s.rings := rfl
@[simp] theorem msixMask_setTru (x : TruSt) (s : State) : (setTru x s).msixMask = s.msixMask := rfl
@[simp] theorem msixPba_setTru (x : TruSt) (s : State) : (setTru x s).msixPba = s.msixPba := rfl
@[simp] theorem msixTable_setTru (x : TruSt) (s : State) : (setTru x s).msixTable = s.msixTable := rfl
@[simp] theorem time_setTru (x : TruSt) (s : State) : (setTru x s).time = s.time := rfl
@[simp] theorem pwr_setTru (x : TruSt) (s : State) : (setTru x s).pwr = s.pwr := rfl
@[simp] theorem boot_setTru (x : TruSt) (s : State) : (setTru x s).boot = s.boot := rfl
@[simp] theorem ports_setTru (x : TruSt) (s : State) : (setTru x s).ports = s.ports := rfl
@[simp] theorem nbw_setTru (x : TruSt) (s : State) : (setTru x s).nbw = s.nbw := rfl
@[simp] theorem bbw_setTru (x : TruSt) (s : State) : (setTru x s).bbw = s.bbw := rfl
@[simp] theorem ncal_setTru (x : TruSt) (s : State) : (setTru x s).ncal = s.ncal := rfl
@[simp] theorem bcn_setTru (x : TruSt) (s : State) : (setTru x s).bcn = s.bcn := rfl
@[simp] theorem plan_setTru (x : TruSt) (s : State) : (setTru x s).plan = s.plan := rfl
@[simp] theorem eng_setTru (x : TruSt) (s : State) : (setTru x s).eng = s.eng := rfl
@[simp] theorem bq_setTru (x : TruSt) (s : State) : (setTru x s).bq = s.bq := rfl
@[simp] theorem mem_setTru (x : TruSt) (s : State) : (setTru x s).mem = s.mem := rfl
@[simp] theorem tru_setTru (x : TruSt) (s : State) : (setTru x s).tru = x := rfl
@[simp] theorem mac_setTru (x : TruSt) (s : State) : (setTru x s).mac = s.mac := rfl
@[simp] theorem cip_setTru (x : TruSt) (s : State) : (setTru x s).cip = s.cip := rfl
@[simp] theorem link_setTru (x : TruSt) (s : State) : (setTru x s).link = s.link := rfl
@[simp] theorem sto_setTru (x : TruSt) (s : State) : (setTru x s).sto = s.sto := rfl
@[simp] theorem pair_setTru (x : TruSt) (s : State) : (setTru x s).pair = s.pair := rfl
@[simp] theorem sen_setTru (x : TruSt) (s : State) : (setTru x s).sen = s.sen := rfl
@[simp] theorem mgt_setTru (x : TruSt) (s : State) : (setTru x s).mgt = s.mgt := rfl
@[simp] theorem ser_setTru (x : TruSt) (s : State) : (setTru x s).ser = s.ser := rfl
@[simp] theorem draws_setTru (x : TruSt) (s : State) : (setTru x s).draws = s.draws := rfl
@[simp] theorem frees_setTru (x : TruSt) (s : State) : (setTru x s).frees = s.frees := rfl
@[simp] theorem emits_setTru (x : TruSt) (s : State) : (setTru x s).emits = s.emits := rfl
@[simp] theorem pending_setTru (x : TruSt) (s : State) : (setTru x s).pending = s.pending := rfl

/-! setMac -/

@[simp] theorem regs_setMac (m : MacSt) (s : State) : (setMac m s).regs = s.regs := rfl
@[simp] theorem cmds_setMac (m : MacSt) (s : State) : (setMac m s).cmds = s.cmds := rfl
@[simp] theorem log_setMac (m : MacSt) (s : State) : (setMac m s).log = s.log := rfl
@[simp] theorem rings_setMac (m : MacSt) (s : State) : (setMac m s).rings = s.rings := rfl
@[simp] theorem msixMask_setMac (m : MacSt) (s : State) : (setMac m s).msixMask = s.msixMask := rfl
@[simp] theorem msixPba_setMac (m : MacSt) (s : State) : (setMac m s).msixPba = s.msixPba := rfl
@[simp] theorem msixTable_setMac (m : MacSt) (s : State) : (setMac m s).msixTable = s.msixTable := rfl
@[simp] theorem time_setMac (m : MacSt) (s : State) : (setMac m s).time = s.time := rfl
@[simp] theorem pwr_setMac (m : MacSt) (s : State) : (setMac m s).pwr = s.pwr := rfl
@[simp] theorem boot_setMac (m : MacSt) (s : State) : (setMac m s).boot = s.boot := rfl
@[simp] theorem ports_setMac (m : MacSt) (s : State) : (setMac m s).ports = s.ports := rfl
@[simp] theorem nbw_setMac (m : MacSt) (s : State) : (setMac m s).nbw = s.nbw := rfl
@[simp] theorem bbw_setMac (m : MacSt) (s : State) : (setMac m s).bbw = s.bbw := rfl
@[simp] theorem ncal_setMac (m : MacSt) (s : State) : (setMac m s).ncal = s.ncal := rfl
@[simp] theorem bcn_setMac (m : MacSt) (s : State) : (setMac m s).bcn = s.bcn := rfl
@[simp] theorem plan_setMac (m : MacSt) (s : State) : (setMac m s).plan = s.plan := rfl
@[simp] theorem eng_setMac (m : MacSt) (s : State) : (setMac m s).eng = s.eng := rfl
@[simp] theorem bq_setMac (m : MacSt) (s : State) : (setMac m s).bq = s.bq := rfl
@[simp] theorem mem_setMac (m : MacSt) (s : State) : (setMac m s).mem = s.mem := rfl
@[simp] theorem tru_setMac (m : MacSt) (s : State) : (setMac m s).tru = s.tru := rfl
@[simp] theorem mac_setMac (m : MacSt) (s : State) : (setMac m s).mac = m := rfl
@[simp] theorem cip_setMac (m : MacSt) (s : State) : (setMac m s).cip = s.cip := rfl
@[simp] theorem link_setMac (m : MacSt) (s : State) : (setMac m s).link = s.link := rfl
@[simp] theorem sto_setMac (m : MacSt) (s : State) : (setMac m s).sto = s.sto := rfl
@[simp] theorem pair_setMac (m : MacSt) (s : State) : (setMac m s).pair = s.pair := rfl
@[simp] theorem sen_setMac (m : MacSt) (s : State) : (setMac m s).sen = s.sen := rfl
@[simp] theorem mgt_setMac (m : MacSt) (s : State) : (setMac m s).mgt = s.mgt := rfl
@[simp] theorem ser_setMac (m : MacSt) (s : State) : (setMac m s).ser = s.ser := rfl
@[simp] theorem draws_setMac (m : MacSt) (s : State) : (setMac m s).draws = s.draws := rfl
@[simp] theorem frees_setMac (m : MacSt) (s : State) : (setMac m s).frees = s.frees := rfl
@[simp] theorem emits_setMac (m : MacSt) (s : State) : (setMac m s).emits = s.emits := rfl
@[simp] theorem pending_setMac (m : MacSt) (s : State) : (setMac m s).pending = s.pending := rfl

/-! setLink -/

@[simp] theorem regs_setLink (x : LinkSt) (s : State) : (setLink x s).regs = s.regs := rfl
@[simp] theorem cmds_setLink (x : LinkSt) (s : State) : (setLink x s).cmds = s.cmds := rfl
@[simp] theorem log_setLink (x : LinkSt) (s : State) : (setLink x s).log = s.log := rfl
@[simp] theorem rings_setLink (x : LinkSt) (s : State) : (setLink x s).rings = s.rings := rfl
@[simp] theorem msixMask_setLink (x : LinkSt) (s : State) : (setLink x s).msixMask = s.msixMask := rfl
@[simp] theorem msixPba_setLink (x : LinkSt) (s : State) : (setLink x s).msixPba = s.msixPba := rfl
@[simp] theorem msixTable_setLink (x : LinkSt) (s : State) : (setLink x s).msixTable = s.msixTable := rfl
@[simp] theorem time_setLink (x : LinkSt) (s : State) : (setLink x s).time = s.time := rfl
@[simp] theorem pwr_setLink (x : LinkSt) (s : State) : (setLink x s).pwr = s.pwr := rfl
@[simp] theorem boot_setLink (x : LinkSt) (s : State) : (setLink x s).boot = s.boot := rfl
@[simp] theorem ports_setLink (x : LinkSt) (s : State) : (setLink x s).ports = s.ports := rfl
@[simp] theorem nbw_setLink (x : LinkSt) (s : State) : (setLink x s).nbw = s.nbw := rfl
@[simp] theorem bbw_setLink (x : LinkSt) (s : State) : (setLink x s).bbw = s.bbw := rfl
@[simp] theorem ncal_setLink (x : LinkSt) (s : State) : (setLink x s).ncal = s.ncal := rfl
@[simp] theorem bcn_setLink (x : LinkSt) (s : State) : (setLink x s).bcn = s.bcn := rfl
@[simp] theorem plan_setLink (x : LinkSt) (s : State) : (setLink x s).plan = s.plan := rfl
@[simp] theorem eng_setLink (x : LinkSt) (s : State) : (setLink x s).eng = s.eng := rfl
@[simp] theorem bq_setLink (x : LinkSt) (s : State) : (setLink x s).bq = s.bq := rfl
@[simp] theorem mem_setLink (x : LinkSt) (s : State) : (setLink x s).mem = s.mem := rfl
@[simp] theorem tru_setLink (x : LinkSt) (s : State) : (setLink x s).tru = s.tru := rfl
@[simp] theorem mac_setLink (x : LinkSt) (s : State) : (setLink x s).mac = s.mac := rfl
@[simp] theorem cip_setLink (x : LinkSt) (s : State) : (setLink x s).cip = s.cip := rfl
@[simp] theorem link_setLink (x : LinkSt) (s : State) : (setLink x s).link = x := rfl
@[simp] theorem sto_setLink (x : LinkSt) (s : State) : (setLink x s).sto = s.sto := rfl
@[simp] theorem pair_setLink (x : LinkSt) (s : State) : (setLink x s).pair = s.pair := rfl
@[simp] theorem sen_setLink (x : LinkSt) (s : State) : (setLink x s).sen = s.sen := rfl
@[simp] theorem mgt_setLink (x : LinkSt) (s : State) : (setLink x s).mgt = s.mgt := rfl
@[simp] theorem ser_setLink (x : LinkSt) (s : State) : (setLink x s).ser = s.ser := rfl
@[simp] theorem draws_setLink (x : LinkSt) (s : State) : (setLink x s).draws = s.draws := rfl
@[simp] theorem frees_setLink (x : LinkSt) (s : State) : (setLink x s).frees = s.frees := rfl
@[simp] theorem emits_setLink (x : LinkSt) (s : State) : (setLink x s).emits = s.emits := rfl
@[simp] theorem pending_setLink (x : LinkSt) (s : State) : (setLink x s).pending = s.pending := rfl

/-! setPair -/

@[simp] theorem regs_setPair (x : PairSt) (s : State) : (setPair x s).regs = s.regs := rfl
@[simp] theorem cmds_setPair (x : PairSt) (s : State) : (setPair x s).cmds = s.cmds := rfl
@[simp] theorem log_setPair (x : PairSt) (s : State) : (setPair x s).log = s.log := rfl
@[simp] theorem rings_setPair (x : PairSt) (s : State) : (setPair x s).rings = s.rings := rfl
@[simp] theorem msixMask_setPair (x : PairSt) (s : State) : (setPair x s).msixMask = s.msixMask := rfl
@[simp] theorem msixPba_setPair (x : PairSt) (s : State) : (setPair x s).msixPba = s.msixPba := rfl
@[simp] theorem msixTable_setPair (x : PairSt) (s : State) : (setPair x s).msixTable = s.msixTable := rfl
@[simp] theorem time_setPair (x : PairSt) (s : State) : (setPair x s).time = s.time := rfl
@[simp] theorem pwr_setPair (x : PairSt) (s : State) : (setPair x s).pwr = s.pwr := rfl
@[simp] theorem boot_setPair (x : PairSt) (s : State) : (setPair x s).boot = s.boot := rfl
@[simp] theorem ports_setPair (x : PairSt) (s : State) : (setPair x s).ports = s.ports := rfl
@[simp] theorem nbw_setPair (x : PairSt) (s : State) : (setPair x s).nbw = s.nbw := rfl
@[simp] theorem bbw_setPair (x : PairSt) (s : State) : (setPair x s).bbw = s.bbw := rfl
@[simp] theorem ncal_setPair (x : PairSt) (s : State) : (setPair x s).ncal = s.ncal := rfl
@[simp] theorem bcn_setPair (x : PairSt) (s : State) : (setPair x s).bcn = s.bcn := rfl
@[simp] theorem plan_setPair (x : PairSt) (s : State) : (setPair x s).plan = s.plan := rfl
@[simp] theorem eng_setPair (x : PairSt) (s : State) : (setPair x s).eng = s.eng := rfl
@[simp] theorem bq_setPair (x : PairSt) (s : State) : (setPair x s).bq = s.bq := rfl
@[simp] theorem mem_setPair (x : PairSt) (s : State) : (setPair x s).mem = s.mem := rfl
@[simp] theorem tru_setPair (x : PairSt) (s : State) : (setPair x s).tru = s.tru := rfl
@[simp] theorem mac_setPair (x : PairSt) (s : State) : (setPair x s).mac = s.mac := rfl
@[simp] theorem cip_setPair (x : PairSt) (s : State) : (setPair x s).cip = s.cip := rfl
@[simp] theorem link_setPair (x : PairSt) (s : State) : (setPair x s).link = s.link := rfl
@[simp] theorem sto_setPair (x : PairSt) (s : State) : (setPair x s).sto = s.sto := rfl
@[simp] theorem pair_setPair (x : PairSt) (s : State) : (setPair x s).pair = x := rfl
@[simp] theorem sen_setPair (x : PairSt) (s : State) : (setPair x s).sen = s.sen := rfl
@[simp] theorem mgt_setPair (x : PairSt) (s : State) : (setPair x s).mgt = s.mgt := rfl
@[simp] theorem ser_setPair (x : PairSt) (s : State) : (setPair x s).ser = s.ser := rfl
@[simp] theorem draws_setPair (x : PairSt) (s : State) : (setPair x s).draws = s.draws := rfl
@[simp] theorem frees_setPair (x : PairSt) (s : State) : (setPair x s).frees = s.frees := rfl
@[simp] theorem emits_setPair (x : PairSt) (s : State) : (setPair x s).emits = s.emits := rfl
@[simp] theorem pending_setPair (x : PairSt) (s : State) : (setPair x s).pending = s.pending := rfl

/-! setChan -/

@[simp] theorem regs_setChan (n : Nat) (x : ChanSt) (s : State) : (setChan n x s).regs = s.regs := rfl
@[simp] theorem cmds_setChan (n : Nat) (x : ChanSt) (s : State) : (setChan n x s).cmds = s.cmds := rfl
@[simp] theorem log_setChan (n : Nat) (x : ChanSt) (s : State) : (setChan n x s).log = s.log := rfl
@[simp] theorem rings_setChan (n : Nat) (x : ChanSt) (s : State) : (setChan n x s).rings = s.rings := rfl
@[simp] theorem msixMask_setChan (n : Nat) (x : ChanSt) (s : State) : (setChan n x s).msixMask = s.msixMask := rfl
@[simp] theorem msixPba_setChan (n : Nat) (x : ChanSt) (s : State) : (setChan n x s).msixPba = s.msixPba := rfl
@[simp] theorem msixTable_setChan (n : Nat) (x : ChanSt) (s : State) : (setChan n x s).msixTable = s.msixTable := rfl
@[simp] theorem time_setChan (n : Nat) (x : ChanSt) (s : State) : (setChan n x s).time = s.time := rfl
@[simp] theorem pwr_setChan (n : Nat) (x : ChanSt) (s : State) : (setChan n x s).pwr = s.pwr := rfl
@[simp] theorem boot_setChan (n : Nat) (x : ChanSt) (s : State) : (setChan n x s).boot = s.boot := rfl
@[simp] theorem ports_setChan (n : Nat) (x : ChanSt) (s : State) : (setChan n x s).ports = s.ports := rfl
@[simp] theorem nbw_setChan (n : Nat) (x : ChanSt) (s : State) : (setChan n x s).nbw = s.nbw := rfl
@[simp] theorem bbw_setChan (n : Nat) (x : ChanSt) (s : State) : (setChan n x s).bbw = s.bbw := rfl
@[simp] theorem ncal_setChan (n : Nat) (x : ChanSt) (s : State) : (setChan n x s).ncal = s.ncal := rfl
@[simp] theorem bcn_setChan (n : Nat) (x : ChanSt) (s : State) : (setChan n x s).bcn = s.bcn := rfl
@[simp] theorem plan_setChan (n : Nat) (x : ChanSt) (s : State) : (setChan n x s).plan = s.plan := rfl
@[simp] theorem eng_setChan (n : Nat) (x : ChanSt) (s : State) : (setChan n x s).eng = s.eng := rfl
@[simp] theorem bq_setChan (n : Nat) (x : ChanSt) (s : State) : (setChan n x s).bq = s.bq := rfl
@[simp] theorem mem_setChan (n : Nat) (x : ChanSt) (s : State) : (setChan n x s).mem = s.mem := rfl
@[simp] theorem tru_setChan (n : Nat) (x : ChanSt) (s : State) : (setChan n x s).tru = s.tru := rfl
@[simp] theorem mac_setChan (n : Nat) (x : ChanSt) (s : State) : (setChan n x s).mac = s.mac := rfl
@[simp] theorem cip_setChan (n : Nat) (x : ChanSt) (s : State) : (setChan n x s).cip = s.cip := rfl
@[simp] theorem link_setChan (n : Nat) (x : ChanSt) (s : State) : (setChan n x s).link = s.link := rfl
@[simp] theorem sto_setChan (n : Nat) (x : ChanSt) (s : State) : (setChan n x s).sto = s.sto := rfl
@[simp] theorem pair_setChan (n : Nat) (x : ChanSt) (s : State) : (setChan n x s).pair = s.pair := rfl
@[simp] theorem mgt_setChan (n : Nat) (x : ChanSt) (s : State) : (setChan n x s).mgt = s.mgt := rfl
@[simp] theorem ser_setChan (n : Nat) (x : ChanSt) (s : State) : (setChan n x s).ser = s.ser := rfl
@[simp] theorem draws_setChan (n : Nat) (x : ChanSt) (s : State) : (setChan n x s).draws = s.draws := rfl
@[simp] theorem frees_setChan (n : Nat) (x : ChanSt) (s : State) : (setChan n x s).frees = s.frees := rfl
@[simp] theorem emits_setChan (n : Nat) (x : ChanSt) (s : State) : (setChan n x s).emits = s.emits := rfl
@[simp] theorem pending_setChan (n : Nat) (x : ChanSt) (s : State) : (setChan n x s).pending = s.pending := rfl

/-! setSerial -/

@[simp] theorem regs_setSerial (n : Nat) (x : SerSt) (s : State) : (setSerial n x s).regs = s.regs := rfl
@[simp] theorem cmds_setSerial (n : Nat) (x : SerSt) (s : State) : (setSerial n x s).cmds = s.cmds := rfl
@[simp] theorem log_setSerial (n : Nat) (x : SerSt) (s : State) : (setSerial n x s).log = s.log := rfl
@[simp] theorem rings_setSerial (n : Nat) (x : SerSt) (s : State) : (setSerial n x s).rings = s.rings := rfl
@[simp] theorem msixMask_setSerial (n : Nat) (x : SerSt) (s : State) : (setSerial n x s).msixMask = s.msixMask := rfl
@[simp] theorem msixPba_setSerial (n : Nat) (x : SerSt) (s : State) : (setSerial n x s).msixPba = s.msixPba := rfl
@[simp] theorem msixTable_setSerial (n : Nat) (x : SerSt) (s : State) : (setSerial n x s).msixTable = s.msixTable := rfl
@[simp] theorem time_setSerial (n : Nat) (x : SerSt) (s : State) : (setSerial n x s).time = s.time := rfl
@[simp] theorem pwr_setSerial (n : Nat) (x : SerSt) (s : State) : (setSerial n x s).pwr = s.pwr := rfl
@[simp] theorem boot_setSerial (n : Nat) (x : SerSt) (s : State) : (setSerial n x s).boot = s.boot := rfl
@[simp] theorem ports_setSerial (n : Nat) (x : SerSt) (s : State) : (setSerial n x s).ports = s.ports := rfl
@[simp] theorem nbw_setSerial (n : Nat) (x : SerSt) (s : State) : (setSerial n x s).nbw = s.nbw := rfl
@[simp] theorem bbw_setSerial (n : Nat) (x : SerSt) (s : State) : (setSerial n x s).bbw = s.bbw := rfl
@[simp] theorem ncal_setSerial (n : Nat) (x : SerSt) (s : State) : (setSerial n x s).ncal = s.ncal := rfl
@[simp] theorem bcn_setSerial (n : Nat) (x : SerSt) (s : State) : (setSerial n x s).bcn = s.bcn := rfl
@[simp] theorem plan_setSerial (n : Nat) (x : SerSt) (s : State) : (setSerial n x s).plan = s.plan := rfl
@[simp] theorem eng_setSerial (n : Nat) (x : SerSt) (s : State) : (setSerial n x s).eng = s.eng := rfl
@[simp] theorem bq_setSerial (n : Nat) (x : SerSt) (s : State) : (setSerial n x s).bq = s.bq := rfl
@[simp] theorem mem_setSerial (n : Nat) (x : SerSt) (s : State) : (setSerial n x s).mem = s.mem := rfl
@[simp] theorem tru_setSerial (n : Nat) (x : SerSt) (s : State) : (setSerial n x s).tru = s.tru := rfl
@[simp] theorem mac_setSerial (n : Nat) (x : SerSt) (s : State) : (setSerial n x s).mac = s.mac := rfl
@[simp] theorem cip_setSerial (n : Nat) (x : SerSt) (s : State) : (setSerial n x s).cip = s.cip := rfl
@[simp] theorem link_setSerial (n : Nat) (x : SerSt) (s : State) : (setSerial n x s).link = s.link := rfl
@[simp] theorem sto_setSerial (n : Nat) (x : SerSt) (s : State) : (setSerial n x s).sto = s.sto := rfl
@[simp] theorem pair_setSerial (n : Nat) (x : SerSt) (s : State) : (setSerial n x s).pair = s.pair := rfl
@[simp] theorem sen_setSerial (n : Nat) (x : SerSt) (s : State) : (setSerial n x s).sen = s.sen := rfl
@[simp] theorem mgt_setSerial (n : Nat) (x : SerSt) (s : State) : (setSerial n x s).mgt = s.mgt := rfl
@[simp] theorem draws_setSerial (n : Nat) (x : SerSt) (s : State) : (setSerial n x s).draws = s.draws := rfl
@[simp] theorem frees_setSerial (n : Nat) (x : SerSt) (s : State) : (setSerial n x s).frees = s.frees := rfl
@[simp] theorem emits_setSerial (n : Nat) (x : SerSt) (s : State) : (setSerial n x s).emits = s.emits := rfl
@[simp] theorem pending_setSerial (n : Nat) (x : SerSt) (s : State) : (setSerial n x s).pending = s.pending := rfl

/-! setCal -/

@[simp] theorem regs_setCal (p : Nat) (c : CalSt) (s : State) : (setCal p c s).regs = s.regs := rfl
@[simp] theorem cmds_setCal (p : Nat) (c : CalSt) (s : State) : (setCal p c s).cmds = s.cmds := rfl
@[simp] theorem log_setCal (p : Nat) (c : CalSt) (s : State) : (setCal p c s).log = s.log := rfl
@[simp] theorem rings_setCal (p : Nat) (c : CalSt) (s : State) : (setCal p c s).rings = s.rings := rfl
@[simp] theorem msixMask_setCal (p : Nat) (c : CalSt) (s : State) : (setCal p c s).msixMask = s.msixMask := rfl
@[simp] theorem msixPba_setCal (p : Nat) (c : CalSt) (s : State) : (setCal p c s).msixPba = s.msixPba := rfl
@[simp] theorem msixTable_setCal (p : Nat) (c : CalSt) (s : State) : (setCal p c s).msixTable = s.msixTable := rfl
@[simp] theorem time_setCal (p : Nat) (c : CalSt) (s : State) : (setCal p c s).time = s.time := rfl
@[simp] theorem pwr_setCal (p : Nat) (c : CalSt) (s : State) : (setCal p c s).pwr = s.pwr := rfl
@[simp] theorem boot_setCal (p : Nat) (c : CalSt) (s : State) : (setCal p c s).boot = s.boot := rfl
@[simp] theorem ports_setCal (p : Nat) (c : CalSt) (s : State) : (setCal p c s).ports = s.ports := rfl
@[simp] theorem nbw_setCal (p : Nat) (c : CalSt) (s : State) : (setCal p c s).nbw = s.nbw := rfl
@[simp] theorem bbw_setCal (p : Nat) (c : CalSt) (s : State) : (setCal p c s).bbw = s.bbw := rfl
@[simp] theorem bcn_setCal (p : Nat) (c : CalSt) (s : State) : (setCal p c s).bcn = s.bcn := rfl
@[simp] theorem plan_setCal (p : Nat) (c : CalSt) (s : State) : (setCal p c s).plan = s.plan := rfl
@[simp] theorem eng_setCal (p : Nat) (c : CalSt) (s : State) : (setCal p c s).eng = s.eng := rfl
@[simp] theorem bq_setCal (p : Nat) (c : CalSt) (s : State) : (setCal p c s).bq = s.bq := rfl
@[simp] theorem mem_setCal (p : Nat) (c : CalSt) (s : State) : (setCal p c s).mem = s.mem := rfl
@[simp] theorem tru_setCal (p : Nat) (c : CalSt) (s : State) : (setCal p c s).tru = s.tru := rfl
@[simp] theorem mac_setCal (p : Nat) (c : CalSt) (s : State) : (setCal p c s).mac = s.mac := rfl
@[simp] theorem cip_setCal (p : Nat) (c : CalSt) (s : State) : (setCal p c s).cip = s.cip := rfl
@[simp] theorem link_setCal (p : Nat) (c : CalSt) (s : State) : (setCal p c s).link = s.link := rfl
@[simp] theorem sto_setCal (p : Nat) (c : CalSt) (s : State) : (setCal p c s).sto = s.sto := rfl
@[simp] theorem pair_setCal (p : Nat) (c : CalSt) (s : State) : (setCal p c s).pair = s.pair := rfl
@[simp] theorem sen_setCal (p : Nat) (c : CalSt) (s : State) : (setCal p c s).sen = s.sen := rfl
@[simp] theorem mgt_setCal (p : Nat) (c : CalSt) (s : State) : (setCal p c s).mgt = s.mgt := rfl
@[simp] theorem ser_setCal (p : Nat) (c : CalSt) (s : State) : (setCal p c s).ser = s.ser := rfl
@[simp] theorem draws_setCal (p : Nat) (c : CalSt) (s : State) : (setCal p c s).draws = s.draws := rfl
@[simp] theorem frees_setCal (p : Nat) (c : CalSt) (s : State) : (setCal p c s).frees = s.frees := rfl
@[simp] theorem emits_setCal (p : Nat) (c : CalSt) (s : State) : (setCal p c s).emits = s.emits := rfl
@[simp] theorem pending_setCal (p : Nat) (c : CalSt) (s : State) : (setCal p c s).pending = s.pending := rfl

/-! An interrupt changes registers, pending bits and what is sent, nothing else. -/

theorem sendVector_shape (v : Nat) (s : State) : ∃ b e, sendVector v s = { s with msixPba := b, emits := e } := by
  unfold sendVector
  split
  · exact ⟨_, _, rfl⟩
  · exact ⟨_, _, rfl⟩

theorem raiseMask_shape (p : Page) (m : Word) (s : State) : ∃ r b e, raiseMask p m s = { s with regs := r, msixPba := b, emits := e } := by
  unfold raiseMask afterInt
  split
  · obtain ⟨b, e, h⟩ := sendVector_shape (pageVector p) (setReg (addr p offIntStat) (reg s (addr p offIntStat) ||| m) s)
    exact ⟨_, b, e, h⟩
  · exact ⟨_, _, _, rfl⟩

theorem raise_shape (p : Page) (n : Nat) (s : State) : ∃ r b e, raise p n s = { s with regs := r, msixPba := b, emits := e } := raiseMask_shape _ _ _

theorem countErr_shape (p : Page) (s : State) : ∃ r b e, countErr p s = { s with regs := r, msixPba := b, emits := e } := by
  unfold countErr
  extract_lets w n w1
  obtain ⟨r, b, e, h⟩ := raise_shape p INT.ERR (setReg (addr p offErrCnt) (if n = 65535 then setBits w1 31 31 1 else w1) s)
  exact ⟨r, b, e, h⟩


@[simp] theorem log_raiseMask (p : Page) (m : Word) (s : State) : (raiseMask p m s).log = s.log := by
  obtain ⟨_, _, _, h⟩ := raiseMask_shape p m s
  rw [h]

@[simp] theorem rings_raiseMask (p : Page) (m : Word) (s : State) : (raiseMask p m s).rings = s.rings := by
  obtain ⟨_, _, _, h⟩ := raiseMask_shape p m s
  rw [h]

@[simp] theorem msixMask_raiseMask (p : Page) (m : Word) (s : State) : (raiseMask p m s).msixMask = s.msixMask := by
  obtain ⟨_, _, _, h⟩ := raiseMask_shape p m s
  rw [h]

@[simp] theorem msixTable_raiseMask (p : Page) (m : Word) (s : State) : (raiseMask p m s).msixTable = s.msixTable := by
  obtain ⟨_, _, _, h⟩ := raiseMask_shape p m s
  rw [h]

@[simp] theorem time_raiseMask (p : Page) (m : Word) (s : State) : (raiseMask p m s).time = s.time := by
  obtain ⟨_, _, _, h⟩ := raiseMask_shape p m s
  rw [h]

@[simp] theorem pwr_raiseMask (p : Page) (m : Word) (s : State) : (raiseMask p m s).pwr = s.pwr := by
  obtain ⟨_, _, _, h⟩ := raiseMask_shape p m s
  rw [h]

@[simp] theorem boot_raiseMask (p : Page) (m : Word) (s : State) : (raiseMask p m s).boot = s.boot := by
  obtain ⟨_, _, _, h⟩ := raiseMask_shape p m s
  rw [h]

@[simp] theorem ports_raiseMask (p : Page) (m : Word) (s : State) : (raiseMask p m s).ports = s.ports := by
  obtain ⟨_, _, _, h⟩ := raiseMask_shape p m s
  rw [h]

@[simp] theorem nbw_raiseMask (p : Page) (m : Word) (s : State) : (raiseMask p m s).nbw = s.nbw := by
  obtain ⟨_, _, _, h⟩ := raiseMask_shape p m s
  rw [h]

@[simp] theorem bbw_raiseMask (p : Page) (m : Word) (s : State) : (raiseMask p m s).bbw = s.bbw := by
  obtain ⟨_, _, _, h⟩ := raiseMask_shape p m s
  rw [h]

@[simp] theorem ncal_raiseMask (p : Page) (m : Word) (s : State) : (raiseMask p m s).ncal = s.ncal := by
  obtain ⟨_, _, _, h⟩ := raiseMask_shape p m s
  rw [h]

@[simp] theorem bcn_raiseMask (p : Page) (m : Word) (s : State) : (raiseMask p m s).bcn = s.bcn := by
  obtain ⟨_, _, _, h⟩ := raiseMask_shape p m s
  rw [h]

@[simp] theorem plan_raiseMask (p : Page) (m : Word) (s : State) : (raiseMask p m s).plan = s.plan := by
  obtain ⟨_, _, _, h⟩ := raiseMask_shape p m s
  rw [h]

@[simp] theorem eng_raiseMask (p : Page) (m : Word) (s : State) : (raiseMask p m s).eng = s.eng := by
  obtain ⟨_, _, _, h⟩ := raiseMask_shape p m s
  rw [h]

@[simp] theorem bq_raiseMask (p : Page) (m : Word) (s : State) : (raiseMask p m s).bq = s.bq := by
  obtain ⟨_, _, _, h⟩ := raiseMask_shape p m s
  rw [h]

@[simp] theorem mem_raiseMask (p : Page) (m : Word) (s : State) : (raiseMask p m s).mem = s.mem := by
  obtain ⟨_, _, _, h⟩ := raiseMask_shape p m s
  rw [h]

@[simp] theorem tru_raiseMask (p : Page) (m : Word) (s : State) : (raiseMask p m s).tru = s.tru := by
  obtain ⟨_, _, _, h⟩ := raiseMask_shape p m s
  rw [h]

@[simp] theorem mac_raiseMask (p : Page) (m : Word) (s : State) : (raiseMask p m s).mac = s.mac := by
  obtain ⟨_, _, _, h⟩ := raiseMask_shape p m s
  rw [h]

@[simp] theorem cip_raiseMask (p : Page) (m : Word) (s : State) : (raiseMask p m s).cip = s.cip := by
  obtain ⟨_, _, _, h⟩ := raiseMask_shape p m s
  rw [h]

@[simp] theorem link_raiseMask (p : Page) (m : Word) (s : State) : (raiseMask p m s).link = s.link := by
  obtain ⟨_, _, _, h⟩ := raiseMask_shape p m s
  rw [h]

@[simp] theorem sto_raiseMask (p : Page) (m : Word) (s : State) : (raiseMask p m s).sto = s.sto := by
  obtain ⟨_, _, _, h⟩ := raiseMask_shape p m s
  rw [h]

@[simp] theorem pair_raiseMask (p : Page) (m : Word) (s : State) : (raiseMask p m s).pair = s.pair := by
  obtain ⟨_, _, _, h⟩ := raiseMask_shape p m s
  rw [h]

@[simp] theorem sen_raiseMask (p : Page) (m : Word) (s : State) : (raiseMask p m s).sen = s.sen := by
  obtain ⟨_, _, _, h⟩ := raiseMask_shape p m s
  rw [h]

@[simp] theorem mgt_raiseMask (p : Page) (m : Word) (s : State) : (raiseMask p m s).mgt = s.mgt := by
  obtain ⟨_, _, _, h⟩ := raiseMask_shape p m s
  rw [h]

@[simp] theorem ser_raiseMask (p : Page) (m : Word) (s : State) : (raiseMask p m s).ser = s.ser := by
  obtain ⟨_, _, _, h⟩ := raiseMask_shape p m s
  rw [h]

@[simp] theorem draws_raiseMask (p : Page) (m : Word) (s : State) : (raiseMask p m s).draws = s.draws := by
  obtain ⟨_, _, _, h⟩ := raiseMask_shape p m s
  rw [h]

@[simp] theorem frees_raiseMask (p : Page) (m : Word) (s : State) : (raiseMask p m s).frees = s.frees := by
  obtain ⟨_, _, _, h⟩ := raiseMask_shape p m s
  rw [h]

@[simp] theorem pending_raiseMask (p : Page) (m : Word) (s : State) : (raiseMask p m s).pending = s.pending := by
  obtain ⟨_, _, _, h⟩ := raiseMask_shape p m s
  rw [h]

@[simp] theorem log_raise (p : Page) (n : Nat) (s : State) : (raise p n s).log = s.log := by
  obtain ⟨_, _, _, h⟩ := raise_shape p n s
  rw [h]

@[simp] theorem rings_raise (p : Page) (n : Nat) (s : State) : (raise p n s).rings = s.rings := by
  obtain ⟨_, _, _, h⟩ := raise_shape p n s
  rw [h]

@[simp] theorem msixMask_raise (p : Page) (n : Nat) (s : State) : (raise p n s).msixMask = s.msixMask := by
  obtain ⟨_, _, _, h⟩ := raise_shape p n s
  rw [h]

@[simp] theorem msixTable_raise (p : Page) (n : Nat) (s : State) : (raise p n s).msixTable = s.msixTable := by
  obtain ⟨_, _, _, h⟩ := raise_shape p n s
  rw [h]

@[simp] theorem time_raise (p : Page) (n : Nat) (s : State) : (raise p n s).time = s.time := by
  obtain ⟨_, _, _, h⟩ := raise_shape p n s
  rw [h]

@[simp] theorem pwr_raise (p : Page) (n : Nat) (s : State) : (raise p n s).pwr = s.pwr := by
  obtain ⟨_, _, _, h⟩ := raise_shape p n s
  rw [h]

@[simp] theorem boot_raise (p : Page) (n : Nat) (s : State) : (raise p n s).boot = s.boot := by
  obtain ⟨_, _, _, h⟩ := raise_shape p n s
  rw [h]

@[simp] theorem ports_raise (p : Page) (n : Nat) (s : State) : (raise p n s).ports = s.ports := by
  obtain ⟨_, _, _, h⟩ := raise_shape p n s
  rw [h]

@[simp] theorem nbw_raise (p : Page) (n : Nat) (s : State) : (raise p n s).nbw = s.nbw := by
  obtain ⟨_, _, _, h⟩ := raise_shape p n s
  rw [h]

@[simp] theorem bbw_raise (p : Page) (n : Nat) (s : State) : (raise p n s).bbw = s.bbw := by
  obtain ⟨_, _, _, h⟩ := raise_shape p n s
  rw [h]

@[simp] theorem ncal_raise (p : Page) (n : Nat) (s : State) : (raise p n s).ncal = s.ncal := by
  obtain ⟨_, _, _, h⟩ := raise_shape p n s
  rw [h]

@[simp] theorem bcn_raise (p : Page) (n : Nat) (s : State) : (raise p n s).bcn = s.bcn := by
  obtain ⟨_, _, _, h⟩ := raise_shape p n s
  rw [h]

@[simp] theorem plan_raise (p : Page) (n : Nat) (s : State) : (raise p n s).plan = s.plan := by
  obtain ⟨_, _, _, h⟩ := raise_shape p n s
  rw [h]

@[simp] theorem eng_raise (p : Page) (n : Nat) (s : State) : (raise p n s).eng = s.eng := by
  obtain ⟨_, _, _, h⟩ := raise_shape p n s
  rw [h]

@[simp] theorem bq_raise (p : Page) (n : Nat) (s : State) : (raise p n s).bq = s.bq := by
  obtain ⟨_, _, _, h⟩ := raise_shape p n s
  rw [h]

@[simp] theorem mem_raise (p : Page) (n : Nat) (s : State) : (raise p n s).mem = s.mem := by
  obtain ⟨_, _, _, h⟩ := raise_shape p n s
  rw [h]

@[simp] theorem tru_raise (p : Page) (n : Nat) (s : State) : (raise p n s).tru = s.tru := by
  obtain ⟨_, _, _, h⟩ := raise_shape p n s
  rw [h]

@[simp] theorem mac_raise (p : Page) (n : Nat) (s : State) : (raise p n s).mac = s.mac := by
  obtain ⟨_, _, _, h⟩ := raise_shape p n s
  rw [h]

@[simp] theorem cip_raise (p : Page) (n : Nat) (s : State) : (raise p n s).cip = s.cip := by
  obtain ⟨_, _, _, h⟩ := raise_shape p n s
  rw [h]

@[simp] theorem link_raise (p : Page) (n : Nat) (s : State) : (raise p n s).link = s.link := by
  obtain ⟨_, _, _, h⟩ := raise_shape p n s
  rw [h]

@[simp] theorem sto_raise (p : Page) (n : Nat) (s : State) : (raise p n s).sto = s.sto := by
  obtain ⟨_, _, _, h⟩ := raise_shape p n s
  rw [h]

@[simp] theorem pair_raise (p : Page) (n : Nat) (s : State) : (raise p n s).pair = s.pair := by
  obtain ⟨_, _, _, h⟩ := raise_shape p n s
  rw [h]

@[simp] theorem sen_raise (p : Page) (n : Nat) (s : State) : (raise p n s).sen = s.sen := by
  obtain ⟨_, _, _, h⟩ := raise_shape p n s
  rw [h]

@[simp] theorem mgt_raise (p : Page) (n : Nat) (s : State) : (raise p n s).mgt = s.mgt := by
  obtain ⟨_, _, _, h⟩ := raise_shape p n s
  rw [h]

@[simp] theorem ser_raise (p : Page) (n : Nat) (s : State) : (raise p n s).ser = s.ser := by
  obtain ⟨_, _, _, h⟩ := raise_shape p n s
  rw [h]

@[simp] theorem draws_raise (p : Page) (n : Nat) (s : State) : (raise p n s).draws = s.draws := by
  obtain ⟨_, _, _, h⟩ := raise_shape p n s
  rw [h]

@[simp] theorem frees_raise (p : Page) (n : Nat) (s : State) : (raise p n s).frees = s.frees := by
  obtain ⟨_, _, _, h⟩ := raise_shape p n s
  rw [h]

@[simp] theorem pending_raise (p : Page) (n : Nat) (s : State) : (raise p n s).pending = s.pending := by
  obtain ⟨_, _, _, h⟩ := raise_shape p n s
  rw [h]

@[simp] theorem cmds_countErr (p : Page) (s : State) : (countErr p s).cmds = s.cmds := by
  obtain ⟨_, _, _, h⟩ := countErr_shape p s
  rw [h]

@[simp] theorem log_countErr (p : Page) (s : State) : (countErr p s).log = s.log := by
  obtain ⟨_, _, _, h⟩ := countErr_shape p s
  rw [h]

@[simp] theorem rings_countErr (p : Page) (s : State) : (countErr p s).rings = s.rings := by
  obtain ⟨_, _, _, h⟩ := countErr_shape p s
  rw [h]

@[simp] theorem msixMask_countErr (p : Page) (s : State) : (countErr p s).msixMask = s.msixMask := by
  obtain ⟨_, _, _, h⟩ := countErr_shape p s
  rw [h]

@[simp] theorem msixTable_countErr (p : Page) (s : State) : (countErr p s).msixTable = s.msixTable := by
  obtain ⟨_, _, _, h⟩ := countErr_shape p s
  rw [h]

@[simp] theorem time_countErr (p : Page) (s : State) : (countErr p s).time = s.time := by
  obtain ⟨_, _, _, h⟩ := countErr_shape p s
  rw [h]

@[simp] theorem pwr_countErr (p : Page) (s : State) : (countErr p s).pwr = s.pwr := by
  obtain ⟨_, _, _, h⟩ := countErr_shape p s
  rw [h]

@[simp] theorem boot_countErr (p : Page) (s : State) : (countErr p s).boot = s.boot := by
  obtain ⟨_, _, _, h⟩ := countErr_shape p s
  rw [h]

@[simp] theorem ports_countErr (p : Page) (s : State) : (countErr p s).ports = s.ports := by
  obtain ⟨_, _, _, h⟩ := countErr_shape p s
  rw [h]

@[simp] theorem nbw_countErr (p : Page) (s : State) : (countErr p s).nbw = s.nbw := by
  obtain ⟨_, _, _, h⟩ := countErr_shape p s
  rw [h]

@[simp] theorem bbw_countErr (p : Page) (s : State) : (countErr p s).bbw = s.bbw := by
  obtain ⟨_, _, _, h⟩ := countErr_shape p s
  rw [h]

@[simp] theorem ncal_countErr (p : Page) (s : State) : (countErr p s).ncal = s.ncal := by
  obtain ⟨_, _, _, h⟩ := countErr_shape p s
  rw [h]

@[simp] theorem bcn_countErr (p : Page) (s : State) : (countErr p s).bcn = s.bcn := by
  obtain ⟨_, _, _, h⟩ := countErr_shape p s
  rw [h]

@[simp] theorem plan_countErr (p : Page) (s : State) : (countErr p s).plan = s.plan := by
  obtain ⟨_, _, _, h⟩ := countErr_shape p s
  rw [h]

@[simp] theorem eng_countErr (p : Page) (s : State) : (countErr p s).eng = s.eng := by
  obtain ⟨_, _, _, h⟩ := countErr_shape p s
  rw [h]

@[simp] theorem bq_countErr (p : Page) (s : State) : (countErr p s).bq = s.bq := by
  obtain ⟨_, _, _, h⟩ := countErr_shape p s
  rw [h]

@[simp] theorem mem_countErr (p : Page) (s : State) : (countErr p s).mem = s.mem := by
  obtain ⟨_, _, _, h⟩ := countErr_shape p s
  rw [h]

@[simp] theorem tru_countErr (p : Page) (s : State) : (countErr p s).tru = s.tru := by
  obtain ⟨_, _, _, h⟩ := countErr_shape p s
  rw [h]

@[simp] theorem mac_countErr (p : Page) (s : State) : (countErr p s).mac = s.mac := by
  obtain ⟨_, _, _, h⟩ := countErr_shape p s
  rw [h]

@[simp] theorem cip_countErr (p : Page) (s : State) : (countErr p s).cip = s.cip := by
  obtain ⟨_, _, _, h⟩ := countErr_shape p s
  rw [h]

@[simp] theorem link_countErr (p : Page) (s : State) : (countErr p s).link = s.link := by
  obtain ⟨_, _, _, h⟩ := countErr_shape p s
  rw [h]

@[simp] theorem sto_countErr (p : Page) (s : State) : (countErr p s).sto = s.sto := by
  obtain ⟨_, _, _, h⟩ := countErr_shape p s
  rw [h]

@[simp] theorem pair_countErr (p : Page) (s : State) : (countErr p s).pair = s.pair := by
  obtain ⟨_, _, _, h⟩ := countErr_shape p s
  rw [h]

@[simp] theorem sen_countErr (p : Page) (s : State) : (countErr p s).sen = s.sen := by
  obtain ⟨_, _, _, h⟩ := countErr_shape p s
  rw [h]

@[simp] theorem mgt_countErr (p : Page) (s : State) : (countErr p s).mgt = s.mgt := by
  obtain ⟨_, _, _, h⟩ := countErr_shape p s
  rw [h]

@[simp] theorem ser_countErr (p : Page) (s : State) : (countErr p s).ser = s.ser := by
  obtain ⟨_, _, _, h⟩ := countErr_shape p s
  rw [h]

@[simp] theorem draws_countErr (p : Page) (s : State) : (countErr p s).draws = s.draws := by
  obtain ⟨_, _, _, h⟩ := countErr_shape p s
  rw [h]

@[simp] theorem frees_countErr (p : Page) (s : State) : (countErr p s).frees = s.frees := by
  obtain ⟨_, _, _, h⟩ := countErr_shape p s
  rw [h]

@[simp] theorem pending_countErr (p : Page) (s : State) : (countErr p s).pending = s.pending := by
  obtain ⟨_, _, _, h⟩ := countErr_shape p s
  rw [h]

end Sys2Proof.Machine
end

