-- ==== Sys2Proof/Laws/Ops.lean ====
section
/-!
SUPPORT. Sys2Proof/Laws/Ops.lean: everything that raising an interrupt, counting, issuing and completing a command can do.
-/
namespace Sys2Proof.Machine

/-! Interrupts. -/

@[simp] theorem reg_emit (e : Emit) (s : State) (a : Nat) : reg (emit e s) a = reg s a := rfl

@[simp] theorem reg_sendVector (v : Nat) (s : State) (a : Nat) : reg (sendVector v s) a = reg s a := by
  unfold sendVector
  split <;> rfl

@[simp] theorem reg_afterInt (p : Page) (b w : Bool) (s : State) (a : Nat) : reg (afterInt p b w s) a = reg s a := by
  unfold afterInt
  split
  · exact reg_sendVector _ _ _
  · rfl

@[simp] theorem cmds_sendVector (v : Nat) (s : State) : (sendVector v s).cmds = s.cmds := by
  unfold sendVector
  split <;> rfl

@[simp] theorem cmds_raiseMask (p : Page) (m : Word) (s : State) : (raiseMask p m s).cmds = s.cmds := by
  unfold raiseMask afterInt
  split
  · rw [cmds_sendVector]; rfl
  · rfl

@[simp] theorem cmds_raise (p : Page) (n : Nat) (s : State) : (raise p n s).cmds = s.cmds := cmds_raiseMask _ _ _

theorem reg_raiseMask (p : Page) (m : Word) (s : State) (a : Nat) :
    reg (raiseMask p m s) a = if a = addr p offIntStat then reg s a ||| m else reg s a := by
  unfold raiseMask
  rw [reg_afterInt, reg_setReg]
  split
  · rename_i h
    rw [h]
  · rfl

theorem reg_raise_other (p : Page) (n : Nat) (s : State) {q : Page} {o : Nat} (ho : o < 0x1000) (h : q ≠ p ∨ o ≠ offIntStat) :
    reg (raise p n s) (addr q o) = reg s (addr q o) := by
  unfold raise
  rw [reg_raiseMask, if_neg]
  intro e
  obtain ⟨e1, e2⟩ := addr_inj ho (by decide) e
  rcases h with h | h
  · exact h e1
  · exact h e2

theorem getF_raise (p : Page) (n : Nat) (s : State) {q : Page} {f : Field} (hf : f.off < 0x1000) (h : f.off ≠ offIntStat) :
    getF (raise p n s) q f = getF s q f := by
  unfold getF getI
  rw [Field.offAt_zero, reg_raise_other p n s hf (.inr h)]

theorem intOf_raiseMask (p : Page) (m : Word) (s : State) (n : Nat) : intOf (raiseMask p m s) p n = (intOf s p n || m.toNat.testBit n) := by
  unfold intOf
  rw [reg_raiseMask, if_pos rfl, BitVec.toNat_or, Nat.testBit_or]

theorem intOf_raise (p : Page) (n : Nat) (s : State) (h : n < 32) : intOf (raise p n s) p n = true := by
  unfold raise
  rw [intOf_raiseMask, BitVec.toNat_ofNat, Nat.mod_eq_of_lt (Nat.pow_lt_pow_right (by decide) h), Nat.testBit_two_pow_self, Bool.or_true]

/-- Raising an interrupt clears none. -/
theorem intOf_raise_mono (p q : Page) (n k : Nat) (s : State) (h : intOf s q k = true) : intOf (raise p n s) q k = true := by
  unfold intOf at *
  unfold raise
  rw [reg_raiseMask]
  split
  · rw [BitVec.toNat_or, Nat.testBit_or, h, Bool.true_or]
  · exact h

theorem intOf_eq {s t : State} {p : Page} (h : reg t (addr p offIntStat) = reg s (addr p offIntStat)) (n : Nat) : intOf t p n = intOf s p n := by
  unfold intOf
  rw [h]

theorem intOf_setF (s : State) (p q : Page) (f : Field) (v n : Nat) (hf : f.off < 0x1000) (h : f.off ≠ offIntStat) : intOf (setF p f v s) q n = intOf s q n :=
  intOf_eq (reg_setF_other s v hf (by decide) (.inr (Ne.symm h))) n

/-- A counter that has room counts; a full one stays full. -/
theorem getF_count (p : Page) (f : Field) (s : State) (h : f.sound = true) : getF (count p f s) p f = min (getF s p f + 1) (2 ^ f.width - 1) := by
  unfold count countN
  rw [getF_setF_self _ _ _ _ h, Nat.mod_eq_of_lt]
  have := Nat.two_pow_pos f.width
  omega

/-! Errors counted. -/

theorem reg_countErr_other (p : Page) (s : State) {q : Page} {o : Nat} (ho : o < 0x1000) (h : q ≠ p ∨ (o ≠ offIntStat ∧ o ≠ offErrCnt)) :
    reg (countErr p s) (addr q o) = reg s (addr q o) := by
  unfold countErr
  extract_lets
  rw [reg_raise_other _ _ _ ho (h.imp id (·.1)), reg_setReg_other]
  intro e
  obtain ⟨e1, e2⟩ := addr_inj ho (by decide) e
  rcases h with h | h
  · exact h e1
  · exact h.2 e2

theorem errors_countErr (p : Page) (s : State) : errors (countErr p s) p = min (errors s p + 1) 0xFFFF := by
  unfold errors countErr
  dsimp only
  rw [reg_raise_other _ _ _ (by decide) (.inr (by decide)), reg_setReg_self]
  have e : min (getBits (reg s (addr p offErrCnt)) 15 0 + 1) 65535 % 2 ^ 16 = min (getBits (reg s (addr p offErrCnt)) 15 0 + 1) 65535 := by omega
  split
  · rw [getBits_setBits_other _ _ (by decide) (by decide) (.inl (by decide)), getBits_setBits _ _ (by decide) (by decide)]
    exact e
  · rw [getBits_setBits _ _ (by decide) (by decide)]
    exact e

theorem intOf_countErr (p : Page) (s : State) : intOf (countErr p s) p INT.ERR = true := intOf_raise _ _ _ (by decide)

theorem intOf_countErr_mono (p q : Page) (k : Nat) (s : State) (h : intOf s q k = true) : intOf (countErr p s) q k = true := by
  refine intOf_raise_mono _ _ _ _ _ ?_
  rw [intOf_eq (reg_setReg_other _ _ ?_)]
  · exact h
  · intro e
    exact absurd (addr_inj (by decide) (by decide) e).2 (by decide)

/-! Page commands. -/

@[simp] theorem slotOf_setSlot_self (p : Page) (c : CmdSlot) (s : State) : slotOf (setSlot p c s) p = c := Map.get_set_self _ _ _

@[simp] theorem reg_setSlot (p : Page) (c : CmdSlot) (s : State) (a : Nat) : reg (setSlot p c s) a = reg s a := rfl

@[simp] theorem reg_setOutstanding (p : Page) (o : Outstanding) (s : State) (a : Nat) : reg (setOutstanding p o s) a = reg s a := rfl

theorem outstanding_eq {s t : State} (h : t.cmds = s.cmds) (p : Page) : outstanding t p = outstanding s p := by
  unfold outstanding slotOf
  rw [h]

@[simp] theorem outstanding_setOutstanding (p : Page) (o : Outstanding) (s : State) : outstanding (setOutstanding p o s) p = some o := by
  unfold outstanding setOutstanding
  rw [slotOf_setSlot_self]

@[simp] theorem cmds_setBusy (p : Page) (v : Nat) (s : State) : (setBusy p v s).cmds = s.cmds := by
  unfold setBusy
  rw [cmds_setReg, cmds_setStat]

theorem cmdStat_setStat (p : Page) (hi lo v : Nat) (s : State) :
    reg (setStat p hi lo v s) (addr p offCmdStat) = setBits (reg s (addr p offCmdStat)) hi lo v := reg_setReg_self _ _ _

theorem cmdStat_setBusy (p : Page) (v : Nat) (s : State) :
    reg (setBusy p v s) (addr p offCmdStat) = setBits (reg s (addr p offCmdStat)) 31 31 v := by
  unfold setBusy
  rw [reg_setReg_other, cmdStat_setStat]
  intro e
  exact absurd (addr_inj (by decide) (by decide) e).2 (by decide)

theorem reg_setStat_other (p : Page) (hi lo v : Nat) (s : State) {q : Page} {o : Nat} (ho : o < 0x1000) (h : q ≠ p ∨ o ≠ offCmdStat) :
    reg (setStat p hi lo v s) (addr q o) = reg s (addr q o) := by
  refine reg_setReg_other _ _ (fun e => ?_)
  obtain ⟨e1, e2⟩ := addr_inj ho (by decide) e
  rcases h with h | h
  · exact h e1
  · exact h e2

theorem reg_setBusy_other (p : Page) (v : Nat) (s : State) {q : Page} {o : Nat} (ho : o < 0x1000) (h : q ≠ p ∨ (o ≠ offCmdStat ∧ o ≠ offStatus)) :
    reg (setBusy p v s) (addr q o) = reg s (addr q o) := by
  unfold setBusy
  dsimp only
  rw [reg_setReg_other, reg_setStat_other _ _ _ _ _ ho (h.imp id (·.1))]
  intro e
  obtain ⟨e1, e2⟩ := addr_inj ho (by decide) e
  rcases h with h | h
  · exact h e1
  · exact h.2 e2

end Sys2Proof.Machine
end

