-- ==== Sys2Proof/Laws/Within.lean ====
section
/-!
SUPPORT. Sys2Proof/Laws/Within.lean: how `Within` is built. A set of parts is a number, one bit a part; `d ||| m = m` says that the parts `d` are among the parts `m`.
-/
namespace Sys2Proof.Machine

theorem Mask.sub {a b m : Nat} (h : b ||| m = m) (k : a ||| b = b) : a ||| m = m := by
  rw [← h, ← Nat.or_assoc, k]

theorem Mask.has {d m i : Nat} (h : d ||| m = m) (k : d.testBit i = true) : m.testBit i = true := by
  rw [← h, Nat.testBit_or, k, Bool.true_or]

theorem Mask.no {d m i : Nat} (h : d ||| m = m) (k : d.testBit i = true) (e : m.testBit i = false) : False := by
  rw [Mask.has h k] at e
  cases e

theorem pageBit_all (p : Page) : pageBit p ||| allRegs = allRegs := by
  unfold pageBit
  cases pageKind p <;> rfl

/-- A page is among the parts when all registers are. -/
theorem Mask.any {m : Nat} (h : allRegs ||| m = m) (p : Page) : pageBit p ||| m = m := Mask.sub h (pageBit_all p)

theorem pageBit_bit (p : Page) : (pageBit p).testBit (kindCode (pageKind p)) = true := Nat.testBit_two_pow_self

theorem pageBit_ser (n : Serial) : pageBit (.ser n) = 0x80 := rfl

theorem pageBit_lan (n : Lane) : pageBit (.lan n) = 0x1000 := rfl

theorem pageBit_lanm (n : MLane) : pageBit (.lanm n) = 0x2000 := rfl

theorem pageBit_lpt (n : Port) : pageBit (.lpt n) = 0x800000 := rfl

theorem pageBit_eng (n : Cluster) : pageBit (.eng n) = 0x1000000 := rfl

theorem pageBit_memb (n : Bank) : pageBit (.memb n) = 0x2000000 := rfl

@[simp] theorem Within.refl {m : Nat} {s : State} : Within m s s := by
  refine ⟨rfl, fun c _ => ?_⟩
  cases c <;> simp [Part.same]

theorem Part.same_trans {c : Part} {s t u : State} (h : c.same s t) (k : c.same t u) : c.same s u := by
  cases c
  case regs => exact fun a e => (k a e).trans (h a e)
  case msix => exact ⟨k.1.trans h.1, k.2.1.trans h.2.1, k.2.2.trans h.2.2⟩
  all_goals exact Eq.trans k h

theorem Within.trans {m : Nat} {s t u : State} (h : Within m s t) (k : Within m t u) : Within m s u :=
  ⟨k.pending.trans h.pending, fun c hc => Part.same_trans (h.same c hc) (k.same c hc)⟩

/-- A larger set of parts says less. -/
theorem Within.weaken {d m : Nat} {s t : State} (h : Within d s t) (k : d ||| m = m) : Within m s t := by
  refine ⟨h.pending, fun c hc => h.same c ?_⟩
  cases e : d.testBit c.code
  · rfl
  · exact (Mask.no k e hc).elim

theorem Within.foldl {α : Type} {m : Nat} {s t : State} {f : State → α → State} {l : List α} (hf : ∀ u x, Within m s u → Within m s (f u x))
    (h : Within m s t) : Within m s (l.foldl f t) := by
  induction l generalizing t with
  | nil => exact h
  | cons x l ih => exact ih (hf t x h)

theorem Within.keep {m k : Nat} {α : Type} {x y : α} (e : x = y ∨ m.testBit k = true) (h : m.testBit k = false) : x = y := by
  rcases e with e | e
  · exact e
  · rw [e] at h
    cases h

/-- A change of parts among those of the set: every other field is as it was. -/
theorem Within.upd {m : Nat} {s t : State} {x1 : List (Nat × CmdSlot)} {x2 : LogSt} {x3 : List (Nat × RingSt)} {x4 : Nat} {x5 : Nat} {x6 : List (Nat × Word)} {x7 : TimeSt} {x8 : PwrSt} {x9 : BootSt} {x10 : List (Nat × PortSt)} {x11 : NbwSt} {x12 : BbwSt} {x13 : NcalSt} {x14 : BcnSt} {x15 : PlanSt} {x16 : EngSt} {x17 : BqSt} {x18 : MemSt} {x19 : TruSt} {x20 : MacSt} {x21 : CipSt} {x22 : LinkSt} {x23 : StoSt} {x24 : PairSt} {x25 : List (Nat × ChanSt)} {x26 : MgtSt} {x27 : List (Nat × SerSt)} {x28 : Nat} {x29 : Nat} {x30 : List Emit}
    (h : Within m s t)
    (e1 : x1 = t.cmds ∨ m.testBit 26 = true)
    (e2 : x2 = t.log ∨ m.testBit 27 = true)
    (e3 : x3 = t.rings ∨ m.testBit 28 = true)
    (e4 : x4 = t.msixMask ∨ m.testBit 29 = true)
    (e5 : x5 = t.msixPba ∨ m.testBit 29 = true)
    (e6 : x6 = t.msixTable ∨ m.testBit 29 = true)
    (e7 : x7 = t.time ∨ m.testBit 30 = true)
    (e8 : x8 = t.pwr ∨ m.testBit 31 = true)
    (e9 : x9 = t.boot ∨ m.testBit 32 = true)
    (e10 : x10 = t.ports ∨ m.testBit 33 = true)
    (e11 : x11 = t.nbw ∨ m.testBit 34 = true)
    (e12 : x12 = t.bbw ∨ m.testBit 35 = true)
    (e13 : x13 = t.ncal ∨ m.testBit 36 = true)
    (e14 : x14 = t.bcn ∨ m.testBit 37 = true)
    (e15 : x15 = t.plan ∨ m.testBit 38 = true)
    (e16 : x16 = t.eng ∨ m.testBit 39 = true)
    (e17 : x17 = t.bq ∨ m.testBit 40 = true)
    (e18 : x18 = t.mem ∨ m.testBit 41 = true)
    (e19 : x19 = t.tru ∨ m.testBit 42 = true)
    (e20 : x20 = t.mac ∨ m.testBit 43 = true)
    (e21 : x21 = t.cip ∨ m.testBit 44 = true)
    (e22 : x22 = t.link ∨ m.testBit 45 = true)
    (e23 : x23 = t.sto ∨ m.testBit 46 = true)
    (e24 : x24 = t.pair ∨ m.testBit 47 = true)
    (e25 : x25 = t.sen ∨ m.testBit 48 = true)
    (e26 : x26 = t.mgt ∨ m.testBit 49 = true)
    (e27 : x27 = t.ser ∨ m.testBit 50 = true)
    (e28 : x28 = t.draws ∨ m.testBit 51 = true)
    (e29 : x29 = t.frees ∨ m.testBit 52 = true)
    (e30 : x30 = t.emits ∨ m.testBit 53 = true) :
    Within m s (State.mk t.regs x1 x2 x3 x4 x5 x6 x7 x8 x9 x10 x11 x12 x13 x14 x15 x16 x17 x18 x19 x20 x21 x22 x23 x24 x25 x26 x27 x28 x29 x30 t.pending) := by
  refine h.trans ⟨rfl, fun c hc => ?_⟩
  cases c
  case regs => exact fun _ _ => rfl
  case cmds => exact Within.keep e1 hc
  case log => exact Within.keep e2 hc
  case rings => exact Within.keep e3 hc
  case msix => exact ⟨Within.keep e4 hc, Within.keep e5 hc, Within.keep e6 hc⟩
  case time => exact Within.keep e7 hc
  case pwr => exact Within.keep e8 hc
  case boot => exact Within.keep e9 hc
  case ports => exact Within.keep e10 hc
  case nbw => exact Within.keep e11 hc
  case bbw => exact Within.keep e12 hc
  case ncal => exact Within.keep e13 hc
  case bcn => exact Within.keep e14 hc
  case plan => exact Within.keep e15 hc
  case eng => exact Within.keep e16 hc
  case bq => exact Within.keep e17 hc
  case mem => exact Within.keep e18 hc
  case tru => exact Within.keep e19 hc
  case mac => exact Within.keep e20 hc
  case cip => exact Within.keep e21 hc
  case link => exact Within.keep e22 hc
  case sto => exact Within.keep e23 hc
  case pair => exact Within.keep e24 hc
  case sen => exact Within.keep e25 hc
  case mgt => exact Within.keep e26 hc
  case ser => exact Within.keep e27 hc
  case draws => exact Within.keep e28 hc
  case frees => exact Within.keep e29 hc
  case emits => exact Within.keep e30 hc

/-- A register of a page stored. -/
theorem setReg_within {m : Nat} {s t : State} (h : Within m s t) (p : Page) (o : Nat) (w : Word) (hp : pageBit p ||| m = m) :
    Within m s (setReg (addr p o) w t) := by
  refine h.trans ⟨rfl, fun c hc => ?_⟩
  cases c
  case regs k =>
    intro a e
    refine reg_setReg_other _ _ (fun ea => ?_)
    rw [ea, pageOfAddr_addr, Option.map_some, Option.some.injEq] at e
    exact Mask.no hp (pageBit_bit p) (e ▸ hc)
  all_goals simp [Part.same, setReg]

end Sys2Proof.Machine
end

