-- ==== Sys2Proof/Laws/WithinOps.lean ====
section
/-! SUPPORT. Sys2Proof/Laws/WithinOps.lean: the parts of a state that the operations of Machine/Ops.lean may change. -/
namespace Sys2Proof.Machine

theorem setI_within {m : Nat} {s t : State} (h : Within m s t) (a0 : Page) (a1 : Field) (a2 : Nat) (a3 : Nat) (hp0 : pageBit a0 ||| m = m) : Within m s (setI a0 a1 a2 a3 t) := by
  unfold setI
  repeat' (first | with_reducible assumption | with_reducible apply setReg_within | with_reducible exact Within.refl | intro _ | split | dsimp only)

theorem setF_within {m : Nat} {s t : State} (h : Within m s t) (a0 : Page) (a1 : Field) (a2 : Nat) (hp0 : pageBit a0 ||| m = m) : Within m s (setF a0 a1 a2 t) := by
  unfold setF
  repeat' (first | with_reducible assumption | with_reducible apply setReg_within | with_reducible apply setI_within | with_reducible exact Within.refl | intro _ | split | dsimp only)

theorem setB_within {m : Nat} {s t : State} (h : Within m s t) (a0 : Page) (a1 : Field) (a2 : Bool) (hp0 : pageBit a0 ||| m = m) : Within m s (setB a0 a1 a2 t) := by
  unfold setB
  repeat' (first | with_reducible assumption | with_reducible apply setReg_within | with_reducible apply setF_within | with_reducible exact Within.refl | intro _ | split | dsimp only)

theorem countN_within {m : Nat} {s t : State} (h : Within m s t) (a0 : Page) (a1 : Field) (a2 : Nat) (hp0 : pageBit a0 ||| m = m) : Within m s (countN a0 a1 a2 t) := by
  unfold countN
  repeat' (first | with_reducible assumption | with_reducible apply setReg_within | with_reducible apply setF_within | with_reducible exact Within.refl | intro _ | split | dsimp only)

theorem count_within {m : Nat} {s t : State} (h : Within m s t) (a0 : Page) (a1 : Field) (hp0 : pageBit a0 ||| m = m) : Within m s (count a0 a1 t) := by
  unfold count
  repeat' (first | with_reducible assumption | with_reducible apply setReg_within | with_reducible apply countN_within | with_reducible exact Within.refl | intro _ | split | dsimp only)

theorem resetOffsets_within {m : Nat} {s t : State} (h : Within m s t) (a0 : Page) (a1 : List Nat) (hp0 : pageBit a0 ||| m = m) : Within m s (resetOffsets a0 a1 t) := by
  unfold resetOffsets
  repeat' (first | with_reducible assumption | with_reducible apply setReg_within | with_reducible apply Within.foldl | with_reducible exact Within.refl | intro _ | split | dsimp only)

theorem emit_within {m : Nat} {s t : State} (h : Within m s t) (a0 : Emit) (hm : 0x20000000000000 ||| m = m) : Within m s (emit a0 t) := by
  have b53 := Mask.has (i := 53) hm rfl
  unfold emit
  repeat' (first | with_reducible assumption | ((with_reducible refine Mask.sub hm ?_); first | exact rfl | (simp only [pageBit_ser]; exact rfl)) | with_reducible apply setReg_within | with_reducible exact Within.refl | ((with_reducible refine Within.upd ?_ (.inl rfl) (.inl rfl) (.inl rfl) (.inl rfl) (.inl rfl) (.inl rfl) (.inl rfl) (.inl rfl) (.inl rfl) (.inl rfl) (.inl rfl) (.inl rfl) (.inl rfl) (.inl rfl) (.inl rfl) (.inl rfl) (.inl rfl) (.inl rfl) (.inl rfl) (.inl rfl) (.inl rfl) (.inl rfl) (.inl rfl) (.inl rfl) (.inl rfl) (.inl rfl) (.inl rfl) (.inl rfl) (.inl rfl) (.inr b53)); first | with_reducible assumption | ((with_reducible refine Mask.sub hm ?_); first | exact rfl | (simp only [pageBit_ser]; exact rfl)) | with_reducible apply setReg_within | with_reducible exact Within.refl | split) | intro _ | split | dsimp only)

theorem sendVector_within {m : Nat} {s t : State} (h : Within m s t) (a0 : Nat) (hm : 0x20000020000000 ||| m = m) : Within m s (sendVector a0 t) := by
  have b29 := Mask.has (i := 29) hm rfl
  unfold sendVector
  repeat' (first | with_reducible assumption | ((with_reducible refine Mask.sub hm ?_); first | exact rfl | (simp only [pageBit_ser]; exact rfl)) | with_reducible apply setReg_within | with_reducible apply emit_within | with_reducible exact Within.refl | ((with_reducible refine Within.upd ?_ (.inl rfl) (.inl rfl) (.inl rfl) (.inl rfl) (.inr b29) (.inl rfl) (.inl rfl) (.inl rfl) (.inl rfl) (.inl rfl) (.inl rfl) (.inl rfl) (.inl rfl) (.inl rfl) (.inl rfl) (.inl rfl) (.inl rfl) (.inl rfl) (.inl rfl) (.inl rfl) (.inl rfl) (.inl rfl) (.inl rfl) (.inl rfl) (.inl rfl) (.inl rfl) (.inl rfl) (.inl rfl) (.inl rfl) (.inl rfl)); first | with_reducible assumption | ((with_reducible refine Mask.sub hm ?_); first | exact rfl | (simp only [pageBit_ser]; exact rfl)) | with_reducible apply setReg_within | with_reducible apply emit_within | with_reducible exact Within.refl | split) | intro _ | split | dsimp only)

theorem afterInt_within {m : Nat} {s t : State} (h : Within m s t) (a0 : Page) (a1 : Bool) (a2 : Bool) (hm : 0x20000020000000 ||| m = m) : Within m s (afterInt a0 a1 a2 t) := by
  unfold afterInt
  repeat' (first | with_reducible assumption | ((with_reducible refine Mask.sub hm ?_); first | exact rfl | (simp only [pageBit_ser]; exact rfl)) | with_reducible apply setReg_within | with_reducible apply sendVector_within | with_reducible exact Within.refl | intro _ | split | dsimp only)

theorem raiseMask_within {m : Nat} {s t : State} (h : Within m s t) (a0 : Page) (a1 : Word) (hm : 0x20000020000000 ||| m = m) (hp0 : pageBit a0 ||| m = m) : Within m s (raiseMask a0 a1 t) := by
  unfold raiseMask
  repeat' (first | with_reducible assumption | ((with_reducible refine Mask.sub hm ?_); first | exact rfl | (simp only [pageBit_ser]; exact rfl)) | with_reducible apply setReg_within | with_reducible apply afterInt_within | with_reducible exact Within.refl | intro _ | split | dsimp only)

theorem raise_within {m : Nat} {s t : State} (h : Within m s t) (a0 : Page) (a1 : Nat) (hm : 0x20000020000000 ||| m = m) (hp0 : pageBit a0 ||| m = m) : Within m s (raise a0 a1 t) := by
  unfold raise
  repeat' (first | with_reducible assumption | ((with_reducible refine Mask.sub hm ?_); first | exact rfl | (simp only [pageBit_ser]; exact rfl)) | with_reducible apply setReg_within | with_reducible apply raiseMask_within | with_reducible exact Within.refl | intro _ | split | dsimp only)

theorem countErr_within {m : Nat} {s t : State} (h : Within m s t) (a0 : Page) (hm : 0x20000020000000 ||| m = m) (hp0 : pageBit a0 ||| m = m) : Within m s (countErr a0 t) := by
  unfold countErr
  repeat' (first | with_reducible assumption | ((with_reducible refine Mask.sub hm ?_); first | exact rfl | (simp only [pageBit_ser]; exact rfl)) | with_reducible apply setReg_within | with_reducible apply raise_within | with_reducible exact Within.refl | intro _ | split | dsimp only)

theorem pushRec_within {m : Nat} {s t : State} (h : Within m s t) (a0 : Nat) (a1 : Nat) (a2 : List Nat) (hm : 0x8000020 ||| m = m) : Within m s (pushRec a0 a1 a2 t) := by
  have b27 := Mask.has (i := 27) hm rfl
  unfold pushRec
  repeat' (first | with_reducible assumption | ((with_reducible refine Mask.sub hm ?_); first | exact rfl | (simp only [pageBit_ser]; exact rfl)) | with_reducible apply setReg_within | with_reducible apply setF_within | with_reducible exact Within.refl | ((with_reducible refine Within.upd ?_ (.inl rfl) (.inr b27) (.inl rfl) (.inl rfl) (.inl rfl) (.inl rfl) (.inl rfl) (.inl rfl) (.inl rfl) (.inl rfl) (.inl rfl) (.inl rfl) (.inl rfl) (.inl rfl) (.inl rfl) (.inl rfl) (.inl rfl) (.inl rfl) (.inl rfl) (.inl rfl) (.inl rfl) (.inl rfl) (.inl rfl) (.inl rfl) (.inl rfl) (.inl rfl) (.inl rfl) (.inl rfl) (.inl rfl) (.inl rfl)); first | with_reducible assumption | ((with_reducible refine Mask.sub hm ?_); first | exact rfl | (simp only [pageBit_ser]; exact rfl)) | with_reducible apply setReg_within | with_reducible apply setF_within | with_reducible exact Within.refl | split) | intro _ | split | dsimp only)

theorem logEvent_within {m : Nat} {s t : State} (h : Within m s t) (a0 : Nat) (a1 : Nat) (a2 : List Nat) (hm : 0x20000028000020 ||| m = m) : Within m s (logEvent a0 a1 a2 t) := by
  have b27 := Mask.has (i := 27) hm rfl
  unfold logEvent
  repeat' (first | with_reducible assumption | ((with_reducible refine Mask.sub hm ?_); first | exact rfl | (simp only [pageBit_ser]; exact rfl)) | with_reducible apply setReg_within | with_reducible apply pushRec_within | with_reducible apply raise_within | with_reducible apply count_within | with_reducible exact Within.refl | ((with_reducible refine Within.upd ?_ (.inl rfl) (.inr b27) (.inl rfl) (.inl rfl) (.inl rfl) (.inl rfl) (.inl rfl) (.inl rfl) (.inl rfl) (.inl rfl) (.inl rfl) (.inl rfl) (.inl rfl) (.inl rfl) (.inl rfl) (.inl rfl) (.inl rfl) (.inl rfl) (.inl rfl) (.inl rfl) (.inl rfl) (.inl rfl) (.inl rfl) (.inl rfl) (.inl rfl) (.inl rfl) (.inl rfl) (.inl rfl) (.inl rfl) (.inl rfl)); first | with_reducible assumption | ((with_reducible refine Mask.sub hm ?_); first | exact rfl | (simp only [pageBit_ser]; exact rfl)) | with_reducible apply setReg_within | with_reducible apply pushRec_within | with_reducible apply raise_within | with_reducible apply count_within | with_reducible exact Within.refl | split) | intro _ | split | dsimp only)

theorem logPage_within {m : Nat} {s t : State} (h : Within m s t) (a0 : Page) (a1 : Nat) (a2 : List Nat) (hm : 0x20000028000020 ||| m = m) : Within m s (logPage a0 a1 a2 t) := by
  unfold logPage
  repeat' (first | with_reducible assumption | ((with_reducible refine Mask.sub hm ?_); first | exact rfl | (simp only [pageBit_ser]; exact rfl)) | with_reducible apply setReg_within | with_reducible apply logEvent_within | with_reducible exact Within.refl | intro _ | split | dsimp only)

theorem setRing_within {m : Nat} {s t : State} (h : Within m s t) (a0 : Nat) (a1 : RingSt) (hm : 0x10000000 ||| m = m) : Within m s (setRing a0 a1 t) := by
  have b28 := Mask.has (i := 28) hm rfl
  unfold setRing
  repeat' (first | with_reducible assumption | ((with_reducible refine Mask.sub hm ?_); first | exact rfl | (simp only [pageBit_ser]; exact rfl)) | with_reducible apply setReg_within | with_reducible exact Within.refl | ((with_reducible refine Within.upd ?_ (.inl rfl) (.inl rfl) (.inr b28) (.inl rfl) (.inl rfl) (.inl rfl) (.inl rfl) (.inl rfl) (.inl rfl) (.inl rfl) (.inl rfl) (.inl rfl) (.inl rfl) (.inl rfl) (.inl rfl) (.inl rfl) (.inl rfl) (.inl rfl) (.inl rfl) (.inl rfl) (.inl rfl) (.inl rfl) (.inl rfl) (.inl rfl) (.inl rfl) (.inl rfl) (.inl rfl) (.inl rfl) (.inl rfl) (.inl rfl)); first | with_reducible assumption | ((with_reducible refine Mask.sub hm ?_); first | exact rfl | (simp only [pageBit_ser]; exact rfl)) | with_reducible apply setReg_within | with_reducible exact Within.refl | split) | intro _ | split | dsimp only)

theorem ringMessage_within {m : Nat} {s t : State} (h : Within m s t) (a0 : Nat) (hm : 0x20000030000000 ||| m = m) : Within m s (ringMessage a0 t) := by
  unfold ringMessage
  repeat' (first | with_reducible assumption | ((with_reducible refine Mask.sub hm ?_); first | exact rfl | (simp only [pageBit_ser]; exact rfl)) | with_reducible apply setReg_within | with_reducible apply sendVector_within | with_reducible apply setRing_within | with_reducible exact Within.refl | intro _ | split | dsimp only)

theorem writeCq_within {m : Nat} {s t : State} (h : Within m s t) (a0 : Nat) (a1 : CqEntry) (hm : 0x20000030000800 ||| m = m) : Within m s (writeCq a0 a1 t) := by
  unfold writeCq
  repeat' (first | with_reducible assumption | ((with_reducible refine Mask.sub hm ?_); first | exact rfl | (simp only [pageBit_ser]; exact rfl)) | with_reducible apply setReg_within | with_reducible apply setI_within | with_reducible apply emit_within | with_reducible apply setRing_within | with_reducible apply ringMessage_within | with_reducible exact Within.refl | intro _ | split | dsimp only)

theorem ringComplete_within {m : Nat} {s t : State} (h : Within m s t) (a0 : Nat) (a1 : CqEntry) (hm : 0x20000030000800 ||| m = m) : Within m s (ringComplete a0 a1 t) := by
  unfold ringComplete
  repeat' (first | with_reducible assumption | ((with_reducible refine Mask.sub hm ?_); first | exact rfl | (simp only [pageBit_ser]; exact rfl)) | with_reducible apply setReg_within | with_reducible apply writeCq_within | with_reducible apply setRing_within | with_reducible exact Within.refl | intro _ | split | dsimp only)

theorem drainRing_within {m : Nat} {s t : State} (h : Within m s t) (a0 : Nat) (a1 : Nat) (hm : 0x20000030000800 ||| m = m) : Within m s (drainRing a0 a1 t) := by
  induction a1 generalizing t a0 with
  | zero =>
    unfold drainRing
    repeat' (first | with_reducible assumption | with_reducible apply ih | ((with_reducible refine Mask.sub hm ?_); first | exact rfl | (simp only [pageBit_ser]; exact rfl)) | with_reducible apply setReg_within | with_reducible apply writeCq_within | with_reducible apply setRing_within | with_reducible exact Within.refl | intro _ | split | dsimp only)
  | succ _ ih =>
    unfold drainRing
    repeat' (first | with_reducible assumption | with_reducible apply ih | ((with_reducible refine Mask.sub hm ?_); first | exact rfl | (simp only [pageBit_ser]; exact rfl)) | with_reducible apply setReg_within | with_reducible apply writeCq_within | with_reducible apply setRing_within | with_reducible exact Within.refl | intro _ | split | dsimp only)

theorem flushRing_within {m : Nat} {s t : State} (h : Within m s t) (a0 : Nat) (hm : 0x20000030000800 ||| m = m) : Within m s (flushRing a0 t) := by
  unfold flushRing
  repeat' (first | with_reducible assumption | ((with_reducible refine Mask.sub hm ?_); first | exact rfl | (simp only [pageBit_ser]; exact rfl)) | with_reducible apply setReg_within | with_reducible apply drainRing_within | with_reducible exact Within.refl | intro _ | split | dsimp only)

theorem setSlot_within {m : Nat} {s t : State} (h : Within m s t) (a0 : Page) (a1 : CmdSlot) (hm : 0x4000000 ||| m = m) : Within m s (setSlot a0 a1 t) := by
  have b26 := Mask.has (i := 26) hm rfl
  unfold setSlot
  repeat' (first | with_reducible assumption | ((with_reducible refine Mask.sub hm ?_); first | exact rfl | (simp only [pageBit_ser]; exact rfl)) | with_reducible apply setReg_within | with_reducible exact Within.refl | ((with_reducible refine Within.upd ?_ (.inr b26) (.inl rfl) (.inl rfl) (.inl rfl) (.inl rfl) (.inl rfl) (.inl rfl) (.inl rfl) (.inl rfl) (.inl rfl) (.inl rfl) (.inl rfl) (.inl rfl) (.inl rfl) (.inl rfl) (.inl rfl) (.inl rfl) (.inl rfl) (.inl rfl) (.inl rfl) (.inl rfl) (.inl rfl) (.inl rfl) (.inl rfl) (.inl rfl) (.inl rfl) (.inl rfl) (.inl rfl) (.inl rfl) (.inl rfl)); first | with_reducible assumption | ((with_reducible refine Mask.sub hm ?_); first | exact rfl | (simp only [pageBit_ser]; exact rfl)) | with_reducible apply setReg_within | with_reducible exact Within.refl | split) | intro _ | split | dsimp only)

theorem setOutstanding_within {m : Nat} {s t : State} (h : Within m s t) (a0 : Page) (a1 : Outstanding) (hm : 0x4000000 ||| m = m) : Within m s (setOutstanding a0 a1 t) := by
  unfold setOutstanding
  repeat' (first | with_reducible assumption | ((with_reducible refine Mask.sub hm ?_); first | exact rfl | (simp only [pageBit_ser]; exact rfl)) | with_reducible apply setReg_within | with_reducible apply setSlot_within | with_reducible exact Within.refl | intro _ | split | dsimp only)

theorem setStat_within {m : Nat} {s t : State} (h : Within m s t) (a0 : Page) (a1 : Nat) (a2 : Nat) (a3 : Nat) (hp0 : pageBit a0 ||| m = m) : Within m s (setStat a0 a1 a2 a3 t) := by
  unfold setStat
  repeat' (first | with_reducible assumption | with_reducible apply setReg_within | with_reducible exact Within.refl | intro _ | split | dsimp only)

theorem setBusy_within {m : Nat} {s t : State} (h : Within m s t) (a0 : Page) (a1 : Nat) (hp0 : pageBit a0 ||| m = m) : Within m s (setBusy a0 a1 t) := by
  unfold setBusy
  repeat' (first | with_reducible assumption | with_reducible apply setReg_within | with_reducible apply setStat_within | with_reducible exact Within.refl | intro _ | split | dsimp only)

theorem setReady_within {m : Nat} {s t : State} (h : Within m s t) (a0 : Page) (a1 : Nat) (hp0 : pageBit a0 ||| m = m) : Within m s (setReady a0 a1 t) := by
  unfold setReady
  repeat' (first | with_reducible assumption | with_reducible apply setReg_within | with_reducible exact Within.refl | intro _ | split | dsimp only)

theorem setFault_within {m : Nat} {s t : State} (h : Within m s t) (a0 : Page) (a1 : Nat) (hp0 : pageBit a0 ||| m = m) : Within m s (setFault a0 a1 t) := by
  unfold setFault
  repeat' (first | with_reducible assumption | with_reducible apply setReg_within | with_reducible exact Within.refl | intro _ | split | dsimp only)

theorem originComplete_within {m : Nat} {s t : State} (h : Within m s t) (a0 : Page) (a1 : Outstanding) (a2 : Nat) (a3 : Nat) (a4 : Bool) (hm : 0x20000030000800 ||| m = m) : Within m s (originComplete a0 a1 a2 a3 a4 t) := by
  unfold originComplete
  repeat' (first | with_reducible assumption | ((with_reducible refine Mask.sub hm ?_); first | exact rfl | (simp only [pageBit_ser]; exact rfl)) | with_reducible apply setReg_within | with_reducible apply count_within | with_reducible apply ringComplete_within | with_reducible exact Within.refl | intro _ | split | dsimp only)

theorem complete_within {m : Nat} {s t : State} (h : Within m s t) (a0 : Page) (a1 : Nat) (a2 : Nat) (hm : 0x20000034000800 ||| m = m) (hp0 : pageBit a0 ||| m = m) : Within m s (complete a0 a1 a2 t) := by
  unfold complete
  repeat' (first | with_reducible assumption | ((with_reducible refine Mask.sub hm ?_); first | exact rfl | (simp only [pageBit_ser]; exact rfl)) | with_reducible apply setReg_within | with_reducible apply setBusy_within | with_reducible apply setSlot_within | with_reducible apply setStat_within | with_reducible apply originComplete_within | with_reducible apply raise_within | with_reducible exact Within.refl | intro _ | split | dsimp only)

theorem dropCmd_within {m : Nat} {s t : State} (h : Within m s t) (a0 : Page) (hm : 0x20000020000000 ||| m = m) (hp0 : pageBit a0 ||| m = m) : Within m s (dropCmd a0 t) := by
  unfold dropCmd
  repeat' (first | with_reducible assumption | ((with_reducible refine Mask.sub hm ?_); first | exact rfl | (simp only [pageBit_ser]; exact rfl)) | with_reducible apply setReg_within | with_reducible apply countErr_within | with_reducible apply setStat_within | with_reducible exact Within.refl | intro _ | split | dsimp only)

theorem takeEntry_within {m : Nat} {s t : State} (h : Within m s t) (a0 : Nat) (hm : 0x800 ||| m = m) : Within m s (takeEntry a0 t) := by
  unfold takeEntry
  repeat' (first | with_reducible assumption | ((with_reducible refine Mask.sub hm ?_); first | exact rfl | (simp only [pageBit_ser]; exact rfl)) | with_reducible apply setReg_within | with_reducible apply setI_within | with_reducible exact Within.refl | intro _ | split | dsimp only)

theorem issueNow_within {m : Nat} {s t : State} (h : Within m s t) (a0 : Page) (a1 : Nat) (a2 : CmdSrc) (a3 : Outstanding → State → State) (h3 : ∀ x0 x1, Within m s x1 → Within m s (a3 x0 x1)) (hm : 0x20000034000800 ||| m = m) (hp0 : pageBit a0 ||| m = m) : Within m s (issueNow a0 a1 a2 a3 t) := by
  unfold issueNow
  repeat' (first | with_reducible assumption | ((with_reducible refine Mask.sub hm ?_); first | exact rfl | (simp only [pageBit_ser]; exact rfl)) | with_reducible apply setReg_within | with_reducible apply setBusy_within | with_reducible apply setStat_within | with_reducible apply setOutstanding_within | with_reducible apply complete_within | apply h3 | with_reducible exact Within.refl | intro _ | split | dsimp only)

theorem issue_within {m : Nat} {s t : State} (h : Within m s t) (a0 : Page) (a1 : Nat) (a2 : CmdSrc) (a3 : Outstanding → State → State) (h3 : ∀ x0 x1, Within m s x1 → Within m s (a3 x0 x1)) (hm : 0x20000034000800 ||| m = m) (hp0 : pageBit a0 ||| m = m) : Within m s (issue a0 a1 a2 a3 t) := by
  unfold issue
  repeat' (first | with_reducible assumption | ((with_reducible refine Mask.sub hm ?_); first | exact rfl | (simp only [pageBit_ser]; exact rfl)) | with_reducible apply setReg_within | with_reducible apply dropCmd_within | with_reducible apply issueNow_within | with_reducible apply takeEntry_within | apply h3 | with_reducible exact Within.refl | intro _ | split | dsimp only)

theorem done_within {m : Nat} {s t : State} (h : Within m s t) (a0 : Page) (a1 : Nat) (hm : 0x20000034000800 ||| m = m) (hp0 : pageBit a0 ||| m = m) : Within m s (done a0 a1 t) := by
  unfold done
  repeat' (first | with_reducible assumption | ((with_reducible refine Mask.sub hm ?_); first | exact rfl | (simp only [pageBit_ser]; exact rfl)) | with_reducible apply setReg_within | with_reducible apply complete_within | with_reducible exact Within.refl | intro _ | split | dsimp only)

theorem setPhase_within {m : Nat} {s t : State} (h : Within m s t) (a0 : Page) (a1 : Nat) (hm : 0x4000000 ||| m = m) : Within m s (setPhase a0 a1 t) := by
  unfold setPhase
  repeat' (first | with_reducible assumption | ((with_reducible refine Mask.sub hm ?_); first | exact rfl | (simp only [pageBit_ser]; exact rfl)) | with_reducible apply setReg_within | with_reducible apply setOutstanding_within | with_reducible exact Within.refl | intro _ | split | dsimp only)

theorem blkReset_within {m : Nat} {s t : State} (h : Within m s t) (a0 : Page) (a1 : List Nat) (hm : 0x20000034000800 ||| m = m) (hp0 : pageBit a0 ||| m = m) : Within m s (blkReset a0 a1 t) := by
  unfold blkReset
  repeat' (first | with_reducible assumption | ((with_reducible refine Mask.sub hm ?_); first | exact rfl | (simp only [pageBit_ser]; exact rfl)) | with_reducible apply setReg_within | with_reducible apply complete_within | with_reducible apply resetOffsets_within | with_reducible exact Within.refl | intro _ | split | dsimp only)

theorem reseed_within {m : Nat} {s t : State} (h : Within m s t) (hm : 0x40000 ||| m = m) : Within m s (reseed t) := by
  unfold reseed
  repeat' (first | with_reducible assumption | ((with_reducible refine Mask.sub hm ?_); first | exact rfl | (simp only [pageBit_ser]; exact rfl)) | with_reducible apply setReg_within | with_reducible apply setB_within | with_reducible apply setF_within | with_reducible apply setFault_within | with_reducible exact Within.refl | intro _ | split | dsimp only)

theorem draw_within {m : Nat} {s t : State} (h : Within m s t) (hm : 0x8000000040000 ||| m = m) : Within m s (draw t).2 := by
  have b51 := Mask.has (i := 51) hm rfl
  unfold draw
  repeat' (first | with_reducible assumption | ((with_reducible refine Mask.sub hm ?_); first | exact rfl | (simp only [pageBit_ser]; exact rfl)) | with_reducible apply setReg_within | with_reducible apply reseed_within | with_reducible exact Within.refl | ((with_reducible refine Within.upd ?_ (.inl rfl) (.inl rfl) (.inl rfl) (.inl rfl) (.inl rfl) (.inl rfl) (.inl rfl) (.inl rfl) (.inl rfl) (.inl rfl) (.inl rfl) (.inl rfl) (.inl rfl) (.inl rfl) (.inl rfl) (.inl rfl) (.inl rfl) (.inl rfl) (.inl rfl) (.inl rfl) (.inl rfl) (.inl rfl) (.inl rfl) (.inl rfl) (.inl rfl) (.inl rfl) (.inl rfl) (.inr b51) (.inl rfl) (.inl rfl)); first | with_reducible assumption | ((with_reducible refine Mask.sub hm ?_); first | exact rfl | (simp only [pageBit_ser]; exact rfl)) | with_reducible apply setReg_within | with_reducible apply reseed_within | with_reducible exact Within.refl | split) | intro _ | split | dsimp only)

theorem draw_within_eq {m : Nat} {s t u : State}  {y0} (e : draw t = (y0, u)) (h : Within m s t) (hm : 0x8000000040000 ||| m = m) : Within m s u := by
  have k := draw_within h hm
  rw [e] at k
  exact k

theorem returnWord_within {m : Nat} {s t : State} (h : Within m s t) (a0 : Word) (hm : 0x20000000000000 ||| m = m) : Within m s (returnWord a0 t) := by
  unfold returnWord
  repeat' (first | with_reducible assumption | ((with_reducible refine Mask.sub hm ?_); first | exact rfl | (simp only [pageBit_ser]; exact rfl)) | with_reducible apply setReg_within | with_reducible apply emit_within | with_reducible exact Within.refl | intro _ | split | dsimp only)

end Sys2Proof.Machine
end

