-- ==== Sys2Proof/Laws/Cmds.lean ====
section
/-!
SUPPORT. Sys2Proof/Laws/Cmds.lean: what the issue of a page command leaves, and what its completion shows.
-/
namespace Sys2Proof.Machine

/-! Completions of rings touch nothing of a page's header. -/

@[simp] theorem cmds_ringMessage (r : Nat) (s : State) : (ringMessage r s).cmds = s.cmds := by
  unfold ringMessage
  rw [cmds_sendVector, cmds_setRing]

@[simp] theorem cmds_writeCq (r : Nat) (e : CqEntry) (s : State) : (writeCq r e s).cmds = s.cmds := by
  unfold writeCq
  extract_lets n size s1 p x s2
  have h : s2.cmds = s.cmds := by
    unfold s2 s1
    rw [cmds_setRing, cmds_setI, cmds_emit]
  clear_value s2
  split
  · rw [cmds_ringMessage, h]
  · exact h

@[simp] theorem cmds_ringComplete (r : Nat) (e : CqEntry) (s : State) : (ringComplete r e s).cmds = s.cmds := by
  unfold ringComplete
  split
  · exact cmds_writeCq _ _ _
  · exact cmds_setRing _ _ _

@[simp] theorem reg_setRing (r : Nat) (x : RingSt) (s : State) (a : Nat) : reg (setRing r x s) a = reg s a := rfl

@[simp] theorem reg_ringMessage (r : Nat) (s : State) (a : Nat) : reg (ringMessage r s) a = reg s a := by
  unfold ringMessage
  rw [reg_sendVector, reg_setRing]

/-- A field of a ring stands past the header. -/
theorem reg_setRingField (f : Field) (hf : 0x400 ≤ f.off ∧ f.off < 0x420 ∧ f.stride = 0x20) {r : Nat} (hr : r < 32) (v : Nat) (s : State) {q : Page} {o : Nat}
    (ho : o < 0x1000) (h : q ≠ .pci ∨ o < 0x400) : reg (setI .pci f r v s) (addr q o) = reg s (addr q o) := by
  refine reg_setReg_other _ _ (fun e => ?_)
  have hb : f.offAt r < 0x1000 := by
    unfold Field.offAt
    rw [hf.2.2]
    omega
  obtain ⟨e1, e2⟩ := addr_inj ho hb e
  rcases h with h | h
  · exact h e1
  · unfold Field.offAt at e2
    omega

theorem reg_ringComplete {r : Nat} (hr : r < 32) (e : CqEntry) (s : State) {q : Page} {o : Nat} (ho : o < 0x1000) (h : q ≠ .pci ∨ o < 0x400) :
    reg (ringComplete r e s) (addr q o) = reg s (addr q o) := by
  unfold ringComplete
  split
  · unfold writeCq
    extract_lets n size s1 p x s2
    have h2 : reg s2 (addr q o) = reg s (addr q o) := by
      unfold s2 s1
      rw [reg_setRing, reg_setRingField _ (by decide) hr _ _ ho h, reg_emit]
    clear_value s2
    split
    · rw [reg_ringMessage, h2]
    · exact h2
  · exact reg_setRing _ _ _ _

theorem reg_originComplete (p : Page) (u : Outstanding) (code d : Nat) (l : Bool) (s : State) {q : Page} {o : Nat}
    (hr : q ≠ .pci ∨ ∀ g, u.origin = some g → g.ring < 32) (ho : o < 0x1000) (h : q ≠ .pci ∨ o < 0x100) :
    reg (originComplete p u code d l s) (addr q o) = reg s (addr q o) := by
  by_cases hq : q ≠ .pci
  · refine (originComplete_within (m := 0x20000030000800) Within.refl p u code d l rfl).same (.regs (pageKind q)) ?_ _ (by rw [pageOfAddr_addr]; rfl)
    have hk : pageKind q ≠ .pci := by intro e; apply hq; cases q <;> first | rfl | cases e
    generalize pageKind q = k at hk
    cases k <;> first | decide | exact absurd rfl hk
  replace hr := hr.resolve_left hq
  unfold originComplete
  split
  · rfl
  · rename_i g hg
    split
    · unfold count countN
      refine reg_setF_other _ _ (by decide) ho ?_
      rcases h with h | h
      · exact .inl h
      · refine .inr ?_
        have : PCI_CMPL_LOST_CNT.COUNT.off = 0x120 := rfl
        omega
    · exact reg_ringComplete (hr g hg) _ _ ho (h.imp id (fun h => by omega))

@[simp] theorem cmds_originComplete (p : Page) (u : Outstanding) (code d : Nat) (l : Bool) (s : State) : (originComplete p u code d l s).cmds = s.cmds := by
  unfold originComplete
  split
  · rfl
  · split
    · exact cmds_setF _ _ _ _
    · exact cmds_ringComplete _ _ _

/-! Completion (R40). -/

theorem complete_completed {s : State} {p : Page} {u : Outstanding} (h : outstanding s p = some u)
    (hr : p ≠ .pci ∨ ∀ g, u.origin = some g → g.ring < 32) {code : Nat} (hc : code < 256) (d : Nat) : Completed (complete p code d s) p code := by
  have e : complete p code d s = (let s1 := setBusy p 0 (setSlot p ⟨none, some u.tag⟩ s)
      let s2 := setStat p 30 30 1 (setStat p 15 8 d (setStat p 7 0 code s1))
      let s3 := if u.abortLate then setStat p 29 29 1 s2 else s2
      originComplete p u code d u.abortLate (raise p INT.CMD_DONE s3)) := by
    unfold complete
    rw [h]
  rw [e]
  extract_lets s1 s2 s3
  have h2 : getBits (reg s2 (addr p offCmdStat)) 31 31 = 0 ∧ getBits (reg s2 (addr p offCmdStat)) 30 30 = 1 ∧
      getBits (reg s2 (addr p offCmdStat)) 7 0 = code ∧ outstanding s2 p = none := by
    unfold s2 s1
    refine ⟨?_, ?_, ?_, ?_⟩
    · rw [cmdStat_setStat, cmdStat_setStat, cmdStat_setStat, cmdStat_setBusy, getBits_setBits_other _ _ (by decide) (by decide) (by decide),
        getBits_setBits_other _ _ (by decide) (by decide) (by decide), getBits_setBits_other _ _ (by decide) (by decide) (by decide),
        getBits_setBits _ _ (by decide) (by decide)]
      rfl
    · rw [cmdStat_setStat, getBits_setBits _ _ (by decide) (by decide)]
      rfl
    · rw [cmdStat_setStat, cmdStat_setStat, cmdStat_setStat, getBits_setBits_other _ _ (by decide) (by decide) (by decide),
        getBits_setBits_other _ _ (by decide) (by decide) (by decide), getBits_setBits _ _ (by decide) (by decide)]
      omega
    · rw [outstanding_eq (by rw [cmds_setStat, cmds_setStat, cmds_setStat, cmds_setBusy] : _ = (setSlot p ⟨none, some u.tag⟩ s).cmds)]
      unfold outstanding
      rw [slotOf_setSlot_self]
  clear_value s2
  have h3 : getBits (reg s3 (addr p offCmdStat)) 31 31 = 0 ∧ getBits (reg s3 (addr p offCmdStat)) 30 30 = 1 ∧
      getBits (reg s3 (addr p offCmdStat)) 7 0 = code ∧ outstanding s3 p = none := by
    unfold s3
    split
    · rw [cmdStat_setStat, getBits_setBits_other _ _ (by decide) (by decide) (by decide), getBits_setBits_other _ _ (by decide) (by decide) (by decide),
        getBits_setBits_other _ _ (by decide) (by decide) (by decide), outstanding_eq (cmds_setStat _ _ _ _ _)]
      exact h2
    · exact h2
  clear_value s3
  have hs : reg (originComplete p u code d u.abortLate (raise p INT.CMD_DONE s3)) (addr p offCmdStat) = reg s3 (addr p offCmdStat) := by
    rw [reg_originComplete _ _ _ _ _ _ hr (by decide) (.inr (by decide)), reg_raise_other _ _ _ (by decide) (.inr (by decide))]
  refine ⟨?_, ?_, ?_, ?_, ?_⟩
  · rw [outstanding_eq (cmds_originComplete _ _ _ _ _ _), outstanding_eq (cmds_raise _ _ _)]
    exact h3.2.2.2
  · rw [hs]
    exact h3.1
  · rw [hs]
    exact h3.2.1
  · rw [hs]
    exact h3.2.2.1
  · rw [intOf_eq (reg_originComplete _ _ _ _ _ _ hr (by decide) (.inr (by decide)))]
    exact intOf_raise _ _ _ (by decide)

/-- A completion changes no register of another page, and none past the header of its own page, but for the registers of PCI. -/
theorem reg_complete (s : State) (p : Page) (code d : Nat) {q : Page} {o : Nat} (ho : o < 0x1000) (hq : q ≠ .pci) (h0 : q ≠ p ∨ 0x100 ≤ o) :
    reg (complete p code d s) (addr q o) = reg s (addr q o) := by
  have e1 : offCmdStat = 0x50 := rfl
  have e2 : offStatus = 0x0C := rfl
  have e3 : offIntStat = 0x10 := rfl
  unfold complete
  split
  · rfl
  rename_i u _
  dsimp only
  have g1 : q ≠ p ∨ o ≠ offCmdStat := h0.imp id (by omega)
  have g2 : q ≠ p ∨ (o ≠ offCmdStat ∧ o ≠ offStatus) := h0.imp id (by omega)
  rw [reg_originComplete _ _ _ _ _ _ (.inl hq) ho (.inl hq), reg_raise_other _ _ _ ho (h0.imp id (by omega))]
  split
  · rw [reg_setStat_other _ _ _ _ _ ho g1, reg_setStat_other _ _ _ _ _ ho g1, reg_setStat_other _ _ _ _ _ ho g1, reg_setStat_other _ _ _ _ _ ho g1,
      reg_setBusy_other _ _ _ ho g2]
    rfl
  · rw [reg_setStat_other _ _ _ _ _ ho g1, reg_setStat_other _ _ _ _ _ ho g1, reg_setStat_other _ _ _ _ _ ho g1, reg_setBusy_other _ _ _ ho g2]
    rfl

theorem latch_origin (p : Page) (op : Nat) (src : CmdSrc) (s : State) : ∀ g, (latch p op src s).origin = some g → g.ring < 32 := by
  intro g h
  cases src with
  | host => cases h
  | ring r =>
    simp only [latch, Option.some.injEq] at h
    have := r.isLt
    subst h
    show 24 + r.val < 32
    omega

/-- A completion keeps the tag shown in CMD_STAT. -/
theorem complete_tag (s : State) {p : Page} (hr : p ≠ .pci ∨ ∀ u, outstanding s p = some u → ∀ g, u.origin = some g → g.ring < 32) (code d : Nat) :
    getBits (reg (complete p code d s) (addr p offCmdStat)) 23 16 = getBits (reg s (addr p offCmdStat)) 23 16 := by
  unfold complete
  split
  · rfl
  rename_i u hu
  extract_lets s1 s2 s3
  rw [reg_originComplete _ _ _ _ _ _ (hr.imp id (fun h => h u hu)) (by decide) (.inr (by decide)), reg_raise_other _ _ _ (by decide) (.inr (by decide))]
  have h2 : getBits (reg s2 (addr p offCmdStat)) 23 16 = getBits (reg s (addr p offCmdStat)) 23 16 := by
    unfold s2 s1
    rw [cmdStat_setStat, cmdStat_setStat, cmdStat_setStat, cmdStat_setBusy, getBits_setBits_other _ _ (by decide) (by decide) (by decide),
      getBits_setBits_other _ _ (by decide) (by decide) (by decide), getBits_setBits_other _ _ (by decide) (by decide) (by decide),
      getBits_setBits_other _ _ (by decide) (by decide) (by decide)]
    rfl
  clear_value s2
  unfold s3
  split
  · rw [cmdStat_setStat, getBits_setBits_other _ _ (by decide) (by decide) (by decide), h2]
  · exact h2

/-- The STATUS registers outside PCI keep every field but BUSY. -/
def StatusKept (s u : State) : Prop :=
  ∀ (q : Page) (hi lo : Nat), q ≠ .pci → lo ≤ hi → hi < 32 → (30 < lo ∨ hi < 30) →
    getBits (reg u (addr q offStatus)) hi lo = getBits (reg s (addr q offStatus)) hi lo

theorem StatusKept.isSet {s u : State} (h : StatusKept s u) (q : Page) (hq : q ≠ .pci) (f : Field) (hf : f.off = offStatus) (h1 : f.lo ≤ f.hi) (h2 : f.hi < 30) :
    isSet u q f = isSet s q f := by
  unfold Machine.isSet getF getI
  rw [Field.offAt_zero, hf, h q f.hi f.lo hq h1 (by omega) (.inr h2)]

/-- What the issue of a command makes of a state: the command refused while the block is not READY, else run in a state that holds it. -/
theorem issueNow_issued (s t : State) (p : Page) (op : Nat) (src : CmdSrc) (run : Outstanding → State → State) (o : Outstanding) (ho : o = latch p op src t)
    (hg : o.tag < 256) (hreg : ∀ q x, x < 0x1000 → (q ≠ p ∨ 0x100 ≤ x) → q ≠ .pci → reg t (addr q x) = reg s (addr q x))
    (hw : Within (pageBit p ||| 0x4000800) s t) (hs : ∀ q, q ≠ .pci → reg t (addr q offStatus) = reg s (addr q offStatus)) :
    ∃ u, issueNow p op src run t = (if ready t p then run o u else complete p CODE.REFUSED 0 u) ∧ Issued u p o ∧
      (∀ q x, x < 0x1000 → (q ≠ p ∨ 0x100 ≤ x) → q ≠ .pci → reg u (addr q x) = reg s (addr q x)) ∧
      Within (pageBit p ||| 0x4000800) s u ∧ StatusKept s u := by
  have e1 : offCmdStat = 0x50 := rfl
  have e2 : offStatus = 0x0C := rfl
  refine ⟨setBusy p 1 (setStat p 23 16 o.tag (setOutstanding p o t)), ?_, ⟨?_, ?_, ?_⟩, ?_, ?_, ?_⟩
  · unfold issueNow
    rw [← ho]
  · rw [outstanding_eq (by rw [cmds_setBusy, cmds_setStat] : _ = (setOutstanding p o t).cmds), outstanding_setOutstanding]
  · rw [cmdStat_setBusy, getBits_setBits _ _ (by decide) (by decide)]
    rfl
  · rw [cmdStat_setBusy, getBits_setBits_other _ _ (by decide) (by decide) (by decide), cmdStat_setStat, getBits_setBits _ _ (by decide) (by decide)]
    exact Nat.mod_eq_of_lt hg
  · intro q x hx h0 hq
    rw [reg_setBusy_other _ _ _ hx (h0.imp id (by omega)), reg_setStat_other _ _ _ _ _ hx (h0.imp id (by omega)), reg_setOutstanding]
    exact hreg q x hx h0 hq
  · have hp : pageBit p ||| (pageBit p ||| 0x4000800) = pageBit p ||| 0x4000800 := by rw [← Nat.or_assoc, Nat.or_self]
    have hc : 0x4000000 ||| (pageBit p ||| 0x4000800) = pageBit p ||| 0x4000800 := by
      rw [Nat.or_left_comm]
      rfl
    exact setBusy_within (setStat_within (setOutstanding_within hw _ _ hc) _ _ _ _ hp) _ _ hp
  · intro q hi lo hq h1 h2 h3
    rw [← hs q hq]
    unfold setBusy
    have e : reg (setStat p 31 31 1 (setStat p 23 16 o.tag (setOutstanding p o t))) (addr q offStatus) = reg t (addr q offStatus) := by
      rw [reg_setStat_other _ _ _ _ _ (by decide) (.inr (by decide)), reg_setStat_other _ _ _ _ _ (by decide) (.inr (by decide)), reg_setOutstanding]
    by_cases hqp : q = p
    · subst hqp
      rw [reg_setReg_self, getBits_setBits_other _ _ (by decide) (by decide) (by omega), e]
    · rw [reg_setReg_other _ _ (fun h => hqp (addr_inj (by decide) (by decide) h).1), e]

/-- The state in which a command runs: issued, its registers past the header those before, but for the ring's consumed index. -/
theorem issue_takes {s : State} {p : Page} {src : CmdSrc} (h : takes s p src = true) (op : Nat) (run : Outstanding → State → State) :
    ∃ u, issue p op src run s = run (latch p op src s) u ∧ Issued u p (latch p op src s) ∧
      (∀ q o, o < 0x1000 → (q ≠ p ∨ 0x100 ≤ o) → q ≠ .pci → reg u (addr q o) = reg s (addr q o)) ∧
      Within (pageBit p ||| 0x4000800) s u ∧ StatusKept s u := by
  cases src with
  | host tag =>
    simp only [takes, Bool.and_eq_true, Option.isNone_iff_eq_none] at h
    unfold issue
    rw [h.1]
    obtain ⟨u, a, b⟩ := issueNow_issued s s p op (.host tag) run _ rfl tag.isLt (fun _ _ _ _ _ => rfl) Within.refl (fun _ _ => rfl)
    exact ⟨u, by rw [a, h.2]; rfl, b⟩
  | ring r c tag a0 a1 a2 =>
    simp only [takes, Bool.and_eq_true, Option.isNone_iff_eq_none] at h
    have hr : 24 + r.val < 32 := by have := r.isLt; omega
    unfold issue
    rw [h.1.1]
    dsimp only
    rw [if_pos h.2]
    have hy : ready (takeEntry (24 + r.val) s) p = true := by
      unfold ready takeEntry
      rw [reg_setRingField _ (by decide) hr _ _ (by decide) (.inr (by decide))]
      exact h.1.2
    have h1 : ∀ q x, x < 0x1000 → (q ≠ p ∨ 0x100 ≤ x) → q ≠ .pci → reg (takeEntry (24 + r.val) s) (addr q x) = reg s (addr q x) :=
      fun q x hx _ hq => reg_setRingField _ (by decide) hr _ _ hx (.inl hq)
    have h2 : Within (pageBit p ||| 0x4000800) s (takeEntry (24 + r.val) s) := by
      refine takeEntry_within Within.refl _ ?_
      rw [Nat.or_left_comm]
      rfl
    obtain ⟨u, a, b⟩ := issueNow_issued s (takeEntry (24 + r.val) s) p op (.ring r c tag a0 a1 a2) run _ rfl tag.isLt h1 h2
      (fun q hq => reg_setRingField _ (by decide) hr _ _ (by decide) (.inl hq))
    exact ⟨u, by rw [a, hy]; rfl, b⟩

/-- A command written by the host to a page with none outstanding: refused while the block is not READY, else run. -/
theorem issue_host {s : State} {p : Page} (h : outstanding s p = none) (op : Nat) (tag : BitVec 8) (run : Outstanding → State → State) :
    ∃ u, issue p op (.host tag) run s = (if ready s p then run (latch p op (.host tag) s) u else complete p CODE.REFUSED 0 u) ∧
      Issued u p (latch p op (.host tag) s) ∧
      (∀ q o, o < 0x1000 → (q ≠ p ∨ 0x100 ≤ o) → q ≠ .pci → reg u (addr q o) = reg s (addr q o)) ∧ Within (pageBit p ||| 0x4000800) s u ∧
      StatusKept s u := by
  unfold issue
  rw [h]
  exact issueNow_issued s s p op (.host tag) run _ rfl tag.isLt (fun _ _ _ _ _ => rfl) Within.refl (fun _ _ => rfl)

/-! A completion changes registers, command slots, rings and what is sent, nothing else. -/

theorem complete_all (p : Page) (code d : Nat) (s : State) : Within (allRegs ||| 0x20000034000800) s (complete p code d s) :=
  complete_within Within.refl p code d rfl (Mask.any rfl p)

@[simp] theorem log_complete (p : Page) (code d : Nat) (s : State) : (complete p code d s).log = s.log := (complete_all p code d s).same .log rfl

@[simp] theorem log_done (p : Page) (code : Nat) (s : State) : (done p code s).log = s.log := log_complete _ _ _ _

@[simp] theorem time_complete (p : Page) (code d : Nat) (s : State) : (complete p code d s).time = s.time := (complete_all p code d s).same .time rfl

@[simp] theorem time_done (p : Page) (code : Nat) (s : State) : (done p code s).time = s.time := time_complete _ _ _ _

@[simp] theorem pwr_complete (p : Page) (code d : Nat) (s : State) : (complete p code d s).pwr = s.pwr := (complete_all p code d s).same .pwr rfl

@[simp] theorem pwr_done (p : Page) (code : Nat) (s : State) : (done p code s).pwr = s.pwr := pwr_complete _ _ _ _

@[simp] theorem boot_complete (p : Page) (code d : Nat) (s : State) : (complete p code d s).boot = s.boot := (complete_all p code d s).same .boot rfl

@[simp] theorem boot_done (p : Page) (code : Nat) (s : State) : (done p code s).boot = s.boot := boot_complete _ _ _ _

@[simp] theorem ports_complete (p : Page) (code d : Nat) (s : State) : (complete p code d s).ports = s.ports := (complete_all p code d s).same .ports rfl

@[simp] theorem ports_done (p : Page) (code : Nat) (s : State) : (done p code s).ports = s.ports := ports_complete _ _ _ _

@[simp] theorem nbw_complete (p : Page) (code d : Nat) (s : State) : (complete p code d s).nbw = s.nbw := (complete_all p code d s).same .nbw rfl

@[simp] theorem nbw_done (p : Page) (code : Nat) (s : State) : (done p code s).nbw = s.nbw := nbw_complete _ _ _ _

@[simp] theorem bbw_complete (p : Page) (code d : Nat) (s : State) : (complete p code d s).bbw = s.bbw := (complete_all p code d s).same .bbw rfl

@[simp] theorem bbw_done (p : Page) (code : Nat) (s : State) : (done p code s).bbw = s.bbw := bbw_complete _ _ _ _

@[simp] theorem ncal_complete (p : Page) (code d : Nat) (s : State) : (complete p code d s).ncal = s.ncal := (complete_all p code d s).same .ncal rfl

@[simp] theorem ncal_done (p : Page) (code : Nat) (s : State) : (done p code s).ncal = s.ncal := ncal_complete _ _ _ _

@[simp] theorem bcn_complete (p : Page) (code d : Nat) (s : State) : (complete p code d s).bcn = s.bcn := (complete_all p code d s).same .bcn rfl

@[simp] theorem bcn_done (p : Page) (code : Nat) (s : State) : (done p code s).bcn = s.bcn := bcn_complete _ _ _ _

@[simp] theorem plan_complete (p : Page) (code d : Nat) (s : State) : (complete p code d s).plan = s.plan := (complete_all p code d s).same .plan rfl

@[simp] theorem plan_done (p : Page) (code : Nat) (s : State) : (done p code s).plan = s.plan := plan_complete _ _ _ _

@[simp] theorem eng_complete (p : Page) (code d : Nat) (s : State) : (complete p code d s).eng = s.eng := (complete_all p code d s).same .eng rfl

@[simp] theorem eng_done (p : Page) (code : Nat) (s : State) : (done p code s).eng = s.eng := eng_complete _ _ _ _

@[simp] theorem bq_complete (p : Page) (code d : Nat) (s : State) : (complete p code d s).bq = s.bq := (complete_all p code d s).same .bq rfl

@[simp] theorem bq_done (p : Page) (code : Nat) (s : State) : (done p code s).bq = s.bq := bq_complete _ _ _ _

@[simp] theorem mem_complete (p : Page) (code d : Nat) (s : State) : (complete p code d s).mem = s.mem := (complete_all p code d s).same .mem rfl

@[simp] theorem mem_done (p : Page) (code : Nat) (s : State) : (done p code s).mem = s.mem := mem_complete _ _ _ _

@[simp] theorem tru_complete (p : Page) (code d : Nat) (s : State) : (complete p code d s).tru = s.tru := (complete_all p code d s).same .tru rfl

@[simp] theorem tru_done (p : Page) (code : Nat) (s : State) : (done p code s).tru = s.tru := tru_complete _ _ _ _

@[simp] theorem mac_complete (p : Page) (code d : Nat) (s : State) : (complete p code d s).mac = s.mac := (complete_all p code d s).same .mac rfl

@[simp] theorem mac_done (p : Page) (code : Nat) (s : State) : (done p code s).mac = s.mac := mac_complete _ _ _ _

@[simp] theorem cip_complete (p : Page) (code d : Nat) (s : State) : (complete p code d s).cip = s.cip := (complete_all p code d s).same .cip rfl

@[simp] theorem cip_done (p : Page) (code : Nat) (s : State) : (done p code s).cip = s.cip := cip_complete _ _ _ _

@[simp] theorem link_complete (p : Page) (code d : Nat) (s : State) : (complete p code d s).link = s.link := (complete_all p code d s).same .link rfl

@[simp] theorem link_done (p : Page) (code : Nat) (s : State) : (done p code s).link = s.link := link_complete _ _ _ _

@[simp] theorem sto_complete (p : Page) (code d : Nat) (s : State) : (complete p code d s).sto = s.sto := (complete_all p code d s).same .sto rfl

@[simp] theorem sto_done (p : Page) (code : Nat) (s : State) : (done p code s).sto = s.sto := sto_complete _ _ _ _

@[simp] theorem pair_complete (p : Page) (code d : Nat) (s : State) : (complete p code d s).pair = s.pair := (complete_all p code d s).same .pair rfl

@[simp] theorem pair_done (p : Page) (code : Nat) (s : State) : (done p code s).pair = s.pair := pair_complete _ _ _ _

@[simp] theorem sen_complete (p : Page) (code d : Nat) (s : State) : (complete p code d s).sen = s.sen := (complete_all p code d s).same .sen rfl

@[simp] theorem sen_done (p : Page) (code : Nat) (s : State) : (done p code s).sen = s.sen := sen_complete _ _ _ _

@[simp] theorem mgt_complete (p : Page) (code d : Nat) (s : State) : (complete p code d s).mgt = s.mgt := (complete_all p code d s).same .mgt rfl

@[simp] theorem mgt_done (p : Page) (code : Nat) (s : State) : (done p code s).mgt = s.mgt := mgt_complete _ _ _ _

@[simp] theorem ser_complete (p : Page) (code d : Nat) (s : State) : (complete p code d s).ser = s.ser := (complete_all p code d s).same .ser rfl

@[simp] theorem ser_done (p : Page) (code : Nat) (s : State) : (done p code s).ser = s.ser := ser_complete _ _ _ _

@[simp] theorem draws_complete (p : Page) (code d : Nat) (s : State) : (complete p code d s).draws = s.draws := (complete_all p code d s).same .draws rfl

@[simp] theorem draws_done (p : Page) (code : Nat) (s : State) : (done p code s).draws = s.draws := draws_complete _ _ _ _

@[simp] theorem frees_complete (p : Page) (code d : Nat) (s : State) : (complete p code d s).frees = s.frees := (complete_all p code d s).same .frees rfl

@[simp] theorem frees_done (p : Page) (code : Nat) (s : State) : (done p code s).frees = s.frees := frees_complete _ _ _ _

end Sys2Proof.Machine
end

