-- ==== Sys2Proof/Laws/Frames.lean ====
section
/-!
SUPPORT. Sys2Proof/Laws/Frames.lean: the registers that the shared operations leave alone, for claims that name the registers a command changes.
-/
namespace Sys2Proof.Machine

theorem Yields.intro {i : Instr} {s t : State} {P : State → Prop} (e : exec i s = .next t) (h : P t) : Yields i s P := ⟨t, e, h⟩

theorem Yields.mono {i : Instr} {s : State} {P Q : State → Prop} (h : Yields i s P) (f : ∀ t, P t → Q t) : Yields i s Q :=
  ⟨h.choose, h.choose_spec.1, f _ h.choose_spec.2⟩

/-! Registers outside a list. -/

theorem RegsBut.refl (l : List Nat) (s : State) : RegsBut l s s := fun _ _ => rfl

theorem RegsBut.trans {l : List Nat} {s t u : State} (h : RegsBut l s t) (g : RegsBut l t u) : RegsBut l s u :=
  fun a ha => (g a ha).trans (h a ha)

theorem RegsBut.mono {l k : List Nat} {s t : State} (h : RegsBut l s t) (g : ∀ a ∈ l, a ∈ k) : RegsBut k s t :=
  fun a ha => h a (fun x => ha (g a x))

theorem RegsBut.append {l : List Nat} {s t : State} (h : RegsBut l s t) (k : List Nat) : RegsBut (l ++ k) s t :=
  h.mono (fun _ ha => List.mem_append_left k ha)

theorem RegsBut.upd {l : List Nat} {s t u : State} (h : RegsBut l s t) (e : u.regs = t.regs) : RegsBut l s u :=
  fun a ha => Eq.trans (by unfold reg; rw [e]) (h a ha)

theorem RegsBut.setReg {l : List Nat} {s t : State} (h : RegsBut l s t) {a : Nat} (w : Word) (ha : a ∈ l) : RegsBut l s (setReg a w t) :=
  fun _ hb => (reg_setReg_other _ _ (by rintro rfl; exact hb ha)).trans (h _ hb)

theorem RegsBut.setI {l : List Nat} {s t : State} (h : RegsBut l s t) {p : Page} {f : Field} {i : Nat} (v : Nat) (ha : addr p (f.offAt i) ∈ l) :
    RegsBut l s (setI p f i v t) := h.setReg _ ha

theorem RegsBut.setF {l : List Nat} {s t : State} (h : RegsBut l s t) {p : Page} {f : Field} (v : Nat) (ha : addr p f.off ∈ l) : RegsBut l s (setF p f v t) :=
  h.setReg _ (by rwa [Field.offAt_zero])

theorem RegsBut.setB {l : List Nat} {s t : State} (h : RegsBut l s t) {p : Page} {f : Field} (b : Bool) (ha : addr p f.off ∈ l) : RegsBut l s (setB p f b t) :=
  h.setF _ ha

theorem RegsBut.countN {l : List Nat} {s t : State} (h : RegsBut l s t) {p : Page} {f : Field} (n : Nat) (ha : addr p f.off ∈ l) :
    RegsBut l s (countN p f n t) := h.setF _ ha

theorem RegsBut.count {l : List Nat} {s t : State} (h : RegsBut l s t) {p : Page} {f : Field} (ha : addr p f.off ∈ l) : RegsBut l s (count p f t) :=
  h.setF _ ha

theorem RegsBut.raiseMask {l : List Nat} {s t : State} (h : RegsBut l s t) {p : Page} (m : Word) (ha : addr p offIntStat ∈ l) :
    RegsBut l s (raiseMask p m t) := by
  intro b hb
  rw [reg_raiseMask, if_neg (fun e => hb (by rwa [e]))]
  exact h b hb

theorem RegsBut.raise {l : List Nat} {s t : State} (h : RegsBut l s t) {p : Page} (n : Nat) (ha : addr p offIntStat ∈ l) : RegsBut l s (raise p n t) :=
  h.raiseMask _ ha

theorem RegsBut.countErr {l : List Nat} {s t : State} (h : RegsBut l s t) {p : Page} (ha : addr p offIntStat ∈ l) (hb : addr p offErrCnt ∈ l) :
    RegsBut l s (countErr p t) := (h.setReg _ hb).raise _ ha

theorem RegsBut.setFault {l : List Nat} {s t : State} (h : RegsBut l s t) {p : Page} (v : Nat) (ha : addr p offStatus ∈ l) : RegsBut l s (setFault p v t) :=
  h.setReg _ ha

theorem RegsBut.setReady {l : List Nat} {s t : State} (h : RegsBut l s t) {p : Page} (v : Nat) (ha : addr p offStatus ∈ l) : RegsBut l s (setReady p v t) :=
  h.setReg _ ha

theorem RegsBut.emit {l : List Nat} {s t : State} (h : RegsBut l s t) (e : Emit) : RegsBut l s (emit e t) := h.upd rfl

theorem RegsBut.sendVector {l : List Nat} {s t : State} (h : RegsBut l s t) (v : Nat) : RegsBut l s (sendVector v t) :=
  fun a ha => (reg_sendVector v t a).trans (h a ha)

theorem RegsBut.foldl {α : Type} {l : List Nat} {s : State} {f : State → α → State} (hf : ∀ t x, RegsBut l s t → RegsBut l s (f t x)) :
    ∀ (xs : List α) (t : State), RegsBut l s t → RegsBut l s (xs.foldl f t)
  | [], _, h => h
  | x :: xs, t, h => RegsBut.foldl hf xs (f t x) (hf t x h)

/-- The registers of kinds outside a footprint read as before. -/
theorem Within.regsBut {m : Nat} {s t : State} (h : Within m s t) (a : Nat) (k : PageKind) (ha : (pageOfAddr a).map pageKind = some k)
    (hk : m.testBit (kindCode k) = false) : reg t a = reg s a := h.same (.regs k) hk a ha

/-- A register of a page whose kind is outside a footprint reads as before. -/
theorem Within.reg_addr {m : Nat} {s t : State} (h : Within m s t) (p : Page) (o : Nat) (hk : m.testBit (kindCode (pageKind p)) = false) :
    reg t (addr p o) = reg s (addr p o) := h.regsBut _ (pageKind p) (by rw [pageOfAddr_addr]; rfl) hk

/-- A field of a page whose kind is outside a footprint reads as before. -/
theorem Within.getF_addr {m : Nat} {s t : State} (h : Within m s t) (p : Page) (f : Field) (hk : m.testBit (kindCode (pageKind p)) = false) :
    getF t p f = getF s p f := by
  unfold getF getI
  rw [h.reg_addr p _ hk]

/-- An interrupt bit of a page whose kind is outside a footprint reads as before. -/
theorem Within.intOf_addr {m : Nat} {s t : State} (h : Within m s t) (p : Page) (n : Nat) (hk : m.testBit (kindCode (pageKind p)) = false) :
    intOf t p n = intOf s p n := by
  unfold intOf
  rw [h.reg_addr p _ hk]

/-! Registers beyond the common headers. -/

theorem BlockRegsBut.refl (l : List Nat) (s : State) : BlockRegsBut l s s := fun _ _ _ _ _ _ => rfl

theorem BlockRegsBut.trans {l : List Nat} {s t u : State} (h : BlockRegsBut l s t) (g : BlockRegsBut l t u) : BlockRegsBut l s u :=
  fun p o h1 h2 h3 h4 => (g p o h1 h2 h3 h4).trans (h p o h1 h2 h3 h4)

theorem RegsBut.block {l k : List Nat} {s t : State} (h : RegsBut l s t) (hl : ∀ a ∈ l, a ∈ k ∨ ∃ p o, a = addr p o ∧ o < 0x100) : BlockRegsBut k s t := by
  intro p o h1 h2 _ h4
  refine h _ (fun hm => ?_)
  rcases hl _ hm with h5 | ⟨q, x, e, hx⟩
  · exact h4 h5
  · have := (addr_inj h1 (by omega) e).2
    omega

theorem BlockRegsBut.upd {l : List Nat} {s t u : State} (h : BlockRegsBut l s t) (e : u.regs = t.regs) : BlockRegsBut l s u :=
  fun p o h1 h2 h3 h4 => Eq.trans (by unfold reg; rw [e]) (h p o h1 h2 h3 h4)

theorem BlockRegsBut.setReg {l : List Nat} {s t : State} (h : BlockRegsBut l s t) {a : Nat} (w : Word) (ha : a ∈ l) : BlockRegsBut l s (setReg a w t) :=
  fun p o h1 h2 h3 h4 => (reg_setReg_other _ _ (by rintro rfl; exact h4 ha)).trans (h p o h1 h2 h3 h4)

theorem BlockRegsBut.setF {l : List Nat} {s t : State} (h : BlockRegsBut l s t) {p : Page} {f : Field} (v : Nat) (ha : addr p f.off ∈ l) :
    BlockRegsBut l s (setF p f v t) := h.setReg _ (by rwa [Field.offAt_zero])

theorem BlockRegsBut.setB {l : List Nat} {s t : State} (h : BlockRegsBut l s t) {p : Page} {f : Field} (b : Bool) (ha : addr p f.off ∈ l) :
    BlockRegsBut l s (setB p f b t) := h.setF _ ha

theorem BlockRegsBut.header {l : List Nat} {s t : State} (h : BlockRegsBut l s t) {p : Page} {o : Nat} (w : Word) (ho : o < 0x100) :
    BlockRegsBut l s (Machine.setReg (addr p o) w t) :=
  fun q x h1 h2 h3 h4 => (reg_setReg_other _ _ (fun e => by have := (addr_inj h1 (by omega) e).2; omega)).trans (h q x h1 h2 h3 h4)

theorem BlockRegsBut.raise {l : List Nat} {s t : State} (h : BlockRegsBut l s t) (p : Page) (n : Nat) : BlockRegsBut l s (raise p n t) :=
  fun q x h1 h2 h3 h4 => (reg_raise_other p n t h1 (.inr (by unfold offIntStat; omega))).trans (h q x h1 h2 h3 h4)

/-- A completion changes no register beyond the common headers but PCI's. -/
theorem BlockRegsBut.complete {l : List Nat} {s t : State} (h : BlockRegsBut l s t) (p : Page) (code d : Nat) : BlockRegsBut l s (complete p code d t) :=
  fun q x h1 h2 h3 h4 => (reg_complete t p code d h1 h3 (.inr h2)).trans (h q x h1 h2 h3 h4)

end Sys2Proof.Machine
end

