-- ==== Sys2Proof/Laws/Access.lean ====
section
/-!
SUPPORT. Sys2Proof/Laws/Access.lean: which operation a full access to a page's register is.
-/
namespace Sys2Proof.Machine

theorem addr_lt (p : Page) (o : Nat) : addr p o < 2 ^ 26 := by
  unfold addr
  have h : pageBase p ≤ 0x37F000 := by cases p <;> simp only [pageBase] <;> omega
  omega

theorem addr_toNat (p : Page) (o : Nat) : (BitVec.ofNat 26 (addr p o)).toNat = addr p o := by
  rw [BitVec.toNat_ofNat]
  exact Nat.mod_eq_of_lt (addr_lt p o)

theorem addr_aligned (p : Page) {o : Nat} (h : o % 4 = 0) : addr p o % 4 = 0 := by
  have := pageBase_mod p
  unfold addr
  omega

/-- A full write to an offset of a page is a write to its header or to its block. -/
theorem registerWrite_full (p : Page) {o : Nat} (ho : o < 0x1000) (h4 : o % 4 = 0) (v : Word) (e : WriteEnv) (s : State) :
    exec (.registerWrite (.bar0 (BitVec.ofNat 26 (addr p o))) (.dword 0xF) v e) s =
      if o < 0x100 then writeHeader p o v e s else writeBlock p o v e s := by
  change execRegisterWrite (.bar0 (BitVec.ofNat 26 (addr p o))) (.dword 0xF) v e s = _
  unfold execRegisterWrite
  dsimp only
  rw [addr_toNat, pageOfAddr_addr]
  dsimp only
  rw [addr_mod p ho]
  have hf : fullAccess (addr p o) (.dword 0xF) = true := by simp [fullAccess, addr_aligned p h4]
  rw [hf]
  rfl

/-- A full read of an offset of a page. -/
theorem counterRead_full (p : Page) {o : Nat} (ho : o < 0x1000) (h4 : o % 4 = 0) (s : State) :
    exec (.counterReadClear (.bar0 (BitVec.ofNat 26 (addr p o))) (.dword 0xF)) s = readReg p o s := by
  change execCounterReadClear (.bar0 (BitVec.ofNat 26 (addr p o))) (.dword 0xF) s = _
  unfold execCounterReadClear
  dsimp only
  rw [addr_toNat, pageOfAddr_addr]
  dsimp only
  rw [addr_mod p ho]
  have hf : fullAccess (addr p o) (.dword 0xF) = true := by simp [fullAccess, addr_aligned p h4]
  rw [hf]
  rfl

/-! A write to CMD (R38–R43). -/

/-- Whatever its opcode, a command written to CMD is issued on its page. -/
theorem runCommand_issue (p : Page) (op : Nat) (src : CmdSrc) (e : WriteEnv) (s : State) : ∃ run, runCommand p op src e s = .next (issue p op src run s) := by
  unfold runCommand
  split
  · rename_i h
    subst h
    exact ⟨_, rfl⟩
  · split <;> simp only [supplyCommand, managementCommand, outsideCommand, macCommand, lineCommand, badOpcode] <;> split <;> exact ⟨_, rfl⟩

/-- No page defines an opcode above 9. -/
theorem runCommand_bad (p : Page) {op : Nat} (h : 9 < op) (src : CmdSrc) (e : WriteEnv) (s : State) :
    runCommand p op src e s = .next (issue p op src (fun _ t => done p CODE.BAD_OPCODE t) s) := by
  unfold runCommand
  rw [if_neg (by omega)]
  split <;> simp only [supplyCommand, managementCommand, outsideCommand, macCommand, lineCommand, badOpcode] <;> split <;>
    first | exact absurd h (by decide) | rfl

theorem issue_busy {s : State} {p : Page} {o : Outstanding} (h : outstanding s p = some o) (op : Nat) (tag : BitVec 8) (run : Outstanding → State → State) :
    issue p op (.host tag) run s = dropCmd p s := by
  unfold issue
  rw [h]

/-- A full write to CMD with ABORT = 0 is a command of the opcode and tag written. -/
theorem writeCmd_issue (p : Page) (v : Word) (e : WriteEnv) (s : State) (h : getBits v 31 31 = 0) : ∃ run,
    exec (.registerWrite (.bar0 (BitVec.ofNat 26 (addr p 0x040))) (.dword 0xF) v e) s =
      .next (issue p (getBits v 15 0) (.host (BitVec.ofNat 8 (getBits v 23 16))) run s) ∧
    (9 < getBits v 15 0 → run = fun _ t => done p CODE.BAD_OPCODE t) := by
  rw [registerWrite_full p (by decide) (by decide), if_pos (by decide)]
  have e1 : writeHeader p 0x040 v e s = runCommand p (getBits v 15 0) (.host (BitVec.ofNat 8 (getBits v 23 16))) e s := by
    show writeCmd p v e s = _
    unfold writeCmd
    dsimp only
    rw [if_neg (by omega)]
  rw [e1]
  by_cases hb : 9 < getBits v 15 0
  · exact ⟨_, runCommand_bad p hb _ e s, fun _ => rfl⟩
  · obtain ⟨run, hr⟩ := runCommand_issue p (getBits v 15 0) (.host (BitVec.ofNat 8 (getBits v 23 16))) e s
    exact ⟨run, hr, fun h => absurd h hb⟩

/-- A dropped command is counted and disturbs nothing (R39). -/
theorem dropCmd_effect (p : Page) (s : State) : (dropCmd p s).cmds = s.cmds ∧ getBits (reg (dropCmd p s) (addr p offCmdStat)) 28 28 = 1 ∧
    errors (dropCmd p s) p = min (errors s p + 1) 0xFFFF ∧ RegsBut [addr p offCmdStat, addr p offIntStat, addr p offErrCnt] s (dropCmd p s) := by
  have e1 : offCmdStat = 0x50 := rfl
  have e2 : offErrCnt = 0x1C := rfl
  have e3 : offIntStat = 0x10 := rfl
  unfold dropCmd
  refine ⟨?_, ?_, ?_, ?_⟩
  · have hc : ∀ u, (countErr p u).cmds = u.cmds := fun u => by
      obtain ⟨r, b, m, h⟩ := countErr_shape p u
      rw [h]
    exact (hc _).trans (cmds_setStat _ _ _ _ _)
  · rw [reg_countErr_other _ _ (by decide) (.inr (by decide)), cmdStat_setStat, getBits_setBits _ _ (by decide) (by decide)]
    rfl
  · rw [errors_countErr]
    unfold errors
    rw [reg_setStat_other _ _ _ _ _ (by decide) (.inr (by decide))]
  · exact RegsBut.countErr (RegsBut.setReg (RegsBut.refl _ s) _ (.head _)) (.tail _ (.head _)) (.tail _ (.tail _ (.head _)))

/-! What a write does to the RW fields of a register (R8, R9). -/

theorem errors_le (s : State) (p : Page) : errors s p ≤ 0xFFFF := Nat.le_of_lt_succ (getBits_lt _ 15 0)

/-- Fields of one word that share no bit. -/
def fieldsApart (fs : List Field) : Prop :=
  (∀ f ∈ fs, f.lo ≤ f.hi ∧ f.hi < 32) ∧ fs.Pairwise (fun f g => f.hi < g.lo ∨ g.hi < f.lo)

/-- Fields written in turn: each legal value stands, each reserved one is kept and counted, and no other register or bit changes. -/
theorem writeFold_effect {p : Page} {o : Nat} (ho : o < 0x1000) (h0 : 0x100 ≤ o) (v : Word) : ∀ (fs : List Field) (s : State), fieldsApart fs →
    let t := fs.foldl (fun t f => writeField p o v f t) s
    let bad := fs.filter (fun f => !f.legal.ok f.width (getBits v f.hi f.lo))
    (∀ f ∈ fs, getBits (reg t (addr p o)) f.hi f.lo =
      if f.legal.ok f.width (getBits v f.hi f.lo) then getBits v f.hi f.lo else getBits (reg s (addr p o)) f.hi f.lo) ∧
    (∀ hi lo, (∀ f ∈ fs, hi < f.lo ∨ f.hi < lo) → getBits (reg t (addr p o)) hi lo = getBits (reg s (addr p o)) hi lo) ∧
    errors t p = min (errors s p + bad.length) (max (errors s p) 0xFFFF) ∧ (bad ≠ [] ∨ intOf s p INT.ERR = true → intOf t p INT.ERR = true) ∧
    (∀ n, intOf s p n = true → intOf t p n = true) ∧
    RegsBut [addr p o, addr p offIntStat, addr p offErrCnt] s t
  | [], s, _ => by
    refine ⟨fun _ h => absurd h (by simp), fun _ _ _ => rfl, ?_, ?_, fun _ h => h, RegsBut.refl _ _⟩
    · show errors s p = _
      simp only [List.filter_nil, List.length_nil]
      omega
    · intro h
      rcases h with h | h
      · exact absurd rfl h
      · exact h
  | f :: fs, s, h => by
    obtain ⟨h1, h2⟩ := h
    obtain ⟨h3, h4⟩ := List.pairwise_cons.1 h2
    obtain ⟨hl, hh⟩ := h1 f (by simp)
    have e1 : offErrCnt = 0x1C := rfl
    have e2 : offIntStat = 0x10 := rfl
    intro t bad
    have ih := writeFold_effect (p := p) ho h0 v fs (writeField p o v f s) ⟨fun g hg => h1 g (by simp [hg]), h4⟩
    rw [show List.foldl (fun t f => writeField p o v f t) (writeField p o v f s) fs = t from rfl] at ih
    clear_value t
    dsimp only at ih
    obtain ⟨i1, i2, i3, i4, i6, i5⟩ := ih
    by_cases ok : f.legal.ok f.width (getBits v f.hi f.lo) = true
    · have hw : writeField p o v f s = setReg (addr p o) (setBits (reg s (addr p o)) f.hi f.lo (getBits v f.hi f.lo)) s := by
        unfold writeField
        rw [if_pos ok]
      have hb : bad = fs.filter (fun f => !f.legal.ok f.width (getBits v f.hi f.lo)) := by
        unfold bad
        rw [List.filter_cons_of_neg (by simp [ok])]
      have ha : ∀ x, x < 0x100 → reg (writeField p o v f s) (addr p x) = reg s (addr p x) := by
        intro x hx
        rw [hw]
        exact reg_setReg_other _ _ (fun e => by have := (addr_inj (by omega) ho e).2; omega)
      have hr : reg (writeField p o v f s) (addr p o) = setBits (reg s (addr p o)) f.hi f.lo (getBits v f.hi f.lo) := by
        rw [hw, reg_setReg_self]
      refine ⟨?_, ?_, ?_, ?_, ?_, ?_⟩
      · intro g hg
        rcases List.mem_cons.1 hg with rfl | hg
        · rw [if_pos ok, i2 _ _ (fun x hx => h3 x hx), hr, getBits_setBits _ _ hl hh]
          exact Nat.mod_eq_of_lt (getBits_lt _ _ _)
        · rw [i1 g hg, hr, getBits_setBits_other _ _ hl hh ((h3 g hg).symm)]
      · intro hi lo hd
        rw [i2 hi lo (fun x hx => hd x (by simp [hx])), hr, getBits_setBits_other _ _ hl hh (hd f (by simp))]
      · rw [i3, hb]
        have : errors (writeField p o v f s) p = errors s p := by unfold errors; rw [ha _ (by omega)]
        rw [this]
      · intro hx
        refine i4 ?_
        rw [hb] at hx
        exact hx.imp id (fun e => (intOf_eq (ha _ (by omega)) _).trans e)
      · intro n hx
        exact i6 n ((intOf_eq (ha _ (by omega)) _).trans hx)
      · refine RegsBut.trans ?_ i5
        rw [hw]
        exact (RegsBut.refl _ _).setReg _ (by simp)
    · have hw : writeField p o v f s = countErr p s := by
        unfold writeField
        rw [if_neg ok]
      have hb : bad = f :: fs.filter (fun f => !f.legal.ok f.width (getBits v f.hi f.lo)) := by
        unfold bad
        rw [List.filter_cons_of_pos (by simp [ok])]
      have hr : reg (writeField p o v f s) (addr p o) = reg s (addr p o) := by
        rw [hw, reg_countErr_other _ _ ho (.inr ⟨by omega, by omega⟩)]
      refine ⟨?_, ?_, ?_, ?_, ?_, ?_⟩
      · intro g hg
        rcases List.mem_cons.1 hg with rfl | hg
        · rw [if_neg ok, i2 _ _ (fun x hx => h3 x hx), hr]
        · rw [i1 g hg, hr]
      · intro hi lo hd
        rw [i2 hi lo (fun x hx => hd x (by simp [hx])), hr]
      · rw [i3, hb, hw, errors_countErr]
        have h16 := errors_le s p
        generalize errors s p = x at h16
        rw [List.length_cons]
        generalize 0xFFFF = y at h16
        omega
      · intro _
        refine i4 (.inr ?_)
        rw [hw]
        exact intOf_countErr _ _
      · intro n hx
        refine i6 n ?_
        rw [hw]
        exact intOf_countErr_mono _ _ _ _ hx
      · refine RegsBut.trans ?_ i5
        rw [hw]
        exact (RegsBut.refl _ _).countErr (by simp) (by simp)

end Sys2Proof.Machine
end

