-- ==== Sys2Proof/Laws/WithinMemOps.lean ====
section
/-! SUPPORT. Sys2Proof/Laws/WithinMemOps.lean: the parts of a state that the operations of Machine/MemOps.lean may change. -/
namespace Sys2Proof.Machine

theorem setByte_within {m : Nat} {s t : State} (h : Within m s t) (a0 : Nat) (a1 : Byte) (hm : 0x20000000000 ||| m = m) : Within m s (setByte a0 a1 t) := by
  have b41 := Mask.has (i := 41) hm rfl
  unfold setByte
  repeat' (first | with_reducible assumption | ((with_reducible refine Mask.sub hm ?_); first | exact rfl | (simp only [pageBit_ser]; exact rfl)) | with_reducible apply setReg_within | with_reducible exact Within.refl | ((with_reducible refine Within.upd ?_ (.inl rfl) (.inl rfl) (.inl rfl) (.inl rfl) (.inl rfl) (.inl rfl) (.inl rfl) (.inl rfl) (.inl rfl) (.inl rfl) (.inl rfl) (.inl rfl) (.inl rfl) (.inl rfl) (.inl rfl) (.inl rfl) (.inl rfl) (.inr b41) (.inl rfl) (.inl rfl) (.inl rfl) (.inl rfl) (.inl rfl) (.inl rfl) (.inl rfl) (.inl rfl) (.inl rfl) (.inl rfl) (.inl rfl) (.inl rfl)); first | with_reducible assumption | ((with_reducible refine Mask.sub hm ?_); first | exact rfl | (simp only [pageBit_ser]; exact rfl)) | with_reducible apply setReg_within | with_reducible exact Within.refl | split) | intro _ | split | dsimp only)

theorem setBytes_within {m : Nat} {s t : State} (h : Within m s t) (a0 : Nat) (a1 : List Byte) (hm : 0x20000000000 ||| m = m) : Within m s (setBytes a0 a1 t) := by
  induction a1 generalizing t a0 with
  | nil =>
    unfold setBytes
    repeat' (first | with_reducible assumption | with_reducible apply ih | ((with_reducible refine Mask.sub hm ?_); first | exact rfl | (simp only [pageBit_ser]; exact rfl)) | with_reducible apply setReg_within | with_reducible apply setByte_within | with_reducible exact Within.refl | intro _ | split | dsimp only)
  | cons _ _ ih =>
    unfold setBytes
    repeat' (first | with_reducible assumption | with_reducible apply ih | ((with_reducible refine Mask.sub hm ?_); first | exact rfl | (simp only [pageBit_ser]; exact rfl)) | with_reducible apply setReg_within | with_reducible apply setByte_within | with_reducible exact Within.refl | intro _ | split | dsimp only)

theorem setBank_within {m : Nat} {s t : State} (h : Within m s t) (a0 : Nat) (a1 : BankSt) (hm : 0x20000000000 ||| m = m) : Within m s (setBank a0 a1 t) := by
  have b41 := Mask.has (i := 41) hm rfl
  unfold setBank
  repeat' (first | with_reducible assumption | ((with_reducible refine Mask.sub hm ?_); first | exact rfl | (simp only [pageBit_ser]; exact rfl)) | with_reducible apply setReg_within | with_reducible exact Within.refl | ((with_reducible refine Within.upd ?_ (.inl rfl) (.inl rfl) (.inl rfl) (.inl rfl) (.inl rfl) (.inl rfl) (.inl rfl) (.inl rfl) (.inl rfl) (.inl rfl) (.inl rfl) (.inl rfl) (.inl rfl) (.inl rfl) (.inl rfl) (.inl rfl) (.inl rfl) (.inr b41) (.inl rfl) (.inl rfl) (.inl rfl) (.inl rfl) (.inl rfl) (.inl rfl) (.inl rfl) (.inl rfl) (.inl rfl) (.inl rfl) (.inl rfl) (.inl rfl)); first | with_reducible assumption | ((with_reducible refine Mask.sub hm ?_); first | exact rfl | (simp only [pageBit_ser]; exact rfl)) | with_reducible apply setReg_within | with_reducible exact Within.refl | split) | intro _ | split | dsimp only)

theorem touchBank_within {m : Nat} {s t : State} (h : Within m s t) (a0 : Bank) (hm : 0x20000022000000 ||| m = m) : Within m s (touchBank a0 t) := by
  unfold touchBank
  repeat' (first | with_reducible assumption | ((with_reducible refine Mask.sub hm ?_); first | exact rfl | (simp only [pageBit_memb]; exact rfl)) | with_reducible apply setReg_within | with_reducible apply raise_within | with_reducible apply count_within | with_reducible apply setF_within | with_reducible exact Within.refl | intro _ | split | dsimp only)

theorem busSet_within {m : Nat} {s t : State} (h : Within m s t) (a0 : Nat) (a1 : Byte) (hm : 0x20000000000 ||| m = m) : Within m s (busSet a0 a1 t) := by
  unfold busSet
  repeat' (first | with_reducible assumption | ((with_reducible refine Mask.sub hm ?_); first | exact rfl | (simp only [pageBit_ser]; exact rfl)) | with_reducible apply setReg_within | with_reducible apply setByte_within | with_reducible exact Within.refl | intro _ | split | dsimp only)

theorem busSets_within {m : Nat} {s t : State} (h : Within m s t) (a0 : Nat) (a1 : List Byte) (hm : 0x20000000000 ||| m = m) : Within m s (busSets a0 a1 t) := by
  induction a1 generalizing t a0 with
  | nil =>
    unfold busSets
    repeat' (first | with_reducible assumption | with_reducible apply ih | ((with_reducible refine Mask.sub hm ?_); first | exact rfl | (simp only [pageBit_ser]; exact rfl)) | with_reducible apply setReg_within | with_reducible apply busSet_within | with_reducible exact Within.refl | intro _ | split | dsimp only)
  | cons _ _ ih =>
    unfold busSets
    repeat' (first | with_reducible assumption | with_reducible apply ih | ((with_reducible refine Mask.sub hm ?_); first | exact rfl | (simp only [pageBit_ser]; exact rfl)) | with_reducible apply setReg_within | with_reducible apply busSet_within | with_reducible exact Within.refl | intro _ | split | dsimp only)

theorem touchArea_within {m : Nat} {s t : State} (h : Within m s t) (a0 : Nat) (a1 : Nat) (hm : 0x20000022000000 ||| m = m) : Within m s (touchArea a0 a1 t) := by
  unfold touchArea
  repeat' (first | with_reducible assumption | ((with_reducible refine Mask.sub hm ?_); first | exact rfl | (simp only [pageBit_ser]; exact rfl)) | with_reducible apply setReg_within | with_reducible apply touchBank_within | with_reducible apply Within.foldl | with_reducible exact Within.refl | intro _ | split | dsimp only)

theorem busWrite_within {m : Nat} {s t : State} (h : Within m s t) (a0 : Nat) (a1 : List Byte) (hm : 0x20020022000000 ||| m = m) : Within m s (busWrite a0 a1 t) := by
  unfold busWrite
  repeat' (first | with_reducible assumption | ((with_reducible refine Mask.sub hm ?_); first | exact rfl | (simp only [pageBit_ser]; exact rfl)) | with_reducible apply setReg_within | with_reducible apply busSets_within | with_reducible apply touchArea_within | with_reducible exact Within.refl | intro _ | split | dsimp only)

theorem busWriteWords_within {m : Nat} {s t : State} (h : Within m s t) (a0 : Nat) (a1 : List Nat) (hm : 0x20020022000000 ||| m = m) : Within m s (busWriteWords a0 a1 t) := by
  unfold busWriteWords
  repeat' (first | with_reducible assumption | ((with_reducible refine Mask.sub hm ?_); first | exact rfl | (simp only [pageBit_ser]; exact rfl)) | with_reducible apply setReg_within | with_reducible apply busWrite_within | with_reducible exact Within.refl | intro _ | split | dsimp only)

end Sys2Proof.Machine
end

