-- ==== Sys2Proof/Laws/WithinBurst.lean ====
section
/-! SUPPORT. Sys2Proof/Laws/WithinBurst.lean: the parts of a state that the operations of Machine/Burst.lean may change. -/
namespace Sys2Proof.Machine

theorem setBurst_within {m : Nat} {s t : State} (h : Within m s t) (a0 : Nat) (a1 : Burst) (hm : 0x8000000000 ||| m = m) : Within m s (setBurst a0 a1 t) := by
  have b39 := Mask.has (i := 39) hm rfl
  unfold setBurst
  repeat' (first | with_reducible assumption | ((with_reducible refine Mask.sub hm ?_); first | exact rfl | (simp only [pageBit_ser]; exact rfl)) | with_reducible apply setReg_within | with_reducible exact Within.refl | ((with_reducible refine Within.upd ?_ (.inl rfl) (.inl rfl) (.inl rfl) (.inl rfl) (.inl rfl) (.inl rfl) (.inl rfl) (.inl rfl) (.inl rfl) (.inl rfl) (.inl rfl) (.inl rfl) (.inl rfl) (.inl rfl) (.inl rfl) (.inr b39) (.inl rfl) (.inl rfl) (.inl rfl) (.inl rfl) (.inl rfl) (.inl rfl) (.inl rfl) (.inl rfl) (.inl rfl) (.inl rfl) (.inl rfl) (.inl rfl) (.inl rfl) (.inl rfl)); first | with_reducible assumption | ((with_reducible refine Mask.sub hm ?_); first | exact rfl | (simp only [pageBit_ser]; exact rfl)) | with_reducible apply setReg_within | with_reducible exact Within.refl | split) | intro _ | split | dsimp only)

theorem setCluster_within {m : Nat} {s t : State} (h : Within m s t) (a0 : Nat) (a1 : ClusterSt) (hm : 0x8000000000 ||| m = m) : Within m s (setCluster a0 a1 t) := by
  have b39 := Mask.has (i := 39) hm rfl
  unfold setCluster
  repeat' (first | with_reducible assumption | ((with_reducible refine Mask.sub hm ?_); first | exact rfl | (simp only [pageBit_ser]; exact rfl)) | with_reducible apply setReg_within | with_reducible exact Within.refl | ((with_reducible refine Within.upd ?_ (.inl rfl) (.inl rfl) (.inl rfl) (.inl rfl) (.inl rfl) (.inl rfl) (.inl rfl) (.inl rfl) (.inl rfl) (.inl rfl) (.inl rfl) (.inl rfl) (.inl rfl) (.inl rfl) (.inl rfl) (.inr b39) (.inl rfl) (.inl rfl) (.inl rfl) (.inl rfl) (.inl rfl) (.inl rfl) (.inl rfl) (.inl rfl) (.inl rfl) (.inl rfl) (.inl rfl) (.inl rfl) (.inl rfl) (.inl rfl)); first | with_reducible assumption | ((with_reducible refine Mask.sub hm ?_); first | exact rfl | (simp only [pageBit_ser]; exact rfl)) | with_reducible apply setReg_within | with_reducible exact Within.refl | split) | intro _ | split | dsimp only)

theorem recount_within {m : Nat} {s t : State} (h : Within m s t) (a0 : CtxState) (a1 : CtxState) (hm : 0x1000000 ||| m = m) : Within m s (recount a0 a1 t) := by
  unfold recount
  repeat' (first | with_reducible assumption | ((with_reducible refine Mask.sub hm ?_); first | exact rfl | (simp only [pageBit_eng]; exact rfl)) | with_reducible apply setReg_within | with_reducible apply setF_within | with_reducible exact Within.refl | intro _ | split | dsimp only)

theorem setRole_within {m : Nat} {s t : State} (h : Within m s t) (a0 : Nat) (a1 : Nat) (a2 : Nat) (hm : 0x1000000 ||| m = m) : Within m s (setRole a0 a1 a2 t) := by
  have hp : pageBit (engPage a0) ||| m = m := Mask.sub hm (by rw [engPage, pageBit_eng]; rfl)
  unfold setRole roleReg
  exact setReg_within (setReg_within h _ _ _ hp) _ _ _ hp

theorem refreshLoad_within {m : Nat} {s t : State} (h : Within m s t) (a0 : Nat) (hm : 0x1000000 ||| m = m) : Within m s (refreshLoad a0 t) := by
  unfold refreshLoad
  repeat' (first | with_reducible assumption | ((with_reducible refine Mask.sub hm ?_); first | exact rfl | (simp only [pageBit_eng, engPage]; exact rfl)) | with_reducible apply setReg_within | with_reducible apply setB_within | with_reducible apply setF_within | with_reducible apply Within.foldl | with_reducible exact Within.refl | intro _ | split | dsimp only)

theorem moveCtx_within {m : Nat} {s t : State} (h : Within m s t) (a0 : Nat) (a1 : Burst) (hm : 0x8001000000 ||| m = m) : Within m s (moveCtx a0 a1 t) := by
  unfold moveCtx
  repeat' (first | with_reducible assumption | ((with_reducible refine Mask.sub hm ?_); first | exact rfl | (simp only [pageBit_ser]; exact rfl)) | with_reducible apply setReg_within | with_reducible apply recount_within | with_reducible apply setBurst_within | with_reducible apply refreshLoad_within | with_reducible exact Within.refl | intro _ | split | dsimp only)

theorem openCtx_within {m : Nat} {s t : State} (h : Within m s t) (a0 : Nat) (a1 : EngSt) (a2 : Burst) (hm : 0x8001000000 ||| m = m) : Within m s (openCtx a0 a1 a2 t) := by
  have b39 := Mask.has (i := 39) hm rfl
  unfold openCtx
  repeat' (first | with_reducible assumption | ((with_reducible refine Mask.sub hm ?_); first | exact rfl | (simp only [pageBit_ser]; exact rfl)) | with_reducible apply setReg_within | with_reducible apply moveCtx_within | with_reducible exact Within.refl | ((with_reducible refine Within.upd ?_ (.inl rfl) (.inl rfl) (.inl rfl) (.inl rfl) (.inl rfl) (.inl rfl) (.inl rfl) (.inl rfl) (.inl rfl) (.inl rfl) (.inl rfl) (.inl rfl) (.inl rfl) (.inl rfl) (.inl rfl) (.inr b39) (.inl rfl) (.inl rfl) (.inl rfl) (.inl rfl) (.inl rfl) (.inl rfl) (.inl rfl) (.inl rfl) (.inl rfl) (.inl rfl) (.inl rfl) (.inl rfl) (.inl rfl) (.inl rfl)); first | with_reducible assumption | ((with_reducible refine Mask.sub hm ?_); first | exact rfl | (simp only [pageBit_ser]; exact rfl)) | with_reducible apply setReg_within | with_reducible apply moveCtx_within | with_reducible exact Within.refl | split) | intro _ | split | dsimp only)

theorem freeCtx_within {m : Nat} {s t : State} (h : Within m s t) (a0 : Nat) (hm : 0x8001000000 ||| m = m) : Within m s (freeCtx a0 t) := by
  have b39 := Mask.has (i := 39) hm rfl
  unfold freeCtx
  repeat' (first | with_reducible assumption | ((with_reducible refine Mask.sub hm ?_); first | exact rfl | (simp only [pageBit_ser]; exact rfl)) | with_reducible apply setReg_within | with_reducible apply moveCtx_within | with_reducible exact Within.refl | ((with_reducible refine Within.upd ?_ (.inl rfl) (.inl rfl) (.inl rfl) (.inl rfl) (.inl rfl) (.inl rfl) (.inl rfl) (.inl rfl) (.inl rfl) (.inl rfl) (.inl rfl) (.inl rfl) (.inl rfl) (.inl rfl) (.inl rfl) (.inr b39) (.inl rfl) (.inl rfl) (.inl rfl) (.inl rfl) (.inl rfl) (.inl rfl) (.inl rfl) (.inl rfl) (.inl rfl) (.inl rfl) (.inl rfl) (.inl rfl) (.inl rfl) (.inl rfl)); first | with_reducible assumption | ((with_reducible refine Mask.sub hm ?_); first | exact rfl | (simp only [pageBit_ser]; exact rfl)) | with_reducible apply setReg_within | with_reducible apply moveCtx_within | with_reducible exact Within.refl | split) | intro _ | split | dsimp only)

theorem setQueue_within {m : Nat} {s t : State} (h : Within m s t) (a0 : Nat) (a1 : Queue) (hm : 0x10000000000 ||| m = m) : Within m s (setQueue a0 a1 t) := by
  have b40 := Mask.has (i := 40) hm rfl
  unfold setQueue
  repeat' (first | with_reducible assumption | ((with_reducible refine Mask.sub hm ?_); first | exact rfl | (simp only [pageBit_ser]; exact rfl)) | with_reducible apply setReg_within | with_reducible exact Within.refl | ((with_reducible refine Within.upd ?_ (.inl rfl) (.inl rfl) (.inl rfl) (.inl rfl) (.inl rfl) (.inl rfl) (.inl rfl) (.inl rfl) (.inl rfl) (.inl rfl) (.inl rfl) (.inl rfl) (.inl rfl) (.inl rfl) (.inl rfl) (.inl rfl) (.inr b40) (.inl rfl) (.inl rfl) (.inl rfl) (.inl rfl) (.inl rfl) (.inl rfl) (.inl rfl) (.inl rfl) (.inl rfl) (.inl rfl) (.inl rfl) (.inl rfl) (.inl rfl)); first | with_reducible assumption | ((with_reducible refine Mask.sub hm ?_); first | exact rfl | (simp only [pageBit_ser]; exact rfl)) | with_reducible apply setReg_within | with_reducible exact Within.refl | split) | intro _ | split | dsimp only)

theorem pushWord_within {m : Nat} {s t : State} (h : Within m s t) (a0 : Nat) (a1 : WordKind) (a2 : List Byte) (hm : 0x30000000000 ||| m = m) : Within m s (pushWord a0 a1 a2 t) := by
  unfold pushWord
  repeat' (first | with_reducible assumption | ((with_reducible refine Mask.sub hm ?_); first | exact rfl | (simp only [pageBit_ser]; exact rfl)) | with_reducible apply setReg_within | with_reducible apply setQueue_within | with_reducible apply setBytes_within | with_reducible exact Within.refl | intro _ | split | dsimp only)

theorem closePartial_within {m : Nat} {s t : State} (h : Within m s t) (a0 : Nat) (hm : 0x30000000000 ||| m = m) : Within m s (closePartial a0 t) := by
  unfold closePartial
  repeat' (first | with_reducible assumption | ((with_reducible refine Mask.sub hm ?_); first | exact rfl | (simp only [pageBit_ser]; exact rfl)) | with_reducible apply setReg_within | with_reducible apply pushWord_within | with_reducible apply setQueue_within | with_reducible exact Within.refl | intro _ | split | dsimp only)

theorem pushTrailer_within {m : Nat} {s t : State} (h : Within m s t) (a0 : Nat) (a1 : Nat) (hm : 0x30000000000 ||| m = m) : Within m s (pushTrailer a0 a1 t) := by
  unfold pushTrailer
  repeat' (first | with_reducible assumption | ((with_reducible refine Mask.sub hm ?_); first | exact rfl | (simp only [pageBit_ser]; exact rfl)) | with_reducible apply setReg_within | with_reducible apply pushWord_within | with_reducible apply setQueue_within | with_reducible exact Within.refl | intro _ | split | dsimp only)

theorem recountRings_within {m : Nat} {s t : State} (h : Within m s t) (hm : 0x80000 ||| m = m) : Within m s (recountRings t) := by
  unfold recountRings
  repeat' (first | with_reducible assumption | ((with_reducible refine Mask.sub hm ?_); first | exact rfl | (simp only [pageBit_ser]; exact rfl)) | with_reducible apply setReg_within | with_reducible apply setB_within | with_reducible apply setF_within | with_reducible exact Within.refl | intro _ | split | dsimp only)

theorem openQueue_within {m : Nat} {s t : State} (h : Within m s t) (a0 : Nat) (a1 : Nat) (a2 : Wave) (a3 : Nat) (hm : 0x10000080000 ||| m = m) : Within m s (openQueue a0 a1 a2 a3 t) := by
  have b40 := Mask.has (i := 40) hm rfl
  unfold openQueue
  repeat' (first | with_reducible assumption | ((with_reducible refine Mask.sub hm ?_); first | exact rfl | (simp only [pageBit_ser]; exact rfl)) | with_reducible apply setReg_within | with_reducible apply setQueue_within | with_reducible apply recountRings_within | with_reducible exact Within.refl | ((with_reducible refine Within.upd ?_ (.inl rfl) (.inl rfl) (.inl rfl) (.inl rfl) (.inl rfl) (.inl rfl) (.inl rfl) (.inl rfl) (.inl rfl) (.inl rfl) (.inl rfl) (.inl rfl) (.inl rfl) (.inl rfl) (.inl rfl) (.inl rfl) (.inr b40) (.inl rfl) (.inl rfl) (.inl rfl) (.inl rfl) (.inl rfl) (.inl rfl) (.inl rfl) (.inl rfl) (.inl rfl) (.inl rfl) (.inl rfl) (.inl rfl) (.inl rfl)); first | with_reducible assumption | ((with_reducible refine Mask.sub hm ?_); first | exact rfl | (simp only [pageBit_ser]; exact rfl)) | with_reducible apply setReg_within | with_reducible apply setQueue_within | with_reducible apply recountRings_within | with_reducible exact Within.refl | split) | intro _ | split | dsimp only)

theorem closeQueue_within {m : Nat} {s t : State} (h : Within m s t) (a0 : Nat) (hm : 0x18001080000 ||| m = m) : Within m s (closeQueue a0 t) := by
  have b40 := Mask.has (i := 40) hm rfl
  unfold closeQueue
  repeat' (first | with_reducible assumption | ((with_reducible refine Mask.sub hm ?_); first | exact rfl | (simp only [pageBit_ser]; exact rfl)) | with_reducible apply setReg_within | with_reducible apply setQueue_within | with_reducible apply recountRings_within | with_reducible apply freeCtx_within | with_reducible exact Within.refl | ((with_reducible refine Within.upd ?_ (.inl rfl) (.inl rfl) (.inl rfl) (.inl rfl) (.inl rfl) (.inl rfl) (.inl rfl) (.inl rfl) (.inl rfl) (.inl rfl) (.inl rfl) (.inl rfl) (.inl rfl) (.inl rfl) (.inl rfl) (.inl rfl) (.inr b40) (.inl rfl) (.inl rfl) (.inl rfl) (.inl rfl) (.inl rfl) (.inl rfl) (.inl rfl) (.inl rfl) (.inl rfl) (.inl rfl) (.inl rfl) (.inl rfl) (.inl rfl)); first | with_reducible assumption | ((with_reducible refine Mask.sub hm ?_); first | exact rfl | (simp only [pageBit_ser]; exact rfl)) | with_reducible apply setReg_within | with_reducible apply setQueue_within | with_reducible apply recountRings_within | with_reducible apply freeCtx_within | with_reducible exact Within.refl | split) | intro _ | split | dsimp only)

theorem closeIfReleased_within {m : Nat} {s t : State} (h : Within m s t) (a0 : Nat) (hm : 0x18001080000 ||| m = m) : Within m s (closeIfReleased a0 t) := by
  unfold closeIfReleased
  repeat' (first | with_reducible assumption | ((with_reducible refine Mask.sub hm ?_); first | exact rfl | (simp only [pageBit_ser]; exact rfl)) | with_reducible apply setReg_within | with_reducible apply closeQueue_within | with_reducible exact Within.refl | intro _ | split | dsimp only)

theorem reportCompletion_within {m : Nat} {s t : State} (h : Within m s t) (a0 : Nat) (a1 : Burst) (a2 : Nat) (hm : 0x20000021800000 ||| m = m) : Within m s (reportCompletion a0 a1 a2 t) := by
  unfold reportCompletion
  repeat' (first | with_reducible assumption | ((with_reducible refine Mask.sub hm ?_); first | exact rfl | (simp only [pageBit_lpt, pageBit_eng, engPage, lptPage]; exact rfl)) | with_reducible apply setReg_within | with_reducible apply emit_within | with_reducible apply count_within | with_reducible apply raise_within | with_reducible exact Within.refl | intro _ | split | dsimp only)

theorem completeRx_within {m : Nat} {s t : State} (h : Within m s t) (a0 : Nat) (a1 : Nat) (hm : 0x20038021800000 ||| m = m) : Within m s (completeRx a0 a1 t) := by
  unfold completeRx
  repeat' (first | with_reducible assumption | ((with_reducible refine Mask.sub hm ?_); first | exact rfl | (simp only [pageBit_ser]; exact rfl)) | with_reducible apply setReg_within | with_reducible apply pushTrailer_within | with_reducible apply closePartial_within | with_reducible apply moveCtx_within | with_reducible apply reportCompletion_within | with_reducible exact Within.refl | intro _ | split | dsimp only)

theorem returnTx_within {m : Nat} {s t : State} (h : Within m s t) (a0 : Nat) (a1 : Nat) (hm : 0x1000000 ||| m = m) : Within m s (returnTx a0 a1 t) := by
  unfold returnTx
  repeat' (first | with_reducible assumption | ((with_reducible refine Mask.sub hm ?_); first | exact rfl | (simp only [pageBit_ser]; exact rfl)) | with_reducible apply setReg_within | with_reducible apply setRole_within | with_reducible exact Within.refl | intro _ | split | dsimp only)

theorem completeTx_within {m : Nat} {s t : State} (h : Within m s t) (a0 : Nat) (a1 : Nat) (hm : 0x20008021800000 ||| m = m) : Within m s (completeTx a0 a1 t) := by
  unfold completeTx
  repeat' (first | with_reducible assumption | ((with_reducible refine Mask.sub hm ?_); first | exact rfl | (simp only [pageBit_ser]; exact rfl)) | with_reducible apply setReg_within | with_reducible apply returnTx_within | with_reducible apply reportCompletion_within | with_reducible apply freeCtx_within | with_reducible exact Within.refl | intro _ | split | dsimp only)

theorem completeBurst_within {m : Nat} {s t : State} (h : Within m s t) (a0 : Nat) (a1 : Nat) (hm : 0x20038021800000 ||| m = m) : Within m s (completeBurst a0 a1 t) := by
  unfold completeBurst
  repeat' (first | with_reducible assumption | ((with_reducible refine Mask.sub hm ?_); first | exact rfl | (simp only [pageBit_ser]; exact rfl)) | with_reducible apply setReg_within | with_reducible apply completeRx_within | with_reducible apply completeTx_within | with_reducible exact Within.refl | intro _ | split | dsimp only)

theorem completeAll_within {m : Nat} {s t : State} (h : Within m s t) (a0 : Burst → Bool) (a1 : Nat) (hm : 0x20038021800000 ||| m = m) : Within m s (completeAll a0 a1 t) := by
  unfold completeAll
  repeat' (first | with_reducible assumption | ((with_reducible refine Mask.sub hm ?_); first | exact rfl | (simp only [pageBit_ser]; exact rfl)) | with_reducible apply setReg_within | with_reducible apply completeBurst_within | with_reducible apply Within.foldl | with_reducible exact Within.refl | intro _ | split | dsimp only)

end Sys2Proof.Machine
end

