-- ==== Sys2Proof/Laws/WithinPortOps.lean ====
section
/-! SUPPORT. Sys2Proof/Laws/WithinPortOps.lean: the parts of a state that the operations of Machine/PortOps.lean may change. -/
namespace Sys2Proof.Machine

theorem setPort_within {m : Nat} {s t : State} (h : Within m s t) (a0 : Nat) (a1 : PortSt) (hm : 0x200000000 ||| m = m) : Within m s (setPort a0 a1 t) := by
  have b33 := Mask.has (i := 33) hm rfl
  unfold setPort
  repeat' (first | with_reducible assumption | ((with_reducible refine Mask.sub hm ?_); first | exact rfl | (simp only [pageBit_ser]; exact rfl)) | with_reducible apply setReg_within | with_reducible exact Within.refl | ((with_reducible refine Within.upd ?_ (.inl rfl) (.inl rfl) (.inl rfl) (.inl rfl) (.inl rfl) (.inl rfl) (.inl rfl) (.inl rfl) (.inl rfl) (.inr b33) (.inl rfl) (.inl rfl) (.inl rfl) (.inl rfl) (.inl rfl) (.inl rfl) (.inl rfl) (.inl rfl) (.inl rfl) (.inl rfl) (.inl rfl) (.inl rfl) (.inl rfl) (.inl rfl) (.inl rfl) (.inl rfl) (.inl rfl) (.inl rfl) (.inl rfl) (.inl rfl)); first | with_reducible assumption | ((with_reducible refine Mask.sub hm ?_); first | exact rfl | (simp only [pageBit_ser]; exact rfl)) | with_reducible apply setReg_within | with_reducible exact Within.refl | split) | intro _ | split | dsimp only)

theorem refreshFreeze_within {m : Nat} {s t : State} (h : Within m s t) (a0 : Nat) (hm : 0x800000 ||| m = m) : Within m s (refreshFreeze a0 t) := by
  unfold refreshFreeze
  repeat' (first | with_reducible assumption | ((with_reducible refine Mask.sub hm ?_); first | exact rfl | (simp only [pageBit_lpt, lptPage]; exact rfl)) | with_reducible apply setReg_within | with_reducible apply setB_within | with_reducible exact Within.refl | intro _ | split | dsimp only)

theorem refreshGroup_within {m : Nat} {s t : State} (h : Within m s t) (a0 : Nat) (hm : 0x800000 ||| m = m) : Within m s (refreshGroup a0 t) := by
  unfold refreshGroup
  repeat' (first | with_reducible assumption | ((with_reducible refine Mask.sub hm ?_); first | exact rfl | (simp only [pageBit_ser]; exact rfl)) | with_reducible apply setReg_within | with_reducible apply refreshFreeze_within | with_reducible apply Within.foldl | with_reducible exact Within.refl | intro _ | split | dsimp only)

theorem cutOccs_within {m : Nat} {s t : State} (h : Within m s t) (a0 : Nat) (hm : 0x2000000000 ||| m = m) : Within m s (cutOccs a0 t) := by
  have b37 := Mask.has (i := 37) hm rfl
  unfold cutOccs
  repeat' (first | with_reducible assumption | ((with_reducible refine Mask.sub hm ?_); first | exact rfl | (simp only [pageBit_ser]; exact rfl)) | with_reducible apply setReg_within | with_reducible exact Within.refl | ((with_reducible refine Within.upd ?_ (.inl rfl) (.inl rfl) (.inl rfl) (.inl rfl) (.inl rfl) (.inl rfl) (.inl rfl) (.inl rfl) (.inl rfl) (.inl rfl) (.inl rfl) (.inl rfl) (.inl rfl) (.inr b37) (.inl rfl) (.inl rfl) (.inl rfl) (.inl rfl) (.inl rfl) (.inl rfl) (.inl rfl) (.inl rfl) (.inl rfl) (.inl rfl) (.inl rfl) (.inl rfl) (.inl rfl) (.inl rfl) (.inl rfl) (.inl rfl)); first | with_reducible assumption | ((with_reducible refine Mask.sub hm ?_); first | exact rfl | (simp only [pageBit_ser]; exact rfl)) | with_reducible apply setReg_within | with_reducible exact Within.refl | split) | intro _ | split | dsimp only)

theorem driverOff_within {m : Nat} {s t : State} (h : Within m s t) (a0 : Nat) (hm : 0x2000800000 ||| m = m) : Within m s (driverOff a0 t) := by
  unfold driverOff
  repeat' (first | with_reducible assumption | ((with_reducible refine Mask.sub hm ?_); first | exact rfl | (simp only [pageBit_lpt, lptPage]; exact rfl)) | with_reducible apply setReg_within | with_reducible apply cutOccs_within | with_reducible apply refreshGroup_within | with_reducible apply setB_within | with_reducible exact Within.refl | intro _ | split | dsimp only)

theorem driverEnable_within {m : Nat} {s t : State} (h : Within m s t) (a0 : Nat) (hm : 0x200800000 ||| m = m) : Within m s (driverEnable a0 t) := by
  unfold driverEnable
  repeat' (first | with_reducible assumption | ((with_reducible refine Mask.sub hm ?_); first | exact rfl | (simp only [pageBit_lpt, lptPage]; exact rfl)) | with_reducible apply setReg_within | with_reducible apply refreshGroup_within | with_reducible apply setB_within | with_reducible apply setPort_within | with_reducible exact Within.refl | intro _ | split | dsimp only)

theorem stopPort_within {m : Nat} {s t : State} (h : Within m s t) (a0 : Nat) (a1 : Nat) (hm : 0x2003a021800000 ||| m = m) : Within m s (stopPort a0 a1 t) := by
  unfold stopPort
  repeat' (first | with_reducible assumption | ((with_reducible refine Mask.sub hm ?_); first | exact rfl | (simp only [pageBit_ser]; exact rfl)) | with_reducible apply setReg_within | with_reducible apply completeAll_within | with_reducible apply driverOff_within | with_reducible exact Within.refl | intro _ | split | dsimp only)

theorem endTx_within {m : Nat} {s t : State} (h : Within m s t) (a0 : Burst → Bool) (a1 : Nat) (hm : 0x2003a021800000 ||| m = m) : Within m s (endTx a0 a1 t) := by
  unfold endTx
  repeat' (first | with_reducible assumption | ((with_reducible refine Mask.sub hm ?_); first | exact rfl | (simp only [pageBit_ser]; exact rfl)) | with_reducible apply setReg_within | with_reducible apply completeBurst_within | with_reducible apply driverOff_within | with_reducible apply Within.foldl | with_reducible exact Within.refl | intro _ | split | dsimp only)

theorem diagReport_within {m : Nat} {s t : State} (h : Within m s t) (a0 : Nat) (a1 : Page) (hm : 0x20000020000008 ||| m = m) : Within m s (diagReport a0 a1 t) := by
  unfold diagReport
  repeat' (first | with_reducible assumption | ((with_reducible refine Mask.sub hm ?_); first | exact rfl | (simp only [pageBit_ser]; exact rfl)) | with_reducible apply setReg_within | with_reducible apply raise_within | with_reducible apply count_within | with_reducible apply setF_within | with_reducible exact Within.refl | intro _ | split | dsimp only)

theorem allDriversOff_within {m : Nat} {s t : State} (h : Within m s t) (hm : 0x2003a021800000 ||| m = m) : Within m s (allDriversOff t) := by
  unfold allDriversOff
  repeat' (first | with_reducible assumption | ((with_reducible refine Mask.sub hm ?_); first | exact rfl | (simp only [pageBit_ser]; exact rfl)) | with_reducible apply setReg_within | with_reducible apply completeAll_within | with_reducible apply driverOff_within | with_reducible apply Within.foldl | with_reducible exact Within.refl | intro _ | split | dsimp only)

theorem kill_within {m : Nat} {s t : State} (h : Within m s t) (a0 : Nat) (a1 : Option Nat) (hm : 0x2003a021800008 ||| m = m) : Within m s (kill a0 a1 t) := by
  unfold kill
  repeat' (first | with_reducible assumption | ((with_reducible refine Mask.sub hm ?_); first | exact rfl | (simp only [pageBit_ser]; exact rfl)) | with_reducible apply setReg_within | with_reducible apply setF_within | with_reducible apply setB_within | with_reducible apply raise_within | with_reducible apply count_within | with_reducible apply allDriversOff_within | with_reducible exact Within.refl | intro _ | split | dsimp only)

theorem endCauses_within {m : Nat} {s t : State} (h : Within m s t) (a0 : Nat) (hm : 0x20000020000008 ||| m = m) : Within m s (endCauses a0 t) := by
  unfold endCauses
  repeat' (first | with_reducible assumption | ((with_reducible refine Mask.sub hm ?_); first | exact rfl | (simp only [pageBit_ser]; exact rfl)) | with_reducible apply setReg_within | with_reducible apply setF_within | with_reducible apply raise_within | with_reducible apply setB_within | with_reducible exact Within.refl | intro _ | split | dsimp only)

theorem endCause_within {m : Nat} {s t : State} (h : Within m s t) (a0 : Nat) (hm : 0x20000020000008 ||| m = m) : Within m s (endCause a0 t) := by
  unfold endCause
  repeat' (first | with_reducible assumption | ((with_reducible refine Mask.sub hm ?_); first | exact rfl | (simp only [pageBit_ser]; exact rfl)) | with_reducible apply setReg_within | with_reducible apply endCauses_within | with_reducible exact Within.refl | intro _ | split | dsimp only)

theorem refuseEnable_within {m : Nat} {s t : State} (h : Within m s t) (a0 : Nat) (a1 : Bool) (hm : 0x20000028800020 ||| m = m) : Within m s (refuseEnable a0 a1 t) := by
  unfold refuseEnable
  repeat' (first | with_reducible assumption | ((with_reducible refine Mask.sub hm ?_); first | exact rfl | (simp only [pageBit_lpt, lptPage]; exact rfl)) | with_reducible apply setReg_within | with_reducible apply raise_within | with_reducible apply logPage_within | with_reducible exact Within.refl | intro _ | split | dsimp only)

end Sys2Proof.Machine
end

