-- ==== Sys2Proof/Laws/Burst.lean ====
section
/-!
SUPPORT. Sys2Proof/Laws/Burst.lean: what the shared operations over burst contexts and drivers leave of a burst and of the pages of the line ports.
-/
namespace Sys2Proof.Machine

@[simp] theorem lptPage_val (n : Port) : lptPage n.val = .lpt n := by
  unfold lptPage
  congr 1
  exact Fin.ext (Nat.mod_eq_of_lt n.isLt)

/-! A port by its number. -/

theorem port_congr {s t : State} (h : t.ports = s.ports) (n : Nat) : port t n = port s n := by
  unfold port
  rw [h]

@[simp] theorem port_setPort_self (n : Nat) (x : PortSt) (s : State) : port (setPort n x s) n = x := Map.get_set_self _ _ _

theorem port_setPort_other {j n : Nat} (x : PortSt) (s : State) (h : j ≠ n) : port (setPort n x s) j = port s j := Map.get_set_other _ _ h

/-! A burst context by its ID. -/

theorem burst_congr {s t : State} (h : t.eng.bursts = s.eng.bursts) (id : Nat) : burst t id = burst s id := by
  unfold burst
  rw [h]

@[simp] theorem burst_setBurst_self (id : Nat) (b : Burst) (s : State) : burst (setBurst id b s) id = b := Map.get_set_self _ _ _

theorem burst_setBurst_other {j id : Nat} (b : Burst) (s : State) (h : j ≠ id) : burst (setBurst id b s) j = burst s j := Map.get_set_other _ _ h

theorem burst_moveCtx (id : Nat) (b : Burst) (s : State) (j : Nat) : burst (moveCtx id b s) j = if j = id then b else burst s j := by
  unfold moveCtx
  extract_lets old s1
  have h1 : s1.eng = (setBurst id b s).eng := (recount_within (m := 0x1000000) Within.refl old.st b.st rfl).same .eng rfl
  have h2 : ∀ c u, (refreshLoad c u).eng = u.eng := fun c u => (refreshLoad_within (m := 0x1000000) Within.refl c rfl).same .eng rfl
  have h3 : (refreshLoad b.cluster (if old.cluster = b.cluster then s1 else refreshLoad old.cluster s1)).eng = (setBurst id b s).eng := by
    rw [h2]
    split
    · exact h1
    · rw [h2]
      exact h1
  rw [burst_congr (congrArg EngSt.bursts h3)]
  exact Map.get_set _ _ _ _

@[simp] theorem burst_moveCtx_self (id : Nat) (b : Burst) (s : State) : burst (moveCtx id b s) id = b := by
  rw [burst_moveCtx, if_pos rfl]

theorem burst_freeCtx (id : Nat) (s : State) (j : Nat) :
    burst (freeCtx id s) j = if j = id then { Burst.idle with gen := (burst s id).gen } else burst s j := by
  unfold freeCtx
  have h : ∀ (u : State) (r : List Nat), burst { u with eng := { u.eng with released := r } } j = burst u j := fun _ _ => rfl
  dsimp only
  split
  · rw [h]
    exact burst_moveCtx _ _ _ _
  · exact burst_moveCtx _ _ _ _

theorem eng_reportCompletion (id : Nat) (b : Burst) (st : Nat) (s : State) : (reportCompletion id b st s).eng = s.eng :=
  (reportCompletion_within (m := 0x20000021800000) Within.refl id b st rfl).same .eng rfl

theorem eng_returnTx (c i : Nat) (s : State) : (returnTx c i s).eng = s.eng := (returnTx_within (m := 0x1000000) Within.refl c i rfl).same .eng rfl

theorem burst_completeTx (id st : Nat) (s : State) (j : Nat) :
    burst (completeTx id st s) j = if j = id then { Burst.idle with gen := (burst s id).gen } else burst s j := by
  unfold completeTx
  extract_lets b
  rw [burst_congr (congrArg EngSt.bursts (eng_returnTx _ _ _)), burst_congr (congrArg EngSt.bursts (eng_reportCompletion _ _ _ _))]
  exact burst_freeCtx _ _ _

theorem burst_completeRx (id st : Nat) (s : State) (j : Nat) :
    (burst (completeRx id st s) j).st = if j = id then .rxDone else (burst s j).st := by
  unfold completeRx
  extract_lets s1
  have h1 : s1.eng = s.eng := by
    unfold s1
    split
    · rfl
    · exact (pushTrailer_within (m := 0x30000000000) (closePartial_within Within.refl id rfl) id st rfl).same .eng rfl
  clear_value s1
  rw [burst_congr (congrArg EngSt.bursts (eng_reportCompletion _ _ _ _)), burst_moveCtx]
  split
  · rfl
  · rw [burst_congr (congrArg EngSt.bursts h1)]

/-- The state of a context after a completion: RX_DONE for a receive burst, FREE for a transmit burst (R275, R277). -/
theorem burst_completeBurst (id st : Nat) (s : State) (j : Nat) : (burst (completeBurst id st s) j).st =
    if j = id then (match (burst s id).st with | .rxOpen => .rxDone | .txSet => .free | .txLive => .free | x => x) else (burst s j).st := by
  unfold completeBurst
  extract_lets b w
  by_cases hj : j = id
  · subst hj
    rw [if_pos rfl]
    have hb : (burst s j).st = b.st := rfl
    rw [hb]
    cases h : b.st <;> dsimp only
    · exact h
    · rw [burst_completeRx, if_pos rfl]
    · exact h
    · rw [burst_completeTx, if_pos rfl]
      rfl
    · rw [burst_completeTx, if_pos rfl]
      rfl
  · rw [if_neg hj]
    cases h : b.st <;> dsimp only
    · rw [burst_completeRx, if_neg hj]
    · rw [burst_completeTx, if_neg hj]
    · rw [burst_completeTx, if_neg hj]

/-! Every burst that satisfies a test. -/

theorem mem_burstIds {s : State} {p : Burst → Bool} {id : Nat} : id ∈ burstIds s p ↔ ∃ e ∈ s.eng.bursts, p e.2 = true ∧ e.1 = id := by
  unfold burstIds
  rw [List.mem_map]
  constructor
  · rintro ⟨e, he, rfl⟩
    exact ⟨e, (List.mem_filter.1 he).1, (List.mem_filter.1 he).2, rfl⟩
  · rintro ⟨e, he, h, rfl⟩
    exact ⟨e, List.mem_filter.2 ⟨he, h⟩, rfl⟩

theorem Map.get_mem {α : Type} [DecidableEq α] {d : Nat → α} (m : List (Nat × α)) (k : Nat) : Map.get d m k = d k ∨ (k, Map.get d m k) ∈ m := by
  induction m with
  | nil => exact .inl rfl
  | cons e m ih =>
    unfold Map.get
    by_cases h : e.1 = k
    · rw [if_pos h]
      subst h
      exact .inr (.head _)
    · rw [if_neg h]
      exact ih.imp id (.tail _)

/-- A context in a test that an idle one fails is among the IDs of the test. -/
theorem burst_mem {s : State} {p : Burst → Bool} (hp : p Burst.idle = false) {id : Nat} (h : p (burst s id) = true) : id ∈ burstIds s p := by
  rcases Map.get_mem (d := fun _ => Burst.idle) s.eng.bursts id with e | e
  · unfold burst at h
    rw [e, hp] at h
    cases h
  · exact mem_burstIds.2 ⟨_, e, h, rfl⟩

/-- The states of the contexts after a list of completions: a listed transmit burst that was held is FREE, an unlisted one is as before. -/
theorem burst_completeList (st : Nat) : ∀ (l : List Nat) (s : State) (j : Nat),
    (burst (l.foldl (fun t id => completeBurst id st t) s) j).st =
      if j ∈ l then (match (burst s j).st with | .rxOpen => .rxDone | .txSet => .free | .txLive => .free | x => x) else (burst s j).st
  | [], _, _ => by simp
  | id :: l, s, j => by
    rw [List.foldl_cons, burst_completeList st l, burst_completeBurst]
    by_cases hj : j = id
    · subst hj
      rw [if_pos rfl, if_pos (show j ∈ j :: l from .head _)]
      generalize (burst s j).st = x
      by_cases hl : j ∈ l
      · rw [if_pos hl]
        cases x <;> rfl
      · rw [if_neg hl]
    · rw [if_neg hj]
      by_cases hl : j ∈ l
      · rw [if_pos hl, if_pos (List.mem_cons_of_mem _ hl)]
      · rw [if_neg hl, if_neg (fun h => (List.mem_cons.1 h).elim hj hl)]

theorem burst_completeAll (p : Burst → Bool) (st : Nat) (s : State) (j : Nat) : (burst (completeAll p st s) j).st =
    if j ∈ burstIds s p then (match (burst s j).st with | .rxOpen => .rxDone | .txSet => .free | .txLive => .free | x => x) else (burst s j).st :=
  burst_completeList st _ s j

/-- A completion leaves every other context as it was. -/
theorem burst_completeBurst_other (id st : Nat) (s : State) {j : Nat} (h : j ≠ id) : burst (completeBurst id st s) j = burst s j := by
  unfold completeBurst
  extract_lets b w
  cases b.st <;> dsimp only
  · unfold completeRx
    extract_lets s1
    have h1 : s1.eng = s.eng := by
      unfold s1
      split
      · rfl
      · exact (pushTrailer_within (m := 0x30000000000) (closePartial_within Within.refl id rfl) id w rfl).same .eng rfl
    clear_value s1
    rw [burst_congr (congrArg EngSt.bursts (eng_reportCompletion _ _ _ _)), burst_moveCtx, if_neg h, burst_congr (congrArg EngSt.bursts h1)]
  · rw [burst_completeTx, if_neg h]
  · rw [burst_completeTx, if_neg h]

theorem burst_completeList_other (st : Nat) {j : Nat} : ∀ (l : List Nat) (s : State), j ∉ l →
    burst (l.foldl (fun t id => completeBurst id st t) s) j = burst s j
  | [], _, _ => rfl
  | id :: l, s, h => by
    rw [List.foldl_cons, burst_completeList_other st l _ (fun g => h (.tail _ g)), burst_completeBurst_other]
    rintro rfl
    exact h (.head _)

/-- After the completion of every burst of a test that holds of open bursts only, no context satisfies the test. -/
theorem completeAll_none {p : Burst → Bool} (hp : ∀ b, p b = true → b.st.isOpen = true) (st : Nat) (s : State) (j : Nat) :
    p (burst (completeAll p st s) j) = false := by
  have hi : p Burst.idle = false := by
    cases h : p Burst.idle with
    | false => rfl
    | true => exact absurd (hp _ h) (by decide)
  by_cases h : j ∈ burstIds s p
  · cases e : p (burst (completeAll p st s) j) with
    | false => rfl
    | true =>
      have := hp _ e
      rw [burst_completeAll, if_pos h] at this
      revert this
      cases (burst s j).st <;> decide
  · unfold completeAll
    rw [burst_completeList_other _ _ _ h]
    cases e : p (burst s j) with
    | false => rfl
    | true => exact absurd (burst_mem hi e) h

/-! Registers of a line port outside its header and its clamp counter. -/

theorem reg_reportCompletion (id : Nat) (b : Burst) (st : Nat) (s : State) {n : Port} {o : Nat} (ho : o < 0x1000) (h1 : o ≠ offIntStat) (h2 : o ≠ 0x118) :
    reg (reportCompletion id b st s) (addr (.lpt n) o) = reg s (addr (.lpt n) o) := by
  unfold reportCompletion
  extract_lets s1 s2
  have hf : (if b.tx then ENG_BURST_TX_CNT.COUNT else ENG_BURST_RX_CNT.COUNT).off < 0x1000 := by split <;> decide
  have e1 : reg s2 (addr (.lpt n) o) = reg s (addr (.lpt n) o) :=
    reg_setF_other s1 (p := engPage b.cluster) (q := .lpt n) (min (getF s1 (engPage b.cluster) (if b.tx then ENG_BURST_TX_CNT.COUNT else ENG_BURST_RX_CNT.COUNT) + 1) _)
      hf ho (.inl (fun h => Page.noConfusion h))
  clear_value s2
  split
  · rw [reg_raise_other _ _ _ ho (.inr h1)]
    unfold count countN
    rw [reg_setF_other _ _ (by decide) ho (.inr h2)]
    exact e1
  · exact e1

theorem reg_completeBurst (id st : Nat) (s : State) {n : Port} {o : Nat} (ho : o < 0x1000) (h1 : o ≠ offIntStat) (h2 : o ≠ 0x118) :
    reg (completeBurst id st s) (addr (.lpt n) o) = reg s (addr (.lpt n) o) := by
  have hw : ∀ {m : Nat} {u v : State}, m.testBit 23 = false → Within m u v → reg v (addr (.lpt n) o) = reg u (addr (.lpt n) o) :=
    fun hm h => h.reg_addr (.lpt n) o hm
  unfold completeBurst
  extract_lets b w
  split
  · unfold completeRx
    dsimp only
    rw [reg_reportCompletion _ _ _ _ ho h1 h2, hw (m := 0x8001000000) rfl (moveCtx_within Within.refl _ _ rfl)]
    split
    · rfl
    · exact hw (m := 0x30000000000) rfl (pushTrailer_within (closePartial_within Within.refl id rfl) id w rfl)
  · unfold completeTx
    extract_lets c
    rw [hw (m := 0x1000000) rfl (returnTx_within Within.refl _ _ rfl), reg_reportCompletion _ _ _ _ ho h1 h2,
      hw (m := 0x8001000000) rfl (freeCtx_within Within.refl _ rfl)]
  · unfold completeTx
    extract_lets c
    rw [hw (m := 0x1000000) rfl (returnTx_within Within.refl _ _ rfl), reg_reportCompletion _ _ _ _ ho h1 h2,
      hw (m := 0x8001000000) rfl (freeCtx_within Within.refl _ rfl)]
  · rfl

theorem reg_completeAll (p : Burst → Bool) (st : Nat) (s : State) {n : Port} {o : Nat} (ho : o < 0x1000) (h1 : o ≠ offIntStat) (h2 : o ≠ 0x118) :
    reg (completeAll p st s) (addr (.lpt n) o) = reg s (addr (.lpt n) o) := by
  unfold completeAll
  generalize burstIds s p = l
  induction l generalizing s with
  | nil => rfl
  | cons id l ih => rw [List.foldl_cons, ih, reg_completeBurst _ _ _ ho h1 h2]

/-! Drivers. -/

theorem lptPage_eq (n : Nat) : ∃ k : Port, lptPage n = .lpt k := ⟨_, rfl⟩

theorem driverOn_congr {s t : State} {n : Nat} (h : reg t (addr (lptPage n) offStatus) = reg s (addr (lptPage n) offStatus)) : driverOn t n = driverOn s n := by
  have e : LPT_STATUS.DRV_EN.offAt 0 = offStatus := rfl
  unfold driverOn isSet getF getI
  rw [e, h]

theorem driverOn_completeAll (p : Burst → Bool) (st : Nat) (s : State) (n : Nat) : driverOn (completeAll p st s) n = driverOn s n :=
  driverOn_congr (reg_completeAll p st s (by decide) (by decide) (by decide))

theorem driverOn_setB (n k : Nat) (f : Field) (b : Bool) (s : State) (hf : f.sound = true)
    (h : f.off ≠ LPT_STATUS.DRV_EN.off ∨ LPT_STATUS.DRV_EN.hi < f.lo ∨ f.hi < LPT_STATUS.DRV_EN.lo) : driverOn (setB (lptPage k) f b s) n = driverOn s n := by
  unfold driverOn isSet
  rw [getF_setB_other _ _ hf (by decide) (.inr h)]

theorem driverOn_refreshGroup (g : Nat) (s : State) (n : Nat) : driverOn (refreshGroup g s) n = driverOn s n := by
  unfold refreshGroup
  generalize groupPorts g = l
  induction l generalizing s with
  | nil => rfl
  | cons k l ih =>
    rw [List.foldl_cons, ih]
    exact driverOn_setB _ _ _ _ _ (by decide) (.inr (by decide))

/-- Switching a driver off leaves the others as they were. -/
theorem driverOn_driverOff (n k : Nat) (s : State) (hn : n < 52) (hk : k < 52) : driverOn (driverOff n s) k = (driverOn s k && decide (k ≠ n)) := by
  unfold driverOff
  have hc : ∀ u, driverOn (cutOccs n u) k = driverOn u k := fun u => rfl
  rw [hc, driverOn_refreshGroup, driverOn_setB _ _ _ _ _ (by decide) (.inr (by decide))]
  by_cases h : k = n
  · subst h
    rw [decide_eq_false (by simp), Bool.and_false]
    exact isSet_setB_self _ _ _ _ (by decide)
  · rw [decide_eq_true (by simpa using h), Bool.and_true]
    unfold driverOn isSet
    rw [getF_setB_other _ _ (by decide) (by decide) (.inl ?_)]
    intro e
    have e2 : (Fin.ofNat 52 n : Port) = Fin.ofNat 52 k := by injection e
    have e3 : n % 52 = k % 52 := congrArg Fin.val e2
    omega

theorem driverOn_stopPort (n st k : Nat) (s : State) (hn : n < 52) (hk : k < 52) : driverOn (stopPort n st s) k = (driverOn s k && decide (k ≠ n)) := by
  unfold stopPort
  rw [driverOn_completeAll, driverOn_driverOff _ _ _ hn hk]

end Sys2Proof.Machine
end

