-- ==== Sys2Proof/Laws/Keeps.lean ====
section
/-!
SUPPORT. Sys2Proof/Laws/Keeps.lean: how `Keeps` is built: it is reflexive and transitive, goes through choices and folds, and holds for a change of fields that it does
not speak of.
-/
namespace Sys2Proof.Machine

@[simp] theorem Keeps.refl {s : State} : Keeps s s := ⟨.refl _, List.suffix_refl _, Nat.le_refl _, id⟩

theorem Keeps.trans {s t u : State} (h : Keeps s t) (k : Keeps t u) : Keeps s u :=
  ⟨k.pending.trans h.pending, h.emits.trans k.emits, Nat.le_trans h.draws k.draws, fun w => k.wf (h.wf w)⟩

/-- The tables of a state beside its registers. -/
abbrev State.tables (s : State) :=
  (s.cmds, s.rings, s.msixTable, s.ports, s.ncal.cals, s.eng.bursts, s.eng.clusters, s.bq.queues, s.mem.bytes, s.mem.banks, s.mem.conflicts, s.sto.blocks, s.log.region, s.mac.table, s.mac.parked, s.mac.relays, s.mac.cache, s.cip.rings, s.cip.seqs, s.cip.groups, s.link.lanes, s.sen, s.ser)

theorem State.wf_of_tables {t u : State} (h : u.regs = t.regs) (e : u.tables = t.tables) : u.wf = t.wf := by
  simp only [State.tables, Prod.mk.injEq] at e
  simp only [State.wf, State.hostWf, State.lineWf, State.memWf, State.serviceWf, h, e]

/-- A change of fields that `Keeps` does not speak of. -/
theorem Keeps.raw {s t u : State} (h : Keeps s t) (e1 : u.pending = t.pending) (e2 : u.emits = t.emits) (e3 : u.draws = t.draws) (e4 : u.wf = t.wf) :
    Keeps s u :=
  h.trans ⟨e1, e2 ▸ List.suffix_refl _, e3 ▸ Nat.le_refl _, fun w => e4 ▸ w⟩

/-- A change of one table by an operation that keeps its canonical form. -/
theorem Keeps.table {s t u : State} (h : Keeps s t) (e1 : u.pending = t.pending) (e2 : u.emits = t.emits) (e3 : u.draws = t.draws)
    (e4 : t.wf = true → u.wf = true) : Keeps s u :=
  h.trans ⟨e1, e2 ▸ List.suffix_refl _, e3 ▸ Nat.le_refl _, e4⟩

theorem Keeps.foldl {α : Type} {s t : State} {f : State → α → State} {l : List α} (hf : ∀ u x, Keeps s u → Keeps s (f u x)) (h : Keeps s t) :
    Keeps s (l.foldl f t) := by
  induction l generalizing t with
  | nil => exact h
  | cons x l ih => exact ih (hf t x h)

/-- A change of fields other than the registers that leaves every table as it is. -/
theorem Keeps.upd {s t : State} {x1 : List (Nat × CmdSlot)} {x2 : LogSt} {x3 : List (Nat × RingSt)} {x4 : Nat} {x5 : Nat} {x6 : List (Nat × Word)} {x7 : TimeSt} {x8 : PwrSt} {x9 : BootSt} {x10 : List (Nat × PortSt)} {x11 : NbwSt} {x12 : BbwSt} {x13 : NcalSt} {x14 : BcnSt} {x15 : PlanSt} {x16 : EngSt} {x17 : BqSt} {x18 : MemSt} {x19 : TruSt} {x20 : MacSt} {x21 : CipSt} {x22 : LinkSt} {x23 : StoSt} {x24 : PairSt} {x25 : List (Nat × ChanSt)} {x26 : MgtSt} {x27 : List (Nat × SerSt)} {x29 : Nat}
    (h : Keeps s t) (e : (State.mk t.regs x1 x2 x3 x4 x5 x6 x7 x8 x9 x10 x11 x12 x13 x14 x15 x16 x17 x18 x19 x20 x21 x22 x23 x24 x25 x26 x27 t.draws x29 t.emits t.pending).tables = t.tables) :
    Keeps s (State.mk t.regs x1 x2 x3 x4 x5 x6 x7 x8 x9 x10 x11 x12 x13 x14 x15 x16 x17 x18 x19 x20 x21 x22 x23 x24 x25 x26 x27 t.draws x29 t.emits t.pending) :=
  h.raw rfl rfl rfl (State.wf_of_tables rfl e)

/-- A change of fields other than the registers that keeps every table in canonical form. -/
theorem Keeps.updTable {s t : State} {x1 : List (Nat × CmdSlot)} {x2 : LogSt} {x3 : List (Nat × RingSt)} {x4 : Nat} {x5 : Nat} {x6 : List (Nat × Word)} {x7 : TimeSt} {x8 : PwrSt} {x9 : BootSt} {x10 : List (Nat × PortSt)} {x11 : NbwSt} {x12 : BbwSt} {x13 : NcalSt} {x14 : BcnSt} {x15 : PlanSt} {x16 : EngSt} {x17 : BqSt} {x18 : MemSt} {x19 : TruSt} {x20 : MacSt} {x21 : CipSt} {x22 : LinkSt} {x23 : StoSt} {x24 : PairSt} {x25 : List (Nat × ChanSt)} {x26 : MgtSt} {x27 : List (Nat × SerSt)} {x29 : Nat}
    (h : Keeps s t) (e : t.wf = true → (State.mk t.regs x1 x2 x3 x4 x5 x6 x7 x8 x9 x10 x11 x12 x13 x14 x15 x16 x17 x18 x19 x20 x21 x22 x23 x24 x25 x26 x27 t.draws x29 t.emits t.pending).wf = true) :
    Keeps s (State.mk t.regs x1 x2 x3 x4 x5 x6 x7 x8 x9 x10 x11 x12 x13 x14 x15 x16 x17 x18 x19 x20 x21 x22 x23 x24 x25 x26 x27 t.draws x29 t.emits t.pending) :=
  h.table rfl rfl rfl e

end Sys2Proof.Machine
end

