-- ==== Sys2Proof/Laws/KeepsOps.lean ====
section
/-! SUPPORT. Sys2Proof/Laws/KeepsOps.lean: what the operations of Machine/Ops.lean keep of a state. -/
namespace Sys2Proof.Machine

theorem setReg_keeps {s t : State} (h : Keeps s t) (a : Nat) (w : Word) : Keeps s (setReg a w t) := by
  refine h.trans ⟨rfl, List.suffix_refl _, Nat.le_refl _, fun k => ?_⟩
  simp only [Bool.and_eq_true] at k ⊢
  exact ⟨⟨⟨⟨⟨⟨Map.wf_set _ _ _ k.1.1.1.1.1.1, k.1.1.1.1.1.2⟩, k.1.1.1.1.2⟩, k.1.1.1.2⟩, k.1.1.2⟩, k.1.2⟩, k.2⟩

theorem setI_keeps {s t : State} (h : Keeps s t) (a0 : Page) (a1 : Field) (a2 : Nat) (a3 : Nat) : Keeps s (setI a0 a1 a2 a3 t) := by
  unfold setI
  repeat' (first | with_reducible assumption | with_reducible apply setReg_keeps | with_reducible exact Keeps.refl | intro _ | split | dsimp only)

theorem setF_keeps {s t : State} (h : Keeps s t) (a0 : Page) (a1 : Field) (a2 : Nat) : Keeps s (setF a0 a1 a2 t) := by
  unfold setF
  repeat' (first | with_reducible assumption | with_reducible apply setI_keeps | with_reducible exact Keeps.refl | intro _ | split | dsimp only)

theorem setB_keeps {s t : State} (h : Keeps s t) (a0 : Page) (a1 : Field) (a2 : Bool) : Keeps s (setB a0 a1 a2 t) := by
  unfold setB
  repeat' (first | with_reducible assumption | with_reducible apply setF_keeps | with_reducible exact Keeps.refl | intro _ | split | dsimp only)

theorem countN_keeps {s t : State} (h : Keeps s t) (a0 : Page) (a1 : Field) (a2 : Nat) : Keeps s (countN a0 a1 a2 t) := by
  unfold countN
  repeat' (first | with_reducible assumption | with_reducible apply setF_keeps | with_reducible exact Keeps.refl | intro _ | split | dsimp only)

theorem count_keeps {s t : State} (h : Keeps s t) (a0 : Page) (a1 : Field) : Keeps s (count a0 a1 t) := by
  unfold count
  repeat' (first | with_reducible assumption | with_reducible apply countN_keeps | with_reducible exact Keeps.refl | intro _ | split | dsimp only)

theorem resetOffsets_keeps {s t : State} (h : Keeps s t) (a0 : Page) (a1 : List Nat) : Keeps s (resetOffsets a0 a1 t) := by
  unfold resetOffsets
  repeat' (first | with_reducible assumption | with_reducible apply setReg_keeps | with_reducible apply Keeps.foldl | with_reducible exact Keeps.refl | intro _ | split | dsimp only)

theorem emit_keeps {s t : State} (h : Keeps s t) (e : Emit) : Keeps s (emit e t) :=
  h.trans ⟨rfl, List.suffix_cons _ _, Nat.le_refl _, id⟩

theorem sendVector_keeps {s t : State} (h : Keeps s t) (a0 : Nat) : Keeps s (sendVector a0 t) := by
  unfold sendVector
  repeat' (first | with_reducible assumption | with_reducible apply emit_keeps | with_reducible exact Keeps.refl | (with_reducible refine Keeps.upd ?_ (by with_reducible rfl); first | with_reducible assumption | with_reducible apply emit_keeps | with_reducible exact Keeps.refl | split) | intro _ | split | dsimp only)

theorem afterInt_keeps {s t : State} (h : Keeps s t) (a0 : Page) (a1 : Bool) (a2 : Bool) : Keeps s (afterInt a0 a1 a2 t) := by
  unfold afterInt
  repeat' (first | with_reducible assumption | with_reducible apply sendVector_keeps | with_reducible exact Keeps.refl | intro _ | split | dsimp only)

theorem raiseMask_keeps {s t : State} (h : Keeps s t) (a0 : Page) (a1 : Word) : Keeps s (raiseMask a0 a1 t) := by
  unfold raiseMask
  repeat' (first | with_reducible assumption | with_reducible apply afterInt_keeps | with_reducible apply setReg_keeps | with_reducible exact Keeps.refl | intro _ | split | dsimp only)

theorem raise_keeps {s t : State} (h : Keeps s t) (a0 : Page) (a1 : Nat) : Keeps s (raise a0 a1 t) := by
  unfold raise
  repeat' (first | with_reducible assumption | with_reducible apply raiseMask_keeps | with_reducible exact Keeps.refl | intro _ | split | dsimp only)

theorem countErr_keeps {s t : State} (h : Keeps s t) (a0 : Page) : Keeps s (countErr a0 t) := by
  unfold countErr
  repeat' (first | with_reducible assumption | with_reducible apply raise_keeps | with_reducible apply setReg_keeps | with_reducible exact Keeps.refl | intro _ | split | dsimp only)

theorem pushRec_keeps {s t : State} (h : Keeps s t) (a0 : Nat) (a1 : Nat) (a2 : List Nat) : Keeps s (pushRec a0 a1 a2 t) := by
  unfold pushRec
  repeat' (first | with_reducible assumption | with_reducible apply setF_keeps | with_reducible exact Keeps.refl | (with_reducible refine Keeps.upd ?_ (by with_reducible rfl); first | with_reducible assumption | with_reducible apply setF_keeps | with_reducible exact Keeps.refl | split) | intro _ | split | dsimp only)

theorem logEvent_keeps {s t : State} (h : Keeps s t) (a0 : Nat) (a1 : Nat) (a2 : List Nat) : Keeps s (logEvent a0 a1 a2 t) := by
  unfold logEvent
  repeat' (first | with_reducible assumption | with_reducible apply pushRec_keeps | with_reducible apply raise_keeps | with_reducible apply count_keeps | with_reducible exact Keeps.refl | (with_reducible refine Keeps.upd ?_ (by with_reducible rfl); first | with_reducible assumption | with_reducible apply pushRec_keeps | with_reducible apply raise_keeps | with_reducible apply count_keeps | with_reducible exact Keeps.refl | split | (with_reducible refine Keeps.upd ?_ (by with_reducible rfl); first | with_reducible assumption | with_reducible apply pushRec_keeps | with_reducible apply raise_keeps | with_reducible apply count_keeps | with_reducible exact Keeps.refl | split)) | intro _ | split | dsimp only)

theorem logPage_keeps {s t : State} (h : Keeps s t) (a0 : Page) (a1 : Nat) (a2 : List Nat) : Keeps s (logPage a0 a1 a2 t) := by
  unfold logPage
  repeat' (first | with_reducible assumption | with_reducible apply logEvent_keeps | with_reducible exact Keeps.refl | intro _ | split | dsimp only)

theorem setRing_keeps {s t : State} (h : Keeps s t) (a0 : Nat) (a1 : RingSt) : Keeps s (setRing a0 a1 t) := by
  unfold setRing
  repeat' (first | with_reducible assumption | with_reducible exact Keeps.refl | (with_reducible refine Keeps.upd ?_ (by with_reducible rfl); first | with_reducible assumption | with_reducible exact Keeps.refl | split) | intro _ | split | dsimp only | (with_reducible refine Keeps.updTable ?_ (fun w => by simp only [State.wf, State.hostWf, State.lineWf, State.memWf, State.serviceWf, Bool.and_eq_true] at w ⊢; simp_all only [Map.wf_set, Map.wf_filter, Map.wf_mapVals, Map.wf_nil, and_self]); first | with_reducible assumption | with_reducible exact Keeps.refl | split))

theorem ringMessage_keeps {s t : State} (h : Keeps s t) (a0 : Nat) : Keeps s (ringMessage a0 t) := by
  unfold ringMessage
  repeat' (first | with_reducible assumption | with_reducible apply sendVector_keeps | with_reducible apply setRing_keeps | with_reducible exact Keeps.refl | intro _ | split | dsimp only)

theorem writeCq_keeps {s t : State} (h : Keeps s t) (a0 : Nat) (a1 : CqEntry) : Keeps s (writeCq a0 a1 t) := by
  unfold writeCq
  repeat' (first | with_reducible assumption | with_reducible apply setI_keeps | with_reducible apply emit_keeps | with_reducible apply setRing_keeps | with_reducible apply ringMessage_keeps | with_reducible exact Keeps.refl | intro _ | split | dsimp only)

theorem ringComplete_keeps {s t : State} (h : Keeps s t) (a0 : Nat) (a1 : CqEntry) : Keeps s (ringComplete a0 a1 t) := by
  unfold ringComplete
  repeat' (first | with_reducible assumption | with_reducible apply writeCq_keeps | with_reducible apply setRing_keeps | with_reducible exact Keeps.refl | intro _ | split | dsimp only)

theorem drainRing_keeps {s t : State} (h : Keeps s t) (r n : Nat) : Keeps s (drainRing r n t) := by
  induction n generalizing t with
  | zero => exact h
  | succ n ih =>
    unfold drainRing
    split
    · exact h
    · split
      · exact ih (writeCq_keeps (setRing_keeps h _ _) _ _)
      · exact h

theorem flushRing_keeps {s t : State} (h : Keeps s t) (a0 : Nat) : Keeps s (flushRing a0 t) := by
  unfold flushRing
  repeat' (first | with_reducible assumption | with_reducible apply drainRing_keeps | with_reducible exact Keeps.refl | intro _ | split | dsimp only)

theorem setSlot_keeps {s t : State} (h : Keeps s t) (a0 : Page) (a1 : CmdSlot) : Keeps s (setSlot a0 a1 t) := by
  unfold setSlot
  repeat' (first | with_reducible assumption | with_reducible exact Keeps.refl | (with_reducible refine Keeps.upd ?_ (by with_reducible rfl); first | with_reducible assumption | with_reducible exact Keeps.refl | split) | intro _ | split | dsimp only | (with_reducible refine Keeps.updTable ?_ (fun w => by simp only [State.wf, State.hostWf, State.lineWf, State.memWf, State.serviceWf, Bool.and_eq_true] at w ⊢; simp_all only [Map.wf_set, Map.wf_filter, Map.wf_mapVals, Map.wf_nil, and_self]); first | with_reducible assumption | with_reducible exact Keeps.refl | split))

theorem setOutstanding_keeps {s t : State} (h : Keeps s t) (a0 : Page) (a1 : Outstanding) : Keeps s (setOutstanding a0 a1 t) := by
  unfold setOutstanding
  repeat' (first | with_reducible assumption | with_reducible apply setSlot_keeps | with_reducible exact Keeps.refl | intro _ | split | dsimp only)

theorem setStat_keeps {s t : State} (h : Keeps s t) (a0 : Page) (a1 : Nat) (a2 : Nat) (a3 : Nat) : Keeps s (setStat a0 a1 a2 a3 t) := by
  unfold setStat
  repeat' (first | with_reducible assumption | with_reducible apply setReg_keeps | with_reducible exact Keeps.refl | intro _ | split | dsimp only)

theorem setBusy_keeps {s t : State} (h : Keeps s t) (a0 : Page) (a1 : Nat) : Keeps s (setBusy a0 a1 t) := by
  unfold setBusy
  repeat' (first | with_reducible assumption | with_reducible apply setStat_keeps | with_reducible apply setReg_keeps | with_reducible exact Keeps.refl | intro _ | split | dsimp only)

theorem setReady_keeps {s t : State} (h : Keeps s t) (a0 : Page) (a1 : Nat) : Keeps s (setReady a0 a1 t) := by
  unfold setReady
  repeat' (first | with_reducible assumption | with_reducible apply setReg_keeps | with_reducible exact Keeps.refl | intro _ | split | dsimp only)

theorem setFault_keeps {s t : State} (h : Keeps s t) (a0 : Page) (a1 : Nat) : Keeps s (setFault a0 a1 t) := by
  unfold setFault
  repeat' (first | with_reducible assumption | with_reducible apply setReg_keeps | with_reducible exact Keeps.refl | intro _ | split | dsimp only)

theorem originComplete_keeps {s t : State} (h : Keeps s t) (a0 : Page) (a1 : Outstanding) (a2 : Nat) (a3 : Nat) (a4 : Bool) : Keeps s (originComplete a0 a1 a2 a3 a4 t) := by
  unfold originComplete
  repeat' (first | with_reducible assumption | with_reducible apply count_keeps | with_reducible apply ringComplete_keeps | with_reducible exact Keeps.refl | intro _ | split | dsimp only)

theorem complete_keeps {s t : State} (h : Keeps s t) (a0 : Page) (a1 : Nat) (a2 : Nat) : Keeps s (complete a0 a1 a2 t) := by
  unfold complete
  repeat' (first | with_reducible assumption | with_reducible apply setBusy_keeps | with_reducible apply setSlot_keeps | with_reducible apply setStat_keeps | with_reducible apply originComplete_keeps | with_reducible apply raise_keeps | with_reducible exact Keeps.refl | intro _ | split | dsimp only)

theorem dropCmd_keeps {s t : State} (h : Keeps s t) (a0 : Page) : Keeps s (dropCmd a0 t) := by
  unfold dropCmd
  repeat' (first | with_reducible assumption | with_reducible apply countErr_keeps | with_reducible apply setStat_keeps | with_reducible exact Keeps.refl | intro _ | split | dsimp only)

theorem takeEntry_keeps {s t : State} (h : Keeps s t) (a0 : Nat) : Keeps s (takeEntry a0 t) := by
  unfold takeEntry
  repeat' (first | with_reducible assumption | with_reducible apply setI_keeps | with_reducible exact Keeps.refl | intro _ | split | dsimp only)

theorem issueNow_keeps {s t : State} (h : Keeps s t) (a0 : Page) (a1 : Nat) (a2 : CmdSrc) (a3 : Outstanding → State → State) (h3 : ∀ x0 x1, Keeps s x1 → Keeps s (a3 x0 x1)) : Keeps s (issueNow a0 a1 a2 a3 t) := by
  unfold issueNow
  repeat' (first | with_reducible assumption | with_reducible apply setBusy_keeps | with_reducible apply setStat_keeps | with_reducible apply setOutstanding_keeps | with_reducible apply complete_keeps | apply h3 | with_reducible exact Keeps.refl | intro _ | split | dsimp only)

theorem issue_keeps {s t : State} (h : Keeps s t) (a0 : Page) (a1 : Nat) (a2 : CmdSrc) (a3 : Outstanding → State → State) (h3 : ∀ x0 x1, Keeps s x1 → Keeps s (a3 x0 x1)) : Keeps s (issue a0 a1 a2 a3 t) := by
  unfold issue
  repeat' (first | with_reducible assumption | with_reducible apply dropCmd_keeps | with_reducible apply issueNow_keeps | with_reducible apply takeEntry_keeps | apply h3 | with_reducible exact Keeps.refl | intro _ | split | dsimp only)

theorem done_keeps {s t : State} (h : Keeps s t) (a0 : Page) (a1 : Nat) : Keeps s (done a0 a1 t) := by
  unfold done
  repeat' (first | with_reducible assumption | with_reducible apply complete_keeps | with_reducible exact Keeps.refl | intro _ | split | dsimp only)

theorem setPhase_keeps {s t : State} (h : Keeps s t) (a0 : Page) (a1 : Nat) : Keeps s (setPhase a0 a1 t) := by
  unfold setPhase
  repeat' (first | with_reducible assumption | with_reducible apply setOutstanding_keeps | with_reducible exact Keeps.refl | intro _ | split | dsimp only)

theorem blkReset_keeps {s t : State} (h : Keeps s t) (a0 : Page) (a1 : List Nat) : Keeps s (blkReset a0 a1 t) := by
  unfold blkReset
  repeat' (first | with_reducible assumption | with_reducible apply complete_keeps | with_reducible apply resetOffsets_keeps | with_reducible exact Keeps.refl | intro _ | split | dsimp only)

theorem reseed_keeps {s t : State} (h : Keeps s t)  : Keeps s (reseed t) := by
  unfold reseed
  repeat' (first | with_reducible assumption | with_reducible apply setB_keeps | with_reducible apply setF_keeps | with_reducible apply setFault_keeps | with_reducible exact Keeps.refl | intro _ | split | dsimp only)

theorem draw_keeps {s t : State} (h : Keeps s t) : Keeps s (draw t).2 := by
  have k : Keeps s { t with draws := t.draws + 1 } := h.trans ⟨rfl, List.suffix_refl _, Nat.le_succ _, id⟩
  unfold draw
  dsimp only
  split
  · exact reseed_keeps k
  · exact k

theorem draw_keeps_eq {s t u : State} {y : BitVec 256} (h : Keeps s t) (e : draw t = (y, u)) : Keeps s u := by
  have k := draw_keeps h
  rw [e] at k
  exact k

theorem returnWord_keeps {s t : State} (h : Keeps s t) (a0 : Word) : Keeps s (returnWord a0 t) := by
  unfold returnWord
  repeat' (first | with_reducible assumption | with_reducible apply emit_keeps | with_reducible exact Keeps.refl | intro _ | split | dsimp only)

end Sys2Proof.Machine
end

