-- ==== Sys2Proof/Laws/KeepsRegOps.lean ====
section
/-! SUPPORT. Sys2Proof/Laws/KeepsRegOps.lean: what the operations of Machine/RegOps.lean keep of a state. -/
namespace Sys2Proof.Machine

theorem writeField_keeps {s t : State} (h : Keeps s t) (a0 : Page) (a1 : Nat) (a2 : Word) (a3 : Field) : Keeps s (writeField a0 a1 a2 a3 t) := by
  unfold writeField
  repeat' (first | with_reducible assumption | with_reducible apply setReg_keeps | with_reducible apply countErr_keeps | with_reducible exact Keeps.refl | intro _ | split | dsimp only)

theorem writeRw_keeps {s t : State} (h : Keeps s t) (a0 : Page) (a1 : Nat) (a2 : Word) : Keeps s (writeRw a0 a1 a2 t) := by
  unfold writeRw
  repeat' (first | with_reducible assumption | with_reducible apply writeField_keeps | with_reducible apply Keeps.foldl | with_reducible exact Keeps.refl | intro _ | split | dsimp only)

theorem refuseProtected_keeps {s t : State} (h : Keeps s t) (a0 : Page) (a1 : Nat) : Keeps s (refuseProtected a0 a1 t) := by
  unfold refuseProtected
  repeat' (first | with_reducible assumption | with_reducible apply logPage_keeps | with_reducible apply countErr_keeps | with_reducible apply raise_keeps | with_reducible exact Keeps.refl | intro _ | split | dsimp only)

theorem writeFields_keeps {s t : State} (h : Keeps s t) (a0 : Page) (a1 : Nat) (a2 : Word) : Keeps s (writeFields a0 a1 a2 t) := by
  unfold writeFields
  repeat' (first | with_reducible assumption | with_reducible apply writeRw_keeps | with_reducible apply refuseProtected_keeps | with_reducible exact Keeps.refl | intro _ | split | dsimp only)

end Sys2Proof.Machine
end

