-- ==== Sys2Proof/Laws/KeepsMemOps.lean ====
section
/-! SUPPORT. Sys2Proof/Laws/KeepsMemOps.lean: what the operations of Machine/MemOps.lean keep of a state. -/
namespace Sys2Proof.Machine

theorem setByte_keeps {s t : State} (h : Keeps s t) (a0 : Nat) (a1 : Byte) : Keeps s (setByte a0 a1 t) := by
  unfold setByte
  repeat' (first | with_reducible assumption | with_reducible exact Keeps.refl | (with_reducible refine Keeps.upd ?_ (by with_reducible rfl); first | with_reducible assumption | with_reducible exact Keeps.refl | split) | intro _ | split | dsimp only | (with_reducible refine Keeps.updTable ?_ (fun w => by simp only [State.wf, State.hostWf, State.lineWf, State.memWf, State.serviceWf, Bool.and_eq_true] at w ⊢; simp_all only [Map.wf_set, Map.wf_filter, Map.wf_mapVals, Map.wf_nil, and_self]); first | with_reducible assumption | with_reducible exact Keeps.refl | split))

theorem setBytes_keeps {s t : State} (h : Keeps s t) (a0 : Nat) (a1 : List Byte) : Keeps s (setBytes a0 a1 t) := by
  induction a1 generalizing t a0 with
  | nil =>
    unfold setBytes
    repeat' (first | with_reducible assumption | with_reducible apply ih | with_reducible apply setByte_keeps | with_reducible exact Keeps.refl | intro _ | split | dsimp only)
  | cons _ _ ih =>
    unfold setBytes
    repeat' (first | with_reducible assumption | with_reducible apply ih | with_reducible apply setByte_keeps | with_reducible exact Keeps.refl | intro _ | split | dsimp only)

theorem setBank_keeps {s t : State} (h : Keeps s t) (a0 : Nat) (a1 : BankSt) : Keeps s (setBank a0 a1 t) := by
  unfold setBank
  repeat' (first | with_reducible assumption | with_reducible exact Keeps.refl | (with_reducible refine Keeps.upd ?_ (by with_reducible rfl); first | with_reducible assumption | with_reducible exact Keeps.refl | split) | intro _ | split | dsimp only | (with_reducible refine Keeps.updTable ?_ (fun w => by simp only [State.wf, State.hostWf, State.lineWf, State.memWf, State.serviceWf, Bool.and_eq_true] at w ⊢; simp_all only [Map.wf_set, Map.wf_filter, Map.wf_mapVals, Map.wf_nil, and_self]); first | with_reducible assumption | with_reducible exact Keeps.refl | split))

theorem touchBank_keeps {s t : State} (h : Keeps s t) (a0 : Bank) : Keeps s (touchBank a0 t) := by
  unfold touchBank
  repeat' (first | with_reducible assumption | with_reducible apply raise_keeps | with_reducible apply count_keeps | with_reducible apply setF_keeps | with_reducible exact Keeps.refl | intro _ | split | dsimp only)

theorem busSet_keeps {s t : State} (h : Keeps s t) (a0 : Nat) (a1 : Byte) : Keeps s (busSet a0 a1 t) := by
  unfold busSet
  repeat' (first | with_reducible assumption | with_reducible apply setByte_keeps | with_reducible exact Keeps.refl | intro _ | split | dsimp only)

theorem busSets_keeps {s t : State} (h : Keeps s t) (a0 : Nat) (a1 : List Byte) : Keeps s (busSets a0 a1 t) := by
  induction a1 generalizing t a0 with
  | nil =>
    unfold busSets
    repeat' (first | with_reducible assumption | with_reducible apply ih | with_reducible apply busSet_keeps | with_reducible exact Keeps.refl | intro _ | split | dsimp only)
  | cons _ _ ih =>
    unfold busSets
    repeat' (first | with_reducible assumption | with_reducible apply ih | with_reducible apply busSet_keeps | with_reducible exact Keeps.refl | intro _ | split | dsimp only)

theorem touchArea_keeps {s t : State} (h : Keeps s t) (a0 : Nat) (a1 : Nat) : Keeps s (touchArea a0 a1 t) := by
  unfold touchArea
  repeat' (first | with_reducible assumption | with_reducible apply touchBank_keeps | with_reducible apply Keeps.foldl | with_reducible exact Keeps.refl | intro _ | split | dsimp only)

theorem busWrite_keeps {s t : State} (h : Keeps s t) (a0 : Nat) (a1 : List Byte) : Keeps s (busWrite a0 a1 t) := by
  unfold busWrite
  repeat' (first | with_reducible assumption | with_reducible apply busSets_keeps | with_reducible apply touchArea_keeps | with_reducible exact Keeps.refl | intro _ | split | dsimp only)

theorem busWriteWords_keeps {s t : State} (h : Keeps s t) (a0 : Nat) (a1 : List Nat) : Keeps s (busWriteWords a0 a1 t) := by
  unfold busWriteWords
  repeat' (first | with_reducible assumption | with_reducible apply busWrite_keeps | with_reducible exact Keeps.refl | intro _ | split | dsimp only)

end Sys2Proof.Machine
end

