-- ==== Sys2Proof/Laws/KeepsBurst.lean ====
section
/-! SUPPORT. Sys2Proof/Laws/KeepsBurst.lean: what the operations of Machine/Burst.lean keep of a state. -/
namespace Sys2Proof.Machine

theorem setBurst_keeps {s t : State} (h : Keeps s t) (a0 : Nat) (a1 : Burst) : Keeps s (setBurst a0 a1 t) := by
  unfold setBurst
  repeat' (first | with_reducible assumption | with_reducible exact Keeps.refl | (with_reducible refine Keeps.upd ?_ (by with_reducible rfl); first | with_reducible assumption | with_reducible exact Keeps.refl | split) | intro _ | split | dsimp only | (with_reducible refine Keeps.updTable ?_ (fun w => by simp only [State.wf, State.hostWf, State.lineWf, State.memWf, State.serviceWf, Bool.and_eq_true] at w ⊢; simp_all only [Map.wf_set, Map.wf_filter, Map.wf_mapVals, Map.wf_nil, and_self]); first | with_reducible assumption | with_reducible exact Keeps.refl | split))

theorem setCluster_keeps {s t : State} (h : Keeps s t) (a0 : Nat) (a1 : ClusterSt) : Keeps s (setCluster a0 a1 t) := by
  unfold setCluster
  repeat' (first | with_reducible assumption | with_reducible exact Keeps.refl | (with_reducible refine Keeps.upd ?_ (by with_reducible rfl); first | with_reducible assumption | with_reducible exact Keeps.refl | split) | intro _ | split | dsimp only | (with_reducible refine Keeps.updTable ?_ (fun w => by simp only [State.wf, State.hostWf, State.lineWf, State.memWf, State.serviceWf, Bool.and_eq_true] at w ⊢; simp_all only [Map.wf_set, Map.wf_filter, Map.wf_mapVals, Map.wf_nil, and_self]); first | with_reducible assumption | with_reducible exact Keeps.refl | split))

theorem recount_keeps {s t : State} (h : Keeps s t) (a0 : CtxState) (a1 : CtxState) : Keeps s (recount a0 a1 t) := by
  unfold recount
  repeat' (first | with_reducible assumption | with_reducible apply setF_keeps | with_reducible exact Keeps.refl | intro _ | split | dsimp only)

theorem setRole_keeps {s t : State} (h : Keeps s t) (a0 : Nat) (a1 : Nat) (a2 : Nat) : Keeps s (setRole a0 a1 a2 t) := by
  unfold setRole
  repeat' (first | with_reducible assumption | with_reducible apply setReg_keeps | with_reducible exact Keeps.refl | intro _ | split | dsimp only)

theorem refreshLoad_keeps {s t : State} (h : Keeps s t) (a0 : Nat) : Keeps s (refreshLoad a0 t) := by
  unfold refreshLoad
  repeat' (first | with_reducible assumption | with_reducible apply setB_keeps | with_reducible apply setF_keeps | with_reducible apply Keeps.foldl | with_reducible exact Keeps.refl | intro _ | split | dsimp only)

theorem moveCtx_keeps {s t : State} (h : Keeps s t) (a0 : Nat) (a1 : Burst) : Keeps s (moveCtx a0 a1 t) := by
  unfold moveCtx
  repeat' (first | with_reducible assumption | with_reducible apply recount_keeps | with_reducible apply setBurst_keeps | with_reducible apply refreshLoad_keeps | with_reducible exact Keeps.refl | intro _ | split | dsimp only)

theorem openCtx_keeps {s t : State} (h : Keeps s t) (id : Nat) (e : EngSt) (b : Burst)
    (h1 : s.wf = true → Map.wf (fun _ => Burst.idle) e.bursts = true) (h2 : s.wf = true → Map.wf (fun _ => ClusterSt.fresh) e.clusters = true) :
    Keeps s (openCtx id e b t) := by
  have k : Keeps s { t with eng := e } := by
    refine ⟨h.pending, h.emits, h.draws, fun w => ?_⟩
    have k := h.wf w
    simp only [Bool.and_eq_true] at k ⊢
    simp only [k, h1 w, h2 w, and_self]
  exact moveCtx_keeps k _ _

/-- The tables of contexts and clusters of a state that keeps another's form. -/
theorem Keeps.engBursts {s t : State} (h : Keeps s t) (w : s.wf = true) : Map.wf (fun _ => Burst.idle) t.eng.bursts = true := by
  have k := h.wf w
  simp only [Bool.and_eq_true] at k
  simp only [k]

theorem Keeps.engClusters {s t : State} (h : Keeps s t) (w : s.wf = true) : Map.wf (fun _ => ClusterSt.fresh) t.eng.clusters = true := by
  have k := h.wf w
  simp only [Bool.and_eq_true] at k
  simp only [k]

/-- Taking an ID changes neither contexts nor clusters. -/
theorem takeId_tables {e e' : EngSt} {id : Nat} (h : takeId e = some (id, e')) : e'.bursts = e.bursts ∧ e'.clusters = e.clusters := by
  unfold takeId at h
  split at h
  · cases h; exact ⟨rfl, rfl⟩
  · split at h
    · cases h
    · cases h; exact ⟨rfl, rfl⟩

theorem allocRx_tables {s : State} {e : EngSt} {id : Nat} (h : allocRx s = some (id, e)) : e.bursts = s.eng.bursts ∧ e.clusters = s.eng.clusters := by
  unfold allocRx at h
  split at h
  · cases h
  · exact takeId_tables h

theorem allocTx_tables {s : State} {e : EngSt} {id : Nat} {b : Bool} (h : allocTx b s = some (id, e)) :
    e.bursts = s.eng.bursts ∧ e.clusters = s.eng.clusters := by
  unfold allocTx at h
  split at h
  · cases hr : takeReserve s with
    | none => simp [hr] at h
    | some i => simp only [hr, Option.map_some, Option.some.injEq, Prod.mk.injEq] at h; rw [← h.2]; exact ⟨rfl, rfl⟩
  · exact takeId_tables h

theorem freeCtx_keeps {s t : State} (h : Keeps s t) (a0 : Nat) : Keeps s (freeCtx a0 t) := by
  unfold freeCtx
  repeat' (first | with_reducible assumption | with_reducible apply moveCtx_keeps | with_reducible exact Keeps.refl | (with_reducible refine Keeps.upd ?_ (by with_reducible rfl); first | with_reducible assumption | with_reducible apply moveCtx_keeps | with_reducible exact Keeps.refl | split) | intro _ | split | dsimp only)

theorem setQueue_keeps {s t : State} (h : Keeps s t) (a0 : Nat) (a1 : Queue) : Keeps s (setQueue a0 a1 t) := by
  unfold setQueue
  repeat' (first | with_reducible assumption | with_reducible exact Keeps.refl | (with_reducible refine Keeps.upd ?_ (by with_reducible rfl); first | with_reducible assumption | with_reducible exact Keeps.refl | split) | intro _ | split | dsimp only | (with_reducible refine Keeps.updTable ?_ (fun w => by simp only [State.wf, State.hostWf, State.lineWf, State.memWf, State.serviceWf, Bool.and_eq_true] at w ⊢; simp_all only [Map.wf_set, Map.wf_filter, Map.wf_mapVals, Map.wf_nil, and_self]); first | with_reducible assumption | with_reducible exact Keeps.refl | split))

theorem pushWord_keeps {s t : State} (h : Keeps s t) (a0 : Nat) (a1 : WordKind) (a2 : List Byte) : Keeps s (pushWord a0 a1 a2 t) := by
  unfold pushWord
  repeat' (first | with_reducible assumption | with_reducible apply setQueue_keeps | with_reducible apply setBytes_keeps | with_reducible exact Keeps.refl | intro _ | split | dsimp only)

theorem closePartial_keeps {s t : State} (h : Keeps s t) (a0 : Nat) : Keeps s (closePartial a0 t) := by
  unfold closePartial
  repeat' (first | with_reducible assumption | with_reducible apply pushWord_keeps | with_reducible apply setQueue_keeps | with_reducible exact Keeps.refl | intro _ | split | dsimp only)

theorem pushTrailer_keeps {s t : State} (h : Keeps s t) (a0 : Nat) (a1 : Nat) : Keeps s (pushTrailer a0 a1 t) := by
  unfold pushTrailer
  repeat' (first | with_reducible assumption | with_reducible apply pushWord_keeps | with_reducible apply setQueue_keeps | with_reducible exact Keeps.refl | intro _ | split | dsimp only)

theorem recountRings_keeps {s t : State} (h : Keeps s t)  : Keeps s (recountRings t) := by
  unfold recountRings
  repeat' (first | with_reducible assumption | with_reducible apply setB_keeps | with_reducible apply setF_keeps | with_reducible exact Keeps.refl | intro _ | split | dsimp only)

theorem openQueue_keeps {s t : State} (h : Keeps s t) (a0 : Nat) (a1 : Nat) (a2 : Wave) (a3 : Nat) : Keeps s (openQueue a0 a1 a2 a3 t) := by
  unfold openQueue
  repeat' (first | with_reducible assumption | with_reducible apply setQueue_keeps | with_reducible apply recountRings_keeps | with_reducible exact Keeps.refl | (with_reducible refine Keeps.upd ?_ (by with_reducible rfl); first | with_reducible assumption | with_reducible apply setQueue_keeps | with_reducible apply recountRings_keeps | with_reducible exact Keeps.refl | split) | intro _ | split | dsimp only)

theorem closeQueue_keeps {s t : State} (h : Keeps s t) (a0 : Nat) : Keeps s (closeQueue a0 t) := by
  unfold closeQueue
  repeat' (first | with_reducible assumption | with_reducible apply setQueue_keeps | with_reducible apply recountRings_keeps | with_reducible apply freeCtx_keeps | with_reducible exact Keeps.refl | (with_reducible refine Keeps.upd ?_ (by with_reducible rfl); first | with_reducible assumption | with_reducible apply setQueue_keeps | with_reducible apply recountRings_keeps | with_reducible apply freeCtx_keeps | with_reducible exact Keeps.refl | split) | intro _ | split | dsimp only)

theorem closeIfReleased_keeps {s t : State} (h : Keeps s t) (a0 : Nat) : Keeps s (closeIfReleased a0 t) := by
  unfold closeIfReleased
  repeat' (first | with_reducible assumption | with_reducible apply closeQueue_keeps | with_reducible exact Keeps.refl | intro _ | split | dsimp only)

theorem reportCompletion_keeps {s t : State} (h : Keeps s t) (a0 : Nat) (a1 : Burst) (a2 : Nat) : Keeps s (reportCompletion a0 a1 a2 t) := by
  unfold reportCompletion
  repeat' (first | with_reducible assumption | with_reducible apply emit_keeps | with_reducible apply count_keeps | with_reducible apply raise_keeps | with_reducible exact Keeps.refl | intro _ | split | dsimp only)

theorem completeRx_keeps {s t : State} (h : Keeps s t) (a0 : Nat) (a1 : Nat) : Keeps s (completeRx a0 a1 t) := by
  unfold completeRx
  repeat' (first | with_reducible assumption | with_reducible apply pushTrailer_keeps | with_reducible apply closePartial_keeps | with_reducible apply moveCtx_keeps | with_reducible apply reportCompletion_keeps | with_reducible exact Keeps.refl | intro _ | split | dsimp only)

theorem returnTx_keeps {s t : State} (h : Keeps s t) (a0 : Nat) (a1 : Nat) : Keeps s (returnTx a0 a1 t) := by
  unfold returnTx
  repeat' (first | with_reducible assumption | with_reducible apply setRole_keeps | with_reducible exact Keeps.refl | intro _ | split | dsimp only)

theorem completeTx_keeps {s t : State} (h : Keeps s t) (a0 : Nat) (a1 : Nat) : Keeps s (completeTx a0 a1 t) := by
  unfold completeTx
  repeat' (first | with_reducible assumption | with_reducible apply returnTx_keeps | with_reducible apply reportCompletion_keeps | with_reducible apply freeCtx_keeps | with_reducible exact Keeps.refl | intro _ | split | dsimp only)

theorem completeBurst_keeps {s t : State} (h : Keeps s t) (a0 : Nat) (a1 : Nat) : Keeps s (completeBurst a0 a1 t) := by
  unfold completeBurst
  repeat' (first | with_reducible assumption | with_reducible apply completeRx_keeps | with_reducible apply completeTx_keeps | with_reducible exact Keeps.refl | intro _ | split | dsimp only)

theorem completeAll_keeps {s t : State} (h : Keeps s t) (a0 : Burst → Bool) (a1 : Nat) : Keeps s (completeAll a0 a1 t) := by
  unfold completeAll
  repeat' (first | with_reducible assumption | with_reducible apply completeBurst_keeps | with_reducible apply Keeps.foldl | with_reducible exact Keeps.refl | intro _ | split | dsimp only)

end Sys2Proof.Machine
end

