-- ==== Sys2Proof/Laws/KeepsPortOps.lean ====
section
/-! SUPPORT. Sys2Proof/Laws/KeepsPortOps.lean: what the operations of Machine/PortOps.lean keep of a state. -/
namespace Sys2Proof.Machine

theorem setPort_keeps {s t : State} (h : Keeps s t) (a0 : Nat) (a1 : PortSt) : Keeps s (setPort a0 a1 t) := by
  unfold setPort
  repeat' (first | with_reducible assumption | with_reducible exact Keeps.refl | (with_reducible refine Keeps.upd ?_ (by with_reducible rfl); first | with_reducible assumption | with_reducible exact Keeps.refl | split) | intro _ | split | dsimp only | (with_reducible refine Keeps.updTable ?_ (fun w => by simp only [State.wf, State.hostWf, State.lineWf, State.memWf, State.serviceWf, Bool.and_eq_true] at w ⊢; simp_all only [Map.wf_set, Map.wf_filter, Map.wf_mapVals, Map.wf_nil, and_self]); first | with_reducible assumption | with_reducible exact Keeps.refl | split))

theorem refreshFreeze_keeps {s t : State} (h : Keeps s t) (a0 : Nat) : Keeps s (refreshFreeze a0 t) := by
  unfold refreshFreeze
  repeat' (first | with_reducible assumption | with_reducible apply setB_keeps | with_reducible exact Keeps.refl | intro _ | split | dsimp only)

theorem refreshGroup_keeps {s t : State} (h : Keeps s t) (a0 : Nat) : Keeps s (refreshGroup a0 t) := by
  unfold refreshGroup
  repeat' (first | with_reducible assumption | with_reducible apply refreshFreeze_keeps | with_reducible apply Keeps.foldl | with_reducible exact Keeps.refl | intro _ | split | dsimp only)

theorem cutOccs_keeps {s t : State} (h : Keeps s t) (a0 : Nat) : Keeps s (cutOccs a0 t) := by
  unfold cutOccs
  repeat' (first | with_reducible assumption | with_reducible exact Keeps.refl | (with_reducible refine Keeps.upd ?_ (by with_reducible rfl); first | with_reducible assumption | with_reducible exact Keeps.refl | split) | intro _ | split | dsimp only)

theorem driverOff_keeps {s t : State} (h : Keeps s t) (a0 : Nat) : Keeps s (driverOff a0 t) := by
  unfold driverOff
  repeat' (first | with_reducible assumption | with_reducible apply cutOccs_keeps | with_reducible apply refreshGroup_keeps | with_reducible apply setB_keeps | with_reducible exact Keeps.refl | intro _ | split | dsimp only)

theorem driverEnable_keeps {s t : State} (h : Keeps s t) (a0 : Nat) : Keeps s (driverEnable a0 t) := by
  unfold driverEnable
  repeat' (first | with_reducible assumption | with_reducible apply refreshGroup_keeps | with_reducible apply setB_keeps | with_reducible apply setPort_keeps | with_reducible exact Keeps.refl | intro _ | split | dsimp only)

theorem stopPort_keeps {s t : State} (h : Keeps s t) (a0 : Nat) (a1 : Nat) : Keeps s (stopPort a0 a1 t) := by
  unfold stopPort
  repeat' (first | with_reducible assumption | with_reducible apply completeAll_keeps | with_reducible apply driverOff_keeps | with_reducible exact Keeps.refl | intro _ | split | dsimp only)

theorem endTx_keeps {s t : State} (h : Keeps s t) (a0 : Burst → Bool) (a1 : Nat) : Keeps s (endTx a0 a1 t) := by
  unfold endTx
  repeat' (first | with_reducible assumption | with_reducible apply completeBurst_keeps | with_reducible apply driverOff_keeps | with_reducible apply Keeps.foldl | with_reducible exact Keeps.refl | intro _ | split | dsimp only)

theorem diagReport_keeps {s t : State} (h : Keeps s t) (a0 : Nat) (a1 : Page) : Keeps s (diagReport a0 a1 t) := by
  unfold diagReport
  repeat' (first | with_reducible assumption | with_reducible apply raise_keeps | with_reducible apply count_keeps | with_reducible apply setF_keeps | with_reducible exact Keeps.refl | intro _ | split | dsimp only)

theorem allDriversOff_keeps {s t : State} (h : Keeps s t)  : Keeps s (allDriversOff t) := by
  unfold allDriversOff
  repeat' (first | with_reducible assumption | with_reducible apply completeAll_keeps | with_reducible apply driverOff_keeps | with_reducible apply Keeps.foldl | with_reducible exact Keeps.refl | intro _ | split | dsimp only)

theorem kill_keeps {s t : State} (h : Keeps s t) (a0 : Nat) (a1 : Option Nat) : Keeps s (kill a0 a1 t) := by
  unfold kill
  repeat' (first | with_reducible assumption | with_reducible apply setF_keeps | with_reducible apply setB_keeps | with_reducible apply raise_keeps | with_reducible apply count_keeps | with_reducible apply allDriversOff_keeps | with_reducible exact Keeps.refl | intro _ | split | dsimp only)

theorem endCauses_keeps {s t : State} (h : Keeps s t) (a0 : Nat) : Keeps s (endCauses a0 t) := by
  unfold endCauses
  repeat' (first | with_reducible assumption | with_reducible apply setF_keeps | with_reducible apply raise_keeps | with_reducible apply setB_keeps | with_reducible exact Keeps.refl | intro _ | split | dsimp only)

theorem endCause_keeps {s t : State} (h : Keeps s t) (a0 : Nat) : Keeps s (endCause a0 t) := by
  unfold endCause
  repeat' (first | with_reducible assumption | with_reducible apply endCauses_keeps | with_reducible exact Keeps.refl | intro _ | split | dsimp only)

theorem refuseEnable_keeps {s t : State} (h : Keeps s t) (a0 : Nat) (a1 : Bool) : Keeps s (refuseEnable a0 a1 t) := by
  unfold refuseEnable
  repeat' (first | with_reducible assumption | with_reducible apply raise_keeps | with_reducible apply logPage_keeps | with_reducible exact Keeps.refl | intro _ | split | dsimp only)

end Sys2Proof.Machine
end

