-- ==== Sys2Proof/Laws/KeepsQueue.lean ====
section
/-! SUPPORT. Sys2Proof/Laws/KeepsQueue.lean: what the operations of Machine/Queue.lean keep of a state. -/
namespace Sys2Proof.Machine

theorem answer_keeps {s t : State} (h : Keeps s t) (a0 : QResult) (a1 : Nat) (a2 : List Byte) : Keeps s (answer a0 a1 a2 t) := by
  unfold answer
  repeat' (first | with_reducible assumption | with_reducible apply emit_keeps | with_reducible exact Keeps.refl | intro _ | split | dsimp only)

theorem overrun_keeps {s t : State} (h : Keeps s t) (a0 : Nat) : Keeps s (overrun a0 t) := by
  unfold overrun
  repeat' (first | with_reducible assumption | with_reducible apply setQueue_keeps | with_reducible apply completeBurst_keeps | with_reducible apply raise_keeps | with_reducible apply count_keeps | with_reducible exact Keeps.refl | intro _ | split | dsimp only)

theorem narrowWrite_keeps {s t : State} (h : Keeps s t) (a0 : Nat) (a1 : List Byte) (a2 : Bool) : Keeps s (narrowWrite a0 a1 a2 t) := by
  unfold narrowWrite
  repeat' (first | with_reducible assumption | with_reducible apply overrun_keeps | with_reducible apply setQueue_keeps | with_reducible apply closePartial_keeps | with_reducible exact Keeps.refl | intro _ | split | dsimp only)

theorem execQueueNarrowWrite_keeps {s t u : State} (h : Keeps s t) (a0 : BurstId) (a1 : List Byte) (a2 : Bool) (e : execQueueNarrowWrite a0 a1 a2 t = .next u) : Keeps s u := by
  unfold execQueueNarrowWrite at e
  try dsimp only at e
  repeat' split at e
  all_goals (cases e; repeat' (first | with_reducible assumption | with_reducible apply narrowWrite_keeps | with_reducible exact Keeps.refl | intro _ | split | dsimp only))

theorem popReport_keeps {s t : State} (h : Keeps s t) (a0 : Nat) (a1 : PopErr) : Keeps s (popReport a0 a1 t) := by
  unfold popReport
  repeat' (first | with_reducible assumption | with_reducible apply countErr_keeps | with_reducible apply setF_keeps | with_reducible apply setB_keeps | with_reducible apply diagReport_keeps | with_reducible apply raise_keeps | with_reducible apply count_keeps | with_reducible exact Keeps.refl | intro _ | split | dsimp only)

theorem pop_keeps {s t : State} (h : Keeps s t) (a0 : BurstId) (a1 : BitVec 8) (a2 : PopErr) : Keeps s (pop a0 a1 a2 t) := by
  unfold pop
  repeat' (first | with_reducible assumption | with_reducible apply answer_keeps | with_reducible apply setQueue_keeps | with_reducible apply popReport_keeps | with_reducible exact Keeps.refl | intro _ | split | dsimp only)

theorem execPop_keeps {s t u : State} (h : Keeps s t) (a0 : BurstId) (a1 : BitVec 8) (a2 : PopErr) (e : execPop a0 a1 a2 t = .next u) : Keeps s u := by
  unfold execPop at e
  try dsimp only at e
  repeat' split at e
  all_goals (cases e; repeat' (first | with_reducible assumption | with_reducible apply pop_keeps | with_reducible exact Keeps.refl | intro _ | split | dsimp only))

theorem execMark_keeps {s t u : State} (h : Keeps s t) (a0 : BurstId) (a1 : BitVec 8) (e : execMark a0 a1 t = .next u) : Keeps s u := by
  unfold execMark at e
  try dsimp only at e
  repeat' split at e
  all_goals (cases e; repeat' (first | with_reducible assumption | with_reducible apply answer_keeps | with_reducible apply setQueue_keeps | with_reducible exact Keeps.refl | intro _ | split | dsimp only))

theorem execRewind_keeps {s t u : State} (h : Keeps s t) (a0 : BurstId) (a1 : BitVec 8) (e : execRewind a0 a1 t = .next u) : Keeps s u := by
  unfold execRewind at e
  try dsimp only at e
  repeat' split at e
  all_goals (cases e; repeat' (first | with_reducible assumption | with_reducible apply answer_keeps | with_reducible apply raise_keeps | with_reducible apply count_keeps | with_reducible apply setQueue_keeps | with_reducible exact Keeps.refl | intro _ | split | dsimp only))

theorem release_keeps {s t : State} (h : Keeps s t) (a0 : BurstId) (a1 : BitVec 8) (a2 : Nat) : Keeps s (release a0 a1 a2 t) := by
  unfold release
  repeat' (first | with_reducible assumption | with_reducible apply answer_keeps | with_reducible apply closeIfReleased_keeps | with_reducible apply setQueue_keeps | with_reducible exact Keeps.refl | intro _ | split | dsimp only)

theorem execQueueRelease_keeps {s t u : State} (h : Keeps s t) (a0 : BurstId) (a1 : BitVec 8) (a2 : Nat) (e : execQueueRelease a0 a1 a2 t = .next u) : Keeps s u := by
  unfold execQueueRelease at e
  try dsimp only at e
  repeat' split at e
  all_goals (cases e; repeat' (first | with_reducible assumption | with_reducible apply release_keeps | with_reducible exact Keeps.refl | intro _ | split | dsimp only))

theorem pushData_keeps {s t : State} (h : Keeps s t) (a0 : Nat) (a1 : Nat) (a2 : List Byte) : Keeps s (pushData a0 a1 a2 t) := by
  induction a1 generalizing t a0 a2 with
  | zero =>
    unfold pushData
    repeat' (first | with_reducible assumption | with_reducible apply ih | with_reducible apply pushWord_keeps | with_reducible apply setQueue_keeps | with_reducible exact Keeps.refl | intro _ | split | dsimp only)
  | succ _ ih =>
    unfold pushData
    repeat' (first | with_reducible assumption | with_reducible apply ih | with_reducible apply pushWord_keeps | with_reducible apply setQueue_keeps | with_reducible exact Keeps.refl | intro _ | split | dsimp only)

theorem execNbEarlyDecode_keeps {s t u : State} (h : Keeps s t) (a0 : BurstId) (a1 : List Byte) (e : execNbEarlyDecode a0 a1 t = .next u) : Keeps s u := by
  unfold execNbEarlyDecode at e
  try dsimp only at e
  repeat' split at e
  all_goals (cases e; repeat' (first | with_reducible assumption | with_reducible apply pushData_keeps | with_reducible apply setQueue_keeps | with_reducible exact Keeps.refl | intro _ | split | dsimp only))

theorem rewriteWords_keeps {s t : State} (h : Keeps s t) (a0 : Nat) (a1 : Nat) (a2 : Nat) (a3 : List Byte) : Keeps s (rewriteWords a0 a1 a2 a3 t) := by
  induction a1 generalizing t a0 a2 a3 with
  | zero =>
    unfold rewriteWords
    repeat' (first | with_reducible assumption | with_reducible apply ih | with_reducible apply setQueue_keeps | with_reducible apply setBytes_keeps | with_reducible exact Keeps.refl | intro _ | split | dsimp only)
  | succ _ ih =>
    unfold rewriteWords
    repeat' (first | with_reducible assumption | with_reducible apply ih | with_reducible apply setQueue_keeps | with_reducible apply setBytes_keeps | with_reducible exact Keeps.refl | intro _ | split | dsimp only)

theorem combinedDecode_keeps {s t : State} (h : Keeps s t) (a0 : Nat) (a1 : List Byte) : Keeps s (combinedDecode a0 a1 t) := by
  unfold combinedDecode
  repeat' (first | with_reducible assumption | with_reducible apply rewriteWords_keeps | with_reducible apply count_keeps | with_reducible exact Keeps.refl | intro _ | split | dsimp only)

theorem execBqBlkReset_keeps {s t u : State} (h : Keeps s t)  (e : execBqBlkReset t = .next u) : Keeps s u := by
  unfold execBqBlkReset at e
  try dsimp only at e
  repeat' split at e
  all_goals (cases e; repeat' (first | with_reducible assumption | with_reducible apply blkReset_keeps | with_reducible exact Keeps.refl | intro _ | split | dsimp only))

theorem bqCfgPending_keeps {s t : State} (h : Keeps s t)  : Keeps s (bqCfgPending t) := by
  unfold bqCfgPending
  repeat' (first | with_reducible assumption | with_reducible apply setB_keeps | with_reducible exact Keeps.refl | intro _ | split | dsimp only)

theorem bqBoundary_keeps {s t : State} (h : Keeps s t)  : Keeps s (bqBoundary t) := by
  unfold bqBoundary
  repeat' (first | with_reducible assumption | with_reducible apply bqCfgPending_keeps | with_reducible apply recountRings_keeps | with_reducible exact Keeps.refl | (with_reducible refine Keeps.upd ?_ (by with_reducible rfl); first | with_reducible assumption | with_reducible apply bqCfgPending_keeps | with_reducible apply recountRings_keeps | with_reducible exact Keeps.refl | split) | intro _ | split | dsimp only)

theorem execBqSelWrite_keeps {s t u : State} (h : Keeps s t) (a0 : Word) (e : execBqSelWrite a0 t = .next u) : Keeps s u := by
  unfold execBqSelWrite at e
  try dsimp only at e
  repeat' split at e
  all_goals (cases e; repeat' (first | with_reducible assumption | with_reducible apply setF_keeps | with_reducible apply setB_keeps | with_reducible exact Keeps.refl | intro _ | split | dsimp only))

theorem runForceRelease_keeps {s t : State} (h : Keeps s t) (a0 : Outstanding) : Keeps s (runForceRelease a0 t) := by
  unfold runForceRelease
  repeat' (first | with_reducible assumption | with_reducible apply done_keeps | with_reducible apply raise_keeps | with_reducible apply closeQueue_keeps | with_reducible exact Keeps.refl | intro _ | split | dsimp only)

theorem execForceRelease_keeps {s t u : State} (h : Keeps s t) (a0 : CmdSrc) (e : execForceRelease a0 t = .next u) : Keeps s u := by
  unfold execForceRelease at e
  try dsimp only at e
  repeat' split at e
  all_goals (cases e; repeat' (first | with_reducible assumption | with_reducible apply issue_keeps | with_reducible apply runForceRelease_keeps | with_reducible exact Keeps.refl | intro _ | split | dsimp only))

theorem runReadWords_keeps {s t : State} (h : Keeps s t) (a0 : Outstanding) : Keeps s (runReadWords a0 t) := by
  unfold runReadWords
  repeat' (first | with_reducible assumption | with_reducible apply done_keeps | with_reducible exact Keeps.refl | intro _ | split | dsimp only)

theorem execReadWords_keeps {s t u : State} (h : Keeps s t) (a0 : CmdSrc) (e : execReadWords a0 t = .next u) : Keeps s u := by
  unfold execReadWords at e
  try dsimp only at e
  repeat' split at e
  all_goals (cases e; repeat' (first | with_reducible assumption | with_reducible apply issue_keeps | with_reducible apply runReadWords_keeps | with_reducible exact Keeps.refl | intro _ | split | dsimp only))

theorem finishReadWords_keeps {s t : State} (h : Keeps s t) (a0 : Outstanding) : Keeps s (finishReadWords a0 t) := by
  unfold finishReadWords
  repeat' (first | with_reducible assumption | with_reducible apply done_keeps | with_reducible apply busWrite_keeps | with_reducible exact Keeps.refl | intro _ | split | dsimp only)

end Sys2Proof.Machine
end

