-- ==== Sys2Proof/Laws/KeepsEngine.lean ====
section
/-! SUPPORT. Sys2Proof/Laws/KeepsEngine.lean: what the operations of Machine/Engine.lean keep of a state. -/
namespace Sys2Proof.Machine

theorem gateCluster_keeps {s t : State} (h : Keeps s t) (a0 : Nat) : Keeps s (gateCluster a0 t) := by
  unfold gateCluster
  repeat' (first | with_reducible assumption | with_reducible apply setRole_keeps | with_reducible apply Keeps.foldl | with_reducible exact Keeps.refl | intro _ | split | dsimp only)

theorem wakeStanding_keeps {s t : State} (h : Keeps s t) (a0 : Nat) (a1 : Wave) : Keeps s (wakeStanding a0 a1 t) := by
  unfold wakeStanding
  repeat' (first | with_reducible assumption | with_reducible apply setRole_keeps | with_reducible exact Keeps.refl | intro _ | split | dsimp only)

theorem setFronts_keeps {s t : State} (h : Keeps s t) (a0 : Nat) : Keeps s (setFronts a0 t) := by
  unfold setFronts
  repeat' (first | with_reducible assumption | with_reducible apply setRole_keeps | with_reducible apply Keeps.foldl | with_reducible exact Keeps.refl | intro _ | split | dsimp only)

theorem gateIdle_keeps {s t : State} (h : Keeps s t) (a0 : Nat) (a1 : Nat) : Keeps s (gateIdle a0 a1 t) := by
  unfold gateIdle
  repeat' (first | with_reducible assumption | with_reducible apply setRole_keeps | with_reducible exact Keeps.refl | intro _ | split | dsimp only)

theorem setOutFronts_keeps {s t : State} (h : Keeps s t) (a0 : Nat) : Keeps s (setOutFronts a0 t) := by
  unfold setOutFronts
  repeat' (first | with_reducible assumption | with_reducible apply gateIdle_keeps | with_reducible apply setRole_keeps | with_reducible apply Keeps.foldl | with_reducible exact Keeps.refl | intro _ | split | dsimp only)

theorem refreshCluster_keeps {s t : State} (h : Keeps s t) (a0 : Nat) : Keeps s (refreshCluster a0 t) := by
  unfold refreshCluster
  repeat' (first | with_reducible assumption | with_reducible apply setOutFronts_keeps | with_reducible apply wakeStanding_keeps | with_reducible apply setFronts_keeps | with_reducible exact Keeps.refl | intro _ | split | dsimp only)

theorem refreshEngines_keeps {s t : State} (h : Keeps s t)  : Keeps s (refreshEngines t) := by
  unfold refreshEngines
  repeat' (first | with_reducible assumption | with_reducible apply refreshCluster_keeps | with_reducible apply Keeps.foldl | with_reducible exact Keeps.refl | intro _ | split | dsimp only)

theorem dropDetect_keeps {s t : State} (h : Keeps s t) (a0 : Nat) : Keeps s (dropDetect a0 t) := by
  unfold dropDetect
  repeat' (first | with_reducible assumption | with_reducible apply raise_keeps | with_reducible apply count_keeps | with_reducible exact Keeps.refl | (with_reducible refine Keeps.upd ?_ (by with_reducible rfl); first | with_reducible assumption | with_reducible apply raise_keeps | with_reducible apply count_keeps | with_reducible exact Keeps.refl | split) | intro _ | split | dsimp only)

theorem wakeRx_keeps {s t : State} (h : Keeps s t) (a0 : Nat) (a1 : Nat) (a2 : Wave) : Keeps s (wakeRx a0 a1 a2 t) := by
  unfold wakeRx
  repeat' (first | with_reducible assumption | with_reducible apply setRole_keeps | with_reducible exact Keeps.refl | intro _ | split | dsimp only)

theorem openRx_keeps {s t : State} (h : Keeps s t) (g : Nat) (b : Burst) : Keeps s (openRx g b t) := by
  unfold openRx
  split
  · exact dropDetect_keeps h _
  · split
    · exact dropDetect_keeps h _
    · rename_i e he
      split
      · exact dropDetect_keeps (raise_keeps (count_keeps h _ _) _ _) _
      · have ht := allocRx_tables he
        refine openQueue_keeps (openCtx_keeps (wakeRx_keeps ?_ _ _ _) _ _ _ ?_ ?_) _ _ _ _
        · split
          · exact raise_keeps (count_keeps h _ _) _ _
          · exact h
        · exact fun w => ht.1 ▸ h.engBursts w
        · exact fun w => ht.2 ▸ h.engClusters w

theorem failTx_keeps {s t : State} (h : Keeps s t)  : Keeps s (failTx t) := by
  unfold failTx
  repeat' (first | with_reducible assumption | with_reducible apply raise_keeps | with_reducible apply count_keeps | with_reducible exact Keeps.refl | intro _ | split | dsimp only)

theorem openTx_keeps_eq {s t u : State} {p : PlanItem} (h : Keeps s t) (e : openTx p t = some u) : Keeps s u := by
  unfold openTx at e
  split at e
  · cases e
  · split at e
    · cases e
    · rename_i he
      have ht := allocTx_tables he
      cases e
      exact openCtx_keeps (setRole_keeps h _ _ _) _ _ _ (fun w => ht.1 ▸ h.engBursts w) (fun w => ht.2 ▸ h.engClusters w)

theorem execEngineWake_keeps {s t u : State} (h : Keeps s t) (a0 : Cluster) (a1 : Fin 16) (a2 : Wave) (e : execEngineWake a0 a1 a2 t = .next u) : Keeps s u := by
  unfold execEngineWake at e
  try dsimp only at e
  repeat' split at e
  all_goals (cases e; repeat' (first | with_reducible assumption | with_reducible apply setRole_keeps | with_reducible exact Keeps.refl | intro _ | split | dsimp only))

theorem execEngineIdleGate_keeps {s t u : State} (h : Keeps s t) (a0 : Cluster) (a1 : Fin 16) (e : execEngineIdleGate a0 a1 t = .next u) : Keeps s u := by
  unfold execEngineIdleGate at e
  try dsimp only at e
  repeat' split at e
  all_goals (cases e; repeat' (first | with_reducible assumption | with_reducible apply setRole_keeps | with_reducible exact Keeps.refl | intro _ | split | dsimp only))

theorem stopDrivers_keeps {s t : State} (h : Keeps s t) (a0 : Nat) : Keeps s (stopDrivers a0 t) := by
  unfold stopDrivers
  repeat' (first | with_reducible assumption | with_reducible apply driverOff_keeps | with_reducible apply Keeps.foldl | with_reducible exact Keeps.refl | intro _ | split | dsimp only)

theorem endBursts_keeps {s t : State} (h : Keeps s t) (a0 : Nat) (a1 : Nat) : Keeps s (endBursts a0 a1 t) := by
  unfold endBursts
  repeat' (first | with_reducible assumption | with_reducible apply completeAll_keeps | with_reducible apply stopDrivers_keeps | with_reducible exact Keeps.refl | intro _ | split | dsimp only)

theorem faultEngines_keeps {s t : State} (h : Keeps s t) (a0 : Nat) : Keeps s (faultEngines a0 t) := by
  unfold faultEngines
  repeat' (first | with_reducible assumption | with_reducible apply setRole_keeps | with_reducible apply Keeps.foldl | with_reducible exact Keeps.refl | intro _ | split | dsimp only)

theorem clusterFault_keeps {s t : State} (h : Keeps s t) (a0 : Nat) (a1 : Nat) (a2 : Nat) : Keeps s (clusterFault a0 a1 a2 t) := by
  unfold clusterFault
  repeat' (first | with_reducible assumption | with_reducible apply complete_keeps | with_reducible apply endBursts_keeps | with_reducible apply countErr_keeps | with_reducible apply raise_keeps | with_reducible apply setFault_keeps | with_reducible apply diagReport_keeps | with_reducible apply setCluster_keeps | with_reducible apply setF_keeps | with_reducible apply faultEngines_keeps | with_reducible apply gateCluster_keeps | with_reducible exact Keeps.refl | intro _ | split | dsimp only)

theorem execClusterFault_keeps {s t u : State} (h : Keeps s t) (a0 : Cluster) (a1 : ClusterCause) (a2 : Fin 204800) (e : execClusterFault a0 a1 a2 t = .next u) : Keeps s u := by
  unfold execClusterFault at e
  try dsimp only at e
  repeat' split at e
  all_goals (cases e; repeat' (first | with_reducible assumption | with_reducible apply clusterFault_keeps | with_reducible exact Keeps.refl | intro _ | split | dsimp only))

theorem engReset_keeps {s t : State} (h : Keeps s t) (a0 : Nat) : Keeps s (engReset a0 t) := by
  unfold engReset
  repeat' (first | with_reducible assumption | with_reducible apply gateCluster_keeps | with_reducible apply endBursts_keeps | with_reducible apply blkReset_keeps | with_reducible apply setCluster_keeps | with_reducible exact Keeps.refl | intro _ | split | dsimp only)

theorem execEngBlkReset_keeps {s t u : State} (h : Keeps s t) (a0 : Cluster) (e : execEngBlkReset a0 t = .next u) : Keeps s u := by
  unfold execEngBlkReset at e
  try dsimp only at e
  repeat' split at e
  all_goals (cases e; repeat' (first | with_reducible assumption | with_reducible apply engReset_keeps | with_reducible exact Keeps.refl | intro _ | split | dsimp only))

theorem resumeCluster_keeps {s t : State} (h : Keeps s t) (a0 : Nat) (a1 : Bool) : Keeps s (resumeCluster a0 a1 t) := by
  unfold resumeCluster
  repeat' (first | with_reducible assumption | with_reducible apply setF_keeps | with_reducible apply setFault_keeps | with_reducible apply setCluster_keeps | with_reducible apply raise_keeps | with_reducible exact Keeps.refl | intro _ | split | dsimp only)

theorem reloadIfDrained_keeps {s t : State} (h : Keeps s t) (a0 : Nat) : Keeps s (reloadIfDrained a0 t) := by
  unfold reloadIfDrained
  repeat' (first | with_reducible assumption | with_reducible apply complete_keeps | with_reducible apply setCluster_keeps | with_reducible exact Keeps.refl | intro _ | split | dsimp only)

theorem clusterBoundary_keeps {s t : State} (h : Keeps s t) (a0 : Nat) : Keeps s (clusterBoundary a0 t) := by
  unfold clusterBoundary
  repeat' (first | with_reducible assumption | with_reducible apply resumeCluster_keeps | with_reducible apply reloadIfDrained_keeps | with_reducible exact Keeps.refl | intro _ | split | dsimp only)

theorem engBoundary_keeps {s t : State} (h : Keeps s t)  : Keeps s (engBoundary t) := by
  unfold engBoundary
  repeat' (first | with_reducible assumption | with_reducible apply refreshEngines_keeps | with_reducible apply clusterBoundary_keeps | with_reducible apply Keeps.foldl | with_reducible exact Keeps.refl | intro _ | split | dsimp only)

theorem logDrops_keeps {s t : State} (h : Keeps s t)  : Keeps s (logDrops t) := by
  unfold logDrops
  repeat' (first | with_reducible assumption | with_reducible apply logPage_keeps | with_reducible exact Keeps.refl | (with_reducible refine Keeps.upd ?_ (by with_reducible rfl); first | with_reducible assumption | with_reducible apply logPage_keeps | with_reducible exact Keeps.refl | split) | intro _ | split | dsimp only)

theorem runReloadCluster_keeps {s t : State} (h : Keeps s t) (a0 : Nat) (a1 : Outstanding) : Keeps s (runReloadCluster a0 a1 t) := by
  unfold runReloadCluster
  repeat' (first | with_reducible assumption | with_reducible apply done_keeps | with_reducible apply setCluster_keeps | with_reducible exact Keeps.refl | intro _ | split | dsimp only)

theorem execReloadCluster_keeps {s t u : State} (h : Keeps s t) (a0 : Cluster) (a1 : CmdSrc) (e : execReloadCluster a0 a1 t = .next u) : Keeps s u := by
  unfold execReloadCluster at e
  try dsimp only at e
  repeat' split at e
  all_goals (cases e; repeat' (first | with_reducible assumption | with_reducible apply issue_keeps | with_reducible apply runReloadCluster_keeps | with_reducible exact Keeps.refl | intro _ | split | dsimp only))

theorem abortReload_keeps {s t : State} (h : Keeps s t) (a0 : Nat) : Keeps s (abortReload a0 t) := by
  unfold abortReload
  repeat' (first | with_reducible assumption | with_reducible apply done_keeps | with_reducible apply setCluster_keeps | with_reducible exact Keeps.refl | intro _ | split | dsimp only)

theorem runAbortBurst_keeps {s t : State} (h : Keeps s t) (a0 : Page) (a1 : Outstanding) : Keeps s (runAbortBurst a0 a1 t) := by
  unfold runAbortBurst
  repeat' (first | with_reducible assumption | with_reducible apply done_keeps | with_reducible apply completeBurst_keeps | with_reducible apply driverOff_keeps | with_reducible exact Keeps.refl | intro _ | split | dsimp only)

theorem execAbortBurst_keeps {s t u : State} (h : Keeps s t) (a0 : Cluster) (a1 : CmdSrc) (e : execAbortBurst a0 a1 t = .next u) : Keeps s u := by
  unfold execAbortBurst at e
  try dsimp only at e
  repeat' split at e
  all_goals (cases e; repeat' (first | with_reducible assumption | with_reducible apply issue_keeps | with_reducible apply runAbortBurst_keeps | with_reducible exact Keeps.refl | intro _ | split | dsimp only))

theorem execEngCtxSelWrite_keeps {s t u : State} (h : Keeps s t) (value : Word) (e : execEngCtxSelWrite value t = .next u) : Keeps s u := by
  unfold execEngCtxSelWrite at e
  obtain rfl := Host.Outcome.next.inj e
  exact setF_keeps (setF_keeps (setF_keeps (setB_keeps (setF_keeps (setF_keeps h _ _ _) _ _ _) _ _ _) _ _ _) _ _ _) _ _ _

end Sys2Proof.Machine
end

