-- ==== Sys2Proof/Laws/KeepsMem.lean ====
section
/-! SUPPORT. Sys2Proof/Laws/KeepsMem.lean: what the operations of Machine/Mem.lean keep of a state. -/
namespace Sys2Proof.Machine

theorem freeBytes_keeps {s t : State} (h : Keeps s t) (a0 : Nat) : Keeps s (freeBytes a0 t).2 := by
  unfold freeBytes
  repeat' (first | with_reducible assumption | with_reducible exact Keeps.refl | (with_reducible refine Keeps.upd ?_ (by with_reducible rfl); first | with_reducible assumption | with_reducible exact Keeps.refl | split) | intro _ | split | dsimp only)

theorem freeBytes_keeps_eq {s t u : State} {a0 : Nat} {y0} (h : Keeps s t) (e : freeBytes a0 t = (y0, u)) : Keeps s u := by
  have k := freeBytes_keeps h a0
  rw [e] at k
  exact k

theorem freeWord_keeps {s t : State} (h : Keeps s t)  : Keeps s (freeWord t).2 := by
  unfold freeWord
  repeat' (first | with_reducible assumption | with_reducible exact Keeps.refl | (with_reducible refine Keeps.upd ?_ (by with_reducible rfl); first | with_reducible assumption | with_reducible exact Keeps.refl | split) | intro _ | split | dsimp only)

theorem freeWord_keeps_eq {s t u : State}  {y0} (h : Keeps s t) (e : freeWord t = (y0, u)) : Keeps s u := by
  have k := freeWord_keeps h 
  rw [e] at k
  exact k

theorem leaveOpen_keeps {s t : State} (h : Keeps s t) (a0 : Nat) (a1 : Nat) : Keeps s (leaveOpen a0 a1 t) := by
  unfold leaveOpen
  repeat' (first | with_reducible assumption | with_reducible apply freeBytes_keeps | with_reducible apply busWrite_keeps | (refine freeBytes_keeps_eq ?_ (by assumption)) | with_reducible exact Keeps.refl | intro _ | split | dsimp only)

theorem addConflict_keeps {s t : State} (h : Keeps s t) (a0 : Nat) (a1 : Nat) (a2 : Nat) : Keeps s (addConflict a0 a1 a2 t) := by
  unfold addConflict
  repeat' (first | with_reducible assumption | with_reducible exact Keeps.refl | (with_reducible refine Keeps.upd ?_ (by with_reducible rfl); first | with_reducible assumption | with_reducible exact Keeps.refl | split) | intro _ | split | dsimp only | (with_reducible refine Keeps.updTable ?_ (fun w => by simp only [State.wf, State.hostWf, State.lineWf, State.memWf, State.serviceWf, Bool.and_eq_true] at w ⊢; simp_all only [Map.wf_set, Map.wf_filter, Map.wf_mapVals, Map.wf_nil, and_self]); first | with_reducible assumption | with_reducible exact Keeps.refl | split))

theorem eccSingle_keeps {s t : State} (h : Keeps s t) (a0 : Nat) (a1 : Nat) : Keeps s (eccSingle a0 a1 t) := by
  unfold eccSingle
  repeat' (first | with_reducible assumption | with_reducible apply setF_keeps | with_reducible apply count_keeps | with_reducible exact Keeps.refl | intro _ | split | dsimp only)

theorem eccUncorrectable_keeps {s t : State} (h : Keeps s t) (a0 : Nat) : Keeps s (eccUncorrectable a0 t) := by
  unfold eccUncorrectable
  repeat' (first | with_reducible assumption | with_reducible apply setF_keeps | with_reducible apply diagReport_keeps | with_reducible apply raise_keeps | with_reducible apply count_keeps | with_reducible exact Keeps.refl | intro _ | split | dsimp only)

theorem unperformed_keeps {s t : State} (h : Keeps s t)  : Keeps s (unperformed t) := by
  unfold unperformed
  repeat' (first | with_reducible assumption | with_reducible apply countErr_keeps | with_reducible apply raise_keeps | with_reducible exact Keeps.refl | intro _ | split | dsimp only)

theorem returnBytes_keeps {s t : State} (h : Keeps s t) (a0 : List Byte) : Keeps s (returnBytes a0 t) := by
  unfold returnBytes
  repeat' (first | with_reducible assumption | with_reducible apply emit_keeps | with_reducible exact Keeps.refl | intro _ | split | dsimp only)

theorem collide_keeps {s t : State} (h : Keeps s t) (a0 : Nat) (a1 : Bool) (a2 : Option Collision) : Keeps s (collide a0 a1 a2 t) := by
  unfold collide
  repeat' (first | with_reducible assumption | with_reducible apply addConflict_keeps | with_reducible apply count_keeps | with_reducible apply setBytes_keeps | with_reducible exact Keeps.refl | intro _ | split | dsimp only)

theorem winRead_keeps {s t : State} (h : Keeps s t) (a0 : Nat) (a1 : Nat) (a2 : ReadErr) : Keeps s (winRead a0 a1 a2 t) := by
  unfold winRead
  repeat' (first | with_reducible assumption | with_reducible apply touchArea_keeps | with_reducible apply returnBytes_keeps | with_reducible apply eccSingle_keeps | with_reducible apply freeBytes_keeps | with_reducible apply eccUncorrectable_keeps | (refine freeBytes_keeps_eq ?_ (by assumption)) | with_reducible exact Keeps.refl | intro _ | split | dsimp only)

theorem writeExcept_keeps {s t : State} (h : Keeps s t) (a0 : Nat) (a1 : Nat) (a2 : List Byte) : Keeps s (writeExcept a0 a1 a2 t) := by
  induction a2 generalizing t a0 a1 with
  | nil =>
    unfold writeExcept
    repeat' (first | with_reducible assumption | with_reducible apply ih | with_reducible apply busSet_keeps | with_reducible exact Keeps.refl | intro _ | split | dsimp only)
  | cons _ _ ih =>
    unfold writeExcept
    repeat' (first | with_reducible assumption | with_reducible apply ih | with_reducible apply busSet_keeps | with_reducible exact Keeps.refl | intro _ | split | dsimp only)

theorem winWrite_keeps {s t : State} (h : Keeps s t) (a0 : Nat) (a1 : List Byte) (a2 : ReadErr) : Keeps s (winWrite a0 a1 a2 t) := by
  unfold winWrite
  repeat' (first | with_reducible assumption | with_reducible apply busWrite_keeps | with_reducible apply eccSingle_keeps | with_reducible apply unperformed_keeps | with_reducible apply eccUncorrectable_keeps | with_reducible apply writeExcept_keeps | with_reducible apply touchArea_keeps | with_reducible exact Keeps.refl | intro _ | split | dsimp only)

theorem windowAccess_keeps {s t : State} (h : Keeps s t) (a0 : Nat) (a1 : WinAccess) (a2 : ReadErr) (a3 : Option Collision) (a4 : Nat) : Keeps s (windowAccess a0 a1 a2 a3 a4 t) := by
  unfold windowAccess
  repeat' (first | with_reducible assumption | with_reducible apply returnBytes_keeps | with_reducible apply unperformed_keeps | with_reducible apply collide_keeps | with_reducible apply winRead_keeps | with_reducible apply addConflict_keeps | with_reducible apply winWrite_keeps | with_reducible exact Keeps.refl | intro _ | split | dsimp only)

theorem execWindowAccess_keeps {s t u : State} (h : Keeps s t) (a0 : BitVec 24) (a1 : WinAccess) (a2 : ReadErr) (a3 : Option Collision) (a4 : Nat) (e : execWindowAccess a0 a1 a2 a3 a4 t = .next u) : Keeps s u := by
  unfold execWindowAccess at e
  try dsimp only at e
  repeat' split at e
  all_goals (cases e; repeat' (first | with_reducible assumption | with_reducible apply windowAccess_keeps | with_reducible exact Keeps.refl | intro _ | split | dsimp only))

theorem execWindowGrantTimeout_keeps {s t u : State} (h : Keeps s t) (a0 : WinAccess) (e : execWindowGrantTimeout a0 t = .next u) : Keeps s u := by
  unfold execWindowGrantTimeout at e
  try dsimp only at e
  repeat' split at e
  all_goals (cases e; repeat' (first | with_reducible assumption | with_reducible apply returnBytes_keeps | with_reducible apply unperformed_keeps | with_reducible exact Keeps.refl | intro _ | split | dsimp only))

theorem zeroBank_keeps {s t : State} (h : Keeps s t) (a0 : Nat) : Keeps s (zeroBank a0 t) := by
  unfold zeroBank
  repeat' (first | with_reducible assumption | with_reducible exact Keeps.refl | (with_reducible refine Keeps.upd ?_ (by with_reducible rfl); first | with_reducible assumption | with_reducible exact Keeps.refl | split) | intro _ | split | dsimp only | (with_reducible refine Keeps.updTable ?_ (fun w => by simp only [State.wf, State.hostWf, State.lineWf, State.memWf, State.serviceWf, Bool.and_eq_true] at w ⊢; simp_all only [Map.wf_set, Map.wf_filter, Map.wf_mapVals, Map.wf_nil, and_self]); first | with_reducible assumption | with_reducible exact Keeps.refl | split))

theorem powerTo_keeps {s t : State} (h : Keeps s t) (a0 : Bank) (a1 : Nat) : Keeps s (powerTo a0 a1 t) := by
  unfold powerTo
  repeat' (first | with_reducible assumption | with_reducible apply setBank_keeps | with_reducible apply zeroBank_keeps | with_reducible apply setF_keeps | with_reducible exact Keeps.refl | intro _ | split | dsimp only)

theorem execMembPowerWrite_keeps {s t u : State} (h : Keeps s t) (a0 : Bank) (a1 : Word) (e : execMembPowerWrite a0 a1 t = .next u) : Keeps s u := by
  unfold execMembPowerWrite at e
  try dsimp only at e
  repeat' split at e
  all_goals (cases e; repeat' (first | with_reducible assumption | with_reducible apply countErr_keeps | with_reducible apply raise_keeps | with_reducible apply powerTo_keeps | with_reducible apply setF_keeps | with_reducible exact Keeps.refl | intro _ | split | dsimp only))

theorem execBankRetentionReturn_keeps {s t u : State} (h : Keeps s t) (b : Bank) (e : execBankRetentionReturn b t = .next u) : Keeps s u := by
  unfold execBankRetentionReturn at e
  obtain rfl := Host.Outcome.next.inj e
  split
  · exact setF_keeps h _ _ _
  · exact h

theorem execBankZeroed_keeps {s t u : State} (h : Keeps s t) (a0 : Bank) (e : execBankZeroed a0 t = .next u) : Keeps s u := by
  unfold execBankZeroed at e
  try dsimp only at e
  repeat' split at e
  all_goals (cases e; repeat' (first | with_reducible assumption | with_reducible apply setBank_keeps | with_reducible exact Keeps.refl | intro _ | split | dsimp only))

theorem setSpare_keeps {s t : State} (h : Keeps s t) (a0 : Bank) (a1 : Nat) (a2 : Nat) : Keeps s (setSpare a0 a1 a2 t) := by
  unfold setSpare
  repeat' (first | with_reducible assumption | with_reducible apply setReg_keeps | with_reducible exact Keeps.refl | intro _ | split | dsimp only)

theorem takeSpare_keeps {s t : State} (h : Keeps s t) (a0 : Bank) (a1 : Nat) (a2 : Nat) : Keeps s (takeSpare a0 a1 a2 t) := by
  unfold takeSpare
  repeat' (first | with_reducible assumption | with_reducible apply setSpare_keeps | with_reducible exact Keeps.refl | intro _ | split | dsimp only)

theorem startWalk_keeps {s t : State} (h : Keeps s t) (a0 : Bank) (a1 : Nat) (a2 : Nat) : Keeps s (startWalk a0 a1 a2 t) := by
  unfold startWalk
  repeat' (first | with_reducible assumption | with_reducible apply setBank_keeps | with_reducible exact Keeps.refl | intro _ | split | dsimp only)

theorem autoRepair_keeps {s t : State} (h : Keeps s t) (a0 : Bank) (a1 : Nat) : Keeps s (autoRepair a0 a1 t) := by
  unfold autoRepair
  repeat' (first | with_reducible assumption | with_reducible apply startWalk_keeps | with_reducible apply setFault_keeps | with_reducible apply setF_keeps | with_reducible exact Keeps.refl | intro _ | split | dsimp only)

theorem execSoftRepairWalkEnd_keeps {s t u : State} (h : Keeps s t) (a0 : Bank) (e : execSoftRepairWalkEnd a0 t = .next u) : Keeps s u := by
  unfold execSoftRepairWalkEnd at e
  try dsimp only at e
  repeat' split at e
  all_goals (cases e; repeat' (first | with_reducible assumption | with_reducible apply raise_keeps | with_reducible apply takeSpare_keeps | with_reducible apply setBank_keeps | with_reducible apply complete_keeps | with_reducible exact Keeps.refl | intro _ | split | dsimp only))

theorem runSoftRepair_keeps {s t : State} (h : Keeps s t) (a0 : Bank) (a1 : Outstanding) : Keeps s (runSoftRepair a0 a1 t) := by
  unfold runSoftRepair
  repeat' (first | with_reducible assumption | with_reducible apply done_keeps | with_reducible apply startWalk_keeps | with_reducible exact Keeps.refl | intro _ | split | dsimp only)

theorem execSoftRepair_keeps {s t u : State} (h : Keeps s t) (a0 : Bank) (a1 : CmdSrc) (e : execSoftRepair a0 a1 t = .next u) : Keeps s u := by
  unfold execSoftRepair at e
  try dsimp only at e
  repeat' split at e
  all_goals (cases e; repeat' (first | with_reducible assumption | with_reducible apply issue_keeps | with_reducible apply runSoftRepair_keeps | with_reducible exact Keeps.refl | intro _ | split | dsimp only))

theorem abortSoftRepair_keeps {s t : State} (h : Keeps s t) (a0 : Bank) (a1 : Outstanding) : Keeps s (abortSoftRepair a0 a1 t) := by
  unfold abortSoftRepair
  repeat' (first | with_reducible assumption | with_reducible apply done_keeps | with_reducible apply setBank_keeps | with_reducible exact Keeps.refl | intro _ | split | dsimp only)

theorem execFuseBurnDone_keeps {s t u : State} (h : Keeps s t)  (e : execFuseBurnDone t = .next u) : Keeps s u := by
  unfold execFuseBurnDone at e
  try dsimp only at e
  repeat' split at e
  all_goals (cases e; repeat' (first | with_reducible assumption | with_reducible apply setF_keeps | with_reducible apply raise_keeps | with_reducible apply setB_keeps | with_reducible exact Keeps.refl | (with_reducible refine Keeps.upd ?_ (by with_reducible rfl); first | with_reducible assumption | with_reducible apply setF_keeps | with_reducible apply raise_keeps | with_reducible apply setB_keeps | with_reducible exact Keeps.refl | split) | intro _ | split | dsimp only))

theorem badgerAt_keeps {s t : State} (h : Keeps s t) (a0 : Nat) (a1 : Nat) : Keeps s (badgerAt a0 a1 t) := by
  unfold badgerAt
  repeat' (first | with_reducible assumption | with_reducible apply setF_keeps | with_reducible exact Keeps.refl | (with_reducible refine Keeps.upd ?_ (by with_reducible rfl); first | with_reducible assumption | with_reducible apply setF_keeps | with_reducible exact Keeps.refl | split) | intro _ | split | dsimp only)

theorem badgerRestart_keeps {s t : State} (h : Keeps s t) (a0 : Nat) : Keeps s (badgerRestart a0 t) := by
  unfold badgerRestart
  repeat' (first | with_reducible assumption | with_reducible apply setF_keeps | with_reducible apply badgerAt_keeps | with_reducible exact Keeps.refl | intro _ | split | dsimp only)

theorem badgerNext_keeps {s t : State} (h : Keeps s t)  : Keeps s (badgerNext t) := by
  unfold badgerNext
  repeat' (first | with_reducible assumption | with_reducible apply badgerAt_keeps | with_reducible apply badgerRestart_keeps | with_reducible exact Keeps.refl | intro _ | split | dsimp only)

theorem badgerSeat_keeps {s t : State} (h : Keeps s t)  : Keeps s (badgerSeat t) := by
  unfold badgerSeat
  repeat' (first | with_reducible assumption | with_reducible apply badgerAt_keeps | with_reducible apply badgerRestart_keeps | with_reducible exact Keeps.refl | intro _ | split | dsimp only)

theorem badgerFail_keeps {s t : State} (h : Keeps s t) (a0 : Nat) (a1 : Nat) : Keeps s (badgerFail a0 a1 t) := by
  unfold badgerFail
  repeat' (first | with_reducible assumption | with_reducible apply count_keeps | with_reducible apply setF_keeps | with_reducible apply diagReport_keeps | with_reducible apply raise_keeps | with_reducible apply autoRepair_keeps | with_reducible apply setBank_keeps | with_reducible exact Keeps.refl | intro _ | split | dsimp only)

theorem badgerFind_keeps {s t : State} (h : Keeps s t) (a1 : BadgerFind) : Keeps s (badgerFind t a1) := by
  unfold badgerFind
  repeat' (first | with_reducible assumption | with_reducible apply eccSingle_keeps | with_reducible apply eccUncorrectable_keeps | with_reducible apply badgerFail_keeps | with_reducible exact Keeps.refl | intro _ | split | dsimp only)

theorem badgerFinds_keeps {s t : State} (h : Keeps s t) (a0 : Nat) (a1 : List BadgerFind) : Keeps s (badgerFinds a0 a1 t) := by
  unfold badgerFinds
  repeat' (first | with_reducible assumption | with_reducible apply badgerFind_keeps | with_reducible apply Keeps.foldl | with_reducible exact Keeps.refl | intro _ | split | dsimp only)

theorem execBadgerStripe_keeps {s t u : State} (h : Keeps s t) (a0 : List BadgerFind) (a1 : Nat) (e : execBadgerStripe a0 a1 t = .next u) : Keeps s u := by
  unfold execBadgerStripe at e
  try dsimp only at e
  repeat' split at e
  all_goals (cases e; repeat' (first | with_reducible assumption | with_reducible apply setB_keeps | with_reducible apply badgerSeat_keeps | with_reducible apply badgerNext_keeps | with_reducible apply badgerFinds_keeps | with_reducible apply addConflict_keeps | with_reducible apply countN_keeps | with_reducible exact Keeps.refl | intro _ | split | dsimp only))

theorem execBadgerYield_keeps {s t u : State} (h : Keeps s t) (a0 : Fin 64) (a1 : List BadgerFind) (e : execBadgerYield a0 a1 t = .next u) : Keeps s u := by
  unfold execBadgerYield at e
  try dsimp only at e
  repeat' split at e
  all_goals (cases e; repeat' (first | with_reducible assumption | with_reducible apply setB_keeps | with_reducible apply badgerSeat_keeps | with_reducible apply count_keeps | with_reducible apply badgerFinds_keeps | with_reducible apply badgerNext_keeps | with_reducible apply raise_keeps | with_reducible exact Keeps.refl | (with_reducible refine Keeps.upd ?_ (by with_reducible rfl); first | with_reducible assumption | with_reducible apply setB_keeps | with_reducible apply badgerSeat_keeps | with_reducible apply count_keeps | with_reducible apply badgerFinds_keeps | with_reducible apply badgerNext_keeps | with_reducible apply raise_keeps | with_reducible exact Keeps.refl | split) | intro _ | split | dsimp only))

theorem execMemCntSelWrite_keeps {s t u : State} (h : Keeps s t) (a0 : Word) (e : execMemCntSelWrite a0 t = .next u) : Keeps s u := by
  unfold execMemCntSelWrite at e
  try dsimp only at e
  repeat' split at e
  all_goals (cases e; repeat' (first | with_reducible assumption | with_reducible apply countErr_keeps | with_reducible apply setF_keeps | with_reducible exact Keeps.refl | intro _ | split | dsimp only))

theorem clearConflicts_keeps {s t : State} (h : Keeps s t)  : Keeps s (clearConflicts t) := by
  unfold clearConflicts
  repeat' (first | with_reducible assumption | with_reducible exact Keeps.refl | (with_reducible refine Keeps.upd ?_ (by with_reducible rfl); first | with_reducible assumption | with_reducible exact Keeps.refl | split) | intro _ | split | dsimp only | (with_reducible refine Keeps.updTable ?_ (fun w => by simp only [State.wf, State.hostWf, State.lineWf, State.memWf, State.serviceWf, Bool.and_eq_true] at w ⊢; simp_all only [Map.wf_set, Map.wf_filter, Map.wf_mapVals, Map.wf_nil, and_self]); first | with_reducible assumption | with_reducible exact Keeps.refl | split))

theorem execClearConflicts_keeps {s t u : State} (h : Keeps s t) (a0 : CmdSrc) (e : execClearConflicts a0 t = .next u) : Keeps s u := by
  unfold execClearConflicts at e
  try dsimp only at e
  repeat' split at e
  all_goals (cases e; repeat' (first | with_reducible assumption | with_reducible apply issue_keeps | with_reducible apply done_keeps | with_reducible apply clearConflicts_keeps | with_reducible exact Keeps.refl | intro _ | split | dsimp only))

theorem marchBank_keeps {s t : State} (h : Keeps s t) (a0 : Bank) (a1 : List Nat) : Keeps s (marchBank a0 a1 t).2 := by
  induction a1 generalizing t a0 with
  | nil =>
    unfold marchBank
    repeat' (first | with_reducible assumption | with_reducible apply ih | with_reducible apply zeroBank_keeps | with_reducible apply takeSpare_keeps | with_reducible apply setFault_keeps | with_reducible apply setF_keeps | with_reducible exact Keeps.refl | intro _ | split | dsimp only)
  | cons _ _ ih =>
    unfold marchBank
    repeat' (first | with_reducible assumption | with_reducible apply ih | with_reducible apply zeroBank_keeps | with_reducible apply takeSpare_keeps | with_reducible apply setFault_keeps | with_reducible apply setF_keeps | with_reducible exact Keeps.refl | intro _ | split | dsimp only)

theorem marchBank_keeps_eq {s t u : State} {a0 : Bank} {a1 : List Nat} {y0} (h : Keeps s t) (e : marchBank a0 a1 t = (y0, u)) : Keeps s u := by
  have k := marchBank_keeps h a0 a1
  rw [e] at k
  exact k

theorem runTestBank_keeps {s t : State} (h : Keeps s t) (a0 : Outstanding) : Keeps s (runTestBank a0 t) := by
  unfold runTestBank
  repeat' (first | with_reducible assumption | with_reducible apply done_keeps | with_reducible exact Keeps.refl | intro _ | split | dsimp only)

theorem execTestBank_keeps {s t u : State} (h : Keeps s t) (a0 : CmdSrc) (e : execTestBank a0 t = .next u) : Keeps s u := by
  unfold execTestBank at e
  try dsimp only at e
  repeat' split at e
  all_goals (cases e; repeat' (first | with_reducible assumption | with_reducible apply issue_keeps | with_reducible apply runTestBank_keeps | with_reducible exact Keeps.refl | intro _ | split | dsimp only))

theorem finishTestBank_keeps {s t : State} (h : Keeps s t) (a0 : List (Fin 72)) (a1 : Outstanding) : Keeps s (finishTestBank a0 a1 t) := by
  unfold finishTestBank
  repeat' (first | with_reducible assumption | with_reducible apply marchBank_keeps | with_reducible apply done_keeps | (refine marchBank_keeps_eq ?_ (by assumption)) | with_reducible exact Keeps.refl | intro _ | split | dsimp only)

theorem spoilBank_keeps {s t : State} (h : Keeps s t) (a0 : Nat) : Keeps s (spoilBank a0 t) := by
  unfold spoilBank
  repeat' (first | with_reducible assumption | with_reducible apply freeBytes_keeps | with_reducible apply setBytes_keeps | (refine freeBytes_keeps_eq ?_ (by assumption)) | with_reducible exact Keeps.refl | intro _ | split | dsimp only)

theorem spoilTest_keeps {s t : State} (h : Keeps s t) (a0 : Outstanding) : Keeps s (spoilTest a0 t) := by
  unfold spoilTest
  repeat' (first | with_reducible assumption | with_reducible apply spoilBank_keeps | with_reducible exact Keeps.refl | intro _ | split | dsimp only)

theorem execMemGlobalBlkReset_keeps {s t u : State} (h : Keeps s t)  (e : execMemGlobalBlkReset t = .next u) : Keeps s u := by
  unfold execMemGlobalBlkReset at e
  try dsimp only at e
  repeat' split at e
  all_goals (cases e; repeat' (first | with_reducible assumption | with_reducible apply spoilTest_keeps | with_reducible apply badgerRestart_keeps | with_reducible apply blkReset_keeps | with_reducible apply clearConflicts_keeps | with_reducible exact Keeps.refl | intro _ | split | dsimp only))

theorem execMembBlkReset_keeps {s t u : State} (h : Keeps s t) (a0 : Bank) (e : execMembBlkReset a0 t = .next u) : Keeps s u := by
  unfold execMembBlkReset at e
  try dsimp only at e
  repeat' split at e
  all_goals (cases e; repeat' (first | with_reducible assumption | with_reducible apply blkReset_keeps | with_reducible exact Keeps.refl | intro _ | split | dsimp only))

end Sys2Proof.Machine
end

