-- ==== Sys2Proof/Laws/KeepsNarrow.lean ====
section
/-! SUPPORT. Sys2Proof/Laws/KeepsNarrow.lean: what the operations of Machine/Narrow.lean keep of a state. -/
namespace Sys2Proof.Machine

theorem nbPending_keeps {s t : State} (h : Keeps s t)  : Keeps s (nbPending t) := by
  unfold nbPending
  repeat' (first | with_reducible assumption | with_reducible apply setB_keeps | with_reducible exact Keeps.refl | intro _ | split | dsimp only)

theorem nbFix_keeps {s t : State} (h : Keeps s t)  : Keeps s (nbFix t) := by
  unfold nbFix
  repeat' (first | with_reducible assumption | with_reducible exact Keeps.refl | (with_reducible refine Keeps.upd ?_ (by with_reducible rfl); first | with_reducible assumption | with_reducible exact Keeps.refl | split) | intro _ | split | dsimp only)

theorem nbApply_keeps {s t : State} (h : Keeps s t) (a0 : Word) (a1 : Word) : Keeps s (nbApply a0 a1 t) := by
  unfold nbApply
  repeat' (first | with_reducible assumption | with_reducible apply setB_keeps | with_reducible apply raise_keeps | with_reducible exact Keeps.refl | (with_reducible refine Keeps.upd ?_ (by with_reducible rfl); first | with_reducible assumption | with_reducible apply setB_keeps | with_reducible apply raise_keeps | with_reducible exact Keeps.refl | split) | intro _ | split | dsimp only)

theorem nbBoundary_keeps {s t : State} (h : Keeps s t) (a0 : Nat) : Keeps s (nbBoundary a0 t) := by
  unfold nbBoundary
  repeat' (first | with_reducible assumption | with_reducible apply endTx_keeps | with_reducible apply nbApply_keeps | with_reducible apply nbPending_keeps | with_reducible exact Keeps.refl | (with_reducible refine Keeps.upd ?_ (by with_reducible rfl); first | with_reducible assumption | with_reducible apply endTx_keeps | with_reducible apply nbApply_keeps | with_reducible apply nbPending_keeps | with_reducible exact Keeps.refl | split) | intro _ | split | dsimp only)

theorem nbSync_keeps {s t : State} (h : Keeps s t) (a0 : Nat) (a1 : Nat) (a2 : Nat) (a3 : Nat) (a4 : Bool) (a5 : Bool) (a6 : Nat) : Keeps s (nbSync a0 a1 a2 a3 a4 a5 a6 t) := by
  unfold nbSync
  repeat' (first | with_reducible assumption | with_reducible apply count_keeps | with_reducible apply openRx_keeps | with_reducible exact Keeps.refl | intro _ | split | dsimp only)

theorem execNbSyncDetect_keeps {s t u : State} (h : Keeps s t) (a0 : Port) (a1 : Fin 64) (a2 : BitVec 8) (a3 : Fin 3) (a4 : Bool) (a5 : Bool) (a6 : Fin 209715200) (e : execNbSyncDetect a0 a1 a2 a3 a4 a5 a6 t = .next u) : Keeps s u := by
  unfold execNbSyncDetect at e
  try dsimp only at e
  repeat' split at e
  all_goals (cases e; repeat' (first | with_reducible assumption | with_reducible apply nbSync_keeps | with_reducible exact Keeps.refl | intro _ | split | dsimp only))

theorem hearBeacon_keeps {s t : State} (h : Keeps s t) (a0 : Nat) (a1 : Nat) (a2 : Nat) : Keeps s (hearBeacon a0 a1 a2 t) := by
  unfold hearBeacon
  repeat' (first | with_reducible assumption | with_reducible exact Keeps.refl | (with_reducible refine Keeps.upd ?_ (by with_reducible rfl); first | with_reducible assumption | with_reducible exact Keeps.refl | split) | intro _ | split | dsimp only)

theorem nbHeaderDecoded_keeps {s t : State} (h : Keeps s t) (a0 : Nat) (a1 : List Byte) : Keeps s (nbHeaderDecoded a0 a1 t) := by
  unfold nbHeaderDecoded
  repeat' (first | with_reducible assumption | with_reducible apply hearBeacon_keeps | with_reducible apply pushWord_keeps | with_reducible apply setBurst_keeps | with_reducible apply completeBurst_keeps | with_reducible apply raise_keeps | with_reducible apply count_keeps | with_reducible exact Keeps.refl | intro _ | split | dsimp only)

theorem nbDecoded_keeps {s t : State} (h : Keeps s t) (a0 : Bool) : Keeps s (nbDecoded a0 t).2 := by
  unfold nbDecoded
  repeat' (first | with_reducible assumption | with_reducible apply count_keeps | with_reducible apply raise_keeps | with_reducible exact Keeps.refl | intro _ | split | dsimp only)

theorem nbDecoded_keeps_eq {s t u : State} {a0 : Bool} {y0} (h : Keeps s t) (e : nbDecoded a0 t = (y0, u)) : Keeps s u := by
  have k := nbDecoded_keeps h a0
  rw [e] at k
  exact k

theorem abortWave_keeps {s t : State} (h : Keeps s t) (a0 : Wave) : Keeps s (abortWave a0 t) := by
  unfold abortWave
  repeat' (first | with_reducible assumption | with_reducible apply completeAll_keeps | with_reducible apply endTx_keeps | with_reducible exact Keeps.refl | intro _ | split | dsimp only)

theorem execNbwBlkReset_keeps {s t u : State} (h : Keeps s t)  (e : execNbwBlkReset  t = .next u) : Keeps s u := by
  unfold execNbwBlkReset at e
  obtain rfl := Host.Outcome.next.inj e
  refine nbPending_keeps ?_
  exact Keeps.upd (blkReset_keeps (abortWave_keeps h _) _ _) rfl

theorem freeEncode_keeps {s t : State} (h : Keeps s t) (a0 : Outstanding) : Keeps s (freeEncode a0 t) := by
  unfold freeEncode
  repeat' (first | with_reducible assumption | with_reducible apply setRole_keeps | with_reducible exact Keeps.refl | intro _ | split | dsimp only)

theorem takeEncode_keeps {s t : State} (h : Keeps s t) (a0 : Page) : Keeps s (takeEncode a0 t) := by
  unfold takeEncode
  repeat' (first | with_reducible assumption | with_reducible apply done_keeps | with_reducible apply setPhase_keeps | with_reducible apply setRole_keeps | with_reducible exact Keeps.refl | intro _ | split | dsimp only)

theorem runEncodeFrame_keeps {s t : State} (h : Keeps s t) (a0 : Outstanding) : Keeps s (runEncodeFrame a0 t) := by
  unfold runEncodeFrame
  repeat' (first | with_reducible assumption | with_reducible apply touchArea_keeps | with_reducible apply takeEncode_keeps | with_reducible apply done_keeps | with_reducible exact Keeps.refl | intro _ | split | dsimp only)

theorem execEncodeFrame_keeps {s t u : State} (h : Keeps s t) (a0 : CmdSrc) (e : execEncodeFrame a0 t = .next u) : Keeps s u := by
  unfold execEncodeFrame at e
  try dsimp only at e
  repeat' split at e
  all_goals (cases e; repeat' (first | with_reducible assumption | with_reducible apply issue_keeps | with_reducible apply runEncodeFrame_keeps | with_reducible exact Keeps.refl | intro _ | split | dsimp only))

theorem finishEncodeFrame_keeps {s t : State} (h : Keeps s t) (a0 : Outstanding) : Keeps s (finishEncodeFrame a0 t) := by
  unfold finishEncodeFrame
  repeat' (first | with_reducible assumption | with_reducible apply touchArea_keeps | with_reducible apply freeEncode_keeps | with_reducible apply done_keeps | with_reducible apply setF_keeps | with_reducible apply busWrite_keeps | with_reducible exact Keeps.refl | intro _ | split | dsimp only)

theorem abortEncodeFrame_keeps {s t : State} (h : Keeps s t) (a0 : Outstanding) : Keeps s (abortEncodeFrame a0 t) := by
  unfold abortEncodeFrame
  repeat' (first | with_reducible assumption | with_reducible apply done_keeps | with_reducible apply leaveOpen_keeps | with_reducible apply freeEncode_keeps | with_reducible exact Keeps.refl | intro _ | split | dsimp only)

end Sys2Proof.Machine
end

