-- ==== Sys2Proof/Laws/KeepsBroad.lean ====
section
/-! SUPPORT. Sys2Proof/Laws/KeepsBroad.lean: what the operations of Machine/Broad.lean keep of a state. -/
namespace Sys2Proof.Machine

theorem bbPending_keeps {s t : State} (h : Keeps s t)  : Keeps s (bbPending t) := by
  unfold bbPending
  repeat' (first | with_reducible assumption | with_reducible apply setB_keeps | with_reducible exact Keeps.refl | intro _ | split | dsimp only)

theorem bbFix_keeps {s t : State} (h : Keeps s t)  : Keeps s (bbFix t) := by
  unfold bbFix
  repeat' (first | with_reducible assumption | with_reducible exact Keeps.refl | (with_reducible refine Keeps.upd ?_ (by with_reducible rfl); first | with_reducible assumption | with_reducible exact Keeps.refl | split) | intro _ | split | dsimp only)

theorem bbBoundary_keeps {s t : State} (h : Keeps s t) (a0 : Nat) : Keeps s (bbBoundary a0 t) := by
  unfold bbBoundary
  repeat' (first | with_reducible assumption | with_reducible apply endTx_keeps | with_reducible apply raise_keeps | with_reducible apply setB_keeps | with_reducible apply bbPending_keeps | with_reducible exact Keeps.refl | (with_reducible refine Keeps.upd ?_ (by with_reducible rfl); first | with_reducible assumption | with_reducible apply endTx_keeps | with_reducible apply raise_keeps | with_reducible apply setB_keeps | with_reducible apply bbPending_keeps | with_reducible exact Keeps.refl | split) | intro _ | split | dsimp only)

theorem bbNotches_keeps {s t : State} (h : Keeps s t) (a0 : List Notch) : Keeps s (bbNotches a0 t) := by
  unfold bbNotches
  repeat' (first | with_reducible assumption | with_reducible apply raise_keeps | with_reducible apply setB_keeps | with_reducible exact Keeps.refl | (with_reducible refine Keeps.upd ?_ (by with_reducible rfl); first | with_reducible assumption | with_reducible apply raise_keeps | with_reducible apply setB_keeps | with_reducible exact Keeps.refl | split) | intro _ | split | dsimp only)

theorem dynDetect_keeps {s t : State} (h : Keeps s t) (a0 : Nat) (a1 : Nat) (a2 : Nat) (a3 : Nat) : Keeps s (dynDetect a0 a1 a2 a3 t) := by
  unfold dynDetect
  repeat' (first | with_reducible assumption | with_reducible apply bbNotches_keeps | with_reducible exact Keeps.refl | (with_reducible refine Keeps.upd ?_ (by with_reducible rfl); first | with_reducible assumption | with_reducible apply bbNotches_keeps | with_reducible exact Keeps.refl | split) | intro _ | split | dsimp only)

theorem execDynNotchDetect_keeps {s t u : State} (h : Keeps s t) (a0 : Port) (a1 : Fin 1725) (a2 : BitVec 8) (a3 : BitVec 8) (e : execDynNotchDetect a0 a1 a2 a3 t = .next u) : Keeps s u := by
  unfold execDynNotchDetect at e
  try dsimp only at e
  repeat' split at e
  all_goals (cases e; repeat' (first | with_reducible assumption | with_reducible apply dynDetect_keeps | with_reducible exact Keeps.refl | intro _ | split | dsimp only))

theorem dynLift_keeps {s t : State} (h : Keeps s t) (a0 : Nat) (a1 : Nat) : Keeps s (dynLift a0 a1 t) := by
  unfold dynLift
  repeat' (first | with_reducible assumption | with_reducible apply bbNotches_keeps | with_reducible exact Keeps.refl | intro _ | split | dsimp only)

theorem execDynNotchLift_keeps {s t u : State} (h : Keeps s t) (a0 : Port) (a1 : Fin 1725) (e : execDynNotchLift a0 a1 t = .next u) : Keeps s u := by
  unfold execDynNotchLift at e
  try dsimp only at e
  repeat' split at e
  all_goals (cases e; repeat' (first | with_reducible assumption | with_reducible apply dynLift_keeps | with_reducible exact Keeps.refl | intro _ | split | dsimp only))

theorem tmapCount_keeps {s t : State} (h : Keeps s t)  : Keeps s (tmapCount t) := by
  unfold tmapCount
  repeat' (first | with_reducible assumption | with_reducible apply setB_keeps | with_reducible apply setF_keeps | with_reducible exact Keeps.refl | intro _ | split | dsimp only)

theorem putMap_keeps {s t : State} (h : Keeps s t) (a0 : TmapEntry) : Keeps s (putMap a0 t) := by
  unfold putMap
  repeat' (first | with_reducible assumption | with_reducible apply tmapCount_keeps | with_reducible apply raise_keeps | with_reducible exact Keeps.refl | (with_reducible refine Keeps.upd ?_ (by with_reducible rfl); first | with_reducible assumption | with_reducible apply tmapCount_keeps | with_reducible apply raise_keeps | with_reducible exact Keeps.refl | split) | intro _ | split | dsimp only)

theorem freeMaps_keeps {s t : State} (h : Keeps s t) (a0 : Nat) : Keeps s (freeMaps a0 t) := by
  unfold freeMaps
  repeat' (first | with_reducible assumption | with_reducible apply tmapCount_keeps | with_reducible exact Keeps.refl | (with_reducible refine Keeps.upd ?_ (by with_reducible rfl); first | with_reducible assumption | with_reducible apply tmapCount_keeps | with_reducible exact Keeps.refl | split) | intro _ | split | dsimp only | (with_reducible refine Keeps.updTable ?_ (fun w => by simp only [State.wf, State.hostWf, State.lineWf, State.memWf, State.serviceWf, Bool.and_eq_true] at w ⊢; simp_all only [Map.wf_set, Map.wf_filter, Map.wf_mapVals, Map.wf_nil, and_self]); first | with_reducible assumption | with_reducible apply tmapCount_keeps | with_reducible exact Keeps.refl | split))

theorem dropPrevious_keeps {s t : State} (h : Keeps s t) (a0 : Nat) : Keeps s (dropPrevious a0 t) := by
  unfold dropPrevious
  repeat' (first | with_reducible assumption | with_reducible apply putMap_keeps | with_reducible exact Keeps.refl | intro _ | split | dsimp only)

theorem execTmapPreviousExpiry_keeps {s t u : State} (h : Keeps s t) (a0 : CtxIndex) (e : execTmapPreviousExpiry a0 t = .next u) : Keeps s u := by
  unfold execTmapPreviousExpiry at e
  try dsimp only at e
  repeat' split at e
  all_goals (cases e; repeat' (first | with_reducible assumption | with_reducible apply dropPrevious_keeps | with_reducible exact Keeps.refl | intro _ | split | dsimp only))

theorem bbDetect_keeps {s t : State} (h : Keeps s t) (a0 : Nat) (a1 : Nat) (a2 : Nat) (a3 : Nat) (a4 : Nat) : Keeps s (bbDetect a0 a1 a2 a3 a4 t) := by
  unfold bbDetect
  repeat' (first | with_reducible assumption | with_reducible apply count_keeps | with_reducible apply openRx_keeps | with_reducible exact Keeps.refl | intro _ | split | dsimp only)

theorem execBbDetect_keeps {s t u : State} (h : Keeps s t) (a0 : Port) (a1 : Fin 27) (a2 : Fin 27) (a3 : BitVec 8) (a4 : Fin 209715200) (e : execBbDetect a0 a1 a2 a3 a4 t = .next u) : Keeps s u := by
  unfold execBbDetect at e
  try dsimp only at e
  repeat' split at e
  all_goals (cases e; repeat' (first | with_reducible assumption | with_reducible apply bbDetect_keeps | with_reducible exact Keeps.refl | intro _ | split | dsimp only))

theorem bbHeaderDecoded_keeps {s t : State} (h : Keeps s t) (a0 : Nat) (a1 : List Byte) : Keeps s (bbHeaderDecoded a0 a1 t) := by
  unfold bbHeaderDecoded
  repeat' (first | with_reducible assumption | with_reducible apply hearBeacon_keeps | with_reducible apply pushWord_keeps | with_reducible apply setBurst_keeps | with_reducible apply completeBurst_keeps | with_reducible apply raise_keeps | with_reducible apply count_keeps | with_reducible exact Keeps.refl | intro _ | split | dsimp only)

theorem execBbHeaderDecoded_keeps {s t u : State} (h : Keeps s t) (a0 : BurstId) (a1 : BitVec 96) (e : execBbHeaderDecoded a0 a1 t = .next u) : Keeps s u := by
  unfold execBbHeaderDecoded at e
  try dsimp only at e
  repeat' split at e
  all_goals (cases e; repeat' (first | with_reducible assumption | with_reducible apply bbHeaderDecoded_keeps | with_reducible exact Keeps.refl | intro _ | split | dsimp only))

theorem bbDecoded_keeps {s t : State} (h : Keeps s t) (a0 : Bool) (a1 : Nat) : Keeps s (bbDecoded a0 a1 t).2 := by
  unfold bbDecoded
  repeat' (first | with_reducible assumption | with_reducible apply countN_keeps | with_reducible apply count_keeps | with_reducible apply raise_keeps | with_reducible exact Keeps.refl | intro _ | split | dsimp only)

theorem bbDecoded_keeps_eq {s t u : State} {a0 : Bool} {a1 : Nat} {y0} (h : Keeps s t) (e : bbDecoded a0 a1 t = (y0, u)) : Keeps s u := by
  have k := bbDecoded_keeps h a0 a1
  rw [e] at k
  exact k

theorem noteOffset_keeps {s t : State} (h : Keeps s t) (a0 : Nat) (a1 : Int) : Keeps s (noteOffset a0 a1 t) := by
  unfold noteOffset
  repeat' (first | with_reducible assumption | with_reducible exact Keeps.refl | (with_reducible refine Keeps.upd ?_ (by with_reducible rfl); first | with_reducible assumption | with_reducible exact Keeps.refl | split) | intro _ | split | dsimp only | (with_reducible refine Keeps.updTable ?_ (fun w => by simp only [State.wf, State.hostWf, State.lineWf, State.memWf, State.serviceWf, Bool.and_eq_true] at w ⊢; simp_all only [Map.wf_set, Map.wf_filter, Map.wf_mapVals, Map.wf_nil, and_self]); first | with_reducible assumption | with_reducible exact Keeps.refl | split))

theorem takeTadj_keeps {s t : State} (h : Keeps s t) (a0 : Nat) : Keeps s (takeTadj a0 t).2 := by
  unfold takeTadj
  repeat' (first | with_reducible assumption | with_reducible apply count_keeps | with_reducible exact Keeps.refl | (with_reducible refine Keeps.upd ?_ (by with_reducible rfl); first | with_reducible assumption | with_reducible apply count_keeps | with_reducible exact Keeps.refl | split) | intro _ | split | dsimp only | (with_reducible refine Keeps.updTable ?_ (fun w => by simp only [State.wf, State.hostWf, State.lineWf, State.memWf, State.serviceWf, Bool.and_eq_true] at w ⊢; simp_all only [Map.wf_set, Map.wf_filter, Map.wf_mapVals, Map.wf_nil, and_self]); first | with_reducible assumption | with_reducible apply count_keeps | with_reducible exact Keeps.refl | split))

theorem takeTadj_keeps_eq {s t u : State} {a0 : Nat} {y0} (h : Keeps s t) (e : takeTadj a0 t = (y0, u)) : Keeps s u := by
  have k := takeTadj_keeps h a0
  rw [e] at k
  exact k

theorem execBbwBlkReset_keeps {s t u : State} (h : Keeps s t)  (e : execBbwBlkReset  t = .next u) : Keeps s u := by
  unfold execBbwBlkReset at e
  obtain rfl := Host.Outcome.next.inj e
  refine bbPending_keeps ?_
  exact Keeps.upd (blkReset_keeps (setF_keeps (abortWave_keeps h _) _ _ _) _ _) rfl

theorem runEncodeBurst_keeps {s t : State} (h : Keeps s t) (a0 : Outstanding) : Keeps s (runEncodeBurst a0 t) := by
  unfold runEncodeBurst
  repeat' (first | with_reducible assumption | with_reducible apply touchArea_keeps | with_reducible apply takeEncode_keeps | with_reducible apply done_keeps | with_reducible exact Keeps.refl | intro _ | split | dsimp only)

theorem execEncodeBurst_keeps {s t u : State} (h : Keeps s t) (a0 : CmdSrc) (e : execEncodeBurst a0 t = .next u) : Keeps s u := by
  unfold execEncodeBurst at e
  try dsimp only at e
  repeat' split at e
  all_goals (cases e; repeat' (first | with_reducible assumption | with_reducible apply issue_keeps | with_reducible apply runEncodeBurst_keeps | with_reducible exact Keeps.refl | intro _ | split | dsimp only))

theorem finishEncodeBurst_keeps {s t : State} (h : Keeps s t) (a0 : Outstanding) : Keeps s (finishEncodeBurst a0 t) := by
  unfold finishEncodeBurst
  repeat' (first | with_reducible assumption | with_reducible apply touchArea_keeps | with_reducible apply freeEncode_keeps | with_reducible apply done_keeps | with_reducible apply setF_keeps | with_reducible apply busWriteWords_keeps | with_reducible exact Keeps.refl | intro _ | split | dsimp only)

theorem abortEncodeBurst_keeps {s t : State} (h : Keeps s t) (a0 : Outstanding) : Keeps s (abortEncodeBurst a0 t) := by
  unfold abortEncodeBurst
  repeat' (first | with_reducible assumption | with_reducible apply done_keeps | with_reducible apply leaveOpen_keeps | with_reducible apply freeEncode_keeps | with_reducible exact Keeps.refl | intro _ | split | dsimp only)

theorem runReadDyn_keeps {s t : State} (h : Keeps s t) (a0 : Outstanding) : Keeps s (runReadDyn a0 t) := by
  unfold runReadDyn
  repeat' (first | with_reducible assumption | with_reducible apply done_keeps | with_reducible apply busWriteWords_keeps | with_reducible exact Keeps.refl | intro _ | split | dsimp only)

theorem execReadDyn_keeps {s t u : State} (h : Keeps s t) (a0 : CmdSrc) (e : execReadDyn a0 t = .next u) : Keeps s u := by
  unfold execReadDyn at e
  try dsimp only at e
  repeat' split at e
  all_goals (cases e; repeat' (first | with_reducible assumption | with_reducible apply issue_keeps | with_reducible apply runReadDyn_keeps | with_reducible exact Keeps.refl | intro _ | split | dsimp only))

end Sys2Proof.Machine
end

