-- ==== Sys2Proof/Laws/KeepsTable.lean ====
section
/-! SUPPORT. Sys2Proof/Laws/KeepsTable.lean: what the operations of Machine/Table.lean keep of a state. -/
namespace Sys2Proof.Machine

theorem sendMirror_keeps {s t : State} (h : Keeps s t) (a0 : MirrorBody) : Keeps s (sendMirror a0 t) := by
  unfold sendMirror
  repeat' (first | with_reducible assumption | with_reducible apply count_keeps | with_reducible apply emit_keeps | with_reducible apply Keeps.foldl | with_reducible exact Keeps.refl | (with_reducible refine Keeps.upd ?_ (by with_reducible rfl); first | with_reducible assumption | with_reducible apply count_keeps | with_reducible apply emit_keeps | with_reducible apply Keeps.foldl | with_reducible exact Keeps.refl | split) | intro _ | split | dsimp only)

theorem mirrorDelta_keeps {s t : State} (h : Keeps s t) (a0 : MirrorBody) : Keeps s (mirrorDelta a0 t) := by
  unfold mirrorDelta
  repeat' (first | with_reducible assumption | with_reducible apply sendMirror_keeps | with_reducible apply count_keeps | with_reducible exact Keeps.refl | intro _ | split | dsimp only)

theorem ctxDelta_keeps {s t : State} (h : Keeps s t) (a0 : Nat) (a2 : Ctx) : Keeps s (ctxDelta a0 t a2) := by
  unfold ctxDelta
  repeat' (first | with_reducible assumption | with_reducible apply mirrorDelta_keeps | with_reducible exact Keeps.refl | intro _ | split | dsimp only)

theorem setMac_keeps {s t : State} (h : Keeps s t) (m : MacSt) (h1 : s.wf = true → Map.wf (fun _ => Assoc.free) m.table = true)
    (h2 : s.wf = true → Map.wf (fun _ => Ctx.zero) m.parked = true) (h3 : s.wf = true → Map.wf (fun _ => Relay.clear) m.relays = true)
    (h4 : s.wf = true → Map.wf (fun _ => []) m.cache = true) : Keeps s (setMac m t) := by
  refine ⟨h.pending, h.emits, h.draws, fun w => ?_⟩
  have k := h.wf w
  unfold setMac
  simp only [Bool.and_eq_true] at k ⊢
  simp only [k, h1 w, h2 w, h3 w, h4 w, and_self]

/-- The tables of the associations of a state that keeps another's form. -/
theorem Keeps.macTable {s t : State} (h : Keeps s t) (w : s.wf = true) : Map.wf (fun _ => Assoc.free) t.mac.table = true := by
  have k := h.wf w
  simp only [Bool.and_eq_true] at k
  simp only [k]

theorem Keeps.macParked {s t : State} (h : Keeps s t) (w : s.wf = true) : Map.wf (fun _ => Ctx.zero) t.mac.parked = true := by
  have k := h.wf w
  simp only [Bool.and_eq_true] at k
  simp only [k]

theorem Keeps.macRelays {s t : State} (h : Keeps s t) (w : s.wf = true) : Map.wf (fun _ => Relay.clear) t.mac.relays = true := by
  have k := h.wf w
  simp only [Bool.and_eq_true] at k
  simp only [k]

theorem Keeps.macCache {s t : State} (h : Keeps s t) (w : s.wf = true) : Map.wf (fun _ => []) t.mac.cache = true := by
  have k := h.wf w
  simp only [Bool.and_eq_true] at k
  simp only [k]

theorem refreshTable_keeps {s t : State} (h : Keeps s t)  : Keeps s (refreshTable t) := by
  unfold refreshTable
  repeat' (first | with_reducible assumption | with_reducible apply setF_keeps | with_reducible apply raise_keeps | with_reducible apply setB_keeps | with_reducible exact Keeps.refl | intro _ | split | dsimp only)

theorem setAssoc_keeps {s t : State} (h : Keeps s t) (a0 : Nat) (a1 : Assoc) : Keeps s (setAssoc a0 a1 t) := by
  unfold setAssoc
  repeat' (first | with_reducible assumption | with_reducible apply setMac_keeps | with_reducible apply refreshTable_keeps | with_reducible apply ctxDelta_keeps | with_reducible apply Keeps.macTable | with_reducible apply Keeps.macParked | with_reducible apply Keeps.macRelays | with_reducible apply Keeps.macCache | with_reducible apply Map.wf_set | with_reducible apply Map.wf_filter | with_reducible exact Map.wf_nil | with_reducible exact Keeps.refl | intro _ | split | dsimp only)

theorem setCtx_keeps {s t : State} (h : Keeps s t) (a0 : Nat) (a1 : Ctx) : Keeps s (setCtx a0 a1 t) := by
  unfold setCtx
  repeat' (first | with_reducible assumption | with_reducible apply setAssoc_keeps | with_reducible exact Keeps.refl | intro _ | split | dsimp only)

theorem setParked_keeps {s t : State} (h : Keeps s t) (a0 : Nat) (a1 : Ctx) : Keeps s (setParked a0 a1 t) := by
  unfold setParked
  repeat' (first | with_reducible assumption | with_reducible apply setMac_keeps | with_reducible apply setB_keeps | with_reducible apply setF_keeps | with_reducible apply Keeps.macTable | with_reducible apply Keeps.macParked | with_reducible apply Keeps.macRelays | with_reducible apply Keeps.macCache | with_reducible apply Map.wf_set | with_reducible apply Map.wf_filter | with_reducible exact Map.wf_nil | with_reducible exact Keeps.refl | intro _ | split | dsimp only)

theorem setRelay_keeps {s t : State} (h : Keeps s t) (a0 : Nat) (a1 : Relay) : Keeps s (setRelay a0 a1 t) := by
  unfold setRelay
  repeat' (first | with_reducible assumption | with_reducible apply mirrorDelta_keeps | with_reducible apply setMac_keeps | with_reducible apply Keeps.macTable | with_reducible apply Keeps.macParked | with_reducible apply Keeps.macRelays | with_reducible apply Keeps.macCache | with_reducible apply Map.wf_set | with_reducible apply Map.wf_filter | with_reducible exact Map.wf_nil | with_reducible exact Keeps.refl | intro _ | split | dsimp only)

theorem setRoute_keeps {s t : State} (h : Keeps s t) (a0 : Nat) (a1 : Option (Bool × Nat)) : Keeps s (setRoute a0 a1 t) := by
  unfold setRoute
  repeat' (first | with_reducible assumption | with_reducible apply mirrorDelta_keeps | with_reducible apply setMac_keeps | with_reducible apply Keeps.macTable | with_reducible apply Keeps.macParked | with_reducible apply Keeps.macRelays | with_reducible apply Keeps.macCache | with_reducible apply Map.wf_set | with_reducible apply Map.wf_filter | with_reducible exact Map.wf_nil | with_reducible exact Keeps.refl | intro _ | split | dsimp only)

end Sys2Proof.Machine
end

