-- ==== Sys2Proof/Laws/KeepsCipOps.lean ====
section
/-! SUPPORT. Sys2Proof/Laws/KeepsCipOps.lean: what the operations of Machine/CipOps.lean keep of a state. -/
namespace Sys2Proof.Machine

theorem randBytes_keeps {s t : State} (h : Keeps s t) (a0 : Nat) : Keeps s (randBytes a0 t).2 := by
  unfold randBytes
  repeat' (first | with_reducible assumption | with_reducible apply draw_keeps | (refine draw_keeps_eq ?_ (by assumption)) | with_reducible exact Keeps.refl | intro _ | split | dsimp only)

theorem randBytes_keeps_eq {s t u : State} {a0 : Nat} {y0} (h : Keeps s t) (e : randBytes a0 t = (y0, u)) : Keeps s u := by
  have k := randBytes_keeps h a0
  rw [e] at k
  exact k

theorem cacheLook_keeps {s t : State} (h : Keeps s t) (a0 : Option (List Byte)) : Keeps s (cacheLook a0 t).2 := by
  unfold cacheLook
  repeat' (first | with_reducible assumption | with_reducible apply count_keeps | with_reducible exact Keeps.refl | (with_reducible refine Keeps.upd ?_ (by with_reducible rfl); first | with_reducible assumption | with_reducible apply count_keeps | with_reducible exact Keeps.refl | split) | intro _ | split | dsimp only)

theorem cacheLook_keeps_eq {s t u : State} {a0 : Option (List Byte)} {y0} (h : Keeps s t) (e : cacheLook a0 t = (y0, u)) : Keeps s u := by
  have k := cacheLook_keeps h a0
  rw [e] at k
  exact k

theorem setGroup_keeps {s t : State} (h : Keeps s t) (a0 : Nat) (a1 : GroupSlot) : Keeps s (setGroup a0 a1 t) := by
  unfold setGroup
  repeat' (first | with_reducible assumption | with_reducible apply mirrorDelta_keeps | with_reducible exact Keeps.refl | (with_reducible refine Keeps.upd ?_ (by with_reducible rfl); first | with_reducible assumption | with_reducible apply mirrorDelta_keeps | with_reducible exact Keeps.refl | split) | intro _ | split | dsimp only | (with_reducible refine Keeps.updTable ?_ (fun w => by simp only [State.wf, State.hostWf, State.lineWf, State.memWf, State.serviceWf, Bool.and_eq_true] at w ⊢; simp_all only [Map.wf_set, Map.wf_filter, Map.wf_mapVals, Map.wf_nil, and_self]); first | with_reducible assumption | with_reducible apply mirrorDelta_keeps | with_reducible exact Keeps.refl | split))

theorem setCounter_keeps {s t : State} (h : Keeps s t) (a0 : Job) (a1 : GroupSlot) : Keeps s (setCounter a0 a1 t) := by
  unfold setCounter
  repeat' (first | with_reducible assumption | with_reducible apply setGroup_keeps | with_reducible apply setAssoc_keeps | with_reducible exact Keeps.refl | intro _ | split | dsimp only)

theorem askReserve_keeps {s t : State} (h : Keeps s t) (a0 : Job) (a1 : Nat) : Keeps s (askReserve a0 a1 t) := by
  unfold askReserve
  repeat' (first | with_reducible assumption | with_reducible apply sendMirror_keeps | with_reducible apply setCounter_keeps | with_reducible exact Keeps.refl | (with_reducible refine Keeps.upd ?_ (by with_reducible rfl); first | with_reducible assumption | with_reducible apply sendMirror_keeps | with_reducible apply setCounter_keeps | with_reducible exact Keeps.refl | split) | intro _ | split | dsimp only)

theorem waitReserve_keeps {s t : State} (h : Keeps s t) (a0 : Job) : Keeps s (waitReserve a0 t) := by
  unfold waitReserve
  repeat' (first | with_reducible assumption | with_reducible apply askReserve_keeps | with_reducible exact Keeps.refl | intro _ | split | dsimp only)

theorem issueCounter_keeps {s t : State} (h : Keeps s t) (a0 : Job) : Keeps s (issueCounter a0 t).2.2 := by
  unfold issueCounter
  repeat' (first | with_reducible assumption | with_reducible apply setCounter_keeps | with_reducible apply raise_keeps | with_reducible apply askReserve_keeps | with_reducible exact Keeps.refl | intro _ | split | dsimp only)

theorem issueCounter_keeps_eq {s t u : State} {a0 : Job} {y0 y1} (h : Keeps s t) (e : issueCounter a0 t = (y0, y1, u)) : Keeps s u := by
  have k := issueCounter_keeps h a0
  rw [e] at k
  exact k

theorem noteBeacon_keeps {s t : State} (h : Keeps s t) (a0 : Job) : Keeps s (noteBeacon a0 t) := by
  unfold noteBeacon
  repeat' (first | with_reducible assumption | with_reducible apply setMac_keeps | with_reducible apply Keeps.macTable | with_reducible apply Keeps.macParked | with_reducible apply Keeps.macRelays | with_reducible apply Keeps.macCache | with_reducible apply Map.wf_set | with_reducible apply Map.wf_filter | with_reducible exact Map.wf_nil | with_reducible exact Keeps.refl | intro _ | split | dsimp only)

theorem fixNonce_keeps {s t : State} (h : Keeps s t) (a0 : Held) (a1 : Nat) (a2 : Nat) : Keeps s (fixNonce a0 a1 a2 t).2 := by
  unfold fixNonce
  repeat' (first | with_reducible assumption | with_reducible apply issueCounter_keeps | with_reducible apply noteBeacon_keeps | (refine issueCounter_keeps_eq ?_ (by assumption)) | with_reducible exact Keeps.refl | intro _ | split | dsimp only)

theorem fixNonce_keeps_eq {s t u : State} {a0 : Held} {a1 : Nat} {a2 : Nat} {y0} (h : Keeps s t) (e : fixNonce a0 a1 a2 t = (y0, u)) : Keeps s u := by
  have k := fixNonce_keeps h a0 a1 a2
  rw [e] at k
  exact k

theorem acceptJob_keeps {s t : State} (h : Keeps s t) (a0 : Nat) (a1 : Nat) (a2 : Nat) (a3 : Job) : Keeps s (acceptJob a0 a1 a2 a3 t).2 := by
  unfold acceptJob
  repeat' (first | with_reducible assumption | with_reducible apply cacheLook_keeps | with_reducible apply waitReserve_keeps | with_reducible apply fixNonce_keeps | (refine cacheLook_keeps_eq ?_ (by assumption)) | (refine fixNonce_keeps_eq ?_ (by assumption)) | with_reducible exact Keeps.refl | intro _ | split | dsimp only)

theorem acceptJob_keeps_eq {s t u : State} {a0 : Nat} {a1 : Nat} {a2 : Nat} {a3 : Job} {y0} (h : Keeps s t) (e : acceptJob a0 a1 a2 a3 t = (y0, u)) : Keeps s u := by
  have k := acceptJob_keeps h a0 a1 a2 a3
  rw [e] at k
  exact k

theorem resumeHeld_keeps {s t : State} (h : Keeps s t) (a0 : Held) : Keeps s (resumeHeld a0 t).2 := by
  unfold resumeHeld
  repeat' (first | with_reducible assumption | with_reducible apply fixNonce_keeps | (refine fixNonce_keeps_eq ?_ (by assumption)) | with_reducible exact Keeps.refl | intro _ | split | dsimp only)

theorem resumeHeld_keeps_eq {s t u : State} {a0 : Held} {y0} (h : Keeps s t) (e : resumeHeld a0 t = (y0, u)) : Keeps s u := by
  have k := resumeHeld_keeps h a0
  rw [e] at k
  exact k

theorem jobResult_keeps {s t : State} (h : Keeps s t) (a0 : Held) : Keeps s (jobResult a0 t).2.2 := by
  unfold jobResult
  repeat' (first | with_reducible assumption | with_reducible apply randBytes_keeps | (refine randBytes_keeps_eq ?_ (by assumption)) | with_reducible exact Keeps.refl | intro _ | split | dsimp only)

theorem jobResult_keeps_eq {s t u : State} {a0 : Held} {y0 y1} (h : Keeps s t) (e : jobResult a0 t = (y0, y1, u)) : Keeps s u := by
  have k := jobResult_keeps h a0
  rw [e] at k
  exact k

theorem countJob_keeps {s t : State} (h : Keeps s t) (a0 : Nat) : Keeps s (countJob a0 t) := by
  unfold countJob
  repeat' (first | with_reducible assumption | with_reducible apply count_keeps | with_reducible apply raise_keeps | with_reducible exact Keeps.refl | intro _ | split | dsimp only)

theorem refreshGate_keeps {s t : State} (h : Keeps s t)  : Keeps s (refreshGate t) := by
  unfold refreshGate
  repeat' (first | with_reducible assumption | with_reducible apply setB_keeps | with_reducible exact Keeps.refl | intro _ | split | dsimp only)

theorem runJob_keeps {s t : State} (h : Keeps s t) (a0 : Nat) (a1 : Job) : Keeps s (runJob a0 a1 t).2.2.2 := by
  unfold runJob
  repeat' (first | with_reducible assumption | with_reducible apply countJob_keeps | with_reducible apply acceptJob_keeps | with_reducible apply jobResult_keeps | (refine acceptJob_keeps_eq ?_ (by assumption)) | (refine jobResult_keeps_eq ?_ (by assumption)) | with_reducible exact Keeps.refl | intro _ | split | dsimp only)

theorem runJob_keeps_eq {s t u : State} {a0 : Nat} {a1 : Job} {y0 y1 y2} (h : Keeps s t) (e : runJob a0 a1 t = (y0, y1, y2, u)) : Keeps s u := by
  have k := runJob_keeps h a0 a1
  rw [e] at k
  exact k

end Sys2Proof.Machine
end

