-- ==== Sys2Proof/Laws/KeepsLinkOps.lean ====
section
/-! SUPPORT. Sys2Proof/Laws/KeepsLinkOps.lean: what the operations of Machine/LinkOps.lean keep of a state. -/
namespace Sys2Proof.Machine

theorem setLink_keeps {s t : State} (h : Keeps s t) (m : LinkSt) (h1 : s.wf = true → Map.wf (fun _ => LaneSt.rest) m.lanes = true) :
    Keeps s (setLink m t) := by
  refine ⟨h.pending, h.emits, h.draws, fun w => ?_⟩
  have k := h.wf w
  unfold setLink
  simp only [Bool.and_eq_true] at k ⊢
  simp only [k, h1 w, and_self]

/-- The lanes of a state that keeps another's form. -/
theorem Keeps.linkLanes {s t : State} (h : Keeps s t) (w : s.wf = true) : Map.wf (fun _ => LaneSt.rest) t.link.lanes = true := by
  have k := h.wf w
  simp only [Bool.and_eq_true] at k
  simp only [k]

theorem setLane_keeps {s t : State} (h : Keeps s t) (a0 : Nat) (a1 : LaneSt) : Keeps s (setLane a0 a1 t) := by
  unfold setLane
  repeat' (first | with_reducible assumption | with_reducible apply setLink_keeps | with_reducible apply Keeps.linkLanes | with_reducible apply Map.wf_set | with_reducible apply Map.wf_filter | with_reducible exact Map.wf_nil | with_reducible exact Keeps.refl | intro _ | split | dsimp only)

theorem laneTx_keeps {s t : State} (h : Keeps s t) (a0 : Nat) (a1 : TunnelFrame) : Keeps s (laneTx a0 a1 t) := by
  unfold laneTx
  repeat' (first | with_reducible assumption | with_reducible apply count_keeps | with_reducible apply emit_keeps | with_reducible apply setLane_keeps | with_reducible exact Keeps.refl | intro _ | split | dsimp only)

theorem laneSend_keeps {s t : State} (h : Keeps s t) (a0 : Nat) (a1 : TunnelFrame) : Keeps s (laneSend a0 a1 t) := by
  unfold laneSend
  repeat' (first | with_reducible assumption | with_reducible apply setLane_keeps | with_reducible apply laneTx_keeps | with_reducible exact Keeps.refl | intro _ | split | dsimp only)

theorem refreshTunnel_keeps {s t : State} (h : Keeps s t)  : Keeps s (refreshTunnel t) := by
  unfold refreshTunnel
  repeat' (first | with_reducible assumption | with_reducible apply setB_keeps | with_reducible apply Keeps.foldl | with_reducible exact Keeps.refl | intro _ | split | dsimp only)

theorem hostEvent_keeps {s t : State} (h : Keeps s t) (a0 : Nat) (a1 : Nat) (a2 : Nat) (a3 : Nat) (a4 : List Byte) : Keeps s (hostEvent a0 a1 a2 a3 a4 t) := by
  unfold hostEvent
  repeat' (first | with_reducible assumption | with_reducible apply setLink_keeps | with_reducible apply laneSend_keeps | with_reducible apply Keeps.linkLanes | with_reducible apply Map.wf_set | with_reducible apply Map.wf_filter | with_reducible exact Map.wf_nil | with_reducible exact Keeps.refl | intro _ | split | dsimp only)

theorem divert_keeps {s t : State} (h : Keeps s t) (a0 : Bool) (a1 : UlFrame) : Keeps s (divert a0 a1 t) := by
  unfold divert
  repeat' (first | with_reducible assumption | with_reducible apply raise_keeps | with_reducible apply setLink_keeps | with_reducible apply Keeps.linkLanes | with_reducible apply Map.wf_set | with_reducible apply Map.wf_filter | with_reducible exact Map.wf_nil | with_reducible exact Keeps.refl | intro _ | split | dsimp only)

theorem sendUp_keeps {s t : State} (h : Keeps s t) (a0 : Nat) (a1 : UlFrame) : Keeps s (sendUp a0 a1 t) := by
  unfold sendUp
  repeat' (first | with_reducible assumption | with_reducible apply laneSend_keeps | with_reducible apply setLane_keeps | with_reducible exact Keeps.refl | intro _ | split | dsimp only)

theorem upPath_keeps {s t : State} (h : Keeps s t) (a0 : UlFrame) : Keeps s (upPath a0 t) := by
  unfold upPath
  repeat' (first | with_reducible assumption | with_reducible apply divert_keeps | with_reducible apply sendUp_keeps | with_reducible apply setLink_keeps | with_reducible apply Keeps.linkLanes | with_reducible apply Map.wf_set | with_reducible apply Map.wf_filter | with_reducible exact Map.wf_nil | with_reducible exact Keeps.refl | intro _ | split | dsimp only)

theorem upVerified_keeps {s t : State} (h : Keeps s t) (a0 : UlFrame) : Keeps s (upVerified a0 t) := by
  unfold upVerified
  repeat' (first | with_reducible assumption | with_reducible apply setLink_keeps | with_reducible apply upPath_keeps | with_reducible apply Keeps.linkLanes | with_reducible apply Map.wf_set | with_reducible apply Map.wf_filter | with_reducible exact Map.wf_nil | with_reducible exact Keeps.refl | intro _ | split | dsimp only)

theorem releaseAcked_keeps {s t : State} (h : Keeps s t)  : Keeps s (releaseAcked t) := by
  unfold releaseAcked
  repeat' (first | with_reducible assumption | with_reducible apply upPath_keeps | with_reducible apply setLink_keeps | with_reducible apply Keeps.foldl | with_reducible apply Keeps.linkLanes | with_reducible apply Map.wf_set | with_reducible apply Map.wf_filter | with_reducible exact Map.wf_nil | with_reducible exact Keeps.refl | intro _ | split | dsimp only)

theorem dlDone_keeps {s t : State} (h : Keeps s t) (a0 : Option Nat) (a1 : Option Nat) (a2 : Nat) (a3 : Nat) (a4 : Nat) : Keeps s (dlDone a0 a1 a2 a3 a4 t) := by
  unfold dlDone
  repeat' (first | with_reducible assumption | with_reducible apply setLink_keeps | with_reducible apply Keeps.linkLanes | with_reducible apply Map.wf_set | with_reducible apply Map.wf_filter | with_reducible exact Map.wf_nil | with_reducible exact Keeps.refl | intro _ | split | dsimp only)

theorem sendDownStatus_keeps {s t : State} (h : Keeps s t) (a0 : Nat) (a1 : DlDone) : Keeps s (sendDownStatus a0 a1 t) := by
  unfold sendDownStatus
  repeat' (first | with_reducible assumption | with_reducible apply laneSend_keeps | with_reducible apply count_keeps | with_reducible exact Keeps.refl | intro _ | split | dsimp only)

theorem deliverDone_keeps {s t : State} (h : Keeps s t) (a0 : DlDone) : Keeps s (deliverDone a0 t) := by
  unfold deliverDone
  repeat' (first | with_reducible assumption | with_reducible apply count_keeps | with_reducible apply ringComplete_keeps | with_reducible apply sendDownStatus_keeps | with_reducible exact Keeps.refl | intro _ | split | dsimp only)

theorem deliverNext_keeps {s t : State} (h : Keeps s t)  : Keeps s (deliverNext t) := by
  unfold deliverNext
  repeat' (first | with_reducible assumption | with_reducible apply deliverDone_keeps | with_reducible apply setLink_keeps | with_reducible apply Keeps.linkLanes | with_reducible apply Map.wf_set | with_reducible apply Map.wf_filter | with_reducible exact Map.wf_nil | with_reducible exact Keeps.refl | intro _ | split | dsimp only)

end Sys2Proof.Machine
end

