-- ==== Sys2Proof/Laws/KeepsMac.lean ====
section
/-! SUPPORT. Sys2Proof/Laws/KeepsMac.lean: what the operations of Machine/Mac.lean keep of a state. -/
namespace Sys2Proof.Machine

theorem refuseUnit_keeps {s t : State} (h : Keeps s t) (a0 : Nat) : Keeps s (refuseUnit a0 t) := by
  unfold refuseUnit
  repeat' (first | with_reducible assumption | with_reducible apply raise_keeps | with_reducible apply count_keeps | with_reducible apply setCtx_keeps | with_reducible exact Keeps.refl | intro _ | split | dsimp only)

theorem failUnit_keeps {s t : State} (h : Keeps s t) (a0 : Nat) : Keeps s (failUnit a0 t) := by
  unfold failUnit
  repeat' (first | with_reducible assumption | with_reducible apply raise_keeps | with_reducible apply count_keeps | with_reducible apply setCtx_keeps | with_reducible exact Keeps.refl | intro _ | split | dsimp only)

theorem malformed_keeps {s t : State} (h : Keeps s t)  : Keeps s (malformed t) := by
  unfold malformed
  repeat' (first | with_reducible assumption | with_reducible apply count_keeps | with_reducible exact Keeps.refl | intro _ | split | dsimp only)

theorem addFrame_keeps {s t : State} (h : Keeps s t) (a0 : Frame) : Keeps s (addFrame a0 t) := by
  unfold addFrame
  repeat' (first | with_reducible assumption | with_reducible apply setMac_keeps | with_reducible apply Keeps.macTable | with_reducible apply Keeps.macParked | with_reducible apply Keeps.macRelays | with_reducible apply Keeps.macCache | with_reducible apply Map.wf_set | with_reducible apply Map.wf_filter | with_reducible exact Map.wf_nil | with_reducible exact Keeps.refl | intro _ | split | dsimp only)

theorem setFrame_keeps {s t : State} (h : Keeps s t) (a0 : Frame) : Keeps s (setFrame a0 t) := by
  unfold setFrame
  repeat' (first | with_reducible assumption | with_reducible apply setMac_keeps | with_reducible apply Keeps.macTable | with_reducible apply Keeps.macParked | with_reducible apply Keeps.macRelays | with_reducible apply Keeps.macCache | with_reducible apply Map.wf_set | with_reducible apply Map.wf_filter | with_reducible exact Map.wf_nil | with_reducible exact Keeps.refl | intro _ | split | dsimp only)

theorem dropFrame_keeps {s t : State} (h : Keeps s t) (a0 : Nat) : Keeps s (dropFrame a0 t) := by
  unfold dropFrame
  repeat' (first | with_reducible assumption | with_reducible apply setMac_keeps | with_reducible apply Keeps.macTable | with_reducible apply Keeps.macParked | with_reducible apply Keeps.macRelays | with_reducible apply Keeps.macCache | with_reducible apply Map.wf_set | with_reducible apply Map.wf_filter | with_reducible exact Map.wf_nil | with_reducible exact Keeps.refl | intro _ | split | dsimp only)

theorem finishFrame_keeps {s t : State} (h : Keeps s t) (a0 : Frame) (a1 : Nat) : Keeps s (finishFrame a0 a1 t) := by
  unfold finishFrame
  repeat' (first | with_reducible assumption | with_reducible apply dlDone_keeps | with_reducible apply dropFrame_keeps | with_reducible exact Keeps.refl | intro _ | split | dsimp only)

theorem ownFrame_keeps {s t : State} (h : Keeps s t) (a0 : FrameKind) (a1 : Nat) (a2 : List Byte) : Keeps s (ownFrame a0 a1 a2 t) := by
  unfold ownFrame
  repeat' (first | with_reducible assumption | with_reducible apply addFrame_keeps | with_reducible exact Keeps.refl | intro _ | split | dsimp only)

theorem plainFrame_keeps {s t : State} (h : Keeps s t) (a0 : FrameKind) (a1 : Nat) (a2 : Nat) (a3 : Nat) (a4 : List Byte) (a5 : Wave) : Keeps s (plainFrame a0 a1 a2 a3 a4 a5 t) := by
  unfold plainFrame
  repeat' (first | with_reducible assumption | with_reducible apply addFrame_keeps | with_reducible exact Keeps.refl | intro _ | split | dsimp only)

theorem sendAck_keeps {s t : State} (h : Keeps s t) (a0 : Nat) (a1 : Nat) (a2 : Bool) : Keeps s (sendAck a0 a1 a2 t) := by
  unfold sendAck
  repeat' (first | with_reducible assumption | with_reducible apply ownFrame_keeps | with_reducible apply plainFrame_keeps | with_reducible exact Keeps.refl | intro _ | split | dsimp only)

theorem setParent_keeps {s t : State} (h : Keeps s t) (a0 : ParentSt) : Keeps s (setParent a0 t) := by
  unfold setParent
  repeat' (first | with_reducible assumption | with_reducible apply mirrorDelta_keeps | with_reducible apply setMac_keeps | with_reducible apply Keeps.macTable | with_reducible apply Keeps.macParked | with_reducible apply Keeps.macRelays | with_reducible apply Keeps.macCache | with_reducible apply Map.wf_set | with_reducible apply Map.wf_filter | with_reducible exact Map.wf_nil | with_reducible exact Keeps.refl | intro _ | split | dsimp only)

theorem parentFrameUnit_keeps {s t : State} (h : Keeps s t) (a0 : Bool) (a1 : List Byte) : Keeps s (parentFrameUnit a0 a1 t).2.2 := by
  unfold parentFrameUnit
  repeat' (first | with_reducible assumption | with_reducible apply setParent_keeps | with_reducible apply countJob_keeps | with_reducible exact Keeps.refl | intro _ | split | dsimp only)

theorem parentFrameUnit_keeps_eq {s t u : State} {a0 : Bool} {a1 : List Byte} {y0 y1} (h : Keeps s t) (e : parentFrameUnit a0 a1 t = (y0, y1, u)) : Keeps s u := by
  have k := parentFrameUnit_keeps h a0 a1
  rw [e] at k
  exact k

theorem parentFrame_keeps {s t : State} (h : Keeps s t) (a0 : List Byte) : Keeps s (parentFrame a0 t).2 := by
  unfold parentFrame
  repeat' (first | with_reducible assumption | with_reducible apply parentFrameUnit_keeps | (refine parentFrameUnit_keeps_eq ?_ (by assumption)) | with_reducible exact Keeps.refl | intro _ | split | dsimp only)

theorem parentFrame_keeps_eq {s t u : State} {a0 : List Byte} {y0} (h : Keeps s t) (e : parentFrame a0 t = (y0, u)) : Keeps s u := by
  have k := parentFrame_keeps h a0
  rw [e] at k
  exact k

theorem laneNgael_keeps {s t : State} (h : Keeps s t) (a0 : Nat) (a1 : List Byte) : Keeps s (laneNgael a0 a1 t) := by
  unfold laneNgael
  repeat' (first | with_reducible assumption | with_reducible apply laneSend_keeps | with_reducible exact Keeps.refl | intro _ | split | dsimp only)

theorem toParent_keeps {s t : State} (h : Keeps s t) (a0 : List Byte) : Keeps s (toParent a0 t) := by
  unfold toParent
  repeat' (first | with_reducible assumption | with_reducible apply parentFrame_keeps | with_reducible apply laneNgael_keeps | with_reducible apply setParent_keeps | (refine parentFrame_keeps_eq ?_ (by assumption)) | with_reducible exact Keeps.refl | intro _ | split | dsimp only)

theorem dropFrames_keeps {s t : State} (h : Keeps s t) (a0 : Nat) : Keeps s (dropFrames a0 t) := by
  unfold dropFrames
  repeat' (first | with_reducible assumption | with_reducible apply finishFrame_keeps | with_reducible apply Keeps.foldl | with_reducible exact Keeps.refl | intro _ | split | dsimp only)

theorem clearRelays_keeps {s t : State} (h : Keeps s t) (a0 : Nat) : Keeps s (clearRelays a0 t) := by
  unfold clearRelays
  repeat' (first | with_reducible assumption | with_reducible apply raise_keeps | with_reducible apply setRelay_keeps | with_reducible apply Keeps.foldl | with_reducible exact Keeps.refl | intro _ | split | dsimp only)

theorem treeEnd_keeps {s t : State} (h : Keeps s t) (a0 : Nat) (a1 : Ctx) (a2 : Nat) : Keeps s (treeEnd a0 a1 a2 t) := by
  unfold treeEnd
  repeat' (first | with_reducible assumption | with_reducible apply ownFrame_keeps | with_reducible apply setRoute_keeps | with_reducible apply toParent_keeps | with_reducible exact Keeps.refl | intro _ | split | dsimp only)

theorem endCommands_keeps {s t : State} (h : Keeps s t) (a0 : Nat) : Keeps s (endCommands a0 t) := by
  unfold endCommands
  repeat' (first | with_reducible assumption | with_reducible apply done_keeps | with_reducible exact Keeps.refl | intro _ | split | dsimp only)

theorem endRecord_keeps {s t : State} (h : Keeps s t) (a0 : Bool) (a1 : Nat) (a2 : Nat) : Keeps s (endRecord a0 a1 a2 t) := by
  unfold endRecord
  repeat' (first | with_reducible assumption | with_reducible apply setParked_keeps | with_reducible apply treeEnd_keeps | with_reducible apply clearRelays_keeps | with_reducible apply freeMaps_keeps | with_reducible apply dropFrames_keeps | with_reducible apply setMac_keeps | with_reducible apply setAssoc_keeps | with_reducible apply hostEvent_keeps | with_reducible apply raise_keeps | with_reducible apply endCommands_keeps | with_reducible apply Keeps.macTable | with_reducible apply Keeps.macParked | with_reducible apply Keeps.macRelays | with_reducible apply Keeps.macCache | with_reducible apply Map.wf_set | with_reducible apply Map.wf_filter | with_reducible exact Map.wf_nil | with_reducible exact Keeps.refl | (with_reducible refine Keeps.upd ?_ (by with_reducible rfl); first | with_reducible assumption | with_reducible apply setParked_keeps | with_reducible apply treeEnd_keeps | with_reducible apply clearRelays_keeps | with_reducible apply freeMaps_keeps | with_reducible apply dropFrames_keeps | with_reducible apply setMac_keeps | with_reducible apply setAssoc_keeps | with_reducible apply hostEvent_keeps | with_reducible apply raise_keeps | with_reducible apply endCommands_keeps | with_reducible apply Keeps.macTable | with_reducible apply Keeps.macParked | with_reducible apply Keeps.macRelays | with_reducible apply Keeps.macCache | with_reducible apply Map.wf_set | with_reducible apply Map.wf_filter | with_reducible exact Map.wf_nil | with_reducible exact Keeps.refl | split) | intro _ | split | dsimp only | (with_reducible refine Keeps.updTable ?_ (fun w => by simp only [State.wf, State.hostWf, State.lineWf, State.memWf, State.serviceWf, Bool.and_eq_true] at w ⊢; simp_all only [Map.wf_set, Map.wf_filter, Map.wf_mapVals, Map.wf_nil, and_self]); first | with_reducible assumption | with_reducible apply setParked_keeps | with_reducible apply treeEnd_keeps | with_reducible apply clearRelays_keeps | with_reducible apply freeMaps_keeps | with_reducible apply dropFrames_keeps | with_reducible apply setMac_keeps | with_reducible apply setAssoc_keeps | with_reducible apply hostEvent_keeps | with_reducible apply raise_keeps | with_reducible apply endCommands_keeps | with_reducible apply Keeps.macTable | with_reducible apply Keeps.macParked | with_reducible apply Keeps.macRelays | with_reducible apply Keeps.macCache | with_reducible apply Map.wf_set | with_reducible apply Map.wf_filter | with_reducible exact Map.wf_nil | with_reducible exact Keeps.refl | split))

theorem finishEnd_keeps {s t : State} (h : Keeps s t) (a0 : Nat) (a1 : Nat) : Keeps s (finishEnd a0 a1 t) := by
  unfold finishEnd
  repeat' (first | with_reducible assumption | with_reducible apply endRecord_keeps | with_reducible exact Keeps.refl | intro _ | split | dsimp only)

theorem startEnd_keeps {s t : State} (h : Keeps s t) (a0 : Nat) (a1 : Nat) (a2 : Nat) (a3 : Bool) : Keeps s (startEnd a0 a1 a2 a3 t) := by
  unfold startEnd
  repeat' (first | with_reducible assumption | with_reducible apply finishEnd_keeps | with_reducible apply dropFrames_keeps | with_reducible apply setAssoc_keeps | with_reducible apply ownFrame_keeps | with_reducible exact Keeps.refl | intro _ | split | dsimp only)

theorem startRekey_keeps {s t : State} (h : Keeps s t) (a0 : Nat) : Keeps s (startRekey a0 t) := by
  unfold startRekey
  repeat' (first | with_reducible assumption | with_reducible apply runJob_keeps | with_reducible apply ownFrame_keeps | with_reducible apply setAssoc_keeps | (refine runJob_keeps_eq ?_ (by assumption)) | with_reducible exact Keeps.refl | intro _ | split | dsimp only)

theorem completeRekey_keeps {s t : State} (h : Keeps s t) (a0 : Nat) (a1 : Nat) : Keeps s (completeRekey a0 a1 t) := by
  unfold completeRekey
  repeat' (first | with_reducible assumption | with_reducible apply setAssoc_keeps | with_reducible apply setMac_keeps | with_reducible apply Keeps.macTable | with_reducible apply Keeps.macParked | with_reducible apply Keeps.macRelays | with_reducible apply Keeps.macCache | with_reducible apply Map.wf_set | with_reducible apply Map.wf_filter | with_reducible exact Map.wf_nil | with_reducible exact Keeps.refl | intro _ | split | dsimp only)

theorem nextFseq_keeps {s t : State} (h : Keeps s t) (a0 : Nat) (a1 : Wave) : Keeps s (nextFseq a0 a1 t).2 := by
  unfold nextFseq
  repeat' (first | with_reducible assumption | with_reducible apply setCtx_keeps | with_reducible exact Keeps.refl | intro _ | split | dsimp only)

theorem nextFseq_keeps_eq {s t u : State} {a0 : Nat} {a1 : Wave} {y0} (h : Keeps s t) (e : nextFseq a0 a1 t = (y0, u)) : Keeps s u := by
  have k := nextFseq_keeps h a0 a1
  rw [e] at k
  exact k

theorem sealUnit_keeps {s t : State} (h : Keeps s t) (a0 : Job) : Keeps s (sealUnit a0 t).2.2 := by
  unfold sealUnit
  repeat' (first | with_reducible assumption | with_reducible apply runJob_keeps | with_reducible apply setCtx_keeps | (refine runJob_keeps_eq ?_ (by assumption)) | with_reducible exact Keeps.refl | intro _ | split | dsimp only)

theorem sealUnit_keeps_eq {s t u : State} {a0 : Job} {y0 y1} (h : Keeps s t) (e : sealUnit a0 t = (y0, y1, u)) : Keeps s u := by
  have k := sealUnit_keeps h a0
  rw [e] at k
  exact k

theorem jobRefused_keeps {s t : State} (h : Keeps s t) (a0 : Nat) (a1 : Nat) : Keeps s (jobRefused a0 a1 t) := by
  unfold jobRefused
  repeat' (first | with_reducible assumption | with_reducible apply startEnd_keeps | with_reducible exact Keeps.refl | intro _ | split | dsimp only)

theorem sealFrame_keeps {s t : State} (h : Keeps s t) (a0 : Frame) : Keeps s (sealFrame a0 t).2.2 := by
  unfold sealFrame
  repeat' (first | with_reducible assumption | with_reducible apply nextFseq_keeps | with_reducible apply sealUnit_keeps | (refine nextFseq_keeps_eq ?_ (by assumption)) | (refine sealUnit_keeps_eq ?_ (by assumption)) | with_reducible exact Keeps.refl | intro _ | split | dsimp only)

theorem sealFrame_keeps_eq {s t u : State} {a0 : Frame} {y0 y1} (h : Keeps s t) (e : sealFrame a0 t = (y0, y1, u)) : Keeps s u := by
  have k := sealFrame_keeps h a0
  rw [e] at k
  exact k

end Sys2Proof.Machine
end

