-- ==== Sys2Proof/Laws/KeepsUplink.lean ====
section
/-! SUPPORT. Sys2Proof/Laws/KeepsUplink.lean: what the operations of Machine/Uplink.lean keep of a state. -/
namespace Sys2Proof.Machine

theorem consume_keeps {s t : State} (h : Keeps s t) (a0 : Nat) : Keeps s (consume a0 t) := by
  unfold consume
  repeat' (first | with_reducible assumption | with_reducible apply setBurst_keeps | with_reducible exact Keeps.refl | intro _ | split | dsimp only)

theorem onFrame_keeps {s t : State} (h : Keeps s t) (a0 : Nat) (a1 : FrameIn → Bool) (a2 : FrameIn → State → State) (h2 : ∀ x0 x1, Keeps s x1 → Keeps s (a2 x0 x1)) : Keeps s (onFrame a0 a1 a2 t) := by
  unfold onFrame
  repeat' (first | with_reducible assumption | with_reducible apply consume_keeps | apply h2 | with_reducible exact Keeps.refl | intro _ | split | dsimp only)

theorem lookup_keeps {s t : State} (h : Keeps s t) (i : Nat) : Keeps s (lookup i t) := by
  unfold lookup
  extract_lets l s1 x
  have k : Keeps s s1 := by
    show Keeps s (if l.contains i then t else count .asc ASC_CACHE_MISS_CNT.COUNT t)
    split
    · exact h
    · exact count_keeps h _ _
  refine setMac_keeps k _ k.macTable k.macParked k.macRelays (fun w => ?_)
  have e := Map.wf_set (d := fun _ => []) s1.mac.cache (i % 4096) (List.take 16 (i :: l.erase i)) (k.macCache w)
  exact e

theorem sf2Reject_keeps {s t : State} (h : Keeps s t) (a0 : Nat) (a1 : Nat) (a2 : Nat) : Keeps s (sf2Reject a0 a1 a2 t) := by
  unfold sf2Reject
  repeat' (first | with_reducible assumption | with_reducible apply logPage_keeps | with_reducible apply raise_keeps | with_reducible apply count_keeps | with_reducible apply setF_keeps | with_reducible exact Keeps.refl | intro _ | split | dsimp only)

theorem pendElem_keeps {s t : State} (h : Keeps s t) (a0 : Nat) (a1 : Bool) (a2 : Bool) (a3 : Nat) (a4 : List Byte) : Keeps s (pendElem a0 a1 a2 a3 a4 t) := by
  unfold pendElem
  repeat' (first | with_reducible assumption | with_reducible apply setMac_keeps | with_reducible apply Keeps.macTable | with_reducible apply Keeps.macParked | with_reducible apply Keeps.macRelays | with_reducible apply Keeps.macCache | with_reducible apply Map.wf_set | with_reducible apply Map.wf_filter | with_reducible exact Map.wf_nil | with_reducible exact Keeps.refl | intro _ | split | dsimp only)

theorem dataElem_keeps {s t : State} (h : Keeps s t) (a0 : Nat) (a1 : Bool) (a2 : List Byte) : Keeps s (dataElem a0 a1 a2 t) := by
  unfold dataElem
  repeat' (first | with_reducible assumption | with_reducible apply sf2Reject_keeps | with_reducible apply upVerified_keeps | with_reducible exact Keeps.refl | intro _ | split | dsimp only)

theorem elemIn_keeps {s t : State} (h : Keeps s t) (a0 : Nat) (a1 : Bool) (a2 : Nat × List Byte) : Keeps s (elemIn a0 a1 a2 t) := by
  unfold elemIn
  repeat' (first | with_reducible assumption | with_reducible apply dataElem_keeps | with_reducible apply setAssoc_keeps | with_reducible apply pendElem_keeps | with_reducible apply setCtx_keeps | with_reducible exact Keeps.refl | intro _ | split | dsimp only)

theorem treeUp_keeps {s t : State} (h : Keeps s t) (a0 : Nat) (a1 : Nat) (a2 : List Byte) : Keeps s (treeUp a0 a1 a2 t) := by
  unfold treeUp
  repeat' (first | with_reducible assumption | with_reducible apply count_keeps | with_reducible apply toParent_keeps | with_reducible apply divert_keeps | with_reducible exact Keeps.refl | intro _ | split | dsimp only)

theorem plainIn_keeps {s t : State} (h : Keeps s t) (a0 : Nat) (a1 : Bool) (a2 : Bool) (a3 : List Byte) : Keeps s (plainIn a0 a1 a2 a3 t) := by
  unfold plainIn
  repeat' (first | with_reducible assumption | with_reducible apply treeUp_keeps | with_reducible apply malformed_keeps | with_reducible apply elemIn_keeps | with_reducible apply Keeps.foldl | with_reducible exact Keeps.refl | intro _ | split | dsimp only)

theorem sendBkey_keeps {s t : State} (h : Keeps s t) (a0 : Nat) : Keeps s (sendBkey a0 t) := by
  unfold sendBkey
  repeat' (first | with_reducible assumption | with_reducible apply ownFrame_keeps | with_reducible exact Keeps.refl | intro _ | split | dsimp only)

theorem confirmJoin_keeps {s t : State} (h : Keeps s t) (a0 : Nat) : Keeps s (confirmJoin a0 t) := by
  unfold confirmJoin
  repeat' (first | with_reducible assumption | with_reducible apply setAssoc_keeps | with_reducible apply hostEvent_keeps | with_reducible apply raise_keeps | with_reducible apply count_keeps | with_reducible apply sendBkey_keeps | with_reducible exact Keeps.refl | intro _ | split | dsimp only)

theorem noteUnit_keeps {s t : State} (h : Keeps s t) (a0 : FrameIn) (a1 : Nat) (a2 : Nat) (a3 : Nat) : Keeps s (noteUnit a0 a1 a2 a3 t) := by
  unfold noteUnit
  repeat' (first | with_reducible assumption | with_reducible apply setAssoc_keeps | with_reducible exact Keeps.refl | intro _ | split | dsimp only)

theorem openRekey_keeps {s t : State} (h : Keeps s t) (a0 : FrameIn) (a1 : Nat) (a2 : Nat) (a3 : UnitIn) (a4 : RekeySt) : Keeps s (openRekey a0 a1 a2 a3 a4 t).2.2 := by
  unfold openRekey
  repeat' (first | with_reducible assumption | with_reducible apply countJob_keeps | with_reducible exact Keeps.refl | intro _ | split | dsimp only)

theorem openRekey_keeps_eq {s t u : State} {a0 : FrameIn} {a1 : Nat} {a2 : Nat} {a3 : UnitIn} {a4 : RekeySt} {y0 y1} (h : Keeps s t) (e : openRekey a0 a1 a2 a3 a4 t = (y0, y1, u)) : Keeps s u := by
  have k := openRekey_keeps h a0 a1 a2 a3 a4
  rw [e] at k
  exact k

theorem unitIn_unitOld_keeps {s t : State} (h : Keeps s t) (f : FrameIn) (i pos : Nat) (u : UnitIn) : Keeps s (unitIn.unitOld f i pos u t).2 := by
  unfold unitIn.unitOld
  dsimp only
  have k := runJob_keeps h (i % 16) (openJob f i pos u (decide (u.kgen ≠ (ctx t i).kgen)))
  split
  · exact refuseUnit_keeps h _
  · split
    · exact plainIn_keeps (confirmJoin_keeps (noteUnit_keeps k _ _ _ _) _) _ _ _ _
    · dsimp only
      split
      · exact failUnit_keeps k _
      · exact k

theorem unitIn_keeps {s t : State} (h : Keeps s t) (f : FrameIn) (i pos : Nat) (u : UnitIn) : Keeps s (unitIn f i pos u t).2 := by
  unfold unitIn
  dsimp only
  split
  · rename_i k _
    split
    · have k := openRekey_keeps h f i pos u k
      split
      · exact plainIn_keeps (noteUnit_keeps (completeRekey_keeps k _ _) _ _ _ _) _ _ _ _
      · dsimp only
        split
        · exact failUnit_keeps k _
        · exact k
    · exact unitIn_unitOld_keeps h _ _ _ _
  · exact unitIn_unitOld_keeps h _ _ _ _

theorem unitsIn_keeps {s t : State} (h : Keeps s t) (f : FrameIn) (i : Nat) (us : List UnitIn) : Keeps s (unitsIn f i us t).2 := by
  unfold unitsIn
  have k : ∀ (l : List (UnitIn × Nat)) (a : Bool × State), Keeps s a.2 →
      Keeps s (l.foldl (fun (a : Bool × State) u => let r := unitIn f i u.2 u.1 a.2; (a.1 && r.1, r.2)) a).2 := by
    intro l
    induction l with
    | nil => exact fun a ha => ha
    | cons u l ih => exact fun a ha => ih _ (unitIn_keeps ha _ _ _ _)
  exact k _ _ h

theorem unitsIn_keeps_eq {s t u : State} {f : FrameIn} {i : Nat} {us : List UnitIn} {y : Bool} (h : Keeps s t) (e : unitsIn f i us t = (y, u)) :
    Keeps s u := by
  have k := unitsIn_keeps h f i us
  rw [e] at k
  exact k

theorem dataFrame_keeps {s t : State} (h : Keeps s t) (a0 : FrameIn) : Keeps s (dataFrame a0 t) := by
  unfold dataFrame
  repeat' (first | with_reducible assumption | with_reducible apply lookup_keeps | with_reducible apply malformed_keeps | with_reducible apply unitsIn_keeps | with_reducible apply setRelay_keeps | with_reducible apply sendAck_keeps | (refine unitsIn_keeps_eq ?_ (by assumption)) | with_reducible exact Keeps.refl | intro _ | split | dsimp only)

theorem parentElem_keeps {s t : State} (h : Keeps s t) (a0 : Bool) (a1 : Nat × List Byte) : Keeps s (parentElem a0 a1 t) := by
  unfold parentElem
  repeat' (first | with_reducible assumption | with_reducible apply setParent_keeps | with_reducible apply pendElem_keeps | with_reducible exact Keeps.refl | intro _ | split | dsimp only)

theorem parentUnit_keeps {s t : State} (h : Keeps s t) (a0 : FrameIn) (a1 : Nat) (a2 : UnitIn) : Keeps s (parentUnit a0 a1 a2 t) := by
  unfold parentUnit
  repeat' (first | with_reducible assumption | with_reducible apply countJob_keeps | with_reducible apply setParent_keeps | with_reducible apply parentElem_keeps | with_reducible apply Keeps.foldl | with_reducible exact Keeps.refl | intro _ | split | dsimp only)

theorem parentData_keeps {s t : State} (h : Keeps s t) (a0 : FrameIn) : Keeps s (parentData a0 t) := by
  unfold parentData
  repeat' (first | with_reducible assumption | with_reducible apply malformed_keeps | with_reducible apply toParent_keeps | with_reducible apply parentUnit_keeps | with_reducible apply Keeps.foldl | with_reducible exact Keeps.refl | intro _ | split | dsimp only)

theorem parentBeacon_keeps {s t : State} (h : Keeps s t) (a0 : FrameIn) : Keeps s (parentBeacon a0 t) := by
  unfold parentBeacon
  repeat' (first | with_reducible assumption | with_reducible apply setParent_keeps | with_reducible apply setF_keeps | with_reducible apply setB_keeps | with_reducible apply raise_keeps | with_reducible exact Keeps.refl | intro _ | split | dsimp only)

theorem uplinkFrame_keeps {s t : State} (h : Keeps s t) (a0 : FrameIn) : Keeps s (uplinkFrame a0 t) := by
  unfold uplinkFrame
  repeat' (first | with_reducible assumption | with_reducible apply parentBeacon_keeps | with_reducible apply parentData_keeps | with_reducible apply dataFrame_keeps | with_reducible exact Keeps.refl | intro _ | split | dsimp only)

theorem execUplinkFrame_keeps {s t u : State} (h : Keeps s t) (a0 : BurstId) (e : execUplinkFrame a0 t = .next u) : Keeps s u := by
  unfold execUplinkFrame at e
  try dsimp only at e
  repeat' split at e
  all_goals (cases e; repeat' (first | with_reducible assumption | with_reducible apply onFrame_keeps | with_reducible apply uplinkFrame_keeps | with_reducible exact Keeps.refl | intro _ | split | dsimp only))

theorem ackMap_keeps {s t : State} (h : Keeps s t) (a0 : Nat) (a1 : Nat) : Keeps s (ackMap a0 a1 t) := by
  unfold ackMap
  repeat' (first | with_reducible assumption | with_reducible apply putMap_keeps | with_reducible exact Keeps.refl | intro _ | split | dsimp only)

theorem ownAcked_keeps {s t : State} (h : Keeps s t) (a0 : Frame) : Keeps s (ownAcked a0 t) := by
  unfold ownAcked
  repeat' (first | with_reducible assumption | with_reducible apply finishEnd_keeps | with_reducible apply done_keeps | with_reducible apply ackMap_keeps | with_reducible exact Keeps.refl | intro _ | split | dsimp only)

theorem ackFrame_keeps {s t : State} (h : Keeps s t) (a0 : Nat) (a1 : Nat) : Keeps s (ackFrame a0 a1 t) := by
  unfold ackFrame
  repeat' (first | with_reducible assumption | with_reducible apply ownAcked_keeps | with_reducible apply finishFrame_keeps | with_reducible exact Keeps.refl | intro _ | split | dsimp only)

theorem takeElem_keeps_eq {s t u : State} {ty : Nat} {x : Elem} (h : Keeps s t) (e : takeElem ty t = some (x, u)) : Keeps s u := by
  unfold takeElem at e
  split at e
  · cases e
  · cases e
    exact setMac_keeps h _ h.macTable h.macParked h.macRelays h.macCache

theorem ackIn_keeps {s t : State} (h : Keeps s t) (a0 : FrameIn) : Keeps s (ackIn a0 t) := by
  unfold ackIn
  repeat' (first | with_reducible assumption | with_reducible apply lookup_keeps | with_reducible apply ackFrame_keeps | with_reducible apply malformed_keeps | with_reducible exact Keeps.refl | intro _ | split | dsimp only)

theorem ackElem_keeps {s t : State} (h : Keeps s t)  : Keeps s (ackElem t) := by
  unfold ackElem
  repeat' (first | with_reducible assumption | with_reducible apply takeElem_keeps | with_reducible apply ackFrame_keeps | (refine takeElem_keeps_eq ?_ (by assumption)) | with_reducible apply Keeps.foldl | with_reducible exact Keeps.refl | intro _ | split | dsimp only)

theorem execAckReceived_keeps {s t u : State} (h : Keeps s t) (a0 : BurstId) (e : execAckReceived a0 t = .next u) : Keeps s u := by
  unfold execAckReceived at e
  try dsimp only at e
  repeat' split at e
  all_goals (cases e; repeat' (first | with_reducible assumption | with_reducible apply onFrame_keeps | with_reducible apply ackIn_keeps | with_reducible apply ackElem_keeps | with_reducible exact Keeps.refl | intro _ | split | dsimp only))

theorem takeMap_keeps {s t : State} (h : Keeps s t) (a0 : FrameIn) (a1 : Nat) (a2 : List Byte) : Keeps s (takeMap a0 a1 a2 t) := by
  unfold takeMap
  repeat' (first | with_reducible assumption | with_reducible apply putMap_keeps | with_reducible apply sendAck_keeps | with_reducible apply mirrorDelta_keeps | with_reducible exact Keeps.refl | intro _ | split | dsimp only)

theorem tmapFrame_keeps {s t : State} (h : Keeps s t) (a0 : FrameIn) : Keeps s (tmapFrame a0 t) := by
  unfold tmapFrame
  repeat' (first | with_reducible assumption | with_reducible apply lookup_keeps | with_reducible apply malformed_keeps | with_reducible apply sendAck_keeps | with_reducible apply refuseUnit_keeps | with_reducible apply runJob_keeps | with_reducible apply takeMap_keeps | with_reducible apply confirmJoin_keeps | with_reducible apply noteUnit_keeps | with_reducible apply failUnit_keeps | (refine runJob_keeps_eq ?_ (by assumption)) | with_reducible exact Keeps.refl | intro _ | split | dsimp only)

theorem execTmapReceived_keeps {s t u : State} (h : Keeps s t) (a0 : BurstId) (e : execTmapReceived a0 t = .next u) : Keeps s u := by
  unfold execTmapReceived at e
  try dsimp only at e
  repeat' split at e
  all_goals (cases e; repeat' (first | with_reducible assumption | with_reducible apply onFrame_keeps | with_reducible apply tmapFrame_keeps | with_reducible exact Keeps.refl | intro _ | split | dsimp only))

theorem sendMap_keeps {s t : State} (h : Keeps s t) (i : Nat) (l : List Nat) : Keeps s (sendMap i l t) := by
  unfold sendMap
  extract_lets e cur r s1
  have k : Keeps s s1 := putMap_keeps h _
  clear_value s1
  split
  · exact k
  · exact addFrame_keeps (mirrorDelta_keeps k _) _

theorem execTmapPeriodExpiry_keeps {s t u : State} (h : Keeps s t) (a0 : CtxIndex) (a1 : List Nat) (e : execTmapPeriodExpiry a0 a1 t = .next u) : Keeps s u := by
  unfold execTmapPeriodExpiry at e
  try dsimp only at e
  repeat' split at e
  all_goals (cases e; repeat' (first | with_reducible assumption | with_reducible apply sendMap_keeps | with_reducible exact Keeps.refl | intro _ | split | dsimp only))

theorem grantReq_keeps {s t : State} (h : Keeps s t) (a0 : FrameIn) : Keeps s (grantReq a0 t) := by
  unfold grantReq
  repeat' (first | with_reducible assumption | with_reducible apply lookup_keeps | with_reducible apply setAssoc_keeps | with_reducible apply malformed_keeps | with_reducible exact Keeps.refl | intro _ | split | dsimp only)

theorem execGrantReq_keeps {s t u : State} (h : Keeps s t) (a0 : BurstId) (e : execGrantReq a0 t = .next u) : Keeps s u := by
  unfold execGrantReq at e
  try dsimp only at e
  repeat' split at e
  all_goals (cases e; repeat' (first | with_reducible assumption | with_reducible apply onFrame_keeps | with_reducible apply grantReq_keeps | with_reducible exact Keeps.refl | intro _ | split | dsimp only))

theorem floodUnit_keeps {s t : State} (h : Keeps s t) (a0 : FrameIn) (a1 : Nat) : Keeps s (floodUnit a0 a1 t) := by
  unfold floodUnit
  repeat' (first | with_reducible assumption | with_reducible apply lookup_keeps | with_reducible apply malformed_keeps | with_reducible apply unitsIn_keeps | with_reducible apply setRelay_keeps | with_reducible apply sendAck_keeps | with_reducible apply count_keeps | (refine unitsIn_keeps_eq ?_ (by assumption)) | with_reducible exact Keeps.refl | intro _ | split | dsimp only)

theorem floodCopy_keeps {s t : State} (h : Keeps s t) (a0 : FrameIn) : Keeps s (floodCopy a0 t) := by
  unfold floodCopy
  repeat' (first | with_reducible assumption | with_reducible apply malformed_keeps | with_reducible apply count_keeps | with_reducible apply floodUnit_keeps | with_reducible apply setMac_keeps | with_reducible apply Keeps.macTable | with_reducible apply Keeps.macParked | with_reducible apply Keeps.macRelays | with_reducible apply Keeps.macCache | with_reducible apply Map.wf_set | with_reducible apply Map.wf_filter | with_reducible exact Map.wf_nil | with_reducible exact Keeps.refl | intro _ | split | dsimp only)

theorem execFloodCopyReceived_keeps {s t u : State} (h : Keeps s t) (a0 : BurstId) (e : execFloodCopyReceived a0 t = .next u) : Keeps s u := by
  unfold execFloodCopyReceived at e
  try dsimp only at e
  repeat' split at e
  all_goals (cases e; repeat' (first | with_reducible assumption | with_reducible apply onFrame_keeps | with_reducible apply floodCopy_keeps | with_reducible exact Keeps.refl | intro _ | split | dsimp only))

theorem execFloodKeyExpiry_keeps {s t u : State} (h : Keeps s t)  (e : execFloodKeyExpiry t = .next u) : Keeps s u := by
  unfold execFloodKeyExpiry at e
  try dsimp only at e
  repeat' split at e
  all_goals (cases e; repeat' (first | with_reducible assumption | with_reducible apply setMac_keeps | with_reducible apply Keeps.macTable | with_reducible apply Keeps.macParked | with_reducible apply Keeps.macRelays | with_reducible apply Keeps.macCache | with_reducible apply Map.wf_set | with_reducible apply Map.wf_filter | with_reducible exact Map.wf_nil | with_reducible exact Keeps.refl | intro _ | split | dsimp only))

end Sys2Proof.Machine
end

