-- ==== Sys2Proof/Laws/KeepsCipher.lean ====
section
/-! SUPPORT. Sys2Proof/Laws/KeepsCipher.lean: what the operations of Machine/Cipher.lean keep of a state. -/
namespace Sys2Proof.Machine

theorem setJobs_keeps {s t : State} (h : Keeps s t) (a0 : Nat) (a1 : List Job) : Keeps s (setJobs a0 a1 t) := by
  unfold setJobs
  repeat' (first | with_reducible assumption | with_reducible exact Keeps.refl | (with_reducible refine Keeps.upd ?_ (by with_reducible rfl); first | with_reducible assumption | with_reducible exact Keeps.refl | split) | intro _ | split | dsimp only | (with_reducible refine Keeps.updTable ?_ (fun w => by simp only [State.wf, State.hostWf, State.lineWf, State.memWf, State.serviceWf, Bool.and_eq_true] at w ⊢; simp_all only [Map.wf_set, Map.wf_filter, Map.wf_mapVals, Map.wf_nil, and_self]); first | with_reducible assumption | with_reducible exact Keeps.refl | split))

theorem submitJob_keeps {s t : State} (h : Keeps s t) (a0 : Nat) (a1 : Job) : Keeps s (submitJob a0 a1 t) := by
  unfold submitJob
  repeat' (first | with_reducible assumption | with_reducible apply setJobs_keeps | with_reducible exact Keeps.refl | (with_reducible refine Keeps.upd ?_ (by with_reducible rfl); first | with_reducible assumption | with_reducible apply setJobs_keeps | with_reducible exact Keeps.refl | split) | intro _ | split | dsimp only | (with_reducible refine Keeps.updTable ?_ (fun w => by simp only [State.wf, State.hostWf, State.lineWf, State.memWf, State.serviceWf, Bool.and_eq_true] at w ⊢; simp_all only [Map.wf_set, Map.wf_filter, Map.wf_mapVals, Map.wf_nil, and_self]); first | with_reducible assumption | with_reducible apply setJobs_keeps | with_reducible exact Keeps.refl | split))

theorem setHeldJobs_keeps {s t : State} (h : Keeps s t) (a0 : List Held) : Keeps s (setHeldJobs a0 t) := by
  unfold setHeldJobs
  repeat' (first | with_reducible assumption | with_reducible apply refreshGate_keeps | with_reducible apply setF_keeps | with_reducible exact Keeps.refl | (with_reducible refine Keeps.upd ?_ (by with_reducible rfl); first | with_reducible assumption | with_reducible apply refreshGate_keeps | with_reducible apply setF_keeps | with_reducible exact Keeps.refl | split) | intro _ | split | dsimp only | (with_reducible refine Keeps.updTable ?_ (fun w => by simp only [State.wf, State.hostWf, State.lineWf, State.memWf, State.serviceWf, Bool.and_eq_true] at w ⊢; simp_all only [Map.wf_set, Map.wf_filter, Map.wf_mapVals, Map.wf_nil, and_self]); first | with_reducible assumption | with_reducible apply refreshGate_keeps | with_reducible apply setF_keeps | with_reducible exact Keeps.refl | split))

theorem readInputs_keeps {s t : State} (h : Keeps s t) (a0 : Job) : Keeps s (readInputs a0 t).2 := by
  unfold readInputs
  repeat' (first | with_reducible assumption | with_reducible apply touchArea_keeps | with_reducible apply Keeps.foldl | with_reducible exact Keeps.refl | intro _ | split | dsimp only)

theorem readInputs_keeps_eq {s t u : State} {a0 : Job} {y0} (h : Keeps s t) (e : readInputs a0 t = (y0, u)) : Keeps s u := by
  have k := readInputs_keeps h a0
  rw [e] at k
  exact k

theorem openTest_keeps {s t : State} (h : Keeps s t) (a0 : Job) : Keeps s (openTest a0 t).2 := by
  unfold openTest
  repeat' (first | with_reducible assumption | with_reducible apply readInputs_keeps | (refine readInputs_keeps_eq ?_ (by assumption)) | with_reducible exact Keeps.refl | intro _ | split | dsimp only)

theorem openTest_keeps_eq {s t u : State} {a0 : Job} {y0} (h : Keeps s t) (e : openTest a0 t = (y0, u)) : Keeps s u := by
  have k := openTest_keeps h a0
  rw [e] at k
  exact k

theorem frameReady_keeps {s t : State} (h : Keeps s t) (a0 : Frame) (a1 : List Byte) : Keeps s (frameReady a0 a1 t) := by
  unfold frameReady
  repeat' (first | with_reducible assumption | with_reducible apply setCtx_keeps | with_reducible apply setFrame_keeps | with_reducible apply count_keeps | with_reducible exact Keeps.refl | intro _ | split | dsimp only)

theorem frameFailed_keeps {s t : State} (h : Keeps s t) (a0 : Frame) (a1 : Nat) : Keeps s (frameFailed a0 a1 t) := by
  unfold frameFailed
  repeat' (first | with_reducible assumption | with_reducible apply finishFrame_keeps | with_reducible apply sf2Reject_keeps | with_reducible apply jobRefused_keeps | with_reducible exact Keeps.refl | intro _ | split | dsimp only)

theorem endFrameJob_keeps {s t : State} (h : Keeps s t) (a0 : Job) (a1 : Nat) (a2 : Nat) (a3 : List Byte) (a4 : Nat) : Keeps s (endFrameJob a0 a1 a2 a3 a4 t) := by
  unfold endFrameJob
  repeat' (first | with_reducible assumption | with_reducible apply frameReady_keeps | with_reducible apply frameFailed_keeps | with_reducible exact Keeps.refl | intro _ | split | dsimp only)

theorem endTestJob_keeps {s t : State} (h : Keeps s t) (a0 : Held) (a1 : Nat) (a2 : List Byte) : Keeps s (endTestJob a0 a1 a2 t) := by
  unfold endTestJob
  repeat' (first | with_reducible assumption | with_reducible apply busWrite_keeps | with_reducible apply complete_keeps | with_reducible exact Keeps.refl | intro _ | split | dsimp only)

theorem releaseSlot_keeps {s t : State} (h : Keeps s t) (a0 : Outstanding) : Keeps s (releaseSlot a0 t) := by
  unfold releaseSlot
  repeat' (first | with_reducible assumption | with_reducible apply setPhase_keeps | with_reducible apply startEnd_keeps | with_reducible apply endCommands_keeps | with_reducible apply setAssoc_keeps | with_reducible apply dropFrames_keeps | with_reducible apply setMac_keeps | with_reducible apply finishEnd_keeps | with_reducible apply Keeps.macTable | with_reducible apply Keeps.macParked | with_reducible apply Keeps.macRelays | with_reducible apply Keeps.macCache | with_reducible apply Map.wf_set | with_reducible apply Map.wf_filter | with_reducible exact Map.wf_nil | with_reducible exact Keeps.refl | intro _ | split | dsimp only)

theorem resumeRelease_keeps {s t : State} (h : Keeps s t)  : Keeps s (resumeRelease t) := by
  unfold resumeRelease
  repeat' (first | with_reducible assumption | with_reducible apply releaseSlot_keeps | with_reducible exact Keeps.refl | intro _ | split | dsimp only)

theorem endJob_keeps {s t : State} (h : Keeps s t) (a0 : Held) (a1 : Nat) (a2 : List Byte) : Keeps s (endJob a0 a1 a2 t) := by
  unfold endJob
  repeat' (first | with_reducible assumption | with_reducible apply countJob_keeps | with_reducible apply setHeldJobs_keeps | with_reducible apply endTestJob_keeps | with_reducible apply resumeRelease_keeps | with_reducible apply endFrameJob_keeps | with_reducible exact Keeps.refl | intro _ | split | dsimp only)

theorem endQueued_keeps {s t : State} (h : Keeps s t) (a0 : Nat) (a1 : Job) (a2 : Nat) : Keeps s (endQueued a0 a1 a2 t) := by
  unfold endQueued
  repeat' (first | with_reducible assumption | with_reducible apply endJob_keeps | with_reducible exact Keeps.refl | intro _ | split | dsimp only)

theorem takeJob_keeps {s t : State} (h : Keeps s t) (a0 : Nat) : Keeps s (takeJob a0 t) := by
  unfold takeJob
  repeat' (first | with_reducible assumption | with_reducible apply endQueued_keeps | with_reducible apply setJobs_keeps | with_reducible apply openTest_keeps | with_reducible apply setPhase_keeps | with_reducible apply acceptJob_keeps | with_reducible apply setHeldJobs_keeps | (refine openTest_keeps_eq ?_ (by assumption)) | (refine acceptJob_keeps_eq ?_ (by assumption)) | with_reducible exact Keeps.refl | intro _ | split | dsimp only)

theorem execCipherJobTaken_keeps {s t u : State} (h : Keeps s t) (a0 : Fin 18) (e : execCipherJobTaken a0 t = .next u) : Keeps s u := by
  unfold execCipherJobTaken at e
  try dsimp only at e
  repeat' split at e
  all_goals (cases e; repeat' (first | with_reducible assumption | with_reducible apply takeJob_keeps | with_reducible exact Keeps.refl | intro _ | split | dsimp only))

theorem completeJob_keeps {s t : State} (h : Keeps s t) (a0 : Nat) (a1 : Nat) (a2 : Bool) : Keeps s (completeJob a0 a1 a2 t) := by
  unfold completeJob
  repeat' (first | with_reducible assumption | with_reducible apply endJob_keeps | with_reducible apply jobResult_keeps | (refine jobResult_keeps_eq ?_ (by assumption)) | with_reducible exact Keeps.refl | intro _ | split | dsimp only)

theorem execCipherJobComplete_keeps {s t u : State} (h : Keeps s t) (a0 : Fin 2) (a1 : Fin 8) (a2 : Bool) (e : execCipherJobComplete a0 a1 a2 t = .next u) : Keeps s u := by
  unfold execCipherJobComplete at e
  try dsimp only at e
  repeat' split at e
  all_goals (cases e; repeat' (first | with_reducible assumption | with_reducible apply completeJob_keeps | with_reducible exact Keeps.refl | intro _ | split | dsimp only))

theorem abandonJob_keeps {s t : State} (h : Keeps s t) (a0 : Nat) (a1 : Nat) : Keeps s (abandonJob a0 a1 t) := by
  unfold abandonJob
  repeat' (first | with_reducible assumption | with_reducible apply endQueued_keeps | with_reducible apply setJobs_keeps | with_reducible apply endJob_keeps | with_reducible exact Keeps.refl | intro _ | split | dsimp only)

theorem execCipherJobAbandon_keeps {s t u : State} (h : Keeps s t) (a0 : Fin 18) (a1 : Word) (e : execCipherJobAbandon a0 a1 t = .next u) : Keeps s u := by
  unfold execCipherJobAbandon at e
  try dsimp only at e
  repeat' split at e
  all_goals (cases e; repeat' (first | with_reducible assumption | with_reducible apply abandonJob_keeps | with_reducible exact Keeps.refl | intro _ | split | dsimp only))

theorem execReserveWaitTimeout_keeps {s t u : State} (h : Keeps s t) (a0 : Fin 2) (a1 : Fin 8) (e : execReserveWaitTimeout a0 a1 t = .next u) : Keeps s u := by
  unfold execReserveWaitTimeout at e
  try dsimp only at e
  repeat' split at e
  all_goals (cases e; repeat' (first | with_reducible assumption | with_reducible apply endJob_keeps | with_reducible exact Keeps.refl | intro _ | split | dsimp only))

theorem cipFault_keeps {s t : State} (h : Keeps s t) (a0 : Nat) : Keeps s (cipFault a0 t) := by
  unfold cipFault
  repeat' (first | with_reducible assumption | with_reducible apply setF_keeps | with_reducible apply setFault_keeps | with_reducible exact Keeps.refl | intro _ | split | dsimp only)

theorem pipeOut_keeps {s t : State} (h : Keeps s t) (a0 : Nat) (a1 : Nat) : Keeps s (pipeOut a0 a1 t) := by
  unfold pipeOut
  repeat' (first | with_reducible assumption | with_reducible apply setB_keeps | with_reducible apply raise_keeps | with_reducible apply cipFault_keeps | with_reducible apply refreshGate_keeps | with_reducible apply endJob_keeps | with_reducible apply Keeps.foldl | with_reducible exact Keeps.refl | (with_reducible refine Keeps.upd ?_ (by with_reducible rfl); first | with_reducible assumption | with_reducible apply setB_keeps | with_reducible apply raise_keeps | with_reducible apply cipFault_keeps | with_reducible apply refreshGate_keeps | with_reducible apply endJob_keeps | with_reducible apply Keeps.foldl | with_reducible exact Keeps.refl | split) | intro _ | split | dsimp only | (with_reducible refine Keeps.updTable ?_ (fun w => by simp only [State.wf, State.hostWf, State.lineWf, State.memWf, State.serviceWf, Bool.and_eq_true] at w ⊢; simp_all only [Map.wf_set, Map.wf_filter, Map.wf_mapVals, Map.wf_nil, and_self]); first | with_reducible assumption | with_reducible apply setB_keeps | with_reducible apply raise_keeps | with_reducible apply cipFault_keeps | with_reducible apply refreshGate_keeps | with_reducible apply endJob_keeps | with_reducible apply Keeps.foldl | with_reducible exact Keeps.refl | split))

theorem noteParity_keeps {s t : State} (h : Keeps s t) (a0 : Nat) : Keeps s (noteParity a0 t) := by
  unfold noteParity
  repeat' (first | with_reducible assumption | with_reducible exact Keeps.refl | (with_reducible refine Keeps.upd ?_ (by with_reducible rfl); first | with_reducible assumption | with_reducible exact Keeps.refl | split) | intro _ | split | dsimp only)

theorem failHeld_keeps {s t : State} (h : Keeps s t) (a0 : Nat) (a1 : Nat) : Keeps s (failHeld a0 a1 t) := by
  unfold failHeld
  repeat' (first | with_reducible assumption | with_reducible apply endJob_keeps | with_reducible exact Keeps.refl | intro _ | split | dsimp only)

theorem parityError_keeps {s t : State} (h : Keeps s t) (p k : Nat) : Keeps s (parityError p k t) := by
  have k1 : Keeps s (failHeld p k (diagReport 5 .cip (raise .cip CIP_INT.PARITY (noteParity p t)))) :=
    failHeld_keeps (diagReport_keeps (raise_keeps (noteParity_keeps h _) _ _) _ _) _ _
  unfold parityError
  generalize failHeld p k (diagReport 5 .cip (raise .cip CIP_INT.PARITY (noteParity p t))) = u at k1 ⊢
  dsimp only
  split
  · exact pipeOut_keeps k1 _ _
  · exact k1

theorem execCipherParityError_keeps {s t u : State} (h : Keeps s t) (a0 : Fin 2) (a1 : Fin 8) (e : execCipherParityError a0 a1 t = .next u) : Keeps s u := by
  unfold execCipherParityError at e
  try dsimp only at e
  repeat' split at e
  all_goals (cases e; repeat' (first | with_reducible assumption | with_reducible apply parityError_keeps | with_reducible exact Keeps.refl | intro _ | split | dsimp only))

theorem execDrbgHealthFail_keeps {s t u : State} (h : Keeps s t)  (e : execDrbgHealthFail t = .next u) : Keeps s u := by
  unfold execDrbgHealthFail at e
  try dsimp only at e
  repeat' split at e
  all_goals (cases e; repeat' (first | with_reducible assumption | with_reducible apply setB_keeps | with_reducible apply cipFault_keeps | with_reducible exact Keeps.refl | intro _ | split | dsimp only))

theorem runTestJob_keeps {s t : State} (h : Keeps s t) (a0 : Outstanding) : Keeps s (runTestJob a0 t) := by
  unfold runTestJob
  repeat' (first | with_reducible assumption | with_reducible apply touchArea_keeps | with_reducible apply done_keeps | with_reducible apply submitJob_keeps | with_reducible exact Keeps.refl | intro _ | split | dsimp only)

theorem execTestJob_keeps {s t u : State} (h : Keeps s t) (a0 : CmdSrc) (e : execTestJob a0 t = .next u) : Keeps s u := by
  unfold execTestJob at e
  try dsimp only at e
  repeat' split at e
  all_goals (cases e; repeat' (first | with_reducible assumption | with_reducible apply issue_keeps | with_reducible apply runTestJob_keeps | with_reducible exact Keeps.refl | intro _ | split | dsimp only))

theorem abortTestJob_keeps {s t : State} (h : Keeps s t) (a0 : Outstanding) : Keeps s (abortTestJob a0 t) := by
  unfold abortTestJob
  repeat' (first | with_reducible assumption | with_reducible apply done_keeps | with_reducible apply setJobs_keeps | with_reducible apply endJob_keeps | with_reducible apply complete_keeps | with_reducible exact Keeps.refl | intro _ | split | dsimp only)

theorem execSelfTest_keeps {s t u : State} (h : Keeps s t) (a0 : CmdSrc) (e : execSelfTest a0 t = .next u) : Keeps s u := by
  unfold execSelfTest at e
  try dsimp only at e
  repeat' split at e
  all_goals (cases e; repeat' (first | with_reducible assumption | with_reducible apply issue_keeps | with_reducible exact Keeps.refl | intro _ | split | dsimp only))

theorem finishSelfTest_keeps {s t : State} (h : Keeps s t) (a0 : Option (Fin 2)) : Keeps s (finishSelfTest a0 t) := by
  unfold finishSelfTest
  repeat' (first | with_reducible assumption | with_reducible apply done_keeps | with_reducible apply complete_keeps | with_reducible apply raise_keeps | with_reducible apply pipeOut_keeps | with_reducible exact Keeps.refl | intro _ | split | dsimp only)

theorem zeroTestKey_keeps {s t : State} (h : Keeps s t)  : Keeps s (zeroTestKey t) := by
  unfold zeroTestKey
  repeat' (first | with_reducible assumption | with_reducible apply resetOffsets_keeps | with_reducible apply setB_keeps | with_reducible exact Keeps.refl | (with_reducible refine Keeps.upd ?_ (by with_reducible rfl); first | with_reducible assumption | with_reducible apply resetOffsets_keeps | with_reducible apply setB_keeps | with_reducible exact Keeps.refl | split) | intro _ | split | dsimp only)

theorem execZeroTestKey_keeps {s t u : State} (h : Keeps s t) (a0 : CmdSrc) (e : execZeroTestKey a0 t = .next u) : Keeps s u := by
  unfold execZeroTestKey at e
  try dsimp only at e
  repeat' split at e
  all_goals (cases e; repeat' (first | with_reducible assumption | with_reducible apply issue_keeps | with_reducible apply done_keeps | with_reducible apply zeroTestKey_keeps | with_reducible exact Keeps.refl | intro _ | split | dsimp only))

theorem execCipTestCtlWrite_keeps {s t u : State} (h : Keeps s t) (a0 : Word) (e : execCipTestCtlWrite a0 t = .next u) : Keeps s u := by
  unfold execCipTestCtlWrite at e
  try dsimp only at e
  repeat' split at e
  all_goals (cases e; repeat' (first | with_reducible assumption | with_reducible apply writeFields_keeps | with_reducible apply zeroTestKey_keeps | with_reducible exact Keeps.refl | intro _ | split | dsimp only))

theorem execCipTestKeyWrite_keeps {s t u : State} (h : Keeps s t) (a0 : Fin 8) (a1 : Word) (e : execCipTestKeyWrite a0 a1 t = .next u) : Keeps s u := by
  unfold execCipTestKeyWrite at e
  try dsimp only at e
  repeat' split at e
  all_goals (cases e; repeat' (first | with_reducible assumption | with_reducible apply setI_keeps | with_reducible apply setB_keeps | with_reducible exact Keeps.refl | (with_reducible refine Keeps.upd ?_ (by with_reducible rfl); first | with_reducible assumption | with_reducible apply setI_keeps | with_reducible apply setB_keeps | with_reducible exact Keeps.refl | split) | intro _ | split | dsimp only))

theorem cipBlkReset_keeps {s t : State} (h : Keeps s t)  : Keeps s (cipBlkReset t) := by
  unfold cipBlkReset
  repeat' (first | with_reducible assumption | with_reducible apply setJobs_keeps | with_reducible apply complete_keeps | with_reducible apply endJob_keeps | with_reducible apply zeroTestKey_keeps | with_reducible apply resetOffsets_keeps | with_reducible apply Keeps.foldl | with_reducible exact Keeps.refl | (with_reducible refine Keeps.upd ?_ (by with_reducible rfl); first | with_reducible assumption | with_reducible apply setJobs_keeps | with_reducible apply complete_keeps | with_reducible apply endJob_keeps | with_reducible apply zeroTestKey_keeps | with_reducible apply resetOffsets_keeps | with_reducible apply Keeps.foldl | with_reducible exact Keeps.refl | split) | intro _ | split | dsimp only)

theorem execCipBlkReset_keeps {s t u : State} (h : Keeps s t)  (e : execCipBlkReset t = .next u) : Keeps s u := by
  unfold execCipBlkReset at e
  try dsimp only at e
  repeat' split at e
  all_goals (cases e; repeat' (first | with_reducible assumption | with_reducible apply cipBlkReset_keeps | with_reducible exact Keeps.refl | intro _ | split | dsimp only))

end Sys2Proof.Machine
end

