-- ==== Sys2Proof/Laws/KeepsAsc.lean ====
section
/-! SUPPORT. Sys2Proof/Laws/KeepsAsc.lean: what the operations of Machine/Asc.lean keep of a state. -/
namespace Sys2Proof.Machine

theorem setResult_keeps {s t : State} (h : Keeps s t) (a0 : Bool) (a1 : Nat) : Keeps s (setResult a0 a1 t) := by
  unfold setResult
  repeat' (first | with_reducible assumption | with_reducible apply setB_keeps | with_reducible apply setF_keeps | with_reducible exact Keeps.refl | intro _ | split | dsimp only)

theorem runProvision_keeps {s t : State} (h : Keeps s t) (a0 : Outstanding) : Keeps s (runProvision a0 t) := by
  unfold runProvision
  repeat' (first | with_reducible assumption | with_reducible apply touchArea_keeps | with_reducible apply done_keeps | with_reducible apply setResult_keeps | with_reducible apply setParked_keeps | with_reducible exact Keeps.refl | intro _ | split | dsimp only)

theorem execProvision_keeps {s t u : State} (h : Keeps s t) (a0 : CmdSrc) (e : execProvision a0 t = .next u) : Keeps s u := by
  unfold execProvision at e
  try dsimp only at e
  repeat' split at e
  all_goals (cases e; repeat' (first | with_reducible assumption | with_reducible apply issue_keeps | with_reducible apply runProvision_keeps | with_reducible exact Keeps.refl | intro _ | split | dsimp only))

theorem runReadCtx_keeps {s t : State} (h : Keeps s t) (a0 : Outstanding) : Keeps s (runReadCtx a0 t) := by
  unfold runReadCtx
  repeat' (first | with_reducible assumption | with_reducible apply done_keeps | with_reducible apply busWrite_keeps | with_reducible exact Keeps.refl | intro _ | split | dsimp only)

theorem execReadCtx_keeps {s t u : State} (h : Keeps s t) (a0 : CmdSrc) (e : execReadCtx a0 t = .next u) : Keeps s u := by
  unfold execReadCtx at e
  try dsimp only at e
  repeat' split at e
  all_goals (cases e; repeat' (first | with_reducible assumption | with_reducible apply issue_keeps | with_reducible apply runReadCtx_keeps | with_reducible exact Keeps.refl | intro _ | split | dsimp only))

theorem runFind_keeps {s t : State} (h : Keeps s t) (a0 : Outstanding) : Keeps s (runFind a0 t) := by
  unfold runFind
  repeat' (first | with_reducible assumption | with_reducible apply done_keeps | with_reducible apply setResult_keeps | with_reducible exact Keeps.refl | intro _ | split | dsimp only)

theorem execFind_keeps {s t u : State} (h : Keeps s t) (a0 : CmdSrc) (e : execFind a0 t = .next u) : Keeps s u := by
  unfold execFind at e
  try dsimp only at e
  repeat' split at e
  all_goals (cases e; repeat' (first | with_reducible assumption | with_reducible apply issue_keeps | with_reducible apply runFind_keeps | with_reducible exact Keeps.refl | intro _ | split | dsimp only))

theorem runRelease_keeps {s t : State} (h : Keeps s t) (a0 : Outstanding) : Keeps s (runRelease a0 t) := by
  unfold runRelease
  repeat' (first | with_reducible assumption | with_reducible apply done_keeps | with_reducible apply resumeRelease_keeps | with_reducible exact Keeps.refl | intro _ | split | dsimp only)

theorem execRelease_keeps {s t u : State} (h : Keeps s t) (a0 : CmdSrc) (e : execRelease a0 t = .next u) : Keeps s u := by
  unfold execRelease at e
  try dsimp only at e
  repeat' split at e
  all_goals (cases e; repeat' (first | with_reducible assumption | with_reducible apply issue_keeps | with_reducible apply runRelease_keeps | with_reducible exact Keeps.refl | intro _ | split | dsimp only))

theorem execPark_keeps {s t u : State} (h : Keeps s t) (a0 : CmdSrc) (e : execPark a0 t = .next u) : Keeps s u := by
  unfold execPark at e
  try dsimp only at e
  repeat' split at e
  all_goals (cases e; repeat' (first | with_reducible assumption | with_reducible apply issue_keeps | with_reducible apply runRelease_keeps | with_reducible exact Keeps.refl | intro _ | split | dsimp only))

theorem runRekey_keeps {s t : State} (h : Keeps s t) (a0 : Outstanding) : Keeps s (runRekey a0 t) := by
  unfold runRekey
  repeat' (first | with_reducible assumption | with_reducible apply done_keeps | with_reducible apply startRekey_keeps | with_reducible exact Keeps.refl | intro _ | split | dsimp only)

theorem execRekey_keeps {s t u : State} (h : Keeps s t) (a0 : CmdSrc) (e : execRekey a0 t = .next u) : Keeps s u := by
  unfold execRekey at e
  try dsimp only at e
  repeat' split at e
  all_goals (cases e; repeat' (first | with_reducible assumption | with_reducible apply issue_keeps | with_reducible apply runRekey_keeps | with_reducible exact Keeps.refl | intro _ | split | dsimp only))

theorem rekeySent_keeps {s t : State} (h : Keeps s t) (a0 : Nat) : Keeps s (rekeySent a0 t) := by
  unfold rekeySent
  repeat' (first | with_reducible assumption | with_reducible apply setAssoc_keeps | with_reducible apply done_keeps | with_reducible exact Keeps.refl | intro _ | split | dsimp only)

theorem runDeleteParked_keeps {s t : State} (h : Keeps s t) (a0 : Outstanding) : Keeps s (runDeleteParked a0 t) := by
  unfold runDeleteParked
  repeat' (first | with_reducible assumption | with_reducible apply done_keeps | with_reducible apply setParked_keeps | with_reducible exact Keeps.refl | intro _ | split | dsimp only)

theorem execDeleteParked_keeps {s t u : State} (h : Keeps s t) (a0 : CmdSrc) (e : execDeleteParked a0 t = .next u) : Keeps s u := by
  unfold execDeleteParked at e
  try dsimp only at e
  repeat' split at e
  all_goals (cases e; repeat' (first | with_reducible assumption | with_reducible apply issue_keeps | with_reducible apply runDeleteParked_keeps | with_reducible exact Keeps.refl | intro _ | split | dsimp only))

theorem runSetRecord_keeps {s t : State} (h : Keeps s t) (a0 : Outstanding) : Keeps s (runSetRecord a0 t) := by
  unfold runSetRecord
  repeat' (first | with_reducible assumption | with_reducible apply done_keeps | with_reducible apply setParked_keeps | with_reducible apply setCtx_keeps | with_reducible exact Keeps.refl | intro _ | split | dsimp only)

theorem execSetRecord_keeps {s t u : State} (h : Keeps s t) (a0 : CmdSrc) (e : execSetRecord a0 t = .next u) : Keeps s u := by
  unfold execSetRecord at e
  try dsimp only at e
  repeat' split at e
  all_goals (cases e; repeat' (first | with_reducible assumption | with_reducible apply issue_keeps | with_reducible apply runSetRecord_keeps | with_reducible exact Keeps.refl | intro _ | split | dsimp only))

theorem rotateBkey_keeps {s t : State} (h : Keeps s t)  : Keeps s (rotateBkey t) := by
  unfold rotateBkey
  repeat' (first | with_reducible assumption | with_reducible apply randBytes_keeps | with_reducible apply setMac_keeps | with_reducible apply setB_keeps | with_reducible apply sendBkey_keeps | (refine randBytes_keeps_eq ?_ (by assumption)) | with_reducible apply Keeps.foldl | with_reducible apply Keeps.macTable | with_reducible apply Keeps.macParked | with_reducible apply Keeps.macRelays | with_reducible apply Keeps.macCache | with_reducible apply Map.wf_set | with_reducible apply Map.wf_filter | with_reducible exact Map.wf_nil | with_reducible exact Keeps.refl | intro _ | split | dsimp only)

theorem runRotateBkey_keeps {s t : State} (h : Keeps s t) (a0 : Outstanding) : Keeps s (runRotateBkey a0 t) := by
  unfold runRotateBkey
  repeat' (first | with_reducible assumption | with_reducible apply done_keeps | with_reducible apply setResult_keeps | with_reducible apply rotateBkey_keeps | with_reducible exact Keeps.refl | intro _ | split | dsimp only)

theorem execRotateBkey_keeps {s t u : State} (h : Keeps s t) (a0 : CmdSrc) (e : execRotateBkey a0 t = .next u) : Keeps s u := by
  unfold execRotateBkey at e
  try dsimp only at e
  repeat' split at e
  all_goals (cases e; repeat' (first | with_reducible assumption | with_reducible apply issue_keeps | with_reducible apply runRotateBkey_keeps | with_reducible exact Keeps.refl | intro _ | split | dsimp only))

theorem execAscBlkReset_keeps {s t u : State} (h : Keeps s t)  (e : execAscBlkReset t = .next u) : Keeps s u := by
  unfold execAscBlkReset at e
  try dsimp only at e
  repeat' split at e
  all_goals (cases e; repeat' (first | with_reducible assumption | with_reducible apply blkReset_keeps | with_reducible exact Keeps.refl | intro _ | split | dsimp only))

end Sys2Proof.Machine
end

