-- ==== Sys2Proof/Laws/KeepsDown.lean ====
section
/-! SUPPORT. Sys2Proof/Laws/KeepsDown.lean: what the operations of Machine/Down.lean keep of a state. -/
namespace Sys2Proof.Machine

theorem ringError_keeps {s t : State} (h : Keeps s t) (a0 : Nat) : Keeps s (ringError a0 t) := by
  unfold ringError
  repeat' (first | with_reducible assumption | with_reducible apply logPage_keeps | with_reducible apply raise_keeps | with_reducible apply setF_keeps | with_reducible exact Keeps.refl | intro _ | split | dsimp only)

theorem sf2Discard_keeps {s t : State} (h : Keeps s t) (a0 : Frame) (a1 : Nat) : Keeps s (sf2Discard a0 a1 t) := by
  unfold sf2Discard
  repeat' (first | with_reducible assumption | with_reducible apply finishFrame_keeps | with_reducible apply sf2Reject_keeps | with_reducible exact Keeps.refl | intro _ | split | dsimp only)

theorem submitFrame_keeps {s t : State} (h : Keeps s t) (a0 : Frame) : Keeps s (submitFrame a0 t) := by
  unfold submitFrame
  repeat' (first | with_reducible assumption | with_reducible apply nextFseq_keeps | with_reducible apply submitJob_keeps | with_reducible apply setFrame_keeps | (refine nextFseq_keeps_eq ?_ (by assumption)) | with_reducible exact Keeps.refl | intro _ | split | dsimp only)

theorem storeFrame_keeps {s t : State} (h : Keeps s t) (a0 : Option Nat) (a1 : Option Nat) (a2 : DlDesc) (a3 : List Byte) : Keeps s (storeFrame a0 a1 a2 a3 t) := by
  unfold storeFrame
  repeat' (first | with_reducible assumption | with_reducible apply dlDone_keeps | with_reducible apply sf2Reject_keeps | with_reducible apply addFrame_keeps | with_reducible apply setAssoc_keeps | with_reducible apply submitFrame_keeps | with_reducible exact Keeps.refl | intro _ | split | dsimp only)

theorem takeDown_keeps {s t : State} (h : Keeps s t) (ring lane : Option Nat) (d : DlDesc) : Keeps s (takeDown ring lane d t) := by
  unfold takeDown
  dsimp only
  split
  · exact dlDone_keeps h _ _ _ _ _
  · split
    · refine dlDone_keeps ?_ _ _ _ _ _
      cases ring with
      | none => exact h
      | some r => exact ringError_keeps h _
    · repeat' split
      all_goals first | exact dlDone_keeps h _ _ _ _ _ | exact storeFrame_keeps h _ _ _ _

theorem takeDescriptor_keeps {s t : State} (h : Keeps s t) (a0 : Nat) (a1 : DlDesc) : Keeps s (takeDescriptor a0 a1 t) := by
  unfold takeDescriptor
  repeat' (first | with_reducible assumption | with_reducible apply takeDown_keeps | with_reducible apply takeEntry_keeps | with_reducible exact Keeps.refl | intro _ | split | dsimp only)

theorem execDlDescriptorTaken_keeps {s t u : State} (h : Keeps s t) (a0 : Fin 16) (a1 : DlDesc) (e : execDlDescriptorTaken a0 a1 t = .next u) : Keeps s u := by
  unfold execDlDescriptorTaken at e
  try dsimp only at e
  repeat' split at e
  all_goals (cases e; repeat' (first | with_reducible assumption | with_reducible apply takeDescriptor_keeps | with_reducible exact Keeps.refl | intro _ | split | dsimp only))

theorem execSf2Recheck_keeps {s t u : State} (h : Keeps s t) (a0 : Nat) (a1 : Bool) (e : execSf2Recheck a0 a1 t = .next u) : Keeps s u := by
  unfold execSf2Recheck at e
  try dsimp only at e
  repeat' split at e
  all_goals (cases e; repeat' (first | with_reducible assumption | with_reducible apply submitFrame_keeps | with_reducible apply sf2Discard_keeps | with_reducible exact Keeps.refl | intro _ | split | dsimp only))

theorem retransmit_keeps {s t : State} (h : Keeps s t) (a0 : Frame) : Keeps s (retransmit a0 t) := by
  unfold retransmit
  repeat' (first | with_reducible assumption | with_reducible apply setFrame_keeps | with_reducible apply finishFrame_keeps | with_reducible exact Keeps.refl | intro _ | split | dsimp only)

theorem execRetransmitTimeout_keeps {s t u : State} (h : Keeps s t) (a0 : Nat) (e : execRetransmitTimeout a0 t = .next u) : Keeps s u := by
  unfold execRetransmitTimeout at e
  try dsimp only at e
  repeat' split at e
  all_goals (cases e; repeat' (first | with_reducible assumption | with_reducible apply retransmit_keeps | with_reducible exact Keeps.refl | intro _ | split | dsimp only))

end Sys2Proof.Machine
end

