-- ==== Sys2Proof/Laws/KeepsLink.lean ====
section
/-! SUPPORT. Sys2Proof/Laws/KeepsLink.lean: what the operations of Machine/Link.lean keep of a state. -/
namespace Sys2Proof.Machine

theorem laneChange_keeps {s t : State} (h : Keeps s t) (a0 : Nat) (a1 : Nat) : Keeps s (laneChange a0 a1 t) := by
  unfold laneChange
  repeat' (first | with_reducible assumption | with_reducible apply hostEvent_keeps | with_reducible exact Keeps.refl | intro _ | split | dsimp only)

theorem laneRise_keeps {s t : State} (h : Keeps s t) (a0 : Nat) : Keeps s (laneRise a0 t) := by
  unfold laneRise
  repeat' (first | with_reducible assumption | with_reducible apply setB_keeps | with_reducible apply refreshTunnel_keeps | with_reducible apply laneChange_keeps | with_reducible apply raise_keeps | with_reducible apply setLane_keeps | with_reducible exact Keeps.refl | intro _ | split | dsimp only)

theorem mirrorRise_keeps {s t : State} (h : Keeps s t) (a0 : Fin 2) : Keeps s (mirrorRise a0 t) := by
  unfold mirrorRise
  repeat' (first | with_reducible assumption | with_reducible apply raise_keeps | with_reducible apply setB_keeps | with_reducible exact Keeps.refl | intro _ | split | dsimp only)

theorem execLaneUp_keeps {s t u : State} (h : Keeps s t) (a0 : LaneId) (e : execLaneUp a0 t = .next u) : Keeps s u := by
  unfold execLaneUp at e
  try dsimp only at e
  repeat' split at e
  all_goals (cases e; repeat' (first | with_reducible assumption | with_reducible apply laneRise_keeps | with_reducible apply mirrorRise_keeps | with_reducible exact Keeps.refl | intro _ | split | dsimp only))

theorem rerouteHeld_keeps {s t : State} (h : Keeps s t) (a0 : Nat) (a1 : TunnelFrame) : Keeps s (rerouteHeld a0 a1 t) := by
  unfold rerouteHeld
  repeat' (first | with_reducible assumption | with_reducible apply divert_keeps | with_reducible apply laneSend_keeps | with_reducible apply count_keeps | with_reducible exact Keeps.refl | intro _ | split | dsimp only)

theorem laneFall_keeps {s t : State} (h : Keeps s t) (a0 : Nat) (a1 : Bool) (a2 : Bool) (a3 : Bool) : Keeps s (laneFall a0 a1 a2 a3 t) := by
  unfold laneFall
  repeat' (first | with_reducible assumption | with_reducible apply setB_keeps | with_reducible apply setLane_keeps | with_reducible apply divert_keeps | with_reducible apply rerouteHeld_keeps | with_reducible apply refreshTunnel_keeps | with_reducible apply laneChange_keeps | with_reducible apply raise_keeps | with_reducible apply Keeps.foldl | with_reducible exact Keeps.refl | intro _ | split | dsimp only)

theorem mirrorFall_keeps {s t : State} (h : Keeps s t) (a0 : Fin 2) (a1 : Bool) (a2 : Bool) : Keeps s (mirrorFall a0 a1 a2 t) := by
  unfold mirrorFall
  repeat' (first | with_reducible assumption | with_reducible apply raise_keeps | with_reducible apply setB_keeps | with_reducible exact Keeps.refl | intro _ | split | dsimp only)

theorem execLaneDown_keeps {s t u : State} (h : Keeps s t) (a0 : LaneId) (a1 : Bool) (a2 : Bool) (e : execLaneDown a0 a1 a2 t = .next u) : Keeps s u := by
  unfold execLaneDown at e
  try dsimp only at e
  repeat' split at e
  all_goals (cases e; repeat' (first | with_reducible assumption | with_reducible apply laneFall_keeps | with_reducible apply mirrorFall_keeps | with_reducible exact Keeps.refl | intro _ | split | dsimp only))

theorem execLanBlkReset_keeps {s t u : State} (h : Keeps s t) (a0 : LaneId) (e : execLanBlkReset a0 t = .next u) : Keeps s u := by
  unfold execLanBlkReset at e
  try dsimp only at e
  repeat' split at e
  all_goals (cases e; repeat' (first | with_reducible assumption | with_reducible apply blkReset_keeps | with_reducible apply laneFall_keeps | with_reducible apply mirrorFall_keeps | with_reducible exact Keeps.refl | intro _ | split | dsimp only))

theorem endPause_keeps {s t : State} (h : Keeps s t) (a0 : Nat) : Keeps s (endPause a0 t) := by
  unfold endPause
  repeat' (first | with_reducible assumption | with_reducible apply setB_keeps | with_reducible apply setLane_keeps | with_reducible apply laneSend_keeps | with_reducible apply Keeps.foldl | with_reducible exact Keeps.refl | intro _ | split | dsimp only)

theorem pauseIn_keeps {s t : State} (h : Keeps s t) (a0 : Nat) (a1 : Nat) : Keeps s (pauseIn a0 a1 t) := by
  unfold pauseIn
  repeat' (first | with_reducible assumption | with_reducible apply raise_keeps | with_reducible apply endPause_keeps | with_reducible apply setB_keeps | with_reducible apply setLane_keeps | with_reducible exact Keeps.refl | intro _ | split | dsimp only)

theorem execPauseReceived_keeps {s t u : State} (h : Keeps s t) (a0 : Lane) (a1 : BitVec 16) (e : execPauseReceived a0 a1 t = .next u) : Keeps s u := by
  unfold execPauseReceived at e
  try dsimp only at e
  repeat' split at e
  all_goals (cases e; repeat' (first | with_reducible assumption | with_reducible apply pauseIn_keeps | with_reducible exact Keeps.refl | intro _ | split | dsimp only))

theorem tickPauses_keeps {s t : State} (h : Keeps s t)  : Keeps s (tickPauses t) := by
  unfold tickPauses
  repeat' (first | with_reducible assumption | with_reducible apply endPause_keeps | with_reducible apply Keeps.foldl | with_reducible exact Keeps.refl | intro _ | split | dsimp only)

theorem badEntry_keeps {s t : State} (h : Keeps s t) (a0 : Fin 4) (a1 : BadEntry) : Keeps s (badEntry a0 a1 t) := by
  unfold badEntry
  repeat' (first | with_reducible assumption | with_reducible apply ringComplete_keeps | with_reducible apply takeEntry_keeps | with_reducible apply issue_keeps | with_reducible apply done_keeps | with_reducible exact Keeps.refl | intro _ | split | dsimp only)

theorem sqProd_keeps {s t : State} (h : Keeps s t) (a0 : Nat) (a1 : Nat) (a2 : List BadEntry) : Keeps s (sqProd a0 a1 a2 t) := by
  unfold sqProd
  repeat' (first | with_reducible assumption | with_reducible apply setRing_keeps | with_reducible apply ringError_keeps | with_reducible apply badEntry_keeps | with_reducible apply Keeps.foldl | with_reducible exact Keeps.refl | intro _ | split | dsimp only)

theorem execSqProdDoorbell_keeps {s t u : State} (h : Keeps s t) (a0 : Fin 32) (a1 : Word) (a2 : List BadEntry) (e : execSqProdDoorbell a0 a1 a2 t = .next u) : Keeps s u := by
  unfold execSqProdDoorbell at e
  try dsimp only at e
  repeat' split at e
  all_goals (cases e; repeat' (first | with_reducible assumption | with_reducible apply sqProd_keeps | with_reducible exact Keeps.refl | intro _ | split | dsimp only))

theorem execCqConsDoorbell_keeps {s t u : State} (h : Keeps s t) (a0 : Fin 32) (a1 : Word) (e : execCqConsDoorbell a0 a1 t = .next u) : Keeps s u := by
  unfold execCqConsDoorbell at e
  try dsimp only at e
  repeat' split at e
  all_goals (cases e; repeat' (first | with_reducible assumption | with_reducible apply flushRing_keeps | with_reducible apply setRing_keeps | with_reducible exact Keeps.refl | intro _ | split | dsimp only))

theorem execRingDmaError_keeps {s t u : State} (h : Keeps s t) (a0 : Fin 29) (e : execRingDmaError a0 t = .next u) : Keeps s u := by
  unfold execRingDmaError at e
  try dsimp only at e
  repeat' split at e
  all_goals (cases e; repeat' (first | with_reducible assumption | with_reducible apply ringError_keeps | with_reducible exact Keeps.refl | intro _ | split | dsimp only))

theorem execRingCoalesceExpiry_keeps {s t u : State} (h : Keeps s t) (a0 : Fin 29) (e : execRingCoalesceExpiry a0 t = .next u) : Keeps s u := by
  unfold execRingCoalesceExpiry at e
  try dsimp only at e
  repeat' split at e
  all_goals (cases e; repeat' (first | with_reducible assumption | with_reducible apply ringMessage_keeps | with_reducible exact Keeps.refl | intro _ | split | dsimp only))

theorem execMsixUnmask_keeps {s t u : State} (h : Keeps s t) (a0 : Fin 64) (e : execMsixUnmask a0 t = .next u) : Keeps s u := by
  unfold execMsixUnmask at e
  try dsimp only at e
  repeat' split at e
  all_goals (cases e; repeat' (first | with_reducible assumption | with_reducible apply emit_keeps | with_reducible exact Keeps.refl | (with_reducible refine Keeps.upd ?_ (by with_reducible rfl); first | with_reducible assumption | with_reducible apply emit_keeps | with_reducible exact Keeps.refl | split) | intro _ | split | dsimp only))

theorem ulComplete_keeps {s t : State} (h : Keeps s t) (a0 : Nat) (a1 : Nat) (a2 : Nat) (a3 : UlFrame) : Keeps s (ulComplete a0 a1 a2 a3 t) := by
  unfold ulComplete
  repeat' (first | with_reducible assumption | with_reducible apply count_keeps | with_reducible apply ringComplete_keeps | with_reducible apply takeEntry_keeps | with_reducible exact Keeps.refl | intro _ | split | dsimp only)

theorem ulDelivery_keeps {s t : State} (h : Keeps s t) (a0 : Nat) (a1 : Nat) : Keeps s (ulDelivery a0 a1 t) := by
  unfold ulDelivery
  repeat' (first | with_reducible assumption | with_reducible apply ulComplete_keeps | with_reducible apply setLink_keeps | with_reducible apply Keeps.linkLanes | with_reducible apply Map.wf_set | with_reducible apply Map.wf_filter | with_reducible exact Map.wf_nil | with_reducible exact Keeps.refl | intro _ | split | dsimp only)

theorem execUlDelivery_keeps {s t u : State} (h : Keeps s t) (a0 : Fin 8) (a1 : BitVec 64) (e : execUlDelivery a0 a1 t = .next u) : Keeps s u := by
  unfold execUlDelivery at e
  try dsimp only at e
  repeat' split at e
  all_goals (cases e; repeat' (first | with_reducible assumption | with_reducible apply ulDelivery_keeps | with_reducible exact Keeps.refl | intro _ | split | dsimp only))

theorem writeLost_keeps {s t : State} (h : Keeps s t)  : Keeps s (writeLost t) := by
  unfold writeLost
  repeat' (first | with_reducible assumption | with_reducible apply ringComplete_keeps | with_reducible apply setRing_keeps | with_reducible exact Keeps.refl | intro _ | split | dsimp only)

theorem eventDelivery_keeps {s t : State} (h : Keeps s t)  : Keeps s (eventDelivery t) := by
  unfold eventDelivery
  repeat' (first | with_reducible assumption | with_reducible apply writeLost_keeps | with_reducible apply setLink_keeps | with_reducible apply ringComplete_keeps | with_reducible apply count_keeps | with_reducible apply setRing_keeps | with_reducible apply logPage_keeps | with_reducible apply raise_keeps | with_reducible apply Keeps.linkLanes | with_reducible apply Map.wf_set | with_reducible apply Map.wf_filter | with_reducible exact Map.wf_nil | with_reducible exact Keeps.refl | intro _ | split | dsimp only)

theorem execEventRecordDelivery_keeps {s t u : State} (h : Keeps s t)  (e : execEventRecordDelivery t = .next u) : Keeps s u := by
  unfold execEventRecordDelivery at e
  try dsimp only at e
  repeat' split at e
  all_goals (cases e; repeat' (first | with_reducible assumption | with_reducible apply eventDelivery_keeps | with_reducible exact Keeps.refl | intro _ | split | dsimp only))

theorem flushFrames_keeps {s t : State} (h : Keeps s t) (a0 : Nat) : Keeps s (flushFrames a0 t) := by
  unfold flushFrames
  repeat' (first | with_reducible assumption | with_reducible apply finishFrame_keeps | with_reducible apply Keeps.foldl | with_reducible exact Keeps.refl | (with_reducible refine Keeps.upd ?_ (by with_reducible rfl); first | with_reducible assumption | with_reducible apply finishFrame_keeps | with_reducible apply Keeps.foldl | with_reducible exact Keeps.refl | split) | intro _ | split | dsimp only | (with_reducible refine Keeps.updTable ?_ (fun w => by simp only [State.wf, State.hostWf, State.lineWf, State.memWf, State.serviceWf, Bool.and_eq_true] at w ⊢; simp_all only [Map.wf_set, Map.wf_filter, Map.wf_mapVals, Map.wf_nil, and_self]); first | with_reducible assumption | with_reducible apply finishFrame_keeps | with_reducible apply Keeps.foldl | with_reducible exact Keeps.refl | split))

theorem killRing_keeps {s t : State} (h : Keeps s t) (a0 : Nat) : Keeps s (killRing a0 t) := by
  unfold killRing
  repeat' (first | with_reducible assumption | with_reducible apply setI_keeps | with_reducible apply setRing_keeps | with_reducible apply setF_keeps | with_reducible apply countN_keeps | with_reducible exact Keeps.refl | intro _ | split | dsimp only)

theorem loseRing_keeps {s t : State} (h : Keeps s t) (a0 : Nat) : Keeps s (loseRing a0 t) := by
  unfold loseRing
  repeat' (first | with_reducible assumption | with_reducible apply setMac_keeps | with_reducible apply setLink_keeps | with_reducible apply Keeps.macTable | with_reducible apply Keeps.macParked | with_reducible apply Keeps.macRelays | with_reducible apply Keeps.macCache | with_reducible apply Keeps.linkLanes | with_reducible apply Map.wf_set | with_reducible apply Map.wf_filter | with_reducible exact Map.wf_nil | with_reducible exact Keeps.refl | (with_reducible refine Keeps.upd ?_ (by with_reducible rfl); first | with_reducible assumption | with_reducible apply setMac_keeps | with_reducible apply setLink_keeps | with_reducible apply Keeps.macTable | with_reducible apply Keeps.macParked | with_reducible apply Keeps.macRelays | with_reducible apply Keeps.macCache | with_reducible apply Keeps.linkLanes | with_reducible apply Map.wf_set | with_reducible apply Map.wf_filter | with_reducible exact Map.wf_nil | with_reducible exact Keeps.refl | split) | intro _ | split | dsimp only | (with_reducible refine Keeps.updTable ?_ (fun w => by simp only [State.wf, State.hostWf, State.lineWf, State.memWf, State.serviceWf, Bool.and_eq_true] at w ⊢; simp_all only [Map.wf_set, Map.wf_filter, Map.wf_mapVals, Map.wf_nil, and_self]); first | with_reducible assumption | with_reducible apply setMac_keeps | with_reducible apply setLink_keeps | with_reducible apply Keeps.macTable | with_reducible apply Keeps.macParked | with_reducible apply Keeps.macRelays | with_reducible apply Keeps.macCache | with_reducible apply Keeps.linkLanes | with_reducible apply Map.wf_set | with_reducible apply Map.wf_filter | with_reducible exact Map.wf_nil | with_reducible exact Keeps.refl | split))

theorem ringResetDone_keeps {s t : State} (h : Keeps s t)  : Keeps s (ringResetDone t) := by
  unfold ringResetDone
  repeat' (first | with_reducible assumption | with_reducible apply done_keeps | with_reducible apply killRing_keeps | with_reducible apply loseRing_keeps | with_reducible exact Keeps.refl | intro _ | split | dsimp only)

theorem runRingReset_keeps {s t : State} (h : Keeps s t) (a0 : Outstanding) : Keeps s (runRingReset a0 t) := by
  unfold runRingReset
  repeat' (first | with_reducible assumption | with_reducible apply done_keeps | with_reducible apply ringResetDone_keeps | with_reducible apply flushFrames_keeps | with_reducible exact Keeps.refl | intro _ | split | dsimp only)

theorem execRingReset_keeps {s t u : State} (h : Keeps s t) (a0 : CmdSrc) (e : execRingReset a0 t = .next u) : Keeps s u := by
  unfold execRingReset at e
  try dsimp only at e
  repeat' split at e
  all_goals (cases e; repeat' (first | with_reducible assumption | with_reducible apply issue_keeps | with_reducible apply runRingReset_keeps | with_reducible exact Keeps.refl | intro _ | split | dsimp only))

theorem deliverRing_keeps {s t : State} (h : Keeps s t) (a0 : Nat) : Keeps s (deliverRing a0 t) := by
  unfold deliverRing
  repeat' (first | with_reducible assumption | with_reducible apply deliverDone_keeps | with_reducible apply setLink_keeps | with_reducible apply Keeps.foldl | with_reducible apply Keeps.linkLanes | with_reducible apply Map.wf_set | with_reducible apply Map.wf_filter | with_reducible exact Map.wf_nil | with_reducible exact Keeps.refl | intro _ | split | dsimp only)

theorem resetRings_keeps {s t : State} (h : Keeps s t)  : Keeps s (resetRings t) := by
  unfold resetRings
  repeat' (first | with_reducible assumption | with_reducible apply killRing_keeps | with_reducible apply loseRing_keeps | with_reducible apply deliverRing_keeps | with_reducible apply flushFrames_keeps | with_reducible apply Keeps.foldl | with_reducible exact Keeps.refl | intro _ | split | dsimp only)

theorem execPciBlkReset_keeps {s t u : State} (h : Keeps s t)  (e : execPciBlkReset  t = .next u) : Keeps s u := by
  unfold execPciBlkReset at e
  obtain rfl := Host.Outcome.next.inj e
  exact blkReset_keeps (resetRings_keeps h) _ _

theorem perstRings_keeps {s t : State} (h : Keeps s t)  : Keeps s (perstRings t) := by
  unfold perstRings
  repeat' (first | with_reducible assumption | with_reducible apply killRing_keeps | with_reducible apply loseRing_keeps | with_reducible apply Keeps.foldl | with_reducible exact Keeps.refl | intro _ | split | dsimp only)

theorem execPcieLinkChange_keeps {s t u : State} (h : Keeps s t) (a0 : Bool) (a1 : BitVec 4) (a2 : BitVec 4) (a3 : Bool) (e : execPcieLinkChange a0 a1 a2 a3 t = .next u) : Keeps s u := by
  unfold execPcieLinkChange at e
  try dsimp only at e
  repeat' split at e
  all_goals (cases e; repeat' (first | with_reducible assumption | with_reducible apply setF_keeps | with_reducible apply setB_keeps | with_reducible apply raise_keeps | with_reducible exact Keeps.refl | intro _ | split | dsimp only))

end Sys2Proof.Machine
end

