-- ==== Sys2Proof/Laws/KeepsSto.lean ====
section
/-! SUPPORT. Sys2Proof/Laws/KeepsSto.lean: what the operations of Machine/Sto.lean keep of a state. -/
namespace Sys2Proof.Machine

theorem setBlock_keeps {s t : State} (h : Keeps s t) (a0 : Nat) (a1 : Nat) (a2 : List Byte) : Keeps s (setBlock a0 a1 a2 t) := by
  unfold setBlock
  repeat' (first | with_reducible assumption | with_reducible exact Keeps.refl | (with_reducible refine Keeps.upd ?_ (by with_reducible rfl); first | with_reducible assumption | with_reducible exact Keeps.refl | split) | intro _ | split | dsimp only | (with_reducible refine Keeps.updTable ?_ (fun w => by simp only [State.wf, State.hostWf, State.lineWf, State.memWf, State.serviceWf, Bool.and_eq_true] at w ⊢; simp_all only [Map.wf_set, Map.wf_filter, Map.wf_mapVals, Map.wf_nil, and_self]); first | with_reducible assumption | with_reducible exact Keeps.refl | split))

theorem flushLog_keeps {s t : State} (h : Keeps s t) : Keeps s (flushLog t) := by
  have k : ∀ (l : List LogRec) (m : List (Nat × Option LogRec)), Map.wf (fun _ => none) m = true →
      Map.wf (fun _ => none) (l.foldl (fun m r => Map.set (fun _ => none) m (r.seq % 2 ^ 28) (some r)) m) = true := by
    intro l
    induction l with
    | nil => exact fun m hm => hm
    | cons r l ih => exact fun m hm => ih _ (Map.wf_set _ _ _ hm)
  refine h.updTable (fun w => ?_)
  simp only [Bool.and_eq_true] at w ⊢
  simp only [w, k, and_self]

theorem runBlocks_keeps {s t : State} (h : Keeps s t) (a0 : Outstanding) : Keeps s (runBlocks a0 t) := by
  unfold runBlocks
  repeat' (first | with_reducible assumption | with_reducible apply done_keeps | with_reducible exact Keeps.refl | intro _ | split | dsimp only)

theorem execReadBlocks_keeps {s t u : State} (h : Keeps s t) (a0 : CmdSrc) (e : execReadBlocks a0 t = .next u) : Keeps s u := by
  unfold execReadBlocks at e
  try dsimp only at e
  repeat' split at e
  all_goals (cases e; repeat' (first | with_reducible assumption | with_reducible apply issue_keeps | with_reducible apply runBlocks_keeps | with_reducible exact Keeps.refl | intro _ | split | dsimp only))

theorem execWriteBlocks_keeps {s t u : State} (h : Keeps s t) (a0 : CmdSrc) (e : execWriteBlocks a0 t = .next u) : Keeps s u := by
  unfold execWriteBlocks at e
  try dsimp only at e
  repeat' split at e
  all_goals (cases e; repeat' (first | with_reducible assumption | with_reducible apply issue_keeps | with_reducible apply runBlocks_keeps | with_reducible exact Keeps.refl | intro _ | split | dsimp only))

theorem execTrim_keeps {s t u : State} (h : Keeps s t) (a0 : CmdSrc) (e : execTrim a0 t = .next u) : Keeps s u := by
  unfold execTrim at e
  try dsimp only at e
  repeat' split at e
  all_goals (cases e; repeat' (first | with_reducible assumption | with_reducible apply issue_keeps | with_reducible apply runBlocks_keeps | with_reducible exact Keeps.refl | intro _ | split | dsimp only))

theorem copyOut_keeps {s t : State} (h : Keeps s t) (a0 : Outstanding) (a1 : Nat) : Keeps s (copyOut a0 a1 t) := by
  unfold copyOut
  repeat' (first | with_reducible assumption | with_reducible apply busWrite_keeps | with_reducible apply Keeps.foldl | with_reducible exact Keeps.refl | intro _ | split | dsimp only)

theorem programIn_keeps {s t : State} (h : Keeps s t) (a0 : Outstanding) (a1 : Nat) : Keeps s (programIn a0 a1 t) := by
  unfold programIn
  repeat' (first | with_reducible assumption | with_reducible apply setBlock_keeps | with_reducible apply touchArea_keeps | with_reducible apply Keeps.foldl | with_reducible exact Keeps.refl | intro _ | split | dsimp only)

theorem openOutput_keeps {s t : State} (h : Keeps s t) (a0 : Outstanding) (a1 : Nat) : Keeps s (openOutput a0 a1 t) := by
  unfold openOutput
  repeat' (first | with_reducible assumption | with_reducible apply freeBytes_keeps | with_reducible apply busWrite_keeps | (refine freeBytes_keeps_eq ?_ (by assumption)) | with_reducible exact Keeps.refl | intro _ | split | dsimp only)

theorem trimBlocks_keeps {s t : State} (h : Keeps s t) (a0 : Nat) (a1 : Nat) (a2 : Nat) : Keeps s (trimBlocks a0 a1 a2 t) := by
  unfold trimBlocks
  repeat' (first | with_reducible assumption | with_reducible exact Keeps.refl | (with_reducible refine Keeps.upd ?_ (by with_reducible rfl); first | with_reducible assumption | with_reducible exact Keeps.refl | split) | intro _ | split | dsimp only | (with_reducible refine Keeps.updTable ?_ (fun w => by simp only [State.wf, State.hostWf, State.lineWf, State.memWf, State.serviceWf, Bool.and_eq_true] at w ⊢; simp_all only [Map.wf_set, Map.wf_filter, Map.wf_mapVals, Map.wf_nil, and_self]); first | with_reducible assumption | with_reducible exact Keeps.refl | split))

theorem finishBlocks_keeps {s t : State} (h : Keeps s t) (a0 : Outstanding) (a1 : Option Nat) (a2 : Nat) : Keeps s (finishBlocks a0 a1 a2 t) := by
  unfold finishBlocks
  repeat' (first | with_reducible assumption | with_reducible apply countN_keeps | with_reducible apply openOutput_keeps | with_reducible apply copyOut_keeps | with_reducible apply setF_keeps | with_reducible apply done_keeps | with_reducible apply count_keeps | with_reducible apply programIn_keeps | with_reducible apply trimBlocks_keeps | with_reducible exact Keeps.refl | intro _ | split | dsimp only)

theorem stopBlocks_keeps {s t : State} (h : Keeps s t) (a0 : Nat) (a1 : Nat) : Keeps s (stopBlocks a0 a1 t) := by
  unfold stopBlocks
  repeat' (first | with_reducible assumption | with_reducible apply programIn_keeps | with_reducible apply openOutput_keeps | with_reducible apply done_keeps | with_reducible exact Keeps.refl | intro _ | split | dsimp only)

theorem storeWorn_keeps {s t : State} (h : Keeps s t) (a0 : Bool) (a1 : Nat) (a2 : Nat) (a3 : Nat) : Keeps s (storeWorn a0 a1 a2 a3 t) := by
  unfold storeWorn
  repeat' (first | with_reducible assumption | with_reducible apply setF_keeps | with_reducible apply raise_keeps | with_reducible apply setB_keeps | with_reducible apply stopBlocks_keeps | with_reducible exact Keeps.refl | intro _ | split | dsimp only)

theorem execStoreWorn_keeps {s t u : State} (h : Keeps s t) (a0 : Bool) (a1 : BitVec 16) (a2 : BitVec 16) (a3 : Nat) (e : execStoreWorn a0 a1 a2 a3 t = .next u) : Keeps s u := by
  unfold execStoreWorn at e
  try dsimp only at e
  repeat' split at e
  all_goals (cases e; repeat' (first | with_reducible assumption | with_reducible apply storeWorn_keeps | with_reducible exact Keeps.refl | intro _ | split | dsimp only))

theorem execReserveChargeFail_keeps {s t u : State} (h : Keeps s t)  (e : execReserveChargeFail t = .next u) : Keeps s u := by
  unfold execReserveChargeFail at e
  try dsimp only at e
  repeat' split at e
  all_goals (cases e; repeat' (first | with_reducible assumption | with_reducible apply raise_keeps | with_reducible apply setB_keeps | with_reducible exact Keeps.refl | intro _ | split | dsimp only))

theorem execStoBlkReset_keeps {s t u : State} (h : Keeps s t) (a0 : Nat) (e : execStoBlkReset a0 t = .next u) : Keeps s u := by
  unfold execStoBlkReset at e
  try dsimp only at e
  repeat' split at e
  all_goals (cases e; repeat' (first | with_reducible assumption | with_reducible apply resetOffsets_keeps | with_reducible apply stopBlocks_keeps | with_reducible exact Keeps.refl | intro _ | split | dsimp only))

theorem setSnf_keeps {s t : State} (h : Keeps s t) (a0 : List SnfRec) : Keeps s (setSnf a0 t) := by
  unfold setSnf
  repeat' (first | with_reducible assumption | with_reducible apply setF_keeps | with_reducible apply setB_keeps | with_reducible exact Keeps.refl | (with_reducible refine Keeps.upd ?_ (by with_reducible rfl); first | with_reducible assumption | with_reducible apply setF_keeps | with_reducible apply setB_keeps | with_reducible exact Keeps.refl | split) | intro _ | split | dsimp only)

theorem loseRecord_keeps {s t : State} (h : Keeps s t)  : Keeps s (loseRecord t) := by
  unfold loseRecord
  repeat' (first | with_reducible assumption | with_reducible apply raise_keeps | with_reducible apply count_keeps | with_reducible exact Keeps.refl | (with_reducible refine Keeps.upd ?_ (by with_reducible rfl); first | with_reducible assumption | with_reducible apply raise_keeps | with_reducible apply count_keeps | with_reducible exact Keeps.refl | split) | intro _ | split | dsimp only)

theorem makeRoom_keeps {s t : State} (h : Keeps s t) (a0 : Nat) (a1 : Nat) : Keeps s (makeRoom a0 a1 t) := by
  induction a1 generalizing t a0 with
  | zero =>
    unfold makeRoom
    repeat' (first | with_reducible assumption | with_reducible apply ih | with_reducible apply loseRecord_keeps | with_reducible apply setSnf_keeps | with_reducible exact Keeps.refl | intro _ | split | dsimp only)
  | succ _ ih =>
    unfold makeRoom
    repeat' (first | with_reducible assumption | with_reducible apply ih | with_reducible apply loseRecord_keeps | with_reducible apply setSnf_keeps | with_reducible exact Keeps.refl | intro _ | split | dsimp only)

theorem snfWrite_keeps {s t : State} (h : Keeps s t)  : Keeps s (snfWrite t) := by
  unfold snfWrite
  repeat' (first | with_reducible assumption | with_reducible apply setLink_keeps | with_reducible apply loseRecord_keeps | with_reducible apply makeRoom_keeps | with_reducible apply count_keeps | with_reducible apply setSnf_keeps | with_reducible apply Keeps.linkLanes | with_reducible apply Map.wf_set | with_reducible apply Map.wf_filter | with_reducible exact Map.wf_nil | with_reducible exact Keeps.refl | intro _ | split | dsimp only)

theorem execSnfWrite_keeps {s t u : State} (h : Keeps s t)  (e : execSnfWrite t = .next u) : Keeps s u := by
  unfold execSnfWrite at e
  try dsimp only at e
  repeat' split at e
  all_goals (cases e; repeat' (first | with_reducible assumption | with_reducible apply snfWrite_keeps | with_reducible exact Keeps.refl | intro _ | split | dsimp only))

theorem sendStored_keeps {s t : State} (h : Keeps s t) (a0 : Nat) (a1 : SnfRec) : Keeps s (sendStored a0 a1 t) := by
  unfold sendStored
  repeat' (first | with_reducible assumption | with_reducible apply toParent_keeps | with_reducible apply laneSend_keeps | with_reducible apply setLane_keeps | with_reducible apply ulComplete_keeps | with_reducible exact Keeps.refl | intro _ | split | dsimp only)

theorem snfReplay_keeps {s t : State} (h : Keeps s t) (a0 : Nat) : Keeps s (snfReplay a0 t) := by
  unfold snfReplay
  repeat' (first | with_reducible assumption | with_reducible apply sendStored_keeps | with_reducible apply setSnf_keeps | with_reducible apply hostEvent_keeps | with_reducible exact Keeps.refl | (with_reducible refine Keeps.upd ?_ (by with_reducible rfl); first | with_reducible assumption | with_reducible apply sendStored_keeps | with_reducible apply setSnf_keeps | with_reducible apply hostEvent_keeps | with_reducible exact Keeps.refl | split) | intro _ | split | dsimp only)

theorem execSnfReplay_keeps {s t u : State} (h : Keeps s t) (a0 : BitVec 64) (e : execSnfReplay a0 t = .next u) : Keeps s u := by
  unfold execSnfReplay at e
  try dsimp only at e
  repeat' split at e
  all_goals (cases e; repeat' (first | with_reducible assumption | with_reducible apply snfReplay_keeps | with_reducible exact Keeps.refl | intro _ | split | dsimp only))

end Sys2Proof.Machine
end

