-- ==== Sys2Proof/Laws/KeepsImage.lean ====
section
/-! SUPPORT. Sys2Proof/Laws/KeepsImage.lean: what the operations of Machine/Image.lean keep of a state. -/
namespace Sys2Proof.Machine

theorem setSlotState_keeps {s t : State} (h : Keeps s t) (a0 : Nat) (a1 : Nat) : Keeps s (setSlotState a0 a1 t) := by
  unfold setSlotState
  repeat' (first | with_reducible assumption | with_reducible apply setI_keeps | with_reducible exact Keeps.refl | intro _ | split | dsimp only)

theorem markInvalid_keeps {s t : State} (h : Keeps s t) (a0 : Nat) (a1 : Nat) : Keeps s (markInvalid a0 a1 t) := by
  unfold markInvalid
  repeat' (first | with_reducible assumption | with_reducible apply raise_keeps | with_reducible apply setSlotState_keeps | with_reducible exact Keeps.refl | intro _ | split | dsimp only)

theorem showImage_keeps {s t : State} (h : Keeps s t) (a0 : Nat) : Keeps s (showImage a0 t) := by
  unfold showImage
  repeat' (first | with_reducible assumption | with_reducible apply setI_keeps | with_reducible exact Keeps.refl | intro _ | split | dsimp only)

theorem clearImage_keeps {s t : State} (h : Keeps s t) (a0 : Nat) : Keeps s (clearImage a0 t) := by
  unfold clearImage
  repeat' (first | with_reducible assumption | with_reducible apply trimBlocks_keeps | with_reducible exact Keeps.refl | intro _ | split | dsimp only)

theorem copyImage_keeps {s t : State} (h : Keeps s t) (a0 : Nat) (a1 : Nat) (a2 : Nat) : Keeps s (copyImage a0 a1 a2 t) := by
  unfold copyImage
  repeat' (first | with_reducible assumption | with_reducible apply setBlock_keeps | with_reducible apply clearImage_keeps | with_reducible apply Keeps.foldl | with_reducible exact Keeps.refl | intro _ | split | dsimp only)

theorem runLoadSlot_keeps {s t : State} (h : Keeps s t) (a0 : Outstanding) : Keeps s (runLoadSlot a0 t) := by
  unfold runLoadSlot
  repeat' (first | with_reducible assumption | with_reducible apply done_keeps | with_reducible apply setSlotState_keeps | with_reducible apply clearImage_keeps | with_reducible exact Keeps.refl | intro _ | split | dsimp only)

theorem execLoadSlot_keeps {s t u : State} (h : Keeps s t) (a0 : CmdSrc) (e : execLoadSlot a0 t = .next u) : Keeps s u := by
  unfold execLoadSlot at e
  try dsimp only at e
  repeat' split at e
  all_goals (cases e; repeat' (first | with_reducible assumption | with_reducible apply issue_keeps | with_reducible apply runLoadSlot_keeps | with_reducible exact Keeps.refl | intro _ | split | dsimp only))

theorem runEpfwImport_keeps {s t : State} (h : Keeps s t) (a0 : Outstanding) : Keeps s (runEpfwImport a0 t) := by
  unfold runEpfwImport
  repeat' (first | with_reducible assumption | with_reducible apply done_keeps | with_reducible apply clearImage_keeps | with_reducible exact Keeps.refl | intro _ | split | dsimp only)

theorem execEpfwImport_keeps {s t u : State} (h : Keeps s t) (a0 : CmdSrc) (e : execEpfwImport a0 t = .next u) : Keeps s u := by
  unfold execEpfwImport at e
  try dsimp only at e
  repeat' split at e
  all_goals (cases e; repeat' (first | with_reducible assumption | with_reducible apply issue_keeps | with_reducible apply runEpfwImport_keeps | with_reducible exact Keeps.refl | intro _ | split | dsimp only))

theorem runEpfwDelete_keeps {s t : State} (h : Keeps s t) (a0 : Outstanding) : Keeps s (runEpfwDelete a0 t) := by
  unfold runEpfwDelete
  repeat' (first | with_reducible assumption | with_reducible apply done_keeps | with_reducible apply clearImage_keeps | with_reducible exact Keeps.refl | intro _ | split | dsimp only)

theorem execEpfwDelete_keeps {s t u : State} (h : Keeps s t) (a0 : CmdSrc) (e : execEpfwDelete a0 t = .next u) : Keeps s u := by
  unfold execEpfwDelete at e
  try dsimp only at e
  repeat' split at e
  all_goals (cases e; repeat' (first | with_reducible assumption | with_reducible apply issue_keeps | with_reducible apply runEpfwDelete_keeps | with_reducible exact Keeps.refl | intro _ | split | dsimp only))

theorem finishLoad_keeps {s t : State} (h : Keeps s t) (a0 : Outstanding) : Keeps s (finishLoad a0 t) := by
  unfold finishLoad
  repeat' (first | with_reducible assumption | with_reducible apply showImage_keeps | with_reducible apply copyImage_keeps | with_reducible apply setSlotState_keeps | with_reducible apply markInvalid_keeps | with_reducible apply done_keeps | with_reducible apply logEvent_keeps | with_reducible exact Keeps.refl | intro _ | split | dsimp only)

theorem finishImport_keeps {s t : State} (h : Keeps s t) (a0 : Outstanding) : Keeps s (finishImport a0 t) := by
  unfold finishImport
  repeat' (first | with_reducible assumption | with_reducible apply copyImage_keeps | with_reducible apply clearImage_keeps | with_reducible apply done_keeps | with_reducible apply logEvent_keeps | with_reducible exact Keeps.refl | intro _ | split | dsimp only)

theorem loadReset_keeps {s t : State} (h : Keeps s t)  : Keeps s (loadReset t) := by
  unfold loadReset
  repeat' (first | with_reducible assumption | with_reducible apply setSlotState_keeps | with_reducible exact Keeps.refl | intro _ | split | dsimp only)

theorem runVerifySlot_keeps {s t : State} (h : Keeps s t) (a0 : Outstanding) : Keeps s (runVerifySlot a0 t) := by
  unfold runVerifySlot
  repeat' (first | with_reducible assumption | with_reducible apply done_keeps | with_reducible exact Keeps.refl | intro _ | split | dsimp only)

theorem execVerifySlot_keeps {s t u : State} (h : Keeps s t) (a0 : CmdSrc) (e : execVerifySlot a0 t = .next u) : Keeps s u := by
  unfold execVerifySlot at e
  try dsimp only at e
  repeat' split at e
  all_goals (cases e; repeat' (first | with_reducible assumption | with_reducible apply issue_keeps | with_reducible apply runVerifySlot_keeps | with_reducible exact Keeps.refl | intro _ | split | dsimp only))

theorem finishVerify_keeps {s t : State} (h : Keeps s t) (a0 : Outstanding) : Keeps s (finishVerify a0 t) := by
  unfold finishVerify
  repeat' (first | with_reducible assumption | with_reducible apply done_keeps | with_reducible apply markInvalid_keeps | with_reducible apply setSlotState_keeps | with_reducible exact Keeps.refl | intro _ | split | dsimp only)

end Sys2Proof.Machine
end

