-- ==== Sys2Proof/Laws/KeepsJoin.lean ====
section
/-! SUPPORT. Sys2Proof/Laws/KeepsJoin.lean: what the operations of Machine/Join.lean keep of a state. -/
namespace Sys2Proof.Machine

theorem drawNonce_keeps {s t : State} (h : Keeps s t) (a0 : Nat) : Keeps s (drawNonce a0 t).2 := by
  induction a0 generalizing t with
  | zero =>
    unfold drawNonce
    repeat' (first | with_reducible assumption | with_reducible apply ih | with_reducible apply randBytes_keeps | (refine randBytes_keeps_eq ?_ (by assumption)) | with_reducible exact Keeps.refl | intro _ | split | dsimp only)
  | succ _ ih =>
    unfold drawNonce
    repeat' (first | with_reducible assumption | with_reducible apply ih | with_reducible apply randBytes_keeps | (refine randBytes_keeps_eq ?_ (by assumption)) | with_reducible exact Keeps.refl | intro _ | split | dsimp only)

theorem drawNonce_keeps_eq {s t u : State} {a0 : Nat} {y0} (h : Keeps s t) (e : drawNonce a0 t = (y0, u)) : Keeps s u := by
  have k := drawNonce_keeps h a0
  rw [e] at k
  exact k

theorem solicitTadj_keeps {s t : State} (h : Keeps s t) (a0 : Nat) (a1 : Int) : Keeps s (solicitTadj a0 a1 t) := by
  unfold solicitTadj
  repeat' (first | with_reducible assumption | with_reducible exact Keeps.refl | (with_reducible refine Keeps.upd ?_ (by with_reducible rfl); first | with_reducible assumption | with_reducible exact Keeps.refl | split) | intro _ | split | dsimp only | (with_reducible refine Keeps.updTable ?_ (fun w => by simp only [State.wf, State.hostWf, State.lineWf, State.memWf, State.serviceWf, Bool.and_eq_true] at w ⊢; simp_all only [Map.wf_set, Map.wf_filter, Map.wf_mapVals, Map.wf_nil, and_self]); first | with_reducible assumption | with_reducible exact Keeps.refl | split))

theorem joinAnswer_keeps {s t : State} (h : Keeps s t) (a0 : FrameKind) (a1 : Nat) (a2 : Nat) (a3 : FrameIn) (a4 : Option Nat) (a5 : List Byte) : Keeps s (joinAnswer a0 a1 a2 a3 a4 a5 t) := by
  unfold joinAnswer
  repeat' (first | with_reducible assumption | with_reducible apply solicitTadj_keeps | with_reducible apply addFrame_keeps | with_reducible exact Keeps.refl | intro _ | split | dsimp only)

theorem deferJoin_keeps {s t : State} (h : Keeps s t) (a0 : FrameIn) (a1 : Option Nat) : Keeps s (deferJoin a0 a1 t) := by
  unfold deferJoin
  repeat' (first | with_reducible assumption | with_reducible apply raise_keeps | with_reducible apply count_keeps | with_reducible apply joinAnswer_keeps | with_reducible apply setMac_keeps | with_reducible apply Keeps.macTable | with_reducible apply Keeps.macParked | with_reducible apply Keeps.macRelays | with_reducible apply Keeps.macCache | with_reducible apply Map.wf_set | with_reducible apply Map.wf_filter | with_reducible exact Map.wf_nil | with_reducible exact Keeps.refl | intro _ | split | dsimp only)

theorem reserveSlot_keeps {s t : State} (h : Keeps s t) (a0 : Nat) (a1 : Nat) (a2 : FrameIn) (a3 : Nat) : Keeps s (reserveSlot a0 a1 a2 a3 t) := by
  unfold reserveSlot
  repeat' (first | with_reducible assumption | with_reducible apply joinAnswer_keeps | with_reducible apply setAssoc_keeps | with_reducible apply clearRelays_keeps | with_reducible exact Keeps.refl | intro _ | split | dsimp only)

theorem joinSolicit_keeps {s t : State} (h : Keeps s t) (a0 : FrameIn) : Keeps s (joinSolicit a0 t) := by
  unfold joinSolicit
  repeat' (first | with_reducible assumption | with_reducible apply malformed_keeps | with_reducible apply deferJoin_keeps | with_reducible apply drawNonce_keeps | with_reducible apply reserveSlot_keeps | (refine drawNonce_keeps_eq ?_ (by assumption)) | with_reducible exact Keeps.refl | intro _ | split | dsimp only)

theorem execJoinSolicit_keeps {s t u : State} (h : Keeps s t) (a0 : BurstId) (e : execJoinSolicit a0 t = .next u) : Keeps s u := by
  unfold execJoinSolicit at e
  try dsimp only at e
  repeat' split at e
  all_goals (cases e; repeat' (first | with_reducible assumption | with_reducible apply onFrame_keeps | with_reducible apply joinSolicit_keeps | with_reducible exact Keeps.refl | intro _ | split | dsimp only))

theorem rejectJoin_keeps {s t : State} (h : Keeps s t) (a0 : Nat) (a1 : Nat) (a2 : Nat) (a3 : FrameIn) (a4 : JoinSt) : Keeps s (rejectJoin a0 a1 a2 a3 a4 t) := by
  unfold rejectJoin
  repeat' (first | with_reducible assumption | with_reducible apply setAssoc_keeps | with_reducible apply count_keeps | with_reducible apply joinAnswer_keeps | with_reducible exact Keeps.refl | intro _ | split | dsimp only)

theorem refuseJoin_keeps {s t : State} (h : Keeps s t) (a0 : Nat) (a1 : Nat) (a2 : FrameIn) (a3 : JoinSt) : Keeps s (refuseJoin a0 a1 a2 a3 t) := by
  unfold refuseJoin
  repeat' (first | with_reducible assumption | with_reducible apply rejectJoin_keeps | with_reducible exact Keeps.refl | intro _ | split | dsimp only)

theorem acceptJoin_keeps {s t : State} (h : Keeps s t) (a0 : Nat) (a1 : Nat) (a2 : FrameIn) (a3 : JoinSt) (a4 : Nat) : Keeps s (acceptJoin a0 a1 a2 a3 a4 t) := by
  unfold acceptJoin
  repeat' (first | with_reducible assumption | with_reducible apply runJob_keeps | with_reducible apply startEnd_keeps | with_reducible apply setAssoc_keeps | with_reducible apply joinAnswer_keeps | (refine runJob_keeps_eq ?_ (by assumption)) | with_reducible exact Keeps.refl | intro _ | split | dsimp only)

theorem forwardJoin_keeps {s t : State} (h : Keeps s t) (a0 : Nat) (a1 : FrameIn) (a2 : JoinSt) : Keeps s (forwardJoin a0 a1 a2 t) := by
  unfold forwardJoin
  repeat' (first | with_reducible assumption | with_reducible apply setAssoc_keeps | with_reducible apply addFrame_keeps | with_reducible exact Keeps.refl | intro _ | split | dsimp only)

theorem judgeJoin_keeps {s t : State} (h : Keeps s t) (a0 : Nat) (a1 : Nat) (a2 : FrameIn) (a3 : JoinSt) : Keeps s (judgeJoin a0 a1 a2 a3 t) := by
  unfold judgeJoin
  repeat' (first | with_reducible assumption | with_reducible apply setAssoc_keeps | with_reducible apply runJob_keeps | with_reducible apply refuseJoin_keeps | with_reducible apply rejectJoin_keeps | with_reducible apply acceptJoin_keeps | (refine runJob_keeps_eq ?_ (by assumption)) | with_reducible exact Keeps.refl | intro _ | split | dsimp only)

theorem joinReq_keeps {s t : State} (h : Keeps s t) (a0 : FrameIn) : Keeps s (joinReq a0 t) := by
  unfold joinReq
  repeat' (first | with_reducible assumption | with_reducible apply malformed_keeps | with_reducible apply judgeJoin_keeps | with_reducible apply refuseJoin_keeps | with_reducible apply forwardJoin_keeps | with_reducible exact Keeps.refl | intro _ | split | dsimp only)

theorem execJoinReq_keeps {s t u : State} (h : Keeps s t) (a0 : BurstId) (e : execJoinReq a0 t = .next u) : Keeps s u := by
  unfold execJoinReq at e
  try dsimp only at e
  repeat' split at e
  all_goals (cases e; repeat' (first | with_reducible assumption | with_reducible apply onFrame_keeps | with_reducible apply joinReq_keeps | with_reducible exact Keeps.refl | intro _ | split | dsimp only))

theorem freeJoining_keeps {s t : State} (h : Keeps s t) (a0 : Nat) : Keeps s (freeJoining a0 t) := by
  unfold freeJoining
  repeat' (first | with_reducible assumption | with_reducible apply setAssoc_keeps | with_reducible apply count_keeps | with_reducible apply setMac_keeps | with_reducible apply Keeps.macTable | with_reducible apply Keeps.macParked | with_reducible apply Keeps.macRelays | with_reducible apply Keeps.macCache | with_reducible apply Map.wf_set | with_reducible apply Map.wf_filter | with_reducible exact Map.wf_nil | with_reducible exact Keeps.refl | intro _ | split | dsimp only)

theorem execJoiningExpiry_keeps {s t u : State} (h : Keeps s t) (a0 : CtxIndex) (e : execJoiningExpiry a0 t = .next u) : Keeps s u := by
  unfold execJoiningExpiry at e
  try dsimp only at e
  repeat' split at e
  all_goals (cases e; repeat' (first | with_reducible assumption | with_reducible apply freeJoining_keeps | with_reducible exact Keeps.refl | intro _ | split | dsimp only))

theorem acceptedExpiry_keeps {s t : State} (h : Keeps s t) (a0 : Nat) : Keeps s (acceptedExpiry a0 t) := by
  unfold acceptedExpiry
  repeat' (first | with_reducible assumption | with_reducible apply hostEvent_keeps | with_reducible apply raise_keeps | with_reducible apply freeJoining_keeps | with_reducible apply clearRelays_keeps | with_reducible apply freeMaps_keeps | with_reducible apply dropFrames_keeps | with_reducible exact Keeps.refl | intro _ | split | dsimp only)

theorem execAcceptedExpiry_keeps {s t u : State} (h : Keeps s t) (a0 : CtxIndex) (e : execAcceptedExpiry a0 t = .next u) : Keeps s u := by
  unfold execAcceptedExpiry at e
  try dsimp only at e
  repeat' split at e
  all_goals (cases e; repeat' (first | with_reducible assumption | with_reducible apply acceptedExpiry_keeps | with_reducible exact Keeps.refl | intro _ | split | dsimp only))

theorem supervise_keeps {s t : State} (h : Keeps s t) (a0 : Nat) : Keeps s (supervise a0 t) := by
  unfold supervise
  repeat' (first | with_reducible assumption | with_reducible apply finishEnd_keeps | with_reducible apply count_keeps | with_reducible exact Keeps.refl | intro _ | split | dsimp only)

theorem execSupervisionTimeout_keeps {s t u : State} (h : Keeps s t) (a0 : CtxIndex) (e : execSupervisionTimeout a0 t = .next u) : Keeps s u := by
  unfold execSupervisionTimeout at e
  try dsimp only at e
  repeat' split at e
  all_goals (cases e; repeat' (first | with_reducible assumption | with_reducible apply supervise_keeps | with_reducible exact Keeps.refl | intro _ | split | dsimp only))

theorem parentLost_keeps {s t : State} (h : Keeps s t)  : Keeps s (parentLost t) := by
  unfold parentLost
  repeat' (first | with_reducible assumption | with_reducible apply raise_keeps | with_reducible apply setB_keeps | with_reducible apply setF_keeps | with_reducible apply setParent_keeps | with_reducible exact Keeps.refl | intro _ | split | dsimp only)

theorem execLeave_keeps {s t u : State} (h : Keeps s t)  (e : execLeave t = .next u) : Keeps s u := by
  unfold execLeave at e
  try dsimp only at e
  repeat' split at e
  all_goals (cases e; repeat' (first | with_reducible assumption | with_reducible apply takeElem_keeps | with_reducible apply parentLost_keeps | with_reducible apply finishEnd_keeps | (refine takeElem_keeps_eq ?_ (by assumption)) | with_reducible exact Keeps.refl | intro _ | split | dsimp only))

theorem execLeavingExpiry_keeps {s t u : State} (h : Keeps s t) (a0 : CtxIndex) (e : execLeavingExpiry a0 t = .next u) : Keeps s u := by
  unfold execLeavingExpiry at e
  try dsimp only at e
  repeat' split at e
  all_goals (cases e; repeat' (first | with_reducible assumption | with_reducible apply finishEnd_keeps | with_reducible exact Keeps.refl | intro _ | split | dsimp only))

theorem execRecordEccFault_keeps {s t u : State} (h : Keeps s t) (a0 : CtxIndex) (e : execRecordEccFault a0 t = .next u) : Keeps s u := by
  unfold execRecordEccFault at e
  try dsimp only at e
  repeat' split at e
  all_goals (cases e; repeat' (first | with_reducible assumption | with_reducible apply finishEnd_keeps | with_reducible apply raise_keeps | with_reducible apply diagReport_keeps | with_reducible exact Keeps.refl | intro _ | split | dsimp only))

theorem execRekeyTrigger_keeps {s t u : State} (h : Keeps s t) (a0 : CtxIndex) (e : execRekeyTrigger a0 t = .next u) : Keeps s u := by
  unfold execRekeyTrigger at e
  try dsimp only at e
  repeat' split at e
  all_goals (cases e; repeat' (first | with_reducible assumption | with_reducible apply setMac_keeps | with_reducible apply startRekey_keeps | with_reducible apply Keeps.macTable | with_reducible apply Keeps.macParked | with_reducible apply Keeps.macRelays | with_reducible apply Keeps.macCache | with_reducible apply Map.wf_set | with_reducible apply Map.wf_filter | with_reducible exact Map.wf_nil | with_reducible exact Keeps.refl | intro _ | split | dsimp only))

theorem rekeyRetry_keeps {s t : State} (h : Keeps s t) (a0 : Nat) : Keeps s (rekeyRetry a0 t) := by
  unfold rekeyRetry
  repeat' (first | with_reducible assumption | with_reducible apply setMac_keeps | with_reducible apply ownFrame_keeps | with_reducible apply setAssoc_keeps | with_reducible apply startEnd_keeps | with_reducible apply Keeps.macTable | with_reducible apply Keeps.macParked | with_reducible apply Keeps.macRelays | with_reducible apply Keeps.macCache | with_reducible apply Map.wf_set | with_reducible apply Map.wf_filter | with_reducible exact Map.wf_nil | with_reducible exact Keeps.refl | intro _ | split | dsimp only)

theorem execRekeyRetryExpiry_keeps {s t u : State} (h : Keeps s t) (a0 : CtxIndex) (e : execRekeyRetryExpiry a0 t = .next u) : Keeps s u := by
  unfold execRekeyRetryExpiry at e
  try dsimp only at e
  repeat' split at e
  all_goals (cases e; repeat' (first | with_reducible assumption | with_reducible apply rekeyRetry_keeps | with_reducible exact Keeps.refl | intro _ | split | dsimp only))

theorem execPrevKeyExpiry_keeps {s t u : State} (h : Keeps s t) (a0 : CtxIndex) (e : execPrevKeyExpiry a0 t = .next u) : Keeps s u := by
  unfold execPrevKeyExpiry at e
  try dsimp only at e
  repeat' split at e
  all_goals (cases e; repeat' (first | with_reducible assumption | with_reducible apply setCtx_keeps | with_reducible exact Keeps.refl | intro _ | split | dsimp only))

end Sys2Proof.Machine
end

