-- ==== Sys2Proof/Laws/KeepsNcal.lean ====
section
/-! SUPPORT. Sys2Proof/Laws/KeepsNcal.lean: what the operations of Machine/Ncal.lean keep of a state. -/
namespace Sys2Proof.Machine

theorem setCal_keeps {s t : State} (h : Keeps s t) (a0 : Nat) (a1 : CalSt) : Keeps s (setCal a0 a1 t) := by
  unfold setCal
  repeat' (first | with_reducible assumption | with_reducible exact Keeps.refl | (with_reducible refine Keeps.upd ?_ (by with_reducible rfl); first | with_reducible assumption | with_reducible exact Keeps.refl | split) | intro _ | split | dsimp only | (with_reducible refine Keeps.updTable ?_ (fun w => by simp only [State.wf, State.hostWf, State.lineWf, State.memWf, State.serviceWf, Bool.and_eq_true] at w ⊢; simp_all only [Map.wf_set, Map.wf_filter, Map.wf_mapVals, Map.wf_nil, and_self]); first | with_reducible assumption | with_reducible exact Keeps.refl | split))

theorem ncalPending_keeps {s t : State} (h : Keeps s t)  : Keeps s (ncalPending t) := by
  unfold ncalPending
  repeat' (first | with_reducible assumption | with_reducible apply setB_keeps | with_reducible exact Keeps.refl | intro _ | split | dsimp only)

theorem anySettle_keeps {s t : State} (h : Keeps s t)  : Keeps s (anySettle t) := by
  unfold anySettle
  repeat' (first | with_reducible assumption | with_reducible apply setB_keeps | with_reducible exact Keeps.refl | intro _ | split | dsimp only)

theorem dropEntries_keeps {s t : State} (h : Keeps s t) (a0 : Nat) (a1 : NcalEntry → Bool) : Keeps s (dropEntries a0 a1 t) := by
  unfold dropEntries
  repeat' (first | with_reducible assumption | with_reducible apply raise_keeps | with_reducible apply setCal_keeps | with_reducible exact Keeps.refl | intro _ | split | dsimp only)

theorem pruneCands_keeps {s t : State} (h : Keeps s t) (a0 : Nat) : Keeps s (pruneCands a0 t) := by
  unfold pruneCands
  repeat' (first | with_reducible assumption | with_reducible apply setCal_keeps | with_reducible exact Keeps.refl | intro _ | split | dsimp only)

theorem promote_keeps {s t : State} (h : Keeps s t) (a0 : Nat) (a1 : NcalEntry) : Keeps s (promote a0 a1 t) := by
  unfold promote
  repeat' (first | with_reducible assumption | with_reducible apply raise_keeps | with_reducible apply setCal_keeps | with_reducible apply logPage_keeps | with_reducible apply count_keeps | with_reducible exact Keeps.refl | intro _ | split | dsimp only)

theorem promoteAll_keeps {s t : State} (h : Keeps s t) (a0 : Nat) : Keeps s (promoteAll a0 t) := by
  unfold promoteAll
  repeat' (first | with_reducible assumption | with_reducible apply promote_keeps | with_reducible apply Keeps.foldl | with_reducible exact Keeps.refl | intro _ | split | dsimp only)

theorem mergeOnce_keeps {s t : State} (h : Keeps s t) (a0 : Nat) : Keeps s (mergeOnce a0 t) := by
  unfold mergeOnce
  repeat' (first | with_reducible assumption | with_reducible apply raise_keeps | with_reducible apply setCal_keeps | with_reducible exact Keeps.refl | intro _ | split | dsimp only)

theorem settleCal_keeps {s t : State} (h : Keeps s t) (a0 : Nat) : Keeps s (settleCal a0 t) := by
  unfold settleCal
  repeat' (first | with_reducible assumption | with_reducible apply dropEntries_keeps | with_reducible apply mergeOnce_keeps | with_reducible apply promoteAll_keeps | with_reducible apply pruneCands_keeps | with_reducible apply Keeps.foldl | with_reducible exact Keeps.refl | intro _ | split | dsimp only)

theorem impulse_keeps {s t : State} (h : Keeps s t) (a0 : Nat) (a1 : Nat) (a2 : Nat) (a3 : Nat) (a4 : Nat) (a5 : Nat) : Keeps s (impulse a0 a1 a2 a3 a4 a5 t) := by
  unfold impulse
  repeat' (first | with_reducible assumption | with_reducible apply setCal_keeps | with_reducible apply settleCal_keeps | with_reducible exact Keeps.refl | intro _ | split | dsimp only)

theorem execImpulseDetected_keeps {s t u : State} (h : Keeps s t) (a0 : Port) (a1 : Fin 209715200) (a2 : Bool) (a3 : Fin 4096) (a4 : BitVec 8) (a5 : BitVec 11) (a6 : BitVec 27) (e : execImpulseDetected a0 a1 a2 a3 a4 a5 a6 t = .next u) : Keeps s u := by
  unfold execImpulseDetected at e
  try dsimp only at e
  repeat' split at e
  all_goals (cases e; repeat' (first | with_reducible assumption | with_reducible apply impulse_keeps | with_reducible exact Keeps.refl | intro _ | split | dsimp only))

theorem predictionDue_keeps {s t : State} (h : Keeps s t) (a0 : Nat) (a1 : Bool) (a2 : Nat) (a3 : Bool) : Keeps s (predictionDue a0 a1 a2 a3 t) := by
  unfold predictionDue
  repeat' (first | with_reducible assumption | with_reducible apply settleCal_keeps | with_reducible apply setCal_keeps | with_reducible exact Keeps.refl | intro _ | split | dsimp only)

theorem execPredictionDue_keeps {s t u : State} (h : Keeps s t) (p : Port) (c : Bool) (i : Fin 16) (o : Bool) (e : execPredictionDue p c i o t = .next u) : Keeps s u := by
  unfold execPredictionDue at e
  obtain rfl := Host.Outcome.next.inj e
  exact predictionDue_keeps h _ _ _ _

theorem calStep_keeps {s t : State} (h : Keeps s t) (a0 : Nat) (a1 : Nat) (a2 : Nat) : Keeps s (calStep a0 a1 a2 t) := by
  unfold calStep
  repeat' (first | with_reducible assumption | with_reducible apply setCal_keeps | with_reducible apply setF_keeps | with_reducible apply raise_keeps | with_reducible apply count_keeps | with_reducible apply logPage_keeps | with_reducible exact Keeps.refl | intro _ | split | dsimp only)

theorem settleEnd_keeps {s t : State} (h : Keeps s t) (a0 : Nat) : Keeps s (settleEnd a0 t) := by
  unfold settleEnd
  repeat' (first | with_reducible assumption | with_reducible apply anySettle_keeps | with_reducible apply setCal_keeps | with_reducible exact Keeps.refl | intro _ | split | dsimp only)

theorem execSettleEnd_keeps {s t u : State} (h : Keeps s t) (a0 : Port) (e : execSettleEnd a0 t = .next u) : Keeps s u := by
  unfold execSettleEnd at e
  try dsimp only at e
  repeat' split at e
  all_goals (cases e; repeat' (first | with_reducible assumption | with_reducible apply settleEnd_keeps | with_reducible exact Keeps.refl | intro _ | split | dsimp only))

theorem clearCal_keeps {s t : State} (h : Keeps s t) (a0 : Nat) : Keeps s (clearCal a0 t) := by
  unfold clearCal
  repeat' (first | with_reducible assumption | with_reducible apply setCal_keeps | with_reducible exact Keeps.refl | intro _ | split | dsimp only)

theorem calBoundary_keeps {s t : State} (h : Keeps s t) (a0 : Nat) : Keeps s (calBoundary a0 t) := by
  unfold calBoundary
  repeat' (first | with_reducible assumption | with_reducible apply setCal_keeps | with_reducible apply dropEntries_keeps | with_reducible exact Keeps.refl | intro _ | split | dsimp only)

theorem ncalBoundary_keeps {s t : State} (h : Keeps s t)  : Keeps s (ncalBoundary t) := by
  unfold ncalBoundary
  repeat' (first | with_reducible assumption | with_reducible apply setB_keeps | with_reducible apply ncalPending_keeps | with_reducible apply anySettle_keeps | with_reducible apply calBoundary_keeps | with_reducible apply Keeps.foldl | with_reducible exact Keeps.refl | (with_reducible refine Keeps.upd ?_ (by with_reducible rfl); first | with_reducible assumption | with_reducible apply setB_keeps | with_reducible apply ncalPending_keeps | with_reducible apply anySettle_keeps | with_reducible apply calBoundary_keeps | with_reducible apply Keeps.foldl | with_reducible exact Keeps.refl | split) | intro _ | split | dsimp only)

theorem fixWindows_keeps {s t : State} (h : Keeps s t) (a0 : Nat) : Keeps s (fixWindows a0 t) := by
  unfold fixWindows
  repeat' (first | with_reducible assumption | with_reducible exact Keeps.refl | (with_reducible refine Keeps.upd ?_ (by with_reducible rfl); first | with_reducible assumption | with_reducible exact Keeps.refl | split) | intro _ | split | dsimp only | (with_reducible refine Keeps.updTable ?_ (fun w => by simp only [State.wf, State.hostWf, State.lineWf, State.memWf, State.serviceWf, Bool.and_eq_true] at w ⊢; simp_all only [Map.wf_set, Map.wf_filter, Map.wf_mapVals, Map.wf_nil, and_self]); first | with_reducible assumption | with_reducible exact Keeps.refl | split))

theorem deferBurst_keeps {s t : State} (h : Keeps s t)  : Keeps s (deferBurst t) := by
  unfold deferBurst
  repeat' (first | with_reducible assumption | with_reducible apply raise_keeps | with_reducible apply count_keeps | with_reducible exact Keeps.refl | intro _ | split | dsimp only)

theorem execNcalBlkReset_keeps {s t u : State} (h : Keeps s t)  (e : execNcalBlkReset t = .next u) : Keeps s u := by
  unfold execNcalBlkReset at e
  try dsimp only at e
  repeat' split at e
  all_goals (cases e; repeat' (first | with_reducible assumption | with_reducible apply setCal_keeps | with_reducible apply blkReset_keeps | with_reducible apply anySettle_keeps | with_reducible apply Keeps.foldl | with_reducible exact Keeps.refl | intro _ | split | dsimp only))

theorem ncalLatch_keeps {s t : State} (h : Keeps s t)  : Keeps s (ncalLatch t) := by
  unfold ncalLatch
  repeat' (first | with_reducible assumption | with_reducible apply resetOffsets_keeps | with_reducible apply setF_keeps | with_reducible exact Keeps.refl | intro _ | split | dsimp only)

theorem execNcalSelWrite_keeps {s t u : State} (h : Keeps s t) (a0 : Word) (e : execNcalSelWrite a0 t = .next u) : Keeps s u := by
  unfold execNcalSelWrite at e
  try dsimp only at e
  repeat' split at e
  all_goals (cases e; repeat' (first | with_reducible assumption | with_reducible apply ncalLatch_keeps | with_reducible apply writeFields_keeps | with_reducible exact Keeps.refl | intro _ | split | dsimp only))

theorem runClearPort_keeps {s t : State} (h : Keeps s t) (a0 : Outstanding) : Keeps s (runClearPort a0 t) := by
  unfold runClearPort
  repeat' (first | with_reducible assumption | with_reducible apply done_keeps | with_reducible apply clearCal_keeps | with_reducible exact Keeps.refl | intro _ | split | dsimp only)

theorem execClearPort_keeps {s t u : State} (h : Keeps s t) (a0 : CmdSrc) (e : execClearPort a0 t = .next u) : Keeps s u := by
  unfold execClearPort at e
  try dsimp only at e
  repeat' split at e
  all_goals (cases e; repeat' (first | with_reducible assumption | with_reducible apply issue_keeps | with_reducible apply runClearPort_keeps | with_reducible exact Keeps.refl | intro _ | split | dsimp only))

theorem runSnapshot_keeps {s t : State} (h : Keeps s t) (a0 : Outstanding) : Keeps s (runSnapshot a0 t) := by
  unfold runSnapshot
  repeat' (first | with_reducible assumption | with_reducible apply done_keeps | with_reducible apply busWriteWords_keeps | with_reducible exact Keeps.refl | intro _ | split | dsimp only)

theorem execSnapshot_keeps {s t u : State} (h : Keeps s t) (a0 : CmdSrc) (e : execSnapshot a0 t = .next u) : Keeps s u := by
  unfold execSnapshot at e
  try dsimp only at e
  repeat' split at e
  all_goals (cases e; repeat' (first | with_reducible assumption | with_reducible apply issue_keeps | with_reducible apply runSnapshot_keeps | with_reducible exact Keeps.refl | intro _ | split | dsimp only))

end Sys2Proof.Machine
end

