-- ==== Sys2Proof/Laws/KeepsPorts.lean ====
section
/-! SUPPORT. Sys2Proof/Laws/KeepsPorts.lean: what the operations of Machine/Ports.lean keep of a state. -/
namespace Sys2Proof.Machine

theorem capPort_keeps {s t : State} (h : Keeps s t) (a0 : Nat) : Keeps s (capPort a0 t) := by
  unfold capPort
  repeat' (first | with_reducible assumption | with_reducible apply setB_keeps | with_reducible apply raise_keeps | with_reducible exact Keeps.refl | intro _ | split | dsimp only)

theorem capPorts_keeps {s t : State} (h : Keeps s t)  : Keeps s (capPorts t) := by
  unfold capPorts
  repeat' (first | with_reducible assumption | with_reducible apply capPort_keeps | with_reducible apply Keeps.foldl | with_reducible exact Keeps.refl | intro _ | split | dsimp only)

theorem execLptDeclWrite_keeps {s t u : State} (h : Keeps s t) (n : Port) (value : Word) (e : execLptDeclWrite n value t = .next u) : Keeps s u := by
  unfold execLptDeclWrite at e
  obtain rfl := Host.Outcome.next.inj e
  exact setF_keeps (writeFields_keeps h _ _ _) _ _ _

theorem refreshChain_keeps {s t : State} (h : Keeps s t) (a0 : Nat) : Keeps s (refreshChain a0 t) := by
  unfold refreshChain
  repeat' (first | with_reducible assumption | with_reducible apply setB_keeps | with_reducible exact Keeps.refl | intro _ | split | dsimp only)

theorem undeclare_keeps {s t : State} (h : Keeps s t) (a0 : Nat) : Keeps s (undeclare a0 t) := by
  unfold undeclare
  repeat' (first | with_reducible assumption | with_reducible apply clearCal_keeps | with_reducible apply complete_keeps | with_reducible apply completeAll_keeps | with_reducible exact Keeps.refl | intro _ | split | dsimp only)

theorem applyDecl_keeps {s t : State} (h : Keeps s t) (a0 : Nat) : Keeps s (applyDecl a0 t) := by
  unfold applyDecl
  repeat' (first | with_reducible assumption | with_reducible apply setPort_keeps | with_reducible apply setF_keeps | with_reducible apply undeclare_keeps | with_reducible apply raise_keeps | with_reducible apply refreshChain_keeps | with_reducible apply capPort_keeps | with_reducible exact Keeps.refl | intro _ | split | dsimp only)

theorem applyDecls_keeps {s t : State} (h : Keeps s t)  : Keeps s (applyDecls t) := by
  unfold applyDecls
  repeat' (first | with_reducible assumption | with_reducible apply applyDecl_keeps | with_reducible apply Keeps.foldl | with_reducible exact Keeps.refl | intro _ | split | dsimp only)

theorem execPlugRemoved_keeps {s t u : State} (h : Keeps s t) (a0 : Fin 4) (e : execPlugRemoved a0 t = .next u) : Keeps s u := by
  unfold execPlugRemoved at e
  try dsimp only at e
  repeat' split at e
  all_goals (cases e; repeat' (first | with_reducible assumption | with_reducible exact Keeps.refl | intro _ | split | dsimp only))

theorem execSurge_keeps {s t u : State} (h : Keeps s t) (a0 : Port) (e : execSurge a0 t = .next u) : Keeps s u := by
  unfold execSurge at e
  try dsimp only at e
  repeat' split at e
  all_goals (cases e; repeat' (first | with_reducible assumption | with_reducible apply raise_keeps | with_reducible apply count_keeps | with_reducible exact Keeps.refl | intro _ | split | dsimp only))

theorem pruneOccs_keeps {s t : State} (h : Keeps s t)  : Keeps s (pruneOccs t) := by
  unfold pruneOccs
  repeat' (first | with_reducible assumption | with_reducible exact Keeps.refl | (with_reducible refine Keeps.upd ?_ (by with_reducible rfl); first | with_reducible assumption | with_reducible exact Keeps.refl | split) | intro _ | split | dsimp only | (with_reducible refine Keeps.updTable ?_ (fun w => by simp only [State.wf, State.hostWf, State.lineWf, State.memWf, State.serviceWf, Bool.and_eq_true] at w ⊢; simp_all only [Map.wf_set, Map.wf_filter, Map.wf_mapVals, Map.wf_nil, and_self]); first | with_reducible assumption | with_reducible exact Keeps.refl | split))

theorem dwellBarred_keeps {s t : State} (h : Keeps s t) (n : Nat) (w : Wave) (ch : Nat) : Keeps s (dwellBarred n w ch t) := by
  unfold dwellBarred
  extract_lets c x s1 s2
  have k1 : Keeps s s1 := Keeps.upd (t := t) h rfl
  clear_value s1
  have k2 : Keeps s s2 := setF_keeps k1 _ _ _
  clear_value s2
  split
  · exact logPage_keeps (raise_keeps (countN_keeps (stopPort_keeps k2 _ _) _ _ _) _ _) _ _ _
  · exact k2

theorem execDwellBarred_keeps {s t u : State} (h : Keeps s t) (a0 : Port) (a1 : Wave) (a2 : Fin 61) (e : execDwellBarred a0 a1 a2 t = .next u) : Keeps s u := by
  unfold execDwellBarred at e
  try dsimp only at e
  repeat' split at e
  all_goals (cases e; repeat' (first | with_reducible assumption | with_reducible apply dwellBarred_keeps | with_reducible exact Keeps.refl | intro _ | split | dsimp only))

theorem execDwellClear_keeps {s t u : State} (h : Keeps s t) (a0 : Port) (a1 : Wave) (a2 : Fin 61) (e : execDwellClear a0 a1 a2 t = .next u) : Keeps s u := by
  unfold execDwellClear at e
  try dsimp only at e
  repeat' split at e
  all_goals (cases e; repeat' (first | with_reducible assumption | with_reducible exact Keeps.refl | (with_reducible refine Keeps.upd ?_ (by with_reducible rfl); first | with_reducible assumption | with_reducible exact Keeps.refl | split) | intro _ | split | dsimp only))

theorem execBcnDwellSelWrite_keeps {s t u : State} (h : Keeps s t) (a0 : Word) (e : execBcnDwellSelWrite a0 t = .next u) : Keeps s u := by
  unfold execBcnDwellSelWrite at e
  try dsimp only at e
  repeat' split at e
  all_goals (cases e; repeat' (first | with_reducible assumption | with_reducible apply writeFields_keeps | with_reducible apply setB_keeps | with_reducible apply setF_keeps | with_reducible exact Keeps.refl | intro _ | split | dsimp only))

theorem loseBeacon_keeps {s t : State} (h : Keeps s t)  : Keeps s (loseBeacon t) := by
  unfold loseBeacon
  repeat' (first | with_reducible assumption | with_reducible apply raise_keeps | with_reducible apply count_keeps | with_reducible exact Keeps.refl | intro _ | split | dsimp only)

theorem grantEnable_keeps {s t : State} (h : Keeps s t) (a0 : Nat) : Keeps s (grantEnable a0 t) := by
  unfold grantEnable
  repeat' (first | with_reducible assumption | with_reducible apply driverEnable_keeps | with_reducible apply setF_keeps | with_reducible apply moveCtx_keeps | with_reducible apply emit_keeps | with_reducible exact Keeps.refl | (with_reducible refine Keeps.upd ?_ (by with_reducible rfl); first | with_reducible assumption | with_reducible apply driverEnable_keeps | with_reducible apply setF_keeps | with_reducible apply moveCtx_keeps | with_reducible apply emit_keeps | with_reducible exact Keeps.refl | split) | intro _ | split | dsimp only)

theorem refuseBurst_keeps {s t : State} (h : Keeps s t) (a0 : Nat) : Keeps s (refuseBurst a0 t) := by
  unfold refuseBurst
  repeat' (first | with_reducible assumption | with_reducible apply completeBurst_keeps | with_reducible apply refuseEnable_keeps | with_reducible apply loseBeacon_keeps | with_reducible exact Keeps.refl | intro _ | split | dsimp only)

theorem enableRequest_keeps {s t : State} (h : Keeps s t) (a0 : Nat) : Keeps s (enableRequest a0 t) := by
  unfold enableRequest
  repeat' (first | with_reducible assumption | with_reducible apply grantEnable_keeps | with_reducible apply refuseBurst_keeps | with_reducible exact Keeps.refl | intro _ | split | dsimp only)

theorem execDriverEnableRequest_keeps {s t u : State} (h : Keeps s t) (a0 : BurstId) (e : execDriverEnableRequest a0 t = .next u) : Keeps s u := by
  unfold execDriverEnableRequest at e
  try dsimp only at e
  repeat' split at e
  all_goals (cases e; repeat' (first | with_reducible assumption | with_reducible apply enableRequest_keeps | with_reducible exact Keeps.refl | intro _ | split | dsimp only))

theorem measureZ_keeps {s t : State} (h : Keeps s t) (a0 : Nat) (a1 : Wave) (a2 : List (Fin 4 × BitVec 16 × BitVec 16)) : Keeps s (measureZ a0 a1 a2 t) := by
  unfold measureZ
  repeat' (first | with_reducible assumption | with_reducible apply setI_keeps | with_reducible apply setPort_keeps | with_reducible apply done_keeps | with_reducible apply Keeps.foldl | with_reducible exact Keeps.refl | intro _ | split | dsimp only)

theorem disableRequest_keeps {s t : State} (h : Keeps s t) (a0 : Nat) (a1 : List (Fin 4 × BitVec 16 × BitVec 16)) : Keeps s (disableRequest a0 a1 t) := by
  unfold disableRequest
  repeat' (first | with_reducible assumption | with_reducible apply measureZ_keeps | with_reducible apply setBurst_keeps | with_reducible apply driverOff_keeps | with_reducible exact Keeps.refl | intro _ | split | dsimp only)

theorem execDriverDisable_keeps {s t u : State} (h : Keeps s t) (a0 : BurstId) (a1 : List (Fin 4 × BitVec 16 × BitVec 16)) (e : execDriverDisable a0 a1 t = .next u) : Keeps s u := by
  unfold execDriverDisable at e
  try dsimp only at e
  repeat' split at e
  all_goals (cases e; repeat' (first | with_reducible assumption | with_reducible apply disableRequest_keeps | with_reducible exact Keeps.refl | intro _ | split | dsimp only))

theorem execBlankingEnd_keeps {s t u : State} (h : Keeps s t) (a0 : Port) (e : execBlankingEnd a0 t = .next u) : Keeps s u := by
  unfold execBlankingEnd at e
  try dsimp only at e
  repeat' split at e
  all_goals (cases e; repeat' (first | with_reducible assumption | with_reducible apply refreshGroup_keeps | with_reducible apply setPort_keeps | with_reducible exact Keeps.refl | intro _ | split | dsimp only))

theorem execCurrentClamp_keeps {s t u : State} (h : Keeps s t) (a0 : Port) (e : execCurrentClamp a0 t = .next u) : Keeps s u := by
  unfold execCurrentClamp at e
  try dsimp only at e
  repeat' split at e
  all_goals (cases e; repeat' (first | with_reducible assumption | with_reducible apply setBurst_keeps | with_reducible apply setF_keeps | with_reducible apply Keeps.foldl | with_reducible exact Keeps.refl | intro _ | split | dsimp only))

theorem execDriverHot_keeps {s t u : State} (h : Keeps s t) (a0 : Port) (e : execDriverHot a0 t = .next u) : Keeps s u := by
  unfold execDriverHot at e
  try dsimp only at e
  repeat' split at e
  all_goals (cases e; repeat' (first | with_reducible assumption | with_reducible apply raise_keeps | with_reducible apply setF_keeps | with_reducible apply setFault_keeps | with_reducible apply stopPort_keeps | with_reducible exact Keeps.refl | intro _ | split | dsimp only))

theorem execDriverCooled_keeps {s t u : State} (h : Keeps s t) (a0 : Port) (e : execDriverCooled a0 t = .next u) : Keeps s u := by
  unfold execDriverCooled at e
  try dsimp only at e
  repeat' split at e
  all_goals (cases e; repeat' (first | with_reducible assumption | with_reducible apply setF_keeps | with_reducible apply setFault_keeps | with_reducible exact Keeps.refl | intro _ | split | dsimp only))

theorem requestChange_keeps {s t : State} (h : Keeps s t) (a0 : Nat) (a1 : Int) : Keeps s (requestChange a0 a1 t) := by
  unfold requestChange
  repeat' (first | with_reducible assumption | with_reducible apply setPort_keeps | with_reducible exact Keeps.refl | intro _ | split | dsimp only)

theorem eraseSymbols_keeps {s t : State} (h : Keeps s t) (a0 : Nat) (a1 : Nat) : Keeps s (eraseSymbols a0 a1 t) := by
  unfold eraseSymbols
  repeat' (first | with_reducible assumption | with_reducible apply countN_keeps | with_reducible exact Keeps.refl | intro _ | split | dsimp only)

theorem execAgcClippedSample_keeps {s t u : State} (h : Keeps s t) (a0 : Port) (e : execAgcClippedSample a0 t = .next u) : Keeps s u := by
  unfold execAgcClippedSample at e
  try dsimp only at e
  repeat' split at e
  all_goals (cases e; repeat' (first | with_reducible assumption | with_reducible apply requestChange_keeps | with_reducible apply raise_keeps | with_reducible apply eraseSymbols_keeps | with_reducible exact Keeps.refl | intro _ | split | dsimp only))

theorem execAgcBlockMeasured_keeps {s t u : State} (h : Keeps s t) (a0 : Port) (a1 : Bool) (e : execAgcBlockMeasured a0 a1 t = .next u) : Keeps s u := by
  unfold execAgcBlockMeasured at e
  try dsimp only at e
  repeat' split at e
  all_goals (cases e; repeat' (first | with_reducible assumption | with_reducible apply requestChange_keeps | with_reducible exact Keeps.refl | intro _ | split | dsimp only))

theorem rangeChange_keeps {s t : State} (h : Keeps s t) (a0 : Nat) : Keeps s (rangeChange a0 t) := by
  unfold rangeChange
  repeat' (first | with_reducible assumption | with_reducible apply setPort_keeps | with_reducible apply setF_keeps | with_reducible apply setBurst_keeps | with_reducible apply Keeps.foldl | with_reducible exact Keeps.refl | intro _ | split | dsimp only)

theorem execRangeChange_keeps {s t u : State} (h : Keeps s t) (a0 : Port) (e : execRangeChange a0 t = .next u) : Keeps s u := by
  unfold execRangeChange at e
  try dsimp only at e
  repeat' split at e
  all_goals (cases e; repeat' (first | with_reducible assumption | with_reducible apply rangeChange_keeps | with_reducible exact Keeps.refl | intro _ | split | dsimp only))

theorem execRangeChangeForced_keeps {s t u : State} (h : Keeps s t) (a0 : Port) (e : execRangeChangeForced a0 t = .next u) : Keeps s u := by
  unfold execRangeChangeForced at e
  try dsimp only at e
  repeat' split at e
  all_goals (cases e; repeat' (first | with_reducible assumption | with_reducible apply rangeChange_keeps | with_reducible apply eraseSymbols_keeps | with_reducible exact Keeps.refl | intro _ | split | dsimp only))

theorem stepOn_keeps {s t : State} (h : Keeps s t) (a0 : Nat) (a1 : Nat) (a2 : Nat) : Keeps s (stepOn a0 a1 a2 t) := by
  unfold stepOn
  repeat' (first | with_reducible assumption | with_reducible apply calStep_keeps | with_reducible apply raise_keeps | with_reducible apply count_keeps | with_reducible exact Keeps.refl | intro _ | split | dsimp only)

theorem execReceiveStep_keeps {s t u : State} (h : Keeps s t) (a0 : Port) (a1 : Bool) (a2 : Fin 209715200) (e : execReceiveStep a0 a1 a2 t = .next u) : Keeps s u := by
  unfold execReceiveStep at e
  try dsimp only at e
  repeat' split at e
  all_goals (cases e; repeat' (first | with_reducible assumption | with_reducible apply stepOn_keeps | with_reducible exact Keeps.refl | intro _ | split | dsimp only))

theorem execDriveStep_keeps {s t u : State} (h : Keeps s t) (a0 : Port) (a1 : Fin 209715200) (e : execDriveStep a0 a1 t = .next u) : Keeps s u := by
  unfold execDriveStep at e
  try dsimp only at e
  repeat' split at e
  all_goals (cases e; repeat' (first | with_reducible assumption | with_reducible apply stepOn_keeps | with_reducible exact Keeps.refl | intro _ | split | dsimp only))

theorem runCalPort_keeps {s t : State} (h : Keeps s t) (a0 : Nat) (a1 : Outstanding) : Keeps s (runCalPort a0 a1 t) := by
  unfold runCalPort
  repeat' (first | with_reducible assumption | with_reducible apply done_keeps | with_reducible exact Keeps.refl | intro _ | split | dsimp only)

theorem execCalPort_keeps {s t u : State} (h : Keeps s t) (a0 : Port) (a1 : CmdSrc) (e : execCalPort a0 a1 t = .next u) : Keeps s u := by
  unfold execCalPort at e
  try dsimp only at e
  repeat' split at e
  all_goals (cases e; repeat' (first | with_reducible assumption | with_reducible apply issue_keeps | with_reducible apply runCalPort_keeps | with_reducible exact Keeps.refl | intro _ | split | dsimp only))

theorem calStart_keeps {s t : State} (h : Keeps s t) (a0 : Nat) : Keeps s (calStart a0 t) := by
  unfold calStart
  repeat' (first | with_reducible assumption | with_reducible apply done_keeps | with_reducible apply setPhase_keeps | with_reducible apply setPort_keeps | with_reducible exact Keeps.refl | intro _ | split | dsimp only)

theorem finishCal_keeps {s t : State} (h : Keeps s t) (a0 : Nat) (a1 : Int) (a2 : Int) : Keeps s (finishCal a0 a1 a2 t) := by
  unfold finishCal
  repeat' (first | with_reducible assumption | with_reducible apply setPort_keeps | with_reducible apply setF_keeps | with_reducible apply done_keeps | with_reducible apply setFault_keeps | with_reducible exact Keeps.refl | intro _ | split | dsimp only)

theorem abortCal_keeps {s t : State} (h : Keeps s t) (a0 : Nat) : Keeps s (abortCal a0 t) := by
  unfold abortCal
  repeat' (first | with_reducible assumption | with_reducible apply done_keeps | with_reducible apply setPort_keeps | with_reducible exact Keeps.refl | intro _ | split | dsimp only)

theorem runMeasureZ_keeps {s t : State} (h : Keeps s t) (a0 : Nat) (a1 : Outstanding) : Keeps s (runMeasureZ a0 a1 t) := by
  unfold runMeasureZ
  repeat' (first | with_reducible assumption | with_reducible apply setPort_keeps | with_reducible apply done_keeps | with_reducible exact Keeps.refl | intro _ | split | dsimp only)

theorem execMeasureZ_keeps {s t u : State} (h : Keeps s t) (a0 : Port) (a1 : CmdSrc) (e : execMeasureZ a0 a1 t = .next u) : Keeps s u := by
  unfold execMeasureZ at e
  try dsimp only at e
  repeat' split at e
  all_goals (cases e; repeat' (first | with_reducible assumption | with_reducible apply issue_keeps | with_reducible apply runMeasureZ_keeps | with_reducible exact Keeps.refl | intro _ | split | dsimp only))

theorem measureZTimeout_keeps {s t : State} (h : Keeps s t) (a0 : Nat) : Keeps s (measureZTimeout a0 t) := by
  unfold measureZTimeout
  repeat' (first | with_reducible assumption | with_reducible apply setI_keeps | with_reducible apply done_keeps | with_reducible apply Keeps.foldl | with_reducible exact Keeps.refl | intro _ | split | dsimp only)

theorem execMeasureZTimeout_keeps {s t u : State} (h : Keeps s t) (a0 : Port) (e : execMeasureZTimeout a0 t = .next u) : Keeps s u := by
  unfold execMeasureZTimeout at e
  try dsimp only at e
  repeat' split at e
  all_goals (cases e; repeat' (first | with_reducible assumption | with_reducible apply measureZTimeout_keeps | with_reducible exact Keeps.refl | intro _ | split | dsimp only))

theorem execLptBlkReset_keeps {s t u : State} (h : Keeps s t) (a0 : Port) (e : execLptBlkReset a0 t = .next u) : Keeps s u := by
  unfold execLptBlkReset at e
  try dsimp only at e
  repeat' split at e
  all_goals (cases e; repeat' (first | with_reducible assumption | with_reducible apply driverOff_keeps | with_reducible apply completeAll_keeps | with_reducible apply setPort_keeps | with_reducible apply setF_keeps | with_reducible apply setFault_keeps | with_reducible apply refreshFreeze_keeps | with_reducible apply blkReset_keeps | with_reducible exact Keeps.refl | intro _ | split | dsimp only))

end Sys2Proof.Machine
end

