-- ==== Sys2Proof/Laws/KeepsSched.lean ====
section
/-! SUPPORT. Sys2Proof/Laws/KeepsSched.lean: what the operations of Machine/Sched.lean keep of a state. -/
namespace Sys2Proof.Machine

theorem planBeacon_keeps {s t : State} (h : Keeps s t) (a0 : Nat) (a1 : Wave) : Keeps s (planBeacon a0 a1 t) := by
  unfold planBeacon
  repeat' (first | with_reducible assumption | with_reducible apply runJob_keeps | with_reducible apply loseBeacon_keeps | (refine runJob_keeps_eq ?_ (by assumption)) | with_reducible exact Keeps.refl | (with_reducible refine Keeps.upd ?_ (by with_reducible rfl); first | with_reducible assumption | with_reducible apply runJob_keeps | with_reducible apply loseBeacon_keeps | (refine runJob_keeps_eq ?_ (by assumption)) | with_reducible exact Keeps.refl | split) | intro _ | split | dsimp only)

theorem planBeacons_keeps {s t : State} (h : Keeps s t)  : Keeps s (planBeacons t) := by
  unfold planBeacons
  repeat' (first | with_reducible assumption | with_reducible apply planBeacon_keeps | with_reducible apply Keeps.foldl | with_reducible exact Keeps.refl | intro _ | split | dsimp only)

theorem placeGrant_keeps {s t : State} (h : Keeps s t) (a0 : GrantAsk) (a1 : Nat) (a2 : Nat) (a3 : Nat) : Keeps s (placeGrant a0 a1 a2 a3 t).2.2 := by
  unfold placeGrant
  repeat' (first | with_reducible assumption | with_reducible exact Keeps.refl | (with_reducible refine Keeps.upd ?_ (by with_reducible rfl); first | with_reducible assumption | with_reducible exact Keeps.refl | split) | intro _ | split | dsimp only)

theorem placeGrant_keeps_eq {s t u : State} {a0 : GrantAsk} {a1 : Nat} {a2 : Nat} {a3 : Nat} {y0 y1} (h : Keeps s t) (e : placeGrant a0 a1 a2 a3 t = (y0, y1, u)) : Keeps s u := by
  have k := placeGrant_keeps h a0 a1 a2 a3
  rw [e] at k
  exact k

theorem planPeriodic_keeps {s t : State} (h : Keeps s t)  : Keeps s (planPeriodic t) := by
  unfold planPeriodic
  repeat' (first | with_reducible assumption | with_reducible exact Keeps.refl | (with_reducible refine Keeps.upd ?_ (by with_reducible rfl); first | with_reducible assumption | with_reducible exact Keeps.refl | split) | intro _ | split | dsimp only)

theorem askGrant_keeps {s t : State} (h : Keeps s t) (a0 : Nat) (a1 : Nat) (a2 : Nat) (a3 : Option Bool) : Keeps s (askGrant a0 a1 a2 a3 t) := by
  unfold askGrant
  repeat' (first | with_reducible assumption | with_reducible apply addFrame_keeps | with_reducible exact Keeps.refl | intro _ | split | dsimp only)

theorem askGrants_keeps {s t : State} (h : Keeps s t) (a0 : List GrantWish) : Keeps s (askGrants a0 t) := by
  unfold askGrants
  repeat' (first | with_reducible assumption | with_reducible apply askGrant_keeps | with_reducible apply Keeps.foldl | with_reducible exact Keeps.refl | intro _ | split | dsimp only)

theorem sealAccept_keeps {s t : State} (h : Keeps s t) (a0 : Frame) (a1 : List Byte) : Keeps s (sealAccept a0 a1 t).2.2 := by
  unfold sealAccept
  repeat' (first | with_reducible assumption | with_reducible apply runJob_keeps | (refine runJob_keeps_eq ?_ (by assumption)) | with_reducible exact Keeps.refl | intro _ | split | dsimp only)

theorem sealAccept_keeps_eq {s t u : State} {a0 : Frame} {a1 : List Byte} {y0 y1} (h : Keeps s t) (e : sealAccept a0 a1 t = (y0, y1, u)) : Keeps s u := by
  have k := sealAccept_keeps h a0 a1
  rw [e] at k
  exact k

theorem sealBytes_keeps {s t : State} (h : Keeps s t) (a0 : Frame) (a1 : List Byte) : Keeps s (sealBytes a0 a1 t).2.2 := by
  unfold sealBytes
  repeat' (first | with_reducible assumption | with_reducible apply sealAccept_keeps | with_reducible apply sealFrame_keeps | (refine sealAccept_keeps_eq ?_ (by assumption)) | (refine sealFrame_keeps_eq ?_ (by assumption)) | with_reducible exact Keeps.refl | intro _ | split | dsimp only)

theorem sealBytes_keeps_eq {s t u : State} {a0 : Frame} {a1 : List Byte} {y0 y1} (h : Keeps s t) (e : sealBytes a0 a1 t = (y0, y1, u)) : Keeps s u := by
  have k := sealBytes_keeps h a0 a1
  rw [e] at k
  exact k

theorem wrapRelays_keeps {s t : State} (h : Keeps s t) (l : List Nat) (a ty q : Nat) (p : List Byte) : Keeps s (wrapRelays l a ty q p t).2.2 := by
  induction l generalizing t a ty q p with
  | nil => exact h
  | cons r rest ih =>
    unfold wrapRelays
    dsimp only
    split
    · exact ih (setAssoc_keeps (sealUnit_keeps (nextFseq_keeps h _ _) _) _ _) _ _ _ _
    · exact setAssoc_keeps (sealUnit_keeps (nextFseq_keeps h _ _) _) _ _

theorem wrapRelays_keeps_eq {s t u : State} {l : List Nat} {a ty q : Nat} {p : List Byte} {y : Nat} {z : Nat × Nat × Nat × List Byte}
    (h : Keeps s t) (e : wrapRelays l a ty q p t = (y, z, u)) : Keeps s u := by
  have k := wrapRelays_keeps h l a ty q p
  rw [e] at k
  exact k

theorem putItem_keeps {s t : State} (h : Keeps s t) (a0 : Frame) (a1 : PlanItem) (a2 : Option BbHeader) (a3 : List TxOcc) : Keeps s (putItem a0 a1 a2 a3 t).2 := by
  unfold putItem
  repeat' (first | with_reducible assumption | with_reducible apply wrapRelays_keeps | with_reducible apply takeTadj_keeps | (refine wrapRelays_keeps_eq ?_ (by assumption)) | (refine takeTadj_keeps_eq ?_ (by assumption)) | with_reducible exact Keeps.refl | (with_reducible refine Keeps.upd ?_ (by with_reducible rfl); first | with_reducible assumption | with_reducible apply wrapRelays_keeps | with_reducible apply takeTadj_keeps | (refine wrapRelays_keeps_eq ?_ (by assumption)) | (refine takeTadj_keeps_eq ?_ (by assumption)) | with_reducible exact Keeps.refl | split) | intro _ | split | dsimp only)

theorem putItem_keeps_eq {s t u : State} {a0 : Frame} {a1 : PlanItem} {a2 : Option BbHeader} {a3 : List TxOcc} {y0} (h : Keeps s t) (e : putItem a0 a1 a2 a3 t = (y0, u)) : Keeps s u := by
  have k := putItem_keeps h a0 a1 a2 a3
  rw [e] at k
  exact k

theorem notePlanned_keeps {s t : State} (h : Keeps s t) (a0 : Frame) (a1 : Nat) (a2 : List Byte) : Keeps s (notePlanned a0 a1 a2 t) := by
  unfold notePlanned
  repeat' (first | with_reducible assumption | with_reducible apply setAssoc_keeps | with_reducible apply rekeySent_keeps | with_reducible apply putMap_keeps | with_reducible exact Keeps.refl | intro _ | split | dsimp only)

theorem planFailed_keeps {s t : State} (h : Keeps s t) (a0 : Frame) (a1 : Nat) : Keeps s (planFailed a0 a1 t) := by
  unfold planFailed
  repeat' (first | with_reducible assumption | with_reducible apply jobRefused_keeps | with_reducible apply finishFrame_keeps | with_reducible exact Keeps.refl | intro _ | split | dsimp only)

theorem notPlaced_keeps {s t : State} (h : Keeps s t) (a0 : Frame) (a1 : Bool) : Keeps s (notPlaced a0 a1 t) := by
  unfold notPlaced
  repeat' (first | with_reducible assumption | with_reducible apply setFrame_keeps | with_reducible apply deferBurst_keeps | with_reducible apply raise_keeps | with_reducible apply count_keeps | with_reducible apply finishFrame_keeps | with_reducible exact Keeps.refl | intro _ | split | dsimp only)

theorem enterPlan_keeps {s t : State} (h : Keeps s t) (a0 : Frame) (a1 : PlanItem) (a2 : Option BbHeader) (a3 : List TxOcc) (a4 : List Byte) (a5 : State) : Keeps s (enterPlan a0 a1 a2 a3 a4 a5 t) := by
  unfold enterPlan
  repeat' (first | with_reducible assumption | with_reducible apply sealBytes_keeps | with_reducible apply planFailed_keeps | with_reducible apply putItem_keeps | with_reducible apply count_keeps | with_reducible apply notePlanned_keeps | with_reducible apply setFrame_keeps | (refine sealBytes_keeps_eq ?_ (by assumption)) | (refine putItem_keeps_eq ?_ (by assumption)) | with_reducible exact Keeps.refl | (with_reducible refine Keeps.upd ?_ (by with_reducible rfl); first | with_reducible assumption | with_reducible apply sealBytes_keeps | with_reducible apply planFailed_keeps | with_reducible apply putItem_keeps | with_reducible apply count_keeps | with_reducible apply notePlanned_keeps | with_reducible apply setFrame_keeps | (refine sealBytes_keeps_eq ?_ (by assumption)) | (refine putItem_keeps_eq ?_ (by assumption)) | with_reducible exact Keeps.refl | split) | intro _ | split | dsimp only)

theorem commitFrame_keeps {s t : State} (h : Keeps s t) (a0 : Frame) (a1 : PlanItem) (a2 : Option BbHeader) (a3 : List TxOcc) : Keeps s (commitFrame a0 a1 a2 a3 t) := by
  unfold commitFrame
  repeat' (first | with_reducible assumption | with_reducible apply enterPlan_keeps | with_reducible apply placeGrant_keeps | with_reducible apply notPlaced_keeps | (refine placeGrant_keeps_eq ?_ (by assumption)) | with_reducible exact Keeps.refl | (with_reducible refine Keeps.upd ?_ (by with_reducible rfl); first | with_reducible assumption | with_reducible apply enterPlan_keeps | with_reducible apply placeGrant_keeps | with_reducible apply notPlaced_keeps | (refine placeGrant_keeps_eq ?_ (by assumption)) | with_reducible exact Keeps.refl | split) | intro _ | split | dsimp only | (with_reducible refine Keeps.updTable ?_ (fun w => by simp only [State.wf, State.hostWf, State.lineWf, State.memWf, State.serviceWf, Bool.and_eq_true] at w ⊢; simp_all only [Map.wf_set, Map.wf_filter, Map.wf_mapVals, Map.wf_nil, and_self]); first | with_reducible assumption | with_reducible apply enterPlan_keeps | with_reducible apply placeGrant_keeps | with_reducible apply notPlaced_keeps | (refine placeGrant_keeps_eq ?_ (by assumption)) | with_reducible exact Keeps.refl | split))

theorem planOne_keeps {s t : State} (h : Keeps s t) (a0 : Frame) : Keeps s (planOne a0 t) := by
  unfold planOne
  repeat' (first | with_reducible assumption | with_reducible apply notPlaced_keeps | with_reducible apply commitFrame_keeps | with_reducible exact Keeps.refl | intro _ | split | dsimp only)

theorem planFrame_keeps {s t : State} (h : Keeps s t) (a0 : Nat) : Keeps s (planFrame a0 t) := by
  unfold planFrame
  repeat' (first | with_reducible assumption | with_reducible apply dropFrame_keeps | with_reducible apply sf2Discard_keeps | with_reducible apply sealUnit_keeps | with_reducible apply frameReady_keeps | with_reducible apply planFailed_keeps | with_reducible apply finishFrame_keeps | with_reducible apply notPlaced_keeps | with_reducible apply planOne_keeps | (refine sealUnit_keeps_eq ?_ (by assumption)) | with_reducible exact Keeps.refl | intro _ | split | dsimp only)

theorem planFrames_keeps {s t : State} (h : Keeps s t)  : Keeps s (planFrames t) := by
  unfold planFrames
  repeat' (first | with_reducible assumption | with_reducible apply planFrame_keeps | with_reducible apply Keeps.foldl | with_reducible exact Keeps.refl | intro _ | split | dsimp only)

theorem planJoinUp_keeps {s t : State} (h : Keeps s t) (a0 : Frame) : Keeps s (planJoinUp a0 t) := by
  unfold planJoinUp
  repeat' (first | with_reducible assumption | with_reducible apply dropFrame_keeps | with_reducible apply toParent_keeps | with_reducible apply placeGrant_keeps | (refine placeGrant_keeps_eq ?_ (by assumption)) | with_reducible exact Keeps.refl | intro _ | split | dsimp only)

theorem planJoinUps_keeps {s t : State} (h : Keeps s t)  : Keeps s (planJoinUps t) := by
  unfold planJoinUps
  repeat' (first | with_reducible assumption | with_reducible apply planJoinUp_keeps | with_reducible apply Keeps.foldl | with_reducible exact Keeps.refl | intro _ | split | dsimp only)

theorem prunePlan_keeps {s t : State} (h : Keeps s t)  : Keeps s (prunePlan t) := by
  unfold prunePlan
  repeat' (first | with_reducible assumption | with_reducible exact Keeps.refl | (with_reducible refine Keeps.upd ?_ (by with_reducible rfl); first | with_reducible assumption | with_reducible exact Keeps.refl | split) | intro _ | split | dsimp only | (with_reducible refine Keeps.updTable ?_ (fun w => by simp only [State.wf, State.hostWf, State.lineWf, State.memWf, State.serviceWf, Bool.and_eq_true] at w ⊢; simp_all only [Map.wf_set, Map.wf_filter, Map.wf_mapVals, Map.wf_nil, and_self]); first | with_reducible assumption | with_reducible exact Keeps.refl | split))

end Sys2Proof.Machine
end

