-- ==== Sys2Proof/Laws/KeepsMgt.lean ====
section
/-! SUPPORT. Sys2Proof/Laws/KeepsMgt.lean: what the operations of Machine/Mgt.lean keep of a state. -/
namespace Sys2Proof.Machine

theorem logFlush_keeps {s t : State} (h : Keeps s t)  : Keeps s (logFlush t) := by
  unfold logFlush
  repeat' (first | with_reducible assumption | with_reducible apply setF_keeps | with_reducible apply flushLog_keeps | with_reducible apply setB_keeps | with_reducible exact Keeps.refl | intro _ | split | dsimp only)

theorem execLogFlush_keeps {s t u : State} (h : Keeps s t)  (e : execLogFlush t = .next u) : Keeps s u := by
  unfold execLogFlush at e
  try dsimp only at e
  repeat' split at e
  all_goals (cases e; repeat' (first | with_reducible assumption | with_reducible apply logFlush_keeps | with_reducible exact Keeps.refl | intro _ | split | dsimp only))

theorem runLogMark_keeps {s t : State} (h : Keeps s t) (a0 : Outstanding) : Keeps s (runLogMark a0 t) := by
  unfold runLogMark
  repeat' (first | with_reducible assumption | with_reducible apply done_keeps | with_reducible apply logEvent_keeps | with_reducible exact Keeps.refl | intro _ | split | dsimp only)

theorem execLogMark_keeps {s t u : State} (h : Keeps s t) (a0 : CmdSrc) (e : execLogMark a0 t = .next u) : Keeps s u := by
  unfold execLogMark at e
  try dsimp only at e
  repeat' split at e
  all_goals (cases e; repeat' (first | with_reducible assumption | with_reducible apply issue_keeps | with_reducible apply runLogMark_keeps | with_reducible exact Keeps.refl | intro _ | split | dsimp only))

theorem setCampaign_keeps {s t : State} (h : Keeps s t) (a0 : Option Campaign) : Keeps s (setCampaign a0 t) := by
  unfold setCampaign
  repeat' (first | with_reducible assumption | with_reducible exact Keeps.refl | (with_reducible refine Keeps.upd ?_ (by with_reducible rfl); first | with_reducible assumption | with_reducible exact Keeps.refl | split) | intro _ | split | dsimp only)

theorem logCampaign_keeps {s t : State} (h : Keeps s t) (a0 : Nat) : Keeps s (logCampaign a0 t) := by
  unfold logCampaign
  repeat' (first | with_reducible assumption | with_reducible apply logEvent_keeps | with_reducible exact Keeps.refl | intro _ | split | dsimp only)

theorem endCampaign_keeps {s t : State} (h : Keeps s t) (a0 : Nat) : Keeps s (endCampaign a0 t) := by
  unfold endCampaign
  repeat' (first | with_reducible assumption | with_reducible apply logCampaign_keeps | with_reducible apply raise_keeps | with_reducible apply setB_keeps | with_reducible apply setCampaign_keeps | with_reducible exact Keeps.refl | intro _ | split | dsimp only)

theorem runCampaignStart_keeps {s t : State} (h : Keeps s t) (a0 : Outstanding) : Keeps s (runCampaignStart a0 t) := by
  unfold runCampaignStart
  repeat' (first | with_reducible assumption | with_reducible apply done_keeps | with_reducible apply setF_keeps | with_reducible apply setCampaign_keeps | with_reducible apply logCampaign_keeps | with_reducible apply setB_keeps | with_reducible exact Keeps.refl | intro _ | split | dsimp only)

theorem execCampaignStart_keeps {s t u : State} (h : Keeps s t) (a0 : CmdSrc) (e : execCampaignStart a0 t = .next u) : Keeps s u := by
  unfold execCampaignStart at e
  try dsimp only at e
  repeat' split at e
  all_goals (cases e; repeat' (first | with_reducible assumption | with_reducible apply issue_keeps | with_reducible apply runCampaignStart_keeps | with_reducible exact Keeps.refl | intro _ | split | dsimp only))

theorem runCampaignStop_keeps {s t : State} (h : Keeps s t) (a0 : Outstanding) : Keeps s (runCampaignStop a0 t) := by
  unfold runCampaignStop
  repeat' (first | with_reducible assumption | with_reducible apply endCampaign_keeps | with_reducible apply done_keeps | with_reducible exact Keeps.refl | intro _ | split | dsimp only)

theorem execCampaignStop_keeps {s t u : State} (h : Keeps s t) (a0 : CmdSrc) (e : execCampaignStop a0 t = .next u) : Keeps s u := by
  unfold execCampaignStop at e
  try dsimp only at e
  repeat' split at e
  all_goals (cases e; repeat' (first | with_reducible assumption | with_reducible apply issue_keeps | with_reducible apply runCampaignStop_keeps | with_reducible exact Keeps.refl | intro _ | split | dsimp only))

theorem nextBlock_keeps {s t : State} (h : Keeps s t) (a0 : Campaign) (a1 : Nat) : Keeps s (nextBlock a0 a1 t) := by
  unfold nextBlock
  repeat' (first | with_reducible assumption | with_reducible apply setF_keeps | with_reducible apply logCampaign_keeps | with_reducible apply raise_keeps | with_reducible apply endCampaign_keeps | with_reducible exact Keeps.refl | intro _ | split | dsimp only)

theorem putBlock_keeps {s t : State} (h : Keeps s t) (a0 : Campaign) (a1 : Nat) (a2 : Nat) (a3 : Nat) (a4 : Nat) : Keeps s (putBlock a0 a1 a2 a3 a4 t) := by
  unfold putBlock
  repeat' (first | with_reducible assumption | with_reducible apply runJob_keeps | with_reducible apply setCampaign_keeps | with_reducible apply done_keeps | with_reducible apply nextBlock_keeps | (refine runJob_keeps_eq ?_ (by assumption)) | with_reducible exact Keeps.refl | (with_reducible refine Keeps.upd ?_ (by with_reducible rfl); first | with_reducible assumption | with_reducible apply runJob_keeps | with_reducible apply setCampaign_keeps | with_reducible apply done_keeps | with_reducible apply nextBlock_keeps | (refine runJob_keeps_eq ?_ (by assumption)) | with_reducible exact Keeps.refl | split) | intro _ | split | dsimp only)

theorem campaignBlock_keeps {s t : State} (h : Keeps s t)  : Keeps s (campaignBlock t) := by
  unfold campaignBlock
  repeat' (first | with_reducible assumption | with_reducible apply setB_keeps | with_reducible apply putBlock_keeps | with_reducible exact Keeps.refl | intro _ | split | dsimp only)

theorem execCampaignBlockDue_keeps {s t u : State} (h : Keeps s t)  (e : execCampaignBlockDue t = .next u) : Keeps s u := by
  unfold execCampaignBlockDue at e
  try dsimp only at e
  repeat' split at e
  all_goals (cases e; repeat' (first | with_reducible assumption | with_reducible apply campaignBlock_keeps | with_reducible exact Keeps.refl | intro _ | split | dsimp only))

theorem campaignTakenOver_keeps {s t : State} (h : Keeps s t)  : Keeps s (campaignTakenOver t) := by
  unfold campaignTakenOver
  repeat' (first | with_reducible assumption | with_reducible apply endCampaign_keeps | with_reducible exact Keeps.refl | intro _ | split | dsimp only)

theorem execMgtBlkReset_keeps {s t u : State} (h : Keeps s t)  (e : execMgtBlkReset t = .next u) : Keeps s u := by
  unfold execMgtBlkReset at e
  try dsimp only at e
  repeat' split at e
  all_goals (cases e; repeat' (first | with_reducible assumption | with_reducible apply blkReset_keeps | with_reducible apply loadReset_keeps | with_reducible exact Keeps.refl | intro _ | split | dsimp only))

end Sys2Proof.Machine
end

