-- ==== Sys2Proof/Laws/KeepsBursts.lean ====
section
/-! SUPPORT. Sys2Proof/Laws/KeepsBursts.lean: what the operations of Machine/Bursts.lean keep of a state. -/
namespace Sys2Proof.Machine

theorem stageFrame_keeps {s t : State} (h : Keeps s t) (a0 : Purpose) (a1 : Stage) : Keeps s (stageFrame a0 a1 t) := by
  unfold stageFrame
  repeat' (first | with_reducible assumption | with_reducible apply setFrame_keeps | with_reducible exact Keeps.refl | intro _ | split | dsimp only)

theorem takeItem_keeps {s t : State} (h : Keeps s t) (a0 : PlanItem) : Keeps s (takeItem a0 t) := by
  unfold takeItem
  repeat' (first | with_reducible assumption | with_reducible apply openTx_keeps | with_reducible apply stageFrame_keeps | with_reducible apply failTx_keeps | with_reducible apply loseBeacon_keeps | (refine openTx_keeps_eq ?_ (by assumption)) | with_reducible exact Keeps.refl | (with_reducible refine Keeps.upd ?_ (by with_reducible rfl); first | with_reducible assumption | with_reducible apply openTx_keeps | with_reducible apply stageFrame_keeps | with_reducible apply failTx_keeps | with_reducible apply loseBeacon_keeps | (refine openTx_keeps_eq ?_ (by assumption)) | with_reducible exact Keeps.refl | split) | intro _ | split | dsimp only)

theorem execTxEngineTake_keeps {s t u : State} (h : Keeps s t) (a0 : Port) (a1 : Wave) (e : execTxEngineTake a0 a1 t = .next u) : Keeps s u := by
  unfold execTxEngineTake at e
  try dsimp only at e
  repeat' split at e
  all_goals (cases e; repeat' (first | with_reducible assumption | with_reducible apply takeItem_keeps | with_reducible exact Keeps.refl | (with_reducible refine Keeps.upd ?_ (by with_reducible rfl); first | with_reducible assumption | with_reducible apply takeItem_keeps | with_reducible exact Keeps.refl | split) | intro _ | split | dsimp only))

theorem recoverFrames_keeps {s t : State} (h : Keeps s t)  : Keeps s (recoverFrames t) := by
  unfold recoverFrames
  repeat' (first | with_reducible assumption | with_reducible apply setMac_keeps | with_reducible apply Keeps.macTable | with_reducible apply Keeps.macParked | with_reducible apply Keeps.macRelays | with_reducible apply Keeps.macCache | with_reducible apply Map.wf_set | with_reducible apply Map.wf_filter | with_reducible exact Map.wf_nil | with_reducible exact Keeps.refl | intro _ | split | dsimp only)

theorem acceptSent_keeps {s t : State} (h : Keeps s t) (a0 : Nat) : Keeps s (acceptSent a0 t) := by
  unfold acceptSent
  repeat' (first | with_reducible assumption | with_reducible apply setAssoc_keeps | with_reducible exact Keeps.refl | intro _ | split | dsimp only)

theorem frameSent_keeps {s t : State} (h : Keeps s t) (a0 : Frame) : Keeps s (frameSent a0 t) := by
  unfold frameSent
  repeat' (first | with_reducible assumption | with_reducible apply acceptSent_keeps | with_reducible apply dropFrame_keeps | with_reducible apply setAssoc_keeps | with_reducible apply count_keeps | with_reducible apply setFrame_keeps | with_reducible exact Keeps.refl | intro _ | split | dsimp only)

theorem sentBurst_keeps {s t : State} (h : Keeps s t) (a0 : Purpose) : Keeps s (sentBurst a0 t) := by
  unfold sentBurst
  repeat' (first | with_reducible assumption | with_reducible apply count_keeps | with_reducible apply frameSent_keeps | with_reducible exact Keeps.refl | (with_reducible refine Keeps.upd ?_ (by with_reducible rfl); first | with_reducible assumption | with_reducible apply count_keeps | with_reducible apply frameSent_keeps | with_reducible exact Keeps.refl | split) | intro _ | split | dsimp only)

theorem completeReceive_keeps {s t : State} (h : Keeps s t) (a0 : Nat) (a1 : RxResult) : Keeps s (completeReceive a0 a1 t) := by
  unfold completeReceive
  repeat' (first | with_reducible assumption | with_reducible apply combinedDecode_keeps | with_reducible apply setBurst_keeps | with_reducible apply nbDecoded_keeps | with_reducible apply bbDecoded_keeps | with_reducible apply noteOffset_keeps | with_reducible apply completeBurst_keeps | (refine nbDecoded_keeps_eq ?_ (by assumption)) | (refine bbDecoded_keeps_eq ?_ (by assumption)) | with_reducible exact Keeps.refl | intro _ | split | dsimp only)

theorem completeSend_keeps {s t : State} (h : Keeps s t) (a0 : Nat) : Keeps s (completeSend a0 t) := by
  unfold completeSend
  repeat' (first | with_reducible assumption | with_reducible apply sentBurst_keeps | with_reducible apply completeBurst_keeps | with_reducible apply setBurst_keeps | with_reducible exact Keeps.refl | intro _ | split | dsimp only)

theorem execBurstCompletion_keeps {s t u : State} (h : Keeps s t) (a0 : BurstId) (a1 : RxResult) (e : execBurstCompletion a0 a1 t = .next u) : Keeps s u := by
  unfold execBurstCompletion at e
  try dsimp only at e
  repeat' split at e
  all_goals (cases e; repeat' (first | with_reducible assumption | with_reducible apply completeReceive_keeps | with_reducible apply completeSend_keeps | with_reducible exact Keeps.refl | intro _ | split | dsimp only))

theorem execNbHeaderDecoded_keeps {s t u : State} (h : Keeps s t) (a0 : BurstId) (a1 : BitVec 64) (e : execNbHeaderDecoded a0 a1 t = .next u) : Keeps s u := by
  unfold execNbHeaderDecoded at e
  try dsimp only at e
  repeat' split at e
  all_goals (cases e; repeat' (first | with_reducible assumption | with_reducible apply nbHeaderDecoded_keeps | with_reducible exact Keeps.refl | intro _ | split | dsimp only))

theorem laneFrame_keeps {s t : State} (h : Keeps s t) (a0 : Nat) (a1 : Frame) : Keeps s (laneFrame a0 a1 t) := by
  unfold laneFrame
  repeat' (first | with_reducible assumption | with_reducible apply planJoinUp_keeps | with_reducible apply sealBytes_keeps | with_reducible apply planFailed_keeps | with_reducible apply takeTadj_keeps | with_reducible apply frameSent_keeps | with_reducible apply notePlanned_keeps | with_reducible apply setFrame_keeps | with_reducible apply laneNgael_keeps | (refine sealBytes_keeps_eq ?_ (by assumption)) | (refine takeTadj_keeps_eq ?_ (by assumption)) | with_reducible exact Keeps.refl | intro _ | split | dsimp only)

theorem flushLanes_keeps {s t : State} (h : Keeps s t)  : Keeps s (flushLanes t) := by
  unfold flushLanes
  repeat' (first | with_reducible assumption | with_reducible apply laneFrame_keeps | with_reducible apply Keeps.foldl | with_reducible exact Keeps.refl | intro _ | split | dsimp only)

theorem planLaneBeacon_keeps {s t : State} (h : Keeps s t) (a0 : Nat) : Keeps s (planLaneBeacon a0 t) := by
  unfold planLaneBeacon
  repeat' (first | with_reducible assumption | with_reducible apply runJob_keeps | with_reducible apply loseBeacon_keeps | (refine runJob_keeps_eq ?_ (by assumption)) | with_reducible exact Keeps.refl | (with_reducible refine Keeps.upd ?_ (by with_reducible rfl); first | with_reducible assumption | with_reducible apply runJob_keeps | with_reducible apply loseBeacon_keeps | (refine runJob_keeps_eq ?_ (by assumption)) | with_reducible exact Keeps.refl | split) | intro _ | split | dsimp only)

theorem planLaneBeacons_keeps {s t : State} (h : Keeps s t)  : Keeps s (planLaneBeacons t) := by
  unfold planLaneBeacons
  repeat' (first | with_reducible assumption | with_reducible apply planLaneBeacon_keeps | with_reducible apply Keeps.foldl | with_reducible exact Keeps.refl | intro _ | split | dsimp only)

theorem sendLaneBeacons_keeps {s t : State} (h : Keeps s t)  : Keeps s (sendLaneBeacons t) := by
  unfold sendLaneBeacons
  repeat' (first | with_reducible assumption | with_reducible apply laneNgael_keeps | with_reducible apply Keeps.foldl | with_reducible exact Keeps.refl | (with_reducible refine Keeps.upd ?_ (by with_reducible rfl); first | with_reducible assumption | with_reducible apply laneNgael_keeps | with_reducible apply Keeps.foldl | with_reducible exact Keeps.refl | split) | intro _ | split | dsimp only)

theorem execBcnBlkReset_keeps {s t u : State} (h : Keeps s t)  (e : execBcnBlkReset t = .next u) : Keeps s u := by
  unfold execBcnBlkReset at e
  try dsimp only at e
  repeat' split at e
  all_goals (cases e; repeat' (first | with_reducible assumption | with_reducible apply blkReset_keeps | with_reducible exact Keeps.refl | intro _ | split | dsimp only))

end Sys2Proof.Machine
end

