-- ==== Sys2Proof/Laws/KeepsParent.lean ====
section
/-! SUPPORT. Sys2Proof/Laws/KeepsParent.lean: what the operations of Machine/Parent.lean keep of a state. -/
namespace Sys2Proof.Machine

theorem upFrame_keeps {s t : State} (h : Keeps s t) (a0 : Nat) (a1 : Nat) (a2 : List Byte) : Keeps s (upFrame a0 a1 a2 t) := by
  unfold upFrame
  repeat' (first | with_reducible assumption | with_reducible apply addFrame_keeps | with_reducible exact Keeps.refl | intro _ | split | dsimp only)

theorem tellParent_keeps {s t : State} (h : Keeps s t) (a0 : Nat) (a1 : Nat) (a2 : List Byte) : Keeps s (tellParent a0 a1 a2 t) := by
  unfold tellParent
  repeat' (first | with_reducible assumption | with_reducible apply laneNgael_keeps | with_reducible apply upFrame_keeps | with_reducible exact Keeps.refl | intro _ | split | dsimp only)

theorem drawTag_keeps {s t : State} (h : Keeps s t)  : Keeps s (drawTag t).2 := by
  unfold drawTag
  repeat' (first | with_reducible assumption | with_reducible apply randBytes_keeps | (refine randBytes_keeps_eq ?_ (by assumption)) | with_reducible exact Keeps.refl | intro _ | split | dsimp only)

theorem drawTag_keeps_eq {s t u : State}  {y0} (h : Keeps s t) (e : drawTag t = (y0, u)) : Keeps s u := by
  have k := drawTag_keeps h 
  rw [e] at k
  exact k

theorem solicit_keeps {s t : State} (h : Keeps s t)  : Keeps s (solicit t) := by
  unfold solicit
  repeat' (first | with_reducible assumption | with_reducible apply raise_keeps | with_reducible apply drawTag_keeps | with_reducible apply tellParent_keeps | with_reducible apply setParent_keeps | (refine drawTag_keeps_eq ?_ (by assumption)) | with_reducible exact Keeps.refl | intro _ | split | dsimp only)

theorem solicitWait_keeps {s t : State} (h : Keeps s t)  : Keeps s (solicitWait t) := by
  unfold solicitWait
  repeat' (first | with_reducible assumption | with_reducible apply setParent_keeps | with_reducible apply solicit_keeps | with_reducible exact Keeps.refl | intro _ | split | dsimp only)

theorem execSolicitWaitExpiry_keeps {s t u : State} (h : Keeps s t)  (e : execSolicitWaitExpiry t = .next u) : Keeps s u := by
  unfold execSolicitWaitExpiry at e
  try dsimp only at e
  repeat' split at e
  all_goals (cases e; repeat' (first | with_reducible assumption | with_reducible apply solicitWait_keeps | with_reducible exact Keeps.refl | intro _ | split | dsimp only))

theorem takeOffer_keeps {s t : State} (h : Keeps s t) (a0 : List Byte) : Keeps s (takeOffer a0 t) := by
  unfold takeOffer
  repeat' (first | with_reducible assumption | with_reducible apply drawNonce_keeps | with_reducible apply setParent_keeps | with_reducible apply tellParent_keeps | (refine drawNonce_keeps_eq ?_ (by assumption)) | with_reducible exact Keeps.refl | intro _ | split | dsimp only)

theorem takeAccept_keeps {s t : State} (h : Keeps s t) (a0 : List Byte) : Keeps s (takeAccept a0 t) := by
  unfold takeAccept
  repeat' (first | with_reducible assumption | with_reducible apply countJob_keeps | with_reducible apply setParent_keeps | with_reducible apply parentFrame_keeps | with_reducible apply laneNgael_keeps | (refine parentFrame_keeps_eq ?_ (by assumption)) | with_reducible exact Keeps.refl | intro _ | split | dsimp only)

theorem takeHold_keeps {s t : State} (h : Keeps s t) (a0 : Nat) : Keeps s (takeHold a0 t) := by
  unfold takeHold
  repeat' (first | with_reducible assumption | with_reducible apply setParent_keeps | with_reducible apply solicit_keeps | with_reducible exact Keeps.refl | intro _ | split | dsimp only)

theorem parentAnswer_keeps {s t : State} (h : Keeps s t) (a0 : FrameIn) : Keeps s (parentAnswer a0 t) := by
  unfold parentAnswer
  repeat' (first | with_reducible assumption | with_reducible apply takeOffer_keeps | with_reducible apply takeHold_keeps | with_reducible apply takeAccept_keeps | with_reducible exact Keeps.refl | intro _ | split | dsimp only)

theorem execParentJoinAnswer_keeps {s t u : State} (h : Keeps s t) (a0 : BurstId) (e : execParentJoinAnswer a0 t = .next u) : Keeps s u := by
  unfold execParentJoinAnswer at e
  try dsimp only at e
  repeat' split at e
  all_goals (cases e; repeat' (first | with_reducible assumption | with_reducible apply onFrame_keeps | with_reducible apply parentAnswer_keeps | with_reducible exact Keeps.refl | intro _ | split | dsimp only))

theorem beginBeaconing_keeps {s t : State} (h : Keeps s t)  : Keeps s (beginBeaconing t) := by
  unfold beginBeaconing
  repeat' (first | with_reducible assumption | with_reducible apply setF_keeps | with_reducible exact Keeps.refl | intro _ | split | dsimp only)

theorem alignToParent_keeps {s t : State} (h : Keeps s t)  : Keeps s (alignToParent t) := by
  unfold alignToParent
  repeat' (first | with_reducible assumption | with_reducible apply setF_keeps | with_reducible apply setParent_keeps | with_reducible exact Keeps.refl | (with_reducible refine Keeps.upd ?_ (by with_reducible rfl); first | with_reducible assumption | with_reducible apply setF_keeps | with_reducible apply setParent_keeps | with_reducible exact Keeps.refl | split) | intro _ | split | dsimp only)

theorem parentJoined_keeps {s t : State} (h : Keeps s t)  : Keeps s (parentJoined t) := by
  unfold parentJoined
  repeat' (first | with_reducible assumption | with_reducible apply setParent_keeps | with_reducible apply setF_keeps | with_reducible apply setB_keeps | with_reducible apply raise_keeps | with_reducible apply beginBeaconing_keeps | with_reducible apply alignToParent_keeps | with_reducible exact Keeps.refl | intro _ | split | dsimp only)

theorem execParentJoined_keeps {s t u : State} (h : Keeps s t)  (e : execParentJoined t = .next u) : Keeps s u := by
  unfold execParentJoined at e
  try dsimp only at e
  repeat' split at e
  all_goals (cases e; repeat' (first | with_reducible assumption | with_reducible apply parentJoined_keeps | with_reducible exact Keeps.refl | intro _ | split | dsimp only))

theorem execParentLost_keeps {s t u : State} (h : Keeps s t)  (e : execParentLost t = .next u) : Keeps s u := by
  unfold execParentLost at e
  try dsimp only at e
  repeat' split at e
  all_goals (cases e; repeat' (first | with_reducible assumption | with_reducible apply parentLost_keeps | with_reducible exact Keeps.refl | intro _ | split | dsimp only))

theorem execTreeWaitExpiry_keeps {s t u : State} (h : Keeps s t)  (e : execTreeWaitExpiry t = .next u) : Keeps s u := by
  unfold execTreeWaitExpiry at e
  try dsimp only at e
  repeat' split at e
  all_goals (cases e; repeat' (first | with_reducible assumption | with_reducible apply beginBeaconing_keeps | with_reducible exact Keeps.refl | intro _ | split | dsimp only))

theorem planItem_keeps {s t : State} (h : Keeps s t) (a0 : PlanItem) : Keeps s (planItem a0 t) := by
  unfold planItem
  repeat' (first | with_reducible assumption | with_reducible exact Keeps.refl | (with_reducible refine Keeps.upd ?_ (by with_reducible rfl); first | with_reducible assumption | with_reducible exact Keeps.refl | split) | intro _ | split | dsimp only)

theorem contend_keeps {s t : State} (h : Keeps s t) (f : Frame) (g : Nat) : Keeps s (contend f g t) := by
  unfold contend
  dsimp only
  split
  · exact dropFrame_keeps (planItem_keeps (randBytes_keeps h _) _) _
  · exact randBytes_keeps h _

theorem grantBody_keeps {s t : State} (h : Keeps s t) (a0 : Bool) (a1 : Nat) : Keeps s (grantBody a0 a1 t).2.2.2 := by
  unfold grantBody
  repeat' (first | with_reducible assumption | with_reducible apply dropFrame_keeps | with_reducible apply parentFrameUnit_keeps | with_reducible apply setParent_keeps | (refine parentFrameUnit_keeps_eq ?_ (by assumption)) | with_reducible exact Keeps.refl | intro _ | split | dsimp only)

theorem grantBody_keeps_eq {s t u : State} {a0 : Bool} {a1 : Nat} {y0 y1 y2} (h : Keeps s t) (e : grantBody a0 a1 t = (y0, y1, y2, u)) : Keeps s u := by
  have k := grantBody_keeps h a0 a1
  rw [e] at k
  exact k

theorem useGrant_keeps {s t : State} (h : Keeps s t) (a0 : List Byte) : Keeps s (useGrant a0 t) := by
  unfold useGrant
  repeat' (first | with_reducible assumption | with_reducible apply setParent_keeps | with_reducible apply grantBody_keeps | (refine grantBody_keeps_eq ?_ (by assumption)) | with_reducible exact Keeps.refl | (with_reducible refine Keeps.upd ?_ (by with_reducible rfl); first | with_reducible assumption | with_reducible apply setParent_keeps | with_reducible apply grantBody_keeps | (refine grantBody_keeps_eq ?_ (by assumption)) | with_reducible exact Keeps.refl | split) | intro _ | split | dsimp only)

theorem planUplink_keeps {s t : State} (h : Keeps s t)  : Keeps s (planUplink t) := by
  unfold planUplink
  repeat' (first | with_reducible assumption | with_reducible apply contend_keeps | with_reducible apply useGrant_keeps | with_reducible apply upFrame_keeps | with_reducible apply Keeps.foldl | with_reducible exact Keeps.refl | intro _ | split | dsimp only)

end Sys2Proof.Machine
end

