-- ==== Sys2Proof/Laws/KeepsTree.lean ====
section
/-! SUPPORT. Sys2Proof/Laws/KeepsTree.lean: what the operations of Machine/Tree.lean keep of a state. -/
namespace Sys2Proof.Machine

theorem sendRoute_keeps {s t : State} (h : Keeps s t) (a0 : Nat) : Keeps s (sendRoute a0 t) := by
  unfold sendRoute
  repeat' (first | with_reducible assumption | with_reducible apply ownFrame_keeps | with_reducible apply Keeps.foldl | with_reducible exact Keeps.refl | intro _ | split | dsimp only)

theorem sendRoutes_keeps {s t : State} (h : Keeps s t) (a0 : Nat) : Keeps s (sendRoutes a0 t) := by
  unfold sendRoutes
  repeat' (first | with_reducible assumption | with_reducible apply sendRoute_keeps | with_reducible apply Keeps.foldl | with_reducible exact Keeps.refl | intro _ | split | dsimp only)

theorem runSetRoute_keeps {s t : State} (h : Keeps s t) (a0 : Outstanding) : Keeps s (runSetRoute a0 t) := by
  unfold runSetRoute
  repeat' (first | with_reducible assumption | with_reducible apply setRelay_keeps | with_reducible apply done_keeps | with_reducible apply sendRoutes_keeps | with_reducible exact Keeps.refl | intro _ | split | dsimp only)

theorem execSetRoute_keeps {s t u : State} (h : Keeps s t) (a0 : CmdSrc) (e : execSetRoute a0 t = .next u) : Keeps s u := by
  unfold execSetRoute at e
  try dsimp only at e
  repeat' split at e
  all_goals (cases e; repeat' (first | with_reducible assumption | with_reducible apply issue_keeps | with_reducible apply runSetRoute_keeps | with_reducible exact Keeps.refl | intro _ | split | dsimp only))

theorem runClearRoute_keeps {s t : State} (h : Keeps s t) (a0 : Outstanding) : Keeps s (runClearRoute a0 t) := by
  unfold runClearRoute
  repeat' (first | with_reducible assumption | with_reducible apply done_keeps | with_reducible apply setRelay_keeps | with_reducible exact Keeps.refl | intro _ | split | dsimp only)

theorem execClearRoute_keeps {s t u : State} (h : Keeps s t) (a0 : CmdSrc) (e : execClearRoute a0 t = .next u) : Keeps s u := by
  unfold execClearRoute at e
  try dsimp only at e
  repeat' split at e
  all_goals (cases e; repeat' (first | with_reducible assumption | with_reducible apply issue_keeps | with_reducible apply runClearRoute_keeps | with_reducible exact Keeps.refl | intro _ | split | dsimp only))

theorem runAppoint_keeps {s t : State} (h : Keeps s t) (a0 : Outstanding) : Keeps s (runAppoint a0 t) := by
  unfold runAppoint
  repeat' (first | with_reducible assumption | with_reducible apply done_keeps | with_reducible apply ownFrame_keeps | with_reducible apply setRelay_keeps | with_reducible exact Keeps.refl | intro _ | split | dsimp only)

theorem execAppoint_keeps {s t u : State} (h : Keeps s t) (a0 : CmdSrc) (e : execAppoint a0 t = .next u) : Keeps s u := by
  unfold execAppoint at e
  try dsimp only at e
  repeat' split at e
  all_goals (cases e; repeat' (first | with_reducible assumption | with_reducible apply issue_keeps | with_reducible apply runAppoint_keeps | with_reducible exact Keeps.refl | intro _ | split | dsimp only))

theorem execRptRouteSelWrite_keeps {s t u : State} (h : Keeps s t) (a0 : Word) (e : execRptRouteSelWrite a0 t = .next u) : Keeps s u := by
  unfold execRptRouteSelWrite at e
  try dsimp only at e
  repeat' split at e
  all_goals (cases e; repeat' (first | with_reducible assumption | with_reducible apply setF_keeps | with_reducible exact Keeps.refl | intro _ | split | dsimp only))

theorem execRptBlkReset_keeps {s t u : State} (h : Keeps s t)  (e : execRptBlkReset t = .next u) : Keeps s u := by
  unfold execRptBlkReset at e
  try dsimp only at e
  repeat' split at e
  all_goals (cases e; repeat' (first | with_reducible assumption | with_reducible apply blkReset_keeps | with_reducible exact Keeps.refl | intro _ | split | dsimp only))

theorem forwardStep_keeps {s t : State} (h : Keeps s t) (a0 : Nat) (a1 : Nat → State → State) (h1 : ∀ x0 x1, Keeps s x1 → Keeps s (a1 x0 x1)) : Keeps s (forwardStep a0 a1 t) := by
  unfold forwardStep
  repeat' (first | with_reducible assumption | with_reducible apply raise_keeps | with_reducible apply count_keeps | apply h1 | with_reducible exact Keeps.refl | intro _ | split | dsimp only)

theorem toChild_keeps {s t : State} (h : Keeps s t) (a0 : Nat) (a1 : List Byte) : Keeps s (toChild a0 a1 t) := by
  unfold toChild
  repeat' (first | with_reducible assumption | with_reducible apply ownFrame_keeps | with_reducible exact Keeps.refl | intro _ | split | dsimp only)

theorem relayedSolicit_keeps {s t : State} (h : Keeps s t) (a0 : Nat) (a1 : Nat) (a2 : FrameIn) : Keeps s (relayedSolicit a0 a1 a2 t) := by
  unfold relayedSolicit
  repeat' (first | with_reducible assumption | with_reducible apply raise_keeps | with_reducible apply count_keeps | with_reducible apply toChild_keeps | with_reducible apply setMac_keeps | with_reducible apply joinSolicit_keeps | with_reducible apply sendRoutes_keeps | with_reducible apply setRelay_keeps | with_reducible apply Keeps.macTable | with_reducible apply Keeps.macParked | with_reducible apply Keeps.macRelays | with_reducible apply Keeps.macCache | with_reducible apply Map.wf_set | with_reducible apply Map.wf_filter | with_reducible exact Map.wf_nil | with_reducible exact Keeps.refl | intro _ | split | dsimp only)

theorem relayedFrame_keeps {s t : State} (h : Keeps s t) (a0 : Nat) (a1 : Nat) (a2 : Nat) (a3 : List Byte) : Keeps s (relayedFrame a0 a1 a2 a3 t) := by
  unfold relayedFrame
  repeat' (first | with_reducible assumption | with_reducible apply dataFrame_keeps | with_reducible apply ackIn_keeps | with_reducible apply tmapFrame_keeps | with_reducible apply relayedSolicit_keeps | with_reducible apply joinReq_keeps | with_reducible apply grantReq_keeps | with_reducible apply malformed_keeps | with_reducible exact Keeps.refl | intro _ | split | dsimp only)

theorem sendInstall_keeps {s t : State} (h : Keeps s t) (a0 : Nat) (a1 : List Byte) : Keeps s (sendInstall a0 a1 t) := by
  unfold sendInstall
  repeat' (first | with_reducible assumption | with_reducible apply toChild_keeps | with_reducible exact Keeps.refl | intro _ | split | dsimp only)

theorem installReject_keeps {s t : State} (h : Keeps s t) (a0 : Nat) (a1 : Nat) (a2 : Nat) (a3 : Nat) (a4 : Nat) : Keeps s (installReject a0 a1 a2 a3 a4 t) := by
  unfold installReject
  repeat' (first | with_reducible assumption | with_reducible apply sendInstall_keeps | with_reducible exact Keeps.refl | intro _ | split | dsimp only)

theorem openUp_keeps {s t : State} (h : Keeps s t) (i k x : Nat) (u : JoinUpIn) (out : List Byte) : Keeps s (openUp i k x u out t) := by
  unfold openUp
  extract_lets t1
  have k1 : Keeps s t1 := by
    unfold t1
    split
    · exact startEnd_keeps h _ _ _ _
    · exact h
  exact setAssoc_keeps (clearRelays_keeps k1 _) _ _

theorem installUp_keeps {s t : State} (h : Keeps s t) (i x : Nat) (u : JoinUpIn) (out : List Byte) : Keeps s (installUp i x u out t) := by
  unfold installUp
  extract_lets
  split
  · exact setAssoc_keeps (runJob_keeps h _ _) _ _
  · exact sendInstall_keeps (runJob_keeps h _ _) _ _

theorem acceptUp_keeps {s t : State} (h : Keeps s t) (i k x : Nat) (u : JoinUpIn) : Keeps s (acceptUp i k x u t) := by
  unfold acceptUp
  dsimp only
  split
  · exact setAssoc_keeps (runJob_keeps h _ _) _ _
  · exact installUp_keeps (openUp_keeps (runJob_keeps h _ _) _ _ _ _ _) _ _ _ _

theorem judgeUp_keeps {s t : State} (h : Keeps s t) (a0 : Nat) (a1 : Nat) (a2 : JoinUpIn) : Keeps s (judgeUp a0 a1 a2 t) := by
  unfold judgeUp
  repeat' (first | with_reducible assumption | with_reducible apply setAssoc_keeps | with_reducible apply runJob_keeps | with_reducible apply installReject_keeps | with_reducible apply acceptUp_keeps | (refine runJob_keeps_eq ?_ (by assumption)) | with_reducible exact Keeps.refl | intro _ | split | dsimp only)

theorem joinUp_keeps {s t : State} (h : Keeps s t) (a0 : Nat) (a1 : Nat) (a2 : Nat) (a3 : List Byte) : Keeps s (joinUp a0 a1 a2 a3 t) := by
  unfold joinUp
  repeat' (first | with_reducible assumption | with_reducible apply malformed_keeps | with_reducible apply judgeUp_keeps | with_reducible apply forwardStep_keeps | with_reducible apply setMac_keeps | with_reducible apply toParent_keeps | with_reducible apply count_keeps | with_reducible apply installReject_keeps | with_reducible apply Keeps.macTable | with_reducible apply Keeps.macParked | with_reducible apply Keeps.macRelays | with_reducible apply Keeps.macCache | with_reducible apply Map.wf_set | with_reducible apply Map.wf_filter | with_reducible exact Map.wf_nil | with_reducible exact Keeps.refl | intro _ | split | dsimp only)

theorem installKey_keeps {s t : State} (h : Keeps s t) (a0 : Nat) (a1 : JoinSt) (a2 : List Byte) : Keeps s (installKey a0 a1 a2 t) := by
  unfold installKey
  repeat' (first | with_reducible assumption | with_reducible apply setAssoc_keeps | with_reducible apply addFrame_keeps | with_reducible apply setRoute_keeps | with_reducible exact Keeps.refl | intro _ | split | dsimp only)

theorem keyInstall_keeps {s t : State} (h : Keeps s t) (a0 : List Byte) : Keeps s (keyInstall a0 t) := by
  unfold keyInstall
  repeat' (first | with_reducible assumption | with_reducible apply setMac_keeps | with_reducible apply sendInstall_keeps | with_reducible apply setRoute_keeps | with_reducible apply installKey_keeps | with_reducible apply rejectJoin_keeps | with_reducible apply Keeps.macTable | with_reducible apply Keeps.macParked | with_reducible apply Keeps.macRelays | with_reducible apply Keeps.macCache | with_reducible apply Map.wf_set | with_reducible apply Map.wf_filter | with_reducible exact Map.wf_nil | with_reducible exact Keeps.refl | intro _ | split | dsimp only)

theorem execKeyInstall_keeps {s t u : State} (h : Keeps s t)  (e : execKeyInstall t = .next u) : Keeps s u := by
  unfold execKeyInstall at e
  try dsimp only at e
  repeat' split at e
  all_goals (cases e; repeat' (first | with_reducible assumption | with_reducible apply takeElem_keeps | with_reducible apply keyInstall_keeps | (refine takeElem_keeps_eq ?_ (by assumption)) | with_reducible exact Keeps.refl | intro _ | split | dsimp only))

theorem execJoinUpHoldExpiry_keeps {s t u : State} (h : Keeps s t)  (e : execJoinUpHoldExpiry t = .next u) : Keeps s u := by
  unfold execJoinUpHoldExpiry at e
  try dsimp only at e
  repeat' split at e
  all_goals (cases e; repeat' (first | with_reducible assumption | with_reducible apply setMac_keeps | with_reducible apply Keeps.macTable | with_reducible apply Keeps.macParked | with_reducible apply Keeps.macRelays | with_reducible apply Keeps.macCache | with_reducible apply Map.wf_set | with_reducible apply Map.wf_filter | with_reducible exact Map.wf_nil | with_reducible exact Keeps.refl | intro _ | split | dsimp only))

theorem sessionUnits_keeps {s t : State} (h : Keeps s t) (a0 : Nat) (a1 : List Byte) : Keeps s (sessionUnits a0 a1 t) := by
  unfold sessionUnits
  repeat' (first | with_reducible assumption | with_reducible apply malformed_keeps | with_reducible apply unitIn_keeps | (refine unitIn_keeps_eq ?_ (by assumption)) | with_reducible apply Keeps.foldl | with_reducible exact Keeps.refl | intro _ | split | dsimp only)

theorem treeUpIn_keeps {s t : State} (h : Keeps s t) (a0 : Nat) (a1 : Nat) (a2 : Nat) (a3 : List Byte) : Keeps s (treeUpIn a0 a1 a2 a3 t) := by
  unfold treeUpIn
  repeat' (first | with_reducible assumption | with_reducible apply sessionUnits_keeps | with_reducible apply forwardStep_keeps | with_reducible apply treeUp_keeps | with_reducible apply malformed_keeps | with_reducible exact Keeps.refl | intro _ | split | dsimp only)

theorem treeDownIn_keeps {s t : State} (h : Keeps s t) (a0 : Nat) (a1 : Nat) (a2 : List Byte) : Keeps s (treeDownIn a0 a1 a2 t) := by
  unfold treeDownIn
  repeat' (first | with_reducible assumption | with_reducible apply raise_keeps | with_reducible apply count_keeps | with_reducible apply malformed_keeps | with_reducible apply addFrame_keeps | with_reducible apply forwardStep_keeps | with_reducible apply toChild_keeps | with_reducible apply Keeps.foldl | with_reducible exact Keeps.refl | intro _ | split | dsimp only)

theorem treeEndUp_keeps {s t : State} (h : Keeps s t) (a0 : Nat) (a1 : Nat) (a2 : Nat) (a3 : List Byte) : Keeps s (treeEndUp a0 a1 a2 a3 t) := by
  unfold treeEndUp
  repeat' (first | with_reducible assumption | with_reducible apply endRecord_keeps | with_reducible apply setRoute_keeps | with_reducible apply forwardStep_keeps | with_reducible apply toParent_keeps | with_reducible apply count_keeps | with_reducible exact Keeps.refl | intro _ | split | dsimp only)

theorem treeEndDown_keeps {s t : State} (h : Keeps s t) (a0 : Nat) (a1 : Nat) (a2 : List Byte) : Keeps s (treeEndDown a0 a1 a2 t) := by
  unfold treeEndDown
  repeat' (first | with_reducible assumption | with_reducible apply setRoute_keeps | with_reducible apply setCtx_keeps | with_reducible apply forwardStep_keeps | with_reducible apply toChild_keeps | with_reducible apply count_keeps | with_reducible exact Keeps.refl | intro _ | split | dsimp only)

theorem peerVia_keeps {s t : State} (h : Keeps s t) (a0 : Nat) (a1 : Nat) (a2 : Nat) (a3 : List Byte) : Keeps s (peerVia a0 a1 a2 a3 t) := by
  unfold peerVia
  repeat' (first | with_reducible assumption | with_reducible apply forwardStep_keeps | with_reducible apply toChild_keeps | with_reducible apply count_keeps | with_reducible exact Keeps.refl | intro _ | split | dsimp only)

theorem relayUp_keeps {s t : State} (h : Keeps s t) (a0 : Elem) : Keeps s (relayUp a0 t) := by
  unfold relayUp
  repeat' (first | with_reducible assumption | with_reducible apply relayedFrame_keeps | with_reducible apply setRelay_keeps | with_reducible apply peerVia_keeps | with_reducible apply treeUpIn_keeps | with_reducible apply joinUp_keeps | with_reducible apply treeEndUp_keeps | with_reducible exact Keeps.refl | intro _ | split | dsimp only)

theorem relayDown_keeps {s t : State} (h : Keeps s t) (a0 : Elem) : Keeps s (relayDown a0 t) := by
  unfold relayDown
  repeat' (first | with_reducible assumption | with_reducible apply treeDownIn_keeps | with_reducible apply treeEndDown_keeps | with_reducible exact Keeps.refl | intro _ | split | dsimp only)

theorem execRelayElement_keeps {s t u : State} (h : Keeps s t)  (e : execRelayElement t = .next u) : Keeps s u := by
  unfold execRelayElement at e
  try dsimp only at e
  repeat' split at e
  all_goals (cases e; repeat' (first | with_reducible assumption | with_reducible apply takeElem_keeps | with_reducible apply flushLanes_keeps | with_reducible apply relayDown_keeps | with_reducible apply relayUp_keeps | (refine takeElem_keeps_eq ?_ (by assumption)) | with_reducible exact Keeps.refl | intro _ | split | dsimp only))

end Sys2Proof.Machine
end

