-- ==== Sys2Proof/Laws/KeepsTru.lean ====
section
/-! SUPPORT. Sys2Proof/Laws/KeepsTru.lean: what the operations of Machine/Tru.lean keep of a state. -/
namespace Sys2Proof.Machine

theorem setTru_keeps {s t : State} (h : Keeps s t) (a0 : TruSt) : Keeps s (setTru a0 t) := by
  unfold setTru
  repeat' (first | with_reducible assumption | with_reducible exact Keeps.refl | (with_reducible refine Keeps.upd ?_ (by with_reducible rfl); first | with_reducible assumption | with_reducible exact Keeps.refl | split) | intro _ | split | dsimp only)

theorem setQstate_keeps {s t : State} (h : Keeps s t) (a0 : Nat) (a1 : Nat) : Keeps s (setQstate a0 a1 t) := by
  unfold setQstate
  repeat' (first | with_reducible assumption | with_reducible apply setI_keeps | with_reducible exact Keeps.refl | intro _ | split | dsimp only)

theorem setAbsorbed_keeps {s t : State} (h : Keeps s t) (a0 : Int) : Keeps s (setAbsorbed a0 t) := by
  unfold setAbsorbed
  repeat' (first | with_reducible assumption | with_reducible apply setF_keeps | with_reducible exact Keeps.refl | intro _ | split | dsimp only)

theorem showTe_keeps {s t : State} (h : Keeps s t) (a0 : Nat) : Keeps s (showTe a0 t) := by
  unfold showTe
  repeat' (first | with_reducible assumption | with_reducible apply setB_keeps | with_reducible apply setF_keeps | with_reducible apply raise_keeps | with_reducible exact Keeps.refl | intro _ | split | dsimp only)

theorem recordTru_keeps {s t : State} (h : Keeps s t)  : Keeps s (recordTru t) := by
  unfold recordTru
  repeat' (first | with_reducible assumption | with_reducible apply setTru_keeps | with_reducible exact Keeps.refl | intro _ | split | dsimp only)

theorem linkTime_keeps {s t : State} (h : Keeps s t) (a0 : Nat) (a1 : Nat) (a2 : Nat) : Keeps s (linkTime a0 a1 a2 t) := by
  unfold linkTime
  repeat' (first | with_reducible assumption | with_reducible apply logEvent_keeps | with_reducible apply recordTru_keeps | with_reducible exact Keeps.refl | intro _ | split | dsimp only)

theorem setTruState_keeps {s t : State} (h : Keeps s t) (a0 : Nat) (a1 : Nat) : Keeps s (setTruState a0 a1 t) := by
  unfold setTruState
  repeat' (first | with_reducible assumption | with_reducible apply setF_keeps | with_reducible apply setTru_keeps | with_reducible apply linkTime_keeps | with_reducible apply logPage_keeps | with_reducible apply raise_keeps | with_reducible apply showTe_keeps | with_reducible exact Keeps.refl | intro _ | split | dsimp only)

theorem stopSlew_keeps {s t : State} (h : Keeps s t)  : Keeps s (stopSlew t) := by
  unfold stopSlew
  repeat' (first | with_reducible assumption | with_reducible apply setB_keeps | with_reducible exact Keeps.refl | intro _ | split | dsimp only)

theorem deselect_keeps {s t : State} (h : Keeps s t)  : Keeps s (deselect t) := by
  unfold deselect
  repeat' (first | with_reducible assumption | with_reducible apply setQstate_keeps | with_reducible apply setB_keeps | with_reducible apply setF_keeps | with_reducible exact Keeps.refl | intro _ | split | dsimp only)

theorem startSwitch_keeps {s t : State} (h : Keeps s t) (a0 : Nat) : Keeps s (startSwitch a0 t) := by
  unfold startSwitch
  repeat' (first | with_reducible assumption | with_reducible apply setQstate_keeps | with_reducible apply deselect_keeps | with_reducible apply stopSlew_keeps | with_reducible apply setB_keeps | with_reducible apply setF_keeps | with_reducible exact Keeps.refl | intro _ | split | dsimp only)

theorem holdOver_keeps {s t : State} (h : Keeps s t) (a0 : TruHold) : Keeps s (holdOver a0 t) := by
  unfold holdOver
  repeat' (first | with_reducible assumption | with_reducible apply setTruState_keeps | with_reducible apply setF_keeps | with_reducible exact Keeps.refl | intro _ | split | dsimp only)

theorem reselect_keeps {s t : State} (h : Keeps s t) (a0 : TruHold) : Keeps s (reselect a0 t) := by
  unfold reselect
  repeat' (first | with_reducible assumption | with_reducible apply startSwitch_keeps | with_reducible apply deselect_keeps | with_reducible apply setTruState_keeps | with_reducible apply holdOver_keeps | with_reducible exact Keeps.refl | intro _ | split | dsimp only)

theorem measured_keeps {s t : State} (h : Keeps s t) (a0 : TruHold) : Keeps s (measured a0 t) := by
  unfold measured
  repeat' (first | with_reducible assumption | with_reducible apply setTru_keeps | with_reducible exact Keeps.refl | intro _ | split | dsimp only)

theorem available_keeps {s t : State} (h : Keeps s t) (a0 : TruHold) : Keeps s (available a0 t) := by
  unfold available
  repeat' (first | with_reducible assumption | with_reducible apply reselect_keeps | with_reducible apply measured_keeps | with_reducible exact Keeps.refl | intro _ | split | dsimp only)

theorem showRef_keeps {s t : State} (h : Keeps s t) (a0 : Nat) (a1 : Word) (a2 : Word) : Keeps s (showRef a0 a1 a2 t) := by
  unfold showRef
  repeat' (first | with_reducible assumption | with_reducible apply setI_keeps | with_reducible exact Keeps.refl | intro _ | split | dsimp only)

theorem refQualified_keeps {s t : State} (h : Keeps s t) (a0 : Nat) (a1 : Word) (a2 : Word) (a3 : TruHold) : Keeps s (refQualified a0 a1 a2 a3 t) := by
  unfold refQualified
  repeat' (first | with_reducible assumption | with_reducible apply raise_keeps | with_reducible apply showRef_keeps | with_reducible apply available_keeps | with_reducible apply setQstate_keeps | with_reducible exact Keeps.refl | intro _ | split | dsimp only)

theorem execRefQualified_keeps {s t u : State} (h : Keeps s t) (a0 : Ref) (a1 : Word) (a2 : Word) (a3 : TruHold) (e : execRefQualified a0 a1 a2 a3 t = .next u) : Keeps s u := by
  unfold execRefQualified at e
  try dsimp only at e
  repeat' split at e
  all_goals (cases e; repeat' (first | with_reducible assumption | with_reducible apply refQualified_keeps | with_reducible exact Keeps.refl | intro _ | split | dsimp only))

theorem disqualify_keeps {s t : State} (h : Keeps s t) (a0 : Nat) (a1 : Nat) (a2 : TruHold) : Keeps s (disqualify a0 a1 a2 t) := by
  unfold disqualify
  repeat' (first | with_reducible assumption | with_reducible apply measured_keeps | with_reducible apply setTru_keeps | with_reducible apply raise_keeps | with_reducible apply setQstate_keeps | with_reducible apply reselect_keeps | with_reducible apply deselect_keeps | with_reducible exact Keeps.refl | intro _ | split | dsimp only)

theorem execRefDisqualified_keeps {s t u : State} (h : Keeps s t) (a0 : Ref) (a1 : Word) (a2 : Word) (a3 : TruHold) (e : execRefDisqualified a0 a1 a2 a3 t = .next u) : Keeps s u := by
  unfold execRefDisqualified at e
  try dsimp only at e
  repeat' split at e
  all_goals (cases e; repeat' (first | with_reducible assumption | with_reducible apply disqualify_keeps | with_reducible apply showRef_keeps | with_reducible exact Keeps.refl | intro _ | split | dsimp only))

theorem refLost_keeps {s t : State} (h : Keeps s t) (a0 : Nat) (a1 : TruHold) : Keeps s (refLost a0 a1 t) := by
  unfold refLost
  repeat' (first | with_reducible assumption | with_reducible apply setI_keeps | with_reducible apply setQstate_keeps | with_reducible apply disqualify_keeps | with_reducible exact Keeps.refl | intro _ | split | dsimp only)

theorem execRefLossOfSignal_keeps {s t u : State} (h : Keeps s t) (a0 : Ref) (a1 : TruHold) (e : execRefLossOfSignal a0 a1 t = .next u) : Keeps s u := by
  unfold execRefLossOfSignal at e
  try dsimp only at e
  repeat' split at e
  all_goals (cases e; repeat' (first | with_reducible assumption | with_reducible apply refLost_keeps | with_reducible exact Keeps.refl | intro _ | split | dsimp only))

theorem execWtrExpiry_keeps {s t u : State} (h : Keeps s t) (a0 : Ref) (a1 : TruHold) (e : execWtrExpiry a0 a1 t = .next u) : Keeps s u := by
  unfold execWtrExpiry at e
  try dsimp only at e
  repeat' split at e
  all_goals (cases e; repeat' (first | with_reducible assumption | with_reducible apply available_keeps | with_reducible apply setQstate_keeps | with_reducible exact Keeps.refl | intro _ | split | dsimp only))

theorem switchDone_keeps {s t : State} (h : Keeps s t) (a0 : Word) (a1 : TruHold) : Keeps s (switchDone a0 a1 t) := by
  unfold switchDone
  repeat' (first | with_reducible assumption | with_reducible apply setB_keeps | with_reducible apply setI_keeps | with_reducible apply setTru_keeps | with_reducible apply setAbsorbed_keeps | with_reducible apply raise_keeps | with_reducible apply setTruState_keeps | with_reducible apply showTe_keeps | with_reducible apply reselect_keeps | with_reducible exact Keeps.refl | intro _ | split | dsimp only)

theorem execSwitchComplete_keeps {s t u : State} (h : Keeps s t) (a0 : Word) (a1 : TruHold) (e : execSwitchComplete a0 a1 t = .next u) : Keeps s u := by
  unfold execSwitchComplete at e
  try dsimp only at e
  repeat' split at e
  all_goals (cases e; repeat' (first | with_reducible assumption | with_reducible apply switchDone_keeps | with_reducible exact Keeps.refl | intro _ | split | dsimp only))

theorem execTruLocked_keeps {s t u : State} (h : Keeps s t) (a0 : Word) (e : execTruLocked a0 t = .next u) : Keeps s u := by
  unfold execTruLocked at e
  try dsimp only at e
  repeat' split at e
  all_goals (cases e; repeat' (first | with_reducible assumption | with_reducible apply setTruState_keeps | with_reducible apply setI_keeps | with_reducible apply setTru_keeps | with_reducible exact Keeps.refl | intro _ | split | dsimp only))

theorem execTruLost_keeps {s t u : State} (h : Keeps s t) (a0 : Word) (e : execTruLost a0 t = .next u) : Keeps s u := by
  unfold execTruLost at e
  try dsimp only at e
  repeat' split at e
  all_goals (cases e; repeat' (first | with_reducible assumption | with_reducible apply setTruState_keeps | with_reducible apply showTe_keeps | with_reducible exact Keeps.refl | intro _ | split | dsimp only))

theorem execTeBudgetExceeded_keeps {s t u : State} (h : Keeps s t) (a0 : TruHold) (e : execTeBudgetExceeded a0 t = .next u) : Keeps s u := by
  unfold execTeBudgetExceeded at e
  try dsimp only at e
  repeat' split at e
  all_goals (cases e; repeat' (first | with_reducible assumption | with_reducible apply showTe_keeps | with_reducible apply measured_keeps | with_reducible exact Keeps.refl | intro _ | split | dsimp only))

theorem execSlewDone_keeps {s t u : State} (h : Keeps s t)  (e : execSlewDone t = .next u) : Keeps s u := by
  unfold execSlewDone at e
  try dsimp only at e
  repeat' split at e
  all_goals (cases e; repeat' (first | with_reducible assumption | with_reducible apply showTe_keeps | with_reducible apply raise_keeps | with_reducible apply setB_keeps | with_reducible apply setAbsorbed_keeps | with_reducible apply stopSlew_keeps | with_reducible exact Keeps.refl | intro _ | split | dsimp only))

theorem applyMode_keeps {s t : State} (h : Keeps s t) (a0 : TruHold) : Keeps s (applyMode a0 t) := by
  unfold applyMode
  repeat' (first | with_reducible assumption | with_reducible apply holdOver_keeps | with_reducible apply deselect_keeps | with_reducible apply measured_keeps | with_reducible apply setTruState_keeps | with_reducible apply reselect_keeps | with_reducible exact Keeps.refl | intro _ | split | dsimp only)

theorem execTruModeWrite_keeps {s t u : State} (h : Keeps s t) (a0 : Word) (a1 : TruHold) (e : execTruModeWrite a0 a1 t = .next u) : Keeps s u := by
  unfold execTruModeWrite at e
  try dsimp only at e
  repeat' split at e
  all_goals (cases e; repeat' (first | with_reducible assumption | with_reducible apply writeFields_keeps | with_reducible apply applyMode_keeps | with_reducible exact Keeps.refl | intro _ | split | dsimp only))

theorem refCfg_keeps {s t : State} (h : Keeps s t) (a0 : Nat) (a1 : Word) (a2 : TruHold) : Keeps s (refCfg a0 a1 a2 t) := by
  unfold refCfg
  repeat' (first | with_reducible assumption | with_reducible apply writeFields_keeps | with_reducible apply countErr_keeps | with_reducible apply setI_keeps | with_reducible apply setQstate_keeps | with_reducible apply reselect_keeps | with_reducible apply deselect_keeps | with_reducible apply measured_keeps | with_reducible exact Keeps.refl | intro _ | split | dsimp only)

theorem execRefCfgWrite_keeps {s t u : State} (h : Keeps s t) (a0 : Ref) (a1 : Word) (a2 : TruHold) (e : execRefCfgWrite a0 a1 a2 t = .next u) : Keeps s u := by
  unfold execRefCfgWrite at e
  try dsimp only at e
  repeat' split at e
  all_goals (cases e; repeat' (first | with_reducible assumption | with_reducible apply refCfg_keeps | with_reducible exact Keeps.refl | intro _ | split | dsimp only))

theorem runRealign_keeps {s t : State} (h : Keeps s t) (a0 : Outstanding) : Keeps s (runRealign a0 t) := by
  unfold runRealign
  repeat' (first | with_reducible assumption | with_reducible apply done_keeps | with_reducible apply setB_keeps | with_reducible apply setPhase_keeps | with_reducible apply stopSlew_keeps | with_reducible exact Keeps.refl | intro _ | split | dsimp only)

theorem execRealign_keeps {s t u : State} (h : Keeps s t) (a0 : CmdSrc) (e : execRealign a0 t = .next u) : Keeps s u := by
  unfold execRealign at e
  try dsimp only at e
  repeat' split at e
  all_goals (cases e; repeat' (first | with_reducible assumption | with_reducible apply issue_keeps | with_reducible apply runRealign_keeps | with_reducible exact Keeps.refl | intro _ | split | dsimp only))

theorem runSetTime_keeps {s t : State} (h : Keeps s t) (a0 : Nat) (a1 : Outstanding) : Keeps s (runSetTime a0 a1 t) := by
  unfold runSetTime
  repeat' (first | with_reducible assumption | with_reducible apply done_keeps | with_reducible apply setPhase_keeps | with_reducible apply setTru_keeps | with_reducible exact Keeps.refl | intro _ | split | dsimp only)

theorem execSetTime_keeps {s t u : State} (h : Keeps s t) (a0 : CmdSrc) (a1 : Fin 204800) (e : execSetTime a0 a1 t = .next u) : Keeps s u := by
  unfold execSetTime at e
  try dsimp only at e
  repeat' split at e
  all_goals (cases e; repeat' (first | with_reducible assumption | with_reducible apply issue_keeps | with_reducible apply runSetTime_keeps | with_reducible exact Keeps.refl | intro _ | split | dsimp only))

theorem execTinPpsEdge_keeps {s t u : State} (h : Keeps s t) (a0 : Fin 204800) (e : execTinPpsEdge a0 t = .next u) : Keeps s u := by
  unfold execTinPpsEdge at e
  try dsimp only at e
  repeat' split at e
  all_goals (cases e; repeat' (first | with_reducible assumption | with_reducible apply setPhase_keeps | with_reducible apply setTru_keeps | with_reducible exact Keeps.refl | intro _ | split | dsimp only))

theorem execSetTimePpsTimeout_keeps {s t u : State} (h : Keeps s t)  (e : execSetTimePpsTimeout t = .next u) : Keeps s u := by
  unfold execSetTimePpsTimeout at e
  try dsimp only at e
  repeat' split at e
  all_goals (cases e; repeat' (first | with_reducible assumption | with_reducible apply done_keeps | with_reducible exact Keeps.refl | intro _ | split | dsimp only))

theorem runCapture_keeps {s t : State} (h : Keeps s t) (a0 : Nat) (a1 : Outstanding) : Keeps s (runCapture a0 a1 t) := by
  unfold runCapture
  repeat' (first | with_reducible assumption | with_reducible apply setF_keeps | with_reducible apply done_keeps | with_reducible exact Keeps.refl | intro _ | split | dsimp only)

theorem execCapture_keeps {s t u : State} (h : Keeps s t) (a0 : CmdSrc) (a1 : Fin 204800) (e : execCapture a0 a1 t = .next u) : Keeps s u := by
  unfold execCapture at e
  try dsimp only at e
  repeat' split at e
  all_goals (cases e; repeat' (first | with_reducible assumption | with_reducible apply issue_keeps | with_reducible apply runCapture_keeps | with_reducible exact Keeps.refl | intro _ | split | dsimp only))

theorem runEndWtr_keeps {s t : State} (h : Keeps s t) (a0 : TruHold) (a1 : Outstanding) : Keeps s (runEndWtr a0 a1 t) := by
  unfold runEndWtr
  repeat' (first | with_reducible assumption | with_reducible apply done_keeps | with_reducible apply available_keeps | with_reducible apply setQstate_keeps | with_reducible exact Keeps.refl | intro _ | split | dsimp only)

theorem execEndWtr_keeps {s t u : State} (h : Keeps s t) (a0 : CmdSrc) (a1 : TruHold) (e : execEndWtr a0 a1 t = .next u) : Keeps s u := by
  unfold execEndWtr at e
  try dsimp only at e
  repeat' split at e
  all_goals (cases e; repeat' (first | with_reducible assumption | with_reducible apply issue_keeps | with_reducible apply runEndWtr_keeps | with_reducible exact Keeps.refl | intro _ | split | dsimp only))

theorem abortTru_keeps {s t : State} (h : Keeps s t)  : Keeps s (abortTru t) := by
  unfold abortTru
  repeat' (first | with_reducible assumption | with_reducible apply done_keeps | with_reducible apply setTru_keeps | with_reducible exact Keeps.refl | intro _ | split | dsimp only)

theorem stepE_keeps {s t : State} (h : Keeps s t) (a0 : Int) : Keeps s (stepE a0 t) := by
  unfold stepE
  repeat' (first | with_reducible assumption | with_reducible apply setTru_keeps | with_reducible apply setI_keeps | with_reducible apply logPage_keeps | with_reducible apply raise_keeps | with_reducible apply Keeps.foldl | with_reducible exact Keeps.refl | intro _ | split | dsimp only)

theorem applyAlign_keeps {s t : State} (h : Keeps s t)  : Keeps s (applyAlign t) := by
  unfold applyAlign
  repeat' (first | with_reducible assumption | with_reducible apply stepE_keeps | with_reducible apply setTru_keeps | with_reducible apply setB_keeps | with_reducible apply setAbsorbed_keeps | with_reducible exact Keeps.refl | intro _ | split | dsimp only)

theorem applyCommand_keeps {s t : State} (h : Keeps s t)  : Keeps s (applyCommand t) := by
  unfold applyCommand
  repeat' (first | with_reducible assumption | with_reducible apply done_keeps | with_reducible apply setB_keeps | with_reducible apply setAbsorbed_keeps | with_reducible apply stepE_keeps | with_reducible apply setTru_keeps | with_reducible exact Keeps.refl | intro _ | split | dsimp only)

theorem applyCopy_keeps {s t : State} (h : Keeps s t)  : Keeps s (applyCopy t) := by
  unfold applyCopy
  repeat' (first | with_reducible assumption | with_reducible apply setTru_keeps | with_reducible apply stepE_keeps | with_reducible exact Keeps.refl | intro _ | split | dsimp only)

theorem changeE_keeps {s t : State} (h : Keeps s t)  : Keeps s (changeE t) := by
  unfold changeE
  repeat' (first | with_reducible assumption | with_reducible apply applyCommand_keeps | with_reducible apply applyAlign_keeps | with_reducible apply applyCopy_keeps | with_reducible apply showTe_keeps | with_reducible exact Keeps.refl | intro _ | split | dsimp only)

theorem startTru_keeps {s t : State} (h : Keeps s t)  : Keeps s (startTru t) := by
  unfold startTru
  repeat' (first | with_reducible assumption | with_reducible apply setF_keeps | with_reducible apply setTru_keeps | with_reducible exact Keeps.refl | intro _ | split | dsimp only)

theorem execOscillatorModelSave_keeps {s t u : State} (h : Keeps s t) (a0 : Word) (e : execOscillatorModelSave a0 t = .next u) : Keeps s u := by
  unfold execOscillatorModelSave at e
  try dsimp only at e
  repeat' split at e
  all_goals (cases e; repeat' (first | with_reducible assumption | with_reducible apply setF_keeps | with_reducible apply setTru_keeps | with_reducible exact Keeps.refl | intro _ | split | dsimp only))

theorem execOvenReady_keeps {s t u : State} (h : Keeps s t)  (e : execOvenReady  t = .next u) : Keeps s u := by
  unfold execOvenReady at e
  obtain rfl := Host.Outcome.next.inj e
  exact setB_keeps h _ _ _

theorem execTruBlkReset_keeps {s t u : State} (h : Keeps s t)  (e : execTruBlkReset t = .next u) : Keeps s u := by
  unfold execTruBlkReset at e
  try dsimp only at e
  repeat' split at e
  all_goals (cases e; repeat' (first | with_reducible assumption | with_reducible apply blkReset_keeps | with_reducible apply stopSlew_keeps | with_reducible apply setTru_keeps | with_reducible exact Keeps.refl | intro _ | split | dsimp only))

theorem dropPairRef_keeps {s t : State} (h : Keeps s t) (a0 : TruHold) : Keeps s (dropPairRef a0 t) := by
  unfold dropPairRef
  repeat' (first | with_reducible assumption | with_reducible apply reselect_keeps | with_reducible apply deselect_keeps | with_reducible apply measured_keeps | with_reducible exact Keeps.refl | intro _ | split | dsimp only)

end Sys2Proof.Machine
end

