-- ==== Sys2Proof/Laws/KeepsPair.lean ====
section
/-! SUPPORT. Sys2Proof/Laws/KeepsPair.lean: what the operations of Machine/Pair.lean keep of a state. -/
namespace Sys2Proof.Machine

theorem setPair_keeps {s t : State} (h : Keeps s t) (a0 : PairSt) : Keeps s (setPair a0 t) := by
  unfold setPair
  repeat' (first | with_reducible assumption | with_reducible exact Keeps.refl | (with_reducible refine Keeps.upd ?_ (by with_reducible rfl); first | with_reducible assumption | with_reducible exact Keeps.refl | split) | intro _ | split | dsimp only)

theorem setSync_keeps {s t : State} (h : Keeps s t) (a0 : Nat) : Keeps s (setSync a0 t) := by
  unfold setSync
  repeat' (first | with_reducible assumption | with_reducible apply setF_keeps | with_reducible exact Keeps.refl | intro _ | split | dsimp only)

theorem sendBeaconState_keeps {s t : State} (h : Keeps s t)  : Keeps s (sendBeaconState t) := by
  unfold sendBeaconState
  repeat' (first | with_reducible assumption | with_reducible apply sendMirror_keeps | with_reducible exact Keeps.refl | intro _ | split | dsimp only)

theorem startResync_keeps {s t : State} (h : Keeps s t)  : Keeps s (startResync t) := by
  unfold startResync
  repeat' (first | with_reducible assumption | with_reducible apply sendMirror_keeps | with_reducible apply setSync_keeps | with_reducible apply setF_keeps | with_reducible apply setPair_keeps | with_reducible apply Keeps.foldl | with_reducible exact Keeps.refl | intro _ | split | dsimp only)

theorem clearCopies_keeps {s t : State} (h : Keeps s t)  : Keeps s (clearCopies t) := by
  unfold clearCopies
  repeat' (first | with_reducible assumption | with_reducible apply refreshTable_keeps | with_reducible apply setF_keeps | with_reducible apply setMac_keeps | with_reducible apply Keeps.macTable | with_reducible apply Keeps.macParked | with_reducible apply Keeps.macRelays | with_reducible apply Keeps.macCache | with_reducible apply Map.wf_set | with_reducible apply Map.wf_filter | with_reducible exact Map.wf_nil | with_reducible exact Keeps.refl | (with_reducible refine Keeps.upd ?_ (by with_reducible rfl); first | with_reducible assumption | with_reducible apply refreshTable_keeps | with_reducible apply setF_keeps | with_reducible apply setMac_keeps | with_reducible apply Keeps.macTable | with_reducible apply Keeps.macParked | with_reducible apply Keeps.macRelays | with_reducible apply Keeps.macCache | with_reducible apply Map.wf_set | with_reducible apply Map.wf_filter | with_reducible exact Map.wf_nil | with_reducible exact Keeps.refl | split) | intro _ | split | dsimp only | (with_reducible refine Keeps.updTable ?_ (fun w => by simp only [State.wf, State.hostWf, State.lineWf, State.memWf, State.serviceWf, Bool.and_eq_true] at w ⊢; simp_all only [Map.wf_set, Map.wf_filter, Map.wf_mapVals, Map.wf_nil, and_self]); first | with_reducible assumption | with_reducible apply refreshTable_keeps | with_reducible apply setF_keeps | with_reducible apply setMac_keeps | with_reducible apply Keeps.macTable | with_reducible apply Keeps.macParked | with_reducible apply Keeps.macRelays | with_reducible apply Keeps.macCache | with_reducible apply Map.wf_set | with_reducible apply Map.wf_filter | with_reducible exact Map.wf_nil | with_reducible exact Keeps.refl | split))

theorem beginSync_keeps {s t : State} (h : Keeps s t)  : Keeps s (beginSync t) := by
  unfold beginSync
  repeat' (first | with_reducible assumption | with_reducible apply setSync_keeps | with_reducible apply clearCopies_keeps | with_reducible exact Keeps.refl | intro _ | split | dsimp only)

theorem pairBecomes_keeps {s t : State} (h : Keeps s t) (a0 : Nat) : Keeps s (pairBecomes a0 t) := by
  unfold pairBecomes
  repeat' (first | with_reducible assumption | with_reducible apply setB_keeps | with_reducible apply setF_keeps | with_reducible exact Keeps.refl | intro _ | split | dsimp only)

theorem becomeStandby_keeps {s t : State} (h : Keeps s t)  : Keeps s (becomeStandby t) := by
  unfold becomeStandby
  repeat' (first | with_reducible assumption | with_reducible apply endTx_keeps | with_reducible apply pairBecomes_keeps | with_reducible apply setMac_keeps | with_reducible apply Keeps.macTable | with_reducible apply Keeps.macParked | with_reducible apply Keeps.macRelays | with_reducible apply Keeps.macCache | with_reducible apply Map.wf_set | with_reducible apply Map.wf_filter | with_reducible exact Map.wf_nil | with_reducible exact Keeps.refl | (with_reducible refine Keeps.upd ?_ (by with_reducible rfl); first | with_reducible assumption | with_reducible apply endTx_keeps | with_reducible apply pairBecomes_keeps | with_reducible apply setMac_keeps | with_reducible apply Keeps.macTable | with_reducible apply Keeps.macParked | with_reducible apply Keeps.macRelays | with_reducible apply Keeps.macCache | with_reducible apply Map.wf_set | with_reducible apply Map.wf_filter | with_reducible exact Map.wf_nil | with_reducible exact Keeps.refl | split) | intro _ | split | dsimp only | (with_reducible refine Keeps.updTable ?_ (fun w => by simp only [State.wf, State.hostWf, State.lineWf, State.memWf, State.serviceWf, Bool.and_eq_true] at w ⊢; simp_all only [Map.wf_set, Map.wf_filter, Map.wf_mapVals, Map.wf_nil, and_self]); first | with_reducible assumption | with_reducible apply endTx_keeps | with_reducible apply pairBecomes_keeps | with_reducible apply setMac_keeps | with_reducible apply Keeps.macTable | with_reducible apply Keeps.macParked | with_reducible apply Keeps.macRelays | with_reducible apply Keeps.macCache | with_reducible apply Map.wf_set | with_reducible apply Map.wf_filter | with_reducible exact Map.wf_nil | with_reducible exact Keeps.refl | split))

theorem settleStandby_keeps {s t : State} (h : Keeps s t)  : Keeps s (settleStandby t) := by
  unfold settleStandby
  repeat' (first | with_reducible assumption | with_reducible apply beginSync_keeps | with_reducible apply pairBecomes_keeps | with_reducible apply setSync_keeps | with_reducible exact Keeps.refl | intro _ | split | dsimp only)

theorem heartbeatSend_keeps {s t : State} (h : Keeps s t)  : Keeps s (heartbeatSend t) := by
  unfold heartbeatSend
  repeat' (first | with_reducible assumption | with_reducible apply sendMirror_keeps | with_reducible exact Keeps.refl | intro _ | split | dsimp only)

theorem execHeartbeatSend_keeps {s t u : State} (h : Keeps s t)  (e : execHeartbeatSend t = .next u) : Keeps s u := by
  unfold execHeartbeatSend at e
  try dsimp only at e
  repeat' split at e
  all_goals (cases e; repeat' (first | with_reducible assumption | with_reducible apply heartbeatSend_keeps | with_reducible exact Keeps.refl | intro _ | split | dsimp only))

theorem followGrid_keeps {s t : State} (h : Keeps s t) (a0 : Nat) (a1 : Nat) : Keeps s (followGrid a0 a1 t) := by
  unfold followGrid
  repeat' (first | with_reducible assumption | with_reducible apply setF_keeps | with_reducible exact Keeps.refl | (with_reducible refine Keeps.upd ?_ (by with_reducible rfl); first | with_reducible assumption | with_reducible apply setF_keeps | with_reducible exact Keeps.refl | split) | intro _ | split | dsimp only)

theorem resolveRoles_keeps {s t : State} (h : Keeps s t) (a0 : Nat) : Keeps s (resolveRoles a0 t) := by
  unfold resolveRoles
  repeat' (first | with_reducible assumption | with_reducible apply beginSync_keeps | with_reducible apply becomeStandby_keeps | with_reducible exact Keeps.refl | intro _ | split | dsimp only)

theorem heartbeatRole_keeps {s t : State} (h : Keeps s t) (a0 : Nat) (a1 : Nat) (a2 : Nat) (a3 : Bool) : Keeps s (heartbeatRole a0 a1 a2 a3 t) := by
  unfold heartbeatRole
  repeat' (first | with_reducible assumption | with_reducible apply settleStandby_keeps | with_reducible apply pairBecomes_keeps | with_reducible apply resolveRoles_keeps | with_reducible apply startResync_keeps | with_reducible apply beginSync_keeps | with_reducible exact Keeps.refl | intro _ | split | dsimp only)

theorem heartbeatIn_keeps {s t : State} (h : Keeps s t) (a0 : MirrorMsg) (a1 : Nat) (a2 : Nat) (a3 : Nat) (a4 : Nat) (a5 : Nat) (a6 : Nat) : Keeps s (heartbeatIn a0 a1 a2 a3 a4 a5 a6 t) := by
  unfold heartbeatIn
  repeat' (first | with_reducible assumption | with_reducible apply setPair_keeps | with_reducible apply raise_keeps | with_reducible apply setB_keeps | with_reducible apply heartbeatRole_keeps | with_reducible apply setF_keeps | with_reducible apply followGrid_keeps | with_reducible exact Keeps.refl | intro _ | split | dsimp only)

theorem heartbeatLoss_keeps {s t : State} (h : Keeps s t)  : Keeps s (heartbeatLoss t) := by
  unfold heartbeatLoss
  repeat' (first | with_reducible assumption | with_reducible apply raise_keeps | with_reducible apply countN_keeps | with_reducible apply setB_keeps | with_reducible apply done_keeps | with_reducible apply setPair_keeps | with_reducible apply releaseAcked_keeps | with_reducible apply resumeHeld_keeps | with_reducible apply setHeldJobs_keeps | (refine resumeHeld_keeps_eq ?_ (by assumption)) | with_reducible apply Keeps.foldl | with_reducible exact Keeps.refl | intro _ | split | dsimp only)

theorem execHeartbeatLoss_keeps {s t u : State} (h : Keeps s t)  (e : execHeartbeatLoss t = .next u) : Keeps s u := by
  unfold execHeartbeatLoss at e
  try dsimp only at e
  repeat' split at e
  all_goals (cases e; repeat' (first | with_reducible assumption | with_reducible apply heartbeatLoss_keeps | with_reducible exact Keeps.refl | intro _ | split | dsimp only))

theorem applyCtx_keeps {s t : State} (h : Keeps s t) (a0 : Nat) (a1 : Nat) (a2 : List Byte) : Keeps s (applyCtx a0 a1 a2 t) := by
  unfold applyCtx
  repeat' (first | with_reducible assumption | with_reducible apply setAssoc_keeps | with_reducible exact Keeps.refl | intro _ | split | dsimp only)

theorem applyTmap_keeps {s t : State} (h : Keeps s t) (a0 : Nat) (a1 : Bool) (a2 : Nat) (a3 : List Byte) : Keeps s (applyTmap a0 a1 a2 a3 t) := by
  unfold applyTmap
  repeat' (first | with_reducible assumption | with_reducible apply putMap_keeps | with_reducible exact Keeps.refl | intro _ | split | dsimp only)

theorem applyParent_keeps {s t : State} (h : Keeps s t) (a0 : Bool) (a1 : Nat) (a2 : List Byte) : Keeps s (applyParent a0 a1 a2 t) := by
  unfold applyParent
  repeat' (first | with_reducible assumption | with_reducible apply setMac_keeps | with_reducible apply Keeps.macTable | with_reducible apply Keeps.macParked | with_reducible apply Keeps.macRelays | with_reducible apply Keeps.macCache | with_reducible apply Map.wf_set | with_reducible apply Map.wf_filter | with_reducible exact Map.wf_nil | with_reducible exact Keeps.refl | intro _ | split | dsimp only)

theorem applyReserve_keeps {s t : State} (h : Keeps s t) (a0 : Bool) (a1 : Nat) (a2 : Nat) (a3 : Nat) : Keeps s (applyReserve a0 a1 a2 a3 t) := by
  unfold applyReserve
  repeat' (first | with_reducible assumption | with_reducible apply setGroup_keeps | with_reducible apply setCtx_keeps | with_reducible exact Keeps.refl | intro _ | split | dsimp only)

theorem applyBeacons_keeps {s t : State} (h : Keeps s t) (a0 : BeaconState) : Keeps s (applyBeacons a0 t) := by
  unfold applyBeacons
  repeat' (first | with_reducible assumption | with_reducible apply setF_keeps | with_reducible apply setB_keeps | with_reducible apply setMac_keeps | with_reducible apply Keeps.macTable | with_reducible apply Keeps.macParked | with_reducible apply Keeps.macRelays | with_reducible apply Keeps.macCache | with_reducible apply Map.wf_set | with_reducible apply Map.wf_filter | with_reducible exact Map.wf_nil | with_reducible exact Keeps.refl | (with_reducible refine Keeps.upd ?_ (by with_reducible rfl); first | with_reducible assumption | with_reducible apply setF_keeps | with_reducible apply setB_keeps | with_reducible apply setMac_keeps | with_reducible apply Keeps.macTable | with_reducible apply Keeps.macParked | with_reducible apply Keeps.macRelays | with_reducible apply Keeps.macCache | with_reducible apply Map.wf_set | with_reducible apply Map.wf_filter | with_reducible exact Map.wf_nil | with_reducible exact Keeps.refl | split) | intro _ | split | dsimp only)

theorem deltaIn_keeps {s t : State} (h : Keeps s t) (a0 : Bool) : Keeps s (deltaIn a0 t) := by
  unfold deltaIn
  repeat' (first | with_reducible assumption | with_reducible apply count_keeps | with_reducible exact Keeps.refl | intro _ | split | dsimp only)

theorem syncedNow_keeps {s t : State} (h : Keeps s t)  : Keeps s (syncedNow t) := by
  unfold syncedNow
  repeat' (first | with_reducible assumption | with_reducible apply raise_keeps | with_reducible apply setSync_keeps | with_reducible exact Keeps.refl | intro _ | split | dsimp only)

theorem applyMirror_keeps {s t : State} (h : Keeps s t) (a0 : MirrorBody) : Keeps s (applyMirror a0 t) := by
  unfold applyMirror
  repeat' (first | with_reducible assumption | with_reducible apply applyCtx_keeps | with_reducible apply deltaIn_keeps | with_reducible apply setRelay_keeps | with_reducible apply applyTmap_keeps | with_reducible apply setRoute_keeps | with_reducible apply applyParent_keeps | with_reducible apply setGroup_keeps | with_reducible apply applyReserve_keeps | with_reducible apply applyBeacons_keeps | with_reducible apply setTru_keeps | with_reducible apply syncedNow_keeps | with_reducible apply setPair_keeps | with_reducible exact Keeps.refl | intro _ | split | dsimp only)

theorem grantReserves_keeps {s t : State} (h : Keeps s t)  : Keeps s (grantReserves t) := by
  unfold grantReserves
  repeat' (first | with_reducible assumption | with_reducible apply setGroup_keeps | with_reducible apply setAssoc_keeps | with_reducible apply setPair_keeps | with_reducible apply Keeps.foldl | with_reducible exact Keeps.refl | intro _ | split | dsimp only)

theorem resumeAll_keeps {s t : State} (h : Keeps s t)  : Keeps s (resumeAll t) := by
  unfold resumeAll
  repeat' (first | with_reducible assumption | with_reducible apply resumeHeld_keeps | with_reducible apply setHeldJobs_keeps | (refine resumeHeld_keeps_eq ?_ (by assumption)) | with_reducible apply Keeps.foldl | with_reducible exact Keeps.refl | intro _ | split | dsimp only)

theorem ackMirror_keeps {s t : State} (h : Keeps s t) (a0 : Nat) : Keeps s (ackMirror a0 t) := by
  unfold ackMirror
  repeat' (first | with_reducible assumption | with_reducible apply grantReserves_keeps | with_reducible apply setPair_keeps | with_reducible apply syncedNow_keeps | with_reducible apply releaseAcked_keeps | with_reducible apply resumeAll_keeps | with_reducible exact Keeps.refl | intro _ | split | dsimp only)

theorem mirrorApply_keeps {s t : State} (h : Keeps s t) (a0 : MirrorMsg) (a1 : Nat) : Keeps s (mirrorApply a0 a1 t) := by
  unfold mirrorApply
  repeat' (first | with_reducible assumption | with_reducible apply heartbeatIn_keeps | with_reducible apply ackMirror_keeps | with_reducible apply sendMirror_keeps | with_reducible apply applyMirror_keeps | with_reducible exact Keeps.refl | intro _ | split | dsimp only)

theorem applyAhead_keeps {s t : State} (h : Keeps s t) (a0 : Nat) (a1 : Nat) : Keeps s (applyAhead a0 a1 t) := by
  induction a0 generalizing t a1 with
  | zero =>
    unfold applyAhead
    repeat' (first | with_reducible assumption | with_reducible apply ih | with_reducible apply mirrorApply_keeps | with_reducible apply setPair_keeps | with_reducible exact Keeps.refl | intro _ | split | dsimp only)
  | succ _ ih =>
    unfold applyAhead
    repeat' (first | with_reducible assumption | with_reducible apply ih | with_reducible apply mirrorApply_keeps | with_reducible apply setPair_keeps | with_reducible exact Keeps.refl | intro _ | split | dsimp only)

theorem mirrorOrder_keeps {s t : State} (h : Keeps s t) (a0 : MirrorMsg) (a1 : Nat) : Keeps s (mirrorOrder a0 a1 t) := by
  unfold mirrorOrder
  repeat' (first | with_reducible assumption | with_reducible apply setPair_keeps | with_reducible apply applyAhead_keeps | with_reducible exact Keeps.refl | intro _ | split | dsimp only)

theorem mirrorIn_keeps {s t : State} (h : Keeps s t) (a0 : MLane) (a1 : Bool) (a2 : Bool) (a3 : MirrorMsg) (a4 : Nat) : Keeps s (mirrorIn a0 a1 a2 a3 a4 t) := by
  unfold mirrorIn
  repeat' (first | with_reducible assumption | with_reducible apply count_keeps | with_reducible apply mirrorOrder_keeps | with_reducible apply raise_keeps | with_reducible exact Keeps.refl | intro _ | split | dsimp only)

theorem execMirrorFrameReceived_keeps {s t u : State} (h : Keeps s t) (a0 : MLane) (a1 : Bool) (a2 : Bool) (a3 : MirrorMsg) (a4 : BitVec 64) (e : execMirrorFrameReceived a0 a1 a2 a3 a4 t = .next u) : Keeps s u := by
  unfold execMirrorFrameReceived at e
  try dsimp only at e
  repeat' split at e
  all_goals (cases e; repeat' (first | with_reducible assumption | with_reducible apply mirrorIn_keeps | with_reducible exact Keeps.refl | intro _ | split | dsimp only))

theorem seqGap_keeps {s t : State} (h : Keeps s t)  : Keeps s (seqGap t) := by
  unfold seqGap
  repeat' (first | with_reducible assumption | with_reducible apply beginSync_keeps | with_reducible apply startResync_keeps | with_reducible apply applyAhead_keeps | with_reducible apply setPair_keeps | with_reducible apply Keeps.foldl | with_reducible exact Keeps.refl | intro _ | split | dsimp only)

theorem execMirrorSeqGapExpiry_keeps {s t u : State} (h : Keeps s t)  (e : execMirrorSeqGapExpiry t = .next u) : Keeps s u := by
  unfold execMirrorSeqGapExpiry at e
  try dsimp only at e
  repeat' split at e
  all_goals (cases e; repeat' (first | with_reducible assumption | with_reducible apply seqGap_keeps | with_reducible exact Keeps.refl | intro _ | split | dsimp only))

theorem execTruStateSend_keeps {s t u : State} (h : Keeps s t)  (e : execTruStateSend t = .next u) : Keeps s u := by
  unfold execTruStateSend at e
  try dsimp only at e
  repeat' split at e
  all_goals (cases e; repeat' (first | with_reducible assumption | with_reducible apply sendMirror_keeps | with_reducible exact Keeps.refl | intro _ | split | dsimp only))

theorem closeWindow_keeps {s t : State} (h : Keeps s t)  : Keeps s (closeWindow t) := by
  unfold closeWindow
  repeat' (first | with_reducible assumption | with_reducible apply setPair_keeps | with_reducible apply setB_keeps | with_reducible apply setSync_keeps | with_reducible apply raise_keeps | with_reducible exact Keeps.refl | intro _ | split | dsimp only)

theorem warnCounter_keeps {s t : State} (h : Keeps s t) (a0 : GroupSlot) (a1 : GroupSlot) : Keeps s (warnCounter a0 a1 t) := by
  unfold warnCounter
  repeat' (first | with_reducible assumption | with_reducible apply raise_keeps | with_reducible exact Keeps.refl | intro _ | split | dsimp only)

theorem stepRecord_keeps {s t : State} (h : Keeps s t) (a0 : Nat) : Keeps s (stepRecord a0 t) := by
  unfold stepRecord
  repeat' (first | with_reducible assumption | with_reducible apply setAssoc_keeps | with_reducible apply warnCounter_keeps | with_reducible apply startEnd_keeps | with_reducible exact Keeps.refl | intro _ | split | dsimp only)

theorem stepGroup_keeps {s t : State} (h : Keeps s t) (a0 : Nat) : Keeps s (stepGroup a0 t) := by
  unfold stepGroup
  repeat' (first | with_reducible assumption | with_reducible apply warnCounter_keeps | with_reducible apply setGroup_keeps | with_reducible exact Keeps.refl | intro _ | split | dsimp only)

theorem takeoverKeys_keeps {s t : State} (h : Keeps s t)  : Keeps s (takeoverKeys t) := by
  unfold takeoverKeys
  repeat' (first | with_reducible assumption | with_reducible apply rotateBkey_keeps | with_reducible apply randBytes_keeps | with_reducible apply setMac_keeps | with_reducible apply sendBkey_keeps | (refine randBytes_keeps_eq ?_ (by assumption)) | with_reducible apply Keeps.foldl | with_reducible apply Keeps.macTable | with_reducible apply Keeps.macParked | with_reducible apply Keeps.macRelays | with_reducible apply Keeps.macCache | with_reducible apply Map.wf_set | with_reducible apply Map.wf_filter | with_reducible exact Map.wf_nil | with_reducible exact Keeps.refl | intro _ | split | dsimp only)

theorem takeOver_keeps {s t : State} (h : Keeps s t) (a0 : TruHold) : Keeps s (takeOver a0 t) := by
  unfold takeOver
  repeat' (first | with_reducible assumption | with_reducible apply setSync_keeps | with_reducible apply setF_keeps | with_reducible apply pairBecomes_keeps | with_reducible apply stepRecord_keeps | with_reducible apply takeoverKeys_keeps | with_reducible apply stepGroup_keeps | with_reducible apply campaignTakenOver_keeps | with_reducible apply dropPairRef_keeps | with_reducible apply logPage_keeps | with_reducible apply raise_keeps | with_reducible apply count_keeps | with_reducible apply Keeps.foldl | with_reducible exact Keeps.refl | intro _ | split | dsimp only)

theorem execTakeover_keeps {s t u : State} (h : Keeps s t) (a0 : TruHold) (e : execTakeover a0 t = .next u) : Keeps s u := by
  unfold execTakeover at e
  try dsimp only at e
  repeat' split at e
  all_goals (cases e; repeat' (first | with_reducible assumption | with_reducible apply takeOver_keeps | with_reducible exact Keeps.refl | intro _ | split | dsimp only))

theorem handoverCheck_keeps {s t : State} (h : Keeps s t)  : Keeps s (handoverCheck t) := by
  unfold handoverCheck
  repeat' (first | with_reducible assumption | with_reducible apply sendMirror_keeps | with_reducible apply setPhase_keeps | with_reducible apply setPair_keeps | with_reducible exact Keeps.refl | intro _ | split | dsimp only)

theorem runHandover_keeps {s t : State} (h : Keeps s t) (a0 : Outstanding) : Keeps s (runHandover a0 t) := by
  unfold runHandover
  repeat' (first | with_reducible assumption | with_reducible apply done_keeps | with_reducible apply handoverCheck_keeps | with_reducible apply setPair_keeps | with_reducible exact Keeps.refl | intro _ | split | dsimp only)

theorem execHandover_keeps {s t u : State} (h : Keeps s t) (a0 : CmdSrc) (e : execHandover a0 t = .next u) : Keeps s u := by
  unfold execHandover at e
  try dsimp only at e
  repeat' split at e
  all_goals (cases e; repeat' (first | with_reducible assumption | with_reducible apply issue_keeps | with_reducible apply runHandover_keeps | with_reducible exact Keeps.refl | intro _ | split | dsimp only))

theorem execHandoverDrainTimeout_keeps {s t u : State} (h : Keeps s t)  (e : execHandoverDrainTimeout t = .next u) : Keeps s u := by
  unfold execHandoverDrainTimeout at e
  try dsimp only at e
  repeat' split at e
  all_goals (cases e; repeat' (first | with_reducible assumption | with_reducible apply done_keeps | with_reducible exact Keeps.refl | intro _ | split | dsimp only))

theorem roleSwap_keeps {s t : State} (h : Keeps s t) (a0 : TruHold) : Keeps s (roleSwap a0 t) := by
  unfold roleSwap
  repeat' (first | with_reducible assumption | with_reducible apply setPair_keeps | with_reducible apply raise_keeps | with_reducible apply setF_keeps | with_reducible apply dropPairRef_keeps | with_reducible apply pairBecomes_keeps | with_reducible apply setSync_keeps | with_reducible apply becomeStandby_keeps | with_reducible apply done_keeps | with_reducible exact Keeps.refl | intro _ | split | dsimp only)

theorem runResync_keeps {s t : State} (h : Keeps s t) (a0 : Outstanding) : Keeps s (runResync a0 t) := by
  unfold runResync
  repeat' (first | with_reducible assumption | with_reducible apply done_keeps | with_reducible apply startResync_keeps | with_reducible exact Keeps.refl | intro _ | split | dsimp only)

theorem execResync_keeps {s t u : State} (h : Keeps s t) (a0 : CmdSrc) (e : execResync a0 t = .next u) : Keeps s u := by
  unfold execResync at e
  try dsimp only at e
  repeat' split at e
  all_goals (cases e; repeat' (first | with_reducible assumption | with_reducible apply issue_keeps | with_reducible apply runResync_keeps | with_reducible exact Keeps.refl | intro _ | split | dsimp only))

theorem abortHandover_keeps {s t : State} (h : Keeps s t)  : Keeps s (abortHandover t) := by
  unfold abortHandover
  repeat' (first | with_reducible assumption | with_reducible apply done_keeps | with_reducible exact Keeps.refl | intro _ | split | dsimp only)

theorem execDlCompletion_keeps {s t u : State} (h : Keeps s t)  (e : execDlCompletion t = .next u) : Keeps s u := by
  unfold execDlCompletion at e
  try dsimp only at e
  repeat' split at e
  all_goals (cases e; repeat' (first | with_reducible assumption | with_reducible apply handoverCheck_keeps | with_reducible apply ringResetDone_keeps | with_reducible apply deliverNext_keeps | with_reducible exact Keeps.refl | intro _ | split | dsimp only))

theorem execPairBlkReset_keeps {s t u : State} (h : Keeps s t)  (e : execPairBlkReset t = .next u) : Keeps s u := by
  unfold execPairBlkReset at e
  try dsimp only at e
  repeat' split at e
  all_goals (cases e; repeat' (first | with_reducible assumption | with_reducible apply blkReset_keeps | with_reducible exact Keeps.refl | intro _ | split | dsimp only))

end Sys2Proof.Machine
end

