-- ==== Sys2Proof/Laws/KeepsSen.lean ====
section
/-! SUPPORT. Sys2Proof/Laws/KeepsSen.lean: what the operations of Machine/Sen.lean keep of a state. -/
namespace Sys2Proof.Machine

theorem setChan_keeps {s t : State} (h : Keeps s t) (a0 : Nat) (a1 : ChanSt) : Keeps s (setChan a0 a1 t) := by
  unfold setChan
  repeat' (first | with_reducible assumption | with_reducible exact Keeps.refl | (with_reducible refine Keeps.upd ?_ (by with_reducible rfl); first | with_reducible assumption | with_reducible exact Keeps.refl | split) | intro _ | split | dsimp only | (with_reducible refine Keeps.updTable ?_ (fun w => by simp only [State.wf, State.hostWf, State.lineWf, State.memWf, State.serviceWf, Bool.and_eq_true] at w ⊢; simp_all only [Map.wf_set, Map.wf_filter, Map.wf_mapVals, Map.wf_nil, and_self]); first | with_reducible assumption | with_reducible exact Keeps.refl | split))

theorem refreshSi_keeps {s t : State} (h : Keeps s t) (a0 : Nat) : Keeps s (refreshSi a0 t) := by
  unfold refreshSi
  repeat' (first | with_reducible assumption | with_reducible apply setFault_keeps | with_reducible apply setF_keeps | with_reducible apply raise_keeps | with_reducible exact Keeps.refl | intro _ | split | dsimp only)

theorem setStale_keeps {s t : State} (h : Keeps s t) (a0 : Nat) : Keeps s (setStale a0 t) := by
  unfold setStale
  repeat' (first | with_reducible assumption | with_reducible apply refreshSi_keeps | with_reducible apply raise_keeps | with_reducible apply setI_keeps | with_reducible exact Keeps.refl | intro _ | split | dsimp only)

theorem senAlarm_keeps {s t : State} (h : Keeps s t) (a0 : Nat) (a1 : Int) : Keeps s (senAlarm a0 a1 t) := by
  unfold senAlarm
  repeat' (first | with_reducible assumption | with_reducible apply raise_keeps | with_reducible apply setChan_keeps | with_reducible exact Keeps.refl | intro _ | split | dsimp only)

theorem senStat_keeps {s t : State} (h : Keeps s t) (a0 : Nat) (a1 : Bool) (a2 : Nat) : Keeps s (senStat a0 a1 a2 t) := by
  unfold senStat
  repeat' (first | with_reducible assumption | with_reducible apply setI_keeps | with_reducible apply refreshSi_keeps | with_reducible apply raise_keeps | with_reducible exact Keeps.refl | intro _ | split | dsimp only)

theorem showTemp_keeps {s t : State} (h : Keeps s t) (a0 : Nat) (a1 : Option Int) : Keeps s (showTemp a0 a1 t) := by
  unfold showTemp
  repeat' (first | with_reducible assumption | with_reducible apply senAlarm_keeps | with_reducible apply setI_keeps | with_reducible apply freeWord_keeps | (refine freeWord_keeps_eq ?_ (by assumption)) | with_reducible exact Keeps.refl | intro _ | split | dsimp only)

theorem sxResult_keeps {s t : State} (h : Keeps s t) (a0 : Nat) (a1 : Int) (a2 : Int) : Keeps s (sxResult a0 a1 a2 t) := by
  unfold sxResult
  repeat' (first | with_reducible assumption | with_reducible apply setI_keeps | with_reducible apply senStat_keeps | with_reducible apply showTemp_keeps | with_reducible apply setChan_keeps | with_reducible exact Keeps.refl | intro _ | split | dsimp only)

theorem siResult_keeps {s t : State} (h : Keeps s t) (a0 : Nat) (a1 : Int) (a2 : Int) (a3 : SensorOut) : Keeps s (siResult a0 a1 a2 a3 t) := by
  unfold siResult
  repeat' (first | with_reducible assumption | with_reducible apply setI_keeps | with_reducible apply senStat_keeps | with_reducible exact Keeps.refl | intro _ | split | dsimp only)

theorem restartCycle_keeps {s t : State} (h : Keeps s t) (a0 : Nat) : Keeps s (restartCycle a0 t) := by
  unfold restartCycle
  repeat' (first | with_reducible assumption | with_reducible apply setChan_keeps | with_reducible exact Keeps.refl | intro _ | split | dsimp only)

theorem endPhase_keeps {s t : State} (h : Keeps s t) (a0 : Nat) (a1 : SensorOut) : Keeps s (endPhase a0 a1 t) := by
  unfold endPhase
  repeat' (first | with_reducible assumption | with_reducible apply setChan_keeps | with_reducible apply siResult_keeps | with_reducible apply sxResult_keeps | with_reducible exact Keeps.refl | intro _ | split | dsimp only)

theorem outputBoundary_keeps {s t : State} (h : Keeps s t) (a0 : Nat) (a1 : SensorOut) : Keeps s (outputBoundary a0 a1 t) := by
  unfold outputBoundary
  repeat' (first | with_reducible assumption | with_reducible apply restartCycle_keeps | with_reducible apply setChan_keeps | with_reducible apply endPhase_keeps | with_reducible exact Keeps.refl | intro _ | split | dsimp only)

theorem execSensorOutputBoundary_keeps {s t u : State} (h : Keeps s t) (a0 : Chan) (a1 : SensorOut) (e : execSensorOutputBoundary a0 a1 t = .next u) : Keeps s u := by
  unfold execSensorOutputBoundary at e
  try dsimp only at e
  repeat' split at e
  all_goals (cases e; repeat' (first | with_reducible assumption | with_reducible apply outputBoundary_keeps | with_reducible exact Keeps.refl | intro _ | split | dsimp only))

theorem execSensorStale_keeps {s t u : State} (h : Keeps s t) (a0 : Chan) (e : execSensorStale a0 t = .next u) : Keeps s u := by
  unfold execSensorStale at e
  try dsimp only at e
  repeat' split at e
  all_goals (cases e; repeat' (first | with_reducible assumption | with_reducible apply setStale_keeps | with_reducible exact Keeps.refl | intro _ | split | dsimp only))

theorem execSenTempRead_keeps {s t u : State} (h : Keeps s t) (a0 : Chan) (e : execSenTempRead a0 t = .next u) : Keeps s u := by
  unfold execSenTempRead at e
  try dsimp only at e
  repeat' split at e
  all_goals (cases e; repeat' (first | with_reducible assumption | with_reducible apply returnWord_keeps | with_reducible apply setChan_keeps | with_reducible exact Keeps.refl | intro _ | split | dsimp only))

theorem senCfgWritten_keeps {s t : State} (h : Keeps s t) (a0 : Nat) : Keeps s (senCfgWritten a0 t) := by
  unfold senCfgWritten
  repeat' (first | with_reducible assumption | with_reducible apply setStale_keeps | with_reducible apply setChan_keeps | with_reducible exact Keeps.refl | intro _ | split | dsimp only)

theorem runSelfCal_keeps {s t : State} (h : Keeps s t) (a0 : Outstanding) : Keeps s (runSelfCal a0 t) := by
  unfold runSelfCal
  repeat' (first | with_reducible assumption | with_reducible apply done_keeps | with_reducible apply setChan_keeps | with_reducible exact Keeps.refl | intro _ | split | dsimp only)

theorem execSelfCal_keeps {s t u : State} (h : Keeps s t) (a0 : CmdSrc) (e : execSelfCal a0 t = .next u) : Keeps s u := by
  unfold execSelfCal at e
  try dsimp only at e
  repeat' split at e
  all_goals (cases e; repeat' (first | with_reducible assumption | with_reducible apply issue_keeps | with_reducible apply runSelfCal_keeps | with_reducible exact Keeps.refl | intro _ | split | dsimp only))

theorem endSelfCal_keeps {s t : State} (h : Keeps s t) (a0 : Nat) (a1 : Nat) : Keeps s (endSelfCal a0 a1 t) := by
  unfold endSelfCal
  repeat' (first | with_reducible assumption | with_reducible apply done_keeps | with_reducible apply setChan_keeps | with_reducible exact Keeps.refl | intro _ | split | dsimp only)

theorem finishSelfCal_keeps {s t : State} (h : Keeps s t) (a0 : Outstanding) (a1 : Option (Word × Word)) : Keeps s (finishSelfCal a0 a1 t) := by
  unfold finishSelfCal
  repeat' (first | with_reducible assumption | with_reducible apply endSelfCal_keeps | with_reducible apply setChan_keeps | with_reducible exact Keeps.refl | intro _ | split | dsimp only)

theorem abortSelfCal_keeps {s t : State} (h : Keeps s t) (a0 : Outstanding) : Keeps s (abortSelfCal a0 t) := by
  unfold abortSelfCal
  repeat' (first | with_reducible assumption | with_reducible apply endSelfCal_keeps | with_reducible exact Keeps.refl | intro _ | split | dsimp only)

theorem stopSelfCal_keeps {s t : State} (h : Keeps s t)  : Keeps s (stopSelfCal t) := by
  unfold stopSelfCal
  repeat' (first | with_reducible assumption | with_reducible apply endSelfCal_keeps | with_reducible exact Keeps.refl | intro _ | split | dsimp only)

theorem execSenBlkReset_keeps {s t u : State} (h : Keeps s t)  (e : execSenBlkReset t = .next u) : Keeps s u := by
  unfold execSenBlkReset at e
  try dsimp only at e
  repeat' split at e
  all_goals (cases e; repeat' (first | with_reducible assumption | with_reducible apply blkReset_keeps | with_reducible apply senCfgWritten_keeps | with_reducible apply stopSelfCal_keeps | with_reducible apply Keeps.foldl | with_reducible exact Keeps.refl | intro _ | split | dsimp only))

end Sys2Proof.Machine
end

