-- ==== Sys2Proof/Laws/KeepsSaf.lean ====
section
/-! SUPPORT. Sys2Proof/Laws/KeepsSaf.lean: what the operations of Machine/Saf.lean keep of a state. -/
namespace Sys2Proof.Machine

theorem monitorKill_keeps {s t : State} (h : Keeps s t) (a0 : Nat) (a1 : Port) : Keeps s (monitorKill a0 a1 t) := by
  unfold monitorKill
  repeat' (first | with_reducible assumption | with_reducible apply kill_keeps | with_reducible exact Keeps.refl | intro _ | split | dsimp only)

theorem execBandEdgeKill_keeps {s t u : State} (h : Keeps s t) (a0 : Port) (e : execBandEdgeKill a0 t = .next u) : Keeps s u := by
  unfold execBandEdgeKill at e
  try dsimp only at e
  repeat' split at e
  all_goals (cases e; repeat' (first | with_reducible assumption | with_reducible apply monitorKill_keeps | with_reducible exact Keeps.refl | intro _ | split | dsimp only))

theorem execLevelKill_keeps {s t u : State} (h : Keeps s t) (a0 : Port) (e : execLevelKill a0 t = .next u) : Keeps s u := by
  unfold execLevelKill at e
  try dsimp only at e
  repeat' split at e
  all_goals (cases e; repeat' (first | with_reducible assumption | with_reducible apply monitorKill_keeps | with_reducible exact Keeps.refl | intro _ | split | dsimp only))

theorem execStuckKill_keeps {s t u : State} (h : Keeps s t) (a0 : Port) (e : execStuckKill a0 t = .next u) : Keeps s u := by
  unfold execStuckKill at e
  try dsimp only at e
  repeat' split at e
  all_goals (cases e; repeat' (first | with_reducible assumption | with_reducible apply monitorKill_keeps | with_reducible exact Keeps.refl | intro _ | split | dsimp only))

theorem execTapKill_keeps {s t u : State} (h : Keeps s t) (a0 : Port) (e : execTapKill a0 t = .next u) : Keeps s u := by
  unfold execTapKill at e
  try dsimp only at e
  repeat' split at e
  all_goals (cases e; repeat' (first | with_reducible assumption | with_reducible apply kill_keeps | with_reducible apply diagReport_keeps | with_reducible exact Keeps.refl | intro _ | split | dsimp only))

theorem execSelfKill_keeps {s t u : State} (h : Keeps s t)  (e : execSelfKill t = .next u) : Keeps s u := by
  unfold execSelfKill at e
  try dsimp only at e
  repeat' split at e
  all_goals (cases e; repeat' (first | with_reducible assumption | with_reducible apply kill_keeps | with_reducible apply diagReport_keeps | with_reducible exact Keeps.refl | intro _ | split | dsimp only))

theorem execKillnFall_keeps {s t u : State} (h : Keeps s t)  (e : execKillnFall t = .next u) : Keeps s u := by
  unfold execKillnFall at e
  try dsimp only at e
  repeat' split at e
  all_goals (cases e; repeat' (first | with_reducible assumption | with_reducible apply kill_keeps | with_reducible apply diagReport_keeps | with_reducible apply setB_keeps | with_reducible exact Keeps.refl | (with_reducible refine Keeps.upd ?_ (by with_reducible rfl); first | with_reducible assumption | with_reducible apply kill_keeps | with_reducible apply diagReport_keeps | with_reducible apply setB_keeps | with_reducible exact Keeps.refl | split) | intro _ | split | dsimp only))

theorem execKillnRise_keeps {s t u : State} (h : Keeps s t)  (e : execKillnRise t = .next u) : Keeps s u := by
  unfold execKillnRise at e
  try dsimp only at e
  repeat' split at e
  all_goals (cases e; repeat' (first | with_reducible assumption | with_reducible apply setB_keeps | with_reducible exact Keeps.refl | (with_reducible refine Keeps.upd ?_ (by with_reducible rfl); first | with_reducible assumption | with_reducible apply setB_keeps | with_reducible exact Keeps.refl | split) | intro _ | split | dsimp only))

theorem execKillnAutoRelease_keeps {s t u : State} (h : Keeps s t)  (e : execKillnAutoRelease t = .next u) : Keeps s u := by
  unfold execKillnAutoRelease at e
  try dsimp only at e
  repeat' split at e
  all_goals (cases e; repeat' (first | with_reducible assumption | with_reducible apply endCause_keeps | with_reducible exact Keeps.refl | intro _ | split | dsimp only))

theorem showBase_keeps {s t : State} (h : Keeps s t) (a0 : BitVec 16) : Keeps s (showBase a0 t) := by
  unfold showBase
  repeat' (first | with_reducible assumption | with_reducible apply setF_keeps | with_reducible exact Keeps.refl | intro _ | split | dsimp only)

theorem execBaseplateOverTemp_keeps {s t u : State} (h : Keeps s t) (a0 : BitVec 16) (e : execBaseplateOverTemp a0 t = .next u) : Keeps s u := by
  unfold execBaseplateOverTemp at e
  try dsimp only at e
  repeat' split at e
  all_goals (cases e; repeat' (first | with_reducible assumption | with_reducible apply logPage_keeps | with_reducible apply raise_keeps | with_reducible apply showBase_keeps | with_reducible exact Keeps.refl | intro _ | split | dsimp only))

theorem execTempKill_keeps {s t u : State} (h : Keeps s t) (a0 : BitVec 16) (e : execTempKill a0 t = .next u) : Keeps s u := by
  unfold execTempKill at e
  try dsimp only at e
  repeat' split at e
  all_goals (cases e; repeat' (first | with_reducible assumption | with_reducible apply kill_keeps | with_reducible apply raise_keeps | with_reducible apply showBase_keeps | with_reducible exact Keeps.refl | intro _ | split | dsimp only))

theorem execTempKillRelease_keeps {s t u : State} (h : Keeps s t)  (e : execTempKillRelease t = .next u) : Keeps s u := by
  unfold execTempKillRelease at e
  try dsimp only at e
  repeat' split at e
  all_goals (cases e; repeat' (first | with_reducible assumption | with_reducible apply endCause_keeps | with_reducible exact Keeps.refl | intro _ | split | dsimp only))

theorem showTrip_keeps {s t : State} (h : Keeps s t)  : Keeps s (showTrip t) := by
  unfold showTrip
  repeat' (first | with_reducible assumption | with_reducible apply setB_keeps | with_reducible exact Keeps.refl | intro _ | split | dsimp only)

theorem stopBank_keeps {s t : State} (h : Keeps s t) (a0 : Nat) : Keeps s (stopBank a0 t) := by
  unfold stopBank
  repeat' (first | with_reducible assumption | with_reducible apply stopPort_keeps | with_reducible apply Keeps.foldl | with_reducible exact Keeps.refl | intro _ | split | dsimp only)

theorem tripBit_keeps {s t : State} (h : Keeps s t) (a0 : Field) (a1 : Nat) (a2 : Bool) : Keeps s (tripBit a0 a1 a2 t) := by
  unfold tripBit
  repeat' (first | with_reducible assumption | with_reducible apply showTrip_keeps | with_reducible apply setF_keeps | with_reducible exact Keeps.refl | intro _ | split | dsimp only)

theorem tripBank_keeps {s t : State} (h : Keeps s t) (a0 : Nat) (a1 : Bool) : Keeps s (tripBank a0 a1 t) := by
  unfold tripBank
  repeat' (first | with_reducible assumption | with_reducible apply tripBit_keeps | with_reducible apply diagReport_keeps | with_reducible apply stopBank_keeps | with_reducible apply raise_keeps | with_reducible apply count_keeps | with_reducible exact Keeps.refl | intro _ | split | dsimp only)

theorem execHotSpotTrip_keeps {s t u : State} (h : Keeps s t) (a0 : Fin 4) (a1 : Bool) (e : execHotSpotTrip a0 a1 t = .next u) : Keeps s u := by
  unfold execHotSpotTrip at e
  try dsimp only at e
  repeat' split at e
  all_goals (cases e; repeat' (first | with_reducible assumption | with_reducible apply tripBank_keeps | with_reducible exact Keeps.refl | intro _ | split | dsimp only))

theorem execSiWarn_keeps {s t u : State} (h : Keeps s t) (a0 : Fin 4) (e : execSiWarn a0 t = .next u) : Keeps s u := by
  unfold execSiWarn at e
  try dsimp only at e
  repeat' split at e
  all_goals (cases e; repeat' (first | with_reducible assumption | with_reducible apply logPage_keeps | with_reducible apply raise_keeps | with_reducible exact Keeps.refl | intro _ | split | dsimp only))

theorem execTripLift_keeps {s t u : State} (h : Keeps s t) (a0 : Fin 4) (a1 : Bool) (e : execTripLift a0 a1 t = .next u) : Keeps s u := by
  unfold execTripLift at e
  try dsimp only at e
  repeat' split at e
  all_goals (cases e; repeat' (first | with_reducible assumption | with_reducible apply tripBit_keeps | with_reducible exact Keeps.refl | intro _ | split | dsimp only))

theorem runClearKill_keeps {s t : State} (h : Keeps s t) (a0 : Nat) (a1 : Outstanding) : Keeps s (runClearKill a0 a1 t) := by
  unfold runClearKill
  repeat' (first | with_reducible assumption | with_reducible apply complete_keeps | with_reducible apply done_keeps | with_reducible apply endCauses_keeps | with_reducible exact Keeps.refl | intro _ | split | dsimp only)

theorem execClearKill_keeps {s t u : State} (h : Keeps s t) (a0 : CmdSrc) (a1 : BitVec 5) (e : execClearKill a0 a1 t = .next u) : Keeps s u := by
  unfold execClearKill at e
  try dsimp only at e
  repeat' split at e
  all_goals (cases e; repeat' (first | with_reducible assumption | with_reducible apply issue_keeps | with_reducible apply runClearKill_keeps | with_reducible exact Keeps.refl | intro _ | split | dsimp only))

theorem runKillTest_keeps {s t : State} (h : Keeps s t) (a0 : Outstanding) : Keeps s (runKillTest a0 t) := by
  unfold runKillTest
  repeat' (first | with_reducible assumption | with_reducible apply done_keeps | with_reducible apply complete_keeps | with_reducible apply endCause_keeps | with_reducible exact Keeps.refl | intro _ | split | dsimp only)

theorem execKillTest_keeps {s t u : State} (h : Keeps s t) (a0 : CmdSrc) (e : execKillTest a0 t = .next u) : Keeps s u := by
  unfold execKillTest at e
  try dsimp only at e
  repeat' split at e
  all_goals (cases e; repeat' (first | with_reducible assumption | with_reducible apply issue_keeps | with_reducible apply runKillTest_keeps | with_reducible exact Keeps.refl | intro _ | split | dsimp only))

theorem finishKillTest_keeps {s t : State} (h : Keeps s t) (a0 : Option Nat) : Keeps s (finishKillTest a0 t) := by
  unfold finishKillTest
  repeat' (first | with_reducible assumption | with_reducible apply endCause_keeps | with_reducible apply kill_keeps | with_reducible apply complete_keeps | with_reducible apply Keeps.foldl | with_reducible exact Keeps.refl | intro _ | split | dsimp only)

theorem abortKillTest_keeps {s t : State} (h : Keeps s t)  : Keeps s (abortKillTest t) := by
  unfold abortKillTest
  repeat' (first | with_reducible assumption | with_reducible apply done_keeps | with_reducible apply kill_keeps | with_reducible exact Keeps.refl | intro _ | split | dsimp only)

end Sys2Proof.Machine
end

