-- ==== Sys2Proof/Laws/KeepsSer.lean ====
section
/-! SUPPORT. Sys2Proof/Laws/KeepsSer.lean: what the operations of Machine/Ser.lean keep of a state. -/
namespace Sys2Proof.Machine

theorem setSerial_keeps {s t : State} (h : Keeps s t) (a0 : Nat) (a1 : SerSt) : Keeps s (setSerial a0 a1 t) := by
  unfold setSerial
  repeat' (first | with_reducible assumption | with_reducible exact Keeps.refl | (with_reducible refine Keeps.upd ?_ (by with_reducible rfl); first | with_reducible assumption | with_reducible exact Keeps.refl | split) | intro _ | split | dsimp only | (with_reducible refine Keeps.updTable ?_ (fun w => by simp only [State.wf, State.hostWf, State.lineWf, State.memWf, State.serviceWf, Bool.and_eq_true] at w ⊢; simp_all only [Map.wf_set, Map.wf_filter, Map.wf_mapVals, Map.wf_nil, and_self]); first | with_reducible assumption | with_reducible exact Keeps.refl | split))

theorem settleOwner_keeps {s t : State} (h : Keeps s t)  : Keeps s (settleOwner t) := by
  unfold settleOwner
  repeat' (first | with_reducible assumption | with_reducible apply setB_keeps | with_reducible exact Keeps.refl | intro _ | split | dsimp only)

theorem deactivateCard_keeps {s t : State} (h : Keeps s t) (a0 : Serial) : Keeps s (deactivateCard a0 t) := by
  unfold deactivateCard
  repeat' (first | with_reducible assumption | with_reducible apply setB_keeps | with_reducible apply emit_keeps | with_reducible apply setSerial_keeps | with_reducible exact Keeps.refl | intro _ | split | dsimp only)

theorem cardError_keeps {s t : State} (h : Keeps s t) (a0 : Serial) : Keeps s (cardError a0 t) := by
  unfold cardError
  repeat' (first | with_reducible assumption | with_reducible apply done_keeps | with_reducible apply deactivateCard_keeps | with_reducible exact Keeps.refl | intro _ | split | dsimp only)

theorem startCard_keeps {s t : State} (h : Keeps s t) (a0 : Serial) : Keeps s (startCard a0 t) := by
  unfold startCard
  repeat' (first | with_reducible assumption | with_reducible apply setB_keeps | with_reducible apply emit_keeps | with_reducible apply setSerial_keeps | with_reducible exact Keeps.refl | intro _ | split | dsimp only)

theorem cardCharError_keeps {s t : State} (h : Keeps s t) (a0 : Serial) : Keeps s (cardCharError a0 t) := by
  unfold cardCharError
  repeat' (first | with_reducible assumption | with_reducible apply setSerial_keeps | with_reducible apply cardError_keeps | with_reducible exact Keeps.refl | intro _ | split | dsimp only)

theorem cardCharGood_keeps {s t : State} (h : Keeps s t) (a0 : Serial) : Keeps s (cardCharGood a0 t) := by
  unfold cardCharGood
  repeat' (first | with_reducible assumption | with_reducible apply setSerial_keeps | with_reducible exact Keeps.refl | intro _ | split | dsimp only)

theorem sendCard_keeps {s t : State} (h : Keeps s t) (a0 : Serial) (a1 : CardPhase) (a2 : Nat) (a3 : List Byte) : Keeps s (sendCard a0 a1 a2 a3 t) := by
  unfold sendCard
  repeat' (first | with_reducible assumption | with_reducible apply emit_keeps | with_reducible apply setSerial_keeps | with_reducible exact Keeps.refl | intro _ | split | dsimp only)

theorem cardAtr_keeps {s t : State} (h : Keeps s t) (a0 : Serial) (a1 : Option Byte) : Keeps s (cardAtr a0 a1 t) := by
  unfold cardAtr
  repeat' (first | with_reducible assumption | with_reducible apply sendCard_keeps | with_reducible apply cardError_keeps | with_reducible exact Keeps.refl | intro _ | split | dsimp only)

theorem execCardAtr_keeps {s t u : State} (h : Keeps s t) (a0 : Serial) (a1 : Option Byte) (e : execCardAtr a0 a1 t = .next u) : Keeps s u := by
  unfold execCardAtr at e
  try dsimp only at e
  repeat' split at e
  all_goals (cases e; repeat' (first | with_reducible assumption | with_reducible apply cardAtr_keeps | with_reducible exact Keeps.refl | intro _ | split | dsimp only))

theorem execCardWwtExpiry_keeps {s t u : State} (h : Keeps s t) (a0 : Serial) (e : execCardWwtExpiry a0 t = .next u) : Keeps s u := by
  unfold execCardWwtExpiry at e
  try dsimp only at e
  repeat' split at e
  all_goals (cases e; repeat' (first | with_reducible assumption | with_reducible apply cardError_keeps | with_reducible exact Keeps.refl | intro _ | split | dsimp only))

theorem execSignTimeout_keeps {s t u : State} (h : Keeps s t) (a0 : Serial) (e : execSignTimeout a0 t = .next u) : Keeps s u := by
  unfold execSignTimeout at e
  try dsimp only at e
  repeat' split at e
  all_goals (cases e; repeat' (first | with_reducible assumption | with_reducible apply cardError_keeps | with_reducible exact Keeps.refl | intro _ | split | dsimp only))

theorem execCardPresenceChange_keeps {s t u : State} (h : Keeps s t) (a0 : Serial) (a1 : Bool) (e : execCardPresenceChange a0 a1 t = .next u) : Keeps s u := by
  unfold execCardPresenceChange at e
  try dsimp only at e
  repeat' split at e
  all_goals (cases e; repeat' (first | with_reducible assumption | with_reducible apply raise_keeps | with_reducible apply setB_keeps | with_reducible apply cardError_keeps | with_reducible exact Keeps.refl | intro _ | split | dsimp only))

theorem storeChar_keeps {s t : State} (h : Keeps s t) (a0 : Serial) (a1 : RxTags) (a2 : Byte) : Keeps s (storeChar a0 a1 a2 t) := by
  unfold storeChar
  repeat' (first | with_reducible assumption | with_reducible apply raise_keeps | with_reducible apply count_keeps | with_reducible apply setB_keeps | with_reducible apply setReg_keeps | with_reducible exact Keeps.refl | intro _ | split | dsimp only)

theorem setFrameRx_keeps {s t : State} (h : Keeps s t) (a0 : Serial) (a1 : Option FrameRx) : Keeps s (setFrameRx a0 a1 t) := by
  unfold setFrameRx
  repeat' (first | with_reducible assumption | with_reducible apply setSerial_keeps | with_reducible exact Keeps.refl | intro _ | split | dsimp only)

theorem storeHeld_keeps {s t : State} (h : Keeps s t) (a0 : Serial) (a1 : FrameRx) (a2 : Bool) : Keeps s (storeHeld a0 a1 a2 t) := by
  unfold storeHeld
  repeat' (first | with_reducible assumption | with_reducible apply storeChar_keeps | with_reducible exact Keeps.refl | intro _ | split | dsimp only)

theorem framedChar_keeps {s t : State} (h : Keeps s t) (a0 : Serial) (a1 : Byte) (a2 : Bool) (a3 : Bool) : Keeps s (framedChar a0 a1 a2 a3 t) := by
  unfold framedChar
  repeat' (first | with_reducible assumption | with_reducible apply setFrameRx_keeps | with_reducible apply storeHeld_keeps | with_reducible exact Keeps.refl | intro _ | split | dsimp only)

theorem receiveChar_keeps {s t : State} (h : Keeps s t) (a0 : Serial) (a1 : SerChar) : Keeps s (receiveChar a0 a1 t) := by
  unfold receiveChar
  repeat' (first | with_reducible assumption | with_reducible apply cardCharError_keeps | with_reducible apply storeChar_keeps | with_reducible apply cardCharGood_keeps | with_reducible apply setB_keeps | with_reducible apply framedChar_keeps | with_reducible exact Keeps.refl | intro _ | split | dsimp only)

theorem execSerCharacterReceived_keeps {s t u : State} (h : Keeps s t) (a0 : Serial) (a1 : SerChar) (e : execSerCharacterReceived a0 a1 t = .next u) : Keeps s u := by
  unfold execSerCharacterReceived at e
  try dsimp only at e
  repeat' split at e
  all_goals (cases e; repeat' (first | with_reducible assumption | with_reducible apply receiveChar_keeps | with_reducible exact Keeps.refl | intro _ | split | dsimp only))

theorem execSerRxRead_keeps {s t u : State} (h : Keeps s t) (a0 : Serial) (a1 : Bool) (e : execSerRxRead a0 a1 t = .next u) : Keeps s u := by
  unfold execSerRxRead at e
  try dsimp only at e
  repeat' split at e
  all_goals (cases e; repeat' (first | with_reducible assumption | with_reducible apply setB_keeps | with_reducible apply setReg_keeps | with_reducible apply returnWord_keeps | with_reducible exact Keeps.refl | intro _ | split | dsimp only))

theorem startBreak_keeps {s t : State} (h : Keeps s t) (a0 : Serial) : Keeps s (startBreak a0 t) := by
  unfold startBreak
  repeat' (first | with_reducible assumption | with_reducible apply emit_keeps | with_reducible apply setPhase_keeps | with_reducible apply setSerial_keeps | with_reducible exact Keeps.refl | intro _ | split | dsimp only)

theorem execSerTxWrite_keeps {s t u : State} (h : Keeps s t) (a0 : Serial) (a1 : Word) (a2 : Bool) (e : execSerTxWrite a0 a1 a2 t = .next u) : Keeps s u := by
  unfold execSerTxWrite at e
  try dsimp only at e
  repeat' split at e
  all_goals (cases e; repeat' (first | with_reducible assumption | with_reducible apply countErr_keeps | with_reducible apply setB_keeps | with_reducible apply setSerial_keeps | with_reducible exact Keeps.refl | intro _ | split | dsimp only))

theorem sendChar_keeps {s t : State} (h : Keeps s t) (a0 : Serial) (a1 : Byte) : Keeps s (sendChar a0 a1 t) := by
  unfold sendChar
  repeat' (first | with_reducible assumption | with_reducible apply emit_keeps | with_reducible apply setB_keeps | with_reducible apply setSerial_keeps | with_reducible exact Keeps.refl | intro _ | split | dsimp only)

theorem shiftLoad_keeps {s t : State} (h : Keeps s t) (a0 : Serial) (a1 : Bool) : Keeps s (shiftLoad a0 a1 t) := by
  unfold shiftLoad
  repeat' (first | with_reducible assumption | with_reducible apply cardCharError_keeps | with_reducible apply sendChar_keeps | with_reducible apply setB_keeps | with_reducible apply setSerial_keeps | with_reducible apply startBreak_keeps | with_reducible apply raise_keeps | with_reducible exact Keeps.refl | intro _ | split | dsimp only)

theorem execSerTxShiftLoad_keeps {s t u : State} (h : Keeps s t) (a0 : Serial) (a1 : Bool) (e : execSerTxShiftLoad a0 a1 t = .next u) : Keeps s u := by
  unfold execSerTxShiftLoad at e
  try dsimp only at e
  repeat' split at e
  all_goals (cases e; repeat' (first | with_reducible assumption | with_reducible apply shiftLoad_keeps | with_reducible exact Keeps.refl | intro _ | split | dsimp only))

theorem execSerDivWrite_keeps {s t u : State} (h : Keeps s t) (a0 : Serial) (a1 : Bool) (a2 : Word) (e : execSerDivWrite a0 a1 a2 t = .next u) : Keeps s u := by
  unfold execSerDivWrite at e
  try dsimp only at e
  repeat' split at e
  all_goals (cases e; repeat' (first | with_reducible assumption | with_reducible apply countErr_keeps | with_reducible apply writeRw_keeps | with_reducible apply setSerial_keeps | with_reducible exact Keeps.refl | intro _ | split | dsimp only))

theorem runSendBreak_keeps {s t : State} (h : Keeps s t) (a0 : Serial) (a1 : Outstanding) : Keeps s (runSendBreak a0 a1 t) := by
  unfold runSendBreak
  repeat' (first | with_reducible assumption | with_reducible apply done_keeps | with_reducible apply startBreak_keeps | with_reducible exact Keeps.refl | intro _ | split | dsimp only)

theorem execSendBreak_keeps {s t u : State} (h : Keeps s t) (a0 : Serial) (a1 : CmdSrc) (e : execSendBreak a0 a1 t = .next u) : Keeps s u := by
  unfold execSendBreak at e
  try dsimp only at e
  repeat' split at e
  all_goals (cases e; repeat' (first | with_reducible assumption | with_reducible apply issue_keeps | with_reducible apply runSendBreak_keeps | with_reducible exact Keeps.refl | intro _ | split | dsimp only))

theorem endBreak_keeps {s t : State} (h : Keeps s t) (a0 : Serial) (a1 : Nat) : Keeps s (endBreak a0 a1 t) := by
  unfold endBreak
  repeat' (first | with_reducible assumption | with_reducible apply emit_keeps | with_reducible apply setSerial_keeps | with_reducible apply done_keeps | with_reducible exact Keeps.refl | intro _ | split | dsimp only)

theorem execBreakStart_keeps {s t u : State} (h : Keeps s t) (a0 : Serial) (e : execBreakStart a0 t = .next u) : Keeps s u := by
  unfold execBreakStart at e
  try dsimp only at e
  repeat' split at e
  all_goals (cases e; repeat' (first | with_reducible assumption | with_reducible apply raise_keeps | with_reducible apply setB_keeps | with_reducible exact Keeps.refl | intro _ | split | dsimp only))

theorem endedBreak_keeps {s t : State} (h : Keeps s t) (a0 : Serial) (a1 : Nat) : Keeps s (endedBreak a0 a1 t) := by
  unfold endedBreak
  repeat' (first | with_reducible assumption | with_reducible apply setF_keeps | with_reducible apply setB_keeps | with_reducible apply raise_keeps | with_reducible apply count_keeps | with_reducible apply storeChar_keeps | with_reducible exact Keeps.refl | intro _ | split | dsimp only)

theorem execLineStuck_keeps {s t u : State} (h : Keeps s t) (a0 : Serial) (e : execLineStuck a0 t = .next u) : Keeps s u := by
  unfold execLineStuck at e
  try dsimp only at e
  repeat' split at e
  all_goals (cases e; repeat' (first | with_reducible assumption | with_reducible apply setF_keeps | with_reducible apply setB_keeps | with_reducible apply logPage_keeps | with_reducible apply raise_keeps | with_reducible exact Keeps.refl | intro _ | split | dsimp only))

theorem execLineFree_keeps {s t u : State} (h : Keeps s t) (a0 : Serial) (e : execLineFree a0 t = .next u) : Keeps s u := by
  unfold execLineFree at e
  try dsimp only at e
  repeat' split at e
  all_goals (cases e; repeat' (first | with_reducible assumption | with_reducible apply raise_keeps | with_reducible apply setB_keeps | with_reducible exact Keeps.refl | intro _ | split | dsimp only))

theorem emptySerial_keeps {s t : State} (h : Keeps s t) (a0 : Serial) : Keeps s (emptySerial a0 t) := by
  unfold emptySerial
  repeat' (first | with_reducible assumption | with_reducible apply emit_keeps | with_reducible apply setB_keeps | with_reducible apply setReg_keeps | with_reducible apply setSerial_keeps | with_reducible exact Keeps.refl | intro _ | split | dsimp only)

theorem execSerBlkReset_keeps {s t u : State} (h : Keeps s t) (a0 : Serial) (e : execSerBlkReset a0 t = .next u) : Keeps s u := by
  unfold execSerBlkReset at e
  try dsimp only at e
  repeat' split at e
  all_goals (cases e; repeat' (first | with_reducible assumption | with_reducible apply blkReset_keeps | with_reducible apply cardError_keeps | with_reducible apply emptySerial_keeps | with_reducible exact Keeps.refl | intro _ | split | dsimp only))

end Sys2Proof.Machine
end

