-- ==== Sys2Proof/Laws/KeepsReset.lean ====
section
/-! SUPPORT. Sys2Proof/Laws/KeepsReset.lean: what the operations of Machine/Reset.lean keep of a state. -/
namespace Sys2Proof.Machine

theorem keepBits_keeps {s t : State} (h : Keeps s t) (a0 : List (Page × Field)) (a1 : State) : Keeps s (keepBits a0 a1 t) := by
  unfold keepBits
  repeat' (first | with_reducible assumption | with_reducible apply setB_keeps | with_reducible apply Keeps.foldl | with_reducible exact Keeps.refl | intro _ | split | dsimp only)

theorem lost_keeps {s t : State} (h : Keeps s t) (power wake : Bool) : Keeps s (lost power wake t) := by
  refine h.trans ⟨rfl, List.suffix_refl _, Nat.le_refl _, fun w => ?_⟩
  simp only [Bool.and_eq_true] at w
  cases power <;> cases wake <;>
    simp only [lost, State.reset, State.wf, State.hostWf, State.lineWf, State.memWf, State.serviceWf, keptMac, keptCip, Bool.and_eq_true, w,
      Map.wf_filter, Map.wf_nil, and_self, if_true, if_false, Bool.false_eq_true]

/-- The tables after a loss of power or the modem's state keep their form. -/
theorem lose_keeps {s t : State} (h : Keeps s t) (power wake : Bool) : Keeps s (lose power wake t) := by
  unfold lose
  extract_lets u1 u2
  have k1 : Keeps s u1 := keepBits_keeps (lost_keeps h _ _) _ _
  clear_value u1
  have k2 : Keeps s u2 := by
    unfold u2
    split
    · exact k1
    · exact setB_keeps (setF_keeps k1 _ _ _) _ _ _
  clear_value u2
  split
  · exact Keeps.foldl (fun _ _ k => setF_keeps k _ _ _) (setB_keeps k2 _ _ _)
  · exact k2

theorem resetCommands_keeps {s t : State} (h : Keeps s t)  : Keeps s (resetCommands t) := by
  unfold resetCommands
  repeat' (first | with_reducible assumption | with_reducible apply complete_keeps | with_reducible apply loadReset_keeps | with_reducible apply Keeps.foldl | with_reducible exact Keeps.refl | intro _ | split | dsimp only)

theorem resetKill_keeps {s t : State} (h : Keeps s t) (a0 : Bool) : Keeps s (resetKill a0 t) := by
  unfold resetKill
  repeat' (first | with_reducible assumption | with_reducible apply setB_keeps | with_reducible apply setF_keeps | with_reducible exact Keeps.refl | intro _ | split | dsimp only)

theorem restart_keeps {s t : State} (h : Keeps s t) (a0 : Nat) : Keeps s (restart a0 t) := by
  unfold restart
  repeat' (first | with_reducible assumption | with_reducible apply lose_keeps | with_reducible apply resetCommands_keeps | with_reducible apply setF_keeps | with_reducible apply setReg_keeps | with_reducible apply raise_keeps | with_reducible apply resetKill_keeps | with_reducible exact Keeps.refl | intro _ | split | dsimp only)

theorem toRecovery_keeps {s t : State} (h : Keeps s t)  : Keeps s (toRecovery t) := by
  unfold toRecovery
  repeat' (first | with_reducible assumption | with_reducible exact Keeps.refl | (with_reducible refine Keeps.upd ?_ (by with_reducible rfl); first | with_reducible assumption | with_reducible exact Keeps.refl | split) | intro _ | split | dsimp only)

theorem revertSlot_keeps {s t : State} (h : Keeps s t) (a0 : Nat) : Keeps s (revertSlot a0 t) := by
  unfold revertSlot
  repeat' (first | with_reducible assumption | with_reducible apply logPage_keeps | with_reducible apply setF_keeps | with_reducible apply setSlotState_keeps | with_reducible exact Keeps.refl | intro _ | split | dsimp only)

theorem revertTrial_keeps {s t : State} (h : Keeps s t)  : Keeps s (revertTrial t) := by
  unfold revertTrial
  repeat' (first | with_reducible assumption | with_reducible apply revertSlot_keeps | with_reducible apply restart_keeps | with_reducible apply Keeps.foldl | with_reducible exact Keeps.refl | (with_reducible refine Keeps.upd ?_ (by with_reducible rfl); first | with_reducible assumption | with_reducible apply revertSlot_keeps | with_reducible apply restart_keeps | with_reducible apply Keeps.foldl | with_reducible exact Keeps.refl | split) | intro _ | split | dsimp only)

theorem execTrialExpiry_keeps {s t u : State} (h : Keeps s t)  (e : execTrialExpiry t = .next u) : Keeps s u := by
  unfold execTrialExpiry at e
  try dsimp only at e
  repeat' split at e
  all_goals (cases e; repeat' (first | with_reducible assumption | with_reducible apply revertTrial_keeps | with_reducible exact Keeps.refl | intro _ | split | dsimp only))

theorem faultReset_keeps {s t : State} (h : Keeps s t) (a0 : Nat) : Keeps s (faultReset a0 t) := by
  unfold faultReset
  repeat' (first | with_reducible assumption | with_reducible apply revertTrial_keeps | with_reducible apply restart_keeps | with_reducible apply toRecovery_keeps | with_reducible exact Keeps.refl | (with_reducible refine Keeps.upd ?_ (by with_reducible rfl); first | with_reducible assumption | with_reducible apply revertTrial_keeps | with_reducible apply restart_keeps | with_reducible apply toRecovery_keeps | with_reducible exact Keeps.refl | split) | intro _ | split | dsimp only)

theorem execWatchdogExpiry_keeps {s t u : State} (h : Keeps s t)  (e : execWatchdogExpiry t = .next u) : Keeps s u := by
  unfold execWatchdogExpiry at e
  try dsimp only at e
  repeat' split at e
  all_goals (cases e; repeat' (first | with_reducible assumption | with_reducible apply faultReset_keeps | with_reducible exact Keeps.refl | intro _ | split | dsimp only))

theorem execLockstepDisagree_keeps {s t u : State} (h : Keeps s t)  (e : execLockstepDisagree t = .next u) : Keeps s u := by
  unfold execLockstepDisagree at e
  try dsimp only at e
  repeat' split at e
  all_goals (cases e; repeat' (first | with_reducible assumption | with_reducible apply faultReset_keeps | with_reducible exact Keeps.refl | intro _ | split | dsimp only))

theorem execRecoveryCountClear_keeps {s t u : State} (h : Keeps s t)  (e : execRecoveryCountClear t = .next u) : Keeps s u := by
  unfold execRecoveryCountClear at e
  try dsimp only at e
  repeat' split at e
  all_goals (cases e; repeat' (first | with_reducible assumption | with_reducible exact Keeps.refl | (with_reducible refine Keeps.upd ?_ (by with_reducible rfl); first | with_reducible assumption | with_reducible exact Keeps.refl | split) | intro _ | split | dsimp only))

theorem execPerstAssert_keeps {s t u : State} (h : Keeps s t) (e : execPerstAssert t = .next u) : Keeps s u := by
  unfold execPerstAssert at e
  obtain rfl := Host.Outcome.next.inj e
  have k1 : Keeps s { t with pwr := { t.pwr with perstLow := true } } := Keeps.upd h rfl
  dsimp only
  split
  · exact k1
  · have k2 := perstRings_keeps k1
    generalize perstRings { t with pwr := { t.pwr with perstLow := true } } = v at k2 ⊢
    refine setF_keeps (setF_keeps (setB_keeps (setB_keeps ?_ _ _ _) _ _ _) _ _ _) _ _ _
    refine Keeps.updTable k2 (fun w => ?_)
    simp only [Bool.and_eq_true] at w ⊢
    simp only [w, Map.wf_nil, and_self]

theorem execPerstRelease_keeps {s t u : State} (h : Keeps s t)  (e : execPerstRelease t = .next u) : Keeps s u := by
  unfold execPerstRelease at e
  try dsimp only at e
  repeat' split at e
  all_goals (cases e; repeat' (first | with_reducible assumption | with_reducible exact Keeps.refl | (with_reducible refine Keeps.upd ?_ (by with_reducible rfl); first | with_reducible assumption | with_reducible exact Keeps.refl | split) | intro _ | split | dsimp only))

theorem execMrstAssert_keeps {s t u : State} (h : Keeps s t)  (e : execMrstAssert t = .next u) : Keeps s u := by
  unfold execMrstAssert at e
  try dsimp only at e
  repeat' split at e
  all_goals (cases e; repeat' (first | with_reducible assumption | with_reducible apply restart_keeps | with_reducible exact Keeps.refl | (with_reducible refine Keeps.upd ?_ (by with_reducible rfl); first | with_reducible assumption | with_reducible apply restart_keeps | with_reducible exact Keeps.refl | split) | intro _ | split | dsimp only))

theorem wake_keeps {s t : State} (h : Keeps s t) (a0 : Nat) : Keeps s (wake a0 t) := by
  unfold wake
  repeat' (first | with_reducible assumption | with_reducible apply restart_keeps | with_reducible apply setF_keeps | with_reducible exact Keeps.refl | intro _ | split | dsimp only)

theorem execWake_keeps {s t u : State} (h : Keeps s t) (a0 : Fin 5) (e : execWake a0 t = .next u) : Keeps s u := by
  unfold execWake at e
  try dsimp only at e
  repeat' split at e
  all_goals (cases e; repeat' (first | with_reducible assumption | with_reducible apply wake_keeps | with_reducible exact Keeps.refl | intro _ | split | dsimp only))

theorem execMrstRelease_keeps {s t u : State} (h : Keeps s t)  (e : execMrstRelease t = .next u) : Keeps s u := by
  unfold execMrstRelease at e
  try dsimp only at e
  repeat' split at e
  all_goals (cases e; repeat' (first | with_reducible assumption | with_reducible apply wake_keeps | with_reducible exact Keeps.refl | (with_reducible refine Keeps.upd ?_ (by with_reducible rfl); first | with_reducible assumption | with_reducible apply wake_keeps | with_reducible exact Keeps.refl | split) | intro _ | split | dsimp only))

theorem execSleepAddressMatch_keeps {s t u : State} (h : Keeps s t) (a0 : Serial) (e : execSleepAddressMatch a0 t = .next u) : Keeps s u := by
  unfold execSleepAddressMatch at e
  try dsimp only at e
  repeat' split at e
  all_goals (cases e; repeat' (first | with_reducible assumption | with_reducible apply wake_keeps | with_reducible exact Keeps.refl | intro _ | split | dsimp only))

theorem execBreakEnd_keeps {s t u : State} (h : Keeps s t) (a0 : Serial) (a1 : BitVec 16) (e : execBreakEnd a0 a1 t = .next u) : Keeps s u := by
  unfold execBreakEnd at e
  try dsimp only at e
  repeat' split at e
  all_goals (cases e; repeat' (first | with_reducible assumption | with_reducible apply endedBreak_keeps | with_reducible apply toRecovery_keeps | with_reducible apply restart_keeps | with_reducible exact Keeps.refl | intro _ | split | dsimp only))

theorem runResetModule_keeps {s t : State} (h : Keeps s t) (a0 : Outstanding) : Keeps s (runResetModule a0 t) := by
  unfold runResetModule
  repeat' (first | with_reducible assumption | with_reducible apply restart_keeps | with_reducible apply done_keeps | with_reducible apply toRecovery_keeps | with_reducible exact Keeps.refl | intro _ | split | dsimp only)

theorem execResetModule_keeps {s t u : State} (h : Keeps s t) (a0 : CmdSrc) (e : execResetModule a0 t = .next u) : Keeps s u := by
  unfold execResetModule at e
  try dsimp only at e
  repeat' split at e
  all_goals (cases e; repeat' (first | with_reducible assumption | with_reducible apply issue_keeps | with_reducible apply runResetModule_keeps | with_reducible exact Keeps.refl | intro _ | split | dsimp only))

theorem confirmSlot_keeps {s t : State} (h : Keeps s t) (a0 : Nat) : Keeps s (confirmSlot a0 t) := by
  unfold confirmSlot
  repeat' (first | with_reducible assumption | with_reducible apply setF_keeps | with_reducible apply setSlotState_keeps | with_reducible exact Keeps.refl | intro _ | split | dsimp only)

theorem runConfirm_keeps {s t : State} (h : Keeps s t) (a0 : Outstanding) : Keeps s (runConfirm a0 t) := by
  unfold runConfirm
  repeat' (first | with_reducible assumption | with_reducible apply done_keeps | with_reducible apply confirmSlot_keeps | with_reducible apply Keeps.foldl | with_reducible exact Keeps.refl | (with_reducible refine Keeps.upd ?_ (by with_reducible rfl); first | with_reducible assumption | with_reducible apply done_keeps | with_reducible apply confirmSlot_keeps | with_reducible apply Keeps.foldl | with_reducible exact Keeps.refl | split) | intro _ | split | dsimp only)

theorem execConfirm_keeps {s t u : State} (h : Keeps s t) (a0 : CmdSrc) (e : execConfirm a0 t = .next u) : Keeps s u := by
  unfold execConfirm at e
  try dsimp only at e
  repeat' split at e
  all_goals (cases e; repeat' (first | with_reducible assumption | with_reducible apply issue_keeps | with_reducible apply runConfirm_keeps | with_reducible exact Keeps.refl | intro _ | split | dsimp only))

theorem runEnterTest_keeps {s t : State} (h : Keeps s t) (a0 : Outstanding) : Keeps s (runEnterTest a0 t) := by
  unfold runEnterTest
  repeat' (first | with_reducible assumption | with_reducible apply done_keeps | with_reducible apply settleOwner_keeps | with_reducible apply setF_keeps | with_reducible exact Keeps.refl | intro _ | split | dsimp only)

theorem execEnterTest_keeps {s t u : State} (h : Keeps s t) (a0 : CmdSrc) (e : execEnterTest a0 t = .next u) : Keeps s u := by
  unfold execEnterTest at e
  try dsimp only at e
  repeat' split at e
  all_goals (cases e; repeat' (first | with_reducible assumption | with_reducible apply issue_keeps | with_reducible apply runEnterTest_keeps | with_reducible exact Keeps.refl | intro _ | split | dsimp only))

end Sys2Proof.Machine
end

