-- ==== Sys2Proof/Laws/KeepsBoot.lean ====
section
/-! SUPPORT. Sys2Proof/Laws/KeepsBoot.lean: what the operations of Machine/Boot.lean keep of a state. -/
namespace Sys2Proof.Machine

theorem makeReady_keeps {s t : State} (h : Keeps s t) (a0 : List Page) : Keeps s (makeReady a0 t) := by
  unfold makeReady
  repeat' (first | with_reducible assumption | with_reducible apply setReady_keeps | with_reducible apply Keeps.foldl | with_reducible exact Keeps.refl | intro _ | split | dsimp only)

theorem setStage_keeps {s t : State} (h : Keeps s t) (a0 : Nat) : Keeps s (setStage a0 t) := by
  unfold setStage
  repeat' (first | with_reducible assumption | with_reducible apply setF_keeps | with_reducible exact Keeps.refl | intro _ | split | dsimp only)

theorem setMode_keeps {s t : State} (h : Keeps s t) (a0 : Nat) : Keeps s (setMode a0 t) := by
  unfold setMode
  repeat' (first | with_reducible assumption | with_reducible apply settleOwner_keeps | with_reducible apply setF_keeps | with_reducible exact Keeps.refl | intro _ | split | dsimp only)

theorem logStart_keeps {s t : State} (h : Keeps s t)  : Keeps s (logStart t) := by
  unfold logStart
  repeat' (first | with_reducible assumption | with_reducible apply logEvent_keeps | with_reducible exact Keeps.refl | (with_reducible refine Keeps.upd ?_ (by with_reducible rfl); first | with_reducible assumption | with_reducible apply logEvent_keeps | with_reducible exact Keeps.refl | split) | intro _ | split | dsimp only)

theorem enterRecovery_keeps {s t : State} (h : Keeps s t) (a0 : Nat) : Keeps s (enterRecovery a0 t) := by
  unfold enterRecovery
  repeat' (first | with_reducible assumption | with_reducible apply setF_keeps | with_reducible apply logStart_keeps | with_reducible apply makeReady_keeps | with_reducible apply endCause_keeps | with_reducible apply kill_keeps | with_reducible apply setMode_keeps | with_reducible exact Keeps.refl | intro _ | split | dsimp only)

theorem drawFirst_keeps {s t : State} (h : Keeps s t)  : Keeps s (drawFirst t) := by
  unfold drawFirst
  repeat' (first | with_reducible assumption | with_reducible apply randBytes_keeps | with_reducible apply draw_keeps | (refine randBytes_keeps_eq ?_ (by assumption)) | (refine draw_keeps_eq ?_ (by assumption)) | with_reducible exact Keeps.refl | (with_reducible refine Keeps.upd ?_ (by with_reducible rfl); first | with_reducible assumption | with_reducible apply randBytes_keeps | with_reducible apply draw_keeps | (refine randBytes_keeps_eq ?_ (by assumption)) | (refine draw_keeps_eq ?_ (by assumption)) | with_reducible exact Keeps.refl | split) | intro _ | split | dsimp only)

theorem drawStart_keeps {s t : State} (h : Keeps s t)  : Keeps s (drawStart t) := by
  unfold drawStart
  repeat' (first | with_reducible assumption | with_reducible apply randBytes_keeps | with_reducible apply setMac_keeps | (refine randBytes_keeps_eq ?_ (by assumption)) | with_reducible apply Keeps.macTable | with_reducible apply Keeps.macParked | with_reducible apply Keeps.macRelays | with_reducible apply Keeps.macCache | with_reducible apply Map.wf_set | with_reducible apply Map.wf_filter | with_reducible exact Map.wf_nil | with_reducible exact Keeps.refl | (with_reducible refine Keeps.upd ?_ (by with_reducible rfl); first | with_reducible assumption | with_reducible apply randBytes_keeps | with_reducible apply setMac_keeps | (refine randBytes_keeps_eq ?_ (by assumption)) | with_reducible apply Keeps.macTable | with_reducible apply Keeps.macParked | with_reducible apply Keeps.macRelays | with_reducible apply Keeps.macCache | with_reducible apply Map.wf_set | with_reducible apply Map.wf_filter | with_reducible exact Map.wf_nil | with_reducible exact Keeps.refl | split) | intro _ | split | dsimp only)

theorem loadPair_keeps {s t : State} (h : Keeps s t)  : Keeps s (loadPair t) := by
  unfold loadPair
  repeat' (first | with_reducible assumption | with_reducible apply pairBecomes_keeps | with_reducible exact Keeps.refl | (with_reducible refine Keeps.upd ?_ (by with_reducible rfl); first | with_reducible assumption | with_reducible apply pairBecomes_keeps | with_reducible exact Keeps.refl | split) | intro _ | split | dsimp only)

theorem loadKeys_keeps {s t : State} (h : Keeps s t)  : Keeps s (loadKeys t) := by
  unfold loadKeys
  repeat' (first | with_reducible assumption | with_reducible apply setB_keeps | with_reducible apply loadPair_keeps | with_reducible apply drawStart_keeps | with_reducible apply drawFirst_keeps | with_reducible apply reseed_keeps | with_reducible exact Keeps.refl | intro _ | split | dsimp only)

theorem pickSlot_keeps {s t : State} (h : Keeps s t) (a0 : List Nat) : Keeps s (pickSlot a0 t).2 := by
  induction a0 generalizing t with
  | nil =>
    unfold pickSlot
    repeat' (first | with_reducible assumption | with_reducible apply ih | with_reducible apply markInvalid_keeps | with_reducible exact Keeps.refl | intro _ | split | dsimp only)
  | cons _ _ ih =>
    unfold pickSlot
    repeat' (first | with_reducible assumption | with_reducible apply ih | with_reducible apply markInvalid_keeps | with_reducible exact Keeps.refl | intro _ | split | dsimp only)

theorem pickSlot_keeps_eq {s t u : State} {a0 : List Nat} {y0} (h : Keeps s t) (e : pickSlot a0 t = (y0, u)) : Keeps s u := by
  have k := pickSlot_keeps h a0
  rw [e] at k
  exact k

theorem bootSlot_keeps {s t : State} (h : Keeps s t) (a0 : Nat) : Keeps s (bootSlot a0 t) := by
  unfold bootSlot
  repeat' (first | with_reducible assumption | with_reducible apply setSlotState_keeps | with_reducible exact Keeps.refl | (with_reducible refine Keeps.upd ?_ (by with_reducible rfl); first | with_reducible assumption | with_reducible apply setSlotState_keeps | with_reducible exact Keeps.refl | split) | intro _ | split | dsimp only)

theorem bootModule_keeps {s t u : State} (h : Keeps s t) (e : bootModule t = some u) : Keeps s u := by
  unfold bootModule at e
  dsimp only at e
  split at e
  · cases e
  · rename_i i t' hp
    cases e
    have k : Keeps s (bootSlot i t') := bootSlot_keeps (pickSlot_keeps_eq h hp) _
    generalize bootSlot i t' = v at k ⊢
    refine setF_keeps ?_ _ _ _
    exact Keeps.upd k rfl

theorem modFailed_keeps {s t : State} (h : Keeps s t)  : Keeps s (modFailed t) := by
  unfold modFailed
  repeat' (first | with_reducible assumption | with_reducible apply pickSlot_keeps | (refine pickSlot_keeps_eq ?_ (by assumption)) | with_reducible exact Keeps.refl | intro _ | split | dsimp only)

theorem showUcode_keeps {s t : State} (h : Keeps s t) (a0 : Nat) : Keeps s (showUcode a0 t) := by
  unfold showUcode
  repeat' (first | with_reducible assumption | with_reducible apply setB_keeps | with_reducible apply setF_keeps | with_reducible apply Keeps.foldl | with_reducible exact Keeps.refl | intro _ | split | dsimp only)

theorem bootUcode_keeps {s t : State} (h : Keeps s t)  : Keeps s (bootUcode t) := by
  unfold bootUcode
  repeat' (first | with_reducible assumption | with_reducible apply pickSlot_keeps | with_reducible apply setF_keeps | with_reducible apply bootSlot_keeps | with_reducible apply showUcode_keeps | (refine pickSlot_keeps_eq ?_ (by assumption)) | with_reducible exact Keeps.refl | (with_reducible refine Keeps.upd ?_ (by with_reducible rfl); first | with_reducible assumption | with_reducible apply pickSlot_keeps | with_reducible apply setF_keeps | with_reducible apply bootSlot_keeps | with_reducible apply showUcode_keeps | (refine pickSlot_keeps_eq ?_ (by assumption)) | with_reducible exact Keeps.refl | split) | intro _ | split | dsimp only)

theorem testPipes_keeps {s t : State} (h : Keeps s t) (a0 : List (Fin 2)) : Keeps s (testPipes a0 t) := by
  unfold testPipes
  repeat' (first | with_reducible assumption | with_reducible apply pipeOut_keeps | with_reducible apply setB_keeps | with_reducible apply Keeps.foldl | with_reducible exact Keeps.refl | intro _ | split | dsimp only)

theorem applyFuse_keeps {s t : State} (h : Keeps s t) (a0 : Nat × Nat × Nat) : Keeps s (applyFuse a0 t) := by
  unfold applyFuse
  repeat' (first | with_reducible assumption | with_reducible apply setSpare_keeps | with_reducible exact Keeps.refl | intro _ | split | dsimp only)

theorem testMemory_keeps {s t : State} (h : Keeps s t) (a0 : List (Bank × Fin 72)) : Keeps s (testMemory a0 t) := by
  unfold testMemory
  repeat' (first | with_reducible assumption | with_reducible apply applyFuse_keeps | with_reducible apply marchBank_keeps | with_reducible apply setF_keeps | (refine marchBank_keeps_eq ?_ (by assumption)) | with_reducible apply Keeps.foldl | with_reducible exact Keeps.refl | intro _ | split | dsimp only)

theorem recountTable_keeps {s t : State} (h : Keeps s t)  : Keeps s (recountTable t) := by
  unfold recountTable
  repeat' (first | with_reducible assumption | with_reducible apply setB_keeps | with_reducible apply setF_keeps | with_reducible apply refreshTable_keeps | with_reducible exact Keeps.refl | intro _ | split | dsimp only)

theorem applyBkey_keeps {s t : State} (h : Keeps s t) : Keeps s (applyBkey t) := by
  unfold applyBkey
  split
  · exact h
  · split
    · exact h
    · extract_lets x y s1
      have k : Keeps s { t with cip := { t.cip with groups := [] } } := by
        refine h.updTable (fun w => ?_)
        simp only [Bool.and_eq_true] at w ⊢
        simp only [w, Map.wf_nil, and_self]
      have k1 : Keeps s s1 := setMac_keeps k _ h.macTable h.macParked h.macRelays h.macCache
      clear_value s1
      exact raise_keeps (setB_keeps (setF_keeps k1 _ _ _) _ _ _) _ _

theorem beginGrid_keeps {s t : State} (h : Keeps s t)  : Keeps s (beginGrid t) := by
  unfold beginGrid
  repeat' (first | with_reducible assumption | with_reducible apply applyBkey_keeps | with_reducible apply startTru_keeps | with_reducible apply setF_keeps | with_reducible apply linkTime_keeps | with_reducible exact Keeps.refl | (with_reducible refine Keeps.upd ?_ (by with_reducible rfl); first | with_reducible assumption | with_reducible apply applyBkey_keeps | with_reducible apply startTru_keeps | with_reducible apply setF_keeps | with_reducible apply linkTime_keeps | with_reducible exact Keeps.refl | split) | intro _ | split | dsimp only)

theorem loadDecl_keeps {s t : State} (h : Keeps s t) (a0 : Nat) : Keeps s (loadDecl a0 t) := by
  unfold loadDecl
  repeat' (first | with_reducible assumption | with_reducible apply applyDecl_keeps | with_reducible apply setF_keeps | with_reducible exact Keeps.refl | intro _ | split | dsimp only)

theorem loadWaves_keeps {s t : State} (h : Keeps s t) : Keeps s (loadWaves t) := by
  unfold loadWaves
  extract_lets x u g y
  have k1 : Keeps s u := by
    refine nbApply_keeps ?_ _ _
    exact Keeps.upd h rfl
  clear_value u
  refine setB_keeps ?_ _ _ _
  exact Keeps.upd k1 rfl

theorem loadBeacon_keeps {s t : State} (h : Keeps s t)  : Keeps s (loadBeacon t) := by
  unfold loadBeacon
  repeat' (first | with_reducible assumption | with_reducible exact Keeps.refl | (with_reducible refine Keeps.upd ?_ (by with_reducible rfl); first | with_reducible assumption | with_reducible exact Keeps.refl | split) | intro _ | split | dsimp only)

theorem loadMaps_keeps {s t : State} (h : Keeps s t)  : Keeps s (loadMaps t) := by
  unfold loadMaps
  repeat' (first | with_reducible assumption | with_reducible apply setF_keeps | with_reducible exact Keeps.refl | intro _ | split | dsimp only)

theorem loadConfig_keeps {s t : State} (h : Keeps s t) : Keeps s (loadConfig t) := by
  exact Keeps.foldl (fun _ _ k => loadDecl_keeps k _) (setB_keeps (loadMaps_keeps (loadBeacon_keeps (loadWaves_keeps h))) _ _ _)

theorem showTrial_keeps {s t : State} (h : Keeps s t)  : Keeps s (showTrial t) := by
  unfold showTrial
  repeat' (first | with_reducible assumption | with_reducible apply raise_keeps | with_reducible exact Keeps.refl | intro _ | split | dsimp only)

theorem enterService_keeps {s t : State} (h : Keeps s t)  : Keeps s (enterService t) := by
  unfold enterService
  repeat' (first | with_reducible assumption | with_reducible apply makeReady_keeps | with_reducible apply loadConfig_keeps | with_reducible apply setB_keeps | with_reducible apply setMode_keeps | with_reducible apply raise_keeps | with_reducible apply endCause_keeps | with_reducible apply diagReport_keeps | with_reducible apply refreshTunnel_keeps | with_reducible apply refreshEngines_keeps | with_reducible apply refreshGate_keeps | with_reducible apply showTrial_keeps | with_reducible exact Keeps.refl | (with_reducible refine Keeps.upd ?_ (by with_reducible rfl); first | with_reducible assumption | with_reducible apply makeReady_keeps | with_reducible apply loadConfig_keeps | with_reducible apply setB_keeps | with_reducible apply setMode_keeps | with_reducible apply raise_keeps | with_reducible apply endCause_keeps | with_reducible apply diagReport_keeps | with_reducible apply refreshTunnel_keeps | with_reducible apply refreshEngines_keeps | with_reducible apply refreshGate_keeps | with_reducible apply showTrial_keeps | with_reducible exact Keeps.refl | split) | intro _ | split | dsimp only)

theorem nextStage_keeps {s t : State} (h : Keeps s t) (f : StageFind) : Keeps s (nextStage f t) := by
  unfold nextStage
  split
  · extract_lets s1
    have k : Keeps s s1 := showBase_keeps h _
    clear_value s1
    split
    · exact Keeps.upd k rfl
    · exact setStage_keeps k _
  · split
    · exact enterRecovery_keeps h _
    · extract_lets s1
      have k : Keeps s s1 := loadKeys_keeps h
      clear_value s1
      split
      · exact enterRecovery_keeps k _
      · exact setStage_keeps k _
  · split
    · exact enterRecovery_keeps (modFailed_keeps h) _
    · rename_i e
      exact logStart_keeps (makeReady_keeps (setStage_keeps (bootModule_keeps h e) _) _)
  · extract_lets s1
    have k : Keeps s s1 := testMemory_keeps h _
    clear_value s1
    split
    · exact enterRecovery_keeps k _
    · exact setStage_keeps k _
  · exact setStage_keeps (recountTable_keeps h) _
  · exact beginGrid_keeps (setStage_keeps (testPipes_keeps (bootUcode_keeps h) _) _)
  · exact enterService_keeps (setStage_keeps h _)
  · split
    · refine setStage_keeps ?_ _
      exact Keeps.upd h rfl
    · exact h
  · split
    · exact setStage_keeps h _
    · exact h

theorem execStartupStageComplete_keeps {s t u : State} (h : Keeps s t) (a0 : StageFind) (e : execStartupStageComplete a0 t = .next u) : Keeps s u := by
  unfold execStartupStageComplete at e
  try dsimp only at e
  repeat' split at e
  all_goals (cases e; repeat' (first | with_reducible assumption | with_reducible apply nextStage_keeps | with_reducible exact Keeps.refl | intro _ | split | dsimp only))

theorem execColdHoldEnd_keeps {s t u : State} (h : Keeps s t)  (e : execColdHoldEnd  t = .next u) : Keeps s u := by
  unfold execColdHoldEnd at e
  obtain rfl := Host.Outcome.next.inj e
  split
  · refine setStage_keeps (setF_keeps ?_ _ _ _) _
    exact Keeps.upd h rfl
  · exact h

theorem domainClash_keeps {s t : State} (h : Keeps s t)  : Keeps s (domainClash t) := by
  unfold domainClash
  repeat' (first | with_reducible assumption | with_reducible apply logPage_keeps | with_reducible apply raise_keeps | with_reducible exact Keeps.refl | (with_reducible refine Keeps.upd ?_ (by with_reducible rfl); first | with_reducible assumption | with_reducible apply logPage_keeps | with_reducible apply raise_keeps | with_reducible exact Keeps.refl | split) | intro _ | split | dsimp only)

theorem settleRole_keeps {s t : State} (h : Keeps s t)  : Keeps s (settleRole t) := by
  unfold settleRole
  repeat' (first | with_reducible assumption | with_reducible apply settleStandby_keeps | with_reducible apply pairBecomes_keeps | with_reducible exact Keeps.refl | intro _ | split | dsimp only)

theorem listenEnd_keeps {s t : State} (h : Keeps s t)  : Keeps s (listenEnd t) := by
  unfold listenEnd
  repeat' (first | with_reducible assumption | with_reducible apply domainClash_keeps | with_reducible apply settleRole_keeps | with_reducible apply beginBeaconing_keeps | with_reducible exact Keeps.refl | intro _ | split | dsimp only)

theorem execListenEnd_keeps {s t u : State} (h : Keeps s t)  (e : execListenEnd t = .next u) : Keeps s u := by
  unfold execListenEnd at e
  try dsimp only at e
  repeat' split at e
  all_goals (cases e; repeat' (first | with_reducible assumption | with_reducible apply listenEnd_keeps | with_reducible exact Keeps.refl | intro _ | split | dsimp only))

end Sys2Proof.Machine
end

