-- ==== Sys2Proof/Laws/KeepsLaneRx.lean ====
section
/-! SUPPORT. Sys2Proof/Laws/KeepsLaneRx.lean: what the operations of Machine/LaneRx.lean keep of a state. -/
namespace Sys2Proof.Machine

theorem setPtp_keeps {s t : State} (h : Keeps s t) (a0 : PtpSt) : Keeps s (setPtp a0 t) := by
  unfold setPtp
  repeat' (first | with_reducible assumption | with_reducible apply setLink_keeps | with_reducible apply Keeps.linkLanes | with_reducible apply Map.wf_set | with_reducible apply Map.wf_filter | with_reducible exact Map.wf_nil | with_reducible exact Keeps.refl | intro _ | split | dsimp only)

theorem showPhase_keeps {s t : State} (h : Keeps s t) (a0 : Nat) (a1 : Int) : Keeps s (showPhase a0 a1 t) := by
  unfold showPhase
  repeat' (first | with_reducible assumption | with_reducible apply setI_keeps | with_reducible exact Keeps.refl | intro _ | split | dsimp only)

theorem ptpSync_keeps {s t : State} (h : Keeps s t) (a0 : Nat) (a1 : Int) (a2 : Int) : Keeps s (ptpSync a0 a1 a2 t) := by
  unfold ptpSync
  repeat' (first | with_reducible assumption | with_reducible apply setF_keeps | with_reducible apply setB_keeps | with_reducible apply showPhase_keeps | with_reducible apply setPtp_keeps | with_reducible exact Keeps.refl | intro _ | split | dsimp only)

theorem ptpDelay_keeps {s t : State} (h : Keeps s t) (a0 : Nat) (a1 : Int) : Keeps s (ptpDelay a0 a1 t) := by
  unfold ptpDelay
  repeat' (first | with_reducible assumption | with_reducible apply setF_keeps | with_reducible exact Keeps.refl | intro _ | split | dsimp only)

theorem pdelayAnswer_keeps {s t : State} (h : Keeps s t) (a0 : Nat) (a1 : List Byte) (a2 : Int) : Keeps s (pdelayAnswer a0 a1 a2 t) := by
  unfold pdelayAnswer
  repeat' (first | with_reducible assumption | with_reducible apply emit_keeps | with_reducible exact Keeps.refl | intro _ | split | dsimp only)

theorem ptpIn_keeps {s t : State} (h : Keeps s t) (a0 : Nat) (a1 : List Byte) (a2 : Int) (a3 : Int) : Keeps s (ptpIn a0 a1 a2 a3 t) := by
  unfold ptpIn
  repeat' (first | with_reducible assumption | with_reducible apply setPtp_keeps | with_reducible apply ptpSync_keeps | with_reducible apply ptpDelay_keeps | with_reducible apply pdelayAnswer_keeps | with_reducible exact Keeps.refl | intro _ | split | dsimp only)

theorem execPtpMessage_keeps {s t u : State} (h : Keeps s t) (a0 : Lane) (a1 : List Byte) (a2 : BitVec 64) (a3 : BitVec 64) (e : execPtpMessage a0 a1 a2 a3 t = .next u) : Keeps s u := by
  unfold execPtpMessage at e
  try dsimp only at e
  repeat' split at e
  all_goals (cases e; repeat' (first | with_reducible assumption | with_reducible apply ptpIn_keeps | with_reducible exact Keeps.refl | intro _ | split | dsimp only))

theorem laneDrop_keeps {s t : State} (h : Keeps s t) (a0 : Nat) : Keeps s (laneDrop a0 t) := by
  unfold laneDrop
  repeat' (first | with_reducible assumption | with_reducible apply raise_keeps | with_reducible apply count_keeps | with_reducible exact Keeps.refl | intro _ | split | dsimp only)

theorem downData_keeps {s t : State} (h : Keeps s t) (a0 : Nat) (a1 : Option Nat) (a2 : List Byte) : Keeps s (downData a0 a1 a2 t) := by
  unfold downData
  repeat' (first | with_reducible assumption | with_reducible apply takeDown_keeps | with_reducible apply dlDone_keeps | with_reducible exact Keeps.refl | intro _ | split | dsimp only)

theorem fromParent_keeps {s t : State} (h : Keeps s t) (a0 : Nat) (a1 : Int) (a2 : Int) (a3 : FrameIn) : Keeps s (fromParent a0 a1 a2 a3 t) := by
  unfold fromParent
  repeat' (first | with_reducible assumption | with_reducible apply setLane_keeps | with_reducible apply laneSend_keeps | with_reducible apply parentBeacon_keeps | with_reducible apply parentAnswer_keeps | with_reducible apply parentData_keeps | with_reducible exact Keeps.refl | intro _ | split | dsimp only)

theorem fromChild_keeps {s t : State} (h : Keeps s t) (a0 : FrameIn) : Keeps s (fromChild a0 t) := by
  unfold fromChild
  repeat' (first | with_reducible assumption | with_reducible apply dataFrame_keeps | with_reducible apply ackIn_keeps | with_reducible apply joinSolicit_keeps | with_reducible apply joinReq_keeps | with_reducible apply grantReq_keeps | with_reducible apply malformed_keeps | with_reducible exact Keeps.refl | intro _ | split | dsimp only)

theorem ngaelIn_keeps {s t : State} (h : Keeps s t) (a0 : Nat) (a1 : Int) (a2 : List Byte) : Keeps s (ngaelIn a0 a1 a2 t) := by
  unfold ngaelIn
  repeat' (first | with_reducible assumption | with_reducible apply malformed_keeps | with_reducible apply flushLanes_keeps | with_reducible apply fromParent_keeps | with_reducible apply fromChild_keeps | with_reducible exact Keeps.refl | intro _ | split | dsimp only)

theorem dlyResp_keeps {s t : State} (h : Keeps s t) (a0 : Nat) (a1 : List Byte) : Keeps s (dlyResp a0 a1 t) := by
  unfold dlyResp
  repeat' (first | with_reducible assumption | with_reducible apply showPhase_keeps | with_reducible apply setF_keeps | with_reducible exact Keeps.refl | intro _ | split | dsimp only)

theorem tunnelIn_keeps {s t : State} (h : Keeps s t) (a0 : Nat) (a1 : Nat) (a2 : Option Nat) (a3 : List Byte) (a4 : Int) : Keeps s (tunnelIn a0 a1 a2 a3 a4 t) := by
  unfold tunnelIn
  repeat' (first | with_reducible assumption | with_reducible apply downData_keeps | with_reducible apply ngaelIn_keeps | with_reducible apply laneSend_keeps | with_reducible apply dlyResp_keeps | with_reducible exact Keeps.refl | intro _ | split | dsimp only)

theorem tunnelFrame_keeps {s t : State} (h : Keeps s t) (a0 : Nat) (a1 : LaneRx) : Keeps s (tunnelFrame a0 a1 t) := by
  unfold tunnelFrame
  repeat' (first | with_reducible assumption | with_reducible apply laneDrop_keeps | with_reducible apply tunnelIn_keeps | with_reducible apply count_keeps | with_reducible exact Keeps.refl | intro _ | split | dsimp only)

theorem laneRx_keeps {s t : State} (h : Keeps s t) (a0 : Nat) (a1 : LaneRx) : Keeps s (laneRx a0 a1 t) := by
  unfold laneRx
  repeat' (first | with_reducible assumption | with_reducible apply raise_keeps | with_reducible apply count_keeps | with_reducible apply pauseIn_keeps | with_reducible apply ptpIn_keeps | with_reducible apply tunnelFrame_keeps | with_reducible apply laneDrop_keeps | with_reducible exact Keeps.refl | intro _ | split | dsimp only)

theorem execTunnelFrameReceived_keeps {s t u : State} (h : Keeps s t) (a0 : Lane) (a1 : LaneRx) (e : execTunnelFrameReceived a0 a1 t = .next u) : Keeps s u := by
  unfold execTunnelFrameReceived at e
  try dsimp only at e
  repeat' split at e
  all_goals (cases e; repeat' (first | with_reducible assumption | with_reducible apply laneRx_keeps | with_reducible exact Keeps.refl | intro _ | split | dsimp only))

end Sys2Proof.Machine
end

