-- ==== Sys2Proof/Laws/KeepsPwr.lean ====
section
/-! SUPPORT. Sys2Proof/Laws/KeepsPwr.lean: what the operations of Machine/Pwr.lean keep of a state. -/
namespace Sys2Proof.Machine

theorem setPwr_keeps {s t : State} (h : Keeps s t) (a0 : PwrSt) : Keeps s (setPwr a0 t) := by
  unfold setPwr
  repeat' (first | with_reducible assumption | with_reducible exact Keeps.refl | (with_reducible refine Keeps.upd ?_ (by with_reducible rfl); first | with_reducible assumption | with_reducible exact Keeps.refl | split) | intro _ | split | dsimp only)

theorem noteSupply_keeps {s t : State} (h : Keeps s t) (a0 : Nat) : Keeps s (noteSupply a0 t) := by
  unfold noteSupply
  repeat' (first | with_reducible assumption | with_reducible apply logPage_keeps | with_reducible apply raise_keeps | with_reducible exact Keeps.refl | intro _ | split | dsimp only)

theorem showVolts_keeps {s t : State} (h : Keeps s t) (a0 : Field) (a1 : BitVec 16) : Keeps s (showVolts a0 a1 t) := by
  unfold showVolts
  repeat' (first | with_reducible assumption | with_reducible apply setF_keeps | with_reducible exact Keeps.refl | intro _ | split | dsimp only)

theorem settleSource_keeps {s t : State} (h : Keeps s t)  : Keeps s (settleSource t) := by
  unfold settleSource
  repeat' (first | with_reducible assumption | with_reducible apply setF_keeps | with_reducible apply setPwr_keeps | with_reducible exact Keeps.refl | intro _ | split | dsimp only)

theorem cancelEntry_keeps {s t : State} (h : Keeps s t)  : Keeps s (cancelEntry t) := by
  unfold cancelEntry
  repeat' (first | with_reducible assumption | with_reducible apply setPwr_keeps | with_reducible apply done_keeps | with_reducible exact Keeps.refl | intro _ | split | dsimp only)

theorem mainOk_keeps {s t : State} (h : Keeps s t) (a0 : BitVec 16) : Keeps s (mainOk a0 t) := by
  unfold mainOk
  repeat' (first | with_reducible assumption | with_reducible apply settleSource_keeps | with_reducible apply setB_keeps | with_reducible apply showVolts_keeps | with_reducible apply wake_keeps | with_reducible apply cancelEntry_keeps | with_reducible apply noteSupply_keeps | with_reducible apply setPwr_keeps | with_reducible exact Keeps.refl | intro _ | split | dsimp only)

theorem execMainOk_keeps {s t u : State} (h : Keeps s t) (a0 : BitVec 16) (e : execMainOk a0 t = .next u) : Keeps s u := by
  unfold execMainOk at e
  try dsimp only at e
  repeat' split at e
  all_goals (cases e; repeat' (first | with_reducible assumption | with_reducible apply mainOk_keeps | with_reducible exact Keeps.refl | intro _ | split | dsimp only))

theorem execMainFailed_keeps {s t u : State} (h : Keeps s t) (a0 : BitVec 16) (e : execMainFailed a0 t = .next u) : Keeps s u := by
  unfold execMainFailed at e
  try dsimp only at e
  repeat' split at e
  all_goals (cases e; repeat' (first | with_reducible assumption | with_reducible apply settleSource_keeps | with_reducible apply setB_keeps | with_reducible apply showVolts_keeps | with_reducible apply noteSupply_keeps | with_reducible exact Keeps.refl | intro _ | split | dsimp only))

theorem execBackupStandbyReturn_keeps {s t u : State} (h : Keeps s t)  (e : execBackupStandbyReturn t = .next u) : Keeps s u := by
  unfold execBackupStandbyReturn at e
  try dsimp only at e
  repeat' split at e
  all_goals (cases e; repeat' (first | with_reducible assumption | with_reducible apply setPwr_keeps | with_reducible exact Keeps.refl | intro _ | split | dsimp only))

theorem execBackupOk_keeps {s t u : State} (h : Keeps s t) (a0 : BitVec 16) (e : execBackupOk a0 t = .next u) : Keeps s u := by
  unfold execBackupOk at e
  try dsimp only at e
  repeat' split at e
  all_goals (cases e; repeat' (first | with_reducible assumption | with_reducible apply setB_keeps | with_reducible apply showVolts_keeps | with_reducible apply settleSource_keeps | with_reducible apply raise_keeps | with_reducible exact Keeps.refl | intro _ | split | dsimp only))

theorem execBackupFailed_keeps {s t u : State} (h : Keeps s t) (a0 : BitVec 16) (a1 : Bool) (e : execBackupFailed a0 a1 t = .next u) : Keeps s u := by
  unfold execBackupFailed at e
  try dsimp only at e
  repeat' split at e
  all_goals (cases e; repeat' (first | with_reducible assumption | with_reducible apply setB_keeps | with_reducible apply showVolts_keeps | with_reducible apply settleSource_keeps | with_reducible apply raise_keeps | with_reducible apply noteSupply_keeps | with_reducible exact Keeps.refl | intro _ | split | dsimp only))

theorem execBackupLow_keeps {s t u : State} (h : Keeps s t) (a0 : BitVec 16) (e : execBackupLow a0 t = .next u) : Keeps s u := by
  unfold execBackupLow at e
  try dsimp only at e
  repeat' split at e
  all_goals (cases e; repeat' (first | with_reducible assumption | with_reducible apply noteSupply_keeps | with_reducible apply showVolts_keeps | with_reducible exact Keeps.refl | intro _ | split | dsimp only))

theorem endStore_keeps {s t : State} (h : Keeps s t)  : Keeps s (endStore t) := by
  unfold endStore
  repeat' (first | with_reducible assumption | with_reducible apply finishBlocks_keeps | with_reducible exact Keeps.refl | intro _ | split | dsimp only)

theorem enterDormouse_keeps {s t : State} (h : Keeps s t)  : Keeps s (enterDormouse t) := by
  unfold enterDormouse
  repeat' (first | with_reducible assumption | with_reducible apply endStore_keeps | with_reducible apply stopSelfCal_keeps | with_reducible apply allDriversOff_keeps | with_reducible apply linkTime_keeps | with_reducible apply logFlush_keeps | with_reducible apply logEvent_keeps | with_reducible apply done_keeps | with_reducible apply lose_keeps | with_reducible apply resetCommands_keeps | with_reducible apply setPwr_keeps | with_reducible apply resetKill_keeps | with_reducible exact Keeps.refl | intro _ | split | dsimp only)

theorem runEnterDormouse_keeps {s t : State} (h : Keeps s t) (a0 : Outstanding) : Keeps s (runEnterDormouse a0 t) := by
  unfold runEnterDormouse
  repeat' (first | with_reducible assumption | with_reducible apply enterDormouse_keeps | with_reducible apply done_keeps | with_reducible exact Keeps.refl | intro _ | split | dsimp only)

theorem execEnterDormouse_keeps {s t u : State} (h : Keeps s t) (a0 : CmdSrc) (e : execEnterDormouse a0 t = .next u) : Keeps s u := by
  unfold execEnterDormouse at e
  try dsimp only at e
  repeat' split at e
  all_goals (cases e; repeat' (first | with_reducible assumption | with_reducible apply issue_keeps | with_reducible apply runEnterDormouse_keeps | with_reducible exact Keeps.refl | intro _ | split | dsimp only))

theorem execDormOnLowExpiry_keeps {s t u : State} (h : Keeps s t)  (e : execDormOnLowExpiry t = .next u) : Keeps s u := by
  unfold execDormOnLowExpiry at e
  try dsimp only at e
  repeat' split at e
  all_goals (cases e; repeat' (first | with_reducible assumption | with_reducible apply enterDormouse_keeps | with_reducible exact Keeps.refl | intro _ | split | dsimp only))

theorem execOutageDelayExpiry_keeps {s t u : State} (h : Keeps s t)  (e : execOutageDelayExpiry t = .next u) : Keeps s u := by
  unfold execOutageDelayExpiry at e
  try dsimp only at e
  repeat' split at e
  all_goals (cases e; repeat' (first | with_reducible assumption | with_reducible apply setPwr_keeps | with_reducible exact Keeps.refl | intro _ | split | dsimp only))

theorem runEnterOutage_keeps {s t : State} (h : Keeps s t) (a0 : Outstanding) : Keeps s (runEnterOutage a0 t) := by
  unfold runEnterOutage
  repeat' (first | with_reducible assumption | with_reducible apply done_keeps | with_reducible exact Keeps.refl | intro _ | split | dsimp only)

theorem execEnterOutage_keeps {s t u : State} (h : Keeps s t) (a0 : CmdSrc) (e : execEnterOutage a0 t = .next u) : Keeps s u := by
  unfold execEnterOutage at e
  try dsimp only at e
  repeat' split at e
  all_goals (cases e; repeat' (first | with_reducible assumption | with_reducible apply issue_keeps | with_reducible apply runEnterOutage_keeps | with_reducible exact Keeps.refl | intro _ | split | dsimp only))

theorem runLeaveOutage_keeps {s t : State} (h : Keeps s t) (a0 : Outstanding) : Keeps s (runLeaveOutage a0 t) := by
  unfold runLeaveOutage
  repeat' (first | with_reducible assumption | with_reducible apply done_keeps | with_reducible exact Keeps.refl | intro _ | split | dsimp only)

theorem execLeaveOutage_keeps {s t u : State} (h : Keeps s t) (a0 : CmdSrc) (e : execLeaveOutage a0 t = .next u) : Keeps s u := by
  unfold execLeaveOutage at e
  try dsimp only at e
  repeat' split at e
  all_goals (cases e; repeat' (first | with_reducible assumption | with_reducible apply issue_keeps | with_reducible apply runLeaveOutage_keeps | with_reducible exact Keeps.refl | intro _ | split | dsimp only))

theorem decidePower_keeps {s t : State} (h : Keeps s t)  : Keeps s (decidePower t) := by
  unfold decidePower
  repeat' (first | with_reducible assumption | with_reducible apply done_keeps | with_reducible apply setPhase_keeps | with_reducible apply setPwr_keeps | with_reducible apply noteSupply_keeps | with_reducible exact Keeps.refl | intro _ | split | dsimp only)

theorem plannedState_keeps {s t : State} (h : Keeps s t)  : Keeps s (plannedState t) := by
  unfold plannedState
  repeat' (first | with_reducible assumption | with_reducible apply setPwr_keeps | with_reducible exact Keeps.refl | intro _ | split | dsimp only)

theorem followPower_keeps {s t : State} (h : Keeps s t)  : Keeps s (followPower t) := by
  unfold followPower
  repeat' (first | with_reducible assumption | with_reducible apply refreshChain_keeps | with_reducible apply laneFall_keeps | with_reducible apply mirrorFall_keeps | with_reducible apply refreshGate_keeps | with_reducible apply refreshEngines_keeps | with_reducible apply Keeps.foldl | with_reducible exact Keeps.refl | intro _ | split | dsimp only)

theorem applyPower_keeps {s t : State} (h : Keeps s t)  : Keeps s (applyPower t) := by
  unfold applyPower
  repeat' (first | with_reducible assumption | with_reducible apply setF_keeps | with_reducible apply setPwr_keeps | with_reducible apply linkTime_keeps | with_reducible apply followPower_keeps | with_reducible apply raise_keeps | with_reducible apply done_keeps | with_reducible exact Keeps.refl | intro _ | split | dsimp only)

theorem abortPower_keeps {s t : State} (h : Keeps s t) (a0 : Outstanding) : Keeps s (abortPower a0 t) := by
  unfold abortPower
  repeat' (first | with_reducible assumption | with_reducible apply done_keeps | with_reducible apply setPwr_keeps | with_reducible exact Keeps.refl | intro _ | split | dsimp only)

theorem gaspMirror_keeps {s t : State} (h : Keeps s t) (a0 : Fin 2) (a1 : TunnelFrame) : Keeps s (gaspMirror a0 a1 t) := by
  unfold gaspMirror
  repeat' (first | with_reducible assumption | with_reducible apply count_keeps | with_reducible apply emit_keeps | with_reducible exact Keeps.refl | intro _ | split | dsimp only)

theorem deliverEvents_keeps {s t : State} (h : Keeps s t) (a0 : Nat) : Keeps s (deliverEvents a0 t) := by
  induction a0 generalizing t with
  | zero =>
    unfold deliverEvents
    repeat' (first | with_reducible assumption | with_reducible apply ih | with_reducible apply eventDelivery_keeps | with_reducible exact Keeps.refl | intro _ | split | dsimp only)
  | succ _ ih =>
    unfold deliverEvents
    repeat' (first | with_reducible assumption | with_reducible apply ih | with_reducible apply eventDelivery_keeps | with_reducible exact Keeps.refl | intro _ | split | dsimp only)

theorem sendLastGasp_keeps {s t : State} (h : Keeps s t) (a0 : Nat) : Keeps s (sendLastGasp a0 t) := by
  unfold sendLastGasp
  repeat' (first | with_reducible assumption | with_reducible apply laneSend_keeps | with_reducible apply gaspMirror_keeps | with_reducible apply hostEvent_keeps | with_reducible apply deliverEvents_keeps | with_reducible apply Keeps.foldl | with_reducible exact Keeps.refl | intro _ | split | dsimp only)

theorem execTestLastGasp_keeps {s t u : State} (h : Keeps s t) (a0 : CmdSrc) (e : execTestLastGasp a0 t = .next u) : Keeps s u := by
  unfold execTestLastGasp at e
  try dsimp only at e
  repeat' split at e
  all_goals (cases e; repeat' (first | with_reducible assumption | with_reducible apply issue_keeps | with_reducible apply done_keeps | with_reducible apply sendLastGasp_keeps | with_reducible exact Keeps.refl | intro _ | split | dsimp only))

theorem shedLoad_keeps {s t : State} (h : Keeps s t)  : Keeps s (shedLoad t) := by
  unfold shedLoad
  repeat' (first | with_reducible assumption | with_reducible apply diagReport_keeps | with_reducible apply kill_keeps | with_reducible apply gateCluster_keeps | with_reducible apply setPwr_keeps | with_reducible apply Keeps.foldl | with_reducible exact Keeps.refl | intro _ | split | dsimp only)

theorem closeStore_keeps {s t : State} (h : Keeps s t) (a0 : Nat) (a1 : Nat) : Keeps s (closeStore a0 a1 t) := by
  unfold closeStore
  repeat' (first | with_reducible assumption | with_reducible apply setReady_keeps | with_reducible apply stopBlocks_keeps | with_reducible apply logFlush_keeps | with_reducible apply linkTime_keeps | with_reducible apply logEvent_keeps | with_reducible exact Keeps.refl | intro _ | split | dsimp only)

theorem goOff_keeps {s t : State} (h : Keeps s t)  : Keeps s (goOff t) := by
  unfold goOff
  repeat' (first | with_reducible assumption | with_reducible apply lose_keeps | with_reducible apply resetCommands_keeps | with_reducible apply setPwr_keeps | with_reducible exact Keeps.refl | intro _ | split | dsimp only)

theorem bothFailed_keeps {s t : State} (h : Keeps s t) (a0 : BitVec 16) (a1 : BitVec 16) (a2 : Bool) (a3 : Nat) : Keeps s (bothFailed a0 a1 a2 a3 t) := by
  unfold bothFailed
  repeat' (first | with_reducible assumption | with_reducible apply showVolts_keeps | with_reducible apply setB_keeps | with_reducible apply setF_keeps | with_reducible apply shedLoad_keeps | with_reducible apply closeStore_keeps | with_reducible apply sendLastGasp_keeps | with_reducible exact Keeps.refl | intro _ | split | dsimp only)

theorem execBothFailed_keeps {s t u : State} (h : Keeps s t) (main backup : BitVec 16) (together : Bool) (blocks : Nat) (e : execBothFailed main backup together blocks t = .next u) : Keeps s u := by
  unfold execBothFailed at e
  obtain rfl := Host.Outcome.next.inj e
  split
  · exact goOff_keeps h
  · split
    · exact bothFailed_keeps h _ _ _ _
    · exact h

theorem powerOn_keeps {s t : State} (h : Keeps s t) (a0 : Bool) (a1 : Bool) (a2 : BitVec 16) (a3 : Bool) : Keeps s (powerOn a0 a1 a2 a3 t) := by
  unfold powerOn
  repeat' (first | with_reducible assumption | with_reducible apply restart_keeps | with_reducible apply setB_keeps | with_reducible apply settleSource_keeps | with_reducible apply showVolts_keeps | with_reducible exact Keeps.refl | (with_reducible refine Keeps.upd ?_ (by with_reducible rfl); first | with_reducible assumption | with_reducible apply restart_keeps | with_reducible apply setB_keeps | with_reducible apply settleSource_keeps | with_reducible apply showVolts_keeps | with_reducible exact Keeps.refl | split) | intro _ | split | dsimp only)

theorem execPowerOn_keeps {s t u : State} (h : Keeps s t) (a0 : Bool) (a1 : BitVec 16) (a2 : Bool) (e : execPowerOn a0 a1 a2 t = .next u) : Keeps s u := by
  unfold execPowerOn at e
  try dsimp only at e
  repeat' split at e
  all_goals (cases e; repeat' (first | with_reducible assumption | with_reducible apply powerOn_keeps | with_reducible exact Keeps.refl | intro _ | split | dsimp only))

theorem execShutdownComplete_keeps {s t u : State} (h : Keeps s t)  (e : execShutdownComplete  t = .next u) : Keeps s u := by
  unfold execShutdownComplete at e
  obtain rfl := Host.Outcome.next.inj e
  split
  · exact h
  · dsimp only
    split
    · exact powerOn_keeps (goOff_keeps h) _ _ _ _
    · exact goOff_keeps h

theorem execRtcAlarm_keeps {s t u : State} (h : Keeps s t)  (e : execRtcAlarm t = .next u) : Keeps s u := by
  unfold execRtcAlarm at e
  try dsimp only at e
  repeat' split at e
  all_goals (cases e; repeat' (first | with_reducible assumption | with_reducible apply wake_keeps | with_reducible apply raise_keeps | with_reducible exact Keeps.refl | (with_reducible refine Keeps.upd ?_ (by with_reducible rfl); first | with_reducible assumption | with_reducible apply wake_keeps | with_reducible apply raise_keeps | with_reducible exact Keeps.refl | split) | intro _ | split | dsimp only))

theorem execPwrRtcLoRead_keeps {s t u : State} (h : Keeps s t)  (e : execPwrRtcLoRead t = .next u) : Keeps s u := by
  unfold execPwrRtcLoRead at e
  try dsimp only at e
  repeat' split at e
  all_goals (cases e; repeat' (first | with_reducible assumption | with_reducible apply returnWord_keeps | with_reducible exact Keeps.refl | (with_reducible refine Keeps.upd ?_ (by with_reducible rfl); first | with_reducible assumption | with_reducible apply returnWord_keeps | with_reducible exact Keeps.refl | split) | intro _ | split | dsimp only))

theorem execPwrRtcAlarmLoWrite_keeps {s t u : State} (h : Keeps s t) (a0 : Word) (e : execPwrRtcAlarmLoWrite a0 t = .next u) : Keeps s u := by
  unfold execPwrRtcAlarmLoWrite at e
  try dsimp only at e
  repeat' split at e
  all_goals (cases e; repeat' (first | with_reducible assumption | with_reducible apply setReg_keeps | with_reducible apply setPwr_keeps | with_reducible exact Keeps.refl | intro _ | split | dsimp only))

end Sys2Proof.Machine
end

