-- ==== Sys2Proof/Laws/KeepsGrid.lean ====
section
/-! SUPPORT. Sys2Proof/Laws/KeepsGrid.lean: what the operations of Machine/Grid.lean keep of a state. -/
namespace Sys2Proof.Machine

theorem setEpoch_keeps {s t : State} (h : Keeps s t) (a0 : Option Nat) : Keeps s (setEpoch a0 t) := by
  unfold setEpoch
  repeat' (first | with_reducible assumption | with_reducible apply setB_keeps | with_reducible exact Keeps.refl | (with_reducible refine Keeps.upd ?_ (by with_reducible rfl); first | with_reducible assumption | with_reducible apply setB_keeps | with_reducible exact Keeps.refl | split) | intro _ | split | dsimp only)

theorem epochWritten_keeps {s t : State} (h : Keeps s t)  : Keeps s (epochWritten t) := by
  unfold epochWritten
  repeat' (first | with_reducible assumption | with_reducible apply setEpoch_keeps | with_reducible exact Keeps.refl | intro _ | split | dsimp only)

theorem setNbMap_keeps {s t : State} (h : Keeps s t) (a0 : Nat) : Keeps s (setNbMap a0 t) := by
  unfold setNbMap
  repeat' (first | with_reducible assumption | with_reducible apply setF_keeps | with_reducible exact Keeps.refl | intro _ | split | dsimp only)

theorem trimNbMap_keeps {s t : State} (h : Keeps s t)  : Keeps s (trimNbMap t) := by
  unfold trimNbMap
  repeat' (first | with_reducible assumption | with_reducible apply setNbMap_keeps | with_reducible apply raise_keeps | with_reducible exact Keeps.refl | intro _ | split | dsimp only)

theorem applyNbMap_keeps {s t : State} (h : Keeps s t)  : Keeps s (applyNbMap t) := by
  unfold applyNbMap
  repeat' (first | with_reducible assumption | with_reducible apply setNbMap_keeps | with_reducible apply raise_keeps | with_reducible apply countErr_keeps | with_reducible exact Keeps.refl | intro _ | split | dsimp only)

theorem takeBcnCfg_keeps {s t : State} (h : Keeps s t)  : Keeps s (takeBcnCfg t) := by
  unfold takeBcnCfg
  repeat' (first | with_reducible assumption | with_reducible exact Keeps.refl | (with_reducible refine Keeps.upd ?_ (by with_reducible rfl); first | with_reducible assumption | with_reducible exact Keeps.refl | split) | intro _ | split | dsimp only)

theorem takeMaps_keeps {s t : State} (h : Keeps s t)  : Keeps s (takeMaps t) := by
  unfold takeMaps
  repeat' (first | with_reducible assumption | with_reducible apply takeBcnCfg_keeps | with_reducible apply setF_keeps | with_reducible apply applyNbMap_keeps | with_reducible exact Keeps.refl | intro _ | split | dsimp only)

theorem applyEpoch_keeps {s t : State} (h : Keeps s t) : Keeps s (applyEpoch t) := by
  unfold applyEpoch
  split
  · exact h
  · have k := setEpoch_keeps (takeMaps_keeps h) none
    generalize setEpoch none (takeMaps t) = u at k ⊢
    dsimp only
    split
    · exact raise_keeps k _ _
    · exact k

theorem foreseen_keeps {s t : State} (h : Keeps s t)  : Keeps s (foreseen t) := by
  unfold foreseen
  repeat' (first | with_reducible assumption | with_reducible apply plannedState_keeps | with_reducible apply setStage_keeps | with_reducible apply setF_keeps | with_reducible exact Keeps.refl | intro _ | split | dsimp only)

theorem asPresent_keeps {s t : State} (h : Keeps s t) (a0 : State) : Keeps s (asPresent a0 t) := by
  unfold asPresent
  repeat' (first | with_reducible assumption | with_reducible apply setPwr_keeps | with_reducible apply setStage_keeps | with_reducible apply setF_keeps | with_reducible exact Keeps.refl | intro _ | split | dsimp only)

theorem fillPlan_keeps {s t : State} (h : Keeps s t) (a0 : List GrantWish) : Keeps s (fillPlan a0 t) := by
  unfold fillPlan
  repeat' (first | with_reducible assumption | with_reducible apply planJoinUps_keeps | with_reducible apply planFrames_keeps | with_reducible apply askGrants_keeps | with_reducible apply planPeriodic_keeps | with_reducible apply planLaneBeacons_keeps | with_reducible apply planBeacons_keeps | with_reducible apply planUplink_keeps | with_reducible exact Keeps.refl | intro _ | split | dsimp only)

theorem planFix_keeps {s t : State} (h : Keeps s t) (a0 : List GrantWish) : Keeps s (planFix a0 t) := by
  unfold planFix
  repeat' (first | with_reducible assumption | with_reducible apply changeE_keeps | with_reducible apply fixWindows_keeps | with_reducible apply bbFix_keeps | with_reducible apply nbFix_keeps | with_reducible apply decidePower_keeps | with_reducible apply prunePlan_keeps | with_reducible apply recoverFrames_keeps | with_reducible apply asPresent_keeps | with_reducible apply fillPlan_keeps | with_reducible apply foreseen_keeps | with_reducible apply sendBeaconState_keeps | with_reducible apply handoverCheck_keeps | with_reducible apply flushLanes_keeps | with_reducible exact Keeps.refl | (with_reducible refine Keeps.upd ?_ (by with_reducible rfl); first | with_reducible assumption | with_reducible apply changeE_keeps | with_reducible apply fixWindows_keeps | with_reducible apply bbFix_keeps | with_reducible apply nbFix_keeps | with_reducible apply decidePower_keeps | with_reducible apply prunePlan_keeps | with_reducible apply recoverFrames_keeps | with_reducible apply asPresent_keeps | with_reducible apply fillPlan_keeps | with_reducible apply foreseen_keeps | with_reducible apply sendBeaconState_keeps | with_reducible apply handoverCheck_keeps | with_reducible apply flushLanes_keeps | with_reducible exact Keeps.refl | split) | intro _ | split | dsimp only)

theorem execPlanFix_keeps {s t u : State} (h : Keeps s t) (a0 : List GrantWish) (e : execPlanFix a0 t = .next u) : Keeps s u := by
  unfold execPlanFix at e
  try dsimp only at e
  repeat' split at e
  all_goals (cases e; repeat' (first | with_reducible assumption | with_reducible apply planFix_keeps | with_reducible exact Keeps.refl | intro _ | split | dsimp only))

theorem slotStart_keeps {s t : State} (h : Keeps s t) (a0 : Nat) : Keeps s (slotStart a0 t) := by
  unfold slotStart
  repeat' (first | with_reducible assumption | with_reducible apply flushLanes_keeps | with_reducible apply tickPauses_keeps | with_reducible apply closeWindow_keeps | with_reducible exact Keeps.refl | (with_reducible refine Keeps.upd ?_ (by with_reducible rfl); first | with_reducible assumption | with_reducible apply flushLanes_keeps | with_reducible apply tickPauses_keeps | with_reducible apply closeWindow_keeps | with_reducible exact Keeps.refl | split) | intro _ | split | dsimp only)

theorem execSlotStart_keeps {s t u : State} (h : Keeps s t) (a0 : Fin 1024) (e : execSlotStart a0 t = .next u) : Keeps s u := by
  unfold execSlotStart at e
  try dsimp only at e
  repeat' split at e
  all_goals (cases e; repeat' (first | with_reducible assumption | with_reducible apply slotStart_keeps | with_reducible exact Keeps.refl | intro _ | split | dsimp only))

theorem logSuperframe_keeps {s t : State} (h : Keeps s t)  : Keeps s (logSuperframe t) := by
  unfold logSuperframe
  repeat' (first | with_reducible assumption | with_reducible apply logDrops_keeps | with_reducible apply logPage_keeps | with_reducible apply setMac_keeps | with_reducible apply Keeps.macTable | with_reducible apply Keeps.macParked | with_reducible apply Keeps.macRelays | with_reducible apply Keeps.macCache | with_reducible apply Map.wf_set | with_reducible apply Map.wf_filter | with_reducible exact Map.wf_nil | with_reducible exact Keeps.refl | (with_reducible refine Keeps.upd ?_ (by with_reducible rfl); first | with_reducible assumption | with_reducible apply logDrops_keeps | with_reducible apply logPage_keeps | with_reducible apply setMac_keeps | with_reducible apply Keeps.macTable | with_reducible apply Keeps.macParked | with_reducible apply Keeps.macRelays | with_reducible apply Keeps.macCache | with_reducible apply Map.wf_set | with_reducible apply Map.wf_filter | with_reducible exact Map.wf_nil | with_reducible exact Keeps.refl | split) | intro _ | split | dsimp only)

theorem advance_keeps {s t : State} (h : Keeps s t)  : Keeps s (advance t) := by
  unfold advance
  repeat' (first | with_reducible assumption | with_reducible apply setF_keeps | with_reducible exact Keeps.refl | (with_reducible refine Keeps.upd ?_ (by with_reducible rfl); first | with_reducible assumption | with_reducible apply setF_keeps | with_reducible exact Keeps.refl | split) | intro _ | split | dsimp only)

theorem takeDwellCfg_keeps {s t : State} (h : Keeps s t)  : Keeps s (takeDwellCfg t) := by
  unfold takeDwellCfg
  repeat' (first | with_reducible assumption | with_reducible exact Keeps.refl | (with_reducible refine Keeps.upd ?_ (by with_reducible rfl); first | with_reducible assumption | with_reducible exact Keeps.refl | split) | intro _ | split | dsimp only)

theorem keepLastMap_keeps {s t : State} (h : Keeps s t)  : Keeps s (keepLastMap t) := by
  unfold keepLastMap
  repeat' (first | with_reducible assumption | with_reducible exact Keeps.refl | (with_reducible refine Keeps.upd ?_ (by with_reducible rfl); first | with_reducible assumption | with_reducible exact Keeps.refl | split) | intro _ | split | dsimp only)

theorem applyWaves_keeps {s t : State} (h : Keeps s t) : Keeps s (applyWaves t) := by
  have k : Keeps s (bbBoundary (sfn t) (trimNbMap (nbBoundary (sfn t) (applyDecls (keepLastMap t))))) :=
    bbBoundary_keeps (trimNbMap_keeps (nbBoundary_keeps (applyDecls_keeps (keepLastMap_keeps h)) _)) _
  unfold applyWaves
  generalize bbBoundary (sfn t) (trimNbMap (nbBoundary (sfn t) (applyDecls (keepLastMap t)))) = u at k ⊢
  dsimp only
  split
  · exact k
  · exact capPorts_keeps k

theorem applyPending_keeps {s t : State} (h : Keeps s t) : Keeps s (applyPending t) :=
  Keeps.foldl (fun _ _ k => calStart_keeps k _) (bqBoundary_keeps (ncalBoundary_keeps (takeDwellCfg_keeps (applyEpoch_keeps (applyWaves_keeps h)))))

theorem showNoise_keeps {s t : State} (h : Keeps s t) (a0 : List NoiseReading) : Keeps s (showNoise a0 t) := by
  unfold showNoise
  repeat' (first | with_reducible assumption | with_reducible apply setF_keeps | with_reducible apply Keeps.foldl | with_reducible exact Keeps.refl | intro _ | split | dsimp only)

theorem checkPtp_keeps {s t : State} (h : Keeps s t)  : Keeps s (checkPtp t) := by
  unfold checkPtp
  repeat' (first | with_reducible assumption | with_reducible apply raise_keeps | with_reducible apply setB_keeps | with_reducible exact Keeps.refl | intro _ | split | dsimp only)

theorem checkParent_keeps {s t : State} (h : Keeps s t)  : Keeps s (checkParent t) := by
  unfold checkParent
  repeat' (first | with_reducible assumption | with_reducible apply setB_keeps | with_reducible exact Keeps.refl | intro _ | split | dsimp only)

theorem superviseAll_keeps {s t : State} (h : Keeps s t)  : Keeps s (superviseAll t) := by
  unfold superviseAll
  repeat' (first | with_reducible assumption | with_reducible apply supervise_keeps | with_reducible apply Keeps.foldl | with_reducible exact Keeps.refl | intro _ | split | dsimp only)

theorem dropStale_keeps {s t : State} (h : Keeps s t)  : Keeps s (dropStale t) := by
  unfold dropStale
  repeat' (first | with_reducible assumption | with_reducible exact Keeps.refl | (with_reducible refine Keeps.upd ?_ (by with_reducible rfl); first | with_reducible assumption | with_reducible exact Keeps.refl | split) | intro _ | split | dsimp only | (with_reducible refine Keeps.updTable ?_ (fun w => by simp only [State.wf, State.hostWf, State.lineWf, State.memWf, State.serviceWf, Bool.and_eq_true] at w ⊢; simp_all only [Map.wf_set, Map.wf_filter, Map.wf_mapVals, Map.wf_nil, and_self]); first | with_reducible assumption | with_reducible exact Keeps.refl | split))

theorem countListened_keeps {s t : State} (h : Keeps s t)  : Keeps s (countListened t) := by
  unfold countListened
  repeat' (first | with_reducible assumption | with_reducible exact Keeps.refl | (with_reducible refine Keeps.upd ?_ (by with_reducible rfl); first | with_reducible assumption | with_reducible exact Keeps.refl | split) | intro _ | split | dsimp only)

theorem showStart_keeps {s t : State} (h : Keeps s t)  : Keeps s (showStart t) := by
  unfold showStart
  repeat' (first | with_reducible assumption | with_reducible apply raise_keeps | with_reducible apply setB_keeps | with_reducible exact Keeps.refl | intro _ | split | dsimp only)

theorem superframeStart_keeps {s t : State} (h : Keeps s t) (noise : List NoiseReading) (x : TruHold) : Keeps s (superframeStart noise x t) := by
  have k : Keeps s (engBoundary (applyPending (showNoise noise (applyPower (advance (logSuperframe t)))))) :=
    engBoundary_keeps (applyPending_keeps (showNoise_keeps (applyPower_keeps (advance_keeps (logSuperframe_keeps h))) _))
  have k2 := superviseAll_keeps (roleSwap_keeps (applyBkey_keeps (pruneOccs_keeps (dropStale_keeps k))) x)
  exact showStart_keeps (flushLanes_keeps (tickPauses_keeps (sendLaneBeacons_keeps (checkParent_keeps (checkPtp_keeps (countListened_keeps k2))))))

theorem execSuperframeStart_keeps {s t u : State} (h : Keeps s t) (a0 : List NoiseReading) (a1 : TruHold) (e : execSuperframeStart a0 a1 t = .next u) : Keeps s u := by
  unfold execSuperframeStart at e
  try dsimp only at e
  repeat' split at e
  all_goals (cases e; repeat' (first | with_reducible assumption | with_reducible apply superframeStart_keeps | with_reducible exact Keeps.refl | intro _ | split | dsimp only))

end Sys2Proof.Machine
end

