-- ==== Sys2Proof/Laws/KeepsTicket.lean ====
section
/-! SUPPORT. Sys2Proof/Laws/KeepsTicket.lean: what the operations of Machine/Ticket.lean keep of a state. -/
namespace Sys2Proof.Machine

theorem setChallenge_keeps {s t : State} (h : Keeps s t) (a0 : Option (Nat × Nat)) : Keeps s (setChallenge a0 t) := by
  unfold setChallenge
  repeat' (first | with_reducible assumption | with_reducible apply setF_keeps | with_reducible apply setB_keeps | with_reducible exact Keeps.refl | (with_reducible refine Keeps.upd ?_ (by with_reducible rfl); first | with_reducible assumption | with_reducible apply setF_keeps | with_reducible apply setB_keeps | with_reducible exact Keeps.refl | split) | intro _ | split | dsimp only)

theorem runChallenge_keeps {s t : State} (h : Keeps s t) (a0 : Outstanding) : Keeps s (runChallenge a0 t) := by
  unfold runChallenge
  repeat' (first | with_reducible assumption | with_reducible apply draw_keeps | with_reducible apply done_keeps | with_reducible apply setChallenge_keeps | (refine draw_keeps_eq ?_ (by assumption)) | with_reducible exact Keeps.refl | intro _ | split | dsimp only)

theorem execChallenge_keeps {s t u : State} (h : Keeps s t) (a0 : CmdSrc) (e : execChallenge a0 t = .next u) : Keeps s u := by
  unfold execChallenge at e
  try dsimp only at e
  repeat' split at e
  all_goals (cases e; repeat' (first | with_reducible assumption | with_reducible apply issue_keeps | with_reducible apply runChallenge_keeps | with_reducible exact Keeps.refl | intro _ | split | dsimp only))

theorem execChallengeExpiry_keeps {s t u : State} (h : Keeps s t)  (e : execChallengeExpiry t = .next u) : Keeps s u := by
  unfold execChallengeExpiry at e
  try dsimp only at e
  repeat' split at e
  all_goals (cases e; repeat' (first | with_reducible assumption | with_reducible apply raise_keeps | with_reducible apply setChallenge_keeps | with_reducible exact Keeps.refl | intro _ | split | dsimp only))

theorem setKeys_keeps {s t : State} (h : Keeps s t) (a0 : KeyStore) : Keeps s (setKeys a0 t) := by
  unfold setKeys
  repeat' (first | with_reducible assumption | with_reducible exact Keeps.refl | (with_reducible refine Keeps.upd ?_ (by with_reducible rfl); first | with_reducible assumption | with_reducible exact Keeps.refl | split) | intro _ | split | dsimp only)

theorem setHolders_keeps {s t : State} (h : Keeps s t) (a0 : Nat) (a1 : List Holder) : Keeps s (setHolders a0 a1 t) := by
  unfold setHolders
  repeat' (first | with_reducible assumption | with_reducible apply setF_keeps | with_reducible apply setKeys_keeps | with_reducible apply setB_keeps | with_reducible exact Keeps.refl | intro _ | split | dsimp only)

theorem afterProtected_keeps {s t : State} (h : Keeps s t) (a0 : Page) : Keeps s (afterProtected a0 t) := by
  unfold afterProtected
  repeat' (first | with_reducible assumption | with_reducible apply setB_keeps | with_reducible apply bbPending_keeps | with_reducible apply nbPending_keeps | with_reducible exact Keeps.refl | intro _ | split | dsimp only)

theorem applyItem_keeps {s t : State} (h : Keeps s t) (a0 : Item) : Keeps s (applyItem a0 t) := by
  unfold applyItem
  repeat' (first | with_reducible assumption | with_reducible apply setReg_keeps | with_reducible apply setHolders_keeps | with_reducible apply setKeys_keeps | with_reducible apply setF_keeps | with_reducible exact Keeps.refl | intro _ | split | dsimp only)

theorem bumpLock_keeps {s t : State} (h : Keeps s t) (a0 : Page) : Keeps s (bumpLock a0 t) := by
  unfold bumpLock
  repeat' (first | with_reducible assumption | with_reducible apply setReg_keeps | with_reducible exact Keeps.refl | intro _ | split | dsimp only)

theorem applied_keeps {s t : State} (h : Keeps s t) (a0 : Ticket) : Keeps s (applied a0 t) := by
  unfold applied
  repeat' (first | with_reducible assumption | with_reducible apply setF_keeps | with_reducible apply setKeys_keeps | with_reducible apply afterProtected_keeps | with_reducible apply bumpLock_keeps | with_reducible apply raise_keeps | with_reducible apply count_keeps | with_reducible apply done_keeps | with_reducible apply logEvent_keeps | with_reducible apply Keeps.foldl | with_reducible exact Keeps.refl | intro _ | split | dsimp only)

theorem refuseTicket_keeps {s t : State} (h : Keeps s t) (a0 : Nat) (a1 : Nat) : Keeps s (refuseTicket a0 a1 t) := by
  unfold refuseTicket
  repeat' (first | with_reducible assumption | with_reducible apply count_keeps | with_reducible apply complete_keeps | with_reducible apply logEvent_keeps | with_reducible apply raise_keeps | with_reducible exact Keeps.refl | intro _ | split | dsimp only)

theorem applyItems_keeps {s t u : State} (h : Keeps s t) (n : Nat) (l : List Item) (e : applyItems n l t = .ok u) : Keeps s u := by
  induction l generalizing t n with
  | nil => cases e; exact h
  | cons i r ih =>
    unfold applyItems at e
    split at e
    · exact ih (applyItem_keeps h _) _ e
    · cases e

theorem checkTicket_keeps {s t : State} (h : Keeps s t) (k : Ticket) (l : List Holder) (n : Nat) : Keeps s (checkTicket k l n t) := by
  unfold checkTicket
  extract_lets s1
  have k1 : Keeps s s1 := setChallenge_keeps h _
  clear_value s1
  repeat' split
  all_goals first | exact refuseTicket_keeps k1 _ _ | skip
  rename_i e _ _
  exact applied_keeps (applyItems_keeps k1 _ _ e) _

theorem runApply_keeps {s t : State} (h : Keeps s t) (a0 : Outstanding) : Keeps s (runApply a0 t) := by
  unfold runApply
  repeat' (first | with_reducible assumption | with_reducible apply refuseTicket_keeps | with_reducible apply checkTicket_keeps | with_reducible exact Keeps.refl | intro _ | split | dsimp only)

theorem execApply_keeps {s t u : State} (h : Keeps s t) (a0 : CmdSrc) (e : execApply a0 t = .next u) : Keeps s u := by
  unfold execApply at e
  try dsimp only at e
  repeat' split at e
  all_goals (cases e; repeat' (first | with_reducible assumption | with_reducible apply issue_keeps | with_reducible apply runApply_keeps | with_reducible exact Keeps.refl | intro _ | split | dsimp only))

theorem runCardSign_keeps {s t : State} (h : Keeps s t) (a0 : Outstanding) : Keeps s (runCardSign a0 t) := by
  unfold runCardSign
  repeat' (first | with_reducible assumption | with_reducible apply done_keeps | with_reducible apply startCard_keeps | with_reducible exact Keeps.refl | intro _ | split | dsimp only)

theorem execCardSign_keeps {s t u : State} (h : Keeps s t) (a0 : CmdSrc) (e : execCardSign a0 t = .next u) : Keeps s u := by
  unfold execCardSign at e
  try dsimp only at e
  repeat' split at e
  all_goals (cases e; repeat' (first | with_reducible assumption | with_reducible apply issue_keeps | with_reducible apply runCardSign_keeps | with_reducible exact Keeps.refl | intro _ | split | dsimp only))

theorem appendSig_keeps {s t : State} (h : Keeps s t) (a0 : Outstanding) (a1 : Nat) (a2 : List Byte) : Keeps s (appendSig a0 a1 a2 t) := by
  unfold appendSig
  repeat' (first | with_reducible assumption | with_reducible apply busWrite_keeps | with_reducible exact Keeps.refl | intro _ | split | dsimp only)

theorem cardReply_keeps {s t : State} (h : Keeps s t) (a0 : Serial) (a1 : List Byte) (a2 : Nat) : Keeps s (cardReply a0 a1 a2 t) := by
  unfold cardReply
  repeat' (first | with_reducible assumption | with_reducible apply setF_keeps | with_reducible apply cardError_keeps | with_reducible apply done_keeps | with_reducible apply deactivateCard_keeps | with_reducible apply sendCard_keeps | with_reducible apply appendSig_keeps | with_reducible exact Keeps.refl | intro _ | split | dsimp only)

theorem execCardStatusWord_keeps {s t u : State} (h : Keeps s t) (a0 : Serial) (a1 : List Byte) (a2 : BitVec 16) (e : execCardStatusWord a0 a1 a2 t = .next u) : Keeps s u := by
  unfold execCardStatusWord at e
  try dsimp only at e
  repeat' split at e
  all_goals (cases e; repeat' (first | with_reducible assumption | with_reducible apply cardReply_keeps | with_reducible exact Keeps.refl | intro _ | split | dsimp only))

theorem abortCardSign_keeps {s t u : State} {o : Outstanding} (h : Keeps s t) (e : abortCardSign o t = some u) : Keeps s u := by
  unfold abortCardSign at e
  dsimp only at e
  split at e
  · split at e
    · cases e
    · cases e
      exact done_keeps (deactivateCard_keeps h _) _ _
  · cases e

theorem runReadAuth_keeps {s t : State} (h : Keeps s t) (a0 : Outstanding) : Keeps s (runReadAuth a0 t) := by
  unfold runReadAuth
  repeat' (first | with_reducible assumption | with_reducible apply done_keeps | with_reducible apply busWrite_keeps | with_reducible exact Keeps.refl | intro _ | split | dsimp only)

theorem execReadAuth_keeps {s t u : State} (h : Keeps s t) (a0 : CmdSrc) (e : execReadAuth a0 t = .next u) : Keeps s u := by
  unfold execReadAuth at e
  try dsimp only at e
  repeat' split at e
  all_goals (cases e; repeat' (first | with_reducible assumption | with_reducible apply issue_keeps | with_reducible apply runReadAuth_keeps | with_reducible exact Keeps.refl | intro _ | split | dsimp only))

theorem runReadDevPub_keeps {s t : State} (h : Keeps s t) (a0 : Outstanding) : Keeps s (runReadDevPub a0 t) := by
  unfold runReadDevPub
  repeat' (first | with_reducible assumption | with_reducible apply done_keeps | with_reducible apply busWrite_keeps | with_reducible exact Keeps.refl | intro _ | split | dsimp only)

theorem execReadDevPub_keeps {s t u : State} (h : Keeps s t) (a0 : CmdSrc) (e : execReadDevPub a0 t = .next u) : Keeps s u := by
  unfold execReadDevPub at e
  try dsimp only at e
  repeat' split at e
  all_goals (cases e; repeat' (first | with_reducible assumption | with_reducible apply issue_keeps | with_reducible apply runReadDevPub_keeps | with_reducible exact Keeps.refl | intro _ | split | dsimp only))

end Sys2Proof.Machine
end

