-- ==== Sys2Proof/Laws/KeepsCmdDone.lean ====
section
/-! SUPPORT. Sys2Proof/Laws/KeepsCmdDone.lean: what the operations of Machine/CmdDone.lean keep of a state. -/
namespace Sys2Proof.Machine

theorem execNop_keeps {s t u : State} (h : Keeps s t) (a0 : Page) (a1 : CmdSrc) (e : execNop a0 a1 t = .next u) : Keeps s u := by
  unfold execNop at e
  try dsimp only at e
  repeat' split at e
  all_goals (cases e; repeat' (first | with_reducible assumption | with_reducible apply issue_keeps | with_reducible apply done_keeps | with_reducible exact Keeps.refl | intro _ | split | dsimp only))

theorem finishCommand_keeps {s t : State} (h : Keeps s t) (a0 : Page) (a1 : Outstanding) (a2 : CmdResult) : Keeps s (finishCommand a0 a1 a2 t) := by
  unfold finishCommand
  repeat' (first | with_reducible assumption | with_reducible apply finishVerify_keeps | with_reducible apply finishKillTest_keeps | with_reducible apply finishLoad_keeps | with_reducible apply finishImport_keeps | with_reducible apply finishSelfCal_keeps | with_reducible apply endBreak_keeps | with_reducible apply finishBlocks_keeps | with_reducible apply finishSelfTest_keeps | with_reducible apply finishReadWords_keeps | with_reducible apply finishEncodeFrame_keeps | with_reducible apply finishEncodeBurst_keeps | with_reducible apply finishTestBank_keeps | with_reducible apply finishCal_keeps | with_reducible exact Keeps.refl | intro _ | split | dsimp only)

theorem execCmdCompletion_keeps {s t u : State} (h : Keeps s t) (a0 : Page) (a1 : CmdResult) (e : execCmdCompletion a0 a1 t = .next u) : Keeps s u := by
  unfold execCmdCompletion at e
  try dsimp only at e
  repeat' split at e
  all_goals (cases e; repeat' (first | with_reducible assumption | with_reducible apply finishCommand_keeps | with_reducible exact Keeps.refl | intro _ | split | dsimp only))

theorem lateAbort_keeps {s t : State} (h : Keeps s t) (a0 : Page) (a1 : Outstanding) : Keeps s (lateAbort a0 a1 t) := by
  unfold lateAbort
  repeat' (first | with_reducible assumption | with_reducible apply setOutstanding_keeps | with_reducible exact Keeps.refl | intro _ | split | dsimp only)

theorem abortReadWords_keeps {s t : State} (h : Keeps s t) (a0 : Outstanding) : Keeps s (abortReadWords a0 t) := by
  unfold abortReadWords
  repeat' (first | with_reducible assumption | with_reducible apply done_keeps | with_reducible apply leaveOpen_keeps | with_reducible exact Keeps.refl | intro _ | split | dsimp only)

theorem abortSign_keeps {s t : State} (h : Keeps s t) (o : Outstanding) : Keeps s (abortSign o t) := by
  unfold abortSign
  split
  · rename_i e
    exact abortCardSign_keeps h e
  · exact lateAbort_keeps h _ _

theorem abortCommand_keeps {s t : State} (h : Keeps s t) (a0 : Page) (a1 : Outstanding) (a2 : Nat) : Keeps s (abortCommand a0 a1 a2 t) := by
  unfold abortCommand
  repeat' (first | with_reducible assumption | with_reducible apply abortPower_keeps | with_reducible apply done_keeps | with_reducible apply abortKillTest_keeps | with_reducible apply abortSign_keeps | with_reducible apply abortSelfCal_keeps | with_reducible apply endBreak_keeps | with_reducible apply abortTru_keeps | with_reducible apply abortHandover_keeps | with_reducible apply lateAbort_keeps | with_reducible apply stopBlocks_keeps | with_reducible apply abortTestJob_keeps | with_reducible apply abortReadWords_keeps | with_reducible apply abortEncodeFrame_keeps | with_reducible apply abortEncodeBurst_keeps | with_reducible apply spoilTest_keeps | with_reducible apply abortSoftRepair_keeps | with_reducible apply abortCal_keeps | with_reducible apply abortReload_keeps | with_reducible exact Keeps.refl | intro _ | split | dsimp only)

theorem abortTag_keeps {s t : State} (h : Keeps s t) (a0 : Page) (a1 : Nat) (a2 : Nat) : Keeps s (abortTag a0 a1 a2 t) := by
  unfold abortTag
  repeat' (first | with_reducible assumption | with_reducible apply abortCommand_keeps | with_reducible apply setStat_keeps | with_reducible apply dropCmd_keeps | with_reducible exact Keeps.refl | intro _ | split | dsimp only)

theorem execCmdAbort_keeps {s t u : State} (h : Keeps s t) (a0 : Page) (a1 : BitVec 8) (a2 : Nat) (e : execCmdAbort a0 a1 a2 t = .next u) : Keeps s u := by
  unfold execCmdAbort at e
  try dsimp only at e
  repeat' split at e
  all_goals (cases e; repeat' (first | with_reducible assumption | with_reducible apply abortTag_keeps | with_reducible exact Keeps.refl | intro _ | split | dsimp only))

end Sys2Proof.Machine
end

