-- ==== Sys2Proof/Laws/KeepsIdle.lean ====
section
/-! SUPPORT. Sys2Proof/Laws/KeepsIdle.lean: what the operations of Machine/Idle.lean keep of a state. -/
namespace Sys2Proof.Machine

theorem idle_keeps {s t : State} (h : Keeps s t)  : Keeps s (idle t) := by
  unfold idle
  repeat' (first | with_reducible assumption | with_reducible exact Keeps.refl | (with_reducible refine Keeps.upd ?_ (by with_reducible rfl); first | with_reducible assumption | with_reducible exact Keeps.refl | split) | intro _ | split | dsimp only)

end Sys2Proof.Machine
end

