-- ==== Sys2Proof/Laws/KeepsPageCmd.lean ====
section
/-! SUPPORT. Sys2Proof/Laws/KeepsPageCmd.lean: what the operations of Machine/PageCmd.lean keep of a state. -/
namespace Sys2Proof.Machine

theorem badOpcode_keeps {s t u : State} (h : Keeps s t) (a0 : Page) (a1 : Nat) (a2 : CmdSrc) (e : badOpcode a0 a1 a2 t = .next u) : Keeps s u := by
  unfold badOpcode at e
  try dsimp only at e
  repeat' split at e
  all_goals (cases e; repeat' (first | with_reducible assumption | with_reducible apply issue_keeps | with_reducible apply done_keeps | with_reducible exact Keeps.refl | intro _ | split | dsimp only))

theorem supplyCommand_keeps {s t u : State} (h : Keeps s t) (a0 : Page) (a1 : Nat) (a2 : CmdSrc) (a3 : WriteEnv) (e : supplyCommand a0 a1 a2 a3 t = .next u) : Keeps s u := by
  unfold supplyCommand at e
  try dsimp only at e
  repeat' split at e
  all_goals first | with_reducible exact execEnterDormouse_keeps h _ e | with_reducible exact execEnterOutage_keeps h _ e | with_reducible exact execLeaveOutage_keeps h _ e | with_reducible exact execTestLastGasp_keeps h _ e | with_reducible exact execResetModule_keeps h _ e | with_reducible exact execVerifySlot_keeps h _ e | with_reducible exact execConfirm_keeps h _ e | with_reducible exact execEnterTest_keeps h _ e | with_reducible exact execClearKill_keeps h _ _ e | with_reducible exact execKillTest_keeps h _ e | with_reducible exact badOpcode_keeps h _ _ _ e | (cases e; repeat' (first | with_reducible assumption | with_reducible exact Keeps.refl | intro _ | split | dsimp only))

theorem managementCommand_keeps {s t u : State} (h : Keeps s t) (a0 : Page) (a1 : Nat) (a2 : CmdSrc) (e : managementCommand a0 a1 a2 t = .next u) : Keeps s u := by
  unfold managementCommand at e
  try dsimp only at e
  repeat' split at e
  all_goals first | with_reducible exact execChallenge_keeps h _ e | with_reducible exact execApply_keeps h _ e | with_reducible exact execCardSign_keeps h _ e | with_reducible exact execReadAuth_keeps h _ e | with_reducible exact execReadDevPub_keeps h _ e | with_reducible exact execLoadSlot_keeps h _ e | with_reducible exact execEpfwImport_keeps h _ e | with_reducible exact execEpfwDelete_keeps h _ e | with_reducible exact execCampaignStart_keeps h _ e | with_reducible exact execCampaignStop_keeps h _ e | with_reducible exact execLogMark_keeps h _ e | with_reducible exact execSelfCal_keeps h _ e | with_reducible exact execSendBreak_keeps h _ _ e | with_reducible exact badOpcode_keeps h _ _ _ e | (cases e; repeat' (first | with_reducible assumption | with_reducible exact Keeps.refl | intro _ | split | dsimp only))

theorem outsideCommand_keeps {s t u : State} (h : Keeps s t) (a0 : Page) (a1 : Nat) (a2 : CmdSrc) (a3 : WriteEnv) (e : outsideCommand a0 a1 a2 a3 t = .next u) : Keeps s u := by
  unfold outsideCommand at e
  try dsimp only at e
  repeat' split at e
  all_goals first | with_reducible exact execRealign_keeps h _ e | with_reducible exact execSetTime_keeps h _ _ e | with_reducible exact execCapture_keeps h _ _ e | with_reducible exact execEndWtr_keeps h _ _ e | with_reducible exact execHandover_keeps h _ e | with_reducible exact execResync_keeps h _ e | with_reducible exact execReadBlocks_keeps h _ e | with_reducible exact execWriteBlocks_keeps h _ e | with_reducible exact execTrim_keeps h _ e | with_reducible exact execRingReset_keeps h _ e | with_reducible exact badOpcode_keeps h _ _ _ e | (cases e; repeat' (first | with_reducible assumption | with_reducible exact Keeps.refl | intro _ | split | dsimp only))

theorem macCommand_keeps {s t u : State} (h : Keeps s t) (a0 : Page) (a1 : Nat) (a2 : CmdSrc) (e : macCommand a0 a1 a2 t = .next u) : Keeps s u := by
  unfold macCommand at e
  try dsimp only at e
  repeat' split at e
  all_goals first | with_reducible exact execProvision_keeps h _ e | with_reducible exact execReadCtx_keeps h _ e | with_reducible exact execFind_keeps h _ e | with_reducible exact execRelease_keeps h _ e | with_reducible exact execPark_keeps h _ e | with_reducible exact execRekey_keeps h _ e | with_reducible exact execDeleteParked_keeps h _ e | with_reducible exact execSetRecord_keeps h _ e | with_reducible exact execRotateBkey_keeps h _ e | with_reducible exact execSetRoute_keeps h _ e | with_reducible exact execClearRoute_keeps h _ e | with_reducible exact execAppoint_keeps h _ e | with_reducible exact execClearPort_keeps h _ e | with_reducible exact execSnapshot_keeps h _ e | with_reducible exact execTestJob_keeps h _ e | with_reducible exact execSelfTest_keeps h _ e | with_reducible exact execZeroTestKey_keeps h _ e | with_reducible exact badOpcode_keeps h _ _ _ e | (cases e; repeat' (first | with_reducible assumption | with_reducible exact Keeps.refl | intro _ | split | dsimp only))

theorem lineCommand_keeps {s t u : State} (h : Keeps s t) (a0 : Page) (a1 : Nat) (a2 : CmdSrc) (e : lineCommand a0 a1 a2 t = .next u) : Keeps s u := by
  unfold lineCommand at e
  try dsimp only at e
  repeat' split at e
  all_goals first | with_reducible exact execForceRelease_keeps h _ e | with_reducible exact execReadWords_keeps h _ e | with_reducible exact execEncodeFrame_keeps h _ e | with_reducible exact execEncodeBurst_keeps h _ e | with_reducible exact execReadDyn_keeps h _ e | with_reducible exact execClearConflicts_keeps h _ e | with_reducible exact execTestBank_keeps h _ e | with_reducible exact execSoftRepair_keeps h _ _ e | with_reducible exact execCalPort_keeps h _ _ e | with_reducible exact execMeasureZ_keeps h _ _ e | with_reducible exact execAbortBurst_keeps h _ _ e | with_reducible exact execReloadCluster_keeps h _ _ e | with_reducible exact badOpcode_keeps h _ _ _ e | (cases e; repeat' (first | with_reducible assumption | with_reducible exact Keeps.refl | intro _ | split | dsimp only))

theorem runCommand_keeps {s t u : State} (h : Keeps s t) (a0 : Page) (a1 : Nat) (a2 : CmdSrc) (a3 : WriteEnv) (e : runCommand a0 a1 a2 a3 t = .next u) : Keeps s u := by
  unfold runCommand at e
  try dsimp only at e
  repeat' split at e
  all_goals first | with_reducible exact execNop_keeps h _ _ e | with_reducible exact supplyCommand_keeps h _ _ _ _ e | with_reducible exact managementCommand_keeps h _ _ _ e | with_reducible exact outsideCommand_keeps h _ _ _ _ e | with_reducible exact macCommand_keeps h _ _ _ e | with_reducible exact lineCommand_keeps h _ _ _ e | (cases e; repeat' (first | with_reducible assumption | with_reducible exact Keeps.refl | intro _ | split | dsimp only))

theorem writeCmd_keeps {s t u : State} (h : Keeps s t) (a0 : Page) (a1 : Word) (a2 : WriteEnv) (e : writeCmd a0 a1 a2 t = .next u) : Keeps s u := by
  unfold writeCmd at e
  try dsimp only at e
  repeat' split at e
  all_goals first | with_reducible exact execCmdAbort_keeps h _ _ _ e | with_reducible exact runCommand_keeps h _ _ _ _ e | (cases e; repeat' (first | with_reducible assumption | with_reducible exact Keeps.refl | intro _ | split | dsimp only))

theorem resetBlock_keeps {s t u : State} (h : Keeps s t) (a0 : Page) (a1 : WriteEnv) (e : resetBlock a0 a1 t = .next u) : Keeps s u := by
  unfold resetBlock at e
  try dsimp only at e
  repeat' split at e
  all_goals first | with_reducible exact execMgtBlkReset_keeps h  e | with_reducible exact execSenBlkReset_keeps h  e | with_reducible exact execSerBlkReset_keeps h _ e | with_reducible exact execTruBlkReset_keeps h  e | with_reducible exact execPairBlkReset_keeps h  e | with_reducible exact execStoBlkReset_keeps h _ e | with_reducible exact execPciBlkReset_keeps h  e | with_reducible exact execLanBlkReset_keeps h _ e | with_reducible exact execBcnBlkReset_keeps h  e | with_reducible exact execAscBlkReset_keeps h  e | with_reducible exact execRptBlkReset_keeps h  e | with_reducible exact execNcalBlkReset_keeps h  e | with_reducible exact execCipBlkReset_keeps h  e | with_reducible exact execBqBlkReset_keeps h  e | with_reducible exact execNbwBlkReset_keeps h  e | with_reducible exact execBbwBlkReset_keeps h  e | with_reducible exact execMemGlobalBlkReset_keeps h  e | with_reducible exact execLptBlkReset_keeps h _ e | with_reducible exact execEngBlkReset_keeps h _ e | with_reducible exact execMembBlkReset_keeps h _ e | (cases e; repeat' (first | with_reducible assumption | with_reducible exact Keeps.refl | intro _ | split | dsimp only))

end Sys2Proof.Machine
end

