-- ==== Sys2Proof/Laws/KeepsRegWrite.lean ====
section
/-! SUPPORT. Sys2Proof/Laws/KeepsRegWrite.lean: what the operations of Machine/RegWrite.lean keep of a state. -/
namespace Sys2Proof.Machine

theorem execIntStatClear_keeps {s t u : State} (h : Keeps s t) (a0 : Page) (a1 : Word) (e : execIntStatClear a0 a1 t = .next u) : Keeps s u := by
  unfold execIntStatClear at e
  try dsimp only at e
  repeat' split at e
  all_goals (cases e; repeat' (first | with_reducible assumption | with_reducible apply afterInt_keeps | with_reducible apply setReg_keeps | with_reducible exact Keeps.refl | intro _ | split | dsimp only))

theorem execIntEnWrite_keeps {s t u : State} (h : Keeps s t) (a0 : Page) (a1 : Word) (e : execIntEnWrite a0 a1 t = .next u) : Keeps s u := by
  unfold execIntEnWrite at e
  try dsimp only at e
  repeat' split at e
  all_goals (cases e; repeat' (first | with_reducible assumption | with_reducible apply afterInt_keeps | with_reducible apply setReg_keeps | with_reducible exact Keeps.refl | intro _ | split | dsimp only))

theorem execIntForce_keeps {s t u : State} (h : Keeps s t) (a0 : Page) (a1 : Word) (e : execIntForce a0 a1 t = .next u) : Keeps s u := by
  unfold execIntForce at e
  try dsimp only at e
  repeat' split at e
  all_goals (cases e; repeat' (first | with_reducible assumption | with_reducible apply raiseMask_keeps | with_reducible exact Keeps.refl | intro _ | split | dsimp only))

theorem execCmdStatClear_keeps {s t u : State} (h : Keeps s t) (a0 : Page) (a1 : Word) (e : execCmdStatClear a0 a1 t = .next u) : Keeps s u := by
  unfold execCmdStatClear at e
  try dsimp only at e
  repeat' split at e
  all_goals (cases e; repeat' (first | with_reducible assumption | with_reducible apply setReg_keeps | with_reducible exact Keeps.refl | intro _ | split | dsimp only))

theorem writeKept_keeps {s t : State} (h : Keeps s t) (a0 : Page) (a1 : Nat) (a2 : Word) (a3 : Field → Bool) : Keeps s (writeKept a0 a1 a2 a3 t) := by
  unfold writeKept
  repeat' (first | with_reducible assumption | with_reducible apply countErr_keeps | with_reducible apply writeField_keeps | with_reducible apply Keeps.foldl | with_reducible exact Keeps.refl | intro _ | split | dsimp only)

theorem outagePortsWritten_keeps {s t : State} (h : Keeps s t)  : Keeps s (outagePortsWritten t) := by
  unfold outagePortsWritten
  repeat' (first | with_reducible assumption | with_reducible apply refreshEngines_keeps | with_reducible apply refreshChain_keeps | with_reducible apply Keeps.foldl | with_reducible exact Keeps.refl | intro _ | split | dsimp only)

theorem levelWritten_keeps {s t : State} (h : Keeps s t) (a0 : Port) (a1 : Word) : Keeps s (levelWritten a0 a1 t) := by
  unfold levelWritten
  repeat' (first | with_reducible assumption | with_reducible apply writeFields_keeps | with_reducible apply capPort_keeps | with_reducible exact Keeps.refl | intro _ | split | dsimp only)

theorem beaconCfgWritten_keeps {s t : State} (h : Keeps s t) (a0 : Word) : Keeps s (beaconCfgWritten a0 t) := by
  unfold beaconCfgWritten
  repeat' (first | with_reducible assumption | with_reducible apply epochWritten_keeps | with_reducible apply writeFields_keeps | with_reducible exact Keeps.refl | (with_reducible refine Keeps.upd ?_ (by with_reducible rfl); first | with_reducible assumption | with_reducible apply epochWritten_keeps | with_reducible apply writeFields_keeps | with_reducible exact Keeps.refl | split) | intro _ | split | dsimp only)

theorem treeWritten_keeps {s t : State} (h : Keeps s t) (a0 : Word) : Keeps s (treeWritten a0 t) := by
  unfold treeWritten
  repeat' (first | with_reducible assumption | with_reducible apply writeFields_keeps | with_reducible apply setB_keeps | with_reducible exact Keeps.refl | intro _ | split | dsimp only)

theorem badgerWritten_keeps {s t : State} (h : Keeps s t) (a0 : Word) : Keeps s (badgerWritten a0 t) := by
  unfold badgerWritten
  repeat' (first | with_reducible assumption | with_reducible apply writeKept_keeps | with_reducible apply setB_keeps | with_reducible exact Keeps.refl | intro _ | split | dsimp only)

theorem timingWritten_keeps {s t : State} (h : Keeps s t) (a0 : Word) : Keeps s (timingWritten a0 t) := by
  unfold timingWritten
  repeat' (first | with_reducible assumption | with_reducible apply writeKept_keeps | with_reducible exact Keeps.refl | intro _ | split | dsimp only)

theorem laneWritten_keeps {s t : State} (h : Keeps s t) (a0 : Lane) (a1 : Word) : Keeps s (laneWritten a0 a1 t) := by
  unfold laneWritten
  repeat' (first | with_reducible assumption | with_reducible apply writeFields_keeps | with_reducible apply refreshTunnel_keeps | with_reducible apply laneFall_keeps | with_reducible exact Keeps.refl | intro _ | split | dsimp only)

theorem etypeWritten_keeps {s t : State} (h : Keeps s t) (a0 : Lane) (a1 : Word) : Keeps s (etypeWritten a0 a1 t) := by
  unfold etypeWritten
  repeat' (first | with_reducible assumption | with_reducible apply writeKept_keeps | with_reducible exact Keeps.refl | intro _ | split | dsimp only)

theorem mirrorLaneWritten_keeps {s t : State} (h : Keeps s t) (a0 : MLane) (a1 : Word) : Keeps s (mirrorLaneWritten a0 a1 t) := by
  unfold mirrorLaneWritten
  repeat' (first | with_reducible assumption | with_reducible apply countErr_keeps | with_reducible apply writeFields_keeps | with_reducible apply mirrorFall_keeps | with_reducible exact Keeps.refl | intro _ | split | dsimp only)

theorem ringWritten_keeps {s t : State} (h : Keeps s t) (a0 : Nat) (a1 : Nat) (a2 : Word) : Keeps s (ringWritten a0 a1 a2 t) := by
  unfold ringWritten
  repeat' (first | with_reducible assumption | with_reducible apply countErr_keeps | with_reducible apply setReg_keeps | with_reducible apply setI_keeps | with_reducible apply writeFields_keeps | with_reducible apply flushRing_keeps | with_reducible exact Keeps.refl | intro _ | split | dsimp only)

theorem sensorWritten_keeps {s t : State} (h : Keeps s t) (a0 : Nat) (a1 : Nat) (a2 : Word) : Keeps s (sensorWritten a0 a1 a2 t) := by
  unfold sensorWritten
  repeat' (first | with_reducible assumption | with_reducible apply senCfgWritten_keeps | with_reducible apply writeFields_keeps | with_reducible exact Keeps.refl | intro _ | split | dsimp only)

theorem writePlain_keeps {s t : State} (h : Keeps s t) (a0 : Page) (a1 : Nat) (a2 : Word) : Keeps s (writePlain a0 a1 a2 t) := by
  unfold writePlain
  repeat' (first | with_reducible assumption | with_reducible apply outagePortsWritten_keeps | with_reducible apply writeFields_keeps | with_reducible apply levelWritten_keeps | with_reducible apply nbPending_keeps | with_reducible apply bbPending_keeps | with_reducible apply ncalPending_keeps | with_reducible apply beaconCfgWritten_keeps | with_reducible apply epochWritten_keeps | with_reducible apply treeWritten_keeps | with_reducible apply refreshCluster_keeps | with_reducible apply bqCfgPending_keeps | with_reducible apply badgerWritten_keeps | with_reducible apply timingWritten_keeps | with_reducible apply laneWritten_keeps | with_reducible apply etypeWritten_keeps | with_reducible apply mirrorLaneWritten_keeps | with_reducible apply refreshTunnel_keeps | with_reducible apply ringWritten_keeps | with_reducible apply sensorWritten_keeps | with_reducible exact Keeps.refl | intro _ | split | dsimp only)

theorem writeBlock_keeps {s t u : State} (h : Keeps s t) (a0 : Page) (a1 : Nat) (a2 : Word) (a3 : WriteEnv) (e : writeBlock a0 a1 a2 a3 t = .next u) : Keeps s u := by
  unfold writeBlock at e
  try dsimp only at e
  repeat' split at e
  all_goals first | with_reducible exact execPwrRtcAlarmLoWrite_keeps h _ e | with_reducible exact execLptDeclWrite_keeps h _ _ e | with_reducible exact execNcalSelWrite_keeps h _ e | with_reducible exact execBcnDwellSelWrite_keeps h _ e | with_reducible exact execRptRouteSelWrite_keeps h _ e | with_reducible exact execBqSelWrite_keeps h _ e | with_reducible exact execMemCntSelWrite_keeps h _ e | with_reducible exact execMembPowerWrite_keeps h _ _ e | with_reducible exact execCipTestCtlWrite_keeps h _ e | with_reducible exact execTruModeWrite_keeps h _ _ e | with_reducible exact execSerDivWrite_keeps h _ _ _ e | with_reducible exact execSerTxWrite_keeps h _ _ _ e | with_reducible exact execCipTestKeyWrite_keeps h _ _ e | with_reducible exact execRefCfgWrite_keeps h _ _ _ e | with_reducible exact execEngCtxSelWrite_keeps h _ e | (cases e; repeat' (first | with_reducible assumption | with_reducible apply writePlain_keeps | with_reducible exact Keeps.refl | intro _ | split | dsimp only))

theorem writeHeader_keeps {s t u : State} (h : Keeps s t) (a0 : Page) (a1 : Nat) (a2 : Word) (a3 : WriteEnv) (e : writeHeader a0 a1 a2 a3 t = .next u) : Keeps s u := by
  unfold writeHeader at e
  try dsimp only at e
  repeat' split at e
  all_goals first | with_reducible exact resetBlock_keeps h _ _ e | with_reducible exact execIntStatClear_keeps h _ _ e | with_reducible exact execIntEnWrite_keeps h _ _ e | with_reducible exact execIntForce_keeps h _ _ e | with_reducible exact writeCmd_keeps h _ _ _ e | with_reducible exact execCmdStatClear_keeps h _ _ e | (cases e; repeat' (first | with_reducible assumption | with_reducible apply setReg_keeps | with_reducible exact Keeps.refl | intro _ | split | dsimp only))

theorem notPerformed_keeps {s t : State} (h : Keeps s t) (a0 : Page) : Keeps s (notPerformed a0 t) := by
  unfold notPerformed
  repeat' (first | with_reducible assumption | with_reducible apply countErr_keeps | with_reducible apply raise_keeps | with_reducible exact Keeps.refl | intro _ | split | dsimp only)

theorem writeBar2_keeps {s t u : State} (h : Keeps s t) (a0 : Nat) (a1 : Word) (a2 : WriteEnv) (e : writeBar2 a0 a1 a2 t = .next u) : Keeps s u := by
  unfold writeBar2 at e
  try dsimp only at e
  repeat' split at e
  all_goals first | with_reducible exact execSqProdDoorbell_keeps h _ _ _ e | with_reducible exact execCqConsDoorbell_keeps h _ _ e | with_reducible exact execMsixUnmask_keeps h _ e | (cases e; repeat' (first | with_reducible assumption | with_reducible exact Keeps.refl | (with_reducible refine Keeps.upd ?_ (by with_reducible rfl); first | with_reducible assumption | with_reducible exact Keeps.refl | split) | intro _ | split | dsimp only | (with_reducible refine Keeps.updTable ?_ (fun w => by simp only [State.wf, State.hostWf, State.lineWf, State.memWf, State.serviceWf, Bool.and_eq_true] at w ⊢; simp_all only [Map.wf_set, Map.wf_filter, Map.wf_mapVals, Map.wf_nil, and_self]); first | with_reducible assumption | with_reducible exact Keeps.refl | split)))

theorem execRegisterWrite_keeps {s t u : State} (h : Keeps s t) (a0 : HostAddr) (a1 : AccessForm) (a2 : Word) (a3 : WriteEnv) (e : execRegisterWrite a0 a1 a2 a3 t = .next u) : Keeps s u := by
  unfold execRegisterWrite at e
  try dsimp only at e
  repeat' split at e
  all_goals first | with_reducible exact writeBar2_keeps h _ _ _ e | with_reducible exact writeHeader_keeps h _ _ _ _ e | with_reducible exact writeBlock_keeps h _ _ _ _ e | (cases e; repeat' (first | with_reducible assumption | with_reducible apply notPerformed_keeps | with_reducible exact Keeps.refl | intro _ | split | dsimp only))

theorem clearRead_keeps {s t : State} (h : Keeps s t) (a0 : Page) (a1 : Nat) : Keeps s (clearRead a0 a1 t) := by
  unfold clearRead
  repeat' (first | with_reducible assumption | with_reducible apply setReg_keeps | with_reducible apply Keeps.foldl | with_reducible exact Keeps.refl | intro _ | split | dsimp only)

theorem readReg_keeps {s t u : State} (h : Keeps s t) (a0 : Page) (a1 : Nat) (e : readReg a0 a1 t = .next u) : Keeps s u := by
  unfold readReg at e
  try dsimp only at e
  repeat' split at e
  all_goals first | with_reducible exact execPwrRtcLoRead_keeps h  e | with_reducible exact execSerRxRead_keeps h _ _ e | with_reducible exact execSenTempRead_keeps h _ e | (cases e; repeat' (first | with_reducible assumption | with_reducible apply returnWord_keeps | with_reducible apply clearRead_keeps | with_reducible exact Keeps.refl | intro _ | split | dsimp only))

theorem execCounterReadClear_keeps {s t u : State} (h : Keeps s t) (a0 : HostAddr) (a1 : AccessForm) (e : execCounterReadClear a0 a1 t = .next u) : Keeps s u := by
  unfold execCounterReadClear at e
  try dsimp only at e
  repeat' split at e
  all_goals first | with_reducible exact readReg_keeps h _ _ e | (cases e; repeat' (first | with_reducible assumption | with_reducible apply returnWord_keeps | with_reducible apply notPerformed_keeps | with_reducible exact Keeps.refl | intro _ | split | dsimp only))

end Sys2Proof.Machine
end

