-- ==== Sys2Proof/Laws/Log.lean ====
section
/-!
SUPPORT. Sys2Proof/Laws/Log.lean: what logging an event leaves (R432–R434).
-/
namespace Sys2Proof.Machine

theorem pushRec_last (code inst : Nat) (d : List Nat) (s : State) :
    (pushRec code inst d s).log.buf = s.log.buf ++ [mkRec s code inst d] := rfl

theorem logEvent_logged {s : State} (h : LogRoom s) (code inst : Nat) (d : List Nat) : Logged (logEvent code inst d s) code inst d := by
  unfold LogRoom at h
  have key : ∀ u : State, u.log.buf.length < logRoom →
      Logged (if u.log.buf.length < logRoom then pushRec code inst d u else
        raise .mgt MGT_INT.LOG_GAP (count .mgt MGT_LOG_GAP_CNT.VALUE { u with log := { u.log with lost := u.log.lost + 1 } })) code inst d := by
    intro u hu
    rw [if_pos hu]
    exact ⟨_, List.getLast?_concat .., rfl, rfl, rfl⟩
  unfold logEvent
  refine key _ ?_
  split
  · show (s.log.buf ++ [_]).length < logRoom
    rw [List.length_append, List.length_singleton]
    exact h
  · omega

theorem logPage_logged {s : State} (h : LogRoom s) (p : Page) (low : Nat) (d : List Nat) :
    Logged (logPage p low d s) (pageType (pageKind p) % 256 * 256 + low) (pageInstance p) d := logEvent_logged h _ _ _

theorem LogRoom.upd {s t : State} (h : LogRoom s) (e : t.log = s.log) : LogRoom t := by
  unfold LogRoom
  rw [e]
  exact h

/-- The registers of MGT that logging changes. -/
theorem logEvent_regs (code inst : Nat) (d : List Nat) (s : State) :
    RegsBut [addr .mgt offIntStat, addr .mgt MGT_LOG_NEXT.VALUE.off, addr .mgt MGT_LOG_GAP_CNT.VALUE.off] s (logEvent code inst d s) := by
  have hp : ∀ (c i : Nat) (d : List Nat) (u : State),
      RegsBut [addr .mgt offIntStat, addr .mgt MGT_LOG_NEXT.VALUE.off, addr .mgt MGT_LOG_GAP_CNT.VALUE.off] u (pushRec c i d u) := fun c i d u =>
    RegsBut.setF (RegsBut.upd (u := { u with log := { u.log with buf := u.log.buf ++ [mkRec u c i d] } }) (RegsBut.refl _ u) rfl) _ (by simp)
  have h1 : RegsBut [addr .mgt offIntStat, addr .mgt MGT_LOG_NEXT.VALUE.off, addr .mgt MGT_LOG_GAP_CNT.VALUE.off] s
      (if s.log.lost ≠ 0 ∧ s.log.buf.length < logRoom then
        { pushRec 0x068A 0 [s.log.lost] s with log := { (pushRec 0x068A 0 [s.log.lost] s).log with lost := 0 } } else s) := by
    split
    · exact RegsBut.upd (hp 0x068A 0 [s.log.lost] s) rfl
    · exact RegsBut.refl _ _
  have h2 : ∀ u : State, RegsBut [addr .mgt offIntStat, addr .mgt MGT_LOG_NEXT.VALUE.off, addr .mgt MGT_LOG_GAP_CNT.VALUE.off] u
      (if u.log.buf.length < logRoom then pushRec code inst d u else
        raise .mgt MGT_INT.LOG_GAP (count .mgt MGT_LOG_GAP_CNT.VALUE { u with log := { u.log with lost := u.log.lost + 1 } })) := by
    intro u
    split
    · exact hp _ _ _ _
    · exact ((RegsBut.upd (u := { u with log := { u.log with lost := u.log.lost + 1 } }) (RegsBut.refl _ u) rfl).count (by simp)).raise _ (by simp)
  exact h1.trans (h2 _)

end Sys2Proof.Machine
end

