-- ==== Sys2Proof/Laws/Reset.lean ====
section
/-! SUPPORT. Sys2Proof/Laws/Reset.lean: what the reset of a block leaves. -/
namespace Sys2Proof.Machine

theorem reg_resetOffsets (p : Page) : ∀ (os : List Nat) (s : State) (q : Page) (o : Nat), (∀ x ∈ os, x < 0x1000) → o < 0x1000 →
    reg (resetOffsets p os s) (addr q o) = if q = p ∧ o ∈ os then pageReset p o else reg s (addr q o)
  | [], s, q, o, _, _ => by simp [resetOffsets]
  | x :: os, s, q, o, h, ho => by
    have e : resetOffsets p (x :: os) s = resetOffsets p os (setReg (addr p x) (pageReset p x) s) := rfl
    rw [e, reg_resetOffsets p os _ q o (fun y hy => h y (.tail _ hy)) ho, reg_setReg]
    simp only [addr_eq_iff ho (h x (.head _)), List.mem_cons]
    by_cases hq : q = p
    · subst hq
      by_cases h1 : o = x
      · subst h1; simp
      · simp [h1]
    · simp [hq]

@[simp] theorem cmds_resetOffsets (p : Page) (os : List Nat) (s : State) : (resetOffsets p os s).cmds = s.cmds := by
  unfold resetOffsets
  induction os generalizing s with
  | nil => rfl
  | cons x os ih => rw [List.foldl_cons, ih]; rfl

/-- A completion leaves the rest of every STATUS register outside PCI alone. -/
theorem StatusKept.refl (s : State) : StatusKept s s := fun _ _ _ _ _ _ _ => rfl

theorem StatusKept.trans {s t u : State} (h : StatusKept s t) (g : StatusKept t u) : StatusKept s u :=
  fun q hi lo a b c d => (g q hi lo a b c d).trans (h q hi lo a b c d)

theorem StatusKept.upd {s t : State} (h : ∀ q : Page, q ≠ .pci → reg t (addr q offStatus) = reg s (addr q offStatus)) : StatusKept s t :=
  fun q _ _ a _ _ _ => by rw [h q a]

theorem StatusKept.setBusy (p : Page) (v : Nat) (s : State) : StatusKept s (setBusy p v s) := by
  intro q hi lo _ h1 h2 h3
  unfold Machine.setBusy
  have e : reg (setStat p 31 31 v s) (addr q offStatus) = reg s (addr q offStatus) := reg_setStat_other _ _ _ _ _ (by decide) (.inr (by decide))
  by_cases hqp : q = p
  · subst hqp
    rw [reg_setReg_self, getBits_setBits_other _ _ (by decide) (by decide) (by omega), e]
  · rw [reg_setReg_other _ _ (fun h => hqp (addr_inj (by decide) (by decide) h).1), e]

theorem StatusKept.setStat (p : Page) (hi lo v : Nat) (s : State) : StatusKept s (setStat p hi lo v s) :=
  .upd (fun _ _ => reg_setStat_other _ _ _ _ _ (by decide) (.inr (by decide)))

theorem StatusKept.complete (p : Page) (code d : Nat) (s : State) : StatusKept s (complete p code d s) := by
  unfold Machine.complete
  split
  · exact .refl s
  rename_i u _
  extract_lets s1 s2 s3
  have h1 : StatusKept s s1 := (StatusKept.upd (s := s) (t := setSlot p ⟨none, some u.tag⟩ s) (fun _ _ => rfl)).trans (.setBusy _ _ _)
  have h2 : StatusKept s s2 := h1.trans (((StatusKept.setStat _ _ _ _ _).trans (.setStat _ _ _ _ _)).trans (.setStat _ _ _ _ _))
  have h3 : StatusKept s s3 := by
    unfold s3
    split
    · exact h2.trans (.setStat _ _ _ _ _)
    · exact h2
  refine h3.trans (.upd (fun q hq => ?_))
  rw [reg_originComplete _ _ _ _ _ _ (.inl hq) (by decide) (.inl hq), reg_raise_other _ _ _ (by decide) (.inr (by decide))]

theorem StatusKept.getF {s u : State} (h : StatusKept s u) (q : Page) (hq : q ≠ .pci) (f : Field) (hf : f.off = offStatus) (h1 : f.lo ≤ f.hi) (h2 : f.hi < 30) :
    getF u q f = getF s q f := by
  unfold Machine.getF getI
  rw [Field.offAt_zero, hf, h q f.hi f.lo hq h1 (by omega) (.inr h2)]

theorem complete_none {s : State} {p : Page} (h : outstanding s p = none) (code d : Nat) : complete p code d s = s := by
  unfold complete
  rw [h]

theorem outstanding_complete (p : Page) (code d : Nat) (s : State) : outstanding (complete p code d s) p = none := by
  cases h : outstanding s p with
  | none => rw [complete_none h, h]
  | some u =>
    unfold complete
    rw [h]
    dsimp only
    have e : (originComplete p u code d u.abortLate (raise p INT.CMD_DONE (if u.abortLate then
        setStat p 29 29 1 (setStat p 30 30 1 (setStat p 15 8 d (setStat p 7 0 code (setBusy p 0 (setSlot p ⟨none, some u.tag⟩ s)))))
        else setStat p 30 30 1 (setStat p 15 8 d (setStat p 7 0 code (setBusy p 0 (setSlot p ⟨none, some u.tag⟩ s))))))).cmds = (setSlot p ⟨none, some u.tag⟩ s).cmds := by
      refine ((originComplete_within (m := 0x20000030000800) Within.refl p u code d u.abortLate rfl).same .cmds rfl).trans ?_
      rw [cmds_raise]
      split <;> simp
    rw [outstanding_eq e]
    unfold outstanding
    rw [slotOf_setSlot_self]

theorem pageNumber_ne {p q : Page} (h : q ≠ p) : pageNumber q ≠ pageNumber p := fun e => h (pageNumber_inj e)

/-- A completion leaves the commands outstanding on the other pages. -/
theorem outstanding_complete_other {p q : Page} (h : q ≠ p) (code d : Nat) (s : State) : outstanding (complete p code d s) q = outstanding s q := by
  cases e : outstanding s p with
  | none => rw [complete_none e]
  | some u =>
    have e1 : (complete p code d s).cmds = (setSlot p ⟨none, some u.tag⟩ s).cmds := by
      unfold complete
      rw [e]
      dsimp only
      refine ((originComplete_within (m := 0x20000030000800) Within.refl p u code d u.abortLate rfl).same .cmds rfl).trans ?_
      rw [cmds_raise]
      split <;> simp
    rw [outstanding_eq e1]
    unfold outstanding slotOf setSlot
    dsimp only
    rw [Map.get_set_other _ _ (pageNumber_ne h)]

/-- What the reset of a block leaves on its page. -/
theorem blkReset_effect {s : State} {p : Page} (hr : p ≠ .pci ∨ ∀ u, outstanding s p = some u → ∀ g, u.origin = some g → g.ring < 32) {os : List Nat}
    (hos : ∀ x ∈ os, 0x100 ≤ x ∧ x < 0x1000) : outstanding (blkReset p os s) p = none ∧ (outstanding s p ≠ none → Completed (blkReset p os s) p CODE.RESET) ∧
    (p ≠ .pci → ∀ o ∈ os, reg (blkReset p os s) (addr p o) = pageReset p o) ∧ StatusKept s (blkReset p os s) ∧
    (∀ q o, o < 0x1000 → 0x100 ≤ o → q ≠ .pci → (q = p → o ∉ os) → reg (blkReset p os s) (addr q o) = reg s (addr q o)) := by
  have hc : outstanding (resetOffsets p os s) p = outstanding s p := outstanding_eq (cmds_resetOffsets _ _ _) _
  refine ⟨outstanding_complete _ _ _ _, ?_, ?_, ?_, ?_⟩
  · intro h
    cases e : outstanding s p with
    | none => exact absurd e h
    | some u => exact complete_completed (hc.trans e) (hr.imp id (fun h => h u e)) (by decide) _
  · intro hp o ho
    unfold blkReset
    rw [reg_complete _ _ _ _ (hos o ho).2 hp (.inr (hos o ho).1), reg_resetOffsets p os s p o (fun x hx => (hos x hx).2) (hos o ho).2, if_pos ⟨rfl, ho⟩]
  · refine StatusKept.trans (.upd (fun q _ => ?_)) (.complete _ _ _ _)
    rw [reg_resetOffsets p os s q _ (fun x hx => (hos x hx).2) (by decide), if_neg]
    intro h
    exact absurd (hos _ h.2).1 (by decide)
  · intro q o ho h1 hq hn
    unfold blkReset
    rw [reg_complete _ _ _ _ ho hq (.inr h1), reg_resetOffsets p os s q o (fun x hx => (hos x hx).2) ho, if_neg (fun h => hn h.1 h.2)]

end Sys2Proof.Machine
end

