-- ==== Sys2Proof/Laws/WithinRegOps.lean ====
section
/-! SUPPORT. Sys2Proof/Laws/WithinRegOps.lean: the parts of a state that the operations of Machine/RegOps.lean may change. -/
namespace Sys2Proof.Machine

theorem writeField_within {m : Nat} {s t : State} (h : Within m s t) (a0 : Page) (a1 : Nat) (a2 : Word) (a3 : Field) (hm : 0x20000020000000 ||| m = m) (hp0 : pageBit a0 ||| m = m) : Within m s (writeField a0 a1 a2 a3 t) := by
  unfold writeField
  repeat' (first | with_reducible assumption | ((with_reducible refine Mask.sub hm ?_); first | exact rfl | (simp only [pageBit_ser]; exact rfl)) | with_reducible apply setReg_within | with_reducible apply countErr_within | with_reducible exact Within.refl | intro _ | split | dsimp only)

theorem writeRw_within {m : Nat} {s t : State} (h : Within m s t) (a0 : Page) (a1 : Nat) (a2 : Word) (hm : 0x20000020000000 ||| m = m) (hp0 : pageBit a0 ||| m = m) : Within m s (writeRw a0 a1 a2 t) := by
  unfold writeRw
  repeat' (first | with_reducible assumption | ((with_reducible refine Mask.sub hm ?_); first | exact rfl | (simp only [pageBit_ser]; exact rfl)) | with_reducible apply setReg_within | with_reducible apply writeField_within | with_reducible apply Within.foldl | with_reducible exact Within.refl | intro _ | split | dsimp only)

theorem refuseProtected_within {m : Nat} {s t : State} (h : Within m s t) (a0 : Page) (a1 : Nat) (hm : 0x20000028000020 ||| m = m) (hp0 : pageBit a0 ||| m = m) : Within m s (refuseProtected a0 a1 t) := by
  unfold refuseProtected
  repeat' (first | with_reducible assumption | ((with_reducible refine Mask.sub hm ?_); first | exact rfl | (simp only [pageBit_ser]; exact rfl)) | with_reducible apply setReg_within | with_reducible apply logPage_within | with_reducible apply countErr_within | with_reducible apply raise_within | with_reducible exact Within.refl | intro _ | split | dsimp only)

theorem writeFields_within {m : Nat} {s t : State} (h : Within m s t) (a0 : Page) (a1 : Nat) (a2 : Word) (hm : 0x20000028000020 ||| m = m) (hp0 : pageBit a0 ||| m = m) : Within m s (writeFields a0 a1 a2 t) := by
  unfold writeFields
  repeat' (first | with_reducible assumption | ((with_reducible refine Mask.sub hm ?_); first | exact rfl | (simp only [pageBit_ser]; exact rfl)) | with_reducible apply setReg_within | with_reducible apply writeRw_within | with_reducible apply refuseProtected_within | with_reducible exact Within.refl | intro _ | split | dsimp only)

end Sys2Proof.Machine
end

