-- ==== Sys2Proof/Laws/WithinQueue.lean ====
section
/-! SUPPORT. Sys2Proof/Laws/WithinQueue.lean: the parts of a state that the operations of Machine/Queue.lean may change. -/
namespace Sys2Proof.Machine

theorem answer_within {m : Nat} {s t : State} (h : Within m s t) (a0 : QResult) (a1 : Nat) (a2 : List Byte) (hm : 0x20000000000000 ||| m = m) : Within m s (answer a0 a1 a2 t) := by
  unfold answer
  repeat' (first | with_reducible assumption | ((with_reducible refine Mask.sub hm ?_); first | exact rfl | (simp only [pageBit_ser]; exact rfl)) | with_reducible apply setReg_within | with_reducible apply emit_within | with_reducible exact Within.refl | intro _ | split | dsimp only)

theorem overrun_within {m : Nat} {s t : State} (h : Within m s t) (a0 : Nat) (hm : 0x20038021880000 ||| m = m) : Within m s (overrun a0 t) := by
  unfold overrun
  repeat' (first | with_reducible assumption | ((with_reducible refine Mask.sub hm ?_); first | exact rfl | (simp only [pageBit_ser]; exact rfl)) | with_reducible apply setReg_within | with_reducible apply setQueue_within | with_reducible apply completeBurst_within | with_reducible apply raise_within | with_reducible apply count_within | with_reducible exact Within.refl | intro _ | split | dsimp only)

theorem narrowWrite_within {m : Nat} {s t : State} (h : Within m s t) (a0 : Nat) (a1 : List Byte) (a2 : Bool) (hm : 0x20038021880000 ||| m = m) : Within m s (narrowWrite a0 a1 a2 t) := by
  unfold narrowWrite
  repeat' (first | with_reducible assumption | ((with_reducible refine Mask.sub hm ?_); first | exact rfl | (simp only [pageBit_ser]; exact rfl)) | with_reducible apply setReg_within | with_reducible apply overrun_within | with_reducible apply setQueue_within | with_reducible apply closePartial_within | with_reducible exact Within.refl | intro _ | split | dsimp only)

theorem execQueueNarrowWrite_within {m : Nat} {s t u : State} (h : Within m s t) (a0 : BurstId) (a1 : List Byte) (a2 : Bool) (hm : 0x20038021880000 ||| m = m) (e : execQueueNarrowWrite a0 a1 a2 t = .next u) : Within m s u := by
  unfold execQueueNarrowWrite at e
  try dsimp only at e
  repeat' split at e
  all_goals (cases e; repeat' (first | with_reducible assumption | ((with_reducible refine Mask.sub hm ?_); first | exact rfl | (simp only [pageBit_ser]; exact rfl)) | with_reducible apply setReg_within | with_reducible apply narrowWrite_within | with_reducible exact Within.refl | intro _ | split | dsimp only))

theorem popReport_within {m : Nat} {s t : State} (h : Within m s t) (a0 : Nat) (a1 : PopErr) (hm : 0x20000022080008 ||| m = m) : Within m s (popReport a0 a1 t) := by
  unfold popReport
  repeat' (first | with_reducible assumption | ((with_reducible refine Mask.sub hm ?_); first | exact rfl | (simp only [pageBit_memb]; exact rfl)) | with_reducible apply setReg_within | with_reducible apply countErr_within | with_reducible apply setF_within | with_reducible apply setB_within | with_reducible apply diagReport_within | with_reducible apply raise_within | with_reducible apply count_within | with_reducible exact Within.refl | intro _ | split | dsimp only)

theorem pop_within {m : Nat} {s t : State} (h : Within m s t) (a0 : BurstId) (a1 : BitVec 8) (a2 : PopErr) (hm : 0x20010022080008 ||| m = m) : Within m s (pop a0 a1 a2 t) := by
  unfold pop
  repeat' (first | with_reducible assumption | ((with_reducible refine Mask.sub hm ?_); first | exact rfl | (simp only [pageBit_ser]; exact rfl)) | with_reducible apply setReg_within | with_reducible apply answer_within | with_reducible apply setQueue_within | with_reducible apply popReport_within | with_reducible exact Within.refl | intro _ | split | dsimp only)

theorem execPop_within {m : Nat} {s t u : State} (h : Within m s t) (a0 : BurstId) (a1 : BitVec 8) (a2 : PopErr) (hm : 0x20010022080008 ||| m = m) (e : execPop a0 a1 a2 t = .next u) : Within m s u := by
  unfold execPop at e
  try dsimp only at e
  repeat' split at e
  all_goals (cases e; repeat' (first | with_reducible assumption | ((with_reducible refine Mask.sub hm ?_); first | exact rfl | (simp only [pageBit_ser]; exact rfl)) | with_reducible apply setReg_within | with_reducible apply pop_within | with_reducible exact Within.refl | intro _ | split | dsimp only))

theorem execMark_within {m : Nat} {s t u : State} (h : Within m s t) (a0 : BurstId) (a1 : BitVec 8) (hm : 0x20010000000000 ||| m = m) (e : execMark a0 a1 t = .next u) : Within m s u := by
  unfold execMark at e
  try dsimp only at e
  repeat' split at e
  all_goals (cases e; repeat' (first | with_reducible assumption | ((with_reducible refine Mask.sub hm ?_); first | exact rfl | (simp only [pageBit_ser]; exact rfl)) | with_reducible apply setReg_within | with_reducible apply answer_within | with_reducible apply setQueue_within | with_reducible exact Within.refl | intro _ | split | dsimp only))

theorem execRewind_within {m : Nat} {s t u : State} (h : Within m s t) (a0 : BurstId) (a1 : BitVec 8) (hm : 0x20010020080000 ||| m = m) (e : execRewind a0 a1 t = .next u) : Within m s u := by
  unfold execRewind at e
  try dsimp only at e
  repeat' split at e
  all_goals (cases e; repeat' (first | with_reducible assumption | ((with_reducible refine Mask.sub hm ?_); first | exact rfl | (simp only [pageBit_ser]; exact rfl)) | with_reducible apply setReg_within | with_reducible apply answer_within | with_reducible apply raise_within | with_reducible apply count_within | with_reducible apply setQueue_within | with_reducible exact Within.refl | intro _ | split | dsimp only))

theorem release_within {m : Nat} {s t : State} (h : Within m s t) (a0 : BurstId) (a1 : BitVec 8) (a2 : Nat) (hm : 0x20018001080000 ||| m = m) : Within m s (release a0 a1 a2 t) := by
  unfold release
  repeat' (first | with_reducible assumption | ((with_reducible refine Mask.sub hm ?_); first | exact rfl | (simp only [pageBit_ser]; exact rfl)) | with_reducible apply setReg_within | with_reducible apply answer_within | with_reducible apply closeIfReleased_within | with_reducible apply setQueue_within | with_reducible exact Within.refl | intro _ | split | dsimp only)

theorem execQueueRelease_within {m : Nat} {s t u : State} (h : Within m s t) (a0 : BurstId) (a1 : BitVec 8) (a2 : Nat) (hm : 0x20018001080000 ||| m = m) (e : execQueueRelease a0 a1 a2 t = .next u) : Within m s u := by
  unfold execQueueRelease at e
  try dsimp only at e
  repeat' split at e
  all_goals (cases e; repeat' (first | with_reducible assumption | ((with_reducible refine Mask.sub hm ?_); first | exact rfl | (simp only [pageBit_ser]; exact rfl)) | with_reducible apply setReg_within | with_reducible apply release_within | with_reducible exact Within.refl | intro _ | split | dsimp only))

theorem pushData_within {m : Nat} {s t : State} (h : Within m s t) (a0 : Nat) (a1 : Nat) (a2 : List Byte) (hm : 0x30000000000 ||| m = m) : Within m s (pushData a0 a1 a2 t) := by
  induction a1 generalizing t a0 a2 with
  | zero =>
    unfold pushData
    repeat' (first | with_reducible assumption | with_reducible apply ih | ((with_reducible refine Mask.sub hm ?_); first | exact rfl | (simp only [pageBit_ser]; exact rfl)) | with_reducible apply setReg_within | with_reducible apply pushWord_within | with_reducible apply setQueue_within | with_reducible exact Within.refl | intro _ | split | dsimp only)
  | succ _ ih =>
    unfold pushData
    repeat' (first | with_reducible assumption | with_reducible apply ih | ((with_reducible refine Mask.sub hm ?_); first | exact rfl | (simp only [pageBit_ser]; exact rfl)) | with_reducible apply setReg_within | with_reducible apply pushWord_within | with_reducible apply setQueue_within | with_reducible exact Within.refl | intro _ | split | dsimp only)

theorem execNbEarlyDecode_within {m : Nat} {s t u : State} (h : Within m s t) (a0 : BurstId) (a1 : List Byte) (hm : 0x30000000000 ||| m = m) (e : execNbEarlyDecode a0 a1 t = .next u) : Within m s u := by
  unfold execNbEarlyDecode at e
  try dsimp only at e
  repeat' split at e
  all_goals (cases e; repeat' (first | with_reducible assumption | ((with_reducible refine Mask.sub hm ?_); first | exact rfl | (simp only [pageBit_ser]; exact rfl)) | with_reducible apply setReg_within | with_reducible apply pushData_within | with_reducible apply setQueue_within | with_reducible exact Within.refl | intro _ | split | dsimp only))

theorem rewriteWords_within {m : Nat} {s t : State} (h : Within m s t) (a0 : Nat) (a1 : Nat) (a2 : Nat) (a3 : List Byte) (hm : 0x30000000000 ||| m = m) : Within m s (rewriteWords a0 a1 a2 a3 t) := by
  induction a1 generalizing t a0 a2 a3 with
  | zero =>
    unfold rewriteWords
    repeat' (first | with_reducible assumption | with_reducible apply ih | ((with_reducible refine Mask.sub hm ?_); first | exact rfl | (simp only [pageBit_ser]; exact rfl)) | with_reducible apply setReg_within | with_reducible apply setQueue_within | with_reducible apply setBytes_within | with_reducible exact Within.refl | intro _ | split | dsimp only)
  | succ _ ih =>
    unfold rewriteWords
    repeat' (first | with_reducible assumption | with_reducible apply ih | ((with_reducible refine Mask.sub hm ?_); first | exact rfl | (simp only [pageBit_ser]; exact rfl)) | with_reducible apply setReg_within | with_reducible apply setQueue_within | with_reducible apply setBytes_within | with_reducible exact Within.refl | intro _ | split | dsimp only)

theorem combinedDecode_within {m : Nat} {s t : State} (h : Within m s t) (a0 : Nat) (a1 : List Byte) (hm : 0x30000080000 ||| m = m) : Within m s (combinedDecode a0 a1 t) := by
  unfold combinedDecode
  repeat' (first | with_reducible assumption | ((with_reducible refine Mask.sub hm ?_); first | exact rfl | (simp only [pageBit_ser]; exact rfl)) | with_reducible apply setReg_within | with_reducible apply rewriteWords_within | with_reducible apply count_within | with_reducible exact Within.refl | intro _ | split | dsimp only)

theorem execBqBlkReset_within {m : Nat} {s t u : State} (h : Within m s t) (hm : 0x20000034080800 ||| m = m) (e : execBqBlkReset t = .next u) : Within m s u := by
  unfold execBqBlkReset at e
  try dsimp only at e
  repeat' split at e
  all_goals (cases e; repeat' (first | with_reducible assumption | ((with_reducible refine Mask.sub hm ?_); first | exact rfl | (simp only [pageBit_ser]; exact rfl)) | with_reducible apply setReg_within | with_reducible apply blkReset_within | with_reducible exact Within.refl | intro _ | split | dsimp only))

theorem bqCfgPending_within {m : Nat} {s t : State} (h : Within m s t) (hm : 0x80000 ||| m = m) : Within m s (bqCfgPending t) := by
  unfold bqCfgPending
  repeat' (first | with_reducible assumption | ((with_reducible refine Mask.sub hm ?_); first | exact rfl | (simp only [pageBit_ser]; exact rfl)) | with_reducible apply setReg_within | with_reducible apply setB_within | with_reducible exact Within.refl | intro _ | split | dsimp only)

theorem bqBoundary_within {m : Nat} {s t : State} (h : Within m s t) (hm : 0x10000080000 ||| m = m) : Within m s (bqBoundary t) := by
  have b40 := Mask.has (i := 40) hm rfl
  unfold bqBoundary
  repeat' (first | with_reducible assumption | ((with_reducible refine Mask.sub hm ?_); first | exact rfl | (simp only [pageBit_ser]; exact rfl)) | with_reducible apply setReg_within | with_reducible apply bqCfgPending_within | with_reducible apply recountRings_within | with_reducible exact Within.refl | ((with_reducible refine Within.upd ?_ (.inl rfl) (.inl rfl) (.inl rfl) (.inl rfl) (.inl rfl) (.inl rfl) (.inl rfl) (.inl rfl) (.inl rfl) (.inl rfl) (.inl rfl) (.inl rfl) (.inl rfl) (.inl rfl) (.inl rfl) (.inl rfl) (.inr b40) (.inl rfl) (.inl rfl) (.inl rfl) (.inl rfl) (.inl rfl) (.inl rfl) (.inl rfl) (.inl rfl) (.inl rfl) (.inl rfl) (.inl rfl) (.inl rfl) (.inl rfl)); first | with_reducible assumption | ((with_reducible refine Mask.sub hm ?_); first | exact rfl | (simp only [pageBit_ser]; exact rfl)) | with_reducible apply setReg_within | with_reducible apply bqCfgPending_within | with_reducible apply recountRings_within | with_reducible exact Within.refl | split) | intro _ | split | dsimp only)

theorem execBqSelWrite_within {m : Nat} {s t u : State} (h : Within m s t) (a0 : Word) (hm : 0x80000 ||| m = m) (e : execBqSelWrite a0 t = .next u) : Within m s u := by
  unfold execBqSelWrite at e
  try dsimp only at e
  repeat' split at e
  all_goals (cases e; repeat' (first | with_reducible assumption | ((with_reducible refine Mask.sub hm ?_); first | exact rfl | (simp only [pageBit_ser]; exact rfl)) | with_reducible apply setReg_within | with_reducible apply setF_within | with_reducible apply setB_within | with_reducible exact Within.refl | intro _ | split | dsimp only))

theorem runForceRelease_within {m : Nat} {s t : State} (h : Within m s t) (a0 : Outstanding) (hm : 0x20018035080800 ||| m = m) : Within m s (runForceRelease a0 t) := by
  unfold runForceRelease
  repeat' (first | with_reducible assumption | ((with_reducible refine Mask.sub hm ?_); first | exact rfl | (simp only [pageBit_ser]; exact rfl)) | with_reducible apply setReg_within | with_reducible apply done_within | with_reducible apply raise_within | with_reducible apply closeQueue_within | with_reducible exact Within.refl | intro _ | split | dsimp only)

theorem execForceRelease_within {m : Nat} {s t u : State} (h : Within m s t) (a0 : CmdSrc) (hm : 0x20018035080800 ||| m = m) (e : execForceRelease a0 t = .next u) : Within m s u := by
  unfold execForceRelease at e
  try dsimp only at e
  repeat' split at e
  all_goals (cases e; repeat' (first | with_reducible assumption | ((with_reducible refine Mask.sub hm ?_); first | exact rfl | (simp only [pageBit_ser]; exact rfl)) | with_reducible apply setReg_within | with_reducible apply issue_within | with_reducible apply runForceRelease_within | with_reducible exact Within.refl | intro _ | split | dsimp only))

theorem runReadWords_within {m : Nat} {s t : State} (h : Within m s t) (a0 : Outstanding) (hm : 0x20000034080800 ||| m = m) : Within m s (runReadWords a0 t) := by
  unfold runReadWords
  repeat' (first | with_reducible assumption | ((with_reducible refine Mask.sub hm ?_); first | exact rfl | (simp only [pageBit_ser]; exact rfl)) | with_reducible apply setReg_within | with_reducible apply done_within | with_reducible exact Within.refl | intro _ | split | dsimp only)

theorem execReadWords_within {m : Nat} {s t u : State} (h : Within m s t) (a0 : CmdSrc) (hm : 0x20000034080800 ||| m = m) (e : execReadWords a0 t = .next u) : Within m s u := by
  unfold execReadWords at e
  try dsimp only at e
  repeat' split at e
  all_goals (cases e; repeat' (first | with_reducible assumption | ((with_reducible refine Mask.sub hm ?_); first | exact rfl | (simp only [pageBit_ser]; exact rfl)) | with_reducible apply setReg_within | with_reducible apply issue_within | with_reducible apply runReadWords_within | with_reducible exact Within.refl | intro _ | split | dsimp only))

theorem finishReadWords_within {m : Nat} {s t : State} (h : Within m s t) (a0 : Outstanding) (hm : 0x20020036080800 ||| m = m) : Within m s (finishReadWords a0 t) := by
  unfold finishReadWords
  repeat' (first | with_reducible assumption | ((with_reducible refine Mask.sub hm ?_); first | exact rfl | (simp only [pageBit_ser]; exact rfl)) | with_reducible apply setReg_within | with_reducible apply done_within | with_reducible apply busWrite_within | with_reducible exact Within.refl | intro _ | split | dsimp only)

end Sys2Proof.Machine
end

