-- ==== Sys2Proof/Laws/WithinEngine.lean ====
section
/-! SUPPORT. Sys2Proof/Laws/WithinEngine.lean: the parts of a state that the operations of Machine/Engine.lean may change. -/
namespace Sys2Proof.Machine

theorem gateCluster_within {m : Nat} {s t : State} (h : Within m s t) (a0 : Nat) (hm : 0x1000000 ||| m = m) : Within m s (gateCluster a0 t) := by
  unfold gateCluster
  repeat' (first | with_reducible assumption | ((with_reducible refine Mask.sub hm ?_); first | exact rfl | (simp only [pageBit_ser]; exact rfl)) | with_reducible apply setReg_within | with_reducible apply setRole_within | with_reducible apply Within.foldl | with_reducible exact Within.refl | intro _ | split | dsimp only)

theorem wakeStanding_within {m : Nat} {s t : State} (h : Within m s t) (a0 : Nat) (a1 : Wave) (hm : 0x1000000 ||| m = m) : Within m s (wakeStanding a0 a1 t) := by
  unfold wakeStanding
  repeat' (first | with_reducible assumption | ((with_reducible refine Mask.sub hm ?_); first | exact rfl | (simp only [pageBit_ser]; exact rfl)) | with_reducible apply setReg_within | with_reducible apply setRole_within | with_reducible exact Within.refl | intro _ | split | dsimp only)

theorem setFronts_within {m : Nat} {s t : State} (h : Within m s t) (a0 : Nat) (hm : 0x1000000 ||| m = m) : Within m s (setFronts a0 t) := by
  unfold setFronts
  repeat' (first | with_reducible assumption | ((with_reducible refine Mask.sub hm ?_); first | exact rfl | (simp only [pageBit_ser]; exact rfl)) | with_reducible apply setReg_within | with_reducible apply setRole_within | with_reducible apply Within.foldl | with_reducible exact Within.refl | intro _ | split | dsimp only)

theorem gateIdle_within {m : Nat} {s t : State} (h : Within m s t) (a0 : Nat) (a1 : Nat) (hm : 0x1000000 ||| m = m) : Within m s (gateIdle a0 a1 t) := by
  unfold gateIdle
  repeat' (first | with_reducible assumption | ((with_reducible refine Mask.sub hm ?_); first | exact rfl | (simp only [pageBit_ser]; exact rfl)) | with_reducible apply setReg_within | with_reducible apply setRole_within | with_reducible exact Within.refl | intro _ | split | dsimp only)

theorem setOutFronts_within {m : Nat} {s t : State} (h : Within m s t) (a0 : Nat) (hm : 0x1000000 ||| m = m) : Within m s (setOutFronts a0 t) := by
  unfold setOutFronts
  repeat' (first | with_reducible assumption | ((with_reducible refine Mask.sub hm ?_); first | exact rfl | (simp only [pageBit_ser]; exact rfl)) | with_reducible apply setReg_within | with_reducible apply gateIdle_within | with_reducible apply setRole_within | with_reducible apply Within.foldl | with_reducible exact Within.refl | intro _ | split | dsimp only)

theorem refreshCluster_within {m : Nat} {s t : State} (h : Within m s t) (a0 : Nat) (hm : 0x1000000 ||| m = m) : Within m s (refreshCluster a0 t) := by
  unfold refreshCluster
  repeat' (first | with_reducible assumption | ((with_reducible refine Mask.sub hm ?_); first | exact rfl | (simp only [pageBit_ser]; exact rfl)) | with_reducible apply setReg_within | with_reducible apply setOutFronts_within | with_reducible apply wakeStanding_within | with_reducible apply setFronts_within | with_reducible exact Within.refl | intro _ | split | dsimp only)

theorem refreshEngines_within {m : Nat} {s t : State} (h : Within m s t) (hm : 0x1000000 ||| m = m) : Within m s (refreshEngines t) := by
  unfold refreshEngines
  repeat' (first | with_reducible assumption | ((with_reducible refine Mask.sub hm ?_); first | exact rfl | (simp only [pageBit_ser]; exact rfl)) | with_reducible apply setReg_within | with_reducible apply refreshCluster_within | with_reducible apply Within.foldl | with_reducible exact Within.refl | intro _ | split | dsimp only)

theorem dropDetect_within {m : Nat} {s t : State} (h : Within m s t) (a0 : Nat) (hm : 0x20008021000000 ||| m = m) : Within m s (dropDetect a0 t) := by
  have b39 := Mask.has (i := 39) hm rfl
  unfold dropDetect
  repeat' (first | with_reducible assumption | ((with_reducible refine Mask.sub hm ?_); first | exact rfl | (simp only [pageBit_eng, engPage]; exact rfl)) | with_reducible apply setReg_within | with_reducible apply raise_within | with_reducible apply count_within | with_reducible exact Within.refl | ((with_reducible refine Within.upd ?_ (.inl rfl) (.inl rfl) (.inl rfl) (.inl rfl) (.inl rfl) (.inl rfl) (.inl rfl) (.inl rfl) (.inl rfl) (.inl rfl) (.inl rfl) (.inl rfl) (.inl rfl) (.inl rfl) (.inl rfl) (.inr b39) (.inl rfl) (.inl rfl) (.inl rfl) (.inl rfl) (.inl rfl) (.inl rfl) (.inl rfl) (.inl rfl) (.inl rfl) (.inl rfl) (.inl rfl) (.inl rfl) (.inl rfl) (.inl rfl)); first | with_reducible assumption | ((with_reducible refine Mask.sub hm ?_); first | exact rfl | (simp only [pageBit_eng, engPage]; exact rfl)) | with_reducible apply setReg_within | with_reducible apply raise_within | with_reducible apply count_within | with_reducible exact Within.refl | split) | intro _ | split | dsimp only)

theorem wakeRx_within {m : Nat} {s t : State} (h : Within m s t) (a0 : Nat) (a1 : Nat) (a2 : Wave) (hm : 0x1000000 ||| m = m) : Within m s (wakeRx a0 a1 a2 t) := by
  unfold wakeRx
  repeat' (first | with_reducible assumption | ((with_reducible refine Mask.sub hm ?_); first | exact rfl | (simp only [pageBit_ser]; exact rfl)) | with_reducible apply setReg_within | with_reducible apply setRole_within | with_reducible exact Within.refl | intro _ | split | dsimp only)

theorem openRx_within {m : Nat} {s t : State} (h : Within m s t) (a0 : Nat) (a1 : Burst) (hm : 0x20018021080000 ||| m = m) : Within m s (openRx a0 a1 t) := by
  unfold openRx
  repeat' (first | with_reducible assumption | ((with_reducible refine Mask.sub hm ?_); first | exact rfl | (simp only [pageBit_eng, engPage]; exact rfl)) | with_reducible apply setReg_within | with_reducible apply dropDetect_within | with_reducible apply raise_within | with_reducible apply count_within | with_reducible apply wakeRx_within | with_reducible apply openCtx_within | with_reducible apply openQueue_within | with_reducible exact Within.refl | intro _ | split | dsimp only)

theorem failTx_within {m : Nat} {s t : State} (h : Within m s t) (hm : 0x20000021000000 ||| m = m) : Within m s (failTx t) := by
  unfold failTx
  repeat' (first | with_reducible assumption | ((with_reducible refine Mask.sub hm ?_); first | exact rfl | (simp only [pageBit_eng]; exact rfl)) | with_reducible apply setReg_within | with_reducible apply raise_within | with_reducible apply count_within | with_reducible exact Within.refl | intro _ | split | dsimp only)

theorem openTx_within_eq {m : Nat} {s t u : State} {p : PlanItem} (e : openTx p t = some u) (h : Within m s t) (hm : 0x8001000000 ||| m = m) : Within m s u := by
  unfold openTx at e
  split at e
  · cases e
  · split at e
    · cases e
    · cases e
      exact openCtx_within (setRole_within h _ _ _ (Mask.sub hm rfl)) _ _ _ (Mask.sub hm rfl)

theorem execEngineWake_within {m : Nat} {s t u : State} (h : Within m s t) (a0 : Cluster) (a1 : Fin 16) (a2 : Wave) (hm : 0x1000000 ||| m = m) (e : execEngineWake a0 a1 a2 t = .next u) : Within m s u := by
  unfold execEngineWake at e
  try dsimp only at e
  repeat' split at e
  all_goals (cases e; repeat' (first | with_reducible assumption | ((with_reducible refine Mask.sub hm ?_); first | exact rfl | (simp only [pageBit_ser]; exact rfl)) | with_reducible apply setReg_within | with_reducible apply setRole_within | with_reducible exact Within.refl | intro _ | split | dsimp only))

theorem execEngineIdleGate_within {m : Nat} {s t u : State} (h : Within m s t) (a0 : Cluster) (a1 : Fin 16) (hm : 0x1000000 ||| m = m) (e : execEngineIdleGate a0 a1 t = .next u) : Within m s u := by
  unfold execEngineIdleGate at e
  try dsimp only at e
  repeat' split at e
  all_goals (cases e; repeat' (first | with_reducible assumption | ((with_reducible refine Mask.sub hm ?_); first | exact rfl | (simp only [pageBit_ser]; exact rfl)) | with_reducible apply setReg_within | with_reducible apply setRole_within | with_reducible exact Within.refl | intro _ | split | dsimp only))

theorem stopDrivers_within {m : Nat} {s t : State} (h : Within m s t) (a0 : Nat) (hm : 0x2000800000 ||| m = m) : Within m s (stopDrivers a0 t) := by
  unfold stopDrivers
  repeat' (first | with_reducible assumption | ((with_reducible refine Mask.sub hm ?_); first | exact rfl | (simp only [pageBit_ser]; exact rfl)) | with_reducible apply setReg_within | with_reducible apply driverOff_within | with_reducible apply Within.foldl | with_reducible exact Within.refl | intro _ | split | dsimp only)

theorem endBursts_within {m : Nat} {s t : State} (h : Within m s t) (a0 : Nat) (a1 : Nat) (hm : 0x2003a021800000 ||| m = m) : Within m s (endBursts a0 a1 t) := by
  unfold endBursts
  repeat' (first | with_reducible assumption | ((with_reducible refine Mask.sub hm ?_); first | exact rfl | (simp only [pageBit_ser]; exact rfl)) | with_reducible apply setReg_within | with_reducible apply completeAll_within | with_reducible apply stopDrivers_within | with_reducible exact Within.refl | intro _ | split | dsimp only)

theorem faultEngines_within {m : Nat} {s t : State} (h : Within m s t) (a0 : Nat) (hm : 0x1000000 ||| m = m) : Within m s (faultEngines a0 t) := by
  unfold faultEngines
  repeat' (first | with_reducible assumption | ((with_reducible refine Mask.sub hm ?_); first | exact rfl | (simp only [pageBit_ser]; exact rfl)) | with_reducible apply setReg_within | with_reducible apply setRole_within | with_reducible apply Within.foldl | with_reducible exact Within.refl | intro _ | split | dsimp only)

theorem clusterFault_within {m : Nat} {s t : State} (h : Within m s t) (a0 : Nat) (a1 : Nat) (a2 : Nat) (hm : 0x2003a035800808 ||| m = m) : Within m s (clusterFault a0 a1 a2 t) := by
  unfold clusterFault
  repeat' (first | with_reducible assumption | ((with_reducible refine Mask.sub hm ?_); first | exact rfl | (simp only [pageBit_eng, engPage]; exact rfl)) | with_reducible apply setReg_within | with_reducible apply complete_within | with_reducible apply endBursts_within | with_reducible apply countErr_within | with_reducible apply raise_within | with_reducible apply setFault_within | with_reducible apply diagReport_within | with_reducible apply setCluster_within | with_reducible apply setF_within | with_reducible apply faultEngines_within | with_reducible apply gateCluster_within | with_reducible exact Within.refl | intro _ | split | dsimp only)

theorem execClusterFault_within {m : Nat} {s t u : State} (h : Within m s t) (a0 : Cluster) (a1 : ClusterCause) (a2 : Fin 204800) (hm : 0x2003a035800808 ||| m = m) (e : execClusterFault a0 a1 a2 t = .next u) : Within m s u := by
  unfold execClusterFault at e
  try dsimp only at e
  repeat' split at e
  all_goals (cases e; repeat' (first | with_reducible assumption | ((with_reducible refine Mask.sub hm ?_); first | exact rfl | (simp only [pageBit_ser]; exact rfl)) | with_reducible apply setReg_within | with_reducible apply clusterFault_within | with_reducible exact Within.refl | intro _ | split | dsimp only))

theorem engReset_within {m : Nat} {s t : State} (h : Within m s t) (a0 : Nat) (hm : 0x2003a035800800 ||| m = m) : Within m s (engReset a0 t) := by
  unfold engReset
  repeat' (first | with_reducible assumption | ((with_reducible refine Mask.sub hm ?_); first | exact rfl | (simp only [pageBit_eng, engPage]; exact rfl)) | with_reducible apply setReg_within | with_reducible apply gateCluster_within | with_reducible apply endBursts_within | with_reducible apply blkReset_within | with_reducible apply setCluster_within | with_reducible exact Within.refl | intro _ | split | dsimp only)

theorem execEngBlkReset_within {m : Nat} {s t u : State} (h : Within m s t) (a0 : Cluster) (hm : 0x2003a035800800 ||| m = m) (e : execEngBlkReset a0 t = .next u) : Within m s u := by
  unfold execEngBlkReset at e
  try dsimp only at e
  repeat' split at e
  all_goals (cases e; repeat' (first | with_reducible assumption | ((with_reducible refine Mask.sub hm ?_); first | exact rfl | (simp only [pageBit_ser]; exact rfl)) | with_reducible apply setReg_within | with_reducible apply engReset_within | with_reducible exact Within.refl | intro _ | split | dsimp only))

theorem resumeCluster_within {m : Nat} {s t : State} (h : Within m s t) (a0 : Nat) (a1 : Bool) (hm : 0x20008021000000 ||| m = m) : Within m s (resumeCluster a0 a1 t) := by
  unfold resumeCluster
  repeat' (first | with_reducible assumption | ((with_reducible refine Mask.sub hm ?_); first | exact rfl | (simp only [pageBit_eng, engPage]; exact rfl)) | with_reducible apply setReg_within | with_reducible apply setF_within | with_reducible apply setFault_within | with_reducible apply setCluster_within | with_reducible apply raise_within | with_reducible exact Within.refl | intro _ | split | dsimp only)

theorem reloadIfDrained_within {m : Nat} {s t : State} (h : Within m s t) (a0 : Nat) (hm : 0x20008035000800 ||| m = m) : Within m s (reloadIfDrained a0 t) := by
  unfold reloadIfDrained
  repeat' (first | with_reducible assumption | ((with_reducible refine Mask.sub hm ?_); first | exact rfl | (simp only [pageBit_eng, engPage]; exact rfl)) | with_reducible apply setReg_within | with_reducible apply complete_within | with_reducible apply setCluster_within | with_reducible exact Within.refl | intro _ | split | dsimp only)

theorem clusterBoundary_within {m : Nat} {s t : State} (h : Within m s t) (a0 : Nat) (hm : 0x20008035000800 ||| m = m) : Within m s (clusterBoundary a0 t) := by
  unfold clusterBoundary
  repeat' (first | with_reducible assumption | ((with_reducible refine Mask.sub hm ?_); first | exact rfl | (simp only [pageBit_ser]; exact rfl)) | with_reducible apply setReg_within | with_reducible apply resumeCluster_within | with_reducible apply reloadIfDrained_within | with_reducible exact Within.refl | intro _ | split | dsimp only)

theorem engBoundary_within {m : Nat} {s t : State} (h : Within m s t) (hm : 0x20008035000800 ||| m = m) : Within m s (engBoundary t) := by
  unfold engBoundary
  repeat' (first | with_reducible assumption | ((with_reducible refine Mask.sub hm ?_); first | exact rfl | (simp only [pageBit_ser]; exact rfl)) | with_reducible apply setReg_within | with_reducible apply refreshEngines_within | with_reducible apply clusterBoundary_within | with_reducible apply Within.foldl | with_reducible exact Within.refl | intro _ | split | dsimp only)

theorem logDrops_within {m : Nat} {s t : State} (h : Within m s t) (hm : 0x20008028000020 ||| m = m) : Within m s (logDrops t) := by
  have b39 := Mask.has (i := 39) hm rfl
  unfold logDrops
  repeat' (first | with_reducible assumption | ((with_reducible refine Mask.sub hm ?_); first | exact rfl | (simp only [pageBit_eng]; exact rfl)) | with_reducible apply setReg_within | with_reducible apply logPage_within | with_reducible exact Within.refl | ((with_reducible refine Within.upd ?_ (.inl rfl) (.inl rfl) (.inl rfl) (.inl rfl) (.inl rfl) (.inl rfl) (.inl rfl) (.inl rfl) (.inl rfl) (.inl rfl) (.inl rfl) (.inl rfl) (.inl rfl) (.inl rfl) (.inl rfl) (.inr b39) (.inl rfl) (.inl rfl) (.inl rfl) (.inl rfl) (.inl rfl) (.inl rfl) (.inl rfl) (.inl rfl) (.inl rfl) (.inl rfl) (.inl rfl) (.inl rfl) (.inl rfl) (.inl rfl)); first | with_reducible assumption | ((with_reducible refine Mask.sub hm ?_); first | exact rfl | (simp only [pageBit_eng]; exact rfl)) | with_reducible apply setReg_within | with_reducible apply logPage_within | with_reducible exact Within.refl | split) | intro _ | split | dsimp only)

theorem runReloadCluster_within {m : Nat} {s t : State} (h : Within m s t) (a0 : Nat) (a1 : Outstanding) (hm : 0x20008035000800 ||| m = m) : Within m s (runReloadCluster a0 a1 t) := by
  unfold runReloadCluster
  repeat' (first | with_reducible assumption | ((with_reducible refine Mask.sub hm ?_); first | exact rfl | (simp only [pageBit_eng, engPage]; exact rfl)) | with_reducible apply setReg_within | with_reducible apply done_within | with_reducible apply setCluster_within | with_reducible exact Within.refl | intro _ | split | dsimp only)

theorem execReloadCluster_within {m : Nat} {s t u : State} (h : Within m s t) (a0 : Cluster) (a1 : CmdSrc) (hm : 0x20008035000800 ||| m = m) (e : execReloadCluster a0 a1 t = .next u) : Within m s u := by
  unfold execReloadCluster at e
  try dsimp only at e
  repeat' split at e
  all_goals (cases e; repeat' (first | with_reducible assumption | ((with_reducible refine Mask.sub hm ?_); first | exact rfl | (simp only [pageBit_eng]; exact rfl)) | with_reducible apply setReg_within | with_reducible apply issue_within | with_reducible apply runReloadCluster_within | with_reducible exact Within.refl | intro _ | split | dsimp only))

theorem abortReload_within {m : Nat} {s t : State} (h : Within m s t) (a0 : Nat) (hm : 0x20008035000800 ||| m = m) : Within m s (abortReload a0 t) := by
  unfold abortReload
  repeat' (first | with_reducible assumption | ((with_reducible refine Mask.sub hm ?_); first | exact rfl | (simp only [pageBit_eng, engPage]; exact rfl)) | with_reducible apply setReg_within | with_reducible apply done_within | with_reducible apply setCluster_within | with_reducible exact Within.refl | intro _ | split | dsimp only)

theorem runAbortBurst_within {m : Nat} {s t : State} (h : Within m s t) (a0 : Page) (a1 : Outstanding) (hm : 0x2003a035800800 ||| m = m) (hp0 : pageBit a0 ||| m = m) : Within m s (runAbortBurst a0 a1 t) := by
  unfold runAbortBurst
  repeat' (first | with_reducible assumption | ((with_reducible refine Mask.sub hm ?_); first | exact rfl | (simp only [pageBit_ser]; exact rfl)) | with_reducible apply setReg_within | with_reducible apply done_within | with_reducible apply completeBurst_within | with_reducible apply driverOff_within | with_reducible exact Within.refl | intro _ | split | dsimp only)

theorem execAbortBurst_within {m : Nat} {s t u : State} (h : Within m s t) (a0 : Cluster) (a1 : CmdSrc) (hm : 0x2003a035800800 ||| m = m) (e : execAbortBurst a0 a1 t = .next u) : Within m s u := by
  unfold execAbortBurst at e
  try dsimp only at e
  repeat' split at e
  all_goals (cases e; repeat' (first | with_reducible assumption | ((with_reducible refine Mask.sub hm ?_); first | exact rfl | (simp only [pageBit_eng]; exact rfl)) | with_reducible apply setReg_within | with_reducible apply issue_within | with_reducible apply runAbortBurst_within | with_reducible exact Within.refl | intro _ | split | dsimp only))

theorem execEngCtxSelWrite_within {m : Nat} {s t u : State} (h : Within m s t) (value : Word) (hm : 0x1000000 ||| m = m) (e : execEngCtxSelWrite value t = .next u) : Within m s u := by
  unfold execEngCtxSelWrite at e
  obtain rfl := Host.Outcome.next.inj e
  exact setF_within (setF_within (setF_within (setB_within (setF_within (setF_within h _ _ _ (Mask.sub hm (by rw [pageBit_eng]; rfl))) _ _ _ (Mask.sub hm (by rw [pageBit_eng]; rfl))) _ _ _ (Mask.sub hm (by rw [pageBit_eng]; rfl))) _ _ _ (Mask.sub hm (by rw [pageBit_eng]; rfl))) _ _ _ (Mask.sub hm (by rw [pageBit_eng]; rfl))) _ _ _ (Mask.sub hm (by rw [pageBit_eng]; rfl))

end Sys2Proof.Machine
end

