-- ==== Sys2Proof/Laws/WithinMem.lean ====
section
/-! SUPPORT. Sys2Proof/Laws/WithinMem.lean: the parts of a state that the operations of Machine/Mem.lean may change. -/
namespace Sys2Proof.Machine

theorem freeBytes_within {m : Nat} {s t : State} (h : Within m s t) (a0 : Nat) (hm : 0x10000000000000 ||| m = m) : Within m s (freeBytes a0 t).2 := by
  have b52 := Mask.has (i := 52) hm rfl
  unfold freeBytes
  repeat' (first | with_reducible assumption | ((with_reducible refine Mask.sub hm ?_); first | exact rfl | (simp only [pageBit_ser]; exact rfl)) | with_reducible apply setReg_within | with_reducible exact Within.refl | ((with_reducible refine Within.upd ?_ (.inl rfl) (.inl rfl) (.inl rfl) (.inl rfl) (.inl rfl) (.inl rfl) (.inl rfl) (.inl rfl) (.inl rfl) (.inl rfl) (.inl rfl) (.inl rfl) (.inl rfl) (.inl rfl) (.inl rfl) (.inl rfl) (.inl rfl) (.inl rfl) (.inl rfl) (.inl rfl) (.inl rfl) (.inl rfl) (.inl rfl) (.inl rfl) (.inl rfl) (.inl rfl) (.inl rfl) (.inl rfl) (.inr b52) (.inl rfl)); first | with_reducible assumption | ((with_reducible refine Mask.sub hm ?_); first | exact rfl | (simp only [pageBit_ser]; exact rfl)) | with_reducible apply setReg_within | with_reducible exact Within.refl | split) | intro _ | split | dsimp only)

theorem freeBytes_within_eq {m : Nat} {s t u : State} {a0 : Nat} {y0} (e : freeBytes a0 t = (y0, u)) (h : Within m s t) (hm : 0x10000000000000 ||| m = m) : Within m s u := by
  have k := freeBytes_within h a0 hm
  rw [e] at k
  exact k

theorem freeWord_within {m : Nat} {s t : State} (h : Within m s t) (hm : 0x10000000000000 ||| m = m) : Within m s (freeWord t).2 := by
  have b52 := Mask.has (i := 52) hm rfl
  unfold freeWord
  repeat' (first | with_reducible assumption | ((with_reducible refine Mask.sub hm ?_); first | exact rfl | (simp only [pageBit_ser]; exact rfl)) | with_reducible apply setReg_within | with_reducible exact Within.refl | ((with_reducible refine Within.upd ?_ (.inl rfl) (.inl rfl) (.inl rfl) (.inl rfl) (.inl rfl) (.inl rfl) (.inl rfl) (.inl rfl) (.inl rfl) (.inl rfl) (.inl rfl) (.inl rfl) (.inl rfl) (.inl rfl) (.inl rfl) (.inl rfl) (.inl rfl) (.inl rfl) (.inl rfl) (.inl rfl) (.inl rfl) (.inl rfl) (.inl rfl) (.inl rfl) (.inl rfl) (.inl rfl) (.inl rfl) (.inl rfl) (.inr b52) (.inl rfl)); first | with_reducible assumption | ((with_reducible refine Mask.sub hm ?_); first | exact rfl | (simp only [pageBit_ser]; exact rfl)) | with_reducible apply setReg_within | with_reducible exact Within.refl | split) | intro _ | split | dsimp only)

theorem freeWord_within_eq {m : Nat} {s t u : State}  {y0} (e : freeWord t = (y0, u)) (h : Within m s t) (hm : 0x10000000000000 ||| m = m) : Within m s u := by
  have k := freeWord_within h hm
  rw [e] at k
  exact k

theorem leaveOpen_within {m : Nat} {s t : State} (h : Within m s t) (a0 : Nat) (a1 : Nat) (hm : 0x30020022000000 ||| m = m) : Within m s (leaveOpen a0 a1 t) := by
  unfold leaveOpen
  repeat' (first | with_reducible assumption | ((with_reducible refine Mask.sub hm ?_); first | exact rfl | (simp only [pageBit_ser]; exact rfl)) | with_reducible apply setReg_within | with_reducible apply freeBytes_within | with_reducible apply busWrite_within | (with_reducible refine freeBytes_within_eq (by assumption) ?_ ?_) | with_reducible exact Within.refl | intro _ | split | dsimp only)

theorem addConflict_within {m : Nat} {s t : State} (h : Within m s t) (a0 : Nat) (a1 : Nat) (a2 : Nat) (hm : 0x20000000000 ||| m = m) : Within m s (addConflict a0 a1 a2 t) := by
  have b41 := Mask.has (i := 41) hm rfl
  unfold addConflict
  repeat' (first | with_reducible assumption | ((with_reducible refine Mask.sub hm ?_); first | exact rfl | (simp only [pageBit_ser]; exact rfl)) | with_reducible apply setReg_within | with_reducible exact Within.refl | ((with_reducible refine Within.upd ?_ (.inl rfl) (.inl rfl) (.inl rfl) (.inl rfl) (.inl rfl) (.inl rfl) (.inl rfl) (.inl rfl) (.inl rfl) (.inl rfl) (.inl rfl) (.inl rfl) (.inl rfl) (.inl rfl) (.inl rfl) (.inl rfl) (.inl rfl) (.inr b41) (.inl rfl) (.inl rfl) (.inl rfl) (.inl rfl) (.inl rfl) (.inl rfl) (.inl rfl) (.inl rfl) (.inl rfl) (.inl rfl) (.inl rfl) (.inl rfl)); first | with_reducible assumption | ((with_reducible refine Mask.sub hm ?_); first | exact rfl | (simp only [pageBit_ser]; exact rfl)) | with_reducible apply setReg_within | with_reducible exact Within.refl | split) | intro _ | split | dsimp only)

theorem eccSingle_within {m : Nat} {s t : State} (h : Within m s t) (a0 : Nat) (a1 : Nat) (hm : 0x2000000 ||| m = m) : Within m s (eccSingle a0 a1 t) := by
  unfold eccSingle
  repeat' (first | with_reducible assumption | ((with_reducible refine Mask.sub hm ?_); first | exact rfl | (simp only [pageBit_memb]; exact rfl)) | with_reducible apply setReg_within | with_reducible apply setF_within | with_reducible apply count_within | with_reducible exact Within.refl | intro _ | split | dsimp only)

theorem eccUncorrectable_within {m : Nat} {s t : State} (h : Within m s t) (a0 : Nat) (hm : 0x20000022000008 ||| m = m) : Within m s (eccUncorrectable a0 t) := by
  unfold eccUncorrectable
  repeat' (first | with_reducible assumption | ((with_reducible refine Mask.sub hm ?_); first | exact rfl | (simp only [pageBit_memb]; exact rfl)) | with_reducible apply setReg_within | with_reducible apply setF_within | with_reducible apply diagReport_within | with_reducible apply raise_within | with_reducible apply count_within | with_reducible exact Within.refl | intro _ | split | dsimp only)

theorem unperformed_within {m : Nat} {s t : State} (h : Within m s t) (hm : 0x20000020400000 ||| m = m) : Within m s (unperformed t) := by
  unfold unperformed
  repeat' (first | with_reducible assumption | ((with_reducible refine Mask.sub hm ?_); first | exact rfl | (simp only [pageBit_ser]; exact rfl)) | with_reducible apply setReg_within | with_reducible apply countErr_within | with_reducible apply raise_within | with_reducible exact Within.refl | intro _ | split | dsimp only)

theorem returnBytes_within {m : Nat} {s t : State} (h : Within m s t) (a0 : List Byte) (hm : 0x20000000000000 ||| m = m) : Within m s (returnBytes a0 t) := by
  unfold returnBytes
  repeat' (first | with_reducible assumption | ((with_reducible refine Mask.sub hm ?_); first | exact rfl | (simp only [pageBit_ser]; exact rfl)) | with_reducible apply setReg_within | with_reducible apply emit_within | with_reducible exact Within.refl | intro _ | split | dsimp only)

theorem collide_within {m : Nat} {s t : State} (h : Within m s t) (a0 : Nat) (a1 : Bool) (a2 : Option Collision) (hm : 0x20002000000 ||| m = m) : Within m s (collide a0 a1 a2 t) := by
  unfold collide
  repeat' (first | with_reducible assumption | ((with_reducible refine Mask.sub hm ?_); first | exact rfl | (simp only [pageBit_memb]; exact rfl)) | with_reducible apply setReg_within | with_reducible apply addConflict_within | with_reducible apply count_within | with_reducible apply setBytes_within | with_reducible exact Within.refl | intro _ | split | dsimp only)

theorem winRead_within {m : Nat} {s t : State} (h : Within m s t) (a0 : Nat) (a1 : Nat) (a2 : ReadErr) (hm : 0x30000022000008 ||| m = m) : Within m s (winRead a0 a1 a2 t) := by
  unfold winRead
  repeat' (first | with_reducible assumption | ((with_reducible refine Mask.sub hm ?_); first | exact rfl | (simp only [pageBit_ser]; exact rfl)) | with_reducible apply setReg_within | with_reducible apply touchArea_within | with_reducible apply returnBytes_within | with_reducible apply eccSingle_within | with_reducible apply freeBytes_within | with_reducible apply eccUncorrectable_within | (with_reducible refine freeBytes_within_eq (by assumption) ?_ ?_) | with_reducible exact Within.refl | intro _ | split | dsimp only)

theorem writeExcept_within {m : Nat} {s t : State} (h : Within m s t) (a0 : Nat) (a1 : Nat) (a2 : List Byte) (hm : 0x20000000000 ||| m = m) : Within m s (writeExcept a0 a1 a2 t) := by
  induction a2 generalizing t a0 a1 with
  | nil =>
    unfold writeExcept
    repeat' (first | with_reducible assumption | with_reducible apply ih | ((with_reducible refine Mask.sub hm ?_); first | exact rfl | (simp only [pageBit_ser]; exact rfl)) | with_reducible apply setReg_within | with_reducible apply busSet_within | with_reducible exact Within.refl | intro _ | split | dsimp only)
  | cons _ _ ih =>
    unfold writeExcept
    repeat' (first | with_reducible assumption | with_reducible apply ih | ((with_reducible refine Mask.sub hm ?_); first | exact rfl | (simp only [pageBit_ser]; exact rfl)) | with_reducible apply setReg_within | with_reducible apply busSet_within | with_reducible exact Within.refl | intro _ | split | dsimp only)

theorem winWrite_within {m : Nat} {s t : State} (h : Within m s t) (a0 : Nat) (a1 : List Byte) (a2 : ReadErr) (hm : 0x20020022400008 ||| m = m) : Within m s (winWrite a0 a1 a2 t) := by
  unfold winWrite
  repeat' (first | with_reducible assumption | ((with_reducible refine Mask.sub hm ?_); first | exact rfl | (simp only [pageBit_ser]; exact rfl)) | with_reducible apply setReg_within | with_reducible apply busWrite_within | with_reducible apply eccSingle_within | with_reducible apply unperformed_within | with_reducible apply eccUncorrectable_within | with_reducible apply writeExcept_within | with_reducible apply touchArea_within | with_reducible exact Within.refl | intro _ | split | dsimp only)

theorem windowAccess_within {m : Nat} {s t : State} (h : Within m s t) (a0 : Nat) (a1 : WinAccess) (a2 : ReadErr) (a3 : Option Collision) (a4 : Nat) (hm : 0x30020022400008 ||| m = m) : Within m s (windowAccess a0 a1 a2 a3 a4 t) := by
  unfold windowAccess
  repeat' (first | with_reducible assumption | ((with_reducible refine Mask.sub hm ?_); first | exact rfl | (simp only [pageBit_ser]; exact rfl)) | with_reducible apply setReg_within | with_reducible apply returnBytes_within | with_reducible apply unperformed_within | with_reducible apply collide_within | with_reducible apply winRead_within | with_reducible apply addConflict_within | with_reducible apply winWrite_within | with_reducible exact Within.refl | intro _ | split | dsimp only)

theorem execWindowAccess_within {m : Nat} {s t u : State} (h : Within m s t) (a0 : BitVec 24) (a1 : WinAccess) (a2 : ReadErr) (a3 : Option Collision) (a4 : Nat) (hm : 0x30020022400008 ||| m = m) (e : execWindowAccess a0 a1 a2 a3 a4 t = .next u) : Within m s u := by
  unfold execWindowAccess at e
  try dsimp only at e
  repeat' split at e
  all_goals (cases e; repeat' (first | with_reducible assumption | ((with_reducible refine Mask.sub hm ?_); first | exact rfl | (simp only [pageBit_ser]; exact rfl)) | with_reducible apply setReg_within | with_reducible apply windowAccess_within | with_reducible exact Within.refl | intro _ | split | dsimp only))

theorem execWindowGrantTimeout_within {m : Nat} {s t u : State} (h : Within m s t) (a0 : WinAccess) (hm : 0x20000020400000 ||| m = m) (e : execWindowGrantTimeout a0 t = .next u) : Within m s u := by
  unfold execWindowGrantTimeout at e
  try dsimp only at e
  repeat' split at e
  all_goals (cases e; repeat' (first | with_reducible assumption | ((with_reducible refine Mask.sub hm ?_); first | exact rfl | (simp only [pageBit_ser]; exact rfl)) | with_reducible apply setReg_within | with_reducible apply returnBytes_within | with_reducible apply unperformed_within | with_reducible exact Within.refl | intro _ | split | dsimp only))

theorem zeroBank_within {m : Nat} {s t : State} (h : Within m s t) (a0 : Nat) (hm : 0x20000000000 ||| m = m) : Within m s (zeroBank a0 t) := by
  have b41 := Mask.has (i := 41) hm rfl
  unfold zeroBank
  repeat' (first | with_reducible assumption | ((with_reducible refine Mask.sub hm ?_); first | exact rfl | (simp only [pageBit_ser]; exact rfl)) | with_reducible apply setReg_within | with_reducible exact Within.refl | ((with_reducible refine Within.upd ?_ (.inl rfl) (.inl rfl) (.inl rfl) (.inl rfl) (.inl rfl) (.inl rfl) (.inl rfl) (.inl rfl) (.inl rfl) (.inl rfl) (.inl rfl) (.inl rfl) (.inl rfl) (.inl rfl) (.inl rfl) (.inl rfl) (.inl rfl) (.inr b41) (.inl rfl) (.inl rfl) (.inl rfl) (.inl rfl) (.inl rfl) (.inl rfl) (.inl rfl) (.inl rfl) (.inl rfl) (.inl rfl) (.inl rfl) (.inl rfl)); first | with_reducible assumption | ((with_reducible refine Mask.sub hm ?_); first | exact rfl | (simp only [pageBit_ser]; exact rfl)) | with_reducible apply setReg_within | with_reducible exact Within.refl | split) | intro _ | split | dsimp only)

theorem powerTo_within {m : Nat} {s t : State} (h : Within m s t) (a0 : Bank) (a1 : Nat) (hm : 0x20002000000 ||| m = m) : Within m s (powerTo a0 a1 t) := by
  unfold powerTo
  repeat' (first | with_reducible assumption | ((with_reducible refine Mask.sub hm ?_); first | exact rfl | (simp only [pageBit_memb]; exact rfl)) | with_reducible apply setReg_within | with_reducible apply setBank_within | with_reducible apply zeroBank_within | with_reducible apply setF_within | with_reducible exact Within.refl | intro _ | split | dsimp only)

theorem execMembPowerWrite_within {m : Nat} {s t u : State} (h : Within m s t) (a0 : Bank) (a1 : Word) (hm : 0x20020022000000 ||| m = m) (e : execMembPowerWrite a0 a1 t = .next u) : Within m s u := by
  unfold execMembPowerWrite at e
  try dsimp only at e
  repeat' split at e
  all_goals (cases e; repeat' (first | with_reducible assumption | ((with_reducible refine Mask.sub hm ?_); first | exact rfl | (simp only [pageBit_memb]; exact rfl)) | with_reducible apply setReg_within | with_reducible apply countErr_within | with_reducible apply raise_within | with_reducible apply powerTo_within | with_reducible apply setF_within | with_reducible exact Within.refl | intro _ | split | dsimp only))

theorem execBankRetentionReturn_within {m : Nat} {s t u : State} (h : Within m s t) (b : Bank) (hm : 0x2000000 ||| m = m) (e : execBankRetentionReturn b t = .next u) : Within m s u := by
  unfold execBankRetentionReturn at e
  obtain rfl := Host.Outcome.next.inj e
  split
  · exact setF_within h _ _ _ (Mask.sub hm (by rw [pageBit_memb]; rfl))
  · exact h

theorem execBankZeroed_within {m : Nat} {s t u : State} (h : Within m s t) (a0 : Bank) (hm : 0x20000000000 ||| m = m) (e : execBankZeroed a0 t = .next u) : Within m s u := by
  unfold execBankZeroed at e
  try dsimp only at e
  repeat' split at e
  all_goals (cases e; repeat' (first | with_reducible assumption | ((with_reducible refine Mask.sub hm ?_); first | exact rfl | (simp only [pageBit_ser]; exact rfl)) | with_reducible apply setReg_within | with_reducible apply setBank_within | with_reducible exact Within.refl | intro _ | split | dsimp only))

theorem setSpare_within {m : Nat} {s t : State} (h : Within m s t) (a0 : Bank) (a1 : Nat) (a2 : Nat) (hm : 0x2000000 ||| m = m) : Within m s (setSpare a0 a1 a2 t) := by
  unfold setSpare
  repeat' (first | with_reducible assumption | ((with_reducible refine Mask.sub hm ?_); first | exact rfl | (simp only [pageBit_memb]; exact rfl)) | with_reducible apply setReg_within | with_reducible exact Within.refl | intro _ | split | dsimp only)

theorem takeSpare_within {m : Nat} {s t : State} (h : Within m s t) (a0 : Bank) (a1 : Nat) (a2 : Nat) (hm : 0x2000000 ||| m = m) : Within m s (takeSpare a0 a1 a2 t) := by
  unfold takeSpare
  repeat' (first | with_reducible assumption | ((with_reducible refine Mask.sub hm ?_); first | exact rfl | (simp only [pageBit_ser]; exact rfl)) | with_reducible apply setReg_within | with_reducible apply setSpare_within | with_reducible exact Within.refl | intro _ | split | dsimp only)

theorem startWalk_within {m : Nat} {s t : State} (h : Within m s t) (a0 : Bank) (a1 : Nat) (a2 : Nat) (hm : 0x20000000000 ||| m = m) : Within m s (startWalk a0 a1 a2 t) := by
  unfold startWalk
  repeat' (first | with_reducible assumption | ((with_reducible refine Mask.sub hm ?_); first | exact rfl | (simp only [pageBit_ser]; exact rfl)) | with_reducible apply setReg_within | with_reducible apply setBank_within | with_reducible exact Within.refl | intro _ | split | dsimp only)

theorem autoRepair_within {m : Nat} {s t : State} (h : Within m s t) (a0 : Bank) (a1 : Nat) (hm : 0x20002000000 ||| m = m) : Within m s (autoRepair a0 a1 t) := by
  unfold autoRepair
  repeat' (first | with_reducible assumption | ((with_reducible refine Mask.sub hm ?_); first | exact rfl | (simp only [pageBit_memb]; exact rfl)) | with_reducible apply setReg_within | with_reducible apply startWalk_within | with_reducible apply setFault_within | with_reducible apply setF_within | with_reducible exact Within.refl | intro _ | split | dsimp only)

theorem execSoftRepairWalkEnd_within {m : Nat} {s t u : State} (h : Within m s t) (a0 : Bank) (hm : 0x20020036000800 ||| m = m) (e : execSoftRepairWalkEnd a0 t = .next u) : Within m s u := by
  unfold execSoftRepairWalkEnd at e
  try dsimp only at e
  repeat' split at e
  all_goals (cases e; repeat' (first | with_reducible assumption | ((with_reducible refine Mask.sub hm ?_); first | exact rfl | (simp only [pageBit_memb]; exact rfl)) | with_reducible apply setReg_within | with_reducible apply raise_within | with_reducible apply takeSpare_within | with_reducible apply setBank_within | with_reducible apply complete_within | with_reducible exact Within.refl | intro _ | split | dsimp only))

theorem runSoftRepair_within {m : Nat} {s t : State} (h : Within m s t) (a0 : Bank) (a1 : Outstanding) (hm : 0x20020036000800 ||| m = m) : Within m s (runSoftRepair a0 a1 t) := by
  unfold runSoftRepair
  repeat' (first | with_reducible assumption | ((with_reducible refine Mask.sub hm ?_); first | exact rfl | (simp only [pageBit_memb]; exact rfl)) | with_reducible apply setReg_within | with_reducible apply done_within | with_reducible apply startWalk_within | with_reducible exact Within.refl | intro _ | split | dsimp only)

theorem execSoftRepair_within {m : Nat} {s t u : State} (h : Within m s t) (a0 : Bank) (a1 : CmdSrc) (hm : 0x20020036000800 ||| m = m) (e : execSoftRepair a0 a1 t = .next u) : Within m s u := by
  unfold execSoftRepair at e
  try dsimp only at e
  repeat' split at e
  all_goals (cases e; repeat' (first | with_reducible assumption | ((with_reducible refine Mask.sub hm ?_); first | exact rfl | (simp only [pageBit_memb]; exact rfl)) | with_reducible apply setReg_within | with_reducible apply issue_within | with_reducible apply runSoftRepair_within | with_reducible exact Within.refl | intro _ | split | dsimp only))

theorem abortSoftRepair_within {m : Nat} {s t : State} (h : Within m s t) (a0 : Bank) (a1 : Outstanding) (hm : 0x20020036000800 ||| m = m) : Within m s (abortSoftRepair a0 a1 t) := by
  unfold abortSoftRepair
  repeat' (first | with_reducible assumption | ((with_reducible refine Mask.sub hm ?_); first | exact rfl | (simp only [pageBit_memb]; exact rfl)) | with_reducible apply setReg_within | with_reducible apply done_within | with_reducible apply setBank_within | with_reducible exact Within.refl | intro _ | split | dsimp only)

theorem execFuseBurnDone_within {m : Nat} {s t u : State} (h : Within m s t) (hm : 0x20020020400000 ||| m = m) (e : execFuseBurnDone t = .next u) : Within m s u := by
  have b41 := Mask.has (i := 41) hm rfl
  unfold execFuseBurnDone at e
  try dsimp only at e
  repeat' split at e
  all_goals (cases e; repeat' (first | with_reducible assumption | ((with_reducible refine Mask.sub hm ?_); first | exact rfl | (simp only [pageBit_ser]; exact rfl)) | with_reducible apply setReg_within | with_reducible apply setF_within | with_reducible apply raise_within | with_reducible apply setB_within | with_reducible exact Within.refl | ((with_reducible refine Within.upd ?_ (.inl rfl) (.inl rfl) (.inl rfl) (.inl rfl) (.inl rfl) (.inl rfl) (.inl rfl) (.inl rfl) (.inl rfl) (.inl rfl) (.inl rfl) (.inl rfl) (.inl rfl) (.inl rfl) (.inl rfl) (.inl rfl) (.inl rfl) (.inr b41) (.inl rfl) (.inl rfl) (.inl rfl) (.inl rfl) (.inl rfl) (.inl rfl) (.inl rfl) (.inl rfl) (.inl rfl) (.inl rfl) (.inl rfl) (.inl rfl)); first | with_reducible assumption | ((with_reducible refine Mask.sub hm ?_); first | exact rfl | (simp only [pageBit_ser]; exact rfl)) | with_reducible apply setReg_within | with_reducible apply setF_within | with_reducible apply raise_within | with_reducible apply setB_within | with_reducible exact Within.refl | split) | intro _ | split | dsimp only))

theorem badgerAt_within {m : Nat} {s t : State} (h : Within m s t) (a0 : Nat) (a1 : Nat) (hm : 0x20000400000 ||| m = m) : Within m s (badgerAt a0 a1 t) := by
  have b41 := Mask.has (i := 41) hm rfl
  unfold badgerAt
  repeat' (first | with_reducible assumption | ((with_reducible refine Mask.sub hm ?_); first | exact rfl | (simp only [pageBit_ser]; exact rfl)) | with_reducible apply setReg_within | with_reducible apply setF_within | with_reducible exact Within.refl | ((with_reducible refine Within.upd ?_ (.inl rfl) (.inl rfl) (.inl rfl) (.inl rfl) (.inl rfl) (.inl rfl) (.inl rfl) (.inl rfl) (.inl rfl) (.inl rfl) (.inl rfl) (.inl rfl) (.inl rfl) (.inl rfl) (.inl rfl) (.inl rfl) (.inl rfl) (.inr b41) (.inl rfl) (.inl rfl) (.inl rfl) (.inl rfl) (.inl rfl) (.inl rfl) (.inl rfl) (.inl rfl) (.inl rfl) (.inl rfl) (.inl rfl) (.inl rfl)); first | with_reducible assumption | ((with_reducible refine Mask.sub hm ?_); first | exact rfl | (simp only [pageBit_ser]; exact rfl)) | with_reducible apply setReg_within | with_reducible apply setF_within | with_reducible exact Within.refl | split) | intro _ | split | dsimp only)

theorem badgerRestart_within {m : Nat} {s t : State} (h : Within m s t) (a0 : Nat) (hm : 0x20000400000 ||| m = m) : Within m s (badgerRestart a0 t) := by
  unfold badgerRestart
  repeat' (first | with_reducible assumption | ((with_reducible refine Mask.sub hm ?_); first | exact rfl | (simp only [pageBit_ser]; exact rfl)) | with_reducible apply setReg_within | with_reducible apply setF_within | with_reducible apply badgerAt_within | with_reducible exact Within.refl | intro _ | split | dsimp only)

theorem badgerNext_within {m : Nat} {s t : State} (h : Within m s t) (hm : 0x20000400000 ||| m = m) : Within m s (badgerNext t) := by
  unfold badgerNext
  repeat' (first | with_reducible assumption | ((with_reducible refine Mask.sub hm ?_); first | exact rfl | (simp only [pageBit_ser]; exact rfl)) | with_reducible apply setReg_within | with_reducible apply badgerAt_within | with_reducible apply badgerRestart_within | with_reducible exact Within.refl | intro _ | split | dsimp only)

theorem badgerSeat_within {m : Nat} {s t : State} (h : Within m s t) (hm : 0x20000400000 ||| m = m) : Within m s (badgerSeat t) := by
  unfold badgerSeat
  repeat' (first | with_reducible assumption | ((with_reducible refine Mask.sub hm ?_); first | exact rfl | (simp only [pageBit_ser]; exact rfl)) | with_reducible apply setReg_within | with_reducible apply badgerAt_within | with_reducible apply badgerRestart_within | with_reducible exact Within.refl | intro _ | split | dsimp only)

theorem badgerFail_within {m : Nat} {s t : State} (h : Within m s t) (a0 : Nat) (a1 : Nat) (hm : 0x20020022400008 ||| m = m) : Within m s (badgerFail a0 a1 t) := by
  unfold badgerFail
  repeat' (first | with_reducible assumption | ((with_reducible refine Mask.sub hm ?_); first | exact rfl | (simp only [pageBit_ser]; exact rfl)) | with_reducible apply setReg_within | with_reducible apply count_within | with_reducible apply setF_within | with_reducible apply diagReport_within | with_reducible apply raise_within | with_reducible apply autoRepair_within | with_reducible apply setBank_within | with_reducible exact Within.refl | intro _ | split | dsimp only)

theorem badgerFind_within {m : Nat} {s t : State} (h : Within m s t) (a1 : BadgerFind) (hm : 0x20020022400008 ||| m = m) : Within m s (badgerFind t a1) := by
  unfold badgerFind
  repeat' (first | with_reducible assumption | ((with_reducible refine Mask.sub hm ?_); first | exact rfl | (simp only [pageBit_ser]; exact rfl)) | with_reducible apply setReg_within | with_reducible apply eccSingle_within | with_reducible apply eccUncorrectable_within | with_reducible apply badgerFail_within | with_reducible exact Within.refl | intro _ | split | dsimp only)

theorem badgerFinds_within {m : Nat} {s t : State} (h : Within m s t) (a0 : Nat) (a1 : List BadgerFind) (hm : 0x20020022400008 ||| m = m) : Within m s (badgerFinds a0 a1 t) := by
  unfold badgerFinds
  repeat' (first | with_reducible assumption | ((with_reducible refine Mask.sub hm ?_); first | exact rfl | (simp only [pageBit_ser]; exact rfl)) | with_reducible apply setReg_within | with_reducible apply badgerFind_within | with_reducible apply Within.foldl | with_reducible exact Within.refl | intro _ | split | dsimp only)

theorem execBadgerStripe_within {m : Nat} {s t u : State} (h : Within m s t) (a0 : List BadgerFind) (a1 : Nat) (hm : 0x20020022400008 ||| m = m) (e : execBadgerStripe a0 a1 t = .next u) : Within m s u := by
  unfold execBadgerStripe at e
  try dsimp only at e
  repeat' split at e
  all_goals (cases e; repeat' (first | with_reducible assumption | ((with_reducible refine Mask.sub hm ?_); first | exact rfl | (simp only [pageBit_memb]; exact rfl)) | with_reducible apply setReg_within | with_reducible apply setB_within | with_reducible apply badgerSeat_within | with_reducible apply badgerNext_within | with_reducible apply badgerFinds_within | with_reducible apply addConflict_within | with_reducible apply countN_within | with_reducible exact Within.refl | intro _ | split | dsimp only))

theorem execBadgerYield_within {m : Nat} {s t u : State} (h : Within m s t) (a0 : Fin 64) (a1 : List BadgerFind) (hm : 0x20020022400008 ||| m = m) (e : execBadgerYield a0 a1 t = .next u) : Within m s u := by
  have b41 := Mask.has (i := 41) hm rfl
  unfold execBadgerYield at e
  try dsimp only at e
  repeat' split at e
  all_goals (cases e; repeat' (first | with_reducible assumption | ((with_reducible refine Mask.sub hm ?_); first | exact rfl | (simp only [pageBit_ser]; exact rfl)) | with_reducible apply setReg_within | with_reducible apply setB_within | with_reducible apply badgerSeat_within | with_reducible apply count_within | with_reducible apply badgerFinds_within | with_reducible apply badgerNext_within | with_reducible apply raise_within | with_reducible exact Within.refl | ((with_reducible refine Within.upd ?_ (.inl rfl) (.inl rfl) (.inl rfl) (.inl rfl) (.inl rfl) (.inl rfl) (.inl rfl) (.inl rfl) (.inl rfl) (.inl rfl) (.inl rfl) (.inl rfl) (.inl rfl) (.inl rfl) (.inl rfl) (.inl rfl) (.inl rfl) (.inr b41) (.inl rfl) (.inl rfl) (.inl rfl) (.inl rfl) (.inl rfl) (.inl rfl) (.inl rfl) (.inl rfl) (.inl rfl) (.inl rfl) (.inl rfl) (.inl rfl)); first | with_reducible assumption | ((with_reducible refine Mask.sub hm ?_); first | exact rfl | (simp only [pageBit_ser]; exact rfl)) | with_reducible apply setReg_within | with_reducible apply setB_within | with_reducible apply badgerSeat_within | with_reducible apply count_within | with_reducible apply badgerFinds_within | with_reducible apply badgerNext_within | with_reducible apply raise_within | with_reducible exact Within.refl | split) | intro _ | split | dsimp only))

theorem execMemCntSelWrite_within {m : Nat} {s t u : State} (h : Within m s t) (a0 : Word) (hm : 0x20000020400000 ||| m = m) (e : execMemCntSelWrite a0 t = .next u) : Within m s u := by
  unfold execMemCntSelWrite at e
  try dsimp only at e
  repeat' split at e
  all_goals (cases e; repeat' (first | with_reducible assumption | ((with_reducible refine Mask.sub hm ?_); first | exact rfl | (simp only [pageBit_ser]; exact rfl)) | with_reducible apply setReg_within | with_reducible apply countErr_within | with_reducible apply setF_within | with_reducible exact Within.refl | intro _ | split | dsimp only))

theorem clearConflicts_within {m : Nat} {s t : State} (h : Within m s t) (hm : 0x20000000000 ||| m = m) : Within m s (clearConflicts t) := by
  have b41 := Mask.has (i := 41) hm rfl
  unfold clearConflicts
  repeat' (first | with_reducible assumption | ((with_reducible refine Mask.sub hm ?_); first | exact rfl | (simp only [pageBit_ser]; exact rfl)) | with_reducible apply setReg_within | with_reducible exact Within.refl | ((with_reducible refine Within.upd ?_ (.inl rfl) (.inl rfl) (.inl rfl) (.inl rfl) (.inl rfl) (.inl rfl) (.inl rfl) (.inl rfl) (.inl rfl) (.inl rfl) (.inl rfl) (.inl rfl) (.inl rfl) (.inl rfl) (.inl rfl) (.inl rfl) (.inl rfl) (.inr b41) (.inl rfl) (.inl rfl) (.inl rfl) (.inl rfl) (.inl rfl) (.inl rfl) (.inl rfl) (.inl rfl) (.inl rfl) (.inl rfl) (.inl rfl) (.inl rfl)); first | with_reducible assumption | ((with_reducible refine Mask.sub hm ?_); first | exact rfl | (simp only [pageBit_ser]; exact rfl)) | with_reducible apply setReg_within | with_reducible exact Within.refl | split) | intro _ | split | dsimp only)

theorem execClearConflicts_within {m : Nat} {s t u : State} (h : Within m s t) (a0 : CmdSrc) (hm : 0x20020034400800 ||| m = m) (e : execClearConflicts a0 t = .next u) : Within m s u := by
  unfold execClearConflicts at e
  try dsimp only at e
  repeat' split at e
  all_goals (cases e; repeat' (first | with_reducible assumption | ((with_reducible refine Mask.sub hm ?_); first | exact rfl | (simp only [pageBit_ser]; exact rfl)) | with_reducible apply setReg_within | with_reducible apply issue_within | with_reducible apply done_within | with_reducible apply clearConflicts_within | with_reducible exact Within.refl | intro _ | split | dsimp only))

theorem marchBank_within {m : Nat} {s t : State} (h : Within m s t) (a0 : Bank) (a1 : List Nat) (hm : 0x20002000000 ||| m = m) : Within m s (marchBank a0 a1 t).2 := by
  induction a1 generalizing t a0 with
  | nil =>
    unfold marchBank
    repeat' (first | with_reducible assumption | with_reducible apply ih | ((with_reducible refine Mask.sub hm ?_); first | exact rfl | (simp only [pageBit_memb]; exact rfl)) | with_reducible apply setReg_within | with_reducible apply zeroBank_within | with_reducible apply takeSpare_within | with_reducible apply setFault_within | with_reducible apply setF_within | with_reducible exact Within.refl | intro _ | split | dsimp only)
  | cons _ _ ih =>
    unfold marchBank
    repeat' (first | with_reducible assumption | with_reducible apply ih | ((with_reducible refine Mask.sub hm ?_); first | exact rfl | (simp only [pageBit_memb]; exact rfl)) | with_reducible apply setReg_within | with_reducible apply zeroBank_within | with_reducible apply takeSpare_within | with_reducible apply setFault_within | with_reducible apply setF_within | with_reducible exact Within.refl | intro _ | split | dsimp only)

theorem marchBank_within_eq {m : Nat} {s t u : State} {a0 : Bank} {a1 : List Nat} {y0} (e : marchBank a0 a1 t = (y0, u)) (h : Within m s t) (hm : 0x20002000000 ||| m = m) : Within m s u := by
  have k := marchBank_within h a0 a1 hm
  rw [e] at k
  exact k

theorem runTestBank_within {m : Nat} {s t : State} (h : Within m s t) (a0 : Outstanding) (hm : 0x20000034400800 ||| m = m) : Within m s (runTestBank a0 t) := by
  unfold runTestBank
  repeat' (first | with_reducible assumption | ((with_reducible refine Mask.sub hm ?_); first | exact rfl | (simp only [pageBit_ser]; exact rfl)) | with_reducible apply setReg_within | with_reducible apply done_within | with_reducible exact Within.refl | intro _ | split | dsimp only)

theorem execTestBank_within {m : Nat} {s t u : State} (h : Within m s t) (a0 : CmdSrc) (hm : 0x20000034400800 ||| m = m) (e : execTestBank a0 t = .next u) : Within m s u := by
  unfold execTestBank at e
  try dsimp only at e
  repeat' split at e
  all_goals (cases e; repeat' (first | with_reducible assumption | ((with_reducible refine Mask.sub hm ?_); first | exact rfl | (simp only [pageBit_ser]; exact rfl)) | with_reducible apply setReg_within | with_reducible apply issue_within | with_reducible apply runTestBank_within | with_reducible exact Within.refl | intro _ | split | dsimp only))

theorem finishTestBank_within {m : Nat} {s t : State} (h : Within m s t) (a0 : List (Fin 72)) (a1 : Outstanding) (hm : 0x20020036400800 ||| m = m) : Within m s (finishTestBank a0 a1 t) := by
  unfold finishTestBank
  repeat' (first | with_reducible assumption | ((with_reducible refine Mask.sub hm ?_); first | exact rfl | (simp only [pageBit_ser]; exact rfl)) | with_reducible apply setReg_within | with_reducible apply marchBank_within | with_reducible apply done_within | (with_reducible refine marchBank_within_eq (by assumption) ?_ ?_) | with_reducible exact Within.refl | intro _ | split | dsimp only)

theorem spoilBank_within {m : Nat} {s t : State} (h : Within m s t) (a0 : Nat) (hm : 0x10020000000000 ||| m = m) : Within m s (spoilBank a0 t) := by
  unfold spoilBank
  repeat' (first | with_reducible assumption | ((with_reducible refine Mask.sub hm ?_); first | exact rfl | (simp only [pageBit_ser]; exact rfl)) | with_reducible apply setReg_within | with_reducible apply freeBytes_within | with_reducible apply setBytes_within | (with_reducible refine freeBytes_within_eq (by assumption) ?_ ?_) | with_reducible exact Within.refl | intro _ | split | dsimp only)

theorem spoilTest_within {m : Nat} {s t : State} (h : Within m s t) (a0 : Outstanding) (hm : 0x10020000000000 ||| m = m) : Within m s (spoilTest a0 t) := by
  unfold spoilTest
  repeat' (first | with_reducible assumption | ((with_reducible refine Mask.sub hm ?_); first | exact rfl | (simp only [pageBit_ser]; exact rfl)) | with_reducible apply setReg_within | with_reducible apply spoilBank_within | with_reducible exact Within.refl | intro _ | split | dsimp only)

theorem execMemGlobalBlkReset_within {m : Nat} {s t u : State} (h : Within m s t) (hm : 0x30020034400800 ||| m = m) (e : execMemGlobalBlkReset t = .next u) : Within m s u := by
  unfold execMemGlobalBlkReset at e
  try dsimp only at e
  repeat' split at e
  all_goals (cases e; repeat' (first | with_reducible assumption | ((with_reducible refine Mask.sub hm ?_); first | exact rfl | (simp only [pageBit_ser]; exact rfl)) | with_reducible apply setReg_within | with_reducible apply spoilTest_within | with_reducible apply badgerRestart_within | with_reducible apply blkReset_within | with_reducible apply clearConflicts_within | with_reducible exact Within.refl | intro _ | split | dsimp only))

theorem execMembBlkReset_within {m : Nat} {s t u : State} (h : Within m s t) (a0 : Bank) (hm : 0x20000036000800 ||| m = m) (e : execMembBlkReset a0 t = .next u) : Within m s u := by
  unfold execMembBlkReset at e
  try dsimp only at e
  repeat' split at e
  all_goals (cases e; repeat' (first | with_reducible assumption | ((with_reducible refine Mask.sub hm ?_); first | exact rfl | (simp only [pageBit_memb]; exact rfl)) | with_reducible apply setReg_within | with_reducible apply blkReset_within | with_reducible exact Within.refl | intro _ | split | dsimp only))

end Sys2Proof.Machine
end

