-- ==== Sys2Proof/Laws/WithinNarrow.lean ====
section
/-! SUPPORT. Sys2Proof/Laws/WithinNarrow.lean: the parts of a state that the operations of Machine/Narrow.lean may change. -/
namespace Sys2Proof.Machine

theorem nbPending_within {m : Nat} {s t : State} (h : Within m s t) (hm : 0x100000 ||| m = m) : Within m s (nbPending t) := by
  unfold nbPending
  repeat' (first | with_reducible assumption | ((with_reducible refine Mask.sub hm ?_); first | exact rfl | (simp only [pageBit_ser]; exact rfl)) | with_reducible apply setReg_within | with_reducible apply setB_within | with_reducible exact Within.refl | intro _ | split | dsimp only)

theorem nbFix_within {m : Nat} {s t : State} (h : Within m s t) (hm : 0x400000000 ||| m = m) : Within m s (nbFix t) := by
  have b34 := Mask.has (i := 34) hm rfl
  unfold nbFix
  repeat' (first | with_reducible assumption | ((with_reducible refine Mask.sub hm ?_); first | exact rfl | (simp only [pageBit_ser]; exact rfl)) | with_reducible apply setReg_within | with_reducible exact Within.refl | ((with_reducible refine Within.upd ?_ (.inl rfl) (.inl rfl) (.inl rfl) (.inl rfl) (.inl rfl) (.inl rfl) (.inl rfl) (.inl rfl) (.inl rfl) (.inl rfl) (.inr b34) (.inl rfl) (.inl rfl) (.inl rfl) (.inl rfl) (.inl rfl) (.inl rfl) (.inl rfl) (.inl rfl) (.inl rfl) (.inl rfl) (.inl rfl) (.inl rfl) (.inl rfl) (.inl rfl) (.inl rfl) (.inl rfl) (.inl rfl) (.inl rfl) (.inl rfl)); first | with_reducible assumption | ((with_reducible refine Mask.sub hm ?_); first | exact rfl | (simp only [pageBit_ser]; exact rfl)) | with_reducible apply setReg_within | with_reducible exact Within.refl | split) | intro _ | split | dsimp only)

theorem nbApply_within {m : Nat} {s t : State} (h : Within m s t) (a0 : Word) (a1 : Word) (hm : 0x20000420100000 ||| m = m) : Within m s (nbApply a0 a1 t) := by
  have b34 := Mask.has (i := 34) hm rfl
  unfold nbApply
  repeat' (first | with_reducible assumption | ((with_reducible refine Mask.sub hm ?_); first | exact rfl | (simp only [pageBit_ser]; exact rfl)) | with_reducible apply setReg_within | with_reducible apply setB_within | with_reducible apply raise_within | with_reducible exact Within.refl | ((with_reducible refine Within.upd ?_ (.inl rfl) (.inl rfl) (.inl rfl) (.inl rfl) (.inl rfl) (.inl rfl) (.inl rfl) (.inl rfl) (.inl rfl) (.inl rfl) (.inr b34) (.inl rfl) (.inl rfl) (.inl rfl) (.inl rfl) (.inl rfl) (.inl rfl) (.inl rfl) (.inl rfl) (.inl rfl) (.inl rfl) (.inl rfl) (.inl rfl) (.inl rfl) (.inl rfl) (.inl rfl) (.inl rfl) (.inl rfl) (.inl rfl) (.inl rfl)); first | with_reducible assumption | ((with_reducible refine Mask.sub hm ?_); first | exact rfl | (simp only [pageBit_ser]; exact rfl)) | with_reducible apply setReg_within | with_reducible apply setB_within | with_reducible apply raise_within | with_reducible exact Within.refl | split) | intro _ | split | dsimp only)

theorem nbBoundary_within {m : Nat} {s t : State} (h : Within m s t) (a0 : Nat) (hm : 0x2003a421900000 ||| m = m) : Within m s (nbBoundary a0 t) := by
  have b34 := Mask.has (i := 34) hm rfl
  unfold nbBoundary
  repeat' (first | with_reducible assumption | ((with_reducible refine Mask.sub hm ?_); first | exact rfl | (simp only [pageBit_ser]; exact rfl)) | with_reducible apply setReg_within | with_reducible apply endTx_within | with_reducible apply nbApply_within | with_reducible apply nbPending_within | with_reducible exact Within.refl | ((with_reducible refine Within.upd ?_ (.inl rfl) (.inl rfl) (.inl rfl) (.inl rfl) (.inl rfl) (.inl rfl) (.inl rfl) (.inl rfl) (.inl rfl) (.inl rfl) (.inr b34) (.inl rfl) (.inl rfl) (.inl rfl) (.inl rfl) (.inl rfl) (.inl rfl) (.inl rfl) (.inl rfl) (.inl rfl) (.inl rfl) (.inl rfl) (.inl rfl) (.inl rfl) (.inl rfl) (.inl rfl) (.inl rfl) (.inl rfl) (.inl rfl) (.inl rfl)); first | with_reducible assumption | ((with_reducible refine Mask.sub hm ?_); first | exact rfl | (simp only [pageBit_ser]; exact rfl)) | with_reducible apply setReg_within | with_reducible apply endTx_within | with_reducible apply nbApply_within | with_reducible apply nbPending_within | with_reducible exact Within.refl | split) | intro _ | split | dsimp only)

theorem nbSync_within {m : Nat} {s t : State} (h : Within m s t) (a0 : Nat) (a1 : Nat) (a2 : Nat) (a3 : Nat) (a4 : Bool) (a5 : Bool) (a6 : Nat) (hm : 0x20018021180000 ||| m = m) : Within m s (nbSync a0 a1 a2 a3 a4 a5 a6 t) := by
  unfold nbSync
  repeat' (first | with_reducible assumption | ((with_reducible refine Mask.sub hm ?_); first | exact rfl | (simp only [pageBit_ser]; exact rfl)) | with_reducible apply setReg_within | with_reducible apply count_within | with_reducible apply openRx_within | with_reducible exact Within.refl | intro _ | split | dsimp only)

theorem execNbSyncDetect_within {m : Nat} {s t u : State} (h : Within m s t) (a0 : Port) (a1 : Fin 64) (a2 : BitVec 8) (a3 : Fin 3) (a4 : Bool) (a5 : Bool) (a6 : Fin 209715200) (hm : 0x20018021180000 ||| m = m) (e : execNbSyncDetect a0 a1 a2 a3 a4 a5 a6 t = .next u) : Within m s u := by
  unfold execNbSyncDetect at e
  try dsimp only at e
  repeat' split at e
  all_goals (cases e; repeat' (first | with_reducible assumption | ((with_reducible refine Mask.sub hm ?_); first | exact rfl | (simp only [pageBit_ser]; exact rfl)) | with_reducible apply setReg_within | with_reducible apply nbSync_within | with_reducible exact Within.refl | intro _ | split | dsimp only))

theorem hearBeacon_within {m : Nat} {s t : State} (h : Within m s t) (a0 : Nat) (a1 : Nat) (a2 : Nat) (hm : 0x800000000000 ||| m = m) : Within m s (hearBeacon a0 a1 a2 t) := by
  have b47 := Mask.has (i := 47) hm rfl
  unfold hearBeacon
  repeat' (first | with_reducible assumption | ((with_reducible refine Mask.sub hm ?_); first | exact rfl | (simp only [pageBit_ser]; exact rfl)) | with_reducible apply setReg_within | with_reducible exact Within.refl | ((with_reducible refine Within.upd ?_ (.inl rfl) (.inl rfl) (.inl rfl) (.inl rfl) (.inl rfl) (.inl rfl) (.inl rfl) (.inl rfl) (.inl rfl) (.inl rfl) (.inl rfl) (.inl rfl) (.inl rfl) (.inl rfl) (.inl rfl) (.inl rfl) (.inl rfl) (.inl rfl) (.inl rfl) (.inl rfl) (.inl rfl) (.inl rfl) (.inl rfl) (.inr b47) (.inl rfl) (.inl rfl) (.inl rfl) (.inl rfl) (.inl rfl) (.inl rfl)); first | with_reducible assumption | ((with_reducible refine Mask.sub hm ?_); first | exact rfl | (simp only [pageBit_ser]; exact rfl)) | with_reducible apply setReg_within | with_reducible exact Within.refl | split) | intro _ | split | dsimp only)

theorem nbHeaderDecoded_within {m : Nat} {s t : State} (h : Within m s t) (a0 : Nat) (a1 : List Byte) (hm : 0x20838021900000 ||| m = m) : Within m s (nbHeaderDecoded a0 a1 t) := by
  unfold nbHeaderDecoded
  repeat' (first | with_reducible assumption | ((with_reducible refine Mask.sub hm ?_); first | exact rfl | (simp only [pageBit_ser]; exact rfl)) | with_reducible apply setReg_within | with_reducible apply hearBeacon_within | with_reducible apply pushWord_within | with_reducible apply setBurst_within | with_reducible apply completeBurst_within | with_reducible apply raise_within | with_reducible apply count_within | with_reducible exact Within.refl | intro _ | split | dsimp only)

theorem nbDecoded_within {m : Nat} {s t : State} (h : Within m s t) (a0 : Bool) (hm : 0x20000020100000 ||| m = m) : Within m s (nbDecoded a0 t).2 := by
  unfold nbDecoded
  repeat' (first | with_reducible assumption | ((with_reducible refine Mask.sub hm ?_); first | exact rfl | (simp only [pageBit_ser]; exact rfl)) | with_reducible apply setReg_within | with_reducible apply count_within | with_reducible apply raise_within | with_reducible exact Within.refl | intro _ | split | dsimp only)

theorem nbDecoded_within_eq {m : Nat} {s t u : State} {a0 : Bool} {y0} (e : nbDecoded a0 t = (y0, u)) (h : Within m s t) (hm : 0x20000020100000 ||| m = m) : Within m s u := by
  have k := nbDecoded_within h a0 hm
  rw [e] at k
  exact k

theorem abortWave_within {m : Nat} {s t : State} (h : Within m s t) (a0 : Wave) (hm : 0x2003a021800000 ||| m = m) : Within m s (abortWave a0 t) := by
  unfold abortWave
  repeat' (first | with_reducible assumption | ((with_reducible refine Mask.sub hm ?_); first | exact rfl | (simp only [pageBit_ser]; exact rfl)) | with_reducible apply setReg_within | with_reducible apply completeAll_within | with_reducible apply endTx_within | with_reducible exact Within.refl | intro _ | split | dsimp only)

theorem execNbwBlkReset_within {m : Nat} {s t u : State} (h : Within m s t) (hm : 0x2003a435900800 ||| m = m) (e : execNbwBlkReset t = .next u) : Within m s u := by
  have b34 := Mask.has (i := 34) hm rfl
  unfold execNbwBlkReset at e
  obtain rfl := Host.Outcome.next.inj e
  refine nbPending_within ?_ (Mask.sub hm rfl)
  exact Within.upd (blkReset_within (abortWave_within h _ (Mask.sub hm rfl)) _ _ (Mask.sub hm rfl) (Mask.sub hm rfl)) (.inl rfl) (.inl rfl) (.inl rfl) (.inl rfl) (.inl rfl) (.inl rfl) (.inl rfl) (.inl rfl) (.inl rfl) (.inl rfl) (.inr b34) (.inl rfl) (.inl rfl) (.inl rfl) (.inl rfl) (.inl rfl) (.inl rfl) (.inl rfl) (.inl rfl) (.inl rfl) (.inl rfl) (.inl rfl) (.inl rfl) (.inl rfl) (.inl rfl) (.inl rfl) (.inl rfl) (.inl rfl) (.inl rfl) (.inl rfl)

theorem freeEncode_within {m : Nat} {s t : State} (h : Within m s t) (a0 : Outstanding) (hm : 0x1000000 ||| m = m) : Within m s (freeEncode a0 t) := by
  unfold freeEncode
  repeat' (first | with_reducible assumption | ((with_reducible refine Mask.sub hm ?_); first | exact rfl | (simp only [pageBit_ser]; exact rfl)) | with_reducible apply setReg_within | with_reducible apply setRole_within | with_reducible exact Within.refl | intro _ | split | dsimp only)

theorem takeEncode_within {m : Nat} {s t : State} (h : Within m s t) (a0 : Page) (hm : 0x20000035000800 ||| m = m) (hp0 : pageBit a0 ||| m = m) : Within m s (takeEncode a0 t) := by
  unfold takeEncode
  repeat' (first | with_reducible assumption | ((with_reducible refine Mask.sub hm ?_); first | exact rfl | (simp only [pageBit_ser]; exact rfl)) | with_reducible apply setReg_within | with_reducible apply done_within | with_reducible apply setPhase_within | with_reducible apply setRole_within | with_reducible exact Within.refl | intro _ | split | dsimp only)

theorem runEncodeFrame_within {m : Nat} {s t : State} (h : Within m s t) (a0 : Outstanding) (hm : 0x20000037100800 ||| m = m) : Within m s (runEncodeFrame a0 t) := by
  unfold runEncodeFrame
  repeat' (first | with_reducible assumption | ((with_reducible refine Mask.sub hm ?_); first | exact rfl | (simp only [pageBit_ser]; exact rfl)) | with_reducible apply setReg_within | with_reducible apply touchArea_within | with_reducible apply takeEncode_within | with_reducible apply done_within | with_reducible exact Within.refl | intro _ | split | dsimp only)

theorem execEncodeFrame_within {m : Nat} {s t u : State} (h : Within m s t) (a0 : CmdSrc) (hm : 0x20000037100800 ||| m = m) (e : execEncodeFrame a0 t = .next u) : Within m s u := by
  unfold execEncodeFrame at e
  try dsimp only at e
  repeat' split at e
  all_goals (cases e; repeat' (first | with_reducible assumption | ((with_reducible refine Mask.sub hm ?_); first | exact rfl | (simp only [pageBit_ser]; exact rfl)) | with_reducible apply setReg_within | with_reducible apply issue_within | with_reducible apply runEncodeFrame_within | with_reducible exact Within.refl | intro _ | split | dsimp only))

theorem finishEncodeFrame_within {m : Nat} {s t : State} (h : Within m s t) (a0 : Outstanding) (hm : 0x20020037100800 ||| m = m) : Within m s (finishEncodeFrame a0 t) := by
  unfold finishEncodeFrame
  repeat' (first | with_reducible assumption | ((with_reducible refine Mask.sub hm ?_); first | exact rfl | (simp only [pageBit_ser]; exact rfl)) | with_reducible apply setReg_within | with_reducible apply touchArea_within | with_reducible apply freeEncode_within | with_reducible apply done_within | with_reducible apply setF_within | with_reducible apply busWrite_within | with_reducible exact Within.refl | intro _ | split | dsimp only)

theorem abortEncodeFrame_within {m : Nat} {s t : State} (h : Within m s t) (a0 : Outstanding) (hm : 0x30020037100800 ||| m = m) : Within m s (abortEncodeFrame a0 t) := by
  unfold abortEncodeFrame
  repeat' (first | with_reducible assumption | ((with_reducible refine Mask.sub hm ?_); first | exact rfl | (simp only [pageBit_ser]; exact rfl)) | with_reducible apply setReg_within | with_reducible apply done_within | with_reducible apply leaveOpen_within | with_reducible apply freeEncode_within | with_reducible exact Within.refl | intro _ | split | dsimp only)

end Sys2Proof.Machine
end

