-- ==== Sys2Proof/Laws/WithinBroad.lean ====
section
/-! SUPPORT. Sys2Proof/Laws/WithinBroad.lean: the parts of a state that the operations of Machine/Broad.lean may change. -/
namespace Sys2Proof.Machine

theorem bbPending_within {m : Nat} {s t : State} (h : Within m s t) (hm : 0x200000 ||| m = m) : Within m s (bbPending t) := by
  unfold bbPending
  repeat' (first | with_reducible assumption | ((with_reducible refine Mask.sub hm ?_); first | exact rfl | (simp only [pageBit_ser]; exact rfl)) | with_reducible apply setReg_within | with_reducible apply setB_within | with_reducible exact Within.refl | intro _ | split | dsimp only)

theorem bbFix_within {m : Nat} {s t : State} (h : Within m s t) (hm : 0x800000000 ||| m = m) : Within m s (bbFix t) := by
  have b35 := Mask.has (i := 35) hm rfl
  unfold bbFix
  repeat' (first | with_reducible assumption | ((with_reducible refine Mask.sub hm ?_); first | exact rfl | (simp only [pageBit_ser]; exact rfl)) | with_reducible apply setReg_within | with_reducible exact Within.refl | ((with_reducible refine Within.upd ?_ (.inl rfl) (.inl rfl) (.inl rfl) (.inl rfl) (.inl rfl) (.inl rfl) (.inl rfl) (.inl rfl) (.inl rfl) (.inl rfl) (.inl rfl) (.inr b35) (.inl rfl) (.inl rfl) (.inl rfl) (.inl rfl) (.inl rfl) (.inl rfl) (.inl rfl) (.inl rfl) (.inl rfl) (.inl rfl) (.inl rfl) (.inl rfl) (.inl rfl) (.inl rfl) (.inl rfl) (.inl rfl) (.inl rfl) (.inl rfl)); first | with_reducible assumption | ((with_reducible refine Mask.sub hm ?_); first | exact rfl | (simp only [pageBit_ser]; exact rfl)) | with_reducible apply setReg_within | with_reducible exact Within.refl | split) | intro _ | split | dsimp only)

theorem bbBoundary_within {m : Nat} {s t : State} (h : Within m s t) (a0 : Nat) (hm : 0x2003a821a00000 ||| m = m) : Within m s (bbBoundary a0 t) := by
  have b35 := Mask.has (i := 35) hm rfl
  unfold bbBoundary
  repeat' (first | with_reducible assumption | ((with_reducible refine Mask.sub hm ?_); first | exact rfl | (simp only [pageBit_ser]; exact rfl)) | with_reducible apply setReg_within | with_reducible apply endTx_within | with_reducible apply raise_within | with_reducible apply setB_within | with_reducible apply bbPending_within | with_reducible exact Within.refl | ((with_reducible refine Within.upd ?_ (.inl rfl) (.inl rfl) (.inl rfl) (.inl rfl) (.inl rfl) (.inl rfl) (.inl rfl) (.inl rfl) (.inl rfl) (.inl rfl) (.inl rfl) (.inr b35) (.inl rfl) (.inl rfl) (.inl rfl) (.inl rfl) (.inl rfl) (.inl rfl) (.inl rfl) (.inl rfl) (.inl rfl) (.inl rfl) (.inl rfl) (.inl rfl) (.inl rfl) (.inl rfl) (.inl rfl) (.inl rfl) (.inl rfl) (.inl rfl)); first | with_reducible assumption | ((with_reducible refine Mask.sub hm ?_); first | exact rfl | (simp only [pageBit_ser]; exact rfl)) | with_reducible apply setReg_within | with_reducible apply endTx_within | with_reducible apply raise_within | with_reducible apply setB_within | with_reducible apply bbPending_within | with_reducible exact Within.refl | split) | intro _ | split | dsimp only)

theorem bbNotches_within {m : Nat} {s t : State} (h : Within m s t) (a0 : List Notch) (hm : 0x20000820200000 ||| m = m) : Within m s (bbNotches a0 t) := by
  have b35 := Mask.has (i := 35) hm rfl
  unfold bbNotches
  repeat' (first | with_reducible assumption | ((with_reducible refine Mask.sub hm ?_); first | exact rfl | (simp only [pageBit_ser]; exact rfl)) | with_reducible apply setReg_within | with_reducible apply raise_within | with_reducible apply setB_within | with_reducible exact Within.refl | ((with_reducible refine Within.upd ?_ (.inl rfl) (.inl rfl) (.inl rfl) (.inl rfl) (.inl rfl) (.inl rfl) (.inl rfl) (.inl rfl) (.inl rfl) (.inl rfl) (.inl rfl) (.inr b35) (.inl rfl) (.inl rfl) (.inl rfl) (.inl rfl) (.inl rfl) (.inl rfl) (.inl rfl) (.inl rfl) (.inl rfl) (.inl rfl) (.inl rfl) (.inl rfl) (.inl rfl) (.inl rfl) (.inl rfl) (.inl rfl) (.inl rfl) (.inl rfl)); first | with_reducible assumption | ((with_reducible refine Mask.sub hm ?_); first | exact rfl | (simp only [pageBit_ser]; exact rfl)) | with_reducible apply setReg_within | with_reducible apply raise_within | with_reducible apply setB_within | with_reducible exact Within.refl | split) | intro _ | split | dsimp only)

theorem dynDetect_within {m : Nat} {s t : State} (h : Within m s t) (a0 : Nat) (a1 : Nat) (a2 : Nat) (a3 : Nat) (hm : 0x20000820200000 ||| m = m) : Within m s (dynDetect a0 a1 a2 a3 t) := by
  have b35 := Mask.has (i := 35) hm rfl
  unfold dynDetect
  repeat' (first | with_reducible assumption | ((with_reducible refine Mask.sub hm ?_); first | exact rfl | (simp only [pageBit_ser]; exact rfl)) | with_reducible apply setReg_within | with_reducible apply bbNotches_within | with_reducible exact Within.refl | ((with_reducible refine Within.upd ?_ (.inl rfl) (.inl rfl) (.inl rfl) (.inl rfl) (.inl rfl) (.inl rfl) (.inl rfl) (.inl rfl) (.inl rfl) (.inl rfl) (.inl rfl) (.inr b35) (.inl rfl) (.inl rfl) (.inl rfl) (.inl rfl) (.inl rfl) (.inl rfl) (.inl rfl) (.inl rfl) (.inl rfl) (.inl rfl) (.inl rfl) (.inl rfl) (.inl rfl) (.inl rfl) (.inl rfl) (.inl rfl) (.inl rfl) (.inl rfl)); first | with_reducible assumption | ((with_reducible refine Mask.sub hm ?_); first | exact rfl | (simp only [pageBit_ser]; exact rfl)) | with_reducible apply setReg_within | with_reducible apply bbNotches_within | with_reducible exact Within.refl | split) | intro _ | split | dsimp only)

theorem execDynNotchDetect_within {m : Nat} {s t u : State} (h : Within m s t) (a0 : Port) (a1 : Fin 1725) (a2 : BitVec 8) (a3 : BitVec 8) (hm : 0x20000820200000 ||| m = m) (e : execDynNotchDetect a0 a1 a2 a3 t = .next u) : Within m s u := by
  unfold execDynNotchDetect at e
  try dsimp only at e
  repeat' split at e
  all_goals (cases e; repeat' (first | with_reducible assumption | ((with_reducible refine Mask.sub hm ?_); first | exact rfl | (simp only [pageBit_ser]; exact rfl)) | with_reducible apply setReg_within | with_reducible apply dynDetect_within | with_reducible exact Within.refl | intro _ | split | dsimp only))

theorem dynLift_within {m : Nat} {s t : State} (h : Within m s t) (a0 : Nat) (a1 : Nat) (hm : 0x20000820200000 ||| m = m) : Within m s (dynLift a0 a1 t) := by
  unfold dynLift
  repeat' (first | with_reducible assumption | ((with_reducible refine Mask.sub hm ?_); first | exact rfl | (simp only [pageBit_ser]; exact rfl)) | with_reducible apply setReg_within | with_reducible apply bbNotches_within | with_reducible exact Within.refl | intro _ | split | dsimp only)

theorem execDynNotchLift_within {m : Nat} {s t u : State} (h : Within m s t) (a0 : Port) (a1 : Fin 1725) (hm : 0x20000820200000 ||| m = m) (e : execDynNotchLift a0 a1 t = .next u) : Within m s u := by
  unfold execDynNotchLift at e
  try dsimp only at e
  repeat' split at e
  all_goals (cases e; repeat' (first | with_reducible assumption | ((with_reducible refine Mask.sub hm ?_); first | exact rfl | (simp only [pageBit_ser]; exact rfl)) | with_reducible apply setReg_within | with_reducible apply dynLift_within | with_reducible exact Within.refl | intro _ | split | dsimp only))

theorem tmapCount_within {m : Nat} {s t : State} (h : Within m s t) (hm : 0x200000 ||| m = m) : Within m s (tmapCount t) := by
  unfold tmapCount
  repeat' (first | with_reducible assumption | ((with_reducible refine Mask.sub hm ?_); first | exact rfl | (simp only [pageBit_ser]; exact rfl)) | with_reducible apply setReg_within | with_reducible apply setB_within | with_reducible apply setF_within | with_reducible exact Within.refl | intro _ | split | dsimp only)

theorem putMap_within {m : Nat} {s t : State} (h : Within m s t) (a0 : TmapEntry) (hm : 0x20000820200000 ||| m = m) : Within m s (putMap a0 t) := by
  have b35 := Mask.has (i := 35) hm rfl
  unfold putMap
  repeat' (first | with_reducible assumption | ((with_reducible refine Mask.sub hm ?_); first | exact rfl | (simp only [pageBit_ser]; exact rfl)) | with_reducible apply setReg_within | with_reducible apply tmapCount_within | with_reducible apply raise_within | with_reducible exact Within.refl | ((with_reducible refine Within.upd ?_ (.inl rfl) (.inl rfl) (.inl rfl) (.inl rfl) (.inl rfl) (.inl rfl) (.inl rfl) (.inl rfl) (.inl rfl) (.inl rfl) (.inl rfl) (.inr b35) (.inl rfl) (.inl rfl) (.inl rfl) (.inl rfl) (.inl rfl) (.inl rfl) (.inl rfl) (.inl rfl) (.inl rfl) (.inl rfl) (.inl rfl) (.inl rfl) (.inl rfl) (.inl rfl) (.inl rfl) (.inl rfl) (.inl rfl) (.inl rfl)); first | with_reducible assumption | ((with_reducible refine Mask.sub hm ?_); first | exact rfl | (simp only [pageBit_ser]; exact rfl)) | with_reducible apply setReg_within | with_reducible apply tmapCount_within | with_reducible apply raise_within | with_reducible exact Within.refl | split) | intro _ | split | dsimp only)

theorem freeMaps_within {m : Nat} {s t : State} (h : Within m s t) (a0 : Nat) (hm : 0x800200000 ||| m = m) : Within m s (freeMaps a0 t) := by
  have b35 := Mask.has (i := 35) hm rfl
  unfold freeMaps
  repeat' (first | with_reducible assumption | ((with_reducible refine Mask.sub hm ?_); first | exact rfl | (simp only [pageBit_ser]; exact rfl)) | with_reducible apply setReg_within | with_reducible apply tmapCount_within | with_reducible exact Within.refl | ((with_reducible refine Within.upd ?_ (.inl rfl) (.inl rfl) (.inl rfl) (.inl rfl) (.inl rfl) (.inl rfl) (.inl rfl) (.inl rfl) (.inl rfl) (.inl rfl) (.inl rfl) (.inr b35) (.inl rfl) (.inl rfl) (.inl rfl) (.inl rfl) (.inl rfl) (.inl rfl) (.inl rfl) (.inl rfl) (.inl rfl) (.inl rfl) (.inl rfl) (.inl rfl) (.inl rfl) (.inl rfl) (.inl rfl) (.inl rfl) (.inl rfl) (.inl rfl)); first | with_reducible assumption | ((with_reducible refine Mask.sub hm ?_); first | exact rfl | (simp only [pageBit_ser]; exact rfl)) | with_reducible apply setReg_within | with_reducible apply tmapCount_within | with_reducible exact Within.refl | split) | intro _ | split | dsimp only)

theorem dropPrevious_within {m : Nat} {s t : State} (h : Within m s t) (a0 : Nat) (hm : 0x20000820200000 ||| m = m) : Within m s (dropPrevious a0 t) := by
  unfold dropPrevious
  repeat' (first | with_reducible assumption | ((with_reducible refine Mask.sub hm ?_); first | exact rfl | (simp only [pageBit_ser]; exact rfl)) | with_reducible apply setReg_within | with_reducible apply putMap_within | with_reducible exact Within.refl | intro _ | split | dsimp only)

theorem execTmapPreviousExpiry_within {m : Nat} {s t u : State} (h : Within m s t) (a0 : CtxIndex) (hm : 0x20000820200000 ||| m = m) (e : execTmapPreviousExpiry a0 t = .next u) : Within m s u := by
  unfold execTmapPreviousExpiry at e
  try dsimp only at e
  repeat' split at e
  all_goals (cases e; repeat' (first | with_reducible assumption | ((with_reducible refine Mask.sub hm ?_); first | exact rfl | (simp only [pageBit_ser]; exact rfl)) | with_reducible apply setReg_within | with_reducible apply dropPrevious_within | with_reducible exact Within.refl | intro _ | split | dsimp only))

theorem bbDetect_within {m : Nat} {s t : State} (h : Within m s t) (a0 : Nat) (a1 : Nat) (a2 : Nat) (a3 : Nat) (a4 : Nat) (hm : 0x20018021280000 ||| m = m) : Within m s (bbDetect a0 a1 a2 a3 a4 t) := by
  unfold bbDetect
  repeat' (first | with_reducible assumption | ((with_reducible refine Mask.sub hm ?_); first | exact rfl | (simp only [pageBit_ser]; exact rfl)) | with_reducible apply setReg_within | with_reducible apply count_within | with_reducible apply openRx_within | with_reducible exact Within.refl | intro _ | split | dsimp only)

theorem execBbDetect_within {m : Nat} {s t u : State} (h : Within m s t) (a0 : Port) (a1 : Fin 27) (a2 : Fin 27) (a3 : BitVec 8) (a4 : Fin 209715200) (hm : 0x20018021280000 ||| m = m) (e : execBbDetect a0 a1 a2 a3 a4 t = .next u) : Within m s u := by
  unfold execBbDetect at e
  try dsimp only at e
  repeat' split at e
  all_goals (cases e; repeat' (first | with_reducible assumption | ((with_reducible refine Mask.sub hm ?_); first | exact rfl | (simp only [pageBit_ser]; exact rfl)) | with_reducible apply setReg_within | with_reducible apply bbDetect_within | with_reducible exact Within.refl | intro _ | split | dsimp only))

theorem bbHeaderDecoded_within {m : Nat} {s t : State} (h : Within m s t) (a0 : Nat) (a1 : List Byte) (hm : 0x20838021a00000 ||| m = m) : Within m s (bbHeaderDecoded a0 a1 t) := by
  unfold bbHeaderDecoded
  repeat' (first | with_reducible assumption | ((with_reducible refine Mask.sub hm ?_); first | exact rfl | (simp only [pageBit_ser]; exact rfl)) | with_reducible apply setReg_within | with_reducible apply hearBeacon_within | with_reducible apply pushWord_within | with_reducible apply setBurst_within | with_reducible apply completeBurst_within | with_reducible apply raise_within | with_reducible apply count_within | with_reducible exact Within.refl | intro _ | split | dsimp only)

theorem execBbHeaderDecoded_within {m : Nat} {s t u : State} (h : Within m s t) (a0 : BurstId) (a1 : BitVec 96) (hm : 0x20838021a00000 ||| m = m) (e : execBbHeaderDecoded a0 a1 t = .next u) : Within m s u := by
  unfold execBbHeaderDecoded at e
  try dsimp only at e
  repeat' split at e
  all_goals (cases e; repeat' (first | with_reducible assumption | ((with_reducible refine Mask.sub hm ?_); first | exact rfl | (simp only [pageBit_ser]; exact rfl)) | with_reducible apply setReg_within | with_reducible apply bbHeaderDecoded_within | with_reducible exact Within.refl | intro _ | split | dsimp only))

theorem bbDecoded_within {m : Nat} {s t : State} (h : Within m s t) (a0 : Bool) (a1 : Nat) (hm : 0x20000020200000 ||| m = m) : Within m s (bbDecoded a0 a1 t).2 := by
  unfold bbDecoded
  repeat' (first | with_reducible assumption | ((with_reducible refine Mask.sub hm ?_); first | exact rfl | (simp only [pageBit_ser]; exact rfl)) | with_reducible apply setReg_within | with_reducible apply countN_within | with_reducible apply count_within | with_reducible apply raise_within | with_reducible exact Within.refl | intro _ | split | dsimp only)

theorem bbDecoded_within_eq {m : Nat} {s t u : State} {a0 : Bool} {a1 : Nat} {y0} (e : bbDecoded a0 a1 t = (y0, u)) (h : Within m s t) (hm : 0x20000020200000 ||| m = m) : Within m s u := by
  have k := bbDecoded_within h a0 a1 hm
  rw [e] at k
  exact k

theorem noteOffset_within {m : Nat} {s t : State} (h : Within m s t) (a0 : Nat) (a1 : Int) (hm : 0x800000000 ||| m = m) : Within m s (noteOffset a0 a1 t) := by
  have b35 := Mask.has (i := 35) hm rfl
  unfold noteOffset
  repeat' (first | with_reducible assumption | ((with_reducible refine Mask.sub hm ?_); first | exact rfl | (simp only [pageBit_ser]; exact rfl)) | with_reducible apply setReg_within | with_reducible exact Within.refl | ((with_reducible refine Within.upd ?_ (.inl rfl) (.inl rfl) (.inl rfl) (.inl rfl) (.inl rfl) (.inl rfl) (.inl rfl) (.inl rfl) (.inl rfl) (.inl rfl) (.inl rfl) (.inr b35) (.inl rfl) (.inl rfl) (.inl rfl) (.inl rfl) (.inl rfl) (.inl rfl) (.inl rfl) (.inl rfl) (.inl rfl) (.inl rfl) (.inl rfl) (.inl rfl) (.inl rfl) (.inl rfl) (.inl rfl) (.inl rfl) (.inl rfl) (.inl rfl)); first | with_reducible assumption | ((with_reducible refine Mask.sub hm ?_); first | exact rfl | (simp only [pageBit_ser]; exact rfl)) | with_reducible apply setReg_within | with_reducible exact Within.refl | split) | intro _ | split | dsimp only)

theorem takeTadj_within {m : Nat} {s t : State} (h : Within m s t) (a0 : Nat) (hm : 0x800200000 ||| m = m) : Within m s (takeTadj a0 t).2 := by
  have b35 := Mask.has (i := 35) hm rfl
  unfold takeTadj
  repeat' (first | with_reducible assumption | ((with_reducible refine Mask.sub hm ?_); first | exact rfl | (simp only [pageBit_ser]; exact rfl)) | with_reducible apply setReg_within | with_reducible apply count_within | with_reducible exact Within.refl | ((with_reducible refine Within.upd ?_ (.inl rfl) (.inl rfl) (.inl rfl) (.inl rfl) (.inl rfl) (.inl rfl) (.inl rfl) (.inl rfl) (.inl rfl) (.inl rfl) (.inl rfl) (.inr b35) (.inl rfl) (.inl rfl) (.inl rfl) (.inl rfl) (.inl rfl) (.inl rfl) (.inl rfl) (.inl rfl) (.inl rfl) (.inl rfl) (.inl rfl) (.inl rfl) (.inl rfl) (.inl rfl) (.inl rfl) (.inl rfl) (.inl rfl) (.inl rfl)); first | with_reducible assumption | ((with_reducible refine Mask.sub hm ?_); first | exact rfl | (simp only [pageBit_ser]; exact rfl)) | with_reducible apply setReg_within | with_reducible apply count_within | with_reducible exact Within.refl | split) | intro _ | split | dsimp only)

theorem takeTadj_within_eq {m : Nat} {s t u : State} {a0 : Nat} {y0} (e : takeTadj a0 t = (y0, u)) (h : Within m s t) (hm : 0x800200000 ||| m = m) : Within m s u := by
  have k := takeTadj_within h a0 hm
  rw [e] at k
  exact k

theorem execBbwBlkReset_within {m : Nat} {s t u : State} (h : Within m s t) (hm : 0x2003a835a00800 ||| m = m) (e : execBbwBlkReset t = .next u) : Within m s u := by
  have b35 := Mask.has (i := 35) hm rfl
  unfold execBbwBlkReset at e
  obtain rfl := Host.Outcome.next.inj e
  refine bbPending_within ?_ (Mask.sub hm rfl)
  exact Within.upd (blkReset_within (setF_within (abortWave_within h _ (Mask.sub hm rfl)) _ _ _ (Mask.sub hm rfl)) _ _ (Mask.sub hm rfl) (Mask.sub hm rfl)) (.inl rfl) (.inl rfl) (.inl rfl) (.inl rfl) (.inl rfl) (.inl rfl) (.inl rfl) (.inl rfl) (.inl rfl) (.inl rfl) (.inl rfl) (.inr b35) (.inl rfl) (.inl rfl) (.inl rfl) (.inl rfl) (.inl rfl) (.inl rfl) (.inl rfl) (.inl rfl) (.inl rfl) (.inl rfl) (.inl rfl) (.inl rfl) (.inl rfl) (.inl rfl) (.inl rfl) (.inl rfl) (.inl rfl) (.inl rfl)

theorem runEncodeBurst_within {m : Nat} {s t : State} (h : Within m s t) (a0 : Outstanding) (hm : 0x20000037200800 ||| m = m) : Within m s (runEncodeBurst a0 t) := by
  unfold runEncodeBurst
  repeat' (first | with_reducible assumption | ((with_reducible refine Mask.sub hm ?_); first | exact rfl | (simp only [pageBit_ser]; exact rfl)) | with_reducible apply setReg_within | with_reducible apply touchArea_within | with_reducible apply takeEncode_within | with_reducible apply done_within | with_reducible exact Within.refl | intro _ | split | dsimp only)

theorem execEncodeBurst_within {m : Nat} {s t u : State} (h : Within m s t) (a0 : CmdSrc) (hm : 0x20000037200800 ||| m = m) (e : execEncodeBurst a0 t = .next u) : Within m s u := by
  unfold execEncodeBurst at e
  try dsimp only at e
  repeat' split at e
  all_goals (cases e; repeat' (first | with_reducible assumption | ((with_reducible refine Mask.sub hm ?_); first | exact rfl | (simp only [pageBit_ser]; exact rfl)) | with_reducible apply setReg_within | with_reducible apply issue_within | with_reducible apply runEncodeBurst_within | with_reducible exact Within.refl | intro _ | split | dsimp only))

theorem finishEncodeBurst_within {m : Nat} {s t : State} (h : Within m s t) (a0 : Outstanding) (hm : 0x20020037200800 ||| m = m) : Within m s (finishEncodeBurst a0 t) := by
  unfold finishEncodeBurst
  repeat' (first | with_reducible assumption | ((with_reducible refine Mask.sub hm ?_); first | exact rfl | (simp only [pageBit_ser]; exact rfl)) | with_reducible apply setReg_within | with_reducible apply touchArea_within | with_reducible apply freeEncode_within | with_reducible apply done_within | with_reducible apply setF_within | with_reducible apply busWriteWords_within | with_reducible exact Within.refl | intro _ | split | dsimp only)

theorem abortEncodeBurst_within {m : Nat} {s t : State} (h : Within m s t) (a0 : Outstanding) (hm : 0x30020037200800 ||| m = m) : Within m s (abortEncodeBurst a0 t) := by
  unfold abortEncodeBurst
  repeat' (first | with_reducible assumption | ((with_reducible refine Mask.sub hm ?_); first | exact rfl | (simp only [pageBit_ser]; exact rfl)) | with_reducible apply setReg_within | with_reducible apply done_within | with_reducible apply leaveOpen_within | with_reducible apply freeEncode_within | with_reducible exact Within.refl | intro _ | split | dsimp only)

theorem runReadDyn_within {m : Nat} {s t : State} (h : Within m s t) (a0 : Outstanding) (hm : 0x20020036200800 ||| m = m) : Within m s (runReadDyn a0 t) := by
  unfold runReadDyn
  repeat' (first | with_reducible assumption | ((with_reducible refine Mask.sub hm ?_); first | exact rfl | (simp only [pageBit_ser]; exact rfl)) | with_reducible apply setReg_within | with_reducible apply done_within | with_reducible apply busWriteWords_within | with_reducible exact Within.refl | intro _ | split | dsimp only)

theorem execReadDyn_within {m : Nat} {s t u : State} (h : Within m s t) (a0 : CmdSrc) (hm : 0x20020036200800 ||| m = m) (e : execReadDyn a0 t = .next u) : Within m s u := by
  unfold execReadDyn at e
  try dsimp only at e
  repeat' split at e
  all_goals (cases e; repeat' (first | with_reducible assumption | ((with_reducible refine Mask.sub hm ?_); first | exact rfl | (simp only [pageBit_ser]; exact rfl)) | with_reducible apply setReg_within | with_reducible apply issue_within | with_reducible apply runReadDyn_within | with_reducible exact Within.refl | intro _ | split | dsimp only))

end Sys2Proof.Machine
end

