-- ==== Sys2Proof/Laws/WithinTable.lean ====
section
/-! SUPPORT. Sys2Proof/Laws/WithinTable.lean: the parts of a state that the operations of Machine/Table.lean may change. -/
namespace Sys2Proof.Machine

theorem sendMirror_within {m : Nat} {s t : State} (h : Within m s t) (a0 : MirrorBody) (hm : 0x20800000002000 ||| m = m) : Within m s (sendMirror a0 t) := by
  have b47 := Mask.has (i := 47) hm rfl
  unfold sendMirror
  repeat' (first | with_reducible assumption | ((with_reducible refine Mask.sub hm ?_); first | exact rfl | (simp only [pageBit_lanm]; exact rfl)) | with_reducible apply setReg_within | with_reducible apply count_within | with_reducible apply emit_within | with_reducible apply Within.foldl | with_reducible exact Within.refl | ((with_reducible refine Within.upd ?_ (.inl rfl) (.inl rfl) (.inl rfl) (.inl rfl) (.inl rfl) (.inl rfl) (.inl rfl) (.inl rfl) (.inl rfl) (.inl rfl) (.inl rfl) (.inl rfl) (.inl rfl) (.inl rfl) (.inl rfl) (.inl rfl) (.inl rfl) (.inl rfl) (.inl rfl) (.inl rfl) (.inl rfl) (.inl rfl) (.inl rfl) (.inr b47) (.inl rfl) (.inl rfl) (.inl rfl) (.inl rfl) (.inl rfl) (.inl rfl)); first | with_reducible assumption | ((with_reducible refine Mask.sub hm ?_); first | exact rfl | (simp only [pageBit_lanm]; exact rfl)) | with_reducible apply setReg_within | with_reducible apply count_within | with_reducible apply emit_within | with_reducible apply Within.foldl | with_reducible exact Within.refl | split) | intro _ | split | dsimp only)

theorem mirrorDelta_within {m : Nat} {s t : State} (h : Within m s t) (a0 : MirrorBody) (hm : 0x20800000002200 ||| m = m) : Within m s (mirrorDelta a0 t) := by
  unfold mirrorDelta
  repeat' (first | with_reducible assumption | ((with_reducible refine Mask.sub hm ?_); first | exact rfl | (simp only [pageBit_ser]; exact rfl)) | with_reducible apply setReg_within | with_reducible apply sendMirror_within | with_reducible apply count_within | with_reducible exact Within.refl | intro _ | split | dsimp only)

theorem ctxDelta_within {m : Nat} {s t : State} (h : Within m s t) (a0 : Nat) (a2 : Ctx) (hm : 0x20800000002200 ||| m = m) : Within m s (ctxDelta a0 t a2) := by
  unfold ctxDelta
  repeat' (first | with_reducible assumption | ((with_reducible refine Mask.sub hm ?_); first | exact rfl | (simp only [pageBit_ser]; exact rfl)) | with_reducible apply setReg_within | with_reducible apply mirrorDelta_within | with_reducible exact Within.refl | intro _ | split | dsimp only)

theorem setMac_within {m : Nat} {s t : State} (h : Within m s t) (a0 : MacSt) (hm : 0x80000000000 ||| m = m) : Within m s (setMac a0 t) := by
  have b43 := Mask.has (i := 43) hm rfl
  unfold setMac
  repeat' (first | with_reducible assumption | ((with_reducible refine Mask.sub hm ?_); first | exact rfl | (simp only [pageBit_ser]; exact rfl)) | with_reducible apply setReg_within | with_reducible exact Within.refl | ((with_reducible refine Within.upd ?_ (.inl rfl) (.inl rfl) (.inl rfl) (.inl rfl) (.inl rfl) (.inl rfl) (.inl rfl) (.inl rfl) (.inl rfl) (.inl rfl) (.inl rfl) (.inl rfl) (.inl rfl) (.inl rfl) (.inl rfl) (.inl rfl) (.inl rfl) (.inl rfl) (.inl rfl) (.inr b43) (.inl rfl) (.inl rfl) (.inl rfl) (.inl rfl) (.inl rfl) (.inl rfl) (.inl rfl) (.inl rfl) (.inl rfl) (.inl rfl)); first | with_reducible assumption | ((with_reducible refine Mask.sub hm ?_); first | exact rfl | (simp only [pageBit_ser]; exact rfl)) | with_reducible apply setReg_within | with_reducible exact Within.refl | split) | intro _ | split | dsimp only)

theorem refreshTable_within {m : Nat} {s t : State} (h : Within m s t) (hm : 0x20000020008000 ||| m = m) : Within m s (refreshTable t) := by
  unfold refreshTable
  repeat' (first | with_reducible assumption | ((with_reducible refine Mask.sub hm ?_); first | exact rfl | (simp only [pageBit_ser]; exact rfl)) | with_reducible apply setReg_within | with_reducible apply setF_within | with_reducible apply raise_within | with_reducible apply setB_within | with_reducible exact Within.refl | intro _ | split | dsimp only)

theorem setAssoc_within {m : Nat} {s t : State} (h : Within m s t) (a0 : Nat) (a1 : Assoc) (hm : 0x2088002000a200 ||| m = m) : Within m s (setAssoc a0 a1 t) := by
  unfold setAssoc
  repeat' (first | with_reducible assumption | ((with_reducible refine Mask.sub hm ?_); first | exact rfl | (simp only [pageBit_ser]; exact rfl)) | with_reducible apply setReg_within | with_reducible apply setMac_within | with_reducible apply refreshTable_within | with_reducible apply ctxDelta_within | with_reducible exact Within.refl | intro _ | split | dsimp only)

theorem setCtx_within {m : Nat} {s t : State} (h : Within m s t) (a0 : Nat) (a1 : Ctx) (hm : 0x2088002000a200 ||| m = m) : Within m s (setCtx a0 a1 t) := by
  unfold setCtx
  repeat' (first | with_reducible assumption | ((with_reducible refine Mask.sub hm ?_); first | exact rfl | (simp only [pageBit_ser]; exact rfl)) | with_reducible apply setReg_within | with_reducible apply setAssoc_within | with_reducible exact Within.refl | intro _ | split | dsimp only)

theorem setParked_within {m : Nat} {s t : State} (h : Within m s t) (a0 : Nat) (a1 : Ctx) (hm : 0x80000008000 ||| m = m) : Within m s (setParked a0 a1 t) := by
  unfold setParked
  repeat' (first | with_reducible assumption | ((with_reducible refine Mask.sub hm ?_); first | exact rfl | (simp only [pageBit_ser]; exact rfl)) | with_reducible apply setReg_within | with_reducible apply setMac_within | with_reducible apply setB_within | with_reducible apply setF_within | with_reducible exact Within.refl | intro _ | split | dsimp only)

theorem setRelay_within {m : Nat} {s t : State} (h : Within m s t) (a0 : Nat) (a1 : Relay) (hm : 0x20880000002200 ||| m = m) : Within m s (setRelay a0 a1 t) := by
  unfold setRelay
  repeat' (first | with_reducible assumption | ((with_reducible refine Mask.sub hm ?_); first | exact rfl | (simp only [pageBit_ser]; exact rfl)) | with_reducible apply setReg_within | with_reducible apply mirrorDelta_within | with_reducible apply setMac_within | with_reducible exact Within.refl | intro _ | split | dsimp only)

theorem setRoute_within {m : Nat} {s t : State} (h : Within m s t) (a0 : Nat) (a1 : Option (Bool × Nat)) (hm : 0x20880000002200 ||| m = m) : Within m s (setRoute a0 a1 t) := by
  unfold setRoute
  repeat' (first | with_reducible assumption | ((with_reducible refine Mask.sub hm ?_); first | exact rfl | (simp only [pageBit_ser]; exact rfl)) | with_reducible apply setReg_within | with_reducible apply mirrorDelta_within | with_reducible apply setMac_within | with_reducible exact Within.refl | intro _ | split | dsimp only)

end Sys2Proof.Machine
end

