-- ==== Sys2Proof/Laws/WithinCipOps.lean ====
section
/-! SUPPORT. Sys2Proof/Laws/WithinCipOps.lean: the parts of a state that the operations of Machine/CipOps.lean may change. -/
namespace Sys2Proof.Machine

theorem randBytes_within {m : Nat} {s t : State} (h : Within m s t) (a0 : Nat) (hm : 0x8000000040000 ||| m = m) : Within m s (randBytes a0 t).2 := by
  unfold randBytes
  repeat' (first | with_reducible assumption | ((with_reducible refine Mask.sub hm ?_); first | exact rfl | (simp only [pageBit_ser]; exact rfl)) | with_reducible apply setReg_within | with_reducible apply draw_within | (with_reducible refine draw_within_eq (by assumption) ?_ ?_) | with_reducible exact Within.refl | intro _ | split | dsimp only)

theorem randBytes_within_eq {m : Nat} {s t u : State} {a0 : Nat} {y0} (e : randBytes a0 t = (y0, u)) (h : Within m s t) (hm : 0x8000000040000 ||| m = m) : Within m s u := by
  have k := randBytes_within h a0 hm
  rw [e] at k
  exact k

theorem cacheLook_within {m : Nat} {s t : State} (h : Within m s t) (a0 : Option (List Byte)) (hm : 0x100000040000 ||| m = m) : Within m s (cacheLook a0 t).2 := by
  have b44 := Mask.has (i := 44) hm rfl
  unfold cacheLook
  repeat' (first | with_reducible assumption | ((with_reducible refine Mask.sub hm ?_); first | exact rfl | (simp only [pageBit_ser]; exact rfl)) | with_reducible apply setReg_within | with_reducible apply count_within | with_reducible exact Within.refl | ((with_reducible refine Within.upd ?_ (.inl rfl) (.inl rfl) (.inl rfl) (.inl rfl) (.inl rfl) (.inl rfl) (.inl rfl) (.inl rfl) (.inl rfl) (.inl rfl) (.inl rfl) (.inl rfl) (.inl rfl) (.inl rfl) (.inl rfl) (.inl rfl) (.inl rfl) (.inl rfl) (.inl rfl) (.inl rfl) (.inr b44) (.inl rfl) (.inl rfl) (.inl rfl) (.inl rfl) (.inl rfl) (.inl rfl) (.inl rfl) (.inl rfl) (.inl rfl)); first | with_reducible assumption | ((with_reducible refine Mask.sub hm ?_); first | exact rfl | (simp only [pageBit_ser]; exact rfl)) | with_reducible apply setReg_within | with_reducible apply count_within | with_reducible exact Within.refl | split) | intro _ | split | dsimp only)

theorem cacheLook_within_eq {m : Nat} {s t u : State} {a0 : Option (List Byte)} {y0} (e : cacheLook a0 t = (y0, u)) (h : Within m s t) (hm : 0x100000040000 ||| m = m) : Within m s u := by
  have k := cacheLook_within h a0 hm
  rw [e] at k
  exact k

theorem setGroup_within {m : Nat} {s t : State} (h : Within m s t) (a0 : Nat) (a1 : GroupSlot) (hm : 0x20900000002200 ||| m = m) : Within m s (setGroup a0 a1 t) := by
  have b44 := Mask.has (i := 44) hm rfl
  unfold setGroup
  repeat' (first | with_reducible assumption | ((with_reducible refine Mask.sub hm ?_); first | exact rfl | (simp only [pageBit_ser]; exact rfl)) | with_reducible apply setReg_within | with_reducible apply mirrorDelta_within | with_reducible exact Within.refl | ((with_reducible refine Within.upd ?_ (.inl rfl) (.inl rfl) (.inl rfl) (.inl rfl) (.inl rfl) (.inl rfl) (.inl rfl) (.inl rfl) (.inl rfl) (.inl rfl) (.inl rfl) (.inl rfl) (.inl rfl) (.inl rfl) (.inl rfl) (.inl rfl) (.inl rfl) (.inl rfl) (.inl rfl) (.inl rfl) (.inr b44) (.inl rfl) (.inl rfl) (.inl rfl) (.inl rfl) (.inl rfl) (.inl rfl) (.inl rfl) (.inl rfl) (.inl rfl)); first | with_reducible assumption | ((with_reducible refine Mask.sub hm ?_); first | exact rfl | (simp only [pageBit_ser]; exact rfl)) | with_reducible apply setReg_within | with_reducible apply mirrorDelta_within | with_reducible exact Within.refl | split) | intro _ | split | dsimp only)

theorem setCounter_within {m : Nat} {s t : State} (h : Within m s t) (a0 : Job) (a1 : GroupSlot) (hm : 0x2098002000a200 ||| m = m) : Within m s (setCounter a0 a1 t) := by
  unfold setCounter
  repeat' (first | with_reducible assumption | ((with_reducible refine Mask.sub hm ?_); first | exact rfl | (simp only [pageBit_ser]; exact rfl)) | with_reducible apply setReg_within | with_reducible apply setGroup_within | with_reducible apply setAssoc_within | with_reducible exact Within.refl | intro _ | split | dsimp only)

theorem askReserve_within {m : Nat} {s t : State} (h : Within m s t) (a0 : Job) (a1 : Nat) (hm : 0x2098002000a200 ||| m = m) : Within m s (askReserve a0 a1 t) := by
  have b47 := Mask.has (i := 47) hm rfl
  unfold askReserve
  repeat' (first | with_reducible assumption | ((with_reducible refine Mask.sub hm ?_); first | exact rfl | (simp only [pageBit_ser]; exact rfl)) | with_reducible apply setReg_within | with_reducible apply sendMirror_within | with_reducible apply setCounter_within | with_reducible exact Within.refl | ((with_reducible refine Within.upd ?_ (.inl rfl) (.inl rfl) (.inl rfl) (.inl rfl) (.inl rfl) (.inl rfl) (.inl rfl) (.inl rfl) (.inl rfl) (.inl rfl) (.inl rfl) (.inl rfl) (.inl rfl) (.inl rfl) (.inl rfl) (.inl rfl) (.inl rfl) (.inl rfl) (.inl rfl) (.inl rfl) (.inl rfl) (.inl rfl) (.inl rfl) (.inr b47) (.inl rfl) (.inl rfl) (.inl rfl) (.inl rfl) (.inl rfl) (.inl rfl)); first | with_reducible assumption | ((with_reducible refine Mask.sub hm ?_); first | exact rfl | (simp only [pageBit_ser]; exact rfl)) | with_reducible apply setReg_within | with_reducible apply sendMirror_within | with_reducible apply setCounter_within | with_reducible exact Within.refl | split) | intro _ | split | dsimp only)

theorem waitReserve_within {m : Nat} {s t : State} (h : Within m s t) (a0 : Job) (hm : 0x2098002000a200 ||| m = m) : Within m s (waitReserve a0 t) := by
  unfold waitReserve
  repeat' (first | with_reducible assumption | ((with_reducible refine Mask.sub hm ?_); first | exact rfl | (simp only [pageBit_ser]; exact rfl)) | with_reducible apply setReg_within | with_reducible apply askReserve_within | with_reducible exact Within.refl | intro _ | split | dsimp only)

theorem issueCounter_within {m : Nat} {s t : State} (h : Within m s t) (a0 : Job) (hm : 0x2098002004a200 ||| m = m) : Within m s (issueCounter a0 t).2.2 := by
  unfold issueCounter
  repeat' (first | with_reducible assumption | ((with_reducible refine Mask.sub hm ?_); first | exact rfl | (simp only [pageBit_ser]; exact rfl)) | with_reducible apply setReg_within | with_reducible apply setCounter_within | with_reducible apply raise_within | with_reducible apply askReserve_within | with_reducible exact Within.refl | intro _ | split | dsimp only)

theorem issueCounter_within_eq {m : Nat} {s t u : State} {a0 : Job} {y0 y1} (e : issueCounter a0 t = (y0, y1, u)) (h : Within m s t) (hm : 0x2098002004a200 ||| m = m) : Within m s u := by
  have k := issueCounter_within h a0 hm
  rw [e] at k
  exact k

theorem noteBeacon_within {m : Nat} {s t : State} (h : Within m s t) (a0 : Job) (hm : 0x80000000000 ||| m = m) : Within m s (noteBeacon a0 t) := by
  unfold noteBeacon
  repeat' (first | with_reducible assumption | ((with_reducible refine Mask.sub hm ?_); first | exact rfl | (simp only [pageBit_ser]; exact rfl)) | with_reducible apply setReg_within | with_reducible apply setMac_within | with_reducible exact Within.refl | intro _ | split | dsimp only)

theorem fixNonce_within {m : Nat} {s t : State} (h : Within m s t) (a0 : Held) (a1 : Nat) (a2 : Nat) (hm : 0x2098002004a200 ||| m = m) : Within m s (fixNonce a0 a1 a2 t).2 := by
  unfold fixNonce
  repeat' (first | with_reducible assumption | ((with_reducible refine Mask.sub hm ?_); first | exact rfl | (simp only [pageBit_ser]; exact rfl)) | with_reducible apply setReg_within | with_reducible apply issueCounter_within | with_reducible apply noteBeacon_within | (with_reducible refine issueCounter_within_eq (by assumption) ?_ ?_) | with_reducible exact Within.refl | intro _ | split | dsimp only)

theorem fixNonce_within_eq {m : Nat} {s t u : State} {a0 : Held} {a1 : Nat} {a2 : Nat} {y0} (e : fixNonce a0 a1 a2 t = (y0, u)) (h : Within m s t) (hm : 0x2098002004a200 ||| m = m) : Within m s u := by
  have k := fixNonce_within h a0 a1 a2 hm
  rw [e] at k
  exact k

theorem acceptJob_within {m : Nat} {s t : State} (h : Within m s t) (a0 : Nat) (a1 : Nat) (a2 : Nat) (a3 : Job) (hm : 0x2098002004a200 ||| m = m) : Within m s (acceptJob a0 a1 a2 a3 t).2 := by
  unfold acceptJob
  repeat' (first | with_reducible assumption | ((with_reducible refine Mask.sub hm ?_); first | exact rfl | (simp only [pageBit_ser]; exact rfl)) | with_reducible apply setReg_within | with_reducible apply cacheLook_within | with_reducible apply waitReserve_within | with_reducible apply fixNonce_within | (with_reducible refine cacheLook_within_eq (by assumption) ?_ ?_) | (with_reducible refine fixNonce_within_eq (by assumption) ?_ ?_) | with_reducible exact Within.refl | intro _ | split | dsimp only)

theorem acceptJob_within_eq {m : Nat} {s t u : State} {a0 : Nat} {a1 : Nat} {a2 : Nat} {a3 : Job} {y0} (e : acceptJob a0 a1 a2 a3 t = (y0, u)) (h : Within m s t) (hm : 0x2098002004a200 ||| m = m) : Within m s u := by
  have k := acceptJob_within h a0 a1 a2 a3 hm
  rw [e] at k
  exact k

theorem resumeHeld_within {m : Nat} {s t : State} (h : Within m s t) (a0 : Held) (hm : 0x2098002004a200 ||| m = m) : Within m s (resumeHeld a0 t).2 := by
  unfold resumeHeld
  repeat' (first | with_reducible assumption | ((with_reducible refine Mask.sub hm ?_); first | exact rfl | (simp only [pageBit_ser]; exact rfl)) | with_reducible apply setReg_within | with_reducible apply fixNonce_within | (with_reducible refine fixNonce_within_eq (by assumption) ?_ ?_) | with_reducible exact Within.refl | intro _ | split | dsimp only)

theorem resumeHeld_within_eq {m : Nat} {s t u : State} {a0 : Held} {y0} (e : resumeHeld a0 t = (y0, u)) (h : Within m s t) (hm : 0x2098002004a200 ||| m = m) : Within m s u := by
  have k := resumeHeld_within h a0 hm
  rw [e] at k
  exact k

theorem jobResult_within {m : Nat} {s t : State} (h : Within m s t) (a0 : Held) (hm : 0x8000000040000 ||| m = m) : Within m s (jobResult a0 t).2.2 := by
  unfold jobResult
  repeat' (first | with_reducible assumption | ((with_reducible refine Mask.sub hm ?_); first | exact rfl | (simp only [pageBit_ser]; exact rfl)) | with_reducible apply setReg_within | with_reducible apply randBytes_within | (with_reducible refine randBytes_within_eq (by assumption) ?_ ?_) | with_reducible exact Within.refl | intro _ | split | dsimp only)

theorem jobResult_within_eq {m : Nat} {s t u : State} {a0 : Held} {y0 y1} (e : jobResult a0 t = (y0, y1, u)) (h : Within m s t) (hm : 0x8000000040000 ||| m = m) : Within m s u := by
  have k := jobResult_within h a0 hm
  rw [e] at k
  exact k

theorem countJob_within {m : Nat} {s t : State} (h : Within m s t) (a0 : Nat) (hm : 0x20000020040000 ||| m = m) : Within m s (countJob a0 t) := by
  unfold countJob
  repeat' (first | with_reducible assumption | ((with_reducible refine Mask.sub hm ?_); first | exact rfl | (simp only [pageBit_ser]; exact rfl)) | with_reducible apply setReg_within | with_reducible apply count_within | with_reducible apply raise_within | with_reducible exact Within.refl | intro _ | split | dsimp only)

theorem refreshGate_within {m : Nat} {s t : State} (h : Within m s t) (hm : 0x40000 ||| m = m) : Within m s (refreshGate t) := by
  unfold refreshGate
  repeat' (first | with_reducible assumption | ((with_reducible refine Mask.sub hm ?_); first | exact rfl | (simp only [pageBit_ser]; exact rfl)) | with_reducible apply setReg_within | with_reducible apply setB_within | with_reducible exact Within.refl | intro _ | split | dsimp only)

theorem runJob_within {m : Nat} {s t : State} (h : Within m s t) (a0 : Nat) (a1 : Job) (hm : 0x2898002004a200 ||| m = m) : Within m s (runJob a0 a1 t).2.2.2 := by
  unfold runJob
  repeat' (first | with_reducible assumption | ((with_reducible refine Mask.sub hm ?_); first | exact rfl | (simp only [pageBit_ser]; exact rfl)) | with_reducible apply setReg_within | with_reducible apply countJob_within | with_reducible apply acceptJob_within | with_reducible apply jobResult_within | (with_reducible refine acceptJob_within_eq (by assumption) ?_ ?_) | (with_reducible refine jobResult_within_eq (by assumption) ?_ ?_) | with_reducible exact Within.refl | intro _ | split | dsimp only)

theorem runJob_within_eq {m : Nat} {s t u : State} {a0 : Nat} {a1 : Job} {y0 y1 y2} (e : runJob a0 a1 t = (y0, y1, y2, u)) (h : Within m s t) (hm : 0x2898002004a200 ||| m = m) : Within m s u := by
  have k := runJob_within h a0 a1 hm
  rw [e] at k
  exact k

end Sys2Proof.Machine
end

