-- ==== Sys2Proof/Laws/WithinLinkOps.lean ====
section
/-! SUPPORT. Sys2Proof/Laws/WithinLinkOps.lean: the parts of a state that the operations of Machine/LinkOps.lean may change. -/
namespace Sys2Proof.Machine

theorem setLink_within {m : Nat} {s t : State} (h : Within m s t) (a0 : LinkSt) (hm : 0x200000000000 ||| m = m) : Within m s (setLink a0 t) := by
  have b45 := Mask.has (i := 45) hm rfl
  unfold setLink
  repeat' (first | with_reducible assumption | ((with_reducible refine Mask.sub hm ?_); first | exact rfl | (simp only [pageBit_ser]; exact rfl)) | with_reducible apply setReg_within | with_reducible exact Within.refl | ((with_reducible refine Within.upd ?_ (.inl rfl) (.inl rfl) (.inl rfl) (.inl rfl) (.inl rfl) (.inl rfl) (.inl rfl) (.inl rfl) (.inl rfl) (.inl rfl) (.inl rfl) (.inl rfl) (.inl rfl) (.inl rfl) (.inl rfl) (.inl rfl) (.inl rfl) (.inl rfl) (.inl rfl) (.inl rfl) (.inl rfl) (.inr b45) (.inl rfl) (.inl rfl) (.inl rfl) (.inl rfl) (.inl rfl) (.inl rfl) (.inl rfl) (.inl rfl)); first | with_reducible assumption | ((with_reducible refine Mask.sub hm ?_); first | exact rfl | (simp only [pageBit_ser]; exact rfl)) | with_reducible apply setReg_within | with_reducible exact Within.refl | split) | intro _ | split | dsimp only)

theorem setLane_within {m : Nat} {s t : State} (h : Within m s t) (a0 : Nat) (a1 : LaneSt) (hm : 0x200000000000 ||| m = m) : Within m s (setLane a0 a1 t) := by
  unfold setLane
  repeat' (first | with_reducible assumption | ((with_reducible refine Mask.sub hm ?_); first | exact rfl | (simp only [pageBit_ser]; exact rfl)) | with_reducible apply setReg_within | with_reducible apply setLink_within | with_reducible exact Within.refl | intro _ | split | dsimp only)

theorem laneTx_within {m : Nat} {s t : State} (h : Within m s t) (a0 : Nat) (a1 : TunnelFrame) (hm : 0x20200000001000 ||| m = m) : Within m s (laneTx a0 a1 t) := by
  unfold laneTx
  repeat' (first | with_reducible assumption | ((with_reducible refine Mask.sub hm ?_); first | exact rfl | (simp only [pageBit_lan, lanPage]; exact rfl)) | with_reducible apply setReg_within | with_reducible apply count_within | with_reducible apply emit_within | with_reducible apply setLane_within | with_reducible exact Within.refl | intro _ | split | dsimp only)

theorem laneSend_within {m : Nat} {s t : State} (h : Within m s t) (a0 : Nat) (a1 : TunnelFrame) (hm : 0x20200000001000 ||| m = m) : Within m s (laneSend a0 a1 t) := by
  unfold laneSend
  repeat' (first | with_reducible assumption | ((with_reducible refine Mask.sub hm ?_); first | exact rfl | (simp only [pageBit_lan, lanPage]; exact rfl)) | with_reducible apply setReg_within | with_reducible apply setLane_within | with_reducible apply laneTx_within | with_reducible exact Within.refl | intro _ | split | dsimp only)

theorem refreshTunnel_within {m : Nat} {s t : State} (h : Within m s t) (hm : 0x1000 ||| m = m) : Within m s (refreshTunnel t) := by
  unfold refreshTunnel
  repeat' (first | with_reducible assumption | ((with_reducible refine Mask.sub hm ?_); first | exact rfl | (simp only [pageBit_lan, lanPage]; exact rfl)) | with_reducible apply setReg_within | with_reducible apply setB_within | with_reducible apply Within.foldl | with_reducible exact Within.refl | intro _ | split | dsimp only)

theorem hostEvent_within {m : Nat} {s t : State} (h : Within m s t) (a0 : Nat) (a1 : Nat) (a2 : Nat) (a3 : Nat) (a4 : List Byte) (hm : 0x20200000001000 ||| m = m) : Within m s (hostEvent a0 a1 a2 a3 a4 t) := by
  unfold hostEvent
  repeat' (first | with_reducible assumption | ((with_reducible refine Mask.sub hm ?_); first | exact rfl | (simp only [pageBit_ser]; exact rfl)) | with_reducible apply setReg_within | with_reducible apply setLink_within | with_reducible apply laneSend_within | with_reducible exact Within.refl | intro _ | split | dsimp only)

theorem divert_within {m : Nat} {s t : State} (h : Within m s t) (a0 : Bool) (a1 : UlFrame) (hm : 0x20200020000800 ||| m = m) : Within m s (divert a0 a1 t) := by
  unfold divert
  repeat' (first | with_reducible assumption | ((with_reducible refine Mask.sub hm ?_); first | exact rfl | (simp only [pageBit_ser]; exact rfl)) | with_reducible apply setReg_within | with_reducible apply raise_within | with_reducible apply setLink_within | with_reducible exact Within.refl | intro _ | split | dsimp only)

theorem sendUp_within {m : Nat} {s t : State} (h : Within m s t) (a0 : Nat) (a1 : UlFrame) (hm : 0x20200000001000 ||| m = m) : Within m s (sendUp a0 a1 t) := by
  unfold sendUp
  repeat' (first | with_reducible assumption | ((with_reducible refine Mask.sub hm ?_); first | exact rfl | (simp only [pageBit_ser]; exact rfl)) | with_reducible apply setReg_within | with_reducible apply laneSend_within | with_reducible apply setLane_within | with_reducible exact Within.refl | intro _ | split | dsimp only)

theorem upPath_within {m : Nat} {s t : State} (h : Within m s t) (a0 : UlFrame) (hm : 0x20200020001800 ||| m = m) : Within m s (upPath a0 t) := by
  unfold upPath
  repeat' (first | with_reducible assumption | ((with_reducible refine Mask.sub hm ?_); first | exact rfl | (simp only [pageBit_ser]; exact rfl)) | with_reducible apply setReg_within | with_reducible apply divert_within | with_reducible apply sendUp_within | with_reducible apply setLink_within | with_reducible exact Within.refl | intro _ | split | dsimp only)

theorem upVerified_within {m : Nat} {s t : State} (h : Within m s t) (a0 : UlFrame) (hm : 0x20200020001800 ||| m = m) : Within m s (upVerified a0 t) := by
  unfold upVerified
  repeat' (first | with_reducible assumption | ((with_reducible refine Mask.sub hm ?_); first | exact rfl | (simp only [pageBit_ser]; exact rfl)) | with_reducible apply setReg_within | with_reducible apply setLink_within | with_reducible apply upPath_within | with_reducible exact Within.refl | intro _ | split | dsimp only)

theorem releaseAcked_within {m : Nat} {s t : State} (h : Within m s t) (hm : 0x20200020001800 ||| m = m) : Within m s (releaseAcked t) := by
  unfold releaseAcked
  repeat' (first | with_reducible assumption | ((with_reducible refine Mask.sub hm ?_); first | exact rfl | (simp only [pageBit_ser]; exact rfl)) | with_reducible apply setReg_within | with_reducible apply upPath_within | with_reducible apply setLink_within | with_reducible apply Within.foldl | with_reducible exact Within.refl | intro _ | split | dsimp only)

theorem dlDone_within {m : Nat} {s t : State} (h : Within m s t) (a0 : Option Nat) (a1 : Option Nat) (a2 : Nat) (a3 : Nat) (a4 : Nat) (hm : 0x200000000000 ||| m = m) : Within m s (dlDone a0 a1 a2 a3 a4 t) := by
  unfold dlDone
  repeat' (first | with_reducible assumption | ((with_reducible refine Mask.sub hm ?_); first | exact rfl | (simp only [pageBit_ser]; exact rfl)) | with_reducible apply setReg_within | with_reducible apply setLink_within | with_reducible exact Within.refl | intro _ | split | dsimp only)

theorem sendDownStatus_within {m : Nat} {s t : State} (h : Within m s t) (a0 : Nat) (a1 : DlDone) (hm : 0x20200000001000 ||| m = m) : Within m s (sendDownStatus a0 a1 t) := by
  unfold sendDownStatus
  repeat' (first | with_reducible assumption | ((with_reducible refine Mask.sub hm ?_); first | exact rfl | (simp only [pageBit_lan, lanPage]; exact rfl)) | with_reducible apply setReg_within | with_reducible apply laneSend_within | with_reducible apply count_within | with_reducible exact Within.refl | intro _ | split | dsimp only)

theorem deliverDone_within {m : Nat} {s t : State} (h : Within m s t) (a0 : DlDone) (hm : 0x20200030001800 ||| m = m) : Within m s (deliverDone a0 t) := by
  unfold deliverDone
  repeat' (first | with_reducible assumption | ((with_reducible refine Mask.sub hm ?_); first | exact rfl | (simp only [pageBit_ser]; exact rfl)) | with_reducible apply setReg_within | with_reducible apply count_within | with_reducible apply ringComplete_within | with_reducible apply sendDownStatus_within | with_reducible exact Within.refl | intro _ | split | dsimp only)

theorem deliverNext_within {m : Nat} {s t : State} (h : Within m s t) (hm : 0x20200030001800 ||| m = m) : Within m s (deliverNext t) := by
  unfold deliverNext
  repeat' (first | with_reducible assumption | ((with_reducible refine Mask.sub hm ?_); first | exact rfl | (simp only [pageBit_ser]; exact rfl)) | with_reducible apply setReg_within | with_reducible apply deliverDone_within | with_reducible apply setLink_within | with_reducible exact Within.refl | intro _ | split | dsimp only)

end Sys2Proof.Machine
end

