-- ==== Sys2Proof/Laws/WithinMac.lean ====
section
/-! SUPPORT. Sys2Proof/Laws/WithinMac.lean: the parts of a state that the operations of Machine/Mac.lean may change. -/
namespace Sys2Proof.Machine

theorem refuseUnit_within {m : Nat} {s t : State} (h : Within m s t) (a0 : Nat) (hm : 0x2088002000a200 ||| m = m) : Within m s (refuseUnit a0 t) := by
  unfold refuseUnit
  repeat' (first | with_reducible assumption | ((with_reducible refine Mask.sub hm ?_); first | exact rfl | (simp only [pageBit_ser]; exact rfl)) | with_reducible apply setReg_within | with_reducible apply raise_within | with_reducible apply count_within | with_reducible apply setCtx_within | with_reducible exact Within.refl | intro _ | split | dsimp only)

theorem failUnit_within {m : Nat} {s t : State} (h : Within m s t) (a0 : Nat) (hm : 0x2088002000a200 ||| m = m) : Within m s (failUnit a0 t) := by
  unfold failUnit
  repeat' (first | with_reducible assumption | ((with_reducible refine Mask.sub hm ?_); first | exact rfl | (simp only [pageBit_ser]; exact rfl)) | with_reducible apply setReg_within | with_reducible apply raise_within | with_reducible apply count_within | with_reducible apply setCtx_within | with_reducible exact Within.refl | intro _ | split | dsimp only)

theorem malformed_within {m : Nat} {s t : State} (h : Within m s t) (hm : 0x8000 ||| m = m) : Within m s (malformed t) := by
  unfold malformed
  repeat' (first | with_reducible assumption | ((with_reducible refine Mask.sub hm ?_); first | exact rfl | (simp only [pageBit_ser]; exact rfl)) | with_reducible apply setReg_within | with_reducible apply count_within | with_reducible exact Within.refl | intro _ | split | dsimp only)

theorem addFrame_within {m : Nat} {s t : State} (h : Within m s t) (a0 : Frame) (hm : 0x80000000000 ||| m = m) : Within m s (addFrame a0 t) := by
  unfold addFrame
  repeat' (first | with_reducible assumption | ((with_reducible refine Mask.sub hm ?_); first | exact rfl | (simp only [pageBit_ser]; exact rfl)) | with_reducible apply setReg_within | with_reducible apply setMac_within | with_reducible exact Within.refl | intro _ | split | dsimp only)

theorem setFrame_within {m : Nat} {s t : State} (h : Within m s t) (a0 : Frame) (hm : 0x80000000000 ||| m = m) : Within m s (setFrame a0 t) := by
  unfold setFrame
  repeat' (first | with_reducible assumption | ((with_reducible refine Mask.sub hm ?_); first | exact rfl | (simp only [pageBit_ser]; exact rfl)) | with_reducible apply setReg_within | with_reducible apply setMac_within | with_reducible exact Within.refl | intro _ | split | dsimp only)

theorem dropFrame_within {m : Nat} {s t : State} (h : Within m s t) (a0 : Nat) (hm : 0x80000000000 ||| m = m) : Within m s (dropFrame a0 t) := by
  unfold dropFrame
  repeat' (first | with_reducible assumption | ((with_reducible refine Mask.sub hm ?_); first | exact rfl | (simp only [pageBit_ser]; exact rfl)) | with_reducible apply setReg_within | with_reducible apply setMac_within | with_reducible exact Within.refl | intro _ | split | dsimp only)

theorem finishFrame_within {m : Nat} {s t : State} (h : Within m s t) (a0 : Frame) (a1 : Nat) (hm : 0x280000000000 ||| m = m) : Within m s (finishFrame a0 a1 t) := by
  unfold finishFrame
  repeat' (first | with_reducible assumption | ((with_reducible refine Mask.sub hm ?_); first | exact rfl | (simp only [pageBit_ser]; exact rfl)) | with_reducible apply setReg_within | with_reducible apply dlDone_within | with_reducible apply dropFrame_within | with_reducible exact Within.refl | intro _ | split | dsimp only)

theorem ownFrame_within {m : Nat} {s t : State} (h : Within m s t) (a0 : FrameKind) (a1 : Nat) (a2 : List Byte) (hm : 0x80000000000 ||| m = m) : Within m s (ownFrame a0 a1 a2 t) := by
  unfold ownFrame
  repeat' (first | with_reducible assumption | ((with_reducible refine Mask.sub hm ?_); first | exact rfl | (simp only [pageBit_ser]; exact rfl)) | with_reducible apply setReg_within | with_reducible apply addFrame_within | with_reducible exact Within.refl | intro _ | split | dsimp only)

theorem plainFrame_within {m : Nat} {s t : State} (h : Within m s t) (a0 : FrameKind) (a1 : Nat) (a2 : Nat) (a3 : Nat) (a4 : List Byte) (a5 : Wave) (hm : 0x80000000000 ||| m = m) : Within m s (plainFrame a0 a1 a2 a3 a4 a5 t) := by
  unfold plainFrame
  repeat' (first | with_reducible assumption | ((with_reducible refine Mask.sub hm ?_); first | exact rfl | (simp only [pageBit_ser]; exact rfl)) | with_reducible apply setReg_within | with_reducible apply addFrame_within | with_reducible exact Within.refl | intro _ | split | dsimp only)

theorem sendAck_within {m : Nat} {s t : State} (h : Within m s t) (a0 : Nat) (a1 : Nat) (a2 : Bool) (hm : 0x80000000000 ||| m = m) : Within m s (sendAck a0 a1 a2 t) := by
  unfold sendAck
  repeat' (first | with_reducible assumption | ((with_reducible refine Mask.sub hm ?_); first | exact rfl | (simp only [pageBit_ser]; exact rfl)) | with_reducible apply setReg_within | with_reducible apply ownFrame_within | with_reducible apply plainFrame_within | with_reducible exact Within.refl | intro _ | split | dsimp only)

theorem setParent_within {m : Nat} {s t : State} (h : Within m s t) (a0 : ParentSt) (hm : 0x20880000002200 ||| m = m) : Within m s (setParent a0 t) := by
  unfold setParent
  repeat' (first | with_reducible assumption | ((with_reducible refine Mask.sub hm ?_); first | exact rfl | (simp only [pageBit_ser]; exact rfl)) | with_reducible apply setReg_within | with_reducible apply mirrorDelta_within | with_reducible apply setMac_within | with_reducible exact Within.refl | intro _ | split | dsimp only)

theorem parentFrameUnit_within {m : Nat} {s t : State} (h : Within m s t) (a0 : Bool) (a1 : List Byte) (hm : 0x20880020042200 ||| m = m) : Within m s (parentFrameUnit a0 a1 t).2.2 := by
  unfold parentFrameUnit
  repeat' (first | with_reducible assumption | ((with_reducible refine Mask.sub hm ?_); first | exact rfl | (simp only [pageBit_ser]; exact rfl)) | with_reducible apply setReg_within | with_reducible apply setParent_within | with_reducible apply countJob_within | with_reducible exact Within.refl | intro _ | split | dsimp only)

theorem parentFrameUnit_within_eq {m : Nat} {s t u : State} {a0 : Bool} {a1 : List Byte} {y0 y1} (e : parentFrameUnit a0 a1 t = (y0, y1, u)) (h : Within m s t) (hm : 0x20880020042200 ||| m = m) : Within m s u := by
  have k := parentFrameUnit_within h a0 a1 hm
  rw [e] at k
  exact k

theorem parentFrame_within {m : Nat} {s t : State} (h : Within m s t) (a0 : List Byte) (hm : 0x20880020042200 ||| m = m) : Within m s (parentFrame a0 t).2 := by
  unfold parentFrame
  repeat' (first | with_reducible assumption | ((with_reducible refine Mask.sub hm ?_); first | exact rfl | (simp only [pageBit_ser]; exact rfl)) | with_reducible apply setReg_within | with_reducible apply parentFrameUnit_within | (with_reducible refine parentFrameUnit_within_eq (by assumption) ?_ ?_) | with_reducible exact Within.refl | intro _ | split | dsimp only)

theorem parentFrame_within_eq {m : Nat} {s t u : State} {a0 : List Byte} {y0} (e : parentFrame a0 t = (y0, u)) (h : Within m s t) (hm : 0x20880020042200 ||| m = m) : Within m s u := by
  have k := parentFrame_within h a0 hm
  rw [e] at k
  exact k

theorem laneNgael_within {m : Nat} {s t : State} (h : Within m s t) (a0 : Nat) (a1 : List Byte) (hm : 0x20200000001000 ||| m = m) : Within m s (laneNgael a0 a1 t) := by
  unfold laneNgael
  repeat' (first | with_reducible assumption | ((with_reducible refine Mask.sub hm ?_); first | exact rfl | (simp only [pageBit_ser]; exact rfl)) | with_reducible apply setReg_within | with_reducible apply laneSend_within | with_reducible exact Within.refl | intro _ | split | dsimp only)

theorem toParent_within {m : Nat} {s t : State} (h : Within m s t) (a0 : List Byte) (hm : 0x20a80020043200 ||| m = m) : Within m s (toParent a0 t) := by
  unfold toParent
  repeat' (first | with_reducible assumption | ((with_reducible refine Mask.sub hm ?_); first | exact rfl | (simp only [pageBit_ser]; exact rfl)) | with_reducible apply setReg_within | with_reducible apply parentFrame_within | with_reducible apply laneNgael_within | with_reducible apply setParent_within | (with_reducible refine parentFrame_within_eq (by assumption) ?_ ?_) | with_reducible exact Within.refl | intro _ | split | dsimp only)

theorem dropFrames_within {m : Nat} {s t : State} (h : Within m s t) (a0 : Nat) (hm : 0x280000000000 ||| m = m) : Within m s (dropFrames a0 t) := by
  unfold dropFrames
  repeat' (first | with_reducible assumption | ((with_reducible refine Mask.sub hm ?_); first | exact rfl | (simp only [pageBit_ser]; exact rfl)) | with_reducible apply setReg_within | with_reducible apply finishFrame_within | with_reducible apply Within.foldl | with_reducible exact Within.refl | intro _ | split | dsimp only)

theorem clearRelays_within {m : Nat} {s t : State} (h : Within m s t) (a0 : Nat) (hm : 0x20880020012200 ||| m = m) : Within m s (clearRelays a0 t) := by
  unfold clearRelays
  repeat' (first | with_reducible assumption | ((with_reducible refine Mask.sub hm ?_); first | exact rfl | (simp only [pageBit_ser]; exact rfl)) | with_reducible apply setReg_within | with_reducible apply raise_within | with_reducible apply setRelay_within | with_reducible apply Within.foldl | with_reducible exact Within.refl | intro _ | split | dsimp only)

theorem treeEnd_within {m : Nat} {s t : State} (h : Within m s t) (a0 : Nat) (a1 : Ctx) (a2 : Nat) (hm : 0x20a80020043200 ||| m = m) : Within m s (treeEnd a0 a1 a2 t) := by
  unfold treeEnd
  repeat' (first | with_reducible assumption | ((with_reducible refine Mask.sub hm ?_); first | exact rfl | (simp only [pageBit_ser]; exact rfl)) | with_reducible apply setReg_within | with_reducible apply ownFrame_within | with_reducible apply setRoute_within | with_reducible apply toParent_within | with_reducible exact Within.refl | intro _ | split | dsimp only)

theorem endCommands_within {m : Nat} {s t : State} (h : Within m s t) (a0 : Nat) (hm : 0x20000034018800 ||| m = m) : Within m s (endCommands a0 t) := by
  unfold endCommands
  repeat' (first | with_reducible assumption | ((with_reducible refine Mask.sub hm ?_); first | exact rfl | (simp only [pageBit_ser]; exact rfl)) | with_reducible apply setReg_within | with_reducible apply done_within | with_reducible exact Within.refl | intro _ | split | dsimp only)

theorem endRecord_within {m : Nat} {s t : State} (h : Within m s t) (a0 : Bool) (a1 : Nat) (a2 : Nat) (hm : 0x20a8483425ba00 ||| m = m) : Within m s (endRecord a0 a1 a2 t) := by
  have b38 := Mask.has (i := 38) hm rfl
  unfold endRecord
  repeat' (first | with_reducible assumption | ((with_reducible refine Mask.sub hm ?_); first | exact rfl | (simp only [pageBit_ser]; exact rfl)) | with_reducible apply setReg_within | with_reducible apply setParked_within | with_reducible apply treeEnd_within | with_reducible apply clearRelays_within | with_reducible apply freeMaps_within | with_reducible apply dropFrames_within | with_reducible apply setMac_within | with_reducible apply setAssoc_within | with_reducible apply hostEvent_within | with_reducible apply raise_within | with_reducible apply endCommands_within | with_reducible exact Within.refl | ((with_reducible refine Within.upd ?_ (.inl rfl) (.inl rfl) (.inl rfl) (.inl rfl) (.inl rfl) (.inl rfl) (.inl rfl) (.inl rfl) (.inl rfl) (.inl rfl) (.inl rfl) (.inl rfl) (.inl rfl) (.inl rfl) (.inr b38) (.inl rfl) (.inl rfl) (.inl rfl) (.inl rfl) (.inl rfl) (.inl rfl) (.inl rfl) (.inl rfl) (.inl rfl) (.inl rfl) (.inl rfl) (.inl rfl) (.inl rfl) (.inl rfl) (.inl rfl)); first | with_reducible assumption | ((with_reducible refine Mask.sub hm ?_); first | exact rfl | (simp only [pageBit_ser]; exact rfl)) | with_reducible apply setReg_within | with_reducible apply setParked_within | with_reducible apply treeEnd_within | with_reducible apply clearRelays_within | with_reducible apply freeMaps_within | with_reducible apply dropFrames_within | with_reducible apply setMac_within | with_reducible apply setAssoc_within | with_reducible apply hostEvent_within | with_reducible apply raise_within | with_reducible apply endCommands_within | with_reducible exact Within.refl | split) | intro _ | split | dsimp only)

theorem finishEnd_within {m : Nat} {s t : State} (h : Within m s t) (a0 : Nat) (a1 : Nat) (hm : 0x20a8483425ba00 ||| m = m) : Within m s (finishEnd a0 a1 t) := by
  unfold finishEnd
  repeat' (first | with_reducible assumption | ((with_reducible refine Mask.sub hm ?_); first | exact rfl | (simp only [pageBit_ser]; exact rfl)) | with_reducible apply setReg_within | with_reducible apply endRecord_within | with_reducible exact Within.refl | intro _ | split | dsimp only)

theorem startEnd_within {m : Nat} {s t : State} (h : Within m s t) (a0 : Nat) (a1 : Nat) (a2 : Nat) (a3 : Bool) (hm : 0x20a8483425ba00 ||| m = m) : Within m s (startEnd a0 a1 a2 a3 t) := by
  unfold startEnd
  repeat' (first | with_reducible assumption | ((with_reducible refine Mask.sub hm ?_); first | exact rfl | (simp only [pageBit_ser]; exact rfl)) | with_reducible apply setReg_within | with_reducible apply finishEnd_within | with_reducible apply dropFrames_within | with_reducible apply setAssoc_within | with_reducible apply ownFrame_within | with_reducible exact Within.refl | intro _ | split | dsimp only)

theorem startRekey_within {m : Nat} {s t : State} (h : Within m s t) (a0 : Nat) (hm : 0x2898002004a200 ||| m = m) : Within m s (startRekey a0 t) := by
  unfold startRekey
  repeat' (first | with_reducible assumption | ((with_reducible refine Mask.sub hm ?_); first | exact rfl | (simp only [pageBit_ser]; exact rfl)) | with_reducible apply setReg_within | with_reducible apply runJob_within | with_reducible apply ownFrame_within | with_reducible apply setAssoc_within | (with_reducible refine runJob_within_eq (by assumption) ?_ ?_) | with_reducible exact Within.refl | intro _ | split | dsimp only)

theorem completeRekey_within {m : Nat} {s t : State} (h : Within m s t) (a0 : Nat) (a1 : Nat) (hm : 0x2088002000a200 ||| m = m) : Within m s (completeRekey a0 a1 t) := by
  unfold completeRekey
  repeat' (first | with_reducible assumption | ((with_reducible refine Mask.sub hm ?_); first | exact rfl | (simp only [pageBit_ser]; exact rfl)) | with_reducible apply setReg_within | with_reducible apply setAssoc_within | with_reducible apply setMac_within | with_reducible exact Within.refl | intro _ | split | dsimp only)

theorem nextFseq_within {m : Nat} {s t : State} (h : Within m s t) (a0 : Nat) (a1 : Wave) (hm : 0x2088002000a200 ||| m = m) : Within m s (nextFseq a0 a1 t).2 := by
  unfold nextFseq
  repeat' (first | with_reducible assumption | ((with_reducible refine Mask.sub hm ?_); first | exact rfl | (simp only [pageBit_ser]; exact rfl)) | with_reducible apply setReg_within | with_reducible apply setCtx_within | with_reducible exact Within.refl | intro _ | split | dsimp only)

theorem nextFseq_within_eq {m : Nat} {s t u : State} {a0 : Nat} {a1 : Wave} {y0} (e : nextFseq a0 a1 t = (y0, u)) (h : Within m s t) (hm : 0x2088002000a200 ||| m = m) : Within m s u := by
  have k := nextFseq_within h a0 a1 hm
  rw [e] at k
  exact k

theorem sealUnit_within {m : Nat} {s t : State} (h : Within m s t) (a0 : Job) (hm : 0x2898002004a200 ||| m = m) : Within m s (sealUnit a0 t).2.2 := by
  unfold sealUnit
  repeat' (first | with_reducible assumption | ((with_reducible refine Mask.sub hm ?_); first | exact rfl | (simp only [pageBit_ser]; exact rfl)) | with_reducible apply setReg_within | with_reducible apply runJob_within | with_reducible apply setCtx_within | (with_reducible refine runJob_within_eq (by assumption) ?_ ?_) | with_reducible exact Within.refl | intro _ | split | dsimp only)

theorem sealUnit_within_eq {m : Nat} {s t u : State} {a0 : Job} {y0 y1} (e : sealUnit a0 t = (y0, y1, u)) (h : Within m s t) (hm : 0x2898002004a200 ||| m = m) : Within m s u := by
  have k := sealUnit_within h a0 hm
  rw [e] at k
  exact k

theorem jobRefused_within {m : Nat} {s t : State} (h : Within m s t) (a0 : Nat) (a1 : Nat) (hm : 0x20a8483425ba00 ||| m = m) : Within m s (jobRefused a0 a1 t) := by
  unfold jobRefused
  repeat' (first | with_reducible assumption | ((with_reducible refine Mask.sub hm ?_); first | exact rfl | (simp only [pageBit_ser]; exact rfl)) | with_reducible apply setReg_within | with_reducible apply startEnd_within | with_reducible exact Within.refl | intro _ | split | dsimp only)

theorem sealFrame_within {m : Nat} {s t : State} (h : Within m s t) (a0 : Frame) (hm : 0x2898002004a200 ||| m = m) : Within m s (sealFrame a0 t).2.2 := by
  unfold sealFrame
  repeat' (first | with_reducible assumption | ((with_reducible refine Mask.sub hm ?_); first | exact rfl | (simp only [pageBit_ser]; exact rfl)) | with_reducible apply setReg_within | with_reducible apply nextFseq_within | with_reducible apply sealUnit_within | (with_reducible refine nextFseq_within_eq (by assumption) ?_ ?_) | (with_reducible refine sealUnit_within_eq (by assumption) ?_ ?_) | with_reducible exact Within.refl | intro _ | split | dsimp only)

theorem sealFrame_within_eq {m : Nat} {s t u : State} {a0 : Frame} {y0 y1} (e : sealFrame a0 t = (y0, y1, u)) (h : Within m s t) (hm : 0x2898002004a200 ||| m = m) : Within m s u := by
  have k := sealFrame_within h a0 hm
  rw [e] at k
  exact k

end Sys2Proof.Machine
end

