-- ==== Sys2Proof/Laws/WithinUplink.lean ====
section
/-! SUPPORT. Sys2Proof/Laws/WithinUplink.lean: the parts of a state that the operations of Machine/Uplink.lean may change. -/
namespace Sys2Proof.Machine

theorem consume_within {m : Nat} {s t : State} (h : Within m s t) (a0 : Nat) (hm : 0x8000000000 ||| m = m) : Within m s (consume a0 t) := by
  unfold consume
  repeat' (first | with_reducible assumption | ((with_reducible refine Mask.sub hm ?_); first | exact rfl | (simp only [pageBit_ser]; exact rfl)) | with_reducible apply setReg_within | with_reducible apply setBurst_within | with_reducible exact Within.refl | intro _ | split | dsimp only)

theorem onFrame_within {m : Nat} {s t : State} (h : Within m s t) (a0 : Nat) (a1 : FrameIn → Bool) (a2 : FrameIn → State → State) (h2 : ∀ x0 x1, Within m s x1 → Within m s (a2 x0 x1)) (hm : 0x8000000000 ||| m = m) : Within m s (onFrame a0 a1 a2 t) := by
  unfold onFrame
  repeat' (first | with_reducible assumption | ((with_reducible refine Mask.sub hm ?_); first | exact rfl | (simp only [pageBit_ser]; exact rfl)) | with_reducible apply setReg_within | with_reducible apply consume_within | apply h2 | with_reducible exact Within.refl | intro _ | split | dsimp only)

theorem lookup_within {m : Nat} {s t : State} (h : Within m s t) (a0 : Nat) (hm : 0x80000008000 ||| m = m) : Within m s (lookup a0 t) := by
  unfold lookup
  repeat' (first | with_reducible assumption | ((with_reducible refine Mask.sub hm ?_); first | exact rfl | (simp only [pageBit_ser]; exact rfl)) | with_reducible apply setReg_within | with_reducible apply count_within | with_reducible apply setMac_within | with_reducible exact Within.refl | intro _ | split | dsimp only)

theorem sf2Reject_within {m : Nat} {s t : State} (h : Within m s t) (a0 : Nat) (a1 : Nat) (a2 : Nat) (hm : 0x20000028000028 ||| m = m) : Within m s (sf2Reject a0 a1 a2 t) := by
  unfold sf2Reject
  repeat' (first | with_reducible assumption | ((with_reducible refine Mask.sub hm ?_); first | exact rfl | (simp only [pageBit_ser]; exact rfl)) | with_reducible apply setReg_within | with_reducible apply logPage_within | with_reducible apply raise_within | with_reducible apply count_within | with_reducible apply setF_within | with_reducible exact Within.refl | intro _ | split | dsimp only)

theorem pendElem_within {m : Nat} {s t : State} (h : Within m s t) (a0 : Nat) (a1 : Bool) (a2 : Bool) (a3 : Nat) (a4 : List Byte) (hm : 0x80000000000 ||| m = m) : Within m s (pendElem a0 a1 a2 a3 a4 t) := by
  unfold pendElem
  repeat' (first | with_reducible assumption | ((with_reducible refine Mask.sub hm ?_); first | exact rfl | (simp only [pageBit_ser]; exact rfl)) | with_reducible apply setReg_within | with_reducible apply setMac_within | with_reducible exact Within.refl | intro _ | split | dsimp only)

theorem dataElem_within {m : Nat} {s t : State} (h : Within m s t) (a0 : Nat) (a1 : Bool) (a2 : List Byte) (hm : 0x20200028001828 ||| m = m) : Within m s (dataElem a0 a1 a2 t) := by
  unfold dataElem
  repeat' (first | with_reducible assumption | ((with_reducible refine Mask.sub hm ?_); first | exact rfl | (simp only [pageBit_ser]; exact rfl)) | with_reducible apply setReg_within | with_reducible apply sf2Reject_within | with_reducible apply upVerified_within | with_reducible exact Within.refl | intro _ | split | dsimp only)

theorem elemIn_within {m : Nat} {s t : State} (h : Within m s t) (a0 : Nat) (a1 : Bool) (a2 : Nat × List Byte) (hm : 0x20a8002800ba28 ||| m = m) : Within m s (elemIn a0 a1 a2 t) := by
  unfold elemIn
  repeat' (first | with_reducible assumption | ((with_reducible refine Mask.sub hm ?_); first | exact rfl | (simp only [pageBit_ser]; exact rfl)) | with_reducible apply setReg_within | with_reducible apply dataElem_within | with_reducible apply setAssoc_within | with_reducible apply pendElem_within | with_reducible apply setCtx_within | with_reducible exact Within.refl | intro _ | split | dsimp only)

theorem treeUp_within {m : Nat} {s t : State} (h : Within m s t) (a0 : Nat) (a1 : Nat) (a2 : List Byte) (hm : 0x20a80020053a00 ||| m = m) : Within m s (treeUp a0 a1 a2 t) := by
  unfold treeUp
  repeat' (first | with_reducible assumption | ((with_reducible refine Mask.sub hm ?_); first | exact rfl | (simp only [pageBit_ser]; exact rfl)) | with_reducible apply setReg_within | with_reducible apply count_within | with_reducible apply toParent_within | with_reducible apply divert_within | with_reducible exact Within.refl | intro _ | split | dsimp only)

theorem plainIn_within {m : Nat} {s t : State} (h : Within m s t) (a0 : Nat) (a1 : Bool) (a2 : Bool) (a3 : List Byte) (hm : 0x20a8002805ba28 ||| m = m) : Within m s (plainIn a0 a1 a2 a3 t) := by
  unfold plainIn
  repeat' (first | with_reducible assumption | ((with_reducible refine Mask.sub hm ?_); first | exact rfl | (simp only [pageBit_ser]; exact rfl)) | with_reducible apply setReg_within | with_reducible apply treeUp_within | with_reducible apply malformed_within | with_reducible apply elemIn_within | with_reducible apply Within.foldl | with_reducible exact Within.refl | intro _ | split | dsimp only)

theorem sendBkey_within {m : Nat} {s t : State} (h : Within m s t) (a0 : Nat) (hm : 0x80000000000 ||| m = m) : Within m s (sendBkey a0 t) := by
  unfold sendBkey
  repeat' (first | with_reducible assumption | ((with_reducible refine Mask.sub hm ?_); first | exact rfl | (simp only [pageBit_ser]; exact rfl)) | with_reducible apply setReg_within | with_reducible apply ownFrame_within | with_reducible exact Within.refl | intro _ | split | dsimp only)

theorem confirmJoin_within {m : Nat} {s t : State} (h : Within m s t) (a0 : Nat) (hm : 0x20a8002000b200 ||| m = m) : Within m s (confirmJoin a0 t) := by
  unfold confirmJoin
  repeat' (first | with_reducible assumption | ((with_reducible refine Mask.sub hm ?_); first | exact rfl | (simp only [pageBit_ser]; exact rfl)) | with_reducible apply setReg_within | with_reducible apply setAssoc_within | with_reducible apply hostEvent_within | with_reducible apply raise_within | with_reducible apply count_within | with_reducible apply sendBkey_within | with_reducible exact Within.refl | intro _ | split | dsimp only)

theorem noteUnit_within {m : Nat} {s t : State} (h : Within m s t) (a0 : FrameIn) (a1 : Nat) (a2 : Nat) (a3 : Nat) (hm : 0x2088002000a200 ||| m = m) : Within m s (noteUnit a0 a1 a2 a3 t) := by
  unfold noteUnit
  repeat' (first | with_reducible assumption | ((with_reducible refine Mask.sub hm ?_); first | exact rfl | (simp only [pageBit_ser]; exact rfl)) | with_reducible apply setReg_within | with_reducible apply setAssoc_within | with_reducible exact Within.refl | intro _ | split | dsimp only)

theorem openRekey_within {m : Nat} {s t : State} (h : Within m s t) (a0 : FrameIn) (a1 : Nat) (a2 : Nat) (a3 : UnitIn) (a4 : RekeySt) (hm : 0x20000020040000 ||| m = m) : Within m s (openRekey a0 a1 a2 a3 a4 t).2.2 := by
  unfold openRekey
  repeat' (first | with_reducible assumption | ((with_reducible refine Mask.sub hm ?_); first | exact rfl | (simp only [pageBit_ser]; exact rfl)) | with_reducible apply setReg_within | with_reducible apply countJob_within | with_reducible exact Within.refl | intro _ | split | dsimp only)

theorem openRekey_within_eq {m : Nat} {s t u : State} {a0 : FrameIn} {a1 : Nat} {a2 : Nat} {a3 : UnitIn} {a4 : RekeySt} {y0 y1} (e : openRekey a0 a1 a2 a3 a4 t = (y0, y1, u)) (h : Within m s t) (hm : 0x20000020040000 ||| m = m) : Within m s u := by
  have k := openRekey_within h a0 a1 a2 a3 a4 hm
  rw [e] at k
  exact k

theorem unitIn_unitOld_within {m : Nat} {s t : State} (h : Within m s t) (a0 : FrameIn) (a1 : Nat) (a2 : Nat) (a3 : UnitIn) (hm : 0x28b8002805ba28 ||| m = m) : Within m s (unitIn.unitOld a0 a1 a2 a3 t).2 := by
  unfold unitIn.unitOld
  repeat' (first | with_reducible assumption | ((with_reducible refine Mask.sub hm ?_); first | exact rfl | (simp only [pageBit_ser]; exact rfl)) | with_reducible apply setReg_within | with_reducible apply refuseUnit_within | with_reducible apply runJob_within | with_reducible apply plainIn_within | with_reducible apply confirmJoin_within | with_reducible apply noteUnit_within | with_reducible apply failUnit_within | (with_reducible refine runJob_within_eq (by assumption) ?_ ?_) | with_reducible exact Within.refl | intro _ | split | dsimp only)

theorem unitIn_unitOld_within_eq {m : Nat} {s t u : State} {a0 : FrameIn} {a1 : Nat} {a2 : Nat} {a3 : UnitIn} {y0} (e : unitIn.unitOld a0 a1 a2 a3 t = (y0, u)) (h : Within m s t) (hm : 0x28b8002805ba28 ||| m = m) : Within m s u := by
  have k := unitIn_unitOld_within h a0 a1 a2 a3 hm
  rw [e] at k
  exact k

theorem unitIn_within {m : Nat} {s t : State} (h : Within m s t) (a0 : FrameIn) (a1 : Nat) (a2 : Nat) (a3 : UnitIn) (hm : 0x28b8002805ba28 ||| m = m) : Within m s (unitIn a0 a1 a2 a3 t).2 := by
  unfold unitIn
  repeat' (first | with_reducible assumption | ((with_reducible refine Mask.sub hm ?_); first | exact rfl | (simp only [pageBit_ser]; exact rfl)) | with_reducible apply setReg_within | with_reducible apply openRekey_within | with_reducible apply plainIn_within | with_reducible apply noteUnit_within | with_reducible apply completeRekey_within | with_reducible apply failUnit_within | with_reducible apply unitIn_unitOld_within | (with_reducible refine openRekey_within_eq (by assumption) ?_ ?_) | (with_reducible refine unitIn_unitOld_within_eq (by assumption) ?_ ?_) | with_reducible exact Within.refl | intro _ | split | dsimp only)

theorem unitIn_within_eq {m : Nat} {s t u : State} {a0 : FrameIn} {a1 : Nat} {a2 : Nat} {a3 : UnitIn} {y0} (e : unitIn a0 a1 a2 a3 t = (y0, u)) (h : Within m s t) (hm : 0x28b8002805ba28 ||| m = m) : Within m s u := by
  have k := unitIn_within h a0 a1 a2 a3 hm
  rw [e] at k
  exact k

theorem unitsIn_within {m : Nat} {s t : State} (h : Within m s t) (f : FrameIn) (i : Nat) (us : List UnitIn) (hm : 0x28b8002805ba28 ||| m = m) : Within m s (unitsIn f i us t).2 := by
  unfold unitsIn
  have k : ∀ (l : List (UnitIn × Nat)) (a : Bool × State), Within m s a.2 →
      Within m s (l.foldl (fun (a : Bool × State) u => let r := unitIn f i u.2 u.1 a.2; (a.1 && r.1, r.2)) a).2 := by
    intro l
    induction l with
    | nil => exact fun a ha => ha
    | cons u l ih => exact fun a ha => ih _ (unitIn_within ha _ _ _ _ (Mask.sub hm rfl))
  exact k _ _ h

theorem unitsIn_within_eq {m : Nat} {s t u : State} {f : FrameIn} {i : Nat} {us : List UnitIn} {y : Bool} (e : unitsIn f i us t = (y, u)) (h : Within m s t)
    (hm : 0x28b8002805ba28 ||| m = m) : Within m s u := by
  have k := unitsIn_within h f i us hm
  rw [e] at k
  exact k

theorem dataFrame_within {m : Nat} {s t : State} (h : Within m s t) (a0 : FrameIn) (hm : 0x28b8002805ba28 ||| m = m) : Within m s (dataFrame a0 t) := by
  unfold dataFrame
  repeat' (first | with_reducible assumption | ((with_reducible refine Mask.sub hm ?_); first | exact rfl | (simp only [pageBit_ser]; exact rfl)) | with_reducible apply setReg_within | with_reducible apply lookup_within | with_reducible apply malformed_within | with_reducible apply unitsIn_within | with_reducible apply setRelay_within | with_reducible apply sendAck_within | (with_reducible refine unitsIn_within_eq (by assumption) ?_ ?_) | with_reducible exact Within.refl | intro _ | split | dsimp only)

theorem parentElem_within {m : Nat} {s t : State} (h : Within m s t) (a0 : Bool) (a1 : Nat × List Byte) (hm : 0x20880000002200 ||| m = m) : Within m s (parentElem a0 a1 t) := by
  unfold parentElem
  repeat' (first | with_reducible assumption | ((with_reducible refine Mask.sub hm ?_); first | exact rfl | (simp only [pageBit_ser]; exact rfl)) | with_reducible apply setReg_within | with_reducible apply setParent_within | with_reducible apply pendElem_within | with_reducible exact Within.refl | intro _ | split | dsimp only)

theorem parentUnit_within {m : Nat} {s t : State} (h : Within m s t) (a0 : FrameIn) (a1 : Nat) (a2 : UnitIn) (hm : 0x20880020042200 ||| m = m) : Within m s (parentUnit a0 a1 a2 t) := by
  unfold parentUnit
  repeat' (first | with_reducible assumption | ((with_reducible refine Mask.sub hm ?_); first | exact rfl | (simp only [pageBit_ser]; exact rfl)) | with_reducible apply setReg_within | with_reducible apply countJob_within | with_reducible apply setParent_within | with_reducible apply parentElem_within | with_reducible apply Within.foldl | with_reducible exact Within.refl | intro _ | split | dsimp only)

theorem parentData_within {m : Nat} {s t : State} (h : Within m s t) (a0 : FrameIn) (hm : 0x20a8002004b200 ||| m = m) : Within m s (parentData a0 t) := by
  unfold parentData
  repeat' (first | with_reducible assumption | ((with_reducible refine Mask.sub hm ?_); first | exact rfl | (simp only [pageBit_ser]; exact rfl)) | with_reducible apply setReg_within | with_reducible apply malformed_within | with_reducible apply toParent_within | with_reducible apply parentUnit_within | with_reducible apply Within.foldl | with_reducible exact Within.refl | intro _ | split | dsimp only)

theorem parentBeacon_within {m : Nat} {s t : State} (h : Within m s t) (a0 : FrameIn) (hm : 0x20880020012200 ||| m = m) : Within m s (parentBeacon a0 t) := by
  unfold parentBeacon
  repeat' (first | with_reducible assumption | ((with_reducible refine Mask.sub hm ?_); first | exact rfl | (simp only [pageBit_ser]; exact rfl)) | with_reducible apply setReg_within | with_reducible apply setParent_within | with_reducible apply setF_within | with_reducible apply setB_within | with_reducible apply raise_within | with_reducible exact Within.refl | intro _ | split | dsimp only)

theorem uplinkFrame_within {m : Nat} {s t : State} (h : Within m s t) (a0 : FrameIn) (hm : 0x28b8002805ba28 ||| m = m) : Within m s (uplinkFrame a0 t) := by
  unfold uplinkFrame
  repeat' (first | with_reducible assumption | ((with_reducible refine Mask.sub hm ?_); first | exact rfl | (simp only [pageBit_ser]; exact rfl)) | with_reducible apply setReg_within | with_reducible apply parentBeacon_within | with_reducible apply parentData_within | with_reducible apply dataFrame_within | with_reducible exact Within.refl | intro _ | split | dsimp only)

theorem execUplinkFrame_within {m : Nat} {s t u : State} (h : Within m s t) (a0 : BurstId) (hm : 0x28b8802805ba28 ||| m = m) (e : execUplinkFrame a0 t = .next u) : Within m s u := by
  unfold execUplinkFrame at e
  try dsimp only at e
  repeat' split at e
  all_goals (cases e; repeat' (first | with_reducible assumption | ((with_reducible refine Mask.sub hm ?_); first | exact rfl | (simp only [pageBit_ser]; exact rfl)) | with_reducible apply setReg_within | with_reducible apply onFrame_within | with_reducible apply uplinkFrame_within | with_reducible exact Within.refl | intro _ | split | dsimp only))

theorem ackMap_within {m : Nat} {s t : State} (h : Within m s t) (a0 : Nat) (a1 : Nat) (hm : 0x20000820200000 ||| m = m) : Within m s (ackMap a0 a1 t) := by
  unfold ackMap
  repeat' (first | with_reducible assumption | ((with_reducible refine Mask.sub hm ?_); first | exact rfl | (simp only [pageBit_ser]; exact rfl)) | with_reducible apply setReg_within | with_reducible apply putMap_within | with_reducible exact Within.refl | intro _ | split | dsimp only)

theorem ownAcked_within {m : Nat} {s t : State} (h : Within m s t) (a0 : Frame) (hm : 0x20a8483425ba00 ||| m = m) : Within m s (ownAcked a0 t) := by
  unfold ownAcked
  repeat' (first | with_reducible assumption | ((with_reducible refine Mask.sub hm ?_); first | exact rfl | (simp only [pageBit_ser]; exact rfl)) | with_reducible apply setReg_within | with_reducible apply finishEnd_within | with_reducible apply done_within | with_reducible apply ackMap_within | with_reducible exact Within.refl | intro _ | split | dsimp only)

theorem ackFrame_within {m : Nat} {s t : State} (h : Within m s t) (a0 : Nat) (a1 : Nat) (hm : 0x20a8483425ba00 ||| m = m) : Within m s (ackFrame a0 a1 t) := by
  unfold ackFrame
  repeat' (first | with_reducible assumption | ((with_reducible refine Mask.sub hm ?_); first | exact rfl | (simp only [pageBit_ser]; exact rfl)) | with_reducible apply setReg_within | with_reducible apply ownAcked_within | with_reducible apply finishFrame_within | with_reducible exact Within.refl | intro _ | split | dsimp only)

theorem takeElem_within_eq {m : Nat} {s t u : State} {ty : Nat} {x : Elem} (e : takeElem ty t = some (x, u)) (h : Within m s t) (hm : 0x80000000000 ||| m = m) : Within m s u := by
  unfold takeElem at e
  split at e
  · cases e
  · cases e
    exact setMac_within h _ (Mask.sub hm rfl)

theorem ackIn_within {m : Nat} {s t : State} (h : Within m s t) (a0 : FrameIn) (hm : 0x20a8483425ba00 ||| m = m) : Within m s (ackIn a0 t) := by
  unfold ackIn
  repeat' (first | with_reducible assumption | ((with_reducible refine Mask.sub hm ?_); first | exact rfl | (simp only [pageBit_ser]; exact rfl)) | with_reducible apply setReg_within | with_reducible apply lookup_within | with_reducible apply ackFrame_within | with_reducible apply malformed_within | with_reducible exact Within.refl | intro _ | split | dsimp only)

theorem ackElem_within {m : Nat} {s t : State} (h : Within m s t) (hm : 0x20a8483425ba00 ||| m = m) : Within m s (ackElem t) := by
  unfold ackElem
  repeat' (first | with_reducible assumption | ((with_reducible refine Mask.sub hm ?_); first | exact rfl | (simp only [pageBit_ser]; exact rfl)) | with_reducible apply setReg_within | with_reducible apply takeElem_within | with_reducible apply ackFrame_within | (with_reducible refine takeElem_within_eq (by assumption) ?_ ?_) | with_reducible apply Within.foldl | with_reducible exact Within.refl | intro _ | split | dsimp only)

theorem execAckReceived_within {m : Nat} {s t u : State} (h : Within m s t) (a0 : BurstId) (hm : 0x20a8c83425ba00 ||| m = m) (e : execAckReceived a0 t = .next u) : Within m s u := by
  unfold execAckReceived at e
  try dsimp only at e
  repeat' split at e
  all_goals (cases e; repeat' (first | with_reducible assumption | ((with_reducible refine Mask.sub hm ?_); first | exact rfl | (simp only [pageBit_ser]; exact rfl)) | with_reducible apply setReg_within | with_reducible apply onFrame_within | with_reducible apply ackIn_within | with_reducible apply ackElem_within | with_reducible exact Within.refl | intro _ | split | dsimp only))

theorem takeMap_within {m : Nat} {s t : State} (h : Within m s t) (a0 : FrameIn) (a1 : Nat) (a2 : List Byte) (hm : 0x20880820202200 ||| m = m) : Within m s (takeMap a0 a1 a2 t) := by
  unfold takeMap
  repeat' (first | with_reducible assumption | ((with_reducible refine Mask.sub hm ?_); first | exact rfl | (simp only [pageBit_ser]; exact rfl)) | with_reducible apply setReg_within | with_reducible apply putMap_within | with_reducible apply sendAck_within | with_reducible apply mirrorDelta_within | with_reducible exact Within.refl | intro _ | split | dsimp only)

theorem tmapFrame_within {m : Nat} {s t : State} (h : Within m s t) (a0 : FrameIn) (hm : 0x28b8082024b200 ||| m = m) : Within m s (tmapFrame a0 t) := by
  unfold tmapFrame
  repeat' (first | with_reducible assumption | ((with_reducible refine Mask.sub hm ?_); first | exact rfl | (simp only [pageBit_ser]; exact rfl)) | with_reducible apply setReg_within | with_reducible apply lookup_within | with_reducible apply malformed_within | with_reducible apply sendAck_within | with_reducible apply refuseUnit_within | with_reducible apply runJob_within | with_reducible apply takeMap_within | with_reducible apply confirmJoin_within | with_reducible apply noteUnit_within | with_reducible apply failUnit_within | (with_reducible refine runJob_within_eq (by assumption) ?_ ?_) | with_reducible exact Within.refl | intro _ | split | dsimp only)

theorem execTmapReceived_within {m : Nat} {s t u : State} (h : Within m s t) (a0 : BurstId) (hm : 0x28b8882024b200 ||| m = m) (e : execTmapReceived a0 t = .next u) : Within m s u := by
  unfold execTmapReceived at e
  try dsimp only at e
  repeat' split at e
  all_goals (cases e; repeat' (first | with_reducible assumption | ((with_reducible refine Mask.sub hm ?_); first | exact rfl | (simp only [pageBit_ser]; exact rfl)) | with_reducible apply setReg_within | with_reducible apply onFrame_within | with_reducible apply tmapFrame_within | with_reducible exact Within.refl | intro _ | split | dsimp only))

theorem sendMap_within {m : Nat} {s t : State} (h : Within m s t) (a0 : Nat) (a1 : List Nat) (hm : 0x20880820202200 ||| m = m) : Within m s (sendMap a0 a1 t) := by
  unfold sendMap
  repeat' (first | with_reducible assumption | ((with_reducible refine Mask.sub hm ?_); first | exact rfl | (simp only [pageBit_ser]; exact rfl)) | with_reducible apply setReg_within | with_reducible apply putMap_within | with_reducible apply addFrame_within | with_reducible apply mirrorDelta_within | with_reducible exact Within.refl | intro _ | split | dsimp only)

theorem execTmapPeriodExpiry_within {m : Nat} {s t u : State} (h : Within m s t) (a0 : CtxIndex) (a1 : List Nat) (hm : 0x20880820202200 ||| m = m) (e : execTmapPeriodExpiry a0 a1 t = .next u) : Within m s u := by
  unfold execTmapPeriodExpiry at e
  try dsimp only at e
  repeat' split at e
  all_goals (cases e; repeat' (first | with_reducible assumption | ((with_reducible refine Mask.sub hm ?_); first | exact rfl | (simp only [pageBit_ser]; exact rfl)) | with_reducible apply setReg_within | with_reducible apply sendMap_within | with_reducible exact Within.refl | intro _ | split | dsimp only))

theorem grantReq_within {m : Nat} {s t : State} (h : Within m s t) (a0 : FrameIn) (hm : 0x2088002000a200 ||| m = m) : Within m s (grantReq a0 t) := by
  unfold grantReq
  repeat' (first | with_reducible assumption | ((with_reducible refine Mask.sub hm ?_); first | exact rfl | (simp only [pageBit_ser]; exact rfl)) | with_reducible apply setReg_within | with_reducible apply lookup_within | with_reducible apply setAssoc_within | with_reducible apply malformed_within | with_reducible exact Within.refl | intro _ | split | dsimp only)

theorem execGrantReq_within {m : Nat} {s t u : State} (h : Within m s t) (a0 : BurstId) (hm : 0x2088802000a200 ||| m = m) (e : execGrantReq a0 t = .next u) : Within m s u := by
  unfold execGrantReq at e
  try dsimp only at e
  repeat' split at e
  all_goals (cases e; repeat' (first | with_reducible assumption | ((with_reducible refine Mask.sub hm ?_); first | exact rfl | (simp only [pageBit_ser]; exact rfl)) | with_reducible apply setReg_within | with_reducible apply onFrame_within | with_reducible apply grantReq_within | with_reducible exact Within.refl | intro _ | split | dsimp only))

theorem floodUnit_within {m : Nat} {s t : State} (h : Within m s t) (a0 : FrameIn) (a1 : Nat) (hm : 0x28b8002805ba28 ||| m = m) : Within m s (floodUnit a0 a1 t) := by
  unfold floodUnit
  repeat' (first | with_reducible assumption | ((with_reducible refine Mask.sub hm ?_); first | exact rfl | (simp only [pageBit_ser]; exact rfl)) | with_reducible apply setReg_within | with_reducible apply lookup_within | with_reducible apply malformed_within | with_reducible apply unitsIn_within | with_reducible apply setRelay_within | with_reducible apply sendAck_within | with_reducible apply count_within | (with_reducible refine unitsIn_within_eq (by assumption) ?_ ?_) | with_reducible exact Within.refl | intro _ | split | dsimp only)

theorem floodCopy_within {m : Nat} {s t : State} (h : Within m s t) (a0 : FrameIn) (hm : 0x28b8002805ba28 ||| m = m) : Within m s (floodCopy a0 t) := by
  unfold floodCopy
  repeat' (first | with_reducible assumption | ((with_reducible refine Mask.sub hm ?_); first | exact rfl | (simp only [pageBit_ser]; exact rfl)) | with_reducible apply setReg_within | with_reducible apply malformed_within | with_reducible apply count_within | with_reducible apply floodUnit_within | with_reducible apply setMac_within | with_reducible exact Within.refl | intro _ | split | dsimp only)

theorem execFloodCopyReceived_within {m : Nat} {s t u : State} (h : Within m s t) (a0 : BurstId) (hm : 0x28b8802805ba28 ||| m = m) (e : execFloodCopyReceived a0 t = .next u) : Within m s u := by
  unfold execFloodCopyReceived at e
  try dsimp only at e
  repeat' split at e
  all_goals (cases e; repeat' (first | with_reducible assumption | ((with_reducible refine Mask.sub hm ?_); first | exact rfl | (simp only [pageBit_ser]; exact rfl)) | with_reducible apply setReg_within | with_reducible apply onFrame_within | with_reducible apply floodCopy_within | with_reducible exact Within.refl | intro _ | split | dsimp only))

theorem execFloodKeyExpiry_within {m : Nat} {s t u : State} (h : Within m s t) (hm : 0x80000000000 ||| m = m) (e : execFloodKeyExpiry t = .next u) : Within m s u := by
  unfold execFloodKeyExpiry at e
  try dsimp only at e
  repeat' split at e
  all_goals (cases e; repeat' (first | with_reducible assumption | ((with_reducible refine Mask.sub hm ?_); first | exact rfl | (simp only [pageBit_ser]; exact rfl)) | with_reducible apply setReg_within | with_reducible apply setMac_within | with_reducible exact Within.refl | intro _ | split | dsimp only))

end Sys2Proof.Machine
end

