-- ==== Sys2Proof/Laws/WithinCipher.lean ====
section
/-! SUPPORT. Sys2Proof/Laws/WithinCipher.lean: the parts of a state that the operations of Machine/Cipher.lean may change. -/
namespace Sys2Proof.Machine

theorem setJobs_within {m : Nat} {s t : State} (h : Within m s t) (a0 : Nat) (a1 : List Job) (hm : 0x100000000000 ||| m = m) : Within m s (setJobs a0 a1 t) := by
  have b44 := Mask.has (i := 44) hm rfl
  unfold setJobs
  repeat' (first | with_reducible assumption | ((with_reducible refine Mask.sub hm ?_); first | exact rfl | (simp only [pageBit_ser]; exact rfl)) | with_reducible apply setReg_within | with_reducible exact Within.refl | ((with_reducible refine Within.upd ?_ (.inl rfl) (.inl rfl) (.inl rfl) (.inl rfl) (.inl rfl) (.inl rfl) (.inl rfl) (.inl rfl) (.inl rfl) (.inl rfl) (.inl rfl) (.inl rfl) (.inl rfl) (.inl rfl) (.inl rfl) (.inl rfl) (.inl rfl) (.inl rfl) (.inl rfl) (.inl rfl) (.inr b44) (.inl rfl) (.inl rfl) (.inl rfl) (.inl rfl) (.inl rfl) (.inl rfl) (.inl rfl) (.inl rfl) (.inl rfl)); first | with_reducible assumption | ((with_reducible refine Mask.sub hm ?_); first | exact rfl | (simp only [pageBit_ser]; exact rfl)) | with_reducible apply setReg_within | with_reducible exact Within.refl | split) | intro _ | split | dsimp only)

theorem submitJob_within {m : Nat} {s t : State} (h : Within m s t) (a0 : Nat) (a1 : Job) (hm : 0x100000000000 ||| m = m) : Within m s (submitJob a0 a1 t) := by
  have b44 := Mask.has (i := 44) hm rfl
  unfold submitJob
  repeat' (first | with_reducible assumption | ((with_reducible refine Mask.sub hm ?_); first | exact rfl | (simp only [pageBit_ser]; exact rfl)) | with_reducible apply setReg_within | with_reducible apply setJobs_within | with_reducible exact Within.refl | ((with_reducible refine Within.upd ?_ (.inl rfl) (.inl rfl) (.inl rfl) (.inl rfl) (.inl rfl) (.inl rfl) (.inl rfl) (.inl rfl) (.inl rfl) (.inl rfl) (.inl rfl) (.inl rfl) (.inl rfl) (.inl rfl) (.inl rfl) (.inl rfl) (.inl rfl) (.inl rfl) (.inl rfl) (.inl rfl) (.inr b44) (.inl rfl) (.inl rfl) (.inl rfl) (.inl rfl) (.inl rfl) (.inl rfl) (.inl rfl) (.inl rfl) (.inl rfl)); first | with_reducible assumption | ((with_reducible refine Mask.sub hm ?_); first | exact rfl | (simp only [pageBit_ser]; exact rfl)) | with_reducible apply setReg_within | with_reducible apply setJobs_within | with_reducible exact Within.refl | split) | intro _ | split | dsimp only)

theorem setHeldJobs_within {m : Nat} {s t : State} (h : Within m s t) (a0 : List Held) (hm : 0x100000040000 ||| m = m) : Within m s (setHeldJobs a0 t) := by
  have b44 := Mask.has (i := 44) hm rfl
  unfold setHeldJobs
  repeat' (first | with_reducible assumption | ((with_reducible refine Mask.sub hm ?_); first | exact rfl | (simp only [pageBit_ser]; exact rfl)) | with_reducible apply setReg_within | with_reducible apply refreshGate_within | with_reducible apply setF_within | with_reducible exact Within.refl | ((with_reducible refine Within.upd ?_ (.inl rfl) (.inl rfl) (.inl rfl) (.inl rfl) (.inl rfl) (.inl rfl) (.inl rfl) (.inl rfl) (.inl rfl) (.inl rfl) (.inl rfl) (.inl rfl) (.inl rfl) (.inl rfl) (.inl rfl) (.inl rfl) (.inl rfl) (.inl rfl) (.inl rfl) (.inl rfl) (.inr b44) (.inl rfl) (.inl rfl) (.inl rfl) (.inl rfl) (.inl rfl) (.inl rfl) (.inl rfl) (.inl rfl) (.inl rfl)); first | with_reducible assumption | ((with_reducible refine Mask.sub hm ?_); first | exact rfl | (simp only [pageBit_ser]; exact rfl)) | with_reducible apply setReg_within | with_reducible apply refreshGate_within | with_reducible apply setF_within | with_reducible exact Within.refl | split) | intro _ | split | dsimp only)

theorem readInputs_within {m : Nat} {s t : State} (h : Within m s t) (a0 : Job) (hm : 0x20000022000000 ||| m = m) : Within m s (readInputs a0 t).2 := by
  unfold readInputs
  repeat' (first | with_reducible assumption | ((with_reducible refine Mask.sub hm ?_); first | exact rfl | (simp only [pageBit_ser]; exact rfl)) | with_reducible apply setReg_within | with_reducible apply touchArea_within | with_reducible apply Within.foldl | with_reducible exact Within.refl | intro _ | split | dsimp only)

theorem readInputs_within_eq {m : Nat} {s t u : State} {a0 : Job} {y0} (e : readInputs a0 t = (y0, u)) (h : Within m s t) (hm : 0x20000022000000 ||| m = m) : Within m s u := by
  have k := readInputs_within h a0 hm
  rw [e] at k
  exact k

theorem openTest_within {m : Nat} {s t : State} (h : Within m s t) (a0 : Job) (hm : 0x20000022000000 ||| m = m) : Within m s (openTest a0 t).2 := by
  unfold openTest
  repeat' (first | with_reducible assumption | ((with_reducible refine Mask.sub hm ?_); first | exact rfl | (simp only [pageBit_ser]; exact rfl)) | with_reducible apply setReg_within | with_reducible apply readInputs_within | (with_reducible refine readInputs_within_eq (by assumption) ?_ ?_) | with_reducible exact Within.refl | intro _ | split | dsimp only)

theorem openTest_within_eq {m : Nat} {s t u : State} {a0 : Job} {y0} (e : openTest a0 t = (y0, u)) (h : Within m s t) (hm : 0x20000022000000 ||| m = m) : Within m s u := by
  have k := openTest_within h a0 hm
  rw [e] at k
  exact k

theorem frameReady_within {m : Nat} {s t : State} (h : Within m s t) (a0 : Frame) (a1 : List Byte) (hm : 0x2088002001a200 ||| m = m) : Within m s (frameReady a0 a1 t) := by
  unfold frameReady
  repeat' (first | with_reducible assumption | ((with_reducible refine Mask.sub hm ?_); first | exact rfl | (simp only [pageBit_ser]; exact rfl)) | with_reducible apply setReg_within | with_reducible apply setCtx_within | with_reducible apply setFrame_within | with_reducible apply count_within | with_reducible exact Within.refl | intro _ | split | dsimp only)

theorem frameFailed_within {m : Nat} {s t : State} (h : Within m s t) (a0 : Frame) (a1 : Nat) (hm : 0x20a8483c25ba28 ||| m = m) : Within m s (frameFailed a0 a1 t) := by
  unfold frameFailed
  repeat' (first | with_reducible assumption | ((with_reducible refine Mask.sub hm ?_); first | exact rfl | (simp only [pageBit_ser]; exact rfl)) | with_reducible apply setReg_within | with_reducible apply finishFrame_within | with_reducible apply sf2Reject_within | with_reducible apply jobRefused_within | with_reducible exact Within.refl | intro _ | split | dsimp only)

theorem endFrameJob_within {m : Nat} {s t : State} (h : Within m s t) (a0 : Job) (a1 : Nat) (a2 : Nat) (a3 : List Byte) (a4 : Nat) (hm : 0x20a8483c25ba28 ||| m = m) : Within m s (endFrameJob a0 a1 a2 a3 a4 t) := by
  unfold endFrameJob
  repeat' (first | with_reducible assumption | ((with_reducible refine Mask.sub hm ?_); first | exact rfl | (simp only [pageBit_ser]; exact rfl)) | with_reducible apply setReg_within | with_reducible apply frameReady_within | with_reducible apply frameFailed_within | with_reducible exact Within.refl | intro _ | split | dsimp only)

theorem endTestJob_within {m : Nat} {s t : State} (h : Within m s t) (a0 : Held) (a1 : Nat) (a2 : List Byte) (hm : 0x20020036040800 ||| m = m) : Within m s (endTestJob a0 a1 a2 t) := by
  unfold endTestJob
  repeat' (first | with_reducible assumption | ((with_reducible refine Mask.sub hm ?_); first | exact rfl | (simp only [pageBit_ser]; exact rfl)) | with_reducible apply setReg_within | with_reducible apply busWrite_within | with_reducible apply complete_within | with_reducible exact Within.refl | intro _ | split | dsimp only)

theorem releaseSlot_within {m : Nat} {s t : State} (h : Within m s t) (a0 : Outstanding) (hm : 0x20a8483425ba00 ||| m = m) : Within m s (releaseSlot a0 t) := by
  unfold releaseSlot
  repeat' (first | with_reducible assumption | ((with_reducible refine Mask.sub hm ?_); first | exact rfl | (simp only [pageBit_ser]; exact rfl)) | with_reducible apply setReg_within | with_reducible apply setPhase_within | with_reducible apply startEnd_within | with_reducible apply endCommands_within | with_reducible apply setAssoc_within | with_reducible apply dropFrames_within | with_reducible apply setMac_within | with_reducible apply finishEnd_within | with_reducible exact Within.refl | intro _ | split | dsimp only)

theorem resumeRelease_within {m : Nat} {s t : State} (h : Within m s t) (hm : 0x20a8483425ba00 ||| m = m) : Within m s (resumeRelease t) := by
  unfold resumeRelease
  repeat' (first | with_reducible assumption | ((with_reducible refine Mask.sub hm ?_); first | exact rfl | (simp only [pageBit_ser]; exact rfl)) | with_reducible apply setReg_within | with_reducible apply releaseSlot_within | with_reducible exact Within.refl | intro _ | split | dsimp only)

theorem endJob_within {m : Nat} {s t : State} (h : Within m s t) (a0 : Held) (a1 : Nat) (a2 : List Byte) (hm : 0x20ba483e25ba28 ||| m = m) : Within m s (endJob a0 a1 a2 t) := by
  unfold endJob
  repeat' (first | with_reducible assumption | ((with_reducible refine Mask.sub hm ?_); first | exact rfl | (simp only [pageBit_ser]; exact rfl)) | with_reducible apply setReg_within | with_reducible apply countJob_within | with_reducible apply setHeldJobs_within | with_reducible apply endTestJob_within | with_reducible apply resumeRelease_within | with_reducible apply endFrameJob_within | with_reducible exact Within.refl | intro _ | split | dsimp only)

theorem endQueued_within {m : Nat} {s t : State} (h : Within m s t) (a0 : Nat) (a1 : Job) (a2 : Nat) (hm : 0x20ba483e25ba28 ||| m = m) : Within m s (endQueued a0 a1 a2 t) := by
  unfold endQueued
  repeat' (first | with_reducible assumption | ((with_reducible refine Mask.sub hm ?_); first | exact rfl | (simp only [pageBit_ser]; exact rfl)) | with_reducible apply setReg_within | with_reducible apply endJob_within | with_reducible exact Within.refl | intro _ | split | dsimp only)

theorem takeJob_within {m : Nat} {s t : State} (h : Within m s t) (a0 : Nat) (hm : 0x20ba483e25ba28 ||| m = m) : Within m s (takeJob a0 t) := by
  unfold takeJob
  repeat' (first | with_reducible assumption | ((with_reducible refine Mask.sub hm ?_); first | exact rfl | (simp only [pageBit_ser]; exact rfl)) | with_reducible apply setReg_within | with_reducible apply endQueued_within | with_reducible apply setJobs_within | with_reducible apply openTest_within | with_reducible apply setPhase_within | with_reducible apply acceptJob_within | with_reducible apply setHeldJobs_within | (with_reducible refine openTest_within_eq (by assumption) ?_ ?_) | (with_reducible refine acceptJob_within_eq (by assumption) ?_ ?_) | with_reducible exact Within.refl | intro _ | split | dsimp only)

theorem execCipherJobTaken_within {m : Nat} {s t u : State} (h : Within m s t) (a0 : Fin 18) (hm : 0x20ba483e25ba28 ||| m = m) (e : execCipherJobTaken a0 t = .next u) : Within m s u := by
  unfold execCipherJobTaken at e
  try dsimp only at e
  repeat' split at e
  all_goals (cases e; repeat' (first | with_reducible assumption | ((with_reducible refine Mask.sub hm ?_); first | exact rfl | (simp only [pageBit_ser]; exact rfl)) | with_reducible apply setReg_within | with_reducible apply takeJob_within | with_reducible exact Within.refl | intro _ | split | dsimp only))

theorem completeJob_within {m : Nat} {s t : State} (h : Within m s t) (a0 : Nat) (a1 : Nat) (a2 : Bool) (hm : 0x28ba483e25ba28 ||| m = m) : Within m s (completeJob a0 a1 a2 t) := by
  unfold completeJob
  repeat' (first | with_reducible assumption | ((with_reducible refine Mask.sub hm ?_); first | exact rfl | (simp only [pageBit_ser]; exact rfl)) | with_reducible apply setReg_within | with_reducible apply endJob_within | with_reducible apply jobResult_within | (with_reducible refine jobResult_within_eq (by assumption) ?_ ?_) | with_reducible exact Within.refl | intro _ | split | dsimp only)

theorem execCipherJobComplete_within {m : Nat} {s t u : State} (h : Within m s t) (a0 : Fin 2) (a1 : Fin 8) (a2 : Bool) (hm : 0x28ba483e25ba28 ||| m = m) (e : execCipherJobComplete a0 a1 a2 t = .next u) : Within m s u := by
  unfold execCipherJobComplete at e
  try dsimp only at e
  repeat' split at e
  all_goals (cases e; repeat' (first | with_reducible assumption | ((with_reducible refine Mask.sub hm ?_); first | exact rfl | (simp only [pageBit_ser]; exact rfl)) | with_reducible apply setReg_within | with_reducible apply completeJob_within | with_reducible exact Within.refl | intro _ | split | dsimp only))

theorem abandonJob_within {m : Nat} {s t : State} (h : Within m s t) (a0 : Nat) (a1 : Nat) (hm : 0x20ba483e25ba28 ||| m = m) : Within m s (abandonJob a0 a1 t) := by
  unfold abandonJob
  repeat' (first | with_reducible assumption | ((with_reducible refine Mask.sub hm ?_); first | exact rfl | (simp only [pageBit_ser]; exact rfl)) | with_reducible apply setReg_within | with_reducible apply endQueued_within | with_reducible apply setJobs_within | with_reducible apply endJob_within | with_reducible exact Within.refl | intro _ | split | dsimp only)

theorem execCipherJobAbandon_within {m : Nat} {s t u : State} (h : Within m s t) (a0 : Fin 18) (a1 : Word) (hm : 0x20ba483e25ba28 ||| m = m) (e : execCipherJobAbandon a0 a1 t = .next u) : Within m s u := by
  unfold execCipherJobAbandon at e
  try dsimp only at e
  repeat' split at e
  all_goals (cases e; repeat' (first | with_reducible assumption | ((with_reducible refine Mask.sub hm ?_); first | exact rfl | (simp only [pageBit_ser]; exact rfl)) | with_reducible apply setReg_within | with_reducible apply abandonJob_within | with_reducible exact Within.refl | intro _ | split | dsimp only))

theorem execReserveWaitTimeout_within {m : Nat} {s t u : State} (h : Within m s t) (a0 : Fin 2) (a1 : Fin 8) (hm : 0x20ba483e25ba28 ||| m = m) (e : execReserveWaitTimeout a0 a1 t = .next u) : Within m s u := by
  unfold execReserveWaitTimeout at e
  try dsimp only at e
  repeat' split at e
  all_goals (cases e; repeat' (first | with_reducible assumption | ((with_reducible refine Mask.sub hm ?_); first | exact rfl | (simp only [pageBit_ser]; exact rfl)) | with_reducible apply setReg_within | with_reducible apply endJob_within | with_reducible exact Within.refl | intro _ | split | dsimp only))

theorem cipFault_within {m : Nat} {s t : State} (h : Within m s t) (a0 : Nat) (hm : 0x40000 ||| m = m) : Within m s (cipFault a0 t) := by
  unfold cipFault
  repeat' (first | with_reducible assumption | ((with_reducible refine Mask.sub hm ?_); first | exact rfl | (simp only [pageBit_ser]; exact rfl)) | with_reducible apply setReg_within | with_reducible apply setF_within | with_reducible apply setFault_within | with_reducible exact Within.refl | intro _ | split | dsimp only)

theorem pipeOut_within {m : Nat} {s t : State} (h : Within m s t) (a0 : Nat) (a1 : Nat) (hm : 0x20ba483e25ba28 ||| m = m) : Within m s (pipeOut a0 a1 t) := by
  have b44 := Mask.has (i := 44) hm rfl
  unfold pipeOut
  repeat' (first | with_reducible assumption | ((with_reducible refine Mask.sub hm ?_); first | exact rfl | (simp only [pageBit_ser]; exact rfl)) | with_reducible apply setReg_within | with_reducible apply setB_within | with_reducible apply raise_within | with_reducible apply cipFault_within | with_reducible apply refreshGate_within | with_reducible apply endJob_within | with_reducible apply Within.foldl | with_reducible exact Within.refl | ((with_reducible refine Within.upd ?_ (.inl rfl) (.inl rfl) (.inl rfl) (.inl rfl) (.inl rfl) (.inl rfl) (.inl rfl) (.inl rfl) (.inl rfl) (.inl rfl) (.inl rfl) (.inl rfl) (.inl rfl) (.inl rfl) (.inl rfl) (.inl rfl) (.inl rfl) (.inl rfl) (.inl rfl) (.inl rfl) (.inr b44) (.inl rfl) (.inl rfl) (.inl rfl) (.inl rfl) (.inl rfl) (.inl rfl) (.inl rfl) (.inl rfl) (.inl rfl)); first | with_reducible assumption | ((with_reducible refine Mask.sub hm ?_); first | exact rfl | (simp only [pageBit_ser]; exact rfl)) | with_reducible apply setReg_within | with_reducible apply setB_within | with_reducible apply raise_within | with_reducible apply cipFault_within | with_reducible apply refreshGate_within | with_reducible apply endJob_within | with_reducible apply Within.foldl | with_reducible exact Within.refl | split) | intro _ | split | dsimp only)

theorem noteParity_within {m : Nat} {s t : State} (h : Within m s t) (a0 : Nat) (hm : 0x100000000000 ||| m = m) : Within m s (noteParity a0 t) := by
  have b44 := Mask.has (i := 44) hm rfl
  unfold noteParity
  repeat' (first | with_reducible assumption | ((with_reducible refine Mask.sub hm ?_); first | exact rfl | (simp only [pageBit_ser]; exact rfl)) | with_reducible apply setReg_within | with_reducible exact Within.refl | ((with_reducible refine Within.upd ?_ (.inl rfl) (.inl rfl) (.inl rfl) (.inl rfl) (.inl rfl) (.inl rfl) (.inl rfl) (.inl rfl) (.inl rfl) (.inl rfl) (.inl rfl) (.inl rfl) (.inl rfl) (.inl rfl) (.inl rfl) (.inl rfl) (.inl rfl) (.inl rfl) (.inl rfl) (.inl rfl) (.inr b44) (.inl rfl) (.inl rfl) (.inl rfl) (.inl rfl) (.inl rfl) (.inl rfl) (.inl rfl) (.inl rfl) (.inl rfl)); first | with_reducible assumption | ((with_reducible refine Mask.sub hm ?_); first | exact rfl | (simp only [pageBit_ser]; exact rfl)) | with_reducible apply setReg_within | with_reducible exact Within.refl | split) | intro _ | split | dsimp only)

theorem failHeld_within {m : Nat} {s t : State} (h : Within m s t) (a0 : Nat) (a1 : Nat) (hm : 0x20ba483e25ba28 ||| m = m) : Within m s (failHeld a0 a1 t) := by
  unfold failHeld
  repeat' (first | with_reducible assumption | ((with_reducible refine Mask.sub hm ?_); first | exact rfl | (simp only [pageBit_ser]; exact rfl)) | with_reducible apply setReg_within | with_reducible apply endJob_within | with_reducible exact Within.refl | intro _ | split | dsimp only)

theorem parityError_within {m : Nat} {s t : State} (h : Within m s t) (a0 : Nat) (a1 : Nat) (hm : 0x20ba483e25ba28 ||| m = m) : Within m s (parityError a0 a1 t) := by
  unfold parityError
  repeat' (first | with_reducible assumption | ((with_reducible refine Mask.sub hm ?_); first | exact rfl | (simp only [pageBit_ser]; exact rfl)) | with_reducible apply setReg_within | with_reducible apply failHeld_within | with_reducible apply diagReport_within | with_reducible apply raise_within | with_reducible apply noteParity_within | with_reducible apply pipeOut_within | with_reducible exact Within.refl | intro _ | split | dsimp only)

theorem execCipherParityError_within {m : Nat} {s t u : State} (h : Within m s t) (a0 : Fin 2) (a1 : Fin 8) (hm : 0x20ba483e25ba28 ||| m = m) (e : execCipherParityError a0 a1 t = .next u) : Within m s u := by
  unfold execCipherParityError at e
  try dsimp only at e
  repeat' split at e
  all_goals (cases e; repeat' (first | with_reducible assumption | ((with_reducible refine Mask.sub hm ?_); first | exact rfl | (simp only [pageBit_ser]; exact rfl)) | with_reducible apply setReg_within | with_reducible apply parityError_within | with_reducible exact Within.refl | intro _ | split | dsimp only))

theorem execDrbgHealthFail_within {m : Nat} {s t u : State} (h : Within m s t) (hm : 0x40000 ||| m = m) (e : execDrbgHealthFail t = .next u) : Within m s u := by
  unfold execDrbgHealthFail at e
  try dsimp only at e
  repeat' split at e
  all_goals (cases e; repeat' (first | with_reducible assumption | ((with_reducible refine Mask.sub hm ?_); first | exact rfl | (simp only [pageBit_ser]; exact rfl)) | with_reducible apply setReg_within | with_reducible apply setB_within | with_reducible apply cipFault_within | with_reducible exact Within.refl | intro _ | split | dsimp only))

theorem runTestJob_within {m : Nat} {s t : State} (h : Within m s t) (a0 : Outstanding) (hm : 0x20100036040800 ||| m = m) : Within m s (runTestJob a0 t) := by
  unfold runTestJob
  repeat' (first | with_reducible assumption | ((with_reducible refine Mask.sub hm ?_); first | exact rfl | (simp only [pageBit_ser]; exact rfl)) | with_reducible apply setReg_within | with_reducible apply touchArea_within | with_reducible apply done_within | with_reducible apply submitJob_within | with_reducible exact Within.refl | intro _ | split | dsimp only)

theorem execTestJob_within {m : Nat} {s t u : State} (h : Within m s t) (a0 : CmdSrc) (hm : 0x20100036040800 ||| m = m) (e : execTestJob a0 t = .next u) : Within m s u := by
  unfold execTestJob at e
  try dsimp only at e
  repeat' split at e
  all_goals (cases e; repeat' (first | with_reducible assumption | ((with_reducible refine Mask.sub hm ?_); first | exact rfl | (simp only [pageBit_ser]; exact rfl)) | with_reducible apply setReg_within | with_reducible apply issue_within | with_reducible apply runTestJob_within | with_reducible exact Within.refl | intro _ | split | dsimp only))

theorem abortTestJob_within {m : Nat} {s t : State} (h : Within m s t) (a0 : Outstanding) (hm : 0x20ba483e25ba28 ||| m = m) : Within m s (abortTestJob a0 t) := by
  unfold abortTestJob
  repeat' (first | with_reducible assumption | ((with_reducible refine Mask.sub hm ?_); first | exact rfl | (simp only [pageBit_ser]; exact rfl)) | with_reducible apply setReg_within | with_reducible apply done_within | with_reducible apply setJobs_within | with_reducible apply endJob_within | with_reducible apply complete_within | with_reducible exact Within.refl | intro _ | split | dsimp only)

theorem execSelfTest_within {m : Nat} {s t u : State} (h : Within m s t) (a0 : CmdSrc) (hm : 0x20000034040800 ||| m = m) (e : execSelfTest a0 t = .next u) : Within m s u := by
  unfold execSelfTest at e
  try dsimp only at e
  repeat' split at e
  all_goals (cases e; repeat' (first | with_reducible assumption | ((with_reducible refine Mask.sub hm ?_); first | exact rfl | (simp only [pageBit_ser]; exact rfl)) | with_reducible apply setReg_within | with_reducible apply issue_within | with_reducible exact Within.refl | intro _ | split | dsimp only))

theorem finishSelfTest_within {m : Nat} {s t : State} (h : Within m s t) (a0 : Option (Fin 2)) (hm : 0x20ba483e25ba28 ||| m = m) : Within m s (finishSelfTest a0 t) := by
  unfold finishSelfTest
  repeat' (first | with_reducible assumption | ((with_reducible refine Mask.sub hm ?_); first | exact rfl | (simp only [pageBit_ser]; exact rfl)) | with_reducible apply setReg_within | with_reducible apply done_within | with_reducible apply complete_within | with_reducible apply raise_within | with_reducible apply pipeOut_within | with_reducible exact Within.refl | intro _ | split | dsimp only)

theorem zeroTestKey_within {m : Nat} {s t : State} (h : Within m s t) (hm : 0x100000040000 ||| m = m) : Within m s (zeroTestKey t) := by
  have b44 := Mask.has (i := 44) hm rfl
  unfold zeroTestKey
  repeat' (first | with_reducible assumption | ((with_reducible refine Mask.sub hm ?_); first | exact rfl | (simp only [pageBit_ser]; exact rfl)) | with_reducible apply setReg_within | with_reducible apply resetOffsets_within | with_reducible apply setB_within | with_reducible exact Within.refl | ((with_reducible refine Within.upd ?_ (.inl rfl) (.inl rfl) (.inl rfl) (.inl rfl) (.inl rfl) (.inl rfl) (.inl rfl) (.inl rfl) (.inl rfl) (.inl rfl) (.inl rfl) (.inl rfl) (.inl rfl) (.inl rfl) (.inl rfl) (.inl rfl) (.inl rfl) (.inl rfl) (.inl rfl) (.inl rfl) (.inr b44) (.inl rfl) (.inl rfl) (.inl rfl) (.inl rfl) (.inl rfl) (.inl rfl) (.inl rfl) (.inl rfl) (.inl rfl)); first | with_reducible assumption | ((with_reducible refine Mask.sub hm ?_); first | exact rfl | (simp only [pageBit_ser]; exact rfl)) | with_reducible apply setReg_within | with_reducible apply resetOffsets_within | with_reducible apply setB_within | with_reducible exact Within.refl | split) | intro _ | split | dsimp only)

theorem execZeroTestKey_within {m : Nat} {s t u : State} (h : Within m s t) (a0 : CmdSrc) (hm : 0x20100034040800 ||| m = m) (e : execZeroTestKey a0 t = .next u) : Within m s u := by
  unfold execZeroTestKey at e
  try dsimp only at e
  repeat' split at e
  all_goals (cases e; repeat' (first | with_reducible assumption | ((with_reducible refine Mask.sub hm ?_); first | exact rfl | (simp only [pageBit_ser]; exact rfl)) | with_reducible apply setReg_within | with_reducible apply issue_within | with_reducible apply done_within | with_reducible apply zeroTestKey_within | with_reducible exact Within.refl | intro _ | split | dsimp only))

theorem execCipTestCtlWrite_within {m : Nat} {s t u : State} (h : Within m s t) (a0 : Word) (hm : 0x20100028040020 ||| m = m) (e : execCipTestCtlWrite a0 t = .next u) : Within m s u := by
  unfold execCipTestCtlWrite at e
  try dsimp only at e
  repeat' split at e
  all_goals (cases e; repeat' (first | with_reducible assumption | ((with_reducible refine Mask.sub hm ?_); first | exact rfl | (simp only [pageBit_ser]; exact rfl)) | with_reducible apply setReg_within | with_reducible apply writeFields_within | with_reducible apply zeroTestKey_within | with_reducible exact Within.refl | intro _ | split | dsimp only))

theorem execCipTestKeyWrite_within {m : Nat} {s t u : State} (h : Within m s t) (a0 : Fin 8) (a1 : Word) (hm : 0x100000040000 ||| m = m) (e : execCipTestKeyWrite a0 a1 t = .next u) : Within m s u := by
  have b44 := Mask.has (i := 44) hm rfl
  unfold execCipTestKeyWrite at e
  try dsimp only at e
  repeat' split at e
  all_goals (cases e; repeat' (first | with_reducible assumption | ((with_reducible refine Mask.sub hm ?_); first | exact rfl | (simp only [pageBit_ser]; exact rfl)) | with_reducible apply setReg_within | with_reducible apply setI_within | with_reducible apply setB_within | with_reducible exact Within.refl | ((with_reducible refine Within.upd ?_ (.inl rfl) (.inl rfl) (.inl rfl) (.inl rfl) (.inl rfl) (.inl rfl) (.inl rfl) (.inl rfl) (.inl rfl) (.inl rfl) (.inl rfl) (.inl rfl) (.inl rfl) (.inl rfl) (.inl rfl) (.inl rfl) (.inl rfl) (.inl rfl) (.inl rfl) (.inl rfl) (.inr b44) (.inl rfl) (.inl rfl) (.inl rfl) (.inl rfl) (.inl rfl) (.inl rfl) (.inl rfl) (.inl rfl) (.inl rfl)); first | with_reducible assumption | ((with_reducible refine Mask.sub hm ?_); first | exact rfl | (simp only [pageBit_ser]; exact rfl)) | with_reducible apply setReg_within | with_reducible apply setI_within | with_reducible apply setB_within | with_reducible exact Within.refl | split) | intro _ | split | dsimp only))

theorem cipBlkReset_within {m : Nat} {s t : State} (h : Within m s t) (hm : 0x20ba483e25ba28 ||| m = m) : Within m s (cipBlkReset t) := by
  have b44 := Mask.has (i := 44) hm rfl
  unfold cipBlkReset
  repeat' (first | with_reducible assumption | ((with_reducible refine Mask.sub hm ?_); first | exact rfl | (simp only [pageBit_ser]; exact rfl)) | with_reducible apply setReg_within | with_reducible apply setJobs_within | with_reducible apply complete_within | with_reducible apply endJob_within | with_reducible apply zeroTestKey_within | with_reducible apply resetOffsets_within | with_reducible apply Within.foldl | with_reducible exact Within.refl | ((with_reducible refine Within.upd ?_ (.inl rfl) (.inl rfl) (.inl rfl) (.inl rfl) (.inl rfl) (.inl rfl) (.inl rfl) (.inl rfl) (.inl rfl) (.inl rfl) (.inl rfl) (.inl rfl) (.inl rfl) (.inl rfl) (.inl rfl) (.inl rfl) (.inl rfl) (.inl rfl) (.inl rfl) (.inl rfl) (.inr b44) (.inl rfl) (.inl rfl) (.inl rfl) (.inl rfl) (.inl rfl) (.inl rfl) (.inl rfl) (.inl rfl) (.inl rfl)); first | with_reducible assumption | ((with_reducible refine Mask.sub hm ?_); first | exact rfl | (simp only [pageBit_ser]; exact rfl)) | with_reducible apply setReg_within | with_reducible apply setJobs_within | with_reducible apply complete_within | with_reducible apply endJob_within | with_reducible apply zeroTestKey_within | with_reducible apply resetOffsets_within | with_reducible apply Within.foldl | with_reducible exact Within.refl | split) | intro _ | split | dsimp only)

theorem execCipBlkReset_within {m : Nat} {s t u : State} (h : Within m s t) (hm : 0x20ba483e25ba28 ||| m = m) (e : execCipBlkReset t = .next u) : Within m s u := by
  unfold execCipBlkReset at e
  try dsimp only at e
  repeat' split at e
  all_goals (cases e; repeat' (first | with_reducible assumption | ((with_reducible refine Mask.sub hm ?_); first | exact rfl | (simp only [pageBit_ser]; exact rfl)) | with_reducible apply setReg_within | with_reducible apply cipBlkReset_within | with_reducible exact Within.refl | intro _ | split | dsimp only))

end Sys2Proof.Machine
end

