-- ==== Sys2Proof/Laws/WithinAsc.lean ====
section
/-! SUPPORT. Sys2Proof/Laws/WithinAsc.lean: the parts of a state that the operations of Machine/Asc.lean may change. -/
namespace Sys2Proof.Machine

theorem setResult_within {m : Nat} {s t : State} (h : Within m s t) (a0 : Bool) (a1 : Nat) (hm : 0x8000 ||| m = m) : Within m s (setResult a0 a1 t) := by
  unfold setResult
  repeat' (first | with_reducible assumption | ((with_reducible refine Mask.sub hm ?_); first | exact rfl | (simp only [pageBit_ser]; exact rfl)) | with_reducible apply setReg_within | with_reducible apply setB_within | with_reducible apply setF_within | with_reducible exact Within.refl | intro _ | split | dsimp only)

theorem runProvision_within {m : Nat} {s t : State} (h : Within m s t) (a0 : Outstanding) (hm : 0x20080036008800 ||| m = m) : Within m s (runProvision a0 t) := by
  unfold runProvision
  repeat' (first | with_reducible assumption | ((with_reducible refine Mask.sub hm ?_); first | exact rfl | (simp only [pageBit_ser]; exact rfl)) | with_reducible apply setReg_within | with_reducible apply touchArea_within | with_reducible apply done_within | with_reducible apply setResult_within | with_reducible apply setParked_within | with_reducible exact Within.refl | intro _ | split | dsimp only)

theorem execProvision_within {m : Nat} {s t u : State} (h : Within m s t) (a0 : CmdSrc) (hm : 0x20080036008800 ||| m = m) (e : execProvision a0 t = .next u) : Within m s u := by
  unfold execProvision at e
  try dsimp only at e
  repeat' split at e
  all_goals (cases e; repeat' (first | with_reducible assumption | ((with_reducible refine Mask.sub hm ?_); first | exact rfl | (simp only [pageBit_ser]; exact rfl)) | with_reducible apply setReg_within | with_reducible apply issue_within | with_reducible apply runProvision_within | with_reducible exact Within.refl | intro _ | split | dsimp only))

theorem runReadCtx_within {m : Nat} {s t : State} (h : Within m s t) (a0 : Outstanding) (hm : 0x20020036008800 ||| m = m) : Within m s (runReadCtx a0 t) := by
  unfold runReadCtx
  repeat' (first | with_reducible assumption | ((with_reducible refine Mask.sub hm ?_); first | exact rfl | (simp only [pageBit_ser]; exact rfl)) | with_reducible apply setReg_within | with_reducible apply done_within | with_reducible apply busWrite_within | with_reducible exact Within.refl | intro _ | split | dsimp only)

theorem execReadCtx_within {m : Nat} {s t u : State} (h : Within m s t) (a0 : CmdSrc) (hm : 0x20020036008800 ||| m = m) (e : execReadCtx a0 t = .next u) : Within m s u := by
  unfold execReadCtx at e
  try dsimp only at e
  repeat' split at e
  all_goals (cases e; repeat' (first | with_reducible assumption | ((with_reducible refine Mask.sub hm ?_); first | exact rfl | (simp only [pageBit_ser]; exact rfl)) | with_reducible apply setReg_within | with_reducible apply issue_within | with_reducible apply runReadCtx_within | with_reducible exact Within.refl | intro _ | split | dsimp only))

theorem runFind_within {m : Nat} {s t : State} (h : Within m s t) (a0 : Outstanding) (hm : 0x20000034008800 ||| m = m) : Within m s (runFind a0 t) := by
  unfold runFind
  repeat' (first | with_reducible assumption | ((with_reducible refine Mask.sub hm ?_); first | exact rfl | (simp only [pageBit_ser]; exact rfl)) | with_reducible apply setReg_within | with_reducible apply done_within | with_reducible apply setResult_within | with_reducible exact Within.refl | intro _ | split | dsimp only)

theorem execFind_within {m : Nat} {s t u : State} (h : Within m s t) (a0 : CmdSrc) (hm : 0x20000034008800 ||| m = m) (e : execFind a0 t = .next u) : Within m s u := by
  unfold execFind at e
  try dsimp only at e
  repeat' split at e
  all_goals (cases e; repeat' (first | with_reducible assumption | ((with_reducible refine Mask.sub hm ?_); first | exact rfl | (simp only [pageBit_ser]; exact rfl)) | with_reducible apply setReg_within | with_reducible apply issue_within | with_reducible apply runFind_within | with_reducible exact Within.refl | intro _ | split | dsimp only))

theorem runRelease_within {m : Nat} {s t : State} (h : Within m s t) (a0 : Outstanding) (hm : 0x20a8483425ba00 ||| m = m) : Within m s (runRelease a0 t) := by
  unfold runRelease
  repeat' (first | with_reducible assumption | ((with_reducible refine Mask.sub hm ?_); first | exact rfl | (simp only [pageBit_ser]; exact rfl)) | with_reducible apply setReg_within | with_reducible apply done_within | with_reducible apply resumeRelease_within | with_reducible exact Within.refl | intro _ | split | dsimp only)

theorem execRelease_within {m : Nat} {s t u : State} (h : Within m s t) (a0 : CmdSrc) (hm : 0x20a8483425ba00 ||| m = m) (e : execRelease a0 t = .next u) : Within m s u := by
  unfold execRelease at e
  try dsimp only at e
  repeat' split at e
  all_goals (cases e; repeat' (first | with_reducible assumption | ((with_reducible refine Mask.sub hm ?_); first | exact rfl | (simp only [pageBit_ser]; exact rfl)) | with_reducible apply setReg_within | with_reducible apply issue_within | with_reducible apply runRelease_within | with_reducible exact Within.refl | intro _ | split | dsimp only))

theorem execPark_within {m : Nat} {s t u : State} (h : Within m s t) (a0 : CmdSrc) (hm : 0x20a8483425ba00 ||| m = m) (e : execPark a0 t = .next u) : Within m s u := by
  unfold execPark at e
  try dsimp only at e
  repeat' split at e
  all_goals (cases e; repeat' (first | with_reducible assumption | ((with_reducible refine Mask.sub hm ?_); first | exact rfl | (simp only [pageBit_ser]; exact rfl)) | with_reducible apply setReg_within | with_reducible apply issue_within | with_reducible apply runRelease_within | with_reducible exact Within.refl | intro _ | split | dsimp only))

theorem runRekey_within {m : Nat} {s t : State} (h : Within m s t) (a0 : Outstanding) (hm : 0x2898003404aa00 ||| m = m) : Within m s (runRekey a0 t) := by
  unfold runRekey
  repeat' (first | with_reducible assumption | ((with_reducible refine Mask.sub hm ?_); first | exact rfl | (simp only [pageBit_ser]; exact rfl)) | with_reducible apply setReg_within | with_reducible apply done_within | with_reducible apply startRekey_within | with_reducible exact Within.refl | intro _ | split | dsimp only)

theorem execRekey_within {m : Nat} {s t u : State} (h : Within m s t) (a0 : CmdSrc) (hm : 0x2898003404aa00 ||| m = m) (e : execRekey a0 t = .next u) : Within m s u := by
  unfold execRekey at e
  try dsimp only at e
  repeat' split at e
  all_goals (cases e; repeat' (first | with_reducible assumption | ((with_reducible refine Mask.sub hm ?_); first | exact rfl | (simp only [pageBit_ser]; exact rfl)) | with_reducible apply setReg_within | with_reducible apply issue_within | with_reducible apply runRekey_within | with_reducible exact Within.refl | intro _ | split | dsimp only))

theorem rekeySent_within {m : Nat} {s t : State} (h : Within m s t) (a0 : Nat) (hm : 0x2088003400aa00 ||| m = m) : Within m s (rekeySent a0 t) := by
  unfold rekeySent
  repeat' (first | with_reducible assumption | ((with_reducible refine Mask.sub hm ?_); first | exact rfl | (simp only [pageBit_ser]; exact rfl)) | with_reducible apply setReg_within | with_reducible apply setAssoc_within | with_reducible apply done_within | with_reducible exact Within.refl | intro _ | split | dsimp only)

theorem runDeleteParked_within {m : Nat} {s t : State} (h : Within m s t) (a0 : Outstanding) (hm : 0x20080034008800 ||| m = m) : Within m s (runDeleteParked a0 t) := by
  unfold runDeleteParked
  repeat' (first | with_reducible assumption | ((with_reducible refine Mask.sub hm ?_); first | exact rfl | (simp only [pageBit_ser]; exact rfl)) | with_reducible apply setReg_within | with_reducible apply done_within | with_reducible apply setParked_within | with_reducible exact Within.refl | intro _ | split | dsimp only)

theorem execDeleteParked_within {m : Nat} {s t u : State} (h : Within m s t) (a0 : CmdSrc) (hm : 0x20080034008800 ||| m = m) (e : execDeleteParked a0 t = .next u) : Within m s u := by
  unfold execDeleteParked at e
  try dsimp only at e
  repeat' split at e
  all_goals (cases e; repeat' (first | with_reducible assumption | ((with_reducible refine Mask.sub hm ?_); first | exact rfl | (simp only [pageBit_ser]; exact rfl)) | with_reducible apply setReg_within | with_reducible apply issue_within | with_reducible apply runDeleteParked_within | with_reducible exact Within.refl | intro _ | split | dsimp only))

theorem runSetRecord_within {m : Nat} {s t : State} (h : Within m s t) (a0 : Outstanding) (hm : 0x2088003400aa00 ||| m = m) : Within m s (runSetRecord a0 t) := by
  unfold runSetRecord
  repeat' (first | with_reducible assumption | ((with_reducible refine Mask.sub hm ?_); first | exact rfl | (simp only [pageBit_ser]; exact rfl)) | with_reducible apply setReg_within | with_reducible apply done_within | with_reducible apply setParked_within | with_reducible apply setCtx_within | with_reducible exact Within.refl | intro _ | split | dsimp only)

theorem execSetRecord_within {m : Nat} {s t u : State} (h : Within m s t) (a0 : CmdSrc) (hm : 0x2088003400aa00 ||| m = m) (e : execSetRecord a0 t = .next u) : Within m s u := by
  unfold execSetRecord at e
  try dsimp only at e
  repeat' split at e
  all_goals (cases e; repeat' (first | with_reducible assumption | ((with_reducible refine Mask.sub hm ?_); first | exact rfl | (simp only [pageBit_ser]; exact rfl)) | with_reducible apply setReg_within | with_reducible apply issue_within | with_reducible apply runSetRecord_within | with_reducible exact Within.refl | intro _ | split | dsimp only))

theorem rotateBkey_within {m : Nat} {s t : State} (h : Within m s t) (hm : 0x8080000048000 ||| m = m) : Within m s (rotateBkey t) := by
  unfold rotateBkey
  repeat' (first | with_reducible assumption | ((with_reducible refine Mask.sub hm ?_); first | exact rfl | (simp only [pageBit_ser]; exact rfl)) | with_reducible apply setReg_within | with_reducible apply randBytes_within | with_reducible apply setMac_within | with_reducible apply setB_within | with_reducible apply sendBkey_within | (with_reducible refine randBytes_within_eq (by assumption) ?_ ?_) | with_reducible apply Within.foldl | with_reducible exact Within.refl | intro _ | split | dsimp only)

theorem runRotateBkey_within {m : Nat} {s t : State} (h : Within m s t) (a0 : Outstanding) (hm : 0x28080034048800 ||| m = m) : Within m s (runRotateBkey a0 t) := by
  unfold runRotateBkey
  repeat' (first | with_reducible assumption | ((with_reducible refine Mask.sub hm ?_); first | exact rfl | (simp only [pageBit_ser]; exact rfl)) | with_reducible apply setReg_within | with_reducible apply done_within | with_reducible apply setResult_within | with_reducible apply rotateBkey_within | with_reducible exact Within.refl | intro _ | split | dsimp only)

theorem execRotateBkey_within {m : Nat} {s t u : State} (h : Within m s t) (a0 : CmdSrc) (hm : 0x28080034048800 ||| m = m) (e : execRotateBkey a0 t = .next u) : Within m s u := by
  unfold execRotateBkey at e
  try dsimp only at e
  repeat' split at e
  all_goals (cases e; repeat' (first | with_reducible assumption | ((with_reducible refine Mask.sub hm ?_); first | exact rfl | (simp only [pageBit_ser]; exact rfl)) | with_reducible apply setReg_within | with_reducible apply issue_within | with_reducible apply runRotateBkey_within | with_reducible exact Within.refl | intro _ | split | dsimp only))

theorem execAscBlkReset_within {m : Nat} {s t u : State} (h : Within m s t) (hm : 0x20000034008800 ||| m = m) (e : execAscBlkReset t = .next u) : Within m s u := by
  unfold execAscBlkReset at e
  try dsimp only at e
  repeat' split at e
  all_goals (cases e; repeat' (first | with_reducible assumption | ((with_reducible refine Mask.sub hm ?_); first | exact rfl | (simp only [pageBit_ser]; exact rfl)) | with_reducible apply setReg_within | with_reducible apply blkReset_within | with_reducible exact Within.refl | intro _ | split | dsimp only))

end Sys2Proof.Machine
end

