-- ==== Sys2Proof/Laws/WithinDown.lean ====
section
/-! SUPPORT. Sys2Proof/Laws/WithinDown.lean: the parts of a state that the operations of Machine/Down.lean may change. -/
namespace Sys2Proof.Machine

theorem ringError_within {m : Nat} {s t : State} (h : Within m s t) (a0 : Nat) (hm : 0x20000028000820 ||| m = m) : Within m s (ringError a0 t) := by
  unfold ringError
  repeat' (first | with_reducible assumption | ((with_reducible refine Mask.sub hm ?_); first | exact rfl | (simp only [pageBit_ser]; exact rfl)) | with_reducible apply setReg_within | with_reducible apply logPage_within | with_reducible apply raise_within | with_reducible apply setF_within | with_reducible exact Within.refl | intro _ | split | dsimp only)

theorem sf2Discard_within {m : Nat} {s t : State} (h : Within m s t) (a0 : Frame) (a1 : Nat) (hm : 0x20280028000028 ||| m = m) : Within m s (sf2Discard a0 a1 t) := by
  unfold sf2Discard
  repeat' (first | with_reducible assumption | ((with_reducible refine Mask.sub hm ?_); first | exact rfl | (simp only [pageBit_ser]; exact rfl)) | with_reducible apply setReg_within | with_reducible apply finishFrame_within | with_reducible apply sf2Reject_within | with_reducible exact Within.refl | intro _ | split | dsimp only)

theorem submitFrame_within {m : Nat} {s t : State} (h : Within m s t) (a0 : Frame) (hm : 0x2098002000a200 ||| m = m) : Within m s (submitFrame a0 t) := by
  unfold submitFrame
  repeat' (first | with_reducible assumption | ((with_reducible refine Mask.sub hm ?_); first | exact rfl | (simp only [pageBit_ser]; exact rfl)) | with_reducible apply setReg_within | with_reducible apply nextFseq_within | with_reducible apply submitJob_within | with_reducible apply setFrame_within | (with_reducible refine nextFseq_within_eq (by assumption) ?_ ?_) | with_reducible exact Within.refl | intro _ | split | dsimp only)

theorem storeFrame_within {m : Nat} {s t : State} (h : Within m s t) (a0 : Option Nat) (a1 : Option Nat) (a2 : DlDesc) (a3 : List Byte) (hm : 0x20b8002800a228 ||| m = m) : Within m s (storeFrame a0 a1 a2 a3 t) := by
  unfold storeFrame
  repeat' (first | with_reducible assumption | ((with_reducible refine Mask.sub hm ?_); first | exact rfl | (simp only [pageBit_ser]; exact rfl)) | with_reducible apply setReg_within | with_reducible apply dlDone_within | with_reducible apply sf2Reject_within | with_reducible apply addFrame_within | with_reducible apply setAssoc_within | with_reducible apply submitFrame_within | with_reducible exact Within.refl | intro _ | split | dsimp only)

theorem takeDown_within {m : Nat} {s t : State} (h : Within m s t) (ring lane : Option Nat) (d : DlDesc) (hm : 0x20b8002800aa28 ||| m = m) : Within m s (takeDown ring lane d t) := by
  unfold takeDown
  dsimp only
  split
  · exact dlDone_within h _ _ _ _ _ (Mask.sub hm rfl)
  · split
    · refine dlDone_within ?_ _ _ _ _ _ (Mask.sub hm rfl)
      cases ring with
      | none => exact h
      | some r => exact ringError_within h _ (Mask.sub hm rfl)
    · repeat' split
      all_goals first | exact dlDone_within h _ _ _ _ _ (Mask.sub hm rfl) | exact storeFrame_within h _ _ _ _ (Mask.sub hm rfl)

theorem takeDescriptor_within {m : Nat} {s t : State} (h : Within m s t) (a0 : Nat) (a1 : DlDesc) (hm : 0x20b8002800aa28 ||| m = m) : Within m s (takeDescriptor a0 a1 t) := by
  unfold takeDescriptor
  repeat' (first | with_reducible assumption | ((with_reducible refine Mask.sub hm ?_); first | exact rfl | (simp only [pageBit_ser]; exact rfl)) | with_reducible apply setReg_within | with_reducible apply takeDown_within | with_reducible apply takeEntry_within | with_reducible exact Within.refl | intro _ | split | dsimp only)

theorem execDlDescriptorTaken_within {m : Nat} {s t u : State} (h : Within m s t) (a0 : Fin 16) (a1 : DlDesc) (hm : 0x20b8002800aa28 ||| m = m) (e : execDlDescriptorTaken a0 a1 t = .next u) : Within m s u := by
  unfold execDlDescriptorTaken at e
  try dsimp only at e
  repeat' split at e
  all_goals (cases e; repeat' (first | with_reducible assumption | ((with_reducible refine Mask.sub hm ?_); first | exact rfl | (simp only [pageBit_ser]; exact rfl)) | with_reducible apply setReg_within | with_reducible apply takeDescriptor_within | with_reducible exact Within.refl | intro _ | split | dsimp only))

theorem execSf2Recheck_within {m : Nat} {s t u : State} (h : Within m s t) (a0 : Nat) (a1 : Bool) (hm : 0x20b8002800a228 ||| m = m) (e : execSf2Recheck a0 a1 t = .next u) : Within m s u := by
  unfold execSf2Recheck at e
  try dsimp only at e
  repeat' split at e
  all_goals (cases e; repeat' (first | with_reducible assumption | ((with_reducible refine Mask.sub hm ?_); first | exact rfl | (simp only [pageBit_ser]; exact rfl)) | with_reducible apply setReg_within | with_reducible apply submitFrame_within | with_reducible apply sf2Discard_within | with_reducible exact Within.refl | intro _ | split | dsimp only))

theorem retransmit_within {m : Nat} {s t : State} (h : Within m s t) (a0 : Frame) (hm : 0x280000000000 ||| m = m) : Within m s (retransmit a0 t) := by
  unfold retransmit
  repeat' (first | with_reducible assumption | ((with_reducible refine Mask.sub hm ?_); first | exact rfl | (simp only [pageBit_ser]; exact rfl)) | with_reducible apply setReg_within | with_reducible apply setFrame_within | with_reducible apply finishFrame_within | with_reducible exact Within.refl | intro _ | split | dsimp only)

theorem execRetransmitTimeout_within {m : Nat} {s t u : State} (h : Within m s t) (a0 : Nat) (hm : 0x280000000000 ||| m = m) (e : execRetransmitTimeout a0 t = .next u) : Within m s u := by
  unfold execRetransmitTimeout at e
  try dsimp only at e
  repeat' split at e
  all_goals (cases e; repeat' (first | with_reducible assumption | ((with_reducible refine Mask.sub hm ?_); first | exact rfl | (simp only [pageBit_ser]; exact rfl)) | with_reducible apply setReg_within | with_reducible apply retransmit_within | with_reducible exact Within.refl | intro _ | split | dsimp only))

end Sys2Proof.Machine
end

