-- ==== Sys2Proof/Laws/WithinLink.lean ====
section
/-! SUPPORT. Sys2Proof/Laws/WithinLink.lean: the parts of a state that the operations of Machine/Link.lean may change. -/
namespace Sys2Proof.Machine

theorem laneChange_within {m : Nat} {s t : State} (h : Within m s t) (a0 : Nat) (a1 : Nat) (hm : 0x20200000001000 ||| m = m) : Within m s (laneChange a0 a1 t) := by
  unfold laneChange
  repeat' (first | with_reducible assumption | ((with_reducible refine Mask.sub hm ?_); first | exact rfl | (simp only [pageBit_ser]; exact rfl)) | with_reducible apply setReg_within | with_reducible apply hostEvent_within | with_reducible exact Within.refl | intro _ | split | dsimp only)

theorem laneRise_within {m : Nat} {s t : State} (h : Within m s t) (a0 : Nat) (hm : 0x20200020001000 ||| m = m) : Within m s (laneRise a0 t) := by
  unfold laneRise
  repeat' (first | with_reducible assumption | ((with_reducible refine Mask.sub hm ?_); first | exact rfl | (simp only [pageBit_lan, lanPage]; exact rfl)) | with_reducible apply setReg_within | with_reducible apply setB_within | with_reducible apply refreshTunnel_within | with_reducible apply laneChange_within | with_reducible apply raise_within | with_reducible apply setLane_within | with_reducible exact Within.refl | intro _ | split | dsimp only)

theorem mirrorRise_within {m : Nat} {s t : State} (h : Within m s t) (a0 : Fin 2) (hm : 0x20000020002000 ||| m = m) : Within m s (mirrorRise a0 t) := by
  unfold mirrorRise
  repeat' (first | with_reducible assumption | ((with_reducible refine Mask.sub hm ?_); first | exact rfl | (simp only [pageBit_lanm]; exact rfl)) | with_reducible apply setReg_within | with_reducible apply raise_within | with_reducible apply setB_within | with_reducible exact Within.refl | intro _ | split | dsimp only)

theorem execLaneUp_within {m : Nat} {s t u : State} (h : Within m s t) (a0 : LaneId) (hm : 0x20200020003000 ||| m = m) (e : execLaneUp a0 t = .next u) : Within m s u := by
  unfold execLaneUp at e
  try dsimp only at e
  repeat' split at e
  all_goals (cases e; repeat' (first | with_reducible assumption | ((with_reducible refine Mask.sub hm ?_); first | exact rfl | (simp only [pageBit_ser]; exact rfl)) | with_reducible apply setReg_within | with_reducible apply laneRise_within | with_reducible apply mirrorRise_within | with_reducible exact Within.refl | intro _ | split | dsimp only))

theorem rerouteHeld_within {m : Nat} {s t : State} (h : Within m s t) (a0 : Nat) (a1 : TunnelFrame) (hm : 0x20200020001800 ||| m = m) : Within m s (rerouteHeld a0 a1 t) := by
  unfold rerouteHeld
  repeat' (first | with_reducible assumption | ((with_reducible refine Mask.sub hm ?_); first | exact rfl | (simp only [pageBit_lan, lanPage]; exact rfl)) | with_reducible apply setReg_within | with_reducible apply divert_within | with_reducible apply laneSend_within | with_reducible apply count_within | with_reducible exact Within.refl | intro _ | split | dsimp only)

theorem laneFall_within {m : Nat} {s t : State} (h : Within m s t) (a0 : Nat) (a1 : Bool) (a2 : Bool) (a3 : Bool) (hm : 0x20200020001800 ||| m = m) : Within m s (laneFall a0 a1 a2 a3 t) := by
  unfold laneFall
  repeat' (first | with_reducible assumption | ((with_reducible refine Mask.sub hm ?_); first | exact rfl | (simp only [pageBit_lan, lanPage]; exact rfl)) | with_reducible apply setReg_within | with_reducible apply setB_within | with_reducible apply setLane_within | with_reducible apply divert_within | with_reducible apply rerouteHeld_within | with_reducible apply refreshTunnel_within | with_reducible apply laneChange_within | with_reducible apply raise_within | with_reducible apply Within.foldl | with_reducible exact Within.refl | intro _ | split | dsimp only)

theorem mirrorFall_within {m : Nat} {s t : State} (h : Within m s t) (a0 : Fin 2) (a1 : Bool) (a2 : Bool) (hm : 0x20000020002000 ||| m = m) : Within m s (mirrorFall a0 a1 a2 t) := by
  unfold mirrorFall
  repeat' (first | with_reducible assumption | ((with_reducible refine Mask.sub hm ?_); first | exact rfl | (simp only [pageBit_lanm]; exact rfl)) | with_reducible apply setReg_within | with_reducible apply raise_within | with_reducible apply setB_within | with_reducible exact Within.refl | intro _ | split | dsimp only)

theorem execLaneDown_within {m : Nat} {s t u : State} (h : Within m s t) (a0 : LaneId) (a1 : Bool) (a2 : Bool) (hm : 0x20200020003800 ||| m = m) (e : execLaneDown a0 a1 a2 t = .next u) : Within m s u := by
  unfold execLaneDown at e
  try dsimp only at e
  repeat' split at e
  all_goals (cases e; repeat' (first | with_reducible assumption | ((with_reducible refine Mask.sub hm ?_); first | exact rfl | (simp only [pageBit_ser]; exact rfl)) | with_reducible apply setReg_within | with_reducible apply laneFall_within | with_reducible apply mirrorFall_within | with_reducible exact Within.refl | intro _ | split | dsimp only))

theorem execLanBlkReset_within {m : Nat} {s t u : State} (h : Within m s t) (a0 : LaneId) (hm : 0x20200034003800 ||| m = m) (e : execLanBlkReset a0 t = .next u) : Within m s u := by
  unfold execLanBlkReset at e
  try dsimp only at e
  repeat' split at e
  all_goals (cases e; repeat' (first | with_reducible assumption | ((with_reducible refine Mask.sub hm ?_); first | exact rfl | (simp only [pageBit_lan, pageBit_lanm]; exact rfl)) | with_reducible apply setReg_within | with_reducible apply blkReset_within | with_reducible apply laneFall_within | with_reducible apply mirrorFall_within | with_reducible exact Within.refl | intro _ | split | dsimp only))

theorem endPause_within {m : Nat} {s t : State} (h : Within m s t) (a0 : Nat) (hm : 0x20200000001000 ||| m = m) : Within m s (endPause a0 t) := by
  unfold endPause
  repeat' (first | with_reducible assumption | ((with_reducible refine Mask.sub hm ?_); first | exact rfl | (simp only [pageBit_lan, lanPage]; exact rfl)) | with_reducible apply setReg_within | with_reducible apply setB_within | with_reducible apply setLane_within | with_reducible apply laneSend_within | with_reducible apply Within.foldl | with_reducible exact Within.refl | intro _ | split | dsimp only)

theorem pauseIn_within {m : Nat} {s t : State} (h : Within m s t) (a0 : Nat) (a1 : Nat) (hm : 0x20200020001000 ||| m = m) : Within m s (pauseIn a0 a1 t) := by
  unfold pauseIn
  repeat' (first | with_reducible assumption | ((with_reducible refine Mask.sub hm ?_); first | exact rfl | (simp only [pageBit_lan, lanPage]; exact rfl)) | with_reducible apply setReg_within | with_reducible apply raise_within | with_reducible apply endPause_within | with_reducible apply setB_within | with_reducible apply setLane_within | with_reducible exact Within.refl | intro _ | split | dsimp only)

theorem execPauseReceived_within {m : Nat} {s t u : State} (h : Within m s t) (a0 : Lane) (a1 : BitVec 16) (hm : 0x20200020001000 ||| m = m) (e : execPauseReceived a0 a1 t = .next u) : Within m s u := by
  unfold execPauseReceived at e
  try dsimp only at e
  repeat' split at e
  all_goals (cases e; repeat' (first | with_reducible assumption | ((with_reducible refine Mask.sub hm ?_); first | exact rfl | (simp only [pageBit_ser]; exact rfl)) | with_reducible apply setReg_within | with_reducible apply pauseIn_within | with_reducible exact Within.refl | intro _ | split | dsimp only))

theorem tickPauses_within {m : Nat} {s t : State} (h : Within m s t) (hm : 0x20200000001000 ||| m = m) : Within m s (tickPauses t) := by
  unfold tickPauses
  repeat' (first | with_reducible assumption | ((with_reducible refine Mask.sub hm ?_); first | exact rfl | (simp only [pageBit_lan, lanPage]; exact rfl)) | with_reducible apply setReg_within | with_reducible apply endPause_within | with_reducible apply Within.foldl | with_reducible exact Within.refl | intro _ | split | dsimp only)

theorem badEntry_within {m : Nat} {s t : State} (h : Within m s t) (a0 : Fin 4) (a1 : BadEntry) (hm : 0x20000037ffffff ||| m = m) : Within m s (badEntry a0 a1 t) := by
  unfold badEntry
  repeat' (first | with_reducible assumption | ((with_reducible refine Mask.sub hm ?_); first | exact rfl | (simp only [pageBit_ser]; exact rfl)) | ((with_reducible refine Mask.any (Mask.sub hm ?_) _); exact rfl) | with_reducible apply setReg_within | with_reducible apply ringComplete_within | with_reducible apply takeEntry_within | with_reducible apply issue_within | with_reducible apply done_within | with_reducible exact Within.refl | intro _ | split | dsimp only)

theorem sqProd_within {m : Nat} {s t : State} (h : Within m s t) (a0 : Nat) (a1 : Nat) (a2 : List BadEntry) (hm : 0x2000003fffffff ||| m = m) : Within m s (sqProd a0 a1 a2 t) := by
  unfold sqProd
  repeat' (first | with_reducible assumption | ((with_reducible refine Mask.sub hm ?_); first | exact rfl | (simp only [pageBit_ser]; exact rfl)) | ((with_reducible refine Mask.any (Mask.sub hm ?_) _); exact rfl) | with_reducible apply setReg_within | with_reducible apply setRing_within | with_reducible apply ringError_within | with_reducible apply badEntry_within | with_reducible apply Within.foldl | with_reducible exact Within.refl | intro _ | split | dsimp only)

theorem execSqProdDoorbell_within {m : Nat} {s t u : State} (h : Within m s t) (a0 : Fin 32) (a1 : Word) (a2 : List BadEntry) (hm : 0x2000003fffffff ||| m = m) (e : execSqProdDoorbell a0 a1 a2 t = .next u) : Within m s u := by
  unfold execSqProdDoorbell at e
  try dsimp only at e
  repeat' split at e
  all_goals (cases e; repeat' (first | with_reducible assumption | ((with_reducible refine Mask.sub hm ?_); first | exact rfl | (simp only [pageBit_ser]; exact rfl)) | ((with_reducible refine Mask.any (Mask.sub hm ?_) _); exact rfl) | with_reducible apply setReg_within | with_reducible apply sqProd_within | with_reducible exact Within.refl | intro _ | split | dsimp only))

theorem execCqConsDoorbell_within {m : Nat} {s t u : State} (h : Within m s t) (a0 : Fin 32) (a1 : Word) (hm : 0x20000030000800 ||| m = m) (e : execCqConsDoorbell a0 a1 t = .next u) : Within m s u := by
  unfold execCqConsDoorbell at e
  try dsimp only at e
  repeat' split at e
  all_goals (cases e; repeat' (first | with_reducible assumption | ((with_reducible refine Mask.sub hm ?_); first | exact rfl | (simp only [pageBit_ser]; exact rfl)) | with_reducible apply setReg_within | with_reducible apply flushRing_within | with_reducible apply setRing_within | with_reducible exact Within.refl | intro _ | split | dsimp only))

theorem execRingDmaError_within {m : Nat} {s t u : State} (h : Within m s t) (a0 : Fin 29) (hm : 0x20000028000820 ||| m = m) (e : execRingDmaError a0 t = .next u) : Within m s u := by
  unfold execRingDmaError at e
  try dsimp only at e
  repeat' split at e
  all_goals (cases e; repeat' (first | with_reducible assumption | ((with_reducible refine Mask.sub hm ?_); first | exact rfl | (simp only [pageBit_ser]; exact rfl)) | with_reducible apply setReg_within | with_reducible apply ringError_within | with_reducible exact Within.refl | intro _ | split | dsimp only))

theorem execRingCoalesceExpiry_within {m : Nat} {s t u : State} (h : Within m s t) (a0 : Fin 29) (hm : 0x20000030000000 ||| m = m) (e : execRingCoalesceExpiry a0 t = .next u) : Within m s u := by
  unfold execRingCoalesceExpiry at e
  try dsimp only at e
  repeat' split at e
  all_goals (cases e; repeat' (first | with_reducible assumption | ((with_reducible refine Mask.sub hm ?_); first | exact rfl | (simp only [pageBit_ser]; exact rfl)) | with_reducible apply setReg_within | with_reducible apply ringMessage_within | with_reducible exact Within.refl | intro _ | split | dsimp only))

theorem execMsixUnmask_within {m : Nat} {s t u : State} (h : Within m s t) (a0 : Fin 64) (hm : 0x20000020000000 ||| m = m) (e : execMsixUnmask a0 t = .next u) : Within m s u := by
  have b29 := Mask.has (i := 29) hm rfl
  unfold execMsixUnmask at e
  try dsimp only at e
  repeat' split at e
  all_goals (cases e; repeat' (first | with_reducible assumption | ((with_reducible refine Mask.sub hm ?_); first | exact rfl | (simp only [pageBit_ser]; exact rfl)) | with_reducible apply setReg_within | with_reducible apply emit_within | with_reducible exact Within.refl | ((with_reducible refine Within.upd ?_ (.inl rfl) (.inl rfl) (.inl rfl) (.inr b29) (.inr b29) (.inl rfl) (.inl rfl) (.inl rfl) (.inl rfl) (.inl rfl) (.inl rfl) (.inl rfl) (.inl rfl) (.inl rfl) (.inl rfl) (.inl rfl) (.inl rfl) (.inl rfl) (.inl rfl) (.inl rfl) (.inl rfl) (.inl rfl) (.inl rfl) (.inl rfl) (.inl rfl) (.inl rfl) (.inl rfl) (.inl rfl) (.inl rfl) (.inl rfl)); first | with_reducible assumption | ((with_reducible refine Mask.sub hm ?_); first | exact rfl | (simp only [pageBit_ser]; exact rfl)) | with_reducible apply setReg_within | with_reducible apply emit_within | with_reducible exact Within.refl | split) | intro _ | split | dsimp only))

theorem ulComplete_within {m : Nat} {s t : State} (h : Within m s t) (a0 : Nat) (a1 : Nat) (a2 : Nat) (a3 : UlFrame) (hm : 0x20000030000800 ||| m = m) : Within m s (ulComplete a0 a1 a2 a3 t) := by
  unfold ulComplete
  repeat' (first | with_reducible assumption | ((with_reducible refine Mask.sub hm ?_); first | exact rfl | (simp only [pageBit_ser]; exact rfl)) | with_reducible apply setReg_within | with_reducible apply count_within | with_reducible apply ringComplete_within | with_reducible apply takeEntry_within | with_reducible exact Within.refl | intro _ | split | dsimp only)

theorem ulDelivery_within {m : Nat} {s t : State} (h : Within m s t) (a0 : Nat) (a1 : Nat) (hm : 0x20200030000800 ||| m = m) : Within m s (ulDelivery a0 a1 t) := by
  unfold ulDelivery
  repeat' (first | with_reducible assumption | ((with_reducible refine Mask.sub hm ?_); first | exact rfl | (simp only [pageBit_ser]; exact rfl)) | with_reducible apply setReg_within | with_reducible apply ulComplete_within | with_reducible apply setLink_within | with_reducible exact Within.refl | intro _ | split | dsimp only)

theorem execUlDelivery_within {m : Nat} {s t u : State} (h : Within m s t) (a0 : Fin 8) (a1 : BitVec 64) (hm : 0x20200030000800 ||| m = m) (e : execUlDelivery a0 a1 t = .next u) : Within m s u := by
  unfold execUlDelivery at e
  try dsimp only at e
  repeat' split at e
  all_goals (cases e; repeat' (first | with_reducible assumption | ((with_reducible refine Mask.sub hm ?_); first | exact rfl | (simp only [pageBit_ser]; exact rfl)) | with_reducible apply setReg_within | with_reducible apply ulDelivery_within | with_reducible exact Within.refl | intro _ | split | dsimp only))

theorem writeLost_within {m : Nat} {s t : State} (h : Within m s t) (hm : 0x20000030000800 ||| m = m) : Within m s (writeLost t) := by
  unfold writeLost
  repeat' (first | with_reducible assumption | ((with_reducible refine Mask.sub hm ?_); first | exact rfl | (simp only [pageBit_ser]; exact rfl)) | with_reducible apply setReg_within | with_reducible apply ringComplete_within | with_reducible apply setRing_within | with_reducible exact Within.refl | intro _ | split | dsimp only)

theorem eventDelivery_within {m : Nat} {s t : State} (h : Within m s t) (hm : 0x20200038000820 ||| m = m) : Within m s (eventDelivery t) := by
  unfold eventDelivery
  repeat' (first | with_reducible assumption | ((with_reducible refine Mask.sub hm ?_); first | exact rfl | (simp only [pageBit_ser]; exact rfl)) | with_reducible apply setReg_within | with_reducible apply writeLost_within | with_reducible apply setLink_within | with_reducible apply ringComplete_within | with_reducible apply count_within | with_reducible apply setRing_within | with_reducible apply logPage_within | with_reducible apply raise_within | with_reducible exact Within.refl | intro _ | split | dsimp only)

theorem execEventRecordDelivery_within {m : Nat} {s t u : State} (h : Within m s t) (hm : 0x20200038000820 ||| m = m) (e : execEventRecordDelivery t = .next u) : Within m s u := by
  unfold execEventRecordDelivery at e
  try dsimp only at e
  repeat' split at e
  all_goals (cases e; repeat' (first | with_reducible assumption | ((with_reducible refine Mask.sub hm ?_); first | exact rfl | (simp only [pageBit_ser]; exact rfl)) | with_reducible apply setReg_within | with_reducible apply eventDelivery_within | with_reducible exact Within.refl | intro _ | split | dsimp only))

theorem flushFrames_within {m : Nat} {s t : State} (h : Within m s t) (a0 : Nat) (hm : 0x284000000000 ||| m = m) : Within m s (flushFrames a0 t) := by
  have b38 := Mask.has (i := 38) hm rfl
  unfold flushFrames
  repeat' (first | with_reducible assumption | ((with_reducible refine Mask.sub hm ?_); first | exact rfl | (simp only [pageBit_ser]; exact rfl)) | with_reducible apply setReg_within | with_reducible apply finishFrame_within | with_reducible apply Within.foldl | with_reducible exact Within.refl | ((with_reducible refine Within.upd ?_ (.inl rfl) (.inl rfl) (.inl rfl) (.inl rfl) (.inl rfl) (.inl rfl) (.inl rfl) (.inl rfl) (.inl rfl) (.inl rfl) (.inl rfl) (.inl rfl) (.inl rfl) (.inl rfl) (.inr b38) (.inl rfl) (.inl rfl) (.inl rfl) (.inl rfl) (.inl rfl) (.inl rfl) (.inl rfl) (.inl rfl) (.inl rfl) (.inl rfl) (.inl rfl) (.inl rfl) (.inl rfl) (.inl rfl) (.inl rfl)); first | with_reducible assumption | ((with_reducible refine Mask.sub hm ?_); first | exact rfl | (simp only [pageBit_ser]; exact rfl)) | with_reducible apply setReg_within | with_reducible apply finishFrame_within | with_reducible apply Within.foldl | with_reducible exact Within.refl | split) | intro _ | split | dsimp only)

theorem killRing_within {m : Nat} {s t : State} (h : Within m s t) (a0 : Nat) (hm : 0x10000800 ||| m = m) : Within m s (killRing a0 t) := by
  unfold killRing
  repeat' (first | with_reducible assumption | ((with_reducible refine Mask.sub hm ?_); first | exact rfl | (simp only [pageBit_ser]; exact rfl)) | with_reducible apply setReg_within | with_reducible apply setI_within | with_reducible apply setRing_within | with_reducible apply setF_within | with_reducible apply countN_within | with_reducible exact Within.refl | intro _ | split | dsimp only)

theorem loseRing_within {m : Nat} {s t : State} (h : Within m s t) (a0 : Nat) (hm : 0x280004000000 ||| m = m) : Within m s (loseRing a0 t) := by
  have b26 := Mask.has (i := 26) hm rfl
  unfold loseRing
  repeat' (first | with_reducible assumption | ((with_reducible refine Mask.sub hm ?_); first | exact rfl | (simp only [pageBit_ser]; exact rfl)) | with_reducible apply setReg_within | with_reducible apply setMac_within | with_reducible apply setLink_within | with_reducible exact Within.refl | ((with_reducible refine Within.upd ?_ (.inr b26) (.inl rfl) (.inl rfl) (.inl rfl) (.inl rfl) (.inl rfl) (.inl rfl) (.inl rfl) (.inl rfl) (.inl rfl) (.inl rfl) (.inl rfl) (.inl rfl) (.inl rfl) (.inl rfl) (.inl rfl) (.inl rfl) (.inl rfl) (.inl rfl) (.inl rfl) (.inl rfl) (.inl rfl) (.inl rfl) (.inl rfl) (.inl rfl) (.inl rfl) (.inl rfl) (.inl rfl) (.inl rfl) (.inl rfl)); first | with_reducible assumption | ((with_reducible refine Mask.sub hm ?_); first | exact rfl | (simp only [pageBit_ser]; exact rfl)) | with_reducible apply setReg_within | with_reducible apply setMac_within | with_reducible apply setLink_within | with_reducible exact Within.refl | split) | intro _ | split | dsimp only)

theorem ringResetDone_within {m : Nat} {s t : State} (h : Within m s t) (hm : 0x20280034000800 ||| m = m) : Within m s (ringResetDone t) := by
  unfold ringResetDone
  repeat' (first | with_reducible assumption | ((with_reducible refine Mask.sub hm ?_); first | exact rfl | (simp only [pageBit_ser]; exact rfl)) | with_reducible apply setReg_within | with_reducible apply done_within | with_reducible apply killRing_within | with_reducible apply loseRing_within | with_reducible exact Within.refl | intro _ | split | dsimp only)

theorem runRingReset_within {m : Nat} {s t : State} (h : Within m s t) (a0 : Outstanding) (hm : 0x20284034000800 ||| m = m) : Within m s (runRingReset a0 t) := by
  unfold runRingReset
  repeat' (first | with_reducible assumption | ((with_reducible refine Mask.sub hm ?_); first | exact rfl | (simp only [pageBit_ser]; exact rfl)) | with_reducible apply setReg_within | with_reducible apply done_within | with_reducible apply ringResetDone_within | with_reducible apply flushFrames_within | with_reducible exact Within.refl | intro _ | split | dsimp only)

theorem execRingReset_within {m : Nat} {s t u : State} (h : Within m s t) (a0 : CmdSrc) (hm : 0x20284034000800 ||| m = m) (e : execRingReset a0 t = .next u) : Within m s u := by
  unfold execRingReset at e
  try dsimp only at e
  repeat' split at e
  all_goals (cases e; repeat' (first | with_reducible assumption | ((with_reducible refine Mask.sub hm ?_); first | exact rfl | (simp only [pageBit_ser]; exact rfl)) | with_reducible apply setReg_within | with_reducible apply issue_within | with_reducible apply runRingReset_within | with_reducible exact Within.refl | intro _ | split | dsimp only))

theorem deliverRing_within {m : Nat} {s t : State} (h : Within m s t) (a0 : Nat) (hm : 0x20200030001800 ||| m = m) : Within m s (deliverRing a0 t) := by
  unfold deliverRing
  repeat' (first | with_reducible assumption | ((with_reducible refine Mask.sub hm ?_); first | exact rfl | (simp only [pageBit_ser]; exact rfl)) | with_reducible apply setReg_within | with_reducible apply deliverDone_within | with_reducible apply setLink_within | with_reducible apply Within.foldl | with_reducible exact Within.refl | intro _ | split | dsimp only)

theorem resetRings_within {m : Nat} {s t : State} (h : Within m s t) (hm : 0x20284034001800 ||| m = m) : Within m s (resetRings t) := by
  unfold resetRings
  repeat' (first | with_reducible assumption | ((with_reducible refine Mask.sub hm ?_); first | exact rfl | (simp only [pageBit_ser]; exact rfl)) | with_reducible apply setReg_within | with_reducible apply killRing_within | with_reducible apply loseRing_within | with_reducible apply deliverRing_within | with_reducible apply flushFrames_within | with_reducible apply Within.foldl | with_reducible exact Within.refl | intro _ | split | dsimp only)

theorem execPciBlkReset_within {m : Nat} {s t u : State} (h : Within m s t)  (hm : 0x20284034001800 ||| m = m) (e : execPciBlkReset  t = .next u) : Within m s u := by
  unfold execPciBlkReset at e
  obtain rfl := Host.Outcome.next.inj e
  exact blkReset_within (resetRings_within h (Mask.sub hm rfl)) _ _ (Mask.sub hm rfl) (Mask.sub hm rfl)

theorem perstRings_within {m : Nat} {s t : State} (h : Within m s t) (hm : 0x280014000800 ||| m = m) : Within m s (perstRings t) := by
  unfold perstRings
  repeat' (first | with_reducible assumption | ((with_reducible refine Mask.sub hm ?_); first | exact rfl | (simp only [pageBit_ser]; exact rfl)) | with_reducible apply setReg_within | with_reducible apply killRing_within | with_reducible apply loseRing_within | with_reducible apply Within.foldl | with_reducible exact Within.refl | intro _ | split | dsimp only)

theorem execPcieLinkChange_within {m : Nat} {s t u : State} (h : Within m s t) (a0 : Bool) (a1 : BitVec 4) (a2 : BitVec 4) (a3 : Bool) (hm : 0x20000020000800 ||| m = m) (e : execPcieLinkChange a0 a1 a2 a3 t = .next u) : Within m s u := by
  unfold execPcieLinkChange at e
  try dsimp only at e
  repeat' split at e
  all_goals (cases e; repeat' (first | with_reducible assumption | ((with_reducible refine Mask.sub hm ?_); first | exact rfl | (simp only [pageBit_ser]; exact rfl)) | with_reducible apply setReg_within | with_reducible apply setF_within | with_reducible apply setB_within | with_reducible apply raise_within | with_reducible exact Within.refl | intro _ | split | dsimp only))

end Sys2Proof.Machine
end

