-- ==== Sys2Proof/Laws/WithinSto.lean ====
section
/-! SUPPORT. Sys2Proof/Laws/WithinSto.lean: the parts of a state that the operations of Machine/Sto.lean may change. -/
namespace Sys2Proof.Machine

theorem setBlock_within {m : Nat} {s t : State} (h : Within m s t) (a0 : Nat) (a1 : Nat) (a2 : List Byte) (hm : 0x400000000000 ||| m = m) : Within m s (setBlock a0 a1 a2 t) := by
  have b46 := Mask.has (i := 46) hm rfl
  unfold setBlock
  repeat' (first | with_reducible assumption | ((with_reducible refine Mask.sub hm ?_); first | exact rfl | (simp only [pageBit_ser]; exact rfl)) | with_reducible apply setReg_within | with_reducible exact Within.refl | ((with_reducible refine Within.upd ?_ (.inl rfl) (.inl rfl) (.inl rfl) (.inl rfl) (.inl rfl) (.inl rfl) (.inl rfl) (.inl rfl) (.inl rfl) (.inl rfl) (.inl rfl) (.inl rfl) (.inl rfl) (.inl rfl) (.inl rfl) (.inl rfl) (.inl rfl) (.inl rfl) (.inl rfl) (.inl rfl) (.inl rfl) (.inl rfl) (.inr b46) (.inl rfl) (.inl rfl) (.inl rfl) (.inl rfl) (.inl rfl) (.inl rfl) (.inl rfl)); first | with_reducible assumption | ((with_reducible refine Mask.sub hm ?_); first | exact rfl | (simp only [pageBit_ser]; exact rfl)) | with_reducible apply setReg_within | with_reducible exact Within.refl | split) | intro _ | split | dsimp only)

theorem flushLog_within {m : Nat} {s t : State} (h : Within m s t) (hm : 0x8000000 ||| m = m) : Within m s (flushLog t) := by
  have b27 := Mask.has (i := 27) hm rfl
  unfold flushLog
  repeat' (first | with_reducible assumption | ((with_reducible refine Mask.sub hm ?_); first | exact rfl | (simp only [pageBit_ser]; exact rfl)) | with_reducible apply setReg_within | with_reducible apply Within.foldl | with_reducible exact Within.refl | ((with_reducible refine Within.upd ?_ (.inl rfl) (.inr b27) (.inl rfl) (.inl rfl) (.inl rfl) (.inl rfl) (.inl rfl) (.inl rfl) (.inl rfl) (.inl rfl) (.inl rfl) (.inl rfl) (.inl rfl) (.inl rfl) (.inl rfl) (.inl rfl) (.inl rfl) (.inl rfl) (.inl rfl) (.inl rfl) (.inl rfl) (.inl rfl) (.inl rfl) (.inl rfl) (.inl rfl) (.inl rfl) (.inl rfl) (.inl rfl) (.inl rfl) (.inl rfl)); first | with_reducible assumption | ((with_reducible refine Mask.sub hm ?_); first | exact rfl | (simp only [pageBit_ser]; exact rfl)) | with_reducible apply setReg_within | with_reducible apply Within.foldl | with_reducible exact Within.refl | split) | intro _ | split | dsimp only)

theorem runBlocks_within {m : Nat} {s t : State} (h : Within m s t) (a0 : Outstanding) (hm : 0x20000034000c00 ||| m = m) : Within m s (runBlocks a0 t) := by
  unfold runBlocks
  repeat' (first | with_reducible assumption | ((with_reducible refine Mask.sub hm ?_); first | exact rfl | (simp only [pageBit_ser]; exact rfl)) | with_reducible apply setReg_within | with_reducible apply done_within | with_reducible exact Within.refl | intro _ | split | dsimp only)

theorem execReadBlocks_within {m : Nat} {s t u : State} (h : Within m s t) (a0 : CmdSrc) (hm : 0x20000034000c00 ||| m = m) (e : execReadBlocks a0 t = .next u) : Within m s u := by
  unfold execReadBlocks at e
  try dsimp only at e
  repeat' split at e
  all_goals (cases e; repeat' (first | with_reducible assumption | ((with_reducible refine Mask.sub hm ?_); first | exact rfl | (simp only [pageBit_ser]; exact rfl)) | with_reducible apply setReg_within | with_reducible apply issue_within | with_reducible apply runBlocks_within | with_reducible exact Within.refl | intro _ | split | dsimp only))

theorem execWriteBlocks_within {m : Nat} {s t u : State} (h : Within m s t) (a0 : CmdSrc) (hm : 0x20000034000c00 ||| m = m) (e : execWriteBlocks a0 t = .next u) : Within m s u := by
  unfold execWriteBlocks at e
  try dsimp only at e
  repeat' split at e
  all_goals (cases e; repeat' (first | with_reducible assumption | ((with_reducible refine Mask.sub hm ?_); first | exact rfl | (simp only [pageBit_ser]; exact rfl)) | with_reducible apply setReg_within | with_reducible apply issue_within | with_reducible apply runBlocks_within | with_reducible exact Within.refl | intro _ | split | dsimp only))

theorem execTrim_within {m : Nat} {s t u : State} (h : Within m s t) (a0 : CmdSrc) (hm : 0x20000034000c00 ||| m = m) (e : execTrim a0 t = .next u) : Within m s u := by
  unfold execTrim at e
  try dsimp only at e
  repeat' split at e
  all_goals (cases e; repeat' (first | with_reducible assumption | ((with_reducible refine Mask.sub hm ?_); first | exact rfl | (simp only [pageBit_ser]; exact rfl)) | with_reducible apply setReg_within | with_reducible apply issue_within | with_reducible apply runBlocks_within | with_reducible exact Within.refl | intro _ | split | dsimp only))

theorem copyOut_within {m : Nat} {s t : State} (h : Within m s t) (a0 : Outstanding) (a1 : Nat) (hm : 0x20020022000000 ||| m = m) : Within m s (copyOut a0 a1 t) := by
  unfold copyOut
  repeat' (first | with_reducible assumption | ((with_reducible refine Mask.sub hm ?_); first | exact rfl | (simp only [pageBit_ser]; exact rfl)) | with_reducible apply setReg_within | with_reducible apply busWrite_within | with_reducible apply Within.foldl | with_reducible exact Within.refl | intro _ | split | dsimp only)

theorem programIn_within {m : Nat} {s t : State} (h : Within m s t) (a0 : Outstanding) (a1 : Nat) (hm : 0x20400022000000 ||| m = m) : Within m s (programIn a0 a1 t) := by
  unfold programIn
  repeat' (first | with_reducible assumption | ((with_reducible refine Mask.sub hm ?_); first | exact rfl | (simp only [pageBit_ser]; exact rfl)) | with_reducible apply setReg_within | with_reducible apply setBlock_within | with_reducible apply touchArea_within | with_reducible apply Within.foldl | with_reducible exact Within.refl | intro _ | split | dsimp only)

theorem openOutput_within {m : Nat} {s t : State} (h : Within m s t) (a0 : Outstanding) (a1 : Nat) (hm : 0x30020022000000 ||| m = m) : Within m s (openOutput a0 a1 t) := by
  unfold openOutput
  repeat' (first | with_reducible assumption | ((with_reducible refine Mask.sub hm ?_); first | exact rfl | (simp only [pageBit_ser]; exact rfl)) | with_reducible apply setReg_within | with_reducible apply freeBytes_within | with_reducible apply busWrite_within | (with_reducible refine freeBytes_within_eq (by assumption) ?_ ?_) | with_reducible exact Within.refl | intro _ | split | dsimp only)

theorem trimBlocks_within {m : Nat} {s t : State} (h : Within m s t) (a0 : Nat) (a1 : Nat) (a2 : Nat) (hm : 0x400000000000 ||| m = m) : Within m s (trimBlocks a0 a1 a2 t) := by
  have b46 := Mask.has (i := 46) hm rfl
  unfold trimBlocks
  repeat' (first | with_reducible assumption | ((with_reducible refine Mask.sub hm ?_); first | exact rfl | (simp only [pageBit_ser]; exact rfl)) | with_reducible apply setReg_within | with_reducible exact Within.refl | ((with_reducible refine Within.upd ?_ (.inl rfl) (.inl rfl) (.inl rfl) (.inl rfl) (.inl rfl) (.inl rfl) (.inl rfl) (.inl rfl) (.inl rfl) (.inl rfl) (.inl rfl) (.inl rfl) (.inl rfl) (.inl rfl) (.inl rfl) (.inl rfl) (.inl rfl) (.inl rfl) (.inl rfl) (.inl rfl) (.inl rfl) (.inl rfl) (.inr b46) (.inl rfl) (.inl rfl) (.inl rfl) (.inl rfl) (.inl rfl) (.inl rfl) (.inl rfl)); first | with_reducible assumption | ((with_reducible refine Mask.sub hm ?_); first | exact rfl | (simp only [pageBit_ser]; exact rfl)) | with_reducible apply setReg_within | with_reducible exact Within.refl | split) | intro _ | split | dsimp only)

theorem finishBlocks_within {m : Nat} {s t : State} (h : Within m s t) (a0 : Outstanding) (a1 : Option Nat) (a2 : Nat) (hm : 0x30420036000c00 ||| m = m) : Within m s (finishBlocks a0 a1 a2 t) := by
  unfold finishBlocks
  repeat' (first | with_reducible assumption | ((with_reducible refine Mask.sub hm ?_); first | exact rfl | (simp only [pageBit_ser]; exact rfl)) | with_reducible apply setReg_within | with_reducible apply countN_within | with_reducible apply openOutput_within | with_reducible apply copyOut_within | with_reducible apply setF_within | with_reducible apply done_within | with_reducible apply count_within | with_reducible apply programIn_within | with_reducible apply trimBlocks_within | with_reducible exact Within.refl | intro _ | split | dsimp only)

theorem stopBlocks_within {m : Nat} {s t : State} (h : Within m s t) (a0 : Nat) (a1 : Nat) (hm : 0x30420036000c00 ||| m = m) : Within m s (stopBlocks a0 a1 t) := by
  unfold stopBlocks
  repeat' (first | with_reducible assumption | ((with_reducible refine Mask.sub hm ?_); first | exact rfl | (simp only [pageBit_ser]; exact rfl)) | with_reducible apply setReg_within | with_reducible apply programIn_within | with_reducible apply openOutput_within | with_reducible apply done_within | with_reducible exact Within.refl | intro _ | split | dsimp only)

theorem storeWorn_within {m : Nat} {s t : State} (h : Within m s t) (a0 : Bool) (a1 : Nat) (a2 : Nat) (a3 : Nat) (hm : 0x30420036000c00 ||| m = m) : Within m s (storeWorn a0 a1 a2 a3 t) := by
  unfold storeWorn
  repeat' (first | with_reducible assumption | ((with_reducible refine Mask.sub hm ?_); first | exact rfl | (simp only [pageBit_ser]; exact rfl)) | with_reducible apply setReg_within | with_reducible apply setF_within | with_reducible apply raise_within | with_reducible apply setB_within | with_reducible apply stopBlocks_within | with_reducible exact Within.refl | intro _ | split | dsimp only)

theorem execStoreWorn_within {m : Nat} {s t u : State} (h : Within m s t) (a0 : Bool) (a1 : BitVec 16) (a2 : BitVec 16) (a3 : Nat) (hm : 0x30420036000c00 ||| m = m) (e : execStoreWorn a0 a1 a2 a3 t = .next u) : Within m s u := by
  unfold execStoreWorn at e
  try dsimp only at e
  repeat' split at e
  all_goals (cases e; repeat' (first | with_reducible assumption | ((with_reducible refine Mask.sub hm ?_); first | exact rfl | (simp only [pageBit_ser]; exact rfl)) | with_reducible apply setReg_within | with_reducible apply storeWorn_within | with_reducible exact Within.refl | intro _ | split | dsimp only))

theorem execReserveChargeFail_within {m : Nat} {s t u : State} (h : Within m s t) (hm : 0x20000020000400 ||| m = m) (e : execReserveChargeFail t = .next u) : Within m s u := by
  unfold execReserveChargeFail at e
  try dsimp only at e
  repeat' split at e
  all_goals (cases e; repeat' (first | with_reducible assumption | ((with_reducible refine Mask.sub hm ?_); first | exact rfl | (simp only [pageBit_ser]; exact rfl)) | with_reducible apply setReg_within | with_reducible apply raise_within | with_reducible apply setB_within | with_reducible exact Within.refl | intro _ | split | dsimp only))

theorem execStoBlkReset_within {m : Nat} {s t u : State} (h : Within m s t) (a0 : Nat) (hm : 0x30420036000c00 ||| m = m) (e : execStoBlkReset a0 t = .next u) : Within m s u := by
  unfold execStoBlkReset at e
  try dsimp only at e
  repeat' split at e
  all_goals (cases e; repeat' (first | with_reducible assumption | ((with_reducible refine Mask.sub hm ?_); first | exact rfl | (simp only [pageBit_ser]; exact rfl)) | with_reducible apply setReg_within | with_reducible apply resetOffsets_within | with_reducible apply stopBlocks_within | with_reducible exact Within.refl | intro _ | split | dsimp only))

theorem setSnf_within {m : Nat} {s t : State} (h : Within m s t) (a0 : List SnfRec) (hm : 0x400000000400 ||| m = m) : Within m s (setSnf a0 t) := by
  have b46 := Mask.has (i := 46) hm rfl
  unfold setSnf
  repeat' (first | with_reducible assumption | ((with_reducible refine Mask.sub hm ?_); first | exact rfl | (simp only [pageBit_ser]; exact rfl)) | with_reducible apply setReg_within | with_reducible apply setF_within | with_reducible apply setB_within | with_reducible exact Within.refl | ((with_reducible refine Within.upd ?_ (.inl rfl) (.inl rfl) (.inl rfl) (.inl rfl) (.inl rfl) (.inl rfl) (.inl rfl) (.inl rfl) (.inl rfl) (.inl rfl) (.inl rfl) (.inl rfl) (.inl rfl) (.inl rfl) (.inl rfl) (.inl rfl) (.inl rfl) (.inl rfl) (.inl rfl) (.inl rfl) (.inl rfl) (.inl rfl) (.inr b46) (.inl rfl) (.inl rfl) (.inl rfl) (.inl rfl) (.inl rfl) (.inl rfl) (.inl rfl)); first | with_reducible assumption | ((with_reducible refine Mask.sub hm ?_); first | exact rfl | (simp only [pageBit_ser]; exact rfl)) | with_reducible apply setReg_within | with_reducible apply setF_within | with_reducible apply setB_within | with_reducible exact Within.refl | split) | intro _ | split | dsimp only)

theorem loseRecord_within {m : Nat} {s t : State} (h : Within m s t) (hm : 0x20400020000400 ||| m = m) : Within m s (loseRecord t) := by
  have b46 := Mask.has (i := 46) hm rfl
  unfold loseRecord
  repeat' (first | with_reducible assumption | ((with_reducible refine Mask.sub hm ?_); first | exact rfl | (simp only [pageBit_ser]; exact rfl)) | with_reducible apply setReg_within | with_reducible apply raise_within | with_reducible apply count_within | with_reducible exact Within.refl | ((with_reducible refine Within.upd ?_ (.inl rfl) (.inl rfl) (.inl rfl) (.inl rfl) (.inl rfl) (.inl rfl) (.inl rfl) (.inl rfl) (.inl rfl) (.inl rfl) (.inl rfl) (.inl rfl) (.inl rfl) (.inl rfl) (.inl rfl) (.inl rfl) (.inl rfl) (.inl rfl) (.inl rfl) (.inl rfl) (.inl rfl) (.inl rfl) (.inr b46) (.inl rfl) (.inl rfl) (.inl rfl) (.inl rfl) (.inl rfl) (.inl rfl) (.inl rfl)); first | with_reducible assumption | ((with_reducible refine Mask.sub hm ?_); first | exact rfl | (simp only [pageBit_ser]; exact rfl)) | with_reducible apply setReg_within | with_reducible apply raise_within | with_reducible apply count_within | with_reducible exact Within.refl | split) | intro _ | split | dsimp only)

theorem makeRoom_within {m : Nat} {s t : State} (h : Within m s t) (a0 : Nat) (a1 : Nat) (hm : 0x20400020000400 ||| m = m) : Within m s (makeRoom a0 a1 t) := by
  induction a1 generalizing t a0 with
  | zero =>
    unfold makeRoom
    repeat' (first | with_reducible assumption | with_reducible apply ih | ((with_reducible refine Mask.sub hm ?_); first | exact rfl | (simp only [pageBit_ser]; exact rfl)) | with_reducible apply setReg_within | with_reducible apply loseRecord_within | with_reducible apply setSnf_within | with_reducible exact Within.refl | intro _ | split | dsimp only)
  | succ _ ih =>
    unfold makeRoom
    repeat' (first | with_reducible assumption | with_reducible apply ih | ((with_reducible refine Mask.sub hm ?_); first | exact rfl | (simp only [pageBit_ser]; exact rfl)) | with_reducible apply setReg_within | with_reducible apply loseRecord_within | with_reducible apply setSnf_within | with_reducible exact Within.refl | intro _ | split | dsimp only)

theorem snfWrite_within {m : Nat} {s t : State} (h : Within m s t) (hm : 0x20600020000c00 ||| m = m) : Within m s (snfWrite t) := by
  unfold snfWrite
  repeat' (first | with_reducible assumption | ((with_reducible refine Mask.sub hm ?_); first | exact rfl | (simp only [pageBit_ser]; exact rfl)) | with_reducible apply setReg_within | with_reducible apply setLink_within | with_reducible apply loseRecord_within | with_reducible apply makeRoom_within | with_reducible apply count_within | with_reducible apply setSnf_within | with_reducible exact Within.refl | intro _ | split | dsimp only)

theorem execSnfWrite_within {m : Nat} {s t u : State} (h : Within m s t) (hm : 0x20600020000c00 ||| m = m) (e : execSnfWrite t = .next u) : Within m s u := by
  unfold execSnfWrite at e
  try dsimp only at e
  repeat' split at e
  all_goals (cases e; repeat' (first | with_reducible assumption | ((with_reducible refine Mask.sub hm ?_); first | exact rfl | (simp only [pageBit_ser]; exact rfl)) | with_reducible apply setReg_within | with_reducible apply snfWrite_within | with_reducible exact Within.refl | intro _ | split | dsimp only))

theorem sendStored_within {m : Nat} {s t : State} (h : Within m s t) (a0 : Nat) (a1 : SnfRec) (hm : 0x20a80030043a00 ||| m = m) : Within m s (sendStored a0 a1 t) := by
  unfold sendStored
  repeat' (first | with_reducible assumption | ((with_reducible refine Mask.sub hm ?_); first | exact rfl | (simp only [pageBit_ser]; exact rfl)) | with_reducible apply setReg_within | with_reducible apply toParent_within | with_reducible apply laneSend_within | with_reducible apply setLane_within | with_reducible apply ulComplete_within | with_reducible exact Within.refl | intro _ | split | dsimp only)

theorem snfReplay_within {m : Nat} {s t : State} (h : Within m s t) (a0 : Nat) (hm : 0x20e80030043e00 ||| m = m) : Within m s (snfReplay a0 t) := by
  have b46 := Mask.has (i := 46) hm rfl
  unfold snfReplay
  repeat' (first | with_reducible assumption | ((with_reducible refine Mask.sub hm ?_); first | exact rfl | (simp only [pageBit_ser]; exact rfl)) | with_reducible apply setReg_within | with_reducible apply sendStored_within | with_reducible apply setSnf_within | with_reducible apply hostEvent_within | with_reducible exact Within.refl | ((with_reducible refine Within.upd ?_ (.inl rfl) (.inl rfl) (.inl rfl) (.inl rfl) (.inl rfl) (.inl rfl) (.inl rfl) (.inl rfl) (.inl rfl) (.inl rfl) (.inl rfl) (.inl rfl) (.inl rfl) (.inl rfl) (.inl rfl) (.inl rfl) (.inl rfl) (.inl rfl) (.inl rfl) (.inl rfl) (.inl rfl) (.inl rfl) (.inr b46) (.inl rfl) (.inl rfl) (.inl rfl) (.inl rfl) (.inl rfl) (.inl rfl) (.inl rfl)); first | with_reducible assumption | ((with_reducible refine Mask.sub hm ?_); first | exact rfl | (simp only [pageBit_ser]; exact rfl)) | with_reducible apply setReg_within | with_reducible apply sendStored_within | with_reducible apply setSnf_within | with_reducible apply hostEvent_within | with_reducible exact Within.refl | split) | intro _ | split | dsimp only)

theorem execSnfReplay_within {m : Nat} {s t u : State} (h : Within m s t) (a0 : BitVec 64) (hm : 0x20e80030043e00 ||| m = m) (e : execSnfReplay a0 t = .next u) : Within m s u := by
  unfold execSnfReplay at e
  try dsimp only at e
  repeat' split at e
  all_goals (cases e; repeat' (first | with_reducible assumption | ((with_reducible refine Mask.sub hm ?_); first | exact rfl | (simp only [pageBit_ser]; exact rfl)) | with_reducible apply setReg_within | with_reducible apply snfReplay_within | with_reducible exact Within.refl | intro _ | split | dsimp only))

end Sys2Proof.Machine
end

