-- ==== Sys2Proof/Laws/WithinImage.lean ====
section
/-! SUPPORT. Sys2Proof/Laws/WithinImage.lean: the parts of a state that the operations of Machine/Image.lean may change. -/
namespace Sys2Proof.Machine

theorem setSlotState_within {m : Nat} {s t : State} (h : Within m s t) (a0 : Nat) (a1 : Nat) (hm : 0x4 ||| m = m) : Within m s (setSlotState a0 a1 t) := by
  unfold setSlotState
  repeat' (first | with_reducible assumption | ((with_reducible refine Mask.sub hm ?_); first | exact rfl | (simp only [pageBit_ser]; exact rfl)) | with_reducible apply setReg_within | with_reducible apply setI_within | with_reducible exact Within.refl | intro _ | split | dsimp only)

theorem markInvalid_within {m : Nat} {s t : State} (h : Within m s t) (a0 : Nat) (a1 : Nat) (hm : 0x20000020000004 ||| m = m) : Within m s (markInvalid a0 a1 t) := by
  unfold markInvalid
  repeat' (first | with_reducible assumption | ((with_reducible refine Mask.sub hm ?_); first | exact rfl | (simp only [pageBit_ser]; exact rfl)) | with_reducible apply setReg_within | with_reducible apply raise_within | with_reducible apply setSlotState_within | with_reducible exact Within.refl | intro _ | split | dsimp only)

theorem showImage_within {m : Nat} {s t : State} (h : Within m s t) (a0 : Nat) (hm : 0x4 ||| m = m) : Within m s (showImage a0 t) := by
  unfold showImage
  repeat' (first | with_reducible assumption | ((with_reducible refine Mask.sub hm ?_); first | exact rfl | (simp only [pageBit_ser]; exact rfl)) | with_reducible apply setReg_within | with_reducible apply setI_within | with_reducible exact Within.refl | intro _ | split | dsimp only)

theorem clearImage_within {m : Nat} {s t : State} (h : Within m s t) (a0 : Nat) (hm : 0x400000000000 ||| m = m) : Within m s (clearImage a0 t) := by
  unfold clearImage
  repeat' (first | with_reducible assumption | ((with_reducible refine Mask.sub hm ?_); first | exact rfl | (simp only [pageBit_ser]; exact rfl)) | with_reducible apply setReg_within | with_reducible apply trimBlocks_within | with_reducible exact Within.refl | intro _ | split | dsimp only)

theorem copyImage_within {m : Nat} {s t : State} (h : Within m s t) (a0 : Nat) (a1 : Nat) (a2 : Nat) (hm : 0x400000000000 ||| m = m) : Within m s (copyImage a0 a1 a2 t) := by
  unfold copyImage
  repeat' (first | with_reducible assumption | ((with_reducible refine Mask.sub hm ?_); first | exact rfl | (simp only [pageBit_ser]; exact rfl)) | with_reducible apply setReg_within | with_reducible apply setBlock_within | with_reducible apply clearImage_within | with_reducible apply Within.foldl | with_reducible exact Within.refl | intro _ | split | dsimp only)

theorem runLoadSlot_within {m : Nat} {s t : State} (h : Within m s t) (a0 : Outstanding) (hm : 0x20400034000824 ||| m = m) : Within m s (runLoadSlot a0 t) := by
  unfold runLoadSlot
  repeat' (first | with_reducible assumption | ((with_reducible refine Mask.sub hm ?_); first | exact rfl | (simp only [pageBit_ser]; exact rfl)) | with_reducible apply setReg_within | with_reducible apply done_within | with_reducible apply setSlotState_within | with_reducible apply clearImage_within | with_reducible exact Within.refl | intro _ | split | dsimp only)

theorem execLoadSlot_within {m : Nat} {s t u : State} (h : Within m s t) (a0 : CmdSrc) (hm : 0x20400034000824 ||| m = m) (e : execLoadSlot a0 t = .next u) : Within m s u := by
  unfold execLoadSlot at e
  try dsimp only at e
  repeat' split at e
  all_goals (cases e; repeat' (first | with_reducible assumption | ((with_reducible refine Mask.sub hm ?_); first | exact rfl | (simp only [pageBit_ser]; exact rfl)) | with_reducible apply setReg_within | with_reducible apply issue_within | with_reducible apply runLoadSlot_within | with_reducible exact Within.refl | intro _ | split | dsimp only))

theorem runEpfwImport_within {m : Nat} {s t : State} (h : Within m s t) (a0 : Outstanding) (hm : 0x20400034000820 ||| m = m) : Within m s (runEpfwImport a0 t) := by
  unfold runEpfwImport
  repeat' (first | with_reducible assumption | ((with_reducible refine Mask.sub hm ?_); first | exact rfl | (simp only [pageBit_ser]; exact rfl)) | with_reducible apply setReg_within | with_reducible apply done_within | with_reducible apply clearImage_within | with_reducible exact Within.refl | intro _ | split | dsimp only)

theorem execEpfwImport_within {m : Nat} {s t u : State} (h : Within m s t) (a0 : CmdSrc) (hm : 0x20400034000820 ||| m = m) (e : execEpfwImport a0 t = .next u) : Within m s u := by
  unfold execEpfwImport at e
  try dsimp only at e
  repeat' split at e
  all_goals (cases e; repeat' (first | with_reducible assumption | ((with_reducible refine Mask.sub hm ?_); first | exact rfl | (simp only [pageBit_ser]; exact rfl)) | with_reducible apply setReg_within | with_reducible apply issue_within | with_reducible apply runEpfwImport_within | with_reducible exact Within.refl | intro _ | split | dsimp only))

theorem runEpfwDelete_within {m : Nat} {s t : State} (h : Within m s t) (a0 : Outstanding) (hm : 0x20400034000820 ||| m = m) : Within m s (runEpfwDelete a0 t) := by
  unfold runEpfwDelete
  repeat' (first | with_reducible assumption | ((with_reducible refine Mask.sub hm ?_); first | exact rfl | (simp only [pageBit_ser]; exact rfl)) | with_reducible apply setReg_within | with_reducible apply done_within | with_reducible apply clearImage_within | with_reducible exact Within.refl | intro _ | split | dsimp only)

theorem execEpfwDelete_within {m : Nat} {s t u : State} (h : Within m s t) (a0 : CmdSrc) (hm : 0x20400034000820 ||| m = m) (e : execEpfwDelete a0 t = .next u) : Within m s u := by
  unfold execEpfwDelete at e
  try dsimp only at e
  repeat' split at e
  all_goals (cases e; repeat' (first | with_reducible assumption | ((with_reducible refine Mask.sub hm ?_); first | exact rfl | (simp only [pageBit_ser]; exact rfl)) | with_reducible apply setReg_within | with_reducible apply issue_within | with_reducible apply runEpfwDelete_within | with_reducible exact Within.refl | intro _ | split | dsimp only))

theorem finishLoad_within {m : Nat} {s t : State} (h : Within m s t) (a0 : Outstanding) (hm : 0x2040003c000824 ||| m = m) : Within m s (finishLoad a0 t) := by
  unfold finishLoad
  repeat' (first | with_reducible assumption | ((with_reducible refine Mask.sub hm ?_); first | exact rfl | (simp only [pageBit_ser]; exact rfl)) | with_reducible apply setReg_within | with_reducible apply showImage_within | with_reducible apply copyImage_within | with_reducible apply setSlotState_within | with_reducible apply markInvalid_within | with_reducible apply done_within | with_reducible apply logEvent_within | with_reducible exact Within.refl | intro _ | split | dsimp only)

theorem finishImport_within {m : Nat} {s t : State} (h : Within m s t) (a0 : Outstanding) (hm : 0x2040003c000820 ||| m = m) : Within m s (finishImport a0 t) := by
  unfold finishImport
  repeat' (first | with_reducible assumption | ((with_reducible refine Mask.sub hm ?_); first | exact rfl | (simp only [pageBit_ser]; exact rfl)) | with_reducible apply setReg_within | with_reducible apply copyImage_within | with_reducible apply clearImage_within | with_reducible apply done_within | with_reducible apply logEvent_within | with_reducible exact Within.refl | intro _ | split | dsimp only)

theorem loadReset_within {m : Nat} {s t : State} (h : Within m s t) (hm : 0x4 ||| m = m) : Within m s (loadReset t) := by
  unfold loadReset
  repeat' (first | with_reducible assumption | ((with_reducible refine Mask.sub hm ?_); first | exact rfl | (simp only [pageBit_ser]; exact rfl)) | with_reducible apply setReg_within | with_reducible apply setSlotState_within | with_reducible exact Within.refl | intro _ | split | dsimp only)

theorem runVerifySlot_within {m : Nat} {s t : State} (h : Within m s t) (a0 : Outstanding) (hm : 0x20000034000804 ||| m = m) : Within m s (runVerifySlot a0 t) := by
  unfold runVerifySlot
  repeat' (first | with_reducible assumption | ((with_reducible refine Mask.sub hm ?_); first | exact rfl | (simp only [pageBit_ser]; exact rfl)) | with_reducible apply setReg_within | with_reducible apply done_within | with_reducible exact Within.refl | intro _ | split | dsimp only)

theorem execVerifySlot_within {m : Nat} {s t u : State} (h : Within m s t) (a0 : CmdSrc) (hm : 0x20000034000804 ||| m = m) (e : execVerifySlot a0 t = .next u) : Within m s u := by
  unfold execVerifySlot at e
  try dsimp only at e
  repeat' split at e
  all_goals (cases e; repeat' (first | with_reducible assumption | ((with_reducible refine Mask.sub hm ?_); first | exact rfl | (simp only [pageBit_ser]; exact rfl)) | with_reducible apply setReg_within | with_reducible apply issue_within | with_reducible apply runVerifySlot_within | with_reducible exact Within.refl | intro _ | split | dsimp only))

theorem finishVerify_within {m : Nat} {s t : State} (h : Within m s t) (a0 : Outstanding) (hm : 0x20000034000804 ||| m = m) : Within m s (finishVerify a0 t) := by
  unfold finishVerify
  repeat' (first | with_reducible assumption | ((with_reducible refine Mask.sub hm ?_); first | exact rfl | (simp only [pageBit_ser]; exact rfl)) | with_reducible apply setReg_within | with_reducible apply done_within | with_reducible apply markInvalid_within | with_reducible apply setSlotState_within | with_reducible exact Within.refl | intro _ | split | dsimp only)

end Sys2Proof.Machine
end

