-- ==== Sys2Proof/Laws/WithinJoin.lean ====
section
/-! SUPPORT. Sys2Proof/Laws/WithinJoin.lean: the parts of a state that the operations of Machine/Join.lean may change. -/
namespace Sys2Proof.Machine

theorem drawNonce_within {m : Nat} {s t : State} (h : Within m s t) (a0 : Nat) (hm : 0x8000000040000 ||| m = m) : Within m s (drawNonce a0 t).2 := by
  induction a0 generalizing t with
  | zero =>
    unfold drawNonce
    repeat' (first | with_reducible assumption | with_reducible apply ih | ((with_reducible refine Mask.sub hm ?_); first | exact rfl | (simp only [pageBit_ser]; exact rfl)) | with_reducible apply setReg_within | with_reducible apply randBytes_within | (with_reducible refine randBytes_within_eq (by assumption) ?_ ?_) | with_reducible exact Within.refl | intro _ | split | dsimp only)
  | succ _ ih =>
    unfold drawNonce
    repeat' (first | with_reducible assumption | with_reducible apply ih | ((with_reducible refine Mask.sub hm ?_); first | exact rfl | (simp only [pageBit_ser]; exact rfl)) | with_reducible apply setReg_within | with_reducible apply randBytes_within | (with_reducible refine randBytes_within_eq (by assumption) ?_ ?_) | with_reducible exact Within.refl | intro _ | split | dsimp only)

theorem drawNonce_within_eq {m : Nat} {s t u : State} {a0 : Nat} {y0} (e : drawNonce a0 t = (y0, u)) (h : Within m s t) (hm : 0x8000000040000 ||| m = m) : Within m s u := by
  have k := drawNonce_within h a0 hm
  rw [e] at k
  exact k

theorem solicitTadj_within {m : Nat} {s t : State} (h : Within m s t) (a0 : Nat) (a1 : Int) (hm : 0x800000000 ||| m = m) : Within m s (solicitTadj a0 a1 t) := by
  have b35 := Mask.has (i := 35) hm rfl
  unfold solicitTadj
  repeat' (first | with_reducible assumption | ((with_reducible refine Mask.sub hm ?_); first | exact rfl | (simp only [pageBit_ser]; exact rfl)) | with_reducible apply setReg_within | with_reducible exact Within.refl | ((with_reducible refine Within.upd ?_ (.inl rfl) (.inl rfl) (.inl rfl) (.inl rfl) (.inl rfl) (.inl rfl) (.inl rfl) (.inl rfl) (.inl rfl) (.inl rfl) (.inl rfl) (.inr b35) (.inl rfl) (.inl rfl) (.inl rfl) (.inl rfl) (.inl rfl) (.inl rfl) (.inl rfl) (.inl rfl) (.inl rfl) (.inl rfl) (.inl rfl) (.inl rfl) (.inl rfl) (.inl rfl) (.inl rfl) (.inl rfl) (.inl rfl) (.inl rfl)); first | with_reducible assumption | ((with_reducible refine Mask.sub hm ?_); first | exact rfl | (simp only [pageBit_ser]; exact rfl)) | with_reducible apply setReg_within | with_reducible exact Within.refl | split) | intro _ | split | dsimp only)

theorem joinAnswer_within {m : Nat} {s t : State} (h : Within m s t) (a0 : FrameKind) (a1 : Nat) (a2 : Nat) (a3 : FrameIn) (a4 : Option Nat) (a5 : List Byte) (hm : 0x80800000000 ||| m = m) : Within m s (joinAnswer a0 a1 a2 a3 a4 a5 t) := by
  unfold joinAnswer
  repeat' (first | with_reducible assumption | ((with_reducible refine Mask.sub hm ?_); first | exact rfl | (simp only [pageBit_ser]; exact rfl)) | with_reducible apply setReg_within | with_reducible apply solicitTadj_within | with_reducible apply addFrame_within | with_reducible exact Within.refl | intro _ | split | dsimp only)

theorem deferJoin_within {m : Nat} {s t : State} (h : Within m s t) (a0 : FrameIn) (a1 : Option Nat) (hm : 0x20080820008000 ||| m = m) : Within m s (deferJoin a0 a1 t) := by
  unfold deferJoin
  repeat' (first | with_reducible assumption | ((with_reducible refine Mask.sub hm ?_); first | exact rfl | (simp only [pageBit_ser]; exact rfl)) | with_reducible apply setReg_within | with_reducible apply raise_within | with_reducible apply count_within | with_reducible apply joinAnswer_within | with_reducible apply setMac_within | with_reducible exact Within.refl | intro _ | split | dsimp only)

theorem reserveSlot_within {m : Nat} {s t : State} (h : Within m s t) (a0 : Nat) (a1 : Nat) (a2 : FrameIn) (a3 : Nat) (hm : 0x2088082001a200 ||| m = m) : Within m s (reserveSlot a0 a1 a2 a3 t) := by
  unfold reserveSlot
  repeat' (first | with_reducible assumption | ((with_reducible refine Mask.sub hm ?_); first | exact rfl | (simp only [pageBit_ser]; exact rfl)) | with_reducible apply setReg_within | with_reducible apply joinAnswer_within | with_reducible apply setAssoc_within | with_reducible apply clearRelays_within | with_reducible exact Within.refl | intro _ | split | dsimp only)

theorem joinSolicit_within {m : Nat} {s t : State} (h : Within m s t) (a0 : FrameIn) (hm : 0x2888082005a200 ||| m = m) : Within m s (joinSolicit a0 t) := by
  unfold joinSolicit
  repeat' (first | with_reducible assumption | ((with_reducible refine Mask.sub hm ?_); first | exact rfl | (simp only [pageBit_ser]; exact rfl)) | with_reducible apply setReg_within | with_reducible apply malformed_within | with_reducible apply deferJoin_within | with_reducible apply drawNonce_within | with_reducible apply reserveSlot_within | (with_reducible refine drawNonce_within_eq (by assumption) ?_ ?_) | with_reducible exact Within.refl | intro _ | split | dsimp only)

theorem execJoinSolicit_within {m : Nat} {s t u : State} (h : Within m s t) (a0 : BurstId) (hm : 0x2888882005a200 ||| m = m) (e : execJoinSolicit a0 t = .next u) : Within m s u := by
  unfold execJoinSolicit at e
  try dsimp only at e
  repeat' split at e
  all_goals (cases e; repeat' (first | with_reducible assumption | ((with_reducible refine Mask.sub hm ?_); first | exact rfl | (simp only [pageBit_ser]; exact rfl)) | with_reducible apply setReg_within | with_reducible apply onFrame_within | with_reducible apply joinSolicit_within | with_reducible exact Within.refl | intro _ | split | dsimp only))

theorem rejectJoin_within {m : Nat} {s t : State} (h : Within m s t) (a0 : Nat) (a1 : Nat) (a2 : Nat) (a3 : FrameIn) (a4 : JoinSt) (hm : 0x2088082000a200 ||| m = m) : Within m s (rejectJoin a0 a1 a2 a3 a4 t) := by
  unfold rejectJoin
  repeat' (first | with_reducible assumption | ((with_reducible refine Mask.sub hm ?_); first | exact rfl | (simp only [pageBit_ser]; exact rfl)) | with_reducible apply setReg_within | with_reducible apply setAssoc_within | with_reducible apply count_within | with_reducible apply joinAnswer_within | with_reducible exact Within.refl | intro _ | split | dsimp only)

theorem refuseJoin_within {m : Nat} {s t : State} (h : Within m s t) (a0 : Nat) (a1 : Nat) (a2 : FrameIn) (a3 : JoinSt) (hm : 0x2088082000a200 ||| m = m) : Within m s (refuseJoin a0 a1 a2 a3 t) := by
  unfold refuseJoin
  repeat' (first | with_reducible assumption | ((with_reducible refine Mask.sub hm ?_); first | exact rfl | (simp only [pageBit_ser]; exact rfl)) | with_reducible apply setReg_within | with_reducible apply rejectJoin_within | with_reducible exact Within.refl | intro _ | split | dsimp only)

theorem acceptJoin_within {m : Nat} {s t : State} (h : Within m s t) (a0 : Nat) (a1 : Nat) (a2 : FrameIn) (a3 : JoinSt) (a4 : Nat) (hm : 0x28b8483425ba00 ||| m = m) : Within m s (acceptJoin a0 a1 a2 a3 a4 t) := by
  unfold acceptJoin
  repeat' (first | with_reducible assumption | ((with_reducible refine Mask.sub hm ?_); first | exact rfl | (simp only [pageBit_ser]; exact rfl)) | with_reducible apply setReg_within | with_reducible apply runJob_within | with_reducible apply startEnd_within | with_reducible apply setAssoc_within | with_reducible apply joinAnswer_within | (with_reducible refine runJob_within_eq (by assumption) ?_ ?_) | with_reducible exact Within.refl | intro _ | split | dsimp only)

theorem forwardJoin_within {m : Nat} {s t : State} (h : Within m s t) (a0 : Nat) (a1 : FrameIn) (a2 : JoinSt) (hm : 0x2088002000a200 ||| m = m) : Within m s (forwardJoin a0 a1 a2 t) := by
  unfold forwardJoin
  repeat' (first | with_reducible assumption | ((with_reducible refine Mask.sub hm ?_); first | exact rfl | (simp only [pageBit_ser]; exact rfl)) | with_reducible apply setReg_within | with_reducible apply setAssoc_within | with_reducible apply addFrame_within | with_reducible exact Within.refl | intro _ | split | dsimp only)

theorem judgeJoin_within {m : Nat} {s t : State} (h : Within m s t) (a0 : Nat) (a1 : Nat) (a2 : FrameIn) (a3 : JoinSt) (hm : 0x28b8483425ba00 ||| m = m) : Within m s (judgeJoin a0 a1 a2 a3 t) := by
  unfold judgeJoin
  repeat' (first | with_reducible assumption | ((with_reducible refine Mask.sub hm ?_); first | exact rfl | (simp only [pageBit_ser]; exact rfl)) | with_reducible apply setReg_within | with_reducible apply setAssoc_within | with_reducible apply runJob_within | with_reducible apply refuseJoin_within | with_reducible apply rejectJoin_within | with_reducible apply acceptJoin_within | (with_reducible refine runJob_within_eq (by assumption) ?_ ?_) | with_reducible exact Within.refl | intro _ | split | dsimp only)

theorem joinReq_within {m : Nat} {s t : State} (h : Within m s t) (a0 : FrameIn) (hm : 0x28b8483425ba00 ||| m = m) : Within m s (joinReq a0 t) := by
  unfold joinReq
  repeat' (first | with_reducible assumption | ((with_reducible refine Mask.sub hm ?_); first | exact rfl | (simp only [pageBit_ser]; exact rfl)) | with_reducible apply setReg_within | with_reducible apply malformed_within | with_reducible apply judgeJoin_within | with_reducible apply refuseJoin_within | with_reducible apply forwardJoin_within | with_reducible exact Within.refl | intro _ | split | dsimp only)

theorem execJoinReq_within {m : Nat} {s t u : State} (h : Within m s t) (a0 : BurstId) (hm : 0x28b8c83425ba00 ||| m = m) (e : execJoinReq a0 t = .next u) : Within m s u := by
  unfold execJoinReq at e
  try dsimp only at e
  repeat' split at e
  all_goals (cases e; repeat' (first | with_reducible assumption | ((with_reducible refine Mask.sub hm ?_); first | exact rfl | (simp only [pageBit_ser]; exact rfl)) | with_reducible apply setReg_within | with_reducible apply onFrame_within | with_reducible apply joinReq_within | with_reducible exact Within.refl | intro _ | split | dsimp only))

theorem freeJoining_within {m : Nat} {s t : State} (h : Within m s t) (a0 : Nat) (hm : 0x2088002000a200 ||| m = m) : Within m s (freeJoining a0 t) := by
  unfold freeJoining
  repeat' (first | with_reducible assumption | ((with_reducible refine Mask.sub hm ?_); first | exact rfl | (simp only [pageBit_ser]; exact rfl)) | with_reducible apply setReg_within | with_reducible apply setAssoc_within | with_reducible apply count_within | with_reducible apply setMac_within | with_reducible exact Within.refl | intro _ | split | dsimp only)

theorem execJoiningExpiry_within {m : Nat} {s t u : State} (h : Within m s t) (a0 : CtxIndex) (hm : 0x2088002000a200 ||| m = m) (e : execJoiningExpiry a0 t = .next u) : Within m s u := by
  unfold execJoiningExpiry at e
  try dsimp only at e
  repeat' split at e
  all_goals (cases e; repeat' (first | with_reducible assumption | ((with_reducible refine Mask.sub hm ?_); first | exact rfl | (simp only [pageBit_ser]; exact rfl)) | with_reducible apply setReg_within | with_reducible apply freeJoining_within | with_reducible exact Within.refl | intro _ | split | dsimp only))

theorem acceptedExpiry_within {m : Nat} {s t : State} (h : Within m s t) (a0 : Nat) (hm : 0x20a8082021b200 ||| m = m) : Within m s (acceptedExpiry a0 t) := by
  unfold acceptedExpiry
  repeat' (first | with_reducible assumption | ((with_reducible refine Mask.sub hm ?_); first | exact rfl | (simp only [pageBit_ser]; exact rfl)) | with_reducible apply setReg_within | with_reducible apply hostEvent_within | with_reducible apply raise_within | with_reducible apply freeJoining_within | with_reducible apply clearRelays_within | with_reducible apply freeMaps_within | with_reducible apply dropFrames_within | with_reducible exact Within.refl | intro _ | split | dsimp only)

theorem execAcceptedExpiry_within {m : Nat} {s t u : State} (h : Within m s t) (a0 : CtxIndex) (hm : 0x20a8082021b200 ||| m = m) (e : execAcceptedExpiry a0 t = .next u) : Within m s u := by
  unfold execAcceptedExpiry at e
  try dsimp only at e
  repeat' split at e
  all_goals (cases e; repeat' (first | with_reducible assumption | ((with_reducible refine Mask.sub hm ?_); first | exact rfl | (simp only [pageBit_ser]; exact rfl)) | with_reducible apply setReg_within | with_reducible apply acceptedExpiry_within | with_reducible exact Within.refl | intro _ | split | dsimp only))

theorem supervise_within {m : Nat} {s t : State} (h : Within m s t) (a0 : Nat) (hm : 0x20a8483425ba00 ||| m = m) : Within m s (supervise a0 t) := by
  unfold supervise
  repeat' (first | with_reducible assumption | ((with_reducible refine Mask.sub hm ?_); first | exact rfl | (simp only [pageBit_ser]; exact rfl)) | with_reducible apply setReg_within | with_reducible apply finishEnd_within | with_reducible apply count_within | with_reducible exact Within.refl | intro _ | split | dsimp only)

theorem execSupervisionTimeout_within {m : Nat} {s t u : State} (h : Within m s t) (a0 : CtxIndex) (hm : 0x20a8483425ba00 ||| m = m) (e : execSupervisionTimeout a0 t = .next u) : Within m s u := by
  unfold execSupervisionTimeout at e
  try dsimp only at e
  repeat' split at e
  all_goals (cases e; repeat' (first | with_reducible assumption | ((with_reducible refine Mask.sub hm ?_); first | exact rfl | (simp only [pageBit_ser]; exact rfl)) | with_reducible apply setReg_within | with_reducible apply supervise_within | with_reducible exact Within.refl | intro _ | split | dsimp only))

theorem parentLost_within {m : Nat} {s t : State} (h : Within m s t) (hm : 0x20880020012200 ||| m = m) : Within m s (parentLost t) := by
  unfold parentLost
  repeat' (first | with_reducible assumption | ((with_reducible refine Mask.sub hm ?_); first | exact rfl | (simp only [pageBit_ser]; exact rfl)) | with_reducible apply setReg_within | with_reducible apply raise_within | with_reducible apply setB_within | with_reducible apply setF_within | with_reducible apply setParent_within | with_reducible exact Within.refl | intro _ | split | dsimp only)

theorem execLeave_within {m : Nat} {s t u : State} (h : Within m s t) (hm : 0x20a8483425ba00 ||| m = m) (e : execLeave t = .next u) : Within m s u := by
  unfold execLeave at e
  try dsimp only at e
  repeat' split at e
  all_goals (cases e; repeat' (first | with_reducible assumption | ((with_reducible refine Mask.sub hm ?_); first | exact rfl | (simp only [pageBit_ser]; exact rfl)) | with_reducible apply setReg_within | with_reducible apply takeElem_within | with_reducible apply parentLost_within | with_reducible apply finishEnd_within | (with_reducible refine takeElem_within_eq (by assumption) ?_ ?_) | with_reducible exact Within.refl | intro _ | split | dsimp only))

theorem execLeavingExpiry_within {m : Nat} {s t u : State} (h : Within m s t) (a0 : CtxIndex) (hm : 0x20a8483425ba00 ||| m = m) (e : execLeavingExpiry a0 t = .next u) : Within m s u := by
  unfold execLeavingExpiry at e
  try dsimp only at e
  repeat' split at e
  all_goals (cases e; repeat' (first | with_reducible assumption | ((with_reducible refine Mask.sub hm ?_); first | exact rfl | (simp only [pageBit_ser]; exact rfl)) | with_reducible apply setReg_within | with_reducible apply finishEnd_within | with_reducible exact Within.refl | intro _ | split | dsimp only))

theorem execRecordEccFault_within {m : Nat} {s t u : State} (h : Within m s t) (a0 : CtxIndex) (hm : 0x20a8483425ba08 ||| m = m) (e : execRecordEccFault a0 t = .next u) : Within m s u := by
  unfold execRecordEccFault at e
  try dsimp only at e
  repeat' split at e
  all_goals (cases e; repeat' (first | with_reducible assumption | ((with_reducible refine Mask.sub hm ?_); first | exact rfl | (simp only [pageBit_ser]; exact rfl)) | with_reducible apply setReg_within | with_reducible apply finishEnd_within | with_reducible apply raise_within | with_reducible apply diagReport_within | with_reducible exact Within.refl | intro _ | split | dsimp only))

theorem execRekeyTrigger_within {m : Nat} {s t u : State} (h : Within m s t) (a0 : CtxIndex) (hm : 0x2898002004a200 ||| m = m) (e : execRekeyTrigger a0 t = .next u) : Within m s u := by
  unfold execRekeyTrigger at e
  try dsimp only at e
  repeat' split at e
  all_goals (cases e; repeat' (first | with_reducible assumption | ((with_reducible refine Mask.sub hm ?_); first | exact rfl | (simp only [pageBit_ser]; exact rfl)) | with_reducible apply setReg_within | with_reducible apply setMac_within | with_reducible apply startRekey_within | with_reducible exact Within.refl | intro _ | split | dsimp only))

theorem rekeyRetry_within {m : Nat} {s t : State} (h : Within m s t) (a0 : Nat) (hm : 0x20a8483425ba00 ||| m = m) : Within m s (rekeyRetry a0 t) := by
  unfold rekeyRetry
  repeat' (first | with_reducible assumption | ((with_reducible refine Mask.sub hm ?_); first | exact rfl | (simp only [pageBit_ser]; exact rfl)) | with_reducible apply setReg_within | with_reducible apply setMac_within | with_reducible apply ownFrame_within | with_reducible apply setAssoc_within | with_reducible apply startEnd_within | with_reducible exact Within.refl | intro _ | split | dsimp only)

theorem execRekeyRetryExpiry_within {m : Nat} {s t u : State} (h : Within m s t) (a0 : CtxIndex) (hm : 0x20a8483425ba00 ||| m = m) (e : execRekeyRetryExpiry a0 t = .next u) : Within m s u := by
  unfold execRekeyRetryExpiry at e
  try dsimp only at e
  repeat' split at e
  all_goals (cases e; repeat' (first | with_reducible assumption | ((with_reducible refine Mask.sub hm ?_); first | exact rfl | (simp only [pageBit_ser]; exact rfl)) | with_reducible apply setReg_within | with_reducible apply rekeyRetry_within | with_reducible exact Within.refl | intro _ | split | dsimp only))

theorem execPrevKeyExpiry_within {m : Nat} {s t u : State} (h : Within m s t) (a0 : CtxIndex) (hm : 0x2088002000a200 ||| m = m) (e : execPrevKeyExpiry a0 t = .next u) : Within m s u := by
  unfold execPrevKeyExpiry at e
  try dsimp only at e
  repeat' split at e
  all_goals (cases e; repeat' (first | with_reducible assumption | ((with_reducible refine Mask.sub hm ?_); first | exact rfl | (simp only [pageBit_ser]; exact rfl)) | with_reducible apply setReg_within | with_reducible apply setCtx_within | with_reducible exact Within.refl | intro _ | split | dsimp only))

end Sys2Proof.Machine
end

