-- ==== Sys2Proof/Laws/WithinNcal.lean ====
section
/-! SUPPORT. Sys2Proof/Laws/WithinNcal.lean: the parts of a state that the operations of Machine/Ncal.lean may change. -/
namespace Sys2Proof.Machine

theorem setCal_within {m : Nat} {s t : State} (h : Within m s t) (a0 : Nat) (a1 : CalSt) (hm : 0x1000000000 ||| m = m) : Within m s (setCal a0 a1 t) := by
  have b36 := Mask.has (i := 36) hm rfl
  unfold setCal
  repeat' (first | with_reducible assumption | ((with_reducible refine Mask.sub hm ?_); first | exact rfl | (simp only [pageBit_ser]; exact rfl)) | with_reducible apply setReg_within | with_reducible exact Within.refl | ((with_reducible refine Within.upd ?_ (.inl rfl) (.inl rfl) (.inl rfl) (.inl rfl) (.inl rfl) (.inl rfl) (.inl rfl) (.inl rfl) (.inl rfl) (.inl rfl) (.inl rfl) (.inl rfl) (.inr b36) (.inl rfl) (.inl rfl) (.inl rfl) (.inl rfl) (.inl rfl) (.inl rfl) (.inl rfl) (.inl rfl) (.inl rfl) (.inl rfl) (.inl rfl) (.inl rfl) (.inl rfl) (.inl rfl) (.inl rfl) (.inl rfl) (.inl rfl)); first | with_reducible assumption | ((with_reducible refine Mask.sub hm ?_); first | exact rfl | (simp only [pageBit_ser]; exact rfl)) | with_reducible apply setReg_within | with_reducible exact Within.refl | split) | intro _ | split | dsimp only)

theorem ncalPending_within {m : Nat} {s t : State} (h : Within m s t) (hm : 0x20000 ||| m = m) : Within m s (ncalPending t) := by
  unfold ncalPending
  repeat' (first | with_reducible assumption | ((with_reducible refine Mask.sub hm ?_); first | exact rfl | (simp only [pageBit_ser]; exact rfl)) | with_reducible apply setReg_within | with_reducible apply setB_within | with_reducible exact Within.refl | intro _ | split | dsimp only)

theorem anySettle_within {m : Nat} {s t : State} (h : Within m s t) (hm : 0x20000 ||| m = m) : Within m s (anySettle t) := by
  unfold anySettle
  repeat' (first | with_reducible assumption | ((with_reducible refine Mask.sub hm ?_); first | exact rfl | (simp only [pageBit_ser]; exact rfl)) | with_reducible apply setReg_within | with_reducible apply setB_within | with_reducible exact Within.refl | intro _ | split | dsimp only)

theorem dropEntries_within {m : Nat} {s t : State} (h : Within m s t) (a0 : Nat) (a1 : NcalEntry → Bool) (hm : 0x20001020020000 ||| m = m) : Within m s (dropEntries a0 a1 t) := by
  unfold dropEntries
  repeat' (first | with_reducible assumption | ((with_reducible refine Mask.sub hm ?_); first | exact rfl | (simp only [pageBit_ser]; exact rfl)) | with_reducible apply setReg_within | with_reducible apply raise_within | with_reducible apply setCal_within | with_reducible exact Within.refl | intro _ | split | dsimp only)

theorem pruneCands_within {m : Nat} {s t : State} (h : Within m s t) (a0 : Nat) (hm : 0x1000000000 ||| m = m) : Within m s (pruneCands a0 t) := by
  unfold pruneCands
  repeat' (first | with_reducible assumption | ((with_reducible refine Mask.sub hm ?_); first | exact rfl | (simp only [pageBit_ser]; exact rfl)) | with_reducible apply setReg_within | with_reducible apply setCal_within | with_reducible exact Within.refl | intro _ | split | dsimp only)

theorem promote_within {m : Nat} {s t : State} (h : Within m s t) (a0 : Nat) (a1 : NcalEntry) (hm : 0x20001028020020 ||| m = m) : Within m s (promote a0 a1 t) := by
  unfold promote
  repeat' (first | with_reducible assumption | ((with_reducible refine Mask.sub hm ?_); first | exact rfl | (simp only [pageBit_ser]; exact rfl)) | with_reducible apply setReg_within | with_reducible apply raise_within | with_reducible apply setCal_within | with_reducible apply logPage_within | with_reducible apply count_within | with_reducible exact Within.refl | intro _ | split | dsimp only)

theorem promoteAll_within {m : Nat} {s t : State} (h : Within m s t) (a0 : Nat) (hm : 0x20001028020020 ||| m = m) : Within m s (promoteAll a0 t) := by
  unfold promoteAll
  repeat' (first | with_reducible assumption | ((with_reducible refine Mask.sub hm ?_); first | exact rfl | (simp only [pageBit_ser]; exact rfl)) | with_reducible apply setReg_within | with_reducible apply promote_within | with_reducible apply Within.foldl | with_reducible exact Within.refl | intro _ | split | dsimp only)

theorem mergeOnce_within {m : Nat} {s t : State} (h : Within m s t) (a0 : Nat) (hm : 0x20001020020000 ||| m = m) : Within m s (mergeOnce a0 t) := by
  unfold mergeOnce
  repeat' (first | with_reducible assumption | ((with_reducible refine Mask.sub hm ?_); first | exact rfl | (simp only [pageBit_ser]; exact rfl)) | with_reducible apply setReg_within | with_reducible apply raise_within | with_reducible apply setCal_within | with_reducible exact Within.refl | intro _ | split | dsimp only)

theorem settleCal_within {m : Nat} {s t : State} (h : Within m s t) (a0 : Nat) (hm : 0x20001028020020 ||| m = m) : Within m s (settleCal a0 t) := by
  unfold settleCal
  repeat' (first | with_reducible assumption | ((with_reducible refine Mask.sub hm ?_); first | exact rfl | (simp only [pageBit_ser]; exact rfl)) | with_reducible apply setReg_within | with_reducible apply dropEntries_within | with_reducible apply mergeOnce_within | with_reducible apply promoteAll_within | with_reducible apply pruneCands_within | with_reducible apply Within.foldl | with_reducible exact Within.refl | intro _ | split | dsimp only)

theorem impulse_within {m : Nat} {s t : State} (h : Within m s t) (a0 : Nat) (a1 : Nat) (a2 : Nat) (a3 : Nat) (a4 : Nat) (a5 : Nat) (hm : 0x20001028020020 ||| m = m) : Within m s (impulse a0 a1 a2 a3 a4 a5 t) := by
  unfold impulse
  repeat' (first | with_reducible assumption | ((with_reducible refine Mask.sub hm ?_); first | exact rfl | (simp only [pageBit_lpt, lptPage]; exact rfl)) | with_reducible apply setReg_within | with_reducible apply setCal_within | with_reducible apply settleCal_within | with_reducible exact Within.refl | intro _ | split | dsimp only)

theorem execImpulseDetected_within {m : Nat} {s t u : State} (h : Within m s t) (a0 : Port) (a1 : Fin 209715200) (a2 : Bool) (a3 : Fin 4096) (a4 : BitVec 8) (a5 : BitVec 11) (a6 : BitVec 27) (hm : 0x20001028020020 ||| m = m) (e : execImpulseDetected a0 a1 a2 a3 a4 a5 a6 t = .next u) : Within m s u := by
  unfold execImpulseDetected at e
  try dsimp only at e
  repeat' split at e
  all_goals (cases e; repeat' (first | with_reducible assumption | ((with_reducible refine Mask.sub hm ?_); first | exact rfl | (simp only [pageBit_ser]; exact rfl)) | with_reducible apply setReg_within | with_reducible apply impulse_within | with_reducible exact Within.refl | intro _ | split | dsimp only))

theorem predictionDue_within {m : Nat} {s t : State} (h : Within m s t) (a0 : Nat) (a1 : Bool) (a2 : Nat) (a3 : Bool) (hm : 0x20001028020020 ||| m = m) : Within m s (predictionDue a0 a1 a2 a3 t) := by
  unfold predictionDue
  repeat' (first | with_reducible assumption | ((with_reducible refine Mask.sub hm ?_); first | exact rfl | (simp only [pageBit_lpt, lptPage]; exact rfl)) | with_reducible apply setReg_within | with_reducible apply settleCal_within | with_reducible apply setCal_within | with_reducible exact Within.refl | intro _ | split | dsimp only)

theorem execPredictionDue_within {m : Nat} {s t u : State} (h : Within m s t) (p : Port) (c : Bool) (i : Fin 16) (o : Bool) (hm : 0x20001028020020 ||| m = m) (e : execPredictionDue p c i o t = .next u) : Within m s u := by
  unfold execPredictionDue at e
  obtain rfl := Host.Outcome.next.inj e
  exact predictionDue_within h _ _ _ _ (Mask.sub hm rfl)

theorem calStep_within {m : Nat} {s t : State} (h : Within m s t) (a0 : Nat) (a1 : Nat) (a2 : Nat) (hm : 0x20001028020020 ||| m = m) : Within m s (calStep a0 a1 a2 t) := by
  unfold calStep
  repeat' (first | with_reducible assumption | ((with_reducible refine Mask.sub hm ?_); first | exact rfl | (simp only [pageBit_ser]; exact rfl)) | with_reducible apply setReg_within | with_reducible apply setCal_within | with_reducible apply setF_within | with_reducible apply raise_within | with_reducible apply count_within | with_reducible apply logPage_within | with_reducible exact Within.refl | intro _ | split | dsimp only)

theorem settleEnd_within {m : Nat} {s t : State} (h : Within m s t) (a0 : Nat) (hm : 0x1000020000 ||| m = m) : Within m s (settleEnd a0 t) := by
  unfold settleEnd
  repeat' (first | with_reducible assumption | ((with_reducible refine Mask.sub hm ?_); first | exact rfl | (simp only [pageBit_ser]; exact rfl)) | with_reducible apply setReg_within | with_reducible apply anySettle_within | with_reducible apply setCal_within | with_reducible exact Within.refl | intro _ | split | dsimp only)

theorem execSettleEnd_within {m : Nat} {s t u : State} (h : Within m s t) (a0 : Port) (hm : 0x1000020000 ||| m = m) (e : execSettleEnd a0 t = .next u) : Within m s u := by
  unfold execSettleEnd at e
  try dsimp only at e
  repeat' split at e
  all_goals (cases e; repeat' (first | with_reducible assumption | ((with_reducible refine Mask.sub hm ?_); first | exact rfl | (simp only [pageBit_ser]; exact rfl)) | with_reducible apply setReg_within | with_reducible apply settleEnd_within | with_reducible exact Within.refl | intro _ | split | dsimp only))

theorem clearCal_within {m : Nat} {s t : State} (h : Within m s t) (a0 : Nat) (hm : 0x1000000000 ||| m = m) : Within m s (clearCal a0 t) := by
  unfold clearCal
  repeat' (first | with_reducible assumption | ((with_reducible refine Mask.sub hm ?_); first | exact rfl | (simp only [pageBit_ser]; exact rfl)) | with_reducible apply setReg_within | with_reducible apply setCal_within | with_reducible exact Within.refl | intro _ | split | dsimp only)

theorem calBoundary_within {m : Nat} {s t : State} (h : Within m s t) (a0 : Nat) (hm : 0x20001020020000 ||| m = m) : Within m s (calBoundary a0 t) := by
  unfold calBoundary
  repeat' (first | with_reducible assumption | ((with_reducible refine Mask.sub hm ?_); first | exact rfl | (simp only [pageBit_ser]; exact rfl)) | with_reducible apply setReg_within | with_reducible apply setCal_within | with_reducible apply dropEntries_within | with_reducible exact Within.refl | intro _ | split | dsimp only)

theorem ncalBoundary_within {m : Nat} {s t : State} (h : Within m s t) (hm : 0x20001020020000 ||| m = m) : Within m s (ncalBoundary t) := by
  have b36 := Mask.has (i := 36) hm rfl
  unfold ncalBoundary
  repeat' (first | with_reducible assumption | ((with_reducible refine Mask.sub hm ?_); first | exact rfl | (simp only [pageBit_ser]; exact rfl)) | with_reducible apply setReg_within | with_reducible apply setB_within | with_reducible apply ncalPending_within | with_reducible apply anySettle_within | with_reducible apply calBoundary_within | with_reducible apply Within.foldl | with_reducible exact Within.refl | ((with_reducible refine Within.upd ?_ (.inl rfl) (.inl rfl) (.inl rfl) (.inl rfl) (.inl rfl) (.inl rfl) (.inl rfl) (.inl rfl) (.inl rfl) (.inl rfl) (.inl rfl) (.inl rfl) (.inr b36) (.inl rfl) (.inl rfl) (.inl rfl) (.inl rfl) (.inl rfl) (.inl rfl) (.inl rfl) (.inl rfl) (.inl rfl) (.inl rfl) (.inl rfl) (.inl rfl) (.inl rfl) (.inl rfl) (.inl rfl) (.inl rfl) (.inl rfl)); first | with_reducible assumption | ((with_reducible refine Mask.sub hm ?_); first | exact rfl | (simp only [pageBit_ser]; exact rfl)) | with_reducible apply setReg_within | with_reducible apply setB_within | with_reducible apply ncalPending_within | with_reducible apply anySettle_within | with_reducible apply calBoundary_within | with_reducible apply Within.foldl | with_reducible exact Within.refl | split) | intro _ | split | dsimp only)

theorem fixWindows_within {m : Nat} {s t : State} (h : Within m s t) (a0 : Nat) (hm : 0x1000000000 ||| m = m) : Within m s (fixWindows a0 t) := by
  have b36 := Mask.has (i := 36) hm rfl
  unfold fixWindows
  repeat' (first | with_reducible assumption | ((with_reducible refine Mask.sub hm ?_); first | exact rfl | (simp only [pageBit_ser]; exact rfl)) | with_reducible apply setReg_within | with_reducible exact Within.refl | ((with_reducible refine Within.upd ?_ (.inl rfl) (.inl rfl) (.inl rfl) (.inl rfl) (.inl rfl) (.inl rfl) (.inl rfl) (.inl rfl) (.inl rfl) (.inl rfl) (.inl rfl) (.inl rfl) (.inr b36) (.inl rfl) (.inl rfl) (.inl rfl) (.inl rfl) (.inl rfl) (.inl rfl) (.inl rfl) (.inl rfl) (.inl rfl) (.inl rfl) (.inl rfl) (.inl rfl) (.inl rfl) (.inl rfl) (.inl rfl) (.inl rfl) (.inl rfl)); first | with_reducible assumption | ((with_reducible refine Mask.sub hm ?_); first | exact rfl | (simp only [pageBit_ser]; exact rfl)) | with_reducible apply setReg_within | with_reducible exact Within.refl | split) | intro _ | split | dsimp only)

theorem deferBurst_within {m : Nat} {s t : State} (h : Within m s t) (hm : 0x20000020020000 ||| m = m) : Within m s (deferBurst t) := by
  unfold deferBurst
  repeat' (first | with_reducible assumption | ((with_reducible refine Mask.sub hm ?_); first | exact rfl | (simp only [pageBit_ser]; exact rfl)) | with_reducible apply setReg_within | with_reducible apply raise_within | with_reducible apply count_within | with_reducible exact Within.refl | intro _ | split | dsimp only)

theorem execNcalBlkReset_within {m : Nat} {s t u : State} (h : Within m s t) (hm : 0x20001034020800 ||| m = m) (e : execNcalBlkReset t = .next u) : Within m s u := by
  unfold execNcalBlkReset at e
  try dsimp only at e
  repeat' split at e
  all_goals (cases e; repeat' (first | with_reducible assumption | ((with_reducible refine Mask.sub hm ?_); first | exact rfl | (simp only [pageBit_ser]; exact rfl)) | with_reducible apply setReg_within | with_reducible apply setCal_within | with_reducible apply blkReset_within | with_reducible apply anySettle_within | with_reducible apply Within.foldl | with_reducible exact Within.refl | intro _ | split | dsimp only))

theorem ncalLatch_within {m : Nat} {s t : State} (h : Within m s t) (hm : 0x20000 ||| m = m) : Within m s (ncalLatch t) := by
  unfold ncalLatch
  repeat' (first | with_reducible assumption | ((with_reducible refine Mask.sub hm ?_); first | exact rfl | (simp only [pageBit_ser]; exact rfl)) | with_reducible apply setReg_within | with_reducible apply resetOffsets_within | with_reducible apply setF_within | with_reducible exact Within.refl | intro _ | split | dsimp only)

theorem execNcalSelWrite_within {m : Nat} {s t u : State} (h : Within m s t) (a0 : Word) (hm : 0x20000028020020 ||| m = m) (e : execNcalSelWrite a0 t = .next u) : Within m s u := by
  unfold execNcalSelWrite at e
  try dsimp only at e
  repeat' split at e
  all_goals (cases e; repeat' (first | with_reducible assumption | ((with_reducible refine Mask.sub hm ?_); first | exact rfl | (simp only [pageBit_ser]; exact rfl)) | with_reducible apply setReg_within | with_reducible apply ncalLatch_within | with_reducible apply writeFields_within | with_reducible exact Within.refl | intro _ | split | dsimp only))

theorem runClearPort_within {m : Nat} {s t : State} (h : Within m s t) (a0 : Outstanding) (hm : 0x20001034020800 ||| m = m) : Within m s (runClearPort a0 t) := by
  unfold runClearPort
  repeat' (first | with_reducible assumption | ((with_reducible refine Mask.sub hm ?_); first | exact rfl | (simp only [pageBit_ser]; exact rfl)) | with_reducible apply setReg_within | with_reducible apply done_within | with_reducible apply clearCal_within | with_reducible exact Within.refl | intro _ | split | dsimp only)

theorem execClearPort_within {m : Nat} {s t u : State} (h : Within m s t) (a0 : CmdSrc) (hm : 0x20001034020800 ||| m = m) (e : execClearPort a0 t = .next u) : Within m s u := by
  unfold execClearPort at e
  try dsimp only at e
  repeat' split at e
  all_goals (cases e; repeat' (first | with_reducible assumption | ((with_reducible refine Mask.sub hm ?_); first | exact rfl | (simp only [pageBit_ser]; exact rfl)) | with_reducible apply setReg_within | with_reducible apply issue_within | with_reducible apply runClearPort_within | with_reducible exact Within.refl | intro _ | split | dsimp only))

theorem runSnapshot_within {m : Nat} {s t : State} (h : Within m s t) (a0 : Outstanding) (hm : 0x20020036020800 ||| m = m) : Within m s (runSnapshot a0 t) := by
  unfold runSnapshot
  repeat' (first | with_reducible assumption | ((with_reducible refine Mask.sub hm ?_); first | exact rfl | (simp only [pageBit_ser]; exact rfl)) | with_reducible apply setReg_within | with_reducible apply done_within | with_reducible apply busWriteWords_within | with_reducible exact Within.refl | intro _ | split | dsimp only)

theorem execSnapshot_within {m : Nat} {s t u : State} (h : Within m s t) (a0 : CmdSrc) (hm : 0x20020036020800 ||| m = m) (e : execSnapshot a0 t = .next u) : Within m s u := by
  unfold execSnapshot at e
  try dsimp only at e
  repeat' split at e
  all_goals (cases e; repeat' (first | with_reducible assumption | ((with_reducible refine Mask.sub hm ?_); first | exact rfl | (simp only [pageBit_ser]; exact rfl)) | with_reducible apply setReg_within | with_reducible apply issue_within | with_reducible apply runSnapshot_within | with_reducible exact Within.refl | intro _ | split | dsimp only))

end Sys2Proof.Machine
end

