-- ==== Sys2Proof/Laws/WithinPorts.lean ====
section
/-! SUPPORT. Sys2Proof/Laws/WithinPorts.lean: the parts of a state that the operations of Machine/Ports.lean may change. -/
namespace Sys2Proof.Machine

theorem capPort_within {m : Nat} {s t : State} (h : Within m s t) (a0 : Nat) (hm : 0x20000020800000 ||| m = m) : Within m s (capPort a0 t) := by
  unfold capPort
  repeat' (first | with_reducible assumption | ((with_reducible refine Mask.sub hm ?_); first | exact rfl | (simp only [pageBit_lpt, lptPage]; exact rfl)) | with_reducible apply setReg_within | with_reducible apply setB_within | with_reducible apply raise_within | with_reducible exact Within.refl | intro _ | split | dsimp only)

theorem capPorts_within {m : Nat} {s t : State} (h : Within m s t) (hm : 0x20000020800000 ||| m = m) : Within m s (capPorts t) := by
  unfold capPorts
  repeat' (first | with_reducible assumption | ((with_reducible refine Mask.sub hm ?_); first | exact rfl | (simp only [pageBit_ser]; exact rfl)) | with_reducible apply setReg_within | with_reducible apply capPort_within | with_reducible apply Within.foldl | with_reducible exact Within.refl | intro _ | split | dsimp only)

theorem execLptDeclWrite_within {m : Nat} {s t u : State} (h : Within m s t) (n : Port) (value : Word) (hm : 0x20000028800020 ||| m = m) (e : execLptDeclWrite n value t = .next u) : Within m s u := by
  unfold execLptDeclWrite at e
  obtain rfl := Host.Outcome.next.inj e
  exact setF_within (writeFields_within h _ _ _ (Mask.sub hm rfl) (Mask.sub hm (by rw [pageBit_lpt]; rfl))) _ _ _ (Mask.sub hm (by rw [pageBit_lpt]; rfl))

theorem refreshChain_within {m : Nat} {s t : State} (h : Within m s t) (a0 : Nat) (hm : 0x800000 ||| m = m) : Within m s (refreshChain a0 t) := by
  unfold refreshChain
  repeat' (first | with_reducible assumption | ((with_reducible refine Mask.sub hm ?_); first | exact rfl | (simp only [pageBit_lpt, lptPage]; exact rfl)) | with_reducible apply setReg_within | with_reducible apply setB_within | with_reducible exact Within.refl | intro _ | split | dsimp only)

theorem undeclare_within {m : Nat} {s t : State} (h : Within m s t) (a0 : Nat) (hm : 0x20039035800800 ||| m = m) : Within m s (undeclare a0 t) := by
  unfold undeclare
  repeat' (first | with_reducible assumption | ((with_reducible refine Mask.sub hm ?_); first | exact rfl | (simp only [pageBit_lpt, lptPage]; exact rfl)) | with_reducible apply setReg_within | with_reducible apply clearCal_within | with_reducible apply complete_within | with_reducible apply completeAll_within | with_reducible exact Within.refl | intro _ | split | dsimp only)

theorem applyDecl_within {m : Nat} {s t : State} (h : Within m s t) (a0 : Nat) (hm : 0x20039235800800 ||| m = m) : Within m s (applyDecl a0 t) := by
  unfold applyDecl
  repeat' (first | with_reducible assumption | ((with_reducible refine Mask.sub hm ?_); first | exact rfl | (simp only [pageBit_lpt, lptPage]; exact rfl)) | with_reducible apply setReg_within | with_reducible apply setPort_within | with_reducible apply setF_within | with_reducible apply undeclare_within | with_reducible apply raise_within | with_reducible apply refreshChain_within | with_reducible apply capPort_within | with_reducible exact Within.refl | intro _ | split | dsimp only)

theorem applyDecls_within {m : Nat} {s t : State} (h : Within m s t) (hm : 0x20039235800800 ||| m = m) : Within m s (applyDecls t) := by
  unfold applyDecls
  repeat' (first | with_reducible assumption | ((with_reducible refine Mask.sub hm ?_); first | exact rfl | (simp only [pageBit_ser]; exact rfl)) | with_reducible apply setReg_within | with_reducible apply applyDecl_within | with_reducible apply Within.foldl | with_reducible exact Within.refl | intro _ | split | dsimp only)

theorem execPlugRemoved_within {m : Nat} {s t u : State} (h : Within m s t) (a0 : Fin 4) (e : execPlugRemoved a0 t = .next u) : Within m s u := by
  unfold execPlugRemoved at e
  try dsimp only at e
  repeat' split at e
  all_goals (cases e; repeat' (first | with_reducible assumption | with_reducible apply setReg_within | with_reducible exact Within.refl | intro _ | split | dsimp only))

theorem execSurge_within {m : Nat} {s t u : State} (h : Within m s t) (a0 : Port) (hm : 0x20000020800000 ||| m = m) (e : execSurge a0 t = .next u) : Within m s u := by
  unfold execSurge at e
  try dsimp only at e
  repeat' split at e
  all_goals (cases e; repeat' (first | with_reducible assumption | ((with_reducible refine Mask.sub hm ?_); first | exact rfl | (simp only [pageBit_lpt]; exact rfl)) | with_reducible apply setReg_within | with_reducible apply raise_within | with_reducible apply count_within | with_reducible exact Within.refl | intro _ | split | dsimp only))

theorem pruneOccs_within {m : Nat} {s t : State} (h : Within m s t) (hm : 0x2000000000 ||| m = m) : Within m s (pruneOccs t) := by
  have b37 := Mask.has (i := 37) hm rfl
  unfold pruneOccs
  repeat' (first | with_reducible assumption | ((with_reducible refine Mask.sub hm ?_); first | exact rfl | (simp only [pageBit_ser]; exact rfl)) | with_reducible apply setReg_within | with_reducible exact Within.refl | ((with_reducible refine Within.upd ?_ (.inl rfl) (.inl rfl) (.inl rfl) (.inl rfl) (.inl rfl) (.inl rfl) (.inl rfl) (.inl rfl) (.inl rfl) (.inl rfl) (.inl rfl) (.inl rfl) (.inl rfl) (.inr b37) (.inl rfl) (.inl rfl) (.inl rfl) (.inl rfl) (.inl rfl) (.inl rfl) (.inl rfl) (.inl rfl) (.inl rfl) (.inl rfl) (.inl rfl) (.inl rfl) (.inl rfl) (.inl rfl) (.inl rfl) (.inl rfl)); first | with_reducible assumption | ((with_reducible refine Mask.sub hm ?_); first | exact rfl | (simp only [pageBit_ser]; exact rfl)) | with_reducible apply setReg_within | with_reducible exact Within.refl | split) | intro _ | split | dsimp only)

theorem dwellBarred_within {m : Nat} {s t : State} (h : Within m s t) (n : Nat) (w : Wave) (ch : Nat) (hm : 0x2003a029804020 ||| m = m) : Within m s (dwellBarred n w ch t) := by
  have b37 := Mask.has (i := 37) hm rfl
  unfold dwellBarred
  extract_lets c x s1 s2
  have k1 : Within m s s1 := Within.upd (t := t) h (.inl rfl) (.inl rfl) (.inl rfl) (.inl rfl) (.inl rfl) (.inl rfl) (.inl rfl) (.inl rfl) (.inl rfl) (.inl rfl)
    (.inl rfl) (.inl rfl) (.inl rfl) (.inr b37) (.inl rfl) (.inl rfl) (.inl rfl) (.inl rfl) (.inl rfl) (.inl rfl) (.inl rfl) (.inl rfl) (.inl rfl) (.inl rfl)
    (.inl rfl) (.inl rfl) (.inl rfl) (.inl rfl) (.inl rfl) (.inl rfl)
  clear_value s1
  have k2 : Within m s s2 := setF_within k1 _ _ _ (Mask.sub hm (by rw [lptPage, pageBit_lpt]; rfl))
  clear_value s2
  split
  · exact logPage_within (raise_within (countN_within (stopPort_within k2 _ _ (Mask.sub hm rfl)) _ _ _ (Mask.sub hm rfl)) _ _ (Mask.sub hm rfl) (Mask.sub hm rfl)) _ _ _ (Mask.sub hm rfl)
  · exact k2

theorem execDwellBarred_within {m : Nat} {s t u : State} (h : Within m s t) (a0 : Port) (a1 : Wave) (a2 : Fin 61) (hm : 0x2003a029804020 ||| m = m) (e : execDwellBarred a0 a1 a2 t = .next u) : Within m s u := by
  unfold execDwellBarred at e
  try dsimp only at e
  repeat' split at e
  all_goals (cases e; repeat' (first | with_reducible assumption | ((with_reducible refine Mask.sub hm ?_); first | exact rfl | (simp only [pageBit_ser]; exact rfl)) | with_reducible apply setReg_within | with_reducible apply dwellBarred_within | with_reducible exact Within.refl | intro _ | split | dsimp only))

theorem execDwellClear_within {m : Nat} {s t u : State} (h : Within m s t) (a0 : Port) (a1 : Wave) (a2 : Fin 61) (hm : 0x2000000000 ||| m = m) (e : execDwellClear a0 a1 a2 t = .next u) : Within m s u := by
  have b37 := Mask.has (i := 37) hm rfl
  unfold execDwellClear at e
  try dsimp only at e
  repeat' split at e
  all_goals (cases e; repeat' (first | with_reducible assumption | ((with_reducible refine Mask.sub hm ?_); first | exact rfl | (simp only [pageBit_ser]; exact rfl)) | with_reducible apply setReg_within | with_reducible exact Within.refl | ((with_reducible refine Within.upd ?_ (.inl rfl) (.inl rfl) (.inl rfl) (.inl rfl) (.inl rfl) (.inl rfl) (.inl rfl) (.inl rfl) (.inl rfl) (.inl rfl) (.inl rfl) (.inl rfl) (.inl rfl) (.inr b37) (.inl rfl) (.inl rfl) (.inl rfl) (.inl rfl) (.inl rfl) (.inl rfl) (.inl rfl) (.inl rfl) (.inl rfl) (.inl rfl) (.inl rfl) (.inl rfl) (.inl rfl) (.inl rfl) (.inl rfl) (.inl rfl)); first | with_reducible assumption | ((with_reducible refine Mask.sub hm ?_); first | exact rfl | (simp only [pageBit_ser]; exact rfl)) | with_reducible apply setReg_within | with_reducible exact Within.refl | split) | intro _ | split | dsimp only))

theorem execBcnDwellSelWrite_within {m : Nat} {s t u : State} (h : Within m s t) (a0 : Word) (hm : 0x20000028004020 ||| m = m) (e : execBcnDwellSelWrite a0 t = .next u) : Within m s u := by
  unfold execBcnDwellSelWrite at e
  try dsimp only at e
  repeat' split at e
  all_goals (cases e; repeat' (first | with_reducible assumption | ((with_reducible refine Mask.sub hm ?_); first | exact rfl | (simp only [pageBit_ser]; exact rfl)) | with_reducible apply setReg_within | with_reducible apply writeFields_within | with_reducible apply setB_within | with_reducible apply setF_within | with_reducible exact Within.refl | intro _ | split | dsimp only))

theorem loseBeacon_within {m : Nat} {s t : State} (h : Within m s t) (hm : 0x20000020004000 ||| m = m) : Within m s (loseBeacon t) := by
  unfold loseBeacon
  repeat' (first | with_reducible assumption | ((with_reducible refine Mask.sub hm ?_); first | exact rfl | (simp only [pageBit_ser]; exact rfl)) | with_reducible apply setReg_within | with_reducible apply raise_within | with_reducible apply count_within | with_reducible exact Within.refl | intro _ | split | dsimp only)

theorem grantEnable_within {m : Nat} {s t : State} (h : Within m s t) (a0 : Nat) (hm : 0x2000a201800000 ||| m = m) : Within m s (grantEnable a0 t) := by
  have b37 := Mask.has (i := 37) hm rfl
  unfold grantEnable
  repeat' (first | with_reducible assumption | ((with_reducible refine Mask.sub hm ?_); first | exact rfl | (simp only [pageBit_lpt, lptPage]; exact rfl)) | with_reducible apply setReg_within | with_reducible apply driverEnable_within | with_reducible apply setF_within | with_reducible apply moveCtx_within | with_reducible apply emit_within | with_reducible exact Within.refl | ((with_reducible refine Within.upd ?_ (.inl rfl) (.inl rfl) (.inl rfl) (.inl rfl) (.inl rfl) (.inl rfl) (.inl rfl) (.inl rfl) (.inl rfl) (.inl rfl) (.inl rfl) (.inl rfl) (.inl rfl) (.inr b37) (.inl rfl) (.inl rfl) (.inl rfl) (.inl rfl) (.inl rfl) (.inl rfl) (.inl rfl) (.inl rfl) (.inl rfl) (.inl rfl) (.inl rfl) (.inl rfl) (.inl rfl) (.inl rfl) (.inl rfl) (.inl rfl)); first | with_reducible assumption | ((with_reducible refine Mask.sub hm ?_); first | exact rfl | (simp only [pageBit_lpt, lptPage]; exact rfl)) | with_reducible apply setReg_within | with_reducible apply driverEnable_within | with_reducible apply setF_within | with_reducible apply moveCtx_within | with_reducible apply emit_within | with_reducible exact Within.refl | split) | intro _ | split | dsimp only)

theorem refuseBurst_within {m : Nat} {s t : State} (h : Within m s t) (a0 : Nat) (hm : 0x20038029804020 ||| m = m) : Within m s (refuseBurst a0 t) := by
  unfold refuseBurst
  repeat' (first | with_reducible assumption | ((with_reducible refine Mask.sub hm ?_); first | exact rfl | (simp only [pageBit_ser]; exact rfl)) | with_reducible apply setReg_within | with_reducible apply completeBurst_within | with_reducible apply refuseEnable_within | with_reducible apply loseBeacon_within | with_reducible exact Within.refl | intro _ | split | dsimp only)

theorem enableRequest_within {m : Nat} {s t : State} (h : Within m s t) (a0 : Nat) (hm : 0x2003a229804020 ||| m = m) : Within m s (enableRequest a0 t) := by
  unfold enableRequest
  repeat' (first | with_reducible assumption | ((with_reducible refine Mask.sub hm ?_); first | exact rfl | (simp only [pageBit_ser]; exact rfl)) | with_reducible apply setReg_within | with_reducible apply grantEnable_within | with_reducible apply refuseBurst_within | with_reducible exact Within.refl | intro _ | split | dsimp only)

theorem execDriverEnableRequest_within {m : Nat} {s t u : State} (h : Within m s t) (a0 : BurstId) (hm : 0x2003a229804020 ||| m = m) (e : execDriverEnableRequest a0 t = .next u) : Within m s u := by
  unfold execDriverEnableRequest at e
  try dsimp only at e
  repeat' split at e
  all_goals (cases e; repeat' (first | with_reducible assumption | ((with_reducible refine Mask.sub hm ?_); first | exact rfl | (simp only [pageBit_ser]; exact rfl)) | with_reducible apply setReg_within | with_reducible apply enableRequest_within | with_reducible exact Within.refl | intro _ | split | dsimp only))

theorem measureZ_within {m : Nat} {s t : State} (h : Within m s t) (a0 : Nat) (a1 : Wave) (a2 : List (Fin 4 × BitVec 16 × BitVec 16)) (hm : 0x20000234800800 ||| m = m) : Within m s (measureZ a0 a1 a2 t) := by
  unfold measureZ
  repeat' (first | with_reducible assumption | ((with_reducible refine Mask.sub hm ?_); first | exact rfl | (simp only [pageBit_lpt, lptPage]; exact rfl)) | with_reducible apply setReg_within | with_reducible apply setI_within | with_reducible apply setPort_within | with_reducible apply done_within | with_reducible apply Within.foldl | with_reducible exact Within.refl | intro _ | split | dsimp only)

theorem disableRequest_within {m : Nat} {s t : State} (h : Within m s t) (a0 : Nat) (a1 : List (Fin 4 × BitVec 16 × BitVec 16)) (hm : 0x2000a234800800 ||| m = m) : Within m s (disableRequest a0 a1 t) := by
  unfold disableRequest
  repeat' (first | with_reducible assumption | ((with_reducible refine Mask.sub hm ?_); first | exact rfl | (simp only [pageBit_ser]; exact rfl)) | with_reducible apply setReg_within | with_reducible apply measureZ_within | with_reducible apply setBurst_within | with_reducible apply driverOff_within | with_reducible exact Within.refl | intro _ | split | dsimp only)

theorem execDriverDisable_within {m : Nat} {s t u : State} (h : Within m s t) (a0 : BurstId) (a1 : List (Fin 4 × BitVec 16 × BitVec 16)) (hm : 0x2000a234800800 ||| m = m) (e : execDriverDisable a0 a1 t = .next u) : Within m s u := by
  unfold execDriverDisable at e
  try dsimp only at e
  repeat' split at e
  all_goals (cases e; repeat' (first | with_reducible assumption | ((with_reducible refine Mask.sub hm ?_); first | exact rfl | (simp only [pageBit_ser]; exact rfl)) | with_reducible apply setReg_within | with_reducible apply disableRequest_within | with_reducible exact Within.refl | intro _ | split | dsimp only))

theorem execBlankingEnd_within {m : Nat} {s t u : State} (h : Within m s t) (a0 : Port) (hm : 0x200800000 ||| m = m) (e : execBlankingEnd a0 t = .next u) : Within m s u := by
  unfold execBlankingEnd at e
  try dsimp only at e
  repeat' split at e
  all_goals (cases e; repeat' (first | with_reducible assumption | ((with_reducible refine Mask.sub hm ?_); first | exact rfl | (simp only [pageBit_ser]; exact rfl)) | with_reducible apply setReg_within | with_reducible apply refreshGroup_within | with_reducible apply setPort_within | with_reducible exact Within.refl | intro _ | split | dsimp only))

theorem execCurrentClamp_within {m : Nat} {s t u : State} (h : Within m s t) (a0 : Port) (hm : 0x8000800000 ||| m = m) (e : execCurrentClamp a0 t = .next u) : Within m s u := by
  unfold execCurrentClamp at e
  try dsimp only at e
  repeat' split at e
  all_goals (cases e; repeat' (first | with_reducible assumption | ((with_reducible refine Mask.sub hm ?_); first | exact rfl | (simp only [pageBit_lpt]; exact rfl)) | with_reducible apply setReg_within | with_reducible apply setBurst_within | with_reducible apply setF_within | with_reducible apply Within.foldl | with_reducible exact Within.refl | intro _ | split | dsimp only))

theorem execDriverHot_within {m : Nat} {s t u : State} (h : Within m s t) (a0 : Port) (hm : 0x2003a021800000 ||| m = m) (e : execDriverHot a0 t = .next u) : Within m s u := by
  unfold execDriverHot at e
  try dsimp only at e
  repeat' split at e
  all_goals (cases e; repeat' (first | with_reducible assumption | ((with_reducible refine Mask.sub hm ?_); first | exact rfl | (simp only [pageBit_lpt]; exact rfl)) | with_reducible apply setReg_within | with_reducible apply raise_within | with_reducible apply setF_within | with_reducible apply setFault_within | with_reducible apply stopPort_within | with_reducible exact Within.refl | intro _ | split | dsimp only))

theorem execDriverCooled_within {m : Nat} {s t u : State} (h : Within m s t) (a0 : Port) (hm : 0x800000 ||| m = m) (e : execDriverCooled a0 t = .next u) : Within m s u := by
  unfold execDriverCooled at e
  try dsimp only at e
  repeat' split at e
  all_goals (cases e; repeat' (first | with_reducible assumption | ((with_reducible refine Mask.sub hm ?_); first | exact rfl | (simp only [pageBit_lpt]; exact rfl)) | with_reducible apply setReg_within | with_reducible apply setF_within | with_reducible apply setFault_within | with_reducible exact Within.refl | intro _ | split | dsimp only))

theorem requestChange_within {m : Nat} {s t : State} (h : Within m s t) (a0 : Nat) (a1 : Int) (hm : 0x200000000 ||| m = m) : Within m s (requestChange a0 a1 t) := by
  unfold requestChange
  repeat' (first | with_reducible assumption | ((with_reducible refine Mask.sub hm ?_); first | exact rfl | (simp only [pageBit_ser]; exact rfl)) | with_reducible apply setReg_within | with_reducible apply setPort_within | with_reducible exact Within.refl | intro _ | split | dsimp only)

theorem eraseSymbols_within {m : Nat} {s t : State} (h : Within m s t) (a0 : Nat) (a1 : Nat) (hm : 0x800000 ||| m = m) : Within m s (eraseSymbols a0 a1 t) := by
  unfold eraseSymbols
  repeat' (first | with_reducible assumption | ((with_reducible refine Mask.sub hm ?_); first | exact rfl | (simp only [pageBit_lpt, lptPage]; exact rfl)) | with_reducible apply setReg_within | with_reducible apply countN_within | with_reducible exact Within.refl | intro _ | split | dsimp only)

theorem execAgcClippedSample_within {m : Nat} {s t u : State} (h : Within m s t) (a0 : Port) (hm : 0x20000220800000 ||| m = m) (e : execAgcClippedSample a0 t = .next u) : Within m s u := by
  unfold execAgcClippedSample at e
  try dsimp only at e
  repeat' split at e
  all_goals (cases e; repeat' (first | with_reducible assumption | ((with_reducible refine Mask.sub hm ?_); first | exact rfl | (simp only [pageBit_lpt]; exact rfl)) | with_reducible apply setReg_within | with_reducible apply requestChange_within | with_reducible apply raise_within | with_reducible apply eraseSymbols_within | with_reducible exact Within.refl | intro _ | split | dsimp only))

theorem execAgcBlockMeasured_within {m : Nat} {s t u : State} (h : Within m s t) (a0 : Port) (a1 : Bool) (hm : 0x200000000 ||| m = m) (e : execAgcBlockMeasured a0 a1 t = .next u) : Within m s u := by
  unfold execAgcBlockMeasured at e
  try dsimp only at e
  repeat' split at e
  all_goals (cases e; repeat' (first | with_reducible assumption | ((with_reducible refine Mask.sub hm ?_); first | exact rfl | (simp only [pageBit_ser]; exact rfl)) | with_reducible apply setReg_within | with_reducible apply requestChange_within | with_reducible exact Within.refl | intro _ | split | dsimp only))

theorem rangeChange_within {m : Nat} {s t : State} (h : Within m s t) (a0 : Nat) (hm : 0x8200800000 ||| m = m) : Within m s (rangeChange a0 t) := by
  unfold rangeChange
  repeat' (first | with_reducible assumption | ((with_reducible refine Mask.sub hm ?_); first | exact rfl | (simp only [pageBit_lpt, lptPage]; exact rfl)) | with_reducible apply setReg_within | with_reducible apply setPort_within | with_reducible apply setF_within | with_reducible apply setBurst_within | with_reducible apply Within.foldl | with_reducible exact Within.refl | intro _ | split | dsimp only)

theorem execRangeChange_within {m : Nat} {s t u : State} (h : Within m s t) (a0 : Port) (hm : 0x8200800000 ||| m = m) (e : execRangeChange a0 t = .next u) : Within m s u := by
  unfold execRangeChange at e
  try dsimp only at e
  repeat' split at e
  all_goals (cases e; repeat' (first | with_reducible assumption | ((with_reducible refine Mask.sub hm ?_); first | exact rfl | (simp only [pageBit_ser]; exact rfl)) | with_reducible apply setReg_within | with_reducible apply rangeChange_within | with_reducible exact Within.refl | intro _ | split | dsimp only))

theorem execRangeChangeForced_within {m : Nat} {s t u : State} (h : Within m s t) (a0 : Port) (hm : 0x8200800000 ||| m = m) (e : execRangeChangeForced a0 t = .next u) : Within m s u := by
  unfold execRangeChangeForced at e
  try dsimp only at e
  repeat' split at e
  all_goals (cases e; repeat' (first | with_reducible assumption | ((with_reducible refine Mask.sub hm ?_); first | exact rfl | (simp only [pageBit_lpt]; exact rfl)) | with_reducible apply setReg_within | with_reducible apply rangeChange_within | with_reducible apply eraseSymbols_within | with_reducible exact Within.refl | intro _ | split | dsimp only))

theorem stepOn_within {m : Nat} {s t : State} (h : Within m s t) (a0 : Nat) (a1 : Nat) (a2 : Nat) (hm : 0x20001028820020 ||| m = m) : Within m s (stepOn a0 a1 a2 t) := by
  unfold stepOn
  repeat' (first | with_reducible assumption | ((with_reducible refine Mask.sub hm ?_); first | exact rfl | (simp only [pageBit_lpt, lptPage]; exact rfl)) | with_reducible apply setReg_within | with_reducible apply calStep_within | with_reducible apply raise_within | with_reducible apply count_within | with_reducible exact Within.refl | intro _ | split | dsimp only)

theorem execReceiveStep_within {m : Nat} {s t u : State} (h : Within m s t) (a0 : Port) (a1 : Bool) (a2 : Fin 209715200) (hm : 0x20001028820020 ||| m = m) (e : execReceiveStep a0 a1 a2 t = .next u) : Within m s u := by
  unfold execReceiveStep at e
  try dsimp only at e
  repeat' split at e
  all_goals (cases e; repeat' (first | with_reducible assumption | ((with_reducible refine Mask.sub hm ?_); first | exact rfl | (simp only [pageBit_lpt]; exact rfl)) | with_reducible apply setReg_within | with_reducible apply stepOn_within | with_reducible exact Within.refl | intro _ | split | dsimp only))

theorem execDriveStep_within {m : Nat} {s t u : State} (h : Within m s t) (a0 : Port) (a1 : Fin 209715200) (hm : 0x20001028820020 ||| m = m) (e : execDriveStep a0 a1 t = .next u) : Within m s u := by
  unfold execDriveStep at e
  try dsimp only at e
  repeat' split at e
  all_goals (cases e; repeat' (first | with_reducible assumption | ((with_reducible refine Mask.sub hm ?_); first | exact rfl | (simp only [pageBit_ser]; exact rfl)) | with_reducible apply setReg_within | with_reducible apply stepOn_within | with_reducible exact Within.refl | intro _ | split | dsimp only))

theorem runCalPort_within {m : Nat} {s t : State} (h : Within m s t) (a0 : Nat) (a1 : Outstanding) (hm : 0x20000034800800 ||| m = m) : Within m s (runCalPort a0 a1 t) := by
  unfold runCalPort
  repeat' (first | with_reducible assumption | ((with_reducible refine Mask.sub hm ?_); first | exact rfl | (simp only [pageBit_lpt, lptPage]; exact rfl)) | with_reducible apply setReg_within | with_reducible apply done_within | with_reducible exact Within.refl | intro _ | split | dsimp only)

theorem execCalPort_within {m : Nat} {s t u : State} (h : Within m s t) (a0 : Port) (a1 : CmdSrc) (hm : 0x20000034800800 ||| m = m) (e : execCalPort a0 a1 t = .next u) : Within m s u := by
  unfold execCalPort at e
  try dsimp only at e
  repeat' split at e
  all_goals (cases e; repeat' (first | with_reducible assumption | ((with_reducible refine Mask.sub hm ?_); first | exact rfl | (simp only [pageBit_lpt]; exact rfl)) | with_reducible apply setReg_within | with_reducible apply issue_within | with_reducible apply runCalPort_within | with_reducible exact Within.refl | intro _ | split | dsimp only))

theorem calStart_within {m : Nat} {s t : State} (h : Within m s t) (a0 : Nat) (hm : 0x20000234800800 ||| m = m) : Within m s (calStart a0 t) := by
  unfold calStart
  repeat' (first | with_reducible assumption | ((with_reducible refine Mask.sub hm ?_); first | exact rfl | (simp only [pageBit_lpt, lptPage]; exact rfl)) | with_reducible apply setReg_within | with_reducible apply done_within | with_reducible apply setPhase_within | with_reducible apply setPort_within | with_reducible exact Within.refl | intro _ | split | dsimp only)

theorem finishCal_within {m : Nat} {s t : State} (h : Within m s t) (a0 : Nat) (a1 : Int) (a2 : Int) (hm : 0x20000234800800 ||| m = m) : Within m s (finishCal a0 a1 a2 t) := by
  unfold finishCal
  repeat' (first | with_reducible assumption | ((with_reducible refine Mask.sub hm ?_); first | exact rfl | (simp only [pageBit_lpt, lptPage]; exact rfl)) | with_reducible apply setReg_within | with_reducible apply setPort_within | with_reducible apply setF_within | with_reducible apply done_within | with_reducible apply setFault_within | with_reducible exact Within.refl | intro _ | split | dsimp only)

theorem abortCal_within {m : Nat} {s t : State} (h : Within m s t) (a0 : Nat) (hm : 0x20000234800800 ||| m = m) : Within m s (abortCal a0 t) := by
  unfold abortCal
  repeat' (first | with_reducible assumption | ((with_reducible refine Mask.sub hm ?_); first | exact rfl | (simp only [pageBit_lpt, lptPage]; exact rfl)) | with_reducible apply setReg_within | with_reducible apply done_within | with_reducible apply setPort_within | with_reducible exact Within.refl | intro _ | split | dsimp only)

theorem runMeasureZ_within {m : Nat} {s t : State} (h : Within m s t) (a0 : Nat) (a1 : Outstanding) (hm : 0x20000234800800 ||| m = m) : Within m s (runMeasureZ a0 a1 t) := by
  unfold runMeasureZ
  repeat' (first | with_reducible assumption | ((with_reducible refine Mask.sub hm ?_); first | exact rfl | (simp only [pageBit_lpt, lptPage]; exact rfl)) | with_reducible apply setReg_within | with_reducible apply setPort_within | with_reducible apply done_within | with_reducible exact Within.refl | intro _ | split | dsimp only)

theorem execMeasureZ_within {m : Nat} {s t u : State} (h : Within m s t) (a0 : Port) (a1 : CmdSrc) (hm : 0x20000234800800 ||| m = m) (e : execMeasureZ a0 a1 t = .next u) : Within m s u := by
  unfold execMeasureZ at e
  try dsimp only at e
  repeat' split at e
  all_goals (cases e; repeat' (first | with_reducible assumption | ((with_reducible refine Mask.sub hm ?_); first | exact rfl | (simp only [pageBit_lpt]; exact rfl)) | with_reducible apply setReg_within | with_reducible apply issue_within | with_reducible apply runMeasureZ_within | with_reducible exact Within.refl | intro _ | split | dsimp only))

theorem measureZTimeout_within {m : Nat} {s t : State} (h : Within m s t) (a0 : Nat) (hm : 0x20000034800800 ||| m = m) : Within m s (measureZTimeout a0 t) := by
  unfold measureZTimeout
  repeat' (first | with_reducible assumption | ((with_reducible refine Mask.sub hm ?_); first | exact rfl | (simp only [pageBit_lpt, lptPage]; exact rfl)) | with_reducible apply setReg_within | with_reducible apply setI_within | with_reducible apply done_within | with_reducible apply Within.foldl | with_reducible exact Within.refl | intro _ | split | dsimp only)

theorem execMeasureZTimeout_within {m : Nat} {s t u : State} (h : Within m s t) (a0 : Port) (hm : 0x20000034800800 ||| m = m) (e : execMeasureZTimeout a0 t = .next u) : Within m s u := by
  unfold execMeasureZTimeout at e
  try dsimp only at e
  repeat' split at e
  all_goals (cases e; repeat' (first | with_reducible assumption | ((with_reducible refine Mask.sub hm ?_); first | exact rfl | (simp only [pageBit_ser]; exact rfl)) | with_reducible apply setReg_within | with_reducible apply measureZTimeout_within | with_reducible exact Within.refl | intro _ | split | dsimp only))

theorem execLptBlkReset_within {m : Nat} {s t u : State} (h : Within m s t) (a0 : Port) (hm : 0x2003a235800800 ||| m = m) (e : execLptBlkReset a0 t = .next u) : Within m s u := by
  unfold execLptBlkReset at e
  try dsimp only at e
  repeat' split at e
  all_goals (cases e; repeat' (first | with_reducible assumption | ((with_reducible refine Mask.sub hm ?_); first | exact rfl | (simp only [pageBit_lpt]; exact rfl)) | with_reducible apply setReg_within | with_reducible apply driverOff_within | with_reducible apply completeAll_within | with_reducible apply setPort_within | with_reducible apply setF_within | with_reducible apply setFault_within | with_reducible apply refreshFreeze_within | with_reducible apply blkReset_within | with_reducible exact Within.refl | intro _ | split | dsimp only))

end Sys2Proof.Machine
end

