-- ==== Sys2Proof/Laws/WithinSched.lean ====
section
/-! SUPPORT. Sys2Proof/Laws/WithinSched.lean: the parts of a state that the operations of Machine/Sched.lean may change. -/
namespace Sys2Proof.Machine

theorem planBeacon_within {m : Nat} {s t : State} (h : Within m s t) (a0 : Nat) (a1 : Wave) (hm : 0x2898402004e200 ||| m = m) : Within m s (planBeacon a0 a1 t) := by
  have b38 := Mask.has (i := 38) hm rfl
  unfold planBeacon
  repeat' (first | with_reducible assumption | ((with_reducible refine Mask.sub hm ?_); first | exact rfl | (simp only [pageBit_ser]; exact rfl)) | with_reducible apply setReg_within | with_reducible apply runJob_within | with_reducible apply loseBeacon_within | (with_reducible refine runJob_within_eq (by assumption) ?_ ?_) | with_reducible exact Within.refl | ((with_reducible refine Within.upd ?_ (.inl rfl) (.inl rfl) (.inl rfl) (.inl rfl) (.inl rfl) (.inl rfl) (.inl rfl) (.inl rfl) (.inl rfl) (.inl rfl) (.inl rfl) (.inl rfl) (.inl rfl) (.inl rfl) (.inr b38) (.inl rfl) (.inl rfl) (.inl rfl) (.inl rfl) (.inl rfl) (.inl rfl) (.inl rfl) (.inl rfl) (.inl rfl) (.inl rfl) (.inl rfl) (.inl rfl) (.inl rfl) (.inl rfl) (.inl rfl)); first | with_reducible assumption | ((with_reducible refine Mask.sub hm ?_); first | exact rfl | (simp only [pageBit_ser]; exact rfl)) | with_reducible apply setReg_within | with_reducible apply runJob_within | with_reducible apply loseBeacon_within | (with_reducible refine runJob_within_eq (by assumption) ?_ ?_) | with_reducible exact Within.refl | split) | intro _ | split | dsimp only)

theorem planBeacons_within {m : Nat} {s t : State} (h : Within m s t) (hm : 0x2898402004e200 ||| m = m) : Within m s (planBeacons t) := by
  unfold planBeacons
  repeat' (first | with_reducible assumption | ((with_reducible refine Mask.sub hm ?_); first | exact rfl | (simp only [pageBit_ser]; exact rfl)) | with_reducible apply setReg_within | with_reducible apply planBeacon_within | with_reducible apply Within.foldl | with_reducible exact Within.refl | intro _ | split | dsimp only)

theorem placeGrant_within {m : Nat} {s t : State} (h : Within m s t) (a0 : GrantAsk) (a1 : Nat) (a2 : Nat) (a3 : Nat) (hm : 0x4000000000 ||| m = m) : Within m s (placeGrant a0 a1 a2 a3 t).2.2 := by
  have b38 := Mask.has (i := 38) hm rfl
  unfold placeGrant
  repeat' (first | with_reducible assumption | ((with_reducible refine Mask.sub hm ?_); first | exact rfl | (simp only [pageBit_ser]; exact rfl)) | with_reducible apply setReg_within | with_reducible exact Within.refl | ((with_reducible refine Within.upd ?_ (.inl rfl) (.inl rfl) (.inl rfl) (.inl rfl) (.inl rfl) (.inl rfl) (.inl rfl) (.inl rfl) (.inl rfl) (.inl rfl) (.inl rfl) (.inl rfl) (.inl rfl) (.inl rfl) (.inr b38) (.inl rfl) (.inl rfl) (.inl rfl) (.inl rfl) (.inl rfl) (.inl rfl) (.inl rfl) (.inl rfl) (.inl rfl) (.inl rfl) (.inl rfl) (.inl rfl) (.inl rfl) (.inl rfl) (.inl rfl)); first | with_reducible assumption | ((with_reducible refine Mask.sub hm ?_); first | exact rfl | (simp only [pageBit_ser]; exact rfl)) | with_reducible apply setReg_within | with_reducible exact Within.refl | split) | intro _ | split | dsimp only)

theorem placeGrant_within_eq {m : Nat} {s t u : State} {a0 : GrantAsk} {a1 : Nat} {a2 : Nat} {a3 : Nat} {y0 y1} (e : placeGrant a0 a1 a2 a3 t = (y0, y1, u)) (h : Within m s t) (hm : 0x4000000000 ||| m = m) : Within m s u := by
  have k := placeGrant_within h a0 a1 a2 a3 hm
  rw [e] at k
  exact k

theorem planPeriodic_within {m : Nat} {s t : State} (h : Within m s t) (hm : 0x4000000000 ||| m = m) : Within m s (planPeriodic t) := by
  have b38 := Mask.has (i := 38) hm rfl
  unfold planPeriodic
  repeat' (first | with_reducible assumption | ((with_reducible refine Mask.sub hm ?_); first | exact rfl | (simp only [pageBit_ser]; exact rfl)) | with_reducible apply setReg_within | with_reducible exact Within.refl | ((with_reducible refine Within.upd ?_ (.inl rfl) (.inl rfl) (.inl rfl) (.inl rfl) (.inl rfl) (.inl rfl) (.inl rfl) (.inl rfl) (.inl rfl) (.inl rfl) (.inl rfl) (.inl rfl) (.inl rfl) (.inl rfl) (.inr b38) (.inl rfl) (.inl rfl) (.inl rfl) (.inl rfl) (.inl rfl) (.inl rfl) (.inl rfl) (.inl rfl) (.inl rfl) (.inl rfl) (.inl rfl) (.inl rfl) (.inl rfl) (.inl rfl) (.inl rfl)); first | with_reducible assumption | ((with_reducible refine Mask.sub hm ?_); first | exact rfl | (simp only [pageBit_ser]; exact rfl)) | with_reducible apply setReg_within | with_reducible exact Within.refl | split) | intro _ | split | dsimp only)

theorem askGrant_within {m : Nat} {s t : State} (h : Within m s t) (a0 : Nat) (a1 : Nat) (a2 : Nat) (a3 : Option Bool) (hm : 0x80000000000 ||| m = m) : Within m s (askGrant a0 a1 a2 a3 t) := by
  unfold askGrant
  repeat' (first | with_reducible assumption | ((with_reducible refine Mask.sub hm ?_); first | exact rfl | (simp only [pageBit_ser]; exact rfl)) | with_reducible apply setReg_within | with_reducible apply addFrame_within | with_reducible exact Within.refl | intro _ | split | dsimp only)

theorem askGrants_within {m : Nat} {s t : State} (h : Within m s t) (a0 : List GrantWish) (hm : 0x80000000000 ||| m = m) : Within m s (askGrants a0 t) := by
  unfold askGrants
  repeat' (first | with_reducible assumption | ((with_reducible refine Mask.sub hm ?_); first | exact rfl | (simp only [pageBit_ser]; exact rfl)) | with_reducible apply setReg_within | with_reducible apply askGrant_within | with_reducible apply Within.foldl | with_reducible exact Within.refl | intro _ | split | dsimp only)

theorem sealAccept_within {m : Nat} {s t : State} (h : Within m s t) (a0 : Frame) (a1 : List Byte) (hm : 0x2898002004a200 ||| m = m) : Within m s (sealAccept a0 a1 t).2.2 := by
  unfold sealAccept
  repeat' (first | with_reducible assumption | ((with_reducible refine Mask.sub hm ?_); first | exact rfl | (simp only [pageBit_ser]; exact rfl)) | with_reducible apply setReg_within | with_reducible apply runJob_within | (with_reducible refine runJob_within_eq (by assumption) ?_ ?_) | with_reducible exact Within.refl | intro _ | split | dsimp only)

theorem sealAccept_within_eq {m : Nat} {s t u : State} {a0 : Frame} {a1 : List Byte} {y0 y1} (e : sealAccept a0 a1 t = (y0, y1, u)) (h : Within m s t) (hm : 0x2898002004a200 ||| m = m) : Within m s u := by
  have k := sealAccept_within h a0 a1 hm
  rw [e] at k
  exact k

theorem sealBytes_within {m : Nat} {s t : State} (h : Within m s t) (a0 : Frame) (a1 : List Byte) (hm : 0x2898002004a200 ||| m = m) : Within m s (sealBytes a0 a1 t).2.2 := by
  unfold sealBytes
  repeat' (first | with_reducible assumption | ((with_reducible refine Mask.sub hm ?_); first | exact rfl | (simp only [pageBit_ser]; exact rfl)) | with_reducible apply setReg_within | with_reducible apply sealAccept_within | with_reducible apply sealFrame_within | (with_reducible refine sealAccept_within_eq (by assumption) ?_ ?_) | (with_reducible refine sealFrame_within_eq (by assumption) ?_ ?_) | with_reducible exact Within.refl | intro _ | split | dsimp only)

theorem sealBytes_within_eq {m : Nat} {s t u : State} {a0 : Frame} {a1 : List Byte} {y0 y1} (e : sealBytes a0 a1 t = (y0, y1, u)) (h : Within m s t) (hm : 0x2898002004a200 ||| m = m) : Within m s u := by
  have k := sealBytes_within h a0 a1 hm
  rw [e] at k
  exact k

theorem wrapRelays_within {m : Nat} {s t : State} (h : Within m s t) (l : List Nat) (a ty q : Nat) (p : List Byte) (hm : 0x2898002004a200 ||| m = m) : Within m s (wrapRelays l a ty q p t).2.2 := by
  induction l generalizing t a ty q p with
  | nil => exact h
  | cons r rest ih =>
    unfold wrapRelays
    dsimp only
    split
    · exact ih (setAssoc_within (sealUnit_within (nextFseq_within h _ _ (Mask.sub hm rfl)) _ (Mask.sub hm rfl)) _ _ (Mask.sub hm rfl)) _ _ _ _
    · exact setAssoc_within (sealUnit_within (nextFseq_within h _ _ (Mask.sub hm rfl)) _ (Mask.sub hm rfl)) _ _ (Mask.sub hm rfl)

theorem wrapRelays_within_eq {m : Nat} {s t u : State} {l : List Nat} {a ty q : Nat} {p : List Byte} {y : Nat} {z : Nat × Nat × Nat × List Byte}
    (e : wrapRelays l a ty q p t = (y, z, u)) (h : Within m s t) (hm : 0x2898002004a200 ||| m = m) : Within m s u := by
  have k := wrapRelays_within h l a ty q p hm
  rw [e] at k
  exact k

theorem putItem_within {m : Nat} {s t : State} (h : Within m s t) (a0 : Frame) (a1 : PlanItem) (a2 : Option BbHeader) (a3 : List TxOcc) (hm : 0x2898482024a200 ||| m = m) : Within m s (putItem a0 a1 a2 a3 t).2 := by
  have b38 := Mask.has (i := 38) hm rfl
  unfold putItem
  repeat' (first | with_reducible assumption | ((with_reducible refine Mask.sub hm ?_); first | exact rfl | (simp only [pageBit_ser]; exact rfl)) | with_reducible apply setReg_within | with_reducible apply wrapRelays_within | with_reducible apply takeTadj_within | (with_reducible refine wrapRelays_within_eq (by assumption) ?_ ?_) | (with_reducible refine takeTadj_within_eq (by assumption) ?_ ?_) | with_reducible exact Within.refl | ((with_reducible refine Within.upd ?_ (.inl rfl) (.inl rfl) (.inl rfl) (.inl rfl) (.inl rfl) (.inl rfl) (.inl rfl) (.inl rfl) (.inl rfl) (.inl rfl) (.inl rfl) (.inl rfl) (.inl rfl) (.inl rfl) (.inr b38) (.inl rfl) (.inl rfl) (.inl rfl) (.inl rfl) (.inl rfl) (.inl rfl) (.inl rfl) (.inl rfl) (.inl rfl) (.inl rfl) (.inl rfl) (.inl rfl) (.inl rfl) (.inl rfl) (.inl rfl)); first | with_reducible assumption | ((with_reducible refine Mask.sub hm ?_); first | exact rfl | (simp only [pageBit_ser]; exact rfl)) | with_reducible apply setReg_within | with_reducible apply wrapRelays_within | with_reducible apply takeTadj_within | (with_reducible refine wrapRelays_within_eq (by assumption) ?_ ?_) | (with_reducible refine takeTadj_within_eq (by assumption) ?_ ?_) | with_reducible exact Within.refl | split) | intro _ | split | dsimp only)

theorem putItem_within_eq {m : Nat} {s t u : State} {a0 : Frame} {a1 : PlanItem} {a2 : Option BbHeader} {a3 : List TxOcc} {y0} (e : putItem a0 a1 a2 a3 t = (y0, u)) (h : Within m s t) (hm : 0x2898482024a200 ||| m = m) : Within m s u := by
  have k := putItem_within h a0 a1 a2 a3 hm
  rw [e] at k
  exact k

theorem notePlanned_within {m : Nat} {s t : State} (h : Within m s t) (a0 : Frame) (a1 : Nat) (a2 : List Byte) (hm : 0x2088083420aa00 ||| m = m) : Within m s (notePlanned a0 a1 a2 t) := by
  unfold notePlanned
  repeat' (first | with_reducible assumption | ((with_reducible refine Mask.sub hm ?_); first | exact rfl | (simp only [pageBit_ser]; exact rfl)) | with_reducible apply setReg_within | with_reducible apply setAssoc_within | with_reducible apply rekeySent_within | with_reducible apply putMap_within | with_reducible exact Within.refl | intro _ | split | dsimp only)

theorem planFailed_within {m : Nat} {s t : State} (h : Within m s t) (a0 : Frame) (a1 : Nat) (hm : 0x20a8483425ba00 ||| m = m) : Within m s (planFailed a0 a1 t) := by
  unfold planFailed
  repeat' (first | with_reducible assumption | ((with_reducible refine Mask.sub hm ?_); first | exact rfl | (simp only [pageBit_ser]; exact rfl)) | with_reducible apply setReg_within | with_reducible apply jobRefused_within | with_reducible apply finishFrame_within | with_reducible exact Within.refl | intro _ | split | dsimp only)

theorem notPlaced_within {m : Nat} {s t : State} (h : Within m s t) (a0 : Frame) (a1 : Bool) (hm : 0x20280020024000 ||| m = m) : Within m s (notPlaced a0 a1 t) := by
  unfold notPlaced
  repeat' (first | with_reducible assumption | ((with_reducible refine Mask.sub hm ?_); first | exact rfl | (simp only [pageBit_ser]; exact rfl)) | with_reducible apply setReg_within | with_reducible apply setFrame_within | with_reducible apply deferBurst_within | with_reducible apply raise_within | with_reducible apply count_within | with_reducible apply finishFrame_within | with_reducible exact Within.refl | intro _ | split | dsimp only)

theorem enterPlan_within {m : Nat} {s t : State} (h : Within m s t) (a0 : Frame) (a1 : PlanItem) (a2 : Option BbHeader) (a3 : List TxOcc) (a4 : List Byte) (a5 : State) (hm : 0x28b8483425ba08 ||| m = m) : Within m s (enterPlan a0 a1 a2 a3 a4 a5 t) := by
  have b38 := Mask.has (i := 38) hm rfl
  unfold enterPlan
  repeat' (first | with_reducible assumption | ((with_reducible refine Mask.sub hm ?_); first | exact rfl | (simp only [pageBit_ser]; exact rfl)) | with_reducible apply setReg_within | with_reducible apply sealBytes_within | with_reducible apply planFailed_within | with_reducible apply putItem_within | with_reducible apply count_within | with_reducible apply notePlanned_within | with_reducible apply setFrame_within | (with_reducible refine sealBytes_within_eq (by assumption) ?_ ?_) | (with_reducible refine putItem_within_eq (by assumption) ?_ ?_) | with_reducible exact Within.refl | ((with_reducible refine Within.upd ?_ (.inl rfl) (.inl rfl) (.inl rfl) (.inl rfl) (.inl rfl) (.inl rfl) (.inl rfl) (.inl rfl) (.inl rfl) (.inl rfl) (.inl rfl) (.inl rfl) (.inl rfl) (.inl rfl) (.inr b38) (.inl rfl) (.inl rfl) (.inl rfl) (.inl rfl) (.inl rfl) (.inl rfl) (.inl rfl) (.inl rfl) (.inl rfl) (.inl rfl) (.inl rfl) (.inl rfl) (.inl rfl) (.inl rfl) (.inl rfl)); first | with_reducible assumption | ((with_reducible refine Mask.sub hm ?_); first | exact rfl | (simp only [pageBit_ser]; exact rfl)) | with_reducible apply setReg_within | with_reducible apply sealBytes_within | with_reducible apply planFailed_within | with_reducible apply putItem_within | with_reducible apply count_within | with_reducible apply notePlanned_within | with_reducible apply setFrame_within | (with_reducible refine sealBytes_within_eq (by assumption) ?_ ?_) | (with_reducible refine putItem_within_eq (by assumption) ?_ ?_) | with_reducible exact Within.refl | split) | intro _ | split | dsimp only)

theorem commitFrame_within {m : Nat} {s t : State} (h : Within m s t) (a0 : Frame) (a1 : PlanItem) (a2 : Option BbHeader) (a3 : List TxOcc) (hm : 0x28b8483427fa08 ||| m = m) : Within m s (commitFrame a0 a1 a2 a3 t) := by
  have b38 := Mask.has (i := 38) hm rfl
  unfold commitFrame
  repeat' (first | with_reducible assumption | ((with_reducible refine Mask.sub hm ?_); first | exact rfl | (simp only [pageBit_ser]; exact rfl)) | with_reducible apply setReg_within | with_reducible apply enterPlan_within | with_reducible apply placeGrant_within | with_reducible apply notPlaced_within | (with_reducible refine placeGrant_within_eq (by assumption) ?_ ?_) | with_reducible exact Within.refl | ((with_reducible refine Within.upd ?_ (.inl rfl) (.inl rfl) (.inl rfl) (.inl rfl) (.inl rfl) (.inl rfl) (.inl rfl) (.inl rfl) (.inl rfl) (.inl rfl) (.inl rfl) (.inl rfl) (.inl rfl) (.inl rfl) (.inr b38) (.inl rfl) (.inl rfl) (.inl rfl) (.inl rfl) (.inl rfl) (.inl rfl) (.inl rfl) (.inl rfl) (.inl rfl) (.inl rfl) (.inl rfl) (.inl rfl) (.inl rfl) (.inl rfl) (.inl rfl)); first | with_reducible assumption | ((with_reducible refine Mask.sub hm ?_); first | exact rfl | (simp only [pageBit_ser]; exact rfl)) | with_reducible apply setReg_within | with_reducible apply enterPlan_within | with_reducible apply placeGrant_within | with_reducible apply notPlaced_within | (with_reducible refine placeGrant_within_eq (by assumption) ?_ ?_) | with_reducible exact Within.refl | split) | intro _ | split | dsimp only)

theorem planOne_within {m : Nat} {s t : State} (h : Within m s t) (a0 : Frame) (hm : 0x28b8483427fa08 ||| m = m) : Within m s (planOne a0 t) := by
  unfold planOne
  repeat' (first | with_reducible assumption | ((with_reducible refine Mask.sub hm ?_); first | exact rfl | (simp only [pageBit_ser]; exact rfl)) | with_reducible apply setReg_within | with_reducible apply notPlaced_within | with_reducible apply commitFrame_within | with_reducible exact Within.refl | intro _ | split | dsimp only)

theorem planFrame_within {m : Nat} {s t : State} (h : Within m s t) (a0 : Nat) (hm : 0x28b8483c27fa28 ||| m = m) : Within m s (planFrame a0 t) := by
  unfold planFrame
  repeat' (first | with_reducible assumption | ((with_reducible refine Mask.sub hm ?_); first | exact rfl | (simp only [pageBit_ser]; exact rfl)) | with_reducible apply setReg_within | with_reducible apply dropFrame_within | with_reducible apply sf2Discard_within | with_reducible apply sealUnit_within | with_reducible apply frameReady_within | with_reducible apply planFailed_within | with_reducible apply finishFrame_within | with_reducible apply notPlaced_within | with_reducible apply planOne_within | (with_reducible refine sealUnit_within_eq (by assumption) ?_ ?_) | with_reducible exact Within.refl | intro _ | split | dsimp only)

theorem planFrames_within {m : Nat} {s t : State} (h : Within m s t) (hm : 0x28b8483c27fa28 ||| m = m) : Within m s (planFrames t) := by
  unfold planFrames
  repeat' (first | with_reducible assumption | ((with_reducible refine Mask.sub hm ?_); first | exact rfl | (simp only [pageBit_ser]; exact rfl)) | with_reducible apply setReg_within | with_reducible apply planFrame_within | with_reducible apply Within.foldl | with_reducible exact Within.refl | intro _ | split | dsimp only)

theorem planJoinUp_within {m : Nat} {s t : State} (h : Within m s t) (a0 : Frame) (hm : 0x20a84020043200 ||| m = m) : Within m s (planJoinUp a0 t) := by
  unfold planJoinUp
  repeat' (first | with_reducible assumption | ((with_reducible refine Mask.sub hm ?_); first | exact rfl | (simp only [pageBit_ser]; exact rfl)) | with_reducible apply setReg_within | with_reducible apply dropFrame_within | with_reducible apply toParent_within | with_reducible apply placeGrant_within | (with_reducible refine placeGrant_within_eq (by assumption) ?_ ?_) | with_reducible exact Within.refl | intro _ | split | dsimp only)

theorem planJoinUps_within {m : Nat} {s t : State} (h : Within m s t) (hm : 0x20a84020043200 ||| m = m) : Within m s (planJoinUps t) := by
  unfold planJoinUps
  repeat' (first | with_reducible assumption | ((with_reducible refine Mask.sub hm ?_); first | exact rfl | (simp only [pageBit_ser]; exact rfl)) | with_reducible apply setReg_within | with_reducible apply planJoinUp_within | with_reducible apply Within.foldl | with_reducible exact Within.refl | intro _ | split | dsimp only)

theorem prunePlan_within {m : Nat} {s t : State} (h : Within m s t) (hm : 0x4000000000 ||| m = m) : Within m s (prunePlan t) := by
  have b38 := Mask.has (i := 38) hm rfl
  unfold prunePlan
  repeat' (first | with_reducible assumption | ((with_reducible refine Mask.sub hm ?_); first | exact rfl | (simp only [pageBit_ser]; exact rfl)) | with_reducible apply setReg_within | with_reducible exact Within.refl | ((with_reducible refine Within.upd ?_ (.inl rfl) (.inl rfl) (.inl rfl) (.inl rfl) (.inl rfl) (.inl rfl) (.inl rfl) (.inl rfl) (.inl rfl) (.inl rfl) (.inl rfl) (.inl rfl) (.inl rfl) (.inl rfl) (.inr b38) (.inl rfl) (.inl rfl) (.inl rfl) (.inl rfl) (.inl rfl) (.inl rfl) (.inl rfl) (.inl rfl) (.inl rfl) (.inl rfl) (.inl rfl) (.inl rfl) (.inl rfl) (.inl rfl) (.inl rfl)); first | with_reducible assumption | ((with_reducible refine Mask.sub hm ?_); first | exact rfl | (simp only [pageBit_ser]; exact rfl)) | with_reducible apply setReg_within | with_reducible exact Within.refl | split) | intro _ | split | dsimp only)

end Sys2Proof.Machine
end

