-- ==== Sys2Proof/Laws/WithinMgt.lean ====
section
/-! SUPPORT. Sys2Proof/Laws/WithinMgt.lean: the parts of a state that the operations of Machine/Mgt.lean may change. -/
namespace Sys2Proof.Machine

theorem logFlush_within {m : Nat} {s t : State} (h : Within m s t) (hm : 0x8000020 ||| m = m) : Within m s (logFlush t) := by
  unfold logFlush
  repeat' (first | with_reducible assumption | ((with_reducible refine Mask.sub hm ?_); first | exact rfl | (simp only [pageBit_ser]; exact rfl)) | with_reducible apply setReg_within | with_reducible apply setF_within | with_reducible apply flushLog_within | with_reducible apply setB_within | with_reducible exact Within.refl | intro _ | split | dsimp only)

theorem execLogFlush_within {m : Nat} {s t u : State} (h : Within m s t) (hm : 0x8000020 ||| m = m) (e : execLogFlush t = .next u) : Within m s u := by
  unfold execLogFlush at e
  try dsimp only at e
  repeat' split at e
  all_goals (cases e; repeat' (first | with_reducible assumption | ((with_reducible refine Mask.sub hm ?_); first | exact rfl | (simp only [pageBit_ser]; exact rfl)) | with_reducible apply setReg_within | with_reducible apply logFlush_within | with_reducible exact Within.refl | intro _ | split | dsimp only))

theorem runLogMark_within {m : Nat} {s t : State} (h : Within m s t) (a0 : Outstanding) (hm : 0x2000003c000820 ||| m = m) : Within m s (runLogMark a0 t) := by
  unfold runLogMark
  repeat' (first | with_reducible assumption | ((with_reducible refine Mask.sub hm ?_); first | exact rfl | (simp only [pageBit_ser]; exact rfl)) | with_reducible apply setReg_within | with_reducible apply done_within | with_reducible apply logEvent_within | with_reducible exact Within.refl | intro _ | split | dsimp only)

theorem execLogMark_within {m : Nat} {s t u : State} (h : Within m s t) (a0 : CmdSrc) (hm : 0x2000003c000820 ||| m = m) (e : execLogMark a0 t = .next u) : Within m s u := by
  unfold execLogMark at e
  try dsimp only at e
  repeat' split at e
  all_goals (cases e; repeat' (first | with_reducible assumption | ((with_reducible refine Mask.sub hm ?_); first | exact rfl | (simp only [pageBit_ser]; exact rfl)) | with_reducible apply setReg_within | with_reducible apply issue_within | with_reducible apply runLogMark_within | with_reducible exact Within.refl | intro _ | split | dsimp only))

theorem setCampaign_within {m : Nat} {s t : State} (h : Within m s t) (a0 : Option Campaign) (hm : 0x2000000000000 ||| m = m) : Within m s (setCampaign a0 t) := by
  have b49 := Mask.has (i := 49) hm rfl
  unfold setCampaign
  repeat' (first | with_reducible assumption | ((with_reducible refine Mask.sub hm ?_); first | exact rfl | (simp only [pageBit_ser]; exact rfl)) | with_reducible apply setReg_within | with_reducible exact Within.refl | ((with_reducible refine Within.upd ?_ (.inl rfl) (.inl rfl) (.inl rfl) (.inl rfl) (.inl rfl) (.inl rfl) (.inl rfl) (.inl rfl) (.inl rfl) (.inl rfl) (.inl rfl) (.inl rfl) (.inl rfl) (.inl rfl) (.inl rfl) (.inl rfl) (.inl rfl) (.inl rfl) (.inl rfl) (.inl rfl) (.inl rfl) (.inl rfl) (.inl rfl) (.inl rfl) (.inl rfl) (.inr b49) (.inl rfl) (.inl rfl) (.inl rfl) (.inl rfl)); first | with_reducible assumption | ((with_reducible refine Mask.sub hm ?_); first | exact rfl | (simp only [pageBit_ser]; exact rfl)) | with_reducible apply setReg_within | with_reducible exact Within.refl | split) | intro _ | split | dsimp only)

theorem logCampaign_within {m : Nat} {s t : State} (h : Within m s t) (a0 : Nat) (hm : 0x20000028000020 ||| m = m) : Within m s (logCampaign a0 t) := by
  unfold logCampaign
  repeat' (first | with_reducible assumption | ((with_reducible refine Mask.sub hm ?_); first | exact rfl | (simp only [pageBit_ser]; exact rfl)) | with_reducible apply setReg_within | with_reducible apply logEvent_within | with_reducible exact Within.refl | intro _ | split | dsimp only)

theorem endCampaign_within {m : Nat} {s t : State} (h : Within m s t) (a0 : Nat) (hm : 0x22000028000020 ||| m = m) : Within m s (endCampaign a0 t) := by
  unfold endCampaign
  repeat' (first | with_reducible assumption | ((with_reducible refine Mask.sub hm ?_); first | exact rfl | (simp only [pageBit_ser]; exact rfl)) | with_reducible apply setReg_within | with_reducible apply logCampaign_within | with_reducible apply raise_within | with_reducible apply setB_within | with_reducible apply setCampaign_within | with_reducible exact Within.refl | intro _ | split | dsimp only)

theorem runCampaignStart_within {m : Nat} {s t : State} (h : Within m s t) (a0 : Outstanding) (hm : 0x2200003c000820 ||| m = m) : Within m s (runCampaignStart a0 t) := by
  unfold runCampaignStart
  repeat' (first | with_reducible assumption | ((with_reducible refine Mask.sub hm ?_); first | exact rfl | (simp only [pageBit_ser]; exact rfl)) | with_reducible apply setReg_within | with_reducible apply done_within | with_reducible apply setF_within | with_reducible apply setCampaign_within | with_reducible apply logCampaign_within | with_reducible apply setB_within | with_reducible exact Within.refl | intro _ | split | dsimp only)

theorem execCampaignStart_within {m : Nat} {s t u : State} (h : Within m s t) (a0 : CmdSrc) (hm : 0x2200003c000820 ||| m = m) (e : execCampaignStart a0 t = .next u) : Within m s u := by
  unfold execCampaignStart at e
  try dsimp only at e
  repeat' split at e
  all_goals (cases e; repeat' (first | with_reducible assumption | ((with_reducible refine Mask.sub hm ?_); first | exact rfl | (simp only [pageBit_ser]; exact rfl)) | with_reducible apply setReg_within | with_reducible apply issue_within | with_reducible apply runCampaignStart_within | with_reducible exact Within.refl | intro _ | split | dsimp only))

theorem runCampaignStop_within {m : Nat} {s t : State} (h : Within m s t) (a0 : Outstanding) (hm : 0x2200003c000820 ||| m = m) : Within m s (runCampaignStop a0 t) := by
  unfold runCampaignStop
  repeat' (first | with_reducible assumption | ((with_reducible refine Mask.sub hm ?_); first | exact rfl | (simp only [pageBit_ser]; exact rfl)) | with_reducible apply setReg_within | with_reducible apply endCampaign_within | with_reducible apply done_within | with_reducible exact Within.refl | intro _ | split | dsimp only)

theorem execCampaignStop_within {m : Nat} {s t u : State} (h : Within m s t) (a0 : CmdSrc) (hm : 0x2200003c000820 ||| m = m) (e : execCampaignStop a0 t = .next u) : Within m s u := by
  unfold execCampaignStop at e
  try dsimp only at e
  repeat' split at e
  all_goals (cases e; repeat' (first | with_reducible assumption | ((with_reducible refine Mask.sub hm ?_); first | exact rfl | (simp only [pageBit_ser]; exact rfl)) | with_reducible apply setReg_within | with_reducible apply issue_within | with_reducible apply runCampaignStop_within | with_reducible exact Within.refl | intro _ | split | dsimp only))

theorem nextBlock_within {m : Nat} {s t : State} (h : Within m s t) (a0 : Campaign) (a1 : Nat) (hm : 0x22000028000020 ||| m = m) : Within m s (nextBlock a0 a1 t) := by
  unfold nextBlock
  repeat' (first | with_reducible assumption | ((with_reducible refine Mask.sub hm ?_); first | exact rfl | (simp only [pageBit_ser]; exact rfl)) | with_reducible apply setReg_within | with_reducible apply setF_within | with_reducible apply logCampaign_within | with_reducible apply raise_within | with_reducible apply endCampaign_within | with_reducible exact Within.refl | intro _ | split | dsimp only)

theorem putBlock_within {m : Nat} {s t : State} (h : Within m s t) (a0 : Campaign) (a1 : Nat) (a2 : Nat) (a3 : Nat) (a4 : Nat) (hm : 0x2a98403c04aa20 ||| m = m) : Within m s (putBlock a0 a1 a2 a3 a4 t) := by
  have b38 := Mask.has (i := 38) hm rfl
  unfold putBlock
  repeat' (first | with_reducible assumption | ((with_reducible refine Mask.sub hm ?_); first | exact rfl | (simp only [pageBit_ser]; exact rfl)) | with_reducible apply setReg_within | with_reducible apply runJob_within | with_reducible apply setCampaign_within | with_reducible apply done_within | with_reducible apply nextBlock_within | (with_reducible refine runJob_within_eq (by assumption) ?_ ?_) | with_reducible exact Within.refl | ((with_reducible refine Within.upd ?_ (.inl rfl) (.inl rfl) (.inl rfl) (.inl rfl) (.inl rfl) (.inl rfl) (.inl rfl) (.inl rfl) (.inl rfl) (.inl rfl) (.inl rfl) (.inl rfl) (.inl rfl) (.inl rfl) (.inr b38) (.inl rfl) (.inl rfl) (.inl rfl) (.inl rfl) (.inl rfl) (.inl rfl) (.inl rfl) (.inl rfl) (.inl rfl) (.inl rfl) (.inl rfl) (.inl rfl) (.inl rfl) (.inl rfl) (.inl rfl)); first | with_reducible assumption | ((with_reducible refine Mask.sub hm ?_); first | exact rfl | (simp only [pageBit_ser]; exact rfl)) | with_reducible apply setReg_within | with_reducible apply runJob_within | with_reducible apply setCampaign_within | with_reducible apply done_within | with_reducible apply nextBlock_within | (with_reducible refine runJob_within_eq (by assumption) ?_ ?_) | with_reducible exact Within.refl | split) | intro _ | split | dsimp only)

theorem campaignBlock_within {m : Nat} {s t : State} (h : Within m s t) (hm : 0x2a98403c04aa20 ||| m = m) : Within m s (campaignBlock t) := by
  unfold campaignBlock
  repeat' (first | with_reducible assumption | ((with_reducible refine Mask.sub hm ?_); first | exact rfl | (simp only [pageBit_ser]; exact rfl)) | with_reducible apply setReg_within | with_reducible apply setB_within | with_reducible apply putBlock_within | with_reducible exact Within.refl | intro _ | split | dsimp only)

theorem execCampaignBlockDue_within {m : Nat} {s t u : State} (h : Within m s t) (hm : 0x2a98403c04aa20 ||| m = m) (e : execCampaignBlockDue t = .next u) : Within m s u := by
  unfold execCampaignBlockDue at e
  try dsimp only at e
  repeat' split at e
  all_goals (cases e; repeat' (first | with_reducible assumption | ((with_reducible refine Mask.sub hm ?_); first | exact rfl | (simp only [pageBit_ser]; exact rfl)) | with_reducible apply setReg_within | with_reducible apply campaignBlock_within | with_reducible exact Within.refl | intro _ | split | dsimp only))

theorem campaignTakenOver_within {m : Nat} {s t : State} (h : Within m s t) (hm : 0x22000028000020 ||| m = m) : Within m s (campaignTakenOver t) := by
  unfold campaignTakenOver
  repeat' (first | with_reducible assumption | ((with_reducible refine Mask.sub hm ?_); first | exact rfl | (simp only [pageBit_ser]; exact rfl)) | with_reducible apply setReg_within | with_reducible apply endCampaign_within | with_reducible exact Within.refl | intro _ | split | dsimp only)

theorem execMgtBlkReset_within {m : Nat} {s t u : State} (h : Within m s t) (hm : 0x20000034000824 ||| m = m) (e : execMgtBlkReset t = .next u) : Within m s u := by
  unfold execMgtBlkReset at e
  try dsimp only at e
  repeat' split at e
  all_goals (cases e; repeat' (first | with_reducible assumption | ((with_reducible refine Mask.sub hm ?_); first | exact rfl | (simp only [pageBit_ser]; exact rfl)) | with_reducible apply setReg_within | with_reducible apply blkReset_within | with_reducible apply loadReset_within | with_reducible exact Within.refl | intro _ | split | dsimp only))

end Sys2Proof.Machine
end

