-- ==== Sys2Proof/Laws/WithinBursts.lean ====
section
/-! SUPPORT. Sys2Proof/Laws/WithinBursts.lean: the parts of a state that the operations of Machine/Bursts.lean may change. -/
namespace Sys2Proof.Machine

theorem stageFrame_within {m : Nat} {s t : State} (h : Within m s t) (a0 : Purpose) (a1 : Stage) (hm : 0x80000000000 ||| m = m) : Within m s (stageFrame a0 a1 t) := by
  unfold stageFrame
  repeat' (first | with_reducible assumption | ((with_reducible refine Mask.sub hm ?_); first | exact rfl | (simp only [pageBit_ser]; exact rfl)) | with_reducible apply setReg_within | with_reducible apply setFrame_within | with_reducible exact Within.refl | intro _ | split | dsimp only)

theorem takeItem_within {m : Nat} {s t : State} (h : Within m s t) (a0 : PlanItem) (hm : 0x2008c021004000 ||| m = m) : Within m s (takeItem a0 t) := by
  have b38 := Mask.has (i := 38) hm rfl
  unfold takeItem
  repeat' (first | with_reducible assumption | ((with_reducible refine Mask.sub hm ?_); first | exact rfl | (simp only [pageBit_ser]; exact rfl)) | with_reducible apply setReg_within | with_reducible apply openTx_within | with_reducible apply stageFrame_within | with_reducible apply failTx_within | with_reducible apply loseBeacon_within | (with_reducible refine openTx_within_eq (by assumption) ?_ ?_) | with_reducible exact Within.refl | ((with_reducible refine Within.upd ?_ (.inl rfl) (.inl rfl) (.inl rfl) (.inl rfl) (.inl rfl) (.inl rfl) (.inl rfl) (.inl rfl) (.inl rfl) (.inl rfl) (.inl rfl) (.inl rfl) (.inl rfl) (.inl rfl) (.inr b38) (.inl rfl) (.inl rfl) (.inl rfl) (.inl rfl) (.inl rfl) (.inl rfl) (.inl rfl) (.inl rfl) (.inl rfl) (.inl rfl) (.inl rfl) (.inl rfl) (.inl rfl) (.inl rfl) (.inl rfl)); first | with_reducible assumption | ((with_reducible refine Mask.sub hm ?_); first | exact rfl | (simp only [pageBit_ser]; exact rfl)) | with_reducible apply setReg_within | with_reducible apply openTx_within | with_reducible apply stageFrame_within | with_reducible apply failTx_within | with_reducible apply loseBeacon_within | (with_reducible refine openTx_within_eq (by assumption) ?_ ?_) | with_reducible exact Within.refl | split) | intro _ | split | dsimp only)

theorem execTxEngineTake_within {m : Nat} {s t u : State} (h : Within m s t) (a0 : Port) (a1 : Wave) (hm : 0x2008c021004000 ||| m = m) (e : execTxEngineTake a0 a1 t = .next u) : Within m s u := by
  have b38 := Mask.has (i := 38) hm rfl
  unfold execTxEngineTake at e
  try dsimp only at e
  repeat' split at e
  all_goals (cases e; repeat' (first | with_reducible assumption | ((with_reducible refine Mask.sub hm ?_); first | exact rfl | (simp only [pageBit_ser]; exact rfl)) | with_reducible apply setReg_within | with_reducible apply takeItem_within | with_reducible exact Within.refl | ((with_reducible refine Within.upd ?_ (.inl rfl) (.inl rfl) (.inl rfl) (.inl rfl) (.inl rfl) (.inl rfl) (.inl rfl) (.inl rfl) (.inl rfl) (.inl rfl) (.inl rfl) (.inl rfl) (.inl rfl) (.inl rfl) (.inr b38) (.inl rfl) (.inl rfl) (.inl rfl) (.inl rfl) (.inl rfl) (.inl rfl) (.inl rfl) (.inl rfl) (.inl rfl) (.inl rfl) (.inl rfl) (.inl rfl) (.inl rfl) (.inl rfl) (.inl rfl)); first | with_reducible assumption | ((with_reducible refine Mask.sub hm ?_); first | exact rfl | (simp only [pageBit_ser]; exact rfl)) | with_reducible apply setReg_within | with_reducible apply takeItem_within | with_reducible exact Within.refl | split) | intro _ | split | dsimp only))

theorem recoverFrames_within {m : Nat} {s t : State} (h : Within m s t) (hm : 0x80000000000 ||| m = m) : Within m s (recoverFrames t) := by
  unfold recoverFrames
  repeat' (first | with_reducible assumption | ((with_reducible refine Mask.sub hm ?_); first | exact rfl | (simp only [pageBit_ser]; exact rfl)) | with_reducible apply setReg_within | with_reducible apply setMac_within | with_reducible exact Within.refl | intro _ | split | dsimp only)

theorem acceptSent_within {m : Nat} {s t : State} (h : Within m s t) (a0 : Nat) (hm : 0x2088002000a200 ||| m = m) : Within m s (acceptSent a0 t) := by
  unfold acceptSent
  repeat' (first | with_reducible assumption | ((with_reducible refine Mask.sub hm ?_); first | exact rfl | (simp only [pageBit_ser]; exact rfl)) | with_reducible apply setReg_within | with_reducible apply setAssoc_within | with_reducible exact Within.refl | intro _ | split | dsimp only)

theorem frameSent_within {m : Nat} {s t : State} (h : Within m s t) (a0 : Frame) (hm : 0x2088002001a200 ||| m = m) : Within m s (frameSent a0 t) := by
  unfold frameSent
  repeat' (first | with_reducible assumption | ((with_reducible refine Mask.sub hm ?_); first | exact rfl | (simp only [pageBit_ser]; exact rfl)) | with_reducible apply setReg_within | with_reducible apply acceptSent_within | with_reducible apply dropFrame_within | with_reducible apply setAssoc_within | with_reducible apply count_within | with_reducible apply setFrame_within | with_reducible exact Within.refl | intro _ | split | dsimp only)

theorem sentBurst_within {m : Nat} {s t : State} (h : Within m s t) (a0 : Purpose) (hm : 0x2088002001e200 ||| m = m) : Within m s (sentBurst a0 t) := by
  have b47 := Mask.has (i := 47) hm rfl
  unfold sentBurst
  repeat' (first | with_reducible assumption | ((with_reducible refine Mask.sub hm ?_); first | exact rfl | (simp only [pageBit_ser]; exact rfl)) | with_reducible apply setReg_within | with_reducible apply count_within | with_reducible apply frameSent_within | with_reducible exact Within.refl | ((with_reducible refine Within.upd ?_ (.inl rfl) (.inl rfl) (.inl rfl) (.inl rfl) (.inl rfl) (.inl rfl) (.inl rfl) (.inl rfl) (.inl rfl) (.inl rfl) (.inl rfl) (.inl rfl) (.inl rfl) (.inl rfl) (.inl rfl) (.inl rfl) (.inl rfl) (.inl rfl) (.inl rfl) (.inl rfl) (.inl rfl) (.inl rfl) (.inl rfl) (.inr b47) (.inl rfl) (.inl rfl) (.inl rfl) (.inl rfl) (.inl rfl) (.inl rfl)); first | with_reducible assumption | ((with_reducible refine Mask.sub hm ?_); first | exact rfl | (simp only [pageBit_ser]; exact rfl)) | with_reducible apply setReg_within | with_reducible apply count_within | with_reducible apply frameSent_within | with_reducible exact Within.refl | split) | intro _ | split | dsimp only)

theorem completeReceive_within {m : Nat} {s t : State} (h : Within m s t) (a0 : Nat) (a1 : RxResult) (hm : 0x20038821b80000 ||| m = m) : Within m s (completeReceive a0 a1 t) := by
  unfold completeReceive
  repeat' (first | with_reducible assumption | ((with_reducible refine Mask.sub hm ?_); first | exact rfl | (simp only [pageBit_ser]; exact rfl)) | with_reducible apply setReg_within | with_reducible apply combinedDecode_within | with_reducible apply setBurst_within | with_reducible apply nbDecoded_within | with_reducible apply bbDecoded_within | with_reducible apply noteOffset_within | with_reducible apply completeBurst_within | (with_reducible refine nbDecoded_within_eq (by assumption) ?_ ?_) | (with_reducible refine bbDecoded_within_eq (by assumption) ?_ ?_) | with_reducible exact Within.refl | intro _ | split | dsimp only)

theorem completeSend_within {m : Nat} {s t : State} (h : Within m s t) (a0 : Nat) (hm : 0x208b802181e200 ||| m = m) : Within m s (completeSend a0 t) := by
  unfold completeSend
  repeat' (first | with_reducible assumption | ((with_reducible refine Mask.sub hm ?_); first | exact rfl | (simp only [pageBit_ser]; exact rfl)) | with_reducible apply setReg_within | with_reducible apply sentBurst_within | with_reducible apply completeBurst_within | with_reducible apply setBurst_within | with_reducible exact Within.refl | intro _ | split | dsimp only)

theorem execBurstCompletion_within {m : Nat} {s t u : State} (h : Within m s t) (a0 : BurstId) (a1 : RxResult) (hm : 0x208b8821b9e200 ||| m = m) (e : execBurstCompletion a0 a1 t = .next u) : Within m s u := by
  unfold execBurstCompletion at e
  try dsimp only at e
  repeat' split at e
  all_goals (cases e; repeat' (first | with_reducible assumption | ((with_reducible refine Mask.sub hm ?_); first | exact rfl | (simp only [pageBit_ser]; exact rfl)) | with_reducible apply setReg_within | with_reducible apply completeReceive_within | with_reducible apply completeSend_within | with_reducible exact Within.refl | intro _ | split | dsimp only))

theorem execNbHeaderDecoded_within {m : Nat} {s t u : State} (h : Within m s t) (a0 : BurstId) (a1 : BitVec 64) (hm : 0x20838021900000 ||| m = m) (e : execNbHeaderDecoded a0 a1 t = .next u) : Within m s u := by
  unfold execNbHeaderDecoded at e
  try dsimp only at e
  repeat' split at e
  all_goals (cases e; repeat' (first | with_reducible assumption | ((with_reducible refine Mask.sub hm ?_); first | exact rfl | (simp only [pageBit_ser]; exact rfl)) | with_reducible apply setReg_within | with_reducible apply nbHeaderDecoded_within | with_reducible exact Within.refl | intro _ | split | dsimp only))

theorem laneFrame_within {m : Nat} {s t : State} (h : Within m s t) (a0 : Nat) (a1 : Frame) (hm : 0x28b8483425ba00 ||| m = m) : Within m s (laneFrame a0 a1 t) := by
  unfold laneFrame
  repeat' (first | with_reducible assumption | ((with_reducible refine Mask.sub hm ?_); first | exact rfl | (simp only [pageBit_ser]; exact rfl)) | with_reducible apply setReg_within | with_reducible apply planJoinUp_within | with_reducible apply sealBytes_within | with_reducible apply planFailed_within | with_reducible apply takeTadj_within | with_reducible apply frameSent_within | with_reducible apply notePlanned_within | with_reducible apply setFrame_within | with_reducible apply laneNgael_within | (with_reducible refine sealBytes_within_eq (by assumption) ?_ ?_) | (with_reducible refine takeTadj_within_eq (by assumption) ?_ ?_) | with_reducible exact Within.refl | intro _ | split | dsimp only)

theorem flushLanes_within {m : Nat} {s t : State} (h : Within m s t) (hm : 0x28b8483425ba00 ||| m = m) : Within m s (flushLanes t) := by
  unfold flushLanes
  repeat' (first | with_reducible assumption | ((with_reducible refine Mask.sub hm ?_); first | exact rfl | (simp only [pageBit_ser]; exact rfl)) | with_reducible apply setReg_within | with_reducible apply laneFrame_within | with_reducible apply Within.foldl | with_reducible exact Within.refl | intro _ | split | dsimp only)

theorem planLaneBeacon_within {m : Nat} {s t : State} (h : Within m s t) (a0 : Nat) (hm : 0x2898402004e200 ||| m = m) : Within m s (planLaneBeacon a0 t) := by
  have b38 := Mask.has (i := 38) hm rfl
  unfold planLaneBeacon
  repeat' (first | with_reducible assumption | ((with_reducible refine Mask.sub hm ?_); first | exact rfl | (simp only [pageBit_ser]; exact rfl)) | with_reducible apply setReg_within | with_reducible apply runJob_within | with_reducible apply loseBeacon_within | (with_reducible refine runJob_within_eq (by assumption) ?_ ?_) | with_reducible exact Within.refl | ((with_reducible refine Within.upd ?_ (.inl rfl) (.inl rfl) (.inl rfl) (.inl rfl) (.inl rfl) (.inl rfl) (.inl rfl) (.inl rfl) (.inl rfl) (.inl rfl) (.inl rfl) (.inl rfl) (.inl rfl) (.inl rfl) (.inr b38) (.inl rfl) (.inl rfl) (.inl rfl) (.inl rfl) (.inl rfl) (.inl rfl) (.inl rfl) (.inl rfl) (.inl rfl) (.inl rfl) (.inl rfl) (.inl rfl) (.inl rfl) (.inl rfl) (.inl rfl)); first | with_reducible assumption | ((with_reducible refine Mask.sub hm ?_); first | exact rfl | (simp only [pageBit_ser]; exact rfl)) | with_reducible apply setReg_within | with_reducible apply runJob_within | with_reducible apply loseBeacon_within | (with_reducible refine runJob_within_eq (by assumption) ?_ ?_) | with_reducible exact Within.refl | split) | intro _ | split | dsimp only)

theorem planLaneBeacons_within {m : Nat} {s t : State} (h : Within m s t) (hm : 0x2898402004e200 ||| m = m) : Within m s (planLaneBeacons t) := by
  unfold planLaneBeacons
  repeat' (first | with_reducible assumption | ((with_reducible refine Mask.sub hm ?_); first | exact rfl | (simp only [pageBit_ser]; exact rfl)) | with_reducible apply setReg_within | with_reducible apply planLaneBeacon_within | with_reducible apply Within.foldl | with_reducible exact Within.refl | intro _ | split | dsimp only)

theorem sendLaneBeacons_within {m : Nat} {s t : State} (h : Within m s t) (hm : 0x20204000001000 ||| m = m) : Within m s (sendLaneBeacons t) := by
  have b38 := Mask.has (i := 38) hm rfl
  unfold sendLaneBeacons
  repeat' (first | with_reducible assumption | ((with_reducible refine Mask.sub hm ?_); first | exact rfl | (simp only [pageBit_ser]; exact rfl)) | with_reducible apply setReg_within | with_reducible apply laneNgael_within | with_reducible apply Within.foldl | with_reducible exact Within.refl | ((with_reducible refine Within.upd ?_ (.inl rfl) (.inl rfl) (.inl rfl) (.inl rfl) (.inl rfl) (.inl rfl) (.inl rfl) (.inl rfl) (.inl rfl) (.inl rfl) (.inl rfl) (.inl rfl) (.inl rfl) (.inl rfl) (.inr b38) (.inl rfl) (.inl rfl) (.inl rfl) (.inl rfl) (.inl rfl) (.inl rfl) (.inl rfl) (.inl rfl) (.inl rfl) (.inl rfl) (.inl rfl) (.inl rfl) (.inl rfl) (.inl rfl) (.inl rfl)); first | with_reducible assumption | ((with_reducible refine Mask.sub hm ?_); first | exact rfl | (simp only [pageBit_ser]; exact rfl)) | with_reducible apply setReg_within | with_reducible apply laneNgael_within | with_reducible apply Within.foldl | with_reducible exact Within.refl | split) | intro _ | split | dsimp only)

theorem execBcnBlkReset_within {m : Nat} {s t u : State} (h : Within m s t) (hm : 0x20000034004800 ||| m = m) (e : execBcnBlkReset t = .next u) : Within m s u := by
  unfold execBcnBlkReset at e
  try dsimp only at e
  repeat' split at e
  all_goals (cases e; repeat' (first | with_reducible assumption | ((with_reducible refine Mask.sub hm ?_); first | exact rfl | (simp only [pageBit_ser]; exact rfl)) | with_reducible apply setReg_within | with_reducible apply blkReset_within | with_reducible exact Within.refl | intro _ | split | dsimp only))

end Sys2Proof.Machine
end

