-- ==== Sys2Proof/Laws/WithinParent.lean ====
section
/-! SUPPORT. Sys2Proof/Laws/WithinParent.lean: the parts of a state that the operations of Machine/Parent.lean may change. -/
namespace Sys2Proof.Machine

theorem upFrame_within {m : Nat} {s t : State} (h : Within m s t) (a0 : Nat) (a1 : Nat) (a2 : List Byte) (hm : 0x80000000000 ||| m = m) : Within m s (upFrame a0 a1 a2 t) := by
  unfold upFrame
  repeat' (first | with_reducible assumption | ((with_reducible refine Mask.sub hm ?_); first | exact rfl | (simp only [pageBit_ser]; exact rfl)) | with_reducible apply setReg_within | with_reducible apply addFrame_within | with_reducible exact Within.refl | intro _ | split | dsimp only)

theorem tellParent_within {m : Nat} {s t : State} (h : Within m s t) (a0 : Nat) (a1 : Nat) (a2 : List Byte) (hm : 0x20280000001000 ||| m = m) : Within m s (tellParent a0 a1 a2 t) := by
  unfold tellParent
  repeat' (first | with_reducible assumption | ((with_reducible refine Mask.sub hm ?_); first | exact rfl | (simp only [pageBit_ser]; exact rfl)) | with_reducible apply setReg_within | with_reducible apply laneNgael_within | with_reducible apply upFrame_within | with_reducible exact Within.refl | intro _ | split | dsimp only)

theorem drawTag_within {m : Nat} {s t : State} (h : Within m s t) (hm : 0x8000000040000 ||| m = m) : Within m s (drawTag t).2 := by
  unfold drawTag
  repeat' (first | with_reducible assumption | ((with_reducible refine Mask.sub hm ?_); first | exact rfl | (simp only [pageBit_ser]; exact rfl)) | with_reducible apply setReg_within | with_reducible apply randBytes_within | (with_reducible refine randBytes_within_eq (by assumption) ?_ ?_) | with_reducible exact Within.refl | intro _ | split | dsimp only)

theorem drawTag_within_eq {m : Nat} {s t u : State}  {y0} (e : drawTag t = (y0, u)) (h : Within m s t) (hm : 0x8000000040000 ||| m = m) : Within m s u := by
  have k := drawTag_within h hm
  rw [e] at k
  exact k

theorem solicit_within {m : Nat} {s t : State} (h : Within m s t) (hm : 0x28a80020053200 ||| m = m) : Within m s (solicit t) := by
  unfold solicit
  repeat' (first | with_reducible assumption | ((with_reducible refine Mask.sub hm ?_); first | exact rfl | (simp only [pageBit_ser]; exact rfl)) | with_reducible apply setReg_within | with_reducible apply raise_within | with_reducible apply drawTag_within | with_reducible apply tellParent_within | with_reducible apply setParent_within | (with_reducible refine drawTag_within_eq (by assumption) ?_ ?_) | with_reducible exact Within.refl | intro _ | split | dsimp only)

theorem solicitWait_within {m : Nat} {s t : State} (h : Within m s t) (hm : 0x28a80020053200 ||| m = m) : Within m s (solicitWait t) := by
  unfold solicitWait
  repeat' (first | with_reducible assumption | ((with_reducible refine Mask.sub hm ?_); first | exact rfl | (simp only [pageBit_ser]; exact rfl)) | with_reducible apply setReg_within | with_reducible apply setParent_within | with_reducible apply solicit_within | with_reducible exact Within.refl | intro _ | split | dsimp only)

theorem execSolicitWaitExpiry_within {m : Nat} {s t u : State} (h : Within m s t) (hm : 0x28a80020053200 ||| m = m) (e : execSolicitWaitExpiry t = .next u) : Within m s u := by
  unfold execSolicitWaitExpiry at e
  try dsimp only at e
  repeat' split at e
  all_goals (cases e; repeat' (first | with_reducible assumption | ((with_reducible refine Mask.sub hm ?_); first | exact rfl | (simp only [pageBit_ser]; exact rfl)) | with_reducible apply setReg_within | with_reducible apply solicitWait_within | with_reducible exact Within.refl | intro _ | split | dsimp only))

theorem takeOffer_within {m : Nat} {s t : State} (h : Within m s t) (a0 : List Byte) (hm : 0x28a80000043200 ||| m = m) : Within m s (takeOffer a0 t) := by
  unfold takeOffer
  repeat' (first | with_reducible assumption | ((with_reducible refine Mask.sub hm ?_); first | exact rfl | (simp only [pageBit_ser]; exact rfl)) | with_reducible apply setReg_within | with_reducible apply drawNonce_within | with_reducible apply setParent_within | with_reducible apply tellParent_within | (with_reducible refine drawNonce_within_eq (by assumption) ?_ ?_) | with_reducible exact Within.refl | intro _ | split | dsimp only)

theorem takeAccept_within {m : Nat} {s t : State} (h : Within m s t) (a0 : List Byte) (hm : 0x20a80020043200 ||| m = m) : Within m s (takeAccept a0 t) := by
  unfold takeAccept
  repeat' (first | with_reducible assumption | ((with_reducible refine Mask.sub hm ?_); first | exact rfl | (simp only [pageBit_ser]; exact rfl)) | with_reducible apply setReg_within | with_reducible apply countJob_within | with_reducible apply setParent_within | with_reducible apply parentFrame_within | with_reducible apply laneNgael_within | (with_reducible refine parentFrame_within_eq (by assumption) ?_ ?_) | with_reducible exact Within.refl | intro _ | split | dsimp only)

theorem takeHold_within {m : Nat} {s t : State} (h : Within m s t) (a0 : Nat) (hm : 0x28a80020053200 ||| m = m) : Within m s (takeHold a0 t) := by
  unfold takeHold
  repeat' (first | with_reducible assumption | ((with_reducible refine Mask.sub hm ?_); first | exact rfl | (simp only [pageBit_ser]; exact rfl)) | with_reducible apply setReg_within | with_reducible apply setParent_within | with_reducible apply solicit_within | with_reducible exact Within.refl | intro _ | split | dsimp only)

theorem parentAnswer_within {m : Nat} {s t : State} (h : Within m s t) (a0 : FrameIn) (hm : 0x28a80020053200 ||| m = m) : Within m s (parentAnswer a0 t) := by
  unfold parentAnswer
  repeat' (first | with_reducible assumption | ((with_reducible refine Mask.sub hm ?_); first | exact rfl | (simp only [pageBit_ser]; exact rfl)) | with_reducible apply setReg_within | with_reducible apply takeOffer_within | with_reducible apply takeHold_within | with_reducible apply takeAccept_within | with_reducible exact Within.refl | intro _ | split | dsimp only)

theorem execParentJoinAnswer_within {m : Nat} {s t u : State} (h : Within m s t) (a0 : BurstId) (hm : 0x28a88020053200 ||| m = m) (e : execParentJoinAnswer a0 t = .next u) : Within m s u := by
  unfold execParentJoinAnswer at e
  try dsimp only at e
  repeat' split at e
  all_goals (cases e; repeat' (first | with_reducible assumption | ((with_reducible refine Mask.sub hm ?_); first | exact rfl | (simp only [pageBit_ser]; exact rfl)) | with_reducible apply setReg_within | with_reducible apply onFrame_within | with_reducible apply parentAnswer_within | with_reducible exact Within.refl | intro _ | split | dsimp only))

theorem beginBeaconing_within {m : Nat} {s t : State} (h : Within m s t) (hm : 0x4 ||| m = m) : Within m s (beginBeaconing t) := by
  unfold beginBeaconing
  repeat' (first | with_reducible assumption | ((with_reducible refine Mask.sub hm ?_); first | exact rfl | (simp only [pageBit_ser]; exact rfl)) | with_reducible apply setReg_within | with_reducible apply setF_within | with_reducible exact Within.refl | intro _ | split | dsimp only)

theorem alignToParent_within {m : Nat} {s t : State} (h : Within m s t) (hm : 0x20880040012200 ||| m = m) : Within m s (alignToParent t) := by
  have b30 := Mask.has (i := 30) hm rfl
  unfold alignToParent
  repeat' (first | with_reducible assumption | ((with_reducible refine Mask.sub hm ?_); first | exact rfl | (simp only [pageBit_ser]; exact rfl)) | with_reducible apply setReg_within | with_reducible apply setF_within | with_reducible apply setParent_within | with_reducible exact Within.refl | ((with_reducible refine Within.upd ?_ (.inl rfl) (.inl rfl) (.inl rfl) (.inl rfl) (.inl rfl) (.inl rfl) (.inr b30) (.inl rfl) (.inl rfl) (.inl rfl) (.inl rfl) (.inl rfl) (.inl rfl) (.inl rfl) (.inl rfl) (.inl rfl) (.inl rfl) (.inl rfl) (.inl rfl) (.inl rfl) (.inl rfl) (.inl rfl) (.inl rfl) (.inl rfl) (.inl rfl) (.inl rfl) (.inl rfl) (.inl rfl) (.inl rfl) (.inl rfl)); first | with_reducible assumption | ((with_reducible refine Mask.sub hm ?_); first | exact rfl | (simp only [pageBit_ser]; exact rfl)) | with_reducible apply setReg_within | with_reducible apply setF_within | with_reducible apply setParent_within | with_reducible exact Within.refl | split) | intro _ | split | dsimp only)

theorem parentJoined_within {m : Nat} {s t : State} (h : Within m s t) (hm : 0x20880060012204 ||| m = m) : Within m s (parentJoined t) := by
  unfold parentJoined
  repeat' (first | with_reducible assumption | ((with_reducible refine Mask.sub hm ?_); first | exact rfl | (simp only [pageBit_ser]; exact rfl)) | with_reducible apply setReg_within | with_reducible apply setParent_within | with_reducible apply setF_within | with_reducible apply setB_within | with_reducible apply raise_within | with_reducible apply beginBeaconing_within | with_reducible apply alignToParent_within | with_reducible exact Within.refl | intro _ | split | dsimp only)

theorem execParentJoined_within {m : Nat} {s t u : State} (h : Within m s t) (hm : 0x20880060012204 ||| m = m) (e : execParentJoined t = .next u) : Within m s u := by
  unfold execParentJoined at e
  try dsimp only at e
  repeat' split at e
  all_goals (cases e; repeat' (first | with_reducible assumption | ((with_reducible refine Mask.sub hm ?_); first | exact rfl | (simp only [pageBit_ser]; exact rfl)) | with_reducible apply setReg_within | with_reducible apply parentJoined_within | with_reducible exact Within.refl | intro _ | split | dsimp only))

theorem execParentLost_within {m : Nat} {s t u : State} (h : Within m s t) (hm : 0x20880020012200 ||| m = m) (e : execParentLost t = .next u) : Within m s u := by
  unfold execParentLost at e
  try dsimp only at e
  repeat' split at e
  all_goals (cases e; repeat' (first | with_reducible assumption | ((with_reducible refine Mask.sub hm ?_); first | exact rfl | (simp only [pageBit_ser]; exact rfl)) | with_reducible apply setReg_within | with_reducible apply parentLost_within | with_reducible exact Within.refl | intro _ | split | dsimp only))

theorem execTreeWaitExpiry_within {m : Nat} {s t u : State} (h : Within m s t) (hm : 0x4 ||| m = m) (e : execTreeWaitExpiry t = .next u) : Within m s u := by
  unfold execTreeWaitExpiry at e
  try dsimp only at e
  repeat' split at e
  all_goals (cases e; repeat' (first | with_reducible assumption | ((with_reducible refine Mask.sub hm ?_); first | exact rfl | (simp only [pageBit_ser]; exact rfl)) | with_reducible apply setReg_within | with_reducible apply beginBeaconing_within | with_reducible exact Within.refl | intro _ | split | dsimp only))

theorem planItem_within {m : Nat} {s t : State} (h : Within m s t) (a0 : PlanItem) (hm : 0x4000000000 ||| m = m) : Within m s (planItem a0 t) := by
  have b38 := Mask.has (i := 38) hm rfl
  unfold planItem
  repeat' (first | with_reducible assumption | ((with_reducible refine Mask.sub hm ?_); first | exact rfl | (simp only [pageBit_ser]; exact rfl)) | with_reducible apply setReg_within | with_reducible exact Within.refl | ((with_reducible refine Within.upd ?_ (.inl rfl) (.inl rfl) (.inl rfl) (.inl rfl) (.inl rfl) (.inl rfl) (.inl rfl) (.inl rfl) (.inl rfl) (.inl rfl) (.inl rfl) (.inl rfl) (.inl rfl) (.inl rfl) (.inr b38) (.inl rfl) (.inl rfl) (.inl rfl) (.inl rfl) (.inl rfl) (.inl rfl) (.inl rfl) (.inl rfl) (.inl rfl) (.inl rfl) (.inl rfl) (.inl rfl) (.inl rfl) (.inl rfl) (.inl rfl)); first | with_reducible assumption | ((with_reducible refine Mask.sub hm ?_); first | exact rfl | (simp only [pageBit_ser]; exact rfl)) | with_reducible apply setReg_within | with_reducible exact Within.refl | split) | intro _ | split | dsimp only)

theorem contend_within {m : Nat} {s t : State} (h : Within m s t) (a0 : Frame) (a1 : Nat) (hm : 0x8084000040000 ||| m = m) : Within m s (contend a0 a1 t) := by
  unfold contend
  repeat' (first | with_reducible assumption | ((with_reducible refine Mask.sub hm ?_); first | exact rfl | (simp only [pageBit_ser]; exact rfl)) | with_reducible apply setReg_within | with_reducible apply randBytes_within | with_reducible apply dropFrame_within | with_reducible apply planItem_within | (with_reducible refine randBytes_within_eq (by assumption) ?_ ?_) | with_reducible exact Within.refl | intro _ | split | dsimp only)

theorem grantBody_within {m : Nat} {s t : State} (h : Within m s t) (a0 : Bool) (a1 : Nat) (hm : 0x20880020042200 ||| m = m) : Within m s (grantBody a0 a1 t).2.2.2 := by
  unfold grantBody
  repeat' (first | with_reducible assumption | ((with_reducible refine Mask.sub hm ?_); first | exact rfl | (simp only [pageBit_ser]; exact rfl)) | with_reducible apply setReg_within | with_reducible apply dropFrame_within | with_reducible apply parentFrameUnit_within | with_reducible apply setParent_within | (with_reducible refine parentFrameUnit_within_eq (by assumption) ?_ ?_) | with_reducible exact Within.refl | intro _ | split | dsimp only)

theorem grantBody_within_eq {m : Nat} {s t u : State} {a0 : Bool} {a1 : Nat} {y0 y1 y2} (e : grantBody a0 a1 t = (y0, y1, y2, u)) (h : Within m s t) (hm : 0x20880020042200 ||| m = m) : Within m s u := by
  have k := grantBody_within h a0 a1 hm
  rw [e] at k
  exact k

theorem useGrant_within {m : Nat} {s t : State} (h : Within m s t) (a0 : List Byte) (hm : 0x20884020042200 ||| m = m) : Within m s (useGrant a0 t) := by
  have b38 := Mask.has (i := 38) hm rfl
  unfold useGrant
  repeat' (first | with_reducible assumption | ((with_reducible refine Mask.sub hm ?_); first | exact rfl | (simp only [pageBit_ser]; exact rfl)) | with_reducible apply setReg_within | with_reducible apply setParent_within | with_reducible apply grantBody_within | (with_reducible refine grantBody_within_eq (by assumption) ?_ ?_) | with_reducible exact Within.refl | ((with_reducible refine Within.upd ?_ (.inl rfl) (.inl rfl) (.inl rfl) (.inl rfl) (.inl rfl) (.inl rfl) (.inl rfl) (.inl rfl) (.inl rfl) (.inl rfl) (.inl rfl) (.inl rfl) (.inl rfl) (.inl rfl) (.inr b38) (.inl rfl) (.inl rfl) (.inl rfl) (.inl rfl) (.inl rfl) (.inl rfl) (.inl rfl) (.inl rfl) (.inl rfl) (.inl rfl) (.inl rfl) (.inl rfl) (.inl rfl) (.inl rfl) (.inl rfl)); first | with_reducible assumption | ((with_reducible refine Mask.sub hm ?_); first | exact rfl | (simp only [pageBit_ser]; exact rfl)) | with_reducible apply setReg_within | with_reducible apply setParent_within | with_reducible apply grantBody_within | (with_reducible refine grantBody_within_eq (by assumption) ?_ ?_) | with_reducible exact Within.refl | split) | intro _ | split | dsimp only)

theorem planUplink_within {m : Nat} {s t : State} (h : Within m s t) (hm : 0x28884020042200 ||| m = m) : Within m s (planUplink t) := by
  unfold planUplink
  repeat' (first | with_reducible assumption | ((with_reducible refine Mask.sub hm ?_); first | exact rfl | (simp only [pageBit_ser]; exact rfl)) | with_reducible apply setReg_within | with_reducible apply contend_within | with_reducible apply useGrant_within | with_reducible apply upFrame_within | with_reducible apply Within.foldl | with_reducible exact Within.refl | intro _ | split | dsimp only)

end Sys2Proof.Machine
end

