-- ==== Sys2Proof/Laws/WithinTree.lean ====
section
/-! SUPPORT. Sys2Proof/Laws/WithinTree.lean: the parts of a state that the operations of Machine/Tree.lean may change. -/
namespace Sys2Proof.Machine

theorem sendRoute_within {m : Nat} {s t : State} (h : Within m s t) (a0 : Nat) (hm : 0x80000000000 ||| m = m) : Within m s (sendRoute a0 t) := by
  unfold sendRoute
  repeat' (first | with_reducible assumption | ((with_reducible refine Mask.sub hm ?_); first | exact rfl | (simp only [pageBit_ser]; exact rfl)) | with_reducible apply setReg_within | with_reducible apply ownFrame_within | with_reducible apply Within.foldl | with_reducible exact Within.refl | intro _ | split | dsimp only)

theorem sendRoutes_within {m : Nat} {s t : State} (h : Within m s t) (a0 : Nat) (hm : 0x80000000000 ||| m = m) : Within m s (sendRoutes a0 t) := by
  unfold sendRoutes
  repeat' (first | with_reducible assumption | ((with_reducible refine Mask.sub hm ?_); first | exact rfl | (simp only [pageBit_ser]; exact rfl)) | with_reducible apply setReg_within | with_reducible apply sendRoute_within | with_reducible apply Within.foldl | with_reducible exact Within.refl | intro _ | split | dsimp only)

theorem runSetRoute_within {m : Nat} {s t : State} (h : Within m s t) (a0 : Outstanding) (hm : 0x20880034012a00 ||| m = m) : Within m s (runSetRoute a0 t) := by
  unfold runSetRoute
  repeat' (first | with_reducible assumption | ((with_reducible refine Mask.sub hm ?_); first | exact rfl | (simp only [pageBit_ser]; exact rfl)) | with_reducible apply setReg_within | with_reducible apply setRelay_within | with_reducible apply done_within | with_reducible apply sendRoutes_within | with_reducible exact Within.refl | intro _ | split | dsimp only)

theorem execSetRoute_within {m : Nat} {s t u : State} (h : Within m s t) (a0 : CmdSrc) (hm : 0x20880034012a00 ||| m = m) (e : execSetRoute a0 t = .next u) : Within m s u := by
  unfold execSetRoute at e
  try dsimp only at e
  repeat' split at e
  all_goals (cases e; repeat' (first | with_reducible assumption | ((with_reducible refine Mask.sub hm ?_); first | exact rfl | (simp only [pageBit_ser]; exact rfl)) | with_reducible apply setReg_within | with_reducible apply issue_within | with_reducible apply runSetRoute_within | with_reducible exact Within.refl | intro _ | split | dsimp only))

theorem runClearRoute_within {m : Nat} {s t : State} (h : Within m s t) (a0 : Outstanding) (hm : 0x20880034012a00 ||| m = m) : Within m s (runClearRoute a0 t) := by
  unfold runClearRoute
  repeat' (first | with_reducible assumption | ((with_reducible refine Mask.sub hm ?_); first | exact rfl | (simp only [pageBit_ser]; exact rfl)) | with_reducible apply setReg_within | with_reducible apply done_within | with_reducible apply setRelay_within | with_reducible exact Within.refl | intro _ | split | dsimp only)

theorem execClearRoute_within {m : Nat} {s t u : State} (h : Within m s t) (a0 : CmdSrc) (hm : 0x20880034012a00 ||| m = m) (e : execClearRoute a0 t = .next u) : Within m s u := by
  unfold execClearRoute at e
  try dsimp only at e
  repeat' split at e
  all_goals (cases e; repeat' (first | with_reducible assumption | ((with_reducible refine Mask.sub hm ?_); first | exact rfl | (simp only [pageBit_ser]; exact rfl)) | with_reducible apply setReg_within | with_reducible apply issue_within | with_reducible apply runClearRoute_within | with_reducible exact Within.refl | intro _ | split | dsimp only))

theorem runAppoint_within {m : Nat} {s t : State} (h : Within m s t) (a0 : Outstanding) (hm : 0x20880034012a00 ||| m = m) : Within m s (runAppoint a0 t) := by
  unfold runAppoint
  repeat' (first | with_reducible assumption | ((with_reducible refine Mask.sub hm ?_); first | exact rfl | (simp only [pageBit_ser]; exact rfl)) | with_reducible apply setReg_within | with_reducible apply done_within | with_reducible apply ownFrame_within | with_reducible apply setRelay_within | with_reducible exact Within.refl | intro _ | split | dsimp only)

theorem execAppoint_within {m : Nat} {s t u : State} (h : Within m s t) (a0 : CmdSrc) (hm : 0x20880034012a00 ||| m = m) (e : execAppoint a0 t = .next u) : Within m s u := by
  unfold execAppoint at e
  try dsimp only at e
  repeat' split at e
  all_goals (cases e; repeat' (first | with_reducible assumption | ((with_reducible refine Mask.sub hm ?_); first | exact rfl | (simp only [pageBit_ser]; exact rfl)) | with_reducible apply setReg_within | with_reducible apply issue_within | with_reducible apply runAppoint_within | with_reducible exact Within.refl | intro _ | split | dsimp only))

theorem execRptRouteSelWrite_within {m : Nat} {s t u : State} (h : Within m s t) (a0 : Word) (hm : 0x10000 ||| m = m) (e : execRptRouteSelWrite a0 t = .next u) : Within m s u := by
  unfold execRptRouteSelWrite at e
  try dsimp only at e
  repeat' split at e
  all_goals (cases e; repeat' (first | with_reducible assumption | ((with_reducible refine Mask.sub hm ?_); first | exact rfl | (simp only [pageBit_ser]; exact rfl)) | with_reducible apply setReg_within | with_reducible apply setF_within | with_reducible exact Within.refl | intro _ | split | dsimp only))

theorem execRptBlkReset_within {m : Nat} {s t u : State} (h : Within m s t) (hm : 0x20000034010800 ||| m = m) (e : execRptBlkReset t = .next u) : Within m s u := by
  unfold execRptBlkReset at e
  try dsimp only at e
  repeat' split at e
  all_goals (cases e; repeat' (first | with_reducible assumption | ((with_reducible refine Mask.sub hm ?_); first | exact rfl | (simp only [pageBit_ser]; exact rfl)) | with_reducible apply setReg_within | with_reducible apply blkReset_within | with_reducible exact Within.refl | intro _ | split | dsimp only))

theorem forwardStep_within {m : Nat} {s t : State} (h : Within m s t) (a0 : Nat) (a1 : Nat → State → State) (h1 : ∀ x0 x1, Within m s x1 → Within m s (a1 x0 x1)) (hm : 0x20000020010000 ||| m = m) : Within m s (forwardStep a0 a1 t) := by
  unfold forwardStep
  repeat' (first | with_reducible assumption | ((with_reducible refine Mask.sub hm ?_); first | exact rfl | (simp only [pageBit_ser]; exact rfl)) | with_reducible apply setReg_within | with_reducible apply raise_within | with_reducible apply count_within | apply h1 | with_reducible exact Within.refl | intro _ | split | dsimp only)

theorem toChild_within {m : Nat} {s t : State} (h : Within m s t) (a0 : Nat) (a1 : List Byte) (hm : 0x80000000000 ||| m = m) : Within m s (toChild a0 a1 t) := by
  unfold toChild
  repeat' (first | with_reducible assumption | ((with_reducible refine Mask.sub hm ?_); first | exact rfl | (simp only [pageBit_ser]; exact rfl)) | with_reducible apply setReg_within | with_reducible apply ownFrame_within | with_reducible exact Within.refl | intro _ | split | dsimp only)

theorem relayedSolicit_within {m : Nat} {s t : State} (h : Within m s t) (a0 : Nat) (a1 : Nat) (a2 : FrameIn) (hm : 0x2888082005a200 ||| m = m) : Within m s (relayedSolicit a0 a1 a2 t) := by
  unfold relayedSolicit
  repeat' (first | with_reducible assumption | ((with_reducible refine Mask.sub hm ?_); first | exact rfl | (simp only [pageBit_ser]; exact rfl)) | with_reducible apply setReg_within | with_reducible apply raise_within | with_reducible apply count_within | with_reducible apply toChild_within | with_reducible apply setMac_within | with_reducible apply joinSolicit_within | with_reducible apply sendRoutes_within | with_reducible apply setRelay_within | with_reducible exact Within.refl | intro _ | split | dsimp only)

theorem relayedFrame_within {m : Nat} {s t : State} (h : Within m s t) (a0 : Nat) (a1 : Nat) (a2 : Nat) (a3 : List Byte) (hm : 0x28b8483c25ba28 ||| m = m) : Within m s (relayedFrame a0 a1 a2 a3 t) := by
  unfold relayedFrame
  repeat' (first | with_reducible assumption | ((with_reducible refine Mask.sub hm ?_); first | exact rfl | (simp only [pageBit_ser]; exact rfl)) | with_reducible apply setReg_within | with_reducible apply dataFrame_within | with_reducible apply ackIn_within | with_reducible apply tmapFrame_within | with_reducible apply relayedSolicit_within | with_reducible apply joinReq_within | with_reducible apply grantReq_within | with_reducible apply malformed_within | with_reducible exact Within.refl | intro _ | split | dsimp only)

theorem sendInstall_within {m : Nat} {s t : State} (h : Within m s t) (a0 : Nat) (a1 : List Byte) (hm : 0x80000000000 ||| m = m) : Within m s (sendInstall a0 a1 t) := by
  unfold sendInstall
  repeat' (first | with_reducible assumption | ((with_reducible refine Mask.sub hm ?_); first | exact rfl | (simp only [pageBit_ser]; exact rfl)) | with_reducible apply setReg_within | with_reducible apply toChild_within | with_reducible exact Within.refl | intro _ | split | dsimp only)

theorem installReject_within {m : Nat} {s t : State} (h : Within m s t) (a0 : Nat) (a1 : Nat) (a2 : Nat) (a3 : Nat) (a4 : Nat) (hm : 0x80000000000 ||| m = m) : Within m s (installReject a0 a1 a2 a3 a4 t) := by
  unfold installReject
  repeat' (first | with_reducible assumption | ((with_reducible refine Mask.sub hm ?_); first | exact rfl | (simp only [pageBit_ser]; exact rfl)) | with_reducible apply setReg_within | with_reducible apply sendInstall_within | with_reducible exact Within.refl | intro _ | split | dsimp only)

theorem openUp_within {m : Nat} {s t : State} (h : Within m s t) (a0 : Nat) (a1 : Nat) (a2 : Nat) (a3 : JoinUpIn) (a4 : List Byte) (hm : 0x20a8483425ba00 ||| m = m) : Within m s (openUp a0 a1 a2 a3 a4 t) := by
  unfold openUp
  repeat' (first | with_reducible assumption | ((with_reducible refine Mask.sub hm ?_); first | exact rfl | (simp only [pageBit_ser]; exact rfl)) | with_reducible apply setReg_within | with_reducible apply startEnd_within | with_reducible apply setAssoc_within | with_reducible apply clearRelays_within | with_reducible exact Within.refl | intro _ | split | dsimp only)

theorem installUp_within {m : Nat} {s t : State} (h : Within m s t) (a0 : Nat) (a1 : Nat) (a2 : JoinUpIn) (a3 : List Byte) (hm : 0x2898002004a200 ||| m = m) : Within m s (installUp a0 a1 a2 a3 t) := by
  unfold installUp
  repeat' (first | with_reducible assumption | ((with_reducible refine Mask.sub hm ?_); first | exact rfl | (simp only [pageBit_ser]; exact rfl)) | with_reducible apply setReg_within | with_reducible apply runJob_within | with_reducible apply setAssoc_within | with_reducible apply sendInstall_within | (with_reducible refine runJob_within_eq (by assumption) ?_ ?_) | with_reducible exact Within.refl | intro _ | split | dsimp only)

theorem acceptUp_within {m : Nat} {s t : State} (h : Within m s t) (a0 : Nat) (a1 : Nat) (a2 : Nat) (a3 : JoinUpIn) (hm : 0x28b8483425ba00 ||| m = m) : Within m s (acceptUp a0 a1 a2 a3 t) := by
  unfold acceptUp
  repeat' (first | with_reducible assumption | ((with_reducible refine Mask.sub hm ?_); first | exact rfl | (simp only [pageBit_ser]; exact rfl)) | with_reducible apply setReg_within | with_reducible apply runJob_within | with_reducible apply setAssoc_within | with_reducible apply installUp_within | with_reducible apply openUp_within | (with_reducible refine runJob_within_eq (by assumption) ?_ ?_) | with_reducible exact Within.refl | intro _ | split | dsimp only)

theorem judgeUp_within {m : Nat} {s t : State} (h : Within m s t) (a0 : Nat) (a1 : Nat) (a2 : JoinUpIn) (hm : 0x28b8483425ba00 ||| m = m) : Within m s (judgeUp a0 a1 a2 t) := by
  unfold judgeUp
  repeat' (first | with_reducible assumption | ((with_reducible refine Mask.sub hm ?_); first | exact rfl | (simp only [pageBit_ser]; exact rfl)) | with_reducible apply setReg_within | with_reducible apply setAssoc_within | with_reducible apply runJob_within | with_reducible apply installReject_within | with_reducible apply acceptUp_within | (with_reducible refine runJob_within_eq (by assumption) ?_ ?_) | with_reducible exact Within.refl | intro _ | split | dsimp only)

theorem joinUp_within {m : Nat} {s t : State} (h : Within m s t) (a0 : Nat) (a1 : Nat) (a2 : Nat) (a3 : List Byte) (hm : 0x28b8483425ba00 ||| m = m) : Within m s (joinUp a0 a1 a2 a3 t) := by
  unfold joinUp
  repeat' (first | with_reducible assumption | ((with_reducible refine Mask.sub hm ?_); first | exact rfl | (simp only [pageBit_ser]; exact rfl)) | with_reducible apply setReg_within | with_reducible apply malformed_within | with_reducible apply judgeUp_within | with_reducible apply forwardStep_within | with_reducible apply setMac_within | with_reducible apply toParent_within | with_reducible apply count_within | with_reducible apply installReject_within | with_reducible exact Within.refl | intro _ | split | dsimp only)

theorem installKey_within {m : Nat} {s t : State} (h : Within m s t) (a0 : Nat) (a1 : JoinSt) (a2 : List Byte) (hm : 0x2088002000a200 ||| m = m) : Within m s (installKey a0 a1 a2 t) := by
  unfold installKey
  repeat' (first | with_reducible assumption | ((with_reducible refine Mask.sub hm ?_); first | exact rfl | (simp only [pageBit_ser]; exact rfl)) | with_reducible apply setReg_within | with_reducible apply setAssoc_within | with_reducible apply addFrame_within | with_reducible apply setRoute_within | with_reducible exact Within.refl | intro _ | split | dsimp only)

theorem keyInstall_within {m : Nat} {s t : State} (h : Within m s t) (a0 : List Byte) (hm : 0x2088082000a200 ||| m = m) : Within m s (keyInstall a0 t) := by
  unfold keyInstall
  repeat' (first | with_reducible assumption | ((with_reducible refine Mask.sub hm ?_); first | exact rfl | (simp only [pageBit_ser]; exact rfl)) | with_reducible apply setReg_within | with_reducible apply setMac_within | with_reducible apply sendInstall_within | with_reducible apply setRoute_within | with_reducible apply installKey_within | with_reducible apply rejectJoin_within | with_reducible exact Within.refl | intro _ | split | dsimp only)

theorem execKeyInstall_within {m : Nat} {s t u : State} (h : Within m s t) (hm : 0x2088082000a200 ||| m = m) (e : execKeyInstall t = .next u) : Within m s u := by
  unfold execKeyInstall at e
  try dsimp only at e
  repeat' split at e
  all_goals (cases e; repeat' (first | with_reducible assumption | ((with_reducible refine Mask.sub hm ?_); first | exact rfl | (simp only [pageBit_ser]; exact rfl)) | with_reducible apply setReg_within | with_reducible apply takeElem_within | with_reducible apply keyInstall_within | (with_reducible refine takeElem_within_eq (by assumption) ?_ ?_) | with_reducible exact Within.refl | intro _ | split | dsimp only))

theorem execJoinUpHoldExpiry_within {m : Nat} {s t u : State} (h : Within m s t) (hm : 0x80000000000 ||| m = m) (e : execJoinUpHoldExpiry t = .next u) : Within m s u := by
  unfold execJoinUpHoldExpiry at e
  try dsimp only at e
  repeat' split at e
  all_goals (cases e; repeat' (first | with_reducible assumption | ((with_reducible refine Mask.sub hm ?_); first | exact rfl | (simp only [pageBit_ser]; exact rfl)) | with_reducible apply setReg_within | with_reducible apply setMac_within | with_reducible exact Within.refl | intro _ | split | dsimp only))

theorem sessionUnits_within {m : Nat} {s t : State} (h : Within m s t) (a0 : Nat) (a1 : List Byte) (hm : 0x28b8002805ba28 ||| m = m) : Within m s (sessionUnits a0 a1 t) := by
  unfold sessionUnits
  repeat' (first | with_reducible assumption | ((with_reducible refine Mask.sub hm ?_); first | exact rfl | (simp only [pageBit_ser]; exact rfl)) | with_reducible apply setReg_within | with_reducible apply malformed_within | with_reducible apply unitIn_within | (with_reducible refine unitIn_within_eq (by assumption) ?_ ?_) | with_reducible apply Within.foldl | with_reducible exact Within.refl | intro _ | split | dsimp only)

theorem treeUpIn_within {m : Nat} {s t : State} (h : Within m s t) (a0 : Nat) (a1 : Nat) (a2 : Nat) (a3 : List Byte) (hm : 0x28b8002805ba28 ||| m = m) : Within m s (treeUpIn a0 a1 a2 a3 t) := by
  unfold treeUpIn
  repeat' (first | with_reducible assumption | ((with_reducible refine Mask.sub hm ?_); first | exact rfl | (simp only [pageBit_ser]; exact rfl)) | with_reducible apply setReg_within | with_reducible apply sessionUnits_within | with_reducible apply forwardStep_within | with_reducible apply treeUp_within | with_reducible apply malformed_within | with_reducible exact Within.refl | intro _ | split | dsimp only)

theorem treeDownIn_within {m : Nat} {s t : State} (h : Within m s t) (a0 : Nat) (a1 : Nat) (a2 : List Byte) (hm : 0x20080020018000 ||| m = m) : Within m s (treeDownIn a0 a1 a2 t) := by
  unfold treeDownIn
  repeat' (first | with_reducible assumption | ((with_reducible refine Mask.sub hm ?_); first | exact rfl | (simp only [pageBit_ser]; exact rfl)) | with_reducible apply setReg_within | with_reducible apply raise_within | with_reducible apply count_within | with_reducible apply malformed_within | with_reducible apply addFrame_within | with_reducible apply forwardStep_within | with_reducible apply toChild_within | with_reducible apply Within.foldl | with_reducible exact Within.refl | intro _ | split | dsimp only)

theorem treeEndUp_within {m : Nat} {s t : State} (h : Within m s t) (a0 : Nat) (a1 : Nat) (a2 : Nat) (a3 : List Byte) (hm : 0x20a8483425ba00 ||| m = m) : Within m s (treeEndUp a0 a1 a2 a3 t) := by
  unfold treeEndUp
  repeat' (first | with_reducible assumption | ((with_reducible refine Mask.sub hm ?_); first | exact rfl | (simp only [pageBit_ser]; exact rfl)) | with_reducible apply setReg_within | with_reducible apply endRecord_within | with_reducible apply setRoute_within | with_reducible apply forwardStep_within | with_reducible apply toParent_within | with_reducible apply count_within | with_reducible exact Within.refl | intro _ | split | dsimp only)

theorem treeEndDown_within {m : Nat} {s t : State} (h : Within m s t) (a0 : Nat) (a1 : Nat) (a2 : List Byte) (hm : 0x2088002001a200 ||| m = m) : Within m s (treeEndDown a0 a1 a2 t) := by
  unfold treeEndDown
  repeat' (first | with_reducible assumption | ((with_reducible refine Mask.sub hm ?_); first | exact rfl | (simp only [pageBit_ser]; exact rfl)) | with_reducible apply setReg_within | with_reducible apply setRoute_within | with_reducible apply setCtx_within | with_reducible apply forwardStep_within | with_reducible apply toChild_within | with_reducible apply count_within | with_reducible exact Within.refl | intro _ | split | dsimp only)

theorem peerVia_within {m : Nat} {s t : State} (h : Within m s t) (a0 : Nat) (a1 : Nat) (a2 : Nat) (a3 : List Byte) (hm : 0x20080020010000 ||| m = m) : Within m s (peerVia a0 a1 a2 a3 t) := by
  unfold peerVia
  repeat' (first | with_reducible assumption | ((with_reducible refine Mask.sub hm ?_); first | exact rfl | (simp only [pageBit_ser]; exact rfl)) | with_reducible apply setReg_within | with_reducible apply forwardStep_within | with_reducible apply toChild_within | with_reducible apply count_within | with_reducible exact Within.refl | intro _ | split | dsimp only)

theorem relayUp_within {m : Nat} {s t : State} (h : Within m s t) (a0 : Elem) (hm : 0x28b8483c25ba28 ||| m = m) : Within m s (relayUp a0 t) := by
  unfold relayUp
  repeat' (first | with_reducible assumption | ((with_reducible refine Mask.sub hm ?_); first | exact rfl | (simp only [pageBit_ser]; exact rfl)) | with_reducible apply setReg_within | with_reducible apply relayedFrame_within | with_reducible apply setRelay_within | with_reducible apply peerVia_within | with_reducible apply treeUpIn_within | with_reducible apply joinUp_within | with_reducible apply treeEndUp_within | with_reducible exact Within.refl | intro _ | split | dsimp only)

theorem relayDown_within {m : Nat} {s t : State} (h : Within m s t) (a0 : Elem) (hm : 0x2088002001a200 ||| m = m) : Within m s (relayDown a0 t) := by
  unfold relayDown
  repeat' (first | with_reducible assumption | ((with_reducible refine Mask.sub hm ?_); first | exact rfl | (simp only [pageBit_ser]; exact rfl)) | with_reducible apply setReg_within | with_reducible apply treeDownIn_within | with_reducible apply treeEndDown_within | with_reducible exact Within.refl | intro _ | split | dsimp only)

theorem execRelayElement_within {m : Nat} {s t u : State} (h : Within m s t) (hm : 0x28b8483c25ba28 ||| m = m) (e : execRelayElement t = .next u) : Within m s u := by
  unfold execRelayElement at e
  try dsimp only at e
  repeat' split at e
  all_goals (cases e; repeat' (first | with_reducible assumption | ((with_reducible refine Mask.sub hm ?_); first | exact rfl | (simp only [pageBit_ser]; exact rfl)) | with_reducible apply setReg_within | with_reducible apply takeElem_within | with_reducible apply flushLanes_within | with_reducible apply relayDown_within | with_reducible apply relayUp_within | (with_reducible refine takeElem_within_eq (by assumption) ?_ ?_) | with_reducible exact Within.refl | intro _ | split | dsimp only))

end Sys2Proof.Machine
end

