-- ==== Sys2Proof/Laws/WithinTru.lean ====
section
/-! SUPPORT. Sys2Proof/Laws/WithinTru.lean: the parts of a state that the operations of Machine/Tru.lean may change. -/
namespace Sys2Proof.Machine

theorem setTru_within {m : Nat} {s t : State} (h : Within m s t) (a0 : TruSt) (hm : 0x40000000000 ||| m = m) : Within m s (setTru a0 t) := by
  have b42 := Mask.has (i := 42) hm rfl
  unfold setTru
  repeat' (first | with_reducible assumption | ((with_reducible refine Mask.sub hm ?_); first | exact rfl | (simp only [pageBit_ser]; exact rfl)) | with_reducible apply setReg_within | with_reducible exact Within.refl | ((with_reducible refine Within.upd ?_ (.inl rfl) (.inl rfl) (.inl rfl) (.inl rfl) (.inl rfl) (.inl rfl) (.inl rfl) (.inl rfl) (.inl rfl) (.inl rfl) (.inl rfl) (.inl rfl) (.inl rfl) (.inl rfl) (.inl rfl) (.inl rfl) (.inl rfl) (.inl rfl) (.inr b42) (.inl rfl) (.inl rfl) (.inl rfl) (.inl rfl) (.inl rfl) (.inl rfl) (.inl rfl) (.inl rfl) (.inl rfl) (.inl rfl) (.inl rfl)); first | with_reducible assumption | ((with_reducible refine Mask.sub hm ?_); first | exact rfl | (simp only [pageBit_ser]; exact rfl)) | with_reducible apply setReg_within | with_reducible exact Within.refl | split) | intro _ | split | dsimp only)

theorem setQstate_within {m : Nat} {s t : State} (h : Within m s t) (a0 : Nat) (a1 : Nat) (hm : 0x100 ||| m = m) : Within m s (setQstate a0 a1 t) := by
  unfold setQstate
  repeat' (first | with_reducible assumption | ((with_reducible refine Mask.sub hm ?_); first | exact rfl | (simp only [pageBit_ser]; exact rfl)) | with_reducible apply setReg_within | with_reducible apply setI_within | with_reducible exact Within.refl | intro _ | split | dsimp only)

theorem setAbsorbed_within {m : Nat} {s t : State} (h : Within m s t) (a0 : Int) (hm : 0x100 ||| m = m) : Within m s (setAbsorbed a0 t) := by
  unfold setAbsorbed
  repeat' (first | with_reducible assumption | ((with_reducible refine Mask.sub hm ?_); first | exact rfl | (simp only [pageBit_ser]; exact rfl)) | with_reducible apply setReg_within | with_reducible apply setF_within | with_reducible exact Within.refl | intro _ | split | dsimp only)

theorem showTe_within {m : Nat} {s t : State} (h : Within m s t) (a0 : Nat) (hm : 0x20000020000100 ||| m = m) : Within m s (showTe a0 t) := by
  unfold showTe
  repeat' (first | with_reducible assumption | ((with_reducible refine Mask.sub hm ?_); first | exact rfl | (simp only [pageBit_ser]; exact rfl)) | with_reducible apply setReg_within | with_reducible apply setB_within | with_reducible apply setF_within | with_reducible apply raise_within | with_reducible exact Within.refl | intro _ | split | dsimp only)

theorem recordTru_within {m : Nat} {s t : State} (h : Within m s t) (hm : 0x40000000000 ||| m = m) : Within m s (recordTru t) := by
  unfold recordTru
  repeat' (first | with_reducible assumption | ((with_reducible refine Mask.sub hm ?_); first | exact rfl | (simp only [pageBit_ser]; exact rfl)) | with_reducible apply setReg_within | with_reducible apply setTru_within | with_reducible exact Within.refl | intro _ | split | dsimp only)

theorem linkTime_within {m : Nat} {s t : State} (h : Within m s t) (a0 : Nat) (a1 : Nat) (a2 : Nat) (hm : 0x20040028000020 ||| m = m) : Within m s (linkTime a0 a1 a2 t) := by
  unfold linkTime
  repeat' (first | with_reducible assumption | ((with_reducible refine Mask.sub hm ?_); first | exact rfl | (simp only [pageBit_ser]; exact rfl)) | with_reducible apply setReg_within | with_reducible apply logEvent_within | with_reducible apply recordTru_within | with_reducible exact Within.refl | intro _ | split | dsimp only)

theorem setTruState_within {m : Nat} {s t : State} (h : Within m s t) (a0 : Nat) (a1 : Nat) (hm : 0x20040028000120 ||| m = m) : Within m s (setTruState a0 a1 t) := by
  unfold setTruState
  repeat' (first | with_reducible assumption | ((with_reducible refine Mask.sub hm ?_); first | exact rfl | (simp only [pageBit_ser]; exact rfl)) | with_reducible apply setReg_within | with_reducible apply setF_within | with_reducible apply setTru_within | with_reducible apply linkTime_within | with_reducible apply logPage_within | with_reducible apply raise_within | with_reducible apply showTe_within | with_reducible exact Within.refl | intro _ | split | dsimp only)

theorem stopSlew_within {m : Nat} {s t : State} (h : Within m s t) (hm : 0x100 ||| m = m) : Within m s (stopSlew t) := by
  unfold stopSlew
  repeat' (first | with_reducible assumption | ((with_reducible refine Mask.sub hm ?_); first | exact rfl | (simp only [pageBit_ser]; exact rfl)) | with_reducible apply setReg_within | with_reducible apply setB_within | with_reducible exact Within.refl | intro _ | split | dsimp only)

theorem deselect_within {m : Nat} {s t : State} (h : Within m s t) (hm : 0x100 ||| m = m) : Within m s (deselect t) := by
  unfold deselect
  repeat' (first | with_reducible assumption | ((with_reducible refine Mask.sub hm ?_); first | exact rfl | (simp only [pageBit_ser]; exact rfl)) | with_reducible apply setReg_within | with_reducible apply setQstate_within | with_reducible apply setB_within | with_reducible apply setF_within | with_reducible exact Within.refl | intro _ | split | dsimp only)

theorem startSwitch_within {m : Nat} {s t : State} (h : Within m s t) (a0 : Nat) (hm : 0x100 ||| m = m) : Within m s (startSwitch a0 t) := by
  unfold startSwitch
  repeat' (first | with_reducible assumption | ((with_reducible refine Mask.sub hm ?_); first | exact rfl | (simp only [pageBit_ser]; exact rfl)) | with_reducible apply setReg_within | with_reducible apply setQstate_within | with_reducible apply deselect_within | with_reducible apply stopSlew_within | with_reducible apply setB_within | with_reducible apply setF_within | with_reducible exact Within.refl | intro _ | split | dsimp only)

theorem holdOver_within {m : Nat} {s t : State} (h : Within m s t) (a0 : TruHold) (hm : 0x20040028000120 ||| m = m) : Within m s (holdOver a0 t) := by
  unfold holdOver
  repeat' (first | with_reducible assumption | ((with_reducible refine Mask.sub hm ?_); first | exact rfl | (simp only [pageBit_ser]; exact rfl)) | with_reducible apply setReg_within | with_reducible apply setTruState_within | with_reducible apply setF_within | with_reducible exact Within.refl | intro _ | split | dsimp only)

theorem reselect_within {m : Nat} {s t : State} (h : Within m s t) (a0 : TruHold) (hm : 0x20040028000120 ||| m = m) : Within m s (reselect a0 t) := by
  unfold reselect
  repeat' (first | with_reducible assumption | ((with_reducible refine Mask.sub hm ?_); first | exact rfl | (simp only [pageBit_ser]; exact rfl)) | with_reducible apply setReg_within | with_reducible apply startSwitch_within | with_reducible apply deselect_within | with_reducible apply setTruState_within | with_reducible apply holdOver_within | with_reducible exact Within.refl | intro _ | split | dsimp only)

theorem measured_within {m : Nat} {s t : State} (h : Within m s t) (a0 : TruHold) (hm : 0x40000000000 ||| m = m) : Within m s (measured a0 t) := by
  unfold measured
  repeat' (first | with_reducible assumption | ((with_reducible refine Mask.sub hm ?_); first | exact rfl | (simp only [pageBit_ser]; exact rfl)) | with_reducible apply setReg_within | with_reducible apply setTru_within | with_reducible exact Within.refl | intro _ | split | dsimp only)

theorem available_within {m : Nat} {s t : State} (h : Within m s t) (a0 : TruHold) (hm : 0x20040028000120 ||| m = m) : Within m s (available a0 t) := by
  unfold available
  repeat' (first | with_reducible assumption | ((with_reducible refine Mask.sub hm ?_); first | exact rfl | (simp only [pageBit_ser]; exact rfl)) | with_reducible apply setReg_within | with_reducible apply reselect_within | with_reducible apply measured_within | with_reducible exact Within.refl | intro _ | split | dsimp only)

theorem showRef_within {m : Nat} {s t : State} (h : Within m s t) (a0 : Nat) (a1 : Word) (a2 : Word) (hm : 0x100 ||| m = m) : Within m s (showRef a0 a1 a2 t) := by
  unfold showRef
  repeat' (first | with_reducible assumption | ((with_reducible refine Mask.sub hm ?_); first | exact rfl | (simp only [pageBit_ser]; exact rfl)) | with_reducible apply setReg_within | with_reducible apply setI_within | with_reducible exact Within.refl | intro _ | split | dsimp only)

theorem refQualified_within {m : Nat} {s t : State} (h : Within m s t) (a0 : Nat) (a1 : Word) (a2 : Word) (a3 : TruHold) (hm : 0x20040028000120 ||| m = m) : Within m s (refQualified a0 a1 a2 a3 t) := by
  unfold refQualified
  repeat' (first | with_reducible assumption | ((with_reducible refine Mask.sub hm ?_); first | exact rfl | (simp only [pageBit_ser]; exact rfl)) | with_reducible apply setReg_within | with_reducible apply raise_within | with_reducible apply showRef_within | with_reducible apply available_within | with_reducible apply setQstate_within | with_reducible exact Within.refl | intro _ | split | dsimp only)

theorem execRefQualified_within {m : Nat} {s t u : State} (h : Within m s t) (a0 : Ref) (a1 : Word) (a2 : Word) (a3 : TruHold) (hm : 0x20040028000120 ||| m = m) (e : execRefQualified a0 a1 a2 a3 t = .next u) : Within m s u := by
  unfold execRefQualified at e
  try dsimp only at e
  repeat' split at e
  all_goals (cases e; repeat' (first | with_reducible assumption | ((with_reducible refine Mask.sub hm ?_); first | exact rfl | (simp only [pageBit_ser]; exact rfl)) | with_reducible apply setReg_within | with_reducible apply refQualified_within | with_reducible exact Within.refl | intro _ | split | dsimp only))

theorem disqualify_within {m : Nat} {s t : State} (h : Within m s t) (a0 : Nat) (a1 : Nat) (a2 : TruHold) (hm : 0x20040028000120 ||| m = m) : Within m s (disqualify a0 a1 a2 t) := by
  unfold disqualify
  repeat' (first | with_reducible assumption | ((with_reducible refine Mask.sub hm ?_); first | exact rfl | (simp only [pageBit_ser]; exact rfl)) | with_reducible apply setReg_within | with_reducible apply measured_within | with_reducible apply setTru_within | with_reducible apply raise_within | with_reducible apply setQstate_within | with_reducible apply reselect_within | with_reducible apply deselect_within | with_reducible exact Within.refl | intro _ | split | dsimp only)

theorem execRefDisqualified_within {m : Nat} {s t u : State} (h : Within m s t) (a0 : Ref) (a1 : Word) (a2 : Word) (a3 : TruHold) (hm : 0x20040028000120 ||| m = m) (e : execRefDisqualified a0 a1 a2 a3 t = .next u) : Within m s u := by
  unfold execRefDisqualified at e
  try dsimp only at e
  repeat' split at e
  all_goals (cases e; repeat' (first | with_reducible assumption | ((with_reducible refine Mask.sub hm ?_); first | exact rfl | (simp only [pageBit_ser]; exact rfl)) | with_reducible apply setReg_within | with_reducible apply disqualify_within | with_reducible apply showRef_within | with_reducible exact Within.refl | intro _ | split | dsimp only))

theorem refLost_within {m : Nat} {s t : State} (h : Within m s t) (a0 : Nat) (a1 : TruHold) (hm : 0x20040028000120 ||| m = m) : Within m s (refLost a0 a1 t) := by
  unfold refLost
  repeat' (first | with_reducible assumption | ((with_reducible refine Mask.sub hm ?_); first | exact rfl | (simp only [pageBit_ser]; exact rfl)) | with_reducible apply setReg_within | with_reducible apply setI_within | with_reducible apply setQstate_within | with_reducible apply disqualify_within | with_reducible exact Within.refl | intro _ | split | dsimp only)

theorem execRefLossOfSignal_within {m : Nat} {s t u : State} (h : Within m s t) (a0 : Ref) (a1 : TruHold) (hm : 0x20040028000120 ||| m = m) (e : execRefLossOfSignal a0 a1 t = .next u) : Within m s u := by
  unfold execRefLossOfSignal at e
  try dsimp only at e
  repeat' split at e
  all_goals (cases e; repeat' (first | with_reducible assumption | ((with_reducible refine Mask.sub hm ?_); first | exact rfl | (simp only [pageBit_ser]; exact rfl)) | with_reducible apply setReg_within | with_reducible apply refLost_within | with_reducible exact Within.refl | intro _ | split | dsimp only))

theorem execWtrExpiry_within {m : Nat} {s t u : State} (h : Within m s t) (a0 : Ref) (a1 : TruHold) (hm : 0x20040028000120 ||| m = m) (e : execWtrExpiry a0 a1 t = .next u) : Within m s u := by
  unfold execWtrExpiry at e
  try dsimp only at e
  repeat' split at e
  all_goals (cases e; repeat' (first | with_reducible assumption | ((with_reducible refine Mask.sub hm ?_); first | exact rfl | (simp only [pageBit_ser]; exact rfl)) | with_reducible apply setReg_within | with_reducible apply available_within | with_reducible apply setQstate_within | with_reducible exact Within.refl | intro _ | split | dsimp only))

theorem switchDone_within {m : Nat} {s t : State} (h : Within m s t) (a0 : Word) (a1 : TruHold) (hm : 0x20040028000120 ||| m = m) : Within m s (switchDone a0 a1 t) := by
  unfold switchDone
  repeat' (first | with_reducible assumption | ((with_reducible refine Mask.sub hm ?_); first | exact rfl | (simp only [pageBit_ser]; exact rfl)) | with_reducible apply setReg_within | with_reducible apply setB_within | with_reducible apply setI_within | with_reducible apply setTru_within | with_reducible apply setAbsorbed_within | with_reducible apply raise_within | with_reducible apply setTruState_within | with_reducible apply showTe_within | with_reducible apply reselect_within | with_reducible exact Within.refl | intro _ | split | dsimp only)

theorem execSwitchComplete_within {m : Nat} {s t u : State} (h : Within m s t) (a0 : Word) (a1 : TruHold) (hm : 0x20040028000120 ||| m = m) (e : execSwitchComplete a0 a1 t = .next u) : Within m s u := by
  unfold execSwitchComplete at e
  try dsimp only at e
  repeat' split at e
  all_goals (cases e; repeat' (first | with_reducible assumption | ((with_reducible refine Mask.sub hm ?_); first | exact rfl | (simp only [pageBit_ser]; exact rfl)) | with_reducible apply setReg_within | with_reducible apply switchDone_within | with_reducible exact Within.refl | intro _ | split | dsimp only))

theorem execTruLocked_within {m : Nat} {s t u : State} (h : Within m s t) (a0 : Word) (hm : 0x20040028000120 ||| m = m) (e : execTruLocked a0 t = .next u) : Within m s u := by
  unfold execTruLocked at e
  try dsimp only at e
  repeat' split at e
  all_goals (cases e; repeat' (first | with_reducible assumption | ((with_reducible refine Mask.sub hm ?_); first | exact rfl | (simp only [pageBit_ser]; exact rfl)) | with_reducible apply setReg_within | with_reducible apply setTruState_within | with_reducible apply setI_within | with_reducible apply setTru_within | with_reducible exact Within.refl | intro _ | split | dsimp only))

theorem execTruLost_within {m : Nat} {s t u : State} (h : Within m s t) (a0 : Word) (hm : 0x20040028000120 ||| m = m) (e : execTruLost a0 t = .next u) : Within m s u := by
  unfold execTruLost at e
  try dsimp only at e
  repeat' split at e
  all_goals (cases e; repeat' (first | with_reducible assumption | ((with_reducible refine Mask.sub hm ?_); first | exact rfl | (simp only [pageBit_ser]; exact rfl)) | with_reducible apply setReg_within | with_reducible apply setTruState_within | with_reducible apply showTe_within | with_reducible exact Within.refl | intro _ | split | dsimp only))

theorem execTeBudgetExceeded_within {m : Nat} {s t u : State} (h : Within m s t) (a0 : TruHold) (hm : 0x20040020000100 ||| m = m) (e : execTeBudgetExceeded a0 t = .next u) : Within m s u := by
  unfold execTeBudgetExceeded at e
  try dsimp only at e
  repeat' split at e
  all_goals (cases e; repeat' (first | with_reducible assumption | ((with_reducible refine Mask.sub hm ?_); first | exact rfl | (simp only [pageBit_ser]; exact rfl)) | with_reducible apply setReg_within | with_reducible apply showTe_within | with_reducible apply measured_within | with_reducible exact Within.refl | intro _ | split | dsimp only))

theorem execSlewDone_within {m : Nat} {s t u : State} (h : Within m s t) (hm : 0x20000020000100 ||| m = m) (e : execSlewDone t = .next u) : Within m s u := by
  unfold execSlewDone at e
  try dsimp only at e
  repeat' split at e
  all_goals (cases e; repeat' (first | with_reducible assumption | ((with_reducible refine Mask.sub hm ?_); first | exact rfl | (simp only [pageBit_ser]; exact rfl)) | with_reducible apply setReg_within | with_reducible apply showTe_within | with_reducible apply raise_within | with_reducible apply setB_within | with_reducible apply setAbsorbed_within | with_reducible apply stopSlew_within | with_reducible exact Within.refl | intro _ | split | dsimp only))

theorem applyMode_within {m : Nat} {s t : State} (h : Within m s t) (a0 : TruHold) (hm : 0x20040028000120 ||| m = m) : Within m s (applyMode a0 t) := by
  unfold applyMode
  repeat' (first | with_reducible assumption | ((with_reducible refine Mask.sub hm ?_); first | exact rfl | (simp only [pageBit_ser]; exact rfl)) | with_reducible apply setReg_within | with_reducible apply holdOver_within | with_reducible apply deselect_within | with_reducible apply measured_within | with_reducible apply setTruState_within | with_reducible apply reselect_within | with_reducible exact Within.refl | intro _ | split | dsimp only)

theorem execTruModeWrite_within {m : Nat} {s t u : State} (h : Within m s t) (a0 : Word) (a1 : TruHold) (hm : 0x20040028000120 ||| m = m) (e : execTruModeWrite a0 a1 t = .next u) : Within m s u := by
  unfold execTruModeWrite at e
  try dsimp only at e
  repeat' split at e
  all_goals (cases e; repeat' (first | with_reducible assumption | ((with_reducible refine Mask.sub hm ?_); first | exact rfl | (simp only [pageBit_ser]; exact rfl)) | with_reducible apply setReg_within | with_reducible apply writeFields_within | with_reducible apply applyMode_within | with_reducible exact Within.refl | intro _ | split | dsimp only))

theorem refCfg_within {m : Nat} {s t : State} (h : Within m s t) (a0 : Nat) (a1 : Word) (a2 : TruHold) (hm : 0x20040028000120 ||| m = m) : Within m s (refCfg a0 a1 a2 t) := by
  unfold refCfg
  repeat' (first | with_reducible assumption | ((with_reducible refine Mask.sub hm ?_); first | exact rfl | (simp only [pageBit_ser]; exact rfl)) | with_reducible apply setReg_within | with_reducible apply writeFields_within | with_reducible apply countErr_within | with_reducible apply setI_within | with_reducible apply setQstate_within | with_reducible apply reselect_within | with_reducible apply deselect_within | with_reducible apply measured_within | with_reducible exact Within.refl | intro _ | split | dsimp only)

theorem execRefCfgWrite_within {m : Nat} {s t u : State} (h : Within m s t) (a0 : Ref) (a1 : Word) (a2 : TruHold) (hm : 0x20040028000120 ||| m = m) (e : execRefCfgWrite a0 a1 a2 t = .next u) : Within m s u := by
  unfold execRefCfgWrite at e
  try dsimp only at e
  repeat' split at e
  all_goals (cases e; repeat' (first | with_reducible assumption | ((with_reducible refine Mask.sub hm ?_); first | exact rfl | (simp only [pageBit_ser]; exact rfl)) | with_reducible apply setReg_within | with_reducible apply refCfg_within | with_reducible exact Within.refl | intro _ | split | dsimp only))

theorem runRealign_within {m : Nat} {s t : State} (h : Within m s t) (a0 : Outstanding) (hm : 0x20000034000900 ||| m = m) : Within m s (runRealign a0 t) := by
  unfold runRealign
  repeat' (first | with_reducible assumption | ((with_reducible refine Mask.sub hm ?_); first | exact rfl | (simp only [pageBit_ser]; exact rfl)) | with_reducible apply setReg_within | with_reducible apply done_within | with_reducible apply setB_within | with_reducible apply setPhase_within | with_reducible apply stopSlew_within | with_reducible exact Within.refl | intro _ | split | dsimp only)

theorem execRealign_within {m : Nat} {s t u : State} (h : Within m s t) (a0 : CmdSrc) (hm : 0x20000034000900 ||| m = m) (e : execRealign a0 t = .next u) : Within m s u := by
  unfold execRealign at e
  try dsimp only at e
  repeat' split at e
  all_goals (cases e; repeat' (first | with_reducible assumption | ((with_reducible refine Mask.sub hm ?_); first | exact rfl | (simp only [pageBit_ser]; exact rfl)) | with_reducible apply setReg_within | with_reducible apply issue_within | with_reducible apply runRealign_within | with_reducible exact Within.refl | intro _ | split | dsimp only))

theorem runSetTime_within {m : Nat} {s t : State} (h : Within m s t) (a0 : Nat) (a1 : Outstanding) (hm : 0x20040034000900 ||| m = m) : Within m s (runSetTime a0 a1 t) := by
  unfold runSetTime
  repeat' (first | with_reducible assumption | ((with_reducible refine Mask.sub hm ?_); first | exact rfl | (simp only [pageBit_ser]; exact rfl)) | with_reducible apply setReg_within | with_reducible apply done_within | with_reducible apply setPhase_within | with_reducible apply setTru_within | with_reducible exact Within.refl | intro _ | split | dsimp only)

theorem execSetTime_within {m : Nat} {s t u : State} (h : Within m s t) (a0 : CmdSrc) (a1 : Fin 204800) (hm : 0x20040034000900 ||| m = m) (e : execSetTime a0 a1 t = .next u) : Within m s u := by
  unfold execSetTime at e
  try dsimp only at e
  repeat' split at e
  all_goals (cases e; repeat' (first | with_reducible assumption | ((with_reducible refine Mask.sub hm ?_); first | exact rfl | (simp only [pageBit_ser]; exact rfl)) | with_reducible apply setReg_within | with_reducible apply issue_within | with_reducible apply runSetTime_within | with_reducible exact Within.refl | intro _ | split | dsimp only))

theorem execTinPpsEdge_within {m : Nat} {s t u : State} (h : Within m s t) (a0 : Fin 204800) (hm : 0x40004000000 ||| m = m) (e : execTinPpsEdge a0 t = .next u) : Within m s u := by
  unfold execTinPpsEdge at e
  try dsimp only at e
  repeat' split at e
  all_goals (cases e; repeat' (first | with_reducible assumption | ((with_reducible refine Mask.sub hm ?_); first | exact rfl | (simp only [pageBit_ser]; exact rfl)) | with_reducible apply setReg_within | with_reducible apply setPhase_within | with_reducible apply setTru_within | with_reducible exact Within.refl | intro _ | split | dsimp only))

theorem execSetTimePpsTimeout_within {m : Nat} {s t u : State} (h : Within m s t) (hm : 0x20000034000900 ||| m = m) (e : execSetTimePpsTimeout t = .next u) : Within m s u := by
  unfold execSetTimePpsTimeout at e
  try dsimp only at e
  repeat' split at e
  all_goals (cases e; repeat' (first | with_reducible assumption | ((with_reducible refine Mask.sub hm ?_); first | exact rfl | (simp only [pageBit_ser]; exact rfl)) | with_reducible apply setReg_within | with_reducible apply done_within | with_reducible exact Within.refl | intro _ | split | dsimp only))

theorem runCapture_within {m : Nat} {s t : State} (h : Within m s t) (a0 : Nat) (a1 : Outstanding) (hm : 0x20000034000900 ||| m = m) : Within m s (runCapture a0 a1 t) := by
  unfold runCapture
  repeat' (first | with_reducible assumption | ((with_reducible refine Mask.sub hm ?_); first | exact rfl | (simp only [pageBit_ser]; exact rfl)) | with_reducible apply setReg_within | with_reducible apply setF_within | with_reducible apply done_within | with_reducible exact Within.refl | intro _ | split | dsimp only)

theorem execCapture_within {m : Nat} {s t u : State} (h : Within m s t) (a0 : CmdSrc) (a1 : Fin 204800) (hm : 0x20000034000900 ||| m = m) (e : execCapture a0 a1 t = .next u) : Within m s u := by
  unfold execCapture at e
  try dsimp only at e
  repeat' split at e
  all_goals (cases e; repeat' (first | with_reducible assumption | ((with_reducible refine Mask.sub hm ?_); first | exact rfl | (simp only [pageBit_ser]; exact rfl)) | with_reducible apply setReg_within | with_reducible apply issue_within | with_reducible apply runCapture_within | with_reducible exact Within.refl | intro _ | split | dsimp only))

theorem runEndWtr_within {m : Nat} {s t : State} (h : Within m s t) (a0 : TruHold) (a1 : Outstanding) (hm : 0x2004003c000920 ||| m = m) : Within m s (runEndWtr a0 a1 t) := by
  unfold runEndWtr
  repeat' (first | with_reducible assumption | ((with_reducible refine Mask.sub hm ?_); first | exact rfl | (simp only [pageBit_ser]; exact rfl)) | with_reducible apply setReg_within | with_reducible apply done_within | with_reducible apply available_within | with_reducible apply setQstate_within | with_reducible exact Within.refl | intro _ | split | dsimp only)

theorem execEndWtr_within {m : Nat} {s t u : State} (h : Within m s t) (a0 : CmdSrc) (a1 : TruHold) (hm : 0x2004003c000920 ||| m = m) (e : execEndWtr a0 a1 t = .next u) : Within m s u := by
  unfold execEndWtr at e
  try dsimp only at e
  repeat' split at e
  all_goals (cases e; repeat' (first | with_reducible assumption | ((with_reducible refine Mask.sub hm ?_); first | exact rfl | (simp only [pageBit_ser]; exact rfl)) | with_reducible apply setReg_within | with_reducible apply issue_within | with_reducible apply runEndWtr_within | with_reducible exact Within.refl | intro _ | split | dsimp only))

theorem abortTru_within {m : Nat} {s t : State} (h : Within m s t) (hm : 0x20040034000900 ||| m = m) : Within m s (abortTru t) := by
  unfold abortTru
  repeat' (first | with_reducible assumption | ((with_reducible refine Mask.sub hm ?_); first | exact rfl | (simp only [pageBit_ser]; exact rfl)) | with_reducible apply setReg_within | with_reducible apply done_within | with_reducible apply setTru_within | with_reducible exact Within.refl | intro _ | split | dsimp only)

theorem stepE_within {m : Nat} {s t : State} (h : Within m s t) (a0 : Int) (hm : 0x20040028000120 ||| m = m) : Within m s (stepE a0 t) := by
  unfold stepE
  repeat' (first | with_reducible assumption | ((with_reducible refine Mask.sub hm ?_); first | exact rfl | (simp only [pageBit_ser]; exact rfl)) | with_reducible apply setReg_within | with_reducible apply setTru_within | with_reducible apply setI_within | with_reducible apply logPage_within | with_reducible apply raise_within | with_reducible apply Within.foldl | with_reducible exact Within.refl | intro _ | split | dsimp only)

theorem applyAlign_within {m : Nat} {s t : State} (h : Within m s t) (hm : 0x20040028000120 ||| m = m) : Within m s (applyAlign t) := by
  unfold applyAlign
  repeat' (first | with_reducible assumption | ((with_reducible refine Mask.sub hm ?_); first | exact rfl | (simp only [pageBit_ser]; exact rfl)) | with_reducible apply setReg_within | with_reducible apply stepE_within | with_reducible apply setTru_within | with_reducible apply setB_within | with_reducible apply setAbsorbed_within | with_reducible exact Within.refl | intro _ | split | dsimp only)

theorem applyCommand_within {m : Nat} {s t : State} (h : Within m s t) (hm : 0x2004003c000920 ||| m = m) : Within m s (applyCommand t) := by
  unfold applyCommand
  repeat' (first | with_reducible assumption | ((with_reducible refine Mask.sub hm ?_); first | exact rfl | (simp only [pageBit_ser]; exact rfl)) | with_reducible apply setReg_within | with_reducible apply done_within | with_reducible apply setB_within | with_reducible apply setAbsorbed_within | with_reducible apply stepE_within | with_reducible apply setTru_within | with_reducible exact Within.refl | intro _ | split | dsimp only)

theorem applyCopy_within {m : Nat} {s t : State} (h : Within m s t) (hm : 0x20040028000120 ||| m = m) : Within m s (applyCopy t) := by
  unfold applyCopy
  repeat' (first | with_reducible assumption | ((with_reducible refine Mask.sub hm ?_); first | exact rfl | (simp only [pageBit_ser]; exact rfl)) | with_reducible apply setReg_within | with_reducible apply setTru_within | with_reducible apply stepE_within | with_reducible exact Within.refl | intro _ | split | dsimp only)

theorem changeE_within {m : Nat} {s t : State} (h : Within m s t) (hm : 0x2004003c000920 ||| m = m) : Within m s (changeE t) := by
  unfold changeE
  repeat' (first | with_reducible assumption | ((with_reducible refine Mask.sub hm ?_); first | exact rfl | (simp only [pageBit_ser]; exact rfl)) | with_reducible apply setReg_within | with_reducible apply applyCommand_within | with_reducible apply applyAlign_within | with_reducible apply applyCopy_within | with_reducible apply showTe_within | with_reducible exact Within.refl | intro _ | split | dsimp only)

theorem startTru_within {m : Nat} {s t : State} (h : Within m s t) (hm : 0x40000000100 ||| m = m) : Within m s (startTru t) := by
  unfold startTru
  repeat' (first | with_reducible assumption | ((with_reducible refine Mask.sub hm ?_); first | exact rfl | (simp only [pageBit_ser]; exact rfl)) | with_reducible apply setReg_within | with_reducible apply setF_within | with_reducible apply setTru_within | with_reducible exact Within.refl | intro _ | split | dsimp only)

theorem execOscillatorModelSave_within {m : Nat} {s t u : State} (h : Within m s t) (a0 : Word) (hm : 0x40000000100 ||| m = m) (e : execOscillatorModelSave a0 t = .next u) : Within m s u := by
  unfold execOscillatorModelSave at e
  try dsimp only at e
  repeat' split at e
  all_goals (cases e; repeat' (first | with_reducible assumption | ((with_reducible refine Mask.sub hm ?_); first | exact rfl | (simp only [pageBit_ser]; exact rfl)) | with_reducible apply setReg_within | with_reducible apply setF_within | with_reducible apply setTru_within | with_reducible exact Within.refl | intro _ | split | dsimp only))

theorem execOvenReady_within {m : Nat} {s t u : State} (h : Within m s t)  (hm : 0x100 ||| m = m) (e : execOvenReady  t = .next u) : Within m s u := by
  unfold execOvenReady at e
  obtain rfl := Host.Outcome.next.inj e
  exact setB_within h _ _ _ (Mask.sub hm rfl)

theorem execTruBlkReset_within {m : Nat} {s t u : State} (h : Within m s t) (hm : 0x20040034000900 ||| m = m) (e : execTruBlkReset t = .next u) : Within m s u := by
  unfold execTruBlkReset at e
  try dsimp only at e
  repeat' split at e
  all_goals (cases e; repeat' (first | with_reducible assumption | ((with_reducible refine Mask.sub hm ?_); first | exact rfl | (simp only [pageBit_ser]; exact rfl)) | with_reducible apply setReg_within | with_reducible apply blkReset_within | with_reducible apply stopSlew_within | with_reducible apply setTru_within | with_reducible exact Within.refl | intro _ | split | dsimp only))

theorem dropPairRef_within {m : Nat} {s t : State} (h : Within m s t) (a0 : TruHold) (hm : 0x20040028000120 ||| m = m) : Within m s (dropPairRef a0 t) := by
  unfold dropPairRef
  repeat' (first | with_reducible assumption | ((with_reducible refine Mask.sub hm ?_); first | exact rfl | (simp only [pageBit_ser]; exact rfl)) | with_reducible apply setReg_within | with_reducible apply reselect_within | with_reducible apply deselect_within | with_reducible apply measured_within | with_reducible exact Within.refl | intro _ | split | dsimp only)

end Sys2Proof.Machine
end

