-- ==== Sys2Proof/Laws/WithinPair.lean ====
section
/-! SUPPORT. Sys2Proof/Laws/WithinPair.lean: the parts of a state that the operations of Machine/Pair.lean may change. -/
namespace Sys2Proof.Machine

theorem setPair_within {m : Nat} {s t : State} (h : Within m s t) (a0 : PairSt) (hm : 0x800000000000 ||| m = m) : Within m s (setPair a0 t) := by
  have b47 := Mask.has (i := 47) hm rfl
  unfold setPair
  repeat' (first | with_reducible assumption | ((with_reducible refine Mask.sub hm ?_); first | exact rfl | (simp only [pageBit_ser]; exact rfl)) | with_reducible apply setReg_within | with_reducible exact Within.refl | ((with_reducible refine Within.upd ?_ (.inl rfl) (.inl rfl) (.inl rfl) (.inl rfl) (.inl rfl) (.inl rfl) (.inl rfl) (.inl rfl) (.inl rfl) (.inl rfl) (.inl rfl) (.inl rfl) (.inl rfl) (.inl rfl) (.inl rfl) (.inl rfl) (.inl rfl) (.inl rfl) (.inl rfl) (.inl rfl) (.inl rfl) (.inl rfl) (.inl rfl) (.inr b47) (.inl rfl) (.inl rfl) (.inl rfl) (.inl rfl) (.inl rfl) (.inl rfl)); first | with_reducible assumption | ((with_reducible refine Mask.sub hm ?_); first | exact rfl | (simp only [pageBit_ser]; exact rfl)) | with_reducible apply setReg_within | with_reducible exact Within.refl | split) | intro _ | split | dsimp only)

theorem setSync_within {m : Nat} {s t : State} (h : Within m s t) (a0 : Nat) (hm : 0x200 ||| m = m) : Within m s (setSync a0 t) := by
  unfold setSync
  repeat' (first | with_reducible assumption | ((with_reducible refine Mask.sub hm ?_); first | exact rfl | (simp only [pageBit_ser]; exact rfl)) | with_reducible apply setReg_within | with_reducible apply setF_within | with_reducible exact Within.refl | intro _ | split | dsimp only)

theorem sendBeaconState_within {m : Nat} {s t : State} (h : Within m s t) (hm : 0x20800000002000 ||| m = m) : Within m s (sendBeaconState t) := by
  unfold sendBeaconState
  repeat' (first | with_reducible assumption | ((with_reducible refine Mask.sub hm ?_); first | exact rfl | (simp only [pageBit_ser]; exact rfl)) | with_reducible apply setReg_within | with_reducible apply sendMirror_within | with_reducible exact Within.refl | intro _ | split | dsimp only)

theorem startResync_within {m : Nat} {s t : State} (h : Within m s t) (hm : 0x20800000002200 ||| m = m) : Within m s (startResync t) := by
  unfold startResync
  repeat' (first | with_reducible assumption | ((with_reducible refine Mask.sub hm ?_); first | exact rfl | (simp only [pageBit_ser]; exact rfl)) | with_reducible apply setReg_within | with_reducible apply sendMirror_within | with_reducible apply setSync_within | with_reducible apply setF_within | with_reducible apply setPair_within | with_reducible apply Within.foldl | with_reducible exact Within.refl | intro _ | split | dsimp only)

theorem clearCopies_within {m : Nat} {s t : State} (h : Within m s t) (hm : 0x20080820008200 ||| m = m) : Within m s (clearCopies t) := by
  have b35 := Mask.has (i := 35) hm rfl
  unfold clearCopies
  repeat' (first | with_reducible assumption | ((with_reducible refine Mask.sub hm ?_); first | exact rfl | (simp only [pageBit_ser]; exact rfl)) | with_reducible apply setReg_within | with_reducible apply refreshTable_within | with_reducible apply setF_within | with_reducible apply setMac_within | with_reducible exact Within.refl | ((with_reducible refine Within.upd ?_ (.inl rfl) (.inl rfl) (.inl rfl) (.inl rfl) (.inl rfl) (.inl rfl) (.inl rfl) (.inl rfl) (.inl rfl) (.inl rfl) (.inl rfl) (.inr b35) (.inl rfl) (.inl rfl) (.inl rfl) (.inl rfl) (.inl rfl) (.inl rfl) (.inl rfl) (.inl rfl) (.inl rfl) (.inl rfl) (.inl rfl) (.inl rfl) (.inl rfl) (.inl rfl) (.inl rfl) (.inl rfl) (.inl rfl) (.inl rfl)); first | with_reducible assumption | ((with_reducible refine Mask.sub hm ?_); first | exact rfl | (simp only [pageBit_ser]; exact rfl)) | with_reducible apply setReg_within | with_reducible apply refreshTable_within | with_reducible apply setF_within | with_reducible apply setMac_within | with_reducible exact Within.refl | split) | intro _ | split | dsimp only)

theorem beginSync_within {m : Nat} {s t : State} (h : Within m s t) (hm : 0x20080820008200 ||| m = m) : Within m s (beginSync t) := by
  unfold beginSync
  repeat' (first | with_reducible assumption | ((with_reducible refine Mask.sub hm ?_); first | exact rfl | (simp only [pageBit_ser]; exact rfl)) | with_reducible apply setReg_within | with_reducible apply setSync_within | with_reducible apply clearCopies_within | with_reducible exact Within.refl | intro _ | split | dsimp only)

theorem pairBecomes_within {m : Nat} {s t : State} (h : Within m s t) (a0 : Nat) (hm : 0x200 ||| m = m) : Within m s (pairBecomes a0 t) := by
  unfold pairBecomes
  repeat' (first | with_reducible assumption | ((with_reducible refine Mask.sub hm ?_); first | exact rfl | (simp only [pageBit_ser]; exact rfl)) | with_reducible apply setReg_within | with_reducible apply setB_within | with_reducible apply setF_within | with_reducible exact Within.refl | intro _ | split | dsimp only)

theorem becomeStandby_within {m : Nat} {s t : State} (h : Within m s t) (hm : 0x200be021800200 ||| m = m) : Within m s (becomeStandby t) := by
  have b38 := Mask.has (i := 38) hm rfl
  unfold becomeStandby
  repeat' (first | with_reducible assumption | ((with_reducible refine Mask.sub hm ?_); first | exact rfl | (simp only [pageBit_ser]; exact rfl)) | with_reducible apply setReg_within | with_reducible apply endTx_within | with_reducible apply pairBecomes_within | with_reducible apply setMac_within | with_reducible exact Within.refl | ((with_reducible refine Within.upd ?_ (.inl rfl) (.inl rfl) (.inl rfl) (.inl rfl) (.inl rfl) (.inl rfl) (.inl rfl) (.inl rfl) (.inl rfl) (.inl rfl) (.inl rfl) (.inl rfl) (.inl rfl) (.inl rfl) (.inr b38) (.inl rfl) (.inl rfl) (.inl rfl) (.inl rfl) (.inl rfl) (.inl rfl) (.inl rfl) (.inl rfl) (.inl rfl) (.inl rfl) (.inl rfl) (.inl rfl) (.inl rfl) (.inl rfl) (.inl rfl)); first | with_reducible assumption | ((with_reducible refine Mask.sub hm ?_); first | exact rfl | (simp only [pageBit_ser]; exact rfl)) | with_reducible apply setReg_within | with_reducible apply endTx_within | with_reducible apply pairBecomes_within | with_reducible apply setMac_within | with_reducible exact Within.refl | split) | intro _ | split | dsimp only)

theorem settleStandby_within {m : Nat} {s t : State} (h : Within m s t) (hm : 0x20080820008200 ||| m = m) : Within m s (settleStandby t) := by
  unfold settleStandby
  repeat' (first | with_reducible assumption | ((with_reducible refine Mask.sub hm ?_); first | exact rfl | (simp only [pageBit_ser]; exact rfl)) | with_reducible apply setReg_within | with_reducible apply beginSync_within | with_reducible apply pairBecomes_within | with_reducible apply setSync_within | with_reducible exact Within.refl | intro _ | split | dsimp only)

theorem heartbeatSend_within {m : Nat} {s t : State} (h : Within m s t) (hm : 0x20800000002000 ||| m = m) : Within m s (heartbeatSend t) := by
  unfold heartbeatSend
  repeat' (first | with_reducible assumption | ((with_reducible refine Mask.sub hm ?_); first | exact rfl | (simp only [pageBit_ser]; exact rfl)) | with_reducible apply setReg_within | with_reducible apply sendMirror_within | with_reducible exact Within.refl | intro _ | split | dsimp only)

theorem execHeartbeatSend_within {m : Nat} {s t u : State} (h : Within m s t) (hm : 0x20800000002000 ||| m = m) (e : execHeartbeatSend t = .next u) : Within m s u := by
  unfold execHeartbeatSend at e
  try dsimp only at e
  repeat' split at e
  all_goals (cases e; repeat' (first | with_reducible assumption | ((with_reducible refine Mask.sub hm ?_); first | exact rfl | (simp only [pageBit_ser]; exact rfl)) | with_reducible apply setReg_within | with_reducible apply heartbeatSend_within | with_reducible exact Within.refl | intro _ | split | dsimp only))

theorem followGrid_within {m : Nat} {s t : State} (h : Within m s t) (a0 : Nat) (a1 : Nat) (hm : 0x40004000 ||| m = m) : Within m s (followGrid a0 a1 t) := by
  have b30 := Mask.has (i := 30) hm rfl
  unfold followGrid
  repeat' (first | with_reducible assumption | ((with_reducible refine Mask.sub hm ?_); first | exact rfl | (simp only [pageBit_ser]; exact rfl)) | with_reducible apply setReg_within | with_reducible apply setF_within | with_reducible exact Within.refl | ((with_reducible refine Within.upd ?_ (.inl rfl) (.inl rfl) (.inl rfl) (.inl rfl) (.inl rfl) (.inl rfl) (.inr b30) (.inl rfl) (.inl rfl) (.inl rfl) (.inl rfl) (.inl rfl) (.inl rfl) (.inl rfl) (.inl rfl) (.inl rfl) (.inl rfl) (.inl rfl) (.inl rfl) (.inl rfl) (.inl rfl) (.inl rfl) (.inl rfl) (.inl rfl) (.inl rfl) (.inl rfl) (.inl rfl) (.inl rfl) (.inl rfl) (.inl rfl)); first | with_reducible assumption | ((with_reducible refine Mask.sub hm ?_); first | exact rfl | (simp only [pageBit_ser]; exact rfl)) | with_reducible apply setReg_within | with_reducible apply setF_within | with_reducible exact Within.refl | split) | intro _ | split | dsimp only)

theorem resolveRoles_within {m : Nat} {s t : State} (h : Within m s t) (a0 : Nat) (hm : 0x200be821808200 ||| m = m) : Within m s (resolveRoles a0 t) := by
  unfold resolveRoles
  repeat' (first | with_reducible assumption | ((with_reducible refine Mask.sub hm ?_); first | exact rfl | (simp only [pageBit_ser]; exact rfl)) | with_reducible apply setReg_within | with_reducible apply beginSync_within | with_reducible apply becomeStandby_within | with_reducible exact Within.refl | intro _ | split | dsimp only)

theorem heartbeatRole_within {m : Nat} {s t : State} (h : Within m s t) (a0 : Nat) (a1 : Nat) (a2 : Nat) (a3 : Bool) (hm : 0x208be82180a200 ||| m = m) : Within m s (heartbeatRole a0 a1 a2 a3 t) := by
  unfold heartbeatRole
  repeat' (first | with_reducible assumption | ((with_reducible refine Mask.sub hm ?_); first | exact rfl | (simp only [pageBit_ser]; exact rfl)) | with_reducible apply setReg_within | with_reducible apply settleStandby_within | with_reducible apply pairBecomes_within | with_reducible apply resolveRoles_within | with_reducible apply startResync_within | with_reducible apply beginSync_within | with_reducible exact Within.refl | intro _ | split | dsimp only)

theorem heartbeatIn_within {m : Nat} {s t : State} (h : Within m s t) (a0 : MirrorMsg) (a1 : Nat) (a2 : Nat) (a3 : Nat) (a4 : Nat) (a5 : Nat) (a6 : Nat) (hm : 0x208be86180e200 ||| m = m) : Within m s (heartbeatIn a0 a1 a2 a3 a4 a5 a6 t) := by
  unfold heartbeatIn
  repeat' (first | with_reducible assumption | ((with_reducible refine Mask.sub hm ?_); first | exact rfl | (simp only [pageBit_ser]; exact rfl)) | with_reducible apply setReg_within | with_reducible apply setPair_within | with_reducible apply raise_within | with_reducible apply setB_within | with_reducible apply heartbeatRole_within | with_reducible apply setF_within | with_reducible apply followGrid_within | with_reducible exact Within.refl | intro _ | split | dsimp only)

theorem heartbeatLoss_within {m : Nat} {s t : State} (h : Within m s t) (hm : 0x20b8003404ba00 ||| m = m) : Within m s (heartbeatLoss t) := by
  unfold heartbeatLoss
  repeat' (first | with_reducible assumption | ((with_reducible refine Mask.sub hm ?_); first | exact rfl | (simp only [pageBit_ser]; exact rfl)) | with_reducible apply setReg_within | with_reducible apply raise_within | with_reducible apply countN_within | with_reducible apply setB_within | with_reducible apply done_within | with_reducible apply setPair_within | with_reducible apply releaseAcked_within | with_reducible apply resumeHeld_within | with_reducible apply setHeldJobs_within | (with_reducible refine resumeHeld_within_eq (by assumption) ?_ ?_) | with_reducible apply Within.foldl | with_reducible exact Within.refl | intro _ | split | dsimp only)

theorem execHeartbeatLoss_within {m : Nat} {s t u : State} (h : Within m s t) (hm : 0x20b8003404ba00 ||| m = m) (e : execHeartbeatLoss t = .next u) : Within m s u := by
  unfold execHeartbeatLoss at e
  try dsimp only at e
  repeat' split at e
  all_goals (cases e; repeat' (first | with_reducible assumption | ((with_reducible refine Mask.sub hm ?_); first | exact rfl | (simp only [pageBit_ser]; exact rfl)) | with_reducible apply setReg_within | with_reducible apply heartbeatLoss_within | with_reducible exact Within.refl | intro _ | split | dsimp only))

theorem applyCtx_within {m : Nat} {s t : State} (h : Within m s t) (a0 : Nat) (a1 : Nat) (a2 : List Byte) (hm : 0x2088002000a200 ||| m = m) : Within m s (applyCtx a0 a1 a2 t) := by
  unfold applyCtx
  repeat' (first | with_reducible assumption | ((with_reducible refine Mask.sub hm ?_); first | exact rfl | (simp only [pageBit_ser]; exact rfl)) | with_reducible apply setReg_within | with_reducible apply setAssoc_within | with_reducible exact Within.refl | intro _ | split | dsimp only)

theorem applyTmap_within {m : Nat} {s t : State} (h : Within m s t) (a0 : Nat) (a1 : Bool) (a2 : Nat) (a3 : List Byte) (hm : 0x20000820200000 ||| m = m) : Within m s (applyTmap a0 a1 a2 a3 t) := by
  unfold applyTmap
  repeat' (first | with_reducible assumption | ((with_reducible refine Mask.sub hm ?_); first | exact rfl | (simp only [pageBit_ser]; exact rfl)) | with_reducible apply setReg_within | with_reducible apply putMap_within | with_reducible exact Within.refl | intro _ | split | dsimp only)

theorem applyParent_within {m : Nat} {s t : State} (h : Within m s t) (a0 : Bool) (a1 : Nat) (a2 : List Byte) (hm : 0x80000000000 ||| m = m) : Within m s (applyParent a0 a1 a2 t) := by
  unfold applyParent
  repeat' (first | with_reducible assumption | ((with_reducible refine Mask.sub hm ?_); first | exact rfl | (simp only [pageBit_ser]; exact rfl)) | with_reducible apply setReg_within | with_reducible apply setMac_within | with_reducible exact Within.refl | intro _ | split | dsimp only)

theorem applyReserve_within {m : Nat} {s t : State} (h : Within m s t) (a0 : Bool) (a1 : Nat) (a2 : Nat) (a3 : Nat) (hm : 0x2098002000a200 ||| m = m) : Within m s (applyReserve a0 a1 a2 a3 t) := by
  unfold applyReserve
  repeat' (first | with_reducible assumption | ((with_reducible refine Mask.sub hm ?_); first | exact rfl | (simp only [pageBit_ser]; exact rfl)) | with_reducible apply setReg_within | with_reducible apply setGroup_within | with_reducible apply setCtx_within | with_reducible exact Within.refl | intro _ | split | dsimp only)

theorem applyBeacons_within {m : Nat} {s t : State} (h : Within m s t) (a0 : BeaconState) (hm : 0x88200000c000 ||| m = m) : Within m s (applyBeacons a0 t) := by
  have b37 := Mask.has (i := 37) hm rfl
  have b47 := Mask.has (i := 47) hm rfl
  unfold applyBeacons
  repeat' (first | with_reducible assumption | ((with_reducible refine Mask.sub hm ?_); first | exact rfl | (simp only [pageBit_ser]; exact rfl)) | with_reducible apply setReg_within | with_reducible apply setF_within | with_reducible apply setB_within | with_reducible apply setMac_within | with_reducible exact Within.refl | ((with_reducible refine Within.upd ?_ (.inl rfl) (.inl rfl) (.inl rfl) (.inl rfl) (.inl rfl) (.inl rfl) (.inl rfl) (.inl rfl) (.inl rfl) (.inl rfl) (.inl rfl) (.inl rfl) (.inl rfl) (.inr b37) (.inl rfl) (.inl rfl) (.inl rfl) (.inl rfl) (.inl rfl) (.inl rfl) (.inl rfl) (.inl rfl) (.inl rfl) (.inr b47) (.inl rfl) (.inl rfl) (.inl rfl) (.inl rfl) (.inl rfl) (.inl rfl)); first | with_reducible assumption | ((with_reducible refine Mask.sub hm ?_); first | exact rfl | (simp only [pageBit_ser]; exact rfl)) | with_reducible apply setReg_within | with_reducible apply setF_within | with_reducible apply setB_within | with_reducible apply setMac_within | with_reducible exact Within.refl | split) | intro _ | split | dsimp only)

theorem deltaIn_within {m : Nat} {s t : State} (h : Within m s t) (a0 : Bool) (hm : 0x200 ||| m = m) : Within m s (deltaIn a0 t) := by
  unfold deltaIn
  repeat' (first | with_reducible assumption | ((with_reducible refine Mask.sub hm ?_); first | exact rfl | (simp only [pageBit_ser]; exact rfl)) | with_reducible apply setReg_within | with_reducible apply count_within | with_reducible exact Within.refl | intro _ | split | dsimp only)

theorem syncedNow_within {m : Nat} {s t : State} (h : Within m s t) (hm : 0x20000020000200 ||| m = m) : Within m s (syncedNow t) := by
  unfold syncedNow
  repeat' (first | with_reducible assumption | ((with_reducible refine Mask.sub hm ?_); first | exact rfl | (simp only [pageBit_ser]; exact rfl)) | with_reducible apply setReg_within | with_reducible apply raise_within | with_reducible apply setSync_within | with_reducible exact Within.refl | intro _ | split | dsimp only)

theorem applyMirror_within {m : Nat} {s t : State} (h : Within m s t) (a0 : MirrorBody) (hm : 0x209c282020e200 ||| m = m) : Within m s (applyMirror a0 t) := by
  unfold applyMirror
  repeat' (first | with_reducible assumption | ((with_reducible refine Mask.sub hm ?_); first | exact rfl | (simp only [pageBit_ser]; exact rfl)) | with_reducible apply setReg_within | with_reducible apply applyCtx_within | with_reducible apply deltaIn_within | with_reducible apply setRelay_within | with_reducible apply applyTmap_within | with_reducible apply setRoute_within | with_reducible apply applyParent_within | with_reducible apply setGroup_within | with_reducible apply applyReserve_within | with_reducible apply applyBeacons_within | with_reducible apply setTru_within | with_reducible apply syncedNow_within | with_reducible apply setPair_within | with_reducible exact Within.refl | intro _ | split | dsimp only)

theorem grantReserves_within {m : Nat} {s t : State} (h : Within m s t) (hm : 0x2098002000a200 ||| m = m) : Within m s (grantReserves t) := by
  unfold grantReserves
  repeat' (first | with_reducible assumption | ((with_reducible refine Mask.sub hm ?_); first | exact rfl | (simp only [pageBit_ser]; exact rfl)) | with_reducible apply setReg_within | with_reducible apply setGroup_within | with_reducible apply setAssoc_within | with_reducible apply setPair_within | with_reducible apply Within.foldl | with_reducible exact Within.refl | intro _ | split | dsimp only)

theorem resumeAll_within {m : Nat} {s t : State} (h : Within m s t) (hm : 0x2098002004a200 ||| m = m) : Within m s (resumeAll t) := by
  unfold resumeAll
  repeat' (first | with_reducible assumption | ((with_reducible refine Mask.sub hm ?_); first | exact rfl | (simp only [pageBit_ser]; exact rfl)) | with_reducible apply setReg_within | with_reducible apply resumeHeld_within | with_reducible apply setHeldJobs_within | (with_reducible refine resumeHeld_within_eq (by assumption) ?_ ?_) | with_reducible apply Within.foldl | with_reducible exact Within.refl | intro _ | split | dsimp only)

theorem ackMirror_within {m : Nat} {s t : State} (h : Within m s t) (a0 : Nat) (hm : 0x20b8002004ba00 ||| m = m) : Within m s (ackMirror a0 t) := by
  unfold ackMirror
  repeat' (first | with_reducible assumption | ((with_reducible refine Mask.sub hm ?_); first | exact rfl | (simp only [pageBit_ser]; exact rfl)) | with_reducible apply setReg_within | with_reducible apply grantReserves_within | with_reducible apply setPair_within | with_reducible apply syncedNow_within | with_reducible apply releaseAcked_within | with_reducible apply resumeAll_within | with_reducible exact Within.refl | intro _ | split | dsimp only)

theorem mirrorApply_within {m : Nat} {s t : State} (h : Within m s t) (a0 : MirrorMsg) (a1 : Nat) (hm : 0x20bfe861a4fa00 ||| m = m) : Within m s (mirrorApply a0 a1 t) := by
  unfold mirrorApply
  repeat' (first | with_reducible assumption | ((with_reducible refine Mask.sub hm ?_); first | exact rfl | (simp only [pageBit_ser]; exact rfl)) | with_reducible apply setReg_within | with_reducible apply heartbeatIn_within | with_reducible apply ackMirror_within | with_reducible apply sendMirror_within | with_reducible apply applyMirror_within | with_reducible exact Within.refl | intro _ | split | dsimp only)

theorem applyAhead_within {m : Nat} {s t : State} (h : Within m s t) (a0 : Nat) (a1 : Nat) (hm : 0x20bfe861a4fa00 ||| m = m) : Within m s (applyAhead a0 a1 t) := by
  induction a0 generalizing t a1 with
  | zero =>
    unfold applyAhead
    repeat' (first | with_reducible assumption | with_reducible apply ih | ((with_reducible refine Mask.sub hm ?_); first | exact rfl | (simp only [pageBit_ser]; exact rfl)) | with_reducible apply setReg_within | with_reducible apply mirrorApply_within | with_reducible apply setPair_within | with_reducible exact Within.refl | intro _ | split | dsimp only)
  | succ _ ih =>
    unfold applyAhead
    repeat' (first | with_reducible assumption | with_reducible apply ih | ((with_reducible refine Mask.sub hm ?_); first | exact rfl | (simp only [pageBit_ser]; exact rfl)) | with_reducible apply setReg_within | with_reducible apply mirrorApply_within | with_reducible apply setPair_within | with_reducible exact Within.refl | intro _ | split | dsimp only)

theorem mirrorOrder_within {m : Nat} {s t : State} (h : Within m s t) (a0 : MirrorMsg) (a1 : Nat) (hm : 0x20bfe861a4fa00 ||| m = m) : Within m s (mirrorOrder a0 a1 t) := by
  unfold mirrorOrder
  repeat' (first | with_reducible assumption | ((with_reducible refine Mask.sub hm ?_); first | exact rfl | (simp only [pageBit_ser]; exact rfl)) | with_reducible apply setReg_within | with_reducible apply setPair_within | with_reducible apply applyAhead_within | with_reducible exact Within.refl | intro _ | split | dsimp only)

theorem mirrorIn_within {m : Nat} {s t : State} (h : Within m s t) (a0 : MLane) (a1 : Bool) (a2 : Bool) (a3 : MirrorMsg) (a4 : Nat) (hm : 0x20bfe861a4fa00 ||| m = m) : Within m s (mirrorIn a0 a1 a2 a3 a4 t) := by
  unfold mirrorIn
  repeat' (first | with_reducible assumption | ((with_reducible refine Mask.sub hm ?_); first | exact rfl | (simp only [pageBit_lanm]; exact rfl)) | with_reducible apply setReg_within | with_reducible apply count_within | with_reducible apply mirrorOrder_within | with_reducible apply raise_within | with_reducible exact Within.refl | intro _ | split | dsimp only)

theorem execMirrorFrameReceived_within {m : Nat} {s t u : State} (h : Within m s t) (a0 : MLane) (a1 : Bool) (a2 : Bool) (a3 : MirrorMsg) (a4 : BitVec 64) (hm : 0x20bfe861a4fa00 ||| m = m) (e : execMirrorFrameReceived a0 a1 a2 a3 a4 t = .next u) : Within m s u := by
  unfold execMirrorFrameReceived at e
  try dsimp only at e
  repeat' split at e
  all_goals (cases e; repeat' (first | with_reducible assumption | ((with_reducible refine Mask.sub hm ?_); first | exact rfl | (simp only [pageBit_ser]; exact rfl)) | with_reducible apply setReg_within | with_reducible apply mirrorIn_within | with_reducible exact Within.refl | intro _ | split | dsimp only))

theorem seqGap_within {m : Nat} {s t : State} (h : Within m s t) (hm : 0x20bfe861a4fa00 ||| m = m) : Within m s (seqGap t) := by
  unfold seqGap
  repeat' (first | with_reducible assumption | ((with_reducible refine Mask.sub hm ?_); first | exact rfl | (simp only [pageBit_ser]; exact rfl)) | with_reducible apply setReg_within | with_reducible apply beginSync_within | with_reducible apply startResync_within | with_reducible apply applyAhead_within | with_reducible apply setPair_within | with_reducible apply Within.foldl | with_reducible exact Within.refl | intro _ | split | dsimp only)

theorem execMirrorSeqGapExpiry_within {m : Nat} {s t u : State} (h : Within m s t) (hm : 0x20bfe861a4fa00 ||| m = m) (e : execMirrorSeqGapExpiry t = .next u) : Within m s u := by
  unfold execMirrorSeqGapExpiry at e
  try dsimp only at e
  repeat' split at e
  all_goals (cases e; repeat' (first | with_reducible assumption | ((with_reducible refine Mask.sub hm ?_); first | exact rfl | (simp only [pageBit_ser]; exact rfl)) | with_reducible apply setReg_within | with_reducible apply seqGap_within | with_reducible exact Within.refl | intro _ | split | dsimp only))

theorem execTruStateSend_within {m : Nat} {s t u : State} (h : Within m s t) (hm : 0x20800000002000 ||| m = m) (e : execTruStateSend t = .next u) : Within m s u := by
  unfold execTruStateSend at e
  try dsimp only at e
  repeat' split at e
  all_goals (cases e; repeat' (first | with_reducible assumption | ((with_reducible refine Mask.sub hm ?_); first | exact rfl | (simp only [pageBit_ser]; exact rfl)) | with_reducible apply setReg_within | with_reducible apply sendMirror_within | with_reducible exact Within.refl | intro _ | split | dsimp only))

theorem closeWindow_within {m : Nat} {s t : State} (h : Within m s t) (hm : 0x20800020000200 ||| m = m) : Within m s (closeWindow t) := by
  unfold closeWindow
  repeat' (first | with_reducible assumption | ((with_reducible refine Mask.sub hm ?_); first | exact rfl | (simp only [pageBit_ser]; exact rfl)) | with_reducible apply setReg_within | with_reducible apply setPair_within | with_reducible apply setB_within | with_reducible apply setSync_within | with_reducible apply raise_within | with_reducible exact Within.refl | intro _ | split | dsimp only)

theorem warnCounter_within {m : Nat} {s t : State} (h : Within m s t) (a0 : GroupSlot) (a1 : GroupSlot) (hm : 0x20000020040000 ||| m = m) : Within m s (warnCounter a0 a1 t) := by
  unfold warnCounter
  repeat' (first | with_reducible assumption | ((with_reducible refine Mask.sub hm ?_); first | exact rfl | (simp only [pageBit_ser]; exact rfl)) | with_reducible apply setReg_within | with_reducible apply raise_within | with_reducible exact Within.refl | intro _ | split | dsimp only)

theorem stepRecord_within {m : Nat} {s t : State} (h : Within m s t) (a0 : Nat) (hm : 0x20a8483425ba00 ||| m = m) : Within m s (stepRecord a0 t) := by
  unfold stepRecord
  repeat' (first | with_reducible assumption | ((with_reducible refine Mask.sub hm ?_); first | exact rfl | (simp only [pageBit_ser]; exact rfl)) | with_reducible apply setReg_within | with_reducible apply setAssoc_within | with_reducible apply warnCounter_within | with_reducible apply startEnd_within | with_reducible exact Within.refl | intro _ | split | dsimp only)

theorem stepGroup_within {m : Nat} {s t : State} (h : Within m s t) (a0 : Nat) (hm : 0x20900020042200 ||| m = m) : Within m s (stepGroup a0 t) := by
  unfold stepGroup
  repeat' (first | with_reducible assumption | ((with_reducible refine Mask.sub hm ?_); first | exact rfl | (simp only [pageBit_ser]; exact rfl)) | with_reducible apply setReg_within | with_reducible apply warnCounter_within | with_reducible apply setGroup_within | with_reducible exact Within.refl | intro _ | split | dsimp only)

theorem takeoverKeys_within {m : Nat} {s t : State} (h : Within m s t) (hm : 0x8080000048000 ||| m = m) : Within m s (takeoverKeys t) := by
  unfold takeoverKeys
  repeat' (first | with_reducible assumption | ((with_reducible refine Mask.sub hm ?_); first | exact rfl | (simp only [pageBit_ser]; exact rfl)) | with_reducible apply setReg_within | with_reducible apply rotateBkey_within | with_reducible apply randBytes_within | with_reducible apply setMac_within | with_reducible apply sendBkey_within | (with_reducible refine randBytes_within_eq (by assumption) ?_ ?_) | with_reducible apply Within.foldl | with_reducible exact Within.refl | intro _ | split | dsimp only)

theorem takeOver_within {m : Nat} {s t : State} (h : Within m s t) (a0 : TruHold) (hm : 0x2abc483c25bb20 ||| m = m) : Within m s (takeOver a0 t) := by
  unfold takeOver
  repeat' (first | with_reducible assumption | ((with_reducible refine Mask.sub hm ?_); first | exact rfl | (simp only [pageBit_ser]; exact rfl)) | with_reducible apply setReg_within | with_reducible apply setSync_within | with_reducible apply setF_within | with_reducible apply pairBecomes_within | with_reducible apply stepRecord_within | with_reducible apply takeoverKeys_within | with_reducible apply stepGroup_within | with_reducible apply campaignTakenOver_within | with_reducible apply dropPairRef_within | with_reducible apply logPage_within | with_reducible apply raise_within | with_reducible apply count_within | with_reducible apply Within.foldl | with_reducible exact Within.refl | intro _ | split | dsimp only)

theorem execTakeover_within {m : Nat} {s t u : State} (h : Within m s t) (a0 : TruHold) (hm : 0x2abc483c25bb20 ||| m = m) (e : execTakeover a0 t = .next u) : Within m s u := by
  unfold execTakeover at e
  try dsimp only at e
  repeat' split at e
  all_goals (cases e; repeat' (first | with_reducible assumption | ((with_reducible refine Mask.sub hm ?_); first | exact rfl | (simp only [pageBit_ser]; exact rfl)) | with_reducible apply setReg_within | with_reducible apply takeOver_within | with_reducible exact Within.refl | intro _ | split | dsimp only))

theorem handoverCheck_within {m : Nat} {s t : State} (h : Within m s t) (hm : 0x20800004002000 ||| m = m) : Within m s (handoverCheck t) := by
  unfold handoverCheck
  repeat' (first | with_reducible assumption | ((with_reducible refine Mask.sub hm ?_); first | exact rfl | (simp only [pageBit_ser]; exact rfl)) | with_reducible apply setReg_within | with_reducible apply sendMirror_within | with_reducible apply setPhase_within | with_reducible apply setPair_within | with_reducible exact Within.refl | intro _ | split | dsimp only)

theorem runHandover_within {m : Nat} {s t : State} (h : Within m s t) (a0 : Outstanding) (hm : 0x20800034002a00 ||| m = m) : Within m s (runHandover a0 t) := by
  unfold runHandover
  repeat' (first | with_reducible assumption | ((with_reducible refine Mask.sub hm ?_); first | exact rfl | (simp only [pageBit_ser]; exact rfl)) | with_reducible apply setReg_within | with_reducible apply done_within | with_reducible apply handoverCheck_within | with_reducible apply setPair_within | with_reducible exact Within.refl | intro _ | split | dsimp only)

theorem execHandover_within {m : Nat} {s t u : State} (h : Within m s t) (a0 : CmdSrc) (hm : 0x20800034002a00 ||| m = m) (e : execHandover a0 t = .next u) : Within m s u := by
  unfold execHandover at e
  try dsimp only at e
  repeat' split at e
  all_goals (cases e; repeat' (first | with_reducible assumption | ((with_reducible refine Mask.sub hm ?_); first | exact rfl | (simp only [pageBit_ser]; exact rfl)) | with_reducible apply setReg_within | with_reducible apply issue_within | with_reducible apply runHandover_within | with_reducible exact Within.refl | intro _ | split | dsimp only))

theorem execHandoverDrainTimeout_within {m : Nat} {s t u : State} (h : Within m s t) (hm : 0x20000034000a00 ||| m = m) (e : execHandoverDrainTimeout t = .next u) : Within m s u := by
  unfold execHandoverDrainTimeout at e
  try dsimp only at e
  repeat' split at e
  all_goals (cases e; repeat' (first | with_reducible assumption | ((with_reducible refine Mask.sub hm ?_); first | exact rfl | (simp only [pageBit_ser]; exact rfl)) | with_reducible apply setReg_within | with_reducible apply done_within | with_reducible exact Within.refl | intro _ | split | dsimp only))

theorem roleSwap_within {m : Nat} {s t : State} (h : Within m s t) (a0 : TruHold) (hm : 0x208fe03d800b20 ||| m = m) : Within m s (roleSwap a0 t) := by
  unfold roleSwap
  repeat' (first | with_reducible assumption | ((with_reducible refine Mask.sub hm ?_); first | exact rfl | (simp only [pageBit_ser]; exact rfl)) | with_reducible apply setReg_within | with_reducible apply setPair_within | with_reducible apply raise_within | with_reducible apply setF_within | with_reducible apply dropPairRef_within | with_reducible apply pairBecomes_within | with_reducible apply setSync_within | with_reducible apply becomeStandby_within | with_reducible apply done_within | with_reducible exact Within.refl | intro _ | split | dsimp only)

theorem runResync_within {m : Nat} {s t : State} (h : Within m s t) (a0 : Outstanding) (hm : 0x20800034002a00 ||| m = m) : Within m s (runResync a0 t) := by
  unfold runResync
  repeat' (first | with_reducible assumption | ((with_reducible refine Mask.sub hm ?_); first | exact rfl | (simp only [pageBit_ser]; exact rfl)) | with_reducible apply setReg_within | with_reducible apply done_within | with_reducible apply startResync_within | with_reducible exact Within.refl | intro _ | split | dsimp only)

theorem execResync_within {m : Nat} {s t u : State} (h : Within m s t) (a0 : CmdSrc) (hm : 0x20800034002a00 ||| m = m) (e : execResync a0 t = .next u) : Within m s u := by
  unfold execResync at e
  try dsimp only at e
  repeat' split at e
  all_goals (cases e; repeat' (first | with_reducible assumption | ((with_reducible refine Mask.sub hm ?_); first | exact rfl | (simp only [pageBit_ser]; exact rfl)) | with_reducible apply setReg_within | with_reducible apply issue_within | with_reducible apply runResync_within | with_reducible exact Within.refl | intro _ | split | dsimp only))

theorem abortHandover_within {m : Nat} {s t : State} (h : Within m s t) (hm : 0x20000034000a00 ||| m = m) : Within m s (abortHandover t) := by
  unfold abortHandover
  repeat' (first | with_reducible assumption | ((with_reducible refine Mask.sub hm ?_); first | exact rfl | (simp only [pageBit_ser]; exact rfl)) | with_reducible apply setReg_within | with_reducible apply done_within | with_reducible exact Within.refl | intro _ | split | dsimp only)

theorem execDlCompletion_within {m : Nat} {s t u : State} (h : Within m s t) (hm : 0x20a80034003800 ||| m = m) (e : execDlCompletion t = .next u) : Within m s u := by
  unfold execDlCompletion at e
  try dsimp only at e
  repeat' split at e
  all_goals (cases e; repeat' (first | with_reducible assumption | ((with_reducible refine Mask.sub hm ?_); first | exact rfl | (simp only [pageBit_ser]; exact rfl)) | with_reducible apply setReg_within | with_reducible apply handoverCheck_within | with_reducible apply ringResetDone_within | with_reducible apply deliverNext_within | with_reducible exact Within.refl | intro _ | split | dsimp only))

theorem execPairBlkReset_within {m : Nat} {s t u : State} (h : Within m s t) (hm : 0x20000034000a00 ||| m = m) (e : execPairBlkReset t = .next u) : Within m s u := by
  unfold execPairBlkReset at e
  try dsimp only at e
  repeat' split at e
  all_goals (cases e; repeat' (first | with_reducible assumption | ((with_reducible refine Mask.sub hm ?_); first | exact rfl | (simp only [pageBit_ser]; exact rfl)) | with_reducible apply setReg_within | with_reducible apply blkReset_within | with_reducible exact Within.refl | intro _ | split | dsimp only))

end Sys2Proof.Machine
end

