-- ==== Sys2Proof/Laws/WithinSen.lean ====
section
/-! SUPPORT. Sys2Proof/Laws/WithinSen.lean: the parts of a state that the operations of Machine/Sen.lean may change. -/
namespace Sys2Proof.Machine

theorem setChan_within {m : Nat} {s t : State} (h : Within m s t) (a0 : Nat) (a1 : ChanSt) (hm : 0x1000000000000 ||| m = m) : Within m s (setChan a0 a1 t) := by
  have b48 := Mask.has (i := 48) hm rfl
  unfold setChan
  repeat' (first | with_reducible assumption | ((with_reducible refine Mask.sub hm ?_); first | exact rfl | (simp only [pageBit_ser]; exact rfl)) | with_reducible apply setReg_within | with_reducible exact Within.refl | ((with_reducible refine Within.upd ?_ (.inl rfl) (.inl rfl) (.inl rfl) (.inl rfl) (.inl rfl) (.inl rfl) (.inl rfl) (.inl rfl) (.inl rfl) (.inl rfl) (.inl rfl) (.inl rfl) (.inl rfl) (.inl rfl) (.inl rfl) (.inl rfl) (.inl rfl) (.inl rfl) (.inl rfl) (.inl rfl) (.inl rfl) (.inl rfl) (.inl rfl) (.inl rfl) (.inr b48) (.inl rfl) (.inl rfl) (.inl rfl) (.inl rfl) (.inl rfl)); first | with_reducible assumption | ((with_reducible refine Mask.sub hm ?_); first | exact rfl | (simp only [pageBit_ser]; exact rfl)) | with_reducible apply setReg_within | with_reducible exact Within.refl | split) | intro _ | split | dsimp only)

theorem refreshSi_within {m : Nat} {s t : State} (h : Within m s t) (a0 : Nat) (hm : 0x20000020000040 ||| m = m) : Within m s (refreshSi a0 t) := by
  unfold refreshSi
  repeat' (first | with_reducible assumption | ((with_reducible refine Mask.sub hm ?_); first | exact rfl | (simp only [pageBit_ser]; exact rfl)) | with_reducible apply setReg_within | with_reducible apply setFault_within | with_reducible apply setF_within | with_reducible apply raise_within | with_reducible exact Within.refl | intro _ | split | dsimp only)

theorem setStale_within {m : Nat} {s t : State} (h : Within m s t) (a0 : Nat) (hm : 0x20000020000040 ||| m = m) : Within m s (setStale a0 t) := by
  unfold setStale
  repeat' (first | with_reducible assumption | ((with_reducible refine Mask.sub hm ?_); first | exact rfl | (simp only [pageBit_ser]; exact rfl)) | with_reducible apply setReg_within | with_reducible apply refreshSi_within | with_reducible apply raise_within | with_reducible apply setI_within | with_reducible exact Within.refl | intro _ | split | dsimp only)

theorem senAlarm_within {m : Nat} {s t : State} (h : Within m s t) (a0 : Nat) (a1 : Int) (hm : 0x21000020000040 ||| m = m) : Within m s (senAlarm a0 a1 t) := by
  unfold senAlarm
  repeat' (first | with_reducible assumption | ((with_reducible refine Mask.sub hm ?_); first | exact rfl | (simp only [pageBit_ser]; exact rfl)) | with_reducible apply setReg_within | with_reducible apply raise_within | with_reducible apply setChan_within | with_reducible exact Within.refl | intro _ | split | dsimp only)

theorem senStat_within {m : Nat} {s t : State} (h : Within m s t) (a0 : Nat) (a1 : Bool) (a2 : Nat) (hm : 0x20000020000040 ||| m = m) : Within m s (senStat a0 a1 a2 t) := by
  unfold senStat
  repeat' (first | with_reducible assumption | ((with_reducible refine Mask.sub hm ?_); first | exact rfl | (simp only [pageBit_ser]; exact rfl)) | with_reducible apply setReg_within | with_reducible apply setI_within | with_reducible apply refreshSi_within | with_reducible apply raise_within | with_reducible exact Within.refl | intro _ | split | dsimp only)

theorem showTemp_within {m : Nat} {s t : State} (h : Within m s t) (a0 : Nat) (a1 : Option Int) (hm : 0x31000020000040 ||| m = m) : Within m s (showTemp a0 a1 t) := by
  unfold showTemp
  repeat' (first | with_reducible assumption | ((with_reducible refine Mask.sub hm ?_); first | exact rfl | (simp only [pageBit_ser]; exact rfl)) | with_reducible apply setReg_within | with_reducible apply senAlarm_within | with_reducible apply setI_within | with_reducible apply freeWord_within | (with_reducible refine freeWord_within_eq (by assumption) ?_ ?_) | with_reducible exact Within.refl | intro _ | split | dsimp only)

theorem sxResult_within {m : Nat} {s t : State} (h : Within m s t) (a0 : Nat) (a1 : Int) (a2 : Int) (hm : 0x31000020000040 ||| m = m) : Within m s (sxResult a0 a1 a2 t) := by
  unfold sxResult
  repeat' (first | with_reducible assumption | ((with_reducible refine Mask.sub hm ?_); first | exact rfl | (simp only [pageBit_ser]; exact rfl)) | with_reducible apply setReg_within | with_reducible apply setI_within | with_reducible apply senStat_within | with_reducible apply showTemp_within | with_reducible apply setChan_within | with_reducible exact Within.refl | intro _ | split | dsimp only)

theorem siResult_within {m : Nat} {s t : State} (h : Within m s t) (a0 : Nat) (a1 : Int) (a2 : Int) (a3 : SensorOut) (hm : 0x20000020000040 ||| m = m) : Within m s (siResult a0 a1 a2 a3 t) := by
  unfold siResult
  repeat' (first | with_reducible assumption | ((with_reducible refine Mask.sub hm ?_); first | exact rfl | (simp only [pageBit_ser]; exact rfl)) | with_reducible apply setReg_within | with_reducible apply setI_within | with_reducible apply senStat_within | with_reducible exact Within.refl | intro _ | split | dsimp only)

theorem restartCycle_within {m : Nat} {s t : State} (h : Within m s t) (a0 : Nat) (hm : 0x1000000000000 ||| m = m) : Within m s (restartCycle a0 t) := by
  unfold restartCycle
  repeat' (first | with_reducible assumption | ((with_reducible refine Mask.sub hm ?_); first | exact rfl | (simp only [pageBit_ser]; exact rfl)) | with_reducible apply setReg_within | with_reducible apply setChan_within | with_reducible exact Within.refl | intro _ | split | dsimp only)

theorem endPhase_within {m : Nat} {s t : State} (h : Within m s t) (a0 : Nat) (a1 : SensorOut) (hm : 0x31000020000040 ||| m = m) : Within m s (endPhase a0 a1 t) := by
  unfold endPhase
  repeat' (first | with_reducible assumption | ((with_reducible refine Mask.sub hm ?_); first | exact rfl | (simp only [pageBit_ser]; exact rfl)) | with_reducible apply setReg_within | with_reducible apply setChan_within | with_reducible apply siResult_within | with_reducible apply sxResult_within | with_reducible exact Within.refl | intro _ | split | dsimp only)

theorem outputBoundary_within {m : Nat} {s t : State} (h : Within m s t) (a0 : Nat) (a1 : SensorOut) (hm : 0x31000020000040 ||| m = m) : Within m s (outputBoundary a0 a1 t) := by
  unfold outputBoundary
  repeat' (first | with_reducible assumption | ((with_reducible refine Mask.sub hm ?_); first | exact rfl | (simp only [pageBit_ser]; exact rfl)) | with_reducible apply setReg_within | with_reducible apply restartCycle_within | with_reducible apply setChan_within | with_reducible apply endPhase_within | with_reducible exact Within.refl | intro _ | split | dsimp only)

theorem execSensorOutputBoundary_within {m : Nat} {s t u : State} (h : Within m s t) (a0 : Chan) (a1 : SensorOut) (hm : 0x31000020000040 ||| m = m) (e : execSensorOutputBoundary a0 a1 t = .next u) : Within m s u := by
  unfold execSensorOutputBoundary at e
  try dsimp only at e
  repeat' split at e
  all_goals (cases e; repeat' (first | with_reducible assumption | ((with_reducible refine Mask.sub hm ?_); first | exact rfl | (simp only [pageBit_ser]; exact rfl)) | with_reducible apply setReg_within | with_reducible apply outputBoundary_within | with_reducible exact Within.refl | intro _ | split | dsimp only))

theorem execSensorStale_within {m : Nat} {s t u : State} (h : Within m s t) (a0 : Chan) (hm : 0x20000020000040 ||| m = m) (e : execSensorStale a0 t = .next u) : Within m s u := by
  unfold execSensorStale at e
  try dsimp only at e
  repeat' split at e
  all_goals (cases e; repeat' (first | with_reducible assumption | ((with_reducible refine Mask.sub hm ?_); first | exact rfl | (simp only [pageBit_ser]; exact rfl)) | with_reducible apply setReg_within | with_reducible apply setStale_within | with_reducible exact Within.refl | intro _ | split | dsimp only))

theorem execSenTempRead_within {m : Nat} {s t u : State} (h : Within m s t) (a0 : Chan) (hm : 0x21000000000000 ||| m = m) (e : execSenTempRead a0 t = .next u) : Within m s u := by
  unfold execSenTempRead at e
  try dsimp only at e
  repeat' split at e
  all_goals (cases e; repeat' (first | with_reducible assumption | ((with_reducible refine Mask.sub hm ?_); first | exact rfl | (simp only [pageBit_ser]; exact rfl)) | with_reducible apply setReg_within | with_reducible apply returnWord_within | with_reducible apply setChan_within | with_reducible exact Within.refl | intro _ | split | dsimp only))

theorem senCfgWritten_within {m : Nat} {s t : State} (h : Within m s t) (a0 : Nat) (hm : 0x21000020000040 ||| m = m) : Within m s (senCfgWritten a0 t) := by
  unfold senCfgWritten
  repeat' (first | with_reducible assumption | ((with_reducible refine Mask.sub hm ?_); first | exact rfl | (simp only [pageBit_ser]; exact rfl)) | with_reducible apply setReg_within | with_reducible apply setStale_within | with_reducible apply setChan_within | with_reducible exact Within.refl | intro _ | split | dsimp only)

theorem runSelfCal_within {m : Nat} {s t : State} (h : Within m s t) (a0 : Outstanding) (hm : 0x21000034000840 ||| m = m) : Within m s (runSelfCal a0 t) := by
  unfold runSelfCal
  repeat' (first | with_reducible assumption | ((with_reducible refine Mask.sub hm ?_); first | exact rfl | (simp only [pageBit_ser]; exact rfl)) | with_reducible apply setReg_within | with_reducible apply done_within | with_reducible apply setChan_within | with_reducible exact Within.refl | intro _ | split | dsimp only)

theorem execSelfCal_within {m : Nat} {s t u : State} (h : Within m s t) (a0 : CmdSrc) (hm : 0x21000034000840 ||| m = m) (e : execSelfCal a0 t = .next u) : Within m s u := by
  unfold execSelfCal at e
  try dsimp only at e
  repeat' split at e
  all_goals (cases e; repeat' (first | with_reducible assumption | ((with_reducible refine Mask.sub hm ?_); first | exact rfl | (simp only [pageBit_ser]; exact rfl)) | with_reducible apply setReg_within | with_reducible apply issue_within | with_reducible apply runSelfCal_within | with_reducible exact Within.refl | intro _ | split | dsimp only))

theorem endSelfCal_within {m : Nat} {s t : State} (h : Within m s t) (a0 : Nat) (a1 : Nat) (hm : 0x21000034000840 ||| m = m) : Within m s (endSelfCal a0 a1 t) := by
  unfold endSelfCal
  repeat' (first | with_reducible assumption | ((with_reducible refine Mask.sub hm ?_); first | exact rfl | (simp only [pageBit_ser]; exact rfl)) | with_reducible apply setReg_within | with_reducible apply done_within | with_reducible apply setChan_within | with_reducible exact Within.refl | intro _ | split | dsimp only)

theorem finishSelfCal_within {m : Nat} {s t : State} (h : Within m s t) (a0 : Outstanding) (a1 : Option (Word × Word)) (hm : 0x21000034000840 ||| m = m) : Within m s (finishSelfCal a0 a1 t) := by
  unfold finishSelfCal
  repeat' (first | with_reducible assumption | ((with_reducible refine Mask.sub hm ?_); first | exact rfl | (simp only [pageBit_ser]; exact rfl)) | with_reducible apply setReg_within | with_reducible apply endSelfCal_within | with_reducible apply setChan_within | with_reducible exact Within.refl | intro _ | split | dsimp only)

theorem abortSelfCal_within {m : Nat} {s t : State} (h : Within m s t) (a0 : Outstanding) (hm : 0x21000034000840 ||| m = m) : Within m s (abortSelfCal a0 t) := by
  unfold abortSelfCal
  repeat' (first | with_reducible assumption | ((with_reducible refine Mask.sub hm ?_); first | exact rfl | (simp only [pageBit_ser]; exact rfl)) | with_reducible apply setReg_within | with_reducible apply endSelfCal_within | with_reducible exact Within.refl | intro _ | split | dsimp only)

theorem stopSelfCal_within {m : Nat} {s t : State} (h : Within m s t) (hm : 0x21000034000840 ||| m = m) : Within m s (stopSelfCal t) := by
  unfold stopSelfCal
  repeat' (first | with_reducible assumption | ((with_reducible refine Mask.sub hm ?_); first | exact rfl | (simp only [pageBit_ser]; exact rfl)) | with_reducible apply setReg_within | with_reducible apply endSelfCal_within | with_reducible exact Within.refl | intro _ | split | dsimp only)

theorem execSenBlkReset_within {m : Nat} {s t u : State} (h : Within m s t) (hm : 0x21000034000840 ||| m = m) (e : execSenBlkReset t = .next u) : Within m s u := by
  unfold execSenBlkReset at e
  try dsimp only at e
  repeat' split at e
  all_goals (cases e; repeat' (first | with_reducible assumption | ((with_reducible refine Mask.sub hm ?_); first | exact rfl | (simp only [pageBit_ser]; exact rfl)) | with_reducible apply setReg_within | with_reducible apply blkReset_within | with_reducible apply senCfgWritten_within | with_reducible apply stopSelfCal_within | with_reducible apply Within.foldl | with_reducible exact Within.refl | intro _ | split | dsimp only))

end Sys2Proof.Machine
end

