-- ==== Sys2Proof/Laws/WithinSaf.lean ====
section
/-! SUPPORT. Sys2Proof/Laws/WithinSaf.lean: the parts of a state that the operations of Machine/Saf.lean may change. -/
namespace Sys2Proof.Machine

theorem monitorKill_within {m : Nat} {s t : State} (h : Within m s t) (a0 : Nat) (a1 : Port) (hm : 0x2003a021800008 ||| m = m) : Within m s (monitorKill a0 a1 t) := by
  unfold monitorKill
  repeat' (first | with_reducible assumption | ((with_reducible refine Mask.sub hm ?_); first | exact rfl | (simp only [pageBit_ser]; exact rfl)) | with_reducible apply setReg_within | with_reducible apply kill_within | with_reducible exact Within.refl | intro _ | split | dsimp only)

theorem execBandEdgeKill_within {m : Nat} {s t u : State} (h : Within m s t) (a0 : Port) (hm : 0x2003a021800008 ||| m = m) (e : execBandEdgeKill a0 t = .next u) : Within m s u := by
  unfold execBandEdgeKill at e
  try dsimp only at e
  repeat' split at e
  all_goals (cases e; repeat' (first | with_reducible assumption | ((with_reducible refine Mask.sub hm ?_); first | exact rfl | (simp only [pageBit_ser]; exact rfl)) | with_reducible apply setReg_within | with_reducible apply monitorKill_within | with_reducible exact Within.refl | intro _ | split | dsimp only))

theorem execLevelKill_within {m : Nat} {s t u : State} (h : Within m s t) (a0 : Port) (hm : 0x2003a021800008 ||| m = m) (e : execLevelKill a0 t = .next u) : Within m s u := by
  unfold execLevelKill at e
  try dsimp only at e
  repeat' split at e
  all_goals (cases e; repeat' (first | with_reducible assumption | ((with_reducible refine Mask.sub hm ?_); first | exact rfl | (simp only [pageBit_ser]; exact rfl)) | with_reducible apply setReg_within | with_reducible apply monitorKill_within | with_reducible exact Within.refl | intro _ | split | dsimp only))

theorem execStuckKill_within {m : Nat} {s t u : State} (h : Within m s t) (a0 : Port) (hm : 0x2003a021800008 ||| m = m) (e : execStuckKill a0 t = .next u) : Within m s u := by
  unfold execStuckKill at e
  try dsimp only at e
  repeat' split at e
  all_goals (cases e; repeat' (first | with_reducible assumption | ((with_reducible refine Mask.sub hm ?_); first | exact rfl | (simp only [pageBit_ser]; exact rfl)) | with_reducible apply setReg_within | with_reducible apply monitorKill_within | with_reducible exact Within.refl | intro _ | split | dsimp only))

theorem execTapKill_within {m : Nat} {s t u : State} (h : Within m s t) (a0 : Port) (hm : 0x2003a021800008 ||| m = m) (e : execTapKill a0 t = .next u) : Within m s u := by
  unfold execTapKill at e
  try dsimp only at e
  repeat' split at e
  all_goals (cases e; repeat' (first | with_reducible assumption | ((with_reducible refine Mask.sub hm ?_); first | exact rfl | (simp only [pageBit_lpt]; exact rfl)) | with_reducible apply setReg_within | with_reducible apply kill_within | with_reducible apply diagReport_within | with_reducible exact Within.refl | intro _ | split | dsimp only))

theorem execSelfKill_within {m : Nat} {s t u : State} (h : Within m s t) (hm : 0x2003a021800008 ||| m = m) (e : execSelfKill t = .next u) : Within m s u := by
  unfold execSelfKill at e
  try dsimp only at e
  repeat' split at e
  all_goals (cases e; repeat' (first | with_reducible assumption | ((with_reducible refine Mask.sub hm ?_); first | exact rfl | (simp only [pageBit_ser]; exact rfl)) | with_reducible apply setReg_within | with_reducible apply kill_within | with_reducible apply diagReport_within | with_reducible exact Within.refl | intro _ | split | dsimp only))

theorem execKillnFall_within {m : Nat} {s t u : State} (h : Within m s t) (hm : 0x2003a0a1800008 ||| m = m) (e : execKillnFall t = .next u) : Within m s u := by
  have b31 := Mask.has (i := 31) hm rfl
  unfold execKillnFall at e
  try dsimp only at e
  repeat' split at e
  all_goals (cases e; repeat' (first | with_reducible assumption | ((with_reducible refine Mask.sub hm ?_); first | exact rfl | (simp only [pageBit_ser]; exact rfl)) | with_reducible apply setReg_within | with_reducible apply kill_within | with_reducible apply diagReport_within | with_reducible apply setB_within | with_reducible exact Within.refl | ((with_reducible refine Within.upd ?_ (.inl rfl) (.inl rfl) (.inl rfl) (.inl rfl) (.inl rfl) (.inl rfl) (.inl rfl) (.inr b31) (.inl rfl) (.inl rfl) (.inl rfl) (.inl rfl) (.inl rfl) (.inl rfl) (.inl rfl) (.inl rfl) (.inl rfl) (.inl rfl) (.inl rfl) (.inl rfl) (.inl rfl) (.inl rfl) (.inl rfl) (.inl rfl) (.inl rfl) (.inl rfl) (.inl rfl) (.inl rfl) (.inl rfl) (.inl rfl)); first | with_reducible assumption | ((with_reducible refine Mask.sub hm ?_); first | exact rfl | (simp only [pageBit_ser]; exact rfl)) | with_reducible apply setReg_within | with_reducible apply kill_within | with_reducible apply diagReport_within | with_reducible apply setB_within | with_reducible exact Within.refl | split) | intro _ | split | dsimp only))

theorem execKillnRise_within {m : Nat} {s t u : State} (h : Within m s t) (hm : 0x80000008 ||| m = m) (e : execKillnRise t = .next u) : Within m s u := by
  have b31 := Mask.has (i := 31) hm rfl
  unfold execKillnRise at e
  try dsimp only at e
  repeat' split at e
  all_goals (cases e; repeat' (first | with_reducible assumption | ((with_reducible refine Mask.sub hm ?_); first | exact rfl | (simp only [pageBit_ser]; exact rfl)) | with_reducible apply setReg_within | with_reducible apply setB_within | with_reducible exact Within.refl | ((with_reducible refine Within.upd ?_ (.inl rfl) (.inl rfl) (.inl rfl) (.inl rfl) (.inl rfl) (.inl rfl) (.inl rfl) (.inr b31) (.inl rfl) (.inl rfl) (.inl rfl) (.inl rfl) (.inl rfl) (.inl rfl) (.inl rfl) (.inl rfl) (.inl rfl) (.inl rfl) (.inl rfl) (.inl rfl) (.inl rfl) (.inl rfl) (.inl rfl) (.inl rfl) (.inl rfl) (.inl rfl) (.inl rfl) (.inl rfl) (.inl rfl) (.inl rfl)); first | with_reducible assumption | ((with_reducible refine Mask.sub hm ?_); first | exact rfl | (simp only [pageBit_ser]; exact rfl)) | with_reducible apply setReg_within | with_reducible apply setB_within | with_reducible exact Within.refl | split) | intro _ | split | dsimp only))

theorem execKillnAutoRelease_within {m : Nat} {s t u : State} (h : Within m s t) (hm : 0x20000020000008 ||| m = m) (e : execKillnAutoRelease t = .next u) : Within m s u := by
  unfold execKillnAutoRelease at e
  try dsimp only at e
  repeat' split at e
  all_goals (cases e; repeat' (first | with_reducible assumption | ((with_reducible refine Mask.sub hm ?_); first | exact rfl | (simp only [pageBit_ser]; exact rfl)) | with_reducible apply setReg_within | with_reducible apply endCause_within | with_reducible exact Within.refl | intro _ | split | dsimp only))

theorem showBase_within {m : Nat} {s t : State} (h : Within m s t) (a0 : BitVec 16) (hm : 0x2 ||| m = m) : Within m s (showBase a0 t) := by
  unfold showBase
  repeat' (first | with_reducible assumption | ((with_reducible refine Mask.sub hm ?_); first | exact rfl | (simp only [pageBit_ser]; exact rfl)) | with_reducible apply setReg_within | with_reducible apply setF_within | with_reducible exact Within.refl | intro _ | split | dsimp only)

theorem execBaseplateOverTemp_within {m : Nat} {s t u : State} (h : Within m s t) (a0 : BitVec 16) (hm : 0x20000028000022 ||| m = m) (e : execBaseplateOverTemp a0 t = .next u) : Within m s u := by
  unfold execBaseplateOverTemp at e
  try dsimp only at e
  repeat' split at e
  all_goals (cases e; repeat' (first | with_reducible assumption | ((with_reducible refine Mask.sub hm ?_); first | exact rfl | (simp only [pageBit_ser]; exact rfl)) | with_reducible apply setReg_within | with_reducible apply logPage_within | with_reducible apply raise_within | with_reducible apply showBase_within | with_reducible exact Within.refl | intro _ | split | dsimp only))

theorem execTempKill_within {m : Nat} {s t u : State} (h : Within m s t) (a0 : BitVec 16) (hm : 0x2003a02180000a ||| m = m) (e : execTempKill a0 t = .next u) : Within m s u := by
  unfold execTempKill at e
  try dsimp only at e
  repeat' split at e
  all_goals (cases e; repeat' (first | with_reducible assumption | ((with_reducible refine Mask.sub hm ?_); first | exact rfl | (simp only [pageBit_ser]; exact rfl)) | with_reducible apply setReg_within | with_reducible apply kill_within | with_reducible apply raise_within | with_reducible apply showBase_within | with_reducible exact Within.refl | intro _ | split | dsimp only))

theorem execTempKillRelease_within {m : Nat} {s t u : State} (h : Within m s t) (hm : 0x20000020000008 ||| m = m) (e : execTempKillRelease t = .next u) : Within m s u := by
  unfold execTempKillRelease at e
  try dsimp only at e
  repeat' split at e
  all_goals (cases e; repeat' (first | with_reducible assumption | ((with_reducible refine Mask.sub hm ?_); first | exact rfl | (simp only [pageBit_ser]; exact rfl)) | with_reducible apply setReg_within | with_reducible apply endCause_within | with_reducible exact Within.refl | intro _ | split | dsimp only))

theorem showTrip_within {m : Nat} {s t : State} (h : Within m s t) (hm : 0x8 ||| m = m) : Within m s (showTrip t) := by
  unfold showTrip
  repeat' (first | with_reducible assumption | ((with_reducible refine Mask.sub hm ?_); first | exact rfl | (simp only [pageBit_ser]; exact rfl)) | with_reducible apply setReg_within | with_reducible apply setB_within | with_reducible exact Within.refl | intro _ | split | dsimp only)

theorem stopBank_within {m : Nat} {s t : State} (h : Within m s t) (a0 : Nat) (hm : 0x2003a021800000 ||| m = m) : Within m s (stopBank a0 t) := by
  unfold stopBank
  repeat' (first | with_reducible assumption | ((with_reducible refine Mask.sub hm ?_); first | exact rfl | (simp only [pageBit_ser]; exact rfl)) | with_reducible apply setReg_within | with_reducible apply stopPort_within | with_reducible apply Within.foldl | with_reducible exact Within.refl | intro _ | split | dsimp only)

theorem tripBit_within {m : Nat} {s t : State} (h : Within m s t) (a0 : Field) (a1 : Nat) (a2 : Bool) (hm : 0x8 ||| m = m) : Within m s (tripBit a0 a1 a2 t) := by
  unfold tripBit
  repeat' (first | with_reducible assumption | ((with_reducible refine Mask.sub hm ?_); first | exact rfl | (simp only [pageBit_ser]; exact rfl)) | with_reducible apply setReg_within | with_reducible apply showTrip_within | with_reducible apply setF_within | with_reducible exact Within.refl | intro _ | split | dsimp only)

theorem tripBank_within {m : Nat} {s t : State} (h : Within m s t) (a0 : Nat) (a1 : Bool) (hm : 0x2003a021800008 ||| m = m) : Within m s (tripBank a0 a1 t) := by
  unfold tripBank
  repeat' (first | with_reducible assumption | ((with_reducible refine Mask.sub hm ?_); first | exact rfl | (simp only [pageBit_ser]; exact rfl)) | with_reducible apply setReg_within | with_reducible apply tripBit_within | with_reducible apply diagReport_within | with_reducible apply stopBank_within | with_reducible apply raise_within | with_reducible apply count_within | with_reducible exact Within.refl | intro _ | split | dsimp only)

theorem execHotSpotTrip_within {m : Nat} {s t u : State} (h : Within m s t) (a0 : Fin 4) (a1 : Bool) (hm : 0x2003a021800008 ||| m = m) (e : execHotSpotTrip a0 a1 t = .next u) : Within m s u := by
  unfold execHotSpotTrip at e
  try dsimp only at e
  repeat' split at e
  all_goals (cases e; repeat' (first | with_reducible assumption | ((with_reducible refine Mask.sub hm ?_); first | exact rfl | (simp only [pageBit_ser]; exact rfl)) | with_reducible apply setReg_within | with_reducible apply tripBank_within | with_reducible exact Within.refl | intro _ | split | dsimp only))

theorem execSiWarn_within {m : Nat} {s t u : State} (h : Within m s t) (a0 : Fin 4) (hm : 0x20000028000028 ||| m = m) (e : execSiWarn a0 t = .next u) : Within m s u := by
  unfold execSiWarn at e
  try dsimp only at e
  repeat' split at e
  all_goals (cases e; repeat' (first | with_reducible assumption | ((with_reducible refine Mask.sub hm ?_); first | exact rfl | (simp only [pageBit_ser]; exact rfl)) | with_reducible apply setReg_within | with_reducible apply logPage_within | with_reducible apply raise_within | with_reducible exact Within.refl | intro _ | split | dsimp only))

theorem execTripLift_within {m : Nat} {s t u : State} (h : Within m s t) (a0 : Fin 4) (a1 : Bool) (hm : 0x8 ||| m = m) (e : execTripLift a0 a1 t = .next u) : Within m s u := by
  unfold execTripLift at e
  try dsimp only at e
  repeat' split at e
  all_goals (cases e; repeat' (first | with_reducible assumption | ((with_reducible refine Mask.sub hm ?_); first | exact rfl | (simp only [pageBit_ser]; exact rfl)) | with_reducible apply setReg_within | with_reducible apply tripBit_within | with_reducible exact Within.refl | intro _ | split | dsimp only))

theorem runClearKill_within {m : Nat} {s t : State} (h : Within m s t) (a0 : Nat) (a1 : Outstanding) (hm : 0x20000034000808 ||| m = m) : Within m s (runClearKill a0 a1 t) := by
  unfold runClearKill
  repeat' (first | with_reducible assumption | ((with_reducible refine Mask.sub hm ?_); first | exact rfl | (simp only [pageBit_ser]; exact rfl)) | with_reducible apply setReg_within | with_reducible apply complete_within | with_reducible apply done_within | with_reducible apply endCauses_within | with_reducible exact Within.refl | intro _ | split | dsimp only)

theorem execClearKill_within {m : Nat} {s t u : State} (h : Within m s t) (a0 : CmdSrc) (a1 : BitVec 5) (hm : 0x20000034000808 ||| m = m) (e : execClearKill a0 a1 t = .next u) : Within m s u := by
  unfold execClearKill at e
  try dsimp only at e
  repeat' split at e
  all_goals (cases e; repeat' (first | with_reducible assumption | ((with_reducible refine Mask.sub hm ?_); first | exact rfl | (simp only [pageBit_ser]; exact rfl)) | with_reducible apply setReg_within | with_reducible apply issue_within | with_reducible apply runClearKill_within | with_reducible exact Within.refl | intro _ | split | dsimp only))

theorem runKillTest_within {m : Nat} {s t : State} (h : Within m s t) (a0 : Outstanding) (hm : 0x20000034000808 ||| m = m) : Within m s (runKillTest a0 t) := by
  unfold runKillTest
  repeat' (first | with_reducible assumption | ((with_reducible refine Mask.sub hm ?_); first | exact rfl | (simp only [pageBit_ser]; exact rfl)) | with_reducible apply setReg_within | with_reducible apply done_within | with_reducible apply complete_within | with_reducible apply endCause_within | with_reducible exact Within.refl | intro _ | split | dsimp only)

theorem execKillTest_within {m : Nat} {s t u : State} (h : Within m s t) (a0 : CmdSrc) (hm : 0x20000034000808 ||| m = m) (e : execKillTest a0 t = .next u) : Within m s u := by
  unfold execKillTest at e
  try dsimp only at e
  repeat' split at e
  all_goals (cases e; repeat' (first | with_reducible assumption | ((with_reducible refine Mask.sub hm ?_); first | exact rfl | (simp only [pageBit_ser]; exact rfl)) | with_reducible apply setReg_within | with_reducible apply issue_within | with_reducible apply runKillTest_within | with_reducible exact Within.refl | intro _ | split | dsimp only))

theorem finishKillTest_within {m : Nat} {s t : State} (h : Within m s t) (a0 : Option Nat) (hm : 0x2003a035800808 ||| m = m) : Within m s (finishKillTest a0 t) := by
  unfold finishKillTest
  repeat' (first | with_reducible assumption | ((with_reducible refine Mask.sub hm ?_); first | exact rfl | (simp only [pageBit_ser]; exact rfl)) | with_reducible apply setReg_within | with_reducible apply endCause_within | with_reducible apply kill_within | with_reducible apply complete_within | with_reducible apply Within.foldl | with_reducible exact Within.refl | intro _ | split | dsimp only)

theorem abortKillTest_within {m : Nat} {s t : State} (h : Within m s t) (hm : 0x2003a035800808 ||| m = m) : Within m s (abortKillTest t) := by
  unfold abortKillTest
  repeat' (first | with_reducible assumption | ((with_reducible refine Mask.sub hm ?_); first | exact rfl | (simp only [pageBit_ser]; exact rfl)) | with_reducible apply setReg_within | with_reducible apply done_within | with_reducible apply kill_within | with_reducible exact Within.refl | intro _ | split | dsimp only)

end Sys2Proof.Machine
end

