-- ==== Sys2Proof/Laws/WithinSer.lean ====
section
/-! SUPPORT. Sys2Proof/Laws/WithinSer.lean: the parts of a state that the operations of Machine/Ser.lean may change. -/
namespace Sys2Proof.Machine

theorem setSerial_within {m : Nat} {s t : State} (h : Within m s t) (a0 : Nat) (a1 : SerSt) (hm : 0x4000000000000 ||| m = m) : Within m s (setSerial a0 a1 t) := by
  have b50 := Mask.has (i := 50) hm rfl
  unfold setSerial
  repeat' (first | with_reducible assumption | ((with_reducible refine Mask.sub hm ?_); first | exact rfl | (simp only [pageBit_ser]; exact rfl)) | with_reducible apply setReg_within | with_reducible exact Within.refl | ((with_reducible refine Within.upd ?_ (.inl rfl) (.inl rfl) (.inl rfl) (.inl rfl) (.inl rfl) (.inl rfl) (.inl rfl) (.inl rfl) (.inl rfl) (.inl rfl) (.inl rfl) (.inl rfl) (.inl rfl) (.inl rfl) (.inl rfl) (.inl rfl) (.inl rfl) (.inl rfl) (.inl rfl) (.inl rfl) (.inl rfl) (.inl rfl) (.inl rfl) (.inl rfl) (.inl rfl) (.inl rfl) (.inr b50) (.inl rfl) (.inl rfl) (.inl rfl)); first | with_reducible assumption | ((with_reducible refine Mask.sub hm ?_); first | exact rfl | (simp only [pageBit_ser]; exact rfl)) | with_reducible apply setReg_within | with_reducible exact Within.refl | split) | intro _ | split | dsimp only)

theorem settleOwner_within {m : Nat} {s t : State} (h : Within m s t) (hm : 0x80 ||| m = m) : Within m s (settleOwner t) := by
  unfold settleOwner
  repeat' (first | with_reducible assumption | ((with_reducible refine Mask.sub hm ?_); first | exact rfl | (simp only [pageBit_ser]; exact rfl)) | with_reducible apply setReg_within | with_reducible apply setB_within | with_reducible exact Within.refl | intro _ | split | dsimp only)

theorem deactivateCard_within {m : Nat} {s t : State} (h : Within m s t) (a0 : Serial) (hm : 0x24000000000080 ||| m = m) : Within m s (deactivateCard a0 t) := by
  unfold deactivateCard
  repeat' (first | with_reducible assumption | ((with_reducible refine Mask.sub hm ?_); first | exact rfl | (simp only [pageBit_ser]; exact rfl)) | with_reducible apply setReg_within | with_reducible apply setB_within | with_reducible apply emit_within | with_reducible apply setSerial_within | with_reducible exact Within.refl | intro _ | split | dsimp only)

theorem cardError_within {m : Nat} {s t : State} (h : Within m s t) (a0 : Serial) (hm : 0x24000034000890 ||| m = m) : Within m s (cardError a0 t) := by
  unfold cardError
  repeat' (first | with_reducible assumption | ((with_reducible refine Mask.sub hm ?_); first | exact rfl | (simp only [pageBit_ser]; exact rfl)) | with_reducible apply setReg_within | with_reducible apply done_within | with_reducible apply deactivateCard_within | with_reducible exact Within.refl | intro _ | split | dsimp only)

theorem startCard_within {m : Nat} {s t : State} (h : Within m s t) (a0 : Serial) (hm : 0x24000000000080 ||| m = m) : Within m s (startCard a0 t) := by
  unfold startCard
  repeat' (first | with_reducible assumption | ((with_reducible refine Mask.sub hm ?_); first | exact rfl | (simp only [pageBit_ser]; exact rfl)) | with_reducible apply setReg_within | with_reducible apply setB_within | with_reducible apply emit_within | with_reducible apply setSerial_within | with_reducible exact Within.refl | intro _ | split | dsimp only)

theorem cardCharError_within {m : Nat} {s t : State} (h : Within m s t) (a0 : Serial) (hm : 0x24000034000890 ||| m = m) : Within m s (cardCharError a0 t) := by
  unfold cardCharError
  repeat' (first | with_reducible assumption | ((with_reducible refine Mask.sub hm ?_); first | exact rfl | (simp only [pageBit_ser]; exact rfl)) | with_reducible apply setReg_within | with_reducible apply setSerial_within | with_reducible apply cardError_within | with_reducible exact Within.refl | intro _ | split | dsimp only)

theorem cardCharGood_within {m : Nat} {s t : State} (h : Within m s t) (a0 : Serial) (hm : 0x4000000000000 ||| m = m) : Within m s (cardCharGood a0 t) := by
  unfold cardCharGood
  repeat' (first | with_reducible assumption | ((with_reducible refine Mask.sub hm ?_); first | exact rfl | (simp only [pageBit_ser]; exact rfl)) | with_reducible apply setReg_within | with_reducible apply setSerial_within | with_reducible exact Within.refl | intro _ | split | dsimp only)

theorem sendCard_within {m : Nat} {s t : State} (h : Within m s t) (a0 : Serial) (a1 : CardPhase) (a2 : Nat) (a3 : List Byte) (hm : 0x24000000000000 ||| m = m) : Within m s (sendCard a0 a1 a2 a3 t) := by
  unfold sendCard
  repeat' (first | with_reducible assumption | ((with_reducible refine Mask.sub hm ?_); first | exact rfl | (simp only [pageBit_ser]; exact rfl)) | with_reducible apply setReg_within | with_reducible apply emit_within | with_reducible apply setSerial_within | with_reducible exact Within.refl | intro _ | split | dsimp only)

theorem cardAtr_within {m : Nat} {s t : State} (h : Within m s t) (a0 : Serial) (a1 : Option Byte) (hm : 0x24000034000890 ||| m = m) : Within m s (cardAtr a0 a1 t) := by
  unfold cardAtr
  repeat' (first | with_reducible assumption | ((with_reducible refine Mask.sub hm ?_); first | exact rfl | (simp only [pageBit_ser]; exact rfl)) | with_reducible apply setReg_within | with_reducible apply sendCard_within | with_reducible apply cardError_within | with_reducible exact Within.refl | intro _ | split | dsimp only)

theorem execCardAtr_within {m : Nat} {s t u : State} (h : Within m s t) (a0 : Serial) (a1 : Option Byte) (hm : 0x24000034000890 ||| m = m) (e : execCardAtr a0 a1 t = .next u) : Within m s u := by
  unfold execCardAtr at e
  try dsimp only at e
  repeat' split at e
  all_goals (cases e; repeat' (first | with_reducible assumption | ((with_reducible refine Mask.sub hm ?_); first | exact rfl | (simp only [pageBit_ser]; exact rfl)) | with_reducible apply setReg_within | with_reducible apply cardAtr_within | with_reducible exact Within.refl | intro _ | split | dsimp only))

theorem execCardWwtExpiry_within {m : Nat} {s t u : State} (h : Within m s t) (a0 : Serial) (hm : 0x24000034000890 ||| m = m) (e : execCardWwtExpiry a0 t = .next u) : Within m s u := by
  unfold execCardWwtExpiry at e
  try dsimp only at e
  repeat' split at e
  all_goals (cases e; repeat' (first | with_reducible assumption | ((with_reducible refine Mask.sub hm ?_); first | exact rfl | (simp only [pageBit_ser]; exact rfl)) | with_reducible apply setReg_within | with_reducible apply cardError_within | with_reducible exact Within.refl | intro _ | split | dsimp only))

theorem execSignTimeout_within {m : Nat} {s t u : State} (h : Within m s t) (a0 : Serial) (hm : 0x24000034000890 ||| m = m) (e : execSignTimeout a0 t = .next u) : Within m s u := by
  unfold execSignTimeout at e
  try dsimp only at e
  repeat' split at e
  all_goals (cases e; repeat' (first | with_reducible assumption | ((with_reducible refine Mask.sub hm ?_); first | exact rfl | (simp only [pageBit_ser]; exact rfl)) | with_reducible apply setReg_within | with_reducible apply cardError_within | with_reducible exact Within.refl | intro _ | split | dsimp only))

theorem execCardPresenceChange_within {m : Nat} {s t u : State} (h : Within m s t) (a0 : Serial) (a1 : Bool) (hm : 0x24000034000890 ||| m = m) (e : execCardPresenceChange a0 a1 t = .next u) : Within m s u := by
  unfold execCardPresenceChange at e
  try dsimp only at e
  repeat' split at e
  all_goals (cases e; repeat' (first | with_reducible assumption | ((with_reducible refine Mask.sub hm ?_); first | exact rfl | (simp only [pageBit_ser]; exact rfl)) | with_reducible apply setReg_within | with_reducible apply raise_within | with_reducible apply setB_within | with_reducible apply cardError_within | with_reducible exact Within.refl | intro _ | split | dsimp only))

theorem storeChar_within {m : Nat} {s t : State} (h : Within m s t) (a0 : Serial) (a1 : RxTags) (a2 : Byte) (hm : 0x20000020000080 ||| m = m) : Within m s (storeChar a0 a1 a2 t) := by
  unfold storeChar
  repeat' (first | with_reducible assumption | ((with_reducible refine Mask.sub hm ?_); first | exact rfl | (simp only [pageBit_ser]; exact rfl)) | with_reducible apply setReg_within | with_reducible apply raise_within | with_reducible apply count_within | with_reducible apply setB_within | with_reducible exact Within.refl | intro _ | split | dsimp only)

theorem setFrameRx_within {m : Nat} {s t : State} (h : Within m s t) (a0 : Serial) (a1 : Option FrameRx) (hm : 0x4000000000000 ||| m = m) : Within m s (setFrameRx a0 a1 t) := by
  unfold setFrameRx
  repeat' (first | with_reducible assumption | ((with_reducible refine Mask.sub hm ?_); first | exact rfl | (simp only [pageBit_ser]; exact rfl)) | with_reducible apply setReg_within | with_reducible apply setSerial_within | with_reducible exact Within.refl | intro _ | split | dsimp only)

theorem storeHeld_within {m : Nat} {s t : State} (h : Within m s t) (a0 : Serial) (a1 : FrameRx) (a2 : Bool) (hm : 0x20000020000080 ||| m = m) : Within m s (storeHeld a0 a1 a2 t) := by
  unfold storeHeld
  repeat' (first | with_reducible assumption | ((with_reducible refine Mask.sub hm ?_); first | exact rfl | (simp only [pageBit_ser]; exact rfl)) | with_reducible apply setReg_within | with_reducible apply storeChar_within | with_reducible exact Within.refl | intro _ | split | dsimp only)

theorem framedChar_within {m : Nat} {s t : State} (h : Within m s t) (a0 : Serial) (a1 : Byte) (a2 : Bool) (a3 : Bool) (hm : 0x24000020000080 ||| m = m) : Within m s (framedChar a0 a1 a2 a3 t) := by
  unfold framedChar
  repeat' (first | with_reducible assumption | ((with_reducible refine Mask.sub hm ?_); first | exact rfl | (simp only [pageBit_ser]; exact rfl)) | with_reducible apply setReg_within | with_reducible apply setFrameRx_within | with_reducible apply storeHeld_within | with_reducible exact Within.refl | intro _ | split | dsimp only)

theorem receiveChar_within {m : Nat} {s t : State} (h : Within m s t) (a0 : Serial) (a1 : SerChar) (hm : 0x24000034000890 ||| m = m) : Within m s (receiveChar a0 a1 t) := by
  unfold receiveChar
  repeat' (first | with_reducible assumption | ((with_reducible refine Mask.sub hm ?_); first | exact rfl | (simp only [pageBit_ser]; exact rfl)) | with_reducible apply setReg_within | with_reducible apply cardCharError_within | with_reducible apply storeChar_within | with_reducible apply cardCharGood_within | with_reducible apply setB_within | with_reducible apply framedChar_within | with_reducible exact Within.refl | intro _ | split | dsimp only)

theorem execSerCharacterReceived_within {m : Nat} {s t u : State} (h : Within m s t) (a0 : Serial) (a1 : SerChar) (hm : 0x24000034000890 ||| m = m) (e : execSerCharacterReceived a0 a1 t = .next u) : Within m s u := by
  unfold execSerCharacterReceived at e
  try dsimp only at e
  repeat' split at e
  all_goals (cases e; repeat' (first | with_reducible assumption | ((with_reducible refine Mask.sub hm ?_); first | exact rfl | (simp only [pageBit_ser]; exact rfl)) | with_reducible apply setReg_within | with_reducible apply receiveChar_within | with_reducible exact Within.refl | intro _ | split | dsimp only))

theorem execSerRxRead_within {m : Nat} {s t u : State} (h : Within m s t) (a0 : Serial) (a1 : Bool) (hm : 0x20000000000080 ||| m = m) (e : execSerRxRead a0 a1 t = .next u) : Within m s u := by
  unfold execSerRxRead at e
  try dsimp only at e
  repeat' split at e
  all_goals (cases e; repeat' (first | with_reducible assumption | ((with_reducible refine Mask.sub hm ?_); first | exact rfl | (simp only [pageBit_ser]; exact rfl)) | with_reducible apply setReg_within | with_reducible apply setB_within | with_reducible apply returnWord_within | with_reducible exact Within.refl | intro _ | split | dsimp only))

theorem startBreak_within {m : Nat} {s t : State} (h : Within m s t) (a0 : Serial) (hm : 0x24000004000000 ||| m = m) : Within m s (startBreak a0 t) := by
  unfold startBreak
  repeat' (first | with_reducible assumption | ((with_reducible refine Mask.sub hm ?_); first | exact rfl | (simp only [pageBit_ser]; exact rfl)) | with_reducible apply setReg_within | with_reducible apply emit_within | with_reducible apply setPhase_within | with_reducible apply setSerial_within | with_reducible exact Within.refl | intro _ | split | dsimp only)

theorem execSerTxWrite_within {m : Nat} {s t u : State} (h : Within m s t) (a0 : Serial) (a1 : Word) (a2 : Bool) (hm : 0x24000020000080 ||| m = m) (e : execSerTxWrite a0 a1 a2 t = .next u) : Within m s u := by
  unfold execSerTxWrite at e
  try dsimp only at e
  repeat' split at e
  all_goals (cases e; repeat' (first | with_reducible assumption | ((with_reducible refine Mask.sub hm ?_); first | exact rfl | (simp only [pageBit_ser]; exact rfl)) | with_reducible apply setReg_within | with_reducible apply countErr_within | with_reducible apply setB_within | with_reducible apply setSerial_within | with_reducible exact Within.refl | intro _ | split | dsimp only))

theorem sendChar_within {m : Nat} {s t : State} (h : Within m s t) (a0 : Serial) (a1 : Byte) (hm : 0x24000000000080 ||| m = m) : Within m s (sendChar a0 a1 t) := by
  unfold sendChar
  repeat' (first | with_reducible assumption | ((with_reducible refine Mask.sub hm ?_); first | exact rfl | (simp only [pageBit_ser]; exact rfl)) | with_reducible apply setReg_within | with_reducible apply emit_within | with_reducible apply setB_within | with_reducible apply setSerial_within | with_reducible exact Within.refl | intro _ | split | dsimp only)

theorem shiftLoad_within {m : Nat} {s t : State} (h : Within m s t) (a0 : Serial) (a1 : Bool) (hm : 0x24000034000890 ||| m = m) : Within m s (shiftLoad a0 a1 t) := by
  unfold shiftLoad
  repeat' (first | with_reducible assumption | ((with_reducible refine Mask.sub hm ?_); first | exact rfl | (simp only [pageBit_ser]; exact rfl)) | with_reducible apply setReg_within | with_reducible apply cardCharError_within | with_reducible apply sendChar_within | with_reducible apply setB_within | with_reducible apply setSerial_within | with_reducible apply startBreak_within | with_reducible apply raise_within | with_reducible exact Within.refl | intro _ | split | dsimp only)

theorem execSerTxShiftLoad_within {m : Nat} {s t u : State} (h : Within m s t) (a0 : Serial) (a1 : Bool) (hm : 0x24000034000890 ||| m = m) (e : execSerTxShiftLoad a0 a1 t = .next u) : Within m s u := by
  unfold execSerTxShiftLoad at e
  try dsimp only at e
  repeat' split at e
  all_goals (cases e; repeat' (first | with_reducible assumption | ((with_reducible refine Mask.sub hm ?_); first | exact rfl | (simp only [pageBit_ser]; exact rfl)) | with_reducible apply setReg_within | with_reducible apply shiftLoad_within | with_reducible exact Within.refl | intro _ | split | dsimp only))

theorem execSerDivWrite_within {m : Nat} {s t u : State} (h : Within m s t) (a0 : Serial) (a1 : Bool) (a2 : Word) (hm : 0x24000020000080 ||| m = m) (e : execSerDivWrite a0 a1 a2 t = .next u) : Within m s u := by
  unfold execSerDivWrite at e
  try dsimp only at e
  repeat' split at e
  all_goals (cases e; repeat' (first | with_reducible assumption | ((with_reducible refine Mask.sub hm ?_); first | exact rfl | (simp only [pageBit_ser]; exact rfl)) | with_reducible apply setReg_within | with_reducible apply countErr_within | with_reducible apply writeRw_within | with_reducible apply setSerial_within | with_reducible exact Within.refl | intro _ | split | dsimp only))

theorem runSendBreak_within {m : Nat} {s t : State} (h : Within m s t) (a0 : Serial) (a1 : Outstanding) (hm : 0x24000034000880 ||| m = m) : Within m s (runSendBreak a0 a1 t) := by
  unfold runSendBreak
  repeat' (first | with_reducible assumption | ((with_reducible refine Mask.sub hm ?_); first | exact rfl | (simp only [pageBit_ser]; exact rfl)) | with_reducible apply setReg_within | with_reducible apply done_within | with_reducible apply startBreak_within | with_reducible exact Within.refl | intro _ | split | dsimp only)

theorem execSendBreak_within {m : Nat} {s t u : State} (h : Within m s t) (a0 : Serial) (a1 : CmdSrc) (hm : 0x24000034000880 ||| m = m) (e : execSendBreak a0 a1 t = .next u) : Within m s u := by
  unfold execSendBreak at e
  try dsimp only at e
  repeat' split at e
  all_goals (cases e; repeat' (first | with_reducible assumption | ((with_reducible refine Mask.sub hm ?_); first | exact rfl | (simp only [pageBit_ser]; exact rfl)) | with_reducible apply setReg_within | with_reducible apply issue_within | with_reducible apply runSendBreak_within | with_reducible exact Within.refl | intro _ | split | dsimp only))

theorem endBreak_within {m : Nat} {s t : State} (h : Within m s t) (a0 : Serial) (a1 : Nat) (hm : 0x24000034000880 ||| m = m) : Within m s (endBreak a0 a1 t) := by
  unfold endBreak
  repeat' (first | with_reducible assumption | ((with_reducible refine Mask.sub hm ?_); first | exact rfl | (simp only [pageBit_ser]; exact rfl)) | with_reducible apply setReg_within | with_reducible apply emit_within | with_reducible apply setSerial_within | with_reducible apply done_within | with_reducible exact Within.refl | intro _ | split | dsimp only)

theorem execBreakStart_within {m : Nat} {s t u : State} (h : Within m s t) (a0 : Serial) (hm : 0x20000020000080 ||| m = m) (e : execBreakStart a0 t = .next u) : Within m s u := by
  unfold execBreakStart at e
  try dsimp only at e
  repeat' split at e
  all_goals (cases e; repeat' (first | with_reducible assumption | ((with_reducible refine Mask.sub hm ?_); first | exact rfl | (simp only [pageBit_ser]; exact rfl)) | with_reducible apply setReg_within | with_reducible apply raise_within | with_reducible apply setB_within | with_reducible exact Within.refl | intro _ | split | dsimp only))

theorem endedBreak_within {m : Nat} {s t : State} (h : Within m s t) (a0 : Serial) (a1 : Nat) (hm : 0x20000020000080 ||| m = m) : Within m s (endedBreak a0 a1 t) := by
  unfold endedBreak
  repeat' (first | with_reducible assumption | ((with_reducible refine Mask.sub hm ?_); first | exact rfl | (simp only [pageBit_ser]; exact rfl)) | with_reducible apply setReg_within | with_reducible apply setF_within | with_reducible apply setB_within | with_reducible apply raise_within | with_reducible apply count_within | with_reducible apply storeChar_within | with_reducible exact Within.refl | intro _ | split | dsimp only)

theorem execLineStuck_within {m : Nat} {s t u : State} (h : Within m s t) (a0 : Serial) (hm : 0x200000280000a0 ||| m = m) (e : execLineStuck a0 t = .next u) : Within m s u := by
  unfold execLineStuck at e
  try dsimp only at e
  repeat' split at e
  all_goals (cases e; repeat' (first | with_reducible assumption | ((with_reducible refine Mask.sub hm ?_); first | exact rfl | (simp only [pageBit_ser]; exact rfl)) | with_reducible apply setReg_within | with_reducible apply setF_within | with_reducible apply setB_within | with_reducible apply logPage_within | with_reducible apply raise_within | with_reducible exact Within.refl | intro _ | split | dsimp only))

theorem execLineFree_within {m : Nat} {s t u : State} (h : Within m s t) (a0 : Serial) (hm : 0x20000020000080 ||| m = m) (e : execLineFree a0 t = .next u) : Within m s u := by
  unfold execLineFree at e
  try dsimp only at e
  repeat' split at e
  all_goals (cases e; repeat' (first | with_reducible assumption | ((with_reducible refine Mask.sub hm ?_); first | exact rfl | (simp only [pageBit_ser]; exact rfl)) | with_reducible apply setReg_within | with_reducible apply raise_within | with_reducible apply setB_within | with_reducible exact Within.refl | intro _ | split | dsimp only))

theorem emptySerial_within {m : Nat} {s t : State} (h : Within m s t) (a0 : Serial) (hm : 0x24000000000080 ||| m = m) : Within m s (emptySerial a0 t) := by
  unfold emptySerial
  repeat' (first | with_reducible assumption | ((with_reducible refine Mask.sub hm ?_); first | exact rfl | (simp only [pageBit_ser]; exact rfl)) | with_reducible apply setReg_within | with_reducible apply emit_within | with_reducible apply setB_within | with_reducible apply setSerial_within | with_reducible exact Within.refl | intro _ | split | dsimp only)

theorem execSerBlkReset_within {m : Nat} {s t u : State} (h : Within m s t) (a0 : Serial) (hm : 0x24000034000890 ||| m = m) (e : execSerBlkReset a0 t = .next u) : Within m s u := by
  unfold execSerBlkReset at e
  try dsimp only at e
  repeat' split at e
  all_goals (cases e; repeat' (first | with_reducible assumption | ((with_reducible refine Mask.sub hm ?_); first | exact rfl | (simp only [pageBit_ser]; exact rfl)) | with_reducible apply setReg_within | with_reducible apply blkReset_within | with_reducible apply cardError_within | with_reducible apply emptySerial_within | with_reducible exact Within.refl | intro _ | split | dsimp only))

end Sys2Proof.Machine
end

