-- ==== Sys2Proof/Laws/WithinReset.lean ====
section
/-! SUPPORT. Sys2Proof/Laws/WithinReset.lean: the parts of a state that the operations of Machine/Reset.lean may change. -/
namespace Sys2Proof.Machine

theorem keepBits_within {m : Nat} {s t : State} (h : Within m s t) (a0 : List (Page × Field)) (a1 : State) (hm : 0x3ffffff ||| m = m) : Within m s (keepBits a0 a1 t) := by
  unfold keepBits
  repeat' (first | with_reducible assumption | ((with_reducible refine Mask.sub hm ?_); first | exact rfl | (simp only [pageBit_ser]; exact rfl)) | ((with_reducible refine Mask.any (Mask.sub hm ?_) _); exact rfl) | with_reducible apply setReg_within | with_reducible apply setB_within | with_reducible apply Within.foldl | with_reducible exact Within.refl | intro _ | split | dsimp only)

theorem lost_within {m : Nat} {s t : State} (h : Within m s t) (power wake : Bool) (hm : 0x7ffffffffffff ||| m = m) : Within m s (lost power wake t) := by
  refine h.trans ⟨rfl, fun c hc => ?_⟩
  cases c
  case regs k => cases k <;> exact (Mask.no hm rfl hc).elim
  case draws => exact rfl
  case frees => exact rfl
  case emits => exact rfl
  all_goals exact (Mask.no hm rfl hc).elim

theorem lose_within {m : Nat} {s t : State} (h : Within m s t) (a0 : Bool) (a1 : Bool) (hm : 0x7ffffffffffff ||| m = m) : Within m s (lose a0 a1 t) := by
  unfold lose
  repeat' (first | with_reducible assumption | ((with_reducible refine Mask.sub hm ?_); first | exact rfl | (simp only [pageBit_ser]; exact rfl)) | ((with_reducible refine Mask.any (Mask.sub hm ?_) _); exact rfl) | with_reducible apply setReg_within | with_reducible apply keepBits_within | with_reducible apply lost_within | with_reducible apply setB_within | with_reducible apply setF_within | with_reducible apply Within.foldl | with_reducible exact Within.refl | intro _ | split | dsimp only)

theorem resetCommands_within {m : Nat} {s t : State} (h : Within m s t) (hm : 0x20000037ffffff ||| m = m) : Within m s (resetCommands t) := by
  unfold resetCommands
  repeat' (first | with_reducible assumption | ((with_reducible refine Mask.sub hm ?_); first | exact rfl | (simp only [pageBit_ser]; exact rfl)) | ((with_reducible refine Mask.any (Mask.sub hm ?_) _); exact rfl) | with_reducible apply setReg_within | with_reducible apply complete_within | with_reducible apply loadReset_within | with_reducible apply Within.foldl | with_reducible exact Within.refl | intro _ | split | dsimp only)

theorem resetKill_within {m : Nat} {s t : State} (h : Within m s t) (a0 : Bool) (hm : 0x8 ||| m = m) : Within m s (resetKill a0 t) := by
  unfold resetKill
  repeat' (first | with_reducible assumption | ((with_reducible refine Mask.sub hm ?_); first | exact rfl | (simp only [pageBit_ser]; exact rfl)) | with_reducible apply setReg_within | with_reducible apply setB_within | with_reducible apply setF_within | with_reducible exact Within.refl | intro _ | split | dsimp only)

theorem restart_within {m : Nat} {s t : State} (h : Within m s t) (a0 : Nat) (hm : 0x27ffffffffffff ||| m = m) : Within m s (restart a0 t) := by
  unfold restart
  repeat' (first | with_reducible assumption | ((with_reducible refine Mask.sub hm ?_); first | exact rfl | (simp only [pageBit_ser]; exact rfl)) | ((with_reducible refine Mask.any (Mask.sub hm ?_) _); exact rfl) | with_reducible apply setReg_within | with_reducible apply lose_within | with_reducible apply resetCommands_within | with_reducible apply setF_within | with_reducible apply raise_within | with_reducible apply resetKill_within | with_reducible exact Within.refl | intro _ | split | dsimp only)

theorem toRecovery_within {m : Nat} {s t : State} (h : Within m s t) (hm : 0x100000000 ||| m = m) : Within m s (toRecovery t) := by
  have b32 := Mask.has (i := 32) hm rfl
  unfold toRecovery
  repeat' (first | with_reducible assumption | ((with_reducible refine Mask.sub hm ?_); first | exact rfl | (simp only [pageBit_ser]; exact rfl)) | with_reducible apply setReg_within | with_reducible exact Within.refl | ((with_reducible refine Within.upd ?_ (.inl rfl) (.inl rfl) (.inl rfl) (.inl rfl) (.inl rfl) (.inl rfl) (.inl rfl) (.inl rfl) (.inr b32) (.inl rfl) (.inl rfl) (.inl rfl) (.inl rfl) (.inl rfl) (.inl rfl) (.inl rfl) (.inl rfl) (.inl rfl) (.inl rfl) (.inl rfl) (.inl rfl) (.inl rfl) (.inl rfl) (.inl rfl) (.inl rfl) (.inl rfl) (.inl rfl) (.inl rfl) (.inl rfl) (.inl rfl)); first | with_reducible assumption | ((with_reducible refine Mask.sub hm ?_); first | exact rfl | (simp only [pageBit_ser]; exact rfl)) | with_reducible apply setReg_within | with_reducible exact Within.refl | split) | intro _ | split | dsimp only)

theorem revertSlot_within {m : Nat} {s t : State} (h : Within m s t) (a0 : Nat) (hm : 0x20000028000024 ||| m = m) : Within m s (revertSlot a0 t) := by
  unfold revertSlot
  repeat' (first | with_reducible assumption | ((with_reducible refine Mask.sub hm ?_); first | exact rfl | (simp only [pageBit_ser]; exact rfl)) | with_reducible apply setReg_within | with_reducible apply logPage_within | with_reducible apply setF_within | with_reducible apply setSlotState_within | with_reducible exact Within.refl | intro _ | split | dsimp only)

theorem revertTrial_within {m : Nat} {s t : State} (h : Within m s t) (hm : 0x27ffffffffffff ||| m = m) : Within m s (revertTrial t) := by
  have b32 := Mask.has (i := 32) hm rfl
  unfold revertTrial
  repeat' (first | with_reducible assumption | ((with_reducible refine Mask.sub hm ?_); first | exact rfl | (simp only [pageBit_ser]; exact rfl)) | ((with_reducible refine Mask.any (Mask.sub hm ?_) _); exact rfl) | with_reducible apply setReg_within | with_reducible apply revertSlot_within | with_reducible apply restart_within | with_reducible apply Within.foldl | with_reducible exact Within.refl | ((with_reducible refine Within.upd ?_ (.inl rfl) (.inl rfl) (.inl rfl) (.inl rfl) (.inl rfl) (.inl rfl) (.inl rfl) (.inl rfl) (.inr b32) (.inl rfl) (.inl rfl) (.inl rfl) (.inl rfl) (.inl rfl) (.inl rfl) (.inl rfl) (.inl rfl) (.inl rfl) (.inl rfl) (.inl rfl) (.inl rfl) (.inl rfl) (.inl rfl) (.inl rfl) (.inl rfl) (.inl rfl) (.inl rfl) (.inl rfl) (.inl rfl) (.inl rfl)); first | with_reducible assumption | ((with_reducible refine Mask.sub hm ?_); first | exact rfl | (simp only [pageBit_ser]; exact rfl)) | ((with_reducible refine Mask.any (Mask.sub hm ?_) _); exact rfl) | with_reducible apply setReg_within | with_reducible apply revertSlot_within | with_reducible apply restart_within | with_reducible apply Within.foldl | with_reducible exact Within.refl | split) | intro _ | split | dsimp only)

theorem execTrialExpiry_within {m : Nat} {s t u : State} (h : Within m s t) (hm : 0x27ffffffffffff ||| m = m) (e : execTrialExpiry t = .next u) : Within m s u := by
  unfold execTrialExpiry at e
  try dsimp only at e
  repeat' split at e
  all_goals (cases e; repeat' (first | with_reducible assumption | ((with_reducible refine Mask.sub hm ?_); first | exact rfl | (simp only [pageBit_ser]; exact rfl)) | ((with_reducible refine Mask.any (Mask.sub hm ?_) _); exact rfl) | with_reducible apply setReg_within | with_reducible apply revertTrial_within | with_reducible exact Within.refl | intro _ | split | dsimp only))

theorem faultReset_within {m : Nat} {s t : State} (h : Within m s t) (a0 : Nat) (hm : 0x27ffffffffffff ||| m = m) : Within m s (faultReset a0 t) := by
  have b32 := Mask.has (i := 32) hm rfl
  unfold faultReset
  repeat' (first | with_reducible assumption | ((with_reducible refine Mask.sub hm ?_); first | exact rfl | (simp only [pageBit_ser]; exact rfl)) | ((with_reducible refine Mask.any (Mask.sub hm ?_) _); exact rfl) | with_reducible apply setReg_within | with_reducible apply revertTrial_within | with_reducible apply restart_within | with_reducible apply toRecovery_within | with_reducible exact Within.refl | ((with_reducible refine Within.upd ?_ (.inl rfl) (.inl rfl) (.inl rfl) (.inl rfl) (.inl rfl) (.inl rfl) (.inl rfl) (.inl rfl) (.inr b32) (.inl rfl) (.inl rfl) (.inl rfl) (.inl rfl) (.inl rfl) (.inl rfl) (.inl rfl) (.inl rfl) (.inl rfl) (.inl rfl) (.inl rfl) (.inl rfl) (.inl rfl) (.inl rfl) (.inl rfl) (.inl rfl) (.inl rfl) (.inl rfl) (.inl rfl) (.inl rfl) (.inl rfl)); first | with_reducible assumption | ((with_reducible refine Mask.sub hm ?_); first | exact rfl | (simp only [pageBit_ser]; exact rfl)) | ((with_reducible refine Mask.any (Mask.sub hm ?_) _); exact rfl) | with_reducible apply setReg_within | with_reducible apply revertTrial_within | with_reducible apply restart_within | with_reducible apply toRecovery_within | with_reducible exact Within.refl | split) | intro _ | split | dsimp only)

theorem execWatchdogExpiry_within {m : Nat} {s t u : State} (h : Within m s t) (hm : 0x27ffffffffffff ||| m = m) (e : execWatchdogExpiry t = .next u) : Within m s u := by
  unfold execWatchdogExpiry at e
  try dsimp only at e
  repeat' split at e
  all_goals (cases e; repeat' (first | with_reducible assumption | ((with_reducible refine Mask.sub hm ?_); first | exact rfl | (simp only [pageBit_ser]; exact rfl)) | ((with_reducible refine Mask.any (Mask.sub hm ?_) _); exact rfl) | with_reducible apply setReg_within | with_reducible apply faultReset_within | with_reducible exact Within.refl | intro _ | split | dsimp only))

theorem execLockstepDisagree_within {m : Nat} {s t u : State} (h : Within m s t) (hm : 0x27ffffffffffff ||| m = m) (e : execLockstepDisagree t = .next u) : Within m s u := by
  unfold execLockstepDisagree at e
  try dsimp only at e
  repeat' split at e
  all_goals (cases e; repeat' (first | with_reducible assumption | ((with_reducible refine Mask.sub hm ?_); first | exact rfl | (simp only [pageBit_ser]; exact rfl)) | ((with_reducible refine Mask.any (Mask.sub hm ?_) _); exact rfl) | with_reducible apply setReg_within | with_reducible apply faultReset_within | with_reducible exact Within.refl | intro _ | split | dsimp only))

theorem execRecoveryCountClear_within {m : Nat} {s t u : State} (h : Within m s t) (hm : 0x100000000 ||| m = m) (e : execRecoveryCountClear t = .next u) : Within m s u := by
  have b32 := Mask.has (i := 32) hm rfl
  unfold execRecoveryCountClear at e
  try dsimp only at e
  repeat' split at e
  all_goals (cases e; repeat' (first | with_reducible assumption | ((with_reducible refine Mask.sub hm ?_); first | exact rfl | (simp only [pageBit_ser]; exact rfl)) | with_reducible apply setReg_within | with_reducible exact Within.refl | ((with_reducible refine Within.upd ?_ (.inl rfl) (.inl rfl) (.inl rfl) (.inl rfl) (.inl rfl) (.inl rfl) (.inl rfl) (.inl rfl) (.inr b32) (.inl rfl) (.inl rfl) (.inl rfl) (.inl rfl) (.inl rfl) (.inl rfl) (.inl rfl) (.inl rfl) (.inl rfl) (.inl rfl) (.inl rfl) (.inl rfl) (.inl rfl) (.inl rfl) (.inl rfl) (.inl rfl) (.inl rfl) (.inl rfl) (.inl rfl) (.inl rfl) (.inl rfl)); first | with_reducible assumption | ((with_reducible refine Mask.sub hm ?_); first | exact rfl | (simp only [pageBit_ser]; exact rfl)) | with_reducible apply setReg_within | with_reducible exact Within.refl | split) | intro _ | split | dsimp only))

theorem execPerstAssert_within {m : Nat} {s t u : State} (h : Within m s t) (hm : 0x2800b4000800 ||| m = m) (e : execPerstAssert t = .next u) : Within m s u := by
  have b29 := Mask.has (i := 29) hm rfl
  have b31 := Mask.has (i := 31) hm rfl
  unfold execPerstAssert at e
  try dsimp only at e
  repeat' split at e
  all_goals (cases e; repeat' (first | with_reducible assumption | ((with_reducible refine Mask.sub hm ?_); first | exact rfl | (simp only [pageBit_ser]; exact rfl)) | with_reducible apply setReg_within | with_reducible apply perstRings_within | with_reducible apply setF_within | with_reducible apply setB_within | with_reducible exact Within.refl | ((with_reducible refine Within.upd ?_ (.inl rfl) (.inl rfl) (.inl rfl) (.inr b29) (.inr b29) (.inr b29) (.inl rfl) (.inr b31) (.inl rfl) (.inl rfl) (.inl rfl) (.inl rfl) (.inl rfl) (.inl rfl) (.inl rfl) (.inl rfl) (.inl rfl) (.inl rfl) (.inl rfl) (.inl rfl) (.inl rfl) (.inl rfl) (.inl rfl) (.inl rfl) (.inl rfl) (.inl rfl) (.inl rfl) (.inl rfl) (.inl rfl) (.inl rfl)); first | with_reducible assumption | ((with_reducible refine Mask.sub hm ?_); first | exact rfl | (simp only [pageBit_ser]; exact rfl)) | with_reducible apply setReg_within | with_reducible apply perstRings_within | with_reducible apply setF_within | with_reducible apply setB_within | with_reducible exact Within.refl | split) | intro _ | split | dsimp only))

theorem execPerstRelease_within {m : Nat} {s t u : State} (h : Within m s t) (hm : 0x80000000 ||| m = m) (e : execPerstRelease t = .next u) : Within m s u := by
  have b31 := Mask.has (i := 31) hm rfl
  unfold execPerstRelease at e
  try dsimp only at e
  repeat' split at e
  all_goals (cases e; repeat' (first | with_reducible assumption | ((with_reducible refine Mask.sub hm ?_); first | exact rfl | (simp only [pageBit_ser]; exact rfl)) | with_reducible apply setReg_within | with_reducible exact Within.refl | ((with_reducible refine Within.upd ?_ (.inl rfl) (.inl rfl) (.inl rfl) (.inl rfl) (.inl rfl) (.inl rfl) (.inl rfl) (.inr b31) (.inl rfl) (.inl rfl) (.inl rfl) (.inl rfl) (.inl rfl) (.inl rfl) (.inl rfl) (.inl rfl) (.inl rfl) (.inl rfl) (.inl rfl) (.inl rfl) (.inl rfl) (.inl rfl) (.inl rfl) (.inl rfl) (.inl rfl) (.inl rfl) (.inl rfl) (.inl rfl) (.inl rfl) (.inl rfl)); first | with_reducible assumption | ((with_reducible refine Mask.sub hm ?_); first | exact rfl | (simp only [pageBit_ser]; exact rfl)) | with_reducible apply setReg_within | with_reducible exact Within.refl | split) | intro _ | split | dsimp only))

theorem execMrstAssert_within {m : Nat} {s t u : State} (h : Within m s t) (hm : 0x27ffffffffffff ||| m = m) (e : execMrstAssert t = .next u) : Within m s u := by
  have b31 := Mask.has (i := 31) hm rfl
  unfold execMrstAssert at e
  try dsimp only at e
  repeat' split at e
  all_goals (cases e; repeat' (first | with_reducible assumption | ((with_reducible refine Mask.sub hm ?_); first | exact rfl | (simp only [pageBit_ser]; exact rfl)) | ((with_reducible refine Mask.any (Mask.sub hm ?_) _); exact rfl) | with_reducible apply setReg_within | with_reducible apply restart_within | with_reducible exact Within.refl | ((with_reducible refine Within.upd ?_ (.inl rfl) (.inl rfl) (.inl rfl) (.inl rfl) (.inl rfl) (.inl rfl) (.inl rfl) (.inr b31) (.inl rfl) (.inl rfl) (.inl rfl) (.inl rfl) (.inl rfl) (.inl rfl) (.inl rfl) (.inl rfl) (.inl rfl) (.inl rfl) (.inl rfl) (.inl rfl) (.inl rfl) (.inl rfl) (.inl rfl) (.inl rfl) (.inl rfl) (.inl rfl) (.inl rfl) (.inl rfl) (.inl rfl) (.inl rfl)); first | with_reducible assumption | ((with_reducible refine Mask.sub hm ?_); first | exact rfl | (simp only [pageBit_ser]; exact rfl)) | ((with_reducible refine Mask.any (Mask.sub hm ?_) _); exact rfl) | with_reducible apply setReg_within | with_reducible apply restart_within | with_reducible exact Within.refl | split) | intro _ | split | dsimp only))

theorem wake_within {m : Nat} {s t : State} (h : Within m s t) (a0 : Nat) (hm : 0x27ffffffffffff ||| m = m) : Within m s (wake a0 t) := by
  unfold wake
  repeat' (first | with_reducible assumption | ((with_reducible refine Mask.sub hm ?_); first | exact rfl | (simp only [pageBit_ser]; exact rfl)) | ((with_reducible refine Mask.any (Mask.sub hm ?_) _); exact rfl) | with_reducible apply setReg_within | with_reducible apply restart_within | with_reducible apply setF_within | with_reducible exact Within.refl | intro _ | split | dsimp only)

theorem execWake_within {m : Nat} {s t u : State} (h : Within m s t) (a0 : Fin 5) (hm : 0x27ffffffffffff ||| m = m) (e : execWake a0 t = .next u) : Within m s u := by
  unfold execWake at e
  try dsimp only at e
  repeat' split at e
  all_goals (cases e; repeat' (first | with_reducible assumption | ((with_reducible refine Mask.sub hm ?_); first | exact rfl | (simp only [pageBit_ser]; exact rfl)) | ((with_reducible refine Mask.any (Mask.sub hm ?_) _); exact rfl) | with_reducible apply setReg_within | with_reducible apply wake_within | with_reducible exact Within.refl | intro _ | split | dsimp only))

theorem execMrstRelease_within {m : Nat} {s t u : State} (h : Within m s t) (hm : 0x27ffffffffffff ||| m = m) (e : execMrstRelease t = .next u) : Within m s u := by
  have b31 := Mask.has (i := 31) hm rfl
  unfold execMrstRelease at e
  try dsimp only at e
  repeat' split at e
  all_goals (cases e; repeat' (first | with_reducible assumption | ((with_reducible refine Mask.sub hm ?_); first | exact rfl | (simp only [pageBit_ser]; exact rfl)) | ((with_reducible refine Mask.any (Mask.sub hm ?_) _); exact rfl) | with_reducible apply setReg_within | with_reducible apply wake_within | with_reducible exact Within.refl | ((with_reducible refine Within.upd ?_ (.inl rfl) (.inl rfl) (.inl rfl) (.inl rfl) (.inl rfl) (.inl rfl) (.inl rfl) (.inr b31) (.inl rfl) (.inl rfl) (.inl rfl) (.inl rfl) (.inl rfl) (.inl rfl) (.inl rfl) (.inl rfl) (.inl rfl) (.inl rfl) (.inl rfl) (.inl rfl) (.inl rfl) (.inl rfl) (.inl rfl) (.inl rfl) (.inl rfl) (.inl rfl) (.inl rfl) (.inl rfl) (.inl rfl) (.inl rfl)); first | with_reducible assumption | ((with_reducible refine Mask.sub hm ?_); first | exact rfl | (simp only [pageBit_ser]; exact rfl)) | ((with_reducible refine Mask.any (Mask.sub hm ?_) _); exact rfl) | with_reducible apply setReg_within | with_reducible apply wake_within | with_reducible exact Within.refl | split) | intro _ | split | dsimp only))

theorem execSleepAddressMatch_within {m : Nat} {s t u : State} (h : Within m s t) (a0 : Serial) (hm : 0x27ffffffffffff ||| m = m) (e : execSleepAddressMatch a0 t = .next u) : Within m s u := by
  unfold execSleepAddressMatch at e
  try dsimp only at e
  repeat' split at e
  all_goals (cases e; repeat' (first | with_reducible assumption | ((with_reducible refine Mask.sub hm ?_); first | exact rfl | (simp only [pageBit_ser]; exact rfl)) | ((with_reducible refine Mask.any (Mask.sub hm ?_) _); exact rfl) | with_reducible apply setReg_within | with_reducible apply wake_within | with_reducible exact Within.refl | intro _ | split | dsimp only))

theorem execBreakEnd_within {m : Nat} {s t u : State} (h : Within m s t) (a0 : Serial) (a1 : BitVec 16) (hm : 0x27ffffffffffff ||| m = m) (e : execBreakEnd a0 a1 t = .next u) : Within m s u := by
  unfold execBreakEnd at e
  try dsimp only at e
  repeat' split at e
  all_goals (cases e; repeat' (first | with_reducible assumption | ((with_reducible refine Mask.sub hm ?_); first | exact rfl | (simp only [pageBit_ser]; exact rfl)) | ((with_reducible refine Mask.any (Mask.sub hm ?_) _); exact rfl) | with_reducible apply setReg_within | with_reducible apply endedBreak_within | with_reducible apply toRecovery_within | with_reducible apply restart_within | with_reducible exact Within.refl | intro _ | split | dsimp only))

theorem runResetModule_within {m : Nat} {s t : State} (h : Within m s t) (a0 : Outstanding) (hm : 0x27ffffffffffff ||| m = m) : Within m s (runResetModule a0 t) := by
  unfold runResetModule
  repeat' (first | with_reducible assumption | ((with_reducible refine Mask.sub hm ?_); first | exact rfl | (simp only [pageBit_ser]; exact rfl)) | ((with_reducible refine Mask.any (Mask.sub hm ?_) _); exact rfl) | with_reducible apply setReg_within | with_reducible apply restart_within | with_reducible apply done_within | with_reducible apply toRecovery_within | with_reducible exact Within.refl | intro _ | split | dsimp only)

theorem execResetModule_within {m : Nat} {s t u : State} (h : Within m s t) (a0 : CmdSrc) (hm : 0x27ffffffffffff ||| m = m) (e : execResetModule a0 t = .next u) : Within m s u := by
  unfold execResetModule at e
  try dsimp only at e
  repeat' split at e
  all_goals (cases e; repeat' (first | with_reducible assumption | ((with_reducible refine Mask.sub hm ?_); first | exact rfl | (simp only [pageBit_ser]; exact rfl)) | ((with_reducible refine Mask.any (Mask.sub hm ?_) _); exact rfl) | with_reducible apply setReg_within | with_reducible apply issue_within | with_reducible apply runResetModule_within | with_reducible exact Within.refl | intro _ | split | dsimp only))

theorem confirmSlot_within {m : Nat} {s t : State} (h : Within m s t) (a0 : Nat) (hm : 0x4 ||| m = m) : Within m s (confirmSlot a0 t) := by
  unfold confirmSlot
  repeat' (first | with_reducible assumption | ((with_reducible refine Mask.sub hm ?_); first | exact rfl | (simp only [pageBit_ser]; exact rfl)) | with_reducible apply setReg_within | with_reducible apply setF_within | with_reducible apply setSlotState_within | with_reducible exact Within.refl | intro _ | split | dsimp only)

theorem runConfirm_within {m : Nat} {s t : State} (h : Within m s t) (a0 : Outstanding) (hm : 0x20000134000804 ||| m = m) : Within m s (runConfirm a0 t) := by
  have b32 := Mask.has (i := 32) hm rfl
  unfold runConfirm
  repeat' (first | with_reducible assumption | ((with_reducible refine Mask.sub hm ?_); first | exact rfl | (simp only [pageBit_ser]; exact rfl)) | with_reducible apply setReg_within | with_reducible apply done_within | with_reducible apply confirmSlot_within | with_reducible apply Within.foldl | with_reducible exact Within.refl | ((with_reducible refine Within.upd ?_ (.inl rfl) (.inl rfl) (.inl rfl) (.inl rfl) (.inl rfl) (.inl rfl) (.inl rfl) (.inl rfl) (.inr b32) (.inl rfl) (.inl rfl) (.inl rfl) (.inl rfl) (.inl rfl) (.inl rfl) (.inl rfl) (.inl rfl) (.inl rfl) (.inl rfl) (.inl rfl) (.inl rfl) (.inl rfl) (.inl rfl) (.inl rfl) (.inl rfl) (.inl rfl) (.inl rfl) (.inl rfl) (.inl rfl) (.inl rfl)); first | with_reducible assumption | ((with_reducible refine Mask.sub hm ?_); first | exact rfl | (simp only [pageBit_ser]; exact rfl)) | with_reducible apply setReg_within | with_reducible apply done_within | with_reducible apply confirmSlot_within | with_reducible apply Within.foldl | with_reducible exact Within.refl | split) | intro _ | split | dsimp only)

theorem execConfirm_within {m : Nat} {s t u : State} (h : Within m s t) (a0 : CmdSrc) (hm : 0x20000134000804 ||| m = m) (e : execConfirm a0 t = .next u) : Within m s u := by
  unfold execConfirm at e
  try dsimp only at e
  repeat' split at e
  all_goals (cases e; repeat' (first | with_reducible assumption | ((with_reducible refine Mask.sub hm ?_); first | exact rfl | (simp only [pageBit_ser]; exact rfl)) | with_reducible apply setReg_within | with_reducible apply issue_within | with_reducible apply runConfirm_within | with_reducible exact Within.refl | intro _ | split | dsimp only))

theorem runEnterTest_within {m : Nat} {s t : State} (h : Within m s t) (a0 : Outstanding) (hm : 0x20000034000884 ||| m = m) : Within m s (runEnterTest a0 t) := by
  unfold runEnterTest
  repeat' (first | with_reducible assumption | ((with_reducible refine Mask.sub hm ?_); first | exact rfl | (simp only [pageBit_ser]; exact rfl)) | with_reducible apply setReg_within | with_reducible apply done_within | with_reducible apply settleOwner_within | with_reducible apply setF_within | with_reducible exact Within.refl | intro _ | split | dsimp only)

theorem execEnterTest_within {m : Nat} {s t u : State} (h : Within m s t) (a0 : CmdSrc) (hm : 0x20000034000884 ||| m = m) (e : execEnterTest a0 t = .next u) : Within m s u := by
  unfold execEnterTest at e
  try dsimp only at e
  repeat' split at e
  all_goals (cases e; repeat' (first | with_reducible assumption | ((with_reducible refine Mask.sub hm ?_); first | exact rfl | (simp only [pageBit_ser]; exact rfl)) | with_reducible apply setReg_within | with_reducible apply issue_within | with_reducible apply runEnterTest_within | with_reducible exact Within.refl | intro _ | split | dsimp only))

end Sys2Proof.Machine
end

