-- ==== Sys2Proof/Laws/WithinBoot.lean ====
section
/-! SUPPORT. Sys2Proof/Laws/WithinBoot.lean: the parts of a state that the operations of Machine/Boot.lean may change. -/
namespace Sys2Proof.Machine

theorem makeReady_within {m : Nat} {s t : State} (h : Within m s t) (a0 : List Page) (hm : 0x3ffffff ||| m = m) : Within m s (makeReady a0 t) := by
  unfold makeReady
  repeat' (first | with_reducible assumption | ((with_reducible refine Mask.sub hm ?_); first | exact rfl | (simp only [pageBit_ser]; exact rfl)) | ((with_reducible refine Mask.any (Mask.sub hm ?_) _); exact rfl) | with_reducible apply setReg_within | with_reducible apply setReady_within | with_reducible apply Within.foldl | with_reducible exact Within.refl | intro _ | split | dsimp only)

theorem setStage_within {m : Nat} {s t : State} (h : Within m s t) (a0 : Nat) (hm : 0x4 ||| m = m) : Within m s (setStage a0 t) := by
  unfold setStage
  repeat' (first | with_reducible assumption | ((with_reducible refine Mask.sub hm ?_); first | exact rfl | (simp only [pageBit_ser]; exact rfl)) | with_reducible apply setReg_within | with_reducible apply setF_within | with_reducible exact Within.refl | intro _ | split | dsimp only)

theorem setMode_within {m : Nat} {s t : State} (h : Within m s t) (a0 : Nat) (hm : 0x84 ||| m = m) : Within m s (setMode a0 t) := by
  unfold setMode
  repeat' (first | with_reducible assumption | ((with_reducible refine Mask.sub hm ?_); first | exact rfl | (simp only [pageBit_ser]; exact rfl)) | with_reducible apply setReg_within | with_reducible apply settleOwner_within | with_reducible apply setF_within | with_reducible exact Within.refl | intro _ | split | dsimp only)

theorem logStart_within {m : Nat} {s t : State} (h : Within m s t) (hm : 0x20000128000020 ||| m = m) : Within m s (logStart t) := by
  have b32 := Mask.has (i := 32) hm rfl
  unfold logStart
  repeat' (first | with_reducible assumption | ((with_reducible refine Mask.sub hm ?_); first | exact rfl | (simp only [pageBit_ser]; exact rfl)) | with_reducible apply setReg_within | with_reducible apply logEvent_within | with_reducible exact Within.refl | ((with_reducible refine Within.upd ?_ (.inl rfl) (.inl rfl) (.inl rfl) (.inl rfl) (.inl rfl) (.inl rfl) (.inl rfl) (.inl rfl) (.inr b32) (.inl rfl) (.inl rfl) (.inl rfl) (.inl rfl) (.inl rfl) (.inl rfl) (.inl rfl) (.inl rfl) (.inl rfl) (.inl rfl) (.inl rfl) (.inl rfl) (.inl rfl) (.inl rfl) (.inl rfl) (.inl rfl) (.inl rfl) (.inl rfl) (.inl rfl) (.inl rfl) (.inl rfl)); first | with_reducible assumption | ((with_reducible refine Mask.sub hm ?_); first | exact rfl | (simp only [pageBit_ser]; exact rfl)) | with_reducible apply setReg_within | with_reducible apply logEvent_within | with_reducible exact Within.refl | split) | intro _ | split | dsimp only)

theorem enterRecovery_within {m : Nat} {s t : State} (h : Within m s t) (a0 : Nat) (hm : 0x2003a12bffffff ||| m = m) : Within m s (enterRecovery a0 t) := by
  unfold enterRecovery
  repeat' (first | with_reducible assumption | ((with_reducible refine Mask.sub hm ?_); first | exact rfl | (simp only [pageBit_ser]; exact rfl)) | ((with_reducible refine Mask.any (Mask.sub hm ?_) _); exact rfl) | with_reducible apply setReg_within | with_reducible apply setF_within | with_reducible apply logStart_within | with_reducible apply makeReady_within | with_reducible apply endCause_within | with_reducible apply kill_within | with_reducible apply setMode_within | with_reducible exact Within.refl | intro _ | split | dsimp only)

theorem drawFirst_within {m : Nat} {s t : State} (h : Within m s t) (hm : 0xa100000040000 ||| m = m) : Within m s (drawFirst t) := by
  have b44 := Mask.has (i := 44) hm rfl
  have b49 := Mask.has (i := 49) hm rfl
  unfold drawFirst
  repeat' (first | with_reducible assumption | ((with_reducible refine Mask.sub hm ?_); first | exact rfl | (simp only [pageBit_ser]; exact rfl)) | with_reducible apply setReg_within | with_reducible apply randBytes_within | with_reducible apply draw_within | (with_reducible refine randBytes_within_eq (by assumption) ?_ ?_) | (with_reducible refine draw_within_eq (by assumption) ?_ ?_) | with_reducible exact Within.refl | ((with_reducible refine Within.upd ?_ (.inl rfl) (.inl rfl) (.inl rfl) (.inl rfl) (.inl rfl) (.inl rfl) (.inl rfl) (.inl rfl) (.inl rfl) (.inl rfl) (.inl rfl) (.inl rfl) (.inl rfl) (.inl rfl) (.inl rfl) (.inl rfl) (.inl rfl) (.inl rfl) (.inl rfl) (.inl rfl) (.inr b44) (.inl rfl) (.inl rfl) (.inl rfl) (.inl rfl) (.inr b49) (.inl rfl) (.inl rfl) (.inl rfl) (.inl rfl)); first | with_reducible assumption | ((with_reducible refine Mask.sub hm ?_); first | exact rfl | (simp only [pageBit_ser]; exact rfl)) | with_reducible apply setReg_within | with_reducible apply randBytes_within | with_reducible apply draw_within | (with_reducible refine randBytes_within_eq (by assumption) ?_ ?_) | (with_reducible refine draw_within_eq (by assumption) ?_ ?_) | with_reducible exact Within.refl | split) | intro _ | split | dsimp only)

theorem drawStart_within {m : Nat} {s t : State} (h : Within m s t) (hm : 0x8180000040000 ||| m = m) : Within m s (drawStart t) := by
  have b44 := Mask.has (i := 44) hm rfl
  unfold drawStart
  repeat' (first | with_reducible assumption | ((with_reducible refine Mask.sub hm ?_); first | exact rfl | (simp only [pageBit_ser]; exact rfl)) | with_reducible apply setReg_within | with_reducible apply randBytes_within | with_reducible apply setMac_within | (with_reducible refine randBytes_within_eq (by assumption) ?_ ?_) | with_reducible exact Within.refl | ((with_reducible refine Within.upd ?_ (.inl rfl) (.inl rfl) (.inl rfl) (.inl rfl) (.inl rfl) (.inl rfl) (.inl rfl) (.inl rfl) (.inl rfl) (.inl rfl) (.inl rfl) (.inl rfl) (.inl rfl) (.inl rfl) (.inl rfl) (.inl rfl) (.inl rfl) (.inl rfl) (.inl rfl) (.inl rfl) (.inr b44) (.inl rfl) (.inl rfl) (.inl rfl) (.inl rfl) (.inl rfl) (.inl rfl) (.inl rfl) (.inl rfl) (.inl rfl)); first | with_reducible assumption | ((with_reducible refine Mask.sub hm ?_); first | exact rfl | (simp only [pageBit_ser]; exact rfl)) | with_reducible apply setReg_within | with_reducible apply randBytes_within | with_reducible apply setMac_within | (with_reducible refine randBytes_within_eq (by assumption) ?_ ?_) | with_reducible exact Within.refl | split) | intro _ | split | dsimp only)

theorem loadPair_within {m : Nat} {s t : State} (h : Within m s t) (hm : 0x800000000200 ||| m = m) : Within m s (loadPair t) := by
  have b47 := Mask.has (i := 47) hm rfl
  unfold loadPair
  repeat' (first | with_reducible assumption | ((with_reducible refine Mask.sub hm ?_); first | exact rfl | (simp only [pageBit_ser]; exact rfl)) | with_reducible apply setReg_within | with_reducible apply pairBecomes_within | with_reducible exact Within.refl | ((with_reducible refine Within.upd ?_ (.inl rfl) (.inl rfl) (.inl rfl) (.inl rfl) (.inl rfl) (.inl rfl) (.inl rfl) (.inl rfl) (.inl rfl) (.inl rfl) (.inl rfl) (.inl rfl) (.inl rfl) (.inl rfl) (.inl rfl) (.inl rfl) (.inl rfl) (.inl rfl) (.inl rfl) (.inl rfl) (.inl rfl) (.inl rfl) (.inl rfl) (.inr b47) (.inl rfl) (.inl rfl) (.inl rfl) (.inl rfl) (.inl rfl) (.inl rfl)); first | with_reducible assumption | ((with_reducible refine Mask.sub hm ?_); first | exact rfl | (simp only [pageBit_ser]; exact rfl)) | with_reducible apply setReg_within | with_reducible apply pairBecomes_within | with_reducible exact Within.refl | split) | intro _ | split | dsimp only)

theorem loadKeys_within {m : Nat} {s t : State} (h : Within m s t) (hm : 0xa980000040600 ||| m = m) : Within m s (loadKeys t) := by
  unfold loadKeys
  repeat' (first | with_reducible assumption | ((with_reducible refine Mask.sub hm ?_); first | exact rfl | (simp only [pageBit_ser]; exact rfl)) | with_reducible apply setReg_within | with_reducible apply setB_within | with_reducible apply loadPair_within | with_reducible apply drawStart_within | with_reducible apply drawFirst_within | with_reducible apply reseed_within | with_reducible exact Within.refl | intro _ | split | dsimp only)

theorem pickSlot_within {m : Nat} {s t : State} (h : Within m s t) (a0 : List Nat) (hm : 0x20000020000004 ||| m = m) : Within m s (pickSlot a0 t).2 := by
  induction a0 generalizing t with
  | nil =>
    unfold pickSlot
    repeat' (first | with_reducible assumption | with_reducible apply ih | ((with_reducible refine Mask.sub hm ?_); first | exact rfl | (simp only [pageBit_ser]; exact rfl)) | with_reducible apply setReg_within | with_reducible apply markInvalid_within | with_reducible exact Within.refl | intro _ | split | dsimp only)
  | cons _ _ ih =>
    unfold pickSlot
    repeat' (first | with_reducible assumption | with_reducible apply ih | ((with_reducible refine Mask.sub hm ?_); first | exact rfl | (simp only [pageBit_ser]; exact rfl)) | with_reducible apply setReg_within | with_reducible apply markInvalid_within | with_reducible exact Within.refl | intro _ | split | dsimp only)

theorem pickSlot_within_eq {m : Nat} {s t u : State} {a0 : List Nat} {y0} (e : pickSlot a0 t = (y0, u)) (h : Within m s t) (hm : 0x20000020000004 ||| m = m) : Within m s u := by
  have k := pickSlot_within h a0 hm
  rw [e] at k
  exact k

theorem bootSlot_within {m : Nat} {s t : State} (h : Within m s t) (a0 : Nat) (hm : 0x100000004 ||| m = m) : Within m s (bootSlot a0 t) := by
  have b32 := Mask.has (i := 32) hm rfl
  unfold bootSlot
  repeat' (first | with_reducible assumption | ((with_reducible refine Mask.sub hm ?_); first | exact rfl | (simp only [pageBit_ser]; exact rfl)) | with_reducible apply setReg_within | with_reducible apply setSlotState_within | with_reducible exact Within.refl | ((with_reducible refine Within.upd ?_ (.inl rfl) (.inl rfl) (.inl rfl) (.inl rfl) (.inl rfl) (.inl rfl) (.inl rfl) (.inl rfl) (.inr b32) (.inl rfl) (.inl rfl) (.inl rfl) (.inl rfl) (.inl rfl) (.inl rfl) (.inl rfl) (.inl rfl) (.inl rfl) (.inl rfl) (.inl rfl) (.inl rfl) (.inl rfl) (.inl rfl) (.inl rfl) (.inl rfl) (.inl rfl) (.inl rfl) (.inl rfl) (.inl rfl) (.inl rfl)); first | with_reducible assumption | ((with_reducible refine Mask.sub hm ?_); first | exact rfl | (simp only [pageBit_ser]; exact rfl)) | with_reducible apply setReg_within | with_reducible apply setSlotState_within | with_reducible exact Within.refl | split) | intro _ | split | dsimp only)

theorem bootModule_within_eq {m : Nat} {s t u : State} (e : bootModule t = some u) (h : Within m s t) (hm : 0x20000120000004 ||| m = m) : Within m s u := by
  have b32 := Mask.has (i := 32) hm rfl
  unfold bootModule at e
  dsimp only at e
  split at e
  · cases e
  · rename_i i t' hp
    cases e
    have k : Within m s (bootSlot i t') := bootSlot_within (pickSlot_within_eq hp h (Mask.sub hm rfl)) _ (Mask.sub hm rfl)
    generalize bootSlot i t' = v at k ⊢
    refine setF_within ?_ _ _ _ (Mask.sub hm rfl)
    exact Within.upd k (.inl rfl) (.inl rfl) (.inl rfl) (.inl rfl) (.inl rfl) (.inl rfl) (.inl rfl) (.inl rfl) (.inr b32) (.inl rfl) (.inl rfl) (.inl rfl)
      (.inl rfl) (.inl rfl) (.inl rfl) (.inl rfl) (.inl rfl) (.inl rfl) (.inl rfl) (.inl rfl) (.inl rfl) (.inl rfl) (.inl rfl) (.inl rfl) (.inl rfl) (.inl rfl)
      (.inl rfl) (.inl rfl) (.inl rfl) (.inl rfl)

theorem modFailed_within {m : Nat} {s t : State} (h : Within m s t) (hm : 0x20000020000004 ||| m = m) : Within m s (modFailed t) := by
  unfold modFailed
  repeat' (first | with_reducible assumption | ((with_reducible refine Mask.sub hm ?_); first | exact rfl | (simp only [pageBit_ser]; exact rfl)) | with_reducible apply setReg_within | with_reducible apply pickSlot_within | (with_reducible refine pickSlot_within_eq (by assumption) ?_ ?_) | with_reducible exact Within.refl | intro _ | split | dsimp only)

theorem showUcode_within {m : Nat} {s t : State} (h : Within m s t) (a0 : Nat) (hm : 0x1000000 ||| m = m) : Within m s (showUcode a0 t) := by
  unfold showUcode
  repeat' (first | with_reducible assumption | ((with_reducible refine Mask.sub hm ?_); first | exact rfl | (simp only [pageBit_eng, engPage]; exact rfl)) | with_reducible apply setReg_within | with_reducible apply setB_within | with_reducible apply setF_within | with_reducible apply Within.foldl | with_reducible exact Within.refl | intro _ | split | dsimp only)

theorem bootUcode_within {m : Nat} {s t : State} (h : Within m s t) (hm : 0x20000121000004 ||| m = m) : Within m s (bootUcode t) := by
  have b32 := Mask.has (i := 32) hm rfl
  unfold bootUcode
  repeat' (first | with_reducible assumption | ((with_reducible refine Mask.sub hm ?_); first | exact rfl | (simp only [pageBit_ser]; exact rfl)) | with_reducible apply setReg_within | with_reducible apply pickSlot_within | with_reducible apply setF_within | with_reducible apply bootSlot_within | with_reducible apply showUcode_within | (with_reducible refine pickSlot_within_eq (by assumption) ?_ ?_) | with_reducible exact Within.refl | ((with_reducible refine Within.upd ?_ (.inl rfl) (.inl rfl) (.inl rfl) (.inl rfl) (.inl rfl) (.inl rfl) (.inl rfl) (.inl rfl) (.inr b32) (.inl rfl) (.inl rfl) (.inl rfl) (.inl rfl) (.inl rfl) (.inl rfl) (.inl rfl) (.inl rfl) (.inl rfl) (.inl rfl) (.inl rfl) (.inl rfl) (.inl rfl) (.inl rfl) (.inl rfl) (.inl rfl) (.inl rfl) (.inl rfl) (.inl rfl) (.inl rfl) (.inl rfl)); first | with_reducible assumption | ((with_reducible refine Mask.sub hm ?_); first | exact rfl | (simp only [pageBit_ser]; exact rfl)) | with_reducible apply setReg_within | with_reducible apply pickSlot_within | with_reducible apply setF_within | with_reducible apply bootSlot_within | with_reducible apply showUcode_within | (with_reducible refine pickSlot_within_eq (by assumption) ?_ ?_) | with_reducible exact Within.refl | split) | intro _ | split | dsimp only)

theorem testPipes_within {m : Nat} {s t : State} (h : Within m s t) (a0 : List (Fin 2)) (hm : 0x20ba483e25ba28 ||| m = m) : Within m s (testPipes a0 t) := by
  unfold testPipes
  repeat' (first | with_reducible assumption | ((with_reducible refine Mask.sub hm ?_); first | exact rfl | (simp only [pageBit_ser]; exact rfl)) | with_reducible apply setReg_within | with_reducible apply pipeOut_within | with_reducible apply setB_within | with_reducible apply Within.foldl | with_reducible exact Within.refl | intro _ | split | dsimp only)

theorem applyFuse_within {m : Nat} {s t : State} (h : Within m s t) (a0 : Nat × Nat × Nat) (hm : 0x2000000 ||| m = m) : Within m s (applyFuse a0 t) := by
  unfold applyFuse
  repeat' (first | with_reducible assumption | ((with_reducible refine Mask.sub hm ?_); first | exact rfl | (simp only [pageBit_ser]; exact rfl)) | with_reducible apply setReg_within | with_reducible apply setSpare_within | with_reducible exact Within.refl | intro _ | split | dsimp only)

theorem testMemory_within {m : Nat} {s t : State} (h : Within m s t) (a0 : List (Bank × Fin 72)) (hm : 0x20002000004 ||| m = m) : Within m s (testMemory a0 t) := by
  unfold testMemory
  repeat' (first | with_reducible assumption | ((with_reducible refine Mask.sub hm ?_); first | exact rfl | (simp only [pageBit_ser]; exact rfl)) | with_reducible apply setReg_within | with_reducible apply applyFuse_within | with_reducible apply marchBank_within | with_reducible apply setF_within | (with_reducible refine marchBank_within_eq (by assumption) ?_ ?_) | with_reducible apply Within.foldl | with_reducible exact Within.refl | intro _ | split | dsimp only)

theorem recountTable_within {m : Nat} {s t : State} (h : Within m s t) (hm : 0x20000020008000 ||| m = m) : Within m s (recountTable t) := by
  unfold recountTable
  repeat' (first | with_reducible assumption | ((with_reducible refine Mask.sub hm ?_); first | exact rfl | (simp only [pageBit_ser]; exact rfl)) | with_reducible apply setReg_within | with_reducible apply setB_within | with_reducible apply setF_within | with_reducible apply refreshTable_within | with_reducible exact Within.refl | intro _ | split | dsimp only)

theorem applyBkey_within {m : Nat} {s t : State} (h : Within m s t) (hm : 0x20180020008000 ||| m = m) : Within m s (applyBkey t) := by
  have b44 := Mask.has (i := 44) hm rfl
  unfold applyBkey
  split
  · exact h
  · split
    · exact h
    · extract_lets x y s1
      have k : Within m s { t with cip := { t.cip with groups := [] } } := Within.upd h (.inl rfl) (.inl rfl) (.inl rfl) (.inl rfl) (.inl rfl) (.inl rfl) (.inl rfl) (.inl rfl) (.inl rfl) (.inl rfl) (.inl rfl) (.inl rfl) (.inl rfl) (.inl rfl) (.inl rfl) (.inl rfl) (.inl rfl) (.inl rfl) (.inl rfl) (.inl rfl) (.inr b44) (.inl rfl) (.inl rfl) (.inl rfl) (.inl rfl) (.inl rfl) (.inl rfl) (.inl rfl) (.inl rfl) (.inl rfl)
      have k1 : Within m s s1 := setMac_within k _ (Mask.sub hm rfl)
      clear_value s1
      exact raise_within (setB_within (setF_within k1 _ _ _ (Mask.sub hm rfl)) _ _ _ (Mask.sub hm rfl)) _ _ (Mask.sub hm rfl) (Mask.sub hm rfl)

theorem beginGrid_within {m : Nat} {s t : State} (h : Within m s t) (hm : 0x201c006800c120 ||| m = m) : Within m s (beginGrid t) := by
  have b30 := Mask.has (i := 30) hm rfl
  unfold beginGrid
  repeat' (first | with_reducible assumption | ((with_reducible refine Mask.sub hm ?_); first | exact rfl | (simp only [pageBit_ser]; exact rfl)) | with_reducible apply setReg_within | with_reducible apply applyBkey_within | with_reducible apply startTru_within | with_reducible apply setF_within | with_reducible apply linkTime_within | with_reducible exact Within.refl | ((with_reducible refine Within.upd ?_ (.inl rfl) (.inl rfl) (.inl rfl) (.inl rfl) (.inl rfl) (.inl rfl) (.inr b30) (.inl rfl) (.inl rfl) (.inl rfl) (.inl rfl) (.inl rfl) (.inl rfl) (.inl rfl) (.inl rfl) (.inl rfl) (.inl rfl) (.inl rfl) (.inl rfl) (.inl rfl) (.inl rfl) (.inl rfl) (.inl rfl) (.inl rfl) (.inl rfl) (.inl rfl) (.inl rfl) (.inl rfl) (.inl rfl) (.inl rfl)); first | with_reducible assumption | ((with_reducible refine Mask.sub hm ?_); first | exact rfl | (simp only [pageBit_ser]; exact rfl)) | with_reducible apply setReg_within | with_reducible apply applyBkey_within | with_reducible apply startTru_within | with_reducible apply setF_within | with_reducible apply linkTime_within | with_reducible exact Within.refl | split) | intro _ | split | dsimp only)

theorem loadDecl_within {m : Nat} {s t : State} (h : Within m s t) (a0 : Nat) (hm : 0x20039235800800 ||| m = m) : Within m s (loadDecl a0 t) := by
  unfold loadDecl
  repeat' (first | with_reducible assumption | ((with_reducible refine Mask.sub hm ?_); first | exact rfl | (simp only [pageBit_lpt, lptPage]; exact rfl)) | with_reducible apply setReg_within | with_reducible apply applyDecl_within | with_reducible apply setF_within | with_reducible exact Within.refl | intro _ | split | dsimp only)

theorem loadWaves_within {m : Nat} {s t : State} (h : Within m s t) (hm : 0x20000c20300000 ||| m = m) : Within m s (loadWaves t) := by
  have b34 := Mask.has (i := 34) hm rfl
  have b35 := Mask.has (i := 35) hm rfl
  unfold loadWaves
  repeat' (first | with_reducible assumption | ((with_reducible refine Mask.sub hm ?_); first | exact rfl | (simp only [pageBit_ser]; exact rfl)) | with_reducible apply setReg_within | with_reducible apply nbApply_within | with_reducible apply setB_within | with_reducible exact Within.refl | ((with_reducible refine Within.upd ?_ (.inl rfl) (.inl rfl) (.inl rfl) (.inl rfl) (.inl rfl) (.inl rfl) (.inl rfl) (.inl rfl) (.inl rfl) (.inl rfl) (.inr b34) (.inr b35) (.inl rfl) (.inl rfl) (.inl rfl) (.inl rfl) (.inl rfl) (.inl rfl) (.inl rfl) (.inl rfl) (.inl rfl) (.inl rfl) (.inl rfl) (.inl rfl) (.inl rfl) (.inl rfl) (.inl rfl) (.inl rfl) (.inl rfl) (.inl rfl)); first | with_reducible assumption | ((with_reducible refine Mask.sub hm ?_); first | exact rfl | (simp only [pageBit_ser]; exact rfl)) | with_reducible apply setReg_within | with_reducible apply nbApply_within | with_reducible apply setB_within | with_reducible exact Within.refl | split) | intro _ | split | dsimp only)

theorem loadBeacon_within {m : Nat} {s t : State} (h : Within m s t) (hm : 0x82000000000 ||| m = m) : Within m s (loadBeacon t) := by
  have b37 := Mask.has (i := 37) hm rfl
  have b43 := Mask.has (i := 43) hm rfl
  unfold loadBeacon
  repeat' (first | with_reducible assumption | ((with_reducible refine Mask.sub hm ?_); first | exact rfl | (simp only [pageBit_ser]; exact rfl)) | with_reducible apply setReg_within | with_reducible exact Within.refl | ((with_reducible refine Within.upd ?_ (.inl rfl) (.inl rfl) (.inl rfl) (.inl rfl) (.inl rfl) (.inl rfl) (.inl rfl) (.inl rfl) (.inl rfl) (.inl rfl) (.inl rfl) (.inl rfl) (.inl rfl) (.inr b37) (.inl rfl) (.inl rfl) (.inl rfl) (.inl rfl) (.inl rfl) (.inr b43) (.inl rfl) (.inl rfl) (.inl rfl) (.inl rfl) (.inl rfl) (.inl rfl) (.inl rfl) (.inl rfl) (.inl rfl) (.inl rfl)); first | with_reducible assumption | ((with_reducible refine Mask.sub hm ?_); first | exact rfl | (simp only [pageBit_ser]; exact rfl)) | with_reducible apply setReg_within | with_reducible exact Within.refl | split) | intro _ | split | dsimp only)

theorem loadMaps_within {m : Nat} {s t : State} (h : Within m s t) (hm : 0x4000 ||| m = m) : Within m s (loadMaps t) := by
  unfold loadMaps
  repeat' (first | with_reducible assumption | ((with_reducible refine Mask.sub hm ?_); first | exact rfl | (simp only [pageBit_ser]; exact rfl)) | with_reducible apply setReg_within | with_reducible apply setF_within | with_reducible exact Within.refl | intro _ | split | dsimp only)

theorem loadConfig_within {m : Nat} {s t : State} (h : Within m s t) (hm : 0x200bbe35b14800 ||| m = m) : Within m s (loadConfig t) := by
  unfold loadConfig
  repeat' (first | with_reducible assumption | ((with_reducible refine Mask.sub hm ?_); first | exact rfl | (simp only [pageBit_ser]; exact rfl)) | with_reducible apply setReg_within | with_reducible apply loadDecl_within | with_reducible apply setB_within | with_reducible apply loadMaps_within | with_reducible apply loadBeacon_within | with_reducible apply loadWaves_within | with_reducible apply Within.foldl | with_reducible exact Within.refl | intro _ | split | dsimp only)

theorem showTrial_within {m : Nat} {s t : State} (h : Within m s t) (hm : 0x20000020000004 ||| m = m) : Within m s (showTrial t) := by
  unfold showTrial
  repeat' (first | with_reducible assumption | ((with_reducible refine Mask.sub hm ?_); first | exact rfl | (simp only [pageBit_ser]; exact rfl)) | with_reducible apply setReg_within | with_reducible apply raise_within | with_reducible exact Within.refl | intro _ | split | dsimp only)

theorem enterService_within {m : Nat} {s t : State} (h : Within m s t) (hm : 0x200bbf37ffffff ||| m = m) : Within m s (enterService t) := by
  have b32 := Mask.has (i := 32) hm rfl
  unfold enterService
  repeat' (first | with_reducible assumption | ((with_reducible refine Mask.sub hm ?_); first | exact rfl | (simp only [pageBit_ser]; exact rfl)) | ((with_reducible refine Mask.any (Mask.sub hm ?_) _); exact rfl) | with_reducible apply setReg_within | with_reducible apply makeReady_within | with_reducible apply loadConfig_within | with_reducible apply setB_within | with_reducible apply setMode_within | with_reducible apply raise_within | with_reducible apply endCause_within | with_reducible apply diagReport_within | with_reducible apply refreshTunnel_within | with_reducible apply refreshEngines_within | with_reducible apply refreshGate_within | with_reducible apply showTrial_within | with_reducible exact Within.refl | ((with_reducible refine Within.upd ?_ (.inl rfl) (.inl rfl) (.inl rfl) (.inl rfl) (.inl rfl) (.inl rfl) (.inl rfl) (.inl rfl) (.inr b32) (.inl rfl) (.inl rfl) (.inl rfl) (.inl rfl) (.inl rfl) (.inl rfl) (.inl rfl) (.inl rfl) (.inl rfl) (.inl rfl) (.inl rfl) (.inl rfl) (.inl rfl) (.inl rfl) (.inl rfl) (.inl rfl) (.inl rfl) (.inl rfl) (.inl rfl) (.inl rfl) (.inl rfl)); first | with_reducible assumption | ((with_reducible refine Mask.sub hm ?_); first | exact rfl | (simp only [pageBit_ser]; exact rfl)) | ((with_reducible refine Mask.any (Mask.sub hm ?_) _); exact rfl) | with_reducible apply setReg_within | with_reducible apply makeReady_within | with_reducible apply loadConfig_within | with_reducible apply setB_within | with_reducible apply setMode_within | with_reducible apply raise_within | with_reducible apply endCause_within | with_reducible apply diagReport_within | with_reducible apply refreshTunnel_within | with_reducible apply refreshEngines_within | with_reducible apply refreshGate_within | with_reducible apply showTrial_within | with_reducible exact Within.refl | split) | intro _ | split | dsimp only)

theorem nextStage_within {m : Nat} {s t : State} (h : Within m s t) (a0 : StageFind) (hm : 0x2abfffffffffff ||| m = m) : Within m s (nextStage a0 t) := by
  have b31 := Mask.has (i := 31) hm rfl
  have b32 := Mask.has (i := 32) hm rfl
  unfold nextStage
  repeat' (first | with_reducible assumption | ((with_reducible refine Mask.sub hm ?_); first | exact rfl | (simp only [pageBit_ser]; exact rfl)) | ((with_reducible refine Mask.any (Mask.sub hm ?_) _); exact rfl) | with_reducible apply setReg_within | with_reducible apply showBase_within | with_reducible apply setStage_within | with_reducible apply enterRecovery_within | with_reducible apply loadKeys_within | with_reducible apply bootModule_within | with_reducible apply modFailed_within | with_reducible apply logStart_within | with_reducible apply makeReady_within | with_reducible apply testMemory_within | with_reducible apply recountTable_within | with_reducible apply beginGrid_within | with_reducible apply testPipes_within | with_reducible apply bootUcode_within | with_reducible apply enterService_within | (with_reducible refine bootModule_within_eq (by assumption) ?_ ?_) | with_reducible exact Within.refl | ((with_reducible refine Within.upd ?_ (.inl rfl) (.inl rfl) (.inl rfl) (.inl rfl) (.inl rfl) (.inl rfl) (.inl rfl) (.inr b31) (.inr b32) (.inl rfl) (.inl rfl) (.inl rfl) (.inl rfl) (.inl rfl) (.inl rfl) (.inl rfl) (.inl rfl) (.inl rfl) (.inl rfl) (.inl rfl) (.inl rfl) (.inl rfl) (.inl rfl) (.inl rfl) (.inl rfl) (.inl rfl) (.inl rfl) (.inl rfl) (.inl rfl) (.inl rfl)); first | with_reducible assumption | ((with_reducible refine Mask.sub hm ?_); first | exact rfl | (simp only [pageBit_ser]; exact rfl)) | ((with_reducible refine Mask.any (Mask.sub hm ?_) _); exact rfl) | with_reducible apply setReg_within | with_reducible apply showBase_within | with_reducible apply setStage_within | with_reducible apply enterRecovery_within | with_reducible apply loadKeys_within | with_reducible apply bootModule_within | with_reducible apply modFailed_within | with_reducible apply logStart_within | with_reducible apply makeReady_within | with_reducible apply testMemory_within | with_reducible apply recountTable_within | with_reducible apply beginGrid_within | with_reducible apply testPipes_within | with_reducible apply bootUcode_within | with_reducible apply enterService_within | (with_reducible refine bootModule_within_eq (by assumption) ?_ ?_) | with_reducible exact Within.refl | split) | intro _ | split | dsimp only)

theorem execStartupStageComplete_within {m : Nat} {s t u : State} (h : Within m s t) (a0 : StageFind) (hm : 0x2abfffffffffff ||| m = m) (e : execStartupStageComplete a0 t = .next u) : Within m s u := by
  unfold execStartupStageComplete at e
  try dsimp only at e
  repeat' split at e
  all_goals (cases e; repeat' (first | with_reducible assumption | ((with_reducible refine Mask.sub hm ?_); first | exact rfl | (simp only [pageBit_ser]; exact rfl)) | ((with_reducible refine Mask.any (Mask.sub hm ?_) _); exact rfl) | with_reducible apply setReg_within | with_reducible apply nextStage_within | with_reducible exact Within.refl | intro _ | split | dsimp only))

theorem execColdHoldEnd_within {m : Nat} {s t u : State} (h : Within m s t) (hm : 0x80000006 ||| m = m) (e : execColdHoldEnd t = .next u) : Within m s u := by
  have b31 := Mask.has (i := 31) hm rfl
  unfold execColdHoldEnd at e
  obtain rfl := Host.Outcome.next.inj e
  split
  · refine setStage_within (setF_within ?_ _ _ _ (Mask.sub hm rfl)) _ (Mask.sub hm rfl)
    exact Within.upd h (.inl rfl) (.inl rfl) (.inl rfl) (.inl rfl) (.inl rfl) (.inl rfl) (.inl rfl) (.inr b31) (.inl rfl) (.inl rfl) (.inl rfl) (.inl rfl) (.inl rfl) (.inl rfl) (.inl rfl) (.inl rfl) (.inl rfl) (.inl rfl) (.inl rfl) (.inl rfl) (.inl rfl) (.inl rfl) (.inl rfl) (.inl rfl) (.inl rfl) (.inl rfl) (.inl rfl) (.inl rfl) (.inl rfl) (.inl rfl)
  · exact h

theorem domainClash_within {m : Nat} {s t : State} (h : Within m s t) (hm : 0x20804128000220 ||| m = m) : Within m s (domainClash t) := by
  have b32 := Mask.has (i := 32) hm rfl
  have b38 := Mask.has (i := 38) hm rfl
  have b47 := Mask.has (i := 47) hm rfl
  unfold domainClash
  repeat' (first | with_reducible assumption | ((with_reducible refine Mask.sub hm ?_); first | exact rfl | (simp only [pageBit_ser]; exact rfl)) | with_reducible apply setReg_within | with_reducible apply logPage_within | with_reducible apply raise_within | with_reducible exact Within.refl | ((with_reducible refine Within.upd ?_ (.inl rfl) (.inl rfl) (.inl rfl) (.inl rfl) (.inl rfl) (.inl rfl) (.inl rfl) (.inl rfl) (.inr b32) (.inl rfl) (.inl rfl) (.inl rfl) (.inl rfl) (.inl rfl) (.inr b38) (.inl rfl) (.inl rfl) (.inl rfl) (.inl rfl) (.inl rfl) (.inl rfl) (.inl rfl) (.inl rfl) (.inr b47) (.inl rfl) (.inl rfl) (.inl rfl) (.inl rfl) (.inl rfl) (.inl rfl)); first | with_reducible assumption | ((with_reducible refine Mask.sub hm ?_); first | exact rfl | (simp only [pageBit_ser]; exact rfl)) | with_reducible apply setReg_within | with_reducible apply logPage_within | with_reducible apply raise_within | with_reducible exact Within.refl | split) | intro _ | split | dsimp only)

theorem settleRole_within {m : Nat} {s t : State} (h : Within m s t) (hm : 0x20080820008200 ||| m = m) : Within m s (settleRole t) := by
  unfold settleRole
  repeat' (first | with_reducible assumption | ((with_reducible refine Mask.sub hm ?_); first | exact rfl | (simp only [pageBit_ser]; exact rfl)) | with_reducible apply setReg_within | with_reducible apply settleStandby_within | with_reducible apply pairBecomes_within | with_reducible exact Within.refl | intro _ | split | dsimp only)

theorem listenEnd_within {m : Nat} {s t : State} (h : Within m s t) (hm : 0x20884928008224 ||| m = m) : Within m s (listenEnd t) := by
  unfold listenEnd
  repeat' (first | with_reducible assumption | ((with_reducible refine Mask.sub hm ?_); first | exact rfl | (simp only [pageBit_ser]; exact rfl)) | with_reducible apply setReg_within | with_reducible apply domainClash_within | with_reducible apply settleRole_within | with_reducible apply beginBeaconing_within | with_reducible exact Within.refl | intro _ | split | dsimp only)

theorem execListenEnd_within {m : Nat} {s t u : State} (h : Within m s t) (hm : 0x20884928008224 ||| m = m) (e : execListenEnd t = .next u) : Within m s u := by
  unfold execListenEnd at e
  try dsimp only at e
  repeat' split at e
  all_goals (cases e; repeat' (first | with_reducible assumption | ((with_reducible refine Mask.sub hm ?_); first | exact rfl | (simp only [pageBit_ser]; exact rfl)) | with_reducible apply setReg_within | with_reducible apply listenEnd_within | with_reducible exact Within.refl | intro _ | split | dsimp only))

end Sys2Proof.Machine
end

