-- ==== Sys2Proof/Laws/WithinLaneRx.lean ====
section
/-! SUPPORT. Sys2Proof/Laws/WithinLaneRx.lean: the parts of a state that the operations of Machine/LaneRx.lean may change. -/
namespace Sys2Proof.Machine

theorem setPtp_within {m : Nat} {s t : State} (h : Within m s t) (a0 : PtpSt) (hm : 0x200000000000 ||| m = m) : Within m s (setPtp a0 t) := by
  unfold setPtp
  repeat' (first | with_reducible assumption | ((with_reducible refine Mask.sub hm ?_); first | exact rfl | (simp only [pageBit_ser]; exact rfl)) | with_reducible apply setReg_within | with_reducible apply setLink_within | with_reducible exact Within.refl | intro _ | split | dsimp only)

theorem showPhase_within {m : Nat} {s t : State} (h : Within m s t) (a0 : Nat) (a1 : Int) (hm : 0x100 ||| m = m) : Within m s (showPhase a0 a1 t) := by
  unfold showPhase
  repeat' (first | with_reducible assumption | ((with_reducible refine Mask.sub hm ?_); first | exact rfl | (simp only [pageBit_ser]; exact rfl)) | with_reducible apply setReg_within | with_reducible apply setI_within | with_reducible exact Within.refl | intro _ | split | dsimp only)

theorem ptpSync_within {m : Nat} {s t : State} (h : Within m s t) (a0 : Nat) (a1 : Int) (a2 : Int) (hm : 0x200000001100 ||| m = m) : Within m s (ptpSync a0 a1 a2 t) := by
  unfold ptpSync
  repeat' (first | with_reducible assumption | ((with_reducible refine Mask.sub hm ?_); first | exact rfl | (simp only [pageBit_lan, lanPage]; exact rfl)) | with_reducible apply setReg_within | with_reducible apply setF_within | with_reducible apply setB_within | with_reducible apply showPhase_within | with_reducible apply setPtp_within | with_reducible exact Within.refl | intro _ | split | dsimp only)

theorem ptpDelay_within {m : Nat} {s t : State} (h : Within m s t) (a0 : Nat) (a1 : Int) (hm : 0x1000 ||| m = m) : Within m s (ptpDelay a0 a1 t) := by
  unfold ptpDelay
  repeat' (first | with_reducible assumption | ((with_reducible refine Mask.sub hm ?_); first | exact rfl | (simp only [pageBit_lan, lanPage]; exact rfl)) | with_reducible apply setReg_within | with_reducible apply setF_within | with_reducible exact Within.refl | intro _ | split | dsimp only)

theorem pdelayAnswer_within {m : Nat} {s t : State} (h : Within m s t) (a0 : Nat) (a1 : List Byte) (a2 : Int) (hm : 0x20000000000000 ||| m = m) : Within m s (pdelayAnswer a0 a1 a2 t) := by
  unfold pdelayAnswer
  repeat' (first | with_reducible assumption | ((with_reducible refine Mask.sub hm ?_); first | exact rfl | (simp only [pageBit_ser]; exact rfl)) | with_reducible apply setReg_within | with_reducible apply emit_within | with_reducible exact Within.refl | intro _ | split | dsimp only)

theorem ptpIn_within {m : Nat} {s t : State} (h : Within m s t) (a0 : Nat) (a1 : List Byte) (a2 : Int) (a3 : Int) (hm : 0x20200000001100 ||| m = m) : Within m s (ptpIn a0 a1 a2 a3 t) := by
  unfold ptpIn
  repeat' (first | with_reducible assumption | ((with_reducible refine Mask.sub hm ?_); first | exact rfl | (simp only [pageBit_lan, lanPage]; exact rfl)) | with_reducible apply setReg_within | with_reducible apply setPtp_within | with_reducible apply ptpSync_within | with_reducible apply ptpDelay_within | with_reducible apply pdelayAnswer_within | with_reducible exact Within.refl | intro _ | split | dsimp only)

theorem execPtpMessage_within {m : Nat} {s t u : State} (h : Within m s t) (a0 : Lane) (a1 : List Byte) (a2 : BitVec 64) (a3 : BitVec 64) (hm : 0x20200000001100 ||| m = m) (e : execPtpMessage a0 a1 a2 a3 t = .next u) : Within m s u := by
  unfold execPtpMessage at e
  try dsimp only at e
  repeat' split at e
  all_goals (cases e; repeat' (first | with_reducible assumption | ((with_reducible refine Mask.sub hm ?_); first | exact rfl | (simp only [pageBit_ser]; exact rfl)) | with_reducible apply setReg_within | with_reducible apply ptpIn_within | with_reducible exact Within.refl | intro _ | split | dsimp only))

theorem laneDrop_within {m : Nat} {s t : State} (h : Within m s t) (a0 : Nat) (hm : 0x20000020001000 ||| m = m) : Within m s (laneDrop a0 t) := by
  unfold laneDrop
  repeat' (first | with_reducible assumption | ((with_reducible refine Mask.sub hm ?_); first | exact rfl | (simp only [pageBit_lan, lanPage]; exact rfl)) | with_reducible apply setReg_within | with_reducible apply raise_within | with_reducible apply count_within | with_reducible exact Within.refl | intro _ | split | dsimp only)

theorem downData_within {m : Nat} {s t : State} (h : Within m s t) (a0 : Nat) (a1 : Option Nat) (a2 : List Byte) (hm : 0x20b8002800aa28 ||| m = m) : Within m s (downData a0 a1 a2 t) := by
  unfold downData
  repeat' (first | with_reducible assumption | ((with_reducible refine Mask.sub hm ?_); first | exact rfl | (simp only [pageBit_ser]; exact rfl)) | with_reducible apply setReg_within | with_reducible apply takeDown_within | with_reducible apply dlDone_within | with_reducible exact Within.refl | intro _ | split | dsimp only)

theorem fromParent_within {m : Nat} {s t : State} (h : Within m s t) (a0 : Nat) (a1 : Int) (a2 : Int) (a3 : FrameIn) (hm : 0x28a8002005b200 ||| m = m) : Within m s (fromParent a0 a1 a2 a3 t) := by
  unfold fromParent
  repeat' (first | with_reducible assumption | ((with_reducible refine Mask.sub hm ?_); first | exact rfl | (simp only [pageBit_ser]; exact rfl)) | with_reducible apply setReg_within | with_reducible apply setLane_within | with_reducible apply laneSend_within | with_reducible apply parentBeacon_within | with_reducible apply parentAnswer_within | with_reducible apply parentData_within | with_reducible exact Within.refl | intro _ | split | dsimp only)

theorem fromChild_within {m : Nat} {s t : State} (h : Within m s t) (a0 : FrameIn) (hm : 0x28b8483c25ba28 ||| m = m) : Within m s (fromChild a0 t) := by
  unfold fromChild
  repeat' (first | with_reducible assumption | ((with_reducible refine Mask.sub hm ?_); first | exact rfl | (simp only [pageBit_ser]; exact rfl)) | with_reducible apply setReg_within | with_reducible apply dataFrame_within | with_reducible apply ackIn_within | with_reducible apply joinSolicit_within | with_reducible apply joinReq_within | with_reducible apply grantReq_within | with_reducible apply malformed_within | with_reducible exact Within.refl | intro _ | split | dsimp only)

theorem ngaelIn_within {m : Nat} {s t : State} (h : Within m s t) (a0 : Nat) (a1 : Int) (a2 : List Byte) (hm : 0x28b8483c25ba28 ||| m = m) : Within m s (ngaelIn a0 a1 a2 t) := by
  unfold ngaelIn
  repeat' (first | with_reducible assumption | ((with_reducible refine Mask.sub hm ?_); first | exact rfl | (simp only [pageBit_ser]; exact rfl)) | with_reducible apply setReg_within | with_reducible apply malformed_within | with_reducible apply flushLanes_within | with_reducible apply fromParent_within | with_reducible apply fromChild_within | with_reducible exact Within.refl | intro _ | split | dsimp only)

theorem dlyResp_within {m : Nat} {s t : State} (h : Within m s t) (a0 : Nat) (a1 : List Byte) (hm : 0x1100 ||| m = m) : Within m s (dlyResp a0 a1 t) := by
  unfold dlyResp
  repeat' (first | with_reducible assumption | ((with_reducible refine Mask.sub hm ?_); first | exact rfl | (simp only [pageBit_lan, lanPage]; exact rfl)) | with_reducible apply setReg_within | with_reducible apply showPhase_within | with_reducible apply setF_within | with_reducible exact Within.refl | intro _ | split | dsimp only)

theorem tunnelIn_within {m : Nat} {s t : State} (h : Within m s t) (a0 : Nat) (a1 : Nat) (a2 : Option Nat) (a3 : List Byte) (a4 : Int) (hm : 0x28b8483c25bb28 ||| m = m) : Within m s (tunnelIn a0 a1 a2 a3 a4 t) := by
  unfold tunnelIn
  repeat' (first | with_reducible assumption | ((with_reducible refine Mask.sub hm ?_); first | exact rfl | (simp only [pageBit_ser]; exact rfl)) | with_reducible apply setReg_within | with_reducible apply downData_within | with_reducible apply ngaelIn_within | with_reducible apply laneSend_within | with_reducible apply dlyResp_within | with_reducible exact Within.refl | intro _ | split | dsimp only)

theorem tunnelFrame_within {m : Nat} {s t : State} (h : Within m s t) (a0 : Nat) (a1 : LaneRx) (hm : 0x28b8483c25bb28 ||| m = m) : Within m s (tunnelFrame a0 a1 t) := by
  unfold tunnelFrame
  repeat' (first | with_reducible assumption | ((with_reducible refine Mask.sub hm ?_); first | exact rfl | (simp only [pageBit_lan, lanPage]; exact rfl)) | with_reducible apply setReg_within | with_reducible apply laneDrop_within | with_reducible apply tunnelIn_within | with_reducible apply count_within | with_reducible exact Within.refl | intro _ | split | dsimp only)

theorem laneRx_within {m : Nat} {s t : State} (h : Within m s t) (a0 : Nat) (a1 : LaneRx) (hm : 0x28b8483c25bb28 ||| m = m) : Within m s (laneRx a0 a1 t) := by
  unfold laneRx
  repeat' (first | with_reducible assumption | ((with_reducible refine Mask.sub hm ?_); first | exact rfl | (simp only [pageBit_lan, lanPage]; exact rfl)) | with_reducible apply setReg_within | with_reducible apply raise_within | with_reducible apply count_within | with_reducible apply pauseIn_within | with_reducible apply ptpIn_within | with_reducible apply tunnelFrame_within | with_reducible apply laneDrop_within | with_reducible exact Within.refl | intro _ | split | dsimp only)

theorem execTunnelFrameReceived_within {m : Nat} {s t u : State} (h : Within m s t) (a0 : Lane) (a1 : LaneRx) (hm : 0x28b8483c25bb28 ||| m = m) (e : execTunnelFrameReceived a0 a1 t = .next u) : Within m s u := by
  unfold execTunnelFrameReceived at e
  try dsimp only at e
  repeat' split at e
  all_goals (cases e; repeat' (first | with_reducible assumption | ((with_reducible refine Mask.sub hm ?_); first | exact rfl | (simp only [pageBit_ser]; exact rfl)) | with_reducible apply setReg_within | with_reducible apply laneRx_within | with_reducible exact Within.refl | intro _ | split | dsimp only))

end Sys2Proof.Machine
end

