-- ==== Sys2Proof/Laws/WithinPwr.lean ====
section
/-! SUPPORT. Sys2Proof/Laws/WithinPwr.lean: the parts of a state that the operations of Machine/Pwr.lean may change. -/
namespace Sys2Proof.Machine

theorem setPwr_within {m : Nat} {s t : State} (h : Within m s t) (a0 : PwrSt) (hm : 0x80000000 ||| m = m) : Within m s (setPwr a0 t) := by
  have b31 := Mask.has (i := 31) hm rfl
  unfold setPwr
  repeat' (first | with_reducible assumption | ((with_reducible refine Mask.sub hm ?_); first | exact rfl | (simp only [pageBit_ser]; exact rfl)) | with_reducible apply setReg_within | with_reducible exact Within.refl | ((with_reducible refine Within.upd ?_ (.inl rfl) (.inl rfl) (.inl rfl) (.inl rfl) (.inl rfl) (.inl rfl) (.inl rfl) (.inr b31) (.inl rfl) (.inl rfl) (.inl rfl) (.inl rfl) (.inl rfl) (.inl rfl) (.inl rfl) (.inl rfl) (.inl rfl) (.inl rfl) (.inl rfl) (.inl rfl) (.inl rfl) (.inl rfl) (.inl rfl) (.inl rfl) (.inl rfl) (.inl rfl) (.inl rfl) (.inl rfl) (.inl rfl) (.inl rfl)); first | with_reducible assumption | ((with_reducible refine Mask.sub hm ?_); first | exact rfl | (simp only [pageBit_ser]; exact rfl)) | with_reducible apply setReg_within | with_reducible exact Within.refl | split) | intro _ | split | dsimp only)

theorem noteSupply_within {m : Nat} {s t : State} (h : Within m s t) (a0 : Nat) (hm : 0x20000028000022 ||| m = m) : Within m s (noteSupply a0 t) := by
  unfold noteSupply
  repeat' (first | with_reducible assumption | ((with_reducible refine Mask.sub hm ?_); first | exact rfl | (simp only [pageBit_ser]; exact rfl)) | with_reducible apply setReg_within | with_reducible apply logPage_within | with_reducible apply raise_within | with_reducible exact Within.refl | intro _ | split | dsimp only)

theorem showVolts_within {m : Nat} {s t : State} (h : Within m s t) (a0 : Field) (a1 : BitVec 16) (hm : 0x2 ||| m = m) : Within m s (showVolts a0 a1 t) := by
  unfold showVolts
  repeat' (first | with_reducible assumption | ((with_reducible refine Mask.sub hm ?_); first | exact rfl | (simp only [pageBit_ser]; exact rfl)) | with_reducible apply setReg_within | with_reducible apply setF_within | with_reducible exact Within.refl | intro _ | split | dsimp only)

theorem settleSource_within {m : Nat} {s t : State} (h : Within m s t) (hm : 0x80000002 ||| m = m) : Within m s (settleSource t) := by
  unfold settleSource
  repeat' (first | with_reducible assumption | ((with_reducible refine Mask.sub hm ?_); first | exact rfl | (simp only [pageBit_ser]; exact rfl)) | with_reducible apply setReg_within | with_reducible apply setF_within | with_reducible apply setPwr_within | with_reducible exact Within.refl | intro _ | split | dsimp only)

theorem cancelEntry_within {m : Nat} {s t : State} (h : Within m s t) (hm : 0x200000b4000802 ||| m = m) : Within m s (cancelEntry t) := by
  unfold cancelEntry
  repeat' (first | with_reducible assumption | ((with_reducible refine Mask.sub hm ?_); first | exact rfl | (simp only [pageBit_ser]; exact rfl)) | with_reducible apply setReg_within | with_reducible apply setPwr_within | with_reducible apply done_within | with_reducible exact Within.refl | intro _ | split | dsimp only)

theorem mainOk_within {m : Nat} {s t : State} (h : Within m s t) (a0 : BitVec 16) (hm : 0x27ffffffffffff ||| m = m) : Within m s (mainOk a0 t) := by
  unfold mainOk
  repeat' (first | with_reducible assumption | ((with_reducible refine Mask.sub hm ?_); first | exact rfl | (simp only [pageBit_ser]; exact rfl)) | ((with_reducible refine Mask.any (Mask.sub hm ?_) _); exact rfl) | with_reducible apply setReg_within | with_reducible apply settleSource_within | with_reducible apply setB_within | with_reducible apply showVolts_within | with_reducible apply wake_within | with_reducible apply cancelEntry_within | with_reducible apply noteSupply_within | with_reducible apply setPwr_within | with_reducible exact Within.refl | intro _ | split | dsimp only)

theorem execMainOk_within {m : Nat} {s t u : State} (h : Within m s t) (a0 : BitVec 16) (hm : 0x27ffffffffffff ||| m = m) (e : execMainOk a0 t = .next u) : Within m s u := by
  unfold execMainOk at e
  try dsimp only at e
  repeat' split at e
  all_goals (cases e; repeat' (first | with_reducible assumption | ((with_reducible refine Mask.sub hm ?_); first | exact rfl | (simp only [pageBit_ser]; exact rfl)) | ((with_reducible refine Mask.any (Mask.sub hm ?_) _); exact rfl) | with_reducible apply setReg_within | with_reducible apply mainOk_within | with_reducible exact Within.refl | intro _ | split | dsimp only))

theorem execMainFailed_within {m : Nat} {s t u : State} (h : Within m s t) (a0 : BitVec 16) (hm : 0x200000a8000022 ||| m = m) (e : execMainFailed a0 t = .next u) : Within m s u := by
  unfold execMainFailed at e
  try dsimp only at e
  repeat' split at e
  all_goals (cases e; repeat' (first | with_reducible assumption | ((with_reducible refine Mask.sub hm ?_); first | exact rfl | (simp only [pageBit_ser]; exact rfl)) | with_reducible apply setReg_within | with_reducible apply settleSource_within | with_reducible apply setB_within | with_reducible apply showVolts_within | with_reducible apply noteSupply_within | with_reducible exact Within.refl | intro _ | split | dsimp only))

theorem execBackupStandbyReturn_within {m : Nat} {s t u : State} (h : Within m s t) (hm : 0x80000000 ||| m = m) (e : execBackupStandbyReturn t = .next u) : Within m s u := by
  unfold execBackupStandbyReturn at e
  try dsimp only at e
  repeat' split at e
  all_goals (cases e; repeat' (first | with_reducible assumption | ((with_reducible refine Mask.sub hm ?_); first | exact rfl | (simp only [pageBit_ser]; exact rfl)) | with_reducible apply setReg_within | with_reducible apply setPwr_within | with_reducible exact Within.refl | intro _ | split | dsimp only))

theorem execBackupOk_within {m : Nat} {s t u : State} (h : Within m s t) (a0 : BitVec 16) (hm : 0x200000a0000002 ||| m = m) (e : execBackupOk a0 t = .next u) : Within m s u := by
  unfold execBackupOk at e
  try dsimp only at e
  repeat' split at e
  all_goals (cases e; repeat' (first | with_reducible assumption | ((with_reducible refine Mask.sub hm ?_); first | exact rfl | (simp only [pageBit_ser]; exact rfl)) | with_reducible apply setReg_within | with_reducible apply setB_within | with_reducible apply showVolts_within | with_reducible apply settleSource_within | with_reducible apply raise_within | with_reducible exact Within.refl | intro _ | split | dsimp only))

theorem execBackupFailed_within {m : Nat} {s t u : State} (h : Within m s t) (a0 : BitVec 16) (a1 : Bool) (hm : 0x200000a8000022 ||| m = m) (e : execBackupFailed a0 a1 t = .next u) : Within m s u := by
  unfold execBackupFailed at e
  try dsimp only at e
  repeat' split at e
  all_goals (cases e; repeat' (first | with_reducible assumption | ((with_reducible refine Mask.sub hm ?_); first | exact rfl | (simp only [pageBit_ser]; exact rfl)) | with_reducible apply setReg_within | with_reducible apply setB_within | with_reducible apply showVolts_within | with_reducible apply settleSource_within | with_reducible apply raise_within | with_reducible apply noteSupply_within | with_reducible exact Within.refl | intro _ | split | dsimp only))

theorem execBackupLow_within {m : Nat} {s t u : State} (h : Within m s t) (a0 : BitVec 16) (hm : 0x20000028000022 ||| m = m) (e : execBackupLow a0 t = .next u) : Within m s u := by
  unfold execBackupLow at e
  try dsimp only at e
  repeat' split at e
  all_goals (cases e; repeat' (first | with_reducible assumption | ((with_reducible refine Mask.sub hm ?_); first | exact rfl | (simp only [pageBit_ser]; exact rfl)) | with_reducible apply setReg_within | with_reducible apply noteSupply_within | with_reducible apply showVolts_within | with_reducible exact Within.refl | intro _ | split | dsimp only))

theorem endStore_within {m : Nat} {s t : State} (h : Within m s t) (hm : 0x30420036000c00 ||| m = m) : Within m s (endStore t) := by
  unfold endStore
  repeat' (first | with_reducible assumption | ((with_reducible refine Mask.sub hm ?_); first | exact rfl | (simp only [pageBit_ser]; exact rfl)) | with_reducible apply setReg_within | with_reducible apply finishBlocks_within | with_reducible exact Within.refl | intro _ | split | dsimp only)

theorem enterDormouse_within {m : Nat} {s t : State} (h : Within m s t) (hm : 0x37ffffffffffff ||| m = m) : Within m s (enterDormouse t) := by
  unfold enterDormouse
  repeat' (first | with_reducible assumption | ((with_reducible refine Mask.sub hm ?_); first | exact rfl | (simp only [pageBit_ser]; exact rfl)) | ((with_reducible refine Mask.any (Mask.sub hm ?_) _); exact rfl) | with_reducible apply setReg_within | with_reducible apply endStore_within | with_reducible apply stopSelfCal_within | with_reducible apply allDriversOff_within | with_reducible apply linkTime_within | with_reducible apply logFlush_within | with_reducible apply logEvent_within | with_reducible apply done_within | with_reducible apply lose_within | with_reducible apply resetCommands_within | with_reducible apply setPwr_within | with_reducible apply resetKill_within | with_reducible exact Within.refl | intro _ | split | dsimp only)

theorem runEnterDormouse_within {m : Nat} {s t : State} (h : Within m s t) (a0 : Outstanding) (hm : 0x37ffffffffffff ||| m = m) : Within m s (runEnterDormouse a0 t) := by
  unfold runEnterDormouse
  repeat' (first | with_reducible assumption | ((with_reducible refine Mask.sub hm ?_); first | exact rfl | (simp only [pageBit_ser]; exact rfl)) | ((with_reducible refine Mask.any (Mask.sub hm ?_) _); exact rfl) | with_reducible apply setReg_within | with_reducible apply enterDormouse_within | with_reducible apply done_within | with_reducible exact Within.refl | intro _ | split | dsimp only)

theorem execEnterDormouse_within {m : Nat} {s t u : State} (h : Within m s t) (a0 : CmdSrc) (hm : 0x37ffffffffffff ||| m = m) (e : execEnterDormouse a0 t = .next u) : Within m s u := by
  unfold execEnterDormouse at e
  try dsimp only at e
  repeat' split at e
  all_goals (cases e; repeat' (first | with_reducible assumption | ((with_reducible refine Mask.sub hm ?_); first | exact rfl | (simp only [pageBit_ser]; exact rfl)) | ((with_reducible refine Mask.any (Mask.sub hm ?_) _); exact rfl) | with_reducible apply setReg_within | with_reducible apply issue_within | with_reducible apply runEnterDormouse_within | with_reducible exact Within.refl | intro _ | split | dsimp only))

theorem execDormOnLowExpiry_within {m : Nat} {s t u : State} (h : Within m s t) (hm : 0x37ffffffffffff ||| m = m) (e : execDormOnLowExpiry t = .next u) : Within m s u := by
  unfold execDormOnLowExpiry at e
  try dsimp only at e
  repeat' split at e
  all_goals (cases e; repeat' (first | with_reducible assumption | ((with_reducible refine Mask.sub hm ?_); first | exact rfl | (simp only [pageBit_ser]; exact rfl)) | ((with_reducible refine Mask.any (Mask.sub hm ?_) _); exact rfl) | with_reducible apply setReg_within | with_reducible apply enterDormouse_within | with_reducible exact Within.refl | intro _ | split | dsimp only))

theorem execOutageDelayExpiry_within {m : Nat} {s t u : State} (h : Within m s t) (hm : 0x80000000 ||| m = m) (e : execOutageDelayExpiry t = .next u) : Within m s u := by
  unfold execOutageDelayExpiry at e
  try dsimp only at e
  repeat' split at e
  all_goals (cases e; repeat' (first | with_reducible assumption | ((with_reducible refine Mask.sub hm ?_); first | exact rfl | (simp only [pageBit_ser]; exact rfl)) | with_reducible apply setReg_within | with_reducible apply setPwr_within | with_reducible exact Within.refl | intro _ | split | dsimp only))

theorem runEnterOutage_within {m : Nat} {s t : State} (h : Within m s t) (a0 : Outstanding) (hm : 0x20000034000802 ||| m = m) : Within m s (runEnterOutage a0 t) := by
  unfold runEnterOutage
  repeat' (first | with_reducible assumption | ((with_reducible refine Mask.sub hm ?_); first | exact rfl | (simp only [pageBit_ser]; exact rfl)) | with_reducible apply setReg_within | with_reducible apply done_within | with_reducible exact Within.refl | intro _ | split | dsimp only)

theorem execEnterOutage_within {m : Nat} {s t u : State} (h : Within m s t) (a0 : CmdSrc) (hm : 0x20000034000802 ||| m = m) (e : execEnterOutage a0 t = .next u) : Within m s u := by
  unfold execEnterOutage at e
  try dsimp only at e
  repeat' split at e
  all_goals (cases e; repeat' (first | with_reducible assumption | ((with_reducible refine Mask.sub hm ?_); first | exact rfl | (simp only [pageBit_ser]; exact rfl)) | with_reducible apply setReg_within | with_reducible apply issue_within | with_reducible apply runEnterOutage_within | with_reducible exact Within.refl | intro _ | split | dsimp only))

theorem runLeaveOutage_within {m : Nat} {s t : State} (h : Within m s t) (a0 : Outstanding) (hm : 0x20000034000802 ||| m = m) : Within m s (runLeaveOutage a0 t) := by
  unfold runLeaveOutage
  repeat' (first | with_reducible assumption | ((with_reducible refine Mask.sub hm ?_); first | exact rfl | (simp only [pageBit_ser]; exact rfl)) | with_reducible apply setReg_within | with_reducible apply done_within | with_reducible exact Within.refl | intro _ | split | dsimp only)

theorem execLeaveOutage_within {m : Nat} {s t u : State} (h : Within m s t) (a0 : CmdSrc) (hm : 0x20000034000802 ||| m = m) (e : execLeaveOutage a0 t = .next u) : Within m s u := by
  unfold execLeaveOutage at e
  try dsimp only at e
  repeat' split at e
  all_goals (cases e; repeat' (first | with_reducible assumption | ((with_reducible refine Mask.sub hm ?_); first | exact rfl | (simp only [pageBit_ser]; exact rfl)) | with_reducible apply setReg_within | with_reducible apply issue_within | with_reducible apply runLeaveOutage_within | with_reducible exact Within.refl | intro _ | split | dsimp only))

theorem decidePower_within {m : Nat} {s t : State} (h : Within m s t) (hm : 0x200000bc000822 ||| m = m) : Within m s (decidePower t) := by
  unfold decidePower
  repeat' (first | with_reducible assumption | ((with_reducible refine Mask.sub hm ?_); first | exact rfl | (simp only [pageBit_ser]; exact rfl)) | with_reducible apply setReg_within | with_reducible apply done_within | with_reducible apply setPhase_within | with_reducible apply setPwr_within | with_reducible apply noteSupply_within | with_reducible exact Within.refl | intro _ | split | dsimp only)

theorem plannedState_within {m : Nat} {s t : State} (h : Within m s t) (hm : 0x80000000 ||| m = m) : Within m s (plannedState t) := by
  unfold plannedState
  repeat' (first | with_reducible assumption | ((with_reducible refine Mask.sub hm ?_); first | exact rfl | (simp only [pageBit_ser]; exact rfl)) | with_reducible apply setReg_within | with_reducible apply setPwr_within | with_reducible exact Within.refl | intro _ | split | dsimp only)

theorem followPower_within {m : Nat} {s t : State} (h : Within m s t) (hm : 0x20200021843800 ||| m = m) : Within m s (followPower t) := by
  unfold followPower
  repeat' (first | with_reducible assumption | ((with_reducible refine Mask.sub hm ?_); first | exact rfl | (simp only [pageBit_ser]; exact rfl)) | with_reducible apply setReg_within | with_reducible apply refreshChain_within | with_reducible apply laneFall_within | with_reducible apply mirrorFall_within | with_reducible apply refreshGate_within | with_reducible apply refreshEngines_within | with_reducible apply Within.foldl | with_reducible exact Within.refl | intro _ | split | dsimp only)

theorem applyPower_within {m : Nat} {s t : State} (h : Within m s t) (hm : 0x202400bd843822 ||| m = m) : Within m s (applyPower t) := by
  unfold applyPower
  repeat' (first | with_reducible assumption | ((with_reducible refine Mask.sub hm ?_); first | exact rfl | (simp only [pageBit_ser]; exact rfl)) | with_reducible apply setReg_within | with_reducible apply setF_within | with_reducible apply setPwr_within | with_reducible apply linkTime_within | with_reducible apply followPower_within | with_reducible apply raise_within | with_reducible apply done_within | with_reducible exact Within.refl | intro _ | split | dsimp only)

theorem abortPower_within {m : Nat} {s t : State} (h : Within m s t) (a0 : Outstanding) (hm : 0x200000b4000802 ||| m = m) : Within m s (abortPower a0 t) := by
  unfold abortPower
  repeat' (first | with_reducible assumption | ((with_reducible refine Mask.sub hm ?_); first | exact rfl | (simp only [pageBit_ser]; exact rfl)) | with_reducible apply setReg_within | with_reducible apply done_within | with_reducible apply setPwr_within | with_reducible exact Within.refl | intro _ | split | dsimp only)

theorem gaspMirror_within {m : Nat} {s t : State} (h : Within m s t) (a0 : Fin 2) (a1 : TunnelFrame) (hm : 0x20000000002000 ||| m = m) : Within m s (gaspMirror a0 a1 t) := by
  unfold gaspMirror
  repeat' (first | with_reducible assumption | ((with_reducible refine Mask.sub hm ?_); first | exact rfl | (simp only [pageBit_lanm]; exact rfl)) | with_reducible apply setReg_within | with_reducible apply count_within | with_reducible apply emit_within | with_reducible exact Within.refl | intro _ | split | dsimp only)

theorem deliverEvents_within {m : Nat} {s t : State} (h : Within m s t) (a0 : Nat) (hm : 0x20200038000820 ||| m = m) : Within m s (deliverEvents a0 t) := by
  induction a0 generalizing t with
  | zero =>
    unfold deliverEvents
    repeat' (first | with_reducible assumption | with_reducible apply ih | ((with_reducible refine Mask.sub hm ?_); first | exact rfl | (simp only [pageBit_ser]; exact rfl)) | with_reducible apply setReg_within | with_reducible apply eventDelivery_within | with_reducible exact Within.refl | intro _ | split | dsimp only)
  | succ _ ih =>
    unfold deliverEvents
    repeat' (first | with_reducible assumption | with_reducible apply ih | ((with_reducible refine Mask.sub hm ?_); first | exact rfl | (simp only [pageBit_ser]; exact rfl)) | with_reducible apply setReg_within | with_reducible apply eventDelivery_within | with_reducible exact Within.refl | intro _ | split | dsimp only)

theorem sendLastGasp_within {m : Nat} {s t : State} (h : Within m s t) (a0 : Nat) (hm : 0x20200038003820 ||| m = m) : Within m s (sendLastGasp a0 t) := by
  unfold sendLastGasp
  repeat' (first | with_reducible assumption | ((with_reducible refine Mask.sub hm ?_); first | exact rfl | (simp only [pageBit_ser]; exact rfl)) | with_reducible apply setReg_within | with_reducible apply laneSend_within | with_reducible apply gaspMirror_within | with_reducible apply hostEvent_within | with_reducible apply deliverEvents_within | with_reducible apply Within.foldl | with_reducible exact Within.refl | intro _ | split | dsimp only)

theorem execTestLastGasp_within {m : Nat} {s t u : State} (h : Within m s t) (a0 : CmdSrc) (hm : 0x2020003c003822 ||| m = m) (e : execTestLastGasp a0 t = .next u) : Within m s u := by
  unfold execTestLastGasp at e
  try dsimp only at e
  repeat' split at e
  all_goals (cases e; repeat' (first | with_reducible assumption | ((with_reducible refine Mask.sub hm ?_); first | exact rfl | (simp only [pageBit_ser]; exact rfl)) | with_reducible apply setReg_within | with_reducible apply issue_within | with_reducible apply done_within | with_reducible apply sendLastGasp_within | with_reducible exact Within.refl | intro _ | split | dsimp only))

theorem shedLoad_within {m : Nat} {s t : State} (h : Within m s t) (hm : 0x2003a0a1800008 ||| m = m) : Within m s (shedLoad t) := by
  unfold shedLoad
  repeat' (first | with_reducible assumption | ((with_reducible refine Mask.sub hm ?_); first | exact rfl | (simp only [pageBit_ser]; exact rfl)) | with_reducible apply setReg_within | with_reducible apply diagReport_within | with_reducible apply kill_within | with_reducible apply gateCluster_within | with_reducible apply setPwr_within | with_reducible apply Within.foldl | with_reducible exact Within.refl | intro _ | split | dsimp only)

theorem closeStore_within {m : Nat} {s t : State} (h : Within m s t) (a0 : Nat) (a1 : Nat) (hm : 0x3046003e000c20 ||| m = m) : Within m s (closeStore a0 a1 t) := by
  unfold closeStore
  repeat' (first | with_reducible assumption | ((with_reducible refine Mask.sub hm ?_); first | exact rfl | (simp only [pageBit_ser]; exact rfl)) | with_reducible apply setReg_within | with_reducible apply setReady_within | with_reducible apply stopBlocks_within | with_reducible apply logFlush_within | with_reducible apply linkTime_within | with_reducible apply logEvent_within | with_reducible exact Within.refl | intro _ | split | dsimp only)

theorem goOff_within {m : Nat} {s t : State} (h : Within m s t) (hm : 0x27ffffffffffff ||| m = m) : Within m s (goOff t) := by
  unfold goOff
  repeat' (first | with_reducible assumption | ((with_reducible refine Mask.sub hm ?_); first | exact rfl | (simp only [pageBit_ser]; exact rfl)) | ((with_reducible refine Mask.any (Mask.sub hm ?_) _); exact rfl) | with_reducible apply setReg_within | with_reducible apply lose_within | with_reducible apply resetCommands_within | with_reducible apply setPwr_within | with_reducible exact Within.refl | intro _ | split | dsimp only)

theorem bothFailed_within {m : Nat} {s t : State} (h : Within m s t) (a0 : BitVec 16) (a1 : BitVec 16) (a2 : Bool) (a3 : Nat) (hm : 0x3067a0bf803c2a ||| m = m) : Within m s (bothFailed a0 a1 a2 a3 t) := by
  unfold bothFailed
  repeat' (first | with_reducible assumption | ((with_reducible refine Mask.sub hm ?_); first | exact rfl | (simp only [pageBit_ser]; exact rfl)) | with_reducible apply setReg_within | with_reducible apply showVolts_within | with_reducible apply setB_within | with_reducible apply setF_within | with_reducible apply shedLoad_within | with_reducible apply closeStore_within | with_reducible apply sendLastGasp_within | with_reducible exact Within.refl | intro _ | split | dsimp only)

theorem execBothFailed_within {m : Nat} {s t u : State} (h : Within m s t) (main backup : BitVec 16) (together : Bool) (blocks : Nat) (hm : 0x37ffffffffffff ||| m = m) (e : execBothFailed main backup together blocks t = .next u) : Within m s u := by
  unfold execBothFailed at e
  obtain rfl := Host.Outcome.next.inj e
  split
  · exact goOff_within h (Mask.sub hm rfl)
  · split
    · exact bothFailed_within h _ _ _ _ (Mask.sub hm rfl)
    · exact h

theorem powerOn_within {m : Nat} {s t : State} (h : Within m s t) (a0 : Bool) (a1 : Bool) (a2 : BitVec 16) (a3 : Bool) (hm : 0x27ffffffffffff ||| m = m) : Within m s (powerOn a0 a1 a2 a3 t) := by
  have b30 := Mask.has (i := 30) hm rfl
  unfold powerOn
  repeat' (first | with_reducible assumption | ((with_reducible refine Mask.sub hm ?_); first | exact rfl | (simp only [pageBit_ser]; exact rfl)) | ((with_reducible refine Mask.any (Mask.sub hm ?_) _); exact rfl) | with_reducible apply setReg_within | with_reducible apply restart_within | with_reducible apply setB_within | with_reducible apply settleSource_within | with_reducible apply showVolts_within | with_reducible exact Within.refl | ((with_reducible refine Within.upd ?_ (.inl rfl) (.inl rfl) (.inl rfl) (.inl rfl) (.inl rfl) (.inl rfl) (.inr b30) (.inl rfl) (.inl rfl) (.inl rfl) (.inl rfl) (.inl rfl) (.inl rfl) (.inl rfl) (.inl rfl) (.inl rfl) (.inl rfl) (.inl rfl) (.inl rfl) (.inl rfl) (.inl rfl) (.inl rfl) (.inl rfl) (.inl rfl) (.inl rfl) (.inl rfl) (.inl rfl) (.inl rfl) (.inl rfl) (.inl rfl)); first | with_reducible assumption | ((with_reducible refine Mask.sub hm ?_); first | exact rfl | (simp only [pageBit_ser]; exact rfl)) | ((with_reducible refine Mask.any (Mask.sub hm ?_) _); exact rfl) | with_reducible apply setReg_within | with_reducible apply restart_within | with_reducible apply setB_within | with_reducible apply settleSource_within | with_reducible apply showVolts_within | with_reducible exact Within.refl | split) | intro _ | split | dsimp only)

theorem execPowerOn_within {m : Nat} {s t u : State} (h : Within m s t) (a0 : Bool) (a1 : BitVec 16) (a2 : Bool) (hm : 0x27ffffffffffff ||| m = m) (e : execPowerOn a0 a1 a2 t = .next u) : Within m s u := by
  unfold execPowerOn at e
  try dsimp only at e
  repeat' split at e
  all_goals (cases e; repeat' (first | with_reducible assumption | ((with_reducible refine Mask.sub hm ?_); first | exact rfl | (simp only [pageBit_ser]; exact rfl)) | ((with_reducible refine Mask.any (Mask.sub hm ?_) _); exact rfl) | with_reducible apply setReg_within | with_reducible apply powerOn_within | with_reducible exact Within.refl | intro _ | split | dsimp only))

theorem execShutdownComplete_within {m : Nat} {s t u : State} (h : Within m s t) (hm : 0x27ffffffffffff ||| m = m) (e : execShutdownComplete t = .next u) : Within m s u := by
  unfold execShutdownComplete at e
  obtain rfl := Host.Outcome.next.inj e
  split
  · exact h
  · dsimp only
    split
    · exact powerOn_within (goOff_within h (Mask.sub hm rfl)) _ _ _ _ (Mask.sub hm rfl)
    · exact goOff_within h (Mask.sub hm rfl)

theorem execRtcAlarm_within {m : Nat} {s t u : State} (h : Within m s t) (hm : 0x27ffffffffffff ||| m = m) (e : execRtcAlarm t = .next u) : Within m s u := by
  have b30 := Mask.has (i := 30) hm rfl
  unfold execRtcAlarm at e
  try dsimp only at e
  repeat' split at e
  all_goals (cases e; repeat' (first | with_reducible assumption | ((with_reducible refine Mask.sub hm ?_); first | exact rfl | (simp only [pageBit_ser]; exact rfl)) | ((with_reducible refine Mask.any (Mask.sub hm ?_) _); exact rfl) | with_reducible apply setReg_within | with_reducible apply wake_within | with_reducible apply raise_within | with_reducible exact Within.refl | ((with_reducible refine Within.upd ?_ (.inl rfl) (.inl rfl) (.inl rfl) (.inl rfl) (.inl rfl) (.inl rfl) (.inr b30) (.inl rfl) (.inl rfl) (.inl rfl) (.inl rfl) (.inl rfl) (.inl rfl) (.inl rfl) (.inl rfl) (.inl rfl) (.inl rfl) (.inl rfl) (.inl rfl) (.inl rfl) (.inl rfl) (.inl rfl) (.inl rfl) (.inl rfl) (.inl rfl) (.inl rfl) (.inl rfl) (.inl rfl) (.inl rfl) (.inl rfl)); first | with_reducible assumption | ((with_reducible refine Mask.sub hm ?_); first | exact rfl | (simp only [pageBit_ser]; exact rfl)) | ((with_reducible refine Mask.any (Mask.sub hm ?_) _); exact rfl) | with_reducible apply setReg_within | with_reducible apply wake_within | with_reducible apply raise_within | with_reducible exact Within.refl | split) | intro _ | split | dsimp only))

theorem execPwrRtcLoRead_within {m : Nat} {s t u : State} (h : Within m s t) (hm : 0x20000040000000 ||| m = m) (e : execPwrRtcLoRead t = .next u) : Within m s u := by
  have b30 := Mask.has (i := 30) hm rfl
  unfold execPwrRtcLoRead at e
  try dsimp only at e
  repeat' split at e
  all_goals (cases e; repeat' (first | with_reducible assumption | ((with_reducible refine Mask.sub hm ?_); first | exact rfl | (simp only [pageBit_ser]; exact rfl)) | with_reducible apply setReg_within | with_reducible apply returnWord_within | with_reducible exact Within.refl | ((with_reducible refine Within.upd ?_ (.inl rfl) (.inl rfl) (.inl rfl) (.inl rfl) (.inl rfl) (.inl rfl) (.inr b30) (.inl rfl) (.inl rfl) (.inl rfl) (.inl rfl) (.inl rfl) (.inl rfl) (.inl rfl) (.inl rfl) (.inl rfl) (.inl rfl) (.inl rfl) (.inl rfl) (.inl rfl) (.inl rfl) (.inl rfl) (.inl rfl) (.inl rfl) (.inl rfl) (.inl rfl) (.inl rfl) (.inl rfl) (.inl rfl) (.inl rfl)); first | with_reducible assumption | ((with_reducible refine Mask.sub hm ?_); first | exact rfl | (simp only [pageBit_ser]; exact rfl)) | with_reducible apply setReg_within | with_reducible apply returnWord_within | with_reducible exact Within.refl | split) | intro _ | split | dsimp only))

theorem execPwrRtcAlarmLoWrite_within {m : Nat} {s t u : State} (h : Within m s t) (a0 : Word) (hm : 0x80000002 ||| m = m) (e : execPwrRtcAlarmLoWrite a0 t = .next u) : Within m s u := by
  unfold execPwrRtcAlarmLoWrite at e
  try dsimp only at e
  repeat' split at e
  all_goals (cases e; repeat' (first | with_reducible assumption | ((with_reducible refine Mask.sub hm ?_); first | exact rfl | (simp only [pageBit_ser]; exact rfl)) | with_reducible apply setReg_within | with_reducible apply setPwr_within | with_reducible exact Within.refl | intro _ | split | dsimp only))

end Sys2Proof.Machine
end

