-- ==== Sys2Proof/Laws/WithinGrid.lean ====
section
/-! SUPPORT. Sys2Proof/Laws/WithinGrid.lean: the parts of a state that the operations of Machine/Grid.lean may change. -/
namespace Sys2Proof.Machine

theorem setEpoch_within {m : Nat} {s t : State} (h : Within m s t) (a0 : Option Nat) (hm : 0x2000004000 ||| m = m) : Within m s (setEpoch a0 t) := by
  have b37 := Mask.has (i := 37) hm rfl
  unfold setEpoch
  repeat' (first | with_reducible assumption | ((with_reducible refine Mask.sub hm ?_); first | exact rfl | (simp only [pageBit_ser]; exact rfl)) | with_reducible apply setReg_within | with_reducible apply setB_within | with_reducible exact Within.refl | ((with_reducible refine Within.upd ?_ (.inl rfl) (.inl rfl) (.inl rfl) (.inl rfl) (.inl rfl) (.inl rfl) (.inl rfl) (.inl rfl) (.inl rfl) (.inl rfl) (.inl rfl) (.inl rfl) (.inl rfl) (.inr b37) (.inl rfl) (.inl rfl) (.inl rfl) (.inl rfl) (.inl rfl) (.inl rfl) (.inl rfl) (.inl rfl) (.inl rfl) (.inl rfl) (.inl rfl) (.inl rfl) (.inl rfl) (.inl rfl) (.inl rfl) (.inl rfl)); first | with_reducible assumption | ((with_reducible refine Mask.sub hm ?_); first | exact rfl | (simp only [pageBit_ser]; exact rfl)) | with_reducible apply setReg_within | with_reducible apply setB_within | with_reducible exact Within.refl | split) | intro _ | split | dsimp only)

theorem epochWritten_within {m : Nat} {s t : State} (h : Within m s t) (hm : 0x2000004000 ||| m = m) : Within m s (epochWritten t) := by
  unfold epochWritten
  repeat' (first | with_reducible assumption | ((with_reducible refine Mask.sub hm ?_); first | exact rfl | (simp only [pageBit_ser]; exact rfl)) | with_reducible apply setReg_within | with_reducible apply setEpoch_within | with_reducible exact Within.refl | intro _ | split | dsimp only)

theorem setNbMap_within {m : Nat} {s t : State} (h : Within m s t) (a0 : Nat) (hm : 0x4000 ||| m = m) : Within m s (setNbMap a0 t) := by
  unfold setNbMap
  repeat' (first | with_reducible assumption | ((with_reducible refine Mask.sub hm ?_); first | exact rfl | (simp only [pageBit_ser]; exact rfl)) | with_reducible apply setReg_within | with_reducible apply setF_within | with_reducible exact Within.refl | intro _ | split | dsimp only)

theorem trimNbMap_within {m : Nat} {s t : State} (h : Within m s t) (hm : 0x20000020004000 ||| m = m) : Within m s (trimNbMap t) := by
  unfold trimNbMap
  repeat' (first | with_reducible assumption | ((with_reducible refine Mask.sub hm ?_); first | exact rfl | (simp only [pageBit_ser]; exact rfl)) | with_reducible apply setReg_within | with_reducible apply setNbMap_within | with_reducible apply raise_within | with_reducible exact Within.refl | intro _ | split | dsimp only)

theorem applyNbMap_within {m : Nat} {s t : State} (h : Within m s t) (hm : 0x20000020004000 ||| m = m) : Within m s (applyNbMap t) := by
  unfold applyNbMap
  repeat' (first | with_reducible assumption | ((with_reducible refine Mask.sub hm ?_); first | exact rfl | (simp only [pageBit_ser]; exact rfl)) | with_reducible apply setReg_within | with_reducible apply setNbMap_within | with_reducible apply raise_within | with_reducible apply countErr_within | with_reducible exact Within.refl | intro _ | split | dsimp only)

theorem takeBcnCfg_within {m : Nat} {s t : State} (h : Within m s t) (hm : 0x2000000000 ||| m = m) : Within m s (takeBcnCfg t) := by
  have b37 := Mask.has (i := 37) hm rfl
  unfold takeBcnCfg
  repeat' (first | with_reducible assumption | ((with_reducible refine Mask.sub hm ?_); first | exact rfl | (simp only [pageBit_ser]; exact rfl)) | with_reducible apply setReg_within | with_reducible exact Within.refl | ((with_reducible refine Within.upd ?_ (.inl rfl) (.inl rfl) (.inl rfl) (.inl rfl) (.inl rfl) (.inl rfl) (.inl rfl) (.inl rfl) (.inl rfl) (.inl rfl) (.inl rfl) (.inl rfl) (.inl rfl) (.inr b37) (.inl rfl) (.inl rfl) (.inl rfl) (.inl rfl) (.inl rfl) (.inl rfl) (.inl rfl) (.inl rfl) (.inl rfl) (.inl rfl) (.inl rfl) (.inl rfl) (.inl rfl) (.inl rfl) (.inl rfl) (.inl rfl)); first | with_reducible assumption | ((with_reducible refine Mask.sub hm ?_); first | exact rfl | (simp only [pageBit_ser]; exact rfl)) | with_reducible apply setReg_within | with_reducible exact Within.refl | split) | intro _ | split | dsimp only)

theorem takeMaps_within {m : Nat} {s t : State} (h : Within m s t) (hm : 0x20002020004000 ||| m = m) : Within m s (takeMaps t) := by
  unfold takeMaps
  repeat' (first | with_reducible assumption | ((with_reducible refine Mask.sub hm ?_); first | exact rfl | (simp only [pageBit_ser]; exact rfl)) | with_reducible apply setReg_within | with_reducible apply takeBcnCfg_within | with_reducible apply setF_within | with_reducible apply applyNbMap_within | with_reducible exact Within.refl | intro _ | split | dsimp only)

theorem applyEpoch_within {m : Nat} {s t : State} (h : Within m s t) (hm : 0x20002020004000 ||| m = m) : Within m s (applyEpoch t) := by
  unfold applyEpoch
  repeat' (first | with_reducible assumption | ((with_reducible refine Mask.sub hm ?_); first | exact rfl | (simp only [pageBit_ser]; exact rfl)) | with_reducible apply setReg_within | with_reducible apply setEpoch_within | with_reducible apply takeMaps_within | with_reducible apply raise_within | with_reducible exact Within.refl | intro _ | split | dsimp only)

theorem foreseen_within {m : Nat} {s t : State} (h : Within m s t) (hm : 0x80000204 ||| m = m) : Within m s (foreseen t) := by
  unfold foreseen
  repeat' (first | with_reducible assumption | ((with_reducible refine Mask.sub hm ?_); first | exact rfl | (simp only [pageBit_ser]; exact rfl)) | with_reducible apply setReg_within | with_reducible apply plannedState_within | with_reducible apply setStage_within | with_reducible apply setF_within | with_reducible exact Within.refl | intro _ | split | dsimp only)

theorem asPresent_within {m : Nat} {s t : State} (h : Within m s t) (a0 : State) (hm : 0x80000204 ||| m = m) : Within m s (asPresent a0 t) := by
  unfold asPresent
  repeat' (first | with_reducible assumption | ((with_reducible refine Mask.sub hm ?_); first | exact rfl | (simp only [pageBit_ser]; exact rfl)) | with_reducible apply setReg_within | with_reducible apply setPwr_within | with_reducible apply setStage_within | with_reducible apply setF_within | with_reducible exact Within.refl | intro _ | split | dsimp only)

theorem fillPlan_within {m : Nat} {s t : State} (h : Within m s t) (a0 : List GrantWish) (hm : 0x28b8483c27fa28 ||| m = m) : Within m s (fillPlan a0 t) := by
  unfold fillPlan
  repeat' (first | with_reducible assumption | ((with_reducible refine Mask.sub hm ?_); first | exact rfl | (simp only [pageBit_ser]; exact rfl)) | with_reducible apply setReg_within | with_reducible apply planJoinUps_within | with_reducible apply planFrames_within | with_reducible apply askGrants_within | with_reducible apply planPeriodic_within | with_reducible apply planLaneBeacons_within | with_reducible apply planBeacons_within | with_reducible apply planUplink_within | with_reducible exact Within.refl | intro _ | split | dsimp only)

theorem planFix_within {m : Nat} {s t : State} (h : Within m s t) (a0 : List GrantWish) (hm : 0x28bc5cfc27fb2e ||| m = m) : Within m s (planFix a0 t) := by
  have b30 := Mask.has (i := 30) hm rfl
  unfold planFix
  repeat' (first | with_reducible assumption | ((with_reducible refine Mask.sub hm ?_); first | exact rfl | (simp only [pageBit_ser]; exact rfl)) | with_reducible apply setReg_within | with_reducible apply changeE_within | with_reducible apply fixWindows_within | with_reducible apply bbFix_within | with_reducible apply nbFix_within | with_reducible apply decidePower_within | with_reducible apply prunePlan_within | with_reducible apply recoverFrames_within | with_reducible apply asPresent_within | with_reducible apply fillPlan_within | with_reducible apply foreseen_within | with_reducible apply sendBeaconState_within | with_reducible apply handoverCheck_within | with_reducible apply flushLanes_within | with_reducible exact Within.refl | ((with_reducible refine Within.upd ?_ (.inl rfl) (.inl rfl) (.inl rfl) (.inl rfl) (.inl rfl) (.inl rfl) (.inr b30) (.inl rfl) (.inl rfl) (.inl rfl) (.inl rfl) (.inl rfl) (.inl rfl) (.inl rfl) (.inl rfl) (.inl rfl) (.inl rfl) (.inl rfl) (.inl rfl) (.inl rfl) (.inl rfl) (.inl rfl) (.inl rfl) (.inl rfl) (.inl rfl) (.inl rfl) (.inl rfl) (.inl rfl) (.inl rfl) (.inl rfl)); first | with_reducible assumption | ((with_reducible refine Mask.sub hm ?_); first | exact rfl | (simp only [pageBit_ser]; exact rfl)) | with_reducible apply setReg_within | with_reducible apply changeE_within | with_reducible apply fixWindows_within | with_reducible apply bbFix_within | with_reducible apply nbFix_within | with_reducible apply decidePower_within | with_reducible apply prunePlan_within | with_reducible apply recoverFrames_within | with_reducible apply asPresent_within | with_reducible apply fillPlan_within | with_reducible apply foreseen_within | with_reducible apply sendBeaconState_within | with_reducible apply handoverCheck_within | with_reducible apply flushLanes_within | with_reducible exact Within.refl | split) | intro _ | split | dsimp only)

theorem execPlanFix_within {m : Nat} {s t u : State} (h : Within m s t) (a0 : List GrantWish) (hm : 0x28bc5cfc27fb2e ||| m = m) (e : execPlanFix a0 t = .next u) : Within m s u := by
  unfold execPlanFix at e
  try dsimp only at e
  repeat' split at e
  all_goals (cases e; repeat' (first | with_reducible assumption | ((with_reducible refine Mask.sub hm ?_); first | exact rfl | (simp only [pageBit_ser]; exact rfl)) | with_reducible apply setReg_within | with_reducible apply planFix_within | with_reducible exact Within.refl | intro _ | split | dsimp only))

theorem slotStart_within {m : Nat} {s t : State} (h : Within m s t) (a0 : Nat) (hm : 0x28b8487425ba00 ||| m = m) : Within m s (slotStart a0 t) := by
  have b30 := Mask.has (i := 30) hm rfl
  unfold slotStart
  repeat' (first | with_reducible assumption | ((with_reducible refine Mask.sub hm ?_); first | exact rfl | (simp only [pageBit_ser]; exact rfl)) | with_reducible apply setReg_within | with_reducible apply flushLanes_within | with_reducible apply tickPauses_within | with_reducible apply closeWindow_within | with_reducible exact Within.refl | ((with_reducible refine Within.upd ?_ (.inl rfl) (.inl rfl) (.inl rfl) (.inl rfl) (.inl rfl) (.inl rfl) (.inr b30) (.inl rfl) (.inl rfl) (.inl rfl) (.inl rfl) (.inl rfl) (.inl rfl) (.inl rfl) (.inl rfl) (.inl rfl) (.inl rfl) (.inl rfl) (.inl rfl) (.inl rfl) (.inl rfl) (.inl rfl) (.inl rfl) (.inl rfl) (.inl rfl) (.inl rfl) (.inl rfl) (.inl rfl) (.inl rfl) (.inl rfl)); first | with_reducible assumption | ((with_reducible refine Mask.sub hm ?_); first | exact rfl | (simp only [pageBit_ser]; exact rfl)) | with_reducible apply setReg_within | with_reducible apply flushLanes_within | with_reducible apply tickPauses_within | with_reducible apply closeWindow_within | with_reducible exact Within.refl | split) | intro _ | split | dsimp only)

theorem execSlotStart_within {m : Nat} {s t u : State} (h : Within m s t) (a0 : Fin 1024) (hm : 0x28b8487425ba00 ||| m = m) (e : execSlotStart a0 t = .next u) : Within m s u := by
  unfold execSlotStart at e
  try dsimp only at e
  repeat' split at e
  all_goals (cases e; repeat' (first | with_reducible assumption | ((with_reducible refine Mask.sub hm ?_); first | exact rfl | (simp only [pageBit_ser]; exact rfl)) | with_reducible apply setReg_within | with_reducible apply slotStart_within | with_reducible exact Within.refl | intro _ | split | dsimp only))

theorem logSuperframe_within {m : Nat} {s t : State} (h : Within m s t) (hm : 0x20488028000020 ||| m = m) : Within m s (logSuperframe t) := by
  have b46 := Mask.has (i := 46) hm rfl
  unfold logSuperframe
  repeat' (first | with_reducible assumption | ((with_reducible refine Mask.sub hm ?_); first | exact rfl | (simp only [pageBit_ser]; exact rfl)) | with_reducible apply setReg_within | with_reducible apply logDrops_within | with_reducible apply logPage_within | with_reducible apply setMac_within | with_reducible exact Within.refl | ((with_reducible refine Within.upd ?_ (.inl rfl) (.inl rfl) (.inl rfl) (.inl rfl) (.inl rfl) (.inl rfl) (.inl rfl) (.inl rfl) (.inl rfl) (.inl rfl) (.inl rfl) (.inl rfl) (.inl rfl) (.inl rfl) (.inl rfl) (.inl rfl) (.inl rfl) (.inl rfl) (.inl rfl) (.inl rfl) (.inl rfl) (.inl rfl) (.inr b46) (.inl rfl) (.inl rfl) (.inl rfl) (.inl rfl) (.inl rfl) (.inl rfl) (.inl rfl)); first | with_reducible assumption | ((with_reducible refine Mask.sub hm ?_); first | exact rfl | (simp only [pageBit_ser]; exact rfl)) | with_reducible apply setReg_within | with_reducible apply logDrops_within | with_reducible apply logPage_within | with_reducible apply setMac_within | with_reducible exact Within.refl | split) | intro _ | split | dsimp only)

theorem advance_within {m : Nat} {s t : State} (h : Within m s t) (hm : 0x40004000 ||| m = m) : Within m s (advance t) := by
  have b30 := Mask.has (i := 30) hm rfl
  unfold advance
  repeat' (first | with_reducible assumption | ((with_reducible refine Mask.sub hm ?_); first | exact rfl | (simp only [pageBit_ser]; exact rfl)) | with_reducible apply setReg_within | with_reducible apply setF_within | with_reducible exact Within.refl | ((with_reducible refine Within.upd ?_ (.inl rfl) (.inl rfl) (.inl rfl) (.inl rfl) (.inl rfl) (.inl rfl) (.inr b30) (.inl rfl) (.inl rfl) (.inl rfl) (.inl rfl) (.inl rfl) (.inl rfl) (.inl rfl) (.inl rfl) (.inl rfl) (.inl rfl) (.inl rfl) (.inl rfl) (.inl rfl) (.inl rfl) (.inl rfl) (.inl rfl) (.inl rfl) (.inl rfl) (.inl rfl) (.inl rfl) (.inl rfl) (.inl rfl) (.inl rfl)); first | with_reducible assumption | ((with_reducible refine Mask.sub hm ?_); first | exact rfl | (simp only [pageBit_ser]; exact rfl)) | with_reducible apply setReg_within | with_reducible apply setF_within | with_reducible exact Within.refl | split) | intro _ | split | dsimp only)

theorem takeDwellCfg_within {m : Nat} {s t : State} (h : Within m s t) (hm : 0x2000000000 ||| m = m) : Within m s (takeDwellCfg t) := by
  have b37 := Mask.has (i := 37) hm rfl
  unfold takeDwellCfg
  repeat' (first | with_reducible assumption | ((with_reducible refine Mask.sub hm ?_); first | exact rfl | (simp only [pageBit_ser]; exact rfl)) | with_reducible apply setReg_within | with_reducible exact Within.refl | ((with_reducible refine Within.upd ?_ (.inl rfl) (.inl rfl) (.inl rfl) (.inl rfl) (.inl rfl) (.inl rfl) (.inl rfl) (.inl rfl) (.inl rfl) (.inl rfl) (.inl rfl) (.inl rfl) (.inl rfl) (.inr b37) (.inl rfl) (.inl rfl) (.inl rfl) (.inl rfl) (.inl rfl) (.inl rfl) (.inl rfl) (.inl rfl) (.inl rfl) (.inl rfl) (.inl rfl) (.inl rfl) (.inl rfl) (.inl rfl) (.inl rfl) (.inl rfl)); first | with_reducible assumption | ((with_reducible refine Mask.sub hm ?_); first | exact rfl | (simp only [pageBit_ser]; exact rfl)) | with_reducible apply setReg_within | with_reducible exact Within.refl | split) | intro _ | split | dsimp only)

theorem keepLastMap_within {m : Nat} {s t : State} (h : Within m s t) (hm : 0x400000000 ||| m = m) : Within m s (keepLastMap t) := by
  have b34 := Mask.has (i := 34) hm rfl
  unfold keepLastMap
  repeat' (first | with_reducible assumption | ((with_reducible refine Mask.sub hm ?_); first | exact rfl | (simp only [pageBit_ser]; exact rfl)) | with_reducible apply setReg_within | with_reducible exact Within.refl | ((with_reducible refine Within.upd ?_ (.inl rfl) (.inl rfl) (.inl rfl) (.inl rfl) (.inl rfl) (.inl rfl) (.inl rfl) (.inl rfl) (.inl rfl) (.inl rfl) (.inr b34) (.inl rfl) (.inl rfl) (.inl rfl) (.inl rfl) (.inl rfl) (.inl rfl) (.inl rfl) (.inl rfl) (.inl rfl) (.inl rfl) (.inl rfl) (.inl rfl) (.inl rfl) (.inl rfl) (.inl rfl) (.inl rfl) (.inl rfl) (.inl rfl) (.inl rfl)); first | with_reducible assumption | ((with_reducible refine Mask.sub hm ?_); first | exact rfl | (simp only [pageBit_ser]; exact rfl)) | with_reducible apply setReg_within | with_reducible exact Within.refl | split) | intro _ | split | dsimp only)

theorem applyWaves_within {m : Nat} {s t : State} (h : Within m s t) (hm : 0x2003be35b04800 ||| m = m) : Within m s (applyWaves t) := by
  unfold applyWaves
  repeat' (first | with_reducible assumption | ((with_reducible refine Mask.sub hm ?_); first | exact rfl | (simp only [pageBit_ser]; exact rfl)) | with_reducible apply setReg_within | with_reducible apply bbBoundary_within | with_reducible apply trimNbMap_within | with_reducible apply nbBoundary_within | with_reducible apply applyDecls_within | with_reducible apply keepLastMap_within | with_reducible apply capPorts_within | with_reducible exact Within.refl | intro _ | split | dsimp only)

theorem applyPending_within {m : Nat} {s t : State} (h : Within m s t) (hm : 0x2003be35ba4800 ||| m = m) : Within m s (applyPending t) := by
  unfold applyPending
  repeat' (first | with_reducible assumption | ((with_reducible refine Mask.sub hm ?_); first | exact rfl | (simp only [pageBit_ser]; exact rfl)) | with_reducible apply setReg_within | with_reducible apply calStart_within | with_reducible apply bqBoundary_within | with_reducible apply ncalBoundary_within | with_reducible apply takeDwellCfg_within | with_reducible apply applyEpoch_within | with_reducible apply applyWaves_within | with_reducible apply Within.foldl | with_reducible exact Within.refl | intro _ | split | dsimp only)

theorem showNoise_within {m : Nat} {s t : State} (h : Within m s t) (a0 : List NoiseReading) (hm : 0x800000 ||| m = m) : Within m s (showNoise a0 t) := by
  unfold showNoise
  repeat' (first | with_reducible assumption | ((with_reducible refine Mask.sub hm ?_); first | exact rfl | (simp only [pageBit_lpt]; exact rfl)) | with_reducible apply setReg_within | with_reducible apply setF_within | with_reducible apply Within.foldl | with_reducible exact Within.refl | intro _ | split | dsimp only)

theorem checkPtp_within {m : Nat} {s t : State} (h : Within m s t) (hm : 0x20000020001000 ||| m = m) : Within m s (checkPtp t) := by
  unfold checkPtp
  repeat' (first | with_reducible assumption | ((with_reducible refine Mask.sub hm ?_); first | exact rfl | (simp only [pageBit_lan, lanPage]; exact rfl)) | with_reducible apply setReg_within | with_reducible apply raise_within | with_reducible apply setB_within | with_reducible exact Within.refl | intro _ | split | dsimp only)

theorem checkParent_within {m : Nat} {s t : State} (h : Within m s t) (hm : 0x10000 ||| m = m) : Within m s (checkParent t) := by
  unfold checkParent
  repeat' (first | with_reducible assumption | ((with_reducible refine Mask.sub hm ?_); first | exact rfl | (simp only [pageBit_ser]; exact rfl)) | with_reducible apply setReg_within | with_reducible apply setB_within | with_reducible exact Within.refl | intro _ | split | dsimp only)

theorem superviseAll_within {m : Nat} {s t : State} (h : Within m s t) (hm : 0x20a8483425ba00 ||| m = m) : Within m s (superviseAll t) := by
  unfold superviseAll
  repeat' (first | with_reducible assumption | ((with_reducible refine Mask.sub hm ?_); first | exact rfl | (simp only [pageBit_ser]; exact rfl)) | with_reducible apply setReg_within | with_reducible apply supervise_within | with_reducible apply Within.foldl | with_reducible exact Within.refl | intro _ | split | dsimp only)

theorem dropStale_within {m : Nat} {s t : State} (h : Within m s t) (hm : 0x4000000000 ||| m = m) : Within m s (dropStale t) := by
  have b38 := Mask.has (i := 38) hm rfl
  unfold dropStale
  repeat' (first | with_reducible assumption | ((with_reducible refine Mask.sub hm ?_); first | exact rfl | (simp only [pageBit_ser]; exact rfl)) | with_reducible apply setReg_within | with_reducible exact Within.refl | ((with_reducible refine Within.upd ?_ (.inl rfl) (.inl rfl) (.inl rfl) (.inl rfl) (.inl rfl) (.inl rfl) (.inl rfl) (.inl rfl) (.inl rfl) (.inl rfl) (.inl rfl) (.inl rfl) (.inl rfl) (.inl rfl) (.inr b38) (.inl rfl) (.inl rfl) (.inl rfl) (.inl rfl) (.inl rfl) (.inl rfl) (.inl rfl) (.inl rfl) (.inl rfl) (.inl rfl) (.inl rfl) (.inl rfl) (.inl rfl) (.inl rfl) (.inl rfl)); first | with_reducible assumption | ((with_reducible refine Mask.sub hm ?_); first | exact rfl | (simp only [pageBit_ser]; exact rfl)) | with_reducible apply setReg_within | with_reducible exact Within.refl | split) | intro _ | split | dsimp only)

theorem countListened_within {m : Nat} {s t : State} (h : Within m s t) (hm : 0x100000000 ||| m = m) : Within m s (countListened t) := by
  have b32 := Mask.has (i := 32) hm rfl
  unfold countListened
  repeat' (first | with_reducible assumption | ((with_reducible refine Mask.sub hm ?_); first | exact rfl | (simp only [pageBit_ser]; exact rfl)) | with_reducible apply setReg_within | with_reducible exact Within.refl | ((with_reducible refine Within.upd ?_ (.inl rfl) (.inl rfl) (.inl rfl) (.inl rfl) (.inl rfl) (.inl rfl) (.inl rfl) (.inl rfl) (.inr b32) (.inl rfl) (.inl rfl) (.inl rfl) (.inl rfl) (.inl rfl) (.inl rfl) (.inl rfl) (.inl rfl) (.inl rfl) (.inl rfl) (.inl rfl) (.inl rfl) (.inl rfl) (.inl rfl) (.inl rfl) (.inl rfl) (.inl rfl) (.inl rfl) (.inl rfl) (.inl rfl) (.inl rfl)); first | with_reducible assumption | ((with_reducible refine Mask.sub hm ?_); first | exact rfl | (simp only [pageBit_ser]; exact rfl)) | with_reducible apply setReg_within | with_reducible exact Within.refl | split) | intro _ | split | dsimp only)

theorem showStart_within {m : Nat} {s t : State} (h : Within m s t) (hm : 0x20000020004000 ||| m = m) : Within m s (showStart t) := by
  unfold showStart
  repeat' (first | with_reducible assumption | ((with_reducible refine Mask.sub hm ?_); first | exact rfl | (simp only [pageBit_ser]; exact rfl)) | with_reducible apply setReg_within | with_reducible apply raise_within | with_reducible apply setB_within | with_reducible exact Within.refl | intro _ | split | dsimp only)

theorem superframeStart_within {m : Nat} {s t : State} (h : Within m s t) (a0 : List NoiseReading) (a1 : TruHold) (hm : 0x28fffffdbffb22 ||| m = m) : Within m s (superframeStart a0 a1 t) := by
  unfold superframeStart
  repeat' (first | with_reducible assumption | ((with_reducible refine Mask.sub hm ?_); first | exact rfl | (simp only [pageBit_ser]; exact rfl)) | with_reducible apply setReg_within | with_reducible apply superviseAll_within | with_reducible apply roleSwap_within | with_reducible apply applyBkey_within | with_reducible apply pruneOccs_within | with_reducible apply dropStale_within | with_reducible apply engBoundary_within | with_reducible apply applyPending_within | with_reducible apply showNoise_within | with_reducible apply applyPower_within | with_reducible apply advance_within | with_reducible apply logSuperframe_within | with_reducible apply showStart_within | with_reducible apply flushLanes_within | with_reducible apply tickPauses_within | with_reducible apply sendLaneBeacons_within | with_reducible apply checkParent_within | with_reducible apply checkPtp_within | with_reducible apply countListened_within | with_reducible exact Within.refl | intro _ | split | dsimp only)

theorem execSuperframeStart_within {m : Nat} {s t u : State} (h : Within m s t) (a0 : List NoiseReading) (a1 : TruHold) (hm : 0x28fffffdbffb22 ||| m = m) (e : execSuperframeStart a0 a1 t = .next u) : Within m s u := by
  unfold execSuperframeStart at e
  try dsimp only at e
  repeat' split at e
  all_goals (cases e; repeat' (first | with_reducible assumption | ((with_reducible refine Mask.sub hm ?_); first | exact rfl | (simp only [pageBit_ser]; exact rfl)) | with_reducible apply setReg_within | with_reducible apply superframeStart_within | with_reducible exact Within.refl | intro _ | split | dsimp only))

end Sys2Proof.Machine
end

