-- ==== Sys2Proof/Laws/WithinTicket.lean ====
section
/-! SUPPORT. Sys2Proof/Laws/WithinTicket.lean: the parts of a state that the operations of Machine/Ticket.lean may change. -/
namespace Sys2Proof.Machine

theorem setChallenge_within {m : Nat} {s t : State} (h : Within m s t) (a0 : Option (Nat × Nat)) (hm : 0x2000000000010 ||| m = m) : Within m s (setChallenge a0 t) := by
  have b49 := Mask.has (i := 49) hm rfl
  unfold setChallenge
  repeat' (first | with_reducible assumption | ((with_reducible refine Mask.sub hm ?_); first | exact rfl | (simp only [pageBit_ser]; exact rfl)) | with_reducible apply setReg_within | with_reducible apply setF_within | with_reducible apply setB_within | with_reducible exact Within.refl | ((with_reducible refine Within.upd ?_ (.inl rfl) (.inl rfl) (.inl rfl) (.inl rfl) (.inl rfl) (.inl rfl) (.inl rfl) (.inl rfl) (.inl rfl) (.inl rfl) (.inl rfl) (.inl rfl) (.inl rfl) (.inl rfl) (.inl rfl) (.inl rfl) (.inl rfl) (.inl rfl) (.inl rfl) (.inl rfl) (.inl rfl) (.inl rfl) (.inl rfl) (.inl rfl) (.inl rfl) (.inr b49) (.inl rfl) (.inl rfl) (.inl rfl) (.inl rfl)); first | with_reducible assumption | ((with_reducible refine Mask.sub hm ?_); first | exact rfl | (simp only [pageBit_ser]; exact rfl)) | with_reducible apply setReg_within | with_reducible apply setF_within | with_reducible apply setB_within | with_reducible exact Within.refl | split) | intro _ | split | dsimp only)

theorem runChallenge_within {m : Nat} {s t : State} (h : Within m s t) (a0 : Outstanding) (hm : 0x2a000034040810 ||| m = m) : Within m s (runChallenge a0 t) := by
  unfold runChallenge
  repeat' (first | with_reducible assumption | ((with_reducible refine Mask.sub hm ?_); first | exact rfl | (simp only [pageBit_ser]; exact rfl)) | with_reducible apply setReg_within | with_reducible apply draw_within | with_reducible apply done_within | with_reducible apply setChallenge_within | (with_reducible refine draw_within_eq (by assumption) ?_ ?_) | with_reducible exact Within.refl | intro _ | split | dsimp only)

theorem execChallenge_within {m : Nat} {s t u : State} (h : Within m s t) (a0 : CmdSrc) (hm : 0x2a000034040810 ||| m = m) (e : execChallenge a0 t = .next u) : Within m s u := by
  unfold execChallenge at e
  try dsimp only at e
  repeat' split at e
  all_goals (cases e; repeat' (first | with_reducible assumption | ((with_reducible refine Mask.sub hm ?_); first | exact rfl | (simp only [pageBit_ser]; exact rfl)) | with_reducible apply setReg_within | with_reducible apply issue_within | with_reducible apply runChallenge_within | with_reducible exact Within.refl | intro _ | split | dsimp only))

theorem execChallengeExpiry_within {m : Nat} {s t u : State} (h : Within m s t) (hm : 0x22000020000010 ||| m = m) (e : execChallengeExpiry t = .next u) : Within m s u := by
  unfold execChallengeExpiry at e
  try dsimp only at e
  repeat' split at e
  all_goals (cases e; repeat' (first | with_reducible assumption | ((with_reducible refine Mask.sub hm ?_); first | exact rfl | (simp only [pageBit_ser]; exact rfl)) | with_reducible apply setReg_within | with_reducible apply raise_within | with_reducible apply setChallenge_within | with_reducible exact Within.refl | intro _ | split | dsimp only))

theorem setKeys_within {m : Nat} {s t : State} (h : Within m s t) (a0 : KeyStore) (hm : 0x2000000000000 ||| m = m) : Within m s (setKeys a0 t) := by
  have b49 := Mask.has (i := 49) hm rfl
  unfold setKeys
  repeat' (first | with_reducible assumption | ((with_reducible refine Mask.sub hm ?_); first | exact rfl | (simp only [pageBit_ser]; exact rfl)) | with_reducible apply setReg_within | with_reducible exact Within.refl | ((with_reducible refine Within.upd ?_ (.inl rfl) (.inl rfl) (.inl rfl) (.inl rfl) (.inl rfl) (.inl rfl) (.inl rfl) (.inl rfl) (.inl rfl) (.inl rfl) (.inl rfl) (.inl rfl) (.inl rfl) (.inl rfl) (.inl rfl) (.inl rfl) (.inl rfl) (.inl rfl) (.inl rfl) (.inl rfl) (.inl rfl) (.inl rfl) (.inl rfl) (.inl rfl) (.inl rfl) (.inr b49) (.inl rfl) (.inl rfl) (.inl rfl) (.inl rfl)); first | with_reducible assumption | ((with_reducible refine Mask.sub hm ?_); first | exact rfl | (simp only [pageBit_ser]; exact rfl)) | with_reducible apply setReg_within | with_reducible exact Within.refl | split) | intro _ | split | dsimp only)

theorem setHolders_within {m : Nat} {s t : State} (h : Within m s t) (a0 : Nat) (a1 : List Holder) (hm : 0x2000000000010 ||| m = m) : Within m s (setHolders a0 a1 t) := by
  unfold setHolders
  repeat' (first | with_reducible assumption | ((with_reducible refine Mask.sub hm ?_); first | exact rfl | (simp only [pageBit_ser]; exact rfl)) | with_reducible apply setReg_within | with_reducible apply setF_within | with_reducible apply setKeys_within | with_reducible apply setB_within | with_reducible exact Within.refl | intro _ | split | dsimp only)

theorem afterProtected_within {m : Nat} {s t : State} (h : Within m s t) (a0 : Page) (hm : 0x700000 ||| m = m) : Within m s (afterProtected a0 t) := by
  unfold afterProtected
  repeat' (first | with_reducible assumption | ((with_reducible refine Mask.sub hm ?_); first | exact rfl | (simp only [pageBit_ser]; exact rfl)) | with_reducible apply setReg_within | with_reducible apply setB_within | with_reducible apply bbPending_within | with_reducible apply nbPending_within | with_reducible exact Within.refl | intro _ | split | dsimp only)

theorem applyItem_within {m : Nat} {s t : State} (h : Within m s t) (a0 : Item) (hm : 0x2000003ffffff ||| m = m) : Within m s (applyItem a0 t) := by
  unfold applyItem
  repeat' (first | with_reducible assumption | ((with_reducible refine Mask.sub hm ?_); first | exact rfl | (simp only [pageBit_ser]; exact rfl)) | ((with_reducible refine Mask.any (Mask.sub hm ?_) _); exact rfl) | with_reducible apply setReg_within | with_reducible apply setHolders_within | with_reducible apply setKeys_within | with_reducible apply setF_within | with_reducible exact Within.refl | intro _ | split | dsimp only)

theorem bumpLock_within {m : Nat} {s t : State} (h : Within m s t) (a0 : Page) (hp0 : pageBit a0 ||| m = m) : Within m s (bumpLock a0 t) := by
  unfold bumpLock
  repeat' (first | with_reducible assumption | with_reducible apply setReg_within | with_reducible exact Within.refl | intro _ | split | dsimp only)

theorem applied_within {m : Nat} {s t : State} (h : Within m s t) (a0 : Ticket) (hm : 0x2200003fffffff ||| m = m) : Within m s (applied a0 t) := by
  unfold applied
  repeat' (first | with_reducible assumption | ((with_reducible refine Mask.sub hm ?_); first | exact rfl | (simp only [pageBit_ser]; exact rfl)) | ((with_reducible refine Mask.any (Mask.sub hm ?_) _); exact rfl) | with_reducible apply setReg_within | with_reducible apply setF_within | with_reducible apply setKeys_within | with_reducible apply afterProtected_within | with_reducible apply bumpLock_within | with_reducible apply raise_within | with_reducible apply count_within | with_reducible apply done_within | with_reducible apply logEvent_within | with_reducible apply Within.foldl | with_reducible exact Within.refl | intro _ | split | dsimp only)

theorem refuseTicket_within {m : Nat} {s t : State} (h : Within m s t) (a0 : Nat) (a1 : Nat) (hm : 0x2000003c000830 ||| m = m) : Within m s (refuseTicket a0 a1 t) := by
  unfold refuseTicket
  repeat' (first | with_reducible assumption | ((with_reducible refine Mask.sub hm ?_); first | exact rfl | (simp only [pageBit_ser]; exact rfl)) | with_reducible apply setReg_within | with_reducible apply count_within | with_reducible apply complete_within | with_reducible apply logEvent_within | with_reducible apply raise_within | with_reducible exact Within.refl | intro _ | split | dsimp only)

theorem applyItems_within {m : Nat} {s t u : State} (h : Within m s t) (n : Nat) (l : List Item) (hm : 0x2200003fffffff ||| m = m) (e : applyItems n l t = .ok u) : Within m s u := by
  induction l generalizing t n with
  | nil => cases e; exact h
  | cons i r ih =>
    unfold applyItems at e
    split at e
    · exact ih (applyItem_within h _ (Mask.sub hm rfl)) _ e
    · cases e

theorem checkTicket_within {m : Nat} {s t : State} (h : Within m s t) (k : Ticket) (l : List Holder) (n : Nat) (hm : 0x2200003fffffff ||| m = m) : Within m s (checkTicket k l n t) := by
  unfold checkTicket
  extract_lets s1
  have k1 : Within m s s1 := setChallenge_within h _ (Mask.sub hm rfl)
  clear_value s1
  repeat' split
  all_goals first | exact refuseTicket_within k1 _ _ (Mask.sub hm rfl) | skip
  rename_i e _ _
  exact applied_within (applyItems_within k1 _ _ hm e) _ (Mask.sub hm rfl)

theorem runApply_within {m : Nat} {s t : State} (h : Within m s t) (a0 : Outstanding) (hm : 0x2200003fffffff ||| m = m) : Within m s (runApply a0 t) := by
  unfold runApply
  repeat' (first | with_reducible assumption | ((with_reducible refine Mask.sub hm ?_); first | exact rfl | (simp only [pageBit_ser]; exact rfl)) | ((with_reducible refine Mask.any (Mask.sub hm ?_) _); exact rfl) | with_reducible apply setReg_within | with_reducible apply refuseTicket_within | with_reducible apply checkTicket_within | with_reducible exact Within.refl | intro _ | split | dsimp only)

theorem execApply_within {m : Nat} {s t u : State} (h : Within m s t) (a0 : CmdSrc) (hm : 0x2200003fffffff ||| m = m) (e : execApply a0 t = .next u) : Within m s u := by
  unfold execApply at e
  try dsimp only at e
  repeat' split at e
  all_goals (cases e; repeat' (first | with_reducible assumption | ((with_reducible refine Mask.sub hm ?_); first | exact rfl | (simp only [pageBit_ser]; exact rfl)) | ((with_reducible refine Mask.any (Mask.sub hm ?_) _); exact rfl) | with_reducible apply setReg_within | with_reducible apply issue_within | with_reducible apply runApply_within | with_reducible exact Within.refl | intro _ | split | dsimp only))

theorem runCardSign_within {m : Nat} {s t : State} (h : Within m s t) (a0 : Outstanding) (hm : 0x24000034000890 ||| m = m) : Within m s (runCardSign a0 t) := by
  unfold runCardSign
  repeat' (first | with_reducible assumption | ((with_reducible refine Mask.sub hm ?_); first | exact rfl | (simp only [pageBit_ser]; exact rfl)) | with_reducible apply setReg_within | with_reducible apply done_within | with_reducible apply startCard_within | with_reducible exact Within.refl | intro _ | split | dsimp only)

theorem execCardSign_within {m : Nat} {s t u : State} (h : Within m s t) (a0 : CmdSrc) (hm : 0x24000034000890 ||| m = m) (e : execCardSign a0 t = .next u) : Within m s u := by
  unfold execCardSign at e
  try dsimp only at e
  repeat' split at e
  all_goals (cases e; repeat' (first | with_reducible assumption | ((with_reducible refine Mask.sub hm ?_); first | exact rfl | (simp only [pageBit_ser]; exact rfl)) | with_reducible apply setReg_within | with_reducible apply issue_within | with_reducible apply runCardSign_within | with_reducible exact Within.refl | intro _ | split | dsimp only))

theorem appendSig_within {m : Nat} {s t : State} (h : Within m s t) (a0 : Outstanding) (a1 : Nat) (a2 : List Byte) (hm : 0x20020022000000 ||| m = m) : Within m s (appendSig a0 a1 a2 t) := by
  unfold appendSig
  repeat' (first | with_reducible assumption | ((with_reducible refine Mask.sub hm ?_); first | exact rfl | (simp only [pageBit_ser]; exact rfl)) | with_reducible apply setReg_within | with_reducible apply busWrite_within | with_reducible exact Within.refl | intro _ | split | dsimp only)

theorem cardReply_within {m : Nat} {s t : State} (h : Within m s t) (a0 : Serial) (a1 : List Byte) (a2 : Nat) (hm : 0x24020036000890 ||| m = m) : Within m s (cardReply a0 a1 a2 t) := by
  unfold cardReply
  repeat' (first | with_reducible assumption | ((with_reducible refine Mask.sub hm ?_); first | exact rfl | (simp only [pageBit_ser]; exact rfl)) | with_reducible apply setReg_within | with_reducible apply setF_within | with_reducible apply cardError_within | with_reducible apply done_within | with_reducible apply deactivateCard_within | with_reducible apply sendCard_within | with_reducible apply appendSig_within | with_reducible exact Within.refl | intro _ | split | dsimp only)

theorem execCardStatusWord_within {m : Nat} {s t u : State} (h : Within m s t) (a0 : Serial) (a1 : List Byte) (a2 : BitVec 16) (hm : 0x24020036000890 ||| m = m) (e : execCardStatusWord a0 a1 a2 t = .next u) : Within m s u := by
  unfold execCardStatusWord at e
  try dsimp only at e
  repeat' split at e
  all_goals (cases e; repeat' (first | with_reducible assumption | ((with_reducible refine Mask.sub hm ?_); first | exact rfl | (simp only [pageBit_ser]; exact rfl)) | with_reducible apply setReg_within | with_reducible apply cardReply_within | with_reducible exact Within.refl | intro _ | split | dsimp only))

theorem abortCardSign_within_eq {m : Nat} {s t u : State} {o : Outstanding} (e : abortCardSign o t = some u) (h : Within m s t) (hm : 0x24000034000890 ||| m = m) : Within m s u := by
  unfold abortCardSign at e
  dsimp only at e
  split at e
  · split at e
    · cases e
    · cases e
      exact done_within (deactivateCard_within h _ (Mask.sub hm rfl)) _ _ (Mask.sub hm rfl) (Mask.sub hm rfl)
  · cases e

theorem runReadAuth_within {m : Nat} {s t : State} (h : Within m s t) (a0 : Outstanding) (hm : 0x20020036000810 ||| m = m) : Within m s (runReadAuth a0 t) := by
  unfold runReadAuth
  repeat' (first | with_reducible assumption | ((with_reducible refine Mask.sub hm ?_); first | exact rfl | (simp only [pageBit_ser]; exact rfl)) | with_reducible apply setReg_within | with_reducible apply done_within | with_reducible apply busWrite_within | with_reducible exact Within.refl | intro _ | split | dsimp only)

theorem execReadAuth_within {m : Nat} {s t u : State} (h : Within m s t) (a0 : CmdSrc) (hm : 0x20020036000810 ||| m = m) (e : execReadAuth a0 t = .next u) : Within m s u := by
  unfold execReadAuth at e
  try dsimp only at e
  repeat' split at e
  all_goals (cases e; repeat' (first | with_reducible assumption | ((with_reducible refine Mask.sub hm ?_); first | exact rfl | (simp only [pageBit_ser]; exact rfl)) | with_reducible apply setReg_within | with_reducible apply issue_within | with_reducible apply runReadAuth_within | with_reducible exact Within.refl | intro _ | split | dsimp only))

theorem runReadDevPub_within {m : Nat} {s t : State} (h : Within m s t) (a0 : Outstanding) (hm : 0x20020036000810 ||| m = m) : Within m s (runReadDevPub a0 t) := by
  unfold runReadDevPub
  repeat' (first | with_reducible assumption | ((with_reducible refine Mask.sub hm ?_); first | exact rfl | (simp only [pageBit_ser]; exact rfl)) | with_reducible apply setReg_within | with_reducible apply done_within | with_reducible apply busWrite_within | with_reducible exact Within.refl | intro _ | split | dsimp only)

theorem execReadDevPub_within {m : Nat} {s t u : State} (h : Within m s t) (a0 : CmdSrc) (hm : 0x20020036000810 ||| m = m) (e : execReadDevPub a0 t = .next u) : Within m s u := by
  unfold execReadDevPub at e
  try dsimp only at e
  repeat' split at e
  all_goals (cases e; repeat' (first | with_reducible assumption | ((with_reducible refine Mask.sub hm ?_); first | exact rfl | (simp only [pageBit_ser]; exact rfl)) | with_reducible apply setReg_within | with_reducible apply issue_within | with_reducible apply runReadDevPub_within | with_reducible exact Within.refl | intro _ | split | dsimp only))

end Sys2Proof.Machine
end

