-- ==== Sys2Proof/Laws/WithinCmdDone.lean ====
section
/-! SUPPORT. Sys2Proof/Laws/WithinCmdDone.lean: the parts of a state that the operations of Machine/CmdDone.lean may change. -/
namespace Sys2Proof.Machine

theorem execNop_within {m : Nat} {s t u : State} (h : Within m s t) (a0 : Page) (a1 : CmdSrc) (hm : 0x20000034000800 ||| m = m) (hp0 : pageBit a0 ||| m = m) (e : execNop a0 a1 t = .next u) : Within m s u := by
  unfold execNop at e
  try dsimp only at e
  repeat' split at e
  all_goals (cases e; repeat' (first | with_reducible assumption | ((with_reducible refine Mask.sub hm ?_); first | exact rfl | (simp only [pageBit_ser]; exact rfl)) | with_reducible apply setReg_within | with_reducible apply issue_within | with_reducible apply done_within | with_reducible exact Within.refl | intro _ | split | dsimp only))

theorem finishCommand_within {m : Nat} {s t : State} (h : Within m s t) (a0 : Page) (a1 : Outstanding) (a2 : CmdResult) (hm : 0x35fbea3ffdbeec ||| m = m) : Within m s (finishCommand a0 a1 a2 t) := by
  unfold finishCommand
  repeat' (first | with_reducible assumption | ((with_reducible refine Mask.sub hm ?_); first | exact rfl | (simp only [pageBit_ser]; exact rfl)) | with_reducible apply setReg_within | with_reducible apply finishVerify_within | with_reducible apply finishKillTest_within | with_reducible apply finishLoad_within | with_reducible apply finishImport_within | with_reducible apply finishSelfCal_within | with_reducible apply endBreak_within | with_reducible apply finishBlocks_within | with_reducible apply finishSelfTest_within | with_reducible apply finishReadWords_within | with_reducible apply finishEncodeFrame_within | with_reducible apply finishEncodeBurst_within | with_reducible apply finishTestBank_within | with_reducible apply finishCal_within | with_reducible exact Within.refl | intro _ | split | dsimp only)

theorem execCmdCompletion_within {m : Nat} {s t u : State} (h : Within m s t) (a0 : Page) (a1 : CmdResult) (hm : 0x35fbea3ffdbeec ||| m = m) (e : execCmdCompletion a0 a1 t = .next u) : Within m s u := by
  unfold execCmdCompletion at e
  try dsimp only at e
  repeat' split at e
  all_goals (cases e; repeat' (first | with_reducible assumption | ((with_reducible refine Mask.sub hm ?_); first | exact rfl | (simp only [pageBit_ser]; exact rfl)) | with_reducible apply setReg_within | with_reducible apply finishCommand_within | with_reducible exact Within.refl | intro _ | split | dsimp only))

theorem lateAbort_within {m : Nat} {s t : State} (h : Within m s t) (a0 : Page) (a1 : Outstanding) (hm : 0x4000000 ||| m = m) : Within m s (lateAbort a0 a1 t) := by
  unfold lateAbort
  repeat' (first | with_reducible assumption | ((with_reducible refine Mask.sub hm ?_); first | exact rfl | (simp only [pageBit_ser]; exact rfl)) | with_reducible apply setReg_within | with_reducible apply setOutstanding_within | with_reducible exact Within.refl | intro _ | split | dsimp only)

theorem abortReadWords_within {m : Nat} {s t : State} (h : Within m s t) (a0 : Outstanding) (hm : 0x30020036080800 ||| m = m) : Within m s (abortReadWords a0 t) := by
  unfold abortReadWords
  repeat' (first | with_reducible assumption | ((with_reducible refine Mask.sub hm ?_); first | exact rfl | (simp only [pageBit_ser]; exact rfl)) | with_reducible apply setReg_within | with_reducible apply done_within | with_reducible apply leaveOpen_within | with_reducible exact Within.refl | intro _ | split | dsimp only)

theorem abortSign_within {m : Nat} {s t : State} (h : Within m s t) (a0 : Outstanding) (hm : 0x24000034000890 ||| m = m) : Within m s (abortSign a0 t) := by
  unfold abortSign
  repeat' (first | with_reducible assumption | ((with_reducible refine Mask.sub hm ?_); first | exact rfl | (simp only [pageBit_ser]; exact rfl)) | with_reducible apply setReg_within | with_reducible apply abortCardSign_within | with_reducible apply lateAbort_within | (with_reducible refine abortCardSign_within_eq (by assumption) ?_ ?_) | with_reducible exact Within.refl | intro _ | split | dsimp only)

theorem abortCommand_within {m : Nat} {s t : State} (h : Within m s t) (a0 : Page) (a1 : Outstanding) (a2 : Nat) (hm : 0x35ffeabffdbffe ||| m = m) : Within m s (abortCommand a0 a1 a2 t) := by
  unfold abortCommand
  repeat' (first | with_reducible assumption | ((with_reducible refine Mask.sub hm ?_); first | exact rfl | (simp only [pageBit_lpt]; exact rfl)) | with_reducible apply setReg_within | with_reducible apply abortPower_within | with_reducible apply done_within | with_reducible apply abortKillTest_within | with_reducible apply abortSign_within | with_reducible apply abortSelfCal_within | with_reducible apply endBreak_within | with_reducible apply abortTru_within | with_reducible apply abortHandover_within | with_reducible apply lateAbort_within | with_reducible apply stopBlocks_within | with_reducible apply abortTestJob_within | with_reducible apply abortReadWords_within | with_reducible apply abortEncodeFrame_within | with_reducible apply abortEncodeBurst_within | with_reducible apply spoilTest_within | with_reducible apply abortSoftRepair_within | with_reducible apply abortCal_within | with_reducible apply abortReload_within | with_reducible exact Within.refl | intro _ | split | dsimp only)

theorem abortTag_within {m : Nat} {s t : State} (h : Within m s t) (a0 : Page) (a1 : Nat) (a2 : Nat) (hm : 0x35ffeabffdbffe ||| m = m) (hp0 : pageBit a0 ||| m = m) : Within m s (abortTag a0 a1 a2 t) := by
  unfold abortTag
  repeat' (first | with_reducible assumption | ((with_reducible refine Mask.sub hm ?_); first | exact rfl | (simp only [pageBit_ser]; exact rfl)) | with_reducible apply setReg_within | with_reducible apply abortCommand_within | with_reducible apply setStat_within | with_reducible apply dropCmd_within | with_reducible exact Within.refl | intro _ | split | dsimp only)

theorem execCmdAbort_within {m : Nat} {s t u : State} (h : Within m s t) (a0 : Page) (a1 : BitVec 8) (a2 : Nat) (hm : 0x35ffeabffdbffe ||| m = m) (hp0 : pageBit a0 ||| m = m) (e : execCmdAbort a0 a1 a2 t = .next u) : Within m s u := by
  unfold execCmdAbort at e
  try dsimp only at e
  repeat' split at e
  all_goals (cases e; repeat' (first | with_reducible assumption | ((with_reducible refine Mask.sub hm ?_); first | exact rfl | (simp only [pageBit_ser]; exact rfl)) | with_reducible apply setReg_within | with_reducible apply abortTag_within | with_reducible exact Within.refl | intro _ | split | dsimp only))

end Sys2Proof.Machine
end

