-- ==== Sys2Proof/Laws/WithinIdle.lean ====
section
/-! SUPPORT. Sys2Proof/Laws/WithinIdle.lean: the parts of a state that the operations of Machine/Idle.lean may change. -/
namespace Sys2Proof.Machine

theorem idle_within {m : Nat} {s t : State} (h : Within m s t) (hm : 0x40000000 ||| m = m) : Within m s (idle t) := by
  have b30 := Mask.has (i := 30) hm rfl
  unfold idle
  repeat' (first | with_reducible assumption | ((with_reducible refine Mask.sub hm ?_); first | exact rfl | (simp only [pageBit_ser]; exact rfl)) | with_reducible apply setReg_within | with_reducible exact Within.refl | ((with_reducible refine Within.upd ?_ (.inl rfl) (.inl rfl) (.inl rfl) (.inl rfl) (.inl rfl) (.inl rfl) (.inr b30) (.inl rfl) (.inl rfl) (.inl rfl) (.inl rfl) (.inl rfl) (.inl rfl) (.inl rfl) (.inl rfl) (.inl rfl) (.inl rfl) (.inl rfl) (.inl rfl) (.inl rfl) (.inl rfl) (.inl rfl) (.inl rfl) (.inl rfl) (.inl rfl) (.inl rfl) (.inl rfl) (.inl rfl) (.inl rfl) (.inl rfl)); first | with_reducible assumption | ((with_reducible refine Mask.sub hm ?_); first | exact rfl | (simp only [pageBit_ser]; exact rfl)) | with_reducible apply setReg_within | with_reducible exact Within.refl | split) | intro _ | split | dsimp only)

end Sys2Proof.Machine
end

