-- ==== Sys2Proof/Laws/WithinPageCmd.lean ====
section
/-! SUPPORT. Sys2Proof/Laws/WithinPageCmd.lean: the parts of a state that the operations of Machine/PageCmd.lean may change. -/
namespace Sys2Proof.Machine

theorem badOpcode_within {m : Nat} {s t u : State} (h : Within m s t) (a0 : Page) (a1 : Nat) (a2 : CmdSrc) (hm : 0x20000034000800 ||| m = m) (hp0 : pageBit a0 ||| m = m) (e : badOpcode a0 a1 a2 t = .next u) : Within m s u := by
  unfold badOpcode at e
  try dsimp only at e
  repeat' split at e
  all_goals (cases e; repeat' (first | with_reducible assumption | ((with_reducible refine Mask.sub hm ?_); first | exact rfl | (simp only [pageBit_ser]; exact rfl)) | with_reducible apply setReg_within | with_reducible apply issue_within | with_reducible apply done_within | with_reducible exact Within.refl | intro _ | split | dsimp only))

theorem supplyCommand_within {m : Nat} {s t u : State} (h : Within m s t) (a0 : Page) (a1 : Nat) (a2 : CmdSrc) (a3 : WriteEnv) (hm : 0x37ffffffffffff ||| m = m) (e : supplyCommand a0 a1 a2 a3 t = .next u) : Within m s u := by
  have bp : ∀ p, pageBit p ||| m = m := Mask.any (Mask.sub hm rfl)
  unfold supplyCommand at e
  try dsimp only at e
  repeat' split at e
  all_goals first | with_reducible exact execEnterDormouse_within h _ (Mask.sub hm rfl) e | with_reducible exact execEnterOutage_within h _ (Mask.sub hm rfl) e | with_reducible exact execLeaveOutage_within h _ (Mask.sub hm rfl) e | with_reducible exact execTestLastGasp_within h _ (Mask.sub hm rfl) e | with_reducible exact execResetModule_within h _ (Mask.sub hm rfl) e | with_reducible exact execVerifySlot_within h _ (Mask.sub hm rfl) e | with_reducible exact execConfirm_within h _ (Mask.sub hm rfl) e | with_reducible exact execEnterTest_within h _ (Mask.sub hm rfl) e | with_reducible exact execClearKill_within h _ _ (Mask.sub hm rfl) e | with_reducible exact execKillTest_within h _ (Mask.sub hm rfl) e | with_reducible exact badOpcode_within h _ _ _ (Mask.sub hm rfl) (by first | assumption | exact bp _) e | (cases e; repeat' (first | with_reducible assumption | ((with_reducible refine Mask.sub hm ?_); first | exact rfl | (simp only [pageBit_ser]; exact rfl)) | ((with_reducible refine Mask.any (Mask.sub hm ?_) _); exact rfl) | with_reducible apply setReg_within | with_reducible exact Within.refl | intro _ | split | dsimp only))

theorem managementCommand_within {m : Nat} {s t u : State} (h : Within m s t) (a0 : Page) (a1 : Nat) (a2 : CmdSrc) (hm : 0x2f42003fffffff ||| m = m) (e : managementCommand a0 a1 a2 t = .next u) : Within m s u := by
  have bp : ∀ p, pageBit p ||| m = m := Mask.any (Mask.sub hm rfl)
  unfold managementCommand at e
  try dsimp only at e
  repeat' split at e
  all_goals first | with_reducible exact execChallenge_within h _ (Mask.sub hm rfl) e | with_reducible exact execApply_within h _ (Mask.sub hm rfl) e | with_reducible exact execCardSign_within h _ (Mask.sub hm rfl) e | with_reducible exact execReadAuth_within h _ (Mask.sub hm rfl) e | with_reducible exact execReadDevPub_within h _ (Mask.sub hm rfl) e | with_reducible exact execLoadSlot_within h _ (Mask.sub hm rfl) e | with_reducible exact execEpfwImport_within h _ (Mask.sub hm rfl) e | with_reducible exact execEpfwDelete_within h _ (Mask.sub hm rfl) e | with_reducible exact execCampaignStart_within h _ (Mask.sub hm rfl) e | with_reducible exact execCampaignStop_within h _ (Mask.sub hm rfl) e | with_reducible exact execLogMark_within h _ (Mask.sub hm rfl) e | with_reducible exact execSelfCal_within h _ (Mask.sub hm rfl) e | with_reducible exact execSendBreak_within h _ _ (Mask.sub hm rfl) e | with_reducible exact badOpcode_within h _ _ _ (Mask.sub hm rfl) (by first | assumption | exact bp _) e | (cases e; repeat' (first | with_reducible assumption | ((with_reducible refine Mask.sub hm ?_); first | exact rfl | (simp only [pageBit_ser]; exact rfl)) | ((with_reducible refine Mask.any (Mask.sub hm ?_) _); exact rfl) | with_reducible apply setReg_within | with_reducible exact Within.refl | intro _ | split | dsimp only))

theorem outsideCommand_within {m : Nat} {s t u : State} (h : Within m s t) (a0 : Page) (a1 : Nat) (a2 : CmdSrc) (a3 : WriteEnv) (hm : 0x20ac403fffffff ||| m = m) (e : outsideCommand a0 a1 a2 a3 t = .next u) : Within m s u := by
  have bp : ∀ p, pageBit p ||| m = m := Mask.any (Mask.sub hm rfl)
  unfold outsideCommand at e
  try dsimp only at e
  repeat' split at e
  all_goals first | with_reducible exact execRealign_within h _ (Mask.sub hm rfl) e | with_reducible exact execSetTime_within h _ _ (Mask.sub hm rfl) e | with_reducible exact execCapture_within h _ _ (Mask.sub hm rfl) e | with_reducible exact execEndWtr_within h _ _ (Mask.sub hm rfl) e | with_reducible exact execHandover_within h _ (Mask.sub hm rfl) e | with_reducible exact execResync_within h _ (Mask.sub hm rfl) e | with_reducible exact execReadBlocks_within h _ (Mask.sub hm rfl) e | with_reducible exact execWriteBlocks_within h _ (Mask.sub hm rfl) e | with_reducible exact execTrim_within h _ (Mask.sub hm rfl) e | with_reducible exact execRingReset_within h _ (Mask.sub hm rfl) e | with_reducible exact badOpcode_within h _ _ _ (Mask.sub hm rfl) (by first | assumption | exact bp _) e | (cases e; repeat' (first | with_reducible assumption | ((with_reducible refine Mask.sub hm ?_); first | exact rfl | (simp only [pageBit_ser]; exact rfl)) | ((with_reducible refine Mask.any (Mask.sub hm ?_) _); exact rfl) | with_reducible apply setReg_within | with_reducible exact Within.refl | intro _ | split | dsimp only))

theorem macCommand_within {m : Nat} {s t u : State} (h : Within m s t) (a0 : Page) (a1 : Nat) (a2 : CmdSrc) (hm : 0x28ba5837ffffff ||| m = m) (e : macCommand a0 a1 a2 t = .next u) : Within m s u := by
  have bp : ∀ p, pageBit p ||| m = m := Mask.any (Mask.sub hm rfl)
  unfold macCommand at e
  try dsimp only at e
  repeat' split at e
  all_goals first | with_reducible exact execProvision_within h _ (Mask.sub hm rfl) e | with_reducible exact execReadCtx_within h _ (Mask.sub hm rfl) e | with_reducible exact execFind_within h _ (Mask.sub hm rfl) e | with_reducible exact execRelease_within h _ (Mask.sub hm rfl) e | with_reducible exact execPark_within h _ (Mask.sub hm rfl) e | with_reducible exact execRekey_within h _ (Mask.sub hm rfl) e | with_reducible exact execDeleteParked_within h _ (Mask.sub hm rfl) e | with_reducible exact execSetRecord_within h _ (Mask.sub hm rfl) e | with_reducible exact execRotateBkey_within h _ (Mask.sub hm rfl) e | with_reducible exact execSetRoute_within h _ (Mask.sub hm rfl) e | with_reducible exact execClearRoute_within h _ (Mask.sub hm rfl) e | with_reducible exact execAppoint_within h _ (Mask.sub hm rfl) e | with_reducible exact execClearPort_within h _ (Mask.sub hm rfl) e | with_reducible exact execSnapshot_within h _ (Mask.sub hm rfl) e | with_reducible exact execTestJob_within h _ (Mask.sub hm rfl) e | with_reducible exact execSelfTest_within h _ (Mask.sub hm rfl) e | with_reducible exact execZeroTestKey_within h _ (Mask.sub hm rfl) e | with_reducible exact badOpcode_within h _ _ _ (Mask.sub hm rfl) (by first | assumption | exact bp _) e | (cases e; repeat' (first | with_reducible assumption | ((with_reducible refine Mask.sub hm ?_); first | exact rfl | (simp only [pageBit_ser]; exact rfl)) | ((with_reducible refine Mask.any (Mask.sub hm ?_) _); exact rfl) | with_reducible apply setReg_within | with_reducible exact Within.refl | intro _ | split | dsimp only))

theorem lineCommand_within {m : Nat} {s t u : State} (h : Within m s t) (a0 : Page) (a1 : Nat) (a2 : CmdSrc) (hm : 0x2003a237ffffff ||| m = m) (e : lineCommand a0 a1 a2 t = .next u) : Within m s u := by
  have bp : ∀ p, pageBit p ||| m = m := Mask.any (Mask.sub hm rfl)
  unfold lineCommand at e
  try dsimp only at e
  repeat' split at e
  all_goals first | with_reducible exact execForceRelease_within h _ (Mask.sub hm rfl) e | with_reducible exact execReadWords_within h _ (Mask.sub hm rfl) e | with_reducible exact execEncodeFrame_within h _ (Mask.sub hm rfl) e | with_reducible exact execEncodeBurst_within h _ (Mask.sub hm rfl) e | with_reducible exact execReadDyn_within h _ (Mask.sub hm rfl) e | with_reducible exact execClearConflicts_within h _ (Mask.sub hm rfl) e | with_reducible exact execTestBank_within h _ (Mask.sub hm rfl) e | with_reducible exact execSoftRepair_within h _ _ (Mask.sub hm rfl) e | with_reducible exact execCalPort_within h _ _ (Mask.sub hm rfl) e | with_reducible exact execMeasureZ_within h _ _ (Mask.sub hm rfl) e | with_reducible exact execAbortBurst_within h _ _ (Mask.sub hm rfl) e | with_reducible exact execReloadCluster_within h _ _ (Mask.sub hm rfl) e | with_reducible exact badOpcode_within h _ _ _ (Mask.sub hm rfl) (by first | assumption | exact bp _) e | (cases e; repeat' (first | with_reducible assumption | ((with_reducible refine Mask.sub hm ?_); first | exact rfl | (simp only [pageBit_ser]; exact rfl)) | ((with_reducible refine Mask.any (Mask.sub hm ?_) _); exact rfl) | with_reducible apply setReg_within | with_reducible exact Within.refl | intro _ | split | dsimp only))

theorem runCommand_within {m : Nat} {s t u : State} (h : Within m s t) (a0 : Page) (a1 : Nat) (a2 : CmdSrc) (a3 : WriteEnv) (hm : 0x3fffffffffffff ||| m = m) (hp0 : pageBit a0 ||| m = m) (e : runCommand a0 a1 a2 a3 t = .next u) : Within m s u := by
  have bp : ∀ p, pageBit p ||| m = m := Mask.any (Mask.sub hm rfl)
  unfold runCommand at e
  try dsimp only at e
  repeat' split at e
  all_goals first | with_reducible exact execNop_within h _ _ (Mask.sub hm rfl) (by first | assumption | exact bp _) e | with_reducible exact supplyCommand_within h _ _ _ _ (Mask.sub hm rfl) e | with_reducible exact managementCommand_within h _ _ _ (Mask.sub hm rfl) e | with_reducible exact outsideCommand_within h _ _ _ _ (Mask.sub hm rfl) e | with_reducible exact macCommand_within h _ _ _ (Mask.sub hm rfl) e | with_reducible exact lineCommand_within h _ _ _ (Mask.sub hm rfl) e | (cases e; repeat' (first | with_reducible assumption | ((with_reducible refine Mask.sub hm ?_); first | exact rfl | (simp only [pageBit_ser]; exact rfl)) | ((with_reducible refine Mask.any (Mask.sub hm ?_) _); exact rfl) | with_reducible apply setReg_within | with_reducible exact Within.refl | intro _ | split | dsimp only))

theorem writeCmd_within {m : Nat} {s t u : State} (h : Within m s t) (a0 : Page) (a1 : Word) (a2 : WriteEnv) (hm : 0x3fffffffffffff ||| m = m) (hp0 : pageBit a0 ||| m = m) (e : writeCmd a0 a1 a2 t = .next u) : Within m s u := by
  have bp : ∀ p, pageBit p ||| m = m := Mask.any (Mask.sub hm rfl)
  unfold writeCmd at e
  try dsimp only at e
  repeat' split at e
  all_goals first | with_reducible exact execCmdAbort_within h _ _ _ (Mask.sub hm rfl) (by first | assumption | exact bp _) e | with_reducible exact runCommand_within h _ _ _ _ (Mask.sub hm rfl) (by first | assumption | exact bp _) e | (cases e; repeat' (first | with_reducible assumption | ((with_reducible refine Mask.sub hm ?_); first | exact rfl | (simp only [pageBit_ser]; exact rfl)) | ((with_reducible refine Mask.any (Mask.sub hm ?_) _); exact rfl) | with_reducible apply setReg_within | with_reducible exact Within.refl | intro _ | split | dsimp only))

theorem resetBlock_within {m : Nat} {s t u : State} (h : Within m s t) (a0 : Page) (a1 : WriteEnv) (hm : 0x35fffe3ffffffc ||| m = m) (e : resetBlock a0 a1 t = .next u) : Within m s u := by
  unfold resetBlock at e
  try dsimp only at e
  repeat' split at e
  all_goals first | with_reducible exact execMgtBlkReset_within h  (Mask.sub hm rfl) e | with_reducible exact execSenBlkReset_within h  (Mask.sub hm rfl) e | with_reducible exact execSerBlkReset_within h _ (Mask.sub hm rfl) e | with_reducible exact execTruBlkReset_within h  (Mask.sub hm rfl) e | with_reducible exact execPairBlkReset_within h  (Mask.sub hm rfl) e | with_reducible exact execStoBlkReset_within h _ (Mask.sub hm rfl) e | with_reducible exact execPciBlkReset_within h  (Mask.sub hm rfl) e | with_reducible exact execLanBlkReset_within h _ (Mask.sub hm rfl) e | with_reducible exact execBcnBlkReset_within h  (Mask.sub hm rfl) e | with_reducible exact execAscBlkReset_within h  (Mask.sub hm rfl) e | with_reducible exact execRptBlkReset_within h  (Mask.sub hm rfl) e | with_reducible exact execNcalBlkReset_within h  (Mask.sub hm rfl) e | with_reducible exact execCipBlkReset_within h  (Mask.sub hm rfl) e | with_reducible exact execBqBlkReset_within h  (Mask.sub hm rfl) e | with_reducible exact execNbwBlkReset_within h  (Mask.sub hm rfl) e | with_reducible exact execBbwBlkReset_within h  (Mask.sub hm rfl) e | with_reducible exact execMemGlobalBlkReset_within h  (Mask.sub hm rfl) e | with_reducible exact execLptBlkReset_within h _ (Mask.sub hm rfl) e | with_reducible exact execEngBlkReset_within h _ (Mask.sub hm rfl) e | with_reducible exact execMembBlkReset_within h _ (Mask.sub hm rfl) e | (cases e; repeat' (first | with_reducible assumption | ((with_reducible refine Mask.sub hm ?_); first | exact rfl | (simp only [pageBit_ser]; exact rfl)) | with_reducible apply setReg_within | with_reducible exact Within.refl | intro _ | split | dsimp only))

end Sys2Proof.Machine
end

