-- ==== Sys2Proof/Laws/WithinRegWrite.lean ====
section
/-! SUPPORT. Sys2Proof/Laws/WithinRegWrite.lean: the parts of a state that the operations of Machine/RegWrite.lean may change. -/
namespace Sys2Proof.Machine

theorem execIntStatClear_within {m : Nat} {s t u : State} (h : Within m s t) (a0 : Page) (a1 : Word) (hm : 0x20000020000000 ||| m = m) (hp0 : pageBit a0 ||| m = m) (e : execIntStatClear a0 a1 t = .next u) : Within m s u := by
  unfold execIntStatClear at e
  try dsimp only at e
  repeat' split at e
  all_goals (cases e; repeat' (first | with_reducible assumption | ((with_reducible refine Mask.sub hm ?_); first | exact rfl | (simp only [pageBit_ser]; exact rfl)) | with_reducible apply setReg_within | with_reducible apply afterInt_within | with_reducible exact Within.refl | intro _ | split | dsimp only))

theorem execIntEnWrite_within {m : Nat} {s t u : State} (h : Within m s t) (a0 : Page) (a1 : Word) (hm : 0x20000020000000 ||| m = m) (hp0 : pageBit a0 ||| m = m) (e : execIntEnWrite a0 a1 t = .next u) : Within m s u := by
  unfold execIntEnWrite at e
  try dsimp only at e
  repeat' split at e
  all_goals (cases e; repeat' (first | with_reducible assumption | ((with_reducible refine Mask.sub hm ?_); first | exact rfl | (simp only [pageBit_ser]; exact rfl)) | with_reducible apply setReg_within | with_reducible apply afterInt_within | with_reducible exact Within.refl | intro _ | split | dsimp only))

theorem execIntForce_within {m : Nat} {s t u : State} (h : Within m s t) (a0 : Page) (a1 : Word) (hm : 0x20000020000000 ||| m = m) (hp0 : pageBit a0 ||| m = m) (e : execIntForce a0 a1 t = .next u) : Within m s u := by
  unfold execIntForce at e
  try dsimp only at e
  repeat' split at e
  all_goals (cases e; repeat' (first | with_reducible assumption | ((with_reducible refine Mask.sub hm ?_); first | exact rfl | (simp only [pageBit_ser]; exact rfl)) | with_reducible apply setReg_within | with_reducible apply raiseMask_within | with_reducible exact Within.refl | intro _ | split | dsimp only))

theorem execCmdStatClear_within {m : Nat} {s t u : State} (h : Within m s t) (a0 : Page) (a1 : Word) (hp0 : pageBit a0 ||| m = m) (e : execCmdStatClear a0 a1 t = .next u) : Within m s u := by
  unfold execCmdStatClear at e
  try dsimp only at e
  repeat' split at e
  all_goals (cases e; repeat' (first | with_reducible assumption | with_reducible apply setReg_within | with_reducible exact Within.refl | intro _ | split | dsimp only))

theorem writeKept_within {m : Nat} {s t : State} (h : Within m s t) (a0 : Page) (a1 : Nat) (a2 : Word) (a3 : Field → Bool) (hm : 0x20000020000000 ||| m = m) (hp0 : pageBit a0 ||| m = m) : Within m s (writeKept a0 a1 a2 a3 t) := by
  unfold writeKept
  repeat' (first | with_reducible assumption | ((with_reducible refine Mask.sub hm ?_); first | exact rfl | (simp only [pageBit_ser]; exact rfl)) | with_reducible apply setReg_within | with_reducible apply countErr_within | with_reducible apply writeField_within | with_reducible apply Within.foldl | with_reducible exact Within.refl | intro _ | split | dsimp only)

theorem outagePortsWritten_within {m : Nat} {s t : State} (h : Within m s t) (hm : 0x1800000 ||| m = m) : Within m s (outagePortsWritten t) := by
  unfold outagePortsWritten
  repeat' (first | with_reducible assumption | ((with_reducible refine Mask.sub hm ?_); first | exact rfl | (simp only [pageBit_ser]; exact rfl)) | with_reducible apply setReg_within | with_reducible apply refreshEngines_within | with_reducible apply refreshChain_within | with_reducible apply Within.foldl | with_reducible exact Within.refl | intro _ | split | dsimp only)

theorem levelWritten_within {m : Nat} {s t : State} (h : Within m s t) (a0 : Port) (a1 : Word) (hm : 0x20000028800020 ||| m = m) : Within m s (levelWritten a0 a1 t) := by
  unfold levelWritten
  repeat' (first | with_reducible assumption | ((with_reducible refine Mask.sub hm ?_); first | exact rfl | (simp only [pageBit_lpt]; exact rfl)) | with_reducible apply setReg_within | with_reducible apply writeFields_within | with_reducible apply capPort_within | with_reducible exact Within.refl | intro _ | split | dsimp only)

theorem beaconCfgWritten_within {m : Nat} {s t : State} (h : Within m s t) (a0 : Word) (hm : 0x20002028004020 ||| m = m) : Within m s (beaconCfgWritten a0 t) := by
  have b37 := Mask.has (i := 37) hm rfl
  unfold beaconCfgWritten
  repeat' (first | with_reducible assumption | ((with_reducible refine Mask.sub hm ?_); first | exact rfl | (simp only [pageBit_ser]; exact rfl)) | with_reducible apply setReg_within | with_reducible apply epochWritten_within | with_reducible apply writeFields_within | with_reducible exact Within.refl | ((with_reducible refine Within.upd ?_ (.inl rfl) (.inl rfl) (.inl rfl) (.inl rfl) (.inl rfl) (.inl rfl) (.inl rfl) (.inl rfl) (.inl rfl) (.inl rfl) (.inl rfl) (.inl rfl) (.inl rfl) (.inr b37) (.inl rfl) (.inl rfl) (.inl rfl) (.inl rfl) (.inl rfl) (.inl rfl) (.inl rfl) (.inl rfl) (.inl rfl) (.inl rfl) (.inl rfl) (.inl rfl) (.inl rfl) (.inl rfl) (.inl rfl) (.inl rfl)); first | with_reducible assumption | ((with_reducible refine Mask.sub hm ?_); first | exact rfl | (simp only [pageBit_ser]; exact rfl)) | with_reducible apply setReg_within | with_reducible apply epochWritten_within | with_reducible apply writeFields_within | with_reducible exact Within.refl | split) | intro _ | split | dsimp only)

theorem treeWritten_within {m : Nat} {s t : State} (h : Within m s t) (a0 : Word) (hm : 0x20000028010020 ||| m = m) : Within m s (treeWritten a0 t) := by
  unfold treeWritten
  repeat' (first | with_reducible assumption | ((with_reducible refine Mask.sub hm ?_); first | exact rfl | (simp only [pageBit_ser]; exact rfl)) | with_reducible apply setReg_within | with_reducible apply writeFields_within | with_reducible apply setB_within | with_reducible exact Within.refl | intro _ | split | dsimp only)

theorem badgerWritten_within {m : Nat} {s t : State} (h : Within m s t) (a0 : Word) (hm : 0x20000020400000 ||| m = m) : Within m s (badgerWritten a0 t) := by
  unfold badgerWritten
  repeat' (first | with_reducible assumption | ((with_reducible refine Mask.sub hm ?_); first | exact rfl | (simp only [pageBit_ser]; exact rfl)) | with_reducible apply setReg_within | with_reducible apply writeKept_within | with_reducible apply setB_within | with_reducible exact Within.refl | intro _ | split | dsimp only)

theorem timingWritten_within {m : Nat} {s t : State} (h : Within m s t) (a0 : Word) (hm : 0x20000020000100 ||| m = m) : Within m s (timingWritten a0 t) := by
  unfold timingWritten
  repeat' (first | with_reducible assumption | ((with_reducible refine Mask.sub hm ?_); first | exact rfl | (simp only [pageBit_ser]; exact rfl)) | with_reducible apply setReg_within | with_reducible apply writeKept_within | with_reducible exact Within.refl | intro _ | split | dsimp only)

theorem laneWritten_within {m : Nat} {s t : State} (h : Within m s t) (a0 : Lane) (a1 : Word) (hm : 0x20200028001820 ||| m = m) : Within m s (laneWritten a0 a1 t) := by
  unfold laneWritten
  repeat' (first | with_reducible assumption | ((with_reducible refine Mask.sub hm ?_); first | exact rfl | (simp only [pageBit_lan]; exact rfl)) | with_reducible apply setReg_within | with_reducible apply writeFields_within | with_reducible apply refreshTunnel_within | with_reducible apply laneFall_within | with_reducible exact Within.refl | intro _ | split | dsimp only)

theorem etypeWritten_within {m : Nat} {s t : State} (h : Within m s t) (a0 : Lane) (a1 : Word) (hm : 0x20000020001000 ||| m = m) : Within m s (etypeWritten a0 a1 t) := by
  unfold etypeWritten
  repeat' (first | with_reducible assumption | ((with_reducible refine Mask.sub hm ?_); first | exact rfl | (simp only [pageBit_lan]; exact rfl)) | with_reducible apply setReg_within | with_reducible apply writeKept_within | with_reducible exact Within.refl | intro _ | split | dsimp only)

theorem mirrorLaneWritten_within {m : Nat} {s t : State} (h : Within m s t) (a0 : MLane) (a1 : Word) (hm : 0x20000028002020 ||| m = m) : Within m s (mirrorLaneWritten a0 a1 t) := by
  unfold mirrorLaneWritten
  repeat' (first | with_reducible assumption | ((with_reducible refine Mask.sub hm ?_); first | exact rfl | (simp only [pageBit_lanm]; exact rfl)) | with_reducible apply setReg_within | with_reducible apply countErr_within | with_reducible apply writeFields_within | with_reducible apply mirrorFall_within | with_reducible exact Within.refl | intro _ | split | dsimp only)

theorem ringWritten_within {m : Nat} {s t : State} (h : Within m s t) (a0 : Nat) (a1 : Nat) (a2 : Word) (hm : 0x20000038000820 ||| m = m) : Within m s (ringWritten a0 a1 a2 t) := by
  unfold ringWritten
  repeat' (first | with_reducible assumption | ((with_reducible refine Mask.sub hm ?_); first | exact rfl | (simp only [pageBit_ser]; exact rfl)) | with_reducible apply setReg_within | with_reducible apply countErr_within | with_reducible apply setI_within | with_reducible apply writeFields_within | with_reducible apply flushRing_within | with_reducible exact Within.refl | intro _ | split | dsimp only)

theorem sensorWritten_within {m : Nat} {s t : State} (h : Within m s t) (a0 : Nat) (a1 : Nat) (a2 : Word) (hm : 0x21000028000060 ||| m = m) : Within m s (sensorWritten a0 a1 a2 t) := by
  unfold sensorWritten
  repeat' (first | with_reducible assumption | ((with_reducible refine Mask.sub hm ?_); first | exact rfl | (simp only [pageBit_ser]; exact rfl)) | with_reducible apply setReg_within | with_reducible apply senCfgWritten_within | with_reducible apply writeFields_within | with_reducible exact Within.refl | intro _ | split | dsimp only)

theorem writePlain_within {m : Nat} {s t : State} (h : Within m s t) (a0 : Page) (a1 : Nat) (a2 : Word) (hm : 0x2120203bffffff ||| m = m) (hp0 : pageBit a0 ||| m = m) : Within m s (writePlain a0 a1 a2 t) := by
  unfold writePlain
  repeat' (first | with_reducible assumption | ((with_reducible refine Mask.sub hm ?_); first | exact rfl | (simp only [pageBit_ser]; exact rfl)) | ((with_reducible refine Mask.any (Mask.sub hm ?_) _); exact rfl) | with_reducible apply setReg_within | with_reducible apply outagePortsWritten_within | with_reducible apply writeFields_within | with_reducible apply levelWritten_within | with_reducible apply nbPending_within | with_reducible apply bbPending_within | with_reducible apply ncalPending_within | with_reducible apply beaconCfgWritten_within | with_reducible apply epochWritten_within | with_reducible apply treeWritten_within | with_reducible apply refreshCluster_within | with_reducible apply bqCfgPending_within | with_reducible apply badgerWritten_within | with_reducible apply timingWritten_within | with_reducible apply laneWritten_within | with_reducible apply etypeWritten_within | with_reducible apply mirrorLaneWritten_within | with_reducible apply refreshTunnel_within | with_reducible apply ringWritten_within | with_reducible apply sensorWritten_within | with_reducible exact Within.refl | intro _ | split | dsimp only)

theorem writeBlock_within {m : Nat} {s t u : State} (h : Within m s t) (a0 : Page) (a1 : Nat) (a2 : Word) (a3 : WriteEnv) (hm : 0x253620bbffffff ||| m = m) (e : writeBlock a0 a1 a2 a3 t = .next u) : Within m s u := by
  have bp : ∀ p, pageBit p ||| m = m := Mask.any (Mask.sub hm rfl)
  unfold writeBlock at e
  try dsimp only at e
  repeat' split at e
  all_goals first | with_reducible exact execPwrRtcAlarmLoWrite_within h _ (Mask.sub hm rfl) e | with_reducible exact execLptDeclWrite_within h _ _ (Mask.sub hm rfl) e | with_reducible exact execNcalSelWrite_within h _ (Mask.sub hm rfl) e | with_reducible exact execBcnDwellSelWrite_within h _ (Mask.sub hm rfl) e | with_reducible exact execRptRouteSelWrite_within h _ (Mask.sub hm rfl) e | with_reducible exact execBqSelWrite_within h _ (Mask.sub hm rfl) e | with_reducible exact execMemCntSelWrite_within h _ (Mask.sub hm rfl) e | with_reducible exact execMembPowerWrite_within h _ _ (Mask.sub hm rfl) e | with_reducible exact execCipTestCtlWrite_within h _ (Mask.sub hm rfl) e | with_reducible exact execTruModeWrite_within h _ _ (Mask.sub hm rfl) e | with_reducible exact execSerDivWrite_within h _ _ _ (Mask.sub hm rfl) e | with_reducible exact execSerTxWrite_within h _ _ _ (Mask.sub hm rfl) e | with_reducible exact execCipTestKeyWrite_within h _ _ (Mask.sub hm rfl) e | with_reducible exact execRefCfgWrite_within h _ _ _ (Mask.sub hm rfl) e | with_reducible exact execEngCtxSelWrite_within h _ (Mask.sub hm rfl) e | (cases e; repeat' (first | with_reducible assumption | ((with_reducible refine Mask.sub hm ?_); first | exact rfl | (simp only [pageBit_eng]; exact rfl)) | ((with_reducible refine Mask.any (Mask.sub hm ?_) _); exact rfl) | with_reducible apply setReg_within | with_reducible apply writePlain_within | with_reducible exact Within.refl | intro _ | split | dsimp only))

theorem writeHeader_within {m : Nat} {s t u : State} (h : Within m s t) (a0 : Page) (a1 : Nat) (a2 : Word) (a3 : WriteEnv) (hm : 0x3fffffffffffff ||| m = m) (hp0 : pageBit a0 ||| m = m) (e : writeHeader a0 a1 a2 a3 t = .next u) : Within m s u := by
  have bp : ∀ p, pageBit p ||| m = m := Mask.any (Mask.sub hm rfl)
  unfold writeHeader at e
  try dsimp only at e
  repeat' split at e
  all_goals first | with_reducible exact resetBlock_within h _ _ (Mask.sub hm rfl) e | with_reducible exact execIntStatClear_within h _ _ (Mask.sub hm rfl) (by first | assumption | exact bp _) e | with_reducible exact execIntEnWrite_within h _ _ (Mask.sub hm rfl) (by first | assumption | exact bp _) e | with_reducible exact execIntForce_within h _ _ (Mask.sub hm rfl) (by first | assumption | exact bp _) e | with_reducible exact writeCmd_within h _ _ _ (Mask.sub hm rfl) (by first | assumption | exact bp _) e | with_reducible exact execCmdStatClear_within h _ _ (by first | assumption | exact bp _) e | (cases e; repeat' (first | with_reducible assumption | ((with_reducible refine Mask.sub hm ?_); first | exact rfl | (simp only [pageBit_ser]; exact rfl)) | ((with_reducible refine Mask.any (Mask.sub hm ?_) _); exact rfl) | with_reducible apply setReg_within | with_reducible exact Within.refl | intro _ | split | dsimp only))

theorem notPerformed_within {m : Nat} {s t : State} (h : Within m s t) (a0 : Page) (hm : 0x20000020000000 ||| m = m) (hp0 : pageBit a0 ||| m = m) : Within m s (notPerformed a0 t) := by
  unfold notPerformed
  repeat' (first | with_reducible assumption | ((with_reducible refine Mask.sub hm ?_); first | exact rfl | (simp only [pageBit_ser]; exact rfl)) | with_reducible apply setReg_within | with_reducible apply countErr_within | with_reducible apply raise_within | with_reducible exact Within.refl | intro _ | split | dsimp only)

theorem writeBar2_within {m : Nat} {s t u : State} (h : Within m s t) (a0 : Nat) (a1 : Word) (a2 : WriteEnv) (hm : 0x2000003fffffff ||| m = m) (e : writeBar2 a0 a1 a2 t = .next u) : Within m s u := by
  have b29 := Mask.has (i := 29) hm rfl
  have bp : ∀ p, pageBit p ||| m = m := Mask.any (Mask.sub hm rfl)
  unfold writeBar2 at e
  try dsimp only at e
  repeat' split at e
  all_goals first | with_reducible exact execSqProdDoorbell_within h _ _ _ (Mask.sub hm rfl) e | with_reducible exact execCqConsDoorbell_within h _ _ (Mask.sub hm rfl) e | with_reducible exact execMsixUnmask_within h _ (Mask.sub hm rfl) e | (cases e; repeat' (first | with_reducible assumption | ((with_reducible refine Mask.sub hm ?_); first | exact rfl | (simp only [pageBit_ser]; exact rfl)) | ((with_reducible refine Mask.any (Mask.sub hm ?_) _); exact rfl) | with_reducible apply setReg_within | with_reducible exact Within.refl | ((with_reducible refine Within.upd ?_ (.inl rfl) (.inl rfl) (.inl rfl) (.inr b29) (.inl rfl) (.inr b29) (.inl rfl) (.inl rfl) (.inl rfl) (.inl rfl) (.inl rfl) (.inl rfl) (.inl rfl) (.inl rfl) (.inl rfl) (.inl rfl) (.inl rfl) (.inl rfl) (.inl rfl) (.inl rfl) (.inl rfl) (.inl rfl) (.inl rfl) (.inl rfl) (.inl rfl) (.inl rfl) (.inl rfl) (.inl rfl) (.inl rfl) (.inl rfl)); first | with_reducible assumption | ((with_reducible refine Mask.sub hm ?_); first | exact rfl | (simp only [pageBit_ser]; exact rfl)) | ((with_reducible refine Mask.any (Mask.sub hm ?_) _); exact rfl) | with_reducible apply setReg_within | with_reducible exact Within.refl | split) | intro _ | split | dsimp only))

theorem execRegisterWrite_within {m : Nat} {s t u : State} (h : Within m s t) (a0 : HostAddr) (a1 : AccessForm) (a2 : Word) (a3 : WriteEnv) (hm : 0x3fffffffffffff ||| m = m) (e : execRegisterWrite a0 a1 a2 a3 t = .next u) : Within m s u := by
  have bp : ∀ p, pageBit p ||| m = m := Mask.any (Mask.sub hm rfl)
  unfold execRegisterWrite at e
  try dsimp only at e
  repeat' split at e
  all_goals first | with_reducible exact writeBar2_within h _ _ _ (Mask.sub hm rfl) e | with_reducible exact writeHeader_within h _ _ _ _ (Mask.sub hm rfl) (by first | assumption | exact bp _) e | with_reducible exact writeBlock_within h _ _ _ _ (Mask.sub hm rfl) e | (cases e; repeat' (first | with_reducible assumption | ((with_reducible refine Mask.sub hm ?_); first | exact rfl | (simp only [pageBit_ser]; exact rfl)) | ((with_reducible refine Mask.any (Mask.sub hm ?_) _); exact rfl) | with_reducible apply setReg_within | with_reducible apply notPerformed_within | with_reducible exact Within.refl | intro _ | split | dsimp only))

theorem clearRead_within {m : Nat} {s t : State} (h : Within m s t) (a0 : Page) (a1 : Nat) (hp0 : pageBit a0 ||| m = m) : Within m s (clearRead a0 a1 t) := by
  unfold clearRead
  repeat' (first | with_reducible assumption | with_reducible apply setReg_within | with_reducible apply Within.foldl | with_reducible exact Within.refl | intro _ | split | dsimp only)

theorem readReg_within {m : Nat} {s t u : State} (h : Within m s t) (a0 : Page) (a1 : Nat) (hm : 0x21000043ffffff ||| m = m) (e : readReg a0 a1 t = .next u) : Within m s u := by
  have bp : ∀ p, pageBit p ||| m = m := Mask.any (Mask.sub hm rfl)
  unfold readReg at e
  try dsimp only at e
  repeat' split at e
  all_goals first | with_reducible exact execPwrRtcLoRead_within h  (Mask.sub hm rfl) e | with_reducible exact execSerRxRead_within h _ _ (Mask.sub hm rfl) e | with_reducible exact execSenTempRead_within h _ (Mask.sub hm rfl) e | (cases e; repeat' (first | with_reducible assumption | ((with_reducible refine Mask.sub hm ?_); first | exact rfl | (simp only [pageBit_eng]; exact rfl)) | ((with_reducible refine Mask.any (Mask.sub hm ?_) _); exact rfl) | with_reducible apply setReg_within | with_reducible apply returnWord_within | with_reducible apply clearRead_within | with_reducible exact Within.refl | intro _ | split | dsimp only))

theorem execCounterReadClear_within {m : Nat} {s t u : State} (h : Within m s t) (a0 : HostAddr) (a1 : AccessForm) (hm : 0x21000063ffffff ||| m = m) (e : execCounterReadClear a0 a1 t = .next u) : Within m s u := by
  have bp : ∀ p, pageBit p ||| m = m := Mask.any (Mask.sub hm rfl)
  unfold execCounterReadClear at e
  try dsimp only at e
  repeat' split at e
  all_goals first | with_reducible exact readReg_within h _ _ (Mask.sub hm rfl) e | (cases e; repeat' (first | with_reducible assumption | ((with_reducible refine Mask.sub hm ?_); first | exact rfl | (simp only [pageBit_ser]; exact rfl)) | ((with_reducible refine Mask.any (Mask.sub hm ?_) _); exact rfl) | with_reducible apply setReg_within | with_reducible apply returnWord_within | with_reducible apply notPerformed_within | with_reducible exact Within.refl | intro _ | split | dsimp only))

end Sys2Proof.Machine
end

