-- ==== Sys2Proof/Machine/Outputs.lean ====
section
/-!
DEFINITION. Sys2Proof/Machine/Outputs.lean: the pins and indicators that the module drives from its state: ALERT# (R54), the four indicators (R59), and the timing
outputs T3 and T4 (R361). They are functions of the state, so they need no field of their own.
-/
namespace Sys2Proof.Machine

/-- Whether Tarlum is in the recovery monitor: MODE RECOVERY, or TEST, which is entered from it and keeps its state (R90). DEDUCED (log 44). -/
def inMonitor (s : State) : Bool := decide (mode s = MODE.RECOVERY) || decide (mode s = 4)

/-- Whether ALERT# is pulled low: a reset in progress, a kill in force, or the recovery monitor; the pin is released while the module's domains have no power
(R54). -/
def alertLow (s : State) : Bool := moduleOn s && (decide (mode s = 1) || killed s || inMonitor s)

/-- The lights of an indicator (R59). -/
inductive Light where
  | off | green | greenSlow | amber | amberSlow | red | redFast
deriving DecidableEq, Repr

/-- PWR: the lowest row that holds (R59); amber in DORMOUSE and in the cold hold (R71, R76). Running from the hold-up reserve is shown as no supply. DEDUCED (log 44). -/
def pwrLight (s : State) : Light :=
  if s.pwr.state = .off then .off
  else if s.pwr.state = .dormouse ∨ s.pwr.cold then .amber
  else match source s with
    | 1 => .green
    | 2 => .greenSlow
    | _ => .off

/-- Whether only the PWR indicator is driven (R71, R76). -/
def onlyPwr (s : State) : Bool := !moduleOn s || s.pwr.cold

/-- TIME, by the state of the TRU; off until stage 0x0C, before which the TRU does not run (R59). DEDUCED (log 44). -/
def timeLight (s : State) : Light :=
  if onlyPwr s || decide (getF s .boot BOOT_STATUS.STAGE < 0x0C) then .off
  else match tq s with
    | 0 => .green
    | 1 => .greenSlow
    | 2 => .amber
    | 3 => .amberSlow
    | _ => .red

/-- LINE: the lowest row that holds (R59); a member of a pair whose role is not yet settled is shown like one that does not beacon. DESIGN CHOICE (log 44). -/
def lineLight (s : State) : Light :=
  if onlyPwr s then .off
  else if killed s then .red
  else if (declaredPorts s).isEmpty then .amber
  else if pairRole s = 2 then .greenSlow
  else if mayBeacon s then .green
  else .amber

/-- ALARM: the lowest row that holds (R59). -/
def alarmLight (s : State) : Light :=
  if onlyPwr s then .off
  else if inMonitor s then .redFast
  else if allPages.any (pageFault s) then .red
  else .off

/-- Whether the state's bit in TRU_OUT.SQUELCH holds TOUT_PPS and TOUT_EPOCH low (R361). -/
def squelched (s : State) : Bool := (getF s .tru TRU_OUT.SQUELCH).testBit (tq s)

/-- The TRU time that the outputs show at a TRU time in nanoseconds: they lead by ADVANCE (R361). -/
def outTime (s : State) (t : Int) : Int := t + signedOf 16 (getF s .tru TRU_OUT_ADV.ADVANCE)

/-- TOUT_PPS on T3 at a TRU time: high for PPS_WIDTH from each whole second (R361). -/
def ppsLevel (s : State) (t : Int) : Bool :=
  isSet s .tru TRU_OUT.PPS_EN && !squelched s && decide (outTime s t % 1000000000 < (getF s .tru TRU_OUT.PPS_WIDTH : Int) * 1000000)

/-- TOUT_EPOCH at a sample of module time: high for EPOCH_WIDTH from the start of each superframe with SFN mod 2^EPOCH_DIV = 0, or from each TRU time that is a
multiple of PERIOD (R361). -/
def epochLevel (s : State) (mt : Nat) : Bool :=
  let width := getF s .tru TRU_OUT.EPOCH_WIDTH
  let high := if isSet s .tru TRU_OUT.EPOCH_SRC then
      decide (outTime s (truNs s mt) % ((getF s .tru TRU_EPOCH_PER.PERIOD : Int) * 1000000) < (width : Int) * 1000)
    else decide (sfn s % 2 ^ getF s .tru TRU_OUT.EPOCH_DIV = 0) && decide (mt - s.time.sfStart < width * 200)
  isSet s .tru TRU_OUT.EPOCH_EN && !squelched s && high

/-- Whether T4 carries TOUT_10M, the OCXO output, in place of TOUT_EPOCH (R361). -/
def t4Is10M (s : State) : Bool := isSet s .tru TRU_OUT.T4_SEL

end Sys2Proof.Machine
end

