-- ==== Sys2Proof/WellFormed.lean ====
section
/-!
DEFINITION. Sys2Proof/WellFormed.lean: which operands a command can have. Ranges are in the operands' types; here stand the relations between them. A meaning is total all
the same: it answers on ill-formed operands too.
-/
namespace Sys2Proof

/-- An access of four bytes is a 32-bit access with byte enables, and every access has at least one byte (R26). -/
def AccessForm.ok : AccessForm → Bool
  | .dword _ => true
  | .other n => decide (0 < n) && decide (n ≠ 4)

/-- A read of at least one byte, a write of at least one (R305). -/
def WinAccess.ok : WinAccess → Bool
  | .read n => decide (0 < n)
  | .write d => !d.isEmpty
  | .gappedRead n => decide (0 < n)
  | .gappedWrite => true

/-- A decoded burst has no more erased symbols than symbols. -/
def RxResult.ok (r : RxResult) : Bool := decide (r.erased ≤ r.symbols)

/-- The word of the stripe that a finding of the Badger names. -/
def BadgerFind.word : BadgerFind → Nat
  | .corrected w _ | .uncorrectable w | .failed w _ => w.val

/-- Whether the operands of a command can stand together. -/
def Instr.wellFormed : Instr → Bool
  | .registerWrite _ form _ _ => form.ok
  | .counterReadClear _ form => form.ok
  | .windowAccess _ acc _ _ _ => acc.ok
  | .windowGrantTimeout acc => acc.ok
  | .bbDetect _ first last _ _ => decide (first ≤ last)
  | .queueNarrowWrite _ data _ => decide (data.length ≤ 4)
  | .burstCompletion _ r => r.ok
  | .badgerStripe finds _ => decide ((finds.map BadgerFind.word).Nodup)
  | .badgerYield upto finds => decide ((finds.map BadgerFind.word).Nodup) && finds.all (fun f => decide (f.word ≤ upto.val))
  | .driverDisable _ z => decide ((z.map (·.1)).Nodup)
  | .superframeStart noise _ => decide ((noise.map (·.port)).Nodup)
  | .cardStatusWord _ data _ => decide (data.length ≤ 256)
  | _ => true

end Sys2Proof
end

