-- ==== Sys2Proof/Tests/Slice0.lean ====
section
/-!
SUPPORT. Sys2Proof/Tests/Slice0.lean: the model's own tests: ill-formed commands, the spec's worked examples, and for each statement a state and operands
that meet its hypotheses.
-/
namespace Sys2Proof.Tests
open Sys2Proof Sys2Proof.Machine

set_option maxRecDepth 20000

/-! Ill-formed commands: one for each check of WellFormed.lean. -/

theorem test_refuses_empty_access : (Instr.registerWrite (.bar0 0) (.other 0) 0 ⟨0, ⟨0, 0, 0, 0⟩, 0, [], 0⟩).wellFormed = false := by decide
theorem test_refuses_other_of_four_bytes : (Instr.counterReadClear (.bar0 0) (.other 4)).wellFormed = false := by decide
theorem test_refuses_empty_window_read : (Instr.windowAccess 0 (.read 0) .clean none 0).wellFormed = false := by decide
theorem test_refuses_empty_window_write : (Instr.windowGrantTimeout (.write [])).wellFormed = false := by decide
theorem test_refuses_reversed_rus : (Instr.bbDetect 0 26 25 0 0).wellFormed = false := by decide
theorem test_refuses_five_narrow_bytes : (Instr.queueNarrowWrite 0 [0, 0, 0, 0, 0] false).wellFormed = false := by decide
theorem test_refuses_more_erased_than_received :
    (Instr.burstCompletion 0 ⟨true, 3, 4, 0, 0, 0, false, false, [], []⟩).wellFormed = false := by decide
theorem test_refuses_two_finds_at_a_word : (Instr.badgerStripe [.corrected 63 0, .uncorrectable 63] 0).wellFormed = false := by decide
theorem test_refuses_two_finds_before_a_yield : (Instr.badgerYield 1 [.failed 0 0, .corrected 0 1]).wellFormed = false := by decide
theorem test_refuses_a_find_past_a_yield : (Instr.badgerYield 1 [.failed 2 0]).wellFormed = false := by decide
theorem test_refuses_a_frequency_twice : (Instr.driverDisable 0 [(3, 0, 0), (3, 1, 1)]).wellFormed = false := by decide
theorem test_refuses_a_port_read_twice : (Instr.superframeStart [⟨51, 0, 0⟩, ⟨51, 1, 1⟩] ⟨0, 0, 0, 0⟩).wellFormed = false := by decide
theorem test_refuses_a_long_card_answer : (Instr.cardStatusWord 2 (List.replicate 257 0) 0x9000).wellFormed = false := by decide
theorem test_takes_a_long_card_answer : (Instr.cardStatusWord 2 (List.replicate 256 0) 0x9000).wellFormed = true := by decide

/-! The table gives no row a word. -/

theorem test_no_word_spells_a_command : decodeTableWord 32 0x00000005 = none := rfl

/-! The worked examples of the spec. -/

/-- The header of the acknowledgement of 07_narrowband_tone_keying.md. -/
theorem test_ack_header : nbHeaderBytes ⟨1, 2, 0, 0, 0, 0x30042, 5, 0⟩ = beBytes 8 0x48000030042514E4 := by decide

/-- Its fields, read back. -/
theorem test_ack_header_fields : nbHeader (beBytes 8 0x48000030042514E4) = ⟨1, 2, 0, 0, 0, 0x30042, 5, 0x14E4⟩ := by decide

/-- The coded bits of the symbols 0–6, 7–13 and 14–20 of that acknowledgement. -/
theorem test_ack_symbols : ((frameOffsets (beBytes 8 0x48000030042514E4) [] false).drop 12).take 21 =
    [0, 3, 3, 0, 0, 0, 1, 2, 0, 1, 2, 2, 2, 2, 2, 0, 0, 2, 0, 0, 2] := by decide

/-- The symbols of the flood of 12_repeating_and_trees.md and of the campaign block of 22_management_and_dual_control.md. -/
theorem test_frame_symbols : nbSymbols 0 40 = 440 ∧ nbSymbols 0 252 = 2136 := by decide

/-- The codewords, data symbols and pilot symbols of the burst of 08_broadband_ofdm.md. -/
theorem test_burst_symbols : codewords 2 32768 = 180 ∧ dataSymbols 2 32768 16150 = 22 ∧ pilotSymbols 1 22 = 2 := by decide

/-- The temperature of the Pt100 of 21_sensor_front_end.md: 119.397 Ω is 50.000 °C. -/
theorem test_pt100 : senTemp 100000 119397 = some 50000 := by decide

/-- The nonce of the decryption of 16_cipher_engine.md. -/
theorem test_nonce : contextNonce ⟨OP.DECRYPT, false, 0, false, false, SEL.CURRENT, 2, 0, 0x30042, 12, 4096, [], 0, [], 0, 0, [], [], false, 0, 0, none, [], 0⟩ 2 0x9C3E71A5 0x1F40 =
    0x30042 * 2 ^ 76 + 2 * 2 ^ 72 + 0x1F40 * 2 ^ 32 + 0x9C3E71A5 := by decide

/-- The state after a command, or reset where it gives none. -/
def after (i : Instr) (s : State) : State :=
  match exec i s with
  | .next t => t
  | _ => State.reset

/-- The late abort of 02_register_pages.md: CMD_STAT reads 0x602A_0000. -/
theorem test_late_abort : reg (after (.cmdAbort .cip 0x2A 0)
    { setReg (addr .cip offCmdStat) 0x402A0000 State.reset with cmds := [(pageNumber .cip, ⟨none, some 0x2A⟩)] }) (addr .cip offCmdStat) = 0x602A0000 := by decide

/-- A surge counts on its own port and stops at 0xFFFF (R9, R94). -/
theorem test_surge_stops_at_ffff : getF (after (.surge 51) (setF (.lpt 51) LPT_SURGE_CNT.COUNT 0xFFFF State.reset)) (.lpt 51) LPT_SURGE_CNT.COUNT = 0xFFFF ∧
    getF (after (.surge 51) State.reset) (.lpt 50) LPT_SURGE_CNT.COUNT = 0 := by decide

/-- A release past WP is out of range (R294). -/
theorem test_release_past_wp : (after (.queueRelease 8127 255 3) { State.reset with bq := { State.reset.bq with
    queues := [(8127, { Queue.closed with isOpen := true, gen := 255, wp := 2 })] } }).emits = [.queue .range 0 []] := by decide

/-! Small states. -/

/-- After reset, with a page that shows READY. -/
def awake (p : Page) : State := setReg (addr p offStatus) 0x80000000 State.reset

/-- A command of a page as it stands outstanding, from the host, with tag 0xFF. -/
def waits (op phase : Nat) : Outstanding := ⟨op, 0xFF, 0x80000000, 0, 0, none, false, phase⟩

/-- After reset, with a command outstanding on a page. -/
def busy (p : Page) (op : Nat) : State := { State.reset with cmds := [(pageNumber p, ⟨some (waits op 0), none⟩)] }

/-- After reset, with one burst context in use: the last, on the last port. -/
def withBurst (b : Burst) : State := { State.reset with eng := { State.reset.eng with bursts := [(8127, { b with place := 51 })] } }

/-- After reset, with one open queue: of the last ID, with GEN 255. -/
def withQueue (q : Queue) : State := { State.reset with bq := { State.reset.bq with queues := [(8127, { q with isOpen := true, gen := 255 })] } }

/-- After reset, with one slot of the hardware table in use: the last. -/
def withSlot (a : Assoc) : State := { State.reset with mac := { State.reset.mac with table := [(0xFFFFF, a)] } }

/-- A slot with a record in a state of R215. -/
def slotIn (st : Nat) : Assoc := { Assoc.free with c := { Ctx.zero with state := st } }

/-- A frame of the downlink store, from ring 15. -/
def aFrame : Frame := ⟨7, 0xFFFFF, .host, some 15, none, 1, 0, .nb, false, FT.DATA, 3, [], true, false, [], none, none, .waitAck, 4, 0, 0, false, 0, 0, false, none,
  none, 0, 64⟩

/-- After reset, with one frame in the downlink store. -/
def withFrame (f : Frame) : State := { State.reset with mac := { State.reset.mac with frames := [f] } }

/-- After reset, with one element waiting. -/
def withElem (ty : Nat) (v : List Byte) : State := { State.reset with mac := { State.reset.mac with elems := [⟨0xFFFFF, false, ty, v, true⟩] } }

/-- A received narrowband burst, completed, whose header has an FTYPE, an ADDR and an FSEQ. -/
def heardNb (ftype a fseq : Nat) (payload : List Byte) : Burst :=
  { Burst.idle with st := .rxDone, status := BST.OK, header := nbHeaderBytes ⟨1, ftype, 0, 0, 0, a, fseq, 0⟩, payload := payload }

/-- A tone map's broadband burst, completed. -/
def heardTmap : Burst :=
  { Burst.idle with st := .rxDone, status := BST.OK, wave := .bb, header := bbHeaderBytes { bbHeader (List.replicate 12 0) with ftype := FT.TMAP } }

/-- After reset, with a ring enabled and one entry posted on it. -/
def withRing (r : Nat) : State := { setI .pci PCI_RING.EN r 1 State.reset with rings := [(r, { RingSt.empty with sqProd := 1 })] }

/-- A result of a command that found nothing. -/
def foundNothing : CmdResult := ⟨0, 0, none, [], none, 0, none, none⟩

/-- A host write needs nothing beside its value. -/
def plainEnv : WriteEnv := ⟨0, ⟨0, 0, 0, 0⟩, 0, [], 0⟩

/-! One theorem for each statement with hypotheses: they are met together, clause by clause. -/

theorem witness_StepRunsFront : { State.reset with pending := [.surge 51, .nbwBlkReset] }.pending = .surge 51 :: [.nbwBlkReset] := rfl

theorem witness_StepIdles : State.reset.pending = [] ∧ { State.reset with pwr := { State.reset.pwr with state := .off } }.pending = [] := by decide

theorem witness_StepTakesOneCommand : ∃ t, step { State.reset with pending := [.plugRemoved 3] } = .next t := ⟨_, rfl⟩

theorem witness_StepKeepsTables : State.reset.wf = true ∧ ∃ t, step State.reset = .next t := ⟨by decide, _, rfl⟩

theorem witness_CommandFootprints : ∃ t, exec (.plugRemoved 3) State.reset = .next t := ⟨_, rfl⟩

theorem witness_InterruptMessages : Instr.intEnWrite (.ser 3) 0 = .intStatClear (.ser 3) 0 ∨ Instr.intEnWrite (.ser 3) 0 = .intEnWrite (.ser 3) 0 := .inr rfl

theorem witness_UnperformedAccess : pageOfAddr (addr (.lpt 51) 0x102) = some (.lpt 51) ∧ addr (.lpt 51) 0x102 % 4 ≠ 0 ∧
    pageOfAddr (addr (.lpt 51) 0xFFC) = some (.lpt 51) ∧ AccessForm.dword 7 ≠ .dword 0xF := by decide

theorem witness_PlainRegisterWrite : (Page.eng 0, 0x188) ∈ [(Page.pwr, 0x114), (.asc, 0x100), (.tru, 0x10C), (.eng 0, 0x188)] ∧
    ∃ n : Port, (Page.lpt 51, 0x108) = (.lpt n, 0x108) := ⟨by decide, 51, rfl⟩

theorem witness_ProtectedWriteRefused : protectedWrite .saf 0x110 (~~~reg State.reset (addr .saf 0x110)) State.reset = true ∧
    protectedWrite .saf 0x110 (reg State.reset (addr .saf 0x110)) State.reset = false ∧ State.reset.log.buf.length + 1 < logRoom := by decide

theorem witness_ReadsAndCounters : (0x020 ∈ [offIntStat, offIntEn, 0x020, offCmdStat]) ∧ (0x040 ∈ [0x008, 0x018, 0x040]) ∧
    pageOfAddr 0xFFFFFC = none ∧ pageOfAddr 0x2000000 = none := by decide

theorem witness_CommandWhileBusy : outstanding (busy .mod 0) .mod = some (waits 0 0) ∧ getBits 0x7FFFFFFF 31 31 = 0 := by decide

theorem witness_CommandIssued : takes (awake (.ser 3)) (.ser 3) (.host 0xFF) = true ∧
    takes { awake .mgt with rings := (withRing 27).rings, regs := (setI .pci PCI_RING.EN 27 1 (awake .mgt)).regs } .mgt (.ring 3 0 0xFF 0 0 0) = true ∧
    outstanding (awake .cip) .cip = none ∧ ready State.reset .cip = false ∧ getBits 0x00FF000A 31 31 = 0 ∧ 9 < getBits 0x00FF000A 15 0 := by decide

theorem witness_CommandAborted : outstanding (busy (.lpt 51) 2) (.lpt 51) = some (waits 2 0) ∧ (waits 2 0).tag = (0xFF#8).toNat ∧
    outstanding (busy .boot 2) .boot = some (waits 2 0) ∧ outstanding (busy .mgt 1) .mgt = some (waits 1 0) ∧
    outstanding { State.reset with cmds := [(pageNumber .cip, ⟨none, some 0xFF⟩)] } .cip = none ∧
    (slotOf { State.reset with cmds := [(pageNumber .cip, ⟨none, some 0xFF⟩)] } .cip).last = some (0xFF#8).toNat ∧
    outstanding State.reset .cip = none ∧ (slotOf State.reset .cip).last ≠ some (0xFF#8).toNat := by decide

theorem witness_CommandStatus : outstanding (busy .cip 2) .cip = some (waits 2 0) ∧ (waits 2 0).opcode = 2 ∧ foundNothing.pipe = none ∧
    outstanding State.reset (.memb 127) = none := by decide

theorem witness_PortDrivers : (burst (withBurst { Burst.idle with st := .txSet }) 8127).st = .txSet ∧
    (burst (withBurst { Burst.idle with st := .txSet }) 8127).purpose ≠ .beacon ∧
    killed (setF .saf SAF_KILL.CAUSE 1 (withBurst { Burst.idle with st := .txSet })) = true ∧
    (burst (withBurst { Burst.idle with st := .txLive }) 8127).st = .txLive ∧ (burst (withBurst { Burst.idle with st := .txLive }) 8127).sent = false ∧
    (∀ e ∈ (withBurst { Burst.idle with st := .txLive }).eng.bursts,
      liveOn (burst (withBurst { Burst.idle with st := .txLive }) 8127).place e.2 = true → e.2.sent = true ∨ e.1 = 8127) := by decide

theorem witness_PortDwell : getBits 0x33FFFF3C 29 24 ≤ 51 ∧ getBits 0x33FFFF3C 5 0 ≤ 60 ∧ 51 ≤ getBits 0x33FFFF3C 29 24 ∧ 60 ≤ getBits 0x33FFFF3C 5 0 := by decide

theorem witness_PortGain : agcAuto (setF (.lpt 51) LPT_STATUS.RX_ON 1 State.reset) 51 = true ∧
    isSet (setF (.lpt 51) LPT_STATUS.RX_ON 1 State.reset) (.lpt 51) LPT_STATUS.RX_ON = true ∧
    isSet (setF (.lpt 51) LPT_STATUS.RX_ON 1 State.reset) (.lpt 51) LPT_STATUS.AGC_FROZEN = false ∧
    (port (setPort 51 { PortSt.initial with blanked := true } State.reset) 51).blanked = true ∧ (port State.reset 51).blanked = false ∧
    driverOn (setF (.lpt 51) LPT_STATUS.DRV_EN 1 State.reset) 51 = true ∧ driverOn State.reset 51 = false := by decide

theorem witness_PortCommands : takes (setPort 51 { PortSt.initial with declared := true } (awake (.lpt 51))) (.lpt 51) (.host 0) = true ∧
    (port (setPort 51 { PortSt.initial with declared := true } (awake (.lpt 51))) 51).declared = true ∧
    isSet (setPort 51 { PortSt.initial with declared := true } (awake (.lpt 51))) (.lpt 51) LPT_STATUS.NB_MODE = false ∧
    outstanding (busy (.lpt 51) 2) (.lpt 51) = some (waits 2 0) ∧ (waits 2 0).opcode = 2 := by decide

theorem witness_PlainBlockResets : (Instr.pairBlkReset, Page.pair, [0x11C, 0x120, 0x124, 0x128]) ∈ [(Instr.bcnBlkReset, Page.bcn, [0x128, 0x130, 0x134, 0x138, 0x13C]),
      (.ascBlkReset, .asc, [0x118, 0x120, 0x124, 0x128, 0x12C, 0x130, 0x134, 0x138, 0x13C]),
      (.rptBlkReset, .rpt, [0x110, 0x11C, 0x120, 0x124, 0x128, 0x12C, 0x130, 0x134]), (.bqBlkReset, .bq, [0x108, 0x118, 0x11C, 0x120, 0x124]),
      (.pairBlkReset, .pair, [0x11C, 0x120, 0x124, 0x128])] ∧
    outstanding (busy .mgt 1) .mgt = some (waits 1 0) ∧ (waits 1 0).opcode = 1 := by decide

theorem witness_QueueOperations : named (withQueue Queue.closed) 8127 255 = true ∧ named (withQueue Queue.closed) 8127 254 = false := by decide

theorem witness_MarkedReading : named (withQueue { Queue.closed with wp := 2 }) 8127 255 = true := by decide

/-- A queue and its burst, both of ID 8127. -/
def reading (q : Queue) (b : Burst) : State := { withQueue q with eng := (withBurst b).eng }

theorem witness_QueueInput : (queue (reading Queue.closed { Burst.idle with st := .rxOpen }) 8127).isOpen = true ∧
    (queue (reading Queue.closed { Burst.idle with st := .rxOpen }) 8127).trailer = false ∧
    (burst (reading Queue.closed { Burst.idle with st := .rxOpen }) 8127).st = .rxOpen ∧
    let s := reading { Queue.closed with earlyOn := true, wp := 1 } { Burst.idle with st := .rxOpen, header := nbHeaderBytes ⟨1, 0, 1, 0, 1, 0, 0, 0⟩ }
    (queue s 8127).isOpen = true ∧ (queue s 8127).earlyOn = true ∧ (queue s 8127).early = false ∧ (queue s 8127).trailer = false ∧
    (burst s 8127).st = .rxOpen ∧ (burst s 8127).wave = .nb ∧ (queue s 8127).wp = 1 ∧ 4 ≤ headerReps (burst s 8127).header ∧ [(0 : Byte)] ≠ [] := by decide

theorem witness_QueueCommands : takes (awake .bq) .bq (.host 0) = true := by decide

theorem witness_EngineCommands : takes (awake (.eng 31)) (.eng 31) (.host 0) = true := by decide

/-- A planned frame on port 51. -/
def anItem : PlanItem := ⟨51, .nb, 0, 0, 0, 115200, 1, .downlink 7, [], [], [0]⟩

theorem witness_EngineRoles : takesWork State.reset 19 = true ∧ (decodeEngines 19).contains 15 = true ∧ inOutage State.reset = false ∧
    gated (setReg (roleReg 19 15) ((ROLE.GATED * 2 ^ 28 : Nat) : Word) State.reset) 19 15 = true ∧
    engineLoad State.reset 19 15 = 0 ∧ role (setReg (roleReg 19 15) ((ROLE.NB_RX * 2 ^ 28 : Nat) : Word) State.reset) 19 15 = ROLE.NB_RX ∧
    isStanding (setReg (roleReg 31 15) ((ROLE.NB_RX * 2 ^ 28 : Nat) : Word) State.reset) 31 15 .nb = false ∧
    isStanding (setReg (roleReg 31 15) ((ROLE.NB_RX * 2 ^ 28 : Nat) : Word) State.reset) 31 15 .bb = false ∧
    role (setReg (roleReg 31 15) ((ROLE.NB_RX * 2 ^ 28 : Nat) : Word) State.reset) 31 15 = ROLE.NB_RX ∧
    nextItem State.reset 51 .bb = none ∧ nextItem { State.reset with plan := { State.reset.plan with items := [anItem] } } 51 .nb = some anItem ∧
    anItem.purpose ≠ .beacon := by decide

theorem witness_Reception : (burst (withBurst { Burst.idle with st := .rxOpen }) 8127).st = .rxOpen ∧
    (burst (withBurst { Burst.idle with st := .rxOpen }) 8127).wave = .nb ∧ (burst (withBurst { Burst.idle with st := .rxOpen }) 8127).header = [] ∧
    (burst (withBurst { Burst.idle with st := .rxOpen, wave := .bb }) 8127).st = .rxOpen ∧
    (burst (withBurst { Burst.idle with st := .rxOpen, wave := .bb }) 8127).wave = .bb ∧
    (burst (withBurst { Burst.idle with st := .rxOpen, wave := .bb }) 8127).header = [] := by decide

theorem witness_WaveCommands : takes (awake .nbw) .nbw (.host 0) = true ∧ takes (awake .bbw) .bbw (.host 0) = true ∧
    takes (awake .ncal) .ncal (.host 0) = true ∧ (∀ b : Bank, bankPower (awake .bbw) b ≠ 2) ∧ (∀ b : Bank, bankPower (awake .ncal) b ≠ 2) := by decide

/-- A calendar entry of the shortest period. -/
def anEntry : NcalEntry := ⟨200000, 0, 1, 0, 0, [], 4, 0, 0, none⟩

/-- A port 51 that receives, with one calendar entry. -/
def withEntry : State := { setF (.lpt 51) LPT_STATUS.RX_ON 1 State.reset with
  ncal := { State.reset.ncal with cfg := 16, cals := [(51, { CalSt.empty with entries := [(7, anEntry)] })] },
  ports := [(51, { PortSt.initial with declared := true })] }

theorem witness_NotchesAndNoise :
    linkMap { State.reset with bbw := { State.reset.bbw with tmaps := [⟨0xFFFFF, false, 0, none, none, none, 0, 0⟩] } } 0xFFFFF false 0 =
      some ⟨0xFFFFF, false, 0, none, none, none, 0, 0⟩ ∧
    (port withEntry 51).declared = true ∧ isSet withEntry (.lpt 51) LPT_STATUS.RX_ON = true ∧ 3200 < (3201 : Fin 4096).val ∧
    (cal withEntry 51).entries = [(7, anEntry)] ∧ (cal withEntry 51).cands = [] ∧ anEntry.missRun < missLimit withEntry (cal withEntry 51) ∧
    periodOk anEntry.period = true ∧ anEntry.seen = none ∧ getBits 0x3307 13 8 ≤ 51 ∧ getBits 0x3307 2 0 ≤ 7 := by decide

theorem witness_AirFrames : standby State.reset = false ∧
    (frameIn (withBurst (heardNb FT.ASSOC 0 1 [])) 8127).any (fun f => assocCode f 1 && !f.fromParent) = true ∧
    (frameIn (withBurst (heardNb FT.ASSOC 0xFFFFF 4 [])) 8127).any (fun f => assocCode f 4 && !f.fromParent && decide ((assoc State.reset f.addr).join = none)) = true ∧
    (frameIn (withBurst heardTmap) 8127).any (fun f => decide (f.ftype = FT.TMAP) && !f.narrow && !f.fromParent && !takesFrames (ctx State.reset f.addr).state) = true ∧
    (frameIn (withBurst (heardNb FT.DATA 0xFFFFF 0 [])) 8127).any (fun f => decide (f.ftype = FT.DATA) && !f.fromParent) = true ∧
    (frameIn (withBurst (heardNb FT.ASSOC 0xFFFFF 7 [])) 8127).any (fun f => assocCode f 7 && !f.fromParent) = true ∧
    (frameIn (withBurst (heardNb FT.ACK 0xFFFFF 3 [])) 8127).any (fun f => decide (f.ftype = FT.ACK) && !f.fromParent && awaits f.addr f.fseq aFrame) = true ∧
    takesFrames (ctx (withSlot (slotIn CST.ACTIVE)) 0xFFFFF).state = true ∧ aFrame.kind = .host ∧
    (frameIn (withBurst (heardNb FT.FLOOD 0xFFFFF 0 [0, 0, 0])) 8127).any (fun f => decide (f.ftype = FT.FLOOD) && f.narrow && decide (f.payload.length < 4)) = true := by
  decide

theorem witness_AssociationTimers :
    (assoc (withSlot { slotIn CST.JOINING with join := some ⟨1, 0, .nb, 0, 0, 0, 51, 0, false, 0, 0, 0, false⟩ }) 0xFFFFF).join =
      some ⟨1, 0, .nb, 0, 0, 0, 51, 0, false, 0, 0, 0, false⟩ ∧
    (assoc (withSlot { slotIn CST.LEAVING with ending := some ⟨RSN.HOST, true, 0⟩ }) 0xFFFFF).ending = some ⟨RSN.HOST, true, 0⟩ ∧ RSN.HOST ≠ RSN.FAULT ∧
    takeElem EL.LEAVE State.reset = none ∧ (takeElem EL.LEAVE (withElem EL.LEAVE [])).any (fun e => !e.1.parent) = true ∧
    (assoc (withSlot { slotIn CST.ACTIVE with rekey := some ⟨[], false, 0, 4, 0⟩ }) 0xFFFFF).rekey = some ⟨[], false, 0, 4, 0⟩ ∧
    (ctx (withSlot (slotIn CST.ACTIVE)) 0xFFFFF).state = CST.ACTIVE ∧ rekeyDue State.reset 0xFFFFF = false := by decide

theorem witness_AssociationCommands : takes (awake .asc) .asc (.host 0) = true ∧ freeParked (awake .asc) = some 0 ∧ (∀ b : Bank, bankPower (awake .asc) b ≠ 2) ∧
    findSlot (awake .asc) 0 tableSize (fun st => decide (st ≠ CST.FREE)) = none ∧ findParked (awake .asc) 0 = none ∧
    findParked { awake .asc with mac := { State.reset.mac with parked := [(5, { Ctx.zero with state := CST.PARKED, epId := 9 })] } } 9 = some 5 ∧
    (ctx (withSlot (slotIn CST.ACTIVE)) 0xFFFFF).session = false := by decide

theorem witness_RoutesAndTree : takes (awake .rpt) .rpt (.host 0) = true ∧
    (takeElem EL.RELAY (withElem EL.RELAY [5, 0, 0, 0, 0, 4])).any (fun e => !e.1.parent && decide (beAt e.1.value 0 1 = 5) && decide (beAt e.1.value 5 1 = 4)) = true ∧
    takeElem EL.RELAY State.reset = none ∧ (takeElem EL.KEY_INSTALL (withElem EL.KEY_INSTALL [])).any (fun e => !e.1.parent) = true := by decide

/-- A start that has come to a stage. -/
def atStage (k : Nat) : State := setF .boot BOOT_STATUS.STAGE k State.reset

theorem witness_MonitorKills : (port (setPort 51 { PortSt.initial with declared := true } State.reset) 51).declared = true ∧
    (port State.reset 51).declared = false ∧ moduleOn State.reset = true ∧ State.reset.pwr.killLow = false ∧
    { State.reset.pwr with killLow := true }.killLow = true := by decide

theorem witness_KillEnds : takes (awake .saf) .saf (.host 0) = true := by decide

theorem witness_BankTrips : moduleOn State.reset = true ∧ siFault (setI .sen SEN_STAT.STALE 11 0 State.reset) 11 = false ∧
    siFault (setI .sen SEN_STAT.STALE 11 1 State.reset) 11 = true ∧ moduleOn { State.reset with pwr := { State.reset.pwr with state := .off } } = false := by decide

theorem witness_ModuleResets : (Instr.lockstepDisagree, START.LOCKSTEP) ∈ [(Instr.watchdogExpiry, START.WATCHDOG), (.lockstepDisagree, START.LOCKSTEP)] ∧
    takes (awake .boot) .boot (.host 0) = true := by decide

/-- In DORMOUSE, woken by every source, with MRST# low. -/
def asleep : State := { setReg (addr .pwr PWR_WAKE_EN.MAIN.off) 0x1F State.reset with pwr := { State.reset.pwr with state := .dormouse, mrstLow := true } }

theorem witness_Wakes : asleep.pwr.mrstLow = true ∧ asleep.pwr.state = .dormouse ∧ (reg asleep (addr .pwr PWR_WAKE_EN.MAIN.off)).toNat.testBit 4 = true ∧
    State.reset.pwr.state ≠ .dormouse := by decide

theorem witness_PowerStates : takes (awake .pwr) .pwr (.host 0) = true := by decide

theorem witness_StartUp : starting (setF .boot BOOT_STATUS.MODE MODE.TEST State.reset) = false ∧
    (∀ k ∈ [1, 2, 3, 4, 5, 6, 7, 8, 9, 10, 11, 12, 13], starting (atStage k) = true ∧ stage (atStage k) = k) := by decide

theorem witness_ImageCommands : takes (awake .mgt) .mgt (.host 0) = true ∧ takes (awake .boot) .boot (.host 0) = true := by decide

/-- At slot 512 of a running grid, with a campaign under way. -/
def inCampaignNow : State :=
  { State.reset with time := { State.reset.time with running := true, slot := 512 }, mgt := { State.reset.mgt with campaign := some ⟨[], 128, 0, 4, 1, 0, 0⟩ } }

theorem witness_LogAndCampaigns : State.reset.log.buf = [] ∧
    { State.reset.log with buf := [⟨2 ^ 32, 0, 0, 0, 0, 0, 0, 0, []⟩] }.buf.getLast? = some ⟨2 ^ 32, 0, 0, 0, 0, 0, 0, 0, []⟩ ∧
    takes (awake .mgt) .mgt (.host 0) = true ∧ State.reset.mgt.campaign = none ∧ inCampaignNow.mgt.campaign = some ⟨[], 128, 0, 4, 1, 0, 0⟩ ∧
    inCampaignNow.time.running = true ∧ inCampaignNow.time.slot = 512 ∧ inCampaignNow.pwr.state = .run ∧ inService inCampaignNow = true ∧
    inService (setF .pair PAIR_STATUS.ROLE 2 inCampaignNow) = false := by decide

theorem witness_SuperframeGrid : State.reset.time.running = false ∧ inCampaignNow.time.running = true ∧ inCampaignNow.time.slot ≤ 512 ∧
    planFixed inCampaignNow = false ∧ 512 < (513 : Fin 1024).val := by decide

theorem witness_DownlinkFrames : ringPosted State.reset 15 = false ∧ ringPosted (withRing 15) 15 = true ∧ takesDown (withRing 15) = true ∧
    outstanding (withRing 15) .pci = none ∧ outstanding State.reset .pair = none ∧ frameOf (withFrame aFrame) 7 = some aFrame ∧ aFrame.stage = .waitAck ∧
    reached (withFrame aFrame) aFrame.due = true ∧ aFrame.sf2 = false ∧
    frameOf (withFrame { aFrame with stage := .queued, sf2 := true }) 7 = some { aFrame with stage := .queued, sf2 := true } ∧
    frameOf State.reset 7 = none := by decide

theorem witness_CommonsMemory : winShape (0xFFFFFF#24).toNat 1 = true ∧ winShape (0xFFFF00#24).toNat 256 = true ∧ winShape (0xFFFFFF#24).toNat 2 = false ∧
    takes (awake (.memb 127)) (.memb 127) (.host 0) = true ∧ takes (awake .mem) .mem (.host 0) = true ∧ (bank State.reset 127).walks = [] ∧
    (bank { State.reset with mem := { State.reset.mem with banks := [(127, ⟨[(71, 1)], [], false⟩)] } } 127).walks.head? = some (71, 1) := by decide

/-- A cipher job of INDEX 0xF_FFFF. -/
def aJob : Job := ⟨1, false, 0, false, false, 0, 0, 0, 0xFFFFF, 0, 0, [], 0, [], 0, 0, [], [], false, 0, 0, none, [], 1⟩

/-- That job in a hold slot. -/
def aHeld (p k : Nat) : Held := ⟨aJob, 17, p, k, [], none, 0, false, false, true, []⟩

/-- Both pipelines in service, a job in ring 17, and some jobs held. -/
def ciphering (l : List Held) : State := { setF .cip CIP_STATUS.P0_OK 1 (setF .cip CIP_STATUS.P1_OK 1 (awake .cip)) with
  cip := { State.reset.cip with rings := [(17, [aJob])], held := l } }

theorem witness_CipherJobs : jobsOf State.reset 17 = [] ∧ openPipes (ciphering []) ≠ [] ∧ jobsOf (ciphering []) 17 ≠ [] ∧ (pickHold (ciphering [])).isSome = true ∧
    pickHold (ciphering ((List.range 16).map (fun n => aHeld (n / 8) (n % 8)))) = none ∧ heldAt State.reset 1 7 = none ∧
    heldAt (ciphering [aHeld 1 7]) 1 7 = some (aHeld 1 7) ∧ takes (awake .cip) .cip (.host 0) = true := by decide

/-- A verified uplink frame. -/
def anUlFrame : UlFrame := ⟨7, 0, 0, true, [], 0, 0⟩

/-- Ring 23 with a buffer posted, and a frame that waits for one. -/
def delivering : State := { setF .pci PCI_UL_CFG.RINGS 8 (withRing 23) with link := { State.reset.link with hold := [anUlFrame] } }

theorem witness_HostRings : ringPosted State.reset 23 = false ∧ ringPosted (withRing 23) 23 = true ∧
    (withRing 23).link.hold.find? (fun f => decide (ulRing (withRing 23) f.index = 7)) = none ∧ ringPosted delivering 23 = true ∧
    delivering.link.hold.find? (fun f => decide (ulRing delivering f.index = 7)) = some anUlFrame ∧ (ring State.reset 28).lost = 0 ∧
    takes (awake .pci) .pci (.host 0) = true := by decide

/-- Lane 3 up with PTP enabled on it, and a master known. -/
def ptpOn : State := { setF (.lan 3) LAN_STATUS.UP 1 (setI .tru REF_CFG.EN 5 1 (setI .tru REF_CFG.AUX 5 3 State.reset)) with
  link := { State.reset.link with ptp := { State.reset.link.ptp with master := some [0, 0, 0, 0, 0, 0, 0, 0] } } }

/-- A Sync in the domain of lane 3. -/
def aSync : List Byte := [0, 2, 0, 44, byteOf (getF ptpOn (.lan 3) LAN_PTP.DOMAIN)] ++ List.replicate 39 0

theorem witness_LanesAndPair : laneUp State.reset 3 = false ∧ laneUp ptpOn 3 = true ∧ getI ptpOn .tru REF_CFG.EN 5 ≠ 0 ∧ (3 : Lane).val = ptpLane ptpOn ∧
    44 ≤ aSync.length ∧ beAt aSync 0 1 % 16 = 0 ∧ beAt aSync 1 1 % 16 = 2 ∧ beAt aSync 4 1 = getF ptpOn (.lan 3) LAN_PTP.DOMAIN ∧
    masterPort ptpOn = some (beAt aSync 20 10) ∧ (beAt aSync 6 1).testBit 1 = false ∧ takes (awake .pair) .pair (.host 0) = true ∧
    outstanding State.reset .pair = none ∧ outstanding (busy .pair 1) .pair = some (waits 1 0) := by decide

/-- SER1 enabled, its line idle, in a format of SER_CFG. -/
def listening (cfg : Nat) : State := setF (.ser 1) SER_STATUS.TX_IDLE 1 (setReg (addr (.ser 1) SER_CFG.EN.off) (BitVec.ofNat 32 cfg ||| 0x80000000) State.reset)

theorem witness_SerialPorts : receiverOn State.reset 3 = false ∧ isSet (listening 0) (.ser 1) SER_CFG.EN = true ∧ receiverOn (listening 0) 1 = true ∧
    getBits (formatOf (listening 0) 1 false).1 29 28 = 0 ∧ getBits (formatOf (listening 0) 1 false).1 25 25 = 0 ∧
    receiverOn (listening 0x10000000) 1 = true ∧ getBits (formatOf (listening 0x10000000) 1 false).1 28 25 = 8 ∧
    outstanding (listening 0) (.ser 1) = none ∧ (serial { listening 0 with ser := [(1, { SerSt.idle with hold := some 0xFF })] } 1).hold = some 0xFF ∧
    serialOn (listening 0) = true ∧ isSet (listening 0) (.ser 1) SER_STATUS.HELD = false ∧
    (serial { listening 0 with ser := [(1, { SerSt.idle with hold := some 0xFF })] } 1).low = false ∧ (serial (listening 0) 1).hold = none ∧
    takes (awake (.ser 3)) (.ser 3) (.host 0) = true := by decide

/-- A card transaction on SER3, under CARD_SIGN. -/
def withCard (p : CardPhase) : State := { busy .tkt 3 with ser := [(3, { SerSt.idle with card := some ⟨p, 7, 2⟩ })] }

theorem witness_TicketsAndCards : takes (awake .tkt) .tkt (.host 0) = true ∧ (∀ b : Bank, bankPower (awake .tkt) b ≠ 2) ∧ (serial State.reset 3).card = none ∧
    (serial (withCard .response) 3).card = some ⟨.response, 7, 2⟩ ∧ outstanding (withCard .response) .tkt = some (waits 3 0) := by decide

/-- A store-and-forward record for the host, and a ring with a buffer for it. -/
def replaying : State := { withRing 16 with sto := { State.reset.sto with snf := [⟨0, false, { anUlFrame with index := 0 }⟩] } }

theorem witness_SensorsAndStore : takes (awake .sen) .sen (.host 0) = true ∧ takes (awake .sto) .sto (.host 0) = true ∧ State.reset.link.toStore = [] ∧
    { State.reset.link with toStore := [⟨0, false, anUlFrame⟩] }.toStore.head? = some ⟨0, false, anUlFrame⟩ ∧ State.reset.pwr.shutdown = false ∧
    State.reset.sto.snf.find? (hasPath State.reset) = none ∧
    replaying.sto.snf.find? (hasPath replaying) = some ⟨0, false, { anUlFrame with index := 0 }⟩ := by decide

/-- A reference selected in a state of R354, perhaps with a switch under way. -/
def selected (r st sw : Nat) : State := setF .tru TRU_STATUS.SWITCHING sw (setF .tru TRU_STATUS.SELECTED r (setF .tru TRU_STATUS.STATE st State.reset))

theorem witness_TimingReferences : switching State.reset = false ∧ selectedRef State.reset = none ∧ switching (selected 7 TQ.LOCKED 1) = true ∧
    selectedRef (selected 7 TQ.LOCKED 1) = some 7 ∧ tq (selected 0 TQ.ACQUIRING 0) = TQ.ACQUIRING ∧ switching (selected 0 TQ.ACQUIRING 0) = false ∧
    selectedRef (selected 0 TQ.ACQUIRING 0) = some 0 := by decide

theorem witness_TimeSetting : takes (awake .tru) .tru (.host 0) = true ∧ awaitsPps State.reset = none ∧ awaitsPps (busy .tru 2) = some (waits 2 0) := by decide

end Sys2Proof.Tests
end

section
/-!
PROOFS. Host writes to registers: the refusal of a protected write (R31, R33) and the command dropped while another is outstanding (R39).
-/
namespace Sys2Proof.Machine

/-! What a refused protected write leaves. -/

/-- Logging an event changes no register of a page but MGT. -/
theorem reg_logPage_other (p : Page) (low : Nat) (d : List Nat) (s : State) {q : Page} {o : Nat} (hq : q ≠ .mgt) (ho : o < 0x1000) :
    reg (logPage p low d s) (addr q o) = reg s (addr q o) := by
  refine logEvent_regs _ _ _ s _ (fun hmem => ?_)
  simp only [List.mem_cons, List.not_mem_nil, or_false] at hmem
  rcases hmem with h | h | h <;> exact hq (addr_inj ho (by decide) h).1

/-- A refused protected write on a page outside MGT keeps the registers of the page's block. -/
theorem reg_refuseProtected_block {p : Page} (hp : p ≠ .mgt) (o : Nat) {x : Nat} (hx : 0x100 ≤ x ∧ x < 0x1000) (s : State) :
    reg (refuseProtected p o s) (addr p x) = reg s (addr p x) := by
  have hi : x ≠ offIntStat := fun h => absurd (h ▸ hx.1) (by decide)
  have he : x ≠ offErrCnt := fun h => absurd (h ▸ hx.1) (by decide)
  unfold refuseProtected
  rw [reg_logPage_other _ _ _ _ hp hx.2, reg_countErr_other _ _ hx.2 (.inr ⟨hi, he⟩), reg_raise_other _ _ _ hx.2 (.inr hi)]

theorem intOf_refuseProtected {p : Page} (hp : p ≠ .mgt) (o : Nat) (s : State) : intOf (refuseProtected p o s) p INT.PROT_REFUSED = true := by
  have hlog := reg_logPage_other p INT.PROT_REFUSED [pageBase p, o] (countErr p (raise p INT.PROT_REFUSED s)) hp (o := offIntStat) (by decide)
  exact (intOf_eq hlog _).trans (intOf_countErr_mono _ _ _ _ (intOf_raise _ _ _ (by decide)))

theorem errors_refuseProtected {p : Page} (hp : p ≠ .mgt) (o : Nat) (s : State) : errors (refuseProtected p o s) p = min (errors s p + 1) 0xFFFF := by
  have hraise : errors (raise p INT.PROT_REFUSED s) p = errors s p := by
    unfold errors
    rw [reg_raise_other _ _ _ (by decide) (.inr (by decide))]
  have hlog : errors (refuseProtected p o s) p = errors (countErr p (raise p INT.PROT_REFUSED s)) p := by
    unfold errors refuseProtected
    rw [reg_logPage_other _ _ _ _ hp (by decide)]
  rw [hlog, errors_countErr, hraise]

theorem refuseProtected_logged {s : State} (h : LogRoom s) (p : Page) (o : Nat) :
    Logged (refuseProtected p o s) (pageType (pageKind p) % 256 * 256 + INT.PROT_REFUSED) (pageInstance p) [pageBase p, o] :=
  logPage_logged (h.upd (by rw [log_countErr, log_raise])) _ _ _

/-! A write of a register without RW fields. -/

/-- A register of which no field is RW keeps its fields, and the write counts no reserved encoding. -/
theorem writeRw_eq_self {p : Page} {o : Nat} (h : ∀ f ∈ fieldsAt (pageKind p) o, f.acc ≠ .rw) (v : Word) (s : State) : writeRw p o v s = s := by
  have hnone : (fieldsAt (pageKind p) o).filter (fun f => decide (f.acc = .rw)) = [] :=
    List.filter_eq_nil_iff.2 (fun f hf => by simpa using h f hf)
  unfold writeRw
  rw [hnone]
  rfl

/-- A write of a register without RW fields is refused or does nothing (R31, R33). -/
theorem writeFields_protected {p : Page} {o : Nat} (h : ∀ f ∈ fieldsAt (pageKind p) o, f.acc ≠ .rw) (v : Word) (s : State) :
    writeFields p o v s = if protectedWrite p o v s then refuseProtected p o s else s := by
  unfold writeFields
  rw [writeRw_eq_self h]

/-- The registers of RWP fields that a host write does not change (R31). -/
def protectedRegisters : List (Page × Nat) :=
  [(.nbw, 0x100), (.nbw, 0x11C), (.bbw, 0x100), (.bbw, 0x128), (.bcn, 0x120), (.bcn, 0x124), (.mem, 0x130), (.pair, 0x100), (.pair, 0x104),
    (.pair, 0x108), (.saf, 0x104), (.saf, 0x108), (.saf, 0x110)]

theorem protectedRegisters_in_block : ∀ x ∈ protectedRegisters, x.1 ≠ .mgt ∧ 0x100 ≤ x.2 ∧ x.2 < 0x1000 ∧ x.2 % 4 = 0 := by decide

theorem protectedRegisters_rwp : ∀ x ∈ protectedRegisters, ∀ f ∈ fieldsAt (pageKind x.1) x.2, f.acc = .rwp := by decide

theorem protectedRegisters_no_rw {p : Page} {o : Nat} (h : (p, o) ∈ protectedRegisters) : ∀ f ∈ fieldsAt (pageKind p) o, f.acc ≠ .rw := by
  intro f hf
  rw [protectedRegisters_rwp _ h f hf]
  decide

/-- A write of a register of RWP fields starts nothing of its own. -/
theorem writeBlock_protected {p : Page} {o : Nat} (h : (p, o) ∈ protectedRegisters) (v : Word) (e : WriteEnv) (s : State) :
    writeBlock p o v e s = .next (writeFields p o v s) := by
  simp only [protectedRegisters, List.mem_cons, List.not_mem_nil, or_false, Prod.mk.injEq] at h
  rcases h with ⟨rfl, rfl⟩ | ⟨rfl, rfl⟩ | ⟨rfl, rfl⟩ | ⟨rfl, rfl⟩ | ⟨rfl, rfl⟩ | ⟨rfl, rfl⟩ | ⟨rfl, rfl⟩ | ⟨rfl, rfl⟩ | ⟨rfl, rfl⟩ | ⟨rfl, rfl⟩ |
    ⟨rfl, rfl⟩ | ⟨rfl, rfl⟩ | ⟨rfl, rfl⟩ <;> rfl

/-- A full host write of a register of RWP fields: refused when it would change one, else without effect. -/
theorem registerWrite_protected {p : Page} {o : Nat} (h : (p, o) ∈ protectedRegisters) (v : Word) (e : WriteEnv) (s : State) :
    exec (.registerWrite (.bar0 (BitVec.ofNat 26 (addr p o))) (.dword 0xF) v e) s =
      .next (if protectedWrite p o v s then refuseProtected p o s else s) := by
  obtain ⟨_, hlo, hhi, h4⟩ := protectedRegisters_in_block _ h
  rw [registerWrite_full p hhi h4, if_neg (Nat.not_lt.2 hlo), writeBlock_protected h, writeFields_protected (protectedRegisters_no_rw h)]

/-- Settles O13: the write is the refusal of a protected write or nothing, and the refusal keeps the block's registers. -/
theorem protectedWriteRefused : Obligations.ProtectedWriteRefused := by
  unfold Obligations.ProtectedWriteRefused
  intro p o hreg v e s
  obtain ⟨hp, hlo, hhi, _⟩ := protectedRegisters_in_block (p, o) hreg
  refine Yields.intro (registerWrite_protected hreg v e s) ?_
  by_cases hw : protectedWrite p o v s = true
  · rw [if_pos hw]
    exact ⟨reg_refuseProtected_block hp o ⟨hlo, hhi⟩ s,
      fun _ => ⟨intOf_refuseProtected hp o s, errors_refuseProtected hp o s, fun room => refuseProtected_logged room p o⟩,
      fun hn => absurd (hw.symm.trans hn) (by decide)⟩
  · rw [if_neg hw]
    exact ⟨rfl, fun h => absurd h hw, fun _ => rfl⟩

/-- Settles O15: whatever command CMD names, its issue on a busy page is the drop of it. -/
theorem commandWhileBusy : Obligations.CommandWhileBusy := by
  unfold Obligations.CommandWhileBusy
  intro p v e s o hbusy habort
  obtain ⟨run, hexec, _⟩ := writeCmd_issue p v e s habort
  rw [issue_busy hbusy] at hexec
  exact Yields.intro hexec (dropCmd_effect p s)

end Sys2Proof.Machine
end

section
/-!
PROOFS. What every command keeps, and the parts of the state that every command may change: one case of `exec` for each row of the table.
-/
namespace Sys2Proof.Machine

/-- Whatever command runs, the queue, what was sent out, the draws and the canonical form are kept. -/
theorem exec_keeps (i : Instr) (s t : State) (e : exec i s = .next t) : Keeps s t := by
  cases i with
  | registerWrite _ _ _ _ => exact execRegisterWrite_keeps .refl _ _ _ _ e
  | intStatClear _ _ => exact execIntStatClear_keeps .refl _ _ e
  | intEnWrite _ _ => exact execIntEnWrite_keeps .refl _ _ e
  | intForce _ _ => exact execIntForce_keeps .refl _ _ e
  | cmdStatClear _ _ => exact execCmdStatClear_keeps .refl _ _ e
  | counterReadClear _ _ => exact execCounterReadClear_keeps .refl _ _ e
  | nop _ _ => exact execNop_keeps .refl _ _ e
  | cmdAbort _ _ _ => exact execCmdAbort_keeps .refl _ _ _ e
  | cmdCompletion _ _ => exact execCmdCompletion_keeps .refl _ _ e
  | lptBlkReset _ => exact execLptBlkReset_keeps .refl _ e
  | nbwBlkReset => exact execNbwBlkReset_keeps .refl e
  | bbwBlkReset => exact execBbwBlkReset_keeps .refl e
  | ncalBlkReset => exact execNcalBlkReset_keeps .refl e
  | bcnBlkReset => exact execBcnBlkReset_keeps .refl e
  | ascBlkReset => exact execAscBlkReset_keeps .refl e
  | rptBlkReset => exact execRptBlkReset_keeps .refl e
  | engBlkReset _ => exact execEngBlkReset_keeps .refl _ e
  | bqBlkReset => exact execBqBlkReset_keeps .refl e
  | memGlobalBlkReset => exact execMemGlobalBlkReset_keeps .refl e
  | membBlkReset _ => exact execMembBlkReset_keeps .refl _ e
  | cipBlkReset => exact execCipBlkReset_keeps .refl e
  | truBlkReset => exact execTruBlkReset_keeps .refl e
  | lanBlkReset _ => exact execLanBlkReset_keeps .refl _ e
  | pciBlkReset => exact execPciBlkReset_keeps .refl e
  | stoBlkReset _ => exact execStoBlkReset_keeps .refl _ e
  | pairBlkReset => exact execPairBlkReset_keeps .refl e
  | senBlkReset => exact execSenBlkReset_keeps .refl e
  | mgtBlkReset => exact execMgtBlkReset_keeps .refl e
  | serBlkReset _ => exact execSerBlkReset_keeps .refl _ e
  | killnFall => exact execKillnFall_keeps .refl e
  | killnRise => exact execKillnRise_keeps .refl e
  | killnAutoRelease => exact execKillnAutoRelease_keeps .refl e
  | perstAssert => exact execPerstAssert_keeps .refl e
  | perstRelease => exact execPerstRelease_keeps .refl e
  | mrstAssert => exact execMrstAssert_keeps .refl e
  | mrstRelease => exact execMrstRelease_keeps .refl e
  | plugRemoved c => exact execPlugRemoved_keeps .refl c e
  | baseplateOverTemp _ => exact execBaseplateOverTemp_keeps .refl _ e
  | tempKill _ => exact execTempKill_keeps .refl _ e
  | tempKillRelease => exact execTempKillRelease_keeps .refl e
  | coldHoldEnd => exact execColdHoldEnd_keeps .refl e
  | powerOn _ _ _ => exact execPowerOn_keeps .refl _ _ _ e
  | mainOk _ => exact execMainOk_keeps .refl _ e
  | mainFailed _ => exact execMainFailed_keeps .refl _ e
  | backupStandbyReturn => exact execBackupStandbyReturn_keeps .refl e
  | backupOk _ => exact execBackupOk_keeps .refl _ e
  | backupFailed _ _ => exact execBackupFailed_keeps .refl _ _ e
  | backupLow _ => exact execBackupLow_keeps .refl _ e
  | dormOnLowExpiry => exact execDormOnLowExpiry_keeps .refl e
  | outageDelayExpiry => exact execOutageDelayExpiry_keeps .refl e
  | bothFailed _ _ _ _ => exact execBothFailed_keeps .refl _ _ _ _ e
  | shutdownComplete => exact execShutdownComplete_keeps .refl e
  | enterDormouse _ => exact execEnterDormouse_keeps .refl _ e
  | enterOutage _ => exact execEnterOutage_keeps .refl _ e
  | leaveOutage _ => exact execLeaveOutage_keeps .refl _ e
  | testLastGasp _ => exact execTestLastGasp_keeps .refl _ e
  | wake _ => exact execWake_keeps .refl _ e
  | rtcAlarm => exact execRtcAlarm_keeps .refl e
  | pwrRtcLoRead => exact execPwrRtcLoRead_keeps .refl e
  | pwrRtcAlarmLoWrite _ => exact execPwrRtcAlarmLoWrite_keeps .refl _ e
  | startupStageComplete _ => exact execStartupStageComplete_keeps .refl _ e
  | listenEnd => exact execListenEnd_keeps .refl e
  | watchdogExpiry => exact execWatchdogExpiry_keeps .refl e
  | lockstepDisagree => exact execLockstepDisagree_keeps .refl e
  | recoveryCountClear => exact execRecoveryCountClear_keeps .refl e
  | trialExpiry => exact execTrialExpiry_keeps .refl e
  | resetModule _ => exact execResetModule_keeps .refl _ e
  | verifySlot _ => exact execVerifySlot_keeps .refl _ e
  | confirm _ => exact execConfirm_keeps .refl _ e
  | enterTest _ => exact execEnterTest_keeps .refl _ e
  | surge _ => exact execSurge_keeps .refl _ e
  | driverEnableRequest _ => exact execDriverEnableRequest_keeps .refl _ e
  | driverDisable _ _ => exact execDriverDisable_keeps .refl _ _ e
  | blankingEnd _ => exact execBlankingEnd_keeps .refl _ e
  | currentClamp _ => exact execCurrentClamp_keeps .refl _ e
  | driverHot _ => exact execDriverHot_keeps .refl _ e
  | driverCooled _ => exact execDriverCooled_keeps .refl _ e
  | agcClippedSample _ => exact execAgcClippedSample_keeps .refl _ e
  | agcBlockMeasured _ _ => exact execAgcBlockMeasured_keeps .refl _ _ e
  | rangeChange _ => exact execRangeChange_keeps .refl _ e
  | rangeChangeForced _ => exact execRangeChangeForced_keeps .refl _ e
  | receiveStep _ _ _ => exact execReceiveStep_keeps .refl _ _ _ e
  | driveStep _ _ => exact execDriveStep_keeps .refl _ _ e
  | calPort _ _ => exact execCalPort_keeps .refl _ _ e
  | measureZ _ _ => exact execMeasureZ_keeps .refl _ _ e
  | measureZTimeout _ => exact execMeasureZTimeout_keeps .refl _ e
  | lptDeclWrite _ _ => exact execLptDeclWrite_keeps .refl _ _ e
  | superframeStart _ _ => exact execSuperframeStart_keeps .refl _ _ e
  | slotStart _ => exact execSlotStart_keeps .refl _ e
  | planFix _ => exact execPlanFix_keeps .refl _ e
  | dwellBarred _ _ _ => exact execDwellBarred_keeps .refl _ _ _ e
  | dwellClear _ _ _ => exact execDwellClear_keeps .refl _ _ _ e
  | bcnDwellSelWrite _ => exact execBcnDwellSelWrite_keeps .refl _ e
  | nbSyncDetect _ _ _ _ _ _ _ => exact execNbSyncDetect_keeps .refl _ _ _ _ _ _ _ e
  | nbHeaderDecoded _ _ => exact execNbHeaderDecoded_keeps .refl _ _ e
  | nbEarlyDecode _ _ => exact execNbEarlyDecode_keeps .refl _ _ e
  | encodeFrame _ => exact execEncodeFrame_keeps .refl _ e
  | bbDetect _ _ _ _ _ => exact execBbDetect_keeps .refl _ _ _ _ _ e
  | bbHeaderDecoded _ _ => exact execBbHeaderDecoded_keeps .refl _ _ e
  | tmapReceived _ => exact execTmapReceived_keeps .refl _ e
  | tmapPeriodExpiry _ _ => exact execTmapPeriodExpiry_keeps .refl _ _ e
  | tmapPreviousExpiry _ => exact execTmapPreviousExpiry_keeps .refl _ e
  | dynNotchDetect _ _ _ _ => exact execDynNotchDetect_keeps .refl _ _ _ _ e
  | dynNotchLift _ _ => exact execDynNotchLift_keeps .refl _ _ e
  | encodeBurst _ => exact execEncodeBurst_keeps .refl _ e
  | readDyn _ => exact execReadDyn_keeps .refl _ e
  | impulseDetected _ _ _ _ _ _ _ => exact execImpulseDetected_keeps .refl _ _ _ _ _ _ _ e
  | predictionDue _ _ _ _ => exact execPredictionDue_keeps .refl _ _ _ _ e
  | settleEnd _ => exact execSettleEnd_keeps .refl _ e
  | ncalSelWrite _ => exact execNcalSelWrite_keeps .refl _ e
  | clearPort _ => exact execClearPort_keeps .refl _ e
  | snapshot _ => exact execSnapshot_keeps .refl _ e
  | uplinkFrame _ => exact execUplinkFrame_keeps .refl _ e
  | ackReceived _ => exact execAckReceived_keeps .refl _ e
  | retransmitTimeout _ => exact execRetransmitTimeout_keeps .refl _ e
  | dlDescriptorTaken _ _ => exact execDlDescriptorTaken_keeps .refl _ _ e
  | sf2Recheck _ _ => exact execSf2Recheck_keeps .refl _ _ e
  | dlCompletion => exact execDlCompletion_keeps .refl e
  | joinSolicit _ => exact execJoinSolicit_keeps .refl _ e
  | joinReq _ => exact execJoinReq_keeps .refl _ e
  | joiningExpiry _ => exact execJoiningExpiry_keeps .refl _ e
  | acceptedExpiry _ => exact execAcceptedExpiry_keeps .refl _ e
  | supervisionTimeout _ => exact execSupervisionTimeout_keeps .refl _ e
  | leave => exact execLeave_keeps .refl e
  | leavingExpiry _ => exact execLeavingExpiry_keeps .refl _ e
  | recordEccFault _ => exact execRecordEccFault_keeps .refl _ e
  | rekeyTrigger _ => exact execRekeyTrigger_keeps .refl _ e
  | rekeyRetryExpiry _ => exact execRekeyRetryExpiry_keeps .refl _ e
  | prevKeyExpiry _ => exact execPrevKeyExpiry_keeps .refl _ e
  | provision _ => exact execProvision_keeps .refl _ e
  | readCtx _ => exact execReadCtx_keeps .refl _ e
  | find _ => exact execFind_keeps .refl _ e
  | release _ => exact execRelease_keeps .refl _ e
  | park _ => exact execPark_keeps .refl _ e
  | rekey _ => exact execRekey_keeps .refl _ e
  | deleteParked _ => exact execDeleteParked_keeps .refl _ e
  | setRecord _ => exact execSetRecord_keeps .refl _ e
  | rotateBkey _ => exact execRotateBkey_keeps .refl _ e
  | floodCopyReceived _ => exact execFloodCopyReceived_keeps .refl _ e
  | floodKeyExpiry => exact execFloodKeyExpiry_keeps .refl e
  | relayElement => exact execRelayElement_keeps .refl e
  | keyInstall => exact execKeyInstall_keeps .refl e
  | joinUpHoldExpiry => exact execJoinUpHoldExpiry_keeps .refl e
  | parentJoined => exact execParentJoined_keeps .refl e
  | parentLost => exact execParentLost_keeps .refl e
  | treeWaitExpiry => exact execTreeWaitExpiry_keeps .refl e
  | setRoute _ => exact execSetRoute_keeps .refl _ e
  | clearRoute _ => exact execClearRoute_keeps .refl _ e
  | appoint _ => exact execAppoint_keeps .refl _ e
  | rptRouteSelWrite _ => exact execRptRouteSelWrite_keeps .refl _ e
  | engineWake _ _ _ => exact execEngineWake_keeps .refl _ _ _ e
  | engineIdleGate _ _ => exact execEngineIdleGate_keeps .refl _ _ e
  | txEngineTake _ _ => exact execTxEngineTake_keeps .refl _ _ e
  | burstCompletion _ _ => exact execBurstCompletion_keeps .refl _ _ e
  | clusterFault _ _ _ => exact execClusterFault_keeps .refl _ _ _ e
  | abortBurst _ _ => exact execAbortBurst_keeps .refl _ _ e
  | reloadCluster _ _ => exact execReloadCluster_keeps .refl _ _ e
  | engCtxSelWrite _ => exact execEngCtxSelWrite_keeps .refl _ e
  | queueNarrowWrite _ _ _ => exact execQueueNarrowWrite_keeps .refl _ _ _ e
  | pop _ _ _ => exact execPop_keeps .refl _ _ _ e
  | mark _ _ => exact execMark_keeps .refl _ _ e
  | rewind _ _ => exact execRewind_keeps .refl _ _ e
  | queueRelease _ _ _ => exact execQueueRelease_keeps .refl _ _ _ e
  | forceRelease _ => exact execForceRelease_keeps .refl _ e
  | readWords _ => exact execReadWords_keeps .refl _ e
  | bqSelWrite _ => exact execBqSelWrite_keeps .refl _ e
  | windowAccess _ _ _ _ _ => exact execWindowAccess_keeps .refl _ _ _ _ _ e
  | windowGrantTimeout _ => exact execWindowGrantTimeout_keeps .refl _ e
  | badgerStripe _ _ => exact execBadgerStripe_keeps .refl _ _ e
  | badgerYield _ _ => exact execBadgerYield_keeps .refl _ _ e
  | softRepairWalkEnd _ => exact execSoftRepairWalkEnd_keeps .refl _ e
  | fuseBurnDone => exact execFuseBurnDone_keeps .refl e
  | membPowerWrite _ _ => exact execMembPowerWrite_keeps .refl _ _ e
  | bankRetentionReturn _ => exact execBankRetentionReturn_keeps .refl _ e
  | bankZeroed _ => exact execBankZeroed_keeps .refl _ e
  | memCntSelWrite _ => exact execMemCntSelWrite_keeps .refl _ e
  | clearConflicts _ => exact execClearConflicts_keeps .refl _ e
  | testBank _ => exact execTestBank_keeps .refl _ e
  | softRepair _ _ => exact execSoftRepair_keeps .refl _ _ e
  | cipherJobTaken _ => exact execCipherJobTaken_keeps .refl _ e
  | cipherJobComplete _ _ _ => exact execCipherJobComplete_keeps .refl _ _ _ e
  | cipherJobAbandon _ _ => exact execCipherJobAbandon_keeps .refl _ _ e
  | reserveWaitTimeout _ _ => exact execReserveWaitTimeout_keeps .refl _ _ e
  | cipherParityError _ _ => exact execCipherParityError_keeps .refl _ _ e
  | drbgHealthFail => exact execDrbgHealthFail_keeps .refl e
  | testJob _ => exact execTestJob_keeps .refl _ e
  | selfTest _ => exact execSelfTest_keeps .refl _ e
  | zeroTestKey _ => exact execZeroTestKey_keeps .refl _ e
  | cipTestCtlWrite _ => exact execCipTestCtlWrite_keeps .refl _ e
  | cipTestKeyWrite _ _ => exact execCipTestKeyWrite_keeps .refl _ _ e
  | refQualified _ _ _ _ => exact execRefQualified_keeps .refl _ _ _ _ e
  | refDisqualified _ _ _ _ => exact execRefDisqualified_keeps .refl _ _ _ _ e
  | refLossOfSignal _ _ => exact execRefLossOfSignal_keeps .refl _ _ e
  | wtrExpiry _ _ => exact execWtrExpiry_keeps .refl _ _ e
  | switchComplete _ _ => exact execSwitchComplete_keeps .refl _ _ e
  | truLocked _ => exact execTruLocked_keeps .refl _ e
  | truLost _ => exact execTruLost_keeps .refl _ e
  | slewDone => exact execSlewDone_keeps .refl e
  | truModeWrite _ _ => exact execTruModeWrite_keeps .refl _ _ e
  | refCfgWrite _ _ _ => exact execRefCfgWrite_keeps .refl _ _ _ e
  | realign _ => exact execRealign_keeps .refl _ e
  | setTime _ _ => exact execSetTime_keeps .refl _ _ e
  | capture _ _ => exact execCapture_keeps .refl _ _ e
  | endWtr _ _ => exact execEndWtr_keeps .refl _ _ e
  | laneUp _ => exact execLaneUp_keeps .refl _ e
  | laneDown _ _ _ => exact execLaneDown_keeps .refl _ _ _ e
  | tunnelFrameReceived _ _ => exact execTunnelFrameReceived_keeps .refl _ _ e
  | ptpMessage _ _ _ _ => exact execPtpMessage_keeps .refl _ _ _ _ e
  | pauseReceived _ _ => exact execPauseReceived_keeps .refl _ _ e
  | sqProdDoorbell _ _ _ => exact execSqProdDoorbell_keeps .refl _ _ _ e
  | cqConsDoorbell _ _ => exact execCqConsDoorbell_keeps .refl _ _ e
  | ringDmaError _ => exact execRingDmaError_keeps .refl _ e
  | ulDelivery _ _ => exact execUlDelivery_keeps .refl _ _ e
  | eventRecordDelivery => exact execEventRecordDelivery_keeps .refl e
  | ringCoalesceExpiry _ => exact execRingCoalesceExpiry_keeps .refl _ e
  | msixUnmask _ => exact execMsixUnmask_keeps .refl _ e
  | ringReset _ => exact execRingReset_keeps .refl _ e
  | snfWrite => exact execSnfWrite_keeps .refl e
  | snfReplay _ => exact execSnfReplay_keeps .refl _ e
  | readBlocks _ => exact execReadBlocks_keeps .refl _ e
  | writeBlocks _ => exact execWriteBlocks_keeps .refl _ e
  | trim _ => exact execTrim_keeps .refl _ e
  | storeWorn _ _ _ _ => exact execStoreWorn_keeps .refl _ _ _ _ e
  | heartbeatSend => exact execHeartbeatSend_keeps .refl e
  | mirrorFrameReceived _ _ _ _ _ => exact execMirrorFrameReceived_keeps .refl _ _ _ _ _ e
  | mirrorSeqGapExpiry => exact execMirrorSeqGapExpiry_keeps .refl e
  | heartbeatLoss => exact execHeartbeatLoss_keeps .refl e
  | takeover _ => exact execTakeover_keeps .refl _ e
  | handover _ => exact execHandover_keeps .refl _ e
  | handoverDrainTimeout => exact execHandoverDrainTimeout_keeps .refl e
  | resync _ => exact execResync_keeps .refl _ e
  | sensorOutputBoundary _ _ => exact execSensorOutputBoundary_keeps .refl _ _ e
  | sensorStale _ => exact execSensorStale_keeps .refl _ e
  | senTempRead _ => exact execSenTempRead_keeps .refl _ e
  | selfCal _ => exact execSelfCal_keeps .refl _ e
  | logFlush => exact execLogFlush_keeps .refl e
  | loadSlot _ => exact execLoadSlot_keeps .refl _ e
  | epfwImport _ => exact execEpfwImport_keeps .refl _ e
  | epfwDelete _ => exact execEpfwDelete_keeps .refl _ e
  | campaignStart _ => exact execCampaignStart_keeps .refl _ e
  | campaignStop _ => exact execCampaignStop_keeps .refl _ e
  | campaignBlockDue => exact execCampaignBlockDue_keeps .refl e
  | logMark _ => exact execLogMark_keeps .refl _ e
  | challenge _ => exact execChallenge_keeps .refl _ e
  | challengeExpiry => exact execChallengeExpiry_keeps .refl e
  | apply _ => exact execApply_keeps .refl _ e
  | cardSign _ => exact execCardSign_keeps .refl _ e
  | readAuth _ => exact execReadAuth_keeps .refl _ e
  | readDevPub _ => exact execReadDevPub_keeps .refl _ e
  | serCharacterReceived _ _ => exact execSerCharacterReceived_keeps .refl _ _ e
  | serRxRead _ _ => exact execSerRxRead_keeps .refl _ _ e
  | serTxWrite _ _ _ => exact execSerTxWrite_keeps .refl _ _ _ e
  | serTxShiftLoad _ _ => exact execSerTxShiftLoad_keeps .refl _ _ e
  | serDivWrite _ _ _ => exact execSerDivWrite_keeps .refl _ _ _ e
  | breakStart _ => exact execBreakStart_keeps .refl _ e
  | breakEnd _ _ => exact execBreakEnd_keeps .refl _ _ e
  | lineStuck _ => exact execLineStuck_keeps .refl _ e
  | lineFree _ => exact execLineFree_keeps .refl _ e
  | sendBreak _ _ => exact execSendBreak_keeps .refl _ _ e
  | sleepAddressMatch _ => exact execSleepAddressMatch_keeps .refl _ e
  | cardPresenceChange _ _ => exact execCardPresenceChange_keeps .refl _ _ e
  | cardAtr _ _ => exact execCardAtr_keeps .refl _ _ e
  | cardWwtExpiry _ => exact execCardWwtExpiry_keeps .refl _ e
  | cardStatusWord _ _ _ => exact execCardStatusWord_keeps .refl _ _ _ e
  | bandEdgeKill _ => exact execBandEdgeKill_keeps .refl _ e
  | levelKill _ => exact execLevelKill_keeps .refl _ e
  | stuckKill _ => exact execStuckKill_keeps .refl _ e
  | tapKill _ => exact execTapKill_keeps .refl _ e
  | selfKill => exact execSelfKill_keeps .refl e
  | hotSpotTrip _ _ => exact execHotSpotTrip_keeps .refl _ _ e
  | siWarn _ => exact execSiWarn_keeps .refl _ e
  | tripLift _ _ => exact execTripLift_keeps .refl _ _ e
  | clearKill _ _ => exact execClearKill_keeps .refl _ _ e
  | killTest _ => exact execKillTest_keeps .refl _ e
  | ovenReady => exact execOvenReady_keeps .refl e
  | teBudgetExceeded _ => exact execTeBudgetExceeded_keeps .refl _ e
  | oscillatorModelSave _ => exact execOscillatorModelSave_keeps .refl _ e
  | truStateSend => exact execTruStateSend_keeps .refl e
  | signTimeout _ => exact execSignTimeout_keeps .refl _ e
  | pcieLinkChange _ _ _ _ => exact execPcieLinkChange_keeps .refl _ _ _ _ e
  | tinPpsEdge _ => exact execTinPpsEdge_keeps .refl _ e
  | setTimePpsTimeout => exact execSetTimePpsTimeout_keeps .refl e
  | reserveChargeFail => exact execReserveChargeFail_keeps .refl e
  | grantReq _ => exact execGrantReq_keeps .refl _ e
  | parentJoinAnswer _ => exact execParentJoinAnswer_keeps .refl _ e
  | solicitWaitExpiry => exact execSolicitWaitExpiry_keeps .refl e

/-- A part named first in a footprint is in it. -/
theorem pageBit_parts (p : Page) (l : List Part) : pageBit p ||| parts (.regs (pageKind p) :: l) = parts (.regs (pageKind p) :: l) := by
  show 2 ^ kindCode (pageKind p) ||| (2 ^ kindCode (pageKind p) ||| parts l) = _
  rw [← Nat.or_assoc, Nat.or_self]
  rfl

/-- The parts of the rest of a footprint are in the footprint. -/
theorem parts_tail {d : Nat} {l : List Part} (h : d ||| parts l = parts l) (c : Part) : d ||| parts (c :: l) = parts (c :: l) := by
  show d ||| (2 ^ c.code ||| parts l) = 2 ^ c.code ||| parts l
  rw [Nat.or_left_comm, h]

/-- Settles O7: the footprint of each command holds every part that the command's meaning may change. -/
theorem commandFootprints : Obligations.CommandFootprints := by
  unfold Obligations.CommandFootprints
  intro i s t e
  cases i with
  | registerWrite _ _ _ _ => rw [touches]; exact execRegisterWrite_within .refl _ _ _ _ rfl e
  | intStatClear _ _ => rw [touches]; exact execIntStatClear_within .refl _ _ (parts_tail rfl _) (pageBit_parts _ _) e
  | intEnWrite _ _ => rw [touches]; exact execIntEnWrite_within .refl _ _ (parts_tail rfl _) (pageBit_parts _ _) e
  | intForce _ _ => rw [touches]; exact execIntForce_within .refl _ _ (parts_tail rfl _) (pageBit_parts _ _) e
  | cmdStatClear _ _ => rw [touches]; exact execCmdStatClear_within .refl _ _ (pageBit_parts _ _) e
  | counterReadClear _ _ => rw [touches]; exact execCounterReadClear_within .refl _ _ rfl e
  | nop _ _ => rw [touches]; exact execNop_within .refl _ _ (parts_tail rfl _) (pageBit_parts _ _) e
  | cmdAbort _ _ _ => rw [touches]; exact execCmdAbort_within .refl _ _ _ (parts_tail rfl _) (pageBit_parts _ _) e
  | cmdCompletion _ _ => rw [touches]; exact execCmdCompletion_within .refl _ _ rfl e
  | lptBlkReset _ => rw [touches]; exact execLptBlkReset_within .refl _ rfl e
  | nbwBlkReset => rw [touches]; exact execNbwBlkReset_within .refl rfl e
  | bbwBlkReset => rw [touches]; exact execBbwBlkReset_within .refl rfl e
  | ncalBlkReset => rw [touches]; exact execNcalBlkReset_within .refl rfl e
  | bcnBlkReset => rw [touches]; exact execBcnBlkReset_within .refl rfl e
  | ascBlkReset => rw [touches]; exact execAscBlkReset_within .refl rfl e
  | rptBlkReset => rw [touches]; exact execRptBlkReset_within .refl rfl e
  | engBlkReset _ => rw [touches]; exact execEngBlkReset_within .refl _ rfl e
  | bqBlkReset => rw [touches]; exact execBqBlkReset_within .refl rfl e
  | memGlobalBlkReset => rw [touches]; exact execMemGlobalBlkReset_within .refl rfl e
  | membBlkReset _ => rw [touches]; exact execMembBlkReset_within .refl _ rfl e
  | cipBlkReset => rw [touches]; exact execCipBlkReset_within .refl rfl e
  | truBlkReset => rw [touches]; exact execTruBlkReset_within .refl rfl e
  | lanBlkReset _ => rw [touches]; exact execLanBlkReset_within .refl _ rfl e
  | pciBlkReset => rw [touches]; exact execPciBlkReset_within .refl rfl e
  | stoBlkReset _ => rw [touches]; exact execStoBlkReset_within .refl _ rfl e
  | pairBlkReset => rw [touches]; exact execPairBlkReset_within .refl rfl e
  | senBlkReset => rw [touches]; exact execSenBlkReset_within .refl rfl e
  | mgtBlkReset => rw [touches]; exact execMgtBlkReset_within .refl rfl e
  | serBlkReset _ => rw [touches]; exact execSerBlkReset_within .refl _ rfl e
  | killnFall => rw [touches]; exact execKillnFall_within .refl rfl e
  | killnRise => rw [touches]; exact execKillnRise_within .refl rfl e
  | killnAutoRelease => rw [touches]; exact execKillnAutoRelease_within .refl rfl e
  | perstAssert => rw [touches]; exact execPerstAssert_within .refl rfl e
  | perstRelease => rw [touches]; exact execPerstRelease_within .refl rfl e
  | mrstAssert => rw [touches]; exact execMrstAssert_within .refl rfl e
  | mrstRelease => rw [touches]; exact execMrstRelease_within .refl rfl e
  | plugRemoved c => exact execPlugRemoved_within .refl c e
  | baseplateOverTemp _ => rw [touches]; exact execBaseplateOverTemp_within .refl _ rfl e
  | tempKill _ => rw [touches]; exact execTempKill_within .refl _ rfl e
  | tempKillRelease => rw [touches]; exact execTempKillRelease_within .refl rfl e
  | coldHoldEnd => rw [touches]; exact execColdHoldEnd_within .refl rfl e
  | powerOn _ _ _ => rw [touches]; exact execPowerOn_within .refl _ _ _ rfl e
  | mainOk _ => rw [touches]; exact execMainOk_within .refl _ rfl e
  | mainFailed _ => rw [touches]; exact execMainFailed_within .refl _ rfl e
  | backupStandbyReturn => rw [touches]; exact execBackupStandbyReturn_within .refl rfl e
  | backupOk _ => rw [touches]; exact execBackupOk_within .refl _ rfl e
  | backupFailed _ _ => rw [touches]; exact execBackupFailed_within .refl _ _ rfl e
  | backupLow _ => rw [touches]; exact execBackupLow_within .refl _ rfl e
  | dormOnLowExpiry => rw [touches]; exact execDormOnLowExpiry_within .refl rfl e
  | outageDelayExpiry => rw [touches]; exact execOutageDelayExpiry_within .refl rfl e
  | bothFailed _ _ _ _ => rw [touches]; exact execBothFailed_within .refl _ _ _ _ rfl e
  | shutdownComplete => rw [touches]; exact execShutdownComplete_within .refl rfl e
  | enterDormouse _ => rw [touches]; exact execEnterDormouse_within .refl _ rfl e
  | enterOutage _ => rw [touches]; exact execEnterOutage_within .refl _ rfl e
  | leaveOutage _ => rw [touches]; exact execLeaveOutage_within .refl _ rfl e
  | testLastGasp _ => rw [touches]; exact execTestLastGasp_within .refl _ rfl e
  | wake _ => rw [touches]; exact execWake_within .refl _ rfl e
  | rtcAlarm => rw [touches]; exact execRtcAlarm_within .refl rfl e
  | pwrRtcLoRead => rw [touches]; exact execPwrRtcLoRead_within .refl rfl e
  | pwrRtcAlarmLoWrite _ => rw [touches]; exact execPwrRtcAlarmLoWrite_within .refl _ rfl e
  | startupStageComplete _ => rw [touches]; exact execStartupStageComplete_within .refl _ rfl e
  | listenEnd => rw [touches]; exact execListenEnd_within .refl rfl e
  | watchdogExpiry => rw [touches]; exact execWatchdogExpiry_within .refl rfl e
  | lockstepDisagree => rw [touches]; exact execLockstepDisagree_within .refl rfl e
  | recoveryCountClear => rw [touches]; exact execRecoveryCountClear_within .refl rfl e
  | trialExpiry => rw [touches]; exact execTrialExpiry_within .refl rfl e
  | resetModule _ => rw [touches]; exact execResetModule_within .refl _ rfl e
  | verifySlot _ => rw [touches]; exact execVerifySlot_within .refl _ rfl e
  | confirm _ => rw [touches]; exact execConfirm_within .refl _ rfl e
  | enterTest _ => rw [touches]; exact execEnterTest_within .refl _ rfl e
  | surge _ => rw [touches]; exact execSurge_within .refl _ rfl e
  | driverEnableRequest _ => rw [touches]; exact execDriverEnableRequest_within .refl _ rfl e
  | driverDisable _ _ => rw [touches]; exact execDriverDisable_within .refl _ _ rfl e
  | blankingEnd _ => rw [touches]; exact execBlankingEnd_within .refl _ rfl e
  | currentClamp _ => rw [touches]; exact execCurrentClamp_within .refl _ rfl e
  | driverHot _ => rw [touches]; exact execDriverHot_within .refl _ rfl e
  | driverCooled _ => rw [touches]; exact execDriverCooled_within .refl _ rfl e
  | agcClippedSample _ => rw [touches]; exact execAgcClippedSample_within .refl _ rfl e
  | agcBlockMeasured _ _ => rw [touches]; exact execAgcBlockMeasured_within .refl _ _ rfl e
  | rangeChange _ => rw [touches]; exact execRangeChange_within .refl _ rfl e
  | rangeChangeForced _ => rw [touches]; exact execRangeChangeForced_within .refl _ rfl e
  | receiveStep _ _ _ => rw [touches]; exact execReceiveStep_within .refl _ _ _ rfl e
  | driveStep _ _ => rw [touches]; exact execDriveStep_within .refl _ _ rfl e
  | calPort _ _ => rw [touches]; exact execCalPort_within .refl _ _ rfl e
  | measureZ _ _ => rw [touches]; exact execMeasureZ_within .refl _ _ rfl e
  | measureZTimeout _ => rw [touches]; exact execMeasureZTimeout_within .refl _ rfl e
  | lptDeclWrite _ _ => rw [touches]; exact execLptDeclWrite_within .refl _ _ rfl e
  | superframeStart _ _ => rw [touches]; exact execSuperframeStart_within .refl _ _ rfl e
  | slotStart _ => rw [touches]; exact execSlotStart_within .refl _ rfl e
  | planFix _ => rw [touches]; exact execPlanFix_within .refl _ rfl e
  | dwellBarred _ _ _ => rw [touches]; exact execDwellBarred_within .refl _ _ _ rfl e
  | dwellClear _ _ _ => rw [touches]; exact execDwellClear_within .refl _ _ _ rfl e
  | bcnDwellSelWrite _ => rw [touches]; exact execBcnDwellSelWrite_within .refl _ rfl e
  | nbSyncDetect _ _ _ _ _ _ _ => rw [touches]; exact execNbSyncDetect_within .refl _ _ _ _ _ _ _ rfl e
  | nbHeaderDecoded _ _ => rw [touches]; exact execNbHeaderDecoded_within .refl _ _ rfl e
  | nbEarlyDecode _ _ => rw [touches]; exact execNbEarlyDecode_within .refl _ _ rfl e
  | encodeFrame _ => rw [touches]; exact execEncodeFrame_within .refl _ rfl e
  | bbDetect _ _ _ _ _ => rw [touches]; exact execBbDetect_within .refl _ _ _ _ _ rfl e
  | bbHeaderDecoded _ _ => rw [touches]; exact execBbHeaderDecoded_within .refl _ _ rfl e
  | tmapReceived _ => rw [touches]; exact execTmapReceived_within .refl _ rfl e
  | tmapPeriodExpiry _ _ => rw [touches]; exact execTmapPeriodExpiry_within .refl _ _ rfl e
  | tmapPreviousExpiry _ => rw [touches]; exact execTmapPreviousExpiry_within .refl _ rfl e
  | dynNotchDetect _ _ _ _ => rw [touches]; exact execDynNotchDetect_within .refl _ _ _ _ rfl e
  | dynNotchLift _ _ => rw [touches]; exact execDynNotchLift_within .refl _ _ rfl e
  | encodeBurst _ => rw [touches]; exact execEncodeBurst_within .refl _ rfl e
  | readDyn _ => rw [touches]; exact execReadDyn_within .refl _ rfl e
  | impulseDetected _ _ _ _ _ _ _ => rw [touches]; exact execImpulseDetected_within .refl _ _ _ _ _ _ _ rfl e
  | predictionDue _ _ _ _ => rw [touches]; exact execPredictionDue_within .refl _ _ _ _ rfl e
  | settleEnd _ => rw [touches]; exact execSettleEnd_within .refl _ rfl e
  | ncalSelWrite _ => rw [touches]; exact execNcalSelWrite_within .refl _ rfl e
  | clearPort _ => rw [touches]; exact execClearPort_within .refl _ rfl e
  | snapshot _ => rw [touches]; exact execSnapshot_within .refl _ rfl e
  | uplinkFrame _ => rw [touches]; exact execUplinkFrame_within .refl _ rfl e
  | ackReceived _ => rw [touches]; exact execAckReceived_within .refl _ rfl e
  | retransmitTimeout _ => rw [touches]; exact execRetransmitTimeout_within .refl _ rfl e
  | dlDescriptorTaken _ _ => rw [touches]; exact execDlDescriptorTaken_within .refl _ _ rfl e
  | sf2Recheck _ _ => rw [touches]; exact execSf2Recheck_within .refl _ _ rfl e
  | dlCompletion => rw [touches]; exact execDlCompletion_within .refl rfl e
  | joinSolicit _ => rw [touches]; exact execJoinSolicit_within .refl _ rfl e
  | joinReq _ => rw [touches]; exact execJoinReq_within .refl _ rfl e
  | joiningExpiry _ => rw [touches]; exact execJoiningExpiry_within .refl _ rfl e
  | acceptedExpiry _ => rw [touches]; exact execAcceptedExpiry_within .refl _ rfl e
  | supervisionTimeout _ => rw [touches]; exact execSupervisionTimeout_within .refl _ rfl e
  | leave => rw [touches]; exact execLeave_within .refl rfl e
  | leavingExpiry _ => rw [touches]; exact execLeavingExpiry_within .refl _ rfl e
  | recordEccFault _ => rw [touches]; exact execRecordEccFault_within .refl _ rfl e
  | rekeyTrigger _ => rw [touches]; exact execRekeyTrigger_within .refl _ rfl e
  | rekeyRetryExpiry _ => rw [touches]; exact execRekeyRetryExpiry_within .refl _ rfl e
  | prevKeyExpiry _ => rw [touches]; exact execPrevKeyExpiry_within .refl _ rfl e
  | provision _ => rw [touches]; exact execProvision_within .refl _ rfl e
  | readCtx _ => rw [touches]; exact execReadCtx_within .refl _ rfl e
  | find _ => rw [touches]; exact execFind_within .refl _ rfl e
  | release _ => rw [touches]; exact execRelease_within .refl _ rfl e
  | park _ => rw [touches]; exact execPark_within .refl _ rfl e
  | rekey _ => rw [touches]; exact execRekey_within .refl _ rfl e
  | deleteParked _ => rw [touches]; exact execDeleteParked_within .refl _ rfl e
  | setRecord _ => rw [touches]; exact execSetRecord_within .refl _ rfl e
  | rotateBkey _ => rw [touches]; exact execRotateBkey_within .refl _ rfl e
  | floodCopyReceived _ => rw [touches]; exact execFloodCopyReceived_within .refl _ rfl e
  | floodKeyExpiry => rw [touches]; exact execFloodKeyExpiry_within .refl rfl e
  | relayElement => rw [touches]; exact execRelayElement_within .refl rfl e
  | keyInstall => rw [touches]; exact execKeyInstall_within .refl rfl e
  | joinUpHoldExpiry => rw [touches]; exact execJoinUpHoldExpiry_within .refl rfl e
  | parentJoined => rw [touches]; exact execParentJoined_within .refl rfl e
  | parentLost => rw [touches]; exact execParentLost_within .refl rfl e
  | treeWaitExpiry => rw [touches]; exact execTreeWaitExpiry_within .refl rfl e
  | setRoute _ => rw [touches]; exact execSetRoute_within .refl _ rfl e
  | clearRoute _ => rw [touches]; exact execClearRoute_within .refl _ rfl e
  | appoint _ => rw [touches]; exact execAppoint_within .refl _ rfl e
  | rptRouteSelWrite _ => rw [touches]; exact execRptRouteSelWrite_within .refl _ rfl e
  | engineWake _ _ _ => rw [touches]; exact execEngineWake_within .refl _ _ _ rfl e
  | engineIdleGate _ _ => rw [touches]; exact execEngineIdleGate_within .refl _ _ rfl e
  | txEngineTake _ _ => rw [touches]; exact execTxEngineTake_within .refl _ _ rfl e
  | burstCompletion _ _ => rw [touches]; exact execBurstCompletion_within .refl _ _ rfl e
  | clusterFault _ _ _ => rw [touches]; exact execClusterFault_within .refl _ _ _ rfl e
  | abortBurst _ _ => rw [touches]; exact execAbortBurst_within .refl _ _ rfl e
  | reloadCluster _ _ => rw [touches]; exact execReloadCluster_within .refl _ _ rfl e
  | engCtxSelWrite _ => rw [touches]; exact execEngCtxSelWrite_within .refl _ rfl e
  | queueNarrowWrite _ _ _ => rw [touches]; exact execQueueNarrowWrite_within .refl _ _ _ rfl e
  | pop _ _ _ => rw [touches]; exact execPop_within .refl _ _ _ rfl e
  | mark _ _ => rw [touches]; exact execMark_within .refl _ _ rfl e
  | rewind _ _ => rw [touches]; exact execRewind_within .refl _ _ rfl e
  | queueRelease _ _ _ => rw [touches]; exact execQueueRelease_within .refl _ _ _ rfl e
  | forceRelease _ => rw [touches]; exact execForceRelease_within .refl _ rfl e
  | readWords _ => rw [touches]; exact execReadWords_within .refl _ rfl e
  | bqSelWrite _ => rw [touches]; exact execBqSelWrite_within .refl _ rfl e
  | windowAccess _ _ _ _ _ => rw [touches]; exact execWindowAccess_within .refl _ _ _ _ _ rfl e
  | windowGrantTimeout _ => rw [touches]; exact execWindowGrantTimeout_within .refl _ rfl e
  | badgerStripe _ _ => rw [touches]; exact execBadgerStripe_within .refl _ _ rfl e
  | badgerYield _ _ => rw [touches]; exact execBadgerYield_within .refl _ _ rfl e
  | softRepairWalkEnd _ => rw [touches]; exact execSoftRepairWalkEnd_within .refl _ rfl e
  | fuseBurnDone => rw [touches]; exact execFuseBurnDone_within .refl rfl e
  | membPowerWrite _ _ => rw [touches]; exact execMembPowerWrite_within .refl _ _ rfl e
  | bankRetentionReturn _ => rw [touches]; exact execBankRetentionReturn_within .refl _ rfl e
  | bankZeroed _ => rw [touches]; exact execBankZeroed_within .refl _ rfl e
  | memCntSelWrite _ => rw [touches]; exact execMemCntSelWrite_within .refl _ rfl e
  | clearConflicts _ => rw [touches]; exact execClearConflicts_within .refl _ rfl e
  | testBank _ => rw [touches]; exact execTestBank_within .refl _ rfl e
  | softRepair _ _ => rw [touches]; exact execSoftRepair_within .refl _ _ rfl e
  | cipherJobTaken _ => rw [touches]; exact execCipherJobTaken_within .refl _ rfl e
  | cipherJobComplete _ _ _ => rw [touches]; exact execCipherJobComplete_within .refl _ _ _ rfl e
  | cipherJobAbandon _ _ => rw [touches]; exact execCipherJobAbandon_within .refl _ _ rfl e
  | reserveWaitTimeout _ _ => rw [touches]; exact execReserveWaitTimeout_within .refl _ _ rfl e
  | cipherParityError _ _ => rw [touches]; exact execCipherParityError_within .refl _ _ rfl e
  | drbgHealthFail => rw [touches]; exact execDrbgHealthFail_within .refl rfl e
  | testJob _ => rw [touches]; exact execTestJob_within .refl _ rfl e
  | selfTest _ => rw [touches]; exact execSelfTest_within .refl _ rfl e
  | zeroTestKey _ => rw [touches]; exact execZeroTestKey_within .refl _ rfl e
  | cipTestCtlWrite _ => rw [touches]; exact execCipTestCtlWrite_within .refl _ rfl e
  | cipTestKeyWrite _ _ => rw [touches]; exact execCipTestKeyWrite_within .refl _ _ rfl e
  | refQualified _ _ _ _ => rw [touches]; exact execRefQualified_within .refl _ _ _ _ rfl e
  | refDisqualified _ _ _ _ => rw [touches]; exact execRefDisqualified_within .refl _ _ _ _ rfl e
  | refLossOfSignal _ _ => rw [touches]; exact execRefLossOfSignal_within .refl _ _ rfl e
  | wtrExpiry _ _ => rw [touches]; exact execWtrExpiry_within .refl _ _ rfl e
  | switchComplete _ _ => rw [touches]; exact execSwitchComplete_within .refl _ _ rfl e
  | truLocked _ => rw [touches]; exact execTruLocked_within .refl _ rfl e
  | truLost _ => rw [touches]; exact execTruLost_within .refl _ rfl e
  | slewDone => rw [touches]; exact execSlewDone_within .refl rfl e
  | truModeWrite _ _ => rw [touches]; exact execTruModeWrite_within .refl _ _ rfl e
  | refCfgWrite _ _ _ => rw [touches]; exact execRefCfgWrite_within .refl _ _ _ rfl e
  | realign _ => rw [touches]; exact execRealign_within .refl _ rfl e
  | setTime _ _ => rw [touches]; exact execSetTime_within .refl _ _ rfl e
  | capture _ _ => rw [touches]; exact execCapture_within .refl _ _ rfl e
  | endWtr _ _ => rw [touches]; exact execEndWtr_within .refl _ _ rfl e
  | laneUp _ => rw [touches]; exact execLaneUp_within .refl _ rfl e
  | laneDown _ _ _ => rw [touches]; exact execLaneDown_within .refl _ _ _ rfl e
  | tunnelFrameReceived _ _ => rw [touches]; exact execTunnelFrameReceived_within .refl _ _ rfl e
  | ptpMessage _ _ _ _ => rw [touches]; exact execPtpMessage_within .refl _ _ _ _ rfl e
  | pauseReceived _ _ => rw [touches]; exact execPauseReceived_within .refl _ _ rfl e
  | sqProdDoorbell _ _ _ => rw [touches]; exact execSqProdDoorbell_within .refl _ _ _ rfl e
  | cqConsDoorbell _ _ => rw [touches]; exact execCqConsDoorbell_within .refl _ _ rfl e
  | ringDmaError _ => rw [touches]; exact execRingDmaError_within .refl _ rfl e
  | ulDelivery _ _ => rw [touches]; exact execUlDelivery_within .refl _ _ rfl e
  | eventRecordDelivery => rw [touches]; exact execEventRecordDelivery_within .refl rfl e
  | ringCoalesceExpiry _ => rw [touches]; exact execRingCoalesceExpiry_within .refl _ rfl e
  | msixUnmask _ => rw [touches]; exact execMsixUnmask_within .refl _ rfl e
  | ringReset _ => rw [touches]; exact execRingReset_within .refl _ rfl e
  | snfWrite => rw [touches]; exact execSnfWrite_within .refl rfl e
  | snfReplay _ => rw [touches]; exact execSnfReplay_within .refl _ rfl e
  | readBlocks _ => rw [touches]; exact execReadBlocks_within .refl _ rfl e
  | writeBlocks _ => rw [touches]; exact execWriteBlocks_within .refl _ rfl e
  | trim _ => rw [touches]; exact execTrim_within .refl _ rfl e
  | storeWorn _ _ _ _ => rw [touches]; exact execStoreWorn_within .refl _ _ _ _ rfl e
  | heartbeatSend => rw [touches]; exact execHeartbeatSend_within .refl rfl e
  | mirrorFrameReceived _ _ _ _ _ => rw [touches]; exact execMirrorFrameReceived_within .refl _ _ _ _ _ rfl e
  | mirrorSeqGapExpiry => rw [touches]; exact execMirrorSeqGapExpiry_within .refl rfl e
  | heartbeatLoss => rw [touches]; exact execHeartbeatLoss_within .refl rfl e
  | takeover _ => rw [touches]; exact execTakeover_within .refl _ rfl e
  | handover _ => rw [touches]; exact execHandover_within .refl _ rfl e
  | handoverDrainTimeout => rw [touches]; exact execHandoverDrainTimeout_within .refl rfl e
  | resync _ => rw [touches]; exact execResync_within .refl _ rfl e
  | sensorOutputBoundary _ _ => rw [touches]; exact execSensorOutputBoundary_within .refl _ _ rfl e
  | sensorStale _ => rw [touches]; exact execSensorStale_within .refl _ rfl e
  | senTempRead _ => rw [touches]; exact execSenTempRead_within .refl _ rfl e
  | selfCal _ => rw [touches]; exact execSelfCal_within .refl _ rfl e
  | logFlush => rw [touches]; exact execLogFlush_within .refl rfl e
  | loadSlot _ => rw [touches]; exact execLoadSlot_within .refl _ rfl e
  | epfwImport _ => rw [touches]; exact execEpfwImport_within .refl _ rfl e
  | epfwDelete _ => rw [touches]; exact execEpfwDelete_within .refl _ rfl e
  | campaignStart _ => rw [touches]; exact execCampaignStart_within .refl _ rfl e
  | campaignStop _ => rw [touches]; exact execCampaignStop_within .refl _ rfl e
  | campaignBlockDue => rw [touches]; exact execCampaignBlockDue_within .refl rfl e
  | logMark _ => rw [touches]; exact execLogMark_within .refl _ rfl e
  | challenge _ => rw [touches]; exact execChallenge_within .refl _ rfl e
  | challengeExpiry => rw [touches]; exact execChallengeExpiry_within .refl rfl e
  | apply _ => rw [touches]; exact execApply_within .refl _ rfl e
  | cardSign _ => rw [touches]; exact execCardSign_within .refl _ rfl e
  | readAuth _ => rw [touches]; exact execReadAuth_within .refl _ rfl e
  | readDevPub _ => rw [touches]; exact execReadDevPub_within .refl _ rfl e
  | serCharacterReceived _ _ => rw [touches]; exact execSerCharacterReceived_within .refl _ _ rfl e
  | serRxRead _ _ => rw [touches]; exact execSerRxRead_within .refl _ _ rfl e
  | serTxWrite _ _ _ => rw [touches]; exact execSerTxWrite_within .refl _ _ _ rfl e
  | serTxShiftLoad _ _ => rw [touches]; exact execSerTxShiftLoad_within .refl _ _ rfl e
  | serDivWrite _ _ _ => rw [touches]; exact execSerDivWrite_within .refl _ _ _ rfl e
  | breakStart _ => rw [touches]; exact execBreakStart_within .refl _ rfl e
  | breakEnd _ _ => rw [touches]; exact execBreakEnd_within .refl _ _ rfl e
  | lineStuck _ => rw [touches]; exact execLineStuck_within .refl _ rfl e
  | lineFree _ => rw [touches]; exact execLineFree_within .refl _ rfl e
  | sendBreak _ _ => rw [touches]; exact execSendBreak_within .refl _ _ rfl e
  | sleepAddressMatch _ => rw [touches]; exact execSleepAddressMatch_within .refl _ rfl e
  | cardPresenceChange _ _ => rw [touches]; exact execCardPresenceChange_within .refl _ _ rfl e
  | cardAtr _ _ => rw [touches]; exact execCardAtr_within .refl _ _ rfl e
  | cardWwtExpiry _ => rw [touches]; exact execCardWwtExpiry_within .refl _ rfl e
  | cardStatusWord _ _ _ => rw [touches]; exact execCardStatusWord_within .refl _ _ _ rfl e
  | bandEdgeKill _ => rw [touches]; exact execBandEdgeKill_within .refl _ rfl e
  | levelKill _ => rw [touches]; exact execLevelKill_within .refl _ rfl e
  | stuckKill _ => rw [touches]; exact execStuckKill_within .refl _ rfl e
  | tapKill _ => rw [touches]; exact execTapKill_within .refl _ rfl e
  | selfKill => rw [touches]; exact execSelfKill_within .refl rfl e
  | hotSpotTrip _ _ => rw [touches]; exact execHotSpotTrip_within .refl _ _ rfl e
  | siWarn _ => rw [touches]; exact execSiWarn_within .refl _ rfl e
  | tripLift _ _ => rw [touches]; exact execTripLift_within .refl _ _ rfl e
  | clearKill _ _ => rw [touches]; exact execClearKill_within .refl _ _ rfl e
  | killTest _ => rw [touches]; exact execKillTest_within .refl _ rfl e
  | ovenReady => rw [touches]; exact execOvenReady_within .refl rfl e
  | teBudgetExceeded _ => rw [touches]; exact execTeBudgetExceeded_within .refl _ rfl e
  | oscillatorModelSave _ => rw [touches]; exact execOscillatorModelSave_within .refl _ rfl e
  | truStateSend => rw [touches]; exact execTruStateSend_within .refl rfl e
  | signTimeout _ => rw [touches]; exact execSignTimeout_within .refl _ rfl e
  | pcieLinkChange _ _ _ _ => rw [touches]; exact execPcieLinkChange_within .refl _ _ _ _ rfl e
  | tinPpsEdge _ => rw [touches]; exact execTinPpsEdge_within .refl _ rfl e
  | setTimePpsTimeout => rw [touches]; exact execSetTimePpsTimeout_within .refl rfl e
  | reserveChargeFail => rw [touches]; exact execReserveChargeFail_within .refl rfl e
  | grantReq _ => rw [touches]; exact execGrantReq_within .refl _ rfl e
  | parentJoinAnswer _ => rw [touches]; exact execParentJoinAnswer_within .refl _ rfl e
  | solicitWaitExpiry => rw [touches]; exact execSolicitWaitExpiry_within .refl rfl e

/-! A step. -/

/-- A step without a waiting command keeps all that a command keeps. -/
theorem step_keeps {s t : State} (e : step s = .next t) : t.pending = s.pending.tail ∧ s.emits <:+ t.emits ∧ s.draws ≤ t.draws ∧ (s.wf = true → t.wf = true) := by
  unfold step at e
  split at e
  case h_1 c rest hq =>
    have k := exec_keeps c _ _ e
    exact ⟨by rw [k.pending, hq]; rfl, k.emits, k.draws, k.wf⟩
  case h_2 hq =>
    cases e
    have k : Keeps s (idle s) := idle_keeps .refl
    exact ⟨by rw [k.pending, hq]; rfl, k.emits, k.draws, k.wf⟩

/-- Settles O6: the command at the front keeps the canonical form, and so does a period of the clock. -/
theorem stepKeepsTables : Obligations.StepKeepsTables := by
  unfold Obligations.StepKeepsTables
  intro s t hwf e
  obtain ⟨_, _, _, wf⟩ := step_keeps e
  exact wf hwf

/-- Settles O4: a step takes the command at the front, and no command takes back what was sent out or drawn. -/
theorem stepTakesOneCommand : Obligations.StepTakesOneCommand := by
  unfold Obligations.StepTakesOneCommand
  intro s t e
  obtain ⟨hq, he, hd, _⟩ := step_keeps e
  exact ⟨hq, he, hd⟩

/-- Settles O1: it is the meaning of `step` with a command in front. -/
theorem stepRunsFront : Obligations.StepRunsFront := by
  unfold Obligations.StepRunsFront
  intro c rest s hq
  unfold step
  rw [hq]

theorem step_idle {s : State} (hq : s.pending = []) : step s = .next (idle s) := by
  unfold step
  rw [hq]

/-- Settles O2: the idle step counts the real-time counter while the Dormouse domain has power. -/
theorem stepIdles : Obligations.StepIdles := by
  unfold Obligations.StepIdles
  intro s hq
  refine ⟨idle s, step_idle hq, ?_⟩
  unfold idle
  by_cases hoff : s.pwr.state = .off
  · rw [if_pos hoff, if_pos hoff]
    exact ⟨rfl, rfl⟩
  · rw [if_neg hoff, if_neg hoff]
    exact ⟨rfl, rfl⟩

/-! Commands complete. -/

/-- An outcome that is a next state. -/
def Answers (o : Host.Outcome State Fault Refusal) : Prop := ∃ t, o = .next t

theorem answers_next (t : State) : Answers (.next t) := ⟨t, rfl⟩

theorem runCommand_answers (p : Page) (op : Nat) (src : CmdSrc) (e : WriteEnv) (s : State) : Answers (runCommand p op src e s) := by
  obtain ⟨run, h⟩ := runCommand_issue p op src e s
  exact ⟨_, h⟩

theorem resetBlock_answers (p : Page) (e : WriteEnv) (s : State) : Answers (resetBlock p e s) := by
  cases p <;> exact ⟨_, rfl⟩

theorem writeCmd_answers (p : Page) (v : Word) (e : WriteEnv) (s : State) : Answers (writeCmd p v e s) := by
  unfold writeCmd
  split
  · exact ⟨_, rfl⟩
  · exact runCommand_answers _ _ _ _ _

theorem writeHeader_answers (p : Page) (o : Nat) (v : Word) (e : WriteEnv) (s : State) : Answers (writeHeader p o v e s) := by
  unfold writeHeader
  split
  · split
    · exact resetBlock_answers _ _ _
    · exact answers_next _
  case h_5 => exact writeCmd_answers _ _ _ _
  all_goals exact ⟨_, rfl⟩

theorem writeBlock_answers (p : Page) (o : Nat) (v : Word) (e : WriteEnv) (s : State) : Answers (writeBlock p o v e s) := by
  unfold writeBlock
  split
  case h_14 => split_ifs <;> exact ⟨_, rfl⟩
  all_goals exact ⟨_, rfl⟩

theorem writeBar2_answers (a : Nat) (v : Word) (e : WriteEnv) (s : State) : Answers (writeBar2 a v e s) := by
  unfold writeBar2
  dsimp only
  split_ifs <;> exact ⟨_, rfl⟩

theorem registerWrite_answers (a : HostAddr) (form : AccessForm) (v : Word) (e : WriteEnv) (s : State) : Answers (execRegisterWrite a form v e s) := by
  unfold execRegisterWrite
  split
  · split
    · exact writeBar2_answers _ _ _ _
    · exact answers_next _
  · split
    · exact answers_next _
    · dsimp only
      split_ifs
      · exact answers_next _
      · exact writeHeader_answers _ _ _ _ _
      · exact writeBlock_answers _ _ _ _ _

theorem readReg_answers (p : Page) (o : Nat) (s : State) : Answers (readReg p o s) := by
  unfold readReg
  split
  case h_3 => split_ifs <;> exact ⟨_, rfl⟩
  all_goals exact ⟨_, rfl⟩

theorem counterReadClear_answers (a : HostAddr) (form : AccessForm) (s : State) : Answers (execCounterReadClear a form s) := by
  unfold execCounterReadClear
  split
  · exact answers_next _
  · split
    · exact answers_next _
    · split_ifs
      · exact readReg_answers _ _ _
      · exact answers_next _

/-- Settles O3: a host access ends in one of the other commands or in a next state, and each of those is a next state as it stands. -/
theorem everyCommandCompletes : Obligations.EveryCommandCompletes := by
  unfold Obligations.EveryCommandCompletes
  intro i s
  cases i with
  | registerWrite a form v e => exact registerWrite_answers a form v e s
  | counterReadClear a form => exact counterReadClear_answers a form s
  | _ => exact ⟨_, rfl⟩

/-! Reset. -/

/-- Settles O5: the tables at reset are empty. -/
theorem resetTables : Obligations.ResetTables := ⟨rfl, rfl⟩

theorem reg_reset (a : Nat) : reg State.reset a = regReset a := rfl

theorem outstanding_reset (p : Page) : outstanding State.reset p = none := rfl

theorem reg_reset_addr (p : Page) {o : Nat} (ho : o < 0x1000) : reg State.reset (addr p o) = pageReset p o := by
  rw [reg_reset]
  unfold regReset
  rw [pageOfAddr_addr]
  dsimp only
  rw [addr_mod p ho]

/-- The interrupt, error and command registers of every page start at 0. -/
theorem pageReset_header (p : Page) {o : Nat} (h : o = offIntStat ∨ o = offIntEn ∨ o = offErrCnt ∨ o = offCmdStat) : pageReset p o = 0 := by
  cases p with
  | eng c =>
    have hout : ¬ (c.val ≠ 0 ∧ 0x180 ≤ o ∧ o < 0x1A0) := by
      simp only [offIntStat, offIntEn, offErrCnt, offCmdStat] at h
      omega
    rcases h with rfl | rfl | rfl | rfl <;> exact (if_neg hout).trans rfl
  | _ => rcases h with rfl | rfl | rfl | rfl <;> rfl

/-- Settles O8: a register reads its reset value, which the tables give. -/
theorem resetRegisters : Obligations.ResetRegisters := by
  unfold Obligations.ResetRegisters
  refine ⟨reg_reset, fun p => ⟨outstanding_reset p, ?_, ?_, ?_, ?_⟩, fun p hp => ?_, fun n => ⟨?_, ?_⟩, ?_, fun r => ?_, rfl, rfl⟩
  · rw [reg_reset_addr p (by decide), pageReset_header p (.inl rfl)]
  · rw [reg_reset_addr p (by decide), pageReset_header p (.inr (.inl rfl))]
  · rw [reg_reset_addr p (by decide), pageReset_header p (.inr (.inr (.inl rfl)))]
  · rw [reg_reset_addr p (by decide), pageReset_header p (.inr (.inr (.inr rfl)))]
  · rw [reg_reset_addr p (by decide)]
    exact if_neg hp
  · have h : reg State.reset (addr (.lpt n) (LPT_STATUS.DRV_EN.offAt 0)) = tableReset .lpt LPT_STATUS.DRV_EN.off := reg_reset_addr (.lpt n) (by decide)
    unfold isSet getF getI
    rw [h]
    decide
  · have h : reg State.reset (addr (.lpt n) (LPT_DECL.DECLARED.offAt 0)) = tableReset .lpt LPT_DECL.DECLARED.off := reg_reset_addr (.lpt n) (by decide)
    unfold isSet getF getI
    rw [h]
    decide
  · decide
  · revert r
    decide

end Sys2Proof.Machine
end

section
/-!
PROOFS. The common header: interrupt registers, register writes and reads, the issue, abort and completion of commands (R8, R9, R26–R43), and the declaration of a port.
-/
namespace Sys2Proof.Machine

/-! Interrupt registers (R29). -/

theorem intOf_getLsbD (s : State) (p : Page) (n : Nat) : intOf s p n = (reg s (addr p offIntStat)).getLsbD n := rfl

/-- Settles O9: the three writes store one register word each, and the message leaves the registers alone. -/
theorem interruptRegisters : Obligations.InterruptRegisters := by
  unfold Obligations.InterruptRegisters
  refine ⟨fun p v s => ?_, fun p v s => ?_, fun p v s => ?_⟩
  · refine Yields.intro rfl ⟨fun n hn => ?_, fun a ha => ?_⟩
    · rw [intOf_getLsbD, reg_afterInt, reg_setReg_self, BitVec.getLsbD_and, BitVec.getLsbD_not, decide_eq_true hn, Bool.true_and]
      rfl
    · rw [reg_afterInt, reg_setReg_other _ _ (fun h => ha (List.mem_singleton.2 h))]
  · refine Yields.intro rfl ⟨?_, fun a ha => ?_⟩
    · rw [reg_afterInt, reg_setReg_self]
    · rw [reg_afterInt, reg_setReg_other _ _ (fun h => ha (List.mem_singleton.2 h))]
  · refine Yields.intro rfl ⟨fun n _ => intOf_raiseMask p _ s n, (RegsBut.refl _ s).raiseMask _ (List.mem_singleton.2 rfl), ?_⟩
    unfold killCauses getF getI
    rw [reg_raiseMask, if_neg (fun h => absurd (addr_inj (by decide) (by decide) h).2 (by decide))]

/-! Writes of RW fields (R8, R9). -/

/-- A write of a register without RWP fields only sets its RW fields. -/
theorem writeFields_plain {p : Page} {o : Nat} (h : ∀ f ∈ fieldsAt (pageKind p) o, f.acc ≠ .rwp) (v : Word) (s : State) :
    writeFields p o v s = writeRw p o v s := by
  have hp : protectedWrite p o v s = false := List.any_eq_false.2 (fun f hf => by simp [h f hf])
  unfold writeFields
  rw [hp]
  rfl

/-- A write of a register's fields changes registers, the log and interrupt messages alone. -/
theorem writeFields_all (p : Page) (o : Nat) (v : Word) (s : State) : Within (allRegs ||| 0x20000028000020) s (writeFields p o v s) :=
  writeFields_within .refl p o v rfl (Mask.any rfl p)

/-- What a write of a register without RWP fields leaves: the legal fields as written, the reserved ones kept and counted. -/
theorem writeFields_effect {p : Page} {o : Nat} (ho : 0x100 ≤ o ∧ o < 0x1000) (h : ∀ f ∈ fieldsAt (pageKind p) o, f.acc ≠ .rwp)
    (hd : fieldsApart ((fieldsAt (pageKind p) o).filter (fun f => decide (f.acc = .rw)))) (v : Word) (s : State) :
    let t := writeFields p o v s
    let fs := (fieldsAt (pageKind p) o).filter (fun f => decide (f.acc = .rw))
    let bad := fs.filter (fun f => !f.legal.ok f.width (getBits v f.hi f.lo))
    (∀ f ∈ fs, getBits (reg t (addr p o)) f.hi f.lo =
      if f.legal.ok f.width (getBits v f.hi f.lo) then getBits v f.hi f.lo else getBits (reg s (addr p o)) f.hi f.lo) ∧
    errors t p = min (errors s p + bad.length) 0xFFFF ∧ (bad ≠ [] → intOf t p INT.ERR = true) ∧
    RegsBut [addr p o, addr p offIntStat, addr p offErrCnt] s t := by
  rw [writeFields_plain h]
  unfold writeRw
  obtain ⟨hf, _, he, hi, _, hr⟩ := writeFold_effect ho.2 ho.1 v _ s hd
  refine ⟨hf, ?_, fun hb => hi (.inl hb), hr⟩
  rw [he, max_eq_right (errors_le s p)]

/-- The registers of O12 hold RW fields apart from each other and no RWP field. -/
theorem plainRegisters_fields : ∀ x ∈ [(PageKind.pwr, 0x114), (.asc, 0x100), (.tru, 0x10C), (.eng, 0x188), (.lpt, 0x108)],
    (0x100 ≤ x.2 ∧ x.2 < 0x1000 ∧ x.2 % 4 = 0) ∧ (∀ f ∈ fieldsAt x.1 x.2, f.acc ≠ .rwp) ∧
    (∀ f ∈ (fieldsAt x.1 x.2).filter (fun f => decide (f.acc = .rw)), f.lo ≤ f.hi ∧ f.hi < 32) ∧
    ((fieldsAt x.1 x.2).filter (fun f => decide (f.acc = .rw))).Pairwise (fun f g => f.hi < g.lo ∨ g.hi < f.lo) := by decide

/-- Settles O12: none of these registers starts anything, so that a write sets its RW fields. -/
theorem plainRegisterWrite : Obligations.PlainRegisterWrite := by
  unfold Obligations.PlainRegisterWrite
  intro p o hpo v e s
  have hreg : (pageKind p, o) ∈ [(PageKind.pwr, 0x114), (.asc, 0x100), (.tru, 0x10C), (.eng, 0x188), (.lpt, 0x108)] ∧
      writeBlock p o v e s = .next (writeFields p o v s) := by
    simp only [List.mem_cons, List.not_mem_nil, or_false, Prod.mk.injEq] at hpo
    rcases hpo with (⟨rfl, rfl⟩ | ⟨rfl, rfl⟩ | ⟨rfl, rfl⟩ | ⟨rfl, rfl⟩) | ⟨n, rfl, rfl⟩ <;> exact ⟨by simp [pageKind], rfl⟩
  obtain ⟨hmem, hwrite⟩ := hreg
  obtain ⟨⟨hlo, hhi, h4⟩, hrwp, hsound, hapart⟩ := plainRegisters_fields _ hmem
  refine Yields.intro ?_ (writeFields_effect ⟨hlo, hhi⟩ hrwp ⟨hsound, hapart⟩ v s)
  rw [registerWrite_full p hhi h4, if_neg (Nat.not_lt.2 hlo), hwrite]

/-! Reads (R9, R27). -/

theorem fieldsAt_header (k : PageKind) : ∀ o ∈ [0x008, offIntStat, offIntEn, 0x018, 0x020, 0x040, offCmdStat],
    (fieldsAt k o).filter (fun f => decide (f.acc = .rc)) = [] := by
  cases k <;> decide

/-- A read of the header clears nothing but ERR_CNT. -/
theorem clearRead_header (p : Page) {o : Nat} (ho : o ∈ [0x008, offIntStat, offIntEn, 0x018, 0x020, 0x040, offCmdStat]) (s : State) : clearRead p o s = s := by
  have hne : o ≠ offErrCnt := by
    rintro rfl
    exact absurd ho (by decide)
  unfold clearRead
  rw [if_neg hne, fieldsAt_header (pageKind p) o ho]
  rfl

/-- A read of the header runs no command of its own. -/
theorem readReg_header (p : Page) {o : Nat} (ho : o < 0x100) (s : State) : readReg p o s = .next (clearRead p o (returnWord (readWord s p o) s)) := by
  have hsen : ¬ (p = .sen ∧ 0x200 ≤ o ∧ o < 0x380 ∧ o % 0x20 = 0x0C) := fun h => absurd h.2.1 (by omega)
  have heng : ¬ (pageKind p = .eng ∧ p ≠ .eng 0 ∧ 0x180 ≤ o ∧ o < 0x1A0) := fun h => absurd h.2.2.1 (by omega)
  unfold readReg
  split
  · omega
  · omega
  · rw [if_neg hsen, if_neg heng]

theorem readWord_header (s : State) (p : Page) {o : Nat} (ho : o ∈ [offIntStat, offIntEn, offErrCnt, 0x020, offCmdStat]) : readWord s p o = reg s (addr p o) := by
  simp only [List.mem_cons, List.not_mem_nil, or_false] at ho
  rcases ho with rfl | rfl | rfl | rfl | rfl <;> cases p <;> rfl

theorem header_aligned : ∀ o ∈ [0x008, offIntStat, offIntEn, 0x018, offErrCnt, 0x020, 0x040, offCmdStat], o < 0x100 ∧ o % 4 = 0 := by decide

/-- A full read of a register of the header. -/
theorem counterRead_header (p : Page) {o : Nat} (ho : o ∈ [0x008, offIntStat, offIntEn, 0x018, offErrCnt, 0x020, 0x040, offCmdStat]) (s : State) :
    exec (.counterReadClear (.bar0 (BitVec.ofNat 26 (addr p o))) (.dword 0xF)) s = .next (clearRead p o (returnWord (readWord s p o) s)) := by
  obtain ⟨hlt, h4⟩ := header_aligned o ho
  rw [counterRead_full p (by omega) h4, readReg_header p hlt]

/-- A full read of a port's surge counter. -/
theorem counterRead_surge (n : Port) (s : State) :
    exec (.counterReadClear (.bar0 (BitVec.ofNat 26 (addr (.lpt n) LPT_SURGE_CNT.COUNT.off))) (.dword 0xF)) s =
      .next (setReg (addr (.lpt n) LPT_SURGE_CNT.COUNT.off) (setBits (reg s (addr (.lpt n) LPT_SURGE_CNT.COUNT.off)) 15 0 0)
        (returnWord (reg s (addr (.lpt n) LPT_SURGE_CNT.COUNT.off)) s)) := by
  rw [counterRead_full (.lpt n) (by decide) (by decide)]
  rfl

/-- Settles O14: a read of these registers runs no command, and clears RC fields alone. -/
theorem readsAndCounters : Obligations.ReadsAndCounters := by
  unfold Obligations.ReadsAndCounters
  refine ⟨fun p s => ?_, fun n s => ?_, fun p o s ho => ?_, fun p o s ho => ?_, fun a s hnone hout form => ?_⟩
  · refine Yields.intro (counterRead_header p (by simp) s) ?_
    rw [readWord_header s p (by simp)]
    unfold clearRead
    rw [if_pos rfl]
    exact ⟨rfl, reg_setReg_self _ _ _, (RegsBut.upd (RegsBut.refl _ s) rfl).setReg _ (List.mem_singleton.2 rfl)⟩
  · refine Yields.intro (counterRead_surge n s) ⟨rfl, ?_, (RegsBut.upd (RegsBut.refl _ s) rfl).setReg _ (List.mem_singleton.2 rfl)⟩
    unfold getF getI
    rw [Field.offAt_zero, reg_setReg_self]
    exact getBits_setBits _ _ (by decide) (by decide)
  · have hmem : o ∈ [0x008, offIntStat, offIntEn, 0x018, offErrCnt, 0x020, 0x040, offCmdStat] ∧
        o ∈ [0x008, offIntStat, offIntEn, 0x018, 0x020, 0x040, offCmdStat] ∧ o ∈ [offIntStat, offIntEn, offErrCnt, 0x020, offCmdStat] := by
      revert o
      decide
    refine Yields.intro (counterRead_header p hmem.1 s) ?_
    rw [clearRead_header p hmem.2.1, readWord_header s p hmem.2.2]
  · have hmem : o ∈ [0x008, offIntStat, offIntEn, 0x018, offErrCnt, 0x020, 0x040, offCmdStat] ∧
        o ∈ [0x008, offIntStat, offIntEn, 0x018, 0x020, 0x040, offCmdStat] := by
      revert o
      decide
    refine Yields.intro (counterRead_header p hmem.1 s) ?_
    rw [clearRead_header p hmem.2]
    simp only [List.mem_cons, List.not_mem_nil, or_false] at ho
    rcases ho with rfl | rfl | rfl <;> rfl
  · have hw : ¬ (0x1000000 ≤ a.toNat ∧ a.toNat < 0x2000000) := by omega
    refine Yields.intro (t := returnWord 0 s) ?_ rfl
    show execCounterReadClear (.bar0 a) form s = _
    unfold execCounterReadClear
    dsimp only
    rw [hnone]
    dsimp only
    rw [if_neg hw]

/-! The issue of a command (R38–R43). -/

/-- A state whose block registers are those before, PCI's aside. -/
theorem BlockRegsBut.of_past {p : Page} {s u : State} (h : ∀ q o, o < 0x1000 → (q ≠ p ∨ 0x100 ≤ o) → q ≠ .pci → reg u (addr q o) = reg s (addr q o)) (l : List Nat) :
    BlockRegsBut l s u := fun q o ho h1 hq _ => h q o ho (.inr h1) hq

/-- The completion of a command at its issue. -/
theorem Issued.completed {u : State} {p : Page} {op : Nat} {src : CmdSrc} {s : State} (h : Issued u p (latch p op src s)) {code : Nat} (hc : code < 256) (d : Nat) :
    Completed (complete p code d u) p code :=
  complete_completed h.out (.inr (latch_origin p op src s)) hc d

theorem Issued.complete_tag {u : State} {p : Page} {op : Nat} {src : CmdSrc} {s : State} (h : Issued u p (latch p op src s)) (code d : Nat) :
    getBits (reg (complete p code d u) (addr p offCmdStat)) 23 16 = (latch p op src s).tag := by
  rw [Machine.complete_tag u (.inr fun x hx => ?_), h.tag]
  rw [h.out] at hx
  cases hx
  exact latch_origin p op src s

/-- Settles O16: the issue refuses a command while the block is not READY, and NOP and an undefined opcode complete at once. -/
theorem commandIssued : Obligations.CommandIssued := by
  unfold Obligations.CommandIssued
  refine ⟨fun p src s ht => ?_, fun p v e s hout habort hbad => ?_⟩
  · obtain ⟨u, hu, hi, hreg, _, _⟩ := issue_takes ht 0 (fun _ t => done p CODE.OK t)
    refine Yields.intro (congrArg Host.Outcome.next hu) ⟨hi.completed (by decide) 0, ?_⟩
    exact (BlockRegsBut.of_past hreg []).complete p CODE.OK 0
  · obtain ⟨run, hexec, hrun⟩ := writeCmd_issue p v e s habort
    obtain ⟨u, hu, hi, hreg, _, _⟩ := issue_host hout (getBits v 15 0) (BitVec.ofNat 8 (getBits v 23 16)) run
    have htag : (latch p (getBits v 15 0) (.host (BitVec.ofNat 8 (getBits v 23 16))) s).tag = getBits v 23 16 := by
      show (BitVec.ofNat 8 (getBits v 23 16)).toNat = _
      rw [BitVec.toNat_ofNat]
      exact Nat.mod_eq_of_lt (getBits_lt v 23 16)
    have key : ∀ code, code < 256 → Completed (complete p code 0 u) p code ∧
        getBits (reg (complete p code 0 u) (addr p offCmdStat)) 23 16 = getBits v 23 16 ∧ BlockRegsBut [] s (complete p code 0 u) :=
      fun code hc => ⟨hi.completed hc 0, (hi.complete_tag code 0).trans htag, (BlockRegsBut.of_past hreg []).complete p code 0⟩
    rw [hu] at hexec
    by_cases hr : ready s p = true
    · have hop : 9 < getBits v 15 0 := hbad.resolve_left (by rw [hr]; decide)
      rw [if_pos hr, hrun hop] at hexec
      rw [if_pos hr]
      exact Yields.intro hexec (key _ (by decide))
    · rw [if_neg hr] at hexec
      rw [if_neg hr]
      exact Yields.intro hexec (key _ (by decide))

/-! Aborts (R41). -/

theorem abortTag_met {s : State} {p : Page} {o : Outstanding} {tag : Nat} (h : outstanding s p = some o) (ht : o.tag = tag) (n : Nat) :
    abortTag p tag n s = abortCommand p o n s := by
  unfold outstanding at h
  unfold abortTag
  dsimp only
  rw [h]
  exact if_pos ht

theorem abortTag_other {s : State} {p : Page} {tag : Nat} (h : ∀ o, outstanding s p = some o → o.tag ≠ tag) (n : Nat) :
    abortTag p tag n s = if (slotOf s p).last = some tag then setStat p 29 29 1 s else dropCmd p s := by
  unfold outstanding at h
  unfold abortTag
  dsimp only
  split
  next o ho => exact if_neg (h o ho)
  next => rfl

/-- ABORT_LATE of a command whose completion has latched touches no other bit. -/
theorem setStat_late (p : Page) (s : State) : getBits (reg (setStat p 29 29 1 s) (addr p offCmdStat)) 29 29 = 1 ∧
    getBits (reg (setStat p 29 29 1 s) (addr p offCmdStat)) 15 0 = getBits (reg s (addr p offCmdStat)) 15 0 ∧ (setStat p 29 29 1 s).cmds = s.cmds ∧
    RegsBut [addr p offCmdStat] s (setStat p 29 29 1 s) := by
  rw [cmdStat_setStat]
  exact ⟨getBits_setBits _ _ (by decide) (by decide), getBits_setBits_other _ _ (by decide) (by decide) (by decide), cmds_setReg _ _ _,
    (RegsBut.refl _ s).setReg _ (List.mem_singleton.2 rfl)⟩

/-- The completion with ABORTED of a command on a page other than PCI. -/
theorem done_aborted {s : State} {p : Page} {o : Outstanding} (h : outstanding s p = some o) (hp : p ≠ .pci) :
    Completed (done p CODE.ABORTED s) p CODE.ABORTED ∧ BlockRegsBut [] s (done p CODE.ABORTED s) :=
  ⟨complete_completed h (.inl hp) (by decide) 0, (BlockRegsBut.refl [] s).complete p CODE.ABORTED 0⟩

/-- Settles O17: an abort finds the tag outstanding, latched, or neither. -/
theorem commandAborted : Obligations.CommandAborted := by
  unfold Obligations.CommandAborted
  refine ⟨fun p tag n s o ho ht hop => ?_, fun p tag n s hout hlast => ?_, fun p tag n s hout hlast => ?_⟩
  · refine Yields.intro (congrArg Host.Outcome.next (abortTag_met ho ht n)) ?_
    have hcmd : abortCommand p o n s = done p CODE.ABORTED s ∧ p ≠ .pci := by
      rcases hop with ⟨rfl, h⟩ | ⟨k, rfl, h⟩ | ⟨rfl, h⟩ <;> (unfold abortCommand; rw [h]; exact ⟨rfl, by simp⟩)
    rw [hcmd.1]
    exact done_aborted ho hcmd.2
  · have hnone : ∀ o, outstanding s p = some o → o.tag ≠ tag.toNat := by simp [hout]
    refine Yields.intro (congrArg Host.Outcome.next (abortTag_other hnone n)) ?_
    rw [if_pos hlast]
    exact setStat_late p s
  · refine Yields.intro (congrArg Host.Outcome.next (abortTag_other hout n)) ?_
    rw [if_neg hlast]
    obtain ⟨hc, hd, he, hr⟩ := dropCmd_effect p s
    exact ⟨hd, he, hc, hr⟩

/-! CMD_STAT and completions (R9, R40). -/

theorem cmdStat_w1c (n : Nat) (hn : n < 32) : (0x70000000 : Word).getLsbD n = (decide (28 ≤ n) && decide (n ≤ 30)) := by
  revert n
  decide

/-- Settles O18: the write clears bits 28 to 30, and a completion event asks which command is outstanding. -/
theorem commandStatus : Obligations.CommandStatus := by
  unfold Obligations.CommandStatus
  refine ⟨fun p v s => ?_, fun r s o ho hop hpipe => ?_, fun p r s hnone => ?_⟩
  · refine Yields.intro rfl ⟨fun n hn => ?_, (RegsBut.refl _ s).setReg _ (List.mem_singleton.2 rfl)⟩
    rw [reg_setReg_self]
    show (_ &&& ~~~(v &&& 0x70000000)).getLsbD n = _
    rw [BitVec.getLsbD_and, BitVec.getLsbD_not, BitVec.getLsbD_and, decide_eq_true hn, Bool.true_and, cmdStat_w1c n hn, ← Bool.and_assoc]
    rfl
  · refine Yields.intro (t := done .cip CODE.OK s) ?_ (complete_completed ho (.inl (by simp)) (by decide) 0)
    show execCmdCompletion .cip r s = _
    unfold execCmdCompletion
    rw [ho]
    dsimp only
    unfold finishCommand
    rw [hop]
    simp only [hpipe]
    rfl
  · refine Yields.intro (t := s) ?_ rfl
    show execCmdCompletion p r s = _
    unfold execCmdCompletion
    rw [hnone]

/-! The declaration of a port (R63, R64, R94). -/

/-- The word a write of LPT_DECL stores: an LV port has no coupler. -/
def declWord (n : Port) (v : Word) : Word := if n.val < 48 then setBits v 5 0 0 else v

theorem getBits_declWord (n : Port) (v : Word) {hi lo : Nat} (h : 5 < lo) : getBits (declWord n v) hi lo = getBits v hi lo := by
  unfold declWord
  split
  · exact getBits_setBits_other _ _ (by decide) (by decide) (.inr h)
  · rfl

theorem getBits_declWord_loss (n : Port) (v : Word) : getBits (declWord n v) 5 0 = if n.val < 48 then 0 else getBits v 5 0 := by
  unfold declWord
  split
  · exact getBits_setBits _ _ (by decide) (by decide)
  · rfl

theorem declFields : (∀ f ∈ fieldsAt .lpt 0x100, f.acc ≠ .rwp) ∧
    (fieldsAt .lpt 0x100).filter (fun f => decide (f.acc = .rw)) = [LPT_DECL.DECLARED, LPT_DECL.BB_EN, LPT_DECL.NB_EN, LPT_DECL.COUPLER_LOSS] := by decide

theorem getF_decl {s : State} {n : Port} {f : Field} (hf : f.off = 0x100) : getF s (.lpt n) f = getBits (reg s (addr (.lpt n) 0x100)) f.hi f.lo := by
  unfold getF getI
  rw [Field.offAt_zero, hf]

/-- A write of LPT_DECL: the fields as written, a reserved COUPLER_LOSS kept. -/
theorem writeDecl_effect (n : Port) (v : Word) (s : State) :
    let t := writeFields (.lpt n) 0x100 (declWord n v) s
    (∀ f ∈ [LPT_DECL.DECLARED, LPT_DECL.BB_EN, LPT_DECL.NB_EN], getF t (.lpt n) f = getBits v f.hi f.lo) ∧
    getF t (.lpt n) LPT_DECL.COUPLER_LOSS =
      (if n.val < 48 then 0 else if getBits v 5 0 ≤ 40 then getBits v 5 0 else getF s (.lpt n) LPT_DECL.COUPLER_LOSS) ∧
    RegsBut [addr (.lpt n) 0x100, addr (.lpt n) offIntStat, addr (.lpt n) offErrCnt] s t := by
  obtain ⟨hrwp, hrw⟩ := declFields
  have hd : fieldsApart ((fieldsAt (pageKind (.lpt n)) 0x100).filter (fun f => decide (f.acc = .rw))) := by
    show fieldsApart ((fieldsAt .lpt 0x100).filter _)
    rw [hrw]
    exact ⟨by decide, by decide⟩
  obtain ⟨hf, _, _, hr⟩ := writeFields_effect (p := .lpt n) (o := 0x100) ⟨by decide, by decide⟩ hrwp hd (declWord n v) s
  have hf' : ∀ f ∈ [LPT_DECL.DECLARED, LPT_DECL.BB_EN, LPT_DECL.NB_EN, LPT_DECL.COUPLER_LOSS], _ := fun f hm => hf f (hrw ▸ hm)
  refine ⟨fun f hm => ?_, ?_, hr⟩
  · have hany : f.off = 0x100 ∧ f.legal = .any ∧ 5 < f.lo := by
      revert f
      decide
    obtain ⟨hoff, hlegal, hlo⟩ := hany
    rw [getF_decl hoff, hf' f (by simp only [List.mem_cons, List.not_mem_nil, or_false] at hm ⊢; tauto), hlegal, getBits_declWord n v hlo]
    rfl
  · have hloss := hf' LPT_DECL.COUPLER_LOSS (by simp)
    rw [getF_decl rfl, hloss, getF_decl rfl]
    show (if (decide (0 ≤ getBits (declWord n v) 5 0) && decide (getBits (declWord n v) 5 0 ≤ 40)) = true then getBits (declWord n v) 5 0 else _) = _
    rw [getBits_declWord_loss]
    by_cases hn : n.val < 48
    · rw [if_pos hn, if_pos hn]
      rfl
    · rw [if_neg hn, if_neg hn]
      simp

/-- Settles O19: LPT_DECL takes its fields and PENDING; a plug removed is no event; a surge is counted and raised. -/
theorem portDeclaration : Obligations.PortDeclaration := by
  unfold Obligations.PortDeclaration
  refine ⟨fun n v s => ?_, fun _ _ => rfl, fun n s => ?_⟩
  · obtain ⟨hf, hloss, hr⟩ := writeDecl_effect n v s
    refine Yields.intro (t := setF (.lpt n) LPT_DECL.PENDING 1 (writeFields (.lpt n) 0x100 (declWord n v) s)) rfl ⟨?_, ?_, ?_, ?_, ?_, ?_, ?_⟩
    · rw [getF_setF_self _ _ _ _ (by decide)]
      rfl
    · rw [getF_setF_other _ _ (by decide) (by decide) (.inr (by decide))]
      exact hf _ (by simp)
    · rw [getF_setF_other _ _ (by decide) (by decide) (.inr (by decide))]
      exact hf _ (by simp)
    · rw [getF_setF_other _ _ (by decide) (by decide) (.inr (by decide))]
      exact hf _ (by simp)
    · rw [getF_setF_other _ _ (by decide) (by decide) (.inr (by decide))]
      exact hloss
    · unfold port
      rw [ports_setF, (writeFields_all (.lpt n) 0x100 (declWord n v) s).same .ports rfl]
    · exact hr.setF _ (by simp [LPT_DECL.PENDING])
  · refine Yields.intro rfl ⟨?_, intOf_raise _ _ _ (by decide), ?_⟩
    · rw [getF_raise _ _ _ (by decide) (by decide), getF_count _ _ _ (by decide)]
      rfl
    · exact ((RegsBut.refl _ s).count (by simp)).raise _ (by simp)

end Sys2Proof.Machine
end

section
/-!
PROOFS. Fields of registers after the shared operations, in one spelling: fields by `getI`, the side conditions as equations between truth values that compute.
-/
namespace Sys2Proof.Machine

/-! Fields (R5). -/

/-- Element `i` of a field and element `j` of another lie in different registers, or in different bits of one. -/
def fieldsSplit (f g : Field) (i j : Nat) : Bool :=
  decide (f.offAt i % 0x1000 ≠ g.offAt j % 0x1000) || decide (g.hi < f.lo) || decide (f.hi < g.lo)

/-- The bits of a field stand in order within a word. -/
def Field.ordered (f : Field) : Bool := decide (f.lo ≤ f.hi) && decide (f.hi < 32)

/-- Two pages of different kinds. -/
def kindsDiffer (p q : Page) : Bool := decide (pageKind p ≠ pageKind q)

theorem kindsDiffer_ne {p q : Page} (h : kindsDiffer p q = true) : p ≠ q := fun e => by
  subst e
  exact absurd rfl (of_decide_eq_true h)

theorem addr_split {p : Page} {o x : Nat} (h : addr p o = addr p x) : o % 0x1000 = x % 0x1000 := by
  unfold addr at h
  omega

theorem addr_kind {p q : Page} {o x : Nat} (h : p ≠ q) : addr p o ≠ addr q x := by
  intro e
  have hp := pageOfAddr_addr p o
  rw [e, pageOfAddr_addr] at hp
  exact h (Option.some.inj hp).symm

theorem getI_setI_self (s : State) (p : Page) (f : Field) (i v : Nat) (h : f.ordered = true) : getI (setI p f i v s) p f i = v % 2 ^ f.width := by
  simp only [Field.ordered, Bool.and_eq_true, decide_eq_true_eq] at h
  unfold getI setI
  rw [reg_setReg_self, getBits_setBits _ _ h.1 h.2]
  rfl

theorem getI_setI_split (s : State) (p : Page) {f g : Field} {i j : Nat} (v : Nat) (hf : f.ordered = true) (h : fieldsSplit f g i j = true) :
    getI (setI p f i v s) p g j = getI s p g j := by
  simp only [Field.ordered, Bool.and_eq_true, decide_eq_true_eq] at hf
  simp only [fieldsSplit, Bool.or_eq_true, decide_eq_true_eq] at h
  unfold getI setI
  by_cases he : addr p (g.offAt j) = addr p (f.offAt i)
  · have hb : g.hi < f.lo ∨ f.hi < g.lo := by
      have := addr_split he
      omega
    rw [he, reg_setReg_self, getBits_setBits_other _ _ hf.1 hf.2 hb]
  · rw [reg_setReg_other _ _ he]

theorem getI_setI_page (s : State) {p q : Page} (f g : Field) (i j v : Nat) (h : q ≠ p) : getI (setI p f i v s) q g j = getI s q g j := by
  unfold getI setI
  rw [reg_setReg_other _ _ (addr_kind h)]

/-- A field in a register at another offset, of whatever page. -/
theorem getI_setI_off (s : State) (p q : Page) {f g : Field} {i j : Nat} (v : Nat) (h : f.offAt i % 0x1000 ≠ g.offAt j % 0x1000) :
    getI (setI p f i v s) q g j = getI s q g j := by
  unfold getI setI
  rw [reg_setReg_other _ _ (fun e => ?_)]
  by_cases hq : q = p
  · subst hq
    exact h (addr_split e).symm
  · exact addr_kind hq e

theorem getI_raise (s : State) (p q : Page) (f : Field) (n j : Nat) (h : decide (f.offAt j % 0x1000 ≠ offIntStat) = true) :
    getI (raise p n s) q f j = getI s q f j := by
  have hne : addr q (f.offAt j) ≠ addr p offIntStat := by
    intro e
    have hq : q = p := by
      by_contra hq
      exact addr_kind hq e
    subst hq
    exact of_decide_eq_true h (addr_split e)
  unfold getI raise
  rw [reg_raiseMask, if_neg hne]

theorem getI_congr {s t : State} {p : Page} {f : Field} {i : Nat} (h : reg t (addr p (f.offAt i)) = reg s (addr p (f.offAt i))) : getI t p f i = getI s p f i := by
  unfold getI
  rw [h]

/-- A completion keeps every field of the blocks outside PCI, and every field of STATUS but BUSY. -/
theorem getI_complete (s : State) (p q : Page) (f : Field) (j code d : Nat) (hq : q ≠ .pci)
    (h : (decide (0x100 ≤ f.offAt j) && decide (f.offAt j < 0x1000) || decide (f.offAt j = offStatus) && decide (f.hi < 30) && decide (f.lo ≤ f.hi)) = true) :
    getI (complete p code d s) q f j = getI s q f j := by
  simp only [Bool.or_eq_true, Bool.and_eq_true, decide_eq_true_eq] at h
  rcases h with ⟨h0, h1⟩ | ⟨⟨ho, h1⟩, h2⟩
  · exact getI_congr (reg_complete s p code d h1 hq (.inr h0))
  · unfold getI
    rw [ho]
    exact StatusKept.complete p code d s q f.hi f.lo hq h2 (by omega) (.inr h1)

/-- A register of another kind of page, or another register of the page. -/
theorem reg_setI_split (s : State) {p q : Page} {f : Field} {i o : Nat} (v : Nat) (h : q ≠ p ∨ o % 0x1000 ≠ f.offAt i % 0x1000) :
    reg (setI p f i v s) (addr q o) = reg s (addr q o) := by
  refine reg_setReg_other _ _ (fun e => ?_)
  by_cases hq : q = p
  · subst hq
    exact h.elim (fun h => h rfl) (fun h => h (addr_split e))
  · exact addr_kind hq e

/-! The command interface of a page. -/

/-- The command interface of a page stands as before, but for interrupts that have come in. -/
structure CmdKept (p : Page) (s t : State) : Prop where
  out : outstanding t p = outstanding s p
  stat : reg t (addr p offCmdStat) = reg s (addr p offCmdStat)
  int : ∀ n, intOf s p n = true → intOf t p n = true

theorem CmdKept.refl (p : Page) (s : State) : CmdKept p s s := ⟨rfl, rfl, fun _ h => h⟩

theorem CmdKept.trans {p : Page} {s t u : State} (h : CmdKept p s t) (k : CmdKept p t u) : CmdKept p s u :=
  ⟨k.out.trans h.out, k.stat.trans h.stat, fun n hn => k.int n (h.int n hn)⟩

theorem CmdKept.upd {p : Page} {s t : State} (hr : t.regs = s.regs) (hc : t.cmds = s.cmds) : CmdKept p s t := by
  have e : ∀ a, reg t a = reg s a := fun a => by
    unfold reg
    rw [hr]
  exact ⟨outstanding_eq hc p, e _, fun n h => (intOf_eq (e _) n).trans h⟩

/-- Whatever changes neither the command slots nor the page. -/
theorem CmdKept.within {m : Nat} {p : Page} {s t : State} (h : Within m s t) (hc : m.testBit 26 = false) (hk : m.testBit (kindCode (pageKind p)) = false) :
    CmdKept p s t := by
  have e : ∀ o, reg t (addr p o) = reg s (addr p o) := fun o => h.reg_addr p o hk
  exact ⟨outstanding_eq (h.same .cmds hc) p, e _, fun n hn => (intOf_eq (e _) n).trans hn⟩

theorem CmdKept.setReg {p q : Page} (s : State) (o : Nat) (w : Word) (h : q ≠ p ∨ (o % 0x1000 ≠ offCmdStat ∧ o % 0x1000 ≠ offIntStat)) :
    CmdKept p s (setReg (addr q o) w s) := by
  have ne : ∀ x, (q ≠ p ∨ o % 0x1000 ≠ x % 0x1000) → addr p x ≠ addr q o := by
    intro x hx e
    by_cases hq : q = p
    · subst hq
      exact hx.elim (fun h => h rfl) (fun h => h (addr_split e).symm)
    · exact addr_kind (Ne.symm hq) e
  refine ⟨outstanding_eq rfl p, reg_setReg_other _ _ (ne _ (h.imp id And.left)), fun n hn => ?_⟩
  exact (intOf_eq (reg_setReg_other _ _ (ne _ (h.imp id And.right))) n).trans hn

theorem CmdKept.setI {p q : Page} (s : State) (f : Field) (i v : Nat)
    (h : q ≠ p ∨ (f.offAt i % 0x1000 ≠ offCmdStat ∧ f.offAt i % 0x1000 ≠ offIntStat)) : CmdKept p s (setI q f i v s) := CmdKept.setReg s _ _ h

theorem CmdKept.setB {p q : Page} (s : State) (f : Field) (b : Bool)
    (h : q ≠ p ∨ (f.off % 0x1000 ≠ offCmdStat ∧ f.off % 0x1000 ≠ offIntStat)) : CmdKept p s (setB q f b s) :=
  CmdKept.setI s f 0 _ (by rwa [Field.offAt_zero])

theorem CmdKept.setF {p q : Page} (s : State) (f : Field) (v : Nat)
    (h : q ≠ p ∨ (f.off % 0x1000 ≠ offCmdStat ∧ f.off % 0x1000 ≠ offIntStat)) : CmdKept p s (setF q f v s) :=
  CmdKept.setI s f 0 _ (by rwa [Field.offAt_zero])

theorem CmdKept.raise (p q : Page) (n : Nat) (s : State) : CmdKept p s (raise q n s) :=
  ⟨outstanding_eq (cmds_raise q n s) p, reg_raise_other _ _ _ (by decide) (.inr (by decide)), fun k hk => intOf_raise_mono q p n k s hk⟩

theorem CmdKept.count {p q : Page} (s : State) (f : Field) (h : q ≠ p ∨ (f.off % 0x1000 ≠ offCmdStat ∧ f.off % 0x1000 ≠ offIntStat)) :
    CmdKept p s (count q f s) := CmdKept.setF s f _ h

theorem CmdKept.foldl {α : Type} {p : Page} {f : State → α → State} (hf : ∀ u x, CmdKept p u (f u x)) : ∀ (l : List α) (s : State), CmdKept p s (l.foldl f s)
  | [], s => .refl p s
  | x :: l, s => (hf s x).trans (CmdKept.foldl hf l (f s x))

theorem CmdKept.resetOffsets {p : Page} (q : Page) {os : List Nat} (h : ∀ o ∈ os, o % 0x1000 ≠ offCmdStat ∧ o % 0x1000 ≠ offIntStat) (s : State) :
    CmdKept p s (resetOffsets q os s) := by
  unfold Machine.resetOffsets
  induction os generalizing s with
  | nil => exact .refl p s
  | cons o os ih => exact (CmdKept.setReg s o _ (.inr (h o (.head _)))).trans (ih (fun x hx => h x (.tail _ hx)) _)

theorem CmdKept.completed {p : Page} {s t : State} (h : CmdKept p s t) {code : Nat} (c : Completed s p code) : Completed t p code :=
  ⟨h.out.trans c.out, by rw [h.stat, c.busy], by rw [h.stat, c.done], by rw [h.stat, c.code], h.int _ c.int⟩

theorem CmdKept.issued {p : Page} {s t : State} (h : CmdKept p s t) {o : Outstanding} (c : Issued s p o) : Issued t p o :=
  ⟨h.out.trans c.out, by rw [h.stat, c.busy], by rw [h.stat, c.tag]⟩

/-- A completion on another page than PCI keeps the command interface of the rest. -/
theorem CmdKept.complete {p q : Page} (hq : q ≠ p) (hp : p ≠ .pci) (code d : Nat) (s : State) : CmdKept p s (Machine.complete q code d s) := by
  have e : ∀ x, x < 0x1000 → reg (Machine.complete q code d s) (addr p x) = reg s (addr p x) := fun x hx => reg_complete s q code d hx hp (.inl (Ne.symm hq))
  exact ⟨outstanding_complete_other (Ne.symm hq) code d s, e _ (by decide), fun n hn => (intOf_eq (e _ (by decide)) n).trans hn⟩

end Sys2Proof.Machine
end

section
/-!
PROOFS. Gain control and the commands of a line port (R100–R108, R112).
-/
namespace Sys2Proof.Machine

/-- What no round of a fold changes, the fold does not change. -/
theorem foldl_keeps {α β : Type} {g : State → β} {f : State → α → State} (hf : ∀ t x, g (f t x) = g t) : ∀ (l : List α) (s : State), g (l.foldl f s) = g s
  | [], _ => rfl
  | x :: l, s => (foldl_keeps hf l (f s x)).trans (hf s x)

/-! Gain control (R99–R104). -/

/-- The request a new one makes with the one that stands. -/
def mergedChange (d c : Int) : Int := if d < 0 ∨ c < 0 then min d c else max d c

theorem port_requestChange {s : State} {n : Nat} (h : agcAuto s n = true) (d : Int) :
    (port (requestChange n d s) n).change = mergedChange d (port s n).change := by
  unfold requestChange
  dsimp only
  rw [if_pos h, port_setPort_self]
  rfl

theorem regs_requestChange (n : Nat) (d : Int) (s : State) : (requestChange n d s).regs = s.regs := by
  unfold requestChange
  dsimp only
  split <;> rfl

theorem ports_eraseSymbols (n k : Nat) (s : State) : (eraseSymbols n k s).ports = s.ports := by
  unfold eraseSymbols
  split
  · rfl
  · exact ports_countN _ _ _ _

theorem RegsBut.eraseSymbols {l : List Nat} {s t : State} (h : RegsBut l s t) {n : Port} (k : Nat) (ha : addr (.lpt n) LPT_CLIP_CNT.COUNT.off ∈ l) :
    RegsBut l s (eraseSymbols n.val k t) := by
  unfold Machine.eraseSymbols
  split
  · exact h
  · rw [lptPage_val]
    exact h.countN _ ha

theorem getF_range_eraseSymbols (n : Port) (k : Nat) (s : State) :
    getF (eraseSymbols n.val k s) (.lpt n) LPT_STATUS.RANGE = getF s (.lpt n) LPT_STATUS.RANGE := by
  unfold eraseSymbols
  split
  · rfl
  · rw [lptPage_val]
    exact getF_setF_other _ _ (by decide) (by decide) (.inr (by decide))

theorem agcAuto_rx {s : State} {n : Port} (h : agcAuto s n.val = true) : isSet s (.lpt n) LPT_STATUS.RX_ON = true := by
  unfold agcAuto at h
  rw [lptPage_val, Bool.and_eq_true] at h
  exact h.1

/-- Marking GAIN_STEP in bursts touches no register and no port. -/
theorem gainStep_fold (l : List Nat) (s : State) :
    RegsBut [] s (l.foldl (fun t id => setBurst id { burst t id with gainStep := true } t) s) ∧
    (l.foldl (fun t id => setBurst id { burst t id with gainStep := true } t) s).ports = s.ports := by
  refine ⟨RegsBut.foldl (fun _ _ h => ?_) l s (RegsBut.refl _ _), foldl_keeps (g := State.ports) (fun _ _ => ?_) l s⟩
  · exact h.upd rfl
  · rfl

theorem nextRange_lt (s : State) (n : Nat) : nextRange s n < 8 := by
  unfold nextRange
  split
  · exact getBits_lt _ _ _
  · omega

/-- A change instant of a port that may change its range. -/
theorem rangeChange_effect {s : State} {n : Port} (hrx : isSet s (.lpt n) LPT_STATUS.RX_ON = true) (hfz : isSet s (.lpt n) LPT_STATUS.AGC_FROZEN = false) :
    getF (rangeChange n.val s) (.lpt n) LPT_STATUS.RANGE = nextRange s n.val ∧ (port (rangeChange n.val s) n.val).change = 0 ∧
    RegsBut [addr (.lpt n) offStatus] s (rangeChange n.val s) := by
  unfold rangeChange
  extract_lets g x s1
  have hs1 : s1 = setF (.lpt n) LPT_STATUS.RANGE g (setPort n.val { x with change := 0 } s) := by rw [← lptPage_val n]
  clear_value s1
  subst hs1
  rw [lptPage_val]
  rw [hrx, hfz]
  by_cases hg : g = getF s (.lpt n) LPT_STATUS.RANGE
  · simp only [decide_eq_true hg, Bool.or_true, if_true, Bool.false_eq_true, if_false]
    exact ⟨hg.symm, congrArg PortSt.change (port_setPort_self _ _ _), (RegsBut.refl _ s).upd rfl⟩
  · simp only [decide_eq_false hg, Bool.not_true, Bool.or_false, Bool.false_eq_true, if_false]
    obtain ⟨hr, hp⟩ := gainStep_fold (burstIds _ (rxHere _ n.val)) (setF (.lpt n) LPT_STATUS.RANGE g (setPort n.val { x with change := 0 } s))
    refine ⟨?_, ?_, ?_⟩
    · unfold getF getI
      rw [hr _ (by simp)]
      exact (getF_setF_self _ _ _ _ (by decide)).trans (Nat.mod_eq_of_lt (nextRange_lt _ _))
    · rw [port_congr hp, port_congr (ports_setF _ _ _ _), port_setPort_self]
    · exact RegsBut.trans (((RegsBut.refl _ s).upd rfl).setF _ (List.mem_singleton.2 rfl)) (hr.append _)

/-- A step leaves the count of the port one higher. -/
theorem stepOn_count (n : Port) (kind t : Nat) (s : State) :
    getF (stepOn n.val kind t s) (.lpt n) LPT_STEP_CNT.COUNT = min (getF s (.lpt n) LPT_STEP_CNT.COUNT + 1) 0xFFFF := by
  unfold stepOn
  rw [(calStep_within (m := 0x20001028020020) .refl _ _ _ rfl).getF_addr _ _ (show Nat.testBit _ 23 = false from rfl), lptPage_val, getF_raise _ _ _ (by decide) (by decide),
    getF_count _ _ _ (by decide)]
  rfl

/-- Settles O22: requests merge, a change instant takes the range requested, and steps are counted while the port listens or drives. -/
theorem portGain : Obligations.PortGain := by
  unfold Obligations.PortGain
  refine ⟨fun n s h => ?_, fun n low s h => ?_, fun n i s hi hrx hfz => ?_, fun n i s hi => ?_, fun n i s hi => ?_⟩
  · refine Yields.intro rfl ?_
    have hm : mergedChange (-2) (port s n.val).change = min (-2) (port s n.val).change := if_pos (.inl (by decide))
    rw [agcAuto_rx h]
    by_cases hk : countBursts s (rxHere s n.val) = 0
    · rw [if_neg (by decide), if_pos hk]
      exact ⟨(port_requestChange h _).trans hm, fun hne => absurd hk hne⟩
    · rw [if_neg (by decide), if_neg hk]
      refine ⟨?_, fun _ => intOf_raise _ _ _ (by decide)⟩
      rw [port_congr (ports_raise _ _ _), port_congr (ports_eraseSymbols _ _ _)]
      exact (port_requestChange h _).trans hm
  · refine Yields.intro rfl ⟨(port_requestChange h _).trans ?_, (RegsBut.refl _ s).upd (regs_requestChange _ _ _)⟩
    cases low with
    | true =>
      show mergedChange 1 (port s n.val).change = if _ < 0 then _ else max 1 _
      unfold mergedChange
      split_ifs <;> omega
    | false => exact if_pos (.inl (by decide))
  · obtain ⟨hg, hc, hr⟩ := rangeChange_effect hrx hfz
    have hnext : nextRange s n.val = (if getF s (.lpt n) LPT_AGC.MODE = 1 then getF s (.lpt n) LPT_AGC.FIXED_RANGE
        else (max 0 (min 7 ((getF s (.lpt n) LPT_STATUS.RANGE : Int) + (port s n.val).change))).toNat) := by
      unfold nextRange
      rw [lptPage_val]
    have hall : RegsBut [addr (.lpt n) offStatus, addr (.lpt n) LPT_CLIP_CNT.COUNT.off] s (rangeChange n.val s) := hr.append [_]
    rw [← hnext]
    rcases hi with rfl | rfl
    · exact Yields.intro rfl ⟨hg, hc, hall⟩
    · refine Yields.intro rfl ?_
      split
      · exact ⟨hg, hc, hall⟩
      · exact ⟨(getF_range_eraseSymbols n _ _).trans hg, by rw [port_congr (ports_eraseSymbols _ _ _)]; exact hc, hall.eraseSymbols _ (by simp)⟩
  · rcases hi with ⟨up, k, rfl, hon⟩ | ⟨k, rfl, hon⟩
    · exact Yields.intro (congrArg Host.Outcome.next (if_pos hon)) (stepOn_count n _ _ s)
    · exact Yields.intro (congrArg Host.Outcome.next (if_pos hon)) (stepOn_count n _ _ s)
  · rcases hi with ⟨up, k, rfl, hoff⟩ | ⟨k, rfl, hoff⟩
    · exact congrArg Host.Outcome.next (if_neg (by rw [hoff]; decide))
    · exact congrArg Host.Outcome.next (if_neg (by rw [hoff]; decide))

/-! Commands (R107, R108, R112). -/

/-- The state in which a command of a line port runs holds the ports and fields that stood before. -/
theorem lpt_issue_ports {s u : State} {n : Port} (h : Within (pageBit (.lpt n) ||| 0x4000800) s u) : u.ports = s.ports :=
  h.same .ports (by rw [pageBit_lpt]; rfl)

/-- The unmeasured frequencies of a list at 0xFFFF, the others as before. -/
theorem unmeasured_fold (n : Port) : ∀ (l : List Nat) (s : State), (∀ i ∈ l, i < 4) → ∀ i : Fin 4,
    let t := l.foldl (fun t i => if (port t n.val).measured.testBit i then t else setI (lptPage n.val) LPT_LINE_Z.MAG i 0xFFFF t) s
    t.ports = s.ports ∧ t.cmds = s.cmds ∧
      getI t (.lpt n) LPT_LINE_Z.MAG i.val =
        if i.val ∈ l ∧ (port s n.val).measured.testBit i.val = false then 0xFFFF else getI s (.lpt n) LPT_LINE_Z.MAG i.val
  | [], s, _, i => by simp
  | k :: l, s, hl, i => by
    have hk : k < 4 := hl k (.head _)
    intro t
    obtain ⟨hp, hc, hi⟩ := unmeasured_fold n l (if (port s n.val).measured.testBit k then s else setI (lptPage n.val) LPT_LINE_Z.MAG k 0xFFFF s)
      (fun j hj => hl j (.tail _ hj)) i
    change t.ports = _ at hp
    change t.cmds = _ at hc
    change getI t _ _ _ = _ at hi
    rw [hp, hc, hi]
    by_cases hb : (port s n.val).measured.testBit k = true
    · rw [if_pos hb]
      refine ⟨rfl, rfl, ?_⟩
      by_cases hik : i.val = k
      · rw [if_neg (by simp [hik, hb]), if_neg (by simp [hik, hb])]
      · simp only [List.mem_cons, hik, false_or]
    · rw [if_neg hb, port_congr (ports_setI _ _ _ _ _), lptPage_val]
      refine ⟨ports_setI _ _ _ _ _, cmds_setI _ _ _ _ _, ?_⟩
      by_cases hik : i.val = k
      · rw [hik, getI_setI_self _ _ _ _ _ (by decide), if_pos (c := k ∈ k :: l ∧ _) ⟨List.mem_cons_self, by simpa using hb⟩]
        exact ite_self _
      · have hsplit : ∀ a b : Fin 4, a ≠ b → fieldsSplit LPT_LINE_Z.MAG LPT_LINE_Z.MAG a.val b.val = true := by decide
        rw [getI_setI_split _ _ _ (by decide) (hsplit ⟨k, hk⟩ i (fun h => hik (congrArg Fin.val h).symm))]
        simp only [List.mem_cons, hik, false_or]

/-- Settles O23: a port that may take the command holds it outstanding; the time limit fills in what was not measured. -/
theorem portCommands : Obligations.PortCommands := by
  unfold Obligations.PortCommands
  refine ⟨fun n src s ht hd hnb => ?_, fun n src s ht hd => ?_, fun n s o ho hop => ?_⟩
  · obtain ⟨u, hu, hi, hreg, hw, hk⟩ := issue_takes ht 1 (runCalPort n.val)
    have hports := lpt_issue_ports hw
    have hrun : runCalPort n.val (latch (.lpt n) 1 src s) u = u := by
      unfold runCalPort
      rw [port_congr hports, lptPage_val, hk.isSet (.lpt n) (by simp) LPT_STATUS.NB_MODE rfl (by decide) (by decide), hd, hnb]
      rfl
    exact Yields.intro (congrArg Host.Outcome.next (hu.trans hrun)) ⟨hi, hports, BlockRegsBut.of_past hreg []⟩
  · obtain ⟨u, hu, hi, hreg, hw, hk⟩ := issue_takes ht 2 (runMeasureZ n.val)
    have hports := lpt_issue_ports hw
    have hrun : runMeasureZ n.val (latch (.lpt n) 2 src s) u = setPort n.val { port u n.val with measured := 0 } u := by
      unfold runMeasureZ
      rw [if_pos (by rw [port_congr hports, hd])]
    refine Yields.intro (congrArg Host.Outcome.next (hu.trans hrun)) ⟨CmdKept.issued (CmdKept.upd (s := u) (t := setPort n.val _ u) rfl rfl) hi, ?_, (BlockRegsBut.of_past hreg []).upd rfl⟩
    rw [port_setPort_self]
  · have hex : measureZTimeout n.val s = done (.lpt n) CODE.TIMEOUT ((List.range 4).foldl (fun t i =>
        if (port t n.val).measured.testBit i then t else setI (lptPage n.val) LPT_LINE_Z.MAG i 0xFFFF t) s) := by
      unfold measureZTimeout
      rw [lptPage_val, ho]
      exact if_neg (by rw [hop]; decide)
    refine Yields.intro (congrArg Host.Outcome.next hex) ⟨?_, fun i => ?_⟩
    · obtain ⟨_, hc, _⟩ := unmeasured_fold n (List.range 4) s (by decide) 0
      exact complete_completed ((outstanding_eq hc _).trans ho) (.inl (by simp)) (by decide) 0
    · obtain ⟨_, _, hi⟩ := unmeasured_fold n (List.range 4) s (by decide) i
      have hoff : ∀ i : Fin 4, (decide (0x100 ≤ LPT_LINE_Z.MAG.offAt i.val) && decide (LPT_LINE_Z.MAG.offAt i.val < 0x1000) ||
          decide (LPT_LINE_Z.MAG.offAt i.val = offStatus) && decide (LPT_LINE_Z.MAG.hi < 30) && decide (LPT_LINE_Z.MAG.lo ≤ LPT_LINE_Z.MAG.hi)) = true := by decide
      unfold done
      rw [getI_complete _ _ _ _ _ _ _ (by simp) (hoff i), hi]
      cases (port s n.val).measured.testBit i.val <;> simp

end Sys2Proof.Machine
end

section
/-!
PROOFS. The block resets (R42, R494 and the block sections): the counters of the block, its outstanding command, and the work it stops.
-/
namespace Sys2Proof.Machine

/-! The shape of a block reset. -/

/-- A reset of a block whose first steps keep what is outstanding on its page and whose last keep the command interface and the registers reset. -/
theorem BlockReset.of_blkReset {i : Instr} {p : Page} {os : List Nat} {s s1 t : State} (hex : exec i s = .next t) (hp : p ≠ .pci)
    (hos : ∀ x ∈ os, 0x100 ≤ x ∧ x < 0x1000) (ho : outstanding s1 p = outstanding s p) (hk : CmdKept p (blkReset p os s1) t)
    (hr : ∀ o ∈ os, reg t (addr p o) = reg (blkReset p os s1) (addr p o)) : BlockReset i p os s := by
  obtain ⟨hnone, hdone, hreg, _, _⟩ := blkReset_effect (s := s1) (.inl hp) hos
  rw [ho] at hdone
  exact Yields.intro hex ⟨hk.out.trans hnone, fun h => hk.completed (hdone h), fun o hm => (hr o hm).trans (hreg hp o hm)⟩

/-- A reset that is the block reset of its page. -/
theorem BlockReset.of_eq {i : Instr} {p : Page} {os : List Nat} {s s1 : State} (hex : exec i s = .next (blkReset p os s1)) (hp : p ≠ .pci)
    (hos : ∀ x ∈ os, 0x100 ≤ x ∧ x < 0x1000) (ho : outstanding s1 p = outstanding s p) : BlockReset i p os s :=
  .of_blkReset hex hp hos ho (.refl _ _) (fun _ _ => rfl)

/-- A field of STATUS but BUSY stands through the block reset of a page. -/
theorem getF_blkReset {p q : Page} (hp : p ≠ .pci) (hq : q ≠ .pci) {os : List Nat} (hos : ∀ x ∈ os, 0x100 ≤ x ∧ x < 0x1000) (s : State) (f : Field)
    (hf : f.off = offStatus) (h1 : f.lo ≤ f.hi) (h2 : f.hi < 30) : getF (blkReset p os s) q f = getF s q f := by
  obtain ⟨_, _, _, hst, _⟩ := blkReset_effect (s := s) (.inl hp) hos
  exact hst.getF q hq f hf h1 h2

/-- A register past the header that the reset does not name stands through it. -/
theorem reg_blkReset {p q : Page} (hp : p ≠ .pci) {os : List Nat} (hos : ∀ x ∈ os, 0x100 ≤ x ∧ x < 0x1000) (s : State) {o : Nat} (hq : q ≠ .pci)
    (ho : 0x100 ≤ o ∧ o < 0x1000) (hn : q = p → o ∉ os) : reg (blkReset p os s) (addr q o) = reg s (addr q o) := by
  obtain ⟨_, _, _, _, hreg⟩ := blkReset_effect (s := s) (.inl hp) hos
  exact hreg q o ho.2 ho.1 hq hn

/-- The parts of the state that no block reset of a page changes by itself. -/
theorem blkReset_all (p : Page) (os : List Nat) (s : State) : Within (allRegs ||| 0x20000034000800) s (blkReset p os s) :=
  blkReset_within .refl p os rfl (Mask.any rfl p)

/-! Resets that touch only their page (R210, R241, R265, R299, R310, R413). -/

/-- The block reset of a page changes no register of a block beyond those it names, PCI's aside. -/
theorem blkReset_frame {p : Page} (hp : p ≠ .pci) {os : List Nat} (hos : ∀ x ∈ os, 0x100 ≤ x ∧ x < 0x1000) (s : State) :
    BlockRegsBut (os.map (addr p)) s (blkReset p os s) := fun _ _ hlt hge hq hn =>
  reg_blkReset hp hos s hq ⟨hge, hlt⟩ (fun e hm => hn (e ▸ List.mem_map_of_mem hm))

/-- A reset that is the block reset of its page and nothing else. -/
theorem plainReset {i : Instr} {p : Page} {os : List Nat} {s : State} (hex : exec i s = .next (blkReset p os s)) (hp : p ≠ .pci)
    (hos : ∀ x ∈ os, 0x100 ≤ x ∧ x < 0x1000) : BlockReset i p os s ∧ Yields i s (fun t => BlockRegsBut (os.map (addr p)) s t) :=
  ⟨.of_eq hex hp hos rfl, .intro hex (blkReset_frame hp hos s)⟩

theorem loadReset_outstanding (s : State) (p : Page) : outstanding (loadReset s) p = outstanding s p :=
  outstanding_eq ((loadReset_within (m := 4) .refl rfl).same .cmds rfl) p

/-- A LOAD_SLOT that the reset stops leaves its slot INVALID. -/
theorem loadReset_slot {s : State} {o : Outstanding} (ho : outstanding s .mgt = some o) (hop : o.opcode = 1) :
    getI (loadReset s) .boot BOOT_IMG.STATE o.a0.toNat = 9 := by
  unfold loadReset
  rw [ho]
  dsimp only
  rw [if_pos hop]
  exact getI_setI_self _ _ _ _ _ (by decide)

/-- Settles O24: each reset is the block reset of its page; that of MGT first gives up the slot being loaded. -/
theorem plainBlockResets : Obligations.PlainBlockResets := by
  unfold Obligations.PlainBlockResets
  refine ⟨fun i p os hi s => ?_, fun s => ⟨.of_eq rfl (by simp) (by decide) (loadReset_outstanding s .mgt), ?_⟩⟩
  · simp only [List.mem_cons, List.not_mem_nil, or_false, Prod.mk.injEq] at hi
    rcases hi with (⟨rfl, rfl, rfl⟩ | ⟨rfl, rfl, rfl⟩ | ⟨rfl, rfl, rfl⟩ | ⟨rfl, rfl, rfl⟩ | ⟨rfl, rfl, rfl⟩) | ⟨b, rfl, rfl, rfl⟩ <;>
      exact plainReset rfl (by simp) (by decide)
  · have hw : Within (allRegs ||| 0x20000034000800) s (blkReset .mgt [0x108] (loadReset s)) :=
      (loadReset_within .refl rfl).trans (blkReset_all _ _ _)
    refine Yields.intro rfl ⟨hw.same .log rfl, hw.same .mgt rfl, fun o ho hop h4 => ?_⟩
    have hoff : BOOT_IMG.STATE.offAt o.a0.toNat = 0x110 + o.a0.toNat * 4 := rfl
    rw [getI_congr (reg_blkReset (by simp) (by decide) _ (by simp) (by omega) (by simp))]
    exact loadReset_slot ho hop

/-! A line port (R111). -/

/-- The drivers and the port's registers at the reset of a port, before the block reset. -/
def lptStopped (n : Port) (s : State) : State :=
  completeAll (fun b => liveOn n.val b || setOn n.val b) BST.KILLED (if driverOn s n.val then driverOff n.val s else s)

/-- The port itself at its reset, before the block reset. -/
def lptCleared (n : Port) (s : State) : State :=
  setF (.lpt n) LPT_STATUS.RANGE 3 (setF (.lpt n) LPT_STATUS.FAULT_CAUSE 0 (setFault (.lpt n) 0
    (setPort n.val { port (lptStopped n s) n.val with blanked := true, change := 0, measured := 0 } (lptStopped n s))))

def lptCounters : List Nat := [0x110, 0x114, 0x118, 0x11C, 0x120, 0x124, 0x128, 0x12C, 0x130, 0x134]

theorem exec_lptBlkReset (n : Port) (s : State) :
    exec (.lptBlkReset n) s = .next (refreshFreeze n.val (blkReset (.lpt n) lptCounters (lptCleared n s))) := rfl

theorem lptStopped_within (n : Port) (s : State) : Within 0x2003a021800000 s (lptStopped n s) := by
  unfold lptStopped
  refine completeAll_within ?_ _ _ rfl
  split
  · exact driverOff_within .refl _ rfl
  · exact .refl

theorem lptCleared_cmds (n : Port) (s : State) : (lptCleared n s).cmds = s.cmds := by
  unfold lptCleared
  rw [cmds_setF, cmds_setF, cmds_setFault]
  exact (lptStopped_within n s).same .cmds rfl

theorem lptCleared_port (n : Port) (s : State) :
    port (lptCleared n s) n.val = { port (lptStopped n s) n.val with blanked := true, change := 0, measured := 0 } := by
  unfold lptCleared
  rw [port_congr (ports_setF _ _ _ _), port_congr (ports_setF _ _ _ _), port_congr (ports_setFault _ _ _), port_setPort_self]

theorem lptStopped_off (n : Port) (s : State) : driverOn (lptStopped n s) n.val = false := by
  unfold lptStopped
  rw [driverOn_completeAll]
  split
  · rw [driverOn_driverOff _ _ _ n.isLt n.isLt]
    simp
  next h => exact Bool.eq_false_iff.2 h

/-- Gain control's freeze follows the drivers, and touches no other field of STATUS. -/
theorem getF_refreshFreeze (n : Port) (s : State) (f : Field) (h : fieldsSplit LPT_STATUS.AGC_FROZEN f 0 0 = true) :
    getF (refreshFreeze n.val s) (.lpt n) f = getF s (.lpt n) f := by
  unfold refreshFreeze
  rw [lptPage_val]
  exact getI_setI_split _ _ _ (by decide) h

/-- A field of STATUS of the port between its clearing and the end of its reset. -/
theorem getF_lptReset (n : Port) (s : State) (f : Field) (hf : f.off = offStatus) (h1 : f.lo ≤ f.hi) (h2 : f.hi < 30)
    (h : fieldsSplit LPT_STATUS.AGC_FROZEN f 0 0 = true) :
    getF (refreshFreeze n.val (blkReset (.lpt n) lptCounters (lptCleared n s))) (.lpt n) f = getF (lptCleared n s) (.lpt n) f := by
  rw [getF_refreshFreeze n _ f h, getF_blkReset (by simp) (by simp) (by decide) _ f hf h1 h2]

theorem lptCleared_off (n : Port) (s : State) : getF (lptCleared n s) (.lpt n) LPT_STATUS.DRV_EN = 0 := by
  have hoff := lptStopped_off n s
  unfold driverOn isSet at hoff
  rw [lptPage_val, decide_eq_false_iff_not, not_not] at hoff
  unfold lptCleared
  rw [getF_setF_other _ _ (by decide) (by decide) (.inr (by decide)), getF_setF_other _ _ (by decide) (by decide) (.inr (by decide)), ← hoff]
  unfold setFault getF getI
  rw [Field.offAt_zero]
  exact (congrArg (fun w => getBits w _ _) (reg_setReg_self _ _ _)).trans (getBits_setBits_other _ _ (by decide) (by decide) (by decide))

/-! The waves (R133, R165). -/

/-- No burst of a wave is open after its abort. -/
theorem abortWave_closed (w : Wave) (s : State) (j : Nat) (h : (burst (abortWave w s) j).wave = w) : (burst (abortWave w s) j).st.isOpen = false := by
  have hall : ((burst (abortWave w s) j).st.isOpen && decide ((burst (abortWave w s) j).wave = w)) = false :=
    completeAll_none (p := fun b => b.st.isOpen && decide (b.wave = w)) (fun b hb => (Bool.and_eq_true_iff.1 hb).1) _ _ j
  rwa [h, decide_eq_true rfl, Bool.and_true] at hall

theorem abortWave_outstanding (w : Wave) (s : State) (p : Page) : outstanding (abortWave w s) p = outstanding s p :=
  outstanding_eq ((abortWave_within (m := 0x2003a021800000) .refl w rfl).same .cmds rfl) p

/-- Taking up the narrowband configuration shows PENDING and nothing else. -/
theorem nbPending_kept (u : State) (x : NbwSt) : CmdKept .nbw u (nbPending { u with nbw := x }) ∧
    (∀ o, o % 0x1000 ≠ offStatus → reg (nbPending { u with nbw := x }) (addr .nbw o) = reg u (addr .nbw o)) ∧ (nbPending { u with nbw := x }).eng = u.eng := by
  have hu : CmdKept .nbw u { u with nbw := x } := .upd rfl rfl
  exact ⟨hu.trans (.setB _ _ _ (.inr (by decide))), fun o h => reg_setI_split (s := { u with nbw := x }) _ (.inr h), eng_setF _ _ _ _⟩

/-- Taking up the broadband configuration shows PENDING and nothing else. -/
theorem bbPending_kept (u : State) (x : BbwSt) : CmdKept .bbw u (bbPending { u with bbw := x }) ∧
    (∀ o, o % 0x1000 ≠ offStatus → reg (bbPending { u with bbw := x }) (addr .bbw o) = reg u (addr .bbw o)) ∧ (bbPending { u with bbw := x }).eng = u.eng := by
  have hu : CmdKept .bbw u { u with bbw := x } := .upd rfl rfl
  exact ⟨hu.trans (.setB _ _ _ (.inr (by decide))), fun o h => reg_setI_split (s := { u with bbw := x }) _ (.inr h), eng_setF _ _ _ _⟩

def nbwCounters : List Nat := [0x104, 0x108, 0x10C, 0x110, 0x114]

/-- The narrowband waveform at its reset, before its configuration is taken up. -/
def nbwCleared (s : State) : State := blkReset .nbw nbwCounters (abortWave .nb s)

theorem exec_nbwBlkReset (s : State) :
    exec .nbwBlkReset s = .next (nbPending { nbwCleared s with nbw := { (nbwCleared s).nbw with cfg := nbCfgReg (nbwCleared s) } }) := rfl

def bbwCounters : List Nat := [0x104, 0x10C, 0x110, 0x114, 0x118, 0x11C, 0x120]

/-- The broadband waveform before its block reset: its bursts aborted, the period of the tone maps at its reset value. -/
def bbwStopped (s : State) : State := setF .bbw BBW_TMAP.PERIOD 32 (abortWave .bb s)

/-- The broadband waveform at its reset, before its configuration is taken up. -/
def bbwCleared (s : State) : State := blkReset .bbw bbwCounters (bbwStopped s)

theorem exec_bbwBlkReset (s : State) :
    exec .bbwBlkReset s = .next (bbPending { bbwCleared s with bbw := { (bbwCleared s).bbw with cfg := bbCfgReg (bbwCleared s) } }) := rfl

theorem nbwCleared_eng (s : State) : (nbwCleared s).eng = (abortWave .nb s).eng := (blkReset_all _ _ _).same .eng rfl

theorem bbwCleared_eng (s : State) : (bbwCleared s).eng = (abortWave .bb s).eng :=
  ((blkReset_all .bbw bbwCounters (bbwStopped s)).same .eng rfl).trans (eng_setF _ _ _ _)

/-! The engines (R283). -/

/-- A cluster at its reset, before the block reset. -/
def engCleared (c : Nat) (s : State) : State :=
  let s1 := gateCluster c (endBursts c BST.RESET s)
  let x := cluster s1 c
  setCluster c { x with phase := match x.phase with
    | .outOfService => ClusterPhase.outOfService
    | .resume r => .resume r
    | _ => .resume false } s1

theorem engPage_val (c : Cluster) : engPage c.val = .eng c := by
  unfold engPage
  congr 1
  exact Fin.ext (Nat.mod_eq_of_lt c.isLt)

theorem exec_engBlkReset (c : Cluster) (s : State) : exec (.engBlkReset c) s = .next (blkReset (.eng c) (engCounters c.val) (engCleared c.val s)) := by
  show Host.Outcome.next (engReset c.val s) = _
  unfold engReset
  rw [engPage_val]
  rfl

theorem engCleared_eng (c : Nat) (s : State) : (engCleared c s).eng.bursts = (endBursts c BST.RESET s).eng.bursts := by
  show (gateCluster c (endBursts c BST.RESET s)).eng.bursts = _
  exact congrArg EngSt.bursts ((gateCluster_within (m := 0x1000000) .refl c rfl).same .eng rfl)

theorem heldIn_endBursts (c : Nat) (s : State) (j : Nat) : heldIn c (burst (endBursts c BST.RESET s) j) = false :=
  completeAll_none (fun _ hb => (Bool.and_eq_true_iff.1 hb).1) _ _ j

theorem engCounters_block (c : Nat) : ∀ x ∈ engCounters c, 0x100 ≤ x ∧ x < 0x1000 := by
  unfold engCounters
  split <;> decide

/-! The noise calendars (R180). -/

/-- The calendars at their reset: out of the settling window, the counts and the fixed entries kept. -/
def calsCleared (l : List Nat) (s : State) : State :=
  l.foldl (fun t p => setCal p { CalSt.empty with aper := (cal t p).aper, lastAper := (cal t p).lastAper, fixed := (cal t p).fixed } t) s

theorem cal_setCal (p : Nat) (c : CalSt) (s : State) (j : Nat) : cal (setCal p c s) j = if j = p then c else cal s j := Map.get_set _ _ _ _

theorem calsCleared_settle : ∀ (l : List Nat) (s : State) (j : Nat), (j ∈ l ∨ (cal s j).inSettle = false) → (cal (calsCleared l s) j).inSettle = false
  | [], _, _, h => h.elim (fun h => absurd h (by simp)) id
  | p :: l, s, j, h => by
    refine calsCleared_settle l _ j ?_
    rw [cal_setCal]
    by_cases hj : j = p
    · rw [if_pos hj]
      exact .inr rfl
    · rw [if_neg hj]
      exact h.imp_left (fun h => (List.mem_cons.1 h).resolve_left hj)

theorem calsCleared_frame (l : List Nat) (s : State) : (calsCleared l s).cmds = s.cmds :=
  foldl_keeps (g := State.cmds) (fun _ _ => by rfl) l s

theorem ncal_anySettle (s : State) : (anySettle s).ncal = s.ncal := ncal_setF _ _ _ _

/-! The commons, the reference and the store (R317, R363, R398). -/

theorem badgerRestart_kept (n : Nat) (s : State) :
    CmdKept .mem s (badgerRestart n s) ∧ RegsBut [addr .mem MEM_BADGER_POS.BANK.off] s (badgerRestart n s) ∧ (badgerRestart n s).mem.conflicts = s.mem.conflicts := by
  have key : ∀ (b st : Nat) (u : State), CmdKept .mem u (badgerAt b st u) ∧ RegsBut [addr .mem MEM_BADGER_POS.BANK.off] u (badgerAt b st u) ∧
      (badgerAt b st u).mem.conflicts = u.mem.conflicts := fun b st u =>
    ⟨((CmdKept.setF _ _ _ (.inr (by decide))).trans (.setF _ _ _ (.inr (by decide)))).trans (.upd rfl rfl),
      (((RegsBut.refl _ u).setF (f := MEM_BADGER_POS.BANK) b (List.mem_singleton.2 rfl)).setF (f := MEM_BADGER_POS.STRIPE) st (List.mem_singleton.2 rfl)).upd rfl, rfl⟩
  have h0 : CmdKept .mem s (setF .mem MEM_BADGER_POS.PASSES ((getF s .mem MEM_BADGER_POS.PASSES + n) % 65536) s) ∧
      RegsBut [addr .mem MEM_BADGER_POS.BANK.off] s (setF .mem MEM_BADGER_POS.PASSES ((getF s .mem MEM_BADGER_POS.PASSES + n) % 65536) s) :=
    ⟨.setF _ _ _ (.inr (by decide)), (RegsBut.refl _ _).setF _ (List.mem_singleton.2 rfl)⟩
  have step : ∀ b, CmdKept .mem s (badgerAt b 0 (setF .mem MEM_BADGER_POS.PASSES ((getF s .mem MEM_BADGER_POS.PASSES + n) % 65536) s)) ∧
      RegsBut [addr .mem MEM_BADGER_POS.BANK.off] s (badgerAt b 0 (setF .mem MEM_BADGER_POS.PASSES ((getF s .mem MEM_BADGER_POS.PASSES + n) % 65536) s)) ∧
      (badgerAt b 0 (setF .mem MEM_BADGER_POS.PASSES ((getF s .mem MEM_BADGER_POS.PASSES + n) % 65536) s)).mem.conflicts = s.mem.conflicts := fun b =>
    ⟨h0.1.trans (key b 0 _).1, h0.2.trans (key b 0 _).2.1, (key b 0 _).2.2⟩
  unfold badgerRestart
  extract_lets s1
  split
  · exact step _
  · exact step _

/-- The commons at the reset of MEM, before the block reset: the bank under test spoilt, the conflicts forgotten. -/
def memCleared (s : State) : State :=
  clearConflicts (match outstanding s .mem with
    | some o => spoilTest o s
    | none => s)

theorem memCleared_outstanding (s : State) : outstanding (memCleared s) .mem = outstanding s .mem := by
  have hw : Within 0x10020000000000 s (memCleared s) := by
    unfold memCleared
    refine clearConflicts_within ?_ rfl
    split
    · exact spoilTest_within .refl _ rfl
    · exact .refl
  exact outstanding_eq (hw.same .cmds rfl) _

/-- What a block command of the store leaves when it is stopped. -/
theorem stopBlocks_effect (n : Nat) (s : State) : outstanding (stopBlocks n CODE.RESET s) .sto = none ∧
    (outstanding s .sto ≠ none → Completed (stopBlocks n CODE.RESET s) .sto CODE.RESET) := by
  unfold stopBlocks
  split
  next h => exact ⟨h, fun hn => absurd h hn⟩
  next o h =>
    extract_lets s1
    have hw : Within 0x30420022000000 s s1 := by
      unfold s1
      split
      · exact programIn_within .refl _ _ rfl
      · split
        · exact openOutput_within .refl _ _ rfl
        · exact .refl
    have ho : outstanding s1 .sto = some o := (outstanding_eq (hw.same .cmds rfl) _).trans h
    exact ⟨outstanding_complete _ _ _ _, fun _ => complete_completed ho (.inl (by simp)) (by decide) _⟩

/-- Settles O25: each reset stops the work of its block before or after the block reset of its page. -/
theorem workingBlockResets : Obligations.WorkingBlockResets := by
  unfold Obligations.WorkingBlockResets
  refine ⟨fun n s => ⟨?_, ?_⟩, fun s => ⟨?_, ?_⟩, fun s => ⟨?_, ?_⟩, fun c s => ⟨?_, ?_⟩, fun s => ⟨?_, ?_⟩, fun s => ⟨?_, ?_⟩, fun s => ⟨?_, ?_⟩, fun n s => ?_⟩
  · refine .of_blkReset (os := lptCounters) (exec_lptBlkReset n s) (by simp) (by decide)
      (outstanding_eq (lptCleared_cmds n s) _) ?_ (fun o ho => ?_)
    · unfold refreshFreeze
      rw [lptPage_val]
      exact .setB _ _ _ (.inr (by decide))
    · unfold refreshFreeze
      rw [lptPage_val]
      refine reg_setI_split _ _ (.inr ?_)
      revert o
      decide
  · have hoff : getF (refreshFreeze n.val (blkReset (.lpt n) lptCounters (lptCleared n s))) (.lpt n) LPT_STATUS.DRV_EN = 0 :=
      (getF_lptReset n s _ rfl (by decide) (by decide) (by decide)).trans (lptCleared_off n s)
    have hports : (refreshFreeze n.val (blkReset (.lpt n) lptCounters (lptCleared n s))).ports = (lptCleared n s).ports :=
      (ports_setF _ _ _ _).trans ((blkReset_all _ _ _).same .ports rfl)
    have hport : port (refreshFreeze n.val (blkReset (.lpt n) lptCounters (lptCleared n s))) n.val =
        { port (lptStopped n s) n.val with blanked := true, change := 0, measured := 0 } := (port_congr hports _).trans (lptCleared_port n s)
    refine Yields.intro (exec_lptBlkReset n s) ⟨?_, ?_, ?_, congrArg PortSt.change hport, congrArg PortSt.blanked hport⟩
    · unfold driverOn isSet
      rw [lptPage_val, hoff]
      rfl
    · rw [getF_lptReset n s _ rfl (by decide) (by decide) (by decide)]
      exact getF_setF_self _ _ _ _ (by decide)
    · rw [getF_lptReset n s _ rfl (by decide) (by decide) (by decide)]
      exact (getF_setF_other _ _ (by decide) (by decide) (.inr (by decide))).trans (getF_setF_self _ _ _ _ (by decide))
  · obtain ⟨hk, hr, _⟩ := nbPending_kept (nbwCleared s) { (nbwCleared s).nbw with cfg := nbCfgReg (nbwCleared s) }
    refine .of_blkReset (os := nbwCounters) (exec_nbwBlkReset s) (by simp) (by decide) (abortWave_outstanding .nb s .nbw) hk (fun o ho => hr o ?_)
    revert o
    decide
  · obtain ⟨_, _, he⟩ := nbPending_kept (nbwCleared s) { (nbwCleared s).nbw with cfg := nbCfgReg (nbwCleared s) }
    refine Yields.intro (exec_nbwBlkReset s) (fun j hj => ?_)
    rw [burst_congr (congrArg EngSt.bursts (he.trans (nbwCleared_eng s)))] at hj ⊢
    exact abortWave_closed .nb s j hj
  · obtain ⟨hk, hr, _⟩ := bbPending_kept (bbwCleared s) { (bbwCleared s).bbw with cfg := bbCfgReg (bbwCleared s) }
    refine .of_blkReset (os := bbwCounters) (exec_bbwBlkReset s) (by simp) (by decide) ?_ hk (fun o ho => hr o ?_)
    · exact (outstanding_eq (cmds_setF _ _ _ _) _).trans (abortWave_outstanding .bb s .bbw)
    · revert o
      decide
  · obtain ⟨_, hr, he⟩ := bbPending_kept (bbwCleared s) { (bbwCleared s).bbw with cfg := bbCfgReg (bbwCleared s) }
    refine Yields.intro (exec_bbwBlkReset s) ⟨?_, fun j hj => ?_⟩
    · have hperiod : getF (bbwCleared s) .bbw BBW_TMAP.PERIOD = 32 :=
        (getI_congr (reg_blkReset (by simp) (by decide) _ (by simp) (by decide) (fun _ => by decide))).trans (getF_setF_self _ _ _ _ (by decide))
      exact (getI_congr (hr _ (by decide))).trans hperiod
    · rw [burst_congr (congrArg EngSt.bursts (he.trans (bbwCleared_eng s)))] at hj ⊢
      exact abortWave_closed .bb s j hj
  · refine .of_eq (exec_engBlkReset c s) (by simp) (engCounters_block _) ?_
    have hw : Within 0x2003a021800000 s (endBursts c.val BST.RESET s) := endBursts_within .refl _ _ rfl
    have hg : Within 0x1000000 (endBursts c.val BST.RESET s) (gateCluster c.val (endBursts c.val BST.RESET s)) := gateCluster_within .refl _ rfl
    exact outstanding_eq ((hg.same .cmds rfl).trans (hw.same .cmds rfl)) _
  · refine Yields.intro (exec_engBlkReset c s) (fun j => ?_)
    have hb : burst (blkReset (.eng c) (engCounters c.val) (engCleared c.val s)) j = burst (endBursts c.val BST.RESET s) j :=
      burst_congr ((congrArg EngSt.bursts ((blkReset_all _ _ _).same .eng rfl)).trans (engCleared_eng _ _)) j
    rw [hb]
    exact heldIn_endBursts _ _ _
  · refine .of_eq (s1 := anySettle (calsCleared allPorts s)) rfl (by simp) (by decide) ?_
    exact outstanding_eq ((cmds_setF _ _ _ _).trans (calsCleared_frame _ _)) _
  · refine Yields.intro (t := blkReset .ncal [0x124, 0x128, 0x12C, 0x130] (anySettle (calsCleared allPorts s))) rfl (fun n => ?_)
    have hn : (blkReset .ncal [0x124, 0x128, 0x12C, 0x130] (anySettle (calsCleared allPorts s))).ncal = (calsCleared allPorts s).ncal :=
      ((blkReset_all _ _ _).same .ncal rfl).trans (ncal_anySettle _)
    unfold cal
    rw [hn]
    exact calsCleared_settle allPorts s n.val (.inl (List.mem_range.2 n.isLt))
  · obtain ⟨hk, hr, _⟩ := badgerRestart_kept 0 (blkReset .mem [0x110, 0x114, 0x118, 0x11C, 0x120] (memCleared s))
    refine .of_blkReset (s1 := memCleared s) rfl (by simp) (by decide) (memCleared_outstanding s) hk (fun o ho => hr _ ?_)
    revert o
    decide
  · obtain ⟨_, _, hc⟩ := badgerRestart_kept 0 (blkReset .mem [0x110, 0x114, 0x118, 0x11C, 0x120] (memCleared s))
    refine Yields.intro rfl (hc.trans ?_)
    rw [(blkReset_all _ _ _).same .mem rfl]
    rfl
  · exact .of_eq (s1 := stopSlew (setTru { s.tru with setTo := none } s)) rfl (by simp) (by decide) (outstanding_eq (cmds_setF _ _ _ _) _)
  · have hw := blkReset_all .tru [] (stopSlew (setTru { s.tru with setTo := none } s))
    refine Yields.intro rfl ⟨?_, ?_⟩
    · unfold isSet
      rw [getF_blkReset (by simp) (by simp) (by decide) _ _ rfl (by decide) (by decide)]
      exact isSet_setB_self _ _ _ _ (by decide)
    · rw [hw.same .tru rfl]
      rfl
  · obtain ⟨hnone, hdone⟩ := stopBlocks_effect n s
    have hk : CmdKept .sto (stopBlocks n CODE.RESET s) (resetOffsets .sto [0x114, 0x118, 0x11C] (stopBlocks n CODE.RESET s)) := .resetOffsets _ (by decide) _
    refine Yields.intro rfl ⟨hk.out.trans hnone, fun h => hk.completed (hdone h), fun o ho => ?_⟩
    have hlt : o < 0x1000 := by
      revert o
      decide
    rw [reg_resetOffsets _ _ _ _ _ (by decide) hlt, if_pos ⟨rfl, ho⟩]

end Sys2Proof.Machine
end

section
/-!
PROOFS. The resets of the link blocks (R367, R389, R342, R426, R468), with a relation that follows one field through an operation.
-/
namespace Sys2Proof.Machine

/-! One field through the shared operations. -/

/-- Element `j` of a field of a page reads as before. -/
def FieldKept (q : Page) (g : Field) (j : Nat) (s t : State) : Prop := getI t q g j = getI s q g j

section
variable {q : Page} {g : Field} {j : Nat}

theorem FieldKept.refl (s : State) : FieldKept q g j s s := rfl

theorem FieldKept.trans {s t u : State} (h : FieldKept q g j s t) (k : FieldKept q g j t u) : FieldKept q g j s u := Eq.trans k h

theorem FieldKept.upd {s t : State} (h : t.regs = s.regs) : FieldKept q g j s t := getI_congr (by
  unfold reg
  rw [h])

theorem FieldKept.within {m : Nat} {s t : State} (h : Within m s t) (hk : m.testBit (kindCode (pageKind q)) = false) : FieldKept q g j s t :=
  getI_congr (h.reg_addr q _ hk)

theorem FieldKept.setI {s t : State} (h : FieldKept q g j s t) (p : Page) (f : Field) (i v : Nat) (hf : f.ordered = true)
    (hs : kindsDiffer q p = true ∨ fieldsSplit f g i j = true) : FieldKept q g j s (setI p f i v t) := by
  refine Eq.trans ?_ h
  by_cases hq : q = p
  · subst hq
    exact getI_setI_split t _ v hf (hs.resolve_left (fun h => kindsDiffer_ne h rfl))
  · exact getI_setI_page t f g i j v hq

theorem FieldKept.setF {s t : State} (h : FieldKept q g j s t) (p : Page) (f : Field) (v : Nat) (hf : f.ordered = true)
    (hs : kindsDiffer q p = true ∨ fieldsSplit f g 0 j = true) : FieldKept q g j s (setF p f v t) := h.setI p f 0 v hf hs

theorem FieldKept.setB {s t : State} (h : FieldKept q g j s t) (p : Page) (f : Field) (b : Bool) (hf : f.ordered = true)
    (hs : kindsDiffer q p = true ∨ fieldsSplit f g 0 j = true) : FieldKept q g j s (setB p f b t) := h.setI p f 0 _ hf hs

theorem FieldKept.count {s t : State} (h : FieldKept q g j s t) (p : Page) (f : Field) (hf : f.ordered = true)
    (hs : kindsDiffer q p = true ∨ fieldsSplit f g 0 j = true) : FieldKept q g j s (count p f t) := h.setI p f 0 _ hf hs

theorem FieldKept.raise {s t : State} (h : FieldKept q g j s t) (p : Page) (n : Nat) (hs : decide (g.offAt j % 0x1000 ≠ offIntStat) = true) :
    FieldKept q g j s (raise p n t) := Eq.trans (getI_raise t p q g n j hs) h

theorem FieldKept.regs {s t u : State} (h : FieldKept q g j s t) (e : u.regs = t.regs) : FieldKept q g j s u := h.trans (.upd e)

theorem FieldKept.foldl {α : Type} {f : State → α → State} (hf : ∀ u x, FieldKept q g j u (f u x)) (l : List α) {s t : State} (h : FieldKept q g j s t) :
    FieldKept q g j s (l.foldl f t) := h.trans (foldl_keeps (g := fun u => getI u q g j) hf l t)

end

/-! The lanes (R367). -/

/-- No frame that a lane sends or holds touches UP of a lane. -/
theorem laneSend_up (k : Lane) (l : Nat) (f : TunnelFrame) (s : State) : FieldKept (.lan k) LAN_STATUS.UP 0 s (laneSend l f s) := by
  unfold laneSend
  split
  · exact .refl s
  · split
    · exact .upd rfl
    · exact FieldKept.count (.upd rfl) _ _ (by decide) (.inr (by decide))

theorem hostEvent_up (k : Lane) (code index epId reason : Nat) (body : List Byte) (s : State) :
    FieldKept (.lan k) LAN_STATUS.UP 0 s (hostEvent code index epId reason body s) := by
  unfold hostEvent
  dsimp only
  split
  · exact .upd rfl
  · exact FieldKept.trans (.upd rfl) (laneSend_up _ _ _ _)

theorem divert_up (k : Lane) (b : Bool) (f : UlFrame) (s : State) : FieldKept (.lan k) LAN_STATUS.UP 0 s (divert b f s) := by
  unfold divert
  dsimp only
  split
  · exact .upd rfl
  · exact ((FieldKept.refl s).raise _ _ (by decide)).regs rfl

theorem rerouteHeld_up (k : Lane) (l : Nat) (f : TunnelFrame) (s : State) : FieldKept (.lan k) LAN_STATUS.UP 0 s (rerouteHeld l f s) := by
  unfold rerouteHeld
  dsimp only
  split
  · exact divert_up _ _ _ _
  · split
    · exact laneSend_up _ _ _ _
    · split
      · exact (FieldKept.refl s).count _ _ (by decide) (.inr (by decide))
      · exact .refl s

theorem refreshTunnel_up (k : Lane) (s : State) : FieldKept (.lan k) LAN_STATUS.UP 0 s (refreshTunnel s) :=
  FieldKept.foldl (fun u l => (FieldKept.refl u).setB _ _ _ (by decide) (.inr (by decide))) _ (.refl s)

/-- A lane that falls is down. -/
theorem laneFall_down (k : Lane) (lock hiBer busy : Bool) (s : State) : isSet (laneFall k.val lock hiBer busy s) (.lan k) LAN_STATUS.UP = false := by
  have hpage : lanPage k.val = .lan k := by
    unfold lanPage
    congr 1
    exact Fin.ext (Nat.mod_eq_of_lt k.isLt)
  unfold laneFall
  rw [hpage]
  dsimp only
  split
  next h =>
    rw [Bool.not_eq_true'] at h
    unfold laneUp at h
    rwa [hpage] at h
  next =>
    unfold isSet
    refine decide_eq_false (not_not_intro ?_)
    have hdown : ∀ u, getI (setB (.lan k) LAN_STATUS.UP false u) (.lan k) LAN_STATUS.UP 0 = 0 := fun u =>
      getI_setI_self _ _ _ _ _ (by decide)
    refine Eq.trans ?_ (hdown (setB (.lan k) LAN_STATUS.BLOCK_LOCK lock (setB (.lan k) LAN_STATUS.HI_BER hiBer (setB (.lan k) LAN_STATUS.PAUSED false s))))
    refine FieldKept.trans (FieldKept.raise (FieldKept.foldl (fun u f => rerouteHeld_up k _ f u) _ ?_) _ _ (by decide))
      ((hostEvent_up k _ _ _ _ _ _).trans (refreshTunnel_up k _))
    have hset : ∀ x u, FieldKept (.lan k) LAN_STATUS.UP 0 u (setLane k.val x u) := fun _ _ => .upd rfl
    split
    · split
      · exact (hset _ _).trans (divert_up _ _ _ _)
      · exact hset _ _
    · exact hset _ _

/-- A mirror lane that falls is down. -/
theorem mirrorFall_down (m : MLane) (lock hiBer : Bool) (s : State) : isSet (mirrorFall m lock hiBer s) (.lanm m) LANM_STATUS.UP = false := by
  unfold mirrorFall
  dsimp only
  split
  next h => rwa [Bool.not_eq_true'] at h
  next =>
    unfold isSet
    refine decide_eq_false (not_not_intro ?_)
    exact (getI_raise _ _ _ _ _ _ (by decide)).trans (getI_setI_self _ _ _ _ _ (by decide))

/-! The rings (R389). -/

/-- Whether ring r is enabled, through what goes to a completion queue. -/
abbrev EnKept (r : Nat) (s t : State) : Prop := FieldKept .pci PCI_RING.EN r s t

/-- Another register of a ring, whichever the ring. -/
theorem ringSplit {f : Field} (hs : f.stride = 0x20) (ho : (f.off + 0x20 - 0x410) % 0x20 ≠ 0 ∧ 0x400 ≤ f.off) (i j : Nat) : fieldsSplit f PCI_RING.EN i j = true := by
  unfold fieldsSplit
  have e1 : PCI_RING.EN.offAt j = 0x410 + j * 0x20 := rfl
  have e2 : f.offAt i = f.off + i * 0x20 := by rw [Field.offAt, hs]
  rw [e1, e2, Bool.or_eq_true, Bool.or_eq_true, decide_eq_true_eq]
  omega

theorem sendVector_regs (v : Nat) (s : State) : (sendVector v s).regs = s.regs := by
  unfold sendVector
  split <;> rfl

theorem ringComplete_en (k r : Nat) (e : CqEntry) (s : State) : EnKept k s (ringComplete r e s) := by
  unfold ringComplete
  split
  · unfold writeCq
    dsimp only
    have h1 : EnKept k s (setI .pci PCI_RING.CQ_PROD r (getI s .pci PCI_RING.CQ_PROD r + 1)
        (emit (.cq r (getI s .pci PCI_RING.CQ_PROD r % ringSize s r) (decide (getI s .pci PCI_RING.CQ_PROD r / ringSize s r % 2 = 0)) e) s)) :=
      FieldKept.setI (.upd rfl) _ _ _ _ (by decide) (.inr (ringSplit rfl (by decide) _ _))
    split
    · exact h1.regs (sendVector_regs _ _)
    · exact h1.regs rfl
  · exact .upd rfl

/-- A counter of PCI lies outside the rings' registers. -/
theorem counterSplit {f : Field} (h : f.off < 0x400) (k : Nat) (hk : k < 29) : fieldsSplit f PCI_RING.EN 0 k = true := by
  unfold fieldsSplit
  have e1 : PCI_RING.EN.offAt k = 0x410 + k * 0x20 := rfl
  rw [e1, Field.offAt_zero, Bool.or_eq_true, Bool.or_eq_true, decide_eq_true_eq]
  omega

theorem pci_count_en {k : Nat} (hk : k < 29) (f : Field) (hf : f.ordered = true) (h : f.off < 0x400) {s t : State} (e : EnKept k s t) : EnKept k s (count .pci f t) :=
  e.count _ _ hf (.inr (counterSplit h k hk))

theorem deliverDone_en {k : Nat} (hk : k < 29) (d : DlDone) (s : State) : EnKept k s (deliverDone d s) := by
  unfold deliverDone
  split
  · split
    · exact pci_count_en hk _ (by decide) (by decide) (.refl s)
    · exact pci_count_en hk _ (by decide) (by decide) (ringComplete_en _ _ _ _)
  · exact .within (sendDownStatus_within (m := 0x20200000001000) .refl _ _ rfl) rfl
  · exact .refl s

theorem deliverRing_en {k : Nat} (hk : k < 29) (r : Nat) (s : State) : EnKept k s (deliverRing r s) :=
  FieldKept.foldl (fun u d => deliverDone_en hk d u) _ (.upd rfl)

/-- A ring that is killed is not enabled, and the others stand. -/
theorem killRing_en {k : Nat} (hk : k < 29) {r : Nat} (hr : r < 29) (s : State) :
    getI (killRing r s) .pci PCI_RING.EN k = if k = r then 0 else getI s .pci PCI_RING.EN k := by
  unfold killRing
  dsimp only
  have last : ∀ (v n : Nat) (u : State), EnKept k u (countN .pci PCI_CMPL_LOST_CNT.COUNT n (setF .pci PCI_RING_ERR.ERR v u)) := fun v n u =>
    ((FieldKept.refl u).setF _ _ _ (by decide) (.inr (counterSplit (by decide) k hk))).setI _ _ _ _ (by decide) (.inr (counterSplit (by decide) k hk))
  refine Eq.trans (last _ _ _) ?_
  by_cases h : k = r
  · subst h
    rw [if_pos rfl]
    exact getI_setI_self _ _ _ _ _ (by decide)
  · rw [if_neg h]
    have hcons : ∀ (f : Field) (v : Nat) (u : State), f.ordered = true → f.stride = 0x20 → ((f.off + 0x20 - 0x410) % 0x20 ≠ 0 ∧ 0x400 ≤ f.off) →
        EnKept k u (setI .pci f r v u) := fun f v u ho hs hf => (FieldKept.refl u).setI _ _ _ _ ho (.inr (ringSplit hs hf _ _))
    have hother : fieldsSplit PCI_RING.EN PCI_RING.EN r k = true := by
      unfold fieldsSplit
      have e : ∀ j, PCI_RING.EN.offAt j = 0x410 + j * 0x20 := fun _ => rfl
      rw [e, e, Bool.or_eq_true, Bool.or_eq_true, decide_eq_true_eq]
      omega
    exact ((((FieldKept.upd rfl).trans (hcons PCI_RING.CQ_PROD _ _ (by decide) rfl (by decide))).trans
      (hcons PCI_RING.SQ_CONS _ _ (by decide) rfl (by decide))).setI _ _ _ _ (by decide) (.inr hother))

/-- The four steps by which a reset gives up a ring. -/
def giveUpRing (t : State) (r : Nat) : State := killRing r (loseRing r (deliverRing r (flushFrames r t)))

theorem giveUpRing_en {k : Nat} (hk : k < 29) {r : Nat} (hr : r < 29) (s : State) :
    getI (giveUpRing s r) .pci PCI_RING.EN k = if k = r then 0 else getI s .pci PCI_RING.EN k := by
  have before : EnKept k s (loseRing r (deliverRing r (flushFrames r s))) :=
    FieldKept.trans (.within (flushFrames_within (m := 0x284000000000) .refl r rfl) rfl)
      ((deliverRing_en hk r _).trans (.within (loseRing_within (m := 0x280004000000) .refl r rfl) rfl))
  rw [giveUpRing, killRing_en hk hr, before]

theorem giveUpRings_en {k : Nat} (hk : k < 29) : ∀ (l : List Nat) (s : State), (∀ r ∈ l, r < 29) → (k ∈ l ∨ getI s .pci PCI_RING.EN k = 0) →
    getI (l.foldl giveUpRing s) .pci PCI_RING.EN k = 0
  | [], _, _, h => h.resolve_left (by simp)
  | r :: l, s, hl, h => by
    refine giveUpRings_en hk l (giveUpRing s r) (fun x hx => hl x (.tail _ hx)) ?_
    rw [giveUpRing_en hk (hl r (.head _))]
    by_cases hr : k = r
    · exact .inr (if_pos hr)
    · rw [if_neg hr]
      exact h.imp_left (fun h => (List.mem_cons.1 h).resolve_left hr)

/-- A completion on the page of the rings leaves their enables. -/
theorem complete_pci_en {k : Nat} (hk : k < 29) (code d : Nat) (s : State) : EnKept k s (complete .pci code d s) := by
  unfold complete
  split
  · exact .refl s
  · dsimp only
    have hoff : ∀ o : Nat, o < 0x400 → addr .pci (PCI_RING.EN.offAt k) ≠ addr .pci o := by
      intro o ho e
      have e1 : PCI_RING.EN.offAt k = 0x410 + k * 0x20 := rfl
      have := addr_split e
      omega
    have hreg : ∀ (o : Nat) (w : Word) (u : State), o < 0x400 → EnKept k u (setReg (addr .pci o) w u) := fun o w u ho =>
      getI_congr (reg_setReg_other _ _ (hoff o ho))
    have hstat : ∀ (hi lo v : Nat) (u : State), EnKept k u (setStat .pci hi lo v u) := fun hi lo v u => hreg _ _ _ (by decide)
    have hbusy : ∀ (v : Nat) (u : State), EnKept k u (setBusy .pci v u) := fun v u => by
      unfold setBusy
      exact (hreg _ _ _ (by decide)).trans (hreg _ _ _ (by decide))
    have hraise : ∀ u, EnKept k u (raise .pci INT.CMD_DONE u) := fun u => by
      refine (FieldKept.refl u).raise _ _ ?_
      have e1 : PCI_RING.EN.offAt k = 0x410 + k * 0x20 := rfl
      rw [e1]
      have : offIntStat = 0x10 := rfl
      simp only [ne_eq, decide_eq_true_eq]
      omega
    have horigin : ∀ (o : Outstanding) (b : Bool) (u : State), EnKept k u (originComplete .pci o code d b u) := fun o b u => by
      unfold originComplete
      split
      · exact .refl u
      · split
        · exact pci_count_en hk _ (by decide) (by decide) (.refl u)
        · exact ringComplete_en _ _ _ _
    refine FieldKept.trans ?_ ((hraise _).trans (horigin _ _ _))
    have h3 : ∀ o : Outstanding, EnKept k s (setStat .pci 30 30 1 (setStat .pci 15 8 d (setStat .pci 7 0 code (setBusy .pci 0 (setSlot .pci ⟨none, some o.tag⟩ s))))) := fun o =>
      (((FieldKept.upd rfl).trans (hbusy _ _)).trans (hstat _ _ _ _)).trans ((hstat _ _ _ _).trans (hstat _ _ _ _))
    split
    · exact (h3 _).trans (hstat _ _ _ _)
    · exact h3 _

theorem resetOffsets_pci_en {k : Nat} (hk : k < 29) (s : State) : EnKept k s (resetOffsets .pci [0x110, 0x114, 0x118, 0x11C, 0x120] s) := by
  have e1 : PCI_RING.EN.offAt k = 0x410 + k * 0x20 := rfl
  refine getI_congr ?_
  rw [reg_resetOffsets _ _ _ _ _ (by decide) (by omega), if_neg]
  rw [e1]
  simp only [List.mem_cons, List.not_mem_nil, or_false]
  omega

/-! The sensors and the serial ports (R426, R468). -/

/-- Marking a channel stale leaves the command interface. -/
theorem senCfgWritten_cmd (n : Nat) (s : State) : CmdKept .sen s (senCfgWritten n s) := by
  have hsi : ∀ u, CmdKept .sen u (refreshSi n u) := fun u => by
    unfold refreshSi
    split
    · exact .refl _ _
    · dsimp only
      have h1 : ∀ v w : Nat, CmdKept .sen u (setFault .sen w (setF .sen SEN_STATUS.SI_FAULT v u)) := fun v w =>
        CmdKept.trans (.setF _ _ _ (.inr (by decide))) (.setReg _ _ _ (.inr (by decide)))
      split
      · exact (h1 _ _).trans (.raise _ _ _ _)
      · exact h1 _ _
  unfold senCfgWritten setStale
  have h0 : CmdKept .sen s (setChan n { chan s n with restart := true } s) := .upd rfl rfl
  split
  · exact h0
  · refine h0.trans (CmdKept.trans (.setI _ _ _ _ (.inr ?_)) ((CmdKept.raise _ _ _ _).trans (hsi _)))
    have e : SEN_STAT.STALE.offAt n = 0x214 + n * 0x20 := rfl
    have e1 : offCmdStat = 0x50 := rfl
    have e2 : offIntStat = 0x10 := rfl
    omega

/-- A self-calibration that is stopped completes with RESET, or nothing is outstanding by it. -/
theorem stopSelfCal_effect (s : State) : (outstanding (stopSelfCal s) .sen = outstanding s .sen) ∨
    (outstanding (stopSelfCal s) .sen = none ∧ Completed (stopSelfCal s) .sen CODE.RESET) := by
  unfold stopSelfCal
  split
  next o ho =>
    split
    · have hc : outstanding (setChan o.a0.toNat { chan s o.a0.toNat with calibrating := false, restart := true } s) .sen = some o := ho
      exact .inr ⟨outstanding_complete _ _ _ _, complete_completed hc (.inl (by simp)) (by decide) _⟩
    · exact .inl rfl
  next => exact .inl rfl

/-- The serial port at its reset, its card powered down, before the block reset. -/
def serCleared (n : Serial) (s : State) : State := cardError n (emptySerial n s)

theorem serial_congr {s t : State} (h : t.ser = s.ser) (n : Nat) : serial t n = serial s n := by
  unfold serial
  rw [h]

theorem serial_setSerial_self (n : Nat) (x : SerSt) (s : State) : serial (setSerial n x s) n = x := Map.get_set_self _ _ _

theorem cardError_outstanding (n : Serial) (s : State) : outstanding (cardError n s) (.ser n) = outstanding s (.ser n) := by
  unfold cardError
  split
  · exact (outstanding_complete_other (by simp) _ _ _).trans (outstanding_eq ((deactivateCard_within (m := 0x24000000000080) .refl n rfl).same .cmds rfl) _)
  · rfl

/-- A card in error leaves the port's work but for the card. -/
theorem cardError_serial (n : Serial) (s : State) : ∃ c, serial (cardError n s) n.val = { serial s n.val with card := c } := by
  unfold cardError
  split
  · refine ⟨none, ?_⟩
    have e : serial (deactivateCard n s) n.val = { serial s n.val with card := none } := by
      unfold deactivateCard
      extract_lets s1
      have e1 : serial s1 n.val = serial s n.val := serial_congr ((ser_setF _ _ _ _).trans ((ser_setF _ _ _ _).trans (ser_setF _ _ _ _))) _
      refine (serial_congr (ser_emit _ _) _).trans ((serial_setSerial_self _ _ _).trans ?_)
      exact congrArg (fun x : SerSt => { x with card := none }) e1
    rw [← e]
    exact serial_congr (ser_complete _ _ _ _) _
  · exact ⟨_, rfl⟩

/-- A field of STATUS of the port but BUSY and FAULT stands through an error of its card. -/
theorem cardError_status (n : Serial) (f : Field) (hf : f.off = offStatus) (h1 : f.lo ≤ f.hi) (h2 : f.hi < 30) (s : State) :
    getF (cardError n s) (.ser n) f = getF s (.ser n) f := by
  unfold cardError
  split
  · refine (getI_complete _ _ _ _ _ _ _ (by simp) ?_).trans ?_
    · rw [Field.offAt_zero, hf, decide_eq_true rfl, decide_eq_true h1, decide_eq_true h2]
      simp
    · have hs : ∀ g : Field, g.off ≠ offStatus → g.off < 0x1000 → fieldsSplit g f 0 0 = true := fun g hg hl => by
        unfold fieldsSplit
        have : g.off % 0x1000 ≠ offStatus % 0x1000 := by rwa [Nat.mod_eq_of_lt hl]
        rw [Field.offAt_zero, Field.offAt_zero, hf, decide_eq_true this]
        rfl
      unfold deactivateCard
      refine FieldKept.regs ?_ ((regs_emit _ _).trans (regs_setSerial _ _ _))
      exact (((FieldKept.refl s).setB _ _ _ (by decide) (.inr (hs _ (by decide) (by decide)))).setB _ _ _ (by decide) (.inr (hs _ (by decide) (by decide)))).setB
        _ _ _ (by decide) (.inr (hs _ (by decide) (by decide)))
  · rfl

/-- What a serial port that is emptied is left with. -/
theorem emptySerial_effect (n : Serial) (s : State) : serial (emptySerial n s) n.val = { serial s n.val with hold := none, shift := none, frame := none, low := false } ∧
    isSet (emptySerial n s) (.ser n) SER_STATUS.TX_EMPTY = true ∧ isSet (emptySerial n s) (.ser n) SER_STATUS.RX_FULL = false := by
  unfold emptySerial
  extract_lets p s1 s2 s3 s4
  have e1 : serial s1 n.val = serial s n.val := by
    unfold s1
    split <;> rfl
  have e2 : serial s2 n.val = serial s1 n.val :=
    serial_congr ((ser_setF _ _ _ _).trans ((ser_setF _ _ _ _).trans ((ser_setF _ _ _ _).trans (ser_setF _ _ _ _)))) _
  have e3 : serial s3 n.val = serial s2 n.val := serial_congr (ser_setReg _ _ _) _
  have e4 : serial s4 n.val = serial s3 n.val := by
    unfold s4
    split
    · rfl
    · exact serial_congr (ser_setF _ _ _ _) _
  have k4 : ∀ f : Field, fieldsSplit SER_STATUS.BREAK_ACTIVE f 0 0 = true → f.off = offStatus → getF s4 p f = getF s2 p f := fun f h ho => by
    have k3 : getF s3 p f = getF s2 p f := getI_congr (reg_setReg_other _ _ (fun e => by
      have := addr_split e
      rw [Field.offAt_zero, ho] at this
      exact absurd this (by decide)))
    unfold s4
    split
    · exact k3
    · exact (getI_setI_split _ _ _ (by decide) h).trans k3
  have kset : ∀ f : Field, getF (setSerial n.val { serial s4 n.val with hold := none, shift := none, frame := none, low := false } s4) p f = getF s4 p f := fun f =>
    FieldKept.upd (regs_setSerial _ _ _)
  refine ⟨?_, ?_, ?_⟩
  · refine (serial_setSerial_self _ _ _).trans ?_
    exact congrArg (fun x : SerSt => { x with hold := none, shift := none, frame := none, low := false }) (e4.trans (e3.trans (e2.trans e1)))
  · unfold isSet
    rw [kset, k4 _ (by decide) rfl]
    have h : getF s2 p SER_STATUS.TX_EMPTY = 1 :=
      (getI_setI_split _ _ _ (by decide) (by decide)).trans (getI_setI_self _ _ _ _ _ (by decide))
    rw [h]
    decide
  · unfold isSet
    have h : getF s2 p SER_STATUS.RX_FULL = 0 := getI_setI_self _ _ _ _ _ (by decide)
    rw [kset, k4 _ (by decide) rfl, h]
    decide

/-- Settles O26: each block stops its work, then returns its counters and completes its command. -/
theorem linkBlockResets : Obligations.LinkBlockResets := by
  unfold Obligations.LinkBlockResets
  refine ⟨fun l s => ⟨?_, ?_⟩, fun m s => ⟨?_, ?_⟩, fun s => ?_, fun s => ?_, fun s => ?_, fun n s => ⟨?_, ?_⟩⟩
  · exact .of_eq rfl (by simp) (by decide) (outstanding_eq ((laneFall_within (m := 0x20200020001800) .refl _ _ _ _ rfl).same .cmds rfl) _)
  · refine Yields.intro rfl ?_
    unfold isSet
    rw [getF_blkReset (by simp) (by simp) (by decide) _ _ rfl (by decide) (by decide)]
    exact laneFall_down l _ _ _ s
  · exact .of_eq rfl (by simp) (by decide) (outstanding_eq ((mirrorFall_within (m := 0x20000020002000) .refl _ _ _ rfl).same .cmds rfl) _)
  · refine Yields.intro rfl ?_
    unfold isSet
    rw [getF_blkReset (by simp) (by simp) (by decide) _ _ rfl (by decide) (by decide)]
    exact mirrorFall_down m _ _ s
  · refine Yields.intro rfl ⟨outstanding_complete _ _ _ _, fun r => ?_⟩
    refine Eq.trans (FieldKept.trans (resetOffsets_pci_en r.isLt _) (complete_pci_en r.isLt _ _ _)) ?_
    exact giveUpRings_en r.isLt _ s (fun x hx => List.mem_range.1 hx) (.inl (List.mem_range.2 r.isLt))
  · refine Yields.intro rfl ⟨rfl, rfl, isSet_setB_self _ _ _ _ (by decide), fun i => ?_⟩
    have hi := i.isLt
    have hoff : CIP_TEST_CTL.LOADED.offAt 0 = 0x104 := rfl
    refine (reg_setI_split _ _ (.inr (by omega))).trans ?_
    show reg (resetOffsets .cip _ _) _ = _
    rw [reg_resetOffsets _ _ _ _ _ (by decide) (by omega), if_pos ⟨rfl, List.mem_map.2 ⟨i.val, List.mem_range.2 i.isLt, rfl⟩⟩]
  · have hk := CmdKept.foldl (p := .sen) (f := fun t n => if getI t .sen SEN_CFG.EN n = 1 then senCfgWritten n t else t) (fun u n => by
      split
      · exact senCfgWritten_cmd n u
      · exact .refl _ u) (List.range 8) (stopSelfCal s)
    rcases stopSelfCal_effect s with h | ⟨hn, hc⟩
    · exact .of_eq rfl (by simp) (by decide) (hk.out.trans h)
    · refine Yields.intro (t := _) rfl ?_
      have e : blkReset .sen [] ((List.range 8).foldl (fun t n => if getI t .sen SEN_CFG.EN n = 1 then senCfgWritten n t else t) (stopSelfCal s)) =
          (List.range 8).foldl (fun t n => if getI t .sen SEN_CFG.EN n = 1 then senCfgWritten n t else t) (stopSelfCal s) := complete_none (hk.out.trans hn) _ _
      rw [e]
      exact ⟨hk.out.trans hn, fun _ => hk.completed hc, by simp⟩
  · exact .of_eq (s1 := serCleared n s) rfl (by simp) (by decide) ((cardError_outstanding _ _).trans
      (outstanding_eq ((emptySerial_within (m := 0x24000000000080) .refl n rfl).same .cmds rfl) _))
  · obtain ⟨c, hc⟩ := cardError_serial n (emptySerial n s)
    have hser : serial (blkReset (.ser n) [] (serCleared n s)) n.val = { serial (emptySerial n s) n.val with card := c } := by
      rw [← hc]
      unfold serial
      rw [(blkReset_all _ _ _).same .ser rfl]
      rfl
    obtain ⟨hs, htx, hrx⟩ := emptySerial_effect n s
    rw [hs] at hser
    refine Yields.intro (t := blkReset (.ser n) [] (serCleared n s)) rfl ⟨congrArg SerSt.hold hser, congrArg SerSt.shift hser, congrArg SerSt.frame hser, ?_, ?_⟩
    all_goals
      unfold isSet
      rw [getF_blkReset (by simp) (by simp) (by decide) _ _ rfl (by decide) (by decide)]
      unfold serCleared
      rw [cardError_status n _ rfl (by decide) (by decide)]
    · exact htx
    · exact hrx

end Sys2Proof.Machine
end

section
/-!
PROOFS. The burst queues (R291–R301): reading under a mark, what comes in, and the commands of BQ.
-/
namespace Sys2Proof.Machine

/-! Queues of the state. -/

theorem queue_congr {s t : State} (h : t.bq = s.bq) (j : Nat) : queue t j = queue s j := by
  unfold queue
  rw [h]

theorem queue_setQueue_self (id : Nat) (q : Queue) (s : State) : queue (setQueue id q s) id = q := Map.get_set_self _ _ _

theorem popReport_bq (a : Nat) (e : PopErr) (s : State) : (popReport a e s).bq = s.bq := (popReport_within (m := 0x20000022080008) .refl a e rfl).same .bq rfl

theorem popReport_mem (a : Nat) (e : PopErr) (s : State) : (popReport a e s).mem = s.mem := (popReport_within (m := 0x20000022080008) .refl a e rfl).same .mem rfl

/-! Reading under a mark (R294, R295). -/

/-- A queue with its read pointer elsewhere. -/
def Queue.readAt (q : Queue) (n : Nat) : Queue := { q with rp := n }

/-- A queue that differs from another at most in its read pointer; the commons are as then. -/
def ReadOn (id : Nat) (m u : State) : Prop := u.mem = m.mem ∧ ∃ n, queue u id = (queue m id).readAt n

theorem ReadOn.refl (id : Nat) (m : State) : ReadOn id m m := ⟨rfl, (queue m id).rp, rfl⟩

theorem ReadOn.congr {id : Nat} {m u v : State} (h : ReadOn id m u) (hm : v.mem = u.mem) (hb : v.bq = u.bq) : ReadOn id m v := by
  obtain ⟨h1, n, h2⟩ := h
  exact ⟨hm.trans h1, n, (queue_congr hb _).trans h2⟩

theorem ReadOn.answer {id : Nat} {m u : State} (h : ReadOn id m u) (r : QResult) (tag : Nat) (l : List Byte) : ReadOn id m (answer r tag l u) :=
  h.congr (mem_emit _ _) (bq_emit _ _)

theorem ReadOn.report {id : Nat} {m u : State} (h : ReadOn id m u) (a : Nat) (e : PopErr) : ReadOn id m (popReport a e u) :=
  h.congr (popReport_mem _ _ _) (popReport_bq _ _ _)

theorem ReadOn.advance {id : Nat} {m u : State} (h : ReadOn id m u) (k : Nat) : ReadOn id m (setQueue id ((queue u id).readAt k) u) := by
  obtain ⟨h1, n, h2⟩ := h
  refine ⟨h1, k, ?_⟩
  rw [queue_setQueue_self, h2]
  rfl

/-- A POP moves at most the read pointer. -/
theorem pop_readOn (id : BurstId) (gen : BitVec 8) (e : PopErr) {m u : State} (h : ReadOn id.val m u) : ReadOn id.val m (pop id gen e u) := by
  unfold pop
  dsimp only
  split
  · exact h.answer _ _ _
  · split
    · exact h.answer _ _ _
    · have h1 := h.advance ((queue u id.val).rp + 1)
      cases e with
      | sound => exact h1.answer _ _ _
      | data => exact (h1.report _ _).answer _ _ _
      | tag => exact (h1.report _ _).answer _ _ _

/-- Any number of POPs run, and each moves at most the read pointer. -/
theorem pops_readOn (id : BurstId) (gen : BitVec 8) (m : State) : ∀ (es : List PopErr) (x : State), ReadOn id.val m x →
    ∃ u, es.foldl (fun (r : Option State) e => r.bind (fun x =>
        match exec (.pop id gen e) x with
        | .next y => some y
        | _ => none)) (some x) = some u ∧ ReadOn id.val m u
  | [], x, h => ⟨x, rfl, h⟩
  | e :: es, x, h => by
    obtain ⟨u, hu, hr⟩ := pops_readOn id gen m es (pop id gen e x) (pop_readOn id gen e h)
    exact ⟨u, hu, hr⟩

/-- A queue with a mark set at its read pointer. -/
def Queue.withMark (q : Queue) : Queue := { q with mark := q.rp, markValid := true, markLost := false }

/-- The state after a MARK of a queue that is open under its generation. -/
def marked (id : BurstId) (s : State) : State :=
  answer .ok 0 [] (setQueue id.val (queue s id.val).withMark s)

theorem exec_mark {id : BurstId} {gen : BitVec 8} {s : State} (h : named s id gen = true) : exec (.mark id gen) s = .next (marked id s) := by
  show Host.Outcome.next (if named s id gen = true then marked id s else _) = _
  rw [if_pos h]

theorem queue_marked (id : BurstId) (s : State) : queue (marked id s) id.val = (queue s id.val).withMark := queue_setQueue_self _ _ _

/-- A REWIND of a queue whose mark is valid. -/
theorem exec_rewind {id : BurstId} {gen : BitVec 8} {s : State} (h : named s id gen = true) (hl : (queue s id.val).markLost = false) (hv : (queue s id.val).markValid = true) :
    exec (.rewind id gen) s = .next (answer .ok 0 [] (setQueue id.val ((queue s id.val).readAt (queue s id.val).mark) s)) := by
  show Host.Outcome.next (if (!named s id gen) = true then _ else if (queue s id.val).markLost = true then _ else
    if (queue s id.val).markValid = true then answer .ok 0 [] (setQueue id.val ((queue s id.val).readAt (queue s id.val).mark) s) else _) = _
  rw [if_neg (by simp [h]), if_neg (by simp [hl]), if_pos hv]

/-- Settles O28: the queue differs from the marked one only in the read pointer, which the REWIND returns to the mark. -/
theorem markedReading : Obligations.MarkedReading := by
  unfold Obligations.MarkedReading
  intro id gen es s h
  refine Yields.intro (exec_mark h) ?_
  obtain ⟨u, hu, hmem, n, hq⟩ := pops_readOn id gen (marked id s) es (marked id s) (.refl _ _)
  have hm := queue_marked id s
  have hnamed : named u id gen = true := by
    unfold named
    rw [hq, hm]
    exact h
  have hlost : (queue u id.val).markLost = false := by
    rw [hq, hm]
    rfl
  have hvalid : (queue u id.val).markValid = true := by
    rw [hq, hm]
    rfl
  refine ⟨u, hu, Yields.intro (exec_rewind hnamed hlost hvalid) ⟨?_, rfl, hmem⟩⟩
  refine (queue_setQueue_self _ _ _).trans ?_
  rw [hq, hm]
  rfl

/-! Words that come in (R291, R296, R297). -/

/-- A change of the queues and the commons leaves the registers, what is sent and the bursts. -/
theorem setBytes_frame : ∀ (l : List Byte) (a : Nat) (s : State), (setBytes a l s).regs = s.regs ∧ (setBytes a l s).bq = s.bq ∧ (setBytes a l s).eng = s.eng
  | [], _, _ => ⟨rfl, rfl, rfl⟩
  | b :: l, a, s => setBytes_frame l (a + 1) (setByte a b s)

/-- A queue with one more word behind its write pointer. -/
def Queue.pushed (q : Queue) (kind : WordKind) (n : Nat) : Queue := { q with wp := q.wp + 1, tags := q.tags ++ [⟨kind, false, n⟩] }

/-- Pushing a word moves the write pointer and keeps the registers. -/
theorem pushWord_effect (id : Nat) (kind : WordKind) (l : List Byte) (s : State) :
    queue (pushWord id kind l s) id = (queue s id).pushed kind l.length ∧ (pushWord id kind l s).regs = s.regs :=
  ⟨queue_setQueue_self _ _ _, (setBytes_frame _ _ _).1⟩

/-- A partial word that closes is pushed, counted and empties what was packed. -/
theorem closePartial_effect (id : Nat) (s : State) (h : (queue s id).packed ≠ []) : (closePartial id s).regs = s.regs ∧
    (queue (closePartial id s) id).wp = (queue s id).wp + 1 ∧ (queue (closePartial id s) id).packed = [] ∧
    (queue (closePartial id s) id).qbytes = (queue s id).qbytes + (queue s id).packed.length := by
  unfold closePartial
  dsimp only
  rw [if_neg h]
  obtain ⟨hq, hr⟩ := pushWord_effect id .data (queue s id).packed s
  rw [queue_setQueue_self, hq]
  exact ⟨hr, rfl, rfl, rfl⟩

/-- Data pushed leaves the queue's reading side and its flags, and moves its write pointer on. -/
theorem pushData_effect (id : Nat) : ∀ (fuel : Nat) (l : List Byte) (s : State), (pushData id fuel l s).regs = s.regs ∧
    (queue (pushData id fuel l s) id).early = (queue s id).early ∧ (queue (pushData id fuel l s) id).rp = (queue s id).rp ∧
    (queue s id).wp ≤ (queue (pushData id fuel l s) id).wp ∧ (fuel ≠ 0 → l ≠ [] → (queue s id).wp < (queue (pushData id fuel l s) id).wp)
  | 0, _, _ => ⟨rfl, rfl, rfl, Nat.le_refl _, fun h => absurd rfl h⟩
  | _ + 1, [], _ => ⟨rfl, rfl, rfl, Nat.le_refl _, fun _ h => absurd rfl h⟩
  | fuel + 1, b :: l, s => by
    obtain ⟨hq, hr⟩ := pushWord_effect id .data ((b :: l).take 32) s
    let s1 := pushWord id .data ((b :: l).take 32) s
    let q1 := queue s1 id
    obtain ⟨er, ee, ep, ew, _⟩ := pushData_effect id fuel ((b :: l).drop 32) (setQueue id { q1 with qbytes := q1.qbytes + ((b :: l).take 32).length } s1)
    have hq1 : queue s1 id = (queue s id).pushed .data ((b :: l).take 32).length := hq
    rw [queue_setQueue_self] at ee ep ew
    have he : (queue s1 id).early = (queue s id).early := by rw [hq1]; rfl
    have hp : (queue s1 id).rp = (queue s id).rp := by rw [hq1]; rfl
    have hw : (queue s1 id).wp = (queue s id).wp + 1 := by rw [hq1]; rfl
    have hw' : (queue s id).wp + 1 ≤ (queue (pushData id (fuel + 1) (b :: l) s) id).wp := hw ▸ ew
    exact ⟨er.trans hr, ee.trans he, ep.trans hp, Nat.le_of_succ_le hw', fun _ _ => hw'⟩

/-- An OVERRUN is raised and completes the receive burst. -/
theorem overrun_effect (id : Nat) (s : State) (h : (burst s id).st = .rxOpen) :
    intOf (overrun id s) .bq BQ_INT.OVERRUN = true ∧ (burst (overrun id s) id).st = .rxDone := by
  unfold overrun
  extract_lets q s1
  have hb : burst (raise .bq BQ_INT.OVERRUN (count .bq BQ_OVERRUN_CNT.COUNT s1)) id = burst s id :=
    burst_congr (congrArg EngSt.bursts ((eng_raise _ _ _).trans (eng_countN _ _ _ _))) id
  refine ⟨?_, ?_⟩
  · rw [(completeBurst_within (m := 0x20038021800000) .refl _ _ rfl).intOf_addr _ _ rfl]
    exact intOf_raise _ _ _ (by decide)
  · rw [burst_completeBurst, if_pos rfl, hb, h]

/-- A narrow write into a queue that takes words. -/
theorem narrowWrite_open {id : Nat} {s : State} (ho : (queue s id).isOpen = true) (ht : (queue s id).trailer = false) (hb : (burst s id).st = .rxOpen)
    (data : List Byte) (last : Bool) : narrowWrite id data last s = if (queue s id).full then overrun id s else
      (let s1 := setQueue id { queue s id with packed := (queue s id).packed ++ data.take 4 } s
       if closesWord (queue s1 id) last then closePartial id s1 else s1) := by
  unfold narrowWrite
  dsimp only
  rw [if_neg (by simp [ho, ht, hb])]

theorem narrowWrite_effect {id : Nat} {s : State} (ho : (queue s id).isOpen = true) (ht : (queue s id).trailer = false) (hb : (burst s id).st = .rxOpen)
    (data : List Byte) (last : Bool) (t : State) (e : t = narrowWrite id data last s) :
      let q := queue s id
      let l := q.packed ++ data.take 4
      if q.full then intOf t .bq BQ_INT.OVERRUN = true ∧ (burst t id).st = .rxDone
      else RegsBut [] s t ∧ (if (decide (32 ≤ l.length) || last) && !l.isEmpty then (queue t id).wp = q.wp + 1 ∧ (queue t id).packed = [] ∧
          (queue t id).qbytes = q.qbytes + l.length
        else (queue t id).wp = q.wp ∧ (queue t id).packed = l ∧ t.mem = s.mem) := by
  subst e
  rw [narrowWrite_open ho ht hb]
  intro q l
  by_cases hf : q.full = true
  · rw [if_pos hf, if_pos hf]
    exact overrun_effect id s hb
  rw [if_neg hf, if_neg hf]
  extract_lets s1
  have hq1 : queue s1 id = { q with packed := l } := queue_setQueue_self _ _ _
  have hw : (queue s1 id).wp = q.wp := by rw [hq1]
  have hp : (queue s1 id).packed = l := by rw [hq1]
  have hn : (queue s1 id).qbytes = q.qbytes := by rw [hq1]
  have hc : closesWord (queue s1 id) last = (decide (32 ≤ l.length) || last) := by rw [closesWord, hp]
  rw [hc]
  by_cases hcl : (decide (32 ≤ l.length) || last) = true
  · rw [if_pos hcl, hcl, Bool.true_and]
    by_cases hl : l = []
    · rw [hl, if_neg (by simp)]
      have e : closePartial id s1 = s1 := if_pos (hp.trans hl)
      rw [e, hp, hl]
      exact ⟨(RegsBut.refl _ s).upd rfl, hw, rfl, rfl⟩
    · rw [if_pos (by simp [hl])]
      obtain ⟨er, ew, ep, eb⟩ := closePartial_effect id s1 (by rwa [hp])
      exact ⟨(RegsBut.refl _ s).upd er, by rw [ew, hw], ep, by rw [eb, hn, hp]⟩
  · rw [if_neg hcl, if_neg (by simp [Bool.eq_false_iff.2 hcl])]
    exact ⟨(RegsBut.refl _ s).upd rfl, hw, hp, rfl⟩

/-- A queue that a header marks as giving its words early. -/
def Queue.givenEarly (q : Queue) : Queue := { q with early := true }

theorem exec_nbEarlyDecode {id : BurstId} {s : State} (payload : List Byte) (h : ((queue s id.val).isOpen && (queue s id.val).earlyOn && !(queue s id.val).early &&
    !(queue s id.val).trailer && decide ((burst s id.val).st = .rxOpen) && decide ((burst s id.val).wave = .nb) && decide ((queue s id.val).wp = 1)
      && decide (4 ≤ headerReps (burst s id.val).header) && !payload.isEmpty) = true) :
    exec (.nbEarlyDecode id payload) s = .next (pushData id.val 8 payload (setQueue id.val (queue s id.val).givenEarly s)) :=
  congrArg Host.Outcome.next (if_pos h)

/-! BQ_SEL (R300). -/

theorem getF_setF_split (s : State) (p : Page) {f g : Field} (v : Nat) (h : (f.ordered && fieldsSplit f g 0 0) = true) : getF (setF p f v s) p g = getF s p g := by
  rw [Bool.and_eq_true] at h
  exact getI_setI_split s p v h.1 h.2

theorem getF_setB_split (s : State) (p : Page) {f g : Field} (b : Bool) (h : (f.ordered && fieldsSplit f g 0 0) = true) : getF (setB p f b s) p g = getF s p g :=
  getF_setF_split s p _ h

theorem isSet_setF_split (s : State) (p : Page) {f g : Field} (v : Nat) (h : (f.ordered && fieldsSplit f g 0 0) = true) : isSet (setF p f v s) p g = isSet s p g := by
  unfold isSet
  rw [getF_setF_split s p v h]

theorem isSet_setB_split (s : State) (p : Page) {f g : Field} (b : Bool) (h : (f.ordered && fieldsSplit f g 0 0) = true) : isSet (setB p f b s) p g = isSet s p g :=
  isSet_setF_split s p _ h

/-! The commands of BQ (R301). -/

/-- A completion keeps the interrupts that have come in on a page outside PCI. -/
theorem intOf_complete {q : Page} (hq : q ≠ .pci) (p : Page) (code : Nat) {d n : Nat} {s : State} (h : intOf s q n = true) : intOf (complete p code d s) q n = true := by
  by_cases hp : q = p
  · subst hp
    unfold complete
    split
    · exact h
    next o _ =>
      extract_lets s1 s2 s3
      have h3 : reg s3 (addr q offIntStat) = reg s (addr q offIntStat) := by
        have h1 : reg s1 (addr q offIntStat) = reg s (addr q offIntStat) := reg_setBusy_other _ _ _ (by decide) (.inr (by decide))
        have h2 : reg s2 (addr q offIntStat) = reg s1 (addr q offIntStat) := by
          unfold s2
          rw [reg_setStat_other _ _ _ _ _ (by decide) (.inr (by decide)), reg_setStat_other _ _ _ _ _ (by decide) (.inr (by decide)),
            reg_setStat_other _ _ _ _ _ (by decide) (.inr (by decide))]
        unfold s3
        split
        · exact (reg_setStat_other _ _ _ _ _ (by decide) (.inr (by decide))).trans (h2.trans h1)
        · exact h2.trans h1
      rw [intOf_eq (reg_originComplete _ _ _ _ _ _ (.inl hq) (by decide) (.inr (by decide)))]
      exact intOf_raise_mono _ _ _ _ _ ((intOf_eq h3 n).trans h)
  · rw [intOf_eq (reg_complete s p code d (by decide) hq (.inl hp))]
    exact h

/-- The state in which a command that its page takes runs. -/
structure JustIssued (p : Page) (o : Outstanding) (s u : State) : Prop where
  issued : Issued u p o
  past : ∀ q x, x < 0x1000 → (q ≠ p ∨ 0x100 ≤ x) → q ≠ .pci → reg u (addr q x) = reg s (addr q x)
  within : Within (pageBit p ||| 0x4000800) s u
  status : StatusKept s u
  code : ∀ {v : State}, CmdKept p u v → ∀ {k : Nat}, k < 256 → ∀ d, Completed (complete p k d v) p k

/-- What a command taken by its page yields is what its run makes of the state just after the issue. -/
theorem Yields.issue {i : Instr} {p : Page} {op : Nat} {src : CmdSrc} {run : Outstanding → State → State} {s : State} {P : State → Prop}
    (hex : exec i s = .next (issue p op src run s)) (ht : takes s p src = true)
    (h : ∀ u, JustIssued p (latch p op src s) s u → P (run (latch p op src s) u)) : Yields i s P := by
  obtain ⟨u, hu, hi, hreg, hw, hk⟩ := issue_takes ht op run
  exact Yields.intro (hex.trans (congrArg Host.Outcome.next hu)) (h u ⟨hi, hreg, hw, hk, fun k _ hc d => (k.issued hi).completed hc d⟩)

theorem JustIssued.regsBut {p : Page} {o : Outstanding} {s u : State} (h : JustIssued p o s u) (l : List Nat) : BlockRegsBut l s u := .of_past h.past l

theorem JustIssued.done {p : Page} {o : Outstanding} {s u : State} (h : JustIssued p o s u) {k : Nat} (hk : k < 256) (d : Nat) : Completed (complete p k d u) p k :=
  h.code (.refl p u) hk d

/-- Settles O29: a narrow write, the early decode and BQ_SEL, each by what it does to the queue. -/
theorem queueInput : Obligations.QueueInput := by
  unfold Obligations.QueueInput
  refine ⟨fun id data last s ho ht hb => Yields.intro rfl (narrowWrite_effect ho ht hb data last _ rfl), fun id payload s ho he hne ht hb hw hwp hr hp => ?_, fun v s => ?_⟩
  · obtain ⟨hreg, hearly, hrp, _, hlt⟩ := pushData_effect id.val 8 payload (setQueue id.val (queue s id.val).givenEarly s)
    rw [queue_setQueue_self] at hearly hrp hlt
    refine Yields.intro (exec_nbEarlyDecode payload (by simp [ho, he, hne, ht, hb, hw, hwp, hr, hp])) ⟨hearly, ?_, hrp, (RegsBut.refl _ s).upd hreg⟩
    have := hlt (by decide) hp
    rwa [show (queue s id.val).givenEarly.wp = 1 from hwp] at this
  · refine Yields.intro rfl ?_
    have hid : getBits v 12 0 < 2 ^ 13 := getBits_lt v 12 0
    simp (disch := decide) only [getF_setF_split, getF_setB_split, isSet_setF_split, isSet_setB_split, getF_setF_self, isSet_setB_self]
    refine ⟨Nat.mod_eq_of_lt hid, trivial, rfl, trivial, trivial, trivial, rfl, rfl, rfl, rfl, ?_⟩
    repeat' refine RegsBut.setF ?_ _ (by decide)
    exact RegsBut.refl _ s

/-- A queue that is closed by force: the queue is closed and its context free. -/
theorem closeQueue_effect (id : Nat) (s : State) : queue (closeQueue id s) id = Queue.closed ∧ (burst (closeQueue id s) id).st = .free := by
  unfold closeQueue
  extract_lets q s1 src s2
  have h2 : queue s2 id = Queue.closed := by
    have hrec : ∀ (u : State) (r : List Nat), queue (recountRings { u with bq := { u.bq with rings := r } }) id = queue u id := fun u r =>
      (queue_congr ((bq_setF _ _ _ _).trans ((bq_setF _ _ _ _).trans (bq_setF _ _ _ _))) id).trans rfl
    unfold s2
    split
    · exact (hrec _ _).trans (queue_setQueue_self _ _ _)
    · exact queue_setQueue_self _ _ _
  refine ⟨?_, ?_⟩
  · rw [← h2]
    exact queue_congr ((freeCtx_within (m := 0x8001000000) .refl id rfl).same .bq rfl) id
  · rw [burst_freeCtx, if_pos rfl]
    rfl

theorem closeQueue_cmd (id : Nat) (s : State) : CmdKept .bq s (closeQueue id s) := by
  unfold closeQueue
  extract_lets q s1 src s2
  have h2 : CmdKept .bq s s2 := by
    have hrec : ∀ u : State, CmdKept .bq u (recountRings u) := fun u =>
      (CmdKept.setF _ _ _ (.inr (by decide))).trans ((CmdKept.setF _ _ _ (.inr (by decide))).trans (.setB _ _ _ (.inr (by decide))))
    unfold s2
    split
    · refine CmdKept.trans ?_ (hrec _)
      exact .upd rfl rfl
    · exact .upd rfl rfl
  exact h2.trans (.within (freeCtx_within (m := 0x8001000000) .refl id rfl) rfl rfl)

/-- Settles O30: the two commands by the queue their arguments name. -/
theorem queueCommands : Obligations.QueueCommands := by
  unfold Obligations.QueueCommands
  refine ⟨fun src s ht => Yields.issue rfl ht (fun u hu => ?_), fun src s ht => Yields.issue rfl ht (fun u hu => ?_)⟩
  · have hbq : u.bq = s.bq := hu.within.same .bq rfl
    have heng : u.eng = s.eng := hu.within.same .eng rfl
    extract_lets o id
    have hn : argNamed u o = argNamed s o := by rw [argNamed, queue_congr hbq, argNamed]
    have hb : burst u id = burst s id := burst_congr (congrArg EngSt.bursts heng) id
    unfold runForceRelease
    dsimp only
    rw [hn, hb]
    cases hnamed : argNamed s o with
    | false => exact ⟨hu.done (by decide) 0, (bq_done _ _ _).trans hbq⟩
    | true =>
      rw [if_neg (by decide : ¬ (!true) = true), if_neg (by decide : ¬ true = false)]
      by_cases hr : (burst s id).st = .rxOpen
      · rw [if_pos hr, if_pos hr]
        exact ⟨hu.done (by decide) 0, (bq_done _ _ _).trans hbq⟩
      · rw [if_neg hr, if_neg hr]
        obtain ⟨hq, hf⟩ := closeQueue_effect id u
        have hk : CmdKept .bq u (raise .bq BQ_INT.FORCED (closeQueue id u)) := (closeQueue_cmd id u).trans (.raise _ _ _ _)
        refine ⟨hu.code hk (by decide) 0, ?_, ?_, ?_⟩
        · rw [← hq]
          exact queue_congr ((bq_done _ _ _).trans (bq_raise _ _ _)) id
        · rw [← hf]
          exact congrArg Burst.st (burst_congr (congrArg EngSt.bursts ((eng_complete _ _ _ _).trans (eng_raise _ _ _))) id)
        · exact intOf_complete (by simp) _ _ (intOf_raise _ _ _ (by decide))
  · have hbq : u.bq = s.bq := hu.within.same .bq rfl
    extract_lets o q
    have hq : queue u (getBits o.a0 12 0) = q := queue_congr hbq _
    have hn : argNamed u o = argNamed s o := by rw [argNamed, queue_congr hbq, argNamed]
    have hend : ∀ {k : Nat}, k < 256 → (done .bq k u).bq = s.bq ∧ BlockRegsBut [] s (done .bq k u) ∧ Completed (done .bq k u) .bq k := fun hk =>
      ⟨(bq_done _ _ _).trans hbq, (hu.regsBut []).complete _ _ _, hu.done hk 0⟩
    unfold runReadWords
    dsimp only
    rw [hn, hq]
    cases hnamed : argNamed s o with
    | false => exact hend (by decide)
    | true =>
      rw [if_neg (by decide : ¬ (!true) = true), if_neg (by decide : ¬ true = false)]
      by_cases hr : o.a2.toNat % 4 ≠ 0 ∨ inHostArea o.a2.toNat (4 + 36 * (q.wp - q.rl)) = false
      · rw [if_pos hr, if_pos (by simpa using hr)]
        exact hend (by decide)
      · rw [if_neg hr, if_neg (by simpa using hr)]
        exact ⟨hbq, hu.regsBut [], hu.issued⟩

end Sys2Proof.Machine
end

section
/-!
PROOFS. The engines (R269–R286): their commands, the selected context, cluster faults, and the roles they take.
-/
namespace Sys2Proof.Machine

/-! Roles (R269). -/

theorem engPage_eq (c : Nat) : ∃ k : Cluster, engPage c = .eng k := ⟨_, rfl⟩

/-- A role lies in one of the two registers of roles, and the engines awake in a third. -/
theorem roleReg_addr (c i : Nat) : roleReg c i = addr (engPage c) 0x100 ∨ roleReg c i = addr (engPage c) 0x104 := by
  unfold roleReg
  split
  · exact .inl rfl
  · exact .inr rfl

theorem roleReg_awake (c i : Nat) : roleReg c i ≠ addr (engPage c) ENG_AWAKE.AWAKE.off := by
  intro e
  rcases roleReg_addr c i with h | h <;> exact absurd (addr_split (h.symm.trans e)) (by decide)

theorem setRole_regsBut (c i r : Nat) (s : State) : RegsBut [roleReg c i, addr (engPage c) ENG_AWAKE.AWAKE.off] s (setRole c i r s) := by
  unfold setRole
  exact ((RegsBut.refl _ s).setReg _ (by simp)).setReg _ (by simp)

theorem eng_setRole (c i r : Nat) (s : State) : (setRole c i r s).eng = s.eng := rfl

theorem role_setRole {c i r : Nat} (hr : r < 16) (s : State) : role (setRole c i r s) c i = r := by
  unfold role setRole
  dsimp only
  rw [reg_setReg_other _ _ (roleReg_awake c i), reg_setReg_self, getBits_setBits _ _ (by omega) (by omega)]
  have e : 4 * (i % 8) + 3 + 1 - 4 * (i % 8) = 4 := by omega
  rw [e]
  exact Nat.mod_eq_of_lt hr

theorem awake_setRole {c i : Nat} (hi : i < 16) (r : Nat) (s : State) :
    getBits (reg (setRole c i r s) (addr (engPage c) ENG_AWAKE.AWAKE.off)) i i = if r = ROLE.GATED ∨ r = ROLE.FAULTED then 0 else 1 := by
  unfold setRole
  dsimp only
  rw [reg_setReg_self, getBits_setBits _ _ (Nat.le_refl _) (by omega)]
  have e : i + 1 - i = 1 := by omega
  rw [e]
  split <;> rfl

/-- A field at another offset than the roles and the engines awake stands when a role is given. -/
theorem setRole_field {q : Page} {g : Field} {j : Nat} (h : (decide (g.offAt j % 0x1000 ≠ 0x100) && decide (g.offAt j % 0x1000 ≠ 0x104) && decide (g.offAt j % 0x1000 ≠ 0x108)) = true)
    (c i r : Nat) (s : State) : FieldKept q g j s (setRole c i r s) := by
  simp only [Bool.and_eq_true, decide_eq_true_eq] at h
  obtain ⟨⟨h0, h4⟩, h8⟩ := h
  have ne : ∀ x, g.offAt j % 0x1000 ≠ x % 0x1000 → addr q (g.offAt j) ≠ addr (engPage c) x := fun x hx e => by
    by_cases hq : q = engPage c
    · exact hx (addr_split (hq ▸ e))
    · exact addr_kind hq e
  refine getI_congr (setRole_regsBut c i r s _ ?_)
  rw [List.mem_cons, List.mem_singleton, not_or]
  refine ⟨?_, ne _ h8⟩
  rcases roleReg_addr c i with e | e
  · exact e ▸ ne _ h0
  · exact e ▸ ne _ h4

theorem setRole_cmd (p : Page) (c i r : Nat) (s : State) : CmdKept p s (setRole c i r s) := by
  unfold setRole
  have h1 : ∀ w u, CmdKept p u (setReg (roleReg c i) w u) := fun w u => by
    rcases roleReg_addr c i with e | e <;> rw [e] <;> exact .setReg _ _ _ (.inr (by decide))
  exact (h1 _ _).trans (.setReg _ _ _ (.inr (by decide)))

/-! What a completed burst leaves on the page of its cluster. -/

theorem refreshLoad_cmd (p : Page) (c : Nat) (s : State) : CmdKept p s (refreshLoad c s) := by
  have h : ∀ f v u, (f.off % 0x1000 ≠ offCmdStat ∧ f.off % 0x1000 ≠ offIntStat) → CmdKept p u (setF (engPage c) f v u) := fun _ _ _ h => .setF _ _ _ (.inr h)
  unfold refreshLoad
  exact (h _ _ _ (by decide)).trans ((h _ _ _ (by decide)).trans ((h _ _ _ (by decide)).trans ((h _ _ _ (by decide)).trans (h _ _ _ (by decide)))))

theorem recount_cmd (p : Page) (a b : CtxState) (s : State) : CmdKept p s (recount a b s) := by
  have h : ∀ f v u, (f.off % 0x1000 ≠ offCmdStat ∧ f.off % 0x1000 ≠ offIntStat) → CmdKept p u (setF (.eng 0) f v u) := fun _ _ _ h => .setF _ _ _ (.inr h)
  unfold recount
  exact (h _ _ _ (by decide)).trans ((h _ _ _ (by decide)).trans ((h _ _ _ (by decide)).trans (h _ _ _ (by decide))))

theorem moveCtx_cmd (p : Page) (id : Nat) (b : Burst) (s : State) : CmdKept p s (moveCtx id b s) := by
  unfold moveCtx
  extract_lets old s1
  have hs : CmdKept p s (setBurst id b s) := .upd rfl rfl
  have h1 : CmdKept p s s1 := hs.trans (recount_cmd _ old.st b.st _)
  split
  · exact h1.trans (refreshLoad_cmd _ _ _)
  · exact (h1.trans (refreshLoad_cmd _ _ _)).trans (refreshLoad_cmd _ _ _)

theorem freeCtx_cmd (p : Page) (id : Nat) (s : State) : CmdKept p s (freeCtx id s) := by
  unfold freeCtx
  extract_lets b src s1
  have h1 : CmdKept p s s1 := moveCtx_cmd _ _ _ _
  clear_value s1
  split
  · refine h1.trans ?_
    exact .upd rfl rfl
  · exact h1

theorem reportCompletion_cmd (p : Page) (id : Nat) (b : Burst) (st : Nat) (s : State) : CmdKept p s (reportCompletion id b st s) := by
  have hc : ∀ (f : Field) (q : Page) u, (f.off % 0x1000 ≠ offCmdStat ∧ f.off % 0x1000 ≠ offIntStat) → CmdKept p u (count q f u) := fun _ _ _ h => .count _ _ (.inr h)
  unfold reportCompletion
  extract_lets s1 s2
  have h1 : CmdKept p s s1 := .upd rfl rfl
  have h2 : CmdKept p s s2 := by
    refine h1.trans ?_
    unfold s2
    split
    · exact hc _ _ _ (by decide)
    · exact hc _ _ _ (by decide)
  split
  · exact h2.trans ((hc _ _ _ (by decide)).trans (.raise _ _ _ _))
  · exact h2

theorem returnTx_cmd (p : Page) (c i : Nat) (s : State) : CmdKept p s (returnTx c i s) := by
  unfold returnTx
  split
  · exact setRole_cmd _ _ _ _ _
  · exact .refl _ _

/-- A burst that completes leaves the command interface of every page of a cluster. -/
theorem completeBurst_cmd (c : Cluster) (id st : Nat) (s : State) : CmdKept (.eng c) s (completeBurst id st s) := by
  have htx : ∀ w, CmdKept (.eng c) s (completeTx id w s) := fun w => by
    unfold completeTx
    exact (freeCtx_cmd _ _ _).trans ((reportCompletion_cmd _ _ _ _ _).trans (returnTx_cmd _ _ _ _))
  unfold completeBurst
  extract_lets b w
  cases b.st <;> dsimp only
  case rxOpen =>
    unfold completeRx
    extract_lets s1
    have h1 : CmdKept (.eng c) s s1 := by
      unfold s1
      split
      · exact .refl _ _
      · exact .within (pushTrailer_within (m := 0x30000000000) (closePartial_within Within.refl id rfl) id w rfl) rfl (show Nat.testBit _ 24 = false from rfl)
    exact h1.trans ((moveCtx_cmd _ _ _ _).trans (reportCompletion_cmd _ _ _ _ _))
  case txSet => exact htx w
  case txLive => exact htx w
  case free => exact .refl _ _
  case rxDone => exact .refl _ _

theorem driverOff_cmd (c : Cluster) (n : Nat) (s : State) : CmdKept (.eng c) s (driverOff n s) := .within (driverOff_within (m := 0x2000800000) .refl n rfl) rfl (show Nat.testBit _ 24 = false from rfl)

theorem driverOff_eng (n : Nat) (s : State) : (driverOff n s).eng = s.eng := (driverOff_within (m := 0x2000800000) .refl n rfl).same .eng rfl

/-! The commands (R280, R282). -/

/-- A burst that is completed is not open. -/
theorem completeBurst_closed (id st : Nat) (s : State) : (burst (completeBurst id st s) id).st.isOpen = false := by
  rw [burst_completeBurst, if_pos rfl]
  cases (burst s id).st <;> rfl

theorem burst_done (p : Page) (k : Nat) (s : State) (j : Nat) : burst (done p k s) j = burst s j := burst_congr (congrArg EngSt.bursts (eng_done p k s)) j

/-- ABORT_BURST by the state of the context that it names. -/
theorem runAbortBurst_eq (p : Page) (o : Outstanding) (s : State) : runAbortBurst p o s =
    (let id := getBits o.a0 12 0
     if (burst s id).st = .free ∨ (burst s id).gen ≠ getBits o.a1 7 0 then done p 0x80 s
     else if (burst s id).st = .rxDone then done p 0x81 s
     else if (burst s id).st = .txLive then done p CODE.OK (completeBurst id BST.ABORTED (driverOff (burst s id).place s))
     else done p CODE.OK (completeBurst id BST.ABORTED s)) := by
  unfold runAbortBurst
  extract_lets id b
  split
  · rfl
  · cases hb : (burst s id).st <;> simp [b]

theorem cluster_congr {s t : State} (h : t.eng.clusters = s.eng.clusters) (c : Nat) : cluster t c = cluster s c := by
  unfold cluster
  rw [h]

theorem cluster_setCluster_self (c : Nat) (x : ClusterSt) (s : State) : cluster (setCluster c x s) c = x := Map.get_set_self _ _ _

theorem bursts_setCluster (c : Nat) (x : ClusterSt) (s : State) : (setCluster c x s).eng.bursts = s.eng.bursts := rfl

theorem reloading_congr {s t : State} (h : t.eng = s.eng) : reloading t = reloading s := by
  unfold reloading cluster
  rw [h]

/-! Cluster faults (R285). -/

theorem cmd_setFault (p q : Page) (v : Nat) (s : State) : CmdKept p s (setFault q v s) := .setReg _ _ _ (.inr (by decide))

theorem countErr_cmd (p q : Page) (s : State) : CmdKept p s (countErr q s) := (CmdKept.setReg _ _ _ (.inr (by decide))).trans (.raise _ _ _ _)

theorem diagReport_cmd (p : Page) (row : Nat) (q : Page) (s : State) : CmdKept p s (diagReport row q s) :=
  (CmdKept.setF _ _ _ (.inr (by decide))).trans ((CmdKept.setF _ _ _ (.inr (by decide))).trans ((CmdKept.count _ _ (.inr (by decide))).trans (.raise _ _ _ _)))

theorem diagReport_int (row : Nat) (q : Page) (s : State) : intOf (diagReport row q s) .saf SAF_INT.DIAG = true := intOf_raise _ _ _ (by decide)

theorem diagReport_eng (row : Nat) (q : Page) (s : State) : (diagReport row q s).eng = s.eng := (diagReport_within (m := 0x20000020000008) .refl row q rfl).same .eng rfl

/-- All engines of a cluster given the role of a fault or gated. -/
theorem roles_cmd (p : Page) (c : Nat) (s : State) : CmdKept p s (gateCluster c s) ∧ CmdKept p s (faultEngines c s) := by
  refine ⟨CmdKept.foldl (fun u i => ?_) _ _, CmdKept.foldl (fun u i => setRole_cmd _ _ _ _ _) _ _⟩
  split
  · exact .refl _ _
  · exact setRole_cmd _ _ _ _ _

theorem roles_eng (c : Nat) (s : State) : (gateCluster c s).eng = s.eng ∧ (faultEngines c s).eng = s.eng :=
  ⟨(gateCluster_within (m := 0x1000000) .refl c rfl).same .eng rfl, (faultEngines_within (m := 0x1000000) .refl c rfl).same .eng rfl⟩

theorem roles_status (c : Nat) (k : Cluster) (f : Field) (hf : f.off = offStatus) (s : State) :
    FieldKept (.eng k) f 0 s (gateCluster c s) ∧ FieldKept (.eng k) f 0 s (faultEngines c s) := by
  have h : (decide (f.offAt 0 % 0x1000 ≠ 0x100) && decide (f.offAt 0 % 0x1000 ≠ 0x104) && decide (f.offAt 0 % 0x1000 ≠ 0x108)) = true := by
    rw [Field.offAt_zero, hf]
    decide
  refine ⟨FieldKept.foldl (fun u i => ?_) _ (.refl _), FieldKept.foldl (fun u i => setRole_field h _ _ _ _) _ (.refl _)⟩
  split
  · exact .refl _
  · exact setRole_field h _ _ _ _

/-- Whether a fault of the cluster falls within the window of the last one (R285). -/
def faultsAgain (c sample : Nat) (s : State) : Bool :=
  match (cluster s c).lastFault with
  | some t => decide (slotTime s + sample - t ≤ faultWindow)
  | none => false

theorem faultsAgain_eq (c sample : Nat) (s : State) :
    faultsAgain c sample s = (cluster s c).lastFault.any (fun t => decide (slotTime s + sample - t ≤ faultWindow)) := by
  unfold faultsAgain
  cases (cluster s c).lastFault with
  | none => rw [Option.any_none]
  | some t => rw [Option.any_some]

/-- What a cluster fault does first: the bursts end, the command completes, and the fault is shown, counted and reported. -/
def faultShown (c : Cluster) (s : State) : State :=
  diagReport 8 (.eng c) (countErr (.eng c) (raise (.eng c) ENG_INT.CLUSTER_FAULT (setFault (.eng c) 1 (complete (.eng c) CODE.FAULT 0 (endBursts c.val BST.ENGINE_FAULT s)))))

theorem clusterFault_eq (c : Cluster) (cause sample : Nat) (s : State) : clusterFault c.val cause sample s =
    if faultsAgain c.val sample s then
      setCluster c.val ⟨.outOfService, some (slotTime s + sample)⟩ (setF (.eng c) ENG_STATUS.FAULT_CAUSE 4 (faultEngines c.val (faultShown c s)))
    else setCluster c.val ⟨.resume true, some (slotTime s + sample)⟩ (setF (.eng c) ENG_STATUS.FAULT_CAUSE cause (gateCluster c.val (faultShown c s))) := by
  unfold clusterFault faultShown
  rw [engPage_val]
  unfold faultsAgain
  rfl

/-- The cause, the fault and the roles of a cluster that has failed. -/
theorem faultShown_effect (c : Cluster) (s : State) : (∀ j, heldIn c.val (burst (faultShown c s) j) = false) ∧ outstanding (faultShown c s) (.eng c) = none ∧
    pageFault (faultShown c s) (.eng c) = true ∧ intOf (faultShown c s) (.eng c) ENG_INT.CLUSTER_FAULT = true ∧ intOf (faultShown c s) .saf SAF_INT.DIAG = true := by
  unfold faultShown
  let u := complete (.eng c) CODE.FAULT 0 (endBursts c.val BST.ENGINE_FAULT s)
  have hcmd : ∀ v, CmdKept (.eng c) v (diagReport 8 (.eng c) (countErr (.eng c) v)) := fun v => (countErr_cmd _ _ _).trans (diagReport_cmd _ _ _ _)
  refine ⟨fun j => ?_, ?_, ?_, ?_, diagReport_int _ _ _⟩
  · have he : (diagReport 8 (.eng c) (countErr (.eng c) (raise (.eng c) ENG_INT.CLUSTER_FAULT (setFault (.eng c) 1 u)))).eng = (endBursts c.val BST.ENGINE_FAULT s).eng := by
      rw [diagReport_eng, eng_countErr, eng_raise, eng_setFault]
      exact eng_complete _ _ _ _
    rw [burst_congr (congrArg EngSt.bursts he)]
    exact completeAll_none (fun _ hb => (Bool.and_eq_true_iff.1 hb).1) _ _ j
  · exact (((cmd_setFault _ _ _ _).trans (.raise _ _ _ _)).trans (hcmd _)).out.trans (outstanding_complete _ _ _ _)
  · have hsaf : ∀ v, reg (diagReport 8 (.eng c) v) (addr (.eng c) offStatus) = reg v (addr (.eng c) offStatus) := fun v =>
      (diagReport_within (m := 0x20000020000008) .refl 8 (.eng c) rfl).reg_addr _ _ (show Nat.testBit _ 24 = false from rfl)
    unfold pageFault
    rw [hsaf, reg_countErr_other _ _ (by decide) (.inr (by decide)), reg_raise_other _ _ _ (by decide) (.inr (by decide))]
    unfold setFault
    rw [reg_setReg_self, getBits_setBits _ _ (by decide) (by decide)]
    rfl
  · exact (hcmd _).int _ (intOf_raise _ _ _ (by decide))

/-- The field of STATUS that shows a fault (R28). -/
def faultField : Field := ⟨.eng, 0xC, 29, 29, .ro, 0, .any, 1, 4⟩

theorem pageFault_field (s : State) (p : Page) : pageFault s p = decide (getI s p faultField 0 = 1) := by
  unfold pageFault getI
  rfl

/-- What ends a cluster fault: a role for every engine, the cause shown, and the phase of the cluster. -/
theorem faultEnd_effect (c : Cluster) (s t : State) (x : ClusterSt) (v : Nat) (h : t = gateCluster c.val s ∨ t = faultEngines c.val s) (hv : v < 8) :
    let u := setCluster c.val x (setF (.eng c) ENG_STATUS.FAULT_CAUSE v t)
    u.eng.bursts = s.eng.bursts ∧ CmdKept (.eng c) s u ∧ (pageFault u (.eng c) = pageFault s (.eng c)) ∧ intOf u .saf SAF_INT.DIAG = intOf s .saf SAF_INT.DIAG ∧
    (cluster u c.val).phase = x.phase ∧ getF u (.eng c) ENG_STATUS.FAULT_CAUSE = v := by
  intro u
  have hw : Within 0x1000000 s t := by
    rcases h with rfl | rfl
    · exact gateCluster_within .refl _ rfl
    · exact faultEngines_within .refl _ rfl
  have hbursts : u.eng.bursts = s.eng.bursts := by
    rw [bursts_setCluster, eng_setF, hw.same .eng rfl]
  have hc : CmdKept (.eng c) s t := by
    rcases h with rfl | rfl
    · exact (roles_cmd _ _ _).1
    · exact (roles_cmd _ _ _).2
  have hu : CmdKept (.eng c) t u := CmdKept.trans (.setF t ENG_STATUS.FAULT_CAUSE v (.inr (by decide))) (.upd (regs_setCluster _ _ _) (cmds_setCluster _ _ _))
  have hflt : FieldKept (.eng c) faultField 0 s t := by
    rcases h with rfl | rfl
    · exact (roles_status _ _ _ rfl _).1
    · exact (roles_status _ _ _ rfl _).2
  refine ⟨hbursts, hc.trans hu, ?_, ?_, ?_, ?_⟩
  · have hf : FieldKept (.eng c) faultField 0 s u := (hflt.setF (.eng c) ENG_STATUS.FAULT_CAUSE v (by decide) (.inr (by decide))).regs (regs_setCluster _ _ _)
    rw [pageFault_field, pageFault_field, hf]
  · have hs : Within 0x8001000000 s u := setCluster_within (setF_within (hw.weaken rfl) (.eng c) _ _ (by rw [pageBit_eng]; rfl)) _ _ rfl
    exact hs.intOf_addr _ _ rfl
  · exact congrArg ClusterSt.phase (cluster_setCluster_self _ _ _)
  · have hf : FieldKept (.eng c) ENG_STATUS.FAULT_CAUSE 0 (setF (.eng c) ENG_STATUS.FAULT_CAUSE v t) u := .upd (regs_setCluster _ _ _)
    exact Eq.trans hf ((getF_setF_self _ _ _ _ (by decide)).trans (Nat.mod_eq_of_lt hv))

/-- Settles O31: each clause by the branch of its operation. -/
theorem engineCommands : Obligations.EngineCommands := by
  unfold Obligations.EngineCommands
  refine ⟨fun c src s ht => Yields.issue rfl ht (fun u hu => ?_), fun c src s ht => Yields.issue rfl ht (fun u hu => ?_), fun v s => Yields.intro rfl ?_, fun c k x s => Yields.intro rfl ?_⟩
  · have heng : u.eng = s.eng := hu.within.same .eng (by rw [pageBit_eng]; rfl)
    extract_lets o b
    have hb : burst u (getBits o.a0 12 0) = b := burst_congr (congrArg EngSt.bursts heng) _
    rw [runAbortBurst_eq]
    dsimp only
    rw [hb]
    split
    · exact ⟨hu.done (by decide) 0, (eng_done _ _ _).trans heng⟩
    · split
      · exact ⟨hu.done (by decide) 0, (eng_done _ _ _).trans heng⟩
      · split
        · refine ⟨hu.code ((driverOff_cmd _ _ _).trans (completeBurst_cmd _ _ _ _)) (by decide) 0, ?_⟩
          rw [burst_done]
          exact completeBurst_closed _ _ _
        · refine ⟨hu.code (completeBurst_cmd _ _ _ _) (by decide) 0, ?_⟩
          rw [burst_done]
          exact completeBurst_closed _ _ _
  · have heng : u.eng = s.eng := hu.within.same .eng (by rw [pageBit_eng]; rfl)
    have hbursts : u.eng.bursts = s.eng.bursts := congrArg EngSt.bursts heng
    have hset : ∀ y, CmdKept (.eng c) u (setCluster c.val y u) := fun _ => .upd rfl rfl
    unfold runReloadCluster
    rw [reloading_congr heng, cluster_congr (congrArg EngSt.clusters heng), engPage_val]
    split
    · exact ⟨hu.done (by decide) 0, (eng_done _ _ _).trans heng⟩
    · have key : ∀ ph : ClusterPhase, let t := setCluster c.val { cluster s c.val with phase := ph } u
          Issued t (.eng c) (latch (.eng c) 2 src s) ∧ (cluster t c.val).phase = ph ∧ t.eng.bursts = s.eng.bursts := fun ph =>
        ⟨(hset _).issued hu.issued, congrArg ClusterSt.phase (cluster_setCluster_self _ _ _), (bursts_setCluster _ _ _).trans hbursts⟩
      cases (cluster s c.val).phase <;> exact key _
  · intro b
    have hid : getBits v 12 0 < 2 ^ 13 := getBits_lt v 12 0
    have hst : b.st.code < 8 := by cases b.st <;> decide
    simp (disch := decide) only [getF_setF_split, getF_setB_split, isSet_setF_split, getF_setF_self, isSet_setB_self]
    refine ⟨Nat.mod_eq_of_lt hid, Nat.mod_eq_of_lt hst, rfl, rfl, fun h => ?_, ?_⟩
    · exact (congrArg (· % 2 ^ ENG_CTX_STATE.AGE.width) (if_pos h)).trans (Nat.zero_mod _)
    · repeat' refine RegsBut.setF ?_ _ (by decide)
      exact RegsBut.refl _ s
  · split
    · rfl
    · rw [clusterFault_eq]
      obtain ⟨hheld, hout, hfault, hint, hdiag⟩ := faultShown_effect c s
      have fin : ∀ (t : State) (y : ClusterSt) (n : Nat), (t = gateCluster c.val (faultShown c s) ∨ t = faultEngines c.val (faultShown c s)) → n < 8 →
          let u := setCluster c.val y (setF (.eng c) ENG_STATUS.FAULT_CAUSE n t)
          (∀ j, heldIn c.val (burst u j) = false) ∧ outstanding u (.eng c) = none ∧ pageFault u (.eng c) = true ∧
          intOf u (.eng c) ENG_INT.CLUSTER_FAULT = true ∧ intOf u .saf SAF_INT.DIAG = true ∧ (cluster u c.val).phase = y.phase ∧
          getF u (.eng c) ENG_STATUS.FAULT_CAUSE = n := fun t y n ht hn => by
        obtain ⟨hb, hk, hf, hd, hp, hg⟩ := faultEnd_effect c (faultShown c s) t y n ht hn
        refine ⟨fun j => ?_, hk.out.trans hout, hf.trans hfault, hk.int _ hint, hd.trans hdiag, hp, hg⟩
        rw [burst_congr hb]
        exact hheld j
      have hcause : causeCode k < 8 := by cases k <;> decide
      intro again
      have hagain : again = faultsAgain c.val x.val s := (faultsAgain_eq _ _ _).symm
      clear_value again
      subst hagain
      cases faultsAgain c.val x.val s with
      | true => exact fin _ ⟨.outOfService, _⟩ 4 (.inr rfl) (by decide)
      | false => exact fin _ ⟨.resume true, _⟩ _ (.inl rfl) hcause

/-! Roles taken and given up, and planned items (R271, R276, R184). -/

theorem exec_engineWake {c : Cluster} {k : Fin 16} {s : State} (w : Wave) (h1 : takesWork s c.val = true) (h2 : gated s c.val k.val = true)
    (h3 : (decodeEngines c.val).contains k.val = true) (h4 : inOutage s = false) : exec (.engineWake c k w) s = .next (setRole c.val k.val (rxRole w) s) := by
  refine congrArg Host.Outcome.next ((if_neg ?_).trans (if_neg ?_))
  · rw [h1, h2, h3]
    decide
  · rw [h4]
    decide

theorem exec_engineIdleGate {c : Cluster} {k : Fin 16} {s : State} (h1 : engineLoad s c.val k.val = 0) (h2 : role s c.val k.val = ROLE.NB_RX ∨ role s c.val k.val = ROLE.BB_RX)
    (h3 : isStanding s c.val k.val .nb = false) (h4 : isStanding s c.val k.val .bb = false) : exec (.engineIdleGate c k) s = .next (setRole c.val k.val ROLE.GATED s) :=
  congrArg Host.Outcome.next (if_pos ⟨h1, h2.elim .inl (fun h => .inr (.inl h)), h3, h4⟩)

/-- A role given to an engine of a cluster, with the registers that show it. -/
theorem setRole_effect (c : Cluster) (k : Fin 16) {r : Nat} (hr : r < 16) (s : State) : role (setRole c.val k.val r s) c.val k.val = r ∧
    getBits (reg (setRole c.val k.val r s) (addr (.eng c) ENG_AWAKE.AWAKE.off)) k.val k.val = (if r = ROLE.GATED ∨ r = ROLE.FAULTED then 0 else 1) ∧
    RegsBut [roleReg c.val k.val, addr (.eng c) ENG_AWAKE.AWAKE.off] s (setRole c.val k.val r s) ∧ (setRole c.val k.val r s).eng = s.eng := by
  have ha := awake_setRole k.isLt r s (c := c.val)
  have hb := setRole_regsBut c.val k.val r s
  rw [engPage_val] at ha hb
  exact ⟨role_setRole hr s, ha, hb, eng_setRole _ _ _ _⟩

theorem eng_moveCtx (id : Nat) (b : Burst) (s : State) : (moveCtx id b s).eng = (setBurst id b s).eng := by
  unfold moveCtx
  extract_lets old s1
  have h1 : s1.eng = (setBurst id b s).eng := (recount_within (m := 0x1000000) Within.refl old.st b.st rfl).same .eng rfl
  have h2 : ∀ c u, (refreshLoad c u).eng = u.eng := fun c u => (refreshLoad_within (m := 0x1000000) Within.refl c rfl).same .eng rfl
  rw [h2]
  split
  · exact h1
  · rw [h2, h1]

/-- The engines after a context is opened, from what the operation reads. -/
theorem eng_openCtx (id : Nat) (e : EngSt) (b : Burst) (s : State) :
    (openCtx id e b s).eng = { e with bursts := Map.set (fun _ => Burst.idle) e.bursts id { b with gen := ((burst s id).gen + 1) % 256, slot0 := slotCount s } } :=
  eng_moveCtx _ _ _

theorem slotCount_setRole_plan (c i r : Nat) (s : State) (pl : PlanSt) : slotCount (setRole c i r { s with plan := pl }) = slotCount (setRole c i r s) := rfl

/-- What is opened for a transmission is seen from the engines alone, whatever is planned. -/
theorem openTx_plan (x : PlanItem) (s : State) (pl : PlanSt) : (openTx x { s with plan := pl }).map State.eng = (openTx x s).map State.eng := by
  have hplace : placeTx { s with plan := pl } x.port = placeTx s x.port := rfl
  have halloc : allocTx (decide (x.purpose = .beacon)) { s with plan := pl } = allocTx (decide (x.purpose = .beacon)) s := rfl
  unfold openTx
  rw [hplace, halloc]
  cases placeTx s x.port with
  | none => rfl
  | some e =>
    cases allocTx (decide (x.purpose = .beacon)) s with
    | none => rfl
    | some a =>
      refine congrArg some ?_
      refine (eng_openCtx _ _ _ _).trans (Eq.trans ?_ (eng_openCtx _ _ _ _).symm)
      rw [slotCount_setRole_plan]
      rfl

/-- What is opened for a transmission leaves the plan and the ports. -/
theorem openTx_kept {x : PlanItem} {s u : State} (h : openTx x s = some u) : u.plan = s.plan ∧ u.ports = s.ports := by
  unfold openTx at h
  split at h
  · cases h
  · split at h
    · cases h
    next id e _ =>
      cases h
      have hw : ∀ b v, Within 0x8001000000 v (moveCtx id b v) := fun b v => moveCtx_within .refl id b rfl
      exact ⟨(hw _ _).same .plan rfl, (hw _ _).same .ports rfl⟩

/-- The stage of a frame is kept by the frames alone. -/
theorem stageFrame_kept (p : Purpose) (st : Stage) (s : State) : (stageFrame p st s).plan = s.plan ∧ (stageFrame p st s).ports = s.ports ∧
    (stageFrame p st s).eng = s.eng ∧ (stageFrame p st s).regs = s.regs := by
  unfold stageFrame
  split
  · split
    · exact ⟨rfl, rfl, rfl, rfl⟩
    · exact ⟨rfl, rfl, rfl, rfl⟩
  · exact ⟨rfl, rfl, rfl, rfl⟩

theorem failTx_kept (s : State) : (failTx s).plan = s.plan ∧ (failTx s).ports = s.ports ∧ (failTx s).eng = s.eng ∧ intOf (failTx s) (.eng 0) ENG_INT.NO_CONTEXT = true :=
  ⟨(plan_raise _ _ _).trans (plan_countN _ _ _ _), (ports_raise _ _ _).trans (ports_countN _ _ _ _), (eng_raise _ _ _).trans (eng_countN _ _ _ _), intOf_raise _ _ _ (by decide)⟩

theorem loseBeacon_kept (s : State) : (loseBeacon s).plan = s.plan ∧ (loseBeacon s).ports = s.ports :=
  ⟨(plan_raise _ _ _).trans (plan_countN _ _ _ _), (ports_raise _ _ _).trans (ports_countN _ _ _ _)⟩

/-- The state with an item taken off the plan. -/
def unplanned (x : PlanItem) (s : State) : State := { s with plan := { s.plan with items := s.plan.items.erase x } }

theorem takeItem_effect (x : PlanItem) (s : State) : (takeItem x s).plan = { s.plan with items := s.plan.items.erase x } ∧ (takeItem x s).ports = s.ports ∧
    (x.purpose ≠ .beacon → (∀ u, openTx x (unplanned x s) = some u → (takeItem x s).eng = u.eng) ∧
      (openTx x (unplanned x s) = none → (takeItem x s).eng = s.eng ∧ intOf (takeItem x s) (.eng 0) ENG_INT.NO_CONTEXT = true)) := by
  have e : takeItem x s = match openTx x (unplanned x s) with
    | some t => stageFrame x.purpose .line t
    | none => if x.purpose = .beacon then loseBeacon (failTx (unplanned x s)) else stageFrame x.purpose .ready (failTx (unplanned x s)) := rfl
  rw [e]
  cases ho : openTx x (unplanned x s) with
  | some t =>
    obtain ⟨hp, hq⟩ := openTx_kept ho
    obtain ⟨kp, kq, ke, _⟩ := stageFrame_kept x.purpose .line t
    exact ⟨kp.trans hp, kq.trans hq, fun _ => ⟨fun u hu => ke.trans (congrArg State.eng (Option.some.inj hu)), fun h => by cases h⟩⟩
  | none =>
    obtain ⟨fp, fq, fe, fi⟩ := failTx_kept (unplanned x s)
    dsimp only
    by_cases hb : x.purpose = .beacon
    · rw [if_pos hb]
      obtain ⟨kp, kq⟩ := loseBeacon_kept (failTx (unplanned x s))
      exact ⟨kp.trans fp, kq.trans fq, fun h => absurd hb h⟩
    · rw [if_neg hb]
      obtain ⟨kp, kq, ke, kr⟩ := stageFrame_kept x.purpose .ready (failTx (unplanned x s))
      refine ⟨kp.trans fp, kq.trans fq, fun _ => ⟨fun u hu => (by cases hu), fun _ => ⟨ke.trans fe, ?_⟩⟩⟩
      rw [← fi]
      exact intOf_eq (by unfold reg; rw [kr]) _

/-- Settles O32: roles are given by one operation; an item is taken off the plan before its context is opened. -/
theorem engineRoles : Obligations.EngineRoles := by
  unfold Obligations.EngineRoles
  refine ⟨fun c k w s h1 h2 h3 h4 => Yields.intro (exec_engineWake w h1 h2 h3 h4) ?_, fun c k s h1 h2 h3 h4 => Yields.intro (exec_engineIdleGate h1 h2 h3 h4) ?_,
    fun p w s h => Yields.intro (congrArg Host.Outcome.next (by rw [h])) rfl, fun p w s x h => ?_⟩
  · have hr : rxRole w < 16 ∧ ¬(rxRole w = ROLE.GATED ∨ rxRole w = ROLE.FAULTED) := by cases w <;> decide
    obtain ⟨h1, h2, h3, h4⟩ := setRole_effect c k hr.1 s
    exact ⟨h1, h2.trans (if_neg hr.2), h3, h4⟩
  · obtain ⟨h1, h2, h3, h4⟩ := setRole_effect c k (r := ROLE.GATED) (by decide) s
    refine ⟨?_, h2, h3, h4⟩
    unfold gated
    rw [h1]
    rfl
  · have hopen : (openTx x (unplanned x s)).map State.eng = (openTx x s).map State.eng := openTx_plan x s _
    by_cases hb : x.purpose = .beacon ∧ (!beaconStands s) = true
    · refine Yields.intro (t := unplanned x s) (congrArg Host.Outcome.next ?_) ⟨rfl, rfl, fun hn => absurd hb.1 hn⟩
      rw [h]
      exact if_pos hb
    · refine Yields.intro (t := takeItem x s) (congrArg Host.Outcome.next ?_) ?_
      · rw [h]
        exact if_neg hb
      · obtain ⟨hp, hq, hn⟩ := takeItem_effect x s
        refine ⟨hp, hq, fun hne => ⟨fun u hu => ?_, fun hu => (hn hne).2 ?_⟩⟩
        · rw [hu] at hopen
          obtain ⟨v, hv, hvu⟩ := Option.map_eq_some_iff.1 hopen
          exact ((hn hne).1 v hv).trans hvu
        · rw [hu] at hopen
          exact Option.map_eq_none_iff.1 hopen

end Sys2Proof.Machine
end

section
/-!
PROOFS. Dynamic notches (R141), tone maps that end (R153), and the noise calendar (R167–R181).
-/
namespace Sys2Proof.Machine

/-! Notches and tone maps. -/

/-- The first element with a property, when one element equal to it is changed within the property. -/
theorem find_map_same {α : Type} [DecidableEq α] {p : α → Bool} {g : α → α} {n : α} (hm : p (g n) = true) : ∀ (l : List α), l.find? p = some n →
    (l.map (fun x => if x = n then g x else x)).find? p = some (g n)
  | [], h => by cases h
  | x :: l, h => by
    rw [List.find?_cons] at h
    rw [List.map_cons, List.find?_cons]
    by_cases hx : p x = true
    · rw [hx] at h
      have e : x = n := Option.some.inj h
      rw [if_pos e, e, hm]
    · rw [Bool.not_eq_true] at hx
      rw [hx] at h
      have hn : p n = true := List.find?_some h
      have e : x ≠ n := fun e => by rw [e, hn] at hx; cases hx
      rw [if_neg e, hx]
      exact find_map_same hm l h

theorem sfn_congr {s t : State} (h : t.regs = s.regs) : sfn t = sfn s := FieldKept.upd (q := .bcn) (g := BCN_SFN.SFN) (j := 0) h

/-- A carrier heard above the threshold in two superframes is notched as of now. -/
theorem dynDetect_effect {p i : Nat} {s : State} (before now : Nat) (h : dynEligible s p i = true) (hb : getBits s.bbw.cur.profile 15 8 < before)
    (hn : getBits s.bbw.cur.profile 15 8 < now) : (notchOf (dynDetect p i before now s) p i).map (·.last) = some (sfn s) ∧
      (notchOf s p i = none → intOf (dynDetect p i before now s) .bbw BBW_INT.DYN_CHANGE = true) := by
  unfold dynDetect
  dsimp only
  rw [if_neg (by simp [h, hb, hn])]
  split
  next x hx =>
    refine ⟨?_, fun e => by rw [hx] at e; cases e⟩
    have hp := List.find?_some hx
    have := find_map_same (g := fun y : Notch => { y with last := sfn s }) (p := fun n : Notch => decide (n.port = p) && decide (n.carrier = i)) hp _ hx
    unfold notchOf
    dsimp only
    rw [this, Option.map_some]
  next hx =>
    refine ⟨?_, fun _ => intOf_raise _ _ _ (by decide)⟩
    have hl : (bbNotches (s.bbw.notches ++ [⟨p, i, sfn s⟩]) s).bbw.notches = s.bbw.notches ++ [⟨p, i, sfn s⟩] := by
      unfold bbNotches
      rw [bbw_raise, bbw_setB]
    unfold notchOf at hx ⊢
    rw [hl, List.find?_append, hx]
    simp

theorem bbNotches_regs (l : List Notch) (s : State) : RegsBut [addr .bbw offStatus, addr .bbw offIntStat] s (bbNotches l s) :=
  RegsBut.raise (RegsBut.setB (f := BBW_STATUS.DYN_ACTIVE) ((RegsBut.refl _ s).upd (u := { s with bbw := { s.bbw with notches := l } }) rfl) _ (by decide)) _ (by decide)

/-- The map found for an uplink is found again under its own address. -/
theorem linkMap_self {s : State} {a : Nat} {e : TmapEntry} (h : linkMap s a false 0 = some e) : linkMap s e.addr e.down e.port = some e := by
  have hp := List.find?_some h
  simp only [Bool.not_false, Bool.true_or, Bool.and_true, Bool.and_eq_true, decide_eq_true_eq] at hp
  rw [hp.1, hp.2]
  simpa [linkMap] using h

/-! The calendar: what each of its operations touches. -/

/-- The calendars of the other ports are as before. -/
def OthersKept (p : Nat) (s t : State) : Prop := ∀ j, j ≠ p → cal t j = cal s j

theorem cal_congr {s t : State} (h : t.ncal = s.ncal) (j : Nat) : cal t j = cal s j := by
  unfold cal
  rw [h]

theorem OthersKept.refl (p : Nat) (s : State) : OthersKept p s s := fun _ _ => rfl

theorem OthersKept.trans {p : Nat} {s t u : State} (h : OthersKept p s t) (k : OthersKept p t u) : OthersKept p s u := fun j hj => (k j hj).trans (h j hj)

theorem OthersKept.of_ncal {p : Nat} {s t : State} (h : t.ncal = s.ncal) : OthersKept p s t := fun j _ => cal_congr h j

theorem OthersKept.setCal (p : Nat) (c : CalSt) (s : State) : OthersKept p s (setCal p c s) := fun j hj => by
  rw [cal_setCal, if_neg hj]

theorem OthersKept.foldl {α : Type} {p : Nat} {f : State → α → State} (hf : ∀ u x, OthersKept p u (f u x)) (l : List α) (s : State) : OthersKept p s (l.foldl f s) := by
  induction l generalizing s with
  | nil => exact .refl p s
  | cons x l ih => exact (hf s x).trans (ih _)

theorem OthersKept.raise {p : Nat} {s t : State} (h : OthersKept p s t) (q : Page) (n : Nat) : OthersKept p s (raise q n t) := h.trans (.of_ncal (ncal_raise _ _ _))

theorem dropEntries_others (p : Nat) (bad : NcalEntry → Bool) (s : State) : OthersKept p s (dropEntries p bad s) := by
  unfold dropEntries
  dsimp only
  split
  · exact (OthersKept.setCal _ _ _).raise _ _
  · exact .refl _ _

theorem promote_others (p : Nat) (x : NcalEntry) (s : State) : OthersKept p s (promote p x s) := by
  unfold promote
  dsimp only
  split
  · exact (OthersKept.setCal _ _ _).raise _ _
  · split
    · exact .setCal _ _ _
    · exact (((OthersKept.setCal _ _ _).trans (.of_ncal (ncal_countN _ _ _ _))).raise _ _).trans
        (.of_ncal ((logPage_within (m := 0x20000028000020) .refl _ _ _ rfl).same .ncal rfl))

theorem mergeOnce_others (p : Nat) (s : State) : OthersKept p s (mergeOnce p s) := by
  unfold mergeOnce
  dsimp only
  split
  · exact .refl _ _
  · exact (OthersKept.setCal _ _ _).raise _ _

theorem settleCal_others (p : Nat) (s : State) : OthersKept p s (settleCal p s) := by
  unfold settleCal promoteAll pruneCands
  exact (((((dropEntries_others _ _ _).trans (.setCal _ _ _)).trans (.foldl (fun u x => promote_others p x u) _ _)).trans
    (.foldl (fun u _ => mergeOnce_others p u) _ _))).trans (dropEntries_others _ _ _)

theorem impulse_others (p t w l nb ru : Nat) (s : State) : OthersKept p s (impulse p t w l nb ru s) := by
  unfold impulse
  dsimp only
  split
  · exact .refl _ _
  · split
    · exact .setCal _ _ _
    · split
      · exact .setCal _ _ _
      · exact (OthersKept.setCal _ _ _).trans (settleCal_others _ _)

/-! A calendar of one entry and no candidate (R170, R171). -/

theorem dropEntries_none {p : Nat} {bad : NcalEntry → Bool} {s : State} (h : ∀ e ∈ (cal s p).entries, bad e.2 = false) : dropEntries p bad s = s := by
  unfold dropEntries
  dsimp only
  rw [if_neg]
  rw [List.any_eq_true]
  rintro ⟨e, he, hb⟩
  rw [h e he] at hb
  cases hb

/-- With no candidate, pruning and promoting change no calendar and no register. -/
theorem noCands {p : Nat} {s : State} (h : (cal s p).cands = []) : pruneCands p s = setCal p (cal s p) s ∧ promoteAll p (pruneCands p s) = pruneCands p s := by
  have e : pruneCands p s = setCal p (cal s p) s := by
    unfold pruneCands
    dsimp only
    rw [h, List.filter_nil, ← h]
  refine ⟨e, ?_⟩
  unfold promoteAll
  have : (cal (pruneCands p s) p).cands = [] := by rw [e, cal_setCal, if_pos rfl, h]
  dsimp only
  rw [this]
  rfl

/-- At most one entry has none to merge with. -/
theorem mergePair_single (s : State) {l : List (Nat × NcalEntry)} (h : l.length ≤ 1) : mergePair s l = none := by
  match l, h with
  | [], _ => rfl
  | [e], _ => simp [mergePair]
  | _ :: _ :: _, h => exact absurd h (by simp)

theorem mergeAll_single {p : Nat} {s : State} (h : (cal s p).entries.length ≤ 1) (l : List Nat) : l.foldl (fun t _ => mergeOnce p t) s = s := by
  have e : mergeOnce p s = s := by
    unfold mergeOnce
    dsimp only
    rw [mergePair_single _ h]
  induction l with
  | nil => rfl
  | cons _ l ih => rw [List.foldl_cons, e, ih]

/-- The last steps of settling, for a calendar of at most one sound entry and no candidate. -/
theorem settled_single {p : Nat} {s : State} (hc : (cal s p).cands = []) (hl : (cal s p).entries.length ≤ 1) (hp : ∀ e ∈ (cal s p).entries, periodOk e.2.period = true)
    (l : List Nat) : dropEntries p (fun e => !periodOk e.period) (l.foldl (fun t _ => mergeOnce p t) (promoteAll p (pruneCands p s))) = setCal p (cal s p) s := by
  obtain ⟨h1, h2⟩ := noCands hc
  have hcal : cal (setCal p (cal s p) s) p = cal s p := by rw [cal_setCal, if_pos rfl]
  rw [h2, h1, mergeAll_single (by rwa [hcal]), dropEntries_none]
  rw [hcal]
  intro e he
  rw [hp e he]
  rfl

/-- A sound entry that has missed less than the limit stays. -/
theorem settleCal_stays {p k : Nat} {s : State} {x : NcalEntry} (he : (cal s p).entries = [(k, x)]) (hc : (cal s p).cands = [])
    (hm : x.missRun < missLimit s (cal s p)) (hp : periodOk x.period = true) : settleCal p s = setCal p (cal s p) s := by
  unfold settleCal
  dsimp only
  rw [dropEntries_none (s := s)]
  · refine settled_single hc (by simp [he]) ?_ _
    rw [he]
    simpa using hp
  · rw [he]
    intro e h
    rw [List.mem_singleton.1 h, hp, decide_eq_false (Nat.not_le.2 hm)]
    rfl

/-- An entry that has missed up to the limit is dropped with ENTRY_DROP. -/
theorem settleCal_drops {p k : Nat} {s : State} {x : NcalEntry} (he : (cal s p).entries = [(k, x)]) (hc : (cal s p).cands = [])
    (hm : missLimit s (cal s p) ≤ x.missRun) : (cal (settleCal p s) p).entries = [] ∧ intOf (settleCal p s) .ncal NCAL_INT.ENTRY_DROP = true := by
  let bad : NcalEntry → Bool := fun e => decide (missLimit s (cal s p) ≤ e.missRun) || !periodOk e.period
  have hbad : bad x = true := by
    show (decide (missLimit s (cal s p) ≤ x.missRun) || !periodOk x.period) = true
    rw [decide_eq_true hm]
    rfl
  have e1 : dropEntries p bad s = raise .ncal NCAL_INT.ENTRY_DROP (setCal p { cal s p with entries := [] } s) := by
    unfold dropEntries
    dsimp only
    rw [he, if_pos (by simp [hbad])]
    simp [hbad]
  have hcal : cal (dropEntries p bad s) p = { cal s p with entries := [] } := by
    rw [e1, cal_congr (ncal_raise _ _ _), cal_setCal, if_pos rfl]
  have e2 : settleCal p s = setCal p (cal (dropEntries p bad s) p) (dropEntries p bad s) := by
    unfold settleCal
    exact settled_single (by rw [hcal]; exact hc) (by rw [hcal]; exact Nat.zero_le _) (by rw [hcal]; simp) _
  rw [e2]
  refine ⟨by rw [cal_setCal, if_pos rfl, hcal], ?_⟩
  refine Eq.trans (intOf_eq rfl _) ?_
  rw [e1]
  exact intOf_raise _ _ _ (by decide)

/-- The calendar with the outcome of the prediction of its only entry. -/
def predicted (p k : Nat) (x : NcalEntry) (s : State) : State := setCal p { cal s p with entries := [(k, x)] } s

theorem predictionDue_single {p k : Nat} {e : NcalEntry} {s : State} (he : (cal s p).entries = [(k, e)]) (observed : Bool) :
    predictionDue p false k observed s = settleCal p (predicted p k (outcome e (observed && isSet s (lptPage p) LPT_STATUS.RX_ON) (sfn s)) s) := by
  unfold predictionDue predicted
  dsimp only
  rw [he]
  simp

theorem cal_predicted (p k : Nat) (x : NcalEntry) (s : State) : cal (predicted p k x s) p = { cal s p with entries := [(k, x)] } := by
  unfold predicted
  rw [cal_setCal, if_pos rfl]

/-- Writing NCAL_SEL latches what the calendar of the port holds. -/
theorem ncalLatch_effect (s : State) : getF (ncalLatch s) .ncal NCAL_SEL.PORT = getF s .ncal NCAL_SEL.PORT ∧ getF (ncalLatch s) .ncal NCAL_SEL.ENTRY = getF s .ncal NCAL_SEL.ENTRY ∧
    getF (ncalLatch s) .ncal NCAL_PORT_STAT.TRACKED = (cal s (getF s .ncal NCAL_SEL.PORT)).entries.length % 2 ^ NCAL_PORT_STAT.TRACKED.width ∧
    isSet (ncalLatch s) .ncal NCAL_ENT_STATE.VALID = ((cal s (getF s .ncal NCAL_SEL.PORT)).entries.lookup (getF s .ncal NCAL_SEL.ENTRY)).isSome := by
  have hsel : ∀ f : Field, f.off = 0x108 → getF (resetOffsets .ncal [0x10C, 0x110, 0x114, 0x118, 0x11C, 0x120] s) .ncal f = getF s .ncal f := fun f hf =>
    getI_congr (by
      rw [Field.offAt_zero, hf, reg_resetOffsets _ _ _ _ _ (by decide) (by decide)]
      rfl)
  have hvalid : getF (resetOffsets .ncal [0x10C, 0x110, 0x114, 0x118, 0x11C, 0x120] s) .ncal NCAL_ENT_STATE.VALID = 0 := by
    unfold getF getI
    rw [Field.offAt_zero]
    have e : reg (resetOffsets .ncal [0x10C, 0x110, 0x114, 0x118, 0x11C, 0x120] s) (addr .ncal NCAL_ENT_STATE.VALID.off) = pageReset .ncal 0x10C := by
      rw [reg_resetOffsets _ _ _ _ _ (by decide) (by decide)]
      rfl
    rw [e]
    decide
  unfold ncalLatch
  dsimp only
  cases (cal s (getF s .ncal NCAL_SEL.PORT)).entries.lookup (getF s .ncal NCAL_SEL.ENTRY) with
  | none =>
    simp (disch := decide) only [getF_setF_split, isSet_setF_split, getF_setF_self]
    refine ⟨hsel _ rfl, hsel _ rfl, trivial, ?_⟩
    unfold isSet
    rw [hvalid]
    rfl
  | some e =>
    simp (disch := decide) only [getF_setF_split, isSet_setF_split, getF_setF_self]
    refine ⟨hsel _ rfl, hsel _ rfl, trivial, ?_⟩
    exact isSet_setB_self _ _ NCAL_ENT_STATE.VALID true (by decide)

/-- Settles O35: each clause by the branch of its operation. -/
theorem notchesAndNoise : Obligations.NotchesAndNoise := by
  unfold Obligations.NotchesAndNoise
  refine ⟨fun n k a b s => Yields.intro rfl ?_, fun n k s => Yields.intro rfl ?_, fun a s e he => Yields.intro rfl ?_, fun n x pv w l nb ru s => Yields.intro rfl ?_,
    fun n k e s he hc hm hp => ⟨Yields.intro rfl ?_, fun hrx hs => Yields.intro rfl ?_⟩, fun n s => Yields.intro rfl ?_, fun v s h1 h2 => Yields.intro rfl ?_⟩
  · intro th
    by_cases h : (dynEligible s n.val k.val && decide (th < a.toNat) && decide (th < b.toNat)) = true
    · rw [if_pos h]
      simp only [Bool.and_eq_true, decide_eq_true_eq] at h
      exact dynDetect_effect _ _ h.1.1 h.1.2 h.2
    · rw [if_neg h]
      refine if_pos ?_
      rw [Bool.not_eq_true] at h
      rw [← Bool.not_and, ← Bool.not_and, Bool.not_eq_true']
      exact h
  · unfold dynLift
    cases hx : notchOf s n.val k.val with
    | none => exact ⟨fun _ => rfl, fun x h => (by cases h)⟩
    | some y =>
      refine ⟨fun h => (by cases h), fun x h => ?_⟩
      cases h
      dsimp only
      split
      · rfl
      · exact ⟨(bbw_raise _ _ _).trans (bbw_setB _ _ _ _), intOf_raise _ _ _ (by decide), bbNotches_regs _ _⟩
  · unfold dropPrevious
    rw [he]
    dsimp only
    cases hp : e.prev with
    | none => exact ⟨RegsBut.refl _ s, fun _ => rfl, fun x h => (by cases h)⟩
    | some y =>
      dsimp only
      have hput : putMap { e with prev := none } s = { s with bbw := { s.bbw with tmaps := s.bbw.tmaps.map (fun y => if y = e then { e with prev := none } else y) } } := by
        unfold putMap
        rw [linkMap_self he]
      refine ⟨?_, fun h => (by cases h), fun x h => ?_⟩
      · split
        · rw [hput]
          exact (RegsBut.refl _ s).upd rfl
        · exact RegsBut.refl _ s
      · cases h
        split
        · rw [hput]
          exact List.mem_map.2 ⟨e, List.mem_of_find?_eq_some he, if_pos rfl⟩
        · rfl
  · refine ⟨impulse_others _ _ _ _ _ _ _, fun h => ?_, fun hd hr hw => ?_⟩
    · unfold impulse
      rw [lptPage_val]
      refine if_pos ?_
      rw [← Bool.not_and, h]
      rfl
    · have e : max 1 w.val = w.val := by omega
      unfold impulse
      rw [lptPage_val, hd, hr, e]
      dsimp only
      rw [if_neg (by decide), if_pos hw]
      exact ⟨by rw [cal_setCal, if_pos rfl], (RegsBut.refl _ s).upd rfl⟩
  · rw [predictionDue_single he, Bool.false_and]
    have hcal := cal_predicted n.val k.val (outcome e false (sfn s)) s
    have hout : outcome e false (sfn s) = skip e := rfl
    rw [settleCal_stays (k := k.val) (x := outcome e false (sfn s)) (by rw [hcal]) (by rw [hcal]; exact hc) (by rw [hcal]; exact hm) hp, cal_setCal, if_pos rfl, hcal]
    exact ⟨rfl, (RegsBut.refl _ s).upd rfl⟩
  · have hout : outcome e true (sfn s) = { skip e with missRun := e.missRun + 1 } := by
      unfold outcome
      rw [hs]
      rfl
    rw [predictionDue_single he, lptPage_val, hrx, Bool.true_and, hout]
    have hcal := cal_predicted n.val k.val { skip e with missRun := e.missRun + 1 } s
    have hcands : (cal (predicted n.val k.val { skip e with missRun := e.missRun + 1 } s) n.val).cands = [] := by rw [hcal]; exact hc
    split
    next hlt =>
      rw [settleCal_stays (k := k.val) (x := { skip e with missRun := e.missRun + 1 }) (by rw [hcal]) hcands (by rw [hcal]; exact hlt) hp, cal_setCal, if_pos rfl, hcal]
    next hge => exact settleCal_drops (k := k.val) (x := { skip e with missRun := e.missRun + 1 }) (by rw [hcal]) hcands (by rw [hcal]; exact Nat.not_lt.1 hge)
  · unfold settleEnd
    dsimp only
    split
    · refine ⟨?_, ?_⟩
      · rw [cal_congr (ncal_anySettle _), cal_setCal, if_pos rfl]
      · exact ((RegsBut.refl _ s).upd (u := setCal n.val { cal s n.val with inSettle := false } s) rfl).setB _ (by decide)
    · rfl
  · obtain ⟨hport, hentry, htracked, hvalid⟩ := ncalLatch_effect (writeFields .ncal 0x108 v s)
    have hn : (writeFields .ncal 0x108 v s).ncal = s.ncal := (writeFields_within (m := 0x20000028020020) .refl .ncal 0x108 v rfl rfl).same .ncal rfl
    have hl : (ncalLatch (writeFields .ncal 0x108 v s)).ncal = (writeFields .ncal 0x108 v s).ncal := (ncalLatch_within (m := 0x20000) .refl rfl).same .ncal rfl
    refine ⟨hl.trans hn, ?_, ?_⟩
    · rw [htracked, hport, cal_congr hl]
    · rw [hvalid, hport, hentry, cal_congr hl]

end Sys2Proof.Machine
end

section
/-!
PROOFS. The table of associations (R210–R241): what each operation does to its records and to the elements received, and the timers that end them.
-/
namespace Sys2Proof.Machine

/-! Commands of two branches. -/

/-- A command that branches on a condition, stated by an equivalent one. -/
theorem Yields.branch {i : Instr} {s x y : State} {c c' : Prop} [Decidable c] [Decidable c'] {P Q : State → Prop} (hex : exec i s = .next (if c then x else y)) (hc : c' ↔ c)
    (hx : c → P x) (hy : ¬ c → Q y) : Yields i s (fun t => if c' then P t else Q t) := by
  refine Yields.intro hex ?_
  by_cases h : c
  · rw [if_pos h, if_pos (hc.2 h)]
    exact hx h
  · rw [if_neg h, if_neg (fun h' => h (hc.1 h'))]
    exact hy h

/-- A command that does something under a condition and else nothing. -/
theorem Yields.guard {i : Instr} {s x : State} {c c' : Prop} [Decidable c] [Decidable c'] {P : State → Prop} (hex : exec i s = .next (if c then x else s)) (hc : c' ↔ c)
    (hx : c → P x) : Yields i s (fun t => if c' then P t else t = s) := Yields.branch hex hc hx (fun _ => rfl)

/-- A command that does nothing under a condition and else something. -/
theorem Yields.unless {i : Instr} {s x : State} {c c' : Prop} [Decidable c] [Decidable c'] {P : State → Prop} (hex : exec i s = .next (if c then s else x)) (hc : c' ↔ c)
    (hx : ¬ c → P x) : Yields i s (fun t => if c' then t = s else P t) := Yields.branch hex hc (fun _ => rfl) hx

/-- A command that does nothing where a condition fails. -/
theorem Yields.guardNot {i : Instr} {s x : State} {c c' : Prop} [Decidable c] [Decidable c'] {P : State → Prop} (hex : exec i s = .next (if c then s else x)) (hc : c' ↔ ¬ c)
    (hx : ¬ c → P x) : Yields i s (fun t => if c' then P t else t = s) := by
  refine Yields.branch (c := ¬ c) (x := x) (y := s) (hex.trans ?_) hc hx (fun _ => rfl)
  rw [ite_not]

/-! Records and elements. -/

/-- Every record of the table, and the elements received, are as before. -/
def RecordsKept (s t : State) : Prop := t.mac.table = s.mac.table ∧ t.mac.elems = s.mac.elems

theorem RecordsKept.refl (s : State) : RecordsKept s s := ⟨rfl, rfl⟩

theorem RecordsKept.trans {s t u : State} (h : RecordsKept s t) (k : RecordsKept t u) : RecordsKept s u := ⟨k.1.trans h.1, k.2.trans h.2⟩

theorem RecordsKept.of_mac {s t : State} (h : t.mac = s.mac) : RecordsKept s t := ⟨congrArg MacSt.table h, congrArg MacSt.elems h⟩

theorem RecordsKept.foldl {α : Type} {f : State → α → State} (hf : ∀ u x, RecordsKept u (f u x)) (l : List α) (s : State) : RecordsKept s (l.foldl f s) := by
  induction l generalizing s with
  | nil => exact .refl s
  | cons x l ih => exact (hf s x).trans (ih _)

/-- A change of the other parts of the MAC. -/
theorem RecordsKept.setMac {s : State} {m : MacSt} (h1 : m.table = s.mac.table) (h2 : m.elems = s.mac.elems) : RecordsKept s (setMac m s) := ⟨h1, h2⟩

theorem assoc_congr {s t : State} (h : t.mac.table = s.mac.table) (i : Nat) : assoc t i = assoc s i := by
  unfold assoc
  rw [h]

theorem RecordsKept.assoc {s t : State} (h : RecordsKept s t) (i : Nat) : Machine.assoc t i = Machine.assoc s i := assoc_congr h.1 i

theorem RecordsKept.ctx {s t : State} (h : RecordsKept s t) (i : Nat) : Machine.ctx t i = Machine.ctx s i := congrArg Assoc.c (h.assoc i)

theorem mac_mirrorDelta (b : MirrorBody) (s : State) : (mirrorDelta b s).mac = s.mac := (mirrorDelta_within (m := 0x20800000002200) .refl b rfl).same .mac rfl

theorem mac_hostEvent (code i e r : Nat) (l : List Byte) (s : State) : (hostEvent code i e r l s).mac = s.mac :=
  (hostEvent_within (m := 0x20200000001000) .refl code i e r l rfl).same .mac rfl

theorem mac_freeMaps (i : Nat) (s : State) : (freeMaps i s).mac = s.mac := (freeMaps_within (m := 0x800200000) .refl i rfl).same .mac rfl

theorem mac_endCommands (i : Nat) (s : State) : (endCommands i s).mac = s.mac := (endCommands_within (m := 0x20000034018800) .refl i rfl).same .mac rfl

theorem RecordsKept.mirror {s u : State} (h : RecordsKept s u) (b : MirrorBody) : RecordsKept s (mirrorDelta b u) := h.trans (.of_mac (mac_mirrorDelta b u))

theorem addFrame_records (f : Frame) (s : State) : RecordsKept s (addFrame f s) := .setMac rfl rfl

theorem ownFrame_records (k : FrameKind) (i : Nat) (l : List Byte) (s : State) : RecordsKept s (ownFrame k i l s) := addFrame_records _ _

theorem dropFrame_records (id : Nat) (s : State) : RecordsKept s (dropFrame id s) := .setMac rfl rfl

theorem mac_dlDone (r l : Option Nat) (c st n : Nat) (s : State) : (dlDone r l c st n s).mac = s.mac := by
  unfold dlDone
  split <;> rfl

theorem finishFrame_records (f : Frame) (st : Nat) (s : State) : RecordsKept s (finishFrame f st s) :=
  (dropFrame_records _ _).trans (.of_mac (mac_dlDone _ _ _ _ _ _))

theorem dropFrames_records (i : Nat) (s : State) : RecordsKept s (dropFrames i s) := .foldl (fun u f => finishFrame_records f _ u) _ _

theorem setRelay_records (i : Nat) (r : Relay) (s : State) : RecordsKept s (setRelay i r s) := by
  unfold setRelay
  split
  · exact .refl s
  · refine RecordsKept.mirror ?_ _
    exact .setMac rfl rfl

theorem clearRelays_records (i : Nat) (s : State) : RecordsKept s (clearRelays i s) := by
  unfold clearRelays
  exact (setRelay_records _ _ _).trans (.foldl (fun u k => (setRelay_records _ _ _).trans (.of_mac (mac_raise _ _ _))) _ _)

theorem setRoute_records (i : Nat) (r : Option (Bool × Nat)) (s : State) : RecordsKept s (setRoute i r s) := by
  unfold setRoute
  dsimp only
  split
  · split
    · exact .refl s
    · refine RecordsKept.mirror ?_ _
      exact .setMac rfl rfl
  · refine RecordsKept.mirror ?_ _
    exact .setMac rfl rfl

theorem setParent_records (p : ParentSt) (s : State) : RecordsKept s (setParent p s) := by
  unfold setParent
  refine RecordsKept.mirror ?_ _
  exact .setMac rfl rfl

theorem mac_countJob (st : Nat) (s : State) : (countJob st s).mac = s.mac := (countJob_within (m := 0x20000020040000) .refl st rfl).same .mac rfl

theorem toParent_records (l : List Byte) (s : State) : RecordsKept s (toParent l s) := by
  unfold toParent
  split
  · unfold parentFrame parentFrameUnit
    exact (RecordsKept.of_mac (mac_countJob _ _)).trans ((setParent_records _ _).trans
      (.of_mac ((laneSend_within (m := 0x20200000001000) .refl _ _ rfl).same .mac rfl)))
  · exact setParent_records _ _

theorem setParked_records (k : Nat) (c : Ctx) (s : State) : RecordsKept s (setParked k c s) := by
  unfold setParked
  refine RecordsKept.trans ?_ (.of_mac ((mac_setB _ _ _ _).trans (mac_setF _ _ _ _)))
  exact .setMac rfl rfl

theorem treeEnd_records (i : Nat) (c : Ctx) (r : Nat) (s : State) : RecordsKept s (treeEnd i c r s) := by
  unfold treeEnd
  dsimp only
  split
  · exact (ownFrame_records _ _ _ _).trans (setRoute_records _ _ _)
  · split
    · split
      · exact (setRoute_records _ _ _).trans (toParent_records _ _)
      · exact setRoute_records _ _ _
    · exact .refl s

/-! A record written. -/

theorem mac_setAssoc (i : Nat) (a : Assoc) (s : State) : (setAssoc i a s).mac = { s.mac with table := Map.set (fun _ => Assoc.free) s.mac.table i a } := by
  unfold setAssoc
  extract_lets old src s1 s2
  have h2 : s2.mac = s1.mac := by
    unfold s2
    split
    · rfl
    · exact (refreshTable_within (m := 0x20000020008000) .refl rfl).same .mac rfl
  split
  · exact h2
  · exact (mac_mirrorDelta _ _).trans h2

theorem assoc_setAssoc (i : Nat) (a : Assoc) (s : State) (j : Nat) : assoc (setAssoc i a s) j = if j = i then a else assoc s j := by
  unfold assoc
  rw [mac_setAssoc]
  exact Map.get_set _ _ _ _

theorem assoc_setAssoc_self (i : Nat) (a : Assoc) (s : State) : assoc (setAssoc i a s) i = a := by rw [assoc_setAssoc, if_pos rfl]

theorem elems_setAssoc (i : Nat) (a : Assoc) (s : State) : (setAssoc i a s).mac.elems = s.mac.elems := by rw [mac_setAssoc]

/-- The interrupts and the counters of ASC stand when a record is written. -/
theorem setAssoc_field (g : Field) (h : (decide (g.off ≠ offIntStat) && decide (g.off < 0x1000) && fieldsSplit ASC_LIVE.COUNT g 0 0 && fieldsSplit ASC_JOINING.COUNT g 0 0 && fieldsSplit ASC_STATUS.FULL g 0 0) = true)
    (i : Nat) (a : Assoc) (s : State) : FieldKept .asc g 0 s (setAssoc i a s) := by
  simp only [Bool.and_eq_true, decide_eq_true_eq] at h
  obtain ⟨⟨⟨⟨h0, hlt⟩, h1⟩, h2⟩, h3⟩ := h
  have hint : decide (g.offAt 0 % 0x1000 ≠ offIntStat) = true := by
    rw [Field.offAt_zero, Nat.mod_eq_of_lt hlt]
    exact decide_eq_true h0
  have hrefresh : ∀ u, FieldKept .asc g 0 u (refreshTable u) := fun u => by
    unfold refreshTable
    dsimp only
    have k2 := ((FieldKept.refl u (q := .asc) (g := g) (j := 0)).setF .asc ASC_LIVE.COUNT (slotsWhere u (fun a => isLive a.c.state)).length (by decide) (.inr h1)).setF .asc ASC_JOINING.COUNT
      (slotsWhere (setF .asc ASC_LIVE.COUNT (slotsWhere u (fun a => isLive a.c.state)).length u) (fun a => isJoining a.c.state)).length (by decide) (.inr h2)
    split
    · exact k2
    · split
      · exact (k2.setB _ _ _ (by decide) (.inr h3)).raise _ _ hint
      · exact k2.setB _ _ _ (by decide) (.inr h3)
  unfold setAssoc
  extract_lets old src s1 s2
  have h2 : FieldKept .asc g 0 s s2 := by
    unfold s2
    split
    · exact .upd rfl
    · exact FieldKept.trans (.upd rfl) (hrefresh _)
  split
  · exact h2
  · exact h2.trans (.within (q := .asc) (mirrorDelta_within (m := 0x20800000002200) .refl _ rfl) rfl)

/-- A record written leaves the command interface of ASC. -/
theorem setAssoc_cmd (i : Nat) (a : Assoc) (s : State) : CmdKept .asc s (setAssoc i a s) := by
  have hf : ∀ (f : Field) v u, (f.off % 0x1000 ≠ offCmdStat ∧ f.off % 0x1000 ≠ offIntStat) → CmdKept .asc u (setF .asc f v u) := fun _ _ _ h => .setF _ _ _ (.inr h)
  have hrefresh : ∀ u, CmdKept .asc u (refreshTable u) := fun u => by
    unfold refreshTable
    dsimp only
    have k2 : ∀ v w, CmdKept .asc u (setF .asc ASC_JOINING.COUNT w (setF .asc ASC_LIVE.COUNT v u)) := fun v w => (hf _ _ _ (by decide)).trans (hf _ _ _ (by decide))
    split
    · exact k2 _ _
    · split
      · exact (k2 _ _).trans ((hf _ _ _ (by decide)).trans (.raise _ _ _ _))
      · exact (k2 _ _).trans (hf _ _ _ (by decide))
  unfold setAssoc
  extract_lets old src s1 s2
  have h1 : CmdKept .asc s s1 := .upd rfl rfl
  have h2 : CmdKept .asc s s2 := by
    unfold s2
    split
    · exact h1
    · exact h1.trans (hrefresh _)
  split
  · exact h2
  · exact h2.trans (.within (p := .asc) (mirrorDelta_within (m := 0x20800000002200) .refl _ rfl) rfl rfl)

theorem setParked_cmd (k : Nat) (c : Ctx) (s : State) : CmdKept .asc s (setParked k c s) := by
  unfold setParked
  have h1 : ∀ m : MacSt, CmdKept .asc s (setMac m s) := fun _ => .upd rfl rfl
  exact (h1 _).trans ((CmdKept.setF _ _ _ (.inr (by decide))).trans (.setB _ _ _ (.inr (by decide))))

/-! The end of a record (R223). -/

/-- What stands in the place of a record that has ended. -/
def endedRecord (a : Assoc) (reason : Nat) : Assoc :=
  if reason = RSN.FAULT then { Assoc.free with c := { a.c with state := CST.FAULTED }, parked := a.parked } else Assoc.free

/-- A record that ends: what takes its place, the elements that go with it, and the interrupt. -/
theorem endRecord_effect (tell : Bool) (i reason : Nat) (s : State) :
    (∀ j, assoc (endRecord tell i reason s) j = if j = i then endedRecord (assoc s i) reason else assoc s j) ∧
    (endRecord tell i reason s).mac.elems = s.mac.elems.filter (fun x => x.parent || decide (x.index ≠ i)) ∧
    intOf (endRecord tell i reason s) .asc ASC_INT.ENDED = true ∧ (∀ n, intOf s .asc n = true → intOf (endRecord tell i reason s) .asc n = true) := by
  unfold endRecord
  extract_lets a c keep faulted s1 s2 s3 pl s4 m s5 f s6 s7
  have h1 : RecordsKept s s1 := by
    unfold s1
    split
    · exact .refl s
    · exact setParked_records _ _ _
  have h2 : RecordsKept s s2 := h1.trans (by
    unfold s2
    split
    · exact treeEnd_records _ _ _ _
    · exact .refl _)
  have h3 : RecordsKept s s3 := h2.trans (((dropFrames_records _ _).trans (.of_mac (mac_freeMaps _ _))).trans (clearRelays_records _ _))
  have h4 : RecordsKept s s4 := h3.trans (.of_mac rfl)
  have ht5 : s5.mac.table = s.mac.table := h4.1
  have he5 : s5.mac.elems = s.mac.elems.filter (fun x => x.parent || decide (x.index ≠ i)) := congrArg (List.filter _) h4.2
  have h7 : RecordsKept s6 (endCommands i s7) := .of_mac ((mac_endCommands _ _).trans ((mac_hostEvent _ _ _ _ _ _).trans (mac_raise _ _ _)))
  have hrec : (if faulted then { Assoc.free with c := { c with state := CST.FAULTED }, parked := a.parked } else Assoc.free) = endedRecord (assoc s i) reason := by
    unfold endedRecord faulted
    by_cases hr : reason = RSN.FAULT
    · rw [if_pos hr, if_pos (decide_eq_true hr)]
    · rw [if_neg hr, if_neg (by simp [hr])]
  have hs6 : ∀ n, intOf s .asc n = true → intOf s6 .asc n = true := by
    have k1 : CmdKept .asc s s1 := by
      unfold s1
      split
      · exact .refl _ _
      · exact setParked_cmd _ _ _
    have k2 : CmdKept .asc s1 s2 := by
      unfold s2
      split
      · exact .within (p := .asc) (treeEnd_within (m := 0x20a80020043200) .refl _ _ _ rfl) rfl rfl
      · exact .refl _ _
    have k3 : Within 0x20a80820213200 s2 s3 := clearRelays_within (freeMaps_within (dropFrames_within .refl _ rfl) _ rfl) _ rfl
    have k5 : CmdKept .asc s3 s5 := .upd rfl rfl
    exact (((k1.trans k2).trans (.within (p := .asc) k3 rfl rfl)).trans (k5.trans (setAssoc_cmd _ _ _))).int
  have hend : ∀ n, intOf s7 .asc n = true → intOf (endCommands i s7) .asc n = true := fun n hint => by
    have hdone : ∀ (p : Page) k u, intOf u .asc n = true → intOf (done p k u) .asc n = true := fun p k u h => intOf_complete (by simp) _ _ h
    unfold endCommands
    extract_lets u1
    have hu1 : intOf u1 .asc n = true := by
      unfold u1
      split
      · split
        · exact hint
        · split
          · exact hdone _ _ _ hint
          · split
            · exact hdone _ _ _ hint
            · exact hint
      · exact hint
    split
    · split
      · exact hdone _ _ _ hu1
      · exact hu1
    · exact hu1
  have hs7 : ∀ n, intOf s7 .asc n = intOf (raise .asc ASC_INT.ENDED s6) .asc n := fun n =>
    (hostEvent_within (m := 0x20200000001000) .refl _ _ _ _ _ rfl).intOf_addr _ _ rfl
  refine ⟨fun j => ?_, ?_, hend _ ((hs7 _).trans (intOf_raise _ _ _ (by decide))), fun n hn => hend _ ((hs7 _).trans (intOf_raise_mono _ _ _ _ _ (hs6 n hn)))⟩
  · rw [h7.assoc]
    unfold s6
    rw [assoc_setAssoc, hrec, assoc_congr ht5]
  · rw [h7.2]
    unfold s6
    rw [elems_setAssoc, he5]

/-- The record and the elements after an end told to the tree. -/
theorem finishEnd_effect (i reason : Nat) (s : State) : ctx (finishEnd i reason s) i = (endedRecord (assoc s i) reason).c ∧
    (finishEnd i reason s).mac.elems = s.mac.elems.filter (fun x => x.parent || decide (x.index ≠ i)) ∧ intOf (finishEnd i reason s) .asc ASC_INT.ENDED = true := by
  obtain ⟨ha, he, hi, _⟩ := endRecord_effect true i reason s
  exact ⟨congrArg Assoc.c ((ha i).trans (if_pos rfl)), he, hi⟩

theorem endedRecord_free {a : Assoc} {reason : Nat} (h : reason ≠ RSN.FAULT) : (endedRecord a reason).c.state = CST.FREE := by
  unfold endedRecord
  rw [if_neg h]
  rfl

theorem endedRecord_notLive (a : Assoc) (reason : Nat) : isLive (endedRecord a reason).c.state = false := by
  unfold endedRecord
  split <;> rfl

/-- A joining slot given up is free and counted. -/
theorem freeJoining_effect (i : Nat) (s : State) : ctx (freeJoining i s) i = Ctx.zero ∧
    getF (freeJoining i s) .asc ASC_EXPIRE_CNT.COUNT = min (getF s .asc ASC_EXPIRE_CNT.COUNT + 1) 0xFFFFFFFF := by
  unfold freeJoining
  extract_lets s1 m
  have h1 : ∀ m2 : MacSt, m2.table = s1.mac.table → assoc (setMac m2 s1) i = Assoc.free := fun m2 h => by
    refine (assoc_congr (s := s1) h i).trans ?_
    exact assoc_setAssoc_self _ _ _
  refine ⟨congrArg Assoc.c (h1 _ rfl), ?_⟩
  have hk : FieldKept .asc ASC_EXPIRE_CNT.COUNT 0 (count .asc ASC_EXPIRE_CNT.COUNT s) s1 := setAssoc_field _ (by decide) _ _ _
  exact (Eq.trans (hk.regs (regs_setMac _ _)) (getF_count _ _ _ (by decide)))

theorem takeElem_kept {ty : Nat} {s u : State} {e : Elem} (h : takeElem ty s = some (e, u)) : u.mac.table = s.mac.table ∧ u.regs = s.regs := by
  unfold takeElem at h
  split at h
  · cases h
  · cases h
    exact ⟨rfl, rfl⟩

/-! Rekeying (R236, R238). -/

theorem reached_congr {s t : State} (h : t.regs = s.regs) (n : Nat) : reached t n = reached s n := by
  unfold reached
  rw [sfn_congr h]

/-- A job that takes no counter and brings no nonce leaves the records. -/
theorem acceptJob_mac {j : Job} (h1 : issues j = false) (h2 : j.explicit = false) (r p k : Nat) (s : State) : (acceptJob r p k j s).2.mac = s.mac := by
  have hlook : ∀ f u, (cacheLook f u).2.mac = u.mac := fun f u => (cacheLook_within (m := 0x100000040000) .refl f rfl).same .mac rfl
  have hwait : ∀ u, mustWait u j = false := fun u => by
    unfold mustWait
    rw [h1]
    rfl
  have hfix : ∀ h salt gen u, Held.job h = j → (fixNonce h salt gen u).2 = u := fun h salt gen u hj => by
    unfold fixNonce
    dsimp only
    rw [hj, h1, h2, if_neg Bool.false_ne_true, if_neg Bool.false_ne_true]
    split <;> rfl
  unfold acceptJob
  dsimp only
  have h1 : ∀ (b : Bool) f, (if b then cacheLook f s else (false, s)).2.mac = s.mac := fun b f => by
    split
    · exact hlook _ _
    · rfl
  split
  · exact h1 _ _
  · rw [hwait, if_neg Bool.false_ne_true, hfix _ _ _ _ rfl]
    exact h1 _ _

theorem runJob_mac {j : Job} (h1 : issues j = false) (h2 : j.explicit = false) (r : Nat) (s : State) : (runJob r j s).2.2.2.mac = s.mac := by
  have ha := acceptJob_mac h1 h2 r 0 0 s
  have hr : ∀ h u, (jobResult h u).2.2.mac = u.mac := fun h u => (jobResult_within (m := 0x8000000040000) .refl h rfl).same .mac rfl
  unfold runJob
  split
  · exact mac_countJob _ _
  · rcases e : acceptJob r 0 0 j s with ⟨h, s1⟩
    rw [e] at ha
    dsimp only at ha ⊢
    split
    · exact (mac_countJob _ _).trans ha
    · split
      · exact (mac_countJob _ _).trans ha
      · have hs2 := hr h s1
        rcases e2 : jobResult h s1 with ⟨st, out, s2⟩
        rw [e2] at hs2
        dsimp only at hs2 ⊢
        exact (mac_countJob _ _).trans (hs2.trans ha)

/-- The job that makes the key of a rekeying. -/
def rekeyJob (i : Nat) (s : State) : Job := { Job.zero with op := OP.KEYGEN, sel := SEL.CURRENT, index := i, param := bitIf (assoc s i).c.aes256 1 }

/-- A rekeying that starts leaves the elements received; one that may not start leaves the records too. -/
theorem startRekey_effect (i : Nat) (s : State) : (startRekey i s).mac.elems = s.mac.elems ∧
    ((ctx s i).state ≠ CST.ACTIVE ∨ (ctx s i).rekeyPending = true → startRekey i s = s) := by
  have hj := congrArg MacSt.elems (runJob_mac (j := rekeyJob i s) rfl rfl (i % 16) s)
  unfold startRekey
  dsimp only
  refine ⟨?_, fun h => if_pos h⟩
  split
  · rfl
  · split
    · exact hj
    · exact (ownFrame_records _ _ _ _).2.trans ((elems_setAssoc _ _ _).trans hj)

/-- The end of an association by the Hedgehog leaves it in no state but LEAVING, or ended. -/
theorem startEnd_notActive (i reason hold : Nat) (park : Bool) (s : State) : (ctx (startEnd i reason hold park s) i).state ≠ CST.ACTIVE := by
  unfold startEnd
  dsimp only
  split
  next h =>
    rw [show (ctx s i).state = CST.LEAVING from h]
    decide
  next =>
    split
    · rw [(finishEnd_effect i reason s).1]
      exact fun h => absurd (endedRecord_notLive (assoc s i) reason) (by rw [h]; decide)
    · rw [(ownFrame_records _ _ _ _).ctx, ctx, assoc_setAssoc_self]
      exact (by decide : CST.LEAVING ≠ CST.ACTIVE)

/-- What a fault of a record reports before the record ends. -/
theorem eccFault_effect (i : Nat) (s : State) : intOf (finishEnd i RSN.FAULT (raise .asc ASC_INT.ECC_FAULT (diagReport 6 .asc s))) .asc ASC_INT.ECC_FAULT = true ∧
    intOf (finishEnd i RSN.FAULT (raise .asc ASC_INT.ECC_FAULT (diagReport 6 .asc s))) .saf SAF_INT.DIAG = true := by
  obtain ⟨_, _, _, hk⟩ := endRecord_effect true i RSN.FAULT (raise .asc ASC_INT.ECC_FAULT (diagReport 6 .asc s))
  refine ⟨hk _ (intOf_raise _ _ _ (by decide)), ?_⟩
  unfold finishEnd
  rw [(endRecord_within (m := 0x20a8483425ba00) .refl _ _ _ rfl).intOf_addr _ _ rfl]
  exact intOf_raise_mono _ _ _ _ _ (diagReport_int _ _ _)

/-- Settles O37: each clause by the branch of its operation. -/
theorem associationTimers : Obligations.AssociationTimers := by
  unfold Obligations.AssociationTimers
  refine ⟨fun a s j hj => ?_, fun a s => ?_, fun a s => ?_, fun a s e he hr => ?_,
    fun s h => Yields.intro (congrArg Host.Outcome.next (by rw [h])) rfl, fun s u e h hp => ?_, fun a s => ?_, fun a s => ?_, fun a s => ?_, fun a s k hk => ?_⟩
  · refine Yields.guard (x := freeJoining a.toNat s) (congrArg Host.Outcome.next (by rw [hj]; rfl)) Iff.rfl (fun _ => ?_)
    obtain ⟨h1, h2⟩ := freeJoining_effect a.toNat s
    exact ⟨congrArg Ctx.state h1, h2⟩
  · refine Yields.guardNot rfl (by simp) (fun _ => ?_)
    obtain ⟨h1, _⟩ := freeJoining_effect a.toNat (clearRelays a.toNat (freeMaps a.toNat (dropFrames a.toNat s)))
    refine ⟨?_, ?_⟩
    · rw [(RecordsKept.of_mac ((mac_hostEvent _ _ _ _ _ _).trans (mac_raise _ _ _))).ctx, h1]
      rfl
    · rw [(hostEvent_within (m := 0x20200000001000) .refl _ _ _ _ _ rfl).intOf_addr _ _ rfl]
      exact intOf_raise _ _ _ (by decide)
  · refine Yields.guard rfl Iff.rfl (fun _ => ?_)
    obtain ⟨h1, _, h3⟩ := finishEnd_effect a.toNat RSN.TIMEOUT (count .asc ASC_EXPIRE_CNT.COUNT s)
    exact ⟨(congrArg Ctx.state h1).trans (endedRecord_free (by decide)), h3⟩
  · refine Yields.guard (x := finishEnd a.toNat e.reason s) (congrArg Host.Outcome.next (by rw [he]; rfl)) Iff.rfl (fun _ => ?_)
    obtain ⟨h1, _, h3⟩ := finishEnd_effect a.toNat e.reason s
    exact ⟨(congrArg Ctx.state h1).trans (endedRecord_free hr), h3⟩
  · have hc : ctx u e.index = ctx s e.index := congrArg Assoc.c (assoc_congr (takeElem_kept h).1 _)
    refine Yields.branch (c := takesFrames (ctx u e.index).state = true) (x := finishEnd e.index (beAt e.value 0 1) u) (y := u) ?_ (by rw [hc]) (fun _ => ?_) (fun _ => rfl)
    · refine congrArg Host.Outcome.next ?_
      rw [h]
      exact if_neg (by rw [hp]; decide)
    · obtain ⟨h1, h2, h3⟩ := finishEnd_effect e.index (beAt e.value 0 1) u
      exact ⟨by rw [h1]; exact endedRecord_notLive _ _, h3, h2⟩
  · refine Yields.unless rfl Iff.rfl (fun _ => ?_)
    obtain ⟨h1, _, _⟩ := finishEnd_effect a.toNat RSN.FAULT (raise .asc ASC_INT.ECC_FAULT (diagReport 6 .asc s))
    obtain ⟨h2, h3⟩ := eccFault_effect a.toNat s
    exact ⟨congrArg Ctx.state h1, h2, h3⟩
  · exact Yields.guard rfl Iff.rfl (fun _ => congrArg Assoc.c (assoc_setAssoc_self _ _ _))
  · let s1 := setMac { s.mac with elems := s.mac.elems.filter (fun e => !(decide (e.ty = EL.REKEY_REQ) && decide (e.index = a.toNat) && !e.parent)) } s
    have hctx : ctx s1 a.toNat = ctx s a.toNat := congrArg Assoc.c (assoc_congr (s := s) rfl _)
    obtain ⟨he, hs⟩ := startRekey_effect a.toNat s1
    by_cases hd : rekeyDue s a.toNat = true
    · refine Yields.intro (t := startRekey a.toNat s1) (congrArg Host.Outcome.next (if_pos hd)) ⟨he, fun h => ?_⟩
      rw [hs (by rw [hctx]; exact h.resolve_left (by rw [hd]; decide))]
      rfl
    · refine Yields.intro (t := s) (congrArg Host.Outcome.next (if_neg hd)) ⟨?_, fun _ => rfl⟩
      have hnone : s.mac.elems.any (fun e => decide (e.ty = EL.REKEY_REQ) && decide (e.index = a.toNat) && !e.parent) = false := by
        unfold rekeyDue at hd
        simp only [Bool.or_eq_true, not_or, Bool.not_eq_true] at hd
        exact hd.2
      refine (List.filter_eq_self.2 (fun e he => ?_)).symm
      rw [List.any_eq_false] at hnone
      rw [Bool.not_eq_true']
      exact Bool.eq_false_iff.2 (hnone e he)
  · refine Yields.unless (congrArg Host.Outcome.next (by unfold rekeyRetry; rw [hk])) (by simp) (fun _ => ?_)
    split
    · rw [(ownFrame_records _ _ _ _).assoc, assoc_setAssoc_self]
    · exact startEnd_notActive _ _ _ _ _

end Sys2Proof.Machine
end

section
/-!
PROOFS. The commons through the bus (R303–R308), and the commands of ASC (R237–R241).
-/
namespace Sys2Proof.Machine

/-! Bytes of the commons. -/

theorem byteAt_setByte (a : Nat) (b : Byte) (s : State) (x : Nat) : byteAt (setByte a b s) x = if x = a then b else byteAt s x := Map.get_set _ _ _ _

theorem byteAt_congr {s t : State} (h : t.mem = s.mem) (x : Nat) : byteAt t x = byteAt s x := by
  unfold byteAt
  rw [h]

theorem bankPower_congr {s t : State} (h : t.regs = s.regs) (b : Bank) : bankPower t b = bankPower s b := FieldKept.upd (q := .memb b) (g := MEMB_STATUS.POWER) (j := 0) h

theorem busSet_on {s : State} (h : BanksOn s) (a : Nat) (b : Byte) : busSet a b s = setByte a b s := if_neg (h _)

/-- Bytes stored in banks that are on stand where they were stored. -/
theorem byteAt_busSets : ∀ (l : List Byte) (a : Nat) (s : State), BanksOn s → ∀ x, byteAt (busSets a l s) x = if a ≤ x ∧ x < a + l.length then l.getD (x - a) 0 else byteAt s x
  | [], a, s, _, x => by
    rw [if_neg (by simp)]
    rfl
  | b :: l, a, s, h, x => by
    have h1 : BanksOn (setByte a b s) := h
    show byteAt (busSets (a + 1) l (busSet a b s)) x = _
    rw [busSet_on h, byteAt_busSets l (a + 1) _ h1, byteAt_setByte]
    by_cases h0 : x = a
    · subst h0
      rw [if_neg (by omega), if_pos rfl, if_pos (by simp), Nat.sub_self]
      rfl
    · rw [if_neg h0]
      by_cases hx : a + 1 ≤ x ∧ x < a + 1 + l.length
      · obtain ⟨k, hk⟩ := Nat.exists_eq_add_of_le hx.1
        have e1 : x - (a + 1) = k := by omega
        have e2 : x - a = k + 1 := by omega
        rw [if_pos hx, if_pos (by simp only [List.length_cons]; omega), e1, e2]
        rfl
      · rw [if_neg hx, if_neg (by simp only [List.length_cons]; omega)]

/-- A bank that is touched while on stays on, and no byte changes. -/
theorem touchBank_on {s : State} (h : BanksOn s) (b : Bank) : BanksOn (touchBank b s) ∧ (touchBank b s).mem = s.mem := by
  unfold touchBank
  split
  next h2 => exact absurd h2 (h b)
  next =>
    refine ⟨fun b2 => ?_, mem_setF _ _ _ _⟩
    by_cases hb : b2 = b
    · subst hb
      have e : bankPower (setF (.memb b2) MEMB_STATUS.POWER 0 s) b2 = 0 := getI_setI_self _ _ _ _ _ (by decide)
      rw [e]
      decide
    · have e : bankPower (setF (.memb b) MEMB_STATUS.POWER 0 s) b2 = bankPower s b2 := getI_setI_page _ _ _ _ _ _ (fun e => hb (by injection e))
      rw [e]
      exact h b2
  next => exact ⟨h, rfl⟩

theorem touchArea_on {s : State} (h : BanksOn s) (a n : Nat) : BanksOn (touchArea a n s) ∧ (touchArea a n s).mem = s.mem := by
  have key : ∀ (l : List Bank) (u : State), BanksOn u → BanksOn (l.foldl (fun t b => touchBank b t) u) ∧ (l.foldl (fun t b => touchBank b t) u).mem = u.mem := by
    intro l
    induction l with
    | nil => exact fun u hu => ⟨hu, rfl⟩
    | cons b l ih =>
      intro u hu
      obtain ⟨h1, h2⟩ := touchBank_on hu b
      obtain ⟨h3, h4⟩ := ih _ h1
      exact ⟨h3, h4.trans h2⟩
  exact key _ s h

theorem byteAt_busWrite {s : State} (h : BanksOn s) (a : Nat) (l : List Byte) (x : Nat) :
    byteAt (busWrite a l s) x = if a ≤ x ∧ x < a + l.length then l.getD (x - a) 0 else byteAt s x := by
  obtain ⟨h1, h2⟩ := touchArea_on h a l.length
  unfold busWrite
  rw [byteAt_busSets _ _ _ h1, byteAt_congr h2]

/-- What is written over the bus is read there. -/
theorem bytesAt_busWrite {s : State} (h : BanksOn s) (a : Nat) {l : List Byte} {n : Nat} (hn : n ≤ l.length) : bytesAt (busWrite a l s) a n = l.take n := by
  unfold bytesAt
  refine List.ext_getElem (by simp [hn]) (fun i h1 h2 => ?_)
  rw [List.length_map, List.length_range] at h1
  rw [List.getElem_map, List.getElem_range, byteAt_busWrite h, if_pos (by omega), Nat.add_sub_cancel_left, List.getElem_take]
  exact List.getElem_eq_getD 0 |>.symm

theorem bytesAt_congr {s t : State} (h : t.mem = s.mem) (a n : Nat) : bytesAt t a n = bytesAt s a n := by
  unfold bytesAt
  simp only [byteAt_congr h]

/-- Bytes read over the bus, from the commons and the power of their banks. -/
theorem busBytes_congr {s t : State} (hm : t.mem = s.mem) (hp : ∀ b, bankPower t b = bankPower s b) (a n : Nat) : busBytes t a n = busBytes s a n := by
  unfold busBytes busByte
  simp only [byteAt_congr hm, hp]

/-! The power of the banks stands when a command is issued on another page. -/

theorem JustIssued.bankPower {p : Page} {o : Outstanding} {s u : State} (h : JustIssued p o s u) (hp : ∀ b, (Page.memb b) ≠ p) (b : Bank) :
    Machine.bankPower u b = Machine.bankPower s b := getI_congr (h.past _ _ (by decide) (.inl (hp b)) (by simp))

theorem JustIssued.banksOn {p : Page} {o : Outstanding} {s u : State} (h : JustIssued p o s u) (hp : ∀ b, (Page.memb b) ≠ p) (hs : BanksOn s) : BanksOn u := fun b => by
  rw [h.bankPower hp]
  exact hs b

/-! What the commands of ASC read. -/

theorem findParked_congr {s t : State} (h : t.mac = s.mac) (ep : Nat) : findParked t ep = findParked s ep := by
  unfold findParked
  rw [h]

theorem findSlot_congr {s t : State} (h : t.mac = s.mac) (ep i : Nat) (p : Nat → Bool) : findSlot t ep i p = findSlot s ep i p := by
  unfold findSlot
  rw [h]

theorem freeParked_congr {s t : State} (h : t.mac = s.mac) : freeParked t = freeParked s := by
  unfold freeParked
  rw [h]

theorem parkedRec_congr {s t : State} (h : t.mac.parked = s.mac.parked) (i : Nat) : parkedRec t i = parkedRec s i := by
  unfold parkedRec
  rw [h]

theorem ctx_congr {s t : State} (h : t.mac = s.mac) (i : Nat) : ctx t i = ctx s i := congrArg Assoc.c (assoc_congr (congrArg MacSt.table h) i)

theorem jobsOn_congr {s t : State} (h : t.cip = s.cip) (i : Nat) : jobsOn t i = jobsOn s i := by
  unfold jobsOn
  rw [h]

theorem promoted_congr {s t : State} (h : t.mac = s.mac) (k : Nat) : promoted t k = promoted s k := by
  unfold promoted slotsWhere
  rw [h]

theorem tmapField_congr {s t : State} (h : t.bbw = s.bbw) (a : Nat) : tmapField t a = tmapField s a := by
  unfold tmapField tmapWord
  rw [h]

/-! What they write. -/

theorem parkedRec_setParked_self (k : Nat) (c : Ctx) (s : State) : parkedRec (setParked k c s) k = c := by
  have e : (setParked k c s).mac.parked = Map.set (fun _ => Ctx.zero) s.mac.parked k c := by
    unfold setParked
    rw [mac_setB, mac_setF]
    rfl
  unfold parkedRec
  rw [e]
  exact Map.get_set_self _ _ _

/-- ASC_RESULT shows a record found, and nothing else changes. -/
theorem setResult_effect (b : Bool) (k : Nat) (s : State) : CmdKept .asc s (setResult b k s) ∧ (setResult b k s).mac = s.mac ∧
    isSet (setResult b k s) .asc ASC_RESULT.PARKED = b ∧ getF (setResult b k s) .asc ASC_RESULT.INDEX = k % 2 ^ 25 := by
  refine ⟨(CmdKept.setF _ _ _ (.inr (by decide))).trans (.setB _ _ _ (.inr (by decide))), (mac_setB _ _ _ _).trans (mac_setF _ _ _ _), isSet_setB_self _ _ _ _ (by decide), ?_⟩
  exact (getF_setB_split _ _ _ (by decide)).trans ((getF_setF_self _ _ _ _ (by decide)).trans (Nat.mod_mod _ _))

/-- A command of ASC that ends with a record shown. -/
theorem doneResult {o : Outstanding} {s u v : State} (hu : JustIssued .asc o s u) (hk : CmdKept .asc u v) (b : Bool) (k : Nat) :
    Completed (done .asc CODE.OK (setResult b k v)) .asc CODE.OK ∧ isSet (done .asc CODE.OK (setResult b k v)) .asc ASC_RESULT.PARKED = b ∧
    getF (done .asc CODE.OK (setResult b k v)) .asc ASC_RESULT.INDEX = k % 2 ^ 25 ∧ (done .asc CODE.OK (setResult b k v)).mac = v.mac := by
  obtain ⟨h1, h2, h3, h4⟩ := setResult_effect b k v
  have hf : ∀ f : Field, (decide (0x100 ≤ f.offAt 0) && decide (f.offAt 0 < 0x1000) || decide (f.offAt 0 = offStatus) && decide (f.hi < 30) && decide (f.lo ≤ f.hi)) = true →
      getF (done .asc CODE.OK (setResult b k v)) .asc f = getF (setResult b k v) .asc f := fun f h => getI_complete _ _ _ _ _ _ _ (by simp) h
  refine ⟨hu.code (hk.trans h1) (by decide) 0, ?_, ?_, (mac_done _ _ _).trans h2⟩
  · refine Eq.trans ?_ h3
    unfold isSet
    rw [hf _ (by decide)]
  · rw [← h4]
    exact hf _ (by decide)

theorem setCtxFlags_kept (v : Nat) (c : Ctx) : (setCtxFlags v c).epId = c.epId ∧ (setCtxFlags v c).state = c.state ∧ (setCtxFlags v c).sup = c.sup := ⟨rfl, rfl, rfl⟩

theorem touchArea_cmd (a n : Nat) (s : State) : CmdKept .asc s (touchArea a n s) := .within (p := .asc) (touchArea_within (m := 0x20000022000000) .refl a n rfl) rfl rfl

theorem mac_touchArea (a n : Nat) (s : State) : (touchArea a n s).mac = s.mac := (touchArea_within (m := 0x20000022000000) .refl a n rfl).same .mac rfl

/-! RELEASE and PARK. -/

theorem latch_opcode (p : Page) (op : Nat) (src : CmdSrc) (s : State) : (latch p op src s).opcode = op := by cases src <;> rfl

theorem latch_phase (p : Page) (op : Nat) (src : CmdSrc) (s : State) : (latch p op src s).phase = 0 := by cases src <;> rfl

theorem setPhase_records (p : Page) (n : Nat) (s : State) : (setPhase p n s).mac = s.mac ∧ (setPhase p n s).regs = s.regs := by
  unfold setPhase
  split <;> exact ⟨rfl, rfl⟩

/-- An association that RELEASE or PARK takes up is no longer ACTIVE, and one without a session waits in LEAVING. -/
theorem releaseSlot_effect (o : Outstanding) (s : State) :
    let i := o.a0.toNat % 2 ^ 20
    (ctx (releaseSlot o s) i).state ≠ CST.ACTIVE ∧ ((ctx s i).state = CST.ACTIVE → (ctx s i).session = false →
      (ctx (releaseSlot o s) i).state = CST.LEAVING ∧ (assoc (releaseSlot o s) i).ending = some ⟨RSN.HOST, decide (o.opcode = 5), sfn s⟩) := by
  intro i
  obtain ⟨hm, hr⟩ := setPhase_records .asc 1 s
  have ha : ∀ j, assoc (setPhase .asc 1 s) j = assoc s j := assoc_congr (congrArg MacSt.table hm)
  have hend : ∀ (a : Assoc) r, r ≠ RSN.FAULT → (endedRecord a r).c.state ≠ CST.ACTIVE := fun a r h => by
    rw [endedRecord_free h]
    decide
  unfold releaseSlot
  extract_lets a s1
  split
  next hact =>
    refine ⟨startEnd_notActive _ _ _ _ _, fun _ hses => ?_⟩
    have e : startEnd i RSN.HOST 0 (decide (o.opcode = 5)) s1 = ownFrame .leave i (element EL.LEAVE ([byteOf RSN.HOST] ++ beBytes 2 0))
        (setAssoc i { a with c := { a.c with state := CST.LEAVING }, ending := some ⟨RSN.HOST, decide (o.opcode = 5), sfn s⟩, rekey := none } (dropFrames i s1)) := by
      unfold startEnd
      dsimp only
      rw [show assoc s1 i = a from ha i, if_neg (by rw [hact]; decide), if_neg (by rw [show a.c.session = false from hses]; decide), show sfn s1 = sfn s from sfn_congr hr]
    have hrec : assoc (startEnd i RSN.HOST 0 (decide (o.opcode = 5)) s1) i =
        { a with c := { a.c with state := CST.LEAVING }, ending := some ⟨RSN.HOST, decide (o.opcode = 5), sfn s⟩, rekey := none } := by
      rw [e, (ownFrame_records _ _ _ _).assoc]
      exact assoc_setAssoc_self _ _ _
    exact ⟨by rw [ctx, hrec], by rw [hrec]⟩
  next hact =>
    refine ⟨?_, fun h => absurd h hact⟩
    split
    · rw [show ctx s1 i = ctx s i from congrArg Assoc.c (ha i)]
      exact hact
    · split
      · rw [(RecordsKept.of_mac (mac_endCommands _ _)).ctx, ctx, assoc_setAssoc_self]
        decide
      · rw [(finishEnd_effect _ _ _).1]
        exact hend _ _ (by decide)

/-- RELEASE and PARK wait while a job of the association runs, and else take it up. -/
theorem resumeRelease_eq {p : Bool} {src : CmdSrc} {s u : State} (hu : JustIssued .asc (latch .asc (if p then 5 else 4) src s) s u) :
    resumeRelease u = if jobsOn s ((latch .asc (if p then 5 else 4) src s).a0.toNat % 2 ^ 20) then u else releaseSlot (latch .asc (if p then 5 else 4) src s) u := by
  have hop : ((latch .asc (if p then 5 else 4) src s).opcode = 4 ∨ (latch .asc (if p then 5 else 4) src s).opcode = 5) ∧ (latch .asc (if p then 5 else 4) src s).phase = 0 := by
    rw [latch_opcode, latch_phase]
    exact ⟨by cases p <;> decide, rfl⟩
  unfold resumeRelease
  rw [hu.issued.out]
  dsimp only
  rw [jobsOn_congr (hu.within.same .cip rfl)]
  cases jobsOn s ((latch .asc (if p then 5 else 4) src s).a0.toNat % 2 ^ 20) with
  | true => exact (if_neg (fun h => absurd h.2.2 (by decide))).trans (if_pos rfl).symm
  | false => exact (if_pos ⟨hop.1, hop.2, rfl⟩).trans (if_neg Bool.false_ne_true).symm

/-! ROTATE_BKEY. -/

theorem sendBkey_keys (i : Nat) (s : State) : (sendBkey i s).mac.bnext = s.mac.bnext ∧ (sendBkey i s).mac.bkey = s.mac.bkey ∧ (sendBkey i s).regs = s.regs ∧ (sendBkey i s).cmds = s.cmds := by
  unfold sendBkey
  split <;> exact ⟨rfl, rfl, rfl, rfl⟩

theorem sendBkeys_keys : ∀ (l : List Nat) (s : State), let t := l.foldl (fun t i => sendBkey i t) s
    t.mac.bnext = s.mac.bnext ∧ t.mac.bkey = s.mac.bkey ∧ t.regs = s.regs ∧ t.cmds = s.cmds
  | [], _ => ⟨rfl, rfl, rfl, rfl⟩
  | i :: l, s => by
    obtain ⟨a, b, c, d⟩ := sendBkey_keys i s
    obtain ⟨a2, b2, c2, d2⟩ := sendBkeys_keys l (sendBkey i s)
    exact ⟨a2.trans a, b2.trans b, c2.trans c, d2.trans d⟩

/-- The next beacon key shown as pending and sent to each association. -/
theorem sendKeys_effect (m : MacSt) (l : List Nat) (s : State) : let t := l.foldl (fun t i => sendBkey i t) (setB .asc ASC_STATUS.BKEY_PENDING true (setMac m s))
    CmdKept .asc s t ∧ t.mac.bnext = m.bnext ∧ t.mac.bkey = m.bkey := by
  obtain ⟨h1, h2, h3, h4⟩ := sendBkeys_keys l (setB .asc ASC_STATUS.BKEY_PENDING true (setMac m s))
  rw [mac_setB] at h1 h2
  have hm : CmdKept .asc s (setMac m s) := .upd rfl rfl
  exact ⟨(hm.trans (.setB _ _ _ (.inr (by decide)))).trans (.upd h3 h4), h1, h2⟩

/-- A rotation holds the next beacon key and shows that it is pending. -/
theorem rotateBkey_effect (s : State) : CmdKept .asc s (rotateBkey s) ∧ (rotateBkey s).mac.bnext.isSome = true ∧ (rotateBkey s).mac.bkey = s.mac.bkey := by
  have hw : ∀ n u, Within 0x8000000040000 u (randBytes n u).2 := fun n u => randBytes_within .refl n rfl
  unfold rotateBkey
  have w1 := hw 16 s
  rcases e1 : randBytes 16 s with ⟨k, s1⟩
  rw [e1] at w1
  have w2 := hw 4 s1
  dsimp only
  rcases e2 : randBytes 4 s1 with ⟨salt, s2⟩
  rw [e2] at w2
  obtain ⟨h1, h2, h3⟩ := sendKeys_effect { s2.mac with bnext := some (⟨k, ofBE salt, s.mac.bkey.elim 0 (fun b => (b.gen + 1) % 8), none⟩, applySfn s) }
    (slotsWhere (setB .asc ASC_STATUS.BKEY_PENDING true (setMac { s2.mac with bnext := some (⟨k, ofBE salt, s.mac.bkey.elim 0 (fun b => (b.gen + 1) % 8), none⟩, applySfn s) } s2))
      (fun a => decide (a.c.state = CST.ACTIVE) && !a.c.session)) s2
  refine ⟨((CmdKept.within (p := .asc) w1 rfl rfl).trans (.within (p := .asc) w2 rfl rfl)).trans h1, ?_, ?_⟩
  · rw [h2]
    rfl
  · have hb : s2.mac.bkey = s.mac.bkey := congrArg MacSt.bkey ((w2.same .mac rfl).trans (w1.same .mac rfl))
    exact h3.trans hb

/-! What a copy of a record holds. -/

theorem length_leBytes : ∀ n v, (leBytes n v).length = n
  | 0, _ => rfl
  | n + 1, v => by rw [leBytes, List.length_cons, length_leBytes n]

theorem length_beBytes (n v : Nat) : (beBytes n v).length = n := by rw [beBytes, List.length_reverse, length_leBytes]

theorem length_padTo {n : Nat} {l : List Byte} (h : l.length ≤ n) : (padTo n l).length = n := by
  rw [padTo, List.length_append, List.length_replicate]
  omega

theorem length_tmapField (s : State) (a : Nat) : (tmapField s a).length = 16 := by simp [tmapField, length_beBytes]

theorem length_ctxBytes (c : Ctx) {tm : List Byte} (h : tm.length = 16) (k1 k2 k3 : List Byte) : (ctxBytes c tm k1 k2 k3).length = 256 := by
  have hp : ∀ n (l : List Byte), (padTo n (l.take n)).length = n := fun n l => length_padTo (by simp)
  unfold ctxBytes
  simp only [List.length_append, List.length_cons, List.length_nil, length_beBytes, length_leBytes, h, hp]

/-- Settles O38: each command by what its table of codes says of the record named. -/
theorem associationCommands : Obligations.AssociationCommands := by
  unfold Obligations.AssociationCommands
  refine ⟨fun src s ht => Yields.issue rfl ht (fun u hu => ?_), fun src s ht => Yields.issue rfl ht (fun u hu => ?_), fun src s ht => Yields.issue rfl ht (fun u hu => ?_),
    fun park src s ht => Yields.issue (op := if park then 5 else 4) (run := runRelease) (by cases park <;> rfl) ht (fun u hu => ?_), fun src s ht => Yields.issue rfl ht (fun u hu => ?_),
    fun src s ht => Yields.issue rfl ht (fun u hu => ?_), fun src s ht => Yields.issue rfl ht (fun u hu => ?_), fun src s ht => Yields.issue rfl ht (fun u hu => ?_)⟩
  all_goals
    have hmac : u.mac = s.mac := hu.within.same .mac rfl
    have hend : ∀ {k : Nat}, k < 256 → Completed (done .asc k u) .asc k ∧ (done .asc k u).mac = s.mac := fun h => ⟨hu.done h 0, (mac_done _ _ _).trans hmac⟩
  case refine_1 =>
    extract_lets o ep
    have hbytes : busBytes u o.a0.toNat 40 = busBytes s o.a0.toNat 40 := busBytes_congr (hu.within.same .mem rfl) (hu.bankPower (by simp)) _ _
    have htm : (touchArea o.a0.toNat 40 u).mac = s.mac := (mac_touchArea _ _ _).trans hmac
    unfold runProvision
    dsimp only
    rw [hbytes, findParked_congr hmac, findSlot_congr hmac, freeParked_congr htm]
    cases hin : inHostArea o.a0.toNat 40 with
    | false => exact hend (by decide)
    | true =>
      rw [if_neg (by decide : ¬ (!true) = true), if_neg (by decide : ¬ true = false)]
      split
      · exact ⟨hu.code (touchArea_cmd _ _ _) (by decide) 0, (mac_done _ _ _).trans htm⟩
      · intro k hk
        rw [hk]
        dsimp only
        obtain ⟨h1, h2, h3, h4⟩ := doneResult hu (v := setParked k (setCtxFlags (beAt (busBytes s o.a0.toNat 40) 24 2) { Ctx.zero with
          state := CST.PROVISIONED, epId := ep, jk := wrapField u.cip.swk (slice (busBytes s o.a0.toNat 40) 8 16) 24,
          sup := beAt (busBytes s o.a0.toNat 40) 26 2, hostTag := beAt (busBytes s o.a0.toNat 40) 32 8 }) (touchArea o.a0.toNat 40 u))
          ((touchArea_cmd _ _ _).trans (setParked_cmd _ _ _)) true k
        have hrec := (parkedRec_congr (congrArg MacSt.parked h4) k).trans (parkedRec_setParked_self _ _ _)
        exact ⟨h1, congrArg Ctx.epId hrec, congrArg Ctx.state hrec, h2, h3⟩
  case refine_2 =>
    extract_lets o i
    have hbbw : u.bbw = s.bbw := hu.within.same .bbw rfl
    have hmem : u.mem = s.mem := hu.within.same .mem rfl
    have hpr : parkedRec u i = parkedRec s i := parkedRec_congr (congrArg MacSt.parked hmac) i
    have hk : ∀ l, CmdKept .asc u (busWrite o.a2.toNat l u) := fun l => .within (p := .asc) (busWrite_within (m := 0x20020022000000) .refl _ l rfl) rfl rfl
    have hwm : ∀ l, (busWrite o.a2.toNat l u).mac = s.mac := fun l => ((busWrite_within (m := 0x20020022000000) .refl _ l rfl).same .mac rfl).trans hmac
    have hfail : ∀ {k : Nat}, k < 256 → (done .asc k u).mac = s.mac ∧ Completed (done .asc k u) .asc k ∧ (done .asc k u).mem = s.mem := fun h =>
      ⟨(hend h).2, (hend h).1, (mem_done _ _ _).trans hmem⟩
    unfold runReadCtx
    dsimp only
    rw [hpr, ctx_congr hmac, tmapField_congr hbbw, hmac]
    have hgone : (if argParked o then decide (parkedSize ≤ i) || !(Map.keys s.mac.parked).contains i
        else decide (tableSize ≤ i) || decide ((if argParked o then parkedRec s i else ctx s i).state = CST.FREE)) =
        (if argParked o then decide (parkedSize ≤ i) || !(Map.keys s.mac.parked).contains i else decide (tableSize ≤ i) || decide ((ctx s i).state = CST.FREE)) := by
      cases argParked o <;> rfl
    rw [hgone]
    generalize (if argParked o then decide (parkedSize ≤ i) || !(Map.keys s.mac.parked).contains i else decide (tableSize ≤ i) || decide ((ctx s i).state = CST.FREE)) = gone
    cases hin : inHostArea o.a2.toNat 256 with
    | false => exact hfail (by decide)
    | true =>
      rw [if_neg (by decide : ¬ (!true) = true), if_neg (by decide : ¬ true = false)]
      cases gone with
      | true => exact hfail (by decide)
      | false =>
        rw [if_neg (by decide : ¬ false = true), if_neg (by decide : ¬ false = true)]
        have hlen : (if argParked o then List.replicate 16 (0 : Byte) else tmapField s i).length = 16 := by
          split
          · rfl
          · exact length_tmapField _ _
        refine ⟨(mac_done _ _ _).trans (hwm _), hu.code (hk _) (by decide) 0, fun hb => ?_⟩
        rw [bytesAt_congr (mem_done _ _ _)]
        exact bytesAt_busWrite (hu.banksOn (by simp) hb) _ (by rw [length_ctxBytes _ hlen])
  case refine_3 =>
    extract_lets o ep
    unfold runFind
    dsimp only
    rw [findSlot_congr hmac, findParked_congr hmac]
    have hres : ∀ b k, (done .asc CODE.OK (setResult b k u)).mac = s.mac ∧ Completed (done .asc CODE.OK (setResult b k u)) .asc CODE.OK ∧
        isSet (done .asc CODE.OK (setResult b k u)) .asc ASC_RESULT.PARKED = b ∧ getF (done .asc CODE.OK (setResult b k u)) .asc ASC_RESULT.INDEX = k % 2 ^ 25 := fun b k => by
      obtain ⟨h1, h2, h3, h4⟩ := doneResult hu (v := u) (.refl _ _) b k
      exact ⟨h4.trans hmac, h1, h2, h3⟩
    cases hs : findSlot s ep tableSize (fun st => decide (st ≠ CST.FREE)) with
    | some k =>
      obtain ⟨h1, h2⟩ := hres false k
      exact ⟨h1, fun k2 hk => Option.some.inj hk ▸ h2, fun h => (by cases h)⟩
    | none =>
      refine ⟨?_, fun k hk => (by cases hk), fun _ => ?_⟩
      · split
        · exact (hres _ _).1
        · exact (hres _ _).1
        · exact (hend (by decide)).2
      · cases hp : findParked s ep with
        | some k => exact ⟨fun k2 hk => Option.some.inj hk ▸ (hres true k).2, fun h => (by cases h)⟩
        | none => exact ⟨fun k hk => (by cases hk), fun _ => ⟨hu.done (by decide) 0, (hu.regsBut []).complete _ _ _⟩⟩
  case refine_4 =>
    extract_lets o i
    unfold runRelease
    dsimp only
    rw [ctx_congr hmac]
    split
    · exact hend (by decide)
    next hi =>
      have hlt : i % 2 ^ 20 = i := Nat.mod_eq_of_lt (Nat.not_le.1 (fun h => hi (.inl h)))
      split
      · exact hend (by decide)
      · have hres : resumeRelease u = if jobsOn s i = true then u else releaseSlot o u := by
          rw [resumeRelease_eq hu, ← hlt]
        rw [hres]
        split
        · exact ⟨hu.issued, hmac⟩
        · obtain ⟨h1, h2⟩ := releaseSlot_effect o u
          rw [show o.a0.toNat % 2 ^ 20 = i from hlt] at h1 h2
          refine ⟨h1, fun ha hses => ?_⟩
          rw [ctx_congr hmac] at h2
          have hsfn : sfn u = sfn s := getI_congr (hu.past .bcn _ (by decide) (.inl (by simp)) (by simp))
          have hop : decide (o.opcode = 5) = park := by
            rw [show o.opcode = _ from latch_opcode _ _ _ _]
            cases park <;> rfl
          have := h2 ha hses
          rwa [hsfn, hop] at this
  case refine_5 =>
    extract_lets o i
    unfold runRekey
    dsimp only
    rw [ctx_congr hmac]
    split
    · exact hend (by decide)
    · split
      · exact hend (by decide)
      · intro k hk hp
        have hst : startRekey i u = u := (startRekey_effect i u).2 (.inr (by rw [ctx_congr hmac]; exact hp))
        rw [hst, assoc_congr (congrArg MacSt.table hmac), hk]
        dsimp only
        split
        · exact hu.done (by decide) 0
        · exact hu.issued
  case refine_6 =>
    intro k
    unfold runDeleteParked
    dsimp only
    rw [hmac, promoted_congr hmac]
    cases hc : (Map.keys s.mac.parked).contains k with
    | false => exact hend (by decide)
    | true =>
      rw [if_neg (by decide : ¬ (!true) = true), if_neg (by decide : ¬ true = false)]
      split
      · exact hend (by decide)
      · refine ⟨hu.code (setParked_cmd _ _ _) (by decide) 0, ?_, ?_⟩
        · exact (parkedRec_congr (congrArg MacSt.parked (mac_done _ _ _)) k).trans (parkedRec_setParked_self _ _ _)
        · rw [mac_done, (setParked_records _ _ _).1, hmac]
  case refine_7 =>
    extract_lets o i sup
    unfold runSetRecord
    dsimp only
    rw [ctx_congr hmac, hmac]
    split
    · exact hend (by decide)
    · split
      · split
        · refine ⟨hu.code (setParked_cmd _ _ _) (by decide) 0, ?_⟩
          exact congrArg Ctx.sup ((parkedRec_congr (congrArg MacSt.parked (mac_done _ _ _)) i).trans (parkedRec_setParked_self _ _ _))
        · exact hend (by decide)
      · split
        · exact hend (by decide)
        · have hrec : ∀ c, ctx (done .asc CODE.OK (setCtx i c u)) i = c := fun c => (ctx_congr (mac_done _ _ _) i).trans (congrArg Assoc.c (assoc_setAssoc_self _ _ _))
          rw [hrec]
          exact ⟨hu.code (setAssoc_cmd _ _ _) (by decide) 0, rfl, rfl⟩
  case refine_8 =>
    unfold runRotateBkey
    rw [show isSet u .asc ASC_STATUS.BKEY_PENDING = isSet s .asc ASC_STATUS.BKEY_PENDING from hu.status.isSet .asc (by simp) _ rfl (by decide) (by decide),
      show isSet u .cip CIP_STATUS.DRBG_OK = isSet s .cip CIP_STATUS.DRBG_OK from hu.status.isSet .cip (by simp) _ rfl (by decide) (by decide)]
    split
    · exact hend (by decide)
    · cases hd : isSet s .cip CIP_STATUS.DRBG_OK with
      | false => exact hend (by decide)
      | true =>
        rw [if_neg (by decide : ¬ (!true) = true), if_neg (by decide : ¬ true = false)]
        obtain ⟨h1, h2, h3⟩ := rotateBkey_effect u
        obtain ⟨r1, _, r3, r4⟩ := doneResult hu h1 false (applySfn u)
        have hsfn : applySfn u = applySfn s := by
          have e : sfn u = sfn s := getI_congr (hu.past .bcn _ (by decide) (.inl (by simp)) (by simp))
          rw [applySfn, e, applySfn]
        refine ⟨r1, by rw [r4]; exact h2, by rw [r4, h3, hmac], ?_⟩
        rw [← hsfn]
        exact r3

end Sys2Proof.Machine
end

section
/-!
PROOFS. Relay elements (R262): the frames that go out over a lane after an element is taken can end the very association that sent it.
-/
namespace Sys2Proof.Machine

/-- An element of association 0 that tells the depth 1 of its beacon. -/
def depthElem : Elem := ⟨0, false, EL.RELAY, [5, 0, 0, 0, 0, 1], false⟩

/-- A session in association 0 whose counter is used up. Its key field is the bare check value of the key wrap, so it opens to the empty key. -/
def spentSession : Assoc :=
  { Assoc.free with c := { Ctx.zero with state := CST.ACTIVE, session := true, exhausted := true, key := kwIv } }

/-- A state with the element received, a frame of the same association waiting for lane 0, the lane up and a pipeline open. -/
def spentSessionState : State :=
  let s := State.reset
  let mac := { s.mac with table := [(0, spentSession)], elems := [depthElem], frames := [{ Frame.blank with via := some 0 }] }
  setB (.lan 0) LAN_STATUS.UP true (setB .cip CIP_STATUS.P0_OK true { s with mac := mac, cip := { s.cip with kwk := [1] } })

/-- The same state with the element taken. -/
def spentSessionTaken : State := setMac { spentSessionState.mac with elems := spentSessionState.mac.elems.erase depthElem } spentSessionState

theorem spentSession_takes : takeElem EL.RELAY spentSessionState = some (depthElem, spentSessionTaken) := rfl

/-- The job of the waiting frame answers that the counter is used up, which ends the session (R232) and with it the relay record just written. -/
theorem spentSession_depth : (relay (flushLanes (relayUp depthElem spentSessionTaken)) 0).bdepth = 0 := by decide +kernel

/-- Refutes O39: the depth of a relay element is not kept when a frame of its association, sent over a lane in the same step, finds the counter used up. -/
theorem not_routesAndTree : ¬ Obligations.RoutesAndTree := by
  unfold Obligations.RoutesAndTree
  rintro ⟨-, -, -, -, -, -, -, -, hrelay, -⟩
  obtain ⟨t, hex, hdepth⟩ := hrelay spentSessionState spentSessionTaken depthElem spentSession_takes
  have ht : flushLanes (relayUp depthElem spentSessionTaken) = t := Host.Outcome.next.inj hex
  have hone : (relay t 0).bdepth = 1 := hdepth rfl (by decide) (by decide) (by decide)
  rw [← ht, spentSession_depth] at hone
  exact absurd hone (by decide)

end Sys2Proof.Machine
end

section
/-!
PROOFS. Kills and trips (R46, R472–R475, R479, R482, R497, R498): the causes of a kill, what it shows and which drivers it turns off.
-/
namespace Sys2Proof.Machine

/-! Drivers turned off one after another. -/

/-- An action on a port that turns its own driver off and no other. -/
def StopsOwn (f : Nat → State → State) : Prop := ∀ n k s, n < 52 → k < 52 → driverOn (f n s) k = (driverOn s k && decide (k ≠ n))

theorem driverOn_stopEach {f : Nat → State → State} (hf : StopsOwn f) {l : List Nat} (hl : ∀ n ∈ l, n < 52) {k : Nat} (hk : k < 52) (s : State) :
    driverOn (l.foldl (fun t n => if driverOn t n then f n t else t) s) k = (driverOn s k && decide (k ∉ l)) := by
  induction l generalizing s with
  | nil => simp
  | cons n l ih =>
    have hn : driverOn (if driverOn s n then f n s else s) k = (driverOn s k && decide (k ≠ n)) := by
      split
      next => exact hf n k s (hl n List.mem_cons_self) hk
      next hoff =>
        by_cases e : k = n
        · rw [e, eq_false_of_ne_true hoff, Bool.false_and]
        · rw [decide_eq_true e, Bool.and_true]
    rw [List.foldl_cons, ih (fun m hm => hl m (List.mem_cons_of_mem _ hm)), hn]
    simp [List.mem_cons, Bool.and_assoc]

theorem driverOff_stopsOwn : StopsOwn driverOff := fun n k s hn hk => driverOn_driverOff n k s hn hk

theorem stopPort_stopsOwn (st : Nat) : StopsOwn (fun n => stopPort n st) := fun n k s hn hk => driverOn_stopPort n st k s hn hk

theorem allDriversOff_off (s : State) (n : Port) : driverOn (allDriversOff s) n.val = false := by
  unfold allDriversOff
  rw [driverOn_completeAll, driverOn_stopEach (l := allPorts) driverOff_stopsOwn (fun n hn => List.mem_range.1 hn) n.isLt,
    decide_eq_false (p := n.val ∉ allPorts) (not_not.2 (List.mem_range.2 n.isLt)), Bool.and_false]

theorem driverOn_stopBank (k : Fin 4) (s : State) (n : Port) : driverOn (stopBank k.val s) n.val = (driverOn s n.val && decide (n.val ∉ bankPorts k.val)) := by
  refine driverOn_stopEach (stopPort_stopsOwn _) (fun m hm => ?_) n.isLt s
  obtain ⟨i, hi, rfl⟩ := List.mem_map.1 hm
  have := List.mem_range.1 hi
  omega

/-! The causes of a kill. -/

theorem FieldKept.getF {q : Page} {g : Field} {s t : State} (h : FieldKept q g 0 s t) : Machine.getF t q g = Machine.getF s q g := h

theorem FieldKept.isSet {q : Page} {g : Field} {s t : State} (h : FieldKept q g 0 s t) : Machine.isSet t q g = Machine.isSet s q g := by
  unfold Machine.isSet
  rw [h.getF]

theorem killCauses_lt (s : State) : killCauses s < 2048 := getBits_lt _ 10 0

/-- The causes with some added still fit the field. -/
theorem killCauses_add {k : Nat} (hk : k ≤ 10) (s : State) : (killCauses s ||| 2 ^ k) % 2 ^ SAF_KILL.CAUSE.width = killCauses s ||| 2 ^ k :=
  Nat.mod_eq_of_lt (Nat.or_lt_two_pow (n := 11) (killCauses_lt s) (Nat.pow_lt_pow_right (by decide) (by omega)))

/-- What a kill shows before any driver is turned off. -/
def killShown (cause : Nat) (src : Option Nat) (s : State) : State :=
  let s1 := setF .saf SAF_KILL.CAUSE (killCauses s ||| 2 ^ cause) s
  let s2 := match src with
    | some n => if getF s .saf SAF_KILL.PORT = 0x3F then setF .saf SAF_KILL.PORT n s1 else s1
    | none => s1
  let s3 := setB .saf SAF_STATUS.KILL true s2
  if !killed s then raise .saf SAF_INT.KILL (count .saf SAF_KILL_CNT.COUNT s3) else s3

theorem kill_eq (cause : Nat) (src : Option Nat) (s : State) : kill cause src s = allDriversOff (killShown cause src s) := rfl

theorem killShown_causes {cause : Nat} (hc : cause ≤ 10) (src : Option Nat) (s : State) : killCauses (killShown cause src s) = killCauses s ||| 2 ^ cause := by
  unfold killShown
  extract_lets s1 s2 s3
  have h1 : killCauses s1 = killCauses s ||| 2 ^ cause := (getF_setF_self s .saf SAF_KILL.CAUSE _ (by decide)).trans (killCauses_add hc s)
  have h2 : FieldKept .saf SAF_KILL.CAUSE 0 s1 s2 := by
    unfold s2
    split
    · split
      · exact (FieldKept.refl _).setF _ _ _ (by decide) (.inr (by decide))
      · exact .refl _
    · exact .refl _
  have h3 : FieldKept .saf SAF_KILL.CAUSE 0 s1 s3 := h2.setB _ _ _ (by decide) (.inr (by decide))
  refine Eq.trans ?_ h1
  split
  · exact (h3.count _ _ (by decide) (.inr (by decide))).raise _ _ (by decide)
  · exact h3

theorem killShown_kill (cause : Nat) (src : Option Nat) (s : State) : isSet (killShown cause src s) .saf SAF_STATUS.KILL = true := by
  unfold killShown
  extract_lets s1 s2 s3
  have h3 : isSet s3 .saf SAF_STATUS.KILL = true := isSet_setB_self _ _ _ _ (by decide)
  split
  · exact (((FieldKept.refl (q := .saf) (g := SAF_STATUS.KILL) (j := 0) s3).count .saf SAF_KILL_CNT.COUNT (by decide) (.inr (by decide))).raise .saf SAF_INT.KILL (by decide)).isSet.trans h3
  · exact h3

theorem killShown_int (cause : Nat) (src : Option Nat) {s : State} (h : killed s = false) : intOf (killShown cause src s) .saf SAF_INT.KILL = true := by
  unfold killShown
  rw [h, if_pos (by decide)]
  exact intOf_raise _ _ _ (by decide)

theorem killShown_port (cause : Nat) {n : Nat} (hn : n < 52) (s : State) :
    getF (killShown cause (some n) s) .saf SAF_KILL.PORT = if getF s .saf SAF_KILL.PORT = 0x3F then n else getF s .saf SAF_KILL.PORT := by
  unfold killShown
  extract_lets s1 s2 s3
  have h1 : FieldKept .saf SAF_KILL.PORT 0 s s1 := (FieldKept.refl _).setF _ _ _ (by decide) (.inr (by decide))
  have h2 : getF s2 .saf SAF_KILL.PORT = if getF s .saf SAF_KILL.PORT = 0x3F then n else getF s .saf SAF_KILL.PORT := by
    unfold s2
    dsimp only
    split
    · exact (getF_setF_self _ _ _ _ (by decide)).trans (Nat.mod_eq_of_lt (Nat.lt_trans hn (by decide)))
    · exact h1
  have h3 : FieldKept .saf SAF_KILL.PORT 0 s2 s3 := (FieldKept.refl _).setB _ _ _ (by decide) (.inr (by decide))
  refine Eq.trans ?_ h2
  split
  · exact (h3.count _ _ (by decide) (.inr (by decide))).raise _ _ (by decide)
  · exact h3

/-- Turning the drivers off leaves what the SAF page shows. -/
theorem allDriversOff_saf (s : State) : Within 0x2003a021800000 s (allDriversOff s) := allDriversOff_within .refl rfl

/-- What a kill does while the module has power (R472). -/
theorem kill_effect {cause : Nat} (hc : cause ≤ 10) (src : Option Nat) (s : State) :
    killCauses (kill cause src s) = killCauses s ||| 2 ^ cause ∧ isSet (kill cause src s) .saf SAF_STATUS.KILL = true ∧
    (∀ n : Port, driverOn (kill cause src s) n.val = false) ∧ (killed s = false → intOf (kill cause src s) .saf SAF_INT.KILL = true) := by
  rw [kill_eq]
  have hw := allDriversOff_saf (killShown cause src s)
  refine ⟨(hw.getF_addr .saf _ rfl).trans (killShown_causes hc src s), ?_, allDriversOff_off _, fun h => (hw.intOf_addr .saf _ rfl).trans (killShown_int cause src h)⟩
  unfold isSet
  rw [hw.getF_addr .saf _ rfl]
  exact killShown_kill cause src s

theorem kill_port (cause : Nat) {n : Nat} (hn : n < 52) (s : State) :
    getF (kill cause (some n) s) .saf SAF_KILL.PORT = if getF s .saf SAF_KILL.PORT = 0x3F then n else getF s .saf SAF_KILL.PORT :=
  ((allDriversOff_saf _).getF_addr .saf _ rfl).trans (killShown_port cause hn s)

/-- A kill leaves every field of SAF beyond those it shows. -/
theorem kill_field {g : Field} (h : (fieldsSplit SAF_KILL.CAUSE g 0 0 && fieldsSplit SAF_KILL.PORT g 0 0 && fieldsSplit SAF_STATUS.KILL g 0 0 && fieldsSplit SAF_KILL_CNT.COUNT g 0 0 &&
    decide (g.offAt 0 % 0x1000 ≠ offIntStat)) = true) (cause : Nat) (src : Option Nat) (s : State) : FieldKept .saf g 0 s (kill cause src s) := by
  simp only [Bool.and_eq_true] at h
  obtain ⟨⟨⟨⟨hcause, hport⟩, hkill⟩, hcnt⟩, hint⟩ := h
  rw [kill_eq]
  refine FieldKept.trans ?_ (.within (q := .saf) (allDriversOff_saf _) rfl)
  unfold killShown
  extract_lets s1 s2 s3
  have h1 : FieldKept .saf g 0 s s1 := (FieldKept.refl _).setF _ _ _ (by decide) (.inr hcause)
  have h2 : FieldKept .saf g 0 s s2 := by
    unfold s2
    split
    · split
      · exact h1.setF _ _ _ (by decide) (.inr hport)
      · exact h1
    · exact h1
  have h3 : FieldKept .saf g 0 s s3 := h2.setB _ _ _ (by decide) (.inr hkill)
  split
  · exact (h3.count _ _ (by decide) (.inr hcnt)).raise _ _ hint
  · exact h3

theorem intOf_kill_mono (cause : Nat) (src : Option Nat) {s : State} {k : Nat} (h : intOf s .saf k = true) : intOf (kill cause src s) .saf k = true := by
  rw [kill_eq, (allDriversOff_saf _).intOf_addr .saf _ rfl]
  unfold killShown
  extract_lets s1 s2 s3
  have h3 : intOf s3 .saf k = true := by
    refine (intOf_setF _ _ _ _ _ _ (by decide) (by decide)).trans ?_
    have h1 : intOf s1 .saf k = true := (intOf_setF _ _ _ _ _ _ (by decide) (by decide)).trans h
    unfold s2
    split
    · split
      · exact (intOf_setF _ _ _ _ _ _ (by decide) (by decide)).trans h1
      · exact h1
    · exact h1
  split
  · exact intOf_raise_mono _ _ _ _ _ ((intOf_setF _ _ _ _ _ _ (by decide) (by decide)).trans h3)
  · exact h3

/-- A kill command: with power on a state that shows as before it kills. -/
theorem Kills.of_kill {i : Instr} {cause : Nat} {src : Option Port} {s u : State} (hc : cause ≤ 10)
    (hex : exec i s = .next (if moduleOn s then kill cause (src.map Fin.val) u else s))
    (hcause : killCauses u = killCauses s) (hport : getF u .saf SAF_KILL.PORT = getF s .saf SAF_KILL.PORT) : Kills i cause src s := by
  unfold Kills
  refine Yields.guard hex .rfl (fun _ => ?_)
  obtain ⟨h1, h2, h3, h4⟩ := kill_effect hc (src.map Fin.val) u
  refine ⟨h1.trans (by rw [hcause]), h2, h3, fun h => h4 ?_, fun n hn => ?_⟩
  · unfold killed at h ⊢
    rw [hcause]
    exact h
  · subst hn
    exact (kill_port cause n.isLt u).trans (by rw [hport])

/-! Diagnostic reports (R479). -/

theorem diagReport_class {row : Nat} (hrow : row < 256) (p : Page) (s : State) : getF (diagReport row p s) .saf SAF_DIAG_LAST.CLASS = row := by
  have h : getF (setF .saf SAF_DIAG_LAST.CLASS row s) .saf SAF_DIAG_LAST.CLASS = row := (getF_setF_self _ _ _ _ (by decide)).trans (Nat.mod_eq_of_lt hrow)
  exact ((((FieldKept.refl (q := .saf) (g := SAF_DIAG_LAST.CLASS) (j := 0) _).setF .saf SAF_DIAG_LAST.INST (pageInstance p) (by decide) (.inr (by decide))).count .saf SAF_DIAG_CNT.COUNT (by decide) (.inr (by decide))).raise .saf SAF_INT.DIAG (by decide)).getF.trans h

theorem diagReport_inst (row : Nat) {p : Page} (hp : pageInstance p < 0x10000) (s : State) : getF (diagReport row p s) .saf SAF_DIAG_LAST.INST = pageInstance p := by
  have h : getF (setF .saf SAF_DIAG_LAST.INST (pageInstance p) (setF .saf SAF_DIAG_LAST.CLASS row s)) .saf SAF_DIAG_LAST.INST = pageInstance p :=
    (getF_setF_self _ _ _ _ (by decide)).trans (Nat.mod_eq_of_lt hp)
  exact (((FieldKept.refl (q := .saf) (g := SAF_DIAG_LAST.INST) (j := 0) _).count .saf SAF_DIAG_CNT.COUNT (by decide) (.inr (by decide))).raise .saf SAF_INT.DIAG (by decide)).getF.trans h

theorem diagReport_field {g : Field} (h : (fieldsSplit SAF_DIAG_LAST.CLASS g 0 0 && fieldsSplit SAF_DIAG_LAST.INST g 0 0 && fieldsSplit SAF_DIAG_CNT.COUNT g 0 0 &&
    decide (g.offAt 0 % 0x1000 ≠ offIntStat)) = true) (row : Nat) (p : Page) (s : State) : FieldKept .saf g 0 s (diagReport row p s) := by
  simp only [Bool.and_eq_true] at h
  obtain ⟨⟨⟨hclass, hinst⟩, hcnt⟩, hint⟩ := h
  exact ((((FieldKept.refl s).setF _ _ _ (by decide) (.inr hclass)).setF _ _ _ (by decide) (.inr hinst)).count _ _ (by decide) (.inr hcnt)).raise _ _ hint

theorem killCauses_diagReport (row : Nat) (p : Page) (s : State) : killCauses (diagReport row p s) = killCauses s :=
  diagReport_field (g := SAF_KILL.CAUSE) (by decide) row p s

theorem killPort_diagReport (row : Nat) (p : Page) (s : State) : getF (diagReport row p s) .saf SAF_KILL.PORT = getF s .saf SAF_KILL.PORT :=
  diagReport_field (g := SAF_KILL.PORT) (by decide) row p s

/-! Kills by a monitor. -/

theorem monitorKill_kills {i : Instr} {cause : Nat} {n : Port} {s : State} (hc : cause ≤ 10) (hex : exec i s = .next (monitorKill cause n s)) : Kills i cause (some n) s :=
  .of_kill hc hex rfl rfl

/-- The baseplate temperature shown, with the event raised. -/
theorem showBase_raise (v : BitVec 16) (k : Nat) (s : State) : getF (raise .pwr k (showBase v s)) .pwr PWR_BASE_TEMP.VALUE = v.toNat :=
  (getF_raise _ _ _ (by decide) (by decide)).trans ((getF_setF_self _ _ _ _ (by decide)).trans (Nat.mod_eq_of_lt v.isLt))

theorem tempKill_kills (v : BitVec 16) (s : State) : Kills (.tempKill v) KILL.TEMP none s := by
  have h : ∀ g, FieldKept .saf g 0 s (raise .pwr PWR_INT.TEMP_KILL (showBase v s)) := fun g =>
    .within (q := .saf) (raise_within (m := 0x20000020000002) (setF_within .refl .pwr PWR_BASE_TEMP.VALUE v.toNat rfl) .pwr PWR_INT.TEMP_KILL rfl rfl) rfl
  exact .of_kill (by decide) rfl (h SAF_KILL.CAUSE) (h SAF_KILL.PORT)

/-- KILL# low, as it is shown and reported before the kill. -/
def killnShown (s : State) : State := diagReport 3 .saf (setB .saf SAF_STATUS.KILLN_LOW true { s with pwr := { s.pwr with killLow := true } })

theorem exec_killnFall {s : State} (hon : moduleOn s = true) (hlow : s.pwr.killLow = false) : exec .killnFall s = .next (kill KILL.KILLN none (killnShown s)) := by
  show execKillnFall s = _
  unfold execKillnFall
  dsimp only
  rw [if_neg (by rw [hlow]; decide), if_pos hon]
  rfl

theorem killnShown_field {g : Field} (hs : fieldsSplit SAF_STATUS.KILLN_LOW g 0 0 = true) (s : State)
    (hd : FieldKept .saf g 0 (setB .saf SAF_STATUS.KILLN_LOW true { s with pwr := { s.pwr with killLow := true } }) (killnShown s)) : FieldKept .saf g 0 s (killnShown s) :=
  (FieldKept.setB (.upd rfl) _ _ _ (by decide) (.inr hs)).trans hd

theorem killnShown_low (s : State) : isSet (killnShown s) .saf SAF_STATUS.KILLN_LOW = true :=
  (diagReport_field (g := SAF_STATUS.KILLN_LOW) (by decide) _ _ _).isSet.trans (isSet_setB_self _ _ _ _ (by decide))

theorem pwr_killnShown (s : State) : (killnShown s).pwr.killLow = true := by
  unfold killnShown
  rw [(diagReport_within (m := 0x20000020000008) .refl 3 .saf rfl).same .pwr rfl, pwr_setB]

/-- Settles O40: a kill command is a kill on a state whose kill registers are as before; the reports and the temperature stand in registers a kill leaves. -/
theorem monitorKills : Obligations.MonitorKills := by
  unfold Obligations.MonitorKills
  refine ⟨?_, ?_, ?_, ?_, ?_, ?_, ?_, ?_, ?_, ?_, ?_⟩
  · exact fun n s => ⟨monitorKill_kills (by decide) rfl, monitorKill_kills (by decide) rfl,
      .of_kill (by decide) rfl (killCauses_diagReport _ _ _) (killPort_diagReport _ _ _)⟩
  · exact fun n s h => monitorKill_kills (by decide) (congrArg Host.Outcome.next (if_pos h))
  · exact fun n s h => Yields.intro (congrArg Host.Outcome.next (if_neg (by rw [h]; decide))) rfl
  · exact fun s => .of_kill (by decide) rfl (killCauses_diagReport _ _ _) (killPort_diagReport _ _ _)
  · intro n s hon
    refine Yields.intro (congrArg Host.Outcome.next (if_pos hon)) ⟨?_, ?_, ?_⟩
    · exact (kill_field (g := SAF_DIAG_LAST.CLASS) (by decide) _ _ _).getF.trans (diagReport_class (by decide) _ _)
    · exact (kill_field (g := SAF_DIAG_LAST.INST) (by decide) _ _ _).getF.trans (diagReport_inst 2 (p := .lpt n) (Nat.lt_trans n.isLt (by decide)) _)
    · exact intOf_kill_mono _ _ (diagReport_int _ _ _)
  · intro s hon
    refine Yields.intro (congrArg Host.Outcome.next (if_pos hon)) ⟨?_, ?_⟩
    · exact (kill_field (g := SAF_DIAG_LAST.CLASS) (by decide) _ _ _).getF.trans (diagReport_class (by decide) _ _)
    · exact intOf_kill_mono _ _ (diagReport_int _ _ _)
  · intro v s
    refine ⟨tempKill_kills v s, Yields.intro rfl ?_⟩
    intro hon
    rw [if_pos hon]
    have hw := kill_within (m := 0x2003a021800008) (s := raise .pwr PWR_INT.TEMP_KILL (showBase v s)) .refl KILL.TEMP none rfl
    exact ⟨(hw.getF_addr .pwr _ rfl).trans (showBase_raise v _ s), (hw.intOf_addr .pwr _ rfl).trans (intOf_raise _ _ _ (by decide))⟩
  · intro v s
    refine Yields.guard rfl .rfl (fun _ => ?_)
    have hw := logPage_within (m := 0x20000028000020) (s := raise .pwr PWR_INT.OVER_TEMP (showBase v s)) .refl .pwr PWR_INT.OVER_TEMP [] rfl
    refine ⟨(hw.getF_addr .pwr _ rfl).trans (showBase_raise v _ s), (hw.intOf_addr .pwr _ rfl).trans (intOf_raise _ _ _ (by decide)), fun hroom => ?_⟩
    refine logPage_logged (s := raise .pwr PWR_INT.OVER_TEMP (showBase v s)) ?_ _ _ _
    unfold LogRoom showBase
    rwa [log_raise, log_setF]
  · intro s hon hlow
    have hex := exec_killnFall hon hlow
    refine ⟨.of_kill (u := killnShown s) (by decide) (hex.trans (by rw [if_pos hon]; rfl))
      (killnShown_field (g := SAF_KILL.CAUSE) (by decide) s (killCauses_diagReport _ _ _))
      (killnShown_field (g := SAF_KILL.PORT) (by decide) s (killPort_diagReport _ _ _)), Yields.intro hex ⟨?_, ?_, ?_⟩⟩
    · rw [(kill_within (m := 0x2003a021800008) .refl KILL.KILLN none rfl).same .pwr rfl]
      exact pwr_killnShown s
    · exact (kill_field (g := SAF_STATUS.KILLN_LOW) (by decide) _ _ _).isSet.trans (killnShown_low s)
    · exact (kill_field (g := SAF_DIAG_LAST.CLASS) (by decide) _ _ _).getF.trans (diagReport_class (by decide) _ _)
  · exact fun s h => Yields.intro (congrArg Host.Outcome.next (if_pos h)) rfl
  · intro s
    refine Yields.intro rfl ⟨rfl, isSet_setB_self _ _ _ _ (by decide), ?_, (RegsBut.refl _ s).setB _ (by decide)⟩
    exact (FieldKept.refl (q := .saf) (g := SAF_KILL.CAUSE) (j := 0) _).setB _ _ _ (by decide) (.inr (by decide))

end Sys2Proof.Machine
end

section
/-!
PROOFS. How the causes of a kill end (R46, R474, R475, R482).
-/
namespace Sys2Proof.Machine

/-! Bits taken away, and the detail of a completion. -/

/-- Bits taken away from a number are those it keeps under the complement of a mask of `w` bits. -/
theorem sub_and_eq {w k m : Nat} (hk : k < 2 ^ w) (hm : m < 2 ^ w) : k - (k &&& m) = k &&& (2 ^ w - 1 - m) := by
  let a := BitVec.ofNat w k
  let b := BitVec.ofNat w m
  have ha : a.toNat = k := Nat.mod_eq_of_lt hk
  have hb : b.toNat = m := Nat.mod_eq_of_lt hm
  have h0 : a &&& b &&& (a &&& ~~~b) = 0#w := by
    ext i hi
    simp only [BitVec.getElem_and, BitVec.getElem_not, BitVec.getElem_zero]
    cases a[i] <;> cases b[i] <;> rfl
  have h1 : a &&& b ||| a &&& ~~~b = a := by
    ext i hi
    simp only [BitVec.getElem_and, BitVec.getElem_or, BitVec.getElem_not]
    cases a[i] <;> cases b[i] <;> rfl
  have hsum := BitVec.toNat_add_of_and_eq_zero h0
  rw [BitVec.add_eq_or_of_and_eq_zero _ _ h0, h1, BitVec.toNat_and, BitVec.toNat_and, BitVec.toNat_not, ha, hb] at hsum
  omega

/-- The detail that a completion shows. -/
theorem complete_detail {s : State} {p : Page} {u : Outstanding} (h : outstanding s p = some u) (hp : p ≠ .pci) {d : Nat} (hd : d < 256) (code : Nat) :
    getBits (reg (complete p code d s) (addr p offCmdStat)) 15 8 = d := by
  unfold complete
  split
  next e => cases h.symm.trans e
  next o _ =>
    extract_lets s1 s2 s3
    have h2 : getBits (reg s2 (addr p offCmdStat)) 15 8 = d := by
      unfold s2
      rw [cmdStat_setStat, cmdStat_setStat, getBits_setBits_other _ _ (by decide) (by decide) (by decide), getBits_setBits _ _ (by decide) (by decide)]
      exact Nat.mod_eq_of_lt hd
    have h3 : getBits (reg s3 (addr p offCmdStat)) 15 8 = d := by
      unfold s3
      split
      · rw [cmdStat_setStat, getBits_setBits_other _ _ (by decide) (by decide) (by decide)]
        exact h2
      · exact h2
    rw [reg_originComplete _ _ _ _ _ _ (.inl hp) (by decide) (.inr (by decide)), reg_raise_other _ _ _ (by decide) (.inr (by decide))]
    exact h3

/-- A field beyond the common headers, or of STATUS below READY, is as it was before the command was issued. -/
theorem JustIssued.field {p q : Page} {o : Outstanding} {s u : State} (hu : JustIssued p o s u) (hq : q ≠ .pci) {f : Field} {j : Nat}
    (h : (decide (0x100 ≤ f.offAt j) && decide (f.offAt j < 0x1000) || decide (f.offAt j = offStatus) && decide (f.hi < 30) && decide (f.lo ≤ f.hi)) = true) :
    FieldKept q f j s u := by
  simp only [Bool.or_eq_true, Bool.and_eq_true, decide_eq_true_eq] at h
  rcases h with ⟨h0, h1⟩ | ⟨⟨ho, h1⟩, h2⟩
  · exact getI_congr (hu.past q _ h1 (.inr h0) hq)
  · unfold FieldKept getI
    rw [ho]
    exact hu.status q f.hi f.lo hq h2 (by omega) (.inr h1)

/-- A completion leaves such a field. -/
theorem FieldKept.complete (s : State) (p : Page) {q : Page} (hq : q ≠ .pci) {f : Field} {j : Nat} (code d : Nat)
    (h : (decide (0x100 ≤ f.offAt j) && decide (f.offAt j < 0x1000) || decide (f.offAt j = offStatus) && decide (f.hi < 30) && decide (f.lo ≤ f.hi)) = true) :
    FieldKept q f j s (Machine.complete p code d s) := getI_complete s p q f j code d hq h

/-! Causes that end. -/

theorem endCauses_left {m : Nat} (hm : m < 2048) (s : State) : killCauses s - (killCauses s &&& m) = killCauses s &&& (2047 - m) := sub_and_eq (w := 11) (killCauses_lt s) hm

/-- The causes left over, shown. -/
def causesLeft (m : Nat) (s : State) : State := setF .saf SAF_KILL.CAUSE (killCauses s - (killCauses s &&& m)) s

theorem killCauses_causesLeft {m : Nat} (hm : m < 2048) (s : State) : killCauses (causesLeft m s) = killCauses s &&& (2047 - m) :=
  (getF_setF_self _ _ _ _ (by decide)).trans ((Nat.mod_eq_of_lt (Nat.lt_of_le_of_lt (Nat.sub_le _ _) (killCauses_lt s))).trans (endCauses_left hm s))

/-- The end of a kill, shown. -/
def killOver (s : State) : State := raise .saf SAF_INT.KILL_ENDED (setB .saf SAF_STATUS.KILL false (setF .saf SAF_KILL.PORT 0x3F s))

theorem endCauses_eq (m : Nat) (s : State) : endCauses m s =
    if killed s && decide (killCauses s - (killCauses s &&& m) = 0) then killOver (causesLeft m s) else causesLeft m s := rfl

theorem killCauses_killOver (s : State) : killCauses (killOver s) = killCauses s :=
  (((FieldKept.refl (q := .saf) (g := SAF_KILL.CAUSE) (j := 0) s).setF .saf SAF_KILL.PORT 0x3F (by decide) (.inr (by decide))).setB .saf SAF_STATUS.KILL false (by decide)
    (.inr (by decide))).raise .saf SAF_INT.KILL_ENDED (by decide)

theorem killCauses_endCauses {m : Nat} (hm : m < 2048) (s : State) : killCauses (endCauses m s) = killCauses s &&& (2047 - m) := by
  rw [endCauses_eq]
  split
  · exact (killCauses_killOver _).trans (killCauses_causesLeft hm s)
  · exact killCauses_causesLeft hm s

/-- A kill whose last cause ended is over. -/
theorem endCauses_over {m : Nat} (hm : m < 2048) {s : State} (hk : killed s = true) (h0 : killCauses (endCauses m s) = 0) :
    isSet (endCauses m s) .saf SAF_STATUS.KILL = false ∧ intOf (endCauses m s) .saf SAF_INT.KILL_ENDED = true ∧ getF (endCauses m s) .saf SAF_KILL.PORT = 0x3F := by
  rw [killCauses_endCauses hm, ← endCauses_left hm] at h0
  rw [endCauses_eq, hk, h0, if_pos (by decide)]
  unfold killOver
  refine ⟨?_, intOf_raise _ _ _ (by decide), ?_⟩
  · exact ((FieldKept.refl (q := .saf) (g := SAF_STATUS.KILL) (j := 0) _).raise _ _ (by decide)).isSet.trans (isSet_setB_self _ _ _ _ (by decide))
  · exact (((FieldKept.refl (q := .saf) (g := SAF_KILL.PORT) (j := 0) _).setB .saf SAF_STATUS.KILL false (by decide) (.inr (by decide))).raise .saf SAF_INT.KILL_ENDED (by decide)).getF.trans
      (getF_setF_self _ _ _ _ (by decide))

/-- With a cause left only the causes change. -/
theorem endCauses_regs {m : Nat} (hm : m < 2048) {s : State} (h0 : killCauses (endCauses m s) ≠ 0) : RegsBut [addr .saf SAF_KILL.CAUSE.off] s (endCauses m s) := by
  rw [killCauses_endCauses hm, ← endCauses_left hm] at h0
  rw [endCauses_eq, decide_eq_false h0, Bool.and_false, if_neg (by decide)]
  exact (RegsBut.refl _ s).setF _ (by decide)

theorem endCauses_cmd (m : Nat) (s : State) : CmdKept .saf s (endCauses m s) := by
  rw [endCauses_eq]
  have h1 : CmdKept .saf s (causesLeft m s) := .setF _ _ _ (by decide)
  split
  · exact h1.trans ((CmdKept.setF _ _ _ (by decide)).trans ((CmdKept.setB _ _ _ (by decide)).trans (.raise _ _ _ _)))
  · exact h1

theorem killed_congr {s t : State} (h : killCauses t = killCauses s) : killed t = killed s := by
  unfold killed
  rw [h]

theorem latchedCauses_lt (s : State) : latchedCauses s < 64 := by
  unfold latchedCauses
  split <;> decide

theorem latchedCauses_issued {o : Outstanding} {s u : State} (hu : JustIssued .saf o s u) : latchedCauses u = latchedCauses s := by
  unfold latchedCauses
  rw [(hu.field (q := .saf) (f := SAF_CFG.KILLN_AUTO) (j := 0) (by decide) (by decide)).isSet]

theorem holding_issued {o : Outstanding} {s u : State} (hu : JustIssued .saf o s u) (m : Nat) : holding u m = holding s m := by
  unfold holding
  rw [latchedCauses_issued hu, hu.within.same .pwr rfl]

theorem holding_lt (s : State) (m : Nat) : holding s m < 256 := Nat.lt_of_le_of_lt Nat.and_le_right (Nat.lt_trans (latchedCauses_lt s) (by decide))

/-- What a completion of SAF leaves of the kill. -/
theorem killCauses_complete (code d : Nat) (s : State) : killCauses (complete .saf code d s) = killCauses s :=
  FieldKept.complete s .saf (q := .saf) (f := SAF_KILL.CAUSE) (j := 0) (by decide) code d (by decide)

theorem killCauses_issued {o : Outstanding} {s u : State} (hu : JustIssued .saf o s u) : killCauses u = killCauses s :=
  hu.field (q := .saf) (f := SAF_KILL.CAUSE) (j := 0) (by decide) (by decide)

/-- CLEAR_KILL, once issued. -/
theorem runClearKill_effect {o : Outstanding} {s u : State} (hu : JustIssued .saf o s u) (monitors : Nat) : let t := runClearKill monitors o u
    if holding s monitors ≠ 0 then Completed t .saf CODE.REFUSED ∧ getBits (reg t (addr .saf offCmdStat)) 15 8 = holding s monitors ∧ killCauses t = killCauses s
    else Completed t .saf CODE.OK ∧ killCauses t = killCauses s &&& (2047 - latchedCauses s) ∧
      (killed s = true → killCauses t = 0 → isSet t .saf SAF_STATUS.KILL = false ∧ intOf t .saf SAF_INT.KILL_ENDED = true) := by
  have hm : latchedCauses u < 2048 := Nat.lt_trans (latchedCauses_lt u) (by decide)
  unfold runClearKill
  extract_lets h t
  have hh : h = holding s monitors := holding_issued hu monitors
  rw [← hh]
  unfold t
  split
  · exact ⟨hu.done (by decide) _, complete_detail hu.issued.out (by decide) (by rw [hh]; exact holding_lt s monitors) _, (killCauses_complete _ _ _).trans (killCauses_issued hu)⟩
  · have hc : killCauses (done .saf CODE.OK (endCauses (latchedCauses u) u)) = killCauses (endCauses (latchedCauses u) u) := killCauses_complete _ _ _
    refine ⟨hu.code (endCauses_cmd _ _) (by decide) 0, ?_, fun hk h0 => ?_⟩
    · rw [hc, killCauses_endCauses hm, latchedCauses_issued hu, killCauses_issued hu]
    · obtain ⟨h1, h2, -⟩ := endCauses_over hm ((killed_congr (killCauses_issued hu)).trans hk) (hc.symm.trans h0)
      exact ⟨(FieldKept.complete _ .saf (q := .saf) (f := SAF_STATUS.KILL) (j := 0) (by decide) _ _ (by decide)).isSet.trans h1, intOf_complete (by decide) _ _ h2⟩

/-- KILL_TEST, once issued. -/
theorem runKillTest_effect {o : Outstanding} {s u : State} (hu : JustIssued .saf o s u) : let t := runKillTest o u
    if mode s ≠ MODE.TEST ∨ killCauses s ≠ 2 ^ KILL.MODE ∨ isSet s .saf SAF_STATUS.TRIP = true then Completed t .saf CODE.REFUSED ∧ killCauses t = killCauses s
    else Issued t .saf o ∧ killCauses t = 0 ∧ isSet t .saf SAF_STATUS.KILL = false := by
  have hmode : mode u = mode s := hu.field (q := .boot) (f := BOOT_STATUS.MODE) (j := 0) (by decide) (by decide)
  have htrip : isSet u .saf SAF_STATUS.TRIP = isSet s .saf SAF_STATUS.TRIP := (hu.field (q := .saf) (f := SAF_STATUS.TRIP) (j := 0) (by decide) (by decide)).isSet
  have hc := killCauses_issued hu
  dsimp only
  unfold runKillTest
  rw [hmode, htrip, hc]
  by_cases h1 : mode s ≠ MODE.TEST
  · rw [if_pos h1, if_pos (.inl h1)]
    exact ⟨hu.done (by decide) _, (killCauses_complete _ _ _).trans hc⟩
  · rw [if_neg h1]
    by_cases h2 : killCauses s ≠ 2 ^ KILL.MODE ∨ isSet s .saf SAF_STATUS.TRIP = true
    · rw [if_pos h2, if_pos (.inr h2)]
      exact ⟨hu.done (by decide) _, (killCauses_complete _ _ _).trans hc⟩
    · rw [if_neg h2, if_neg (not_or.2 ⟨h1, h2⟩)]
      have hmask : killCauses u = 2 ^ KILL.MODE := hc.trans (not_not.1 (not_or.1 h2).1)
      have h0 : killCauses (endCause KILL.MODE u) = 0 := by
        unfold endCause
        rw [killCauses_endCauses (by decide), hmask]
        rfl
      have hk : killed u = true := by
        unfold killed
        rw [hmask]
        rfl
      exact ⟨(endCauses_cmd _ _).issued hu.issued, h0, (endCauses_over (by decide) hk h0).1⟩

/-- Settles O41: the causes left are those outside the mask, and the kill is over when none is left. -/
theorem killEnds : Obligations.KillEnds := by
  unfold Obligations.KillEnds
  refine ⟨?_, ?_, ?_, ?_⟩
  · exact fun s => Yields.intro rfl ⟨killCauses_endCauses (by decide) s, endCauses_over (by decide), endCauses_regs (by decide)⟩
  · intro s
    refine Yields.guard rfl (by simp) (fun _ => ⟨killCauses_endCauses (by decide) s, fun hk h0 => ?_⟩)
    obtain ⟨h1, h2, -⟩ := endCauses_over (by decide) hk h0
    exact ⟨h1, h2⟩
  · exact fun src holds s ht => Yields.issue rfl ht (fun u hu => runClearKill_effect hu holds.toNat)
  · exact fun src s ht => Yields.issue rfl ht (fun u hu => runKillTest_effect hu)

end Sys2Proof.Machine
end

section
/-!
PROOFS. Trips of a bank of ports, their warning and their end (R473, R498).
-/
namespace Sys2Proof.Machine

/-- The field of trips of a kind. -/
def tripField (fault : Bool) : Field := if fault then SAF_TRIP.FAULT else SAF_TRIP.TEMP

theorem showTrip_field {g : Field} (h : fieldsSplit SAF_STATUS.TRIP g 0 0 = true) (s : State) : FieldKept .saf g 0 s (showTrip s) :=
  (FieldKept.refl s).setB _ _ _ (by decide) (.inr h)

/-- Setting or clearing the bit of a bank leaves every other field of SAF but STATUS.TRIP. -/
theorem tripBit_field {fault : Bool} {g : Field} (h : (fieldsSplit (tripField fault) g 0 0 && fieldsSplit SAF_STATUS.TRIP g 0 0) = true) (k : Nat) (b : Bool) (s : State) :
    FieldKept .saf g 0 s (tripBit (tripField fault) k b s) := by
  rw [Bool.and_eq_true] at h
  exact ((FieldKept.refl s).setF .saf (tripField fault) _ (by cases fault <;> decide) (.inr h.1)).trans (showTrip_field h.2 _)

/-- The other field of trips is as before. -/
theorem tripBit_other (fault : Bool) (k : Nat) (b : Bool) (s : State) : getF (tripBit (tripField fault) k b s) .saf (tripField !fault) = getF s .saf (tripField !fault) :=
  tripBit_field (by cases fault <;> decide) k b s

theorem getF_trip_lt (fault : Bool) (s : State) : getF s .saf (tripField fault) < 16 := by
  cases fault
  · exact getBits_lt _ 3 0
  · exact getBits_lt _ 7 4

/-- The field with the bit of a bank set or cleared. -/
theorem tripBit_self (fault : Bool) (k : Fin 4) (b : Bool) (s : State) : getF (tripBit (tripField fault) k.val b s) .saf (tripField fault) =
    if b then getF s .saf (tripField fault) ||| 2 ^ k.val else getF s .saf (tripField fault) &&& (15 - 2 ^ k.val) := by
  have hlt := getF_trip_lt fault s
  have hk : 2 ^ k.val < 2 ^ 4 := Nat.pow_lt_pow_right (by decide) k.isLt
  have hset : ∀ v, getF (setF .saf (tripField fault) v s) .saf (tripField fault) = v % 16 := fun v => by
    cases fault <;> exact getF_setF_self _ _ _ _ (by decide)
  refine (showTrip_field (g := tripField fault) (by cases fault <;> decide) _).getF.trans ((hset _).trans ?_)
  cases b
  · rw [if_neg (by decide), if_neg (by decide), sub_and_eq (w := 4) hlt hk]
    exact Nat.mod_eq_of_lt (Nat.lt_of_le_of_lt Nat.and_le_left hlt)
  · rw [if_pos rfl, if_pos rfl]
    exact Nat.mod_eq_of_lt (Nat.or_lt_two_pow (n := 4) hlt hk)

/-- What STATUS.TRIP shows. -/
theorem tripBit_shown (f : Field) (k : Nat) (b : Bool) (s : State) : isSet (tripBit f k b s) .saf SAF_STATUS.TRIP =
    (decide (getF (tripBit f k b s) .saf SAF_TRIP.TEMP ≠ 0) || decide (getF (tripBit f k b s) .saf SAF_TRIP.FAULT ≠ 0)) := by
  unfold tripBit
  extract_lets v
  rw [(showTrip_field (g := SAF_TRIP.TEMP) (by decide) _).getF, (showTrip_field (g := SAF_TRIP.FAULT) (by decide) _).getF]
  exact isSet_setB_self _ _ _ _ (by decide)

theorem intOf_tripBit (f : Field) (k : Nat) (b : Bool) (s : State) (n : Nat) (hf : f.off < 0x1000) (h : f.off ≠ offIntStat) : intOf (tripBit f k b s) .saf n = intOf s .saf n := by
  unfold tripBit showTrip setB
  rw [intOf_setF _ _ _ _ _ _ (by decide) (by decide), intOf_setF _ _ _ _ _ _ hf h]

theorem tripBit_regs (fault : Bool) (k : Nat) (b : Bool) (s : State) : RegsBut [addr .saf SAF_TRIP.TEMP.off, addr .saf offStatus] s (tripBit (tripField fault) k b s) := by
  refine RegsBut.setB (RegsBut.setF (RegsBut.refl _ s) _ ?_) _ (by decide)
  cases fault <;> decide

theorem driverOn_within {m : Nat} {s t : State} (h : Within m s t) (hm : m.testBit 23 = false) (n : Nat) : driverOn t n = driverOn s n :=
  driverOn_congr (h.reg_addr (lptPage n) _ hm)

/-! A trip. -/

/-- The report of a fault trip, and its bit. -/
def tripShown (k : Nat) (fault : Bool) (s : State) : State := tripBit (tripField fault) k true (if fault then diagReport 4 .sen s else s)

theorem tripBank_eq (k : Nat) (fault : Bool) (s : State) : tripBank k fault s =
    if tripped s (12 * k) then tripShown k fault s else stopBank k (raise .saf SAF_INT.TRIP (count .saf SAF_TRIP_CNT.COUNT (tripShown k fault s))) := by
  unfold tripBank tripShown tripField
  rfl

theorem tripShown_within (k : Nat) (fault : Bool) (s : State) : Within 0x20000020000008 s (tripShown k fault s) := by
  refine tripBit_within ?_ _ _ _ rfl
  split
  · exact diagReport_within .refl _ _ rfl
  · exact .refl

/-- What the bank's trip shows, which the driver stops leave. -/
structure TripSeen (k : Fin 4) (fault : Bool) (t : State) : Prop where
  bit : (getF t .saf (tripField fault)).testBit k.val = true
  shown : isSet t .saf SAF_STATUS.TRIP = true
  report : fault = true → getF t .saf SAF_DIAG_LAST.CLASS = 4 ∧ intOf t .saf SAF_INT.DIAG = true

theorem tripShown_seen (k : Fin 4) (fault : Bool) (s : State) : TripSeen k fault (tripShown k.val fault s) := by
  have hbit : (getF (tripShown k.val fault s) .saf (tripField fault)).testBit k.val = true := by
    unfold tripShown
    rw [tripBit_self, if_pos rfl, Nat.testBit_or, Nat.testBit_two_pow_self, Bool.or_true]
  have hne : getF (tripShown k.val fault s) .saf (tripField fault) ≠ 0 := fun h => by
    rw [h, Nat.zero_testBit] at hbit
    cases hbit
  refine ⟨hbit, ?_, ?_⟩
  · refine (tripBit_shown _ _ _ _).trans ?_
    rw [Bool.or_eq_true, decide_eq_true_eq, decide_eq_true_eq]
    cases fault
    · exact .inl hne
    · exact .inr hne
  · rintro rfl
    unfold tripShown
    rw [if_pos rfl]
    exact ⟨(tripBit_field (fault := true) (g := SAF_DIAG_LAST.CLASS) (by decide) _ _ _).getF.trans (diagReport_class (by decide) _ _),
      (intOf_tripBit _ _ _ _ _ (by decide) (by decide)).trans (diagReport_int 4 .sen s)⟩

/-- A trip new to the bank, before its drivers are turned off. -/
def tripCounted (k : Nat) (fault : Bool) (s : State) : State := raise .saf SAF_INT.TRIP (count .saf SAF_TRIP_CNT.COUNT (tripShown k fault s))

theorem tripCounted_field {g : Field} (h : (fieldsSplit SAF_TRIP_CNT.COUNT g 0 0 && decide (g.offAt 0 % 0x1000 ≠ offIntStat)) = true) (k : Nat) (fault : Bool) (s : State) :
    FieldKept .saf g 0 (tripShown k fault s) (tripCounted k fault s) := by
  rw [Bool.and_eq_true] at h
  exact ((FieldKept.refl _).count _ _ (by decide) (.inr h.1)).raise _ _ h.2

theorem tripCounted_seen (k : Fin 4) (fault : Bool) (s : State) : TripSeen k fault (tripCounted k.val fault s) := by
  obtain ⟨hbit, hshown, hreport⟩ := tripShown_seen k fault s
  refine ⟨?_, (tripCounted_field (g := SAF_STATUS.TRIP) (by decide) _ _ _).isSet.trans hshown, fun hf => ?_⟩
  · rw [(tripCounted_field (g := tripField fault) (by cases fault <;> decide) _ _ _).getF]
    exact hbit
  · obtain ⟨hclass, hint⟩ := hreport hf
    exact ⟨(tripCounted_field (g := SAF_DIAG_LAST.CLASS) (by decide) _ _ _).getF.trans hclass,
      intOf_raise_mono _ _ _ _ _ ((intOf_setF _ _ _ _ _ _ (by decide) (by decide)).trans hint)⟩

theorem tripCounted_count (k : Nat) (fault : Bool) (s : State) :
    getF (tripCounted k fault s) .saf SAF_TRIP_CNT.COUNT = min (getF s .saf SAF_TRIP_CNT.COUNT + 1) 0xFFFFFFFF := by
  have h : getF (tripShown k fault s) .saf SAF_TRIP_CNT.COUNT = getF s .saf SAF_TRIP_CNT.COUNT := by
    refine (tripBit_field (fault := fault) (g := SAF_TRIP_CNT.COUNT) (by cases fault <;> decide) _ _ _).getF.trans ?_
    split
    · exact (diagReport_field (g := SAF_TRIP_CNT.COUNT) (by decide) _ _ _).getF
    · rfl
  unfold tripCounted
  rw [getF_raise _ _ _ (by decide) (by decide), getF_count _ _ _ (by decide), h]
  rfl

theorem tripCounted_within (k : Nat) (fault : Bool) (s : State) : Within 0x20000020000008 s (tripCounted k fault s) :=
  raise_within (count_within (tripShown_within k fault s) .saf _ rfl) .saf _ rfl rfl

/-- What SAF shows is as it was before the drivers of a bank were turned off. -/
theorem stopBank_saf (k : Nat) (s : State) : Within 0x2003a021800000 s (stopBank k s) := stopBank_within .refl k rfl

theorem TripSeen.stopBank {k : Fin 4} {fault : Bool} {s : State} (h : TripSeen k fault s) (j : Nat) : TripSeen k fault (stopBank j s) := by
  have hw := stopBank_saf j s
  refine ⟨?_, ?_, fun hf => ?_⟩
  · rw [hw.getF_addr .saf _ rfl]
    exact h.bit
  · exact (FieldKept.within (q := .saf) (j := 0) hw rfl).isSet.trans h.shown
  · obtain ⟨hclass, hint⟩ := h.report hf
    exact ⟨(hw.getF_addr .saf _ rfl).trans hclass, (hw.intOf_addr .saf _ rfl).trans hint⟩

/-- A hot spot's trip of its bank (R473). -/
theorem tripBank_effect (k : Fin 4) (fault : Bool) (s : State) : let t := tripBank k.val fault s
    TripSeen k fault t ∧ (tripped s (12 * k.val) = false → (∀ n ∈ bankPorts k.val, driverOn t n = false) ∧
      getF t .saf SAF_TRIP_CNT.COUNT = min (getF s .saf SAF_TRIP_CNT.COUNT + 1) 0xFFFFFFFF ∧ intOf t .saf SAF_INT.TRIP = true) ∧
    (∀ n : Port, n.val ∉ bankPorts k.val ∨ tripped s (12 * k.val) = true → driverOn t n.val = driverOn s n.val) := by
  dsimp only
  rw [tripBank_eq]
  split
  next h => exact ⟨tripShown_seen k fault s, fun h' => absurd h (by rw [h']; decide), fun n _ => driverOn_within (tripShown_within _ _ _) rfl _⟩
  next h =>
    have hw := stopBank_saf k.val (tripCounted k.val fault s)
    have hon : ∀ n : Port, driverOn (stopBank k.val (tripCounted k.val fault s)) n.val = (driverOn s n.val && decide (n.val ∉ bankPorts k.val)) := fun n => by
      rw [driverOn_stopBank, driverOn_within (tripCounted_within _ _ _) rfl]
    refine ⟨(tripCounted_seen k fault s).stopBank _, fun _ => ⟨fun n hn => ?_, ?_, ?_⟩, fun n hn => ?_⟩
    · have hlt : n < 52 := by
        obtain ⟨i, hi, rfl⟩ := List.mem_map.1 hn
        have := List.mem_range.1 hi
        omega
      refine (hon ⟨n, hlt⟩).trans ?_
      rw [decide_eq_false (not_not.2 hn), Bool.and_false]
    · exact (hw.getF_addr .saf _ rfl).trans (tripCounted_count _ _ _)
    · exact (hw.intOf_addr .saf _ rfl).trans (intOf_raise _ _ _ (by decide))
    · refine (hon n).trans ?_
      rw [decide_eq_true (hn.resolve_right h), Bool.and_true]

/-- Settles O42: a trip sets one bit of one field and turns off the drivers of its bank alone; a lift clears that bit. -/
theorem bankTrips : Obligations.BankTrips := by
  unfold Obligations.BankTrips
  refine ⟨?_, ?_, ?_, ?_⟩
  · intro k fault s hon hf
    obtain ⟨⟨hbit, hshown, hreport⟩, hnew, hold⟩ := tripBank_effect k fault s
    refine Yields.intro (congrArg Host.Outcome.next (if_neg ?_)) ⟨hbit, hshown, hreport, hnew, hold⟩
    rw [hon, hf]
    cases fault <;> decide
  · intro k fault s h
    refine Yields.intro (congrArg Host.Outcome.next (if_pos ?_)) rfl
    rcases h with h | h
    · rw [h]
      rfl
    · rw [bne_iff_ne.2 h, Bool.or_true]
  · intro k s
    refine Yields.guardNot rfl (by simp) (fun _ => ?_)
    have hw := logPage_within (m := 0x20000028000028) (raise_within (s := s) .refl .saf SAF_INT.SI_WARN rfl rfl) .saf SAF_INT.SI_WARN [k.val] rfl
    refine ⟨?_, fun hroom => ?_, fun n => driverOn_within hw rfl _⟩
    · exact ((logPage_within (m := 0x20000028000020) .refl .saf SAF_INT.SI_WARN [k.val] rfl).intOf_addr .saf _ rfl).trans (intOf_raise .saf SAF_INT.SI_WARN s (by decide))
    · refine logPage_logged (s := raise .saf SAF_INT.SI_WARN s) ?_ _ _ _
      unfold LogRoom
      rwa [log_raise]
  · intro k fault s
    refine Yields.unless rfl .rfl (fun _ => ?_)
    refine ⟨(tripBit_self fault k false s).trans (if_neg (by decide)), ?_, tripBit_shown _ _ _ _, tripBit_regs fault _ _ _⟩
    cases fault
    · exact tripBit_other false k.val false s
    · exact tripBit_other true k.val false s

end Sys2Proof.Machine
end

section
/-!
PROOFS. The resets of the module (R81–R83, R88): a trial that is given up is logged before the module starts again.
-/
namespace Sys2Proof.Machine

/-- A module in service with slot 0 in trial and an empty log. -/
def trialState : State := setI .boot BOOT_IMG.STATE 0 SLOT.TRIAL (setF .boot BOOT_STATUS.MODE MODE.SERVICE State.reset)

theorem trialState_onTrial : mode trialState = MODE.SERVICE ∧ trialSlots trialState ≠ [] := by decide +kernel

/-- The revert is one record, so the next record's number is no longer 0. -/
theorem trialState_logNext : reg (revertTrial trialState) (addr .mgt 0x100) ≠ reg trialState (addr .mgt 0x100) := by decide +kernel

/-- Refutes O43: the revert of a trial counts up MGT_LOG_NEXT, which is one of the registers that a restart is said to keep. -/
theorem not_moduleResets : ¬ Obligations.ModuleResets := by
  unfold Obligations.ModuleResets
  rintro ⟨-, -, htrial, -⟩
  obtain ⟨t, hex, hrest⟩ := htrial trialState
  have ht : revertTrial trialState = t := Host.Outcome.next.inj ((congrArg Host.Outcome.next (if_pos trialState_onTrial).symm).trans hex)
  rw [if_pos trialState_onTrial, ← ht] at hrest
  obtain ⟨⟨-, -, -, -, -, -, -, -, hstored, -⟩, -⟩ := hrest
  exact trialState_logNext (hstored (.mgt, [0x100, 0x104]) (by decide) (by decide) 0x100 (by decide))

end Sys2Proof.Machine
end

section
/-!
PROOFS. A start of the module: what a reset keeps and what it returns to reset (R81, R82, R84), and the wakes (R72, R75, R85, R386, R463, R496).
-/
namespace Sys2Proof.Machine

/-! Registers lost and kept. -/

theorem Map.get_filterKey {α : Type} {d : Nat → α} (p : Nat → Bool) (m : List (Nat × α)) (k : Nat) :
    Map.get d (m.filter (fun e => p e.1)) k = if p k then Map.get d m k else d k := by
  induction m with
  | nil => simp [Map.get]
  | cons e m ih =>
    obtain ⟨j, v⟩ := e
    by_cases hj : j = k
    · subst hj
      cases hp : p j <;> simp [Map.get, hp, ih]
    · cases hp : p j <;> simp [Map.get, hp, ih, hj]

theorem reg_lost (power wake : Bool) (s : State) (a : Nat) : reg (lost power wake s) a = if keptReg power a then reg s a else regReset a :=
  Map.get_filterKey (keptReg power) s.regs a

/-- The registers that a loss writes again over what it keeps. -/
def loseTouched : List Nat :=
  [addr .tkt 0x0C, addr .mgt 0x0C, addr .sto 0x0C, addr (.ser 2) SER_CARD.PRESENT.off, addr (.ser 3) SER_CARD.PRESENT.off, addr .tru 0x0C, addr .pwr 0x100, addr .mgt 0x10C, addr .mgt 0x110]

theorem keepBits_regs (old s : State) : RegsBut loseTouched s (keepBits keptBits old s) := by
  unfold keepBits keptBits
  simp only [List.foldl_cons, List.foldl_nil]
  repeat' refine RegsBut.setB ?_ _ (by decide)
  exact RegsBut.refl _ s

theorem lose_regs (power wake : Bool) (s : State) : RegsBut loseTouched (lost power wake s) (lose power wake s) := by
  unfold lose
  extract_lets t1 t2
  have h1 : RegsBut loseTouched (lost power wake s) t1 := keepBits_regs _ _
  have h2 : RegsBut loseTouched (lost power wake s) t2 := by
    unfold t2
    split
    · exact h1
    · exact (h1.setF _ (by decide)).setB _ (by decide)
  split
  · simp only [List.foldl_cons, List.foldl_nil]
    exact ((((((h2.setB _ (by decide)).setF _ (by decide)).setF _ (by decide)).setF _ (by decide)).setF _ (by decide)).setF _ (by decide)).setF _ (by decide)
  · exact h2

/-- A loss changes registers and nothing else of what is kept. -/
theorem lose_within_lost (power wake : Bool) (s : State) : Within 0x3ffffff (lost power wake s) (lose power wake s) := by
  unfold lose
  extract_lets t1 t2
  have h1 : Within 0x3ffffff (lost power wake s) t1 := keepBits_within .refl _ _ rfl
  have h2 : Within 0x3ffffff (lost power wake s) t2 := by
    unfold t2
    split
    · exact h1
    · exact setB_within (setF_within h1 .pwr _ _ rfl) .tru _ _ rfl
  split
  · exact Within.foldl (fun u f hu => setF_within hu .mgt f _ rfl) (setB_within h2 .mgt _ _ rfl)
  · exact h2

/-- The state whose contents a start keeps: after power-on the one before, else the one whose commands have ended. -/
def beforeStart (cause : Nat) (s : State) : State := if decide (cause = START.POWER_ON) then s else resetCommands s

/-- The registers that a start writes over what it keeps. -/
def startTouched (cause : Nat) : List Nat :=
  loseTouched ++ [addr .boot 0x104, addr .boot offIntStat, addr .saf 0x0C, addr .saf 0x100] ++ if cause = START.WAKE then [] else [addr .pwr PWR_WAKE_CAUSE.CAUSE.off]

/-- A start before the kill of a module in reset is shown. -/
def startShown (cause : Nat) (s : State) : State :=
  let s1 := lose (decide (cause = START.POWER_ON)) (decide (cause = START.WAKE)) (beforeStart cause s)
  let s2 := if cause = START.WAKE then s1 else setF .pwr PWR_WAKE_CAUSE.CAUSE 0 s1
  let s3 := setReg (addr .boot BOOT_CAUSE.POWER_ON.off) (BitVec.ofNat 32 (2 ^ cause)) s2
  if cause = START.REVERT then raise .boot BOOT_INT.TRIAL_REVERTED s3 else s3

theorem restart_eq (cause : Nat) (s : State) : restart cause s = resetKill (!decide (cause = START.POWER_ON) && (killCauses s).testBit KILL.TEMP) (startShown cause s) := by
  unfold restart startShown beforeStart
  rfl

/-- What a start keeps, before it is shown. -/
def startKept (cause : Nat) (s : State) : State := lost (decide (cause = START.POWER_ON)) (decide (cause = START.WAKE)) (beforeStart cause s)

theorem startShown_regs (cause : Nat) (s : State) : RegsBut (startTouched cause) (startKept cause s) (startShown cause s) := by
  have hmem : ∀ a ∈ loseTouched ++ [addr .boot 0x104, addr .boot offIntStat, addr .saf 0x0C, addr .saf 0x100], a ∈ startTouched cause := fun a ha => List.mem_append_left _ ha
  unfold startShown
  extract_lets s1 s2 s3
  have h1 : RegsBut (startTouched cause) (startKept cause s) s1 := fun a ha => lose_regs _ _ _ a (fun h => ha (hmem a (List.mem_append_left _ h)))
  have h2 : RegsBut (startTouched cause) (startKept cause s) s2 := by
    unfold s2
    split
    · exact h1
    next hc => exact h1.setF _ (List.mem_append_right _ (by rw [if_neg hc]; exact List.mem_singleton.2 rfl))
  have h3 : RegsBut (startTouched cause) (startKept cause s) s3 := h2.setReg _ (hmem _ (by decide))
  split
  · exact h3.raise _ (hmem _ (by decide))
  · exact h3

theorem restart_regs (cause : Nat) (s : State) : RegsBut (startTouched cause) (startKept cause s) (restart cause s) := by
  have hmem : ∀ a ∈ loseTouched ++ [addr .boot 0x104, addr .boot offIntStat, addr .saf 0x0C, addr .saf 0x100], a ∈ startTouched cause := fun a ha => List.mem_append_left _ ha
  rw [restart_eq]
  exact ((startShown_regs cause s).setB _ (hmem _ (by decide))).setF _ (hmem _ (by decide))

theorem startShown_within (cause : Nat) (s : State) : Within 0x20000023ffffff (startKept cause s) (startShown cause s) := by
  unfold startShown
  extract_lets s1 s2 s3
  have h1 : Within 0x20000023ffffff (startKept cause s) s1 := (lose_within_lost _ _ _).weaken rfl
  have h2 : Within 0x20000023ffffff (startKept cause s) s2 := by
    unfold s2
    split
    · exact h1
    · exact setF_within h1 .pwr _ _ rfl
  have h3 : Within 0x20000023ffffff (startKept cause s) s3 := setReg_within h2 .boot BOOT_CAUSE.POWER_ON.off _ rfl
  split
  · exact raise_within h3 .boot _ rfl rfl
  · exact h3

theorem restart_within_kept (cause : Nat) (s : State) : Within 0x20000023ffffff (startKept cause s) (restart cause s) := by
  rw [restart_eq]
  exact resetKill_within (startShown_within cause s) _ rfl

/-- A register that a start does not write. -/
theorem reg_restart {cause : Nat} {a : Nat} (h : a ∉ startTouched cause) (s : State) :
    reg (restart cause s) a = if keptReg (decide (cause = START.POWER_ON)) a then reg (beforeStart cause s) a else regReset a :=
  (restart_regs cause s a h).trans (reg_lost _ _ _ _)

/-! The commands that a reset ends. -/

theorem loadReset_regs (s : State) {q : Page} (o : Nat) (hq : q ≠ .boot) : reg (loadReset s) (addr q o) = reg s (addr q o) := by
  unfold loadReset
  split
  · split
    · exact reg_setReg_other _ _ (addr_kind hq)
    · rfl
  · rfl

theorem resetCommands_regs (s : State) {q : Page} {o : Nat} (h0 : 0x100 ≤ o) (ho : o < 0x1000) (hb : q ≠ .boot) (hp : q ≠ .pci) :
    reg (resetCommands s) (addr q o) = reg s (addr q o) := by
  unfold resetCommands
  refine Eq.trans ?_ (loadReset_regs s o hb)
  exact foldl_keeps (g := fun u => reg u (addr q o)) (fun u p => reg_complete u p _ _ ho hp (.inr h0)) _ _

/-- What the end of the commands leaves: everything but registers, the rings and what is sent out. -/
theorem resetCommands_within' (s : State) : Within 0x20000037ffffff s (resetCommands s) := resetCommands_within .refl rfl

theorem beforeStart_within (cause : Nat) (s : State) : Within 0x20000037ffffff s (beforeStart cause s) := by
  unfold beforeStart
  split
  · exact .refl
  · exact resetCommands_within .refl rfl

theorem beforeStart_regs (cause : Nat) (s : State) {q : Page} {o : Nat} (h0 : 0x100 ≤ o) (ho : o < 0x1000) (hb : q ≠ .boot) (hp : q ≠ .pci) :
    reg (beforeStart cause s) (addr q o) = reg s (addr q o) := by
  unfold beforeStart
  split
  · rfl
  · exact resetCommands_regs s h0 ho hb hp

/-! The stored configuration. -/

theorem storedRegs_plain : ∀ e ∈ storedRegs, e.1 ≠ .pci ∧ e.1 ≠ .pwr ∧ ∀ o ∈ e.2, 0x100 ≤ o ∧ o < 0x1000 ∧ addr e.1 o ∉ startTouched 0 ∧ addr e.1 o ∉ startTouched START.WAKE := by decide +kernel

theorem startTouched_stored {e : Page × List Nat} (he : e ∈ storedRegs) {o : Nat} (ho : o ∈ e.2) (cause : Nat) : addr e.1 o ∉ startTouched cause := by
  obtain ⟨-, -, hall⟩ := storedRegs_plain e he
  obtain ⟨-, -, h1, h2⟩ := hall o ho
  by_cases hc : cause = START.WAKE
  · rw [hc]
    exact h2
  · have heq : startTouched cause = startTouched 0 := by
      unfold startTouched
      rw [if_neg hc]
      rfl
    rw [heq]
    exact h1

theorem keptReg_stored {e : Page × List Nat} (he : e ∈ storedRegs) {o : Nat} (ho : o ∈ e.2) (power : Bool) : keptReg power (addr e.1 o) = true := by
  obtain ⟨-, -, hall⟩ := storedRegs_plain e he
  obtain ⟨-, hlt, -⟩ := hall o ho
  have hin : regIn storedRegs (addr e.1 o) = true := by
    refine List.any_eq_true.2 ⟨e, he, ?_⟩
    unfold addr
    rw [Nat.mod_eq_of_lt hlt, decide_eq_true (Nat.le_add_right _ _), Nat.add_sub_cancel_left, Bool.true_and]
    exact List.contains_iff_mem.2 ho
  unfold keptReg
  rw [hin, Bool.true_or]

/-- Every stored register beyond BOOT's is as before the start. -/
theorem reg_restart_stored {e : Page × List Nat} (he : e ∈ storedRegs) (hb : e.1 ≠ .boot) {o : Nat} (ho : o ∈ e.2) (cause : Nat) (s : State) :
    reg (restart cause s) (addr e.1 o) = reg s (addr e.1 o) := by
  obtain ⟨hp, -, hall⟩ := storedRegs_plain e he
  obtain ⟨h0, hlt, -⟩ := hall o ho
  rw [reg_restart (startTouched_stored he ho cause), keptReg_stored he ho, if_pos rfl]
  exact beforeStart_regs cause s h0 hlt hb hp

/-! A start. -/

/-- STAGE and MODE are lost, and so is what a port shows. -/
theorem startTouched_status (cause : Nat) : addr .boot 0x100 ∉ startTouched cause ∧ ∀ n : Port, addr (lptPage n.val) offStatus ∉ startTouched cause := by
  unfold startTouched
  split <;> decide +kernel

theorem keptReg_status : ∀ power, keptReg power (addr .boot 0x100) = false ∧ ∀ n : Port, keptReg power (addr (lptPage n.val) offStatus) = false := by decide +kernel

theorem regReset_status : regReset (addr .boot 0x100) = 0x101 ∧ ∀ n : Port, ¬ getBits (regReset (addr (lptPage n.val) offStatus)) 28 28 ≠ 0 := by decide +kernel

theorem boot_restart (cause : Nat) (s : State) : reg (restart cause s) (addr .boot 0x100) = 0x101 := by
  rw [reg_restart (startTouched_status cause).1, (keptReg_status _).1, if_neg (by decide), regReset_status.1]

theorem driverOn_restart (cause : Nat) (s : State) (n : Port) : driverOn (restart cause s) n.val = false := by
  have h : reg (restart cause s) (addr (lptPage n.val) offStatus) = regReset (addr (lptPage n.val) offStatus) := by
    rw [reg_restart ((startTouched_status cause).2 n), (keptReg_status _).2 n, if_neg (by decide)]
  unfold driverOn isSet getF getI
  rw [show LPT_STATUS.DRV_EN.offAt 0 = offStatus from rfl, h]
  exact decide_eq_false (regReset_status.2 n)

theorem outstanding_restart (cause : Nat) (s : State) (p : Page) : outstanding (restart cause s) p = none := by
  rw [outstanding_eq ((restart_within_kept cause s).same .cmds rfl)]
  rfl

theorem cause_restart {cause : Nat} (hc : cause < 32) (s : State) : getBits (reg (restart cause s) (addr .boot 0x104)) 31 0 = 2 ^ cause := by
  have hlt : 2 ^ cause < 2 ^ 32 := Nat.pow_lt_pow_right (by decide) hc
  have h3 : reg (startShown cause s) (addr .boot 0x104) = BitVec.ofNat 32 (2 ^ cause) := by
    unfold startShown
    extract_lets s1 s2 s3
    have : reg s3 (addr .boot 0x104) = BitVec.ofNat 32 (2 ^ cause) := reg_setReg_self _ _ _
    split
    · exact (reg_raise_other _ _ _ (by decide) (.inr (by decide))).trans this
    · exact this
  have h : reg (restart cause s) (addr .boot 0x104) = reg (startShown cause s) (addr .boot 0x104) := by
    rw [restart_eq]
    exact ((RegsBut.refl [addr .saf 0x0C, addr .saf 0x100] _).setB _ (by decide)).setF _ (by decide) _ (by decide)
  rw [h, h3]
  unfold getBits
  rw [BitVec.toNat_ofNat, Nat.shiftRight_zero, Nat.mod_eq_of_lt hlt]
  exact Nat.mod_eq_of_lt hlt

theorem kill_restart (cause : Nat) (s : State) : (killCauses (restart cause s)).testBit KILL.RESET = true := by
  rw [restart_eq]
  unfold resetKill
  extract_lets s1
  generalize (!decide (cause = START.POWER_ON) && (killCauses s).testBit KILL.TEMP) = temp
  generalize (startShown cause s).pwr.killLow = low
  have h : killCauses (setF .saf SAF_KILL.CAUSE (2 ^ KILL.RESET + (if low then 2 ^ KILL.KILLN else 0) + (if temp then 2 ^ KILL.TEMP else 0)) s1) = _ :=
    getF_setF_self _ _ _ _ (by decide)
  rw [h]
  cases low <;> cases temp <;> decide

/-- A start is a restart of the machine for its cause (R81, R84). The stored configuration, the clock and the table may be those of a state that agrees
with the one that starts. -/
theorem restart_restarted {cause : Nat} (hc : cause < 32) {s u : State} (hregs : ∀ e ∈ storedRegs, e.1 ≠ .boot → ∀ o ∈ e.2, reg u (addr e.1 o) = reg s (addr e.1 o))
    (htime : u.time.rtc = s.time.rtc ∨ cause = START.POWER_ON) (hmac : u.mac.table = s.mac.table) : Restarted cause s (restart cause u) := by
  have hw := restart_within_kept cause u
  have hb := beforeStart_within cause u
  unfold Restarted stage mode getF getI
  refine ⟨?_, ?_, ?_, cause_restart hc u, outstanding_restart cause u, driverOn_restart cause u, kill_restart cause u, ?_, ?_, ?_, ?_⟩
  · rw [hw.same .pwr rfl]
    rfl
  · rw [show BOOT_STATUS.STAGE.offAt 0 = 0x100 from rfl, boot_restart]
    rfl
  · rw [show BOOT_STATUS.MODE.offAt 0 = 0x100 from rfl, boot_restart]
    rfl
  · rw [hw.same .time rfl]
    rfl
  · exact fun e he hb' o ho => (reg_restart_stored he hb' ho cause u).trans (hregs e he hb' o ho)
  · intro hne
    rw [hw.same .time rfl, ← htime.resolve_right hne]
    have h : (beforeStart cause u).time = u.time := hb.same .time rfl
    exact (congrArg TimeSt.rtc h : (beforeStart cause u).time.rtc = u.time.rtc)
  · rw [hw.same .mac rfl, ← hmac, ← hb.same .mac rfl]
    unfold startKept lost keptMac
    by_cases hwake : cause = START.WAKE
    · rw [if_pos hwake, decide_eq_true hwake]
      rfl
    · rw [if_neg hwake, decide_eq_false hwake]
      rfl

/-- A restart seen from a state that agrees with its own on what a start keeps. -/
theorem restart_start {cause : Nat} (hc : cause < 32) (s : State) : Restarted cause s (restart cause s) := restart_restarted hc (fun _ _ _ _ _ => rfl) (.inl rfl) rfl

/-! Wakes (R72). -/

/-- The wake with its source latched. -/
def latchWake (k : Nat) (s : State) : State := setF .pwr PWR_WAKE_CAUSE.CAUSE (2 ^ k) s

theorem wake_eq (k : Nat) (s : State) : wake k s =
    if s.pwr.state = .dormouse ∧ (reg s (addr .pwr PWR_WAKE_EN.MAIN.off)).toNat.testBit k then restart START.WAKE (latchWake k s) else s := rfl

/-- A wake of a state that differs from `s` in pins and clock only. -/
theorem latchWake_restarted (k : Nat) {s u : State} (hr : u.regs = s.regs) (hm : u.mac = s.mac) (ht : u.time = s.time) : Restarted START.WAKE s (restart START.WAKE (latchWake k u)) := by
  refine restart_restarted (by decide) (fun e he _ o ho => ?_) (.inl ?_) ?_
  · obtain ⟨-, hpwr, -⟩ := storedRegs_plain e he
    refine (reg_setReg_other _ _ (addr_kind hpwr)).trans ?_
    unfold reg
    rw [hr]
  · exact congrArg TimeSt.rtc ht
  · exact congrArg MacSt.table hm

/-- The source of a wake is shown. -/
theorem wake_source {k : Nat} (hk : k < 6) (s : State) : getF (restart START.WAKE (latchWake k s)) .pwr PWR_WAKE_CAUSE.CAUSE = 2 ^ k := by
  have hreg : reg (restart START.WAKE (latchWake k s)) (addr .pwr 0x128) = reg (latchWake k s) (addr .pwr 0x128) := by
    rw [reg_restart (by decide +kernel), if_pos (by decide +kernel)]
    exact beforeStart_regs _ _ (by decide) (by decide) (by decide) (by decide)
  refine (congrArg (fun w => getBits w 5 0) hreg).trans ((getF_setF_self s .pwr PWR_WAKE_CAUSE.CAUSE (2 ^ k) (by decide)).trans ?_)
  exact Nat.mod_eq_of_lt (Nat.pow_lt_pow_right (by decide) hk)

theorem pwr_restart (cause : Nat) (s : State) : (restart cause s).pwr = (lost (decide (cause = START.POWER_ON)) (decide (cause = START.WAKE)) s).pwr := by
  rw [(restart_within_kept cause s).same .pwr rfl]
  unfold startKept lost
  rw [show (beforeStart cause s).pwr = s.pwr from (beforeStart_within cause s).same .pwr rfl]

/-- The alarm of the real-time counter (R75). -/
theorem rtcAlarm_effect (s : State) : let u : State := { s with time := { s.time with rtc := s.pwr.alarm } }
    let t := if s.pwr.state = .dormouse then wake 2 u else if moduleOn s then raise .pwr PWR_INT.RTC_ALARM u else s
    (if s.pwr.state = .off then t = s else t.time.rtc = s.pwr.alarm) ∧
    (s.pwr.state = .dormouse → (reg s (addr .pwr PWR_WAKE_EN.MAIN.off)).toNat.testBit 2 = true → stage t = 1 ∧ getF t .pwr PWR_WAKE_CAUSE.CAUSE = 4) ∧
    (moduleOn s = true → intOf t .pwr PWR_INT.RTC_ALARM = true ∧ RegsBut [addr .pwr offIntStat] s t) := by
  intro u t
  by_cases hd : s.pwr.state = .dormouse
  · have ht : t = wake 2 u := if_pos hd
    have hoff : moduleOn s ≠ true := by
      unfold moduleOn
      rw [hd]
      decide
    rw [ht, wake_eq, if_neg (by rw [hd]; decide)]
    refine ⟨?_, fun _ hen => ?_, fun h => absurd h hoff⟩
    · split
      · obtain ⟨-, -, -, -, -, -, -, -, -, hrtc, -⟩ := restart_start (cause := START.WAKE) (by decide) (latchWake 2 u)
        exact hrtc (by decide)
      · rfl
    · rw [if_pos ⟨hd, hen⟩]
      obtain ⟨-, hstage, -⟩ := restart_start (cause := START.WAKE) (by decide) (latchWake 2 u)
      exact ⟨hstage, wake_source (k := 2) (by decide) u⟩
  · by_cases hon : moduleOn s = true
    · have ht : t = raise .pwr PWR_INT.RTC_ALARM u := (if_neg hd).trans (if_pos hon)
      rw [ht]
      have hoff : ¬ s.pwr.state = .off := fun h => by
        unfold moduleOn at hon
        rw [h] at hon
        cases hon
      rw [if_neg hoff, time_raise]
      exact ⟨rfl, fun h => absurd h hd, fun _ => ⟨intOf_raise _ _ _ (by decide), (show RegsBut [addr .pwr offIntStat] s u from fun _ _ => rfl).raise (p := .pwr) _ (List.mem_singleton.2 rfl)⟩⟩
    · have ht : t = s := (if_neg hd).trans (if_neg hon)
      have hoff : s.pwr.state = .off := by
        unfold moduleOn at hon
        revert hon hd
        cases s.pwr.state <;> simp
      rw [ht, if_pos hoff]
      exact ⟨rfl, fun h => absurd h hd, fun h => absurd h hon⟩

/-! The rings under PERST#. -/

theorem perstRing_en {k : Nat} (hk : k < 29) {r : Nat} (hr : r < 29) (s : State) :
    getI (killRing r (loseRing r s)) .pci PCI_RING.EN k = if k = r then 0 else getI s .pci PCI_RING.EN k := by
  rw [killRing_en hk hr]
  rfl

theorem perstRings_en (k : Fin 29) (s : State) : getI (perstRings s) .pci PCI_RING.EN k.val = 0 := by
  have hfold : ∀ (l : List Nat) (u : State), (∀ r ∈ l, r < 29) → (k.val ∈ l ∨ getI u .pci PCI_RING.EN k.val = 0) →
      getI (l.foldl (fun t r => killRing r (loseRing r t)) u) .pci PCI_RING.EN k.val = 0 := by
    intro l
    induction l with
    | nil => exact fun u _ h => h.resolve_left (by simp)
    | cons r l ih =>
      intro u hl h
      refine ih _ (fun x hx => hl x (.tail _ hx)) ?_
      rw [perstRing_en k.isLt (hl r (.head _))]
      by_cases hr : k.val = r
      · exact .inr (if_pos hr)
      · rw [if_neg hr]
        exact h.imp_left (fun h => (List.mem_cons.1 h).resolve_left hr)
  exact hfold _ s (fun r hr => List.mem_range.1 hr) (.inl (List.mem_range.2 k.isLt))

/-- The MSI-X table and its masks in reset. -/
def clearMsix (s : State) : State := { s with msixMask := 2 ^ 64 - 1, msixPba := 0, msixTable := [] }

theorem reg_clearMsix (s : State) (a : Nat) : reg (clearMsix s) a = reg s a := rfl

theorem pwr_clearMsix (s : State) : (clearMsix s).pwr = s.pwr := rfl

/-- The endpoint in reset. -/
def perstDown (s : State) : State :=
  setF .pci PCI_STATUS.WIDTH 0 (setF .pci PCI_STATUS.SPEED 0 (setB .pci PCI_STATUS.LINK_UP false (setB .pci PCI_STATUS.BUS_MASTER false (clearMsix (perstRings s)))))

theorem exec_perstAssert (s : State) : exec .perstAssert s = .next (if s.pwr.perstLow || !moduleOn s then { s with pwr := { s.pwr with perstLow := true } }
    else perstDown { s with pwr := { s.pwr with perstLow := true } }) := rfl

theorem perstRings_within' (s : State) : Within 0x280014000800 s (perstRings s) := perstRings_within .refl rfl

theorem perstDown_en (k : Fin 29) (s : State) : getI (perstDown s) .pci PCI_RING.EN k.val = 0 := by
  have hset : ∀ (f : Field) (v : Nat) (u : State), f.ordered = true → f.off = 0x0C → EnKept k.val u (setF .pci f v u) := fun f v u ho hf =>
    (FieldKept.refl u).setF _ _ _ ho (.inr (counterSplit (by rw [hf]; decide) k.val k.isLt))
  have h0 : EnKept k.val (perstRings s) (clearMsix (perstRings s)) := getI_congr (reg_clearMsix _ _)
  have h : EnKept k.val (perstRings s) (perstDown s) :=
    h0.trans ((hset _ _ _ (by decide) rfl).trans ((hset _ _ _ (by decide) rfl).trans ((hset _ _ _ (by decide) rfl).trans (hset _ _ _ (by decide) rfl))))
  exact Eq.trans h (perstRings_en k s)

theorem perstDown_link (s : State) : isSet (perstDown s) .pci PCI_STATUS.LINK_UP = false := by
  refine FieldKept.isSet (((FieldKept.refl (q := .pci) (g := PCI_STATUS.LINK_UP) (j := 0) _).setF .pci PCI_STATUS.SPEED 0 (by decide) (.inr (by decide))).setF .pci PCI_STATUS.WIDTH 0
    (by decide) (.inr (by decide))) |>.trans ?_
  exact isSet_setB_self _ _ _ _ (by decide)

theorem perstDown_msix (s : State) : (perstDown s).msixMask = 2 ^ 64 - 1 ∧ (perstDown s).msixPba = 0 ∧ (perstDown s).pwr = s.pwr := by
  unfold perstDown
  refine ⟨?_, ?_, ?_⟩
  · rw [msixMask_setF, msixMask_setF, msixMask_setB, msixMask_setB, clearMsix]
  · rw [msixPba_setF, msixPba_setF, msixPba_setB, msixPba_setB, clearMsix]
  · rw [pwr_setF, pwr_setF, pwr_setB, pwr_setB, pwr_clearMsix]
    exact (perstRings_within' s).same .pwr rfl

theorem perstDown_regs (s : State) {p : Page} (hp : p ≠ .pci) (o : Nat) : reg (perstDown s) (addr p o) = reg s (addr p o) := by
  have hset : ∀ (f : Field) (v : Nat) (u : State), reg (setF .pci f v u) (addr p o) = reg u (addr p o) := fun f v u => reg_setReg_other _ _ (addr_kind hp)
  have hkind : pageKind p ≠ .pci := by
    intro e
    cases p with
    | pci => exact hp rfl
    | _ => cases e
  have hk : Nat.testBit 0x280014000800 (kindCode (pageKind p)) = false := by
    generalize pageKind p = k at hkind
    cases k with
    | pci => exact absurd rfl hkind
    | _ => rfl
  unfold perstDown setB
  rw [hset, hset, hset, hset, reg_clearMsix]
  exact (perstRings_within' s).reg_addr p o hk

/-- Settles O44: a wake restarts the machine with the table and the source kept; PERST# changes the registers of the endpoint alone. -/
theorem wakes : Obligations.Wakes := by
  unfold Obligations.Wakes
  refine ⟨?_, ?_, ?_, ?_, ?_, ?_, ?_, ?_, ?_⟩
  · exact fun k s => Yields.guard (congrArg Host.Outcome.next (wake_eq k.val s)) .rfl
      (fun _ => ⟨latchWake_restarted k.val rfl rfl rfl, wake_source (Nat.lt_trans k.isLt (by decide)) s⟩)
  · intro s hlow hdorm hen
    let u : State := { s with pwr := { s.pwr with mrstLow := false } }
    have hex : exec .mrstRelease s = .next (restart START.WAKE (latchWake 4 u)) :=
      congrArg Host.Outcome.next ((if_pos hlow).trans ((wake_eq 4 u).trans (if_pos ⟨hdorm, hen⟩)))
    refine Yields.intro hex ⟨latchWake_restarted 4 rfl rfl rfl, ?_⟩
    rw [pwr_restart]
    rfl
  · intro s hdorm
    let u : State := { s with pwr := { s.pwr with mrstLow := false } }
    refine congrArg Host.Outcome.next (?_ : (if s.pwr.mrstLow then wake 4 u else u) = u)
    have h : wake 4 u = u := (wake_eq 4 u).trans (if_neg (fun h => hdorm h.1))
    rw [h, ite_self]
  · intro n s
    refine Yields.guard (c := n.val < 2 ∧ isSet s (.ser n) SER_SLEEP.EN = true ∧ s.pwr.state = .dormouse ∧ (reg s (addr .pwr PWR_WAKE_EN.MAIN.off)).toNat.testBit 3 = true)
      (x := restart START.WAKE (latchWake 3 s)) ?_ .rfl (fun _ => ⟨latchWake_restarted 3 rfl rfl rfl, wake_source (by decide) s⟩)
    show Host.Outcome.next (if n.val < 2 ∧ isSet s (.ser n) SER_SLEEP.EN = true then wake 3 s else s) = _
    rw [wake_eq]
    by_cases h1 : n.val < 2 ∧ isSet s (.ser n) SER_SLEEP.EN = true
    · rw [if_pos h1]
      by_cases h2 : s.pwr.state = .dormouse ∧ (reg s (addr .pwr PWR_WAKE_EN.MAIN.off)).toNat.testBit 3 = true
      · rw [if_pos h2, if_pos ⟨h1.1, h1.2, h2⟩]
      · rw [if_neg h2, if_neg (fun h => h2 h.2.2)]
    · rw [if_neg h1, if_neg (fun h => h1 ⟨h.1, h.2.1⟩)]
  · exact fun s => Yields.intro rfl (rtcAlarm_effect s)
  · exact fun s => Yields.intro rfl ⟨rfl, rfl, RegsBut.refl _ s⟩
  · exact fun v s => Yields.intro rfl ⟨rfl, reg_setReg_self _ _ _, (RegsBut.refl _ s).setReg _ (List.mem_singleton.2 rfl)⟩
  · intro s
    refine Yields.intro (exec_perstAssert s) ?_
    split
    next h =>
      refine ⟨rfl, fun hlow hon => absurd h ?_⟩
      rw [hlow, hon]
      decide
    next =>
      obtain ⟨hmask, hpba, hpwr⟩ := perstDown_msix { s with pwr := { s.pwr with perstLow := true } }
      refine ⟨by rw [hpwr], fun _ _ => ⟨perstDown_link _, hmask, hpba, fun r => perstDown_en r _, fun p hp o _ => perstDown_regs _ hp o⟩⟩
  · exact fun s => rfl

end Sys2Proof.Machine
end

section
/-!
PROOFS. The power states (R67, R68, R70, R71, R73–R75, R81): DORMOUSE, OUTAGE, the last-gasp frame, the shutdown and power-on.
-/
namespace Sys2Proof.Machine

/-! A module that loses what it holds. -/

theorem loseTouched_start {a : Nat} {cause : Nat} (h : a ∉ startTouched cause) : a ∉ loseTouched :=
  fun ha => h (List.mem_append_left _ (List.mem_append_left _ ha))

theorem lost_parts (power wake : Bool) (s : State) : (lost power wake s).cmds = [] ∧ (lost power wake s).time.running = false ∧
    (lost power wake s).mac = keptMac wake s.mac ∧ (lost power wake s).pwr.savedSfn = s.pwr.savedSfn ∧ (lost power wake s).pwr.savedRtc = s.pwr.savedRtc := ⟨rfl, rfl, rfl, rfl, rfl⟩

theorem driverOn_lose (power wake : Bool) (s : State) (n : Port) : driverOn (lose power wake s) n.val = false := by
  have h : reg (lose power wake s) (addr (lptPage n.val) offStatus) = regReset (addr (lptPage n.val) offStatus) := by
    rw [lose_regs _ _ _ _ (loseTouched_start ((startTouched_status 0).2 n)), reg_lost, (keptReg_status _).2 n, if_neg (by decide)]
  unfold driverOn isSet getF getI
  rw [show LPT_STATUS.DRV_EN.offAt 0 = offStatus from rfl, h]
  exact decide_eq_false (regReset_status.2 n)

theorem outstanding_lose (power wake : Bool) (s : State) (p : Page) : outstanding (lose power wake s) p = none := by
  rw [outstanding_eq ((lose_within_lost power wake s).same .cmds rfl)]
  unfold outstanding slotOf
  rw [(lost_parts power wake s).1]
  rfl

theorem outstanding_goOff (s : State) (p : Page) : outstanding (goOff s) p = none := by
  unfold goOff
  rw [outstanding_eq (cmds_setPwr _ _)]
  exact outstanding_lose _ _ _ p

theorem running_goOff (s : State) : (goOff s).time.running = false := by
  unfold goOff
  rw [time_setPwr, (lose_within_lost true false _).same .time rfl]
  exact (lost_parts true false _).2.1

theorem state_goOff (s : State) : (goOff s).pwr.state = .off := by
  unfold goOff
  rw [pwr_setPwr]

/-- A module that goes off keeps its stored configuration. -/
theorem goOff_stored (s : State) {e : Page × List Nat} (he : e ∈ storedRegs) (hb : e.1 ≠ .boot) {o : Nat} (ho : o ∈ e.2) :
    reg (goOff s) (addr e.1 o) = reg s (addr e.1 o) := by
  obtain ⟨hp, -, hall⟩ := storedRegs_plain e he
  obtain ⟨h0, hlt, hstart, -⟩ := hall o ho
  have hlose : reg (lose true false (resetCommands s)) (addr e.1 o) = reg (resetCommands s) (addr e.1 o) := by
    rw [lose_regs _ _ _ _ (loseTouched_start hstart), reg_lost, keptReg_stored he ho, if_pos rfl]
  have hregs : (goOff s).regs = (lose true false (resetCommands s)).regs := by
    unfold goOff
    rw [regs_setPwr]
  have hreg : reg (goOff s) (addr e.1 o) = reg (lose true false (resetCommands s)) (addr e.1 o) := by
    unfold reg
    rw [hregs]
  exact hreg.trans (hlose.trans (resetCommands_regs s h0 hlt hb hp))

theorem goOff_table (s : State) : (goOff s).mac.table = [] := by
  unfold goOff
  obtain ⟨-, -, hmac, -⟩ := lost_parts true false (resetCommands s)
  rw [mac_setPwr, (lose_within_lost true false _).same .mac rfl, hmac]
  rfl

/-! DORMOUSE (R71). -/

/-- What a module keeps in DORMOUSE. -/
def asleep (savedSfn savedRtc : Nat) (s : State) : State :=
  lose false true (resetCommands (setPwr { s.pwr with savedSfn := savedSfn, savedRtc := savedRtc, autoDue := false } s))

/-- DORMOUSE begins once the module's work has ended. -/
theorem enterDormouse_eq (s : State) : ∃ u v temp, enterDormouse s = resetKill temp (setPwr { v.pwr with state := .dormouse } v) ∧ v = asleep (sfn s) s.time.rtc u ∧
    Within 0x3147a03f800c62 s u := by
  unfold enterDormouse
  extract_lets s1 s2 s3 s4 temp _ s5 _
  refine ⟨s4, s5, temp, rfl, rfl, ?_⟩
  have h3 : Within 0x3147a03f800c62 s s3 := logFlush_within (logEvent_within (linkTime_within (endStore_within (stopSelfCal_within (allDriversOff_within .refl rfl) rfl) rfl) _ _ _ rfl) _ _ _ rfl) rfl
  unfold s4
  clear_value s3
  split
  · split
    · exact done_within h3 .pwr _ rfl rfl
    · exact h3
  · exact h3

theorem asleep_mac (a b : Nat) (s : State) : (asleep a b s).mac.table = s.mac.table := by
  unfold asleep
  generalize hu : setPwr { s.pwr with savedSfn := a, savedRtc := b, autoDue := false } s = u
  obtain ⟨-, -, hmac, -⟩ := lost_parts false true (resetCommands u)
  rw [(lose_within_lost false true _).same .mac rfl, hmac, (resetCommands_within' u).same .mac rfl, ← hu, mac_setPwr]
  rfl

theorem asleep_pwr (a b : Nat) (s : State) : (asleep a b s).pwr.savedSfn = a ∧ (asleep a b s).pwr.savedRtc = b := by
  unfold asleep
  generalize hu : setPwr { s.pwr with savedSfn := a, savedRtc := b, autoDue := false } s = u
  obtain ⟨-, -, -, hsfn, hrtc⟩ := lost_parts false true (resetCommands u)
  rw [(lose_within_lost false true _).same .pwr rfl, hsfn, hrtc, (resetCommands_within' u).same .pwr rfl, ← hu, pwr_setPwr]
  exact ⟨rfl, rfl⟩

/-- A module in DORMOUSE (R71, R74). -/
theorem enterDormouse_effect (s : State) : let t := enterDormouse s
    t.pwr.state = .dormouse ∧ (∀ n : Port, driverOn t n.val = false) ∧ (∀ p, outstanding t p = none) ∧ t.mac.table = s.mac.table ∧ t.pwr.savedSfn = sfn s ∧ t.pwr.savedRtc = s.time.rtc := by
  obtain ⟨u, v, temp, he, hv, hu⟩ := enterDormouse_eq s
  have hmac : u.mac = s.mac := hu.same .mac rfl
  have htable := asleep_mac (sfn s) s.time.rtc u
  obtain ⟨hsfn, hrtc⟩ := asleep_pwr (sfn s) s.time.rtc u
  have hon : ∀ n : Port, driverOn (asleep (sfn s) s.time.rtc u) n.val = false := driverOn_lose _ _ _
  have hout : ∀ p, outstanding (asleep (sfn s) s.time.rtc u) p = none := outstanding_lose _ _ _
  dsimp only
  rw [he]
  rw [← hv] at htable hsfn hrtc hon hout
  have hw := resetKill_within (m := 0x8) (s := setPwr { v.pwr with state := .dormouse } v) .refl temp rfl
  refine ⟨?_, fun n => (driverOn_within hw rfl _).trans (hon n), fun p => (outstanding_eq (hw.same .cmds rfl) p).trans (hout p), ?_, ?_, ?_⟩
  · rw [hw.same .pwr rfl, pwr_setPwr]
  · rw [hw.same .mac rfl, mac_setPwr, htable, hmac]
  · rw [hw.same .pwr rfl, pwr_setPwr, hsfn]
  · rw [hw.same .pwr rfl, pwr_setPwr, hrtc]

/-! The last-gasp frame (R67, R70). -/

theorem lastGasp_issued {o : Outstanding} {s u : State} (hu : JustIssued .pwr o s u) (cause : Nat) : lastGasp cause u = lastGasp cause s := by
  unfold lastGasp truNs tq slotTime
  rw [hu.within.same .time rfl, hu.within.same .tru rfl, (hu.field (q := .tru) (f := TRU_STATUS.STATE) (j := 0) (by decide) (by decide)).getF,
    (hu.field (q := .pwr) (f := PWR_MAIN_V.VALUE) (j := 0) (by decide) (by decide)).getF,
    (hu.field (q := .pwr) (f := PWR_BACKUP_V.VALUE) (j := 0) (by decide) (by decide)).getF,
    (hu.field (q := .mgt) (f := MGT_LOG_NEXT.VALUE) (j := 0) (by decide) (by decide)).getF]

/-- Sending over one lane of the mirror leaves whether another is up, and takes nothing back. -/
theorem gaspMirror_effect (m : MLane) (f : TunnelFrame) (s : State) : (∀ k : MLane, isSet (gaspMirror m f s) (.lanm k) LANM_STATUS.UP = isSet s (.lanm k) LANM_STATUS.UP) ∧
    s.emits <:+ (gaspMirror m f s).emits ∧ (isSet s (.lanm m) LANM_STATUS.UP = true → Emit.lane (4 + m.val) f ∈ (gaspMirror m f s).emits) := by
  unfold gaspMirror
  split
  next h =>
    refine ⟨fun k => ?_, ?_, fun _ => ?_⟩
    · have hk : FieldKept (.lanm k) LANM_STATUS.UP 0 s (count (.lanm m) LANM_TX_CNT.COUNT (emit (.lane (4 + m.val) f) s)) :=
        (FieldKept.upd rfl).count _ _ (by decide) (.inr (by decide))
      exact hk.isSet
    · rw [emits_count]
      exact List.suffix_cons _ _
    · rw [emits_count]
      exact List.mem_cons_self
  next h => exact ⟨fun _ => rfl, List.suffix_refl _, fun h' => absurd h' h⟩

/-- The frame goes out over every lane of the mirror that is up. -/
theorem gaspMirrors_sent (f : TunnelFrame) (s : State) (m : MLane) (h : isSet s (.lanm m) LANM_STATUS.UP = true) :
    Emit.lane (4 + m.val) f ∈ ((List.finRange 2).foldl (fun t m => gaspMirror m f t) s).emits := by
  have hsend : ∀ (l : List MLane) (u : State), isSet u (.lanm m) LANM_STATUS.UP = true → (m ∈ l ∨ Emit.lane (4 + m.val) f ∈ u.emits) →
      Emit.lane (4 + m.val) f ∈ (l.foldl (fun t m => gaspMirror m f t) u).emits := by
    intro l
    induction l with
    | nil => exact fun u _ hm => hm.resolve_left (by simp)
    | cons k l ih =>
      intro u hup hm
      obtain ⟨hkeep, hsuffix, hsent⟩ := gaspMirror_effect k f u
      refine ih _ ((hkeep m).trans hup) ?_
      rcases hm with hm | hm
      · rcases List.mem_cons.1 hm with rfl | hm
        · exact .inr (hsent hup)
        · exact .inl hm
      · exact .inr (hsuffix.mem hm)
  exact hsend _ s h (.inl (List.mem_finRange m))

/-- What is sent on the backhaul lanes leaves the mirror's lanes up. -/
theorem laneSends_within (f : TunnelFrame) (s : State) : Within 0x20200000001000 s ((List.range 4).foldl (fun t l => laneSend l f t) s) :=
  Within.foldl (fun _ l hu => laneSend_within hu l f rfl) .refl

theorem sendLastGasp_sent (cause : Nat) (s : State) (m : MLane) (h : isSet s (.lanm m) LANM_STATUS.UP = true) :
    Emit.lane (4 + m.val) ⟨TT.LAST_GASP, 0, none, sfn s, lastGasp cause s⟩ ∈ (sendLastGasp cause s).emits := by
  unfold sendLastGasp
  extract_lets b f s1 s2 s3
  have h1 : isSet s1 (.lanm m) LANM_STATUS.UP = true := (FieldKept.within (q := .lanm m) (j := 0) (laneSends_within f s) (show Nat.testBit _ 13 = false from rfl)).isSet.trans h
  have h2 : Emit.lane (4 + m.val) f ∈ s2.emits := gaspMirrors_sent f s1 m h1
  have h3 : s2.emits <:+ (deliverEvents s3.link.events.length s3).emits := (deliverEvents_keeps (hostEvent_keeps .refl _ _ _ _ _) _).emits
  exact h3.mem h2

/-! The shutdown (R73). -/

/-- The supplies gone, as they are shown. -/
def suppliesGone (main backup : BitVec 16) (s : State) : State :=
  setB .pwr PWR_SUPPLY.MAIN_OK false (setB .pwr PWR_SUPPLY.BACKUP_OK false (setF .pwr PWR_SUPPLY.SOURCE SRC.HOLD_UP (showVolts PWR_MAIN_V.VALUE main (showVolts PWR_BACKUP_V.VALUE backup s))))

theorem suppliesGone_effect (main backup : BitVec 16) (s : State) : let t := suppliesGone main backup s
    source t = SRC.HOLD_UP ∧ isSet t .pwr PWR_SUPPLY.MAIN_OK = false ∧ isSet t .pwr PWR_SUPPLY.BACKUP_OK = false ∧
    getF t .pwr PWR_MAIN_V.VALUE = main.toNat ∧ getF t .pwr PWR_BACKUP_V.VALUE = backup.toNat := by
  dsimp only
  unfold suppliesGone source showVolts
  refine ⟨?_, isSet_setB_self _ _ _ _ (by decide), ?_, ?_, ?_⟩
  · rw [getF_setB_split _ _ _ (by decide), getF_setB_split _ _ _ (by decide), getF_setF_self _ _ _ _ (by decide)]
    rfl
  · rw [isSet_setB_split _ _ _ (by decide)]
    exact isSet_setB_self _ _ _ _ (by decide)
  · rw [getF_setB_split _ _ _ (by decide), getF_setB_split _ _ _ (by decide), getF_setF_split _ _ _ (by decide), getF_setF_self _ _ _ _ (by decide)]
    exact Nat.mod_eq_of_lt main.isLt
  · rw [getF_setB_split _ _ _ (by decide), getF_setB_split _ _ _ (by decide), getF_setF_split _ _ _ (by decide), getF_setF_split _ _ _ (by decide), getF_setF_self _ _ _ _ (by decide)]
    exact Nat.mod_eq_of_lt backup.isLt

theorem suppliesGone_within (main backup : BitVec 16) (s : State) : Within 0x2 s (suppliesGone main backup s) :=
  setB_within (setB_within (setF_within (setF_within (setF_within .refl .pwr _ _ rfl) .pwr _ _ rfl) .pwr _ _ rfl) .pwr _ _ rfl) .pwr _ _ rfl

/-- The load shed before the shutdown is noted. -/
def shedBegun (s : State) : State := (List.range 32).foldl (fun t c => gateCluster c t) (diagReport 10 .pwr (kill KILL.SUPPLY none s))

theorem shedLoad_eq (s : State) : shedLoad s = setPwr { (shedBegun s).pwr with next := none, autoDue := false, shutdown := true } (shedBegun s) := by
  unfold shedLoad shedBegun
  rfl

theorem shedBegun_gates (s : State) : Within 0x1000000 (diagReport 10 .pwr (kill KILL.SUPPLY none s)) (shedBegun s) :=
  Within.foldl (fun _ c hu => gateCluster_within hu c rfl) .refl

theorem shedBegun_effect (s : State) : let t := shedBegun s
    t.pwr = s.pwr ∧ (killCauses t).testBit KILL.SUPPLY = true ∧ (∀ n : Port, driverOn t n.val = false) ∧ getF t .saf SAF_DIAG_LAST.CLASS = 10 := by
  obtain ⟨hcause, -, hoff, -⟩ := kill_effect (cause := KILL.SUPPLY) (by decide) none s
  have hg := shedBegun_gates s
  have hk : Within 0x2003a021800008 s (kill KILL.SUPPLY none s) := kill_within .refl _ _ rfl
  dsimp only
  generalize shedBegun s = t at hg ⊢
  generalize kill KILL.SUPPLY none s = k at hcause hoff hg hk
  have hd : Within 0x20000020000008 k (diagReport 10 .pwr k) := diagReport_within .refl _ _ rfl
  refine ⟨?_, ?_, fun n => ?_, ?_⟩
  · rw [hg.same .pwr rfl, hd.same .pwr rfl, hk.same .pwr rfl]
  · rw [show killCauses t = killCauses s ||| 2 ^ KILL.SUPPLY from (hg.getF_addr .saf _ rfl).trans ((killCauses_diagReport 10 .pwr k).trans hcause), Nat.testBit_or,
      Nat.testBit_two_pow_self, Bool.or_true]
  · exact (driverOn_within hg rfl _).trans ((driverOn_within hd rfl _).trans (hoff n))
  · exact (hg.getF_addr .saf _ rfl).trans (diagReport_class (by decide) _ _)

theorem shutdownNoted_effect {s u : State} (hpwr : u.pwr = s.pwr) (hkill : (killCauses u).testBit KILL.SUPPLY = true) (hoff : ∀ n : Port, driverOn u n.val = false)
    (hclass : getF u .saf SAF_DIAG_LAST.CLASS = 10) : let t := setPwr { u.pwr with next := none, autoDue := false, shutdown := true } u
    t.pwr.state = s.pwr.state ∧ t.pwr.shutdown = true ∧ (killCauses t).testBit KILL.SUPPLY = true ∧ (∀ n : Port, driverOn t n.val = false) ∧ getF t .saf SAF_DIAG_LAST.CLASS = 10 := by
  have hstate : u.pwr.state = s.pwr.state := congrArg PwrSt.state hpwr
  exact ⟨hstate, rfl, hkill, hoff, hclass⟩

theorem shedLoad_effect (s : State) : let t := shedLoad s
    t.pwr.state = s.pwr.state ∧ t.pwr.shutdown = true ∧ (killCauses t).testBit KILL.SUPPLY = true ∧ (∀ n : Port, driverOn t n.val = false) ∧ getF t .saf SAF_DIAG_LAST.CLASS = 10 := by
  obtain ⟨hpwr, hkill, hoff, hclass⟩ := shedBegun_effect s
  dsimp only
  rw [shedLoad_eq]
  exact shutdownNoted_effect hpwr hkill hoff hclass

/-- The frame sent and the store closed, which change nothing of the supplies, the kill and the drivers. -/
theorem gaspAndClose_within (cause blocks : Nat) (s : State) : Within 0x3066003e003c20 s (closeStore cause blocks (if 7 ≤ stage s then sendLastGasp cause s else s)) := by
  refine closeStore_within ?_ _ _ rfl
  split
  · exact sendLastGasp_within .refl _ rfl
  · exact .refl

theorem bothFailed_eq (main backup : BitVec 16) (tog : Bool) (blocks : Nat) (s : State) : bothFailed main backup tog blocks s =
    closeStore (gaspCause tog s) blocks (if 7 ≤ stage (shedLoad (suppliesGone main backup s)) then sendLastGasp (gaspCause tog s) (shedLoad (suppliesGone main backup s))
      else shedLoad (suppliesGone main backup s)) := by
  unfold bothFailed suppliesGone
  rfl

/-- Both supplies failed with the module in service (R73). -/
theorem bothFailed_effect (main backup : BitVec 16) (tog : Bool) (blocks : Nat) (s : State) : let t := bothFailed main backup tog blocks s
    t.pwr.state = s.pwr.state ∧ t.pwr.shutdown = true ∧ source t = SRC.HOLD_UP ∧ isSet t .pwr PWR_SUPPLY.MAIN_OK = false ∧
      isSet t .pwr PWR_SUPPLY.BACKUP_OK = false ∧ getF t .pwr PWR_MAIN_V.VALUE = main.toNat ∧ getF t .pwr PWR_BACKUP_V.VALUE = backup.toNat ∧
      (killCauses t).testBit KILL.SUPPLY = true ∧ (∀ n : Port, driverOn t n.val = false) ∧ getF t .saf SAF_DIAG_LAST.CLASS = 10 := by
  obtain ⟨hsrc, hmain, hback, hmv, hbv⟩ := suppliesGone_effect main backup s
  have hg := suppliesGone_within main backup s
  obtain ⟨hstate, hshut, hkill, hoff, hclass⟩ := shedLoad_effect (suppliesGone main backup s)
  dsimp only
  rw [bothFailed_eq]
  have hs := shedLoad_within (m := 0x2003a0a1800008) (s := suppliesGone main backup s) .refl rfl
  have hw := gaspAndClose_within (gaspCause tog s) blocks (shedLoad (suppliesGone main backup s))
  generalize closeStore (gaspCause tog s) blocks _ = t at hw ⊢
  have hpwr : ∀ f, FieldKept .pwr f 0 (suppliesGone main backup s) t := fun f => (FieldKept.within (q := .pwr) hs rfl).trans (.within (q := .pwr) hw rfl)
  have hp : t.pwr = (shedLoad (suppliesGone main backup s)).pwr := hw.same .pwr rfl
  refine ⟨?_, ?_, (hpwr _).getF.trans hsrc, (hpwr _).isSet.trans hmain, (hpwr _).isSet.trans hback, (hpwr _).getF.trans hmv, (hpwr _).getF.trans hbv, ?_, ?_, ?_⟩
  · rw [hp, hstate, hg.same .pwr rfl]
  · rw [hp, hshut]
  · rw [show killCauses t = _ from hw.getF_addr .saf _ rfl]
    exact hkill
  · exact fun n => (driverOn_within hw rfl _).trans (hoff n)
  · exact (hw.getF_addr .saf _ rfl).trans hclass

/-! Power-on (R66, R81). -/

/-- The supply that the module runs from, shown. -/
def sourceShown (s : State) : State :=
  setF .pwr PWR_SUPPLY.SOURCE (if isSet s .pwr PWR_SUPPLY.MAIN_OK then SRC.MAIN else if isSet s .pwr PWR_SUPPLY.BACKUP_OK then SRC.BACKUP else SRC.HOLD_UP) s

theorem settleSource_eq (s : State) : ∃ c o, settleSource s = setPwr { (sourceShown s).pwr with converter := c, okSince := o } (sourceShown s) := by
  unfold settleSource
  extract_lets m b s1 _
  exact ⟨_, _, rfl⟩

theorem settleSource_effect (s : State) : let t := settleSource s
    (∀ f, fieldsSplit PWR_SUPPLY.SOURCE f 0 0 = true → FieldKept .pwr f 0 s t) ∧ t.pwr.state = s.pwr.state ∧
    source t = (if isSet s .pwr PWR_SUPPLY.MAIN_OK then SRC.MAIN else if isSet s .pwr PWR_SUPPLY.BACKUP_OK then SRC.BACKUP else SRC.HOLD_UP) ∧ t.time = s.time := by
  obtain ⟨c, o, he⟩ := settleSource_eq s
  dsimp only
  rw [he]
  have hfield : ∀ f, FieldKept .pwr f 0 (sourceShown s) (setPwr { (sourceShown s).pwr with converter := c, okSince := o } (sourceShown s)) := fun f => .upd (regs_setPwr _ _)
  have hp : (sourceShown s).pwr.state = s.pwr.state := congrArg PwrSt.state (pwr_setF _ _ _ _)
  have ht : (sourceShown s).time = s.time := time_setF _ _ _ _
  have hsrc : source (sourceShown s) = (if isSet s .pwr PWR_SUPPLY.MAIN_OK then SRC.MAIN else if isSet s .pwr PWR_SUPPLY.BACKUP_OK then SRC.BACKUP else SRC.HOLD_UP) := by
    refine (getF_setF_self _ _ _ _ (by decide)).trans (Nat.mod_eq_of_lt ?_)
    cases isSet s .pwr PWR_SUPPLY.MAIN_OK <;> cases isSet s .pwr PWR_SUPPLY.BACKUP_OK <;> decide
  have hk : ∀ f, fieldsSplit PWR_SUPPLY.SOURCE f 0 0 = true → FieldKept .pwr f 0 s (sourceShown s) := fun f hf => (FieldKept.refl s).setF _ _ _ (by decide) (.inr hf)
  generalize sourceShown s = u at hfield hp ht hsrc hk ⊢
  rw [pwr_setPwr, time_setPwr]
  exact ⟨fun f hf => (hk f hf).trans (hfield f), hp, (hfield PWR_SUPPLY.SOURCE).getF.trans hsrc, ht⟩

/-- The supplies shown at power-on. -/
def supplyShown (main backup : Bool) (volts : BitVec 16) (s : State) : State :=
  showVolts (if main then PWR_MAIN_V.VALUE else PWR_BACKUP_V.VALUE) volts (setB .pwr PWR_SUPPLY.MAIN_OK main (setB .pwr PWR_SUPPLY.BACKUP_OK backup s))

/-- The real-time counter at power-on. -/
def clockKept (spent : Bool) (s : State) : State := { s with time := { s.time with rtc := if spent then 0 else s.time.rtc, rtcValid := !spent } }

theorem powerOn_eq (main backup : Bool) (volts : BitVec 16) (spent : Bool) (s : State) :
    powerOn main backup volts spent s = settleSource (supplyShown main backup volts (restart START.POWER_ON (clockKept spent s))) := by
  unfold powerOn supplyShown clockKept
  rfl

/-- Power-on loses the table, whatever it held. -/
theorem restart_powerOn {s u : State} (hregs : ∀ e ∈ storedRegs, e.1 ≠ .boot → ∀ o ∈ e.2, reg u (addr e.1 o) = reg s (addr e.1 o)) :
    Restarted START.POWER_ON s (restart START.POWER_ON u) := by
  obtain ⟨hrun, hstage, hmode, hcause, hout, hoff, hkill, hgrid, hstored, -, htable⟩ := restart_start (cause := START.POWER_ON) (by decide) u
  exact ⟨hrun, hstage, hmode, hcause, hout, hoff, hkill, hgrid, fun e he hb o ho => (hstored e he hb o ho).trans (hregs e he hb o ho), fun h => absurd rfl h, htable⟩

theorem supplyShown_within (main backup : Bool) (volts : BitVec 16) (s : State) : Within 0x2 s (supplyShown main backup volts s) := by
  unfold supplyShown showVolts
  exact setF_within (setB_within (setB_within .refl .pwr _ _ rfl) .pwr _ _ rfl) .pwr _ _ rfl

theorem supplyShown_effect (main backup : Bool) (volts : BitVec 16) (s : State) : let t := supplyShown main backup volts s
    isSet t .pwr PWR_SUPPLY.MAIN_OK = main ∧ isSet t .pwr PWR_SUPPLY.BACKUP_OK = backup ∧ getF t .pwr (if main then PWR_MAIN_V.VALUE else PWR_BACKUP_V.VALUE) = volts.toNat := by
  dsimp only
  unfold supplyShown showVolts
  have hlt : volts.toNat % 2 ^ 16 = volts.toNat := Nat.mod_eq_of_lt volts.isLt
  have hmain : isSet (setB .pwr PWR_SUPPLY.MAIN_OK main (setB .pwr PWR_SUPPLY.BACKUP_OK backup s)) .pwr PWR_SUPPLY.MAIN_OK = main := isSet_setB_self _ _ _ _ (by decide)
  have hback : isSet (setB .pwr PWR_SUPPLY.MAIN_OK main (setB .pwr PWR_SUPPLY.BACKUP_OK backup s)) .pwr PWR_SUPPLY.BACKUP_OK = backup :=
    (isSet_setB_split _ _ _ (by decide)).trans (isSet_setB_self _ _ _ _ (by decide))
  cases main
  · exact ⟨(isSet_setF_split _ _ _ (by decide)).trans hmain, (isSet_setF_split _ _ _ (by decide)).trans hback, (getF_setF_self _ _ _ _ (by decide)).trans hlt⟩
  · exact ⟨(isSet_setF_split _ _ _ (by decide)).trans hmain, (isSet_setF_split _ _ _ (by decide)).trans hback, (getF_setF_self _ _ _ _ (by decide)).trans hlt⟩

/-- What is shown of the supplies leaves a restart what it is. -/
theorem Restarted.within {cause : Nat} {s t u : State} (h : Restarted cause s t) (hw : Within 0x80000002 t u) (hstate : u.pwr.state = t.pwr.state) : Restarted cause s u := by
  obtain ⟨hrun, hstage, hmode, hcause, hout, hoff, hkill, hgrid, hstored, hrtc, htable⟩ := h
  have hboot : ∀ f, getF u .boot f = getF t .boot f := fun f => hw.getF_addr .boot f rfl
  refine ⟨hstate.trans hrun, (hboot _).trans hstage, (hboot _).trans hmode, ?_, fun p => (outstanding_eq (hw.same .cmds rfl) p).trans (hout p),
    fun n => (driverOn_within hw rfl _).trans (hoff n), ?_, ?_, fun e he hb o ho => ?_, fun hne => ?_, ?_⟩
  · rw [hw.reg_addr .boot _ rfl]
    exact hcause
  · rw [show killCauses u = killCauses t from hw.getF_addr .saf _ rfl]
    exact hkill
  · rw [hw.same .time rfl]
    exact hgrid
  · obtain ⟨-, hpwr, -⟩ := storedRegs_plain e he
    have hkind : Nat.testBit 0x80000002 (kindCode (pageKind e.1)) = false := by
      have hk : pageKind e.1 ≠ .pwr := by
        generalize e.1 = p at hpwr
        intro hk
        cases p with
        | pwr => exact hpwr rfl
        | _ => cases hk
      generalize pageKind e.1 = k at hk
      cases k with
      | pwr => exact absurd rfl hk
      | _ => rfl
    exact (hw.reg_addr e.1 o hkind).trans (hstored e he hb o ho)
  · rw [hw.same .time rfl]
    exact hrtc hne
  · rw [hw.same .mac rfl]
    exact htable

theorem settleSource_within' (s : State) : Within 0x80000002 s (settleSource s) := settleSource_within .refl rfl

/-- Power-on, as a restart of a state whose stored configuration is that of `s` and whose table is lost (R81). -/
theorem powerOn_effect (main backup : Bool) (volts : BitVec 16) (spent : Bool) {s u : State} (hregs : ∀ e ∈ storedRegs, e.1 ≠ .boot → ∀ o ∈ e.2, reg u (addr e.1 o) = reg s (addr e.1 o)) :
    let t := powerOn main backup volts spent u
    Restarted START.POWER_ON s t ∧ isSet t .pwr PWR_SUPPLY.MAIN_OK = main ∧ source t = (if main then SRC.MAIN else if backup then SRC.BACKUP else SRC.HOLD_UP) ∧
      getF t .pwr (if main then PWR_MAIN_V.VALUE else PWR_BACKUP_V.VALUE) = volts.toNat ∧ t.time.rtc = (if spent then 0 else u.time.rtc) ∧ t.time.rtcValid = !spent := by
  dsimp only
  rw [powerOn_eq]
  have hrest : Restarted START.POWER_ON s (restart START.POWER_ON (clockKept spent u)) := restart_powerOn (fun e he hb o ho => hregs e he hb o ho)
  have htime : (restart START.POWER_ON (clockKept spent u)).time.rtc = (clockKept spent u).time.rtc ∧ (restart START.POWER_ON (clockKept spent u)).time.rtcValid = (clockKept spent u).time.rtcValid := by
    rw [(restart_within_kept START.POWER_ON (clockKept spent u)).same .time rfl]
    exact ⟨rfl, rfl⟩
  generalize restart START.POWER_ON (clockKept spent u) = r at hrest htime ⊢
  have hs := supplyShown_within main backup volts r
  obtain ⟨hmain, hback, hvolts⟩ := supplyShown_effect main backup volts r
  generalize supplyShown main backup volts r = v at hs hmain hback hvolts ⊢
  have hw : Within 0x80000002 r (settleSource v) := settleSource_within (hs.weaken rfl) rfl
  obtain ⟨hkept, hstate, hsrc, ht⟩ := settleSource_effect v
  refine ⟨hrest.within hw (hstate.trans (congrArg PwrSt.state (hs.same .pwr rfl))), (hkept _ (by decide)).isSet.trans hmain, ?_, ?_, ?_, ?_⟩
  · rw [hsrc, hmain, hback]
  · rw [(hkept (if main then PWR_MAIN_V.VALUE else PWR_BACKUP_V.VALUE) (by cases main <;> decide)).getF]
    exact hvolts
  · rw [ht, hs.same .time rfl, htime.1]
    rfl
  · rw [ht, hs.same .time rfl, htime.2]
    rfl

/-- ENTER_OUTAGE, once issued (R68). -/
theorem runEnterOutage_effect {o : Outstanding} {s u : State} (hu : JustIssued .pwr o s u) : (runEnterOutage o u).pwr = s.pwr ∧
    if source s ≠ SRC.BACKUP ∨ s.pwr.shutdown = true then Completed (runEnterOutage o u) .pwr CODE.REFUSED
    else if outageBad s then Completed (runEnterOutage o u) .pwr CODE.BAD_ARG else Issued (runEnterOutage o u) .pwr o := by
  have hp : u.pwr = s.pwr := hu.within.same .pwr rfl
  have hsrc : source u = source s := hu.field (q := .pwr) (f := PWR_SUPPLY.SOURCE) (j := 0) (by decide) (by decide)
  have hports : outagePorts u = outagePorts s := by
    unfold outagePorts outagePort
    rw [(hu.field (q := .pwr) (f := PWR_OUTAGE_PORTS_LO.PORTS) (j := 0) (by decide) (by decide)).getF,
      (hu.field (q := .pwr) (f := PWR_OUTAGE_PORTS_HI.PORTS) (j := 0) (by decide) (by decide)).getF]
  have hbad : outageBad u = outageBad s := by
    unfold outageBad port
    rw [hports, hu.within.same .ports rfl]
  unfold runEnterOutage
  rw [hsrc, hp, hbad]
  split
  · exact ⟨(pwr_done _ _ _).trans hp, hu.done (by decide) _⟩
  · split
    · exact ⟨(pwr_done _ _ _).trans hp, hu.done (by decide) _⟩
    · exact ⟨hp, hu.issued⟩

/-- LEAVE_OUTAGE, once issued (R68). -/
theorem runLeaveOutage_effect {o : Outstanding} {s u : State} (hu : JustIssued .pwr o s u) : (runLeaveOutage o u).pwr = s.pwr ∧
    if inOutage s = true ∧ s.pwr.shutdown = false then Issued (runLeaveOutage o u) .pwr o else Completed (runLeaveOutage o u) .pwr CODE.REFUSED := by
  have hp : u.pwr = s.pwr := hu.within.same .pwr rfl
  have hc : (inOutage u && !u.pwr.shutdown) = true ↔ inOutage s = true ∧ s.pwr.shutdown = false := by
    unfold inOutage
    rw [hp, Bool.and_eq_true, Bool.not_eq_true']
  unfold runLeaveOutage
  by_cases h : inOutage s = true ∧ s.pwr.shutdown = false
  · rw [if_pos (hc.2 h), if_pos h]
    exact ⟨hp, hu.issued⟩
  · rw [if_neg (fun h' => h (hc.1 h')), if_neg h]
    exact ⟨(pwr_done _ _ _).trans hp, hu.done (by decide) _⟩

/-- ENTER_DORMOUSE, once issued (R71). -/
theorem runEnterDormouse_effect {o : Outstanding} {s u : State} (hu : JustIssued .pwr o s u) : let t := runEnterDormouse o u
    if watching s then t.pwr.state = .dormouse ∧ (∀ n : Port, driverOn t n.val = false) ∧ (∀ p, outstanding t p = none) ∧ t.mac.table = s.mac.table ∧
      t.pwr.savedSfn = sfn s ∧ t.pwr.savedRtc = s.time.rtc
    else Completed t .pwr CODE.REFUSED ∧ t.pwr = s.pwr := by
  have hp : u.pwr = s.pwr := hu.within.same .pwr rfl
  have hwatch : watching u = watching s := by
    unfold watching moduleOn
    rw [hp]
  dsimp only
  unfold runEnterDormouse
  rw [hwatch]
  split
  · obtain ⟨hstate, hoff, hout, htable, hsfn, hrtc⟩ := enterDormouse_effect u
    refine ⟨hstate, hoff, hout, ?_, ?_, ?_⟩
    · rw [htable, hu.within.same .mac rfl]
    · rw [hsfn]
      exact hu.field (q := .bcn) (f := BCN_SFN.SFN) (j := 0) (by decide) (by decide)
    · rw [hrtc, hu.within.same .time rfl]
  · exact ⟨hu.done (by decide) _, (pwr_done _ _ _).trans hp⟩

/-- TEST_LAST_GASP, once issued (R70). -/
theorem testLastGasp_effect {o : Outstanding} {s u : State} (hu : JustIssued .pwr o s u) : let t := done .pwr CODE.OK (sendLastGasp 0x80 u)
    Completed t .pwr CODE.OK ∧ (∀ m : MLane, isSet s (.lanm m) LANM_STATUS.UP = true → (Emit.lane (4 + m.val) ⟨TT.LAST_GASP, 0, none, sfn s, lastGasp 0x80 s⟩) ∈ t.emits) := by
  refine ⟨hu.code (.within (sendLastGasp_within (m := 0x20200038003820) .refl _ rfl) rfl rfl) (by decide) 0, fun m hm => ?_⟩
  have hup : isSet u (.lanm m) LANM_STATUS.UP = true := (hu.field (q := .lanm m) (f := LANM_STATUS.UP) (j := 0) (by simp) (by decide)).isSet.trans hm
  have hsent := sendLastGasp_sent 0x80 u m hup
  have hsfn : sfn u = sfn s := hu.field (q := .bcn) (f := BCN_SFN.SFN) (j := 0) (by decide) (by decide)
  rw [lastGasp_issued hu, hsfn] at hsent
  exact (done_keeps .refl _ _).emits.mem hsent

/-- Settles O46: the four power states; what a module loses on its way to DORMOUSE, OFF and a start is what it holds outside its stored configuration. -/
theorem powerStates : Obligations.PowerStates := by
  unfold Obligations.PowerStates
  refine ⟨?_, ?_, ?_, ?_, ?_, ?_, ?_, ?_, ?_⟩
  · exact fun src s ht => Yields.issue rfl ht (fun u hu => runEnterDormouse_effect hu)
  · intro s
    refine Yields.guard rfl (by simp [and_assoc]) (fun _ => ?_)
    obtain ⟨hstate, hoff, hout, -⟩ := enterDormouse_effect s
    exact ⟨hstate, hoff, hout⟩
  · intro s
    refine Yields.intro rfl ?_
    by_cases h : s.pwr.state = .run ∧ s.pwr.shutdown = false ∧ source s = SRC.BACKUP ∧ isSet s .pwr PWR_POLICY.OUTAGE_EN = true
    · rw [if_pos h, if_pos (by simp [h])]
      rfl
    · rw [if_neg h, if_neg (by simpa [and_assoc] using h)]
  · exact fun src s ht => Yields.issue rfl ht (fun u hu => runEnterOutage_effect hu)
  · exact fun src s ht => Yields.issue rfl ht (fun u hu => runLeaveOutage_effect hu)
  · exact fun src s ht => Yields.issue rfl ht (fun u hu => testLastGasp_effect hu)
  · intro main backup tog blocks s
    refine Yields.intro rfl ?_
    by_cases hd : s.pwr.state = .dormouse
    · rw [if_pos hd, if_pos hd]
      exact ⟨state_goOff s, outstanding_goOff s⟩
    · rw [if_neg hd, if_neg hd]
      split
      · exact bothFailed_effect main backup tog blocks s
      · rfl
  · intro s
    refine Yields.unless (c := (!s.pwr.shutdown) = true) rfl (by simp) (fun _ => ?_)
    split
    · obtain ⟨hrest, hmain, -⟩ := powerOn_effect (isSet s .pwr PWR_SUPPLY.MAIN_OK) (isSet s .pwr PWR_SUPPLY.BACKUP_OK) (BitVec.ofNat 16 (getF s .pwr (if isSet s .pwr PWR_SUPPLY.MAIN_OK then
        PWR_MAIN_V.VALUE else PWR_BACKUP_V.VALUE))) false (s := s) (u := goOff s) (fun e he hb o ho => goOff_stored s he hb ho)
      exact ⟨hrest, hmain⟩
    · exact ⟨state_goOff s, running_goOff s, outstanding_goOff s⟩
  · intro main v spent s
    refine Yields.guard rfl .rfl (fun _ => ?_)
    obtain ⟨hrest, -, hsrc, hvolts, hrtc, hvalid⟩ := powerOn_effect main (!main) v spent (s := s) (u := s) (fun _ _ _ _ _ => rfl)
    refine ⟨hrest, hsrc.trans ?_, hvolts, hrtc, hvalid⟩
    cases main <;> rfl

end Sys2Proof.Machine
end

section
/-!
PROOFS. The timing reference: what selecting, switching and a change of state leave and do (R344–R358), and the commands and events of TRU time.
-/
namespace Sys2Proof.Machine

/-! States of a reference (R348). -/

theorem qstate_setQstate_self (r q : Nat) (hq : q < 8) (s : State) : qstate (setQstate r q s) r = q := by
  unfold setQstate qstate
  exact (getI_setI_split _ _ _ (by decide) (by simp [fieldsSplit]; right; decide)).trans ((getI_setI_self _ _ _ _ _ (by decide)).trans (Nat.mod_eq_of_lt hq))

/-- The registers of two references are apart. -/
theorem refOff_split {r k : Nat} (hr : r < 16) (hk : k < 16) (hne : r ≠ k) (f g : Field) (hf : f = REF_STAT.QSTATE ∨ f = REF_STAT.WTR_LEFT) (hg : g = REF_STAT.QSTATE) :
    f.offAt r % 0x1000 ≠ g.offAt k % 0x1000 := by
  subst hg
  have e : ∀ n, REF_STAT.QSTATE.offAt n = 0x20C + n * 0x20 := fun n => rfl
  have e2 : ∀ n, REF_STAT.WTR_LEFT.offAt n = 0x20C + n * 0x20 := fun n => rfl
  rcases hf with rfl | rfl
  · rw [e, e]; omega
  · rw [e, e2]; omega

theorem qstate_setQstate_other {r k : Nat} (hr : r < 16) (hk : k < 16) (hne : r ≠ k) (q : Nat) (s : State) : qstate (setQstate r q s) k = qstate s k := by
  unfold setQstate qstate
  exact (getI_setI_off _ _ _ _ (refOff_split hr hk hne _ _ (.inr rfl) rfl)).trans (getI_setI_off _ _ _ _ (refOff_split hr hk hne _ _ (.inl rfl) rfl))

/-- A field that no reference's state register holds. -/
def offQstate (g : Field) (j : Nat) : Bool := decide (g.offAt j % 0x1000 < 0x20C) || decide (g.offAt j % 0x20 ≠ 0x0C)

theorem setQstate_field {g : Field} {j : Nat} (h : offQstate g j = true) {r : Nat} (hr : r < 16) (q : Nat) (s : State) : FieldKept .tru g j s (setQstate r q s) := by
  have e : REF_STAT.QSTATE.offAt r = 0x20C + r * 0x20 := rfl
  have e2 : REF_STAT.WTR_LEFT.offAt r = 0x20C + r * 0x20 := rfl
  unfold offQstate at h
  simp only [Bool.or_eq_true, decide_eq_true_eq] at h
  unfold setQstate
  exact (getI_setI_off _ _ _ _ (by rw [e2]; omega)).trans (getI_setI_off _ _ _ _ (by rw [e]; omega))

/-! What the operations of selection leave. -/

/-- A field apart from the working fields of TRU_STATUS, from the estimate, and from the interrupts. -/
def offState (g : Field) (j : Nat) : Bool :=
  fieldsSplit TRU_STATUS.STATE g 0 j && fieldsSplit TRU_STATUS.TE_OVER g 0 j && fieldsSplit TRU_TE_EST.VALUE g 0 j && decide (g.offAt j % 0x1000 ≠ offIntStat)

/-- A field apart from what names the reference selected. -/
def offSelect (g : Field) (j : Nat) : Bool :=
  fieldsSplit TRU_STATUS.SELECTED g 0 j && fieldsSplit TRU_STATUS.SWITCHING g 0 j

theorem setTru_field (q : Page) (g : Field) (j : Nat) (x : TruSt) (s : State) : FieldKept q g j s (setTru x s) := .upd rfl

theorem showTe_field {g : Field} {j : Nat} (h : (fieldsSplit TRU_STATUS.TE_OVER g 0 j && fieldsSplit TRU_TE_EST.VALUE g 0 j && decide (g.offAt j % 0x1000 ≠ offIntStat)) = true)
    (theta : Nat) (s : State) : FieldKept .tru g j s (showTe theta s) := by
  simp only [Bool.and_eq_true] at h
  obtain ⟨⟨hover, hest⟩, hint⟩ := h
  have hf := fun v => (FieldKept.refl (q := .tru) (g := g) (j := j) s).setF .tru TRU_TE_EST.VALUE v (by decide) (.inr hest)
  unfold showTe
  split
  · exact (hf _).setB _ _ _ (by decide) (.inr hover)
  · dsimp only
    split
    · exact ((hf _).setB _ _ _ (by decide) (.inr hover)).raise _ _ hint
    · exact (hf _).setB _ _ _ (by decide) (.inr hover)

theorem setTruState_same {st : Nat} {s : State} (hq : tq s = st) (theta : Nat) : setTruState st theta s = s := if_pos hq

/-- A change of state, as the operations it runs. -/
theorem setTruState_eq {st : Nat} {s : State} (hq : tq s ≠ st) (theta : Nat) : ∃ x,
    setTruState st theta s = linkTime 0 (tq s) st (logPage .tru TRU_INT.STATE_CHANGE [tq s, st] (raise .tru TRU_INT.STATE_CHANGE
      (showTe theta (setTru x (setF .tru TRU_STATUS.STATE st s))))) ∧ x.alignBy = s.tru.alignBy ∧ x.disq = s.tru.disq := by
  have e : ∀ u : State, u = setTru u.tru u := fun _ => rfl
  unfold setTruState
  dsimp only
  rw [if_neg hq]
  split
  · exact ⟨_, rfl, by rw [tru_setF], by rw [tru_setF]⟩
  · split
    · refine ⟨(setF .tru TRU_STATUS.STATE st s).tru, ?_, by rw [tru_setF], by rw [tru_setF]⟩
      rw [← e]
    · exact ⟨_, rfl, by rw [tru_setF], by rw [tru_setF]⟩

/-- The log and the record of time leave the page. -/
theorem linkTime_field (g : Field) (j kind old new n : Nat) (l : List Nat) (s : State) : FieldKept .tru g j s (linkTime kind old new (logPage .tru n l s)) :=
  .within (q := .tru) (linkTime_within (m := 0x20040028000020) (logPage_within .refl _ _ _ rfl) _ _ _ rfl) (show Nat.testBit _ 8 = false from rfl)

theorem linkTime_int (n kind old new k : Nat) (l : List Nat) (s : State) : intOf (linkTime kind old new (logPage .tru k l s)) .tru n = intOf s .tru n :=
  intOf_eq ((linkTime_within (m := 0x20040028000020) (logPage_within .refl .tru k l rfl) _ _ _ rfl).reg_addr .tru _ rfl) n

theorem setTruState_field {g : Field} {j : Nat} (h : offState g j = true) (st theta : Nat) (s : State) : FieldKept .tru g j s (setTruState st theta s) := by
  unfold offState at h
  simp only [Bool.and_eq_true] at h
  obtain ⟨⟨⟨hstate, hover⟩, hest⟩, hint⟩ := h
  by_cases hq : tq s = st
  · rw [setTruState_same hq]
    exact .refl s
  · obtain ⟨x, e, _⟩ := setTruState_eq hq theta
    rw [e]
    refine FieldKept.trans ?_ (linkTime_field _ _ _ _ _ _ _ _)
    refine FieldKept.raise ?_ _ _ hint
    refine FieldKept.trans ?_ (showTe_field (by simp only [Bool.and_eq_true]; exact ⟨⟨hover, hest⟩, hint⟩) _ _)
    exact ((FieldKept.refl s).setF _ _ _ (by decide) (.inr hstate)).regs rfl

/-- After a change of state the state is the one given, and a real change is an event. -/
theorem setTruState_state (st theta : Nat) (hst : st < 16) (s : State) : tq (setTruState st theta s) = st ∧
    (tq s ≠ st → intOf (setTruState st theta s) .tru TRU_INT.STATE_CHANGE = true) := by
  by_cases hq : tq s = st
  · rw [setTruState_same hq]
    exact ⟨hq, fun h => absurd hq h⟩
  · obtain ⟨x, e, _⟩ := setTruState_eq hq theta
    rw [e]
    refine ⟨?_, fun _ => ?_⟩
    · refine (linkTime_field TRU_STATUS.STATE 0 _ _ _ _ _ _).getF.trans ?_
      refine ((FieldKept.refl (q := .tru) (g := TRU_STATUS.STATE) (j := 0) _).raise _ _ (by decide)).getF.trans ?_
      refine (showTe_field (g := TRU_STATUS.STATE) (j := 0) (by decide) _ _).getF.trans ?_
      refine (setTru_field .tru TRU_STATUS.STATE 0 x _).getF.trans ?_
      exact (getF_setF_self s .tru TRU_STATUS.STATE st (by decide)).trans (Nat.mod_eq_of_lt hst)
    · rw [linkTime_int]
      exact intOf_raise _ _ _ (by decide)

/-! The reference selected (R350, R351). -/

theorem selectedRef_lt {s : State} {r : Nat} (h : selectedRef s = some r) : r < 15 := by
  unfold selectedRef at h
  have hlt : getF s .tru TRU_STATUS.SELECTED < 16 := getBits_lt _ 24 21
  by_cases h0 : getF s .tru TRU_STATUS.SELECTED = 0xF
  · simp [h0] at h
  · simp only [h0, if_false, Option.some.injEq] at h
    omega

theorem selectedRef_congr {s t : State} (h : FieldKept .tru TRU_STATUS.SELECTED 0 s t) : selectedRef t = selectedRef s := by
  unfold selectedRef
  rw [h.getF]

theorem selectedRef_setF (r : Nat) (hr : r < 16) (s : State) : selectedRef (setF .tru TRU_STATUS.SELECTED r s) = if r = 0xF then none else some r := by
  unfold selectedRef
  rw [show getF (setF .tru TRU_STATUS.SELECTED r s) .tru TRU_STATUS.SELECTED = r from (getF_setF_self _ _ _ _ (by decide)).trans (Nat.mod_eq_of_lt hr)]

theorem measured_field (q : Page) (g : Field) (j : Nat) (h : TruHold) (s : State) : FieldKept q g j s (measured h s) := by
  unfold measured
  split
  · split
    · exact setTru_field q g j _ s
    · exact .refl s
  · exact .refl s

/-- What names the reference selected lies apart from the states of the references. -/
theorem statusSplit {k : Nat} (hk : k < 16) : fieldsSplit TRU_STATUS.SELECTED REF_STAT.QSTATE 0 k = true ∧ fieldsSplit TRU_STATUS.SWITCHING REF_STAT.QSTATE 0 k = true ∧
    fieldsSplit TRU_STATUS.SLEWING REF_STAT.QSTATE 0 k = true := by
  have h : ∀ i : Fin 16, fieldsSplit TRU_STATUS.SELECTED REF_STAT.QSTATE 0 i.val = true ∧ fieldsSplit TRU_STATUS.SWITCHING REF_STAT.QSTATE 0 i.val = true ∧
      fieldsSplit TRU_STATUS.SLEWING REF_STAT.QSTATE 0 i.val = true := by decide
  exact h ⟨k, hk⟩

/-- The state of a reference once nothing is selected. -/
theorem deselect_qstate {k : Nat} (hk : k < 16) (s : State) :
    qstate (deselect s) k = if selectedRef s = some k ∧ qstate s k = QS.SELECTED then QS.AVAILABLE else qstate s k := by
  have hsel : ∀ (v : Nat) (u : State), qstate (setB .tru TRU_STATUS.SWITCHING false (setF .tru TRU_STATUS.SELECTED v u)) k = qstate u k := fun v u =>
    ((FieldKept.refl (q := .tru) (g := REF_STAT.QSTATE) (j := k) u).setF .tru TRU_STATUS.SELECTED v (by decide) (.inr (statusSplit hk).1)).setB .tru TRU_STATUS.SWITCHING false
      (by decide) (.inr (statusSplit hk).2.1)
  unfold deselect
  split
  next hnone => simp [hnone]
  next r hr =>
    dsimp only
    rw [hsel, hr]
    by_cases hrk : r = k
    · subst hrk
      simp only [true_and]
      split
      · exact qstate_setQstate_self _ _ (by decide) _
      · rfl
    · simp only [Option.some.injEq, hrk, false_and, if_false]
      split
      · exact qstate_setQstate_other (Nat.lt_succ_of_lt (selectedRef_lt hr)) hk hrk _ _
      · rfl

theorem deselect_selected (s : State) : selectedRef (deselect s) = none := by
  unfold deselect
  split
  next hnone => exact hnone
  next r _ =>
    refine (selectedRef_congr ((FieldKept.refl _).setB _ _ _ (by decide) (.inr (by decide)))).trans ?_
    exact selectedRef_setF 0xF (by decide) _

theorem deselect_field {g : Field} {j : Nat} (h : (offSelect g j && offQstate g j) = true) (s : State) : FieldKept .tru g j s (deselect s) := by
  simp only [offSelect, Bool.and_eq_true] at h
  obtain ⟨⟨hsel, hsw⟩, hq⟩ := h
  unfold deselect
  split
  · exact .refl s
  next r hr =>
    refine FieldKept.setB (FieldKept.setF ?_ _ _ _ (by decide) (.inr hsel)) _ _ _ (by decide) (.inr hsw)
    split
    · exact setQstate_field hq (Nat.lt_succ_of_lt (selectedRef_lt hr)) _ _
    · exact .refl s

theorem startSwitch_field {g : Field} {j : Nat} (h : (offSelect g j && offQstate g j && fieldsSplit TRU_STATUS.SLEWING g 0 j) = true) {r : Nat} (hr : r < 16) (s : State) :
    FieldKept .tru g j s (startSwitch r s) := by
  rw [Bool.and_eq_true] at h
  obtain ⟨h1, hslew⟩ := h
  have h2 := h1
  simp only [offSelect, Bool.and_eq_true] at h2
  obtain ⟨⟨hsel, hsw⟩, hq⟩ := h2
  unfold startSwitch stopSlew
  refine FieldKept.setB (FieldKept.setB (FieldKept.setF ?_ _ _ _ (by decide) (.inr hsel)) _ _ _ (by decide) (.inr hsw)) _ _ _ (by decide) (.inr hslew)
  exact (deselect_field h1 s).trans (setQstate_field hq hr _ _)

theorem startSwitch_selected {r : Nat} (hr : r < 16) (s : State) : selectedRef (startSwitch r s) = if r = 0xF then none else some r := by
  unfold startSwitch stopSlew
  refine (selectedRef_congr (((FieldKept.refl _).setB _ _ _ (by decide) (.inr (by decide))).setB _ _ _ (by decide) (.inr (by decide)))).trans ?_
  exact selectedRef_setF r hr _

theorem startSwitch_qstate {r k : Nat} (hr : r < 16) (hk : k < 16) (s : State) :
    qstate (startSwitch r s) k = if k = r then QS.SELECTED else qstate (deselect s) k := by
  have hsel : ∀ (v : Nat) (u : State), qstate (stopSlew (setB .tru TRU_STATUS.SWITCHING true (setF .tru TRU_STATUS.SELECTED v u))) k = qstate u k := fun v u =>
    (((FieldKept.refl (q := .tru) (g := REF_STAT.QSTATE) (j := k) u).setF .tru TRU_STATUS.SELECTED v (by decide) (.inr (statusSplit hk).1)).setB .tru TRU_STATUS.SWITCHING true
      (by decide) (.inr (statusSplit hk).2.1)).setB .tru TRU_STATUS.SLEWING false (by decide) (.inr (statusSplit hk).2.2)
  unfold startSwitch
  rw [hsel]
  split
  next e =>
    subst e
    exact qstate_setQstate_self _ _ (by decide) _
  next e => exact qstate_setQstate_other hr hk (Ne.symm e) _ _

/-- Holdover and free-run leave every field but the state, the estimate and the mean frequency. -/
theorem holdOver_field {g : Field} {j : Nat} (h : (offState g j && fieldsSplit TRU_HO_FREQ.VALUE g 0 j) = true) (hold : TruHold) (s : State) :
    FieldKept .tru g j s (holdOver hold s) := by
  rw [Bool.and_eq_true] at h
  unfold holdOver
  split
  · exact ((FieldKept.refl s).setF _ _ _ (by decide) (.inr h.2)).trans (setTruState_field h.1 _ _ _)
  · exact setTruState_field h.1 _ _ _

/-- With nothing to select the TRU leaves the reference, and holds over or runs free if it followed one. -/
def letGo (h : TruHold) (s : State) : State :=
  if tq s ≤ TQ.ACQUIRING then (if getF s .tru TRU_CFG.MODE = 3 then setTruState TQ.FREERUN h.theta.toNat s else holdOver h s) else s

theorem reselect_eq (h : TruHold) (s : State) : reselect h s =
    match chosenRef s with
    | some r => if selectedRef s = some r then s else startSwitch r s
    | none => letGo h (deselect s) := rfl

theorem letGo_field {g : Field} {j : Nat} (h : (offState g j && fieldsSplit TRU_HO_FREQ.VALUE g 0 j) = true) (hold : TruHold) (s : State) :
    FieldKept .tru g j s (letGo hold s) := by
  unfold letGo
  split
  · split
    · rw [Bool.and_eq_true] at h
      exact setTruState_field h.1 _ _ _
    · exact holdOver_field h _ _
  · exact .refl s

/-- Only a reference selected or past its waiting time is chosen. -/
theorem chosenRef_up {s : State} {r : Nat} (h : chosenRef s = some r) : r < 16 ∧ (selectedRef s = some r ∨ QS.WTR ≤ qstate s r) := by
  have hbest : ∀ x, bestRef s = some x → x < 8 ∧ QS.WTR ≤ qstate s x := by
    intro x hx
    have hmem : ∀ (l : List Nat) (a : Option Nat), (∀ y, a = some y → y < 8 ∧ QS.WTR ≤ qstate s y) → (∀ y ∈ l, y < 8 ∧ QS.WTR ≤ qstate s y) →
        ∀ y, l.foldl (betterRef s) a = some y → y < 8 ∧ QS.WTR ≤ qstate s y := by
      intro l
      induction l with
      | nil => exact fun a ha _ => ha
      | cons z l ih =>
        intro a ha hl
        refine ih _ (fun y hy => ?_) (fun y hy => hl y (.tail _ hy))
        unfold betterRef at hy
        split at hy
        · cases hy
          exact hl _ (.head _)
        · split at hy
          · cases hy
            exact hl _ (.head _)
          · exact ha y hy
    refine hmem _ none (fun _ h => by cases h) (fun y hy => ?_) x hx
    simp only [List.mem_filter, List.mem_range, Bool.and_eq_true, Bool.or_eq_true, decide_eq_true_eq] at hy
    obtain ⟨hlt, ⟨hq, _⟩, _⟩ := hy
    refine ⟨hlt, ?_⟩
    rcases hq with hq | hq <;> rw [hq] <;> decide
  unfold chosenRef at h
  split at h
  · split at h
    next k x hk hx =>
      split at h
      · cases h
        exact ⟨by have := (hbest _ hx).1; omega, .inr (hbest _ hx).2⟩
      · cases h
        exact ⟨by have := selectedRef_lt hk; omega, .inl hk⟩
    next k hk _ =>
      cases h
      exact ⟨by have := selectedRef_lt hk; omega, .inl hk⟩
    next =>
      exact ⟨by have := (hbest _ h).1; omega, .inr (hbest _ h).2⟩
  · dsimp only at h
    split at h
    next hr =>
      cases h
      exact ⟨getBits_lt _ 15 12, .inr hr.1⟩
    · cases h
  · cases h

/-- The state of a reference after a selection: as it was, selected after its wait, or available again. -/
theorem reselect_qstate (h : TruHold) {k : Nat} (hk : k < 8) (s : State) : qstate (reselect h s) k = qstate s k ∨
    (QS.WTR ≤ qstate s k ∧ qstate (reselect h s) k = QS.SELECTED) ∨ (qstate s k = QS.SELECTED ∧ qstate (reselect h s) k = QS.AVAILABLE) := by
  have hdes : qstate (deselect s) k = qstate s k ∨ (qstate s k = QS.SELECTED ∧ qstate (deselect s) k = QS.AVAILABLE) := by
    rw [deselect_qstate (by omega)]
    split
    next e => exact .inr ⟨e.2, rfl⟩
    · exact .inl rfl
  have hq : ∀ i : Fin 8, (offState REF_STAT.QSTATE i.val && fieldsSplit TRU_HO_FREQ.VALUE REF_STAT.QSTATE 0 i.val) = true := by decide
  rw [reselect_eq]
  split
  next r hr =>
    obtain ⟨hlt, hup⟩ := chosenRef_up hr
    split
    · exact .inl rfl
    next hsel =>
      rw [startSwitch_qstate hlt (by omega)]
      split
      next e =>
        subst e
        exact .inr (.inl ⟨hup.resolve_left hsel, rfl⟩)
      · exact hdes.imp id .inr
  next hnone =>
    rw [show qstate (letGo h (deselect s)) k = qstate (deselect s) k from letGo_field (hq ⟨k, hk⟩) h _]
    exact hdes.imp id .inr

/-- A reference that is not selected, and has not come to its wait, is not selected afterwards. -/
theorem reselect_selected (h : TruHold) {k : Nat} {s : State} (hs : selectedRef s ≠ some k) (hq : qstate s k < QS.WTR) : selectedRef (reselect h s) ≠ some k := by
  rw [reselect_eq]
  split
  next r hr =>
    obtain ⟨hlt, hup⟩ := chosenRef_up hr
    split
    · exact hs
    next hsel =>
      rw [startSwitch_selected hlt]
      split
      · exact fun h => by cases h
      · intro e
        cases e
        exact absurd (hup.resolve_left hsel) (Nat.not_le.2 hq)
  next hnone =>
    rw [selectedRef_congr (letGo_field (by decide) h _), deselect_selected]
    exact fun h => by cases h

/-- A field that no operation of the selection touches. -/
def offRef (g : Field) (j : Nat) : Bool :=
  offSelect g j && offQstate g j && fieldsSplit TRU_STATUS.SLEWING g 0 j && (offState g j && fieldsSplit TRU_HO_FREQ.VALUE g 0 j)

theorem reselect_field {g : Field} {j : Nat} (h : offRef g j = true) (hold : TruHold) (s : State) : FieldKept .tru g j s (reselect hold s) := by
  unfold offRef at h
  rw [Bool.and_eq_true] at h
  rw [reselect_eq]
  split
  next r hr =>
    split
    · exact .refl s
    · exact startSwitch_field h.1 (chosenRef_up hr).1 s
  · have h1 := h.1
    rw [Bool.and_eq_true] at h1
    exact (deselect_field h1.1 s).trans (letGo_field h.2 hold _)

/-! The command interface (R40) stands through a selection. -/

theorem setQstate_cmd {r : Nat} (hr : r < 16) (q : Nat) (s : State) : CmdKept .tru s (setQstate r q s) := by
  have h : ∀ i : Fin 16, (REF_STAT.QSTATE.offAt i.val % 0x1000 ≠ offCmdStat ∧ REF_STAT.QSTATE.offAt i.val % 0x1000 ≠ offIntStat) ∧
      (REF_STAT.WTR_LEFT.offAt i.val % 0x1000 ≠ offCmdStat ∧ REF_STAT.WTR_LEFT.offAt i.val % 0x1000 ≠ offIntStat) := by decide
  unfold setQstate
  exact (CmdKept.setI _ _ _ _ (.inr (h ⟨r, hr⟩).1)).trans (.setI _ _ _ _ (.inr (h ⟨r, hr⟩).2))

theorem showTe_cmd (theta : Nat) (s : State) : CmdKept .tru s (showTe theta s) := by
  unfold showTe
  split
  · exact (CmdKept.setF _ _ _ (by decide)).trans (.setB _ _ _ (by decide))
  · dsimp only
    split
    · exact ((CmdKept.setF _ _ _ (by decide)).trans (.setB _ _ _ (by decide))).trans (.raise _ _ _ _)
    · exact (CmdKept.setF _ _ _ (by decide)).trans (.setB _ _ _ (by decide))

theorem setTru_cmd (p : Page) (x : TruSt) (s : State) : CmdKept p s (setTru x s) := .upd rfl rfl

theorem setTruState_cmd (st theta : Nat) (s : State) : CmdKept .tru s (setTruState st theta s) := by
  by_cases hq : tq s = st
  · rw [setTruState_same hq]
    exact .refl _ s
  · obtain ⟨x, e, _⟩ := setTruState_eq hq theta
    rw [e]
    refine CmdKept.trans ?_ (.within (linkTime_within (m := 0x20040028000020) (logPage_within .refl _ _ _ rfl) _ _ _ rfl) rfl rfl)
    exact (((CmdKept.setF _ _ _ (by decide)).trans (setTru_cmd _ _ _)).trans (showTe_cmd _ _)).trans (.raise _ _ _ _)

theorem deselect_cmd (s : State) : CmdKept .tru s (deselect s) := by
  unfold deselect
  split
  · exact .refl _ s
  next r hr =>
    refine CmdKept.trans ?_ ((CmdKept.setF _ _ _ (by decide)).trans (.setB _ _ _ (by decide)))
    split
    · exact setQstate_cmd (Nat.lt_succ_of_lt (selectedRef_lt hr)) _ _
    · exact .refl _ s

theorem startSwitch_cmd {r : Nat} (hr : r < 16) (s : State) : CmdKept .tru s (startSwitch r s) := by
  unfold startSwitch stopSlew
  exact ((deselect_cmd s).trans (setQstate_cmd hr _ _)).trans (((CmdKept.setF _ _ _ (by decide)).trans (.setB _ _ _ (by decide))).trans (.setB _ _ _ (by decide)))

theorem holdOver_cmd (h : TruHold) (s : State) : CmdKept .tru s (holdOver h s) := by
  unfold holdOver
  split
  · exact (CmdKept.setF _ _ _ (by decide)).trans (setTruState_cmd _ _ _)
  · exact setTruState_cmd _ _ _

theorem measured_cmd (h : TruHold) (s : State) : CmdKept .tru s (measured h s) := by
  unfold measured
  split
  · split
    · exact setTru_cmd _ _ s
    · exact .refl _ s
  · exact .refl _ s

theorem reselect_cmd (h : TruHold) (s : State) : CmdKept .tru s (reselect h s) := by
  rw [reselect_eq]
  split
  next r hr =>
    split
    · exact .refl _ s
    · exact startSwitch_cmd (chosenRef_up hr).1 s
  · refine (deselect_cmd s).trans ?_
    unfold letGo
    split
    · split
      · exact setTruState_cmd _ _ _
      · exact holdOver_cmd _ _
    · exact .refl _ _

/-! A reference that becomes available, or waits. -/

theorem available_cmd (h : TruHold) (s : State) : CmdKept .tru s (available h s) := by
  unfold available
  split
  · exact .refl _ s
  · exact (measured_cmd _ _).trans (reselect_cmd _ _)

theorem available_field {g : Field} {j : Nat} (h : offRef g j = true) (hold : TruHold) (s : State) : FieldKept .tru g j s (available hold s) := by
  unfold available
  split
  · exact .refl s
  · exact (measured_field _ _ _ _ _).trans (reselect_field h _ _)

/-- A reference past its wait stays so, and one that is available is at most selected. -/
theorem available_qstate (h : TruHold) {k : Nat} (hk : k < 8) {m : Nat} (hm : m ≤ QS.AVAILABLE) {s : State} (hq : m ≤ qstate s k) :
    m ≤ qstate (available h s) k ∧ (qstate s k ≤ QS.SELECTED → qstate (available h s) k ≤ QS.SELECTED) := by
  have h6 : QS.WTR = 3 ∧ QS.AVAILABLE = 4 ∧ QS.SELECTED = 5 := ⟨rfl, rfl, rfl⟩
  unfold available
  split
  · exact ⟨hq, id⟩
  · have hmeas : qstate (measured h s) k = qstate s k := measured_field _ _ _ _ _
    have := reselect_qstate h hk (measured h s)
    omega

end Sys2Proof.Machine
end

section
/-!
PROOFS. TRU time (R77, R344, R345, R355, R360, R365).
-/
namespace Sys2Proof.Machine

/-! A command held for a later instant (R41). -/

theorem outstanding_setPhase {p : Page} {o : Outstanding} {s : State} (h : outstanding s p = some o) (n : Nat) :
    outstanding (setPhase p n s) p = some { o with phase := n } := by
  unfold setPhase
  rw [h]
  exact outstanding_setOutstanding p _ s

theorem setPhase_field (p q : Page) (n : Nat) (g : Field) (j : Nat) (s : State) : FieldKept q g j s (setPhase p n s) := .upd (setPhase_records p n s).2

theorem tru_setPhase (p : Page) (n : Nat) (s : State) : (setPhase p n s).tru = s.tru := (setPhase_within (m := 0x4000000) .refl p n rfl).same .tru rfl

/-! The estimate (R355). -/

theorem slotTime_congr {s t : State} (h : t.time = s.time) : slotTime t = slotTime s := by
  unfold slotTime
  rw [h]

theorem teNow_congr {s t : State} (htime : t.time = s.time) (htru : t.tru = s.tru) (hq : tq t = tq s) (hsel : selectedRef t = selectedRef s)
    (href : ∀ r, getI t .tru REF_CFG.TE_REF r = getI s .tru REF_CFG.TE_REF r) (theta : Nat) : teNow t theta = teNow s theta := by
  unfold teNow
  rw [slotTime_congr htime, htru, hq, hsel]
  simp only [href]

theorem teRef_off (r : Nat) : REF_CFG.TE_REF.offAt r % 0x20 = 0 := by
  have e : REF_CFG.TE_REF.offAt r = 0x200 + r * 0x20 := rfl
  omega

/-- What the estimate shown leaves, it does not depend on. -/
theorem teNow_showTe (th : Nat) (s : State) (theta : Nat) : teNow (showTe th s) theta = teNow s theta := by
  have hw := showTe_within (m := 0x20000020000100) (.refl (s := s)) th rfl
  refine teNow_congr (hw.same .time rfl) (hw.same .tru rfl) (showTe_field (g := TRU_STATUS.STATE) (j := 0) (by decide) _ _).getF
    (selectedRef_congr (showTe_field (by decide) _ _)) (fun r => ?_) theta
  have hoff := teRef_off r
  refine showTe_field (g := REF_CFG.TE_REF) (j := r) ?_ th s
  have e0 : TRU_STATUS.TE_OVER.offAt 0 = 0x0C := rfl
  have e1 : TRU_TE_EST.VALUE.offAt 0 = 0x134 := rfl
  have e2 : offIntStat = 0x10 := rfl
  unfold fieldsSplit
  rw [e0, e1, e2, decide_eq_true (show 0x0C % 0x1000 ≠ REF_CFG.TE_REF.offAt r % 0x1000 by omega),
    decide_eq_true (show 0x134 % 0x1000 ≠ REF_CFG.TE_REF.offAt r % 0x1000 by omega), decide_eq_true (show REF_CFG.TE_REF.offAt r % 0x1000 ≠ 0x10 by omega)]
  rfl

/-- The estimate shown while time is aligned. -/
theorem showTe_over {s : State} (ha : isSet s .tru TRU_STATUS.ALIGNED = true) (hq : tq s ≤ TQ.ACQUIRING) (theta : Nat) :
    isSet (showTe theta s) .tru TRU_STATUS.TE_OVER = decide (getF s .tru TRU_CFG.TE_BUDGET * 100 < teNow s theta) := by
  unfold showTe
  rw [ha, if_neg (by decide)]
  extract_lets te exceeded s1
  have he : exceeded = decide (getF s .tru TRU_CFG.TE_BUDGET * 100 < te) := by
    unfold exceeded
    rw [decide_eq_true hq, Bool.and_true]
  rw [← he]
  split
  next h =>
    rw [Bool.and_eq_true] at h
    rw [((FieldKept.refl (q := .tru) (g := TRU_STATUS.TE_OVER) (j := 0) _).raise _ _ (by decide)).isSet, h.1]
    exact isSet_setB_self _ _ _ _ (by decide)
  next => exact isSet_setB_self _ _ _ _ (by decide)

/-- The estimate shown while time is not aligned. -/
theorem showTe_unknown {s : State} (ha : isSet s .tru TRU_STATUS.ALIGNED = false) (theta : Nat) :
    getF (showTe theta s) .tru TRU_TE_EST.VALUE = 0xFFFFFFFF ∧ isSet (showTe theta s) .tru TRU_STATUS.TE_OVER = false := by
  unfold showTe
  rw [ha, if_pos (by decide)]
  refine ⟨?_, isSet_setB_self _ _ _ _ (by decide)⟩
  refine ((FieldKept.refl (q := .tru) (g := TRU_TE_EST.VALUE) (j := 0) _).setB .tru TRU_STATUS.TE_OVER false (by decide) (.inr (by decide))).getF.trans ?_
  exact getF_setF_self _ _ _ _ (by decide)

/-! The absorbed phase (R344). -/

/-- A signed 32-bit value reads back from the register that holds it. -/
theorem absorbed_setAbsorbed {v : Int} (hlo : -2 ^ 31 ≤ v) (hhi : v < 2 ^ 31) (s : State) : absorbed (setAbsorbed v s) = v := by
  unfold absorbed setAbsorbed
  rw [getF_setF_self _ _ _ _ (by decide)]
  unfold signedOf ofSigned
  have e : (2 : Nat) ^ TRU_ABSORBED.VALUE.width = 4294967296 := by decide
  rw [e]
  split <;> omega

theorem signedOf_range (w : Word) : -2 ^ 31 ≤ signedOf 32 w.toNat ∧ signedOf 32 w.toNat < 2 ^ 31 := by
  have h := w.isLt
  unfold signedOf
  split <;> omega

theorem awaitsPps_spec {s : State} {o : Outstanding} (h : awaitsPps s = some o) : outstanding s .tru = some o := by
  unfold awaitsPps at h
  split at h
  next x hx =>
    split at h
    · rw [hx, h]
    · cases h
  · cases h

theorem timeSelected_issued {o : Outstanding} {s u : State} (hu : JustIssued .tru o s u) : timeSelected u = timeSelected s := by
  unfold timeSelected
  rw [selectedRef_congr (hu.field (q := .tru) (by decide) (by decide))]

theorem tinPpsEdge_eq (k : Fin 204800) (s : State) : exec (.tinPpsEdge k) s = .next (match awaitsPps s with
    | some o => setPhase .tru 1 (setTru { s.tru with setTo := some (eFor s (setTimeNs o 0) k.val) } s)
    | none => s) := rfl

theorem setTimePpsTimeout_eq (s : State) : exec .setTimePpsTimeout s = .next (if (awaitsPps s).isSome then done .tru CODE.TIMEOUT s else s) := rfl

/-- Settles O60: each command and event by the fields it sets. -/
theorem timeSetting : Obligations.TimeSetting := by
  unfold Obligations.TimeSetting
  refine ⟨fun s => ?_, fun src s ht => ?_, fun src k s ht => ?_, fun k s h => ⟨?_, ?_⟩, fun k s o h => ⟨?_, ?_⟩, fun src k s ht => ?_, fun src h s ht => ?_, fun s => ?_, fun h s => ?_, fun v s => ?_⟩
  · refine Yields.guard rfl Iff.rfl (fun _ => ?_)
    refine ⟨?_, ?_, ?_, ?_⟩
    · unfold setAbsorbed stopSlew
      refine (showTe_field (g := TRU_STATUS.SLEWING) (j := 0) (by decide) _ _).isSet.trans ?_
      refine (((FieldKept.setB (FieldKept.setF (FieldKept.refl (q := .tru) (g := TRU_STATUS.SLEWING) (j := 0) _) .tru TRU_ABSORBED.VALUE _ (by decide) (.inr (by decide)))
        .tru TRU_STATUS.ALIGNED true (by decide) (.inr (by decide))).raise _ _ (by decide))).isSet.trans ?_
      exact isSet_setB_self _ _ _ _ (by decide)
    · refine (showTe_field (g := TRU_STATUS.ALIGNED) (j := 0) (by decide) _ _).isSet.trans ?_
      refine ((FieldKept.refl (q := .tru) (g := TRU_STATUS.ALIGNED) (j := 0) _).raise _ _ (by decide)).isSet.trans ?_
      exact isSet_setB_self _ _ _ _ (by decide)
    · have h : ∀ u, absorbed (showTe 0 (raise .tru TRU_INT.ALIGN_DONE (setB .tru TRU_STATUS.ALIGNED true u))) = absorbed u := fun u => by
        unfold absorbed
        rw [(showTe_field (g := TRU_ABSORBED.VALUE) (j := 0) (by decide) _ _).getF,
          (((FieldKept.refl (q := .tru) (g := TRU_ABSORBED.VALUE) (j := 0) u).setB .tru TRU_STATUS.ALIGNED true (by decide) (.inr (by decide))).raise _ _ (by decide)).getF]
      rw [h]
      exact absorbed_setAbsorbed (by decide) (by decide) _
    · exact (showTe_cmd _ _).int _ (intOf_raise _ _ _ (by decide))
  · refine Yields.issue rfl ht (fun u hu => ?_)
    dsimp only
    have htru : u.tru = s.tru := hu.within.same .tru rfl
    have hsw : switching u = switching s := (hu.field (q := .tru) (f := TRU_STATUS.SWITCHING) (j := 0) (by decide) (by decide)).isSet
    have htq : tq u = tq s := (hu.field (q := .tru) (f := TRU_STATUS.STATE) (j := 0) (by decide) (by decide)).getF
    unfold runRealign done
    rw [timeSelected_issued hu, hsw, htq]
    by_cases hr : timeSelected s = false ∨ TQ.ACQUIRING < tq s ∨ switching s = true
    · have hb : (!timeSelected s || decide (TQ.ACQUIRING < tq s) || switching s) = true := by simpa [or_assoc] using hr
      rw [if_pos hr, hb, if_pos (rfl : true = true)]
      exact ⟨hu.done (by decide) 0, (tru_complete _ _ _ _).trans htru⟩
    · have hb : ¬ (!timeSelected s || decide (TQ.ACQUIRING < tq s) || switching s) = true := by simpa [or_assoc] using hr
      rw [if_neg hr, if_neg hb]
      split
      · refine ⟨hu.code (.setB _ _ _ (by decide)) (by decide) 0, ?_, ?_⟩
        · exact (FieldKept.complete _ _ (by decide) _ _ (by decide)).isSet.trans (isSet_setB_self _ _ _ _ (by decide))
        · exact (tru_complete _ _ _ _).trans ((tru_setB _ _ _ _).trans htru)
      · refine ⟨outstanding_setPhase ?_ 1, ?_, ?_⟩
        · exact (CmdKept.setB (p := .tru) (q := .tru) u TRU_STATUS.SLEWING false (by decide)).out.trans hu.issued.out
        · exact (setPhase_field _ _ _ _ _ _).isSet.trans (isSet_setB_self _ _ _ _ (by decide))
        · exact (tru_setPhase _ _ _).trans ((tru_setB _ _ _ _).trans htru)
  · refine Yields.issue rfl ht (fun u hu => ?_)
    have htru : u.tru = s.tru := hu.within.same .tru rfl
    have htime : u.time = s.time := hu.within.same .time rfl
    dsimp only
    unfold runSetTime done
    rw [timeSelected_issued hu]
    cases hb : (latch .tru 2 src s).a0.toNat.testBit 31
    · simp only [Bool.not_false, true_and, Bool.false_eq_true, if_false]
      split
      · exact ⟨hu.done (by decide) 0, (tru_complete _ _ _ _).trans htru⟩
      · split
        · exact ⟨hu.done (by decide) 0, (tru_complete _ _ _ _).trans htru⟩
        · refine ⟨outstanding_setPhase ((setTru_cmd .tru _ _).out.trans hu.issued.out) 1, ?_⟩
          rw [tru_setPhase]
          unfold eFor setTimeNs
          rw [slotTime_congr htime]
          rfl
    · simp only [Bool.not_true, Bool.true_eq_false, Bool.false_eq_true, false_and, if_false, if_true]
      split
      · exact ⟨hu.done (by decide) 0, (tru_complete _ _ _ _).trans htru⟩
      · exact ⟨hu.issued, htru⟩
  · exact (tinPpsEdge_eq k s).trans (by rw [h])
  · exact (setTimePpsTimeout_eq s).trans (by rw [h]; rfl)
  · refine Yields.intro (t := setPhase .tru 1 (setTru { s.tru with setTo := some (eFor s (setTimeNs o 0) k.val) } s)) ?_ ⟨?_, ?_⟩
    · exact (tinPpsEdge_eq k s).trans (by rw [h])
    · exact outstanding_setPhase ((setTru_cmd .tru _ s).out.trans (awaitsPps_spec h)) 1
    · rw [tru_setPhase]
      rfl
  · refine Yields.intro (t := complete .tru CODE.TIMEOUT 0 s) ?_ ⟨complete_completed (awaitsPps_spec h) (.inl (by decide)) (by decide) 0, tru_complete _ _ _ _⟩
    exact (setTimePpsTimeout_eq s).trans (by rw [h]; rfl)
  · refine Yields.issue rfl ht (fun u hu => ?_)
    have htru : u.tru = s.tru := hu.within.same .tru rfl
    have htime : u.time = s.time := hu.within.same .time rfl
    have hns : truNs u (slotTime s + k.val) = truNs s (slotTime s + k.val) := by
      unfold truNs
      rw [htru]
    unfold runCapture done
    extract_lets mt tn sec s1 s2
    have hmt : mt = slotTime s + k.val := by
      unfold mt
      rw [slotTime_congr htime]
    have htn : tn = truNs s (slotTime s + k.val) := by
      unfold tn
      rw [hmt, hns]
    refine ⟨?_, ?_, ?_, ?_, ?_⟩
    · refine hu.code (CmdKept.trans ?_ ((CmdKept.setF _ _ _ (by decide)).trans (.setF _ _ _ (by decide)))) (by decide) 0
      exact ((CmdKept.setF _ _ _ (by decide)).trans (.setF _ _ _ (by decide))).trans (.setF _ _ _ (by decide))
    · rw [tru_complete, tru_setF, tru_setF]
      unfold s2 s1
      rw [tru_setF, tru_setF, tru_setF, htru]
    · rw [(FieldKept.complete _ _ (by decide) _ _ (by decide)).getF, getF_setF_split _ _ _ (by decide), getF_setF_split _ _ _ (by decide)]
      unfold s2
      rw [getF_setF_self _ _ _ _ (by decide), htn]
      have e : (2 : Nat) ^ TRU_CAP_NS.VALUE.width = 4294967296 := by decide
      rw [e]
      omega
    · rw [(FieldKept.complete _ _ (by decide) _ _ (by decide)).getF, getF_setF_split _ _ _ (by decide), getF_setF_self _ _ _ _ (by decide), hmt]
      exact Nat.mod_mod _ _
    · rw [(FieldKept.complete _ _ (by decide) _ _ (by decide)).getF, getF_setF_self _ _ _ _ (by decide), hmt]
      exact Nat.mod_mod _ _
  · refine Yields.issue rfl ht (fun u hu => ?_)
    have htru : u.tru = s.tru := hu.within.same .tru rfl
    dsimp only
    unfold runEndWtr done
    dsimp only
    split
    · exact ⟨hu.done (by decide) 0, (tru_complete _ _ _ _).trans htru⟩
    next hr =>
      have hlt : (latch .tru 4 src s).a0.toNat < 8 := by omega
      generalize (latch .tru 4 src s).a0.toNat = r at hlt hr
      have hoff : ∀ i : Fin 8, (decide (0x100 ≤ REF_STAT.QSTATE.offAt i.val) && decide (REF_STAT.QSTATE.offAt i.val < 0x1000) || decide (REF_STAT.QSTATE.offAt i.val = offStatus) &&
          decide (REF_STAT.QSTATE.hi < 30) && decide (REF_STAT.QSTATE.lo ≤ REF_STAT.QSTATE.hi)) = true := by decide
      have hq : qstate u r = qstate s r := hu.field (q := .tru) (f := REF_STAT.QSTATE) (j := r) (by decide) (hoff ⟨r, hlt⟩)
      rw [hq]
      split
      · exact ⟨hu.done (by decide) 0, (tru_complete _ _ _ _).trans htru⟩
      · refine ⟨hu.code ?_ (by decide) 0, ?_⟩
        · exact (setQstate_cmd (by omega) _ _).trans (available_cmd _ _)
        · rw [show ∀ x, qstate (complete .tru CODE.OK 0 x) r = qstate x r from fun x => FieldKept.complete x .tru (by decide) _ _ (hoff ⟨r, hlt⟩)]
          exact (available_qstate h hlt (Nat.le_refl _) (Nat.le_of_eq (qstate_setQstate_self _ _ (by decide) _).symm)).1
  · exact Yields.intro rfl ⟨isSet_setB_self _ _ _ _ (by decide), (RegsBut.refl _ s).setB _ (by decide)⟩
  · have hal : isSet (measured h s) .tru TRU_STATUS.ALIGNED = isSet s .tru TRU_STATUS.ALIGNED := (measured_field .tru TRU_STATUS.ALIGNED 0 h s).isSet
    refine Yields.unless (c := ¬ tq s ≤ TQ.ACQUIRING) (x := showTe h.theta.toNat (measured h s)) ?_ Nat.not_le.symm (fun hq => ⟨fun ha => ?_, fun ha => ?_⟩)
    · rw [ite_not]
      rfl
    · exact showTe_unknown (hal.trans ha) _
    · rw [showTe_over (hal.trans ha) ((measured_field .tru TRU_STATUS.STATE 0 h s).getF.trans_le (not_not.1 hq)), teNow_showTe,
        (measured_field .tru TRU_CFG.TE_BUDGET 0 h s).getF]
  · refine Yields.intro rfl ⟨?_, ?_, ?_⟩
    · rw [tru_setF]
      rfl
    · exact (getF_setF_self _ _ _ _ (by decide)).trans (Nat.mod_eq_of_lt v.isLt)
    · exact ((RegsBut.refl _ s).upd rfl).setF _ (by decide)

end Sys2Proof.Machine
end

section
/-!
PROOFS. The references of the TRU: how they qualify, are lost, and how the TRU switches between them (R348–R354, R358).
-/
namespace Sys2Proof.Machine

/-! Fields of one reference. -/

/-- The registers of a reference beside its state stand through a selection. -/
theorem refFields {r : Nat} (hr : r < 8) : offRef REF_FREQ.FREQ r = true ∧ offRef REF_PHASE.PHASE r = true ∧ offRef REF_CFG.EN r = true ∧ offRef REF_CFG.BW r = true ∧
    offQstate REF_FREQ.FREQ r = true ∧ offQstate REF_PHASE.PHASE r = true ∧ offQstate REF_CFG.EN r = true ∧ offQstate REF_CFG.BW r = true := by
  have h : ∀ i : Fin 8, offRef REF_FREQ.FREQ i.val = true ∧ offRef REF_PHASE.PHASE i.val = true ∧ offRef REF_CFG.EN i.val = true ∧ offRef REF_CFG.BW i.val = true ∧
      offQstate REF_FREQ.FREQ i.val = true ∧ offQstate REF_PHASE.PHASE i.val = true ∧ offQstate REF_CFG.EN i.val = true ∧ offQstate REF_CFG.BW i.val = true := by decide
  exact h ⟨r, hr⟩

theorem refApart {r : Nat} (hr : r < 8) : decide (REF_FREQ.FREQ.offAt r % 0x1000 ≠ offIntStat) = true ∧ decide (REF_PHASE.PHASE.offAt r % 0x1000 ≠ offIntStat) = true ∧
    decide (REF_STAT.QSTATE.offAt r % 0x1000 ≠ offIntStat) = true ∧ fieldsSplit REF_PHASE.PHASE REF_FREQ.FREQ r r = true ∧ fieldsSplit REF_PHASE.PHASE REF_STAT.QSTATE r r = true ∧
    fieldsSplit REF_FREQ.FREQ REF_STAT.QSTATE r r = true := by
  have h : ∀ i : Fin 8, decide (REF_FREQ.FREQ.offAt i.val % 0x1000 ≠ offIntStat) = true ∧ decide (REF_PHASE.PHASE.offAt i.val % 0x1000 ≠ offIntStat) = true ∧
      decide (REF_STAT.QSTATE.offAt i.val % 0x1000 ≠ offIntStat) = true ∧ fieldsSplit REF_PHASE.PHASE REF_FREQ.FREQ i.val i.val = true ∧
      fieldsSplit REF_PHASE.PHASE REF_STAT.QSTATE i.val i.val = true ∧ fieldsSplit REF_FREQ.FREQ REF_STAT.QSTATE i.val i.val = true := by decide
  exact h ⟨r, hr⟩

theorem getI_word (f : Field) (hf : f.ordered = true) (hw : f.width = 32) (i : Nat) (p : Page) (w : Word) (s : State) : getI (setI p f i w.toNat s) p f i = w.toNat := by
  rw [getI_setI_self _ _ _ _ _ hf, hw]
  exact Nat.mod_eq_of_lt w.isLt

/-! What the TRU keeps beside its registers. -/

/-- The phase to align by and the references disqualified. -/
def TruHeld (s t : State) : Prop := t.tru.alignBy = s.tru.alignBy ∧ t.tru.disq = s.tru.disq

theorem TruHeld.refl (s : State) : TruHeld s s := ⟨rfl, rfl⟩

theorem TruHeld.trans {s t u : State} (h : TruHeld s t) (k : TruHeld t u) : TruHeld s u := ⟨k.1.trans h.1, k.2.trans h.2⟩

theorem TruHeld.of_tru {s t : State} (h : t.tru = s.tru) : TruHeld s t := by
  unfold TruHeld
  rw [h]
  exact ⟨rfl, rfl⟩

theorem setTruState_held (st theta : Nat) (s : State) : TruHeld s (setTruState st theta s) := by
  by_cases hq : tq s = st
  · rw [setTruState_same hq]
    exact .refl s
  · obtain ⟨x, e, ha, hd⟩ := setTruState_eq hq theta
    rw [e]
    have h1 : TruHeld s (setTru x (setF .tru TRU_STATUS.STATE st s)) := ⟨ha, hd⟩
    have hlink : ∀ u : State, TruHeld u (linkTime 0 (tq s) st u) := fun u => by
      unfold linkTime
      split
      · have h2 : TruHeld u (recordTru u) := ⟨rfl, rfl⟩
        exact h2.trans (.of_tru ((logEvent_within (m := 0x20000028000020) .refl _ _ _ rfl).same .tru rfl))
      · exact .refl u
    refine TruHeld.trans (h1.trans (.of_tru ?_)) (hlink _)
    rw [(logPage_within (m := 0x20000028000020) .refl _ _ _ rfl).same .tru rfl, tru_raise]
    exact (showTe_within (m := 0x20000020000100) .refl _ rfl).same .tru rfl

theorem measured_held (h : TruHold) (s : State) : TruHeld s (measured h s) := by
  unfold measured
  split
  · split
    · exact ⟨rfl, rfl⟩
    · exact .refl s
  · exact .refl s

theorem reselect_held (h : TruHold) (s : State) : TruHeld s (reselect h s) := by
  have hdes : TruHeld s (deselect s) := .of_tru ((deselect_within (m := 0x100) .refl rfl).same .tru rfl)
  rw [reselect_eq]
  split
  · split
    · exact .refl s
    · exact .of_tru ((startSwitch_within (m := 0x100) .refl _ rfl).same .tru rfl)
  · refine hdes.trans ?_
    unfold letGo
    split
    · split
      · exact setTruState_held _ _ _
      · unfold holdOver
        split
        · exact (TruHeld.of_tru (tru_setF _ _ _ _)).trans (setTruState_held _ _ _)
        · exact setTruState_held _ _ _
    · exact .refl _

/-! A reference qualified (R349). -/

theorem showRef_freq {r : Nat} (hr : r < 8) (freq phase : Word) (s : State) : getI (showRef r freq phase s) .tru REF_FREQ.FREQ r = freq.toNat := by
  unfold showRef
  rw [getI_setI_split _ _ _ (by decide) (refApart hr).2.2.2.1]
  exact getI_word _ (by decide) (by decide) _ _ _ _

theorem showRef_selected {r : Nat} (hr : r < 8) (freq phase : Word) (s : State) : selectedRef (showRef r freq phase s) = selectedRef s := by
  have h : ∀ i : Fin 8, fieldsSplit REF_FREQ.FREQ TRU_STATUS.SELECTED i.val 0 = true ∧ fieldsSplit REF_PHASE.PHASE TRU_STATUS.SELECTED i.val 0 = true := by decide
  exact selectedRef_congr (((FieldKept.refl s).setI _ _ _ _ (by decide) (.inr (h ⟨r, hr⟩).1)).setI _ _ _ _ (by decide) (.inr (h ⟨r, hr⟩).2))

/-- A reference just measured, put into a state past its wait, stands there or is selected. -/
theorem admitted_effect {r q : Nat} (hr : r < 8) (hhi : q ≤ QS.AVAILABLE) (h : TruHold) {u t : State} (hu : intOf u .tru TRU_INT.QUALIFIED = true)
    (ht : t = setQstate r q u ∨ t = available h (setQstate r q u)) :
    getI t .tru REF_FREQ.FREQ r = getI u .tru REF_FREQ.FREQ r ∧ intOf t .tru TRU_INT.QUALIFIED = true ∧ q ≤ qstate t r := by
  obtain ⟨hoff, _, _, _, hq, _⟩ := refFields hr
  have hfreq : FieldKept .tru REF_FREQ.FREQ r u (setQstate r q u) := setQstate_field hq (by omega) _ _
  have hcmd : CmdKept .tru u (setQstate r q u) := setQstate_cmd (by omega) _ _
  have hst : qstate (setQstate r q u) r = q := qstate_setQstate_self _ _ (by have : QS.AVAILABLE = 4 := rfl; omega) _
  rcases ht with rfl | rfl
  · exact ⟨hfreq, hcmd.int _ hu, Nat.le_of_eq hst.symm⟩
  · exact ⟨hfreq.trans (available_field hoff _ _), (hcmd.trans (available_cmd _ _)).int _ hu, (available_qstate h hr hhi (Nat.le_of_eq hst.symm)).1⟩

theorem refQualified_effect {r : Nat} (hr : r < 8) (freq phase : Word) (h : TruHold) (s : State)
    (hq : ¬ ((qstate s r ≠ QS.ABSENT ∧ qstate s r ≠ QS.QUALIFYING) ∨ getI s .tru REF_QUAL.FREQ_TOL r * 100 < (signedOf 32 freq.toNat).natAbs)) :
    let t := refQualified r freq phase h s
    getI t .tru REF_FREQ.FREQ r = freq.toNat ∧ intOf t .tru TRU_INT.QUALIFIED = true ∧ QS.WTR ≤ qstate t r ∧
      (s.tru.disq.contains r = false → QS.AVAILABLE ≤ qstate t r) := by
  unfold refQualified
  dsimp only
  rw [if_neg hq]
  have hint : intOf (raise .tru TRU_INT.QUALIFIED (showRef r freq phase s)) .tru TRU_INT.QUALIFIED = true := intOf_raise _ _ _ (by decide)
  have hfreq : getI (raise .tru TRU_INT.QUALIFIED (showRef r freq phase s)) .tru REF_FREQ.FREQ r = freq.toNat :=
    (getI_raise _ _ _ _ _ _ (refApart hr).1).trans (showRef_freq hr _ _ _)
  have hle : QS.WTR ≤ QS.AVAILABLE := by decide
  split
  · obtain ⟨h1, h2, h3⟩ := admitted_effect hr (Nat.le_refl _) h hint (.inr rfl)
    exact ⟨h1.trans hfreq, h2, Nat.le_trans hle h3, fun _ => h3⟩
  next hd =>
    have hc : ¬ s.tru.disq.contains r = false := fun e => hd (by rw [e]; rfl)
    split
    · obtain ⟨h1, h2, h3⟩ := admitted_effect hr hle h hint (.inr rfl)
      exact ⟨h1.trans hfreq, h2, h3, fun e => absurd e hc⟩
    · obtain ⟨h1, h2, h3⟩ := admitted_effect hr hle h hint (.inl rfl)
      exact ⟨h1.trans hfreq, h2, h3, fun e => absurd e hc⟩

/-! A reference lost (R349, R353). -/

/-- A reference put back below its wait, and selected no more where it was selected. -/
theorem droppedRef_effect {r q : Nat} (hr : r < 8) (hq : q < QS.WTR) (h : TruHold) {u : State} (hu : qstate u r = q) :
    qstate (reselect h (deselect u)) r = q ∧ selectedRef (reselect h (deselect u)) ≠ some r := by
  have h6 : QS.WTR = 3 ∧ QS.AVAILABLE = 4 ∧ QS.SELECTED = 5 := ⟨rfl, rfl, rfl⟩
  have hdes : qstate (deselect u) r = q := by
    rw [deselect_qstate (by omega), if_neg (fun e => by omega), hu]
  refine ⟨?_, reselect_selected h (by rw [deselect_selected]; exact fun e => by cases e) (by omega)⟩
  have := reselect_qstate h hr (deselect u)
  omega

theorem disqualify_effect {r q : Nat} (hr : r < 8) (hq : q < QS.WTR) (h : TruHold) (s : State) :
    let t := disqualify r q h s
    qstate t r = q ∧ intOf t .tru TRU_INT.DISQUALIFIED = true ∧ selectedRef t ≠ some r ∧ t.tru.disq.contains r = true ∧ FieldKept .tru REF_PHASE.PHASE r s t := by
  have h6 : QS.WTR = 3 ∧ QS.AVAILABLE = 4 ∧ QS.SELECTED = 5 := ⟨rfl, rfl, rfl⟩
  obtain ⟨_, hoff, _, _, _, hoq, _⟩ := refFields hr
  obtain ⟨_, hpint, hqint, _⟩ := refApart hr
  intro t
  have ht : t = disqualify r q h s := rfl
  clear_value t
  unfold disqualify at ht
  extract_lets was s0 src s1 s2 at ht
  have h0 : FieldKept .tru REF_PHASE.PHASE r s s0 ∧ FieldKept .tru TRU_STATUS.SELECTED 0 s s0 := by
    unfold s0
    split
    · exact ⟨measured_field _ _ _ _ _, measured_field _ _ _ _ _⟩
    · exact ⟨.refl s, .refl s⟩
  have hst : qstate s2 r = q := (getI_raise _ _ _ _ _ _ hqint).trans (qstate_setQstate_self _ _ (by omega) _)
  have hph : FieldKept .tru REF_PHASE.PHASE r s s2 :=
    ((h0.1.trans (setTru_field _ _ _ _ _)).trans (setQstate_field hoq (by omega) _ _)).raise _ _ hpint
  have hint : intOf s2 .tru TRU_INT.DISQUALIFIED = true := intOf_raise _ _ _ (by decide)
  have hdq : s2.tru.disq.contains r = true := by
    have e : s2.tru.disq = s1.tru.disq := by
      unfold s2
      rw [tru_raise, (setQstate_within (m := 0x100) (.refl (s := s1)) r q rfl).same .tru rfl]
    rw [e]
    show (if s.tru.disq.contains r then s.tru.disq else s.tru.disq ++ [r]).contains r = true
    split
    · assumption
    · simp
  have hs1 : FieldKept .tru TRU_STATUS.SELECTED 0 s s1 := h0.2.trans (setTru_field _ _ _ _ _)
  by_cases hw : was = true
  case neg =>
    have hns : selectedRef s ≠ some r := fun e => hw (decide_eq_true e)
    have hsel : selectedRef s2 = selectedRef s := by
      exact selectedRef_congr ((hs1.trans (setQstate_field (by decide) (by omega) _ _)).raise _ _ (by decide))
    rw [if_neg hw] at ht
    subst ht
    exact ⟨hst, hint, by rw [hsel]; exact hns, hdq, hph⟩
  case pos =>
    rw [if_pos hw] at ht
    subst ht
    obtain ⟨h1, h2⟩ := droppedRef_effect hr hq h hst
    refine ⟨h1, ((deselect_cmd s2).trans (reselect_cmd h _)).int _ hint, h2, ?_, ?_⟩
    · rw [(reselect_held h (deselect s2)).2, (deselect_within (m := 0x100) .refl rfl).same .tru rfl]
      exact hdq
    · have hs := hoff
      unfold offRef at hs
      simp only [Bool.and_eq_true] at hs
      exact hph.trans ((deselect_field (by simp only [Bool.and_eq_true]; exact hs.1.1) _).trans (reselect_field hoff _ _))

/-! Switches and states (R351, R354). -/

theorem switchDone_effect {r : Nat} {s : State} (hr : selectedRef s = some r) (p : Word) (h : TruHold) :
    let t := switchDone p h s
    intOf t .tru TRU_INT.SWITCHED = true ∧
    (isTimeRef r = true → isSet s .tru TRU_STATUS.ALIGNED = true → absorbed t = signedOf 32 p.toNat) ∧
    (isTimeRef r = true → isSet s .tru TRU_CFG.AUTO_ALIGN = true → isSet s .tru TRU_STATUS.ALIGNED = false → t.tru.alignBy = some (signedOf 32 p.toNat)) := by
  intro t
  have e : t = switchDone p h s := rfl
  clear_value t
  unfold switchDone at e
  split at e
  next hn => cases hr.symm.trans hn
  next k hk =>
  cases hr.symm.trans hk
  extract_lets v first te s1 t1 src1 s2 s3 s4 src s5 at e
  subst e
  have hint : intOf s3 .tru TRU_INT.SWITCHED = true := intOf_raise _ _ _ (by decide)
  have h35 : CmdKept .tru s3 s5 := (setTruState_cmd _ _ _).trans ((setTru_cmd _ _ _).trans (showTe_cmd _ _))
  have hheld : TruHeld s2 (reselect h s5) := by
    have h23 : TruHeld s2 s3 := .of_tru (tru_raise _ _ _)
    have h45 : TruHeld s4 s5 := by
      have h1 : TruHeld s4 (setTru { src with teEntry := te, teFrom := slotTime s } s4) := ⟨rfl, rfl⟩
      exact h1.trans (.of_tru ((showTe_within (m := 0x20000020000100) .refl _ rfl).same .tru rfl))
    exact (h23.trans (setTruState_held _ _ _)).trans (h45.trans (reselect_held _ _))
  have habs : absorbed (reselect h s5) = absorbed s2 := by
    unfold absorbed
    have h23 : FieldKept .tru TRU_ABSORBED.VALUE 0 s2 s3 := (FieldKept.refl s2).raise _ _ (by decide)
    have h34 : FieldKept .tru TRU_ABSORBED.VALUE 0 s3 s4 := setTruState_field (by decide) _ _ _
    have h45 : FieldKept .tru TRU_ABSORBED.VALUE 0 s4 s5 := (setTru_field _ _ _ _ _).trans (showTe_field (by decide) _ _)
    rw [(((h23.trans h34).trans h45).trans (reselect_field (by decide) _ _)).getF]
  refine ⟨(h35.trans (reselect_cmd _ _)).int _ hint, fun ht ha => ?_, fun ht hauto ha => ?_⟩
  · rw [habs]
    have hf : first = false := by
      unfold first
      rw [ha]
      cases isTimeRef r <;> cases isSet s .tru TRU_CFG.AUTO_ALIGN <;> rfl
    unfold s2
    rw [ht, hf, if_neg (by decide), if_neg (by decide)]
    exact absorbed_setAbsorbed (signedOf_range p).1 (signedOf_range p).2 _
  · rw [hheld.1]
    have hf : first = true := by
      unfold first
      rw [ht, hauto, ha]
      rfl
    unfold s2
    rw [ht, hf, if_neg (by decide), if_pos rfl]
    rfl

/-! The configuration (R350, R358). -/

/-- The halves of a field's distance from the selection. -/
theorem offRef_halves {g : Field} {j : Nat} (h : offRef g j = true) : (offSelect g j && offQstate g j) = true ∧
    (offState g j && fieldsSplit TRU_HO_FREQ.VALUE g 0 j) = true ∧ offState g j = true := by
  unfold offRef at h
  simp only [Bool.and_eq_true] at h ⊢
  exact ⟨h.1.1, h.2, h.2.1⟩

theorem applyMode_field {g : Field} {j : Nat} (h : offRef g j = true) (hold : TruHold) (s : State) : FieldKept .tru g j s (applyMode hold s) := by
  obtain ⟨hdes, hho, hst⟩ := offRef_halves h
  unfold applyMode
  split
  · exact .refl s
  · split
    · split
      · exact .refl s
      · exact ((measured_field _ _ _ _ _).trans (deselect_field hdes _)).trans (holdOver_field hho _ _)
    · exact ((measured_field _ _ _ _ _).trans (deselect_field hdes _)).trans (setTruState_field hst _ _ _)
    · exact (measured_field _ _ _ _ _).trans (reselect_field h _ _)

/-- In the modes HOLDOVER and FREE-RUN nothing is selected. -/
theorem applyMode_effect {s : State} (hsw : switching s = false) (h : TruHold) :
    (getF s .tru TRU_CFG.MODE = 2 ∨ getF s .tru TRU_CFG.MODE = 3 → selectedRef (applyMode h s) = none) ∧
    (getF s .tru TRU_CFG.MODE = 3 → tq (applyMode h s) = TQ.FREERUN) := by
  unfold applyMode
  rw [hsw, if_neg (by decide)]
  split
  next hm =>
    rw [hm]
    refine ⟨fun _ => ?_, fun e => absurd e (by decide)⟩
    split
    next hn => exact Option.isNone_iff_eq_none.1 hn.2
    · exact (selectedRef_congr (holdOver_field (by decide) h _)).trans (deselect_selected _)
  next hm =>
    refine ⟨fun _ => ?_, fun _ => (setTruState_state _ _ (by decide) _).1⟩
    exact (selectedRef_congr (setTruState_field (by decide) _ _ _)).trans (deselect_selected _)
  next h2 h3 => exact ⟨fun e => (e.elim h2 h3).elim, fun e => (h3 e).elim⟩

/-- The registers of the TRU's mode and of a reference hold RW fields apart from each other and no RWP field. -/
theorem truRegisters_fields : ∀ o ∈ [0x100, 0x200, 0x220, 0x240, 0x260, 0x280, 0x2A0, 0x2C0, 0x2E0],
    (0x100 ≤ o ∧ o < 0x1000) ∧ (∀ f ∈ fieldsAt .tru o, f.acc ≠ .rwp) ∧
    (∀ f ∈ (fieldsAt .tru o).filter (fun f => decide (f.acc = .rw)), f.lo ≤ f.hi ∧ f.hi < 32) ∧
    ((fieldsAt .tru o).filter (fun f => decide (f.acc = .rw))).Pairwise (fun f g => f.hi < g.lo ∨ g.hi < f.lo) := by decide

/-- Where the configuration of a reference lies, and what lies apart from it. -/
theorem refCfg_offset {r : Nat} (hr : r < 8) : REF_CFG.EN.offAt r ∈ [0x100, 0x200, 0x220, 0x240, 0x260, 0x280, 0x2A0, 0x2C0, 0x2E0] ∧
    REF_CFG.EN ∈ (fieldsAt .tru (REF_CFG.EN.offAt r)).filter (fun f => decide (f.acc = .rw)) ∧
    addr .tru (TRU_STATUS.SELECTED.offAt 0) ∉ [addr .tru (REF_CFG.EN.offAt r), addr .tru offIntStat, addr .tru offErrCnt] ∧
    (∀ g ∈ [REF_CFG.EN, REF_CFG.BW], addr .tru (g.offAt r) ∉ [addr .tru offIntStat, addr .tru offErrCnt] ∧ fieldsSplit REF_PHASE.PHASE g r r = true) ∧
    fieldsSplit REF_CFG.BW REF_CFG.EN r r = true ∧ fieldsSplit REF_CFG.BW TRU_STATUS.SELECTED r 0 = true ∧ fieldsSplit REF_PHASE.PHASE TRU_STATUS.SELECTED r 0 = true := by
  have h : ∀ i : Fin 8, REF_CFG.EN.offAt i.val ∈ [0x100, 0x200, 0x220, 0x240, 0x260, 0x280, 0x2A0, 0x2C0, 0x2E0] ∧
      REF_CFG.EN ∈ (fieldsAt .tru (REF_CFG.EN.offAt i.val)).filter (fun f => decide (f.acc = .rw)) ∧
      addr .tru (TRU_STATUS.SELECTED.offAt 0) ∉ [addr .tru (REF_CFG.EN.offAt i.val), addr .tru offIntStat, addr .tru offErrCnt] ∧
      (∀ g ∈ [REF_CFG.EN, REF_CFG.BW], addr .tru (g.offAt i.val) ∉ [addr .tru offIntStat, addr .tru offErrCnt] ∧ fieldsSplit REF_PHASE.PHASE g i.val i.val = true) ∧
      fieldsSplit REF_CFG.BW REF_CFG.EN i.val i.val = true ∧ fieldsSplit REF_CFG.BW TRU_STATUS.SELECTED i.val 0 = true ∧
      fieldsSplit REF_PHASE.PHASE TRU_STATUS.SELECTED i.val 0 = true := by decide
  exact h ⟨r, hr⟩

/-- The configuration of a reference as a write leaves it, a bandwidth it may not have put back. -/
def refWritten (r : Nat) (v : Word) (s : State) : State :=
  let s1 := writeFields .tru (REF_CFG.EN.offAt r) v s
  if bwOk r (getI s1 .tru REF_CFG.BW r) then s1 else countErr .tru (setI .tru REF_CFG.BW r (getI s .tru REF_CFG.BW r) s1)

theorem refWritten_effect {r : Nat} (hr : r < 8) (v : Word) (s : State) :
    getI (refWritten r v s) .tru REF_CFG.EN r = getBits v REF_CFG.EN.hi REF_CFG.EN.lo ∧
    (bwOk r (getI s .tru REF_CFG.BW r) = true → bwOk r (getI (refWritten r v s) .tru REF_CFG.BW r) = true) ∧ selectedRef (refWritten r v s) = selectedRef s := by
  obtain ⟨hmem, hen, hsel, hg, hsplit, hsplit2, _⟩ := refCfg_offset hr
  obtain ⟨hen0, _⟩ := hg REF_CFG.EN (.head _)
  obtain ⟨hbw0, _⟩ := hg REF_CFG.BW (.tail _ (.head _))
  obtain ⟨ho, hp, hd⟩ := truRegisters_fields _ hmem
  obtain ⟨hf, _, _, hregs⟩ := writeFields_effect (p := .tru) ho hp hd v s
  have hen1 : getI (writeFields .tru (REF_CFG.EN.offAt r) v s) .tru REF_CFG.EN r = getBits v REF_CFG.EN.hi REF_CFG.EN.lo := (hf _ hen).trans (if_pos rfl)
  have hs1 : FieldKept .tru TRU_STATUS.SELECTED 0 s (writeFields .tru (REF_CFG.EN.offAt r) v s) := getI_congr (hregs _ hsel)
  have hcount : ∀ u, RegsBut [addr .tru offIntStat, addr .tru offErrCnt] u (countErr .tru u) := fun u => (RegsBut.refl _ u).countErr (.head _) (.tail _ (.head _))
  unfold refWritten
  dsimp only
  generalize writeFields .tru (REF_CFG.EN.offAt r) v s = s1 at hen1 hs1
  split
  next hb => exact ⟨hen1, fun _ => hb, selectedRef_congr hs1⟩
  next hb =>
    refine ⟨?_, fun hok => ?_, ?_⟩
    · rw [getI_congr (hcount _ _ hen0), getI_setI_split _ _ _ (by decide) hsplit, hen1]
    · rw [getI_congr (hcount _ _ hbw0), getI_setI_self _ _ _ _ _ (by decide), Nat.mod_eq_of_lt (show getI s .tru REF_CFG.BW r < 2 ^ REF_CFG.BW.width from getBits_lt _ 27 24)]
      exact hok
    · have h1 : FieldKept .tru TRU_STATUS.SELECTED 0 s1 (setI .tru REF_CFG.BW r (getI s .tru REF_CFG.BW r) s1) := (FieldKept.refl s1).setI _ _ _ _ (by decide) (.inr hsplit2)
      exact selectedRef_congr ((hs1.trans h1).trans (getI_congr (hcount _ _ (by decide))))

theorem refCfg_effect {r : Nat} (hr : r < 8) (v : Word) (h : TruHold) (s : State) :
    let t := refCfg r v h s
    getI t .tru REF_CFG.EN r = getBits v REF_CFG.EN.hi REF_CFG.EN.lo ∧
    (bwOk r (getI s .tru REF_CFG.BW r) = true → bwOk r (getI t .tru REF_CFG.BW r) = true) ∧
    (getI s .tru REF_CFG.EN r = 1 → getI t .tru REF_CFG.EN r = 0 → qstate t r = QS.DISABLED ∧ selectedRef t ≠ some r) ∧
    (getI s .tru REF_CFG.EN r = 0 → getI t .tru REF_CFG.EN r = 1 → qstate t r = if refPresent s r then QS.QUALIFYING else QS.ABSENT) := by
  obtain ⟨_, _, _, hg, _, _, hps⟩ := refCfg_offset hr
  obtain ⟨_, hpe⟩ := hg REF_CFG.EN (.head _)
  obtain ⟨_, hpb⟩ := hg REF_CFG.BW (.tail _ (.head _))
  obtain ⟨_, _, hre, hrb, _, _, hqe, hqb⟩ := refFields hr
  obtain ⟨hen, hbw, hsel⟩ := refWritten_effect hr v s
  intro t
  have e : t = refCfg r v h s := rfl
  clear_value t
  unfold refCfg at e
  extract_lets on bw s1 s2 now was s3 at e
  rw [show refWritten r v s = s2 from rfl] at hen hbw hsel
  clear_value s2
  have h3 : ∀ g : Field, offQstate g r = true → fieldsSplit REF_PHASE.PHASE g r r = true → FieldKept .tru g r s2 s3 := fun g hq hp =>
    (setQstate_field hq (by omega) _ _).trans ((FieldKept.refl _).setI _ _ _ _ (by decide) (.inr hp))
  split at e
  next hoff =>
    have hq3 : qstate s3 r = QS.DISABLED := (getI_setI_split _ _ _ (by decide) (refApart hr).2.2.2.2.1).trans (qstate_setQstate_self _ _ (by decide) _)
    have hsel3 : selectedRef s3 = selectedRef s := (selectedRef_congr ((setQstate_field (by decide) (by omega) _ _).trans
      ((FieldKept.refl _).setI _ _ _ _ (by decide) (.inr hps)))).trans hsel
    obtain ⟨hon, hnow⟩ := hoff
    have hlast : ∀ u, FieldKept .tru REF_CFG.EN r s2 u → FieldKept .tru REF_CFG.BW r s2 u → qstate u r = QS.DISABLED ∧ selectedRef u ≠ some r →
        getI u .tru REF_CFG.EN r = getBits v REF_CFG.EN.hi REF_CFG.EN.lo ∧
        (bwOk r (getI s .tru REF_CFG.BW r) = true → bwOk r (getI u .tru REF_CFG.BW r) = true) ∧
        (getI s .tru REF_CFG.EN r = 1 → getI u .tru REF_CFG.EN r = 0 → qstate u r = QS.DISABLED ∧ selectedRef u ≠ some r) ∧
        (getI s .tru REF_CFG.EN r = 0 → getI u .tru REF_CFG.EN r = 1 → qstate u r = if refPresent s r then QS.QUALIFYING else QS.ABSENT) := fun u h1 h2 h4 =>
      ⟨Eq.trans h1 hen, fun hb => by rw [show getI u .tru REF_CFG.BW r = _ from h2]; exact hbw hb, fun _ _ => h4, fun h0 => by rw [show getI s .tru REF_CFG.EN r = 1 from hon] at h0; cases h0⟩
    split at e
    · subst e
      refine hlast _ ?_ ?_ (droppedRef_effect hr (by decide) h (Eq.trans (measured_field _ _ _ _ _) hq3))
      · exact (((h3 _ hqe hpe).trans (measured_field _ _ _ _ _)).trans (deselect_field (offRef_halves hre).1 _)).trans (reselect_field hre _ _)
      · exact (((h3 _ hqb hpb).trans (measured_field _ _ _ _ _)).trans (deselect_field (offRef_halves hrb).1 _)).trans (reselect_field hrb _ _)
    next hw =>
      subst e
      exact hlast _ (h3 _ hqe hpe) (h3 _ hqb hpb) ⟨hq3, by rw [hsel3]; exact fun e => hw (decide_eq_true e)⟩
  next hoff =>
    split at e
    next hup =>
      subst e
      refine ⟨Eq.trans (setQstate_field hqe (by omega) _ _) hen, fun hb => ?_, fun h1 => absurd h1 hup.1, fun _ _ => ?_⟩
      · rw [show getI (setQstate r _ s2) .tru REF_CFG.BW r = _ from setQstate_field hqb (by omega) _ _]
        exact hbw hb
      · exact qstate_setQstate_self _ _ (by split <;> decide) _
    next hup =>
      subst e
      refine ⟨hen, hbw, fun h1 h0 => absurd ⟨h1, fun h2 => ?_⟩ hoff, fun h0 h1 => absurd ⟨fun h2 => ?_, h1⟩ hup⟩
      · rw [show getI t .tru REF_CFG.EN r = 1 from h2] at h0
        cases h0
      · rw [show getI s .tru REF_CFG.EN r = 1 from h2] at h0
        cases h0

theorem truLocked_eq (p : Word) (s : State) : exec (.truLocked p) s = .next (match selectedRef s with
    | none => s
    | some r => if tq s ≠ TQ.ACQUIRING ∨ switching s ∨ (isTimeRef r ∧ 100 < (signedOf 32 p.toNat - absorbed s).natAbs) then s
      else setTruState TQ.LOCKED 0 (if isTimeRef r then setI .tru REF_PHASE.PHASE r p.toNat (setTru { s.tru with phase := signedOf 32 p.toNat } s) else s)) := rfl

theorem switchComplete_eq (p : Word) (h : TruHold) (s : State) : exec (.switchComplete p h) s = .next (if switching s then switchDone p h s else s) := rfl

/-- Settles O59: each event and write by the lemma about it; a selection moves a reference between AVAILABLE and SELECTED alone. -/
theorem timingReferences : Obligations.TimingReferences := by
  unfold Obligations.TimingReferences
  refine ⟨fun r freq phase h s => ?_, fun r freq phase h s => ?_, fun r h s => ?_, fun r h s => ?_, fun p h s hs => ?_, fun p h s hs r hr => ?_, fun p s hs => ?_,
    fun p s hq hsw r hr => ?_, fun th s => ?_, fun v h s => ?_, fun r v h s => ?_⟩
  · by_cases hq : (qstate s r.val ≠ QS.ABSENT ∧ qstate s r.val ≠ QS.QUALIFYING) ∨ getI s .tru REF_QUAL.FREQ_TOL r.val * 100 < (signedOf 32 freq.toNat).natAbs
    · refine Yields.intro (t := s) (congrArg Host.Outcome.next ?_) ((if_pos hq).mpr rfl)
      exact if_pos hq
    · exact Yields.intro rfl ((if_neg hq).mpr (refQualified_effect r.isLt freq phase h s hq))
  · refine Yields.unless (c := qstate s r.val < QS.WTR) rfl Iff.rfl (fun _ => ?_)
    obtain ⟨h1, h2, h3, h4, _⟩ := disqualify_effect r.isLt (q := QS.QUALIFYING) (by decide) h (showRef r.val freq phase s)
    exact ⟨h1, h2, h3, h4⟩
  · by_cases hq : qstate s r.val ≤ QS.ABSENT ∨ (refPresent s r.val = true ∧ r.val ≠ 7)
    · exact Yields.intro (t := s) (congrArg Host.Outcome.next (if_pos hq)) ((if_pos hq).mpr rfl)
    · refine Yields.intro (congrArg Host.Outcome.next (if_neg hq)) ((if_neg hq).mpr ?_)
      have hph : getI (setI .tru REF_PHASE.PHASE r.val 0x80000000 s) .tru REF_PHASE.PHASE r.val = 0x80000000 := getI_setI_self _ _ _ _ _ (by decide)
      split
      next he =>
        exact ⟨qstate_setQstate_self _ _ (by decide) _, Eq.trans (setQstate_field (refFields r.isLt).2.2.2.2.2.1 (by omega) _ _) hph, fun h => absurd he h⟩
      · obtain ⟨h1, h2, h3, _, h5⟩ := disqualify_effect r.isLt (q := QS.ABSENT) (by decide) h (setI .tru REF_PHASE.PHASE r.val 0x80000000 s)
        exact ⟨h1, Eq.trans h5 hph, fun _ => ⟨h2, h3⟩⟩
  · refine Yields.guard (c := qstate s r.val = QS.WTR) rfl Iff.rfl (fun _ => ?_)
    have hst : qstate (setQstate r.val QS.AVAILABLE s) r.val = QS.AVAILABLE := qstate_setQstate_self _ _ (by decide) _
    obtain ⟨h1, h2⟩ := available_qstate h r.isLt (Nat.le_refl _) (Nat.le_of_eq hst.symm)
    exact ⟨h1, h2 (by rw [hst]; decide)⟩
  · rw [switchComplete_eq]
    split
    next hsw =>
      unfold switchDone
      rw [hs.resolve_left (by rw [hsw]; decide)]
    · rfl
  · exact Yields.intro ((switchComplete_eq p h s).trans (by rw [if_pos hs])) (switchDone_effect hr p h)
  · rw [truLocked_eq]
    split
    · rfl
    next r hr =>
      rw [if_pos]
      rcases hs with h | h | h
      · cases hr.symm.trans h
      · exact .inl h
      · exact .inr (.inl h)
  · have hex : exec (.truLocked p) s = .next (if isTimeRef r = true ∧ 100 < (signedOf 32 p.toNat - absorbed s).natAbs then s
        else setTruState TQ.LOCKED 0 (if isTimeRef r then setI .tru REF_PHASE.PHASE r p.toNat (setTru { s.tru with phase := signedOf 32 p.toNat } s) else s)) := by
      rw [truLocked_eq, hr, hq, hsw]
      simp only [ne_eq, not_true_eq_false, Bool.false_eq_true, false_or]
    refine Yields.unless hex Iff.rfl (fun _ => ?_)
    have htq : tq (if isTimeRef r then setI .tru REF_PHASE.PHASE r p.toNat (setTru { s.tru with phase := signedOf 32 p.toNat } s) else s) = TQ.ACQUIRING := by
      have h : ∀ i : Fin 15, fieldsSplit REF_PHASE.PHASE TRU_STATUS.STATE i.val 0 = true := by decide
      split
      · exact Eq.trans (((setTru_field .tru TRU_STATUS.STATE 0 _ s).setI .tru REF_PHASE.PHASE r _ (by decide) (.inr (h ⟨r, selectedRef_lt hr⟩)))) hq
      · exact hq
    exact ⟨(setTruState_state _ _ (by decide) _).1, (setTruState_state _ _ (by decide) _).2 (by rw [htq]; decide)⟩
  · refine Yields.guard (c := (tq s = TQ.HOLDOVER ∨ tq s = TQ.FREERUN) ∧ isSet s .tru TRU_STATUS.ALIGNED ∧ !switching s ∧ getF s .tru TRU_CFG.TE_BUDGET * 100 < teNow s th.toNat) rfl ?_ (fun hc => ?_)
    · simp
    · have htq : tq (showTe th.toNat s) = tq s := (showTe_field (g := TRU_STATUS.STATE) (j := 0) (by decide) _ _).getF
      exact ⟨(setTruState_state _ _ (by decide) _).1, (setTruState_state _ _ (by decide) _).2 (by rw [htq]; rcases hc.1 with e | e <;> rw [e] <;> decide)⟩
  · obtain ⟨ho, hp, hd⟩ := truRegisters_fields 0x100 (.head _)
    obtain ⟨hf, _, _, hregs⟩ := writeFields_effect (p := .tru) ho hp hd v s
    have hmode : getF (writeFields .tru 0x100 v s) .tru TRU_CFG.MODE = getBits v TRU_CFG.MODE.hi TRU_CFG.MODE.lo := (hf TRU_CFG.MODE (by decide)).trans (if_pos rfl)
    have hsw : switching (writeFields .tru 0x100 v s) = switching s := FieldKept.isSet (q := .tru) (g := TRU_STATUS.SWITCHING) (getI_congr (hregs _ (by decide)))
    refine Yields.intro rfl ?_
    generalize writeFields .tru 0x100 v s = s1 at hmode hsw
    split
    next hsame =>
      simp only [Bool.and_eq_true, decide_eq_true_eq] at hsame
      exact ⟨hmode, fun _ hne => absurd hsame.1 hne⟩
    · have hkept : getF (applyMode h s1) .tru TRU_CFG.MODE = getF s1 .tru TRU_CFG.MODE := (applyMode_field (by decide) h s1).getF
      rw [hkept]
      exact ⟨hmode, fun h0 _ => applyMode_effect (hsw.trans h0) h⟩
  · exact Yields.intro rfl (refCfg_effect r.isLt v h s)

end Sys2Proof.Machine
end

section
/-!
PROOFS. Sensor channels (R391–R396, R398), and the bulk store (R371, R420–R428).
-/
namespace Sys2Proof.Machine

/-! Channels. -/

theorem chan_setChan_self (n : Nat) (x : ChanSt) (s : State) : chan (setChan n x s) n = x := Map.get_set_self _ _ _

theorem chan_congr {s t : State} (h : t.sen = s.sen) (n : Nat) : chan t n = chan s n := by
  unfold chan
  rw [h]

/-- The registers of one channel, below the parts of its own that a result writes. -/
theorem chanFields {n : Nat} (hn : n < 8) : decide (SEN_STAT.STALE.offAt n % 0x1000 ≠ offIntStat) = true ∧ decide (SEN_STAT.SEQ.offAt n % 0x1000 ≠ offIntStat) = true ∧
    (∀ f ∈ [SEN_TEMP.TEMP, SEN_RATIO.RATIO, SEN_LEAD.LEAD], fieldsSplit f SEN_STAT.STALE n n = true ∧ fieldsSplit f SEN_STAT.SEQ n n = true) ∧
    (∀ f ∈ [SEN_STAT.VALID, SEN_STAT.FLAGS, SEN_STAT.STALE], fieldsSplit f SEN_STAT.SEQ n n = true) ∧ (∀ f ∈ [SEN_STAT.VALID, SEN_STAT.SEQ], fieldsSplit f SEN_STAT.STALE n n = true) := by
  have h : ∀ i : Fin 8, decide (SEN_STAT.STALE.offAt i.val % 0x1000 ≠ offIntStat) = true ∧ decide (SEN_STAT.SEQ.offAt i.val % 0x1000 ≠ offIntStat) = true ∧
      (∀ f ∈ [SEN_TEMP.TEMP, SEN_RATIO.RATIO, SEN_LEAD.LEAD], fieldsSplit f SEN_STAT.STALE i.val i.val = true ∧ fieldsSplit f SEN_STAT.SEQ i.val i.val = true) ∧
      (∀ f ∈ [SEN_STAT.VALID, SEN_STAT.FLAGS, SEN_STAT.STALE], fieldsSplit f SEN_STAT.SEQ i.val i.val = true) ∧
      (∀ f ∈ [SEN_STAT.VALID, SEN_STAT.SEQ], fieldsSplit f SEN_STAT.STALE i.val i.val = true) := by decide
  exact h ⟨n, hn⟩

/-- The status of a sensor channel after a result: not stale, with the next number. -/
theorem senStat_effect {n : Nat} (hn : n < 8) (valid : Bool) (flags : Nat) (s : State) :
    getI (senStat n valid flags s) .sen SEN_STAT.STALE n = 0 ∧ getI (senStat n valid flags s) .sen SEN_STAT.SEQ n = (getI s .sen SEN_STAT.SEQ n + 1) % 2 ^ 16 := by
  obtain ⟨hi, hj, _, hseq, hst⟩ := chanFields hn
  unfold senStat
  extract_lets old rises s1 s2
  have h1 : getI s1 .sen SEN_STAT.STALE n = 0 := by
    unfold s1
    rw [getI_setI_split _ _ _ (by decide) (hst _ (.tail _ (.head _))), getI_setI_split _ _ _ (by decide) (hst _ (.head _))]
    exact getI_setI_self _ _ _ _ _ (by decide)
  have h2 : getI s1 .sen SEN_STAT.SEQ n = (getI s .sen SEN_STAT.SEQ n + 1) % 2 ^ 16 := getI_setI_self _ _ _ _ _ (by decide)
  rw [if_neg (by unfold isSi; simp; omega)]
  have h12 : ∀ g : Field, decide (g.offAt n % 0x1000 ≠ offIntStat) = true → FieldKept .sen g n s1 s2 := fun g hg => by
    unfold s2
    split
    · exact (FieldKept.refl s1).raise _ _ hg
    · exact .refl s1
  split
  · exact ⟨Eq.trans ((h12 _ hi).raise _ _ hi) h1, Eq.trans ((h12 _ hj).raise _ _ hj) h2⟩
  · exact ⟨Eq.trans (h12 _ hi) h1, Eq.trans (h12 _ hj) h2⟩

theorem senAlarm_effect (n : Nat) (temp : Int) (s : State) : (∀ g j, decide (g.offAt j % 0x1000 ≠ offIntStat) = true → FieldKept .sen g j s (senAlarm n temp s)) ∧
    (chan (senAlarm n temp s) n).outs = (chan s n).outs ∧ (chan (senAlarm n temp s) n).discard = (chan s n).discard := by
  unfold senAlarm
  extract_lets x hi lo h l above below s1
  have h1 : ∀ g j, decide (g.offAt j % 0x1000 ≠ offIntStat) = true → FieldKept .sen g j s s1 := fun g j hg => by
    unfold s1
    split
    · exact (FieldKept.refl s).raise _ _ hg
    · exact .refl s
  exact ⟨fun g j hg => (h1 g j hg).regs rfl, by rw [chan_setChan_self], by rw [chan_setChan_self]⟩

theorem showTemp_effect {n : Nat} (hn : n < 8) (v : Option Int) (s : State) : FieldKept .sen SEN_STAT.STALE n s (showTemp n v s) ∧
    FieldKept .sen SEN_STAT.SEQ n s (showTemp n v s) := by
  obtain ⟨hi, hj, htemp, _⟩ := chanFields hn
  obtain ⟨ht1, ht2⟩ := htemp _ (.head _)
  unfold showTemp
  split
  · exact ⟨((FieldKept.refl s).setI _ _ _ _ (by decide) (.inr ht1)).trans ((senAlarm_effect _ _ _).1 _ _ hi),
      ((FieldKept.refl s).setI _ _ _ _ (by decide) (.inr ht2)).trans ((senAlarm_effect _ _ _).1 _ _ hj)⟩
  · have hw : ∀ g j, FieldKept .sen g j s (Machine.freeWord s).2 := fun g j => .upd rfl
    exact ⟨((hw _ _).setI _ _ _ _ (by decide) (.inr ht1)).trans ((senAlarm_effect _ _ _).1 _ _ hi),
      ((hw _ _).setI _ _ _ _ (by decide) (.inr ht2)).trans ((senAlarm_effect _ _ _).1 _ _ hj)⟩

theorem showTemp_chan (n : Nat) (v : Option Int) (s : State) : (chan (showTemp n v s) n).outs = (chan s n).outs ∧ (chan (showTemp n v s) n).discard = (chan s n).discard := by
  have h : ∀ (w : Int) (u : State), u.sen = s.sen → (chan (senAlarm n w u) n).outs = (chan s n).outs ∧ (chan (senAlarm n w u) n).discard = (chan s n).discard := fun w u hu => by
    rw [← chan_congr hu]
    exact (senAlarm_effect n w u).2
  unfold showTemp
  split
  · exact h _ _ (sen_setI _ _ _ _ _)
  · exact h _ _ (sen_setI _ _ _ _ _)

theorem sxResult_effect (n : Nat) (a b : Int) (s : State) :
    ((chan (sxResult n a b s) n).outs = (chan s n).outs ∧ (chan (sxResult n a b s) n).discard = (chan s n).discard) ∧
    (n < 8 → getI (sxResult n a b s) .sen SEN_STAT.STALE n = 0 ∧ getI (sxResult n a b s) .sen SEN_STAT.SEQ n = (getI s .sen SEN_STAT.SEQ n + 1) % 2 ^ 16) := by
  have key : ∀ (v w : Nat) (valid : Bool) (flags : Nat) (r : Option Nat) (x : Option Int) (t : State),
      t = (if valid then showTemp n x (setChan n { chan s n with lastRt := r } (senStat n valid flags (setI .sen SEN_LEAD.LEAD n v (setI .sen SEN_RATIO.RATIO n w s))))
        else senStat n valid flags (setI .sen SEN_LEAD.LEAD n v (setI .sen SEN_RATIO.RATIO n w s))) →
      ((chan t n).outs = (chan s n).outs ∧ (chan t n).discard = (chan s n).discard) ∧
      (n < 8 → getI t .sen SEN_STAT.STALE n = 0 ∧ getI t .sen SEN_STAT.SEQ n = (getI s .sen SEN_STAT.SEQ n + 1) % 2 ^ 16) := by
    intro v w valid flags r x t ht
    generalize hu : senStat n valid flags (setI .sen SEN_LEAD.LEAD n v (setI .sen SEN_RATIO.RATIO n w s)) = u at ht
    have hsen : u.sen = s.sen := by
      rw [← hu, (senStat_within (m := 0x20000020000040) .refl _ _ _ rfl).same .sen rfl, sen_setI, sen_setI]
    have hstat : n < 8 → getI u .sen SEN_STAT.STALE n = 0 ∧ getI u .sen SEN_STAT.SEQ n = (getI s .sen SEN_STAT.SEQ n + 1) % 2 ^ 16 := fun hn => by
      obtain ⟨_, _, htemp, _⟩ := chanFields hn
      obtain ⟨h1, h2⟩ := senStat_effect hn valid flags (setI .sen SEN_LEAD.LEAD n v (setI .sen SEN_RATIO.RATIO n w s))
      rw [hu] at h1 h2
      rw [getI_setI_split _ _ _ (by decide) (htemp _ (.tail _ (.tail _ (.head _)))).2, getI_setI_split _ _ _ (by decide) (htemp _ (.tail _ (.head _))).2] at h2
      exact ⟨h1, h2⟩
    subst ht
    split
    · have hc := showTemp_chan n x (setChan n { chan s n with lastRt := r } u)
      rw [chan_setChan_self] at hc
      refine ⟨hc, fun hn => ?_⟩
      obtain ⟨h1, h2⟩ := showTemp_effect hn x (setChan n { chan s n with lastRt := r } u)
      exact ⟨Eq.trans h1 (hstat hn).1, Eq.trans h2 (hstat hn).2⟩
    · rw [chan_congr hsen]
      exact ⟨⟨rfl, rfl⟩, hstat⟩
  unfold sxResult
  extract_lets
  exact key _ _ _ _ _ _ _ rfl

/-- The end of a phase empties the channel, and a cycle of one phase gives a result. -/
theorem endPhase_effect (n : Nat) (o : SensorOut) (s : State) : (chan (endPhase n o s) n).outs = [] ∧ (chan (endPhase n o s) n).discard = 0 ∧
    ((chan s n).twoPhase = false → n < 8 → getI (endPhase n o s) .sen SEN_STAT.STALE n = 0 ∧
      getI (endPhase n o s) .sen SEN_STAT.SEQ n = (getI s .sen SEN_STAT.SEQ n + 1) % 2 ^ 16) := by
  unfold endPhase
  extract_lets x m y s1 a s2
  split
  next h2 =>
    refine ⟨by rw [chan_setChan_self], by rw [chan_setChan_self], fun h => ?_⟩
    rw [show x.twoPhase = false from h] at h2
    cases h2
  next =>
    have h1 : (chan s1 n).outs = [] ∧ (chan s1 n).discard = 0 := by
      unfold s1
      rw [chan_setChan_self]
      exact ⟨rfl, rfl⟩
    have h2 : ((chan s2 n).outs = [] ∧ (chan s2 n).discard = 0) ∧ (n < 8 → getI s2 .sen SEN_STAT.STALE n = 0 ∧
        getI s2 .sen SEN_STAT.SEQ n = (getI s .sen SEN_STAT.SEQ n + 1) % 2 ^ 16) := by
      unfold s2
      split
      next hsi =>
        refine ⟨?_, fun hn => absurd (of_decide_eq_true hsi) (Nat.not_le.2 hn)⟩
        rw [chan_congr ((siResult_within (m := 0x20000020000040) .refl _ _ _ _ rfl).same .sen rfl)]
        exact h1
      · obtain ⟨⟨h3, h4⟩, h5⟩ := sxResult_effect n a m s1
        exact ⟨⟨h3.trans h1.1, h4.trans h1.2⟩, h5⟩
    refine ⟨by rw [chan_setChan_self]; exact h2.1.1, by rw [chan_setChan_self]; exact h2.1.2, fun _ hn => h2.2 hn⟩

theorem outputBoundary_effect (n : Nat) (o : SensorOut) (s : State) :
    let t := outputBoundary n o s
    if (chan s n).calibrating then t = s
    else if (chan s n).restart then (chan t n).cfg = senCfg s n ∧ (chan t n).restart = false ∧ (chan t n).outs = [] ∧ (chan t n).discard = 0 ∧ RegsBut [] s t
    else if (chan s n).get SEN_CFG.EN = 0 then t = s
    else if (chan s n).discard < 3 then chan t n = { chan s n with discard := (chan s n).discard + 1 } ∧ RegsBut [] s t
    else if (chan s n).outs.length + 1 < (chan s n).get SEN_CFG.N_AVG then (chan t n).outs = (chan s n).outs ++ [signedOf 32 o.rho.toNat] ∧ RegsBut [] s t
    else (chan t n).outs = [] ∧ (chan t n).discard = 0 ∧ ((chan s n).twoPhase = false → n < 8 →
      getI t .sen SEN_STAT.STALE n = 0 ∧ getI t .sen SEN_STAT.SEQ n = (getI s .sen SEN_STAT.SEQ n + 1) % 2 ^ 16) := by
  have hregs : ∀ x, RegsBut [] s (setChan n x s) := fun x => (RegsBut.refl _ s).upd rfl
  intro t
  have e : t = outputBoundary n o s := rfl
  clear_value t
  unfold outputBoundary at e
  extract_lets x y s1 at e
  by_cases hcal : (chan s n).calibrating = true
  · rw [if_pos hcal] at e ⊢
    exact e
  rw [if_neg hcal] at e ⊢
  by_cases hre : (chan s n).restart = true
  · rw [if_pos hre] at e ⊢
    subst e
    unfold restartCycle
    rw [chan_setChan_self]
    exact ⟨rfl, rfl, rfl, rfl, hregs _⟩
  rw [if_neg hre] at e ⊢
  by_cases hen : (chan s n).get SEN_CFG.EN = 0
  · rw [if_pos hen] at e ⊢
    exact e
  rw [if_neg hen] at e ⊢
  by_cases hdis : (chan s n).discard < 3
  · rw [if_pos hdis] at e ⊢
    subst e
    exact ⟨chan_setChan_self _ _ _, hregs _⟩
  rw [if_neg hdis] at e ⊢
  have hlen : y.outs.length = (chan s n).outs.length + 1 := List.length_append
  by_cases havg : (chan s n).outs.length + 1 < (chan s n).get SEN_CFG.N_AVG
  · rw [if_neg (by rw [hlen]; exact Nat.not_le.2 havg)] at e
    rw [if_pos havg]
    subst e
    exact ⟨congrArg ChanSt.outs (chan_setChan_self _ _ _), hregs _⟩
  · rw [if_pos (by rw [hlen]; exact Nat.not_lt.1 havg)] at e
    rw [if_neg havg]
    subst e
    have h1 : chan s1 n = y := chan_setChan_self _ _ _
    obtain ⟨h2, h3, h4⟩ := endPhase_effect n o s1
    rw [h1] at h4
    exact ⟨h2, h3, h4⟩

theorem setFault_field (p q : Page) (v : Nat) {g : Field} {j : Nat} (h : fieldsSplit faultField g 0 j = true) (s : State) : FieldKept q g j s (setFault p v s) :=
  (FieldKept.refl s).setI p faultField 0 v (by decide) (.inr h)

/-- The fault register of the front end follows a channel's state, and nothing is taken back. -/
theorem refreshSi_effect (n : Nat) (s : State) : (∀ g j, decide (g.offAt j % 0x1000 ≠ offIntStat) = true → fieldsSplit SEN_STATUS.SI_FAULT g 0 j = true →
      fieldsSplit faultField g 0 j = true → FieldKept .sen g j s (refreshSi n s)) ∧ (∀ k, intOf s .sen k = true → intOf (refreshSi n s) .sen k = true) := by
  unfold refreshSi
  split
  · exact ⟨fun g j _ _ _ => .refl s, fun k hk => hk⟩
  · extract_lets old k now v s1
    have h1 : ∀ g j, fieldsSplit SEN_STATUS.SI_FAULT g 0 j = true → fieldsSplit faultField g 0 j = true → FieldKept .sen g j s s1 := fun g j hs ho =>
      ((FieldKept.refl s).setF _ _ _ (by decide) (.inr hs)).trans (setFault_field _ _ _ ho _)
    have hc : CmdKept .sen s s1 := (CmdKept.setF _ _ _ (by decide)).trans (cmd_setFault _ _ _ _)
    split
    · exact ⟨fun g j hi hs ho => (h1 g j hs ho).raise _ _ hi, fun k hk => intOf_raise_mono _ _ _ _ _ (hc.int k hk)⟩
    · exact ⟨fun g j _ hs ho => h1 g j hs ho, fun k hk => hc.int k hk⟩

/-! The store (R420–R428). -/

theorem setSnf_effect (l : List SnfRec) (s : State) : (setSnf l s).sto.snf = l ∧ isSet (setSnf l s) .sto STO_STATUS.SNF_REPLAY = !l.isEmpty ∧
    (setSnf l s).link = s.link ∧ Within 0x400000000400 s (setSnf l s) := by
  refine ⟨?_, ?_, ?_, setSnf_within .refl l rfl⟩
  · unfold setSnf
    rw [sto_setB]
  · unfold setSnf
    exact isSet_setB_self _ _ _ _ (by decide)
  · exact (setSnf_within (m := 0x400000000400) .refl l rfl).same .link rfl

theorem count_min (p : Page) (f : Field) (hf : f.sound = true) (hw : f.width = 32) (s : State) : getF (count p f s) p f = min (getF s p f + 1) 0xFFFFFFFF := by
  rw [getF_count _ _ _ hf, hw]
  rfl

/-- A record that finds no place is counted. -/
theorem loseRecord_effect (s : State) : (loseRecord s).sto.snf = s.sto.snf ∧ (loseRecord s).link = s.link ∧ intOf (loseRecord s) .sto STO_INT.SNF_FULL = true ∧
    getF (loseRecord s) .sto STO_SNF_LOST_CNT.COUNT = min (getF s .sto STO_SNF_LOST_CNT.COUNT + 1) 0xFFFFFFFF := by
  unfold loseRecord
  refine ⟨by rw [sto_raise, sto_count], by rw [link_raise, link_count], intOf_raise _ _ _ (by decide), ?_⟩
  rw [((FieldKept.refl (q := .sto) (g := STO_SNF_LOST_CNT.COUNT) (j := 0) _).raise _ _ (by decide)).getF, count_min _ _ (by decide) (by decide)]
  have h : ∀ x : StoSt, FieldKept .sto STO_SNF_LOST_CNT.COUNT 0 s { s with sto := x } := fun x => .upd rfl
  rw [(h _).getF]

/-- Room there is, nothing is dropped to make it. -/
theorem makeRoom_fits {n : Nat} {s : State} (h : snfUsed s.sto.snf + n ≤ snfSize) (fuel : Nat) : makeRoom n fuel s = s := by
  cases fuel with
  | zero => rfl
  | succ k => exact if_pos (.inl h)

theorem setLink_regs (x : LinkSt) (s : State) : (setLink x s).regs = s.regs := rfl

/-- A record stored (R371): kept where it has room, else lost. -/
theorem snfWrite_effect {s : State} {r : SnfRec} (h : s.link.toStore.head? = some r) :
    (snfWrite s).link.toStore = s.link.toStore.tail ∧
    (isSet s .sto STO_STATUS.READ_ONLY = true → (snfWrite s).sto.snf = s.sto.snf ∧ intOf (snfWrite s) .sto STO_INT.SNF_FULL = true ∧
      getF (snfWrite s) .sto STO_SNF_LOST_CNT.COUNT = min (getF s .sto STO_SNF_LOST_CNT.COUNT + 1) 0xFFFFFFFF) ∧
    (isSet s .sto STO_STATUS.READ_ONLY = false → snfUsed s.sto.snf + r.size ≤ snfSize → (snfWrite s).sto.snf = s.sto.snf ++ [r] ∧
      isSet (snfWrite s) .sto STO_STATUS.SNF_REPLAY = true ∧ getF (snfWrite s) .pci PCI_STORED_CNT.COUNT = min (getF s .pci PCI_STORED_CNT.COUNT + 1) 0xFFFFFFFF) := by
  unfold snfWrite
  split
  next e =>
    rw [e] at h
    cases h
  next r' rest e =>
    rw [e] at h
    cases h
    extract_lets src s1 s2
    have hsto1 : s1.sto = s.sto := sto_setLink _ _
    have hlink1 : s1.link.toStore = rest := rfl
    have hcnt : FieldKept .sto STO_SNF_LOST_CNT.COUNT 0 s s1 := .upd (setLink_regs _ _)
    have hpci : FieldKept .pci PCI_STORED_CNT.COUNT 0 s s1 := .upd (setLink_regs _ _)
    have hlink2 : s2.link = s1.link := by
      unfold s2
      split
      · exact (makeRoom_within (m := 0x20400020000400) .refl _ _ rfl).same .link rfl
      · rfl
    rw [e]
    cases hro : isSet s .sto STO_STATUS.READ_ONLY
    · rw [if_neg (by decide)]
      refine ⟨?_, fun h => absurd h (by decide), fun _ hfit => ?_⟩
      · split
        · rw [link_count, (setSnf_effect _ _).2.2.1, hlink2, hlink1]
          rfl
        · rw [(loseRecord_effect _).2.1, hlink2, hlink1]
          rfl
      · have h2 : s2 = s1 := by
          unfold s2
          split
          · exact makeRoom_fits (by rw [hsto1]; exact hfit) _
          · rfl
        rw [h2, hsto1, if_pos hfit]
        obtain ⟨hs1, hs2, _, hs4⟩ := setSnf_effect (s.sto.snf ++ [r]) s1
        refine ⟨by rw [sto_count, hs1], ?_, ?_⟩
        · rw [((FieldKept.refl (q := .sto) (g := STO_STATUS.SNF_REPLAY) (j := 0) _).count .pci _ (by decide) (.inl (by decide))).isSet, hs2]
          simp
        · rw [count_min _ _ (by decide) (by decide), hs4.getF_addr .pci _ rfl, hpci.getF]
    · rw [if_pos rfl]
      obtain ⟨h1, h2, h3, h4⟩ := loseRecord_effect s1
      exact ⟨by rw [h2, hlink1]; rfl, fun _ => ⟨by rw [h1, hsto1], h3, by rw [h4, hcnt.getF]⟩, fun h => absurd h (by decide)⟩

/-! What goes to the host's rings. -/

/-- A completion leaves every register but the ring's producer index. -/
theorem ringComplete_field {q : Page} {g : Field} {j r : Nat} (h : kindsDiffer q .pci = true ∨ fieldsSplit PCI_RING.CQ_PROD g r j = true) (e : CqEntry) (s : State) :
    FieldKept q g j s (ringComplete r e s) := by
  unfold ringComplete
  split
  · unfold writeCq
    extract_lets n size s1 p src s2
    have h1 : FieldKept q g j s s2 := (FieldKept.setI (.upd rfl) _ _ _ _ (by decide) h).regs rfl
    split
    · exact h1.regs (sendVector_regs _ _)
    · exact h1
  · exact .upd rfl

/-- The registers of PCI below the rings lie apart from those of a ring. -/
theorem ringSplit_low {f g : Field} (hs : f.stride = 0x20) (hf : 0x400 ≤ f.off ∧ f.off < 0x420) (hg : g.off < 0x400) {r : Nat} (hr : r < 64) :
    fieldsSplit f g r 0 = true := by
  unfold fieldsSplit
  have e : f.offAt r = f.off + r * 0x20 := by rw [Field.offAt, hs]
  rw [e, Field.offAt_zero, Bool.or_eq_true, Bool.or_eq_true, decide_eq_true_eq]
  omega

theorem ulRing_lt (s : State) (i : Nat) : ulRing s i < 16 := by
  have h : getF s .pci PCI_UL_CFG.RINGS < 16 := getBits_lt _ 3 0
  have h2 : i % max 1 (getF s .pci PCI_UL_CFG.RINGS) < max 1 (getF s .pci PCI_UL_CFG.RINGS) := Nat.mod_lt _ (by omega)
  unfold ulRing
  omega

/-- A frame delivered is counted. -/
theorem ulComplete_counted {r : Nat} (hr : r < 16) (kind cookie : Nat) (f : UlFrame) (s : State) :
    getF (ulComplete r kind cookie f s) .pci PCI_UL_DONE_CNT.COUNT = min (getF s .pci PCI_UL_DONE_CNT.COUNT + 1) 0xFFFFFFFF := by
  unfold ulComplete takeEntry
  rw [count_min _ _ (by decide) (by decide), (ringComplete_field (.inr (ringSplit_low rfl (by decide) (by decide) (by omega))) _ _).getF,
    ((FieldKept.refl s).setI .pci PCI_RING.SQ_CONS (16 + r) _ (by decide) (.inr (ringSplit_low rfl (by decide) (by decide) (by omega)))).getF]

/-- A stored record with a path leaves (R371). -/
theorem snfReplay_effect {s : State} {r : SnfRec} (h : s.sto.snf.find? (hasPath s) = some r) (cookie : Nat) :
    (snfReplay cookie s).sto.snf = s.sto.snf.erase r ∧ (r.toParent = false → toLanes s = false →
      getF (snfReplay cookie s) .pci PCI_UL_DONE_CNT.COUNT = min (getF s .pci PCI_UL_DONE_CNT.COUNT + 1) 0xFFFFFFFF) := by
  have hev : ∀ u : State, (hostEvent 0x0005 0 0 0 [] u).sto = u.sto ∧ getF (hostEvent 0x0005 0 0 0 [] u) .pci PCI_UL_DONE_CNT.COUNT = getF u .pci PCI_UL_DONE_CNT.COUNT := fun u =>
    ⟨(hostEvent_within (m := 0x20200000001000) .refl _ _ _ _ _ rfl).same .sto rfl, (hostEvent_within (m := 0x20200000001000) .refl _ _ _ _ _ rfl).getF_addr .pci _ rfl⟩
  unfold snfReplay
  split
  next e => cases h.symm.trans e
  next r' e =>
  cases h.symm.trans e
  extract_lets src s1
  obtain ⟨z, hz⟩ : ∃ z, setSnf (s.sto.snf.erase r) { s with sto := { s.sto with replaying := true } } = z := ⟨_, rfl⟩
  have hs1 : s1 = sendStored cookie r z := by
    rw [← hz]
  clear_value s1
  subst hs1
  have hsnf : z.sto.snf = s.sto.snf.erase r := by rw [← hz]; exact (setSnf_effect _ _).1
  have hpci : ∀ g : Field, FieldKept .pci g 0 s z := fun g => by
    rw [← hz]
    have h0 : FieldKept .pci g 0 s { s with sto := { s.sto with replaying := true } } := .upd rfl
    exact h0.trans (.within (q := .pci) (setSnf_effect _ _).2.2.2 (show Nat.testBit _ 11 = false from rfl))
  have h1 : (sendStored cookie r z).sto.snf = s.sto.snf.erase r := by
    rw [(sendStored_within (m := 0x20a80030043a00) .refl _ _ rfl).same .sto rfl]
    exact hsnf
  have h2 : r.toParent = false → toLanes s = false → getF (sendStored cookie r z) .pci PCI_UL_DONE_CNT.COUNT = min (getF s .pci PCI_UL_DONE_CNT.COUNT + 1) 0xFFFFFFFF := fun hp hl => by
    have hl2 : toLanes z = false := (hpci PCI_TUNNEL.DEST).isSet.trans hl
    unfold sendStored
    rw [hp, hl2, if_neg (by decide), if_neg (by decide), ulComplete_counted (ulRing_lt _ _), (hpci _).getF]
  split
  · exact ⟨h1, h2⟩
  · rw [(hev _).1, (hev _).2]
    exact ⟨h1, h2⟩

/-- A command for blocks is checked against its operands and READ_ONLY. -/
theorem code_of_ite {p : Prop} [Decidable p] {k c : Nat} {r : Option Nat} (hk : k < 256) (hr : r = some c → c < 256) (h : (if p then some k else r) = some c) : c < 256 := by
  split at h
  · cases h
    exact hk
  · exact hr h

theorem checkBlocks_code {o : Outstanding} {s : State} {c : Nat} (h : checkBlocks o s = some c) : c < 256 :=
  code_of_ite (by decide) (code_of_ite (by decide) (code_of_ite (by decide) (code_of_ite (by decide) fun k => (by cases k)))) h

theorem blocks_effect {op : Nat} {src : CmdSrc} {s u : State} (hu : JustIssued .sto (latch .sto op src s) s u) :
    (runBlocks (latch .sto op src s) u).sto = s.sto ∧
    (∀ c, checkBlocks (latch .sto op src s) s = some c → Completed (runBlocks (latch .sto op src s) u) .sto c) ∧
    (checkBlocks (latch .sto op src s) s = none → Issued (runBlocks (latch .sto op src s) u) .sto (latch .sto op src s)) := by
  have hsto : u.sto = s.sto := hu.within.same .sto rfl
  generalize ho : latch .sto op src s = o at hu
  have hro : isSet u .sto STO_STATUS.READ_ONLY = isSet s .sto STO_STATUS.READ_ONLY := (hu.field (q := .sto) (by decide) (by decide)).isSet
  have hchk : checkBlocks o u = checkBlocks o s := by
    unfold checkBlocks
    rw [hro]
  have hlt : ∀ c, checkBlocks o s = some c → c < 256 := fun c => checkBlocks_code
  unfold runBlocks
  rw [hchk]
  cases hc : checkBlocks o s with
  | none => exact ⟨hsto, fun c h => (by cases h), fun _ => hu.issued⟩
  | some c => exact ⟨(sto_complete _ _ _ _).trans hsto, fun c' h => by cases h; exact hu.done (hlt c hc) 0, fun h => (by cases h)⟩

/-- A write of blocks that the store ends leaves what the store shows, and completes. -/
theorem stopWrite_effect {s : State} {o : Outstanding} (ho : outstanding s .sto = some o) (hop : o.opcode = 2) (n : Nat) :
    (∀ g : Field, (decide (0x100 ≤ g.offAt 0) && decide (g.offAt 0 < 0x1000) || decide (g.offAt 0 = offStatus) && decide (g.hi < 30) && decide (g.lo ≤ g.hi)) = true →
      FieldKept .sto g 0 s (stopBlocks n 0x82 s)) ∧
    (∀ k, intOf s .sto k = true → intOf (stopBlocks n 0x82 s) .sto k = true) ∧ Completed (stopBlocks n 0x82 s) .sto 0x82 := by
  have e : stopBlocks n 0x82 s = complete .sto 0x82 0 (programIn o (min n o.a1.toNat) s) := by
    unfold stopBlocks done
    rw [ho]
    dsimp only
    rw [if_pos hop]
  have hw : Within 0x20400022000000 s (programIn o (min n o.a1.toNat) s) := programIn_within .refl _ _ rfl
  have hcmd : CmdKept .sto s (programIn o (min n o.a1.toNat) s) := .within hw rfl rfl
  rw [e]
  generalize programIn o (min n o.a1.toNat) s = z at hw hcmd
  exact ⟨fun g hg => (FieldKept.within (q := .sto) hw rfl).trans (FieldKept.complete _ _ (by decide) _ _ hg), fun k hk => intOf_complete (by decide) _ _ (hcmd.int _ hk),
    complete_completed (hcmd.out.trans ho) (.inl (by decide)) (by decide) 0⟩

/-- What the store reports of its wear (R424). -/
theorem storeWorn_effect (ro : Bool) (w p : BitVec 16) (n : Nat) (s : State) :
    let t := storeWorn ro w.toNat p.toNat n s
    getF t .sto STO_WEAR.WEAR = w.toNat ∧ getF t .sto STO_WEAR.SPARE = p.toNat ∧ isSet t .sto STO_STATUS.READ_ONLY = (isSet s .sto STO_STATUS.READ_ONLY || ro) ∧
    (ro = true → isSet s .sto STO_STATUS.READ_ONLY = false → intOf t .sto STO_INT.READ_ONLY = true ∧
      ∀ o, outstanding s .sto = some o → o.opcode = 2 → Completed t .sto 0x82) := by
  intro t
  have e : t = storeWorn ro w.toNat p.toNat n s := rfl
  clear_value t
  unfold storeWorn at e
  extract_lets s1 s2 s3 at e
  have hw1 : getF s1 .sto STO_WEAR.WEAR = w.toNat := (getF_setF_self _ _ _ _ (by decide)).trans (Nat.mod_eq_of_lt w.isLt)
  have hp1 : getF s1 .sto STO_WEAR.SPARE = p.toNat :=
    ((FieldKept.refl _).setF _ _ _ (by decide) (.inr (by decide))).getF.trans ((getF_setF_self _ _ _ _ (by decide)).trans (Nat.mod_eq_of_lt p.isLt))
  have hr1 : FieldKept .sto STO_STATUS.READ_ONLY 0 s s1 := ((FieldKept.refl s).setF _ _ _ (by decide) (.inr (by decide))).setF _ _ _ (by decide) (.inr (by decide))
  have hc1 : CmdKept .sto s s1 := (CmdKept.setF _ _ _ (by decide)).trans (.setF _ _ _ (by decide))
  have h2 : CmdKept .sto s1 s2 ∧ ∀ g : Field, decide (g.offAt 0 % 0x1000 ≠ offIntStat) = true → FieldKept .sto g 0 s1 s2 := by
    unfold s2
    split
    · exact ⟨.raise _ _ _ _, fun g hg => (FieldKept.refl s1).raise _ _ hg⟩
    · exact ⟨.refl _ _, fun g _ => .refl s1⟩
  have h3 : ∀ g : Field, fieldsSplit STO_STATUS.READ_ONLY g 0 0 = true → decide (g.offAt 0 % 0x1000 ≠ offIntStat) = true → FieldKept .sto g 0 s2 s3 := fun g hs hg =>
    ((FieldKept.refl s2).setB _ _ _ (by decide) (.inr hs)).raise _ _ hg
  have hr3 : isSet s3 .sto STO_STATUS.READ_ONLY = true :=
    ((FieldKept.refl (q := .sto) (g := STO_STATUS.READ_ONLY) (j := 0) _).raise _ _ (by decide)).isSet.trans (isSet_setB_self _ _ _ _ (by decide))
  have hi3 : intOf s3 .sto STO_INT.READ_ONLY = true := intOf_raise _ _ _ (by decide)
  have hc3 : CmdKept .sto s s3 := (hc1.trans h2.1).trans ((CmdKept.setB _ _ _ (by decide)).trans (.raise _ _ _ _))
  split at e
  next hro =>
    subst e
    refine ⟨(h2.2 _ (by decide)).getF.trans hw1, (h2.2 _ (by decide)).getF.trans hp1, ?_, fun h h0 => ?_⟩
    · rw [(hr1.trans (h2.2 _ (by decide))).isSet]
      cases ro <;> cases hs : isSet s .sto STO_STATUS.READ_ONLY <;> simp_all
    · rw [h, h0] at hro
      cases hro
  next hro =>
    have hor : (isSet s .sto STO_STATUS.READ_ONLY || ro) = true := by
      cases ro
      · exact absurd rfl hro
      · rw [Bool.or_true]
    have hwear : getF s3 .sto STO_WEAR.WEAR = w.toNat ∧ getF s3 .sto STO_WEAR.SPARE = p.toNat :=
      ⟨((h2.2 _ (by decide)).trans (h3 _ (by decide) (by decide))).getF.trans hw1, ((h2.2 _ (by decide)).trans (h3 _ (by decide) (by decide))).getF.trans hp1⟩
    rw [hor]
    clear_value s3
    have hkeep : (∀ o, outstanding s .sto = some o → o.opcode ≠ 2) → t = s3 → getF t .sto STO_WEAR.WEAR = w.toNat ∧ getF t .sto STO_WEAR.SPARE = p.toNat ∧
        isSet t .sto STO_STATUS.READ_ONLY = true ∧ (ro = true → isSet s .sto STO_STATUS.READ_ONLY = false → intOf t .sto STO_INT.READ_ONLY = true ∧
        ∀ o, outstanding s .sto = some o → o.opcode = 2 → Completed t .sto 0x82) := by
      rintro ho rfl
      exact ⟨hwear.1, hwear.2, hr3, fun _ _ => ⟨hi3, fun o h h2 => absurd h2 (ho o h)⟩⟩
    have hout := hc3.out
    split at e
    next o ho =>
      split at e
      next hop =>
        subst e
        obtain ⟨hf, hc⟩ := stopWrite_effect ho hop n
        exact ⟨(hf _ (by decide)).getF.trans hwear.1, (hf _ (by decide)).getF.trans hwear.2, (hf _ (by decide)).isSet.trans hr3,
          fun _ _ => ⟨hc.1 _ hi3, fun _ _ _ => hc.2⟩⟩
      next hop => exact hkeep (fun o' h => by cases (hout.symm.trans ho).symm.trans h; exact hop) e
    next ho => exact hkeep (fun o h => by cases (hout.symm.trans ho).symm.trans h) e

theorem setChan_cmd (p : Page) (n : Nat) (x : ChanSt) (s : State) : CmdKept p s (setChan n x s) := .upd rfl rfl

/-- Settles O58: the channel by the end of its phases, the store by its region's list and counters. -/
theorem sensorsAndStore : Obligations.SensorsAndStore := by
  unfold Obligations.SensorsAndStore
  refine ⟨fun n o s => ?_, fun n s => ?_, fun n s => ?_, fun src s ht => ?_, fun src s ht => ⟨?_, ?_, ?_⟩, fun ro w p n s => ?_, fun s => ?_, fun s h => ?_, fun s r h hs => ?_,
    fun k s h => ?_, fun k s r h => ?_⟩
  · exact Yields.intro rfl (outputBoundary_effect n.val o s)
  · refine Yields.unless (c := getI s .sen SEN_STAT.STALE n.val = 1) rfl Iff.rfl (fun _ => ?_)
    have h : ∀ i : Chan, decide (SEN_STAT.STALE.offAt i.val % 0x1000 ≠ offIntStat) = true ∧ fieldsSplit SEN_STATUS.SI_FAULT SEN_STAT.STALE 0 i.val = true ∧
        fieldsSplit faultField SEN_STAT.STALE 0 i.val = true := by decide
    obtain ⟨h1, h2⟩ := refreshSi_effect n.val (raise .sen SEN_INT.STALE (setI .sen SEN_STAT.STALE n.val 1 s))
    refine ⟨Eq.trans (h1 _ _ (h n).1 (h n).2.1 (h n).2.2) ?_, h2 _ (intOf_raise _ _ _ (by decide))⟩
    exact (getI_raise _ _ _ _ _ _ (h n).1).trans (getI_setI_self _ _ _ _ _ (by decide))
  · refine Yields.intro rfl ⟨?_, rfl, ?_⟩
    · exact (RegsBut.refl _ s).upd rfl
    · exact congrArg ChanSt.latch (chan_setChan_self n.val _ s)
  · refine Yields.issue rfl ht (fun u hu => ?_)
    have hsen : u.sen = s.sen := hu.within.same .sen rfl
    have h : ∀ i : Fin 8, (decide (0x100 ≤ SEN_CFG.EN.offAt i.val) && decide (SEN_CFG.EN.offAt i.val < 0x1000) || decide (SEN_CFG.EN.offAt i.val = offStatus) &&
        decide (SEN_CFG.EN.hi < 30) && decide (SEN_CFG.EN.lo ≤ SEN_CFG.EN.hi)) = true := by decide
    dsimp only
    unfold runSelfCal done
    dsimp only
    split
    · exact ⟨hu.done (by decide) 0, (sen_complete _ _ _ _).trans hsen⟩
    next hn =>
      have hen := hu.field (q := .sen) (f := SEN_CFG.EN) (by decide) (h ⟨_, Nat.lt_succ_of_le (Nat.not_lt.1 hn)⟩)
      rw [show getI u .sen SEN_CFG.EN (latch .sen 1 src s).a0.toNat = _ from hen]
      split
      · exact ⟨hu.done (by decide) 0, (sen_complete _ _ _ _).trans hsen⟩
      · rw [chan_setChan_self, chan_congr hsen]
        exact ⟨(setChan_cmd .sen _ _ _).issued hu.issued, rfl⟩
  · exact Yields.issue rfl ht (fun u hu => blocks_effect hu)
  · exact Yields.issue rfl ht (fun u hu => blocks_effect hu)
  · exact Yields.issue rfl ht (fun u hu => blocks_effect hu)
  · exact Yields.intro rfl (storeWorn_effect ro w p n s)
  · refine Yields.intro rfl ⟨?_, intOf_raise _ _ _ (by decide), ((RegsBut.refl _ s).setB _ (by decide)).raise _ (by decide)⟩
    exact ((FieldKept.refl (q := .sto) (g := STO_STATUS.RESERVE_OK) (j := 0) _).raise _ _ (by decide)).isSet.trans (isSet_setB_self _ _ _ _ (by decide))
  · show Host.Outcome.next (if s.pwr.shutdown then s else snfWrite s) = _
    split
    · rfl
    next hs =>
      unfold snfWrite
      rw [h.resolve_left hs]
  · refine Yields.intro (t := snfWrite s) ?_ (snfWrite_effect h)
    show Host.Outcome.next (if s.pwr.shutdown then s else snfWrite s) = _
    rw [hs, if_neg (by decide)]
  · show Host.Outcome.next (snfReplay k.toNat s) = _
    unfold snfReplay
    rw [h]
  · exact Yields.intro rfl (snfReplay_effect h k.toNat)

end Sys2Proof.Machine
end

section
/-!
PROOFS. Challenges and tickets (R442–R449).
-/
namespace Sys2Proof.Machine

/-! Numbers in bytes. -/

theorem ofLE_lt : ∀ l : List Byte, ofLE l < 256 ^ l.length
  | [] => Nat.one_pos
  | b :: l => by
    have ih := ofLE_lt l
    have hb : b.toNat < 256 := b.isLt
    show b.toNat + 256 * ofLE l < 256 ^ (l.length + 1)
    rw [Nat.pow_succ]
    omega

theorem beAt_lt (l : List Byte) (o n : Nat) : beAt l o n < 256 ^ n := by
  have h := ofLE_lt (slice l o n).reverse
  rw [List.length_reverse] at h
  refine Nat.lt_of_lt_of_le h (Nat.pow_le_pow_right (by decide) ?_)
  exact List.length_take_le _ _

/-- A 64-bit value in a pair of registers. -/
theorem word64 {v : Nat} (h : v < 2 ^ 64) : v / 2 ^ 32 % 2 ^ 32 * 2 ^ 32 + v % 2 ^ 32 = v := by omega

/-! Challenges (R442). -/

theorem setChallenge_mgt (c : Option (Nat × Nat)) (s : State) : (setChallenge c s).mgt = { s.mgt with challenge := c } := by
  unfold setChallenge
  rw [mgt_setF, mgt_setB, mgt_setF, mgt_setF]

theorem setMgt_cmd (p : Page) (x : MgtSt) (s : State) : CmdKept p s { s with mgt := x } := .upd rfl rfl

theorem setMgt_field (q : Page) (g : Field) (j : Nat) (x : MgtSt) (s : State) : FieldKept q g j s { s with mgt := x } := .upd rfl

theorem setChallenge_cmd (c : Option (Nat × Nat)) (s : State) : CmdKept .tkt s (setChallenge c s) := by
  unfold setChallenge
  exact (setMgt_cmd _ _ s).trans ((CmdKept.setF _ _ _ (by decide)).trans ((CmdKept.setF _ _ _ (by decide)).trans ((CmdKept.setB _ _ _ (by decide)).trans (.setF _ _ _ (by decide)))))

/-- A field of the page that shows no challenge. -/
theorem setChallenge_field {g : Field} (h : (fieldsSplit TKT_CHAL_HI.VALUE g 0 0 && fieldsSplit TKT_CHAL_LO.VALUE g 0 0 && fieldsSplit TKT_CHAL_LEFT.LEFT g 0 0 &&
    fieldsSplit TKT_STATUS.CHAL_HELD g 0 0) = true) (c : Option (Nat × Nat)) (s : State) : FieldKept .tkt g 0 s (setChallenge c s) := by
  simp only [Bool.and_eq_true] at h
  obtain ⟨⟨⟨h1, h2⟩, h3⟩, h4⟩ := h
  unfold setChallenge
  refine FieldKept.setF (FieldKept.setB (FieldKept.setF (FieldKept.setF (setMgt_field _ _ _ _ s) _ _ _ (by decide) (.inr h2)) _ _ _ (by decide) (.inr h1)) _ _ _ (by decide) (.inr h4)) _ _ _
    (by decide) (.inr h3)

/-- The challenge as it is shown. -/
theorem setChallenge_shown (c : Option (Nat × Nat)) (s : State) : isSet (setChallenge c s) .tkt TKT_STATUS.CHAL_HELD = c.isSome ∧
    (∀ v a, c = some (v, a) → v < 2 ^ 64 → getF (setChallenge c s) .tkt TKT_CHAL_HI.VALUE * 2 ^ 32 + getF (setChallenge c s) .tkt TKT_CHAL_LO.VALUE = v) ∧
    (∀ v, c = some (v, s.time.rtc) → getF (setChallenge c s) .tkt TKT_CHAL_LEFT.LEFT = 900) := by
  unfold setChallenge
  extract_lets v src s1
  refine ⟨?_, fun w a hc hw => ?_, fun w hc => ?_⟩
  · exact ((FieldKept.refl (q := .tkt) (g := TKT_STATUS.CHAL_HELD) (j := 0) _).setF _ _ _ (by decide) (.inr (by decide))).isSet.trans (isSet_setB_self _ _ _ _ (by decide))
  · have hv : v = w := by
      unfold v
      rw [hc]
      rfl
    have hhi : getF s1 .tkt TKT_CHAL_HI.VALUE = w / 2 ^ 32 % 2 ^ 32 := by
      rw [← hv]
      exact getF_setF_self _ _ _ _ (by decide)
    have hlo : getF s1 .tkt TKT_CHAL_LO.VALUE = w % 2 ^ 32 := by
      rw [← hv]
      exact (getF_setF_split _ _ _ (by decide)).trans (getF_setF_self _ _ _ _ (by decide))
    rw [getF_setF_split _ _ _ (by decide), getF_setB_split _ _ _ (by decide), hhi, getF_setF_split _ _ _ (by decide), getF_setB_split _ _ _ (by decide), hlo]
    exact word64 hw
  · rw [getF_setF_self _ _ _ _ (by decide)]
    have hl : challengeLeft s1 = 900 := by
      have hm : s1.mgt.challenge = c := by
        unfold s1
        rw [mgt_setF, mgt_setF]
      have ht : s1.time = s.time := by
        unfold s1
        rw [time_setF, time_setF]
      unfold challengeLeft
      rw [hm, hc, ht]
      show (challengeCounts - (s.time.rtc + 2 ^ 48 - s.time.rtc) % 2 ^ 48) / 76800 = 900
      rw [Nat.add_sub_cancel_left]
      rfl
    rw [hl]
    rfl

/-! A ticket refused, and a ticket applied (R444–R448). -/

theorem ticketCounter_congr {s t : State} (hhi : FieldKept .tkt TKT_COUNTER_HI.VALUE 0 s t) (hlo : FieldKept .tkt TKT_COUNTER_LO.VALUE 0 s t) : ticketCounter t = ticketCounter s := by
  unfold ticketCounter
  rw [hhi.getF, hlo.getF]

/-- A refusal completes with its code, and leaves the keys, the challenge and the counter. -/
theorem refuseTicket_effect {s : State} {o : Outstanding} (ho : outstanding s .tkt = some o) {code : Nat} (hc : code < 256) (d : Nat) :
    Completed (refuseTicket code d s) .tkt code ∧ (refuseTicket code d s).mgt = s.mgt ∧ ticketCounter (refuseTicket code d s) = ticketCounter s := by
  have hcount : CmdKept .tkt s (count .tkt TKT_REFUSE_CNT.COUNT s) := .count _ _ (by decide)
  have hf : ∀ g : Field, fieldsSplit TKT_REFUSE_CNT.COUNT g 0 0 = true → FieldKept .tkt g 0 s (count .tkt TKT_REFUSE_CNT.COUNT s) := fun g hg => (FieldKept.refl s).count _ _ (by decide) (.inr hg)
  unfold refuseTicket
  extract_lets s1
  have key : ∀ u : State, CmdKept .tkt s u → u.mgt = s.mgt → (∀ g : Field, fieldsSplit TKT_REFUSE_CNT.COUNT g 0 0 = true → decide (g.offAt 0 % 0x1000 ≠ offIntStat) = true → FieldKept .tkt g 0 s u) →
      Completed (complete .tkt code d u) .tkt code ∧ (complete .tkt code d u).mgt = s.mgt ∧ ticketCounter (complete .tkt code d u) = ticketCounter s := fun u h1 h2 h3 =>
    ⟨complete_completed (h1.out.trans ho) (.inl (by decide)) hc d, (mgt_complete _ _ _ _).trans h2,
      ticketCounter_congr ((h3 _ (by decide) (by decide)).trans (FieldKept.complete _ _ (by decide) _ _ (by decide)))
        ((h3 _ (by decide) (by decide)).trans (FieldKept.complete _ _ (by decide) _ _ (by decide)))⟩
  split
  · exact key s1 hcount (mgt_count _ _ _) (fun g hg _ => hf g hg)
  · have hw : Within 0x20000028000020 (raise .tkt TKT_INT.REFUSED s1) (logEvent 0x0686 0 [code, d] (raise .tkt TKT_INT.REFUSED s1)) := logEvent_within .refl _ _ _ rfl
    refine key _ ((hcount.trans (.raise _ _ _ _)).trans (.within hw rfl rfl)) ?_ (fun g hg hi => ((hf g hg).raise _ _ hi).trans (.within (q := .tkt) hw rfl))
    rw [hw.same .mgt rfl, mgt_raise]
    exact mgt_count _ _ _

/-- What a registered item of a ticket may change leaves the command interface of TKT and the challenge. -/
theorem applyItem_effect {i : Item} {s : State} (h : itemOk i s = true) : CmdKept .tkt s (applyItem i s) ∧ (applyItem i s).mgt.challenge = s.mgt.challenge := by
  unfold applyItem
  extract_lets b k set
  split
  next h1 =>
    have hok : regItemOk s b = true := by
      unfold itemOk at h
      rw [h1] at h
      exact h
    unfold regItemOk at hok
    split at hok
    · cases hok
    next p o hp =>
      rw [hp]
      have hne : p ≠ .tkt := by
        rintro rfl
        simp only [Bool.and_eq_true, decide_eq_true_eq] at hok
        exact hok.1.1 rfl
      exact ⟨.setReg _ _ _ (.inl hne), rfl⟩
  · unfold setHolders
    refine ⟨?_, ?_⟩
    · have h0 : ∀ x, CmdKept .tkt s (setKeys x s) := fun x => .upd rfl rfl
      exact (h0 _).trans ((CmdKept.setF _ _ _ (by decide)).trans ((CmdKept.setF _ _ _ (by decide)).trans (.setB _ _ _ (by decide))))
    · rw [mgt_setB, mgt_setF, mgt_setF]
      rfl
  · exact ⟨.upd rfl rfl, rfl⟩
  · exact ⟨.upd rfl rfl, rfl⟩
  · have h0 : ∀ x (u : State), CmdKept .tkt u (setKeys x u) ∧ (setKeys x u).mgt.challenge = u.mgt.challenge := fun x u => ⟨.upd rfl rfl, rfl⟩
    refine ⟨(((CmdKept.setF _ _ _ (by decide)).trans (CmdKept.setF _ _ _ (by decide))).trans (h0 _ _).1), (h0 _ _).2.trans ?_⟩
    rw [mgt_setF, mgt_setF]
  · exact ⟨.refl _ s, rfl⟩

theorem applyItems_effect : ∀ (n : Nat) (l : List Item) {s t : State}, applyItems n l s = .ok t → CmdKept .tkt s t ∧ t.mgt.challenge = s.mgt.challenge
  | _, [], s, t, h => by
    cases h
    exact ⟨.refl _ s, rfl⟩
  | n, i :: l, s, t, h => by
    unfold applyItems at h
    split at h
    next hok =>
      obtain ⟨h1, h2⟩ := applyItem_effect hok
      obtain ⟨h3, h4⟩ := applyItems_effect (n + 1) l h
      exact ⟨h1.trans h3, h4.trans h2⟩
    · cases h

theorem parseTicket_counter {l : List Byte} {t : Ticket} (h : parseTicket l = .ok t) : t.counter < 2 ^ 64 := by
  unfold parseTicket at h
  dsimp only at h
  split at h
  · cases h
  · split at h
    · cases h
    · split at h
      · cases h
      · split at h
        · cases h
        · split at h
          · cases h
          · cases h
            exact beAt_lt _ _ 8

theorem afterProtected_cmd (p : Page) (s : State) : CmdKept .tkt s (afterProtected p s) := .within (afterProtected_within (m := 0x700000) .refl p rfl) rfl rfl

theorem bumpLock_cmd (p : Page) (s : State) : CmdKept .tkt s (bumpLock p s) := .setReg _ _ _ (.inr (by decide))

/-- The pages of a ticket's items, taken up: the counter of the lock of each, and what follows from it. -/
def lockItems (l : List Page) (s : State) : State := l.foldl (fun u p => afterProtected p (bumpLock p u)) s

theorem lockItems_effect (l : List Page) (s : State) : CmdKept .tkt s (lockItems l s) ∧ (lockItems l s).mgt = s.mgt ∧
    ∀ g : Field, decide (g.offAt 0 % 0x1000 ≠ 0x020) = true → FieldKept .tkt g 0 s (lockItems l s) := by
  have hlock : ∀ (p : Page) (u : State) (g : Field), decide (g.offAt 0 % 0x1000 ≠ 0x020) = true → FieldKept .tkt g 0 u (bumpLock p u) := fun p u g hg => by
    refine getI_congr (reg_setReg_other _ _ (fun e => ?_))
    by_cases hp : p = .tkt
    · subst hp
      exact of_decide_eq_true hg (addr_split e)
    · exact addr_kind (Ne.symm hp) e
  refine ⟨CmdKept.foldl (fun u p => (bumpLock_cmd p u).trans (afterProtected_cmd p _)) l s, ?_, fun g hg => FieldKept.foldl (fun u p => ?_) l (.refl s)⟩
  · have hb : ∀ (p : Page) (u : State), (bumpLock p u).mgt = u.mgt := fun _ _ => mgt_setReg _ _ _
    exact foldl_keeps (g := State.mgt) (fun u p => ((afterProtected_within (m := 0x700000) (.refl (s := bumpLock p u)) p rfl).same .mgt rfl).trans (hb p u)) l s
  · exact (hlock p u g hg).trans (.within (q := .tkt) (afterProtected_within (m := 0x700000) .refl p rfl) rfl)

/-- A ticket applied: complete, its counter the module's, and no challenge held. -/
theorem applied_effect {t : Ticket} {s : State} {o : Outstanding} (ho : outstanding s .tkt = some o) (hc : t.counter < 2 ^ 64) :
    Completed (applied t s) .tkt CODE.OK ∧ (applied t s).mgt.challenge = s.mgt.challenge ∧ ticketCounter (applied t s) = t.counter := by
  have hkeys : ∀ k u, CmdKept .tkt u (setKeys k u) ∧ (setKeys k u).mgt.challenge = u.mgt.challenge ∧ ∀ g, FieldKept .tkt g 0 u (setKeys k u) := fun k u =>
    ⟨.upd rfl rfl, rfl, fun g => .upd rfl⟩
  have hlog : ∀ d u, Within 0x20000028000020 u (logEvent 0x0685 0 d u) := fun d u => logEvent_within .refl _ _ _ rfl
  unfold applied
  extract_lets s1 src s2 s2' s3
  have h1 : CmdKept .tkt s s1 := (CmdKept.setF _ _ _ (by decide)).trans (.setF _ _ _ (by decide))
  have hm1 : s1.mgt = s.mgt := by
    unfold s1
    rw [mgt_setF, mgt_setF]
  have hcnt : ticketCounter s1 = t.counter := by
    unfold ticketCounter
    have hhi : getF s1 .tkt TKT_COUNTER_HI.VALUE = t.counter / 2 ^ 32 % 2 ^ 32 := getF_setF_self _ _ _ _ (by decide)
    have hlo : getF s1 .tkt TKT_COUNTER_LO.VALUE = t.counter % 2 ^ 32 := (getF_setF_split _ _ _ (by decide)).trans (getF_setF_self _ _ _ _ (by decide))
    rw [hhi, hlo]
    exact word64 hc
  have h2 : CmdKept .tkt s1 s2 ∧ s2.mgt.challenge = s1.mgt.challenge ∧ ∀ g, FieldKept .tkt g 0 s1 s2 := by
    unfold s2
    split
    · exact hkeys _ _
    · exact ⟨.refl _ _, rfl, fun g => .refl _⟩
  obtain ⟨h3, hm3, hf3⟩ := lockItems_effect (itemPages t) s2
  have h4 : CmdKept .tkt s2' s3 := (CmdKept.count _ _ (by decide)).trans (.raise _ _ _ _)
  have hm4 : s3.mgt = s2'.mgt := (mgt_raise _ _ _).trans (mgt_count _ _ _)
  have hf4 : ∀ g : Field, fieldsSplit TKT_APPLY_CNT.COUNT g 0 0 = true → decide (g.offAt 0 % 0x1000 ≠ offIntStat) = true → FieldKept .tkt g 0 s2' s3 := fun g hg hi =>
    ((FieldKept.refl _).count _ _ (by decide) (.inr hg)).raise _ _ hi
  have hall : CmdKept .tkt s s3 := (h1.trans h2.1).trans (h3.trans h4)
  refine ⟨complete_completed (((CmdKept.within (hlog _ _) rfl rfl).out.trans hall.out).trans ho) (.inl (by decide)) (by decide) 0, ?_, ?_⟩
  · rw [mgt_done, (hlog _ _).same .mgt rfl, hm4]
    exact (congrArg MgtSt.challenge hm3).trans (h2.2.1.trans (congrArg MgtSt.challenge hm1))
  · have hk : ∀ g : Field, decide (g.offAt 0 % 0x1000 ≠ 0x020) = true → fieldsSplit TKT_APPLY_CNT.COUNT g 0 0 = true → decide (g.offAt 0 % 0x1000 ≠ offIntStat) = true →
        (decide (0x100 ≤ g.offAt 0) && decide (g.offAt 0 < 0x1000) || decide (g.offAt 0 = offStatus) && decide (g.hi < 30) && decide (g.lo ≤ g.hi)) = true →
        FieldKept .tkt g 0 s1 (done .tkt CODE.OK (logEvent 0x0685 0 [t.counter / 2 ^ 32, t.counter % 2 ^ 32, t.items.length, signerMap t] s3)) := fun g a b c d =>
      (((h2.2.2 g).trans (hf3 g a)).trans (hf4 g b c)).trans ((FieldKept.within (q := .tkt) (hlog _ _) rfl).trans (FieldKept.complete _ _ (by decide) _ _ d))
    exact (ticketCounter_congr (hk _ (by decide) (by decide) (by decide) (by decide)) (hk _ (by decide) (by decide) (by decide) (by decide))).trans hcnt

/-- The checks 2 to 6 of a ticket (R446): the challenge is used up, and OK is for a ticket that passes them all. -/
theorem checkTicket_effect {t : Ticket} {l : List Holder} {n : Nat} {s : State} {o : Outstanding} (ho : outstanding s .tkt = some o) (hc : t.counter < 2 ^ 64) :
    ∃ k, Completed (checkTicket t l n s) .tkt k ∧ (checkTicket t l n s).mgt.challenge = none ∧
      (challengeOver s = true ∨ s.mgt.challenge.map (·.1) ≠ some t.challenge → k = 0x82 ∧ (checkTicket t l n s).mgt.keys = s.mgt.keys) ∧
      (k = CODE.OK → challengeOver s = false ∧ s.mgt.challenge.map (·.1) = some t.challenge ∧ ticketCounter s < t.counter ∧ badSig l t = none ∧ n ≤ t.sigs.length ∧
        ticketCounter (checkTicket t l n s) = t.counter) := by
  have ho1 : outstanding (setChallenge none s) .tkt = some o := (setChallenge_cmd none s).out.trans ho
  have hm1 : (setChallenge none s).mgt = { s.mgt with challenge := none } := setChallenge_mgt none s
  have hrefuse : ∀ k d, k < 256 → k ≠ CODE.OK → ∀ u, u = refuseTicket k d (setChallenge none s) → Completed u .tkt k ∧ u.mgt.challenge = none ∧ u.mgt.keys = s.mgt.keys := by
    rintro k d hk _ u rfl
    obtain ⟨h1, h2, _⟩ := refuseTicket_effect ho1 hk d
    rw [h2, hm1]
    exact ⟨h1, rfl, rfl⟩
  unfold checkTicket
  dsimp only
  split
  next h =>
    obtain ⟨h1, h2, h3⟩ := hrefuse 0x82 0 (by decide) (by decide) _ rfl
    exact ⟨0x82, h1, h2, fun _ => ⟨rfl, h3⟩, fun e => absurd e (by decide)⟩
  next h =>
    rw [not_or, not_not, Bool.not_eq_true] at h
    have hno : ∀ {P : Prop}, challengeOver s = true ∨ s.mgt.challenge.map (·.1) ≠ some t.challenge → P := fun e => by
      rcases e with e | e
      · rw [h.1] at e
        cases e
      · exact absurd h.2 e
    have hbad : ∀ k d, k < 256 → k ≠ CODE.OK → ∀ u, u = refuseTicket k d (setChallenge none s) → ∃ k, Completed u .tkt k ∧ u.mgt.challenge = none ∧
        (challengeOver s = true ∨ s.mgt.challenge.map (·.1) ≠ some t.challenge → k = 0x82 ∧ u.mgt.keys = s.mgt.keys) ∧
        (k = CODE.OK → challengeOver s = false ∧ s.mgt.challenge.map (·.1) = some t.challenge ∧ ticketCounter s < t.counter ∧ badSig l t = none ∧ n ≤ t.sigs.length ∧
          ticketCounter u = t.counter) := fun k d hk hne u hu => by
      obtain ⟨h1, h2, _⟩ := hrefuse k d hk hne u hu
      exact ⟨k, h1, h2, hno, fun e => absurd e hne⟩
    split
    · exact hbad _ _ (by decide) (by decide) _ rfl
    next hcnt =>
      split
      · exact hbad _ _ (by decide) (by decide) _ rfl
      next hsig =>
        split
        · exact hbad _ _ (by decide) (by decide) _ rfl
        next hth =>
          split
          · exact hbad _ _ (by decide) (by decide) _ rfl
          next s2 hs2 =>
            split
            · exact hbad _ _ (by decide) (by decide) _ rfl
            · obtain ⟨h3, h4⟩ := applyItems_effect _ _ hs2
              obtain ⟨h5, h6, h7⟩ := applied_effect (t := t) (h3.out.trans ho1) hc
              refine ⟨CODE.OK, h5, h6.trans (h4.trans (congrArg MgtSt.challenge hm1)), hno, fun _ => ⟨h.1, h.2, Nat.lt_of_not_le hcnt, hsig, Nat.le_of_not_lt hth, h7⟩⟩

end Sys2Proof.Machine
end

section
/-!
PROOFS. The commands of TKT (R443–R449, R452), and the cards that sign (R464–R466).
-/
namespace Sys2Proof.Machine

/-! APPLY (R444). -/

theorem mode_issued {p : Page} {o : Outstanding} {s u : State} (hu : JustIssued p o s u) : mode u = mode s :=
  (hu.field (q := .boot) (f := BOOT_STATUS.MODE) (j := 0) (by decide) (by decide)).getF

theorem challengeOver_congr {s t : State} (hm : t.mgt = s.mgt) (ht : t.time = s.time) : challengeOver t = challengeOver s := by
  unfold challengeOver
  rw [hm, ht]

/-- What APPLY answers, by the checks of R444 in their order. -/
theorem runApply_effect {o : Outstanding} {s : State} (ho : outstanding s .tkt = some o) :
    let t := runApply o s
    let b := busBytes s o.a0.toNat o.a1.toNat
    (∃ k, Completed t .tkt k) ∧
    (o.a0.toNat % 4 ≠ 0 ∨ inHostArea o.a0.toNat o.a1.toNat = false → Completed t .tkt CODE.BAD_ARG ∧ t.mgt = s.mgt) ∧
    (o.a0.toNat % 4 = 0 → inHostArea o.a0.toNat o.a1.toNat = true →
      (s.mgt.keys.holders = [] → mode s ≠ MODE.RECOVERY → Completed t .tkt CODE.REFUSED ∧ t.mgt = s.mgt) ∧
      (s.mgt.keys.holders ≠ [] → ∀ k, parseTicket b = .error k → Completed t .tkt 0x80 ∧ t.mgt = s.mgt ∧ ticketCounter t = ticketCounter s) ∧
      (s.mgt.keys.holders ≠ [] → ∀ tk, parseTicket b = .ok tk → t = if tk.module ≠ Config.moduleId.toNat then refuseTicket 0x81 0 s
        else checkTicket tk s.mgt.keys.holders (getF s .tkt TKT_AUTH.THRESHOLD) s)) := by
  have hrefuse : ∀ k d, k < 256 → Completed (refuseTicket k d s) .tkt k ∧ (refuseTicket k d s).mgt = s.mgt ∧ ticketCounter (refuseTicket k d s) = ticketCounter s :=
    fun k d hk => refuseTicket_effect ho hk d
  have hcheck : ∀ (tk : Ticket) (l : List Holder) (n : Nat), parseTicket (busBytes s o.a0.toNat o.a1.toNat) = .ok tk → ∃ k, Completed (checkTicket tk l n s) .tkt k := fun tk l n h => by
    obtain ⟨k, hk, _⟩ := checkTicket_effect (l := l) (n := n) ho (parseTicket_counter h)
    exact ⟨k, hk⟩
  intro t b
  have e : t = runApply o s := rfl
  clear_value t
  unfold runApply at e
  dsimp only at e
  split at e
  next harg =>
    subst e
    obtain ⟨h1, h2, _⟩ := hrefuse CODE.BAD_ARG 0 (by decide)
    refine ⟨⟨_, h1⟩, fun _ => ⟨h1, h2⟩, fun h4 hin => ?_⟩
    rcases harg with h | h
    · exact absurd h4 h
    · rw [hin] at h
      cases h
  next harg =>
    have hno : ∀ {P : Prop}, o.a0.toNat % 4 ≠ 0 ∨ inHostArea o.a0.toNat o.a1.toNat = false → P := fun h => absurd h harg
    split at e
    next hempty =>
      subst e
      obtain ⟨h1, h2, _⟩ := hrefuse CODE.REFUSED 0 (by decide)
      exact ⟨⟨_, h1⟩, hno, fun _ _ => ⟨fun _ _ => ⟨h1, h2⟩, fun h => absurd hempty.1 h, fun h => absurd hempty.1 h⟩⟩
    next hempty =>
      have hready : ∀ {P : Prop}, s.mgt.keys.holders = [] → mode s ≠ MODE.RECOVERY → P := fun h1 h2 => absurd ⟨h1, h2⟩ hempty
      split at e
      next k hk =>
        subst e
        obtain ⟨h1, h2, h3⟩ := hrefuse 0x80 k (by decide)
        refine ⟨⟨_, h1⟩, hno, fun _ _ => ⟨hready, fun _ _ _ => ⟨h1, h2, h3⟩, fun _ tk h => ?_⟩⟩
        cases hk.symm.trans h
      next tk hk =>
        have herr : ∀ {P : Prop} k, parseTicket b = .error k → P := fun k h => by cases hk.symm.trans h
        have hlast : t = (if tk.module ≠ Config.moduleId.toNat then refuseTicket 0x81 0 s else checkTicket tk s.mgt.keys.holders (getF s .tkt TKT_AUTH.THRESHOLD) s) ∨
            s.mgt.keys.holders = [] ∧ ∃ k, Completed t .tkt k := by
          split at e
          next hf _ =>
            refine .inr ⟨List.isEmpty_iff.1 hf, ?_⟩
            split at e
            · subst e
              exact ⟨_, (hrefuse 0x81 0 (by decide)).1⟩
            · subst e
              exact hcheck _ _ _ hk
          next hf _ =>
            subst e
            exact .inr ⟨List.isEmpty_iff.1 hf, _, (hrefuse CODE.REFUSED 0 (by decide)).1⟩
          next => exact .inl e
        have hdone : ∃ k, Completed t .tkt k := by
          rcases hlast with h | h
          · rw [h]
            split
            · exact ⟨_, (hrefuse 0x81 0 (by decide)).1⟩
            · exact hcheck _ _ _ hk
          · exact h.2
        refine ⟨hdone, hno, fun _ _ => ⟨hready, fun _ k h => herr k h, fun hne tk' h => ?_⟩⟩
        cases hk.symm.trans h
        exact hlast.resolve_right (fun h => hne h.1)

/-! Cards (R464–R466). -/

/-- A card put out of power: none is in the slot's hands, and the rest of the port's registers stand. -/
theorem deactivateCard_effect (n : Serial) (s : State) : (serial (deactivateCard n s) n.val).card = none ∧ isSet (deactivateCard n s) (.ser n) SER_CARD.POWERED = false ∧
    CmdKept .tkt s (deactivateCard n s) ∧ CmdKept (.ser n) s (deactivateCard n s) ∧
    ∀ g : Field, (fieldsSplit SER_CARD.POWERED g 0 0 && fieldsSplit SER_CARD.ACTIVE g 0 0 && fieldsSplit SER_CFG.EN g 0 0) = true → FieldKept (.ser n) g 0 s (deactivateCard n s) := by
  have hset : ∀ x (u : State), CmdKept .tkt u (emit (.cardPower n.val false) (setSerial n.val x u)) ∧ CmdKept (.ser n) u (emit (.cardPower n.val false) (setSerial n.val x u)) ∧
      ∀ g, FieldKept (.ser n) g 0 u (emit (.cardPower n.val false) (setSerial n.val x u)) := fun x u => ⟨.upd rfl rfl, .upd rfl rfl, fun g => .upd rfl⟩
  unfold deactivateCard
  extract_lets s1
  obtain ⟨hs1, hs2, hs3⟩ := hset { serial s1 n.val with card := none } s1
  refine ⟨?_, ?_, ?_, ?_, fun g hg => ?_⟩
  · exact congrArg SerSt.card ((serial_congr (ser_emit _ _) _).trans (serial_setSerial_self _ _ _))
  · exact (hs3 _).isSet.trans (isSet_setB_self _ _ _ _ (by decide))
  · exact (((CmdKept.setB _ _ _ (.inl (by simp))).trans (.setB _ _ _ (.inl (by simp)))).trans (.setB _ _ _ (.inl (by simp)))).trans hs1
  · exact (((CmdKept.setB _ _ _ (.inr (by decide))).trans (.setB _ _ _ (.inr (by decide)))).trans (.setB _ _ _ (.inr (by decide)))).trans hs2
  · simp only [Bool.and_eq_true] at hg
    obtain ⟨⟨h1, h2⟩, h3⟩ := hg
    exact (FieldKept.setB (FieldKept.setB (FieldKept.setB (.refl s) _ _ _ (by decide) (.inr h3)) _ _ _ (by decide) (.inr h2)) _ _ _ (by decide) (.inr h1)).trans (hs3 g)

/-- A card transaction that fails. -/
theorem cardError_effect {n : Serial} {s : State} {c : CardSt} (hc : (serial s n.val).card = some c) :
    (serial (cardError n s) n.val).card = none ∧ isSet (cardError n s) (.ser n) SER_CARD.POWERED = false ∧
    (outstanding s .tkt ≠ none → Completed (cardError n s) .tkt 0x88) ∧
    (∀ k, intOf s (.ser n) k = true → intOf (cardError n s) (.ser n) k = true) ∧
    ∀ g : Field, (fieldsSplit SER_CARD.POWERED g 0 0 && fieldsSplit SER_CARD.ACTIVE g 0 0 && fieldsSplit SER_CFG.EN g 0 0) = true →
      (decide (0x100 ≤ g.offAt 0) && decide (g.offAt 0 < 0x1000) || decide (g.offAt 0 = offStatus) && decide (g.hi < 30) && decide (g.lo ≤ g.hi)) = true →
      FieldKept (.ser n) g 0 s (cardError n s) := by
  obtain ⟨h1, h2, h3, h4, h5⟩ := deactivateCard_effect n s
  have e : cardError n s = complete .tkt 0x88 0 (deactivateCard n s) := if_pos (by rw [hc]; rfl)
  rw [e]
  refine ⟨?_, ?_, fun ho => ?_, fun k hk => intOf_complete (by simp) _ _ (h4.int k hk), fun g hg hr => ?_⟩
  · rw [serial_congr (ser_complete _ _ _ _)]
    exact h1
  · exact (FieldKept.complete _ _ (by simp) _ _ (by decide)).isSet.trans h2
  · obtain ⟨o, ho⟩ := Option.ne_none_iff_exists'.1 ho
    exact complete_completed (h3.out.trans ho) (.inl (by decide)) (by decide) 0
  · exact (h5 g hg).trans (FieldKept.complete _ _ (by simp) _ _ hr)

theorem sendCard_effect (n : Serial) (ph : CardPhase) (k : Nat) (b : List Byte) (s : State) : (serial (sendCard n ph k b s) n.val).card = some ⟨ph, k, 0⟩ ∧
    (sendCard n ph k b s).emits.head? = some (.cardCommand n.val b) ∧ ∀ q g j, FieldKept q g j s (sendCard n ph k b s) := by
  unfold sendCard
  exact ⟨congrArg SerSt.card ((serial_congr (ser_emit _ _) _).trans (serial_setSerial_self _ _ _)), rfl, fun q g j => .upd rfl⟩

theorem cardAtr_eq {n : Serial} {s : State} {c : CardSt} (hc : (serial s n.val).card = some c) (ts : Option Byte) : cardAtr n ts s =
    if c.phase ≠ .atr then s else if ts = some 0x3F#8 then sendCard n .readPub 0 [0x80, 0x10, 0, 0, 0x48] s else cardError n s := by
  unfold cardAtr
  rw [hc]
  rfl

/-- The answers of a card, by the phase of its transaction (R466). -/
theorem cardReply_effect {n : Serial} {s : State} {c : CardSt} {o : Outstanding} (hc : (serial s n.val).card = some c) (ho : outstanding s .tkt = some o) (v : List Byte) (sw : BitVec 16) :
    let t := cardReply n v sw.toNat s
    (c.phase = .atr → t = s) ∧ (c.phase ≠ .atr → getF t (.ser n) SER_CARD.LAST_SW = sw.toNat) ∧
    (c.phase = .readPub → sw.toNat ≠ 0x9000 ∨ v.length ≠ 72 → Completed t .tkt 0x88 ∧ (serial t n.val).card = none) ∧
    (c.phase = .sign → if sw.toNat = 0x6140 then (serial t n.val).card = some ⟨.response, c.holder, 0⟩ else Completed t .tkt 0x88) ∧
    (c.phase = .response → (serial t n.val).card = none ∧ (sw.toNat = 0x9000 → v.length = 64 → Completed t .tkt CODE.OK)) := by
  intro t
  have e : t = cardReply n v sw.toNat s := rfl
  clear_value t
  unfold cardReply at e
  rw [hc, ho] at e
  dsimp only at e
  by_cases hatr : c.phase = .atr
  · rw [if_pos hatr] at e
    refine ⟨fun _ => e, fun h => absurd hatr h, fun h => ?_, fun h => ?_, fun h => ?_⟩ <;> (rw [hatr] at h; cases h)
  rw [if_neg hatr] at e
  generalize hz : setF (.ser n) SER_CARD.LAST_SW sw.toNat s = z at e
  have hsw : getF z (.ser n) SER_CARD.LAST_SW = sw.toNat := by
    rw [← hz]
    exact (getF_setF_self _ _ _ _ (by decide)).trans (Nat.mod_eq_of_lt sw.isLt)
  have hzc : (serial z n.val).card = some c := by rw [← hz, serial_congr (ser_setF _ _ _ _)]; exact hc
  have hzo : outstanding z .tkt = some o := by
    rw [← hz]
    exact (CmdKept.setF (p := .tkt) (q := .ser n) _ _ _ (.inl (by simp))).out.trans ho
  obtain ⟨he1, _, he3, _, he5⟩ := cardError_effect hzc
  have hfail : Completed (cardError n z) .tkt 0x88 := he3 (by rw [hzo]; exact fun h => by cases h)
  have hsw2 : getF (cardError n z) (.ser n) SER_CARD.LAST_SW = sw.toNat := (he5 _ (by decide) (by decide)).getF.trans hsw
  obtain ⟨hd1, _, hd3, _, hd5⟩ := deactivateCard_effect n z
  have hdsw : getF (deactivateCard n z) (.ser n) SER_CARD.LAST_SW = sw.toNat := (hd5 _ (by decide)).getF.trans hsw
  refine ⟨fun h => absurd h hatr, fun _ => ?_, fun h => ?_, fun h => ?_, fun h => ?_⟩
  · split at e
    · split at e
      · rw [e, hsw2]
      · split at e
        · rw [e]
          exact (FieldKept.complete _ _ (by simp) _ _ (by decide)).getF.trans hdsw
        · rw [e]
          exact ((sendCard_effect _ _ _ _ _).2.2 _ _ _).getF.trans hsw
    · split at e
      · rw [e, hsw2]
      · rw [e]
        exact ((sendCard_effect _ _ _ _ _).2.2 _ _ _).getF.trans hsw
    · split at e
      · rw [e, hsw2]
      · rw [e]
        exact ((FieldKept.within (q := .ser n) (appendSig_within (m := 0x20020022000000) .refl _ _ _ rfl) (show Nat.testBit _ 7 = false from rfl)).trans (FieldKept.complete _ _ (by simp) _ _ (by decide))).getF.trans hdsw
    · rw [e, hsw]
  · intro hbad
    rw [h] at e
    dsimp only at e
    rw [if_pos hbad] at e
    subst e
    exact ⟨hfail, he1⟩
  · rw [h] at e
    dsimp only at e
    split
    next h6 =>
      rw [if_neg (not_not.2 h6)] at e
      subst e
      exact (sendCard_effect _ _ _ _ _).1
    next h6 =>
      rw [if_pos h6] at e
      subst e
      exact hfail
  · rw [h] at e
    dsimp only at e
    split at e
    next hbad =>
      subst e
      refine ⟨he1, fun h1 h2 => ?_⟩
      rcases hbad with hb | hb
      · exact absurd h1 hb
      · exact absurd h2 hb
    next =>
      have hw : Within 0x20020022000000 (deactivateCard n z) (appendSig o c.holder v (deactivateCard n z)) := appendSig_within .refl _ _ _ rfl
      subst e
      refine ⟨?_, fun _ _ => ?_⟩
      · rw [serial_congr (ser_done _ _ _), serial_congr (hw.same .ser rfl)]
        exact hd1
      · exact complete_completed (((CmdKept.within hw rfl rfl).out.trans hd3.out).trans hzo) (.inl (by decide)) (by decide) 0

/-- The port of a card in service: powered, and waiting for the answer to reset. -/
theorem startCard_effect (n : Serial) (s : State) : CmdKept .tkt s (startCard n s) ∧ isSet (startCard n s) (.ser n) SER_CARD.POWERED = true ∧
    (serial (startCard n s) n.val).card = some ⟨.atr, 0, 0⟩ := by
  have hset : ∀ x (u : State), CmdKept .tkt u (emit (.cardPower n.val true) (setSerial n.val x u)) ∧ FieldKept (.ser n) SER_CARD.POWERED 0 u (emit (.cardPower n.val true) (setSerial n.val x u)) :=
    fun x u => ⟨.upd rfl rfl, .upd rfl⟩
  unfold startCard
  extract_lets s1
  refine ⟨?_, (hset _ _).2.isSet.trans (isSet_setB_self _ _ _ _ (by decide)), congrArg SerSt.card ((serial_congr (ser_emit _ _) _).trans (serial_setSerial_self _ _ _))⟩
  exact (((CmdKept.setB _ _ _ (.inl (by simp))).trans (.setB _ _ _ (.inl (by simp)))).trans (.setB _ _ _ (.inl (by simp)))).trans (hset _ _).1

/-- A command of TKT that writes bytes to the host area. -/
theorem tktOutput_effect {o : Outstanding} {s u : State} (hu : JustIssued .tkt o s u) (a : Nat) (out : List Byte) :
    Completed (done .tkt CODE.OK (busWrite a out u)) .tkt CODE.OK ∧ (BanksOn s → bytesAt (done .tkt CODE.OK (busWrite a out u)) a out.length = out) := by
  have hk : CmdKept .tkt u (busWrite a out u) := .within (p := .tkt) (busWrite_within (m := 0x20020022000000) .refl _ _ rfl) rfl rfl
  refine ⟨hu.code hk (by decide) 0, fun hb => ?_⟩
  rw [bytesAt_congr (mem_done _ _ _), bytesAt_busWrite (hu.banksOn (by simp) hb) _ (Nat.le_refl _), List.take_length]

/-- CHALLENGE draws a value and holds it for its time (R442). -/
theorem runChallenge_effect {o : Outstanding} {s u : State} (hu : JustIssued .tkt o s u) :
    let t := runChallenge o u
    Completed t .tkt CODE.OK ∧ isSet t .tkt TKT_STATUS.CHAL_HELD = true ∧ getF t .tkt TKT_CHAL_LEFT.LEFT = 900 ∧
    ∃ c, t.mgt.challenge = some c ∧ c.2 = s.time.rtc ∧ getF t .tkt TKT_CHAL_HI.VALUE * 2 ^ 32 + getF t .tkt TKT_CHAL_LO.VALUE = c.1 := by
  have hw : Within 0x8000000040000 u (draw u).2 := draw_within .refl rfl
  unfold runChallenge done
  generalize draw u = d at hw
  obtain ⟨x, s1⟩ := d
  dsimp only at hw ⊢
  have htime : s1.time.rtc = s.time.rtc := by rw [hw.same .time rfl, hu.within.same .time rfl]
  obtain ⟨h1, h2, h3⟩ := setChallenge_shown (some (x.toNat % 2 ^ 64, s1.time.rtc)) s1
  have hm := setChallenge_mgt (some (x.toNat % 2 ^ 64, s1.time.rtc)) s1
  have hc := (CmdKept.within (p := .tkt) hw rfl rfl).trans (setChallenge_cmd (some (x.toNat % 2 ^ 64, s1.time.rtc)) s1)
  have h4 := h2 _ _ rfl (Nat.mod_lt _ (by decide))
  have h5 := h3 _ rfl
  generalize setChallenge (some (x.toNat % 2 ^ 64, s1.time.rtc)) s1 = z at h1 hm hc h4 h5
  refine ⟨hu.code hc (by decide) 0, ?_, ?_, (x.toNat % 2 ^ 64, s1.time.rtc), ?_, htime, ?_⟩
  · exact (FieldKept.complete _ _ (by decide) _ _ (by decide)).isSet.trans h1
  · exact (FieldKept.complete _ _ (by decide) _ _ (by decide)).getF.trans h5
  · rw [mgt_complete, hm]
  · rw [(FieldKept.complete _ _ (by decide) _ _ (by decide)).getF, (FieldKept.complete _ _ (by decide) _ _ (by decide)).getF]
    exact h4

/-- APPLY as it stands after its issue, in terms of the state before (R444–R448). -/
theorem applyIssued_effect {src : CmdSrc} {s u : State} (hu : JustIssued .tkt (latch .tkt 2 src s) s u) :
    let t := runApply (latch .tkt 2 src s) u
    let o := latch .tkt 2 src s
    let b := busBytes s o.a0.toNat o.a1.toNat
    outstanding t .tkt = none ∧ getBits (reg t (addr .tkt offCmdStat)) 30 30 = 1 ∧
    (o.a0.toNat % 4 ≠ 0 ∨ inHostArea o.a0.toNat o.a1.toNat = false → Completed t .tkt CODE.BAD_ARG ∧ t.mgt = s.mgt) ∧
    (o.a0.toNat % 4 = 0 → inHostArea o.a0.toNat o.a1.toNat = true →
      (s.mgt.keys.holders = [] → mode s ≠ MODE.RECOVERY → Completed t .tkt CODE.REFUSED ∧ t.mgt = s.mgt) ∧
      (s.mgt.keys.holders ≠ [] → ∀ k, (parseTicket b).toOption = none → parseTicket b = .error k → Completed t .tkt 0x80 ∧ t.mgt = s.mgt ∧
        ticketCounter t = ticketCounter s) ∧
      (s.mgt.keys.holders ≠ [] → ∀ tk, (parseTicket b).toOption = some tk →
        (tk.module ≠ Config.moduleId.toNat → Completed t .tkt 0x81 ∧ t.mgt = s.mgt) ∧
        (tk.module = Config.moduleId.toNat → t.mgt.challenge = none ∧
          (challengeOver s = true ∨ s.mgt.challenge.map (·.1) ≠ some tk.challenge → Completed t .tkt 0x82 ∧ t.mgt.keys = s.mgt.keys) ∧
          (getBits (reg t (addr .tkt offCmdStat)) 7 0 = CODE.OK → challengeOver s = false ∧ s.mgt.challenge.map (·.1) = some tk.challenge ∧
            ticketCounter s < tk.counter ∧ badSig s.mgt.keys.holders tk = none ∧ getF s .tkt TKT_AUTH.THRESHOLD ≤ tk.sigs.length ∧
            ticketCounter t = tk.counter)))) := by
  have hmgt : u.mgt = s.mgt := hu.within.same .mgt rfl
  have hbus : ∀ a n, busBytes u a n = busBytes s a n := busBytes_congr (hu.within.same .mem rfl) (hu.bankPower (by simp))
  have hover : challengeOver u = challengeOver s := challengeOver_congr hmgt (hu.within.same .time rfl)
  have hcount : ticketCounter u = ticketCounter s := ticketCounter_congr (hu.field (by decide) (by decide)) (hu.field (by decide) (by decide))
  have hth : getF u .tkt TKT_AUTH.THRESHOLD = getF s .tkt TKT_AUTH.THRESHOLD := (hu.field (q := .tkt) (by decide) (by decide)).getF
  obtain ⟨⟨k, hk⟩, hbad, hgood⟩ := runApply_effect hu.issued.out
  rw [hmgt, hbus, mode_issued hu, hcount, hth] at hgood
  rw [hmgt] at hbad
  refine ⟨hk.out, hk.done, hbad, fun h4 hin => ?_⟩
  obtain ⟨h1, h2, h3⟩ := hgood h4 hin
  refine ⟨h1, fun hne k _ he => h2 hne k he, fun hne tk hp => ?_⟩
  have hp2 : parseTicket (busBytes s (latch .tkt 2 src s).a0.toNat (latch .tkt 2 src s).a1.toNat) = .ok tk := by
    generalize parseTicket (busBytes s (latch .tkt 2 src s).a0.toNat (latch .tkt 2 src s).a1.toNat) = r at hp
    cases r with
    | error k => cases hp
    | ok x => cases hp; rfl
  rw [h3 hne tk hp2]
  refine ⟨fun hmod => ?_, fun hmod => ?_⟩
  · rw [if_pos hmod]
    obtain ⟨h5, h6, _⟩ := refuseTicket_effect hu.issued.out (code := 0x81) (by decide) 0
    exact ⟨h5, h6.trans hmgt⟩
  · rw [if_neg (not_not.2 hmod)]
    obtain ⟨k, h5, h6, h7, h8⟩ := checkTicket_effect (l := s.mgt.keys.holders) (n := getF s .tkt TKT_AUTH.THRESHOLD) hu.issued.out (parseTicket_counter hp2)
    rw [hover, hmgt] at h7 h8
    rw [hcount] at h8
    refine ⟨h6, fun hc => ?_, fun hok => h8 (h5.code.symm.trans hok)⟩
    obtain ⟨rfl, h9⟩ := h7 hc
    exact ⟨h5, h9⟩

/-- Settles O57: the checks of a ticket in their order, and each answer of a card by the phase it meets. -/
theorem ticketsAndCards : Obligations.TicketsAndCards := by
  unfold Obligations.TicketsAndCards
  refine ⟨fun src s ht => ?_, fun s => ?_, fun src s ht => ?_, fun src s ht => ?_, fun src s ht => ?_, fun src s ht => ?_, fun n p s => ?_, fun n s hc ts v sw => ⟨?_, ?_, ?_, ?_⟩,
    fun n s c hc => ⟨?_, ?_, fun ts => ?_⟩, fun n v sw s c hc o ho => ?_⟩
  · refine Yields.issue rfl ht (fun u hu => runChallenge_effect hu)
  · refine Yields.guard (c := s.mgt.challenge.isSome = true) rfl Iff.rfl (fun _ => ?_)
    refine ⟨by rw [mgt_raise, setChallenge_mgt], ?_, intOf_raise _ _ _ (by decide)⟩
    exact ((FieldKept.refl (q := .tkt) (g := TKT_STATUS.CHAL_HELD) (j := 0) _).raise _ _ (by decide)).isSet.trans (setChallenge_shown none s).1
  · refine Yields.issue rfl ht (fun u hu => ?_)
    exact applyIssued_effect hu
  · refine Yields.issue rfl ht (fun u hu => ?_)
    have hth : getF u .tkt TKT_AUTH.THRESHOLD = getF s .tkt TKT_AUTH.THRESHOLD := (hu.field (q := .tkt) (by decide) (by decide)).getF
    unfold runReadAuth
    dsimp only
    rw [hth, show u.mgt = s.mgt from hu.within.same .mgt rfl]
    split
    · exact ⟨hu.done (by decide) 0, (mem_done _ _ _).trans (hu.within.same .mem rfl)⟩
    · exact tktOutput_effect hu _ _
  · refine Yields.issue rfl ht (fun u hu => ?_)
    unfold runReadDevPub
    dsimp only
    split
    · exact ⟨hu.done (by decide) 0, (mem_done _ _ _).trans (hu.within.same .mem rfl)⟩
    · exact (tktOutput_effect hu _ _).1
  · refine Yields.issue rfl ht (fun u hu => ?_)
    have hser : u.ser = s.ser := hu.within.same .ser rfl
    have hbus : ∀ a n, busBytes u a n = busBytes s a n := busBytes_congr (hu.within.same .mem rfl) (hu.bankPower (by simp))
    unfold runCardSign
    dsimp only
    rw [hbus]
    have hend : Completed (done .tkt CODE.BAD_ARG u) .tkt CODE.BAD_ARG ∧ (done .tkt CODE.BAD_ARG u).ser = s.ser := ⟨hu.done (by decide) 0, (ser_done _ _ _).trans hser⟩
    obtain ⟨h7, h8, h9⟩ := startCard_effect (cardPort (latch .tkt 3 src s)) u
    generalize latch .tkt 3 src s = o at hu hend h7 h8 h9 ⊢
    by_cases h : 1 < o.a0.toNat ∨ o.a1.toNat % 4 ≠ 0 ∨ 4096 < o.a2.toNat + 68 ∨ o.a2.toNat < 36 ∨ inHostArea o.a1.toNat (o.a2.toNat + 68) = false ∨
        o.a2.toNat < 36 + beAt (busBytes s o.a1.toNat 36) 32 2
    · rw [if_pos h]
      split
      · exact hend
      next h0 =>
        rw [if_pos]
        · exact hend
        · simp only [not_or] at h0
          exact ((((h.resolve_left h0.1).resolve_left h0.2.1).resolve_left h0.2.2.1).resolve_left h0.2.2.2.1).resolve_left h0.2.2.2.2
    · rw [if_neg h]
      simp only [not_or] at h
      obtain ⟨h1, h2, h3, h4, h5, h6⟩ := h
      rw [if_neg (by simp only [not_or]; exact ⟨h1, h2, h3, h4, h5⟩), if_neg h6]
      exact ⟨h7.issued hu.issued, h8, h9⟩
  · refine Yields.unless (c := n.val < 2 ∨ isSet s (.ser n) SER_CARD.PRESENT = p) rfl Iff.rfl (fun _ => ?_)
    generalize hz : raise (.ser n) SER_INT.CARD_CHANGE (setB (.ser n) SER_CARD.PRESENT p s) = z
    have hp : isSet z (.ser n) SER_CARD.PRESENT = p := by
      rw [← hz]
      exact ((FieldKept.refl (q := .ser n) (g := SER_CARD.PRESENT) (j := 0) _).raise _ _ (by decide)).isSet.trans (isSet_setB_self _ _ _ _ (by decide))
    have hi : intOf z (.ser n) SER_INT.CARD_CHANGE = true := by
      rw [← hz]
      exact intOf_raise _ _ _ (by decide)
    dsimp only
    cases p
    · rw [if_neg (by decide)]
      cases hc : (serial z n.val).card with
      | none =>
        have e : cardError n z = z := if_neg (by rw [hc]; decide)
        rw [e]
        exact ⟨hp, hi, fun _ => hc⟩
      | some c =>
        obtain ⟨h1, _, _, h4, h5⟩ := cardError_effect hc
        exact ⟨(h5 _ (by decide) (by decide)).isSet.trans hp, h4 _ hi, fun _ => h1⟩
    · rw [if_pos rfl]
      exact ⟨hp, hi, fun h => by cases h⟩
  · show Host.Outcome.next (cardAtr n ts s) = _
    unfold cardAtr
    rw [hc]
  · exact congrArg Host.Outcome.next (if_neg (by rw [hc]; decide))
  · exact congrArg Host.Outcome.next (if_neg (by rw [hc]; decide))
  · show Host.Outcome.next (cardReply n v sw.toNat s) = _
    unfold cardReply
    rw [hc]
  · obtain ⟨h1, h2, h3, _⟩ := cardError_effect hc
    exact Yields.intro rfl ⟨h1, h2, h3⟩
  · obtain ⟨h1, h2, _⟩ := cardError_effect hc
    refine Yields.guard (c := (serial s n.val).card.any (fun c => decide (c.phase = .sign)) = true) rfl ?_ (fun _ => ⟨h1, h2⟩)
    rw [hc]
    simp
  · refine Yields.intro rfl ?_
    rw [cardAtr_eq hc]
    by_cases hp : c.phase ≠ .atr
    · rw [if_pos hp, if_pos hp]
    · rw [if_neg hp, if_neg hp]
      by_cases hts : ts = some 0x3F#8
      · rw [if_pos hts, if_pos hts]
        obtain ⟨h1, h2, _⟩ := sendCard_effect n .readPub 0 [0x80, 0x10, 0, 0, 0x48] s
        exact ⟨h1, h2⟩
      · rw [if_neg hts, if_neg hts]
        exact (cardError_effect hc).1
  · exact Yields.intro rfl (cardReply_effect hc ho v sw)

end Sys2Proof.Machine
end

section
/-!
PROOFS. Serial ports: characters received and sent, breaks and stuck lines (R454–R460, R467, R469).
-/
namespace Sys2Proof.Machine

/-! A character received (R454). -/

/-- The parts of the word that holds a character of a plain port. -/
theorem rxWord_fields (fe pe : Bool) (d : Byte) : getBits (rxWord ⟨false, fe, pe, false, false, false⟩ d) 7 0 = d.toNat ∧
    getBits (rxWord ⟨false, fe, pe, false, false, false⟩ d) 28 28 = (if fe then 1 else 0) := by
  have hd : d.toNat < 256 := d.isLt
  unfold rxWord getBits
  rw [BitVec.toNat_ofNat]
  cases fe <;> cases pe <;> simp only [if_true, if_false, Bool.false_eq_true] <;> omega

/-- A counter whose register stood is counted from its value before. -/
theorem counted_from {a b c : Nat} (h : a = min (b + 1) 0xFFFFFFFF) (e : b = c) : a = min (c + 1) 0xFFFFFFFF := e ▸ h

theorem rxWord_kept {n : Serial} {s : State} (w : Word) (g : Field) (h : decide (g.offAt 0 % 0x1000 ≠ 0x10C) = true) :
    FieldKept (.ser n) g 0 s (setReg (addr (.ser n) SER_RX.VALID.off) w s) :=
  getI_congr (reg_setReg_other _ _ (fun e => of_decide_eq_true h (addr_split e)))

/-- A character in a full register is lost, and one in an empty register is held (R454). -/
theorem storeChar_effect (n : Serial) (fe pe : Bool) (d : Byte) (s : State) :
    let t := storeChar n ⟨false, fe, pe, false, false, false⟩ d s
    if isSet s (.ser n) SER_STATUS.RX_FULL then isSet t (.ser n) SER_RX.OVR = true ∧ intOf t (.ser n) SER_INT.OVERRUN = true ∧
      getF t (.ser n) SER_RX.DATA = getF s (.ser n) SER_RX.DATA ∧
      getF t (.ser n) SER_OVR_CNT.COUNT = min (getF s (.ser n) SER_OVR_CNT.COUNT + 1) 0xFFFFFFFF
    else isSet t (.ser n) SER_STATUS.RX_FULL = true ∧ getF t (.ser n) SER_RX.DATA = d.toNat ∧ isSet t (.ser n) SER_RX.FE = fe ∧
      intOf t (.ser n) SER_INT.RX_FULL = true ∧ getF t (.ser n) SER_RX_CNT.COUNT = min (getF s (.ser n) SER_RX_CNT.COUNT + 1) 0xFFFFFFFF := by
  intro t
  have e : t = storeChar n ⟨false, fe, pe, false, false, false⟩ d s := rfl
  clear_value t
  unfold storeChar at e
  extract_lets p s1 s2 s3 s4 at e
  by_cases hfull : isSet s (.ser n) SER_STATUS.RX_FULL = true
  · rw [if_pos hfull] at e ⊢
    subst e
    have hraise : ∀ (g : Field) (u : State), decide (g.offAt 0 % 0x1000 ≠ offIntStat) = true → FieldKept (.ser n) g 0 u (raise (.ser n) SER_INT.OVERRUN u) := fun g u hg =>
      (FieldKept.refl u).raise _ _ hg
    have hcount : ∀ (g : Field) (u : State), fieldsSplit SER_OVR_CNT.COUNT g 0 0 = true → FieldKept (.ser n) g 0 u (count (.ser n) SER_OVR_CNT.COUNT u) := fun g u hg =>
      (FieldKept.refl u).count _ _ (by decide) (.inr hg)
    refine ⟨?_, intOf_raise _ _ _ (by decide), ?_, ?_⟩
    · exact ((hcount SER_RX.OVR _ (by decide)).trans (hraise _ _ (by decide))).isSet.trans (isSet_setB_self _ _ _ _ (by decide))
    · exact ((hcount SER_RX.DATA _ (by decide)).trans (hraise _ _ (by decide))).getF.trans (getF_setB_split _ _ _ (by decide))
    · exact counted_from ((hraise SER_OVR_CNT.COUNT _ (by decide)).getF.trans (count_min _ _ (by decide) (by decide) _)) (getF_setB_split _ _ _ (by decide))
  · rw [if_neg hfull] at e ⊢
    rw [if_neg Bool.false_ne_true] at e
    subst e
    obtain ⟨hdata, hfe⟩ := rxWord_fields fe pe d
    have hword : reg s1 (addr (.ser n) SER_RX.VALID.off) = rxWord ⟨false, fe, pe, false, false, false⟩ d := by
      refine (reg_setI_split _ _ (.inr (by decide))).trans ?_
      exact reg_setReg_self _ _ _
    have h12 : ∀ g : Field, fieldsSplit SER_RX_CNT.COUNT g 0 0 = true → decide (g.offAt 0 % 0x1000 ≠ offIntStat) = true → FieldKept (.ser n) g 0 s1 s2 := fun g hg hi =>
      ((FieldKept.refl s1).count _ _ (by decide) (.inr hg)).raise _ _ hi
    have hint2 : intOf s2 (.ser n) SER_INT.RX_FULL = true := intOf_raise _ _ _ (by decide)
    have hcnt2 : getF s2 (.ser n) SER_RX_CNT.COUNT = min (getF s (.ser n) SER_RX_CNT.COUNT + 1) 0xFFFFFFFF := by
      refine ((FieldKept.refl (q := .ser n) (g := SER_RX_CNT.COUNT) (j := 0) _).raise _ _ (by decide)).getF.trans ?_
      exact counted_from (count_min _ _ (by decide) (by decide) _) ((getF_setB_split _ _ _ (by decide)).trans (rxWord_kept _ _ (by decide)).getF)
    have h24 : CmdKept (.ser n) s2 s4 ∧ ∀ g : Field, fieldsSplit SER_BADCHAR_CNT.COUNT g 0 0 = true → decide (g.offAt 0 % 0x1000 ≠ offIntStat) = true → FieldKept (.ser n) g 0 s2 s4 := by
      have h23 : CmdKept (.ser n) s2 s3 ∧ ∀ g : Field, fieldsSplit SER_BADCHAR_CNT.COUNT g 0 0 = true → FieldKept (.ser n) g 0 s2 s3 := by
        unfold s3
        split
        · exact ⟨.count _ _ (.inr (by decide)), fun g hg => (FieldKept.refl s2).count _ _ (by decide) (.inr hg)⟩
        · exact ⟨.refl _ s2, fun g _ => .refl s2⟩
      unfold s4
      split
      · exact ⟨h23.1.trans (.raise _ _ _ _), fun g hg hi => (h23.2 g hg).raise _ _ hi⟩
      · exact ⟨h23.1, fun g hg _ => h23.2 g hg⟩
    refine ⟨?_, ?_, ?_, h24.1.int _ hint2, (h24.2 _ (by decide) (by decide)).getF.trans hcnt2⟩
    · exact ((h12 _ (by decide) (by decide)).trans (h24.2 _ (by decide) (by decide))).isSet.trans (isSet_setB_self _ _ _ _ (by decide))
    · refine ((h12 _ (by decide) (by decide)).trans (h24.2 _ (by decide) (by decide))).getF.trans ?_
      show getBits (reg s1 (addr (.ser n) SER_RX.VALID.off)) 7 0 = _
      rw [hword, hdata]
    · rw [((h12 _ (by decide) (by decide)).trans (h24.2 _ (by decide) (by decide))).isSet]
      show decide (getBits (reg s1 (addr (.ser n) SER_RX.VALID.off)) 28 28 ≠ 0) = _
      rw [hword, hfe]
      cases fe <;> rfl

/-- What a plain port makes of a character, by the flow control, framing and width it is set to. -/
theorem receiveChar_plain {n : Serial} {c : SerChar} {s : State} (hon : receiverOn s n = true) (hn : n.val < 2) (h7 : getBits (formatOf s n c.old).1 25 25 = 0) :
    receiveChar n c s =
      if getBits (formatOf s n c.old).1 28 28 = 1 ∧ c.fe = false ∧ (c.pe && decide (getBits (formatOf s n c.old).1 27 26 ≠ 0)) = false ∧ (c.data = 0x13 ∨ c.data = 0x11) then
        setB (.ser n) SER_STATUS.HELD (decide (c.data = 0x13)) s
      else if getBits (formatOf s n c.old).1 29 29 = 1 then framedChar n c.data c.fe (c.pe && decide (getBits (formatOf s n c.old).1 27 26 ≠ 0)) s
      else storeChar n ⟨false, c.fe, c.pe && decide (getBits (formatOf s n c.old).1 27 26 ≠ 0), false, false, false⟩ c.data s := by
  unfold receiveChar
  rw [hon, if_neg (by decide)]
  dsimp only
  rw [h7, if_neg (Nat.not_le.2 hn)]
  rfl

/-! Sending (R455, R456). -/

theorem setSerial_cmd (p : Page) (n : Nat) (x : SerSt) (s : State) : CmdKept p s (setSerial n x s) := .upd rfl rfl

theorem setSerial_field (q : Page) (g : Field) (j n : Nat) (x : SerSt) (s : State) : FieldKept q g j s (setSerial n x s) := .upd rfl

/-- A field of STATUS, or of another register of a list, set. -/
theorem RegsBut.setField {l : List Nat} {s t : State} {p : Page} {f : Field} {o : Nat} (h : RegsBut l s t) (b : Bool) (hf : f.off = o) (hl : addr p o ∈ l) :
    RegsBut l s (Machine.setB p f b t) := h.setB b (by rw [hf]; exact hl)

theorem setSerial_regs (l : List Nat) (n : Nat) (x : SerSt) (s : State) : RegsBut l s (setSerial n x s) := (RegsBut.refl l s).upd rfl

/-- With nothing outstanding no break starts. -/
theorem startBreak_none {n : Serial} {s : State} (h : outstanding s (.ser n) = none) : startBreak n s = s ∧ breakDue s n = false := by
  unfold startBreak breakDue
  rw [h]
  exact ⟨rfl, rfl⟩

/-- The sender's state once the character it sent has left. -/
def sentOut (n : Serial) (s : State) : State := setB (.ser n) SER_STATUS.TX_IDLE true (setSerial n.val { serial s n.val with shift := none } s)

theorem sentOut_effect (n : Serial) (s : State) : serial (sentOut n s) n.val = { serial s n.val with shift := none } ∧ CmdKept (.ser n) s (sentOut n s) ∧
    RegsBut [addr (.ser n) offStatus] s (sentOut n s) ∧ isSet (sentOut n s) (.ser n) SER_STATUS.HELD = isSet s (.ser n) SER_STATUS.HELD := by
  refine ⟨?_, (setSerial_cmd _ _ _ s).trans (.setB _ _ _ (.inr (by decide))), (setSerial_regs _ _ _ _).setB _ (.head _), ?_⟩
  · exact (serial_congr (ser_setB _ _ _ _) _).trans (serial_setSerial_self _ _ _)
  · exact (((setSerial_field (.ser n) SER_STATUS.HELD 0 _ _ s)).setB _ _ _ (by decide) (.inr (by decide))).isSet

theorem shiftLoad_eq (n : Serial) (s : State) : shiftLoad n false s =
    match (serial s n.val).hold with
    | some d =>
      if !serialOn s || !isSet s (.ser n) SER_CFG.EN || (isSet (sentOut n s) (.ser n) SER_STATUS.HELD && isSet (sentOut n s) (.ser n) SER_CFG.FLOW) || (serial s n.val).low ||
          breakDue (sentOut n s) n then startBreak n (sentOut n s)
      else raise (.ser n) SER_INT.TX_EMPTY (setB (.ser n) SER_STATUS.TX_EMPTY true
        (sendChar n d (setSerial n.val { serial (sentOut n s) n.val with hold := none } (sentOut n s))))
    | none => startBreak n (sentOut n s) := by
  unfold shiftLoad sentOut
  rfl

theorem sendChar_effect (n : Serial) (d : Byte) (s : State) : serial (sendChar n d s) n.val = { serial s n.val with shift := some d } := by
  unfold sendChar
  exact (serial_congr ((ser_emit _ _).trans (ser_setB _ _ _ _)) _).trans (serial_setSerial_self _ _ _)

/-- A character that waits goes to the shifter when nothing holds the port. -/
theorem shiftLoad_sends {n : Serial} {d : Byte} {s : State} (hout : outstanding s (.ser n) = none) (hhold : (serial s n.val).hold = some d) (hon : serialOn s = true)
    (hen : isSet s (.ser n) SER_CFG.EN = true) (hheld : isSet s (.ser n) SER_STATUS.HELD = false) (hlow : (serial s n.val).low = false) :
    let t := shiftLoad n false s
    (serial t n.val).shift = some d ∧ (serial t n.val).hold = none ∧ isSet t (.ser n) SER_STATUS.TX_EMPTY = true ∧ intOf t (.ser n) SER_INT.TX_EMPTY = true := by
  obtain ⟨_, h2, _, h4⟩ := sentOut_effect n s
  have hdue : breakDue (sentOut n s) n = false := (startBreak_none (h2.out.trans hout)).2
  have e := shiftLoad_eq n s
  rw [hhold] at e
  dsimp only at e
  rw [hon, hen, h4, hheld, hlow, hdue, Bool.false_and, if_neg (by decide)] at e
  have hz : (serial (setSerial n.val { serial (sentOut n s) n.val with hold := none } (sentOut n s)) n.val).hold = none := congrArg SerSt.hold (serial_setSerial_self _ _ _)
  generalize setSerial n.val { serial (sentOut n s) n.val with hold := none } (sentOut n s) = z at hz e
  have hser := sendChar_effect n d z
  generalize sendChar n d z = y at hser e
  intro t
  have ht : t = shiftLoad n false s := rfl
  clear_value t
  rw [e] at ht
  subst ht
  rw [serial_congr (ser_raise _ _ _), serial_congr (ser_setB _ _ _ _), hser]
  refine ⟨rfl, hz, ?_, intOf_raise _ _ _ (by decide)⟩
  exact ((FieldKept.refl (q := .ser n) (g := SER_STATUS.TX_EMPTY) (j := 0) _).raise _ _ (by decide)).isSet.trans (isSet_setB_self _ _ _ _ (by decide))

/-! SEND_BREAK (R460). -/

theorem startBreak_effect {n : Serial} {o : Outstanding} {s : State} (h : Issued s (.ser n) o) (hp : o.phase = 0) :
    getBits (reg (startBreak n s) (addr (.ser n) offCmdStat)) 31 31 = 1 ∧ (outstanding (startBreak n s) (.ser n)).isSome = true ∧
    ((serial s n.val).shift = none → (serial s n.val).hold = none → (serial (startBreak n s) n.val).low = true) := by
  have hset : ∀ x, outstanding (setSerial n.val x s) (.ser n) = some o := fun x => (setSerial_cmd _ _ _ s).out.trans h.out
  unfold startBreak
  rw [h.out]
  dsimp only
  split
  next hdue =>
    generalize hz : setSerial n.val { serial s n.val with low := true } s = z
    have hlow : (serial z n.val).low = true := by
      rw [← hz]
      exact congrArg SerSt.low (serial_setSerial_self _ _ _)
    have hout : outstanding z (.ser n) = some o := by
      rw [← hz]
      exact hset _
    have hreg : ∀ a, reg z a = reg s a := fun a => by
      rw [← hz]
      rfl
    have he : ∀ (e : Emit) (u : State), outstanding (emit e u) (.ser n) = outstanding u (.ser n) ∧ (emit e u).ser = u.ser ∧ ∀ a, reg (emit e u) a = reg u a := fun e u => ⟨rfl, rfl, fun a => rfl⟩
    have hph : (setPhase (.ser n) 1 z).regs = z.regs := (setPhase_records _ _ _).2
    refine ⟨?_, ?_, fun _ _ => ?_⟩
    · rw [(he _ _).2.2]
      unfold reg
      rw [hph]
      exact (congrArg (fun w => getBits w 31 31) (hreg _)).trans h.busy
    · rw [(he _ _).1, outstanding_setPhase hout]
      rfl
    · rw [serial_congr (he _ _).2.1, serial_congr ((setPhase_within (m := 0x4000000) .refl _ _ rfl).same .ser rfl)]
      exact hlow
  next hdue =>
    refine ⟨h.busy, by rw [h.out]; rfl, fun h1 h2 => absurd ?_ hdue⟩
    unfold breakDue
    dsimp only
    rw [h.out, h1, h2, Option.any_some, hp]
    rfl

/-- A character taken from the receive register, which is empty then. -/
def charTaken (n : Serial) (s : State) : State := setB (.ser n) SER_STATUS.RX_FULL false (setReg (addr (.ser n) SER_RX.VALID.off) 0 s)

theorem charTaken_effect (n : Serial) (s : State) : isSet (charTaken n s) (.ser n) SER_STATUS.RX_FULL = false ∧ reg (charTaken n s) (addr (.ser n) SER_RX.VALID.off) = 0 ∧
    RegsBut [addr (.ser n) offStatus, addr (.ser n) SER_RX.VALID.off] s (charTaken n s) := by
  refine ⟨isSet_setB_self _ _ _ _ (by decide), ?_, RegsBut.setField ((RegsBut.refl _ s).setReg _ (.tail _ (.head _))) _ rfl (.head _)⟩
  exact (reg_setI_split _ _ (.inr (by decide))).trans (reg_setReg_self _ _ _)

theorem serRxRead_eq (n : Serial) (b : Bool) (s : State) : exec (.serRxRead n b) s = .next (if b then (if tarlumOwns s n then charTaken n s else s)
    else if tarlumOwns s n then returnWord 0 s else returnWord (reg s (addr (.ser n) SER_RX.VALID.off)) (charTaken n s)) := rfl

theorem legal_div {x : Nat} (h1 : 1 ≤ x) (h2 : x < 2 ^ 16) : SER_DIV.DIV.legal.ok SER_DIV.DIV.width x = true := by
  show (decide (1 ≤ x) && decide (x ≤ 65535)) = true
  rw [decide_eq_true h1, decide_eq_true (by omega : x ≤ 65535)]
  rfl

/-- A new divisor, with the format before it kept for the character on the line (R455). -/
def divWritten (n : Serial) (v : Word) (s : State) : State :=
  writeRw (.ser n) SER_DIV.DIV.off v (setSerial n.val { serial s n.val with oldCfg := (formatOf s n false).1, oldDiv := (formatOf s n false).2 } s)

theorem serDivWrite_eq (n : Serial) (v : Word) (s : State) : exec (.serDivWrite n false v) s = .next (if tarlumOwns s n then countErr (.ser n) s
    else if n.val = 1 ∧ getBits v 15 0 < 54 then countErr (.ser n) s else divWritten n v s) := by
  show Host.Outcome.next (if tarlumOwns s n then countErr (.ser n) s else if (!false) = true ∧ n.val = 1 ∧ getBits v 15 0 < 54 then countErr (.ser n) s else divWritten n v s) = _
  simp only [Bool.not_false, true_and]

theorem divWritten_effect (n : Serial) (v : Word) (s : State) : (serial (divWritten n v s) n.val).oldDiv = reg s (addr (.ser n) SER_DIV.DIV.off) ∧
    (serial (divWritten n v s) n.val).oldCfg = reg s (addr (.ser n) SER_CFG.EN.off) ∧
    (54 ≤ getBits v 15 0 → getF (divWritten n v s) (.ser n) SER_DIV.DIV = getBits v 15 0) := by
  unfold divWritten
  generalize hz : setSerial n.val { serial s n.val with oldCfg := (formatOf s n false).1, oldDiv := (formatOf s n false).2 } s = z
  have hser : (serial z n.val).oldDiv = reg s (addr (.ser n) SER_DIV.DIV.off) ∧ (serial z n.val).oldCfg = reg s (addr (.ser n) SER_CFG.EN.off) := by
    rw [← hz, serial_setSerial_self]
    exact ⟨rfl, rfl⟩
  have hw : (writeRw (.ser n) SER_DIV.DIV.off v z).ser = z.ser :=
    (writeRw_within (m := 0x20000020000080) .refl (.ser n) SER_DIV.DIV.off v rfl (by rw [pageBit_ser]; rfl)).same .ser rfl
  refine ⟨by rw [serial_congr hw]; exact hser.1, by rw [serial_congr hw]; exact hser.2, fun h54 => ?_⟩
  have hfields : fieldsApart ((fieldsAt .ser 0x104).filter (fun f => decide (f.acc = .rw))) := ⟨by decide, by decide⟩
  obtain ⟨hf, _⟩ := writeFold_effect (p := .ser n) (o := 0x104) (by decide) (by decide) v _ z hfields
  refine (hf SER_DIV.DIV (by decide)).trans (if_pos ?_)
  have hlt : getBits v 15 0 < 2 ^ 16 := getBits_lt v 15 0
  exact legal_div (x := getBits v 15 0) (by omega) hlt

/-- A line that stays low is stuck: shown, logged, and the receiver off (R458). -/
theorem lineStuck_effect (n : Serial) (s : State) :
    let t := logPage (.ser n) SER_INT.LINE_STUCK [] (raise (.ser n) SER_INT.LINE_STUCK (setF (.ser n) SER_BRK_LEN.LEN 65535 (setB (.ser n) SER_BRK_LEN.SAT true
      (setB (.ser n) SER_STATUS.LINE_STUCK true s))))
    isSet t (.ser n) SER_STATUS.LINE_STUCK = true ∧ getF t (.ser n) SER_BRK_LEN.LEN = 65535 ∧ receiverOn t n = false ∧
      (LogRoom s → Logged t (0x0800 + SER_INT.LINE_STUCK) n.val []) := by
  have hlog : ∀ (g : Field) (u : State), FieldKept (.ser n) g 0 u (logPage (.ser n) SER_INT.LINE_STUCK [] u) := fun g u =>
    .within (q := .ser n) (logPage_within (m := 0x20000028000020) .refl _ _ _ rfl) (show Nat.testBit _ 7 = false from rfl)
  have hraise : ∀ (g : Field) (u : State), decide (g.offAt 0 % 0x1000 ≠ offIntStat) = true → FieldKept (.ser n) g 0 u (raise (.ser n) SER_INT.LINE_STUCK u) := fun g u hg =>
    (FieldKept.refl u).raise _ _ hg
  dsimp only
  generalize hz : setF (.ser n) SER_BRK_LEN.LEN 65535 (setB (.ser n) SER_BRK_LEN.SAT true (setB (.ser n) SER_STATUS.LINE_STUCK true s)) = z
  have hstuck : isSet z (.ser n) SER_STATUS.LINE_STUCK = true := by
    rw [← hz]
    refine (((FieldKept.refl _).setB _ _ _ (by decide) (.inr (by decide))).setF _ _ _ (by decide) (.inr (by decide))).isSet.trans ?_
    exact isSet_setB_self _ _ _ _ (by decide)
  have hlen : getF z (.ser n) SER_BRK_LEN.LEN = 65535 := by
    rw [← hz]
    exact getF_setF_self _ _ _ _ (by decide)
  have hlogz : z.log = s.log := by rw [← hz, log_setF, log_setB, log_setB]
  have hs2 := ((hraise SER_STATUS.LINE_STUCK z (by decide)).trans (hlog _ _)).isSet.trans hstuck
  refine ⟨hs2, ((hraise SER_BRK_LEN.LEN z (by decide)).trans (hlog _ _)).getF.trans hlen, ?_, fun hr => ?_⟩
  · unfold receiverOn
    rw [hs2, Bool.not_true, Bool.and_false, Bool.false_and]
  · have h : Logged (logPage (.ser n) SER_INT.LINE_STUCK [] (raise (.ser n) SER_INT.LINE_STUCK z)) (pageType .ser % 256 * 256 + SER_INT.LINE_STUCK) n.val [] :=
      logPage_logged (hr.upd ((log_raise _ _ _).trans hlogz)) (.ser n) _ _
    exact h

/-- Settles O56: each event of a port by the registers it sets, the receive register and the sender by the cases of their lemmas. -/
theorem serialPorts : Obligations.SerialPorts := by
  unfold Obligations.SerialPorts
  refine ⟨fun n c s h => ?_, fun n c s hon hn h29 h25 => ?_, fun n c s hon hn h28 hfe hd => ?_, fun n s => ?_, fun n s => ?_, fun n v b s => ?_, fun n d s hout hhold hon hen hheld hlow => ?_,
    fun n s hout hhold => ?_, fun n v s => ?_, fun n s => ?_, fun n s => ?_, fun n s => ?_, fun n src s ht => ?_⟩
  · exact congrArg Host.Outcome.next (if_pos (by rw [h]; rfl))
  · refine Yields.intro rfl ?_
    have h1 : getBits (formatOf s n c.old).1 28 28 ≠ 1 ∧ getBits (formatOf s n c.old).1 29 29 ≠ 1 := by
      unfold getBits at h29 ⊢
      rw [Nat.shiftRight_eq_div_pow] at h29 ⊢
      rw [Nat.shiftRight_eq_div_pow]
      omega
    have e : receiveChar n c s = storeChar n ⟨false, c.fe, c.pe && decide (getBits (formatOf s n c.old).1 27 26 ≠ 0), false, false, false⟩ c.data s := by
      rw [receiveChar_plain hon hn h25, if_neg (fun h => h1.1 h.1), if_neg h1.2]
    rw [e]
    exact storeChar_effect n _ _ _ s
  · refine Yields.intro rfl ?_
    have h1 : getBits (formatOf s n c.old).1 28 28 = 1 ∧ getBits (formatOf s n c.old).1 25 25 = 0 ∧ getBits (formatOf s n c.old).1 27 26 = 0 := by
      unfold getBits at h28 ⊢
      simp only [Nat.shiftRight_eq_div_pow] at h28 ⊢
      omega
    rw [receiveChar_plain hon hn h1.2.1, h1.2.2, if_pos ⟨h1.1, hfe, by rw [decide_eq_false (not_not.2 rfl), Bool.and_false], hd⟩]
    exact ⟨isSet_setB_self _ _ _ _ (by decide), (RegsBut.refl _ s).setB _ (.head _)⟩
  · obtain ⟨h1, h2, h3⟩ := charTaken_effect n s
    cases ho : tarlumOwns s n
    · refine Yields.intro (t := returnWord (reg s (addr (.ser n) SER_RX.VALID.off)) (charTaken n s)) ?_ ⟨h1, h2, h3, fun _ => rfl⟩
      rw [serRxRead_eq, ho, if_neg (by decide), if_neg (by decide)]
    · refine Yields.intro (t := charTaken n s) ?_ ⟨h1, h2, h3, fun h => by cases h⟩
      rw [serRxRead_eq, ho, if_pos rfl, if_pos rfl]
  · cases ho : tarlumOwns s n
    · refine Yields.intro (t := s) ?_ ⟨.refl _ s, fun h => by cases h⟩
      rw [serRxRead_eq, ho, if_pos (by decide), if_neg (by decide)]
    · refine Yields.intro (t := returnWord 0 s) ?_ ⟨(RegsBut.refl _ s).upd rfl, fun _ => rfl⟩
      rw [serRxRead_eq, ho, if_neg (by decide), if_pos rfl]
  · have herr : (countErr (.ser n) s).ser = s.ser ∧ RegsBut [addr (.ser n) offErrCnt, addr (.ser n) offIntStat] s (countErr (.ser n) s) :=
      ⟨ser_countErr _ _, RegsBut.countErr (.refl _ s) (.tail _ (.head _)) (.head _)⟩
    have hnone : s.ser = s.ser ∧ RegsBut [addr (.ser n) offErrCnt, addr (.ser n) offIntStat] s s := ⟨rfl, .refl _ s⟩
    by_cases hb : b = tarlumOwns s n
    · refine Yields.branch (c := isSet s (.ser n) SER_STATUS.TX_EMPTY = true) (x := setB (.ser n) SER_STATUS.TX_EMPTY false
        (setSerial n.val { serial s n.val with hold := some (BitVec.ofNat 8 (getBits v 7 0)) } s)) (y := countErr (.ser n) s) ?_ (by simp [hb]) (fun _ => ⟨?_, ?_, ?_⟩) (fun _ => herr)
      · exact congrArg Host.Outcome.next (if_neg (not_not.2 hb))
      · rw [serial_congr (ser_setB _ _ _ _), serial_setSerial_self]
      · exact isSet_setB_self _ _ _ _ (by decide)
      · exact RegsBut.setField (setSerial_regs _ _ _ _) _ rfl (.head _)
    · refine Yields.intro (t := if b = true then s else countErr (.ser n) s) (congrArg Host.Outcome.next (if_pos hb)) ?_
      rw [if_neg (fun h => hb h.1)]
      cases b
      · exact herr
      · exact hnone
  · exact Yields.intro rfl (shiftLoad_sends hout hhold hon hen hheld hlow)
  · obtain ⟨h1, h2, h3, _⟩ := sentOut_effect n s
    have hout1 : outstanding (sentOut n s) (.ser n) = none := h2.out.trans hout
    have e : shiftLoad n false s = sentOut n s := by
      rw [shiftLoad_eq, hhold]
      exact (startBreak_none hout1).1
    refine Yields.intro (congrArg Host.Outcome.next e) ⟨by rw [h1], isSet_setB_self _ _ _ _ (by decide), h3⟩
  · have herr : (countErr (.ser n) s).ser = s.ser ∧ RegsBut [addr (.ser n) offErrCnt, addr (.ser n) offIntStat] s (countErr (.ser n) s) :=
      ⟨ser_countErr _ _, RegsBut.countErr (.refl _ s) (.tail _ (.head _)) (.head _)⟩
    by_cases hown : tarlumOwns s n = true
    · refine Yields.intro (t := countErr (.ser n) s) ?_ ((if_pos (.inl hown)).mpr herr)
      rw [serDivWrite_eq, if_pos hown]
    · refine Yields.branch (c := n.val = 1 ∧ getBits v 15 0 < 54) (x := countErr (.ser n) s) ?_ (by simp [hown]) (fun _ => herr) (fun _ => divWritten_effect n v s)
      rw [serDivWrite_eq, if_neg hown]
  · refine Yields.guardNot (c := (!receiverOn s n || isSet s (.ser n) SER_STATUS.BREAK_ACTIVE) = true) rfl ?_ (fun _ => ⟨?_, intOf_raise _ _ _ (by decide), ?_⟩)
    · cases receiverOn s n <;> cases isSet s (.ser n) SER_STATUS.BREAK_ACTIVE <;> simp
    · exact ((FieldKept.refl (q := .ser n) (g := SER_STATUS.BREAK_ACTIVE) (j := 0) _).raise _ _ (by decide)).isSet.trans (isSet_setB_self _ _ _ _ (by decide))
    · refine RegsBut.raise ?_ _ (.tail _ (.head _))
      exact RegsBut.setField (.refl _ s) _ rfl (.head _)
  · refine Yields.guardNot (c := (!isSet s (.ser n) SER_STATUS.BREAK_ACTIVE || isSet s (.ser n) SER_STATUS.LINE_STUCK) = true) rfl ?_ (fun _ => ?_)
    · cases isSet s (.ser n) SER_STATUS.BREAK_ACTIVE <;> cases isSet s (.ser n) SER_STATUS.LINE_STUCK <;> simp
    · exact lineStuck_effect n s
  · refine Yields.guardNot (c := (!isSet s (.ser n) SER_STATUS.LINE_STUCK) = true) rfl (by cases isSet s (.ser n) SER_STATUS.LINE_STUCK <;> simp) (fun _ => ⟨?_, ?_, intOf_raise _ _ _ (by decide)⟩)
    · refine ((FieldKept.refl (q := .ser n) (g := SER_STATUS.LINE_STUCK) (j := 0) _).raise _ _ (by decide)).isSet.trans ?_
      exact (isSet_setB_split _ _ _ (by decide)).trans (isSet_setB_self _ _ _ _ (by decide))
    · exact ((FieldKept.refl (q := .ser n) (g := SER_STATUS.BREAK_ACTIVE) (j := 0) _).raise _ _ (by decide)).isSet.trans (isSet_setB_self _ _ _ _ (by decide))
  · refine Yields.issue rfl ht (fun u hu => ?_)
    have hser : u.ser = s.ser := hu.within.same .ser (by rw [pageBit_ser]; rfl)
    have hown : tarlumOwns u n = tarlumOwns s n := (hu.field (q := .ser n) (by simp) (by decide)).isSet
    obtain ⟨h1, h2, h3⟩ := startBreak_effect hu.issued (latch_phase _ _ _ _)
    rw [serial_congr hser] at h3
    unfold runSendBreak
    dsimp only
    rw [hown]
    split
    · exact ⟨hu.done (by decide) 0, (ser_done _ _ _).trans hser⟩
    · split
      · exact ⟨hu.done (by decide) 0, (ser_done _ _ _).trans hser⟩
      · exact ⟨h1, h2, h3⟩

end Sys2Proof.Machine
end

section
/-! PROOFS. The rings of the host: doorbells, messages, deliveries and RING_RESET (R377, R378, R380, R383, R385, R387, R389). -/

namespace Sys2Proof.Machine

theorem ring_setRing_self (r : Nat) (x : RingSt) (s : State) : ring (setRing r x s) r = x := Map.get_set_self _ _ _

theorem ring_setRing_other {k r : Nat} (h : k ≠ r) (x : RingSt) (s : State) : ring (setRing r x s) k = ring s k :=
  Map.get_set_other _ _ h

theorem ring_congr {s t : State} (h : t.rings = s.rings) (r : Nat) : ring t r = ring s r := by
  unfold ring
  rw [h]

theorem sendVector_rings (v : Nat) (s : State) : (sendVector v s).rings = s.rings := by
  unfold sendVector
  split <;> rfl

theorem sendVector_emits (v : Nat) (s : State) : (sendVector v s).emits.length ≤ s.emits.length + 1 := by
  unfold sendVector
  split
  · exact Nat.le_succ _
  · exact le_of_eq rfl

/-! An error of a ring (R385). -/

theorem testBit_mod_word (m r : Nat) (h : r < 32) : ((m ||| 2 ^ r) % 2 ^ 32).testBit r = true := by
  rw [Nat.testBit_mod_two_pow, Nat.testBit_or, Nat.testBit_two_pow_self, decide_eq_true h, Bool.or_true, Bool.and_true]

/-- An error is shown, raised and logged, in PCI's registers and the log's. -/
theorem ringError_effect {r : Nat} (h : r < 32) (s : State) : ringErr (ringError r s) r = true ∧ intOf (ringError r s) .pci PCI_INT.RING_ERROR = true := by
  unfold ringError
  extract_lets m
  obtain ⟨z, hz⟩ : ∃ z, setF .pci PCI_RING_ERR.ERR (m ||| 2 ^ r) s = z := ⟨_, rfl⟩
  rw [hz]
  obtain ⟨y, hy⟩ : ∃ y, raise .pci PCI_INT.AER (raise .pci PCI_INT.RING_ERROR z) = y := ⟨_, rfl⟩
  rw [hy]
  have hw : Within 0x20000028000020 y (logPage .pci PCI_INT.RING_ERROR [r] y) := logPage_within .refl _ _ _ rfl
  have hbit : getF y .pci PCI_RING_ERR.ERR = (m ||| 2 ^ r) % 2 ^ 32 := by
    rw [← hy, ← hz]
    exact (getI_raise _ _ _ _ _ _ (by decide)).trans ((getI_raise _ _ _ _ _ _ (by decide)).trans (getF_setF_self _ _ _ _ (by decide)))
  constructor
  · unfold ringErr
    rw [hw.getF_addr .pci _ rfl, hbit]
    exact testBit_mod_word m r h
  · rw [hw.intOf_addr .pci _ rfl, ← hy]
    exact intOf_raise_mono _ _ _ _ _ (intOf_raise _ _ _ (by decide))

/-! What goes to a completion queue leaves both indices of the host. -/

/-- The two indices that the host writes by doorbells. -/
def HostIndices (r : Nat) (s t : State) : Prop := (ring t r).sqProd = (ring s r).sqProd ∧ (ring t r).cqCons = (ring s r).cqCons

theorem HostIndices.trans {r : Nat} {s t u : State} (h : HostIndices r s t) (k : HostIndices r t u) : HostIndices r s u :=
  ⟨k.1.trans h.1, k.2.trans h.2⟩

theorem HostIndices.congr {r : Nat} {s t : State} (h : t.rings = s.rings) : HostIndices r s t := by
  unfold HostIndices
  rw [ring_congr h]
  exact ⟨rfl, rfl⟩

theorem HostIndices.setRing {r : Nat} {s : State} {x : RingSt} (h1 : x.sqProd = (ring s r).sqProd) (h2 : x.cqCons = (ring s r).cqCons) : HostIndices r s (setRing r x s) := by
  unfold HostIndices
  rw [ring_setRing_self]
  exact ⟨h1, h2⟩

theorem ringMessage_indices (r : Nat) (s : State) : HostIndices r s (ringMessage r s) :=
  HostIndices.trans (t := setRing r { ring s r with pend := 0 } s) (.setRing rfl rfl) (.congr (sendVector_rings _ _))

theorem writeCq_indices (r : Nat) (e : CqEntry) (s : State) : HostIndices r s (writeCq r e s) := by
  unfold writeCq
  extract_lets n size s1 p src s2
  have h1 : HostIndices r s s1 := .congr (rings_setI _ _ _ _ _)
  have h2 : HostIndices r s s2 := h1.trans (.setRing rfl rfl)
  split
  · exact h2.trans (ringMessage_indices r s2)
  · exact h2

theorem drainRing_indices (r : Nat) : ∀ (n : Nat) (s : State), HostIndices r s (drainRing r n s)
  | 0, s => .congr rfl
  | n + 1, s => by
    unfold drainRing
    split
    · exact .congr rfl
    · split
      · refine .trans ?_ (drainRing_indices r n _)
        refine .trans ?_ (writeCq_indices _ _ _)
        exact .setRing rfl rfl
      · exact .congr rfl

/-! Deliveries. -/

/-- A delivery takes the entry posted: the consumer index of the ring moves by one. -/
theorem ulComplete_taken (r kind cookie : Nat) (f : UlFrame) (hr : r < 16) (s : State) :
    getI (ulComplete r kind cookie f s) .pci PCI_RING.SQ_CONS (16 + r) = (getI s .pci PCI_RING.SQ_CONS (16 + r) + 1) % 2 ^ 32 := by
  have hcnt : ∀ i : Fin 16, fieldsSplit PCI_UL_DONE_CNT.COUNT PCI_RING.SQ_CONS 0 (16 + i.val) = true := by decide
  have hring : ∀ i : Fin 16, fieldsSplit PCI_RING.CQ_PROD PCI_RING.SQ_CONS (16 + i.val) (16 + i.val) = true := by decide
  unfold ulComplete
  refine Eq.trans (FieldKept.count (.refl _) .pci _ (by decide) (.inr (hcnt ⟨r, hr⟩))) (Eq.trans (ringComplete_field (.inr (hring ⟨r, hr⟩)) _ _) ?_)
  unfold takeEntry
  rw [getI_setI_self _ _ _ _ _ (by decide)]
  exact Nat.mod_mod _ _

theorem ulDelivery_effect {r : Nat} (hr : r < 16) (k : Nat) {s : State} (hp : ringPosted s (16 + r) = true) {f : UlFrame}
    (hf : s.link.hold.find? (fun f => decide (ulRing s f.index = r)) = some f) :
    (ulDelivery r k s).link.hold = s.link.hold.erase f ∧ getF (ulDelivery r k s) .pci PCI_UL_DONE_CNT.COUNT = min (getF s .pci PCI_UL_DONE_CNT.COUNT + 1) 0xFFFFFFFF ∧
      getI (ulDelivery r k s) .pci PCI_RING.SQ_CONS (16 + r) = (getI s .pci PCI_RING.SQ_CONS (16 + r) + 1) % 2 ^ 32 := by
  unfold ulDelivery
  split
  next e => cases hf.symm.trans e
  next f' e =>
  cases hf.symm.trans e
  rw [if_pos hp]
  exact ⟨by rw [(ulComplete_within (m := 0x20000030000800) .refl _ _ _ _ rfl).same .link rfl]; rfl, ulComplete_counted hr _ _ _ _, ulComplete_taken _ _ _ _ hr _⟩

theorem eventRoom_congr {s t : State} (hr : t.regs = s.regs) (hq : t.rings = s.rings) : eventRoom t = eventRoom s := by
  have hp : ∀ f i, getI t .pci f i = getI s .pci f i := fun f i => FieldKept.upd hr
  unfold eventRoom ringUp ringRoom ringSize ringErr
  rw [hp, hp, hp, ring_congr hq, show getF t .pci PCI_RING_ERR.ERR = getF s .pci PCI_RING_ERR.ERR from hp _ _]

/-- The oldest event leaves; without room for it, it is counted as lost (R380). -/
theorem eventDelivery_effect {s : State} (h0 : (ring s 28).lost = 0) : (s.link.events = [] → eventDelivery s = s) ∧ (eventDelivery s).link.events = s.link.events.tail ∧
    (s.link.events ≠ [] → eventRoom s = false → (ring (eventDelivery s) 28).lost = 1 ∧ intOf (eventDelivery s) .pci PCI_INT.EVENT_LOST = true ∧
      getF (eventDelivery s) .pci PCI_EVT_LOST_CNT.COUNT = min (getF s .pci PCI_EVT_LOST_CNT.COUNT + 1) 0xFFFFFFFF) := by
  have hw : writeLost s = s := by
    unfold writeLost
    exact if_pos (.inl h0)
  unfold eventDelivery
  extract_lets s1
  have e1 : s1 = s := hw
  clear_value s1
  subst e1
  split
  next e => exact ⟨fun _ => rfl, by rw [e]; rfl, fun h => absurd e h⟩
  next ev rest e =>
  extract_lets s2 x s3
  have hroom : eventRoom s2 = eventRoom s1 := eventRoom_congr rfl rfl
  have hlink : s2.link.events = s1.link.events.tail := by rw [e]; rfl
  by_cases hr : eventRoom s2 = true
  · rw [if_pos hr]
    exact ⟨fun h => (by cases e.symm.trans h), ((congrArg (·.events) ((ringComplete_within (m := 0x20000030000800) (Within.refl (s := s2)) _ _ rfl).same .link rfl)).trans hlink),
      fun _ h => absurd (hroom.symm.trans hr) (by rw [h]; exact Bool.false_ne_true)⟩
  · rw [if_neg hr]
    obtain ⟨y, hy⟩ : ∃ y, raise .pci PCI_INT.EVENT_LOST s3 = y := ⟨_, rfl⟩
    rw [hy]
    have hl : Within 0x20000028000020 y (logPage .pci PCI_INT.EVENT_LOST [ev.code, ev.sfn, ev.index, ev.epId / 2 ^ 32, ev.epId % 2 ^ 32, ev.reason] y) :=
      logPage_within .refl _ _ _ rfl
    refine ⟨fun h => (by cases e.symm.trans h), ?_, fun _ _ => ⟨?_, ?_, ?_⟩⟩
    · rw [hl.same .link rfl, ← hy, link_raise]
      unfold s3
      rw [link_count]
      exact hlink
    · rw [ring_congr (hl.same .rings rfl), ← hy, ring_congr (rings_raise _ _ _), ring_congr (rings_count _ _ _), ring_setRing_self]
      show (ring s2 28).lost + 1 = 1
      rw [ring_congr (t := s2) (s := s1) rfl, h0]
    · rw [hl.intOf_addr .pci _ rfl, ← hy]
      exact intOf_raise _ _ _ (by decide)
    · rw [hl.getF_addr .pci _ rfl, ← hy]
      exact (getI_raise _ _ _ _ _ _ (by decide)).trans (count_min .pci PCI_EVT_LOST_CNT.COUNT (by decide) (by decide) (setRing 28 { x with lost := x.lost + 1 } s2))

/-! RING_RESET (R389). -/

/-- A value that a table lists is changed with the rest, unless the change removes it. -/
theorem Map.get_mapVals {α : Type} [DecidableEq α] {d : Nat → α} (f : α → α) {k : Nat} : ∀ (m : List (Nat × α)), Map.get d m k ≠ d k → f (Map.get d m k) ≠ d k →
    Map.get d (Map.mapVals d f m) k = f (Map.get d m k)
  | [], h, _ => absurd rfl h
  | (j, v) :: m, h, hf => by
    have ih := Map.get_mapVals (d := d) f m (k := k)
    have hcons : Map.mapVals d f ((j, v) :: m) = if f v ≠ d j then (j, f v) :: Map.mapVals d f m else Map.mapVals d f m := by
      unfold Map.mapVals
      rw [List.map_cons, List.filter_cons]
      simp only [decide_eq_true_eq]
    have hget : ∀ (w : α) (l : List (Nat × α)), Map.get d ((j, w) :: l) k = if j = k then w else Map.get d l k := fun _ _ => rfl
    rw [hget] at h hf ⊢
    rw [hcons]
    by_cases hj : j = k
    · rw [if_pos hj] at h hf ⊢
      rw [if_pos (by rw [hj]; exact hf), hget, if_pos hj]
    · rw [if_neg hj] at h hf ⊢
      split
      · rw [hget, if_neg hj, ih h hf]
      · exact ih h hf

/-- The command that stands when ring r is given up. -/
def Outstanding.loseRing (r : Nat) (o : Outstanding) : Outstanding :=
  { o with origin := o.origin.map (fun g => if g.ring = r then { g with lost := true } else g) }

theorem outstanding_loseRing {s : State} {p : Page} {o : Outstanding} (h : outstanding s p = some o) (r : Nat) :
    outstanding (loseRing r s) p = some (o.loseRing r) := by
  have hout : (slotOf s p).out = some o := h
  have hne : slotOf s p ≠ CmdSlot.empty := fun e => by rw [e] at hout; cases hout
  have e : slotOf (loseRing r s) p = { slotOf s p with out := (slotOf s p).out.map (Outstanding.loseRing r) } :=
    Map.get_mapVals (d := fun _ => CmdSlot.empty) (fun c => { c with out := c.out.map (Outstanding.loseRing r) }) s.cmds hne
      (fun e => by have e2 := congrArg CmdSlot.out e; rw [show Map.get (fun _ => CmdSlot.empty) s.cmds (pageNumber p) = slotOf s p from rfl] at e2; simp [hout] at e2; cases e2)
  unfold outstanding
  rw [e, hout]
  rfl

/-- A ring given up is disabled and empty, and the command of PCI stands. -/
theorem killRing_effect {r : Nat} (hr : r < 29) (s : State) : getI (killRing r s) .pci PCI_RING.EN r = 0 ∧ getI (killRing r s) .pci PCI_RING.SQ_CONS r = 0 ∧
    ring (killRing r s) r = RingSt.empty ∧ outstanding (killRing r s) .pci = outstanding s .pci := by
  have hen : ∀ i : Fin 29, fieldsSplit PCI_RING.EN PCI_RING.SQ_CONS i.val i.val = true := by decide
  have herr : ∀ i : Fin 29, fieldsSplit PCI_RING_ERR.ERR PCI_RING.SQ_CONS 0 i.val = true := by decide
  have hlost : ∀ i : Fin 29, fieldsSplit PCI_CMPL_LOST_CNT.COUNT PCI_RING.SQ_CONS 0 i.val = true := by decide
  refine ⟨(killRing_en hr hr s).trans (if_pos rfl), ?_, ?_, ?_⟩
  · unfold killRing
    extract_lets n p s1 s2
    have h1 : getI s1 .pci PCI_RING.SQ_CONS r = 0 :=
      Eq.trans (FieldKept.setI (.refl _) .pci PCI_RING.EN r 0 (by decide) (.inr (hen ⟨r, hr⟩))) (getI_setI_self _ _ _ _ _ (by decide))
    have h2 : FieldKept .pci PCI_RING.SQ_CONS r s1 s2 := FieldKept.setF (.refl _) _ _ _ (by decide) (.inr (herr ⟨r, hr⟩))
    exact Eq.trans (FieldKept.setF h2 _ _ _ (by decide) (.inr (hlost ⟨r, hr⟩))) h1
  · unfold killRing countN
    extract_lets n p s1 s2
    have h1 : s1.rings = (setRing r RingSt.empty s).rings := by
      unfold s1
      rw [rings_setI, rings_setI, rings_setI]
    rw [ring_congr (rings_setF _ _ _ _), ring_congr (rings_setF _ _ _ _), ring_congr h1, ring_setRing_self]
  · exact outstanding_eq ((killRing_within (m := 0x10000800) (.refl (s := s)) r rfl).same .cmds rfl) .pci

theorem writeCq_other {k r : Nat} (h : k ≠ r) (e : CqEntry) (s : State) : ring (writeCq r e s) k = ring s k := by
  unfold writeCq
  extract_lets n size s1 p src s2
  have h1 : ring s1 k = ring s k := ring_congr (rings_setI _ _ _ _ _) k
  have h2 : ring s2 k = ring s k := (ring_setRing_other h _ _).trans h1
  split
  · unfold ringMessage
    rw [ring_congr (sendVector_rings _ _), ring_setRing_other h, h2]
  · exact h2

theorem ringComplete_other {k r : Nat} (h : k ≠ r) (e : CqEntry) (s : State) : ring (ringComplete r e s) k = ring s k := by
  unfold ringComplete
  split
  · exact writeCq_other h e s
  · exact ring_setRing_other h _ _

/-- What PCI shows and holds of a ring. -/
def RingKept (r : Nat) (s t : State) : Prop :=
  getI t .pci PCI_RING.EN r = getI s .pci PCI_RING.EN r ∧ getI t .pci PCI_RING.SQ_CONS r = getI s .pci PCI_RING.SQ_CONS r ∧ ring t r = ring s r

/-- The result of a command goes to another ring than r, or is lost. -/
theorem originComplete_ring {o : Outstanding} {r : Nat} (hr : r < 29) (ho : ∀ g, o.origin = some g → g.lost = false → g.ring < 29 ∧ g.ring ≠ r) (p : Page) (code d : Nat)
    (late : Bool) (s : State) : RingKept r s (originComplete p o code d late s) := by
  have hcntEn : ∀ i : Fin 29, fieldsSplit PCI_CMPL_LOST_CNT.COUNT PCI_RING.EN 0 i.val = true := by decide
  have hcntCons : ∀ i : Fin 29, fieldsSplit PCI_CMPL_LOST_CNT.COUNT PCI_RING.SQ_CONS 0 i.val = true := by decide
  have hcons : ∀ i j : Fin 29, fieldsSplit PCI_RING.CQ_PROD PCI_RING.SQ_CONS i.val j.val = true := by decide
  unfold originComplete
  split
  · exact ⟨rfl, rfl, rfl⟩
  · next g hg =>
    split
    · exact ⟨FieldKept.count (.refl _) .pci _ (by decide) (.inr (hcntEn ⟨r, hr⟩)), FieldKept.count (.refl _) .pci _ (by decide) (.inr (hcntCons ⟨r, hr⟩)),
        ring_congr (rings_count _ _ _) r⟩
    · next hl =>
      obtain ⟨h1, h2⟩ := ho g hg (Bool.eq_false_iff.mpr hl)
      exact ⟨ringComplete_en r g.ring _ s, ringComplete_field (.inr (hcons ⟨g.ring, h1⟩ ⟨r, hr⟩)) _ _, ringComplete_other (Ne.symm h2) _ _⟩

/-- A completion that goes to another ring than r leaves what PCI shows of r. -/
theorem complete_ring {s : State} {o : Outstanding} (h : outstanding s .pci = some o) {r : Nat} (hr : r < 29)
    (ho : ∀ g, o.origin = some g → g.lost = false → g.ring < 29 ∧ g.ring ≠ r) (code d : Nat) : RingKept r s (complete .pci code d s) := by
  have e : complete .pci code d s = (let s1 := setBusy .pci 0 (setSlot .pci ⟨none, some o.tag⟩ s)
      let s2 := setStat .pci 30 30 1 (setStat .pci 15 8 d (setStat .pci 7 0 code s1))
      let s3 := if o.abortLate then setStat .pci 29 29 1 s2 else s2
      originComplete .pci o code d o.abortLate (raise .pci INT.CMD_DONE s3)) := by
    unfold complete
    rw [h]
  rw [e]
  extract_lets s1 s2 s3
  have h2 : ∀ x, 0x100 ≤ x → x < 0x1000 → reg s2 (addr .pci x) = reg s (addr .pci x) := fun x h0 h1 => by
    unfold s2 s1
    rw [reg_setStat_other _ _ _ _ _ h1 (.inr (by unfold offCmdStat; omega)), reg_setStat_other _ _ _ _ _ h1 (.inr (by unfold offCmdStat; omega)),
      reg_setStat_other _ _ _ _ _ h1 (.inr (by unfold offCmdStat; omega)), reg_setBusy_other _ _ _ h1 (.inr (by unfold offCmdStat offStatus; omega)), reg_setSlot]
  have g2 : s2.rings = s.rings := by
    unfold s2 s1
    rw [rings_setStat, rings_setStat, rings_setStat, (setBusy_within (m := 0x800) .refl .pci 0 rfl).same .rings rfl, rings_setSlot]
  clear_value s2
  have h3 : (∀ x, 0x100 ≤ x → x < 0x1000 → reg s3 (addr .pci x) = reg s (addr .pci x)) ∧ s3.rings = s.rings := by
    unfold s3
    split
    · exact ⟨fun x h0 h1 => (reg_setStat_other _ _ _ _ _ h1 (.inr (by unfold offCmdStat; omega))).trans (h2 x h0 h1), (rings_setStat _ _ _ _ _).trans g2⟩
    · exact ⟨h2, g2⟩
  clear_value s3
  obtain ⟨hreg, hrings⟩ := h3
  have h4 : ∀ x, 0x100 ≤ x → x < 0x1000 → reg (raise .pci INT.CMD_DONE s3) (addr .pci x) = reg s (addr .pci x) := fun x h0 h1 =>
    (reg_raise_other _ _ _ h1 (.inr (by unfold offIntStat; omega))).trans (hreg x h0 h1)
  have e1 : PCI_RING.EN.offAt r = 0x410 + r * 0x20 := rfl
  have e2 : PCI_RING.SQ_CONS.offAt r = 0x414 + r * 0x20 := rfl
  obtain ⟨k1, k2, k3⟩ := originComplete_ring hr ho .pci code d o.abortLate (raise .pci INT.CMD_DONE s3)
  exact ⟨k1.trans (getI_congr (h4 _ (by omega) (by omega))), k2.trans (getI_congr (h4 _ (by omega) (by omega))), k3.trans (ring_congr ((rings_raise _ _ _).trans hrings) r)⟩

theorem latch_ring {op : Nat} {src : CmdSrc} {s : State} {g : RingOrigin} (h : (latch .pci op src s).origin = some g) : g.ring < 29 := by
  cases src with
  | host tag => cases h
  | ring r cookie tag a0 a1 a2 =>
    cases h
    show 24 + r.val < 29
    omega

/-- The command that gives ring r up completes, and the ring is as after a reset. -/
theorem ringGivenUp_effect {u : State} {o : Outstanding} (h : outstanding u .pci = some o) (ho : ∀ g, o.origin = some g → g.ring < 29) {r : Nat} (hr : r < 29) :
    let t := done .pci CODE.OK (killRing r (loseRing r u))
    Completed t .pci CODE.OK ∧ getI t .pci PCI_RING.EN r = 0 ∧ getI t .pci PCI_RING.SQ_CONS r = 0 ∧ ring t r = RingSt.empty := by
  obtain ⟨h1, h2, h3, h4⟩ := killRing_effect hr (loseRing r u)
  have hout := h4.trans (outstanding_loseRing h r)
  have horigin : ∀ g, (o.loseRing r).origin = some g → g.ring < 29 ∧ (g.lost = false → g.ring ≠ r) := fun g hg => by
    obtain ⟨g0, hg0, hg1⟩ := Option.map_eq_some_iff.mp hg
    have hlt := ho g0 hg0
    by_cases e : g0.ring = r
    · rw [if_pos e] at hg1
      subst hg1
      exact ⟨hlt, fun h => by cases h⟩
    · rw [if_neg e] at hg1
      subst hg1
      exact ⟨hlt, fun _ => e⟩
  obtain ⟨k1, k2, k3⟩ := complete_ring hout hr (fun g hg hl => ⟨(horigin g hg).1, (horigin g hg).2 hl⟩) CODE.OK 0
  exact ⟨complete_completed hout (.inr (fun g hg => Nat.lt_trans (horigin g hg).1 (by decide))) (by decide) 0, k1.trans h1, k2.trans h2, k3.trans h3⟩

/-! The frames of the ring that are not on the line are flushed first. -/

theorem finishFrame_frames (f : Frame) (k : Nat) (s : State) : (finishFrame f k s).mac.frames = s.mac.frames.filter (fun g => decide (g.id ≠ f.id)) := by
  unfold finishFrame dlDone
  split <;> rfl

theorem finishFrame_done {f : Frame} {r : Nat} (h : f.ring = some r) (k : Nat) (s : State) :
    (finishFrame f k s).link.done.any (fun d => decide (d.ring = some r)) = true := by
  unfold finishFrame dlDone
  rw [h, if_neg (fun e => absurd e.1 Bool.false_ne_true)]
  show ((_ : List DlDone) ++ [_]).any _ = true
  rw [List.any_append]
  simp

/-- The flush drops the frames listed by their numbers. -/
theorem flush_frames : ∀ (l : List Frame) (s : State), (l.foldl (fun t f => finishFrame f DST.FLUSHED
    { t with plan := { t.plan with items := t.plan.items.filter (fun x => decide (x.purpose ≠ .downlink f.id)) } }) s).mac.frames =
      s.mac.frames.filter (fun g => l.all (fun f => decide (g.id ≠ f.id)))
  | [], s => by simp
  | f :: l, s => by
    rw [List.foldl_cons, flush_frames l, finishFrame_frames, List.filter_filter]
    refine List.filter_congr (fun g _ => ?_)
    rw [List.all_cons, Bool.and_comm]

/-- A flush that drops a frame leaves its completion waiting. -/
theorem flush_done {r : Nat} : ∀ (l : List Frame) (s : State), (∀ f ∈ l, f.ring = some r) → (l ≠ [] ∨ s.link.done.any (fun d => decide (d.ring = some r)) = true) →
    (l.foldl (fun t f => finishFrame f DST.FLUSHED
      { t with plan := { t.plan with items := t.plan.items.filter (fun x => decide (x.purpose ≠ .downlink f.id)) } }) s).link.done.any (fun d => decide (d.ring = some r)) = true
  | [], s, _, h => h.resolve_left (fun e => e rfl)
  | f :: l, s, hl, _ => by
    exact flush_done l _ (fun g hg => hl g (List.mem_cons_of_mem _ hg)) (.inr (finishFrame_done (hl f List.mem_cons_self) _ _))

/-- After the flush, only frames on the line are left of the ring, and a ring that was busy is so still. -/
theorem flushFrames_effect (r : Nat) (s : State) : (flushFrames r s).mac.frames.any (fun f => decide (f.ring = some r) && !onLine f) = false ∧
    (ringBusy s r = true → ringBusy (flushFrames r s) r = true) ∧ (ringBusy s r = false → flushFrames r s = s) := by
  unfold flushFrames
  extract_lets l
  have hmem : ∀ f ∈ l, f.ring = some r := fun f hf => by
    have h := (List.mem_filter.mp hf).2
    rw [Bool.and_eq_true] at h
    exact of_decide_eq_true h.1
  refine ⟨?_, fun hb => ?_, fun hb => ?_⟩
  · rw [flush_frames, List.any_eq_false]
    intro g hg hx
    obtain ⟨h1, h2⟩ := List.mem_filter.mp hg
    exact absurd rfl (of_decide_eq_true (List.all_eq_true.mp h2 g (List.mem_filter.mpr ⟨h1, hx⟩)))
  · unfold ringBusy at hb ⊢
    by_cases hl : l = []
    · rw [hl]
      exact hb
    · rw [flush_done l s hmem (.inl hl), Bool.or_true]
  · have hl : l = [] := List.filter_eq_nil_iff.mpr (fun f hf hx => by
      unfold ringBusy at hb
      rw [Bool.or_eq_false_iff] at hb
      rw [Bool.and_eq_true] at hx
      exact absurd hx.1 (List.any_eq_false.mp hb.1 f hf))
    rw [hl]
    rfl

theorem runRingReset_effect {src : CmdSrc} {s u : State} (hu : JustIssued .pci (latch .pci 1 src s) s u) : let t := runRingReset (latch .pci 1 src s) u
    let r := (latch .pci 1 src s).a0.toNat
    if 28 < r then Completed t .pci CODE.BAD_ARG
    else if ringBusy s r then Issued t .pci (latch .pci 1 src s) ∧ t.mac.frames.any (fun f => decide (f.ring = some r) && !onLine f) = false
    else Completed t .pci CODE.OK ∧ getI t .pci PCI_RING.EN r = 0 ∧ getI t .pci PCI_RING.SQ_CONS r = 0 ∧ ring t r = RingSt.empty := by
  have hop : (latch .pci 1 src s).opcode = 1 := latch_opcode _ _ _ _
  have horigin : ∀ g, (latch .pci 1 src s).origin = some g → g.ring < 29 := fun g hg => latch_ring hg
  generalize latch .pci 1 src s = o at hu hop horigin
  intro t r
  have ht : t = runRingReset o u := rfl
  clear_value t
  unfold runRingReset at ht
  have hbusy : ringBusy s r = ringBusy u r := by
    unfold ringBusy
    rw [hu.within.same .mac rfl, hu.within.same .link rfl]
  by_cases hr : 28 < r
  · rw [if_pos hr] at ht ⊢
    subst ht
    exact hu.done (by decide) 0
  · rw [if_neg hr] at ht ⊢
    rw [hbusy]
    obtain ⟨f1, f2, f3⟩ := flushFrames_effect r u
    have hw : Within 0x284000000000 u (flushFrames r u) := flushFrames_within .refl r rfl
    have hiss : Issued (flushFrames r u) .pci o := (CmdKept.within hw (by decide) (by decide)).issued hu.issued
    unfold ringResetDone at ht
    rw [show flushFrames o.a0.toNat u = flushFrames r u from rfl, hiss.out] at ht
    dsimp only at ht
    by_cases hb : ringBusy u r = true
    · rw [if_pos hb]
      rw [if_pos (.inr (f2 hb))] at ht
      subst ht
      exact ⟨hiss, f1⟩
    · rw [if_neg hb]
      have hb' := Bool.eq_false_iff.mpr hb
      rw [f3 hb', if_neg (by rw [hop]; rintro (h | h); exacts [h rfl, hb h])] at ht
      subst ht
      exact ringGivenUp_effect hu.issued.out horigin (by omega)

/-! Messages (R383) and the link. -/

/-- A bit that stands taken off. -/
def offBit (m v : Nat) : Nat := if m.testBit v then m - 2 ^ v else m

theorem offBit_set {m v : Nat} (hb : m.testBit v = true) (k : Nat) : (m - 2 ^ v).testBit k = (m.testBit k && decide (k ≠ v)) := by
  have hodd : m / 2 ^ v % 2 = 1 := by
    rw [Nat.testBit_eq_decide_div_mod_eq] at hb
    exact of_decide_eq_true hb
  obtain ⟨a, ha⟩ : ∃ a, m / 2 ^ v = 2 * a + 1 := ⟨m / 2 ^ v / 2, by omega⟩
  have hlow : m % 2 ^ v < 2 ^ v := Nat.mod_lt _ (Nat.two_pow_pos v)
  have hm : m = 2 ^ v * (2 * a + 1) + m % 2 ^ v := by rw [← ha, Nat.div_add_mod]
  have hsub : m - 2 ^ v = 2 ^ v * (2 * a) + m % 2 ^ v := by
    rw [Nat.mul_add, Nat.mul_one] at hm
    omega
  generalize m % 2 ^ v = low at hlow hm hsub
  rw [hsub, Nat.testBit_two_pow_mul_add _ hlow, hm, Nat.testBit_two_pow_mul_add _ hlow]
  rcases Nat.lt_trichotomy k v with hk | hk | hk
  · rw [if_pos hk, if_pos hk, decide_eq_true (Nat.ne_of_lt hk), Bool.and_true]
  · subst hk
    rw [if_neg (Nat.lt_irrefl _), Nat.sub_self, Nat.testBit_zero, decide_eq_false (not_not_intro (Eq.refl k)), Bool.and_false]
    exact decide_eq_false (by omega)
  · obtain ⟨n, hn⟩ : ∃ n, k - v = n + 1 := ⟨k - v - 1, by omega⟩
    rw [if_neg (by omega), if_neg (by omega), hn, Nat.testBit_succ, Nat.testBit_succ, decide_eq_true (Nat.ne_of_gt hk), Bool.and_true,
      show 2 * a / 2 = a by omega, show (2 * a + 1) / 2 = a by omega]

theorem offBit_testBit (m v k : Nat) : (offBit m v).testBit k = (m.testBit k && decide (k ≠ v)) := by
  unfold offBit
  split
  · next hb => exact offBit_set hb k
  · next hb =>
    by_cases hk : k = v
    · rw [hk, Bool.eq_false_iff.mpr hb, Bool.false_and]
    · rw [decide_eq_true hk, Bool.and_true]

theorem offBit_other {m v k : Nat} (h : k ≠ v) : (offBit m v).testBit k = m.testBit k := by
  rw [offBit_testBit, decide_eq_true h, Bool.and_true]

theorem offBit_self (m v : Nat) : (offBit m v).testBit v = false := by
  rw [offBit_testBit, decide_eq_false (not_not_intro (Eq.refl v)), Bool.and_false]

theorem msixUnmask_effect (v : Fin 64) (s : State) : Yields (.msixUnmask v) s (fun t =>
    t.msixMask.testBit v.val = false ∧ t.msixPba.testBit v.val = false ∧
    (∀ k : Fin 64, k ≠ v → t.msixMask.testBit k.val = s.msixMask.testBit k.val ∧ t.msixPba.testBit k.val = s.msixPba.testBit k.val) ∧
    (s.msixPba.testBit v.val = true → t.emits.head? = some (.msix v.val)) ∧ (s.msixPba.testBit v.val = false → t.emits = s.emits) ∧ RegsBut [] s t) := by
  have hk : ∀ {k : Fin 64}, k ≠ v → k.val ≠ v.val := fun h e => h (Fin.ext e)
  have hex : exec (.msixUnmask v) s = .next (if s.msixPba.testBit v.val then
      emit (.msix v.val) { s with msixMask := offBit s.msixMask v.val, msixPba := offBit s.msixPba v.val }
      else { s with msixMask := offBit s.msixMask v.val, msixPba := offBit s.msixPba v.val }) := rfl
  refine Yields.intro hex ?_
  cases hp : s.msixPba.testBit v.val with
  | true =>
    exact ⟨offBit_self _ _, offBit_self _ _, fun k h => ⟨offBit_other (hk h), offBit_other (hk h)⟩, fun _ => rfl, fun h => (by cases h), (RegsBut.refl _ _).upd rfl⟩
  | false =>
    exact ⟨offBit_self _ _, offBit_self _ _, fun k h => ⟨offBit_other (hk h), offBit_other (hk h)⟩, fun h => (by cases h), fun _ => rfl, (RegsBut.refl _ _).upd rfl⟩

/-- The speed, the width and the mastership of the link, shown. -/
def linkShown (up : Bool) (w g : BitVec 4) (m : Bool) (s : State) : State :=
  setB .pci PCI_STATUS.BUS_MASTER (up && m) (setF .pci PCI_STATUS.WIDTH (if up then w.toNat else 0) (setF .pci PCI_STATUS.SPEED (if up then g.toNat else 0) s))

theorem linkShown_effect (up : Bool) (w g : BitVec 4) (m : Bool) (s : State) : let t := linkShown up w g m s
    isSet t .pci PCI_STATUS.LINK_UP = isSet s .pci PCI_STATUS.LINK_UP ∧ isSet t .pci PCI_STATUS.BUS_MASTER = (up && m) ∧
    getF t .pci PCI_STATUS.WIDTH = (if up then w.toNat else 0) ∧ getF t .pci PCI_STATUS.SPEED = (if up then g.toNat else 0) ∧
    RegsBut [addr .pci PCI_STATUS.LINK_UP.off, addr .pci offIntStat] s t := by
  have hlt : ∀ x : BitVec 4, (if up then x.toNat else 0) % 2 ^ 4 = (if up then x.toNat else 0) := fun x => by
    cases up
    · rfl
    · exact Nat.mod_eq_of_lt x.isLt
  unfold linkShown
  refine ⟨?_, isSet_setB_self _ _ _ _ (by decide), ?_, ?_, ?_⟩
  · rw [isSet_setB_split _ _ _ (by decide), isSet_setF_split _ _ _ (by decide), isSet_setF_split _ _ _ (by decide)]
  · rw [getF_setB_split _ _ _ (by decide), getF_setF_self _ _ _ _ (by decide)]
    exact hlt w
  · rw [getF_setB_split _ _ _ (by decide), getF_setF_split _ _ _ (by decide), getF_setF_self _ _ _ _ (by decide)]
    exact hlt g
  · have h0 : RegsBut [addr .pci PCI_STATUS.LINK_UP.off, addr .pci offIntStat] s s := .refl _ _
    refine RegsBut.setB ?_ _ (.head _)
    refine RegsBut.setF ?_ _ (.head _)
    exact h0.setF _ (.head _)

theorem pcieLinkChange_effect (up : Bool) (w g : BitVec 4) (m : Bool) (s : State) : Yields (.pcieLinkChange up w g m) s (fun t =>
    isSet t .pci PCI_STATUS.LINK_UP = up ∧ isSet t .pci PCI_STATUS.BUS_MASTER = (up && m) ∧ getF t .pci PCI_STATUS.WIDTH = (if up then w.toNat else 0) ∧
    getF t .pci PCI_STATUS.SPEED = (if up then g.toNat else 0) ∧ (isSet s .pci PCI_STATUS.LINK_UP ≠ up → intOf t .pci PCI_INT.LINK_CHANGE = true) ∧
    RegsBut [addr .pci PCI_STATUS.LINK_UP.off, addr .pci offIntStat] s t) := by
  have hex : exec (.pcieLinkChange up w g m) s = .next (if isSet s .pci PCI_STATUS.LINK_UP = up then linkShown up w g m s
      else raise .pci PCI_INT.LINK_CHANGE (setB .pci PCI_STATUS.LINK_UP up (linkShown up w g m s))) := rfl
  obtain ⟨h1, h2, h3, h4, h5⟩ := linkShown_effect up w g m s
  generalize linkShown up w g m s = z at hex h1 h2 h3 h4 h5
  refine Yields.intro hex ?_
  by_cases hup : isSet s .pci PCI_STATUS.LINK_UP = up
  · rw [if_pos hup]
    exact ⟨h1.trans hup, h2, h3, h4, fun h => absurd hup h, h5⟩
  · rw [if_neg hup]
    have hk : ∀ f : Field, decide (f.offAt 0 % 0x1000 ≠ offIntStat) = true → (PCI_STATUS.LINK_UP.ordered && fieldsSplit PCI_STATUS.LINK_UP f 0 0) = true →
        getF (raise .pci PCI_INT.LINK_CHANGE (setB .pci PCI_STATUS.LINK_UP up z)) .pci f = getF z .pci f := fun f hi hs =>
      (getI_raise _ _ _ _ _ _ hi).trans (getF_setB_split _ _ _ hs)
    refine ⟨?_, ?_, ?_, ?_, fun _ => intOf_raise _ _ _ (by decide), RegsBut.raise (RegsBut.setB h5 _ (.head _)) _ (.tail _ (.head _))⟩
    · unfold isSet
      rw [show getF (raise .pci PCI_INT.LINK_CHANGE (setB .pci PCI_STATUS.LINK_UP up z)) .pci PCI_STATUS.LINK_UP = getF (setB .pci PCI_STATUS.LINK_UP up z) .pci PCI_STATUS.LINK_UP from
        getI_raise _ _ _ _ _ _ (by decide)]
      exact isSet_setB_self _ _ _ _ (by decide)
    · unfold isSet at h2 ⊢
      rw [hk _ (by decide) (by decide)]
      exact h2
    · exact (hk _ (by decide) (by decide)).trans h3
    · exact (hk _ (by decide) (by decide)).trans h4

/-! The doorbells. -/

theorem sqProd_effect {r : Nat} (hr : r < 32) (v : Word) (s : State) : let t := sqProd r v.toNat [] s
    if 28 < r then t = s
    else if ringSize s r < sfnDiff (getI s .pci PCI_RING.SQ_CONS r) v.toNat then ringErr t r = true ∧ (ringErr s r = true → t = s)
    else (ring t r).sqProd = v.toNat ∧ (ring t r).cqCons = (ring s r).cqCons ∧ RegsBut [] s t := by
  intro t
  have ht : t = sqProd r v.toNat [] s := rfl
  clear_value t
  unfold sqProd at ht
  by_cases h : 28 < r
  · rw [if_pos h] at ht ⊢
    exact ht
  rw [if_neg h] at ht ⊢
  extract_lets src s1 at ht
  by_cases hover : ringSize s r < sfnDiff (getI s .pci PCI_RING.SQ_CONS r) v.toNat
  · rw [if_pos hover] at ht ⊢
    by_cases herr : ringErr s r = true
    · rw [if_pos herr] at ht
      subst ht
      exact ⟨herr, fun _ => rfl⟩
    · rw [if_neg herr] at ht
      subst ht
      exact ⟨(ringError_effect hr s).1, fun e => absurd e herr⟩
  · rw [if_neg hover] at ht ⊢
    have e : t = s1 := by
      rw [ht]
      split <;> rfl
    subst e
    have hring : ring s1 r = { ring s r with sqProd := v.toNat } := ring_setRing_self _ _ _
    rw [hring]
    exact ⟨rfl, rfl, (RegsBut.refl _ _).upd rfl⟩

/-- The message of a ring, held where its vector is masked. -/
theorem ringMessage_effect (r : Nat) (s : State) : (ring (ringMessage r s) r).pend = 0 ∧ (ringMessage r s).emits.length ≤ s.emits.length + 1 ∧ RegsBut [] s (ringMessage r s) := by
  unfold ringMessage
  refine ⟨?_, sendVector_emits _ _, (RegsBut.refl _ _).upd (sendVector_regs _ _)⟩
  rw [ring_congr (sendVector_rings _ _), ring_setRing_self]

theorem consDoorbell_effect (r : Nat) (v : Word) (s : State) : let t := flushRing r (setRing r { ring s r with cqCons := v.toNat } s)
    (ring t r).cqCons = v.toNat ∧ (ring t r).sqProd = (ring s r).sqProd := by
  have hself : ring (setRing r { ring s r with cqCons := v.toNat } s) r = { ring s r with cqCons := v.toNat } := ring_setRing_self _ _ _
  generalize setRing r { ring s r with cqCons := v.toNat } s = z at hself
  obtain ⟨h1, h2⟩ := drainRing_indices r (ring z r).waiting.length z
  exact ⟨h2.trans (by rw [hself]), h1.trans (by rw [hself])⟩

/-- Settles O54: a doorbell stores its index and an error of a ring is shown, a delivery takes the entry posted, and a ring that is reset is given up once nothing of it waits. -/
theorem hostRings : Obligations.HostRings := by
  unfold Obligations.HostRings
  refine ⟨fun r v s => ?_, fun r v s => ?_, fun r s => ?_, fun r s => ?_, msixUnmask_effect, fun r k s hp => ?_, fun r k s hp => ⟨fun hn => ?_, fun f hf => ?_⟩,
    fun s h0 => ?_, fun src s ht => Yields.issue rfl ht (fun u hu => runRingReset_effect hu), pcieLinkChange_effect⟩
  · exact Yields.intro rfl (sqProd_effect r.isLt v s)
  · refine Yields.unless (c := 28 < r.val) (x := flushRing r.val (setRing r.val { ring s r.val with cqCons := v.toNat } s)) rfl Iff.rfl (fun _ => ?_)
    exact consDoorbell_effect r.val v s
  · have hex : exec (.ringDmaError r) s = .next (if ringErr s r.val then s else ringError r.val s) := rfl
    refine Yields.intro hex ?_
    obtain ⟨h1, h2⟩ := ringError_effect (r := r.val) (by omega) s
    by_cases herr : ringErr s r.val = true
    · rw [if_pos herr]
      exact ⟨herr, fun _ => rfl, fun h => absurd (herr.symm.trans h) (by decide)⟩
    · rw [if_neg herr]
      exact ⟨h1, fun h => absurd h herr, fun _ => h2⟩
  · refine Yields.unless (c := (ring s r.val).pend = 0 ∨ (!ringUp s r.val) = true) (x := ringMessage r.val s) rfl ?_ (fun _ => ringMessage_effect r.val s)
    rw [Bool.not_eq_true']
  · refine congrArg Host.Outcome.next ?_
    unfold ulDelivery
    split
    · rfl
    · exact if_neg (by rw [hp]; exact Bool.false_ne_true)
  · refine congrArg Host.Outcome.next ?_
    unfold ulDelivery
    rw [hn]
  · exact Yields.intro rfl (ulDelivery_effect (by omega) k.toNat hp hf)
  · exact Yields.intro rfl (eventDelivery_effect h0)

end Sys2Proof.Machine
end

section
/-!
PROOFS. Cipher jobs (R321, R334): the end of a job can end an association, and the frame that tells the parent so is itself a job of the engine.
-/
namespace Sys2Proof.Machine

/-- Association 0, accepted below a subordinate: its parent has to be told of its end. -/
def acceptedBelow : Assoc := { Assoc.free with c := { Ctx.zero with state := CST.ACCEPTED, peer := 2 ^ 31 } }

/-- A job of no frame that has failed, in hold slot 0 of pipeline 0. -/
def failedJob : Held := ⟨Job.zero, 0, 0, 0, [], none, JST.FAULT, false, false, false, []⟩

/-- RELEASE of association 0 waits for the last job; the parent is reached over a lane. -/
def lastJobState : State :=
  let s := setF .rpt RPT_TREE.UP_IF 2 State.reset
  { s with
    cmds := [(pageNumber .asc, ⟨some ⟨4, 0, 0, 0, 0, none, false, 0⟩, none⟩)]
    mac := { s.mac with table := [(0, acceptedBelow)], parent := { s.mac.parent with phase := .active } }
    cip := { s.cip with held := [failedJob] } }

theorem lastJobState_held : heldAt lastJobState 0 0 = some failedJob := by decide +kernel

/-- The release goes on, and its frame to the parent is counted with the job that ended. -/
theorem lastJobState_counted : getF lastJobState .cip CIP_JOB_CNT.COUNT = 0 ∧ getF (completeJob 0 0 false lastJobState) .cip CIP_JOB_CNT.COUNT = 2 := by decide +kernel

/-- Refutes O53: the completion of a job counts two when it lets a RELEASE go on whose frame to the parent is encrypted in the same step. -/
theorem not_cipherJobs : ¬ Obligations.CipherJobs := by
  unfold Obligations.CipherJobs
  rintro ⟨-, -, -, -, hcomplete, -⟩
  obtain ⟨⟨t, hex, hone⟩, -⟩ := hcomplete 0 0 false lastJobState failedJob lastJobState_held
  have ht : completeJob 0 0 false lastJobState = t := Host.Outcome.next.inj hex
  rw [if_neg (show ¬ failedJob.waiting = true by decide), ← ht, lastJobState_counted.1, lastJobState_counted.2] at hone
  exact absurd hone.2 (by decide)

end Sys2Proof.Machine
end

section
/-!
PROOFS. The commons window, the power of the banks, the Badger and repair (R303–R318).
-/
namespace Sys2Proof.Machine

/-! Bytes stored while some banks are off (R307, R309). -/

theorem byteAt_busSet (a : Nat) (b : Byte) (s : State) (x : Nat) :
    byteAt (busSet a b s) x = if x = a ∧ bankPower s (bankOf a) ≠ 2 then b else byteAt s x := by
  unfold busSet
  by_cases h : bankPower s (bankOf a) = 2
  · rw [if_pos h, if_neg (fun e => e.2 h)]
  · rw [if_neg h, byteAt_setByte]
    by_cases hx : x = a
    · rw [if_pos hx, if_pos ⟨hx, h⟩]
    · rw [if_neg hx, if_neg (fun e => hx e.1)]

theorem bankPower_busSet (a : Nat) (b : Byte) (s : State) (k : Bank) : bankPower (busSet a b s) k = bankPower s k := by
  unfold busSet
  split
  · rfl
  · exact bankPower_congr rfl k

/-- A byte stored over the bus stands where it was stored, but for a bank that is off. -/
theorem byteAt_busSets_power : ∀ (l : List Byte) (a : Nat) (s : State) (x : Nat), byteAt (busSets a l s) x =
    if a ≤ x ∧ x < a + l.length ∧ bankPower s (bankOf x) ≠ 2 then l.getD (x - a) 0 else byteAt s x
  | [], a, s, x => by
    rw [if_neg (fun h => absurd h.2.1 (Nat.not_lt.mpr h.1))]
    rfl
  | b :: l, a, s, x => by
    show byteAt (busSets (a + 1) l (busSet a b s)) x = _
    rw [byteAt_busSets_power l (a + 1), byteAt_busSet, bankPower_busSet]
    by_cases h0 : x = a
    · subst h0
      rw [if_neg (fun h => absurd h.1 (Nat.not_succ_le_self x))]
      by_cases hp : bankPower s (bankOf x) = 2
      · rw [if_neg (fun h => h.2 hp), if_neg (fun h => h.2.2 hp)]
      · rw [if_pos ⟨rfl, hp⟩, if_pos ⟨Nat.le_refl x, Nat.lt_add_of_pos_right (Nat.succ_pos _), hp⟩, Nat.sub_self]
        rfl
    · rw [if_neg (c := x = a ∧ _) (fun h => h0 h.1)]
      by_cases hx : a + 1 ≤ x ∧ x < a + 1 + l.length ∧ bankPower s (bankOf x) ≠ 2
      · obtain ⟨k, hk⟩ := Nat.exists_eq_add_of_le hx.1
        rw [if_pos hx, if_pos ⟨by omega, by simp only [List.length_cons]; omega, hx.2.2⟩, show x - (a + 1) = k by omega, show x - a = k + 1 by omega]
        rfl
      · rw [if_neg hx, if_neg (fun h => hx ⟨by omega, by have := h.2.1; simp only [List.length_cons] at this; omega, h.2.2⟩)]

/-- An access keeps which banks are off, and every byte. -/
structure OffKept (s t : State) : Prop where
  mem : t.mem = s.mem
  off : ∀ b, bankPower t b = 2 ↔ bankPower s b = 2

theorem OffKept.trans {s t u : State} (h : OffKept s t) (k : OffKept t u) : OffKept s u := ⟨k.mem.trans h.mem, fun b => (k.off b).trans (h.off b)⟩

theorem touchBank_off (b : Bank) (s : State) : OffKept s (touchBank b s) := by
  unfold touchBank
  split
  next h2 =>
    refine ⟨by rw [mem_raise, mem_count], fun k => ?_⟩
    have e : bankPower (raise (.memb b) MEMB_INT.OFF_ACCESS (count (.memb b) MEMB_OFF_CNT.COUNT s)) k = bankPower s k :=
      FieldKept.raise (q := .memb k) (g := MEMB_STATUS.POWER) (j := 0) ((FieldKept.refl s).count _ _ (by decide) (.inr (by decide))) _ _ (by decide)
    rw [e]
  next h1 =>
    refine ⟨mem_setF _ _ _ _, fun k => ?_⟩
    by_cases hk : k = b
    · subst hk
      have e : bankPower (setF (.memb k) MEMB_STATUS.POWER 0 s) k = 0 := getI_setI_self _ _ _ _ _ (by decide)
      rw [e, h1]
      decide
    · have e : bankPower (setF (.memb b) MEMB_STATUS.POWER 0 s) k = bankPower s k := getI_setI_page _ _ _ _ _ _ (fun e => hk (by injection e))
      rw [e]
  next => exact ⟨rfl, fun _ => Iff.rfl⟩

theorem touchArea_off (a n : Nat) (s : State) : OffKept s (touchArea a n s) := by
  have key : ∀ (l : List Bank) (u : State), OffKept u (l.foldl (fun t b => touchBank b t) u) := by
    intro l
    induction l with
    | nil => exact fun u => ⟨rfl, fun _ => Iff.rfl⟩
    | cons b l ih => exact fun u => (touchBank_off b u).trans (ih _)
  exact key _ s

/-! The window (R305–R307). -/

theorem addConflict_bytes (m wait busy : Nat) (s : State) : (addConflict m wait busy s).mem.bytes = s.mem.bytes ∧ (addConflict m wait busy s).regs = s.regs := by
  unfold addConflict
  split <;> exact ⟨rfl, rfl⟩

theorem byteAt_bytes {s t : State} (h : t.mem.bytes = s.mem.bytes) (x : Nat) : byteAt t x = byteAt s x := by
  unfold byteAt
  rw [h]

theorem busBytes_bytes {s t : State} (hm : t.mem.bytes = s.mem.bytes) (hr : t.regs = s.regs) (a n : Nat) : busBytes t a n = busBytes s a n := by
  unfold busBytes busByte
  simp only [byteAt_bytes hm, bankPower_congr hr]

/-- An access that is not performed raises ACCESS and is counted (R306). -/
theorem unperformed_effect (s : State) : intOf (unperformed s) .mem INT.ACCESS = true ∧ (unperformed s).mem = s.mem := by
  unfold unperformed
  exact ⟨intOf_countErr_mono _ _ _ _ (intOf_raise _ _ _ (by decide)), by rw [mem_countErr, mem_raise]⟩

theorem refused_effect (n : Nat) (s : State) : let t := returnBytes (allOnes n) (unperformed s)
    t.emits.head? = some (.window (List.replicate n 0xFF)) ∧ intOf t .mem INT.ACCESS = true ∧ t.mem = s.mem := by
  obtain ⟨h1, h2⟩ := unperformed_effect s
  generalize unperformed s = u at h1 h2
  exact ⟨rfl, h1, h2⟩

theorem windowRead_effect (off : BitVec 24) (n w : Nat) (s : State) (h : winShape off.toNat n = true) : Yields (.windowAccess off (.read n) .clean none w) s (fun t =>
    t.emits.head? = some (.window (busBytes s (winAddr s off.toNat) n)) ∧ t.mem.bytes = s.mem.bytes) := by
  have hex : exec (.windowAccess off (.read n) .clean none w) s = .next (if winShape off.toNat n then
      returnBytes (busBytes (addConflict 17 w 0 s) (winAddr s off.toNat) n) (touchArea (winAddr s off.toNat) n (addConflict 17 w 0 s))
      else returnBytes (allOnes n) (unperformed s)) := rfl
  refine Yields.intro (hex.trans (congrArg Host.Outcome.next (if_pos h))) ?_
  obtain ⟨h1, h2⟩ := addConflict_bytes 17 w 0 s
  generalize addConflict 17 w 0 s = u at h1 h2
  refine ⟨?_, (congrArg (·.bytes) (touchArea_off _ n u).mem).trans h1⟩
  show some (Emit.window (busBytes u (winAddr s off.toNat) n)) = _
  rw [busBytes_bytes h1 h2]

theorem windowWrite_effect (off : BitVec 24) (l : List Byte) (w : Nat) (s : State) : Yields (.windowAccess off (.write l) .clean none w) s (fun t =>
    let a := winAddr s off.toNat
    if winShape off.toNat l.length = true ∧ winWritable s a l.length = true then
      (∀ x, x < a ∨ a + l.length ≤ x → byteAt t x = byteAt s x) ∧
      ∀ i : Fin 256, i.val < l.length → byteAt t (a + i.val) = if bankPower s (bankOf (a + i.val)) = 2 then byteAt s (a + i.val) else l.getD i.val 0
    else intOf t .mem INT.ACCESS = true ∧ t.mem = s.mem) := by
  have hex : exec (.windowAccess off (.write l) .clean none w) s = .next (if winShape off.toNat l.length && winWritable s (winAddr s off.toNat) l.length then
      busWrite (winAddr s off.toNat) l (addConflict 17 w 0 s) else unperformed s) := rfl
  refine Yields.branch hex (by rw [Bool.and_eq_true]) (fun _ => ?_) (fun _ => unperformed_effect s)
  obtain ⟨h1, h2⟩ := addConflict_bytes 17 w 0 s
  generalize addConflict 17 w 0 s = u at h1 h2
  generalize winAddr s off.toNat = a
  have hk := touchArea_off a l.length u
  have hbyte : ∀ x, byteAt (busWrite a l u) x = if a ≤ x ∧ x < a + l.length ∧ bankPower s (bankOf x) ≠ 2 then l.getD (x - a) 0 else byteAt s x := fun x => by
    unfold busWrite
    rw [byteAt_busSets_power, byteAt_congr hk.mem, byteAt_bytes h1]
    simp only [ne_eq, hk.off, bankPower_congr h2]
  refine ⟨fun x hx => (hbyte x).trans (if_neg (by omega)), fun i hi => ?_⟩
  rw [hbyte, Nat.add_sub_cancel_left]
  by_cases hp : bankPower s (bankOf (a + i.val)) = 2
  · rw [if_pos hp, if_neg (fun h => h.2.2 hp)]
  · rw [if_neg hp, if_pos ⟨Nat.le_add_right _ _, Nat.add_lt_add_left hi a, hp⟩]

theorem grantTimeout_effect (acc : WinAccess) (s : State) : Yields (.windowGrantTimeout acc) s (fun t => t.mem = s.mem ∧
    (isSet s .mem MEM_STATUS.ARB_NORMAL = true → intOf t .mem INT.ACCESS = true) ∧ (isSet s .mem MEM_STATUS.ARB_NORMAL = false → t = s)) := by
  obtain ⟨h1, h2⟩ := unperformed_effect s
  obtain ⟨u, hu⟩ : ∃ u, exec (.windowGrantTimeout acc) s = .next (if !isSet s .mem MEM_STATUS.ARB_NORMAL then s else u) ∧ u.mem = s.mem ∧ intOf u .mem INT.ACCESS = true := by
    cases acc with
    | read n => exact ⟨_, rfl, (refused_effect n s).2.2, (refused_effect n s).2.1⟩
    | write l => exact ⟨_, rfl, h2, h1⟩
    | gappedRead n => exact ⟨_, rfl, (refused_effect n s).2.2, (refused_effect n s).2.1⟩
    | gappedWrite => exact ⟨_, rfl, h2, h1⟩
  obtain ⟨hex, hmem, hint⟩ := hu
  refine Yields.intro hex ?_
  cases isSet s .mem MEM_STATUS.ARB_NORMAL with
  | true => exact ⟨hmem, fun _ => hint, fun h => (by cases h)⟩
  | false => exact ⟨rfl, fun h => (by cases h), fun _ => rfl⟩

/-! The power of a bank (R308, R309). -/

theorem bank_setBank_self (b : Nat) (x : BankSt) (s : State) : bank (setBank b x s) b = x := Map.get_set_self _ _ _

theorem bank_congr {s t : State} (h : t.mem = s.mem) (b : Nat) : bank t b = bank s b := by
  unfold bank
  rw [h]

theorem bankPower_setPower (s : State) (b : Bank) {v : Nat} (h : v < 4) : bankPower (setF (.memb b) MEMB_STATUS.POWER v s) b = v :=
  (getF_setF_self _ _ _ _ (by decide)).trans (Nat.mod_eq_of_lt h)

theorem getF_setBank (p : Page) (f : Field) (b : Nat) (x : BankSt) (s : State) : getF (setBank b x s) p f = getF s p f := FieldKept.getF (.upd rfl)

theorem getF_zeroBank (p : Page) (f : Field) (b : Nat) (s : State) : getF (zeroBank b s) p f = getF s p f := FieldKept.getF (.upd rfl)

theorem zeroBank_bytes (b : Nat) (s : State) : ∀ e ∈ (zeroBank b s).mem.bytes, e.1 / 0x40000 ≠ b := fun _ he => of_decide_eq_true (List.mem_filter.mp he).2

theorem bytes_setBank (b : Nat) (x : BankSt) (s : State) : (setBank b x s).mem.bytes = s.mem.bytes := rfl

/-- A bank takes the state asked for; OFF loses its bytes, and a bank that was off is zeroed first. -/
theorem powerTo_effect (b : Bank) {v : Nat} (hv : v < 4) (s : State) :
    getF (powerTo b v s) (.memb b) MEMB_POWER.STATE = getF s (.memb b) MEMB_POWER.STATE ∧ (bankPower s b ≠ 2 → bankPower (powerTo b v s) b = v) ∧
    (v = 2 → bankPower (powerTo b v s) b = 2 ∧ ∀ e ∈ (powerTo b v s).mem.bytes, e.1 / 0x40000 ≠ b.val) ∧
    (bankPower s b = 2 → v ≠ 2 → bankPower (powerTo b v s) b = 0 ∧ (bank (powerTo b v s) b.val).zeroing = true) := by
  have hstate : ∀ k, getF (setF (.memb b) MEMB_STATUS.POWER k s) (.memb b) MEMB_POWER.STATE = getF s (.memb b) MEMB_POWER.STATE := fun k => getF_setF_split _ _ _ (by decide)
  have hpower : ∀ {k : Nat}, k < 4 → getF (setF (.memb b) MEMB_STATUS.POWER k s) (.memb b) MEMB_STATUS.POWER = k := fun h => bankPower_setPower s b h
  unfold powerTo
  extract_lets p src
  by_cases h2 : v = 2
  · rw [if_pos h2]
    have hoff : bankPower (setBank b.val { bank s b.val with zeroing := false } (zeroBank b.val (setF p MEMB_STATUS.POWER 2 s))) b = 2 :=
      (getF_setBank _ _ _ _ _).trans ((getF_zeroBank _ _ _ _).trans (hpower (by decide)))
    refine ⟨?_, fun _ => hoff.trans h2.symm, fun _ => ⟨hoff, ?_⟩, fun _ h => absurd h2 h⟩
    · rw [getF_setBank, getF_zeroBank]
      exact hstate 2
    · rw [bytes_setBank]
      exact zeroBank_bytes _ _
  · rw [if_neg h2]
    by_cases hp : bankPower s b = 2
    · rw [if_pos hp]
      refine ⟨?_, fun h => absurd hp h, fun h => absurd h h2, fun _ _ => ⟨?_, by rw [bank_setBank_self]⟩⟩
      · rw [getF_setBank]
        exact hstate 0
      · exact (getF_setBank _ _ _ _ _).trans (hpower (by decide))
    · rw [if_neg hp]
      exact ⟨hstate v, fun _ => hpower hv, fun h => absurd h h2, fun h => absurd h hp⟩

theorem membPower_effect (b : Bank) (v : Word) (s : State) : Yields (.membPowerWrite b v) s (fun t =>
    if getBits v 1 0 = 3 then t.mem = s.mem ∧ RegsBut [addr (.memb b) offErrCnt, addr (.memb b) offIntStat] s t
    else if getBits v 1 0 ≠ 0 ∧ powerBank b.val = false then intOf t (.memb b) MEMB_INT.POWER_REFUSED = true ∧ RegsBut [addr (.memb b) offIntStat] s t
    else getF t (.memb b) MEMB_POWER.STATE = getBits v 1 0 ∧ (bankPower s b ≠ 2 → bankPower t b = getBits v 1 0) ∧
      (getBits v 1 0 = 2 → bankPower t b = 2 ∧ ∀ e ∈ t.mem.bytes, e.1 / 0x40000 ≠ b.val) ∧
      (bankPower s b = 2 → getBits v 1 0 ≠ 2 → bankPower t b = 0 ∧ (bank t b.val).zeroing = true)) := by
  have hv : getBits v 1 0 < 4 := getBits_lt v 1 0
  have hex : exec (.membPowerWrite b v) s = .next (if getBits v 1 0 = 3 then countErr (.memb b) s
      else if getBits v 1 0 ≠ 0 ∧ powerBank b.val = false then raise (.memb b) MEMB_INT.POWER_REFUSED s
      else powerTo b (getBits v 1 0) (setF (.memb b) MEMB_POWER.STATE (getBits v 1 0) s)) := rfl
  refine Yields.branch hex Iff.rfl (fun _ => ⟨mem_countErr _ _, ((RegsBut.refl _ _).countErr (.tail _ (.head _)) (.head _))⟩) (fun _ => ?_)
  by_cases hr : getBits v 1 0 ≠ 0 ∧ powerBank b.val = false
  · rw [if_pos hr, if_pos hr]
    exact ⟨intOf_raise _ _ _ (by decide), (RegsBut.refl _ _).raise _ (.head _)⟩
  · rw [if_neg hr, if_neg hr]
    have hold : bankPower (setF (.memb b) MEMB_POWER.STATE (getBits v 1 0) s) b = bankPower s b := getF_setF_split _ _ _ (by decide)
    have hstate : getF (setF (.memb b) MEMB_POWER.STATE (getBits v 1 0) s) (.memb b) MEMB_POWER.STATE = getBits v 1 0 :=
      (getF_setF_self _ _ _ _ (by decide)).trans (Nat.mod_eq_of_lt hv)
    generalize setF (.memb b) MEMB_POWER.STATE (getBits v 1 0) s = z at hold hstate
    obtain ⟨h1, h2, h3, h4⟩ := powerTo_effect b hv z
    rw [hold] at h2 h4
    exact ⟨h1.trans hstate, h2, h3, h4⟩

/-! The Badger (R312, R313). -/

/-- What the Badger's walk leaves: every byte, and the registers outside its position. -/
def BadgerKept (s t : State) : Prop :=
  t.mem.bytes = s.mem.bytes ∧ ∀ g : Field, (fieldsSplit MEM_BADGER_POS.BANK g 0 0 && fieldsSplit MEM_BADGER_POS.STRIPE g 0 0 && fieldsSplit MEM_BADGER_POS.PASSES g 0 0) = true →
    FieldKept .mem g 0 s t

theorem BadgerKept.trans {s t u : State} (h : BadgerKept s t) (k : BadgerKept t u) : BadgerKept s u :=
  ⟨k.1.trans h.1, fun g hg => FieldKept.trans (h.2 g hg) (k.2 g hg)⟩

theorem regs_setMem (m : MemSt) (s : State) : ({ s with mem := m } : State).regs = s.regs := rfl

/-- The Badger at a stripe: its words are looked at from the first. -/
theorem badgerAt_eq (b stripe : Nat) (s : State) : (badgerAt b stripe s).mem.bytes = s.mem.bytes ∧
    (badgerAt b stripe s).regs = (setF .mem MEM_BADGER_POS.STRIPE stripe (setF .mem MEM_BADGER_POS.BANK b s)).regs := by
  unfold badgerAt
  generalize hz : setF .mem MEM_BADGER_POS.STRIPE stripe (setF .mem MEM_BADGER_POS.BANK b s) = z
  have hm : z.mem = s.mem := by rw [← hz, mem_setF, mem_setF]
  exact ⟨congrArg (·.bytes) hm, regs_setMem _ z⟩

theorem badgerAt_walk (b stripe : Nat) (s : State) : BadgerKept s (badgerAt b stripe s) := by
  obtain ⟨hm, hr⟩ := badgerAt_eq b stripe s
  refine ⟨hm, fun g hg => ?_⟩
  rw [Bool.and_eq_true, Bool.and_eq_true] at hg
  exact ((FieldKept.setF (.refl s) .mem MEM_BADGER_POS.BANK b (by decide) (.inr hg.1.1)).setF .mem MEM_BADGER_POS.STRIPE stripe (by decide) (.inr hg.1.2)).regs hr

theorem badgerAt_place (b stripe : Nat) (s : State) (hb : b < 128) (hs : stripe < 512) :
    getF (badgerAt b stripe s) .mem MEM_BADGER_POS.BANK = b ∧ getF (badgerAt b stripe s) .mem MEM_BADGER_POS.STRIPE = stripe := by
  obtain ⟨-, hr⟩ := badgerAt_eq b stripe s
  have h1 : getF (setF .mem MEM_BADGER_POS.STRIPE stripe (setF .mem MEM_BADGER_POS.BANK b s)) .mem MEM_BADGER_POS.BANK = b :=
    (getF_setF_split _ _ _ (by decide)).trans ((getF_setF_self _ _ _ _ (by decide)).trans (Nat.mod_eq_of_lt hb))
  have h2 : getF (setF .mem MEM_BADGER_POS.STRIPE stripe (setF .mem MEM_BADGER_POS.BANK b s)) .mem MEM_BADGER_POS.STRIPE = stripe :=
    (getF_setF_self _ _ _ _ (by decide)).trans (Nat.mod_eq_of_lt hs)
  exact ⟨(FieldKept.getF (.upd hr)).trans h1, (FieldKept.getF (.upd hr)).trans h2⟩

theorem bytes_setF (p : Page) (f : Field) (v : Nat) (s : State) : (setF p f v s).mem.bytes = s.mem.bytes := by rw [mem_setF]

theorem bytes_setB (p : Page) (f : Field) (b : Bool) (s : State) : (setB p f b s).mem.bytes = s.mem.bytes := by rw [mem_setB]

theorem bytes_countN (p : Page) (f : Field) (n : Nat) (s : State) : (countN p f n s).mem.bytes = s.mem.bytes := by rw [mem_countN]

theorem badgerFinds_nil (upto : Nat) (s : State) : badgerFinds upto [] s = s := rfl

theorem badgerRestart_walk (pass : Nat) (s : State) : BadgerKept s (badgerRestart pass s) := by
  have hpass : ∀ v, BadgerKept s (setF .mem MEM_BADGER_POS.PASSES v s) := fun v => ⟨bytes_setF _ _ _ _, fun g hg => by
    rw [Bool.and_eq_true] at hg
    exact FieldKept.setF (.refl s) _ _ _ (by decide) (.inr hg.2)⟩
  have step : ∀ v b, BadgerKept s (badgerAt b 0 (setF .mem MEM_BADGER_POS.PASSES v s)) := fun v b => (hpass v).trans (badgerAt_walk b 0 _)
  unfold badgerRestart
  extract_lets s1
  split
  · exact step _ _
  · exact step _ _

theorem badgerNext_walk (s : State) : BadgerKept s (badgerNext s) := by
  unfold badgerNext
  extract_lets b stripe
  split
  · exact badgerAt_walk _ _ _
  · split
    · exact badgerAt_walk _ _ _
    · exact badgerRestart_walk _ _

theorem badgerSeat_walk (s : State) : BadgerKept s (badgerSeat s) := by
  unfold badgerSeat
  split
  · exact ⟨rfl, fun _ _ => .refl s⟩
  · split
    · exact badgerAt_walk _ _ _
    · exact badgerRestart_walk _ _

/-- The Badger goes to the next stripe of its bank. -/
theorem badgerNext_place {s : State} (h : getF s .mem MEM_BADGER_POS.STRIPE < 511) :
    getF (badgerNext s) .mem MEM_BADGER_POS.BANK = getF s .mem MEM_BADGER_POS.BANK ∧ getF (badgerNext s) .mem MEM_BADGER_POS.STRIPE = getF s .mem MEM_BADGER_POS.STRIPE + 1 := by
  unfold badgerNext
  extract_lets b stripe
  rw [if_pos h]
  exact badgerAt_place _ _ _ (getBits_lt _ 15 9) (by omega)

theorem badgerBank_congr {s t : State} (h : ∀ g : Field, g = MEM_BADGER.FIRST_BANK ∨ g = MEM_BADGER.LAST_BANK → getF t .mem g = getF s .mem g)
    (hp : ∀ b, bankPower t b = bankPower s b) (b : Nat) : badgerBank t b = badgerBank s b := by
  unfold badgerBank
  rw [h _ (.inl rfl), h _ (.inr rfl), hp]

/-- The Badger at its stripe, shown as it runs. -/
def badgerRuns (s : State) : State := badgerSeat (setB .mem MEM_STATUS.BADGER_RUN true s)

theorem badgerRuns_effect (s : State) : (badgerRuns s).mem.bytes = s.mem.bytes ∧ isSet (badgerRuns s) .mem MEM_STATUS.BADGER_RUN = true ∧
    getF (badgerRuns s) .mem MEM_BADGER_YIELD_CNT.COUNT = getF s .mem MEM_BADGER_YIELD_CNT.COUNT := by
  obtain ⟨h1, h2⟩ := badgerSeat_walk (setB .mem MEM_STATUS.BADGER_RUN true s)
  exact ⟨h1.trans (bytes_setB _ _ _ _), (h2 _ (by decide)).isSet.trans (isSet_setB_self _ _ _ _ (by decide)), (h2 _ (by decide)).getF.trans (getF_setB_split _ _ _ (by decide))⟩

/-- A Badger whose bank takes part stays at its stripe. -/
theorem badgerRuns_place {s : State} (hb : badgerBank s (getF s .mem MEM_BADGER_POS.BANK) = true) :
    getF (badgerRuns s) .mem MEM_BADGER_POS.BANK = getF s .mem MEM_BADGER_POS.BANK ∧ getF (badgerRuns s) .mem MEM_BADGER_POS.STRIPE = getF s .mem MEM_BADGER_POS.STRIPE := by
  have hpos : ∀ g : Field, (MEM_STATUS.BADGER_RUN.ordered && fieldsSplit MEM_STATUS.BADGER_RUN g 0 0) = true → getF (setB .mem MEM_STATUS.BADGER_RUN true s) .mem g = getF s .mem g :=
    fun g hg => getF_setB_split _ _ _ hg
  have hbank : ∀ b, bankPower (setB .mem MEM_STATUS.BADGER_RUN true s) b = bankPower s b := fun b => getI_setI_page _ _ _ _ _ _ (by simp)
  have hseat : badgerRuns s = setB .mem MEM_STATUS.BADGER_RUN true s := by
    refine if_pos ?_
    rw [hpos _ (by decide), badgerBank_congr (s := s) (fun g hg => hpos g (by rcases hg with rfl | rfl <;> decide)) hbank]
    exact hb
  rw [hseat]
  exact ⟨hpos _ (by decide), hpos _ (by decide)⟩

/-- The cycles of a stripe, counted (R312). -/
def stripeCounted (n : Nat) (s : State) : State :=
  addConflict 55 0 n (countN (.memb (Fin.ofNat 128 (getF s .mem MEM_BADGER_POS.BANK))) MEMB_BUSY_CNT.COUNT n s)

theorem stripeCounted_effect (n : Nat) (s : State) : (stripeCounted n s).mem.bytes = s.mem.bytes ∧ ∀ g, FieldKept .mem g 0 s (stripeCounted n s) := by
  unfold stripeCounted
  generalize Fin.ofNat 128 (getF s .mem MEM_BADGER_POS.BANK) = b
  obtain ⟨h1, h2⟩ := addConflict_bytes 55 0 n (countN (.memb b) MEMB_BUSY_CNT.COUNT n s)
  exact ⟨h1.trans (bytes_countN _ _ _ _), fun g => FieldKept.regs (FieldKept.setF (.refl s) _ _ _ (by decide) (.inl rfl)) h2⟩

theorem badgerOff_effect (s : State) : (setB .mem MEM_STATUS.BADGER_RUN false s).mem.bytes = s.mem.bytes ∧ isSet (setB .mem MEM_STATUS.BADGER_RUN false s) .mem MEM_STATUS.BADGER_RUN = false :=
  ⟨bytes_setB _ _ _ _, isSet_setB_self _ _ _ _ (by decide)⟩

/-- A stripe tested without a find (R312). -/
theorem badgerStripe_effect (n : Nat) (s : State) : Yields (.badgerStripe [] n) s (fun t => t.mem.bytes = s.mem.bytes ∧ isSet t .mem MEM_STATUS.BADGER_RUN = badgerOn s ∧
    (badgerOn s = true → badgerBank s (getF s .mem MEM_BADGER_POS.BANK) = true → getF s .mem MEM_BADGER_POS.STRIPE < 511 →
      getF t .mem MEM_BADGER_POS.BANK = getF s .mem MEM_BADGER_POS.BANK ∧ getF t .mem MEM_BADGER_POS.STRIPE = getF s .mem MEM_BADGER_POS.STRIPE + 1)) := by
  have hex : exec (.badgerStripe [] n) s = .next (if !badgerOn s then setB .mem MEM_STATUS.BADGER_RUN false s else badgerNext (badgerFinds 63 [] (stripeCounted n (badgerRuns s)))) := rfl
  rw [badgerFinds_nil] at hex
  cases hon : badgerOn s with
  | true =>
    refine Yields.intro (hex.trans (congrArg Host.Outcome.next (if_neg (by rw [hon]; decide)))) ?_
    obtain ⟨h1, h2, -⟩ := badgerRuns_effect s
    have hplace := badgerRuns_place (s := s)
    generalize badgerRuns s = u at h1 h2 hplace
    obtain ⟨k1, k2⟩ := stripeCounted_effect n u
    generalize stripeCounted n u = v at k1 k2
    obtain ⟨n1, n2⟩ := badgerNext_walk v
    refine ⟨n1.trans (k1.trans h1), (n2 _ (by decide)).isSet.trans ((k2 _).isSet.trans h2), fun _ hb hs => ?_⟩
    obtain ⟨q1, q2⟩ := hplace hb
    obtain ⟨p1, p2⟩ := badgerNext_place (s := v) (by rw [(k2 _).getF, q2]; exact hs)
    exact ⟨p1.trans ((k2 _).getF.trans q1), p2.trans (by rw [(k2 _).getF, q2])⟩
  | false =>
    refine Yields.intro (hex.trans (congrArg Host.Outcome.next (if_pos (by rw [hon]; rfl)))) ?_
    obtain ⟨h1, h2⟩ := badgerOff_effect s
    exact ⟨h1, h2, fun h => by cases h⟩

/-- A stripe given up for a master, after the words looked at (R313). -/
def stripeYielded (last : Nat) (s : State) : State :=
  if 63 ≤ last then badgerNext s
  else if 16 ≤ s.mem.yields + 1 then badgerNext (raise .mem MEM_INT.BADGER_SKIP (Machine.count .mem MEM_BADGER_SKIP_CNT.COUNT s))
  else { s with mem := { s.mem with yields := s.mem.yields + 1, nextWord := last + 1 } }

theorem stripeYielded_effect (last : Nat) (s : State) : (stripeYielded last s).mem.bytes = s.mem.bytes ∧ FieldKept .mem MEM_STATUS.BADGER_RUN 0 s (stripeYielded last s) ∧
    FieldKept .mem MEM_BADGER_YIELD_CNT.COUNT 0 s (stripeYielded last s) := by
  unfold stripeYielded
  split
  · obtain ⟨n1, n2⟩ := badgerNext_walk s
    exact ⟨n1, n2 _ (by decide), n2 _ (by decide)⟩
  split
  · have hbytes : (raise .mem MEM_INT.BADGER_SKIP (Machine.count .mem MEM_BADGER_SKIP_CNT.COUNT s)).mem.bytes = s.mem.bytes := by rw [mem_raise, mem_count]
    have hk : ∀ g : Field, fieldsSplit MEM_BADGER_SKIP_CNT.COUNT g 0 0 = true → decide (g.offAt 0 % 0x1000 ≠ offIntStat) = true →
        FieldKept .mem g 0 s (raise .mem MEM_INT.BADGER_SKIP (Machine.count .mem MEM_BADGER_SKIP_CNT.COUNT s)) := fun g hg hi =>
      FieldKept.raise (FieldKept.count (.refl s) _ _ (by decide) (.inr hg)) _ _ hi
    generalize raise .mem MEM_INT.BADGER_SKIP (Machine.count .mem MEM_BADGER_SKIP_CNT.COUNT s) = u at hbytes hk
    obtain ⟨n1, n2⟩ := badgerNext_walk u
    exact ⟨n1.trans hbytes, (hk _ (by decide) (by decide)).trans (n2 _ (by decide)), (hk _ (by decide) (by decide)).trans (n2 _ (by decide))⟩
  · exact ⟨rfl, .upd rfl, .upd rfl⟩

theorem badgerYield_effect (k : Fin 64) (s : State) : Yields (.badgerYield k []) s (fun t => t.mem.bytes = s.mem.bytes ∧ isSet t .mem MEM_STATUS.BADGER_RUN = badgerOn s ∧
    (badgerOn s = true → getF t .mem MEM_BADGER_YIELD_CNT.COUNT = min (getF s .mem MEM_BADGER_YIELD_CNT.COUNT + 1) 0xFFFFFFFF)) := by
  have hex : exec (.badgerYield k []) s = .next (if !badgerOn s then setB .mem MEM_STATUS.BADGER_RUN false s else
      stripeYielded (max k.val (badgerRuns s).mem.nextWord) (Machine.count .mem MEM_BADGER_YIELD_CNT.COUNT (badgerFinds (max k.val (badgerRuns s).mem.nextWord) [] (badgerRuns s)))) := rfl
  rw [badgerFinds_nil] at hex
  cases hon : badgerOn s with
  | true =>
    refine Yields.intro (hex.trans (congrArg Host.Outcome.next (if_neg (by rw [hon]; decide)))) ?_
    generalize max k.val (badgerRuns s).mem.nextWord = last
    obtain ⟨h1, h2, h3⟩ := badgerRuns_effect s
    generalize badgerRuns s = u at h1 h2 h3
    obtain ⟨y1, y2, y3⟩ := stripeYielded_effect last (Machine.count .mem MEM_BADGER_YIELD_CNT.COUNT u)
    refine ⟨y1.trans ((bytes_countN _ _ _ _).trans h1), y2.isSet.trans ((FieldKept.count (.refl u) _ _ (by decide) (.inr (by decide))).isSet.trans h2), fun _ => ?_⟩
    rw [y3.getF, count_min _ _ (by decide) (by decide), h3]
  | false =>
    refine Yields.intro (hex.trans (congrArg Host.Outcome.next (if_pos (by rw [hon]; rfl)))) ?_
    obtain ⟨h1, h2⟩ := badgerOff_effect s
    exact ⟨h1, h2, fun h => by cases h⟩

/-! Repair (R314–R316). -/

theorem walking_congr {s t : State} (h : t.mem = s.mem) (b : Bank) (col : Nat) : walking t b col = walking s b col := by
  unfold walking
  rw [bank_congr h]

theorem spare_congr {s t : State} {b : Bank} (h : reg t (addr (.memb b) 0x104) = reg s (addr (.memb b) 0x104)) (k : Nat) : spare t b k = spare s b k := by
  unfold spare
  rw [h]

theorem runSoftRepair_effect {b : Bank} {src : CmdSrc} {s u : State} (hu : JustIssued (.memb b) (latch (.memb b) 1 src s) s u) :
    let t := runSoftRepair b (latch (.memb b) 1 src s) u
    let o := latch (.memb b) 1 src s
    let col := o.a0.toNat
    if 71 < col then Completed t (.memb b) CODE.BAD_ARG ∧ t.mem = s.mem
    else if bankPower s b ≠ 0 then Completed t (.memb b) CODE.REFUSED ∧ t.mem = s.mem
    else if columnRepaired s b col then Completed t (.memb b) 0x81 ∧ t.mem = s.mem
    else if walking s b col then Issued t (.memb b) o ∧ t.mem = s.mem
    else if (freeSpare s b).isNone then Completed t (.memb b) 0x80 ∧ t.mem = s.mem
    else Issued t (.memb b) o ∧ walking t b col = true := by
  generalize latch (.memb b) 1 src s = o at hu
  intro t o' col
  have ht : t = runSoftRepair b o u := rfl
  clear_value t
  have hmem : u.mem = s.mem := hu.within.same .mem (by rw [pageBit_memb]; rfl)
  have hdone : ∀ {k : Nat}, k < 256 → Completed (done (.memb b) k u) (.memb b) k ∧ (done (.memb b) k u).mem = s.mem := fun hk =>
    ⟨hu.done hk 0, (mem_done _ _ _).trans hmem⟩
  have hpower : bankPower s b = bankPower u b := (hu.field (q := .memb b) (f := MEMB_STATUS.POWER) (j := 0) (by simp) (by decide)).symm
  have hspare : ∀ k, spare s b k = spare u b k := fun k => (spare_congr (hu.past _ _ (by decide) (.inr (by decide)) (by simp)) k).symm
  have hrep : columnRepaired s b col = columnRepaired u b col := by
    unfold columnRepaired spareUsed spareColumn
    simp only [hspare]
  have hwalk : walking s b col = walking u b col := (walking_congr hmem b col).symm
  have hfree : freeSpare s b = freeSpare u b := by
    unfold freeSpare spareUsed
    simp only [hspare, bank_congr hmem]
  rw [hpower, hrep, hwalk, hfree]
  unfold runSoftRepair at ht
  by_cases h1 : 71 < col
  · rw [if_pos h1] at ht ⊢
    subst ht
    exact hdone (by decide)
  rw [if_neg h1] at ht ⊢
  by_cases h2 : bankPower u b ≠ 0
  · rw [if_pos h2] at ht ⊢
    subst ht
    exact hdone (by decide)
  rw [if_neg h2] at ht ⊢
  by_cases h3 : columnRepaired u b col = true
  · rw [if_pos h3] at ht ⊢
    subst ht
    exact hdone (by decide)
  rw [if_neg h3] at ht ⊢
  by_cases h4 : walking u b col = true
  · rw [if_pos h4] at ht ⊢
    subst ht
    exact ⟨hu.issued, hmem⟩
  rw [if_neg h4] at ht ⊢
  cases hf : freeSpare u b with
  | none =>
    rw [show o.a0.toNat = col from rfl, hf] at ht
    subst ht
    exact hdone (by decide)
  | some k =>
    rw [show o.a0.toNat = col from rfl, hf] at ht
    replace ht : t = startWalk b col k u := ht
    subst ht
    rw [if_neg (show ¬ (some k).isNone = true from Bool.false_ne_true)]
    have hk : CmdKept (.memb b) u (startWalk b col k u) := .upd rfl rfl
    refine ⟨hk.issued hu.issued, ?_⟩
    unfold walking startWalk
    rw [bank_setBank_self, List.any_append]
    simp

/-- The spare of a repair, as the register of the bank shows it. -/
theorem setSpare_effect (b : Bank) {k col : Nat} (hk : k < 2) (hcol : col < 72) (s : State) :
    spareUsed (takeSpare b k col s) b k = true ∧ spareColumn (takeSpare b k col s) b k = col := by
  have h : spare (takeSpare b k col s) b k = 0x8000 + col := by
    unfold spare takeSpare setSpare
    rw [reg_setReg_self, getBits_setBits _ _ (by omega) (by omega), show 16 * k + 15 + 1 - 16 * k = 16 by omega]
    exact Nat.mod_eq_of_lt (by omega)
  unfold spareUsed spareColumn
  rw [h]
  constructor
  · rw [Nat.testBit_eq_decide_div_mod_eq]
    exact decide_eq_true (by omega)
  · omega

/-- The command of the bank, if any, completes when its column is repaired. -/
def repairDone (b : Bank) (col : Nat) (s : State) : State :=
  match outstanding s (.memb b) with
  | some o => if getBits o.a0 31 0 = col then complete (.memb b) CODE.OK 0 s else s
  | none => s

theorem repairDone_kept (b : Bank) (col : Nat) (s : State) : (repairDone b col s).mem = s.mem ∧ (∀ x, 0x100 ≤ x → x < 0x1000 → reg (repairDone b col s) (addr (.memb b) x) = reg s (addr (.memb b) x)) ∧
    ∀ n, intOf s (.memb b) n = true → intOf (repairDone b col s) (.memb b) n = true := by
  unfold repairDone
  split
  · split
    · exact ⟨mem_complete _ _ _ _, fun x h0 h1 => reg_complete _ _ _ _ h1 (by simp) (.inr h0), fun n h => intOf_complete (by simp) _ _ h⟩
    · exact ⟨rfl, fun _ _ _ => rfl, fun _ h => h⟩
  · exact ⟨rfl, fun _ _ _ => rfl, fun _ h => h⟩

/-- The spare is in use, and the walk is over. -/
def walkOver (b : Bank) (col k : Nat) (rest : List (Nat × Nat)) (s : State) : State := takeSpare b k col (setBank b.val { bank s b.val with walks := rest } s)

theorem exec_walkEnd {b : Bank} {s : State} {col k : Nat} {rest : List (Nat × Nat)} (h : (bank s b.val).walks = (col, k) :: rest) :
    exec (.softRepairWalkEnd b) s = .next (repairDone b col (raise (.memb b) MEMB_INT.REPAIRED (walkOver b col k rest s))) := by
  show execSoftRepairWalkEnd b s = _
  unfold execSoftRepairWalkEnd
  extract_lets p
  rw [h]
  rfl

theorem walkEnd_effect {b : Bank} {s : State} {w : Nat × Nat} (hw : (bank s b.val).walks.head? = some w) (h1 : w.1 < 72) (h2 : w.2 < 2) : Yields (.softRepairWalkEnd b) s (fun t =>
    spareUsed t b w.2 = true ∧ spareColumn t b w.2 = w.1 ∧ (bank t b.val).walks = (bank s b.val).walks.tail ∧ intOf t (.memb b) MEMB_INT.REPAIRED = true) := by
  obtain ⟨col, k⟩ := w
  obtain ⟨rest, hrest⟩ := List.head?_eq_some_iff.mp hw
  refine Yields.intro (exec_walkEnd hrest) ?_
  have hspare : spareUsed (walkOver b col k rest s) b k = true ∧ spareColumn (walkOver b col k rest s) b k = col := setSpare_effect b h2 h1 _
  have hbank : (bank (walkOver b col k rest s) b.val).walks = rest := by
    unfold walkOver takeSpare setSpare
    rw [bank_congr (mem_setReg _ _ _), bank_setBank_self]
  generalize walkOver b col k rest s = v at hspare hbank
  obtain ⟨k1, k2, k3⟩ := repairDone_kept b col (raise (.memb b) MEMB_INT.REPAIRED v)
  have hreg : reg (repairDone b col (raise (.memb b) MEMB_INT.REPAIRED v)) (addr (.memb b) 0x104) = reg v (addr (.memb b) 0x104) :=
    (k2 _ (by decide) (by decide)).trans (reg_raise_other _ _ _ (by decide) (.inr (by decide)))
  refine ⟨?_, ?_, ?_, k3 _ (intOf_raise _ _ _ (by decide))⟩
  · unfold spareUsed
    rw [spare_congr hreg]
    exact hspare.1
  · unfold spareColumn
    rw [spare_congr hreg]
    exact hspare.2
  · rw [bank_congr (k1.trans (mem_raise _ _ _)), hbank, hrest]
    rfl

/-! Fuses and the conflict counters (R311, R317). -/

/-- A burn that is done (R316): its result, the request disarmed, and the fuses. -/
def fuseShown (result : Nat) (fuses : List (Nat × Nat × Nat)) (s : State) : State :=
  raise .mem MEM_INT.FUSE_DONE (setB .mem MEM_STATUS.FUSE_BUSY false (setF .mem MEM_FUSE_REQ.ARM 0
    (setF .mem MEM_FUSE_STAT.RESULT result { s with mem := { s.mem with fuses := fuses } })))

theorem fuseShown_effect {result : Nat} (hr : result < 4) (fuses : List (Nat × Nat × Nat)) (s : State) : let t := fuseShown result fuses s
    isSet t .mem MEM_STATUS.FUSE_BUSY = false ∧ intOf t .mem MEM_INT.FUSE_DONE = true ∧ getF t .mem MEM_FUSE_REQ.ARM = 0 ∧ getF t .mem MEM_FUSE_STAT.RESULT = result ∧
      t.mem = { s.mem with fuses := fuses } := by
  unfold fuseShown
  obtain ⟨z, hz⟩ : ∃ z, ({ s with mem := { s.mem with fuses := fuses } } : State) = z := ⟨_, rfl⟩
  have hmem : z.mem = { s.mem with fuses := fuses } := by rw [← hz]
  rw [hz]
  refine ⟨?_, intOf_raise _ _ _ (by decide), ?_, ?_, ?_⟩
  · exact (FieldKept.raise (.refl _) _ _ (by decide)).isSet.trans (isSet_setB_self _ _ _ _ (by decide))
  · exact (FieldKept.raise (.refl _) _ _ (by decide)).getF.trans ((getF_setB_split _ _ _ (by decide)).trans ((getF_setF_self _ _ _ _ (by decide))))
  · exact (FieldKept.raise (.refl _) _ _ (by decide)).getF.trans ((getF_setB_split _ _ _ (by decide)).trans ((getF_setF_split _ _ _ (by decide)).trans
      ((getF_setF_self _ _ _ _ (by decide)).trans (Nat.mod_eq_of_lt hr))))
  · rw [mem_raise, mem_setB, mem_setF, mem_setF, hmem]

/-- The result of a burn (R316): a fused spare, a spare in use for another column, or the burn. -/
def fuseResult (s : State) : Nat :=
  if fusedSpare s (Fin.ofNat 128 (getF s .mem MEM_FUSE_REQ.BANK)) (getF s .mem MEM_FUSE_REQ.SPARE) then 3
  else if spareUsed s (Fin.ofNat 128 (getF s .mem MEM_FUSE_REQ.BANK)) (getF s .mem MEM_FUSE_REQ.SPARE) &&
    decide (spareColumn s (Fin.ofNat 128 (getF s .mem MEM_FUSE_REQ.BANK)) (getF s .mem MEM_FUSE_REQ.SPARE) ≠ getF s .mem MEM_FUSE_REQ.COLUMN) then 2
  else 1

theorem fuseResult_range (s : State) : fuseResult s < 4 ∧
    (fusedSpare s (Fin.ofNat 128 (getF s .mem MEM_FUSE_REQ.BANK)) (getF s .mem MEM_FUSE_REQ.SPARE) = true → fuseResult s = 3) ∧
    (¬ fusedSpare s (Fin.ofNat 128 (getF s .mem MEM_FUSE_REQ.BANK)) (getF s .mem MEM_FUSE_REQ.SPARE) = true → fuseResult s ≠ 3) := by
  unfold fuseResult
  split
  · exact ⟨by decide, fun _ => rfl, fun h => absurd ‹_› h⟩
  · split
    · exact ⟨by decide, fun h => absurd h ‹_›, fun _ => by decide⟩
    · exact ⟨by decide, fun h => absurd h ‹_›, fun _ => by decide⟩

theorem fuseBurn_effect (s : State) : Yields .fuseBurnDone s (fun t =>
    if isSet s .mem MEM_STATUS.FUSE_BUSY = false then t = s
    else isSet t .mem MEM_STATUS.FUSE_BUSY = false ∧ intOf t .mem MEM_INT.FUSE_DONE = true ∧ getF t .mem MEM_FUSE_REQ.ARM = 0 ∧
      (if fusedSpare s (Fin.ofNat 128 (getF s .mem MEM_FUSE_REQ.BANK)) (getF s .mem MEM_FUSE_REQ.SPARE) then
        getF t .mem MEM_FUSE_STAT.RESULT = 3 ∧ t.mem = s.mem
      else t.mem.fuses = s.mem.fuses ++ [(getF s .mem MEM_FUSE_REQ.BANK % 128, getF s .mem MEM_FUSE_REQ.SPARE, getF s .mem MEM_FUSE_REQ.COLUMN)])) := by
  have hex : exec .fuseBurnDone s = .next (if (!isSet s .mem MEM_STATUS.FUSE_BUSY) = true then s else fuseShown (fuseResult s) (if fuseResult s = 3 then s.mem.fuses else s.mem.fuses ++
      [(getF s .mem MEM_FUSE_REQ.BANK % 128, getF s .mem MEM_FUSE_REQ.SPARE, getF s .mem MEM_FUSE_REQ.COLUMN)]) s) := rfl
  refine Yields.unless hex (by rw [Bool.not_eq_true']) (fun _ => ?_)
  obtain ⟨hlt, hpos, hneg⟩ := fuseResult_range s
  obtain ⟨h1, h2, h3, h4, h5⟩ := fuseShown_effect hlt (if fuseResult s = 3 then s.mem.fuses else s.mem.fuses ++
      [(getF s .mem MEM_FUSE_REQ.BANK % 128, getF s .mem MEM_FUSE_REQ.SPARE, getF s .mem MEM_FUSE_REQ.COLUMN)]) s
  refine ⟨h1, h2, h3, ?_⟩
  by_cases hf : fusedSpare s (Fin.ofNat 128 (getF s .mem MEM_FUSE_REQ.BANK)) (getF s .mem MEM_FUSE_REQ.SPARE) = true
  · rw [if_pos hf]
    exact ⟨h4.trans (hpos hf), by rw [h5, if_pos (hpos hf)]⟩
  · rw [if_neg hf, h5, if_neg (hneg hf)]

theorem memCntSel_effect (v : Word) (s : State) : Yields (.memCntSelWrite v) s (fun t =>
    if 55 < getBits v 5 0 then RegsBut [addr .mem offErrCnt, addr .mem offIntStat] s t
    else getF t .mem MEM_CNT_SEL.MASTER = getBits v 5 0 ∧ getF t .mem MEM_CNT_BUSY.COUNT = (conflict s (getBits v 5 0)).busy % 2 ^ 32 ∧
      getF t .mem MEM_CNT_WAIT.COUNT = (conflict s (getBits v 5 0)).wait % 2 ^ 32) := by
  have hex : exec (.memCntSelWrite v) s = .next (if 55 < getBits v 5 0 then countErr .mem s
      else setF .mem MEM_CNT_BUSY.COUNT (conflict s (getBits v 5 0)).busy (setF .mem MEM_CNT_WAIT.COUNT (conflict s (getBits v 5 0)).wait (setF .mem MEM_CNT_SEL.MASTER (getBits v 5 0) s))) := rfl
  refine Yields.branch hex Iff.rfl (fun _ => (RegsBut.refl _ _).countErr (.tail _ (.head _)) (.head _)) (fun _ => ?_)
  have hm : getBits v 5 0 < 64 := getBits_lt v 5 0
  generalize getBits v 5 0 = m at hm
  refine ⟨?_, getF_setF_self _ _ _ _ (by decide), ?_⟩
  · rw [getF_setF_split _ _ _ (by decide), getF_setF_split _ _ _ (by decide), getF_setF_self _ _ _ _ (by decide)]
    exact Nat.mod_eq_of_lt hm
  · rw [getF_setF_split _ _ _ (by decide), getF_setF_self _ _ _ _ (by decide)]
    rfl

theorem runTestBank_effect {src : CmdSrc} {s u : State} (hu : JustIssued .mem (latch .mem 2 src s) s u) : let t := runTestBank (latch .mem 2 src s) u
    t.mem = s.mem ∧ if 127 < (latch .mem 2 src s).a0.toNat then Completed t .mem CODE.BAD_ARG
    else if mode s ≠ MODE.TEST then Completed t .mem CODE.REFUSED else Issued t .mem (latch .mem 2 src s) := by
  generalize latch .mem 2 src s = o at hu
  have hmem : u.mem = s.mem := hu.within.same .mem rfl
  have hmode : mode u = mode s := hu.field (q := .boot) (f := BOOT_STATUS.MODE) (j := 0) (by decide) (by decide)
  intro t
  have ht : t = runTestBank o u := rfl
  clear_value t
  unfold runTestBank at ht
  rw [hmode] at ht
  by_cases h1 : 127 < o.a0.toNat
  · rw [if_pos h1] at ht ⊢
    subst ht
    exact ⟨(mem_done _ _ _).trans hmem, hu.done (by decide) 0⟩
  rw [if_neg h1] at ht ⊢
  by_cases h2 : mode s ≠ MODE.TEST
  · rw [if_pos h2] at ht ⊢
    subst ht
    exact ⟨(mem_done _ _ _).trans hmem, hu.done (by decide) 0⟩
  · rw [if_neg h2] at ht ⊢
    subst ht
    exact ⟨hmem, hu.issued⟩

/-- Settles O52: the window stores and returns bytes only where the access has its shape and its bank is on, and the Badger and repair keep every byte. -/
theorem commonsMemory : Obligations.CommonsMemory := by
  unfold Obligations.CommonsMemory
  refine ⟨windowRead_effect, fun off n w e c s => ⟨fun h => ?_, ?_, ?_⟩, windowWrite_effect, grantTimeout_effect, membPower_effect, fun b s => ?_, fun b s => ?_,
    badgerStripe_effect, badgerYield_effect, fun b src s ht => Yields.issue rfl ht (fun u hu => runSoftRepair_effect hu), fun b s h => ?_,
    fun b s w hw h1 h2 => walkEnd_effect hw h1 h2, fuseBurn_effect, memCntSel_effect, fun src s ht => Yields.issue rfl ht (fun u hu => ?_),
    fun src s ht => Yields.issue rfl ht (fun u hu => runTestBank_effect hu)⟩
  · have hex : ∀ z : State, exec (.windowAccess off (.read n) e c w) s = .next (if winShape off.toNat n then
        collide (winAddr s off.toNat) false c (winRead (winAddr s off.toNat) n e (addConflict 17 w 0 s)) else returnBytes (allOnes n) (unperformed s)) := fun _ => rfl
    exact Yields.intro ((hex s).trans (congrArg Host.Outcome.next (if_neg (by rw [h]; decide)))) (refused_effect n s)
  · exact Yields.intro rfl (refused_effect n s)
  · exact Yields.intro rfl (unperformed_effect s)
  · refine Yields.guard (x := setF (.memb b) MEMB_STATUS.POWER 1 s) rfl Iff.rfl (fun _ => ⟨bankPower_setPower s b (by decide), mem_setF _ _ _ _, (RegsBut.refl _ _).setF _ (.head _)⟩)
  · exact Yields.intro (t := setBank b.val { bank s b.val with zeroing := false } s) rfl ⟨bank_setBank_self _ _ _, rfl, (RegsBut.refl _ _).upd rfl⟩
  · show execSoftRepairWalkEnd b s = _
    unfold execSoftRepairWalkEnd
    rw [h]
  · refine ⟨hu.code (v := clearConflicts u) (CmdKept.upd rfl rfl) (k := CODE.OK) (by decide) 0, fun m => ?_⟩
    unfold conflict
    rw [mem_done]
    rfl

end Sys2Proof.Machine
end

section
/-!
PROOFS. Downlink frames: descriptors, retransmission, completions and tone maps (R222, R381, R382).
-/
namespace Sys2Proof.Machine

/-! The store of downlink frames. -/

/-- A frame of the store, found by its number. -/
theorem frameOf_id {s : State} {n : Nat} {f : Frame} (h : frameOf s n = some f) : f.id = n :=
  of_decide_eq_true (p := f.id = n) (List.find?_some (p := fun g : Frame => decide (g.id = n)) h)

theorem find_map_replaced (f : Frame) : ∀ (l : List Frame), (l.find? (fun g => decide (g.id = f.id))).isSome = true →
    (l.map (fun g => if g.id = f.id then f else g)).find? (fun g => decide (g.id = f.id)) = some f
  | [], h => by cases h
  | g :: l, h => by
    rw [List.map_cons]
    by_cases hg : g.id = f.id
    · rw [if_pos hg, List.find?_cons_of_pos (by simp)]
    · rw [if_neg hg, List.find?_cons_of_neg (by simp [hg])]
      rw [List.find?_cons_of_neg (by simp [hg])] at h
      exact find_map_replaced f l h

/-- A frame written back under its number is the one found there. -/
theorem frameOf_setFrame {s : State} {n : Nat} {f g : Frame} (h : frameOf s n = some g) (hid : f.id = n) : frameOf (setFrame f s) n = some f := by
  subst hid
  exact find_map_replaced f s.mac.frames (by rw [show s.mac.frames.find? (fun g => decide (g.id = f.id)) = some g from h]; rfl)

theorem frameOf_dropped (n : Nat) (s : State) : frameOf (dropFrame n s) n = none := by
  refine List.find?_eq_none.mpr (fun g hg => ?_)
  have h := (List.mem_filter.mp hg).2
  simpa using h

theorem frameOf_congr {s t : State} (h : t.mac = s.mac) (n : Nat) : frameOf t n = frameOf s n := by
  unfold frameOf
  rw [h]

/-- A completion for a ring waits behind the others, with the superframe it was made in. -/
theorem dlDone_ring (r : Nat) (lane : Option Nat) (cookie status attempts : Nat) (s : State) : (dlDone (some r) lane cookie status attempts s).mac = s.mac ∧
    (dlDone (some r) lane cookie status attempts s).link.done = s.link.done ++ [⟨some r, lane, cookie, status, attempts, sfn s⟩] := by
  unfold dlDone
  rw [if_neg (fun h => absurd h.1 Bool.false_ne_true)]
  exact ⟨rfl, rfl⟩

theorem finishFrame_effect (f : Frame) (status : Nat) (s : State) : frameOf (finishFrame f status s) f.id = none ∧
    ∀ r, f.ring = some r → (finishFrame f status s).link.done = s.link.done ++ [⟨some r, f.lane, f.cookie, status, f.sends, sfn s⟩] := by
  constructor
  · exact (frameOf_congr (mac_dlDone _ _ _ _ _ _) _).trans (frameOf_dropped _ _)
  · intro r hr
    unfold finishFrame
    rw [hr]
    exact (dlDone_ring r _ _ _ _ _).2

/-! Retransmission (R222) and SF2 frames (R477). -/

theorem retransmit_effect {n : Nat} {s : State} {f : Frame} (h : frameOf s n = some f) (hs : f.stage = .waitAck) (hr : reached s f.due = true) : Yields (.retransmitTimeout n) s (fun t =>
    (f.sends ≤ 3 → frameOf t n = some { f with stage := .ready, waits := 0, due := sfn s }) ∧
    (3 < f.sends → f.kind ≠ .repeater → frameOf t n = none ∧ ∀ r, f.ring = some r →
      t.link.done = s.link.done ++ [⟨some r, f.lane, f.cookie, DST.NO_ACK, f.sends, sfn s⟩])) := by
  have hid := frameOf_id h
  have hex : exec (.retransmitTimeout n) s = .next (retransmit f s) := by
    show execRetransmitTimeout n s = _
    unfold execRetransmitTimeout
    rw [h]
    exact congrArg Host.Outcome.next (if_pos ⟨hs, hr⟩)
  refine Yields.intro hex ⟨fun h3 => ?_, fun h3 hk => ?_⟩
  · unfold retransmit
    rw [if_pos h3]
    exact frameOf_setFrame (f := { f with stage := .ready, waits := 0, due := sfn s }) h hid
  · unfold retransmit
    rw [if_neg (Nat.not_le.mpr h3), if_neg hk, ← hid]
    exact finishFrame_effect f _ s

theorem retransmit_early {n : Nat} {s : State} {f : Frame} (h : frameOf s n = some f) (hn : f.stage ≠ .waitAck ∨ reached s f.due = false) : exec (.retransmitTimeout n) s = .next s := by
  show execRetransmitTimeout n s = _
  unfold execRetransmitTimeout
  rw [h]
  exact congrArg Host.Outcome.next (if_neg (fun e => hn.elim (fun h => h e.1) (fun h => by rw [h] at e; exact absurd e.2 Bool.false_ne_true)))

theorem exec_sf2Recheck {n : Nat} {s : State} {f : Frame} (h : frameOf s n = some f) (good : Bool) : exec (.sf2Recheck n good) s =
    .next (if (f.sf2 && decide (f.stage = .queued)) = true then (if good then submitFrame { f with rechecked := true } s else sf2Discard f 5 s) else s) := by
  show execSf2Recheck n good s = _
  unfold execSf2Recheck
  rw [h]

theorem frames_nextFseq (i : Nat) (w : Wave) (s : State) : (nextFseq i w s).2.mac.frames = s.mac.frames := by
  unfold nextFseq setCtx
  dsimp only
  rw [mac_setAssoc]

/-- The frame of a job submitted stands in the store as it was given, but for its number on the line and its stage. -/
theorem submitFrame_frame {n : Nat} {s : State} {f g : Frame} (h : frameOf s n = some g) (hid : f.id = n) :
    ∃ q, frameOf (submitFrame f s) n = some { f with fseq := q, stage := .job } := by
  have hjob : ∀ r j u, frameOf (submitJob r j u) n = frameOf u n := fun r j u => frameOf_congr ((submitJob_within (m := 0x100000000000) .refl r j rfl).same .mac rfl) n
  have key : ∀ q (u : State), u.mac.frames = s.mac.frames → frameOf (setFrame { f with fseq := q, stage := .job } u) n = some { f with fseq := q, stage := .job } := fun q u hu =>
    frameOf_setFrame (f := { f with fseq := q, stage := .job }) (g := g) (by unfold frameOf at h ⊢; rw [hu]; exact h) hid
  unfold submitFrame
  extract_lets c
  split
  next q u e =>
  refine ⟨q, (hjob _ _ _).trans (key q u ?_)⟩
  by_cases hs : c.session = true
  · rw [if_pos hs] at e
    cases e
    rfl
  · rw [if_neg hs] at e
    rw [← frames_nextFseq f.index f.wave s, e]

theorem sf2Discard_effect {n : Nat} {s : State} {f : Frame} (hid : f.id = n) (reason : Nat) : frameOf (sf2Discard f reason s) n = none ∧ ∀ r, f.ring = some r →
    (sf2Discard f reason s).link.done = s.link.done ++ [⟨some r, f.lane, f.cookie, DST.SAFETY, f.sends, sfn s⟩] := by
  have hw : Within 0x20000028000028 s (sf2Reject reason f.index f.seq s) := sf2Reject_within .refl _ _ _ rfl
  have hlink : (sf2Reject reason f.index f.seq s).link = s.link := hw.same .link rfl
  have hsfn : sfn (sf2Reject reason f.index f.seq s) = sfn s := hw.getF_addr .bcn _ rfl
  obtain ⟨h1, h2⟩ := finishFrame_effect f DST.SAFETY (sf2Reject reason f.index f.seq s)
  subst hid
  exact ⟨h1, fun r hr => (h2 r hr).trans (by rw [hlink, hsfn])⟩

/-! Descriptors (R381). -/

theorem takeDescriptor_eq {r : Nat} (d : DlDesc) {s : State} (hp : ringPosted s r = true) (ht : takesDown s = true) (ho : outstanding s .pci = none) :
    takeDescriptor r d s = takeDown (some r) none d (takeEntry r s) := by
  unfold takeDescriptor
  rw [hp, ht, ho]
  rfl

theorem takeDescriptor_idle {r : Nat} (d : DlDesc) {s : State} (h : ringPosted s r = false ∨ takesDown s = false) : takeDescriptor r d s = s := by
  unfold takeDescriptor
  refine if_pos ?_
  rcases h with h | h
  · rw [h]
    rfl
  · rw [h]
    simp

theorem ringError_cons {k : Nat} (hk : k < 29) (r : Nat) (s : State) : FieldKept .pci PCI_RING.SQ_CONS k s (ringError r s) := by
  have herr : ∀ i : Fin 29, fieldsSplit PCI_RING_ERR.ERR PCI_RING.SQ_CONS 0 i.val = true ∧ decide (PCI_RING.SQ_CONS.offAt i.val % 0x1000 ≠ offIntStat) = true := by decide
  obtain ⟨h1, h2⟩ := herr ⟨k, hk⟩
  unfold ringError
  extract_lets m
  exact ((((FieldKept.refl s).setF _ _ _ (by decide) (.inr h1)).raise _ _ h2).raise _ _ h2).trans
    (.within (q := .pci) (logPage_within (m := 0x20000028000020) .refl _ _ _ rfl) rfl)

theorem dlDone_cons (k : Nat) (ring lane : Option Nat) (c st n : Nat) (s : State) : FieldKept .pci PCI_RING.SQ_CONS k s (dlDone ring lane c st n s) :=
  .within (q := .pci) (dlDone_within (m := 0x200000000000) .refl _ _ _ _ _ rfl) rfl

/-- Whatever becomes of a descriptor, the consumer index of its ring stands. -/
theorem takeDown_cons {k : Nat} (hk : k < 29) (lane : Option Nat) (d : DlDesc) (r : Nat) (s : State) : FieldKept .pci PCI_RING.SQ_CONS k s (takeDown (some r) lane d s) := by
  unfold takeDown
  extract_lets i n out
  split
  · exact dlDone_cons _ _ _ _ _ _ _
  split
  · exact (ringError_cons hk r s).trans (dlDone_cons _ _ _ _ _ _ _)
  split
  · exact dlDone_cons _ _ _ _ _ _ _
  split
  · exact dlDone_cons _ _ _ _ _ _ _
  split
  · exact dlDone_cons _ _ _ _ _ _ _
  · exact .within (q := .pci) (storeFrame_within (m := 0x20b8002800a228) .refl _ _ _ _ rfl) rfl

/-- A descriptor that is answered at once stores no frame. -/
theorem takeDown_answer (r : Nat) (d : DlDesc) (s : State) :
    (d.len.toNat = 0 ∨ 16381 < d.len.toNat ∨ 2 < d.wave.toNat → takeDown (some r) none d s = dlDone (some r) none d.cookie.toNat DST.BAD_DESC 0 s) ∧
    (0 < d.len.toNat → d.len.toNat ≤ 16381 → d.wave.toNat ≤ 2 → d.data.isSome = true →
      (tableSize ≤ d.index.toNat ∨ (ctx s d.index.toNat).state ≠ CST.ACTIVE → takeDown (some r) none d s = dlDone (some r) none d.cookie.toNat DST.NOT_ASSOC 0 s) ∧
      (d.index.toNat < tableSize → (ctx s d.index.toNat).state = CST.ACTIVE → getF s .pci PCI_DL_CFG.PER_EP ≤ heldFor s d.index.toNat →
        takeDown (some r) none d s = dlDone (some r) none d.cookie.toNat DST.EP_BUSY 0 s)) := by
  unfold takeDown
  refine ⟨fun h => if_pos h, fun h1 h2 h3 hd => ?_⟩
  extract_lets i n out
  obtain ⟨l, hl⟩ := Option.isSome_iff_exists.mp hd
  rw [if_neg (by omega), hl]
  refine ⟨fun h => if_pos h, fun h4 h5 h6 => ?_⟩
  exact (if_neg (fun h => h.elim (fun h => absurd h (Nat.not_le.mpr h4)) (fun h => h h5))).trans (if_pos h6)

theorem descriptor_effect (r : Fin 16) (d : DlDesc) (s : State) : let t := takeDown (some r.val) none d (takeEntry r.val s)
    getI t .pci PCI_RING.SQ_CONS r.val = (getI s .pci PCI_RING.SQ_CONS r.val + 1) % 2 ^ 32 ∧
    (d.len.toNat = 0 ∨ 16381 < d.len.toNat ∨ 2 < d.wave.toNat → t.mac.frames = s.mac.frames ∧
      t.link.done = s.link.done ++ [⟨some r.val, none, d.cookie.toNat, DST.BAD_DESC, 0, sfn s⟩]) ∧
    (0 < d.len.toNat → d.len.toNat ≤ 16381 → d.wave.toNat ≤ 2 → d.data.isSome = true →
      (tableSize ≤ d.index.toNat ∨ (ctx s d.index.toNat).state ≠ CST.ACTIVE → t.mac.frames = s.mac.frames ∧
        t.link.done = s.link.done ++ [⟨some r.val, none, d.cookie.toNat, DST.NOT_ASSOC, 0, sfn s⟩]) ∧
      (d.index.toNat < tableSize → (ctx s d.index.toNat).state = CST.ACTIVE → getF s .pci PCI_DL_CFG.PER_EP ≤ heldFor s d.index.toNat →
        t.mac.frames = s.mac.frames ∧ t.link.done = s.link.done ++ [⟨some r.val, none, d.cookie.toNat, DST.EP_BUSY, 0, sfn s⟩])) := by
  have hper : ∀ i : Fin 16, fieldsSplit PCI_RING.SQ_CONS PCI_DL_CFG.PER_EP i.val 0 = true := by decide
  have hcons : getI (takeEntry r.val s) .pci PCI_RING.SQ_CONS r.val = (getI s .pci PCI_RING.SQ_CONS r.val + 1) % 2 ^ 32 :=
    (getI_setI_self _ _ _ _ _ (by decide)).trans (Nat.mod_mod _ _)
  have hmac : (takeEntry r.val s).mac = s.mac := mac_setI _ _ _ _ _
  have hlink : (takeEntry r.val s).link = s.link := link_setI _ _ _ _ _
  have hsfn : sfn (takeEntry r.val s) = sfn s := FieldKept.setI (.refl s) (q := .bcn) (g := BCN_SFN.SFN) (j := 0) .pci _ _ _ (by decide) (.inl rfl)
  have hlimit : getF (takeEntry r.val s) .pci PCI_DL_CFG.PER_EP = getF s .pci PCI_DL_CFG.PER_EP := FieldKept.setI (.refl s) .pci _ _ _ (by decide) (.inr (hper r))
  generalize takeEntry r.val s = u at hcons hmac hlink hsfn hlimit
  have hctx : ctx u d.index.toNat = ctx s d.index.toNat := by
    unfold ctx assoc
    rw [hmac]
  have hheld : heldFor u d.index.toNat = heldFor s d.index.toNat := by
    unfold heldFor
    rw [hmac]
  obtain ⟨h1, h2⟩ := takeDown_answer r.val d u
  rw [hctx, hheld, hlimit] at h2
  have hans : ∀ k, (dlDone (some r.val) none d.cookie.toNat k 0 u).mac.frames = s.mac.frames ∧
      (dlDone (some r.val) none d.cookie.toNat k 0 u).link.done = s.link.done ++ [⟨some r.val, none, d.cookie.toNat, k, 0, sfn s⟩] := fun k => by
    obtain ⟨d1, d2⟩ := dlDone_ring r.val none d.cookie.toNat k 0 u
    exact ⟨by rw [d1, hmac], by rw [d2, hlink, hsfn]⟩
  refine ⟨Eq.trans (takeDown_cons (by omega) none d r.val u) hcons, fun h => ?_, fun a b c e => ⟨fun h => ?_, fun x y z => ?_⟩⟩
  · rw [h1 h]
    exact hans _
  · rw [(h2 a b c e).1 h]
    exact hans _
  · rw [(h2 a b c e).2 x y z]
    exact hans _

/-! Completions (R382). -/

theorem done_laneSend (l : Nat) (f : TunnelFrame) (s : State) : (laneSend l f s).link.done = s.link.done := by
  unfold laneSend
  split
  · rfl
  split
  · rfl
  · unfold laneTx
    extract_lets x
    rw [link_count]
    rfl

theorem done_sendDownStatus (l : Nat) (d : DlDone) (s : State) : (sendDownStatus l d s).link.done = s.link.done := by
  unfold sendDownStatus
  extract_lets f
  split
  · exact done_laneSend _ _ _
  split
  · exact done_laneSend _ _ _
  · rw [link_count]

theorem done_deliverDone (d : DlDone) (s : State) : (deliverDone d s).link.done = s.link.done := by
  unfold deliverDone
  split
  · split
    · rw [link_count]
    · rw [link_count, (ringComplete_within (m := 0x20000030000800) (.refl (s := s)) _ _ rfl).same .link rfl]
  · exact done_sendDownStatus _ _ _
  · rfl

/-- The producer index of a ring is no counter of frames. -/
theorem prodSplit (r : Nat) : fieldsSplit PCI_RING.CQ_PROD PCI_DL_DONE_CNT.COUNT r 0 = true := by
  unfold fieldsSplit
  have e : PCI_RING.CQ_PROD.offAt r = 0x418 + r * 0x20 := rfl
  rw [e, Field.offAt_zero, show PCI_DL_DONE_CNT.COUNT.off = 0x110 from rfl, Bool.or_eq_true, Bool.or_eq_true, decide_eq_true_eq]
  omega

theorem deliverDone_counted {d : DlDone} {r : Nat} (h : d.ring = some r) (hr : r ≠ lostRing) (s : State) :
    getF (deliverDone d s) .pci PCI_DL_DONE_CNT.COUNT = min (getF s .pci PCI_DL_DONE_CNT.COUNT + 1) 0xFFFFFFFF := by
  unfold deliverDone
  rw [h]
  dsimp only
  rw [if_neg hr, count_min _ _ (by decide) (by decide), (ringComplete_field (.inr (prodSplit r)) _ _).getF]

theorem dlCompletion_effect {s : State} (hpci : outstanding s .pci = none) (hpair : outstanding s .pair = none) : Yields .dlCompletion s (fun t =>
    t.link.done = s.link.done.tail ∧ t.mac.frames = s.mac.frames ∧ (s.link.done = [] → t = s) ∧
    ∀ d, s.link.done.head? = some d → ∀ r, d.ring = some r → r ≠ lostRing →
      getF t .pci PCI_DL_DONE_CNT.COUNT = min (getF s .pci PCI_DL_DONE_CNT.COUNT + 1) 0xFFFFFFFF) := by
  have hw : Within 0x20200030001800 s (deliverNext s) := deliverNext_within .refl rfl
  have hout : ∀ p, outstanding (deliverNext s) p = outstanding s p := outstanding_eq (hw.same .cmds rfl)
  have hreset : ringResetDone (deliverNext s) = deliverNext s := by
    unfold ringResetDone
    rw [hout, hpci]
  have hhand : handoverCheck (deliverNext s) = deliverNext s := by
    unfold handoverCheck
    rw [hout, hpair]
  have hex : exec .dlCompletion s = .next (deliverNext s) := by
    show Host.Outcome.next (handoverCheck (ringResetDone (deliverNext s))) = _
    rw [hreset, hhand]
  refine Yields.intro hex ⟨?_, by rw [hw.same .mac rfl], fun h => ?_, fun d hd r hr hl => ?_⟩
  · unfold deliverNext
    split
    next h => rw [h]; rfl
    next d rest h =>
      rw [done_deliverDone, h]
      rfl
  · unfold deliverNext
    rw [h]
  · obtain ⟨rest, hrest⟩ := List.head?_eq_some_iff.mp hd
    unfold deliverNext
    rw [hrest]
    exact (deliverDone_counted hr hl _).trans (by rw [(FieldKept.upd (q := .pci) (g := PCI_DL_DONE_CNT.COUNT) (j := 0) (s := s) (setLink_regs _ _)).getF])

/-! Tone maps (R154). -/

theorem find_map_first {α : Type} [DecidableEq α] {p : α → Bool} {x e : α} (he : p e = true) : ∀ (l : List α), l.find? p = some x →
    (l.map (fun y => if y = x then e else y)).find? p = some e
  | [], h => by cases h
  | y :: l, h => by
    rw [List.map_cons]
    by_cases hy : y = x
    · rw [if_pos hy, List.find?_cons_of_pos he]
    · have hp : ¬ p y = true := fun hp => by
        rw [List.find?_cons_of_pos hp] at h
        exact hy (Option.some.inj h)
      rw [List.find?_cons_of_neg hp] at h
      rw [if_neg hy, List.find?_cons_of_neg hp]
      exact find_map_first he l h

theorem linkMap_congr {s t : State} (h : t.bbw = s.bbw) (a : Nat) : linkMap t a false 0 = linkMap s a false 0 := by
  unfold linkMap
  rw [h]

theorem bbw_tmapCount (s : State) : (tmapCount s).bbw = s.bbw := (tmapCount_within (m := 0x200000) .refl rfl).same .bbw rfl

/-- A map written for a link is the one that the link has, or there is no room for one. -/
theorem linkMap_putMap {e : TmapEntry} (hd : e.down = false) (s : State) :
    linkMap (putMap e s) e.addr false 0 = some e ∨ linkMap (putMap e s) e.addr false 0 = none := by
  have hport : ∀ u : State, linkMap u e.addr e.down e.port = linkMap u e.addr false 0 := fun u => by
    unfold linkMap
    rw [hd]
    rfl
  have hp : (decide (e.addr = e.addr) && decide (e.down = false) && (!false || decide (e.port = 0))) = true := by rw [hd]; simp
  have e0 : ∀ u : State, linkMap u e.addr false 0 =
      u.bbw.tmaps.find? (fun g => decide (g.addr = e.addr) && decide (g.down = false) && (!false || decide (g.port = 0))) := fun _ => rfl
  unfold putMap
  rw [hport]
  split
  next x hx =>
    rw [e0] at hx ⊢
    exact .inl (find_map_first (p := fun g : TmapEntry => decide (g.addr = e.addr) && decide (g.down = false) && (!false || decide (g.port = 0))) hp _ hx)
  next hx =>
    split
    · refine .inl ?_
      rw [linkMap_congr (bbw_tmapCount _), e0]
      rw [e0] at hx
      show (s.bbw.tmaps ++ [e]).find? _ = _
      rw [List.find?_append, hx, List.find?_cons_of_pos (p := fun g : TmapEntry => decide (g.addr = e.addr) && decide (g.down = false) && (!false || decide (g.port = 0))) hp]
      rfl
    · refine .inr ?_
      rw [linkMap_congr (bbw_raise _ _ _), linkMap_congr (bbw_tmapCount _)]
      exact hx

/-- The entry of a new map of a link: the next map, sent in this superframe. -/
def newMap (a : Nat) (snr : List Nat) (s : State) : TmapEntry :=
  let e := (linkMap s a false 0).getD ⟨a, false, 0, none, none, none, 0, 0⟩
  let r := computeMap s (e.cur.elim 0 (·.tmid) % 14 + 1) snr
  { e with fresh := some (r.1, 256), sentAt := sfn s, rate := r.2 }

/-- The frame that carries a new map. -/
def mapFrame (a : Nat) (m : ToneMap) (s : State) : Frame :=
  { Frame.blank with kind := .tmap, index := a, ftype := FT.TMAP, body := mapBytes m false 0, wave := .bb, due := sfn s }

theorem sendMap_eq (a : Nat) (snr : List Nat) (s : State) : ∃ m, sendMap a snr s = if (linkMap (putMap (newMap a snr s) s) a false 0).isNone then putMap (newMap a snr s) s
    else addFrame (mapFrame a m s) (mirrorDelta (.tmapDelta (BitVec.ofNat 20 a) false 0 (mapBytes m false 0)) (putMap (newMap a snr s) s)) := ⟨_, rfl⟩

theorem newMap_effect (a : Nat) (snr : List Nat) (s : State) :
    (newMap a snr s).addr = a ∧ (newMap a snr s).down = false ∧ (newMap a snr s).fresh.isSome = true ∧ (newMap a snr s).sentAt = sfn s := by
  unfold newMap
  cases hl : linkMap s a false 0 with
  | none => exact ⟨rfl, rfl, rfl, rfl⟩
  | some x =>
    have hx := List.find?_some hl
    rw [Bool.and_eq_true, Bool.and_eq_true] at hx
    exact ⟨of_decide_eq_true hx.1.1, of_decide_eq_true hx.1.2, rfl, rfl⟩

theorem sendMap_effect (a : Nat) (snr : List Nat) (s : State) : ∀ e, linkMap (sendMap a snr s) a false 0 = some e →
    e.fresh.isSome = true ∧ e.sentAt = sfn s ∧ (sendMap a snr s).mac.frames.length = s.mac.frames.length + 1 := by
  obtain ⟨haddr, hdown, hfresh, hsent⟩ := newMap_effect a snr s
  obtain ⟨m, heq⟩ := sendMap_eq a snr s
  rw [heq]
  have hput := linkMap_putMap hdown s
  rw [haddr] at hput
  have hmac : (putMap (newMap a snr s) s).mac = s.mac := (putMap_within (m := 0x20000820200000) .refl _ rfl).same .mac rfl
  generalize putMap (newMap a snr s) s = u at hput hmac
  intro e he
  rcases hput with hu | hu
  · rw [if_neg (by rw [hu]; exact Bool.false_ne_true)] at he ⊢
    have hv : (mirrorDelta (.tmapDelta (BitVec.ofNat 20 a) false 0 (mapBytes m false 0)) u).bbw = u.bbw := (mirrorDelta_within (m := 0x20800000002200) .refl _ rfl).same .bbw rfl
    have hf : (mirrorDelta (.tmapDelta (BitVec.ofNat 20 a) false 0 (mapBytes m false 0)) u).mac = s.mac := (mac_mirrorDelta _ _).trans hmac
    generalize mirrorDelta (.tmapDelta (BitVec.ofNat 20 a) false 0 (mapBytes m false 0)) u = v at he hv hf
    have hadd : (addFrame (mapFrame a m s) v).bbw = v.bbw := rfl
    rw [linkMap_congr (hadd.trans hv), hu] at he
    cases he
    refine ⟨hfresh, hsent, ?_⟩
    show (v.mac.frames ++ [_]).length = _
    rw [List.length_append, hf]
    rfl
  · rw [if_pos (by rw [hu]; rfl), hu] at he
    cases he

/-! The steps. -/

theorem dlDescriptor_idle (r : Fin 16) (d : DlDesc) (s : State) (h : ringPosted s r.val = false ∨ takesDown s = false) : exec (.dlDescriptorTaken r d) s = .next s :=
  congrArg Host.Outcome.next (takeDescriptor_idle d h)

theorem sf2Recheck_good {n : Nat} {s : State} {f : Frame} (h : frameOf s n = some f) (hc : (f.sf2 && decide (f.stage = .queued)) = true) :
    Yields (.sf2Recheck n true) s (fun t => (frameOf t n).isSome = true → ∀ g, frameOf t n = some g → g.rechecked = true) := by
  have hid := frameOf_id h
  have hex : exec (.sf2Recheck n true) s = .next (submitFrame { f with rechecked := true } s) := by rw [exec_sf2Recheck h true, if_pos hc, if_pos rfl]
  refine Yields.intro hex (fun _ g hg => ?_)
  obtain ⟨q, hx⟩ := submitFrame_frame (s := s) (f := { f with rechecked := true }) h hid
  cases hx.symm.trans hg
  rfl

theorem sf2Recheck_bad {n : Nat} {s : State} {f : Frame} (h : frameOf s n = some f) (hc : (f.sf2 && decide (f.stage = .queued)) = true) :
    Yields (.sf2Recheck n false) s (fun t => frameOf t n = none ∧ ∀ r, f.ring = some r →
      t.link.done = s.link.done ++ [⟨some r, f.lane, f.cookie, DST.SAFETY, f.sends, sfn s⟩]) := by
  have hex : exec (.sf2Recheck n false) s = .next (sf2Discard f 5 s) := by rw [exec_sf2Recheck h false, if_pos hc, if_neg Bool.false_ne_true]
  exact Yields.intro hex (sf2Discard_effect (frameOf_id h) 5)

theorem sf2Recheck_other {n : Nat} {s : State} {f : Frame} (h : frameOf s n = some f) (ok : Bool) (hn : f.sf2 = false ∨ f.stage ≠ .queued) : exec (.sf2Recheck n ok) s = .next s := by
  refine (exec_sf2Recheck h ok).trans (congrArg Host.Outcome.next (if_neg ?_))
  rw [Bool.and_eq_true]
  exact fun e => hn.elim (fun h0 => absurd (h0.symm.trans e.1) Bool.false_ne_true) (fun h0 => h0 (of_decide_eq_true e.2))

theorem frameless (n : Nat) (ok : Bool) (s : State) (h : frameOf s n = none) : exec (.sf2Recheck n ok) s = .next s ∧ exec (.retransmitTimeout n) s = .next s := by
  constructor
  · show execSf2Recheck n ok s = _
    unfold execSf2Recheck
    rw [h]
  · show execRetransmitTimeout n s = _
    unfold execRetransmitTimeout
    rw [h]

theorem tmapPeriod_effect (a : CtxIndex) (snr : List Nat) (s : State) : Yields (.tmapPeriodExpiry a snr) s (fun t =>
    if (ctx s a.toNat).state = CST.ACTIVE ∧ (ctx s a.toNat).bb = true ∧ (ctx s a.toNat).session = false then
      ∀ e, linkMap t a.toNat false 0 = some e → e.fresh.isSome = true ∧ e.sentAt = sfn s ∧ t.mac.frames.length = s.mac.frames.length + 1
    else t = s) := by
  have hex : exec (.tmapPeriodExpiry a snr) s =
      .next (if (ctx s a.toNat).state = CST.ACTIVE ∧ (ctx s a.toNat).bb = true ∧ (!(ctx s a.toNat).session) = true then sendMap a.toNat snr s else s) := rfl
  refine Yields.guard hex ?_ (fun _ => sendMap_effect _ _ _)
  rw [Bool.not_eq_true']

/-- Settles O51: a descriptor is answered or stored and its entry taken, a frame whose answer is late is sent again or ends, and a new tone map is a frame of its own. -/
theorem downlinkFrames : Obligations.DownlinkFrames := by
  unfold Obligations.DownlinkFrames
  refine ⟨dlDescriptor_idle, fun r d s hp ht ho => Yields.intro (congrArg Host.Outcome.next (takeDescriptor_eq d hp ht ho)) (descriptor_effect r d s),
    fun n s f h hs hr => retransmit_effect h hs hr, fun n s f h hn => retransmit_early h hn, fun n s f h h2 hq => ?_, fun n ok s f h hn => sf2Recheck_other h ok hn, frameless,
    fun s h1 h2 => dlCompletion_effect h1 h2, tmapPeriod_effect, fun s => rfl⟩
  have hc : (f.sf2 && decide (f.stage = .queued)) = true := by rw [h2, hq]; rfl
  exact ⟨sf2Recheck_bad h hc, sf2Recheck_good h hc⟩

end Sys2Proof.Machine
end

section
/-!
PROOFS. The plan of the next superframe (R201): every item that it gains belongs to the superframe planned.
-/
namespace Sys2Proof.Machine

/-- The superframe number stands, and every item that the plan gains belongs to the superframe planned. -/
structure PlanKept (s t : State) : Prop where
  sfn : sfn t = sfn s
  items : ∀ it ∈ t.plan.items, it ∈ s.plan.items ∨ it.sfn = planSfn s

/-- Every part of the state but the plan and the registers of BCN. -/
abbrev besidePlan : Nat := 0x3fffbfffffbfff

theorem PlanKept.refl (s : State) : PlanKept s s := ⟨rfl, fun _ h => .inl h⟩

theorem planSfn_congr {s t : State} (h : sfn t = sfn s) : planSfn t = planSfn s := by
  unfold planSfn
  rw [h]

theorem PlanKept.trans {s t u : State} (h : PlanKept s t) (k : PlanKept t u) : PlanKept s u := by
  refine ⟨k.sfn.trans h.sfn, fun it hit => ?_⟩
  rcases k.items it hit with hi | hi
  · exact h.items it hi
  · exact .inr (hi.trans (planSfn_congr h.sfn))

theorem PlanKept.keep {s t : State} (hs : Machine.sfn t = Machine.sfn s) (hp : t.plan.items = s.plan.items) : PlanKept s t := ⟨hs, fun _ h => .inl (hp ▸ h)⟩

theorem PlanKept.of {s t : State} (h : Within besidePlan s t) : PlanKept s t := .keep (h.getF_addr .bcn _ rfl) (by rw [h.same .plan rfl])

theorem PlanKept.bcn {s t : State} (h : FieldKept .bcn BCN_SFN.SFN 0 s t) (hp : t.plan = s.plan) : PlanKept s t := .keep h (by rw [hp])

theorem PlanKept.foldl {α : Type} {f : State → α → State} (hf : ∀ u x, PlanKept u (f u x)) : ∀ (l : List α) (s : State), PlanKept s (l.foldl f s)
  | [], s => .refl s
  | x :: l, s => (hf s x).trans (PlanKept.foldl hf l _)

/-- An item of the superframe planned is added. -/
theorem PlanKept.add {s t : State} (it : PlanItem) (hs : Machine.sfn t = Machine.sfn s) (hi : it.sfn = planSfn s) (hp : t.plan.items = s.plan.items ++ [it]) : PlanKept s t := by
  refine ⟨hs, fun x hx => ?_⟩
  rw [hp, List.mem_append, List.mem_singleton] at hx
  exact hx.imp id (fun e => by rw [e]; exact hi)

/-! The end of an association leaves the items of the plan (R236). -/

theorem endRecord_plan (tell : Bool) (i reason : Nat) (s : State) : PlanKept s (endRecord tell i reason s) := by
  unfold endRecord
  extract_lets a c keep faulted s1 s2 s3 pl s4 m s5 f s6 s7
  have h1 : PlanKept s s1 := by
    unfold s1
    split
    · exact .refl s
    · exact .of (setParked_within .refl _ _ rfl)
  have h2 : PlanKept s1 s2 := by
    unfold s2
    split
    · exact .of (treeEnd_within .refl _ _ _ rfl)
    · exact .refl _
  have h3 : PlanKept s2 s3 := .of (clearRelays_within (freeMaps_within (dropFrames_within .refl _ rfl) _ rfl) _ rfl)
  have h4 : PlanKept s3 s4 := .keep (sfn_congr rfl) rfl
  have h5 : PlanKept s4 s5 := .keep (sfn_congr rfl) rfl
  have h6 : PlanKept s5 s6 := .of (setAssoc_within .refl _ _ rfl)
  have h7 : PlanKept s6 s7 := .of (hostEvent_within (raise_within .refl _ _ rfl rfl) _ _ _ _ _ rfl)
  exact (((((((h1.trans h2).trans h3).trans h4).trans h5).trans h6).trans h7)).trans (.of (endCommands_within .refl _ rfl))

theorem startEnd_plan (i reason hold : Nat) (park : Bool) (s : State) : PlanKept s (startEnd i reason hold park s) := by
  unfold startEnd
  extract_lets a s1 src s2
  split
  · exact .refl s
  split
  · exact endRecord_plan _ _ _ _
  · exact (PlanKept.of (dropFrames_within .refl _ rfl)).trans ((PlanKept.of (setAssoc_within .refl _ _ rfl)).trans (.of (ownFrame_within .refl _ _ _ rfl)))

theorem planFailed_plan (f : Frame) (st : Nat) (s : State) : PlanKept s (planFailed f st s) := by
  unfold planFailed jobRefused
  split
  · exact .refl s
  split
  · exact (PlanKept.of (finishFrame_within .refl _ _ rfl)).trans (startEnd_plan _ _ _ _ _)
  · exact .of (finishFrame_within .refl _ _ rfl)

/-! Beacons. -/

theorem loseBeacon_plan (s : State) : PlanKept s (loseBeacon s) :=
  .bcn (((FieldKept.refl s).count _ _ (by decide) (.inr (by decide))).raise _ _ (by decide)) ((raise_within (m := 0x20000020004000) (count_within .refl _ _ rfl) _ _ rfl rfl).same .plan rfl)

theorem planBeacon_plan (p : Nat) (w : Wave) (s : State) : PlanKept s (planBeacon p w s) := by
  unfold planBeacon
  extract_lets body
  split
  next st tag n s1 e =>
  have h1 : PlanKept s s1 := .of (runJob_within_eq e .refl rfl)
  split
  · exact h1.trans (loseBeacon_plan _)
  · split
    next hd c0 c1 hops len _ =>
    exact h1.trans (.add ⟨p, w, c0, c1, 0, len, planSfn s1, .beacon, hd, body ++ tag, hops⟩ (sfn_congr rfl) rfl rfl)

theorem planLaneBeacon_plan (l : Nat) (s : State) : PlanKept s (planLaneBeacon l s) := by
  unfold planLaneBeacon
  extract_lets body
  split
  next st tag n s1 e =>
  extract_lets h
  have h1 : PlanKept s s1 := .of (runJob_within_eq e .refl rfl)
  split
  · exact h1.trans (.keep (sfn_congr rfl) rfl)
  · exact h1.trans (loseBeacon_plan _)

theorem planBeacons_plan (s : State) : PlanKept s (planBeacons s) := by
  unfold planBeacons
  split
  · exact .refl s
  · extract_lets ps nb bb
    exact (PlanKept.foldl (fun u p => planBeacon_plan p .nb u) nb s).trans (PlanKept.foldl (fun u p => planBeacon_plan p .bb u) bb _)

theorem planLaneBeacons_plan (s : State) : PlanKept s (planLaneBeacons s) := by
  unfold planLaneBeacons
  split
  · exact .refl s
  · exact PlanKept.foldl (fun u l => planLaneBeacon_plan l u) _ s

/-! Frames of the store. -/

theorem placeGrant_plan (q : GrantAsk) (k after d : Nat) (s : State) : (placeGrant q k after d s).2.2.plan.items = s.plan.items ∧ sfn (placeGrant q k after d s).2.2 = sfn s := by
  unfold placeGrant
  split
  · split <;> exact ⟨rfl, sfn_congr rfl⟩
  · split <;> exact ⟨rfl, sfn_congr rfl⟩

theorem deferBurst_plan (s : State) : PlanKept s (deferBurst s) := .of (deferBurst_within .refl rfl)

theorem notPlaced_plan (f : Frame) (deferred : Bool) (s : State) : PlanKept s (notPlaced f deferred s) := by
  unfold notPlaced
  extract_lets g
  split
  · refine PlanKept.trans ?_ (.of (setFrame_within .refl _ rfl))
    split
    · exact deferBurst_plan s
    · exact .refl s
  · have h1 : PlanKept s (finishFrame g DST.DWELL s) := .of (finishFrame_within .refl _ _ rfl)
    generalize finishFrame g DST.DWELL s = u at h1
    exact h1.trans (.bcn (((FieldKept.refl u).count _ _ (by decide) (.inr (by decide))).raise _ _ (by decide))
      ((raise_within (m := 0x20000020004000) (count_within .refl _ _ rfl) _ _ rfl rfl).same .plan rfl))

/-- The item of a frame, with the header and bytes of its path, belongs to the superframe of the item given. -/
theorem putItem_plan (f : Frame) (it : PlanItem) (h : Option BbHeader) (cells : List TxOcc) (s : State) (hi : it.sfn = planSfn s) : PlanKept s (putItem f it h cells s).2 := by
  unfold putItem
  split
  next st a ty q p s1 e =>
  have h1 : PlanKept s s1 := .of (wrapRelays_within_eq e .refl rfl)
  split
  · exact h1
  · extract_lets bytes
    split
    next hd s2 e2 =>
    have h2 : PlanKept s1 s2 := by
      cases h with
      | none =>
        cases e2
        exact .refl _
      | some b =>
        have e3 : (takeTadj a s1).2 = s2 := congrArg Prod.snd e2
        rw [← e3]
        exact .of (takeTadj_within .refl _ rfl)
    refine (h1.trans h2).trans (.add { it with header := hd, payload := bytes } (sfn_congr rfl) ?_ rfl)
    exact hi.trans (planSfn_congr (h1.trans h2).sfn).symm

/-- A frame that enters the plan leaves the plan as it was, or adds its item. -/
theorem enterPlan_plan (f : Frame) (it : PlanItem) (h : Option BbHeader) (cells : List TxOcc) (grant : List Byte) {old s : State} (hs : sfn s = sfn old)
    (hp : s.plan.items = old.plan.items) (hi : it.sfn = planSfn old) : PlanKept old (enterPlan f it h cells grant old s) := by
  have back : ∀ u : State, sfn u = sfn old → PlanKept old { u with plan := old.plan } := fun u hu => .keep ((sfn_congr rfl).trans hu) rfl
  unfold enterPlan
  split
  next st f1 s2 e =>
  have h2 : PlanKept old s2 := (PlanKept.keep hs hp).trans (.of (sealBytes_within_eq e .refl rfl))
  split
  · exact (back s2 h2.sfn).trans (planFailed_plan _ _ _)
  split
  next st2 s3 e2 =>
  have h3 : PlanKept old s3 := by
    have k := putItem_plan f1 it h cells s2 (hi.trans (planSfn_congr h2.sfn).symm)
    rw [e2] at k
    exact h2.trans k
  split
  · exact (back s3 h3.sfn).trans (planFailed_plan _ _ _)
  · extract_lets s4
    have h4 : PlanKept s3 s4 := by
      unfold s4
      split
      · exact .of (count_within .refl _ _ rfl)
      · exact .refl _
    exact (h3.trans h4).trans (.of (notePlanned_within (setFrame_within .refl _ rfl) _ _ _ rfl))

theorem commitFrame_plan (f : Frame) (it : PlanItem) (h : Option BbHeader) (cells : List TxOcc) (s : State) (hi : it.sfn = planSfn s) : PlanKept s (commitFrame f it h cells s) := by
  unfold commitFrame
  split
  · exact enterPlan_plan f it h cells [] rfl rfl hi
  next q _ =>
    extract_lets src held k
    have hheld : sfn held = sfn s := sfn_congr rfl
    have hplace := placeGrant_plan q ((planSfn s + 4 * k) % 2 ^ 32) (if k = 0 then it.start + it.length + decodeMargin else 0) f.defers held
    split
    · exact notPlaced_plan _ _ _
    next g b t e =>
      rw [e] at hplace
      exact enterPlan_plan f it h cells g ((sfn_congr rfl).trans (hplace.2.trans hheld)) rfl hi

theorem placeNbFrame_sfn {s : State} {f : Frame} {p : Nat} {it : PlanItem} {cs : List TxOcc} (h : placeNbFrame s f p = some (it, cs)) : it.sfn = planSfn s := by
  obtain ⟨e, -, he⟩ := Option.map_eq_some_iff.mp h
  cases he
  rfl

theorem placeBbFrame_sfn {s : State} {f : Frame} {p : Nat} {pl : BbPlaced} {it : PlanItem} {hd : BbHeader} (h : placeBbFrame s f p = some (pl, it, hd)) : it.sfn = planSfn s := by
  obtain ⟨r, -, he⟩ := Option.map_eq_some_iff.mp h
  cases he
  rfl

theorem planOne_plan (f : Frame) (s : State) : PlanKept s (planOne f s) := by
  unfold planOne
  split
  · exact notPlaced_plan _ _ _
  split
  · split
    · exact notPlaced_plan _ _ _
    next h => exact commitFrame_plan _ _ _ _ _ (placeNbFrame_sfn h)
  · split
    next h => exact commitFrame_plan _ _ _ _ _ (placeBbFrame_sfn h)
    · exact notPlaced_plan _ _ _
    · exact notPlaced_plan _ _ _

theorem planFrame_plan (id : Nat) (s : State) : PlanKept s (planFrame id s) := by
  unfold planFrame
  split
  · exact .refl s
  extract_lets f n c assocMsg
  split
  · exact .refl s
  split
  · exact .of (dropFrame_within .refl _ rfl)
  split
  · exact .of (sf2Discard_within .refl _ _ rfl)
  split
  · split
    next st unit s1 e =>
    have h1 : PlanKept s s1 := .of (sealUnit_within_eq e .refl rfl)
    split
    · exact h1.trans (.of (frameReady_within .refl _ _ rfl))
    · exact h1.trans (planFailed_plan _ _ _)
  split
  · exact .of (finishFrame_within .refl _ _ rfl)
  split
  · exact .refl s
  split
  · exact notPlaced_plan _ _ _
  · exact planOne_plan _ _

theorem planFrames_plan (s : State) : PlanKept s (planFrames s) :=
  PlanKept.foldl (fun u id => by
    split
    · exact .refl u
    · exact planFrame_plan id u) _ s

theorem forwardUp_plan (e : List Byte) (n : Nat) (s : State) : PlanKept s (toParent e (dropFrame n s)) := .of (toParent_within (dropFrame_within .refl _ rfl) _ rfl)

theorem planJoinUp_plan (f : Frame) (s : State) : PlanKept s (planJoinUp f s) := by
  unfold planJoinUp
  extract_lets a narrow src
  split
  · exact .of (dropFrame_within .refl _ rfl)
  extract_lets up
  split
  · exact .of (dropFrame_within .refl _ rfl)
  split
  · exact forwardUp_plan _ _ s
  · have hplace := placeGrant_plan (joinAsk s f (if narrow then 16 else 24)) (forwardSfn s) 0 0 s
    split
    next g b t e =>
      rw [e] at hplace
      exact (PlanKept.keep hplace.2 hplace.1).trans (forwardUp_plan _ _ t)
    · exact .refl s

theorem planJoinUps_plan (s : State) : PlanKept s (planJoinUps s) := PlanKept.foldl (fun u f => planJoinUp_plan f u) _ s

/-! The uplink of a subordinate (R266). -/

theorem contentionItems_sfn {f : Frame} {g : Nat} {s : State} {x : PlanItem} (h : x ∈ contentionItems f g s) : x.sfn = planSfn s := by
  unfold contentionItems at h
  extract_lets p at h
  split at h
  · obtain ⟨h1, -⟩ := List.mem_filter.mp h
    obtain ⟨k, -, h2⟩ := List.mem_flatMap.mp h1
    obtain ⟨e, -, rfl⟩ := List.mem_map.mp h2
    rfl
  · obtain ⟨h1, -⟩ := List.mem_filter.mp h
    obtain ⟨k, -, h2⟩ := List.mem_flatMap.mp h1
    obtain ⟨e, -, rfl⟩ := List.mem_map.mp h2
    rfl

theorem contend_plan (f : Frame) (g : Nat) (s : State) : PlanKept s (contend f g s) := by
  have hr : PlanKept s (randBytes 4 s).2 := .of (randBytes_within .refl _ rfl)
  unfold contend
  extract_lets all
  split
  next x e =>
    have hx : x.sfn = planSfn s := contentionItems_sfn (List.mem_of_getElem? e)
    have hp : PlanKept (randBytes 4 s).2 (planItem x (randBytes 4 s).2) := .add x (sfn_congr rfl) (hx.trans (planSfn_congr hr.sfn).symm) rfl
    generalize planItem x (randBytes 4 s).2 = u at hp
    exact (hr.trans hp).trans (.of (dropFrame_within .refl _ rfl))
  · exact hr

theorem useGrant_plan (g : List Byte) (s : State) : PlanKept s (useGrant g s) := by
  unfold useGrant
  split
  · exact .refl s
  next t e once _ =>
  extract_lets narrow p s0 w0 w1 hops set
  have h0 : PlanKept s s0 := by
    unfold s0
    split
    · exact .of (setParent_within .refl _ rfl)
    · exact .refl s
  split
  next ty q body s1 e1 =>
  extract_lets hd it src
  have h1 : PlanKept s s1 := h0.trans (.of (grantBody_within_eq e1 .refl rfl))
  refine h1.trans (.add it (sfn_congr rfl) ?_ rfl)
  rw [planSfn_congr h1.sfn]
  unfold it
  split <;> rfl

theorem planUplink_plan (s : State) : PlanKept s (planUplink s) := by
  unfold planUplink
  split
  · exact .refl s
  split
  · exact .refl s
  extract_lets asks s1 s2 p
  have h2 : PlanKept s s2 := (PlanKept.foldl (fun u f => contend_plan f _ u) asks s).trans (PlanKept.foldl (fun u x => useGrant_plan x u) _ s1)
  split
  · exact h2.trans (.of (upFrame_within .refl _ _ _ rfl))
  · exact h2

theorem planPeriodic_plan (s : State) : PlanKept s (planPeriodic s) := .keep (sfn_congr rfl) rfl

theorem askGrants_plan (w : List GrantWish) (s : State) : PlanKept s (askGrants w s) := .of (askGrants_within .refl _ rfl)

theorem fillPlan_plan (w : List GrantWish) (s : State) : PlanKept s (fillPlan w s) := by
  unfold fillPlan
  extract_lets serves s1
  have h1 : PlanKept s s1 := by
    unfold s1
    split
    · refine PlanKept.trans ?_ (planJoinUps_plan _)
      refine PlanKept.trans ?_ (planFrames_plan _)
      refine PlanKept.trans ?_ (askGrants_plan w _)
      refine PlanKept.trans ?_ (planPeriodic_plan _)
      exact (planBeacons_plan s).trans (planLaneBeacons_plan _)
    · exact .refl s
  split
  · exact h1.trans (planUplink_plan _)
  · exact h1

/-! Frames over the lanes. -/

theorem laneFrame_plan (l : Nat) (f : Frame) (s : State) : PlanKept s (laneFrame l f s) := by
  unfold laneFrame
  extract_lets f0
  split
  · exact .refl s
  split
  · exact planJoinUp_plan _ _
  split
  next st f1 s1 e =>
  have h1 : PlanKept s s1 := .of (sealBytes_within_eq e .refl rfl)
  split
  · exact h1.trans (planFailed_plan _ _ _)
  split
  next tadj s2 e2 =>
  have h2 : PlanKept s1 s2 := .of (takeTadj_within_eq e2 .refl rfl)
  exact (h1.trans h2).trans (.of (frameSent_within (notePlanned_within (setFrame_within (laneNgael_within .refl _ _ rfl) _ rfl) _ _ _ rfl) _ rfl))

theorem flushLanes_plan (s : State) : PlanKept s (flushLanes s) :=
  PlanKept.foldl (fun u f => by
    split
    · split
      · exact laneFrame_plan _ _ _
      · exact .refl u
    · exact .refl u) _ s

end Sys2Proof.Machine
end

section
/-!
PROOFS. The fixing of a plan at slot 512 (R68, R184, R201), and the numbers of the slots.
-/
namespace Sys2Proof.Machine

/-! The decision on the power state of the next superframe (R68). -/

theorem decidePower_state (s : State) : (decidePower s).pwr.state = s.pwr.state := by
  unfold decidePower
  extract_lets src s1 src2
  have h1 : s1.pwr = s.pwr := by
    unfold s1
    split
    · exact (setPhase_within (m := 0x4000000) .refl _ _ rfl).same .pwr rfl
    · rfl
  split
  · rfl
  split
  · split
    · split
      · exact congrArg PwrSt.state (pwr_done _ _ _)
      · exact (congrArg PwrSt.state ((setPhase_within (m := 0x4000000) .refl _ _ rfl).same .pwr rfl)).trans rfl
    · split
      · split
        · exact (congrArg PwrSt.state ((noteSupply_within (m := 0x20000128000022) .refl _ rfl).same .pwr rfl)).trans rfl
        · rfl
      · rfl
  split
  · split
    · exact (congrArg PwrSt.state h1).trans rfl
    · exact congrArg PwrSt.state h1
  · rfl

/-- With MAIN good, the next superframe of OUTAGE is in RUN (R68). -/
theorem decidePower_main {s : State} (ho : s.pwr.state = .outage) (hd : s.pwr.shutdown = false) (hm : source s = SRC.MAIN) : (decidePower s).pwr.next = some .run := by
  unfold decidePower
  rw [if_neg (by rw [hd]; exact Bool.false_ne_true), if_neg (by rw [ho]; decide), if_pos ho, if_pos (.inl hm)]
  rfl

/-! The superframe that is planned is seen as it will be (R201), and then as it is. -/

theorem foreseen_next (s : State) : (foreseen s).pwr.next = s.pwr.next := by
  unfold foreseen plannedState
  extract_lets src s1
  split
  · unfold setStage
    rw [pwr_setF]
    split
    · rw [pwr_setF]
      rfl
    · rfl
  · rfl

theorem foreseen_stage {s : State} (h : firstPlan s = false) : stage (foreseen s) = stage s := by
  unfold foreseen
  rw [if_neg (by rw [h]; exact Bool.false_ne_true)]
  exact getI_congr rfl

theorem stage_setStage {n : Nat} (hn : n < 256) (s : State) : stage (setStage n s) = n := (getF_setF_self _ _ _ _ (by decide)).trans (Nat.mod_eq_of_lt hn)

theorem asPresent_pwr (old s : State) : (asPresent old s).pwr = { s.pwr with state := old.pwr.state } := by
  unfold asPresent
  extract_lets src s1
  split
  · unfold setStage
    rw [pwr_setF, pwr_setF]
    rfl
  · rfl

theorem firstPlan_stage {s : State} (h : firstPlan s = true) : stage s = 14 := by
  unfold firstPlan at h
  simp only [Bool.and_eq_true, decide_eq_true_eq] at h
  exact h.1.1.1.1

theorem asPresent_stage {old s : State} (h : firstPlan old = false → stage s = stage old) : stage (asPresent old s) = stage old := by
  unfold asPresent
  extract_lets src s1
  split
  next hf =>
    rw [stage_setStage (by decide)]
    exact (firstPlan_stage hf).symm
  next hf => exact (getI_congr rfl).trans (h (Bool.eq_false_iff.mpr hf))

theorem foreseen_plan (s : State) : PlanKept s (foreseen s) := .of (foreseen_within .refl rfl)

theorem asPresent_plan (old s : State) : PlanKept s (asPresent old s) := .of (asPresent_within .refl old rfl)

/-- The parts that the filling of a plan as foreseen leaves as they are. -/
abbrev planWritten : Nat := 0x28b848bc27fa2c

/-- The plan filled for the superframe foreseen. -/
def filled (w : List GrantWish) (s : State) : State := asPresent s (fillPlan w (foreseen s))

theorem filled_within (w : List GrantWish) (s : State) : Within planWritten s (filled w s) := asPresent_within (fillPlan_within (foreseen_within .refl rfl) w rfl) s rfl

theorem filled_plan (w : List GrantWish) (s : State) : PlanKept s (filled w s) := by
  refine PlanKept.trans ?_ (asPresent_plan s _)
  exact (foreseen_plan s).trans (fillPlan_plan w _)

theorem filled_state (w : List GrantWish) (s : State) : (filled w s).pwr.state = s.pwr.state := by
  unfold filled
  rw [asPresent_pwr]

theorem filled_next (w : List GrantWish) (s : State) : (filled w s).pwr.next = s.pwr.next := by
  unfold filled
  rw [asPresent_pwr]
  exact (congrArg PwrSt.next ((fillPlan_within (m := 0x28b8483c27fa28) .refl w rfl).same .pwr rfl)).trans (foreseen_next s)

theorem filled_stage (w : List GrantWish) (s : State) : stage (filled w s) = stage s :=
  asPresent_stage fun h => ((fillPlan_within (m := 0x28b8483c27fa28) .refl w rfl).getF_addr .boot _ rfl).trans (foreseen_stage h)

/-! The fixing of a plan. -/

/-- The maps and the noise are fixed for the superframe planned (R201). -/
def windowsFixed (s : State) : State := fixWindows (planStart s) (bbFix (nbFix s))

theorem windowsFixed_within {m : Nat} {s t : State} (h : Within m s t) (hm : 0x1c00000000 ||| m = m) : Within m s (windowsFixed t) :=
  fixWindows_within (bbFix_within (nbFix_within h (Mask.sub hm rfl)) (Mask.sub hm rfl)) _ (Mask.sub hm rfl)

/-- What is planned before the plan itself is filled. -/
def planReady (s : State) : State := prunePlan (recoverFrames (windowsFixed (changeE s)))

theorem planReady_within (s : State) : Within 0x200c5c3c000920 s (planReady s) :=
  prunePlan_within (recoverFrames_within (windowsFixed_within (changeE_within .refl rfl) rfl) rfl) rfl

theorem planReady_planned (s : State) : (planReady s).ncal.planned = planStart s := by
  have h1 : planStart (changeE s) = planStart s := congrArg (fun t : TimeSt => t.sfStart + superframe) ((changeE_within (m := 0x2004003c000920) .refl rfl).same .time rfl)
  exact (congrArg NcalSt.planned ((prunePlan_within (m := 0x84000000000) (recoverFrames_within .refl rfl) rfl).same .ncal rfl)).trans h1

theorem prunePlan_items (s : State) : (prunePlan s).plan.items = s.plan.items := rfl

theorem planReady_items (s : State) : (planReady s).plan.items = s.plan.items := by
  have h : (windowsFixed (changeE s)).plan = s.plan := (windowsFixed_within (m := 0x20041c3c000920) (changeE_within .refl rfl) rfl).same .plan rfl
  have k : (recoverFrames (windowsFixed (changeE s))).plan = (windowsFixed (changeE s)).plan := (recoverFrames_within (m := 0x80000000000) .refl rfl).same .plan rfl
  exact (prunePlan_items _).trans (congrArg PlanSt.items (k.trans h))

/-- The plan fixed, with what is sent out for it. -/
def planSent (s : State) : State := sendBeaconState (handoverCheck (flushLanes s))

theorem planSent_within (s : State) : Within 0x28b8483425ba00 s (planSent s) := sendBeaconState_within (handoverCheck_within (flushLanes_within .refl rfl) rfl) rfl

theorem planSent_plan (s : State) : PlanKept s (planSent s) := by
  refine PlanKept.trans ?_ (.of (sendBeaconState_within .refl rfl))
  exact (flushLanes_plan s).trans (.of (handoverCheck_within .refl rfl))

theorem planFix_eq (w : List GrantWish) (s : State) : planFix w s = planSent (filled w (decidePower (planReady { s with time := { s.time with slot := 512 } }))) := rfl

/-- What a plan that is fixed for the next superframe leaves as it is, and what it fixes (R68, R201). -/
theorem planFix_effect (w : List GrantWish) (s : State) : (planFix w s).time = { s.time with slot := 512 } ∧ (planFix w s).ncal.planned = planStart s ∧ PlanKept s (planFix w s) ∧
    stage (planFix w s) = stage s ∧ (planFix w s).pwr.state = s.pwr.state ∧
    (s.pwr.state = .outage → s.pwr.shutdown = false → source s = SRC.MAIN → (planFix w s).pwr.next = some .run) := by
  rw [planFix_eq]
  generalize ha : ({ s with time := { s.time with slot := 512 } } : State) = a
  have hat : a.time = { s.time with slot := 512 } := by rw [← ha]
  have hap : a.pwr = s.pwr := by rw [← ha]
  have hai : a.plan.items = s.plan.items := by rw [← ha]
  have har : a.regs = s.regs := by rw [← ha]
  have has : planStart a = planStart s := by rw [← ha]; rfl
  have hb := planReady_within a
  have hbn := planReady_planned a
  have hbi := planReady_items a
  generalize planReady a = b at hb hbn hbi
  have hc : Within 0x200000bc000822 b (decidePower b) := decidePower_within .refl rfl
  have hcs := decidePower_state b
  have hcm := decidePower_main (s := b)
  generalize decidePower b = c at hc hcs hcm
  have hd := filled_within w c
  have hdp := filled_plan w c
  have hds := filled_state w c
  have hdn := filled_next w c
  have hdg := filled_stage w c
  generalize filled w c = d at hd hdp hds hdn hdg
  have he := planSent_within d
  have hep := planSent_plan d
  generalize planSent d = e at he hep
  have hed : e.pwr = d.pwr := he.same .pwr rfl
  have hba : b.pwr = a.pwr := hb.same .pwr rfl
  refine ⟨?_, ?_, ?_, ?_, ?_, fun ho hs hm => ?_⟩
  · exact (((he.same .time rfl).trans (hd.same .time rfl)).trans ((hc.same .time rfl).trans (hb.same .time rfl))).trans hat
  · exact (congrArg NcalSt.planned (((he.same .ncal rfl).trans (hd.same .ncal rfl)).trans (hc.same .ncal rfl))).trans (hbn.trans has)
  · exact (((PlanKept.keep (sfn_congr har) hai).trans (.keep (hb.getF_addr .bcn _ rfl) hbi)).trans (.keep (hc.getF_addr .bcn _ rfl) (by rw [hc.same .plan rfl]))).trans (hdp.trans hep)
  · exact ((he.getF_addr .boot _ rfl).trans hdg).trans (((hc.getF_addr .boot _ rfl).trans (hb.getF_addr .boot _ rfl)).trans (getI_congr (by rw [reg, reg, har])))
  · rw [hed, hds, hcs, hba, hap]
  · rw [hed, hdn]
    refine hcm (by rw [hba, hap, ho]) (by rw [hba, hap, hs]) ?_
    exact ((hb.getF_addr .pwr _ rfl).trans (getI_congr (by rw [reg, reg, har]))).trans hm

/-! The start of a slot (R184). -/

theorem slotStart_time (n : Nat) (s : State) : (slotStart n s).time = { s.time with slot := n } := by
  unfold slotStart
  extract_lets src s1
  have h1 : s1.time = { s.time with slot := n } := by
    have h : s1.time = ({ s with time := { s.time with slot := n } } : State).time := (flushLanes_within (m := 0x28b8483425ba00) (tickPauses_within .refl rfl) rfl).same .time rfl
    exact h
  split
  · exact ((closeWindow_within (m := 0x20800020000200) .refl rfl).same .time rfl).trans h1
  · exact h1

end Sys2Proof.Machine
end

section
/-!
PROOFS. The declaration of a port at the start of a superframe (R63): it takes effect, and nothing else of the boundary changes it.
-/
namespace Sys2Proof.Machine

/-- The declaration written to a port, its PENDING bit, and the declaration in effect stand. -/
structure DeclKept (n : Port) (s t : State) : Prop where
  pending : FieldKept (.lpt n) LPT_DECL.PENDING 0 s t
  written : FieldKept (.lpt n) LPT_DECL.DECLARED 0 s t
  effect : (port t n.val).declared = (port s n.val).declared

/-- A field of a port page that is none of the two bits of a declaration. -/
def Field.besideDecl (f : Field) : Bool := f.ordered && fieldsSplit f LPT_DECL.PENDING 0 0 && fieldsSplit f LPT_DECL.DECLARED 0 0

/-- Every part of the state but the pages and the states of the ports. -/
abbrev besidePorts : Nat := 0x3ffffdff7fffff

namespace DeclKept

variable {n : Port} {s t u : State}

theorem refl (n : Port) (s : State) : DeclKept n s s := ⟨.refl s, .refl s, rfl⟩

theorem trans (h : DeclKept n s t) (k : DeclKept n t u) : DeclKept n s u := ⟨h.pending.trans k.pending, h.written.trans k.written, k.effect.trans h.effect⟩

theorem declared_of_ports {s t : State} (h : t.ports = s.ports) (n : Port) : (port t n.val).declared = (port s n.val).declared := by
  unfold port
  rw [h]

theorem upd (hr : t.regs = s.regs) (hp : t.ports = s.ports) : DeclKept n s t := ⟨.upd hr, .upd hr, declared_of_ports hp n⟩

theorem within {m : Nat} (h : Within m s t) (hr : m.testBit 23 = false) (hp : m.testBit 33 = false) : DeclKept n s t :=
  ⟨.within (q := .lpt n) h hr, .within (q := .lpt n) h hr, declared_of_ports (h.same .ports hp) n⟩

theorem of (h : Within besidePorts s t) : DeclKept n s t := .within h rfl rfl

theorem setF (h : DeclKept n s t) (p : Page) (f : Field) (v : Nat) (hf : f.besideDecl = true) : DeclKept n s (setF p f v t) := by
  unfold Field.besideDecl at hf
  rw [Bool.and_eq_true, Bool.and_eq_true] at hf
  obtain ⟨⟨ho, h1⟩, h2⟩ := hf
  exact ⟨h.pending.setF p f v ho (.inr h1), h.written.setF p f v ho (.inr h2), h.effect⟩

theorem setB (h : DeclKept n s t) (p : Page) (f : Field) (b : Bool) (hf : f.besideDecl = true) : DeclKept n s (setB p f b t) := h.setF p f _ hf

theorem raise (h : DeclKept n s t) (p : Page) (k : Nat) : DeclKept n s (raise p k t) :=
  ⟨h.pending.raise p k (by decide), h.written.raise p k (by decide), (declared_of_ports (ports_raise p k t) n).trans h.effect⟩

theorem complete (h : DeclKept n s t) (p : Page) (code d : Nat) : DeclKept n s (complete p code d t) :=
  ⟨h.pending.trans (.complete t p (by simp) code d (by decide)), h.written.trans (.complete t p (by simp) code d (by decide)),
    (declared_of_ports (ports_complete p code d t) n).trans h.effect⟩

theorem foldl {α : Type} {f : State → α → State} (hf : ∀ u x, DeclKept n u (f u x)) : ∀ (l : List α) (s : State), DeclKept n s (l.foldl f s)
  | [], s => .refl n s
  | x :: l, s => (hf s x).trans (DeclKept.foldl hf l _)

end DeclKept

section
variable (n : Port)

/-! Bursts that end, and drivers that go off. -/

theorem reportCompletion_decl (id : Nat) (b : Burst) (st : Nat) (s : State) : DeclKept n s (reportCompletion id b st s) := by
  unfold reportCompletion
  extract_lets s1 s2
  have h1 : DeclKept n s s1 := .upd rfl rfl
  have h2 : DeclKept n s s2 := h1.trans (.of (count_within .refl _ _ (by unfold engPage; rw [pageBit_eng]; rfl)))
  split
  · exact h2.trans (.raise (.setF (.refl n _) (lptPage b.place) LPT_CLAMP_CNT.COUNT _ (by decide)) _ _)
  · exact h2

theorem completeBurst_decl (id st : Nat) (s : State) : DeclKept n s (completeBurst id st s) := by
  have htx : ∀ w, DeclKept n s (completeTx id w s) := fun w => by
    unfold completeTx
    refine .trans (.trans (.of (freeCtx_within .refl _ rfl)) (reportCompletion_decl n _ _ _ _)) (.of (returnTx_within .refl _ _ rfl))
  unfold completeBurst
  extract_lets b w
  cases b.st <;> dsimp only
  case rxOpen =>
    unfold completeRx
    extract_lets s1
    have h1 : DeclKept n s s1 := by
      unfold s1
      split
      · exact .refl _ _
      · exact .of (pushTrailer_within (closePartial_within Within.refl id rfl) id w rfl)
    exact h1.trans ((DeclKept.of (moveCtx_within .refl _ _ rfl)).trans (reportCompletion_decl n _ _ _ _))
  case txSet => exact htx w
  case txLive => exact htx w
  case free => exact .refl _ _
  case rxDone => exact .refl _ _

theorem refreshGroup_decl (g : Nat) (s : State) : DeclKept n s (refreshGroup g s) := .foldl (fun u m => .setB (.refl n u) (lptPage m) LPT_STATUS.AGC_FROZEN _ (by decide)) _ s

theorem driverOff_decl (m : Nat) (s : State) : DeclKept n s (driverOff m s) := by
  unfold driverOff
  refine .trans ?_ (.of (cutOccs_within .refl m rfl))
  refine .trans ?_ (refreshGroup_decl n _ _)
  exact .setB (.setB (.refl n s) (lptPage m) LPT_STATUS.DRV_EN _ (by decide)) _ LPT_STATUS.CLAMPING _ (by decide)

theorem endTx_decl (p : Burst → Bool) (st : Nat) (s : State) : DeclKept n s (endTx p st s) := by
  unfold endTx
  extract_lets ids ps s1
  refine .trans (DeclKept.foldl (fun u id => completeBurst_decl n id st u) ids s) (.foldl (fun u m => ?_) ps _)
  split
  · exact driverOff_decl n m u
  · exact .refl n u

/-! The parts of the boundary that write port pages. -/

theorem refreshChain_decl (m : Nat) (s : State) : DeclKept n s (refreshChain m s) := by
  unfold refreshChain
  exact .setB (.setB (.setB (.refl n s) _ LPT_STATUS.DECL_ACTIVE _ (by decide)) _ LPT_STATUS.NB_MODE _ (by decide)) _ LPT_STATUS.RX_ON _ (by decide)

theorem capPort_decl (m : Nat) (s : State) : DeclKept n s (capPort m s) := by
  unfold capPort
  extract_lets c s1
  have h1 : DeclKept n s s1 := .setB (.refl n s) _ LPT_TX_LEVEL.CAPPED _ (by decide)
  split
  · exact h1.raise _ _
  · exact h1

theorem showNoise_decl (l : List NoiseReading) (s : State) : DeclKept n s (showNoise l s) := by
  unfold showNoise
  refine .foldl (fun u r => ?_) l s
  exact .setF (.setF (.refl n u) (.lpt r.port) LPT_NOISE.NB_PSD _ (by decide)) _ LPT_NOISE.BB_PSD _ (by decide)

theorem blank_decl (m : Nat) (s : State) : DeclKept n s (setPort m { port s m with blanked := true } s) := by
  refine ⟨.upd rfl, .upd rfl, ?_⟩
  by_cases h : n.val = m
  · rw [h, port_setPort_self]
  · rw [port_setPort_other _ _ h]

theorem calStart_decl (m : Nat) (s : State) : DeclKept n s (calStart m s) := by
  unfold calStart
  split
  · exact .refl n s
  split
  · exact .refl n s
  split
  · exact .complete (.refl n s) _ _ _
  · exact (blank_decl n m s).trans (.of (setPhase_within .refl _ _ rfl))

/-! A declaration that takes effect (R63). -/

theorem undeclare_decl (m : Nat) (s : State) : DeclKept n s (undeclare m s) := by
  unfold undeclare
  refine .trans ?_ (.of (clearCal_within .refl m rfl))
  refine .trans ?_ (.complete (.refl n _) _ _ _)
  exact .foldl (fun u id => completeBurst_decl n id _ u) _ s

end

/-- The declaration that is written to a port. -/
def declWritten (m : Nat) (s : State) : PortSt :=
  { port s m with
    declared := isSet s (lptPage m) LPT_DECL.DECLARED, nbEn := isSet s (lptPage m) LPT_DECL.NB_EN, bbEn := isSet s (lptPage m) LPT_DECL.BB_EN
    loss := getF s (lptPage m) LPT_DECL.COUPLER_LOSS }

/-- The port with the declaration written in effect, and nothing pending. -/
def declTaken (m : Nat) (s : State) : State := setPort m (declWritten m s) (setF (lptPage m) LPT_DECL.PENDING 0 s)

theorem applyDecl_idle {m : Nat} {s : State} (h : isSet s (lptPage m) LPT_DECL.PENDING = false) : applyDecl m s = s := by
  unfold applyDecl
  exact if_pos (by rw [h]; rfl)

/-- Whatever follows once a declaration is taken, no declaration changes. -/
theorem applyDecl_taken (n : Port) {m : Nat} {s : State} (h : isSet s (lptPage m) LPT_DECL.PENDING = true) : DeclKept n (declTaken m s) (applyDecl m s) := by
  unfold applyDecl
  extract_lets p old d x s1 s2 s3 s4 s5
  rw [if_neg (by rw [h]; decide)]
  have h1 : s1 = declTaken m s := rfl
  clear_value s1 x d
  have h2 : DeclKept n s1 s2 := by
    unfold s2
    split
    · exact undeclare_decl n m s1
    · exact .refl n s1
  have h3 : DeclKept n s1 s3 := by
    unfold s3
    split
    · exact h2.setF _ LPT_STATUS.PERMIT _ (by decide)
    split
    · exact h2
    · exact h2.setF _ LPT_STATUS.PERMIT _ (by decide)
  have h4 : DeclKept n s1 s4 := by
    unfold s4
    split
    · exact h3
    · exact h3.raise _ _
  have h5 : DeclKept n s1 s5 := h4.trans (refreshChain_decl n m s4)
  rw [← h1]
  split
  · exact h5.trans (capPort_decl n m s5)
  · exact h5

theorem isSet_of_one {s : State} {p : Page} {f : Field} (h : getF s p f = 1) : isSet s p f = true := by
  unfold isSet
  rw [h]
  rfl

theorem getF_setPort (k : Nat) (x : PortSt) (s : State) (p : Page) (f : Field) : getF (setPort k x s) p f = getF s p f := getI_congr rfl

theorem declTaken_pending (m : Nat) (s : State) : getF (declTaken m s) (lptPage m) LPT_DECL.PENDING = 0 := by
  unfold declTaken
  rw [getF_setPort, getF_setF_self _ _ _ _ (by decide)]
  rfl

/-- A declaration that waits takes effect. -/
theorem applyDecl_self {n : Port} {s : State} (h : getF s (.lpt n) LPT_DECL.PENDING = 1) :
    getF (applyDecl n.val s) (.lpt n) LPT_DECL.PENDING = 0 ∧ (port (applyDecl n.val s) n.val).declared = isSet s (.lpt n) LPT_DECL.DECLARED := by
  have k := applyDecl_taken n (m := n.val) (s := s) (by rw [lptPage_val]; exact isSet_of_one h)
  have hp := declTaken_pending n.val s
  rw [lptPage_val] at hp
  refine ⟨k.pending.getF.trans hp, k.effect.trans ?_⟩
  unfold declTaken
  rw [port_setPort_self]
  unfold declWritten
  rw [lptPage_val]

/-- The taking of a declaration leaves that of another port. -/
theorem declTaken_decl {n : Port} {m : Nat} {s : State} (hm : m < 52) (h : n.val ≠ m) : DeclKept n s (declTaken m s) := by
  have hp : (Page.lpt n) ≠ lptPage m := fun k => h (by
    rw [congrArg Fin.val (Page.lpt.inj k)]
    exact Nat.mod_eq_of_lt hm)
  have hs : DeclKept n s (setF (lptPage m) LPT_DECL.PENDING 0 s) := ⟨getI_setI_page s _ _ 0 0 0 hp, getI_setI_page s _ _ 0 0 0 hp, DeclKept.declared_of_ports (ports_setF _ _ _ _) n⟩
  unfold declTaken
  generalize setF (lptPage m) LPT_DECL.PENDING 0 s = u at hs
  exact hs.trans ⟨.upd rfl, .upd rfl, congrArg PortSt.declared (port_setPort_other _ u h)⟩

/-- A declaration that does not wait, and that of another port, stays as it is. -/
theorem applyDecl_decl {n : Port} {s : State} {m : Nat} (hm : m < 52) (h : n.val ≠ m) : DeclKept n s (applyDecl m s) := by
  cases e : isSet s (lptPage m) LPT_DECL.PENDING with
  | false =>
    rw [applyDecl_idle e]
    exact .refl n s
  | true => exact (declTaken_decl hm h).trans (applyDecl_taken n e)

theorem applyDecl_foldl {n : Port} : ∀ (l : List Nat) (s : State), (∀ m ∈ l, m < 52 ∧ n.val ≠ m) → DeclKept n s (l.foldl (fun t m => applyDecl m t) s)
  | [], _, _ => .refl n _
  | m :: l, _, h =>
    have hm := h m List.mem_cons_self
    .trans (applyDecl_decl hm.1 hm.2) (applyDecl_foldl l _ fun k hk => h k (List.mem_cons_of_mem m hk))

theorem allPorts_cut : ∀ n : Port, allPorts = List.range n.val ++ n.val :: List.range' (n.val + 1) (51 - n.val) := by decide

/-- A declaration that waits takes effect once, whatever the other ports do. -/
theorem applyDecls_effect {n : Port} {s : State} (h : getF s (.lpt n) LPT_DECL.PENDING = 1) :
    getF (applyDecls s) (.lpt n) LPT_DECL.PENDING = 0 ∧ (port (applyDecls s) n.val).declared = isSet s (.lpt n) LPT_DECL.DECLARED := by
  unfold applyDecls
  rw [allPorts_cut n, List.foldl_append, List.foldl_cons]
  have h1 : DeclKept n s ((List.range n.val).foldl (fun t m => applyDecl m t) s) := applyDecl_foldl _ s fun m hm => by
    have := List.mem_range.mp hm
    omega
  generalize (List.range n.val).foldl (fun t m => applyDecl m t) s = a at h1
  obtain ⟨h2, h3⟩ := applyDecl_self (h1.pending.getF.trans h)
  have h4 : DeclKept n (applyDecl n.val a) _ := applyDecl_foldl (List.range' (n.val + 1) (51 - n.val)) (applyDecl n.val a) fun m hm => by
    have := List.mem_range'_1.mp hm
    omega
  exact ⟨h4.pending.getF.trans h2, (h4.effect.trans h3).trans h1.written.isSet⟩

end Sys2Proof.Machine
end

section
/-!
PROOFS. The start of a superframe (R15, R63, R68, R183).
-/
namespace Sys2Proof.Machine

/-- The number of the superframe, ROUND, the allocation maps and the epoch of the change that waits stand. -/
structure GridKept (s t : State) : Prop where
  sfn : FieldKept .bcn BCN_SFN.SFN 0 s t
  round : FieldKept .bcn BCN_STATUS.ROUND 0 s t
  map : FieldKept .bcn BCN_RU_MAP.RUS 0 s t
  mapCur : FieldKept .bcn BCN_RU_MAP_CUR.RUS 0 s t
  epoch : t.bcn.epoch = s.bcn.epoch

/-- Every part of the state but the page and the state of BCN. -/
abbrev besideBcn : Nat := 0x3fffdfffffbfff

/-- Every part of the state but the pages and the states of BCN and of the ports. -/
abbrev besideGridPorts : Nat := 0x3fffddff7fbfff

/-- Every part of the state but the page of BCN. -/
abbrev besideBcnPage : Nat := 0x3fffffffffbfff

/-- A field of the page of BCN that is none of the number, ROUND and the maps. -/
def Field.besideGrid (f : Field) : Bool :=
  f.ordered && (fieldsSplit f BCN_SFN.SFN 0 0 && fieldsSplit f BCN_STATUS.ROUND 0 0 && fieldsSplit f BCN_RU_MAP.RUS 0 0 && fieldsSplit f BCN_RU_MAP_CUR.RUS 0 0)

namespace GridKept

variable {s t u : State}

theorem refl (s : State) : GridKept s s := ⟨rfl, rfl, rfl, rfl, rfl⟩

theorem trans (h : GridKept s t) (k : GridKept t u) : GridKept s u :=
  ⟨h.sfn.trans k.sfn, h.round.trans k.round, h.map.trans k.map, h.mapCur.trans k.mapCur, k.epoch.trans h.epoch⟩

theorem upd (hr : t.regs = s.regs) (hb : t.bcn.epoch = s.bcn.epoch) : GridKept s t := ⟨.upd hr, .upd hr, .upd hr, .upd hr, hb⟩

theorem page (h : Within besideBcnPage s t) (e : t.bcn.epoch = s.bcn.epoch) : GridKept s t :=
  ⟨.within (q := .bcn) h rfl, .within (q := .bcn) h rfl, .within (q := .bcn) h rfl, .within (q := .bcn) h rfl, e⟩

theorem of (h : Within besideBcn s t) : GridKept s t :=
  ⟨.within (q := .bcn) h rfl, .within (q := .bcn) h rfl, .within (q := .bcn) h rfl, .within (q := .bcn) h rfl, congrArg BcnSt.epoch (h.same .bcn rfl)⟩

theorem setF (h : GridKept s t) (f : Field) (v : Nat) (hf : f.besideGrid = true) : GridKept s (setF .bcn f v t) := by
  unfold Field.besideGrid at hf
  simp only [Bool.and_eq_true] at hf
  obtain ⟨ho, ⟨⟨h1, h2⟩, h3⟩, h4⟩ := hf
  exact ⟨h.sfn.setF _ f v ho (.inr h1), h.round.setF _ f v ho (.inr h2), h.map.setF _ f v ho (.inr h3), h.mapCur.setF _ f v ho (.inr h4), (congrArg BcnSt.epoch (bcn_setF _ _ _ _)).trans h.epoch⟩

theorem raise (h : GridKept s t) (k : Nat) : GridKept s (raise .bcn k t) :=
  ⟨h.sfn.raise _ k (by decide), h.round.raise _ k (by decide), h.map.raise _ k (by decide), h.mapCur.raise _ k (by decide), (congrArg BcnSt.epoch (bcn_raise _ _ _)).trans h.epoch⟩

theorem foldl {α : Type} {f : State → α → State} (hf : ∀ u x, GridKept u (f u x)) : ∀ (l : List α) (s : State), GridKept s (l.foldl f s)
  | [], s => .refl s
  | x :: l, s => (hf s x).trans (GridKept.foldl hf l _)

end GridKept

/-! Bursts that end at a boundary. -/

theorem cutOccs_epoch (n : Nat) (s : State) : (cutOccs n s).bcn.epoch = s.bcn.epoch := rfl

theorem driverOff_grid (n : Nat) (s : State) : GridKept s (driverOff n s) := by
  refine .page (driverOff_within .refl n rfl) ?_
  unfold driverOff
  rw [cutOccs_epoch]
  refine (congrArg BcnSt.epoch ((refreshGroup_within (m := 0x800000) .refl _ rfl).same .bcn rfl)).trans ?_
  rw [bcn_setB, bcn_setB]

theorem endTx_grid (p : Burst → Bool) (st : Nat) (s : State) : GridKept s (endTx p st s) := by
  unfold endTx
  extract_lets ids ps s1
  refine .trans (GridKept.foldl (fun u id => .of (completeBurst_within .refl id _ rfl)) ids s) (.foldl (fun u m => ?_) ps _)
  split
  · exact driverOff_grid m u
  · exact .refl u

/-! The waveforms (R130, R149). -/

theorem nbBoundary_decl (n : Port) (k : Nat) (s : State) : DeclKept n s (nbBoundary k s) := by
  unfold nbBoundary
  extract_lets s1 s2
  have h1 : DeclKept n s s1 := by
    unfold s1
    split
    · exact .refl n s
    · exact endTx_decl n _ _ _
  have h2 : DeclKept n s1 s2 := .of (nbApply_within .refl _ _ rfl)
  have h3 : DeclKept n s2 { s2 with nbw := { s2.nbw with cfg := nbCfgReg s2 } } := .upd rfl rfl
  exact ((h1.trans h2).trans h3).trans (.of (nbPending_within .refl rfl))

theorem bbBoundary_decl (n : Port) (k : Nat) (s : State) : DeclKept n s (bbBoundary k s) := by
  unfold bbBoundary
  extract_lets t0 src t1 s1 c src1
  have h0 : DeclKept n s t0 := endTx_decl n _ _ _
  have h1 : DeclKept n s s1 := by
    unfold s1
    split
    · exact .refl n s
    · exact (h0.trans (.upd (t := t1) rfl rfl)).trans (.of (raise_within (setB_within .refl _ _ _ rfl) _ _ rfl rfl))
  have h2 : DeclKept n s1 { s1 with bbw := { s1.bbw with cfg := c } } := .upd rfl rfl
  exact (h1.trans h2).trans (.of (bbPending_within .refl rfl))

theorem nbBoundary_grid (n : Nat) (s : State) : GridKept s (nbBoundary n s) := by
  unfold nbBoundary
  extract_lets s1 s2
  have h1 : GridKept s s1 := by
    unfold s1
    split
    · exact .refl s
    · exact endTx_grid _ _ _
  have h2 : GridKept s1 s2 := .of (nbApply_within .refl _ _ rfl)
  have h3 : GridKept s2 { s2 with nbw := { s2.nbw with cfg := nbCfgReg s2 } } := .upd rfl rfl
  exact ((h1.trans h2).trans h3).trans (.of (nbPending_within .refl rfl))

theorem bbBoundary_grid (n : Nat) (s : State) : GridKept s (bbBoundary n s) := by
  unfold bbBoundary
  extract_lets t0 src t1 s1 c src1
  have h0 : GridKept s t0 := endTx_grid _ _ _
  have h1 : GridKept s s1 := by
    unfold s1
    split
    · exact .refl s
    · exact (h0.trans (.upd (t := t1) rfl rfl)).trans (.of (raise_within (setB_within .refl _ _ _ rfl) _ _ rfl rfl))
  have h2 : GridKept s1 { s1 with bbw := { s1.bbw with cfg := c } } := .upd rfl rfl
  exact (h1.trans h2).trans (.of (bbPending_within .refl rfl))

theorem setNbMap_grid (m : Nat) (s : State) : GridKept s (setNbMap m s) :=
  .setF (.setF (.refl s) BCN_NB_MAP_CUR_HI.SETS _ (by decide)) BCN_NB_MAP_CUR_LO.SETS _ (by decide)

theorem trimNbMap_grid (s : State) : GridKept s (trimNbMap s) := by
  unfold trimNbMap
  extract_lets m s1
  split
  · exact .refl s
  split
  · exact .raise (setNbMap_grid _ s) _
  · exact setNbMap_grid _ s

theorem capPorts_grid (s : State) : GridKept s (capPorts s) := .of (capPorts_within .refl rfl)

theorem lastMap_grid (m : Nat) (s : State) : GridKept s { s with nbw := { s.nbw with lastMap := m } } := .upd rfl rfl

theorem keepLastMap_grid (s : State) : GridKept s (keepLastMap s) := lastMap_grid (nbMap s) s

theorem lastMap_decl (n : Port) (m : Nat) (s : State) : DeclKept n s { s with nbw := { s.nbw with lastMap := m } } := .upd rfl rfl

theorem keepLastMap_decl (n : Port) (s : State) : DeclKept n s (keepLastMap s) := lastMap_decl n (nbMap s) s

theorem wavesMoved_grid (n : Nat) (s : State) : GridKept s (bbBoundary n (trimNbMap (nbBoundary n (applyDecls (keepLastMap s))))) := by
  have h1 := keepLastMap_grid s
  generalize keepLastMap s = a at h1
  have h2 : GridKept s (applyDecls a) := h1.trans (.of (applyDecls_within .refl rfl))
  generalize applyDecls a = b at h2
  have h3 := h2.trans (nbBoundary_grid n b)
  generalize nbBoundary n b = c at h3
  have h4 := h3.trans (trimNbMap_grid c)
  generalize trimNbMap c = d at h4
  exact h4.trans (bbBoundary_grid n d)

theorem applyWaves_grid (s : State) : GridKept s (applyWaves s) := by
  unfold applyWaves
  extract_lets t
  have h : GridKept s t := wavesMoved_grid (Machine.sfn s) s
  split
  · exact h
  · exact h.trans (capPorts_grid t)

theorem applyWaves_decl (n : Port) (s : State) : DeclKept n (applyDecls (keepLastMap s)) (applyWaves s) := by
  unfold applyWaves
  extract_lets t
  have h : DeclKept n (applyDecls (keepLastMap s)) t := by
    unfold t
    refine .trans ?_ (bbBoundary_decl n _ _)
    refine .trans ?_ (.of (trimNbMap_within .refl rfl))
    exact nbBoundary_decl n _ _
  split
  · exact h
  · exact h.trans (.foldl (fun u m => capPort_decl n m u) _ t)

/-! The change that waits for its epoch (R183). -/

theorem countErr_grid (s : State) : GridKept s (countErr .bcn s) := by
  have h : RegsBut [addr .bcn offIntStat, addr .bcn offErrCnt] s (countErr .bcn s) := (RegsBut.refl _ _).countErr (by simp) (by simp)
  have k : ∀ f : Field, addr .bcn (f.offAt 0) ∉ [addr .bcn offIntStat, addr .bcn offErrCnt] → FieldKept .bcn f 0 s (countErr .bcn s) := fun f hf => getI_congr (h _ hf)
  exact ⟨k _ (by decide), k _ (by decide), k _ (by decide), k _ (by decide), congrArg BcnSt.epoch (bcn_countErr _ _)⟩

theorem applyNbMap_grid (s : State) : GridKept s (applyNbMap s) := by
  unfold applyNbMap
  extract_lets m
  split
  · exact .refl s
  split
  · exact setNbMap_grid m s
  · exact .raise (countErr_grid s) _

theorem takeBcnCfg_grid (s : State) : GridKept s (takeBcnCfg s) := .upd rfl rfl

/-- Outside its epoch a change waits on. -/
theorem applyEpoch_waits {s : State} (h : s.bcn.epoch ≠ some (sfn s)) : applyEpoch s = s := by
  unfold applyEpoch
  exact if_pos h

/-- The maps written are taken, the number and ROUND stand. -/
theorem takeMaps_effect (s : State) : sfn (takeMaps s) = sfn s ∧ FieldKept .bcn BCN_STATUS.ROUND 0 s (takeMaps s) ∧
    getF (takeMaps s) .bcn BCN_RU_MAP_CUR.RUS = getF s .bcn BCN_RU_MAP.RUS := by
  unfold takeMaps
  have h1 := applyNbMap_grid s
  generalize applyNbMap s = a at h1
  have hv : getF s .bcn BCN_RU_MAP.RUS % 2 ^ 27 = getF s .bcn BCN_RU_MAP.RUS := Nat.mod_eq_of_lt (getBits_lt _ _ _)
  have h2 : getF (setF .bcn BCN_RU_MAP_CUR.RUS (getF s .bcn BCN_RU_MAP.RUS) a) .bcn BCN_RU_MAP_CUR.RUS = getF s .bcn BCN_RU_MAP.RUS := (getF_setF_self _ _ _ _ (by decide)).trans hv
  have h3 : FieldKept .bcn BCN_SFN.SFN 0 s (setF .bcn BCN_RU_MAP_CUR.RUS (getF s .bcn BCN_RU_MAP.RUS) a) := h1.sfn.setF _ _ _ (by decide) (.inr (by decide))
  have h4 : FieldKept .bcn BCN_STATUS.ROUND 0 s (setF .bcn BCN_RU_MAP_CUR.RUS (getF s .bcn BCN_RU_MAP.RUS) a) := h1.round.setF _ _ _ (by decide) (.inr (by decide))
  generalize setF .bcn BCN_RU_MAP_CUR.RUS (getF s .bcn BCN_RU_MAP.RUS) a = b at h2 h3 h4
  have hb := takeBcnCfg_grid b
  exact ⟨h3.trans hb.sfn, h4.trans hb.round, hb.mapCur.getF.trans h2⟩

theorem setEpoch_effect (e : Option Nat) (s : State) : (setEpoch e s).bcn.epoch = e ∧ sfn (setEpoch e s) = sfn s ∧ FieldKept .bcn BCN_STATUS.ROUND 0 s (setEpoch e s) ∧
    FieldKept .bcn BCN_RU_MAP_CUR.RUS 0 s (setEpoch e s) := by
  unfold setEpoch
  exact ⟨congrArg BcnSt.epoch (bcn_setB _ _ _ _), FieldKept.setB (.upd rfl) _ _ _ (by decide) (.inr (by decide)), FieldKept.setB (.upd rfl) _ _ _ (by decide) (.inr (by decide)),
    FieldKept.setB (.upd rfl) _ _ _ (by decide) (.inr (by decide))⟩

/-- At its epoch a change takes effect. -/
theorem applyEpoch_effect {s : State} (h : s.bcn.epoch = some (sfn s)) : (applyEpoch s).bcn.epoch = none ∧ sfn (applyEpoch s) = sfn s ∧
    FieldKept .bcn BCN_STATUS.ROUND 0 s (applyEpoch s) ∧ getF (applyEpoch s) .bcn BCN_RU_MAP_CUR.RUS = getF s .bcn BCN_RU_MAP.RUS := by
  unfold applyEpoch
  extract_lets t
  rw [if_neg (not_not_intro h)]
  obtain ⟨h1, h2, h3⟩ := takeMaps_effect s
  obtain ⟨k1, k2, k3, k4⟩ := setEpoch_effect none (takeMaps s)
  have ht : t.bcn.epoch = none ∧ sfn t = sfn s ∧ FieldKept .bcn BCN_STATUS.ROUND 0 s t ∧ getF t .bcn BCN_RU_MAP_CUR.RUS = getF s .bcn BCN_RU_MAP.RUS :=
    ⟨k1, k2.trans h1, h2.trans k3, k4.getF.trans h3⟩
  clear_value t
  obtain ⟨t1, t2, t3, t4⟩ := ht
  split
  · have hr : GridKept t (raise .bcn BCN_INT.EPOCH_APPLIED t) := .raise (.refl t) _
    exact ⟨hr.epoch.trans t1, hr.sfn.getF.trans t2, t3.trans hr.round, hr.mapCur.getF.trans t4⟩
  · exact ⟨t1, t2, t3, t4⟩

/-- The number and ROUND stand in either case. -/
theorem applyEpoch_round (s : State) : sfn (applyEpoch s) = sfn s ∧ FieldKept .bcn BCN_STATUS.ROUND 0 s (applyEpoch s) := by
  by_cases h : s.bcn.epoch = some (sfn s)
  · obtain ⟨-, h2, h3, -⟩ := applyEpoch_effect h
    exact ⟨h2, h3⟩
  · rw [applyEpoch_waits h]
    exact ⟨rfl, rfl⟩

/-! The rest of what waits for the boundary. -/

/-- The settings that are taken once the epoch is over. -/
def settingsTaken (s : State) : State := allPorts.foldl (fun t p => calStart p t) (bqBoundary (ncalBoundary (takeDwellCfg s)))

theorem applyPending_eq (s : State) : applyPending s = settingsTaken (applyEpoch (applyWaves s)) := rfl

theorem settingsTaken_grid (s : State) : GridKept s (settingsTaken s) := by
  unfold settingsTaken
  have h1 : GridKept s (takeDwellCfg s) := .upd rfl rfl
  generalize takeDwellCfg s = a at h1
  have h2 : GridKept s (bqBoundary (ncalBoundary a)) := h1.trans (.of (bqBoundary_within (ncalBoundary_within .refl rfl) rfl))
  exact h2.trans (.foldl (fun u p => .of (calStart_within .refl p rfl)) _ _)

theorem settingsTaken_decl (n : Port) (s : State) : DeclKept n s (settingsTaken s) := by
  unfold settingsTaken
  have h1 : DeclKept n s (takeDwellCfg s) := .upd rfl rfl
  generalize takeDwellCfg s = a at h1
  have h2 : DeclKept n s (bqBoundary (ncalBoundary a)) := h1.trans (.of (bqBoundary_within (ncalBoundary_within .refl rfl) rfl))
  exact h2.trans (.foldl (fun u p => calStart_decl n p u) _ _)

/-! The roles of a pair change at a boundary (R410). -/

theorem becomeStandby_grid (s : State) : GridKept s (becomeStandby s) := by
  unfold becomeStandby
  extract_lets s1 src s2 src2
  have h1 : GridKept s s1 := endTx_grid _ _ _
  have h2 : GridKept s1 s2 := .upd rfl rfl
  clear_value s2
  exact (h1.trans h2).trans (.of (pairBecomes_within (setMac_within .refl _ rfl) _ rfl))

theorem becomeStandby_decl (n : Port) (s : State) : DeclKept n s (becomeStandby s) := by
  unfold becomeStandby
  extract_lets s1 src s2 src2
  have h1 : DeclKept n s s1 := endTx_decl n _ _ _
  have h2 : DeclKept n s1 s2 := .upd rfl rfl
  clear_value s2
  exact (h1.trans h2).trans (.of (pairBecomes_within (setMac_within .refl _ rfl) _ rfl))

/-- A change of role writes port pages and the state of BCN through the bursts that end only. -/
theorem roleSwap_parts {P : State → State → Prop} (hr : ∀ u, P u u) (ht : ∀ u v w, P u v → P v w → P u w) (hb : ∀ u, P u (becomeStandby u))
    (hw : ∀ u v, Within besideGridPorts u v → P u v) (h : TruHold) (s : State) : P s (roleSwap h s) := by
  unfold roleSwap
  extract_lets src s1 e s2 s3
  have h1 : P s s1 := hw _ _ (setPair_within .refl _ rfl)
  have h2 : P s s2 := ht _ _ _ h1 (hw _ _ (raise_within (setF_within .refl _ _ _ rfl) _ _ rfl rfl))
  clear_value s1 s2
  split
  · exact hr s
  split
  · exact h1
  split
  · exact ht _ _ _ h2 (hw _ _ (dropPairRef_within (pairBecomes_within .refl _ rfl) h rfl))
  · have h3 : P s s3 := ht _ _ _ (ht _ _ _ h2 (hb s2)) (hw _ _ (setSync_within .refl _ rfl))
    split
    · split
      · exact ht _ _ _ h3 (hw _ _ (done_within .refl _ _ rfl rfl))
      · exact h3
    · exact h3

theorem roleSwap_grid (h : TruHold) (s : State) : GridKept s (roleSwap h s) :=
  roleSwap_parts .refl (fun _ _ _ => .trans) becomeStandby_grid (fun _ _ k => .of (k.weaken rfl)) h s

theorem roleSwap_decl (n : Port) (h : TruHold) (s : State) : DeclKept n s (roleSwap h s) :=
  roleSwap_parts (.refl n) (fun _ _ _ => .trans) (becomeStandby_decl n) (fun _ _ k => .of (k.weaken rfl)) h s

/-! What follows the changes that wait for the boundary. -/

/-- The plan, the appointments and the roles that follow the changes that wait. -/
def rolesTaken (h : TruHold) (s : State) : State := roleSwap h (applyBkey (pruneOccs (dropStale (engBoundary s))))

theorem pruned_grid (s : State) : GridKept s (pruneOccs (dropStale s)) := .upd rfl rfl

theorem pruned_within (s : State) : Within 0x6000000000 s (pruneOccs (dropStale s)) := pruneOccs_within (dropStale_within .refl rfl) rfl

theorem rolesTaken_grid (h : TruHold) (s : State) : GridKept s (rolesTaken h s) := by
  unfold rolesTaken
  have h1 : GridKept s (engBoundary s) := .of (engBoundary_within .refl rfl)
  generalize engBoundary s = a at h1
  have h2 := h1.trans (pruned_grid a)
  generalize pruneOccs (dropStale a) = b at h2
  exact h2.trans (.trans (.of (applyBkey_within .refl rfl)) (roleSwap_grid h _))

theorem rolesTaken_decl (n : Port) (h : TruHold) (s : State) : DeclKept n s (rolesTaken h s) := by
  unfold rolesTaken
  refine .trans ?_ (roleSwap_decl n h _)
  exact .of (applyBkey_within (pruneOccs_within (dropStale_within (engBoundary_within .refl rfl) rfl) rfl) rfl)

/-- Associations, the parent and the lanes at the boundary, before the start is shown. -/
def boundarySent (s : State) : State := flushLanes (tickPauses (sendLaneBeacons (checkParent (checkPtp (countListened (superviseAll s))))))

theorem boundarySent_within (s : State) : Within 0x28b8493425ba00 s (boundarySent s) := by
  unfold boundarySent
  exact flushLanes_within (tickPauses_within (sendLaneBeacons_within (checkParent_within (checkPtp_within (countListened_within (superviseAll_within .refl rfl) rfl) rfl) rfl) rfl) rfl) rfl

/-- A superframe of listening is counted in stage 0x0E (R85). -/
theorem boundarySent_listened {s : State} (h : stage s = 14) : (boundarySent s).boot.listened = s.boot.listened + 1 := by
  unfold boundarySent
  have h1 : Within 0x20a8483425ba00 s (superviseAll s) := superviseAll_within .refl rfl
  have hs : stage (superviseAll s) = 14 := (h1.getF_addr .boot _ rfl).trans h
  have hb : (superviseAll s).boot = s.boot := h1.same .boot rfl
  generalize superviseAll s = a at hs hb
  have h2 : (countListened a).boot.listened = a.boot.listened + 1 := by
    unfold countListened
    rw [if_pos hs]
  generalize countListened a = b at h2
  have h3 : (flushLanes (tickPauses (sendLaneBeacons (checkParent (checkPtp b))))).boot = b.boot :=
    (flushLanes_within (m := 0x28ba487435bb00) (tickPauses_within (sendLaneBeacons_within (checkParent_within (checkPtp_within .refl rfl) rfl) rfl) rfl) rfl).same .boot rfl
  rw [h3, h2, hb]

/-! The power state that was decided (R68). -/

theorem applyPower_effect {s : State} {st : PowerState} (h : s.pwr.next = some st) : (applyPower s).pwr.state = st ∧ (applyPower s).pwr.next = none := by
  unfold applyPower
  rw [h]
  dsimp only
  generalize hx : ({ s.pwr with state := st, next := none, autoDue := false } : PwrSt) = x
  have ht : (setF .pwr PWR_SUPPLY.STATE (stateCode st) (setPwr x s)).pwr = x := pwr_setF _ _ _ _
  generalize setF .pwr PWR_SUPPLY.STATE (stateCode st) (setPwr x s) = a at ht
  have h1 : (followPower (raise .pwr (if st = .outage then PWR_INT.OUTAGE_ENTERED else PWR_INT.OUTAGE_LEFT) (linkTime 1 (stateCode s.pwr.state) (stateCode st) a))).pwr = x :=
    ((followPower_within (m := 0x20240029843822) (raise_within (linkTime_within .refl _ _ _ rfl) _ _ rfl rfl) rfl).same .pwr rfl).trans ht
  generalize followPower (raise .pwr (if st = .outage then PWR_INT.OUTAGE_ENTERED else PWR_INT.OUTAGE_LEFT) (linkTime 1 (stateCode s.pwr.state) (stateCode st) a)) = b at h1
  have hk : ∀ u : State, u.pwr = x → u.pwr.state = st ∧ u.pwr.next = none := fun u hu => by
    rw [hu, ← hx]
    exact ⟨rfl, rfl⟩
  split
  · split
    · exact hk _ ((pwr_done _ _ _).trans h1)
    · exact hk _ h1
  · exact hk _ h1

theorem applyPower_decl (n : Port) (s : State) : DeclKept n s (applyPower s) := by
  have hf : ∀ u : State, DeclKept n u (followPower u) := fun u => by
    unfold followPower
    extract_lets s1 off s2 s3
    have h1 : DeclKept n u s1 := .foldl (fun v m => refreshChain_decl n m v) _ u
    have h2 : DeclKept n s1 s2 := .foldl (fun v l => by
      unfold off
      split
      · exact .of (laneFall_within .refl _ _ _ _ rfl)
      · exact .refl n v) _ s1
    have h3 : DeclKept n s2 s3 := .foldl (fun v l => by
      unfold off
      split
      · exact .of (mirrorFall_within .refl _ _ _ rfl)
      · exact .refl n v) _ s2
    exact ((h1.trans h2).trans h3).trans (.of (refreshGate_within (refreshEngines_within .refl rfl) rfl))
  unfold applyPower
  extract_lets src s1
  have h1 : DeclKept n s s1 := by
    unfold s1
    split
    · exact .refl n s
    · refine .trans ?_ (hf _)
      exact .of (raise_within (linkTime_within (setF_within (setPwr_within .refl _ rfl) _ _ _ rfl) _ _ _ rfl) _ _ rfl rfl)
  split
  · split
    · exact h1.trans (.of (done_within .refl _ _ rfl rfl))
    · exact h1
  · exact h1

/-! The start of a superframe. -/

theorem advance_effect (s : State) : sfn (advance s) = (sfn s + 1) % 2 ^ 32 ∧ getF (advance s) .bcn BCN_STATUS.ROUND = (sfn s + 1) % 4 ∧
    (advance s).time = { s.time with sfStart := s.time.sfStart + superframe, slot := 0 } ∧ (advance s).bcn.epoch = s.bcn.epoch ∧ FieldKept .bcn BCN_RU_MAP.RUS 0 s (advance s) := by
  unfold advance
  extract_lets n src t
  have hn : n = (sfn s + 1) % 2 ^ 32 := rfl
  clear_value n
  have h0 : FieldKept .bcn BCN_RU_MAP.RUS 0 s { s with time := t } := .upd rfl
  have h0e : ({ s with time := t } : State).bcn = s.bcn := rfl
  have h0t : ({ s with time := t } : State).time = t := rfl
  generalize ({ s with time := t } : State) = a at h0 h0e h0t
  refine ⟨?_, ?_, ?_, ?_, ?_⟩
  · refine ((getF_setF_split _ _ _ (by decide)).trans (getF_setF_self _ _ _ _ (by decide))).trans ?_
    rw [hn]
    exact Nat.mod_mod _ _
  · refine (getF_setF_self _ _ _ _ (by decide)).trans ?_
    rw [hn, show BCN_STATUS.ROUND.width = 2 from rfl]
    omega
  · rw [time_setF, time_setF, h0t]
  · rw [bcn_setF, bcn_setF, h0e]
  · exact (h0.setF _ _ _ (by decide) (.inr (by decide))).setF _ _ _ (by decide) (.inr (by decide))

end Sys2Proof.Machine
end

section
/-!
PROOFS. The superframe grid (R15, R63, R68, R183, R184, R201).
-/
namespace Sys2Proof.Machine

/-- The boundary up to the changes of the waveforms. -/
def boundaryReady (noise : List NoiseReading) (s : State) : State := showNoise noise (applyPower (advance (logSuperframe s)))

/-- What follows the changes that wait for the epoch. -/
def boundaryDone (h : TruHold) (s : State) : State := boundarySent (rolesTaken h (settingsTaken s))

theorem superframeStart_eq (noise : List NoiseReading) (h : TruHold) (s : State) :
    superframeStart noise h s = showStart (boundaryDone h (applyEpoch (applyWaves (boundaryReady noise s)))) := rfl

theorem boundaryDone_grid (h : TruHold) (s : State) : GridKept s (boundaryDone h s) := by
  unfold boundaryDone
  refine .trans ?_ (.of ((boundarySent_within _).weaken rfl))
  exact (settingsTaken_grid s).trans (rolesTaken_grid h _)

theorem boundaryDone_decl (n : Port) (h : TruHold) (s : State) : DeclKept n s (boundaryDone h s) := by
  unfold boundaryDone
  refine .trans ?_ (.of ((boundarySent_within _).weaken rfl))
  exact (settingsTaken_decl n s).trans (rolesTaken_decl n h _)

theorem showStart_grid (s : State) : GridKept s (showStart s) := .raise (.setF (.refl s) BCN_STATUS.BEACONING _ (by decide)) _

theorem showStart_decl (n : Port) (s : State) : DeclKept n s (showStart s) := .of (showStart_within .refl rfl)

/-- What stands once the boundary is ready. -/
theorem boundaryReady_effect (noise : List NoiseReading) (s : State) : sfn (boundaryReady noise s) = (sfn s + 1) % 2 ^ 32 ∧
    getF (boundaryReady noise s) .bcn BCN_STATUS.ROUND = (sfn s + 1) % 4 ∧ (boundaryReady noise s).time = { s.time with sfStart := s.time.sfStart + superframe, slot := 0 } ∧
    (boundaryReady noise s).bcn.epoch = s.bcn.epoch ∧ getF (boundaryReady noise s) .bcn BCN_RU_MAP.RUS = getF s .bcn BCN_RU_MAP.RUS ∧
    (∀ st, s.pwr.next = some st → (boundaryReady noise s).pwr.state = st ∧ (boundaryReady noise s).pwr.next = none) := by
  unfold boundaryReady
  have h0 : Within 0x20488028000020 s (logSuperframe s) := logSuperframe_within .refl rfl
  generalize logSuperframe s = a at h0
  have g0 : GridKept s a := .of (h0.weaken rfl)
  obtain ⟨h1, h2, h3, h4, h5⟩ := advance_effect a
  have hp1 : (advance a).pwr = s.pwr := ((advance_within (m := 0x40004000) .refl rfl).same .pwr rfl).trans (h0.same .pwr rfl)
  generalize advance a = b at h1 h2 h3 h4 h5 hp1
  have w : Within 0x202400bd843822 b (showNoise noise (applyPower b)) := showNoise_within (applyPower_within .refl rfl) _ rfl
  have g : GridKept b (showNoise noise (applyPower b)) := .of (w.weaken rfl)
  have hs : sfn a = sfn s := g0.sfn
  refine ⟨g.sfn.getF.trans (h1.trans (by rw [hs])), g.round.getF.trans (h2.trans (by rw [hs])), (w.same .time rfl).trans (h3.trans (by rw [h0.same .time rfl])), g.epoch.trans (h4.trans g0.epoch),
    g.map.getF.trans (h5.getF.trans g0.map.getF), fun st hst => ?_⟩
  have hn : (showNoise noise (applyPower b)).pwr = (applyPower b).pwr := (showNoise_within (m := 0x800000) .refl noise rfl).same .pwr rfl
  rw [hn]
  exact applyPower_effect (by rw [hp1, hst])

theorem boundaryReady_decl (n : Port) (noise : List NoiseReading) (s : State) : DeclKept n s (boundaryReady noise s) := by
  unfold boundaryReady
  refine .trans ?_ (showNoise_decl n noise _)
  refine .trans ?_ (applyPower_decl n _)
  exact .of (advance_within (logSuperframe_within .refl rfl) rfl)

/-- A declaration that waits takes effect at the boundary (R63). -/
theorem superframeStart_decl {n : Port} {s : State} (noise : List NoiseReading) (h : TruHold) (hn : getF s (.lpt n) LPT_DECL.PENDING = 1) :
    getF (superframeStart noise h s) (.lpt n) LPT_DECL.PENDING = 0 ∧ (port (superframeStart noise h s) n.val).declared = isSet s (.lpt n) LPT_DECL.DECLARED := by
  rw [superframeStart_eq]
  have h1 := boundaryReady_decl n noise s
  generalize boundaryReady noise s = a at h1
  have h2 := h1.trans (keepLastMap_decl n a)
  have h3 := applyWaves_decl n a
  obtain ⟨k1, k2⟩ := applyDecls_effect (h2.pending.getF.trans hn)
  generalize applyDecls (keepLastMap a) = b at h3 k1 k2
  generalize applyWaves a = c at h3
  have h4 : DeclKept n b (applyEpoch c) := h3.trans (.of (applyEpoch_within .refl rfl))
  have h5 := (h4.trans (boundaryDone_decl n h _)).trans (showStart_decl n _)
  exact ⟨h5.pending.getF.trans k1, (h5.effect.trans k2).trans h2.written.isSet⟩

/-- The number, the slot, ROUND, the power state and the interrupt of a superframe that starts (R15, R68, R183). -/
theorem superframeStart_effect (noise : List NoiseReading) (h : TruHold) (s : State) : sfn (superframeStart noise h s) = (sfn s + 1) % 2 ^ 32 ∧
    getF (superframeStart noise h s) .bcn BCN_STATUS.ROUND = (sfn s + 1) % 4 ∧ (superframeStart noise h s).time = { s.time with sfStart := s.time.sfStart + superframe, slot := 0 } ∧
    (∀ st, s.pwr.next = some st → (superframeStart noise h s).pwr.state = st ∧ (superframeStart noise h s).pwr.next = none) := by
  rw [superframeStart_eq]
  obtain ⟨h1, h2, h3, -, -, h6⟩ := boundaryReady_effect noise s
  generalize boundaryReady noise s = a at h1 h2 h3 h6
  have w1 : Within 0x2003be35b04800 a (applyWaves a) := applyWaves_within .refl rfl
  have g1 := applyWaves_grid a
  generalize applyWaves a = b at w1 g1
  obtain ⟨k1, k2⟩ := applyEpoch_round b
  have w2 : Within 0x20002020004000 b (applyEpoch b) := applyEpoch_within .refl rfl
  generalize applyEpoch b = c at k1 k2 w2
  have g3 := (boundaryDone_grid h c).trans (showStart_grid _)
  have w3 : Within 0x28ffff3dbffb20 c (showStart (boundaryDone h c)) := by
    unfold boundaryDone rolesTaken settingsTaken
    refine showStart_within (((?_ : Within 0x28ffff3dbffb20 c _)).trans ((boundarySent_within _).weaken rfl)) rfl
    refine roleSwap_within (applyBkey_within (pruneOccs_within (dropStale_within (engBoundary_within ?_ rfl) rfl) rfl) rfl) h rfl
    exact .foldl (fun u p hu => calStart_within hu p rfl) (bqBoundary_within (ncalBoundary_within (takeDwellCfg_within .refl rfl) rfl) rfl)
  generalize showStart (boundaryDone h c) = t at g3 w3
  have hp : t.pwr = a.pwr := ((w3.same .pwr rfl).trans (w2.same .pwr rfl)).trans (w1.same .pwr rfl)
  refine ⟨(g3.sfn.getF.trans k1).trans (g1.sfn.getF.trans h1), (g3.round.getF.trans k2.getF).trans (g1.round.getF.trans h2),
    ((w3.same .time rfl).trans (w2.same .time rfl)).trans ((w1.same .time rfl).trans h3), fun st hst => ?_⟩
  rw [hp]
  exact h6 st hst

/-- At its epoch a change that waits takes effect (R183). -/
theorem superframeStart_epoch {s : State} (noise : List NoiseReading) (h : TruHold) (he : s.bcn.epoch = some ((sfn s + 1) % 2 ^ 32)) :
    (superframeStart noise h s).bcn.epoch = none ∧ getF (superframeStart noise h s) .bcn BCN_RU_MAP_CUR.RUS = getF s .bcn BCN_RU_MAP.RUS := by
  rw [superframeStart_eq]
  obtain ⟨h1, -, -, h4, h5, -⟩ := boundaryReady_effect noise s
  generalize boundaryReady noise s = a at h1 h4 h5
  have g1 := applyWaves_grid a
  generalize applyWaves a = b at g1
  have hb : sfn b = (sfn s + 1) % 2 ^ 32 := g1.sfn.getF.trans h1
  obtain ⟨k1, -, -, k4⟩ := applyEpoch_effect (s := b) (by rw [g1.epoch, h4, he, hb])
  generalize applyEpoch b = c at k1 k4
  have g3 := (boundaryDone_grid h c).trans (showStart_grid _)
  exact ⟨g3.epoch.trans k1, (g3.mapCur.getF.trans k4).trans (g1.map.getF.trans h5)⟩

/-- Listening is counted in stage 0x0E (R85). -/
theorem superframeStart_listened {s : State} (noise : List NoiseReading) (h : TruHold) (hs : stage s = 14) :
    (superframeStart noise h s).boot.listened = s.boot.listened + 1 := by
  rw [superframeStart_eq]
  have w : Within 0x28fffefdbffb22 s (rolesTaken h (settingsTaken (applyEpoch (applyWaves (boundaryReady noise s))))) := by
    unfold rolesTaken settingsTaken boundaryReady
    refine roleSwap_within (applyBkey_within (pruneOccs_within (dropStale_within (engBoundary_within ?_ rfl) rfl) rfl) rfl) h rfl
    refine .foldl (fun u p hu => calStart_within hu p rfl) (bqBoundary_within (ncalBoundary_within (takeDwellCfg_within ?_ rfl) rfl) rfl)
    exact applyEpoch_within (applyWaves_within (showNoise_within (applyPower_within (advance_within (logSuperframe_within .refl rfl) rfl) rfl) _ rfl) rfl) rfl
  unfold boundaryDone
  generalize rolesTaken h (settingsTaken (applyEpoch (applyWaves (boundaryReady noise s)))) = a at w
  have h1 := boundarySent_listened ((w.getF_addr .boot _ rfl).trans hs)
  generalize boundarySent a = b at h1
  have h2 : (showStart b).boot = b.boot := (showStart_within (m := 0x20000020004000) .refl rfl).same .boot rfl
  rw [h2, h1, w.same .boot rfl]

theorem superframeStart_int (noise : List NoiseReading) (h : TruHold) (s : State) : intOf (superframeStart noise h s) .bcn BCN_INT.SF_START = true := by
  rw [superframeStart_eq]
  exact intOf_raise _ _ _ (by decide)

/-- Settles O50: each part of a boundary keeps the number of the superframe, the maps and the declarations but for the one that changes them, and every item that a plan gains is placed in the
superframe planned. -/
theorem superframeGrid : Obligations.SuperframeGrid := by
  unfold Obligations.SuperframeGrid
  refine ⟨fun noise h s hr => ?_, fun noise h s hr => ?_, fun n s => ?_, fun w s hs => ?_, fun w s hr h5 hf => ?_⟩
  · show execSuperframeStart noise h s = _
    unfold execSuperframeStart
    rw [hr]
    rfl
  · have e : exec (.superframeStart noise h) s = .next (superframeStart noise h s) := by
      show execSuperframeStart noise h s = _
      unfold execSuperframeStart
      rw [if_pos hr]
    obtain ⟨h1, h2, h3, h4⟩ := superframeStart_effect noise h s
    exact ⟨_, e, h1, by rw [h3], by rw [h3]; rfl, h2, superframeStart_int noise h s, h4, fun n hn => superframeStart_decl noise h hn, superframeStart_epoch noise h, superframeStart_listened noise h⟩
  · refine Yields.branch (c := (s.time.running && decide (s.time.slot < n.val)) = true) rfl (by rw [Bool.and_eq_true, decide_eq_true_eq]) (fun _ => ?_) fun _ => rfl
    exact ⟨slotStart_time n.val s, (slotStart_within (m := 0x28b8487425ba00) .refl n.val rfl).getF_addr .bcn _ rfl⟩
  · show execPlanFix w s = _
    unfold execPlanFix
    refine congrArg Host.Outcome.next (if_neg fun k => ?_)
    simp only [Bool.and_eq_true, decide_eq_true_eq, Bool.not_eq_true'] at k
    obtain ⟨⟨k1, k2⟩, k3⟩ := k
    rcases hs with hs | hs | hs
    · rw [hs] at k1
      cases k1
    · omega
    · rw [hs] at k3
      cases k3
  · have e : exec (.planFix w) s = .next (planFix w s) := by
      show execPlanFix w s = _
      unfold execPlanFix
      rw [if_pos (by rw [hr, decide_eq_true h5, hf]; rfl)]
    obtain ⟨h1, h2, h3, h4, h6, h7⟩ := planFix_effect w s
    refine ⟨_, e, by rw [h1], ?_, h3.sfn, h4, h6, h3.items, h7⟩
    unfold planFixed planStart
    rw [h1, h2]
    exact decide_eq_true rfl

end Sys2Proof.Machine
end

section
/-!
PROOFS. The images of the module and of endpoints (R87, R88, R90, R436, R437, R451), and TEST (R87).
-/
namespace Sys2Proof.Machine

/-! The blocks of the store that are trimmed. -/

/-- A block outside the area trimmed reads as before, one inside it reads as zeros. -/
theorem trimBlocks_block (r lba n k : Nat) (s : State) : Map.get (fun _ => []) (trimBlocks r lba n s).sto.blocks k =
    if r * 2 ^ 28 + lba ≤ k ∧ k < r * 2 ^ 28 + lba + n then [] else Map.get (fun _ => []) s.sto.blocks k := by
  refine (Map.get_filterKey (fun x => !(decide (r * 2 ^ 28 + lba ≤ x) && decide (x < r * 2 ^ 28 + lba + n))) s.sto.blocks k).trans ?_
  by_cases h : r * 2 ^ 28 + lba ≤ k ∧ k < r * 2 ^ 28 + lba + n
  · rw [if_pos h, decide_eq_true h.1, decide_eq_true h.2]
    rfl
  · rw [if_neg h, if_pos]
    rw [← Bool.decide_and, decide_eq_false h]
    rfl

theorem readBlock_trimBlocks (r lba n q l : Nat) (s : State) (h : ¬ (r * 2 ^ 28 + lba ≤ q * 2 ^ 28 + l ∧ q * 2 ^ 28 + l < r * 2 ^ 28 + lba + n)) :
    readBlock (trimBlocks r lba n s) q l = readBlock s q l := by
  unfold readBlock
  rw [trimBlocks_block, if_neg h]
  rfl

theorem readBlock_trimmed (r lba n : Nat) (s : State) (hr : r ≠ REGION.LOG) (hn : 0 < n) : readBlock (trimBlocks r lba n s) r lba = List.replicate 4096 0 := by
  unfold readBlock
  rw [if_neg hr, trimBlocks_block, if_pos ⟨Nat.le_refl _, by omega⟩]
  rfl

theorem readBlock_congr {s t : State} (hl : t.log = s.log) (hs : t.sto = s.sto) (r l : Nat) : readBlock t r l = readBlock s r l := by
  unfold readBlock logAt
  rw [hl, hs]

/-- The header of an image is the front of its first block. -/
theorem imageHeader_eq (s : State) (k : Nat) : imageHeader s k = (readBlock s (imagePlace k).1 (imagePlace k).2).take 128 := by
  unfold imageHeader imageBytes slice
  simp

theorem imageEmpty_congr {s t : State} (hl : t.log = s.log) (hs : t.sto = s.sto) (k : Nat) : imageEmpty t k = imageEmpty s k := by
  unfold imageEmpty
  rw [imageHeader_eq, imageHeader_eq, readBlock_congr hl hs]

theorem imagePlace_region (k : Nat) : (imagePlace k).1 ≠ REGION.LOG := by
  unfold imagePlace
  split
  · exact (by decide : (0 : Nat) ≠ REGION.LOG)
  · exact (by decide : REGION.EPFW ≠ REGION.LOG)

theorem imageBlocks_pos (k : Nat) : 0 < imageBlocks k := by
  unfold imageBlocks
  split <;> decide

theorem imageEmpty_clearImage (k : Nat) (s : State) : imageEmpty (clearImage k s) k = true := by
  unfold imageEmpty
  rw [imageHeader_eq]
  unfold clearImage
  rw [readBlock_trimmed _ _ _ s (imagePlace_region k) (imageBlocks_pos k), List.take_replicate]
  exact List.all_eq_true.mpr fun b hb => decide_eq_true (List.mem_replicate.mp hb).2

theorem clearImage_within' (k : Nat) (s : State) : Within 0x400000000000 s (clearImage k s) := clearImage_within .refl k rfl

/-! The states of the slots. -/

theorem slotsSplit : ∀ i j : Fin 4, j ≠ i → fieldsSplit BOOT_IMG.STATE BOOT_IMG.STATE i.val j.val = true := by decide

theorem slotState_setSlotState_self {v : Nat} (hv : v < 16) (i : Nat) (s : State) : slotState (setSlotState i v s) i = v :=
  (getI_setI_self s .boot BOOT_IMG.STATE i v (by decide)).trans (Nat.mod_eq_of_lt hv)

theorem slotState_setSlotState_other {i j : Nat} (hi : i < 4) (hj : j < 4) (h : j ≠ i) (v : Nat) (s : State) : slotState (setSlotState i v s) j = slotState s j :=
  getI_setI_split s .boot v (by decide) (slotsSplit ⟨i, hi⟩ ⟨j, hj⟩ fun e => h (congrArg Fin.val e))

theorem slotState_congr {s t : State} (h : t.regs = s.regs) (i : Nat) : slotState t i = slotState s i := getI_congr (by rw [reg, reg, h])

/-! LOAD_SLOT, EPFW_IMPORT, EPFW_DELETE and VERIFY_SLOT. -/

theorem runLoadSlot_effect {o : Outstanding} {s u : State} (hu : JustIssued .mgt o s u) :
    if 3 < o.a0.toNat ∨ argImageOk o 8193 = false then Completed (runLoadSlot o u) .mgt CODE.BAD_ARG ∧ (runLoadSlot o u).sto = s.sto
    else if slotRuns s o.a0.toNat = true ∨ slotState s o.a0.toNat = SLOT.TRIAL then Completed (runLoadSlot o u) .mgt CODE.REFUSED ∧ (runLoadSlot o u).sto = s.sto
    else Issued (runLoadSlot o u) .mgt o ∧ slotState (runLoadSlot o u) o.a0.toNat = SLOT.EMPTY ∧ imageEmpty (runLoadSlot o u) o.a0.toNat = true ∧
      ∀ j : Fin 4, j.val ≠ o.a0.toNat → slotState (runLoadSlot o u) j.val = slotState s j.val := by
  have hsto : u.sto = s.sto := hu.within.same .sto rfl
  have hboot : u.boot = s.boot := hu.within.same .boot rfl
  have hs : ∀ j, slotState u j = slotState s j := fun j => FieldKept.within (q := .boot) (g := BOOT_IMG.STATE) (j := j) hu.within rfl
  have hr : slotRuns u o.a0.toNat = slotRuns s o.a0.toNat := by
    unfold slotRuns
    rw [hboot]
  unfold runLoadSlot
  extract_lets i
  by_cases h1 : 3 < i ∨ argImageOk o 8193 = false
  · rw [if_pos h1, if_pos h1]
    exact ⟨hu.done (by decide) 0, (sto_complete _ _ _ _).trans hsto⟩
  rw [if_neg h1, if_neg h1, hr, hs]
  by_cases h2 : slotRuns s i = true ∨ slotState s i = SLOT.TRIAL
  · rw [if_pos h2, if_pos h2]
    exact ⟨hu.done (by decide) 0, (sto_complete _ _ _ _).trans hsto⟩
  rw [if_neg h2, if_neg h2]
  have hi : i < 4 := by omega
  have hc := clearImage_within' i u
  have he := imageEmpty_clearImage i u
  generalize clearImage i u = v at hc he
  have hk : CmdKept .mgt u (setSlotState i SLOT.EMPTY v) := (CmdKept.within hc rfl rfl).trans (.setI v _ _ _ (.inl (by decide)))
  refine ⟨hk.issued hu.issued, slotState_setSlotState_self (by decide) i v, ?_, fun j hj => ?_⟩
  · exact (imageEmpty_congr (log_setI _ _ _ _ _) (sto_setI _ _ _ _ _) i).trans he
  · have hv : slotState v j.val = slotState u j.val := FieldKept.within (q := .boot) (g := BOOT_IMG.STATE) (j := j.val) hc rfl
    exact (slotState_setSlotState_other hi j.isLt hj SLOT.EMPTY v).trans (hv.trans (hs j.val))

theorem inCampaign_issued {o : Outstanding} {s u : State} (hu : JustIssued .mgt o s u) (i : Nat) : inCampaign u i = inCampaign s i := by
  have ha : FieldKept .mgt MGT_CAMP.ACTIVE 0 s u := hu.field (by decide) (by decide)
  have hi : FieldKept .mgt MGT_CAMP.IMAGE 0 s u := hu.field (by decide) (by decide)
  unfold inCampaign
  rw [ha.isSet, hi.getF]

theorem runEpfwImport_effect {o : Outstanding} {s u : State} (hu : JustIssued .mgt o s u) :
    if 255 < o.a0.toNat ∨ argImageOk o 65536 = false then Completed (runEpfwImport o u) .mgt CODE.BAD_ARG ∧ (runEpfwImport o u).sto = s.sto
    else if inCampaign s o.a0.toNat then Completed (runEpfwImport o u) .mgt CODE.REFUSED ∧ (runEpfwImport o u).sto = s.sto
    else Issued (runEpfwImport o u) .mgt o ∧ imageEmpty (runEpfwImport o u) (4 + o.a0.toNat) = true := by
  have hsto : u.sto = s.sto := hu.within.same .sto rfl
  unfold runEpfwImport
  extract_lets i
  by_cases h1 : 255 < i ∨ argImageOk o 65536 = false
  · rw [if_pos h1, if_pos h1]
    exact ⟨hu.done (by decide) 0, (sto_complete _ _ _ _).trans hsto⟩
  rw [if_neg h1, if_neg h1, inCampaign_issued hu]
  by_cases h2 : inCampaign s i = true
  · rw [if_pos h2, if_pos h2]
    exact ⟨hu.done (by decide) 0, (sto_complete _ _ _ _).trans hsto⟩
  rw [if_neg h2, if_neg h2]
  exact ⟨(CmdKept.within (clearImage_within' (4 + i) u) rfl rfl).issued hu.issued, imageEmpty_clearImage (4 + i) u⟩

/-- Outside the area of an image of an endpoint nothing is trimmed. -/
theorem readBlock_clearImage (i r l : Nat) (s : State) (h : r * 2 ^ 28 + l < REGION.EPFW * 2 ^ 28 + i * 65536 ∨ REGION.EPFW * 2 ^ 28 + (i + 1) * 65536 ≤ r * 2 ^ 28 + l) :
    readBlock (clearImage (4 + i) s) r l = readBlock s r l := by
  have hp : imagePlace (4 + i) = (REGION.EPFW, i * 65536) := by
    unfold imagePlace
    rw [if_neg (by omega), Nat.add_sub_cancel_left]
  have hb : imageBlocks (4 + i) = 65536 := by
    unfold imageBlocks
    rw [if_neg (by omega)]
  unfold clearImage
  rw [hp, hb]
  refine readBlock_trimBlocks _ _ _ _ _ _ ?_
  omega

theorem runEpfwDelete_effect {o : Outstanding} {s u : State} (hu : JustIssued .mgt o s u) :
    if 255 < o.a0.toNat then Completed (runEpfwDelete o u) .mgt CODE.BAD_ARG ∧ (runEpfwDelete o u).sto = s.sto
    else if inCampaign s o.a0.toNat then Completed (runEpfwDelete o u) .mgt CODE.REFUSED ∧ (runEpfwDelete o u).sto = s.sto
    else Completed (runEpfwDelete o u) .mgt CODE.OK ∧ imageEmpty (runEpfwDelete o u) (4 + o.a0.toNat) = true ∧
      ∀ r l : Nat, r * 2 ^ 28 + l < REGION.EPFW * 2 ^ 28 + o.a0.toNat * 65536 ∨ REGION.EPFW * 2 ^ 28 + (o.a0.toNat + 1) * 65536 ≤ r * 2 ^ 28 + l →
        readBlock (runEpfwDelete o u) r l = readBlock s r l := by
  have hsto : u.sto = s.sto := hu.within.same .sto rfl
  have hlog : u.log = s.log := hu.within.same .log rfl
  unfold runEpfwDelete
  extract_lets i
  by_cases h1 : 255 < i
  · rw [if_pos h1, if_pos h1]
    exact ⟨hu.done (by decide) 0, (sto_complete _ _ _ _).trans hsto⟩
  rw [if_neg h1, if_neg h1, inCampaign_issued hu]
  by_cases h2 : inCampaign s i = true
  · rw [if_pos h2, if_pos h2]
    exact ⟨hu.done (by decide) 0, (sto_complete _ _ _ _).trans hsto⟩
  rw [if_neg h2, if_neg h2]
  have hc := clearImage_within' (4 + i) u
  have he := imageEmpty_clearImage (4 + i) u
  have hb := readBlock_clearImage i (s := u)
  generalize clearImage (4 + i) u = v at hc he hb
  refine ⟨hu.code (.within hc rfl rfl) (by decide) 0, (imageEmpty_congr (log_complete _ _ _ _) (sto_complete _ _ _ _) _).trans he, fun r l h => ?_⟩
  exact ((readBlock_congr (log_complete _ _ _ _) (sto_complete _ _ _ _) r l).trans (hb r l h)).trans (readBlock_congr hlog hsto r l)

theorem runVerifySlot_effect {o : Outstanding} {s u : State} (hu : JustIssued .boot o s u) :
    (runVerifySlot o u).sto = s.sto ∧ if 3 < o.a0.toNat then Completed (runVerifySlot o u) .boot CODE.BAD_ARG else Issued (runVerifySlot o u) .boot o := by
  have hsto : u.sto = s.sto := hu.within.same .sto rfl
  unfold runVerifySlot
  by_cases h : 3 < o.a0.toNat
  · rw [if_pos h, if_pos h]
    exact ⟨(sto_complete _ _ _ _).trans hsto, hu.done (by decide) 0⟩
  · rw [if_neg h, if_neg h]
    exact ⟨hsto, hu.issued⟩

/-! CONFIRM (R90). -/

/-- The least security number of the images of a slot. -/
def leastSvn (i : Nat) : Field := if i < 2 then BOOT_MIN_SVN.MOD else BOOT_MIN_SVN.UCODE

theorem leastSvn_cases (i : Nat) : leastSvn i = BOOT_MIN_SVN.MOD ∨ leastSvn i = BOOT_MIN_SVN.UCODE := by
  unfold leastSvn
  split
  · exact .inl rfl
  · exact .inr rfl

/-- A fact of the fields of the register of the least numbers. -/
theorem leastSvn_fact {P : Field → Prop} (h : P BOOT_MIN_SVN.MOD) (k : P BOOT_MIN_SVN.UCODE) (i : Nat) : P (leastSvn i) := by
  rcases leastSvn_cases i with e | e <;> rw [e] <;> assumption

theorem confirmSlot_eq (i : Nat) (s : State) : confirmSlot i s = setF .boot (leastSvn i) (max (getF s .boot (leastSvn i)) (getI s .boot BOOT_IMG.SVN i)) (setSlotState i SLOT.VALID s) := rfl

theorem leastSvn_ordered (i : Nat) : (leastSvn i).ordered = true := leastSvn_fact (P := fun f => f.ordered = true) (by decide) (by decide) i

theorem confirmSlot_state {i j : Nat} (hi : i < 4) (hj : j < 4) (s : State) : slotState (confirmSlot i s) j = if j = i then SLOT.VALID else slotState s j := by
  have split : ∀ k : Fin 4, fieldsSplit (leastSvn i) BOOT_IMG.STATE 0 k.val = true := leastSvn_fact (P := fun f => ∀ k : Fin 4, fieldsSplit f BOOT_IMG.STATE 0 k.val = true) (by decide) (by decide) i
  rw [confirmSlot_eq]
  have h1 : slotState (setF .boot (leastSvn i) (max (getF s .boot (leastSvn i)) (getI s .boot BOOT_IMG.SVN i)) (setSlotState i SLOT.VALID s)) j = slotState (setSlotState i SLOT.VALID s) j :=
    getI_setI_split _ .boot _ (leastSvn_ordered i) (split ⟨j, hj⟩)
  rw [h1]
  by_cases e : j = i
  · rw [if_pos e, e]
    exact slotState_setSlotState_self (by decide) i s
  · rw [if_neg e]
    exact slotState_setSlotState_other hi hj e _ s

/-- The security numbers of the images stand. -/
theorem confirmSlot_svn {i j : Nat} (hi : i < 4) (hj : j < 4) (s : State) : getI (confirmSlot i s) .boot BOOT_IMG.SVN j = getI s .boot BOOT_IMG.SVN j := by
  have split : ∀ k : Fin 4, fieldsSplit (leastSvn i) BOOT_IMG.SVN 0 k.val = true := leastSvn_fact (P := fun f => ∀ k : Fin 4, fieldsSplit f BOOT_IMG.SVN 0 k.val = true) (by decide) (by decide) i
  have apart : ∀ k l : Fin 4, fieldsSplit BOOT_IMG.STATE BOOT_IMG.SVN k.val l.val = true := by decide
  rw [confirmSlot_eq]
  exact (getI_setI_split _ .boot _ (leastSvn_ordered i) (split ⟨j, hj⟩)).trans (getI_setI_split s .boot _ (by decide) (apart ⟨i, hi⟩ ⟨j, hj⟩))

theorem setSlotState_leastSvn {i : Nat} (hi : i < 4) (v k : Nat) (s : State) : getF (setSlotState i v s) .boot (leastSvn k) = getF s .boot (leastSvn k) := by
  have split : ∀ l : Fin 4, fieldsSplit BOOT_IMG.STATE (leastSvn k) l.val 0 = true := leastSvn_fact (P := fun f => ∀ l : Fin 4, fieldsSplit BOOT_IMG.STATE f l.val 0 = true) (by decide) (by decide) k
  exact getI_setI_split s .boot v (by decide) (split ⟨i, hi⟩)

theorem svn_lt (s : State) (i : Nat) : getI s .boot BOOT_IMG.SVN i < 2 ^ 12 := getBits_lt _ _ _

theorem leastSvn_lt (s : State) (i : Nat) : getF s .boot (leastSvn i) < 2 ^ 12 := leastSvn_fact (P := fun f => getF s .boot f < 2 ^ 12) (getBits_lt _ _ _) (getBits_lt _ _ _) i

/-- The least number of the kind of image confirmed is at least its own, and the other stands. -/
theorem confirmSlot_leastSvn {i : Nat} (hi : i < 4) (s : State) : getI s .boot BOOT_IMG.SVN i ≤ getF (confirmSlot i s) .boot (leastSvn i) ∧
    ∀ k, getF s .boot (leastSvn k) ≤ getF (confirmSlot i s) .boot (leastSvn k) := by
  have hw : (leastSvn i).width = 12 := leastSvn_fact (P := fun f => f.width = 12) (by decide) (by decide) i
  have hm : max (getF s .boot (leastSvn i)) (getI s .boot BOOT_IMG.SVN i) < 2 ^ 12 := Nat.max_lt.mpr ⟨leastSvn_lt s i, svn_lt s i⟩
  have hself : getF (confirmSlot i s) .boot (leastSvn i) = max (getF s .boot (leastSvn i)) (getI s .boot BOOT_IMG.SVN i) := by
    rw [confirmSlot_eq]
    refine (getI_setI_self _ _ _ _ _ (leastSvn_ordered i)).trans ?_
    rw [hw, Nat.mod_eq_of_lt hm]
  refine ⟨hself ▸ Nat.le_max_right _ _, fun k => ?_⟩
  by_cases e : leastSvn k = leastSvn i
  · rw [e, hself]
    exact Nat.le_max_left _ _
  · have split : fieldsSplit (leastSvn i) (leastSvn k) 0 0 = true := by
      rcases leastSvn_cases i with a | a <;> rcases leastSvn_cases k with b | b
      · exact absurd (b.trans a.symm) e
      · rw [a, b]
        decide
      · rw [a, b]
        decide
      · exact absurd (b.trans a.symm) e
    rw [confirmSlot_eq]
    have h1 : getF (setF .boot (leastSvn i) (max (getF s .boot (leastSvn i)) (getI s .boot BOOT_IMG.SVN i)) (setSlotState i SLOT.VALID s)) .boot (leastSvn k) =
        getF (setSlotState i SLOT.VALID s) .boot (leastSvn k) := getI_setI_split _ .boot _ (leastSvn_ordered i) split
    rw [h1, setSlotState_leastSvn hi]

/-- The slots of a list are confirmed one after another. -/
theorem confirmSlots_effect : ∀ (l : List Nat), (∀ i ∈ l, i < 4) → ∀ s : State,
    (∀ j, j < 4 → slotState (l.foldl (fun t i => confirmSlot i t) s) j = if j ∈ l then SLOT.VALID else slotState s j) ∧
    (∀ i ∈ l, getI s .boot BOOT_IMG.SVN i ≤ getF (l.foldl (fun t i => confirmSlot i t) s) .boot (leastSvn i)) ∧
    ∀ k, getF s .boot (leastSvn k) ≤ getF (l.foldl (fun t i => confirmSlot i t) s) .boot (leastSvn k)
  | [], _, s => ⟨fun j _ => (if_neg List.not_mem_nil).symm, fun i h => absurd h List.not_mem_nil, fun k => Nat.le_refl _⟩
  | x :: l, hl, s => by
    have hx : x < 4 := hl x List.mem_cons_self
    obtain ⟨h1, h2, h3⟩ := confirmSlots_effect l (fun i hi => hl i (List.mem_cons_of_mem x hi)) (confirmSlot x s)
    obtain ⟨k1, k2⟩ := confirmSlot_leastSvn hx s
    rw [List.foldl_cons]
    refine ⟨fun j hj => ?_, fun i hi => ?_, fun k => Nat.le_trans (k2 k) (h3 k)⟩
    · rw [h1 j hj, confirmSlot_state hx hj]
      by_cases hm : j ∈ l
      · rw [if_pos hm, if_pos (List.mem_cons_of_mem x hm)]
      · rw [if_neg hm]
        exact if_congr (by simp [hm]) rfl rfl
    · rcases List.mem_cons.mp hi with rfl | hm
      · exact Nat.le_trans k1 (h3 i)
      · have hi4 := hl i hi
        rw [← confirmSlot_svn hx hi4 s]
        exact h2 i hm

theorem confirmSlot_cmd {i : Nat} (hi : i < 4) (s : State) : CmdKept .boot s (confirmSlot i s) := by
  have h1 : ∀ k : Fin 4, BOOT_IMG.STATE.offAt k.val % 0x1000 ≠ offCmdStat ∧ BOOT_IMG.STATE.offAt k.val % 0x1000 ≠ offIntStat := by decide
  have h2 : (leastSvn i).off % 0x1000 ≠ offCmdStat ∧ (leastSvn i).off % 0x1000 ≠ offIntStat :=
    leastSvn_fact (P := fun f => f.off % 0x1000 ≠ offCmdStat ∧ f.off % 0x1000 ≠ offIntStat) (by decide) (by decide) i
  rw [confirmSlot_eq]
  exact (CmdKept.setI s _ _ _ (.inr (h1 ⟨i, hi⟩))).trans (.setF _ _ _ (.inr h2))

theorem confirmSlots_cmd : ∀ (l : List Nat), (∀ i ∈ l, i < 4) → ∀ s : State, CmdKept .boot s (l.foldl (fun t i => confirmSlot i t) s)
  | [], _, s => .refl .boot s
  | x :: l, hl, s => (confirmSlot_cmd (hl x List.mem_cons_self) s).trans (confirmSlots_cmd l (fun i hi => hl i (List.mem_cons_of_mem x hi)) _)

theorem mem_trialSlots (s : State) (i : Nat) : i ∈ trialSlots s ↔ i < 4 ∧ slotState s i = SLOT.TRIAL := by
  unfold trialSlots
  rw [List.mem_filter, decide_eq_true_eq]
  exact and_congr_left fun _ => by
    simp only [List.mem_cons, List.not_mem_nil, or_false]
    omega

theorem trialSlots_eq_nil {s : State} (h : ∀ i : Fin 4, slotState s i.val ≠ SLOT.TRIAL) : trialSlots s = [] :=
  List.eq_nil_iff_forall_not_mem.mpr fun i hi => by
    obtain ⟨h4, ht⟩ := (mem_trialSlots s i).mp hi
    exact h ⟨i, h4⟩ ht

theorem trialSlots_congr {s t : State} (h : ∀ i : Fin 4, slotState t i.val = slotState s i.val) : trialSlots t = trialSlots s := by
  refine List.filter_congr fun i hi => ?_
  have h4 : i < 4 := by
    simp only [List.mem_cons, List.not_mem_nil, or_false] at hi
    omega
  rw [h ⟨i, h4⟩]

/-- A field of the images, in the range that a command on the page leaves. -/
theorem image_past : ∀ i : Fin 4, (decide (0x100 ≤ BOOT_IMG.STATE.offAt i.val) && decide (BOOT_IMG.STATE.offAt i.val < 0x1000)) = true := by decide

theorem slotState_complete (i : Fin 4) (code d : Nat) (s : State) : slotState (complete .boot code d s) i.val = slotState s i.val :=
  getI_complete s .boot .boot BOOT_IMG.STATE i.val code d (by decide) (by rw [image_past i]; rfl)

theorem leastSvn_complete (i code d : Nat) (s : State) : getF (complete .boot code d s) .boot (leastSvn i) = getF s .boot (leastSvn i) :=
  leastSvn_fact (P := fun f => getF (complete .boot code d s) .boot f = getF s .boot f) (getI_complete s .boot .boot _ 0 code d (by decide) (by decide))
    (getI_complete s .boot .boot _ 0 code d (by decide) (by decide)) i

theorem runConfirm_effect {o : Outstanding} {s u : State} (hu : JustIssued .boot o s u) :
    if trialSlots s = [] then Completed (runConfirm o u) .boot CODE.REFUSED else Completed (runConfirm o u) .boot CODE.OK ∧ trialSlots (runConfirm o u) = [] ∧
      (∀ i : Fin 4, slotState (runConfirm o u) i.val = if slotState s i.val = SLOT.TRIAL then SLOT.VALID else slotState s i.val) ∧
      ∀ i ∈ trialSlots s, getI s .boot BOOT_IMG.SVN i ≤ getF (runConfirm o u) .boot (if i < 2 then BOOT_MIN_SVN.MOD else BOOT_MIN_SVN.UCODE) := by
  have hs : ∀ j : Fin 4, slotState u j.val = slotState s j.val := fun j => hu.field (by decide) (by rw [image_past j]; rfl)
  have hv : ∀ j : Fin 4, getI u .boot BOOT_IMG.SVN j.val = getI s .boot BOOT_IMG.SVN j.val := fun j => hu.field (by decide) (by rw [show BOOT_IMG.SVN.offAt j.val = BOOT_IMG.STATE.offAt j.val from rfl, image_past j]; rfl)
  unfold runConfirm
  rw [trialSlots_congr hs]
  by_cases h : trialSlots s = []
  · rw [if_pos h, if_pos h]
    exact hu.done (by decide) 0
  rw [if_neg h, if_neg h]
  have hl : ∀ i ∈ trialSlots s, i < 4 := fun i hi => ((mem_trialSlots s i).mp hi).1
  generalize hb : ({ u with boot := { u.boot with trialFaults := 0 } } : State) = b
  have hbr : b.regs = u.regs := by rw [← hb]
  have hbc : CmdKept .boot u b := .upd hbr (by rw [← hb])
  obtain ⟨h1, h2, -⟩ := confirmSlots_effect (trialSlots s) hl b
  have hc := hbc.trans (confirmSlots_cmd (trialSlots s) hl b)
  generalize (trialSlots s).foldl (fun t i => confirmSlot i t) b = v at h1 h2 hc
  have hstate : ∀ i : Fin 4, slotState (done .boot CODE.OK v) i.val = if slotState s i.val = SLOT.TRIAL then SLOT.VALID else slotState s i.val := fun i => by
    rw [done, slotState_complete, h1 i.val i.isLt, slotState_congr hbr, hs i]
    exact if_congr ((mem_trialSlots s i.val).trans (and_iff_right i.isLt)) rfl rfl
  refine ⟨hu.code hc (by decide) 0, trialSlots_eq_nil fun i => ?_, hstate, fun i hi => ?_⟩
  · rw [hstate i]
    split
    · decide
    · assumption
  · have k := h2 i hi
    have e : getI b .boot BOOT_IMG.SVN i = getI u .boot BOOT_IMG.SVN i := getI_congr (by rw [reg, reg, hbr])
    rw [e, hv ⟨i, hl i hi⟩] at k
    exact k.trans_eq (leastSvn_complete i _ _ v).symm

/-! ENTER_TEST (R87). -/

theorem runEnterTest_effect {o : Outstanding} {s u : State} (hu : JustIssued .boot o s u) : killCauses (runEnterTest o u) = killCauses s ∧
    if mode s = MODE.RECOVERY then Completed (runEnterTest o u) .boot CODE.OK ∧ mode (runEnterTest o u) = MODE.TEST
    else Completed (runEnterTest o u) .boot CODE.REFUSED ∧ mode (runEnterTest o u) = mode s := by
  have hm : mode u = mode s := hu.field (q := .boot) (f := BOOT_STATUS.MODE) (j := 0) (by decide) (by decide)
  have hk : killCauses u = killCauses s := hu.field (q := .saf) (f := SAF_KILL.CAUSE) (j := 0) (by decide) (by decide)
  have kd : ∀ code t, killCauses (done .boot code t) = killCauses t := fun code t => getI_complete t .boot .saf SAF_KILL.CAUSE 0 code 0 (by decide) (by decide)
  have md : ∀ code t, mode (done .boot code t) = mode t := fun code t => getI_complete t .boot .boot BOOT_STATUS.MODE 0 code 0 (by decide) (by decide)
  unfold runEnterTest
  rw [hm]
  by_cases h : mode s = MODE.RECOVERY
  · rw [if_pos h, if_pos h, kd, md]
    have m1 : mode (setF .boot BOOT_STATUS.MODE 4 u) = MODE.TEST := getF_setF_self _ _ _ _ (by decide)
    have k1 : killCauses (setF .boot BOOT_STATUS.MODE 4 u) = killCauses u := getI_setI_page u _ _ 0 0 _ (by decide)
    have c1 : CmdKept .boot u (setF .boot BOOT_STATUS.MODE 4 u) := .setF u _ _ (.inr (by decide))
    generalize setF .boot BOOT_STATUS.MODE 4 u = v at m1 k1 c1
    have m2 : mode (settleOwner v) = mode v := getI_setI_page v _ _ 0 0 _ (by decide)
    have k2 : killCauses (settleOwner v) = killCauses v := getI_setI_page v _ _ 0 0 _ (by decide)
    have c2 : CmdKept .boot v (settleOwner v) := .setB v _ _ (.inl (by decide))
    exact ⟨(k2.trans k1).trans hk, hu.code (c1.trans c2) (by decide) 0, m2.trans m1⟩
  · rw [if_neg h, if_neg h, kd, md]
    exact ⟨hk, hu.done (by decide) 0, hm⟩

/-- Settles O48: each command by the checks of its arguments, and CONFIRM by the list of the slots in trial. -/
theorem imageCommands : Obligations.ImageCommands := by
  unfold Obligations.ImageCommands
  exact ⟨fun src s ht => Yields.issue rfl ht (fun u hu => runLoadSlot_effect hu), fun src s ht => Yields.issue rfl ht (fun u hu => runEpfwImport_effect hu),
    fun src s ht => Yields.issue rfl ht (fun u hu => runEpfwDelete_effect hu), fun src s ht => Yields.issue rfl ht (fun u hu => runVerifySlot_effect hu),
    fun src s ht => Yields.issue rfl ht (fun u hu => runConfirm_effect hu), fun src s ht => Yields.issue rfl ht (fun u hu => runEnterTest_effect hu)⟩

end Sys2Proof.Machine
end

section
/-!
PROOFS. The start-up sequence (R46, R84, R85, R87, R91): the stages, RECOVERY, the keys and the images that start.
-/
namespace Sys2Proof.Machine

/-! STAGE and MODE. -/

/-- A field of BOOT_STATUS beside STAGE. -/
theorem setStage_field {g : Field} (h : fieldsSplit BOOT_STATUS.STAGE g 0 0 = true) (n : Nat) (s : State) : FieldKept .boot g 0 s (setStage n s) :=
  (FieldKept.refl s).setF _ _ _ (by decide) (.inr h)

theorem mode_setStage (n : Nat) (s : State) : mode (setStage n s) = mode s := setStage_field (g := BOOT_STATUS.MODE) (by decide) n s

theorem setStage_within' (n : Nat) (s : State) : Within 0x4 s (setStage n s) := setF_within .refl .boot _ _ rfl

theorem mode_setMode {m : Nat} (hm : m < 8) (s : State) : mode (setMode m s) = m := by
  have h : mode (setF .boot BOOT_STATUS.MODE m s) = m := (getF_setF_self _ _ _ _ (by decide)).trans (Nat.mod_eq_of_lt hm)
  exact (FieldKept.setB (q := .boot) (j := 0) (.refl _) (.ser 0) _ _ (by decide) (.inl (by decide))).getF.trans h

theorem setMode_field {g : Field} (h : fieldsSplit BOOT_STATUS.MODE g 0 0 = true) (m : Nat) (s : State) : FieldKept .boot g 0 s (setMode m s) :=
  ((FieldKept.refl s).setF _ _ _ (by decide) (.inr h)).setB (.ser 0) _ _ (by decide) (.inl (by decide))

/-! Pages made ready. -/

theorem setReady_field (p q : Page) (v : Nat) {g : Field} {j : Nat} (h : decide (g.offAt j % 0x1000 ≠ offStatus) = true) (s : State) : FieldKept q g j s (setReady p v s) := by
  refine getI_congr (reg_setReg_other _ _ fun e => ?_)
  by_cases hq : q = p
  · subst hq
    exact of_decide_eq_true h (addr_split e)
  · exact addr_kind hq e

theorem makeReady_field (l : List Page) (q : Page) {g : Field} {j : Nat} (h : decide (g.offAt j % 0x1000 ≠ offStatus) = true) (s : State) : FieldKept q g j s (makeReady l s) :=
  FieldKept.foldl (fun u p => setReady_field p q 1 h u) l (.refl s)

theorem makeReady_int (l : List Page) (p : Page) (n : Nat) (s : State) : intOf (makeReady l s) p n = intOf s p n := by
  refine foldl_keeps (g := fun u => intOf u p n) (fun u q => intOf_eq (reg_setReg_other _ _ fun e => ?_) n) l s
  by_cases hq : p = q
  · subst hq
    exact absurd (addr_split e) (by decide)
  · exact addr_kind hq e

/-- The log of a start changes nothing that it records. -/
theorem logStart_within' (s : State) : Within 0x20000128000020 s (logStart s) := logStart_within .refl rfl

/-! RECOVERY (R89). -/

/-- The causes of the kill in RECOVERY. -/
theorem recovery_causes (k : Nat) : (((k ||| 2 ^ KILL.MODE) &&& (2047 - 2 ^ KILL.RESET)).testBit KILL.MODE = true) ∧
    (((k ||| 2 ^ KILL.MODE) &&& (2047 - 2 ^ KILL.RESET)).testBit KILL.RESET = false) := by
  rw [Nat.testBit_and, Nat.testBit_and, Nat.testBit_or, Nat.testBit_two_pow_self, Bool.or_true, Bool.true_and, show Nat.testBit (2047 - 2 ^ KILL.RESET) KILL.RESET = false from rfl, Bool.and_false]
  exact ⟨rfl, rfl⟩

/-- The failure that a start in RECOVERY shows. -/
def failShown (fail : Nat) (s : State) : State := if fail = 0 then s else setF .boot BOOT_STATUS.LAST_FAIL fail s

theorem enterRecovery_eq (fail : Nat) (s : State) : enterRecovery fail s =
    logStart (makeReady recoveryPages (endCause KILL.RESET (kill KILL.MODE none (setMode MODE.RECOVERY (failShown fail s))))) := rfl

/-- BOOT_STATUS stands while the kill of RECOVERY is set up. -/
theorem enterRecovery_boot {g : Field} (h : decide (g.offAt 0 % 0x1000 ≠ offStatus) = true) (fail : Nat) (s : State) :
    FieldKept .boot g 0 (setMode MODE.RECOVERY (failShown fail s)) (enterRecovery fail s) := by
  rw [enterRecovery_eq]
  have h1 : FieldKept .boot g 0 (setMode MODE.RECOVERY (failShown fail s)) (endCause KILL.RESET (kill KILL.MODE none (setMode MODE.RECOVERY (failShown fail s)))) :=
    .within (q := .boot) (endCause_within (m := 0x2003a021800008) (kill_within .refl KILL.MODE none rfl) KILL.RESET rfl) rfl
  exact h1.trans ((makeReady_field _ _ h _).trans (.within (q := .boot) (logStart_within' _) rfl))

theorem enterRecovery_effect (fail : Nat) (s : State) : let t := enterRecovery fail s
    mode t = MODE.RECOVERY ∧ (killCauses t).testBit KILL.MODE = true ∧ (killCauses t).testBit KILL.RESET = false := by
  refine ⟨(enterRecovery_boot (g := BOOT_STATUS.MODE) (by decide) fail s).getF.trans (mode_setMode (by decide) _), ?_⟩
  have hc : ∀ u, killCauses (logStart (makeReady recoveryPages (endCause KILL.RESET (kill KILL.MODE none u)))) = (killCauses u ||| 2 ^ KILL.MODE) &&& (2047 - 2 ^ KILL.RESET) := by
    intro u
    have h1 : killCauses (endCause KILL.RESET (kill KILL.MODE none u)) = (killCauses u ||| 2 ^ KILL.MODE) &&& (2047 - 2 ^ KILL.RESET) := by
      unfold endCause
      rw [killCauses_endCauses (by decide), (kill_effect (cause := KILL.MODE) (by decide) none u).1]
    exact ((makeReady_field recoveryPages .saf (g := SAF_KILL.CAUSE) (j := 0) (by decide) _).trans (.within (q := .saf) (logStart_within' _) rfl)).getF.trans h1
  rw [enterRecovery_eq, hc]
  exact recovery_causes _

theorem enterRecovery_fail {fail : Nat} (h0 : fail ≠ 0) (hf : fail < 16) (s : State) : getF (enterRecovery fail s) .boot BOOT_STATUS.LAST_FAIL = fail := by
  refine (enterRecovery_boot (g := BOOT_STATUS.LAST_FAIL) (by decide) fail s).getF.trans ((setMode_field (g := BOOT_STATUS.LAST_FAIL) (by decide) _ _).getF.trans ?_)
  unfold failShown
  rw [if_neg h0]
  exact (getF_setF_self _ _ _ _ (by decide)).trans (Nat.mod_eq_of_lt hf)

/-! What each stage does. -/

theorem nextStage_two {s : State} (h : stage s = 2) (f : StageFind) : nextStage f s =
    if startedBy s START.POWER_ON ∧ signedOf 16 f.temp.toNat < coldLimit then { showBase f.temp s with pwr := { (showBase f.temp s).pwr with cold := true } }
    else setStage 0x03 (showBase f.temp s) := by
  unfold nextStage
  split
  any_goals omega
  any_goals contradiction
  rfl

theorem nextStage_five {s : State} (h : stage s = 5) (f : StageFind) : nextStage f s =
    if !f.keyStore then enterRecovery 4 s else if s.boot.recovery then enterRecovery 0 (loadKeys s) else setStage 0x06 (loadKeys s) := by
  unfold nextStage
  split
  any_goals omega
  any_goals contradiction
  rfl

theorem nextStage_six {s : State} (h : stage s = 6) (f : StageFind) : nextStage f s =
    (bootModule s).elim (enterRecovery 1 (modFailed s)) (fun t => logStart (makeReady [.mod, .boot] (setStage 0x07 t))) := by
  unfold nextStage
  split
  any_goals omega
  any_goals contradiction
  split
  next e => rw [e, Option.elim_none]
  next t e => rw [e, Option.elim_some]

theorem nextStage_nine {s : State} (h : stage s = 9) (f : StageFind) : nextStage f s =
    if 0 < failedBanks (testMemory f.columns s) then enterRecovery 3 (testMemory f.columns s) else setStage 0x0A (testMemory f.columns s) := by
  unfold nextStage
  split
  any_goals omega
  any_goals contradiction
  rfl

theorem nextStage_ten {s : State} (h : stage s = 10) (f : StageFind) : nextStage f s = setStage 0x0B (recountTable s) := by
  unfold nextStage
  split
  any_goals omega
  any_goals contradiction
  rfl

theorem nextStage_eleven {s : State} (h : stage s = 11) (f : StageFind) : nextStage f s = beginGrid (setStage 0x0C (testPipes f.pipes (bootUcode s))) := by
  unfold nextStage
  split
  any_goals omega
  any_goals contradiction
  rfl

theorem nextStage_twelve {s : State} (h : stage s = 12) (f : StageFind) : nextStage f s = enterService (setStage 0x0D s) := by
  unfold nextStage
  split
  any_goals omega
  any_goals contradiction
  rfl

theorem nextStage_thirteen {s : State} (h : stage s = 13) (f : StageFind) : nextStage f s =
    if s.boot.ucodeRun.isSome then setStage 0x0E { s with boot := { s.boot with listened := 0 } } else s := by
  unfold nextStage
  split
  any_goals omega
  any_goals contradiction
  rfl

theorem nextStage_plain {s : State} {n : Nat} (h : stage s = n) (hn : n ∈ [1, 3, 4, 7, 8]) (f : StageFind) : nextStage f s = setStage (n + 1) s := by
  simp only [List.mem_cons, List.not_mem_nil, or_false] at hn
  unfold nextStage
  rcases hn with rfl | rfl | rfl | rfl | rfl <;> rw [h] <;> exact if_pos (by decide)

/-- A stage that is complete, as a step. -/
theorem exec_stage {f : StageFind} {s : State} (h : starting s = true) : exec (.startupStageComplete f) s = .next (nextStage f s) := congrArg Host.Outcome.next (if_pos h)

/-! Stage 0x05: the keys (R91). -/

theorem pairBecomes_effect {r : Nat} (hr : r < 4) (s : State) : pairRole (pairBecomes r s) = r ∧ isSet (pairBecomes r s) .pair PAIR_STATUS.HOLD_OFF = decide (2 ≤ r) := by
  unfold pairBecomes pairRole
  refine ⟨?_, isSet_setB_self _ _ _ _ (by decide)⟩
  rw [getF_setB_split _ _ _ (by decide)]
  exact (getF_setF_self _ _ _ _ (by decide)).trans (Nat.mod_eq_of_lt hr)

theorem cip_randBytes (n : Nat) (s : State) : (randBytes n s).2.cip = s.cip := (randBytes_within (m := 0x8000000040000) .refl n rfl).same .cip rfl

theorem swk_drawFirst (s : State) : (drawFirst s).cip.swk ≠ [] := by
  unfold drawFirst
  split
  next h => exact h
  next =>
    dsimp only
    unfold randBytes
    intro h
    have hlen := congrArg List.length h
    rw [length_beBytes] at hlen
    cases hlen

theorem swk_drawStart (s : State) : (drawStart s).cip.swk = s.cip.swk := by
  unfold drawStart
  split
  · rfl
  · rcases e1 : randBytes 32 s with ⟨kwk, s1⟩
    rcases e2 : randBytes 16 s1 with ⟨k, s2⟩
    rcases e3 : randBytes 4 s2 with ⟨salt, s3⟩
    have h1 : s1.cip = s.cip := by simpa [e1] using cip_randBytes 32 s
    have h2 : s2.cip = s1.cip := by simpa [e2] using cip_randBytes 16 s1
    have h3 : s3.cip = s2.cip := by simpa [e3] using cip_randBytes 4 s2
    have h : s3.cip.swk = s.cip.swk := congrArg CipSt.swk (h3.trans (h2.trans h1))
    dsimp only
    rw [e2]
    dsimp only
    rw [e3]
    exact h

/-- The keys drawn, before the pair is set up. -/
def keysDrawn (s : State) : State := drawStart (drawFirst (reseed s))

theorem keysDrawn_within (s : State) : Within 0xa180000040000 s (keysDrawn s) := drawStart_within (drawFirst_within (reseed_within .refl rfl) rfl) rfl

theorem swk_keysDrawn (s : State) : (keysDrawn s).cip.swk ≠ [] := by
  unfold keysDrawn
  rw [swk_drawStart]
  exact swk_drawFirst _

theorem loadPair_effect (s : State) : (loadPair s).cip = s.cip ∧
    (isSet s .pair PAIR_ROLE.PAIRED = true → pairRole (loadPair s) = 3 ∧ isSet (loadPair s) .pair PAIR_STATUS.HOLD_OFF = true) := by
  refine ⟨(loadPair_within (m := 0x800000000200) .refl rfl).same .cip rfl, fun h => ?_⟩
  unfold loadPair
  rw [h]
  exact pairBecomes_effect (r := 3) (by decide) _

theorem loadKeys_effect (s : State) : (loadKeys s).cip.swk ≠ [] ∧
    (isSet s .pair PAIR_ROLE.PAIRED = true → pairRole (loadKeys s) = 3 ∧ isSet (loadKeys s) .pair PAIR_STATUS.HOLD_OFF = true) := by
  have hk := swk_keysDrawn s
  have hpaired : isSet (keysDrawn s) .pair PAIR_ROLE.PAIRED = isSet s .pair PAIR_ROLE.PAIRED := (FieldKept.within (q := .pair) (j := 0) (keysDrawn_within s) rfl).isSet
  have he : loadKeys s = setB .sto STO_STATUS.RESERVE_OK true (loadPair (keysDrawn s)) := rfl
  rw [he]
  obtain ⟨hcip, hpair⟩ := loadPair_effect (keysDrawn s)
  generalize loadPair (keysDrawn s) = u at hcip hpair ⊢
  have hsto : ∀ g, FieldKept .pair g 0 u (setB .sto STO_STATUS.RESERVE_OK true u) := fun g => (FieldKept.refl u).setB _ _ _ (by decide) (.inl (by decide))
  refine ⟨?_, fun h => ?_⟩
  · rw [cip_setB, hcip]
    exact hk
  · obtain ⟨hrole, hhold⟩ := hpair (hpaired.trans h)
    exact ⟨(hsto PAIR_STATUS.ROLE).getF.trans hrole, (hsto _).isSet.trans hhold⟩

theorem loadKeys_within' (s : State) : Within 0xa980000040600 s (loadKeys s) := loadKeys_within .refl rfl

/-! Stage 0x06: the module image (R87). -/

theorem imageBytes_congr {s t : State} (hlog : t.log = s.log) (hsto : t.sto = s.sto) (k o n : Nat) : imageBytes t k o n = imageBytes s k o n := by
  unfold imageBytes
  simp only [readBlock_congr hlog hsto]

/-- What the check of an image reads. -/
theorem verifyImage_congr {s t : State} (hlog : t.log = s.log) (hsto : t.sto = s.sto) (hmgt : t.mgt = s.mgt) (hboot : t.boot = s.boot) {k : Nat} (hsvn : minSvn t k = minSvn s k) :
    verifyImage t k = verifyImage s k := by
  unfold verifyImage imageHeader imageKeys
  simp only [imageBytes_congr hlog hsto]
  rw [hmgt, hboot, hsvn]

/-- The state of one of the four slots stands beside every field below or above them. -/
theorem setSlotState_field {g : Field} (h : (decide (g.offAt 0 % 0x1000 < 0x110) || decide (0x120 ≤ g.offAt 0 % 0x1000)) = true) {i : Nat} (hi : i < 4) (v : Nat) (s : State) :
    FieldKept .boot g 0 s (setSlotState i v s) := by
  refine (FieldKept.refl s).setI _ _ _ _ (by decide) (.inr ?_)
  unfold fieldsSplit
  have e : BOOT_IMG.STATE.offAt i = 0x110 + i * 4 := rfl
  simp only [Bool.or_eq_true, decide_eq_true_eq] at h ⊢
  refine .inl (.inl ?_)
  rw [e]
  omega

theorem markInvalid_field {g : Field} (h : (decide (g.offAt 0 % 0x1000 < 0x110) || decide (0x120 ≤ g.offAt 0 % 0x1000)) = true) (h1 : decide (g.offAt 0 % 0x1000 ≠ offIntStat) = true)
    {i : Nat} (hi : i < 4) (n : Nat) (s : State) : FieldKept .boot g 0 s (markInvalid i n s) := (setSlotState_field h hi _ s).raise _ _ h1

/-- Marking an image invalid changes no image, no key and no least security version. -/
theorem verify_markInvalid {i : Nat} (hi : i < 4) (k n : Nat) (s : State) : verifyImage (markInvalid i n s) k = verifyImage s k := by
  have hw : Within 0x20000020000004 s (markInvalid i n s) := markInvalid_within .refl _ _ rfl
  refine verifyImage_congr (hw.same .log rfl) (hw.same .sto rfl) (hw.same .mgt rfl) (hw.same .boot rfl) ?_
  unfold minSvn
  rw [(markInvalid_field (g := BOOT_MIN_SVN.MOD) (by decide) (by decide) hi n s).getF, (markInvalid_field (g := BOOT_MIN_SVN.UCODE) (by decide) (by decide) hi n s).getF]

/-- The slot picked is one of those offered, and its image verifies; a field beside the slots' states is as before. -/
theorem pickSlot_effect {l : List Nat} (hl : ∀ k ∈ l, k < 4) (s : State) : (∀ i, (pickSlot l s).1 = some i → i ∈ l ∧ verifyImage s i = 0) ∧
    ∀ g : Field, (decide (g.offAt 0 % 0x1000 < 0x110) || decide (0x120 ≤ g.offAt 0 % 0x1000)) = true → decide (g.offAt 0 % 0x1000 ≠ offIntStat) = true →
      FieldKept .boot g 0 s (pickSlot l s).2 := by
  induction l generalizing s with
  | nil => exact ⟨fun i h => (by cases h), fun g _ _ => .refl s⟩
  | cons k l ih =>
    have hk := hl k List.mem_cons_self
    have hrest := fun m hm => hl m (List.mem_cons_of_mem _ hm)
    unfold pickSlot
    split
    · obtain ⟨h1, h2⟩ := ih hrest s
      exact ⟨fun i h => ⟨List.mem_cons_of_mem _ (h1 i h).1, (h1 i h).2⟩, h2⟩
    · dsimp only
      split
      next h0 =>
        refine ⟨fun i h => ?_, fun g _ _ => .refl s⟩
        cases h
        exact ⟨List.mem_cons_self, h0⟩
      · obtain ⟨h1, h2⟩ := ih hrest (markInvalid k (verifyImage s k) s)
        refine ⟨fun i h => ⟨List.mem_cons_of_mem _ (h1 i h).1, (verify_markInvalid hk i _ s).symm.trans (h1 i h).2⟩, fun g hg hi => ?_⟩
        exact (markInvalid_field hg hi hk _ s).trans (h2 g hg hi)

theorem bootSlot_field {g : Field} (h : (decide (g.offAt 0 % 0x1000 < 0x110) || decide (0x120 ≤ g.offAt 0 % 0x1000)) = true) {i : Nat} (hi : i < 4) (s : State) :
    FieldKept .boot g 0 s (bootSlot i s) := by
  unfold bootSlot
  extract_lets b1 s1 b2
  have h1 : FieldKept .boot g 0 s s1 := by
    unfold s1
    split
    · exact FieldKept.trans (.upd rfl) (setSlotState_field h hi _ _)
    · exact .refl s
  exact h1.trans (.upd rfl)

/-- The module image that starts, its slot and its verification (R87). -/
theorem bootModule_effect {s t : State} (h : bootModule s = some t) : mode t = mode s ∧ ∃ i, t.boot.modRun = some i ∧ i < 2 ∧ verifyImage s i = 0 := by
  have hp : getF s .boot BOOT_SEL.MOD_PREFER < 2 := getBits_lt _ 0 0
  have hl : ∀ k ∈ [getF s .boot BOOT_SEL.MOD_PREFER, 1 - getF s .boot BOOT_SEL.MOD_PREFER], k < 2 := by
    simp only [List.mem_cons, List.not_mem_nil, or_false, forall_eq_or_imp, forall_eq]
    omega
  obtain ⟨hpick, hfield⟩ := pickSlot_effect (fun k hk => Nat.lt_trans (hl k hk) (by decide)) s
  unfold bootModule at h
  dsimp only at h
  rcases e : pickSlot [getF s .boot BOOT_SEL.MOD_PREFER, 1 - getF s .boot BOOT_SEL.MOD_PREFER] s with ⟨r, u⟩
  rw [e] at h hpick hfield
  cases r with
  | none => cases h
  | some i =>
    obtain ⟨hmem, hver⟩ := hpick i rfl
    have hi := hl i hmem
    have ht := Option.some.inj h
    have hmode : FieldKept .boot BOOT_STATUS.MODE 0 s t := by
      rw [← ht]
      refine (hfield _ (by decide) (by decide)).trans ((bootSlot_field (g := BOOT_STATUS.MODE) (by decide) (Nat.lt_trans hi (by decide)) u).trans ?_)
      exact FieldKept.setF (.upd rfl) _ _ _ (by decide) (.inr (by decide))
    refine ⟨hmode, i, ?_, hi, hver⟩
    rw [← ht, boot_setF]

theorem logStart_modRun (s : State) : (logStart s).boot.modRun = s.boot.modRun := by
  unfold logStart
  split
  · rfl
  · have h : ∀ c i d (u : State), (logEvent c i d u).boot = u.boot := fun c i d u => (logEvent_within (m := 0x20000028000020) .refl c i d rfl).same .boot rfl
    dsimp only
    rw [h]

theorem makeReady_within' (l : List Page) (s : State) : Within 0x3ffffff s (makeReady l s) := makeReady_within .refl l rfl

/-- Stage 0x06 (R87). -/
theorem stageSix_effect {s t : State} (h : bootModule s = some t) : let v := logStart (makeReady [.mod, .boot] (setStage 0x07 t))
    stage v = 7 ∧ mode v = mode s ∧ ∀ i, v.boot.modRun = some i → i < 2 ∧ verifyImage s i = 0 := by
  obtain ⟨hmode, i, hrun, hi, hver⟩ := bootModule_effect h
  have hk : ∀ g, decide (g.offAt 0 % 0x1000 ≠ offStatus) = true → FieldKept .boot g 0 (setStage 0x07 t) (logStart (makeReady [.mod, .boot] (setStage 0x07 t))) := fun g hg =>
    (makeReady_field _ _ hg _).trans (.within (q := .boot) (logStart_within' _) rfl)
  refine ⟨(hk BOOT_STATUS.STAGE (by decide)).getF.trans (stage_setStage (by decide) t), (hk BOOT_STATUS.MODE (by decide)).getF.trans ((mode_setStage _ _).trans hmode), fun j hj => ?_⟩
  rw [logStart_modRun, (makeReady_within' _ _).same .boot rfl, (setStage_within' _ _).same .boot rfl, hrun] at hj
  cases hj
  exact ⟨hi, hver⟩

end Sys2Proof.Machine
end

section
/-!
PROOFS. The start-up sequence, stage 0x0B (R85, R321): the pipelines that fail their test stay out, and the grid begins.
-/
namespace Sys2Proof.Machine

/-- What the pipelines show of their tests stands. -/
structure PipesKept (s t : State) : Prop where
  zero : FieldKept .cip CIP_STATUS.P0_OK 0 s t
  one : FieldKept .cip CIP_STATUS.P1_OK 0 s t

/-- Every part of the state but the page of CIP. -/
abbrev besideCip : Nat := 0x3ffffffffbffff

/-- A field of the page of CIP that is none of the two results. -/
def Field.besidePipes (f : Field) : Bool := f.ordered && fieldsSplit f CIP_STATUS.P0_OK 0 0 && fieldsSplit f CIP_STATUS.P1_OK 0 0

namespace PipesKept

variable {s t u : State}

theorem refl (s : State) : PipesKept s s := ⟨rfl, rfl⟩

theorem trans (h : PipesKept s t) (k : PipesKept t u) : PipesKept s u := ⟨h.zero.trans k.zero, h.one.trans k.one⟩

theorem upd (h : t.regs = s.regs) : PipesKept s t := ⟨.upd h, .upd h⟩

theorem of (h : Within besideCip s t) : PipesKept s t := ⟨.within (q := .cip) h rfl, .within (q := .cip) h rfl⟩

theorem setF (h : PipesKept s t) (f : Field) (v : Nat) (hf : f.besidePipes = true) : PipesKept s (setF .cip f v t) := by
  unfold Field.besidePipes at hf
  rw [Bool.and_eq_true, Bool.and_eq_true] at hf
  obtain ⟨⟨ho, h0⟩, h1⟩ := hf
  exact ⟨h.zero.setF _ f v ho (.inr h0), h.one.setF _ f v ho (.inr h1)⟩

theorem count (h : PipesKept s t) (f : Field) (hf : f.besidePipes = true) : PipesKept s (count .cip f t) := h.setF f _ hf

theorem raise (h : PipesKept s t) (k : Nat) : PipesKept s (raise .cip k t) := ⟨h.zero.raise _ k (by decide), h.one.raise _ k (by decide)⟩

theorem complete (h : PipesKept s t) (p : Page) (code d : Nat) : PipesKept s (complete p code d t) :=
  ⟨h.zero.trans (.complete t p (by decide) code d (by decide)), h.one.trans (.complete t p (by decide) code d (by decide))⟩

theorem foldl {α : Type} {f : State → α → State} (hf : ∀ u x, PipesKept u (f u x)) : ∀ (l : List α) (s : State), PipesKept s (l.foldl f s)
  | [], s => .refl s
  | x :: l, s => (hf s x).trans (PipesKept.foldl hf l _)

end PipesKept

/-! The end of an association, which a job that fails may bring (R328). -/

theorem refreshGate_pipes (s : State) : PipesKept s (refreshGate s) := .setF (.refl s) CIP_STATUS.P1_GATED _ (by decide)

theorem countJob_pipes (status : Nat) (s : State) : PipesKept s (countJob status s) := by
  unfold countJob
  extract_lets s1
  have h1 : PipesKept s s1 := .count (.refl s) CIP_JOB_CNT.COUNT (by decide)
  split
  · exact (h1.count CIP_AUTH_FAIL_CNT.COUNT (by decide)).raise _
  split
  · exact h1.count CIP_FAULT_CNT.COUNT (by decide)
  split
  · exact (h1.count CIP_REFUSE_CNT.COUNT (by decide)).raise _
  split
  · exact h1.count CIP_REFUSE_CNT.COUNT (by decide)
  · exact h1

theorem parentFrameUnit_pipes (narrow : Bool) (e : List Byte) (s : State) : PipesKept s (parentFrameUnit narrow e s).2.2 := by
  have h := countJob_pipes JST.OK s
  unfold parentFrameUnit
  extract_lets p c t q aad nonce key c2
  generalize Machine.countJob JST.OK s = u at h
  exact h.trans (.of (setParent_within .refl _ rfl))

theorem parentFrame_pipes (e : List Byte) (s : State) : PipesKept s (parentFrame e s).2 := by
  have h := parentFrameUnit_pipes false e s
  unfold parentFrame
  generalize parentFrameUnit false e s = r at h ⊢
  obtain ⟨q, b, t⟩ := r
  dsimp only at h ⊢
  exact h

theorem toParent_pipes (e : List Byte) (s : State) : PipesKept s (toParent e s) := by
  unfold toParent
  split
  · have h := parentFrame_pipes e s
    generalize parentFrame e s = r at h ⊢
    obtain ⟨f, t⟩ := r
    dsimp only at h ⊢
    exact h.trans (.of (laneNgael_within .refl _ _ rfl))
  · exact .of (setParent_within .refl _ rfl)

theorem treeEnd_pipes (i : Nat) (c : Ctx) (reason : Nat) (s : State) : PipesKept s (treeEnd i c reason s) := by
  unfold treeEnd
  extract_lets s1 k s2
  split
  · exact .of (setRoute_within (ownFrame_within .refl _ _ _ rfl) _ _ rfl)
  split
  · have h2 : PipesKept s s2 := .of (setRoute_within .refl _ _ rfl)
    split
    · exact h2.trans (toParent_pipes _ _)
    · exact h2
  · exact .refl s

theorem endRecord_pipes (tell : Bool) (i reason : Nat) (s : State) : PipesKept s (endRecord tell i reason s) := by
  unfold endRecord
  extract_lets a c keep faulted s1 s2 s3 pl s4 m s5 f s6 s7
  have h1 : PipesKept s s1 := by
    unfold s1
    split
    · exact .refl s
    · exact .of (setParked_within .refl _ _ rfl)
  have h2 : PipesKept s1 s2 := by
    unfold s2
    split
    · exact treeEnd_pipes _ _ _ _
    · exact .refl _
  have h3 : PipesKept s2 s3 := .of (clearRelays_within (freeMaps_within (dropFrames_within .refl _ rfl) _ rfl) _ rfl)
  have h4 : PipesKept s3 s4 := .upd rfl
  have h5 : PipesKept s4 s5 := .upd rfl
  have h6 : PipesKept s5 s6 := .of (setAssoc_within .refl _ _ rfl)
  have h7 : PipesKept s6 s7 := .of (hostEvent_within (raise_within .refl _ _ rfl rfl) _ _ _ _ _ rfl)
  exact (((((((h1.trans h2).trans h3).trans h4).trans h5).trans h6).trans h7)).trans (.of (endCommands_within .refl _ rfl))

theorem startEnd_pipes (i reason hold : Nat) (park : Bool) (s : State) : PipesKept s (startEnd i reason hold park s) := by
  unfold startEnd
  extract_lets a s1 src s2
  split
  · exact .refl s
  split
  · exact endRecord_pipes _ _ _ _
  · exact (PipesKept.of (dropFrames_within .refl _ rfl)).trans ((PipesKept.of (setAssoc_within .refl _ _ rfl)).trans (.of (ownFrame_within .refl _ _ _ rfl)))

theorem releaseSlot_pipes (o : Outstanding) (s : State) : PipesKept s (releaseSlot o s) := by
  unfold releaseSlot
  extract_lets i a s1 src
  have h1 : PipesKept s s1 := .of (setPhase_within .refl _ _ rfl)
  clear_value s1
  split
  · exact h1.trans (startEnd_pipes _ _ _ _ _)
  split
  · exact h1
  split
  · exact h1.trans (.of (endCommands_within (setAssoc_within (dropFrames_within (setMac_within .refl _ rfl) _ rfl) _ _ rfl) _ rfl))
  · exact (h1.trans (.of (setAssoc_within .refl _ _ rfl))).trans (endRecord_pipes true _ _ _)

theorem resumeRelease_pipes (s : State) : PipesKept s (resumeRelease s) := by
  unfold resumeRelease
  split
  · exact .refl s
  split
  · exact releaseSlot_pipes _ _
  · exact .refl s

/-! Jobs that end. -/

theorem frameFailed_pipes (f : Frame) (status : Nat) (s : State) : PipesKept s (frameFailed f status s) := by
  unfold frameFailed jobRefused
  extract_lets s1
  have h1 : PipesKept s s1 := by
    unfold s1
    split
    · exact .of (finishFrame_within (sf2Reject_within .refl _ _ _ rfl) _ _ rfl)
    · exact .of (finishFrame_within .refl _ _ rfl)
  split
  · exact h1.trans (startEnd_pipes _ _ _ _ _)
  · exact h1

theorem endFrameJob_pipes (j : Job) (id status : Nat) (out : List Byte) (nonce : Nat) (s : State) : PipesKept s (endFrameJob j id status out nonce s) := by
  unfold endFrameJob
  split
  · exact .refl s
  split
  · exact .of (frameReady_within .refl _ _ rfl)
  · exact frameFailed_pipes _ _ _

theorem endTestJob_pipes (h : Held) (status : Nat) (out : List Byte) (s : State) : PipesKept s (endTestJob h status out s) := by
  unfold endTestJob
  extract_lets j s1 s2
  have h1 : PipesKept s s1 := by
    unfold s1
    split
    · exact .of (busWrite_within .refl _ _ rfl)
    · exact .refl s
  have h2 : PipesKept s s2 := h1.trans (.of (busWrite_within .refl _ _ rfl))
  split
  · split
    · exact h2.complete _ _ _
    · exact h2
  · exact h2

theorem setHeldJobs_pipes (l : List Held) (s : State) : PipesKept s (setHeldJobs l s) := by
  unfold setHeldJobs
  extract_lets mask src
  refine .trans ?_ (refreshGate_pipes _)
  have h0 : PipesKept s { s with cip := { s.cip with held := l } } := .upd rfl
  exact (h0.setF CIP_HOLD.P0_SLOTS _ (by decide)).setF CIP_HOLD.P1_SLOTS _ (by decide)

theorem endJob_pipes (h : Held) (status : Nat) (out : List Byte) (s : State) : PipesKept s (endJob h status out s) := by
  unfold endJob
  extract_lets s1
  have h1 : PipesKept s s1 := (setHeldJobs_pipes _ s).trans (countJob_pipes _ _)
  split
  · exact h1.trans (endTestJob_pipes _ _ _ _)
  split
  · exact (h1.trans (endFrameJob_pipes _ _ _ _ _ _)).trans (resumeRelease_pipes _)
  · exact h1.trans (resumeRelease_pipes _)

/-! The pipelines that fail their test (R321). -/

/-- The result of a pipeline. -/
def pipeOk (p : Nat) : Field := if p = 0 then CIP_STATUS.P0_OK else CIP_STATUS.P1_OK

theorem pipeOk_cases (p : Nat) : pipeOk p = CIP_STATUS.P0_OK ∨ pipeOk p = CIP_STATUS.P1_OK := by
  unfold pipeOk
  split
  · exact .inl rfl
  · exact .inr rfl

theorem pipeOk_apart {p q : Nat} (e : pipeOk q ≠ pipeOk p) : ((pipeOk p).ordered && fieldsSplit (pipeOk p) (pipeOk q) 0 0) = true := by
  rcases pipeOk_cases p with a | a <;> rcases pipeOk_cases q with b | b
  · exact absurd (b.trans a.symm) e
  · rw [a, b]
    decide
  · rw [a, b]
    decide
  · exact absurd (b.trans a.symm) e

theorem PipesKept.ok {s t : State} (h : PipesKept s t) (p : Nat) : FieldKept .cip (pipeOk p) 0 s t := by
  unfold pipeOk
  split
  · exact h.zero
  · exact h.one

/-- What follows once a pipeline is out. -/
def pipeFailed (p cause : Nat) (s1 : State) : State :=
  let s2 := raise .cip CIP_INT.PIPE_OUT (cipFault cause s1)
  refreshGate ((s2.cip.held.filter (fun h => decide (h.pipe = p))).foldl (fun t h => endJob h JST.FAULT [] t) s2)

theorem pipeOut_eq (p cause : Nat) (s : State) : pipeOut p cause s = pipeFailed p cause (setB .cip (pipeOk p) false { s with cip := { s.cip with out := s.cip.out ||| 2 ^ p } }) := rfl

theorem cipFault_pipes (cause : Nat) (s : State) : PipesKept s (cipFault cause s) := by
  unfold cipFault
  have h : ∀ f : Field, f.off = offStatus → f.hi < 29 → FieldKept .cip f 0 s (setFault .cip 1 s) := fun f hf hh => by
    unfold FieldKept getI setFault
    rw [Field.offAt_zero, hf, reg_setReg_self, getBits_setBits_other _ _ (by decide) (by decide) (.inl hh)]
  exact PipesKept.setF ⟨h _ rfl (by decide), h _ rfl (by decide)⟩ CIP_STATUS.FAULT_CAUSE _ (by decide)

theorem pipeFailed_pipes (p cause : Nat) (s : State) : PipesKept s (pipeFailed p cause s) := by
  unfold pipeFailed
  extract_lets s2
  have h2 : PipesKept s s2 := (cipFault_pipes cause s).raise _
  exact (h2.trans (.foldl (fun u h => endJob_pipes h _ _ u) _ _)).trans (refreshGate_pipes _)

/-- A pipeline out shows no result, and that of another is as before or also lost. -/
theorem pipeOut_ok (p cause : Nat) (s : State) : isSet (pipeOut p cause s) .cip (pipeOk p) = false ∧
    ∀ q, isSet s .cip (pipeOk q) = false → isSet (pipeOut p cause s) .cip (pipeOk q) = false := by
  rw [pipeOut_eq]
  have h := pipeFailed_pipes p cause (setB .cip (pipeOk p) false { s with cip := { s.cip with out := s.cip.out ||| 2 ^ p } })
  have h0 : ∀ q, isSet ({ s with cip := { s.cip with out := s.cip.out ||| 2 ^ p } } : State) .cip (pipeOk q) = isSet s .cip (pipeOk q) := fun q => rfl
  generalize ({ s with cip := { s.cip with out := s.cip.out ||| 2 ^ p } } : State) = a at h h0
  have hself : isSet (setB .cip (pipeOk p) false a) .cip (pipeOk p) = false := by
    unfold pipeOk
    split <;> exact isSet_setB_self _ _ _ _ (by decide)
  have hother : ∀ q, isSet a .cip (pipeOk q) = false → isSet (setB .cip (pipeOk p) false a) .cip (pipeOk q) = false := fun q hq => by
    by_cases e : pipeOk q = pipeOk p
    · rw [e]
      exact hself
    · exact (isSet_setB_split _ _ _ (pipeOk_apart e)).trans hq
  generalize setB .cip (pipeOk p) false a = b at h hself hother
  exact ⟨(h.ok p).isSet.trans hself, fun q hq => (h.ok q).isSet.trans (hother q ((h0 q).trans hq))⟩

theorem pipesOut_ok : ∀ (l : List (Fin 2)) (s : State), (∀ q, isSet s .cip (pipeOk q) = false → isSet (l.foldl (fun t p => pipeOut p.val 4 t) s) .cip (pipeOk q) = false) ∧
    ∀ p ∈ l, isSet (l.foldl (fun t p => pipeOut p.val 4 t) s) .cip (pipeOk p.val) = false
  | [], s => ⟨fun _ h => h, fun _ h => absurd h List.not_mem_nil⟩
  | x :: l, s => by
    obtain ⟨h1, h2⟩ := pipesOut_ok l (pipeOut x.val 4 s)
    obtain ⟨k1, k2⟩ := pipeOut_ok x.val 4 s
    rw [List.foldl_cons]
    generalize pipeOut x.val 4 s = a at h1 h2 k1 k2
    refine ⟨fun q hq => h1 q (k2 q hq), fun p hp => ?_⟩
    rcases List.mem_cons.mp hp with rfl | hm
    · exact h1 _ k1
    · exact h2 p hm

theorem testPipes_ok (l : List (Fin 2)) (s : State) : ∀ p ∈ l, isSet (testPipes l s) .cip (pipeOk p.val) = false := (pipesOut_ok l _).2

end Sys2Proof.Machine
end

section
/-!
PROOFS. The start-up sequence (R46, R84, R183, R281, R400): microcode and the grid, the configuration and SERVICE, and the end of listening.
-/
namespace Sys2Proof.Machine

/-! Stage 0x0B: microcode (R281). -/

/-- The register of the causes of a start, whole. -/
def causeField : Field := { BOOT_CAUSE.POWER_ON with hi := 31, lo := 0 }

theorem startedBy_congr {s t : State} (h : FieldKept .boot causeField 0 s t) (c : Nat) : startedBy t c = startedBy s c := by
  have e : ∀ u : State, getI u .boot causeField 0 = (reg u (addr .boot BOOT_CAUSE.POWER_ON.off)).toNat := fun u => by
    unfold getI getBits
    rw [Field.offAt_zero]
    exact (Nat.mod_eq_of_lt (BitVec.isLt _)).trans (by simp [causeField])
  unfold startedBy
  rw [← e, ← e, h]

theorem preferred_slots (s : State) : ∀ k ∈ [2 + getF s .boot BOOT_SEL.UCODE_PREFER, 3 - getF s .boot BOOT_SEL.UCODE_PREFER], k < 4 := by
  have hp : getF s .boot BOOT_SEL.UCODE_PREFER < 2 := getBits_lt _ _ _
  simp only [List.mem_cons, List.not_mem_nil, or_false, forall_eq_or_imp, forall_eq]
  omega

/-- Microcode that runs, or the failure that is shown. -/
theorem bootUcode_effect (s : State) : ((bootUcode s).boot.ucodeRun = none → getF (bootUcode s) .boot BOOT_STATUS.LAST_FAIL = 2) ∧ FieldKept .boot causeField 0 s (bootUcode s) := by
  obtain ⟨hpick, hfield⟩ := pickSlot_effect (preferred_slots s) s
  have hc := hfield causeField (by decide) (by decide)
  unfold bootUcode
  extract_lets p
  change ∀ i, (pickSlot [2 + p, 3 - p] s).1 = some i → i ∈ [2 + p, 3 - p] ∧ verifyImage s i = 0 at hpick
  change FieldKept .boot causeField 0 s (pickSlot [2 + p, 3 - p] s).2 at hc
  have hl := preferred_slots s
  change ∀ k ∈ [2 + p, 3 - p], k < 4 at hl
  clear_value p
  generalize pickSlot [2 + p, 3 - p] s = r at hpick hc ⊢
  obtain ⟨o, t⟩ := r
  cases o with
  | none => exact ⟨fun _ => getF_setF_self _ _ _ _ (by decide), hc.setF _ _ _ (by decide) (.inr (by decide))⟩
  | some i =>
    dsimp only at hpick hc ⊢
    have hi : i < 4 := hl i (hpick i rfl).1
    have h1 := hc.trans (bootSlot_field (g := causeField) (by decide) hi t)
    generalize bootSlot i t = a at h1
    have h2 : FieldKept .boot causeField 0 s { a with boot := { a.boot with ucodeRun := some (i - 2) } } := h1.trans (.upd rfl)
    have h2r : ({ a with boot := { a.boot with ucodeRun := some (i - 2) } } : State).boot.ucodeRun = some (i - 2) := rfl
    generalize ({ a with boot := { a.boot with ucodeRun := some (i - 2) } } : State) = b at h2 h2r
    have h3 : FieldKept .boot causeField 0 s (setF .boot BOOT_STATUS.UCODE_SLOT (i - 2) b) := h2.setF _ _ _ (by decide) (.inr (by decide))
    have h3r : (setF .boot BOOT_STATUS.UCODE_SLOT (i - 2) b).boot.ucodeRun = some (i - 2) := (congrArg BootSt.ucodeRun (boot_setF _ _ _ _)).trans h2r
    generalize setF .boot BOOT_STATUS.UCODE_SLOT (i - 2) b = c at h3 h3r
    have w : Within 0x1000000 c (showUcode i c) := showUcode_within .refl i rfl
    refine ⟨fun hn => ?_, h3.trans (.within (q := .boot) w rfl)⟩
    rw [w.same .boot rfl, h3r] at hn
    cases hn

/-! Stage 0x0B: the grid (R183). -/

theorem firstSfn_lt (s : State) : firstSfn s < 2 ^ 32 := by
  unfold firstSfn
  split
  · exact Nat.mod_lt _ (by decide)
  · decide

theorem firstSfn_congr {s t : State} (hc : FieldKept .boot causeField 0 s t) (ht : t.time = s.time) (hp : t.pwr = s.pwr) : firstSfn t = firstSfn s := by
  unfold firstSfn
  rw [startedBy_congr hc, ht, hp]

/-- What follows once the first superframe is numbered. -/
def gridFollows (wake power : Bool) (s : State) : State :=
  let s1 := applyBkey (startTru s)
  if wake then linkTime 1 3 1 s1 else if power then linkTime 1 4 1 s1 else s1

theorem gridFollows_within (wake power : Bool) (s : State) : Within 0x201c0028008120 s (gridFollows wake power s) := by
  unfold gridFollows
  extract_lets s1
  have h1 : Within 0x201c0028008120 s s1 := applyBkey_within (startTru_within .refl rfl) rfl
  split
  · exact linkTime_within h1 _ _ _ rfl
  split
  · exact linkTime_within h1 _ _ _ rfl
  · exact h1

theorem beginGrid_eq (s : State) : beginGrid s = gridFollows (startedBy s START.WAKE) (startedBy s START.POWER_ON)
    (setF .bcn BCN_SFN.SFN (firstSfn s) { s with time := { s.time with sfStart := firstSfn s * 209715200, slot := 0, running := true } }) := rfl

theorem beginGrid_effect (s : State) : (beginGrid s).time.running = true ∧ (beginGrid s).time.slot = 0 ∧ sfn (beginGrid s) = firstSfn s := by
  rw [beginGrid_eq]
  have hn := firstSfn_lt s
  generalize firstSfn s = n at hn
  have h0 : ({ s with time := { s.time with sfStart := n * 209715200, slot := 0, running := true } } : State).time = { s.time with sfStart := n * 209715200, slot := 0, running := true } := rfl
  generalize ({ s with time := { s.time with sfStart := n * 209715200, slot := 0, running := true } } : State) = a at h0
  have h1 : sfn (setF .bcn BCN_SFN.SFN n a) = n := (getF_setF_self _ _ _ _ (by decide)).trans (Nat.mod_eq_of_lt hn)
  have h2 : (setF .bcn BCN_SFN.SFN n a).time = a.time := time_setF _ _ _ _
  generalize setF .bcn BCN_SFN.SFN n a = b at h1 h2
  have w := gridFollows_within (startedBy s START.WAKE) (startedBy s START.POWER_ON) b
  have ht := (w.same .time rfl).trans (h2.trans h0)
  exact ⟨by rw [ht], by rw [ht], (w.getF_addr .bcn _ rfl).trans h1⟩

/-- Stage 0x0B (R183, R281, R321). -/
theorem stageEleven_effect (l : List (Fin 2)) (s : State) : let t := beginGrid (setStage 0x0C (testPipes l (bootUcode s)))
    stage t = 12 ∧ t.time.running = true ∧ t.time.slot = 0 ∧ sfn t = firstSfn s ∧ (∀ p ∈ l, isSet t .cip (if p.val = 0 then CIP_STATUS.P0_OK else CIP_STATUS.P1_OK) = false) ∧
      (t.boot.ucodeRun = none → getF t .boot BOOT_STATUS.LAST_FAIL = 2) := by
  obtain ⟨hrun, hcause⟩ := bootUcode_effect s
  have wa : Within 0x20000121000004 s (bootUcode s) := bootUcode_within .refl rfl
  generalize bootUcode s = a at hrun hcause wa
  have hok := testPipes_ok l a
  have wb : Within 0x20ba483e25ba28 a (testPipes l a) := testPipes_within .refl l rfl
  generalize testPipes l a = b at hok wb
  have hs : stage (setStage 0x0C b) = 12 := stage_setStage (by decide) b
  have wc := setStage_within' 0x0C b
  have hcc : FieldKept .boot causeField 0 b (setStage 0x0C b) := setStage_field (by decide) _ _
  have hlf : FieldKept .boot BOOT_STATUS.LAST_FAIL 0 b (setStage 0x0C b) := setStage_field (by decide) _ _
  generalize setStage 0x0C b = c at hs wc hcc hlf
  have wd : Within 0x201c006800c120 c (beginGrid c) := beginGrid_within .refl rfl
  obtain ⟨h1, h2, h3⟩ := beginGrid_effect c
  generalize beginGrid c = d at wd h1 h2 h3
  refine ⟨(wd.getF_addr .boot _ rfl).trans hs, h1, h2, ?_, fun p hp => ?_, fun hn => ?_⟩
  · rw [h3]
    refine firstSfn_congr ((hcause.trans (.within (q := .boot) wb rfl)).trans hcc) ?_ ?_
    · exact ((wc.same .time rfl).trans (wb.same .time rfl)).trans (wa.same .time rfl)
    · exact ((wc.same .pwr rfl).trans (wb.same .pwr rfl)).trans (wa.same .pwr rfl)
  · have hc : FieldKept .cip (pipeOk p.val) 0 b d := (FieldKept.within (q := .cip) wc rfl).trans (.within (q := .cip) wd rfl)
    exact hc.isSet.trans (hok p hp)
  · have hb : d.boot = a.boot := ((wd.same .boot rfl).trans (wc.same .boot rfl)).trans (wb.same .boot rfl)
    rw [hb] at hn
    exact (((FieldKept.within (q := .boot) wb rfl).trans hlf).trans (.within (q := .boot) wd rfl)).getF.trans (hrun hn)

/-! Stage 0x0C: the declarations of the stored configuration (R400). -/

/-- A declaration that is loaded is in effect, as it is written. -/
theorem loadDecl_self {n : Port} (s : State) : (port (loadDecl n.val s) n.val).declared = isSet s (.lpt n) LPT_DECL.DECLARED := by
  unfold loadDecl
  rw [lptPage_val]
  have h1 : getF (setF (.lpt n) LPT_DECL.PENDING 1 s) (.lpt n) LPT_DECL.PENDING = 1 := getF_setF_self _ _ _ _ (by decide)
  exact (applyDecl_self h1).2.trans (isSet_setF_split _ _ _ (by decide))

/-- The loading of the declaration of another port leaves this one. -/
theorem loadDecl_decl {n : Port} {m : Nat} {s : State} (hm : m < 52) (h : n.val ≠ m) : DeclKept n s (loadDecl m s) := by
  have hp : (Page.lpt n) ≠ lptPage m := fun k => h (by
    rw [congrArg Fin.val (Page.lpt.inj k)]
    exact Nat.mod_eq_of_lt hm)
  have hs : DeclKept n s (setF (lptPage m) LPT_DECL.PENDING 1 s) := ⟨getI_setI_page s _ _ 0 0 1 hp, getI_setI_page s _ _ 0 0 1 hp, DeclKept.declared_of_ports (ports_setF _ _ _ _) n⟩
  exact hs.trans (applyDecl_decl hm h)

theorem loadDecl_foldl {n : Port} : ∀ (l : List Nat) (s : State), (∀ m ∈ l, m < 52 ∧ n.val ≠ m) → DeclKept n s (l.foldl (fun t m => loadDecl m t) s)
  | [], _, _ => .refl n _
  | m :: l, _, h =>
    have hm := h m List.mem_cons_self
    .trans (loadDecl_decl hm.1 hm.2) (loadDecl_foldl l _ fun k hk => h k (List.mem_cons_of_mem m hk))

theorem loadDecls_effect (n : Port) (s : State) : (port (allPorts.foldl (fun t m => loadDecl m t) s) n.val).declared = isSet s (.lpt n) LPT_DECL.DECLARED := by
  rw [allPorts_cut n, List.foldl_append, List.foldl_cons]
  have h1 : DeclKept n s ((List.range n.val).foldl (fun t m => loadDecl m t) s) := loadDecl_foldl _ s fun m hm => by
    have := List.mem_range.mp hm
    omega
  generalize (List.range n.val).foldl (fun t m => loadDecl m t) s = a at h1
  have h2 := loadDecl_self (n := n) a
  have h3 : DeclKept n (loadDecl n.val a) _ := loadDecl_foldl (List.range' (n.val + 1) (51 - n.val)) (loadDecl n.val a) fun m hm => by
    have := List.mem_range'_1.mp hm
    omega
  exact (h3.effect.trans h2).trans h1.written.isSet

theorem loadConfig_declared (n : Port) (s : State) : (port (loadConfig s) n.val).declared = isSet s (.lpt n) LPT_DECL.DECLARED := by
  unfold loadConfig
  have w : Within 0x20082c20314000 s (setB .rpt RPT_STATUS.ROLE_PENDING false (loadMaps (loadBeacon (loadWaves s)))) :=
    setB_within (loadMaps_within (loadBeacon_within (loadWaves_within .refl rfl) rfl) rfl) _ _ _ rfl
  exact (loadDecls_effect n _).trans (FieldKept.within (q := .lpt n) (g := LPT_DECL.DECLARED) (j := 0) w (show Nat.testBit _ 23 = false from rfl)).isSet

/-! Stage 0x0C: SERVICE (R84). -/

/-- The mode SERVICE, with the kill for the reset over and the interrupt raised. -/
def serviceBegun (s : State) : State :=
  raise .boot BOOT_INT.SERVICE (endCause KILL.RESET (setB .mem MEM_STATUS.ARB_NORMAL true (setMode MODE.SERVICE (makeReady allPages (loadConfig s)))))

/-- What is shown of trials, the gate, the engines and the tunnel. -/
def trialsShown (s : State) : State := refreshTunnel (refreshEngines (refreshGate (showTrial s)))

/-- What follows in SERVICE: the report of a reset by fault, and what is shown. -/
def serviceShown (fault : Bool) (s3 : State) : State :=
  let s4 := if fault then diagReport 9 .boot s3 else s3
  trialsShown { s4 with boot := { s4.boot with trialLive := false } }

theorem enterService_eq (s : State) : enterService s = serviceShown (decide (startedBy s START.WATCHDOG ∨ startedBy s START.LOCKSTEP)) (serviceBegun s) := by
  unfold enterService serviceShown serviceBegun trialsShown
  simp only [decide_eq_true_eq]

theorem serviceBegun_effect (s : State) : mode (serviceBegun s) = MODE.SERVICE ∧ stage (serviceBegun s) = stage s ∧ (killCauses (serviceBegun s)).testBit KILL.RESET = false ∧
    intOf (serviceBegun s) .boot BOOT_INT.SERVICE = true ∧ isSet (serviceBegun s) .mem MEM_STATUS.ARB_NORMAL = true ∧ (serviceBegun s).ports = (loadConfig s).ports := by
  unfold serviceBegun
  have wa : Within 0x200bbe35b14800 s (loadConfig s) := loadConfig_within .refl rfl
  generalize loadConfig s = a at wa
  have hb : FieldKept .boot BOOT_STATUS.STAGE 0 a (makeReady allPages a) := makeReady_field _ _ (by decide) _
  have wb := makeReady_within' allPages a
  generalize makeReady allPages a = b at hb wb
  have hm : mode (setMode MODE.SERVICE b) = MODE.SERVICE := mode_setMode (by decide) b
  have hc : FieldKept .boot BOOT_STATUS.STAGE 0 b (setMode MODE.SERVICE b) := setMode_field (by decide) _ _
  have wc : Within 0x84 b (setMode MODE.SERVICE b) := setMode_within .refl _ rfl
  generalize setMode MODE.SERVICE b = c at hm hc wc
  have hd : isSet (setB .mem MEM_STATUS.ARB_NORMAL true c) .mem MEM_STATUS.ARB_NORMAL = true := isSet_setB_self _ _ _ _ (by decide)
  have wd : Within 0x400000 c (setB .mem MEM_STATUS.ARB_NORMAL true c) := setB_within .refl _ _ _ rfl
  generalize setB .mem MEM_STATUS.ARB_NORMAL true c = d at hd wd
  have hk : (killCauses (endCause KILL.RESET d)).testBit KILL.RESET = false := by
    unfold endCause
    rw [killCauses_endCauses (by decide), Nat.testBit_and, show Nat.testBit (2047 - 2 ^ KILL.RESET) KILL.RESET = false from rfl, Bool.and_false]
  have we : Within 0x20000020000008 d (endCause KILL.RESET d) := endCause_within .refl _ rfl
  generalize endCause KILL.RESET d = e at hk we
  have hf : ∀ g : Field, decide (g.offAt 0 % 0x1000 ≠ offIntStat) = true → FieldKept .boot g 0 e (raise .boot BOOT_INT.SERVICE e) := fun g hg => (FieldKept.refl e).raise _ _ hg
  have wf : Within 0x20000020000004 e (raise .boot BOOT_INT.SERVICE e) := raise_within .refl _ _ rfl rfl
  have hcd : ∀ g : Field, FieldKept .boot g 0 c e := fun g => (FieldKept.within (q := .boot) wd rfl).trans (.within (q := .boot) we rfl)
  refine ⟨((hcd BOOT_STATUS.MODE).trans (hf _ (by decide))).getF.trans hm, ?_, ?_, intOf_raise _ _ _ (by decide), ?_, ?_⟩
  · exact ((((FieldKept.within (q := .boot) wa rfl).trans hb).trans hc).trans ((hcd _).trans (hf BOOT_STATUS.STAGE (by decide)))).getF
  · have hs : killCauses (raise .boot BOOT_INT.SERVICE e) = killCauses e := wf.getF_addr .saf SAF_KILL.CAUSE rfl
    rw [hs]
    exact hk
  · exact ((FieldKept.within (q := .mem) (g := MEM_STATUS.ARB_NORMAL) (j := 0) we rfl).trans (.within (q := .mem) wf rfl)).isSet.trans hd
  · exact (((wf.same .ports rfl).trans (we.same .ports rfl)).trans ((wd.same .ports rfl).trans (wc.same .ports rfl))).trans (wb.same .ports rfl)

theorem showTrial_kept (s : State) : (∀ g : Field, decide (g.offAt 0 % 0x1000 ≠ offIntStat) = true → FieldKept .boot g 0 s (showTrial s)) ∧
    (intOf s .boot BOOT_INT.SERVICE = true → intOf (showTrial s) .boot BOOT_INT.SERVICE = true) := by
  unfold showTrial
  split
  · exact ⟨fun g _ => .refl s, id⟩
  · exact ⟨fun g hg => (FieldKept.refl s).raise _ _ hg, intOf_raise_mono _ _ _ _ s⟩

theorem trialsShown_kept (s : State) : (∀ g : Field, decide (g.offAt 0 % 0x1000 ≠ offIntStat) = true → FieldKept .boot g 0 s (trialsShown s)) ∧
    (intOf s .boot BOOT_INT.SERVICE = true → intOf (trialsShown s) .boot BOOT_INT.SERVICE = true) := by
  obtain ⟨h1, h2⟩ := showTrial_kept s
  unfold trialsShown
  generalize showTrial s = a at h1 h2
  have w : Within 0x1041000 a (refreshTunnel (refreshEngines (refreshGate a))) := refreshTunnel_within (refreshEngines_within (refreshGate_within .refl rfl) rfl) rfl
  exact ⟨fun g hg => (h1 g hg).trans (.within (q := .boot) w rfl), fun h => (w.intOf_addr .boot _ rfl).trans (h2 h)⟩

theorem trialsShown_within (s : State) : Within 0x20000021041004 s (trialsShown s) := by
  unfold trialsShown
  exact refreshTunnel_within (refreshEngines_within (refreshGate_within (showTrial_within .refl rfl) rfl) rfl) rfl

/-- What is shown in SERVICE leaves the registers of the start as they are. -/
theorem serviceShown_effect (fault : Bool) (s : State) : mode (serviceShown fault s) = mode s ∧ stage (serviceShown fault s) = stage s ∧ killCauses (serviceShown fault s) = killCauses s ∧
    (intOf s .boot BOOT_INT.SERVICE = true → intOf (serviceShown fault s) .boot BOOT_INT.SERVICE = true) ∧
    isSet (serviceShown fault s) .mem MEM_STATUS.ARB_NORMAL = isSet s .mem MEM_STATUS.ARB_NORMAL ∧ (serviceShown fault s).ports = s.ports ∧
    (fault = true → getF (serviceShown fault s) .saf SAF_DIAG_LAST.CLASS = 9) := by
  unfold serviceShown
  extract_lets s4 src
  have wa : Within 0x20000020000008 s s4 := by
    unfold s4
    split
    · exact diagReport_within .refl _ _ rfl
    · exact .refl
  have ka : killCauses s4 = killCauses s := by
    unfold s4
    split
    · exact diagReport_field (g := SAF_KILL.CAUSE) (by decide) _ _ s
    · rfl
  have ca : fault = true → getF s4 .saf SAF_DIAG_LAST.CLASS = 9 := fun h => by
    unfold s4
    rw [if_pos h]
    exact diagReport_class (by decide) _ _
  have hb : FieldKept .boot BOOT_STATUS.MODE 0 s s4 ∧ FieldKept .boot BOOT_STATUS.STAGE 0 s s4 ∧ intOf s4 .boot BOOT_INT.SERVICE = intOf s .boot BOOT_INT.SERVICE :=
    ⟨.within (q := .boot) wa rfl, .within (q := .boot) wa rfl, wa.intOf_addr .boot _ rfl⟩
  obtain ⟨hmode, hstage, hint⟩ := hb
  have harb : FieldKept .mem MEM_STATUS.ARB_NORMAL 0 s s4 := .within (q := .mem) wa rfl
  have hports : s4.ports = s.ports := wa.same .ports rfl
  clear_value s4
  have hl : ({ s4 with boot := { s4.boot with trialLive := false } } : State).regs = s4.regs := rfl
  have hlp : ({ s4 with boot := { s4.boot with trialLive := false } } : State).ports = s4.ports := rfl
  generalize ({ s4 with boot := { s4.boot with trialLive := false } } : State) = a at hl hlp
  obtain ⟨k1, k2⟩ := trialsShown_kept a
  have w := trialsShown_within a
  have hi : intOf a .boot BOOT_INT.SERVICE = intOf s4 .boot BOOT_INT.SERVICE := intOf_eq (by rw [reg, reg, hl]) _
  refine ⟨((hmode.trans (.upd hl)).trans (k1 _ (by decide))).getF, ((hstage.trans (.upd hl)).trans (k1 _ (by decide))).getF, ?_, fun h => ?_, ?_, ?_, fun h => ?_⟩
  · exact (((FieldKept.upd (q := .saf) (g := SAF_KILL.CAUSE) (j := 0) hl)).trans (.within (q := .saf) w rfl)).getF.trans ka
  · exact k2 (by rw [hi, hint, h])
  · exact ((harb.trans (.upd hl)).trans (.within (q := .mem) w rfl)).isSet
  · exact (w.same .ports rfl).trans (hlp.trans hports)
  · exact ((FieldKept.upd (q := .saf) (g := SAF_DIAG_LAST.CLASS) (j := 0) hl).trans (.within (q := .saf) w rfl)).getF.trans (ca h)

/-- Stage 0x0C (R84, R400). -/
theorem stageTwelve_effect (s : State) : let t := enterService (setStage 0x0D s)
    stage t = 13 ∧ mode t = MODE.SERVICE ∧ (killCauses t).testBit KILL.RESET = false ∧ intOf t .boot BOOT_INT.SERVICE = true ∧
    isSet t .mem MEM_STATUS.ARB_NORMAL = true ∧ (∀ n : Port, (port t n.val).declared = isSet s (.lpt n) LPT_DECL.DECLARED) ∧
    (startedBy s START.WATCHDOG = true ∨ startedBy s START.LOCKSTEP = true → getF t .saf SAF_DIAG_LAST.CLASS = 9) := by
  have hc : FieldKept .boot causeField 0 s (setStage 0x0D s) := setStage_field (by decide) _ _
  have hs : stage (setStage 0x0D s) = 13 := stage_setStage (by decide) s
  have w := setStage_within' 0x0D s
  intro t
  have ht : t = enterService (setStage 0x0D s) := rfl
  clear_value t
  generalize setStage 0x0D s = a at hc hs w ht
  rw [enterService_eq] at ht
  obtain ⟨h1, h2, h3, h4, h5, h6⟩ := serviceBegun_effect a
  generalize serviceBegun a = b at h1 h2 h3 h4 h5 h6 ht
  obtain ⟨k1, k2, k3, k4, k5, k6, k7⟩ := serviceShown_effect (decide (startedBy a START.WATCHDOG ∨ startedBy a START.LOCKSTEP)) b
  rw [← ht] at k1 k2 k3 k4 k5 k6 k7
  refine ⟨k2.trans (h2.trans hs), k1.trans h1, by rw [k3, h3], k4 h4, k5.trans h5, fun n => ?_, fun h => k7 (decide_eq_true ?_)⟩
  · rw [port_congr (k6.trans h6) n.val, loadConfig_declared n a]
    exact (FieldKept.within (q := .lpt n) (g := LPT_DECL.DECLARED) (j := 0) w (show Nat.testBit _ 23 = false from rfl)).isSet
  · rw [startedBy_congr hc, startedBy_congr hc]
    exact h

/-! The end of listening (R183, R400). -/

/-- Copies are lost, and neither the role in the pair nor that in the tree. -/
theorem clearCopies_roles (s : State) : pairRole (clearCopies s) = pairRole s ∧ (clearCopies s).mac.role = s.mac.role := by
  unfold clearCopies
  generalize hb : ({ s with bbw := { s.bbw with tmaps := [], tadj := [] } } : State) = b
  have hbr : b.regs = s.regs := by rw [← hb]
  have h1 : pairRole (setMac { s.mac with table := [], relays := [], routes := [], elems := [], joinUps := [] } b) = pairRole s := FieldKept.upd (q := .pair) (g := PAIR_STATUS.ROLE) (j := 0) hbr
  have h2 : (setMac { s.mac with table := [], relays := [], routes := [], elems := [], joinUps := [] } b).mac.role = s.mac.role := rfl
  generalize setMac { s.mac with table := [], relays := [], routes := [], elems := [], joinUps := [] } b = c at h1 h2
  have h3 : pairRole (setF .pair PAIR_SYNC_PROG.VALUE 0 c) = pairRole c := getF_setF_split c .pair 0 (by decide)
  have h4 : (setF .pair PAIR_SYNC_PROG.VALUE 0 c).mac = c.mac := mac_setF _ _ _ _
  generalize setF .pair PAIR_SYNC_PROG.VALUE 0 c = d at h3 h4
  have w : Within 0x20000020008000 d (refreshTable d) := refreshTable_within .refl rfl
  exact ⟨(w.getF_addr .pair PAIR_STATUS.ROLE rfl).trans (h3.trans h1), by rw [w.same .mac rfl, h4, h2]⟩

theorem setSync_role (n : Nat) (s : State) : pairRole (setSync n s) = pairRole s := getF_setF_split s .pair n (by decide)

theorem setSync_mac (n : Nat) (s : State) : (setSync n s).mac = s.mac := mac_setF _ _ _ _

theorem settleStandby_role (s : State) : pairRole (settleStandby s) = 2 := by
  obtain ⟨h, -⟩ := pairBecomes_effect (r := 2) (by decide) s
  unfold settleStandby
  generalize pairBecomes 2 s = a at h
  split
  · unfold beginSync
    rw [setSync_role, (clearCopies_roles a).1, h]
  · rw [setSync_role, h]

theorem pairBecomes_mac (r : Nat) (s : State) : (pairBecomes r s).mac = s.mac := (pairBecomes_within (m := 0x200) .refl r rfl).same .mac rfl

/-- The role in the tree stands. -/
theorem settleRole_sub (s : State) : isSub (settleRole s) = isSub s := by
  have hm : (settleRole s).mac.role = s.mac.role := by
    unfold settleRole settleStandby
    split
    · rfl
    split
    · split
      · unfold beginSync
        rw [setSync_mac, (clearCopies_roles _).2, pairBecomes_mac]
      · rw [setSync_mac, pairBecomes_mac]
    · rw [pairBecomes_mac]
  have hu : getF (settleRole s) .rpt RPT_TREE.UP_IF = getF s .rpt RPT_TREE.UP_IF := (settleRole_within (m := 0x20080820008200) .refl rfl).getF_addr .rpt _ rfl
  unfold isSub
  rw [hm, hu]

/-- With no peer, a module of a pair takes the role that its listening gives (R400). -/
theorem settleRole_lone {s : State} (h3 : pairRole s = 3) (hp : peerUp s = false) : pairRole (settleRole s) = if heardOwn s then 2 else 1 := by
  unfold settleRole
  rw [if_neg (by rw [h3, hp]; decide)]
  by_cases h : heardOwn s = true
  · rw [if_pos h, if_pos h]
    exact settleStandby_role s
  · rw [if_neg h, if_neg h]
    exact (pairBecomes_effect (by decide) s).1

theorem settleRole_other {s : State} (h : pairRole s ≠ 3 ∨ peerUp s = true) : settleRole s = s := if_pos h

theorem domainClash_effect (s : State) : stage (domainClash s) = stage s ∧ (domainClash s).boot.listened = 1 ∧ intOf (domainClash s) .pair PAIR_INT.DOMAIN_CLASH = true := by
  have h1 : intOf (raise .pair PAIR_INT.DOMAIN_CLASH s) .pair PAIR_INT.DOMAIN_CLASH = true := intOf_raise _ _ _ (by decide)
  have w1 : Within 0x20000020000200 s (raise .pair PAIR_INT.DOMAIN_CLASH s) := raise_within .refl _ _ rfl rfl
  have w2 : Within 0x20000028000020 (raise .pair PAIR_INT.DOMAIN_CLASH s) (logPage .pair PAIR_INT.DOMAIN_CLASH [] (raise .pair PAIR_INT.DOMAIN_CLASH s)) := logPage_within .refl _ _ _ rfl
  unfold domainClash
  generalize logPage .pair PAIR_INT.DOMAIN_CLASH [] (raise .pair PAIR_INT.DOMAIN_CLASH s) = b at w2
  generalize raise .pair PAIR_INT.DOMAIN_CLASH s = a at h1 w1 w2
  exact ⟨(getI_congr rfl).trans ((w2.getF_addr .boot BOOT_STATUS.STAGE rfl).trans (w1.getF_addr .boot BOOT_STATUS.STAGE rfl)), rfl, (intOf_eq rfl _).trans ((w2.intOf_addr .pair _ rfl).trans h1)⟩

theorem listenEnd_effect (s : State) :
    if stage s ≠ 14 ∨ s.boot.listened < 3 then listenEnd s = s
    else if pairRole s = 0 ∧ heardOwn s = true then stage (listenEnd s) = 14 ∧ (listenEnd s).boot.listened = 1 ∧ intOf (listenEnd s) .pair PAIR_INT.DOMAIN_CLASH = true
    else (pairRole s = 3 → peerUp s = false → pairRole (listenEnd s) = if heardOwn s then 2 else 1) ∧
      (isSub s = false → pairRole s ≠ 3 ∨ peerUp s = false → stage (listenEnd s) = 15) := by
  unfold listenEnd
  by_cases h1 : stage s ≠ 14 ∨ s.boot.listened < 3
  · rw [if_pos h1, if_pos h1]
  have hs : stage s = 14 := not_not.mp (not_or.mp h1).1
  rw [if_neg h1, if_neg h1]
  by_cases h2 : pairRole s = 0 ∧ heardOwn s = true
  · rw [if_pos h2, if_pos h2]
    obtain ⟨k1, k2, k3⟩ := domainClash_effect s
    exact ⟨k1.trans hs, k2, k3⟩
  rw [if_neg h2, if_neg h2]
  dsimp only
  have w : Within 0x20080820008200 s (settleRole s) := settleRole_within .refl rfl
  have hr3 := settleRole_lone (s := s)
  have hother : pairRole s ≠ 3 → pairRole (settleRole s) ≠ 3 := fun h => by rwa [settleRole_other (.inl h)]
  have hsub := settleRole_sub s
  generalize settleRole s = a at w hr3 hother hsub
  have hsa : stage a = 14 := (w.getF_addr .boot _ rfl).trans hs
  have hb : stage (beginBeaconing a) = 15 := by
    unfold beginBeaconing
    rw [if_pos (show getF a .boot BOOT_STATUS.STAGE = 0x0E from hsa)]
    exact getF_setF_self _ _ _ _ (by decide)
  have hbr : pairRole (beginBeaconing a) = pairRole a := (beginBeaconing_within (m := 0x4) .refl rfl).getF_addr .pair _ rfl
  refine ⟨fun h3 hp => ?_, fun hn h3 => ?_⟩
  · rw [← hr3 h3 hp]
    split
    · rfl
    · exact hbr
  · rw [if_neg, hb]
    rintro (k | k)
    · rw [hsub, hn] at k
      cases k
    · by_cases e : pairRole s = 3
      · rw [hr3 e (h3.resolve_left (not_not_intro e))] at k
        split at k
        · omega
        · omega
      · exact hother e k

end Sys2Proof.Machine
end

section
/-!
PROOFS. The start-up sequence as a whole (R46, R84, R85, R87, R89, R91, R183, R281, R400).
-/
namespace Sys2Proof.Machine

/-- Stage 0x02: the temperature of the baseplate, and the cold hold (R46). -/
theorem stageTwo_effect (f : StageFind) {s : State} (h : stage s = 2) : getF (nextStage f s) .pwr PWR_BASE_TEMP.VALUE = f.temp.toNat ∧
    if startedBy s START.POWER_ON = true ∧ signedOf 16 f.temp.toNat < coldLimit then (nextStage f s).pwr.cold = true ∧ stage (nextStage f s) = 2
    else (nextStage f s).pwr.cold = s.pwr.cold ∧ stage (nextStage f s) = 3 := by
  have hv : getF (showBase f.temp s) .pwr PWR_BASE_TEMP.VALUE = f.temp.toNat := (getF_setF_self _ _ _ _ (by decide)).trans (Nat.mod_eq_of_lt f.temp.isLt)
  have w : Within 0x2 s (showBase f.temp s) := showBase_within .refl _ rfl
  rw [nextStage_two h]
  generalize showBase f.temp s = a at hv w
  by_cases hc : startedBy s START.POWER_ON = true ∧ signedOf 16 f.temp.toNat < coldLimit
  · rw [if_pos hc, if_pos hc]
    exact ⟨(getI_congr rfl).trans hv, rfl, (getI_congr rfl).trans ((w.getF_addr .boot BOOT_STATUS.STAGE rfl).trans h)⟩
  · rw [if_neg hc, if_neg hc]
    have k := setStage_within' 3 a
    exact ⟨(k.getF_addr .pwr _ rfl).trans hv, congrArg PwrSt.cold ((k.same .pwr rfl).trans (w.same .pwr rfl)), stage_setStage (by decide) a⟩

theorem coldHoldEnd_effect (s : State) : Yields .coldHoldEnd s (fun t =>
    if s.pwr.cold then stage t = 3 ∧ t.pwr.cold = false ∧ getF t .pwr PWR_WAKE_CAUSE.CAUSE = 0x20 else t = s) := by
  refine Yields.branch (c := s.pwr.cold = true) rfl Iff.rfl (fun _ => ?_) fun _ => rfl
  have h0 : ({ s with pwr := { s.pwr with cold := false } } : State).pwr.cold = false := rfl
  generalize ({ s with pwr := { s.pwr with cold := false } } : State) = a at h0
  have h1 : getF (setF .pwr PWR_WAKE_CAUSE.CAUSE 0x20 a) .pwr PWR_WAKE_CAUSE.CAUSE = 0x20 := getF_setF_self _ _ _ _ (by decide)
  have h2 : (setF .pwr PWR_WAKE_CAUSE.CAUSE 0x20 a).pwr = a.pwr := pwr_setF _ _ _ _
  generalize setF .pwr PWR_WAKE_CAUSE.CAUSE 0x20 a = b at h1 h2
  have k := setStage_within' 3 b
  exact ⟨stage_setStage (by decide) b, by rw [k.same .pwr rfl, h2, h0], (k.getF_addr .pwr _ rfl).trans h1⟩

/-- The stages that only lead to the next. -/
theorem stagePlain_effect (f : StageFind) {s : State} (h : stage s ∈ [1, 3, 4, 7, 8]) :
    stage (nextStage f s) = stage s + 1 ∧ mode (nextStage f s) = mode s ∧ RegsBut [addr .boot BOOT_STATUS.STAGE.off] s (nextStage f s) := by
  have hn : stage s + 1 < 256 := by
    simp only [List.mem_cons, List.not_mem_nil, or_false] at h
    omega
  rw [nextStage_plain rfl h]
  exact ⟨stage_setStage hn s, mode_setStage _ s, (RegsBut.refl _ _).setF _ List.mem_cons_self⟩

/-- Stage 0x05: the keys, or RECOVERY (R91). -/
theorem stageFive_effect (f : StageFind) {s : State} (h : stage s = 5) :
    if f.keyStore = false ∨ s.boot.recovery = true then mode (nextStage f s) = MODE.RECOVERY ∧ (killCauses (nextStage f s)).testBit KILL.MODE = true ∧
      (killCauses (nextStage f s)).testBit KILL.RESET = false ∧ (f.keyStore = false → getF (nextStage f s) .boot BOOT_STATUS.LAST_FAIL = 4)
    else stage (nextStage f s) = 6 ∧ (nextStage f s).cip.swk ≠ [] ∧
      (isSet s .pair PAIR_ROLE.PAIRED = true → pairRole (nextStage f s) = 3 ∧ isSet (nextStage f s) .pair PAIR_STATUS.HOLD_OFF = true) := by
  rw [nextStage_five h]
  by_cases hk : f.keyStore = false
  · rw [if_pos (.inl hk), if_pos (by rw [hk]; rfl)]
    obtain ⟨h1, h2, h3⟩ := enterRecovery_effect 4 s
    exact ⟨h1, h2, h3, fun _ => enterRecovery_fail (by decide) (by decide) s⟩
  have hk' : f.keyStore = true := Bool.not_eq_false _ ▸ hk
  rw [if_neg (c := (!f.keyStore) = true) (by rw [hk']; decide)]
  by_cases hr : s.boot.recovery = true
  · rw [if_pos (.inr hr), if_pos hr]
    obtain ⟨h1, h2, h3⟩ := enterRecovery_effect 0 (loadKeys s)
    exact ⟨h1, h2, h3, fun e => absurd e hk⟩
  · rw [if_neg (not_or.mpr ⟨hk, hr⟩), if_neg hr]
    obtain ⟨h1, h2⟩ := loadKeys_effect s
    generalize loadKeys s = a at h1 h2
    have k := setStage_within' 6 a
    refine ⟨stage_setStage (by decide) a, by rwa [k.same .cip rfl], fun hp => ?_⟩
    obtain ⟨h3, h4⟩ := h2 hp
    exact ⟨(k.getF_addr .pair PAIR_STATUS.ROLE rfl).trans h3, (FieldKept.within (q := .pair) (j := 0) k rfl).isSet.trans h4⟩

/-- Stage 0x06: the image of the module, or RECOVERY (R87). -/
theorem stageSix_cases (f : StageFind) {s : State} (h : stage s = 6) :
    if (bootModule s).isSome then stage (nextStage f s) = 7 ∧ mode (nextStage f s) = mode s ∧ ∀ i, (nextStage f s).boot.modRun = some i → i < 2 ∧ verifyImage s i = 0
    else mode (nextStage f s) = MODE.RECOVERY ∧ getF (nextStage f s) .boot BOOT_STATUS.LAST_FAIL = 1 := by
  rw [nextStage_six h]
  cases e : bootModule s with
  | none =>
    rw [if_neg (by simp), Option.elim_none]
    exact ⟨(enterRecovery_effect 1 _).1, enterRecovery_fail (by decide) (by decide) _⟩
  | some t =>
    rw [if_pos (Option.isSome_some (a := t)), Option.elim_some]
    exact stageSix_effect e

/-- Stage 0x09: the test of the memory, or RECOVERY (R84). -/
theorem stageNine_effect (f : StageFind) {s : State} (h : stage s = 9) :
    if failedBanks (testMemory f.columns s) = 0 then stage (nextStage f s) = 10 else mode (nextStage f s) = MODE.RECOVERY ∧ getF (nextStage f s) .boot BOOT_STATUS.LAST_FAIL = 3 := by
  rw [nextStage_nine h]
  generalize testMemory f.columns s = a
  by_cases hz : failedBanks a = 0
  · rw [if_pos hz, if_neg (by omega)]
    exact stage_setStage (by decide) a
  · rw [if_neg hz, if_pos (Nat.pos_of_ne_zero hz)]
    exact ⟨(enterRecovery_effect 3 a).1, enterRecovery_fail (by decide) (by decide) a⟩

theorem stageTen_effect (f : StageFind) {s : State} (h : stage s = 10) : stage (nextStage f s) = 11 ∧ (nextStage f s).mac.table = s.mac.table := by
  rw [nextStage_ten h]
  have w : Within 0x20000020008000 s (recountTable s) := recountTable_within .refl rfl
  generalize recountTable s = a at w
  exact ⟨stage_setStage (by decide) a, by rw [(setStage_within' _ a).same .mac rfl, w.same .mac rfl]⟩

/-- Stage 0x0D: microcode that runs leads to listening (R85). -/
theorem stageThirteen_effect (f : StageFind) {s : State} (h : stage s = 13) :
    if s.boot.ucodeRun.isSome then stage (nextStage f s) = 14 ∧ (nextStage f s).boot.listened = 0 else nextStage f s = s := by
  rw [nextStage_thirteen h]
  by_cases hr : s.boot.ucodeRun.isSome = true
  · rw [if_pos hr, if_pos hr]
    have h0 : ({ s with boot := { s.boot with listened := 0 } } : State).boot.listened = 0 := rfl
    generalize ({ s with boot := { s.boot with listened := 0 } } : State) = a at h0
    exact ⟨stage_setStage (by decide) a, by rw [(setStage_within' _ a).same .boot rfl, h0]⟩
  · rw [if_neg hr, if_neg hr]

/-- Settles O47: one lemma for each stage, over the state in which the stage is complete. -/
theorem startUp : Obligations.StartUp := by
  unfold Obligations.StartUp
  refine ⟨fun f s h => congrArg Host.Outcome.next (if_neg (by rw [h]; exact Bool.false_ne_true)), fun f s h hs => Yields.intro (exec_stage h) (stageTwo_effect f hs), coldHoldEnd_effect,
    fun f s h hs => Yields.intro (exec_stage h) (stagePlain_effect f hs), fun f s h hs => Yields.intro (exec_stage h) (stageFive_effect f hs),
    fun f s h hs => Yields.intro (exec_stage h) (stageSix_cases f hs), fun f s h hs => Yields.intro (exec_stage h) (stageNine_effect f hs),
    fun f s h hs => Yields.intro (exec_stage h) (stageTen_effect f hs), fun f s h hs => ?_, fun f s h hs => ?_,
    fun f s h hs => Yields.intro (exec_stage h) (stageThirteen_effect f hs), fun s => Yields.intro rfl (listenEnd_effect s)⟩
  · refine Yields.intro ((exec_stage h).trans (congrArg Host.Outcome.next (nextStage_eleven hs f))) ?_
    exact stageEleven_effect f.pipes s
  · refine Yields.intro ((exec_stage h).trans (congrArg Host.Outcome.next (nextStage_twelve hs f))) ?_
    exact stageTwelve_effect s

end Sys2Proof.Machine
end
